-- ==== Sys2Proof/Word.lean ====
section
/-! DEFINITION. Word.lean: the word types of the block and the plainest readings of a field of a number. -/

namespace Sys2Proof

/-- One byte. -/
abbrev Byte := BitVec 8
/-- A 16-bit field. -/
abbrev U16 := BitVec 16
/-- A 32-bit field. -/
abbrev U32 := BitVec 32
/-- A 64-bit field. -/
abbrev U64 := BitVec 64

/-- A die number, 0 for CD0 to 19 for SV1 (R22). -/
abbrev Die := Fin 20
/-- A mill number 12 × die + index, as the sub-indices of R217 count them. -/
abbrev MillId := Fin 96
/-- A sheaf processor number 32 × die + index, as the sub-indices of R327 count them. -/
abbrev ProcId := Fin 256
/-- A command queue number (R102). -/
abbrev QueueId := Fin 2048
/-- A journal slot number (R173). -/
abbrev SlotId := Fin 4096
/-- A memory-hub index, 0 for MH0 to 3 for MH3. -/
abbrev HubId := Fin 4
/-- An optical link number L0 to L31 (R557). -/
abbrev LinkId := Fin 32
/-- A die-to-die connection number C0 to C31 (R25). -/
abbrev ConnId := Fin 32
/-- A system MMU: 0 is that of PD0, 1 that of PD1 (R432). -/
abbrev MmuId := Fin 2
/-- A service die: 0 is SV0, 1 is SV1. -/
abbrev SvId := Fin 2
/-- An address-space number (R433). -/
abbrev Asid := BitVec 12

/-- Bits [hi:lo] of the number w, bit 0 the least significant (R13). -/
def bits (w hi lo : Nat) : Nat := (w >>> lo) % 2 ^ (hi + 1 - lo)

/-- Bit i of the number w. -/
def bit (w i : Nat) : Bool := w.testBit i

/-- A Boolean as the number 0 or 1. -/
def b2n (b : Bool) : Nat := if b then 1 else 0

end Sys2Proof
end

