-- ==== Sys2Proof/Syntax.lean ====
section
/-! DEFINITION. Syntax.lean: the commands of the block, one constructor of Instr for each row of spec/opcode_table.json.
A command's operands are what arrives from outside with it: the unit it concerns, the message's fields, the value written, the
measurement taken, and for an event that the spec times, the package time t at which it occurs. -/

namespace Sys2Proof

/-- The package time at which a timed event occurs (R553). -/
abbrev Instant := U64

/-- The steps one die counted in a step-rate window (R34). -/
structure StepCount where
  die : Die
  monitor : Nat
  issued : Nat
  deriving DecidableEq, Repr

/-- How an instruction of a queue whose row covers both its issue and its units is driven: it issues at the head of its queue,
or the running operation of a journal slot performs its next output unit. -/
inductive OpStep where
  | issue (q : QueueId)
  | unit (slot : SlotId)
  deriving DecidableEq, Repr

/-- A field of a queue control block that software writes and that has no row of its own (R105). -/
inductive QueueField where
  | watchdog | stopAfter | tref | sheafMask | unit | class | asid | submitFlags
  deriving DecidableEq, Repr

/-- A field of a relay control block that a supervisor core writes (R355). -/
inductive RelayField where
  | asid | producer | consumer | errFlags
  deriving DecidableEq, Repr

/-- A field of a fault-service control block (R478) or of the command-queue registers of R431. -/
inductive MmuField where
  | fqHead | prResp | respTimeout | fqIrq | fqEn | respErr | fctl | cqb | cqh | cqt | cqcsr | ipsr
  deriving DecidableEq, Repr

/-- A store, load or AMO of a core on an 8-byte word of the package region (R139, R746). -/
inductive CoreOp where
  | load | store | amoSwap | amoAdd | amoAnd | amoOr | amoXor | amoMin | amoMax | amoMinu | amoMaxu | lr | sc
  deriving DecidableEq, Repr

/-- A line as messages name it: bits [47:7] of its 48-bit address, with the realm flag above them (R47, R401). -/
abbrev LineTag := Nat

/-- A target of REGISTER_WRITE: a control field or a dictionary object that has no row of its own; or, in `bus`, whatever a core's access
of n bytes at a physical address with a realm flag reaches (R43), in `coreStore`, a core's store of n bytes at a virtual address under its
satp (R476), and in `debugRead` what a debug message reads: a word of a line, or, with no line, of a key store (R535, R544). -/
inductive RegTarget where
  | queue (q : QueueId) (f : QueueField)
  | journalReadPtr | journalIrqEnable | journalReleaseErr
  | relay (r : Fin 64) (f : RelayField)
  | relayEntry (r : Fin 64) (i : Fin 256) (word : Fin 8)
  | mmu (m : MmuId) (f : MmuField)
  | realmArg (i : Fin 3) | realmSelect
  | windowEntry (w : Fin 1024) (high : Bool)
  | mailbox (hart : Fin 192) (word : Fin 512)
  | object (addr : U32)
  | objectBytes (addr : U32) (off : U16) (data : List Byte)
  | bus (op : CoreOp) (pa : U64) (realm : Bool) (n : Fin 9)
  | debugRead (line : Option LineTag) (word : Fin 16)
  | coreStore (satp va : U64) (n : Fin 9)
  deriving DecidableEq, Repr

/-- One core access: its operation, byte offset in the word, size in bytes and operand. -/
structure CoreAccess where
  op : CoreOp
  off : Fin 8
  size : Nat
  value : U64
  deriving DecidableEq, Repr

/-- A counter that cores and signals reach: a die counter or a package counter (R139). -/
inductive CounterRef where
  | die (d : Die) (i : Fin 128)
  | package (c : Fin 1024)
  deriving DecidableEq, Repr

/-- The issuing sheaf of a sheaf instruction: a resident stook, by the number the model gives it, and a sheaf of it. -/
structure SheafRef where
  stook : Nat
  sheaf : Fin 32
  deriving DecidableEq, Repr

/-- A caching agent: 0 to 7 are the L2s of CD0 to CD7, 8 and 9 the core caches of PD0 and PD1 (R395, R483). -/
abbrev Agent := Fin 10

/-- The atomic operations of R322 that a home or an atomic unit performs, by their codes. -/
abbrev AtomicCode := Fin 16

/-- A parity or ECC event of a cache array (R396). -/
inductive ParityEvent where
  | dataL2 (agent : Agent) (line : LineTag)
  | dataL3 (line : LineTag)
  | tagCorrected (die : Die)
  | tagUncorrectable (die : Die) (line : LineTag)
  | directoryLost (line : LineTag)
  deriving DecidableEq, Repr

/-- The grant of a completion that carries data (R400). -/
inductive Grant where
  | e | s | m
  deriving DecidableEq, Repr

/-- The message classes that a lost flit is reported by (R550). -/
inductive LostMessage where
  | request (agent : Agent) (line : LineTag)
  | snoop (line : LineTag) (agent : Agent)
  | snoopResponse (line : LineTag) (agent : Agent)
  | completion (agent : Agent) (line : LineTag) (grant : Grant)
  | sync | debug
  deriving DecidableEq, Repr

/-- A die-to-die flit as its receiver sees it (R542, R543): its 128-byte data field, lowest byte first, and the fields of its 32-byte control
field. What messages a normal flit carries, its sender has chosen (R545). -/
structure D2dFlit where
  data : List Byte
  crc : U32
  seq : BitVec 12
  ack : BitVec 12
  kind : Fin 16
  dvc : Fin 16
  credits : List Byte
  reserved : BitVec 16
  hdr1 : U64
  hdr0 : U64
  deriving DecidableEq, Repr

/-- What FEC made of the codewords that a link flit overlaps (R557, R559): those that it corrected and those that it could not, each counted
with the first flit that it overlaps, and whether one that it could not correct overlaps this flit. -/
structure FecOutcome where
  corrected : Nat := 0
  uncorrected : Nat := 0
  hit : Bool := false
  deriving DecidableEq, Repr

/-- A Draov link flit as its receiver sees it (R561): its header's fields, its 244 payload bytes, and the CRC in its last four bytes; and what
FEC made of it. -/
structure LinkFlit where
  crc : U32
  kind : Fin 16
  seq : U16
  ack : U16
  crdTc : BitVec 2
  crd : BitVec 12
  tc : BitVec 2
  sop : Bool
  eop : Bool
  fill : BitVec 10
  payload : List Byte
  fec : FecOutcome := {}
  deriving DecidableEq, Repr

/-- A transport packet (R566). -/
structure Packet where
  ptype : BitVec 6
  tc : BitVec 2
  hops : BitVec 4
  pkey : BitVec 12
  src : U16
  dst : U16
  flow : U16
  epoch : Byte
  psn : U32
  offset : U64
  aux0 : BitVec 24
  aux1 : U32
  payload : List Byte
  deriving DecidableEq, Repr

/-- The kinds of an access to a remote window (R580). -/
inductive WindowOp where
  | read (len : Nat)
  | write (data : List Byte)
  | atomic (op : AtomicCode) (operand compare : U64)
  deriving DecidableEq, Repr

/-- Who makes an access: a core, or the operation of a journal slot on an engine (R582). -/
inductive Requester where
  | core
  | op (slot : SlotId)
  deriving DecidableEq, Repr

/-- The path by which a dictionary request comes (R654). -/
inductive Path where
  | mgmt (session : U32)
  | inband (channel : Fin 16)
  | core (hart : Fin 192)
  deriving DecidableEq, Repr

/-- The path by which a session's datagrams come: the management port or an in-band channel (R654). -/
inductive SessionPath where
  | mgmt
  | inband (channel : Fin 16)
  deriving DecidableEq, Repr

/-- The junction temperatures, in 0.1 °C, of the dies and the coolant temperatures that a thermal tick reads (R629, R632). -/
structure ThermalReading where
  tj : List (Die × Int)
  inlet : Int
  outlet : Int
  deriving DecidableEq, Repr

/-- The measured rates of one die's ripening check, normalised to 70 °C, one for each time the die is held (R645). -/
structure RipenReading where
  die : Die
  rates : List Nat
  deriving DecidableEq, Repr

/-- Activity events of one class on one die in an energy window, with the journal slot of the operation that causes them, if one does, and
how many operations have issued in that slot since (R637, R638). -/
structure Activity where
  cause : Option SlotId
  ago : Nat := 0
  die : Die
  cls : Fin 13
  count : Nat
  deriving DecidableEq, Repr

/-- A part on an I3C bus: laser module n or fibre assembly n (R728, R743). -/
inductive Part where
  | laser (n : Fin 4)
  | fibre (n : Fin 4)
  deriving DecidableEq, Repr

/-- What a cold reset meets outside the model: the number of its PUF read, whether the carrier's identity memory and the image store
answer, which connections train, and the ripening checks' measurements, and the dies' junction temperatures in 0.1 °C.
-/
structure BootReading where
  pufNoise : Nat
  carrierReads : Bool
  storeReads : Bool
  connTrained : List ConnId
  ripen : List RipenReading
  tj : List (Die × Int) := []
  deriving DecidableEq, Repr

/-- Where a local partial write begins in its line, and whether it is that of a core's AMO, or SC after LR (R416). -/
structure WritePlace where
  off : Fin 128
  amo : Bool
  deriving DecidableEq, Repr

/-- How the 60 V input has stood (R610, R616): until when, and the lowest and the highest mean over 1 µs of the 100 ms before, in mV. -/
structure SupplyHold where
  t : Instant
  low : Nat
  high : Nat
  deriving DecidableEq, Repr

/-- The commands of the block: one constructor for each row of the opcode table, in the order of the table. -/
inductive Instr where
  /-- WINDOW_END (R34). -/
  | windowEnd (counts : List StepCount)
  /-- STEP_WINDOW_WRITE (R40). -/
  | stepWindowWrite (v : U32)
  /-- STEP_RATE_LOWEST_WRITE (R42). -/
  | stepRateLowestWrite (die : Die) (v : U32)
  /-- ATTACH (R108). -/
  | attach (q : QueueId)
  /-- START (R108). -/
  | start (q : QueueId)
  /-- STOP (R108). -/
  | stop (q : QueueId)
  /-- ABORT (R138). -/
  | abort (q : QueueId)
  /-- DETACH (R108). -/
  | detach (q : QueueId)
  /-- SUBMIT_PUSH (R111). -/
  | submitPush (q : QueueId) (handle : U16)
  /-- HEAD_WRITE (R113). -/
  | headWrite (q : QueueId) (v : U32)
  /-- REGISTER_WRITE (R105). -/
  | registerWrite (target : RegTarget) (v : U64)
  /-- INSTRUCTION_FETCH (R749). -/
  | instructionFetch (q : QueueId)
  /-- NOP (R120). -/
  | nop (q : QueueId)
  /-- LOOP (R143). -/
  | loop (q : QueueId)
  /-- ENDLOOP (R147). -/
  | endloop (q : QueueId)
  /-- BREAK (R148). -/
  | brk (q : QueueId)
  /-- PHASE (R151). -/
  | phase (q : QueueId)
  /-- SETTIME (R152). -/
  | settime (q : QueueId)
  /-- SYNC (R153). -/
  | sync (q : QueueId)
  /-- HALT (R153). -/
  | halt (q : QueueId)
  /-- MATMUL (R192). -/
  | matmul (q : QueueId)
  /-- MATMUL_PART (R208). -/
  | matmulPart (q : QueueId)
  /-- ATTEND (R261). -/
  | attend (q : QueueId)
  /-- CHAIN (R240). -/
  | chain (q : QueueId)
  /-- COMBINE (R209). -/
  | combine (q : QueueId)
  /-- LAUNCH (R274). -/
  | launch (q : QueueId)
  /-- PREFETCH (R347). -/
  | prefetch (step : OpStep)
  /-- COPY (R349). -/
  | copy (step : OpStep)
  /-- RELAY_PUT (R358). -/
  | relayPut (q : QueueId)
  /-- RELAY_TAKE (R360). -/
  | relayTake (q : QueueId)
  /-- CRYPT (R509). -/
  | crypt (q : QueueId)
  /-- COMPRESS (R512). -/
  | compress (q : QueueId)
  /-- DECOMPRESS (R513). -/
  | decompress (q : QueueId)
  /-- INDEX (R515). -/
  | indexOp (q : QueueId)
  /-- SORTMERGE (R519). -/
  | sortmerge (step : OpStep)
  /-- GATHER (R521). -/
  | gather (step : OpStep)
  /-- ALLREDUCE (R596). -/
  | allreduce (step : OpStep)
  /-- REDUCESCATTER (R596). -/
  | reducescatter (step : OpStep)
  /-- ALLGATHER (R596). -/
  | allgather (step : OpStep)
  /-- BCAST (R596). -/
  | bcast (step : OpStep)
  /-- SEND (R596). -/
  | send (step : OpStep)
  /-- RECV (R596). -/
  | recv (step : OpStep)
  /-- SNAPSHOT (R183). -/
  | snapshot (step : OpStep)
  /-- JOURNAL_SLOT_ALLOCATE (R172). -/
  | journalSlotAllocate (slot : SlotId)
  /-- WATCHDOG_EXPIRY (R134). -/
  | watchdogExpiry (q : QueueId) (t : Instant)
  /-- OPERATION_BEGIN (R335). -/
  | operationBegin (slot : SlotId)
  /-- OPERATION_END (R179). -/
  | operationEnd (slot : SlotId)
  /-- SIGNAL (R129). -/
  | signal (q : QueueId)
  /-- JOURNAL_RELEASE (R181). -/
  | journalRelease (slot : SlotId)
  /-- FLAG_STORE (R746). -/
  | flagStore (die : Die) (i : Fin 512) (a : CoreAccess)
  /-- COUNTER_STORE (R746). -/
  | counterStore (c : CounterRef) (a : CoreAccess)
  /-- COUNTER_AMOADD (R746). -/
  | counterAmoadd (c : CounterRef) (a : CoreAccess)
  /-- MILL_STEP (R185). -/
  | millStep (m : MillId) (throttled : Bool)
  /-- SLOT_FILL_COMPLETE (R198). -/
  | slotFillComplete (m : MillId)
  /-- CURD_MOVE (R211). -/
  | curdMove (m : MillId)
  /-- TILE_WRITTEN (R212). -/
  | tileWritten (m : MillId)
  /-- STATS_ADD (R250). -/
  | statsAdd (m : MillId)
  /-- STOOK_START (R278). -/
  | stookStart (slot : SlotId)
  /-- SHEAF_NOP (R292). -/
  | sheafNop (g : SheafRef)
  /-- JMP (R292). -/
  | jmp (g : SheafRef)
  /-- JMPR (R292). -/
  | jmpr (g : SheafRef)
  /-- CALL (R292). -/
  | call (g : SheafRef)
  /-- EXIT (R281). -/
  | sExit (g : SheafRef)
  /-- BAR (R307). -/
  | bar (g : SheafRef)
  /-- SSYNC (R305). -/
  | ssync (g : SheafRef)
  /-- FENCE (R422). -/
  | fence (g : SheafRef)
  /-- YIELD (R302). -/
  | yield (g : SheafRef)
  /-- IADD (R292). -/
  | iadd (g : SheafRef)
  /-- ISUB (R292). -/
  | isub (g : SheafRef)
  /-- IMUL (R292). -/
  | imul (g : SheafRef)
  /-- IMULH (R292). -/
  | imulh (g : SheafRef)
  /-- IMAC (R292). -/
  | imac (g : SheafRef)
  /-- AND (R292). -/
  | sAnd (g : SheafRef)
  /-- OR (R292). -/
  | sOr (g : SheafRef)
  /-- XOR (R292). -/
  | sXor (g : SheafRef)
  /-- SHL (R292). -/
  | shl (g : SheafRef)
  /-- SHR (R292). -/
  | shr (g : SheafRef)
  /-- IMIN (R292). -/
  | imin (g : SheafRef)
  /-- IMAX (R292). -/
  | imax (g : SheafRef)
  /-- BCNT (R292). -/
  | bcnt (g : SheafRef)
  /-- LZC (R292). -/
  | lzc (g : SheafRef)
  /-- MOV (R292). -/
  | mov (g : SheafRef)
  /-- MOVHI (R292). -/
  | movhi (g : SheafRef)
  /-- F32ADD (R296). -/
  | f32add (g : SheafRef)
  /-- F32MUL (R296). -/
  | f32mul (g : SheafRef)
  /-- F32MAC (R296). -/
  | f32mac (g : SheafRef)
  /-- F32MIN (R296). -/
  | f32min (g : SheafRef)
  /-- F32MAX (R296). -/
  | f32max (g : SheafRef)
  /-- F64ADD (R296). -/
  | f64add (g : SheafRef)
  /-- F64MUL (R296). -/
  | f64mul (g : SheafRef)
  /-- F64MAC (R296). -/
  | f64mac (g : SheafRef)
  /-- F64MIN (R296). -/
  | f64min (g : SheafRef)
  /-- F64MAX (R296). -/
  | f64max (g : SheafRef)
  /-- CVT (R300). -/
  | cvt (g : SheafRef)
  /-- EXP2 (R299). -/
  | exp2 (g : SheafRef)
  /-- LOG2 (R299). -/
  | log2 (g : SheafRef)
  /-- RCP (R299). -/
  | rcp (g : SheafRef)
  /-- RSQRT (R299). -/
  | rsqrt (g : SheafRef)
  /-- SQRT (R299). -/
  | sqrt (g : SheafRef)
  /-- SINPI (R299). -/
  | sinpi (g : SheafRef)
  /-- COSPI (R299). -/
  | cospi (g : SheafRef)
  /-- FCMP (R292). -/
  | fcmp (g : SheafRef)
  /-- ICMP (R292). -/
  | icmp (g : SheafRef)
  /-- PICK (R292). -/
  | pick (g : SheafRef)
  /-- PCOMB (R292). -/
  | pcomb (g : SheafRef)
  /-- UOP (R292). -/
  | uop (g : SheafRef)
  /-- LANERD (R292). -/
  | lanerd (g : SheafRef)
  /-- ULOAD (R292). -/
  | uload (g : SheafRef)
  /-- LD (R318). -/
  | ld (g : SheafRef)
  /-- ST (R318). -/
  | st (g : SheafRef)
  /-- LDK (R315). -/
  | ldk (g : SheafRef)
  /-- STK (R315). -/
  | stk (g : SheafRef)
  /-- AMO (R323). -/
  | amo (g : SheafRef)
  /-- AMOK (R321). -/
  | amok (g : SheafRef)
  /-- LANEX (R306). -/
  | lanex (g : SheafRef)
  /-- POLL (R306). -/
  | poll (g : SheafRef)
  /-- REDUCE (R306). -/
  | reduce (g : SheafRef)
  /-- SCAN (R306). -/
  | scan (g : SheafRef)
  /-- SYSR (R293). -/
  | sysr (g : SheafRef)
  /-- TIME (R292). -/
  | sTime (g : SheafRef)
  /-- LINE_RESPONSE (R319). -/
  | lineResponse (g : SheafRef) (line : Nat)
  /-- BARRIER_DEADLINE (R310). -/
  | barrierDeadline (stook : Nat) (t : Instant)
  /-- SSYNC_TIMEOUT (R312). -/
  | ssyncTimeout (g : SheafRef) (t : Instant)
  /-- PREFETCHER_ISSUE (R344). -/
  | prefetcherIssue (m : MillId) (stream : Fin 4)
  /-- PREFETCH_FILL (R336). -/
  | prefetchFill (die : Fin 8) (line : LineTag)
  /-- PF_LIFETIME_EXPIRY (R341). -/
  | pfLifetimeExpiry (die : Fin 8) (line : LineTag) (t : Instant)
  /-- RELAY_ENABLE (R356). -/
  | relayEnable (r : Fin 64)
  /-- RELAY_DISABLE (R363). -/
  | relayDisable (r : Fin 64)
  /-- RELAY_CORE_PUTS_WRITE (R361). -/
  | relayCorePutsWrite (r : Fin 64) (v : U32)
  /-- RELAY_CORE_TAKES_WRITE (R361). -/
  | relayCoreTakesWrite (r : Fin 64) (v : U32)
  /-- READ_SHARED (R404). -/
  | readShared (agent : Agent) (line : LineTag) (errSymbols : Nat)
  /-- READ_OWN (R404). -/
  | readOwn (agent : Agent) (line : LineTag) (errSymbols : Nat)
  /-- WRITE_CLAIM (R404). -/
  | writeClaim (agent : Agent) (line : LineTag)
  /-- UPGRADE (R405). -/
  | upgrade (agent : Agent) (line : LineTag) (errSymbols : Nat)
  /-- READ_ONCE (R404). -/
  | readOnce (die : Die) (line : LineTag) (errSymbols : Nat)
  /-- WRITE_PUSH (R404). -/
  | writePush (die : Die) (line : LineTag) (off : Fin 128) (data : List Byte)
  /-- ATOMIC_HOME (R404). -/
  | atomicHome (die : Die) (line : LineTag) (off : Fin 128) (op : AtomicCode) (operand compare : U64)
  /-- WRITE_BACK (R405). -/
  | writeBack (agent : Agent) (line : LineTag) (data : List Byte) (poison : Bool)
  /-- EVICT_CLEAN (R405). -/
  | evictClean (agent : Agent) (line : LineTag)
  /-- SNP_SHARED (R403). -/
  | snpShared (agent : Agent) (line : LineTag) (epoch : Byte)
  /-- SNP_INV (R403). -/
  | snpInv (agent : Agent) (line : LineTag) (epoch : Byte)
  /-- SNP_ONCE (R403). -/
  | snpOnce (agent : Agent) (line : LineTag) (epoch : Byte)
  /-- RSP_INVALID (R404). -/
  | rspInvalid (agent : Agent) (line : LineTag) (epoch : Byte)
  /-- RSP_SHARED (R404). -/
  | rspShared (agent : Agent) (line : LineTag) (epoch : Byte)
  /-- RSP_DATA (R406). -/
  | rspData (agent : Agent) (line : LineTag) (epoch : Byte) (data : List Byte) (dirty evicting poison : Bool)
  /-- COMPLETION_DATA (R403). -/
  | completionData (agent : Agent) (line : LineTag) (grant : Grant) (data : List Byte) (poison : Bool)
  /-- COMPLETION_ACK (R403). -/
  | completionAck (agent : Agent) (line : LineTag) (poison : Bool)
  /-- WB_ACK (R407). -/
  | wbAck (agent : Agent) (line : LineTag)
  /-- WB_SUPERSEDED (R407). -/
  | wbSuperseded (agent : Agent) (line : LineTag)
  /-- LOCAL_READ (R403). -/
  | localRead (agent : Agent) (line : LineTag) (hint : Fin 16)
  /-- LOCAL_PARTIAL_WRITE (R403). -/
  | localPartialWrite (agent : Agent) (line : LineTag) (at_ : WritePlace) (data : List Byte)
  /-- LOCAL_FULL_WRITE (R403). -/
  | localFullWrite (agent : Agent) (line : LineTag) (data : List Byte)
  /-- EVICTION (R407). -/
  | eviction (agent : Agent) (line : LineTag)
  /-- HOME_TIMEOUT (R411). -/
  | homeTimeout (line : LineTag) (t : Instant)
  /-- WCB_DRAIN (R383). -/
  | wcbDrain (line : LineTag) (errSymbols : Nat)
  /-- PATROL_SCRUB (R379). -/
  | patrolScrub (hub : HubId) (errSymbols : Nat)
  /-- PARITY_ERROR (R396). -/
  | parityError (ev : ParityEvent)
  /-- MARGIN_RUN (R386). -/
  | marginRun (v : Byte)
  /-- MARGIN_SWEEP_DONE (R387). -/
  | marginSweepDone (edges : List (Int × Int))
  /-- IOTINVAL_VMA (R472). -/
  | iotinvalVma (m : MmuId) (gv av pscv : Bool) (pscid : Asid) (addr : U64)
  /-- IOFENCE_C (R473). -/
  | iofenceC (m : MmuId) (av : Bool) (addr : U64) (data : U32)
  /-- TRANSLATION_MISS (R457). -/
  | translationMiss (die : Die) (stream : Byte) (q : QueueId) (asid : Asid) (va : U64) (rights : BitVec 3)
  /-- WALK_COMPLETE (R460). -/
  | walkComplete (die : Die) (asid : Asid) (vpn : Nat)
  /-- PR_RESP_RESOLVED (R465). -/
  | prRespResolved (m : MmuId) (tag : U16)
  /-- PR_RESP_FAILED (R467). -/
  | prRespFailed (m : MmuId) (tag : U16)
  /-- PR_TIMEOUT (R468). -/
  | prTimeout (m : MmuId) (tag : U16) (t : Instant)
  /-- HELD_RECORD_WRITE (R481). -/
  | heldRecordWrite (m : MmuId)
  /-- CTX_BASE_WRITE (R754). -/
  | ctxBaseWrite (m : MmuId) (v : U64)
  /-- FQ_BASE_WRITE (R754). -/
  | fqBaseWrite (m : MmuId) (v : U64)
  /-- QUANTUM_END (R495). -/
  | quantumEnd (sv : SvId) (engine : Fin 5) (taken : Nat)
  /-- WORK_ENTRY_DONE (R505). -/
  | workEntryDone (slot : SlotId)
  /-- CREATE (R531). -/
  | realmCreate
  /-- QUOTE (R531). -/
  | realmQuote
  /-- LOADKEY (R534). -/
  | realmLoadKey
  /-- DROPKEY (R531). -/
  | realmDropKey
  /-- DESTROY (R536). -/
  | realmDestroy
  /-- SCRUB (R537). -/
  | realmScrub
  /-- FLIT_RECEIVE (R548). -/
  | flitReceive (die : Die) (port : Fin 6) (f : D2dFlit)
  /-- FLIT_NAK (R549). -/
  | flitNak (die : Die) (port : Fin 6) (ack : BitVec 12)
  /-- CONNECTION_DOWN (R550). -/
  | connectionDown (c : ConnId) (byReplays : Bool) (lost : List LostMessage)
  /-- ROUTE_LOAD (R551). -/
  | routeLoad
  /-- TIME_EXCHANGE (R555). -/
  | timeExchange (l : LinkId)
  /-- TIME_FRAME (R555). -/
  | timeFrame (l : LinkId) (t1 t2 t3 t4 : U64)
  /-- LINK_TRAINING_DONE (R558). -/
  | linkTrainingDone (l : LinkId) (neighbour : U16)
  /-- LINK_FLIT_RECEIVE (R561). -/
  | linkFlitReceive (l : LinkId) (f : LinkFlit)
  /-- LINK_NAK (R564). -/
  | linkNak (l : LinkId) (ack : U16)
  /-- LINK_DOWN (R565). -/
  | linkDown (l : LinkId) (cause : Fin 5)
  /-- PACKET_TRANSIT (R583). -/
  | packetTransit (ox : Fin 4) (p : Packet)
  /-- HOST_WRITE (R576). -/
  | hostWrite (l : LinkId) (p : Packet)
  /-- HOST_READ (R576). -/
  | hostRead (l : LinkId) (p : Packet)
  /-- HOST_PUSH (R577). -/
  | hostPush (l : LinkId) (p : Packet)
  /-- HOST_ADD (R577). -/
  | hostAdd (l : LinkId) (p : Packet)
  /-- HOST_COMPLETION (R567). -/
  | hostCompletion (l : LinkId) (p : Packet)
  /-- REMOTE_READ_REQUEST (R581). -/
  | remoteReadRequest (l : LinkId) (p : Packet)
  /-- REMOTE_READ_RESPONSE (R580). -/
  | remoteReadResponse (l : LinkId) (p : Packet)
  /-- REMOTE_WRITE (R581). -/
  | remoteWrite (l : LinkId) (p : Packet)
  /-- REMOTE_WRITE_ACK (R580). -/
  | remoteWriteAck (l : LinkId) (p : Packet)
  /-- REMOTE_ATOMIC (R581). -/
  | remoteAtomic (l : LinkId) (p : Packet)
  /-- REMOTE_WINDOW_ACCESS (R580). -/
  | remoteWindowAccess (by_ : Requester) (pa : U64) (op : WindowOp)
  /-- WINDOW_DISABLE (R579). -/
  | windowDisable (w : Fin 1024)
  /-- COLLECTIVE_DATA (R600). -/
  | collectiveData (l : LinkId) (p : Packet)
  /-- COLLECTIVE_GRANT (R603). -/
  | collectiveGrant (l : LinkId) (p : Packet)
  /-- TRANSPORT_ACK (R568). -/
  | transportAck (l : LinkId) (p : Packet)
  /-- UNREACHABLE_NOTICE (R568). -/
  | unreachableNotice (l : LinkId) (p : Packet)
  /-- TRANSPORT_TIMEOUT (R568). -/
  | transportTimeout (flow : U16) (t : Instant)
  /-- LINK_ROLE_WRITE (R572). -/
  | linkRoleWrite (l : LinkId) (v : Byte)
  /-- LINK_ENABLE_WRITE (R565). -/
  | linkEnableWrite (l : LinkId) (v : Bool)
  /-- PKEY_ENABLE (R591). -/
  | pkeyEnable (k : BitVec 12)
  /-- PKEY_DISABLE (R590). -/
  | pkeyDisable (k : BitVec 12)
  /-- QUARANTINE_END (R592). -/
  | quarantineEnd (k : BitVec 12) (t : Instant)
  /-- KEY_DRAINED (R592). -/
  | keyDrained (k : BitVec 12)
  /-- DEVICE_ID_WRITE (R606). -/
  | deviceIdWrite (v : U16)
  /-- POWER_GOOD_HOLD (R610). -/
  | powerGoodHold (hold : SupplyHold)
  /-- SAG_WARN (R612). -/
  | sagWarn (mv : Nat) (watts : U16)
  /-- SAG_WARN_END (R614). -/
  | sagWarnEnd (mv : Nat)
  /-- SAG_RESET (R615). -/
  | sagReset (mv : Nat)
  /-- OVER_VOLTAGE (R616). -/
  | overVoltage (mv : Nat)
  /-- POWER_EVALUATION (R621). -/
  | powerEvaluation
  /-- CAP_WINDOW_END (R624). -/
  | capWindowEnd (watts : Nat) (throttle : Fin 241)
  /-- POWER_CAP_WRITE (R625). -/
  | powerCapWrite (v : U16)
  /-- RAIL_WINDOW_END (R626). -/
  | railWindowEnd (die : Die) (short : Bool) (amps : Nat) (steps : Nat) (throttle : Fin 241)
  /-- THERMAL_TICK (R629). -/
  | thermalTick (r : ThermalReading)
  /-- THERMAL_TRIP (R631). -/
  | thermalTrip (die : Die)
  /-- ENERGY_WINDOW_END (R640). -/
  | energyWindowEnd (measured : Option Nat) (volts : List (Die × Nat)) (acts : List Activity)
  /-- JOB_OPEN (R636). -/
  | jobOpen (v : Byte)
  /-- JOB_CLOSE (R636). -/
  | jobClose (v : Byte)
  /-- RIPEN_CHECK (R645). -/
  | ripenCheck (readings : List RipenReading)
  /-- RIPEN_INTERVAL (R644). -/
  | ripenInterval (t : Instant) (readings : List RipenReading)
  /-- INIT (R664). -/
  | sessionInit (path : SessionPath) (datagram : List Byte)
  /-- FINISH (R664). -/
  | sessionFinish (path : SessionPath) (datagram : List Byte)
  /-- DISCOVER (R661). -/
  | sessionDiscover (path : SessionPath) (datagram : List Byte)
  /-- REQUEST (R675). -/
  | sessionRequest (path : SessionPath) (datagram : List Byte)
  /-- KEEPALIVE (R669). -/
  | sessionKeepalive (path : SessionPath) (datagram : List Byte)
  /-- CLOSE (R669). -/
  | sessionClose (path : SessionPath) (datagram : List Byte)
  /-- HANDSHAKE_TIMEOUT (R668). -/
  | handshakeTimeout (session : U32) (t : Instant)
  /-- SESSION_IDLE_TIMEOUT (R669). -/
  | sessionIdleTimeout (session : U32) (t : Instant)
  /-- READ (R673). -/
  | readObject (path : Path) (addr : U32) (off len : U16)
  /-- WRITE (R673). -/
  | writeObject (path : Path) (addr : U32) (value : U64) (data : List Byte)
  /-- READ_PENDING (R673). -/
  | readPending (path : Path) (addr : U32)
  /-- DESCRIBE (R687). -/
  | describe (path : Path) (addr : U32)
  /-- NEXT (R673). -/
  | nextObject (path : Path) (addr : U32)
  /-- SUBSCRIBE (R673). -/
  | subscribe (path : Path) (mask : Byte)
  /-- APPLY (R690). -/
  | applyGroup (group : Fin 3)
  /-- DISCARD (R690). -/
  | discardGroup (group : Fin 3)
  /-- DEFAULTS (R690). -/
  | defaults (group : Fin 3)
  /-- QUIESCENT_BOUNDARY (R692). -/
  | quiescentBoundary (group : Fin 3)
  /-- CRED_MIN_GENERATION_WRITE (R670). -/
  | credMinGenerationWrite (v : U32)
  /-- INBAND_REQUEST (R679). -/
  | inbandRequest (channel : Fin 16)
  /-- CORE_MAILBOX_SUBMIT (R681). -/
  | coreMailboxSubmit (hart : Fin 192)
  /-- COLD_RESET (R709). -/
  | coldReset (r : BootReading)
  /-- WARM_RESET (R710). -/
  | warmReset (fatal : Bool) (connTrained : List ConnId)
  /-- MC_RESTART (R738). -/
  | mcRestart
  /-- MC_WATCHDOG_EXPIRY (R738). -/
  | mcWatchdogExpiry
  /-- RESET_REQUEST_WARM (R738). -/
  | resetRequestWarm (connTrained : List ConnId)
  /-- RESET_REQUEST_COLD (R738). -/
  | resetRequestCold (r : BootReading)
  /-- RESET_REQUEST_MC_RESTART (R738). -/
  | resetRequestMcRestart
  /-- BRINGUP_REQUEST (R711). -/
  | bringupRequest (v : Bool)
  /-- BOOT_CONTINUE (R711). -/
  | bootContinue (v : Bool) (r : BootReading)
  /-- FLOOR_RAISE (R718). -/
  | floorRaise (v : Bool)
  /-- ATTEST_RUN (R727). -/
  | attestRun (path : Path) (v : Bool)
  /-- XFER_BEGIN (R719). -/
  | xferBegin (path : Path) (v : U64)
  /-- XFER_WINDOW (R719). -/
  | xferWindow (path : Path) (off : U16) (data : List Byte)
  /-- XFER_COMMIT (R721). -/
  | xferCommit (path : Path) (v : Bool)
  /-- REMOVE_PREPARE (R734). -/
  | removePrepare (v : Bool)
  /-- PRESENCE_OPEN (R733). -/
  | presenceOpen
  /-- PRESENCE_CLOSE (R733). -/
  | presenceClose
  /-- LOSS_OF_SIGNAL (R736). -/
  | lossOfSignal (l : LinkId)
  /-- LASER_MODULE_LOSS (R737). -/
  | laserModuleLoss (n : Fin 4)
  /-- LASER_INTERLOCK_OPEN (R732). -/
  | laserInterlockOpen (n : Fin 4)
  /-- HOT_JOIN (R737). -/
  | hotJoin (p : Part) (contents : List Byte)
  /-- BOUNDARY_SCAN_INSTRUCTION (R742). -/
  | boundaryScanInstruction (bypassOrIdcode : Bool)
  /-- PACKAGE_TIME_REACHED (R126). -/
  | packageTimeReached (q : QueueId)
  /-- THERMAL_TRIP_RESTART (R631). -/
  | thermalTripRestart (inletTenths : Int) (coolFor : Nat) (t : Instant)
  /-- RIPEN_POSTPONED_CHECK (R645). -/
  | ripenPostponedCheck (t : Instant) (r : RipenReading)
  /-- REALM_COMMAND_DONE (R532). -/
  | realmCommandDone
  /-- XFER_STORE_DONE (R722). -/
  | xferStoreDone
  /-- READY_FOR_REMOVAL (R734). -/
  | readyForRemoval
  /-- LASER_INTERLOCK_CLOSE (R732). -/
  | laserInterlockClose (n : Fin 4)
  /-- PLCA_BEACON (R659). -/
  | plcaBeacon
  /-- MGMT_PORT_LINK_CHANGE (R657). -/
  | mgmtPortLinkChange (up : Bool)
  /-- NEIGHBOR_DISCOVERY (R657). -/
  | neighborDiscovery (target : List Byte) (source : List Byte)
  /-- ICMPV6_ECHO (R657). -/
  | icmpv6Echo (source : List Byte) (ident seq : U16) (data : List Byte)
  deriving DecidableEq, Repr

end Sys2Proof
end

