-- ==== Sys2Proof/Decode.lean ====
section
/-! DEFINITION. Decode.lean: the commands that a word of bits spells. The opcode table gives no row of this block any bits, so no word
spells a command: the block is driven by events and register writes, whose operands the commands carry. -/

namespace Sys2Proof

/-- The command that the bits w of an nbits-wide word of the opcode table spell: none, since the table gives no row bits. -/
def decodeTableWord (_nbits _w : Nat) : Option Instr := none

end Sys2Proof
end

