-- ==== Sys2Proof/Machine/Table.lean ====
section
/-! DEFINITION. Machine/Table.lean: sparse tables, the plain-data form every register file, memory and cache of State has.
A table is a list of (key, value) pairs in one canonical form: keys strictly rising and no value equal to the table's default. -/

namespace Sys2Proof.Machine

/-- A sparse table: what it does not list reads as the table's default. -/
abbrev Table (α : Type) := List (Nat × α)

/-- The value at key k, the default d where k is not listed. -/
def Table.get {α : Type} (d : α) : Table α → Nat → α
  | [], _ => d
  | (k', v) :: r, k => if k' = k then v else Table.get d r k

/-- Take key k out: it reads as the default from now on. -/
def Table.erase {α : Type} (t : Table α) (k : Nat) : Table α := t.filter (fun e => !(e.1 == k))

/-- List v at key k, in the order of the keys. -/
def Table.put {α : Type} : Table α → Nat → α → Table α
  | [], k, v => [(k, v)]
  | (k', v') :: r, k, v =>
    if k < k' then (k, v) :: (k', v') :: r else if k = k' then (k, v) :: r else (k', v') :: Table.put r k v

/-- Put v at key k, keeping the canonical form: the default is never listed. -/
def Table.set {α : Type} [DecidableEq α] (d : α) (t : Table α) (k : Nat) (v : α) : Table α :=
  if v = d then t.erase k else t.put k v

/-- Every key of a table is above k. -/
def Table.above {α : Type} (k : Nat) : Table α → Bool
  | [] => true
  | (k', _) :: _ => k < k'

/-- The canonical form: keys strictly rising, no listed value the default. -/
def Table.wf {α : Type} [DecidableEq α] (d : α) : Table α → Bool
  | [] => true
  | (k, v) :: r => Table.above k r && !(v = d) && Table.wf d r

/-- Keep the entries whose key satisfies p. -/
def Table.keep {α : Type} (p : Nat → Bool) (t : Table α) : Table α := t.filter (fun e => p e.1)

/-- Put the values of a list at consecutive keys from k. -/
def Table.setRange {α : Type} [DecidableEq α] (d : α) (t : Table α) (k : Nat) : List α → Table α
  | [] => t
  | v :: vs => Table.setRange d (Table.set d t k v) (k + 1) vs

/-- The values at n consecutive keys from k. -/
def Table.getRange {α : Type} (d : α) (t : Table α) (k n : Nat) : List α :=
  (List.range n).map (fun i => Table.get d t (k + i))

/-- Put value v at every key of a range. -/
def Table.fill {α : Type} [DecidableEq α] (d : α) (t : Table α) (k n : Nat) (v : α) : Table α :=
  Table.setRange d t k (List.replicate n v)

end Sys2Proof.Machine
end

