-- ==== Sys2Proof/Machine/StateBoot.lean ====
section
/-! DEFINITION. Machine/StateBoot.lean: the state of power, supply and ripening (12), of the management port and the object dictionary's
sessions (13), and of the root of trust, the identity memories and hot plug (14). -/

namespace Sys2Proof.Machine

/-- The cause of a shutdown that the power stage latches (R617), with the die of a thermal trip. -/
inductive Shutdown where
  | sagReset | overVoltage | thermalTrip (die : Die)
  deriving DecidableEq, Repr

/-- The record of a job slot or of the unattributed bucket (R643). The modelled energy is kept exact, in units of a picojoule
divided by 720². -/
structure JobRecord where
  measured : Nat := 0
  modelledExact : Nat := 0
  tOpen : U64 := 0
  tClose : U64 := 0
  windows : U32 := 0
  modelled : Bool := false
  isOpen : Bool := false
  deriving DecidableEq, Repr

/-- The power manager, the hot-swap controller and the power stage (R610 to R650). Tables by die read 7 for a ceiling, 0 otherwise;
`lastRec` holds when each kind of record was last written for a die. -/
structure PowerState where
  rails : Bool := true
  hotSwap : Bool := true
  latch : Option Shutdown := none
  bringUpLatch : Bool := false
  tripWait : Bool := false
  scanHold : Bool := false
  warning : Bool := false
  supplyIrq : Bool := false
  attention : Bool := false
  moduleCeil : Nat := 7
  thermCeil : Table Nat := []
  railSince : Table Nat := []
  lastRec : Table (Option U64) := []
  capStart : U64 := 0
  history : List Nat := []
  overRun : Nat := 0
  underRun : Nat := 0
  tickStart : U64 := 0
  coolRun : Table Nat := []
  energyStart : U64 := 0
  jobs : Table JobRecord := []
  activity : Table Nat := []
  trims : Table Nat := []
  rates : Table Nat := []
  refs : Table Nat := []
  worn : Nat := 0
  ripenSeq : Nat := 0
  ripenCopy : Nat := 1
  checks : Nat := 0
  hoursBase : Nat := 0
  ripenSince : U64 := 0
  postponed : List (Die × U64) := []
  ripenWaits : Option (List RipenReading) := none
  ripenAsked : Bool := false
  deriving DecidableEq, Repr

/-- An attached identity memory: absent, or its bytes (R729). -/
abbrev IdMem := Option (List Byte)

/-- What each session and each core mailbox has of its own of attestation (R727). -/
structure AttestCopy where
  nonce : List Byte := List.replicate 48 0
  report : List Byte := []
  deriving DecidableEq, Repr

/-- A session of the management port or of an in-band channel (R664 to R669, R676, R677): its number, path and roles; the credential's
generation and public key; its two keys; whether FINISH has been accepted, the digest FINISH signs, and its deadline; the highest sequence
accepted and the accepted ones within 64 below it; the sequence sent last; when a datagram was last accepted; the responses kept; the
highest request ID; and the event mask. -/
structure Session where
  num : Nat
  path : SessionPath
  roles : Nat
  gen : Nat
  pub : List Byte
  keyIn : List Byte
  keyOut : List Byte
  isOpen : Bool := false
  toSign : List Byte := []
  deadline : U64 := 0
  high : Nat := 0
  seen : List Nat := []
  sent : Nat := 0
  last : U64 := 0
  kept : List (Nat × List Byte) := []
  highId : Option Nat := none
  mask : Byte := 0
  deriving DecidableEq, Repr

/-- A frame the management port sends: a UDP datagram to a client, or a Neighbor Discovery or ICMPv6 message to an address. -/
inductive Frame where
  | datagram (path : SessionPath) (bytes : List Byte)
  | neighborAdvert (dest : List Byte) (target mac : List Byte)
  | echoReply (dest : List Byte) (ident seq : U16) (data : List Byte)
  deriving DecidableEq, Repr

/-- What a dictionary operation has answered (R672): status, value and data. -/
structure OpReply where
  status : Nat
  value : Nat := 0
  data : List Byte := []
  deriving DecidableEq, Repr

/-- The rings of an in-band channel as the dictionary server counts them (R679): requests taken, replies written. -/
structure Ring where
  taken : Nat := 0
  written : Nat := 0
  deriving DecidableEq, Repr

/-- An open transfer (R719): who opened it, its target and length, the bytes that have come, and whether a commit is storing it. -/
structure Transfer where
  by_ : Path
  target : Nat
  len : Nat
  data : Table Byte := []
  committed : Bool := false
  deriving DecidableEq, Repr

/-- The management controller, the dictionary server and the management port (R654 to R696). Mailbox memory is keyed by
512 × hart + 8-byte word; a doorbell reads 0 idle, 1 busy, 2 done. -/
structure MgmtState where
  sessions : List Session := []
  nextSession : Nat := 1
  waiting : List Frame := []
  sent : List Frame := []
  reply : Option OpReply := none
  rings : Table Ring := []
  mailbox : Table U64 := []
  doorbell : Table Nat := []
  applied : Table (Option (List Nat)) := []
  attest : Table AttestCopy := []
  transfer : Option Transfer := none
  deriving DecidableEq, Repr

/-- The firmware image that runs (R716): its versions and the firmware measurement. -/
structure Firmware where
  version : Nat
  security : Nat
  measurement : List Byte
  deriving DecidableEq, Repr

/-- The root of trust and what the module carrier, power stage, laser modules and fibre assemblies hold (R698 to R737). The carrier's
identity memory and the image store list what has been written over their contents at manufacture; `counters` are the one-way counters
of R704; `storeBlank` says that the store is erased or being written, `erased` that what it held at manufacture is gone. -/
structure BootState where
  carrier : Table (Option Byte) := []
  store : Table (Option Byte) := []
  storeBlank : Bool := false
  erased : Bool := false
  counters : Vector Nat 3 := #v[0, 0, 0]
  parts : Vector IdMem 9 := Vector.replicate 9 none
  interlock : Vector Bool 4 := Vector.replicate 4 false
  pinClosed : Bool := true
  preparing : Bool := false
  prepared : Bool := false
  secret : Option (List Byte) := none
  puf : Option (List Byte) := none
  slot : Option Nat := none
  image : Option Firmware := none
  tree : Option Nat := none
  leaf : Nat := 0
  configSeq : Nat := 0
  configCopy : Nat := 1
  reading : Option BootReading := none
  deriving DecidableEq, Repr

end Sys2Proof.Machine
end

