-- ==== Sys2Proof/Config.lean ====
section
/-! DEFINITION. Config.lean: what the spec leaves open or takes from a standard it only names. Every constant here is opaque:
it has no body, so nothing in Lean can evaluate it, and a claim about the block holds whatever it is. -/

namespace Sys2Proof

/-- Free value for a rounding of an irrational result that no tried interval settles (log entry 5). -/
opaque Config.freeRounding : Nat → Nat → Nat
/-- Free value for a result the spec leaves open, by a fresh number (log entry 6). -/
opaque Config.freeValue : Nat → Nat
/-- The n-th 256-bit draw of the random bit generator of the root of trust (R524; log entry 8). -/
opaque Config.drawBits : Nat → BitVec 512
/-- The number an ECDSA signature draws for itself (FIPS 186-5; R664, R702; log entry 8). -/
opaque Config.ecdsaNonce : (priv : Nat) → (digest : List Byte) → Nat
/-- The identifier of a tree of the device LMS key: R699 says that the seed gives every tree, not how (log entry 8). -/
opaque Config.lmsId : (seed : List Byte) → (level index : Nat) → List Byte
/-- The private start of a chain of a one-time key of such a tree (R699; log entry 8). -/
opaque Config.otsKey : (seed : List Byte) → (level index leaf chain : Nat) → List Byte
/-- The random bytes of a one-time signature (RFC 8554; R724; log entry 8). -/
opaque Config.otsRandom : (seed : List Byte) → (level index leaf : Nat) → (msg : List Byte) → List Byte
/-- The Cerund keys whose digests the boot ROM holds (R702): the ECDSA and the HSS key of firmware images. -/
opaque Config.firmwareKey : List Byte
opaque Config.firmwareHss : List Byte
/-- The Cerund keys of personality records (R702). -/
opaque Config.personalityKey : List Byte
opaque Config.personalityHss : List Byte
/-- The Cerund parts key (R729). -/
opaque Config.partsKey : List Byte
/-- The SHA-384 digest of the Cerund service key that the boot ROM holds (R702, R714). -/
opaque Config.serviceKeyDigest : List Byte
/-- The device secret reconstructed from a PUF read and helper data (R698). -/
opaque Config.pufSecret : (puf helper : List Byte) → List Byte
/-- The byte at an offset of the carrier's identity memory when the module ships (R703; log entry 30). -/
opaque Config.carrierByte : Nat → Byte
/-- The byte at an offset of the image store when the module ships (R716; log entry 30). -/
opaque Config.storeByte : Nat → Byte
/-- The byte at an offset of the image store once it has been erased (R721; log entry 30). -/
opaque Config.erasedByte : Nat → Byte
/-- What the root of trust reads from the PUF array at a power-on (R698; log entry 8). -/
opaque Config.pufRead : Nat → List Byte

/-- The stream COMPRESS writes: R514 states that it is a function of these and a valid stream, not which (log entry 9). -/
opaque Config.compress : (format level : Nat) → (dict input : List Byte) → List Byte

/-- How many output bytes of a failed work entry had been written, by what the entry's outcome depends on (R497, R506; log entry 6). -/
opaque Config.zeroedBytes : (opcode option prm : Nat) → (key dict aux src : List Byte) → Nat
/-- The bytes that a sort of more than one pass leaves in its scratch buffer, by its parameters and input (R497, R520; log entry 6). -/
opaque Config.sortScratch : (prm : Nat) → (input : List Byte) → Nat → Byte

/-- The directory set of a line: R394 gives the ways and the entries and names no set function (log entry 11). -/
opaque Config.dirSet : Nat → Nat
/-- The credits of a virtual channel at a die-to-die port: R544 gives each channel its own and no number (log entry 85). -/
opaque Config.portCredits : Nat → Nat
/-- The system MMU's capabilities register: R430 says which modes it reports, and no more of its value (log entry 24). -/
opaque Config.mmuCapabilities : Nat
end Sys2Proof
end

