-- ==== Sys2Proof/Machine/Dictionary.lean ====
section
/-! DEFINITION. Machine/Dictionary.lean: the object dictionary, one row for each line of the object tables of spec/ (R17, R682, R683,
R687, R688): where an object lies, its type, access class, size, whether it exists once per die, its commit group, its writable range
and its defaults by sub-index. -/

namespace Sys2Proof.Machine

/-- The access classes of R683. -/
inductive Access where
  | ro | rw | wo | coupled | bringUp
  deriving DecidableEq, Repr

/-- One row of the dictionary: subsystem, index range, sub-index range, type code (R682), class, size in bytes, whether the sub-index is
the die number (R23), commit group (R688), lowest and highest writable value, and the defaults by sub-index (the last one repeats). -/
structure ObjRow where
  ss : Nat
  idx : Nat
  idxHi : Nat
  sub : Nat
  subHi : Nat
  ty : Nat
  access : Access
  size : Nat
  perDie : Bool
  group : Nat
  lo : Nat
  hi : Nat
  dflt : List Nat
  deriving DecidableEq, Repr

/-- A row of the dictionary, as the tables below write it. -/
def row (ss idx idxHi sub subHi ty : Nat) (access : Access) (size : Nat) (perDie : Bool) (group lo hi : Nat) (dflt : List Nat) : ObjRow :=
  ⟨ss, idx, idxHi, sub, subHi, ty, access, size, perDie, group, lo, hi, dflt⟩

/-- The size in bytes of a job record (R643). -/
def jobRecordBytes : Nat := 64

/-- Objects of chapter 01 (R42). -/
def rows01 : List ObjRow := [
  row 0x0B 0x0100 0x0100 0x00 0x13 3 .ro 4 true 0 0 4294967295 [0],  -- step_rate_effective
  row 0x0B 0x0101 0x0101 0x00 0x13 3 .ro 4 true 0 0 4294967295 [0],  -- step_rate_monitor
  row 0x0B 0x0102 0x0102 0x00 0x13 3 .rw 4 true 0 0 4294967295 [4294967295],  -- step_rate_lowest
  row 0x0B 0x0103 0x0103 0x00 0x00 3 .rw 4 false 0 100000 100000000 [1000000],  -- step_window
  row 0x0B 0x0104 0x0104 0x00 0x13 4 .ro 8 true 0 0 18446744073709551615 [0],  -- step_window_end
  row 0x0B 0x0105 0x0105 0x00 0x13 1 .ro 1 true 0 0 255 [0]]  -- throttle_fraction

/-- Objects of chapter 03 (R182). -/
def rows03 : List ObjRow := [
  row 0x00 0x0300 0x0300 0x00 0x00 2 .ro 2 false 0 0 65535 [2048],  -- cs_queues
  row 0x00 0x0301 0x0301 0x00 0x00 2 .ro 2 false 0 0 65535 [4096],  -- cs_journal_slots
  row 0x00 0x0302 0x0302 0x00 0x00 3 .ro 4 false 0 0 4294967295 [65536],  -- cs_descriptors
  row 0x00 0x0303 0x0303 0x00 0x00 1 .ro 1 false 0 0 255 [6],  -- cs_max_rank
  row 0x00 0x0304 0x0304 0x00 0x00 2 .ro 2 false 0 0 65535 [512],  -- cs_die_flags
  row 0x00 0x0305 0x0305 0x00 0x00 2 .ro 2 false 0 0 65535 [128],  -- cs_die_counters
  row 0x00 0x0306 0x0306 0x00 0x00 2 .ro 2 false 0 0 65535 [1024],  -- cs_package_counters
  row 0x00 0x0307 0x0307 0x00 0x00 1 .ro 1 false 0 0 255 [4],  -- cs_loop_depth
  row 0x00 0x0308 0x0308 0x00 0x00 3 .ro 4 false 0 0 4294967295 [16777215],  -- cs_loop_count_max
  row 0x00 0x0309 0x0309 0x00 0x00 1 .ro 1 false 0 0 255 [8],  -- cs_submit_depth
  row 0x00 0x030A 0x030A 0x00 0x00 2 .ro 2 false 0 0 65535 [256],  -- cs_program_regions
  row 0x00 0x030B 0x030B 0x00 0x00 10 .ro 2 false 0 0 18446744073709551615 [16383],  -- cs_formats
  row 0x00 0x030C 0x030C 0x00 0x00 11 .ro 32 false 0 0 18446744073709551615 []]  -- cs_opcodes

/-- Objects of chapter 04 (R217, R219). -/
def rows04 : List ObjRow := [
  row 0x02 0x0100 0x0100 0x00 0x5F 4 .ro 8 false 0 0 18446744073709551615 [0],  -- mill_busy
  row 0x02 0x0101 0x0101 0x00 0x5F 4 .ro 8 false 0 0 18446744073709551615 [0],  -- mill_wait_operand
  row 0x02 0x0102 0x0102 0x00 0x5F 4 .ro 8 false 0 0 18446744073709551615 [0],  -- mill_wait_curd
  row 0x02 0x0103 0x0103 0x00 0x5F 4 .ro 8 false 0 0 18446744073709551615 [0],  -- mill_wait_fault
  row 0x02 0x0104 0x0104 0x00 0x5F 4 .ro 8 false 0 0 18446744073709551615 [0],  -- mill_throttled
  row 0x02 0x0105 0x0105 0x00 0x5F 4 .ro 8 false 0 0 18446744073709551615 [0],  -- mill_idle
  row 0x02 0x0106 0x0106 0x00 0x5F 4 .ro 8 false 0 0 18446744073709551615 [0],  -- scratch_fill_bytes
  row 0x02 0x0107 0x0107 0x00 0x5F 4 .ro 8 false 0 0 18446744073709551615 [0],  -- scratch_shared_bytes
  row 0x00 0x0400 0x0400 0x00 0x00 2 .ro 2 false 0 0 65535 [96],  -- mill_count
  row 0x00 0x0401 0x0401 0x00 0x00 1 .ro 1 false 0 0 255 [12],  -- mills_per_die
  row 0x00 0x0402 0x0402 0x00 0x04 3 .ro 4 false 0 0 4294967295 [131072, 65536, 32768, 8192, 1024],  -- mill_macs_per_step
  row 0x00 0x0403 0x0403 0x00 0x00 3 .ro 4 false 0 0 4294967295 [4194304],  -- mill_scratch_bytes
  row 0x00 0x0404 0x0404 0x00 0x01 3 .ro 4 false 0 0 4294967295 [65536, 16384],  -- mill_acc_elements
  row 0x00 0x0405 0x0405 0x00 0x00 1 .ro 1 false 0 0 255 [8],  -- mill_slots_max
  row 0x00 0x0406 0x0406 0x00 0x00 1 .ro 1 false 0 0 255 [2],  -- mill_curd_entries
  row 0x00 0x0407 0x0407 0x00 0x00 10 .ro 2 false 0 0 18446744073709551615 [4190],  -- mill_ksplit_sizes
  row 0x00 0x0408 0x0408 0x00 0x00 3 .ro 4 false 0 0 4294967295 [8192],  -- mill_l2_feed
  row 0x00 0x0409 0x0409 0x00 0x00 3 .ro 4 false 0 0 4294967295 [1024],  -- mill_prologue_rate
  row 0x00 0x040A 0x040A 0x00 0x00 3 .ro 4 false 0 0 4294967295 [256]]  -- chain_intake_rate

/-- Objects of chapter 05 (R269, R271). -/
def rows05 : List ObjRow := [
  row 0x03 0x0100 0x0100 0x00 0x5F 4 .ro 8 false 0 0 18446744073709551615 [0],  -- chain_busy
  row 0x03 0x0101 0x0101 0x00 0x5F 4 .ro 8 false 0 0 18446744073709551615 [0],  -- chain_wait_input
  row 0x03 0x0102 0x0102 0x00 0x5F 4 .ro 8 false 0 0 18446744073709551615 [0],  -- chain_wait_write
  row 0x03 0x0103 0x0103 0x00 0x5F 4 .ro 8 false 0 0 18446744073709551615 [0],  -- chain_throttled
  row 0x03 0x0104 0x0104 0x00 0x5F 4 .ro 8 false 0 0 18446744073709551615 [0],  -- chain_idle
  row 0x03 0x0105 0x0105 0x00 0x5F 4 .ro 8 false 0 0 18446744073709551615 [0],  -- chain_elements
  row 0x03 0x0106 0x0106 0x00 0x5F 4 .ro 8 false 0 0 18446744073709551615 [0],  -- chain_recirc_elements
  row 0x03 0x0107 0x0107 0x00 0x5F 4 .ro 8 false 0 0 18446744073709551615 [0],  -- stats_adds
  row 0x03 0x0108 0x0108 0x00 0x5F 4 .ro 8 false 0 0 18446744073709551615 [0],  -- stats_finalised
  row 0x00 0x0500 0x0500 0x00 0x00 1 .ro 1 false 0 0 255 [8],  -- chain_stage_slots
  row 0x00 0x0501 0x0501 0x00 0x00 1 .ro 1 false 0 0 255 [32],  -- chain_max_stages
  row 0x00 0x0502 0x0502 0x00 0x00 1 .ro 1 false 0 0 255 [4],  -- chain_max_passes
  row 0x00 0x0503 0x0503 0x00 0x00 1 .ro 1 false 0 0 255 [2],  -- chain_fn_per_pass
  row 0x00 0x0504 0x0504 0x00 0x00 1 .ro 1 false 0 0 255 [4],  -- chain_prologue_stages
  row 0x00 0x0505 0x0505 0x00 0x00 1 .ro 1 false 0 0 255 [16],  -- chain_constants
  row 0x00 0x0506 0x0506 0x00 0x00 2 .ro 2 false 0 0 65535 [512],  -- chain_lut_entries
  row 0x00 0x0507 0x0507 0x00 0x00 3 .ro 4 false 0 0 4294967295 [262144],  -- chain_recirc_bytes
  row 0x00 0x0508 0x0508 0x00 0x00 2 .ro 2 false 0 0 65535 [512],  -- chain_stats_rows
  row 0x00 0x0509 0x0509 0x00 0x00 2 .ro 2 false 0 0 65535 [256],  -- chain_stats_record
  row 0x00 0x050A 0x050A 0x00 0x00 2 .ro 2 false 0 0 65535 [256],  -- attend_key_tile
  row 0x00 0x050B 0x050B 0x00 0x00 2 .ro 2 false 0 0 65535 [256]]  -- attend_max_head

/-- Objects of chapter 06 (R327, R329). -/
def rows06 : List ObjRow := [
  row 0x04 0x0100 0x0100 0x00 0xFF 4 .ro 8 false 0 0 18446744073709551615 [0],  -- sheaf_issue
  row 0x04 0x0101 0x0101 0x00 0xFF 4 .ro 8 false 0 0 18446744073709551615 [0],  -- sheaf_wait_memory
  row 0x04 0x0102 0x0102 0x00 0xFF 4 .ro 8 false 0 0 18446744073709551615 [0],  -- sheaf_wait_sync
  row 0x04 0x0103 0x0103 0x00 0xFF 4 .ro 8 false 0 0 18446744073709551615 [0],  -- sheaf_wait_dependence
  row 0x04 0x0104 0x0104 0x00 0xFF 4 .ro 8 false 0 0 18446744073709551615 [0],  -- sheaf_throttled
  row 0x04 0x0105 0x0105 0x00 0xFF 4 .ro 8 false 0 0 18446744073709551615 [0],  -- sheaf_idle
  row 0x04 0x0106 0x0106 0x00 0xFF 4 .ro 8 false 0 0 18446744073709551615 [0],  -- sheaf_lanes_active
  row 0x04 0x0107 0x0107 0x00 0xFF 4 .ro 8 false 0 0 18446744073709551615 [0],  -- sheaf_bank_conflict
  row 0x04 0x0108 0x0108 0x00 0xFF 4 .ro 8 false 0 0 18446744073709551615 [0],  -- sheaf_stooks_exited
  row 0x04 0x0109 0x0109 0x00 0xFF 4 .ro 8 false 0 0 18446744073709551615 [0],  -- sheaf_barrier_failures
  row 0x00 0x0600 0x0600 0x00 0x00 2 .ro 2 false 0 0 65535 [256],  -- sheaf_count
  row 0x00 0x0601 0x0601 0x00 0x00 1 .ro 1 false 0 0 255 [32],  -- sheaf_per_die
  row 0x00 0x0602 0x0602 0x00 0x00 2 .ro 2 false 0 0 65535 [128],  -- sheaf_fp32_lanes
  row 0x00 0x0603 0x0603 0x00 0x00 2 .ro 2 false 0 0 65535 [64],  -- sheaf_fp64_lanes
  row 0x00 0x0604 0x0604 0x00 0x00 3 .ro 4 false 0 0 4294967295 [131072],  -- sheaf_registers
  row 0x00 0x0605 0x0605 0x00 0x00 1 .ro 1 false 0 0 255 [16],  -- sheaf_reg_banks
  row 0x00 0x0606 0x0606 0x00 0x02 1 .ro 1 false 0 0 255 [16, 255, 8],  -- sheaf_regs_per_stalk
  row 0x00 0x0607 0x0607 0x00 0x00 2 .ro 2 false 0 0 65535 [2048],  -- sheaf_max_stalks
  row 0x00 0x0608 0x0608 0x00 0x00 2 .ro 2 false 0 0 65535 [128],  -- sheaf_max_sheaves
  row 0x00 0x0609 0x0609 0x00 0x00 1 .ro 1 false 0 0 255 [64],  -- sheaf_max_stooks
  row 0x00 0x060A 0x060A 0x00 0x00 1 .ro 1 false 0 0 255 [32],  -- sheaf_stook_sheaves
  row 0x00 0x060B 0x060B 0x00 0x00 10 .ro 1 false 0 0 18446744073709551615 [112],  -- sheaf_widths
  row 0x00 0x060C 0x060C 0x00 0x00 3 .ro 4 false 0 0 4294967295 [262144],  -- sheaf_stook_memory
  row 0x00 0x060D 0x060D 0x00 0x00 1 .ro 1 false 0 0 255 [64],  -- sheaf_uniform_regs
  row 0x00 0x060E 0x060E 0x00 0x00 1 .ro 1 false 0 0 255 [8],  -- sheaf_predicates
  row 0x00 0x060F 0x060F 0x00 0x00 2 .ro 2 false 0 0 65535 [256],  -- sheaf_outstanding_lines
  row 0x04 0x0200 0x0200 0x00 0x00 3 .rw 4 false 0 10 60000000 [10000]]  -- sheaf_barrier_timeout

/-- Objects of chapter 07 (R365, R366). -/
def rows07 : List ObjRow := [
  row 0x05 0x0100 0x0100 0x00 0x07 4 .ro 8 true 0 0 18446744073709551615 [0],  -- pf_issued
  row 0x05 0x0101 0x0101 0x00 0x07 4 .ro 8 true 0 0 18446744073709551615 [0],  -- pf_used
  row 0x05 0x0102 0x0102 0x00 0x07 4 .ro 8 true 0 0 18446744073709551615 [0],  -- pf_expired
  row 0x05 0x0103 0x0103 0x00 0x07 4 .ro 8 true 0 0 18446744073709551615 [0],  -- pf_invalidated
  row 0x05 0x0104 0x0104 0x00 0x07 4 .ro 8 true 0 0 18446744073709551615 [0],  -- pf_full_steps
  row 0x05 0x0105 0x0105 0x00 0x07 4 .ro 8 true 0 0 18446744073709551615 [0],  -- pf_untranslated
  row 0x05 0x0106 0x0106 0x00 0x07 4 .ro 8 true 0 0 18446744073709551615 [0],  -- pf_joined
  row 0x05 0x0107 0x0107 0x00 0x13 4 .ro 8 true 0 0 18446744073709551615 [0],  -- copy_bytes
  row 0x05 0x0200 0x0200 0x00 0x07 2 .rw 2 true 0 0 512 [128],  -- pf_distance
  row 0x05 0x0201 0x0201 0x00 0x00 3 .rw 4 false 0 1000 1000000 [16000],  -- pf_lifetime
  row 0x00 0x0700 0x0700 0x00 0x00 1 .ro 1 false 0 0 255 [16],  -- l2_slices
  row 0x00 0x0701 0x0701 0x00 0x00 2 .ro 2 false 0 0 65535 [256],  -- pf_sidebuf_lines
  row 0x00 0x0702 0x0702 0x00 0x00 1 .ro 1 false 0 0 255 [4],  -- thresher_streams
  row 0x00 0x0703 0x0703 0x00 0x00 2 .ro 2 false 0 0 65535 [512],  -- thresher_outstanding
  row 0x00 0x0704 0x0704 0x00 0x00 2 .ro 2 false 0 0 65535 [8192],  -- die_outstanding
  row 0x00 0x0705 0x0705 0x00 0x00 2 .ro 2 false 0 0 65535 [512],  -- pf_distance_max
  row 0x00 0x0706 0x0706 0x00 0x00 3 .ro 4 false 0 0 4294967295 [1024],  -- copy_rate
  row 0x00 0x0707 0x0707 0x00 0x00 1 .ro 1 false 0 0 255 [64],  -- relay_queues
  row 0x00 0x0708 0x0708 0x00 0x00 2 .ro 2 false 0 0 65535 [256]]  -- relay_entries

/-- Objects of chapter 08 (R428, R429). -/
def rows08 : List ObjRow := [
  row 0x07 0x0100 0x0100 0x00 0x0F 4 .ro 8 false 0 0 18446744073709551615 [0],  -- mem_lines_read
  row 0x07 0x0101 0x0101 0x00 0x0F 4 .ro 8 false 0 0 18446744073709551615 [0],  -- mem_lines_written
  row 0x07 0x0102 0x0102 0x00 0x0F 4 .ro 8 false 0 0 18446744073709551615 [0],  -- chan_stall_ns
  row 0x07 0x0103 0x0103 0x00 0x0F 4 .ro 8 false 0 0 18446744073709551615 [0],  -- ecc_corrected
  row 0x07 0x0104 0x0104 0x00 0x0F 4 .ro 8 false 0 0 18446744073709551615 [0],  -- ecc_uncorrectable
  row 0x07 0x0105 0x0105 0x00 0x0F 4 .ro 8 false 0 0 18446744073709551615 [0],  -- scrub_passes
  row 0x07 0x0110 0x0110 0x0A 0x0D 4 .ro 8 true 0 0 18446744073709551615 [0],  -- wcb_drain_full
  row 0x07 0x0111 0x0111 0x0A 0x0D 4 .ro 8 true 0 0 18446744073709551615 [0],  -- wcb_drain_fence
  row 0x07 0x0112 0x0112 0x0A 0x0D 4 .ro 8 true 0 0 18446744073709551615 [0],  -- wcb_drain_age
  row 0x07 0x0113 0x0113 0x0A 0x0D 4 .ro 8 true 0 0 18446744073709551615 [0],  -- wcb_drain_pressure
  row 0x07 0x0200 0x0200 0x00 0x00 2 .coupled 2 false 1 0 65535 [0],  -- near_pool_gib
  row 0x07 0x0201 0x0201 0x00 0x00 2 .coupled 2 false 1 0 65535 [2048],  -- uniform_gib
  row 0x07 0x0202 0x0202 0x00 0x00 9 .rw 1 false 0 0 255 [0],  -- placement_apply
  row 0x07 0x0203 0x0203 0x00 0x00 2 .ro 2 false 0 0 65535 [0],  -- near_pool_active
  row 0x07 0x0210 0x0210 0x00 0x00 3 .rw 4 false 0 3600 2592000 [86400],  -- scrub_period
  row 0x07 0x0300 0x0300 0x00 0x00 2 .bringUp 2 false 0 0 65535 [0],  -- margin_target
  row 0x07 0x0301 0x0301 0x00 0x00 9 .bringUp 1 false 0 1 4 [1],  -- margin_mode
  row 0x07 0x0302 0x0302 0x00 0x00 9 .bringUp 1 false 0 0 2 [0],  -- margin_pattern
  row 0x07 0x0303 0x0303 0x00 0x00 9 .bringUp 1 false 0 0 255 [0],  -- margin_run
  row 0x07 0x0304 0x0304 0x00 0x00 12 .bringUp 72 false 0 0 18446744073709551615 [0],  -- margin_result
  row 0x08 0x0100 0x0100 0x00 0x07 4 .ro 8 true 0 0 18446744073709551615 [0],  -- l2_hits
  row 0x08 0x0101 0x0101 0x00 0x07 4 .ro 8 true 0 0 18446744073709551615 [0],  -- l2_misses
  row 0x08 0x0102 0x0102 0x00 0x07 4 .ro 8 true 0 0 18446744073709551615 [0],  -- l2_stall_steps
  row 0x08 0x0103 0x0103 0x00 0x07 4 .ro 8 true 0 0 18446744073709551615 [0],  -- l2_parity_clean
  row 0x08 0x0104 0x0104 0x00 0x07 4 .ro 8 true 0 0 18446744073709551615 [0],  -- l2_parity_dirty
  row 0x08 0x0105 0x0105 0x00 0x07 4 .ro 8 true 0 0 18446744073709551615 [0],  -- die_outstanding_full
  row 0x08 0x0106 0x0106 0x00 0x07 4 .ro 8 true 0 0 18446744073709551615 [0],  -- evb_full_steps
  row 0x08 0x0107 0x0107 0x00 0x07 4 .ro 8 true 0 0 18446744073709551615 [0],  -- wb_superseded
  row 0x08 0x0110 0x0110 0x0A 0x0D 4 .ro 8 true 0 0 18446744073709551615 [0],  -- l3_hits
  row 0x08 0x0111 0x0111 0x0A 0x0D 4 .ro 8 true 0 0 18446744073709551615 [0]]  -- l3_misses

/-- Objects of chapter 08 (R428, R429). -/
def rows08a : List ObjRow := [
  row 0x08 0x0112 0x0112 0x0A 0x0D 4 .ro 8 true 0 0 18446744073709551615 [0],  -- home_stall_steps
  row 0x08 0x0113 0x0113 0x0A 0x0D 4 .ro 8 true 0 0 18446744073709551615 [0],  -- l3_parity_clean
  row 0x08 0x0114 0x0114 0x0A 0x0D 4 .ro 8 true 0 0 18446744073709551615 [0],  -- l3_parity_dirty
  row 0x08 0x0115 0x0115 0x0A 0x0D 4 .ro 8 true 0 0 18446744073709551615 [0],  -- dir_victims
  row 0x08 0x0116 0x0116 0x0A 0x0D 4 .ro 8 true 0 0 18446744073709551615 [0],  -- home_timeouts
  row 0x08 0x0117 0x0117 0x0A 0x0D 4 .ro 8 true 0 0 18446744073709551615 [0],  -- late_discards
  row 0x08 0x0118 0x0118 0x0A 0x0D 4 .ro 8 true 0 0 18446744073709551615 [0],  -- poison_created
  row 0x08 0x0200 0x0200 0x00 0x07 1 .rw 1 true 0 0 15 [12],  -- l2_retain_ways
  row 0x08 0x0201 0x0201 0x00 0x00 3 .rw 4 false 0 4 100000 [40],  -- home_timeout_us
  row 0x09 0x0200 0x0200 0x00 0x9D 4 .ro 8 false 0 0 18446744073709551615 [0],  -- port_tx_stall_steps
  row 0x09 0x0201 0x0201 0x00 0x9D 4 .ro 8 false 0 0 18446744073709551615 [0],  -- port_tx_bytes
  row 0x0A 0x0300 0x0300 0x00 0x1F 4 .ro 8 false 0 0 18446744073709551615 [0],  -- link_tx_stall_ns
  row 0x00 0x0800 0x0800 0x00 0x00 1 .ro 1 false 0 0 255 [16],  -- mem_stacks
  row 0x00 0x0801 0x0801 0x00 0x00 1 .ro 1 false 0 0 255 [64],  -- mem_channels
  row 0x00 0x0802 0x0802 0x00 0x00 4 .ro 8 false 0 0 18446744073709551615 [137438953472],  -- mem_stack_bytes
  row 0x00 0x0803 0x0803 0x00 0x00 2 .ro 2 false 0 0 65535 [128],  -- line_bytes
  row 0x00 0x0804 0x0804 0x00 0x00 3 .ro 4 false 0 0 4294967295 [67108864],  -- l2_bytes
  row 0x00 0x0805 0x0805 0x00 0x00 1 .ro 1 false 0 0 255 [16],  -- l2_ways
  row 0x00 0x0806 0x0806 0x00 0x00 3 .ro 4 false 0 0 4294967295 [268435456],  -- l3_bytes
  row 0x00 0x0807 0x0807 0x00 0x00 3 .ro 4 false 0 0 4294967295 [2097152],  -- dir_entries
  row 0x00 0x0808 0x0808 0x00 0x00 1 .ro 1 false 0 0 255 [64],  -- evb_entries
  row 0x00 0x0809 0x0809 0x00 0x00 2 .ro 2 false 0 0 65535 [512],  -- wcb_lines
  row 0x00 0x080A 0x080A 0x00 0x00 3 .ro 4 false 0 0 4294967295 [2000],  -- wcb_age_ns
  row 0x00 0x080B 0x080B 0x00 0x00 2 .ro 2 false 0 0 65535 [16],  -- near_pool_granule
  row 0x00 0x080C 0x080C 0x00 0x00 3 .ro 4 false 0 0 4294967295 [4],  -- home_timeout_min
  row 0x00 0x080D 0x080D 0x00 0x00 2 .ro 2 false 0 0 65535 [1024]]  -- home_queue_entries

/-- Objects of chapter 09 (R489, R490). -/
def rows09 : List ObjRow := [
  row 0x01 0x0100 0x0100 0x00 0x13 4 .ro 8 true 0 0 18446744073709551615 [0],  -- tc_hits
  row 0x01 0x0101 0x0101 0x00 0x13 4 .ro 8 true 0 0 18446744073709551615 [0],  -- tc_misses
  row 0x01 0x0102 0x0102 0x00 0x13 4 .ro 8 true 0 0 18446744073709551615 [0],  -- tc_joined
  row 0x01 0x0103 0x0103 0x00 0x13 4 .ro 8 true 0 0 18446744073709551615 [0],  -- tc_entries_full_steps
  row 0x01 0x0104 0x0104 0x00 0x13 4 .ro 8 true 0 0 18446744073709551615 [0],  -- tc_page_requests
  row 0x01 0x0105 0x0105 0x00 0x13 4 .ro 8 true 0 0 18446744073709551615 [0],  -- tc_invalidated
  row 0x01 0x0110 0x0110 0x08 0x09 4 .ro 8 true 0 0 18446744073709551615 [0],  -- pr_resolved
  row 0x01 0x0111 0x0111 0x08 0x09 4 .ro 8 true 0 0 18446744073709551615 [0],  -- pr_failed
  row 0x01 0x0112 0x0112 0x08 0x09 4 .ro 8 true 0 0 18446744073709551615 [0],  -- pr_timeouts
  row 0x01 0x0113 0x0113 0x08 0x09 4 .ro 8 true 0 0 18446744073709551615 [0],  -- fq_records
  row 0x01 0x0114 0x0114 0x08 0x09 4 .ro 8 true 0 0 18446744073709551615 [0],  -- walk_cache_hits
  row 0x01 0x0200 0x0200 0x00 0x00 12 .ro 1024 false 0 0 18446744073709551615 [0],  -- fatal_log
  row 0x01 0x0201 0x0201 0x00 0x00 1 .wo 1 false 0 0 255 [0],  -- fatal_log_clear
  row 0x00 0x0900 0x0900 0x00 0x00 2 .ro 2 false 0 0 65535 [4096],  -- as_count
  row 0x00 0x0901 0x0901 0x00 0x00 1 .ro 1 false 0 0 255 [57],  -- va_bits
  row 0x00 0x0902 0x0902 0x00 0x00 1 .ro 1 false 0 0 255 [48],  -- pa_bits
  row 0x00 0x0903 0x0903 0x00 0x00 10 .ro 4 false 0 0 18446744073709551615 [1075908608],  -- page_sizes
  row 0x00 0x0904 0x0904 0x00 0x00 1 .ro 1 false 0 0 255 [64],  -- atomic_ranges
  row 0x00 0x0905 0x0905 0x00 0x02 2 .ro 2 false 0 0 65535 [16384, 8192, 4096],  -- tc_entries
  row 0x00 0x0906 0x0906 0x00 0x00 1 .ro 1 false 0 0 255 [64],  -- tc_miss_entries
  row 0x00 0x0907 0x0907 0x00 0x00 2 .ro 2 false 0 0 65535 [256],  -- tc_stream_queues
  row 0x00 0x0908 0x0908 0x00 0x00 1 .ro 1 false 0 0 255 [16],  -- pr_streams_per_record
  row 0x00 0x0909 0x0909 0x00 0x00 2 .ro 2 false 0 0 65535 [1024],  -- pr_tags
  row 0x00 0x090A 0x090A 0x00 0x00 2 .ro 2 false 0 0 65535 [4096],  -- fq_entries
  row 0x00 0x090B 0x090B 0x00 0x00 2 .ro 2 false 0 0 65535 [8192]]  -- walk_cache_entries

/-- Objects of chapter 10 (R540, R541). -/
def rows10 : List ObjRow := [
  row 0x06 0x0100 0x0100 0x12 0x13 4 .ro 8 true 0 0 18446744073709551615 [0],  -- crypt_bytes
  row 0x06 0x0101 0x0101 0x12 0x13 4 .ro 8 true 0 0 18446744073709551615 [0],  -- comp_bytes_in
  row 0x06 0x0102 0x0102 0x12 0x13 4 .ro 8 true 0 0 18446744073709551615 [0],  -- comp_bytes_out
  row 0x06 0x0103 0x0103 0x12 0x13 4 .ro 8 true 0 0 18446744073709551615 [0],  -- index_bytes
  row 0x06 0x0104 0x0104 0x12 0x13 4 .ro 8 true 0 0 18446744073709551615 [0],  -- index_chunks
  row 0x06 0x0105 0x0105 0x12 0x13 4 .ro 8 true 0 0 18446744073709551615 [0],  -- sort_bytes
  row 0x06 0x0106 0x0106 0x12 0x13 4 .ro 8 true 0 0 18446744073709551615 [0],  -- gather_records
  row 0x06 0x0107 0x0107 0x12 0x13 4 .ro 8 true 0 0 18446744073709551615 [0],  -- gather_oob
  row 0x06 0x0108 0x0108 0x12 0x13 4 .ro 8 true 0 0 18446744073709551615 [0],  -- entry_failures
  row 0x06 0x0109 0x0109 0x12 0x13 4 .ro 8 true 0 0 18446744073709551615 [0],  -- slice_switches
  row 0x06 0x0110 0x0110 0x00 0x09 4 .ro 8 false 0 0 18446744073709551615 [0],  -- engine_busy
  row 0x06 0x0200 0x0200 0x00 0x00 3 .rw 4 false 0 4096 1048576 [65536],  -- svc_quantum
  row 0x06 0x0300 0x0300 0x00 0x00 10 .ro 8 false 0 0 18446744073709551615 [0],  -- realm_active
  row 0x06 0x0301 0x0301 0x00 0x3F 2 .ro 2 false 0 0 65535 [0],  -- realm_keys
  row 0x06 0x0302 0x0302 0x00 0x00 4 .ro 8 false 0 0 18446744073709551615 [0],  -- realm_refusals
  row 0x06 0x0303 0x0303 0x00 0x00 4 .ro 8 false 0 0 18446744073709551615 [0],  -- debug_realm_reads
  row 0x00 0x0A00 0x0A00 0x00 0x04 1 .ro 1 false 0 0 255 [32, 32, 16, 8, 8],  -- svc_channels
  row 0x00 0x0A01 0x0A01 0x00 0x00 2 .ro 2 false 0 0 65535 [32],  -- svc_switch_steps
  row 0x00 0x0A02 0x0A02 0x00 0x00 10 .ro 1 false 0 0 18446744073709551615 [31],  -- svc_formats
  row 0x00 0x0A03 0x0A03 0x00 0x00 1 .ro 1 false 0 0 255 [64],  -- realm_count
  row 0x00 0x0A04 0x0A04 0x00 0x00 2 .ro 2 false 0 0 65535 [256],  -- realm_keys_max
  row 0x00 0x0A05 0x0A05 0x00 0x00 1 .ro 1 false 0 0 255 [64],  -- index_k_max
  row 0x00 0x0A06 0x0A06 0x00 0x00 2 .ro 2 false 0 0 65535 [256],  -- sort_rsize_max
  row 0x00 0x0A07 0x0A07 0x00 0x00 3 .ro 4 false 0 0 4294967295 [65536]]  -- gather_rsize_max

/-- Objects of chapter 11 (R606, R607). -/
def rows11 : List ObjRow := [
  row 0x09 0x0100 0x0100 0x00 0x00 4 .ro 8 false 0 0 18446744073709551615 [0],  -- package_time
  row 0x09 0x0101 0x0101 0x00 0x1F 9 .ro 1 false 0 0 255 [0],  -- conn_state
  row 0x09 0x0102 0x0102 0x00 0x1F 4 .ro 8 false 0 0 18446744073709551615 [0],  -- conn_replays
  row 0x09 0x0103 0x0103 0x00 0x1F 4 .ro 8 false 0 0 18446744073709551615 [0],  -- conn_crc_errors
  row 0x0A 0x0100 0x0100 0x00 0x1F 9 .ro 1 false 0 0 255 [1],  -- link_state
  row 0x0A 0x0101 0x0101 0x00 0x1F 0 .rw 1 false 0 0 1 [1],  -- link_enable
  row 0x0A 0x0102 0x0102 0x00 0x1F 9 .rw 1 false 0 0 1 [0],  -- link_role
  row 0x0A 0x0103 0x0103 0x00 0x1F 2 .ro 2 false 0 0 65535 [0],  -- link_neighbour
  row 0x0A 0x0104 0x0104 0x00 0x1F 4 .ro 8 false 0 0 18446744073709551615 [0],  -- fec_corrected
  row 0x0A 0x0105 0x0105 0x00 0x1F 4 .ro 8 false 0 0 18446744073709551615 [0],  -- fec_uncorrected
  row 0x0A 0x0106 0x0106 0x00 0x1F 4 .ro 8 false 0 0 18446744073709551615 [0],  -- link_replays
  row 0x0A 0x0107 0x0107 0x00 0x1F 4 .ro 8 false 0 0 18446744073709551615 [0],  -- link_tx_flits
  row 0x0A 0x0108 0x0108 0x00 0x1F 7 .ro 8 false 0 0 9223372036854775807 [0],  -- time_offset_ps
  row 0x0A 0x0109 0x0109 0x00 0x1F 6 .ro 4 false 0 0 2147483647 [0],  -- time_rate_ppb
  row 0x0A 0x010A 0x010A 0x00 0x1F 4 .ro 8 false 0 0 18446744073709551615 [0],  -- time_exchange_end
  row 0x0A 0x0110 0x0110 0x00 0x1F 2 .rw 2 false 0 0 65535 [0],  -- host_id
  row 0x0A 0x0111 0x0111 0x00 0x1F 2 .rw 2 false 0 0 4095 [0],  -- host_pkey
  row 0x0A 0x0200 0x0200 0x00 0x00 2 .rw 2 false 0 0 65535 [],  -- device_id
  row 0x0A 0x0201 0x0201 0x00 0x00 2 .wo 2 false 0 0 65535 [],  -- pkey_enable
  row 0x0A 0x0202 0x0202 0x00 0x00 2 .wo 2 false 0 0 65535 [],  -- pkey_disable
  row 0x0A 0x0203 0x0203 0x00 0x00 11 .ro 1024 false 0 0 18446744073709551615 [0],  -- pkey_state
  row 0x0A 0x0204 0x0204 0x00 0x00 3 .rw 4 false 0 2000000 1000000000 [2000000],  -- pkey_quarantine_ns
  row 0x0A 0x0205 0x0205 0x00 0x00 4 .ro 8 false 0 0 18446744073709551615 [0],  -- pkey_discards
  row 0x0A 0x0206 0x0206 0x00 0x00 4 .ro 8 false 0 0 18446744073709551615 [0],  -- unroutable_discards
  row 0x0A 0x0207 0x0207 0x00 0x00 4 .ro 8 false 0 0 18446744073709551615 [0],  -- hop_limit_discards
  row 0x0A 0x0208 0x0208 0x00 0x00 4 .ro 8 false 0 0 18446744073709551615 [0],  -- transport_timeouts
  row 0x0A 0x0209 0x0209 0x00 0x00 4 .ro 8 false 0 0 18446744073709551615 [0],  -- late_packet_discards
  row 0x0A 0x020A 0x020A 0x00 0x00 4 .ro 8 false 0 0 18446744073709551615 [0],  -- host_refusals
  row 0x0A 0x0400 0x0400 0x00 0x00 3 .rw 4 false 0 160 60000000 [2000],  -- transport_timeout_us
  row 0x0A 0x0500 0x0500 0x00 0x0F 12 .rw 8 false 0 0 18446744073709551615 [0]]  -- host_binding

/-- Objects of chapter 11 (R606, R607). -/
def rows11a : List ObjRow := [
  row 0x0A 0x0600 0x0600 0x00 0x3F 12 .rw 20 false 0 0 18446744073709551615 [0],  -- export
  row 0x0A 0x1000 0x103F 0x00 0xFF 4 .rw 8 false 0 0 18446744073709551615 [0],  -- route_direct
  row 0x0A 0x1100 0x1103 0x00 0xFF 4 .rw 8 false 0 0 18446744073709551615 [0],  -- route_prefix
  row 0x00 0x0B00 0x0B00 0x00 0x00 1 .ro 1 false 0 0 255 [32],  -- d2d_connections
  row 0x00 0x0B01 0x0B01 0x00 0x00 1 .ro 1 false 0 0 255 [32],  -- links
  row 0x00 0x0B02 0x0B02 0x00 0x00 1 .ro 1 false 0 0 255 [8],  -- link_wavelengths
  row 0x00 0x0B03 0x0B03 0x00 0x00 2 .ro 2 false 0 0 65535 [4096],  -- route_direct_entries
  row 0x00 0x0B04 0x0B04 0x00 0x00 2 .ro 2 false 0 0 65535 [256],  -- route_prefix_entries
  row 0x00 0x0B05 0x0B05 0x00 0x00 2 .ro 2 false 0 0 65535 [1024],  -- remote_windows
  row 0x00 0x0B06 0x0B06 0x00 0x00 1 .ro 1 false 0 0 255 [15],  -- hop_limit
  row 0x00 0x0B07 0x0B07 0x00 0x00 2 .ro 2 false 0 0 65535 [4096],  -- pkeys
  row 0x00 0x0B08 0x0B08 0x00 0x00 3 .ro 4 false 0 0 4294967295 [2000000],  -- pkey_quarantine_min
  row 0x00 0x0B09 0x0B09 0x00 0x00 3 .ro 4 false 0 0 4294967295 [160],  -- transport_timeout_min
  row 0x00 0x0B0A 0x0B0A 0x00 0x00 1 .ro 1 false 0 0 255 [16],  -- host_bindings
  row 0x00 0x0B0B 0x0B0B 0x00 0x00 1 .ro 1 false 0 0 255 [64],  -- exports
  row 0x00 0x0B0C 0x0B0C 0x00 0x00 3 .ro 4 false 0 0 4294967295 [65536],  -- coll_max_ranks
  row 0x00 0x0B0D 0x0B0D 0x00 0x00 2 .ro 2 false 0 0 65535 [4096]]  -- packet_payload_max

/-- Objects of chapter 12 (R652, R653). -/
def rows12 : List ObjRow := [
  row 0x0B 0x0200 0x0200 0x00 0x0F 9 .rw 1 false 0 0 7 [5],  -- phase_op
  row 0x0B 0x0201 0x0201 0x00 0x00 9 .rw 1 false 0 0 7 [2],  -- op_idle
  row 0x0B 0x0202 0x0202 0x00 0x13 9 .ro 1 true 0 0 255 [],  -- op_in_effect
  row 0x0B 0x0203 0x0203 0x00 0x13 9 .ro 1 true 0 0 255 [7],  -- op_ceiling
  row 0x0B 0x0204 0x0204 0x00 0x13 2 .ro 2 true 0 0 65535 [],  -- vcore_mv
  row 0x0B 0x0300 0x0300 0x00 0x00 2 .rw 2 false 0 1500 5000 [5000],  -- power_cap_w
  row 0x0B 0x0301 0x0301 0x00 0x00 3 .ro 4 false 0 0 4294967295 [0],  -- power_w
  row 0x0B 0x0302 0x0302 0x00 0x00 4 .ro 8 false 0 0 18446744073709551615 [0],  -- energy_uj
  row 0x0B 0x0303 0x0303 0x00 0x00 4 .ro 8 false 0 0 18446744073709551615 [0],  -- cap_lowerings
  row 0x0B 0x0304 0x0304 0x00 0x00 3 .rw 4 false 0 0 4294967295 [0],  -- peak_10us_w
  row 0x0B 0x0310 0x0310 0x00 0x13 4 .ro 8 true 0 0 18446744073709551615 [0],  -- rail_limit_steps
  row 0x0B 0x0400 0x0407 0x00 0xFF 1 .rw 1 false 0 0 255 [255],  -- queue_job
  row 0x0B 0x0500 0x0500 0x00 0x3F 12 .ro jobRecordBytes false 0 0 18446744073709551615 [0],  -- job_record
  row 0x0B 0x0501 0x0501 0x00 0x00 1 .wo 1 false 0 0 255 [],  -- job_open
  row 0x0B 0x0502 0x0502 0x00 0x00 1 .wo 1 false 0 0 255 [],  -- job_close
  row 0x0B 0x0503 0x0503 0x00 0x0C 3 .rw 4 false 0 0 4294967295 [10000, 9500, 9000, 7500, 6500, 4, 120, 60, 2800, 400, 10000, 20, 50],  -- activity_coef
  row 0x0B 0x0504 0x0504 0x00 0x00 12 .ro jobRecordBytes false 0 0 18446744073709551615 [0],  -- unattributed
  row 0x0B 0x0505 0x0505 0x00 0x40 12 .ro 104 false 0 0 18446744073709551615 [0],  -- job_activity
  row 0x0B 0x0600 0x0600 0x00 0x00 3 .ro 4 false 0 0 4294967295 [],  -- vin_mv
  row 0x0B 0x0601 0x0601 0x00 0x00 3 .coupled 4 false 2 0 4294967295 [51000],  -- sag_warn_mv
  row 0x0B 0x0602 0x0602 0x00 0x00 3 .coupled 4 false 2 0 4294967295 [46000],  -- sag_reset_mv
  row 0x0B 0x0603 0x0603 0x00 0x00 9 .rw 1 false 0 0 255 [0],  -- sag_apply
  row 0x0B 0x0604 0x0604 0x00 0x00 4 .ro 8 false 0 0 18446744073709551615 [0],  -- sag_warnings
  row 0x0B 0x0605 0x0605 0x00 0x00 9 .ro 1 false 0 0 255 [0],  -- supply_last_cause
  row 0x0B 0x0700 0x0700 0x00 0x13 5 .ro 2 true 0 0 32767 [],  -- tj_c
  row 0x0B 0x0701 0x0701 0x00 0x00 1 .rw 1 false 0 80 95 [95],  -- tj_throttle_c
  row 0x0B 0x0702 0x0702 0x00 0x13 4 .ro 8 true 0 0 18446744073709551615 [0],  -- thermal_lowerings
  row 0x0B 0x0703 0x0703 0x00 0x00 5 .ro 2 false 0 0 32767 [],  -- coolant_in_c
  row 0x0B 0x0704 0x0704 0x00 0x00 5 .ro 2 false 0 0 32767 [],  -- coolant_out_c
  row 0x0B 0x0800 0x0800 0x00 0x13 1 .ro 1 true 0 0 255 [0]]  -- ripen_trim_mv

/-- Objects of chapter 12 (R652, R653). -/
def rows12a : List ObjRow := [
  row 0x0B 0x0801 0x0801 0x00 0x13 3 .ro 4 true 0 0 4294967295 [0],  -- ripen_rate
  row 0x0B 0x0802 0x0802 0x00 0x00 2 .rw 2 false 0 1 720 [24],  -- ripen_interval_h
  row 0x0B 0x0803 0x0803 0x00 0x00 1 .wo 1 false 0 0 255 [],  -- ripen_check
  row 0x0B 0x0804 0x0804 0x00 0x00 10 .ro 4 false 0 0 18446744073709551615 [0],  -- ripen_worn
  row 0x0B 0x0805 0x0805 0x00 0x00 3 .rw 4 false 0 1900000 2000000 [1930000],  -- ripen_guard
  row 0x00 0x0C00 0x0C00 0x00 0x00 1 .ro 1 false 0 0 255 [8],  -- op_count
  row 0x00 0x0C01 0x0C01 0x00 0x07 2 .ro 2 false 0 0 65535 [550, 600, 630, 660, 690, 720, 780, 840],  -- op_voltage_mv
  row 0x00 0x0C02 0x0C02 0x00 0x07 3 .ro 4 false 0 0 4294967295 [900000, 1150000, 1350000, 1550000, 1750000, 2000000, 2200000, 2400000],  -- op_step_rate
  row 0x00 0x0C03 0x0C03 0x00 0x00 3 .ro 4 false 0 0 4294967295 [1900000],  -- op_guaranteed_min
  row 0x00 0x0C04 0x0C04 0x00 0x00 1 .ro 1 false 0 0 255 [16],  -- phases
  row 0x00 0x0C05 0x0C05 0x00 0x01 2 .ro 2 false 0 0 65535 [1500, 5000],  -- cap_range_w
  row 0x00 0x0C06 0x0C06 0x00 0x00 2 .ro 2 false 0 0 65535 [5600],  -- burst_w
  row 0x00 0x0C07 0x0C07 0x00 0x00 2 .ro 2 false 0 0 65535 [1000],  -- burst_us
  row 0x00 0x0C08 0x0C08 0x00 0x00 1 .ro 1 false 0 0 255 [64],  -- job_slots
  row 0x00 0x0C09 0x0C09 0x00 0x00 1 .ro 1 false 0 0 255 [13],  -- activity_classes
  row 0x00 0x0C0A 0x0C0A 0x00 0x00 1 .ro 1 false 0 0 255 [40]]  -- ripen_trim_max_mv

/-- Objects of chapter 13 (R697). -/
def rows13 : List ObjRow := [
  row 0x00 0x0000 0x0000 0x00 0x00 11 .ro 16 false 0 0 18446744073709551615 [],  -- part_number
  row 0x00 0x0001 0x0001 0x00 0x00 11 .ro 16 false 0 0 18446744073709551615 [],  -- serial
  row 0x00 0x0002 0x0002 0x00 0x00 2 .ro 2 false 0 0 65535 [1],  -- feature_version
  row 0x00 0x0003 0x0003 0x00 0x00 3 .ro 4 false 0 0 4294967295 [],  -- firmware_version
  row 0x00 0x0004 0x0004 0x00 0x00 3 .ro 4 false 0 0 4294967295 [],  -- personality_version
  row 0x00 0x0005 0x0005 0x00 0x00 1 .ro 1 false 0 0 255 [20],  -- die_count
  row 0x00 0x0006 0x0006 0x00 0x00 10 .ro 4 false 0 0 18446744073709551615 [1048575],  -- die_in_service
  row 0x00 0x0007 0x0007 0x00 0x00 2 .ro 2 false 0 0 65535 [192],  -- core_count
  row 0x00 0x0008 0x0008 0x00 0x00 1 .ro 1 false 0 0 255 [96],  -- cores_per_die
  row 0x00 0x0009 0x0009 0x00 0x00 2 .ro 2 false 0 0 65535 [512],  -- core_vlen
  row 0x00 0x000A 0x000A 0x00 0x00 11 .ro 8 false 0 0 18446744073709551615 [],  -- core_profile
  row 0x00 0x0010 0x0010 0x00 0x00 11 .ro 6 false 0 0 18446744073709551615 [],  -- mgmt_eui48
  row 0x00 0x0D00 0x0D00 0x00 0x00 1 .ro 1 false 0 0 255 [8],  -- mgmt_sessions_max
  row 0x00 0x0D01 0x0D01 0x00 0x00 1 .ro 1 false 0 0 255 [16],  -- inband_channels
  row 0x00 0x0D02 0x0D02 0x00 0x00 1 .ro 1 false 0 0 255 [16],  -- ops_per_message
  row 0x00 0x0D03 0x0D03 0x00 0x00 2 .ro 2 false 0 0 65535 [1232],  -- datagram_max
  row 0x00 0x0D04 0x0D04 0x00 0x00 1 .ro 1 false 0 0 255 [192],  -- core_mailboxes
  row 0x00 0x0D05 0x0D05 0x00 0x00 1 .ro 1 false 0 0 255 [64],  -- event_log_entries
  row 0x00 0x0D06 0x0D06 0x00 0x00 1 .ro 1 false 0 0 255 [8],  -- response_cache
  row 0x0C 0x0100 0x0100 0x00 0x00 9 .ro 1 false 0 0 255 [0],  -- mgmt_port_state
  row 0x0C 0x0101 0x0101 0x00 0x00 1 .coupled 1 false 3 0 31 [],  -- plca_node_id
  row 0x0C 0x0102 0x0102 0x00 0x00 1 .coupled 1 false 3 2 32 [8],  -- plca_node_count
  row 0x0C 0x0103 0x0103 0x00 0x00 9 .rw 1 false 0 0 255 [0],  -- plca_apply
  row 0x0C 0x0110 0x0110 0x00 0x00 1 .ro 1 false 0 0 255 [0],  -- sessions_active
  row 0x0C 0x0111 0x0111 0x00 0x00 2 .rw 2 false 0 10 3600 [60],  -- session_idle_s
  row 0x0C 0x0112 0x0112 0x00 0x00 3 .rw 4 false 0 0 4294967295 [],  -- cred_min_generation
  row 0x0C 0x0113 0x0113 0x00 0x00 4 .ro 8 false 0 0 18446744073709551615 [0],  -- sessions_rejected
  row 0x0C 0x0114 0x0114 0x00 0x00 4 .ro 8 false 0 0 18446744073709551615 [0],  -- replay_discards
  row 0x0C 0x0115 0x0115 0x00 0x00 4 .ro 8 false 0 0 18446744073709551615 [0],  -- auth_failures
  row 0x0C 0x0120 0x0120 0x00 0x00 4 .ro 8 false 0 0 18446744073709551615 [0]]  -- event_seq

/-- Objects of chapter 13 (R697). -/
def rows13a : List ObjRow := [
  row 0x0C 0x0121 0x0121 0x00 0x00 12 .ro 1024 false 0 0 18446744073709551615 [0],  -- event_log
  row 0x0C 0x0140 0x0140 0x00 0x0F 12 .rw 14 false 0 0 18446744073709551615 [0],  -- inband_channel
  row 0x0C 0x0150 0x0150 0x00 0x00 3 .ro 4 false 0 0 4294967295 [0]]  -- held_config_seq

/-- Objects of chapter 14 (R744 and 14). -/
def rows14 : List ObjRow := [
  row 0x0C 0x0400 0x0400 0x00 0x00 9 .ro 1 false 0 0 255 [0],  -- boot_state
  row 0x0C 0x0401 0x0401 0x00 0x00 9 .ro 1 false 0 0 255 [0],  -- boot_fail_cause
  row 0x0C 0x0402 0x0402 0x00 0x00 0 .wo 1 false 0 0 1 [],  -- bringup_request
  row 0x0C 0x0403 0x0403 0x00 0x00 0 .wo 1 false 0 0 1 [],  -- boot_continue
  row 0x0C 0x0404 0x0404 0x00 0x00 9 .wo 1 false 0 0 255 [],  -- reset_request
  row 0x0C 0x0405 0x0405 0x00 0x00 9 .ro 1 false 0 0 255 [],  -- last_reset_kind
  row 0x0C 0x0406 0x0406 0x00 0x00 4 .ro 8 false 0 0 18446744073709551615 [0],  -- warm_resets
  row 0x0C 0x0410 0x0410 0x00 0x07 11 .ro 1024 false 0 0 18446744073709551615 [],  -- personality
  row 0x0C 0x0411 0x0411 0x00 0x00 12 .ro 12 false 0 0 18446744073709551615 [],  -- floors
  row 0x0C 0x0412 0x0412 0x00 0x00 0 .wo 1 false 0 0 1 [],  -- floor_raise
  row 0x0C 0x0420 0x0420 0x00 0x00 11 .rw 48 false 0 0 18446744073709551615 [0],  -- attest_nonce
  row 0x0C 0x0421 0x0421 0x00 0x00 0 .wo 1 false 0 0 1 [],  -- attest_run
  row 0x0C 0x0422 0x0422 0x00 0x05 11 .ro 1024 false 0 0 18446744073709551615 [0],  -- attest_report
  row 0x0C 0x0430 0x0430 0x00 0x00 4 .wo 8 false 0 0 18446744073709551615 [],  -- xfer_begin
  row 0x0C 0x0431 0x0431 0x00 0x00 3 .rw 4 false 0 0 4294967295 [0],  -- xfer_base
  row 0x0C 0x0432 0x0432 0x00 0x00 11 .wo 1024 false 0 0 18446744073709551615 [],  -- xfer_window
  row 0x0C 0x0433 0x0433 0x00 0x00 0 .wo 1 false 0 0 1 [],  -- xfer_commit
  row 0x0C 0x0434 0x0434 0x00 0x00 9 .ro 1 false 0 0 255 [0],  -- xfer_status
  row 0x0C 0x0440 0x0440 0x00 0x09 9 .ro 1 false 0 0 255 [0],  -- idmem_state
  row 0x0C 0x0441 0x0441 0x00 0x09 12 .ro 256 false 0 0 18446744073709551615 [0],  -- idmem_header
  row 0x0C 0x0450 0x0450 0x00 0x03 9 .ro 1 false 0 0 255 [0],  -- laser_state
  row 0x0C 0x0451 0x0451 0x00 0x03 2 .ro 2 false 0 0 65535 [0],  -- fibre_length_cm
  row 0x0C 0x0460 0x0460 0x00 0x00 0 .wo 1 false 0 0 1 [],  -- remove_prepare
  row 0x0C 0x0461 0x0461 0x00 0x00 9 .ro 1 false 0 0 255 [0],  -- remove_state
  row 0x00 0x0E00 0x0E00 0x00 0x00 1 .ro 1 false 0 0 255 [10],  -- idmem_count
  row 0x00 0x0E01 0x0E01 0x00 0x00 2 .ro 2 false 0 0 65535 [8192],  -- personality_bytes
  row 0x00 0x0E02 0x0E02 0x00 0x00 3 .ro 4 false 0 0 4294967295 [50331648],  -- image_body_max
  row 0x00 0x0E03 0x0E03 0x00 0x00 2 .ro 2 false 0 0 65535 [6136],  -- attest_report_bytes
  row 0x00 0x0E04 0x0E04 0x00 0x00 3 .ro 4 false 0 0 4294967295 [1048576],  -- lms_bottom_trees
  row 0x00 0x0E05 0x0E05 0x00 0x00 2 .ro 2 false 0 0 65535 [1024]]  -- xfer_window_bytes

/-- The whole dictionary. -/
def dictionary : List ObjRow :=
  rows01 ++ rows03 ++ rows04 ++ rows05 ++ rows06 ++ rows07 ++ rows08 ++ rows08a ++ rows09 ++ rows10 ++ rows11 ++ rows11a ++ rows12 ++ rows12a ++ rows13 ++ rows13a ++ rows14

/-- The number of ports of a die (R22). -/
def portCount (die : Nat) : Nat := if die < 8 then 3 else if die < 10 then 2 else if die < 14 then 6 else 2

/-- Whether a sub-index within a row's range names an object: translation caches exist on the dies of R452, port objects for the ports of
R25, stream engines on CD and SV dies (R365). -/
def ObjRow.has (r : ObjRow) (sub : Nat) : Bool :=
  if r.ss = 1 ∧ 0x100 ≤ r.idx ∧ r.idx ≤ 0x105 then sub < 8 || 14 ≤ sub
  else if r.ss = 9 ∧ 0x200 ≤ r.idx then sub % 8 < portCount (sub / 8)
  else if r.ss = 5 ∧ r.idx = 0x107 then sub < 8 || 0x12 ≤ sub
  else true

/-- The row of an object address, if the object exists (R696). -/
def lookupRow (addr : Nat) : Option ObjRow :=
  dictionary.find? (fun r => r.ss = addr / 2 ^ 24 ∧ r.idx ≤ addr / 256 % 65536 ∧ addr / 256 % 65536 ≤ r.idxHi ∧ r.sub ≤ addr % 256
    ∧ addr % 256 ≤ r.subHi ∧ r.has (addr % 256))

/-- An object's address as a number (R672). -/
def objAddr (ss idx sub : Nat) : Nat := ss * 2 ^ 24 + idx * 256 + sub

/-- The default of an object in its table (R685); an object with no stated default reads 0 until it is set (log entry 10). -/
def objDefault (addr : Nat) : Nat :=
  match lookupRow addr with
  | none => 0
  | some r => (r.dflt[addr % 256 - r.sub]?).getD (r.dflt.getLast?.getD 0)

end Sys2Proof.Machine
end

