-- ==== Sys2Proof/Machine/StateMem.lean ====
section
/-! DEFINITION. Machine/StateMem.lean: the state of DRAM, write combining, caches, directory and home agents (08, R367 to R429). -/

namespace Sys2Proof.Machine

/-- The data of a line: 128 bytes (R367). -/
abbrev LineData := List Byte

/-- The line of zeros. -/
def zeroLine : LineData := List.replicate 128 0

/-- The MOESI states of a line that a caching agent holds; a line it does not hold is in state I (R403). -/
inductive Moesi where
  | m | o | e | s
  deriving DecidableEq, Repr

/-- A line in a caching agent: its state, data, poison mark, whether it is retained (R389), which bytes have been written while
it is held in M (R415), and its place in the use order of its set. -/
structure CacheLine where
  st : Moesi
  data : LineData
  poison : Bool := false
  retained : Bool := false
  written : Nat := 0
  use : Nat := 0
  deriving DecidableEq, Repr

/-- What a caching agent waits for from a home on one line (R403); whether a partial write is that of an atomic (R416). -/
inductive Waiting where
  | forShared (hint : Fin 16)
  | forOwn (off : Nat) (data : List Byte) (amo : Bool)
  | forClaim (data : List Byte)
  | forUpgrade (off : Nat) (data : List Byte) (amo : Bool)
  deriving DecidableEq, Repr

/-- An eviction-buffer entry: the line's data, held until WbAck or WbSuperseded (R407). -/
structure EvbEntry where
  data : LineData
  poison : Bool
  written : Nat := 0
  deriving DecidableEq, Repr

/-- One caching agent: its lines by line tag, its eviction buffer, its outstanding requests, the local requests that wait for a request
entry in the order of their arrival, the requesters of its die that wait for one, each with its line, and the one of them served last (R331, R426); and the lines that a statistics add of
a mill holds while it obtains its other (R399). -/
structure CacheAgent where
  lines : Table (Option CacheLine) := []
  evb : Table (Option EvbEntry) := []
  waiting : Table (Option Waiting) := []
  parked : List (LineTag × Waiting) := []
  entryWait : List (Nat × LineTag) := []
  entryLast : Nat := 0x3FF
  pinned : List (LineTag × Nat) := []
  deriving DecidableEq, Repr

/-- A line of a hub's L3 (R392). -/
structure L3Line where
  data : LineData
  dirty : Bool
  poison : Bool
  use : Nat
  deriving DecidableEq, Repr

/-- The directory states; an unlisted line is in state I (R404). -/
inductive DirState where
  | s | x | o
  deriving DecidableEq, Repr

/-- A directory entry: its state, the recorded owner, the sharers, and the poison mark of R396 and R411: that of the data its holders were
granted, or a mark set at the home since. -/
structure DirEntry where
  st : DirState
  owner : Option Agent
  sharers : List Agent
  poison : Bool := false
  use : Nat := 0
  deriving DecidableEq, Repr

/-- The request types of R398 that a home opens a transaction for, and the two reasons of its own. -/
inductive ReqKind where
  | readShared | readOwn | writeClaim | upgrade | readOnce
  | writePush (off : Nat) (data : List Byte)
  | atomicHome (off : Nat) (op : AtomicCode) (operand compare : U64)
  | dirVictim | rebuild
  deriving DecidableEq, Repr

/-- Who a home answers: a caching agent, or a non-caching requester of a die. -/
inductive ReqBy where
  | agent (a : Agent)
  | die (d : Die)
  deriving DecidableEq, Repr

/-- The snoops of R400. -/
inductive SnoopKind where
  | shared | inv | once
  deriving DecidableEq, Repr

/-- What the recorded owner answered a snoop with (R404): nothing yet, dirty data with or without the evicting mark, clean data,
or no copy. -/
inductive OwnerAnswer where
  | none | dirty | dirtyEvicting | clean | invalid
  deriving DecidableEq, Repr

/-- An open transaction of a home (R401, R402, R410): its epoch, request, the agents whose answers are outstanding, what the
recorded owner answered and the data it gave, whether the entry was in state O, and when the timer of R410 expires. -/
structure Txn where
  epoch : Byte
  kind : ReqKind
  by_ : ReqBy
  awaiting : List Agent
  answer : OwnerAnswer := .none
  data : Option (LineData × Bool) := none
  fromO : Bool := false
  deadline : Nat
  errSymbols : Nat := 0
  deriving DecidableEq, Repr

/-- A request that waits at a home for the open transaction of its line (R402). -/
inductive HeldKind where
  | request (kind : ReqKind) (by_ : ReqBy) (errSymbols : Nat)
  | writeBack (a : Agent) (data : LineData) (poison : Bool)
  | evictClean (a : Agent)
  deriving DecidableEq, Repr

/-- A held request and its line. -/
structure Held where
  line : LineTag
  what : HeldKind
  deriving DecidableEq, Repr

/-- The last answer that a non-caching requester of a die has been sent (R398). -/
inductive OnceAnswer where
  | data (line : LineTag) (data : LineData) (poison : Bool)
  | pushed (line : LineTag) (poison : Bool)
  | old (line : LineTag) (old : U64) (poison : Bool)
  | accessError (line : LineTag)
  deriving DecidableEq, Repr

/-- A message a home or a caching agent has sent and that is on its way (R400). A snoop, its response and a completion carry the epoch of their
transaction (R401). `whole` says of a dirty answer that its line has had every byte written while its L2 held it in M (R415). -/
inductive Msg where
  | readShared (a : Agent) (line : LineTag)
  | readOwn (a : Agent) (line : LineTag)
  | writeClaim (a : Agent) (line : LineTag)
  | upgrade (a : Agent) (line : LineTag)
  | writeBack (a : Agent) (line : LineTag) (data : LineData) (poison : Bool)
  | evictClean (a : Agent) (line : LineTag)
  | snoop (k : SnoopKind) (a : Agent) (line : LineTag) (epoch : Byte)
  | rspInvalid (a : Agent) (line : LineTag) (epoch : Byte)
  | rspShared (a : Agent) (line : LineTag) (epoch : Byte)
  | rspData (a : Agent) (line : LineTag) (epoch : Byte) (data : LineData) (dirty evicting poison : Bool) (whole : Bool := false)
  | data (a : Agent) (line : LineTag) (epoch : Byte) (grant : Grant) (data : LineData) (poison : Bool)
  | ack (a : Agent) (line : LineTag) (epoch : Byte) (poison : Bool)
  | evictAck (a : Agent) (line : LineTag) (epoch : Byte) (poison : Bool := false)
  | wbAck (a : Agent) (line : LineTag) (epoch : Byte)
  | wbSuperseded (a : Agent) (line : LineTag) (epoch : Byte)
  deriving DecidableEq, Repr

/-- The message with what the command of its arrival does not name left out: the epoch of a completion, and the mark of a wholly written
line. -/
def Msg.bare : Msg → Msg
  | .rspData a t ep d x y p _ => .rspData a t ep d x y p false
  | .data a t _ g d p => .data a t 0 g d p
  | .ack a t _ p => .ack a t 0 p
  | .evictAck a t _ _ => .evictAck a t 0 false
  | .wbAck a t _ => .wbAck a t 0
  | .wbSuperseded a t _ => .wbSuperseded a t 0
  | m => m

/-- The virtual channel of a message: the four classes of R400 are the channels 0x0 to 0x3 of R544. -/
def Msg.channel : Msg → Nat
  | .readShared .. | .readOwn .. | .writeClaim .. | .upgrade .. | .writeBack .. | .evictClean .. => 0
  | .snoop .. => 1
  | .rspInvalid .. | .rspShared .. | .rspData .. => 2
  | .data .. | .ack .. | .evictAck .. | .wbAck .. | .wbSuperseded .. => 3

/-- The caching agent at one end of a message; its home is at the other. -/
def Msg.agent : Msg → Agent
  | .readShared a _ | .readOwn a _ | .writeClaim a _ | .upgrade a _ | .writeBack a _ _ _ | .evictClean a _ | .snoop _ a _ _
  | .rspInvalid a _ _ | .rspShared a _ _ | .rspData a _ _ _ _ _ _ _ | .data a _ _ _ _ _ | .ack a _ _ _ | .evictAck a _ _ _
  | .wbAck a _ _ | .wbSuperseded a _ _ => a

/-- The line of a message (R401). -/
def Msg.line : Msg → LineTag
  | .readShared _ t | .readOwn _ t | .writeClaim _ t | .upgrade _ t | .writeBack _ t _ _ | .evictClean _ t | .snoop _ _ t _
  | .rspInvalid _ t _ | .rspShared _ t _ | .rspData _ t _ _ _ _ _ _ | .data _ t _ _ _ _ | .ack _ t _ _ | .evictAck _ t _ _
  | .wbAck _ t _ | .wbSuperseded _ t _ => t

/-- The transaction epoch of a message (R401): a request leaves before its home assigns one, and its field is 0 (log entry 85). -/
def Msg.epoch : Msg → Byte
  | .readShared .. | .readOwn .. | .writeClaim .. | .upgrade .. | .writeBack .. | .evictClean .. => 0
  | .snoop _ _ _ ep | .rspInvalid _ _ ep | .rspShared _ _ ep | .rspData _ _ ep _ _ _ _ _ | .data _ _ ep _ _ _ | .ack _ _ ep _
  | .evictAck _ _ ep _ | .wbAck _ _ ep | .wbSuperseded _ _ ep => ep

/-- Whether a dirty answer is of a wholly written line (R415). -/
def Msg.whole : Msg → Bool
  | .rspData _ _ _ _ _ _ _ w => w
  | _ => false

/-- Whether a message tells a home of an agent's eviction of a line. -/
def Msg.evicts (a : Agent) (t : LineTag) : Msg → Bool
  | .writeBack b u _ _ | .evictClean b u => b = a && u = t
  | _ => false

/-- Whether a message answers an agent's eviction of a line. -/
def Msg.acksEviction (a : Agent) (t : LineTag) : Msg → Bool
  | .evictAck b u _ _ | .wbAck b u _ | .wbSuperseded b u _ => b = a && u = t
  | _ => false

/-- Whether a message carries a line's data, and takes a data field of a flit (R543). -/
def Msg.hasData : Msg → Bool
  | .writeBack .. | .rspData .. | .data .. => true
  | _ => false

/-- Whether a message goes from the agent to the home. -/
def Msg.toHome (m : Msg) : Bool := m.channel = 0 || m.channel = 2

/-- Two messages of one channel between the same two dies for one line: they arrive in the order sent (R546). -/
def Msg.sameWay (m n : Msg) : Bool := m.channel = n.channel && m.agent = n.agent && m.line = n.line

/-- A line of a hub's write-combining buffer (R381): the bytes written (a 128-bit mask), those of them of which only some bits were
(R415), their values, the time of the first write and the agents that wrote, each by its die × 256 + its stream of R455. -/
structure WcbLine where
  mask : Nat
  part : Nat := 0
  data : LineData
  since : U64
  writers : List Nat
  order : Nat
  deriving DecidableEq, Repr

/-- A home: its L3, directory, write-combining buffer, open transactions, held requests and next epoch; the agents whose requests have found
its queue full, and the one of them served last (R426). -/
structure Hub where
  l3 : Table (Option L3Line) := []
  dir : Table (Option DirEntry) := []
  wcb : Table (Option WcbLine) := []
  txns : Table (Option Txn) := []
  held : List Held := []
  epoch : Byte := 0
  scrubPos : Nat := 0
  stalled : List Agent := []
  lastAgent : Nat := 9
  deriving DecidableEq, Repr

/-- A side-buffer line of a compute die (R336, R341): its arrival time, lifetime in nanoseconds, poison mark and data. -/
structure SideLine where
  since : U64
  life : Nat
  data : LineData
  poison : Bool
  deriving DecidableEq, Repr

/-- A prefetch on its way to a side buffer (R336, R339 to R341): the hint of the first demand that has joined it, whether it is discarded
on arrival, its line's lifetime, and the requesters whose demands have joined it (R365). -/
structure InFlight where
  joined : Option Nat
  discard : Bool
  life : Nat
  joiners : List Nat := []
  deriving DecidableEq, Repr

/-- What travels between dies (R544, R550): a message of a transaction, or the notice of a connection down, which carries a sequence
number of its source die. -/
inductive Carry where
  | msg (m : Msg)
  | notice (conn seq : Nat)
  deriving DecidableEq, Repr

/-- A message between dies: its source and destination, and the die whose ports it waits at (R543, R547). -/
structure Carried where
  what : Carry
  src : Nat
  dst : Nat
  at_ : Nat
  deriving DecidableEq, Repr

/-- The virtual channel of a message between dies (R544). -/
def Carried.channel (c : Carried) : Nat :=
  match c.what with
  | .msg m => m.channel
  | .notice .. => 4

/-- What a DRAM read past the reach of its code comes to with a probability below 2^-40 in place of the uncorrectable report (R376): a
line decoded wrong, or a poisoned line reported so without a record. -/
inductive Misread where
  | wrong (data : LineData)
  | quiet
  deriving DecidableEq, Repr

/-- The errors a DRAM read meets: its wrong symbols, and how it is misread where they are past the reach of the code. -/
structure DramError where
  symbols : Nat
  misread : Option Misread := none
  deriving DecidableEq, Repr

/-- Everything the memory system holds. DRAM is byte by byte under its 41-bit location; `dramKey` names the key a line was written under,
with 1 added, and 0 for the one of memory initialisation, which is `initKey`; `pkgKey` is the package memory key; `dramPoison` lists the lines stored poisoned
(R377). `dramErrors` is the model's own: what the DRAM reads to come meet, where their command does not say (log entry 84). -/
structure MemState where
  dram : Table Byte := []
  dramKey : Table Nat := []
  initKey : Nat := 0
  pkgKey : Nat := 0
  dramErrors : List DramError := []
  tagsCorrected : Nat := 0
  dramPoison : Table Bool := []
  agents : Vector CacheAgent 10 := Vector.replicate 10 {}
  hubs : Vector Hub 4 := Vector.replicate 4 {}
  msgs : List Msg := []
  carried : List Carried := []
  answers : Table (Option OnceAnswer) := []
  margin : List (Int × Int) := []
  useTick : Nat := 0
  side : Vector (Table (Option SideLine)) 8 := Vector.replicate 8 []
  inFlight : Vector (Table (Option InFlight)) 8 := Vector.replicate 8 []
  deriving DecidableEq, Repr

end Sys2Proof.Machine
end

