-- ==== Sys2Proof/Machine/StateFabric.lean ====
section
/-! DEFINITION. Machine/StateFabric.lean: the state of die-to-die ports, optical links, transport, remote windows and partition keys
(11, R542 to R607). -/

namespace Sys2Proof.Machine

/-- One end of a die-to-die connection (R543, R548, R549): the sequence number expected next, whether flits are discarded until a
replay, the NAK sent last; and of the flits it sends itself, the last sent, the last acknowledged, the flit that is being replayed,
the time of its first NAK, its replays, and whether their bound is exhausted; the messages of each flit in its replay buffer (R549), the
credits of the other end that each virtual channel has in use (R544), the channel of 0x0 to 0x3 served last, and the flits for which a debug
message has waited (R545). -/
structure D2dPort where
  rxNext : BitVec 12 := 0
  discarding : Bool := false
  nakOut : Option (BitVec 12) := none
  sent : BitVec 12 := 0xFFF
  acked : BitVec 12 := 0xFFF
  nakSeq : BitVec 12 := 0
  firstNak : Option U64 := none
  replays : Nat := 0
  failed : Bool := false
  flits : List (BitVec 12 × List Carried) := []
  used : Table Nat := []
  lastChannel : Nat := 3
  debugWait : Nat := 0
  deriving DecidableEq, Repr

/-- A packet in a link's replay buffer, with the sequence number of its last flit (R564). -/
structure SentPacket where
  packet : Packet
  last : U16
  deriving DecidableEq, Repr

/-- One optical link (R561 to R564, R555): the receiving side, the sending side with its replay buffer, transmit queue and credits, the flits
that have left of the first packet of each class in its queue, the packets in assembly by class, the flits that stand in the receive buffer of
each class and the credits of it not yet returned (R562), the data flits of the replay buffer and the flit sent last (R561), the exchange in
progress, the last 64 offsets with their times, and a retraining that is due. -/
structure Link where
  rxNext : U16 := 0
  discarding : Bool := false
  nakOut : Option U16 := none
  txNext : U16 := 0
  acked : U16 := 0xFFFF
  nakSeq : U16 := 0
  firstNak : Option U64 := none
  sent : List SentPacket := []
  queue : List Packet := []
  credits : Vector Nat 4 := #v[256, 2048, 896, 896]
  begun : Vector Nat 4 := Vector.replicate 4 0
  asm : Vector (Option (List Byte)) 4 := Vector.replicate 4 none
  held : Vector Nat 4 := Vector.replicate 4 0
  owed : Vector Nat 4 := Vector.replicate 4 0
  flits : List LinkFlit := []
  out : Option LinkFlit := none
  t1 : U64 := 0
  history : List (Int × Int) := []
  retrain : Bool := false
  deriving DecidableEq, Repr

/-- A flow that this device sends on (R568): its destination, number, key, epoch, next PSN, and its unacknowledged packets with the
times at which they fail. -/
structure TxFlow where
  dst : U16
  num : U16
  pkey : BitVec 12
  epoch : Byte := 0
  next : U32 := 0
  waiting : List (U32 × Nat) := []
  deriving DecidableEq, Repr

/-- A flow that this device receives (R568, R569): its source, number, current epoch, and the PSN expected next. -/
structure RxFlow where
  src : U16
  num : U16
  epoch : Byte
  next : U32
  deriving DecidableEq, Repr

/-- An access through a remote window that is not yet answered (R579, R580). -/
structure WindowAccess where
  by_ : Requester
  window : Nat
  pa : Nat
  dst : U16
  num : U16
  pkey : BitVec 12
  offset : Nat
  deriving DecidableEq, Repr

/-- A remote window (R578). A write that clears enable has completed once `closing` is clear (R579). -/
structure Window where
  pkey : BitVec 12 := 0
  target : U16 := 0
  tbase : BitVec 12 := 0
  atomic : Bool := false
  write : Bool := false
  read : Bool := false
  enable : Bool := false
  closing : Bool := false
  deriving DecidableEq, Repr

/-- The 128-bit layout of a window table entry (R578). -/
def Window.block (x : Window) : Nat :=
  b2n x.enable + b2n x.read * 2 + b2n x.write * 2 ^ 2 + b2n x.atomic * 2 ^ 3 + x.tbase.toNat * 2 ^ 30 + x.target.toNat * 2 ^ 48
    + x.pkey.toNat * 2 ^ 64

/-- A host command or remote request that a receiving OX die has accepted and not yet performed, with the failure that its
translation has met (R575, R577). -/
structure Accepted where
  die : Die
  packet : Packet
  failed : Option Nat := none
  deriving DecidableEq, Repr

/-- The states of a partition key (R589). -/
inductive KeyState where
  | drained | enabled | quarantine (until_ : Nat) | undrained
  deriving DecidableEq, Repr

/-- The state every key starts in at a cold reset: in quarantine until package time reaches pkey_quarantine_min (R740). -/
def coldKey : KeyState := .quarantine 2000000

/-- A grant that arrived before the operation it is for began (R603). -/
structure EarlyGrant where
  pkey : BitVec 12
  collId : Nat
  rank : Nat
  chunk : Nat
  deriving DecidableEq, Repr

/-- Everything the fabric holds. `routes` is the mask of downed connections that the dies' route sets were loaded for (R547, R551),
`isolated` the dies that a fatal isolation takes out of service (R552), `local` the packets that this module has addressed to itself,
`remoteData` what a remote read
of an operation has returned, and `keys` lists the partition keys that are not in `coldKey`. `syncSent` is the last sequence number that each
die has given a message of virtual channel 0x4, `syncSeen` the destination, source and number of those received, `told` the mask of the
connections that each die has had notice of and `debugErrors` the debug messages answered with an error (R550), and `lastClass` the traffic class of 1 to 3 that each link has served last (R563). -/
structure FabricState where
  ports : Table D2dPort := []
  routes : Nat := 0
  routeStale : Bool := false
  isolated : List Die := []
  links : Vector Link 32 := Vector.replicate 32 {}
  flows : List TxFlow := []
  rxFlows : List RxFlow := []
  accesses : List WindowAccess := []
  windows : Table Window := []
  accepted : List Accepted := []
  local_ : List Packet := []
  remoteData : Table (Option (List Byte)) := []
  keys : Table KeyState := []
  early : List EarlyGrant := []
  syncSent : Table Nat := []
  syncSeen : List (Nat × Nat × Nat) := []
  told : Table Nat := []
  debugErrors : Nat := 0
  lastClass : Table Nat := []
  deriving DecidableEq, Repr

end Sys2Proof.Machine
end

