-- ==== Sys2Proof/Machine/StateMmu.lean ====
section
/-! DEFINITION. Machine/StateMmu.lean: the state of translation and of the fault service (09, R430 to R490; R166). -/

namespace Sys2Proof.Machine

/-- The rights a translation carries or a request wants: read, write, atomic (R447). -/
structure Rights where
  r : Bool
  w : Bool
  a : Bool
  deriving DecidableEq, Repr

/-- A translation-cache entry (R453): its address space, virtual page and page size as numbers of 4 KiB pages, physical
address, realm flag and rights; and the page of its leaf, which is a larger one where the page is cached in parts (R448, R449). -/
structure TcEntry where
  asid : Nat
  vpn : Nat
  pages : Nat
  pa : Nat
  realm : Bool
  rights : Rights
  leafVpn : Nat := vpn
  leafPages : Nat := pages
  deriving DecidableEq, Repr

/-- A stream that waits at a page: its identifier, its queue, the rights it wants (R455, R484), the address it missed at, and for whom: the
journal slots of the operations, none for its queue's own fetch (R471); empty where its command does not say. -/
structure WaitingStream where
  stream : Nat
  queue : Nat
  rights : Rights
  va : Nat := 0
  for_ : List (Option SlotId) := []
  deriving DecidableEq, Repr

/-- The outcome of the last walk of a miss entry (R483). -/
inductive WalkStatus where
  | none | noMapping | rightLacking | malformed
  deriving DecidableEq, Repr

/-- A miss entry of a die's translation cache (R457), or a page request's list of streams: the walk it awaits or the tag it
has been reported under; and for a page request the time it was detected at (R482). -/
structure MissEntry where
  die : Die
  asid : Nat
  vpn : Nat
  va : Nat
  streams : List WaitingStream
  walking : Bool
  pf : List Nat := []
  pageRequest : Bool := false
  time : U64 := 0
  deriving DecidableEq, Repr

/-- A page-request slot of a system MMU (R463): outstanding or not, its reuse count, and the request. -/
structure PrSlot where
  outstanding : Bool := false
  reuse : Nat := 0
  die : Die := 0
  asid : Nat := 0
  vpn : Nat := 0
  va : Nat := 0
  streams : List WaitingStream := []
  deadline : U64 := 0
  walk : WalkStatus := .none
  leaf : Nat := 0
  deriving DecidableEq, Repr

/-- The class of a record (R485). -/
inductive RecClass where
  | fault | corrected | deferred | fatal
  deriving DecidableEq, Repr

/-- A fault-queue record before it is written: its first 64-byte entry as a number, the entries that follow, and its class; or, in
`request`, a page request that waits for room, whose records are formed when it is written (R480, R481). -/
structure FaultRecord where
  cls : RecClass
  first : Nat
  more : List Nat := []
  request : Option MissEntry := none
  deriving DecidableEq, Repr

/-- A copy of a sealed region's entry that the system MMUs hold (R166). -/
structure SealedCopy where
  asid : Nat
  region : Nat
  base : Nat
  pages : Nat
  deriving DecidableEq, Repr

/-- A cached context entry (R436), as the 512-bit number of R435. -/
structure CtxEntry where
  asid : Nat
  bits : Nat
  deriving DecidableEq, Repr

/-- A walk-cache entry: a non-leaf page-table entry that maps `level` under a table address (R460). -/
structure WalkEntry where
  asid : Nat
  level : Nat
  key : Nat
  pte : Nat
  deriving DecidableEq, Repr

/-- One system MMU and its fault-service control block (R431, R478). `unanswered` lists, by die and line, the requests that entries removed
since the last IOFENCE.C of its queue had translated (R473). -/
structure Mmu where
  fctl : U32 := 0
  cqb : U64 := 0
  cqh : U32 := 0
  cqt : U32 := 0
  cqcsr : U32 := 0
  ipsr : U32 := 0
  fqBase : U64 := 0
  fqTail : U32 := 0
  fqHead : U32 := 0
  fqDropped : U32 := 0
  respTimeoutUs : U32 := 10000
  fqIrq : Bool := false
  fqEn : Bool := false
  respErr : Bool := false
  slots : Table (Option PrSlot) := []
  holding : List FaultRecord := []
  waitingPr : List MissEntry := []
  unanswered : List (Nat × Nat) := []
  walkCache : List WalkEntry := []
  ctxCache : List CtxEntry := []
  deriving DecidableEq, Repr

/-- The 512-bit layout of a fault-service control block as it is read (R478), with the context base that both show: pr_resp is written only. -/
def Mmu.block (x : Mmu) (ctxBase : U64) : Nat :=
  b2n x.respErr * 2 + b2n x.fqEn * 2 ^ 2 + b2n x.fqIrq * 2 ^ 3 + x.respTimeoutUs.toNat * 2 ^ 160
    + (x.slots.filter (fun e => e.2.any (·.outstanding))).length % 2 ^ 11 * 2 ^ 256
    + x.fqDropped.toNat * 2 ^ 288 + x.fqHead.toNat * 2 ^ 320 + x.fqTail.toNat * 2 ^ 352 + x.fqBase.toNat * 2 ^ 384 + ctxBase.toNat * 2 ^ 448

/-- Whether a system MMU interrupts the fault service: a level, while records stand and the interrupt is enabled (R478). -/
def Mmu.irq (x : Mmu) : Bool := x.fqIrq && x.fqTail ≠ x.fqHead

/-- The register set of a system MMU as it is read (R430, R431; the offsets and the capabilities' bits PRESUMED, log entry 24): first-stage
Sv57 is reported, and no second-stage mode. -/
def Mmu.registers (x : Mmu) : Nat :=
  (Config.mmuCapabilities % 2 ^ 8 + 2 ^ 11) + x.fctl.toNat * 2 ^ (8 * 0x08) + x.cqb.toNat * 2 ^ (8 * 0x18) + x.cqh.toNat * 2 ^ (8 * 0x20)
    + x.cqt.toNat * 2 ^ (8 * 0x24) + x.cqcsr.toNat * 2 ^ (8 * 0x48) + x.ipsr.toNat * 2 ^ (8 * 0x54)

/-- Everything translation holds: the shared context base, the two system MMUs, the per-die caches and miss entries, the
sealed copies, the fatal log of R486, newest first, and the first entry of the last record of a poisoned dirty line (kind 0x11), which R397
may make module-fatal. -/
structure XlState where
  ctxBase : U64 := 0
  mmus : Vector Mmu 2 := Vector.replicate 2 {}
  tcs : Vector (List TcEntry) 20 := Vector.replicate 20 []
  misses : List MissEntry := []
  sealed : List SealedCopy := []
  fatalLog : List Nat := []
  lastDirty : Option Nat := none
  deriving DecidableEq, Repr

end Sys2Proof.Machine
end

