-- ==== Sys2Proof/Machine/Formats.lean ====
section
/-! DEFINITION. Machine/Formats.lean: the number formats, decode and encode, comparisons and stochastic rounding (R53 to R99, R745). -/

namespace Sys2Proof.Machine

/-- The element formats, by the format field of a descriptor (R157). -/
inductive Fmt where
  | fp64 | fp32 | bf16 | fp16 | e4m3 | e5m2 | e2m3 | e3m2 | e2m1 | e8m0 | int8 | int32 | a80 | a128
  deriving DecidableEq, Repr

/-- The format of a format code (R157); codes 0xE and 0xF are reserved. -/
def Fmt.ofCode : Nat → Option Fmt
  | 0 => some .fp64 | 1 => some .fp32 | 2 => some .bf16 | 3 => some .fp16 | 4 => some .e4m3 | 5 => some .e5m2
  | 6 => some .e2m3 | 7 => some .e3m2 | 8 => some .e2m1 | 9 => some .e8m0 | 10 => some .int8 | 11 => some .int32
  | 12 => some .a80 | 13 => some .a128 | _ => none

/-- The width of a stored element in bits (R53, R60, R61). -/
def Fmt.bits : Fmt → Nat
  | .fp64 => 64 | .fp32 => 32 | .bf16 => 16 | .fp16 => 16 | .e4m3 => 8 | .e5m2 => 8 | .e2m3 => 6 | .e3m2 => 6
  | .e2m1 => 4 | .e8m0 => 8 | .int8 => 8 | .int32 => 32 | .a80 => 128 | .a128 => 128

/-- The MX element formats (R53). -/
def Fmt.isMx : Fmt → Bool
  | .e2m3 | .e3m2 | .e2m1 => true
  | _ => false

/-- Exponent bits, mantissa bits and bias of a binary floating-point format (R53). -/
def Fmt.layout : Fmt → Nat × Nat × Nat
  | .fp64 => (11, 52, 1023) | .fp32 => (8, 23, 127) | .bf16 => (8, 7, 127) | .fp16 => (5, 10, 15)
  | .e4m3 => (4, 3, 7) | .e5m2 => (5, 2, 15) | .e2m3 => (2, 3, 1) | .e3m2 => (3, 2, 3) | .e2m1 => (2, 1, 1)
  | _ => (0, 0, 0)

/-- A decoded element: NaN, a signed infinity, a signed zero, or a finite non-zero value. -/
inductive Val where
  | nan
  | inf (neg : Bool)
  | zero (neg : Bool)
  | fin (q : Rat)
  deriving DecidableEq, Repr

/-- A rational as a decoded value; the tensor engines know one zero (R65). -/
def Val.ofRat (q : Rat) : Val := if q = 0 then .zero false else .fin q

/-- The rational a finite value stands for; NaN and infinities read as 0 and are handled before it is used. -/
def Val.rat : Val → Rat
  | .fin q => q
  | _ => 0

def Val.isNan : Val → Bool
  | .nan => true
  | _ => false

def Val.isInf : Val → Bool
  | .inf _ => true
  | _ => false

/-- Whether a value is below zero or is a negative zero. -/
def Val.neg : Val → Bool
  | .nan => false
  | .inf n => n
  | .zero n => n
  | .fin q => q < 0

/-- 2 to an integer power. -/
def pow2 : Int → Rat
  | .ofNat n => ((2 ^ n : Nat) : Rat)
  | .negSucc n => 1 / ((2 ^ (n + 1) : Nat) : Rat)

def ratAbs (q : Rat) : Rat := if q < 0 then -q else q

/-- floor(log2 q) of a positive rational. -/
def floorLog2 (q : Rat) : Int :=
  let e : Int := (Nat.log2 q.num.natAbs : Int) - (Nat.log2 q.den : Int)
  if pow2 e ≤ q then e else e - 1

/-- How an encode rounds (R67, R93, R297): to nearest even, stochastically with random value r, or in a direction. -/
inductive Rounding where
  | rne
  | sr (r : Nat)
  | towardZero | up | down
  deriving DecidableEq, Repr

/-- The magnitude of q rounded to a whole multiple of 2^k, as a count of 2^k (R67, R93). -/
def roundUnits (m : Rounding) (q : Rat) (k : Int) : Nat :=
  let x := ratAbs q / pow2 k
  let f := x.floor.toNat
  let r := x - (f : Rat)
  if r = 0 then f
  else match m with
    | .rne => if 2 * r < 1 then f else if 2 * r = 1 then (if f % 2 = 0 then f else f + 1) else f + 1
    | .sr rnd => if rnd < (r * ((2 ^ 32 : Nat) : Rat)).floor.toNat then f + 1 else f
    | .towardZero => f
    | .up => if q < 0 then f else f + 1
    | .down => if q < 0 then f + 1 else f

/-- q rounded to a whole multiple of 2^k, with its sign. -/
def roundGrid (m : Rounding) (q : Rat) (k : Int) : Rat :=
  let v := (roundUnits m q k : Rat) * pow2 k
  if q < 0 then -v else v

/-- q rounded to p significant bits with an unbounded exponent (R67). -/
def roundSig (m : Rounding) (q : Rat) (p : Nat) : Rat :=
  if q = 0 then 0 else roundGrid m q (floorLog2 (ratAbs q) - ((p : Int) - 1))

/-- The smallest normal of a binary format (R53). -/
def Fmt.minNormal (f : Fmt) : Rat := pow2 (1 - (f.layout.2.2 : Int))

/-- The largest finite value of a format (R53). -/
def Fmt.maxFinite : Fmt → Rat
  | .fp64 => (2 - pow2 (-52)) * pow2 1023
  | .fp32 => (2 - pow2 (-23)) * pow2 127
  | .bf16 => (2 - pow2 (-7)) * pow2 127
  | .fp16 => 65504
  | .e4m3 => 448
  | .e5m2 => 57344
  | .e2m3 => (15 : Rat) / 2
  | .e3m2 => 28
  | .e2m1 => 6
  | _ => 0


/-- The flush limit as a value (R63). -/
def flushLimit (f : Fmt) : Rat :=
  match f with
  | .fp64 | .fp32 | .bf16 | .fp16 | .e4m3 | .e5m2 => f.minNormal
  | .e2m3 | .e3m2 | .e2m1 => pow2 (-126)
  | _ => 0

/-- The value of a two's complement code of w bits. -/
def signedOf (w code : Nat) : Int :=
  if code % 2 ^ w < 2 ^ (w - 1) then ((code % 2 ^ w : Nat) : Int) else ((code % 2 ^ w : Nat) : Int) - ((2 ^ w : Nat) : Int)

/-- The two's complement code of w bits of an integer. -/
def codeOf (w : Nat) (i : Int) : Nat := (i % ((2 ^ w : Nat) : Int)).toNat

/-- The exact value of a code, specials told apart, before any flush (R53, R60 to R62). -/
def rawDecode (f : Fmt) (code : Nat) : Val :=
  match f with
  | .int8 => Val.ofRat (signedOf 8 code)
  | .int32 => Val.ofRat (signedOf 32 code)
  | .e8m0 => if code = 255 then .nan else .fin (pow2 ((code : Int) - 127))
  | .a80 =>
    let s := bit code 79
    let e := bits code 78 64
    let m := bits code 63 0
    if e = 0 then .zero false
    else if e = 0x7FFF then (if m = 0x8000000000000000 then .inf s else .nan)
    else Val.ofRat ((if s then -1 else 1) * ((m : Nat) : Rat) * pow2 ((e : Int) - 16383 - 63))
  | .a128 =>
    let s := bit code 127
    let e := bits code 126 112
    let m := bits code 111 0
    if e = 0 then .zero false
    else if e = 0x7FFF then (if m = 0 then .inf s else .nan)
    else .fin ((if s then -1 else 1) * (((2 ^ 112 + m : Nat) : Nat) : Rat) * pow2 ((e : Int) - 16383 - 112))
  | _ =>
    let (eb, mb, bias) := f.layout
    let s := bit code (eb + mb)
    let e := bits code (eb + mb - 1) mb
    let m := bits code (mb - 1) 0
    let top := e + 1 = 2 ^ eb
    if f = .e4m3 ∧ top ∧ m = 7 then .nan
    else if top ∧ (f = .fp64 ∨ f = .fp32 ∨ f = .bf16 ∨ f = .fp16 ∨ f = .e5m2) then (if m = 0 then .inf s else .nan)
    else if e = 0 then
      (if m = 0 then .zero s else .fin ((if s then -1 else 1) * ((m : Nat) : Rat) * pow2 (1 - (bias : Int) - (mb : Int))))
    else .fin ((if s then -1 else 1) * (((2 ^ mb + m : Nat) : Nat) : Rat) * pow2 ((e : Int) - (bias : Int) - (mb : Int)))

/-- Decode of one stored element by a tensor engine (R63 to R66), with the number of flushed-in elements, 0 or 1. -/
def decode (f : Fmt) (code scale : Nat) : Val × Nat :=
  if f.isMx && scale == 255 then (.nan, 0)
  else match rawDecode f code with
    | .nan => (.nan, 0)
    | .inf n => (.inf n, 0)
    | .zero _ => (.zero false, 0)
    | .fin q =>
      let v := if f.isMx then q * pow2 ((scale : Int) - 127) else q
      if ratAbs v < flushLimit f then (.zero false, 1) else (.fin v, 0)

/-- Decode without the count. -/
def decodeVal (f : Fmt) (code scale : Nat) : Val := (decode f code scale).1

/-- The four numeric counters of an operation (R95). -/
structure Counts where
  flushedIn : Nat := 0
  flushedOut : Nat := 0
  saturated : Nat := 0
  nan : Nat := 0
  deriving DecidableEq, Repr

/-- Add counts; each is held at 0xFFFF_FFFF where it is written (R99). -/
def Counts.add (a b : Counts) : Counts :=
  ⟨a.flushedIn + b.flushedIn, a.flushedOut + b.flushedOut, a.saturated + b.saturated, a.nan + b.nan⟩

/-- A counter as its journal field holds it (R99). -/
def heldAt32 (n : Nat) : Nat := if n < 2 ^ 32 then n else 2 ^ 32 - 1

/-- The canonical NaN of a format (R62, R70). -/
def Fmt.canonicalNan : Fmt → Nat
  | .fp64 => 0x7FF8000000000000 | .fp32 => 0x7FC00000 | .bf16 => 0x7FC0 | .fp16 => 0x7E00 | .e4m3 => 0x7F | .e5m2 => 0x7E
  | .a80 => 0x7FFFC000000000000000 | .a128 => 0x7FFF8000000000000000000000000000 | .e8m0 => 0xFF
  | _ => 0

/-- The code of a value that its format represents exactly, sign included; zero is code zero. -/
def exactCode (f : Fmt) (q : Rat) : Nat :=
  let (eb, mb, bias) := f.layout
  let s := if q < 0 then 2 ^ (eb + mb) else 0
  let a := ratAbs q
  if a = 0 then 0
  else if a < pow2 (1 - (bias : Int)) then s + (a / pow2 (1 - (bias : Int) - (mb : Int))).floor.toNat
  else
    let e := floorLog2 a
    s + (e + (bias : Int)).toNat * 2 ^ mb + ((a / pow2 (e - (mb : Int))).floor.toNat - 2 ^ mb)

/-- The code of an infinity of a format that has one (R53). -/
def infCode (f : Fmt) (neg : Bool) : Nat :=
  let (eb, mb, _) := f.layout
  (2 ^ eb - 1) * 2 ^ mb + (if neg then 2 ^ (eb + mb) else 0)

/-- Whether a format overflows to infinity, given the overflow-mode bit (R68). -/
def overflowsToInf (f : Fmt) (ovf : Bool) : Bool :=
  match f with
  | .fp64 | .fp32 | .fp16 => true
  | .bf16 | .e5m2 => !ovf
  | _ => false

/-- The overflow function of the encode pseudocode (R68, R72). -/
def overflowCode (f : Fmt) (neg ovf : Bool) : Nat × Counts :=
  if overflowsToInf f ovf then (infCode f neg, {})
  else (exactCode f (if neg then - f.maxFinite else f.maxFinite), { saturated := 1 })

/-- Encode of an integer format: ties to even, then saturation; NaN writes 0 (R68, R71, R72). -/
def encodeInt (w : Nat) (v : Val) : Nat × Counts :=
  let hi : Int := ((2 ^ (w - 1) : Nat) : Int) - 1
  let lo : Int := -((2 ^ (w - 1) : Nat) : Int)
  match v with
  | .nan => (0, { nan := 1 })
  | .inf n => (codeOf w (if n then lo else hi), { saturated := 1 })
  | .zero _ => (0, {})
  | .fin q =>
    let n := (roundUnits .rne q 0 : Nat)
    let r : Int := if q < 0 then -(n : Int) else n
    if r > hi then (codeOf w hi, { saturated := 1 })
    else if r < lo then (codeOf w lo, { saturated := 1 })
    else if r = 0 then (0, if q = 0 then {} else { flushedOut := 1 })
    else (codeOf w r, {})

/-- q rounded to the element grid of an MX element format, exponent-zero codes included (R55, R73, R745). -/
def roundElement (f : Fmt) (m : Rounding) (q : Rat) : Rat :=
  let (_, mb, bias) := f.layout
  let e := floorLog2 (ratAbs q)
  let emin : Int := 1 - (bias : Int)
  if q = 0 then 0 else roundGrid m q ((if e < emin then emin else e) - (mb : Int))

/-- Encode of one FP6 or FP4 element outside a block write (R745). -/
def encodeElement (f : Fmt) (m : Rounding) (v : Val) : Nat × Counts :=
  match v with
  | .nan => (0, { nan := 1 })
  | .inf n => overflowCode f n true
  | .zero _ => (0, {})
  | .fin q =>
    let r := roundElement f m q
    if ratAbs r > f.maxFinite then overflowCode f (q < 0) true
    else if r = 0 then (0, { flushedOut := 1 })
    else (exactCode f r, {})

/-- Encode into an accumulator format: 64 or 113 bits, to nearest even, never counted (R62, R89, R98). The exponent field takes the value
that the exponent gives, whatever it is: the spec gives none for a total outside the format's range (log entry 78). -/
def encodeAcc (f : Fmt) (v : Val) : Nat :=
  match f, v with
  | _, .nan => f.canonicalNan
  | .a80, .inf n => 0x7FFF8000000000000000 + (if n then 2 ^ 79 else 0)
  | _, .inf n => 0x7FFF0000000000000000000000000000 + (if n then 2 ^ 127 else 0)
  | _, .zero _ => 0
  | .a80, .fin q =>
    let r := roundSig .rne q 64
    let a := ratAbs r
    let e := floorLog2 a
    (if r < 0 then 2 ^ 79 else 0) + (e + 16383).toNat * 2 ^ 64 + (a / pow2 (e - 63)).floor.toNat
  | _, .fin q =>
    let r := roundSig .rne q 113
    let a := ratAbs r
    let e := floorLog2 a
    (if r < 0 then 2 ^ 127 else 0) + (e + 16383).toNat * 2 ^ 112 + ((a / pow2 (e - 112)).floor.toNat - 2 ^ 112)

/-- The significant bits p(fmt) of a storage format (encode pseudocode). -/
def Fmt.precision (f : Fmt) : Nat := f.layout.2.1 + 1

/-- The encode of the tensor engines: round, then overflow, then flush (R67 to R72, R94, R745). -/
def encode (f : Fmt) (m : Rounding) (ovf : Bool) (v : Val) : Nat × Counts :=
  match f with
  | .int8 => encodeInt 8 v
  | .int32 => encodeInt 32 v
  | .a80 => (encodeAcc .a80 v, {})
  | .a128 => (encodeAcc .a128 v, {})
  | .e8m0 => (0, {})
  | .e2m3 => encodeElement .e2m3 m v
  | .e3m2 => encodeElement .e3m2 m v
  | .e2m1 => encodeElement .e2m1 m v
  | _ =>
    match v with
    | .nan => (f.canonicalNan, { nan := 1 })
    | .inf n => overflowCode f n ovf
    | .zero _ => (0, {})
    | .fin q =>
      let r := roundSig m q f.precision
      if ratAbs r > f.maxFinite then overflowCode f (q < 0) ovf
      else if ratAbs r < f.minNormal then (0, { flushedOut := 1 })
      else (exactCode f r, {})

/-- The random generator of stochastic rounding, chunking and MinHash (R90). -/
def gen (seed idx site : Nat) : Nat :=
  let m : Nat := 2 ^ 64
  let x0 := (((idx + 1) % m) * 0x9E3779B97F4A7C15) % m
  let x1 := Nat.xor (Nat.xor x0 (seed % m)) ((site <<< 56) % m)
  let x2 := (Nat.xor x1 (x1 >>> 30) * 0xBF58476D1CE4E5B9) % m
  let x3 := (Nat.xor x2 (x2 >>> 27) * 0x94D049BB133111EB) % m
  let x4 := Nat.xor x3 (x3 >>> 31)
  x4 >>> 32

/-- The rounding fields of an output descriptor: round, ovf and seed (R155). -/
structure RoundSpec where
  stochastic : Bool
  ovf : Bool
  seed : Nat
  deriving DecidableEq, Repr

/-- The rounding of one element at a site, from its coordinate (R90 to R93). -/
def RoundSpec.at (r : RoundSpec) (idx site : Nat) : Rounding :=
  if r.stochastic then .sr (gen r.seed idx site) else .rne

/-- Encode at a rounding site by an output descriptor's fields. -/
def encodeAt (f : Fmt) (r : RoundSpec) (idx site : Nat) (v : Val) : Nat × Counts := encode f (r.at idx site) r.ovf v

/-- The exponent e_elem of an MX element format (R73). -/
def Fmt.elemExp : Fmt → Int
  | .e3m2 => 4
  | _ => 2

/-- One value of an MX block under scale exponent X (steps 5 to 9 of R73). -/
def mxElement (f : Fmt) (x : Int) (m : Rounding) (v : Val) : Nat × Counts :=
  match v with
  | .nan => (0, { nan := 1 })
  | .inf n => overflowCode f n true
  | .zero _ => (0, {})
  | .fin q =>
    let e := roundElement f m (q * pow2 (-x))
    if ratAbs e > f.maxFinite then overflowCode f (q < 0) true
    else if ratAbs (e * pow2 x) < pow2 (-126) then (0, { flushedOut := 1 })
    else (exactCode f e, {})

/-- The largest magnitude among the finite values of a block. -/
def maxMagnitude (vs : List Val) : Rat := vs.foldl (fun m v => if ratAbs v.rat > m then ratAbs v.rat else m) 0

/-- An MX output block: its scale code and element codes, with the counts (R73). The roundings are those of the elements. -/
def encodeBlock (f : Fmt) (vs : List (Val × Rounding)) : Nat × List Nat × Counts :=
  if vs.any (fun v => v.1.isNan) then (255, vs.map (fun _ => 0), { nan := vs.length })
  else
    let m := maxMagnitude (vs.map Prod.fst)
    let x0 : Int := if m = 0 then 0 else floorLog2 m - f.elemExp
    let x : Int := if x0 < -127 then -127 else if x0 > 127 then 127 else x0
    let es := vs.map (fun v => mxElement f x v.2 v.1)
    ((x + 127).toNat, es.map Prod.fst, es.foldl (fun c e => c.add e.2) {})

/-- A comparison predicate on two decoded values (R75); codes 0x8 to 0xF are reserved. -/
def compareVal (code : Nat) (a b : Val) : Bool :=
  let un := a.isNan || b.isNan
  let key : Val → Rat × Int := fun v =>
    match v with
    | .inf n => (0, if n then -1 else 1)
    | w => (w.rat, 0)
  let (qa, ia) := key a
  let (qb, ib) := key b
  let lt := ia < ib || (ia = ib && qa < qb)
  let eq := ia = ib && qa = qb
  match code with
  | 0 => !un && eq
  | 1 => un || !eq
  | 2 => !un && lt
  | 3 => !un && (lt || eq)
  | 4 => !un && !lt && !eq
  | 5 => !un && !lt
  | 6 => un
  | 7 => !un
  | _ => false

/-- IEEE 754-2019 minimum and maximum: NaN wins, and −0 orders below +0 (R76). -/
def minMax (max : Bool) (a b : Val) : Val :=
  if a.isNan || b.isNan then .nan
  else match a, b with
    | .zero x, .zero y => .zero (if max then x && y else x || y)
    | _, _ => if compareVal 2 a b then (if max then b else a) else (if max then a else b)

/-- The exact sum of two values, zero signs by IEEE 754-2019 to nearest (R231, R296). -/
def addVal (a b : Val) : Val :=
  match a, b with
  | .nan, _ => .nan
  | _, .nan => .nan
  | .inf x, .inf y => if x = y then .inf x else .nan
  | .inf x, _ => .inf x
  | _, .inf y => .inf y
  | .zero x, .zero y => .zero (x && y)
  | _, _ => Val.ofRat (a.rat + b.rat)

/-- The exact product of two values (R231, R296, R77). -/
def mulVal (a b : Val) : Val :=
  match a, b with
  | .nan, _ => .nan
  | _, .nan => .nan
  | .inf _, .zero _ => .nan
  | .zero _, .inf _ => .nan
  | .inf x, _ => .inf (x != b.neg)
  | _, .inf y => .inf (y != a.neg)
  | .fin p, .fin q => .fin (p * q)
  | _, _ => .zero (a.neg != b.neg)

/-- Clears the sign of a zero: the tensor engines know one zero (R65, R69). -/
def Val.plainZero : Val → Val
  | .zero _ => .zero false
  | v => v

end Sys2Proof.Machine
end

