-- ==== Sys2Proof/Machine/Reals.lean ====
section
/-! DEFINITION. Machine/Reals.lean: results that are real numbers rounded once (R233, R299): an exact value, or intervals that
close in on an irrational one, and the encode of either. -/

namespace Sys2Proof.Machine

/-- A real result: a decoded value, or for each precision n a lower and an upper rational bound of an irrational number. -/
inductive Real where
  | exact (v : Val)
  | between (f : Nat → Rat × Rat)

/-- x as a fixed-point integer with n fraction bits, rounded down. -/
def fixDown (n : Nat) (x : Rat) : Int := (x * ((2 ^ n : Nat) : Rat)).floor

/-- A fixed-point integer with n fraction bits as a rational. -/
def ofFix (n : Nat) (i : Int) : Rat := (i : Rat) / ((2 ^ n : Nat) : Rat)

/-- Σ over k below `terms` of floor(2^n / (base^(2k+1) (2k+1))), alternating in sign if alt: the fixed-point arc series. -/
def arcSeries (n base : Nat) (alt : Bool) : Nat → Nat → Int → Int
  | 0, _, acc => acc
  | t + 1, k, acc =>
    let term : Int := ((2 ^ n / (base ^ (2 * k + 1) * (2 * k + 1)) : Nat) : Int)
    arcSeries n base alt t (k + 1) (if alt && k % 2 == 1 then acc - term else acc + term)

/-- ln 2 = 2 artanh(1/3) with n fraction bits, within 2n + 8 units. -/
def ln2Fix (n : Nat) : Int := 2 * arcSeries n 3 false (n / 3 + 4) 0 0

/-- π = 16 arctan(1/5) − 4 arctan(1/239) with n fraction bits, within 20n + 40 units. -/
def piFix (n : Nat) : Int := 16 * arcSeries n 5 true (n / 4 + 4) 0 0 - 4 * arcSeries n 239 true (n / 15 + 4) 0 0

/-- The exponential series of a fixed-point x: Σ x^k / k!, each term rounded down. -/
def expSeries (n : Nat) (x : Int) : Nat → Nat → Int → Int → Int
  | 0, _, _, acc => acc
  | t + 1, k, term, acc => expSeries n x t (k + 1) (term * x / (((2 ^ n : Nat) : Int) * ((k : Int) + 1))) (acc + term)

/-- The series Σ (−1)^k x^(2k+o) / (2k+o)! of a fixed-point x: sine for o = 1, cosine for o = 0. -/
def trigSeries (n : Nat) (x : Int) : Nat → Nat → Int → Int → Int
  | 0, _, _, acc => acc
  | t + 1, j, term, acc =>
    let one : Int := ((2 ^ n : Nat) : Int)
    trigSeries n x t (j + 2) (-(term * x / one * x / (one * ((j : Int) + 1) * ((j : Int) + 2)))) (acc + term)

/-- Bounds of a fixed-point value known within e units. -/
def around (n : Nat) (v e : Int) : Rat × Rat := (ofFix n (v - e), ofFix n (v + e))

/-- Bounds of 2^x for a rational x, at precision n. -/
def exp2Bounds (x : Rat) (n : Nat) : Rat × Rat :=
  let m := n + 16
  let e := x.floor
  let t := fixDown m (x - (e : Rat)) * ln2Fix m / ((2 ^ m : Nat) : Int)
  let v := expSeries m t (m / 2 + 16) 0 ((2 ^ m : Nat) : Int) 0
  let err : Int := 16 * (m : Int) + 256
  let (lo, hi) := around m v err
  (lo * pow2 e, hi * pow2 e)

/-- 2^x (R231, R299): exact for an integer x, otherwise irrational. Beyond 20000 and below −20000 the power at that bound stands for it:
both lie far outside every format, so their encodings are the same. -/
def exp2Real (x : Rat) : Real :=
  if 20000 < x then .exact (.fin (pow2 20000))
  else if x < -20000 then .exact (.fin (pow2 (-20000)))
  else if x.den = 1 then .exact (.fin (pow2 x.num)) else .between (exp2Bounds x)

/-- Fixed-point artanh series Σ z^(2k+1)/(2k+1) of a fixed-point z. -/
def artanhSeries (n : Nat) (z2 : Int) : Nat → Nat → Int → Int → Int
  | 0, _, _, acc => acc
  | t + 1, k, p, acc => artanhSeries n z2 t (k + 1) (p * z2 / ((2 ^ n : Nat) : Int)) (acc + p / (2 * (k : Int) + 1))

/-- Bounds of log2 q of a positive rational q, at precision n. -/
def log2Bounds (q : Rat) (n : Nat) : Rat × Rat :=
  let m := 2 * n + 32
  let e := floorLog2 q
  let r := q / pow2 e
  let z := fixDown m ((r - 1) / (r + 1))
  let one : Int := ((2 ^ m : Nat) : Int)
  let a := 2 * artanhSeries m (z * z / one) (m / 3 + 8) 0 z 0
  let err : Int := 64 * (m : Int) + 512
  let l := (a - err) * one / (ln2Fix m + err) - 4
  let h := (a + err) * one / (ln2Fix m - err) + 4
  ((e : Rat) + ofFix m l, (e : Rat) + ofFix m h)

/-- log2 q of a positive rational (R299): exact for a power of two, otherwise irrational. -/
def log2Real (q : Rat) : Real :=
  let e := floorLog2 q
  if q = pow2 e then .exact (Val.ofRat (e : Rat)) else .between (log2Bounds q)

/-- Bounds of sqrt q of a positive rational, at precision n. -/
def sqrtBounds (q : Rat) (n : Nat) : Rat × Rat :=
  let e := floorLog2 q / 2
  let s : Nat := (q * pow2 (2 * ((n : Int) - e))).floor.toNat
  let r := Nat.sqrt s
  ((r : Rat) * pow2 (e - (n : Int)), ((r + 1 : Nat) : Rat) * pow2 (e - (n : Int)))

/-- Whether a number is a perfect square. -/
def isSquare (n : Nat) : Bool := Nat.sqrt n * Nat.sqrt n == n

/-- sqrt q of a positive rational: exact where numerator and denominator are squares. -/
def sqrtReal (q : Rat) : Real :=
  if isSquare q.num.natAbs && isSquare q.den then
    .exact (.fin ((Nat.sqrt q.num.natAbs : Rat) / (Nat.sqrt q.den : Rat)))
  else .between (sqrtBounds q)

/-- x / sqrt d for a rational x and a positive rational d (R231, R255, R299). -/
def divSqrtReal (x d : Rat) : Real :=
  if x = 0 then .exact (.zero false)
  else match sqrtReal d with
    | .exact v => .exact (Val.ofRat (x / v.rat))
    | .between f => .between (fun n =>
        let (lo, hi) := f n
        if x < 0 then (x / lo, x / hi) else (x / hi, x / lo))

/-- Bounds of sin(π r) or cos(π r) for 0 ≤ r ≤ 1/2, at precision n. -/
def trigBounds (cosine : Bool) (r : Rat) (n : Nat) : Rat × Rat :=
  let m := 2 * n + 32
  let x := fixDown m r * piFix m / ((2 ^ m : Nat) : Int)
  let one : Int := ((2 ^ m : Nat) : Int)
  let v := if cosine then trigSeries m x (m / 4 + 16) 0 one 0 else trigSeries m x (m / 4 + 16) 1 x 0
  around m v (64 * (m : Int) + 512)

/-- Bounds with both signs turned. -/
def negBounds (b : Rat × Rat) : Rat × Rat := (-b.2, -b.1)

/-- sin(π x) of a rational x (R299), by reduction to the first quadrant; zero takes the sign of x in IEEE mode. -/
def sinPiReal (x : Rat) : Real :=
  let r := x - 2 * ((x / 2).floor : Rat)
  let (s, r1) := if r < 1 then (false, r) else (true, r - 1)
  let r2 := if r1 > 1 / 2 then 1 - r1 else r1
  if r2 = 0 then .exact (.zero (x < 0))
  else if r2 = 1 / 2 then .exact (.fin (if s then -1 else 1))
  else .between (fun n => if s then negBounds (trigBounds false r2 n) else trigBounds false r2 n)

/-- cos(π x) of a rational x (R299). -/
def cosPiReal (x : Rat) : Real :=
  let r := x - 2 * ((x / 2).floor : Rat)
  let r0 := if r > 1 then 2 - r else r
  let (s, r1) := if r0 > 1 / 2 then (true, 1 - r0) else (false, r0)
  if r1 = 1 / 2 then .exact (.zero false)
  else if r1 = 0 then .exact (.fin (if s then -1 else 1))
  else .between (fun n => if s then negBounds (trigBounds true r1 n) else trigBounds true r1 n)

/-- The sum of a rational and a real. -/
def Real.addRat (q : Rat) : Real → Real
  | .exact v => .exact (addVal (Val.ofRat q) v)
  | .between f => .between (fun n => let (l, h) := f n; (q + l, q + h))

/-- The precisions tried for an irrational result, in order. -/
def precisions : List Nat := [80, 160, 320, 640, 1280, 2560, 5120, 10240]

/-- The code of an irrational result: the first precision at which both bounds encode alike decides (R67 and R93 are monotone).
If none does, the code is a free value (log entry 5). -/
def encodeBetween (enc : Val → Nat × Counts) (f : Nat → Rat × Rat) : List Nat → Nat × Counts
  | [] => (Config.freeRounding (f 80).1.num.natAbs (f 80).1.den, {})
  | n :: ns =>
    let (l, h) := f n
    if enc (Val.ofRat l) = enc (Val.ofRat h) then enc (Val.ofRat l) else encodeBetween enc f ns

/-- One rounding of a real result by an encode (R233, R299). -/
def encodeReal (enc : Val → Nat × Counts) : Real → Nat × Counts
  | .exact v => enc v
  | .between f => encodeBetween enc f precisions

end Sys2Proof.Machine
end

