-- ==== Sys2Proof/Machine/Dot.lean ====
section
/-! DEFINITION. Machine/Dot.lean: the accumulators and the K-blocks of the defined dot product (R77 to R89). -/

namespace Sys2Proof.Machine

/-- The accumulator format of an operand class: A128 for FP64, else A80 (R77 to R85). -/
def accFmt (fp64 : Bool) : Fmt := if fp64 then .a128 else .a80

/-- round_acc: 64 or 113 significant bits, to nearest even; an exact zero is +0 (R82, R89). -/
def roundAcc (fp64 : Bool) (q : Rat) : Val := Val.ofRat (roundSig .rne q (if fp64 then 113 else 64))

/-- The addition of two accumulator values (R89). -/
def addAcc (fp64 : Bool) (a b : Val) : Val :=
  match a, b with
  | .nan, _ => .nan
  | _, .nan => .nan
  | .inf x, .inf y => if x = y then .inf x else .nan
  | .inf x, _ => .inf x
  | _, .inf y => .inf y
  | _, _ => roundAcc fp64 (a.rat + b.rat)

/-- The K-block length of the dot product (R79). -/
def blockLen (fp64 : Bool) : Nat := if fp64 then 8 else 32
/-- The K-segment length (R83). -/
def segLen (fp64 : Bool) : Nat := if fp64 then 1024 else 4096
/-- The truncation window of a block in bits (R80). -/
def windowBits (fp64 : Bool) : Int := if fp64 then 192 else 96

/-- The special value of a list of products, if any: NaN over infinity, opposite infinities giving NaN (R78). -/
def specialOf (ps : List Val) : Option Val :=
  if ps.any (fun p => p.isNan) then some .nan
  else
    let pos := ps.any (fun p => p = .inf false)
    let neg := ps.any (fun p => p = .inf true)
    if pos && neg then some .nan else if pos then some (.inf false) else if neg then some (.inf true) else none

/-- The sum of one K-block's products, each truncated to the window (R80), scaled for MX (R81) and rounded once (R82). -/
def blockSum (fp64 : Bool) (ps : List Val) (scale : Rat) : Val :=
  match specialOf ps with
  | some v => v
  | none =>
    let m := maxMagnitude ps
    if m = 0 then .zero false
    else
      let w := floorLog2 m - windowBits fp64
      let t := ps.foldl (fun acc p => acc + roundGrid .towardZero p.rat w) 0
      roundAcc fp64 (t * scale)

/-- One element's running accumulators: the segment in progress and the total of the segments before it (R84, R85). -/
structure Acc where
  part : Val := .zero false
  total : Val := .zero false
  deriving DecidableEq, Repr

/-- Adds one block sum to the segment in progress (R84). -/
def Acc.addBlock (fp64 : Bool) (a : Acc) (b : Val) : Acc := { a with part := addAcc fp64 a.part b }

/-- Closes a segment: its result goes into the total (R85). -/
def Acc.closeSegment (fp64 : Bool) (a : Acc) : Acc := { part := .zero false, total := addAcc fp64 a.total a.part }

/-- Cuts a list into runs of n. -/
def chunks {α : Type} (n : Nat) : Nat → List α → List (List α)
  | 0, _ => []
  | _, [] => []
  | fuel + 1, l => l.take n :: chunks n fuel (l.drop n)

/-- The dot product up to its accumulator total, for one row of decoded products given in K order with the scale of each block
(R77 to R85): what a mill and its chain engine compute together. -/
def dotAcc (fp64 : Bool) (ps : List Val) (scales : Nat → Rat) : Val :=
  match specialOf ps with
  | some v => v
  | none =>
    let blocks := (chunks (blockLen fp64) (ps.length + 1) ps).zipIdx
    let perSeg := segLen fp64 / blockLen fp64
    let segs := chunks perSeg (blocks.length + 1) blocks
    segs.foldl (fun tot seg =>
      addAcc fp64 tot (seg.foldl (fun part b => addAcc fp64 part (blockSum fp64 b.1 (scales b.2))) (.zero false))) (.zero false)

/-- The defined dot product with its final encode (R85, R87). -/
def dot (fp64 : Bool) (ps : List Val) (scales : Nat → Rat) (out : Fmt) (r : RoundSpec) (idx : Nat) : Nat × Counts :=
  encodeAt out r idx 0 (dotAcc fp64 ps scales)

end Sys2Proof.Machine
end

