-- ==== Sys2Proof/Machine/StateQueue.lean ====
section
/-! DEFINITION. Machine/StateQueue.lean: the state of command queues, operations, the journal, mills and chain engines
(03 R102 to R184, 04, 05, and the stream and collective units of an operation). -/

namespace Sys2Proof.Machine

/-- The queue states of R107; every other code is reserved. -/
inductive QState where
  | detached | idle | running | draining | stopped
  deriving DecidableEq, Repr

/-- The code of a queue state; 0x5 to 0xFF are reserved (R107). -/
def QState.code : QState → Nat
  | .detached => 0 | .idle => 1 | .running => 2 | .draining => 3 | .stopped => 4

/-- A buffer of the submit list or the current buffer: base, length in instructions, and the program region it binds. -/
structure Buffer where
  base : Nat
  len : Nat
  region : Nat
  deriving DecidableEq, Repr

/-- A running loop: the index of the first instruction of its body, its captured count and its iteration index (R143). -/
structure LoopLevel where
  body : Nat
  count : Nat
  index : Nat
  deriving DecidableEq, Repr

/-- A signal that is still to be performed, in issue order (R129, R131, R133): the signal field's subfields of R116, or the
update of a SYNC, and the issued operations it comes after. -/
structure PendingSignal where
  kind : Nat
  die : Nat
  index : Nat
  add : Nat
  afterOrdinal : Nat
  ready : Bool
  sync : Bool := false
  deriving DecidableEq, Repr

/-- A command queue (R105), with the model's own bookkeeping of the instruction at head: the fetched word, its latched waits
(R125), when it became the instruction at head (R134), the journal slot allocated to it (R124, R750), whether its wait for a slot
has been counted (R172), and the pushes whose descriptor or region is still being read (R111). -/
structure Queue where
  watchdog : U32 := 0
  issued : U32 := 0
  stopAfter : U32 := 0
  tref : U64 := 0
  submitBad : Bool := false
  submitOvf : Bool := false
  phase : BitVec 4 := 0
  reason : Byte := 0
  state : QState := .detached
  sheafMask : U32 := 0
  unit : BitVec 12 := 0
  cls : BitVec 4 := 0
  asid : Asid := 0
  head : U32 := 0
  cur : Option Buffer := none
  submits : List Buffer := []
  loops : List LoopLevel := []
  fetched : Option (BitVec 256) := none
  skipDepth : Option Nat := none
  wait0 : Bool := false
  wait1 : Bool := false
  headSince : U64 := 0
  slot : Option SlotId := none
  stopReason : Byte := 0
  stopping : Bool := false
  failStop : Bool := false
  abortedQ : Bool := false
  endUnperformed : Option (Byte × Byte) := none
  signals : List PendingSignal := []
  brkLatch : Bool := false
  slotWait : Bool := false
  pushes : List Nat := []
  deriving DecidableEq, Repr

/-- The 512-bit layout of a queue control block as it is read (R105, R107): ctl and submit are written only. A buffer of 2^32 instructions or
more, which no rule bounds, shows its length modulo 2^32 (DESIGN CHOICE, log entry 80). -/
def Queue.block (x : Queue) : Nat :=
  ((x.cur.map Buffer.base).getD 0) + ((x.cur.map Buffer.len).getD 0) % 2 ^ 32 * 2 ^ 64 + x.head.toNat * 2 ^ 96 + x.asid.toNat * 2 ^ 128
    + x.cls.toNat * 2 ^ 140 + x.unit.toNat * 2 ^ 144 + x.sheafMask.toNat * 2 ^ 160 + x.state.code * 2 ^ 192 + x.reason.toNat * 2 ^ 200
    + x.loops.length * 2 ^ 208 + x.phase.toNat * 2 ^ 212 + x.submits.length * 2 ^ 216 + b2n x.submitOvf * 2 ^ 220
    + b2n x.submitBad * 2 ^ 221 + x.tref.toNat * 2 ^ 256 + x.stopAfter.toNat * 2 ^ 320 + x.issued.toNat * 2 ^ 352 + x.watchdog.toNat * 2 ^ 384

/-- A journal entry (R174), field by field. `job` is the job slot its queue was bound to when it issued, 64
for none (R635). -/
structure Entry where
  tEnd : U64 := 0
  tBegin : U64 := 0
  nan : Nat := 0
  saturated : Nat := 0
  flushedOut : Nat := 0
  flushedIn : Nat := 0
  faultAddr : U64 := 0
  lastTile : U32 := 0xFFFFFFFF
  tiles : U32 := 0
  index : U32 := 0
  ordinal : U32 := 0
  queue : QueueId := 0
  opcode : Byte := 0
  phase : BitVec 4 := 0
  reason : Byte := 0
  running : Bool := false
  status : BitVec 4 := 0
  job : Nat := 64
  deriving DecidableEq, Repr

/-- The 512-bit layout of a journal entry (R174). -/
def Entry.bits (e : Entry) : Nat :=
  e.status.toNat + b2n e.running * 2 ^ 4 + e.reason.toNat * 2 ^ 8 + e.phase.toNat * 2 ^ 16 + e.opcode.toNat * 2 ^ 24
    + e.queue.val * 2 ^ 32 + e.ordinal.toNat * 2 ^ 64 + e.index.toNat * 2 ^ 96 + e.tiles.toNat * 2 ^ 128
    + e.lastTile.toNat * 2 ^ 160 + e.faultAddr.toNat * 2 ^ 192 + heldAt32 e.flushedIn * 2 ^ 256
    + heldAt32 e.flushedOut * 2 ^ 288 + heldAt32 e.saturated * 2 ^ 320 + heldAt32 e.nan * 2 ^ 352
    + e.tBegin.toNat * 2 ^ 384 + e.tEnd.toNat * 2 ^ 448

/-- A completion record (R180). -/
structure CompRecord where
  ordinal : U32
  queue : QueueId
  status : BitVec 4
  slot : SlotId
  deriving DecidableEq, Repr

/-- The 64-bit layout of a completion record (R180). -/
def CompRecord.bits (r : CompRecord) : Nat :=
  r.slot.val + r.status.toNat * 2 ^ 12 + r.queue.val * 2 ^ 16 + r.ordinal.toNat * 2 ^ 32

/-- A tensor descriptor that has been read (R155). -/
structure Tensor where
  base : Nat
  fmt : Fmt
  exts : List Nat
  strides : List Nat
  round : RoundSpec
  hint : Nat
  scale : Option (Nat × List Nat)
  scaleHint : Nat := 0
  deriving DecidableEq, Repr

/-- A byte-buffer descriptor that has been read (R160). -/
structure ByteBuf where
  base : Nat
  len : Nat
  hint : Nat
  deriving DecidableEq, Repr

/-- A chain stage (R226). -/
structure Stage where
  kind : Nat
  op : Nat
  sub : Nat
  srcA : Nat
  srcB : Nat
  constA : Nat
  constB : Nat
  stashW : Bool
  stashSlot : Bool
  deriving DecidableEq, Repr

/-- A configuration block as apply has read it, with its lookup tables (R223, R237). -/
structure CfgBlock where
  sfmt : Fmt
  stages : List Stage
  consts : List Nat
  luts : List (List Nat)
  col0 : Option Tensor
  col1 : Option Tensor
  row0 : Option Tensor
  second : Option Tensor
  statsIn : Option ByteBuf
  statsOut : Option ByteBuf
  deriving DecidableEq, Repr

/-- The parameters of a mill-class or chain-class operation that has begun (R189, R209, R239, R260). -/
inductive MillKind where
  | matmul | part | combine | chain | attend
  deriving DecidableEq, Repr

structure MillOp where
  kind : MillKind
  a : Tensor
  b : Option Tensor
  d : Tensor
  transA : Bool := false
  transB : Bool := false
  proOn : Nat := 0
  pro : Option CfgBlock := none
  epi : Option CfgBlock := none
  tileM : Nat := 128
  tileN : Nat := 256
  kSlice : Nat := 256
  ksplit : Nat := 1
  m : Nat := 0
  n : Nat := 0
  k : Nat := 0
  batch : List Nat := []
  segFirst : Nat := 0
  segCount : Nat := 0
  units : Nat := 0
  cls : Nat := 0
  dExts : List Nat := []
  fp64 : Bool := false
  v : Option Tensor := none
  lse : Option Tensor := none
  kvGroup : Nat := 1
  mask : Nat := 0
  maskOffset : Int := 0
  sigma : Val := .zero false
  pfDistance : Nat := 0
  pfLife : Nat := 0
  nextTile : Nat := 0
  mills : List Nat := []
  deriving DecidableEq, Repr

/-- A LAUNCH that has begun (R274 to R284). -/
structure LaunchOp where
  width : Nat
  sheaves : Nat
  regs : Nat
  smem : Nat
  grid : Nat × Nat × Nat
  ieee : Bool
  entry : Nat
  timeoutUs : Nat
  codeBase : Nat
  codeLen : Nat
  region : Nat
  args : List Nat
  procs : List Nat
  nextOrdinal : Nat := 0
  lastProc : Nat := 31
  deriving DecidableEq, Repr

/-- A tensor or a byte buffer, as a dense run of bits: elements in ascending idx, or bytes in address order (R349). -/
inductive Image where
  | tensor (t : Tensor)
  | bytes (b : ByteBuf)
  deriving DecidableEq, Repr

/-- A PREFETCH, COPY, relay or SNAPSHOT operation that has begun: its operands, the next unit it works on, for PREFETCH the lines it
has asked for, those of them that go to a side buffer, and whether it has skipped a page, and for SNAPSHOT the copied bytes and their digest. -/
structure UnitOp where
  src : Image
  dst : Option Image := none
  prm : Nat := 0
  units : Nat := 0
  next : Nat := 0
  time : Nat := 0
  life : Nat := 0
  asked : List Nat := []
  flying : List LineTag := []
  skipped : Bool := false
  digest : List Byte := []
  data : List Byte := []
  deriving DecidableEq, Repr

/-- A service operation that has begun (R499 to R521): its input, its second input or dictionary, its output, result, MinHash and
scratch buffers, its parameter block and option, the copy of its key and the realm the key is of, the output records of a SORTMERGE,
and where it stands. -/
structure ServiceOp where
  inp : ByteBuf
  second : Option ByteBuf := none
  out : ByteBuf
  results : Option ByteBuf := none
  mh : Option ByteBuf := none
  scratch : Option ByteBuf := none
  prm : Nat := 0
  option : Nat := 0
  key : List Byte := []
  keyRealm : Option Nat := none
  recs : List (List Byte) := []
  matches_ : Nat := 0
  units : Nat := 0
  next : Nat := 0
  ready : Bool := false
  finished : Bool := false
  deriving DecidableEq, Repr

/-- One direction of a collective's data (R600, R603): the rank at its other end, the number of its first grant, and the elements of the
whole vector it carries, cut into chunks; the chunks granted and sent so far. -/
structure CollStream where
  rank : Nat
  base : Nat
  first : Nat
  count : Nat
  partials : Bool
  granted : Nat := 0
  done : Nat := 0
  deriving DecidableEq, Repr

/-- A collective operation that has begun (R593 to R603): its parameters, its streams in and out, the partials received by rank and
element, the output elements known by their index in the whole vector, the counts of the elements reduced and not yet reported (R101), and how
far its own reductions have come. -/
structure CollOp where
  inp : Image
  out : Option Image := none
  fp64 : Bool := false
  reduces : Bool := false
  collId : Nat := 0
  pkey : BitVec 12 := 0
  ranks : Nat := 1
  rank : Nat := 0
  peer : Nat := 0
  op : Nat := 0
  tree : Bool := false
  table : List Nat := []
  chunk : Nat := 4096
  elems : Nat := 0
  outFirst : Nat := 0
  outCount : Nat := 0
  units : Nat := 0
  ins : List CollStream := []
  outs : List CollStream := []
  partials : Table (Option Nat) := []
  mine : Table (Option Nat) := []
  known : Table (Option Nat) := []
  tallies : Table Counts := []
  reduced : Nat := 0
  finished : Bool := false
  deriving DecidableEq, Repr

/-- What an operation needs of its class once it has begun. -/
inductive OpBody where
  | none
  | mill (m : MillOp)
  | launch (l : LaunchOp)
  | stream (u : UnitOp)
  | service (v : ServiceOp)
  | coll (c : CollOp)
  deriving DecidableEq, Repr

/-- What an operation has read of memory and reads once (R161, R223, R244): by which stream, its runs of addresses and lengths, their bytes, and
whether a page of them was of a realm. -/
structure KeptRead where
  stream : Nat
  runs : List (Nat × Nat)
  data : List (List Byte)
  realm : Bool
  deriving DecidableEq, Repr

/-- An operation that holds a journal slot and has issued, up to its end (R124 to R138); `pkey` is the partition key of a collective that has
read its parameters, `endedKeys` are the keys whose disabling has ended it (R590), `kept` what it has read and is not to read again, and `sampled` what it took of objects when it began: the kernel timeout, the
prefetch distance and lifetime (R313, R365). -/
structure Operation where
  queue : QueueId
  slot : SlotId
  ordinal : Nat
  index : Nat
  word : BitVec 256
  h : List Nat
  phase : BitVec 4
  begun : Bool := false
  tBegin : U64 := 0
  status : Nat := 0
  reason : Nat := 0
  failed : Option (Nat × Nat) := none
  aborting : Option Nat := none
  pkey : Option (BitVec 12) := none
  endedKeys : List (BitVec 12) := []
  faultAddr : Nat := 0
  written : List Nat := []
  counts : Counts := {}
  flushSeen : Table Bool := []
  proSeen : Table Bool := []
  kept : List KeptRead := []
  sampled : List Nat := []
  body : OpBody := .none
  deriving DecidableEq, Repr

/-- The tile a K-split group has taken (R193): its operation, ordinal, coordinates, and its extent in rows, columns and K. -/
structure TileJob where
  slot : SlotId
  ordinal : Nat
  batch : Nat
  m0 : Nat
  n0 : Nat
  tm : Nat
  tn : Nat
  k0 : Nat
  k1 : Nat
  rank : Nat
  group : List Nat
  deriving DecidableEq, Repr

/-- A full scratch slot (R195, R332): the tile it belongs to, its K range, the A rows and B columns as values after decode and
prologue, for ATTEND the V rows beside its Q rows and K rows, the input elements flushed in, and the prologue's counts for each
operand element. -/
structure ScratchSlot where
  job : TileJob
  k0 : Nat
  k1 : Nat
  a : List (List Val)
  b : List (List Val)
  v : List (List Val) := []
  flushed : List Nat
  pro : List (Nat × Counts)
  deriving DecidableEq, Repr

/-- The fetch of one operand of a K-slice (R196, R198): the mill of the die whose thresher fetches it, if it is another's; the lines that
are held, by fetch stream × 2^57 + virtual address ÷ 128; and whether every one of them is. -/
structure OperandFetch where
  owner : Option Nat := none
  lines : Table (List Byte) := []
  whole : Bool := false
  deriving DecidableEq, Repr

/-- A scratch slot that its thresher fills (R332): the tile and K range it is for, and the fetches of A and of B, each with its scales;
for ATTEND of Q, and of K and V. -/
structure Filling where
  job : TileJob
  k0 : Nat
  k1 : Nat
  a : OperandFetch := {}
  b : OperandFetch := {}
  deriving DecidableEq, Repr

/-- What ATTEND keeps for one query row: m and l of R261, the mark of R262, and the counts of its lines 5 and 10 to 12. -/
structure AttRow where
  m : Val := .inf true
  l : Val := .zero false
  bad : Bool := false
  scoreCounts : Counts := {}
  softCounts : Counts := {}
  deriving DecidableEq, Repr

/-- A curd entry (R210): a whole tile of accumulator values, or one segment of it, in the order the mill filled it. -/
structure CurdEntry where
  job : TileJob
  seg : Nat
  last : Bool
  vals : List Val
  flushed : List Nat
  pro : List (Nat × Counts)
  rows : List AttRow := []
  deriving DecidableEq, Repr

/-- The tile a mill computes (R194): its accumulators, and where it stands in the head slot. -/
structure Computing where
  job : TileJob
  acc : List Acc
  blk : Nat
  fp : Nat
  flushed : List Nat
  pro : List (Nat × Counts)
  rows : List AttRow := []
  deriving DecidableEq, Repr

/-- A row entry of a row-statistics buffer (R247, R248): its record, its sums as integers, its count and its nonfinite mark. -/
structure RowEntry where
  slot : SlotId
  row : Nat
  addr : Nat
  sum : Int
  sumsq : Nat
  count : Nat
  nonfinite : Bool
  deriving DecidableEq, Repr

/-- One mill with its thresher, scratch, accumulators, curd queue and chain engine (R185, R220): the tile whose K-slices its thresher fills,
the next of them to begin, the slots in filling and those that are full, in order; the pages its prefetchers are blocked at, each with
its stream and the ordinal of its tile (R346). -/
structure Mill where
  op : Option SlotId := none
  lastQueue : Nat := 2047
  fill : Option TileJob := none
  nextK : Nat := 0
  filling : List Filling := []
  slots : List ScratchSlot := []
  cur : Option Computing := none
  finished : Option CurdEntry := none
  curd : List CurdEntry := []
  total : Option CurdEntry := none
  chainTile : Option (SlotId × Nat) := none
  rows : List RowEntry := []
  adds : List RowEntry := []
  pfBlocked : List (Nat × Nat × Nat) := []
  deriving DecidableEq, Repr

/-- The journal (R171 to R181): entries by slot, which slots are allocated and terminal, the completion ring, and the control
block's registers; with the queue last served by the round robin of R172. -/
structure Journal where
  entries : Table (Option Entry) := []
  allocated : List SlotId := []
  terminal : List SlotId := []
  ring : Table (Option CompRecord) := []
  releaseErr : Bool := false
  irqEnable : Bool := false
  fullStalls : U32 := 0
  compRead : U32 := 0
  compWritten : U32 := 0
  lastQueue : Nat := 2047
  deriving DecidableEq, Repr

/-- The slots not allocated (R181). -/
def Journal.freeSlots (j : Journal) : Nat := 4096 - j.allocated.length

/-- The interrupt to the journal handler: raised while comp_written and comp_read differ and irq_enable is 1 (R181). -/
def Journal.irq (j : Journal) : Bool := j.irqEnable && j.compWritten ≠ j.compRead

/-- The 512-bit layout of the journal control block (R181). -/
def Journal.block (j : Journal) : Nat :=
  j.compWritten.toNat + j.compRead.toNat * 2 ^ 32 + j.freeSlots * 2 ^ 128 + j.fullStalls.toNat * 2 ^ 160 + b2n j.irqEnable * 2 ^ 192
    + b2n j.releaseErr * 2 ^ 193

/-- Everything the command processor, the mills and the chain engines hold. Program-region binds are keyed by
asid × 256 + region (R748), `jobs` are the job slots that the operations of each journal slot took at their issue, newest first (R635, R637); flags and counters by die × 512 + index and die × 128 + index (R139). -/
structure CmdState where
  queues : Table Queue := []
  ops : List Operation := []
  journal : Journal := {}
  flags : Table Bool := []
  counters : Table U32 := []
  pcounters : Table U32 := []
  binds : Table Nat := []
  jobs : Table (List Nat) := []
  mills : Vector Mill 96 := Vector.replicate 96 {}
  deriving DecidableEq, Repr

end Sys2Proof.Machine
end

