-- ==== Sys2Proof/Machine/StateSheaf.lean ====
section
/-! DEFINITION. Machine/StateSheaf.lean: the state of the sheaf processors: stooks, their sheaves and stalks (06). -/

namespace Sys2Proof.Machine

/-- What a live stalk waits for (R302, R305, R307, R319); at SSYNC, the instruction it waits at, its mask and since when. -/
inductive StalkWait where
  | ready | memory | barrier
  | ssync (pc mask : Nat) (since : U64)
  deriving DecidableEq, Repr

/-- A stalk (R273, R280, R302): its program counter, registers v by number, predicates p0 to p7 as bits, and the issues of its sheaf
that have passed it over while it was ready. -/
structure Stalk where
  pc : Nat
  live : Bool := true
  wait : StalkWait := .ready
  v : Table U32 := []
  p : Byte := 0
  age : Nat := 0
  deriving DecidableEq, Repr

/-- One stalk's part of a memory instruction: its lane, virtual address, operand and compare value. -/
structure LaneReq where
  lane : Nat
  va : Nat
  data : Nat := 0
  cmp : Nat := 0
  deriving DecidableEq, Repr

/-- A memory instruction whose line requests are not all answered (R318, R319): its word, the group that waits, the requests of the
performing stalks, and the lines still to be answered. -/
structure SheafAccess where
  word : Nat
  group : List Nat
  lanes : List LaneReq
  lines : List Nat
  deriving DecidableEq, Repr

/-- A sheaf of a resident stook (R273, R285): its uniform registers, stalks, quarter, outstanding accesses, and the program counter of
a group that has yielded. -/
structure Sheaf where
  u : Table U32 := []
  stalks : List Stalk := []
  quarter : Nat := 0
  accesses : List SheafAccess := []
  yielded : Option Nat := none
  deriving DecidableEq, Repr

/-- A resident stook (R277 to R281, R307 to R314): the number the model gives it, its LAUNCH's journal slot, ordinal, processor,
sheaves, stook memory, the running barrier generation: its deadline and the instruction its first arrival executed, and the counts of its
CVT results, which the LAUNCH reports once it has exited (R101, R301). -/
structure Stook where
  id : Nat
  slot : SlotId
  ordinal : Nat
  proc : ProcId
  sheaves : List Sheaf := []
  smem : Table Byte := []
  barrier : Option (U64 × Nat) := none
  counts : Counts := {}
  deriving DecidableEq, Repr

/-- A line of a processor's instruction cache (R273), by its address space and the number of its line of virtual addresses. -/
structure CodeLine where
  asid : Nat
  line : Nat
  data : List Byte
  deriving DecidableEq, Repr

/-- Everything the sheaf array holds: the resident stooks, each processor's instruction cache, the line used last first, and for each quarter of
each processor, by 4 × processor + quarter, the quarter-steps of the running window that are counted already (R328). -/
structure ShfState where
  stooks : List Stook := []
  nextId : Nat := 0
  code : Table (List CodeLine) := []
  steps : Table Nat := []
  deriving DecidableEq, Repr

end Sys2Proof.Machine
end

