-- ==== Sys2Proof/Machine/StateStream.lean ====
section
/-! DEFINITION. Machine/StateStream.lean: the state of the relay queues (07, R353 to R364). -/

namespace Sys2Proof.Machine

/-- A relay queue: its control block (R355) and its entries, each a descriptor of 512 bits (R354). -/
structure Relay where
  emptyWaits : U32 := 0
  fullWaits : U32 := 0
  takes : U32 := 0
  puts : U32 := 0
  errOwner : Bool := false
  errOver : Bool := false
  errUnder : Bool := false
  enable : Bool := false
  consumer : BitVec 12 := 0
  producer : BitVec 12 := 0
  asid : Asid := 0
  entries : Table Nat := []
  deriving DecidableEq, Repr

/-- The 512-bit layout of a relay control block (R355). -/
def Relay.bits (r : Relay) : Nat :=
  r.asid.toNat + r.producer.toNat * 2 ^ 48 + r.consumer.toNat * 2 ^ 72 + b2n r.enable * 2 ^ 96 + b2n r.errUnder * 2 ^ 97
    + b2n r.errOver * 2 ^ 98 + b2n r.errOwner * 2 ^ 99 + r.puts.toNat * 2 ^ 320 + r.takes.toNat * 2 ^ 352
    + r.fullWaits.toNat * 2 ^ 384 + r.emptyWaits.toNat * 2 ^ 416

/-- The entries a relay queue holds (R355). -/
def Relay.held (r : Relay) : Nat := (r.puts - r.takes).toNat

end Sys2Proof.Machine
end

