-- ==== Sys2Proof/Machine/StateSvc.lean ====
section
/-! DEFINITION. Machine/StateSvc.lean: the state of service engines and of rind realms (10, R491 to R541). -/

namespace Sys2Proof.Machine

/-- An entry of a key store (R522): its 256-bit key, generation, valid bit, and the highest generation ever loaded (R534). -/
structure KeyEntry where
  key : List Byte := []
  gen : Nat := 0
  valid : Bool := false
  lastGen : Nat := 0
  deriving DecidableEq, Repr

/-- A realm (R522, R524, R531): active or free, the identity of its memory key, its exchange key pair's draw, the current
nonce, which QUOTE records, and its key store, the same on both service dies. -/
structure Realm where
  active : Bool := false
  memKey : Nat := 0
  exchange : Nat := 0
  nonce : List Byte := []
  store : Table (Option KeyEntry) := []
  deriving DecidableEq, Repr

/-- A running SCRUB (R537, R538): the range and the two selections. -/
structure ScrubJob where
  start : Nat
  len : Nat
  newFlag : Bool
  newSlot : Nat
  oldFlag : Bool
  oldSlot : Nat
  deriving DecidableEq, Repr

/-- One engine of a service die (R494, R495): the channel it serves, the quantum in effect for it, the bytes of it that are taken, and the channel
served last (255, which is none, until one is). -/
structure SvcEngine where
  channel : Option Nat := none
  quantum : Nat := 0
  used : Nat := 0
  last : Nat := 255
  deriving DecidableEq, Repr

/-- A realm command that has begun and waits for lines of memory that open transactions hold (R402, R532), with what its
argument registers held when it was written. -/
inductive RealmTask where
  | quote (realm report nonce : Nat)
  | loadKey (realm blob : Nat)
  deriving DecidableEq, Repr

/-- Everything the service engines and realm control hold. -/
structure SvcState where
  arg0 : U64 := 0
  arg1 : U64 := 0
  arg2 : U64 := 0
  realm : Nat := 0
  status : Byte := 0
  realms : Vector Realm 64 := Vector.replicate 64 {}
  running : Option ScrubJob := none
  busy : Bool := false
  doneStatus : Byte := 0
  todo : Option RealmTask := none
  engines : Vector SvcEngine 10 := Vector.replicate 10 {}
  deriving DecidableEq, Repr

/-- The 512-bit layout of the realm control block as it is read (R530): cmd is written only. -/
def SvcState.block (x : SvcState) : Nat :=
  x.realm % 64 * 2 ^ 96 + x.status.toNat * 2 ^ 120
    + (x.realms.toList.zipIdx.foldl (fun n e => n + b2n e.1.active * 2 ^ e.2) 0) * 2 ^ 256
    + x.arg2.toNat * 2 ^ 320 + x.arg1.toNat * 2 ^ 384 + x.arg0.toNat * 2 ^ 448

end Sys2Proof.Machine
end

