-- ==== Sys2Proof/Machine/StateDev.lean ====
section
/-! DEFINITION. Machine/StateDev.lean: the part of the state that engines, memory, translation and fabric work on, and that every command
of chapters 01 to 11 stays within. -/

namespace Sys2Proof.Machine

/-- What a core access of R746 returns to the core that made it: a value, or an access error. -/
inductive Reply where
  | value (v : U64)
  | accessError
  deriving DecidableEq, Repr

/-- The kinds of reset that reset_request names (R738). -/
inductive ResetKind where
  | warm | cold | mcRestart
  deriving DecidableEq, Repr

/-- An entry of event_log (R677, R697). -/
structure EventEntry where
  time : U64
  detail : Nat
  seq : U64
  kind : Nat
  deriving DecidableEq, Repr

/-- The step-rate windows (R34, R40): where the running window began, its length, where it ends, and a length written since. -/
structure Windows where
  start : U64 := 0
  len : Nat := 1000000
  stop : U64 := 1000000
  next : Option Nat := none
  deriving DecidableEq, Repr

/-- The throttle fractions, of 256, that the power manager has set (R624, R626, R629): the common one, those of rails, keyed by 2 × die
with 1 added for the 1 µs window, and the thermal ones; and the dies throttled at some time in the running step-rate window (R38). -/
structure Throttles where
  common : Nat := 0
  rail : Table Nat := []
  therm : Table Nat := []
  inWindow : Table Bool := []
  deriving DecidableEq, Repr

/-- What the engines, the memory system, translation and the fabric hold, with package time, the values of the dictionary's objects
and their pending copies, the events recorded, what the last core access returned, and a reset that is due. `fresh` is the model's own
counter of free values. -/
structure Dev where
  now : U64 := 0
  fresh : Nat := 0
  obj : Table (Option Nat) := []
  copies : Table (Option Nat) := []
  windows : Windows := {}
  thr : Throttles := {}
  mem : MemState := {}
  xl : XlState := {}
  cmd : CmdState := {}
  svc : SvcState := {}
  shf : ShfState := {}
  relays : Vector Relay 64 := Vector.replicate 64 {}
  fab : FabricState := {}
  eventLog : List EventEntry := []
  eventsOut : List EventEntry := []
  reply : Option Reply := none
  resetDue : Option ResetKind := none
  deriving DecidableEq, Repr

end Sys2Proof.Machine
end

