-- ==== Sys2Proof/Machine/State.lean ====
section
/-! DEFINITION. Machine/State.lean: the state of the block, its reset, and the reasons a command can stop. -/

namespace Sys2Proof.Machine

/-- The state of the block: what its engines hold, the power manager, the management controller with the dictionary's sessions, the root
of trust with what is kept without power, and the queue of the commands that wait. -/
structure State extends Dev where
  pow : PowerState := {}
  mgmt : MgmtState := {}
  boot : BootState := {}
  pending : List Instr := []
  deriving DecidableEq, Repr

/-- The reasons a command faults. None is raised: the spec gives every command of the table an effect. -/
inductive Fault where
  /-- Raised by no command; it stands so that the type has a name. Safe. -/
  | noFault
  deriving DecidableEq, Repr

/-- The reasons a command is refused. -/
inductive Refusal where
  /-- Raised by the dispatcher for a command that has no meaning yet. Safe. -/
  | notModelled (mnemonic : String)
  deriving DecidableEq, Repr

/-- The outcome of a command. -/
abbrev Result := Host.Outcome State Fault Refusal

/-- The machine at the end of step 1 of R709: rails up, every reset released, the boot ROM not yet begun. -/
def State.reset : State := {}

end Sys2Proof.Machine
end

