-- ==== Sys2Proof/Machine/Ops.lean ====
section
/-! DEFINITION. Machine/Ops.lean: the named operations every meaning is written over: time, dictionary objects, little-endian
bytes, events, queues, flags and counters, mills, hubs and caching agents. -/

namespace Sys2Proof.Machine

/-- A command that works on the engines alone: everything else stays as it is. -/
def State.run (s : State) (f : Dev → Dev) : Result := .next { s with toDev := f s.toDev }

/-- The little-endian number of a list of bytes (R14). -/
def leNat : List Byte → Nat
  | [] => 0
  | b :: bs => b.toNat + 256 * leNat bs

/-- The n little-endian bytes of a number (R14). -/
def leBytes : Nat → Nat → List Byte
  | 0, _ => []
  | n + 1, v => BitVec.ofNat 8 v :: leBytes n (v / 256)

/-- A list with the elements from position k replaced by those of another, its length kept. -/
def patch {α : Type} (l : List α) (k : Nat) (new : List α) : List α :=
  l.take k ++ new.take (l.length - k) ++ l.drop (k + new.length)

/-- Bytes off to off + n − 1 of a list, zero past its end. -/
def sliceBytes (l : List Byte) (off n : Nat) : List Byte := ((l.drop off).take n) ++ List.replicate (n - (l.length - off)) 0

/-- The value at a position of a list of bytes read as n little-endian bytes. -/
def fieldAt (l : List Byte) (off n : Nat) : Nat := leNat (sliceBytes l off n)

/-- Package time at the time of a timed event; it never goes back (R43, R553). -/
def Dev.setNow (s : Dev) (t : U64) : Dev := { s with now := if s.now.toNat < t.toNat then t else s.now }

/-- The throttle fraction in force on a die: the largest that applies, never above 240 of 256 (R626, R630). -/
def Throttles.on (t : Throttles) (die : Nat) : Nat :=
  let common := if die < 8 || 14 ≤ die then t.common else 0
  let rail := max (Table.get 0 t.rail (2 * die)) (Table.get 0 t.rail (2 * die + 1))
  min 240 (max common (max rail (Table.get 0 t.therm die)))

/-- Mark the dies that the fractions now in force throttle as throttled in the running window. -/
def Throttles.mark (t : Throttles) : Throttles :=
  { t with inWindow := (List.range 20).foldl (fun w d => if t.on d = 0 then w else Table.set false w d true) t.inWindow }

/-- The throttle fraction in force on a die. -/
def Dev.throttle (s : Dev) (die : Nat) : Nat := s.thr.on die

/-- The power manager sets throttle fractions. -/
def Dev.modThr (s : Dev) (f : Throttles → Throttles) : Dev := { s with thr := (f s.thr).mark }

/-- A fresh number for a free value; the counter moves on. -/
def Dev.freshNat (s : Dev) : Dev × Nat := ({ s with fresh := s.fresh + 1 }, s.fresh)

/-- The value of a scalar dictionary object: what has been set, else its default (R685). -/
def Dev.obj! (s : Dev) (addr : Nat) : Nat := (Table.get none s.obj addr).getD (objDefault addr)

/-- Set a scalar dictionary object. -/
def Dev.setObj (s : Dev) (addr v : Nat) : Dev :=
  { s with obj := Table.set none s.obj addr (if v = objDefault addr then none else some v) }

/-- The value of object ss:idx.sub. -/
def Dev.objAt (s : Dev) (ss idx sub : Nat) : Nat := s.obj! (objAddr ss idx sub)

/-- Set object ss:idx.sub. -/
def Dev.setObjAt (s : Dev) (ss idx sub v : Nat) : Dev := s.setObj (objAddr ss idx sub) v

/-- Add to a 64-bit counter object, modulo 2^64 (R217, R428 and the other chapters' counter rules). -/
def Dev.bump (s : Dev) (ss idx sub n : Nat) : Dev := s.setObjAt ss idx sub ((s.objAt ss idx sub + n) % 2 ^ 64)

/-- Record an event: the next event sequence, an entry at the front of event_log, and an EVENT datagram to send (R677). -/
def Dev.event (s : Dev) (kind detail : Nat) : Dev :=
  let seq := (s.objAt 0x0C 0x120 0 + 1) % 2 ^ 64
  let e : EventEntry := { time := s.now, detail := detail, seq := BitVec.ofNat 64 seq, kind := kind }
  let s := s.setObjAt 0x0C 0x120 0 seq
  { s with eventLog := (e :: s.eventLog).take 64, eventsOut := s.eventsOut ++ [e] }

/-- A command queue. -/
def Dev.queue (s : Dev) (q : QueueId) : Queue := Table.get {} s.cmd.queues q.val

/-- Put a command queue. -/
def Dev.setQueue (s : Dev) (q : QueueId) (x : Queue) : Dev :=
  { s with cmd := { s.cmd with queues := Table.set {} s.cmd.queues q.val x } }

/-- Change a command queue. -/
def Dev.modQueue (s : Dev) (q : QueueId) (f : Queue → Queue) : Dev := s.setQueue q (f (s.queue q))

/-- The home die of a command queue (R102). -/
def homeDie (q : QueueId) : Die :=
  if q.val < 1536 then ⟨q.val / 192 % 20, Nat.mod_lt _ (by decide)⟩
  else if q.val < 1664 then 18 else if q.val < 1792 then 19
  else ⟨(14 + (q.val - 1792) / 64) % 20, Nat.mod_lt _ (by decide)⟩

/-- The class R102 gives a queue's number: 1 compute, 2 service, 3 collective. -/
def queueClass (q : QueueId) : Nat := if q.val < 1536 then 1 else if q.val < 1792 then 2 else 3

/-- The operation of a journal slot, if one is issued. -/
def Dev.op (s : Dev) (slot : SlotId) : Option Operation := s.cmd.ops.find? (fun o => o.slot = slot)

/-- Change the operation of a journal slot. -/
def Dev.modOp (s : Dev) (slot : SlotId) (f : Operation → Operation) : Dev :=
  { s with cmd := { s.cmd with ops := s.cmd.ops.map (fun o => if o.slot = slot then f o else o) } }

/-- A mill with its thresher and chain engine. -/
def Dev.mill (s : Dev) (m : MillId) : Mill := s.cmd.mills[m]

/-- Put a mill. -/
def Dev.setMill (s : Dev) (m : MillId) (x : Mill) : Dev := { s with cmd := { s.cmd with mills := s.cmd.mills.set m x m.isLt } }

/-- Change a mill. -/
def Dev.modMill (s : Dev) (m : MillId) (f : Mill → Mill) : Dev := s.setMill m (f (s.mill m))

/-- The die of a mill. -/
def millDie (m : MillId) : Die := ⟨m.val / 12, by omega⟩

/-- Flag i of a die (R139). -/
def Dev.flag (s : Dev) (d i : Nat) : Bool := Table.get false s.cmd.flags (d * 512 + i)
/-- Set or clear a flag. -/
def Dev.setFlag (s : Dev) (d i : Nat) (v : Bool) : Dev :=
  { s with cmd := { s.cmd with flags := Table.set false s.cmd.flags (d * 512 + i) v } }
/-- Counter i of a die (R139). -/
def Dev.counter (s : Dev) (d i : Nat) : U32 := Table.get 0 s.cmd.counters (d * 128 + i)
/-- Set a die counter. -/
def Dev.setCounter (s : Dev) (d i : Nat) (v : U32) : Dev :=
  { s with cmd := { s.cmd with counters := Table.set 0 s.cmd.counters (d * 128 + i) v } }
/-- Package counter c (R139). -/
def Dev.pcounter (s : Dev) (c : Nat) : U32 := Table.get 0 s.cmd.pcounters c
/-- Set a package counter. -/
def Dev.setPcounter (s : Dev) (c : Nat) (v : U32) : Dev :=
  { s with cmd := { s.cmd with pcounters := Table.set 0 s.cmd.pcounters c v } }

/-- Change the journal. -/
def Dev.modJournal (s : Dev) (f : Journal → Journal) : Dev := { s with cmd := { s.cmd with journal := f s.cmd.journal } }

/-- A hub. -/
def Dev.hub (s : Dev) (h : HubId) : Hub := s.mem.hubs[h]
/-- Put a hub. -/
def Dev.setHub (s : Dev) (h : HubId) (x : Hub) : Dev := { s with mem := { s.mem with hubs := s.mem.hubs.set h x h.isLt } }
/-- Change a hub. -/
def Dev.modHub (s : Dev) (h : HubId) (f : Hub → Hub) : Dev := s.setHub h (f (s.hub h))
/-- A caching agent. -/
def Dev.agent (s : Dev) (a : Agent) : CacheAgent := s.mem.agents[a]
/-- Put a caching agent. -/
def Dev.setAgent (s : Dev) (a : Agent) (x : CacheAgent) : Dev :=
  { s with mem := { s.mem with agents := s.mem.agents.set a x a.isLt } }
/-- Change a caching agent. -/
def Dev.modAgent (s : Dev) (a : Agent) (f : CacheAgent → CacheAgent) : Dev := s.setAgent a (f (s.agent a))
/-- A system MMU. -/
def Dev.mmu (s : Dev) (m : MmuId) : Mmu := s.xl.mmus[m]
/-- Put a system MMU. -/
def Dev.setMmu (s : Dev) (m : MmuId) (x : Mmu) : Dev := { s with xl := { s.xl with mmus := s.xl.mmus.set m x m.isLt } }
/-- Change a system MMU. -/
def Dev.modMmu (s : Dev) (m : MmuId) (f : Mmu → Mmu) : Dev := s.setMmu m (f (s.mmu m))
/-- A realm. -/
def Dev.realmAt (s : Dev) (r : Nat) : Realm := s.svc.realms.getD r {}
/-- Change a realm. -/
def Dev.modRealm (s : Dev) (r : Nat) (f : Realm → Realm) : Dev :=
  { s with svc := { s.svc with realms := s.svc.realms.mapIdx (fun i x => if i = r then f x else x) } }
/-- Change the memory system. -/
def Dev.modMem (s : Dev) (f : MemState → MemState) : Dev := { s with mem := f s.mem }
/-- Change translation. -/
def Dev.modXl (s : Dev) (f : XlState → XlState) : Dev := { s with xl := f s.xl }

/-- The system MMU that serves a die (R432). -/
def mmuOf (d : Die) : MmuId :=
  if d.val < 4 || d.val = 8 || d.val = 10 || d.val = 11 || d.val = 14 || d.val = 15 || d.val = 18 then 0 else 1

/-- Whether die n is in service (R686). -/
def Dev.inService (s : Dev) (d : Nat) : Bool := bit (s.objAt 0 6 0) d

/-- The first element of a list that satisfies p taken out, if there is one. -/
def removeFirst {α : Type} (p : α → Bool) : List α → List α
  | [] => []
  | x :: xs => if p x then xs else x :: removeFirst p xs

/-- The next stamp of the use order of caches. -/
def Dev.stamp (s : Dev) : Dev × Nat := (s.modMem (fun x => { x with useTick := x.useTick + 1 }), s.mem.useTick + 1)

end Sys2Proof.Machine
end

