-- ==== Sys2Proof/Machine/Crypto.lean ====
section
/-! DEFINITION. Machine/Crypto.lean: SHA-256, SHA-384, HMAC, HKDF, AES-256-GCM and AES-256-XTS as their standards define them (FIPS
180-4, FIPS 197, FIPS 198-1, RFC 5869, SP 800-38D, IEEE 1619): what R183, R500, R509, R522, R523, R534, R664 to R667 and the other rules name them for. -/

namespace Sys2Proof.Machine

/-- The big-endian number of a list of bytes. -/
def beNat (l : List Byte) : Nat := l.foldl (fun n b => n * 256 + b.toNat) 0

/-- The n big-endian bytes of a number. -/
def beBytes (n v : Nat) : List Byte := (leBytes n v).reverse

/-- The first primes, so many of them. -/
def firstPrimes (n : Nat) : List Nat := ((List.range 420).filter (fun p => 2 ≤ p && (List.range 20).all (fun d => d < 2 || p ≤ d || p % d ≠ 0))).take n

/-- The largest number below 2^n whose e-th power is at most x, bit by bit from the top. -/
def rootBits (e x : Nat) : Nat → Nat → Nat
  | 0, r => r
  | n + 1, r => rootBits e x n (if (r + 2 ^ n) ^ e ≤ x then r + 2 ^ n else r)

/-- The first w bits of the fractional part of the e-th root of p: FIPS 180-4 takes its constants from square and cube roots of primes. -/
def rootFraction (w e p : Nat) : Nat := rootBits e (p * 2 ^ (e * w)) (w + 5) 0 % 2 ^ w

/-- A hash of FIPS 180-4: its word width, its number of rounds, the amounts of its upper-case sigmas (three rotations) and of its lower-case
sigmas (two rotations and a shift), the round constants, the initial value and the bytes of a digest. -/
structure Sha2 where
  width : Nat
  rounds : Nat
  up : List Nat × List Nat
  low : List Nat × List Nat
  consts : List Nat
  start : List Nat
  bytes : Nat
  deriving DecidableEq, Repr

/-- SHA-256. -/
def sha2of256 : Sha2 where
  width := 32
  rounds := 64
  up := ([2, 13, 22], [6, 11, 25])
  low := ([7, 18, 3], [17, 19, 10])
  consts := (firstPrimes 64).map (rootFraction 32 3)
  start := (firstPrimes 8).map (rootFraction 32 2)
  bytes := 32

/-- SHA-384. -/
def sha2of384 : Sha2 where
  width := 64
  rounds := 80
  up := ([28, 34, 39], [14, 18, 41])
  low := ([1, 8, 7], [19, 61, 6])
  consts := (firstPrimes 80).map (rootFraction 64 3)
  start := ((firstPrimes 16).drop 8).map (rootFraction 64 2)
  bytes := 48

/-- A w-bit word turned right by n places: the word written twice, read n places up. -/
def turned (w x n : Nat) : Nat := (x + x * 2 ^ w) / 2 ^ n % 2 ^ w

/-- An upper-case sigma. -/
def Sha2.upper (h : Sha2) (r : List Nat) (x : Nat) : Nat := (r.map (turned h.width x)).foldl Nat.xor 0

/-- A lower-case sigma: its last amount is a shift. -/
def Sha2.lower (h : Sha2) (r : List Nat) (x : Nat) : Nat := Nat.xor (h.upper (r.take 2) x) (x / 2 ^ r.getD 2 0)

/-- The word of the schedule that follows a window of sixteen, oldest first. -/
def Sha2.nextWord (h : Sha2) (win : List Nat) : Nat :=
  ([h.lower h.low.2 (win.getD 14 0), win.getD 9 0, h.lower h.low.1 (win.getD 1 0), win.getD 0 0].foldl (· + ·) 0) % 2 ^ h.width

/-- Where two words choose by a third, and the majority of three. -/
def choose3 (x y z : Nat) : Nat := Nat.xor z (Nat.land x (Nat.xor y z))
def major3 (x y z : Nat) : Nat := Nat.lor (Nat.land x y) (Nat.land z (Nat.lor x y))

/-- A round on the eight working words a to h: all move down by one, with a sum joined to the word that enters e and another entering a. -/
def Sha2.round (h : Sha2) (v : List Nat) (kw : Nat) : List Nat :=
  let at_ (i : Nat) : Nat := v.getD i 0
  let sum := at_ 7 + h.upper h.up.2 (at_ 4) + choose3 (at_ 4) (at_ 5) (at_ 6) + kw
  let top := sum + h.upper h.up.1 (at_ 0) + major3 (at_ 0) (at_ 1) (at_ 2)
  ((top :: v.take 7).mapIdx (fun i x => if i = 4 then x + sum else x)).map (· % 2 ^ h.width)

/-- The rounds of a block: each takes its constant and the oldest word of the window, which moves on. -/
def Sha2.run (h : Sha2) : List Nat → List Nat → List Nat → List Nat
  | [], _, v => v
  | k :: ks, win, v => h.run ks (win.drop 1 ++ [h.nextWord win]) (h.round v (k + win.headD 0))

/-- A block joins a hash value. -/
def Sha2.absorb (h : Sha2) (v : List Nat) (block : List Byte) : List Nat :=
  let n := h.width / 8
  let win := (List.range 16).map (fun i => beNat (sliceBytes block (n * i) n))
  (v.zip (h.run h.consts win v)).map (fun e => (e.1 + e.2) % 2 ^ h.width)

/-- A message with the bit that ends it, zeros, and its length in bits, to whole blocks of 2 × width bytes. -/
def Sha2.padded (h : Sha2) (l : List Byte) : List Byte :=
  let size := 2 * h.width
  let whole := (l.length + h.width / 4) / size + 1
  patch (patch (l ++ List.replicate (whole * size - l.length) 0) l.length [0x80])
    (whole * size - h.width / 4) (beBytes (h.width / 4) (8 * l.length))

/-- The digest of a message. -/
def Sha2.digest (h : Sha2) (l : List Byte) : List Byte :=
  let m := h.padded l
  let size := 2 * h.width
  (((List.range (m.length / size)).foldl (fun v i => h.absorb v (sliceBytes m (size * i) size)) h.start).flatMap (beBytes (h.width / 8))).take h.bytes

/-- SHA-256 of a list of bytes. -/
def sha256 (l : List Byte) : List Byte := sha2of256.digest l

/-- SHA-384 of a list of bytes. -/
def sha384 (l : List Byte) : List Byte := sha2of384.digest l

/-- HMAC over SHA-384 (FIPS 198-1): its block is 128 bytes. -/
def hmac384 (key msg : List Byte) : List Byte :=
  let k := if 128 < key.length then sha384 key else key
  let k := k ++ List.replicate (128 - k.length) 0
  sha384 (k.map (· ^^^ 0x5C) ++ sha384 (k.map (· ^^^ 0x36) ++ msg))

/-- HKDF-Extract with SHA-384 (RFC 5869). -/
def hkdfExtract (salt ikm : List Byte) : List Byte := hmac384 (if salt.isEmpty then List.replicate 48 0 else salt) ikm

/-- The blocks T(i) of HKDF-Expand. -/
def hkdfBlocks (prk info : List Byte) : Nat → Nat → List Byte → List Byte
  | 0, _, _ => []
  | n + 1, i, prev =>
    let t := hmac384 prk (prev ++ info ++ [BitVec.ofNat 8 i])
    t ++ hkdfBlocks prk info n (i + 1) t

/-- HKDF-Expand with SHA-384 to n bytes (RFC 5869). -/
def hkdfExpand (prk info : List Byte) (n : Nat) : List Byte := (hkdfBlocks prk info ((n + 47) / 48) 1 []).take n

/-- Doubling in the field of AES (FIPS 197). -/
def xtime (x : Nat) : Nat := let y := 2 * x; if 256 ≤ y then Nat.xor y 0x11B else y

/-- The product in the field of AES. -/
def gmul (a b : Nat) : Nat := ((List.range 8).foldl (fun (acc : Nat × Nat) i =>
  (if bit b i then Nat.xor acc.1 acc.2 else acc.1, xtime acc.2)) (0, a)).1

/-- The inverse in the field of AES, 0 for 0: the 254th power. -/
def ginv (a : Nat) : Nat :=
  let sq (x : Nat) : Nat := gmul x x
  let a2 := sq a
  let a4 := sq a2
  let a8 := sq a4
  let a16 := sq a8
  let a32 := sq a16
  let a64 := sq a32
  gmul (gmul (gmul a2 a4) (gmul a8 a16)) (gmul (gmul a32 a64) (sq a64))

/-- Left rotation of a byte. -/
def rotl8 (x n : Nat) : Nat := Nat.lor ((x <<< n) % 256) (x >>> (8 - n))

/-- The substitution of AES. -/
def sbox (x : Nat) : Nat :=
  let b := ginv x
  Nat.xor (Nat.xor (Nat.xor b (rotl8 b 1)) (Nat.xor (rotl8 b 2) (rotl8 b 3))) (Nat.xor (rotl8 b 4) 0x63)

/-- The words of an AES-256 key schedule, newest first, extended by n words. -/
def aesSchedule : Nat → Nat → List (List Nat) → List (List Nat)
  | 0, _, l => l
  | n + 1, i, l =>
    let prev := l.headD []
    let t :=
      if i % 8 = 0 then
        match (prev.drop 1 ++ prev.take 1).map sbox with
        | a :: r => Nat.xor a (2 ^ (i / 8 - 1)) :: r
        | [] => []
      else if i % 8 = 4 then prev.map sbox else prev
    aesSchedule n (i + 1) (List.zipWith Nat.xor (l.getD 7 []) t :: l)

/-- The 15 round keys of a 32-byte key. -/
def aesKeys (key : List Byte) : List (List Nat) :=
  let k := key.map BitVec.toNat
  let w := (aesSchedule 52 8 ((List.range 8).map (fun i => (k.drop (4 * i)).take 4)).reverse).reverse
  (List.range 15).map (fun r => ((w.drop (4 * r)).take 4).flatten)

/-- ShiftRows on a column-ordered state. -/
def shiftRows (s : List Nat) : List Nat := (List.range 16).map (fun i => s.getD ((i + 4 * (i % 4)) % 16) 0)

/-- MixColumns. -/
def mixColumns (s : List Nat) : List Nat :=
  (List.range 16).map (fun i =>
    let c := 4 * (i / 4)
    let g (j : Nat) : Nat := s.getD (c + (i + j) % 4) 0
    Nat.xor (Nat.xor (gmul (g 0) 2) (gmul (g 1) 3)) (Nat.xor (g 2) (g 3)))

/-- AES-256 of a 16-byte block under its round keys. -/
def aesBlock (ks : List (List Nat)) (b : List Nat) : List Nat :=
  let add (s : List Nat) (r : Nat) : List Nat := List.zipWith Nat.xor s (ks.getD r [])
  let s := (List.range 13).foldl (fun s r => add (mixColumns (shiftRows (s.map sbox))) (r + 1)) (add b 0)
  add (shiftRows (s.map sbox)) 14

/-- The inverse of the substitution. -/
def sboxInv (x : Nat) : Nat :=
  ginv (Nat.xor (Nat.xor (rotl8 x 1) (rotl8 x 3)) (Nat.xor (rotl8 x 6) 0x05))

/-- The inverse of ShiftRows. -/
def unshiftRows (s : List Nat) : List Nat := (List.range 16).map (fun i => s.getD ((i + 12 * (i % 4)) % 16) 0)

/-- The inverse of MixColumns. -/
def unmixColumns (s : List Nat) : List Nat :=
  (List.range 16).map (fun i =>
    let g (j : Nat) : Nat := s.getD (4 * (i / 4) + (i + j) % 4) 0
    Nat.xor (Nat.xor (gmul (g 0) 14) (gmul (g 1) 11)) (Nat.xor (gmul (g 2) 13) (gmul (g 3) 9)))

/-- AES-256 decryption of a 16-byte block under its round keys. -/
def aesUnblock (ks : List (List Nat)) (b : List Nat) : List Nat :=
  let add (s : List Nat) (r : Nat) : List Nat := List.zipWith Nat.xor s (ks.getD r [])
  let s := (List.range 13).foldl (fun s r => unmixColumns (add ((unshiftRows s).map sboxInv) (13 - r))) (add b 14)
  add ((unshiftRows s).map sboxInv) 0

/-- The tweak of the next block of a data unit (IEEE 1619): times α, the first byte the lowest. -/
def xtsNext (t : Nat) : Nat := Nat.xor (2 * t % 2 ^ 128) (if t / 2 ^ 127 = 1 then 0x87 else 0)

/-- AES-256-XTS over whole blocks under a 64-byte key, each block by a function of the first half (IEEE 1619, R523). -/
def xtsWith (f : List (List Nat) → List Nat → List Nat) (key : List Byte) (unit : Nat) (data : List Byte) : List Byte :=
  let k1 := aesKeys (key.take 32)
  let t0 := leNat ((aesBlock (aesKeys (key.drop 32)) ((leBytes 16 unit).map BitVec.toNat)).map (BitVec.ofNat 8))
  ((List.range (data.length / 16)).foldl (fun (acc : Nat × List Byte) i =>
    let mask := (leBytes 16 acc.1).map BitVec.toNat
    let x := List.zipWith Nat.xor ((sliceBytes data (16 * i) 16).map BitVec.toNat) mask
    (xtsNext acc.1, acc.2 ++ (List.zipWith Nat.xor (f k1 x) mask).map (BitVec.ofNat 8))) (t0, [])).2

/-- AES-256-XTS encryption and decryption of a data unit. -/
def xtsSeal (key : List Byte) (unit : Nat) (data : List Byte) : List Byte := xtsWith aesBlock key unit data
def xtsOpen (key : List Byte) (unit : Nat) (data : List Byte) : List Byte := xtsWith aesUnblock key unit data

/-- The product in GF(2^128) of GCM, on big-endian block numbers whose leftmost bit is bit 0 (SP 800-38D). -/
def ghashMul (x y : Nat) : Nat := ((List.range 128).foldl (fun (acc : Nat × Nat) i =>
  (if bit x (127 - i) then Nat.xor acc.1 acc.2 else acc.1,
   if acc.2 % 2 = 1 then Nat.xor (acc.2 / 2) (0xE1 * 2 ^ 120) else acc.2 / 2)) (0, y)).1

/-- A list of bytes with zeros to a multiple of 16. -/
def pad16 (l : List Byte) : List Byte := l ++ List.replicate ((16 - l.length % 16) % 16) 0

/-- GHASH of a list of whole blocks. -/
def ghash (h : Nat) : Nat → Nat → List Byte → Nat
  | 0, y, _ => y
  | n + 1, y, l => if l.isEmpty then y else ghash h n (ghashMul (Nat.xor y (beNat (l.take 16))) h) (l.drop 16)

/-- The counter stream of GCM: n bytes from a block number on. -/
def gcmStream (ks : List (List Nat)) (iv : List Byte) (first n : Nat) : List Byte :=
  ((List.range ((n + 15) / 16)).flatMap (fun i =>
    (aesBlock ks ((iv.take 12 ++ beBytes 4 (first + i)).map BitVec.toNat)).map (BitVec.ofNat 8))).take n

/-- The tag of GCM over its associated data and ciphertext, for a 12-byte initial value. -/
def gcmTag (ks : List (List Nat)) (iv aad ct : List Byte) : List Byte :=
  let h := beNat ((aesBlock ks (List.replicate 16 0)).map (BitVec.ofNat 8))
  let m := pad16 aad ++ pad16 ct ++ beBytes 8 (8 * aad.length) ++ beBytes 8 (8 * ct.length)
  beBytes 16 (Nat.xor (ghash h (m.length / 16 + 1) 0 m) (beNat (gcmStream ks iv 1 16)))

/-- AES-256-GCM encryption: the ciphertext and its 16-byte tag. -/
def gcmSeal (key iv aad pt : List Byte) : List Byte × List Byte :=
  let ks := aesKeys key
  let ct := List.zipWith (· ^^^ ·) pt (gcmStream ks iv 2 pt.length)
  (ct, gcmTag ks iv aad ct)

/-- AES-256-GCM decryption: the plaintext, if the tag is right. -/
def gcmOpen (key iv aad ct tag : List Byte) : Option (List Byte) :=
  let ks := aesKeys key
  if gcmTag ks iv aad ct = tag then some (List.zipWith (· ^^^ ·) ct (gcmStream ks iv 2 ct.length)) else none

/-- CRC-32C, with the polynomial of R543. -/
def crc32c (l : List Byte) : Nat :=
  let step (c : Nat) (_ : Nat) : Nat := if c % 2 = 1 then Nat.xor (c / 2) 0x82F63B78 else c / 2
  Nat.xor (l.foldl (fun c b => (List.range 8).foldl step (Nat.xor c b.toNat)) 0xFFFFFFFF) 0xFFFFFFFF

end Sys2Proof.Machine
end

