-- ==== Sys2Proof/Machine/Curve.lean ====
section
/-! DEFINITION. Machine/Curve.lean: the curve P-384, key agreement and ECDSA over it (R534, R662, R664, R665, R699, R702; FIPS 186-5 and
SP 800-186). -/

namespace Sys2Proof.Machine

/-- The field of P-384. -/
def p384Prime : Nat := 2 ^ 384 - 2 ^ 128 - 2 ^ 96 + 2 ^ 32 - 1

/-- The order of P-384. -/
def p384Order : Nat :=
  0xFFFFFFFFFFFFFFFFFFFFFFFFFFFFFFFFFFFFFFFFFFFFFFFFC7634D81F4372DDF581A0DB248B0A77AECEC196ACCC52973

/-- The coefficient b of P-384; a is −3. -/
def p384B : Nat :=
  0xB3312FA7E23EE7E4988E056BE3F82D19181D9C6EFE8141120314088F5013875AC656398D8A2ED19D2A85C8EDD3EC2AEF

/-- A point of the curve: none is the point at infinity. -/
abbrev CurvePoint := Option (Nat × Nat)

/-- The base point of P-384. -/
def p384Base : CurvePoint := some (
  0xAA87CA22BE8B05378EB1C71EF320AD746E1D3B628BA79B9859F741E082542A385502F25DBF55296C3A545E3872760AB7,
  0x3617DE4A96262C6F5D9E98BF9292DC29F8F41DBD289A147CE9DA3113B5F0B8C00A60B1CE1D7E819D7A431D7C90EA0E5F)

/-- A power modulo m, over the low bits of the exponent. -/
def powMod (m : Nat) : Nat → Nat → Nat → Nat
  | 0, _, _ => 1 % m
  | n + 1, b, e => (if e % 2 = 1 then b else 1) * powMod m n (b * b % m) (e / 2) % m

/-- An inverse modulo a prime below 2^384: the power p − 2. -/
def invMod (p x : Nat) : Nat := powMod p 384 (x % p) (p - 2)

/-- The third point of a line of slope s through a point, mirrored. -/
def chordSum (s : Nat) (a b : Nat × Nat) : CurvePoint :=
  let p := p384Prime
  let x := (s * s + 2 * p - a.1 - b.1) % p
  some (x, (s * (a.1 + p - x) + p - a.2) % p)

/-- The sum of two points. -/
def pointAdd : CurvePoint → CurvePoint → CurvePoint
  | none, b => b
  | a, none => a
  | some a, some b =>
    let p := p384Prime
    if a.1 ≠ b.1 then chordSum ((b.2 + p - a.2) * invMod p (b.1 + p - a.1) % p) a b
    else if a.2 ≠ b.2 || a.2 = 0 then none
    else chordSum ((3 * a.1 * a.1 + p - 3) * invMod p (2 * a.2) % p) a a

/-- A multiple of a point, by the low bits of the multiplier. -/
def pointMul : Nat → Nat → CurvePoint → CurvePoint
  | 0, _, _ => none
  | n + 1, k, a => pointAdd (if k % 2 = 1 then a else none) (pointMul n (k / 2) (pointAdd a a))

/-- A public key, x then y, as the 96 bytes that carry it (R534, R662, R705). -/
def pointBytes (a : CurvePoint) : List Byte := beBytes 48 ((a.map Prod.fst).getD 0) ++ beBytes 48 ((a.map Prod.snd).getD 0)

/-- The point that 96 bytes carry, if it is one of the curve (R534). -/
def pointOf (b : List Byte) : CurvePoint :=
  let p := p384Prime
  let x := beNat (b.take 48)
  let y := beNat (b.drop 48)
  if b.length = 96 && x < p && y < p && y * y % p = (x * x * x + (p - 3) * x + p384B) % p then some (x, y) else none

/-- Whether 96 bytes are a valid P-384 point (R534). -/
def p384Valid (b : List Byte) : Bool := (pointOf b).isSome

/-- The public key of a private key (R534, R665, R699). -/
def p384Public (priv : Nat) : List Byte := pointBytes (pointMul 384 priv p384Base)

/-- The 48-byte x-coordinate of a key agreement (R534, R665). -/
def p384Ecdh (priv : Nat) (peer : List Byte) : List Byte :=
  beBytes 48 (((pointMul 384 priv (pointOf peer)).map Prod.fst).getD 0)

/-- An ECDSA signature of a SHA-384 digest, r then s (R664, R702, R723). The number drawn for it is left open (log entry 8). -/
def ecdsaSign (priv : Nat) (digest : List Byte) : List Byte :=
  let n := p384Order
  let k := Config.ecdsaNonce priv digest % (n - 1) + 1
  let r := ((pointMul 384 k p384Base).map Prod.fst).getD 0 % n
  beBytes 48 r ++ beBytes 48 (invMod n k * (beNat digest + r * priv) % n)

/-- Whether an ECDSA signature of a SHA-384 digest verifies under a public key (R662, R664, R702). -/
def ecdsaVerify (pub digest sig : List Byte) : Bool :=
  let n := p384Order
  let r := beNat (sig.take 48)
  let s := beNat (sig.drop 48)
  if sig.length ≠ 96 || !p384Valid pub || r = 0 || n ≤ r || s = 0 || n ≤ s then false
  else
    let w := invMod n s
    match pointAdd (pointMul 384 (beNat digest * w % n) p384Base) (pointMul 384 (r * w % n) (pointOf pub)) with
    | some x => x.1 % n = r
    | none => false

end Sys2Proof.Machine
end

