-- ==== Sys2Proof/Machine/Hss.lean ====
section
/-! DEFINITION. Machine/Hss.lean: LM-OTS, LMS and HSS signatures over SHA-256 (R702, R723, R724; RFC 8554). -/

namespace Sys2Proof.Machine

/-- A hash of LMS: the tree's identifier, a number, a 16-bit code, and what follows (RFC 8554). -/
def lmsHash (id : List Byte) (n code : Nat) (rest : List Byte) : List Byte := sha256 (id ++ beBytes 4 n ++ beBytes 2 code ++ rest)

/-- The parameters of an LM-OTS type code: the width w, the chains p, and the checksum's shift. -/
def otsParams : Nat → Option (Nat × Nat × Nat)
  | 1 => some (1, 265, 7)
  | 2 => some (2, 133, 6)
  | 3 => some (4, 67, 4)
  | 4 => some (8, 34, 0)
  | _ => none

/-- The height of an LMS type code. -/
def lmsHeight (t : Nat) : Option Nat := if 5 ≤ t && t ≤ 9 then some (5 * (t - 4)) else none

/-- The i-th w-bit field of a number of n bits, from its top. -/
def topField (w n v i : Nat) : Nat := v / 2 ^ (n - w * (i + 1)) % 2 ^ w

/-- The chain lengths of a 32-byte hash with its checksum. -/
def otsCoefs (w p ls : Nat) (q : List Byte) : List Nat :=
  let v := beNat q
  let u := 256 / w
  let sum := ((List.range u).map (fun i => 2 ^ w - 1 - topField w 256 v i)).foldl (· + ·) 0
  (List.range p).map (fun i => topField w 272 (v * 2 ^ 16 + sum * 2 ^ ls % 2 ^ 16) i)

/-- n steps of chain i of a one-time key, from step j on. -/
def otsChain (id : List Byte) (q i : Nat) : Nat → Nat → List Byte → List Byte
  | 0, _, x => x
  | n + 1, j, x => otsChain id q i n (j + 1) (lmsHash id q i (beBytes 1 j ++ x))

/-- The hash of a message that a one-time key signs. -/
def otsDigest (id : List Byte) (q : Nat) (c msg : List Byte) : List Byte := lmsHash id q 0x8181 (c ++ msg)

/-- The hash of a one-time public key, from the ends of its chains. -/
def otsPublic (id : List Byte) (q : Nat) (ends : List (List Byte)) : List Byte := lmsHash id q 0x8080 ends.flatten

/-- A tree of the device LMS key (R724): level 0, 1 or 2, and its place in the level. -/
structure LmsTree where
  seed : List Byte
  level : Nat
  index : Nat
  deriving DecidableEq, Repr

/-- The LM-OTS type of a level: W8 at the top and middle, W4 at the bottom (R724). -/
def LmsTree.ots (t : LmsTree) : Nat := if t.level = 2 then 3 else 4

/-- A tree's identifier and its private chain starts, which the seed gives in a way R699 leaves open (log entry 8). -/
def LmsTree.id (t : LmsTree) : List Byte := sliceBytes (Config.lmsId t.seed t.level t.index) 0 16
def LmsTree.start (t : LmsTree) (q i : Nat) : List Byte := sliceBytes (Config.otsKey t.seed t.level t.index q i) 0 32

/-- The chain ends of a tree's one-time key after so many steps of each chain. -/
def LmsTree.chains (t : LmsTree) (q : Nat) (steps : List Nat) : List (List Byte) :=
  steps.zipIdx.map (fun n => otsChain t.id q n.2 n.1 0 (t.start q n.2))

/-- A node of a tree of height 10, so many levels above the leaves. -/
def LmsTree.node (t : LmsTree) : Nat → Nat → List Byte
  | 0, r =>
    let (w, p, _) := (otsParams t.ots).getD (8, 34, 0)
    lmsHash t.id r 0x8282 (otsPublic t.id (r - 1024) (t.chains (r - 1024) (List.replicate p (2 ^ w - 1))))
  | k + 1, r => lmsHash t.id r 0x8383 (t.node k (2 * r) ++ t.node k (2 * r + 1))

/-- A tree's public key: LMS_SHA256_M32_H10 (R724). -/
def LmsTree.public_ (t : LmsTree) : List Byte := beBytes 4 6 ++ beBytes 4 t.ots ++ t.id ++ t.node 10 1

/-- A message signed by leaf q of a tree. -/
def LmsTree.sign (t : LmsTree) (q : Nat) (msg : List Byte) : List Byte :=
  let (w, p, ls) := (otsParams t.ots).getD (8, 34, 0)
  let c := sliceBytes (Config.otsRandom t.seed t.level t.index q msg) 0 32
  beBytes 4 q ++ beBytes 4 t.ots ++ c ++ (t.chains q (otsCoefs w p ls (otsDigest t.id q c msg))).flatten ++ beBytes 4 6
    ++ (List.range 10).flatMap (fun k => t.node k (Nat.xor ((1024 + q) / 2 ^ k) 1))

/-- An HSS signature by leaf `leaf` of bottom tree b: of the bottom tree's key by leaf b mod 1,024 of its middle tree, and of that by the top
tree (R723, R724). -/
def hssSign (seed : List Byte) (b leaf : Nat) (msg : List Byte) : List Byte :=
  let top : LmsTree := ⟨seed, 0, 0⟩
  let mid : LmsTree := ⟨seed, 1, b / 1024⟩
  let bottom : LmsTree := ⟨seed, 2, b⟩
  beBytes 4 2 ++ top.sign (b / 1024) mid.public_ ++ mid.public_ ++ mid.sign (b % 1024) bottom.public_ ++ bottom.public_ ++ bottom.sign leaf msg

/-- The root that a leaf's hash and its path give. -/
def lmsRoot (id : List Byte) : Nat → List Byte → List (List Byte) → List Byte
  | _, x, [] => x
  | r, x, y :: ys => lmsRoot id (r / 2) (lmsHash id (r / 2) 0x8383 (if r % 2 = 1 then y ++ x else x ++ y)) ys

/-- The bytes that an LMS signature of a message takes at the front of some, if it verifies under a public key of 56 bytes. -/
def lmsVerify (pub msg sig : List Byte) : Option Nat :=
  let word (l : List Byte) (off : Nat) : Nat := beNat (sliceBytes l off 4)
  match lmsHeight (word pub 0), otsParams (word pub 4) with
  | some h, some (w, p, ls) =>
    let id := sliceBytes pub 8 16
    let q := word sig 0
    let n := 44 + 32 * p + 32 * h
    let x := (otsCoefs w p ls (otsDigest id q (sliceBytes sig 8 32) msg)).zipIdx.map (fun a =>
      otsChain id q a.2 (2 ^ w - 1 - a.1) a.1 (sliceBytes sig (40 + 32 * a.2) 32))
    let leaf := lmsHash id (2 ^ h + q) 0x8282 (otsPublic id q x)
    let path := (List.range h).map (fun k => sliceBytes sig (44 + 32 * p + 32 * k) 32)
    if sig.length < n || 2 ^ h ≤ q || word sig 4 ≠ word pub 4 || word sig (40 + 32 * p) ≠ word pub 0 then none
    else if lmsRoot id (2 ^ h + q) leaf path = sliceBytes pub 24 32 then some n else none
  | _, _ => none

/-- Whether the signed public keys of an HSS signature lead to one of the message. -/
def hssLevels : Nat → List Byte → List Byte → List Byte → Bool
  | 0, pub, msg, sig => (lmsVerify pub msg sig).isSome
  | n + 1, pub, msg, sig =>
    let key := match lmsHeight (beNat (sliceBytes pub 0 4)), otsParams (beNat (sliceBytes pub 4 4)) with
      | some h, some (_, p, _) => sliceBytes sig (44 + 32 * p + 32 * h) 56
      | _, _ => []
    match lmsVerify pub key sig with
    | some k => hssLevels n key msg (sig.drop (k + 56))
    | none => false

/-- Whether an HSS signature verifies under a public key (R702); what follows it is not looked at. -/
def hssVerify (pub msg sig : List Byte) : Bool :=
  let l := beNat (pub.take 4)
  1 ≤ l && l ≤ 8 && beNat (sliceBytes sig 0 4) + 1 = l && hssLevels (l - 1) (pub.drop 4) msg (sig.drop 4)

end Sys2Proof.Machine
end

