-- ==== Sys2Proof/Machine/Ecc.lean ====
section
/-! DEFINITION. Machine/Ecc.lean: the Reed-Solomon codeword of a stored line, its check symbols, and the poison marker (R367, R375 to R377). -/

namespace Sys2Proof.Machine

/-- Doubling in GF(2^16) over x^16 + x^12 + x^3 + x + 1 (R375). -/
def eccTwice (x : Nat) : Nat := if x < 0x8000 then 2 * x else Nat.xor (2 * x) 0x1100B

/-- The product in GF(2^16). -/
def eccMul (a b : Nat) : Nat := ((List.range 16).foldl (fun (acc : Nat × Nat) i =>
  (if bit b i then Nat.xor acc.1 acc.2 else acc.1, eccTwice acc.2)) (0, a)).1

/-- The element α^i, α being x. -/
def eccAlpha : Nat → Nat
  | 0 => 1
  | i + 1 => eccTwice (eccAlpha i)

/-- A polynomial, lowest coefficient first, times (x + r). -/
def eccTimesRoot (p : List Nat) (r : Nat) : List Nat := List.zipWith Nat.xor (0 :: p) (p.map (eccMul r) ++ [0])

/-- The generator, whose roots are α^0 to α^7, lowest coefficient first (R375). -/
def eccGenerator : List Nat := (List.range 8).foldl (fun g i => eccTimesRoot g (eccAlpha i)) [1]

/-- Bit k of the run of a data pin: the bit that pin p carries in beat k, byte 2k on pins 0 to 7 and byte 2k + 1 on pins 8 to 15 (R375). -/
def pinBit (line : List Byte) (p k : Nat) : Nat := (line.getD (2 * k + p / 8) 0).toNat / 2 ^ (p % 8) % 2

/-- Symbol j of pin p: the 16 bits of its beats 16j to 16j + 15, the first lowest (R375). -/
def pinSymbol (line : List Byte) (p j : Nat) : Nat := (List.range 16).foldl (fun n b => n + pinBit line p (16 * j + b) * 2 ^ b) 0

/-- The 64 data symbols of a line, pin by pin (R375). The order of symbols in the codeword is the model's (log entry 83). -/
def dataSymbols (line : List Byte) : List Nat := (List.range 16).flatMap (fun p => (List.range 4).map (pinSymbol line p))

/-- One symbol enters the division by the generator; the remainder stands lowest coefficient first. -/
def eccStep (rem : List Nat) (sym : Nat) : List Nat :=
  let top := Nat.xor sym (rem.getD 7 0)
  (List.range 8).map (fun i => Nat.xor (if i = 0 then 0 else rem.getD (i - 1) 0) (eccMul top (eccGenerator.getD i 0)))

/-- The 8 check symbols of a line: the remainder of its data symbols, the last data symbol next above them (R375). -/
def checkSymbols (line : List Byte) : List Nat := (dataSymbols line).foldl eccStep (List.replicate 8 0)

/-- Symbols as one number, symbol 0 in bits [15:0] (R377). -/
def symbolsNat (l : List Nat) : Nat := l.foldr (fun x n => x + 2 ^ 16 * n) 0

/-- The fixed marker of a poisoned line (R377). -/
def poisonMarker : Nat := 0x8E6152F0A7C43D196B0EF23541D897AC

/-- The 16 bytes of check symbols stored with a line: the right ones, XOR the marker where the line is stored poisoned (R367, R376, R377). -/
def storedChecks (stored : List Byte) (poison : Bool) : Nat :=
  Nat.xor (symbolsNat (checkSymbols stored)) (if poison then poisonMarker else 0)

/-- The value at α^i of a codeword given from its highest coefficient down: 0 at each root of the generator for a right codeword. -/
def eccSyndrome (word : List Nat) (i : Nat) : Nat := word.foldl (fun v x => Nat.xor (eccMul v (eccAlpha i)) x) 0

/-- The codeword of 72 symbols: the data symbols, then the check symbols from the highest coefficient down (R375). -/
def codeword (line : List Byte) : List Nat := dataSymbols line ++ (checkSymbols line).reverse

/-- What a decoder finds in a stored line with so many wrong symbols (R376): within its reach it corrects up to four, or knows the marker with
up to two more; past that the error is uncorrectable. -/
inductive Decoded where
  | right | corrected | poisoned | uncorrectable
  deriving DecidableEq, Repr

/-- The table of R376. -/
def decodeLine (poison : Bool) (wrong : Nat) : Decoded :=
  if poison then (if wrong ≤ 2 then .poisoned else .uncorrectable)
  else if wrong = 0 then .right else if wrong ≤ 4 then .corrected else .uncorrectable

end Sys2Proof.Machine
end

