-- ==== Sys2Proof/Machine/Placement.lean ====
section
/-! DEFINITION. Machine/Placement.lean: line tags, and where a DRAM location lies: its stack, channel, line, home hub and L3 set (R367 to
R371, R392, R401). -/

namespace Sys2Proof.Machine

/-- A line as messages name it, from a 48-bit physical address and the realm flag (R47, R401). -/
def tagOf (pa : Nat) (realm : Bool) : LineTag := (if realm then 2 ^ 41 else 0) + pa % 2 ^ 48 / 128
/-- The location [41:0] of a line's first byte. -/
def tagLoc (t : LineTag) : Nat := t * 128 % 2 ^ 42
/-- The 48-bit physical address of a line. -/
def tagPa (t : LineTag) : Nat := t * 128 % 2 ^ 48
/-- The realm flag of a line. -/
def tagRealm (t : LineTag) : Bool := t / 2 ^ 41 % 2 == 1
/-- The realm key slot [47:42] of a line. -/
def tagSlot (t : LineTag) : Nat := t * 128 / 2 ^ 42 % 64
/-- A tag that names a line of DRAM: bit 41 of the location is clear. -/
def tagDram (t : LineTag) : Bool := tagLoc t < 2 ^ 41 && t < 2 ^ 42

/-- The near-pool size P in effect, in GiB (R370, R428). -/
def Dev.poolGib (s : Dev) : Nat := s.objAt 7 0x203 0

/-- The stack of a DRAM location and the line index s of R371. -/
def Dev.place (s : Dev) (a : Nat) : Nat × Nat :=
  let p := s.poolGib * 2 ^ 30
  let u := 2 ^ 41 - 4 * p
  let line := a / 128 % 32
  if a < u || p = 0 then
    let g := a / 4096
    (Nat.xor (g % 16) (g / 16 % 16), g / 16 * 32 + line)
  else
    let n := (a - u) / p
    let g := (a - u) % p / 4096
    (4 * n + Nat.xor (g % 4) (g / 4 % 4), u / 16 / 128 + g / 4 * 32 + line)

/-- The stack of a DRAM location (R371). -/
def Dev.stackOf (s : Dev) (a : Nat) : Nat := (s.place a).1
/-- The channel of a DRAM location (R371). -/
def Dev.channelOf (s : Dev) (a : Nat) : Nat := Nat.xor ((s.place a).2 % 64) ((s.place a).2 / 64 % 64)
/-- The line within its channel that a DRAM location falls in (R371). -/
def Dev.channelLine (s : Dev) (a : Nat) : Nat := (s.place a).2 / 64
/-- The home of a DRAM location: the hub of its stack (R369, R398). -/
def Dev.hubOf (s : Dev) (a : Nat) : HubId := ⟨s.stackOf a / 4 % 4, by omega⟩
/-- The L3 set of a DRAM location (R392). -/
def Dev.l3Set (s : Dev) (a : Nat) : Nat :=
  let (st, i) := s.place a
  st % 4 * 32768 + Nat.xor (i % 32768) (i / 32768 % 32768)
/-- The die number of a hub. -/
def hubDie (h : HubId) : Nat := 10 + h.val

end Sys2Proof.Machine
end

