-- ==== Sys2Proof/Machine/Messages.lean ====
section
/-! DEFINITION. Machine/Messages.lean: the connections between the dies, their routes, and the messages that travel on them (R25, R400,
R401, R544, R546, R547, R551). -/

namespace Sys2Proof.Machine

/-- Change the fabric. -/
def Dev.modFab (s : Dev) (f : FabricState → FabricState) : Dev := { s with fab := f s.fab }

/-- The ends of the connections C0 to C31, each its first die and port and its second (R25). -/
def connEnds : List ((Nat × Nat) × Nat × Nat) := [
  ((0, 0), 10, 0), ((0, 1), 11, 0), ((1, 0), 10, 1), ((1, 1), 12, 0), ((2, 0), 11, 1), ((2, 1), 12, 1), ((3, 0), 11, 2), ((3, 1), 13, 0),
  ((4, 0), 12, 2), ((4, 1), 13, 1), ((5, 0), 12, 3), ((5, 1), 10, 2), ((6, 0), 13, 2), ((6, 1), 10, 3), ((7, 0), 13, 3), ((7, 1), 11, 3),
  ((8, 0), 10, 4), ((8, 1), 12, 4), ((9, 0), 13, 4), ((9, 1), 11, 4), ((14, 0), 10, 5), ((15, 0), 11, 5), ((16, 0), 12, 5), ((17, 0), 13, 5),
  ((14, 1), 1, 2), ((15, 1), 7, 2), ((16, 1), 5, 2), ((17, 1), 3, 2), ((18, 0), 0, 2), ((18, 1), 4, 2), ((19, 0), 6, 2), ((19, 1), 2, 2)]

/-- The connection of a die's port, and the die and port at its other end. -/
def connOf (die port : Nat) : Option (Nat × Nat × Nat) :=
  connEnds.zipIdx.findSome? (fun e =>
    if e.1.1 = (die, port) then some (e.2, e.1.2) else if e.1.2 = (die, port) then some (e.2, e.1.1) else none)

/-- The dies next to a die over the connections that a mask does not name, each with the port that leads there. -/
def neighbours (down die : Nat) : List (Nat × Nat) :=
  connEnds.zipIdx.filterMap (fun e =>
    if bit down e.2 then none
    else if e.1.1.1 = die then some (e.1.1.2, e.1.2.1) else if e.1.2.1 = die then some (e.1.2.2, e.1.1.1) else none)

/-- The dies within so many connections of a set of dies, as a mask. -/
def reach (down : Nat) : Nat → Nat → Nat
  | 0, m => m
  | n + 1, m => reach down n ((List.range 20).foldl (fun a d => if bit m d then (neighbours down d).foldl (fun a e => Nat.lor a (2 ^ e.2)) a else a) m)

/-- The length of a shortest path between two dies, at most 20 (R547). -/
def pathLen (down src dst : Nat) : Nat := ((List.range 20).find? (fun n => bit (reach down n (2 ^ src)) dst)).getD 20

/-- The route set of a die towards another: its ports that begin a shortest path, in ascending order (R547, R551). -/
def routeSet (down src dst : Nat) : List Nat :=
  if src = dst then []
  else (List.range 6).filter (fun p => (neighbours down src).any (fun e => e.1 = p && pathLen down e.2 dst + 1 = pathLen down src dst))

/-- A port's state. -/
def Dev.port (s : Dev) (die port : Nat) : D2dPort := Table.get {} s.fab.ports (8 * die + port)
/-- Change a port's state. -/
def Dev.modPort (s : Dev) (die port : Nat) (f : D2dPort → D2dPort) : Dev :=
  s.modFab (fun x => { x with ports := Table.set {} x.ports (8 * die + port) (f (s.port die port)) })

/-- Whether a connection is up (R606). -/
def Dev.connUp (s : Dev) (c : Nat) : Bool := s.objAt 9 0x101 c = 0

/-- The port at which a message for a die leaves, of the set that the die's route tables hold (R547, R551): by the address for a message of a
line, else the lowest; one whose port is down waits for the next load of the tables. -/
def Dev.routePort (s : Dev) (at_ dst : Nat) (line : Option LineTag) : Option Nat :=
  let set := routeSet s.fab.routes at_ dst
  let port := match line with
    | some t => let a := tagPa t; set[Nat.xor (a / 2 ^ 7 % 64) (a / 2 ^ 13 % 64) % set.length]?
    | none => set.head?
  port.filter (fun p => (connOf at_ p).any (fun e => s.connUp e.1))

/-- Whether a virtual channel of a port has a credit left (R544; each has one at least, log entry 85). -/
def D2dPort.hasCredit (x : D2dPort) (c : Nat) : Bool := Table.get 0 x.used c ≤ Config.portCredits c

/-- Whether a message that waits at a die can go on to its destination: at every die on its way its port is up and has a credit of its virtual
channel (R400, R544, R547, R551). -/
def Dev.wayOpen (s : Dev) (channel dst : Nat) (line : Option LineTag) : Nat → Nat → Bool
  | 0, at_ => at_ = dst
  | n + 1, at_ =>
    at_ = dst || (s.routePort at_ dst line).any (fun p =>
      (s.port at_ p).hasCredit channel && (connOf at_ p).any (fun e => s.wayOpen channel dst line n e.2.1))

/-- The line that a message between dies is addressed to. -/
def Carried.line (c : Carried) : Option LineTag :=
  match c.what with
  | .msg m => some m.line
  | .notice .. => none

/-- Whether a message between dies takes a data field of a flit (R543). -/
def Carried.hasData (c : Carried) : Bool :=
  match c.what with
  | .msg m => m.hasData
  | .notice .. => false

/-- A message as it leaves its source die. -/
def Dev.carry (s : Dev) (m : Msg) : Carried :=
  let home := hubDie (s.hubOf (tagLoc m.line))
  if m.toHome then ⟨.msg m, m.agent.val, home, m.agent.val⟩ else ⟨.msg m, home, m.agent.val, home⟩

/-- A message leaves (R400). -/
def Dev.send (s : Dev) (m : Msg) : Dev :=
  let c := s.carry m
  s.modMem (fun x => { x with msgs := x.msgs ++ [m], carried := x.carried ++ [c] })

/-- Whether what travels is the message that a command of arrival names. -/
def Carried.is (m : Msg) (c : Carried) : Bool :=
  match c.what with
  | .msg y => y.bare == m
  | .notice .. => false

/-- The messages on their way that a command names, and those of them that still wait at a port of some die. -/
def Dev.onWay (s : Dev) (m : Msg) : Nat := s.mem.msgs.countP (fun y => y.bare == m)
def Dev.atPorts (s : Dev) (m : Msg) : List Carried := s.mem.carried.filter (Carried.is m)

/-- Whether a message stands in a flit that its receiver has not yet taken in order (R548, R549). -/
def Dev.inFlit (s : Dev) (m : Msg) : Bool :=
  s.fab.ports.any (fun e => e.2.flits.any (fun f => f.2.any (Carried.is m) &&
    (connOf (e.1 / 8) (e.1 % 8)).any (fun c => decide ((f.1 - (s.port c.2.1 c.2.2).rxNext).toNat < 2048))))

/-- Whether the oldest message that a command names is held up on its way: in a flit that is not received, or at a port that is down or has no
credit (R544, R546, R551). -/
def Dev.heldUp (s : Dev) (m : Msg) : Bool :=
  s.inFlit m || (decide (s.onWay m ≤ (s.atPorts m).length)
    && (s.atPorts m).head?.any (fun c => !s.wayOpen c.channel c.dst c.line 20 c.at_))

/-- A message that is on its way and may not arrive yet, since one sent before it on the same way has not, or its way is not open (R544, R546,
R551). -/
def Dev.behind (s : Dev) (m : Msg) : Bool :=
  match s.mem.msgs.find? (fun x => x.bare == m || x.sameWay m) with
  | none => false
  | some x => !(x.bare == m) || s.heldUp m

/-- A message on its way arrives: the oldest that the command of its arrival names. -/
def Dev.receive (s : Dev) (m : Msg) : Dev :=
  s.modMem (fun x => { x with
    msgs := removeFirst (fun y => y.bare == m) x.msgs
    carried := if s.onWay m ≤ (s.atPorts m).length then removeFirst (Carried.is m) x.carried else x.carried })

end Sys2Proof.Machine
end

