-- ==== Sys2Proof/Machine/Memory.lean ====
section
/-! DEFINITION. Machine/Memory.lean: DRAM under its keys, placement, poison, the L3, write combining, and the coherent view of a
line that every access sees (R367 to R393, R415, R523, R524). -/

namespace Sys2Proof.Machine

/-- The key a line is read and written under: a realm's memory key, or the package memory key (R45, R524). -/
def Dev.keyOf (s : Dev) (t : LineTag) : Nat := if tagRealm t then (s.realmAt (tagSlot t)).memKey else s.mem.pkgKey

/-- The key that a line of DRAM was written under: that of memory initialisation where nothing has written it since (R524). -/
def Dev.writtenKey (s : Dev) (t : LineTag) : Nat :=
  let k := Table.get 0 s.mem.dramKey (tagLoc t / 128)
  if k = 0 then s.mem.initKey else k - 1

/-- The 64 bytes of a memory key: a draw of the root of trust (R524). -/
def keyBytes (k : Nat) : List Byte := leBytes 64 (Config.drawBits k).toNat

/-- The bytes a line was written with. -/
def Dev.plainLine (s : Dev) (t : LineTag) : LineData := Table.getRange 0 s.mem.dram (tagLoc t) 128

/-- The bytes that DRAM stores for a line: the data unit under AES-256-XTS, the tweak bits [41:7] of its address (R376, R523). -/
def Dev.storedLine (s : Dev) (t : LineTag) : LineData := xtsSeal (keyBytes (s.writtenKey t)) (tagLoc t / 128) (s.plainLine t)

/-- The bytes DRAM gives for a line under the key of the request: those written, or what another key makes of the stored bytes (R47, R523). -/
def Dev.dramData (s : Dev) (t : LineTag) : LineData :=
  if s.writtenKey t = s.keyOf t then s.plainLine t else xtsOpen (keyBytes (s.keyOf t)) (tagLoc t / 128) (s.storedLine t)

/-- Whether DRAM stores a line poisoned (R377). -/
def Dev.dramPoisoned (s : Dev) (t : LineTag) : Bool := Table.get false s.mem.dramPoison (tagLoc t / 128)

/-- The check symbols that a line's channel stores with it (R367, R376, R377). -/
def Dev.lineChecks (s : Dev) (t : LineTag) : Nat := storedChecks (s.storedLine t) (s.dramPoisoned t)

/-- Write a whole line to DRAM under the line's key, poisoned or not, counted for its stack. -/
def Dev.dramWrite (s : Dev) (t : LineTag) (data : LineData) (poison : Bool) : Dev :=
  let loc := tagLoc t
  let k := s.keyOf t
  let s := s.modMem (fun m => { m with
    dram := Table.setRange 0 m.dram loc (data.take 128), dramKey := Table.set 0 m.dramKey (loc / 128) (if k = m.initKey then 0 else k + 1),
    dramPoison := Table.set false m.dramPoison (loc / 128) poison })
  s.bump 7 0x101 (s.stackOf loc) 1

/-- The canonical form of DRAM's bytes, of the keys its lines were written under, and of its poison marks: locations strictly rising, and
nothing listed that reads as an unlisted location does. -/
def Memory.wf (m : MemState) : Bool := Table.wf 0 m.dram && Table.wf 0 m.dramKey && Table.wf false m.dramPoison

/-- Mark a line poisoned in DRAM, its bytes as they are (R377). -/
def Dev.dramSetPoison (s : Dev) (t : LineTag) : Dev :=
  s.modMem (fun m => { m with dramPoison := Table.set false m.dramPoison (tagLoc t / 128) true })

/-- Bytes merged into a line under a 128-bit mask. -/
def mergeMask (mask : Nat) (new old : LineData) : LineData := old.mapIdx (fun i b => if bit mask i then new.getD i 0 else b)

/-- The mask of n bytes from offset off. -/
def maskOf (off n : Nat) : Nat := (2 ^ n - 1) * 2 ^ off % 2 ^ 128

/-- The mask of a whole line. -/
def fullMask : Nat := 2 ^ 128 - 1

/-- The L3's copy of a line. -/
def Dev.l3Line (s : Dev) (t : LineTag) : Option L3Line := Table.get none (s.hub (s.hubOf (tagLoc t))).l3 t

/-- The write-combining line for a line. -/
def Dev.wcbLine (s : Dev) (t : LineTag) : Option WcbLine := Table.get none (s.hub (s.hubOf (tagLoc t))).wcb t

/-- The current data of a line at its home: the L3, or the write-combining buffer over DRAM (R382). -/
def Dev.homeData (s : Dev) (t : LineTag) : LineData × Bool :=
  match s.l3Line t with
  | some l => (l.data, l.poison)
  | none =>
    match s.wcbLine t with
    | some w => (mergeMask w.mask w.data (s.dramData t), s.dramPoisoned t)
    | none => (s.dramData t, s.dramPoisoned t)

/-- The agents that hold a line in a state, in ascending order. -/
def Dev.holders (s : Dev) (t : LineTag) : List Agent :=
  (List.finRange 10).filter (fun a => (Table.get none (s.agent a).lines t).isSome)

/-- The agent whose copy is the line's current value: one that holds it in M, O or E. -/
def Dev.ownerOf (s : Dev) (t : LineTag) : Option (Agent × CacheLine) :=
  ((List.finRange 10).filterMap (fun a => match Table.get none (s.agent a).lines t with
    | some l => if l.st = .s then none else some (a, l)
    | none => none)).head?

/-- The eviction-buffer entry that holds a line's current value: the recorded owner's, whose WriteBack its home has yet to take (R407 to
R409). -/
def Dev.evbOf (s : Dev) (t : LineTag) : Option (Agent × EvbEntry) :=
  ((Table.get none (s.hub (s.hubOf (tagLoc t))).dir t).bind DirEntry.owner).bind (fun a =>
    (Table.get none (s.agent a).evb t).map (fun e => (a, e)))

/-- The home of a line records this agent as its owner. -/
def Dev.recorded (s : Dev) (t : LineTag) (a : Agent) : Bool :=
  match Table.get none (s.hub (s.hubOf (tagLoc t))).dir t with
  | some d => d.owner = some a
  | none => false

/-- The coherent value of a line: the owner's copy, an eviction buffer whose agent is still recorded, or the home's (R417, R418). -/
def Dev.coherent (s : Dev) (t : LineTag) : LineData × Bool :=
  match s.ownerOf t with
  | some (_, l) => (l.data, l.poison)
  | none =>
    match s.evbOf t with
    | some (_, e) => (e.data, e.poison)
    | none => s.homeData t

/-- The directory set of a line, of the 131,072 that 2,097,152 entries in 16 ways make (R394). -/
def dirSet (t : LineTag) : Nat := Config.dirSet t % 131072

/-- Whether a line has no directory entry and its set's sixteen are all of lines with a transaction open, so that a request for it waits
(R394, R402). -/
def Dev.dirBlocked (s : Dev) (t : LineTag) : Bool :=
  let h := s.hub (s.hubOf (tagLoc t))
  (Table.get none h.dir t).isNone && 16 ≤ h.dir.length
    && 16 ≤ (h.dir.filter (fun e => e.2.isSome && dirSet e.1 = dirSet t && (Table.get none h.txns e.1).isSome)).length

/-- Whether a further request for a line waits: its home has a transaction open on it or no entry for it (R394, R402), or a statistics add
holds it (R399). -/
def Dev.lineBusy (s : Dev) (t : LineTag) : Bool :=
  (Table.get none (s.hub (s.hubOf (tagLoc t))).txns t).isSome || s.dirBlocked t || s.mem.agents.any (fun a => a.pinned.any (fun e => e.1 = t))

/-- Change a home's L3 line. -/
def Dev.setL3 (s : Dev) (t : LineTag) (l : Option L3Line) : Dev :=
  s.modHub (s.hubOf (tagLoc t)) (fun h => { h with l3 := Table.set none h.l3 t l })
/-- Change a home's write-combining line. -/
def Dev.setWcb (s : Dev) (t : LineTag) (w : Option WcbLine) : Dev :=
  s.modHub (s.hubOf (tagLoc t)) (fun h => { h with wcb := Table.set none h.wcb t w })
/-- Change a home's directory entry. -/
def Dev.setDir (s : Dev) (t : LineTag) (d : Option DirEntry) : Dev :=
  s.modHub (s.hubOf (tagLoc t)) (fun h => { h with dir := Table.set none h.dir t d })
/-- A home's directory entry. -/
def Dev.dirOf (s : Dev) (t : LineTag) : Option DirEntry := Table.get none (s.hub (s.hubOf (tagLoc t))).dir t
/-- Change a caching agent's line. -/
def Dev.setLine (s : Dev) (a : Agent) (t : LineTag) (l : Option CacheLine) : Dev :=
  s.modAgent a (fun x => { x with lines := Table.set none x.lines t l })
/-- A caching agent's line. -/
def Dev.lineAt (s : Dev) (a : Agent) (t : LineTag) : Option CacheLine := Table.get none (s.agent a).lines t
/-- Whether every byte of an L2's line has been written while it was held in M (R415). -/
def wholeWritten (a : Agent) (written : Nat) : Bool := decide (a.val < 8) && written = fullMask

/-- The poison of data that comes back to a home: its own, and the mark that the home has set since its holders' grant, until every byte has
been written (R415). -/
def Dev.markedBack (s : Dev) (t : LineTag) (poison whole : Bool) : Bool := poison || ((s.dirOf t).any DirEntry.poison && !whole)

/-- Change an eviction-buffer entry. -/
def Dev.setEvb (s : Dev) (a : Agent) (t : LineTag) (e : Option EvbEntry) : Dev :=
  s.modAgent a (fun x => { x with evb := Table.set none x.evb t e })

/-- The entry of least use in a list of keyed entries. -/
def leastUsed {α : Type} (use : α → Nat) : List (Nat × α) → Option (Nat × α)
  | [] => none
  | x :: xs => match leastUsed use xs with
    | none => some x
    | some y => if use x.2 ≤ use y.2 then some x else some y

/-- The present entries of a table of options. -/
def present {α : Type} (t : Table (Option α)) : List (Nat × α) := t.filterMap (fun e => e.2.map (fun v => (e.1, v)))

/-- Put a line in the L3; a full set gives up its least recently used line, a dirty one to DRAM (R392), with which older bytes of the line
that the write-combining buffer still holds are overtaken (R417; log entry 33). -/
def Dev.l3Put (s : Dev) (t : LineTag) (data : LineData) (dirty poison : Bool) : Dev :=
  let (s, n) := s.stamp
  let set := s.l3Set (tagLoc t)
  let same := (present (s.hub (s.hubOf (tagLoc t))).l3).filter (fun e => e.1 ≠ t && s.l3Set (tagLoc e.1) = set)
  let s := if same.length < 16 || (s.l3Line t).isSome then s
    else match leastUsed L3Line.use same with
      | none => s
      | some (v, l) =>
        let s := if l.dirty then (s.dramWrite v l.data l.poison).setWcb v none else s
        s.setL3 v none
  s.setL3 t (some { data := data, dirty := dirty, poison := poison, use := n })

/-- The oldest write-combining line of a hub. -/
def oldestWcb (h : Hub) : Option (Nat × WcbLine) := leastUsed WcbLine.order (present h.wcb)

/-- A write of all 128 bytes of a line at once clears its poison; a partial write leaves the mark (R415). -/
def poisonAfter (old : Bool) (mask : Nat) : Bool := old && !(mask = fullMask)

/-- A line leaves the side buffers of the dies given, and a prefetch of it in flight there is discarded on arrival (R340). -/
def Dev.dropSideOf (s : Dev) (t : LineTag) (ds : List Nat) : Dev :=
  let s := ds.foldl (fun s d => if (Table.get none (s.mem.side.getD d []) t).isSome then s.bump 5 0x103 d 1 else s) s
  s.modMem (fun m => { m with
    side := m.side.mapIdx (fun d x => if ds.contains d then Table.set none x t none else x),
    inFlight := m.inFlight.mapIdx (fun d x => match Table.get none x t with
      | some f => if ds.contains d then Table.set none x t (some { f with discard := true }) else x
      | none => x) })

/-- A line leaves the side buffers of every die (R340). -/
def Dev.dropSide (s : Dev) (t : LineTag) : Dev := s.dropSideOf t (List.range 8)

/-- The L2 set of a physical address (R388), without its slice. -/
def l2Slice (a : Nat) : Nat := Nat.xor (Nat.xor (a / 2 ^ 7 % 16) (a / 2 ^ 11 % 16)) (Nat.xor (a / 2 ^ 15 % 16) (a / 2 ^ 19 % 16))
def l2Set (a : Nat) : Nat := Nat.xor (a / 2 ^ 11 % 2048) (a / 2 ^ 22 % 2048)

/-- The lines of a compute die's L2 that share a line's slice and set. -/
def Dev.l2Same (s : Dev) (a : Agent) (t : LineTag) : List (Nat × CacheLine) :=
  (present (s.agent a).lines).filter (fun e => e.1 ≠ t && l2Slice (tagPa e.1) = l2Slice (tagPa t) && l2Set (tagPa e.1) = l2Set (tagPa t))

/-- The lines of a core cache of 32 MiB (R393). -/
def coreCacheLines : Nat := 262144

/-- The victim of a fill, if it has one (R389, R390): a normal fill takes an invalid way, else the least recently used normal line; a
retained fill does so while the set holds fewer than l2_retain_ways retained lines, and else takes the least recently used retained line. A
line that a statistics add holds is passed over (R399).
A core cache gives up its least recently used line once it is full (log entry 86). -/
def Dev.victim (s : Dev) (a : Agent) (t : LineTag) (retained : Bool) : Option (Nat × CacheLine) :=
  if 8 ≤ a.val then
    let all := (present (s.agent a).lines).filter (fun e => e.1 ≠ t)
    if all.length < coreCacheLines then none else leastUsed CacheLine.use all
  else
    let same := s.l2Same a t
    let free := same.filter (fun e => !(s.agent a).pinned.any (fun x => x.1 = e.1))
    let kept := same.filter (fun e => e.2.retained)
    if retained && kept ≠ [] && s.objAt 8 0x200 a.val ≤ kept.length then leastUsed CacheLine.use (free.filter (fun e => e.2.retained))
    else if same.length < 16 then none
    else (leastUsed CacheLine.use (free.filter (fun e => !e.2.retained))).or (leastUsed CacheLine.use free)

/-- After l2_retain_ways has fallen below a set's count, each later fill makes that set's least recently used retained line
normal (R390). -/
def Dev.trimRetained (s : Dev) (a : Agent) (t : LineTag) : Dev :=
  let kept := (s.l2Same a t).filter (fun e => e.2.retained)
  if 8 ≤ a.val || kept.length ≤ s.objAt 8 0x200 a.val then s
  else match leastUsed CacheLine.use kept with
    | some (v, l) => s.setLine a v (some { l with retained := false })
    | none => s

/-- The eviction-buffer entries of an agent that a line's slice has in use, and their limit (R407). -/
def Dev.evbFull (s : Dev) (a : Agent) (t : LineTag) : Bool :=
  if a.val < 8 then 64 ≤ ((present (s.agent a).evb).filter (fun e => l2Slice (tagPa e.1) = l2Slice (tagPa t))).length
  else 256 ≤ (present (s.agent a).evb).length

/-- An agent evicts a line: M and O go to the eviction buffer with a WriteBack, E and S leave with an EvictClean (R403, R407). -/
def Dev.evictLine (s : Dev) (a : Agent) (v : LineTag) (l : CacheLine) : Dev :=
  let s := s.setLine a v none
  if l.st = .m || l.st = .o then
    (s.setEvb a v (some { data := l.data, poison := l.poison, written := l.written })).send (.writeBack a v l.data l.poison)
  else s.send (.evictClean a v)

/-- A fill would need a dirty victim while every entry of the eviction buffer is in use (R407). -/
def Dev.fillBlocked (s : Dev) (a : Agent) (t : LineTag) (retained : Bool) : Bool :=
  ((s.trimRetained a t).victim a t retained).any (fun v => (v.2.st = .m || v.2.st = .o) && s.evbFull a v.1)

/-- A line enters a caching agent, its victim evicted first. None: a dirty victim finds the eviction buffer full and the fill
waits (R407). A retained fill needs a way for it: with l2_retain_ways 0 the line is normal (log entry 86). -/
def Dev.fillLine (s : Dev) (a : Agent) (t : LineTag) (l : CacheLine) : Option Dev :=
  let s := s.trimRetained a t
  let (s, n) := s.stamp
  let l := { l with use := n, retained := l.retained && decide (a.val < 8) && decide (0 < s.objAt 8 0x200 a.val) }
  match s.victim a t l.retained with
  | none => some (s.setLine a t (some l))
  | some (v, vl) =>
    if (vl.st = .m || vl.st = .o) && s.evbFull a v then none
    else some ((s.evictLine a v vl).setLine a t (some l))

/-- The entry of least use among a directory set's entries that no transaction is open on (R394). -/
def Dev.dirVictimOf (s : Dev) (t : LineTag) : Option (Nat × DirEntry) :=
  let h := s.hub (s.hubOf (tagLoc t))
  leastUsed DirEntry.use ((present h.dir).filter (fun e => e.1 ≠ t && dirSet e.1 = dirSet t && (Table.get none h.txns e.1).isNone))

/-- The agents a directory entry names. -/
def DirEntry.agents (d : DirEntry) : List Agent :=
  d.owner.toList ++ d.sharers.filter (fun a => d.owner ≠ some a)

/-- When a timer that starts now expires (R410). -/
def Dev.homeDeadline (s : Dev) : Nat := s.now.toNat + 1000 * s.objAt 8 0x201 0

/-- A home opens a transaction on a line: it takes the home's next epoch (R401). -/
def Dev.takeEpoch (s : Dev) (t : LineTag) : Dev × Byte :=
  let h := s.hubOf (tagLoc t)
  (s.modHub h (fun y => { y with epoch := y.epoch + 1 }), (s.hub h).epoch)

/-- Open a transaction on a line whose snoops leave (R400, R401, R410). -/
def Dev.openTxn (s : Dev) (t : LineTag) (kind : ReqKind) (by_ : ReqBy) (snoop : SnoopKind) (dest : List Agent) (fromO : Bool)
    (err : Nat) : Dev :=
  let h := s.hubOf (tagLoc t)
  let (s, ep) := s.takeEpoch t
  let x : Txn := { epoch := ep, kind := kind, by_ := by_, awaiting := dest, fromO := fromO, deadline := s.homeDeadline, errSymbols := err }
  let s := s.modHub h (fun y => { y with txns := Table.set none y.txns t (some x) })
  dest.foldl (fun s a => s.send (.snoop snoop a t ep)) s

/-- Room for a new directory entry: a full set's least recently used entry is given up by SnpInv to every holder (R394). -/
def Dev.dirRoom (s : Dev) (t : LineTag) : Dev :=
  let h := s.hubOf (tagLoc t)
  let all := present (s.hub h).dir
  if (s.dirOf t).isSome || all.length < 16 || (all.filter (fun e => dirSet e.1 = dirSet t)).length < 16 then s
  else match s.dirVictimOf t with
    | none => s
    | some (v, d) => ((s.bump 8 0x115 (hubDie h) 1).setDir v none).openTxn v .dirVictim (.die 0) .inv d.agents (d.st = .o) 0

/-- Put a directory entry, most recently used of its set. -/
def Dev.putDir (s : Dev) (t : LineTag) (st : DirState) (owner : Option Agent) (sharers : List Agent) (poison : Bool) : Dev :=
  let (s, n) := (s.dirRoom t).stamp
  s.setDir t (some { st := st, owner := owner, sharers := sharers, poison := poison, use := n })

/-- The pieces of n bytes at a physical address, line by line: the line, the offset in it, and the length. -/
def linePieces (pa n : Nat) (realm : Bool) : Nat → List (LineTag × Nat × Nat)
  | 0 => []
  | fuel + 1 =>
    if n = 0 then []
    else
      let off := pa % 128
      let len := if n < 128 - off then n else 128 - off
      (tagOf pa realm, off, len) :: linePieces (pa + len) (n - len) realm fuel

/-- Bytes at a physical address through the coherent view, and whether a line of them is poisoned. -/
def Dev.physRead (s : Dev) (pa n : Nat) (realm : Bool) : List Byte × Bool :=
  let ps := (linePieces pa n realm (n / 128 + 2)).map (fun p =>
    let (d, poison) := s.coherent p.1
    (sliceBytes d p.2.1 p.2.2, poison))
  (ps.flatMap Prod.fst, ps.any Prod.snd)

/-- The little-endian number at a physical address under the package memory key. -/
def Dev.physNat (s : Dev) (pa n : Nat) : Nat := leNat (s.physRead pa n false).1

end Sys2Proof.Machine
end

