-- ==== Sys2Proof/Machine/Records.lean ====
section
/-! DEFINITION. Machine/Records.lean: error and fault records, the fault queues and the fatal log (R477 to R486), and with them what meets a
DRAM error: reads of DRAM, the write-combining buffer, and the accesses of a home (R376 to R385, R392, R404, R415). -/

namespace Sys2Proof.Machine

/-- The code of a record class (R482). -/
def RecClass.code : RecClass → Nat
  | .fault => 0 | .corrected => 1 | .deferred => 2 | .fatal => 3

/-- The fields of a record's first entry that its kind chooses (R482). -/
structure RecFields where
  kind : Nat
  cls : RecClass
  addr : Nat
  count : Nat := 0
  detail : Nat := 0
  asid : Option Nat := none
  rights : Nat := 0
  realm : Bool := false
  isSealed : Bool := false
  tag : Nat := 0
  chained : Bool := false
  time : Option U64 := none
  more : List Nat := []
  deriving DecidableEq, Repr

/-- The first 64-byte entry of a record (R482). -/
def recordBits (f : RecFields) (die : Nat) (now : U64) : Nat :=
  f.kind + f.cls.code * 2 ^ 16 + f.more.length * 2 ^ 21 + die * 2 ^ 27 + f.asid.getD 0 * 2 ^ 36 + b2n f.asid.isSome * 2 ^ 49
    + f.rights * 2 ^ 50 + b2n f.isSealed * 2 ^ 53 + b2n f.realm * 2 ^ 54 + b2n f.chained * 2 ^ 55
    + (f.time.getD now).toNat * 2 ^ 64 + f.addr * 2 ^ 128 + f.count * 2 ^ 192 + f.tag * 2 ^ 240 + f.detail * 2 ^ 256

/-- The record of these fields as the detecting die reports it. -/
def Dev.mkRecord (s : Dev) (die : Nat) (f : RecFields) : FaultRecord :=
  { cls := f.cls, first := recordBits f die s.now, more := f.more }

/-- The free entries of a fault queue (R477, R478). -/
def Mmu.free (m : Mmu) : Nat := 4096 - (m.fqTail.toNat + 2 ^ 32 - m.fqHead.toNat) % 2 ^ 32

/-- The entries a record takes. -/
def FaultRecord.entries (r : FaultRecord) : Nat := 1 + r.more.length

/-- A record enters the fatal log, and a warm reset is due (R485, R486). -/
def Dev.moduleFatal (s : Dev) (first : Nat) : Dev :=
  { s.modXl (fun x => { x with fatalLog := (first :: x.fatalLog).take 16 }) with resetDue := some .warm }

/-- Count a record that is dropped (R479, R481). -/
def Dev.dropRecord (s : Dev) (m : MmuId) : Dev := s.modMmu m (fun x => { x with fqDropped := x.fqDropped + 1 })

/-- The records of the holding buffer of 32, page requests that wait among them left out (R481). -/
def Mmu.heldRecords (m : Mmu) : Nat := (m.holding.filter (fun r => r.request.isNone && r.first % 256 ≠ 1)).length

/-- A record that meets its system MMU while it writes another is held, or dropped as R481 says. -/
def Dev.holdRecord (s : Dev) (m : MmuId) (r : FaultRecord) : Dev :=
  if !(s.mmu m).fqEn then s.dropRecord m
  else if (s.mmu m).heldRecords < 32 then s.modMmu m (fun x => { x with holding := x.holding ++ [r] })
  else if r.cls = .deferred then s.moduleFatal r.first
  else s.dropRecord m

/-- The fields of the record of an uncorrectable DRAM read, by source: 0 demand, 1 scrub, 2 write-combining merge (R483, kind 0x10). -/
def Dev.dramFields (s : Dev) (t : LineTag) (source : Nat) : RecFields :=
  let loc := tagLoc t
  { kind := 0x10, cls := .deferred, addr := tagPa t, realm := tagRealm t,
    detail := s.stackOf loc + s.channelOf loc * 2 ^ 8 + source * 2 ^ 16 }

/-- The die of the home of a line, as a die. -/
def Dev.homeDieOf (s : Dev) (t : LineTag) : Die := ⟨(10 + (s.hubOf (tagLoc t)).val) % 20, Nat.mod_lt _ (by decide)⟩

/-- Hold the record of an uncorrectable DRAM read. -/
def Dev.holdDram (s : Dev) (t : LineTag) (source : Nat) : Dev :=
  s.holdRecord (mmuOf (s.homeDieOf t)) (s.mkRecord (s.homeDieOf t).val (s.dramFields t source))

/-- The errors a DRAM read meets: those its command gives, and where it gives none, or they are past the code's reach, what stands next in
`dramErrors` (log entry 84). -/
def Dev.readError (s : Dev) (given : Option Nat) : Dev × DramError :=
  match given, s.mem.dramErrors with
  | some n, [] => (s, ⟨n, none⟩)
  | none, [] => (s, ⟨0, none⟩)
  | some n, e :: rest =>
    if n < 3 then (s, ⟨n, none⟩) else (s.modMem (fun m => { m with dramErrors := rest }), ⟨n, e.misread⟩)
  | none, e :: rest => (s.modMem (fun m => { m with dramErrors := rest }), e)

/-- A read of a line from DRAM, by source (R376, R378, R379, R385): what it gives and what it leaves, a record going by `rep`. -/
def Dev.dramReadBy (rep : Dev → LineTag → Nat → Dev) (s : Dev) (t : LineTag) (given : Option Nat) (source : Nat) : Dev × LineData × Bool :=
  let st := s.stackOf (tagLoc t)
  let data := s.dramData t
  let poison := s.dramPoisoned t
  let (s, e) := (s.bump 7 0x100 st 1).readError given
  let misread := if !poison && e.misread = some .quiet then none else e.misread
  match decodeLine poison e.symbols, misread with
  | .right, _ => (s, data, false)
  | .corrected, _ => ((s.bump 7 0x103 st 1).bump 7 0x101 st 1, data, false)
  | .poisoned, _ => (s, data, true)
  | .uncorrectable, some (.wrong d) => ((s.bump 7 0x103 st 1).dramWrite t d false, d.take 128, false)
  | .uncorrectable, some .quiet => (s, data, true)
  | .uncorrectable, none =>
    if poison then (rep (s.bump 7 0x104 st 1) t source, data, true)
    else
      let s := ((s.bump 7 0x104 st 1).bump 7 0x101 st 1).dramSetPoison t
      (rep (s.bump 8 0x118 (hubDie (s.hubOf (tagLoc t))) 1) t source, data, true)

/-- Drain a write-combining line to DRAM, its missing bytes merged over what was read (R383, R385), counted under object idx of 0x07. -/
def Dev.wcbDrainWith (s : Dev) (t : LineTag) (w : WcbLine) (base : LineData) (poison : Bool) (idx : Nat) : Dev :=
  let s := s.setWcb t none
  let s := s.bump 7 idx (hubDie (s.hubOf (tagLoc t))) 1
  s.dramWrite t (mergeMask w.mask w.data base) poison

/-- Whether all 128 bytes of a write-combining line have been written (R383). -/
def WcbLine.whole (w : WcbLine) : Bool := w.mask = fullMask && w.part = 0

/-- Drain a write-combining line: one wholly written needs no read (R383, R385). Its poison stands, since no single write covered it (R415). -/
def Dev.wcbDrainBy (rep : Dev → LineTag → Nat → Dev) (s : Dev) (t : LineTag) (given : Option Nat) (idx : Nat) : Dev :=
  match s.wcbLine t with
  | none => s
  | some w =>
    if w.whole then s.wcbDrainWith t w zeroLine (s.dramPoisoned t) idx
    else
      let (s, d, p) := Dev.dramReadBy rep s t given 2
      s.wcbDrainWith t w d p idx

/-- Bytes written at a line's home, some of them only in part: into its L3 line if it has one, else into the write-combining buffer, where
a write of the whole line goes on to DRAM at once (R381, R383, R415). -/
def Dev.homeWriteBy (rep : Dev → LineTag → Nat → Dev) (s : Dev) (t : LineTag) (off : Nat) (bytes : List Byte) (part by_ : Nat) : Dev :=
  let mask := maskOf off bytes.length
  match s.l3Line t with
  | some l =>
    let (s, n) := (s.bump 8 0x110 (hubDie (s.hubOf (tagLoc t))) 1).stamp
    s.setL3 t (some { l with
      data := patch l.data off bytes, dirty := true, poison := if part = 0 then poisonAfter l.poison mask else l.poison, use := n })
  | none =>
    let h := s.hubOf (tagLoc t)
    let s := if (s.wcbLine t).isNone && 512 ≤ (present (s.hub h).wcb).length then
        match oldestWcb (s.hub h) with
        | some (v, _) => Dev.wcbDrainBy rep s v none 0x113
        | none => s
      else s
    let (s, n) := s.stamp
    let w := match s.wcbLine t with
      | some w => { w with mask := Nat.lor w.mask mask, part := Nat.lor (Nat.land w.part (Nat.xor fullMask mask)) part,
                           data := patch w.data off bytes, writers := if w.writers.contains by_ then w.writers else w.writers ++ [by_] }
      | none => { mask := mask, part := part, data := patch zeroLine off bytes, since := s.now, writers := [by_], order := n }
    let s := s.setWcb t (some w)
    if mask = fullMask && part = 0 then s.wcbDrainWith t w zeroLine false 0x110
    else if w.whole then Dev.wcbDrainBy rep s t none 0x110 else s

/-- Every caching agent gives up a line, dirty data merged at the home (R404: WritePush in S, X and O; R415). -/
def Dev.gatherHome (s : Dev) (t : LineTag) : Dev :=
  let dirty : Option (LineData × Bool) := match s.ownerOf t with
    | some (a, l) => if l.st = .e then none else some (l.data, s.markedBack t l.poison (wholeWritten a l.written))
    | none => (s.evbOf t).map (fun e => (e.2.data, s.markedBack t e.2.poison (wholeWritten e.1 e.2.written)))
  let s := match dirty with
    | some (d, p) => s.l3Put t d true p
    | none => s
  let s := (s.holders t).foldl (fun s a => s.setLine a t none) s
  s.setDir t none

/-- A write-push of bytes within one line, accepted by the line's home (R381, R404, R415). -/
def Dev.pushWriteBy (rep : Dev → LineTag → Nat → Dev) (s : Dev) (t : LineTag) (off : Nat) (bytes : List Byte) (part by_ : Nat) : Dev :=
  Dev.homeWriteBy rep ((s.gatherHome t).dropSide t) t off bytes part by_

/-- Who writes, as the write-combining buffer keeps it: a die × 256 + a stream of R455, 255 where the die has no stream of its own. -/
def writerOf (die stream : Nat) : Nat := die * 256 + stream % 256

/-- Whether a running SCRUB makes a request of a line an access error (its old selection) or makes it wait (its new one) (R538). -/
def Dev.scrubbed (s : Dev) (pa : Nat) (realm : Bool) : Bool × Bool :=
  match s.svc.running with
  | none => (false, false)
  | some j =>
    let inside := j.start ≤ pa % 2 ^ 42 && pa % 2 ^ 42 < j.start + j.len
    let slot := pa / 2 ^ 42 % 64
    (inside && realm = j.oldFlag && slot = j.oldSlot, inside && realm = j.newFlag && slot = j.newSlot)

/-- A write-push of a unit of a die reaches its home (R402, R538): it is refused under the old selection of a running SCRUB, and held while a
transaction of its line is open. -/
def Dev.pushAt (rep : Dev → LineTag → Nat → Dev) (s : Dev) (t : LineTag) (off : Nat) (bytes : List Byte) (die : Die) : Dev :=
  if (s.scrubbed (tagPa t) (tagRealm t)).1 then s
  else if s.lineBusy t then
    s.modHub (s.hubOf (tagLoc t)) (fun h => { h with held := h.held ++ [⟨t, .request (.writePush off bytes) (.die die) 0⟩] })
  else Dev.pushWriteBy rep s t off bytes 0 (writerOf die.val 255)

/-- Bytes written at a physical address by a non-caching unit of a die: write-pushes at their homes (R395). -/
def Dev.physWriteBy (rep : Dev → LineTag → Nat → Dev) (s : Dev) (pa : Nat) (bytes : List Byte) (realm : Bool) (die : Die) : Dev :=
  ((linePieces pa bytes.length realm (bytes.length / 128 + 2)).foldl (fun (acc : Dev × List Byte) p =>
    (Dev.pushAt rep acc.1 p.1 p.2.1 (acc.2.take p.2.2) die, acc.2.drop p.2.2)) (s, bytes)).1

/-- The address of the record entry a number of entries past the tail of a fault queue (R477). -/
def Mmu.entryAddr (x : Mmu) (n : Nat) : Nat := x.fqBase.toNat + 64 * ((x.fqTail.toNat + n) % 4096)

/-- Whether a home is busy with a line that a record would be written to, so that the record waits (R402, R480). -/
def Dev.recordBusy (s : Dev) (m : MmuId) (r : FaultRecord) : Bool :=
  (List.range r.entries).any (fun n => s.lineBusy (tagOf ((s.mmu m).entryAddr n) false))

/-- A record is written whole, and then fq_tail advances (R477, R480); a deferred or fatal one is an event (R677). -/
def Dev.writeRecord (s : Dev) (m : MmuId) (r : FaultRecord) : Dev :=
  let x := s.mmu m
  let die : Die := ⟨8 + m.val, by omega⟩
  let s := ((r.first :: r.more).zipIdx).foldl (fun s e =>
    Dev.physWriteBy Dev.holdDram s (x.entryAddr e.2) (leBytes 64 e.1) false die) s
  let s := s.modMmu m (fun x => { x with fqTail := x.fqTail + BitVec.ofNat 32 r.entries })
  let s := s.bump 1 0x113 (8 + m.val) 1
  let s := if r.first % 256 = 0x11 then s.modXl (fun v => { v with lastDirty := some r.first }) else s
  if r.cls = .deferred || r.cls = .fatal then s.event 3 (r.first % 256 + r.cls.code * 256) else s

/-- Held records are written in order while they fit, up to a page request that waits among them (R480, R481). -/
def Dev.drainHeld (s : Dev) (m : MmuId) : Nat → Dev
  | 0 => s
  | n + 1 =>
    match (s.mmu m).holding with
    | [] => s
    | r :: rs =>
      if r.request.isNone && decide (r.entries ≤ (s.mmu m).free) && !s.recordBusy m r then
        ((s.modMmu m (fun x => { x with holding := rs })).writeRecord m r).drainHeld m n
      else s

/-- A record other than a page request reaches its system MMU (R479 to R481, R485, R486). -/
def Dev.reportTo (s : Dev) (m : MmuId) (r : FaultRecord) : Dev :=
  let s := if r.cls = .fatal then s.moduleFatal r.first else s
  if !(s.mmu m).fqEn then s.dropRecord m
  else
    let s := s.drainHeld m 32
    let x := s.mmu m
    if r.cls = .corrected && decide (x.free < 512) then s.dropRecord m
    else if x.holding = [] && decide (r.entries ≤ x.free) && !s.recordBusy m r then s.writeRecord m r
    else if x.heldRecords < 32 then s.modMmu m (fun x => { x with holding := x.holding ++ [r] })
    else if r.cls = .deferred then s.moduleFatal r.first
    else s.dropRecord m

/-- A record of a unit on a die (R432, R482). -/
def Dev.report (s : Dev) (die : Die) (f : RecFields) : Dev := s.reportTo (mmuOf die) (s.mkRecord die.val f)

/-- The record of an uncorrectable DRAM read. -/
def Dev.reportDram (s : Dev) (t : LineTag) (source : Nat) : Dev := s.report (s.homeDieOf t) (s.dramFields t source)

/-- A read of a line from DRAM (R376, R378, R379, R385). -/
def Dev.dramRead (s : Dev) (t : LineTag) (given : Option Nat) (source : Nat) : Dev × LineData × Bool :=
  Dev.dramReadBy Dev.reportDram s t given source

/-- Drain a write-combining line (R383, R385). -/
def Dev.wcbDrain (s : Dev) (t : LineTag) (given : Option Nat) (idx : Nat) : Dev := Dev.wcbDrainBy Dev.reportDram s t given idx

/-- Bytes written at a line's home (R381, R383, R415). -/
def Dev.homeWrite (s : Dev) (t : LineTag) (off : Nat) (bytes : List Byte) (part by_ : Nat) : Dev :=
  Dev.homeWriteBy Dev.reportDram s t off bytes part by_

/-- A write-push of bytes within one line (R381, R404, R415). -/
def Dev.pushWrite (s : Dev) (t : LineTag) (off : Nat) (bytes : List Byte) (part by_ : Nat) : Dev :=
  Dev.pushWriteBy Dev.reportDram s t off bytes part by_

/-- Bytes written at a physical address by a non-caching unit of a die (R395). -/
def Dev.physWrite (s : Dev) (pa : Nat) (bytes : List Byte) (realm : Bool) (die : Die) : Dev :=
  Dev.physWriteBy Dev.reportDram s pa bytes realm die

/-- A home's read of a line it serves: from the L3, or from DRAM with the write-combining bytes over it, allocating in the L3
(R382, R392). -/
def Dev.homeRead (s : Dev) (t : LineTag) (given : Option Nat) : Dev × LineData × Bool :=
  let h := hubDie (s.hubOf (tagLoc t))
  match s.l3Line t with
  | some l =>
    let (s, n) := (s.bump 8 0x110 h 1).stamp
    (s.setL3 t (some { l with use := n }), l.data, l.poison)
  | none =>
    let (s, d, p) := (s.bump 8 0x111 h 1).dramRead t given 0
    let d := match s.wcbLine t with
      | some w => mergeMask w.mask w.data d
      | none => d
    (s.l3Put t d false p, d, p)

end Sys2Proof.Machine
end

