-- ==== Sys2Proof/Machine/Caches.lean ====
section
/-! DEFINITION. Machine/Caches.lean: the places of lines in a compute die's L2, its request entries, its side buffers, and what an engine's
reads and writes do to the caches they go through (R331, R336 to R340, R389 to R391, R398, R404 to R407, R426). -/

namespace Sys2Proof.Machine

/-- An agent leaves a directory entry: an X or O entry that loses its owner falls back to its sharers (R404, R406, R411). -/
def Dev.dirRemove (s : Dev) (t : LineTag) (a : Agent) : Dev :=
  match s.dirOf t with
  | none => s
  | some d =>
    let sharers := d.sharers.filter (· ≠ a)
    let owner := if d.owner = some a then none else d.owner
    if owner.isNone && sharers.isEmpty then s.setDir t none
    else s.setDir t (some { d with owner := owner, sharers := sharers, st := if owner.isNone then .s else d.st })

/-- An agent's line takes the least recently used place of its set: every other line of the set moves up by one (R337). -/
def Dev.lruPlace (s : Dev) (a : Agent) (t : LineTag) : Dev :=
  let same := (s.l2Same a t).map Prod.fst
  let s := s.modAgent a (fun x => { x with lines := x.lines.map (fun e =>
    if same.contains e.1 then (e.1, e.2.map (fun l => { l with use := l.use + 1 }))
    else if e.1 = t then (e.1, e.2.map (fun l => { l with use := 0 })) else e) })
  s.modMem (fun m => { m with useTick := m.useTick + 1 })

/-- A line enters an agent at the place its hint selects (R337, R389, R390); none: the fill waits for an eviction buffer. -/
def Dev.place! (s : Dev) (a : Agent) (t : LineTag) (l : CacheLine) (hint : Nat) : Option Dev :=
  match s.fillLine a t { l with retained := hint = 2 } with
  | none => none
  | some s => some (if hint = 1 then s.lruPlace a t else s)

/-- A fill that found no eviction-buffer entry is counted while it waits (R407). -/
def Dev.evbWait (s : Dev) (a : Agent) : Dev := if a.val < 8 then s.bump 8 0x106 a.val 1 else s

/-- The caching agent of a compute die's engines. -/
def dieAgent (d : Die) : Option Agent := if h : d.val < 8 then some ⟨d.val, by omega⟩ else none

/-- The side buffers stand on the compute dies only. -/
def sideDie (a : Agent) : Option (Fin 8) := if h : a.val < 8 then some ⟨a.val, h⟩ else none

/-- The side-buffer line of an agent's die. -/
def Dev.sideLine (s : Dev) (a : Agent) (t : LineTag) : Option SideLine :=
  (sideDie a).bind (fun d => Table.get none (s.mem.side[d]) t)

/-- The prefetch of a line that is in flight to an agent's die. -/
def Dev.flightOf (s : Dev) (a : Agent) (t : LineTag) : Option InFlight :=
  (sideDie a).bind (fun d => Table.get none (s.mem.inFlight[d]) t)

/-- Set a side-buffer line of a die. -/
def Dev.setSide (s : Dev) (d : Fin 8) (t : LineTag) (x : Option SideLine) : Dev :=
  s.modMem (fun m => { m with side := m.side.set d (Table.set none (m.side[d]) t x) d.isLt })
/-- Set a prefetch in flight of a die. -/
def Dev.setFlight (s : Dev) (d : Fin 8) (t : LineTag) (x : Option InFlight) : Dev :=
  s.modMem (fun m => { m with inFlight := m.inFlight.set d (Table.set none (m.inFlight[d]) t x) d.isLt })

/-- A side-buffer line moves into the L2 in state S and its entry is freed (R337, R338); none: the fill waits. The move is a hit of the L2
(R428). -/
def Dev.promote (s : Dev) (a : Agent) (t : LineTag) (hint : Nat) : Option Dev :=
  match sideDie a, s.sideLine a t with
  | some d, some x =>
    match s.place! a t { st := .s, data := x.data, poison := x.poison, use := 0 } hint with
    | some s => some (((s.setSide d t none).bump 5 0x101 a.val 1).bump 8 0x100 a.val 1)
    | none => none
  | _, _ => none

/-- The requester number of the local requests that come as commands of their own, each a demand of its own. -/
def localNo : Nat := 0x200

/-- A demand request joins the prefetch of its line that is in flight, and is counted, once for each requester that waits (R339, R365). -/
def Dev.joinFlight (s : Dev) (a : Agent) (who : Nat) (t : LineTag) (f : InFlight) (hint : Nat) : Dev :=
  match sideDie a with
  | some d =>
    if who ≠ localNo && f.joiners.contains who then s
    else (s.setFlight d t (some { f with joined := f.joined.or (some hint), joiners := f.joiners ++ [who] })).bump 5 0x106 a.val 1
  | none => s

/-- A hit: the line becomes the most recently used of its set. -/
def Dev.touch (s : Dev) (a : Agent) (t : LineTag) (l : CacheLine) : Dev :=
  let (s, n) := s.stamp
  let s := if a.val < 8 then s.bump 8 0x100 a.val 1 else s
  s.setLine a t (some { l with use := n })

/-- An agent's outstanding request on a line. -/
def Dev.waitingAt (s : Dev) (a : Agent) (t : LineTag) : Option Waiting := Table.get none (s.agent a).waiting t

/-- The lines that a compute die has requests outstanding for: its L2's own and its prefetches (R331). -/
def Dev.outstanding (s : Dev) (a : Agent) : List LineTag :=
  ((s.agent a).waiting.filter (fun e => e.2.isSome)).map Prod.fst
    ++ ((sideDie a).map (fun d => ((s.mem.inFlight[d]).filter (fun e => e.2.isSome)).map Prod.fst)).getD []

/-- The request entries free for a line: of the 512 of its slice, and of the 8,192 of its die (R388, R425). A core cache has no such limit. -/
def Dev.entriesFree (s : Dev) (a : Agent) (t : LineTag) : Nat × Nat :=
  if 8 ≤ a.val then (1, 1)
  else
    let w := s.outstanding a
    (512 - (w.filter (fun x => l2Slice (tagPa x) = l2Slice (tagPa t))).length, 8192 - w.length)

/-- The requester of an engine's stream, among those a die's freed entries go round (R331, R455): a thresher is one whatever its streams. -/
def requesterOf (stream : Nat) : Nat := if stream < 0x30 then stream / 4 else if 0x3C ≤ stream && stream < 0xBC then 0x3C + (stream - 0x3C) / 4 else stream

/-- The requester numbers of a mill's four stream prefetchers. -/
def prefetcherNo (mill stream : Nat) : Nat := 0x100 + 4 * mill + stream

/-- Whether a requester still waits for a request entry: its line has not come otherwise, and is not asked for (R331). -/
def Dev.stillWaits (s : Dev) (a : Agent) (t : LineTag) : Bool :=
  !(s.lineAt a t).any (fun l => l.st = .m || l.st = .e) && (s.waitingAt a t).isNone && (s.sideLine a t).isNone && (s.flightOf a t).isNone

/-- The requesters that wait for an entry ahead of one in the round robin of R331. -/
def Dev.entryAhead (s : Dev) (a : Agent) (who : Nat) : List Nat :=
  let x := s.agent a
  let key (n : Nat) : Nat := (n + 0x3FF - x.entryLast) % 0x400
  let waits := (x.entryWait.filter (fun e => s.stillWaits a e.2)).map Prod.fst
  (waits.filter (fun n => n ≠ who && (!waits.contains who || key n < key who))).eraseDups

/-- A requester takes a request entry, where those that wait ahead of it leave one free; else it waits without error, and is counted (R331,
R425 to R427). -/
def Dev.takeEntry (s : Dev) (a : Agent) (who : Nat) (t : LineTag) : Dev × Bool :=
  let (slice, die) := s.entriesFree a t
  if (s.entryAhead a who).length < min slice die then
    (s.modAgent a (fun x => if x.entryWait.any (fun e => e.1 = who)
      then { x with entryWait := x.entryWait.filter (· ≠ (who, t)), entryLast := who } else x), true)
  else
    let s := s.modAgent a (fun x => if x.entryWait.contains (who, t) then x else { x with entryWait := x.entryWait ++ [(who, t)] })
    (((if die = 0 then s.bump 8 0x105 a.val 1 else s).bump 8 0x102 a.val 1), false)

/-- A requester that has its line waits no longer for an entry for it (R331). -/
def Dev.forgetEntry (s : Dev) (a : Agent) (who : Nat) (t : LineTag) : Dev :=
  if (s.agent a).entryWait.contains (who, t) then s.modAgent a (fun x => { x with entryWait := x.entryWait.filter (· ≠ (who, t)) }) else s

/-- Requesters of a die whose operation is over wait no longer (R331). -/
def Dev.forgetWaits (s : Dev) (a : Agent) (gone : Nat → Bool) : Dev :=
  s.modAgent a (fun x => { x with entryWait := x.entryWait.filter (fun e => !gone e.1) })

/-- A recorded owner that holds a line in its eviction buffer gives it to the home and leaves the entry (R406, R408, R409). -/
def Dev.evbToHome (s : Dev) (t : LineTag) : Dev :=
  match s.evbOf t with
  | some (o, e) => (s.l3Put t e.data true (s.markedBack t e.poison (wholeWritten o e.written))).dirRemove t o
  | none => s

/-- A home takes a WriteBack: the recorded owner's data goes to the L3, any other's is discarded (R404, R405, R409, R415). -/
def Dev.takeWriteBack (s : Dev) (t : LineTag) (a : Agent) (data : LineData) (poison : Bool) : Dev :=
  let (s, ep) := s.takeEpoch t
  let whole := (Table.get none (s.agent a).evb t).any (fun e => wholeWritten a e.written)
  if s.recorded t a then (((s.l3Put t data true (s.markedBack t poison whole)).dirRemove t a).send (.wbAck a t ep))
  else s.send (.wbSuperseded a t ep)

/-- A home takes an EvictClean: the sender leaves the entry; one that is not recorded is acknowledged (R404, R405). -/
def Dev.takeEvictClean (s : Dev) (t : LineTag) (a : Agent) : Dev :=
  let (s, ep) := s.takeEpoch t
  if (((s.dirOf t).map DirEntry.agents).getD []).contains a then s.dirRemove t a else s.send (.evictAck a t ep)

/-- An eviction reaches its home before anything else of its line does. -/
def Dev.takeEviction (s : Dev) (m : Msg) : Dev :=
  match m with
  | .writeBack a t d p => (s.receive m).takeWriteBack t a d p
  | .evictClean a t => (s.receive m).takeEvictClean t a
  | _ => s

/-- WbAck and WbSuperseded free the eviction-buffer entry, the latter counted; the acknowledgement of an EvictClean changes nothing (R405,
R407). -/
def Dev.evictionAnswered (s : Dev) (m : Msg) : Dev :=
  match m with
  | .wbAck a t _ => (s.receive (.wbAck a t 0)).setEvb a t none
  | .wbSuperseded a t _ =>
    let s := (s.receive (.wbSuperseded a t 0)).setEvb a t none
    if a.val < 8 then s.bump 8 0x107 a.val 1 else s
  | .evictAck a t _ _ => s.receive (.evictAck a t 0)
  | _ => s

/-- What an agent itself has sent of its eviction of a line reaches the home before a later request of it, and the home's answers reach the
agent before the data of that request (R407, R546): so an eviction buffer holds a line once. -/
def Dev.flushOwn (s : Dev) (a : Agent) (t : LineTag) : Dev :=
  let s := (s.mem.msgs.filter (Msg.evicts a t)).foldl Dev.takeEviction s
  (s.mem.msgs.filter (Msg.acksEviction a t)).foldl Dev.evictionAnswered s

/-- The snoop of a recorded owner that no longer holds a line in its L2 reaches its side buffer (R340). -/
def Dev.snoopOwner (s : Dev) (but : Option Agent) (t : LineTag) : Dev :=
  match (s.dirOf t).bind DirEntry.owner with
  | some o => if but = some o then s else s.dropSideOf t [o.val]
  | none => s

/-- The line of a read that misses, obtained as by ReadShared in one step (R398, R404): the owner's copy falls back, the directory
takes the reader in, and the line is granted alone or shared. The snoop of an owner reaches its side buffer too (R340). -/
def Dev.obtain (s : Dev) (a : Agent) (t : LineTag) : Dev × Moesi × LineData × Bool :=
  let s := s.flushOwn a t
  let (s, _) := s.takeEpoch t
  let keep : List Agent := (((s.dirOf t).map (fun d => d.owner.toList ++ d.sharers)).getD []).filter (· ≠ a)
  match s.ownerOf t with
  | some (o, l) =>
    let dirty := l.st = .m || l.st = .o
    let p := s.markedBack t l.poison (wholeWritten o l.written)
    let s := s.dropSideOf t [o.val]
    let s := s.setLine o t (some { l with st := if dirty then .o else .s, written := 0 })
    let s := if dirty then (s.l3Put t l.data true p).putDir t .o (some o) ((keep.filter (· ≠ o)) ++ [a]) p
      else s.putDir t .s none ((keep.filter (· ≠ o)) ++ [o, a]) p
    (s, .s, l.data, p)
  | none =>
    let wasO := (s.dirOf t).any (fun d => d.st = .o) && (s.evbOf t).isSome
    let (s, d, p) := ((s.snoopOwner (some a) t).evbToHome t).homeRead t none
    let sharers := (((s.dirOf t).map (fun d => d.sharers)).getD []).filter (· ≠ a)
    if sharers.isEmpty && !wasO then (s.putDir t .x (some a) [] p, .e, d, p) else (s.putDir t .s none (sharers ++ [a]) p, .s, d, p)

/-- A demand read of a line by an engine of a compute die, through its L2 (R337, R339, R389, R398, R407, R425), and whether the line is there
now: it waits for the prefetch it has joined, for a request entry, or for an eviction-buffer entry. -/
def Dev.demandRead (s : Dev) (a : Agent) (who : Nat) (t : LineTag) (hint : Nat) : Dev × Bool :=
  match s.lineAt a t with
  | some l => ((s.forgetEntry a who t).touch a t l, true)
  | none =>
    if (s.sideLine a t).isSome then
      match s.promote a t hint with
      | some s => (s, true)
      | none => (s.evbWait a, false)
    else match s.flightOf a t with
      | some f => (s.joinFlight a who t f hint, false)
      | none =>
        if (s.waitingAt a t).isSome then (s, false)
        else if s.fillBlocked a t (hint = 2) then (s.evbWait a, false)
        else match s.takeEntry a who t with
          | (s, false) => (s, false)
          | (s, true) =>
            let (s, st, d, p) := (s.bump 8 0x101 a.val 1).obtain a t
            match s.place! a t { st := st, data := d, poison := p, use := 0 } hint with
            | some s => (s, true)
            | none => ((s.dirRemove t a).evbWait a, false)

/-- A non-caching read of a line (R398): the owner's copy, or the home's; an owner that holds it in its eviction buffer gives it to the home
and leaves the entry (R404, R406, R409). The snoop of an owner reaches its side buffer (R340). -/
def Dev.onceRead (s : Dev) (t : LineTag) : Dev :=
  let (s, _) := s.takeEpoch t
  let s := s.snoopOwner none t
  if (s.ownerOf t).isSome then s
  else if (s.evbOf t).isSome then s.evbToHome t
  else (s.homeRead t none).1

/-- The lines of an engine's read pass through the caches of its die; whether all of them are there now. The lines that miss are fetched
first, so that a read which waits counts no hit. -/
def Dev.readLines (s : Dev) (die : Die) (who hint : Nat) (ts : List LineTag) : Dev × Bool :=
  let ts := ts.eraseDups
  match dieAgent die with
  | none => (ts.foldl (fun s t => s.onceRead t) s, true)
  | some a =>
    let hits := ts.filter (fun t => (s.lineAt a t).isSome)
    let (s, ok) := (ts.filter (fun t => (s.lineAt a t).isNone)).foldl (fun (acc : Dev × Bool) t =>
      let (s, b) := acc.1.demandRead a who t hint
      (s, acc.2 && b)) (s, true)
    if ok then (hits.foldl (fun s t => (s.demandRead a who t hint).1) s, true) else (s, false)

/-- Every agent but one gives up a line for a writer (R404): what was dirty goes to the L3 (R406), and is answered. -/
def Dev.invOthers (s : Dev) (a : Agent) (t : LineTag) : Dev × Option (LineData × Bool) :=
  let dirty : Option (LineData × Bool) := match s.ownerOf t with
    | some (o, l) => if o = a || l.st = .e then none else some (l.data, s.markedBack t l.poison (wholeWritten o l.written))
    | none => (s.evbOf t).bind (fun e => if e.1 = a then none else some (e.2.data, s.markedBack t e.2.poison (wholeWritten e.1 e.2.written)))
  let s := match dirty with
    | some (d, p) => s.l3Put t d true p
    | none => s
  let s := (s.holders t).foldl (fun s b => if b = a then s else s.setLine b t none) s
  (s.dropSideOf t ((List.range 8).filter (· ≠ a.val)), dirty)

/-- Bytes written into a line that its agent holds alone, some of them only in part: the line is in M from here on, and an L2 line whose
every byte has been written in M is poisoned no longer (R403, R415). -/
def writeInto (a : Agent) (l : CacheLine) (off : Nat) (data : List Byte) (part : Nat) : CacheLine :=
  let w := Nat.lor (if l.st = .m then l.written else 0) (Nat.land (maskOf off data.length) (Nat.xor fullMask part))
  { l with st := .m, data := patch l.data off data, written := w, poison := if a.val < 8 then poisonAfter l.poison w else l.poison }

/-- An engine write that takes ownership of the line in its agent's cache: at once in M and E, by Upgrade in O and S, by WriteClaim for a
whole line that it does not hold, else by ReadOwn (R391, R398, R403, R404). None: the fill waits. -/
def Dev.ownWrite (s : Dev) (a : Agent) (t : LineTag) (off : Nat) (bytes : List Byte) (part hint : Nat) : Option Dev :=
  match s.lineAt a t with
  | some l =>
    if l.st = .m || l.st = .e then
      let s := s.touch a t l
      some (s.setLine a t (some (writeInto a { l with use := s.mem.useTick } off bytes part)))
    else
      let (s, _) := s.takeEpoch t
      let s := (s.invOthers a t).1
      let p := l.poison || (s.homeData t).2
      let (s, n) := (s.putDir t .x (some a) [] p).stamp
      some (s.setLine a t (some (writeInto a { l with use := n, poison := p } off bytes part)))
  | none =>
    let s := (s.flushOwn a t).bump 8 0x101 a.val 1
    let (s, _) := s.takeEpoch t
    let (s, given) := s.invOthers a t
    let (s, d, p) :=
      if bytes.length = 128 && part = 0 then (s, zeroLine, false)
      else match given with
        | some (d, p) => (s, d, p)
        | none => s.homeRead t none
    (s.putDir t .x (some a) [] p).place! a t (writeInto a { st := .m, data := d, poison := p, use := 0 } off bytes part) hint

/-- A part of an engine's write that lies in one line: the line, the offset, the bytes, and the mask of those written only in part. -/
structure LineWrite where
  line : LineTag
  off : Nat
  bytes : List Byte
  part : Nat := 0
  deriving DecidableEq, Repr

/-- A line that an engine is about to write, made ready in its L2 (R338, R339, R407, R425): one in a side buffer moves in first, one in
flight is joined, and one that is not held takes a request entry; whether the write can go on now. -/
def Dev.readyLine (s : Dev) (a : Agent) (who : Nat) (t : LineTag) (hint : Nat) : Dev × Bool :=
  if (s.lineAt a t).any (fun l => l.st = .m || l.st = .e) then (s, true)
  else if (s.lineAt a t).isSome then (if (s.waitingAt a t).isSome then (s, false) else s.takeEntry a who t)
  else if (s.sideLine a t).isSome then
    match s.promote a t hint with
    | some s => s.takeEntry a who t
    | none => (s.evbWait a, false)
  else match s.flightOf a t with
    | some f => (s.joinFlight a who t f hint, false)
    | none =>
      if (s.waitingAt a t).isSome then (s, false)
      else if hint ≠ 1 && s.fillBlocked a t (hint = 2) then (s.evbWait a, false)
      else s.takeEntry a who t

/-- The lines of an engine's write made ready, before any byte of it is written (R338, R339, R451). -/
def Dev.readyLines (s : Dev) (die : Die) (who hint : Nat) (ts : List LineTag) : Dev × Bool :=
  match dieAgent die with
  | none => (s, true)
  | some a => ts.eraseDups.foldl (fun (acc : Dev × Bool) t =>
      let (s, b) := acc.1.readyLine a who t hint
      (s, acc.2 && b)) (s, true)

/-- An engine's write of bytes within one line: ownership in its L2, or a write-push under hint 0x1 and from every other die (R391, R398).
None: the L2 cannot take the line now. -/
def Dev.writeLine (s : Dev) (die : Die) (stream hint : Nat) (w : LineWrite) : Option Dev :=
  match dieAgent die with
  | some a =>
    if hint = 1 then some (s.flushOwn a w.line |>.pushWrite w.line w.off w.bytes w.part (writerOf die.val stream))
    else s.ownWrite a w.line w.off w.bytes w.part hint
  | none => some (s.pushWrite w.line w.off w.bytes w.part (writerOf die.val stream))

/-- The lines of an engine's write, all of them. -/
def Dev.writeLines (s : Dev) (die : Die) (stream hint : Nat) (ws : List LineWrite) : Option Dev :=
  ws.foldl (fun acc w => acc.bind (fun s => s.writeLine die stream hint w)) (some s)

/-- A write found its L2 unable to take a line, and waits (R407). -/
def Dev.writeWait (s : Dev) (die : Die) : Dev :=
  match dieAgent die with
  | some a => s.evbWait a
  | none => s

/-- Bytes at a physical address, line by line; `part` names the addresses of bytes written only in part. -/
def lineWrites (pa : Nat) (bytes : List Byte) (realm : Bool) (part : List Nat) : List LineWrite :=
  ((linePieces pa bytes.length realm (bytes.length / 128 + 2)).foldl (fun (acc : List LineWrite × List Byte × Nat) p =>
    let mask := (part.filter (fun x => acc.2.2 ≤ x && x < acc.2.2 + p.2.2)).foldl (fun m x => Nat.lor m (2 ^ (p.2.1 + (x - acc.2.2)))) 0
    (acc.1 ++ [{ line := p.1, off := p.2.1, bytes := acc.2.1.take p.2.2, part := mask }], acc.2.1.drop p.2.2, acc.2.2 + p.2.2)) ([], bytes, pa)).1

end Sys2Proof.Machine
end

