-- ==== Sys2Proof/Machine/Translate.lean ====
section
/-! DEFINITION. Machine/Translate.lean: address-space contexts, page walks, translation caches, misses, and the reads and writes of
engines at virtual addresses (R433 to R462, R48, R49, R527, R528, R535, R538). -/

namespace Sys2Proof.Machine

/-- A context entry that is valid and well formed (R435, R437). -/
structure Ctx where
  dtBase : Nat
  prtBase : Nat
  artBase : Nat
  realmEn : Bool
  realmSlot : Nat
  rootPa : Nat
  term : Bool
  deriving DecidableEq, Repr

/-- A context entry's 512 bits as a context; none where it is invalid or malformed (R435, R437). -/
def parseCtx (b : Nat) : Option Ctx :=
  let art := bits b 383 320
  let root := bits b 99 64
  let rEn := bit b 263
  let rSlot := bits b 261 256
  if bit b 0 && bits b 127 124 = 0xA && bits b 319 264 = 0 && !bit b 262 && bits b 255 128 = 0 && bits b 123 100 = 0
      && bits b 63 2 = 0 && bits b 511 448 % 4096 = 0 && bits b 447 384 % 4096 = 0 && art % 1024 = 0 && art < 2 ^ 42
      && root < 2 ^ 30 && (rEn || rSlot = 0) then
    some ⟨bits b 511 448, bits b 447 384, art, rEn, rSlot, root * 4096, bit b 1⟩
  else none

/-- The 512 bits of a context entry in memory, and whether its line is poisoned, or under the old selection of a running SCRUB (R434, R538;
log entry 89). -/
def Dev.ctxBits (s : Dev) (asid : Nat) : Nat × Bool :=
  let pa := s.xl.ctxBase.toNat + 64 * asid
  let (d, p) := s.physRead pa 64 false
  (leNat d, p || (s.scrubbed pa false).1)

/-- An address space's context as a system MMU sees it: from its context cache, else from memory (R436, R437). -/
def Dev.ctx (s : Dev) (m : MmuId) (asid : Nat) : Option Ctx :=
  match (s.mmu m).ctxCache.find? (fun e => e.asid = asid) with
  | some e => parseCtx e.bits
  | none =>
    let (b, p) := s.ctxBits asid
    if p then none else parseCtx b

/-- A context read fills the context cache with a valid and well-formed entry, never with another (R436). -/
def Dev.ctxFill (s : Dev) (m : MmuId) (asid : Nat) : Dev :=
  if ((s.mmu m).ctxCache.any (fun e => e.asid = asid)) || (s.ctx m asid).isNone then s
  else s.modMmu m (fun x => { x with ctxCache := x.ctxCache ++ [⟨asid, (s.ctxBits asid).1⟩] })

/-- How a page walk ends (R441 to R444). -/
inductive Walk where
  | noMapping
  | malformed (pte : Nat)
  | leaf (pte level pteAddr : Nat)
  deriving DecidableEq, Repr

/-- The table entry a level's index selects, for a virtual page number (R440). -/
def levelIndex (vpn level : Nat) : Nat := vpn / 512 ^ level % 512

/-- Whether a leaf breaks a rule of R442 or R444 at a level. -/
def leafMalformed (c : Ctx) (pte level : Nat) : Bool :=
  let ppn := bits pte 53 10
  let napot := bit pte 63
  let pa := ppn * 4096
  3 ≤ level || (0 < level && ppn % 512 ^ level ≠ 0) || bits pte 62 61 ≠ 0 || bits pte 60 54 ≠ 0
    || (napot && !(level = 0 && ppn % 16 = 8)) || 2 ^ 48 ≤ pa || 2 ^ 41 ≤ pa % 2 ^ 42
    || (if bit pte 8 then !(c.realmEn && pa / 2 ^ 42 % 64 = c.realmSlot) else pa / 2 ^ 42 % 64 ≠ 0)

/-- A walk's cached or read entry at one level, and whether its line is poisoned, or under the old selection of a running SCRUB (R538; log
entry 89). -/
def Dev.pte (s : Dev) (m : MmuId) (asid vpn level table : Nat) : Nat × Bool :=
  match (s.mmu m).walkCache.find? (fun e => e.asid = asid && e.level = level && e.key = vpn / 512 ^ level) with
  | some e => (e.pte, false)
  | none =>
    let pa := table + 8 * levelIndex vpn level
    let (d, p) := s.physRead pa 8 false
    (leNat d, p || (s.scrubbed pa false).1)

/-- The page walk from a level down (R440 to R444). A root table outside DRAM, which no rule names, is malformed as any other such table is
(DESIGN CHOICE, log entry 89). A malformed entry that is no leaf is none of the leaf that a record gives (R483). -/
def Dev.walkFrom (s : Dev) (m : MmuId) (c : Ctx) (asid vpn : Nat) : Nat → Nat → Walk
  | level, table =>
    match level with
    | 0 =>
      let (p, poison) := s.pte m asid vpn 0 table
      if poison then .malformed 0
      else if !bit p 0 || (!bit p 1 && bit p 2) then .noMapping
      else if !bit p 1 && !bit p 3 then .malformed 0
      else if leafMalformed c p 0 then .malformed p
      else .leaf p 0 (table + 8 * levelIndex vpn 0)
    | l + 1 =>
      let (p, poison) := s.pte m asid vpn (l + 1) table
      if poison || 2 ^ 41 ≤ table then .malformed 0
      else if !bit p 0 || (!bit p 1 && bit p 2) then .noMapping
      else if bit p 1 || bit p 3 then
        (if leafMalformed c p (l + 1) then .malformed p else .leaf p (l + 1) (table + 8 * levelIndex vpn (l + 1)))
      else
        let next := bits p 53 10 * 4096
        if bits p 63 54 ≠ 0 || 2 ^ 48 ≤ next || next / 2 ^ 42 ≠ 0 || 2 ^ 41 ≤ next % 2 ^ 42 then .malformed 0
        else s.walkFrom m c asid vpn l next

/-- The levels of a walk that the walk cache answers, and the non-leaf entries it reads (R460). -/
def Dev.walkTrace (s : Dev) (m : MmuId) (asid vpn : Nat) : Nat → Nat → Nat × List WalkEntry
  | level, table =>
    match level with
    | 0 => (0, [])
    | l + 1 =>
      let hit := (s.mmu m).walkCache.any (fun e => e.asid = asid && e.level = l + 1 && e.key = vpn / 512 ^ (l + 1))
      let (p, poison) := s.pte m asid vpn (l + 1) table
      if poison || !bit p 0 || bit p 1 || bit p 2 || bit p 3 || bits p 63 54 ≠ 0 then (b2n hit, [])
      else
        let (n, es) := s.walkTrace m asid vpn l (bits p 53 10 * 4096)
        (n + b2n hit, if hit then es else ⟨asid, l + 1, vpn / 512 ^ (l + 1), p⟩ :: es)

/-- The lines of the table entries that a walk reads in memory, those that its walk cache answers left out (R440, R460). -/
def Dev.walkLines (s : Dev) (m : MmuId) (asid vpn : Nat) : Nat → Nat → List LineTag
  | level, table =>
    let hit := (s.mmu m).walkCache.any (fun e => e.asid = asid && e.level = level && e.key = vpn / 512 ^ level)
    let here := if hit || 2 ^ 41 ≤ table then [] else [tagOf (table + 8 * levelIndex vpn level) false]
    match level with
    | 0 => here
    | l + 1 =>
      let (p, poison) := s.pte m asid vpn (l + 1) table
      let next := bits p 53 10 * 4096
      if poison || !bit p 0 || bit p 1 || bit p 2 || bit p 3 || bits p 63 54 ≠ 0 || 2 ^ 41 ≤ next then here
      else here ++ s.walkLines m asid vpn l next

/-- The pages of 4 KiB that a leaf at a level maps (R443). -/
def leafPages (pte level : Nat) : Nat := if level = 0 then (if bit pte 63 then 16 else 1) else 512 ^ level

/-- The physical base of a leaf's page (R443). -/
def leafBase (pte level : Nat) : Nat := (bits pte 53 10 / leafPages pte level * leafPages pte level) * 4096

/-- How much of a run of pages a region of pages covers: none, a part, or all. -/
inductive Cover where
  | none | part | all
  deriving DecidableEq, Repr

/-- The cover of pages [v, v + n) by a list of page ranges, each a first page and a page past its last. -/
def coverOf (v n : Nat) (ranges : List (Nat × Nat)) : Cover :=
  if ranges.any (fun r => r.1 ≤ v && v + n ≤ r.2) then .all
  else if ranges.any (fun r => r.1 < v + n && v < r.2) then .part else .none

/-- The sealed page ranges of an address space (R166, R476). -/
def Dev.sealedRanges (s : Dev) (asid : Nat) : List (Nat × Nat) :=
  (s.xl.sealed.filter (fun c => c.asid = asid)).map (fun c => (c.base / 4096, c.base / 4096 + c.pages))

/-- The valid ranges of the atomic-range table (R450), in pages; a table outside DRAM holds none (DESIGN CHOICE, log entry 89). -/
def Dev.atomicRanges (s : Dev) (c : Ctx) : List (Nat × Nat) :=
  if 2 ^ 41 ≤ c.artBase then [] else (List.range 64).filterMap (fun i =>
    let e := s.physNat (c.artBase + 16 * i) 16
    let lim := bits e 127 76
    let base := bits e 63 12
    if bit e 0 && bits e 75 64 = 0 && bits e 11 1 = 0 && base < lim then some (base, lim) else none)

/-- The translation a leaf fills for the page of vpn, with every right it carries (R445, R448, R449, R453). A page that a sealed
region or an atomic range covers only in part is cached as 4 KiB translations. -/
def Dev.translationOf (s : Dev) (c : Ctx) (asid vpn pte level : Nat) : TcEntry :=
  let n := leafPages pte level
  let v0 := vpn / n * n
  let isSealed := s.sealedRanges asid
  let atom := s.atomicRanges c
  let split := coverOf v0 n isSealed = .part || coverOf v0 n atom = .part
  let v := if split then vpn else v0
  let k := if split then 1 else n
  let user := bit pte 4
  let w := user && bit pte 2 && coverOf v k isSealed = .none
  { asid := asid, vpn := v, pages := k, pa := leafBase pte level + (v - v0) * 4096, realm := bit pte 8,
    rights := ⟨user && bit pte 1, w, w && coverOf v k atom = .all⟩, leafVpn := v0, leafPages := n }

/-- Whether rights cover wanted rights. -/
def Rights.covers (have_ want : Rights) : Bool := (have_.r || !want.r) && (have_.w || !want.w) && (have_.a || !want.a)
/-- A cached translation of a page that carries the rights wanted, whatever others of the page are cached without them (R454). -/
def Dev.tcHit (s : Dev) (die : Die) (asid vpn : Nat) (want : Rights) : Option TcEntry :=
  (s.xl.tcs[die]).find? (fun e => e.asid = asid && e.vpn ≤ vpn && vpn < e.vpn + e.pages && e.rights.covers want)

/-- The union of rights. -/
def Rights.union (a b : Rights) : Rights := ⟨a.r || b.r, a.w || b.w, a.a || b.a⟩
/-- The three rights bits of a record or a stream word (R482, R484). -/
def Rights.code (a : Rights) : Nat := b2n a.r + 2 * b2n a.w + 4 * b2n a.a

/-- The right a read needs, a write, and an atomic (R447). -/
def wantRead : Rights := ⟨true, false, false⟩
def wantWrite : Rights := ⟨false, true, false⟩
def wantAtomic : Rights := ⟨false, false, true⟩

/-- The translation-cache capacity of a die (R452). -/
def tcCapacity (die : Nat) : Nat := if die < 8 then 16384 else if die < 18 then 4096 else 8192

/-- The set of a die's cache that a translation enters (R452 gives the sets and no function: DESIGN CHOICE, log entry 13). -/
def tcSet (die : Nat) (e : TcEntry) : Nat := e.vpn / e.pages % (tcCapacity die / 16)

/-- A translation enters its set of 16 ways in a die's cache, in place of those it covers; the oldest leaves a full set (R452; log entry
13). -/
def Dev.tcPut (s : Dev) (die : Die) (e : TcEntry) : Dev :=
  s.modXl (fun x =>
    let l := (x.tcs[die]).filter (fun o => !(o.asid = e.asid && e.vpn ≤ o.vpn && o.vpn + o.pages ≤ e.vpn + e.pages))
    let same (o : TcEntry) : Bool := tcSet die.val o = tcSet die.val e
    let l := if (l.filter same).length < 16 then l else l.eraseP same
    { x with tcs := x.tcs.set die (l ++ [e]) die.isLt })

/-- What an access of an engine comes to: its bytes, a wait with nothing done, or a failure with its reason (R176) and the first
virtual address that failed. -/
inductive Fetch (α : Type) where
  | ok (a : α)
  | wait
  | fail (reason va : Nat)
  deriving DecidableEq, Repr

/-- Who makes an access: the die, the stream identifier of R455, the queue and its address space; the operation it is for, none for the queue's
own fetch; and whether the operation reads what it reads through it once (R161, R223, R244). -/
structure Port where
  die : Die
  stream : Nat
  queue : Nat
  asid : Nat
  hint : Nat := 0
  slot : Option SlotId := none
  keep : Bool := false
  deriving DecidableEq, Repr

/-- A translated piece of an access within one page. -/
structure Piece where
  va : Nat
  pa : Nat
  len : Nat
  realm : Bool
  deriving DecidableEq, Repr

/-- Access errors that the address itself has (R48, R49): a non-canonical address 1, the upper half 2. -/
def vaError (va : Nat) : Nat :=
  let hi := bits va 63 56
  if hi = 0 then 0 else if hi = 0xFF then 2 else 1

/-- The record of an access error (R482, R483, kind 0x02), of a realm's page or not. -/
def Dev.reportAccess (s : Dev) (p : Port) (va cause : Nat) (rights : Rights) (realm : Bool) : Dev :=
  s.report p.die { kind := 2, cls := .fault, addr := va, asid := some p.asid, rights := rights.code, realm := realm,
                   detail := cause + p.stream * 2 ^ 16 + p.queue * 2 ^ 32 }

/-- The record of a realm refusal (R539, kind 0x40). -/
def Dev.reportRealm (s : Dev) (p : Port) (va cause realm : Nat) : Dev :=
  let s := s.report p.die { kind := 0x40, cls := .fault, addr := va, asid := some p.asid, realm := true,
                            detail := cause + realm * 2 ^ 4 + p.queue * 2 ^ 16 + p.stream * 2 ^ 32 }
  s.bump 6 0x302 0 1

/-- A page request's further record for a stream that joins after its records were written (R462, R484). -/
def streamWord (w : WaitingStream) : Nat := w.queue + w.stream * 2 ^ 16 + w.rights.code * 2 ^ 29

/-- The stream words of the second entry of a page-request record (R484). -/
def streamWords : List WaitingStream → Nat
  | [] => 0
  | w :: ws => streamWord w + 2 ^ 32 * streamWords ws

/-- A page-request record of up to 16 streams, of a request detected at a time (R482, R483, kind 0x01). -/
def Dev.prRecord (s : Dev) (die : Die) (asid va tag leaf : Nat) (st : WalkStatus) (rights : Rights) (isSealed chained : Bool)
    (ws : List WaitingStream) (time : U64) : FaultRecord :=
  s.mkRecord die.val {
    kind := 1, cls := .fault, time := some time, addr := va, count := ws.length, asid := some asid, rights := rights.code,
    isSealed := isSealed, tag := tag, chained := chained, realm := bit leaf 8,
    detail := leaf + (match st with | .rightLacking => 1 | .malformed => 2 | _ => 0) * 2 ^ 64, more := [streamWords ws] }

/-- The tag of a page-request slot (R463). -/
def prTag (i : Nat) (x : PrSlot) : Nat := i + x.reuse % 64 * 1024

/-- Whether a page of an address space lies in a sealed region. -/
def Dev.pageSealed (s : Dev) (asid vpn : Nat) : Bool := coverOf vpn 1 (s.sealedRanges asid) = .all

/-- Whether two waits are of the same stream and queue. -/
def WaitingStream.same (x w : WaitingStream) : Bool := x.stream = w.stream && x.queue = w.queue

/-- The streams of a list with one more stream, its rights and those it waits for joined to its own if it waits already. -/
def addStream (ws : List WaitingStream) (w : WaitingStream) : List WaitingStream :=
  if ws.any (fun x => x.same w) then
    ws.map (fun x => if x.same w then
      { x with rights := x.rights.union w.rights, for_ := x.for_ ++ w.for_.filter (fun k => !x.for_.contains k) } else x)
  else ws ++ [w]

/-- Whether a list of waits has that of a stream for the rights and the operation of another wait. -/
def waitsFor (ws : List WaitingStream) (w : WaitingStream) : Bool :=
  ws.any (fun x => x.same w && x.rights.covers w.rights && w.for_.all x.for_.contains)

/-- A stream joins a page request whose records are written: a further record with its tag lists it (R462), where records are written (R479). As
the last of its tag so far it has chained clear (DEDUCED, log entry 89). -/
def Dev.joinRequest (s : Dev) (m : MmuId) (die : Die) (asid vpn : Nat) (w : WaitingStream) : Dev :=
  match (present (s.mmu m).slots).find? (fun e => e.2.outstanding && e.2.die = die && e.2.asid = asid && e.2.vpn = vpn) with
  | none => s
  | some (i, x) =>
    if waitsFor x.streams w then s
    else
      let listed := x.streams.any (fun y => y.same w && y.rights.covers w.rights)
      let s := s.modMmu m (fun u => { u with slots := Table.set none u.slots i (some { x with streams := addStream x.streams w }) })
      let r := s.prRecord die asid x.va (prTag i x) x.leaf x.walk w.rights (s.pageSealed asid vpn) false [w] s.now
      if listed then s
      else if !(s.mmu m).fqEn then s.dropRecord m
      else if !s.recordBusy m r && r.entries ≤ (s.mmu m).free && (s.mmu m).holding = [] then s.writeRecord m r
      else s.modMmu m (fun u => { u with holding := u.holding ++ [r] })

/-- A request that misses: it joins the pending entry of its page, or opens one while fewer than 64 are in use, or waits in its
stream queue, which is counted (R457, R458, R489). A stream that already waits there changes nothing. It waits for the operations given,
none of them its queue's own fetch. -/
def Dev.missFor (s : Dev) (p : Port) (va : Nat) (want : Rights) (for_ : List (Option SlotId)) : Dev :=
  let vpn := va / 4096
  let w : WaitingStream := ⟨p.stream, p.queue, want, va, for_⟩
  match s.xl.misses.find? (fun e => e.die = p.die && e.asid = p.asid && e.vpn = vpn) with
  | some e =>
    if waitsFor e.streams w then s
    else
      let s := if e.streams.any (fun x => x.same w && x.rights.covers want) then s else s.bump 1 0x102 p.die.val 1
      let s := s.modXl (fun x => { x with misses := x.misses.map (fun o =>
        if o.die = p.die && o.asid = p.asid && o.vpn = vpn then { o with streams := addStream o.streams w } else o) })
      if e.pageRequest then s.joinRequest (mmuOf p.die) p.die p.asid vpn w else s
  | none =>
    if (s.xl.misses.filter (fun e => e.die = p.die)).length < 64 then
      (s.bump 1 0x101 p.die.val 1).modXl (fun x => { x with misses := x.misses ++ [{ die := p.die, asid := p.asid, vpn := vpn, va := va, streams := [w], walking := true }] })
    else s.bump 1 0x103 p.die.val 1

/-- A request that misses, for the operation its port serves. -/
def Dev.miss (s : Dev) (p : Port) (va : Nat) (want : Rights) : Dev := s.missFor p va want [p.slot]

/-- The pieces of an access page by page. -/
def pagePieces (va n : Nat) : Nat → List (Nat × Nat)
  | 0 => []
  | fuel + 1 =>
    if n = 0 then []
    else
      let len := if n < 4096 - va % 4096 then n else 4096 - va % 4096
      (va, len) :: pagePieces (va + len) (n - len) fuel

/-- Translate the pages of an access with one right. Missing translations are requested, one miss each, and the access waits. -/
def Dev.translateAll (s : Dev) (p : Port) (want : Rights) : List (Nat × Nat) → Dev × Fetch (List Piece)
  | [] => (s, .ok [])
  | (va, len) :: rest =>
    if vaError va ≠ 0 then (s.reportAccess p va (vaError va) want false, .fail 4 va)
    else
      match s.tcHit p.die p.asid (va / 4096) want with
      | some e =>
        let pa := e.pa + (va / 4096 - e.vpn) * 4096 + va % 4096
        if e.realm && !(s.realmAt (pa / 2 ^ 42 % 64)).active then (s.reportRealm p pa 5 (pa / 2 ^ 42 % 64), .fail 4 va)
        else if (s.scrubbed pa e.realm).1 then (s.reportAccess p va 3 want e.realm, .fail 4 va)
        else
          match s.translateAll p want rest with
          | (s, .ok l) => if (s.scrubbed pa e.realm).2 then (s, .wait) else (s, .ok (⟨va, pa, len, e.realm⟩ :: l))
          | r => r
      | none =>
        match (s.miss p va want).translateAll p want rest with
        | (s, .fail r a) => (s, .fail r a)
        | (s, _) => (s, .wait)

/-- The requests of an access that its die's translation cache has translated are counted once the access is made (R489). -/
def Dev.countHits (s : Dev) (p : Port) (ps : List Piece) : Dev := if ps.isEmpty then s else s.bump 1 0x100 p.die.val ps.length

/-- The lines that translated pieces touch. -/
def pieceLines (ps : List Piece) : List LineTag :=
  ps.flatMap (fun x => (linePieces x.pa x.len x.realm (x.len / 128 + 2)).map Prod.fst)

/-- The first poisoned piece's virtual line address, if a read of the pieces meets a poisoned line. -/
def Dev.poisonIn (s : Dev) (ps : List Piece) : Option Nat :=
  (ps.find? (fun x => (s.physRead x.pa x.len x.realm).2)).map (fun x =>
    match (linePieces x.pa x.len x.realm (x.len / 128 + 2)).find? (fun l => (s.coherent l.1).2) with
    | some l => x.va + (tagPa l.1 - x.pa % 2 ^ 48)
    | none => x.va)

/-- The bytes of translated pieces of a read, through the caches of its die (R337, R339, R407, R416): it waits while a line is not to be
had, and fails at a poisoned one. -/
def Dev.readPieces (s : Dev) (p : Port) (ps : List Piece) : Dev × Fetch (List Byte) :=
  if (pieceLines ps).any s.lineBusy then (s, .wait)
  else match s.readLines p.die (requesterOf p.stream) p.hint (pieceLines ps) with
    | (s, false) => (s, .wait)
    | (s, true) => match s.poisonIn ps with
      | some a => (s, .fail 6 a)
      | none => (s, .ok (ps.flatMap (fun x => (s.physRead x.pa x.len x.realm).1)))

/-- What an operation has read already through a port by which it reads once (R161, R223, R244). -/
def Dev.keptRead (s : Dev) (p : Port) (runs : List (Nat × Nat)) : Option KeptRead :=
  if p.keep then (p.slot.bind s.op).bind (fun o => o.kept.find? (fun r => r.stream = p.stream && r.runs = runs)) else none

/-- What an operation has read once is kept for it. -/
def Dev.keepRead (s : Dev) (p : Port) (runs : List (Nat × Nat)) (data : List (List Byte)) (realm : Bool) : Dev :=
  match p.keep, p.slot with
  | true, some k => s.modOp k (fun o => { o with kept := o.kept ++ [⟨p.stream, runs, data, realm⟩] })
  | _, _ => s

/-- An engine's read of n bytes at a virtual address (R44 to R49, R447, R454): its bytes, with the realm flag of any of its pages. -/
def Dev.readVaR (s : Dev) (p : Port) (va n : Nat) : Dev × Fetch (List Byte × Bool) :=
  match s.keptRead p [(va, n)] with
  | some r => (s, .ok (r.data.flatten, r.realm))
  | none =>
    match s.translateAll p wantRead (pagePieces va n (n / 4096 + 2)) with
    | (s, .ok ps) =>
      match s.readPieces p ps with
      | (s, .ok d) => ((s.countHits p ps).keepRead p [(va, n)] [d] (ps.any (fun x => x.realm)), .ok (d, ps.any (fun x => x.realm)))
      | (s, .wait) => (s, .wait)
      | (s, .fail r a) => (s, .fail r a)
    | (s, .wait) => (s, .wait)
    | (s, .fail r a) => (s, .fail r a)

/-- An engine's read without the realm flag. -/
def Dev.readVa (s : Dev) (p : Port) (va n : Nat) : Dev × Fetch (List Byte) :=
  match s.readVaR p va n with
  | (s, .ok (d, _)) => (s, .ok d)
  | (s, .wait) => (s, .wait)
  | (s, .fail r a) => (s, .fail r a)

/-- Whether an address space is a rind realm, by the context its system MMU holds. -/
def Dev.realmSpace (s : Dev) (p : Port) : Option Nat :=
  match s.ctx (mmuOf p.die) p.asid with
  | some c => if c.realmEn then some c.realmSlot else none
  | none => none

/-- The check of R535 on a write: an operation of a realm's address space may not write through a plain translation. -/
def Dev.plainRefusal (s : Dev) (p : Port) (ps : List Piece) : Option (Nat × Nat) :=
  match s.realmSpace p with
  | some r => (ps.find? (fun x => !x.realm)).map (fun x => (x.va, r))
  | none => none

/-- Bytes written through translated pieces, line by line; `part` names the virtual addresses of bytes written only in part (R415). -/
def pieceWrites : List Piece → List Byte → List Nat → List LineWrite
  | [], _, _ => []
  | x :: xs, bytes, part =>
    lineWrites x.pa (bytes.take x.len) x.realm ((part.filter (fun a => x.va ≤ a && a < x.va + x.len)).map (fun a => a - x.va + x.pa))
      ++ pieceWrites xs (bytes.drop x.len) part

/-- Write bytes through translated pieces. None: a cache cannot take a line now. -/
def Dev.writePieces (s : Dev) (p : Port) (hint : Nat) (ps : List Piece) (bytes : List Byte) (part : List Nat) : Option Dev :=
  s.writeLines p.die p.stream hint (pieceWrites ps bytes part)

/-- Translations with the right wanted for every range of an output unit, and its lines ready, before any byte of it is written (R338, R339,
R451, R535). -/
def Dev.holdWrite (s : Dev) (p : Port) (hint : Nat) (exempt : Bool) (want : Rights) (ranges : List (Nat × Nat)) : Dev × Fetch (List Piece) :=
  match s.translateAll p want (ranges.flatMap (fun r => pagePieces r.1 r.2 (r.2 / 4096 + 2))) with
  | (s, .ok ps) =>
    match if exempt then none else s.plainRefusal p ps with
    | some (va, r) => (s.reportRealm p va 1 r, .fail 0xD va)
    | none =>
      if (pieceLines ps).any s.lineBusy then (s, .wait)
      else match s.readyLines p.die (requesterOf p.stream) hint (pieceLines ps) with
        | (s, true) => (s.countHits p ps, .ok ps)
        | (s, false) => (s, .wait)
  | r => r

/-- An engine's write of a unit: the byte runs of the unit, each at its address, all of them or none (R178, R451). -/
def Dev.writeUnit (s : Dev) (p : Port) (hint : Nat) (exempt : Bool) (runs : List (Nat × List Byte)) : Dev × Fetch Unit :=
  match s.holdWrite p hint exempt wantWrite (runs.map (fun r => (r.1, r.2.length))) with
  | (s, .ok ps) =>
    match s.writePieces p hint ps (runs.flatMap Prod.snd) [] with
    | some s => (s, .ok ())
    | none => (s.writeWait p.die, .wait)
  | (s, .wait) => (s, .wait)
  | (s, .fail r a) => (s, .fail r a)

/-- What a walk finds: the translation it fills, or why there is none, with the entry it ended at (R441, R442, R483). -/
structure WalkEnd where
  entry : Option TcEntry
  status : WalkStatus
  leaf : Nat
  deriving DecidableEq, Repr

/-- Lines read by a system MMU, a non-caching requester, at their homes (R392, R395, R398). -/
def Dev.onceReads (s : Dev) (ts : List LineTag) : Dev := ts.eraseDups.foldl (fun s t => s.onceRead t) s

/-- A system MMU reads the context of an address space where its context cache lacks it, and caches it (R436, R437). -/
def Dev.ctxRead (s : Dev) (m : MmuId) (asid : Nat) : Dev :=
  if (s.mmu m).ctxCache.any (fun e => e.asid = asid) then s
  else (s.onceReads [tagOf (s.xl.ctxBase.toNat + 64 * asid) false]).ctxFill m asid

/-- A page walk by the system MMU of a die, which reads the tables through their homes, sets A, and D where the write right is carried, and
fills the die's translation cache with every right the leaf carries (R440, R446, R460). None: the address space is terminated or has no
usable context (R439). -/
def Dev.walk (s : Dev) (die : Die) (asid vpn : Nat) : Dev × Option WalkEnd :=
  let m := mmuOf die
  let s := s.ctxRead m asid
  match s.ctx m asid with
  | none => (s, none)
  | some c =>
    if c.term then (s, none)
    else
      let s := s.onceReads (s.walkLines m asid vpn 4 c.rootPa)
      let (hits, es) := s.walkTrace m asid vpn 4 c.rootPa
      let r := s.walkFrom m c asid vpn 4 c.rootPa
      let s := s.bump 1 0x114 (8 + m.val) hits
      let s := s.modMmu m (fun x =>
        let l := x.walkCache ++ es
        { x with walkCache := l.drop (l.length - 8192) })
      match r with
      | .noMapping => (s, some ⟨none, .noMapping, 0⟩)
      | .malformed p => (s, some ⟨none, .malformed, p⟩)
      | .leaf p level a =>
        let s := if 2 ^ 41 ≤ c.artBase then s else s.onceReads ((linePieces c.artBase 1024 false 10).map Prod.fst)
        let e := s.translationOf c asid vpn p level
        let ad := 2 ^ 6 + (if e.rights.w then 2 ^ 7 else 0)
        let p' := Nat.lor p ad
        let s := if p' = p then s else s.physWrite a (leBytes 8 p') false ⟨8 + m.val, by omega⟩
        (s.tcPut die e, some ⟨some e, .none, p'⟩)

/-- A translation answers every stream it covers, at its page and at every pending page that it contains (R457, R460). -/
def Dev.answerMisses (s : Dev) (die : Die) (e : TcEntry) : Dev :=
  let inside (o : MissEntry) : Bool := o.die = die && o.asid = e.asid && e.vpn ≤ o.vpn && o.vpn < e.vpn + e.pages
  let answered (o : MissEntry) : MissEntry :=
    if inside o then
      { o with streams := o.streams.filter (fun w => !e.rights.covers w.rights), pf := if e.rights.r then [] else o.pf }
    else o
  s.modXl (fun x => { x with misses := (x.misses.map answered).filter (fun o => !(inside o && o.streams.isEmpty && o.pf.isEmpty)) })

/-- The pages of an access that a die has no translation with the right for are walked without any page request (R111, R347): a page that is
pending already is waited for, and so is a miss entry while all 64 are in use (R457, R458). -/
def Dev.probePages (s : Dev) (p : Port) (want : Rights) : List (Nat × Nat) → Dev × Fetch Unit
  | [] => (s, .ok ())
  | (va, _) :: rest =>
    if vaError va ≠ 0 then (s, .fail 4 va)
    else if (s.tcHit p.die p.asid (va / 4096) want).isSome then s.probePages p want rest
    else if s.xl.misses.any (fun e => e.die = p.die && e.asid = p.asid && e.vpn = va / 4096) then (s, .wait)
    else if 64 ≤ (s.xl.misses.filter (fun e => e.die = p.die)).length then (s.bump 1 0x103 p.die.val 1, .wait)
    else match (s.bump 1 0x101 p.die.val 1).walk p.die p.asid (va / 4096) with
      | (s, some ⟨some e, _, _⟩) =>
        let s := s.answerMisses p.die e
        if e.rights.covers want then s.probePages p want rest else (s, .fail 4 va)
      | (s, _) => (s, .fail 4 va)

/-- A read that walks for itself and raises no page request: it fails where it meets no mapping, no right, an access error or poison. -/
def Dev.probeRead (s : Dev) (p : Port) (va n : Nat) : Dev × Fetch (List Byte) :=
  match s.probePages p wantRead (pagePieces va n (n / 4096 + 2)) with
  | (s, .ok ()) => s.readVa p va n
  | (s, .wait) => (s, .wait)
  | (s, .fail r a) => (s, .fail r a)

end Sys2Proof.Machine
end

