-- ==== Sys2Proof/Machine/Operands.lean ====
section
/-! DEFINITION. Machine/Operands.lean: the fields of a command-stream instruction, descriptors, element addresses, and the reads and
writes of tensor elements (R114 to R118, R154 to R163, R57, R58, R91). -/

namespace Sys2Proof.Machine

/-- Fields of an instruction (R114). -/
def iOpcode (w : BitVec 256) : Nat := bits w.toNat 255 248
def iSigAlways (w : BitVec 256) : Bool := bit w.toNat 247
def iFence (w : BitVec 256) : Bool := bit w.toNat 246
def iStop (w : BitVec 256) : Bool := bit w.toNat 245
/-- The step bit of handle i (R114, R119). -/
def iStep (w : BitVec 256) (i : Nat) : Bool := bit w.toNat (241 + i)
def iWait0 (w : BitVec 256) : Nat := bits w.toNat 239 184
def iWait1 (w : BitVec 256) : Nat := bits w.toNat 183 128
def iSignal (w : BitVec 256) : Nat := bits w.toNat 127 80
def iParam (w : BitVec 256) : Nat := bits w.toNat 79 64
/-- Handle i as the instruction holds it, before its step. -/
def iHandle (w : BitVec 256) (i : Nat) : Nat := bits w.toNat (16 * i + 15) (16 * i)

/-- A wait field's subfields (R115). -/
def waitKind (f : Nat) : Nat := bits f 55 53
def waitDie (f : Nat) : Nat := bits f 52 48
def waitIndex (f : Nat) : Nat := bits f 47 38
def waitValue (f : Nat) : Nat := bits f 31 0
def waitOffset (f : Nat) : Nat := bits f 47 0

/-- A signal field's subfields (R116). -/
def sigKind (f : Nat) : Nat := bits f 47 45
def sigDie (f : Nat) : Nat := bits f 44 40
def sigIndex (f : Nat) : Nat := bits f 39 30
def sigAdd (f : Nat) : Nat := bits f 15 0

/-- Whether a wait field has a valid encoding (R115, R117). -/
def waitValid (f : Nat) : Bool :=
  match waitKind f with
  | 0 => f = 0
  | 1 | 2 => waitDie f < 20 && waitIndex f < 512 && bits f 37 0 = 0
  | 3 => waitDie f < 20 && waitIndex f < 128 && bits f 37 32 = 0
  | 4 => waitDie f = 0 && bits f 37 32 = 0
  | 5 => waitDie f = 0
  | _ => false

/-- Whether a signal field has a valid encoding (R116, R117). -/
def sigValid (f : Nat) : Bool :=
  match sigKind f with
  | 0 => f = 0
  | 1 | 2 => sigDie f < 20 && sigIndex f < 512 && bits f 29 0 = 0
  | 3 => sigDie f < 20 && sigIndex f < 128 && bits f 29 16 = 0
  | 4 => sigDie f = 0 && bits f 29 16 = 0
  | _ => false

/-- Which handles an opcode uses, none where the opcode is reserved (R120). -/
def handleRoles : Nat → Option (List Bool)
  | 0x00 | 0x02 | 0x03 | 0x04 | 0x07 => some [false, false, false, false]
  | 0x01 => some [true, true, false, false]
  | 0x05 | 0x06 => some [true, true, true, true]
  | 0x10 | 0x11 | 0x12 | 0x20 => some [true, true, true, true]
  | 0x21 => some [true, false, true, true]
  | 0x30 => some [true, true, true, true]
  | 0x40 | 0x42 => some [true, false, false, false]
  | 0x41 | 0x70 => some [true, false, true, false]
  | 0x43 => some [false, false, true, false]
  | 0x50 | 0x51 | 0x52 | 0x53 | 0x54 | 0x55 => some [true, true, true, true]
  | 0x60 | 0x61 | 0x62 | 0x63 | 0x64 | 0x65 => some [true, false, true, true]
  | _ => none

/-- The param bits that an opcode's role leaves it (R120); the bits of PREFETCH and the relay opcodes are checked when they begin. -/
def paramValid (opcode param : Nat) : Bool :=
  match opcode with
  | 0x01 => param < 4
  | 0x03 | 0x05 => param < 2
  | 0x04 => param < 16
  | 0x06 => param < 4
  | 0x40 | 0x42 | 0x43 | 0x50 | 0x51 | 0x52 | 0x53 | 0x54 | 0x55 => true
  | _ => param = 0

/-- Handle i with the step of R119 applied. -/
def stepped (w : BitVec 256) (loopIndex i : Nat) : Nat := iHandle w i + (if iStep w i then loopIndex else 0)

/-- The further operand checks of LOOP and SYNC, on stepped values (R143, R153). -/
def controlOperandsValid (opcode param h0 h1 : Nat) : Bool :=
  match opcode with
  | 0x01 =>
    if param = 0 then h1 < 256
    else h1 = 0 && (if param = 1 then h0 < 128 else if param = 2 then h0 < 1024 else true)
  | 0x06 =>
    if param = 3 then h0 = 0 && h1 < 1024
    else h0 < 20 && (if param = 2 then h1 < 128 else h1 < 512)
  | _ => true

/-- Whether an instruction has a valid encoding, the innermost loop index given (R117). -/
def encodingValid (w : BitVec 256) (loopIndex : Nat) : Bool :=
  match handleRoles (iOpcode w) with
  | none => false
  | some roles =>
    !bit w.toNat 240 && waitValid (iWait0 w) && waitValid (iWait1 w) && sigValid (iSignal w) && paramValid (iOpcode w) (iParam w)
      && (List.range 4).all (fun i => (roles.getD i false || (iHandle w i = 0 && !iStep w i)) && stepped w loopIndex i ≤ 65535)
      && controlOperandsValid (iOpcode w) (iParam w) (stepped w loopIndex 0) (stepped w loopIndex 1)

/-- The bits of a byte buffer, a program and a parameter block that must be zero (R160). -/
def bytesReserved (b : Nat) : Bool := bits b 511 192 = 0 && bits b 123 96 = 0 && bits b 91 64 = 0
def programReserved (b : Nat) : Bool := bits b 511 200 = 0 && bits b 119 64 = 0

/-- The kind of a descriptor (R156). -/
def descKind (b : Nat) : Nat := bits b 127 124

/-- A byte buffer (R160), its cache hint one of R155. -/
def parseBytes (b : Nat) : Option ByteBuf :=
  if descKind b = 4 && bytesReserved b && bits b 95 92 < 3 then some ⟨bits b 63 0, bits b 191 128, bits b 95 92⟩ else none

/-- A program descriptor: type, region, base and length (R160). -/
def parseProgram (b : Nat) : Option (Nat × Nat × Nat × Nat) :=
  if descKind b = 3 && programReserved b && bits b 123 120 < 2 then
    some (bits b 123 120, bits b 199 192, bits b 63 0, bits b 191 128) else none

/-- A parameter block of a layout code (R160). -/
def parseParams (b layout : Nat) : Option Nat := if descKind b = 2 && bits b 123 112 = layout then some b else none

/-- The extents and strides of a tensor descriptor. -/
def descExtents (b rank : Nat) : List Nat := (List.range rank).map (fun i => bits b (151 + 24 * i) (128 + 24 * i))
def descStrides (b rank : Nat) : List Nat := (List.range (rank - 1)).map (fun i => bits b (319 + 32 * i) (288 + 32 * i))

/-- A tensor descriptor by the checks of R161 that its own bits decide; its scale tensor, if it has one, is read apart. A reserved code of
hint or round is refused as a reserved field is (log entry 79). -/
def parseTensor (b : Nat) : Option Tensor :=
  let rank := bits b 119 117
  match Fmt.ofCode (bits b 123 120) with
  | none => none
  | some f =>
    let acc := f = .a80 || f = .a128 || f = .int8 || f = .int32
    let sr := bits b 115 114
    if descKind b = 1 && 1 ≤ rank && rank ≤ 6 && bits b 287 272 = 0 && !bit b 113 && bits b 91 64 = 0 && bits b 95 92 < 3
        && bits b 63 0 % 16 = 0 && sr < 2 && !(sr = 1 && acc)
        && (List.range 6).all (fun i => i < rank || bits b (151 + 24 * i) (128 + 24 * i) = 0)
        && (List.range 5).all (fun i => i + 1 < rank || bits b (319 + 32 * i) (288 + 32 * i) = 0)
        && (if f.isMx then bit b 112 else !bit b 112 && bits b 111 96 = 0) then
      some { base := bits b 63 0, fmt := f, exts := descExtents b rank, strides := descStrides b rank,
             round := ⟨sr = 1, bit b 116, bits b 511 448⟩, hint := bits b 95 92,
             scale := if f.isMx then some (bits b 111 96, []) else none }
    else none

/-- Whether a tensor is the scale tensor of an MX tensor (R159). -/
def scaleFits (t sc : Tensor) : Bool :=
  sc.fmt = .e8m0 && sc.exts.length = t.exts.length && sc.exts.headD 0 = (t.exts.headD 0 + 31) / 32 && sc.exts.tail = t.exts.tail

/-- The dot of coordinates and strides. -/
def strideSum : List Nat → List Nat → Nat
  | c :: cs, st :: sts => c * st + strideSum cs sts
  | _, _ => 0

/-- The byte address of an element (R158). -/
def Tensor.addr (t : Tensor) (c : List Nat) : Nat := t.base + c.headD 0 * t.fmt.bits / 8 + 16 * strideSum c.tail t.strides

/-- The bit within its first byte at which an element begins (R58). -/
def Tensor.bitOff (t : Tensor) (c : List Nat) : Nat := c.headD 0 * t.fmt.bits % 8

/-- The bytes an element's bits touch. -/
def Tensor.bytesOf (t : Tensor) (c : List Nat) : Nat := (t.bitOff c + t.fmt.bits + 7) / 8

/-- The address of an element's scale (R159). -/
def Tensor.scaleAddr (t : Tensor) (c : List Nat) : Nat :=
  match t.scale with
  | some (b, st) => b + c.headD 0 / 32 + 16 * strideSum c.tail st
  | none => 0

/-- The linear index of a coordinate in a shape (R91). -/
def linearIdx : List Nat → List Nat → Nat
  | c :: cs, n :: ns => c + n * linearIdx cs ns
  | _, _ => 0

/-- The coordinate of a linear index in a shape (R91). -/
def coordOf : List Nat → Nat → List Nat
  | [], _ => []
  | n :: ns, i => i % n :: coordOf ns (i / n)

/-- The number of elements of a shape. -/
def shapeSize (e : List Nat) : Nat := e.foldl (· * ·) 1

/-- The byte range of a tensor: from its base past the last byte of its highest element (R162). One with an extent of zero has no element,
and an empty range (log entry 79). -/
def Tensor.range (t : Tensor) : Nat × Nat :=
  let last := t.exts.map (· - 1)
  if shapeSize t.exts = 0 then (t.base, t.base)
  else (t.base, t.addr last + t.bytesOf last)

/-- The byte range of a scale tensor, if a tensor has one. -/
def Tensor.scaleRange (t : Tensor) : Option (Nat × Nat) :=
  t.scale.map (fun s => (s.1, if shapeSize t.exts = 0 then s.1 else t.scaleAddr (t.exts.map (· - 1)) + 1))

/-- The byte ranges a tensor takes up (R162). -/
def Tensor.ranges (t : Tensor) : List (Nat × Nat) := t.range :: t.scaleRange.toList
/-- The byte range of a byte buffer (R162). -/
def ByteBuf.range (b : ByteBuf) : Nat × Nat := (b.base, b.base + b.len)

/-- Whether two lists of byte ranges intersect. -/
def rangesMeet (a b : List (Nat × Nat)) : Bool := a.any (fun x => b.any (fun y => x.1 < y.2 && y.1 < x.2 && x.1 < x.2 && y.1 < y.2))

/-- The code of an element from the bytes its bits touch. -/
def codeFrom (f : Fmt) (bitOff : Nat) (bytes : List Byte) : Nat := leNat bytes / 2 ^ bitOff % 2 ^ f.bits

/-- Read runs of bytes, all translated before any is read; what the port reads once is not read again (R161, R223, R244). -/
def Dev.readRuns (s : Dev) (p : Port) (runs : List (Nat × Nat)) : Dev × Fetch (List (List Byte) × Bool) :=
  match s.keptRead p runs with
  | some r => (s, .ok (r.data, r.realm))
  | none =>
    match s.translateAll p wantRead (runs.flatMap (fun r => pagePieces r.1 r.2 (r.2 / 4096 + 2))) with
    | (s, .ok ps) =>
      match s.readPieces p ps with
      | (s, .ok all) =>
        let cut := (runs.foldl (fun (acc : List (List Byte) × List Byte) r => (acc.1 ++ [acc.2.take r.2], acc.2.drop r.2)) ([], all)).1
        ((s.countHits p ps).keepRead p runs cut (ps.any (fun x => x.realm)), .ok (cut, ps.any (fun x => x.realm)))
      | (s, .wait) => (s, .wait)
      | (s, .fail r a) => (s, .fail r a)
    | (s, .wait) => (s, .wait)
    | (s, .fail r a) => (s, .fail r a)

/-- What an operation has read through streams that go on to something else is kept no longer (R244). -/
def Dev.forgetReads (s : Dev) (slot : SlotId) (gone : Nat → Bool) : Dev :=
  s.modOp slot (fun o => if o.kept.isEmpty then o else { o with kept := o.kept.filter (fun r => !gone r.stream) })

/-- Read the element codes of a tensor at a list of coordinates. -/
def Dev.readCodes (s : Dev) (p : Port) (t : Tensor) (cs : List (List Nat)) : Dev × Fetch (List Nat × Bool) :=
  match s.readRuns { p with hint := t.hint } (cs.map (fun c => (t.addr c, t.bytesOf c))) with
  | (s, .ok (bs, rf)) => (s, .ok ((cs.zip bs).map (fun x => codeFrom t.fmt (t.bitOff x.1) x.2), rf))
  | (s, .wait) => (s, .wait)
  | (s, .fail r a) => (s, .fail r a)

/-- Read the scale codes of an MX tensor at a list of coordinates; 127 for any other tensor. -/
def Dev.readScales (s : Dev) (p : Port) (t : Tensor) (cs : List (List Nat)) : Dev × Fetch (List Nat) :=
  match t.scale with
  | none => (s, .ok (cs.map (fun _ => 127)))
  | some _ =>
    match s.readRuns { p with hint := t.scaleHint } (cs.map (fun c => (t.scaleAddr c, 1))) with
    | (s, .ok (bs, _)) => (s, .ok (bs.map leNat))
    | (s, .wait) => (s, .wait)
    | (s, .fail r a) => (s, .fail r a)

/-- Go on with fetched data. -/
def Fetch.andThen {α β : Type} (r : Dev × Fetch α) (f : Dev → α → Dev × Fetch β) : Dev × Fetch β :=
  match r with
  | (s, .ok a) => f s a
  | (s, .wait) => (s, .wait)
  | (s, .fail c a) => (s, .fail c a)

/-- Two fetches beside one another: the second asks for its translations even while the first waits (R330, R456); one that has all it
needs then is made again. -/
def Fetch.both {α β : Type} (r : Dev × Fetch α) (f : Dev → Dev × Fetch β) : Dev × Fetch (α × β) :=
  match r with
  | (s, .ok a) => Fetch.andThen (f s) fun s b => (s, .ok (a, b))
  | (s, .wait) =>
    match f s with
    | (_, .ok _) => (s, .wait)
    | (s, .wait) => (s, .wait)
    | (s, .fail c a) => (s, .fail c a)
  | (s, .fail c a) => (s, .fail c a)

/-- Read elements as values with the number of elements flushed in, 0 or 1 for each (R63 to R66), scales through a port of their own:
the two streams wait beside one another (R330). -/
def Dev.readValsS (s : Dev) (p ps : Port) (t : Tensor) (cs : List (List Nat)) : Dev × Fetch (List (Val × Nat)) :=
  Fetch.andThen (Fetch.both (s.readCodes p t cs) (fun s => s.readScales ps t cs)) fun s v =>
    (s, .ok ((v.1.1.zip v.2).map (fun x => decode t.fmt x.1 x.2)))

/-- Read elements as values, elements and scales through one port. -/
def Dev.readVals (s : Dev) (p : Port) (t : Tensor) (cs : List (List Nat)) : Dev × Fetch (List (Val × Nat)) := s.readValsS p p t cs

/-- Read a descriptor's 512 bits (R154); an address space without a usable context fails (R439). -/
def Dev.readDesc (s : Dev) (p : Port) (handle : Nat) : Dev × Fetch Nat :=
  match s.ctx (mmuOf p.die) p.asid with
  | none => (s, .fail 4 0)
  | some c =>
    match (s.ctxFill (mmuOf p.die) p.asid).readVa p (c.dtBase + 64 * handle) 64 with
    | (s, .ok d) => (s, .ok (leNat d))
    | (s, .wait) => (s, .wait)
    | (s, .fail r a) => (s, .fail r a)

/-- What a handle names for its role: nothing yet (wait), a failure of its read, an invalid descriptor (reason 0x02), or a value. -/
inductive Named (α : Type) where
  | ok (a : α)
  | wait
  | fail (reason va : Nat)
  | invalid
  deriving DecidableEq, Repr

/-- A descriptor read and parsed for its role. -/
def Dev.named {α : Type} (s : Dev) (p : Port) (handle : Nat) (parse : Nat → Option α) : Dev × Named α :=
  if handle = 0 then (s, .invalid)
  else match s.readDesc p handle with
    | (s, .ok b) => match parse b with
      | some a => (s, .ok a)
      | none => (s, .invalid)
    | (s, .wait) => (s, .wait)
    | (s, .fail r a) => (s, .fail r a)

/-- Go on with a value, or end with the wait, failure or invalidity that took its place. -/
def Named.andThen {α β : Type} (r : Dev × Named α) (f : Dev → α → Dev × Named β) : Dev × Named β :=
  match r with
  | (s, .ok a) => f s a
  | (s, .wait) => (s, .wait)
  | (s, .fail c a) => (s, .fail c a)
  | (s, .invalid) => (s, .invalid)

/-- A tensor with the scale tensor that its descriptor names, if it names one (R159, R161). -/
def Dev.withScale (s : Dev) (p : Port) (t : Tensor) : Dev × Named Tensor :=
  match t.scale with
  | none => (s, .ok t)
  | some (h, _) =>
    Named.andThen (s.named p h parseTensor) fun s sc =>
      if scaleFits t sc then (s, .ok { t with scale := some (sc.base, sc.strides), scaleHint := sc.hint }) else (s, .invalid)

/-- A tensor descriptor with its scale tensor (R155, R159, R161). A base in the upper half faults where the operation's engine
reaches it (R49). -/
def Dev.namedTensor (s : Dev) (p : Port) (handle : Nat) : Dev × Named Tensor :=
  Named.andThen (s.named p handle parseTensor) fun s t => s.withScale p t

/-- A byte-buffer descriptor (R160). -/
def Dev.namedBytes (s : Dev) (p : Port) (handle : Nat) : Dev × Named ByteBuf := s.named p handle parseBytes

/-- A fetch as a named value. -/
def Fetch.toNamed {α : Type} (r : Dev × Fetch α) : Dev × Named α :=
  match r with
  | (s, .ok a) => (s, .ok a)
  | (s, .wait) => (s, .wait)
  | (s, .fail c a) => (s, .fail c a)

/-- Bytes whose bits [lo, lo + n) take a code, the rest kept: the merge of a partly written byte (R58, R415). -/
def mergeCode (old : List Byte) (bitOff n code : Nat) : List Byte :=
  let v := leNat old
  let keepHi := v / 2 ^ (bitOff + n) * 2 ^ (bitOff + n)
  leBytes old.length (keepHi + code % 2 ^ n * 2 ^ bitOff + v % 2 ^ bitOff)

/-- Pack element codes densely from bit 0 (R58). -/
def packCodes (n : Nat) (codes : List Nat) : Nat := codes.foldr (fun c acc => c % 2 ^ n + 2 ^ n * acc) 0

/-- The dense bytes of element codes. -/
def packBytes (n : Nat) (codes : List Nat) : List Byte := leBytes ((codes.length * n + 7) / 8) (packCodes n codes)

end Sys2Proof.Machine
end

