-- ==== Sys2Proof/Machine/Flags.lean ====
section
/-! DEFINITION. Machine/Flags.lean: die flags, die and package counters, wait conditions and their latches, and what a signal does
(R115, R116, R125 to R131, R139, R383). -/

namespace Sys2Proof.Machine

/-- Whether a wait condition holds now (R126). -/
def Dev.waitHolds (s : Dev) (tref : U64) (f : Nat) : Bool :=
  match waitKind f with
  | 0 => true
  | 1 => s.flag (waitDie f) (waitIndex f)
  | 2 => !s.flag (waitDie f) (waitIndex f)
  | 3 => (s.counter (waitDie f) (waitIndex f) - BitVec.ofNat 32 (waitValue f)).toNat < 2 ^ 31
  | 4 => (s.pcounter (waitIndex f) - BitVec.ofNat 32 (waitValue f)).toNat < 2 ^ 31
  | 5 => tref.toNat + waitOffset f ≤ s.now.toNat
  | _ => false

/-- Whether an instruction is a BREAK that tests wait0 at the moment wait1 holds (R148). -/
def isTestedBreak (w : BitVec 256) : Bool := iOpcode w = 3 && bit (iParam w) 0

/-- Latch the waits of the instruction at a queue's head that hold now (R125); a conditional BREAK tests wait0 once, at the moment
wait1 holds (R148). -/
def Dev.latchedQueue (s : Dev) (x : Queue) : Queue :=
  match x.fetched with
  | none => x
  | some w =>
    if x.state ≠ .running then x
    else
      let h0 := s.waitHolds x.tref (iWait0 w)
      let h1 := s.waitHolds x.tref (iWait1 w)
      if isTestedBreak w then
        (if x.wait1 then x else if h1 then { x with wait0 := true, wait1 := true, brkLatch := h0 } else x)
      else { x with wait0 := x.wait0 || h0, wait1 := x.wait1 || h1 }

/-- Latch the waits of one queue. -/
def Dev.latch (s : Dev) (q : QueueId) : Dev := s.modQueue q s.latchedQueue

/-- Latch every wait that now holds at the head of a queue (R125). A detached queue holds no instruction. -/
def Dev.latchAll (s : Dev) : Dev :=
  s.cmd.queues.foldl (fun s e => if h : e.1 < 2048 then s.latch ⟨e.1, h⟩ else s) s

/-- The nanoseconds that pass while a packet of a link waits for credit are counted: a packet in the transmit queue of a link that is up,
whose class has none (R427, R428, R562). -/
def Dev.countStalls (s : Dev) (ns : Nat) : Dev :=
  s.fab.links.toList.zipIdx.foldl (fun s e =>
    if e.1.queue.all (fun p => e.1.credits.getD p.tc.toNat 0 ≠ 0) || s.objAt 0x0A 0x100 e.2 ≠ 2 then s else s.bump 0x0A 0x300 e.2 ns) s

/-- Package time moves on to the time of a timed event, and the waits for it are latched (R125, R126). -/
def Dev.advance (s : Dev) (t : U64) : Dev := ((s.setNow t).countStalls ((s.setNow t).now.toNat - s.now.toNat)).latchAll

/-- Every write-combining line that holds a write of the agents given drains (R383, R384). -/
def Dev.drainWcbOf (s : Dev) (mine : Nat → Bool) : Dev :=
  (List.finRange 4).foldl (fun s h =>
    (present (s.hub h).wcb).foldl (fun s e => if e.2.writers.any mine then s.wcbDrain e.1 none 0x111 else s) s) s

/-- The agents whose writes a signal of a queue orders (R129, R383): the chain engines of the mills it names, the sheaf processors of its
mask, its stream engine's write side, its service channel or its collective channel; and, for a write-push that names its die alone, every agent
of the die. -/
def Dev.queueWriter (s : Dev) (q : QueueId) (w : Nat) : Bool :=
  let x := s.queue q
  let st := w % 256
  w / 256 = (homeDie q).val &&
    (st = 255 || match queueClass q with
    | 1 => st = 0xBD || (0x30 ≤ st && st < 0x3C && bit x.unit.toNat (st - 0x30))
        || (0x3C ≤ st && st < 0xBC && bit x.sheafMask.toNat ((st - 0x3C) / 4))
    | 2 => st = 0xF1 || st = x.unit.toNat % 256
    | _ => st < 0x40)

/-- Set or clear a die flag, and latch the waits that it lets hold (R127, R125). -/
def Dev.updateFlag (s : Dev) (d i : Nat) (v : Bool) : Dev := (s.setFlag d i v).latchAll
/-- Set a die counter (R127). -/
def Dev.updateCounter (s : Dev) (d i : Nat) (v : U32) : Dev := (s.setCounter d i v).latchAll
/-- Add to a die counter modulo 2^32 (R127). -/
def Dev.addCounter (s : Dev) (d i : Nat) (v : U32) : Dev := s.updateCounter d i (s.counter d i + v)
/-- Set a package counter. -/
def Dev.updatePcounter (s : Dev) (c : Nat) (v : U32) : Dev := (s.setPcounter c v).latchAll
/-- Add to a package counter modulo 2^32. -/
def Dev.addPcounter (s : Dev) (c : Nat) (v : U32) : Dev := s.updatePcounter c (s.pcounter c + v)

/-- The effect of a signal by its kind (R116), or of a SYNC's update by its action (R153). -/
def Dev.performSignal (s : Dev) (g : PendingSignal) : Dev :=
  if g.sync then
    match g.kind with
    | 0 => s.updateFlag g.die g.index true
    | 1 => s.updateFlag g.die g.index false
    | 2 => s.updateCounter g.die g.index (BitVec.ofNat 32 g.add)
    | _ => s.updatePcounter g.index (BitVec.ofNat 32 g.add)
  else
    match g.kind with
    | 1 => s.updateFlag g.die g.index true
    | 2 => s.updateFlag g.die g.index false
    | 3 => s.addCounter g.die g.index (BitVec.ofNat 32 g.add)
    | 4 => s.addPcounter g.index (BitVec.ofNat 32 g.add)
    | _ => s

/-- The signal of an instruction as it waits to be performed; none for kind 0 (R116). -/
def signalOf (w : BitVec 256) (afterOrdinal : Nat) (ready : Bool) : List PendingSignal :=
  let f := iSignal w
  if sigKind f = 0 then []
  else [{ kind := sigKind f, die := sigDie f, index := sigIndex f, add := sigAdd f, afterOrdinal := afterOrdinal, ready := ready }]

/-- A core's access to a flag word (R746): the new flag value if it sets one, and the reply. -/
def flagAccess (old : Bool) (a : CoreAccess) : Option Bool × Reply :=
  let o := b2n old
  let loaded : U64 := BitVec.ofNat 64 (o / 256 ^ a.off.val % 256 ^ a.size)
  let byte0 := a.off.val = 0
  let amo (r : Nat) : Option Bool × Reply := (if byte0 then some (r % 2 == 1) else none, .value (if byte0 then BitVec.ofNat 64 o else 0))
  let v := a.value.toNat
  let sg (n : Nat) : Int := signedOf (8 * a.size) n
  match a.op with
  | .load => (none, .value loaded)
  | .store => (if byte0 then some (v % 2 == 1) else none, .value 0)
  | .amoSwap => amo v
  | .amoAdd => amo (o + v)
  | .amoAnd => amo (Nat.land o v)
  | .amoOr => amo (Nat.lor o v)
  | .amoXor => amo (Nat.xor o v)
  | .amoMin => amo (if sg v < sg o then v else o)
  | .amoMax => amo (if sg o < sg v then v else o)
  | .amoMinu => amo (if v % 256 ^ a.size < o then v else o)
  | .amoMaxu => amo (if o < v % 256 ^ a.size then v else o)
  | .lr | .sc => (none, .accessError)

/-- A core's access to a counter word (R746): the new counter value if it sets one, and the reply. -/
def counterAccess (old : U32) (a : CoreAccess) : Option U32 × Reply :=
  match a.op with
  | .load => (none, .value (BitVec.ofNat 64 (old.toNat / 256 ^ a.off.val % 256 ^ a.size)))
  | .store =>
    if a.off.val = 0 && (a.size = 4 || a.size = 8) then (some (BitVec.ofNat 32 a.value.toNat), .value 0) else (none, .accessError)
  | .amoAdd =>
    if a.off.val = 0 && (a.size = 4 || a.size = 8) then (some (old + BitVec.ofNat 32 a.value.toNat), .value (BitVec.ofNat 64 old.toNat))
    else (none, .accessError)
  | _ => (none, .accessError)

/-- The value of a counter that cores and signals reach. -/
def Dev.counterOf (s : Dev) : CounterRef → U32
  | .die d i => s.counter d.val i.val
  | .package c => s.pcounter c.val

/-- Set a counter that cores and signals reach. -/
def Dev.updateCounterOf (s : Dev) (c : CounterRef) (v : U32) : Dev :=
  match c with
  | .die d i => s.updateCounter d.val i.val v
  | .package c => s.updatePcounter c.val v

end Sys2Proof.Machine
end

