-- ==== Sys2Proof/Machine/Journal.lean ====
section
/-! DEFINITION. Machine/Journal.lean: journal slots and entries, program-region binds, how a queue ceases to issue and settles, and
how an operation ends (R113, R124, R133 to R138, R164 to R181, R748, R750). -/

namespace Sys2Proof.Machine

/-- The lowest journal slot not in a list, tried from k on. -/
def lowestFree (l : List SlotId) : Nat → Nat → Option SlotId
  | 0, _ => none
  | n + 1, k => if h : k < 4096 then (if l.contains ⟨k, h⟩ then lowestFree l n (k + 1) else some ⟨k, h⟩) else none

/-- The iteration index of a queue's innermost running loop, 0 outside any (R119). -/
def Queue.loopIndex (x : Queue) : Nat := (x.loops.head?.map LoopLevel.index).getD 0

/-- The handles of an instruction with its steps applied. -/
def Queue.handles (x : Queue) (w : BitVec 256) : List Nat := (List.range 4).map (stepped w x.loopIndex)

/-- The entry a slot is written with at allocation (R179): the fields fixed at issue. -/
def newEntry (q : QueueId) (x : Queue) (w : BitVec 256) : Entry :=
  { index := x.head, ordinal := x.issued + 1, queue := q, opcode := BitVec.ofNat 8 (iOpcode w), phase := x.phase }

/-- The job slot a queue is bound to, 64 for none (R635, R652). -/
def Dev.jobOf (s : Dev) (q : QueueId) : Nat :=
  let v := s.objAt 0x0B (0x400 + q.val / 256) (q.val % 256)
  if v < 64 then v else 64

/-- Allocate a journal slot to the instruction at a queue's head (R124, R171, R179). -/
def Dev.giveSlot (s : Dev) (q : QueueId) (slot : SlotId) : Dev :=
  let x := s.queue q
  match x.fetched with
  | none => s
  | some w =>
    let s := s.modJournal (fun j => { j with
      allocated := j.allocated ++ [slot], entries := Table.set none j.entries slot.val (some { newEntry q x w with job := s.jobOf q }) })
    s.setQueue q { x with slot := some slot, slotWait := false }

/-- The other queues that wait for a slot, ahead of a queue in the round robin of R172. -/
def Dev.slotAhead (s : Dev) (q : QueueId) : List Nat :=
  let key (n : Nat) : Nat := (n + 2047 - s.cmd.journal.lastQueue) % 2048
  (s.cmd.queues.filter (fun e => e.1 ≠ q.val && e.2.slotWait && e.2.state = .running && (!(s.queue q).slotWait || key e.1 < key q.val))).map Prod.fst

/-- An issue attempt asks for a slot: one is given where those that wait ahead of the queue leave one free, or the head waits and is
counted, once for each wait (R172). -/
def Dev.askSlot (s : Dev) (q : QueueId) : Dev :=
  if (s.queue q).slot.isSome then s
  else match lowestFree s.cmd.journal.allocated 4096 0, decide ((s.slotAhead q).length < s.cmd.journal.freeSlots) with
    | some slot, true =>
      (s.giveSlot q slot).modJournal (fun j => if (s.queue q).slotWait then { j with lastQueue := q.val } else j)
    | _, _ =>
      if (s.queue q).slotWait then s
      else (s.modJournal (fun j => { j with fullStalls := j.fullStalls + 1 })).modQueue q (fun x => { x with slotWait := true })

/-- Free a slot without a completion record (R750). The entry of a slot that is not allocated reads 0 (DESIGN CHOICE, log entry 80). -/
def Dev.freeSlot (s : Dev) (slot : SlotId) : Dev :=
  s.modJournal (fun j => { j with
    allocated := j.allocated.filter (· ≠ slot), terminal := j.terminal.filter (· ≠ slot),
    entries := Table.set none j.entries slot.val none })

/-- The operations of a queue that have issued and not ended. -/
def Dev.running (s : Dev) (q : QueueId) : List Operation := s.cmd.ops.filter (fun o => o.queue = q)

/-- The operations of a queue that issued before the one of a slot: operations stand in issue order (R133). -/
def Dev.earlier (s : Dev) (q : QueueId) (slot : SlotId) : List Operation := (s.running q).takeWhile (fun o => o.slot ≠ slot)

/-- What a queue that ceases to issue does with the instruction at its head (R750): its latched waits are discarded, its slot freed. One
that has ended without being performed and waits for its slot is dropped with its outcome, and head still names it (log entry 80). -/
def Dev.dropHead (s : Dev) (q : QueueId) : Dev :=
  let x := s.queue q
  let s := match x.slot with
    | some slot => if x.endUnperformed.isNone then s.freeSlot slot else s
    | none => s
  s.setQueue q { x with fetched := none, wait0 := false, wait1 := false, brkLatch := false, slot := none, slotWait := false, endUnperformed := none }

/-- Once no issued operation of a draining queue is running it goes to idle, or to stopped with its reason (R108, R136 to R138). -/
def Dev.settle (s : Dev) (q : QueueId) : Dev :=
  let x := s.queue q
  if x.state = .draining && (s.running q).isEmpty && x.endUnperformed.isNone then
    if x.stopping then s.setQueue q { x with state := .stopped, reason := x.stopReason, stopping := false, failStop := false, abortedQ := false, stopReason := 0 }
    else s.setQueue q { x with state := .idle, abortedQ := false }
  else s

/-- A queue issues nothing further (R136, R137). The reason of the first operation that ends other than complete stands before any
other; an abort's reason 0x07 stands before all (R108). -/
def Dev.cease (s : Dev) (q : QueueId) (reason : Nat) (failing : Bool) : Dev :=
  let x := s.queue q
  if x.state = .running || x.state = .draining then
    let s := s.dropHead q
    let x := s.queue q
    let x := if x.state = .draining && (x.abortedQ || x.failStop || (x.stopping && !failing)) then { x with stopping := true }
      else { x with stopping := true, abortedQ := false, failStop := failing, stopReason := BitVec.ofNat 8 reason }
    (s.setQueue q { x with state := .draining }).settle q
  else s

/-- The number of binds of a program region (R748). -/
def Dev.binds (s : Dev) (asid region : Nat) : Nat := Table.get 0 s.cmd.binds (asid * 256 + region)

/-- Set the number of binds. -/
def Dev.setBinds (s : Dev) (asid region n : Nat) : Dev :=
  { s with cmd := { s.cmd with binds := Table.set 0 s.cmd.binds (asid * 256 + region) n } }

/-- Invalidate, on every die, the translations that satisfy p, counted for their die (R166, R472). -/
def Dev.dropTranslations (s : Dev) (p : TcEntry → Bool) : Dev :=
  (List.finRange 20).foldl (fun (s : Dev) (d : Die) =>
    let l := s.xl.tcs[d]
    let n := (l.filter p).length
    if n = 0 then s
    else (s.bump 1 0x105 d.val n).modXl (fun x => { x with tcs := x.tcs.set d (l.filter (fun e => !p e)) d.isLt })) s

/-- Unbind a program region; at 0 binds it unseals (R165, R169). -/
def Dev.unbind (s : Dev) (asid region : Nat) : Dev :=
  let n := s.binds asid region
  let s := s.setBinds asid region (n - 1)
  if n ≤ 1 then
    let gone := s.xl.sealed.filter (fun c => c.asid = asid && c.region = region)
    let inIt (y : CodeLine) : Bool := y.asid = asid && gone.any (fun c => c.base ≤ 128 * y.line && 128 * y.line < c.base + 4096 * c.pages)
    let s := s.modXl (fun x => { x with sealed := x.sealed.filter (fun c => !(c.asid = asid && c.region = region)) })
    { s with shf := { s.shf with code := (s.shf.code.map (fun e => (e.1, e.2.filter (fun y => !inIt y)))).filter (fun e => e.2 ≠ []) } }
  else s

/-- A buffer's program region is unbound (R165, R112). -/
def Dev.unbindBuffer (s : Dev) (q : QueueId) (b : Buffer) : Dev := s.unbind (s.queue q).asid.toNat b.region

/-- Another instruction is at head: nothing is latched for it yet (R123, R134). -/
def Dev.setHead (s : Dev) (q : QueueId) (head : Nat) : Dev :=
  s.modQueue q (fun x => { x with
    head := BitVec.ofNat 32 head, fetched := none, wait0 := false, wait1 := false, brkLatch := false, slot := none,
    slotWait := false, endUnperformed := none, headSince := s.now })

/-- The finished buffer of a queue is unbound (R112). -/
def Dev.finishBuffer (s : Dev) (q : QueueId) : Dev :=
  match (s.queue q).cur with
  | some b => s.unbindBuffer q b
  | none => s

/-- The finished buffer is unbound and the next of the submit list is taken (R112). -/
def Dev.nextBuffer (s : Dev) (q : QueueId) : Dev :=
  let x := s.queue q
  ((s.finishBuffer q).setQueue q { x with cur := x.submits.head?, submits := x.submits.tail }).setHead q 0

/-- The head moves on to another instruction of its buffer, or past the last to the next buffer; a buffer that ends inside a loop, or in
what a LOOP or BREAK skips, stops its queue, its loop stack as it stands (R112, R123, R150; log entry 80). -/
def Dev.moveHead (s : Dev) (q : QueueId) (head : Nat) : Dev :=
  let s := s.setHead q head
  let x := s.queue q
  if (x.cur.map Buffer.len).getD 0 ≤ head && x.cur.isSome then
    (if x.loops ≠ [] || x.skipDepth.isSome then (s.nextBuffer q).cease q 0xB false else s.nextBuffer q)
  else s

/-- The operation an instruction at head becomes, in the slot allocated to it. -/
def newOperation (q : QueueId) (x : Queue) (w : BitVec 256) (slot : SlotId) : Operation :=
  { queue := q, slot := slot, ordinal := (x.issued + 1).toNat, index := x.head.toNat, word := w, h := x.handles w, phase := x.phase }

/-- The signal of an operation waits for its end (R129, R130). -/
def pendingOf (w : BitVec 256) (ordinal : Nat) : List PendingSignal := signalOf w ordinal false

/-- The instruction at head issues in its slot: it takes the next ordinal, counts in issued, is of the job its queue is bound to now, and
leaves the head; one that was not performed, and a stop_after reached, make the queue cease to issue (R105, R124, R135, R136, R635). -/
def Dev.issueAs (s : Dev) (q : QueueId) (o : Operation) : Dev :=
  let x := s.queue q
  let s := s.modJournal (fun j => { j with
    entries := Table.set none j.entries o.slot.val ((Table.get none j.entries o.slot.val).map (fun e => { e with job := s.jobOf q })) })
  let s := { s with cmd := { s.cmd with
    ops := s.cmd.ops ++ [o], jobs := Table.set [] s.cmd.jobs o.slot.val (s.jobOf q :: Table.get [] s.cmd.jobs o.slot.val) } }
  let s := s.setQueue q { x with issued := x.issued + 1, signals := x.signals ++ pendingOf o.word o.ordinal }
  let s := s.moveHead q (x.head.toNat + 1)
  let s := if o.status ≠ 0 then s.cease q o.reason false else s
  if x.stopAfter ≠ 0 && x.issued + 1 = x.stopAfter then s.cease q 0x10 false else s

/-- A journal-consuming instruction ends without being performed (R135): in a slot if one is free, else once one is allocated to
it. It never begins, its entry ends aborted, and its queue issues nothing further (R136). -/
def Dev.refuseHead (s : Dev) (q : QueueId) (reason : Nat) : Dev :=
  let s := s.askSlot q
  let x := s.queue q
  match x.fetched, x.slot with
  | some w, some slot =>
    s.issueAs q { newOperation q x w slot with status := 5, reason := reason }
  | _, _ => s.setQueue q { x with endUnperformed := some (BitVec.ofNat 8 reason, 5) }

/-- Bind a program region; the first bind seals it: its entry is copied and cached write rights on its pages go (R165, R166). -/
def Dev.bind (s : Dev) (asid region base pages : Nat) : Dev :=
  let n := s.binds asid region
  let s := s.setBinds asid region (n + 1)
  if n = 0 then
    let s := s.dropTranslations (fun e => e.asid = asid && e.rights.w && base / 4096 < e.vpn + e.pages && e.vpn < base / 4096 + pages)
    s.modXl (fun x => { x with sealed := x.sealed ++ [⟨asid, region, base, pages⟩] })
  else s

/-- A program-region entry: base and pages, where it defines a region (R164). -/
def parseRegion (b : Nat) : Option (Nat × Nat) :=
  if bit b 112 && bits b 63 0 % 4096 = 0 && bits b 127 113 = 0 && bits b 111 96 = 0 then some (bits b 63 0, bits b 95 64) else none

/-- The region that holds a program, if it lies wholly in it: the live copy while sealed, else the entry in memory (R164, R170). -/
def Dev.regionOf (s : Dev) (p : Port) (region : Nat) : Dev × Fetch (Option (Nat × Nat)) :=
  match s.xl.sealed.find? (fun c => c.asid = p.asid && c.region = region) with
  | some c => (s, .ok (some (c.base, c.pages)))
  | none =>
    match s.ctx (mmuOf p.die) p.asid with
    | none => (s, .fail 4 0)
    | some c => Fetch.andThen (s.readVa p (c.prtBase + 16 * region) 16) (fun s d => (s, .ok (parseRegion (leNat d))))

/-- What an operation takes of objects when it begins: the kernel timeout, and the prefetch distance of its home die and lifetime (R313,
R365). -/
def Dev.sampleFor (s : Dev) (o : Operation) : List Nat :=
  [s.objAt 4 0x200 0, s.objAt 5 0x200 (homeDie o.queue).val, s.objAt 5 0x201 0]

/-- An operation begins: its journal entry reads running from now on (R174, R335). One that has begun already keeps its time. -/
def Dev.beginOp (s : Dev) (slot : SlotId) (f : Operation → Operation) : Dev :=
  if (s.op slot).any (fun o => o.begun) then s.modOp slot f else
  let s := s.modJournal (fun j => { j with
    entries := Table.set none j.entries slot.val ((Table.get none j.entries slot.val).map (fun e => { e with running := true, tBegin := s.now })) })
  s.modOp slot (fun o => f { o with begun := true, tBegin := s.now, sampled := s.sampleFor o })

/-- Every issued operation of a queue that has not begun ends aborted with a reason (R138). -/
def Dev.abortUnbegun (s : Dev) (q : QueueId) (reason : Nat) : Dev :=
  { s with cmd := { s.cmd with ops := s.cmd.ops.map (fun o =>
    if o.queue = q && !o.begun && o.status = 0 then { o with status := 5, reason := reason } else o) } }

/-- The highest ordinal such that every unit at or below it is written (R174). -/
def lastTileOf (written : List Nat) : Nat → Nat → Nat
  | 0, k => k
  | n + 1, k => if written.contains k then lastTileOf written n (k + 1) else k

/-- The last_tile field of a list of written units. -/
def lastTileField (written : List Nat) : U32 := BitVec.ofNat 32 (lastTileOf written written.length 0) - 1

/-- The terminal entry of an operation (R174, R179). -/
def terminalEntry (e : Entry) (o : Operation) (status reason : Nat) (now : U64) : Entry :=
  { e with
    tEnd := now, tBegin := if o.begun then o.tBegin else 0, nan := heldAt32 o.counts.nan, saturated := heldAt32 o.counts.saturated,
    flushedOut := heldAt32 o.counts.flushedOut, flushedIn := heldAt32 o.counts.flushedIn,
    faultAddr := BitVec.ofNat 64 o.faultAddr, lastTile := lastTileField o.written, tiles := BitVec.ofNat 32 o.written.length,
    reason := BitVec.ofNat 8 reason, running := false, status := BitVec.ofNat 4 status }

/-- A completion record is written, in the order in which entries become terminal (R180). -/
def Dev.complete (s : Dev) (r : CompRecord) : Dev :=
  s.modJournal (fun j => { j with
    ring := Table.set none j.ring (j.compWritten.toNat % 4096) (some r), compWritten := j.compWritten + 1,
    terminal := j.terminal ++ [r.slot] })

/-- An operation reaches its terminal status: entry, completion record, its signal's fate, and its queue (R129, R130, R136, R137, R179). -/
def Dev.endOperation (s : Dev) (o : Operation) (status reason : Nat) : Dev :=
  let s := s.modJournal (fun j => { j with
    entries := Table.set none j.entries o.slot.val ((Table.get none j.entries o.slot.val).map (fun e => terminalEntry e o status reason s.now)) })
  let s := s.complete ⟨BitVec.ofNat 32 o.ordinal, o.queue, BitVec.ofNat 4 status, o.slot⟩
  let s := { s with cmd := { s.cmd with ops := s.cmd.ops.filter (fun x => x.slot ≠ o.slot) } }
  let perform := status = 1 || iSigAlways o.word
  let s := s.modQueue o.queue (fun x => { x with signals := x.signals.filterMap (fun g =>
    if !g.sync && !g.ready && g.afterOrdinal = o.ordinal then (if perform then some { g with ready := true } else none) else some g) })
  let s := if status = 1 then (if iStop o.word then s.cease o.queue 0x11 false else s)
    else (s.abortUnbegun o.queue (if (s.queue o.queue).abortedQ then 7 else reason)).cease o.queue reason true
  s.settle o.queue

end Sys2Proof.Machine
end

