-- ==== Sys2Proof/Machine/Chain.lean ====
section
/-! DEFINITION. Machine/Chain.lean: configuration blocks, the stages of prologues, epilogues and CHAIN, lookup tables,
normalisation and the taps of row statistics (R222 to R239, R243, R247, R255, R256, R751). -/

namespace Sys2Proof.Machine

/-- What a configuration block serves (R229, R235). -/
inductive CfgRole where
  | epilogue | chain | prologue
  deriving DecidableEq, Repr

/-- The handles of a configuration block's header (R225). -/
structure CfgHandles where
  lut1 : Nat
  lut0 : Nat
  statsOut : Nat
  statsIn : Nat
  second : Nat
  row0 : Nat
  col1 : Nat
  col0 : Nat
  deriving DecidableEq, Repr

/-- A stage word (R226), its reserved bits zero. -/
def parseStage (w : Nat) : Option Stage :=
  if bits w 63 56 = 0 && bits w 27 0 = 0 then
    some ⟨bits w 55 52, bits w 51 48, bits w 47 44, bits w 43 41, bits w 40 38, bits w 37 34, bits w 33 30, bit w 29, bit w 28⟩
  else none

/-- Whether a stage is a function stage (R221, R243). -/
def Stage.isFn (g : Stage) : Bool := (g.kind = 1 && (g.op = 5 || g.op = 6)) || g.kind = 2 || g.kind = 3

/-- The pass of each stage (R243), counted from 1. -/
def passList : List Stage → Nat → Nat → Nat → List Nat
  | [], _, _, _ => []
  | g :: gs, p, used, fn =>
    let f := b2n g.isFn
    if used = 8 || fn + f > 2 then (p + 1) :: passList gs (p + 1) 1 f
    else p :: passList gs p (used + 1) (fn + f)

/-- The passes a list of stages needs (R243). -/
def passesOf (g : List Stage) : Nat := (passList g 1 0 0).getLast?.getD 1

/-- Whether a stage needs operand a and operand b (R231). -/
def Stage.needsA (g : Stage) : Bool := g.kind = 1 || g.kind = 3
def Stage.needsB (g : Stage) : Bool := g.kind = 1 && (g.op = 2 || g.op = 4 || (g.op = 3 && g.sub = 2))

/-- Whether a stage's codes are ones of R226, R227 and R231, and its sources fit what it needs (R229). -/
def Stage.valid (g : Stage) (role : CfgRole) (sfmt : Fmt) (h : CfgHandles) (statsIn : Bool) : Bool :=
  let opOk := match g.kind with
    | 0 | 4 => g.op = 0
    | 1 => g.op < 7
    | 2 | 3 => g.op < 2
    | _ => false
  let subOk := if g.kind = 1 && g.op = 3 then g.sub < 3 else if g.kind = 1 && g.op = 4 then g.sub < 8 else g.sub = 0
  let srcOk (need : Bool) (src : Nat) : Bool :=
    if !need then src = 0
    else match src with
      | 1 | 6 | 7 => true
      | 2 => h.col0 ≠ 0
      | 3 => h.col1 ≠ 0
      | 4 => h.row0 ≠ 0
      | 5 => h.second ≠ 0 && role ≠ .prologue
      | _ => false
  let kindOk := match g.kind with
    | 2 => (if g.op = 0 then h.lut0 ≠ 0 else h.lut1 ≠ 0) && sfmt ≠ .fp64
    | 3 => statsIn && g.srcA = 1
    | 4 => h.statsOut ≠ 0 && sfmt ≠ .fp64 && role ≠ .prologue
    | _ => true
  opOk && subOk && srcOk g.needsA g.srcA && srcOk g.needsB g.srcB && kindOk && (g.srcA = 1 || g.constA = 0) && (g.srcB = 1 || g.constB = 0)

/-- Whether every stash slot is written before it is read in the same pass (R229). -/
def stashOk : List (Stage × Nat) → Nat → Bool → Bool → Bool
  | [], _, _, _ => true
  | (g, p) :: gs, prev, w0, w1 =>
    let (w0, w1) := if p = prev then (w0, w1) else (false, false)
    let reads (n : Nat) : Bool := (g.needsA && g.srcA = n) || (g.needsB && g.srcB = n)
    (!reads 6 || w0) && (!reads 7 || w1)
      && stashOk gs p (w0 || (g.stashW && !g.stashSlot)) (w1 || (g.stashW && g.stashSlot))

/-- The element values a stage may read beside its input: for each column the two column vectors, for each row the row vector and the
row's statistics (mean, variance, mean of squares), and the second input. -/
structure ChainEnv where
  col0 : List Val
  col1 : List Val
  row0 : List Val
  second : List (List Val)
  recs : List (Val × Val × Val)
  deriving DecidableEq, Repr

/-- Constant i of a block, decoded as FP32 (R222, R63 to R66). -/
def CfgBlock.const (c : CfgBlock) (i : Nat) : Val := decodeVal .fp32 (c.consts.getD i 0) 127

/-- The value of an operand source (R228). -/
def srcVal (c : CfgBlock) (e : ChainEnv) (r k : Nat) (st0 st1 : Val) (src const : Nat) : Val :=
  match src with
  | 1 => c.const const
  | 2 => e.col0.getD k (.zero false)
  | 3 => e.col1.getD k (.zero false)
  | 4 => e.row0.getD r (.zero false)
  | 5 => (e.second.getD r []).getD k (.zero false)
  | 6 => st0
  | 7 => st1
  | _ => .zero false

/-- The exact result of a native operation (R231). -/
def nativeOp (op sub : Nat) (x a b : Val) : Real :=
  match op with
  | 0 => .exact (addVal x a)
  | 1 => .exact (mulVal x a)
  | 2 => .exact (addVal (mulVal x a) b)
  | 3 =>
    if sub = 0 then .exact (minMax false x a)
    else if sub = 1 then .exact (minMax true x a)
    else .exact (minMax false (minMax true x a) b)
  | 4 => .exact (if compareVal sub x a then x else b)
  | 5 =>
    match mulVal x a with
    | .nan => .exact .nan
    | .inf n => .exact (if n then .zero false else .inf false)
    | .zero _ => .exact (.fin 1)
    | .fin q => exp2Real q
  | _ =>
    match addVal x a with
    | .nan => .exact .nan
    | .inf n => .exact (if n then .nan else .zero false)
    | .zero _ => .exact (.inf false)
    | .fin q => if q < 0 then .exact .nan else divSqrtReal 1 q

/-- Word i of a lookup table, decoded as FP32 (R237). -/
def lutWord (t : List Nat) (i : Nat) : Val := decodeVal .fp32 (t.getD i 0) 127

/-- base + slope × d of table values; a special value follows IEEE 754-2019 (R238). -/
def lutLine (base slope : Val) (d : Rat) : Val := addVal base (mulVal slope (Val.ofRat d))

/-- A lookup (R238); the table is its 1,040 words. -/
def lookupOp (t : List Nat) (x : Val) : Val :=
  let elo := signedOf 8 (t.getD 0 0 % 256)
  match x with
  | .nan => lutWord t 1
  | .inf n => lutWord t (if n then 3 else 2)
  | _ =>
    let q := x.rat
    let sgn := if q < 0 then 1 else 0
    if q = 0 || ratAbs q < pow2 elo then lutLine (lutWord t (4 + sgn)) (lutWord t (6 + sgn)) q
    else
      let e := floorLog2 (ratAbs q)
      if elo + 32 ≤ e then lutWord t (8 + sgn)
      else
        let m := (ratAbs q / pow2 (e - 3)).floor.toNat - 8
        let i := 256 * sgn + 8 * (e - elo).toNat + m
        let ref : Rat := ((8 + m : Nat) : Rat) * pow2 (e - 3)
        lutLine (lutWord t (16 + 2 * i)) (lutWord t (17 + 2 * i)) (q - (if q < 0 then -ref else ref))

/-- numerator ÷ sqrt d of decoded values, specials by IEEE 754-2019 (R255; log entry 14). -/
def divSqrtVal (num d : Val) : Real :=
  match num, d with
  | .nan, _ => .exact .nan
  | _, .nan => .exact .nan
  | .inf x, .inf y => if y then .exact .nan else if x then .exact .nan else .exact .nan
  | n, .inf y => if y then .exact .nan else .exact (.zero n.neg)
  | n, .zero _ => if n.isInf then .exact (.inf n.neg) else if n.rat = 0 then .exact .nan else .exact (.inf n.neg)
  | .inf x, .fin q => if q < 0 then .exact .nan else .exact (.inf x)
  | n, .fin q => if q < 0 then .exact .nan else divSqrtReal n.rat q

/-- The exact result of a stage that encodes (R231, R233, R238, R255); none for PASS and STATS. -/
def stageReal (c : CfgBlock) (e : ChainEnv) (g : Stage) (r k : Nat) (st0 st1 x : Val) : Option Real :=
  let a := srcVal c e r k st0 st1 g.srcA g.constA
  let b := srcVal c e r k st0 st1 g.srcB g.constB
  match g.kind with
  | 1 => some (nativeOp g.op g.sub x a b)
  | 2 => some (.exact (lookupOp (c.luts.getD g.op []) x))
  | 3 =>
    let (mean, var, msq) := e.recs.getD r (.nan, .nan, .nan)
    let neg : Val → Val := fun v => mulVal v (.fin (-1))
    some (if g.op = 0 then divSqrtVal (addVal x (neg mean)) (addVal var a) else divSqrtVal x (addVal msq a))
  | _ => none

/-- What an element carries through its stages: its value, the stash, the counts, and the values its STATS stages tapped. -/
structure Flow where
  x : Val
  st0 : Val := .zero false
  st1 : Val := .zero false
  counts : Counts := {}
  taps : List Val := []
  deriving DecidableEq, Repr

/-- A stage's output saved in the stash slot it names, if it saves it (R236). -/
def Flow.stash (f : Flow) (g : Stage) : Flow :=
  if g.stashW then (if g.stashSlot then { f with st1 := f.x } else { f with st0 := f.x }) else f

/-- One element through the stages of a chain whose sfmt is not an MX format (R231 to R236). -/
def runStages (c : CfgBlock) (e : ChainEnv) (spec : RoundSpec) (idx r k : Nat) : List (Stage × Nat) → Nat → Nat → Flow → Flow
  | [], _, _, f => f
  | (g, p) :: gs, i, prev, f =>
    let f := if p = prev then f else { f with st0 := .zero false, st1 := .zero false }
    let f := if g.kind = 4 then { f with taps := f.taps ++ [f.x] } else f
    let f := match stageReal c e g r k f.st0 f.st1 f.x with
      | none => f
      | some v =>
        let (code, n) := encodeReal (encodeAt c.sfmt spec idx (1 + i)) v
        { f with x := decodeVal c.sfmt code 127, counts := f.counts.add n }
    runStages c e spec idx r k gs (i + 1) p (f.stash g)

/-- The stages of a block with the pass of each. -/
def CfgBlock.staged (c : CfgBlock) : List (Stage × Nat) := c.stages.zip (passList c.stages 1 0 0)

/-- A block write of reals: the first precision at which both ends of every interval give the same block decides. -/
def encodeBlockReal (f : Fmt) (vs : List (Real × Rounding)) : List Nat → Nat × List Nat × Counts
  | [] => (Config.freeRounding vs.length 0 % 255, vs.map (fun _ => 0), {})
  | n :: ns =>
    let at_ (hi : Bool) := vs.map (fun v => match v.1 with
      | .exact w => (w, v.2)
      | .between b => (Val.ofRat (if hi then (b n).2 else (b n).1), v.2))
    if encodeBlock f (at_ false) = encodeBlock f (at_ true) then encodeBlock f (at_ false) else encodeBlockReal f vs ns

/-- A block of MX elements through one prologue stage (R751): its new scale and elements. -/
def mxStage (c : CfgBlock) (e : ChainEnv) (g : Stage) (i : Nat) (spec : RoundSpec) (idxs : List Nat) (r k0 : Nat)
    (scale : Nat) (fs : List Flow) : Nat × List Flow :=
  match stageReal c e g r k0 (.zero false) (.zero false) (.zero false) with
  | none => (scale, fs.map (fun f => f.stash g))
  | some _ =>
    let rs := (fs.zip idxs).zipIdx.map (fun (y : (Flow × Nat) × Nat) =>
      ((stageReal c e g r (k0 + y.2) y.1.1.st0 y.1.1.st1 y.1.1.x).getD (.exact .nan), spec.at y.1.2 (1 + i)))
    let (sc, codes, n) := encodeBlockReal c.sfmt rs precisions
    (sc, (fs.zip codes).zipIdx.map (fun (y : (Flow × Nat) × Nat) =>
      Flow.stash { y.1.1 with x := decodeVal c.sfmt y.1.2 sc, counts := if y.2 = 0 then y.1.1.counts.add n else y.1.1.counts } g))

/-- A block of MX elements through the stages of a prologue (R751). -/
def mxStages (c : CfgBlock) (e : ChainEnv) (spec : RoundSpec) (idxs : List Nat) (r k0 : Nat) :
    List (Stage × Nat) → Nat → Nat × List Flow → Nat × List Flow
  | [], _, y => y
  | (g, _) :: gs, i, y => mxStages c e spec idxs r k0 gs (i + 1) (mxStage c e g i spec idxs r k0 y.1 y.2)

/-- The header checks of a block that its own bits decide (R225, R229): type, version, stage count, reserved bits, sfmt. -/
def headerOk (h : Nat) (role : CfgRole) : Bool :=
  bits h 511 256 = 0 && bits h 127 24 = 0 && bits h 15 14 = 0 && bits h 7 0 = 1
    && bits h 19 16 = (if role = .prologue then 2 else 1)
    && bits h 13 8 ≤ (if role = .prologue then 4 else 32)
    && (if role = .epilogue then true else bits h 191 176 = 0)
    && (if role = .prologue then bits h 207 192 = 0 && bits h 223 208 = 0 else true)

/-- The handles of a block's header (R225). -/
def headerHandles (h : Nat) : CfgHandles :=
  ⟨bits h 255 240, bits h 239 224, bits h 223 208, bits h 207 192, bits h 191 176, bits h 175 160, bits h 159 144, bits h 143 128⟩

/-- Whether a lookup table's reserved bytes are zero (R237). -/
def lutOk (t : List Nat) : Bool := t.getD 0 0 / 256 = 0 && (List.range 6).all (fun i => t.getD (10 + i) 0 = 0)

/-- The 32-bit words of a list of bytes. -/
def words32 (d : List Byte) (n : Nat) : List Nat := (List.range n).map (fun i => fieldAt d (4 * i) 4)

/-- What the operation gives the checks of a block: the rows and columns it covers, the output's shape, the highest row of its
statistics, and the allowed sfmt (R229, R230); with the ports of the operation's other chain engines, which apply the block too (R223). -/
structure CfgUse where
  role : CfgRole
  rows : Nat
  cols : Nat
  outExts : List Nat
  sfmts : List Fmt
  statsIn : Option ByteBuf
  second : Nat
  others : List Port := []
  deriving DecidableEq, Repr

/-- The ports of an operation's chain engines beside that of its lead (R223, R455). -/
def otherEngines (p : Port) (mills : List Nat) : List Port := mills.tail.map (fun m => { p with stream := 0x30 + m % 12 })

/-- Every chain engine of an operation reads bytes that it applies; those the lead has read are what they hold (R223). -/
def Dev.readEach (s : Dev) (lead : Port) (others : List Port) (va n : Nat) : Dev × Named (List Byte) :=
  Named.andThen (Fetch.toNamed (s.readVa lead va n)) fun s d =>
    others.foldl (fun r p => Named.andThen r fun s d => Named.andThen (Fetch.toNamed (s.readVa p va n)) fun s _ => (s, .ok d)) (s, .ok d)

/-- An optional tensor or buffer named by a handle, 0 naming none. -/
def Dev.optTensor (s : Dev) (p : Port) (h : Nat) : Dev × Named (Option Tensor) :=
  if h = 0 then (s, .ok none) else Named.andThen (s.namedTensor p h) (fun s t => (s, .ok (some t)))
def Dev.optBytes (s : Dev) (p : Port) (h : Nat) : Dev × Named (Option ByteBuf) :=
  if h = 0 then (s, .ok none) else Named.andThen (s.namedBytes p h) (fun s b => (s, .ok (some b)))

/-- A lookup table named by a handle (R229, R237). One that no stage looks up in is read and checked all the same (DESIGN CHOICE, log entry
79). -/
def Dev.optLut (s : Dev) (p : Port) (others : List Port) (h : Nat) : Dev × Named (List Nat) :=
  if h = 0 then (s, .ok [])
  else Named.andThen (s.namedBytes p h) (fun s b =>
    if b.len < 4160 then (s, .invalid)
    else Named.andThen (s.readEach { p with hint := b.hint } (others.map (fun q => { q with hint := b.hint })) b.base 4160) (fun s d =>
      if lutOk (words32 d 1040) then (s, .ok (words32 d 1040)) else (s, .invalid)))

/-- Whether a vector is a rank-1 tensor of a storage format that reaches a count where stages read it (R229, R235). -/
def vecOk (t : Option Tensor) (need : Bool) (n : Nat) : Bool :=
  match t with
  | none => true
  | some t => t.exts.length = 1 && t.fmt ≠ .a80 && t.fmt ≠ .a128 && (!need || n ≤ t.exts.headD 0)

/-- Whether a statistics buffer holds the records of so many rows (R229). -/
def statsOk (b : Option ByteBuf) (rows : Nat) : Bool :=
  match b with
  | none => true
  | some b => b.base % 256 = 0 && 256 * rows ≤ b.len

/-- Apply: read and check a configuration block and all it names (R223, R224, R229). Stage words at or above the header's count are not
checked (DESIGN CHOICE, log entry 79). -/
def Dev.applyCfg (s : Dev) (p : Port) (handle : Nat) (u : CfgUse) : Dev × Named CfgBlock :=
  Named.andThen (s.namedBytes p handle) fun s b =>
  if b.base % 64 ≠ 0 || b.len < 384 then (s, .invalid)
  else Named.andThen (s.readEach { p with hint := b.hint } (u.others.map (fun q => { q with hint := b.hint })) b.base 384) fun s d =>
  let h := fieldAt d 0 64
  let hs := headerHandles h
  if !headerOk h u.role then (s, .invalid)
  else match Fmt.ofCode (bits h 23 20) with
  | none => (s, .invalid)
  | some sf =>
    let stages := (List.range (bits h 13 8)).map (fun i => parseStage (fieldAt d (128 + 8 * i) 8))
    if !u.sfmts.contains sf || stages.any Option.isNone then (s, .invalid)
    else
      let gs := stages.filterMap id
      let hasStats := if u.role = .prologue then u.statsIn.isSome else hs.statsIn ≠ 0
      let reads (n : Nat) : Bool := gs.any (fun g => (g.needsA && g.srcA = n) || (g.needsB && g.srcB = n))
      if !gs.all (fun g => g.valid u.role sf (if u.role = .chain then { hs with second := u.second } else hs) hasStats)
          || 4 < passesOf gs || (u.role = .prologue && 2 < (gs.filter Stage.isFn).length)
          || !stashOk (gs.zip (passList gs 1 0 0)) 1 false false then (s, .invalid)
      else
        Named.andThen (s.optTensor p hs.col0) fun s c0 =>
        Named.andThen (s.optTensor p hs.col1) fun s c1 =>
        Named.andThen (s.optTensor p hs.row0) fun s r0 =>
        Named.andThen (s.optTensor p (if u.role = .chain then u.second else hs.second)) fun s sec =>
        Named.andThen (s.optLut p u.others hs.lut0) fun s l0 =>
        Named.andThen (s.optLut p u.others hs.lut1) fun s l1 =>
        Named.andThen (s.optBytes p hs.statsIn) fun s si =>
        Named.andThen (s.optBytes p hs.statsOut) fun s so =>
        let secOk := match sec with
          | none => true
          | some t => !reads 5 || t.exts = u.outExts
        let si := if u.role = .prologue then u.statsIn else si
        let norms := gs.any (fun g => g.kind = 3)
        let taps := gs.any (fun g => g.kind = 4)
        if vecOk c0 (reads 2) u.cols && vecOk c1 (reads 3) u.cols && vecOk r0 (reads 4) u.rows && secOk
            && statsOk si (if norms then u.rows else 0) && statsOk so (if taps then u.rows else 0) then
          (s, .ok { sfmt := sf, stages := gs, consts := (List.range 16).map (fun i => fieldAt d (64 + 4 * i) 4), luts := [l0, l1],
                    col0 := c0, col1 := c1, row0 := r0, second := sec, statsIn := si, statsOut := so })
        else (s, .invalid)

/-- Whether every record of rows 0 to n − 1 is final (R204, R257). -/
def Dev.recordsFinal (s : Dev) (p : Port) (b : ByteBuf) : Nat → Dev × Fetch Bool
  | 0 => (s, .ok true)
  | n + 1 =>
    Fetch.andThen (s.readVa { p with hint := b.hint } (b.base + 256 * n) 16) (fun s d =>
      if bit (leNat d) 64 then s.recordsFinal p b n else (s, .ok false))

/-- Mean, variance and mean of squares of a row's record, decoded (R245, R255). -/
def Dev.recordVals (s : Dev) (p : Port) (b : ByteBuf) (row : Nat) : Dev × Fetch (Val × Val × Val) :=
  Fetch.andThen (s.readVa { p with hint := b.hint } (b.base + 256 * row) 32) (fun s d =>
    (s, .ok (decodeVal .fp32 (fieldAt d 16 4) 127, decodeVal .fp32 (fieldAt d 20 4) 127, decodeVal .fp32 (fieldAt d 24 4) 127)))

/-- The records of a list of rows. -/
def Dev.recordList (s : Dev) (p : Port) (b : ByteBuf) : List Nat → Dev × Fetch (List (Val × Val × Val))
  | [] => (s, .ok [])
  | r :: rs =>
    Fetch.andThen (s.recordVals p b r) (fun s v => Fetch.andThen (s.recordList p b rs) (fun s vs => (s, .ok (v :: vs))))

/-- The elements of a vector or second input, with the keys of those flushed in. The key names the tensor t and the index (R96). -/
def Dev.vecVals (s : Dev) (p : Port) (t : Option Tensor) (need : Bool) (key : Nat) (cs : List (List Nat)) :
    Dev × Fetch (List Val × List Nat) :=
  match t with
  | none => (s, .ok ([], []))
  | some t =>
    if !need then (s, .ok ([], []))
    else Fetch.andThen (s.readVals p t cs) (fun s vs =>
      (s, .ok (vs.map Prod.fst, ((cs.zip vs).filter (fun x => x.2.2 ≠ 0)).map (fun x => key * 2 ^ 160 + linearIdx x.1 t.exts))))

/-- The environment of a tile: columns k0 to k0 + nk − 1 and a list of rows, with the second input at given coordinates, all read once for
the tile (R244). CHAIN's second input is read on the stream of the chain engine, as the other vectors are, and its first on the thresher's
(R240; DESIGN CHOICE, log entry 19). -/
def Dev.chainEnv (s : Dev) (p : Port) (c : CfgBlock) (k0 nk : Nat) (rows : List Nat) (coord : Nat → Nat → List Nat) :
    Dev × Fetch (ChainEnv × List Nat) :=
  let reads (n : Nat) : Bool := c.stages.any (fun g => (g.needsA && g.srcA = n) || (g.needsB && g.srcB = n))
  let cols := (List.range nk).map (fun i => [k0 + i])
  Fetch.andThen (s.vecVals p c.col0 (reads 2) 4 cols) fun s a =>
  Fetch.andThen (s.vecVals p c.col1 (reads 3) 5 cols) fun s b =>
  Fetch.andThen (s.vecVals p c.row0 (reads 4) 6 (rows.map (fun r => [r]))) fun s r =>
  Fetch.andThen (s.vecVals p c.second (reads 5) 7 (rows.flatMap (fun r => (List.range nk).map (fun i => coord r (k0 + i))))) fun s x =>
  let recs := match c.statsIn with
    | some b => if c.stages.any (fun g => g.kind = 3) then s.recordList p b rows else (s, .ok [])
    | none => (s, .ok [])
  Fetch.andThen recs fun s rv =>
  (s, .ok (⟨a.1, b.1, r.1, chunks nk (rows.length + 1) x.1, rv⟩, a.2 ++ b.2 ++ r.2 ++ x.2))

end Sys2Proof.Machine
end

