-- ==== Sys2Proof/Machine/MillBegin.lean ====
section
/-! DEFINITION. Machine/MillBegin.lean: what a mill-class or chain-class operation reads and checks when it begins: parameter blocks,
operand tensors, tile shapes and configuration blocks (R56, R59, R161, R162, R187 to R192, R204, R208, R209, R229, R230, R239 to
R242, R254, R257 to R260, R265, R753). -/

namespace Sys2Proof.Machine

/-- The operand class of a pair of formats (R59, R186): 0 MX, 1 FP8 and INT8, 2 BF16 and FP16, 3 FP32, 4 FP64. -/
def opClass (a b : Fmt) : Option Nat :=
  let fp8 (f : Fmt) := f = .e4m3 || f = .e5m2
  if a.isMx && b.isMx then some 0
  else if (fp8 a && fp8 b) || (a = .int8 && b = .int8) then some 1
  else if (a = .bf16 && b = .bf16) || (a = .fp16 && b = .fp16) then some 2
  else if a = .fp32 && b = .fp32 then some 3
  else if a = .fp64 && b = .fp64 then some 4
  else none

/-- The output formats a pair of operand formats allows (R59). -/
def outputsOf (a : Fmt) : List Fmt :=
  match a with
  | .fp32 => [.fp32, .bf16, .fp16, .a80]
  | .int8 => [.int32, .fp32, .bf16, .fp16, .a80]
  | .fp64 => [.fp64, .fp32, .a128]
  | _ => [.fp32, .bf16, .fp16, .e4m3, .e5m2, .e2m3, .e3m2, .e2m1, .a80]

/-- The step footprint M × N × K of an operand class (R186). -/
def footprint : Nat → Nat × Nat × Nat
  | 0 => (64, 64, 32) | 1 => (64, 32, 32) | 2 => (32, 32, 32) | 3 => (16, 16, 32) | _ => (16, 8, 8)

/-- Division rounded up. -/
def ceilDiv (a b : Nat) : Nat := (a + b - 1) / b

/-- Whether an operand's batch extents fit those of the output: each equal or 1 (R188). -/
def batchFits (x d : List Nat) : Bool := x.length = d.length && (x.zip d).all (fun e => e.1 = e.2 || e.1 = 1)

/-- The batch coordinates of an operand for the output's: an extent of 1 broadcasts (R188). -/
def batchOf (exts c : List Nat) : List Nat := (exts.zip c).map (fun e => if e.1 = 1 then 0 else e.2)

/-- The mills a queue's unit field selects (R185), as mill numbers of its home die. -/
def millsOf (die : Nat) (unit : Nat) : List Nat := ((List.range 12).filter (bit unit)).map (fun i => 12 * die + i)

/-- The parameter block of MATMUL and MATMUL_PART (R189). -/
structure MmParams where
  segCount : Nat
  segFirst : Nat
  statsIn : Nat
  proCfg : Nat
  epiCfg : Nat
  ksplit : Nat
  proOp : Nat
  transB : Bool
  transA : Bool
  kSlice : Nat
  tileN : Nat
  tileM : Nat
  deriving DecidableEq, Repr

/-- Reads the parameter block of MATMUL and MATMUL_PART (R189). -/
def parseMm (b : Nat) : Option MmParams :=
  if descKind b = 2 && bits b 123 112 = 0x010 && bits b 511 320 = 0 && bits b 207 128 = 0 && bits b 111 16 = 0 && bits b 1 0 = 0 then
    some ⟨bits b 319 288, bits b 287 256, bits b 255 240, bits b 239 224, bits b 223 208, bits b 15 12, bits b 11 10, bit b 9, bit b 8,
          bits b 7 6, bits b 5 4, bits b 3 2⟩
  else none

/-- A tile-size code (R190). -/
def tileSize (fp64 : Bool) (c : Nat) : Nat := (if fp64 then 32 else 64) * 2 ^ c
/-- A K-slice code (R190). -/
def sliceSize (fp64 : Bool) (c : Nat) : Nat := (if fp64 then 64 else 256) * 2 ^ c

/-- The byte ranges of what a configuration block reads of memory while its operation runs. -/
def CfgBlock.inputs (c : CfgBlock) : List (Nat × Nat) :=
  ([c.col0, c.col1, c.row0, c.second].filterMap id).flatMap Tensor.ranges ++ (c.statsIn.map ByteBuf.range).toList

/-- The byte range of its statistics output (R254). -/
def CfgBlock.outputs (c : CfgBlock) : List (Nat × Nat) := (c.statsOut.map ByteBuf.range).toList

/-- Whether a block normalises. -/
def CfgBlock.norms (c : CfgBlock) : Bool := c.stages.any (fun g => g.kind = 3)

/-- Every record a block normalises by is final, read before any operand (R204, R257). -/
def Dev.normsReady (s : Dev) (p : Port) (c : Option CfgBlock) (rows : Nat) : Dev × Named Unit :=
  match c with
  | none => (s, .ok ())
  | some c =>
    match c.statsIn with
    | none => (s, .ok ())
    | some b =>
      if !c.norms then (s, .ok ())
      else Named.andThen (Fetch.toNamed (s.recordsFinal p b rows)) (fun s ok => if ok then (s, .ok ()) else (s, .invalid))

/-- An optional configuration block. -/
def Dev.optCfg (s : Dev) (p : Port) (h : Nat) (u : CfgUse) : Dev × Named (Option CfgBlock) :=
  if h = 0 then (s, .ok none) else Named.andThen (s.applyCfg p h u) (fun s c => (s, .ok (some c)))

/-- The formats an epilogue may declare (R230). -/
def epilogueFmts (wide : Bool) : List Fmt := if wide then [.fp64, .fp32] else [.fp32, .bf16, .fp16, .e4m3, .e5m2]

/-- The number of tiles of an output of extents `e` under a tile shape (R192). -/
def tileCount (e : List Nat) (tm tn : Nat) : Nat := ceilDiv (e.headD 0) tn * ceilDiv (e.getD 1 1) tm * shapeSize (e.drop 2)

/-- MATMUL and MATMUL_PART at their begin (R161, R162, R188 to R191, R204, R208). -/
def Dev.beginMatmul (s : Dev) (p : Port) (part : Bool) (h : List Nat) (mills : List Nat) : Dev × Named MillOp :=
  Named.andThen (s.named p (h.getD 3 0) parseMm) fun s pr =>
  Named.andThen (s.namedTensor p (h.getD 0 0)) fun s a =>
  Named.andThen (s.namedTensor p (h.getD 1 0)) fun s b =>
  Named.andThen (s.namedTensor p (h.getD 2 0)) fun s d =>
  match opClass a.fmt b.fmt with
  | none => (s, .invalid)
  | some cls =>
    let fp64 := cls = 4
    let e (t : Tensor) (i : Nat) : Nat := t.exts.getD i 0
    let k := if pr.transA then e a 1 else e a 0
    let m := if pr.transA then e a 0 else e a 1
    let n := if pr.transB then e b 1 else e b 0
    let kb := if pr.transB then e b 0 else e b 1
    let batch := if part then ((a.exts.drop 2).zip (b.exts.drop 2)).map (fun x => max x.1 x.2) else d.exts.drop 2
    let dExts := n :: m :: batch
    let segs := ceilDiv k (segLen fp64)
    let count := if pr.segCount = 0 then segs - pr.segFirst else pr.segCount
    let r := a.exts.length
    let shapeOk :=
      if part then
        d.fmt = accFmt fp64 && pr.epiCfg = 0 && pr.ksplit = 1 && pr.segFirst < segs && pr.segFirst + pr.segCount ≤ segs
          && (if r = 6 then d.exts.length = 6 && d.exts.take 5 = dExts.take 5 && (pr.segFirst + count) * dExts.getD 5 0 ≤ e d 5
              else d.exts.length = r + 1 && d.exts.take r = dExts && pr.segFirst + count ≤ e d r)
      else (outputsOf a.fmt).contains d.fmt && d.exts.length = r && e d 1 = m && e d 0 = n && pr.segFirst = 0 && pr.segCount = 0
    if shapeOk && pr.tileM < 3 && pr.tileN < 3 && pr.kSlice < 3 && pr.proOp < 3 && [1, 2, 3, 4, 6, 12].contains pr.ksplit
        && mills.length % pr.ksplit = 0 && !(a.fmt.isMx && pr.transA) && !(b.fmt.isMx && !pr.transB)
        && 2 ≤ r && r ≤ 6 && b.exts.length = r && batchFits (a.exts.drop 2) batch && batchFits (b.exts.drop 2) batch && k = kb
        && (pr.proCfg = 0) = (pr.proOp = 0) && !(pr.epiCfg ≠ 0 && (d.fmt = .int32 || d.fmt = .a80 || d.fmt = .a128)) then
      Named.andThen (s.optBytes p pr.statsIn) fun s si =>
      let x := if pr.proOp = 2 then b else a
      let proRows := (if pr.proOp = 2 then n else m) * shapeSize (x.exts.drop 2)
      Named.andThen (s.optCfg p pr.proCfg ⟨.prologue, proRows, k, [], [x.fmt], si, 0, otherEngines p mills⟩) fun s pro =>
      Named.andThen (s.optCfg p pr.epiCfg ⟨.epilogue, shapeSize dExts.tail, n, dExts, epilogueFmts fp64, none, 0, otherEngines p mills⟩) fun s epi =>
      let ins := a.ranges ++ b.ranges ++ (pro.map CfgBlock.inputs).getD [] ++ (epi.map CfgBlock.inputs).getD []
      let outs := d.ranges ++ (epi.map CfgBlock.outputs).getD []
      if rangesMeet ins outs then (s, .invalid)
      else
        Named.andThen (s.normsReady p pro proRows) fun s _ =>
        Named.andThen (s.normsReady p epi (shapeSize dExts.tail)) fun s _ =>
        let tm := tileSize fp64 pr.tileM
        let tn := tileSize fp64 pr.tileN
        (s, .ok { kind := if part then .part else .matmul, a := a, b := some b, d := d, transA := pr.transA, transB := pr.transB,
                  proOn := pr.proOp, pro := pro, epi := epi, tileM := tm, tileN := tn, kSlice := sliceSize fp64 pr.kSlice,
                  ksplit := pr.ksplit, m := m, n := n, k := k, batch := batch, segFirst := pr.segFirst, segCount := count, cls := cls,
                  fp64 := fp64, dExts := dExts, units := tileCount dExts tm tn * (if part then count else 1), mills := mills })
    else (s, .invalid)

/-- COMBINE at its begin (R209, R229, R230). -/
def Dev.beginCombine (s : Dev) (p : Port) (h : List Nat) (mills : List Nat) : Dev × Named MillOp :=
  let parse (b : Nat) : Option Nat :=
    if descKind b = 2 && bits b 123 112 = 0x011 && bits b 511 224 = 0 && bits b 207 128 = 0 && bits b 111 0 = 0 then some (bits b 223 208)
    else none
  Named.andThen (s.named p (h.getD 3 0) parse) fun s epiH =>
  Named.andThen (s.namedTensor p (h.getD 0 0)) fun s a =>
  Named.andThen (s.namedTensor p (h.getD 2 0)) fun s d =>
  let r := d.exts.length
  let wide := a.fmt = .a128
  let e5 := d.exts.getD 5 0
  let slices := if r = 6 then a.exts.getD 5 0 / e5 else a.exts.getD r 0
  let shapeOk := if r = 6 then a.exts.length = 6 && a.exts.take 5 = d.exts.take 5 && 0 < e5 && a.exts.getD 5 0 % e5 = 0
    else a.exts.length = r + 1 && a.exts.take r = d.exts
  let fmtOk := if wide then [Fmt.fp64, .fp32, .a128].contains d.fmt
    else a.fmt = .a80 && [Fmt.fp32, .bf16, .fp16, .e4m3, .e5m2, .e2m3, .e3m2, .e2m1, .int32, .a80].contains d.fmt
  if shapeOk && fmtOk && 2 ≤ r && !(epiH ≠ 0 && (d.fmt = .int32 || d.fmt = .a80 || d.fmt = .a128)) then
    Named.andThen (s.optCfg p epiH ⟨.epilogue, shapeSize d.exts.tail, d.exts.headD 0, d.exts, epilogueFmts wide, none, 0, otherEngines p mills⟩) fun s epi =>
    let ins := a.ranges ++ (epi.map CfgBlock.inputs).getD []
    let outs := d.ranges ++ (epi.map CfgBlock.outputs).getD []
    if rangesMeet ins outs then (s, .invalid)
    else
      Named.andThen (s.normsReady p epi (shapeSize d.exts.tail)) fun s _ =>
      (s, .ok { kind := .combine, a := a, b := none, d := d, epi := epi, tileM := 128, tileN := 256, m := d.exts.getD 1 0,
                n := d.exts.headD 0, batch := d.exts.drop 2, segCount := slices, fp64 := wide, dExts := d.exts,
                units := tileCount d.exts 128 256, mills := mills })
  else (s, .invalid)

/-- The formats CHAIN takes and gives (R240). -/
def chainFmt (f : Fmt) : Bool := !(f = .e8m0 || f = .a80 || f = .a128)

/-- The ranges of CHAIN's input that its output may not meet: an output in place of its input is allowed (R162). A scale tensor that is not
the output's own is compared with it all the same (log entry 79). -/
def chainInputRanges (a d : Tensor) : List (Nat × Nat) :=
  if a.base = d.base && a.fmt = d.fmt && a.exts = d.exts && a.strides = d.strides then (if a.scale = d.scale then [] else a.scaleRange.toList)
  else a.ranges

/-- CHAIN at its begin (R239 to R242, R753). -/
def Dev.beginChain (s : Dev) (p : Port) (h : List Nat) (mills : List Nat) : Dev × Named MillOp :=
  let parse (b : Nat) : Option Nat :=
    if descKind b = 2 && bits b 123 112 = 0x020 && bits b 511 240 = 0 && bits b 223 128 = 0 && bits b 111 0 = 0 then some (bits b 239 224)
    else none
  Named.andThen (s.named p (h.getD 3 0) parse) fun s cfg =>
  Named.andThen (s.namedTensor p (h.getD 0 0)) fun s a =>
  Named.andThen (s.namedTensor p (h.getD 2 0)) fun s d =>
  let h1 := h.getD 1 0
  if !(chainFmt a.fmt && chainFmt d.fmt && a.exts = d.exts && !(cfg = 0 && h1 ≠ 0)) then (s, .invalid)
  else
    Named.andThen (s.optCfg p cfg ⟨.chain, shapeSize d.exts.tail, d.exts.headD 0, d.exts,
      [.fp64, .fp32, .bf16, .fp16, .e4m3, .e5m2], none, h1, otherEngines p mills⟩) fun s c =>
    let sfmt := (c.map CfgBlock.sfmt).getD d.fmt
    let secondOk := match c.bind CfgBlock.second with
      | none => true
      | some t => chainFmt t.fmt && t.exts = d.exts
    let ins := chainInputRanges a d ++ (c.map CfgBlock.inputs).getD []
    let outs := d.ranges ++ (c.map CfgBlock.outputs).getD []
    let statsMeet := rangesMeet a.ranges ((c.map CfgBlock.outputs).getD [])
    if !secondOk || (c.isSome && sfmt = .fp64 && (d.fmt = .int8 || d.fmt = .int32)) || rangesMeet ins outs || statsMeet then (s, .invalid)
    else
      Named.andThen (s.normsReady p c (shapeSize d.exts.tail)) fun s _ =>
      (s, .ok { kind := .chain, a := a, b := none, d := d, epi := c, tileM := 128, tileN := 256, m := d.exts.getD 1 1,
                n := d.exts.headD 0, batch := d.exts.drop 2, dExts := d.exts, units := tileCount d.exts 128 256, mills := mills })

/-- The parameter block of ATTEND (R260): mask_offset, sigma, lse, out, kv_group, q_tile and mask. -/
structure AttendParams where
  maskOffset : Int
  sigma : Nat
  lse : Nat
  out : Nat
  kvGroup : Nat
  qTile : Nat
  mask : Nat
  deriving DecidableEq, Repr

/-- Reads the parameter block of ATTEND (R260). -/
def parseAttend (b : Nat) : Option AttendParams :=
  if descKind b = 2 && bits b 123 112 = 0x012 && bits b 511 320 = 0 && bits b 223 136 = 0 && bits b 111 8 = 0 && bits b 3 0 = 0
      && bits b 7 6 < 3 && bits b 5 4 < 3 && 0 < bits b 135 128 then
    some ⟨signedOf 32 (bits b 319 288), bits b 287 256, bits b 255 240, bits b 239 224, bits b 135 128, bits b 7 6, bits b 5 4⟩
  else none

/-- ATTEND at its begin (R258 to R260, R265). -/
def Dev.beginAttend (s : Dev) (p : Port) (h : List Nat) (mills : List Nat) : Dev × Named MillOp :=
  Named.andThen (s.named p (h.getD 3 0) parseAttend) fun s pr =>
  Named.andThen (s.namedTensor p (h.getD 0 0)) fun s q =>
  Named.andThen (s.namedTensor p (h.getD 1 0)) fun s k =>
  Named.andThen (s.namedTensor p (h.getD 2 0)) fun s v =>
  Named.andThen (s.namedTensor p pr.out) fun s o =>
  Named.andThen (s.optTensor p pr.lse) fun s lse =>
  let e (t : Tensor) (i : Nat) : Nat := t.exts.getD i 0
  let e2 (t : Tensor) : Nat := t.exts.getD 2 1
  let fmtOk := (q.fmt ≠ .int8 && (opClass q.fmt k.fmt = some 1 || opClass q.fmt k.fmt = some 2))
    && [Fmt.bf16, .fp16, .e4m3, .e5m2].contains v.fmt && [Fmt.fp32, .bf16, .fp16, .e4m3, .e5m2].contains o.fmt
  let r := q.exts.length
  let shapeOk := 2 ≤ r && k.exts.length = r && v.exts.length = r && o.exts.length = r
    && e q 0 = e k 0 && e v 0 = e o 0 && e q 1 = e o 1 && e k 1 = e v 1
    && 1 ≤ e q 0 && e q 0 ≤ 256 && 1 ≤ e v 0 && e v 0 ≤ 256
    && e2 q = pr.kvGroup * e2 k && e2 k = e2 v && batchFits (q.exts.drop 2) (o.exts.drop 2)
    && batchFits (k.exts.drop 3) (o.exts.drop 3) && batchFits (v.exts.drop 3) (o.exts.drop 3)
  let lseOk := match lse with
    | none => true
    | some t => t.fmt = .fp32 && t.exts = o.exts.tail
  let outs := o.ranges ++ (lse.map Tensor.ranges).getD []
  if fmtOk && shapeOk && lseOk && !rangesMeet (q.ranges ++ k.ranges ++ v.ranges) outs then
    let qt := 64 * 2 ^ pr.qTile
    (s, .ok { kind := .attend, a := q, b := some k, d := o, v := some v, lse := lse, tileM := qt, tileN := e v 0, m := e q 1, n := e v 0,
              k := e q 0, batch := o.exts.drop 2, dExts := o.exts, units := ceilDiv (e q 1) qt * shapeSize (o.exts.drop 2),
              cls := (opClass q.fmt k.fmt).getD 1, kvGroup := pr.kvGroup, mask := pr.mask, maskOffset := pr.maskOffset,
              sigma := decodeVal .fp32 pr.sigma 127, mills := mills })
  else (s, .invalid)

/-- A mill-class or chain-class operation reads its descriptors and configuration at its begin (R161, R223, R335). -/
def Dev.readMillOp (s : Dev) (p : Port) (opcode : Nat) (h mills : List Nat) : Dev × Named MillOp :=
  match opcode with
  | 0x10 => s.beginMatmul p false h mills
  | 0x11 => s.beginMatmul p true h mills
  | 0x12 => s.beginAttend p h mills
  | 0x20 => s.beginChain p h mills
  | 0x21 => s.beginCombine p h mills
  | _ => (s, .invalid)

end Sys2Proof.Machine
end

