-- ==== Sys2Proof/Machine/Tiles.lean ====
section
/-! DEFINITION. Machine/Tiles.lean: the shape of a mill operation's work: its groups, tiles and K ranges, its scratch slots, and the
rows and lines of operand bytes that a K-slice takes (R190, R192, R193, R195, R206, R208, R263 to R266, R330). -/

namespace Sys2Proof.Machine

/-- The groups of an operation's mills (R193). -/
def MillOp.groups (x : MillOp) : List (List Nat) := chunks x.ksplit (x.mills.length + 1) x.mills

/-- The job of the tile of an ordinal (R192, R206, R208, R265). -/
def MillOp.job (x : MillOp) (slot : SlotId) (ordinal : Nat) (group : List Nat) (rank : Nat) : TileJob :=
  let t := if x.kind = .part then tileCount x.dExts x.tileM x.tileN else 0
  let seg := if x.kind = .part && t ≠ 0 then ordinal / t + x.segFirst else 0
  let u := if x.kind = .part && t ≠ 0 then ordinal % t else ordinal
  let nt := if x.kind = .attend then 1 else ceilDiv x.n x.tileN
  let mt := ceilDiv x.m x.tileM
  let m0 := u / nt % mt * x.tileM
  let n0 := u % nt * x.tileN
  let sl := segLen x.fp64
  { slot := slot, ordinal := ordinal, batch := u / (nt * mt), m0 := m0, n0 := n0, tm := min x.tileM (x.m - m0), tn := min x.tileN (x.n - n0),
    k0 := if x.kind = .part then seg * sl else 0, k1 := if x.kind = .part then min ((seg + 1) * sl) x.k else x.k, rank := rank, group := group }

/-- Whether key j is masked for query i (R260). -/
def MillOp.masked (x : MillOp) (i j : Nat) : Bool :=
  match x.mask with
  | 1 => i < j
  | 2 => decide ((i : Int) + x.maskOffset < (j : Int))
  | _ => false

/-- The number of keys of ATTEND. -/
def MillOp.keys (x : MillOp) : Nat := (x.b.map (fun t => t.exts.getD 1 0)).getD 0

/-- The K ranges a mill fills and reads for its tile, in order: its K-slices, of its segments only (R190, R206, R330), or for ATTEND
the key tiles that are computed (R263, R266). A tile without any still takes one empty range on its lead mill. -/
def MillOp.ranges (x : MillOp) (j : TileJob) : List (Nat × Nat) :=
  let l :=
    if x.kind = .attend then
      ((List.range (ceilDiv x.keys 256)).filter (fun t => !x.masked (j.m0 + j.tm - 1) (256 * t))).map (fun t => (256 * t, min (256 * t + 256) x.keys))
    else
      ((List.range (ceilDiv (j.k1 - j.k0) x.kSlice)).map (fun i => (j.k0 + i * x.kSlice, min (j.k0 + (i + 1) * x.kSlice) j.k1))).filter
        (fun r => ((r.1 - j.k0) / segLen x.fp64) % x.ksplit = j.rank)
  if l.isEmpty && j.rank = 0 then [(j.k0, j.k0)] else l

/-- The bytes of one scratch slot (R195). -/
def MillOp.slotBytes (x : MillOp) : Nat :=
  let bf (t : Option Tensor) : Nat := (t.map (fun t => t.fmt.bits)).getD 0
  let raw :=
    if x.kind = .attend then (x.tileM * x.k * x.a.fmt.bits + 256 * x.k * bf x.b + 256 * x.n * bf x.v) / 8
    else (x.tileM * x.a.fmt.bits + x.tileN * bf x.b) * x.kSlice / 8 + (if x.a.fmt.isMx then (x.tileM + x.tileN) * x.kSlice / 32 else 0)
  ceilDiv raw 128 * 128

/-- The number of scratch slots (R195). -/
def MillOp.slots (x : MillOp) : Nat := min 8 (4194304 / x.slotBytes)

/-- Cut a list into rows of n. -/
def splitRows {α : Type} (n rows : Nat) (l : List α) : List (List α) := (List.range rows).map (fun i => (l.drop (i * n)).take n)

/-- Keys of flushed elements: an operand number and the element's index (R96). A tensor that an operation names in two roles has two
numbers, and its elements count once in each role (log entry 78). -/
def elemKey (operand idx : Nat) : Nat := operand * 2 ^ 160 + idx

/-- The coordinates of an operand block: rows of the other dimension, columns of K. -/
def blockCoords (trans : Bool) (r0 nr k0 nk : Nat) (batch : List Nat) : List (List (List Nat)) :=
  (List.range nr).map (fun i => (List.range nk).map (fun k => (if trans then [r0 + i, k0 + k] else [k0 + k, r0 + i]) ++ batch))

/-- The bytes of an operand block, its scales with it. -/
def blockBytes (t : Tensor) (rows k : Nat) : Nat := ceilDiv (rows * k * t.fmt.bits) 8 + (if t.fmt.isMx then rows * ceilDiv k 32 else 0)

/-- A dense row of an operand block: the coordinates of its first element, and the elements along dimension 0. -/
structure OpRow where
  start : List Nat
  n : Nat
  deriving DecidableEq, Repr

/-- A part of an operand's K-slice (R330): the tensor, whether its rows run along K, and its rows. -/
structure OpPart where
  t : Tensor
  alongK : Bool
  rows : List OpRow
  deriving DecidableEq, Repr

/-- The rows of an operand block: along K where K is dimension 0, else along the other dimension, one row for each k (R187). -/
def blockPart (t : Tensor) (alongK : Bool) (r0 nr k0 nk : Nat) (batch : List Nat) : OpPart :=
  ⟨t, alongK, if alongK then (List.range nr).map (fun i => ⟨[k0, r0 + i] ++ batch, nk⟩)
    else (List.range nk).map (fun k => ⟨[r0, k0 + k] ++ batch, nr⟩)⟩

/-- The coordinates in dimensions 2 and above of ATTEND's K or V for the batch of a query tile (R258). -/
def MillOp.kvBatch (x : MillOp) (j : TileJob) (t : Tensor) : List Nat :=
  let bc := coordOf x.batch j.batch
  if t.exts.length = 2 then [] else (batchOf (x.a.exts.drop 2) bc).headD 0 / x.kvGroup :: batchOf (t.exts.drop 3) bc.tail

/-- The parts that a K-slice takes of operand A, or of operand B; for ATTEND of Q, or of K and V (R198, R263, R330). -/
def MillOp.parts (x : MillOp) (j : TileJob) (k0 k1 : Nat) (isB : Bool) : List OpPart :=
  let nk := k1 - k0
  let bc := coordOf x.batch j.batch
  if x.kind = .attend then
    if !isB then [blockPart x.a true j.m0 j.tm 0 x.k (batchOf (x.a.exts.drop 2) bc)]
    else x.b.toList.map (fun t => blockPart t true k0 nk 0 x.k (x.kvBatch j t))
      ++ x.v.toList.map (fun t => blockPart t true k0 nk 0 x.n (x.kvBatch j t))
  else if !isB then [blockPart x.a (!x.transA) j.m0 j.tm k0 nk (batchOf (x.a.exts.drop 2) bc)]
  else x.b.toList.map (fun t => blockPart t x.transB j.n0 j.tn k0 nk (batchOf (t.exts.drop 2) bc))

/-- The bytes of a row's elements, and of its scales: an address and a length. -/
def OpRow.bytes (t : Tensor) (r : OpRow) : Nat × Nat := (t.addr r.start, if r.n = 0 then 0 else (t.bitOff r.start + r.n * t.fmt.bits + 7) / 8)
def OpRow.scales (t : Tensor) (r : OpRow) : Nat × Nat := (t.scaleAddr r.start, if r.n = 0 then 0 else (r.start.headD 0 % 32 + r.n + 31) / 32)

/-- The numbers of the 128-byte lines that a run of bytes touches. -/
def runLines (g : Nat × Nat) : List Nat := if g.2 = 0 then [] else (List.range ((g.1 + g.2 - 1) / 128 - g.1 / 128 + 1)).map (· + g.1 / 128)

/-- The lines of a K-slice in a fetch stream, by number (R330): 0 and 1 the elements of A and B, 2 and 3 their scales. -/
def MillOp.sliceLines (x : MillOp) (j : TileJob) (k0 k1 f : Nat) : List Nat :=
  ((x.parts j k0 k1 (f % 2 = 1)).flatMap (fun p =>
    if f < 2 then p.rows.flatMap (fun r => runLines (r.bytes p.t))
    else if p.t.scale.isSome then p.rows.flatMap (fun r => runLines (r.scales p.t)) else [])).eraseDups

/-- The key of a held line. -/
def heldKey (f line : Nat) : Nat := f * 2 ^ 57 + line

/-- The bytes of a run from held lines. -/
def heldRun (lines : Table (List Byte)) (f : Nat) (g : Nat × Nat) : List Byte :=
  (((runLines g).flatMap (fun l => Table.get [] lines (heldKey f l))).drop (g.1 % 128)).take g.2

/-- The values of a row decoded from held lines, each with whether it was flushed in (R63 to R66). -/
def heldRow (lines : Table (List Byte)) (f : Nat) (t : Tensor) (r : OpRow) : List (Val × Nat) :=
  let v := leNat (heldRun lines f (r.bytes t))
  let sc := heldRun lines (f + 2) (r.scales t)
  let c0 := r.start.headD 0
  (List.range r.n).map (fun i =>
    decode t.fmt (v / 2 ^ (t.bitOff r.start + i * t.fmt.bits) % 2 ^ t.fmt.bits)
      (if t.scale.isSome then (sc.getD ((c0 + i) / 32 - c0 / 32) 0).toNat else 127))

/-- A part decoded from held lines: its values with the other dimension as rows and K along them, and the keys of the elements that are
flushed in, of the operand with this number. -/
def heldPart (lines : Table (List Byte)) (f operand : Nat) (p : OpPart) : List (List Val) × List Nat :=
  let vs := p.rows.map (fun r => (r, heldRow lines f p.t r))
  let keys := vs.flatMap (fun e => (e.2.zipIdx.filter (fun v => v.1.2 ≠ 0)).map (fun v =>
    elemKey operand (linearIdx ((e.1.start.headD 0 + v.2) :: e.1.start.tail) p.t.exts)))
  let rows := vs.map (fun e => e.2.map Prod.fst)
  (if p.alongK then rows
    else (List.range ((p.rows.head?.map OpRow.n).getD 0)).map (fun i => rows.map (fun r => r.getD i (.zero false))), keys)

end Sys2Proof.Machine
end

