-- ==== Sys2Proof/Machine/Mills.lean ====
section
/-! DEFINITION. Machine/Mills.lean: how mills accept operations, groups take tiles, threshers fill slots, arrays step, and finished
results reach the curd queue and the lead chain engine (R192 to R218, R330 to R335, R261 to R267). -/

namespace Sys2Proof.Machine

/-- Whether an opcode is of mill class or chain class (R120). -/
def millOpcode (c : Nat) : Bool := c = 0x10 || c = 0x11 || c = 0x12 || c = 0x20 || c = 0x21

/-- The mills that an operation's queue named when it issued. -/
def Dev.opMills (s : Dev) (o : Operation) : List Nat := millsOf (homeDie o.queue).val (s.queue o.queue).unit.toNat

/-- The mill number as an index, for a number in range. -/
def millId (n : Nat) : Option MillId := if h : n < 96 then some ⟨n, h⟩ else none

/-- Whether an operation takes a further tile (R193, R214 to R216). -/
def Operation.takes (o : Operation) : Bool :=
  o.status = 0 && o.failed.isNone && o.aborting.isNone
    && (match o.body with
        | .mill x => x.nextTile < x.units
        | .none => true
        | _ => false)

/-- Whether a mill accepts another operation: no tile is left to take in its current one and every fill of that is complete (R334). -/
def Dev.millFree (s : Dev) (m : MillId) : Bool :=
  let x := s.mill m
  match x.op with
  | none => true
  | some slot =>
    x.fill.isNone && x.chainTile.isNone
      && (match s.op slot with
          | some o => !o.takes
          | none => true)

/-- The operations that wait for a mill, each the earliest of its queue that still takes tiles (R334). -/
def Dev.millWaiters (s : Dev) (m : MillId) : List Operation :=
  let l := s.cmd.ops.filter (fun o => millOpcode (iOpcode o.word) && o.takes && (s.opMills o).contains m.val && (s.mill m).op ≠ some o.slot)
  l.filter (fun o => (l.find? (fun x => x.queue = o.queue)).any (fun x => x.slot = o.slot))

/-- The round-robin choice among operations of several queues: the first queue number after the one served last (R334). -/
def rrChoice (last : Nat) (l : List Operation) : Option Operation :=
  let key (o : Operation) : Nat := (o.queue.val + 2047 - last) % 2048
  l.foldl (fun best o => match best with
    | none => some o
    | some b => if key o < key b then some o else some b) none

/-- The queues of a die that wait for a mill with an instruction at head that has its slot, or with an operation that has issued (R334). -/
def Dev.queuesAt (s : Dev) (m : MillId) : List Nat :=
  (s.millWaiters m).map (fun o => o.queue.val) ++ s.cmd.queues.filterMap (fun e =>
    if h : e.1 < 2048 then
      (if e.2.state = .running && e.2.slot.isSome && e.2.endUnperformed.isNone && e.2.fetched.any (fun w => millOpcode (iOpcode w))
          && (millsOf (homeDie ⟨e.1, h⟩).val e.2.unit.toNat).contains m.val then some e.1 else none)
    else none)

/-- Whether a queue's turn comes first among those that wait for a mill (R334). -/
def Dev.millTurn (s : Dev) (m : MillId) (q : QueueId) : Bool :=
  let key (n : Nat) : Nat := (n + 2047 - (s.mill m).lastQueue) % 2048
  (s.queuesAt m).all (fun k => key q.val ≤ key k)

/-- A free mill accepts the operation whose turn it is; while the turn is of an instruction at head, it waits for that to issue (R334). -/
def Dev.acceptOp (s : Dev) (m : MillId) : Dev :=
  if s.millFree m then
    match rrChoice (s.mill m).lastQueue (s.millWaiters m) with
    | some o =>
      if s.millTurn m o.queue then s.modMill m (fun x => { x with op := some o.slot, lastQueue := o.queue.val, nextK := 0, filling := [] })
      else s
    | none => s
  else s

/-- Whether a mill's chain engine has nothing left of the tiles its array computes (R212, R335). -/
def Mill.drained (x : Mill) : Bool :=
  x.slots.isEmpty && x.cur.isNone && x.finished.isNone && x.curd.isEmpty && x.total.isNone && x.fill.isNone

/-- Whether a mill of a group is free for the operation's next tile (R193, R195, R330). -/
def Dev.mateFree (s : Dev) (slot : SlotId) (chain : Bool) (n : Nat) : Bool :=
  match millId n with
  | none => false
  | some m =>
    let x := s.mill m
    x.op = some slot && x.fill.isNone && x.chainTile.isNone && (!chain || x.drained)

/-- Whether two operand fetches of a die are of the same K-slice of the same operand (R196). -/
def MillOp.sameSlice (x : MillOp) (f g : Filling) (isB : Bool) : Bool :=
  f.job.slot = g.job.slot && f.k0 = g.k0 && f.k1 = g.k1 && x.parts f.job f.k0 f.k1 isB = x.parts g.job g.k0 g.k1 isB

/-- One operand's fetch of a slot in filling. -/
def Filling.side (f : Filling) (isB : Bool) : OperandFetch := if isB then f.b else f.a
/-- Change one operand's fetch of a slot in filling. -/
def Filling.modSide (f : Filling) (isB : Bool) (g : OperandFetch → OperandFetch) : Filling :=
  if isB then { f with b := g f.b } else { f with a := g f.a }

/-- The mill of the die whose thresher is fetching an operand's K-slice now, if one is: the lowest-numbered (R196). -/
def Dev.fetcherOf (s : Dev) (x : MillOp) (m : MillId) (f : Filling) (isB : Bool) : Option Nat :=
  ((List.finRange 96).find? (fun n => n ≠ m && millDie n = millDie m && (s.mill n).filling.any (fun g =>
    x.sameSlice f g isB && (g.side isB).owner.isNone && !(g.side isB).whole))).map Fin.val

/-- A thresher begins to fill every free slot, in the order of its K-slices, and joins the fetches of other threshers that are under way
(R195, R196, R330, R332, R333). Slots still held of the operation before count as slots of this one, whatever their size (DESIGN CHOICE,
log entry 18). -/
def Dev.openFills (s : Dev) (m : MillId) : Nat → Dev
  | 0 => s
  | fuel + 1 =>
    let y := s.mill m
    match y.fill.map (fun j => (j, (s.op j.slot).map Operation.body)) with
    | some (j, some (.mill x)) =>
      if x.slots ≤ y.slots.length + y.filling.length then s
      else match (x.ranges j)[y.nextK]? with
        | none => s
        | some (k0, k1) =>
          let f : Filling := ⟨j, k0, k1, {}, {}⟩
          let f := (f.modSide false (fun a => { a with owner := s.fetcherOf x m f false })).modSide true (fun b => { b with owner := s.fetcherOf x m f true })
          (s.modMill m (fun y => { y with filling := y.filling ++ [f], nextK := y.nextK + 1 })).openFills m fuel
    | _ => s

/-- One free group of an operation takes the lowest-ordinal tile not yet taken (R193). -/
def Dev.takeTile (s : Dev) (o : Operation) (x : MillOp) (group : List Nat) : Dev :=
  let chain := x.kind = .chain || x.kind = .combine
  if o.takes && x.nextTile < x.units && group.all (s.mateFree o.slot chain) then
    let s := s.modOp o.slot (fun o => { o with body := .mill { x with nextTile := x.nextTile + 1 } })
    group.zipIdx.foldl (fun s g =>
      match millId g.1 with
      | none => s
      | some m =>
        if chain then s.modMill m (fun y => { y with chainTile := some (o.slot, x.nextTile) })
        else
          let j := x.job o.slot x.nextTile group g.2
          if (x.ranges j).isEmpty then s
          else (s.modMill m (fun y => { y with fill := some j, nextK := 0, filling := [] })).openFills m 8) s
  else s

/-- Every free group of a begun operation takes a tile, in ascending order of its lowest mill (R193). -/
def Dev.takeTiles (s : Dev) (slot : SlotId) : Dev :=
  match s.op slot with
  | some { body := .mill x, .. } => x.groups.foldl (fun s g =>
      match s.op slot with
      | some o => (match o.body with
        | .mill y => s.takeTile o y g
        | _ => s)
      | none => s) s
  | _ => s

/-- The mills of a die accept what waits for them, and the free groups take tiles. -/
def Dev.feed (s : Dev) (die : Nat) : Dev :=
  let s := (List.range 12).foldl (fun s i => match millId (12 * die + i) with
    | some m => s.acceptOp m
    | none => s) s
  (s.cmd.ops.filter (fun o => o.begun && (homeDie o.queue).val = die)).foldl (fun s o => s.takeTiles o.slot) s

/-- The total of an entry and the next segment's entry (R207). -/
def foldEntry (fp64 : Bool) (t e : CurdEntry) : CurdEntry :=
  { e with job := t.job, vals := List.zipWith (addAcc fp64) t.vals e.vals, flushed := t.flushed ++ e.flushed, pro := t.pro ++ e.pro }

/-- The chain engine of a lead mill takes the entries whose turn it is (R207, R212). -/
def Dev.intake (s : Dev) (m : MillId) : Nat → Dev
  | 0 => s
  | fuel + 1 =>
    let y := s.mill m
    match y.total with
    | none =>
      match y.curd with
      | [] => s
      | e :: rest =>
        if e.job.rank = 0 && e.seg = 0 then
          match (s.op e.job.slot).map Operation.body with
          | some (.mill x) =>
            let z : CurdEntry := if x.ksplit = 1 then e else { e with vals := e.vals.map (addAcc x.fp64 (.zero false)) }
            (s.modMill m (fun y => { y with curd := rest, total := some z })).intake m fuel
          | _ => s
        else s
    | some t =>
      if t.last then s
      else
        match (s.op t.job.slot).map Operation.body with
        | some (.mill x) =>
          match millId (t.job.group.getD ((t.seg + 1) % x.ksplit) m.val) with
          | none => s
          | some n =>
            match (s.mill n).curd with
            | e :: rest =>
              if e.job.slot = t.job.slot && e.job.ordinal = t.job.ordinal && e.seg = t.seg + 1 then
                ((s.modMill n (fun y => { y with curd := rest })).modMill m (fun y => { y with total := some (foldEntry x.fp64 t e) })).intake m fuel
              else s
            | [] => s
        | _ => s

/-- Every chain engine of a die takes what it can. -/
def Dev.intakeDie (s : Dev) (die : Nat) : Dev :=
  (List.range 12).foldl (fun s i => match millId (12 * die + i) with
    | some m => s.intake m 1024
    | none => s) s

/-- The bytes of an operand's K-slice that a fetch holds, when it holds only some of its lines. -/
def MillOp.heldBytes (x : MillOp) (f : Filling) (isB : Bool) : Nat :=
  let e := if isB then 1 else 0
  let held (k : Nat) (g : Nat × Nat) : Nat := ((runLines g).filter (fun l => Table.get [] (f.side isB).lines (heldKey k l) ≠ [])).foldl
    (fun n l => n + (min (g.1 + g.2) (128 * (l + 1)) - max g.1 (128 * l))) 0
  (x.parts f.job f.k0 f.k1 isB).foldl (fun n p => p.rows.foldl (fun n r =>
    n + held e (r.bytes p.t) + (if p.t.scale.isSome then held (e + 2) (r.scales p.t) else 0)) n) 0

/-- The bytes that a mill's own thresher has brought of slots in filling that are given up count in what it has filled (R217). -/
def Dev.countPartial (s : Dev) (m : MillId) (gone : TileJob → Bool) : Dev :=
  (s.mill m).filling.foldl (fun s f =>
    match gone f.job, (s.op f.job.slot).map Operation.body with
    | true, some (.mill x) =>
      [false, true].foldl (fun s e =>
        let n := if (f.side e).owner.isNone && !(f.side e).whole then x.heldBytes f e else 0
        if n = 0 then s else s.bump 2 0x106 m.val n) s
    | _, _ => s) s

/-- The tile of a group is abandoned: nothing of it remains in a slot, an array, a curd queue or a running total, and the chain engines take
what then comes first (R212, R214, R333). -/
def Dev.abandon (s : Dev) (j : TileJob) : Dev :=
  let here (x : TileJob) : Bool := x.slot = j.slot && x.ordinal = j.ordinal
  let s := j.group.foldl (fun s g => match millId g with
    | none => s
    | some m => (((s.countPartial m here).modMill m (fun x =>
      { x with
        fill := x.fill.filter (fun f => !here f), filling := x.filling.filter (fun f => !here f.job), slots := x.slots.filter (fun e => !here e.job), cur := x.cur.filter (fun c => !here c.job),
        finished := x.finished.filter (fun e => !here e.job), curd := x.curd.filter (fun e => !here e.job),
        total := x.total.filter (fun e => !here e.job) })).forgetReads j.slot (fun n => n < 0x30 && n / 4 = m.val % 12))) s
  (j.group.head?.bind millId).elim s (fun m => s.intakeDie (millDie m).val)

/-- Everything of an operation that its mills hold is discarded, but for tiles that a chain engine is writing (R138, R212, R216). -/
def Dev.discardMills (s : Dev) (slot : SlotId) : Dev :=
  match s.op slot with
  | none => s
  | some o =>
    let s := (s.opMills o).foldl (fun s n => (millId n).elim s (fun m => s.countPartial m (fun j => j.slot = slot))) s
    let s := { s with cmd := { s.cmd with mills := s.cmd.mills.map (fun x =>
      { x with
        fill := x.fill.filter (fun f => f.slot ≠ slot), filling := x.filling.filter (fun f => f.job.slot ≠ slot), slots := x.slots.filter (fun e => e.job.slot ≠ slot),
        cur := x.cur.filter (fun c => c.job.slot ≠ slot), finished := x.finished.filter (fun e => e.job.slot ≠ slot),
        curd := x.curd.filter (fun e => e.job.slot ≠ slot), total := x.total.filter (fun e => e.job.slot ≠ slot || e.last) }) } }
    if millOpcode (iOpcode o.word) then s.intakeDie (homeDie o.queue).val else s

/-- The status a failure reason gives an operation (R175, R214, R215). -/
def failStatus (reason : Nat) : Nat := if reason = 6 then 4 else 3

/-- An operation meets a failure: the first stands, and no further unit is taken (R214, R215). Its address is kept for a realm refusal
too (log entry 79). -/
def Dev.failOp (s : Dev) (slot : SlotId) (reason va : Nat) : Dev :=
  s.modOp slot (fun o => if o.failed.isSome then o else { o with failed := some (failStatus reason, reason), faultAddr := va })

/-- The port of a thresher's stream (R455). -/
def Dev.thresherPort (s : Dev) (o : Operation) (m : MillId) (f : Nat) : Port :=
  ⟨millDie m, 4 * (m.val % 12) + f, o.queue.val, (s.queue o.queue).asid.toNat, 0, some o.slot, false⟩
/-- The port of a chain engine, which reads what it applies to a tile once (R223, R244, R455). -/
def Dev.chainPort (s : Dev) (o : Operation) (m : MillId) : Port :=
  ⟨millDie m, 0x30 + m.val % 12, o.queue.val, (s.queue o.queue).asid.toNat, 0, some o.slot, true⟩

/-- A block of an operand: its values by row, and the keys of its flushed elements. -/
def Dev.readBlock (s : Dev) (p ps : Port) (t : Tensor) (operand cols : Nat) (coords : List (List (List Nat))) :
    Dev × Fetch (List (List Val) × List Nat) :=
  Fetch.andThen (s.readValsS p ps t coords.flatten) fun s vs =>
    (s, .ok (splitRows cols coords.length (vs.map Prod.fst),
      ((coords.flatten.zip vs).filter (fun x => x.2.2 ≠ 0)).map (fun x => elemKey operand (linearIdx x.1 t.exts))))

/-- The prologue over the rows of an operand block (R200, R201, R203, R235, R751): its new values, and each element's counts. -/
def prologue (c : CfgBlock) (env : ChainEnv) (t : Tensor) (coords : List (List (List Nat))) (vals : List (List Val)) :
    List (List Val) × List (Nat × Counts) :=
  let rows := (coords.zip vals).zipIdx.map (fun (row : (List (List Nat) × List Val) × Nat) =>
    let idxs := row.1.1.map (fun co => linearIdx co t.exts)
    if t.fmt.isMx then
      let blocks := chunks 32 (row.1.2.length + 1) (row.1.2.zip idxs)
      (blocks.zipIdx.flatMap (fun (b : List (Val × Nat) × Nat) =>
        let fs := b.1.map (fun v => ({ x := v.1 } : Flow))
        ((mxStages c env t.round (b.1.map Prod.snd) row.2 (32 * b.2) c.staged 0 (127, fs)).2.zip (b.1.map Prod.snd))))
    else
      (row.1.2.zip idxs).zipIdx.map (fun (v : (Val × Nat) × Nat) =>
        (runStages c env t.round v.1.2 row.2 v.2 c.staged 0 1 { x := v.1.1 }, v.1.2)))
  (rows.map (fun r => r.map (fun e => e.1.x)), rows.flatten.map (fun e => (e.2, e.1.counts)))

/-- An operand block through the prologue, if the operation has one on it. -/
def Dev.proBlock (s : Dev) (p : Port) (x : MillOp) (on : Bool) (t : Tensor) (operand r0 extent k0 nk batchIdx : Nat)
    (coords : List (List (List Nat))) (v : List (List Val) × List Nat) : Dev × Fetch (List (List Val) × List Nat × List (Nat × Counts)) :=
  match on, x.pro with
  | true, some c =>
    let rows := (List.range coords.length).map (fun i => r0 + i + extent * batchIdx)
    Fetch.andThen (s.chainEnv p c k0 nk rows (fun _ _ => [])) fun s env =>
      let r := prologue c env.1 t coords v.1
      (s, .ok (r.1, v.2 ++ env.2.map (· + 8 * 2 ^ 160), r.2.map (fun e => (elemKey operand e.1, e.2))))
  | _, _ => (s, .ok (v.1, v.2, []))

/-- The number of lines a thresher may wait for (R331). -/
def thresherOutstanding : Nat := 512

/-- The lines of a fetch stream that are not held yet are fetched: those whose translations are at hand are held, the others asked for, and
no more than 512 are waited for (R198, R331, R456). Answers how many are waited for now. -/
def Dev.fetchLines (s : Dev) (p : Port) (f : Nat) : List Nat → Table (List Byte) → Nat → Dev × Fetch (Table (List Byte) × Nat)
  | [], held, n => (s, .ok (held, n))
  | l :: ls, held, n =>
    if Table.get [] held (heldKey f l) ≠ [] then s.fetchLines p f ls held n
    else if thresherOutstanding ≤ n then (s, .ok (held, n))
    else match s.readVa p (128 * l) 128 with
      | (s, .ok d) => s.fetchLines p f ls (Table.set [] held (heldKey f l) d) n
      | (s, .wait) => s.fetchLines p f ls held (n + 1)
      | (s, .fail r a) => (s, .fail r a)

/-- The bytes a K-slice brings of operand A, or of operand B. -/
def MillOp.sideBytes (x : MillOp) (j : TileJob) (k0 k1 : Nat) (isB : Bool) : Nat :=
  let nk := k1 - k0
  if x.kind = .attend then
    (if isB then ((x.b.map (fun t => blockBytes t nk x.k)).getD 0) + (x.v.map (fun t => blockBytes t nk x.n)).getD 0 else blockBytes x.a j.tm x.k)
  else if isB then (x.b.map (fun t => blockBytes t j.tn nk)).getD 0 else blockBytes x.a j.tm nk

/-- Change slot i of those in filling. -/
def Mill.modFilling (y : Mill) (i : Nat) (g : Filling → Filling) : Mill :=
  { y with filling := y.filling.mapIdx (fun k f => if k = i then g f else f) }

/-- An operand's fetch is complete: it is counted for the mill whose thresher fetched it, and fills the slot of every mill that has joined
it (R196). -/
def Dev.fetchDone (s : Dev) (x : MillOp) (m : MillId) (i : Nat) (f : Filling) (isB : Bool) (lines : Table (List Byte)) : Dev :=
  let n := x.sideBytes f.job f.k0 f.k1 isB
  let s := (s.bump 2 0x106 m.val n).modMill m (fun y => y.modFilling i (fun f => f.modSide isB (fun a => { a with lines := lines, whole := true })))
  (List.finRange 96).foldl (fun s o =>
    if millDie o = millDie m && (s.mill o).filling.any (fun g => (g.side isB).owner = some m.val && x.sameSlice f g isB) then
      (s.bump 2 0x107 o.val n).modMill o (fun y => { y with filling := y.filling.map (fun g =>
        if (g.side isB).owner = some m.val && x.sameSlice f g isB then g.modSide isB (fun a => { a with owner := none, lines := lines, whole := true })
        else g) })
    else s) s

/-- One operand of a slot in filling makes what progress it can (R196, R198). A mill whose fetch was another's that has been abandoned
joins a third's, or fetches for itself. Answers how many lines the thresher waits for. -/
def Dev.fetchSide (s : Dev) (o : Operation) (x : MillOp) (m : MillId) (i : Nat) (isB : Bool) (n : Nat) : Dev × Fetch Nat :=
  match (s.mill m).filling[i]? with
  | none => (s, .ok n)
  | some f =>
    let a := f.side isB
    let alive := a.owner.any (fun k => (millId k).any (fun k => (s.mill k).filling.any (fun g =>
      x.sameSlice f g isB && (g.side isB).owner.isNone && !(g.side isB).whole)))
    if a.whole || alive then (s, .ok n)
    else
      let other := if a.owner.isSome then s.fetcherOf x m f isB else none
      let s := s.modMill m (fun y => y.modFilling i (fun f => f.modSide isB (fun a => { a with owner := other })))
      if other.isSome then (s, .ok n)
      else
        let e := if isB then 1 else 0
        let t := if isB then x.b else some x.a
        let port (k h : Nat) : Port := { s.thresherPort o m k with hint := h }
        Fetch.andThen (s.fetchLines (port e ((t.map Tensor.hint).getD 0)) e (x.sliceLines f.job f.k0 f.k1 e) a.lines n) fun s r =>
        Fetch.andThen (s.fetchLines (port (e + 2) ((t.map Tensor.scaleHint).getD 0)) (e + 2) (x.sliceLines f.job f.k0 f.k1 (e + 2)) r.1 r.2) fun s r =>
        let held (k : Nat) : Bool := (x.sliceLines f.job f.k0 f.k1 k).all (fun l => Table.get [] r.1 (heldKey k l) ≠ [])
        if held e && held (e + 2) then (s.fetchDone x m i f isB r.1, .ok r.2)
        else (s.modMill m (fun y => y.modFilling i (fun f => f.modSide isB (fun a => { a with lines := r.1 }))), .ok r.2)

/-- Every slot in filling makes what progress it can, the later ones too while an earlier one waits (R198, R333). -/
def Dev.fetchSlots (s : Dev) (o : Operation) (x : MillOp) (m : MillId) : Nat → Nat → Dev × Fetch Nat
  | 0, n => (s, .ok n)
  | k + 1, n =>
    Fetch.andThen (s.fetchSlots o x m k n) fun s n =>
    Fetch.andThen (s.fetchSide o x m k false n) fun s n => s.fetchSide o x m k true n

/-- The slot that a K-slice whose every byte is held becomes: its elements decoded and through the prologue, whose vectors are read once for
the tile (R198, R200, R244). -/
def Dev.slotOf (s : Dev) (o : Operation) (x : MillOp) (m : MillId) (f : Filling) : Dev × Fetch ScratchSlot :=
  let j := f.job
  let bc := coordOf x.batch j.batch
  let nk := f.k1 - f.k0
  let a := (x.parts j f.k0 f.k1 false).map (heldPart f.a.lines 0 0)
  let b := (x.parts j f.k0 f.k1 true).zipIdx.map (fun p => heldPart f.b.lines 1 (1 + p.2) p.1)
  let nth (l : List (List (List Val) × List Nat)) (i : Nat) : List (List Val) × List Nat := l.getD i ([], [])
  match x.b with
  | none => (s, .wait)
  | some t =>
    if x.kind = .attend then
      (s, .ok ⟨j, f.k0, f.k1, (nth a 0).1, (nth b 0).1, (nth b 1).1, (nth a 0).2 ++ (nth b 0).2 ++ (nth b 1).2, []⟩)
    else
      let ba := batchOf (x.a.exts.drop 2) bc
      let bb := batchOf (t.exts.drop 2) bc
      Fetch.andThen (s.proBlock { s.thresherPort o m 0 with keep := true } x (x.proOn = 1) x.a 0 j.m0 x.m f.k0 nk (linearIdx ba (x.a.exts.drop 2))
        (blockCoords x.transA j.m0 j.tm f.k0 nk ba) (nth a 0)) fun s pa =>
      Fetch.andThen (s.proBlock { s.thresherPort o m 1 with keep := true } x (x.proOn = 2) t 1 j.n0 x.n f.k0 nk (linearIdx bb (t.exts.drop 2))
        (blockCoords (!x.transB) j.n0 j.tn f.k0 nk bb) (nth b 0)) fun s pb =>
      (s, .ok ⟨j, f.k0, f.k1, pa.1, pb.1, [], pa.2.1 ++ pb.2.1, pa.2.2 ++ pb.2.2⟩)

/-- The full slots at the head of those in filling are handed to the mill, in order (R198, R332, R333). -/
def Dev.handSlots (s : Dev) (o : Operation) (x : MillOp) (m : MillId) : Nat → Dev × Fetch Unit
  | 0 => (s, .ok ())
  | fuel + 1 =>
    match (s.mill m).filling with
    | [] => (s, .ok ())
    | f :: _ =>
      if !(f.a.whole && f.b.whole) then (s, .ok ())
      else match s.slotOf o x m f with
        | (s, .wait) => (s, .wait)
        | (s, .fail r a) => (s, .fail r a)
        | (s, .ok e) =>
          let s := s.modMill m (fun y => { y with
            filling := y.filling.tail, slots := y.slots ++ [e],
            fill := if y.filling.tail.isEmpty && (x.ranges f.job).length ≤ y.nextK then none else y.fill })
          (if (s.mill m).fill.isNone then s.forgetReads o.slot (fun n => n < 0x30 && n / 4 = m.val % 12) else s).handSlots o x m fuel

/-- A mill's thresher goes on with its slots, and every K-slice that is whole is handed to the mill (R195 to R199, R330 to R333); a fault or
poison ends the tile (R214, R215). -/
def Dev.fillSlot (s : Dev) (m : MillId) : Dev :=
  match (s.mill m).fill with
  | none => s
  | some j =>
    match s.op j.slot with
    | some o => match o.body with
      | .mill x =>
        let s := s.openFills m 8
        match Fetch.andThen (s.fetchSlots o x m (s.mill m).filling.length 0) (fun s _ => s.handSlots o x m 8) with
        | (s, .fail r a) => ((s.failOp j.slot r a).abandon j).feed (millDie m).val
        | (s, .wait) => s
        | (s, .ok ()) => (s.openFills m 8).feed (millDie m).val
      | _ => s
    | none => s

/-- The number of segments of a tile (R83, R206). -/
def MillOp.tileSegs (x : MillOp) (j : TileJob) : Nat := ceilDiv (j.k1 - j.k0) (segLen x.fp64)

/-- One footprint of one K-block added into the accumulators it covers (R80 to R84, R185, R186). -/
def stepFootprint (x : MillOp) (e : ScratchSlot) (c : Computing) : List Acc :=
  let (fm, fn, fk) := footprint x.cls
  let across := ceilDiv c.job.tn fn
  let r0 := c.fp / across * fm
  let c0 := c.fp % across * fn
  let cut (l : List Val) : List Val := (l.drop (c.blk * fk)).take fk
  c.acc.mapIdx (fun i a =>
    let r := i / c.job.tn
    let n := i % c.job.tn
    if r0 ≤ r && r < r0 + fm && c0 ≤ n && n < c0 + fn then
      a.addBlock x.fp64 (blockSum x.fp64 (List.zipWith mulVal (cut (e.a.getD r [])) (cut (e.b.getD n []))) 1)
    else a)

/-- The steps a slot costs its mill: footprints of every K-block, or the three parts of a key tile (R186, R267). -/
def MillOp.millSteps (x : MillOp) (e : ScratchSlot) : Nat :=
  let foot (cls m n k : Nat) : Nat := let (fm, fn, fk) := footprint cls; ceilDiv m fm * ceilDiv n fn * ceilDiv k fk
  let nk := e.k1 - e.k0
  if x.kind = .attend then
    foot x.cls e.job.tm nk x.k + ceilDiv (x.tileM * x.n) 1024
      + foot (if x.v.any (fun t => t.fmt = .e4m3 || t.fmt = .e5m2) then 1 else 2) e.job.tm x.n nk
  else foot x.cls e.job.tm e.job.tn nk

/-- The steps until a slot is done with: for a key tile the larger of the mill's and its chain engine's (R267). -/
def MillOp.slotSteps (x : MillOp) (e : ScratchSlot) : Nat :=
  if x.kind = .attend && e.k0 < e.k1 then max (x.millSteps e) (2 * x.tileM) else x.millSteps e

/-- 2 to the difference of two FP32 scores: what lines 10 and 11 of R261 round. -/
def exp2Diff (a b : Val) : Real :=
  match addVal a (mulVal b (.fin (-1))) with
  | .nan => .exact .nan
  | .inf n => .exact (if n then .zero false else .inf false)
  | .zero _ => .exact (.fin 1)
  | .fin q => exp2Real q

/-- An encode to nearest even that keeps infinities, decoded again, with its counts (R264). -/
def rneVal (f : Fmt) (v : Real) : Val × Counts :=
  let (code, n) := encodeReal (encode f .rne false) v
  (decodeVal f code 127, n)

/-- Lines 3 to 15 of R261 for one row of a key tile. DESIGN CHOICE (log entry 25): R100 counts the encodes of line 5, and no rule says whether they
count in a computed key tile that is masked for this row throughout. Here they do not, and where some key of the tile is not masked those of its masked
keys count too. -/
def attendRow (x : MillOp) (e : ScratchSlot) (i : Nat) (row : AttRow) (acc : List Acc) : AttRow × List Acc :=
  let masks := (List.range (e.k1 - e.k0)).map (fun t => x.masked (e.job.m0 + i) (e.k0 + t))
  if masks.all id then (row, acc)
  else
    let q := e.a.getD i []
    let sc := e.b.map (fun k => rneVal .fp32 (.exact (mulVal x.sigma (dotAcc false (List.zipWith mulVal q k) (fun _ => 1)))))
    let row := { row with scoreCounts := sc.foldl (fun c v => c.add v.2) row.scoreCounts }
    let sj := (sc.zip masks).map (fun v => if v.2 then .inf true else v.1.1)
    if row.bad || sj.any (fun v => v.isNan || v = .inf false) then ({ row with bad := true }, acc)
    else
      let mt := sj.foldl (minMax true) (.inf true)
      if mt = .inf true then (row, acc)
      else
        let mn := minMax true row.m mt
        let (c, nc) := if row.m = .inf true then (.zero false, {}) else rneVal .fp32 (exp2Diff row.m mn)
        let fv := (x.v.map Tensor.fmt).getD .bf16
        let ps := sj.map (fun v => rneVal fv (exp2Diff v mn))
        let (l, nl) := rneVal .fp32 (.exact (ps.foldl (fun t p => addVal t p.1) (mulVal c row.l)))
        let acc := acc.mapIdx (fun v a =>
          { a with total := addAcc false (mulVal c a.total) (dotAcc false (List.zipWith (fun p vr => mulVal p.1 (vr.getD v (.zero false))) ps e.v) (fun _ => 1)) })
        ({ row with m := mn, l := l, softCounts := ps.foldl (fun n p => n.add p.2) ((row.softCounts.add nc).add nl) }, acc)

/-- A key tile for every row of a query tile. -/
def attendTile (x : MillOp) (e : ScratchSlot) (c : Computing) : Computing :=
  let rows := c.rows.zipIdx.map (fun (r : AttRow × Nat) => attendRow x e r.2 r.1 ((c.acc.drop (r.2 * x.n)).take x.n))
  { c with rows := rows.map Prod.fst, acc := rows.flatMap Prod.snd }

/-- The tile a mill begins to compute from the slot at the head of its scratch (R194, R261 line 1). -/
def startTile (x : MillOp) (j : TileJob) : Computing :=
  { job := j, acc := List.replicate (j.tm * j.tn) {}, blk := 0, fp := 0, flushed := [], pro := [],
    rows := if x.kind = .attend then List.replicate j.tm {} else [] }

/-- What a slot's last step leaves (R83 to R85, R194, R206, R207): the array's next state, and the entry that is finished, if one is. -/
def closeSlot (x : MillOp) (e : ScratchSlot) (c : Computing) : Option Computing × Option CurdEntry :=
  let j := c.job
  let c := { c with blk := 0, fp := 0, flushed := c.flushed ++ e.flushed, pro := c.pro ++ e.pro }
  let lastSlot := (x.ranges j).getLast? = some (e.k0, e.k1)
  let segDone := e.k1 = j.k1 || (e.k1 - j.k0) % segLen x.fp64 = 0
  if x.kind = .attend then
    if lastSlot then (none, some ⟨j, 0, true, c.acc.map Acc.total, c.flushed, c.pro, c.rows⟩) else (some c, none)
  else if !segDone then (some c, none)
  else if x.ksplit = 1 then
    let acc := c.acc.map (Acc.closeSegment x.fp64)
    if lastSlot then
      (none, some ⟨j, 0, true, if x.kind = .part then c.acc.map Acc.part else acc.map Acc.total, c.flushed, c.pro, []⟩)
    else (some { c with acc := acc }, none)
  else
    let seg := (e.k0 - j.k0) / segLen x.fp64
    let entry : CurdEntry := ⟨j, seg, x.tileSegs j ≤ seg + 1, c.acc.map Acc.part, c.flushed, c.pro, []⟩
    (if lastSlot then none else some { c with acc := c.acc.map (fun _ => {}), flushed := [], pro := [] }, some entry)

/-- How a monitor step of a mill counts (R217): the sub-object of its counter. -/
def stepBusy : Nat := 0x100
def stepWaitOperand : Nat := 0x101
def stepWaitCurd : Nat := 0x102
def stepWaitFault : Nat := 0x103
def stepThrottled : Nat := 0x104
def stepIdle : Nat := 0x105

/-- Whether a stream that fills a mill's slots waits on a page request: its own thresher's, or that of a thresher whose fetch it has joined
(R196, R199, R217). -/
def Dev.millFault (s : Dev) (m : MillId) : Bool :=
  let from_ := m.val :: (s.mill m).filling.flatMap (fun f => f.a.owner.toList ++ f.b.owner.toList)
  s.xl.misses.any (fun e => e.die = millDie m && e.pageRequest
    && e.streams.any (fun w => w.stream < 0x30 && from_.any (fun n => w.stream / 4 = n % 12)))

/-- The counter of a step in which a mill has no slot to work on (R217). -/
def Dev.idleCounter (s : Dev) (m : MillId) (y : Mill) : Nat :=
  if y.fill.isSome || y.cur.isSome then (if s.millFault m then stepWaitFault else stepWaitOperand) else stepIdle

/-- A slot that is done with leaves the scratch; a tile or segment that it completes waits for a curd entry (R194, R210, R332). -/
def Mill.closes (y : Mill) (x : MillOp) (e : ScratchSlot) (c : Computing) : Mill :=
  let (cur, f) := closeSlot x e c
  { y with cur := cur, slots := y.slots.tail, finished := f.or y.finished }

/-- One step of a mill's array, if it can perform one: the mill after it, and the counter the step falls in (R185, R210, R218). A mill whose
finished result waits for a curd entry waits (R210). A slot without any K costs no step; a key tile whose chain engine still works after the
mill's own steps keeps the mill waiting (R267; log entry 81). -/
def Dev.arrayStep (s : Dev) (m : MillId) : Mill × Nat :=
  let y := s.mill m
  if y.finished.isSome && 2 ≤ y.curd.length then (y, stepWaitCurd)
  else match y.slots with
  | [] => (y, s.idleCounter m y)
  | e :: _ =>
    match (s.op e.job.slot).map Operation.body with
    | some (.mill x) =>
      let c := y.cur.getD (startTile x e.job)
      let fps := ceilDiv e.job.tm (footprint x.cls).1 * ceilDiv e.job.tn (footprint x.cls).2.1
      let n := if x.kind = .attend then c.blk else c.fp + fps * c.blk
      let counter := if n < x.millSteps e then stepBusy else stepWaitCurd
      if e.k1 ≤ e.k0 then
        (if y.finished.isSome then (y, stepWaitCurd) else (y.closes x e c, s.idleCounter m { y with slots := [] }))
      else if x.slotSteps e ≤ n + 1 then
        let c := if x.kind = .attend then attendTile x e c else { c with acc := stepFootprint x e c }
        if y.finished.isSome && (closeSlot x e c).2.isSome then (y, stepWaitCurd) else (y.closes x e c, counter)
      else
        let c := if x.kind = .attend then { c with blk := c.blk + 1 }
          else
            let acc := stepFootprint x e c
            if c.fp + 1 < fps then { c with acc := acc, fp := c.fp + 1 } else { c with acc := acc, fp := 0, blk := c.blk + 1 }
        ({ y with cur := some c }, counter)
    | _ => (y, stepIdle)

/-- Whether a stream of a die waits for a translation, with a right of some kind wanted. -/
def Dev.streamWaits (s : Dev) (die : Die) (stream : Nat → Bool) (want : Rights → Bool) : Bool :=
  s.xl.misses.any (fun e => e.die = die && e.streams.any (fun w => stream w.stream && want w.rights))

/-- The steps of its key tile that an ATTEND tile's chain engine has softmax work in, from the first (R267). -/
def Dev.softmaxStep (s : Dev) (y : Mill) : Bool :=
  match y.slots.head? with
  | some e => (match (s.op e.job.slot).map Operation.body with
    | some (.mill x) => x.kind = .attend && decide (e.k0 < e.k1) && (y.cur.map Computing.blk).getD 0 < 2 * x.tileM
    | _ => false)
  | none => false

/-- A mill moves its finished result into a free curd entry (R210, R211). -/
def Dev.moveCurd (s : Dev) (m : MillId) : Dev :=
  let y := s.mill m
  match y.finished with
  | none => s
  | some e =>
    if 2 ≤ y.curd.length then s
    else ((s.modMill m (fun y => { y with finished := none, curd := y.curd ++ [e] })).intakeDie (millDie m).val).feed (millDie m).val

/-- The tile a mill's thresher goes on to when it has fetched its own: the lowest-ordinal one that no group has taken (R345). -/
def Dev.nextJob (s : Dev) (m : MillId) : Option (Operation × MillOp × TileJob) :=
  match (s.mill m).op.bind s.op with
  | some o => match o.body with
    | .mill x =>
      (x.groups.find? (fun g => g.contains m.val)).bind (fun g =>
        if o.takes && x.nextTile < x.units then some (o, x, x.job o.slot x.nextTile g (g.findIdx (· = m.val))) else none)
    | _ => none
  | none => none

/-- The lines of a fetch stream, by number, that a mill's thresher has still to fetch for its own tile: those not held of the slots in
filling, then those of its later K-slices (R330, R344). -/
def Dev.ownLines (s : Dev) (m : MillId) (x : MillOp) (f : Nat) (begun : Bool) : List Nat :=
  let y := s.mill m
  (if begun then y.filling.flatMap (fun g =>
      if (g.side (f % 2 = 1)).whole then []
      else (x.sliceLines g.job g.k0 g.k1 f).filter (fun l => Table.get [] (g.side (f % 2 = 1)).lines (heldKey f l) = [])) else [])
    ++ ((y.fill.map (fun j => ((x.ranges j).drop y.nextK).flatMap (fun r => x.sliceLines j r.1 r.2 f))).getD [])

/-- The lines of a fetch stream that a thresher has still to ask for of the slots in filling: those past the 512 that it asks for at once, in
the order in which it asks (R331, R344). What it has joined it does not ask for (R196). -/
def Dev.unasked (s : Dev) (m : MillId) (x : MillOp) (f : Nat) : List Nat :=
  let all := (s.mill m).filling.flatMap (fun g => [0, 2, 1, 3].flatMap (fun e =>
    let a := g.side (e % 2 = 1)
    if a.whole || a.owner.isSome then []
    else ((x.sliceLines g.job g.k0 g.k1 e).filter (fun l => Table.get [] a.lines (heldKey e l) = [])).map (fun l => (e, l))))
  ((all.drop thresherOutstanding).filter (fun l => l.1 = f)).map Prod.snd

/-- The lines ahead of a thresher's last fill request in a stream, as addresses: those of its open slots that it has not asked for, the
K-slices of its tile that it has not begun to fetch, then the next tile's (R344, R345). -/
def Dev.linesAhead (s : Dev) (m : MillId) (f : Nat) : Option (Operation × MillOp × List Nat) :=
  match (s.mill m).op.bind s.op with
  | some o => match o.body with
    | .mill x =>
      let next := ((s.nextJob m).map (fun n => (x.ranges n.2.2).flatMap (fun r => x.sliceLines n.2.2 r.1 r.2 f))).getD []
      let own := s.unasked m x f ++ s.ownLines m x f false
      if (s.mill m).fill.isNone && next.isEmpty then none else some (o, x, (own ++ next).map (· * 128))
    | _ => none
  | none => none

/-- The ordinal of the tile for which a stream's prefetcher looks at a page: its mill's own, while lines of the page are still to be
fetched for it, else the next (R345, R346). -/
def Dev.pageTile (s : Dev) (m : MillId) (f vpn : Nat) : Option Nat :=
  match (s.mill m).op.bind s.op with
  | some o => match o.body with
    | .mill x =>
      if (s.ownLines m x f true).any (fun l => l / 32 = vpn) then (s.mill m).fill.map TileJob.ordinal else (s.nextJob m).map (fun n => n.2.2.ordinal)
    | _ => none
  | none => none

/-- Whether a block of a prefetcher still stands (R346): the tile is its mill's own and lines of the page are still to be fetched, or it is
the tile that no group has taken yet. -/
def Dev.blockStands (s : Dev) (m : MillId) (b : Nat × Nat × Nat) : Bool :=
  ((s.mill m).fill.any (fun j => j.ordinal = b.2.2) && s.pageTile m b.1 b.2.1 = some b.2.2)
    || (s.nextJob m).any (fun n => n.2.2.ordinal = b.2.2)

/-- Whether anything of an operation is left in a mill. -/
def Mill.holds (x : Mill) (slot : SlotId) : Bool :=
  x.fill.any (fun f => f.slot = slot) || x.slots.any (fun e => e.job.slot = slot) || x.cur.any (fun c => c.job.slot = slot)
    || x.finished.any (fun e => e.job.slot = slot) || x.curd.any (fun e => e.job.slot = slot) || x.total.any (fun e => e.job.slot = slot)
    || x.chainTile.any (fun e => e.1 = slot)

/-- Whether row entries or statistics adds of an operation are left in a mill (R249). -/
def Mill.holdsRows (x : Mill) (slot : SlotId) : Bool := x.rows.any (fun r => r.slot = slot) || x.adds.any (fun r => r.slot = slot)

/-- Whether every unit of a mill-class or chain-class operation is done or none further comes, its statistics aside. -/
def Dev.millsDone (s : Dev) (o : Operation) : Bool := o.begun && !o.takes && s.cmd.mills.toList.all (fun x => !x.holds o.slot)

/-- The mills of a K-split group of an operation that has not begun: ksplit of its parameter block as it stands, which is looked at for this
alone and waited for (R189, R335; log entry 80). One that cannot be had is left for the operation's begin to find. -/
def Dev.peekSplit (s : Dev) (o : Operation) (p : Port) : Dev × Fetch Nat :=
  if iOpcode o.word = 0x10 then
    match s.readDesc { p with keep := false } (o.h.getD 3 0) with
    | (s, .ok b) => (s, .ok (((parseMm b).map MmParams.ksplit).getD 1))
    | (s, .wait) => (s, .wait)
    | (s, .fail _ _) => (s, .ok 1)
  else (s, .ok 1)

/-- An operation that a group has accepted in full reads its descriptors once, and takes tiles when it has (R161, R223, R335). -/
def Dev.readBegun (s : Dev) (o : Operation) (lead : MillId) : Dev :=
  match s.readMillOp (s.chainPort o lead) (iOpcode o.word) o.h (s.opMills o) with
  | (s, .wait) => s
  | (s, .invalid) => (s.modOp o.slot (fun o => { o with status := 5, reason := 2 })).feed (millDie lead).val
  | (s, .fail r a) => (s.failOp o.slot r a).feed (millDie lead).val
  | (s, .ok x) =>
    (s.modOp o.slot (fun o => { o with kept := [], body := .mill { x with
      pfDistance := o.sampled.getD 1 0, pfLife := o.sampled.getD 2 0 } })).feed (millDie lead).val

/-- A mill-class or chain-class operation begins once its first group has accepted it in full, and then goes on reading what it needs (R161,
R335, R365). -/
def Dev.beginMill (s : Dev) (o : Operation) : Dev :=
  match (s.opMills o).head?.bind millId with
  | none => s
  | some lead =>
    if o.begun then s.readBegun o lead
    else
      let mine (n : Nat) : Bool := (millId n).any (fun m => (s.mill m).op = some o.slot)
      if !(s.opMills o).any mine then s
      else match s.peekSplit o (s.chainPort o lead) with
        | (s, .ok k) =>
          if (chunks k ((s.opMills o).length + 1) (s.opMills o)).any (fun g => g.all mine) then (s.beginOp o.slot id).readBegun o lead else s
        | (s, _) => s

end Sys2Proof.Machine
end

