-- ==== Sys2Proof/Machine/ChainTile.lean ====
section
/-! DEFINITION. Machine/ChainTile.lean: what a chain engine writes for a tile, and the statistics it adds (R209, R212, R213, R220 to
R222, R232 to R236, R240 to R253, R261 lines 16 to 18, R262, R753). -/

namespace Sys2Proof.Machine

/-- The values of an output tile before its chain, by row, with what they bring: flushed input elements, prologue counts, the rows
of an ATTEND tile, and the elements taken through the intake before the passes of the epilogue (R213). -/
structure TileIn where
  vals : List (List Val)
  flushed : List Nat := []
  pro : List (Nat × Counts) := []
  rows : List AttRow := []
  entries : Nat := 0
  deriving DecidableEq, Repr

/-- The coordinates of an output element at a row and column of a tile: the tile's batch and place in D. -/
def MillOp.coord (x : MillOp) (j : TileJob) (r c : Nat) : List Nat :=
  let full := (j.n0 + c) :: (j.m0 + r) :: coordOf x.batch j.batch
  full.take x.dExts.length

/-- The coordinates in the output tensor: a segment's slice for MATMUL_PART (R208). -/
def MillOp.outCoord (x : MillOp) (j : TileJob) (r c : Nat) : List Nat :=
  let co := x.coord j r c
  if x.kind = .part then
    let seg := j.k0 / segLen x.fp64
    if x.dExts.length = 6 then co.take 5 ++ [seg * x.dExts.getD 5 0 + co.getD 5 0] else co ++ [seg]
  else co

/-- The coordinates of an element in the input of CHAIN, or in a slice of the partials of COMBINE (R209, R240). -/
def MillOp.inCoord (x : MillOp) (j : TileJob) (sl r c : Nat) : List Nat :=
  let co := x.coord j r c
  if x.kind = .combine then (if x.dExts.length = 6 then co.take 5 ++ [sl * x.dExts.getD 5 0 + co.getD 5 0] else co ++ [sl]) else co

/-- The row number of an element for vectors and statistics (R235). -/
def MillOp.rowOf (x : MillOp) (j : TileJob) (r : Nat) : Nat := linearIdx (x.coord j r 0).tail x.dExts.tail

/-- One written row of a tile: element codes and, for MX outputs, the scale codes of its blocks. -/
structure RowOut where
  codes : List Nat
  scales : List Nat
  counts : Counts
  deriving DecidableEq, Repr

/-- A row encoded into a format at a site: element by element, or block by block for MX outputs (R73, R212, R234). -/
def encodeRow (f : Fmt) (spec : RoundSpec) (site : Nat) (vs : List (Val × Nat)) : RowOut :=
  if f.isMx then
    let bs := (chunks 32 (vs.length + 1) vs).map (fun b => encodeBlock f (b.map (fun v => (v.1, spec.at v.2 site))))
    ⟨bs.flatMap (fun b => b.2.1), bs.map Prod.fst, bs.foldl (fun c b => c.add b.2.2) {}⟩
  else
    let es := vs.map (fun v => encodeAt f spec v.2 site v.1)
    ⟨es.map Prod.fst, [], es.foldl (fun c e => c.add e.2) {}⟩

/-- A row of element codes at its address, padding elements of MX outputs as code zero (R57, R58). -/
def rowRuns (d : Tensor) (c0 : List Nat) (o : RowOut) : List (Nat × List Byte) :=
  if o.codes.isEmpty then []
  else
    let codes := if d.fmt.isMx then o.codes ++ List.replicate (ceilDiv o.codes.length 32 * 32 - o.codes.length) 0 else o.codes
    (d.addr c0, packBytes d.fmt.bits codes) :: (if d.fmt.isMx then [(d.scaleAddr c0, packBytes 8 o.scales)] else [])

/-- One row through the chain of an epilogue or CHAIN (R212, R232 to R234, R241): what is written, and what its STATS stages tapped.
Where the output format is sfmt the stage values are written as they are, with no further encode and no further count (R97, R234; log
entry 78). -/
def chainRow (c : CfgBlock) (env : ChainEnv) (d : Tensor) (first : Bool) (r : Nat) (vs : List (Val × Nat)) : RowOut × List Val :=
  let fs := vs.zipIdx.map (fun (v : (Val × Nat) × Nat) =>
    let (x, n) := if first then
        let (code, n) := encodeAt c.sfmt d.round v.1.2 0 v.1.1
        (decodeVal c.sfmt code 127, n)
      else (v.1.1, {})
    (runStages c env d.round v.1.2 r v.2 c.staged 0 1 { x := x, counts := n }, v.1.2))
  let own := fs.foldl (fun n f => n.add f.1.counts) {}
  let o := if d.fmt = c.sfmt then ⟨fs.map (fun f => (encode c.sfmt .rne false f.1.x).1), [], {}⟩
    else encodeRow d.fmt d.round 0x30 (fs.map (fun f => (f.1.x, f.2)))
  ({ o with counts := o.counts.add own }, fs.flatMap (fun f => f.1.taps))

/-- The passes an operation's chain takes over each element (R243). -/
def MillOp.passes (x : MillOp) : Nat := (x.epi.map (fun c => passesOf c.stages)).getD 1

/-- What a tile comes to: its runs of bytes, its counts, and the tapped values of each row. -/
structure TileOut where
  runs : List (Nat × List Byte)
  counts : Counts
  taps : List (Nat × List Val)
  flushed : List Nat
  deriving DecidableEq, Repr

/-- The output of a tile of MATMUL, MATMUL_PART, COMBINE or CHAIN. Without a configuration block every element is encoded once, a
CHAIN's too where its input and output have one format (R212, R753; log entry 78). -/
def Dev.tileOut (s : Dev) (p : Port) (x : MillOp) (j : TileJob) (t : TileIn) : Dev × Fetch TileOut :=
  let rows := t.vals.zipIdx.map (fun (row : List Val × Nat) =>
    (row.2, row.1.zipIdx.map (fun (v : Val × Nat) => (v.1, linearIdx (x.outCoord j row.2 v.2) x.d.exts))))
  match x.epi with
  | none =>
    let outs := rows.map (fun r => (r.1, encodeRow x.d.fmt x.d.round 0 r.2))
    (s, .ok ⟨outs.flatMap (fun o => rowRuns x.d (x.outCoord j o.1 0) o.2), outs.foldl (fun n o => n.add o.2.counts) {}, [], []⟩)
  | some c =>
    let rowNums := rows.map (fun r => x.rowOf j r.1)
    Fetch.andThen (s.chainEnv p c j.n0 j.tn rowNums (fun r k => k :: coordOf x.dExts.tail r)) fun s env =>
      let outs := rows.map (fun r => (r.1, chainRow c env.1 x.d (x.kind ≠ .chain || x.a.fmt ≠ c.sfmt) r.1 r.2))
      (s, .ok ⟨outs.flatMap (fun o => rowRuns x.d (x.outCoord j o.1 0) o.2.1), outs.foldl (fun n o => n.add o.2.1.counts) {},
               outs.map (fun o => (x.rowOf j o.1, o.2.2)), env.2⟩)

/-- The output of an ATTEND tile (R261 lines 16 to 18, R262, R264). -/
def attendOut (x : MillOp) (j : TileJob) (t : TileIn) : TileOut :=
  let rows := (t.vals.zip t.rows).zipIdx.map (fun (r : (List Val × AttRow) × Nat) =>
    let row := r.1.2
    let vs := r.1.1.zipIdx.map (fun (v : Val × Nat) =>
      let out : Val := if row.bad then .nan
        else if row.l = .zero false then .zero false
        else if row.l.rat = 0 then .nan else mulVal v.1 (.fin (1 / row.l.rat))
      (out, linearIdx (x.coord j r.2 v.2) x.d.exts))
    let o := encodeRow x.d.fmt x.d.round 0 vs
    let (lse, nl) : Nat × Counts :=
      if row.bad then (encode .fp32 .rne false .nan)
      else if row.l = .zero false then (infCode .fp32 true, {})
      else encodeReal (encode .fp32 .rne false) (Real.addRat row.m.rat (log2Real row.l.rat))
    let lseRun := match x.lse with
      | none => []
      | some l => [(l.addr (x.coord j r.2 0).tail, leBytes 4 lse)]
    let n := (o.counts.add row.scoreCounts).add (if row.bad then {} else row.softCounts)
    (rowRuns x.d (x.coord j r.2 0) o ++ lseRun, if x.lse.isSome then n.add nl else n))
  ⟨rows.flatMap Prod.fst, rows.foldl (fun n r => n.add r.2) {}, [], []⟩

/-- The input of a CHAIN or COMBINE tile, read once by the thresher of the engine's mill (R209, R240, R244). -/
def Dev.tileInput (s : Dev) (o : Operation) (x : MillOp) (m : MillId) (j : TileJob) : Dev × Fetch TileIn :=
  let coords (sl : Nat) := (List.range j.tm).map (fun r => (List.range j.tn).map (x.inCoord j sl r))
  let p : Port := { s.thresherPort o m 0 with keep := true }
  let ps : Port := { s.thresherPort o m 2 with keep := true }
  if x.kind = .combine then
    (List.range x.segCount).foldl (fun r sl => Fetch.andThen r fun s t =>
      Fetch.andThen (s.readBlock p ps x.a 0 j.tn (coords sl)) fun s v =>
      (s, .ok { t with vals := List.zipWith (List.zipWith (addAcc x.fp64)) t.vals v.1, flushed := t.flushed ++ v.2, entries := t.entries + 1 }))
      (s, .ok ⟨List.replicate j.tm (List.replicate j.tn (.zero false)), [], [], [], 0⟩)
  else
    Fetch.andThen (s.readBlock p ps x.a 0 j.tn (coords 0)) fun s v => (s, .ok ⟨v.1, v.2, [], [], 0⟩)

/-- The integer of a value in units of 2^−e, exact for the values a STATS stage taps (R245). -/
def fixedOf (e : Nat) (q : Rat) : Int := (q * ((2 ^ e : Nat) : Rat)).floor

/-- The staging entry of a row: the tapped values added exactly (R247). -/
def stageRow (slot : SlotId) (base row : Nat) (vs : List Val) : RowEntry :=
  vs.foldl (fun e v =>
    if v.isNan || v.isInf then { e with count := e.count + 1, nonfinite := true }
    else { e with sum := e.sum + fixedOf 149 v.rat, sumsq := e.sumsq + (fixedOf 298 (v.rat * v.rat)).toNat, count := e.count + 1 })
    { slot := slot, row := row, addr := base + 256 * row, sum := 0, sumsq := 0, count := 0, nonfinite := false }

/-- A staging entry joins the row entries, most recently joined last; the least recently joined is displaced past 512 (R221, R248, R249). -/
def Mill.joinRow (x : Mill) (e : RowEntry) : Mill :=
  let same (r : RowEntry) : Bool := r.slot = e.slot && r.row = e.row
  let old := x.rows.find? same
  let e := match old with
    | none => e
    | some r => { e with sum := r.sum + e.sum, sumsq := r.sumsq + e.sumsq, count := r.count + e.count, nonfinite := r.nonfinite || e.nonfinite }
  let rows := x.rows.filter (fun r => !same r) ++ [e]
  { x with rows := rows.drop (rows.length - 512), adds := x.adds ++ rows.take (rows.length - 512) }

/-- The new keys of a list, each once, that a table does not mark (R96, R203). -/
def newKeys (seen : Table Bool) : List Nat → List Nat
  | [] => []
  | k :: ks => if Table.get false seen k || ks.contains k then newKeys seen ks else k :: newKeys seen ks

/-- Keys marked as counted. -/
def markKeys (seen : Table Bool) (ks : List Nat) : Table Bool := ks.foldl (fun t k => Table.set false t k true) seen

/-- A written tile counts in its operation (R96, R97, R101, R177, R203). -/
def Operation.countTile (o : Operation) (ordinal : Nat) (n : Counts) (flushed : List Nat) (pro : List (Nat × Counts)) : Operation :=
  let ks := newKeys o.flushSeen flushed
  let ps := newKeys o.proSeen (pro.map Prod.fst)
  let proN := ps.foldl (fun c k => c.add (((pro.find? (fun e => e.1 = k)).map Prod.snd).getD {})) {}
  { o with
    written := o.written ++ [ordinal], counts := ((o.counts.add n).add proN).add { flushedIn := ks.length },
    flushSeen := markKeys o.flushSeen ks, proSeen := markKeys o.proSeen ps }

/-- The streams that have read what a chain engine needs for its tile (R240, R244). -/
def MillOp.tileStreams (x : MillOp) (m : MillId) (n : Nat) : Bool :=
  n = 0x30 + m.val % 12 || ((x.kind = .chain || x.kind = .combine) && n < 0x30 && n / 4 = m.val % 12)

/-- A tile's last element is written: the whole tile in memory, its counts, its rows joined, its engine free (R178, R212, R248). What the
tile has read is held until then, so that a tile that waits reads nothing twice (R244). -/
def Dev.writeTile (s : Dev) (o : Operation) (x : MillOp) (m : MillId) (j : TileJob) (t : TileIn) (done : Mill → Mill) : Dev :=
  let p := s.chainPort o m
  let out := if x.kind = .attend then (s, .ok (attendOut x j t)) else s.tileOut p x j t
  let fail (s : Dev) (r a : Nat) : Dev :=
    ((((s.failOp o.slot r a).forgetReads o.slot (x.tileStreams m)).modMill m done).abandon j).feed (millDie m).val
  match out with
  | (s, .wait) => s
  | (s, .fail r a) => fail s r a
  | (s, .ok w) =>
    match s.writeUnit p x.d.hint false w.runs with
    | (s, .wait) => s
    | (s, .fail r a) => fail s r a
    | (s, .ok ()) =>
      let n := j.tm * j.tn
      let s := s.bump 3 0x105 m.val ((x.passes + t.entries) * n)
      let s := if x.passes = 1 then s else s.bump 3 0x106 m.val ((x.passes - 1) * n)
      let s := (s.forgetReads o.slot (x.tileStreams m)).modOp o.slot (fun o => o.countTile j.ordinal w.counts (t.flushed ++ w.flushed) t.pro)
      let base := ((x.epi.bind CfgBlock.statsOut).map ByteBuf.base).getD 0
      let taps := w.taps.filter (fun r => !r.2.isEmpty)
      let s := s.modMill m (fun y => taps.foldl (fun y r => y.joinRow (stageRow o.slot base r.1 r.2)) (done y))
      (s.intakeDie (millDie m).val).feed (millDie m).val

/-- TILE_WRITTEN (R212): the tile whose total is whole, or the CHAIN or COMBINE tile the engine has taken. -/
def Dev.tileWritten (s : Dev) (m : MillId) : Dev :=
  let y := s.mill m
  match y.total with
  | some e =>
    if !e.last then s
    else
      match s.op e.job.slot with
      | some o => match o.body with
        | .mill x =>
          let entries := if x.ksplit = 1 then 0 else max 1 (x.tileSegs e.job)
          s.writeTile o x m e.job ⟨splitRows e.job.tn e.job.tm e.vals, e.flushed, e.pro, e.rows, entries⟩ (fun y => { y with total := none })
        | _ => s
      | none => s
  | none =>
    match y.chainTile with
    | none => s
    | some (slot, ordinal) =>
      match s.op slot with
      | some o => match o.body with
        | .mill x =>
          let j := x.job slot ordinal [m.val] 0
          match s.tileInput o x m j with
          | (s, .wait) => s
          | (s, .fail r a) =>
            (((s.failOp slot r a).forgetReads slot (x.tileStreams m)).modMill m (fun y => { y with chainTile := none })).feed (millDie m).val
          | (s, .ok t) => s.writeTile o x m j t (fun y => { y with chainTile := none })
        | _ => s
      | none => s

/-- The fields of a statistics record (R245). -/
structure StatRec where
  nAcc : Nat
  nExp : Nat
  final : Bool
  nonfinite : Bool
  overrun : Bool
  moments : Nat
  sum : Nat
  sumsq : Nat
  rest : Nat
  deriving DecidableEq, Repr

/-- A record's 2,048 bits read (R245). -/
def parseRec (b : Nat) : StatRec :=
  ⟨bits b 31 0, bits b 63 32, bit b 64, bit b 65, bit b 66, bits b 223 128, bits b 575 256, bits b 1215 576,
   bits b 127 67 * 2 ^ 67 + bits b 255 224 * 2 ^ 224 + bits b 2047 1216 * 2 ^ 1216⟩

/-- A record's 2,048 bits (R245). -/
def StatRec.bits (r : StatRec) : Nat :=
  r.nAcc + r.nExp * 2 ^ 32 + b2n r.final * 2 ^ 64 + b2n r.nonfinite * 2 ^ 65 + b2n r.overrun * 2 ^ 66 + r.moments * 2 ^ 128
    + r.sum * 2 ^ 256 + r.sumsq * 2 ^ 576 + r.rest

/-- The mean, variance and mean of squares of a record (R251), as three FP32 codes, with their counts. -/
def finalise (r : StatRec) : Nat × Counts :=
  let n : Rat := (r.nExp : Nat)
  let sx : Rat := (signedOf 320 r.sum : Int) * pow2 (-149)
  let sq : Rat := ((r.sumsq : Nat) : Rat) * pow2 (-298)
  let enc (q : Rat) : Nat × Counts := if r.nonfinite then encode .fp32 .rne false .nan else encode .fp32 .rne false (Val.ofRat q)
  let mean := enc (sx / n)
  let var := enc ((n * sq - sx * sx) / (n * n))
  let msq := enc (sq / n)
  (mean.1 + var.1 * 2 ^ 32 + msq.1 * 2 ^ 64, (mean.2.add var.2).add msq.2)

/-- A statistics add into a record: the new record, and the counts of its finalisation if it finalises (R250 to R253). -/
def statsAdd (r : StatRec) (e : RowEntry) : StatRec × Option Counts :=
  let n := r.nAcc + e.count
  if r.nExp < n || 2 ^ 32 ≤ n then ({ r with overrun := true, final := false }, none)
  else
    let r := { r with
      nAcc := n, nonfinite := r.nonfinite || e.nonfinite, sum := codeOf 320 (signedOf 320 r.sum + e.sum), sumsq := (r.sumsq + e.sumsq) % 2 ^ 640 }
    if n = r.nExp then
      let f := finalise r
      ({ r with final := true, moments := f.1 }, some f.2)
    else (r, none)

/-- The next statistics add of a mill: one displaced, or a row entry of an operation whose units are done (R249). -/
def Dev.nextAdd (s : Dev) (m : MillId) : Option RowEntry :=
  let y := s.mill m
  y.adds.head?.or (y.rows.find? (fun r => (s.op r.slot).any s.millsDone))

/-- A row entry leaves its mill. -/
def Mill.dropAdd (x : Mill) (e : RowEntry) : Mill :=
  if x.adds.head? = some e then { x with adds := x.adds.tail } else { x with rows := removeFirst (· == e) x.rows }

/-- A mill holds no line of a statistics add any longer (R399). -/
def Dev.unpin (s : Dev) (m : MillId) : Dev :=
  match dieAgent (millDie m) with
  | some a => s.modAgent a (fun x => { x with pinned := x.pinned.filter (fun e => e.2 ≠ m.val) })
  | none => s

/-- One line of a statistics add is owned by ReadOwn, and held (R398, R399); whether it is now. -/
def Dev.pinLine (s : Dev) (a : Agent) (m : MillId) (hint : Nat) (t : LineTag) : Dev × Bool :=
  if (s.agent a).pinned.contains (t, m.val) then (s, true)
  else if s.lineBusy t then (s, false)
  else match s.readyLine a (0x30 + m.val % 12) t hint with
    | (s, false) => (s, false)
    | (s, true) => match s.ownWrite a t 0 [] 0 hint with
      | none => (s.evbWait a, false)
      | some s => (s.modAgent a (fun x => { x with pinned := x.pinned ++ [(t, m.val)] }), true)

/-- The lines of a statistics add, the lower first, each held while the next is obtained (R399). -/
def Dev.pinLines (s : Dev) (a : Agent) (m : MillId) (hint : Nat) : List LineTag → Dev × Bool
  | [] => (s, true)
  | t :: ts =>
    match s.pinLine a m hint t with
    | (s, true) => s.pinLines a m hint ts
    | (s, false) => (s, false)

/-- The record of a statistics add, once its mill holds both lines: a wait, a failure, or its pieces (R250, R398, R399, R535). -/
def Dev.holdRecordOf (s : Dev) (p : Port) (m : MillId) (addr hint : Nat) : Dev × Fetch (List Piece) :=
  Fetch.andThen (s.translateAll p wantAtomic (pagePieces addr 256 3)) fun s ps =>
    match s.plainRefusal p ps with
    | some (va, r) => (s.reportRealm p va 1 r, .fail 0xD va)
    | none => match dieAgent p.die with
      | none => (s, .wait)
      | some a => match s.pinLines a m hint (pieceLines ps) with
        | (s, false) => (s, .wait)
        | (s, true) => match s.poisonIn ps with
          | some va => (s, .fail 6 va)
          | none => (s.countHits p ps, .ok ps)

/-- The cache hint of the statistics buffer that an operation adds to (R160). -/
def Operation.statsHint (o : Operation) : Nat :=
  match o.body with
  | .mill x => ((x.epi.bind CfgBlock.statsOut).map ByteBuf.hint).getD 0
  | _ => 0

/-- STATS_ADD (R249, R250, R399): one atomic add into a row's record, whose two lines its mill holds meanwhile; one that fails is lost, and the
entries after it are still written. -/
def Dev.performAdd (s : Dev) (m : MillId) : Dev :=
  match s.nextAdd m with
  | none => s
  | some e =>
    match s.op e.slot with
    | none => (s.unpin m).modMill m (fun y => y.dropAdd e)
    | some o =>
      let p := s.chainPort o m
      match s.holdRecordOf p m e.addr o.statsHint with
      | (s, .wait) => s
      | (s, .fail r a) => ((s.unpin m).failOp e.slot r a).modMill m (fun y => y.dropAdd e)
      | (s, .ok ps) =>
        let d := ps.flatMap (fun x => (s.physRead x.pa x.len x.realm).1)
        let (r, fin) := statsAdd (parseRec (leNat d)) e
        match s.writePieces p 0 ps (leBytes 256 r.bits) [] with
        | none => s.writeWait p.die
        | some s =>
          let s := (s.unpin m).bump 3 0x107 m.val 1
          let s := match fin with
            | none => s
            | some n => (s.bump 3 0x108 m.val 1).modOp e.slot (fun o => { o with counts := o.counts.add n })
          s.modMill m (fun y => y.dropAdd e)

/-- The lines of runs of bytes whose translations a die holds. -/
def Dev.runTags (s : Dev) (p : Port) (want : Rights) (runs : List (Nat × Nat)) : List LineTag :=
  ((runs.flatMap runLines).eraseDups).filterMap (fun l => (s.tcHit p.die p.asid (l / 32) want).map (fun e =>
    tagOf (e.pa + (l / 32 - e.vpn) * 4096 + l % 32 * 128) e.realm))

/-- The runs of bytes of the rows of a tile in a tensor: elements and scales. -/
def tileRuns (t : Tensor) (j : TileJob) (coord : Nat → List Nat) : List (Nat × Nat) :=
  (List.range j.tm).flatMap (fun r =>
    let row : OpRow := ⟨coord r, j.tn⟩
    row.bytes t :: (if t.scale.isSome then [row.scales t] else []))

/-- Whether the L2 cannot accept now what a chain engine writes of its tile (R269). -/
def Dev.writeWaits (s : Dev) (o : Operation) (x : MillOp) (m : MillId) (j : TileJob) : Bool :=
  let p := s.chainPort o m
  let ts := s.runTags p wantWrite (tileRuns x.d j (fun r => x.outCoord j r 0))
  ts.any s.lineBusy || !(s.readyLines p.die (requesterOf p.stream) x.d.hint ts).2

/-- Whether the L2 cannot give now what a CHAIN or COMBINE tile reads (R269). -/
def Dev.inputWaits (s : Dev) (o : Operation) (x : MillOp) (m : MillId) (j : TileJob) : Bool :=
  let p := s.thresherPort o m 0
  let ts := s.runTags p wantRead (if x.kind = .combine then (List.range x.segCount).flatMap (fun sl => tileRuns x.a j (x.inCoord j sl · 0))
    else tileRuns x.a j (x.inCoord j 0 · 0))
  ts.any s.lineBusy || !(s.readLines p.die (requesterOf p.stream) x.a.hint ts).2

/-- The counter a monitor step of a mill's chain engine falls in (R269, R270): a write or a statistics add that the L2 does not accept, work
on a tile, an input that is not there, or no operation. -/
def Dev.chainStep (s : Dev) (m : MillId) : Nat :=
  let y := s.mill m
  let mine (n : Nat) : Bool := n = 0x30 + m.val % 12
  let with_ (slot : SlotId) (f : Operation → MillOp → Bool) : Bool := (s.op slot).any (fun o => match o.body with
    | .mill x => f o x
    | _ => false)
  if s.streamWaits (millDie m) mine (fun r => r.w || r.a) then 0x102
  else if y.total.any (fun e => e.last && with_ e.job.slot (fun o x => s.writeWaits o x m e.job)) then 0x102
  else if y.total.any (fun e => e.last) || s.softmaxStep y then (if s.streamWaits (millDie m) mine (fun _ => true) then 0x101 else 0x100)
  else if y.chainTile.isSome then
    (if s.streamWaits (millDie m) (fun n => mine n || (n < 0x30 && n / 4 = m.val % 12)) (fun _ => true)
        || y.chainTile.any (fun c => with_ c.1 (fun o x => s.inputWaits o x m (x.job c.1 c.2 [m.val] 0))) then 0x101
      else if y.chainTile.any (fun c => with_ c.1 (fun o x => s.writeWaits o x m (x.job c.1 c.2 [m.val] 0))) then 0x102 else 0x100)
  else if (s.nextAdd m).isSome then 0x102
  else if y.op.isSome || y.total.isSome || !y.curd.isEmpty then 0x101 else 0x104

/-- MILL_STEP (R185, R217, R218, R269, R270): a monitor step of a mill and of its chain engine. -/
def Dev.millStep (s : Dev) (m : MillId) (throttled : Bool) : Dev :=
  if throttled && decide (0 < s.throttle (millDie m).val) then (s.bump 2 stepThrottled m.val 1).bump 3 0x103 m.val 1
  else
    let chain := s.chainStep m
    let (y, counter) := s.arrayStep m
    (((s.setMill m y).bump 2 counter m.val 1).bump 3 chain m.val 1).openFills m 8

/-- A monitor step of a mill (R185, R218). -/
def execMillStep (m : MillId) (throttled : Bool) (s : State) : Result := s.run fun s => (s.millStep m throttled)
/-- A K-slice is whole in its slot (R198). -/
def execSlotFillComplete (m : MillId) (s : State) : Result := s.run fun s => (s.fillSlot m)
/-- A finished result moves into a free curd entry (R211). -/
def execCurdMove (m : MillId) (s : State) : Result := s.run fun s => (s.moveCurd m)
/-- A chain engine writes the last element of a tile (R212). -/
def execTileWritten (m : MillId) (s : State) : Result := s.run fun s => (s.tileWritten m)
/-- A row entry is added into its record (R250). -/
def execStatsAdd (m : MillId) (s : State) : Result := s.run fun s => (s.performAdd m)

end Sys2Proof.Machine
end

