-- ==== Sys2Proof/Machine/SheafCore.lean ====
section
/-! DEFINITION. Machine/SheafCore.lean: LAUNCH, stooks on processors, the fields and validity of a sheaf instruction, its issue by a
group, and how stooks exit and fault (R168, R272 to R295, R302 to R313). -/

namespace Sys2Proof.Machine

/-- A resident stook by its number. -/
def Dev.stook (s : Dev) (id : Nat) : Option Stook := s.shf.stooks.find? (fun k => k.id = id)

/-- Change a resident stook. -/
def Dev.modStook (s : Dev) (id : Nat) (f : Stook → Stook) : Dev :=
  { s with shf := { s.shf with stooks := s.shf.stooks.map (fun k => if k.id = id then f k else k) } }

/-- Change one element of a list. -/
def modAt {α : Type} (l : List α) (i : Nat) (f : α → α) : List α := l.mapIdx (fun j x => if j = i then f x else x)

/-- Change a sheaf of a stook. -/
def Dev.modSheaf (s : Dev) (id k : Nat) (f : Sheaf → Sheaf) : Dev := s.modStook id (fun st => { st with sheaves := modAt st.sheaves k f })

/-- The LAUNCH of a stook. -/
def Dev.launchOf (s : Dev) (st : Stook) : Option (Operation × LaunchOp) :=
  match s.op st.slot with
  | some o => (match o.body with
    | .launch l => some (o, l)
    | _ => none)
  | none => none

/-- The processors a queue's sheaf_mask selects on its home die (R272). -/
def procsOf (die mask : Nat) : List Nat := ((List.range 32).filter (bit mask)).map (fun i => 32 * die + i)

/-- The parameter block of LAUNCH (R275), its codes and ranges checked as R276 says. -/
structure LaunchParams where
  timeout : Nat
  entry : Nat
  smem : Nat
  grid : Nat × Nat × Nat
  regs : Nat
  sheaves : Nat
  ieee : Bool
  width : Nat
  deriving DecidableEq, Repr

/-- Reads the parameter block of LAUNCH (R275, R276). -/
def parseLaunch (b : Nat) : Option LaunchParams :=
  let g0 := bits b 191 176
  let g1 := bits b 207 192
  let g2 := bits b 223 208
  let t := bits b 319 288
  if descKind b = 2 && bits b 123 112 = 0x030 && bits b 511 320 = 0 && bits b 255 240 = 0 && bits b 175 128 = 0 && bits b 111 18 = 0
      && !bit b 3 && bits b 1 0 < 3 && 16 ≤ bits b 17 10 && 1 ≤ bits b 9 4 && bits b 9 4 ≤ 32 && bits b 239 224 ≤ 256
      && 1 ≤ g0 && 1 ≤ g1 && 1 ≤ g2 && g0 * g1 * g2 ≤ 0xFFFFFFFF && (t = 0 || (10 ≤ t && t ≤ 60000000)) then
    some ⟨t, bits b 287 256, bits b 239 224, (g0, g1, g2), bits b 17 10, bits b 9 4, bit b 2, 16 * 2 ^ bits b 1 0⟩
  else none

/-- The registers one stook allocates (R279). -/
def stookRegs (sheaves width regs : Nat) : Nat := sheaves * width * (ceilDiv regs 8 * 8)

/-- Whether one stook fits on an empty processor (R276, R279). -/
def fitsEmpty (x : LaunchParams) : Bool := stookRegs x.sheaves x.width x.regs ≤ 131072 && x.sheaves * x.width ≤ 2048

/-- What the resident stooks of a processor allocate: registers, stalks, sheaves, stooks and stook memory (R279). -/
def Dev.procLoad (s : Dev) (p : Nat) : Nat × Nat × Nat × Nat × Nat :=
  (s.shf.stooks.filter (fun k => k.proc.val = p)).foldl (fun a k =>
    match s.launchOf k with
    | some (_, l) => (a.1 + stookRegs l.sheaves l.width l.regs, a.2.1 + l.sheaves * l.width, a.2.2.1 + l.sheaves, a.2.2.2.1 + 1, a.2.2.2.2 + l.smem)
    | none => a) (0, 0, 0, 0, 0)

/-- Whether a stook of a LAUNCH fits on a processor (R279). -/
def Dev.stookFits (s : Dev) (l : LaunchOp) (p : Nat) : Bool :=
  let a := s.procLoad p
  a.1 + stookRegs l.sheaves l.width l.regs ≤ 131072 && a.2.1 + l.sheaves * l.width ≤ 2048 && a.2.2.1 + l.sheaves ≤ 128
    && a.2.2.2.1 + 1 ≤ 64 && a.2.2.2.2 + l.smem ≤ 256

/-- The port of a sheaf processor's quarter (R455). -/
def Dev.sheafPort (s : Dev) (o : Operation) (proc quarter : Nat) : Port :=
  ⟨homeDie o.queue, 0x3C + 4 * (proc % 32) + quarter, o.queue.val, (s.queue o.queue).asid.toNat, 0, some o.slot, false⟩

/-- What a LAUNCH reads at its begin (R161, R165, R168, R274 to R276, R313): its code region is bound. -/
def Dev.readLaunch (s : Dev) (o : Operation) : Dev × Named LaunchOp :=
  let x := s.queue o.queue
  let die := (homeDie o.queue).val
  let procs := procsOf die x.sheafMask.toNat
  match procs.head? with
  | none => (s, .invalid)
  | some p0 =>
    let p : Port := { s.sheafPort o p0 0 with keep := true }
    let asid := x.asid.toNat
    let opt (b : Option ByteBuf) : List Nat := match b with
      | none => [0, 0]
      | some b => [b.base, b.len]
    Named.andThen (s.named p (o.h.getD 0 0) parseProgram) fun s code =>
    Named.andThen (s.named p (o.h.getD 1 0) parseLaunch) fun s pr =>
    Named.andThen (s.optBytes p (o.h.getD 2 0)) fun s b2 =>
    Named.andThen (s.optBytes p (o.h.getD 3 0)) fun s b3 =>
    let (ty, region, base, len) := code
    if ty ≠ 1 || base % 8 ≠ 0 || len % 8 ≠ 0 || !(pr.entry < len / 8) || !fitsEmpty pr then (s, .invalid)
    else
      Named.andThen (Fetch.toNamed (s.regionOf p region)) fun s r =>
      match r with
      | none => (s, .invalid)
      | some (rb, pages) =>
        if rb ≤ base && base + len ≤ rb + pages * 4096 && s.binds asid region < 65535 then
          (s.bind asid region rb pages, .ok
            { width := pr.width, sheaves := pr.sheaves, regs := pr.regs, smem := pr.smem, grid := pr.grid, ieee := pr.ieee, entry := pr.entry,
              timeoutUs := if pr.timeout = 0 then o.sampled.getD 0 0 else pr.timeout, codeBase := base, codeLen := len / 8, region := region,
              args := opt b2 ++ opt b3, procs := procs })
        else (s, .invalid)

/-- A LAUNCH that has begun reads what it needs, and starts stooks when it has (R161, R274, R335). -/
def Dev.beginLaunch (s : Dev) (o : Operation) : Dev :=
  match s.readLaunch o with
  | (s, .wait) => s
  | (s, .invalid) => s.modOp o.slot (fun o => { o with status := 5, reason := 2 })
  | (s, .fail r a) => s.failOp o.slot r a
  | (s, .ok l) => s.modOp o.slot (fun o => { o with kept := [], body := .launch l })

/-- The stooks of a LAUNCH's grid. -/
def LaunchOp.stooks (l : LaunchOp) : Nat := l.grid.1 * l.grid.2.1 * l.grid.2.2

/-- The processors of a LAUNCH from the one after the last that took a stook (R278). -/
def LaunchOp.order (l : LaunchOp) : List Nat := l.procs.filter (fun p => l.lastProc < p) ++ l.procs.filter (fun p => p ≤ l.lastProc)

/-- The quarter with the fewest resident sheaves, the lowest-numbered on a tie (R285). -/
def leastQuarter (counts : List Nat) : Nat :=
  (List.range 4).foldl (fun best q => if counts.getD q 0 < counts.getD best 0 then q else best) 0

/-- The sheaves resident on each quarter of a processor. -/
def Dev.quarterCounts (s : Dev) (p : Nat) : List Nat :=
  let l := (s.shf.stooks.filter (fun k => k.proc.val = p)).flatMap (fun k => k.sheaves.map Sheaf.quarter)
  (List.range 4).map (fun q => (l.filter (· = q)).length)

/-- Quarters for so many new sheaves (R285). -/
def placeSheaves : Nat → List Nat → List Nat
  | 0, _ => []
  | n + 1, c => let q := leastQuarter c; q :: placeSheaves n (modAt c q (· + 1))

/-- The 32-bit words of a list of 64-bit values. -/
def pairWords (l : List Nat) : List Nat := l.flatMap (fun v => [v % 2 ^ 32, v / 2 ^ 32 % 2 ^ 32])

/-- A sheaf as a stook starts (R280). -/
def newSheaf (l : LaunchOp) (ordinal k quarter : Nat) : Sheaf :=
  let c := coordOf [l.grid.1, l.grid.2.1, l.grid.2.2] ordinal
  let u := pairWords l.args ++ c ++ [k]
  { u := Table.setRange 0 [] 0 (u.map (BitVec.ofNat 32)), quarter := quarter,
    stalks := (List.range l.width).map (fun i => { pc := l.entry, v := Table.set 0 [] 0 (BitVec.ofNat 32 (k * l.width + i)) }) }

/-- STOOK_START (R278): the next stook of a LAUNCH starts on the next processor with room. -/
def Dev.startStook (s : Dev) (slot : SlotId) : Dev :=
  match s.op slot with
  | some o => match o.body with
    | .launch l =>
      if o.failed.isSome || o.aborting.isSome || l.stooks ≤ l.nextOrdinal then s
      else
        match l.order.find? (s.stookFits l) with
        | none => s
        | some p =>
          if hp : p < 256 then
            let qs := placeSheaves l.sheaves (s.quarterCounts p)
            let st : Stook := { id := s.shf.nextId, slot := slot, ordinal := l.nextOrdinal, proc := ⟨p, hp⟩,
                                sheaves := qs.zipIdx.map (fun (q : Nat × Nat) => newSheaf l l.nextOrdinal q.2 q.1) }
            let s := { s with shf := { s.shf with stooks := s.shf.stooks ++ [st], nextId := s.shf.nextId + 1 } }
            s.modOp slot (fun o => { o with body := .launch { l with nextOrdinal := l.nextOrdinal + 1, lastProc := p } })
          else s
    | _ => s
  | none => s

/-- A stook's resources are released (R279, R281). -/
def Dev.dropStook (s : Dev) (id : Nat) : Dev := { s with shf := { s.shf with stooks := s.shf.stooks.filter (fun k => k.id ≠ id) } }

/-- A stook ends with a reason: all its stalks end at once, and its LAUNCH starts no further stook (R283, R294). -/
def Dev.faultStook (s : Dev) (st : Stook) (reason va : Nat) : Dev := (s.dropStook st.id).failOp st.slot reason va

/-- A stook whose every stalk has exited is released and counts as a unit, with the counts of its results (R101, R281). -/
def Dev.exitStook (s : Dev) (id : Nat) : Dev :=
  match s.stook id with
  | none => s
  | some st =>
    if st.sheaves.all (fun h => h.stalks.all (fun k => !k.live)) then
      ((s.dropStook id).bump 4 0x108 st.proc.val 1).modOp st.slot (fun o =>
        { o with written := o.written ++ [st.ordinal], counts := o.counts.add st.counts })
    else s

/-- Fields of a sheaf instruction (R290). -/
def fOpcode (w : Nat) : Nat := bits w 63 56
def fGmode (w : Nat) : Nat := bits w 55 54
def fGpred (w : Nat) : Nat := bits w 53 51
def fUsel (w i : Nat) : Bool := bit w (48 + i)
def fDst (w : Nat) : Nat := bits w 47 40
def fA (w : Nat) : Nat := bits w 39 32
def fB (w : Nat) : Nat := bits w 31 24
def fC (w : Nat) : Nat := bits w 23 16
def fImm (w : Nat) : Bool := bit w 15
def fMod (w : Nat) : Nat := bits w 14 0
/-- The signed 24-bit offset of JMP and CALL, [39:16] (R291). -/
def fOffset (w : Nat) : Int := signedOf 24 (bits w 39 16)
/-- The short immediate in n words, sign-extended (R291). -/
def immOf (w n : Nat) : Nat := codeOf (32 * n) (signedOf 16 (bits w 31 16))

/-- What an opcode does with an operand field: unused, a register of n words that may be uniform, one that is always uniform or
never, or a predicate (R289 to R292). -/
inductive Opnd where
  | unused
  | reg (n : Nat)
  | ureg (n : Nat)
  | vreg (n : Nat)
  | pred
  deriving DecidableEq, Repr

/-- Whether an opcode takes the short immediate: never, optionally or always. -/
inductive ImmUse where
  | never | may | must
  deriving DecidableEq, Repr

/-- How an opcode uses its fields (R292). -/
structure InstrUse where
  dst : Opnd := .unused
  a : Opnd := .unused
  b : Opnd := .unused
  c : Opnd := .unused
  imm : ImmUse := .never
  modOk : Bool
  branch : Bool := false
  deriving DecidableEq, Repr

/-- The fields of an integer operation (R292): k words, with register operands of the kind given. -/
def intUse (o : Nat) (r : Nat → Opnd) (k : Nat) (imm : Bool) : InstrUse :=
  match o with
  | 0x4 => { dst := r k, a := r k, b := r k, c := r k, imm := .may, modOk := true }
  | 0xC | 0xD => { dst := r k, a := r k, modOk := true }
  | 0xE => if imm then { dst := r k, imm := .may, modOk := true } else { dst := r k, a := r k, imm := .may, modOk := true }
  | 0xF => { dst := r 1, c := r 1, imm := .must, modOk := k = 1 }
  | _ => { dst := r k, a := r k, b := r k, imm := .may, modOk := true }

/-- Whether an integer operation takes the signed modifier (R292). -/
def takesSigned (o : Nat) : Bool := o = 3 || o = 9 || o = 0xA || o = 0xB

/-- The words of a load or store of a size code. -/
def sizeWords (sz : Nat) : Nat := if sz ≤ 2 then 1 else if sz = 3 then 2 else 4

/-- The width in words of a CVT operand of a format code, none where CVT does not take it (R300). -/
def cvtWords (code : Nat) : Option Nat :=
  match Fmt.ofCode code with
  | some .fp64 => some 2
  | some .e8m0 | some .a80 | some .a128 | none => none
  | _ => some 1

/-- Whether a CVT's sub-word lane exists for its formats: two halves, or four bytes (R300). -/
def cvtLaneOk (code lane : Nat) : Bool :=
  match Fmt.ofCode code with
  | some f => if f.bits = 16 then lane < 2 else if f.bits ≤ 8 then true else lane = 0 || f.bits ≥ 32
  | none => false

/-- How an opcode with its mod field and imm bit uses its fields; none where the opcode is reserved (R292). -/
def useOf (op m : Nat) (imm : Bool) : Option InstrUse :=
  let f32 (k : Nat) (c : Bool) : InstrUse :=
    { dst := .reg k, a := .reg k, b := .reg k, c := if c then .reg k else .unused, imm := .may, modOk := m < 128 }
  match op with
  | 0x00 | 0x04 | 0x05 | 0x08 => some { modOk := m = 0 }
  | 0x01 => some { modOk := m = 0, branch := true }
  | 0x02 => some { a := .reg 1, modOk := m = 0 }
  | 0x03 => some { dst := .reg 1, modOk := m = 0, branch := true }
  | 0x06 => some { a := .ureg 2, modOk := m = 0 }
  | 0x07 => some { modOk := m < 3 }
  | 0x20 | 0x21 | 0x23 | 0x24 => some (f32 1 false)
  | 0x22 => some (f32 1 true)
  | 0x30 | 0x31 | 0x33 | 0x34 => some (f32 2 false)
  | 0x32 => some (f32 2 true)
  | 0x40 =>
    match cvtWords (bits m 3 0), cvtWords (bits m 7 4) with
    | some ka, some kd =>
      some { dst := .reg kd, a := .reg ka, c := if bit m 9 then .reg 1 else .unused,
             modOk := !bit m 14 && cvtLaneOk (bits m 3 0) (bits m 11 10) && cvtLaneOk (bits m 7 4) (bits m 11 10) }
    | _, _ => some { modOk := false }
  | 0x50 | 0x51 | 0x52 | 0x53 | 0x54 | 0x55 | 0x56 => some { dst := .reg 1, a := .reg 1, modOk := m = 0 }
  | 0x60 => let k := if bit m 4 then 2 else 1; some { dst := .pred, a := .reg k, b := .reg k, imm := .may, modOk := m < 32 && bits m 3 0 < 8 }
  | 0x61 => let k := if bit m 4 then 2 else 1; some { dst := .pred, a := .reg k, b := .reg k, imm := .may, modOk := m < 32 && bits m 2 0 < 6 }
  | 0x62 => some { dst := .reg 1, a := .reg 1, b := .reg 1, imm := .may, modOk := m < 8 }
  | 0x63 => some { dst := .pred, a := .pred, b := .pred, modOk := m < 4 }
  | 0x70 =>
    let o := bits m 3 0
    let x := intUse o Opnd.ureg (if bit m 4 then 2 else 1) imm
    some { x with modOk := x.modOk && m < 64 && (!bit m 5 || takesSigned o) }
  | 0x71 => some { dst := .ureg 1, a := .vreg 1, b := .reg 1, imm := .may, modOk := m = 0 }
  | 0x72 => some { dst := .ureg (sizeWords m), a := .ureg 2, b := .reg 1, imm := .may, modOk := m < 5 }
  | 0x80 => some { dst := .reg (sizeWords (bits m 2 0)), a := .reg 2, b := .reg 1, imm := .may, modOk := m < 128 && bits m 2 0 < 5 && bits m 5 4 < 3 }
  | 0x81 => some { c := .reg (sizeWords (bits m 2 0)), a := .reg 2, b := .reg 1, imm := .may, modOk := m < 128 && bits m 2 0 < 5 && bits m 5 4 < 3 }
  | 0x90 => some { dst := .reg (sizeWords (bits m 2 0)), a := .reg 1, b := .reg 1, imm := .may, modOk := m < 16 && bits m 2 0 < 5 }
  | 0x91 => some { c := .reg (sizeWords m), a := .reg 1, b := .reg 1, imm := .may, modOk := m < 5 }
  | 0xA0 | 0xA1 =>
    let o := bits m 3 0
    let k := if o = 1 || o = 0xD || o = 0xF then 2 else 1
    some { dst := .reg k, a := .reg (if op = 0xA0 then 2 else 1), b := .reg k, c := if o = 0xE || o = 0xF then .reg k else .unused,
           modOk := op = 0xA0 || bits m 5 4 = 0 }
  | 0xB0 => some { dst := .reg 1, a := .reg 1, b := .reg 1, imm := .may, modOk := m < 4 }
  | 0xB1 => some { dst := if m = 2 then .ureg 2 else .pred, a := .pred, modOk := m < 3 }
  | 0xB2 | 0xB3 => some { dst := .reg 1, a := .reg 1, modOk := m < 6 }
  | 0xC0 => some { dst := .reg 1, modOk := m < 14 }
  | 0xC1 => some { dst := .reg 2, modOk := m = 0 }
  | _ =>
    if 0x10 ≤ op && op ≤ 0x1F then
      let o := op - 0x10
      let x := intUse o Opnd.reg (if bit m 0 then 2 else 1) imm
      some { x with modOk := x.modOk && (if o = 0xF then m = 0 else m < 4 && (!bit m 1 || takesSigned o)) }
    else none

/-- Whether a register run of n words lies in a file and begins where R289 and R292 ask. -/
def runOk (n f limit : Nat) : Bool := f % n = 0 && f + n ≤ limit

/-- Whether a source field fits its use (R291, R294). -/
def srcOk (regs : Nat) (o : Opnd) (f : Nat) (u : Bool) : Bool :=
  match o with
  | .unused => f = 0 && !u
  | .reg n => if u then runOk n f 64 else f = 0xFF || runOk n f regs
  | .ureg n => u && runOk n f 64
  | .vreg n => !u && (f = 0xFF || runOk n f regs)
  | .pred => !u && f < 8

/-- Whether the destination field fits its use (R291, R294); with imm set, an opcode that reads c reads it there. -/
def dstOk (regs : Nat) (x : InstrUse) (imm : Bool) (f : Nat) : Bool :=
  let one (o : Opnd) : Bool := match o with
    | .unused => f = 0
    | .ureg n => f = 0xFF || runOk n f 64
    | .reg n | .vreg n => f = 0xFF || runOk n f regs
    | .pred => f = 0xFF || f < 8
  if imm && x.c ≠ .unused then one x.c && (x.dst = .unused || one x.dst) else one x.dst

/-- Whether an instruction has none of the faults of R294; none where its opcode is reserved. -/
def sheafValid (regs w : Nat) : Bool :=
  match useOf (fOpcode w) (fMod w) (fImm w) with
  | none => false
  | some x =>
    let imm := fImm w
    fGmode w < 3 && (fGmode w ≠ 0 || fGpred w = 0) && x.modOk && dstOk regs x imm (fDst w)
      && (if x.branch then !imm && bits w 50 48 = 0
          else
            (match x.imm with
             | .never => !imm
             | .must => imm
             | .may => true)
              && srcOk regs x.a (fA w) (fUsel w 0)
              && (if imm then !fUsel w 1 && !fUsel w 2 else srcOk regs x.b (fB w) (fUsel w 1) && srcOk regs x.c (fC w) (fUsel w 2)))

/-- A group's issue: the stook, the sheaf and its index, the LAUNCH, the instruction and its place, the lanes of the group, and those
that perform it. -/
structure Issue where
  st : Stook
  k : Nat
  sh : Sheaf
  o : Operation
  l : LaunchOp
  pc : Nat
  w : Nat
  group : List Nat
  act : List Nat

/-- The value of n words of a stalk's registers, zero for 0xFF (R291). -/
def Stalk.read (x : Stalk) (f n : Nat) : Nat :=
  if f = 0xFF then 0 else ((List.range n).map (fun i => (Table.get 0 x.v (f + i)).toNat * 2 ^ (32 * i))).foldl (· + ·) 0
/-- The value of n words of a sheaf's uniform registers. -/
def Sheaf.readU (x : Sheaf) (f n : Nat) : Nat := ((List.range n).map (fun i => (Table.get 0 x.u (f + i)).toNat * 2 ^ (32 * i))).foldl (· + ·) 0
/-- n words of a value. -/
def wordsOf (v n : Nat) : List U32 := (List.range n).map (fun i => BitVec.ofNat 32 (v / 2 ^ (32 * i)))
/-- A value written to n words of a stalk's registers; 0xFF discards it (R291). -/
def Stalk.write (x : Stalk) (f n v : Nat) : Stalk := if f = 0xFF then x else { x with v := Table.setRange 0 x.v f (wordsOf v n) }
/-- A value written to n words of a sheaf's uniform registers. -/
def Sheaf.writeU (x : Sheaf) (f n v : Nat) : Sheaf := if f = 0xFF then x else { x with u := Table.setRange 0 x.u f (wordsOf v n) }
/-- A predicate of a stalk. -/
def Stalk.pred (x : Stalk) (i : Nat) : Bool := bit x.p.toNat (i % 8)
/-- A predicate written; 0xFF discards it (R291). -/
def Stalk.setPred (x : Stalk) (f : Nat) (v : Bool) : Stalk :=
  if f = 0xFF then x else { x with p := if v then x.p ||| BitVec.ofNat 8 (2 ^ (f % 8)) else x.p &&& ~~~(BitVec.ofNat 8 (2 ^ (f % 8))) }

/-- A stalk of an issue's sheaf. -/
def Issue.stalk (x : Issue) (lane : Nat) : Stalk := x.sh.stalks.getD lane { pc := 0, live := false }
/-- A source of n words by its field and usel bit (R291). -/
def Issue.src (x : Issue) (lane f : Nat) (u : Bool) (n : Nat) : Nat := if u then x.sh.readU f n else (x.stalk lane).read f n
/-- Source a of n words. -/
def Issue.a (x : Issue) (lane n : Nat) : Nat := x.src lane (fA x.w) (fUsel x.w 0) n
/-- Source b of n words, or the short immediate in its place. -/
def Issue.b (x : Issue) (lane n : Nat) : Nat := if fImm x.w then immOf x.w n else x.src lane (fB x.w) (fUsel x.w 1) n
/-- Source c of n words; with imm set it is read from the register dst names. -/
def Issue.c (x : Issue) (lane n : Nat) : Nat := if fImm x.w then (x.stalk lane).read (fDst x.w) n else x.src lane (fC x.w) (fUsel x.w 2) n

/-- The ready lanes of a sheaf. -/
def Sheaf.ready (x : Sheaf) : List Nat := (List.range x.stalks.length).filter (fun i => x.stalks[i]?.any (fun k => k.live && k.wait = .ready))

/-- The lowest of a list of numbers. -/
def lowest (l : List Nat) : Option Nat := l.foldl (fun b x => match b with
  | none => some x
  | some y => some (min x y)) none

/-- A group put in its place: the longest passed over first, and of those the lowest program counter. -/
def insertGroup (g : Nat × Nat) : List (Nat × Nat) → List (Nat × Nat)
  | [] => [g]
  | x :: l => if x.2 < g.2 || (x.2 = g.2 && g.1 ≤ x.1) then g :: x :: l else x :: insertGroup g l

/-- The groups of a sheaf that are ready, each by its program counter and the issues that have passed it over: the longest passed over first,
and of those the lowest program counter. -/
def Sheaf.groups (x : Sheaf) : List (Nat × Nat) :=
  let ks := x.ready.filterMap (fun i => x.stalks[i]?)
  (ks.map Stalk.pc).eraseDups.foldl (fun gs p => insertGroup (p, ((ks.filter (fun k => k.pc = p)).map Stalk.age).foldl max 0) gs) []

/-- The group a quarter selects within a sheaf (R302): after a YIELD another than the one that yielded, else that of the lowest program
counter; but the one longest passed over, where one more issue would leave some ready group, taken in their order, passed over for more than
64 (R302, R304; log entry 88). -/
def Sheaf.select (x : Sheaf) : Option (Nat × List Nat) :=
  let gs := x.groups
  let pcs := gs.map Prod.fst
  let wish := (lowest (pcs.filter (fun p => some p ≠ x.yielded))).or (lowest pcs)
  let others := gs.filter (fun g => some g.1 ≠ wish)
  let late := others.zipIdx.any (fun e => 64 < e.1.2 + 1 + e.2)
  let pc := if late then (others.head?.map Prod.fst) else wish
  pc.map (fun pc => (pc, x.ready.filter (fun i => x.stalks[i]?.any (fun k => k.pc = pc))))

/-- After an issue, the group that issued starts counting anew and every other ready stalk has been passed over once more (R302). -/
def Sheaf.aged (x : Sheaf) (group : List Nat) : Sheaf :=
  { x with yielded := none, stalks := x.stalks.mapIdx (fun i k =>
    if group.contains i then { k with age := 0 } else if k.live && k.wait = .ready then { k with age := k.age + 1 } else k) }

/-- The next instruction of each lane of a group: those that leave sequence, in lanes (R292, R295). -/
def Issue.targets (x : Issue) (dest : Nat → Int) : List (Nat × Int) := x.group.map (fun i => (i, if x.act.contains i then dest i else (x.pc : Int) + 1))

/-- The program counters of a group move on, or its stook ends at a target outside the code (R295). -/
def Dev.goTo (s : Dev) (x : Issue) (ts : List (Nat × Int)) : Dev :=
  match s.stook x.st.id with
  | none => s
  | some st =>
    match ts.find? (fun t => t.2 < 0 || (x.l.codeLen : Int) ≤ t.2) with
    | some t => s.faultStook st 4 ((((x.l.codeBase : Int) + 8 * t.2) % (2 ^ 64 : Int)).toNat)
    | none => s.modSheaf st.id x.k (fun h => { h with stalks := h.stalks.mapIdx (fun i k =>
        match ts.find? (fun t => t.1 = i) with
        | some t => { k with pc := t.2.toNat }
        | none => k) })

/-- The lanes of a group for which the guard holds (R290). -/
def guarded (sh : Sheaf) (w : Nat) (group : List Nat) : List Nat :=
  match fGmode w with
  | 1 => group.filter (fun i => sh.stalks[i]?.any (fun k => k.pred (fGpred w)))
  | 2 => group.filter (fun i => !sh.stalks[i]?.any (fun k => k.pred (fGpred w)))
  | _ => group

/-- The 8 bytes of an instruction from a processor's instruction cache of 512 lines; a line it does not hold is read through the die's L2, and
the line used longest ago makes room (R273; log entry 88). -/
def Dev.codeWord (s : Dev) (p : Port) (proc va : Nat) : Dev × Fetch (List Byte) :=
  let ls := Table.get [] s.shf.code proc
  let keep (s : Dev) (x : CodeLine) : Dev :=
    { s with shf := { s.shf with code := Table.set [] s.shf.code proc ((x :: ls.filter (fun y => !(y.asid = x.asid && y.line = x.line))).take 512) } }
  let word (d : List Byte) : List Byte := (d.drop (va % 128)).take 8
  match ls.find? (fun y => y.asid = p.asid && y.line = va / 128) with
  | some y => (keep s y, .ok (word y.data))
  | none => Fetch.andThen (s.readVa p (va / 128 * 128) 128) fun s d => (keep s ⟨p.asid, va / 128, d⟩, .ok (word d))

/-- The sheaves of a processor's quarter. -/
def Dev.quarterSheaves (s : Dev) (proc : ProcId) (quarter : Nat) : List Sheaf :=
  (s.shf.stooks.filter (fun k => k.proc = proc)).flatMap (fun k => k.sheaves.filter (fun h => h.quarter = quarter))

/-- The counter of a quarter-step in which a quarter starts nothing and is not throttled, in the order of R328: no sheaf is resident, every
resident sheaf waits on an access, or at a barrier or SSYNC, or other (R327). -/
def Dev.waitCounter (s : Dev) (proc : ProcId) (quarter : Nat) : Nat :=
  let ks := (s.quarterSheaves proc quarter).map (fun h => h.stalks.filter (fun k => k.live))
  let all (p : StalkWait → Bool) : Bool := ks.all (fun l => !l.isEmpty && l.all (fun k => p k.wait))
  if ks.isEmpty then 0x105
  else if all (· = .memory) then 0x101
  else if all (fun w => match w with
      | .barrier | .ssync .. => true
      | _ => false) then 0x102
  else 0x103

/-- A quarter-step of the running window is counted (R328). -/
def Dev.countStep (s : Dev) (proc : ProcId) (quarter : Nat) : Dev :=
  let i := 4 * proc.val + quarter
  { s with shf := { s.shf with steps := Table.set 0 s.shf.steps i (Table.get 0 s.shf.steps i + 1) } }

/-- A quarter-step in which a quarter starts nothing (R327, R328). -/
def Dev.countWait (s : Dev) (proc : ProcId) (quarter : Nat) : Dev :=
  (s.countStep proc quarter).bump 4 (s.waitCounter proc quarter) proc.val 1

/-- The issue of a sheaf's selected group as the command for an opcode sees it: where no group is ready, the fetch waits, or the instruction
cannot start yet, its quarter's step passes with no start; the command of another instruction than the one there changes nothing (log entry
20); a failed fetch or an instruction of R294 ends the stook. -/
def Dev.sheafIssue (s : Dev) (g : SheafRef) (opcode : Nat) (ok : Dev → Issue → Bool) (f : Dev → Issue → Dev) : Dev :=
  match s.stook g.stook with
  | none => s
  | some st =>
    match s.launchOf st, st.sheaves[g.sheaf.val]? with
    | some (o, l), some sh =>
      match sh.select with
      | none => s.countWait st.proc sh.quarter
      | some (pc, group) =>
        match s.codeWord (s.sheafPort o st.proc.val sh.quarter) st.proc.val (l.codeBase + 8 * pc) with
        | (s, .wait) => s.countWait st.proc sh.quarter
        | (s, .fail r a) => s.faultStook st r (if a / 128 = (l.codeBase + 8 * pc) / 128 then l.codeBase + 8 * pc else a)
        | (s', .ok d) =>
          let w := leNat d
          if fOpcode w ≠ opcode && (useOf (fOpcode w) (fMod w) (fImm w)).isSome then s
          else if !sheafValid l.regs w then s'.faultStook st 1 0
          else
            let x : Issue := ⟨st, g.sheaf.val, sh, o, l, pc, w, group, guarded sh w group⟩
            if !ok s' x then s'.countWait st.proc sh.quarter
            else
              let s := ((s'.countStep st.proc sh.quarter).bump 4 0x100 st.proc.val 1).bump 4 0x106 st.proc.val group.length
              f (s.modSheaf st.id g.sheaf.val (fun h => h.aged group)) x
    | _, _ => s

/-- An instruction that goes on in sequence. -/
def Dev.sheafStep (s : Dev) (g : SheafRef) (opcode : Nat) (f : Dev → Issue → Dev) : Dev :=
  s.sheafIssue g opcode (fun _ _ => true) (fun s x => (f s x).goTo x (x.targets (fun _ => (x.pc : Int) + 1)))

/-- Write a value of n words, one for each performing lane, to dst. -/
def Dev.writeLanes (s : Dev) (x : Issue) (n : Nat) (f : Nat → Nat) : Dev :=
  s.modSheaf x.st.id x.k (fun h => { h with stalks := h.stalks.mapIdx (fun i k =>
    if x.act.contains i then k.write (fDst x.w) n (f i) else k) })

/-- Write a predicate, one for each performing lane, to dst. -/
def Dev.writePreds (s : Dev) (x : Issue) (f : Nat → Bool) : Dev :=
  s.modSheaf x.st.id x.k (fun h => { h with stalks := h.stalks.mapIdx (fun i k =>
    if x.act.contains i then k.setPred (fDst x.w) (f i) else k) })

/-- Write a uniform value of n words to dst, if a stalk performs the instruction. -/
def Dev.writeUniform (s : Dev) (x : Issue) (n v : Nat) : Dev :=
  if x.act.isEmpty then s else s.modSheaf x.st.id x.k (fun h => h.writeU (fDst x.w) n v)

/-- The waits of a sheaf's lanes set. -/
def Dev.setWait (s : Dev) (id k : Nat) (lanes : List Nat) (w : StalkWait) : Dev :=
  s.modSheaf id k (fun h => { h with stalks := h.stalks.mapIdx (fun i x => if lanes.contains i then { x with wait := w } else x) })

/-- The live stalks of a stook, and those that wait at its barrier. -/
def Stook.live (x : Stook) : Nat := (x.sheaves.flatMap Sheaf.stalks).countP (fun k => k.live)
def Stook.waiting (x : Stook) : Nat := (x.sheaves.flatMap Sheaf.stalks).countP (fun k => k.live && k.wait = .barrier)

/-- A failed generation or SSYNC ends the stook with a record (R311, R312). -/
def Dev.barrierFail (s : Dev) (st : Stook) (pc : Nat) (isSync : Bool) (deadline : U64) (missing : Nat) : Dev :=
  match s.launchOf st with
  | none => s
  | some (o, l) =>
    let a := l.codeBase + 8 * pc
    let die := homeDie o.queue
    let s := s.report die
      { kind := 3, cls := .fault, addr := a, asid := some (s.queue o.queue).asid.toNat, time := some deadline,
        detail := o.queue.val + (st.proc.val % 32) * 2 ^ 16 + b2n isSync * 2 ^ 24 + st.ordinal * 2 ^ 64,
        more := (List.range 4).map (fun i => missing / 2 ^ (512 * i) % 2 ^ 512) }
    (s.bump 4 0x109 st.proc.val 1).faultStook st 0xC a

/-- A mask of stook-local stalk indices. -/
def stalkMask (width : Nat) (st : Stook) (p : Nat → Nat → Stalk → Bool) : Nat :=
  (st.sheaves.zipIdx.flatMap (fun (h : Sheaf × Nat) => h.1.stalks.zipIdx.map (fun (x : Stalk × Nat) =>
    if p h.2 x.2 x.1 then 2 ^ (h.2 * width + x.2) else 0))).foldl (· + ·) 0

/-- A generation fails at its deadline (R310, R311). -/
def Dev.generationFail (s : Dev) (st : Stook) : Dev :=
  match st.barrier, s.launchOf st with
  | some (deadline, pc), some (_, l) => s.barrierFail st pc false deadline (stalkMask l.width st (fun _ _ k => k.live && k.wait ≠ .barrier))
  | _, _ => s

/-- The barrier of a stook completes where every live stalk waits at it, if its deadline has not come (R307, R308, R310). -/
def Dev.barrierCheck (s : Dev) (id : Nat) : Dev :=
  match s.stook id with
  | none => s
  | some st =>
    match st.barrier with
    | none => s
    | some (deadline, _) =>
      if deadline.toNat ≤ s.now.toNat then s.generationFail st
      else if st.waiting = st.live then
        s.modStook id (fun st => { st with
          barrier := none, sheaves := st.sheaves.map (fun h => { h with stalks := h.stalks.map (fun k => if k.wait = .barrier then { k with wait := .ready } else k) }) })
      else s

/-- The live lanes a stalk at SSYNC names, itself among them (R305). -/
def Sheaf.named (x : Sheaf) (lane mask : Nat) : List Nat :=
  (List.range x.stalks.length).filter (fun i => (i = lane || bit mask i) && x.stalks[i]?.any (fun k => k.live))

/-- Whether a lane waits at the SSYNC of an instruction. -/
def Sheaf.syncAt (x : Sheaf) (pc lane : Nat) : Bool := x.stalks[lane]?.any (fun k => match k.wait with
  | .ssync p _ _ => p = pc
  | _ => false)

/-- Release of the stalks that the complete waits at SSYNC name, all as they stand at one moment (R305; log entry 26). -/
def Sheaf.syncRelease (x : Sheaf) : Sheaf :=
  let done := (List.range x.stalks.length).flatMap (fun i => match x.stalks[i]?.map Stalk.wait with
    | some (.ssync pc mask _) => let l := x.named i mask; if l.all (x.syncAt pc) then l else []
    | _ => [])
  { x with stalks := x.stalks.mapIdx (fun i k => if done.contains i then { k with wait := .ready } else k) }

/-- The deadline of a wait that began at a time, under a LAUNCH's barrier timeout (R305, R310). -/
def LaunchOp.deadline (l : LaunchOp) (since : U64) : U64 := since + BitVec.ofNat 64 (l.timeoutUs * 1000)

/-- The first stalk of a sheaf whose SSYNC has waited longer than the timeout: its instruction, mask, lane and deadline. -/
def syncLate (l : LaunchOp) (now : U64) (x : Sheaf) : Option (Nat × Nat × Nat × U64) :=
  (List.range x.stalks.length).findSome? (fun i => match x.stalks[i]?.map Stalk.wait with
    | some (.ssync pc mask since) => if (l.deadline since).toNat < now.toNat then some (pc, mask, i, l.deadline since) else none
    | _ => none)

/-- An SSYNC of a sheaf that has waited too long ends its stook (R305, R312); none: there is none. -/
def Dev.syncFail (s : Dev) (id k : Nat) : Option Dev :=
  match s.stook id with
  | none => none
  | some st =>
    match s.launchOf st, st.sheaves[k]? with
    | some (_, l), some sh =>
      (syncLate l s.now sh).map (fun (pc, mask, lane, d) =>
        let named := sh.named lane mask
        s.barrierFail st pc true d (stalkMask l.width st (fun j i _ => j = k && named.contains i && !sh.syncAt pc i)))
    | _, _ => none

/-- Every wait of a stook at SSYNC that is complete ends, unless one has waited too long (R305). -/
def Dev.syncCheck (s : Dev) (id k : Nat) : Dev := (s.syncFail id k).getD (s.modSheaf id k (fun h => h.syncRelease))

/-- A barrier generation or an SSYNC of a sheaf that an instruction finds past its deadline fails as it stands, and the instruction has no effect
(R305, R310 to R312). -/
def Dev.inTime (s : Dev) (x : Issue) (f : Dev → Dev) : Dev :=
  match s.stook x.st.id with
  | none => s
  | some st =>
    if st.barrier.any (fun b => decide (b.1.toNat ≤ s.now.toNat)) then s.generationFail st else (s.syncFail st.id x.k).getD (f s)

end Sys2Proof.Machine
end

