-- ==== Sys2Proof/Machine/FaultService.lean ====
section
/-! DEFINITION. Machine/FaultService.lean: misses, walks, page requests and their answers, failed streams, invalidation, and the
registers of the fault service (R457 to R481, R754). -/

namespace Sys2Proof.Machine

/-- Whether a wait is for an operation: one that it names, or, where its command names none, any of its queue (R471). -/
def Dev.waitedFor (s : Dev) (w : WaitingStream) (slot : SlotId) : Bool :=
  if w.for_.isEmpty then (s.op slot).any (fun o => o.queue.val = w.queue) else w.for_.contains (some slot)

/-- The tile a chain engine has taken fails: it is not written, and the engine is free (R214, R471). -/
def Dev.failTaken (s : Dev) (m : MillId) (slot : SlotId) (reason va : Nat) : Dev :=
  ((s.failOp slot reason va).modMill m (fun y => { y with chainTile := none })).feed (millDie m).val

/-- A waiting page leaves its mill's thresher with a failure: the tile it fills is abandoned, or the CHAIN or COMBINE tile whose input it
fetches for the chain engine (R209, R214, R240, R471). -/
def Dev.failThresher (s : Dev) (m : MillId) (w : WaitingStream) (reason : Nat) : Dev :=
  let y := s.mill m
  match y.fill.filter (fun j => s.waitedFor w j.slot), y.chainTile.filter (fun t => s.waitedFor w t.1) with
  | some j, _ => ((s.failOp j.slot reason w.va).abandon j).feed (millDie m).val
  | none, some (slot, _) => s.failTaken m slot reason w.va
  | none, none => s

/-- A failure of a chain engine's access: the statistics add of its record, the tile it works on, or a statistics add of the operation
(R471). -/
def Dev.failChain (s : Dev) (m : MillId) (w : WaitingStream) (reason : Nat) : Dev :=
  let y := s.mill m
  let adds := (y.adds ++ y.rows).filter (fun r => s.waitedFor w r.slot)
  let failAdd (e : RowEntry) : Dev := ((s.unpin m).failOp e.slot reason w.va).modMill m (fun y => y.dropAdd e)
  match adds.find? (fun e => decide (e.addr ≤ w.va) && decide (w.va < e.addr + 256)), y.total.filter (fun e => s.waitedFor w e.job.slot),
      y.chainTile.filter (fun t => s.waitedFor w t.1) with
  | some e, _, _ => failAdd e
  | none, some e, _ => ((s.failOp e.job.slot reason w.va).abandon e.job).feed (millDie m).val
  | none, none, some (slot, _) => s.failTaken m slot reason w.va
  | none, none, none => (adds.head?.map failAdd).getD s

/-- The right that a sheaf's memory instruction needs (R447). -/
def sheafWant (w : Nat) : Rights :=
  if fOpcode w = 0x80 || fOpcode w = 0x72 then wantRead else if fOpcode w = 0xA0 then wantAtomic else wantWrite

/-- Whether a processor's instruction cache holds the line of an address (R273). -/
def Dev.codeHeld (s : Dev) (proc asid va : Nat) : Bool := (Table.get [] s.shf.code proc).any (fun y => y.asid = asid && y.line = va / 128)

/-- The stooks of a processor's quarter that wait at a page for a right not yet given there, each with the first address it accesses: an access
with a line unanswered in it, or the selected group's code where the instruction cache lacks it (R273, R318, R320). -/
def Dev.stooksAt (s : Dev) (die : Die) (proc quarter vpn : Nat) (w : WaitingStream) : List (Stook × Nat) :=
  s.shf.stooks.filterMap (fun st => match s.launchOf st with
    | some (o, l) =>
      let asid := (s.queue o.queue).asid.toNat
      let lacks (r : Rights) : Bool := (s.tcHit die asid vpn r).isNone
      if st.proc.val ≠ proc || !s.waitedFor w st.slot then none
      else (st.sheaves.filter (fun h => h.quarter = quarter)).findSome? (fun h =>
        ((h.accesses.filter (fun a => lacks (sheafWant a.word))).findSome? (fun a =>
          (a.lanes.find? (fun r => r.va / 4096 = vpn && a.lines.contains (r.va / 128))).map LaneReq.va)).or
        (match h.select with
          | some (pc, _) =>
            let va := l.codeBase + 8 * pc
            if va / 4096 = vpn && lacks wantRead && !s.codeHeld proc asid va then some va else none
          | none => none)) |>.map (fun va => (st, va))
    | none => none)

/-- Whether an operation has begun on a unit of the stream, service or collective kind. -/
def OpBody.isUnit : OpBody → Bool
  | .stream _ | .service _ | .coll _ => true
  | _ => false

/-- An operation that cannot begin for a failed read of its descriptors begins and ends with that failure (R161, R175, R471). -/
def Dev.failBegin (s : Dev) (o : Operation) (reason va : Nat) : Dev :=
  (s.beginOp o.slot id).failOp o.slot reason va

/-- Whether a queue's command fetch waits at a page: for the instruction at its head, or for what a LOOP of source 3 at its head reads
(R143, R749). -/
def Dev.fetchWaits (s : Dev) (q : QueueId) (vpn : Nat) : Bool :=
  let x := s.queue q
  x.state = .running && (match x.fetched, x.cur with
    | none, some b => decide (x.head.toNat < b.len) && (b.base + 32 * x.head.toNat) / 4096 = vpn
    | some w, _ => iOpcode w = 1 && iParam w = 3 && x.wait0 && x.wait1
    | none, none => false)

/-- The operations that a wait names which still read what their begin takes end with its failure (R161, R175, R471). -/
def Dev.failReading (s : Dev) (w : WaitingStream) (reason : Nat) : Dev :=
  (w.for_.filterMap id).foldl (fun s k => match s.op k with
    | some o =>
      if o.body = .none && o.status = 0 && o.failed.isNone && o.written = [] then
        (let s := s.failBegin o reason w.va
         if millOpcode (iOpcode o.word) then s.feed (homeDie o.queue).val else s)
      else s
    | none => s) s

/-- A failed stream of a queue ends the queue's fetch, and the operations whose access it was, where their units are of the stream, service or
collective kind (R471, R176, R507, R749); where its command names none, the fetch, or the first operation of the queue that could have made it.
A fetch that no longer waits, its queue having ceased to issue, is no one's. -/
def Dev.failQueue (s : Dev) (vpn reason : Nat) (w : WaitingStream) (fetch : Bool) : Dev :=
  if h : w.queue < 2048 then
    let q : QueueId := ⟨w.queue, h⟩
    let live (o : Operation) : Bool := o.begun && decide (o.status = 0) && o.failed.isNone
    if w.for_.isEmpty then
      if fetch && s.fetchWaits q vpn then s.cease q reason false
      else match (s.running q).find? (fun o => live o && (if fetch then decide (o.body = .none) else o.body.isUnit)) with
        | some o => s.failOp o.slot reason w.va
        | none => s
    else
      let s := if w.for_.contains none && s.fetchWaits q vpn then s.cease q reason false else s
      (w.for_.filterMap id).foldl (fun s k => match s.op k with
        | some o => if live o && o.body.isUnit then s.failOp k reason w.va else s
        | none => s) s
  else s

/-- The host binding that lets a command of a packet in (R574): its address space. -/
def Dev.binding (s : Dev) (p : Packet) (cmd : Nat) : Option Nat :=
  (List.range 16).findSome? (fun i =>
    let v := s.objAt 0x0A 0x500 i
    if bits v 63 56 ≠ 0 && bits v 15 0 = p.src.toNat && bits v 31 16 = p.pkey.toNat && cmd < 8 && bit v (48 + cmd)
      then some (bits v 47 32 % 4096) else none)

/-- The command of a host packet (R567). -/
def hostCmd (p : Packet) : Nat := bits p.aux0.toNat 23 16

/-- A host command whose translation has failed (R575): the first accepted one of the die and address space whose address lies in the page. -/
def Dev.failAccepted (s : Dev) (die : Die) (asid vpn reason : Nat) : List Accepted → List Accepted
  | [] => []
  | x :: xs =>
    if x.die = die && x.packet.ptype = 1 && s.binding x.packet (hostCmd x.packet) = some asid && x.failed.isNone
        && decide (x.packet.offset.toNat / 4096 ≤ vpn) && decide (vpn ≤ (x.packet.offset.toNat + 4096) / 4096)
      then { x with failed := some reason } :: xs
    else x :: s.failAccepted die asid vpn reason xs

/-- A failed stream ends its operation as its requester's chapter lays down (R471, R214, R320, R507). -/
def Dev.failStream (s : Dev) (die : Die) (asid vpn : Nat) (w : WaitingStream) (reason : Nat) : Dev :=
  let s := s.failReading w reason
  if die.val < 8 then
    if w.stream < 0x30 then
      match millId (12 * die.val + w.stream / 4) with
      | some m => s.failThresher m w reason
      | none => s
    else if w.stream < 0x3C then
      match millId (12 * die.val + (w.stream - 0x30)) with
      | some m => s.failChain m w reason
      | none => s
    else if w.stream < 0xBC then
      let p := (w.stream - 0x3C) / 4
      (s.stooksAt die (32 * die.val + p) ((w.stream - 0x3C) % 4) vpn w).foldl (fun s e => s.faultStook e.1 reason e.2) s
    else s.failQueue vpn reason w (w.stream = 0xBE)
  else if die.val < 18 && w.stream = 0x40 then
    { s with fab := { s.fab with accepted := s.failAccepted die asid vpn reason s.fab.accepted } }
  else s.failQueue vpn reason w (w.stream = (if die.val < 18 then 0x41 else 0xF2))

/-- Streams leave the miss entry of a page; an entry without streams frees. -/
def Dev.dropMiss (s : Dev) (die : Die) (asid vpn : Nat) (gone : WaitingStream → Bool) : Dev :=
  s.modXl (fun x => { x with misses := (x.misses.map (fun e =>
    if e.die = die && e.asid = asid && e.vpn = vpn then { e with streams := e.streams.filter (fun w => !gone w) } else e)).filter (fun e =>
      !(e.die = die && e.asid = asid && e.vpn = vpn && e.streams.isEmpty)) })

/-- Every listed stream fails, with the reason of its right. -/
def Dev.failStreams (s : Dev) (die : Die) (asid vpn : Nat) (ws : List WaitingStream) (reason : Rights → Nat) : Dev :=
  let s := s.dropMiss die asid vpn (fun w => ws.any (fun y => y.same w))
  ws.foldl (fun s w => s.failStream die asid vpn w (reason w.rights)) s

/-- The records of a page request of a list of streams, each of up to 16, chained but for the last (R462). -/
def Dev.prRecords (s : Dev) (die : Die) (asid vpn va tag leaf : Nat) (st : WalkStatus) (ws : List WaitingStream) (time : U64) : List FaultRecord :=
  let parts := chunks 16 (ws.length + 1) ws
  let rights := ws.foldl (fun r w => r.union w.rights) ⟨false, false, false⟩
  parts.zipIdx.map (fun p => s.prRecord die asid va tag leaf st rights (s.pageSealed asid vpn) (p.2 + 1 < parts.length) p.1 time)

/-- The lowest-numbered page-request slot with none outstanding (R463). -/
def freePrSlot (m : Mmu) : Nat → Nat → Option Nat
  | 0, _ => none
  | n + 1, i => if (Table.get none m.slots i).any PrSlot.outstanding then freePrSlot m n (i + 1) else some i

/-- The code of a walk status (R483). -/
def walkCode : WalkStatus → Nat
  | .rightLacking => 1
  | .malformed => 2
  | _ => 0

/-- A page request that waits for room, in its place among the records held (R480, R481). -/
def heldRequest (e : MissEntry) : FaultRecord := { cls := .fault, first := 1, request := some e }

/-- Whether so many entries of a fault queue can be written now: they are free, and no home is busy with their lines (R402, R480, R481). -/
def Dev.roomFor (s : Dev) (m : MmuId) (n : Nat) : Bool :=
  decide (n ≤ (s.mmu m).free) && (List.range n).all (fun k => !s.lineBusy (tagOf ((s.mmu m).entryAddr k) false))

/-- A page request of a die for streams at a page: it is counted when it is sent, fails at once while fq_en is 0, waits for a slot where none is
free, is written where its records fit and nothing received before it waits, and else waits in its place; `own`: the request of one stream
alone, which no other stream joins while it waits; `since`: when it was detected, if it has waited (R461, R463, R465, R479 to R482, R489). -/
def Dev.pageRequest (s : Dev) (die : Die) (asid vpn va leaf : Nat) (st : WalkStatus) (ws : List WaitingStream) (own : Bool) (since : Option U64) : Dev :=
  let m := mmuOf die
  let x := s.mmu m
  let time := since.getD s.now
  let s := if since.isNone then s.bump 1 0x104 die.val 1 else s
  if !x.fqEn then (s.bump 1 0x111 (8 + m.val) 1).failStreams die asid vpn ws (fun _ => 4)
  else
    let s := s.modXl (fun y => { y with misses := y.misses.map (fun e =>
      if e.die = die && e.asid = asid && e.vpn = vpn then { e with pageRequest := true, walking := false } else e) })
    let held : MissEntry := {
      die := die, asid := asid, vpn := vpn, va := va, streams := ws, walking := false, pf := [leaf, walkCode st, b2n own], pageRequest := true,
      time := time }
    match freePrSlot x 1024 0 with
    | none => s.modMmu m (fun y => { y with waitingPr := y.waitingPr ++ [held] })
    | some i =>
      let reuse := match Table.get none x.slots i with
        | some o => (o.reuse + 1) % 64
        | none => 0
      let slot : PrSlot := {
        outstanding := true, reuse := reuse, die := die, asid := asid, vpn := vpn, va := va, streams := ws,
        deadline := s.now + BitVec.ofNat 64 (1000 * x.respTimeoutUs.toNat), walk := st, leaf := leaf }
      let rs := s.prRecords die asid vpn va (prTag i slot) leaf st ws time
      if x.holding ≠ [] || !s.roomFor m ((rs.map FaultRecord.entries).foldl (· + ·) 0) then
        s.modMmu m (fun y => { y with holding := y.holding ++ [heldRequest held] })
      else
        let s := s.modMmu m (fun y => { y with slots := Table.set none y.slots i (some slot) })
        rs.foldl (fun s r => s.writeRecord m r) s

/-- The walk status a waiting page request keeps by its code. -/
def walkStatusOf : Nat → WalkStatus
  | 1 => .rightLacking
  | 2 => .malformed
  | _ => .noMapping

/-- The streams that a page request lists once it goes out: those that wait at its page now, or the one stream of a request of its own if
it still waits (R461, R465). -/
def Dev.requestStreams (s : Dev) (e : MissEntry) : List WaitingStream :=
  let now := ((s.xl.misses.find? (fun y => y.die = e.die && y.asid = e.asid && y.vpn = e.vpn)).map MissEntry.streams).getD []
  if e.pf.getD 2 0 = 0 then now
  else now.filter (fun w => e.streams.any (fun y => y.same w))

/-- A page request that has waited is made again; one whose streams have all left is gone. -/
def Dev.requestAgain (s : Dev) (e : MissEntry) : Dev :=
  let ws := s.requestStreams e
  if ws.isEmpty then s
  else s.pageRequest e.die e.asid e.vpn e.va (e.pf.getD 0 0) (walkStatusOf (e.pf.getD 1 0)) ws (e.pf.getD 2 0 = 1) (some e.time)

/-- Page requests that wait for a slot go out in order (R463). -/
def Dev.drainPr (s : Dev) (m : MmuId) : Nat → Dev
  | 0 => s
  | n + 1 =>
    match (s.mmu m).waitingPr with
    | [] => s
    | e :: rest =>
      let s' := (s.modMmu m (fun y => { y with waitingPr := rest })).requestAgain e
      if rest.length < (s'.mmu m).waitingPr.length then s else s'.drainPr m n

/-- What waits for room in the fault queue is written in the order received while it fits (R480, R481). -/
def Dev.drainQueue (s : Dev) (m : MmuId) : Nat → Dev
  | 0 => s
  | n + 1 =>
    match (s.mmu m).holding with
    | [] => s
    | r :: rs =>
      match r.request with
      | none => if s.roomFor m r.entries then ((s.modMmu m (fun x => { x with holding := rs })).writeRecord m r).drainQueue m n else s
      | some e =>
        let s' := (s.modMmu m (fun x => { x with holding := [] })).requestAgain e
        if (s'.mmu m).holding.isEmpty then (s'.modMmu m (fun x => { x with holding := rs })).drainQueue m n else s

/-- fq_en is cleared: what waits for a slot or for room fails or is dropped, as it would be if it came now (R479). -/
def Dev.queueOff (s : Dev) (m : MmuId) : Dev :=
  let x := s.mmu m
  let s := s.modMmu m (fun y => { y with waitingPr := [], holding := [] })
  let s := (x.waitingPr ++ x.holding.filterMap FaultRecord.request).foldl (fun s e =>
    let ws := s.requestStreams e
    if ws.isEmpty then s else (s.bump 1 0x111 (8 + m.val) 1).failStreams e.die e.asid e.vpn ws (fun _ => 4)) s
  (x.holding.filter (fun r => r.request.isNone)).foldl (fun s _ => s.dropRecord m) s

/-- An operation that is over waits for nothing: no miss entry, page request or waiting request is for it any longer (R138, R488). -/
def Dev.forgetOp (s : Dev) (slot : SlotId) : Dev :=
  let rest (ws : List WaitingStream) : List WaitingStream :=
    (ws.map (fun w => { w with for_ := w.for_.filter (fun k => k ≠ some slot) })).zip ws |>.filterMap (fun e =>
      if e.1.for_.isEmpty && !e.2.for_.isEmpty then none else some e.1)
  let entry (e : MissEntry) : MissEntry := { e with streams := rest e.streams }
  let s := s.modXl (fun x => { x with
    misses := (x.misses.map entry).filter (fun e => !e.streams.isEmpty || !e.pf.isEmpty) })
  (List.finRange 2).foldl (fun s m => s.modMmu m (fun x => { x with
    waitingPr := (x.waitingPr.map entry).filter (fun e => !e.streams.isEmpty),
    holding := (x.holding.map (fun r => { r with request := r.request.map entry })).filter (fun r => !r.request.any (fun e => e.streams.isEmpty)),
    slots := x.slots.map (fun e => (e.1, e.2.map (fun p => { p with streams := rest p.streams }))) })) s

/-- The engines of an operation that is over wait for no request entry (R331). -/
def Dev.forgetEntries (s : Dev) (o : Operation) : Dev :=
  match dieAgent (homeDie o.queue) with
  | none => s
  | some a =>
    let mills := (s.opMills o).map (· % 12)
    s.forgetWaits a (fun n =>
      if millOpcode (iOpcode o.word) then mills.any (fun m => n = m || n = 0x30 + m || n / 4 = 0x40 + m)
      else if iOpcode o.word = 0x30 then 0x3C ≤ n && n < 0x5C && bit (s.queue o.queue).sheafMask.toNat (n - 0x3C)
      else 0xBC ≤ n && n < 0xBF)

/-- The status of a walk that ended with a translation that lacks a right, or with none. -/
def WalkEnd.lacking (w : WalkEnd) : WalkStatus := if w.entry.isSome then .rightLacking else w.status

/-- A prefetcher's page is without a mapping or read right: the stream requests nothing further there until the thresher's own fill
passes it (R346). -/
def Dev.blockPf (s : Dev) (die : Die) (vpn stream : Nat) : Dev :=
  match millId (12 * die.val + stream / 4) with
  | some m =>
    let s := s.bump 5 0x105 die.val 1
    match s.pageTile m (stream % 4) vpn with
    | some n => s.modMill m (fun y => { y with pfBlocked := y.pfBlocked ++ [(stream % 4, vpn, n)] })
    | none => s
  | none => s

/-- A walk of a miss entry ends (R441, R442, R460, R461, R346, R439). -/
def Dev.walkComplete (s : Dev) (die : Die) (asid vpn : Nat) : Dev :=
  match s.xl.misses.find? (fun e => e.die = die && e.asid = asid && e.vpn = vpn && e.walking) with
  | none => s
  | some e =>
    let unblock (s : Dev) : Dev := e.pf.foldl (fun s f => s.blockPf die vpn f) s
    match s.walk die asid vpn with
    | (s, none) => (unblock (s.dropMiss die asid vpn (fun _ => true))).failStreams die asid vpn e.streams (fun _ => 4)
    | (s, some r) =>
      let s := match r.entry with
        | some t => s.answerMisses die t
        | none => s
      let lost := match r.entry with
        | some t => !t.rights.r
        | none => true
      let s := if lost then unblock s else s
      let s := s.modXl (fun x => { x with misses := x.misses.map (fun o =>
        if o.die = die && o.asid = asid && o.vpn = vpn then { o with pf := [], walking := false } else o) })
      match s.xl.misses.find? (fun o => o.die = die && o.asid = asid && o.vpn = vpn) with
      | none => s
      | some o =>
        if o.streams.isEmpty then s.dropMiss die asid vpn (fun _ => true)
        else s.pageRequest die asid vpn ((o.streams.map WaitingStream.va).headD o.va) r.leaf r.lacking o.streams false none

/-- WALK_COMPLETE. -/
def execWalkComplete (die : Die) (asid : Asid) (vpn : Nat) (s : State) : Result := s.run fun s => (s.walkComplete die asid.toNat vpn)

/-- The dies that carry a translation cache (R452). -/
def hasTc (die : Die) : Bool := die.val < 8 || 14 ≤ die.val

/-- TRANSLATION_MISS: a stream's request whose page its die does not hold with the rights it wants (R454 to R458). The command does not say for
which operation. -/
def execTranslationMiss (die : Die) (stream : Byte) (q : QueueId) (asid : Asid) (va : U64) (rights : BitVec 3) (s : State) : Result :=
  s.run fun s => (
    let p : Port := { die := die, stream := stream.toNat, queue := q.val, asid := asid.toNat }
    let want : Rights := ⟨bit rights.toNat 0, bit rights.toNat 1, bit rights.toNat 2⟩
    let held := (s.tcHit die asid.toNat (va.toNat / 4096) want).isSome
    if !hasTc die || vaError va.toNat ≠ 0 || rights = 0 || held then s
    else
      s.missFor p va.toNat want [])

/-- A page-request slot that a tag names, if it is outstanding under that reuse count (R463, R469). -/
def Dev.prSlot (s : Dev) (m : MmuId) (tag : U16) : Option (Nat × PrSlot) :=
  let i := tag.toNat % 1024
  match Table.get none (s.mmu m).slots i with
  | some x => if x.outstanding && x.reuse % 64 = tag.toNat / 1024 then some (i, x) else none
  | none => none

/-- A page-request slot frees. -/
def Dev.freePr (s : Dev) (m : MmuId) (i : Nat) (x : PrSlot) : Dev :=
  s.modMmu m (fun y => { y with slots := Table.set none y.slots i (some { x with outstanding := false, streams := [] }) })

/-- A resolved answer (R465, R466). Its slot frees once the streams that still lack a right have their own page requests, as the worked
example numbers their tags. -/
def Dev.prResolved (s : Dev) (m : MmuId) (i : Nat) (x : PrSlot) : Dev :=
  let s := s.bump 1 0x110 (8 + m.val) 1
  let s := match s.walk x.die x.asid x.vpn with
    | (s, none) => (s.freePr m i x).failStreams x.die x.asid x.vpn x.streams (fun _ => 4)
    | (s, some r) =>
      match r.entry with
      | none => (s.freePr m i x).failStreams x.die x.asid x.vpn x.streams (fun _ => 4)
      | some t =>
        let s := s.answerMisses x.die t
        let rest := x.streams.filter (fun (w : WaitingStream) => !t.rights.covers w.rights)
        if x.streams.length = 1 then (s.freePr m i x).failStreams x.die x.asid x.vpn rest (fun _ => 5)
        else
          (rest.foldl (fun (s : Dev) (w : WaitingStream) => s.pageRequest x.die x.asid x.vpn w.va r.leaf .rightLacking [w] true none) s).freePr m i x
  s.drainPr m 64

/-- A failed answer: the reason is that of the last walk, and 0x05 for a write on a sealed page whatever the walk found (R467, R470). -/
def Dev.prFailed (s : Dev) (m : MmuId) (i : Nat) (x : PrSlot) : Dev :=
  let s := (s.freePr m i x).bump 1 0x111 (8 + m.val) 1
  (s.failStreams x.die x.asid x.vpn x.streams (fun r =>
    if x.walk = .rightLacking || (r.w && s.pageSealed x.asid x.vpn) then 5 else 4)).drainPr m 64

/-- An answer that R469 makes void. -/
def Dev.prIgnored (s : Dev) (m : MmuId) : Dev := s.modMmu m (fun y => { y with respErr := true })

/-- PR_RESP_RESOLVED. -/
def execPrRespResolved (m : MmuId) (tag : U16) (s : State) : Result :=
  s.run fun s => (match s.prSlot m tag with
    | some (i, x) => s.prResolved m i x
    | none => s.prIgnored m)

/-- PR_RESP_FAILED. -/
def execPrRespFailed (m : MmuId) (tag : U16) (s : State) : Result :=
  s.run fun s => (match s.prSlot m tag with
    | some (i, x) => s.prFailed m i x
    | none => s.prIgnored m)

/-- A store to pr_resp as a whole (R469, R478). -/
def Dev.prRespStore (s : Dev) (m : MmuId) (v : U64) : Dev :=
  if v.toNat < 2 ^ 18 then
    match s.prSlot m (BitVec.ofNat 16 v.toNat), bits v.toNat 17 16 with
    | some (i, x), 1 => s.prResolved m i x
    | some (i, x), 2 => s.prFailed m i x
    | _, _ => s.prIgnored m
  else s.prIgnored m

/-- PR_TIMEOUT: no answer has come within resp_timeout_us (R468). -/
def execPrTimeout (m : MmuId) (tag : U16) (t : Instant) (s : State) : Result :=
  s.run fun s => (match s.prSlot m tag with
    | some (i, x) =>
      let s' := s.advance t
      if x.deadline.toNat ≤ s'.now.toNat then (s'.bump 1 0x112 (8 + m.val) 1).prFailed m i x else s
    | none => s)

/-- HELD_RECORD_WRITE: a record or page request that has waited is written now that it fits (R480, R481). -/
def execHeldRecordWrite (m : MmuId) (s : State) : Result := s.run fun s => s.drainQueue m 1

/-- A 256 KiB area of DRAM on its own boundary, under the package memory key (R754). -/
def tableArea (v : U64) : Bool := v.toNat % 2 ^ 18 = 0 && v.toNat + 2 ^ 18 ≤ 2 ^ 41

/-- CTX_BASE_WRITE: a write in either block sets both (R478, R754). -/
def execCtxBaseWrite (_m : MmuId) (v : U64) (s : State) : Result :=
  s.run fun s => (if tableArea v then s.modXl (fun x => { x with ctxBase := v }) else s)

/-- FQ_BASE_WRITE (R478, R754). -/
def execFqBaseWrite (m : MmuId) (v : U64) (s : State) : Result :=
  s.run fun s => (if tableArea v then s.modMmu m (fun x => { x with fqBase := v }) else s)

/-- Whether a command error or a memory fault has stopped a command queue (R430; the bits PRESUMED, log entry 24). -/
def Mmu.cqStopped (x : Mmu) : Bool := bit x.cqcsr.toNat 8 || bit x.cqcsr.toNat 10

/-- A command error (R430; its bit PRESUMED, log entry 24): the queue stops at the command. -/
def Dev.cqError (s : Dev) (m : MmuId) (i : Nat) : Dev :=
  s.modMmu m (fun x => { x with
    cqcsr := BitVec.ofNat 32 (Nat.lor x.cqcsr.toNat (2 ^ i)),
    ipsr := if bit x.cqcsr.toNat 1 then BitVec.ofNat 32 (Nat.lor x.ipsr.toNat 1) else x.ipsr })

/-- Whether the 16 bytes of a command are an IOTINVAL.VMA or an IOFENCE.C, the two that are supported (R430; their codes PRESUMED, log
entry 24). -/
def supportedCommand (c : Nat) : Bool := bits c 9 7 = 0 && (bits c 6 0 = 1 || bits c 6 0 = 2)

/-- The command at the head of a queue that is on is taken up: one whose bytes cannot be read stops the queue with a memory fault, and one
that is not supported stops it with a command error (R430, R431). It is read at its home, once the home is not busy with its line (R376,
R392, R402). -/
def Dev.cqTake (s : Dev) (m : MmuId) : Dev :=
  let x := s.mmu m
  let n := 2 ^ (x.cqb.toNat % 32 + 1)
  if !bit x.cqcsr.toNat 0 || x.cqStopped || x.cqh.toNat % n = x.cqt.toNat % n then s
  else
    let a := bits x.cqb.toNat 53 10 * 4096 + 16 * (x.cqh.toNat % n)
    let t := tagOf a false
    if 2 ^ 41 < a + 16 then s.cqError m 8
    else if s.lineBusy t then s
    else
      let s := s.onceReads [t]
      if (s.physRead a 16 false).2 then s.cqError m 8
      else if supportedCommand (s.physNat a 16) then s else s.cqError m 10

/-- A command of a system MMU's command queue has been executed: on a queue that is on and not empty cqh moves past it, and the next is taken
up (R431; the register's form PRESUMED, log entry 24). -/
def Dev.cqNext (s : Dev) (m : MmuId) : Dev :=
  let x := s.mmu m
  let n := 2 ^ (x.cqb.toNat % 32 + 1)
  if !bit x.cqcsr.toNat 0 || x.cqh.toNat % n = x.cqt.toNat % n then s
  else (s.modMmu m (fun x => { x with cqh := BitVec.ofNat 32 ((x.cqh.toNat + 1) % n) })).cqTake m

/-- The lines that a die's engines have requests for that are neither answered nor ended: of its L2, of its prefetchers, and through remote
windows (R473). -/
def Dev.asked (s : Dev) (d : Nat) : List LineTag :=
  (if h : d < 8 then s.outstanding ⟨d, by omega⟩ else [])
    ++ s.fab.accesses.filterMap (fun a => match a.by_ with
      | .core => none
      | .op slot => if (s.op slot).any (fun o => (homeDie o.queue).val = d) then some (tagOf a.pa false) else none)

/-- The requests of a die that a translation has translated, by die and line. -/
def Dev.askedIn (s : Dev) (d : Nat) (e : TcEntry) : List (Nat × Nat) :=
  ((s.asked d).filter (fun t => e.pa ≤ tagPa t && tagPa t < e.pa + 4096 * e.pages && tagRealm t = e.realm)).map (fun t => (d, t))

/-- The translations that an invalidation names leave every die's cache, and the requests they had translated stay to be answered before
the next IOFENCE.C of the queue completes (R472, R473). -/
def Dev.invalidate (s : Dev) (m : MmuId) (which : TcEntry → Bool) : Dev :=
  let l := (List.range 20).flatMap (fun d => ((s.xl.tcs.toList.getD d []).filter which).flatMap (s.askedIn d))
  (s.dropTranslations which).modMmu m (fun x => { x with unanswered := x.unanswered ++ l })

/-- IOTINVAL.VMA (R472), unless an error has stopped its queue: the translations of a page are all those that its leaf has given, in parts or
whole (R448, R449). -/
def execIotinvalVma (m : MmuId) (gv av pscv : Bool) (pscid : Asid) (addr : U64) (s : State) : Result :=
  s.run fun s => (
    if (s.mmu m).cqStopped then s
    else if gv then s.cqError m 10
    else
      let a := pscid.toNat
      let s :=
        if pscv && av then
          s.invalidate m (fun e => e.asid = a && e.leafVpn ≤ addr.toNat / 4096 && addr.toNat / 4096 < e.leafVpn + e.leafPages)
        else
          let mine (x : Nat) : Bool := !pscv || x = a
          let s := s.invalidate m (fun e => mine e.asid)
          (List.finRange 2).foldl (fun s u => s.modMmu u (fun x => { x with
            walkCache := x.walkCache.filter (fun e => !mine e.asid), ctxCache := x.ctxCache.filter (fun e => !mine e.asid) })) s
      s.cqNext m)

/-- IOFENCE.C (R473): every earlier command has acted, and while a request that a removed entry had translated stands unanswered the fence
waits; then it performs its write, once the home is not busy with its line (R402). -/
def execIofenceC (m : MmuId) (av : Bool) (addr : U64) (data : U32) (s : State) : Result :=
  s.run fun s => (
    let a := addr.toNat / 4 * 4
    if (s.mmu m).cqStopped || (s.mmu m).unanswered.any (fun e => (s.asked e.1).contains e.2) || (av && s.lineBusy (tagOf a false)) then s
    else
      let s := s.modMmu m (fun x => { x with unanswered := [] })
      if !av then s.cqNext m
      else
        if a < 2 ^ 41 then (s.physWrite a (leBytes 4 data.toNat) false ⟨8 + m.val, by omega⟩).cqNext m else s.cqError m 8)

end Sys2Proof.Machine
end

