-- ==== Sys2Proof/Machine/Rates.lean ====
section
/-! DEFINITION. Machine/Rates.lean: step-rate windows (R34 to R42). -/

namespace Sys2Proof.Machine

/-- The steps that a die has issued in a window, by whether a throttle held it: without one every step of its monitor (R38), with one at
least 16 of every 256 (R630). DESIGN CHOICE (log entry 45): never more than the monitor counted. -/
def issuedUnder (c : StepCount) (held : Bool) : Nat :=
  if held then max (min c.issued c.monitor) (c.monitor - c.monitor * 240 / 256) else c.monitor

/-- What one die's counts publish at the end of a window of len nanoseconds (R35, R38, R42, R630). DESIGN CHOICE (log entry 45): a rate that
does not fit in 32 bits is published as 0xFFFF_FFFF, and throttle_fraction is 0 for a monitor count of 0. -/
def Dev.publishRate (s : Dev) (stop len : Nat) (c : StepCount) : Dev :=
  if !s.inService c.die.val then s
  else
    let issued := issuedUnder c (Table.get false s.thr.inWindow c.die.val)
    let eff := min (issued * 1000000 / len) 0xFFFFFFFF
    let mon := min (c.monitor * 1000000 / len) 0xFFFFFFFF
    let frac := if c.monitor = 0 then 0 else (c.monitor - issued) * 256 / c.monitor
    let s := ((s.setObjAt 0x0B 0x100 c.die.val eff).setObjAt 0x0B 0x101 c.die.val mon).setObjAt 0x0B 0x105 c.die.val frac
    let s := if eff < s.objAt 0x0B 0x102 c.die.val then s.setObjAt 0x0B 0x102 c.die.val eff else s
    s.setObjAt 0x0B 0x104 c.die.val stop

/-- The counts of a die in a window's reading: no steps where it lists none. -/
def countOf (counts : List StepCount) (die : Die) : StepCount := (counts.find? (fun c => c.die = die)).getD ⟨die, 0, 0⟩

/-- The steps that throttling withheld from a die in a window (R31, R34). -/
def Dev.withheld (s : Dev) (c : StepCount) : Nat := c.monitor - issuedUnder c (Table.get false s.thr.inWindow c.die.val)

/-- The quarter-steps of a window that no command of a processor's quarter has counted are counted at its end by what the quarter then waits for
(R327, R328; DESIGN CHOICE, log entry 16). -/
def Dev.countQuarter (s : Dev) (p : ProcId) (n : Nat) (q : Nat) : Dev :=
  let rest := n - Table.get 0 s.shf.steps (4 * p.val + q)
  if rest = 0 then s else s.bump 4 (s.waitCounter p q) p.val rest

/-- The quarter-steps of a window of a compute die: four for each step of its monitor on each sheaf processor, those that throttling withheld among
them (R327, R328). -/
def Dev.countWithheld (s : Dev) (c : StepCount) : Dev :=
  let n := s.withheld c
  if 8 ≤ c.die.val then s
  else (List.finRange 256).foldl (fun s p =>
    if p.val / 32 ≠ c.die.val then s
    else
      let s := if n = 0 then s else s.bump 4 0x104 p.val (4 * n)
      (List.range 4).foldl (fun s q => s.countQuarter p (c.monitor - n) q) s) s

/-- The window that follows one that ends (R34, R40). -/
def Windows.roll (w : Windows) : Windows :=
  match w.next with
  | none => { w with start := w.stop, stop := w.stop + BitVec.ofNat 64 w.len }
  | some n => { start := w.stop, len := n, stop := BitVec.ofNat 64 ((w.stop.toNat + n + n - 1) / n * n), next := none }

/-- WINDOW_END: every die's running window ends, and the rates of every die in service are published (R34, R35, R38, R39). -/
def execWindowEnd (counts : List StepCount) (s : State) : Result :=
  s.run fun s => (
    let w := s.windows
    let len := w.stop.toNat - w.start.toNat
    let s := s.advance w.stop
    let s := (List.finRange 20).foldl (fun s d => (s.countWithheld (countOf counts d)).publishRate w.stop.toNat (max len 1) (countOf counts d)) s
    { s with windows := w.roll, shf := { s.shf with steps := [] }, thr := { s.thr with inWindow := [] }.mark })

/-- A write of step_window (R40, R41): false where it is out of range. -/
def Dev.writeStepWindow (s : Dev) (v : Nat) : Dev × Bool :=
  if 100000 ≤ v && v ≤ 100000000 then
    ({ s.setObjAt 0x0B 0x103 0 v with windows := { s.windows with next := some v } }, true)
  else (s, false)

/-- STEP_WINDOW_WRITE. -/
def execStepWindowWrite (v : U32) (s : State) : Result := s.run fun s => (s.writeStepWindow v.toNat).1

/-- STEP_RATE_LOWEST_WRITE: any write sets the object to 0xFFFF_FFFF (R42). -/
def execStepRateLowestWrite (die : Die) (_v : U32) (s : State) : Result := s.run fun s => (s.setObjAt 0x0B 0x102 die.val 0xFFFFFFFF)

end Sys2Proof.Machine
end

