-- ==== Sys2Proof/Machine/Codec.lean ====
section
/-! DEFINITION. Machine/Codec.lean: what DECOMPRESS reads Deflate, zlib, gzip and LZ4 streams as (R504, R512, R513; RFC 1950, RFC 1951,
RFC 1952 and the LZ4 frame format). A decoder answers the output or the entry status of R504. -/

namespace Sys2Proof.Machine

/-- What a decoder answers: what it decodes, or the entry status that ends it. -/
abbrev Reading := Except Nat

/-- Stop with an entry status unless a condition holds. -/
def must (c : Bool) (status : Nat := 3) : Reading Unit := if c then .ok () else .error status

/-- The bytes of a stream as a number whose bits are read from the lowest up, with their count. -/
structure BitSource where
  value : Nat
  size : Nat
  deriving DecidableEq, Repr

/-- The bits of a list of bytes. -/
def bitSource (l : List Byte) : BitSource := ⟨leNat l, 8 * l.length⟩

/-- n bits at a position, and the position after them. -/
def BitSource.take (b : BitSource) (pos n : Nat) : Reading (Nat × Nat) :=
  if b.size < pos + n then .error 3 else .ok (b.value / 2 ^ pos % 2 ^ n, pos + n)

/-- What has been written, newest byte first, and how many bytes. -/
structure Written where
  rev : List Byte := []
  count : Nat := 0
  deriving DecidableEq, Repr

/-- A byte is written. -/
def Written.put (w : Written) (b : Byte) : Written := ⟨b :: w.rev, w.count + 1⟩

/-- Bytes are written. -/
def Written.puts (w : Written) (l : List Byte) : Written := l.foldl Written.put w

/-- n bytes are copied from a distance back, one after another. -/
def Written.copy (w : Written) (dist : Nat) : Nat → Written
  | 0 => w
  | n + 1 => (w.put (w.rev.getD (dist - 1) 0)).copy dist n

/-- A history that is not part of the output. -/
def historyOf (dict : List Byte) : Written := ⟨dict.reverse, dict.length⟩

/-- The bytes written after a history. -/
def Written.since (w : Written) (n : Nat) : List Byte := (w.rev.take (w.count - n)).reverse

/-- A canonical prefix code (RFC 1951, 3.2.2): how many codes each length from 1 to 15 has, and the symbols in the order of their codes. -/
structure PrefixCode where
  counts : List Nat
  symbols : List Nat
  deriving DecidableEq, Repr

/-- The code of a list of lengths. -/
def prefixCode (lens : List Nat) : PrefixCode :=
  let of (n : Nat) : List Nat := (lens.zipIdx.filter (fun e => e.1 = n)).map Prod.snd
  let l := (List.range 15).map (fun i => of (i + 1))
  ⟨l.map List.length, l.flatten⟩

/-- What is left of the code space at length 15; none where there are too many codes. -/
def PrefixCode.left (c : PrefixCode) : Option Nat :=
  c.counts.foldl (fun r n => r.bind (fun left => if 2 * left < n then none else some (2 * left - n))) (some 1)

/-- Whether a set of lengths may be used: complete, or no code or a single code of one bit where that is allowed. -/
def PrefixCode.usable (c : PrefixCode) (lone : Bool) : Bool :=
  match c.left with
  | none => false
  | some 0 => true
  | some _ => lone && (c.symbols.length = 0 || (c.symbols.length = 1 && c.counts.getD 0 0 = 1))

/-- The next symbol of a code at a position: the lengths are tried in turn. -/
def PrefixCode.symbol (c : PrefixCode) (b : BitSource) : List Nat → Nat → Nat → Nat → Nat → Reading (Nat × Nat)
  | [], _, _, _, _ => .error 3
  | n :: rest, pos, code, first, index => do
    let (x, pos) ← b.take pos 1
    let code := code + x
    if code < first + n then .ok (c.symbols.getD (index + (code - first)) 0, pos)
    else c.symbol b rest pos (2 * code) (2 * (first + n)) (index + n)

/-- The next symbol of a code. -/
def PrefixCode.next (c : PrefixCode) (b : BitSource) (pos : Nat) : Reading (Nat × Nat) := c.symbol b c.counts pos 0 0 0

/-- The base and the extra bits of the length symbols 257 to 285, and of the distance symbols (RFC 1951, 3.2.5). -/
def lengthCodes : List (Nat × Nat) :=
  [(3, 0), (4, 0), (5, 0), (6, 0), (7, 0), (8, 0), (9, 0), (10, 0), (11, 1), (13, 1), (15, 1), (17, 1), (19, 2), (23, 2), (27, 2), (31, 2),
   (35, 3), (43, 3), (51, 3), (59, 3), (67, 4), (83, 4), (99, 4), (115, 4), (131, 5), (163, 5), (195, 5), (227, 5), (258, 0)]
def distanceCodes : List (Nat × Nat) := [(1, 0), (2, 0)] ++ (List.range 28).map (fun i => ((2 + i % 2) * 2 ^ (i / 2) + 1, i / 2))

/-- The symbols of a block are written, up to its end (RFC 1951, 3.2.3). -/
def inflateSymbols (b : BitSource) (lit dist : PrefixCode) : Nat → Nat → Written → Reading (Nat × Written)
  | 0, _, _ => .error 3
  | n + 1, pos, w => do
    let (x, pos) ← lit.next b pos
    if x < 256 then inflateSymbols b lit dist n pos (w.put (BitVec.ofNat 8 x))
    else if x = 256 then .ok (pos, w)
    else
      must (x < 286)
      let (base, extra) := lengthCodes.getD (x - 257) (3, 0)
      let (e, pos) ← b.take pos extra
      let (y, pos) ← dist.next b pos
      must (y < 30)
      let (dbase, dextra) := distanceCodes.getD y (1, 0)
      let (f, pos) ← b.take pos dextra
      must (dbase + f ≤ w.count)
      inflateSymbols b lit dist n pos (w.copy (dbase + f) (base + e))

/-- The code lengths of a dynamic block, by the code of code lengths (RFC 1951, 3.2.7), newest first. -/
def inflateLengths (b : BitSource) (c : PrefixCode) (total : Nat) : Nat → Nat → List Nat → Reading (Nat × List Nat)
  | 0, _, _ => .error 3
  | n + 1, pos, l =>
    if l.length = total then .ok (pos, l)
    else do
      let (x, pos) ← c.next b pos
      if x < 16 then inflateLengths b c total n pos (x :: l)
      else
        must (x ≠ 16 || !l.isEmpty)
        let (bits_, base) := if x = 16 then (2, 3) else if x = 17 then (3, 3) else (7, 11)
        let (k, pos) ← b.take pos bits_
        must (l.length + base + k ≤ total)
        inflateLengths b c total n pos (List.replicate (base + k) (if x = 16 then l.headD 0 else 0) ++ l)

/-- n fields of three bits. -/
def inflateTriples (b : BitSource) : Nat → Nat → List Nat → Reading (Nat × List Nat)
  | 0, pos, l => .ok (pos, l)
  | n + 1, pos, l => do
    let (x, pos) ← b.take pos 3
    inflateTriples b n pos (l ++ [x])

/-- The two codes of a dynamic block. -/
def inflateDynamic (b : BitSource) (pos : Nat) : Reading (Nat × PrefixCode × PrefixCode) := do
  let (hlit, pos) ← b.take pos 5
  let (hdist, pos) ← b.take pos 5
  let (hclen, pos) ← b.take pos 4
  must (hlit ≤ 29 && hdist ≤ 29)
  let (pos, l) ← inflateTriples b (hclen + 4) pos []
  let order := [16, 17, 18, 0, 8, 7, 9, 6, 10, 5, 11, 4, 12, 3, 13, 2, 14, 1, 15]
  let lens := (List.range 19).map (fun i => (((order.zip l).find? (fun e => e.1 = i)).map Prod.snd).getD 0)
  let c := prefixCode lens
  must (c.usable false)
  let (pos, rev) ← inflateLengths b c (hlit + 257 + hdist + 1) (b.size + 1) pos []
  let all := rev.reverse
  let lit := prefixCode (all.take (hlit + 257))
  let dist := prefixCode (all.drop (hlit + 257))
  must (lit.usable true && dist.usable true && all.getD 256 0 ≠ 0)
  .ok (pos, lit, dist)

/-- The codes of a fixed block (RFC 1951, 3.2.6). -/
def fixedLit : PrefixCode :=
  prefixCode (List.replicate 144 8 ++ List.replicate 112 9 ++ List.replicate 24 7 ++ List.replicate 8 8)
def fixedDist : PrefixCode := prefixCode (List.replicate 32 5)

/-- The blocks of a Deflate stream, up to the last (RFC 1951). -/
def inflateBlocks (src : List Byte) (b : BitSource) : Nat → Nat → Written → Reading (Nat × Written)
  | 0, _, _ => .error 3
  | n + 1, pos, w => do
    let (last, pos) ← b.take pos 1
    let (kind, pos) ← b.take pos 2
    let (pos, w) ← match kind with
      | 0 => do
        let at_ := (pos + 7) / 8
        must (at_ + 4 ≤ src.length)
        let len := fieldAt src at_ 2
        must (fieldAt src (at_ + 2) 2 = 65535 - len && decide (at_ + 4 + len ≤ src.length))
        pure (8 * (at_ + 4 + len), w.puts ((src.drop (at_ + 4)).take len))
      | 1 => inflateSymbols b fixedLit fixedDist (b.size + 1) pos w
      | 2 => do
        let (pos, lit, dist) ← inflateDynamic b pos
        inflateSymbols b lit dist (b.size + 1) pos w
      | _ => .error 3
    if last = 1 then .ok (pos, w) else inflateBlocks src b n pos w

/-- A Deflate stream at the front of some bytes: the bytes it takes and its output, after a history. -/
def inflate (hist src : List Byte) : Reading (Nat × List Byte) := do
  let (pos, w) ← inflateBlocks src (bitSource src) (8 * src.length + 1) 0 (historyOf hist)
  .ok ((pos + 7) / 8, w.since hist.length)

/-- Adler-32 (RFC 1950). -/
def adler32 (l : List Byte) : Nat :=
  let (a, b) := l.foldl (fun (e : Nat × Nat) x => let a := (e.1 + x.toNat) % 65521; (a, (e.2 + a) % 65521)) (1, 0)
  b * 65536 + a

/-- CRC-32 (RFC 1952). -/
def crc32 (l : List Byte) : Nat :=
  let step (c : Nat) (_ : Nat) : Nat := if c % 2 = 1 then Nat.xor (c / 2) 0xEDB88320 else c / 2
  Nat.xor (l.foldl (fun c b => (List.range 8).foldl step (Nat.xor c b.toNat)) 0xFFFFFFFF) 0xFFFFFFFF

/-- DECOMPRESS of a Deflate stream (R513). -/
def readDeflate (src : List Byte) : Reading (List Byte) := do
  let (n, out) ← inflate [] src
  must (n = src.length)
  .ok out

/-- DECOMPRESS of a zlib stream (RFC 1950): a preset dictionary is named by its Adler-32. -/
def readZlib (dict src : List Byte) : Reading (List Byte) := do
  must (2 ≤ src.length)
  let cmf := fieldAt src 0 1
  let flg := fieldAt src 1 1
  must ((cmf * 256 + flg) % 31 = 0)
  must (cmf % 16 = 8) 5
  must (cmf / 16 ≤ 7)
  let named := bit flg 5
  must (!named || decide (6 ≤ src.length))
  must (!named || (!dict.isEmpty && beNat (sliceBytes src 2 4) = adler32 dict)) 7
  let body := src.drop (if named then 6 else 2)
  let (n, out) ← inflate (if named then dict else []) body
  must (n + 4 = body.length)
  must (beNat (body.drop n) = adler32 out) 4
  .ok out

/-- The bytes up to and with the next zero. -/
def throughZero : List Byte → Option Nat
  | [] => none
  | x :: xs => if x = 0 then some 1 else (throughZero xs).map (· + 1)

/-- The length of a gzip header's optional fields (RFC 1952), at the place after its ten bytes. -/
def gzipHeader (src : List Byte) : Reading Nat := do
  must (10 ≤ src.length && fieldAt src 0 2 = 0x8B1F)
  must (fieldAt src 2 1 = 8) 5
  let flg := fieldAt src 3 1
  must (flg < 32) 5
  must (!bit flg 2 || decide (12 ≤ src.length))
  let p := if bit flg 2 then 12 + fieldAt src 10 2 else 10
  must (p ≤ src.length)
  let p ← if bit flg 3 then (match throughZero (src.drop p) with
    | some n => .ok (p + n)
    | none => .error 3) else .ok p
  let p ← if bit flg 4 then (match throughZero (src.drop p) with
    | some n => .ok (p + n)
    | none => .error 3) else .ok p
  must (!bit flg 1 || decide (p + 2 ≤ src.length))
  must (!bit flg 1 || fieldAt src p 2 = crc32 (src.take p) % 65536) 4
  .ok (if bit flg 1 then p + 2 else p)

/-- DECOMPRESS of gzip members, one after another (RFC 1952). -/
def readGzip : Nat → List Byte → List Byte → Reading (List Byte)
  | 0, _, _ => .error 3
  | n + 1, src, out => do
    let p ← gzipHeader src
    let body := src.drop p
    let (k, l) ← inflate [] body
    must (k + 8 ≤ body.length)
    must (fieldAt body k 4 = crc32 l && fieldAt body (k + 4) 4 = l.length % 2 ^ 32) 4
    let rest := body.drop (k + 8)
    if rest.isEmpty then .ok (out ++ l) else readGzip n rest (out ++ l)

/-- A word turned left. -/
def turnLeft (w x n : Nat) : Nat := turned w x (w - n)

/-- The parameters of xxHash: its word width, its five primes, its lane rotation and its rounds' shape. -/
def xxPrimes32 : List Nat := [2654435761, 2246822519, 3266489917, 668265263, 374761393]
def xxPrimes64 : List Nat := [11400714785074694791, 14029467366897019727, 1609587929392839161, 9650029242287828579, 2870177450012600261]

/-- A lane of xxHash takes a word. -/
def xxRound (w : Nat) (p : List Nat) (r acc x : Nat) : Nat :=
  turnLeft w ((acc + x * p.getD 1 0) % 2 ^ w) r * p.getD 0 0 % 2 ^ w

/-- The four lanes of xxHash over whole stripes of four words of w bits. -/
def xxLanes (w : Nat) (p : List Nat) (r : Nat) (l : List Byte) : List Nat :=
  let m := 2 ^ w
  let start := [(p.getD 0 0 + p.getD 1 0) % m, p.getD 1 0, 0, m - p.getD 0 0]
  (List.range (l.length / (w / 2))).foldl (fun lanes i =>
    lanes.zipIdx.map (fun a => xxRound w p r a.1 (fieldAt l (w / 2 * i + w / 8 * a.2) (w / 8)))) start

/-- The sum of the lanes, each turned left by its own amount. -/
def xxMerge (w : Nat) (lanes : List Nat) : Nat := ((lanes.zip [1, 7, 12, 18]).map (fun e => turnLeft w e.1 e.2)).foldl (· + ·) 0 % 2 ^ w

/-- A shift down joined by an exclusive-or, times a prime. -/
def xxMix (w x n p : Nat) : Nat := Nat.xor x (x / 2 ^ n) * p % 2 ^ w

/-- XXH32 with seed 0. -/
def xxh32 (l : List Byte) : Nat :=
  let p := xxPrimes32
  let h := (if l.length < 16 then p.getD 4 0 else xxMerge 32 (xxLanes 32 p 13 l)) + l.length
  let tail := l.drop (l.length / 16 * 16)
  let h := (List.range (tail.length / 4)).foldl (fun h i =>
    turnLeft 32 ((h + fieldAt tail (4 * i) 4 * p.getD 2 0) % 2 ^ 32) 17 * p.getD 3 0 % 2 ^ 32) (h % 2 ^ 32)
  let h := (tail.drop (tail.length / 4 * 4)).foldl (fun h b =>
    turnLeft 32 ((h + b.toNat * p.getD 4 0) % 2 ^ 32) 11 * p.getD 0 0 % 2 ^ 32) h
  xxMix 32 (xxMix 32 (xxMix 32 h 15 (p.getD 1 0)) 13 (p.getD 2 0)) 16 1

/-- XXH64 with seed 0. -/
def xxh64 (l : List Byte) : Nat :=
  let p := xxPrimes64
  let m := 2 ^ 64
  let lanes := xxLanes 64 p 31 l
  let h := if l.length < 32 then p.getD 4 0
    else lanes.foldl (fun h v => (Nat.xor h (xxRound 64 p 31 0 v) * p.getD 0 0 + p.getD 3 0) % m) (xxMerge 64 lanes)
  let h := (h + l.length) % m
  let tail := l.drop (l.length / 32 * 32)
  let n := tail.length / 8
  let h := (List.range n).foldl (fun h i =>
    (turnLeft 64 (Nat.xor h (xxRound 64 p 31 0 (fieldAt tail (8 * i) 8))) 27 * p.getD 0 0 + p.getD 3 0) % m) h
  let tail := tail.drop (8 * n)
  let h := if 4 ≤ tail.length then (turnLeft 64 (Nat.xor h (fieldAt tail 0 4 * p.getD 0 0 % m)) 23 * p.getD 1 0 + p.getD 2 0) % m else h
  let h := (tail.drop (tail.length / 4 * 4)).foldl (fun h b => turnLeft 64 (Nat.xor h (b.toNat * p.getD 4 0 % m)) 11 * p.getD 0 0 % m) h
  xxMix 64 (xxMix 64 (xxMix 64 h 33 (p.getD 1 0)) 29 (p.getD 2 0)) 32 1

/-- A length of LZ4 that goes on in bytes while they are 255. -/
def lz4Length : List Byte → Nat → Reading (Nat × List Byte)
  | [], _ => .error 3
  | x :: xs, n => if x = 0xFF then lz4Length xs (n + 255) else .ok (n + x.toNat, xs)

/-- The sequences of an LZ4 block. -/
def lz4Sequences : Nat → List Byte → Written → Reading Written
  | 0, _, _ => .error 3
  | _, [], _ => .error 3
  | n + 1, t :: src, w => do
    let (k, src) ← if t.toNat / 16 = 15 then lz4Length src 15 else .ok (t.toNat / 16, src)
    must (k ≤ src.length)
    let w := w.puts (src.take k)
    let src := src.drop k
    if src.isEmpty then .ok w
    else
      must (2 ≤ src.length)
      let d := fieldAt src 0 2
      let (m, src) ← if t.toNat % 16 = 15 then lz4Length (src.drop 2) 15 else .ok (t.toNat % 16, src.drop 2)
      must (d ≠ 0 && decide (d ≤ w.count))
      lz4Sequences n src (w.copy d (m + 4))

/-- The blocks of an LZ4 frame, up to its end mark: the bytes they take and the output. -/
def lz4Blocks (linked sums : Bool) (most : Nat) (dict : List Byte) : Nat → List Byte → List Byte → Reading (List Byte × List Byte)
  | 0, _, _ => .error 3
  | n + 1, src, out => do
    must (4 ≤ src.length)
    let v := fieldAt src 0 4
    let src := src.drop 4
    if v = 0 then .ok (src, out)
    else
      let k := v % 2 ^ 31
      must (k ≤ most && decide (k + (if sums then 4 else 0) ≤ src.length))
      let data := src.take k
      must (!sums || fieldAt src k 4 = xxh32 data) 4
      let hist := dict ++ (if linked then out else [])
      let got ← if v < 2 ^ 31 then (lz4Sequences (k + 1) data (historyOf hist)).map (fun w => w.since hist.length) else .ok data
      must (got.length ≤ most)
      lz4Blocks linked sums most dict n (src.drop (k + (if sums then 4 else 0))) (out ++ got)

/-- DECOMPRESS of an LZ4 frame (R512, R513). -/
def readLz4 (dict src : List Byte) : Reading (List Byte) := do
  must (7 ≤ src.length)
  let magic := fieldAt src 0 4
  must (magic ≠ 0x184C2102 && magic / 16 ≠ 0x184D2A5) 5
  must (magic = 0x184D2204)
  let flg := fieldAt src 4 1
  let bd := fieldAt src 5 1
  must (flg / 64 = 1 && !bit flg 1 && bd % 16 = 0 && !bit bd 7 && decide (4 ≤ bd / 16)) 5
  let sized := bit flg 3
  let n := 6 + (if sized then 8 else 0) + (if bit flg 0 then 4 else 0)
  must (n + 1 ≤ src.length)
  must (fieldAt src n 1 = xxh32 ((src.drop 4).take (n - 4)) / 256 % 256) 4
  must (!bit flg 0 || !dict.isEmpty) 7
  let (rest, out) ← lz4Blocks (!bit flg 5) (bit flg 4) (2 ^ (8 + 2 * (bd / 16))) dict src.length (src.drop (n + 1)) []
  must (!sized || fieldAt src 6 8 = out.length)
  let tail := if bit flg 2 then 4 else 0
  must (rest.length = tail)
  must (!bit flg 2 || fieldAt rest 0 4 = xxh32 out) 4
  .ok out

end Sys2Proof.Machine
end

