-- ==== Sys2Proof/Machine/Zstd.lean ====
section
/-! DEFINITION. Machine/Zstd.lean: what DECOMPRESS reads a Zstandard stream as (R504, R512, R513; RFC 8878), and DECOMPRESS over every
format. -/

namespace Sys2Proof.Machine

/-- A stream read from its end: its number and how many bits are left below its mark (RFC 8878, 4.1). -/
def backSource (l : List Byte) : Reading (Nat × Nat) := do
  must ((l.getLast?.getD 0) ≠ 0)
  .ok (leNat l, (leNat l).log2)

/-- The next n bits of a stream read from its end, zeros past its start. -/
def backPeek (v left n : Nat) : Nat := if n ≤ left then v / 2 ^ (left - n) % 2 ^ n else v % 2 ^ left * 2 ^ (n - left)

/-- n bits of a stream read from its end, and how many are left. -/
def backTake (v left n : Nat) : Reading (Nat × Nat) := if left < n then .error 3 else .ok (backPeek v left n, left - n)

/-- An FSE table (RFC 8878, 4.1.1): its accuracy, and of each state the symbol, the bits read next and the state they are added to. -/
structure FseTable where
  log : Nat
  cells : List (Nat × Nat × Nat)
  deriving DecidableEq, Repr

/-- The states that symbols of normal probability take, in the order in which they are taken. -/
def fseOrder (size high : Nat) : List Nat :=
  ((List.range size).map (fun k => k * (size / 2 + size / 8 + 3) % size)).filter (· < high)

/-- The symbol of every state: probabilities are given plus one, so 0 is "less than one", which takes a state at the top. -/
def fseSymbols (size : Nat) (probs : List Nat) : List Nat :=
  let low := (probs.zipIdx.filter (fun e => e.1 = 0)).map Prod.snd
  let high := size - low.length
  let placed := (fseOrder size high).zip (probs.zipIdx.flatMap (fun e => List.replicate (e.1 - 1) e.2))
  (List.range high).map (fun i => ((placed.find? (fun e => e.1 = i)).map Prod.snd).getD 0) ++ low.reverse

/-- The states of a table, each symbol's states numbered up from its probability. -/
def fseCells (log : Nat) (probs : List Nat) : List Nat → List Nat → List (Nat × Nat × Nat)
  | _, [] => []
  | seen, x :: xs =>
    let n := max 1 (probs.getD x 0 - 1) + seen.count x
    let b := log - n.log2
    (x, b, n * 2 ^ b - 2 ^ log) :: fseCells log probs (x :: seen) xs

/-- The table of a distribution. -/
def fseTable (log : Nat) (probs : List Nat) : FseTable := ⟨log, fseCells log probs [] (fseSymbols (2 ^ log) probs)⟩

/-- The table that names one symbol for ever. -/
def fseLone (x : Nat) : FseTable := ⟨0, [(x, 0, 0)]⟩

/-- A state's symbol. -/
def FseTable.symbol (t : FseTable) (state : Nat) : Nat := (t.cells.getD state (0, 0, 0)).1

/-- The bits a state reads for the next, and the state they are added to. -/
def FseTable.next (t : FseTable) (state : Nat) : Nat × Nat := (t.cells.getD state (0, 0, 0)).2

/-- Zero probabilities are written in steps of two bits, on while they say three. -/
def fseZeros (b : BitSource) : Nat → Nat → List Nat → Reading (Nat × List Nat)
  | 0, _, _ => .error 3
  | n + 1, pos, l => do
    let (k, pos) ← b.take pos 2
    let l := List.replicate k 1 ++ l
    if k = 3 then fseZeros b n pos l else .ok (pos, l)

/-- The probabilities of a distribution, each plus one, newest first, while some of the total is left (RFC 8878, 4.1.1). -/
def fseProbs (b : BitSource) : Nat → Nat → Nat → List Nat → Reading (Nat × List Nat)
  | 0, _, _, _ => .error 3
  | n + 1, pos, left, l =>
    if left = 0 then .ok (pos, l)
    else do
      let w := (left + 1).log2 + 1
      let v := b.value / 2 ^ pos % 2 ^ w
      let low := v % 2 ^ (w - 1)
      let threshold := 2 ^ w - 1 - (left + 1)
      let (v, pos) := if low < threshold then (low, pos + (w - 1)) else (if 2 ^ (w - 1) ≤ v then v - threshold else v, pos + w)
      let taken := if v = 0 then 1 else v - 1
      must (pos ≤ b.size && decide (taken ≤ left))
      let (pos, l) ← if v = 1 then fseZeros b 256 pos (v :: l) else .ok (pos, v :: l)
      fseProbs b n pos (left - taken) l

/-- A table's description at the front of some bytes: the table and the bytes it takes. -/
def readFse (maxLog maxSymbol : Nat) (src : List Byte) : Reading (FseTable × Nat) := do
  let b := bitSource (src.take 512)
  let (x, pos) ← b.take 0 4
  must (x + 5 ≤ maxLog)
  let (pos, rev) ← fseProbs b 257 pos (2 ^ (x + 5)) []
  must (rev.length ≤ maxSymbol + 1)
  .ok (fseTable (x + 5) rev.reverse, (pos + 7) / 8)

/-- The weights of a Huffman code held in an FSE stream: two states take turns until its bits are used up (RFC 8878, 4.2.1.2). -/
def fseWeights (t : FseTable) (v : Nat) : Nat → Nat → Nat → Nat → List Nat → Reading (List Nat)
  | 0, _, _, _, _ => .error 3
  | n + 1, left, a, b, l =>
    let (k, base) := t.next a
    let l := t.symbol a :: l
    if left < k then .ok (t.symbol b :: l) else fseWeights t v n (left - k) b (base + backPeek v left k) l

/-- A Huffman code: its longest length, and of each value of that many bits the symbol and its length. -/
structure HuffCode where
  most : Nat
  cells : List (Nat × Nat)
  deriving DecidableEq, Repr

/-- The code of a list of weights, the last symbol's weight left out (RFC 8878, 4.2.1). -/
def huffCode (weights : List Nat) : Reading HuffCode := do
  let total := (weights.map (fun w => 2 ^ w / 2)).foldl (· + ·) 0
  must (total ≠ 0)
  let most := total.log2 + 1
  let rest := 2 ^ most - total
  must (most ≤ 11 && rest = 2 ^ rest.log2 && decide (weights.length ≤ 255))
  let all := (weights ++ [rest.log2 + 1]).zipIdx
  .ok ⟨most, (List.range most).flatMap (fun i =>
    (all.filter (fun e => e.1 = i + 1)).flatMap (fun e => List.replicate (2 ^ i) (e.2, most - i)))⟩

/-- A Huffman code's description at the front of some bytes: the code and the bytes it takes. -/
def readHuff (src : List Byte) : Reading (HuffCode × Nat) := do
  must (!src.isEmpty)
  let h := fieldAt src 0 1
  let n := if h < 128 then h else (h - 127 + 1) / 2
  must (n < src.length)
  let body := (src.drop 1).take n
  let weights ← if h < 128 then do
      let (t, k) ← readFse 6 255 body
      must (k < n)
      let (v, left) ← backSource (body.drop k)
      let (a, left) ← backTake v left t.log
      let (b, left) ← backTake v left t.log
      let rev ← fseWeights t v 255 left a b []
      pure rev.reverse
    else pure ((body.flatMap (fun x => [x.toNat / 16, x.toNat % 16])).take (h - 127))
  let c ← huffCode weights
  .ok (c, n + 1)

/-- n symbols of a Huffman stream, which must use up its bits. -/
def huffSymbols (c : HuffCode) (v : Nat) : Nat → Nat → List Byte → Reading (List Byte)
  | 0, left, l => do
    must (left = 0)
    .ok l.reverse
  | n + 1, left, l => do
    let (x, k) := c.cells.getD (backPeek v left c.most) (0, 0)
    must (k ≤ left)
    huffSymbols c v n (left - k) (BitVec.ofNat 8 x :: l)

/-- A Huffman stream of n symbols. -/
def huffStream (c : HuffCode) (n : Nat) (src : List Byte) : Reading (List Byte) := do
  let (v, left) ← backSource src
  huffSymbols c v n left []

/-- Four Huffman streams after their table of lengths. -/
def huffFour (c : HuffCode) (n : Nat) (src : List Byte) : Reading (List Byte) := do
  must (6 ≤ src.length)
  let body := src.drop 6
  let k0 := fieldAt src 0 2
  let k1 := fieldAt src 2 2
  let k2 := fieldAt src 4 2
  let q := (n + 3) / 4
  must (k0 + k1 + k2 ≤ body.length && decide (3 * q ≤ n))
  let a ← huffStream c q (body.take k0)
  let b ← huffStream c q ((body.drop k0).take k1)
  let d ← huffStream c q ((body.drop (k0 + k1)).take k2)
  let e ← huffStream c (n - 3 * q) (body.drop (k0 + k1 + k2))
  .ok (a ++ b ++ d ++ e)

/-- What a Zstandard block leaves to the next: the Huffman code, the three tables, the repeat offsets and what has been written. -/
structure ZState where
  huff : Option HuffCode := none
  lit : Option FseTable := none
  off : Option FseTable := none
  mat : Option FseTable := none
  reps : Nat × Nat × Nat := (1, 4, 8)
  out : Written := {}
  deriving DecidableEq, Repr

/-- The literals of a block (RFC 8878, 3.1.1.3.1): the Huffman code they leave, the literals and the bytes they take. -/
def zLiterals (most : Nat) (z : ZState) (src : List Byte) : Reading (Option HuffCode × List Byte × Nat) := do
  must (!src.isEmpty)
  let h := fieldAt src 0 5
  let kind := h % 4
  let form := h / 4 % 4
  if kind < 2 then
    let (head, n) := if form % 2 = 0 then (1, h % 2 ^ 8 / 8) else if form = 1 then (2, h % 2 ^ 16 / 16) else (3, h % 2 ^ 24 / 16)
    let k := if kind = 0 then n else 1
    must (head + k ≤ src.length && decide (n ≤ most))
    .ok (z.huff, if kind = 0 then (src.drop head).take n else List.replicate n (src.getD head 0), head + k)
  else
    let w := if form < 2 then 10 else if form = 2 then 14 else 18
    let head := if form < 2 then 3 else form + 2
    let n := h / 16 % 2 ^ w
    let k := h / 2 ^ (4 + w) % 2 ^ w
    must (head + k ≤ src.length && decide (n ≤ most))
    let body := (src.drop head).take k
    let (c, t) ← if kind = 2 then readHuff body else (match z.huff with
      | some c => .ok (c, 0)
      | none => .error 3)
    let l ← if form = 0 then huffStream c n (body.drop t) else huffFour c n (body.drop t)
    .ok (some c, l, head + k)

/-- The base and the extra bits of the literal length codes and of the match length codes (RFC 8878, 3.1.1.3.2.1.1). -/
def zLitCodes : List (Nat × Nat) :=
  (List.range 16).map (fun i => (i, 0)) ++ [(16, 1), (18, 1), (20, 1), (22, 1), (24, 2), (28, 2), (32, 3), (40, 3), (48, 4)]
    ++ (List.range 11).map (fun i => (2 ^ (i + 6), i + 6))
def zMatCodes : List (Nat × Nat) :=
  (List.range 32).map (fun i => (i + 3, 0)) ++ [(35, 1), (37, 1), (39, 1), (41, 1), (43, 2), (47, 2), (51, 3), (59, 3), (67, 4), (83, 4), (99, 5)]
    ++ (List.range 10).map (fun i => (2 ^ (i + 7) + 3, i + 7))

/-- The default distributions, each probability plus one (RFC 8878, 3.1.1.3.2.2). -/
def zLitDefault : FseTable :=
  fseTable 6 ([5, 4] ++ List.replicate 11 3 ++ [2, 2, 2] ++ List.replicate 9 3 ++ [4, 3] ++ List.replicate 5 2 ++ List.replicate 4 0)
def zMatDefault : FseTable := fseTable 6 ([2, 5, 4] ++ List.replicate 6 3 ++ List.replicate 37 2 ++ List.replicate 7 0)
def zOffDefault : FseTable := fseTable 5 (List.replicate 6 2 ++ [3, 3, 3] ++ List.replicate 15 2 ++ List.replicate 5 0)

/-- A table of a block by its mode: the table and the bytes it takes. -/
def zTable (mode maxLog maxSymbol : Nat) (default : FseTable) (prev : Option FseTable) (src : List Byte) : Reading (FseTable × Nat) :=
  match mode with
  | 0 => .ok (default, 0)
  | 1 => do
    must (!src.isEmpty && decide (fieldAt src 0 1 ≤ maxSymbol))
    .ok (fseLone (fieldAt src 0 1), 1)
  | 2 => readFse maxLog maxSymbol src
  | _ => (match prev with
    | some t => .ok (t, 0)
    | none => .error 3)

/-- The offset a code stands for and the repeat offsets after it (RFC 8878, 3.1.1.5); noLits where the sequence has no literals. -/
def zOffset (v : Nat) (noLits : Bool) (r : Nat × Nat × Nat) : Nat × (Nat × Nat × Nat) :=
  let fresh (x : Nat) := (x, x, r.1, r.2.1)
  match (if 3 < v then 5 else v + (if noLits then 1 else 0)) with
  | 1 => (r.1, r)
  | 2 => (r.2.1, r.2.1, r.1, r.2.2)
  | 3 => fresh r.2.2
  | 4 => fresh (r.1 - 1)
  | _ => fresh (v - 3)

/-- How far back a match may reach: into the window, and into the dictionary while no more than a window has been written. -/
def zReach (window hist : Nat) (out : Written) : Nat := if out.count - hist ≤ window then out.count else window

/-- The sequences of a block over its literals: n are left, the states are of the three tables. -/
def zSequences (window hist v : Nat) (tl tf tm : FseTable) :
    Nat → Nat → Nat × Nat × Nat → List Byte → (Nat × Nat × Nat) → Written → Reading ((Nat × Nat × Nat) × Written)
  | 0, left, _, lits, reps, w => do
    must (left = 0)
    .ok (reps, w.puts lits)
  | n + 1, left, (sl, so, sm), lits, reps, w => do
    let oc := tf.symbol so
    let (x, left) ← backTake v left oc
    let (mb, mx) := zMatCodes.getD (tm.symbol sm) (0, 0)
    let (y, left) ← backTake v left mx
    let (lb, lx) := zLitCodes.getD (tl.symbol sl) (0, 0)
    let (z, left) ← backTake v left lx
    let k := lb + z
    let (d, reps) := zOffset (2 ^ oc + x) (k = 0) reps
    must (k ≤ lits.length)
    let w := w.puts (lits.take k)
    must (d ≠ 0 && decide (d ≤ zReach window hist w))
    let w := w.copy d (mb + y)
    let (left, st) ← if n = 0 then .ok (left, (0, 0, 0)) else do
      let (a, left) ← backTake v left (tl.next sl).1
      let (b, left) ← backTake v left (tm.next sm).1
      let (c, left) ← backTake v left (tf.next so).1
      pure (left, ((tl.next sl).2 + a, (tf.next so).2 + c, (tm.next sm).2 + b))
    zSequences window hist v tl tf tm n left st (lits.drop k) reps w

/-- A compressed block (RFC 8878, 3.1.1.3). -/
def zBlock (window most hist : Nat) (z : ZState) (src : List Byte) : Reading ZState := do
  let (huff, lits, k) ← zLiterals most z src
  let z := { z with huff := huff }
  let src := src.drop k
  must (!src.isEmpty)
  let b := fieldAt src 0 1
  let (n, head) := if b < 128 then (b, 1) else if b < 255 then ((b - 128) * 256 + fieldAt src 1 1, 2) else (fieldAt src 1 2 + 0x7F00, 3)
  must (head ≤ src.length)
  if n = 0 then
    must (src.length = head)
    .ok { z with out := z.out.puts lits }
  else
    must (head < src.length)
    let modes := fieldAt src head 1
    must (modes % 4 = 0)
    let src := src.drop (head + 1)
    let (tl, k) ← zTable (modes / 64) 9 35 zLitDefault z.lit src
    let src := src.drop k
    let (tf, k) ← zTable (modes / 16 % 4) 8 31 zOffDefault z.off src
    let src := src.drop k
    let (tm, k) ← zTable (modes / 4 % 4) 9 52 zMatDefault z.mat src
    let (v, left) ← backSource (src.drop k)
    let (sl, left) ← backTake v left tl.log
    let (so, left) ← backTake v left tf.log
    let (sm, left) ← backTake v left tm.log
    let (reps, out) ← zSequences window hist v tl tf tm n left (sl, so, sm) lits z.reps z.out
    must (out.count ≤ z.out.count + most)
    .ok { z with lit := some tl, off := some tf, mat := some tm, reps := reps, out := out }

/-- The blocks of a frame, up to its last: what they leave and the bytes after them. -/
def zBlocks (window hist : Nat) : Nat → ZState → List Byte → Reading (ZState × List Byte)
  | 0, _, _ => .error 3
  | n + 1, z, src => do
    must (3 ≤ src.length)
    let h := fieldAt src 0 3
    let most := min window (2 ^ 17)
    let size := h / 8
    let kind := h / 2 % 4
    let k := if kind = 1 then 1 else size
    let src := src.drop 3
    must (kind ≠ 3 && decide (size ≤ most) && decide (k ≤ src.length))
    let z ← match kind with
      | 0 => pure { z with out := z.out.puts (src.take size) }
      | 1 => pure { z with out := z.out.puts (List.replicate size (src.headD 0)) }
      | _ => zBlock window most hist z (src.take size)
    if h % 2 = 1 then .ok (z, src.drop k) else zBlocks window hist n z (src.drop k)

/-- A dictionary (RFC 8878, 5): its identifier, 0 for a raw one, and what a frame starts with. -/
def readZDict (dict : List Byte) : Reading (Nat × ZState) :=
  if dict.length < 8 || fieldAt dict 0 4 ≠ 0xEC30A437 then .ok (0, { out := historyOf dict })
  else do
    let id := fieldAt dict 4 4
    let l := dict.drop 8
    let (c, k) ← readHuff l
    let l := l.drop k
    let (tf, k) ← readFse 8 31 l
    let l := l.drop k
    let (tm, k) ← readFse 9 52 l
    let l := l.drop k
    let (tl, k) ← readFse 9 35 l
    let l := l.drop k
    must (12 ≤ l.length)
    let r := (fieldAt l 0 4, fieldAt l 4 4, fieldAt l 8 4)
    let body := l.drop 12
    must ([r.1, r.2.1, r.2.2].all (fun x => x ≠ 0 && decide (x ≤ body.length)))
    .ok (id, { huff := some c, lit := some tl, off := some tf, mat := some tm, reps := r, out := historyOf body })

/-- A Zstandard frame after its magic number: its output and the bytes after it (RFC 8878, 3.1.1). -/
def zFrame (dict : Nat × ZState) (src : List Byte) : Reading (List Byte × List Byte) := do
  must (!src.isEmpty)
  let d := fieldAt src 0 1
  must (!bit d 3) 5
  let single := bit d 5
  let idLen := [0, 1, 2, 4].getD (d % 4) 0
  let sizeLen := [if single then 1 else 0, 2, 4, 8].getD (d / 64) 0
  let p := if single then 1 else 2
  let head := p + idLen + sizeLen
  must (head ≤ src.length)
  let w := fieldAt src 1 1
  let size := fieldAt src (p + idLen) sizeLen + (if d / 64 = 1 then 256 else 0)
  let window := if single then size else 2 ^ (10 + w / 8) + 2 ^ (10 + w / 8) / 8 * (w % 8)
  must (window ≤ 2 ^ 27) 5
  let id := fieldAt src p idLen
  must (id = 0 || id = dict.1) 7
  let (z, rest) ← zBlocks window dict.2.out.count src.length dict.2 (src.drop head)
  let out := z.out.since dict.2.out.count
  must (sizeLen = 0 || out.length = size)
  must (!bit d 2 || decide (4 ≤ rest.length))
  must (!bit d 2 || fieldAt rest 0 4 = xxh64 out % 2 ^ 32) 4
  .ok (out, rest.drop (if bit d 2 then 4 else 0))

/-- Zstandard frames and skippable frames, one after another. -/
def zFrames (dict : Nat × ZState) : Nat → List Byte → List Byte → Reading (List Byte)
  | 0, _, _ => .error 3
  | n + 1, src, out => do
    must (8 ≤ src.length || (4 ≤ src.length && fieldAt src 0 4 = 0xFD2FB528))
    let magic := fieldAt src 0 4
    let (l, rest) ← if magic / 16 = 0x184D2A5 then do
        must (8 + fieldAt src 4 4 ≤ src.length)
        pure ([], src.drop (8 + fieldAt src 4 4))
      else do
        must (magic = 0xFD2FB528)
        zFrame dict (src.drop 4)
    if rest.isEmpty then .ok (out ++ l) else zFrames dict n rest (out ++ l)

/-- DECOMPRESS of Zstandard frames (R512, R513): a formatted dictionary that cannot be read is no dictionary. -/
def readZstd (dict src : List Byte) : Reading (List Byte) :=
  match readZDict dict with
  | .error _ => .error 7
  | .ok d => zFrames d (src.length + 1) src []

/-- DECOMPRESS of one stream in a format of R512: the status of R504 and the output. -/
def decompress (format : Nat) (dict src : List Byte) : Nat × List Byte :=
  match (match format with
    | 0 => readZstd dict src
    | 1 => readLz4 dict src
    | 2 => readDeflate src
    | 3 => readZlib dict src
    | _ => readGzip (src.length + 1) src []) with
  | .ok out => (0, out)
  | .error st => (st, [])

end Sys2Proof.Machine
end

