-- ==== Sys2Proof/Machine/Compress.lean ====
section
/-! DEFINITION. Machine/Compress.lean: the streams that COMPRESS writes (R512, R514). -/

namespace Sys2Proof.Machine

/-- Whether every block of a Deflate stream, up to its last, is a dynamic one (R512). -/
def dynamicOnly (b : BitSource) : Nat → Nat → Written → Bool
  | 0, _, _ => false
  | n + 1, pos, w =>
    let block : Reading (Nat × Nat × Written) := do
      let (last, pos) ← b.take pos 1
      let (kind, pos) ← b.take pos 2
      must (kind = 2)
      let (pos, lit, dist) ← inflateDynamic b pos
      let (pos, w) ← inflateSymbols b lit dist (b.size + 1) pos w
      .ok (last, pos, w)
    match block with
    | .ok (last, pos, w) => last = 1 || dynamicOnly b n pos w
    | .error _ => false

/-- Whether a stream is of the kind that COMPRESS writes (R512): one Zstandard frame of window 8 MiB with content size and checksum, one LZ4
frame of independent 4 MiB blocks with a content checksum, dynamic Deflate blocks, or one gzip member with no optional field. -/
def streamForm (format : Nat) (dict input c : List Byte) : Bool :=
  match format with
  | 0 =>
    let d := fieldAt c 4 1
    fieldAt c 0 4 = 0xFD2FB528 && bit d 2 && !bit d 5 && decide (64 ≤ d) && fieldAt c 5 1 = 0x68
      && (match readZDict dict with
          | .ok z => (match zFrame z (c.drop 4) with
              | .ok r => decide (r = (input, []))
              | .error _ => false)
          | .error _ => false)
  | 1 => let f := fieldAt c 4 1; bit f 5 && bit f 2 && fieldAt c 5 1 = 0x70
  | 2 => dynamicOnly (bitSource c) (8 * c.length + 1) 0 (historyOf [])
  | 3 => true
  | _ =>
    fieldAt c 3 1 = 0 && (match inflate [] (c.drop 10) with
      | .ok r => 10 + r.1 + 8 = c.length
      | .error _ => false)

/-- Bits of a number, the lowest first. -/
def lowBits (n v : Nat) : List Bool := (List.range n).map (fun i => v / 2 ^ i % 2 = 1)

/-- Bytes from bits, the lowest first. -/
def bytesOfBits (l : List Bool) : List Byte :=
  (chunks 8 (l.length + 1) l).map (fun c => BitVec.ofNat 8 (c.zipIdx.foldl (fun n e => n + b2n e.1 * 2 ^ e.2) 0))

/-- The code of a byte, or of the end of the block at 256, in a dynamic block whose literals 0 to 254 have eight bits and whose last two symbols
have nine: a prefix code's highest bit goes first (RFC 1951, 3.1.1). -/
def plainCode (x : Nat) : List Bool := (if x < 255 then lowBits 8 x else lowBits 9 (x + 255)).reverse

/-- The input as one dynamic Deflate block of literals (RFC 1951). -/
def plainDeflate (input : List Byte) : List Byte :=
  bytesOfBits (lowBits 1 1 ++ lowBits 2 2 ++ lowBits 5 0 ++ lowBits 5 0 ++ lowBits 4 3
    ++ ([0, 0, 0, 2, 1, 0, 2] : List Nat).flatMap (lowBits 3)
    ++ List.replicate 255 false ++ [true, true, true, true, true, false]
    ++ input.flatMap (fun b => plainCode b.toNat) ++ plainCode 256)

/-- Blocks of a Zstandard frame that hold the input as it is, at most 128 KiB each (RFC 8878, 3.1.1.2). -/
def plainZstdBlocks (l : List (List Byte)) : List Byte :=
  if l.isEmpty then leBytes 3 1
  else l.zipIdx.flatMap (fun e => leBytes 3 (e.1.length * 8 + b2n (decide (e.2 + 1 = l.length))) ++ e.1)

/-- A stream of a format that holds the input without shortening it. -/
def plainStream (format : Nat) (input : List Byte) : List Byte :=
  match format with
  | 0 =>
    leBytes 4 0xFD2FB528 ++ leBytes 1 0xC4 ++ leBytes 1 0x68 ++ leBytes 8 input.length
      ++ plainZstdBlocks (chunks 131072 (input.length + 1) input) ++ leBytes 4 (xxh64 input % 2 ^ 32)
  | 1 =>
    let head := leBytes 1 0x64 ++ leBytes 1 0x70
    leBytes 4 0x184D2204 ++ head ++ leBytes 1 (xxh32 head / 256 % 256)
      ++ (chunks 4194304 (input.length + 1) input).flatMap (fun c => leBytes 4 (2 ^ 31 + c.length) ++ c)
      ++ leBytes 4 0 ++ leBytes 4 (xxh32 input)
  | 2 => plainDeflate input
  | 3 => leBytes 1 0x78 ++ leBytes 1 0x01 ++ plainDeflate input ++ beBytes 4 (adler32 input)
  | _ =>
    leBytes 2 0x8B1F ++ leBytes 1 8 ++ leBytes 6 0 ++ leBytes 1 0xFF ++ plainDeflate input ++ leBytes 4 (crc32 input)
      ++ leBytes 4 (input.length % 2 ^ 32)

/-- What COMPRESS writes (R512, R514): the stream that Config gives for the format, level, dictionary and input, where it is of the form that
R512 gives and DECOMPRESS gives the input back from it, and else a stream that holds the input as it is (DESIGN CHOICE, log entry 9: which valid
stream COMPRESS writes is left open). -/
def compressed (format level : Nat) (dict input : List Byte) : List Byte :=
  let c := Config.compress format level dict input
  if streamForm format dict input c && decide (decompress format dict c = (0, input)) then c else plainStream format input

end Sys2Proof.Machine
end

