-- ==== Sys2Proof/Machine/Streams.lean ====
section
/-! DEFINITION. Machine/Streams.lean: the stream engines' COPY, PREFETCH and SNAPSHOT, the stream prefetchers and the side buffers
(R183, R184, R336 to R352). -/

namespace Sys2Proof.Machine

/-- The port of a queue's command fetch, which also reads its descriptors (R455). -/
def Dev.cmdPort (s : Dev) (q : QueueId) : Port :=
  let d := (homeDie q).val
  { die := homeDie q, stream := if d < 8 then 0xBE else if d < 18 then 0x41 else 0xF2, queue := q.val, asid := (s.queue q).asid.toNat }

/-- The port by which an operation reads its descriptors, each once (R161, R455). -/
def Dev.opPort (s : Dev) (o : Operation) : Port := { s.cmdPort o.queue with slot := some o.slot, keep := true }

/-- The port of an operation's stream engine: side 0 reads, side 1 writes (R455). -/
def Dev.opStream (s : Dev) (o : Operation) (side : Nat) : Port :=
  let d := (homeDie o.queue).val
  { die := homeDie o.queue, stream := if d < 8 then 0xBC + side else if d < 18 then 0x41 else 0xF0 + side, queue := o.queue.val,
    asid := (s.queue o.queue).asid.toNat, slot := some o.slot }

/-- The bits of an image. -/
def Image.bits : Image → Nat
  | .tensor t => shapeSize t.exts * t.fmt.bits
  | .bytes b => 8 * b.len

/-- The packed size of an image in bytes (R349). -/
def Image.size (x : Image) : Nat := (x.bits + 7) / 8

/-- The byte range of an image (R162); COPY reads and writes no scales (R349). -/
def Image.range : Image → Nat × Nat
  | .tensor t => t.range
  | .bytes b => b.range

/-- The cache hint of an image's descriptor. -/
def Image.hint : Image → Nat
  | .tensor t => t.hint
  | .bytes b => b.hint

/-- Bits a to z − 1 of an image as runs of bits in memory, each the address of its first bit in bits and its length. -/
def Image.bitSegs (x : Image) (a z : Nat) : List (Nat × Nat) :=
  match x with
  | .bytes b => if z ≤ a then [] else [(8 * b.base + a, z - a)]
  | .tensor t =>
    let row := t.exts.headD 0 * t.fmt.bits
    if row = 0 || z ≤ a then []
    else
      (List.range ((z - 1) / row - a / row + 1)).map (fun i =>
        let r := a / row + i
        let start := max a (r * row)
        (8 * t.addr (0 :: coordOf t.exts.tail r) + (start - r * row), min z ((r + 1) * row) - start))

/-- The bytes a run of bits touches: address and length. -/
def segBytes (g : Nat × Nat) : Nat × Nat := (g.1 / 8, (g.1 % 8 + g.2 + 7) / 8)

/-- Bits a to z − 1 of an image, as one number, with the realm flag of any page of them. -/
def Dev.readBits (s : Dev) (p : Port) (x : Image) (a z : Nat) : Dev × Fetch (Nat × Bool) :=
  let gs := x.bitSegs a z
  Fetch.andThen (s.readRuns { p with hint := x.hint } (gs.map segBytes)) fun s r =>
    (s, .ok ((gs.zip r.1).foldr (fun e acc => leNat e.2 / 2 ^ (e.1.1 % 8) % 2 ^ e.1.2 + 2 ^ e.1.2 * acc) 0, r.2))

/-- Bytes lo to hi − 1 of an image, as one number. -/
def Dev.readImage (s : Dev) (p : Port) (x : Image) (lo hi : Nat) : Dev × Fetch Nat :=
  Fetch.andThen (s.readBits p x (8 * lo) (min (8 * hi) x.bits)) fun s r => (s, .ok r.1)

/-- The addresses of the bytes of which runs of bits write only a part (R415). -/
def partBytes (gs : List (Nat × Nat)) : List Nat :=
  let edges := gs.flatMap (fun g => [g.1 / 8, (g.1 + g.2 - 1) / 8])
  (edges.filter (fun b => (List.range 8).any (fun i => !gs.any (fun g => g.1 ≤ 8 * b + i && 8 * b + i < g.1 + g.2)))).eraseDups

/-- Runs of bits written through translated pieces, partly written bytes merged (R415). None: a cache cannot take a line now. -/
def Dev.writeSegs (s : Dev) (p : Port) (hint : Nat) (part : List Nat) : List (Nat × Nat) → List Piece → Nat → Option Dev
  | [], _, _ => some s
  | g :: gs, ps, v =>
    let (a, n) := segBytes g
    let k := (pagePieces a n (n / 4096 + 2)).length
    let mine := ps.take k
    let old := mine.flatMap (fun x => (s.physRead x.pa x.len x.realm).1)
    match s.writePieces p hint mine (mergeCode old (g.1 % 8) g.2 v) part with
    | some s => s.writeSegs p hint part gs (ps.drop k) (v / 2 ^ g.2)
    | none => none

/-- Bits a to z − 1 of an image written from a number, all or none (R178, R350, R451). -/
def Dev.writeBits (s : Dev) (p : Port) (x : Image) (a z v : Nat) : Dev × Fetch Unit :=
  let gs := x.bitSegs a z
  Fetch.andThen (s.holdWrite p x.hint false wantWrite (gs.map segBytes)) fun s ps =>
    match s.writeSegs p x.hint (partBytes gs) gs ps v with
    | some s => (s, .ok ())
    | none => (s.writeWait p.die, .wait)

/-- Bytes lo to hi − 1 of an image written from a number. -/
def Dev.writeImage (s : Dev) (p : Port) (x : Image) (lo hi v : Nat) : Dev × Fetch Unit :=
  s.writeBits p x (8 * lo) (min (8 * hi) x.bits) v

/-- A tensor or a byte buffer by its descriptor (R155, R160). -/
def parseImage (b : Nat) : Option Image :=
  if descKind b = 1 then (parseTensor b).map .tensor else (parseBytes b).map .bytes

/-- A descriptor that must name a tensor or a byte buffer (R349). -/
def Dev.namedImage (s : Dev) (p : Port) (handle : Nat) : Dev × Named Image :=
  Named.andThen (s.named p handle parseImage) fun s x => match x with
    | .tensor t => Named.andThen (s.withScale p t) (fun s t => (s, .ok (.tensor t)))
    | .bytes b => (s, .ok (.bytes b))

/-- An operation that has begun and has read its descriptors goes on to its units, ends with their failure, or waits for them (R161, R175). -/
def beginWith (o : Operation) (r : Dev × Named OpBody) : Dev :=
  match r with
  | (s, .ok b) => s.modOp o.slot (fun o => { o with kept := [], body := b })
  | (s', .fail c a) => s'.failOp o.slot c a
  | (s', .invalid) => s'.modOp o.slot (fun o => { o with status := 5, reason := 2 })
  | (s', .wait) => s'

/-- A transfer from realm-tagged memory to memory that is not ends aborted with reason 0x0D before any byte moves (R184, R352, R539). -/
def Dev.realmTransfer (s : Dev) (src dst : Port) (from_ dest : Nat × Nat) : Dev × Named Unit :=
  match s.realmSpace src with
  | none => (s, .ok ())
  | some r =>
    let pages (x : Nat × Nat) : List (Nat × Nat) := pagePieces x.1 (x.2 - x.1) ((x.2 - x.1) / 4096 + 2)
    Named.andThen (Fetch.toNamed (s.translateAll src wantRead (pages from_))) fun s a =>
    Named.andThen (Fetch.toNamed (s.translateAll dst wantWrite (pages dest))) fun s b =>
      match a.any Piece.realm, b.find? (fun x => !x.realm) with
      | true, some x => (s.reportRealm dst x.va 3 r, .fail 0xD x.va)
      | _, _ => (s, .ok ())

/-- COPY's forms (R349). -/
def copyFits (a b : Image) : Bool :=
  match a, b with
  | .tensor x, .tensor y => x.fmt = y.fmt && x.exts = y.exts
  | x, y => x.size = y.size

/-- The 4 KiB units of a number of bytes. -/
def unitsOf (n : Nat) : Nat := (n + 4095) / 4096

/-- COPY begins (R349, R352, R162). -/
def Dev.beginCopy (s : Dev) (o : Operation) : Dev :=
  beginWith o (
    Named.andThen (s.namedImage (s.opPort o) (o.h.getD 0 0)) fun s a =>
    Named.andThen (s.namedImage (s.opPort o) (o.h.getD 2 0)) fun s b =>
    if !copyFits a b || rangesMeet [b.range] [a.range] then (s, .invalid)
    else Named.andThen (s.realmTransfer (s.opStream o 0) (s.opStream o 1) a.range b.range) fun s _ =>
      (s, .ok (.stream { src := a, dst := some b, units := unitsOf b.size })))

/-- SNAPSHOT begins (R183, R184, R162); a destination too short for the header and the bytes is an invalid descriptor. -/
def Dev.beginSnapshot (s : Dev) (o : Operation) : Dev :=
  beginWith o (
    Named.andThen (s.namedImage (s.opPort o) (o.h.getD 0 0)) fun s a =>
    Named.andThen (s.namedBytes (s.opPort o) (o.h.getD 2 0)) fun s b =>
    if rangesMeet [b.range] [a.range] || b.len < 64 + a.size then (s, .invalid)
    else Named.andThen (s.realmTransfer (s.opStream o 0) (s.opStream o 1) a.range b.range) fun s _ =>
      (s, .ok (.stream { src := a, dst := some (.bytes b), units := unitsOf (64 + a.size), time := o.tBegin.toNat })))

/-- PREFETCH begins (R347, R348): its units are the 4 KiB blocks its byte range touches. -/
def Dev.beginPrefetch (s : Dev) (o : Operation) : Dev :=
  let prm := iParam o.word
  beginWith o (
    Named.andThen (s.namedImage (s.opPort o) (o.h.getD 0 0)) fun s a =>
    if 8 ≤ prm || prm % 4 = 3 || (8 ≤ (homeDie o.queue).val && prm % 4 < 2) then (s, .invalid)
    else
      let (lo, hi) := a.range
      (s, .ok (.stream { src := a, prm := prm, units := if hi ≤ lo then 0 else (hi - 1) / 4096 - lo / 4096 + 1, life := o.sampled.getD 2 0 })))

/-- A unit of a stream operation is written in full. -/
def Dev.unitDone (s : Dev) (slot : SlotId) (u : UnitOp) : Dev :=
  s.modOp slot (fun o => { o with written := o.written ++ [u.next], body := .stream { u with next := u.next + 1, asked := [], flying := [] } })

/-- Whether an operation performs a further unit. -/
def Operation.goes (o : Operation) : Bool := o.begun && o.status = 0 && o.failed.isNone && o.aborting.isNone

/-- Whether an aborted PREFETCH is in a block whose lines it has begun to ask for, which it finishes (R138, R348). -/
def Operation.midUnit (o : Operation) : Bool :=
  o.begun && decide (o.status = 0) && o.failed.isNone && o.aborting.isSome && (match o.body with
    | .stream u => decide (u.asked ≠ []) && decide (u.next < u.units)
    | _ => false)

/-- COPY's next unit (R350). -/
def Dev.copyUnit (s : Dev) (o : Operation) (u : UnitOp) : Dev :=
  match u.dst with
  | none => s
  | some d =>
    let lo := 4096 * u.next
    let hi := min (lo + 4096) d.size
    let r := Fetch.andThen (s.readImage (s.opStream o 0) u.src lo hi) fun s v =>
      s.writeImage (s.opStream o 1) d lo hi v
    match r with
    | (s, .ok ()) => (s.bump 5 0x107 (homeDie o.queue).val (hi - lo)).unitDone o.slot u
    | (s, .wait) => s
    | (s, .fail c a) => s.failOp o.slot c a

/-- The header of a SNAPSHOT (R183). -/
def snapshotHeader (o : Operation) (u : UnitOp) (digest : List Byte) (n : Nat) : List Byte :=
  leBytes 8 u.time ++ leBytes 4 o.queue.val ++ leBytes 4 o.ordinal ++ leBytes 4 n ++ digest ++ List.replicate 12 0

/-- SNAPSHOT's next unit (R183): the source is read once, before the first. -/
def Dev.snapshotUnit (s : Dev) (o : Operation) (u : UnitOp) : Dev :=
  match u.dst with
  | some (.bytes d) =>
    let r : Dev × Fetch UnitOp :=
      if u.data ≠ [] then (s, .ok u)
      else Fetch.andThen (s.readImage (s.opStream o 0) u.src 0 u.src.size) fun s v =>
        let bytes := leBytes u.src.size v
        let digest := sha256 bytes
        (s, .ok { u with data := snapshotHeader o u digest bytes.length ++ bytes, digest := digest })
    let w := Fetch.andThen r fun s u =>
      Fetch.andThen (s.writeUnit (s.opStream o 1) d.hint false
        [(d.base + 4096 * u.next, (u.data.drop (4096 * u.next)).take 4096)]) fun s _ => (s, .ok u)
    match w with
    | (s, .ok u) => s.unitDone o.slot u
    | (s, .wait) => s
    | (s, .fail c a) => s.failOp o.slot c a
  | _ => s

/-- Whether a 128-byte line holds a byte of an element of an image (R347). -/
def Image.touches (x : Image) (line : Nat) : Bool :=
  match x with
  | .bytes b => line < b.base + b.len && b.base < line + 128
  | .tensor t =>
    let len := (t.exts.headD 0 * t.fmt.bits + 7) / 8
    (List.range (shapeSize t.exts.tail)).any (fun r =>
      let a := t.addr (0 :: coordOf t.exts.tail r)
      a < line + 128 && line < a + len)

/-- The lines of a block that PREFETCH brings. -/
def UnitOp.lines (u : UnitOp) : List Nat :=
  let (lo, hi) := u.src.range
  let block := (lo / 4096 + u.next) * 4096
  (List.range 32).map (fun i => block + 128 * i) |>.filter (fun a => a < hi && lo < a + 128 && u.src.touches a)

/-- The side-buffer entries of a slice that are in use or reserved (R342). -/
def Dev.sideUsed (s : Dev) (d : Fin 8) (t : LineTag) : Nat :=
  let here (k : Nat) : Bool := l2Slice (tagPa k) = l2Slice (tagPa t)
  ((present (s.mem.side[d])).filter (fun e => here e.1)).length + ((present (s.mem.inFlight[d])).filter (fun e => here e.1)).length

/-- Whether a die holds a line already, in its L2, its side buffers or on its way to either. -/
def Dev.holdsLine (s : Dev) (d : Fin 8) (t : LineTag) : Bool :=
  let a : Agent := ⟨d.val, by omega⟩
  (s.lineAt a t).isSome || (s.sideLine a t).isSome || (s.flightOf a t).isSome || (s.waitingAt a t).isSome

/-- Whether a line gives a prefetch an error, so that it is dropped without a record: one of a realm that is not active, or under the old
selection of a running SCRUB (R343, R528, R538). -/
def Dev.prefetchDrops (s : Dev) (t : LineTag) : Bool :=
  (tagRealm t && !(s.realmAt (tagPa t / 2 ^ 42 % 64)).active) || (s.scrubbed (tagPa t) (tagRealm t)).1

/-- A line request of a prefetch into the side buffers: it leaves, or its slice has no free entry, or its die no request entry (R331, R336,
R342); one that meets an error is dropped (R343). -/
def Dev.askSide (s : Dev) (d : Fin 8) (who : Nat) (t : LineTag) (life : Nat) : Dev × Bool :=
  if s.holdsLine d t || s.prefetchDrops t then (s, true)
  else if 256 ≤ s.sideUsed d t then (s.bump 5 0x104 d.val 1, false)
  else match s.takeEntry ⟨d.val, by omega⟩ who t with
    | (s, false) => (s, false)
    | (s, true) => ((s.setFlight d t (some { joined := none, discard := false, life := life })).bump 5 0x100 d.val 1, true)

/-- A line of a PREFETCH to level 0x2 is brought to its home's L3: an owner's data by SnpOnce, which leaves it the owner (R347, R392, R398). -/
def Dev.prefetchL3 (s : Dev) (t : LineTag) : Dev :=
  if (s.l3Line t).isSome then s
  else
    let (s, _) := s.takeEpoch t
    let s := s.snoopOwner none t
    match s.ownerOf t, s.evbOf t with
    | some (_, l), _ => s.l3Put t l.data false l.poison
    | none, some _ => s.evbToHome t
    | none, none => (s.homeRead t none).1

/-- One line of a PREFETCH at its level (R347): asked for where it goes to a side buffer, else brought, once its level can take it. -/
def Dev.prefetchLine (s : Dev) (u : UnitOp) (die : Die) (t : LineTag) : Dev × Bool :=
  match u.prm % 4 with
  | 0 => if h : die.val < 8 then s.askSide ⟨die.val, h⟩ 0xBC t u.life else (s, true)
  | 1 => if h : die.val < 8 then s.demandRead ⟨die.val, by omega⟩ 0xBC t u.src.hint else (s, true)
  | _ => (s.prefetchL3 t, true)

/-- The line of a virtual address for a PREFETCH: its translation, a wait, a failure, or a skip under param[2] (R347). -/
def Dev.prefetchTag (s : Dev) (p : Port) (u : UnitOp) (va : Nat) : Dev × Fetch (Option LineTag) :=
  let one (s : Dev) : Dev × Fetch (Option LineTag) :=
    Fetch.andThen (s.translateAll p wantRead [(va, 128)]) fun s ps => (s, .ok (ps.head?.map (fun x => tagOf x.pa x.realm)))
  if bit u.prm 2 && vaError va = 0 then
    match s.probePages p wantRead [(va, 128)] with
    | (s, .ok ()) => one s
    | (s, .wait) => (s, .wait)
    | (s, .fail _ _) => (s, .ok none)
  else one s

/-- The lines of PREFETCH's next block, one after another: asked for, skipped, or held up by a full slice. -/
def Dev.prefetchBlock (s : Dev) (o : Operation) (u : UnitOp) : List Nat → Dev × Fetch (UnitOp × Bool)
  | [] => (s, .ok (u, true))
  | va :: rest =>
    if u.asked.contains va then s.prefetchBlock o u rest
    else match s.prefetchTag (s.opStream o 0) u va with
      | (s, .wait) => (s, .ok (u, false))
      | (s, .fail c a) => (s, .fail c a)
      | (s, .ok none) =>
        let s := if u.skipped then s else s.modOp o.slot (fun o => { o with faultAddr := va })
        s.prefetchBlock o { u with skipped := true, asked := u.asked ++ [va] } rest
      | (s, .ok (some t)) =>
        if s.lineBusy t then (s, .ok (u, false))
        else match s.prefetchLine u (homeDie o.queue) t with
          | (s, true) => s.prefetchBlock o { u with asked := u.asked ++ [va], flying := if u.prm % 4 = 0 then u.flying ++ [t] else u.flying } rest
          | (s, false) => (s, .ok (u, false))

/-- Whether a line is still on its way to a side buffer of a die, or to its L2 (R348). -/
def Dev.isFlying (s : Dev) (die : Die) (t : LineTag) : Bool :=
  (dieAgent die).any (fun a => (s.flightOf a t).isSome || ((s.waitingAt a t).isSome && (s.lineAt a t).isNone))

/-- PREFETCH's next unit: its lines are asked for, and it ends once each has arrived or been skipped (R348). -/
def Dev.prefetchUnit (s : Dev) (o : Operation) (u : UnitOp) : Dev :=
  match s.prefetchBlock o u u.lines with
  | (s, .fail c a) => s.failOp o.slot c a
  | (s, .wait) => s
  | (s, .ok (u, all)) =>
    if all && !u.flying.any (s.isFlying (homeDie o.queue)) then s.unitDone o.slot u
    else s.modOp o.slot (fun o => { o with body := .stream u })

/-- The running operation of a journal slot performs its next stream unit; an aborted one only finishes the unit it is in (R138). -/
def Dev.streamUnit (s : Dev) (slot : SlotId) (opcode : Nat) (f : Dev → Operation → UnitOp → Dev) : Dev :=
  match s.op slot with
  | some o => match o.body with
    | .stream u => if iOpcode o.word = opcode && (o.goes || o.midUnit) && u.next < u.units then f s o u else s
    | _ => s
  | none => s

/-- A walk without fault for a prefetcher (R346, R459, R489): it joins a pending entry, opens one while at least 8 are free, or its request
is dropped and counted. -/
def Dev.walkNoFault (s : Dev) (p : Port) (va : Nat) : Dev :=
  let mine (e : MissEntry) : Bool := e.die = p.die && e.asid = p.asid && e.vpn = va / 4096
  if s.xl.misses.any mine then
    let joins := s.xl.misses.any (fun e => mine e && e.walking && !e.pf.contains p.stream)
    let s := if joins then s.bump 1 0x102 p.die.val 1 else s
    s.modXl (fun x => { x with misses := x.misses.map (fun e =>
      if mine e && e.walking && !e.pf.contains p.stream then { e with pf := e.pf ++ [p.stream] } else e) })
  else if (s.xl.misses.filter (fun e => e.die = p.die)).length ≤ 56 then
    (s.bump 1 0x101 p.die.val 1).modXl (fun x => { x with misses := x.misses ++
      [{ die := p.die, asid := p.asid, vpn := va / 4096, va := va, streams := [], walking := true, pf := [p.stream] }] })
  else s.bump 5 0x105 p.die.val 1

/-- PREFETCHER_ISSUE: a thresher's stream prefetcher asks for the next line within its distance (R342 to R346); a line that gives it an error
it passes over (R343). -/
def execPrefetcherIssue (m : MillId) (stream : Fin 4) (s : State) : Result :=
  s.run fun s => (
    match s.linesAhead m stream.val with
    | none => s
    | some (o, x, lines) =>
      let die : Fin 8 := ⟨m.val / 12, by omega⟩
      let p := s.thresherPort o m stream.val
      let y := s.mill m
      if y.pfBlocked.any (fun b => b.1 = stream.val && s.blockStands m b) then s
      else
        let s := s.modMill m (fun y => { y with pfBlocked := y.pfBlocked.filter (fun b => b.1 ≠ stream.val) })
        let tag (a : Nat) : Option LineTag := (s.tcHit p.die p.asid (a / 4096) wantRead).map (fun e =>
          tagOf (e.pa + (a / 4096 - e.vpn) * 4096 + a % 4096) e.realm)
        match (lines.take x.pfDistance).find? (fun a => (tag a).all (fun t => !s.holdsLine die t && !s.prefetchDrops t)) with
        | none => s
        | some a =>
          match tag a with
          | none => s.walkNoFault p a
          | some t => ((s.bump 1 0x100 die.val 1).askSide die (prefetcherNo (m.val % 12) stream.val) t x.pfLife).1)

/-- PREFETCH_FILL: the line of a prefetch in flight arrives (R336, R339, R340, R343). One that was snooped, or whose die's L2 has taken the
line meanwhile, is discarded; a demand that joined it goes to memory then, and else takes the line at its own hint. -/
def execPrefetchFill (die : Fin 8) (t : LineTag) (s : State) : Result :=
  s.run fun s => (
    let a : Agent := ⟨die.val, by omega⟩
    match Table.get none (s.mem.inFlight[die]) t with
    | none => s
    | some f =>
      if s.lineBusy t then s
      else
        let s := s.setFlight die t none
        let demand (s : Dev) : Dev := match f.joined with
          | some h => (s.demandRead a localNo t h).1
          | none => s
        if f.discard then demand (s.bump 5 0x103 die.val 1)
        else if (s.lineAt a t).isSome || (s.waitingAt a t).isSome then s
        else
          let (s, _, d, p) := s.obtain a t
          if p then demand ((s.dirRemove t a).bump 5 0x103 die.val 1)
          else
            let s := s.setSide die t (some { since := s.now, life := f.life, data := d, poison := false })
            match f.joined with
            | some h => (match s.promote a t h with
              | some s => s
              | none => s.evbWait a)
            | none => s)

/-- PF_LIFETIME_EXPIRY: a side-buffer line has gone unused for its lifetime (R341). -/
def execPfLifetimeExpiry (die : Fin 8) (t : LineTag) (time : Instant) (s : State) : Result :=
  s.run fun s => (
    match Table.get none (s.mem.side[die]) t with
    | some l =>
      let s' := s.advance time
      if l.since.toNat + l.life ≤ s'.now.toNat then (s'.setSide die t none).bump 5 0x102 die.val 1 else s
    | none => s)

end Sys2Proof.Machine
end

