-- ==== Sys2Proof/Machine/Service.lean ====
section
/-! DEFINITION. Machine/Service.lean: the service engines: channels and quanta, work lists, CRYPT, COMPRESS, DECOMPRESS, INDEX,
SORTMERGE and GATHER (R491 to R521). -/

namespace Sys2Proof.Machine

/-- The engine code of a service opcode (R491). -/
def serviceEngine (opcode : Nat) : Nat :=
  match opcode with
  | 0x50 => 0
  | 0x51 | 0x52 => 1
  | 0x53 => 2
  | 0x54 => 3
  | _ => 4

/-- Whether a channel number exists (R491). -/
def channelExists (c : Nat) : Bool := c < 0x50 || (0x60 ≤ c && c < 0x68) || (0x80 ≤ c && c < 0x88)

/-- The channel a service queue names. -/
def Queue.channel (x : Queue) : Nat := bits x.unit.toNat 7 0

/-- Whether a queue's channel belongs to the engine of an opcode (R493). -/
def channelServes (x : Queue) (opcode : Nat) : Bool := channelExists x.channel && x.channel / 32 = serviceEngine opcode

/-- The position of an engine among the ten of both service dies. -/
def engineIdx (die : Die) (code : Nat) : Nat := 5 * (die.val - 18) + code

/-- An engine. -/
def Dev.engine (s : Dev) (i : Nat) : SvcEngine := s.svc.engines.getD i {}

/-- Change an engine. -/
def Dev.modEngine (s : Dev) (i : Nat) (f : SvcEngine → SvcEngine) : Dev :=
  { s with svc := { s.svc with engines := s.svc.engines.mapIdx (fun k x => if k = i then f x else x) } }

/-- Whether an operation waits on a page request of its channel's stream (R455, R494, R495). -/
def Dev.waitsOnPage (s : Dev) (o : Operation) : Bool :=
  s.xl.misses.any (fun e => e.pageRequest && e.streams.any (fun w => w.queue = o.queue.val && w.stream = (s.queue o.queue).channel))

/-- The channels of an engine that are ready (R494). -/
def Dev.readyChannels (s : Dev) (die : Die) (code : Nat) : List Nat :=
  (s.cmd.ops.filter (fun o => homeDie o.queue = die && o.goes && !s.waitsOnPage o
      && (match o.body with
          | .service v => !v.finished
          | _ => false)
      && (s.queue o.queue).channel / 32 = code)).map (fun o => (s.queue o.queue).channel)

/-- The next ready channel in ascending number after the one served last, wrapping round (R495). -/
def nextChannel (last : Nat) (l : List Nat) : Option Nat :=
  let key (c : Nat) : Nat := (c + 255 - last % 256) % 256
  l.foldl (fun best c => match best with
    | none => some c
    | some b => if key c < key b then some c else some b) none

/-- An engine begins the next quantum (R495): a change to another channel than the one served last is counted. -/
def Dev.serveNext (s : Dev) (die : Die) (code : Nat) : Dev :=
  let i := engineIdx die code
  let e := s.engine i
  match nextChannel e.last (s.readyChannels die code) with
  | none => s.modEngine i (fun e => { e with channel := none })
  | some c =>
    let s := if e.last ≠ c && e.last ≠ 255 then s.bump 6 0x109 die.val 1 else s
    s.modEngine i (fun _ => { channel := some c, quantum := s.objAt 6 0x200 0, last := c })

/-- The quantum of an engine ends, if its bytes are taken or its channel is not ready (R495). -/
def Dev.turnQuantum (s : Dev) (die : Die) (code : Nat) (taken : Nat) : Dev :=
  let e := s.engine (engineIdx die code)
  match e.channel with
  | none => s.serveNext die code
  | some c => if e.quantum ≤ e.used + taken || !(s.readyChannels die code).contains c then s.serveNext die code else s

/-- A unit has taken bytes of the quantum of its channel (R495). -/
def Dev.takeQuantum (s : Dev) (die : Die) (code n : Nat) : Dev :=
  (s.modEngine (engineIdx die code) (fun e => { e with used := e.used + n })).turnQuantum die code 0

/-- An idle engine takes up a ready channel. -/
def Dev.serveIdle (s : Dev) (die : Die) (code : Nat) : Dev :=
  if (s.engine (engineIdx die code)).channel.isNone then s.serveNext die code else s

/-- QUANTUM_END (R495): the quantum's bytes are taken, those of the units written since it began and `taken` of the entry in progress, or its
operation has ended, or it waits on a page request. -/
def execQuantumEnd (sv : SvId) (code : Fin 5) (taken : Nat) (s : State) : Result :=
  s.run fun s => s.turnQuantum ⟨18 + sv.val, by omega⟩ code.val taken

/-- The port of an operation's service channel (R455): its stream is the channel number. -/
def Dev.channelPort (s : Dev) (o : Operation) : Port :=
  { die := homeDie o.queue, stream := (s.queue o.queue).channel, queue := o.queue.val, asid := (s.queue o.queue).asid.toNat, slot := some o.slot }

/-- Fields of a service parameter block (R500, R518). -/
def svcSeed (b : Nat) : Nat := bits b 511 448
def svcMhSeed (b : Nat) : Nat := bits b 447 384
def svcLmax (b : Nat) : Nat := bits b 383 352
def svcLavg (b : Nat) : Nat := bits b 351 320
def svcLmin (b : Nat) : Nat := bits b 319 288
def svcResults (b : Nat) : Nat := bits b 255 240
def svcMhOut (b : Nat) : Nat := bits b 239 224
def svcK (b : Nat) : Nat := bits b 223 216
def svcLevel (b : Nat) : Nat := bits b 215 208
def svcRsize (b : Nat) : Nat := bits b 223 208
def svcKoff (b : Nat) : Nat := bits b 207 200
def svcKlen (b : Nat) : Nat := bits b 199 192
def svcGrsize (b : Nat) : Nat := bits b 191 160

/-- Whether a number is a power of two. -/
def isPow2 (n : Nat) : Bool := 0 < n && 2 ^ Nat.log2 n = n

/-- The checks of R500 and R501 on a work-list operation's parameter block and option. -/
def workParamsOk (opcode b option : Nat) : Bool :=
  let index := opcode = 0x53
  bits b 287 256 = 0 && bits b 207 128 = 0 && bits b 111 0 = 0
    && (if index then
          isPow2 (svcLavg b) && 2048 ≤ svcLavg b && svcLavg b ≤ 262144 && 64 ≤ svcLmin b && svcLavg b ≤ 8 * svcLmin b
            && svcLmin b ≤ svcLavg b && 2 * svcLavg b ≤ svcLmax b && svcLmax b ≤ 8 * svcLavg b
            && (svcK b = 0 || svcK b = 16 || svcK b = 32 || svcK b = 64) && (svcK b ≠ 0 || svcMhOut b = 0)
        else bits b 511 288 = 0 && svcMhOut b = 0 && svcK b = 0)
    && (if opcode = 0x51 then 1 ≤ svcLevel b && svcLevel b ≤ 9 else svcLevel b = 0)
    && (match opcode with
        | 0x50 => option < 2
        | 0x51 | 0x52 => option < 5
        | _ => option = 0)

/-- A refusal of a begin with a reason of its own. -/
def refuseBegin {α : Type} (s : Dev) (reason : Nat) : Dev × Named α := (s, .fail reason 0)

/-- The key that CRYPT takes when it begins (R510, R511): reason 0x0D where the realm or the key is not its own. -/
def Dev.takeKey (s : Dev) (o : Operation) (b : ByteBuf) : Dev × Named (List Byte × Nat) :=
  Named.andThen (Fetch.toNamed (s.readVa { s.channelPort o with keep := true } b.base 16)) fun s d =>
    let r := leNat d
    let realm := bits r 13 8
    if bits r 127 64 ≠ 0 || bits r 31 14 ≠ 0 then (s, .invalid)
    else match s.realmSpace (s.channelPort o) with
      | none => refuseBegin s 0xD
      | some slot =>
        if slot ≠ realm then refuseBegin s 0xD
        else match Table.get none (s.realmAt realm).store (bits r 7 0) with
          | some e =>
            if e.valid && e.gen = bits r 63 32 then (s, .ok (e.key, realm))
            else refuseBegin (s.reportRealm (s.channelPort o) b.base 6 realm) 0xD
          | none => refuseBegin (s.reportRealm (s.channelPort o) b.base 6 realm) 0xD

/-- The byte ranges of the buffers given. -/
def bufRanges (l : List (Option ByteBuf)) : List (Nat × Nat) := l.filterMap (fun b => b.map ByteBuf.range)

/-- A work-list operation begins (R502, R511, R162). -/
def Dev.beginWork (s : Dev) (o : Operation) : Dev :=
  let opcode := iOpcode o.word
  let p := s.opPort o
  let prm := iParam o.word
  beginWith o (
    Named.andThen (s.namedBytes p (o.h.getD 0 0)) fun s inp =>
    Named.andThen (s.namedBytes p (o.h.getD 2 0)) fun s out =>
    Named.andThen (s.named p (o.h.getD 3 0) (fun b => parseParams b 0x050)) fun s b =>
    Named.andThen (s.namedBytes p (svcResults b)) fun s res =>
    Named.andThen (s.optBytes p (svcMhOut b)) fun s mh =>
    Named.andThen (s.optBytes p (o.h.getD 1 0)) fun s second =>
    let h1Ok := match opcode, second with
      | 0x50, some x => 16 ≤ x.len
      | 0x50, none => false
      | 0x53, some _ => false
      | _, _ => true
    let mhOk := opcode ≠ 0x53 || svcK b = 0 || mh.any (fun m => out.len / 64 * (4 * svcK b) ≤ m.len)
    if !workParamsOk opcode b prm || inp.len = 0 || inp.len % 32 ≠ 0 || res.len < 16 * (inp.len / 32) || !h1Ok || !mhOk
        || rangesMeet (bufRanges [some out, some res, mh]) (bufRanges [some inp, second]) then (s, .invalid)
    else
      let v : ServiceOp := { inp := inp, second := second, out := out, results := some res, mh := mh, prm := b, option := prm, units := inp.len / 32 }
      match opcode, second with
      | 0x50, some k => Named.andThen (s.takeKey o k) fun s r => (s, .ok (.service { v with key := r.1, keyRealm := some r.2 }))
      | _, _ => (s, .ok (.service v)))

/-- What a work entry comes to before its output is written: its status, output bytes, chunks, and MinHash bytes. -/
structure EntryOut where
  status : Nat
  out : List Byte := []
  count : Nat := 0
  minhash : List Byte := []
  bytesIn : Nat := 0
  deriving DecidableEq, Repr

/-- The gear table's value for a byte (R515). -/
def gearOf (seed : Nat) (b : Byte) : Nat := gen seed b.toNat 1 * 2 ^ 32 + gen seed b.toNat 2

/-- The length of the chunk at the front of the bytes (R515). -/
def chunkLen (b : Nat) : List Byte → Nat → Nat → Nat
  | [], _, n => n
  | x :: xs, h, n =>
    let h := (2 * h + gearOf (svcSeed b) x) % 2 ^ 64
    let n := n + 1
    if (svcLmin b ≤ n && h / 2 ^ (64 - Nat.log2 (svcLavg b)) = 0) || n = svcLmax b then n else chunkLen b xs h n

/-- The chunks of an object: each its offset and bytes (R515). -/
def chunksOf (b : Nat) : Nat → Nat → List Byte → List (Nat × List Byte)
  | 0, _, _ => []
  | fuel + 1, start, l =>
    if l.isEmpty then []
    else
      let n := chunkLen b l 0 0
      (start, l.take n) :: chunksOf b fuel (start + n) (l.drop n)

/-- The MinHash values of a chunk (R516). -/
def minHash (b : Nat) (c : List Byte) : List Nat :=
  (List.range (svcK b)).map (fun i =>
    if c.length < 8 then 0xFFFFFFFF
    else (List.range (c.length - 7)).foldl (fun m p => min m (gen (svcMhSeed b) (leNat ((c.drop p).take 8)) i)) (2 ^ 32 - 1))

/-- A chunk record (R517). -/
def chunkRecord (entry i : Nat) (c : Nat × List Byte) : List Byte :=
  List.replicate 12 0 ++ leBytes 4 i ++ leBytes 4 entry ++ leBytes 4 c.2.length ++ leBytes 8 c.1 ++ sha256 c.2

/-- INDEX of one object (R515 to R517). -/
def indexEntry (b entry cap : Nat) (src : List Byte) : EntryOut :=
  let cs := chunksOf b (src.length + 1) 0 src
  let out := cs.zipIdx.flatMap (fun c => chunkRecord entry c.2 c.1)
  let mh := cs.flatMap (fun c => (minHash b c.2).flatMap (leBytes 4))
  if cap / 64 < cs.length then { status := 2, out := out, minhash := mh, bytesIn := src.length }
  else { status := 0, out := out, count := cs.length, minhash := mh, bytesIn := src.length }

/-- CRYPT of one entry (R509). -/
def cryptEntry (decrypt : Bool) (key iv aad src : List Byte) : EntryOut :=
  if decrypt then
    let n := src.length - 16
    match gcmOpen key iv aad (src.take n) (src.drop n) with
    | some pt => { status := 0, out := pt, bytesIn := src.length }
    | none => { status := 1, out := List.replicate n 0, bytesIn := src.length }
  else
    let r := gcmSeal key iv aad src
    { status := 0, out := r.1 ++ r.2, bytesIn := src.length }

/-- DECOMPRESS of one entry (R504, R512, R513). -/
def inflateEntry (format : Nat) (dict src : List Byte) : EntryOut :=
  { status := (decompress format dict src).1, out := (decompress format dict src).2, bytesIn := src.length }

/-- An entry whose output would pass its capacity fails (R504). -/
def EntryOut.capped (e : EntryOut) (cap : Nat) : EntryOut := if e.status = 0 && cap < e.out.length then { e with status := 2 } else e

/-- A work entry's fields (R499). -/
def wSrc (e : Nat) : Nat := bits e 255 192
def wLen (e : Nat) : Nat := bits e 191 160
def wOff (e : Nat) : Nat := bits e 159 128
def wCap (e : Nat) : Nat := bits e 127 96
def wAuxLen (e : Nat) : Nat := bits e 95 64
def wAux (e : Nat) : Nat := bits e 63 0

/-- What a failed entry leaves: zeros over the bytes of its output that had been written, and over their MinHash bytes (R506). How many there were
is left open, as a function of what the entry's outcome depends on (R497; log entry 6). -/
def EntryOut.zeroed (e : EntryOut) (k wrote cap : Nat) : EntryOut :=
  if e.status = 0 then e
  else { e with out := List.replicate (wrote % (cap + 1)) 0, minhash := List.replicate (wrote % (cap + 1) / 64 * (4 * k)) 0 }

/-- A work entry read and performed, its output not yet written (R499, R504, R506, R509, R512, R515). -/
def Dev.performEntry (s : Dev) (o : Operation) (v : ServiceOp) (e : Nat) : Dev × Fetch EntryOut :=
  let opcode := iOpcode o.word
  let p := s.channelPort o
  if v.out.len < wOff e + wCap e || (opcode = 0x50 && v.option = 1 && wLen e < 16) then (s, .ok { status := 6 })
  else
    Fetch.andThen (s.readVa p (wSrc e) (wLen e)) fun s src =>
    match opcode with
    | 0x50 =>
      Fetch.andThen (s.readVa p (wAux e) (12 + wAuxLen e)) fun s aux =>
        (s, .ok (((cryptEntry (v.option = 1) v.key (aux.take 12) (aux.drop 12) src).capped (wCap e)).zeroed 0
          (Config.zeroedBytes opcode v.option v.prm v.key [] aux src) (wCap e)))
    | 0x53 => (s, .ok ((indexEntry v.prm v.next (wCap e) src).zeroed (svcK v.prm) (Config.zeroedBytes opcode v.option v.prm [] [] [] src) (wCap e)))
    | _ =>
      let dict : Dev × Fetch (List Byte) := match v.second with
        | some b => s.readVa p b.base b.len
        | none => (s, .ok [])
      Fetch.andThen dict fun s dict =>
        let x : EntryOut := if opcode = 0x51 then
            { status := 0, out := compressed v.option (svcLevel v.prm) dict src, bytesIn := src.length }
          else inflateEntry v.option dict src
        (s, .ok ((x.capped (wCap e)).zeroed 0 (Config.zeroedBytes opcode v.option v.prm [] dict [] src) (wCap e)))

/-- A result entry (R503). -/
def resultBytes (status count outLen : Nat) : List Byte := leBytes 8 status ++ leBytes 4 count ++ leBytes 4 outLen

/-- Sets of runs written together, each set with its own exemption from R535: translations of all are held before any byte is
written (R178, R451). -/
def Dev.writeSets (s : Dev) (p : Port) : List (ByteBuf × Bool × Nat × List Byte) → Dev × Fetch Unit
  | [] => (s, .ok ())
  | (b, exempt, off, bytes) :: rest =>
    if bytes.isEmpty then s.writeSets p rest
    else match s.holdWrite p b.hint exempt wantWrite [(b.base + off, bytes.length)] with
      | (s, .ok ps) =>
        match s.writeSets p rest with
        | (s', .ok ()) => match s'.writePieces p b.hint ps bytes [] with
          | some s => (s, .ok ())
          | none => (s.writeWait p.die, .wait)
        | (s, r) => (s, r)
      | (s, .wait) => (s, .wait)
      | (s, .fail c a) => (s, .fail c a)

/-- The steps in which a compression datapath works on an entry (R498): level 4 to 6 runs at half the rate, 7 to 9 at a third. -/
def codecSteps (opcode format level bytesIn bytesOut : Nat) : Nat :=
  if opcode = 0x51 then
    ceilDiv (bytesIn * ((level + 2) / 3)) (match format with
      | 0 => 16
      | 1 => 64
      | _ => 8)
  else ceilDiv bytesOut (match format with
      | 0 => 64
      | 1 => 128
      | _ => 32)

/-- The datapath of an engine has worked so many steps (R540). -/
def Dev.busyEngine (s : Dev) (d : Die) (code n : Nat) : Dev := s.bump 6 0x110 (engineIdx d code) n

/-- The counters of a work entry (R498, R540). -/
def Dev.countEntry (s : Dev) (d : Die) (opcode : Nat) (v : ServiceOp) (e : EntryOut) : Dev :=
  let die := d.val
  let outLen := if e.status = 0 then e.out.length else 0
  let s := s.busyEngine d (serviceEngine opcode) (match opcode with
    | 0x50 => ceilDiv e.bytesIn 128
    | 0x53 => ceilDiv e.bytesIn (if svcK v.prm = 64 then 32 else 64)
    | _ => codecSteps opcode v.option (svcLevel v.prm) e.bytesIn outLen)
  let s := if e.status = 0 then s else s.bump 6 0x108 die 1
  match opcode with
  | 0x50 => s.bump 6 0x100 die e.bytesIn
  | 0x53 => (s.bump 6 0x103 die e.bytesIn).bump 6 0x104 die e.count
  | _ => (s.bump 6 0x101 die e.bytesIn).bump 6 0x102 die outLen

/-- The next work entry of a running operation (R505, R506). -/
def Dev.workUnit (s : Dev) (o : Operation) (v : ServiceOp) : Dev :=
  let p := s.channelPort o
  let opcode := iOpcode o.word
  match s.readVa p (v.inp.base + 32 * v.next) 32 with
  | (s, .wait) => s
  | (s, .fail c a) => s.failOp o.slot c a
  | (s, .ok d) =>
    let e := leNat d
    match s.performEntry o v e with
    | (s, .wait) => s
    | (s, .fail c a) => s.failOp o.slot c a
    | (s, .ok x) =>
      let res := v.results.getD v.out
      let sets : List (ByteBuf × Bool × Nat × List Byte) :=
        [(v.out, opcode = 0x50 && v.option = 0, wOff e, x.out)] ++ (v.mh.toList.map (fun m => (m, false, wOff e / 64 * (4 * svcK v.prm), x.minhash)))
          ++ [(res, false, 16 * v.next, resultBytes x.status (if x.status = 0 then x.count else 0) (if x.status = 0 then x.out.length else 0))]
      match s.writeSets p sets with
      | (s, .wait) => s
      | (s, .fail c a) => s.failOp o.slot c a
      | (s, .ok ()) =>
        let s := (s.countEntry p.die opcode v x).modOp o.slot (fun o => { o with
          written := o.written ++ [v.next], body := .service { v with next := v.next + 1, finished := v.units ≤ v.next + 1 } })
        s.takeQuantum p.die (serviceEngine opcode) (if opcode = 0x52 then x.out.length else x.bytesIn)

/-- The key of a record (R518). -/
def recKey (b : Nat) (r : List Byte) : List Byte := (r.drop (svcKoff b)).take (svcKlen b)

/-- Keys as unsigned byte strings, the lowest address most significant (R519). -/
def keyLe (x y : List Byte) : Bool := decide (beNat x ≤ beNat y)

/-- Insert a record after every record whose key is not greater: a stable sort's step. -/
def insertRec (b : Nat) (r : List Byte) : List (List Byte) → List (List Byte)
  | [] => [r]
  | x :: xs => if keyLe (recKey b x) (recKey b r) then x :: insertRec b r xs else r :: x :: xs

/-- A stable sort in ascending key (R519). -/
def sortRecs (b : Nat) (l : List (List Byte)) : List (List Byte) := l.foldl (fun acc r => insertRec b r acc) []

/-- A merge that takes from the first list on equal keys (R519). -/
def mergeRecs (b : Nat) : Nat → List (List Byte) → List (List Byte) → List (List Byte)
  | 0, x, y => x ++ y
  | _ + 1, [], y => y
  | _ + 1, x, [] => x
  | n + 1, x :: xs, y :: ys =>
    if keyLe (recKey b x) (recKey b y) then x :: mergeRecs b n xs (y :: ys) else y :: mergeRecs b n (x :: xs) ys

/-- The place of the first record not below a key, by binary search between lo and hi (R519). -/
def lowerBound (b : Nat) (l : List (List Byte)) (k : List Byte) : Nat → Nat → Nat → Nat
  | 0, lo, _ => lo
  | n + 1, lo, hi =>
    if hi ≤ lo then lo
    else
      let mid := (lo + hi) / 2
      if keyLe k (recKey b (l.getD mid [])) then lowerBound b l k n lo mid else lowerBound b l k n (mid + 1) hi

/-- Join-mark's bit of a probe record (R519). -/
def joinMark (b : Nat) (l : List (List Byte)) (r : List Byte) : Bool :=
  let i := lowerBound b l (recKey b r) (l.length + 1) 0 l.length
  i < l.length && recKey b (l.getD i []) = recKey b r

/-- The records whose key differs from that of the record before (R519). -/
def distinctRecs (b : Nat) : Option (List Byte) → List (List Byte) → List (List Byte)
  | _, [] => []
  | prev, r :: rs => if prev = some (recKey b r) then distinctRecs b prev rs else r :: distinctRecs b (some (recKey b r)) rs

/-- The output units of a SORTMERGE and its count (R519, R520, R503). -/
def sortOutput (b mode : Nat) (x y : List (List Byte)) : List (List Byte) × Nat :=
  match mode with
  | 0 => (sortRecs b x, x.length)
  | 1 => (mergeRecs b (x.length + y.length + 1) x y, x.length + y.length)
  | 2 =>
    let m := x.map (joinMark b y)
    ((List.range ((x.length + 7) / 8)).map (fun i =>
      [BitVec.ofNat 8 ((List.range 8).foldl (fun n k => n + (if m.getD (8 * i + k) false then 2 ^ k else 0)) 0)]), (m.filter id).length)
  | _ => let l := distinctRecs b none x; (l, l.length)

/-- SORTMERGE begins (R501, R518, R520, R162). -/
def Dev.beginSort (s : Dev) (o : Operation) : Dev :=
  let p := s.opPort o
  let mode := iParam o.word
  beginWith o (
    Named.andThen (s.namedBytes p (o.h.getD 0 0)) fun s inp =>
    Named.andThen (s.optBytes p (o.h.getD 1 0)) fun s second =>
    Named.andThen (s.namedBytes p (o.h.getD 2 0)) fun s out =>
    Named.andThen (s.named p (o.h.getD 3 0) (fun b => parseParams b 0x054)) fun s b =>
    Named.andThen (s.namedBytes p (svcResults b)) fun s res =>
    Named.andThen (s.optBytes p (svcMhOut b)) fun s scratch =>
    let r := svcRsize b
    let n := inp.len
    let m := (second.map ByteBuf.len).getD 0
    let need := match mode with
      | 1 => n + m
      | 2 => (n / max r 1 + 7) / 8
      | _ => n
    let two := mode = 1 || mode = 2
    if 4 ≤ mode || bits b 511 256 ≠ 0 || bits b 191 128 ≠ 0 || bits b 111 0 ≠ 0 || r < 8 || 256 < r || r % 8 ≠ 0 || svcKlen b < 1
        || 32 < svcKlen b || r < svcKoff b + svcKlen b || second.isSome ≠ two || n % r ≠ 0 || m % r ≠ 0 || out.len < need || res.len < 16
        || (if mode = 0 then !scratch.any (fun x => n ≤ x.len) else scratch.isSome)
        || rangesMeet (bufRanges [some out, some res, scratch]) (bufRanges [some inp, second]) then (s, .invalid)
    else (s, .ok (.service { inp := inp, second := second, out := out, results := some res, scratch := scratch, prm := b, option := mode })))

/-- The passes of a sort of so many bytes (after R520). -/
def sortPasses (n : Nat) : Nat :=
  if n ≤ 4194304 then 1
  else 1 + (((List.range 16).find? (fun k => n ≤ 4194304 * 16 ^ (k + 1))).map (· + 1)).getD 16

/-- What a sort leaves in its scratch buffer: nothing in one pass, and in more what is left open, as a function of its input (R497, R520; log
entry 6). -/
def ServiceOp.scratchSets (v : ServiceOp) (x : List Byte) : List (ByteBuf × Bool × Nat × List Byte) :=
  if sortPasses v.inp.len = 1 then []
  else v.scratch.toList.map (fun b => (b, false, 0, (List.range v.inp.len).map (Config.sortScratch v.prm x)))

/-- SORTMERGE's next unit (R519, R520): the inputs are read and sorted once, in the scratch buffer where they take more than one pass, then one
output record, or bitmap byte, is written at a time, and at the end the result entry. -/
def Dev.sortUnit (s : Dev) (o : Operation) (v : ServiceOp) : Dev :=
  let p := s.channelPort o
  let r := svcRsize v.prm
  if !v.ready then
    let a := Fetch.andThen (s.readVa p v.inp.base v.inp.len) fun s x =>
      Fetch.andThen (match v.second with
        | some b => s.readVa p b.base b.len
        | none => (s, .ok [])) fun s y =>
      Fetch.andThen (s.writeSets p (v.scratchSets x)) fun s _ => (s, .ok (x, y))
    match a with
    | (s, .wait) => s
    | (s, .fail c a) => s.failOp o.slot c a
    | (s, .ok (x, y)) =>
      let (recs, n) := sortOutput v.prm v.option (chunks r (x.length + 1) x) (chunks r (y.length + 1) y)
      let moved := if v.option = 0 then sortPasses x.length * x.length else x.length + y.length
      let s := (s.bump 6 0x105 p.die.val moved).busyEngine p.die 3 (if v.option = 2 then ceilDiv (x.length / r) 8 else ceilDiv moved 128)
      let s := s.modOp o.slot (fun o => { o with body := .service { v with ready := true, recs := recs, matches_ := n, units := recs.length } })
      s.takeQuantum p.die 3 (x.length + y.length)
  else if v.next < v.units then
    let rec_ := v.recs.getD v.next []
    match s.writeUnit p v.out.hint false [(v.out.base + (if v.option = 2 then v.next else v.next * r), rec_)] with
    | (s, .wait) => s
    | (s, .fail c a) => s.failOp o.slot c a
    | (s, .ok ()) => s.modOp o.slot (fun o => { o with written := o.written ++ [v.next], body := .service { v with next := v.next + 1 } })
  else
    let bytes := (v.recs.map List.length).foldl (· + ·) 0
    match s.writeSets p (v.results.toList.map (fun b => (b, false, 0, resultBytes 0 v.matches_ bytes))) with
    | (s, .wait) => s
    | (s, .fail c a) => s.failOp o.slot c a
    | (s, .ok ()) => s.modOp o.slot (fun o => { o with body := .service { v with finished := true } })

/-- GATHER begins (R501, R518, R521, R162); buffers too short for its records are invalid descriptors. -/
def Dev.beginGather (s : Dev) (o : Operation) : Dev :=
  let p := s.opPort o
  let mode := iParam o.word
  beginWith o (
    Named.andThen (s.namedBytes p (o.h.getD 0 0)) fun s inp =>
    Named.andThen (s.namedBytes p (o.h.getD 1 0)) fun s second =>
    Named.andThen (s.namedBytes p (o.h.getD 2 0)) fun s out =>
    Named.andThen (s.named p (o.h.getD 3 0) (fun b => parseParams b 0x055)) fun s b =>
    let n := inp.len / 4
    let g := svcGrsize b
    if 2 ≤ mode || bits b 511 192 ≠ 0 || bits b 159 128 ≠ 0 || bits b 111 0 ≠ 0 || g < 1 || 65536 < g || inp.len % 4 ≠ 0
        || (if mode = 0 then out.len < n * g else second.len < n * g)
        || rangesMeet [out.range] [inp.range, second.range] then (s, .invalid)
    else (s, .ok (.service { inp := inp, second := some second, out := out, prm := b, option := mode, units := n, finished := n = 0 })))

/-- GATHER's next record (R521). -/
def Dev.gatherUnit (s : Dev) (o : Operation) (v : ServiceOp) : Dev :=
  let p := s.channelPort o
  let g := svcGrsize v.prm
  let src := v.second.getD v.inp
  let i := v.next
  let limit := if v.option = 0 then src.len else v.out.len
  let r : Dev × Fetch Bool := Fetch.andThen (s.readVa p (v.inp.base + 4 * i) 4) fun s d =>
    let k := leNat d
    let oob := limit < (k + 1) * g
    if v.option = 0 then
      Fetch.andThen (if oob then (s, .ok (List.replicate g 0)) else s.readVa p (src.base + k * g) g) fun s x =>
      Fetch.andThen (s.writeUnit p v.out.hint false [(v.out.base + i * g, x)]) fun s _ => (s, .ok oob)
    else if oob then (s, .ok true)
    else
      Fetch.andThen (s.readVa p (src.base + i * g) g) fun s x =>
      Fetch.andThen (s.writeUnit p v.out.hint false [(v.out.base + k * g, x)]) fun s _ => (s, .ok false)
  match r with
  | (s, .wait) => s
  | (s, .fail c a) => s.failOp o.slot c a
  | (s, .ok oob) =>
    let s := (s.bump 6 0x106 p.die.val 1).busyEngine p.die 4 (ceilDiv ((i + 1) * g) 512 - ceilDiv (i * g) 512)
    let s := if oob then s.bump 6 0x107 p.die.val 1 else s
    let s := s.modOp o.slot (fun o => { o with
      written := o.written ++ [i], body := .service { v with next := i + 1, finished := v.units ≤ i + 1 } })
    s.takeQuantum p.die 4 g

/-- A service operation begins on its channel, once every earlier operation of the channel has ended (R494). -/
def Dev.beginService (s : Dev) (o : Operation) : Dev :=
  if (s.earlier o.queue o.slot).any (fun x => 0x50 ≤ iOpcode x.word && iOpcode x.word ≤ 0x55) then s
  else
    let s := s.beginOp o.slot id
    let s := match s.op o.slot with
      | none => s
      | some o => match iOpcode o.word with
        | 0x54 => s.beginSort o
        | 0x55 => s.beginGather o
        | _ => s.beginWork o
    s.serveIdle (homeDie o.queue) (serviceEngine (iOpcode o.word))

/-- The next unit of a service operation whose channel its engine serves (R494, R495). -/
def Dev.serviceUnit (s : Dev) (slot : SlotId) (ok : Nat → Bool) (f : Dev → Operation → ServiceOp → Dev) : Dev :=
  match s.op slot with
  | some o => match o.body with
    | .service v =>
      let i := engineIdx (homeDie o.queue) (serviceEngine (iOpcode o.word))
      let s := s.turnQuantum (homeDie o.queue) (serviceEngine (iOpcode o.word)) 0
      if ok (iOpcode o.word) && o.goes && !v.finished && (s.engine i).channel = some (s.queue o.queue).channel then f s o v else s
    | _ => s
  | none => s

/-- WORK_ENTRY_DONE (R505). -/
def execWorkEntryDone (slot : SlotId) (s : State) : Result :=
  s.run fun s => (s.serviceUnit slot (fun c => c = 0x50 || c = 0x51 || c = 0x52 || c = 0x53) Dev.workUnit)

end Sys2Proof.Machine
end

