-- ==== Sys2Proof/Machine/Queues.lean ====
section
/-! DEFINITION. Machine/Queues.lean: command queues: their commands, submissions and fetches, the control instructions, and how the
instruction at head issues or ends (R102 to R153, R172, R747 to R752). -/

namespace Sys2Proof.Machine

/-- Whether an attach finds class, unit and asid valid (R438, R492, R529, R747). -/
def Dev.attachOk (s : Dev) (q : QueueId) : Bool :=
  let x := s.queue q
  let taken := s.cmd.queues.any (fun e => e.1 ≠ q.val && e.2.state ≠ .detached && e.1 < 2048 && homeDie ⟨e.1 % 2048, by omega⟩ = homeDie q
    && e.2.channel = x.channel)
  let unitOk := match queueClass q with
    | 1 => true
    | 2 => bits x.unit.toNat 11 8 = 0 && x.sheafMask = 0 && (x.channel = 0xFF || (channelExists x.channel && !taken))
    | _ => x.unit = 0 && x.sheafMask = 0
  x.cls.toNat = queueClass q && unitOk
    && (match s.ctx (mmuOf (homeDie q)) x.asid.toNat with
        | some c => !c.term && !(c.realmEn && !(s.realmAt c.realmSlot).active)
        | none => false)

/-- ATTACH (R108, R712, R713, R747): none is taken in the no-personality, recovery and bring-up states. -/
def execAttach (q : QueueId) (s : State) : Result :=
  s.run fun s => (
    if (s.queue q).state ≠ .detached || (1 ≤ s.objAt 0x0C 0x400 0 && s.objAt 0x0C 0x400 0 ≤ 3) then s
    else
      let s := s.ctxRead (mmuOf (homeDie q)) (s.queue q).asid.toNat
      if s.attachOk q then s.modQueue q (fun x => { x with state := .idle }) else s.modQueue q (fun x => { x with reason := 3 }))

/-- A running queue without a buffer takes the oldest that is pending (R112). DESIGN CHOICE (log entry 80): R112 does not say whether an idle or
stopped queue that holds no buffer takes one too, before its start; here it does not. -/
def Dev.refill (s : Dev) (q : QueueId) : Dev :=
  let x := s.queue q
  if x.state = .running && x.cur.isNone && x.submits ≠ [] then s.nextBuffer q else s

/-- STOP (R108, R750). -/
def execStop (q : QueueId) (s : State) : Result :=
  s.run fun s => (
    if (s.queue q).state = .running then
      ((s.dropHead q).modQueue q (fun x => { x with state := .draining, stopping := false })).settle q
    else s)

/-- An operation that begins no further unit waits for nothing: a mill operation, whose mills serve others, lets the next in, an aborted PREFETCH
goes on with the block it is in, and any other forgets what it has asked for (R138, R331, R488). -/
def Dev.stopWaiting (s : Dev) (o : Operation) : Dev :=
  if millOpcode (iOpcode o.word) then s.feed (homeDie o.queue).val
  else if (s.op o.slot).any (fun o => o.midUnit) then s
  else (s.forgetOp o.slot).forgetEntries o

/-- Every issued operation of an aborted queue ends: one that has not begun at once, one that has with the unit it is writing
(R138, R216, R284). -/
def Dev.abortOps (s : Dev) (q : QueueId) : Dev :=
  let begun := (s.running q).filter (fun o => o.begun)
  let s := s.abortUnbegun q 7
  begun.foldl (fun s o =>
    let s := s.modOp o.slot (fun o => { o with aborting := o.aborting.or (some 7) })
    let s := { s.discardMills o.slot with shf := { s.shf with stooks := s.shf.stooks.filter (fun k => k.slot ≠ o.slot) } }
    s.stopWaiting o) s

/-- ABORT (R108, R138, R750). -/
def execAbort (q : QueueId) (s : State) : Result :=
  s.run fun s => (
    if (s.queue q).state = .running || (s.queue q).state = .draining then
      let s := (s.abortOps q).dropHead q
      (s.modQueue q (fun x => { x with state := .draining, stopping := true, stopReason := 7, abortedQ := true })).settle q
    else s)

/-- DETACH (R108, R165). DESIGN CHOICE (log entry 80): R108 names the buffers and the loop stack; head, reason, phase and the signals still
pending stay as they were, and pushes that still wait for what they read are refused as bad ones, as a push to a detached queue is. -/
def execDetach (q : QueueId) (s : State) : Result :=
  s.run fun s => (
    let x := s.queue q
    if x.state = .idle || x.state = .stopped then
      let s := (x.cur.toList ++ x.submits).foldl (fun s b => s.unbindBuffer q b) s
      s.setQueue q { x with
        state := .detached, cur := none, submits := [], loops := [], skipDepth := none
        pushes := [], submitBad := x.submitBad || !x.pushes.isEmpty }
    else s)

/-- What becomes of a push (R109 to R111): nothing pushed, accepted, refused as bad, refused for a full list, or held up by a line
that its home is busy with. -/
inductive PushEnd where
  | nothing | accepted | bad | overflow | waits
  deriving DecidableEq, Repr

/-- The program region a push names, its entry read without any page request; while the region is sealed the copy stands for what is
read (R111, R164, R170). -/
def Dev.regionProbe (s : Dev) (p : Port) (region : Nat) : Dev × Fetch (Option (Nat × Nat)) :=
  match s.ctx (mmuOf p.die) p.asid with
  | none => (s, .fail 4 0)
  | some c => Fetch.andThen (s.probeRead p (c.prtBase + 16 * region) 16) (fun s d =>
    (s, .ok (match s.xl.sealed.find? (fun c => c.asid = p.asid && c.region = region) with
      | some c => some (c.base, c.pages)
      | none => parseRegion (leNat d))))

/-- The buffer a push names and its region, where the push meets R109 (R109, R111). -/
def Dev.pushedBuffer (s : Dev) (q : QueueId) (handle : Nat) : Dev × Fetch (Option (Buffer × Nat × Nat)) :=
  let p := s.cmdPort q
  match s.ctx (mmuOf p.die) p.asid with
  | none => (s, .ok none)
  | some c =>
    Fetch.andThen (s.probeRead p (c.dtBase + 64 * handle) 64) fun s d =>
      match parseProgram (leNat d) with
      | some (0, region, base, len) =>
        if base % 32 ≠ 0 || len % 32 ≠ 0 || len = 0 then (s, .ok none)
        else Fetch.andThen (s.regionProbe p region) fun s r => (s, .ok (match r with
          | some (b, pages) => if b ≤ base && base + len ≤ b + 4096 * pages then some (⟨base, len / 32, region⟩, b, pages) else none
          | none => none))
      | _ => (s, .ok none)

/-- A push that no other waits before (R109 to R112, R165, R166). -/
def Dev.pushNow (s : Dev) (q : QueueId) (handle : Nat) : Dev × PushEnd :=
  let x := s.queue q
  let bad (s : Dev) : Dev × PushEnd := (s.modQueue q (fun x => { x with submitBad := true }), .bad)
  if handle = 0 then (s, .nothing)
  else if x.state = .detached then bad s
  else match s.pushedBuffer q handle with
    | (s, .wait) => (s, .waits)
    | (s, .fail _ _) => bad s
    | (s, .ok none) => bad s
    | (s, .ok (some (b, base, pages))) =>
      if 65535 ≤ s.binds x.asid.toNat b.region then bad s
      else if 8 ≤ x.submits.length then (s.modQueue q (fun x => { x with submitOvf := true }), .overflow)
      else ((s.bind x.asid.toNat b.region base pages).modQueue q (fun x => { x with submits := x.submits ++ [b] }) |>.refill q, .accepted)

/-- The pushes of a queue that wait for what they read are tried again in their order, up to one that still waits (R111, R457). -/
def Dev.retryPushes (s : Dev) (q : QueueId) : List Nat → Dev
  | [] => s
  | h :: rest =>
    match s.pushNow q h with
    | (s, .waits) => s
    | (s, _) => (s.modQueue q (fun x => { x with pushes := x.pushes.tail })).retryPushes q rest

/-- The waiting pushes of a queue go on. -/
def Dev.drainPushes (s : Dev) (q : QueueId) : Dev := s.retryPushes q (s.queue q).pushes

/-- A push: behind the waiting ones of its queue, if there are any. -/
def Dev.push (s : Dev) (q : QueueId) (handle : Nat) : Dev × PushEnd :=
  let s := s.drainPushes q
  if (s.queue q).pushes.isEmpty then s.pushNow q handle else (s, .waits)

/-- SUBMIT_PUSH: handle 0 has no effect; a push that must wait for what it reads is kept (R109 to R111). -/
def execSubmitPush (q : QueueId) (handle : U16) (s : State) : Result :=
  s.run fun s => if handle = 0 then s else (match s.push q handle.toNat with
    | (s, .waits) => s.modQueue q (fun x => { x with pushes := x.pushes ++ [handle.toNat] })
    | (s, _) => s)


/-- START (R108, R134). -/
def execStart (q : QueueId) (s : State) : Result :=
  s.run fun s => (
    let x := s.queue q
    if x.state = .idle || x.state = .stopped then
      (s.setQueue q { x with
        state := .running, reason := 0, issued := 0, headSince := s.now,
        signals := x.signals.map (fun g => { g with afterOrdinal := 0 }) }).drainPushes q |>.refill q
    else s)

/-- HEAD_WRITE (R106, R112, R113). -/
def execHeadWrite (q : QueueId) (v : U32) (s : State) : Result :=
  s.run fun s => (
    let x := s.queue q
    let len := (x.cur.map Buffer.len).getD 0
    if (x.state = .idle || x.state = .stopped) && v.toNat ≤ len then
      let s := s.setQueue q { x with head := v, loops := [], skipDepth := none }
      if x.cur.isSome && len ≤ v.toNat then s.nextBuffer q else s
    else s)

/-- Whether an instruction is journal-consuming (R121). -/
def consuming (w : BitVec 256) : Bool := 1 ≤ iOpcode w / 16 && iOpcode w / 16 ≤ 7

/-- Whether a queue's class serves an opcode (R122). -/
def classServes (cls opcode : Nat) : Bool :=
  match cls with
  | 1 => opcode / 16 = 1 || opcode / 16 = 2 || opcode / 16 = 3 || opcode / 16 = 4 || opcode / 16 = 7
  | 2 => opcode / 16 = 4 || opcode / 16 = 5 || opcode / 16 = 7
  | _ => opcode / 16 = 6 || opcode / 16 = 7 || opcode = 0x42 || opcode = 0x43

/-- The tests an instruction meets when it reaches head, before its waits are considered (R117, R121, R122, R752). -/
def Dev.testHead (s : Dev) (q : QueueId) (w : BitVec 256) : Dev :=
  if !encodingValid w (s.queue q).loopIndex then (if consuming w then s.refuseHead q 1 else s.cease q 1 false)
  else if consuming w && !classServes (queueClass q) (iOpcode w) then s.refuseHead q 3
  else if millOpcode (iOpcode w) && (millsOf (homeDie q).val (s.queue q).unit.toNat).isEmpty then s.refuseHead q 2
  else s.latch q

/-- An instruction that a LOOP of count 0 or a BREAK skips (R145, R148). -/
def Dev.skipOne (s : Dev) (q : QueueId) (w : BitVec 256) (depth : Nat) : Dev :=
  let next (d : Option Nat) : Dev := (s.modQueue q (fun x => { x with skipDepth := d })).moveHead q ((s.queue q).head.toNat + 1)
  match iOpcode w with
  | 0x01 => next (some (depth + 1))
  | 0x02 => next (if depth = 0 then none else some (depth - 1))
  | _ => next (some depth)

/-- The instruction at head is read (R123, R749). -/
def Dev.fetchHead (s : Dev) (q : QueueId) : Dev :=
  let x := s.queue q
  match x.cur with
  | none => s
  | some b =>
    if b.len ≤ x.head.toNat then s
    else match s.readVa (s.cmdPort q) (b.base + 32 * x.head.toNat) 32 with
      | (s, .wait) => s
      | (s, .fail r _) => s.cease q r false
      | (s, .ok d) =>
        let w : BitVec 256 := BitVec.ofNat 256 (leNat d)
        match x.skipDepth with
        | some depth => s.skipOne q w depth
        | none => (s.modQueue q (fun x => { x with fetched := some w })).testHead q w

/-- INSTRUCTION_FETCH (R112, R117, R123, R150, R749). -/
def execInstructionFetch (q : QueueId) (s : State) : Result :=
  s.run fun s => (
    let x := s.queue q
    if x.state ≠ .running || x.fetched.isSome then s else ((s.drainPushes q).refill q).fetchHead q)

/-- A relay queue. -/
def Dev.relay (s : Dev) (r : Fin 64) : Relay := s.relays[r]
/-- Put a relay queue. -/
def Dev.setRelay (s : Dev) (r : Fin 64) (x : Relay) : Dev := { s with relays := s.relays.set r x r.isLt }
/-- Change a relay queue. -/
def Dev.modRelay (s : Dev) (r : Fin 64) (f : Relay → Relay) : Dev := s.setRelay r (f (s.relay r))

/-- The relay queue that an instruction names. -/
def relayOf (w : BitVec 256) : Fin 64 := ⟨iParam w % 64, Nat.mod_lt _ (by decide)⟩

/-- Whether an instruction's queue is the owner that its opcode needs, in the relay queue's address space (R358, R360). -/
def Relay.owned (x : Relay) (opcode : Nat) (q : QueueId) (asid : Asid) : Bool :=
  (if opcode = 0x42 then x.producer.toNat else x.consumer.toNat) = q.val && x.asid = asid

/-- Whether a relay queue is full for a put, or empty for a take. -/
def Relay.blocked (x : Relay) (opcode : Nat) : Bool := if opcode = 0x42 then 256 ≤ x.held else x.held = 0

/-- An issue attempt that finds its relay queue full or empty is counted (R355). -/
def Relay.countWait (x : Relay) (opcode : Nat) : Relay :=
  if opcode = 0x42 then { x with fullWaits := x.fullWaits + 1 } else { x with emptyWaits := x.emptyWaits + 1 }

/-- The instruction at the head of a running queue, once conditions 1 and 2 of R124 hold for it and no RELAY_TAKE of the queue is
running (R124, R360). -/
def Dev.readyHead (s : Dev) (q : QueueId) (opcode : Nat) : Option (BitVec 256) :=
  let x := s.queue q
  match x.fetched with
  | none => none
  | some w =>
    let l := s.running q
    if x.state = .running && iOpcode w = opcode && x.endUnperformed.isNone && x.wait0 && x.wait1 && (!iFence w || l.isEmpty)
        && l.all (fun o => iOpcode o.word ≠ 0x43) then some w else none

/-- The first pending signal of a queue, if it may be performed now (R129, R131, R133): its operation has ended, and so has every
earlier one. -/
def Dev.dueSignal (s : Dev) (q : QueueId) : Option PendingSignal :=
  match (s.queue q).signals.head? with
  | some g =>
    if g.ready && (s.running q).all (fun o => 2 ^ 31 ≤ (g.afterOrdinal + 2 ^ 32 - o.ordinal) % 2 ^ 32) then some g else none
  | none => none

/-- A signal is performed: every write of its queue's operations is visible first (R129, R383). -/
def Dev.performFirst (s : Dev) (q : QueueId) : Dev :=
  match s.dueSignal q with
  | some g => ((s.modQueue q (fun x => { x with signals := x.signals.tail })).drainWcbOf (s.queueWriter q)).performSignal g
  | none => s

/-- SIGNAL (R129 to R133). -/
def execSignal (q : QueueId) (s : State) : Result := s.run fun s => (s.performFirst q)

/-- A control instruction has had its effect: its signal, and the update of a SYNC, wait their turn, the head moves on, and a stop bit
ends issue (R131, R137). -/
def Dev.endControl (s : Dev) (q : QueueId) (w : BitVec 256) (head : Nat) (update : List PendingSignal) : Dev :=
  let x := s.queue q
  let more := update ++ signalOf w x.issued.toNat true
  let s := (s.setQueue q { x with signals := x.signals ++ more }).moveHead q head
  let s := if x.signals.isEmpty then more.foldl (fun s _ => s.performFirst q) s else s
  if iStop w then s.cease q 0x11 false else s

/-- A control instruction of an opcode issues at the head of a queue. -/
def Dev.control (s : Dev) (q : QueueId) (opcode : Nat) (f : Dev → Queue → BitVec 256 → Dev) : Dev :=
  let s := s.latch q
  match s.readyHead q opcode with
  | some w => f s (s.queue q) w
  | none => s

/-- NOP (R120). -/
def execNop (q : QueueId) (s : State) : Result :=
  s.run fun s => (s.control q 0x00 (fun s x w => s.endControl q w (x.head.toNat + 1) []))

/-- The count LOOP captures (R143): an immediate, a counter, or a word in memory. -/
def Dev.loopCount (s : Dev) (q : QueueId) (x : Queue) (w : BitVec 256) : Dev × Named Nat :=
  let h := x.handles w
  let h0 := h.getD 0 0
  match iParam w with
  | 0 => (s, .ok (h0 + h.getD 1 0 % 256 * 65536))
  | 1 => (s, .ok (s.counter (homeDie q).val h0).toNat)
  | 2 => (s, .ok (s.pcounter h0).toNat)
  | _ =>
    Named.andThen (s.namedBytes (s.cmdPort q) h0) fun s b =>
      if b.len < 4 then (s, .invalid)
      else Named.andThen (Fetch.toNamed (s.readVa (s.cmdPort q) b.base 4)) fun s d => (s, .ok (leNat d))

/-- LOOP (R143 to R146, R149). -/
def execLoop (q : QueueId) (s : State) : Result :=
  s.run fun s => (s.control q 0x01 (fun s x w =>
    if 4 ≤ x.loops.length then s.cease q 9 false
    else match s.loopCount q x w with
      | (s, .wait) => s
      | (s, .invalid) => s.cease q 2 false
      | (s, .fail r _) => s.cease q r false
      | (s, .ok n) =>
        if 16777215 < n then s.cease q 0xA false
        else
          let head := x.head.toNat + 1
          let s := s.modQueue q (fun x =>
            if n = 0 then { x with skipDepth := some 0 } else { x with loops := { body := head, count := n, index := 0 } :: x.loops })
          s.endControl q w head []))

/-- ENDLOOP (R147, R150). -/
def execEndloop (q : QueueId) (s : State) : Result :=
  s.run fun s => (s.control q 0x02 (fun s x w =>
    match x.loops with
    | [] => s.cease q 0xB false
    | l :: rest =>
      if l.index + 1 < l.count then
        (s.modQueue q (fun x => { x with loops := { l with index := l.index + 1 } :: rest })).endControl q w l.body []
      else (s.modQueue q (fun x => { x with loops := rest })).endControl q w (x.head.toNat + 1) []))

/-- BREAK (R148, R150). -/
def execBrk (q : QueueId) (s : State) : Result :=
  s.run fun s => (s.control q 0x03 (fun s x w =>
    match x.loops with
    | [] => s.cease q 0xB false
    | _ :: rest =>
      let leaves := !bit (iParam w) 0 || x.brkLatch
      let s := if leaves then s.modQueue q (fun x => { x with loops := rest, skipDepth := some 0 }) else s
      s.endControl q w (x.head.toNat + 1) []))

/-- PHASE (R151). -/
def execPhase (q : QueueId) (s : State) : Result :=
  s.run fun s => (s.control q 0x04 (fun s x w =>
    (s.modQueue q (fun x => { x with phase := BitVec.ofNat 4 (iParam w) })).endControl q w (x.head.toNat + 1) []))

/-- SETTIME (R152). -/
def execSettime (q : QueueId) (s : State) : Result :=
  s.run fun s => (s.control q 0x05 (fun s x w =>
    let h := x.handles w
    let v : U64 := if iParam w = 0 then s.now
      else BitVec.ofNat 64 (h.getD 0 0 + h.getD 1 0 * 2 ^ 16 + h.getD 2 0 * 2 ^ 32 + h.getD 3 0 * 2 ^ 48)
    (s.modQueue q (fun x => { x with tref := v })).endControl q w (x.head.toNat + 1) []))

/-- SYNC (R131, R153). -/
def execSync (q : QueueId) (s : State) : Result :=
  s.run fun s => (s.control q 0x06 (fun s x w =>
    let h := x.handles w
    let g : PendingSignal := {
      kind := iParam w, die := h.getD 0 0, index := h.getD 1 0, add := h.getD 2 0 + h.getD 3 0 * 65536,
      afterOrdinal := x.issued.toNat, ready := true, sync := true }
    s.endControl q w (x.head.toNat + 1) [g]))

/-- HALT (R153). -/
def execHalt (q : QueueId) (s : State) : Result :=
  s.run fun s => (s.control q 0x07 (fun s x w => (s.endControl q w (x.head.toNat + 1) []).cease q 0x12 false))

/-- A journal-consuming instruction issues once its slot is allocated and its executor accepts it (R124); one whose channel does not
belong to its engine ends aborted (R493). -/
def Dev.issueHead (s : Dev) (q : QueueId) (opcode : Nat) (accepts : Dev → Bool) (reason : Nat) : Dev :=
  let s := s.latch q
  match s.readyHead q opcode with
  | none => s
  | some w =>
    let s := s.askSlot q
    match (s.queue q).slot with
    | none => s
    | some slot =>
      if reason ≠ 0 then s.issueAs q { newOperation q (s.queue q) w slot with status := 5, reason := reason }
      else if accepts s then s.issueAs q (newOperation q (s.queue q) w slot) else s

/-- Whether a mill that a queue names accepts its operation now: the mill is free, and the queue's turn comes first among those that
wait for it (R334). -/
def Dev.millAccepts (q : QueueId) (s : Dev) : Bool :=
  (millsOf (homeDie q).val (s.queue q).unit.toNat).any (fun n => (millId n).any (fun m => s.millFree m && s.millTurn m q))

/-- A mill-class or chain-class instruction issues, and the mills that it names and that are free accept it (R124, R334). -/
def Dev.issueMill (s : Dev) (q : QueueId) (opcode : Nat) : Dev :=
  let n := s.cmd.ops.length
  let s := s.issueHead q opcode (Dev.millAccepts q) 0
  if n < s.cmd.ops.length then s.feed (homeDie q).val else s

/-- An instruction whose executor accepts at once issues. -/
def Dev.issueFree (s : Dev) (q : QueueId) (opcode : Nat) : Dev := s.issueHead q opcode (fun _ => true) 0

/-- A service instruction issues on its queue's channel (R493). -/
def Dev.issueService (s : Dev) (q : QueueId) (opcode : Nat) : Dev :=
  s.issueHead q opcode (fun _ => true) (if channelServes (s.queue q) opcode then 0 else 3)

/-- MATMUL issues (R192). -/
def execMatmul (q : QueueId) (s : State) : Result := s.run fun s => (s.issueMill q 0x10)
/-- MATMUL_PART issues (R208). -/
def execMatmulPart (q : QueueId) (s : State) : Result := s.run fun s => (s.issueMill q 0x11)
/-- ATTEND issues (R261). -/
def execAttend (q : QueueId) (s : State) : Result := s.run fun s => (s.issueMill q 0x12)
/-- CHAIN issues (R240). -/
def execChain (q : QueueId) (s : State) : Result := s.run fun s => (s.issueMill q 0x20)
/-- COMBINE issues (R209). -/
def execCombine (q : QueueId) (s : State) : Result := s.run fun s => (s.issueMill q 0x21)
/-- LAUNCH issues (R274). -/
def execLaunch (q : QueueId) (s : State) : Result := s.run fun s => (s.issueFree q 0x30)
/-- CRYPT issues (R509). -/
def execCrypt (q : QueueId) (s : State) : Result := s.run fun s => (s.issueService q 0x50)
/-- COMPRESS issues (R512). -/
def execCompress (q : QueueId) (s : State) : Result := s.run fun s => (s.issueService q 0x51)
/-- DECOMPRESS issues (R513). -/
def execDecompress (q : QueueId) (s : State) : Result := s.run fun s => (s.issueService q 0x52)
/-- INDEX issues (R515). -/
def execIndexOp (q : QueueId) (s : State) : Result := s.run fun s => (s.issueService q 0x53)

/-- PREFETCH issues, or performs its next unit (R347). -/
def execPrefetch (step : OpStep) (s : State) : Result :=
  s.run fun s => (match step with
    | .issue q => s.issueFree q 0x40
    | .unit slot => s.streamUnit slot 0x40 Dev.prefetchUnit)
/-- COPY (R349). -/
def execCopy (step : OpStep) (s : State) : Result :=
  s.run fun s => (match step with
    | .issue q => s.issueFree q 0x41
    | .unit slot => s.streamUnit slot 0x41 Dev.copyUnit)
/-- SNAPSHOT (R183). -/
def execSnapshot (step : OpStep) (s : State) : Result :=
  s.run fun s => (match step with
    | .issue q => s.issueFree q 0x70
    | .unit slot => s.streamUnit slot 0x70 Dev.snapshotUnit)
/-- SORTMERGE (R519). -/
def execSortmerge (step : OpStep) (s : State) : Result :=
  s.run fun s => (match step with
    | .issue q => s.issueService q 0x54
    | .unit slot => s.serviceUnit slot (fun c => c = 0x54) Dev.sortUnit)
/-- GATHER (R521). -/
def execGather (step : OpStep) (s : State) : Result :=
  s.run fun s => (match step with
    | .issue q => s.issueService q 0x55
    | .unit slot => s.serviceUnit slot (fun c => c = 0x55) Dev.gatherUnit)

/-- The operations of a queue that have issued a RELAY_PUT and not yet performed it (R358, R359). -/
def Dev.putsDue (s : Dev) (q : QueueId) (r : Fin 64) : Nat :=
  ((s.running q).filter (fun o => iOpcode o.word = 0x42 && relayOf o.word = r && o.status = 0 && o.written = [])).length

/-- Whether the relay queue of an instruction is full or empty, or not enabled, so that it waits without a slot (R358, R360). -/
def Dev.relayHolds (s : Dev) (q : QueueId) (w : BitVec 256) : Bool :=
  let x := s.relay (relayOf w)
  (iOpcode w = 0x42 && (!x.enable || 256 ≤ x.held + s.putsDue q (relayOf w))) || (iOpcode w = 0x43 && (!x.enable || x.held = 0))

/-- Whether a queue waits for a journal slot: its instruction meets conditions 1 and 2 of R124 and no relay queue holds it up, or it has ended
without being performed (R124, R135, R172, R358). -/
def Dev.wantsSlot (s : Dev) (q : QueueId) : Bool :=
  let x := s.queue q
  x.state = .running && x.slot.isNone
    && (x.endUnperformed.isSome || x.fetched.any (fun w => consuming w && (s.readyHead q (iOpcode w)).isSome && !s.relayHolds q w))

/-- The queues that wait for a slot, the one served next first (R172). -/
def Dev.slotWaiter (s : Dev) : Option QueueId :=
  let l := s.cmd.queues.filterMap (fun e => if h : e.1 < 2048 then (if s.wantsSlot ⟨e.1, h⟩ then some (⟨e.1, h⟩ : QueueId) else none) else none)
  let key (q : QueueId) : Nat := (q.val + 2047 - s.cmd.journal.lastQueue) % 2048
  l.foldl (fun best q => match best with
    | none => some q
    | some b => if key q < key b then some q else some b) none

/-- A free slot goes to the queue whose turn it is; an instruction that has ended without being performed leaves with it (R135, R172). -/
def Dev.allocate (s : Dev) (slot : SlotId) : Dev :=
  if s.cmd.journal.allocated.contains slot then s
  else match s.slotWaiter with
    | none => s
    | some q =>
      let s := (s.giveSlot q slot).modJournal (fun j => { j with lastQueue := q.val })
      let x := s.queue q
      match x.endUnperformed, x.fetched with
      | some (reason, status), some w => s.issueAs q { newOperation q x w slot with status := status.toNat, reason := reason.toNat }
      | _, _ => s

/-- JOURNAL_SLOT_ALLOCATE (R172). -/
def execJournalSlotAllocate (slot : SlotId) (s : State) : Result := s.run fun s => (s.allocate slot)

/-- JOURNAL_RELEASE (R181): a slot that is not terminal or not allocated sets release_err. -/
def execJournalRelease (slot : SlotId) (s : State) : Result :=
  s.run fun s => (
    if s.cmd.journal.allocated.contains slot && s.cmd.journal.terminal.contains slot then (s.freeSlot slot).allocate slot
    else s.modJournal (fun j => { j with releaseErr := true }))

/-- WATCHDOG_EXPIRY (R134): the instruction at head has waited longer than the queue's watchdog. -/
def execWatchdogExpiry (q : QueueId) (t : Instant) (s : State) : Result :=
  s.run fun s => (
    let x := s.queue q
    let s' := s.advance t
    match x.fetched with
    | none => s
    | some w =>
      if x.state = .running && x.watchdog ≠ 0 && x.endUnperformed.isNone && decide (x.headSince.toNat + 1000 * x.watchdog.toNat < s'.now.toNat) then
        (if consuming w then s'.refuseHead q 8 else s'.cease q 8 false)
      else s)

/-- The package times that the unlatched waits of a queue's instruction name (R126). -/
def Queue.timesDue (x : Queue) : List Nat :=
  match x.fetched with
  | none => []
  | some w =>
    (if !x.wait0 && waitKind (iWait0 w) = 5 then [x.tref.toNat + waitOffset (iWait0 w)] else [])
      ++ (if !x.wait1 && waitKind (iWait1 w) = 5 then [x.tref.toNat + waitOffset (iWait1 w)] else [])

/-- PACKAGE_TIME_REACHED (R125, R126): package time reaches the earliest time that the instruction at head waits for. -/
def execPackageTimeReached (q : QueueId) (s : State) : Result :=
  s.run fun s => (
    match lowest ((s.queue q).timesDue) with
    | some t => if t < 2 ^ 64 && (s.queue q).state = .running then s.advance (BitVec.ofNat 64 t) else s
    | none => s)

/-- FLAG_STORE: a core's access to a die flag (R127, R139, R746). -/
def execFlagStore (die : Die) (i : Fin 512) (a : CoreAccess) (s : State) : Result :=
  s.run fun s => (
    let (v, r) := flagAccess (s.flag die.val i.val) a
    let s := match v with
      | some b => s.updateFlag die.val i.val b
      | none => s
    { s with reply := some r })

/-- A core's access to a counter (R127, R139, R746). -/
def Dev.counterOp (s : Dev) (c : CounterRef) (a : CoreAccess) : Dev :=
  let (v, r) := counterAccess (s.counterOf c) a
  let s := match v with
    | some n => s.updateCounterOf c n
    | none => s
  { s with reply := some r }

/-- COUNTER_STORE: any access to a counter but an AMOADD. -/
def execCounterStore (c : CounterRef) (a : CoreAccess) (s : State) : Result := s.run fun s => (s.counterOp c a)

/-- COUNTER_AMOADD. -/
def execCounterAmoadd (c : CounterRef) (a : CoreAccess) (s : State) : Result := s.run fun s => (s.counterOp c { a with op := .amoAdd })

end Sys2Proof.Machine
end

