-- ==== Sys2Proof/Machine/Relays.lean ====
section
/-! DEFINITION. Machine/Relays.lean: the relay queues and their two instructions (R353 to R364). -/

namespace Sys2Proof.Machine

/-- What a relay entry may hold: a tensor descriptor or a byte-buffer descriptor (R354, R362). -/
def relayable (b : Nat) : Bool := descKind b = 1 || descKind b = 4

/-- The descriptor that a RELAY_PUT names, by all the checks of R161: its 512 bits. -/
def Dev.putImage (s : Dev) (p : Port) (h : Nat) : Dev × Named Nat :=
  Named.andThen (s.named p h (fun b => if (parseTensor b).isSome || (parseBytes b).isSome then some b else none)) fun s b =>
    match parseTensor b with
    | none => (s, .ok b)
    | some t => Named.andThen (s.withScale p t) fun s _ => (s, .ok b)

/-- A relay instruction's operation is performed once it has issued and its turn has come: a put after every earlier operation of its queue has
ended, a take after each has begun (R133, R358 to R360, R362). -/
def Dev.performRelay (s : Dev) (o : Operation) : Dev :=
  let r := relayOf o.word
  let x := s.relay r
  let p := s.opPort o
  let before := s.earlier o.queue o.slot
  let s := s.beginOp o.slot id
  let refuse (s : Dev) (reason : Nat) : Dev := s.modOp o.slot (fun o => { o with status := 5, reason := reason })
  if !x.enable then refuse s 3
  else if iOpcode o.word = 0x42 then
    if before ≠ [] then s
    else match s.putImage p (o.h.getD 0 0) with
    | (s, .wait) => s
    | (s, .fail c a) => s.failOp o.slot c a
    | (s, .invalid) => refuse s 2
    | (s, .ok b) =>
      let s := s.modRelay r (fun x => { x with entries := Table.set 0 x.entries (x.puts.toNat % 256) b, puts := x.puts + 1 })
      s.modOp o.slot (fun o => { o with written := [0] })
  else
    let h := o.h.getD 2 0
    let e := Table.get 0 x.entries (x.takes.toNat % 256)
    match s.ctx (mmuOf p.die) p.asid with
    | none => if !relayable e then refuse s 2 else s.failOp o.slot 4 0
    | some c =>
      if !relayable e || h = 0 then refuse s 2
      else match s.writeUnit p 0 true [(c.dtBase + 64 * h, leBytes 64 e)] with
        | (s, .wait) => s
        | (s, .fail c a) => s.failOp o.slot c a
        | (s, .ok ()) => (s.modRelay r (fun x => { x with takes := x.takes + 1 })).modOp o.slot (fun o => { o with written := [0] })

/-- RELAY_PUT or RELAY_TAKE at the head of a queue: it is refused where it is not the owner's, waits without a slot on a disabled, full or empty
relay queue, and else issues, and is performed at once where its turn has come (R358 to R362). -/
def Dev.issueRelay (s : Dev) (q : QueueId) (opcode : Nat) : Dev :=
  let s := s.latch q
  match s.readyHead q opcode with
  | none => s
  | some w =>
    let r := relayOf w
    let x := s.relay r
    if 64 ≤ iParam w then s.refuseHead q 2
    else if !x.owned opcode q (s.queue q).asid then (s.modRelay r (fun x => { x with errOwner := true })).refuseHead q 3
    else if s.relayHolds q w then
      (if x.enable then s.modRelay r (fun x => x.countWait opcode) else s).modQueue q (fun x => { x with slotWait := false })
    else
      let s := s.askSlot q
      match (s.queue q).slot with
      | none => s
      | some slot =>
        let o := newOperation q (s.queue q) w slot
        let s := s.issueAs q o
        let l := s.earlier q slot
        if (if opcode = 0x42 then l.isEmpty else l.all (fun x => x.begun || x.status ≠ 0)) then s.performRelay o else s

/-- RELAY_PUT. -/
def execRelayPut (q : QueueId) (s : State) : Result := s.run fun s => (s.issueRelay q 0x42)
/-- RELAY_TAKE. -/
def execRelayTake (q : QueueId) (s : State) : Result := s.run fun s => (s.issueRelay q 0x43)

/-- RELAY_ENABLE: a write that sets enable (R356). -/
def execRelayEnable (r : Fin 64) (s : State) : Result :=
  s.run fun s => (
    if (s.relay r).enable then s
    else s.modRelay r (fun x => { x with enable := true, puts := 0, takes := 0, fullWaits := 0, emptyWaits := 0 }))

/-- The queues whose instruction at head waits on a relay queue. -/
def Dev.relayWaiters (s : Dev) (r : Fin 64) : List QueueId :=
  s.cmd.queues.filterMap (fun e =>
    if h : e.1 < 2048 then
      let q : QueueId := ⟨e.1, h⟩
      let waits (opcode : Nat) : Bool := match s.readyHead q opcode with
        | some w => relayOf w = r && iParam w < 64 && (s.relay r).owned opcode q (s.queue q).asid
        | none => false
      if waits 0x42 || waits 0x43 then some q else none
    else none)

/-- RELAY_DISABLE: a write that clears enable discards the entries, and the instructions that wait on the queue end (R362, R363). -/
def execRelayDisable (r : Fin 64) (s : State) : Result :=
  s.run fun s => (
    if !(s.relay r).enable then s
    else
      let l := s.relayWaiters r
      let s := s.modRelay r (fun x => { x with enable := false, puts := 0, takes := 0, entries := [] })
      l.foldl (fun s q => s.refuseHead q 3) s)

/-- RELAY_CORE_PUTS_WRITE: a core producer's store of puts (R361). -/
def execRelayCorePutsWrite (r : Fin 64) (v : U32) (s : State) : Result :=
  s.run fun s => (s.modRelay r (fun x =>
    if x.producer ≠ 0xFFF then { x with errOwner := true }
    else if 256 < (v - x.takes).toNat then { x with errOver := true }
    else { x with puts := v }))

/-- RELAY_CORE_TAKES_WRITE: a core consumer's store of takes (R361). -/
def execRelayCoreTakesWrite (r : Fin 64) (v : U32) (s : State) : Result :=
  s.run fun s => (s.modRelay r (fun x =>
    if x.consumer ≠ 0xFFF then { x with errOwner := true }
    else if x.held < (v - x.takes).toNat then { x with errUnder := true }
    else { x with takes := v }))

end Sys2Proof.Machine
end

