-- ==== Sys2Proof/Machine/SheafAlu.lean ====
section
/-! DEFINITION. Machine/SheafAlu.lean: what the arithmetic of sheaf instructions computes on one stalk's values: integers, FP32 and FP64
in flush and IEEE mode, the elementary functions, conversions, comparisons and atomic operations (R292, R296 to R301, R306, R322, R324). -/

namespace Sys2Proof.Machine

/-- An operand decoded under a kernel's mode (R296, R298). -/
def sheafDecode (ieee : Bool) (f : Fmt) (code : Nat) : Val := if ieee then rawDecode f code else decodeVal f code 127

/-- The rounding direction of a field of R297. -/
def roundDir : Nat → Rounding
  | 0 => .rne | 1 => .towardZero | 2 => .up | _ => .down

/-- Overflow by a rounding direction (R296, R298); a format without infinities saturates (R300). -/
def overflowDir (f : Fmt) (m : Rounding) (neg : Bool) : Nat :=
  let toMax := match m with
    | .towardZero => true
    | .up => neg
    | .down => !neg
    | _ => false
  if toMax || f = .e4m3 then exactCode f (if neg then - f.maxFinite else f.maxFinite) else infCode f neg

/-- The code of a signed zero. -/
def zeroCode (f : Fmt) (neg : Bool) : Nat := if neg then 2 ^ (f.bits - 1) else 0

/-- The encode of IEEE mode: gradual underflow, signed zero, canonical NaN (R298). -/
def encodeIeee (f : Fmt) (m : Rounding) (v : Val) : Nat :=
  match v with
  | .nan => f.canonicalNan
  | .inf n => if f = .e4m3 then exactCode f (if n then - f.maxFinite else f.maxFinite) else infCode f n
  | .zero n => zeroCode f n
  | .fin q =>
    let r := roundElement f m q
    if r = 0 then zeroCode f (q < 0) else if ratAbs r > f.maxFinite then overflowDir f m (q < 0) else exactCode f r

/-- The encode of flush mode (R296). -/
def encodeFlush (f : Fmt) (m : Rounding) (v : Val) : Nat :=
  match v with
  | .nan => f.canonicalNan
  | .inf n => infCode f n
  | .zero _ => 0
  | .fin q =>
    let r := roundSig m q f.precision
    if ratAbs r > f.maxFinite then overflowDir f m (q < 0) else if ratAbs r < f.minNormal then 0 else exactCode f r

/-- The encode of an arithmetic result under a kernel's mode. -/
def sheafEncode (ieee : Bool) (f : Fmt) (m : Rounding) (v : Val) : Nat := if ieee then encodeIeee f m v else encodeFlush f m v

/-- A value with its sign turned. -/
def negVal : Val → Val
  | .nan => .nan
  | .inf n => .inf (!n)
  | .zero n => .zero (!n)
  | .fin q => .fin (-q)

/-- A value without its sign. -/
def absVal : Val → Val
  | .inf _ => .inf false
  | .zero _ => .zero false
  | .fin q => .fin (ratAbs q)
  | .nan => .nan

/-- A sum whose exact zero takes the sign of the rounding direction (R297, R298). -/
def addDir (m : Rounding) (a b : Val) : Val :=
  match addVal a b with
  | .zero false => if m = .down && !(a = .zero false && b = .zero false) then .zero true else .zero false
  | v => v

/-- FP32 or FP64 operation o (0 ADD, 1 MUL, 2 MAC, 3 MIN, 4 MAX) with its modifiers (R292, R296 to R298). -/
def floatOp (ieee : Bool) (f : Fmt) (o m a b c : Nat) : Nat :=
  let dir := roundDir (bits m 1 0)
  let neg (on : Bool) (v : Val) : Val := if on then negVal v else v
  let ab (on : Bool) (v : Val) : Val := if on then absVal v else v
  let x := neg (bit m 2) (ab (bit m 5) (sheafDecode ieee f a))
  let y := neg (bit m 3) (ab (bit m 6) (sheafDecode ieee f b))
  let z := neg (bit m 4) (sheafDecode ieee f c)
  sheafEncode ieee f dir (match o with
    | 0 => addDir dir x y
    | 1 => mulVal x y
    | 2 => addDir dir (mulVal x y) z
    | 3 => minMax false x y
    | _ => minMax true x y)

/-- The exact value of function o of R299: 0 EXP2, 1 LOG2, 2 RCP, 3 RSQRT, 4 SQRT, 5 SINPI, 6 COSPI. -/
def funcReal (o : Nat) (x : Val) : Real :=
  match o, x with
  | _, .nan => .exact .nan
  | 0, .inf n => .exact (if n then .zero false else .inf false)
  | 0, .zero _ => .exact (.fin 1)
  | 0, .fin q => exp2Real q
  | 1, .inf n => .exact (if n then .nan else .inf false)
  | 1, .zero _ => .exact (.inf true)
  | 1, .fin q => if q < 0 then .exact .nan else log2Real q
  | 2, .inf n => .exact (.zero n)
  | 2, .zero n => .exact (.inf n)
  | 2, .fin q => .exact (.fin (1 / q))
  | 3, .inf n => .exact (if n then .nan else .zero false)
  | 3, .zero _ => .exact (.inf false)
  | 3, .fin q => if q < 0 then .exact .nan else divSqrtReal 1 q
  | 4, .inf n => .exact (if n then .nan else .inf false)
  | 4, .zero n => .exact (.zero n)
  | 4, .fin q => if q < 0 then .exact .nan else sqrtReal q
  | _, .inf _ => .exact .nan
  | 5, .zero n => .exact (.zero n)
  | 5, .fin q => sinPiReal q
  | _, .zero _ => .exact (.fin 1)
  | _, .fin q => cosPiReal q

/-- An FP32 function of R299, rounded once to nearest even. -/
def funcOp (ieee : Bool) (o a : Nat) : Nat :=
  (encodeReal (fun v => (sheafEncode ieee .fp32 .rne v, {})) (funcReal o (sheafDecode ieee .fp32 a))).1

/-- The set bits of a value below 2^n. -/
def popCount (v : Nat) : Nat → Nat
  | 0 => 0
  | n + 1 => b2n (bit v n) + popCount v n

/-- The leading zeros of a value of n bits. -/
def leadingZeros (v : Nat) : Nat → Nat
  | 0 => 0
  | n + 1 => if bit v n then 0 else 1 + leadingZeros v n

/-- Integer operation 0x10 + o on w bits (R292). The spec states no result for a shift of w or more: a free value (log entry 21). -/
def intOp (o w : Nat) (sg : Bool) (a b c free : Nat) : Nat :=
  let m := 2 ^ w
  let lt : Bool := if sg then decide (signedOf w a < signedOf w b) else decide (a < b)
  match o with
  | 0x0 => (a + b) % m
  | 0x1 => (a + m - b) % m
  | 0x2 => a * b % m
  | 0x3 => if sg then codeOf w (signedOf w a * signedOf w b / ((m : Nat) : Int)) else a * b / m
  | 0x4 => (a * b + c) % m
  | 0x5 => Nat.land a b
  | 0x6 => Nat.lor a b
  | 0x7 => Nat.xor a b
  | 0x8 => if b < w then a * 2 ^ b % m else free % m
  | 0x9 => if b < w then (if sg then codeOf w (signedOf w a / ((2 ^ b : Nat) : Int)) else a / 2 ^ b) else free % m
  | 0xA => if lt then a else b
  | 0xB => if lt then b else a
  | 0xC => popCount a w
  | 0xD => leadingZeros a w
  | 0xE => a
  | _ => (b * 2 ^ 16 + c % 2 ^ 16) % m

/-- An encode into an integer format in a direction: rounded, then saturated; NaN writes 0 (R68, R71, R300). -/
def encodeIntDir (w : Nat) (m : Rounding) (v : Val) : Nat × Counts :=
  match v with
  | .fin q =>
    let r := roundGrid m q 0
    if q ≠ 0 && r = 0 then (0, { flushedOut := 1 }) else encodeInt w (Val.ofRat r)
  | v => encodeInt w v

/-- Whether an integer format cannot hold a value once rounded. -/
def intInvalid (w : Nat) (m : Rounding) (v : Val) : Bool :=
  match v with
  | .nan => true
  | .inf _ => true
  | .zero _ => false
  | .fin q => let r := roundGrid m q 0; ((2 ^ (w - 1) : Nat) : Rat) ≤ r || r < -((2 ^ (w - 1) : Nat) : Rat)

/-- The IEEE-mode encode into an FP6 or FP4 element: the grid of R745 in a direction, saturating, signed zero, NaN as code zero (R298,
R300; log entry 78). -/
def encodeElementIeee (f : Fmt) (m : Rounding) (v : Val) : Nat :=
  match v with
  | .nan => 0
  | .inf n => exactCode f (if n then - f.maxFinite else f.maxFinite)
  | .zero n => zeroCode f n
  | .fin q =>
    let r := roundElement f m q
    if r = 0 then zeroCode f (q < 0)
    else exactCode f (if f.maxFinite < r then f.maxFinite else if r < - f.maxFinite then - f.maxFinite else r)

/-- What CVT encodes (R300), with its counts (R301). IEEE 754-2019 leaves an invalid conversion to an integer open: a free value
(log entry 21). -/
def cvtCode (ieee : Bool) (src dst : Fmt) (m a c free : Nat) : Nat × Counts :=
  let dir := roundDir (bits m 13 12)
  let int := dst = .int8 || dst = .int32
  if ieee then
    let v := rawDecode src a
    if int then (if intInvalid dst.bits dir v then free % 2 ^ dst.bits else (encodeIntDir dst.bits dir v).1, {})
    else if dst.isMx then (encodeElementIeee dst dir v, {})
    else (encodeIeee dst dir v, {})
  else
    let v := decodeVal src a 127
    if int then encodeIntDir dst.bits (if bit m 9 then .rne else dir) v
    else encode dst (if bit m 9 then .sr (c % 2 ^ 32) else dir) (bit m 8) v

/-- The bits of a register that a format's sub-word lane takes (R300): a lane of 16 or of 8 bits. -/
def laneBits (f : Fmt) (lane : Nat) : Nat × Nat := if f.bits = 16 then (16 * lane, 16) else if f.bits ≤ 8 then (8 * lane, 8) else (0, f.bits)

/-- A CVT on register values: the source lane taken, the destination lane replaced in the old value (R300). -/
def cvtOp (ieee : Bool) (m a c old free : Nat) : Nat × Counts :=
  match Fmt.ofCode (bits m 3 0), Fmt.ofCode (bits m 7 4) with
  | some src, some dst =>
    let (so, _) := laneBits src (bits m 11 10)
    let (o, n) := laneBits dst (bits m 11 10)
    let (code, k) := cvtCode ieee src dst m (a / 2 ^ so % 2 ^ src.bits) c free
    (if 32 ≤ dst.bits then code else old % 2 ^ o + code * 2 ^ o + old / 2 ^ (o + n) * 2 ^ (o + n), k)
  | _, _ => (old, {})

/-- ICMP (R292). -/
def icmpOp (m a b : Nat) : Bool :=
  let w := if bit m 4 then 64 else 32
  let (x, y) : Int × Int := if bit m 3 then (signedOf w a, signedOf w b) else ((a : Int), (b : Int))
  match bits m 2 0 with
  | 0 => x = y
  | 1 => x ≠ y
  | 2 => x < y
  | 3 => x ≤ y
  | 4 => x > y
  | _ => x ≥ y

/-- The combination of REDUCE and SCAN (R292, R306). -/
def combineOp (ieee : Bool) (m a b : Nat) : Nat :=
  match m with
  | 0 => sheafEncode ieee .fp32 .rne (addVal (sheafDecode ieee .fp32 a) (sheafDecode ieee .fp32 b))
  | 1 => (a + b) % 2 ^ 32
  | 2 => sheafEncode ieee .fp32 .rne (minMax false (sheafDecode ieee .fp32 a) (sheafDecode ieee .fp32 b))
  | 3 => sheafEncode ieee .fp32 .rne (minMax true (sheafDecode ieee .fp32 a) (sheafDecode ieee .fp32 b))
  | 4 => if signedOf 32 b < signedOf 32 a then b else a
  | _ => if signedOf 32 a < signedOf 32 b then b else a

/-- The first value of a REDUCE or SCAN as a result of its own: a NaN of a floating operation is the canonical one (R298), and another value
is as it is (DESIGN CHOICE, log entry 88: nothing is combined). -/
def firstOp (ieee : Bool) (m a : Nat) : Nat :=
  if (m = 0 || m = 2 || m = 3) && sheafDecode ieee .fp32 a = .nan then sheafEncode ieee .fp32 .rne .nan else a

/-- The combination of a list of values in order (R306). -/
def combineAll (ieee : Bool) (m : Nat) : List Nat → Nat
  | [] => 0
  | [a] => firstOp ieee m a
  | a :: l => l.foldl (combineOp ieee m) a

/-- The bytes of an atomic operation's word (R322). -/
def atomicBytes (o : Nat) : Nat := if o = 1 || o = 0xD || o = 0xF then 8 else 4

/-- The new value of an atomic operation (R322, R324): b the operand, c the compare value. -/
def atomicOp (ieee : Bool) (o old b c : Nat) : Nat :=
  let fp (g : Val → Val → Val) : Nat := sheafEncode ieee .fp32 .rne (g (sheafDecode ieee .fp32 old) (sheafDecode ieee .fp32 b))
  match o with
  | 0x0 => (old + b) % 2 ^ 32
  | 0x1 => (old + b) % 2 ^ 64
  | 0x2 => fp addVal
  | 0x3 => if signedOf 32 b < signedOf 32 old then b % 2 ^ 32 else old
  | 0x4 => if signedOf 32 old < signedOf 32 b then b % 2 ^ 32 else old
  | 0x5 => if b % 2 ^ 32 < old then b % 2 ^ 32 else old
  | 0x6 => if old < b % 2 ^ 32 then b % 2 ^ 32 else old
  | 0x7 => fp (minMax false)
  | 0x8 => fp (minMax true)
  | 0x9 => Nat.land old (b % 2 ^ 32)
  | 0xA => Nat.lor old (b % 2 ^ 32)
  | 0xB => Nat.xor old (b % 2 ^ 32)
  | 0xC => b % 2 ^ 32
  | 0xD => b % 2 ^ 64
  | 0xE => if old = c % 2 ^ 32 then b % 2 ^ 32 else old
  | _ => if old = c % 2 ^ 64 then b % 2 ^ 64 else old

end Sys2Proof.Machine
end

