-- ==== Sys2Proof/Machine/Coherence.lean ====
section
/-! DEFINITION. Machine/Coherence.lean: the home's handling of requests, snoop responses and timeouts, what caching agents do on
local events, snoops and completions, and the maintenance of lines (R376 to R415, R337 to R340). -/

namespace Sys2Proof.Machine

/-- A home's answer that carries data leaves for its requester, under the transaction's epoch (R400, R401). -/
def Dev.grant (s : Dev) (t : LineTag) (x : Txn) (g : Grant) (data : LineData) (poison : Bool) : Dev :=
  match x.by_ with
  | .agent a => s.send (.data a t x.epoch g data poison)
  | .die _ => s

/-- An Ack leaves for a caching agent. -/
def Dev.ackTo (s : Dev) (t : LineTag) (x : Txn) (poison : Bool) : Dev :=
  match x.by_ with
  | .agent a => s.send (.ack a t x.epoch poison)
  | .die _ => s

/-- The answer to a non-caching requester (R398). -/
def Dev.answerDie (s : Dev) (by_ : ReqBy) (x : OnceAnswer) : Dev :=
  match by_ with
  | .die d => s.modMem (fun m => { m with answers := Table.set none m.answers d.val (some x) })
  | .agent _ => s

/-- The agent that a request comes from, as a list. -/
def ReqBy.agents : ReqBy → List Agent
  | .agent a => [a]
  | .die _ => []

/-- The data a request is answered with: what the owner gave, or the home's own (R404). -/
def Dev.answerData (s : Dev) (t : LineTag) (x : Txn) : Dev × LineData × Bool :=
  match x.data with
  | some (d, p) => (s, d, p)
  | none => s.homeRead t (some x.errSymbols)

/-- A home performs an atomic on its own data (R404): a poisoned line keeps its bytes (R416). -/
def Dev.homeAtomic (s : Dev) (t : LineTag) (off op operand compare by_ : Nat) : Dev × Nat × Bool :=
  let (s, data, poison) := s.homeRead t none
  let n := atomicBytes op
  let old := fieldAt data off n
  if poison then (s, old, true)
  else (s.homeWrite t off (leBytes n (atomicOp false op old operand compare)) 0 by_, old, false)

/-- ReadShared is answered once the owner has answered, or at once where there is none (R404). -/
def Dev.finishShared (s : Dev) (t : LineTag) (x : Txn) (r : Agent) : Dev :=
  let (s, data, poison) := s.answerData t x
  let rest := (s.dirOf t).map (fun d => d.sharers.filter (· ≠ r))
  let join (st : DirState) (owner : Option Agent) (l : List Agent) : Dev :=
    (s.putDir t st owner (l ++ [r]) poison).grant t x .s data poison
  let alone : Dev := (s.putDir t .x (some r) [] poison).grant t x .e data poison
  match x.answer, s.dirOf t with
  | .dirty, some d => join .o d.owner (d.sharers.filter (· ≠ r))
  | .dirtyEvicting, _ => if x.fromO then join .s none (rest.getD []) else alone
  | .clean, some d => join .s none ((d.owner.toList ++ d.sharers).filter (· ≠ r))
  | _, some d => join d.st d.owner (d.sharers.filter (· ≠ r))
  | _, none => alone

/-- A request whose snoops are all answered is performed, and the directory records its outcome (R404 to R406). One whose home has given up
is answered with poison, and a write-push is not performed then (R411). An Ack carries the home's mark (R415). -/
def Dev.finish (s : Dev) (t : LineTag) (x : Txn) (poisoned : Bool) : Dev :=
  let sole (s : Dev) (poison : Bool) : Dev :=
    match x.by_ with
    | .agent r => s.putDir t .x (some r) [] poison
    | .die _ => s
  match x.kind with
  | .readShared =>
    match x.by_ with
    | .agent r => s.finishShared t x r
    | .die _ => s
  | .readOwn =>
    let (s, data, poison) := s.answerData t x
    (sole s poison).grant t x .m data poison
  | .writeClaim | .upgrade =>
    let poison := poisoned || (s.homeData t).2
    (sole s poison).ackTo t x poison
  | .readOnce =>
    let (s, data, poison) := s.answerData t x
    s.answerDie x.by_ (.data t data poison)
  | .writePush off data =>
    match x.by_ with
    | .die d =>
      (if poisoned then s else (s.setDir t none).homeWrite t off data 0 (writerOf d.val 255)).answerDie x.by_ (.pushed t poisoned)
    | .agent _ => s
  | .atomicHome off op operand compare =>
    match x.by_ with
    | .die d =>
      let (s, old, poison) := (s.setDir t none).homeAtomic t off op.val operand.toNat compare.toNat (writerOf d.val 255)
      s.answerDie x.by_ (.old t (BitVec.ofNat 64 old) poison)
    | .agent _ => s
  | .dirVictim => s.setDir t none
  | .rebuild =>
    let h := s.hubOf (tagLoc t)
    (s.setDir t none).report ⟨(10 + h.val) % 20, Nat.mod_lt _ (by decide)⟩
      { kind := 0x13, cls := .corrected, addr := tagPa t, realm := tagRealm t }

/-- Whom a request makes the home snoop, and with what (R404). -/
def snoopPlan (kind : ReqKind) (by_ : ReqBy) (d : Option DirEntry) : SnoopKind × List Agent :=
  match d with
  | none => (.inv, [])
  | some e =>
    match kind with
    | .readShared => (.shared, e.owner.toList)
    | .readOnce => (.once, e.owner.toList)
    | .upgrade => (.inv, e.agents.filter (fun a => by_ ≠ .agent a))
    | _ => (.inv, e.agents)

/-- An Upgrade from an agent that is no longer recorded as a holder is a ReadOwn (R405). -/
def Dev.effective (s : Dev) (t : LineTag) (kind : ReqKind) (by_ : ReqBy) : ReqKind :=
  if kind = .upgrade && !(((s.dirOf t).map DirEntry.agents).getD []).any (fun a => by_ = .agent a) then .readOwn else kind

/-- A home takes up a request on a line with no open transaction, under an epoch of its own: it answers at once, or snoops and leaves the
transaction open (R401, R404, R410). A lost directory entry is asked for of every caching agent (R396). -/
def Dev.takeUp (s : Dev) (t : LineTag) (kind0 : ReqKind) (by_ : ReqBy) (err : Nat) : Dev :=
  if kind0 = .rebuild then (s.setDir t none).openTxn t .rebuild (.die 0) .inv (List.finRange 10) false 0
  else
    let kind := s.effective t kind0 by_
    let d := s.dirOf t
    let fromO := d.any (fun e => e.st = .o)
    let (snoop, dest) := snoopPlan kind by_ d
    if dest.isEmpty then
      let (s, ep) := s.takeEpoch t
      s.finish t { epoch := ep, kind := kind, by_ := by_, awaiting := [], fromO := fromO, deadline := 0, errSymbols := err } false
    else s.openTxn t kind by_ snoop dest fromO err

/-- A request that has been held, or that finds its line free, is taken (R402). -/
def Dev.takeHeld (s : Dev) (x : Held) : Dev :=
  match x.what with
  | .request k b e => s.takeUp x.line k b e
  | .writeBack a data p => s.takeWriteBack x.line a data p
  | .evictClean a => s.takeEvictClean x.line a

/-- The open transaction of a line. -/
def Dev.txnOf (s : Dev) (t : LineTag) : Option Txn := Table.get none (s.hub (s.hubOf (tagLoc t))).txns t

/-- Change the open transaction of a line. -/
def Dev.setTxn (s : Dev) (t : LineTag) (x : Option Txn) : Dev :=
  s.modHub (s.hubOf (tagLoc t)) (fun h => { h with txns := Table.set none h.txns t x })

/-- The requests held at a line's home. -/
def Dev.heldOf (s : Dev) (t : LineTag) : List Held := (s.hub (s.hubOf (tagLoc t))).held

/-- Change the requests held at a line's home. -/
def Dev.setHeld (s : Dev) (t : LineTag) (l : List Held) : Dev := s.modHub (s.hubOf (tagLoc t)) (fun h => { h with held := l })

/-- The oldest held request that its home can take now: of a line that is not busy, or whose directory set has room again (R394, R402). -/
def Dev.nextHeld (s : Dev) (h : HubId) : Option Held := (s.hub h).held.find? (fun x => !s.lineBusy x.line)

/-- Held requests are taken in the order of their arrival, while any can be (R402). -/
def Dev.takeAllHeld (s : Dev) (h : HubId) : Nat → Dev
  | 0 => s
  | n + 1 =>
    match s.nextHeld h with
    | none => s
    | some x => ((s.modHub h (fun y => { y with held := removeFirst (· == x) y.held })).takeHeld x).takeAllHeld h n

/-- The transaction of a line closes with its request performed; what waited goes on. -/
def Dev.closeTxn (s : Dev) (t : LineTag) (x : Txn) (poisoned : Bool) : Dev :=
  let h := s.hubOf (tagLoc t)
  let s := (s.setTxn t none).finish t x poisoned
  s.takeAllHeld h ((s.hub h).held.length + 1)

/-- The agents with a request that waits for an entry of a hub's queue, ahead of an agent in the round robin (R426). A request that a unit
without a cache makes waits with its unit, behind them all. -/
def Dev.stalledAhead (s : Dev) (h : HubId) (by_ : Option Agent) : List Agent :=
  let x := s.hub h
  let waits := x.stalled.filter (fun a => s.mem.msgs.any (fun m => m.channel = 0 && m.agent = a && s.hubOf (tagLoc m.line) = h))
  let key (a : Agent) : Nat := (a.val + 9 - x.lastAgent) % 10
  waits.filter (fun a => match by_ with
    | some b => a ≠ b && (!waits.contains b || key a < key b)
    | none => true)

/-- Whether a request that a home must hold finds no entry of its queue of 1,024, those ahead of it served: it waits where it is, and is
counted (R425 to R427). -/
def Dev.queueFull (s : Dev) (t : LineTag) (by_ : Option Agent) : Bool :=
  s.lineBusy t && decide (1024 ≤ (s.heldOf t).length + (s.stalledAhead (s.hubOf (tagLoc t)) by_).length)

/-- A request waits for a home-queue entry. -/
def Dev.homeStall (s : Dev) (t : LineTag) (by_ : Option Agent) : Dev :=
  let h := s.hubOf (tagLoc t)
  (s.bump 8 0x112 (hubDie h) 1).modHub h (fun x => { x with
    stalled := if by_.all x.stalled.contains then x.stalled else x.stalled ++ by_.toList })

/-- A request that has waited for a home-queue entry has its turn (R426). -/
def Dev.homeTurn (s : Dev) (t : LineTag) (a : Agent) : Dev :=
  s.modHub (s.hubOf (tagLoc t)) (fun x =>
    if x.stalled.contains a then { x with stalled := x.stalled.filter (· ≠ a), lastAgent := a.val } else x)

/-- A request arrives at its home (R402): it is taken up, or waits behind the open transaction and the earlier requests of its line. -/
def Dev.arrive (s : Dev) (t : LineTag) (what : HeldKind) : Dev :=
  if s.lineBusy t then s.setHeld t (s.heldOf t ++ [⟨t, what⟩]) else s.takeHeld ⟨t, what⟩

/-- Whether a request names a line of DRAM, with the key bits clear where its realm flag is (R43, R46). -/
def okLine (t : LineTag) : Bool := tagDram t && (tagRealm t || tagSlot t = 0)

/-- Set an agent's outstanding request on a line. -/
def Dev.setWaiting (s : Dev) (a : Agent) (t : LineTag) (w : Option Waiting) : Dev :=
  s.modAgent a (fun x => { x with waiting := Table.set none x.waiting t w })

/-- The request that asks a home for what an agent waits for (R403). -/
def Waiting.request (w : Waiting) (a : Agent) (t : LineTag) : Msg :=
  match w with
  | .forShared _ => .readShared a t
  | .forOwn .. => .readOwn a t
  | .forClaim _ => .writeClaim a t
  | .forUpgrade .. => .upgrade a t

/-- A miss or upgrade goes to the line's home, or waits for a request entry behind the local requests that wait already (R403, R425 to R427).
An Upgrade is no miss of the L2. -/
def Dev.ask (s : Dev) (a : Agent) (t : LineTag) (w : Waiting) : Dev :=
  if (s.agent a).parked.any (fun e => e.1 = t) then s
  else match s.takeEntry a localNo t with
    | (s, false) => s.modAgent a (fun x => { x with parked := x.parked ++ [(t, w)] })
    | (s, true) =>
      let miss : Bool := match w with
        | .forUpgrade .. => false
        | _ => true
      let s := if miss && a.val < 8 then s.bump 8 0x101 a.val 1 else s
      (s.setWaiting a t (some w)).send (w.request a t)

/-- An outstanding request has been answered: its entry is free, and a local request that waited takes it (R331, R426). -/
def Dev.answered (s : Dev) (a : Agent) (t : LineTag) : Dev :=
  let s := s.setWaiting a t none
  match (s.agent a).parked with
  | [] => s
  | (u, w) :: rest =>
    let s := s.modAgent a (fun x => { x with parked := rest })
    if (s.waitingAt a u).isSome then s else s.ask a u w

/-- A core takes an access fault (R416). -/
def Dev.coreFault (s : Dev) (a : Agent) : Dev := if 8 ≤ a.val then { s with reply := some .accessError } else s

/-- The die of a caching agent: 0 to 7 the compute dies, 8 and 9 the processor dies (R23, R395). -/
def agentDie (a : Agent) : Die := ⟨a.val, by omega⟩

/-- The die a request comes from. -/
def ReqBy.onDie : ReqBy → Die
  | .agent a => agentDie a
  | .die d => d

/-- An access error for a plain request that names no line of DRAM or has key bits set (R44, R46): an engine's is reported to the fault service,
and a core takes its access fault. -/
def Dev.plainError (s : Dev) (d : Die) (core : Bool) (t : LineTag) : Dev :=
  if core then { s with reply := some .accessError } else s.report d { kind := 2, cls := .fault, addr := tagPa t, realm := tagRealm t, detail := 3 }

/-- Whether a requester is a core's cache, or a processor die. -/
def ReqBy.isCore : ReqBy → Bool
  | .agent a => 8 ≤ a.val
  | .die d => d.val = 8 || d.val = 9

/-- An access error for a request that waits at a home (R528, R538): its requester waits no longer, and a core takes the error. -/
def Dev.accessErrorTo (s : Dev) (t : LineTag) (by_ : ReqBy) : Dev :=
  match by_ with
  | .agent a =>
    (s.answered a t).coreFault a
  | .die _ => s.answerDie by_ (.accessError t)

/-- Whether a requester can ask for a line: a core's request carries the realm flag clear, so that realm memory is out of its reach (R46, R527,
R535). -/
def okFor (core : Bool) (t : LineTag) : Bool := okLine t && !(core && tagRealm t)

/-- A request under a free realm is reported and counted (R528). -/
def Dev.reportFree (s : Dev) (t : LineTag) : Dev :=
  (s.report (s.homeDieOf t) { kind := 0x40, cls := .fault, addr := tagPa t, realm := true, detail := 5 + tagSlot t * 2 ^ 4 }).bump 6 0x302 0 1

/-- A request reaches its home: an access error for what is no line of DRAM, has key bits set with the realm flag clear, or is realm memory
that a core asks for (R44, R46, R527), under a free realm (R528), or under the old selection of a running SCRUB (R538); held while its line is yet to be written under the new one, or its
queue is full; else taken in. -/
def Dev.requestAt (s : Dev) (received : Dev → Dev) (t : LineTag) (k : ReqKind) (by_ : ReqBy) (err : Nat) : Dev :=
  if !okFor by_.isCore t then ((received s).plainError (by_.onDie) by_.isCore t).accessErrorTo t by_
  else if tagRealm t && !(s.realmAt (tagSlot t)).active then ((received s).reportFree t).accessErrorTo t by_
  else if (s.scrubbed (tagPa t) (tagRealm t)).1 then (received s).accessErrorTo t by_
  else if (s.scrubbed (tagPa t) (tagRealm t)).2 then s
  else if s.queueFull t by_.agents.head? then s.homeStall t by_.agents.head?
  else (by_.agents.foldl (fun s a => s.homeTurn t a) (received s)).arrive t (.request k by_ err)

/-- A request of a caching agent arrives. -/
def Dev.agentRequest (s : Dev) (m : Msg) (t : LineTag) (k : ReqKind) (a : Agent) (err : Nat) : Dev :=
  if s.behind m then s else s.requestAt (·.receive m) t k (.agent a) err

/-- READ_SHARED (R404). -/
def execReadShared (a : Agent) (t : LineTag) (err : Nat) (s : State) : Result :=
  s.run fun s => (s.agentRequest (.readShared a t) t .readShared a err)

/-- READ_OWN (R404). -/
def execReadOwn (a : Agent) (t : LineTag) (err : Nat) (s : State) : Result :=
  s.run fun s => (s.agentRequest (.readOwn a t) t .readOwn a err)

/-- WRITE_CLAIM (R404). -/
def execWriteClaim (a : Agent) (t : LineTag) (s : State) : Result :=
  s.run fun s => (s.agentRequest (.writeClaim a t) t .writeClaim a 0)

/-- UPGRADE (R404, R405). -/
def execUpgrade (a : Agent) (t : LineTag) (err : Nat) (s : State) : Result :=
  s.run fun s => (s.agentRequest (.upgrade a t) t .upgrade a err)

/-- READ_ONCE (R404). -/
def execReadOnce (d : Die) (t : LineTag) (err : Nat) (s : State) : Result :=
  s.run fun s => (s.requestAt id t .readOnce (.die d) err)

/-- WRITE_PUSH of bytes within one line (R381, R404, R415). -/
def execWritePush (d : Die) (t : LineTag) (off : Fin 128) (data : List Byte) (s : State) : Result :=
  s.run fun s => (if data ≠ [] && decide (off.val + data.length ≤ 128)
    then s.requestAt id t (.writePush off.val data) (.die d) 0 else s)

/-- ATOMIC_HOME, aligned to its size (R322, R404). -/
def execAtomicHome (d : Die) (t : LineTag) (off : Fin 128) (op : AtomicCode) (operand compare : U64) (s : State) : Result :=
  s.run fun s => (if off.val % atomicBytes op.val = 0
    then s.requestAt id t (.atomicHome off.val op operand compare) (.die d) 0 else s)

/-- A WriteBack or EvictClean arrives, once what its agent sent before it for the line has (R402, R546): it waits while a transaction is
open, until the response of a snoop to its sender at the latest. One under a free realm, or under the old selection of a running SCRUB, is an
access error, and what it carries is dropped (R528, R538). -/
def Dev.evictionAt (s : Dev) (m : Msg) (t : LineTag) (what : HeldKind) : Dev :=
  if !okLine t || s.behind m then s
  else if tagRealm t && !(s.realmAt (tagSlot t)).active then (s.receive m).reportFree t
  else if (s.scrubbed (tagPa t) (tagRealm t)).1 then s.receive m
  else if s.queueFull t (some m.agent) then s.homeStall t (some m.agent)
  else ((s.receive m).homeTurn t m.agent).arrive t what

/-- WRITE_BACK (R402, R404, R405). -/
def execWriteBack (a : Agent) (t : LineTag) (data : List Byte) (poison : Bool) (s : State) : Result :=
  s.run fun s => (if data.length = 128 then s.evictionAt (.writeBack a t data poison) t (.writeBack a data poison) else s)

/-- EVICT_CLEAN (R402, R404, R405). -/
def execEvictClean (a : Agent) (t : LineTag) (s : State) : Result :=
  s.run fun s => (s.evictionAt (.evictClean a t) t (.evictClean a))

/-- A held WriteBack or EvictClean of an agent is taken once the response of the snoop to that agent has been (R402). -/
def Dev.releaseFrom (s : Dev) (t : LineTag) (a : Agent) : Dev :=
  match (s.heldOf t).find? (fun x => x.line = t && (match x.what with
      | .writeBack b _ _ => b = a
      | .evictClean b => b = a
      | .request .. => false)) with
  | none => s
  | some x => (s.setHeld t (removeFirst (· == x) (s.heldOf t))).takeHeld x

/-- What a snoop of a transaction's kind was (R404). -/
def ReqKind.snoop : ReqKind → SnoopKind
  | .readShared => .shared
  | .readOnce => .once
  | _ => .inv

/-- A snoop response arrives (R404, R406, R409, R413): what the answer leaves of the directory entry, where dirty data goes, and
the request performed once no answer is outstanding. -/
def Dev.respond (s : Dev) (t : LineTag) (a : Agent) (ep : Byte) (ans : OwnerAnswer) (data : Option (LineData × Bool)) : Dev :=
  let late : Dev := s.bump 8 0x117 (hubDie (s.hubOf (tagLoc t))) 1
  match s.txnOf t with
  | none => late
  | some x =>
    if x.epoch ≠ ep || !x.awaiting.contains a then late
    else
      let k := x.kind.snoop
      let wasOwner := s.recorded t a
      let gone := k = .inv || ans = .dirtyEvicting || (k = .shared && ans = .invalid)
      let s := if gone then s.dirRemove t a else s
      let s := match data with
        | some (d, p) => if ans = OwnerAnswer.dirtyEvicting || (ans = OwnerAnswer.dirty && k ≠ SnoopKind.once) then s.l3Put t d true p else s
        | none => s
      let x := { x with awaiting := x.awaiting.filter (· ≠ a) }
      let x := if wasOwner || data.isSome then { x with answer := ans, data := if data.isSome then data else x.data } else x
      let s := (s.setTxn t (some x)).releaseFrom t a
      if x.awaiting.isEmpty then s.closeTxn t x false else s

/-- A snoop response arrives, once what its agent sent before it for the line has (R546); its data is poisoned as the home has marked the line
since (R415). -/
def Dev.responseAt (s : Dev) (m : Msg) (t : LineTag) (a : Agent) (ep : Byte) (ans : OwnerAnswer) (data : Option (LineData × Bool)) : Dev :=
  if !okLine t || s.behind m then s
  else
    let whole := (s.mem.msgs.find? (fun y => y.bare == m)).any Msg.whole
    (s.receive m).respond t a ep ans (data.map (fun d => (d.1, s.markedBack t d.2 whole)))

/-- RSP_INVALID (R404, R413). -/
def execRspInvalid (a : Agent) (t : LineTag) (ep : Byte) (s : State) : Result :=
  s.run fun s => (s.responseAt (.rspInvalid a t ep) t a ep .invalid none)

/-- RSP_SHARED: the agent keeps a clean copy (R404, R413). -/
def execRspShared (a : Agent) (t : LineTag) (ep : Byte) (s : State) : Result :=
  s.run fun s => (s.responseAt (.rspShared a t ep) t a ep .clean none)

/-- RSP_DATA (R404, R406, R409, R413). -/
def execRspData (a : Agent) (t : LineTag) (ep : Byte) (data : List Byte) (dirty evicting poison : Bool) (s : State) : Result :=
  s.run fun s => (if data.length = 128 then
      s.responseAt (.rspData a t ep data dirty evicting poison) t a ep
        (if evicting then .dirtyEvicting else if dirty then .dirty else .clean) (some (data, poison))
    else s)

/-- A line is marked poisoned in its home's directory, L3 and DRAM (R396, R411). -/
def Dev.poisonHome (s : Dev) (t : LineTag) : Dev :=
  let s := s.bump 8 0x118 (hubDie (s.hubOf (tagLoc t))) 1
  let s := match s.dirOf t with
    | some d => s.setDir t (some { d with poison := true })
    | none => s
  let s := match s.l3Line t with
    | some l => s.setL3 t (some { l with poison := true })
    | none => s
  s.dramSetPoison t

/-- The mask of a list of agents (R483). -/
def agentMask (l : List Agent) : Nat := l.foldl (fun n a => n + 2 ^ a.val) 0

/-- The die a requester is on. -/
def ReqBy.dieNo : ReqBy → Nat
  | .agent a => a.val
  | .die d => d.val

/-- A home gives up waiting for the agents that have not answered, in the order of R411 (R411, R412). -/
def Dev.giveUp (s : Dev) (t : LineTag) (x : Txn) : Dev :=
  let h := s.hubOf (tagLoc t)
  let s := (s.bump 8 0x116 (hubDie h) 1).poisonHome t
  let s := x.awaiting.foldl (fun s a => s.dirRemove t a) s
  let (s, ep) := s.takeEpoch t
  let s := x.awaiting.foldl (fun s a => s.send (.snoop .inv a t ep)) s
  let mine : Option (LineData × Bool) := x.data.map (fun d => (d.1, true))
  let s := s.finish t { x with awaiting := [], data := mine, answer := if x.answer = .none then .invalid else x.answer } true
  let s := s.report (s.homeDieOf t)
    { kind := 0x12, cls := .deferred, addr := tagPa t, realm := tagRealm t,
      detail := agentMask x.awaiting + x.by_.dieNo * 2 ^ 16 + x.epoch.toNat * 2 ^ 24 }
  let s := s.setTxn t none
  s.takeAllHeld h ((s.hub h).held.length + 1)

/-- HOME_TIMEOUT: the timer of a line's open transaction expires (R411). -/
def execHomeTimeout (t : LineTag) (time : Instant) (s : State) : Result :=
  s.run fun s => (match s.txnOf t with
    | some x => if x.deadline ≤ (s.advance time).now.toNat then (s.advance time).giveUp t x else s
    | none => s)

/-- A local read (R337, R339, R403): a core that reads a poisoned line takes an access fault (R416). -/
def execLocalRead (a : Agent) (t : LineTag) (hint : Fin 16) (s : State) : Result :=
  s.run fun s => (
    if !okFor (decide (8 ≤ a.val)) t then s.plainError (agentDie a) (decide (8 ≤ a.val)) t
    else match s.lineAt a t with
      | some l => if l.poison then (s.touch a t l).coreFault a else s.touch a t l
      | none =>
        if (s.waitingAt a t).isSome then s
        else if (s.sideLine a t).isSome then
          (match s.promote a t hint.val with
            | some s => s
            | none => s.evbWait a)
        else match s.flightOf a t with
          | some f => s.joinFlight a localNo t f hint.val
          | none => s.ask a t (.forShared hint))

/-- A local write of part or all of a line (R338, R403); an atomic of a core on a poisoned line leaves it as it is (R416). -/
def Dev.localWrite (s : Dev) (a : Agent) (t : LineTag) (off : Nat) (data : List Byte) (full amo : Bool) : Dev :=
  if !okFor (decide (8 ≤ a.val)) t then s.plainError (agentDie a) (decide (8 ≤ a.val)) t
  else if (s.waitingAt a t).isSome then s
  else
    let upgrade (s : Dev) : Dev := s.ask a t (.forUpgrade off data amo)
    match s.lineAt a t with
    | some l =>
      if amo && l.poison && decide (8 ≤ a.val) then s.coreFault a
      else if l.st = .m || l.st = .e then
        let s := s.touch a t l
        s.setLine a t (some (writeInto a { l with use := s.mem.useTick } off data 0))
      else upgrade s
    | none =>
      if (s.sideLine a t).isSome then
        (match s.promote a t 0 with
          | some s => upgrade s
          | none => s.evbWait a)
      else match s.flightOf a t with
        | some f => s.joinFlight a localNo t f 0
        | none => if full then s.ask a t (.forClaim data) else s.ask a t (.forOwn off data amo)

/-- LOCAL_PARTIAL_WRITE: a write of part of a line, or the write of an atomic (R403). -/
def execLocalPartialWrite (a : Agent) (t : LineTag) (place : WritePlace) (data : List Byte) (s : State) : Result :=
  s.run fun s => (if data ≠ [] && decide (place.off.val + data.length ≤ 128) then s.localWrite a t place.off.val data false place.amo else s)

/-- LOCAL_FULL_WRITE: a write of all 128 bytes of a line (R403, R415). -/
def execLocalFullWrite (a : Agent) (t : LineTag) (data : List Byte) (s : State) : Result :=
  s.run fun s => (if data.length = 128 then s.localWrite a t 0 data true false else s)

/-- EVICTION of a line an agent holds and waits for nothing on (R403, R407). -/
def execEviction (a : Agent) (t : LineTag) (s : State) : Result :=
  s.run fun s => (match s.lineAt a t with
    | none => s
    | some l =>
      if (s.waitingAt a t).isSome || (s.agent a).pinned.any (fun e => e.1 = t) then s
      else if (l.st = .m || l.st = .o) && s.evbFull a t then s.evbWait a
      else s.evictLine a t l)

/-- A snoop reaches a caching agent: the cell of R403 for its state, an eviction-buffer entry (R408), and the side buffers of its
die (R340). -/
def Dev.snooped (s : Dev) (k : SnoopKind) (a : Agent) (t : LineTag) (ep : Byte) : Dev :=
  let s := s.dropSideOf t (if a.val < 8 then [a.val] else [])
  match s.lineAt a t with
  | some l =>
    let next : Option CacheLine := match k, l.st with
      | .inv, _ => none
      | .shared, .m => some { l with st := .o, written := 0 }
      | .shared, .e => some { l with st := .s }
      | _, _ => some l
    let s := s.setLine a t next
    match k, l.st with
    | _, .m | _, .o => s.send (.rspData a t ep l.data true false l.poison (wholeWritten a l.written))
    | .inv, _ => s.send (.rspInvalid a t ep)
    | _, .e => s.send (.rspData a t ep l.data false false l.poison)
    | _, .s => s.send (.rspShared a t ep)
  | none =>
    match Table.get none (s.agent a).evb t with
    | some e => s.send (.rspData a t ep e.data true true e.poison (wholeWritten a e.written))
    | none => s.send (.rspInvalid a t ep)

/-- A snoop arrives, once what its home sent before it on its channel for the line has (R546), and the line is not held by a statistics add of
the agent (R399). -/
def Dev.snoopAt (s : Dev) (k : SnoopKind) (a : Agent) (t : LineTag) (ep : Byte) : Dev :=
  if !okLine t || s.behind (.snoop k a t ep) || (s.agent a).pinned.any (fun e => e.1 = t) then s else (s.receive (.snoop k a t ep)).snooped k a t ep

/-- SNP_SHARED (R403, R408). -/
def execSnpShared (a : Agent) (t : LineTag) (ep : Byte) (s : State) : Result := s.run fun s => (s.snoopAt .shared a t ep)
/-- SNP_INV (R403, R408). -/
def execSnpInv (a : Agent) (t : LineTag) (ep : Byte) (s : State) : Result := s.run fun s => (s.snoopAt .inv a t ep)
/-- SNP_ONCE (R403, R408). -/
def execSnpOnce (a : Agent) (t : LineTag) (ep : Byte) (s : State) : Result := s.run fun s => (s.snoopAt .once a t ep)

/-- The state a grant gives a line (R403). -/
def grantState : Grant → Moesi
  | .e => .e
  | .s => .s
  | .m => .m

/-- The line that a completion gives its agent, what it waited for performed on it, and the hint of its place (R403). An atomic of a core
leaves a poisoned line as it is (R416). -/
def Waiting.fill (w : Waiting) (a : Agent) (l : CacheLine) : Nat × CacheLine :=
  let write (off : Nat) (d : List Byte) (amo : Bool) : CacheLine :=
    if l.st ≠ .m || (amo && l.poison && decide (8 ≤ a.val)) then l else writeInto a l off d 0
  match w with
  | .forShared h => (h.val, l)
  | .forClaim d => (0, writeInto a l 0 d 0)
  | .forOwn off d amo | .forUpgrade off d amo => (0, write off d amo)

/-- Whether a core waits for a line to perform an atomic on it. -/
def Waiting.isAmo : Waiting → Bool
  | .forOwn _ _ amo | .forUpgrade _ _ amo => amo
  | _ => false

/-- Whether a core waits for a line to read it. -/
def Waiting.isRead : Waiting → Bool
  | .forShared _ => true
  | _ => false

/-- COMPLETION_DATA (R403, R407, R389): the line enters the cache, or the fill waits for an eviction-buffer entry. A core that waits for a
poisoned line to read it, or for an atomic, takes an access fault (R416). -/
def execCompletionData (a : Agent) (t : LineTag) (g : Grant) (data : List Byte) (poison : Bool) (s : State) : Result :=
  s.run fun s => (
    let m : Msg := .data a t 0 g data poison
    match s.waitingAt a t with
    | none => s
    | some w =>
      if data.length ≠ 128 || s.behind m then s
      else
        let (hint, l) := w.fill a { st := grantState g, data := data, poison := poison, use := 0 }
        match s.place! a t l hint with
        | none => s.evbWait a
        | some s =>
          let s := (s.receive m).answered a t
          if poison && (w.isAmo || w.isRead) then s.coreFault a else s)

/-- COMPLETION_ACK (R403, R411, R415): ownership without data, or the answer to an eviction, which changes nothing (R405, R550). Where an
Upgrade's line has been lost to a parity error meanwhile, it is fetched again, by ReadOwn (R396). -/
def execCompletionAck (a : Agent) (t : LineTag) (poison : Bool) (s : State) : Result :=
  s.run fun s => (
    let m : Msg := .ack a t 0 poison
    if !s.behind (.evictAck a t 0) && s.mem.msgs.any (fun x => x.bare == Msg.evictAck a t 0) then s.receive (.evictAck a t 0)
    else if s.behind m then s
    else match s.waitingAt a t with
    | some (.forClaim d) =>
      (match s.place! a t (writeInto a { st := .m, data := zeroLine, poison := poison, use := 0 } 0 d 0) 0 with
        | none => s.evbWait a
        | some s => (s.receive m).answered a t)
    | some (.forUpgrade off d amo) =>
      (match s.lineAt a t with
        | some l =>
          let (s, n) := ((s.receive m).answered a t).stamp
          let (_, l) := (Waiting.forUpgrade off d amo).fill a { l with st := .m, written := if l.st = .m then l.written else 0, use := n, poison := l.poison || poison }
          let s := s.setLine a t (some l)
          if amo && l.poison then s.coreFault a else s
        | none => ((s.receive m).setWaiting a t (some (.forOwn off d amo))).send (.readOwn a t))
    | _ => s)

/-- WB_ACK frees the eviction-buffer entry (R407). -/
def execWbAck (a : Agent) (t : LineTag) (s : State) : Result :=
  s.run fun s => (if s.behind (.wbAck a t 0) then s else s.evictionAnswered (.wbAck a t 0))

/-- WB_SUPERSEDED frees the eviction-buffer entry and is counted (R405, R407). -/
def execWbSuperseded (a : Agent) (t : LineTag) (s : State) : Result :=
  s.run fun s => (if s.behind (.wbSuperseded a t 0) then s else s.evictionAnswered (.wbSuperseded a t 0))

/-- WCB_DRAIN of a line whose time has come: 2 µs after its first write, or the oldest line of a full buffer (R383, R385). -/
def execWcbDrain (t : LineTag) (err : Nat) (s : State) : Result :=
  s.run fun s => (
    match s.wcbLine t with
    | none => s
    | some w =>
      let h := s.hub (s.hubOf (tagLoc t))
      let aged := w.since.toNat + 2000 ≤ s.now.toNat
      let oldest := 512 ≤ (present h.wcb).length && (oldestWcb h).any (fun e => e.1 = t)
      if aged || oldest then
        s.wcbDrain t (some err) (if aged then 0x112 else 0x113)
      else s)

/-- The line at a position of a hub's scrub pass: the inverse of R371, stack by stack within each index. -/
def Dev.scrubLine (s : Dev) (h : HubId) (pos : Nat) : LineTag :=
  let p := s.poolGib * 2 ^ 30
  let u := 2 ^ 41 - 4 * p
  let st := pos % 4
  let i := pos / 4
  let line := i % 32
  if i < u / 16 / 128 then
    let q := i / 32
    ((q * 16 + Nat.xor (4 * h.val + st) (q % 16)) * 4096 + line * 128) / 128
  else
    let q := (i - u / 16 / 128) / 32
    (u + h.val * p + (q * 4 + Nat.xor st (q % 4)) * 4096 + line * 128) / 128

/-- PATROL_SCRUB: the hub's scrubber reads the next line of its four stacks (R379); a whole pass is counted for each stack. -/
def execPatrolScrub (h : HubId) (err : Nat) (s : State) : Result :=
  s.run fun s => (
    let pos := (s.hub h).scrubPos
    let t := s.scrubLine h pos
    let s := (s.dramRead t (some err) 1).1
    let done := 2 ^ 32 ≤ pos + 1
    let s := s.modHub h (fun y => { y with scrubPos := if done then 0 else pos + 1 })
    if done then (List.range 4).foldl (fun s i => s.bump 7 0x105 (4 * h.val + i) 1) s else s)

/-- A clean line that its cache has lost is fetched again coherently (R396); where an Upgrade for it is on its way, once that is answered. -/
def Dev.refetch (s : Dev) (a : Agent) (t : LineTag) (l : CacheLine) : Dev :=
  let s := s.setLine a t none
  s.ask a t (.forShared (if l.retained then 2 else 0))

/-- PARITY_ERROR (R396). -/
def execParityError (ev : ParityEvent) (s : State) : Result :=
  s.run fun s => (
    match ev with
    | .dataL2 a t =>
      (match s.lineAt a t with
        | none => s
        | some l =>
          if l.st = .e || l.st = .s then
            let s := if a.val < 8 then s.bump 8 0x103 a.val 1 else s
            if (s.waitingAt a t).isSome then s.setLine a t none else s.refetch a t l
          else
            let s := if a.val < 8 then s.bump 8 0x104 a.val 1 else s
            ((s.setLine a t (some { l with poison := true, written := 0 })).poisonHome t).report (agentDie a)
              { kind := 0x11, cls := .deferred, addr := tagPa t, realm := tagRealm t, detail := if a.val < 8 then 0 else 1 })
    | .dataL3 t =>
      (match s.l3Line t with
        | none => s
        | some l =>
          let h := s.hubOf (tagLoc t)
          if !l.dirty then ((s.bump 8 0x113 (hubDie h) 1).setL3 t none).homeRead t none |>.1
          else ((s.bump 8 0x114 (hubDie h) 1).poisonHome t).report ⟨(10 + h.val) % 20, Nat.mod_lt _ (by decide)⟩
            { kind := 0x11, cls := .deferred, addr := tagPa t, realm := tagRealm t, detail := 2 })
    | .tagCorrected _ => s.modMem (fun m => { m with tagsCorrected := m.tagsCorrected + 1 })
    | .tagUncorrectable d t => s.report d { kind := 0x14, cls := .fatal, addr := tagPa t }
    | .directoryLost t =>
      if !okLine t then s else if s.queueFull t none then s.homeStall t none else s.arrive t (.request .rebuild (.die 0) 0))

/-- Whether the module is in the bring-up state (R709, R711). -/
def Dev.bringUp (s : Dev) : Bool := s.objAt 0x0C 0x400 0 = 3

/-- MARGIN_RUN: a write of margin_run (R386). -/
def execMarginRun (v : Byte) (s : State) : Result :=
  s.run fun s => (if !s.bringUp then s.setObjAt 7 0x303 0 3 else if v = 1 then s.setObjAt 7 0x303 0 1 else s)

/-- MARGIN_SWEEP_DONE: the sweep that runs ends with the edges of 18 pins (R387). It has overwritten its channel with patterns that the
spec does not state, so that DRAM reads as free values until step 9 of R709 zeroes it (log entry 37). -/
def execMarginSweepDone (edges : List (Int × Int)) (s : State) : Result :=
  s.run fun s => (
    if s.objAt 7 0x303 0 = 1 && edges.length = 18 then
      let (s, n) := s.freshNat
      (s.modMem (fun m => { m with margin := edges, dram := [], dramKey := [], initKey := n + 1, dramPoison := [] })).setObjAt 7 0x303 0 2
    else s)

end Sys2Proof.Machine
end

