-- ==== Sys2Proof/Machine/Fabric.lean ====
section
/-! DEFINITION. Machine/Fabric.lean: die-to-die connections, their retry and their loss, the time base between modules, and the flit
layer of the optical links (R542 to R565). -/

namespace Sys2Proof.Machine

/-- An acknowledgement frees a port's replay buffer up to a flit (R549). -/
def D2dPort.ack (x : D2dPort) (a : BitVec 12) : D2dPort :=
  let covered := (a - x.nakSeq).toNat < 2048
  { x with
    acked := a, firstNak := if covered then none else x.firstNak, replays := if covered then 0 else x.replays,
    flits := x.flits.filter (fun e => 2048 ≤ (a - e.1).toNat) }

/-- Credits that a flit returns (R543, R544). -/
def D2dPort.credit (x : D2dPort) (l : List Byte) : D2dPort :=
  { x with used := (List.range 6).foldl (fun u c => Table.set 0 u c (Table.get 0 u c - (l.getD c 0).toNat)) x.used }

/-- The messages that wait at a port of a die, in their order (R547, R551). -/
def Dev.atPort (s : Dev) (die port : Nat) : List Carried :=
  s.mem.carried.filter (fun c => c.at_ = die && s.routePort die c.dst c.line = some port)

/-- The virtual channel that a port serves next, of those with a message that is ready (R545): 0x4 first, a debug message that has waited
for 64 flits, then 0x0 to 0x3 in round-robin order, and 0x5 where no other has one. -/
def D2dPort.pick (x : D2dPort) (ready : Nat → Bool) : Option Nat :=
  if ready 4 then some 4
  else if 64 ≤ x.debugWait && ready 5 then some 5
  else ([x.lastChannel + 1, x.lastChannel + 2, x.lastChannel + 3, x.lastChannel + 4].map (· % 4) ++ [5]).find? ready

/-- The messages that the next flit of a port takes: at most two headers and one data field, each with a credit of its channel (R543 to
R545). -/
def D2dPort.fill (x : D2dPort) : Nat → Bool → List Carried → D2dPort × List Carried
  | 0, _, _ => (x, [])
  | n + 1, room, l =>
    let first (c : Nat) : Option Carried := l.find? (fun e => e.channel = c)
    match x.pick (fun c => x.hasCredit c && (first c).any (fun e => room || !e.hasData)) with
    | none => (x, [])
    | some c =>
      match first c with
      | none => (x, [])
      | some e =>
        let y := { x with
          used := Table.set 0 x.used c (Table.get 0 x.used c + 1), lastChannel := if c < 4 then c else x.lastChannel
          debugWait := if c = 5 then 0 else x.debugWait }
        let (y, r) := y.fill n (room && !e.hasData) (removeFirst (· == e) l)
        (y, e :: r)

/-- A port sends its next flit: the messages it takes leave their die for the connection, and stand in the replay buffer. The bytes of its data
field are counted, and a message that waits for credit (R428, R542, R545, R549; log entry 85). -/
def Dev.sendFlit (s : Dev) (die port : Nat) (seq : BitVec 12) : Dev :=
  let x := s.port die port
  let l := s.atPort die port
  if 256 ≤ x.flits.length then s
  else
    let (y, out) := x.fill 2 true l
    let left := l.filter (fun e => !out.contains e)
    let s := s.modPort die port (fun _ => { y with
      sent := seq, flits := y.flits ++ [(seq, out)], debugWait := if left.any (fun e => e.channel = 5) then y.debugWait + 1 else y.debugWait })
    let s := s.modMem (fun m => { m with carried := out.foldl (fun l e => removeFirst (· == e) l) m.carried })
    let s := s.bump 9 0x201 (8 * die + port) 128
    if left.any (fun e => !y.hasCredit e.channel) then s.bump 9 0x200 (8 * die + port) 1 else s

/-- A message reaches a die: its own, where a notice is taken once, or another's, from which it goes on (R546, R547, R550). -/
def Dev.reach (s : Dev) (die : Nat) (c : Carried) : Dev :=
  if c.dst ≠ die then s.modMem (fun m => { m with carried := m.carried ++ [{ c with at_ := die }] })
  else match c.what with
    | .msg _ => s
    | .notice conn seq =>
      if s.fab.syncSeen.contains (die, c.src, seq) then s
      else s.modFab (fun f => { f with
        syncSeen := f.syncSeen ++ [(die, c.src, seq)], told := Table.set 0 f.told die (Nat.lor (Table.get 0 f.told die) (2 ^ conn)) })

/-- The mask of the connections that are down. -/
def Dev.downMask (s : Dev) : Nat := (List.range 32).foldl (fun m c => if s.connUp c then m else m + 2 ^ c) 0

/-- The first message of a kind that is on its way is lost. -/
def Dev.dropMsgs (s : Dev) (p : Msg → Bool) : Dev :=
  s.modMem (fun y => { y with
    msgs := removeFirst p y.msgs
    carried := removeFirst (fun c => match c.what with
      | .msg m => p m
      | .notice .. => false) y.carried })

/-- The home of a line whose snoop of an agent, or the response to it, is lost: it acts as at its timeout, at once (R412, R550). -/
def Dev.snoopLost (s : Dev) (t : LineTag) (a : Agent) (ep : Byte) : Dev :=
  match s.txnOf t with
  | some x => if x.awaiting.contains a && x.epoch = ep then s.giveUp t x else s
  | none => s

/-- What becomes of a message of a transaction that was in the replay buffer of a connection that goes down (R550, R412): a request is answered
with a completion marked poison, an eviction too, whose buffer entry then keeps the line (R407); a completion is sent again marked poison,
under its own epoch (R401). -/
def Dev.loseMsg (s : Dev) (m : Msg) : Dev :=
  let s := s.dropMsgs (· == m)
  match m with
  | .readShared a t => s.send (.data a t 0 .s zeroLine true)
  | .readOwn a t => s.send (.data a t 0 .m zeroLine true)
  | .writeClaim a t | .upgrade a t => s.send (.ack a t 0 true)
  | .writeBack a t _ _ | .evictClean a t => s.send (.evictAck a t 0 true)
  | .snoop _ a t ep | .rspInvalid a t ep | .rspShared a t ep | .rspData a t ep _ _ _ _ _ => s.snoopLost t a ep
  | .data a t ep g _ _ => s.send (.data a t ep g zeroLine true)
  | .ack a t ep _ => s.send (.ack a t ep true)
  | .evictAck a t ep _ => s.send (.evictAck a t ep true)
  | .wbAck a t ep => s.send (.wbAck a t ep)
  | .wbSuperseded a t ep => s.send (.wbSuperseded a t ep)

/-- The virtual channel of a lost message, and the agent and line it is of. -/
def LostMessage.of (m : LostMessage) : Option (Nat × Agent × LineTag) :=
  match m with
  | .request a t => some (0, a, t)
  | .snoop t a => some (1, a, t)
  | .snoopResponse t a => some (2, a, t)
  | .completion a t _ => some (3, a, t)
  | .sync | .debug => none

/-- What becomes of a lost message that CONNECTION_DOWN names (R550): the oldest such one on its way. One of virtual channel 0x4 is resent by
another path; a debug message is answered to its requester with an error. -/
def Dev.loseMessage (s : Dev) (m : LostMessage) : Dev :=
  match m with
  | .sync => s
  | .debug => s.modFab (fun f => { f with debugErrors := f.debugErrors + 1 })
  | m =>
    match (LostMessage.of m).bind (fun k => s.mem.msgs.find? (fun x => x.channel = k.1 && x.agent = k.2.1 && x.line = k.2.2)) with
    | some x => s.loseMsg x
    | none => match m with
      | .snoop t a | .snoopResponse t a => (s.txnOf t).elim s (fun x => s.snoopLost t a x.epoch)
      | _ => s

/-- The dies that connections down leave without a path to the larger part of the package. -/
def isolatedDies (down : Nat) : List Nat :=
  let parts := (List.range 20).map (fun d => reach down 20 (2 ^ d))
  let size (m : Nat) : Nat := (List.range 20).countP (bit m)
  let main := parts.foldl (fun best m => if size best < size m then m else best) 0
  (List.range 20).filter (fun d => !bit main d)

/-- The messages in a port's replay buffer have their outcomes, those of virtual channel 0x4 another path (R550). -/
def Dev.loseFlits (s : Dev) (die port : Nat) : Dev :=
  let l := ((s.port die port).flits.map Prod.snd).flatten
  let s := s.modPort die port (fun x => { x with flits := [] })
  l.foldl (fun s c => match c.what with
    | .msg m => if s.mem.msgs.contains m then s.loseMsg m else s
    | .notice .. => s.modMem (fun y => { y with carried := y.carried ++ [{ c with at_ := die }] })) s

/-- A die floods the notice of a connection down to every other, under its next sequence number of virtual channel 0x4 (R550). -/
def Dev.flood (s : Dev) (die conn : Nat) : Dev :=
  let n := Table.get 0 s.fab.syncSent die + 1
  let s := s.modFab (fun f => { f with
    syncSent := Table.set 0 f.syncSent die n, told := Table.set 0 f.told die (Nat.lor (Table.get 0 f.told die) (2 ^ conn)) })
  s.modMem (fun y => { y with
    carried := y.carried ++ ((List.range 20).filter (· ≠ die)).map (fun d => ⟨.notice conn n, die, d, die⟩) })

/-- A connection that is up goes down: by its replays or by the time bound, with the messages that were lost elsewhere than in its replay
buffers (R549, R550, R552, R571). -/
def Dev.connectionDown (s : Dev) (c : Nat) (byReplays : Bool) (lost : List LostMessage) : Dev :=
  if !s.connUp c then s
  else
    let before := isolatedDies s.downMask
    let s := s.setObjAt 9 0x101 c 1
    let e := connEnds.getD c ((0, 0), 0, 0)
    let die : Die := ⟨e.1.1 % 20, Nat.mod_lt _ (by decide)⟩
    let buffered (d p : Nat) : Nat := ((s.port d p).flits.map (fun f => f.2.length)).foldl (· + ·) 0
    let s := s.report die {
      kind := 0x20, cls := .corrected, addr := 0, count := lost.length + buffered e.1.1 e.1.2 + buffered e.2.1 e.2.2, detail := c + b2n byReplays * 2 ^ 8 }
    let s := lost.foldl (fun s m => s.loseMessage m) s
    let s := (s.loseFlits e.1.1 e.1.2).loseFlits e.2.1 e.2.2
    let s := (s.flood e.1.1 c).flood e.2.1 c
    let s := s.modFab (fun x => { x with routeStale := true })
    let cut := (isolatedDies s.downMask).filter (fun d => !before.contains d)
    cut.foldl (fun s d =>
      let die : Die := ⟨d % 20, Nat.mod_lt _ (by decide)⟩
      (s.modFab (fun x => { x with isolated := x.isolated ++ [die] })).report 18 { kind := 0x24, cls := .fatal, addr := 0, detail := d }) s

/-- CONNECTION_DOWN (R549, R550, R552, R571). -/
def execConnectionDown (c : ConnId) (byReplays : Bool) (lost : List LostMessage) (s : State) : Result :=
  s.run fun s => s.connectionDown c.val byReplays lost

/-- A connection whose bound has passed goes down: 1 µs of package time since the first NAK for a flit that is not acknowledged (R549, R571). -/
def Dev.portBound (s : Dev) (die port c : Nat) : Dev :=
  if (s.port die port).firstNak.any (fun t => decide (t.toNat + 1000 ≤ s.now.toNat)) then
    (s.modPort die port (fun x => { x with failed := true })).connectionDown c false []
  else s

/-- A NAK at the port that sends: every unacknowledged flit from the one after `ack` is sent again, and counted (R549). A seventeenth
replay of one flit, or one later than 1 µs after its first NAK, exhausts the bound, and the connection goes down (R571). -/
def Dev.portNak (s : Dev) (die port : Nat) (ack : BitVec 12) : Dev :=
  match connOf die port with
  | none => s
  | some (c, _) =>
    if !s.connUp c then s
    else
      let x := s.port die port
      let n := (x.sent - ack).toNat
      let next := ack + 1
      if n = 0 || 256 < n then s
      else
        let again := x.firstNak.isSome && x.nakSeq = next
        let x := { x with
          acked := ack, nakSeq := next, firstNak := if again then x.firstNak else some s.now, replays := if again then x.replays + 1 else 1 }
        let s := s.modPort die port (fun _ => x)
        if 17 ≤ x.replays then (s.modPort die port (fun x => { x with failed := true })).connectionDown c true []
        else (s.bump 9 0x102 c n).portBound die port c

/-- The control field of a die-to-die flit below its CRC, as a number (R543). -/
def flitControl (f : D2dFlit) : Nat :=
  f.hdr0.toNat + f.hdr1.toNat * 2 ^ 64 + f.reserved.toNat * 2 ^ 128 + leNat f.credits % 2 ^ 48 * 2 ^ 144 + f.dvc.val * 2 ^ 192 + f.kind.val * 2 ^ 196
    + f.ack.toNat * 2 ^ 200 + f.seq.toNat * 2 ^ 212

/-- Whether a die-to-die flit's CRC holds: over its data field and bits [223:0] of its control field, the lowest byte first (R543; DESIGN CHOICE, log
entry 47: the order of the bytes). -/
def d2dCrcOk (f : D2dFlit) : Bool := crc32c (f.data ++ leBytes 28 (flitControl f)) = f.crc.toNat

/-- FLIT_RECEIVE (R543, R548): the flit as its receiver sees it. A normal flit that has not been sent before takes the messages its sender
chooses now, if it has room for one more in its replay buffer; in order, it brings them to the receiver. The bits of its headers and data field
are as R543 gives them, whose layout of a message header is not stated (log entry 47). -/
def execFlitReceive (die : Die) (port : Fin 6) (f : D2dFlit) (s : State) : Result :=
  s.run fun s => (
    match connOf die.val port.val with
    | none => s
    | some (c, d', p') =>
      if !s.connUp c || 3 ≤ f.kind.val then s
      else
        let known := (s.port d' p').flits.any (fun e => e.1 = f.seq)
        if f.kind.val = 1 && !known && 256 ≤ (s.port d' p').flits.length then s
        else
          let s := if f.kind.val = 1 && !known then s.sendFlit d' p' f.seq else s
          let x := s.port die.val port.val
          if !d2dCrcOk f then
            (s.bump 9 0x103 c 1).modPort die.val port.val (fun x => { x with discarding := true, nakOut := some (x.rxNext - 1) })
          else if f.kind.val = 1 then
            if f.seq = x.rxNext then
              let s := s.modPort die.val port.val (fun x => { (x.ack f.ack).credit f.credits with rxNext := f.seq + 1, discarding := false, nakOut := none })
              (((s.port d' p').flits.find? (fun e => e.1 = f.seq)).map Prod.snd).getD [] |>.foldl (fun s e => s.reach die.val e) s
            else s
          else if x.discarding then s
          else
            let s := s.modPort die.val port.val (fun x => x.credit f.credits)
            if f.kind.val = 2 then s.portNak die.val port.val f.ack else s.modPort die.val port.val (fun x => x.ack f.ack))

/-- FLIT_NAK (R549). -/
def execFlitNak (die : Die) (port : Fin 6) (ack : BitVec 12) (s : State) : Result := s.run fun s => (s.portNak die.val port.val ack)

/-- ROUTE_LOAD (R551): the management controller loads new route sets into every die. -/
def execRouteLoad (s : State) : Result := s.run fun s => (s.modFab (fun x => { x with routes := s.downMask, routeStale := false }))

/-- A link. -/
def Dev.link (s : Dev) (l : LinkId) : Link := s.fab.links[l]
/-- Put a link. -/
def Dev.setLink (s : Dev) (l : LinkId) (x : Link) : Dev := s.modFab (fun f => { f with links := f.links.set l x l.isLt })
/-- Change a link. -/
def Dev.modLink (s : Dev) (l : LinkId) (f : Link → Link) : Dev := s.setLink l (f (s.link l))
/-- Whether a link is up (R606). -/
def Dev.linkUp (s : Dev) (l : LinkId) : Bool := s.objAt 0x0A 0x100 l.val = 2
/-- A link number as a link. -/
def linkId (n : Nat) : LinkId := ⟨n % 32, Nat.mod_lt _ (by decide)⟩

/-- A link's state changes, which is an event (R606, R677). -/
def Dev.setLinkState (s : Dev) (l : LinkId) (v : Nat) : Dev :=
  if s.objAt 0x0A 0x100 l.val = v then s else (s.setObjAt 0x0A 0x100 l.val v).event 5 (l.val + v * 256)

/-- The 32 header bytes of a packet (R566). -/
def packetHeader (p : Packet) : List Byte :=
  leBytes 4 p.aux1.toNat
    ++ leBytes 4 (p.aux0.toNat % 2 ^ 24 + p.dst.toNat % 256 * 2 ^ 24)
    ++ leBytes 8 (p.dst.toNat / 256 % 256 + p.src.toNat * 2 ^ 8 + p.pkey.toNat * 2 ^ 24 + p.hops.toNat * 2 ^ 36 + p.tc.toNat * 2 ^ 40
      + p.ptype.toNat * 2 ^ 42 + p.payload.length * 2 ^ 48)
    ++ leBytes 8 (p.epoch.toNat * 2 ^ 8 + p.flow.toNat * 2 ^ 16 + p.psn.toNat * 2 ^ 32)
    ++ leBytes 8 p.offset.toNat

/-- A packet from the bytes of its flits (R566); none where they are shorter than its header and length say. -/
def parsePacket (b : List Byte) : Option Packet :=
  let h := leNat (b.take 32)
  let n := bits h 127 112
  if b.length < 32 + n || 4096 < n then none
  else some {
    ptype := BitVec.ofNat 6 (bits h 111 106), tc := BitVec.ofNat 2 (bits h 105 104), hops := BitVec.ofNat 4 (bits h 103 100),
    pkey := BitVec.ofNat 12 (bits h 99 88), src := BitVec.ofNat 16 (bits h 87 72), dst := BitVec.ofNat 16 (bits h 71 56),
    flow := BitVec.ofNat 16 (bits h 159 144), epoch := BitVec.ofNat 8 (bits h 143 136), psn := BitVec.ofNat 32 (bits h 191 160),
    offset := BitVec.ofNat 64 (bits h 255 192), aux0 := BitVec.ofNat 24 (bits h 55 32), aux1 := BitVec.ofNat 32 (bits h 31 0),
    payload := (b.drop 32).take n }

/-- The first 252 bytes of a link flit, which its CRC covers: its header and its payload (R561). -/
def flitBytes (f : LinkFlit) : List Byte :=
  leBytes 8 (f.fill.toNat + b2n f.eop * 2 ^ 10 + b2n f.sop * 2 ^ 11 + f.tc.toNat * 2 ^ 12 + f.crd.toNat * 2 ^ 14 + f.crdTc.toNat * 2 ^ 26
    + f.ack.toNat * 2 ^ 28 + f.seq.toNat * 2 ^ 44 + f.kind.val * 2 ^ 60) ++ f.payload.take 244

/-- Whether a link flit's CRC holds (R543, R561). -/
def flitCrcOk (f : LinkFlit) : Bool := crc32c (flitBytes f) = f.crc.toNat

/-- The payload bytes that a link flit uses (R561). -/
def flitUsed (f : LinkFlit) : List Byte := f.payload.take (min f.fill.toNat 244)

/-- The flits that a packet takes (R561, R566). -/
def packetFlits (p : Packet) : Nat := (32 + p.payload.length + 243) / 244

/-- The class whose credits a link returns next, and how many: the lowest that it owes any of (R561, R562). -/
def Link.credit (x : Link) : Nat × Nat :=
  match ([0, 1, 2, 3] : List Nat).find? (fun c => 0 < x.owed.getD c 0) with
  | some c => (c, min 4095 (x.owed.getD c 0))
  | none => (0, 0)

/-- A flit as a link forms it: with the acknowledgement and the credits it has to give, and its CRC (R561). -/
def Link.form (x : Link) (kind : Fin 16) (tc : Nat) (sop eop : Bool) (bytes : List Byte) : LinkFlit :=
  let f : LinkFlit := {
    crc := 0, kind := kind, seq := if kind = 1 then x.txNext else 0, ack := x.rxNext - 1, crdTc := BitVec.ofNat 2 x.credit.1
    crd := BitVec.ofNat 12 x.credit.2, tc := BitVec.ofNat 2 tc, sop := sop, eop := eop, fill := BitVec.ofNat 10 bytes.length
    payload := bytes ++ List.replicate (244 - bytes.length) 0 }
  { f with crc := BitVec.ofNat 32 (crc32c (flitBytes f)) }

/-- A flit leaves a link, and the credits with it. -/
def Link.put (x : Link) (f : LinkFlit) : Link :=
  { x with out := some f, owed := x.owed.set! x.credit.1 (x.owed.getD x.credit.1 0 - x.credit.2) }

/-- The next flit of a class leaves, if the link has a credit for it and room in its replay buffer of 4,096 flits: the next 244 bytes of the first
packet of its class; with its last flit a packet leaves the transmit queue (R561 to R564). -/
def Link.sendFlit (x : Link) (tc : Nat) : Option Link :=
  match x.queue.find? (fun p => p.tc.toNat = tc) with
  | none => none
  | some p =>
    if x.credits.getD tc 0 = 0 || 4096 ≤ (x.txNext - 1 - x.acked).toNat then none
    else
      let k := x.begun.getD tc 0
      let whole : Bool := packetFlits p ≤ k + 1
      let f := x.form 1 tc (k = 0) whole (((packetHeader p ++ p.payload).drop (244 * k)).take 244)
      let y := { x.put f with
        txNext := x.txNext + 1, credits := x.credits.set! tc (x.credits.getD tc 0 - 1),
        begun := x.begun.set! tc (if whole then 0 else k + 1), flits := x.flits ++ [f] }
      some (if whole then { y with queue := removeFirst (· == p) x.queue, sent := x.sent ++ [{ packet := p, last := x.txNext }] } else y)

/-- The traffic classes of a link in the order it serves them: 0 before any other, then 1 to 3 round robin after the one served last (R563). -/
def classOrder (last : Nat) : List Nat := 0 :: [last % 3 + 1, (last + 1) % 3 + 1, (last + 2) % 3 + 1]

/-- A link that is up sends its next data flit, of class 0 before any other and of the others in turn, and counts it (R563). -/
def Dev.sendOne (s : Dev) (l : LinkId) : Option Dev :=
  if !s.linkUp l then none
  else
    let last := Table.get 0 s.fab.lastClass l.val
    ((classOrder last).findSome? (fun c => ((s.link l).sendFlit c).map (fun y => (c, y)))).map (fun e =>
      ((s.setLink l e.2).modFab (fun f => { f with
        lastClass := Table.set 0 f.lastClass l.val (if e.1 = 0 then last else e.1) })).bump 0x0A 0x107 l.val 1)

/-- The links of an OX die, in the order that its engine serves them. -/
def oxLinks (ox : Nat) : List LinkId := (List.range 8).map (fun i => linkId (8 * ox + i))

/-- One turn of an OX die's link protocol engine: one flit of each of its links that has one (R560); and how many those were. -/
def Dev.linkTurn (s : Dev) (ox : Nat) : Dev × Nat :=
  (oxLinks ox).foldl (fun acc l => match acc.1.sendOne l with
    | some s => (s, acc.2 + 1)
    | none => acc) (s, 0)

/-- The engine takes its turns while a link has a flit that can leave (R560). -/
def Dev.linkTurns (s : Dev) (ox : Nat) : Nat → Dev
  | 0 => s
  | n + 1 => match s.linkTurn ox with
    | (s, 0) => s
    | (s, _) => s.linkTurns ox n

/-- Credits that a link owes and has no data flit for go back in idle flits (R561, R562). -/
def Link.idle (x : Link) : Nat → Link
  | 0 => x
  | n + 1 => if x.credit.2 = 0 then x else (x.put (x.form 0 0 false false [])).idle n

/-- A link and its neighbours on the OX die send what they can. -/
def Dev.pumpLink (s : Dev) (l : LinkId) : Dev :=
  let ox := l.val / 8
  let n := ((oxLinks ox).map (fun l => ((s.link l).queue.map packetFlits).foldl (· + ·) 0)).foldl (· + ·) 0
  let s := s.linkTurns ox n
  if s.linkUp l then s.modLink l (fun x => x.idle 4) else s

/-- A packet joins a link's transmit queue. -/
def Dev.sendLink (s : Dev) (l : LinkId) (p : Packet) : Dev := (s.modLink l (fun x => { x with queue := x.queue ++ [p] })).pumpLink l

/-- Whether a link has light: its OX die's laser module feeds it (R557, R728). -/
def Dev.lit (s : Dev) (l : LinkId) : Bool := s.objAt 0x0C 0x450 (l.val / 8) = 2

/-- A link begins to train: sequence numbers, credits and assembly start afresh (R558). -/
def Dev.trainLink (s : Dev) (l : LinkId) : Dev :=
  let s := s.modLink l (fun x => { history := x.history, queue := x.queue })
  if s.objAt 0x0A 0x101 l.val = 0 then s.setLinkState l 3 else if s.lit l then s.setLinkState l 1 else s.setLinkState l 4

/-- A retraining that a write asked for happens once the link is idle (R558, R572). -/
def Dev.retrainIdle (s : Dev) (l : LinkId) : Dev :=
  let x := s.link l
  if x.retrain && x.sent = [] && x.queue = [] then s.trainLink l else s

/-- An acknowledgement frees a link's replay buffer up to a flit (R564). -/
def Dev.linkAck (s : Dev) (l : LinkId) (a : U16) : Dev :=
  let s := s.modLink l (fun x =>
    { x with
      acked := a, sent := x.sent.filter (fun e => !decide ((a - e.last).toNat < 32768)),
      flits := x.flits.filter (fun f => !decide ((a - f.seq).toNat < 32768)),
      firstNak := if (a - x.nakSeq).toNat < 32768 then none else x.firstNak })
  s.retrainIdle l

/-- A NAK on a link: the unacknowledged data flits are sent again, and counted (R549, R564). -/
def Dev.linkNak (s : Dev) (l : LinkId) (ack : U16) : Dev :=
  if !s.linkUp l then s
  else
    let x := s.link l
    let n := (x.txNext - 1 - ack).toNat
    let s := s.linkAck l ack
    if n = 0 || 4096 < n then s
    else
      let next := ack + 1
      let s := s.modLink l (fun x =>
        if x.firstNak.isSome && x.nakSeq = next then x else { x with nakSeq := next, firstNak := some s.now })
      s.bump 0x0A 0x106 l.val n

/-- TIME_EXCHANGE (R555): a link sends a time frame and stamps it. -/
def execTimeExchange (l : LinkId) (s : State) : Result :=
  s.run fun s => (if s.linkUp l then s.modLink l (fun x => { x with t1 := s.now }) else s)

/-- The slope of the offsets over their times by least squares, in parts per 10^9 (R555). -/
def slopePpb (h : List (Int × Int)) : Int :=
  let n : Int := h.length
  let st := h.foldl (fun a e => a + e.1) 0
  let so := h.foldl (fun a e => a + e.2) 0
  let stt := h.foldl (fun a e => a + e.1 * e.1) 0
  let sto := h.foldl (fun a e => a + e.1 * e.2) 0
  let den := n * stt - st * st
  if den = 0 then 0 else (n * sto - st * so) * 1000000 / den

/-- The code of a signed number in w bits, held at the ends of its range. -/
def clampCode (w : Nat) (i : Int) : Nat :=
  let top : Int := (2 ^ (w - 1) : Nat)
  codeOf w (if i < -top then -top else if top - 1 < i then top - 1 else i)

/-- TIME_FRAME (R555): the neighbour's answer gives the offset and its slope over the last 64 exchanges. -/
def execTimeFrame (l : LinkId) (t1 t2 t3 t4 : U64) (s : State) : Result :=
  s.run fun s => (
    if !s.linkUp l then s
    else
      let a : Int := (t2.toNat : Int) - t1.toNat
      let b : Int := (t4.toNat : Int) - t3.toNat
      let off := (a - b) * 500
      let h := ((s.link l).history ++ [((t4.toNat : Int), off)])
      let h := h.drop (h.length - 64)
      let s := s.modLink l (fun x => { x with t1 := t1, history := h })
      ((s.setObjAt 0x0A 0x108 l.val (clampCode 64 off)).setObjAt 0x0A 0x109 l.val (clampCode 32 (slopePpb h))).setObjAt 0x0A 0x10A l.val t4.toNat)

/-- LINK_TRAINING_DONE (R558): both ends have exchanged device IDs. -/
def execLinkTrainingDone (l : LinkId) (neighbour : U16) (s : State) : Result :=
  s.run fun s => (
    let st := s.objAt 0x0A 0x100 l.val
    if (st = 0 || st = 1) && s.objAt 0x0A 0x101 l.val = 1 && s.lit l then
      let s := (s.modLink l (fun x => { history := x.history, queue := x.queue })).setObjAt 0x0A 0x103 l.val neighbour.toNat
      (s.setLinkState l 2).pumpLink l
    else s)

/-- A data flit's payload joins the packet in assembly of its class, in the class's receive buffer (R561 to R563); the packet is whole at its last
flit, and the credits of its flits are then due to the neighbour. -/
def Link.assemble (x : Link) (f : LinkFlit) : Link × Option Packet :=
  let tc := f.tc.toNat
  let n := x.held.getD tc 0 + 1
  let x := if f.eop then { x with held := x.held.set! tc 0, owed := x.owed.set! tc (x.owed.getD tc 0 + n) } else { x with held := x.held.set! tc n }
  let b := (if f.sop then some [] else (x.asm.getD tc none)).map (fun a => a ++ flitUsed f)
  if f.eop then ({ x with asm := x.asm.set! tc none }, b.bind parsePacket) else ({ x with asm := x.asm.set! tc b }, none)

/-- The codewords that a link flit brings are counted (R559, R606). -/
def Dev.countFec (s : Dev) (l : LinkId) (f : LinkFlit) : Dev :=
  let s := if f.fec.corrected = 0 then s else s.bump 0x0A 0x104 l.val f.fec.corrected
  if f.fec.uncorrected = 0 then s else s.bump 0x0A 0x105 l.val f.fec.uncorrected

/-- Whether a link flit is whole: its CRC holds, and no codeword that FEC could not correct overlaps it (R559, R561). -/
def linkFlitOk (f : LinkFlit) : Bool := flitCrcOk f && !f.fec.hit

/-- A link asks for a replay from the flit after the last received in order (R548, R561, R564). -/
def Link.nak (x : Link) : Link :=
  ({ x with discarding := true, nakOut := some (x.rxNext - 1) } : Link).put (x.form 2 0 false false [])

/-- A link flit arrives (R559, R561, R564): the packet it completes, if any. -/
def Dev.linkFlit (s : Dev) (l : LinkId) (f : LinkFlit) : Dev × Option Packet :=
  if !s.linkUp l || 5 ≤ f.kind.val then (s, none)
  else
    let s := s.countFec l f
    if !linkFlitOk f then (s.modLink l Link.nak, none)
    else
      let x := s.link l
      let isData := f.kind.val = 1
      if (x.discarding && !(isData && f.seq = x.rxNext)) || (isData && f.seq ≠ x.rxNext) then (s, none)
      else
        let s := s.modLink l (fun x => { x with
          credits := x.credits.set! f.crdTc.toNat (x.credits.getD f.crdTc.toNat 0 + f.crd.toNat) })
        if f.kind.val = 2 then ((s.linkNak l f.ack).pumpLink l, none)
        else
          let s := s.linkAck l f.ack
          if isData then
            let (y, p) := (s.link l).assemble f
            ((s.setLink l { y with rxNext := f.seq + 1, discarding := false, nakOut := none }).pumpLink l, p)
          else (s.pumpLink l, none)

end Sys2Proof.Machine
end

