-- ==== Sys2Proof/Machine/Packets.lean ====
section
/-! DEFINITION. Machine/Packets.lean: routes, flows and their failure, and links that go down (R565 to R571, R579, R583 to R587). -/

namespace Sys2Proof.Machine

/-- The module's device ID (R606). -/
def Dev.deviceId (s : Dev) : U16 := BitVec.ofNat 16 (s.objAt 0x0A 0x200 0)
/-- The state of a partition key (R589). -/
def Dev.keyState (s : Dev) (k : BitVec 12) : KeyState := Table.get coldKey s.fab.keys k.toNat
/-- Set the state of a partition key. -/
def Dev.setKey (s : Dev) (k : BitVec 12) (v : KeyState) : Dev := s.modFab (fun x => { x with keys := Table.set coldKey x.keys k.toNat v })

/-- The route entries that stand in a range of objects, in ascending order (R587, R606). -/
def Dev.routeEntries (s : Dev) (lo hi : Nat) : List Nat :=
  (s.obj.filter (fun e => lo ≤ e.1 && e.1 ≤ hi)).filterMap (fun e => e.2.bind (fun v => if bit v 63 then some v else none))

/-- The links of a route entry (R587). -/
def entryLinks (e : Nat) : List Nat := (List.range (bits e 35 34 + 1)).map (fun j => bits e (5 * j + 4) (5 * j))

/-- Whether a prefix entry matches a device ID (R583, R587). -/
def prefixMatches (e dst : Nat) : Bool :=
  let len := bits e 56 52
  len ≤ 16 && bits e 51 36 / 2 ^ (16 - len) = dst / 2 ^ (16 - len)

/-- The link set of a destination at an OX die: the first direct entry, else the longest prefix (R583). -/
def Dev.linkSet (s : Dev) (ox dst : Nat) : List Nat :=
  let direct := s.routeEntries (objAddr 0x0A (0x1000 + 16 * ox) 0) (objAddr 0x0A (0x100F + 16 * ox) 0xFF)
  match direct.find? (fun e => bits e 51 36 = dst) with
  | some e => entryLinks e
  | none =>
    let l := (s.routeEntries (objAddr 0x0A (0x1100 + ox) 0) (objAddr 0x0A (0x1100 + ox) 0xFF)).filter (fun e => prefixMatches e dst)
    match l.foldl (fun best e => match best with
      | none => some e
      | some b => if bits b 56 52 < bits e 56 52 then some e else some b) none with
    | some e => entryLinks e
    | none => []

/-- The hash that chooses among the links of a set (R584). -/
def routeHash (p : Packet) : Nat := (p.src.toNat * 0x9E37 + p.dst.toNat * 0x85EB + p.flow.toNat) % 2 ^ 16

/-- The link a packet takes: one of its set's links that are up (R584). -/
def Dev.routeLink (s : Dev) (ox : Nat) (p : Packet) : Option LinkId :=
  let up := ((s.linkSet ox p.dst.toNat).map linkId).filter s.linkUp
  up[routeHash p % up.length]?

/-- Whether a packet is an acknowledgement or a notice, which draws neither (R568, R586). -/
def isNotice (p : Packet) : Bool := p.ptype = 0x20 || p.ptype = 0x21

/-- The unreachable notice of a packet (R567, R586). -/
def Dev.noticeOf (s : Dev) (p : Packet) : Packet :=
  { ptype := 0x21, tc := 0, hops := 0, pkey := p.pkey, src := s.deviceId, dst := p.src, flow := p.flow, epoch := p.epoch, psn := 0,
    offset := BitVec.ofNat 64 p.dst.toNat, aux0 := BitVec.ofNat 24 p.flow.toNat, aux1 := p.psn, payload := [] }

/-- A notice leaves towards the source of a packet that is lost here (R565, R586). -/
def Dev.sendNotice (s : Dev) (ox : Nat) (p : Packet) : Dev :=
  if isNotice p then s
  else
    let n := s.noticeOf p
    if n.dst = s.deviceId then s.modFab (fun x => { x with local_ := x.local_ ++ [n] })
    else match s.routeLink ox n with
      | some l => s.sendLink l n
      | none => s.bump 0x0A 0x206 0 1

/-- A packet leaves an OX die by its route; one for the module itself is delivered on it (R583 to R586). -/
def Dev.emit (s : Dev) (ox : Nat) (p : Packet) : Dev :=
  if p.dst = s.deviceId then s.modFab (fun x => { x with local_ := x.local_ ++ [p] })
  else match s.routeLink ox p with
    | some l => s.sendLink l p
    | none => (s.bump 0x0A 0x206 0 1).sendNotice ox p

/-- The flow that this device sends to a destination under a number. -/
def Dev.flow (s : Dev) (dst num : U16) : Option TxFlow := s.fab.flows.find? (fun f => f.dst = dst && f.num = num)

/-- Put a flow. -/
def Dev.setFlow (s : Dev) (f : TxFlow) : Dev :=
  let same (g : TxFlow) : Bool := g.dst = f.dst && g.num = f.num
  let put (l : List TxFlow) : List TxFlow := if l.any same then l.map (fun g => if same g then f else g) else l ++ [f]
  s.modFab (fun x => { x with flows := put x.flows })

/-- The time in nanoseconds at which a packet sent now fails its flow (R568, R606). -/
def Dev.flowDeadline (s : Dev) : Nat := s.now.toNat + 1000 * s.objAt 0x0A 0x400 0

/-- A packet is sent on a flow: it takes the flow's epoch and next PSN (R568). -/
def Dev.sendFlow (s : Dev) (ox : Nat) (num : U16) (p : Packet) : Dev :=
  let f := (s.flow p.dst num).getD { dst := p.dst, num := num, pkey := p.pkey }
  let p := { p with src := s.deviceId, flow := num, epoch := f.epoch, psn := f.next, hops := 0 }
  let s := s.setFlow { f with pkey := p.pkey, next := f.next + 1, waiting := f.waiting ++ [(f.next, s.flowDeadline)] }
  s.emit ox p

/-- A plain packet with its type, class, key, destination and offset; the rest zero. -/
def mkPacket (ptype : BitVec 6) (tc : BitVec 2) (pkey : BitVec 12) (dst : U16) (offset : Nat) : Packet :=
  { ptype := ptype, tc := tc, hops := 0, pkey := pkey, src := 0, dst := dst, flow := 0, epoch := 0, psn := 0,
    offset := BitVec.ofNat 64 offset, aux0 := 0, aux1 := 0, payload := [] }

/-- An operation ends with a reason of its own: what it has begun is finished, nothing further begins (R138, R568, R590). -/
def Dev.endEarly (s : Dev) (slot : SlotId) (reason : Nat) : Dev :=
  match s.op slot with
  | none => s
  | some o =>
    let s := s.modOp slot (fun o => { o with aborting := o.aborting.or (some reason) })
    let s := { s.discardMills slot with shf := { s.shf with stooks := s.shf.stooks.filter (fun k => k.slot ≠ slot) } }
    s.stopWaiting o

/-- A window whose clearing write has waited is closed once no access through it is left (R579). -/
def Dev.closeWindows (s : Dev) : Dev :=
  let close (t : Table Window) (e : Nat × Window) : Table Window :=
    if e.2.closing && !s.fab.accesses.any (fun a => a.window = e.1) then Table.set {} t e.1 { e.2 with closing := false } else t
  s.modFab (fun x => { x with windows := x.windows.foldl close x.windows })

/-- Accesses fail: a core takes an access error, an operation ends with reason 0x0E (R582). -/
def Dev.failAccesses (s : Dev) (p : WindowAccess → Bool) : Dev :=
  let gone := s.fab.accesses.filter p
  let s := s.modFab (fun x => { x with accesses := x.accesses.filter (fun a => !p a) })
  let s := gone.foldl (fun s a => match a.by_ with
    | .core => { s with reply := some .accessError }
    | .op slot => s.endEarly slot 0xE) s
  s.closeWindows

/-- The operation that uses a flow: flows of operations bear the number of the journal slot, and go to a rank of a collective or to the target
of a remote window, under the flow's key. A flow of answers to another device's requests is no operation's: its number is none of these. -/
def Dev.flowOp (s : Dev) (f : TxFlow) : Option Operation :=
  if h : f.num.toNat < 4096 then
    (s.op ⟨f.num.toNat, h⟩).filter (fun o => (match o.body with
      | .coll x => decide (x.pkey = f.pkey) && x.table.contains f.dst.toNat
      | _ => false) || s.fab.accesses.any (fun a => a.by_ = .op o.slot && a.dst = f.dst && a.pkey = f.pkey))
  else none

/-- A flow fails (R568): its epoch advances, what used it ends, and a record of kind 0x22 is written (R605). -/
def Dev.failFlow (s : Dev) (f : TxFlow) (cause : Nat) : Dev :=
  let s := s.setFlow { f with epoch := f.epoch + 1, next := 0, waiting := [] }
  let mine (a : WindowAccess) : Bool := a.dst = f.dst && a.num = f.num
  let addr := ((s.fab.accesses.find? mine).map WindowAccess.offset).getD 0
  let o := s.flowOp f
  let die : Die := (o.map (fun o => homeDie o.queue)).getD 14
  let s := s.report die {
    kind := 0x22, cls := .fault, addr := addr,
    detail := cause + f.dst.toNat * 2 ^ 16 + ((o.map (fun o => o.queue.val)).getD 0) * 2 ^ 32 + f.num.toNat * 2 ^ 48 }
  let s := match o with
    | some o => s.endEarly o.slot 0xE
    | none => s
  s.failAccesses mine

/-- A packet is lost in this device's own link (R565): its flow fails where the packet originated here, else its source is told. -/
def Dev.losePacket (s : Dev) (ox : Nat) (p : Packet) : Dev :=
  if p.src = s.deviceId then
    (if isNotice p then s else match s.flow p.dst p.flow with
      | some f => if f.epoch = p.epoch then s.failFlow f 3 else s
      | none => s)
  else s.sendNotice ox p

/-- Whether the loss of a packet in this device's own link fails a flow or is notified (R565, R605). -/
def Dev.lossTold (s : Dev) (p : Packet) : Bool :=
  !isNotice p && (p.src ≠ s.deviceId || (s.flow p.dst p.flow).any (fun f => f.epoch = p.epoch))

/-- A link that is up goes down (R565): it leaves every route set, a record of kind 0x21 is written, and every packet in its replay
buffer and transmit queue is reported upward. -/
def Dev.linkDown (s : Dev) (l : LinkId) (cause newState : Nat) : Dev :=
  if !s.linkUp l then s.setLinkState l newState
  else
    let x := s.link l
    let lost := x.sent.map SentPacket.packet ++ x.queue
    let s := (s.modLink l (fun x => { history := x.history })).setLinkState l newState
    let s := s.report ⟨14 + l.val / 8, by omega⟩ {
      kind := 0x21, cls := .corrected, addr := 0, count := lost.countP s.lossTold,
      detail := l.val + cause * 2 ^ 8 + s.objAt 0x0A 0x103 l.val * 2 ^ 16 }
    lost.foldl (fun s p => s.losePacket (l.val / 8) p) s

/-- A link that is up loses its signal or exhausts its retry bound: it goes down, and then trains (R558, R564, R565). -/
def Dev.linkFails (s : Dev) (l : LinkId) (cause : Nat) : Dev := if s.linkUp l then (s.linkDown l cause 0).trainLink l else s

/-- LINK_DOWN (R564, R565): 1 the retry bound, 2 loss of signal, 3 the laser module, 4 disabled. -/
def execLinkDown (l : LinkId) (cause : Fin 5) (s : State) : Result :=
  s.run fun s => (match cause.val with
    | 0 => s
    | 3 => s.linkDown l 3 4
    | 4 => s.linkDown l 4 3
    | c => s.linkFails l c)

/-- A link whose bound is passed goes down: 20 µs of package time since the first NAK for a flit, which is not acknowledged (R564, R571). -/
def Dev.linkBound (s : Dev) (l : LinkId) : Dev :=
  if (s.link l).firstNak.any (fun t => decide (t.toNat + 20000 ≤ s.now.toNat)) then s.linkFails l 1 else s

/-- LINK_NAK. -/
def execLinkNak (l : LinkId) (ack : U16) (s : State) : Result := s.run fun s => ((s.linkNak l ack).linkBound l)

/-- A write of link_role (R572): it retrains the link. -/
def Dev.writeRole (s : Dev) (l : LinkId) (v : Nat) : Dev × Bool :=
  if 1 < v then (s, false)
  else (((s.setObjAt 0x0A 0x102 l.val v).modLink l (fun x => { x with retrain := s.linkUp l })).retrainIdle l, true)

/-- LINK_ROLE_WRITE. -/
def execLinkRoleWrite (l : LinkId) (v : Byte) (s : State) : Result := s.run fun s => (s.writeRole l v.toNat).1

/-- A write of link_enable (R558, R565): one that leaves the link enabled retrains it once it is idle. -/
def Dev.writeEnable (s : Dev) (l : LinkId) (v : Bool) : Dev :=
  let was := s.objAt 0x0A 0x101 l.val = 1
  let s := s.setObjAt 0x0A 0x101 l.val (b2n v)
  if !v then s.linkDown l 4 3
  else if was && s.linkUp l then (s.modLink l (fun x => { x with retrain := true })).retrainIdle l else s.trainLink l

/-- LINK_ENABLE_WRITE. -/
def execLinkEnableWrite (l : LinkId) (v : Bool) (s : State) : Result := s.run fun s => (s.writeEnable l v)

/-- The packets of a flow that an acknowledgement covers leave it (R568). -/
def TxFlow.ack (f : TxFlow) (psn : U32) : TxFlow :=
  { f with waiting := f.waiting.filter (fun e => !decide ((psn - e.1).toNat < 2 ^ 31)) }

/-- TRANSPORT_TIMEOUT (R568): the transport timeout has passed with a packet of the flow unacknowledged. -/
def execTransportTimeout (flow : U16) (t : Instant) (s : State) : Result :=
  s.run fun s => (
    let s' := s.advance t
    let late := s.fab.flows.filter (fun f => f.num = flow && f.waiting.any (fun e => e.2 ≤ s'.now.toNat))
    if late.isEmpty then s else late.foldl (fun s f => (s.bump 0x0A 0x208 0 1).failFlow f 1) s')

end Sys2Proof.Machine
end

