-- ==== Sys2Proof/Machine/Collective.lean ====
section
/-! DEFINITION. Machine/Collective.lean: the collective engines: what an operation is, the streams of data between its ranks, and how
it advances (R593 to R603, R535). -/

namespace Sys2Proof.Machine

/-- The port of a collective operation's channel (R455). -/
def Dev.collPort (s : Dev) (o : Operation) : Port :=
  { die := homeDie o.queue, stream := (o.queue.val - 1792) % 64, queue := o.queue.val, asid := (s.queue o.queue).asid.toNat, slot := some o.slot }

/-- The bits of an element of an image; a byte buffer's elements are its bytes (R596). -/
def Image.elemBits : Image → Nat
  | .tensor t => t.fmt.bits
  | .bytes _ => 8

/-- The elements of an image. -/
def Image.elems (x : Image) : Nat := x.bits / x.elemBits

/-- The format of an image's elements, if it is a tensor. -/
def Image.fmt? : Image → Option Fmt
  | .tensor t => some t.fmt
  | .bytes _ => none

/-- Whether the formats of a reduction are allowed, and whether it is reduced in A128 (R597). -/
def reduceFmts (a d : Image) : Option Bool :=
  match a.fmt?, d.fmt? with
  | some x, some y =>
    let narrow : List Fmt := [.fp32, .bf16, .fp16, .e4m3, .e5m2, .int32, .a80]
    if narrow.contains x && narrow.contains y then some false
    else if (x = .fp64 || x = .a128) && (y = .fp64 || y = .fp32 || y = .a128) then some true else none
  | _, _ => none

/-- The fields of a collective's parameter block (R594). -/
structure CollParams where
  collId : Nat
  ranks : Nat
  rank : Nat
  peer : Nat
  pkey : BitVec 12
  table : Nat
  chunk : Nat
  op : Nat
  tree : Bool
  deriving DecidableEq, Repr

/-- A collective's parameter block by the checks its bits decide (R594, R597). -/
def parseColl (opcode b : Nat) : Option CollParams :=
  let peered := 0x63 ≤ opcode
  let chunk := bits b 255 224
  let ranks := bits b 351 336 + 1
  if (parseParams b 0x060).isSome && bits b 511 384 = 0 && bits b 303 300 = 0 && bits b 271 256 = 0 && bits b 223 128 = 0
      && bits b 111 6 = 0 && bits b 2 0 = 0 && bits b 5 4 ≠ 3 && chunk ≤ 1048576 && (peered || bits b 319 304 = 0)
      && bits b 335 320 < ranks && bits b 319 304 < ranks then
    some ⟨bits b 383 352, ranks, bits b 335 320, bits b 319 304, BitVec.ofNat 12 (bits b 299 288), bits b 287 272,
      if chunk = 0 then 4096 else chunk, bits b 5 4, bit b 3⟩
  else none

/-- The pairs that a rank forms in the tree of R598 under ranks lo to hi − 1: the rank its partial goes to, and the ranks whose
partials it adds, in the order it adds them. -/
def treePairs (r : Nat) : Nat → Nat → Nat → Option Nat → List Nat → Option Nat × List Nat
  | 0, _, _, up, kids => (up, kids)
  | fuel + 1, lo, hi, up, kids =>
    if hi ≤ lo + 1 then (up, kids)
    else
      let mid := lo + 2 ^ (Nat.log2 (hi - lo - 1))
      if r < mid then treePairs r fuel lo mid up (if r = lo then mid :: kids else kids)
      else treePairs r fuel mid hi (if r = mid then some lo else up) []

/-- The chunks of a count of elements. -/
def chunkCount (c n : Nat) : Nat := ceilDiv n c

/-- The streams in and out of a rank of an operation (R596, R600). -/
def collStreams (opcode : Nat) (p : CollParams) (n : Nat) : List CollStream × List CollStream :=
  let w := chunkCount p.chunk n
  let last := p.ranks - 1
  let part (r : Nat) : CollStream := { rank := r, base := 0, first := 0, count := n, partials := true }
  let full (r : Nat) : CollStream := { rank := r, base := w, first := 0, count := n, partials := false }
  let data (r first : Nat) : CollStream := { rank := r, base := 0, first := first, count := n, partials := false }
  let others := (List.range p.ranks).filter (fun r => r ≠ p.rank)
  match opcode with
  | 0x60 | 0x61 =>
    if p.tree then
      let (up, kids) := treePairs p.rank 17 0 p.ranks none []
      (kids.map part ++ up.toList.map full, up.toList.map part ++ kids.map full)
    else
      let inP := if p.rank = 0 then [] else [part (p.rank - 1)]
      let outP := if p.rank = last then [] else [part (p.rank + 1)]
      if p.ranks = 1 then ([], [])
      else if opcode = 0x60 then
        (inP ++ (if p.rank = last then [] else [full (if p.rank = 0 then last else p.rank - 1)]),
         outP ++ (if p.rank = last then [full 0] else if p.rank + 1 < last then [full (p.rank + 1)] else []))
      else
        let m := n / p.ranks
        let slice (r dest : Nat) : CollStream := { rank := r, base := w, first := dest * m, count := m, partials := false }
        (inP ++ (if p.rank = last then [] else [slice last p.rank]), outP ++ (if p.rank = last then others.map (fun t => slice t t) else []))
  | 0x62 => (others.map (fun r => data r (r * n)), others.map (fun r => data r (p.rank * n)))
  | 0x63 => if p.rank = p.peer then ([], others.map (fun r => data r 0)) else ([data p.peer 0], [])
  | 0x64 => ([], [data p.peer 0])
  | _ => ([data p.peer 0], [])

/-- Whether an operation reads its own input: all but RECV and the BCAST of a rank that is not the root. -/
def CollOp.reads (x : CollOp) (opcode : Nat) : Bool := !(opcode = 0x65 || (opcode = 0x63 && x.rank ≠ x.peer))

/-- The rank table (R595): each rank's device. -/
def tableOf (n : Nat) (d : List Byte) : List Nat := (List.range n).map (fun r => fieldAt d (2 * r) 2)

/-- The operands of a collective, read and checked (R593, R596, R597, R162). DESIGN CHOICE (log entry 17): its input is h0's range alone, to which
R162 holds its output; the rank table is none. -/
def Dev.readColl (s : Dev) (o : Operation) : Dev × Named CollOp :=
  let opcode := iOpcode o.word
  let p := s.opPort o
  Named.andThen (s.named p (o.h.getD 3 0) (parseColl opcode)) fun s c =>
  let s := s.modOp o.slot (fun o => { o with pkey := some c.pkey })
  if s.keyState c.pkey ≠ .enabled then (s, .fail 0xE 0)
  else
    Named.andThen (s.namedBytes p c.table) fun s tb =>
    if tb.len < 2 * c.ranks then (s, .invalid)
    else
      Named.andThen (Fetch.toNamed (s.readVa { s.collPort o with keep := true } tb.base (2 * c.ranks))) fun s d =>
      let devs := tableOf c.ranks d
      if devs.getD c.rank 0 ≠ s.deviceId.toNat then (s, .invalid)
      else
        let inH := if opcode = 0x65 then o.h.getD 2 0 else o.h.getD 0 0
        Named.andThen (s.namedImage p inH) fun s a =>
        let n := a.elems
        let base : CollOp := {
          inp := a, collId := c.collId, pkey := c.pkey, ranks := c.ranks, rank := c.rank, peer := c.peer, op := c.op, tree := c.tree, table := devs, chunk := c.chunk, elems := n }
        if opcode = 0x64 then (s, .ok { base with outCount := n, units := chunkCount c.chunk n })
        else
          Named.andThen (s.namedImage p (o.h.getD 2 0)) fun s d =>
          let red := opcode = 0x60 || opcode = 0x61
          let count := match opcode with
            | 0x61 => n / c.ranks
            | 0x62 => n * c.ranks
            | _ => n
          let meets := opcode ≠ 0x65 && rangesMeet [d.range] [a.range]
          let fmtOk := if red then (reduceFmts a d).isSome else a.elemBits = d.elemBits
          if meets || !fmtOk || d.elems ≠ count || (opcode = 0x61 && n % c.ranks ≠ 0) then (s, .invalid)
          else (s, .ok { base with
            out := some d, reduces := red, fp64 := (reduceFmts a d).getD false,
            outFirst := if opcode = 0x61 then c.rank * count else 0, outCount := count, units := chunkCount c.chunk count })

/-- The first and past-last element of a chunk of a stream. -/
def CollStream.range (x : CollStream) (c k : Nat) : Nat × Nat := (x.first + k * c, min (x.first + (k + 1) * c) (x.first + x.count))

/-- The device that a rank stands for. -/
def CollOp.device (x : CollOp) (rank : Nat) : U16 := BitVec.ofNat 16 (x.table.getD rank 0)

/-- The flow number of an operation: that of its journal slot. -/
def opFlow (slot : SlotId) : U16 := BitVec.ofNat 16 slot.val

/-- A grant leaves for the rank that sends a stream (R603). -/
def Dev.sendGrant (s : Dev) (o : Operation) (x : CollOp) (rank chunk : Nat) : Dev :=
  let p := mkPacket 0x11 1 x.pkey (x.device rank) chunk
  s.sendFlow ((homeDie o.queue).val - 14) (opFlow o.slot) { p with aux0 := BitVec.ofNat 24 x.rank, aux1 := BitVec.ofNat 32 x.collId }

/-- Put a collective's body. -/
def Dev.putColl (s : Dev) (slot : SlotId) (x : CollOp) : Dev := s.modOp slot (fun o => { o with body := .coll x })

/-- The grants that came before an operation began are taken up, one for each of its streams: the receiver grants no second chunk of a stream
before it has the first (R603). -/
def Dev.takeEarly (s : Dev) (x : CollOp) : Dev × CollOp :=
  let (s, outs) := x.outs.foldl (fun (acc : Dev × List CollStream) t =>
    let e : EarlyGrant := ⟨x.pkey, x.collId, t.rank, t.base⟩
    if acc.1.fab.early.contains e then
      (acc.1.modFab (fun f => { f with early := removeFirst (· == e) f.early }), acc.2 ++ [{ t with granted := 1 }])
    else (acc.1, acc.2 ++ [t])) (s, [])
  (s, { x with outs := outs })

/-- A collective begins (R593, R597, R603): it grants the first chunk of every stream it receives. -/
def Dev.beginColl (s : Dev) (o : Operation) : Dev :=
  match s.readColl o with
  | (s, .wait) => s
  | (s, .invalid) => s.beginOp o.slot (fun o => { o with status := 5, reason := 2 })
  | (s, .fail 0xE _) => s.beginOp o.slot (fun o => { o with status := 5, reason := 0xE })
  | (s, .fail r a) => s.failBegin o r a
  | (s, .ok x) =>
    let opcode := iOpcode o.word
    let prm : CollParams := ⟨x.collId, x.ranks, x.rank, x.peer, x.pkey, 0, x.chunk, x.op, x.tree⟩
    let (ins, outs) := collStreams opcode prm x.elems
    let ins := ins.filter (fun t => 0 < t.count)
    let outs := outs.filter (fun t => 0 < t.count)
    let x := { x with ins := ins.map (fun t => { t with granted := 1 }), outs := outs }
    let x := if x.reads opcode then x else { x with reduced := chunkCount x.chunk x.elems }
    let (s, x) := s.takeEarly x
    let s := s.beginOp o.slot (fun o => { o with kept := [], body := .coll x })
    x.ins.foldl (fun s t => s.sendGrant o x t.rank t.base) s

/-- The key of a partial received from a rank for an element. -/
def partKey (rank e : Nat) : Nat := rank * 2 ^ 40 + e

/-- The accumulator format of a reduction. -/
def CollOp.acc (x : CollOp) : Fmt := accFmt x.fp64

/-- One step of a reduction (R598). -/
def CollOp.combine (x : CollOp) (a b : Val) : Val :=
  match x.op with
  | 0 => addAcc x.fp64 a b
  | 1 => minMax false a b
  | _ => minMax true a b

/-- The reduction of one element at a rank, from its own value and the partials it has received (R598, R600). -/
def CollOp.reduceElem (x : CollOp) (e : Nat) (v : Val) : Val :=
  let got (r : Nat) : Val := decodeVal x.acc ((Table.get none x.partials (partKey r e)).getD 0) 127
  let kids := (x.ins.filter (fun t => t.partials)).map (fun t => t.rank)
  if x.tree then kids.foldl (fun a r => x.combine a (got r)) v
  else match kids with
    | [] => if x.op = 0 then addAcc x.fp64 (.zero false) v else v
    | r :: _ => x.combine (got r) v

/-- Whether a rank performs the final encode (R600, R601). -/
def CollOp.encodes (x : CollOp) : Bool := if x.tree then x.rank = 0 else x.rank + 1 = x.ranks

/-- Whether all elements of a range are known in a table. -/
def allKnown (t : Table (Option Nat)) (key : Nat → Nat) (a z : Nat) : Bool :=
  (List.range (z - a)).all (fun i => (Table.get none t (key (a + i))).isSome)

/-- Elements a to z − 1 reduced from a rank's own values: its partials, or the encoded results, with each element's counts (R598, R601). -/
def CollOp.reduceChunk (x : CollOp) (a : Nat) (vals : List (Val × Nat)) : CollOp :=
  let tally (t : Table Counts) (i : Nat) (n : Counts) : Table Counts := Table.set {} t i n
  let es := vals.zipIdx.map (fun v => (a + v.2, x.reduceElem (a + v.2) v.1.1, ({ flushedIn := v.1.2 } : Counts)))
  match x.encodes, x.out with
  | true, some (.tensor d) =>
    let cs := es.map (fun e => (e.1, encodeAt d.fmt d.round e.1 0x40 e.2.1, e.2.2))
    { x with
      known := cs.foldl (fun t c => Table.set none t c.1 (some c.2.1.1)) x.known,
      tallies := cs.foldl (fun t c => tally t c.1 (c.2.2.add c.2.1.2)) x.tallies }
  | _, _ =>
    { x with
      mine := es.foldl (fun t e => Table.set none t e.1 (some (encodeAcc x.acc e.2.1))) x.mine,
      tallies := es.foldl (fun t e => tally t e.1 e.2.2) x.tallies }

/-- The counts of the elements of a range are reported: those of an output unit with its write, and what is left with the operation's
completion (R96, R101). -/
def CollOp.report (x : CollOp) (mine : Nat → Bool) : CollOp × Counts :=
  ({ x with tallies := x.tallies.filter (fun e => !mine e.1) },
   (x.tallies.filter (fun e => mine e.1)).foldl (fun n e => n.add e.2) {})

/-- The codes of elements packed in a number. -/
def codesOf (n : Nat) : Nat → Nat → List Nat
  | 0, _ => []
  | k + 1, v => v % 2 ^ n :: codesOf n k (v / 2 ^ n)

/-- A collective reads and reduces the next chunk of its own input, once the partials it needs have come (R535, R600). -/
def Dev.collRead (s : Dev) (o : Operation) (x : CollOp) : Dev × Fetch CollOp :=
  let a := x.reduced * x.chunk
  let z := min (a + x.chunk) x.elems
  let ready := (x.ins.filter (fun t => t.partials)).all (fun t => allKnown x.partials (partKey t.rank) a z)
  if z ≤ a || !ready then (s, .ok x)
  else
    let b := x.inp.elemBits
    let p := s.collPort o
    Fetch.andThen (s.readBits p x.inp (a * b) (z * b)) fun s r =>
      if r.2 && x.outs ≠ [] then
        let va := ((x.inp.bitSegs (a * b) (z * b)).head?.map (fun g => g.1 / 8)).getD 0
        (s.reportRealm p va 2 ((s.realmSpace p).getD 0), .fail 0xD va)
      else
        let codes := codesOf b (z - a) r.1
        let x' := { x with reduced := x.reduced + 1 }
        if x.reduces then
          let f := (x.inp.fmt?).getD .fp32
          (s, .ok (x'.reduceChunk a (codes.map (fun c => decode f c 127))))
        else
          let base := if iOpcode o.word = 0x62 then x.rank * x.elems else 0
          (s, .ok { x' with known := codes.zipIdx.foldl (fun t c => Table.set none t (base + a + c.2) (some c.1)) x.known })

/-- The packets of a chunk: runs of elements, each with its first and its bytes (R600). -/
def dataPackets (be : Bool) (bitsEach first : Nat) (codes : List Nat) : List (Nat × List Byte) :=
  let per := if be then 4096 / (bitsEach / 8) else 32768 / bitsEach / 8 * 8
  (chunks per (codes.length + 1) codes).zipIdx.map (fun c =>
    (first + c.2 * per, if be then c.1.flatMap (beBytes (bitsEach / 8)) else packBytes bitsEach c.1))

/-- The bits of an element that a stream carries: a packed accumulator value, or the element's own format (R600). -/
def CollOp.streamBits (x : CollOp) (t : CollStream) : Nat :=
  if t.partials then (if x.fp64 then 128 else 80)
  else match x.out with
    | some d => d.elemBits
    | none => x.inp.elemBits

/-- The elements of a stream that a rank holds. -/
def CollOp.source (x : CollOp) (t : CollStream) : Table (Option Nat) := if t.partials then x.mine else x.known

/-- A stream sends its next chunk, if that is granted and whole (R603). -/
def Dev.collSend (s : Dev) (o : Operation) (x : CollOp) (t : CollStream) : Dev × CollStream :=
  let (a, z) := t.range x.chunk t.done
  if t.granted ≤ t.done || z ≤ a || !allKnown (x.source t) id a z then (s, t)
  else
    let codes := (List.range (z - a)).map (fun i => (Table.get none (x.source t) (a + i)).getD 0)
    let ps := dataPackets t.partials (x.streamBits t) a codes
    (ps.foldl (fun s e =>
      let p := mkPacket 0x10 1 x.pkey (x.device t.rank) e.1
      s.sendFlow ((homeDie o.queue).val - 14) (opFlow o.slot)
        { p with aux0 := BitVec.ofNat 24 x.rank, aux1 := BitVec.ofNat 32 x.collId, payload := e.2 }) s,
     { t with done := t.done + 1 })

/-- The next output chunk that is whole and not yet written (R602). -/
def CollOp.dueChunk (x : CollOp) (written : List Nat) : Option Nat :=
  (List.range x.units).find? (fun j => !written.contains j
    && allKnown x.known id (x.outFirst + j * x.chunk) (min (x.outFirst + (j + 1) * x.chunk) (x.outFirst + x.outCount)))

/-- A collective writes its next output chunk (R602, R178). -/
def Dev.collWrite (s : Dev) (o : Operation) (x : CollOp) : Dev × Fetch (List Nat) :=
  match x.out, x.dueChunk o.written with
  | some d, some j =>
    let a := j * x.chunk
    let z := min (a + x.chunk) x.outCount
    let codes := (List.range (z - a)).map (fun i => (Table.get none x.known (x.outFirst + a + i)).getD 0)
    let b := d.elemBits
    Fetch.andThen (s.writeBits (s.collPort o) d (a * b) (z * b) (packCodes b codes)) fun s _ => (s, .ok [j])
  | _, _ => (s, .ok [])

/-- A collective goes on: it reads, sends and writes what it can (R600, R602, R603). -/
def Dev.collAdvance (s : Dev) (slot : SlotId) : Dev :=
  match s.op slot with
  | none => s
  | some o => match o.body with
    | .coll x =>
      if !o.goes then s
      else match s.collRead o x with
        | (s, .wait) => s
        | (s, .fail r a) => s.failOp slot r a
        | (s, .ok x) =>
          let (s, outs) := x.outs.foldl (fun (acc : Dev × List CollStream) t =>
            let (s, t) := acc.1.collSend o x t
            (s, acc.2 ++ [t])) (s, [])
          let x := { x with outs := outs }
          let o := { o with written := if iOpcode o.word = 0x64 then List.range ((outs.head?.map CollStream.done).getD 0) else o.written }
          match s.collWrite o x with
          | (s, .wait) => s.putColl slot x
          | (s, .fail r a) => (s.putColl slot x).failOp slot r a
          | (s, .ok js) =>
            let w := o.written ++ js
            let done := x.units ≤ w.length && outs.all (fun t => t.first + t.count ≤ (t.range x.chunk t.done).1)
            let (x, n) := x.report (fun i => done || js.any (fun j =>
              x.outFirst + j * x.chunk ≤ i && i < min (x.outFirst + (j + 1) * x.chunk) (x.outFirst + x.outCount)))
            (s.putColl slot { x with finished := done }).modOp slot (fun o => { o with written := w, counts := o.counts.add n })
    | _ => s

/-- The running collectives of a key and an identifier (R603). -/
def Dev.collsOf (s : Dev) (k : BitVec 12) (id : Nat) : List (Operation × CollOp) :=
  s.cmd.ops.filterMap (fun o => match o.body with
    | .coll x => if o.goes && x.pkey = k && x.collId = id then some (o, x) else none
    | _ => none)

/-- Whether a stream awaits data of a rank from an element on. -/
def CollOp.awaits (x : CollOp) (t : CollStream) (rank first : Nat) : Bool :=
  let (a, z) := t.range x.chunk t.done
  t.rank = rank && t.done < t.granted && a ≤ first && first < z
    && (if t.partials then (Table.get none x.partials (partKey rank first)).isNone else (Table.get none x.known first).isNone)

/-- Collective data reaches the operation it is for (R600, R603); a chunk received whole grants the next. -/
def Dev.collData (s : Dev) (p : Packet) : Dev :=
  let rank := p.aux0.toNat % 65536
  let first := p.offset.toNat
  match (s.collsOf p.pkey p.aux1.toNat).findSome? (fun e => (e.2.ins.find? (fun t => e.2.awaits t rank first)).map (fun t => (e.1, e.2, t))) with
  | none => s
  | some (o, x, t) =>
    let b := x.streamBits t
    let n := 8 * p.payload.length / b
    let codes := if t.partials then (chunks (b / 8) (n + 1) p.payload).map beNat else codesOf b n (leNat p.payload)
    let (_, z) := t.range x.chunk t.done
    let codes := codes.take (z - first)
    let put (m : Table (Option Nat)) (c : Nat × Nat) : Table (Option Nat) :=
      Table.set none m (if t.partials then partKey rank (first + c.2) else first + c.2) (some c.1)
    let x := if t.partials then { x with partials := codes.zipIdx.foldl put x.partials } else { x with known := codes.zipIdx.foldl put x.known }
    let (a, z) := t.range x.chunk t.done
    let whole := if t.partials then allKnown x.partials (partKey rank) a z else allKnown x.known id a z
    let t' := if whole then { t with done := t.done + 1, granted := min (t.granted + 1) (chunkCount x.chunk t.count) } else t
    let x := { x with ins := x.ins.map (fun y => if y = t then t' else y) }
    let s := s.putColl o.slot x
    let s := if t.granted < t'.granted then s.sendGrant o x rank (t.base + t.granted) else s
    s.collAdvance o.slot

/-- A grant reaches the operation it is for, or is kept for one that has not begun (R603). -/
def Dev.collGrant (s : Dev) (p : Packet) : Dev :=
  let rank := p.aux0.toNat % 65536
  let chunk := p.offset.toNat
  let fits (x : CollOp) (t : CollStream) : Bool := t.rank = rank && t.base + t.granted = chunk && t.granted < chunkCount x.chunk t.count
  match (s.collsOf p.pkey p.aux1.toNat).find? (fun e => e.2.outs.any (fits e.2)) with
  | none => s.modFab (fun f => { f with early := f.early ++ [⟨p.pkey, p.aux1.toNat, rank, chunk⟩] })
  | some (o, x) =>
    (s.putColl o.slot { x with outs := x.outs.map (fun t => if fits x t then { t with granted := t.granted + 1 } else t) }).collAdvance o.slot

/-- A collective instruction issues, or its running operation goes on. -/
def Dev.collStep (s : Dev) (step : OpStep) (opcode : Nat) : Dev :=
  match step with
  | .issue q => s.issueFree q opcode
  | .unit slot => if (s.op slot).any (fun o => iOpcode o.word = opcode) then s.collAdvance slot else s

/-- ALLREDUCE (R596). -/
def execAllreduce (step : OpStep) (s : State) : Result := s.run fun s => (s.collStep step 0x60)
/-- REDUCESCATTER (R596). -/
def execReducescatter (step : OpStep) (s : State) : Result := s.run fun s => (s.collStep step 0x61)
/-- ALLGATHER (R596). -/
def execAllgather (step : OpStep) (s : State) : Result := s.run fun s => (s.collStep step 0x62)
/-- BCAST (R596). -/
def execBcast (step : OpStep) (s : State) : Result := s.run fun s => (s.collStep step 0x63)
/-- SEND (R596). -/
def execSend (step : OpStep) (s : State) : Result := s.run fun s => (s.collStep step 0x64)
/-- RECV (R596). -/
def execRecv (step : OpStep) (s : State) : Result := s.run fun s => (s.collStep step 0x65)

end Sys2Proof.Machine
end

