-- ==== Sys2Proof/Machine/Transport.lean ====
section
/-! DEFINITION. Machine/Transport.lean: packets that arrive: transit, delivery in order, host commands, remote windows and exports,
acknowledgements and notices, and partition keys (R566 to R592). -/

namespace Sys2Proof.Machine

/-- The die of an OX number. -/
def oxDie (ox : Nat) : Die := ⟨14 + ox % 4, by omega⟩

/-- The number of the flow of the answers to a flow's requests (DESIGN CHOICE, log entry 49): above every number that this device's own requests and
collectives take. -/
def answerFlow (num : U16) : U16 := num ||| 0x8000

/-- An answer to a request packet leaves on a flow of answers, with the request's offset, and its flow number in aux0 (R567, R568). -/
def Dev.answerTo (s : Dev) (ox : Nat) (p : Packet) (ptype : BitVec 6) (status : Nat) (payload : List Byte) : Dev :=
  let a := mkPacket ptype 3 p.pkey p.src p.offset.toNat
  s.sendFlow ox (answerFlow p.flow) { a with aux0 := BitVec.ofNat 24 p.flow.toNat, aux1 := BitVec.ofNat 32 status, payload := payload }

/-- The status of a host command whose access has failed (R567, R575). -/
def hostStatus (reason : Nat) : Nat := if reason = 6 then 3 else 2

/-- The link receive path of an OX die, as the write-combining buffer keeps it (R383, R455). -/
def linkWriter (ox w : Nat) : Bool := w / 256 = (oxDie ox).val && (w % 256 = 0x40 || w % 256 = 255)

/-- A host command is performed (R574 to R577): its status and the bytes it returns, or a wait for its translation. -/
def Dev.performHost (s : Dev) (ox : Nat) (p : Packet) (failed : Option Nat) : Dev × Fetch (Nat × List Byte) :=
  match failed, s.binding p (hostCmd p) with
  | some r, _ => (s, .ok (hostStatus r, []))
  | none, none => (s.bump 0x0A 0x20A 0 1, .ok (1, []))
  | none, some asid =>
    let port : Port := { die := oxDie ox, stream := 0x40, queue := 0, asid := asid }
    let ended {α : Type} (r : Dev × Fetch α) (f : Dev → α → Dev × Fetch (Nat × List Byte)) : Dev × Fetch (Nat × List Byte) :=
      match r with
      | (s, .ok a) => f s a
      | (s, .wait) => (s, .wait)
      | (s, .fail r _) => (s, .ok (hostStatus r, []))
    match hostCmd p with
    | 1 => ended (s.writeUnit port 0 false (if p.payload = [] then [] else [(p.offset.toNat, p.payload)])) fun s _ => (s, .ok (0, []))
    | 2 =>
      if 4096 < p.aux1.toNat then (s, .ok (1, []))
      else ended (s.readVa port p.offset.toNat p.aux1.toNat) fun s d => (s, .ok (0, d))
    | 3 =>
      let q : QueueId := ⟨p.aux0.toNat % 2048, Nat.mod_lt _ (by decide)⟩
      if (s.queue q).state = .detached || (s.queue q).asid.toNat ≠ asid then (s, .ok (1, []))
      else match (s.drainWcbOf (linkWriter ox)).push q (p.aux1.toNat % 65536) with
        | (s, .waits) => (s, .wait)
        | (s, .bad) => (s, .ok (1, []))
        | (s, .overflow) => (s, .ok (1, []))
        | (s, _) => (s, .ok (0, []))
    | 4 => ((s.drainWcbOf (linkWriter ox)).addPcounter (p.aux0.toNat % 1024) p.aux1, .ok (0, []))
    | _ => (s.bump 0x0A 0x20A 0 1, .ok (1, []))

/-- Whether an export of this module lets a remote request in (R581): the right by its bit, the bytes inside. -/
def Dev.exported (s : Dev) (p : Packet) (right len : Nat) : Bool :=
  let a := p.offset.toNat
  (List.range 64).any (fun i =>
    let v := s.objAt 0x0A 0x600 i
    bits v 31 24 ≠ 0 && bits v 15 0 = p.pkey.toNat && bit v (16 + right) && bits v 95 32 ≤ a && a + len ≤ bits v 95 32 + bits v 159 96
      && a + len ≤ 2 ^ 41)

/-- The lines of a physical range under the package memory key. -/
def spanLines (a n : Nat) : List LineTag := (linePieces a n false (n / 128 + 2)).map Prod.fst

/-- Whether a running SCRUB refuses a request of some lines, or a request of them must wait: for it, or for an open transaction (R538). -/
def Dev.spanHeld (s : Dev) (l : List LineTag) : Bool × Bool :=
  (l.any (fun t => (s.scrubbed (tagPa t) false).1), l.any (fun t => (s.scrubbed (tagPa t) false).2 || s.lineBusy t))

/-- Whether plain lines can be read now: no transaction is open on one (R402), and no SCRUB covers one (R538). -/
def Dev.linesOpen (s : Dev) (ts : List LineTag) : Bool := !(s.spanHeld ts).1 && !(s.spanHeld ts).2

/-- A remote request is performed by its target as a ReadOnce, WritePush or AtomicHome (R581): its answer's type, status and bytes. -/
def Dev.performRemote (s : Dev) (ox : Nat) (p : Packet) : Dev × Fetch (BitVec 6 × Nat × List Byte) :=
  let a := p.offset.toNat
  match p.ptype.toNat with
  | 0x08 =>
    let n := p.aux1.toNat
    if n = 0 || 4096 < n || !s.exported p 0 n || (s.spanHeld (spanLines a n)).1 then (s, .ok (0x09, 1, []))
    else if (s.spanHeld (spanLines a n)).2 then (s, .wait)
    else
      let s := (spanLines a n).foldl (fun s t => s.onceRead t) s
      let (d, poison) := s.physRead a n false
      if poison then (s, .ok (0x09, 3, [])) else (s, .ok (0x09, 0, d))
  | 0x0A =>
    let n := p.payload.length
    if n = 0 || !s.exported p 1 n || (s.spanHeld (spanLines a n)).1 then (s, .ok (0x0B, 1, []))
    else if (s.spanHeld (spanLines a n)).2 then (s, .wait)
    else (s.physWrite a p.payload false (oxDie ox), .ok (0x0B, 0, []))
  | _ =>
    let op := p.aux0.toNat % 16
    let n := atomicBytes op
    if !s.exported p 2 n || a % n ≠ 0 || (s.spanHeld (spanLines a n)).1 then (s, .ok (0x09, 1, []))
    else if (s.spanHeld (spanLines a n)).2 then (s, .wait)
    else
      let t := tagOf a false
      let (s, old, poison) := ((s.gatherHome t).dropSide t).homeAtomic t (a % 128) op (fieldAt p.payload 0 n) (fieldAt p.payload n n) (writerOf (oxDie ox).val 0x40)
      if poison then (s, .ok (0x09, 3, [])) else (s, .ok (0x09, 0, leBytes n old))

/-- A request packet is performed and answered, unless it must wait: then false. -/
def Dev.servePacket (s : Dev) (ox : Nat) (p : Packet) (failed : Option Nat) : Dev × Bool :=
  if p.ptype = 0x01 then
    match s.performHost ox p failed with
    | (s, .ok r) => (s.answerTo ox p 0x02 r.1 r.2, true)
    | (s, _) => (s, false)
  else
    match s.performRemote ox p with
    | (s, .ok r) => (s.answerTo ox p r.1 r.2.1 r.2.2, true)
    | (s, _) => (s, false)

/-- Whether two packets are of one flow. -/
def sameFlow (a b : Packet) : Bool := a.src = b.src && a.flow = b.flow

/-- The accepted requests that waited are tried again, those of one flow in their order (R575, R577). -/
def Dev.retryAccepted (s : Dev) : Dev :=
  let l := s.fab.accepted
  let (s, rest) := l.foldl (fun (acc : Dev × List Accepted) x =>
    if acc.2.any (fun y => sameFlow y.packet x.packet) then (acc.1, acc.2 ++ [x])
    else match acc.1.servePacket (x.die.val - 14) x.packet x.failed with
      | (s, true) => (s, acc.2)
      | (s, false) => (s, acc.2 ++ [x])) (s, [])
  s.modFab (fun f => { f with accepted := rest })

/-- A request packet is accepted (R577): it is performed at once, or waits behind the earlier ones of its flow. -/
def Dev.acceptPacket (s : Dev) (ox : Nat) (p : Packet) : Dev :=
  (s.modFab (fun f => { f with accepted := f.accepted ++ [{ die := oxDie ox, packet := p }] })).retryAccepted

/-- The answer to a window access arrives (R580, R582). -/
def Dev.windowAnswer (s : Dev) (p : Packet) : Dev :=
  let mine (a : WindowAccess) : Bool := a.dst = p.src && a.num.toNat = p.aux0.toNat % 65536 && a.offset = p.offset.toNat
  match s.fab.accesses.find? mine with
  | none => s
  | some a =>
    let s := (s.modFab (fun f => { f with accesses := removeFirst mine f.accesses })).closeWindows
    let status := p.aux1.toNat % 256
    match a.by_ with
    | .core => { s with reply := some (if status = 0 then .value (BitVec.ofNat 64 (leNat p.payload)) else .accessError) }
    | .op slot =>
      if status = 0 then
        let had := (Table.get none s.fab.remoteData slot.val).getD []
        s.modFab (fun f => { f with remoteData := Table.set none f.remoteData slot.val (some (had ++ p.payload)) })
      else if status = 3 then s.failOp slot 6 a.pa
      else
        let die := ((s.op slot).map (fun o => homeDie o.queue)).getD 14
        (s.report die { kind := 0x23, cls := .fault, addr := a.pa, detail := a.window + 3 * 2 ^ 12 }).failOp slot 4 a.pa

/-- A transport acknowledgement (R568, R569). -/
def Dev.ackPacket (s : Dev) (p : Packet) : Dev :=
  match s.flow p.src p.flow with
  | none => s
  | some f => if f.epoch = p.epoch then s.setFlow (f.ack p.psn) else s.bump 0x0A 0x209 0 1

/-- An unreachable notice fails the flow of the packet it names (R568, R569). -/
def Dev.noticePacket (s : Dev) (p : Packet) : Dev :=
  match s.flow (BitVec.ofNat 16 p.offset.toNat) (BitVec.ofNat 16 p.aux0.toNat) with
  | none => s
  | some f => if f.epoch = p.epoch then s.failFlow f 2 else s.bump 0x0A 0x209 0 1

/-- Whether a packet of a flow is the next in its order, and the flow's state after it (R568, R569): a newer epoch starts the flow
afresh, an older one is discarded and counted. -/
def Dev.inOrder (s : Dev) (p : Packet) : Dev × Bool :=
  let mine (f : RxFlow) : Bool := f.src = p.src && f.num = p.flow
  let put (f : RxFlow) (s : Dev) : Dev := s.modFab (fun x => { x with rxFlows := x.rxFlows.filter (fun g => !mine g) ++ [f] })
  let f := match s.fab.rxFlows.find? mine with
    | some f => f
    | none => ⟨p.src, p.flow, p.epoch, 0⟩
  let age := (p.epoch - f.epoch).toNat
  if 128 ≤ age then (s.bump 0x0A 0x209 0 1, false)
  else
    let f := if age = 0 then f else { f with epoch := p.epoch, next := 0 }
    if p.psn = f.next then (put { f with next := f.next + 1 } s, true) else (put f s, false)

/-- The packet types that R567 names. -/
def knownType (t : Nat) : Bool :=
  t = 1 || t = 2 || t = 8 || t = 9 || t = 0xA || t = 0xB || t = 0xC || t = 0x10 || t = 0x11 || t = 0x20 || t = 0x21

/-- A packet addressed to this module is delivered at an OX die (R567 to R569, R588). -/
def Dev.deliver (s : Dev) (ox : Nat) (p : Packet) : Dev :=
  if s.keyState p.pkey ≠ .enabled then s.bump 0x0A 0x205 0 1
  else if !knownType p.ptype.toNat then (s.bump 0x0A 0x206 0 1).sendNotice ox p
  else if p.ptype = 0x20 then s.ackPacket p
  else if p.ptype = 0x21 then s.noticePacket p
  else match s.inOrder p with
    | (s, false) => s
    | (s, true) =>
      let a := mkPacket 0x20 0 p.pkey p.src 0
      let s := s.emit ox { a with src := s.deviceId, flow := p.flow, epoch := p.epoch, psn := p.psn }
      match p.ptype.toNat with
      | 0x10 => s.collData p
      | 0x11 => s.collGrant p
      | 0x09 | 0x0B => s.windowAnswer p
      | 0x02 => s
      | _ => s.acceptPacket ox p

/-- A packet on its way through an OX die: delivered here, forwarded one hop further, or discarded (R583 to R586). -/
def Dev.transit (s : Dev) (ox : Nat) (p : Packet) : Dev :=
  if p.dst = s.deviceId then s.deliver ox p
  else if p.hops = 15 then (s.bump 0x0A 0x207 0 1).sendNotice ox p
  else s.emit ox { p with hops := p.hops + 1 }

/-- A packet arrives over a link (R572, R573): a host link lets in host commands and class 0 only, under its own identity. -/
def Dev.arriveAt (s : Dev) (l : LinkId) (p : Packet) : Dev :=
  if !s.linkUp l || 4096 < p.payload.length then s
  else if s.objAt 0x0A 0x102 l.val = 1 then
    if p.ptype = 1 || p.tc = 0 then
      s.transit (l.val / 8) { p with src := BitVec.ofNat 16 (s.objAt 0x0A 0x110 l.val), pkey := BitVec.ofNat 12 (s.objAt 0x0A 0x111 l.val) }
    else s.bump 0x0A 0x20A 0 1
  else s.transit (l.val / 8) p

/-- LINK_FLIT_RECEIVE (R559 to R564): a flit, and the packet it completes. -/
def execLinkFlitReceive (l : LinkId) (f : LinkFlit) (s : State) : Result :=
  s.run fun s => (match s.linkFlit l f with
    | (s, some p) => s.arriveAt l p
    | (s, none) => if f.kind.val = 2 then s.linkBound l else s)

/-- PACKET_TRANSIT (R583 to R588): a packet stands at an OX die; one that this module has addressed to itself is delivered. -/
def execPacketTransit (ox : Fin 4) (p : Packet) (s : State) : Result :=
  s.run fun s => ((s.modFab (fun f => { f with local_ := removeFirst (· == p) f.local_ })).transit ox.val p)

/-- A host command packet of a command arrives at a link; one already accepted is tried again. -/
def Dev.hostArrives (s : Dev) (l : LinkId) (p : Packet) (cmd : Nat) : Dev :=
  if p.ptype ≠ 1 || hostCmd p ≠ cmd then s
  else if s.fab.accepted.any (fun x => x.packet = p) then s.retryAccepted else s.arriveAt l p

/-- HOST_WRITE (R576). -/
def execHostWrite (l : LinkId) (p : Packet) (s : State) : Result := s.run fun s => (s.hostArrives l p 1)
/-- HOST_READ (R576). -/
def execHostRead (l : LinkId) (p : Packet) (s : State) : Result := s.run fun s => (s.hostArrives l p 2)
/-- HOST_PUSH (R576, R577). -/
def execHostPush (l : LinkId) (p : Packet) (s : State) : Result := s.run fun s => (s.hostArrives l p 3)
/-- HOST_ADD (R576, R577). -/
def execHostAdd (l : LinkId) (p : Packet) (s : State) : Result := s.run fun s => (s.hostArrives l p 4)

/-- A packet of one type arrives at a link. -/
def Dev.typeArrives (s : Dev) (l : LinkId) (p : Packet) (t : BitVec 6) : Dev := if p.ptype = t then s.arriveAt l p else s

/-- HOST_COMPLETION (R567): on its way to the host, or to this module, which has asked for none. -/
def execHostCompletion (l : LinkId) (p : Packet) (s : State) : Result := s.run fun s => (s.typeArrives l p 0x02)
/-- REMOTE_READ_REQUEST (R581). -/
def execRemoteReadRequest (l : LinkId) (p : Packet) (s : State) : Result := s.run fun s => (s.typeArrives l p 0x08)
/-- REMOTE_READ_RESPONSE (R580, R582). -/
def execRemoteReadResponse (l : LinkId) (p : Packet) (s : State) : Result := s.run fun s => (s.typeArrives l p 0x09)
/-- REMOTE_WRITE (R581). -/
def execRemoteWrite (l : LinkId) (p : Packet) (s : State) : Result := s.run fun s => (s.typeArrives l p 0x0A)
/-- REMOTE_WRITE_ACK (R580, R582). -/
def execRemoteWriteAck (l : LinkId) (p : Packet) (s : State) : Result := s.run fun s => (s.typeArrives l p 0x0B)
/-- REMOTE_ATOMIC (R581). -/
def execRemoteAtomic (l : LinkId) (p : Packet) (s : State) : Result := s.run fun s => (s.typeArrives l p 0x0C)
/-- COLLECTIVE_DATA (R600). -/
def execCollectiveData (l : LinkId) (p : Packet) (s : State) : Result := s.run fun s => (s.typeArrives l p 0x10)
/-- COLLECTIVE_GRANT (R603). -/
def execCollectiveGrant (l : LinkId) (p : Packet) (s : State) : Result := s.run fun s => (s.typeArrives l p 0x11)
/-- TRANSPORT_ACK (R568). -/
def execTransportAck (l : LinkId) (p : Packet) (s : State) : Result := s.run fun s => (s.typeArrives l p 0x20)
/-- UNREACHABLE_NOTICE (R568). -/
def execUnreachableNotice (l : LinkId) (p : Packet) (s : State) : Result := s.run fun s => (s.typeArrives l p 0x21)

/-- A remote window (R578). -/
def Dev.window (s : Dev) (w : Nat) : Window := Table.get {} s.fab.windows w
/-- Put a remote window. -/
def Dev.setWindow (s : Dev) (w : Nat) (x : Window) : Dev := s.modFab (fun f => { f with windows := Table.set {} f.windows w x })

/-- A write that clears a window's enable (R579): it completes once every access through the window is answered. -/
def Dev.disableWindow (s : Dev) (w : Nat) : Dev :=
  if (s.window w).enable then s.setWindow w { s.window w with enable := false, closing := s.fab.accesses.any (fun a => a.window = w) } else s

/-- WINDOW_DISABLE. -/
def execWindowDisable (w : Fin 1024) (s : State) : Result := s.run fun s => (s.disableWindow w.val)

/-- A write of the low or high half of a window's entry (R578, R579). -/
def Dev.writeWindow (s : Dev) (w : Nat) (high : Bool) (v : Nat) : Dev :=
  let x := s.window w
  if high then (if x.enable then s else s.setWindow w { x with pkey := BitVec.ofNat 12 v })
  else
    let x := if x.enable then x else { x with target := BitVec.ofNat 16 (bits v 63 48), tbase := BitVec.ofNat 12 (bits v 41 30) }
    let s := s.setWindow w { x with read := bit v 1, write := bit v 2, atomic := bit v 3, enable := x.enable || bit v 0 }
    if bit v 0 then s else s.disableWindow w

/-- A window access that is refused (R582): 1 disabled, 2 lacking the right. -/
def Dev.refuseAccess (s : Dev) (by_ : Requester) (w pa cause : Nat) : Dev :=
  match by_ with
  | .core => { s with reply := some .accessError }
  | .op slot =>
    let die := ((s.op slot).map (fun o => homeDie o.queue)).getD 14
    (s.report die { kind := 0x23, cls := .fault, addr := pa, detail := w + cause * 2 ^ 12 }).failOp slot 4 pa

/-- An access to what lies beyond the windows, or to a window with key bits set, is an access error (R44): an engine's is reported, and ends
its operation faulted. -/
def Dev.reservedAccess (s : Dev) (by_ : Requester) (pa : Nat) : Dev :=
  match by_ with
  | .core => { s with reply := some .accessError }
  | .op slot =>
    let q := (s.op slot).map (fun o => o.queue)
    (s.report ((q.map homeDie).getD 14) { kind := 2, cls := .fault, addr := pa, detail := 3 + ((q.map (·.val)).getD 0) * 2 ^ 32 }).failOp slot 4 pa

/-- The request packet of one line's piece of a window access (R567, R580). -/
def windowPacket (x : Window) (op : WindowOp) (pa off n : Nat) : Packet :=
  let at_ := x.tbase.toNat * 2 ^ 30 + pa % 2 ^ 30
  match op with
  | .read _ => { mkPacket 0x08 2 x.pkey x.target at_ with aux1 := BitVec.ofNat 32 n }
  | .write d => { mkPacket 0x0A 2 x.pkey x.target at_ with payload := (d.drop off).take n }
  | .atomic o a b =>
    { mkPacket 0x0C 2 x.pkey x.target at_ with
      aux0 := BitVec.ofNat 24 o.val, payload := leBytes (atomicBytes o.val) a.toNat ++ leBytes (atomicBytes o.val) b.toNat }

/-- The bytes a window access touches. -/
def windowBytes : WindowOp → Nat
  | .read n => n
  | .write d => d.length
  | .atomic o _ _ => atomicBytes o.val

/-- The right a window access needs. -/
def Window.allows (x : Window) : WindowOp → Bool
  | .read _ => x.read
  | .write _ => x.write
  | .atomic _ _ _ => x.atomic

/-- REMOTE_WINDOW_ACCESS (R43, R580, R582): each request is no larger than one line. -/
def execRemoteWindowAccess (by_ : Requester) (pa : U64) (op : WindowOp) (s : State) : Result :=
  s.run fun s => (
    let a := pa.toNat
    let n := windowBytes op
    let live := match by_ with
      | .core => true
      | .op slot => (s.op slot).isSome
    if !live || n = 0 || a < 2 ^ 41 then s
    else if 2 ^ 41 + 2 ^ 40 < a + n then s.reservedAccess by_ a
    else
      let w := (a - 2 ^ 41) / 2 ^ 30
      let x := s.window w
      if !x.enable then s.refuseAccess by_ w a 1
      else if !x.allows op then s.refuseAccess by_ w a 2
      else
        let num : U16 := match by_ with
          | .core => BitVec.ofNat 16 (0x1000 + w)
          | .op slot => opFlow slot
        if s.keyState x.pkey ≠ .enabled then
          let f := (s.flow x.target num).getD { dst := x.target, num := num, pkey := x.pkey }
          let acc : WindowAccess := {
            by_ := by_, window := w, pa := a, dst := x.target, num := num, pkey := x.pkey, offset := x.tbase.toNat * 2 ^ 30 + a % 2 ^ 30 }
          (s.modFab (fun f => { f with accesses := f.accesses ++ [acc] })).failFlow f 4
        else
          ((linePieces a n false (n / 128 + 2)).foldl (fun (acc : Dev × Nat) e =>
            let pa' := a + acc.2
            let p := windowPacket x op pa' acc.2 e.2.2
            let acc' : WindowAccess := {
              by_ := by_, window := w, pa := pa', dst := x.target, num := num, pkey := x.pkey, offset := p.offset.toNat }
            ((acc.1.modFab (fun f => { f with accesses := f.accesses ++ [acc'] })).sendFlow 0 num p, acc.2 + e.2.2)) (s, 0)).1)

/-- A key is enabled (R591): false where it is in quarantine, or enabled already. -/
def Dev.enableKey (s : Dev) (k : BitVec 12) : Dev × Bool :=
  match s.keyState k with
  | .quarantine _ | .enabled => (s, false)
  | _ => (s.setKey k .enabled, true)

/-- PKEY_ENABLE. -/
def execPkeyEnable (k : BitVec 12) (s : State) : Result := s.run fun s => (s.enableKey k).1

/-- Whether an operation is a collective of a key, by its parameters, which it may have read before its other operands. -/
def collOfKey (k : BitVec 12) (o : Operation) : Bool :=
  o.pkey = some k || (match o.body with
    | .coll x => x.pkey = k
    | _ => false)

/-- Whether an operation has an access through a remote window under a key that is not answered. -/
def Dev.accessesUnder (s : Dev) (k : BitVec 12) (o : Operation) : Bool :=
  s.fab.accesses.any (fun a => a.pkey = k && (match a.by_ with
    | .core => false
    | .op slot => slot = o.slot))

/-- The operations that the disabling of a key ends, as they stand: its collectives and those with remote-window accesses under it (R590). -/
def Dev.markKey (s : Dev) (k : BitVec 12) : Dev :=
  { s with cmd := { s.cmd with
    ops := s.cmd.ops.map (fun o => if (collOfKey k o || s.accessesUnder k o) then { o with endedKeys := k :: o.endedKeys } else o) } }

/-- A key is disabled (R590): quarantine begins, its flows fail, and what uses it ends. -/
def Dev.disableKey (s : Dev) (k : BitVec 12) : Dev :=
  if s.keyState k ≠ .enabled then s
  else
    let s := (s.setKey k (.quarantine (s.now.toNat + s.objAt 0x0A 0x204 0))).markKey k
    let s := (s.fab.flows.filter (fun f => f.pkey = k)).foldl (fun s f => s.failFlow f 4) s
    let s := (s.cmd.ops.filter (collOfKey k)).foldl (fun s o => s.endEarly o.slot 0xE) s
    let s := s.failAccesses (fun a => a.pkey = k)
    s.modFab (fun f => { f with
      accepted := f.accepted.filter (fun x => x.packet.pkey ≠ k), early := f.early.filter (fun e => e.pkey ≠ k) })

/-- PKEY_DISABLE. -/
def execPkeyDisable (k : BitVec 12) (s : State) : Result := s.run fun s => (s.disableKey k)

/-- Whether a packet of a key is in a link's buffers: sent, queued or in assembly. -/
def Link.holdsKey (x : Link) (k : BitVec 12) : Bool :=
  x.sent.any (fun e => e.packet.pkey = k) || x.queue.any (fun p => p.pkey = k)
    || x.asm.toList.any (fun b => b.any (fun l => 32 ≤ l.length && bits (leNat (l.take 32)) 99 88 = k.toNat))

/-- Whether a disabled key is drained: what R590 ended is terminal, and no packet of it is in a buffer (R592). -/
def Dev.keyIdle (s : Dev) (k : BitVec 12) : Bool :=
  !s.cmd.ops.any (fun o => o.endedKeys.contains k) && !s.fab.accesses.any (fun a => a.pkey = k) && !s.fab.accepted.any (fun x => x.packet.pkey = k)
    && !s.fab.local_.any (fun p => p.pkey = k) && !s.fab.links.toList.any (fun x => x.holdsKey k)

/-- A disabled key that is drained reaches state 0x0 and is reported (R592, R677). -/
def Dev.drainKey (s : Dev) (k : BitVec 12) : Dev :=
  if s.keyState k = .undrained && s.keyIdle k then (s.setKey k .drained).event 1 k.toNat else s

/-- QUARANTINE_END (R592). -/
def execQuarantineEnd (k : BitVec 12) (t : Instant) (s : State) : Result :=
  s.run fun s => (match s.keyState k with
    | .quarantine u =>
      let s' := s.advance t
      if u ≤ s'.now.toNat then (s'.setKey k .undrained).drainKey k else s
    | _ => s)

/-- KEY_DRAINED (R592). -/
def execKeyDrained (k : BitVec 12) (s : State) : Result := s.run fun s => (s.drainKey k)

/-- A write of device_id (R606): refused while any key is enabled. -/
def Dev.writeDeviceId (s : Dev) (v : Nat) : Dev × Bool :=
  if s.fab.keys.any (fun e => e.2 = .enabled) then (s, false) else (s.setObjAt 0x0A 0x200 0 v, true)

/-- DEVICE_ID_WRITE. -/
def execDeviceIdWrite (v : U16) (s : State) : Result := s.run fun s => (s.writeDeviceId v.toNat).1

end Sys2Proof.Machine
end

