-- ==== Sys2Proof/Machine/Lift.lean ====
section
/-! DEFINITION. Machine/Lift.lean: the operations of the engines' part of the state, applied to a whole state, for the chapters whose
commands also work on power, management and the root of trust (12 to 14). -/

namespace Sys2Proof.Machine

/-- Change the engines' part of the state. -/
def State.lift (s : State) (f : Dev → Dev) : State := { s with toDev := f s.toDev }

/-- Change the engines' part of the state by an operation that answers something. -/
def State.liftP {α : Type} (s : State) (f : Dev → Dev × α) : State × α := ({ s with toDev := (f s.toDev).1 }, (f s.toDev).2)

/-- advance on the engines' part of the state. -/
def State.advance (s : State) (t : U64) : State := s.lift (fun d => d.advance t)
/-- setObj on the engines' part of the state. -/
def State.setObj (s : State) (addr v : Nat) : State := s.lift (fun d => d.setObj addr v)
/-- setObjAt on the engines' part of the state. -/
def State.setObjAt (s : State) (ss idx sub v : Nat) : State := s.lift (fun d => d.setObjAt ss idx sub v)
/-- bump on the engines' part of the state. -/
def State.bump (s : State) (ss idx sub n : Nat) : State := s.lift (fun d => d.bump ss idx sub n)
/-- event on the engines' part of the state. -/
def State.event (s : State) (kind detail : Nat) : State := s.lift (fun d => d.event kind detail)
/-- report on the engines' part of the state. -/
def State.report (s : State) (die : Die) (f : RecFields) : State := s.lift (fun d => d.report die f)
/-- modThr on the engines' part of the state. -/
def State.modThr (s : State) (f : Throttles → Throttles) : State := s.lift (fun d => d.modThr f)
/-- modXl on the engines' part of the state. -/
def State.modXl (s : State) (f : XlState → XlState) : State := s.lift (fun d => d.modXl f)
/-- modMem on the engines' part of the state. -/
def State.modMem (s : State) (f : MemState → MemState) : State := s.lift (fun d => d.modMem f)
/-- modFab on the engines' part of the state. -/
def State.modFab (s : State) (f : FabricState → FabricState) : State := s.lift (fun d => d.modFab f)
/-- modRealm on the engines' part of the state. -/
def State.modRealm (s : State) (r : Nat) (f : Realm → Realm) : State := s.lift (fun d => d.modRealm r f)
/-- modQueue on the engines' part of the state. -/
def State.modQueue (s : State) (q : QueueId) (f : Queue → Queue) : State := s.lift (fun d => d.modQueue q f)
/-- modJournal on the engines' part of the state. -/
def State.modJournal (s : State) (f : Journal → Journal) : State := s.lift (fun d => d.modJournal f)
/-- modRelay on the engines' part of the state. -/
def State.modRelay (s : State) (r : Fin 64) (f : Relay → Relay) : State := s.lift (fun d => d.modRelay r f)
/-- modMmu on the engines' part of the state. -/
def State.modMmu (s : State) (m : MmuId) (f : Mmu → Mmu) : State := s.lift (fun d => d.modMmu m f)
/-- linkDown on the engines' part of the state. -/
def State.linkDown (s : State) (l : LinkId) (cause newState : Nat) : State := s.lift (fun d => d.linkDown l cause newState)
/-- linkFails on the engines' part of the state. -/
def State.linkFails (s : State) (l : LinkId) (cause : Nat) : State := s.lift (fun d => d.linkFails l cause)
/-- trainLink on the engines' part of the state. -/
def State.trainLink (s : State) (l : LinkId) : State := s.lift (fun d => d.trainLink l)
/-- writeEnable on the engines' part of the state. -/
def State.writeEnable (s : State) (l : LinkId) (v : Bool) : State := s.lift (fun d => d.writeEnable l v)
/-- writeRole on the engines' part of the state, with its answer. -/
def State.writeRole (s : State) (l : LinkId) (v : Nat) : State × Bool := s.liftP (fun d => d.writeRole l v)
/-- writeDeviceId on the engines' part of the state, with its answer. -/
def State.writeDeviceId (s : State) (v : Nat) : State × Bool := s.liftP (fun d => d.writeDeviceId v)
/-- enableKey on the engines' part of the state, with its answer. -/
def State.enableKey (s : State) (k : BitVec 12) : State × Bool := s.liftP (fun d => d.enableKey k)
/-- disableKey on the engines' part of the state. -/
def State.disableKey (s : State) (k : BitVec 12) : State := s.lift (fun d => d.disableKey k)
/-- writeStepWindow on the engines' part of the state, with its answer. -/
def State.writeStepWindow (s : State) (v : Nat) : State × Bool := s.liftP (fun d => d.writeStepWindow v)
/-- physWrite on the engines' part of the state. -/
def State.physWrite (s : State) (pa : Nat) (bytes : List Byte) (realm : Bool) (by_ : Die) : State := s.lift (fun d => d.physWrite pa bytes realm by_)
/-- dramWrite on the engines' part of the state. -/
def State.dramWrite (s : State) (t : LineTag) (data : LineData) (poison : Bool) : State := s.lift (fun d => d.dramWrite t data poison)
/-- freshNat on the engines' part of the state, with its answer. -/
def State.freshNat (s : State) : State × Nat := s.liftP (fun d => d.freshNat)

/-- A draw of the random bit generator that no earlier draw is: its number, from 1 (R524). -/
def State.freshDraw (s : State) : State × Nat := ((s.freshNat).1, (s.freshNat).2 + 1)
/-- prRespStore on the engines' part of the state. -/
def State.prRespStore (s : State) (m : MmuId) (v : U64) : State := s.lift (fun d => d.prRespStore m v)
/-- writeWindow on the engines' part of the state. -/
def State.writeWindow (s : State) (w : Nat) (high : Bool) (v : Nat) : State := s.lift (fun d => d.writeWindow w high v)

end Sys2Proof.Machine
end

