-- ==== Sys2Proof/Machine/Power.lean ====
section
/-! DEFINITION. Machine/Power.lean: the 60 V input, operating points, the power cap, rail and thermal limits, and energy (12, R608 to
R643). Voltages are in millivolts, temperatures in 0.1 °C. -/

namespace Sys2Proof.Machine

/-- Change the power manager. -/
def State.modPow (s : State) (f : PowerState → PowerState) : State := { s with pow := f s.pow }

/-- A signed number as n bits of two's complement. -/
def codeInt (n : Nat) (i : Int) : Nat := (i % (2 ^ n : Nat)).toNat
/-- The signed number an n-bit code stands for. -/
def intOf (n c : Nat) : Int := if bit c (n - 1) then (c % 2 ^ n : Nat) - (2 ^ n : Nat) else (c % 2 ^ n : Nat)

/-- A record of the power manager, which stands on SV1 (R651). -/
def State.powerRecord (s : State) (kind count detail : Nat) : State :=
  s.report 19 { kind := kind, cls := .corrected, addr := 0, count := count, detail := detail }

/-- Whether a second has passed since the last record of a kind for a die (R626, R629, R632). -/
def State.recordDue (s : State) (kind die : Nat) : Bool :=
  match Table.get none s.pow.lastRec (kind * 32 + die) with
  | none => true
  | some t => t.toNat + 1000000000 ≤ s.now.toNat

/-- A record of which each die has at most one each second: false where it is not due. -/
def State.limitedRecord (s : State) (kind die count detail : Nat) : State × Bool :=
  if s.recordDue kind die then
    ((s.modPow (fun p => { p with lastRec := Table.set none p.lastRec (kind * 32 + die) (some s.now) })).powerRecord kind count detail, true)
  else (s, false)

/-- SAG_WARN (R612, R677): the first 1 µs mean below sag_warn_mv raises a supply warning. -/
def execSagWarn (mv : Nat) (watts : U16) (s : State) : Result :=
  .next (
    if s.pow.warning || !s.pow.rails || s.objAt 0x0B 0x601 0 ≤ mv then s
    else
      let s := s.modPow (fun p => { p with warning := true, supplyIrq := true, attention := true })
      let s := (s.powerRecord 0x30 0 (mv / 10 % 2 ^ 16 + watts.toNat * 2 ^ 16)).bump 0x0B 0x604 0 1
      s.event 4 (mv / 10 % 2 ^ 16))

/-- The rails go off: everything that needs power is lost, and what is kept without power stays (R615, R616, R631, R704, R711, R733). -/
def State.powerOff (s : State) : State :=
  let p : PowerState := {
    rails := false, hotSwap := s.pow.hotSwap, latch := s.pow.latch, bringUpLatch := s.pow.bringUpLatch, tripWait := s.pow.tripWait,
    scanHold := s.pow.scanHold, attention := s.pow.attention }
  let b : BootState := {
    carrier := s.boot.carrier, store := s.boot.store, storeBlank := s.boot.storeBlank, erased := s.boot.erased, counters := s.boot.counters,
    parts := s.boot.parts, interlock := s.boot.interlock, pinClosed := s.boot.pinClosed, prepared := s.boot.prepared }
  { pending := s.pending, fresh := s.fresh, pow := p, boot := b }

/-- A shutdown latches its cause and turns every core rail off (R617). -/
def State.shutDown (s : State) (cause : Shutdown) : State := (s.modPow (fun p => { p with latch := some cause })).powerOff

/-- SAG_RESET (R615): a 1 µs mean below sag_reset_mv. -/
def execSagReset (mv : Nat) (s : State) : Result :=
  .next (if !s.pow.rails || s.objAt 0x0B 0x602 0 ≤ mv then s else s.shutDown .sagReset)

/-- OVER_VOLTAGE (R616): the 1 µs mean reaches 69 V. -/
def execOverVoltage (mv : Nat) (s : State) : Result :=
  .next (if 69000 ≤ mv && s.pow.hotSwap then (s.shutDown .overVoltage).modPow (fun p => { p with hotSwap := false }) else s)

/-- Whether the input's hold lets the module come up: at or above 54 V throughout (R610), and not above 66 V where the hot-swap switch had
opened (R616). -/
def State.holdGood (s : State) (h : SupplyHold) : Bool :=
  !s.pow.rails && !s.pow.tripWait && !s.boot.prepared && s.boot.pinClosed && 54000 ≤ h.low && (s.pow.hotSwap || h.high ≤ 66000)

/-- POWER_GOOD_HOLD (R610, R616): the input has stayed at or above 54 V for 100 ms, and the cold reset is due. -/
def execPowerGoodHold (h : SupplyHold) (s : State) : Result :=
  .next (
    if s.holdGood h then { (s.advance h.t).modPow (fun p => { p with hotSwap := true }) with resetDue := some .cold } else s)

/-- A junction that reaches 105 °C turns every core rail off; the restart waits for the inlet (R631). -/
def State.trip (s : State) (die : Die) : State := (s.shutDown (.thermalTrip die)).modPow (fun p => { p with tripWait := true })

/-- THERMAL_TRIP (R631). -/
def execThermalTrip (die : Die) (s : State) : Result := .next (if s.pow.rails then s.trip die else s)

/-- THERMAL_TRIP_RESTART (R631): the inlet has stayed at or below 40 °C for 10 s, given in nanoseconds. -/
def execThermalTripRestart (inletTenths : Int) (coolFor : Nat) (t : Instant) (s : State) : Result :=
  .next (
    if s.pow.tripWait && inletTenths ≤ 400 && 10000000000 ≤ coolFor then (s.advance t).modPow (fun p => { p with tripWait := false })
    else s)

/-- The voltage of an operating point (R653). -/
def opVoltage (op : Nat) : Nat := [550, 600, 630, 660, 690, 720, 780, 840].getD op 840

/-- A die's thermal ceiling. -/
def PowerState.therm (p : PowerState) (die : Nat) : Nat := Table.get 7 p.thermCeil die

/-- The lower of the module ceiling and a die's thermal ceiling (R652). -/
def PowerState.ceil (p : PowerState) (die : Nat) : Nat := min p.moduleCeil (p.therm die)

/-- A die's op_ceiling objects follow its ceilings (R652). -/
def State.showCeil (s : State) : State := (List.range 20).foldl (fun s d => s.setObjAt 0x0B 0x203 d (s.pow.ceil d)) s

/-- The phases of the queues homed on a die whose state is running or draining (R618). -/
def State.phasesOn (s : State) (die : Nat) : List Nat :=
  s.cmd.queues.filterMap (fun e =>
    if h : e.1 < 2048 then
      (if homeDie ⟨e.1, h⟩ = die && (e.2.state = .running || e.2.state = .draining) then some e.2.phase.toNat else none)
    else none)

/-- The candidate operating point of a compute, service or optical die (R618). -/
def State.candidate (s : State) (die : Nat) : Nat :=
  match s.phasesOn die with
  | [] => s.objAt 0x0B 0x201 0
  | ps => ps.foldl (fun m p => max m (s.objAt 0x0B 0x200 p)) 0

/-- A die goes to an operating point and its rail to that point's voltage plus the die's trim (R620). -/
def State.setOp (s : State) (die op : Nat) : State :=
  (s.setObjAt 0x0B 0x202 die op).setObjAt 0x0B 0x204 die (opVoltage op + Table.get 0 s.pow.trims die)

/-- The ceiling on a die's operating point: the module ceiling acts on compute, service and optical dies only (R624, R629). -/
def PowerState.opLimit (p : PowerState) (die : Nat) : Nat := if 8 ≤ die && die ≤ 13 then p.therm die else p.ceil die

/-- The operating point a candidate gives a die; a supply warning raises none (R613, R620). -/
def State.opFor (s : State) (die cand : Nat) : Nat :=
  let op := min cand (s.pow.opLimit die)
  if s.pow.warning then min op (s.objAt 0x0B 0x202 die) else op

/-- The power manager evaluates every die in service: first the compute, optical and service dies, then the dies that follow the
compute dies (R618 to R621). -/
def State.evaluate (s : State) : State :=
  let own : List Nat := [0, 1, 2, 3, 4, 5, 6, 7, 14, 15, 16, 17, 18, 19]
  let s := (own.filter s.inService).foldl (fun s d => s.setOp d (s.opFor d (s.candidate d))) s
  let high := ((List.range 8).filter s.inService).foldl (fun m d => max m (s.objAt 0x0B 0x202 d)) (s.objAt 0x0B 0x201 0)
  (([8, 9, 10, 11, 12, 13] : List Nat).filter s.inService).foldl (fun s d => s.setOp d (s.opFor d high)) s

/-- POWER_EVALUATION (R621, R622). -/
def execPowerEvaluation (s : State) : Result := .next (if s.pow.rails then s.evaluate else s)

/-- The mean of the windows of the last 10 ms (R652, power_w). -/
def meanWatts (l : List Nat) : Nat := if l.isEmpty then 0 else l.sum / l.length

/-- CAP_WINDOW_END (R624): a 10 µs window ends with its mean power and the common throttle set for the next. -/
def execCapWindowEnd (watts : Nat) (throttle : Fin 241) (s : State) : Result :=
  .next (
    if !s.pow.rails then s
    else
      let stop := s.pow.capStart + 10000
      let s := s.advance stop
      let cap := s.objAt 0x0B 0x300 0
      let history := (watts :: s.pow.history).take 1000
      let above := if cap < watts then s.pow.overRun + 1 else 0
      let under := if watts * 100 ≤ cap * 95 then s.pow.underRun + 1 else 0
      let lower := above = 50 && 0 < s.pow.moduleCeil
      let raise := under = 1000 && s.pow.moduleCeil < 7 && !s.pow.warning
      let s := s.modPow (fun p => { p with
        capStart := stop, history := history,
        overRun := if above = 50 then 0 else above, underRun := if under = 1000 then 0 else under,
        moduleCeil := if lower then p.moduleCeil - 1 else if raise then p.moduleCeil + 1 else p.moduleCeil })
      let s := s.modThr (fun t => { t with common := throttle.val })
      let s := if lower then s.bump 0x0B 0x303 0 1 else s
      let s := s.setObjAt 0x0B 0x301 0 (meanWatts history)
      let s := if s.objAt 0x0B 0x304 0 < watts then s.setObjAt 0x0B 0x304 0 watts else s
      s.showCeil)

/-- A write of power_cap_w (R625, R652): false where it is out of range. -/
def State.writePowerCap (s : State) (v : Nat) : State × Bool :=
  if 1500 ≤ v && v ≤ 5000 then (s.setObjAt 0x0B 0x300 0 v, true) else (s, false)

/-- POWER_CAP_WRITE. -/
def execPowerCapWrite (v : U16) (s : State) : Result := .next (s.writePowerCap v.toNat).1

/-- The rail current limits in amperes over 10 µs and over 1 µs (R626). -/
def railLimit (die : Nat) (short : Bool) : Nat :=
  let l := if die < 8 then (560, 680) else if die < 10 then (330, 400) else if die < 14 then (190, 230)
    else if die < 18 then (110, 135) else (190, 230)
  if short then l.2 else l.1

/-- RAIL_WINDOW_END (R626): a window ends with the rail's mean current and the steps its throttle withheld; a window above its limit
throttles the die alone in the next. -/
def execRailWindowEnd (die : Die) (short : Bool) (amps steps : Nat) (throttle : Fin 241) (s : State) : Result :=
  .next (
    if !s.pow.rails then s
    else
      let key := 2 * die.val + b2n short
      let taken := if Table.get 0 s.thr.rail key = 0 then 0 else steps
      let above := railLimit die.val short < amps
      let since := Table.get 0 s.pow.railSince die.val + taken
      let s := (s.bump 0x0B 0x310 die.val taken).modPow (fun p => { p with railSince := Table.set 0 p.railSince die.val since })
      let s := s.modThr (fun t => { t with rail := Table.set 0 t.rail key (if above then max 1 throttle.val else 0) })
      if !above then s
      else
        let (s, written) := s.limitedRecord 0x32 die.val (since % 2 ^ 48) die.val
        if written then s.modPow (fun p => { p with railSince := Table.set 0 p.railSince die.val 0 }) else s)

/-- A thermal tick of one die (R629, R630). -/
def State.thermalDie (s : State) (die : Nat) (tj : Int) : State :=
  let s := s.setObjAt 0x0B 0x700 die (codeInt 16 tj)
  let limit : Int := 10 * (s.objAt 0x0B 0x701 0 : Nat)
  let ceil := s.pow.therm die
  if limit ≤ tj then
    let s := s.modPow (fun p => { p with
      coolRun := Table.set 0 p.coolRun die 0,
      thermCeil := Table.set 7 p.thermCeil die (ceil - 1) })
    let s := if ceil = 0 then s.modThr (fun t => { t with therm := Table.set 0 t.therm die (min 240 (Table.get 0 t.therm die + 16)) }) else s
    let s := if ceil = 0 then s else s.bump 0x0B 0x702 die 1
    (s.limitedRecord 0x33 die 0 (die + codeInt 16 tj * 2 ^ 16)).1
  else
    let run := if tj ≤ limit - 30 then Table.get 0 s.pow.coolRun die + 1 else 0
    let raise := run = 10 && ceil < 7 && !s.pow.warning
    let s := s.modPow (fun p => { p with
      coolRun := Table.set 0 p.coolRun die (if run = 10 then 0 else run),
      thermCeil := if raise then Table.set 7 p.thermCeil die (ceil + 1) else p.thermCeil })
    if raise then s.modThr (fun t => { t with therm := Table.set 0 t.therm die 0 }) else s

/-- The die in service whose junction a tick reads at 105 °C or more, if there is one (R631). -/
def State.tooHot (s : State) (r : ThermalReading) : Option Die :=
  (r.tj.find? (fun x => s.inService x.1.val && 1050 ≤ x.2)).map Prod.fst

/-- The effect of a tick that trips nothing (R629, R630, R632). -/
def State.thermalTick (s : State) (r : ThermalReading) : State :=
  let stop := s.pow.tickStart + 1000000
  let s := (s.advance stop).modPow (fun p => { p with tickStart := stop })
  let s := (r.tj.filter (fun x => s.inService x.1.val)).foldl (fun s x => s.thermalDie x.1.val x.2) s
  let s := ((s.setObjAt 0x0B 0x703 0 (codeInt 16 r.inlet)).setObjAt 0x0B 0x704 0 (codeInt 16 r.outlet)).showCeil
  if 450 < r.inlet || r.inlet + 200 < r.outlet then
    (s.limitedRecord 0x34 0 0 (codeInt 16 r.inlet + codeInt 16 r.outlet * 2 ^ 16)).1
  else s

/-- THERMAL_TICK (R629 to R632): a reading of 105 °C or more trips the module. -/
def execThermalTick (r : ThermalReading) (s : State) : Result :=
  .next (
    if !s.pow.rails then s
    else match s.tooHot r with
      | some die => s.trip die
      | none => s.thermalTick r)

/-- The record of a job slot, 64 the unattributed bucket. -/
def State.job (s : State) (j : Nat) : JobRecord := Table.get {} s.pow.jobs j
/-- Put the record of a job slot. -/
def State.setJob (s : State) (j : Nat) (r : JobRecord) : State := s.modPow (fun p => { p with jobs := Table.set {} p.jobs j r })

/-- The energy unit of the activity model: picojoules divided by 720² (R639). -/
def exactPerMicrojoule : Nat := 720 * 720 * 1000000

/-- The 64 bytes of a job record, as the number its table numbers the bits of (R643). -/
def JobRecord.bits (r : JobRecord) : Nat :=
  b2n r.isOpen + b2n r.modelled * 2 + r.windows.toNat * 2 ^ 224 + r.tClose.toNat * 2 ^ 256 + r.tOpen.toNat * 2 ^ 320
    + r.modelledExact / exactPerMicrojoule % 2 ^ 64 * 2 ^ 384 + r.measured % 2 ^ 64 * 2 ^ 448

/-- A write of job_open (R636): false where it is refused. -/
def State.openJob (s : State) (j : Nat) : State × Bool :=
  if 64 ≤ j || (s.job j).isOpen then (s, false)
  else (s.setJob j { isOpen := true, tOpen := s.pow.energyStart + 1000000 }, true)

/-- JOB_OPEN. -/
def execJobOpen (v : Byte) (s : State) : Result := .next (s.openJob v.toNat).1

/-- A write of job_close (R636). -/
def State.closeJob (s : State) (j : Nat) : State :=
  if 64 ≤ j || !(s.job j).isOpen then s
  else s.setJob j { s.job j with isOpen := false, tClose := s.pow.energyStart + 1000000 }

/-- JOB_CLOSE. -/
def execJobClose (v : Byte) (s : State) : Result := .next (s.closeJob v.toNat)

/-- Whether a job slot takes from the window that begins at start (R636). -/
def JobRecord.takes (r : JobRecord) (start : U64) : Bool :=
  (r.isOpen || r.tClose.toNat = start.toNat + 1000000) && r.tOpen.toNat ≤ start.toNat

/-- The modelled energy of one count of events, in the exact unit (R639). -/
def State.eventEnergy (s : State) (volts : List (Die × Nat)) (a : Activity) : Nat :=
  let v := if a.cls = 8 || a.cls = 10 then 720 else ((volts.find? (fun x => x.1 = a.die)).map Prod.snd).getD (s.objAt 0x0B 0x204 a.die.val)
  a.count * s.objAt 0x0B 0x503 a.cls.val * (v * v)

/-- The job slot of the operation that causes events: the one its queue was bound to at its issue, 64 for none (R635, R637). -/
def State.activityJob (s : State) (a : Activity) : Nat :=
  (a.cause.bind (fun j => (Table.get [] s.cmd.jobs j.val)[a.ago]?)).getD 64

/-- At a window's end only the last operation of each journal slot can cause events still. -/
def State.trimJobs (s : State) : State :=
  { s with cmd := { s.cmd with jobs := s.cmd.jobs.map (fun e => (e.1, e.2.take 1)) } }

/-- ENERGY_WINDOW_END (R633, R637, R639 to R641): the energy of a window, in microjoules, is divided among the open slots and the
unattributed bucket; none: the measurement has failed. -/
def execEnergyWindowEnd (measured : Option Nat) (volts : List (Die × Nat)) (acts : List Activity) (s : State) : Result :=
  .next (
    if !s.pow.rails then s
    else
      let start := s.pow.energyStart
      let stop := start + 1000000
      let slots := (List.range 64).filter (fun j => (s.job j).takes start)
      let who (a : Activity) : Nat := if slots.contains (s.activityJob a) then s.activityJob a else 64
      let model (j : Nat) : Nat := ((acts.filter (fun a => who a = j)).map (s.eventEnergy volts)).sum
      let total := ((slots ++ [64]).map model).sum
      let share (j : Nat) : Nat :=
        match measured with
        | some e => if total = 0 then 0 else e * model j / total
        | none => model j / exactPerMicrojoule
      let given := (slots.map share).sum
      let rest := match measured with
        | some e => e - given
        | none => share 64
      let s := acts.foldl (fun s a => s.modPow (fun p => { p with
        activity := Table.set 0 p.activity (who a * 16 + a.cls.val) ((Table.get 0 p.activity (who a * 16 + a.cls.val) + a.count) % 2 ^ 64) })) s
      let s := (slots ++ [64]).foldl (fun (s : State) (j : Nat) =>
        let r := s.job j
        s.setJob j { r with
          measured := r.measured + (if j = 64 then rest else share j), modelledExact := r.modelledExact + model j,
          windows := r.windows + 1, modelled := r.modelled || measured.isNone }) s
      let s := ((s.advance stop).modPow (fun p => { p with energyStart := stop })).trimJobs
      match measured with
      | some e => s.bump 0x0B 0x302 0 e
      | none => s.powerRecord 0x37 1 0)

end Sys2Proof.Machine
end

