-- ==== Sys2Proof/Machine/Identity.lean ====
section
/-! DEFINITION. Machine/Identity.lean: the keys derived from the device secret, the carrier's identity memory and the image store, the
personality, ripening and held configuration records, and the checks of the parts' identity memories (R645 to R650, R695, R698 to R708,
R716, R717, R729 to R732). -/

namespace Sys2Proof.Machine

/-- Change the root of trust and what the carrier holds. -/
def State.modBoot (s : State) (f : BootState → BootState) : State := { s with boot := f s.boot }

/-- HMAC over SHA-256 (FIPS 198-1): its block is 64 bytes. -/
def hmac256 (key msg : List Byte) : List Byte :=
  let k := if 64 < key.length then sha256 key else key
  let k := k ++ List.replicate (64 - k.length) 0
  sha256 (k.map (· ^^^ 0x5C) ++ sha256 (k.map (· ^^^ 0x36) ++ msg))

/-- The bytes of an ASCII string. -/
def ascii (t : String) : List Byte := t.toList.map (fun c => BitVec.ofNat 8 c.toNat)

/-- HKDF-SHA-384 with an empty salt (R699). -/
def deriveKey (secret info : List Byte) (n : Nat) : List Byte := hkdfExpand (hkdfExtract [] secret) info n

/-- A P-384 private key from 48 bytes (R699). -/
def privateOf (b : List Byte) : Nat := beNat b % (p384Order - 1) + 1

/-- The device identity key (R699). -/
def identityPrivate (secret : List Byte) : Nat := privateOf (deriveKey secret (ascii "Sahkin identity") 48)
/-- The alias key of a firmware measurement (R699). -/
def aliasPrivate (secret measurement : List Byte) : Nat := privateOf (deriveKey secret (ascii "Sahkin alias" ++ measurement) 48)
/-- What seeds every tree of the device LMS key (R699). -/
def lmsSecret (secret : List Byte) : List Byte := deriveKey secret (ascii "Sahkin LMS") 48
/-- The ripening key (R648, R699). -/
def ripeningKey (secret : List Byte) : List Byte := deriveKey secret (ascii "Sahkin ripening") 32
/-- The configuration key (R695, R699). -/
def configKey (secret : List Byte) : List Byte := deriveKey secret (ascii "Sahkin config") 32

/-- A byte of the carrier's identity memory (R703). -/
def State.carrierByte (s : State) (off : Nat) : Byte := (Table.get none s.boot.carrier off).getD (Config.carrierByte off)
/-- Bytes of the carrier's identity memory. -/
def State.carrierBytes (s : State) (off n : Nat) : List Byte := (List.range n).map (fun i => s.carrierByte (off + i))
/-- Write bytes of the carrier's identity memory. -/
def State.carrierWrite (s : State) (off : Nat) (b : List Byte) : State :=
  s.modBoot (fun x => { x with carrier := Table.setRange none x.carrier off (b.map some) })
/-- Bytes of the image store (R716). -/
def State.storeBytes (s : State) (off n : Nat) : List Byte :=
  (List.range n).map (fun i =>
    (Table.get none s.boot.store (off + i)).getD (if s.boot.erased then Config.erasedByte (off + i) else Config.storeByte (off + i)))
/-- Write bytes of the image store. -/
def State.storeWrite (s : State) (off : Nat) (b : List Byte) : State :=
  s.modBoot (fun x => { x with store := Table.setRange none x.store off (b.map some) })

/-- A one-way counter of the carrier (R704). -/
def State.oneWay (s : State) (i : Fin 3) : Nat := s.boot.counters[i]
/-- A write of a one-way counter: it never falls (R704). -/
def State.raiseCounter (s : State) (i : Fin 3) (v : Nat) : State :=
  s.modBoot (fun x => { x with counters := x.counters.set i (max x.counters[i] v) i.isLt })

/-- Whether both signatures of a signed part hold, the ECDSA signature in its first 96 bytes and the HSS signature after it (R702). -/
def bothSigned (key hss signed sigs : List Byte) : Bool :=
  ecdsaVerify key (sha384 signed) (sliceBytes sigs 0 96) && hssVerify hss signed (sigs.drop 96)

/-- Whether every byte of a range is zero. -/
def zeroBytes (l : List Byte) (off n : Nat) : Bool := (sliceBytes l off n).all (· = 0)

/-- Whether a personality slot is valid (R706). -/
def State.slotValid (s : State) (r : List Byte) : Bool :=
  fieldAt r 0 4 = 1 && fieldAt r 0xC 4 / 2 = 0 && zeroBytes r 0x29 3 && zeroBytes r 0x34 12 && zeroBytes r 0xDC 4 && zeroBytes r 0x2D8 40
    && bothSigned Config.personalityKey Config.personalityHss (sliceBytes r 0 0xB00) (sliceBytes r 0xB00 4192) && s.oneWay 2 ≤ fieldAt r 4 4

/-- The device secret that a PUF read and a record's helper data give (R698). -/
def secretOf (puf r : List Byte) : List Byte := Config.pufSecret puf (sliceBytes r 0x300 2048)

/-- Whether a record is bound to the package (R707). -/
def slotBound (puf r : List Byte) : Bool := p384Public (identityPrivate (secretOf puf r)) = sliceBytes r 0x40 96

/-- The offset of a personality slot: 0 is A, 1 is B (R703). -/
def slotBase (i : Nat) : Nat := 0x1000 + 0x2000 * i

/-- A personality slot. -/
def State.slotBytes (s : State) (i : Nat) : List Byte := s.carrierBytes (slotBase i) 8192

/-- The personality record in use (R706), if there is one. -/
def State.personality (s : State) : Option (List Byte) := s.boot.slot.map s.slotBytes

/-- The slot of higher sequence among some, slot A on a tie (R706). -/
def State.bestSlot (s : State) (l : List Nat) : Option Nat :=
  l.foldl (fun best i => match best with
    | none => some i
    | some j => if fieldAt (s.slotBytes j) 4 4 < fieldAt (s.slotBytes i) 4 4 then some i else some j) none

/-- What the boot ROM finds in a header and a body (R717): accepted with its versions and measurement, or why not, as boot_fail_cause
names it. The floor is the security version required. -/
def checkImage (floor : Nat) (header : List Byte) (body : Nat → List Byte) : Firmware ⊕ Nat :=
  let len := fieldAt header 0xC 4
  let n := fieldAt header 0x10 4
  let entry (i : Nat) : List Byte := sliceBytes header (0x20 + 32 * i) 32
  let entries := (List.range n).map entry
  let targets := entries.map (fun e => fieldAt e 0 1)
  let sections := entries.all (fun e => fieldAt e 4 4 + fieldAt e 8 4 ≤ len) && targets.eraseDups.length = n
    && targets.all (fun t => 1 ≤ t && t ≤ 4)
  if fieldAt header 0 4 ≠ 1 || !bothSigned Config.firmwareKey Config.firmwareHss (sliceBytes header 0 0x180) (sliceBytes header 0x180 4192) then .inr 3
  else if fieldAt header 8 4 < floor then .inr 4
  else if 50331648 < len || n = 0 || 8 < n || !sections || sha384 (body len) ≠ sliceBytes header 0x120 48 then .inr 5
  else .inl { version := fieldAt header 4 4, security := fieldAt header 8 4, measurement := sha384 (sliceBytes header 0 0x180) }

/-- The security version an image needs: the greater of counter 1 and the record's minimum (R717). -/
def State.imageFloor (s : State) : Nat := max (s.oneWay 1) (((s.personality).map (fun r => fieldAt r 8 4)).getD 0)

/-- The image in the image store (R716, R717); while the store is erased or being written there is none (the caution after R722). -/
def State.storedImage (s : State) : Firmware ⊕ Nat :=
  if s.boot.storeBlank then .inr 3
  else checkImage s.imageFloor (s.storeBytes 0 8192) (fun n => s.storeBytes 8192 n)

/-- One of the two copies of a record with a sequence and a MAC, if it is valid: version 1, and its last 32 bytes the HMAC of the rest. -/
def State.macCopy (s : State) (key : List Byte) (off n : Nat) : Option (List Byte) :=
  let r := s.carrierBytes off n
  if fieldAt r 0 2 = 1 && hmac256 key (r.take (n - 32)) = r.drop (n - 32) then some r else none

/-- The valid copy of higher sequence, with which of the two it is (R649, R695). -/
def State.bestCopy (s : State) (key : List Byte) (off n : Nat) : Option (List Byte × Nat) :=
  match s.macCopy key off n, s.macCopy key (off + n) n with
  | some a, some b => if fieldAt a 4 4 < fieldAt b 4 4 then some (b, 1) else some (a, 0)
  | some a, none => some (a, 0)
  | none, some b => some (b, 1)
  | none, none => none

/-- The powered hours the ripening record gives. -/
def State.poweredHours (s : State) : Nat := s.pow.hoursBase + s.now.toNat / 3600000000000

/-- The first 0xE0 bytes of the ripening record that the power manager would write (R648). -/
def State.ripenBytes (s : State) : List Byte :=
  let per (f : Nat → List Byte) : List Byte := (List.range 20).flatMap f
  leBytes 2 1 ++ leBytes 2 0 ++ leBytes 4 (s.pow.ripenSeq + 1) ++ leBytes 4 s.poweredHours ++ leBytes 4 s.pow.checks
    ++ leBytes 4 s.pow.worn ++ leBytes 4 0 ++ per (fun d => leBytes 1 (Table.get 0 s.pow.trims d)) ++ leBytes 4 0
    ++ per (fun d => leBytes 4 (Table.get 0 s.pow.refs d)) ++ per (fun d => leBytes 4 (Table.get 0 s.pow.rates d)) ++ leBytes 16 0

/-- After a check the power manager writes the other copy of the ripening record with sequence + 1 (R649). -/
def State.writeRipen (s : State) : State :=
  match s.boot.secret with
  | none => s
  | some k =>
    let b := s.ripenBytes
    let copy := 1 - s.pow.ripenCopy
    (s.carrierWrite (0x400 + 256 * copy) (b ++ hmac256 (ripeningKey k) b)).modPow (fun p => { p with
      ripenSeq := p.ripenSeq + 1, ripenCopy := copy })

/-- The power manager takes its trims and references from the valid copy of higher sequence, or starts the trims at 0 with the
references of the personality record (R649, R650). -/
def State.loadRipen (s : State) : State :=
  let refs (r : List Byte) (off : Nat) : Table Nat := Table.setRange 0 [] 0 ((List.range 20).map (fun d => fieldAt r (off + 4 * d) 4))
  let fromPersonality := ((s.personality).map (fun r => refs r 0x260)).getD []
  let s := match s.boot.secret.bind (fun k => s.bestCopy (ripeningKey k) 0x400 256) with
    | some (r, copy) => s.modPow (fun p => { p with
        trims := Table.setRange 0 [] 0 ((List.range 20).map (fun d => fieldAt r (0x18 + d) 1)), refs := refs r 0x30,
        rates := refs r 0x80, worn := fieldAt r 0x10 4, checks := fieldAt r 0xC 4, hoursBase := fieldAt r 8 4,
        ripenSeq := fieldAt r 4 4, ripenCopy := copy })
    | none => s.modPow (fun p => { p with trims := [], refs := fromPersonality, rates := [], worn := 0, checks := 0, hoursBase := 0 })
  let s := (List.range 20).foldl (fun s d =>
    (s.setObjAt 0x0B 0x800 d (Table.get 0 s.pow.trims d)).setObjAt 0x0B 0x801 d (Table.get 0 s.pow.rates d)) s
  s.setObjAt 0x0B 0x804 0 s.pow.worn

/-- A die's check from its measured rates, one for each time it is held (R645): while the rate is below ripen_guard and the trim below
40 mV, the trim rises by 5 mV, and with it the rail voltage in effect (R620, R646), with a record, and the die is measured again. -/
def State.ripenRates (s : State) (die : Nat) : List Nat → State
  | [] => s
  | r :: rest =>
    let trim := Table.get 0 s.pow.trims die
    let s := (s.modPow (fun p => { p with rates := Table.set 0 p.rates die r })).setObjAt 0x0B 0x801 die r
    if r < s.objAt 0x0B 0x805 0 && trim < 40 then
      let s := (s.modPow (fun p => { p with trims := Table.set 0 p.trims die (trim + 5) })).setObjAt 0x0B 0x800 die (trim + 5)
      let s := s.setOp die (s.objAt 0x0B 0x202 die)
      (s.powerRecord 0x35 0 (die + (trim + 5) * 2 ^ 8 + r * 2 ^ 32)).ripenRates die rest
    else if r < 1900000 && trim = 40 then
      let s := s.modPow (fun p => { p with worn := Nat.lor p.worn (2 ^ die) })
      (s.setObjAt 0x0B 0x804 0 s.pow.worn).powerRecord 0x36 0 (die + trim * 2 ^ 8 + r * 2 ^ 32)
    else s

/-- The check of one die (R645): postponed by an hour where its ceiling is below OP5 or its junction outside 40 to 90 °C, or where its
reading gives no rate, which a check that was made has (log entry 56). True: the die was checked. -/
def State.ripenDie (s : State) (r : RipenReading) : State × Bool :=
  let d := r.die.val
  let tj := intOf 16 (s.objAt 0x0B 0x700 d)
  if !s.inService d then (s, false)
  else if s.pow.ceil d < 5 || tj < 400 || 900 < tj || r.rates.isEmpty then
    let later := s.now + 3600000000000
    (s.modPow (fun p => { p with postponed := p.postponed.filter (fun x => x.1 ≠ r.die) ++ [(r.die, later)] }), false)
  else ((s.modPow (fun p => { p with postponed := p.postponed.filter (fun x => x.1 ≠ r.die) })).ripenRates d r.rates, true)

/-- The readings of a check of every die (R644): a die that the operand does not list has no rate. -/
def everyDie (l : List RipenReading) : List RipenReading :=
  (List.finRange 20).map (fun d => (l.find? (fun r => r.die = d)).getD { die := d, rates := [] })

/-- A ripening check of some dies, which waits while a supply warning is in force (R644, R645, R649). -/
def State.ripen (s : State) (readings : List RipenReading) : State :=
  if s.pow.warning then s.modPow (fun p => { p with ripenWaits := some (p.ripenWaits.getD [] ++ readings) })
  else
    let (s, any) := readings.foldl (fun acc r => let (s, b) := acc.1.ripenDie r; (s, acc.2 || b)) (s, false)
    if any then (s.modPow (fun p => { p with checks := p.checks + 1 })).writeRipen else s

/-- RIPEN_CHECK: a write of 1 to ripen_check (R644). -/
def execRipenCheck (readings : List RipenReading) (s : State) : Result :=
  .next (if s.pow.rails then (s.modPow (fun p => { p with ripenAsked := false })).ripen (everyDie readings) else s)

/-- RIPEN_INTERVAL (R644): ripen_interval_h hours of package time have passed. -/
def execRipenInterval (t : Instant) (readings : List RipenReading) (s : State) : Result :=
  .next (
    let s' := s.advance t
    if s.pow.rails && s.pow.ripenSince.toNat + s.objAt 0x0B 0x802 0 * 3600000000000 ≤ s'.now.toNat then
      (s'.modPow (fun p => { p with ripenSince := s'.now })).ripen (everyDie readings)
    else s)

/-- RIPEN_POSTPONED_CHECK (R645): an hour has passed since a die's check was postponed. -/
def execRipenPostponedCheck (t : Instant) (r : RipenReading) (s : State) : Result :=
  .next (
    let s' := s.advance t
    if s.pow.rails && s.pow.postponed.any (fun x => x.1 = r.die && x.2.toNat ≤ s'.now.toNat) then s'.ripen [r] else s)

/-- SAG_WARN_END (R614, R644): the mean over 1 ms has reached sag_warn_mv + 1,000 mV; a check that has waited runs. -/
def execSagWarnEnd (mv : Nat) (s : State) : Result :=
  .next (
    if !s.pow.warning || mv < s.objAt 0x0B 0x601 0 + 1000 then s
    else
      let due := s.pow.ripenWaits
      let s := (s.modPow (fun p => { p with
        warning := false, supplyIrq := false, attention := false, ripenWaits := none })).setObjAt 0x0B 0x600 0 mv
      match due with
      | some l => s.ripen l
      | none => s)

/-- The held configuration record's first 0x60 bytes (R695). -/
def configBytes (seq pool uniform gen : Nat) : List Byte :=
  leBytes 2 1 ++ leBytes 2 0 ++ leBytes 4 seq ++ leBytes 2 pool ++ leBytes 2 uniform ++ leBytes 4 gen ++ leBytes 80 0

/-- The held configuration record in use (R695). -/
def State.heldConfig (s : State) : Option (List Byte × Nat) := s.boot.secret.bind (fun k => s.bestCopy (configKey k) 0x600 128)

/-- An update of the held configuration record: the other copy, with sequence + 1 (R695). -/
def State.writeConfig (s : State) (pool uniform gen : Nat) : State :=
  match s.boot.secret with
  | none => s
  | some k =>
    let seq := s.boot.configSeq + 1
    let copy := 1 - s.boot.configCopy
    let b := configBytes seq pool uniform gen
    ((s.carrierWrite (0x600 + 128 * copy) (b ++ hmac256 (configKey k) b)).modBoot (fun x => { x with
      configSeq := seq, configCopy := copy })).setObjAt 0x0C 0x150 0 seq

/-- The state an identity memory reads (R731). -/
def idState (b : List Byte) : Nat :=
  let kind := sliceBytes b 0x100 (fieldAt b 0xC 4)
  if fieldAt b 0x34 4 ≠ crc32c (sliceBytes b 0 0x34 ++ kind) then 3
  else if zeroBytes b 0x40 96 then 2
  else if ecdsaVerify Config.partsKey (sha384 (sliceBytes b 0 0x38 ++ kind)) (sliceBytes b 0x40 96) then 1 else 3

/-- The wavelengths of the grid in picometres (R557). -/
def gridPm : List Nat := [1273540, 1277890, 1282260, 1286660, 1295560, 1300050, 1304580, 1309140]

/-- Whether a laser module's kind data passes R732: wavelengths within 1.0 nm of the grid, powers from 3.0 to 10.0 dBm. -/
def laserFits (b : List Byte) : Bool :=
  (List.range 8).all (fun i =>
    let w := fieldAt b (0x100 + 4 * i) 4
    let p := fieldAt b (0x120 + 2 * i) 2
    gridPm.getD i 0 ≤ w + 1000 && w ≤ gridPm.getD i 0 + 1000 && 300 ≤ p && p ≤ 1000)

end Sys2Proof.Machine
end

