-- ==== Sys2Proof/Machine/Boot.lean ====
section
/-! DEFINITION. Machine/Boot.lean: the parts plugged into the module, hot plug, and the reset kinds with the boot steps (R552, R608, R616,
R617, R644, R649, R685, R689, R694, R695, R698 to R718, R728 to R742). -/

namespace Sys2Proof.Machine

/-- What the identity memory of a part holds: 0 the power stage, 1 to 4 the laser modules, 5 to 8 the fibre assemblies. -/
def State.part (s : State) (i : Fin 9) : IdMem := s.boot.parts[i]
/-- Set what the identity memory of a part holds. -/
def State.setPart (s : State) (i : Fin 9) (b : IdMem) : State := s.modBoot (fun x => { x with parts := x.parts.set i b i.isLt })

/-- The eight links of an OX die. -/
def linksOf (ox : Nat) : List LinkId := (List.range 8).map (fun i => linkId (8 * ox + i))

/-- A laser module loses its light: its links go down with cause 0x3 and read state 0x4 (R732, R737). -/
def State.darken (s : State) (n : Nat) (newState : Nat) : State :=
  let s := s.setObjAt 0x0C 0x450 n newState
  (linksOf n).foldl (fun s l => s.linkDown l 3 4) s

/-- Whether a laser module may be lit (R732). -/
def State.mayLight (s : State) (n : Fin 4) : Bool :=
  match s.part ⟨n.val + 1, by omega⟩ with
  | none => false
  | some b => idState b = 1 && laserFits b && s.boot.interlock[n]

/-- A laser module that is present is lit where it may be, and its links train; otherwise it is present and not lit (R732, R737). -/
def State.lightLaser (s : State) (n : Fin 4) : State :=
  if s.mayLight n then
    (linksOf n.val).foldl (fun s l => if s.objAt 0x0A 0x100 l.val = 4 then s.trainLink l else s) (s.setObjAt 0x0C 0x450 n.val 2)
  else s.darken n.val 1

/-- The objects of a part's identity memory (R731, R743): its state, and the length a fibre assembly gives. -/
def State.readPart (s : State) (i : Fin 9) : State :=
  let st := ((s.part i).map idState).getD 0
  let s := s.setObjAt 0x0C 0x440 (i.val + 1) st
  if 5 ≤ i.val then
    s.setObjAt 0x0C 0x451 (i.val - 5) (match s.part i with
      | some b => if st = 1 then fieldAt b 0x100 2 else 0
      | none => 0)
  else s

/-- The management controller reads every identity memory and lights the laser modules it may (R731, R732); the links of an absent one
read state 0x4 (R557). -/
def State.readParts (s : State) : State :=
  let s := s.setObjAt 0x0C 0x440 0 (idState (s.carrierBytes 0 256))
  let s := (List.finRange 9).foldl (fun s i => s.readPart i) s
  (List.finRange 4).foldl (fun s n => if (s.part ⟨n.val + 1, by omega⟩).isSome then s.lightLaser n else s.darken n.val 0) s

/-- The place of a part that hot-joins. -/
def partPlace : Part → Fin 9
  | .laser n => ⟨n.val + 1, by omega⟩
  | .fibre n => ⟨n.val + 5, by omega⟩

/-- HOT_JOIN (R728, R731, R732, R737): an inserted part joins its bus and its identity memory is read. -/
def execHotJoin (p : Part) (contents : List Byte) (s : State) : Result :=
  .next (
    let s := (s.setPart (partPlace p) (some contents)).readPart (partPlace p)
    match p with
    | .laser n => s.lightLaser n
    | .fibre n => (linksOf n.val).foldl (fun s l => if s.objAt 0x0A 0x100 l.val = 0 then s.trainLink l else s) s)

/-- LASER_INTERLOCK_OPEN (R732): emission stops. -/
def execLaserInterlockOpen (n : Fin 4) (s : State) : Result :=
  .next (
    let s := s.modBoot (fun x => { x with interlock := x.interlock.set n false n.isLt })
    if s.objAt 0x0C 0x450 n.val = 2 then s.darken n.val 1 else s)

/-- LASER_INTERLOCK_CLOSE (R732): the module is lit again if its other conditions hold. -/
def execLaserInterlockClose (n : Fin 4) (s : State) : Result :=
  .next (
    let s := s.modBoot (fun x => { x with interlock := x.interlock.set n true n.isLt })
    if s.objAt 0x0C 0x450 n.val = 1 then s.lightLaser n else s)

/-- LASER_MODULE_LOSS (R737). -/
def execLaserModuleLoss (n : Fin 4) (s : State) : Result :=
  .next (
    let i : Fin 9 := ⟨n.val + 1, by omega⟩
    ((s.setPart i none).readPart i).darken n.val 0)

/-- LOSS_OF_SIGNAL (R736, R737, R741): a link that is up goes down with cause 0x2, and trains again (R558). -/
def execLossOfSignal (l : LinkId) (s : State) : Result := .next (if s.linkUp l then s.linkFails l 2 else s)

/-- PRESENCE_OPEN (R733): the hot-swap controller opens and every rail goes off. -/
def execPresenceOpen (s : State) : Result :=
  .next (
    let s := s.powerOff
    (s.modBoot (fun x => { x with pinClosed := false, prepared := false })).modPow (fun p => { p with hotSwap := false, attention := false }))

/-- PRESENCE_CLOSE (R733, R735): the hot-swap controller acts under R610. -/
def execPresenceClose (s : State) : Result :=
  .next (
    if s.boot.pinClosed then s
    else (s.modBoot (fun x => { x with pinClosed := true })).modPow (fun p => { p with hotSwap := true }))

/-- BOUNDARY_SCAN_INSTRUCTION (R742): any instruction but BYPASS and IDCODE holds every core rail off until the next cold reset. -/
def execBoundaryScanInstruction (bypassOrIdcode : Bool) (s : State) : Result :=
  .next (if bypassOrIdcode then s else (s.modPow (fun p => { p with scanHold := true })).powerOff)

/-- The tags of the lines that differ, or may differ, from DRAM: dirty copies, evictions on their way, dirty L3 lines and the
write-combining buffers. -/
def State.dirtyTags (s : State) : List LineTag :=
  let ofAgent (x : CacheAgent) : List LineTag :=
    (x.lines.filter (fun e => e.2.any (fun l => l.st = .m || l.st = .o))).map Prod.fst ++ x.evb.map Prod.fst
  let ofHub (h : Hub) : List LineTag := (h.l3.filter (fun e => e.2.any (fun l => l.dirty))).map Prod.fst ++ h.wcb.map Prod.fst
  (s.mem.agents.toList.flatMap ofAgent ++ s.mem.hubs.toList.flatMap ofHub).eraseDups

/-- Every write-combining line drains, its missing bytes from DRAM as R385 reads them. -/
def State.drainCombining (s : State) : State :=
  (s.mem.hubs.toList.flatMap (fun h => h.wcb.map Prod.fst)).foldl (fun s t => s.lift (fun d => d.wcbDrain t none 0x111)) s

/-- Every cache and buffer is written back to DRAM (R734, R739). -/
def State.writeBackAll (s : State) : State :=
  let s := s.drainCombining
  s.dirtyTags.foldl (fun s t => let (d, p) := s.coherent t; s.dramWrite t d p) s

/-- Every cache and buffer invalidated: what DRAM holds stays (R739). -/
def MemState.dramOnly (m : MemState) : MemState :=
  { dram := m.dram, dramKey := m.dramKey, initKey := m.initKey, pkgKey := m.pkgKey, dramPoison := m.dramPoison, dramErrors := m.dramErrors }

/-- What DRAM holds is lost: it reads from now on as lines written under a key that nobody holds (R373, log entry 37). -/
def MemState.scrambled (m : MemState) (key : Nat) : MemState := { m with dram := [], dramKey := [], initKey := key, dramPoison := [] }

/-- A value of an octets object, as the number whose little-endian bytes it holds. -/
def octets (b : List Byte) : Nat := leNat b

/-- Every object takes its default, then the personality record's value, then the held configuration record's; pending copies are equal
to them (R685, R689, R695). -/
def State.loadObjects (s : State) : State :=
  let s := { s with obj := [], copies := [] }
  let s := match s.personality with
    | none => s
    | some r =>
      let s := (s.setObjAt 0 1 0 (octets (sliceBytes r 0x10 16))).setObjAt 0 0x10 0 (octets (sliceBytes r 0x20 6))
      let s := (s.setObjAt 0 4 0 (fieldAt r 0 4)).setObjAt 0x0A 0x200 0 (fieldAt r 0x26 2)
      let s := (s.setObjAt 0x0C 0x101 0 (fieldAt r 0x28 1)).setObjAt 0x0C 0x112 0 (fieldAt r 0x2C 4)
      s.setObjAt 0 6 0 (fieldAt r 0x30 4 % 2 ^ 20)
  match s.heldConfig with
  | none => s.modBoot (fun x => { x with configSeq := 0, configCopy := 1 })
  | some (r, copy) =>
    let s := s.modBoot (fun x => { x with configSeq := fieldAt r 4 4, configCopy := copy })
    let s := (s.setObjAt 7 0x200 0 (fieldAt r 8 2)).setObjAt 7 0x201 0 (fieldAt r 0xA 2)
    (s.setObjAt 0x0C 0x112 0 (fieldAt r 0xC 4)).setObjAt 0x0C 0x150 0 (fieldAt r 4 4)

/-- The root of trust begins a new bottom tree: counter 0 goes to b + 1 before any leaf of tree b signs (R725); none is left once
counter 0 stands at 1,048,576 (R726). -/
def State.beginTree (s : State) : State :=
  let b := s.oneWay 0
  if 1048576 ≤ b then s.modBoot (fun x => { x with tree := none, leaf := 0 })
  else (s.raiseCounter 0 (b + 1)).modBoot (fun x => { x with tree := some b, leaf := 0 })

/-- The management controller copies the latched cause of a shutdown, records it and clears the latch (R617). -/
def State.takeLatch (s : State) : State :=
  match s.pow.latch with
  | none => s
  | some c =>
    let (code, die) := match c with
      | .sagReset => (1, 0)
      | .overVoltage => (2, 0)
      | .thermalTrip d => (3, d.val)
    ((s.modPow (fun p => { p with latch := none })).setObjAt 0x0B 0x605 0 code).powerRecord 0x31 0 (code + die * 2 ^ 8)

/-- The placement takes effect at memory initialisation (R373); a placement that changes leaves nothing of what DRAM held. An apply of
group 0x01 that waited is then applied (R692). -/
def State.initMemory (s : State) : State :=
  let old := s.poolGib
  let s := s.setObjAt 7 0x203 0 (s.objAt 7 0x200 0)
  let s := if s.poolGib = old then s else { s.modMem (fun m => m.dramOnly.scrambled (s.fresh + 1)) with fresh := s.fresh + 1 }
  match Table.get none s.mgmt.applied 1 with
  | none => s
  | some _ =>
    let s := { s with mgmt := { s.mgmt with applied := Table.set none s.mgmt.applied 1 none } }
    (s.setObjAt 7 0x202 0 2).event 2 (1 + 2 * 2 ^ 8)

/-- At a cold reset the package memory key is drawn and zeros are written under it to all of DRAM (step 9 of R709, R525). -/
def State.zeroDram (s : State) : State :=
  { s.modMem (fun m => { m with dram := [], dramKey := [], initKey := s.fresh + 1, pkgKey := s.fresh + 1, dramPoison := [] }) with
    fresh := s.fresh + 1 }

/-- Steps 9 and 10 of R709: memory initialisation, at a cold reset with zeros in all of DRAM and the ripening checks, and boot_state
0x5. -/
def State.finishBoot (s : State) (ripen : Option (List RipenReading)) : State :=
  let s := (s.setObjAt 0x0C 0x400 0 4).initMemory
  let s := if ripen.isSome then s.zeroDram else s
  let s := s.modPow (fun p => { p with ripenSince := s.now })
  let s := match ripen with
    | some l => s.ripen (everyDie l)
    | none => s
  s.setObjAt 0x0C 0x400 0 5

/-- Step 6 of R709: the other dies come up at op_idle, the connections train, and a die left without a path is out of service. -/
def State.bringDies (s : State) (trained : List ConnId) : State :=
  let s := (List.finRange 32).foldl (fun s c =>
    if s.objAt 9 0x101 c.val = 1 then s else s.setObjAt 9 0x101 c.val (if trained.contains c then 0 else 2)) s
  let s := ((List.range 18).filter s.inService).foldl (fun s d => s.setOp d (s.objAt 0x0B 0x201 0)) s
  let cut := (isolatedDies s.downMask).filter s.inService
  let s := cut.foldl (fun s d => (s.setObjAt 0 6 0 (s.objAt 0 6 0 - 2 ^ d)).event 6 d) s
  s.modFab (fun x => { x with routes := s.downMask, routeStale := false, isolated := [] })

/-- Steps 4 and 5 of R709 for an image that is accepted: its versions and measurement, a new bottom tree, and the management port. -/
def State.startImage (s : State) (f : Firmware) : State :=
  ((s.modBoot (fun x => { x with image := some f })).setObjAt 0 3 0 f.version).beginTree

/-- The recovery and no-personality states: only the management port runs (R713). -/
def State.stopBoot (s : State) (state cause : Nat) : State :=
  ((s.modBoot (fun x => { x with image := none, tree := none, leaf := 0 })).setObjAt 0x0C 0x400 0 state).setObjAt 0x0C 0x401 0 cause

/-- Steps 4 to 7 of R709, up to where the module enters the bring-up state; false where it stops in the recovery state. -/
def State.bootImage (s : State) (storeReads : Bool) (trained : List ConnId) : State × Bool :=
  match if storeReads then s.storedImage else .inr 6 with
  | .inr cause => (s.stopBoot 2 cause, false)
  | .inl f =>
    let s := (s.startImage f).bringDies trained
    (s.setObjAt 0x0C 0x400 0 3, true)

/-- The bit that holds every cold reset in the bring-up state (R705, R711). -/
def State.heldInBringUp (s : State) : Bool :=
  s.pow.bringUpLatch || ((s.personality).map (fun r => bit (fieldAt r 0xC 4) 0)).getD false

/-- The junction temperatures the power manager reads as the module boots (R629, R645). -/
def State.readJunctions (s : State) (l : List (Die × Int)) : State :=
  (l.filter (fun x => s.inService x.1.val)).foldl (fun s x => s.setObjAt 0x0B 0x700 x.1.val (codeInt 16 x.2)) s

/-- The module leaves the bring-up state (R711), and the boot goes on with the junctions and rates that are read then (R644). -/
def State.leaveBringUp (s : State) (r : BootReading) : State :=
  let s := s.modPow (fun p => { p with bringUpLatch := false })
  ((s.modBoot (fun x => { x with reading := none })).readJunctions r.tj).finishBoot (some r.ripen)

/-- The boot ROM selects a personality slot, reconstructs the device secret and derives the keys (steps 2 and 3 of R709); none with the
cause that boot_fail_cause names. -/
def State.selectSlot (s : State) (carrierReads : Bool) (puf : List Byte) : Nat ⊕ Nat :=
  let valid := ([0, 1] : List Nat).filter (fun i => s.slotValid (s.slotBytes i))
  if !carrierReads then .inr 7
  else if valid.isEmpty then .inr 1
  else match s.bestSlot (valid.filter (fun i => slotBound puf (s.slotBytes i))) with
    | some i => .inl i
    | none => .inr 2

/-- The two service dies run at OP2 from step 1 (R709). -/
def State.serviceRails (s : State) : State := (s.setOp 18 2).setOp 19 2

/-- What a boot does once objects are loaded, in every outcome: service rails, the latched cause, the kind of the reset, and the
identity memories (R617, R709, R731, R743). -/
def State.bootCommon (s : State) (kind : Nat) : State := ((s.setObjAt 0x0C 0x405 0 kind).serviceRails.takeLatch).readParts

/-- Whether a cold reset can run: its causes of R738 are a module with power and a hold of R610 that is met. A module whose rails a
shutdown, a trip, a removal or a scan has turned off stays in reset until then (R610, R615, R616, R631, R733, R742). -/
def State.coldDue (s : State) : Bool := s.pow.rails || s.resetDue = some .cold

/-- A cold reset that runs: the rails come up, every state that R739 clears is clear, and the boot steps run (R709, R739, R740). -/
def State.coldBoot (s : State) (r : BootReading) : State :=
  let s := s.powerOff.modPow (fun p => { p with
    rails := true, hotSwap := true, scanHold := false, tripWait := false, attention := false })
  let puf := Config.pufRead r.pufNoise
  match s.selectSlot r.carrierReads puf with
  | .inr cause => ((s.modBoot (fun x => { x with puf := some puf })).bootCommon 2).stopBoot 1 cause
  | .inl i =>
    let secret := secretOf puf (s.slotBytes i)
    let s := (s.modBoot (fun x => { x with slot := some i, secret := some secret })).loadObjects.loadRipen
    let (s, up) := (s.bootCommon 2).bootImage r.storeReads r.connTrained
    if !up then s
    else if s.heldInBringUp then s.modBoot (fun x => { x with reading := some r })
    else s.leaveBringUp r

/-- A cold reset, where it can run. -/
def State.coldReset (s : State) (r : BootReading) : State := if s.coldDue then s.coldBoot r else s

/-- COLD_RESET (R709, R738). -/
def execColdReset (r : BootReading) (s : State) : Result := .next (s.coldReset r)
/-- RESET_REQUEST_COLD (R738). -/
def execResetRequestCold (r : BootReading) (s : State) : Result := .next (s.coldReset r)

/-- The partition keys at a warm reset: those enabled at its start in quarantine for the pkey_quarantine_ns held then, all others
drained (R740). -/
def State.warmKeys (s : State) : Table KeyState :=
  (List.range 4096).foldl (fun t k =>
    let st := if Table.get coldKey s.fab.keys k = .enabled then KeyState.quarantine (s.now.toNat + s.objAt 0x0A 0x204 0) else .drained
    Table.set coldKey t k st) []

/-- A time rounded down to a window's boundary. -/
def floorTo (t : U64) (n : Nat) : U64 := BitVec.ofNat 64 (t.toNat / n * n)

/-- What a warm reset keeps and clears (R739): package time, DRAM, the package memory key, downed connections, the fatal log, trims, the
energy and warm-reset counts, and the status of applies since the cold reset. R39 counts windows in package time, which the reset keeps,
and does not say where the first window after it begins: it is taken to begin at the boundary before the reset, so part of it lies before
the reset (DESIGN CHOICE, log entry 82). -/
def State.warmClear (s : State) (fatal : Bool) : State :=
  let s := if fatal then s else s.writeBackAll
  let p : PowerState := {
    rails := s.pow.rails, hotSwap := s.pow.hotSwap, latch := s.pow.latch, bringUpLatch := s.pow.bringUpLatch, warning := s.pow.warning,
    supplyIrq := s.pow.supplyIrq, attention := s.pow.attention, trims := s.pow.trims, rates := s.pow.rates, refs := s.pow.refs,
    worn := s.pow.worn, ripenSeq := s.pow.ripenSeq, ripenCopy := s.pow.ripenCopy, checks := s.pow.checks, hoursBase := s.pow.hoursBase,
    capStart := floorTo s.now 10000, tickStart := floorTo s.now 1000000, energyStart := floorTo s.now 1000000 }
  let keys := s.warmKeys
  let m : MgmtState := { nextSession := s.mgmt.nextSession, applied := Table.set none [] 1 (Table.get none s.mgmt.applied 1) }
  let w := floorTo s.now 1000000
  let down := (List.range 32).filter (fun c => s.objAt 9 0x101 c = 1)
  let kept := [(0x0B, 0x302), (0x07, 0x202), (0x0B, 0x603), (0x0C, 0x103), (0x07, 0x203)].map (fun k => (k.1, k.2, s.objAt k.1 k.2 0))
  let resets := s.objAt 0x0C 0x406 0 + 1
  let n : State := {
    pending := s.pending, now := s.now, fresh := s.fresh, windows := { start := w, stop := w + 1000000 }, mem := s.mem.dramOnly,
    xl := { fatalLog := s.xl.fatalLog }, fab := { keys := keys, isolated := s.fab.isolated }, pow := p, mgmt := m,
    boot := { s.boot with puf := none, image := none, tree := none, leaf := 0, reading := none, preparing := false } }
  let n := n.loadObjects
  let n := kept.foldl (fun n k => n.setObjAt k.1 k.2.1 0 k.2.2) n
  let n := down.foldl (fun n c => n.setObjAt 9 0x101 c 1) (n.setObjAt 0x0C 0x406 0 resets)
  (List.range 20).foldl (fun n d => (n.setObjAt 0x0B 0x800 d (Table.get 0 n.pow.trims d)).setObjAt 0x0B 0x801 d (Table.get 0 n.pow.rates d)) (n.setObjAt 0x0B 0x804 0 n.pow.worn)

/-- A warm reset: steps 4 to 10 run (R710, R552, R739). A module without a personality stays without one. -/
def State.warmReset (s : State) (fatal : Bool) (trained : List ConnId) : State :=
  if !s.pow.rails then s
  else
    let was := s.objAt 0x0C 0x400 0
    let cause := s.objAt 0x0C 0x401 0
    let cutOff := s.fab.isolated.contains 18
    let s := (s.warmClear fatal).bootCommon 1
    if cutOff then s
    else if was = 1 then s.stopBoot 1 cause
    else
      let (s, up) := s.bootImage true trained
      if up then s.finishBoot none else s

/-- A fatal warm reset that no record of R481, R485 or R552 has made due is R397's: the fault service has found no address space for the
poisoned dirty line of the last deferred record, which becomes module-fatal and enters the fatal log (R397, R486; log entry 58). -/
def State.raiseFatal (s : State) (fatal : Bool) : State :=
  match s.xl.lastDirty with
  | some first => if fatal && s.pow.rails && s.resetDue ≠ some .warm then s.lift (fun d => d.moduleFatal first) else s
  | none => s

/-- WARM_RESET (R710, R738): of a fatal event or of reset_request. -/
def execWarmReset (fatal : Bool) (connTrained : List ConnId) (s : State) : Result :=
  .next ((s.raiseFatal fatal).warmReset fatal connTrained)
/-- RESET_REQUEST_WARM (R738). -/
def execResetRequestWarm (connTrained : List ConnId) (s : State) : Result := .next (s.warmReset false connTrained)

/-- A transfer ends unstored when the session that opened it closes (R719). -/
def State.endTransfer (s : State) (p : Path → Bool) : State :=
  match s.mgmt.transfer with
  | some t => if p t.by_ then ({ s with mgmt := { s.mgmt with transfer := none } }).setObjAt 0x0C 0x434 0 7 else s
  | none => s

/-- sessions_active counts the open sessions of the management port (R697). -/
def State.showSessions (s : State) : State :=
  s.setObjAt 0x0C 0x110 0 ((s.mgmt.sessions.filter (fun x => x.isOpen && x.path = .mgmt)).length)

/-- Sessions close (R669). -/
def State.closeSessions (s : State) (p : Session → Bool) : State :=
  let gone := s.mgmt.sessions.filter p
  let s := { s with mgmt := { s.mgmt with sessions := s.mgmt.sessions.filter (fun x => !p x) } }
  let owns (x : Session) : Path → Bool := fun q => match q, x.path with
    | .mgmt n, .mgmt => n.toNat = x.num
    | .inband c, .inband d => c = d
    | _, _ => false
  let s := gone.foldl (fun s x => s.endTransfer (owns x)) s
  let s := { s with mgmt := { s.mgmt with attest := gone.foldl (fun (t : Table AttestCopy) (x : Session) => Table.set {} t x.num {}) s.mgmt.attest } }
  s.showSessions

/-- A management controller restart closes the sessions of the management port, and keeps everything else (R669, R738, R739). -/
def State.restartController (s : State) : State :=
  if !s.pow.rails then s
  else
    let s := s.closeSessions (fun x => x.path = .mgmt)
    let due := if s.resetDue = some ResetKind.mcRestart then none else s.resetDue
    ({ s with mgmt := { s.mgmt with waiting := [] }, resetDue := due }).setObjAt 0x0C 0x405 0 3

/-- MC_RESTART (R738). -/
def execMcRestart (s : State) : Result := .next s.restartController
/-- MC_WATCHDOG_EXPIRY (R738). -/
def execMcWatchdogExpiry (s : State) : Result := .next s.restartController
/-- RESET_REQUEST_MC_RESTART (R738). -/
def execResetRequestMcRestart (s : State) : Result := .next s.restartController

/-- A write of bringup_request (R711): false where the value is not listed. -/
def State.requestBringUp (s : State) (v : Bool) : State × Bool :=
  if v then (s.modPow (fun p => { p with bringUpLatch := true }), true) else (s, false)

/-- BRINGUP_REQUEST. -/
def execBringupRequest (v : Bool) (s : State) : Result := .next (s.requestBringUp v).1

/-- BOOT_CONTINUE (R711). -/
def execBootContinue (v : Bool) (r : BootReading) (s : State) : Result :=
  .next (if v && s.objAt 0x0C 0x400 0 = 3 then s.leaveBringUp r else s)

/-- A write of floor_raise (R718). -/
def State.raiseFloors (s : State) : State :=
  let s := match s.boot.image with
    | some f => s.raiseCounter 1 f.security
    | none => s
  match s.personality with
  | some r => s.raiseCounter 2 (fieldAt r 4 4)
  | none => s

/-- FLOOR_RAISE (R704, R718). -/
def execFloorRaise (v : Bool) (s : State) : Result := .next (if v then s.raiseFloors else s)

/-- A write of remove_prepare (R734): 9 where it is refused, 3 where the value is not listed, 0 where the module prepares. -/
def State.prepareRemoval (s : State) (v : Bool) : State × Nat :=
  if !v then (s, 3)
  else if !(List.range 4096).all (fun k => decide (Table.get coldKey s.fab.keys k = .drained)) || s.cmd.queues.any (fun e => e.2.state ≠ .detached) then (s, 9)
  else
    let s := (List.finRange 32).foldl (fun s l => s.writeEnable l false) s
    ((s.modBoot (fun x => { x with preparing := true })).setObjAt 0x0C 0x461 0 1, 0)

/-- REMOVE_PREPARE. -/
def execRemovePrepare (v : Bool) (s : State) : Result := .next (s.prepareRemoval v).1

/-- READY_FOR_REMOVAL (R734, R735): the write-backs are done, the hot-swap switch opens and the attention pin is asserted. -/
def execReadyForRemoval (s : State) : Result :=
  .next (
    if !s.boot.preparing then s
    else
      let s := s.writeBackAll
      let s := (s.modMem (fun m => m.dramOnly)).modPow (fun p => { p with hotSwap := false, rails := false, attention := true })
      (s.modBoot (fun x => { x with preparing := false, prepared := true })).setObjAt 0x0C 0x461 0 2)

end Sys2Proof.Machine
end

