-- ==== Sys2Proof/Machine/Attest.lean ====
section
/-! DEFINITION. Machine/Attest.lean: attestation reports and transfers of images and personality records (R719 to R727). -/

namespace Sys2Proof.Machine

/-- Change the management controller and the dictionary server. -/
def State.modMgmt (s : State) (f : MgmtState → MgmtState) : State := { s with mgmt := f s.mgmt }

/-- Answer a dictionary operation. -/
def State.answer (s : State) (status : Nat) (value : Nat := 0) (data : List Byte := []) : State :=
  s.modMgmt (fun m => { m with reply := some ⟨status, value, data⟩ })

/-- The firmware measurement, 48 zero bytes in the recovery state (R715, R716). -/
def State.measurement (s : State) : List Byte := ((s.boot.image).map Firmware.measurement).getD (List.replicate 48 0)

/-- The bytes 0x000 to 0x1FF of a report (R723). -/
def State.reportBody (s : State) (secret : List Byte) (kind realm : Nat) (nonce exchange : List Byte) : List Byte :=
  let r := (s.personality).getD []
  let alias_ := p384Public (aliasPrivate secret s.measurement)
  leBytes 4 1 ++ leBytes 1 kind ++ leBytes 1 realm ++ leBytes 2 0 ++ leBytes 8 s.now.toNat ++ sliceBytes r 0x10 16 ++ sliceBytes nonce 0 48
    ++ s.measurement ++ sha384 (sliceBytes r 0 0xB00) ++ leBytes 4 (((s.boot.image).map Firmware.security).getD 0)
    ++ leBytes 4 (s.oneWay 1) ++ leBytes 4 (s.oneWay 2) ++ leBytes 4 (s.objAt 0 6 0) ++ sliceBytes alias_ 0 96 ++ sliceBytes exchange 0 96
    ++ sliceBytes (ecdsaSign (identityPrivate secret) (sha384 (alias_ ++ s.measurement))) 0 96 ++ List.replicate 32 0

/-- The bottom tree whose next leaf signs: the current one, or a new one when it is spent or none has begun (R725); none: R726. -/
def State.signingTree (s : State) : State × Option Nat :=
  let s := if s.boot.tree.isNone || 1024 ≤ s.boot.leaf then s.beginTree else s
  (s, s.boot.tree)

/-- A signed report (R723 to R727); none where the module has no device secret or the leaves are spent (R726). -/
def State.signReport (s : State) (kind realm : Nat) (nonce exchange : List Byte) : State × Option (List Byte) :=
  match s.boot.secret with
  | none => (s, none)
  | some secret =>
    match s.signingTree with
    | (s, none) => (s, none)
    | (s, some b) =>
      let body := s.reportBody secret kind realm nonce exchange
      let ecdsa := sliceBytes (ecdsaSign (aliasPrivate secret s.measurement) (sha384 body)) 0 96
      let hss := sliceBytes (hssSign (lmsSecret secret) b s.boot.leaf body) 0 5528
      (s.modBoot (fun x => { x with leaf := x.leaf + 1 }), some (body ++ ecdsa ++ hss))

/-- The open session that a path names. -/
def State.sessionAt (s : State) (p : Path) : Option Session :=
  s.mgmt.sessions.find? (fun x => x.isOpen && match p, x.path with
    | .mgmt n, .mgmt => n.toNat = x.num
    | .inband c, .inband d => c = d
    | _, _ => false)

/-- Where a path's own copies of the attestation objects lie (R727). -/
def State.attestKey (s : State) (p : Path) : Nat :=
  match p with
  | .core h => 2 ^ 32 + h.val
  | _ => ((s.sessionAt p).map Session.num).getD 0

/-- A write of attest_run (R726, R727): 9 where no report can be signed, 3 where the value is not listed. -/
def State.attest (s : State) (p : Path) (v : Bool) : State × Nat :=
  if !v then (s, 3)
  else
    let k := s.attestKey p
    let c := Table.get {} s.mgmt.attest k
    match s.signReport 1 0 c.nonce [] with
    | (s, none) => (s, 9)
    | (s, some r) => (s.modMgmt (fun m => { m with attest := Table.set {} m.attest k { c with report := r } }), 0)

/-- ATTEST_RUN. -/
def execAttestRun (path : Path) (v : Bool) (s : State) : Result := .next (let (s, st) := s.attest path v; s.answer st)

/-- The largest length of a transfer's data, by target: an image's header and body, or a personality slot (R703, R716, R719). -/
def xferMax (target : Nat) : Nat := if target = 1 then 8192 + 50331648 else 8192

/-- A write of xfer_begin (R719, R721). -/
def State.beginTransfer (s : State) (p : Path) (v : Nat) : State × Nat :=
  let target := v % 256
  let len := bits v 63 32
  if s.mgmt.transfer.any (fun t => t.by_ ≠ p || t.committed) then (s, 9)
  else if !(target = 1 || target = 2) || xferMax target < len then (s, 3)
  else
    let s := (s.modMgmt (fun m => { m with transfer := some { by_ := p, target := target, len := len } })).setObjAt 0x0C 0x434 0 1
    if target = 1 && s.objAt 0x0C 0x400 0 = 2 then (s.modBoot (fun x => { x with storeBlank := true, erased := true, store := [] }), 0) else (s, 0)

/-- XFER_BEGIN. -/
def execXferBegin (path : Path) (v : U64) (s : State) : Result := .next (let (s, st) := s.beginTransfer path v.toNat; s.answer st)

/-- A write of xfer_window (R719, R721): data at xfer_base + the entry's offset. -/
def State.writeTransfer (s : State) (p : Path) (off : Nat) (data : List Byte) : State × Nat :=
  match s.mgmt.transfer with
  | none => (s, 9)
  | some t =>
    let at_ := s.objAt 0x0C 0x431 0 + off
    if t.by_ ≠ p || t.committed then (s, 9)
    else if 1024 < off + data.length || t.len < at_ + data.length then (s, 4)
    else if t.target = 1 && s.objAt 0x0C 0x400 0 = 2 then (s.storeWrite at_ data, 0)
    else (s.modMgmt (fun m => { m with transfer := some { t with data := Table.setRange 0 t.data at_ data } }), 0)

/-- XFER_WINDOW. -/
def execXferWindow (path : Path) (off : U16) (data : List Byte) (s : State) : Result :=
  .next (let (s, st) := s.writeTransfer path off.toNat data; s.answer st)

/-- What the commit of a transfer finds (R720, R721): 3 stored, or 4, 5 or 6 as xfer_status names the refusal. -/
def State.verifyTransfer (s : State) (t : Transfer) : Nat :=
  let byte (i : Nat) : Byte := Table.get 0 t.data i
  let bytes (off n : Nat) : List Byte := (List.range n).map (fun i => byte (off + i))
  if t.target = 1 then
    let found := if s.objAt 0x0C 0x400 0 = 2 then checkImage s.imageFloor (s.storeBytes 0 8192) (fun n => s.storeBytes 8192 n)
      else checkImage s.imageFloor (bytes 0 8192) (fun n => bytes 8192 n)
    match found with
    | .inl _ => 3
    | .inr 4 => 5
    | .inr _ => 4
  else
    let r := bytes 0 8192
    let bound := match s.boot.puf, s.boot.secret with
      | some puf, _ => slotBound puf r
      | none, some secret => p384Public (identityPrivate secret) = sliceBytes r 0x40 96
      | none, none => false
    if fieldAt r 4 4 < s.oneWay 2 then 5 else if !s.slotValid r then 4 else if !bound then 6 else 3

/-- A write of xfer_commit (R719, R721): verification begins; an image that passes is then being written to the store. -/
def State.commitTransfer (s : State) (p : Path) (v : Bool) : State × Nat :=
  match s.mgmt.transfer with
  | none => (s, 9)
  | some t =>
    if !v then (s, 3)
    else if t.by_ ≠ p || t.committed then (s, 9)
    else
      let s := (s.modMgmt (fun m => { m with transfer := some { t with committed := true } })).setObjAt 0x0C 0x434 0 2
      if t.target = 1 && s.verifyTransfer t = 3 then (s.modBoot (fun x => { x with storeBlank := true }), 0) else (s, 0)

/-- XFER_COMMIT. -/
def execXferCommit (path : Path) (v : Bool) (s : State) : Result := .next (let (s, st) := s.commitTransfer path v; s.answer st)

/-- XFER_STORE_DONE (R720 to R722): verification and storing end; a personality record goes to the slot that is not in use. -/
def execXferStoreDone (s : State) : Result :=
  .next (
    match s.mgmt.transfer with
    | none => s
    | some t =>
      if !t.committed then s
      else
        let found := s.verifyTransfer t
        let s := (s.modMgmt (fun m => { m with transfer := none })).setObjAt 0x0C 0x434 0 found
        if found ≠ 3 then s
        else if t.target = 2 then
          let slot := if s.boot.slot = some 0 then 1 else 0
          s.carrierWrite (slotBase slot) (Table.getRange 0 t.data 0 8192)
        else
          let s := if s.objAt 0x0C 0x400 0 = 2 then s else s.storeWrite 0 (Table.getRange 0 t.data 0 t.len)
          s.modBoot (fun x => { x with storeBlank := false }))

end Sys2Proof.Machine
end

