-- ==== Sys2Proof/Machine/Realm.lean ====
section
/-! DEFINITION. Machine/Realm.lean: realm control, key delivery, and the scrubbing of memory (R522, R525, R530 to R539). -/

namespace Sys2Proof.Machine

/-- Change the service engines and realm control. -/
def State.modSvc (s : State) (f : SvcState → SvcState) : State := { s with svc := f s.svc }

/-- A command of realm control is performed at once; its status reads busy until it is done (R532). A write to cmd while the status is
0x01 is ignored. -/
def State.realmCommand (s : State) (f : State → State × Nat) : State :=
  if s.svc.busy then s
  else
    let (s, st) := f s
    s.modSvc (fun v => { v with busy := true, status := 1, doneStatus := BitVec.ofNat 8 st })

/-- Whether n bytes at a physical address lie in DRAM with the realm flag clear and slot 0 (R531). -/
def inDram (pa n : Nat) : Bool := pa + n ≤ 2 ^ 41

/-- The exchange private key of a realm, from its draw. -/
def Realm.private_ (r : Realm) : Nat := (Config.drawBits r.exchange).toNat % (p384Order - 1) + 1

/-- CREATE (R525, R531). -/
def State.createRealm (s : State) : State × Nat :=
  let r := s.svc.realm
  if (s.realmAt r).active then (s, 2)
  else
    let (s, n) := s.freshDraw
    let (s, m) := s.freshDraw
    (s.modRealm r (fun _ => { active := true, memKey := n, exchange := m }), 0)

/-- REALM_CREATE. -/
def execRealmCreate (s : State) : Result := .next (s.realmCommand State.createRealm)

/-- A command whose argument lines hold an open transaction waits for them (R402): what it does is done by REALM_COMMAND_DONE. -/
def State.whenOpen (s : State) (pa n : Nat) (task : RealmTask) (f : State → State × Nat) : State × Nat :=
  if s.linesOpen (spanLines pa n) then f s else (s.modSvc (fun v => { v with todo := some task }), 0)

/-- Bytes that realm control reads at a physical address, as a non-caching requester (R376, R392, R395). -/
def State.ownRead (s : State) (pa n : Nat) : State × List Byte :=
  let s := s.lift (fun d => d.onceReads (spanLines pa n))
  (s, (s.physRead pa n false).1)

/-- What QUOTE does once its nonce can be read (R531, R723, R726). -/
def State.doQuote (r report at_ : Nat) (s : State) : State × Nat :=
  let (s, nonce) := s.ownRead at_ 48
  match s.signReport 2 r nonce (p384Public (s.realmAt r).private_) with
  | (s, none) => (s, 5)
  | (s, some b) => ((s.physWrite report b false 18).modRealm r (fun y => { y with nonce := nonce }), 0)

/-- QUOTE (R531). -/
def State.quoteRealm (s : State) : State × Nat :=
  let r := s.svc.realm
  let report := s.svc.arg0.toNat
  let at_ := s.svc.arg1.toNat
  if !(s.realmAt r).active then (s, 2)
  else if !inDram report 6136 || !inDram at_ 48 then (s, 5)
  else s.whenOpen at_ 48 (.quote r report at_) (State.doQuote r report at_)

/-- REALM_QUOTE. -/
def execRealmQuote (s : State) : Result := .next (s.realmCommand State.quoteRealm)

/-- What LOADKEY finds in a blob for a realm (R534, R539): the index, generation and key, or the cause of its rejection. -/
def openBlob (r : Nat) (x : Realm) (b : List Byte) : (Nat × Nat × List Byte) ⊕ Nat :=
  let idx := fieldAt b 5 1
  let gen := fieldAt b 8 4
  let pub := sliceBytes b 0x10 96
  let nonce := sliceBytes b 0x70 48
  let last := ((Table.get none x.store idx).map KeyEntry.lastGen).getD 0
  let loaded := (Table.get none x.store idx).isSome
  if fieldAt b 0 4 ≠ 1 || fieldAt b 4 1 ≠ r || fieldAt b 6 2 ≠ 0 || fieldAt b 0xC 4 ≠ 0 then .inr 1
  else if nonce ≠ x.nonce then .inr 2
  else if loaded && gen ≤ last then .inr 3
  else if !p384Valid pub then .inr 4
  else
    let z := p384Ecdh x.private_ pub
    let kek := hkdfExpand (hkdfExtract nonce z) (ascii "Sahkin rind key") 32
    match gcmOpen kek (sliceBytes b 0xA0 12) (b.take 0xA0) (sliceBytes b 0xAC 32) (sliceBytes b 0xCC 16) with
    | some key => .inl (idx, gen, key)
    | none => .inr 5

/-- What LOADKEY does once its blob can be read (R534). -/
def State.doLoadKey (r blob : Nat) (s : State) : State × Nat :=
  let (s, b) := s.ownRead blob 220
  match openBlob r (s.realmAt r) b with
  | .inl (idx, gen, key) =>
    let e : KeyEntry := { key := key, gen := gen, valid := true, lastGen := gen }
    (s.modRealm r (fun y => { y with store := Table.set none y.store idx (some e) }), 0)
  | .inr cause => (s.report 18 { kind := 0x41, cls := .fault, addr := blob, detail := cause + r * 2 ^ 4 + fieldAt b 5 1 * 2 ^ 16 }, 4)

/-- LOADKEY (R534). -/
def State.loadKey (s : State) : State × Nat :=
  let r := s.svc.realm
  let blob := s.svc.arg0.toNat
  if !(s.realmAt r).active then (s, 2)
  else if !inDram blob 220 then (s, 5)
  else s.whenOpen blob 220 (.loadKey r blob) (State.doLoadKey r blob)

/-- REALM_LOADKEY. -/
def execRealmLoadKey (s : State) : Result := .next (s.realmCommand State.loadKey)

/-- DROPKEY (R531): the entry is cleared; the last generation loaded into it since CREATE is remembered (R534). -/
def State.dropKey (s : State) : State × Nat :=
  let r := s.svc.realm
  let idx := s.svc.arg1.toNat % 256
  if !(s.realmAt r).active then (s, 2)
  else
    (s.modRealm r (fun y => { y with
      store := Table.set none y.store idx ((Table.get none y.store idx).map (fun e => { lastGen := e.lastGen })) }), 0)

/-- REALM_DROPKEY. -/
def execRealmDropKey (s : State) : Result := .next (s.realmCommand State.dropKey)

/-- Whether a realm is in use (R533). -/
def State.realmInUse (s : State) (r : Nat) : Bool :=
  s.cmd.queues.any (fun e =>
    if h : e.1 < 2048 then
      e.2.state ≠ .detached && (match s.ctx (mmuOf (homeDie ⟨e.1, h⟩)) e.2.asid.toNat with
        | some c => c.realmEn && c.realmSlot = r
        | none => false)
    else false)
  || s.cmd.ops.any (fun o => (match o.body with
        | .service v => v.keyRealm = some r
        | _ => false))

/-- Every cache and buffer discards, without write-back, the lines whose tags satisfy p (R536). -/
def State.discardLines (s : State) (p : LineTag → Bool) : State :=
  let keep (k : Nat) : Bool := !p k
  let side (t : Table (Option SideLine)) : Table (Option SideLine) := t.filter (fun e => keep e.1)
  let flight (t : Table (Option InFlight)) : Table (Option InFlight) :=
    t.map (fun e => if keep e.1 then e else (e.1, e.2.map (fun f => { f with discard := true })))
  s.modMem (fun m => { m with
    agents := m.agents.map (fun a => { a with lines := Table.keep keep a.lines, evb := Table.keep keep a.evb }),
    hubs := m.hubs.map (fun h => { h with l3 := Table.keep keep h.l3, wcb := Table.keep keep h.wcb, dir := Table.keep keep h.dir }),
    side := m.side.map side, inFlight := m.inFlight.map flight })

/-- DESTROY (R536). -/
def State.destroyRealm (s : State) : State × Nat :=
  let r := s.svc.realm
  if !(s.realmAt r).active then (s, 2)
  else if s.realmInUse r then (s, 3)
  else ((s.discardLines (fun t => tagRealm t && tagSlot t = r)).modRealm r (fun _ => {}), 0)

/-- REALM_DESTROY. -/
def execRealmDestroy (s : State) : Result := .next (s.realmCommand State.destroyRealm)

/-- The job that SCRUB's arguments describe (R537). -/
def State.scrubJob (s : State) : ScrubJob :=
  let a := s.svc.arg2.toNat
  { start := s.svc.arg0.toNat % 2 ^ 42, len := s.svc.arg1.toNat, newFlag := bit a 14, newSlot := bits a 13 8, oldFlag := bit a 6,
    oldSlot := bits a 5 0 }

/-- SCRUB (R537, R538): lines under the old selection are discarded, and the range is written with zeros under the new one. -/
def State.scrub (s : State) : State × Nat :=
  let j := s.scrubJob
  let bad := j.start % 4096 ≠ 0 || j.len % 4096 ≠ 0 || 2 ^ 41 < j.start + j.len
    || (j.newFlag = j.oldFlag && j.newSlot = j.oldSlot) || (j.newFlag && !(s.realmAt j.newSlot).active)
    || (!j.newFlag && j.newSlot ≠ 0) || (!j.oldFlag && j.oldSlot ≠ 0)
  if bad then (s, 5)
  else
    let old (t : LineTag) : Bool :=
      tagRealm t = j.oldFlag && tagSlot t = j.oldSlot && j.start ≤ tagLoc t && tagLoc t < j.start + j.len
    let s := s.discardLines old
    let s := (List.range (j.len / 128)).foldl (fun s i =>
      s.physWrite (j.newSlot * 2 ^ 42 + j.start + 128 * i) zeroLine j.newFlag 18) s
    (s.modSvc (fun v => { v with running := some j }), 0)

/-- REALM_SCRUB. -/
def execRealmScrub (s : State) : Result := .next (s.realmCommand State.scrub)

/-- Whether realm control's write-pushes wait at a home behind an open transaction (R402). -/
def Dev.realmPushesWait (s : Dev) : Bool :=
  s.mem.hubs.toList.any (fun h => h.held.any (fun x => match x.what with
    | .request (.writePush ..) (.die d) _ => d.val = 18
    | _ => false))

/-- A command that has waited for its lines is performed once they are open. -/
def State.resumeRealm (s : State) : State :=
  let go (f : State → State × Nat) (pa n : Nat) : State :=
    if s.linesOpen (spanLines pa n) then
      let (s, st) := f s
      s.modSvc (fun v => { v with todo := none, doneStatus := BitVec.ofNat 8 st })
    else s
  match s.svc.todo with
  | none => s
  | some (.quote r report at_) => go (State.doQuote r report at_) at_ 48
  | some (.loadKey r blob) => go (State.doLoadKey r blob) blob 220

/-- REALM_COMMAND_DONE (R532): a command that waits for a line, to be read or written, is not done. -/
def execRealmCommandDone (s : State) : Result :=
  .next (
    if !s.svc.busy then s
    else
      let s := s.resumeRealm
      if s.svc.todo.isSome || s.realmPushesWait then s
      else s.modSvc (fun v => { v with busy := false, status := v.doneStatus, running := none }))

end Sys2Proof.Machine
end

