-- ==== Sys2Proof/Machine/Objects.lean ====
section
/-! DEFINITION. Machine/Objects.lean: what the objects of the dictionary read, the commit groups, and what a write of each object does
(R611, R655, R663, R670, R673, R674, R682 to R696, R712, R713). -/

namespace Sys2Proof.Machine

/-- Whether an object is octets or a record (R682). -/
def ObjRow.isBytes (r : ObjRow) : Bool := r.ty = 11 || r.ty = 12
/-- Whether an object is a signed scalar (R682). -/
def ObjRow.isSigned (r : ObjRow) : Bool := r.ty = 5 || r.ty = 6 || r.ty = 7

/-- The valid keys of a realm. -/
def Realm.keyCount (r : Realm) : Nat := (r.store.filter (fun e => e.2.any (fun k => k.valid))).length

/-- The scalar an object reads (R673, R682): a signed type is sign-extended. -/
def State.readScalar (s : State) (r : ObjRow) (addr : Nat) : Nat :=
  let sub := addr % 256
  let v :=
    if addr = objAddr 9 0x100 0 then s.now.toNat
    else if addr = objAddr 6 0x300 0 then (List.range 64).foldl (fun m i => m + b2n (s.realmAt i).active * 2 ^ i) 0
    else if r.ss = 6 ∧ r.idx = 0x301 then (s.realmAt sub).keyCount
    else s.obj! addr
  if r.isSigned && bit v (8 * r.size - 1) then v % 2 ^ (8 * r.size) + (2 ^ 64 - 2 ^ (8 * r.size)) else v

/-- The code of a key's state in pkey_state (R589). -/
def KeyState.code : KeyState → Nat
  | .drained => 0 | .enabled => 1 | .quarantine _ => 2 | .undrained => 3

/-- The 16-byte entry of event_log (R697). -/
def EventEntry.bytes (e : EventEntry) : List Byte :=
  leBytes 4 (e.kind % 256 + e.seq.toNat % 2 ^ 24 * 256) ++ leBytes 4 e.detail ++ leBytes 8 e.time.toNat

/-- The opcodes R120 lists. -/
def listedOpcodes : List Nat :=
  [0, 1, 2, 3, 4, 5, 6, 7, 0x10, 0x11, 0x12, 0x20, 0x21, 0x30, 0x40, 0x41, 0x42, 0x43, 0x50, 0x51, 0x52, 0x53, 0x54, 0x55,
   0x60, 0x61, 0x62, 0x63, 0x64, 0x65, 0x70]

/-- The bytes of an octets or record object (R673), as a path reads them. -/
def State.readBytes (s : State) (p : Path) (r : ObjRow) (addr : Nat) : List Byte :=
  let sub := addr % 256
  let raw := match r.ss, r.idx with
    | 0, 0x000 => ascii "CS20-2T-LC"
    | 0, 0x00A => ascii "RVA23"
    | 0, 0x30C => leBytes 32 ((listedOpcodes.map (fun o => 2 ^ o)).sum)
    | 1, 0x200 => s.xl.fatalLog.flatMap (leBytes 64)
    | 7, 0x304 => s.mem.margin.flatMap (fun e => leBytes 2 (codeInt 16 e.1) ++ leBytes 2 (codeInt 16 e.2))
    | 0x0A, 0x203 => leBytes 1024 (((List.range 4096).map (fun k => (Table.get coldKey s.fab.keys k).code * 4 ^ k)).sum)
    | 0x0B, 0x500 => leBytes 64 (s.job sub).bits
    | 0x0B, 0x504 => leBytes 64 (s.job 64).bits
    | 0x0B, 0x505 => (List.range 13).flatMap (fun c => leBytes 8 (Table.get 0 s.pow.activity (sub * 16 + c)))
    | 0x0C, 0x121 => s.eventLog.flatMap EventEntry.bytes
    | 0x0C, 0x410 => ((s.personality).getD []).drop (1024 * sub)
    | 0x0C, 0x411 => leBytes 4 (s.oneWay 0) ++ leBytes 4 (s.oneWay 1) ++ leBytes 4 (s.oneWay 2)
    | 0x0C, 0x420 => (Table.get {} s.mgmt.attest (s.attestKey p)).nonce
    | 0x0C, 0x422 => (Table.get {} s.mgmt.attest (s.attestKey p)).report.drop (1024 * sub)
    | 0x0C, 0x441 =>
      if s.objAt 0x0C 0x440 sub = 0 then [] else if sub = 0 then s.carrierBytes 0 256
      else (s.part ⟨(sub - 1) % 9, Nat.mod_lt _ (by decide)⟩).getD []
    | _, _ => leBytes r.size (s.obj! addr)
  sliceBytes raw 0 (if r.ss = 0x0C ∧ r.idx = 0x422 ∧ sub = 5 then 1016 else r.size)

/-- The pending copy of a coupled object (R688, R689). -/
def State.pendingOf (s : State) (addr : Nat) : Nat := (Table.get none s.copies addr).getD (s.obj! addr)

/-- Set a pending copy; one equal to its in-effect value is not listed. -/
def State.setPending (s : State) (addr v : Nat) : State :=
  { s with copies := Table.set none s.copies addr (if v = s.obj! addr then none else some v) }

/-- The members of a commit group, 0 for group 0x01 (R688). -/
def groupMembers (g : Fin 3) : List Nat :=
  match g.val with
  | 0 => [objAddr 7 0x200 0, objAddr 7 0x201 0]
  | 1 => [objAddr 0x0B 0x601 0, objAddr 0x0B 0x602 0]
  | _ => [objAddr 0x0C 0x101 0, objAddr 0x0C 0x102 0]

/-- The apply object of a commit group (R688). -/
def applyObject (g : Fin 3) : Nat :=
  match g.val with
  | 0 => objAddr 7 0x202 0
  | 1 => objAddr 0x0B 0x603 0
  | _ => objAddr 0x0C 0x103 0

/-- The rule of a commit group over its members' values (R372, R611, R688). -/
def groupRule (g : Fin 3) (v : List Nat) : Bool :=
  let a := v.getD 0 0
  let b := v.getD 1 0
  match g.val with
  | 0 => b + 4 * a = 2048 && a % 16 = 0 && a ≤ 512
  | 1 => 48000 ≤ a && a ≤ 56000 && 44000 ≤ b && b ≤ 50000 && b + 2000 ≤ a
  | _ => a < b

/-- The held values of the placement and the credential generation, or those in effect (R670, R694, R695). -/
def State.heldValues (s : State) : Nat × Nat × Nat :=
  match s.heldConfig with
  | some (r, _) => (fieldAt r 8 2, fieldAt r 0xA 2, fieldAt r 0xC 4)
  | none => (s.objAt 7 0x200 0, s.objAt 7 0x201 0, s.objAt 0x0C 0x112 0)

/-- Apply (R690 to R694): the pending values are taken and checked against the group's rule. -/
def State.applyGroup (s : State) (g : Fin 3) : State :=
  let v := (groupMembers g).map s.pendingOf
  if !groupRule g v then s.setObj (applyObject g) 3
  else
    let s := if g = 0 then s.writeConfig (v.getD 0 0) (v.getD 1 0) s.heldValues.2.2 else s
    (s.modMgmt (fun m => { m with applied := Table.set none m.applied (g.val + 1) (some v) })).setObj (applyObject g) 1

/-- APPLY. -/
def execApplyGroup (g : Fin 3) (s : State) : Result := .next (s.applyGroup g)

/-- Discard (R690): every pending copy becomes its in-effect value. -/
def State.discardGroup (s : State) (g : Fin 3) : State :=
  ((groupMembers g).foldl (fun s a => s.setPending a (s.obj! a)) s).setObj (applyObject g) 4

/-- DISCARD. -/
def execDiscardGroup (g : Fin 3) (s : State) : Result := .next (s.discardGroup g)

/-- An object's default under R685, apart from the held configuration record: the personality record holds those of device_id, plca_node_id
and cred_min_generation (R705). -/
def State.defaultOf (s : State) (addr : Nat) : Nat :=
  match s.personality with
  | some r =>
    if addr = objAddr 0x0A 0x200 0 then fieldAt r 0x26 2
    else if addr = objAddr 0x0C 0x101 0 then fieldAt r 0x28 1
    else if addr = objAddr 0x0C 0x112 0 then fieldAt r 0x2C 4
    else objDefault addr
  | none => objDefault addr

/-- Defaults (R690): every pending copy becomes its default. -/
def State.defaultGroup (s : State) (g : Fin 3) : State :=
  ((groupMembers g).foldl (fun s a => s.setPending a (s.defaultOf a)) s).setObj (applyObject g) 4

/-- DEFAULTS. -/
def execDefaults (g : Fin 3) (s : State) : Result := .next (s.defaultGroup g)

/-- In-effect values are set; what a pending copy holds stays (R689, R692). -/
def State.takeEffect (s : State) (g : Fin 3) (v : List Nat) : State :=
  let kept := (groupMembers g).map s.pendingOf
  let s := ((groupMembers g).zip v).foldl (fun s e => s.setObj e.1 e.2) s
  ((groupMembers g).zip kept).foldl (fun s e => s.setPending e.1 e.2) s

/-- QUIESCENT_BOUNDARY (R373, R692): an accepted group takes effect for all its members at once, and an event is sent. -/
def execQuiescentBoundary (g : Fin 3) (s : State) : Result :=
  .next (
    match Table.get none s.mgmt.applied (g.val + 1) with
    | none => s
    | some v =>
      let s := s.takeEffect g v
      if g = 0 then s.initMemory
      else
        let s := s.modMgmt (fun m => { m with applied := Table.set none m.applied (g.val + 1) none })
        (s.setObj (applyObject g) 2).event 2 (g.val + 1 + 2 * 2 ^ 8))

/-- A write of cred_min_generation (R670): refused below its current value; else it is held, and sessions now too low close. -/
def State.writeMinGeneration (s : State) (v : Nat) : State × Nat :=
  if v < s.objAt 0x0C 0x112 0 then (s, 9)
  else
    let h := s.heldValues
    let s := (s.writeConfig h.1 h.2.1 v).setObjAt 0x0C 0x112 0 v
    (s.closeSessions (fun x => x.isOpen && x.gen < v), 0)

/-- CRED_MIN_GENERATION_WRITE. -/
def execCredMinGenerationWrite (v : U32) (s : State) : Result := .next (s.writeMinGeneration v.toNat).1

/-- A status from whether a write was accepted: 9 where a rule of the object refuses it. -/
def accepted (r : State × Bool) : State × Nat := (r.1, if r.2 then 0 else 9)
/-- A status from whether a write was in range. -/
def inRange (r : State × Bool) : State × Nat := (r.1, if r.2 then 0 else 3)

/-- A write of an in-band channel's record (R679, R697): it takes effect only while enable is 0; clearing enable closes the channel's
session. A record that enables names 8, 16, 32 or 64 entries, an address space (R433) and a package counter (R115), or is out of range
(log entry 63). -/
def State.writeChannel (s : State) (c : Fin 16) (v : Nat) : State × Nat :=
  let addr := objAddr 0x0C 0x140 c.val
  let old := s.obj! addr
  let entries := v / 2 ^ 96 % 256
  let on := v / 2 ^ 104 % 256
  if old / 2 ^ 104 % 256 = 0 then
    let fields := (entries = 8 || entries = 16 || entries = 32 || entries = 64) && v / 2 ^ 64 % 65536 < 4096 && v / 2 ^ 80 % 65536 < 1024
    if 1 < on || (on = 1 && !fields) then (s, 3)
    else
      let s := s.setObj addr v
      (if on = 1 then s.modMgmt (fun m => { m with rings := Table.set {} m.rings c.val {} }) else s, 0)
  else if on = 0 then ((s.setObj addr (old - old / 2 ^ 104 % 256 * 2 ^ 104)).closeSessions (fun x => x.path = .inband c), 0)
  else (s, 0)

/-- A write to the apply object of a group (R690). -/
def State.writeApply (s : State) (g : Fin 3) (v : Nat) : State × Nat :=
  match v with
  | 1 => (s.applyGroup g, 0)
  | 2 => (s.discardGroup g, 0)
  | 3 => (s.defaultGroup g, 0)
  | _ => (s, 3)

/-- A write of reset_request (R738, R743): the reset is then due. -/
def State.requestReset (s : State) (v : Nat) : State × Nat :=
  match v with
  | 1 => ({ s with resetDue := some .warm }, 0)
  | 2 => ({ s with resetDue := some .cold }, 0)
  | 3 => (s.restartController, 0)
  | _ => (s, 3)

/-- A write of boot_continue (R711): the boot's measurements are those of the cold reset that holds. -/
def State.continueBoot (s : State) (v : Nat) : State × Nat :=
  if v ≠ 1 then (s, 3)
  else if s.objAt 0x0C 0x400 0 = 3 then (s.leaveBringUp (s.boot.reading.getD { pufNoise := 0, carrierReads := true, storeReads := true, connTrained := [], ripen := [] }), 0) else (s, 0)

/-- A write of a partition key object (R590, R591): false where the key does not exist. -/
def State.writeKey (s : State) (v : Nat) (f : State → BitVec 12 → State × Nat) : State × Nat :=
  if 4096 ≤ v then (s, 3) else f s (BitVec.ofNat 12 v)

/-- What a write of a scalar object that is not a plain register does, with its status; none: the object is a plain register. The reserved
fields of a route entry read zero whatever is written (R15, R587). -/
def State.writeAction (s : State) (p : Path) (ss idx sub v : Nat) : Option (State × Nat) :=
  match ss, idx with
  | 0x01, 0x201 => some (if v = 0 then (s.modXl (fun x => { x with fatalLog := [] }), 0) else (s, 0))
  | 0x07, 0x202 => some (s.writeApply 0 v)
  | 0x07, 0x303 => some (if v = 1 then (s.setObjAt 7 0x303 0 1, 0) else (s, 3))
  | 0x0A, 0x101 => some (s.writeEnable (linkId sub) (v = 1), 0)
  | 0x0A, 0x102 => some (inRange (s.writeRole (linkId sub) v))
  | 0x0A, 0x200 => some (accepted (s.writeDeviceId v))
  | 0x0A, 0x201 => some (s.writeKey v (fun s k => accepted (s.enableKey k)))
  | 0x0A, 0x202 => some (s.writeKey v (fun s k => (s.disableKey k, 0)))
  | 0x0B, 0x102 => some (s.setObjAt 0x0B 0x102 sub 0xFFFFFFFF, 0)
  | 0x0B, 0x103 => some (inRange (s.writeStepWindow v))
  | 0x0B, 0x300 => some (inRange (s.writePowerCap v))
  | 0x0B, 0x304 => some (s.setObjAt 0x0B 0x304 0 0, 0)
  | 0x0B, 0x501 => some (if 64 ≤ v then (s, 3) else accepted (s.openJob v))
  | 0x0B, 0x502 => some (if 64 ≤ v then (s, 3) else (s.closeJob v, 0))
  | 0x0B, 0x603 => some (s.writeApply 1 v)
  | 0x0B, 0x803 => some (if v = 1 then (s.modPow (fun x => { x with ripenAsked := true }), 0) else (s, 3))
  | 0x0C, 0x103 => some (s.writeApply 2 v)
  | 0x0C, 0x112 => some (s.writeMinGeneration v)
  | 0x0C, 0x402 => some (inRange (s.requestBringUp (v = 1)))
  | 0x0C, 0x403 => some (s.continueBoot v)
  | 0x0C, 0x404 => some (s.requestReset v)
  | 0x0C, 0x412 => some (if v = 1 then (s.raiseFloors, 0) else (s, 3))
  | 0x0C, 0x421 => some (s.attest p (v = 1))
  | 0x0C, 0x430 => some (s.beginTransfer p v)
  | 0x0C, 0x431 => some (if s.mgmt.transfer.any (fun t => t.by_ ≠ p) then (s, 9) else if v % 1024 = 0 then (s.setObjAt 0x0C 0x431 0 v, 0) else (s, 3))
  | 0x0C, 0x433 => some (s.commitTransfer p (v = 1))
  | 0x0C, 0x460 => some (s.prepareRemoval (v = 1))
  | _, _ =>
    if ss = 0x0A ∧ 0x1000 ≤ idx then some (s.setObjAt ss idx sub (bits v 63 63 * 2 ^ 63 + bits v 56 34 * 2 ^ 34 + bits v 19 0), 0)
    else if ss = 0x0B ∧ 0x400 ≤ idx ∧ idx ≤ 0x407 then some (if v < 64 ∨ v = 255 then (s.setObjAt ss idx sub v, 0) else (s, 3)) else none

/-- What a write of an octets or record object does from a byte offset (R672, R673). -/
def State.writeBytesObj (s : State) (p : Path) (r : ObjRow) (addr off : Nat) (data : List Byte) : State × Nat :=
  if r.ss = 0x0C ∧ r.idx = 0x432 then s.writeTransfer p off data
  else if r.size < off + data.length then (s, 4)
  else
    let new := patch (s.readBytes p r addr) off data
    match r.ss, r.idx with
    | 0x0C, 0x420 =>
      let k := s.attestKey p
      (s.modMgmt (fun m => { m with attest := Table.set {} m.attest k { Table.get {} m.attest k with nonce := new } }), 0)
    | 0x0C, 0x140 => s.writeChannel ⟨addr % 16, Nat.mod_lt _ (by decide)⟩ (leNat new)
    | 0x0A, 0x600 =>
      if fieldAt new 4 8 % 4096 ≠ 0 || fieldAt new 12 8 % 4096 ≠ 0 then (s, 3) else (s.setObj addr (leNat new), 0)
    | _, _ => (s.setObj addr (leNat new), 0)

/-- Whether a scalar value fits its object's type (R674, R682). -/
def ObjRow.fits (r : ObjRow) (v : Nat) : Bool :=
  if r.ty = 0 then v ≤ 1
  else if r.isSigned then intOf (8 * r.size) v = intOf 64 v
  else v < 2 ^ (8 * r.size)

/-- The die that an object's unit is on, where it is on one (R22, R29, R686): the die of its sub-index, or of its mill, sheaf processor, stack,
die port, link, route table or service engine; the power controller, with every object of 0x0B that no die has of its own, is on SV1. -/
def ObjRow.dieOf (r : ObjRow) (addr : Nat) : Option Nat :=
  let sub := addr % 256
  let idx := addr / 256 % 65536
  if r.perDie then some sub
  else if r.ss = 2 || r.ss = 3 then some (sub / 12)
  else if r.ss = 4 && idx < 0x200 then some (sub / 32)
  else if r.ss = 6 && idx = 0x110 then some (18 + sub / 5)
  else if r.ss = 7 && idx < 0x110 then some (10 + sub / 4)
  else if r.ss = 9 && 0x200 ≤ idx then some (sub / 8)
  else if r.ss = 0x0A && (idx < 0x200 || idx = 0x300) then some (14 + sub / 8)
  else if r.ss = 0x0A && 0x1000 ≤ idx && idx < 0x1100 then some (14 + (idx - 0x1000) / 16)
  else if r.ss = 0x0A && 0x1100 ≤ idx then some (14 + (idx - 0x1100))
  else if r.ss = 0x0B then some 19
  else none

/-- Whether the die an object belongs to is out of service (R29, R686). -/
def State.unavailable (s : State) (r : ObjRow) (addr : Nat) : Bool := (r.dieOf addr).any (fun d => !s.inService d)

/-- A right of R663 that a path's session holds; a core has every right but bring-up (R681). -/
def State.hasRight (s : State) (p : Path) (n : Nat) : Bool :=
  match p with
  | .core _ => n < 4
  | _ => ((s.sessionAt p).map (fun x => bit x.roles n)).getD false

/-- The right that a write of an object needs (R663). -/
def writeRight (r : ObjRow) : Nat :=
  if r.access = .bringUp then 4 else if r.ss = 0x0A then 2 else if r.ss = 0 ∨ r.ss = 0x0C then 3 else 1

/-- Whether a path has no server yet: only the management port has one before boot_state 0x5 (R655). -/
def State.noServer (s : State) (p : Path) : Bool :=
  s.objAt 0x0C 0x400 0 ≠ 5 && (match p with
    | .mgmt _ => false
    | _ => true)

/-- Whether a request for an object of a subsystem cannot be performed yet (R655, R713). -/
def State.notReady (s : State) (p : Path) (r : ObjRow) : Bool :=
  let b := s.objAt 0x0C 0x400 0
  if b = 5 then false
  else match p with
    | .mgmt _ =>
      if b = 1 || b = 2 then !(r.ss = 0 || (r.ss = 0x0C && 0x400 ≤ r.idx))
      else !(r.ss = 0 || r.ss = 0x0B || r.ss = 0x0C || r.access = .bringUp)
    | _ => true

/-- A write of an object under its own rules (R674, R683, R684, R686), once its path has been checked; `ours` says that it comes over the
management port with the bring-up right. -/
def State.performWrite (s : State) (p : Path) (ours : Bool) (r : ObjRow) (addr value : Nat) (data : List Byte) : State × Nat :=
  if s.unavailable r addr then (s, 7)
  else match r.access with
    | .ro => (s, 2)
    | .bringUp =>
      if !(ours && s.objAt 0x0C 0x400 0 = 3) then (if r.idx = 0x303 then s.setObj addr 3 else s, 6)
      else if r.isBytes then (s, 2)
      else if !r.fits value then (s, 4)
      else if value < r.lo ∨ r.hi < value then (s, 3)
      else (s.writeAction p r.ss r.idx (addr % 256) value).getD (s.setObj addr value, 0)
    | .coupled => if !r.fits value then (s, 4) else if value < r.lo ∨ r.hi < value then (s, 3) else (s.setPending addr value, 0)
    | _ =>
      if r.isBytes then s.writeBytesObj p r addr (value % 2 ^ 16) data
      else if !r.fits value then (s, 4)
      else if value < r.lo ∨ r.hi < value then (s, 3)
      else (s.writeAction p r.ss (addr / 256 % 65536) (addr % 256) value).getD (s.setObj addr value, 0)

/-- A value a path has written to a dictionary object (R663, R673, R674): the state and the status. -/
def State.writeObject (s : State) (p : Path) (addr value : Nat) (data : List Byte) : State × Nat :=
  match lookupRow addr with
  | none => (s, 1)
  | some r =>
    let port := match p with
      | .mgmt _ => true
      | _ => false
    if s.notReady p r then (s, 8)
    else if !(r.access = .bringUp && !(port && s.objAt 0x0C 0x400 0 = 3)) && !s.hasRight p (writeRight r) then (s, 5)
    else s.performWrite p port r addr value data

/-- What READ gives (R673, R683, R686): the status, the scalar and the bytes. -/
def State.readObject (s : State) (p : Path) (addr off len : Nat) : OpReply :=
  match lookupRow addr with
  | none => ⟨1, 0, []⟩
  | some r =>
    if s.notReady p r then ⟨8, 0, []⟩
    else if !s.hasRight p 0 then ⟨5, 0, []⟩
    else if s.unavailable r addr then ⟨7, 0, []⟩
    else if r.isBytes then
      let b := if r.access = .wo then List.replicate r.size 0 else s.readBytes p r addr
      let n := if len = 0 then b.length - off else len
      if b.length < off + n then ⟨4, 0, []⟩ else ⟨0, off, (b.drop off).take n⟩
    else if r.access = .wo then ⟨0, 0, []⟩
    else ⟨0, s.readScalar r addr, []⟩

/-- What READ_PENDING gives (R673, R683). -/
def State.readPending (s : State) (p : Path) (addr : Nat) : OpReply :=
  match lookupRow addr with
  | none => ⟨1, 0, []⟩
  | some r =>
    if s.notReady p r then ⟨8, 0, []⟩
    else if !s.hasRight p 0 then ⟨5, 0, []⟩
    else if r.access ≠ .coupled then ⟨4, 0, []⟩
    else ⟨0, s.pendingOf addr, []⟩

/-- The code of an access class (R687). -/
def Access.code : Access → Nat
  | .ro => 0 | .rw => 1 | .wo => 2 | .coupled => 3 | .bringUp => 4

/-- The 32-byte descriptor of an object whose default is given (R687). -/
def ObjRow.describe (r : ObjRow) (dflt : Nat) : List Byte :=
  let head := [BitVec.ofNat 8 r.ty, BitVec.ofNat 8 r.access.code, BitVec.ofNat 8 r.group, 0] ++ leBytes 2 r.size ++ [0, 0]
  if r.isBytes then head ++ List.replicate 24 0
  else head ++ leBytes 8 dflt ++ leBytes 8 r.lo ++ leBytes 8 r.hi

/-- What DESCRIBE gives (R673, R687). -/
def State.describeObject (s : State) (p : Path) (addr : Nat) : OpReply :=
  match lookupRow addr with
  | none => ⟨1, 0, []⟩
  | some r => if s.notReady p r then ⟨8, 0, []⟩ else if !s.hasRight p 0 then ⟨5, 0, []⟩ else ⟨0, 0, r.describe (s.defaultOf addr)⟩

/-- The object addresses of a row of the dictionary, ascending. -/
def ObjRow.addresses (r : ObjRow) : List Nat :=
  (List.range (r.idxHi + 1 - r.idx)).flatMap (fun i =>
    ((List.range (r.subHi + 1 - r.sub)).filter (fun j => r.has (r.sub + j))).map (fun j => objAddr r.ss (r.idx + i) (r.sub + j)))

/-- What NEXT gives (R673): the lowest existing object address above one, or 0xFFFF_FFFF. -/
def State.nextAfter (s : State) (p : Path) (addr : Nat) : OpReply :=
  if s.noServer p then ⟨8, 0, []⟩
  else if !s.hasRight p 0 then ⟨5, 0, []⟩
  else
    let above := (dictionary.flatMap ObjRow.addresses).filter (fun a => addr < a)
    ⟨0, above.foldl min 0xFFFFFFFF, []⟩

/-- A session's event mask is set (R673, R677); it is a request for no object, which waits for the dictionary server (R655). -/
def State.subscribe (s : State) (p : Path) (mask : Byte) : State × Nat :=
  if s.objAt 0x0C 0x400 0 ≠ 5 then (s, 8)
  else if !s.hasRight p 0 then (s, 5)
  else match s.sessionAt p with
    | some x => (s.modMgmt (fun m => { m with sessions := m.sessions.map (fun y => if y.num = x.num then { y with mask := mask } else y) }), 0)
    | none => (s, 0)

/-- Keep what an operation answers. -/
def State.answerOp (s : State) (r : OpReply) : State := s.modMgmt (fun m => { m with reply := some r })

/-- READ. -/
def execReadObject (path : Path) (addr : U32) (off len : U16) (s : State) : Result :=
  .next (s.answerOp (s.readObject path addr.toNat off.toNat len.toNat))
/-- WRITE. -/
def execWriteObject (path : Path) (addr : U32) (value : U64) (data : List Byte) (s : State) : Result :=
  .next (let (s, st) := s.writeObject path addr.toNat value.toNat data; s.answer st value.toNat)
/-- READ_PENDING. -/
def execReadPending (path : Path) (addr : U32) (s : State) : Result := .next (s.answerOp (s.readPending path addr.toNat))
/-- DESCRIBE. -/
def execDescribe (path : Path) (addr : U32) (s : State) : Result := .next (s.answerOp (s.describeObject path addr.toNat))
/-- NEXT. -/
def execNextObject (path : Path) (addr : U32) (s : State) : Result := .next (s.answerOp (s.nextAfter path addr.toNat))
/-- SUBSCRIBE. -/
def execSubscribe (path : Path) (mask : Byte) (s : State) : Result := .next (let (s, st) := s.subscribe path mask; s.answer st mask.toNat)

end Sys2Proof.Machine
end

