-- ==== Sys2Proof/Machine/Sessions.lean ====
section
/-! DEFINITION. Machine/Sessions.lean: the management port, Eloadino datagrams, sessions, requests, events, in-band channels and core
mailboxes (R654 to R681, R713 to R715). -/

namespace Sys2Proof.Machine

/-- A datagram's header and payload, where it is well formed (R658, R660): version 1, its stated payload length, and no longer than its
path allows. -/
structure Datagram where
  ty : Nat
  session : Nat
  seq : Nat
  header : List Byte
  payload : List Byte
  deriving DecidableEq, Repr

/-- The longest datagram of a path (R657, R679). -/
def pathLimit : SessionPath → Nat
  | .mgmt => 1232
  | .inband _ => 2040

/-- Whether a payload of so many bytes fits a type that R661 has empty: DISCOVER plain, KEEPALIVE and CLOSE with their tag alone (R666). -/
def fitsType (ty len : Nat) : Bool :=
  match ty with
  | 5 => len = 0
  | 0x13 => len = 16
  | 0x14 => len = 16
  | _ => true

/-- Read a datagram (R658, R660, R661). -/
def parseDatagram (p : SessionPath) (b : List Byte) : Option Datagram :=
  if b.length < 16 || pathLimit p < b.length || fieldAt b 0 1 ≠ 1 || fieldAt b 2 2 + 16 ≠ b.length || !fitsType (fieldAt b 1 1) (fieldAt b 2 2) then none
  else some { ty := fieldAt b 1 1, session := fieldAt b 4 4, seq := fieldAt b 8 8, header := b.take 16, payload := b.drop 16 }

/-- The header of a datagram (R660). -/
def headerBytes (ty len session seq : Nat) : List Byte := leBytes 1 1 ++ leBytes 1 ty ++ leBytes 2 len ++ leBytes 4 session ++ leBytes 8 seq

/-- Whether the module may transmit on the segment without waiting for a cycle: it coordinates it, or runs without PLCA (R659, R713). -/
def State.freeToSend (s : State) : Bool := s.objAt 0x0C 0x101 0 = 0 || s.objAt 0x0C 0x400 0 = 1

/-- A frame of the management port is sent, or waits for a transmit opportunity (R659). -/
def State.transmit (s : State) (f : Frame) : State :=
  if s.freeToSend then s.modMgmt (fun m => { m with sent := m.sent ++ [f] }) else s.modMgmt (fun m => { m with waiting := m.waiting ++ [f] })

/-- The configuration of an in-band channel (R697): base, address space, doorbell counter, entries and enable. -/
structure Channel where
  base : Nat
  asid : Nat
  doorbell : Nat
  entries : Nat
  on : Bool
  deriving DecidableEq, Repr

/-- An in-band channel's record (R679, R697). -/
def State.channel (s : State) (c : Fin 16) : Channel :=
  let v := s.objAt 0x0C 0x140 c.val
  { base := bits v 63 0, asid := bits v 79 64, doorbell := bits v 95 80, entries := bits v 103 96, on := bits v 111 104 = 1 }

/-- Whether n bytes at a virtual address meet a sealed region of some address space whose root page table this is (R167, R476): the region
is denied under every address space that shares the table. -/
def Dev.rootSealed (s : Dev) (root va n : Nat) : Bool :=
  s.xl.sealed.any (fun c => (s.ctx 0 c.asid).any (fun x => x.rootPa = root) && c.base < va + n && va < c.base + 4096 * c.pages)

/-- The physical address a core's own translation gives a virtual address of an address space (R440 to R444, R527): none where it is not
canonical (R48), not mapped with the right needed, mapped as a realm's, or written in a sealed region (R167, R476). -/
def State.coreAddr (s : State) (asid va : Nat) (write : Bool) : Option Nat :=
  match s.ctx 0 asid with
  | none => none
  | some c =>
    if c.term || vaError va = 1 || (write && s.rootSealed c.rootPa va 1) then none
    else match s.walkFrom 0 c asid (va / 4096) 4 c.rootPa with
      | .leaf pte level _ =>
        if bit pte 8 || !bit pte (if write then 2 else 1) then none
        else some (leafBase pte level + va % (4096 * leafPages pte level))
      | _ => none

/-- The physical pieces that a core reads at a virtual address; none where a page of them is not readable, or a line cannot be read now. -/
def State.corePieces (s : State) (asid va n : Nat) : Option (List (Nat × Nat)) :=
  (pagePieces va n (n / 4096 + 2)).foldl (fun acc x => match acc, s.coreAddr asid x.1 false with
    | some l, some pa => if s.linesOpen (spanLines pa x.2) then some (l ++ [(pa, x.2)]) else none
    | _, _ => none) (some [])

/-- Bytes that a core reads at a virtual address, through their homes; none where a page of them is not readable, or a line cannot be read
now. -/
def State.coreRead (s : State) (asid va n : Nat) : Option (State × List Byte) :=
  (s.corePieces asid va n).map (fun l =>
    let s := s.lift (fun d => d.onceReads (l.flatMap (fun x => spanLines x.1 x.2)))
    (s, l.flatMap (fun x => (s.physRead x.1 x.2 false).1)))

/-- Bytes that a core writes at a virtual address; a page that is not writable takes none. -/
def State.coreWrite (s : State) (asid va : Nat) (b : List Byte) : State :=
  ((pagePieces va b.length (b.length / 4096 + 2)).foldl (fun (acc : State × List Byte) x =>
    (match acc.1.coreAddr asid x.1 true with
      | some pa => acc.1.physWrite pa (acc.2.take x.2) false 8
      | none => acc.1, acc.2.drop x.2)) (s, b)).1

/-- A reply of the dictionary server goes into the next response slot, and the response count advances (R679). -/
def State.ringReply (s : State) (c : Fin 16) (b : List Byte) : State :=
  let x := s.channel c
  let r := Table.get {} s.mgmt.rings c.val
  if !x.on then s
  else
    let slot := x.base + 0x1000 + (x.entries + r.written % x.entries) * 0x800
    let s := s.coreWrite x.asid slot (leBytes 2 b.length ++ leBytes 6 0)
    let s := s.coreWrite x.asid (slot + 8) b
    let s := s.modMgmt (fun m => { m with rings := Table.set {} m.rings c.val { r with written := r.written + 1 } })
    s.coreWrite x.asid x.base (leBytes 4 (r.written + 1))

/-- A datagram is sent on a session's path. -/
def State.sendOn (s : State) (p : SessionPath) (b : List Byte) : State :=
  match p with
  | .mgmt => s.transmit (.datagram .mgmt b)
  | .inband c => s.ringReply c b

/-- A plain datagram, with a session's number or 0 (R660, R661). -/
def State.sendPlain (s : State) (p : SessionPath) (ty session : Nat) (payload : List Byte) : State :=
  s.sendOn p (headerBytes ty payload.length session 0 ++ payload)

/-- Change a session. -/
def State.modSession (s : State) (num : Nat) (f : Session → Session) : State :=
  s.modMgmt (fun m => { m with sessions := m.sessions.map (fun x => if x.num = num then f x else x) })

/-- The IV of a protected datagram (R666). -/
def ivOf (session seq : Nat) : List Byte := leBytes 4 session ++ leBytes 8 seq

/-- A protected datagram of a session, numbered after the last (R666, R667). -/
def State.sendProtected (s : State) (x : Session) (ty : Nat) (plain : List Byte) : State :=
  let seq := ((s.mgmt.sessions.find? (fun y => y.num = x.num)).map Session.sent).getD 0 + 1
  let h := headerBytes ty (plain.length + 16) x.num seq
  let (ct, tag) := gcmSeal x.keyOut (ivOf x.num seq) h plain
  (s.modSession x.num (fun y => { y with sent := seq })).sendOn x.path (h ++ ct ++ tag)

/-- A handshake is answered with REJECT (R668); one that answers FINISH bears the session's number (R660). -/
def State.reject (s : State) (p : SessionPath) (session reason : Nat) : State :=
  (s.bump 0x0C 0x113 0 1).sendPlain p 4 session (leBytes 1 reason)

/-- Whether the module is in the no-personality state (R713, R714). -/
def State.bare (s : State) : Bool := s.objAt 0x0C 0x400 0 = 1

/-- The operator root key that a credential names, if it is present (R662, R705); in the no-personality state the Cerund service key that
INIT carries (R714). -/
def State.rootKey (s : State) (cred extra : List Byte) : Option (List Byte) :=
  let root := fieldAt cred 3 1
  if s.bare then (if root = 0x80 && sha384 extra = Config.serviceKeyDigest then some extra else none)
  else match s.personality with
    | none => none
    | some r =>
      let k := sliceBytes r (0xE0 + 96 * root) 96
      if 4 ≤ root || k.all (· = 0) then none else some k

/-- Why INIT is rejected (R664, R668); none where its credential passes. -/
def State.initRefusal (s : State) (p : SessionPath) (b : List Byte) : Option Nat :=
  let cred := sliceBytes b 128 200
  let extra := b.drop 328
  let handshakes := s.mgmt.sessions.countP (fun x => !x.isOpen)
  let limit := match p with
    | .mgmt => 8
    | .inband _ => 1
  if b.length ≠ (if s.bare then 424 else 328) then some 1
  else if fieldAt cred 0 2 ≠ 1 || 32 ≤ fieldAt cred 2 1 || !p384Valid (b.take 96) then some 1
  else match s.rootKey cred extra with
    | none => some 2
    | some k =>
      if !ecdsaVerify k (sha384 (cred.take 0x68)) (sliceBytes cred 0x68 96) then some 2
      else if !s.bare && fieldAt cred 4 4 < s.objAt 0x0C 0x112 0 then some 3
      else if 4 ≤ handshakes || limit ≤ s.mgmt.sessions.countP (fun x => x.isOpen && x.path = p) then some 4
      else none

/-- The module's management key: the alias key of the image that runs, or of 48 zero bytes in the recovery state (R664, R699, R715). -/
def State.managementKey (s : State) : Option Nat := s.boot.secret.map (fun k => aliasPrivate k s.measurement)

/-- An INIT that passes (R664, R665): a handshake opens, and ACCEPT answers it. -/
def State.acceptInit (s : State) (p : SessionPath) (b : List Byte) : State :=
  let cred := sliceBytes b 128 200
  let num := s.mgmt.nextSession
  let (s, n) := s.freshDraw
  let (s, m) := s.freshDraw
  let eph := (Config.drawBits n).toNat % (p384Order - 1) + 1
  let rand := leBytes 32 ((Config.drawBits m).toNat % 2 ^ 256)
  let head := leBytes 4 num ++ sliceBytes (p384Public eph) 0 96 ++ rand
  let sig := match s.managementKey with
    | some k => sliceBytes (ecdsaSign k (sha384 (b ++ head))) 0 96
    | none => List.replicate 96 0
  let z := p384Ecdh eph (b.take 96)
  let k := hkdfExpand (hkdfExtract (sliceBytes b 96 32 ++ rand) z) (ascii "Eloadino session") 64
  let x : Session := {
    num := num, path := p, roles := if s.bare then 8 else fieldAt cred 2 1, gen := fieldAt cred 4 4, pub := sliceBytes cred 8 96,
    keyIn := k.take 32, keyOut := k.drop 32, toSign := sha384 (b ++ head ++ sig), deadline := s.now + 5000000000 }
  let s := s.modMgmt (fun g => { g with nextSession := num + 1, sessions := g.sessions ++ [x] })
  s.sendPlain p 2 0 (head ++ sig)

/-- A client's INIT (R664, R668). -/
def State.init (s : State) (p : SessionPath) (d : Datagram) : State :=
  match s.initRefusal p d.payload with
  | some r => s.reject p 0 r
  | none => s.acceptInit p d.payload

/-- The sequence rule (R667): above the highest accepted, or within the 64 below it and not accepted before. -/
def Session.fresh? (x : Session) (seq : Nat) : Bool := x.high < seq || (seq < x.high && x.high ≤ seq + 64 && !x.seen.contains seq)

/-- A sequence is accepted (R667). -/
def Session.take (x : Session) (seq : Nat) : Session :=
  let high := max x.high seq
  { x with high := high, seen := (seq :: x.seen).filter (fun n => high ≤ n + 64) }

/-- A protected datagram of an open session: its session and plaintext, or the count that a failing one leaves (R666, R667). -/
def State.unprotect (s : State) (p : SessionPath) (d : Datagram) : State × Option (Session × List Byte) :=
  match s.mgmt.sessions.find? (fun x => x.num = d.session && x.path = p && x.isOpen) with
  | none => (s, none)
  | some x =>
    let n := d.payload.length
    if n < 16 then (s, none)
    else match gcmOpen x.keyIn (ivOf d.session d.seq) d.header (d.payload.take (n - 16)) (d.payload.drop (n - 16)) with
      | none => (s.bump 0x0C 0x115 0 1, none)
      | some plain =>
        if !x.fresh? d.seq then (s.bump 0x0C 0x114 0 1, none)
        else (s.modSession x.num (fun y => { y.take d.seq with last := s.now }), some (x, plain))

/-- A client's FINISH (R664, R668): it proves its credential, and the session opens with a KEEPALIVE. -/
def State.finishSession (s : State) (p : SessionPath) (d : Datagram) : State :=
  match s.mgmt.sessions.find? (fun x => x.num = d.session && x.path = p && !x.isOpen) with
  | none => s
  | some x =>
    let drop (s : State) : State := s.modMgmt (fun m => { m with sessions := m.sessions.filter (fun y => y.num ≠ x.num) })
    let n := d.payload.length
    if d.seq ≠ 1 || n ≠ 112 then (drop s).reject p x.num 1
    else if x.deadline.toNat < s.now.toNat then (drop s).reject p x.num 6
    else match gcmOpen x.keyIn (ivOf d.session d.seq) d.header (d.payload.take 96) (d.payload.drop 96) with
      | none => ((drop s).bump 0x0C 0x115 0 1).reject p x.num 5
      | some sig =>
        if !ecdsaVerify x.pub x.toSign sig then (drop s).reject p x.num 5
        else
          let s := s.modSession x.num (fun y => { y.take 1 with isOpen := true, toSign := [], last := s.now })
          (s.showSessions).sendProtected { x with sent := 0 } 0x13 []

/-- DISCOVER is answered with ANNOUNCE (R661): part number, serial and device ID. -/
def State.announce (s : State) (p : SessionPath) (_d : Datagram) : State :=
  s.sendPlain p 6 0 (sliceBytes (ascii "CS20-2T-LC") 0 16 ++ leBytes 16 (s.objAt 0 1 0) ++ leBytes 2 (s.objAt 0x0A 0x200 0))

/-- One operation entry performed (R672 to R674): its status, value, length and data, and what is left of the data area. -/
def State.performEntry' (s : State) (p : Path) (e : Nat) (data : List Byte) : State × OpReply × Nat × List Byte :=
  let addr := bits e 31 0
  let op := bits e 35 32
  let len := bits e 63 48
  let value := bits e 127 64
  let done (r : OpReply) : State × OpReply × Nat × List Byte := (s, r, r.data.length, data)
  match op with
  | 1 => done (s.readObject p addr (value % 2 ^ 16) len)
  | 2 =>
    if data.length < len then (s, ⟨4, value, []⟩, 0, [])
    else
      let (s, st) := s.writeObject p addr value (data.take len)
      (s, ⟨st, value, []⟩, len, data.drop len)
  | 3 => done (s.readPending p addr)
  | 4 => done (s.describeObject p addr)
  | 5 => done (s.nextAfter p addr)
  | 6 =>
    let (s, st) := s.subscribe p (BitVec.ofNat 8 value)
    (s, ⟨st, value, []⟩, 0, data)
  | _ => done ⟨4, value, []⟩

/-- The entries of a request in order (R671, R675); flag bit 0 stops at the first failure (status 0x0A for the rest); reserved
bits read zero in what is returned (R15). What is returned is
the entries and the data area of the response; limit is what the data area may hold. -/
def State.performEntries (s : State) (p : Path) (stop : Bool) (limit : Nat) :
    List Nat → Bool → List Byte → State × List Byte × List Byte
  | [], _, _ => (s, [], [])
  | e :: es, failed, data =>
    let entry (st value len : Nat) : List Byte := leBytes 4 (bits e 31 0) ++ leBytes 1 (bits e 35 32) ++ leBytes 1 st ++ leBytes 2 len ++ leBytes 8 value
    if failed && stop then
      let (s, a, b) := s.performEntries p stop limit es true data
      (s, entry 10 (bits e 127 64) 0 ++ a, b)
    else
      let (s, r, len, rest) := s.performEntry' p e data
      let (r, len) := if limit < r.data.length then ((⟨4, r.value, []⟩ : OpReply), 0) else (r, len)
      let (s, a, b) := s.performEntries p stop (limit - r.data.length) es (failed || r.status ≠ 0) rest
      (s, entry r.status r.value len ++ a, r.data ++ b)

/-- The first six bytes of a response, from those of its request: the reserved flag bits read zero (R15, R671). -/
def answerHead (b : List Byte) : List Byte := b.take 5 ++ leBytes 1 (fieldAt b 5 1 % 2)

/-- The plaintext of a request performed, with the plaintext of its response (R671, R675); none where it is not a well-formed request. -/
def State.performRequest (s : State) (p : Path) (limit : Nat) (b : List Byte) : State × Option (List Byte) :=
  let count := fieldAt b 4 1
  let area := fieldAt b 6 2
  if b.length < 8 || count = 0 || 16 < count || b.length ≠ 8 + 16 * count + area then (s, none)
  else
    let es := (List.range count).map (fun i => fieldAt b (8 + 16 * i) 16)
    let (s, a, d) := s.performEntries p (bit (fieldAt b 5 1) 0) (limit - 8 - 16 * count) es false (b.drop (8 + 16 * count))
    (s, some (answerHead b ++ leBytes 2 d.length ++ a ++ d))

/-- The path of a session's requests. -/
def Session.asPath (x : Session) : Path :=
  match x.path with
  | .mgmt => .mgmt (BitVec.ofNat 32 x.num)
  | .inband c => .inband c

/-- A REQUEST (R675, R676): answered from the kept responses, discarded where its ID is old, or performed and its RESPONSE kept. -/
def State.request (s : State) (p : SessionPath) (d : Datagram) : State :=
  match s.unprotect p d with
  | (s, none) => s
  | (s, some (x, b)) =>
    let id := fieldAt b 0 4
    match x.kept.find? (fun k => k.1 = id) with
    | some k => s.sendProtected x 0x11 k.2
    | none =>
      if x.highId.any (fun h => id ≤ h) then s.bump 0x0C 0x114 0 1
      else match s.performRequest x.asPath (pathLimit p - 32) b with
        | (s, none) => s
        | (s, some r) =>
          let s := s.modSession x.num (fun y => { y with kept := ((id, r) :: y.kept).take 8, highId := some id })
          s.sendProtected x 0x11 r

/-- Whether a path's server runs: the management port from step 5 of a boot on, the dictionary server once the module is operational
(R655, R709). -/
def State.portRuns (s : State) (p : SessionPath) : Bool :=
  match p with
  | .mgmt => s.pow.rails && !(s.objAt 0x0C 0x400 0 = 0)
  | .inband _ => s.objAt 0x0C 0x400 0 = 5

/-- A datagram of a type is taken in on a path; another, or one that is not well formed, is discarded without reply (R658, R661). -/
def State.datagram (s : State) (p : SessionPath) (b : List Byte) (ty : Nat) (f : State → Datagram → State) : State :=
  match parseDatagram p b with
  | some d => if d.ty = ty && s.portRuns p then f s d else s
  | none => s

/-- INIT. -/
def execSessionInit (p : SessionPath) (b : List Byte) (s : State) : Result := .next (s.datagram p b 1 (fun s d => s.init p d))
/-- FINISH. -/
def execSessionFinish (p : SessionPath) (b : List Byte) (s : State) : Result := .next (s.datagram p b 3 (fun s d => s.finishSession p d))
/-- DISCOVER. -/
def execSessionDiscover (p : SessionPath) (b : List Byte) (s : State) : Result := .next (s.datagram p b 5 (fun s d => s.announce p d))
/-- REQUEST. -/
def execSessionRequest (p : SessionPath) (b : List Byte) (s : State) : Result := .next (s.datagram p b 0x10 (fun s d => s.request p d))
/-- KEEPALIVE (R669): an accepted datagram keeps the session open. -/
def execSessionKeepalive (p : SessionPath) (b : List Byte) (s : State) : Result :=
  .next (s.datagram p b 0x13 (fun s d => (s.unprotect p d).1))
/-- CLOSE (R669). -/
def execSessionClose (p : SessionPath) (b : List Byte) (s : State) : Result :=
  .next (s.datagram p b 0x14 (fun s d =>
    match s.unprotect p d with
    | (s, some (x, _)) => s.closeSessions (fun y => y.num = x.num)
    | (s, none) => s))

/-- HANDSHAKE_TIMEOUT (R664, R668): 5 s have passed since ACCEPT without FINISH. -/
def execHandshakeTimeout (session : U32) (t : Instant) (s : State) : Result :=
  .next (
    let s' := s.advance t
    match s.mgmt.sessions.find? (fun x => x.num = session.toNat && !x.isOpen && x.deadline.toNat ≤ s'.now.toNat) with
    | some x => (s'.modMgmt (fun m => { m with sessions := m.sessions.filter (fun y => y.num ≠ x.num) })).reject x.path 0 6
    | none => s)

/-- SESSION_IDLE_TIMEOUT (R669): session_idle_s has passed without an accepted datagram. -/
def execSessionIdleTimeout (session : U32) (t : Instant) (s : State) : Result :=
  .next (
    let s' := s.advance t
    let due := s.objAt 0x0C 0x111 0 * 1000000000
    if s.mgmt.sessions.any (fun x => x.num = session.toNat && x.isOpen && x.last.toNat + due ≤ s'.now.toNat) then
      s'.closeSessions (fun x => x.num = session.toNat)
    else s)

/-- The 24-byte event entries of an EVENT datagram (R678). -/
def eventBytes (l : List EventEntry) : List Byte := l.flatMap (fun e => leBytes 8 e.seq.toNat ++ e.bytes)

/-- The events not sent yet go to every open session whose mask includes their kind, 16 to a datagram (R677, R678). -/
def State.sendEvents (s : State) : State :=
  let evs := s.eventsOut
  let s := { s with eventsOut := [] }
  let one (s : State) (x : Session) : State :=
    let mine := evs.filter (fun e => bit x.mask.toNat e.kind)
    (List.range ((mine.length + 15) / 16)).foldl (fun s i => s.sendProtected x 0x12 (eventBytes ((mine.drop (16 * i)).take 16))) s
  (s.mgmt.sessions.filter Session.isOpen).foldl one s

/-- A datagram of any type that a channel's request slot holds. -/
def State.ringDatagram (s : State) (c : Fin 16) (b : List Byte) : State :=
  let p : SessionPath := .inband c
  match parseDatagram p b with
  | none => s
  | some d =>
    match d.ty with
    | 1 => s.init p d
    | 3 => s.finishSession p d
    | 5 => s.announce p d
    | 0x10 => s.request p d
    | 0x13 => (s.unprotect p d).1
    | 0x14 => (match s.unprotect p d with
        | (s, some (x, _)) => s.closeSessions (fun y => y.num = x.num)
        | (s, none) => s)
    | _ => s

/-- INBAND_REQUEST (R655, R679): the dictionary server takes the next request slot, up to the doorbell counter's value. -/
def execInbandRequest (c : Fin 16) (s : State) : Result :=
  .next (
    let x := s.channel c
    let r := Table.get {} s.mgmt.rings c.val
    if !x.on || s.objAt 0x0C 0x400 0 ≠ 5 || (s.pcounter (x.doorbell % 1024)).toNat = r.taken % 2 ^ 32 then s
    else
      let slot := x.base + 0x1000 + r.taken % x.entries * 0x800
      match s.coreRead x.asid slot 0x800 with
      | some (s, b) =>
        let s := s.modMgmt (fun m => { m with rings := Table.set {} m.rings c.val { r with taken := r.taken + 1 } })
        let s := s.ringDatagram c (sliceBytes b 8 (min (fieldAt b 0 2) 2040))
        s.coreWrite x.asid (x.base + 8) (leBytes 4 (r.taken + 1))
      | none => s)

/-- The bytes of a core's mailbox from a word on (R680). -/
def State.mailBytes (s : State) (hart word n : Nat) : List Byte :=
  (List.range n).flatMap (fun i => leBytes 8 (Table.get 0 s.mgmt.mailbox (512 * hart + word + i)).toNat)

/-- Words written into a core's mailbox. -/
def State.mailWrite (s : State) (hart word : Nat) (b : List Byte) : State :=
  let ws : List U64 := (List.range ((b.length + 7) / 8)).map (fun i => BitVec.ofNat 64 (fieldAt b (8 * i) 8))
  s.modMgmt (fun m => { m with mailbox := Table.setRange 0 m.mailbox (512 * hart + word) ws })

/-- A store to a core's doorbell (R655, R680, R681), ignored while it reads busy: the operations are performed with every right but
bring-up, and the doorbell then reads done. -/
def State.submitMailbox (s : State) (hart : Fin 192) : State :=
    if Table.get 0 s.mgmt.doorbell hart.val = 1 then s
    else
      let head := s.mailBytes hart.val 1 1
      let count := fieldAt head 4 1
      let area := fieldAt head 6 2
      let done (s : State) : State := s.modMgmt (fun m => { m with doorbell := Table.set 0 m.doorbell hart.val 2 })
      if count = 0 || 16 < count || 3584 < area then done s
      else
        let es := (List.range count).map (fun i => fieldAt (s.mailBytes hart.val 32 32) (16 * i) 16)
        let data := (s.mailBytes hart.val 64 448).take area
        let (s, a, d) := s.performEntries (.core hart) (bit (fieldAt head 5 1) 0) 3584 es false data
        let s := (s.mailWrite hart.val 32 a).mailWrite hart.val 64 d
        done (s.mailWrite hart.val 1 (answerHead head ++ leBytes 2 d.length))

/-- CORE_MAILBOX_SUBMIT. -/
def execCoreMailboxSubmit (hart : Fin 192) (s : State) : Result := .next (s.submitMailbox hart)

/-- PLCA_BEACON (R659, R697): a cycle begins; the port is up, and one frame that waits is sent. -/
def execPlcaBeacon (s : State) : Result :=
  .next (
    if s.objAt 0x0C 0x100 0 = 0 then s
    else
      let s := s.setObjAt 0x0C 0x100 0 2
      s.modMgmt (fun m => { m with sent := m.sent ++ m.waiting.take 1, waiting := m.waiting.drop 1 }))

/-- MGMT_PORT_LINK_CHANGE (R657, R697). -/
def execMgmtPortLinkChange (up : Bool) (s : State) : Result :=
  .next (if up then (if s.objAt 0x0C 0x100 0 = 0 then s.setObjAt 0x0C 0x100 0 1 else s) else s.setObjAt 0x0C 0x100 0 0)

/-- The module's MAC address (R657, R713). -/
def State.macAddress (s : State) : List Byte :=
  if s.bare then [0x02, 0, 0] ++ (leBytes 3 (crc32c (s.carrierBytes 0x20 16))).reverse else leBytes 6 (s.objAt 0 0x10 0)

/-- The module's link-local address: fe80::/64 with the modified EUI-64 identifier (R657). -/
def State.linkLocal (s : State) : List Byte :=
  let m := s.macAddress
  [0xFE, 0x80, 0, 0, 0, 0, 0, 0, m.getD 0 0 ^^^ 0x02, m.getD 1 0, m.getD 2 0, 0xFF, 0xFE, m.getD 3 0, m.getD 4 0, m.getD 5 0]

/-- NEIGHBOR_DISCOVERY (R657): a solicitation for the link-local address is answered; one from the unspecified address, a duplicate
address detection, is answered to all nodes. -/
def execNeighborDiscovery (target source : List Byte) (s : State) : Result :=
  .next (
    if target ≠ s.linkLocal || !s.portRuns SessionPath.mgmt then s
    else
      let dest := if source.all (· = 0) then [0xFF, 0x02] ++ List.replicate 13 0 ++ [0x01] else source
      s.transmit (.neighborAdvert dest target s.macAddress))

/-- ICMPV6_ECHO (R657). -/
def execIcmpv6Echo (source : List Byte) (ident seq : U16) (data : List Byte) (s : State) : Result :=
  .next (if s.portRuns SessionPath.mgmt then s.transmit (.echoReply source ident seq data) else s)

end Sys2Proof.Machine
end

