-- ==== Sys2Proof/Machine/Registers.lean ====
section
/-! DEFINITION. Machine/Registers.lean: REGISTER_WRITE: the control fields that software writes and that have no command of their own
(R105, R106, R173, R355, R356, R431, R478, R530, R578, R680), and the dictionary objects. -/

namespace Sys2Proof.Machine

/-- A write of a field of a queue control block (R105, R106). -/
def Queue.writeField (x : Queue) (f : QueueField) (v : Nat) : Queue :=
  let d := x.state = .detached
  match f with
  | .watchdog => { x with watchdog := BitVec.ofNat 32 v }
  | .stopAfter => { x with stopAfter := BitVec.ofNat 32 v }
  | .tref => { x with tref := BitVec.ofNat 64 v }
  | .sheafMask => if d then { x with sheafMask := BitVec.ofNat 32 v } else x
  | .unit => if d then { x with unit := BitVec.ofNat 12 v } else x
  | .class => if d then { x with cls := BitVec.ofNat 4 v } else x
  | .asid => if d then { x with asid := BitVec.ofNat 12 v } else x
  | .submitFlags => { x with submitOvf := x.submitOvf && !bit v 0, submitBad := x.submitBad && !bit v 1 }

/-- A write of a field of a queue control block, with what follows: waits that have held stay latched whatever tref becomes, those that hold
under the new tref are latched, and a stop_after written at the value of issued stops issue (R105, R125). -/
def Dev.writeQueueField (s : Dev) (q : QueueId) (f : QueueField) (v : Nat) : Dev :=
  let s := ((s.latch q).modQueue q (fun x => x.writeField f v)).latch q
  let x := s.queue q
  if f = .stopAfter && x.state = .running && x.stopAfter ≠ 0 && x.stopAfter = x.issued then s.cease q 0x10 false else s

/-- A write of a field of a relay control block (R355, R356). -/
def Relay.writeField (x : Relay) (f : RelayField) (v : Nat) : Relay :=
  match f with
  | .asid => if x.enable then x else { x with asid := BitVec.ofNat 12 v }
  | .producer => if x.enable then x else { x with producer := BitVec.ofNat 12 v }
  | .consumer => if x.enable then x else { x with consumer := BitVec.ofNat 12 v }
  | .errFlags => { x with errUnder := x.errUnder && !bit v 0, errOver := x.errOver && !bit v 1, errOwner := x.errOwner && !bit v 2 }

/-- A write of one 8-byte word of a relay entry (R354). -/
def Relay.writeEntry (x : Relay) (i word v : Nat) : Relay :=
  let e := Table.get 0 x.entries i
  let old := Sys2Proof.bits e (64 * word + 63) (64 * word)
  { x with entries := Table.set 0 x.entries i (e - old * 2 ^ (64 * word) + v * 2 ^ (64 * word)) }

/-- A write of the command queue's control register (R431; its bits PRESUMED, log entry 24): enable and interrupt enable are written,
error bits are cleared by ones, and enabling starts the queue at its head. -/
def Mmu.writeCqcsr (x : Mmu) (v : Nat) : Mmu :=
  let old := x.cqcsr.toNat
  let err := (List.range 4).foldl (fun n i => n + b2n (bit old (8 + i) && !bit v (8 + i)) * 2 ^ (8 + i)) 0
  let starts := bit v 0 && !bit old 0
  { x with
    cqcsr := BitVec.ofNat 32 (v % 4 + (if starts then 0 else err) + b2n (bit v 0) * 2 ^ 16), cqh := if starts then 0 else x.cqh }

/-- A write of a field of a system MMU's registers (R431, R478). -/
def Mmu.writeField (x : Mmu) (f : MmuField) (v : Nat) : Mmu :=
  match f with
  | .fqHead => { x with fqHead := BitVec.ofNat 32 v }
  | .prResp => x
  | .respTimeout => if 100 ≤ v ∧ v ≤ 60000000 then { x with respTimeoutUs := BitVec.ofNat 32 v } else x
  | .fqIrq => { x with fqIrq := bit v 0 }
  | .fqEn => { x with fqEn := bit v 0 }
  | .respErr => { x with respErr := x.respErr && !bit v 0 }
  | .fctl => { x with fctl := BitVec.ofNat 32 v }
  | .cqb => { x with cqb := BitVec.ofNat 64 v }
  | .cqh => x
  | .cqt => { x with cqt := BitVec.ofNat 32 v }
  | .cqcsr => x.writeCqcsr v
  | .ipsr => { x with ipsr := x.ipsr &&& ~~~(BitVec.ofNat 32 v) }

/-- A write of a field of a system MMU's registers, with what follows: its command queue is taken, and clearing fq_en fails what waits for
the fault queue (R479). -/
def Dev.writeMmuField (s : Dev) (m : MmuId) (f : MmuField) (v : Nat) : Dev :=
  let s := (s.modMmu m (fun x => x.writeField f v)).cqTake m
  if f = .fqEn && !bit v 0 then s.queueOff m else s

/-- A write of a dictionary object that has no command of its own, under the object's own rules (R683, R684). -/
def State.writePlainObject (s : State) (addr v : Nat) (data : List Byte) : State :=
  match lookupRow addr with
  | none => s
  | some r => (s.performWrite (.core 0) true r addr v data).1

/-- A write of a control field or dictionary object; a core's access is of Bus.lean. -/
def State.writeRegister (s : State) (target : RegTarget) (v : U64) : State :=
  match target with
  | .queue q f => s.lift (fun d => d.writeQueueField q f v.toNat)
  | .journalReadPtr => s.modJournal (fun j => { j with compRead := BitVec.ofNat 32 v.toNat })
  | .journalIrqEnable => s.modJournal (fun j => { j with irqEnable := bit v.toNat 0 })
  | .journalReleaseErr => s.modJournal (fun j => { j with releaseErr := j.releaseErr && !bit v.toNat 0 })
  | .relay r f => s.modRelay r (fun x => x.writeField f v.toNat)
  | .relayEntry r i word => s.modRelay r (fun x => x.writeEntry i.val word.val v.toNat)
  | .mmu m .prResp => s.prRespStore m v
  | .mmu m f => s.lift (fun d => d.writeMmuField m f v.toNat)
  | .realmArg i =>
    s.modSvc (fun x => match i with
      | 0 => { x with arg0 := v }
      | 1 => { x with arg1 := v }
      | 2 => { x with arg2 := v })
  | .realmSelect => s.modSvc (fun x => { x with realm := v.toNat % 64 })
  | .windowEntry w high => s.writeWindow w.val high v.toNat
  | .mailbox hart word =>
    if word = 0 then s.submitMailbox hart
    else s.modMgmt (fun m => { m with mailbox := Table.set 0 m.mailbox (512 * hart.val + word.val) v })
  | .object addr => s.writePlainObject addr.toNat v.toNat []
  | .objectBytes addr off data => s.writePlainObject addr.toNat off.toNat data
  | .bus .. | .coreStore .. | .debugRead .. => s

end Sys2Proof.Machine
end

