-- ==== Sys2Proof/Machine/Bus.lean ====
section
/-! DEFINITION. Machine/Bus.lean: the address map (R43), what a core's load, store or AMO at a physical address reaches and does (R44, R46,
R104, R139, R181, R354, R431, R478, R530, R578, R680, R746, R748), a core's store to a sealed region (R167, R476), and REGISTER_WRITE. -/

namespace Sys2Proof.Machine

/-- What a physical location holds (R43): DRAM, a remote window, an item of the package region or of a die's control space, or nothing. -/
inductive Place where
  | dram
  | window
  | time
  | flag (d : Die) (i : Fin 512)
  | counter (c : CounterRef)
  | journalEntry (i : SlotId)
  | journalRing (i : Fin 4096)
  | journalBlock
  | relayBlock (r : Fin 64)
  | relayEntry (r : Fin 64) (i : Fin 256)
  | mailbox (hart : Fin 192) (word : Fin 512)
  | queueBlock (q : QueueId)
  | mmuRegisters (m : MmuId)
  | faultBlock (m : MmuId)
  | bindsWord (asid : Asid) (region : Fin 256)
  | realmBlock
  | windowEntry (w : Fin 1024)
  | reserved
  deriving DecidableEq, Repr

/-- The lowest-numbered queue of a die and the number of its queues (R102, R104). -/
def queuesOf (d : Nat) : Nat × Nat :=
  if d < 8 then (192 * d, 192) else if d < 14 then (0, 0) else if d < 18 then (1792 + 64 * (d - 14), 64) else (1536 + 128 * (d - 18), 128)

/-- The package time base, the flags and the counters, by offset in their region (R139). -/
def timePlace (o : Nat) : Place × Nat :=
  let d := (o - 0x1000000) / 0x10000
  let r := o % 0x10000
  let die : Die := ⟨d % 20, Nat.mod_lt _ (by decide)⟩
  if o < 8 then (.time, o)
  else if 0x1000000 ≤ o && d < 20 && r < 0x1000 then (.flag die ⟨r / 8 % 512, Nat.mod_lt _ (by decide)⟩, r % 8)
  else if 0x1000000 ≤ o && d < 20 && r < 0x1400 then (.counter (.die die ⟨(r - 0x1000) / 8 % 128, Nat.mod_lt _ (by decide)⟩), r % 8)
  else if 0x2000000 ≤ o && o < 0x2002000 then (.counter (.package ⟨(o - 0x2000000) / 8 % 1024, Nat.mod_lt _ (by decide)⟩), o % 8)
  else (.reserved, 0)

/-- The completion journal, by offset in its region: entries, ring and control block (R173, R180, R181). -/
def journalPlace (o : Nat) : Place × Nat :=
  if o < 0x40000 then (.journalEntry ⟨o / 64 % 4096, Nat.mod_lt _ (by decide)⟩, o % 64)
  else if o < 0x48000 then (.journalRing ⟨(o - 0x40000) / 8 % 4096, Nat.mod_lt _ (by decide)⟩, o % 8)
  else if 0x50000 ≤ o && o < 0x50040 then (.journalBlock, o % 64)
  else (.reserved, 0)

/-- The relay queues, by offset in their region: control blocks and entries (R354). -/
def relayPlace (o : Nat) : Place × Nat :=
  let r (n : Nat) : Fin 64 := ⟨n % 64, Nat.mod_lt _ (by decide)⟩
  if o < 0x1000 then (.relayBlock (r (o / 64)), o % 64)
  else if 0x10000 ≤ o && o < 0x110000 then
    (.relayEntry (r ((o - 0x10000) / 0x4000)) ⟨(o - 0x10000) / 64 % 256, Nat.mod_lt _ (by decide)⟩, o % 64)
  else (.reserved, 0)

/-- A die's control space, by offset: the queue control blocks of its queues (R104), a processor die's system MMU, fault-service control block
and binds words (R431, R478, R748), SV0's realm control block and window table (R530, R578). -/
def controlPlace (d o : Nat) : Place × Nat :=
  let (q, n) := queuesOf d
  let m : MmuId := ⟨(d - 8) % 2, Nat.mod_lt _ (by decide)⟩
  if 0x100000 ≤ o && o < 0x100000 + 64 * n then (.queueBlock ⟨(q + (o - 0x100000) / 64) % 2048, Nat.mod_lt _ (by decide)⟩, o % 64)
  else if d = 8 || d = 9 then
    (if o < 0x1000 then (.mmuRegisters m, o)
      else if 0x200000 ≤ o && o < 0x200040 then (.faultBlock m, o % 64)
      else if 0x400000 ≤ o && o < 0xC00000 then
        (.bindsWord (BitVec.ofNat 12 ((o - 0x400000) / 2048)) ⟨(o - 0x400000) / 8 % 256, Nat.mod_lt _ (by decide)⟩, o % 8)
      else (.reserved, 0))
  else if d = 18 then
    (if 0x300000 ≤ o && o < 0x300040 then (.realmBlock, o % 64)
      else if 0x400000 ≤ o && o < 0x404000 then (.windowEntry ⟨(o - 0x400000) / 16 % 1024, Nat.mod_lt _ (by decide)⟩, o % 16)
      else (.reserved, 0))
  else (.reserved, 0)

/-- The location space of bits [41:0] (R43): what stands at a location, and the offset in it. A location of an assigned range at which no
chapter places anything is taken as reserved (DESIGN CHOICE, log entry 87). -/
def placeAt (a : Nat) : Place × Nat :=
  if a < 2 ^ 41 then (.dram, a)
  else if a < 0x30000000000 then (.window, a - 2 ^ 41)
  else if a < 0x3C000000000 then (.reserved, 0)
  else if a < 0x3C040000000 then timePlace (a - 0x3C000000000)
  else if a < 0x3C080000000 then journalPlace (a - 0x3C040000000)
  else if a < 0x3C0C0000000 then relayPlace (a - 0x3C080000000)
  else if a < 0x3C0C00C0000 then
    (.mailbox ⟨(a - 0x3C0C0000000) / 0x1000 % 192, Nat.mod_lt _ (by decide)⟩ ⟨a % 0x1000 / 8 % 512, Nat.mod_lt _ (by decide)⟩, a % 8)
  else if a < 0x3E000000000 then (.reserved, 0)
  else if a < 0x3F400000000 then controlPlace ((a - 0x3E000000000) / 2 ^ 32) (a % 2 ^ 32)
  else (.reserved, 0)

/-- What stands at a place, whole, as a load sees it: the layouts of the chapters' tables. -/
def State.placeValue (s : State) : Place → Nat
  | .time => s.now.toNat
  | .flag d i => b2n (s.flag d.val i.val)
  | .counter c => (s.counterOf c).toNat
  | .journalEntry i => ((Table.get none s.cmd.journal.entries i.val).map Entry.bits).getD 0
  | .journalRing i => ((Table.get none s.cmd.journal.ring i.val).map CompRecord.bits).getD 0
  | .journalBlock => s.cmd.journal.block
  | .relayBlock r => (s.relay r).bits
  | .relayEntry r i => Table.get 0 (s.relay r).entries i.val
  | .mailbox h w => if w = 0 then Table.get 0 s.mgmt.doorbell h.val else (Table.get 0 s.mgmt.mailbox (512 * h.val + w.val)).toNat
  | .queueBlock q => (s.queue q).block
  | .mmuRegisters m => (s.mmu m).registers
  | .faultBlock m => (s.mmu m).block s.xl.ctxBase
  | .bindsWord a r => let n := s.binds a.toNat r.val; n + b2n (0 < n) * 2 ^ 16
  | .realmBlock => s.svc.block
  | .windowEntry w => (s.window w.val).block
  | .dram | .window | .reserved => 0

/-- A field of a place that a store reaches: its bits, whether the bits of it that the store leaves out keep their value (a field that is read
and written; of one written only, or cleared by ones, they are taken as zero: DESIGN CHOICE, log entry 87), and what its write does. -/
structure BusField where
  hi : Nat
  lo : Nat
  keeps : Bool
  act : Nat → State → Result

/-- A field that REGISTER_WRITE writes under a target of its own. -/
def BusField.reg (hi lo : Nat) (keeps : Bool) (t : RegTarget) : BusField :=
  ⟨hi, lo, keeps, fun v s => .next (s.writeRegister t (BitVec.ofNat 64 v))⟩

/-- The commands of a queue's ctl field (R108): another value is ignored. -/
def ctlCommand (q : QueueId) (v : Nat) (s : State) : Result :=
  match v with
  | 1 => execAttach q s
  | 2 => execStart q s
  | 3 => execStop q s
  | 4 => execAbort q s
  | 5 => execDetach q s
  | _ => .next s

/-- The commands of the realm control block's cmd field (R531): another value is ignored. -/
def realmCommandOf (v : Nat) (s : State) : Result :=
  match v with
  | 1 => execRealmCreate s
  | 2 => execRealmQuote s
  | 3 => execRealmLoadKey s
  | 4 => execRealmDropKey s
  | 5 => execRealmDestroy s
  | 6 => execRealmScrub s
  | _ => .next s

/-- The fields of a place that a store reaches, in the order in which one store writes them (DESIGN CHOICE, log entry 87): commands last. -/
def fieldsOf : Place → List BusField
  | .journalBlock => [
      .reg 192 192 true .journalIrqEnable, .reg 193 193 false .journalReleaseErr, .reg 63 32 true .journalReadPtr,
      ⟨75, 64, false, fun v s => execJournalRelease ⟨v % 4096, Nat.mod_lt _ (by decide)⟩ s⟩]
  | .relayBlock r => [
      .reg 11 0 true (.relay r .asid), .reg 59 48 true (.relay r .producer), .reg 83 72 true (.relay r .consumer),
      .reg 99 97 false (.relay r .errFlags),
      ⟨96, 96, true, fun v s => if v = 1 then execRelayEnable r s else execRelayDisable r s⟩,
      ⟨351, 320, true, fun v s => execRelayCorePutsWrite r (BitVec.ofNat 32 v) s⟩,
      ⟨383, 352, true, fun v s => execRelayCoreTakesWrite r (BitVec.ofNat 32 v) s⟩]
  | .relayEntry r i => (List.finRange 8).map (fun w => .reg (64 * w.val + 63) (64 * w.val) true (.relayEntry r i w))
  | .mailbox h w => [.reg 63 0 true (.mailbox h w)]
  | .queueBlock q => [
      .reg 415 384 true (.queue q .watchdog), .reg 351 320 true (.queue q .stopAfter), .reg 319 256 true (.queue q .tref),
      .reg 221 220 false (.queue q .submitFlags), .reg 191 160 true (.queue q .sheafMask), .reg 155 144 true (.queue q .unit),
      .reg 143 140 true (.queue q .class), .reg 139 128 true (.queue q .asid),
      ⟨127, 96, true, fun v s => execHeadWrite q (BitVec.ofNat 32 v) s⟩,
      ⟨239, 224, false, fun v s => execSubmitPush q (BitVec.ofNat 16 v) s⟩,
      ⟨423, 416, false, ctlCommand q⟩]
  | .mmuRegisters m => [
      .reg (8 * 0x08 + 31) (8 * 0x08) true (.mmu m .fctl), .reg (8 * 0x18 + 63) (8 * 0x18) true (.mmu m .cqb),
      .reg (8 * 0x20 + 31) (8 * 0x20) true (.mmu m .cqh), .reg (8 * 0x24 + 31) (8 * 0x24) true (.mmu m .cqt),
      .reg (8 * 0x54 + 31) (8 * 0x54) false (.mmu m .ipsr), .reg (8 * 0x48 + 31) (8 * 0x48) false (.mmu m .cqcsr)]
  | .faultBlock m => [
      ⟨511, 448, true, fun v s => execCtxBaseWrite m (BitVec.ofNat 64 v) s⟩,
      ⟨447, 384, true, fun v s => execFqBaseWrite m (BitVec.ofNat 64 v) s⟩,
      .reg 351 320 true (.mmu m .fqHead), .reg 191 160 true (.mmu m .respTimeout), .reg 3 3 true (.mmu m .fqIrq),
      .reg 2 2 true (.mmu m .fqEn), .reg 1 1 false (.mmu m .respErr), .reg 255 192 false (.mmu m .prResp)]
  | .realmBlock => [
      .reg 511 448 true (.realmArg 0), .reg 447 384 true (.realmArg 1), .reg 383 320 true (.realmArg 2), .reg 101 96 true .realmSelect,
      ⟨119, 112, false, realmCommandOf⟩]
  | .windowEntry w => [.reg 127 64 true (.windowEntry w true), .reg 63 0 true (.windowEntry w false)]
  | .dram | .window | .time | .flag .. | .counter .. | .journalEntry .. | .journalRing .. | .bindsWord .. | .reserved => []

/-- Each of a list of writes in turn, to the first that does not answer a next state. -/
def inTurn (l : List (State → Result)) (s : State) : Result :=
  l.foldl (fun r f => match r with
    | .next s => f s
    | r => r) (.next s)

/-- A store of n bytes at an offset of a place: the fields that it meets are written, and every other bit of the place keeps its value. -/
def State.storePlace (s : State) (p : Place) (o n v : Nat) : Result :=
  let old := s.placeValue p
  let only := v % 256 ^ n * 2 ^ (8 * o)
  let merged := old - old / 2 ^ (8 * o) % 256 ^ n * 2 ^ (8 * o) + only
  let met := (fieldsOf p).filter (fun f => 8 * o ≤ f.hi && f.lo < 8 * (o + n))
  inTurn (met.map (fun f => f.act (bits (if f.keeps then merged else only) f.hi f.lo))) s

/-- What an AMO of n bytes makes of the value it finds (R746 for a flag's word; DESIGN CHOICE for other registers, log entry 87). -/
def amoValue (op : CoreOp) (n old v : Nat) : Nat :=
  let sg (x : Nat) : Int := signedOf (8 * n) x
  match op with
  | .amoAdd => (old + v) % 256 ^ n
  | .amoAnd => Nat.land old v
  | .amoOr => Nat.lor old v
  | .amoXor => Nat.xor old v
  | .amoMin => if sg v < sg old then v else old
  | .amoMax => if sg old < sg v then v else old
  | .amoMinu => min v old
  | .amoMaxu => max v old
  | .load | .store | .amoSwap | .lr | .sc => v

/-- An access error, as the core that made the access takes it (R44, R746). -/
def State.busError (s : State) : State := { s with reply := some .accessError }

/-- What a load, or an AMO, returns to its core. -/
def answering (r : Result) (v : Nat) : Result :=
  match r with
  | .next s => .next { s with reply := some (.value (BitVec.ofNat 64 v)) }
  | r => r

/-- A core's access of n bytes at an offset of a place of registers, within one 8-byte word. -/
def State.placeAccess (s : State) (p : Place) (o : Nat) (op : CoreOp) (n : Nat) (v : U64) : Result :=
  let old := s.placeValue p / 2 ^ (8 * o) % 256 ^ n
  let word : CoreAccess := { op := op, off := ⟨o % 8, Nat.mod_lt _ (by decide)⟩, size := n, value := v }
  match p, op with
  | .flag d i, _ => execFlagStore d i word s
  | .counter c, .amoAdd => execCounterAmoadd c word s
  | .counter c, _ => execCounterStore c word s
  | .time, .lr | .time, .sc => .next s.busError
  | .time, .store => .next { s with reply := some (.value 0) }
  | .time, _ => .next { s with reply := some (.value (BitVec.ofNat 64 old)) }
  | _, .load => .next { s with reply := some (.value (BitVec.ofNat 64 old)) }
  | _, .store => answering (s.storePlace p o n v.toNat) 0
  | _, .lr | _, .sc => .next s.busError
  | _, _ => answering (s.storePlace p o n (amoValue op n old (v.toNat % 256 ^ n))) old

/-- The access of a window that a core's load, store or AMO is (R322, R580): none where the operations of R322 have none of its kind and
width (DESIGN CHOICE, log entry 87). -/
def windowOpOf (op : CoreOp) (n : Nat) (v : U64) : Option WindowOp :=
  let word (c : Nat) : Option WindowOp := if n = 4 then some (.atomic ⟨c % 16, Nat.mod_lt _ (by decide)⟩ v 0) else none
  let code (c : Nat) : Option WindowOp :=
    if n = 4 || n = 8 then some (.atomic ⟨(c + if n = 8 then 1 else 0) % 16, Nat.mod_lt _ (by decide)⟩ v 0) else none
  match op with
  | .load => some (.read n)
  | .store => some (.write (leBytes n v.toNat))
  | .amoAdd => code 0x0
  | .amoSwap => code 0xC
  | .amoMin => word 0x3
  | .amoMax => word 0x4
  | .amoMinu => word 0x5
  | .amoMaxu => word 0x6
  | .amoAnd => word 0x9
  | .amoOr => word 0xA
  | .amoXor => word 0xB
  | .lr | .sc => none

/-- Whether a core's access at a DRAM address takes an access fault: realm memory, which no core's request reaches since each carries the
realm flag clear (R527, R535), and key bits without the flag (R46). -/
def dramRefuses (pa : Nat) (realm : Bool) : Bool := realm || pa / 2 ^ 42 % 64 ≠ 0

/-- A core's access at a physical address with a realm flag (R43, R44, R46, R746). A location of DRAM is refused or not; an access that is not
is one of its core cache (LOCAL_READ and the LOCAL writes), and changes nothing here. -/
def busAccess (op : CoreOp) (pa : U64) (realm : Bool) (n : Nat) (v : U64) (s : State) : Result :=
  let a := pa.toNat % 2 ^ 42
  let (p, o) := placeAt a
  if n = 0 || 2 ^ 48 ≤ pa.toNat || p = .reserved || 8 < a % 8 + n || (p ≠ .dram && 2 ^ 42 ≤ pa.toNat) then .next s.busError
  else match p with
    | .dram => .next (if dramRefuses pa.toNat realm then s.busError else s)
    | .window => (match windowOpOf op n v with
      | some w => execRemoteWindowAccess .core (BitVec.ofNat 64 a) w s
      | none => .next s.busError)
    | p => s.placeAccess p o op n v

/-- Whether a core's store of n bytes is denied by a sealed region: its satp is not Bare and selects the root page table of an address space
that has a region sealed which the bytes meet (R167, R476). -/
def Dev.sealDenies (s : Dev) (satp va : U64) (n : Nat) : Bool :=
  bits satp.toNat 63 60 ≠ 0 && s.rootSealed (bits satp.toNat 43 0 * 4096) va.toNat n

/-- A debug message's read (R535, R544): zeros, which are counted, for a realm-tagged line and for a key store; else the word of the line. -/
def State.debugRead (s : State) (line : Option LineTag) (word : Fin 16) : State :=
  let zeros : State := { s.bump 6 0x303 0 1 with reply := some (.value 0) }
  match line with
  | none => zeros
  | some t =>
    if !okLine t then s.busError
    else if tagRealm t then zeros
    else { s with reply := some (.value (BitVec.ofNat 64 (fieldAt (s.coherent t).1 (8 * word.val) 8))) }

/-- REGISTER_WRITE. -/
def execRegisterWrite (target : RegTarget) (v : U64) (s : State) : Result :=
  match target with
  | .bus op pa realm n => busAccess op pa realm n.val v s
  | .coreStore satp va n => .next (if s.sealDenies satp va n.val then s.busError else s)
  | .debugRead line word => .next (s.debugRead line word)
  | t => .next (s.writeRegister t v)

end Sys2Proof.Machine
end

