-- ==== Sys2Proof/Machine/Operations.lean ====
section
/-! DEFINITION. Machine/Operations.lean: how an issued operation begins, and how it ends (R129 to R138, R161, R174 to R179, R335). -/

namespace Sys2Proof.Machine

/-- Whether an operation has begun and still reads what its begin takes (R161, R335): no body yet, nothing against it. -/
def Operation.reading (o : Operation) : Bool := o.goes && o.body = .none && o.written = []

/-- OPERATION_BEGIN (R133, R161, R335, R359): the operations of a queue begin in issue order, each by the rules of its class, mill and chain
operations when a group has accepted them; one that has begun and waits for a descriptor goes on reading. -/
def execOperationBegin (slot : SlotId) (s : State) : Result :=
  s.run fun s => (match s.op slot with
    | none => s
    | some o =>
      let due := (s.earlier o.queue slot).all (fun x => x.begun || x.status ≠ 0)
      if o.status ≠ 0 || (o.begun && !o.reading) || !due then s
      else if millOpcode (iOpcode o.word) then s.beginMill o
      else
        let begun (f : Dev → Operation → Dev) : Dev := let s := s.beginOp slot id; match s.op slot with
          | some o => f s o
          | none => s
        match iOpcode o.word with
        | 0x30 => begun Dev.beginLaunch
        | 0x40 => begun Dev.beginPrefetch
        | 0x41 => begun Dev.beginCopy
        | 0x42 | 0x43 => s.performRelay o
        | 0x70 => begun Dev.beginSnapshot
        | 0x50 | 0x51 | 0x52 | 0x53 | 0x54 | 0x55 => s.beginService o
        | _ => begun Dev.beginColl)

/-- Whether an operation is failed or ended early, so that it begins no further unit. -/
def Operation.cut (o : Operation) : Bool := o.failed.isSome || o.aborting.isSome

/-- Whether every output unit of an operation is written. -/
def Operation.whole (o : Operation) : Bool :=
  match o.body with
  | .none => o.written ≠ []
  | .mill x => x.units ≤ o.written.length
  | .launch l => l.stooks ≤ o.written.length
  | .stream u => u.units ≤ o.written.length
  | .service v => v.finished
  | .coll c => c.finished

/-- Whether an operation has done everything it will do (R138, R212, R249, R281, R284). -/
def Dev.opDone (s : Dev) (o : Operation) : Bool :=
  if o.status ≠ 0 then true
  else if !o.begun then false
  else match o.body with
    | .mill _ => s.millsDone o && s.cmd.mills.toList.all (fun m => !m.holdsRows o.slot)
    | .launch l => !s.shf.stooks.any (fun k => k.slot = o.slot) && (o.cut || l.stooks ≤ l.nextOrdinal)
    | _ => (o.cut && !o.midUnit) || o.whole

/-- The terminal status and reason of an operation (R138, R175, R176, R178, R216, R284, R535). -/
def Operation.terminal (o : Operation) : Nat × Nat :=
  let early (st : Nat) (r : Nat) : Nat × Nat := (if o.written = [] then 5 else st, r)
  if o.status ≠ 0 then (o.status, o.reason)
  else match o.failed with
    | some (st, r) => if r = 1 then early 2 r else if r = 0xD then early 3 r else (st, r)
    | none => match o.aborting with
      | some r => if o.whole then (1, 0) else early 2 r
      | none => (1, 0)

/-- What an operation holds beside its journal slot is given back (R165, R331, R334, R488, R495). -/
def Dev.releaseOp (s : Dev) (o : Operation) : Dev :=
  let s := match o.body with
    | .launch l => s.unbind (s.queue o.queue).asid.toNat l.region
    | _ => s
  let s := (s.forgetOp o.slot).forgetEntries o
  let s := s.modFab (fun f => { f with remoteData := Table.set none f.remoteData o.slot.val none })
  let s := { s with cmd := { s.cmd with mills := s.cmd.mills.map (fun m => if m.op = some o.slot then { m with op := none } else m) } }
  if millOpcode (iOpcode o.word) then s.feed (homeDie o.queue).val
  else match o.body with
    | .service _ =>
      let code := serviceEngine (iOpcode o.word)
      if (s.engine (engineIdx (homeDie o.queue) code)).channel = some (s.queue o.queue).channel then s.serveNext (homeDie o.queue) code else s
    | _ => s

/-- OPERATION_END (R129 to R138, R174 to R180): the operations of a queue end in issue order. -/
def execOperationEnd (slot : SlotId) (s : State) : Result :=
  s.run fun s => (match s.op slot with
    | none => s
    | some o =>
      if s.earlier o.queue slot ≠ [] || !s.opDone o then s
      else
        let (st, r) := o.terminal
        (s.endOperation o st r).releaseOp o)

end Sys2Proof.Machine
end

