-- ==== Sys2Proof/Machine/Sheaf.lean ====
section
/-! DEFINITION. Machine/Sheaf.lean: the meanings of the sheaf instructions, of line responses and of the barrier and SSYNC deadlines
(R278, R281, R290 to R325). -/

namespace Sys2Proof.Machine

/-- An integer operation on every performing stalk (R292). -/
def Dev.sheafInt (s : Dev) (g : SheafRef) (o : Nat) : Dev :=
  s.sheafStep g (0x10 + o) (fun s x =>
    let k := if o ≠ 0xF && bit (fMod x.w) 0 then 2 else 1
    let s' := s.writeLanes x k (fun i =>
      let a := if o = 0xE && fImm x.w then immOf x.w k else x.a i k
      intOp o (32 * k) (bit (fMod x.w) 1) a (x.b i k) (x.c i k) (Config.freeValue (s.fresh + i)))
    { s' with fresh := s'.fresh + 64 })

/-- An FP32 or FP64 operation on every performing stalk (R296). -/
def Dev.sheafFloat (s : Dev) (g : SheafRef) (wide : Bool) (o : Nat) : Dev :=
  let k := if wide then 2 else 1
  s.sheafStep g ((if wide then 0x30 else 0x20) + o) (fun s x =>
    s.writeLanes x k (fun i => floatOp x.l.ieee (if wide then .fp64 else .fp32) o (fMod x.w) (x.a i k) (x.b i k) (x.c i k)))

/-- A function of R299 on every performing stalk. -/
def Dev.sheafFunc (s : Dev) (g : SheafRef) (o : Nat) : Dev :=
  s.sheafStep g (0x50 + o) (fun s x => s.writeLanes x 1 (fun i => funcOp x.l.ieee o (x.a i 1)))

/-- A jump of the performing stalks of a group. -/
def Dev.sheafJump (s : Dev) (g : SheafRef) (opcode : Nat) (f : Dev → Issue → Dev) (dest : Issue → Nat → Int) : Dev :=
  s.sheafIssue g opcode (fun _ _ => true) (fun s x => (f s x).goTo x (x.targets (dest x)))

/-- The distinct lines of a list of requests (R318). -/
def linesOf (l : List LaneReq) : List Nat := (l.map (fun r => r.va / 128)).eraseDups

/-- The line requests a processor has outstanding (R319). -/
def Dev.procLines (s : Dev) (p : ProcId) : Nat :=
  ((s.shf.stooks.filter (fun k => k.proc = p)).flatMap (fun k => k.sheaves.flatMap (fun h => h.accesses.map (fun a => a.lines.length)))).foldl (· + ·) 0

/-- A memory instruction: an access of n bytes by each request; a misaligned one ends the stook (R317 to R319). -/
def Dev.sheafAccess (s : Dev) (g : SheafRef) (opcode : Nat) (n : Issue → Nat) (reqs : Issue → List LaneReq) : Dev :=
  s.sheafIssue g opcode (fun s x => s.procLines x.st.proc + (linesOf (reqs x)).length ≤ 256) (fun s x =>
    match (reqs x).find? (fun r => r.va % n x ≠ 0) with
    | some r => s.faultStook x.st 4 r.va
    | none =>
      let s := if (reqs x).isEmpty then s
        else (s.modSheaf x.st.id x.k (fun h => { h with accesses := h.accesses ++ [⟨x.w, x.group, reqs x, linesOf (reqs x)⟩] })).setWait x.st.id x.k x.group .memory
      s.goTo x (x.targets (fun _ => (x.pc : Int) + 1)))

/-- The 64-bit address of LD, ST and ULOAD: the pair a and the sign-extended 32-bit b (R292; log entry 22). -/
def memAddr (a b : Nat) : Nat := codeOf 64 ((a : Int) + signedOf 32 b)

/-- A value loaded from n bytes, sign-extended to a word where asked (R292). -/
def loadValue (d : List Byte) (sz : Nat) (sext : Bool) : Nat := if sext && sz < 2 then codeOf 32 (signedOf (8 * 2 ^ sz) (leNat d)) else leNat d

/-- Stook-memory bytes. -/
def Stook.smemRead (x : Stook) (off n : Nat) : List Byte := Table.getRange 0 x.smem off n

/-- A stook-memory instruction: offsets checked for every performing stalk before any is performed (R317). -/
def Dev.sheafLocal (s : Dev) (g : SheafRef) (opcode : Nat) (n : Issue → Nat) (off : Issue → Nat → Nat) (f : Dev → Issue → Dev) : Dev :=
  s.sheafStep g opcode (fun s x =>
    match x.act.find? (fun i => off x i % n x ≠ 0 || x.l.smem * 1024 < off x i + n x) with
    | some i => s.faultStook x.st 4 (0x8000000000000000 + off x i)
    | none => f s x)

/-- Every performing stalk's effect on stook memory and its own destination, in ascending order. -/
def Dev.localEach (s : Dev) (x : Issue) (f : Stook → Nat → Stook) : Dev :=
  s.modStook x.st.id (fun st => x.act.foldl f st)

/-- A lane of a sheaf of a stook changed. -/
def Stook.modLane (x : Stook) (k i : Nat) (f : Stalk → Stalk) : Stook :=
  { x with sheaves := modAt x.sheaves k (fun h => { h with stalks := modAt h.stalks i f }) }

/-- The requests of a line answered for a load: each stalk's destination written (R319). -/
def Dev.loadLine (s : Dev) (st : Stook) (k : Nat) (w line : Nat) (rs : List LaneReq) (d : List Byte) : Dev :=
  let sz := bits (fMod w) 2 0
  rs.foldl (fun s r =>
    let v := loadValue ((d.drop (r.va - 128 * line)).take (2 ^ sz)) sz (fOpcode w = 0x80 && bit (fMod w) 3)
    if fOpcode w = 0x72 then s.modSheaf st.id k (fun h => h.writeU (fDst w) (sizeWords sz) v)
    else s.modStook st.id (fun x => x.modLane k r.lane (fun y => y.write (fDst w) (sizeWords sz) v))) s

/-- Stores of a line in ascending stalk order, so the highest supplies a byte several store to (R316). None: the L2 cannot take it now. -/
def Dev.storeLine (s : Dev) (p : Port) (w : Nat) (x : Piece) (line : Nat) (rs : List LaneReq) : Option Dev :=
  s.writeLines p.die p.stream (bits (fMod w) 5 4) (rs.flatMap (fun r =>
    lineWrites (x.pa + (r.va - 128 * line)) (leBytes (2 ^ bits (fMod w) 2 0) r.data) x.realm []))

/-- Atomics of a line, one after another in ascending stalk order (R323). None: the L2 cannot take the line now. -/
def Dev.atomicLine (s : Dev) (p : Port) (ieee : Bool) (st : Stook) (k w : Nat) (x : Piece) (line : Nat) : List LaneReq → Option Dev
  | [] => some s
  | r :: rs =>
    let o := bits (fMod w) 3 0
    let n := atomicBytes o
    let pa := x.pa + (r.va - 128 * line)
    let old := leNat (s.physRead pa n x.realm).1
    match s.writeLines p.die p.stream 0 (lineWrites pa (leBytes n (atomicOp ieee o old r.data r.cmp)) x.realm []) with
    | some s => (s.modStook st.id (fun y => y.modLane k r.lane (fun z => z.write (fDst w) (n / 4) old))).atomicLine p ieee st k w x line rs
    | none => none

/-- A line request of an access has been answered: with the last, its group goes on (R319). -/
def Dev.lineDone (s : Dev) (st : Stook) (k : Nat) (a : SheafAccess) (line : Nat) : Dev :=
  let left := a.lines.filter (· ≠ line)
  if left.isEmpty then
    (s.modSheaf st.id k (fun h => { h with accesses := removeFirst (· == a) h.accesses })).setWait st.id k a.group .ready
  else s.modSheaf st.id k (fun h => { h with accesses := h.accesses.map (fun b => if b == a then { a with lines := left } else b) })

/-- LINE_RESPONSE (R319): the oldest access of the sheaf that waits for a line is answered for it; an atomic first has the line in its L2, with
the right to write it (R323, R398). -/
def Dev.lineResponse (s : Dev) (g : SheafRef) (line : Nat) : Dev :=
  match s.stook g.stook with
  | none => s
  | some st =>
    let k := g.sheaf.val
    match s.launchOf st, st.sheaves[k]? with
    | some (o, l), some sh =>
      match sh.accesses.find? (fun a => a.lines.contains line) with
      | none => s
      | some a =>
        let p := s.sheafPort o st.proc.val sh.quarter
        let rs := a.lanes.filter (fun r => r.va / 128 = line)
        let first := (rs.head?.map LaneReq.va).getD (128 * line)
        if fOpcode a.word = 0x80 || fOpcode a.word = 0x72 then
          match s.readVa { p with hint := if fOpcode a.word = 0x80 then bits (fMod a.word) 5 4 else 0 } (128 * line) 128 with
          | (s, .wait) => s
          | (s, .fail r _) => s.faultStook st r first
          | (s, .ok d) => (s.loadLine st k a.word line rs d).lineDone st k a line
        else
          let atomic := fOpcode a.word = 0xA0
          match s.holdWrite p (if atomic then 0 else bits (fMod a.word) 5 4) false (if atomic then wantAtomic else wantWrite) [(128 * line, 128)] with
          | (s, .wait) => s
          | (s, .fail r _) => s.faultStook st r first
          | (s, .ok ps) =>
            match ps with
            | [] => s
            | pc :: _ =>
              match (if atomic then s.writeLines p.die p.stream 0 [⟨tagOf pc.pa pc.realm, 0, [], 0⟩] else some s) with
              | none => s.writeWait p.die
              | some s =>
                if atomic && (s.poisonIn ps).isSome then s.faultStook st 6 first
                else
                  match (if atomic then s.atomicLine p l.ieee st k a.word pc line rs else s.storeLine p a.word pc line rs) with
                  | some s => s.lineDone st k a line
                  | none => s.writeWait p.die
    | _, _ => s

/-- NOP (R292). -/
def execSheafNop (g : SheafRef) (s : State) : Result := s.run fun s => (s.sheafStep g 0x00 (fun s _ => s))
/-- JMP (R291, R292). -/
def execJmp (g : SheafRef) (s : State) : Result :=
  s.run fun s => (s.sheafJump g 0x01 (fun s _ => s) (fun x _ => (x.pc : Int) + 1 + fOffset x.w))
/-- JMPR (R292). -/
def execJmpr (g : SheafRef) (s : State) : Result := s.run fun s => (s.sheafJump g 0x02 (fun s _ => s) (fun x i => (x.a i 1 : Int)))
/-- CALL (R292). -/
def execCall (g : SheafRef) (s : State) : Result :=
  s.run fun s => (s.sheafJump g 0x03 (fun s x => s.writeLanes x 1 (fun _ => x.pc + 1)) (fun x _ => (x.pc : Int) + 1 + fOffset x.w))

/-- EXIT (R281, R305, R308): performing stalks end; what their exit completes is complete. -/
def execSExit (g : SheafRef) (s : State) : Result :=
  s.run fun s => (s.sheafIssue g 0x04 (fun _ _ => true) (fun s x => s.inTime x fun s =>
    let s := s.modSheaf x.st.id x.k (fun h => { h with stalks := h.stalks.mapIdx (fun i k => if x.act.contains i then { k with live := false } else k) })
    let rest := x.group.filter (fun i => !x.act.contains i)
    let s := s.goTo x (rest.map (fun i => (i, (x.pc : Int) + 1)))
    ((s.syncCheck x.st.id x.k).barrierCheck x.st.id).exitStook x.st.id))

/-- BAR (R307 to R310): performing stalks arrive at the stook barrier. -/
def execBar (g : SheafRef) (s : State) : Result :=
  s.run fun s => (s.sheafStep g 0x05 (fun s x =>
    if x.act.isEmpty then s
    else s.inTime x fun s =>
      let s := s.setWait x.st.id x.k x.act .barrier
      let s := s.modStook x.st.id (fun st => { st with barrier := st.barrier.or (some (x.l.deadline s.now, x.pc)) })
      s.barrierCheck x.st.id))

/-- SSYNC (R305): performing stalks wait for the live stalks their mask names. -/
def execSsync (g : SheafRef) (s : State) : Result :=
  s.run fun s => (s.sheafStep g 0x06 (fun s x => if x.act.isEmpty then s else s.inTime x fun s =>
    (x.act.foldl (fun s i => s.setWait x.st.id x.k [i] (.ssync x.pc (x.a i 2) s.now)) s).syncCheck x.st.id x.k))

/-- The agent that a sheaf processor is, as the write-combining buffer keeps it (R383, R455). -/
def sheafWriter (die proc w : Nat) : Bool := w / 256 = die && (w % 256 = 255 || (0x3C ≤ w % 256 && w % 256 < 0xBC && (w % 256 - 0x3C) / 4 = proc))

/-- FENCE (R383, R384, R422): every earlier access of the group has been performed, since its group waits for each (R319); at package scope
it issues once the remote-window accesses of its operation have been answered, and the write-combining lines of its processor drain. -/
def execFence (g : SheafRef) (s : State) : Result :=
  s.run fun s => (s.sheafIssue g 0x07
    (fun s x => !(fMod x.w % 4 = 2 && !x.act.isEmpty && s.fab.accesses.any (fun a => a.by_ = .op x.o.slot)))
    (fun s x =>
      (if fMod x.w % 4 = 2 && !x.act.isEmpty then s.drainWcbOf (sheafWriter (homeDie x.o.queue).val (x.st.proc.val % 32)) else s).goTo x
        (x.targets (fun _ => (x.pc : Int) + 1))))

/-- YIELD (R302): the group gives up selection. -/
def execYield (g : SheafRef) (s : State) : Result :=
  s.run fun s => (s.sheafStep g 0x08 (fun s x => if x.act.isEmpty then s else s.modSheaf x.st.id x.k (fun h => { h with yielded := some (x.pc + 1) })))

/-- IADD (R292). -/
def execIadd (g : SheafRef) (s : State) : Result := s.run fun s => (s.sheafInt g 0x0)
/-- ISUB (R292). -/
def execIsub (g : SheafRef) (s : State) : Result := s.run fun s => (s.sheafInt g 0x1)
/-- IMUL (R292). -/
def execImul (g : SheafRef) (s : State) : Result := s.run fun s => (s.sheafInt g 0x2)
/-- IMULH (R292). -/
def execImulh (g : SheafRef) (s : State) : Result := s.run fun s => (s.sheafInt g 0x3)
/-- IMAC (R292). -/
def execImac (g : SheafRef) (s : State) : Result := s.run fun s => (s.sheafInt g 0x4)
/-- AND (R292). -/
def execSAnd (g : SheafRef) (s : State) : Result := s.run fun s => (s.sheafInt g 0x5)
/-- OR (R292). -/
def execSOr (g : SheafRef) (s : State) : Result := s.run fun s => (s.sheafInt g 0x6)
/-- XOR (R292). -/
def execSXor (g : SheafRef) (s : State) : Result := s.run fun s => (s.sheafInt g 0x7)
/-- SHL (R292). -/
def execShl (g : SheafRef) (s : State) : Result := s.run fun s => (s.sheafInt g 0x8)
/-- SHR (R292). -/
def execShr (g : SheafRef) (s : State) : Result := s.run fun s => (s.sheafInt g 0x9)
/-- IMIN (R292). -/
def execImin (g : SheafRef) (s : State) : Result := s.run fun s => (s.sheafInt g 0xA)
/-- IMAX (R292). -/
def execImax (g : SheafRef) (s : State) : Result := s.run fun s => (s.sheafInt g 0xB)
/-- BCNT (R292). -/
def execBcnt (g : SheafRef) (s : State) : Result := s.run fun s => (s.sheafInt g 0xC)
/-- LZC (R292). -/
def execLzc (g : SheafRef) (s : State) : Result := s.run fun s => (s.sheafInt g 0xD)
/-- MOV (R292). -/
def execMov (g : SheafRef) (s : State) : Result := s.run fun s => (s.sheafInt g 0xE)
/-- MOVHI (R292). -/
def execMovhi (g : SheafRef) (s : State) : Result := s.run fun s => (s.sheafInt g 0xF)

/-- F32ADD (R292, R296). -/
def execF32add (g : SheafRef) (s : State) : Result := s.run fun s => (s.sheafFloat g false 0)
/-- F32MUL (R292, R296). -/
def execF32mul (g : SheafRef) (s : State) : Result := s.run fun s => (s.sheafFloat g false 1)
/-- F32MAC (R292, R296). -/
def execF32mac (g : SheafRef) (s : State) : Result := s.run fun s => (s.sheafFloat g false 2)
/-- F32MIN (R292, R296). -/
def execF32min (g : SheafRef) (s : State) : Result := s.run fun s => (s.sheafFloat g false 3)
/-- F32MAX (R292, R296). -/
def execF32max (g : SheafRef) (s : State) : Result := s.run fun s => (s.sheafFloat g false 4)
/-- F64ADD (R292, R296). -/
def execF64add (g : SheafRef) (s : State) : Result := s.run fun s => (s.sheafFloat g true 0)
/-- F64MUL (R292, R296). -/
def execF64mul (g : SheafRef) (s : State) : Result := s.run fun s => (s.sheafFloat g true 1)
/-- F64MAC (R292, R296). -/
def execF64mac (g : SheafRef) (s : State) : Result := s.run fun s => (s.sheafFloat g true 2)
/-- F64MIN (R292, R296). -/
def execF64min (g : SheafRef) (s : State) : Result := s.run fun s => (s.sheafFloat g true 3)
/-- F64MAX (R292, R296). -/
def execF64max (g : SheafRef) (s : State) : Result := s.run fun s => (s.sheafFloat g true 4)

/-- CVT (R300, R301). -/
def execCvt (g : SheafRef) (s : State) : Result :=
  s.run fun s => (s.sheafStep g 0x40 (fun s x =>
    let m := fMod x.w
    let ka := (cvtWords (bits m 3 0)).getD 1
    let kd := (cvtWords (bits m 7 4)).getD 1
    let f (i : Nat) : Nat × Counts := cvtOp x.l.ieee m (x.a i ka) (x.c i 1) ((x.stalk i).read (fDst x.w) kd) (Config.freeValue (s.fresh + i))
    let n := x.act.foldl (fun n i => n.add (f i).2) {}
    let s := (s.writeLanes x kd (fun i => (f i).1)).modStook x.st.id (fun st => { st with counts := st.counts.add n })
    { s with fresh := s.fresh + 64 }))

/-- EXP2 (R299). -/
def execExp2 (g : SheafRef) (s : State) : Result := s.run fun s => (s.sheafFunc g 0)
/-- LOG2 (R299). -/
def execLog2 (g : SheafRef) (s : State) : Result := s.run fun s => (s.sheafFunc g 1)
/-- RCP (R299). -/
def execRcp (g : SheafRef) (s : State) : Result := s.run fun s => (s.sheafFunc g 2)
/-- RSQRT (R299). -/
def execRsqrt (g : SheafRef) (s : State) : Result := s.run fun s => (s.sheafFunc g 3)
/-- SQRT (R299). -/
def execSqrt (g : SheafRef) (s : State) : Result := s.run fun s => (s.sheafFunc g 4)
/-- SINPI (R299). -/
def execSinpi (g : SheafRef) (s : State) : Result := s.run fun s => (s.sheafFunc g 5)
/-- COSPI (R299). -/
def execCospi (g : SheafRef) (s : State) : Result := s.run fun s => (s.sheafFunc g 6)

/-- FCMP (R75, R292). -/
def execFcmp (g : SheafRef) (s : State) : Result :=
  s.run fun s => (s.sheafStep g 0x60 (fun s x =>
    let m := fMod x.w
    let (f, k) : Fmt × Nat := if bit m 4 then (.fp64, 2) else (.fp32, 1)
    s.writePreds x (fun i => compareVal (bits m 3 0) (sheafDecode x.l.ieee f (x.a i k)) (sheafDecode x.l.ieee f (x.b i k)))))

/-- ICMP (R292). -/
def execIcmp (g : SheafRef) (s : State) : Result :=
  s.run fun s => (s.sheafStep g 0x61 (fun s x =>
    let k := if bit (fMod x.w) 4 then 2 else 1
    s.writePreds x (fun i => icmpOp (fMod x.w) (x.a i k) (x.b i k))))

/-- PICK (R292). -/
def execPick (g : SheafRef) (s : State) : Result :=
  s.run fun s => (s.sheafStep g 0x62 (fun s x => s.writeLanes x 1 (fun i => if (x.stalk i).pred (fMod x.w) then x.a i 1 else x.b i 1)))

/-- PCOMB (R292). -/
def execPcomb (g : SheafRef) (s : State) : Result :=
  s.run fun s => (s.sheafStep g 0x63 (fun s x => s.writePreds x (fun i =>
    let p := (x.stalk i).pred (fA x.w)
    let q := (x.stalk i).pred (fB x.w)
    match fMod x.w with
    | 0 => p && q
    | 1 => p || q
    | 2 => p != q
    | _ => p && !q)))

/-- UOP (R292): an integer operation on uniform registers; with imm set, c is the uniform register dst names. -/
def execUop (g : SheafRef) (s : State) : Result :=
  s.run fun s => (s.sheafStep g 0x70 (fun s x =>
    let m := fMod x.w
    let o := bits m 3 0
    let k := if bit m 4 && o ≠ 0xF then 2 else 1
    let a := if o = 0xE && fImm x.w then immOf x.w k else x.a 0 k
    let c := if fImm x.w then (if fDst x.w = 0xFF then 0 else x.sh.readU (fDst x.w) k) else x.c 0 k
    let s' := s.writeUniform x k (intOp o (32 * k) (bit m 5) a (x.b 0 k) c (Config.freeValue s.fresh))
    { s' with fresh := s'.fresh + 1 }))

/-- LANERD (R292): the lane index comes from the lowest performing stalk; the spec states no value for a lane past the width. -/
def execLanerd (g : SheafRef) (s : State) : Result :=
  s.run fun s => (s.sheafStep g 0x71 (fun s x =>
    let lane := x.b (x.act.headD 0) 1
    let v := if lane < x.l.width then (x.stalk lane).read (fA x.w) 1 else Config.freeValue s.fresh % 2 ^ 32
    { s.writeUniform x 1 v with fresh := s.fresh + 1 }))

/-- ULOAD (R292, R318). -/
def execUload (g : SheafRef) (s : State) : Result :=
  s.run fun s => (s.sheafAccess g 0x72 (fun x => 2 ^ fMod x.w) (fun x =>
    match x.act.head? with
    | none => []
    | some i => [{ lane := i, va := memAddr (x.a i 2) (x.b i 1) }]))

/-- LD (R292, R318). -/
def execLd (g : SheafRef) (s : State) : Result :=
  s.run fun s => (s.sheafAccess g 0x80 (fun x => 2 ^ bits (fMod x.w) 2 0) (fun x => x.act.map (fun i => { lane := i, va := memAddr (x.a i 2) (x.b i 1) })))

/-- ST (R292, R316, R318). -/
def execSt (g : SheafRef) (s : State) : Result :=
  s.run fun s => (s.sheafAccess g 0x81 (fun x => 2 ^ bits (fMod x.w) 2 0) (fun x =>
    x.act.map (fun i => { lane := i, va := memAddr (x.a i 2) (x.b i 1), data := x.c i (sizeWords (bits (fMod x.w) 2 0)) })))

/-- The offset of LDK and STK (R292). -/
def localOff (x : Issue) (i : Nat) : Nat := (x.a i 1 + x.b i 1) % 2 ^ 32

/-- LDK (R292, R315, R317). -/
def execLdk (g : SheafRef) (s : State) : Result :=
  s.run fun s => (s.sheafLocal g 0x90 (fun x => 2 ^ bits (fMod x.w) 2 0) localOff (fun s x =>
    let sz := bits (fMod x.w) 2 0
    s.writeLanes x (sizeWords sz) (fun i => loadValue (x.st.smemRead (localOff x i) (2 ^ sz)) sz (bit (fMod x.w) 3))))

/-- STK (R292, R316, R317). -/
def execStk (g : SheafRef) (s : State) : Result :=
  s.run fun s => (s.sheafLocal g 0x91 (fun x => 2 ^ fMod x.w) localOff (fun s x =>
    s.localEach x (fun st i => { st with smem := Table.setRange 0 st.smem (localOff x i) (leBytes (2 ^ fMod x.w) (x.c i (sizeWords (fMod x.w)))) })))

/-- The signed offset of AMO and AMOK in bytes (R292). -/
def amoOff (w : Nat) : Int := 4 * signedOf 9 (bits w 14 6)

/-- AMO (R321 to R325). -/
def execAmo (g : SheafRef) (s : State) : Result :=
  s.run fun s => (s.sheafAccess g 0xA0 (fun x => atomicBytes (bits (fMod x.w) 3 0)) (fun x =>
    let k := atomicBytes (bits (fMod x.w) 3 0) / 4
    x.act.map (fun i => { lane := i, va := codeOf 64 ((x.a i 2 : Int) + amoOff x.w), data := x.b i k, cmp := x.c i k })))

/-- The offset of AMOK. -/
def amokOff (x : Issue) (i : Nat) : Nat := codeOf 32 ((x.a i 1 : Int) + amoOff x.w)

/-- AMOK (R321 to R324): on stook memory, in ascending stalk order. -/
def execAmok (g : SheafRef) (s : State) : Result :=
  s.run fun s => (s.sheafLocal g 0xA1 (fun x => atomicBytes (bits (fMod x.w) 3 0)) amokOff (fun s x =>
    let o := bits (fMod x.w) 3 0
    let n := atomicBytes o
    s.localEach x (fun st i =>
      let old := leNat (st.smemRead (amokOff x i) n)
      let st := { st with smem := Table.setRange 0 st.smem (amokOff x i) (leBytes n (atomicOp x.l.ieee o old (x.b i (n / 4)) (x.c i (n / 4)))) }
      st.modLane x.k i (fun y => y.write (fDst x.w) (n / 4) old))))

/-- LANEX (R292, R306). -/
def execLanex (g : SheafRef) (s : State) : Result :=
  s.run fun s => (s.sheafStep g 0xB0 (fun s x => s.writeLanes x 1 (fun i =>
    let b := x.b i 1
    let src : Int := match fMod x.w with
      | 0 => (b : Int)
      | 1 => (i : Int) + b
      | 2 => (i : Int) - b
      | _ => ((Nat.xor i b : Nat) : Int)
    if 0 ≤ src && x.group.contains src.toNat then x.a src.toNat 1 else x.a i 1)))

/-- POLL (R292, R306). -/
def execPoll (g : SheafRef) (s : State) : Result :=
  s.run fun s => (s.sheafStep g 0xB1 (fun s x =>
    let set := x.group.filter (fun i => (x.stalk i).pred (fA x.w))
    match fMod x.w with
    | 0 => s.writePreds x (fun _ => !set.isEmpty)
    | 1 => s.writePreds x (fun _ => set.length = x.group.length)
    | _ => s.writeUniform x 2 ((set.map (fun i => 2 ^ i)).foldl (· + ·) 0)))

/-- REDUCE (R292, R306). -/
def execReduce (g : SheafRef) (s : State) : Result :=
  s.run fun s => (s.sheafStep g 0xB2 (fun s x =>
    let vs := x.group.map (fun i => x.a i 1)
    s.writeLanes x 1 (fun _ => combineAll x.l.ieee (fMod x.w) vs)))

/-- SCAN (R292, R306): an inclusive prefix over the group. -/
def execScan (g : SheafRef) (s : State) : Result :=
  s.run fun s => (s.sheafStep g 0xB3 (fun s x => s.writeLanes x 1 (fun i =>
    let vs := (x.group.filter (fun j => j ≤ i)).map (fun j => x.a j 1)
    combineAll x.l.ieee (fMod x.w) vs)))

/-- The mask of a list of lanes. -/
def laneMask (l : List Nat) : Nat := (l.map (fun i => 2 ^ i)).foldl (· + ·) 0

/-- SYSR (R293). -/
def execSysr (g : SheafRef) (s : State) : Result :=
  s.run fun s => (s.sheafStep g 0xC0 (fun s x =>
    let live := laneMask ((List.range x.sh.stalks.length).filter (fun i => (x.stalk i).live))
    s.writeLanes x 1 (fun i =>
      match fMod x.w with
      | 0x00 => x.k * x.l.width + i
      | 0x01 => i
      | 0x02 => x.k
      | 0x03 => x.l.width
      | 0x04 => x.st.ordinal
      | 0x05 => (homeDie x.o.queue).val
      | 0x06 => x.st.proc.val % 32
      | 0x07 => x.sh.quarter
      | 0x08 => laneMask x.group
      | 0x09 => laneMask x.group / 2 ^ 32
      | 0x0A => live
      | 0x0B => live / 2 ^ 32
      | 0x0C => ceilDiv x.l.regs 8 * 8
      | _ => x.l.smem)))

/-- TIME (R292). -/
def execSTime (g : SheafRef) (s : State) : Result := s.run fun s => (s.sheafStep g 0xC1 (fun s x => s.writeLanes x 2 (fun _ => s.now.toNat)))

/-- A line request is answered (R319). -/
def execLineResponse (g : SheafRef) (line : Nat) (s : State) : Result := s.run fun s => (s.lineResponse g line)

/-- BARRIER_DEADLINE (R310, R311). -/
def execBarrierDeadline (stook : Nat) (t : Instant) (s : State) : Result :=
  s.run fun s => (
    let s' := s.advance t
    match s.stook stook with
    | some st => (match st.barrier with
      | some (d, _) => if d.toNat ≤ s'.now.toNat then s'.generationFail st else s
      | none => s)
    | none => s)

/-- SSYNC_TIMEOUT (R305, R312): package time passes what an SSYNC may wait. -/
def execSsyncTimeout (g : SheafRef) (t : Instant) (s : State) : Result :=
  s.run fun s => ((s.advance t).syncFail g.stook g.sheaf.val).getD s

/-- STOOK_START (R278). -/
def execStookStart (slot : SlotId) (s : State) : Result := s.run fun s => (s.startStook slot)

end Sys2Proof.Machine
end

