-- ==== Sys2Proof/Machine/Dispatch.lean ====
section
/-! DEFINITION. Machine/Dispatch.lean: one arm for each command of the block. -/

namespace Sys2Proof.Machine

/-- The effect of a command on everything but the queue of waiting commands. -/
def exec (i : Instr) (s : State) : Host.Outcome State Fault Refusal :=
  match i with
  | .windowEnd a => Sys2Proof.Machine.execWindowEnd a s
  | .stepWindowWrite a => Sys2Proof.Machine.execStepWindowWrite a s
  | .stepRateLowestWrite a b => Sys2Proof.Machine.execStepRateLowestWrite a b s
  | .attach a => Sys2Proof.Machine.execAttach a s
  | .start a => Sys2Proof.Machine.execStart a s
  | .stop a => Sys2Proof.Machine.execStop a s
  | .abort a => Sys2Proof.Machine.execAbort a s
  | .detach a => Sys2Proof.Machine.execDetach a s
  | .submitPush a b => Sys2Proof.Machine.execSubmitPush a b s
  | .headWrite a b => Sys2Proof.Machine.execHeadWrite a b s
  | .registerWrite a b => Sys2Proof.Machine.execRegisterWrite a b s
  | .instructionFetch a => Sys2Proof.Machine.execInstructionFetch a s
  | .nop a => Sys2Proof.Machine.execNop a s
  | .loop a => Sys2Proof.Machine.execLoop a s
  | .endloop a => Sys2Proof.Machine.execEndloop a s
  | .brk a => Sys2Proof.Machine.execBrk a s
  | .phase a => Sys2Proof.Machine.execPhase a s
  | .settime a => Sys2Proof.Machine.execSettime a s
  | .sync a => Sys2Proof.Machine.execSync a s
  | .halt a => Sys2Proof.Machine.execHalt a s
  | .matmul a => Sys2Proof.Machine.execMatmul a s
  | .matmulPart a => Sys2Proof.Machine.execMatmulPart a s
  | .attend a => Sys2Proof.Machine.execAttend a s
  | .chain a => Sys2Proof.Machine.execChain a s
  | .combine a => Sys2Proof.Machine.execCombine a s
  | .launch a => Sys2Proof.Machine.execLaunch a s
  | .prefetch a => Sys2Proof.Machine.execPrefetch a s
  | .copy a => Sys2Proof.Machine.execCopy a s
  | .relayPut a => Sys2Proof.Machine.execRelayPut a s
  | .relayTake a => Sys2Proof.Machine.execRelayTake a s
  | .crypt a => Sys2Proof.Machine.execCrypt a s
  | .compress a => Sys2Proof.Machine.execCompress a s
  | .decompress a => Sys2Proof.Machine.execDecompress a s
  | .indexOp a => Sys2Proof.Machine.execIndexOp a s
  | .sortmerge a => Sys2Proof.Machine.execSortmerge a s
  | .gather a => Sys2Proof.Machine.execGather a s
  | .allreduce a => Sys2Proof.Machine.execAllreduce a s
  | .reducescatter a => Sys2Proof.Machine.execReducescatter a s
  | .allgather a => Sys2Proof.Machine.execAllgather a s
  | .bcast a => Sys2Proof.Machine.execBcast a s
  | .send a => Sys2Proof.Machine.execSend a s
  | .recv a => Sys2Proof.Machine.execRecv a s
  | .snapshot a => Sys2Proof.Machine.execSnapshot a s
  | .journalSlotAllocate a => Sys2Proof.Machine.execJournalSlotAllocate a s
  | .watchdogExpiry a b => Sys2Proof.Machine.execWatchdogExpiry a b s
  | .operationBegin a => Sys2Proof.Machine.execOperationBegin a s
  | .operationEnd a => Sys2Proof.Machine.execOperationEnd a s
  | .signal a => Sys2Proof.Machine.execSignal a s
  | .journalRelease a => Sys2Proof.Machine.execJournalRelease a s
  | .flagStore a b c => Sys2Proof.Machine.execFlagStore a b c s
  | .counterStore a b => Sys2Proof.Machine.execCounterStore a b s
  | .counterAmoadd a b => Sys2Proof.Machine.execCounterAmoadd a b s
  | .millStep a b => Sys2Proof.Machine.execMillStep a b s
  | .slotFillComplete a => Sys2Proof.Machine.execSlotFillComplete a s
  | .curdMove a => Sys2Proof.Machine.execCurdMove a s
  | .tileWritten a => Sys2Proof.Machine.execTileWritten a s
  | .statsAdd a => Sys2Proof.Machine.execStatsAdd a s
  | .stookStart a => Sys2Proof.Machine.execStookStart a s
  | .sheafNop a => Sys2Proof.Machine.execSheafNop a s
  | .jmp a => Sys2Proof.Machine.execJmp a s
  | .jmpr a => Sys2Proof.Machine.execJmpr a s
  | .call a => Sys2Proof.Machine.execCall a s
  | .sExit a => Sys2Proof.Machine.execSExit a s
  | .bar a => Sys2Proof.Machine.execBar a s
  | .ssync a => Sys2Proof.Machine.execSsync a s
  | .fence a => Sys2Proof.Machine.execFence a s
  | .yield a => Sys2Proof.Machine.execYield a s
  | .iadd a => Sys2Proof.Machine.execIadd a s
  | .isub a => Sys2Proof.Machine.execIsub a s
  | .imul a => Sys2Proof.Machine.execImul a s
  | .imulh a => Sys2Proof.Machine.execImulh a s
  | .imac a => Sys2Proof.Machine.execImac a s
  | .sAnd a => Sys2Proof.Machine.execSAnd a s
  | .sOr a => Sys2Proof.Machine.execSOr a s
  | .sXor a => Sys2Proof.Machine.execSXor a s
  | .shl a => Sys2Proof.Machine.execShl a s
  | .shr a => Sys2Proof.Machine.execShr a s
  | .imin a => Sys2Proof.Machine.execImin a s
  | .imax a => Sys2Proof.Machine.execImax a s
  | .bcnt a => Sys2Proof.Machine.execBcnt a s
  | .lzc a => Sys2Proof.Machine.execLzc a s
  | .mov a => Sys2Proof.Machine.execMov a s
  | .movhi a => Sys2Proof.Machine.execMovhi a s
  | .f32add a => Sys2Proof.Machine.execF32add a s
  | .f32mul a => Sys2Proof.Machine.execF32mul a s
  | .f32mac a => Sys2Proof.Machine.execF32mac a s
  | .f32min a => Sys2Proof.Machine.execF32min a s
  | .f32max a => Sys2Proof.Machine.execF32max a s
  | .f64add a => Sys2Proof.Machine.execF64add a s
  | .f64mul a => Sys2Proof.Machine.execF64mul a s
  | .f64mac a => Sys2Proof.Machine.execF64mac a s
  | .f64min a => Sys2Proof.Machine.execF64min a s
  | .f64max a => Sys2Proof.Machine.execF64max a s
  | .cvt a => Sys2Proof.Machine.execCvt a s
  | .exp2 a => Sys2Proof.Machine.execExp2 a s
  | .log2 a => Sys2Proof.Machine.execLog2 a s
  | .rcp a => Sys2Proof.Machine.execRcp a s
  | .rsqrt a => Sys2Proof.Machine.execRsqrt a s
  | .sqrt a => Sys2Proof.Machine.execSqrt a s
  | .sinpi a => Sys2Proof.Machine.execSinpi a s
  | .cospi a => Sys2Proof.Machine.execCospi a s
  | .fcmp a => Sys2Proof.Machine.execFcmp a s
  | .icmp a => Sys2Proof.Machine.execIcmp a s
  | .pick a => Sys2Proof.Machine.execPick a s
  | .pcomb a => Sys2Proof.Machine.execPcomb a s
  | .uop a => Sys2Proof.Machine.execUop a s
  | .lanerd a => Sys2Proof.Machine.execLanerd a s
  | .uload a => Sys2Proof.Machine.execUload a s
  | .ld a => Sys2Proof.Machine.execLd a s
  | .st a => Sys2Proof.Machine.execSt a s
  | .ldk a => Sys2Proof.Machine.execLdk a s
  | .stk a => Sys2Proof.Machine.execStk a s
  | .amo a => Sys2Proof.Machine.execAmo a s
  | .amok a => Sys2Proof.Machine.execAmok a s
  | .lanex a => Sys2Proof.Machine.execLanex a s
  | .poll a => Sys2Proof.Machine.execPoll a s
  | .reduce a => Sys2Proof.Machine.execReduce a s
  | .scan a => Sys2Proof.Machine.execScan a s
  | .sysr a => Sys2Proof.Machine.execSysr a s
  | .sTime a => Sys2Proof.Machine.execSTime a s
  | .lineResponse a b => Sys2Proof.Machine.execLineResponse a b s
  | .barrierDeadline a b => Sys2Proof.Machine.execBarrierDeadline a b s
  | .ssyncTimeout a b => Sys2Proof.Machine.execSsyncTimeout a b s
  | .prefetcherIssue a b => Sys2Proof.Machine.execPrefetcherIssue a b s
  | .prefetchFill a b => Sys2Proof.Machine.execPrefetchFill a b s
  | .pfLifetimeExpiry a b c => Sys2Proof.Machine.execPfLifetimeExpiry a b c s
  | .relayEnable a => Sys2Proof.Machine.execRelayEnable a s
  | .relayDisable a => Sys2Proof.Machine.execRelayDisable a s
  | .relayCorePutsWrite a b => Sys2Proof.Machine.execRelayCorePutsWrite a b s
  | .relayCoreTakesWrite a b => Sys2Proof.Machine.execRelayCoreTakesWrite a b s
  | .readShared a b c => Sys2Proof.Machine.execReadShared a b c s
  | .readOwn a b c => Sys2Proof.Machine.execReadOwn a b c s
  | .writeClaim a b => Sys2Proof.Machine.execWriteClaim a b s
  | .upgrade a b c => Sys2Proof.Machine.execUpgrade a b c s
  | .readOnce a b c => Sys2Proof.Machine.execReadOnce a b c s
  | .writePush a b c d => Sys2Proof.Machine.execWritePush a b c d s
  | .atomicHome a b c d e f => Sys2Proof.Machine.execAtomicHome a b c d e f s
  | .writeBack a b c d => Sys2Proof.Machine.execWriteBack a b c d s
  | .evictClean a b => Sys2Proof.Machine.execEvictClean a b s
  | .snpShared a b c => Sys2Proof.Machine.execSnpShared a b c s
  | .snpInv a b c => Sys2Proof.Machine.execSnpInv a b c s
  | .snpOnce a b c => Sys2Proof.Machine.execSnpOnce a b c s
  | .rspInvalid a b c => Sys2Proof.Machine.execRspInvalid a b c s
  | .rspShared a b c => Sys2Proof.Machine.execRspShared a b c s
  | .rspData a b c d e f g => Sys2Proof.Machine.execRspData a b c d e f g s
  | .completionData a b c d e => Sys2Proof.Machine.execCompletionData a b c d e s
  | .completionAck a b c => Sys2Proof.Machine.execCompletionAck a b c s
  | .wbAck a b => Sys2Proof.Machine.execWbAck a b s
  | .wbSuperseded a b => Sys2Proof.Machine.execWbSuperseded a b s
  | .localRead a b c => Sys2Proof.Machine.execLocalRead a b c s
  | .localPartialWrite a b c d => Sys2Proof.Machine.execLocalPartialWrite a b c d s
  | .localFullWrite a b c => Sys2Proof.Machine.execLocalFullWrite a b c s
  | .eviction a b => Sys2Proof.Machine.execEviction a b s
  | .homeTimeout a b => Sys2Proof.Machine.execHomeTimeout a b s
  | .wcbDrain a b => Sys2Proof.Machine.execWcbDrain a b s
  | .patrolScrub a b => Sys2Proof.Machine.execPatrolScrub a b s
  | .parityError a => Sys2Proof.Machine.execParityError a s
  | .marginRun a => Sys2Proof.Machine.execMarginRun a s
  | .marginSweepDone a => Sys2Proof.Machine.execMarginSweepDone a s
  | .iotinvalVma a b c d e f => Sys2Proof.Machine.execIotinvalVma a b c d e f s
  | .iofenceC a b c d => Sys2Proof.Machine.execIofenceC a b c d s
  | .translationMiss a b c d e f => Sys2Proof.Machine.execTranslationMiss a b c d e f s
  | .walkComplete a b c => Sys2Proof.Machine.execWalkComplete a b c s
  | .prRespResolved a b => Sys2Proof.Machine.execPrRespResolved a b s
  | .prRespFailed a b => Sys2Proof.Machine.execPrRespFailed a b s
  | .prTimeout a b c => Sys2Proof.Machine.execPrTimeout a b c s
  | .heldRecordWrite a => Sys2Proof.Machine.execHeldRecordWrite a s
  | .ctxBaseWrite a b => Sys2Proof.Machine.execCtxBaseWrite a b s
  | .fqBaseWrite a b => Sys2Proof.Machine.execFqBaseWrite a b s
  | .quantumEnd a b c => Sys2Proof.Machine.execQuantumEnd a b c s
  | .workEntryDone a => Sys2Proof.Machine.execWorkEntryDone a s
  | .realmCreate => Sys2Proof.Machine.execRealmCreate s
  | .realmQuote => Sys2Proof.Machine.execRealmQuote s
  | .realmLoadKey => Sys2Proof.Machine.execRealmLoadKey s
  | .realmDropKey => Sys2Proof.Machine.execRealmDropKey s
  | .realmDestroy => Sys2Proof.Machine.execRealmDestroy s
  | .realmScrub => Sys2Proof.Machine.execRealmScrub s
  | .flitReceive a b c => Sys2Proof.Machine.execFlitReceive a b c s
  | .flitNak a b c => Sys2Proof.Machine.execFlitNak a b c s
  | .connectionDown a b c => Sys2Proof.Machine.execConnectionDown a b c s
  | .routeLoad => Sys2Proof.Machine.execRouteLoad s
  | .timeExchange a => Sys2Proof.Machine.execTimeExchange a s
  | .timeFrame a b c d e => Sys2Proof.Machine.execTimeFrame a b c d e s
  | .linkTrainingDone a b => Sys2Proof.Machine.execLinkTrainingDone a b s
  | .linkFlitReceive a b => Sys2Proof.Machine.execLinkFlitReceive a b s
  | .linkNak a b => Sys2Proof.Machine.execLinkNak a b s
  | .linkDown a b => Sys2Proof.Machine.execLinkDown a b s
  | .packetTransit a b => Sys2Proof.Machine.execPacketTransit a b s
  | .hostWrite a b => Sys2Proof.Machine.execHostWrite a b s
  | .hostRead a b => Sys2Proof.Machine.execHostRead a b s
  | .hostPush a b => Sys2Proof.Machine.execHostPush a b s
  | .hostAdd a b => Sys2Proof.Machine.execHostAdd a b s
  | .hostCompletion a b => Sys2Proof.Machine.execHostCompletion a b s
  | .remoteReadRequest a b => Sys2Proof.Machine.execRemoteReadRequest a b s
  | .remoteReadResponse a b => Sys2Proof.Machine.execRemoteReadResponse a b s
  | .remoteWrite a b => Sys2Proof.Machine.execRemoteWrite a b s
  | .remoteWriteAck a b => Sys2Proof.Machine.execRemoteWriteAck a b s
  | .remoteAtomic a b => Sys2Proof.Machine.execRemoteAtomic a b s
  | .remoteWindowAccess a b c => Sys2Proof.Machine.execRemoteWindowAccess a b c s
  | .windowDisable a => Sys2Proof.Machine.execWindowDisable a s
  | .collectiveData a b => Sys2Proof.Machine.execCollectiveData a b s
  | .collectiveGrant a b => Sys2Proof.Machine.execCollectiveGrant a b s
  | .transportAck a b => Sys2Proof.Machine.execTransportAck a b s
  | .unreachableNotice a b => Sys2Proof.Machine.execUnreachableNotice a b s
  | .transportTimeout a b => Sys2Proof.Machine.execTransportTimeout a b s
  | .linkRoleWrite a b => Sys2Proof.Machine.execLinkRoleWrite a b s
  | .linkEnableWrite a b => Sys2Proof.Machine.execLinkEnableWrite a b s
  | .pkeyEnable a => Sys2Proof.Machine.execPkeyEnable a s
  | .pkeyDisable a => Sys2Proof.Machine.execPkeyDisable a s
  | .quarantineEnd a b => Sys2Proof.Machine.execQuarantineEnd a b s
  | .keyDrained a => Sys2Proof.Machine.execKeyDrained a s
  | .deviceIdWrite a => Sys2Proof.Machine.execDeviceIdWrite a s
  | .powerGoodHold a => Sys2Proof.Machine.execPowerGoodHold a s
  | .sagWarn a b => Sys2Proof.Machine.execSagWarn a b s
  | .sagWarnEnd a => Sys2Proof.Machine.execSagWarnEnd a s
  | .sagReset a => Sys2Proof.Machine.execSagReset a s
  | .overVoltage a => Sys2Proof.Machine.execOverVoltage a s
  | .powerEvaluation => Sys2Proof.Machine.execPowerEvaluation s
  | .capWindowEnd a b => Sys2Proof.Machine.execCapWindowEnd a b s
  | .powerCapWrite a => Sys2Proof.Machine.execPowerCapWrite a s
  | .railWindowEnd a b c d e => Sys2Proof.Machine.execRailWindowEnd a b c d e s
  | .thermalTick a => Sys2Proof.Machine.execThermalTick a s
  | .thermalTrip a => Sys2Proof.Machine.execThermalTrip a s
  | .energyWindowEnd a b c => Sys2Proof.Machine.execEnergyWindowEnd a b c s
  | .jobOpen a => Sys2Proof.Machine.execJobOpen a s
  | .jobClose a => Sys2Proof.Machine.execJobClose a s
  | .ripenCheck a => Sys2Proof.Machine.execRipenCheck a s
  | .ripenInterval a b => Sys2Proof.Machine.execRipenInterval a b s
  | .sessionInit a b => Sys2Proof.Machine.execSessionInit a b s
  | .sessionFinish a b => Sys2Proof.Machine.execSessionFinish a b s
  | .sessionDiscover a b => Sys2Proof.Machine.execSessionDiscover a b s
  | .sessionRequest a b => Sys2Proof.Machine.execSessionRequest a b s
  | .sessionKeepalive a b => Sys2Proof.Machine.execSessionKeepalive a b s
  | .sessionClose a b => Sys2Proof.Machine.execSessionClose a b s
  | .handshakeTimeout a b => Sys2Proof.Machine.execHandshakeTimeout a b s
  | .sessionIdleTimeout a b => Sys2Proof.Machine.execSessionIdleTimeout a b s
  | .readObject a b c d => Sys2Proof.Machine.execReadObject a b c d s
  | .writeObject a b c d => Sys2Proof.Machine.execWriteObject a b c d s
  | .readPending a b => Sys2Proof.Machine.execReadPending a b s
  | .describe a b => Sys2Proof.Machine.execDescribe a b s
  | .nextObject a b => Sys2Proof.Machine.execNextObject a b s
  | .subscribe a b => Sys2Proof.Machine.execSubscribe a b s
  | .applyGroup a => Sys2Proof.Machine.execApplyGroup a s
  | .discardGroup a => Sys2Proof.Machine.execDiscardGroup a s
  | .defaults a => Sys2Proof.Machine.execDefaults a s
  | .quiescentBoundary a => Sys2Proof.Machine.execQuiescentBoundary a s
  | .credMinGenerationWrite a => Sys2Proof.Machine.execCredMinGenerationWrite a s
  | .inbandRequest a => Sys2Proof.Machine.execInbandRequest a s
  | .coreMailboxSubmit a => Sys2Proof.Machine.execCoreMailboxSubmit a s
  | .coldReset a => Sys2Proof.Machine.execColdReset a s
  | .warmReset a b => Sys2Proof.Machine.execWarmReset a b s
  | .mcRestart => Sys2Proof.Machine.execMcRestart s
  | .mcWatchdogExpiry => Sys2Proof.Machine.execMcWatchdogExpiry s
  | .resetRequestWarm a => Sys2Proof.Machine.execResetRequestWarm a s
  | .resetRequestCold a => Sys2Proof.Machine.execResetRequestCold a s
  | .resetRequestMcRestart => Sys2Proof.Machine.execResetRequestMcRestart s
  | .bringupRequest a => Sys2Proof.Machine.execBringupRequest a s
  | .bootContinue a b => Sys2Proof.Machine.execBootContinue a b s
  | .floorRaise a => Sys2Proof.Machine.execFloorRaise a s
  | .attestRun a b => Sys2Proof.Machine.execAttestRun a b s
  | .xferBegin a b => Sys2Proof.Machine.execXferBegin a b s
  | .xferWindow a b c => Sys2Proof.Machine.execXferWindow a b c s
  | .xferCommit a b => Sys2Proof.Machine.execXferCommit a b s
  | .removePrepare a => Sys2Proof.Machine.execRemovePrepare a s
  | .presenceOpen => Sys2Proof.Machine.execPresenceOpen s
  | .presenceClose => Sys2Proof.Machine.execPresenceClose s
  | .lossOfSignal a => Sys2Proof.Machine.execLossOfSignal a s
  | .laserModuleLoss a => Sys2Proof.Machine.execLaserModuleLoss a s
  | .laserInterlockOpen a => Sys2Proof.Machine.execLaserInterlockOpen a s
  | .hotJoin a b => Sys2Proof.Machine.execHotJoin a b s
  | .boundaryScanInstruction a => Sys2Proof.Machine.execBoundaryScanInstruction a s
  | .packageTimeReached a => Sys2Proof.Machine.execPackageTimeReached a s
  | .thermalTripRestart a b c => Sys2Proof.Machine.execThermalTripRestart a b c s
  | .ripenPostponedCheck a b => Sys2Proof.Machine.execRipenPostponedCheck a b s
  | .realmCommandDone => Sys2Proof.Machine.execRealmCommandDone s
  | .xferStoreDone => Sys2Proof.Machine.execXferStoreDone s
  | .readyForRemoval => Sys2Proof.Machine.execReadyForRemoval s
  | .laserInterlockClose a => Sys2Proof.Machine.execLaserInterlockClose a s
  | .plcaBeacon => Sys2Proof.Machine.execPlcaBeacon s
  | .mgmtPortLinkChange a => Sys2Proof.Machine.execMgmtPortLinkChange a s
  | .neighborDiscovery a b => Sys2Proof.Machine.execNeighborDiscovery a b s
  | .icmpv6Echo a b c d => Sys2Proof.Machine.execIcmpv6Echo a b c d s

end Sys2Proof.Machine
end

