-- ==== Sys2Proof/Machine/Idle.lean ====
section
/-! DEFINITION. Machine/Idle.lean: what the block does when no command waits (log entry 1). -/

namespace Sys2Proof.Machine

/-- With no command waiting, a nanosecond of package time passes; what a receiving OX die has accepted and could not yet perform is
tried again, and the events recorded are sent (R553, R575, R677). -/
def State.idle (s : State) : State :=
  (s.lift (fun d => (d.advance (if d.now + 1 = 0 then d.now else d.now + 1)).retryAccepted)).sendEvents

end Sys2Proof.Machine
end

