-- ==== Sys2Proof/Safety.lean ====
section
/-! DEFINITION. Safety.lean: the words that claims about the block are stated in: what holds of a queue whose instruction may issue, how
a queue stops, which counters never fall, and what the power manager's levels keep to. -/

namespace Sys2Proof.Machine

/-- The instruction w is at the head of a running queue, its waits have held, and no earlier operation holds it up by its fence or as a
RELAY_TAKE (conditions 1 and 2 of R124, R360). -/
def Dev.headReady (s : Dev) (q : QueueId) (w : BitVec 256) : Prop :=
  (s.queue q).state = .running ∧ (s.queue q).fetched = some w ∧ (s.queue q).wait0 = true ∧ (s.queue q).wait1 = true
    ∧ (s.queue q).endUnperformed = none ∧ (iFence w = true → s.running q = []) ∧ ∀ o ∈ s.running q, iOpcode o.word ≠ 0x43

/-- A queue stands where another description of it says: same head, loops, phase, time reference, count of issued operations, buffers and
skipping, its instruction not read yet. -/
def Queue.follows (y x : Queue) : Prop :=
  y.head = x.head ∧ y.loops = x.loops ∧ y.phase = x.phase ∧ y.tref = x.tref ∧ y.issued = x.issued ∧ y.cur = x.cur
    ∧ y.submits = x.submits ∧ y.skipDepth = x.skipDepth ∧ y.fetched = none

/-- A head at n is past the last instruction of the queue's buffer. -/
def Queue.pastEnd (x : Queue) (n : Nat) : Bool := decide ((x.cur.map Buffer.len).getD 0 ≤ n) && x.cur.isSome

/-- A queue's course with its head at n: past the last instruction of its buffer it has the next buffer (R112). -/
def Queue.headAt (x : Queue) (n : Nat) : Queue :=
  if x.pastEnd n then { x with head := 0, cur := x.submits.head?, submits := x.submits.tail }
  else { x with head := BitVec.ofNat 32 n }

/-- From s to t nothing has changed but one command queue. -/
def State.onlyQueue (s t : State) (q : QueueId) : Prop :=
  t = { s with cmd := { s.cmd with queues := t.cmd.queues } } ∧ ∀ q2, q2 ≠ q → t.queue q2 = s.queue q2

/-- The time that SETTIME takes from its four handles (R152). -/
def absoluteTime (h : List Nat) : Nat := h.getD 0 0 + h.getD 1 0 * 2 ^ 16 + h.getD 2 0 * 2 ^ 32 + h.getD 3 0 * 2 ^ 48

/-- The journal slot that an instruction at head has, or is given when it asks for one, those that wait ahead of it leaving one free (R124,
R171, R172). -/
def Dev.slotFor (s : Dev) (q : QueueId) : Option SlotId :=
  match (s.queue q).slot with
  | some k => some k
  | none => if (s.slotAhead q).length < s.cmd.journal.freeSlots then lowestFree s.cmd.journal.allocated 4096 0 else none

/-- The reason for which an instruction that reaches head is not performed, 0 for none: invalid, not of its queue's class, or of the mills of
a queue that names none (R117, R122, R752). -/
def headFault (q : QueueId) (x : Queue) (w : BitVec 256) : Nat :=
  if encodingValid w x.loopIndex = false then 1
  else if consuming w && !classServes (queueClass q) (iOpcode w) then 3
  else if millOpcode (iOpcode w) && (millsOf (homeDie q).val x.unit.toNat).isEmpty then 2 else 0

/-- The depth at which a skip goes on past an instruction, none where it ends with it (R145, R148). -/
def skipAfter (w : BitVec 256) (depth : Nat) : Option Nat :=
  if iOpcode w = 1 then some (depth + 1) else if iOpcode w = 2 then (if depth = 0 then none else some (depth - 1)) else some depth

/-- The queue and the opcode with which a command issues an operation (R120). -/
def issueOf : Instr → Option (QueueId × Nat)
  | .matmul q => some (q, 0x10)
  | .matmulPart q => some (q, 0x11)
  | .attend q => some (q, 0x12)
  | .chain q => some (q, 0x20)
  | .combine q => some (q, 0x21)
  | .launch q => some (q, 0x30)
  | .prefetch (.issue q) => some (q, 0x40)
  | .copy (.issue q) => some (q, 0x41)
  | .crypt q => some (q, 0x50)
  | .compress q => some (q, 0x51)
  | .decompress q => some (q, 0x52)
  | .indexOp q => some (q, 0x53)
  | .sortmerge (.issue q) => some (q, 0x54)
  | .gather (.issue q) => some (q, 0x55)
  | .allreduce (.issue q) => some (q, 0x60)
  | .reducescatter (.issue q) => some (q, 0x61)
  | .allgather (.issue q) => some (q, 0x62)
  | .bcast (.issue q) => some (q, 0x63)
  | .send (.issue q) => some (q, 0x64)
  | .recv (.issue q) => some (q, 0x65)
  | .snapshot (.issue q) => some (q, 0x70)
  | _ => none

/-- Whether the executor of an opcode accepts an operation of a queue: a mill of the queue is free (R334), or the queue's channel belongs to
the opcode's engine (R493). -/
def Dev.executorAccepts (s : Dev) (q : QueueId) (code : Nat) : Bool :=
  if millOpcode code then Dev.millAccepts q s else if code / 16 = 5 then channelServes (s.queue q) code else true

/-- A queue has ceased to issue for a reason: stopped where none of its operations is running, else draining towards it (R136, R137). -/
def Dev.stopsWith (t : Dev) (q : QueueId) (reason : Byte) : Prop :=
  (t.queue q).fetched = none ∧ (t.queue q).slot = none
    ∧ (if t.running q = [] then (t.queue q).state = .stopped ∧ (t.queue q).reason = reason
       else (t.queue q).state = .draining ∧ (t.queue q).stopping = true ∧ (t.queue q).stopReason = reason)

/-- Two states differ at most in what the engines hold (chapters 01 to 11). -/
def State.sameBeyond (s t : State) : Prop := t.pow = s.pow ∧ t.mgmt = s.mgmt ∧ t.boot = s.boot ∧ t.pending = s.pending

/-- The state in which a relay instruction of a queue is performed that issues in a slot: its operation has issued and begun (R358, R360). -/
def Dev.relayIssued (s : Dev) (q : QueueId) (w : BitVec 256) (slot : SlotId) : Dev :=
  (((s.latch q).askSlot q).issueAs q (newOperation q (s.queue q) w slot)).beginOp slot id

/-- The selected group of a sheaf is about to execute the valid instruction x.w, which it has read; the reading has left s', with queues,
operations and stooks as they were (R290, R294, R302). -/
structure Dev.issues (s s' : Dev) (g : SheafRef) (x : Issue) : Prop where
  stook : s.stook g.stook = some x.st
  place : x.k = g.sheaf.val
  sheaf : x.st.sheaves[x.k]? = some x.sh
  launch : s.launchOf x.st = some (x.o, x.l)
  select : x.sh.select = some (x.pc, x.group)
  fetch : ∃ d, s.codeWord (s.sheafPort x.o x.st.proc.val x.sh.quarter) x.st.proc.val (x.l.codeBase + 8 * x.pc) = (s', .ok d) ∧ x.w = leNat d
  valid : sheafValid x.l.regs x.w = true
  acts : x.act = guarded x.sh x.w x.group
  held : s'.shf.stooks = s.shf.stooks ∧ s'.shf.nextId = s.shf.nextId ∧ s'.cmd = s.cmd

/-- A sheaf after its selected group has executed an instruction: the performing stalks changed by f, each stalk of the group at its
target, and every other ready stalk passed over once more (R290, R302). -/
def Issue.onward (x : Issue) (target : Nat → Nat) (f : Nat → Stalk → Stalk) : Sheaf :=
  { x.sh with yielded := none, stalks := x.sh.stalks.mapIdx (fun i y =>
    let z := if x.act.contains i then f i y else y
    if x.group.contains i then { z with pc := target i, age := 0 } else if y.live && y.wait = .ready then { z with age := z.age + 1 } else z) }

/-- A stook with one sheaf replaced by another. -/
def Issue.with (x : Issue) (h : Sheaf) : Stook := { x.st with sheaves := modAt x.st.sheaves x.k (fun _ => h) }

/-- From s' to t an instruction has been started once more on its processor and its stook has become st; nothing else has changed but the
count of free values (R327). -/
structure Dev.startsTo (s' t : Dev) (x : Issue) (st : Stook) : Prop where
  rest : t = { s' with shf := t.shf, fresh := t.fresh,
                       obj := ((s'.bump 4 0x100 x.st.proc.val 1).bump 4 0x106 x.st.proc.val x.group.length).obj }
  here : t.stook x.st.id = some st
  others : ∀ id, id ≠ x.st.id → t.stook id = s'.stook id
  next : t.shf.nextId = s'.shf.nextId ∧ t.shf.code = s'.shf.code

/-- The command c makes the selected group of its sheaf execute x.w, which takes the stook to st in sequence. -/
def State.sheafRuns (s : State) (s' : Dev) (c : Instr) (x : Issue) (st : Stook) : Prop :=
  ∃ t, exec c s = .next t ∧ s'.startsTo t.toDev x st ∧ s.sameBeyond t

/-- The command c finds that x.w cannot start yet: its quarter's step passes with no start, and counts as one of the other waits (R327, R328). -/
def State.sheafWaits (s : State) (s' : Dev) (c : Instr) (x : Issue) : Prop :=
  ∃ t, exec c s = .next t ∧ s.sameBeyond t
    ∧ t.toDev = { s'.bump 4 0x103 x.st.proc.val 1 with shf := { s'.shf with steps := t.shf.steps } }

/-- The integer operation of a command (R292): 0x10 + o is its opcode. -/
def integerOf : Instr → Option (SheafRef × Nat)
  | .iadd g => some (g, 0x0)
  | .isub g => some (g, 0x1)
  | .imul g => some (g, 0x2)
  | .imulh g => some (g, 0x3)
  | .imac g => some (g, 0x4)
  | .sAnd g => some (g, 0x5)
  | .sOr g => some (g, 0x6)
  | .sXor g => some (g, 0x7)
  | .shl g => some (g, 0x8)
  | .shr g => some (g, 0x9)
  | .imin g => some (g, 0xA)
  | .imax g => some (g, 0xB)
  | .bcnt g => some (g, 0xC)
  | .lzc g => some (g, 0xD)
  | .mov g => some (g, 0xE)
  | .movhi g => some (g, 0xF)
  | _ => none

/-- The floating-point operation of a command (R292): its format's width in words, and its number. -/
def floatOf : Instr → Option (SheafRef × Nat × Nat)
  | .f32add g => some (g, 1, 0)
  | .f32mul g => some (g, 1, 1)
  | .f32mac g => some (g, 1, 2)
  | .f32min g => some (g, 1, 3)
  | .f32max g => some (g, 1, 4)
  | .f64add g => some (g, 2, 0)
  | .f64mul g => some (g, 2, 1)
  | .f64mac g => some (g, 2, 2)
  | .f64min g => some (g, 2, 3)
  | .f64max g => some (g, 2, 4)
  | _ => none

/-- The elementary function of a command (R292, R299): 0x50 + o is its opcode. -/
def functionOf : Instr → Option (SheafRef × Nat)
  | .exp2 g => some (g, 0)
  | .log2 g => some (g, 1)
  | .rcp g => some (g, 2)
  | .rsqrt g => some (g, 3)
  | .sqrt g => some (g, 4)
  | .sinpi g => some (g, 5)
  | .cospi g => some (g, 6)
  | _ => none

/-- A jump's command, opcode and target (R291, R292): NOP, FENCE and YIELD go on in sequence. -/
def jumpOf : Instr → Option (SheafRef × Nat × (Issue → Nat → Int))
  | .sheafNop g => some (g, 0x00, fun x _ => (x.pc : Int) + 1)
  | .jmp g => some (g, 0x01, fun x i => if x.act.contains i then (x.pc : Int) + 1 + fOffset x.w else (x.pc : Int) + 1)
  | .jmpr g => some (g, 0x02, fun x i => if x.act.contains i then (x.a i 1 : Int) else (x.pc : Int) + 1)
  | .call g => some (g, 0x03, fun x i => if x.act.contains i then (x.pc : Int) + 1 + fOffset x.w else (x.pc : Int) + 1)
  | .yield g => some (g, 0x08, fun x _ => (x.pc : Int) + 1)
  | _ => none

/-- From s to t only the memory system, the values of dictionary objects and what an error record reaches (the system MMUs, the events and
a reset that is due) have changed, and DRAM has kept its canonical form. -/
structure Dev.memStep (s t : Dev) : Prop where
  rest : t = { s with mem := t.mem, obj := t.obj, xl := t.xl, eventLog := t.eventLog, eventsOut := t.eventsOut, resetDue := t.resetDue }
  form : Memory.wf s.mem = true → Memory.wf t.mem = true

/-- A line's home takes a request for it up at once: it is a line of DRAM, of a realm in use if it is a realm's, not under a SCRUB, and no
transaction is open on it nor on all entries of its directory set (R394, R402, R528, R538). -/
def Dev.admits (s : Dev) (t : LineTag) : Prop :=
  okLine t = true ∧ (tagRealm t = true → (s.realmAt (tagSlot t)).active = true) ∧ s.scrubbed (tagPa t) (tagRealm t) = (false, false)
    ∧ s.lineBusy t = false

/-- A caching agent has a request entry for a local access of a line, and none of that line waits for one already (R331, R425, R426). -/
def Dev.entryFor (s : Dev) (a : Agent) (t : LineTag) : Prop :=
  (s.agent a).parked.any (fun e => e.1 = t) = false
    ∧ (s.entryAhead a localNo).length < min (s.entriesFree a t).1 (s.entriesFree a t).2

/-- The epoch that the home of a line gives to the request it takes next (R401). -/
def Dev.nextEpoch (s : Dev) (t : LineTag) : Byte := (s.hub (s.hubOf (tagLoc t))).epoch

/-- The entries of a command queue, and whether it is off or empty, so that it has no next command (R431; log entry 24). -/
def Mmu.cqSize (x : Mmu) : Nat := 2 ^ (x.cqb.toNat % 32 + 1)
def Mmu.cqIdle (x : Mmu) : Bool := !bit x.cqcsr.toNat 0 || x.cqh.toNat % x.cqSize = x.cqt.toNat % x.cqSize

/-- From s to t only the memory system, dictionary values and what an error record reaches have changed. -/
def State.memFrame (s t : State) : Prop := s.toDev.memStep t.toDev ∧ s.sameBeyond t

/-- What passing time itself may change of the dictionary and the queues from s to t: the nanoseconds that the links have stalled (R427), and
the waits that it latches (R125). -/
def State.passing (s t : State) : Prop :=
  (∀ a, (∀ l : LinkId, a ≠ objAddr 0x0A 0x300 l.val) → t.obj! a = s.obj! a) ∧
  ∀ q, t.queue q = { s.queue q with wait0 := (t.queue q).wait0, wait1 := (t.queue q).wait1, brkLatch := (t.queue q).brkLatch }

/-- What the directory records of a line (R404). -/
def Dev.dirSays (s : Dev) (t : LineTag) (st : DirState) (owner : Option Agent) (sharers : List Agent) : Prop :=
  ∃ d, s.dirOf t = some d ∧ d.st = st ∧ d.owner = owner ∧ d.sharers = sharers

/-- A transaction of a line that waits for one agent's answer alone, with nothing held behind it. -/
def Dev.lastAnswer (s : Dev) (t : LineTag) (a : Agent) (ep : Byte) (x : Txn) : Prop :=
  okLine t = true ∧ s.txnOf t = some x ∧ x.epoch = ep ∧ x.awaiting = [a] ∧ x.answer = .none ∧ x.data = none ∧ s.heldOf t = []

/-- From s to t nothing has changed but the memory system and counters. -/
def State.onlyMem (s t : State) : Prop := t = { s with mem := t.mem, obj := t.obj }

/-- The message of a request of a caching agent (R398, R400). -/
def requestMsg (c : Instr) : Option (Agent × LineTag × ReqKind × Msg) :=
  match c with
  | .readShared a t _ => some (a, t, .readShared, .readShared a t)
  | .readOwn a t _ => some (a, t, .readOwn, .readOwn a t)
  | .writeClaim a t => some (a, t, .writeClaim, .writeClaim a t)
  | .upgrade a t _ => some (a, t, .upgrade, .upgrade a t)
  | _ => none

/-- A packet as its link lets it in: a host link writes the host's identity and key into it (R573). -/
def Dev.identified (s : Dev) (l : LinkId) (p : Packet) : Packet :=
  if s.objAt 0x0A 0x102 l.val = 1 then
    { p with src := BitVec.ofNat 16 (s.objAt 0x0A 0x110 l.val), pkey := BitVec.ofNat 12 (s.objAt 0x0A 0x111 l.val) }
  else p

/-- Packet p0 arrives over a link that is up and lets it in, as packet p, and is addressed to this module under a key that is enabled
(R572, R573, R586, R588). -/
structure Dev.reaches (s : Dev) (l : LinkId) (p0 p : Packet) : Prop where
  up : s.linkUp l = true
  short : p0.payload.length ≤ 4096
  admitted : s.objAt 0x0A 0x102 l.val = 1 → p0.ptype = 1 ∨ p0.tc = 0
  seen : p = s.identified l p0
  here : p.dst = s.deviceId
  key : s.keyState p.pkey = .enabled

/-- The receiving end of a packet's flow (R568): one not seen before begins with the packet's epoch and PSN 0. -/
def Dev.rxFlow (s : Dev) (p : Packet) : RxFlow :=
  (s.fab.rxFlows.find? (fun f => f.src = p.src && f.num = p.flow)).getD ⟨p.src, p.flow, p.epoch, 0⟩

/-- Packet p is the next of its flow under the flow's epoch (R568, R569). -/
def Dev.isNext (s : Dev) (p : Packet) : Prop := p.epoch = (s.rxFlow p).epoch ∧ p.psn = (s.rxFlow p).next

/-- The state once the flow has taken packet p in order and its acknowledgement has left an OX die (R568). -/
def Dev.taken (s : Dev) (ox : Nat) (p : Packet) : Dev :=
  let d := s.modFab (fun x => { x with
    rxFlows := x.rxFlows.filter (fun g => !(g.src = p.src && g.num = p.flow)) ++ [{ s.rxFlow p with next := (s.rxFlow p).next + 1 }] })
  let a := mkPacket 0x20 0 p.pkey p.src 0
  d.emit ox { a with src := s.deviceId, flow := p.flow, epoch := p.epoch, psn := p.psn }

/-- The state in which a request packet that has just been taken is performed: it alone is accepted. -/
def Dev.serving (s : Dev) (ox : Nat) (p : Packet) : Dev := (s.taken ox p).modFab (fun f => { f with accepted := [{ die := oxDie ox, packet := p }] })

/-- The command of a packet that arrives over a link, and the packet type it is for (R567). -/
def packetOf : Instr → Option (LinkId × Packet × BitVec 6)
  | .hostCompletion l p => some (l, p, 0x02)
  | .remoteReadRequest l p => some (l, p, 0x08)
  | .remoteReadResponse l p => some (l, p, 0x09)
  | .remoteWrite l p => some (l, p, 0x0A)
  | .remoteWriteAck l p => some (l, p, 0x0B)
  | .remoteAtomic l p => some (l, p, 0x0C)
  | .collectiveData l p => some (l, p, 0x10)
  | .collectiveGrant l p => some (l, p, 0x11)
  | .transportAck l p => some (l, p, 0x20)
  | .unreachableNotice l p => some (l, p, 0x21)
  | _ => none

/-- The power manager's levels keep to their ranges: ceilings at most OP7, throttles at most 240 of 256 steps (R630), and every run of
windows or ticks short of the length at which it acts and starts afresh (R624, R629). -/
structure State.powerKept (s : State) : Prop where
  moduleCeil : s.pow.moduleCeil ≤ 7
  thermCeil : ∀ d, s.pow.therm d ≤ 7
  common : s.thr.common ≤ 240
  rail : ∀ k, Table.get 0 s.thr.rail k ≤ 240
  therm : ∀ d, Table.get 0 s.thr.therm d ≤ 240
  overRun : s.pow.overRun < 50
  underRun : s.pow.underRun < 1000
  coolRun : ∀ d, Table.get 0 s.pow.coolRun d < 10
  history : s.pow.history.length ≤ 1000

end Sys2Proof.Machine
end

