-- ==== Sys2Proof/Certificates/Slice0/Obligations.lean ====
section
/-! DEFINITION. Certificates/Slice0/Obligations.lean: the statements for the provers. -/

open Sys2Proof Sys2Proof.Machine

/-- A step with a command in front takes it and runs it on the state with the queue's rest. Every command of the table completes, whatever its
operands and the state: none is stopped by a fault or a refusal, for the spec gives each its effect. -/
def Obligations.StepRunsFront : Prop :=
  (∀ (c : Instr) (rest : List Instr) (s : State), s.pending = c :: rest → step s = exec c { s with pending := rest }) ∧
  ∀ (c : Instr) (s : State), ∃ t, exec c s = .next t

/-- R34, R35, R38, R40 to R42, R630: a step_window length in range is read from then on and taken at the next boundary, and one out of range changes
nothing; WINDOW_END publishes the rate objects of every die in service as one set from its counts, the effective rate below the monitor's only
for a die that was throttled (R38), and its throttle_fraction at most 240 (R630), and begins the next window; a write sets step_rate_lowest to
0xFFFF_FFFF. The bound 0xFFFF_FFFF and the fraction of a monitor count of 0 are the model's choice (log entry 45). -/
def Obligations.StepRateWindows : Prop :=
  (∀ (v : U32) (s : State),
    (¬(100000 ≤ v.toNat ∧ v.toNat ≤ 100000000) → exec (.stepWindowWrite v) s = .next s) ∧
    (100000 ≤ v.toNat → v.toNat ≤ 100000000 → ∃ t, exec (.stepWindowWrite v) s = .next t
      ∧ t.objAt 0x0B 0x103 0 = v.toNat ∧ t.windows = { s.windows with next := some v.toNat }
      ∧ t = { s with obj := t.obj, windows := t.windows }
      ∧ ∀ a, a ≠ objAddr 0x0B 0x103 0 → t.obj! a = s.obj! a)) ∧
  (∀ (w : Windows),
    (w.next = none → w.roll.start = w.stop ∧ w.roll.len = w.len ∧ w.roll.stop = w.stop + BitVec.ofNat 64 w.len) ∧
    (∀ n, w.next = some n → 0 < n → w.stop.toNat + 2 * n < 2 ^ 64 →
      w.roll.start = w.stop ∧ w.roll.len = n ∧ w.roll.next = none ∧ w.roll.stop.toNat % n = 0
        ∧ w.stop.toNat + n ≤ w.roll.stop.toNat ∧ w.roll.stop.toNat < w.stop.toNat + 2 * n)) ∧
  (∀ (counts : List StepCount) (s : State), ∃ t, exec (.windowEnd counts) s = .next t ∧ t.windows = s.windows.roll
      ∧ t = { s with now := t.now, obj := t.obj, windows := t.windows, thr := t.thr, shf := { s.shf with steps := t.shf.steps },
                     cmd := { s.cmd with queues := t.cmd.queues } }
      ∧ t.now.toNat = max s.now.toNat s.windows.stop.toNat
      ∧ (∀ d : Die, Table.get false t.thr.inWindow d.val = true ↔ 0 < s.throttle d.val)
      ∧ ∀ d : Die, s.inService d.val = true →
        let c := countOf counts d
        let len := max (s.windows.stop.toNat - s.windows.start.toNat) 1
        let issued := if Table.get false s.thr.inWindow c.die.val then max (min c.issued c.monitor) (c.monitor - c.monitor * 240 / 256) else c.monitor
        t.objAt 0x0B 0x100 d.val = min (issued * 1000000 / len) 0xFFFFFFFF
          ∧ t.objAt 0x0B 0x101 d.val = min (c.monitor * 1000000 / len) 0xFFFFFFFF
          ∧ t.objAt 0x0B 0x102 d.val = min (s.objAt 0x0B 0x102 d.val) (t.objAt 0x0B 0x100 d.val)
          ∧ t.objAt 0x0B 0x104 d.val = s.windows.stop.toNat
          ∧ t.objAt 0x0B 0x105 d.val = (if c.monitor = 0 then 0 else (c.monitor - issued) * 256 / c.monitor)
          ∧ t.objAt 0x0B 0x105 d.val ≤ 240) ∧
  (∀ (d : Die) (v : U32) (s : State), ∃ t, exec (.stepRateLowestWrite d v) s = .next t
    ∧ t.objAt 0x0B 0x102 d.val = 0xFFFFFFFF ∧ t = { s with obj := t.obj } ∧ ∀ a, a ≠ objAddr 0x0B 0x102 d.val → t.obj! a = s.obj! a)

/-- R108, R112: start, stop, detach and abort from the states listed for them, and no effect in any other state; a queue that starts without a
buffer, and with no push that is still being read, takes the oldest of its submit list. -/
def Obligations.QueueCommands : Prop :=
  ∀ (q : QueueId) (s : State),
    let x := s.queue q
    ((x.state = .idle ∨ x.state = .stopped) → ∃ t, exec (.start q) s = .next t ∧ (t.queue q).state = .running
        ∧ (t.queue q).reason = 0 ∧ (t.queue q).issued = 0 ∧ (t.queue q).loops = x.loops) ∧
    ((x.state = .idle ∨ x.state = .stopped) → x.pushes = [] → ∃ t, exec (.start q) s = .next t ∧ (t.queue q).state = .running
        ∧ (t.queue q).reason = 0 ∧ (t.queue q).issued = 0 ∧ (t.queue q).loops = x.loops ∧ s.onlyQueue t q
        ∧ ((x.cur ≠ none ∨ x.submits = []) → (t.queue q).head = x.head ∧ (t.queue q).cur = x.cur ∧ (t.queue q).submits = x.submits)
        ∧ (∀ b l, x.cur = none → x.submits = b :: l → (t.queue q).head = 0 ∧ (t.queue q).cur = some b ∧ (t.queue q).submits = l)) ∧
    (¬(x.state = .idle ∨ x.state = .stopped) → exec (.start q) s = .next s) ∧
    (x.state = .running → ∃ t, exec (.stop q) s = .next t
        ∧ (t.queue q).state = (if s.running q = [] then .idle else .draining) ∧ (t.queue q).fetched = none ∧ (t.queue q).slot = none
        ∧ (t.queue q).issued = x.issued ∧ (t.queue q).head = x.head ∧ t.cmd.ops = s.cmd.ops) ∧
    (x.state ≠ .running → exec (.stop q) s = .next s) ∧
    ((x.state = .running ∨ x.state = .draining) → (∀ o ∈ s.running q, o.begun = false) → ∃ t, exec (.abort q) s = .next t
        ∧ t.stopsWith q 7 ∧ (∀ o ∈ t.running q, o.status ≠ 0) ∧ ∀ q2, q2 ≠ q → t.queue q2 = s.queue q2) ∧
    (¬(x.state = .running ∨ x.state = .draining) → exec (.abort q) s = .next s) ∧
    ((x.state = .idle ∨ x.state = .stopped) → ∃ t, exec (.detach q) s = .next t ∧ (t.queue q).state = .detached ∧ (t.queue q).cur = none
        ∧ (t.queue q).submits = [] ∧ (t.queue q).pushes = [] ∧ (t.queue q).loops = [] ∧ ∀ q2, q2 ≠ q → t.queue q2 = s.queue q2) ∧
    (¬(x.state = .idle ∨ x.state = .stopped) → exec (.detach q) s = .next s)

/-- R747, R529: an attach in state detached, once its system MMU has read the address space's context, goes to idle where the queue's class is
its index's, its asid names a valid context that is not terminated and whose realm, if it has one, is active, and its unit and sheaf_mask fit
the class; else it leaves the queue detached with reason 0x03. In any other state it is ignored (R108), and none is taken before boot has
released the engines (log entry 31). -/
def Obligations.AttachChecks : Prop :=
  ∀ (q : QueueId) (s : State), ¬(1 ≤ s.objAt 0x0C 0x400 0 ∧ s.objAt 0x0C 0x400 0 ≤ 3) →
    let x := s.queue q
    let u := s.toDev.ctxRead (mmuOf (homeDie q)) x.asid.toNat
    let attaches : Prop := ∃ t, exec (.attach q) s = .next t ∧ t.queue q = { x with state := .idle } ∧ ∀ q2, q2 ≠ q → t.queue q2 = s.queue q2
    let unitFits : Prop := (queueClass q = 2 → bits x.unit.toNat 11 8 = 0 ∧ x.sheafMask = 0 ∧ (x.channel = 0xFF ∨ (channelExists x.channel = true
        ∧ ∀ e ∈ s.cmd.queues, ∀ h : e.1 < 2048, e.1 ≠ q.val → homeDie ⟨e.1, h⟩ = homeDie q → e.2.channel = x.channel → e.2.state = .detached)))
      ∧ (queueClass q = 3 → x.unit = 0 ∧ x.sheafMask = 0)
    let spaceFits : Prop := ∃ c, u.ctx (mmuOf (homeDie q)) x.asid.toNat = some c ∧ c.term = false
      ∧ (c.realmEn = true → (u.realmAt c.realmSlot).active = true)
    (x.state ≠ .detached → exec (.attach q) s = .next s) ∧
    (x.state = .detached → x.cls.toNat = queueClass q → unitFits → spaceFits → attaches) ∧
    (x.state = .detached → ¬(x.cls.toNat = queueClass q ∧ unitFits ∧ spaceFits) → ∃ t, exec (.attach q) s = .next t
      ∧ t.queue q = { x with reason := 3 } ∧ (∀ q2, q2 ≠ q → t.queue q2 = s.queue q2) ∧ t.cmd = { s.cmd with queues := t.cmd.queues })

/-- R109 to R113: a push of handle 0 changes nothing; an accepted push appends its buffer and binds its region once, and a running queue without
a buffer takes it up; a bad one and one to a full list set their flags; one whose descriptor or region is still being read is kept; a write of
head takes effect in idle and stopped only, up to cur_len, clears the loop stack, and at cur_len takes the next buffer. -/
def Obligations.PushAndHead : Prop :=
  (∀ (q : QueueId) (s : State), exec (.submitPush q 0) s = .next s) ∧
  (∀ (q : QueueId) (h : U16) (s : State), h ≠ 0 → (s.queue q).pushes = [] →
    let x := s.queue q
    let bad : Prop := ∃ t, exec (.submitPush q h) s = .next t ∧ t.queue q = { x with submitBad := true } ∧ ∀ q2, q2 ≠ q → t.queue q2 = s.queue q2
    (x.state = .detached → bad) ∧
    (x.state ≠ .detached → (s.pushedBuffer q h.toNat).2 = .ok none → bad) ∧
    (∀ r a, x.state ≠ .detached → (s.pushedBuffer q h.toNat).2 = .fail r a → bad) ∧
    (x.state ≠ .detached → (s.pushedBuffer q h.toNat).2 = .wait → ∃ t, exec (.submitPush q h) s = .next t
      ∧ t.queue q = { x with pushes := [h.toNat] } ∧ ∀ q2, q2 ≠ q → t.queue q2 = s.queue q2) ∧
    (∀ b base pages, x.state ≠ .detached → (s.pushedBuffer q h.toNat).2 = .ok (some (b, base, pages)) →
      (65535 ≤ s.binds x.asid.toNat b.region → bad) ∧
      (s.binds x.asid.toNat b.region < 65535 → 8 ≤ x.submits.length → ∃ t, exec (.submitPush q h) s = .next t
        ∧ t.queue q = { x with submitOvf := true } ∧ t.binds x.asid.toNat b.region = s.binds x.asid.toNat b.region) ∧
      (s.binds x.asid.toNat b.region < 65535 → x.submits.length < 8 → ∃ t, exec (.submitPush q h) s = .next t
        ∧ t.binds x.asid.toNat b.region = s.binds x.asid.toNat b.region + 1
        ∧ (¬(x.state = .running ∧ x.cur = none) → t.queue q = { x with submits := x.submits ++ [b] })
        ∧ (x.state = .running → x.cur = none → (t.queue q).cur = (x.submits ++ [b]).head? ∧ (t.queue q).submits = (x.submits ++ [b]).tail
            ∧ (t.queue q).head = 0 ∧ (t.queue q).state = .running)))) ∧
  (∀ (q : QueueId) (h : U16) (s : State) (p : Nat) (l : List Nat), h ≠ 0 → (s.queue q).pushes = p :: l → p ≠ 0 →
    (s.queue q).state ≠ .detached → (s.pushedBuffer q p).2 = .wait → ∃ t, exec (.submitPush q h) s = .next t
      ∧ t.queue q = { s.queue q with pushes := p :: l ++ [h.toNat] } ∧ ∀ q2, q2 ≠ q → t.queue q2 = s.queue q2) ∧
  (∀ (q : QueueId) (v : U32) (s : State),
    let x := s.queue q
    (((x.state = .idle ∨ x.state = .stopped) ∧ v.toNat ≤ (x.cur.map Buffer.len).getD 0) →
      (x.pastEnd v.toNat = false → ∃ t, exec (.headWrite q v) s = .next t
        ∧ t.queue q = { x with head := v, loops := [], skipDepth := none } ∧ s.onlyQueue t q) ∧
      (x.pastEnd v.toNat = true → ∃ t, exec (.headWrite q v) s = .next t ∧ (t.queue q).head = 0 ∧ (t.queue q).loops = []
        ∧ (t.queue q).cur = x.submits.head? ∧ (t.queue q).submits = x.submits.tail ∧ (t.queue q).state = x.state
        ∧ ∀ q2, q2 ≠ q → t.queue q2 = s.queue q2)) ∧
    (¬((x.state = .idle ∨ x.state = .stopped) ∧ v.toNat ≤ (x.cur.map Buffer.len).getD 0) → exec (.headWrite q v) s = .next s))

/-- R112, R120, R147, R148, R151 to R153: what each control instruction leaves of its queue, which past the last instruction of its buffer has
the next one; without a signal, within its buffer, and but for SYNC, it changes nothing else. -/
def Obligations.ControlInstructions : Prop :=
  ∀ (q : QueueId) (s : State) (w : BitVec 256), s.headReady q w →
    let x := s.queue q
    let h := x.handles w
    let n := x.head.toNat + 1
    let frame (t : State) (n : Nat) : Prop := (sigKind (iSignal w) = 0 → x.pastEnd n = false → s.onlyQueue t q) ∧ t.cmd.ops = s.cmd.ops ∧ s.sameBeyond t
    (iOpcode w = 0x00 → ∃ t, exec (.nop q) s = .next t ∧ (t.queue q).follows (x.headAt n) ∧ frame t n) ∧
    (iOpcode w = 0x02 → ∀ l rest, x.loops = l :: rest →
      (l.index + 1 < l.count → ∃ t, exec (.endloop q) s = .next t ∧ frame t l.body
        ∧ (t.queue q).follows ({ x with loops := { l with index := l.index + 1 } :: rest }.headAt l.body)) ∧
      (l.count ≤ l.index + 1 → ∃ t, exec (.endloop q) s = .next t ∧ frame t n ∧ (t.queue q).follows ({ x with loops := rest }.headAt n))) ∧
    (iOpcode w = 0x03 → ∀ l rest, x.loops = l :: rest → ∃ t, exec (.brk q) s = .next t ∧ frame t n
      ∧ ((bit (iParam w) 0 = false ∨ x.brkLatch = true) → (t.queue q).follows ({ x with loops := rest, skipDepth := some 0 }.headAt n))
      ∧ (bit (iParam w) 0 = true → x.brkLatch = false → (t.queue q).follows (x.headAt n))) ∧
    (iOpcode w = 0x04 → ∃ t, exec (.phase q) s = .next t
      ∧ (t.queue q).follows ({ x with phase := BitVec.ofNat 4 (iParam w) }.headAt n) ∧ frame t n) ∧
    (iOpcode w = 0x05 → ∃ t, exec (.settime q) s = .next t ∧ frame t n
      ∧ (iParam w = 0 → (t.queue q).follows ({ x with tref := s.now }.headAt n))
      ∧ (iParam w = 1 → (t.queue q).follows ({ x with tref := BitVec.ofNat 64 (absoluteTime h) }.headAt n))) ∧
    (iOpcode w = 0x06 → ∃ t, exec (.sync q) s = .next t ∧ (t.queue q).follows (x.headAt n) ∧ t.cmd.ops = s.cmd.ops
      ∧ (sigKind (iSignal w) = 0 → x.signals = [] → s.running q = [] →
          (iParam w = 0 → t.flag (h.getD 0 0) (h.getD 1 0) = true) ∧ (iParam w = 1 → t.flag (h.getD 0 0) (h.getD 1 0) = false)
          ∧ (iParam w = 2 → t.counter (h.getD 0 0) (h.getD 1 0) = BitVec.ofNat 32 (h.getD 2 0 + h.getD 3 0 * 65536))
          ∧ (iParam w = 3 → t.pcounter (h.getD 1 0) = BitVec.ofNat 32 (h.getD 2 0 + h.getD 3 0 * 65536)))) ∧
    (iOpcode w = 0x07 → ∃ t, exec (.halt q) s = .next t ∧ frame t n ∧ (t.queue q).head = (x.headAt n).head
      ∧ ((x.pastEnd n = false ∨ (x.loops = [] ∧ x.skipDepth = none)) → t.stopsWith q (if iStop w then 0x11 else 0x12))
      ∧ (x.pastEnd n = true → (x.loops ≠ [] ∨ x.skipDepth ≠ none) → t.stopsWith q 0x0B)) ∧
    (iOpcode w = 0x00 → iStop w = true → (x.pastEnd n = false ∨ (x.loops = [] ∧ x.skipDepth = none)) →
      ∃ t, exec (.nop q) s = .next t ∧ t.stopsWith q 0x11)

/-- R143 to R145, R149, R150: LOOP captures its count, skips its body for a count of 0, and stops its queue at depth 4 or past the
largest count; an ENDLOOP or BREAK outside a loop, or a buffer that ends inside a loop, stops the queue with reason 0x0B. -/
def Obligations.Loops : Prop :=
  (∀ (q : QueueId) (s : State) (w : BitVec 256), s.headReady q w → iOpcode w = 0x01 →
    let x := s.queue q
    let h := x.handles w
    let n := x.head.toNat + 1
    (4 ≤ x.loops.length → ∃ t, exec (.loop q) s = .next t ∧ t.stopsWith q 0x09 ∧ (t.queue q).head = x.head) ∧
    (iParam w = 0 → (s.latch q).loopCount q x w = (s.latch q, .ok (h.getD 0 0 + h.getD 1 0 % 256 * 65536))) ∧
    (iParam w = 1 → (s.latch q).loopCount q x w = (s.latch q, .ok (s.counter (homeDie q).val (h.getD 0 0)).toNat)) ∧
    (iParam w = 2 → (s.latch q).loopCount q x w = (s.latch q, .ok (s.pcounter (h.getD 0 0)).toNat)) ∧
    (∀ k, x.loops.length < 4 → ((s.latch q).loopCount q x w).2 = .ok k →
      (k = 0 → ∃ t, exec (.loop q) s = .next t ∧ (t.queue q).follows ({ x with skipDepth := some 0 }.headAt n)) ∧
      (0 < k → k ≤ 16777215 → ∃ t, exec (.loop q) s = .next t ∧ (t.queue q).follows ({ x with loops := ⟨n, k, 0⟩ :: x.loops }.headAt n)) ∧
      (16777215 < k → ∃ t, exec (.loop q) s = .next t ∧ t.stopsWith q 0x0A ∧ (t.queue q).head = x.head)) ∧
    (x.loops.length < 4 → ((s.latch q).loopCount q x w).2 = .invalid → ∃ t, exec (.loop q) s = .next t ∧ t.stopsWith q 0x02)) ∧
  (∀ (q : QueueId) (s : State) (w : BitVec 256), s.headReady q w →
    ((s.queue q).loops = [] → iOpcode w = 0x02 → ∃ t, exec (.endloop q) s = .next t ∧ t.stopsWith q 0x0B) ∧
    ((s.queue q).loops = [] → iOpcode w = 0x03 → ∃ t, exec (.brk q) s = .next t ∧ t.stopsWith q 0x0B) ∧
    ((s.queue q).loops ≠ [] → iOpcode w = 0x00 → (s.queue q).pastEnd ((s.queue q).head.toNat + 1) = true →
      ∃ t, exec (.nop q) s = .next t ∧ t.stopsWith q 0x0B ∧ (t.queue q).loops = (s.queue q).loops))

/-- R105, R112, R124, R135, R171: an instruction that is ready, with a slot and an executor that accepts it, issues: it takes the next ordinal,
counts in issued and leaves the head; issued at stop_after, its queue issues nothing further. -/
def Obligations.IssueTakesOrdinal : Prop :=
  ∀ (c : Instr) (q : QueueId) (code : Nat) (w : BitVec 256) (slot : SlotId) (s : State), issueOf c = some (q, code) →
    iOpcode w = code → s.headReady q w → s.slotFor q = some slot → s.executorAccepts q code = true →
    let x := s.queue q
    let n := x.head.toNat + 1
    ∃ t, exec c s = .next t ∧ (t.queue q).issued = x.issued + 1 ∧ (t.queue q).head = (x.headAt n).head
      ∧ (t.queue q).fetched = none ∧ s.sameBeyond t
      ∧ (x.pastEnd n = false → (t.queue q).state = (if x.stopAfter ≠ 0 ∧ x.stopAfter = x.issued + 1 then .draining else .running))
      ∧ ∃ o ∈ t.cmd.ops, o.slot = slot ∧ o.queue = q ∧ o.word = w ∧ o.ordinal = (x.issued + 1).toNat
          ∧ o.index = x.head.toNat ∧ o.phase = x.phase ∧ o.begun = false ∧ o.status = 0

/-- R112, R117, R122, R145, R148, R752: the instruction at head is read; one that may be performed stands at head, one that a loop skips is
passed, and any other stops its queue with its reason or, if it is journal-consuming, ends aborted with it. A running queue without a buffer
reads nothing. Pushes of the queue that are still being read go on first (R111): here there is none. -/
def Obligations.InstructionFetched : Prop :=
  ∀ (q : QueueId) (s : State),
    let x := s.queue q
    x.state = .running → x.fetched = none → x.pushes = [] →
    (∀ b bytes, x.cur = some b → x.head.toNat < b.len →
      (s.readVa (s.cmdPort q) (b.base + 32 * x.head.toNat) 32).2 = .ok bytes →
      let w : BitVec 256 := BitVec.ofNat 256 (leNat bytes)
      let r := headFault q x w
      (x.skipDepth = none → r = 0 → ∃ t, exec (.instructionFetch q) s = .next t ∧ (t.queue q).fetched = some w ∧ (t.queue q).head = x.head
        ∧ (t.queue q).state = .running ∧ (t.queue q).issued = x.issued ∧ t.cmd.ops = s.cmd.ops) ∧
      (x.skipDepth = none → r ≠ 0 → consuming w = false →
        ∃ t, exec (.instructionFetch q) s = .next t ∧ t.stopsWith q (BitVec.ofNat 8 r) ∧ (t.queue q).head = x.head) ∧
      (x.skipDepth = none → r ≠ 0 → consuming w = true →
        (∀ slot, s.slotFor q = some slot → ∃ t, exec (.instructionFetch q) s = .next t ∧ (t.queue q).issued = x.issued + 1
          ∧ ∃ o ∈ t.cmd.ops, o.slot = slot ∧ o.queue = q ∧ o.word = w ∧ o.begun = false ∧ o.status = 5 ∧ o.reason = r) ∧
        (s.slotFor q = none → ∃ t, exec (.instructionFetch q) s = .next t ∧ (t.queue q).fetched = some w
          ∧ (t.queue q).endUnperformed = some (BitVec.ofNat 8 r, 5) ∧ (t.queue q).head = x.head ∧ t.cmd.ops = s.cmd.ops)) ∧
      (∀ n, x.skipDepth = some n → ∃ t, exec (.instructionFetch q) s = .next t
        ∧ (t.queue q).follows ({ x with skipDepth := skipAfter w n }.headAt (x.head.toNat + 1)) ∧ t.cmd.ops = s.cmd.ops)) ∧
    (∀ b r a, x.cur = some b → x.head.toNat < b.len → (s.readVa (s.cmdPort q) (b.base + 32 * x.head.toNat) 32).2 = .fail r a →
      ∃ t, exec (.instructionFetch q) s = .next t ∧ t.stopsWith q (BitVec.ofNat 8 r) ∧ (t.queue q).head = x.head) ∧
    (x.cur = none → x.submits = [] → exec (.instructionFetch q) s = .next s)

/-- R172, R181: a free slot goes to the waiting queue whose turn it is, the first after the one served last; a release of a slot that is not
allocated and terminal only sets release_err, and one that is frees it for the queue whose turn it is. -/
def Obligations.JournalSlots : Prop :=
  (∀ (s : State) (q : QueueId), s.slotWaiter = some q → s.wantsSlot q = true ∧ ∀ q2, s.wantsSlot q2 = true →
    (q.val + 2047 - s.cmd.journal.lastQueue) % 2048 ≤ (q2.val + 2047 - s.cmd.journal.lastQueue) % 2048) ∧
  (∀ (s : State) (q : QueueId) (slot : SlotId) (w : BitVec 256), s.slotWaiter = some q → slot ∉ s.cmd.journal.allocated →
    (s.queue q).fetched = some w → (s.queue q).endUnperformed = none → ∃ t, exec (.journalSlotAllocate slot) s = .next t
      ∧ t.queue q = { s.queue q with slot := some slot, slotWait := false }
      ∧ t.cmd.journal.allocated = s.cmd.journal.allocated ++ [slot] ∧ t.cmd.journal.lastQueue = q.val
      ∧ Table.get none t.cmd.journal.entries slot.val = some { ({} : Entry) with
          index := (s.queue q).head, ordinal := (s.queue q).issued + 1, queue := q, opcode := BitVec.ofNat 8 (iOpcode w),
          phase := (s.queue q).phase, job := s.jobOf q }
      ∧ t = { s with cmd := { s.cmd with queues := t.cmd.queues, journal := t.cmd.journal } }) ∧
  (∀ (s : State) (slot : SlotId), ¬(slot ∈ s.cmd.journal.allocated ∧ slot ∈ s.cmd.journal.terminal) →
    exec (.journalRelease slot) s = .next { s with cmd := { s.cmd with journal := { s.cmd.journal with releaseErr := true } } }) ∧
  (∀ (s : State) (slot : SlotId), slot ∈ s.cmd.journal.allocated → slot ∈ s.cmd.journal.terminal →
    (s.slotWaiter = none → ∃ t, exec (.journalRelease slot) s = .next t
      ∧ slot ∉ t.cmd.journal.allocated ∧ slot ∉ t.cmd.journal.terminal ∧ Table.get none t.cmd.journal.entries slot.val = none
      ∧ t = { s with cmd := { s.cmd with journal := t.cmd.journal } }) ∧
    (∀ q w, s.slotWaiter = some q → (s.queue q).fetched = some w → (s.queue q).endUnperformed = none →
      ∃ t, exec (.journalRelease slot) s = .next t ∧ (t.queue q).slot = some slot ∧ slot ∈ t.cmd.journal.allocated
        ∧ slot ∉ t.cmd.journal.terminal ∧ t.cmd.journal.lastQueue = q.val))

/-- R134: past a non-zero watchdog the instruction at head is not performed: a control instruction stops the queue with reason 0x08, a
journal-consuming one ends aborted with it; before that time nothing happens. -/
def Obligations.WatchdogExpires : Prop :=
  ∀ (q : QueueId) (t0 : U64) (s : State) (w : BitVec 256), (s.queue q).fetched = some w → (s.queue q).state = .running →
    (s.queue q).endUnperformed = none → s.now.toNat ≤ t0.toNat →
    (((s.queue q).watchdog = 0 ∨ t0.toNat ≤ (s.queue q).headSince.toNat + 1000 * (s.queue q).watchdog.toNat) →
      exec (.watchdogExpiry q t0) s = .next s) ∧
    ((s.queue q).watchdog ≠ 0 → (s.queue q).headSince.toNat + 1000 * (s.queue q).watchdog.toNat < t0.toNat →
      (consuming w = false → ∃ t, exec (.watchdogExpiry q t0) s = .next t ∧ t.stopsWith q 0x08 ∧ t.now = t0) ∧
      (consuming w = true →
        (∀ slot, (s.toDev.advance t0).slotFor q = some slot → ∃ t, exec (.watchdogExpiry q t0) s = .next t ∧ t.now = t0
          ∧ (t.queue q).issued = (s.queue q).issued + 1
          ∧ ∃ o ∈ t.cmd.ops, o.slot = slot ∧ o.queue = q ∧ o.word = w ∧ o.begun = false ∧ o.status = 5 ∧ o.reason = 0x08) ∧
        ((s.toDev.advance t0).slotFor q = none → ∃ t, exec (.watchdogExpiry q t0) s = .next t ∧ t.now = t0 ∧ t.cmd.ops = s.cmd.ops
          ∧ (t.queue q).endUnperformed = some (8, 5))))

/-- R133, R161, R174, R335: a LAUNCH whose earlier operations have begun begins: its entry reads running with t_begin, and what it reads makes it
a LAUNCH with its parameters, ends it aborted with reason 0x02, or fails it; while a page or a line of it is not at hand, what it has read is
kept. -/
def Obligations.LaunchBegins : Prop :=
  ∀ (slot : SlotId) (s : State) (o : Operation) (e : Entry), s.op slot = some o → iOpcode o.word = 0x30 → o.begun = false → o.status = 0 →
    (∀ x ∈ s.earlier o.queue slot, x.begun = true ∨ x.status ≠ 0) → Table.get none s.cmd.journal.entries slot.val = some e →
    let o1 : Operation := { o with begun := true, tBegin := s.now, sampled := s.sampleFor o }
    let r := ((s.toDev.beginOp slot id).readLaunch o1).2
    let gives (o2 : Operation) : Prop := ∃ t, exec (.operationBegin slot) s = .next t ∧ t.op slot = some o2
      ∧ Table.get none t.cmd.journal.entries slot.val = some { e with running := true, tBegin := s.now } ∧ s.sameBeyond t
    (∀ l, r = .ok l → gives { o1 with kept := [], body := .launch l }) ∧
    (r = .invalid → ∃ k, gives { o1 with kept := k, status := 5, reason := 2 }) ∧
    (∀ c a, r = .fail c a → o.failed = none → ∃ k, gives { o1 with kept := k, failed := some (failStatus c, c), faultAddr := a }) ∧
    (r = .wait → ∃ k, gives { o1 with kept := k })

/-- R133, R174, R179, R180: the first operation of a queue that has done everything ends: its entry takes the terminal status, counts and
t_end, its completion record takes the next place of the ring, and it is no longer running; one that an earlier operation of its queue precedes,
or that has not done everything, does not end. -/
def Obligations.OperationEnds : Prop :=
  (∀ (slot : SlotId) (s : State) (o : Operation) (e : Entry), s.op slot = some o →
    s.earlier o.queue slot = [] → s.opDone o = true → (s.queue o.queue).slot ≠ some slot →
    Table.get none s.cmd.journal.entries slot.val = some e →
    ∃ t, exec (.operationEnd slot) s = .next t
      ∧ Table.get none t.cmd.journal.entries slot.val = some (terminalEntry e o o.terminal.1 o.terminal.2 s.now)
      ∧ Table.get none t.cmd.journal.ring (s.cmd.journal.compWritten.toNat % 4096)
          = some ⟨BitVec.ofNat 32 o.ordinal, o.queue, BitVec.ofNat 4 o.terminal.1, slot⟩
      ∧ t.cmd.journal.compWritten = s.cmd.journal.compWritten + 1 ∧ slot ∈ t.cmd.journal.terminal ∧ t.op slot = none
      ∧ s.sameBeyond t) ∧
  (∀ (slot : SlotId) (s : State) (o : Operation), s.op slot = some o → (s.earlier o.queue slot ≠ [] ∨ s.opDone o = false) →
    exec (.operationEnd slot) s = .next s)

/-- R116, R127, R129 to R131, R133: a signal that is due is performed, in its queue's order, and one that is not due is not. -/
def Obligations.SignalPerformed : Prop :=
  ∀ (q : QueueId) (s : State),
    (s.dueSignal q = none → exec (.signal q) s = .next s) ∧
    (∀ g rest, (s.queue q).signals = g :: rest → s.running q = [] → (exec (.signal q) s = .next s ↔ g.ready = false) ∧
      (g.ready = true → g.sync = false → ∃ t, exec (.signal q) s = .next t ∧ (t.queue q).signals = rest ∧ t.cmd.ops = s.cmd.ops
        ∧ (g.kind = 1 → t.flag g.die g.index = true) ∧ (g.kind = 2 → t.flag g.die g.index = false)
        ∧ (g.kind = 3 → t.counter g.die g.index = s.counter g.die g.index + BitVec.ofNat 32 g.add)
        ∧ (g.kind = 4 → t.pcounter g.index = s.pcounter g.index + BitVec.ofNat 32 g.add)))

/-- R139, R746: what each core access to a flag word and to a counter word does and returns; the others leave it unchanged with an access
error. -/
def Obligations.CoreWords : Prop :=
  (∀ (d : Die) (i : Fin 512) (a : CoreAccess) (s : State),
    let old := s.flag d.val i.val
    (a.op = .load → exec (.flagStore d i a) s
      = .next { s with reply := some (.value (BitVec.ofNat 64 (b2n old / 256 ^ a.off.val % 256 ^ a.size))) }) ∧
    ((a.op = .lr ∨ a.op = .sc) → exec (.flagStore d i a) s = .next { s with reply := some .accessError }) ∧
    (a.op = .store → a.off ≠ 0 → exec (.flagStore d i a) s = .next { s with reply := some (.value 0) }) ∧
    (a.off = 0 → a.op ≠ .load → a.op ≠ .lr → a.op ≠ .sc → ∃ t, exec (.flagStore d i a) s = .next t
      ∧ (a.op ≠ .store → t.reply = some (.value (BitVec.ofNat 64 (b2n old))))
      ∧ ((a.op = .store ∨ a.op = .amoSwap) → t.flag d.val i.val = a.value.getLsbD 0)
      ∧ (a.op = .amoAdd ∨ a.op = .amoXor → t.flag d.val i.val = xor old (a.value.getLsbD 0))
      ∧ (a.op = .amoAnd → t.flag d.val i.val = (old && a.value.getLsbD 0)) ∧ (a.op = .amoOr → t.flag d.val i.val = (old || a.value.getLsbD 0))
      ∧ (∀ d2 i2 : Nat, i2 < 512 → (d2 ≠ d.val ∨ i2 ≠ i.val) → t.flag d2 i2 = s.flag d2 i2)
      ∧ t = { s with cmd := { s.cmd with queues := t.cmd.queues, flags := t.cmd.flags }, reply := t.reply })) ∧
  (∀ (c : CounterRef) (a : CoreAccess) (s : State),
    let old := s.counterOf c
    let wide := a.off = 0 ∧ (a.size = 4 ∨ a.size = 8)
    (a.op = .load → exec (.counterStore c a) s
      = .next { s with reply := some (.value (BitVec.ofNat 64 (old.toNat / 256 ^ a.off.val % 256 ^ a.size))) }) ∧
    (a.op = .store → wide → ∃ t, exec (.counterStore c a) s = .next t ∧ t.counterOf c = a.value.setWidth 32
      ∧ t = { s with cmd := { s.cmd with queues := t.cmd.queues, counters := t.cmd.counters, pcounters := t.cmd.pcounters }, reply := t.reply }) ∧
    (wide → ∃ t, exec (.counterAmoadd c a) s = .next t ∧ t.counterOf c = old + a.value.setWidth 32
      ∧ t.reply = some (.value (BitVec.ofNat 64 old.toNat))
      ∧ t = { s with cmd := { s.cmd with queues := t.cmd.queues, counters := t.cmd.counters, pcounters := t.cmd.pcounters }, reply := t.reply }) ∧
    (a.op ≠ .load → a.op ≠ .store → a.op ≠ .amoAdd → exec (.counterStore c a) s = .next { s with reply := some .accessError }) ∧
    (a.op = .store → ¬wide → exec (.counterStore c a) s = .next { s with reply := some .accessError }) ∧
    (¬wide → exec (.counterAmoadd c a) s = .next { s with reply := some .accessError }))

/-- R125 to R127: package time reaches the earliest time that a running queue's instruction waits for, and its wait latches; the update of a
counter or flag latches every wait that it lets hold, and a latched wait stays latched. -/
def Obligations.WaitsLatch : Prop :=
  (∀ (q : QueueId) (s : State) (w : BitVec 256), (s.queue q).state = .running → (s.queue q).fetched = some w → isTestedBreak w = false →
    (s.queue q).wait0 = false → (s.queue q).wait1 = true → waitKind (iWait0 w) = 5 →
    (s.queue q).tref.toNat + waitOffset (iWait0 w) < 2 ^ 64 →
    ∃ t, exec (.packageTimeReached q) s = .next t ∧ (t.queue q).wait0 = true ∧ (t.queue q).wait1 = true
      ∧ t.now.toNat = max s.now.toNat ((s.queue q).tref.toNat + waitOffset (iWait0 w))
      ∧ t = { s with now := t.now, obj := t.obj, cmd := { s.cmd with queues := t.cmd.queues } }) ∧
  (∀ (d : Die) (i : Fin 512) (v : Bool) (s : Dev) (q : QueueId) (w : BitVec 256), (s.queue q).state = .running →
    (s.queue q).fetched = some w → isTestedBreak w = false →
    let t := s.updateFlag d.val i.val v
    ((s.queue q).wait0 = true → (t.queue q).wait0 = true) ∧
    ((t.waitHolds (s.queue q).tref (iWait0 w) = true) → (t.queue q).wait0 = true) ∧
    ((t.queue q).wait0 = true → (s.queue q).wait0 = true ∨ t.waitHolds (s.queue q).tref (iWait0 w) = true))

/-- R31, R217, R218, R269, R270: a monitor step falls in exactly one of the six step counters of its mill and in exactly one of the first five
of its chain engine; a throttled step does nothing else, and any other advances the mill's array, whose freed slots its thresher begins to fill;
it changes no other mill and no memory. -/
def Obligations.MonitorStepCountsOnce : Prop :=
  ∀ (m : MillId) (throttled : Bool) (s : State), ∃ t, exec (.millStep m throttled) s = .next t
    ∧ (∃ i, 0x100 ≤ i ∧ i ≤ 0x105 ∧ ((throttled = true ∧ 0 < s.throttle (millDie m).val) ↔ i = 0x104)
        ∧ (∀ j, 0x100 ≤ j → j ≤ 0x105 → t.objAt 2 j m.val = if j = i then (s.objAt 2 j m.val + 1) % 2 ^ 64 else s.objAt 2 j m.val))
    ∧ (∃ i, 0x100 ≤ i ∧ i ≤ 0x104
        ∧ (∀ j, 0x100 ≤ j → j ≤ 0x104 → t.objAt 3 j m.val = if j = i then (s.objAt 3 j m.val + 1) % 2 ^ 64 else s.objAt 3 j m.val))
    ∧ (throttled = true → 0 < s.throttle (millDie m).val → t.mill m = s.mill m)
    ∧ (throttled = false ∨ s.throttle (millDie m).val = 0 →
        { t.mill m with filling := (s.arrayStep m).1.filling, nextK := (s.arrayStep m).1.nextK } = (s.arrayStep m).1)
    ∧ (∀ n, n ≠ m → t.mill n = s.mill n)
    ∧ t = { s with obj := t.obj, cmd := { s.cmd with mills := t.cmd.mills } }

/-- R198, R210, R211, R214, R215, R331, R332: a slot whose every byte is held is handed to its mill, or its operation fails, and the first
failure stands; a thresher keeps what it holds and waits for at most 512 lines; a finished result waits while both curd entries are full, and
else leaves the array; while no chain engine of the die is free to take an entry, it is the last of its mill's curd queue. -/
def Obligations.ThresherUnits : Prop :=
  (∀ (m : MillId) (s : State), (s.mill m).fill = none → exec (.slotFillComplete m) s = .next s) ∧
  (∀ (m : MillId) (s : State) (j : TileJob) (o : Operation) (x : MillOp), (s.mill m).fill = some j → s.op j.slot = some o → o.body = .mill x →
    ((s.mill m).filling = [] → x.slots ≤ (s.mill m).slots.length → ∃ t, exec (.slotFillComplete m) s = .next t
      ∧ (t.mill m).slots = (s.mill m).slots ∧ (t.mill m).filling = [] ∧ (t.mill m).fill = some j) ∧
    (∀ f, (s.mill m).filling = [f] → f.a.whole = true → f.b.whole = true → x.slots ≤ (s.mill m).slots.length + 1 →
      (∀ e, (s.slotOf o x m f).2 = .ok e → ∃ t, exec (.slotFillComplete m) s = .next t
        ∧ (t.mill m).slots = (s.mill m).slots ++ [e] ∧ s.sameBeyond t) ∧
      (∀ r a, (s.slotOf o x m f).2 = .fail r a → o.failed = none →
        ∃ t o', exec (.slotFillComplete m) s = .next t ∧ t.op j.slot = some o' ∧ o'.failed = some (if r = 6 then 4 else 3, r)
          ∧ o'.faultAddr = a ∧ o'.written = o.written))) ∧
  (∀ (s : Dev) (p : Port) (f : Nat) (ls : List Nat) (held : Table (List Byte)) (n : Nat),
    (∀ h2 n2, (s.fetchLines p f ls held n).2 = .ok (h2, n2) → n ≤ n2 ∧ (n ≤ 512 → n2 ≤ 512)
      ∧ ∀ k, Table.get [] held k ≠ [] → Table.get [] h2 k = Table.get [] held k) ∧
    (p.keep = false → s.memStep (s.fetchLines p f ls held n).1)) ∧
  (∀ (m : MillId) (s : State) (e : CurdEntry), (s.mill m).finished = some e →
    (2 ≤ (s.mill m).curd.length → exec (.curdMove m) s = .next s) ∧
    ((s.mill m).curd.length < 2 → ∃ t, exec (.curdMove m) s = .next t ∧ (t.mill m).finished = none
      ∧ ((∀ n, millDie n = millDie m → ∃ z, (s.mill n).total = some z ∧ z.last = true) → (t.mill m).curd = (s.mill m).curd ++ [e])
      ∧ t = { s with cmd := { s.cmd with mills := t.cmd.mills, ops := t.cmd.ops } }))

/-- R174, R177, R178, R212: a tile whose bytes are written, of a total or of what CHAIN or COMBINE takes in, counts once more among its
operation's units, with its counts added; while its total is not whole nothing happens. -/
def Obligations.TileWrittenCounts : Prop :=
  (∀ (m : MillId) (s : State) (e : CurdEntry) (o : Operation) (x : MillOp), (s.mill m).total = some e →
    (e.last = false → exec (.tileWritten m) s = .next s) ∧
    (e.last = true → s.op e.job.slot = some o → o.body = .mill x →
      let t0 : TileIn := ⟨splitRows e.job.tn e.job.tm e.vals, e.flushed, e.pro, e.rows, if x.ksplit = 1 then 0 else max 1 (x.tileSegs e.job)⟩
      let p := s.chainPort o m
      let out : Dev × Fetch TileOut := if x.kind = .attend then (s.toDev, .ok (attendOut x e.job t0)) else s.tileOut p x e.job t0
      ∀ w, out.2 = .ok w → (out.1.writeUnit p x.d.hint false w.runs).2 = .ok () →
        ∃ t o', exec (.tileWritten m) s = .next t ∧ t.op e.job.slot = some o' ∧ o'.written = o.written ++ [e.job.ordinal]
          ∧ o'.counts = (o.countTile e.job.ordinal w.counts (e.flushed ++ w.flushed) e.pro).counts
          ∧ t.mem = (out.1.writeUnit p x.d.hint false w.runs).1.mem)) ∧
  (∀ (m : MillId) (s : State) (slot : SlotId) (ordinal : Nat) (o : Operation) (x : MillOp) (t0 : TileIn), (s.mill m).total = none →
    (s.mill m).chainTile = some (slot, ordinal) → s.op slot = some o → o.body = .mill x → x.kind ≠ .attend →
    let j := x.job slot ordinal [m.val] 0
    let p := s.chainPort o m
    (s.tileInput o x m j).2 = .ok t0 →
    let out := (s.tileInput o x m j).1.tileOut p x j t0
    ∀ w, out.2 = .ok w → (out.1.writeUnit p x.d.hint false w.runs).2 = .ok () →
      ∃ t o', exec (.tileWritten m) s = .next t ∧ t.op slot = some o' ∧ o'.written = o.written ++ [ordinal]
        ∧ o'.counts = (o.countTile ordinal w.counts (t0.flushed ++ w.flushed) t0.pro).counts
        ∧ t.mem = (out.1.writeUnit p x.d.hint false w.runs).1.mem)

/-- R249 to R252: what a statistics add makes of a record; STATS_ADD, holding its lines until it is done, writes that record back, counts the
add and gives up its row entry, also where the add fails. -/
def Obligations.StatisticsAdd : Prop :=
  (∀ (r : StatRec) (e : RowEntry), r.nExp < 2 ^ 32 →
    (r.nExp < r.nAcc + e.count → statsAdd r e = ({ r with overrun := true, final := false }, none)) ∧
    (r.nAcc + e.count ≤ r.nExp → (statsAdd r e).1.nAcc = r.nAcc + e.count ∧ (statsAdd r e).1.overrun = r.overrun
      ∧ (statsAdd r e).1.nonfinite = (r.nonfinite || e.nonfinite) ∧ (statsAdd r e).1.sumsq = (r.sumsq + e.sumsq) % 2 ^ 640
      ∧ (statsAdd r e).1.final = (if r.nAcc + e.count = r.nExp then true else r.final)
      ∧ ((statsAdd r e).2.isSome = true ↔ r.nAcc + e.count = r.nExp))) ∧
  (∀ (m : MillId) (s : State), s.nextAdd m = none → exec (.statsAdd m) s = .next s) ∧
  (∀ (m : MillId) (s : State) (e : RowEntry) (o : Operation), s.nextAdd m = some e → s.op e.slot = some o →
    let p := s.chainPort o m
    let d := (s.holdRecordOf p m e.addr o.statsHint).1
    let r := (s.holdRecordOf p m e.addr o.statsHint).2
    (∀ c a, r = .fail c a → o.failed = none → ∃ t o', exec (.statsAdd m) s = .next t ∧ t.op e.slot = some o'
      ∧ o'.failed = some (failStatus c, c) ∧ o'.faultAddr = a ∧ t.mill m = (s.mill m).dropAdd e) ∧
    (∀ ps, r = .ok ps →
      let old := parseRec (leNat (ps.flatMap (fun x => (d.physRead x.pa x.len x.realm).1)))
      ∀ d2, d.writePieces p 0 ps (leBytes 256 (statsAdd old e).1.bits) [] = some d2 →
        ∃ t, exec (.statsAdd m) s = .next t ∧ t.mem = (d2.unpin m).mem ∧ t.objAt 3 0x107 m.val = (d2.objAt 3 0x107 m.val + 1) % 2 ^ 64
          ∧ t.mill m = (s.mill m).dropAdd e))

/-- R291, R292: an integer operation writes, in every performing stalk, the value of its operands to dst, and goes on. -/
def Obligations.SheafIntegerOps : Prop :=
  ∀ (c : Instr) (g : SheafRef) (o : Nat) (s : State) (s' : Dev) (x : Issue), integerOf c = some (g, o) → s.issues s' g x →
    fOpcode x.w = 0x10 + o → x.pc + 1 < x.l.codeLen →
    let k := if o ≠ 0xF && bit (fMod x.w) 0 then 2 else 1
    s.sheafRuns s' c x (x.with (x.onward (fun _ => x.pc + 1) (fun i y => y.write (fDst x.w) k
      (intOp o (32 * k) (bit (fMod x.w) 1) (if o = 0xE && fImm x.w then immOf x.w k else x.a i k) (x.b i k) (x.c i k)
        (Config.freeValue (s'.fresh + i))))))

/-- R292: what each integer operation makes of words of 32 and of 64 bits; a shift by less than the width. -/
def Obligations.IntegerOpValues : Prop :=
  ∀ (w : Nat) (a b c : BitVec w) (sg : Bool) (free : Nat), w = 32 ∨ w = 64 →
    let f (o : Nat) : Nat := intOp o w sg a.toNat b.toNat c.toNat free
    f 0x0 = (a + b).toNat ∧ f 0x1 = (a - b).toNat ∧ f 0x2 = (a * b).toNat ∧ f 0x4 = (a * b + c).toNat
      ∧ f 0x3 = (((if sg then a.signExtend (2 * w) * b.signExtend (2 * w) else a.setWidth (2 * w) * b.setWidth (2 * w)) >>> w).setWidth w).toNat
      ∧ f 0x5 = (a &&& b).toNat ∧ f 0x6 = (a ||| b).toNat ∧ f 0x7 = (a ^^^ b).toNat
      ∧ (b.toNat < w → f 0x8 = (a <<< b.toNat).toNat ∧ f 0x9 = (if sg then a.sshiftRight b.toNat else a >>> b.toNat).toNat)
      ∧ f 0xA = (if (if sg then a.slt b else a.ult b) then a else b).toNat ∧ f 0xB = (if (if sg then a.slt b else a.ult b) then b else a).toNat
      ∧ f 0xC = ((List.range w).filter a.getLsbD).length
      ∧ (f 0xD ≤ w ∧ a.toNat < 2 ^ (w - f 0xD) ∧ (f 0xD < w → 2 ^ (w - f 0xD - 1) ≤ a.toNat))
      ∧ f 0xE = a.toNat ∧ f 0xF = ((b <<< 16) ||| (c &&& 0xFFFF)).toNat

/-- R101, R292, R296 to R301: the floating-point operations, the functions and CVT write, in every performing stalk, the value they compute of
its operands, and go on; CVT also adds its counts to its stook, for the LAUNCH to report once the stook has exited. -/
def Obligations.SheafFloatOps : Prop :=
  ∀ (c : Instr) (g : SheafRef) (s : State) (s' : Dev) (x : Issue), s.issues s' g x → x.pc + 1 < x.l.codeLen →
    (∀ k o, floatOf c = some (g, k, o) → fOpcode x.w = 0x10 + 0x10 * k + o →
      s.sheafRuns s' c x (x.with (x.onward (fun _ => x.pc + 1) (fun i y => y.write (fDst x.w) k
        (floatOp x.l.ieee (if k = 2 then .fp64 else .fp32) o (fMod x.w) (x.a i k) (x.b i k) (x.c i k)))))) ∧
    (∀ o, functionOf c = some (g, o) → fOpcode x.w = 0x50 + o →
      s.sheafRuns s' c x (x.with (x.onward (fun _ => x.pc + 1) (fun i y => y.write (fDst x.w) 1 (funcOp x.l.ieee o (x.a i 1)))))) ∧
    (c = .cvt g → fOpcode x.w = 0x40 →
      let ka := (cvtWords (bits (fMod x.w) 3 0)).getD 1
      let kd := (cvtWords (bits (fMod x.w) 7 4)).getD 1
      let r (i : Nat) := cvtOp x.l.ieee (fMod x.w) (x.a i ka) (x.c i 1) ((x.stalk i).read (fDst x.w) kd) (Config.freeValue (s'.fresh + i))
      s.sheafRuns s' c x { (x.with (x.onward (fun _ => x.pc + 1) (fun i y => y.write (fDst x.w) kd (r i).1))) with
        counts := x.st.counts.add (x.act.foldl (fun n i => n.add (r i).2) {}) })

/-- R75, R292, R293, R306: comparisons, selections, cross-lane operations and system values, in every performing stalk. What a REDUCE or a SCAN of
one value gives is the model's choice (log entry 88). -/
def Obligations.SheafSelectOps : Prop :=
  ∀ (g : SheafRef) (s : State) (s' : Dev) (x : Issue), s.issues s' g x → x.pc + 1 < x.l.codeLen →
    let m := fMod x.w
    let runs (c : Instr) (f : Nat → Stalk → Stalk) : Prop := s.sheafRuns s' c x (x.with (x.onward (fun _ => x.pc + 1) f))
    let word (f : Nat → Nat) (i : Nat) (y : Stalk) : Stalk := y.write (fDst x.w) 1 (f i)
    let pred (f : Nat → Bool) (i : Nat) (y : Stalk) : Stalk := y.setPred (fDst x.w) (f i)
    (fOpcode x.w = 0x60 → runs (.fcmp g) (pred (fun i =>
      if bit m 4 then compareVal (bits m 3 0) (sheafDecode x.l.ieee .fp64 (x.a i 2)) (sheafDecode x.l.ieee .fp64 (x.b i 2))
      else compareVal (bits m 3 0) (sheafDecode x.l.ieee .fp32 (x.a i 1)) (sheafDecode x.l.ieee .fp32 (x.b i 1))))) ∧
    (fOpcode x.w = 0x61 → runs (.icmp g) (pred (fun i => if bit m 4 then icmpOp m (x.a i 2) (x.b i 2) else icmpOp m (x.a i 1) (x.b i 1)))) ∧
    (fOpcode x.w = 0x62 → runs (.pick g) (word (fun i => if (x.stalk i).pred m then x.a i 1 else x.b i 1))) ∧
    (fOpcode x.w = 0x63 → m = 0 → runs (.pcomb g) (pred (fun i => (x.stalk i).pred (fA x.w) && (x.stalk i).pred (fB x.w)))) ∧
    (fOpcode x.w = 0x63 → m = 1 → runs (.pcomb g) (pred (fun i => (x.stalk i).pred (fA x.w) || (x.stalk i).pred (fB x.w)))) ∧
    (fOpcode x.w = 0x63 → m = 2 → runs (.pcomb g) (pred (fun i => xor ((x.stalk i).pred (fA x.w)) ((x.stalk i).pred (fB x.w))))) ∧
    (fOpcode x.w = 0x63 → m = 3 → runs (.pcomb g) (pred (fun i => (x.stalk i).pred (fA x.w) && !(x.stalk i).pred (fB x.w)))) ∧
    (fOpcode x.w = 0xB0 → m = 0 → runs (.lanex g) (word (fun i => if x.b i 1 ∈ x.group then x.a (x.b i 1) 1 else x.a i 1))) ∧
    (fOpcode x.w = 0xB0 → m = 1 → runs (.lanex g) (word (fun i => if i + x.b i 1 ∈ x.group then x.a (i + x.b i 1) 1 else x.a i 1))) ∧
    (fOpcode x.w = 0xB0 → m = 2 → runs (.lanex g) (word (fun i => if x.b i 1 ≤ i ∧ i - x.b i 1 ∈ x.group then x.a (i - x.b i 1) 1 else x.a i 1))) ∧
    (fOpcode x.w = 0xB0 → m = 3 → runs (.lanex g) (word (fun i => if i ^^^ x.b i 1 ∈ x.group then x.a (i ^^^ x.b i 1) 1 else x.a i 1))) ∧
    (fOpcode x.w = 0xB1 → m = 0 → runs (.poll g) (pred (fun _ => x.group.any (fun j => (x.stalk j).pred (fA x.w))))) ∧
    (fOpcode x.w = 0xB1 → m = 1 → runs (.poll g) (pred (fun _ => x.group.all (fun j => (x.stalk j).pred (fA x.w))))) ∧
    (fOpcode x.w = 0xB2 → ∀ j0 js, x.group = j0 :: js → runs (.reduce g) (word (fun _ =>
      if js = [] then firstOp x.l.ieee m (x.a j0 1) else js.foldl (fun v j => combineOp x.l.ieee m v (x.a j 1)) (x.a j0 1)))) ∧
    (fOpcode x.w = 0xB3 → ∀ j0 js, x.group = j0 :: js → runs (.scan g) (word (fun i =>
      if js.filter (· ≤ i) = [] then firstOp x.l.ieee m (x.a j0 1)
      else (js.filter (· ≤ i)).foldl (fun v j => combineOp x.l.ieee m v (x.a j 1)) (x.a j0 1)))) ∧
    (fOpcode x.w = 0xC0 → ∃ f, runs (.sysr g) (word f) ∧ ∀ i,
      (m = 0 → f i = x.k * x.l.width + i) ∧ (m = 1 → f i = i) ∧ (m = 2 → f i = x.k) ∧ (m = 3 → f i = x.l.width) ∧ (m = 4 → f i = x.st.ordinal)
        ∧ (m = 5 → f i = (homeDie x.o.queue).val) ∧ (m = 6 → f i = x.st.proc.val % 32) ∧ (m = 7 → f i = x.sh.quarter)
        ∧ (m = 8 → ∀ j, j < 32 → ((f i).testBit j = true ↔ j ∈ x.group)) ∧ (m = 9 → ∀ j, j < 32 → ((f i).testBit j = true ↔ j + 32 ∈ x.group))
        ∧ (m = 0xA → ∀ j, j < 32 → ((f i).testBit j = true ↔ ∃ y, x.sh.stalks[j]? = some y ∧ y.live = true))
        ∧ (m = 0xB → ∀ j, j < 32 → ((f i).testBit j = true ↔ ∃ y, x.sh.stalks[j + 32]? = some y ∧ y.live = true))
        ∧ (m = 0xC → f i = (x.l.regs + 7) / 8 * 8) ∧ (m = 0xD → f i = x.l.smem)) ∧
    (fOpcode x.w = 0xC1 → runs (.sTime g) (fun _ y => y.write (fDst x.w) 2 s'.now.toNat))

/-- R292: UOP, LANERD and the mask of POLL write a uniform destination, if a stalk performs them, and go on. -/
def Obligations.SheafUniformOps : Prop :=
  ∀ (g : SheafRef) (s : State) (s' : Dev) (x : Issue), s.issues s' g x → x.pc + 1 < x.l.codeLen →
    let m := fMod x.w
    let runs (c : Instr) (n v : Nat) : Prop := s.sheafRuns s' c x (x.with { (x.onward (fun _ => x.pc + 1) (fun _ y => y)) with
      u := if x.act = [] then x.sh.u else (x.sh.writeU (fDst x.w) n v).u })
    (fOpcode x.w = 0x70 →
      let o := bits m 3 0
      let k := if bit m 4 && o ≠ 0xF then 2 else 1
      runs (.uop g) k (intOp o (32 * k) (bit m 5) (if o = 0xE && fImm x.w then immOf x.w k else x.a 0 k) (x.b 0 k)
        (if fImm x.w then (if fDst x.w = 0xFF then 0 else x.sh.readU (fDst x.w) k) else x.c 0 k) (Config.freeValue s'.fresh))) ∧
    (fOpcode x.w = 0x71 → ∀ i0 is, x.act = i0 :: is →
      (x.b i0 1 < x.l.width → runs (.lanerd g) 1 ((x.stalk (x.b i0 1)).read (fA x.w) 1)) ∧
      (x.l.width ≤ x.b i0 1 → runs (.lanerd g) 1 (Config.freeValue s'.fresh % 2 ^ 32))) ∧
    (fOpcode x.w = 0xB1 → m = 2 → ∃ v, runs (.poll g) 2 v ∧ ∀ i, v.testBit i = true ↔ i ∈ x.group ∧ (x.stalk i).pred (fA x.w) = true)

/-- R281, R290, R292, R295, R302, R305, R307 to R312, R383, R422: jumps, and what EXIT, BAR, SSYNC, FENCE and YIELD do; an EXIT, BAR or SSYNC
that finds its stook's generation or an SSYNC of its sheaf past its deadline ends the stook. -/
def Obligations.SheafControlOps : Prop :=
  ∀ (g : SheafRef) (s : State) (s' : Dev) (x : Issue), s.issues s' g x →
    let seq (_ : Nat) : Nat := x.pc + 1
    (∀ c code target, jumpOf c = some (g, code, target) → fOpcode x.w = code →
      ((∀ i ∈ x.group, 0 ≤ target x i ∧ target x i < x.l.codeLen) →
        let h := x.onward (fun i => (target x i).toNat) (fun _ y => if code = 3 then y.write (fDst x.w) 1 (x.pc + 1) else y)
        s.sheafRuns s' c x (x.with (if code = 8 && !x.act.isEmpty then { h with yielded := some (x.pc + 1) } else h))) ∧
      ((∃ i ∈ x.group, target x i < 0 ∨ (x.l.codeLen : Int) ≤ target x i) → x.o.failed = none →
        ∃ t o', exec c s = .next t ∧ t.stook x.st.id = none ∧ t.op x.st.slot = some o' ∧ o'.failed = some (3, 4))) ∧
    (fOpcode x.w = 0x04 → x.st.barrier = none → (∀ h ∈ x.st.sheaves, ∀ y ∈ h.stalks, ∀ p k since, y.wait ≠ .ssync p k since) →
      (x.act = x.group ∨ x.pc + 1 < x.l.codeLen) →
      let h := x.onward (fun i => if x.act.contains i then x.pc else x.pc + 1) (fun _ y => { y with live := false })
      ((∃ k ∈ (x.with h).sheaves, ∃ y ∈ k.stalks, y.live = true) → s.sheafRuns s' (.sExit g) x (x.with h)) ∧
      ((∀ k ∈ (x.with h).sheaves, ∀ y ∈ k.stalks, y.live = false) → ∃ t o', exec (.sExit g) s = .next t ∧ t.stook x.st.id = none
        ∧ t.op x.st.slot = some o' ∧ o'.written = x.o.written ++ [x.st.ordinal] ∧ o'.counts = x.o.counts.add x.st.counts
        ∧ t.objAt 4 0x108 x.st.proc.val = (s'.objAt 4 0x108 x.st.proc.val + 1) % 2 ^ 64)) ∧
    (fOpcode x.w = 0x05 → x.act ≠ [] → x.pc + 1 < x.l.codeLen →
      let b := (x.st.barrier.getD (s'.now + BitVec.ofNat 64 (x.l.timeoutUs * 1000), x.pc))
      let st := { (x.with (x.onward seq (fun _ y => { y with wait := .barrier }))) with barrier := some b }
      let free (h : Sheaf) : Sheaf := { h with stalks := h.stalks.map (fun y => if y.wait = .barrier then { y with wait := .ready } else y) }
      s'.now.toNat < b.1.toNat → syncLate x.l s'.now x.sh = none →
      (st.waiting ≠ st.live → s.sheafRuns s' (.bar g) x st) ∧
      (st.waiting = st.live → s.sheafRuns s' (.bar g) x { st with barrier := none, sheaves := st.sheaves.map free })) ∧
    (fOpcode x.w = 0x06 → x.pc + 1 < x.l.codeLen → x.act = [] → s.sheafRuns s' (.ssync g) x (x.with (x.onward seq (fun _ y => y)))) ∧
    (fOpcode x.w = 0x06 → x.pc + 1 < x.l.codeLen → x.act ≠ [] →
      let h := x.onward seq (fun i y => { y with wait := .ssync x.pc (x.a i 2) s'.now })
      ((∀ b, x.st.barrier = some b → s'.now.toNat < b.1.toNat) → syncLate x.l s'.now h = none → s.sheafRuns s' (.ssync g) x (x.with h.syncRelease)) ∧
      (syncLate x.l s'.now h ≠ none → x.o.failed = none → ∃ t o', exec (.ssync g) s = .next t ∧ t.stook x.st.id = none
        ∧ t.op x.st.slot = some o' ∧ o'.failed = some (3, 0xC))) ∧
    (∀ c, (c = .sExit g ∧ fOpcode x.w = 0x04) ∨ (c = .bar g ∧ fOpcode x.w = 0x05 ∧ x.act ≠ []) ∨ (c = .ssync g ∧ fOpcode x.w = 0x06 ∧ x.act ≠ []) →
      ((∃ b, x.st.barrier = some b ∧ b.1.toNat ≤ s'.now.toNat) ∨ syncLate x.l s'.now x.sh ≠ none) → x.o.failed = none →
      ∃ t o', exec c s = .next t ∧ t.stook x.st.id = none ∧ t.op x.st.slot = some o' ∧ o'.failed = some (3, 0xC)) ∧
    (fOpcode x.w = 0x07 → x.pc + 1 < x.l.codeLen →
      ((fMod x.w < 2 ∨ x.act = []) → s.sheafRuns s' (.fence g) x (x.with (x.onward seq (fun _ y => y)))) ∧
      (fMod x.w = 2 → x.act ≠ [] → (∃ a ∈ s'.fab.accesses, a.by_ = .op x.o.slot) → s.sheafWaits s' (.fence g) x) ∧
      (fMod x.w = 2 → x.act ≠ [] → (∀ a ∈ s'.fab.accesses, a.by_ ≠ .op x.o.slot) → ∃ t, exec (.fence g) s = .next t
        ∧ t.stook x.st.id = some (x.with (x.onward seq (fun _ y => y)))
        ∧ t.toDev = { s' with mem := t.mem, obj := t.obj, shf := t.shf, xl := t.xl, eventLog := t.eventLog, eventsOut := t.eventsOut, resetDue := t.resetDue }
        ∧ ∀ tag w, t.wcbLine tag = some w → ∀ k ∈ w.writers, sheafWriter (homeDie x.o.queue).val (x.st.proc.val % 32) k = false))

/-- R305: a stalk at SSYNC is released when every live stalk that a waiting stalk's mask names waits at an SSYNC of the same instruction. -/
def Obligations.SsyncReleases : Prop :=
  ∀ (h : Sheaf) (j pc mask : Nat) (since : U64) (y : Stalk), h.stalks[j]? = some y → y.wait = .ssync pc mask since →
    let names (i : Nat) (z : Stalk) : Prop := h.stalks[i]? = some z ∧ z.live = true ∧ (i = j ∨ bit mask i = true)
    ((∀ i z, names i z → ∃ m u, z.wait = .ssync pc m u) → ∀ i z, names i z → h.syncRelease.stalks[i]? = some { z with wait := .ready }) ∧
    ((∃ i z, names i z ∧ ∀ m u, z.wait ≠ .ssync pc m u) → (∀ i z, h.stalks[i]? = some z → i ≠ j → ∀ p m u, z.wait ≠ .ssync p m u) →
      h.syncRelease = h)

/-- R292, R315 to R319, R321 to R324: global accesses become line requests that their group waits for, stook-memory accesses are performed at
once in ascending stalk order, and a misaligned one ends its stook. -/
def Obligations.SheafMemoryOps : Prop :=
  ∀ (g : SheafRef) (s : State) (s' : Dev) (x : Issue), s.issues s' g x → x.pc + 1 < x.l.codeLen →
    let m := fMod x.w
    let at_ (c : Instr) (n : Nat) (rs : List LaneReq) : Prop :=
      ((∀ r ∈ rs, r.va % n = 0) → s'.procLines x.st.proc + (linesOf rs).length ≤ 256 →
        let h := x.onward (fun _ => x.pc + 1) (fun _ y => y)
        s.sheafRuns s' c x (x.with (if rs = [] then h else { h with
          accesses := h.accesses ++ [⟨x.w, x.group, rs, linesOf rs⟩],
          stalks := h.stalks.mapIdx (fun i y => if x.group.contains i then { y with wait := .memory } else y) }))) ∧
      (∀ r, rs.find? (fun r => r.va % n ≠ 0) = some r → s'.procLines x.st.proc + (linesOf rs).length ≤ 256 → x.o.failed = none →
        ∃ t o', exec c s = .next t ∧ t.stook x.st.id = none ∧ t.op x.st.slot = some o' ∧ o'.failed = some (3, 4) ∧ o'.faultAddr = r.va)
    let wait_ (c : Instr) (rs : List LaneReq) : Prop := 256 < s'.procLines x.st.proc + (linesOf rs).length → s.sheafWaits s' c x
    let ld := x.act.map (fun i => ({ lane := i, va := memAddr (x.a i 2) (x.b i 1) } : LaneReq))
    let st := x.act.map (fun i => ({ lane := i, va := memAddr (x.a i 2) (x.b i 1), data := x.c i (sizeWords (bits m 2 0)) } : LaneReq))
    let n := atomicBytes (bits m 3 0)
    let amo := x.act.map (fun i => ({ lane := i, va := codeOf 64 ((x.a i 2 : Int) + amoOff x.w), data := x.b i (n / 4), cmp := x.c i (n / 4) } : LaneReq))
    let inside (off : Nat → Nat) (n : Nat) : Prop := ∀ i ∈ x.act, off i % n = 0 ∧ off i + n ≤ x.l.smem * 1024
    (fOpcode x.w = 0x80 → at_ (.ld g) (2 ^ bits m 2 0) ld ∧ wait_ (.ld g) ld) ∧
    (fOpcode x.w = 0x81 → at_ (.st g) (2 ^ bits m 2 0) st ∧ wait_ (.st g) st) ∧
    (fOpcode x.w = 0x72 → ∀ i0 is, x.act = i0 :: is → at_ (.uload g) (2 ^ m) [{ lane := i0, va := memAddr (x.a i0 2) (x.b i0 1) }]) ∧
    (fOpcode x.w = 0xA0 → at_ (.amo g) n amo ∧ wait_ (.amo g) amo) ∧
    (fOpcode x.w = 0x90 → inside (localOff x) (2 ^ bits m 2 0) → s.sheafRuns s' (.ldk g) x (x.with (x.onward (fun _ => x.pc + 1) (fun i y =>
      y.write (fDst x.w) (sizeWords (bits m 2 0)) (loadValue (x.st.smemRead (localOff x i) (2 ^ bits m 2 0)) (bits m 2 0) (bit m 3)))))) ∧
    (fOpcode x.w = 0x91 → inside (localOff x) (2 ^ m) → s.sheafRuns s' (.stk g) x { (x.with (x.onward (fun _ => x.pc + 1) (fun _ y => y))) with
      smem := x.act.foldl (fun mem i => Table.setRange 0 mem (localOff x i) (leBytes (2 ^ m) (x.c i (sizeWords m)))) x.st.smem }) ∧
    (fOpcode x.w = 0xA1 → inside (amokOff x) n → s.sheafRuns s' (.amok g) x (x.act.foldl (fun z i =>
      let old := leNat (Table.getRange 0 z.smem (amokOff x i) n)
      ({ z with smem := Table.setRange 0 z.smem (amokOff x i) (leBytes n (atomicOp x.l.ieee (bits m 3 0) old (x.b i (n / 4)) (x.c i (n / 4)))) }
        : Stook).modLane x.k i (fun y => y.write (fDst x.w) (n / 4) old)) (x.with (x.onward (fun _ => x.pc + 1) (fun _ y => y)))))

/-- R316, R319, R320: the answer to a line writes what its loads read, performs its stores, or ends its stook at the address that the access
names; with the last line its group goes on. -/
def Obligations.LineAnswered : Prop :=
  ∀ (g : SheafRef) (line : Nat) (s : State) (st : Stook) (sh : Sheaf) (o : Operation) (l : LaunchOp) (a : SheafAccess), s.stook g.stook = some st →
    s.launchOf st = some (o, l) → st.sheaves[g.sheaf.val]? = some sh → sh.accesses.find? (fun a => a.lines.contains line) = some a →
    let p := { s.sheafPort o st.proc.val sh.quarter with hint := if fOpcode a.word = 0x80 then bits (fMod a.word) 5 4 else 0 }
    let hint := bits (fMod a.word) 5 4
    let rd := s.readVa p (128 * line) 128
    let wr := s.holdWrite p hint false wantWrite [(128 * line, 128)]
    (∀ bytes r, rd.2 = .ok bytes → a.lines = [line] → a.lanes = [r] → r.va / 128 = line →
        fOpcode a.word = 0x80 → ∃ t sh', exec (.lineResponse g line) s = .next t ∧ t.toDev = { rd.1 with shf := t.shf }
          ∧ (∀ id, id ≠ g.stook → t.stook id = s.stook id) ∧ sh'.u = sh.u
          ∧ (t.stook g.stook).map Stook.sheaves = some (modAt st.sheaves g.sheaf.val (fun _ => sh'))
          ∧ sh'.accesses = removeFirst (· == a) sh.accesses
          ∧ (∀ i y, sh.stalks[i]? = some y → ∃ y', sh'.stalks[i]? = some y' ∧ y'.wait = (if a.group.contains i then .ready else y.wait)
              ∧ y'.pc = y.pc ∧ y'.p = y.p ∧ (i ≠ r.lane → y'.v = y.v)
              ∧ (i = r.lane → y'.v = (y.write (fDst a.word) (sizeWords (bits (fMod a.word) 2 0))
                  (loadValue ((bytes.drop (r.va - 128 * line)).take (2 ^ bits (fMod a.word) 2 0)) (bits (fMod a.word) 2 0) (bit (fMod a.word) 3))).v))) ∧
    (∀ pc ps d2 r, wr.2 = .ok (pc :: ps) → a.lines = [line] → a.lanes = [r] → r.va / 128 = line → fOpcode a.word = 0x81 →
        wr.1.writeLines p.die p.stream hint
          (lineWrites (pc.pa + (r.va - 128 * line)) (leBytes (2 ^ bits (fMod a.word) 2 0) r.data) pc.realm []) = some d2 →
        ∃ t, exec (.lineResponse g line) s = .next t ∧ t.toDev = { d2 with shf := t.shf }
          ∧ (t.stook g.stook).map Stook.sheaves = some (modAt st.sheaves g.sheaf.val (fun _ => { sh with
              accesses := removeFirst (· == a) sh.accesses,
              stalks := sh.stalks.mapIdx (fun i y => if a.group.contains i then { y with wait := .ready } else y) }))) ∧
    (∀ reason va, (((fOpcode a.word = 0x80 ∨ fOpcode a.word = 0x72) ∧ rd.2 = .fail reason va) ∨ (fOpcode a.word = 0x81 ∧ wr.2 = .fail reason va)) →
        o.failed = none → ∃ t o', exec (.lineResponse g line) s = .next t ∧ t.stook g.stook = none ∧ t.op st.slot = some o'
          ∧ o'.failed = some (failStatus reason, reason)
          ∧ o'.faultAddr = (((a.lanes.filter (fun r => r.va / 128 = line)).head?.map LaneReq.va).getD (128 * line)))

/-- R278, R280, R305, R310 to R312: while some processor of its LAUNCH has room a stook starts on the next one that has; a generation that
reaches its deadline, and an SSYNC that has waited longer than the timeout, end their stook with reason 0x0C. -/
def Obligations.StookStartsAndFails : Prop :=
  (∀ (slot : SlotId) (s : State) (o : Operation) (l : LaunchOp), s.op slot = some o → o.body = .launch l → o.failed = none →
    o.aborting = none → l.nextOrdinal < l.stooks → (∀ p ∈ l.procs, p < 256) → (∃ p ∈ l.procs, s.stookFits l p = true) →
    (∀ k ∈ s.shf.stooks, k.id < s.shf.nextId) →
    ∃ t st, exec (.stookStart slot) s = .next t ∧ t.stook s.shf.nextId = some st ∧ st.slot = slot ∧ st.ordinal = l.nextOrdinal
      ∧ l.order.find? (s.stookFits l) = some st.proc.val ∧ st.smem = [] ∧ st.barrier = none ∧ st.sheaves.length = l.sheaves
      ∧ t.op slot = some { o with body := .launch { l with nextOrdinal := l.nextOrdinal + 1, lastProc := st.proc.val } }
      ∧ (∀ id, id ≠ s.shf.nextId → t.stook id = s.stook id)
      ∧ t = { s with shf := { s.shf with stooks := s.shf.stooks ++ [st], nextId := s.shf.nextId + 1 }, cmd := { s.cmd with ops := t.cmd.ops } }
      ∧ ∀ k h, st.sheaves[k]? = some h → h.stalks.length = l.width ∧ h.accesses = [] ∧ ∀ i y, h.stalks[i]? = some y →
          y.pc = l.entry ∧ y.p = 0 ∧ y.live = true ∧ y.wait = .ready ∧ Table.get 0 y.v 0 = BitVec.ofNat 32 (k * l.width + i)
            ∧ ∀ n, n ≠ 0 → Table.get 0 y.v n = 0) ∧
  (∀ (id : Nat) (t0 : U64) (s : State) (st : Stook) (o : Operation) (l : LaunchOp) (d : U64) (pc : Nat), s.stook id = some st →
    s.launchOf st = some (o, l) → o.failed = none → st.barrier = some (d, pc) →
    (max s.now.toNat t0.toNat < d.toNat → exec (.barrierDeadline id t0) s = .next s) ∧
    (d.toNat ≤ max s.now.toNat t0.toNat → ∃ t o', exec (.barrierDeadline id t0) s = .next t ∧ t.stook id = none ∧ t.op st.slot = some o'
      ∧ o'.failed = some (3, 0xC) ∧ o'.faultAddr = l.codeBase + 8 * pc
      ∧ t.objAt 4 0x109 st.proc.val = (s.objAt 4 0x109 st.proc.val + 1) % 2 ^ 64 ∧ ∀ id2, id2 ≠ id → t.stook id2 = s.stook id2)) ∧
  (∀ (g : SheafRef) (t0 : U64) (s : State) (st : Stook) (sh : Sheaf) (o : Operation) (l : LaunchOp), s.stook g.stook = some st →
    s.launchOf st = some (o, l) → o.failed = none → st.sheaves[g.sheaf.val]? = some sh →
    ((∀ (i : Nat) (y : Stalk) p m since, sh.stalks[i]? = some y → y.wait = .ssync p m since →
        max s.now.toNat t0.toNat ≤ (since + BitVec.ofNat 64 (l.timeoutUs * 1000)).toNat) → exec (.ssyncTimeout g t0) s = .next s) ∧
    ((∃ (i : Nat) (y : Stalk), ∃ p m since, sh.stalks[i]? = some y ∧ y.wait = .ssync p m since
        ∧ (since + BitVec.ofNat 64 (l.timeoutUs * 1000)).toNat < max s.now.toNat t0.toNat) →
      ∃ t o', exec (.ssyncTimeout g t0) s = .next t ∧ t.stook g.stook = none ∧ t.op st.slot = some o' ∧ o'.failed = some (3, 0xC)))

/-- R349, R350: a unit of COPY whose bytes have all been read and written counts once more among its operation's units, and its bytes in
copy_bytes; one that cannot be read, or written, fails the operation with nothing of it written. -/
def Obligations.CopyUnitMoves : Prop :=
  ∀ (slot : SlotId) (s : State) (o : Operation) (u : UnitOp) (x : Image), s.op slot = some o → o.body = .stream u → iOpcode o.word = 0x41 →
    o.begun = true → o.status = 0 → o.failed = none → o.aborting = none → u.next < u.units → u.dst = some x →
    let lo := 4096 * u.next
    let hi := min (lo + 4096) x.size
    let rd := s.readImage (s.opStream o 0) u.src lo hi
    let fails (d : Dev) (r a : Nat) : Prop := ∃ t o', exec (.copy (.unit slot)) s = .next t ∧ t.mem = d.mem ∧ t.op slot = some o'
      ∧ o'.written = o.written ∧ o'.failed = some (failStatus r, r) ∧ o'.faultAddr = a
    (∀ v, rd.2 = .ok v →
      let wr := rd.1.writeImage (s.opStream o 1) x lo hi v
      (wr.2 = .ok () → ∃ t o', exec (.copy (.unit slot)) s = .next t ∧ t.mem = wr.1.mem ∧ t.op slot = some o'
        ∧ o'.written = o.written ++ [u.next] ∧ o'.body = .stream { u with next := u.next + 1, asked := [], flying := [] }
        ∧ t.objAt 5 0x107 (homeDie o.queue).val = (wr.1.objAt 5 0x107 (homeDie o.queue).val + (hi - lo)) % 2 ^ 64 ∧ s.sameBeyond t) ∧
      (∀ r a, wr.2 = .fail r a → fails wr.1 r a)) ∧
    (∀ r a, rd.2 = .fail r a → fails rd.1 r a)

/-- R331, R336, R339 to R344, R346: a stream prefetcher asks for one line where its slice and its die have room, its fill is placed or
discarded, and a line that goes unused for its lifetime is dropped. -/
def Obligations.SideBuffers : Prop :=
  (∀ (m : MillId) (f : Fin 4) (s : State), s.linesAhead m f.val = none → exec (.prefetcherIssue m f) s = .next s) ∧
  (∀ (m : MillId) (f : Fin 4) (s : State) (b : Nat × Nat × Nat), b ∈ (s.mill m).pfBlocked → b.1 = f.val → s.blockStands m b = true →
    exec (.prefetcherIssue m f) s = .next s) ∧
  (∀ (m : MillId) (f : Fin 4) (s : State) (o : Operation) (x : MillOp) (lines : List Nat) (a : Nat) (e : TcEntry),
    s.linesAhead m f.val = some (o, x, lines) → (∀ b ∈ (s.mill m).pfBlocked, b.1 ≠ f.val) → lines.head? = some a → 0 < x.pfDistance →
    let p := s.thresherPort o m f.val
    let die : Fin 8 := ⟨m.val / 12, by omega⟩
    let ag : Agent := ⟨die.val, by omega⟩
    let who := prefetcherNo (m.val % 12) f.val
    let t := tagOf (e.pa + (a / 4096 - e.vpn) * 4096 + a % 4096) e.realm
    let free : Prop := (s.entryAhead ag who).length < min (s.entriesFree ag t).1 (s.entriesFree ag t).2
    s.tcHit p.die p.asid (a / 4096) wantRead = some e → s.holdsLine die t = false → s.prefetchDrops t = false →
    (s.sideUsed die t < 256 → free → ∃ u, exec (.prefetcherIssue m f) s = .next u
      ∧ Table.get none (u.mem.inFlight[die]) t = some { joined := none, discard := false, life := x.pfLife }
      ∧ u.objAt 5 0x100 die.val = (s.objAt 5 0x100 die.val + 1) % 2 ^ 64 ∧ u.mem.side = s.mem.side
      ∧ u = { s with obj := u.obj, mem := { s.mem with inFlight := u.mem.inFlight, agents := u.mem.agents }, cmd := { s.cmd with mills := u.cmd.mills } }) ∧
    (s.sideUsed die t < 256 → ¬free → ∃ u, exec (.prefetcherIssue m f) s = .next u ∧ u.mem.inFlight = s.mem.inFlight
      ∧ u.objAt 8 0x102 die.val = (s.objAt 8 0x102 die.val + 1) % 2 ^ 64 ∧ u.objAt 5 0x100 die.val = s.objAt 5 0x100 die.val) ∧
    (256 ≤ s.sideUsed die t → ∃ u, exec (.prefetcherIssue m f) s = .next u ∧ u.objAt 5 0x104 die.val = (s.objAt 5 0x104 die.val + 1) % 2 ^ 64
      ∧ u = { s with obj := u.obj, cmd := { s.cmd with mills := u.cmd.mills } })) ∧
  (∀ (die : Fin 8) (t : LineTag) (s : State),
    let ag : Agent := ⟨die.val, by omega⟩
    (Table.get none (s.mem.inFlight[die]) t = none → exec (.prefetchFill die t) s = .next s) ∧
    (∀ f, Table.get none (s.mem.inFlight[die]) t = some f → s.lineBusy t = false → f.joined = none →
      (f.discard = true → ∃ u, exec (.prefetchFill die t) s = .next u ∧ Table.get none (u.mem.inFlight[die]) t = none ∧ u.mem.side = s.mem.side
        ∧ u.objAt 5 0x103 die.val = (s.objAt 5 0x103 die.val + 1) % 2 ^ 64
        ∧ u = { s with obj := u.obj, mem := { s.mem with inFlight := u.mem.inFlight } }) ∧
      (f.discard = false → s.lineAt ag t = none → s.waitingAt ag t = none →
        let r := (s.setFlight die t none).obtain ag t
        r.2.2.2 = false → ∃ u, exec (.prefetchFill die t) s = .next u ∧ u.now = s.now
          ∧ Table.get none (u.mem.side[die]) t = some { since := s.now, life := f.life, data := r.2.2.1, poison := false } ∧ u.obj = r.1.obj) ∧
      (f.discard = false → (s.lineAt ag t ≠ none ∨ s.waitingAt ag t ≠ none) → ∃ u, exec (.prefetchFill die t) s = .next u
        ∧ Table.get none (u.mem.inFlight[die]) t = none ∧ u = { s with mem := { s.mem with inFlight := u.mem.inFlight } }))) ∧
  (∀ (die : Fin 8) (t : LineTag) (t0 : U64) (s : State),
    (Table.get none (s.mem.side[die]) t = none → exec (.pfLifetimeExpiry die t t0) s = .next s) ∧
    (∀ l, Table.get none (s.mem.side[die]) t = some l →
      (max s.now.toNat t0.toNat < l.since.toNat + l.life → exec (.pfLifetimeExpiry die t t0) s = .next s) ∧
      (l.since.toNat + l.life ≤ max s.now.toNat t0.toNat → ∃ u, exec (.pfLifetimeExpiry die t t0) s = .next u
        ∧ Table.get none (u.mem.side[die]) t = none ∧ u.objAt 5 0x102 die.val = (s.objAt 5 0x102 die.val + 1) % 2 ^ 64
        ∧ u = { s with now := u.now, obj := u.obj, mem := { s.mem with side := u.mem.side }, cmd := { s.cmd with queues := u.cmd.queues } })))

/-- R355, R356, R361 to R363: enabling a relay queue clears its counts, disabling it discards its entries, and a core moves only the count
that is its own, within the entries held. -/
def Obligations.RelayControl : Prop :=
  ∀ (r : Fin 64) (v : U32) (s : State),
    let x := s.relay r
    let gives (c : Instr) (y : Relay) : Prop := ∃ t, exec c s = .next t ∧ t.relay r = y ∧ (∀ r2, r2 ≠ r → t.relay r2 = s.relay r2)
      ∧ t = { s with relays := t.relays }
    (x.enable = true → exec (.relayEnable r) s = .next s) ∧
    (x.enable = false → gives (.relayEnable r) { x with enable := true, puts := 0, takes := 0, fullWaits := 0, emptyWaits := 0 }) ∧
    (x.enable = false → exec (.relayDisable r) s = .next s) ∧
    (x.enable = true → s.relayWaiters r = [] → ∃ y, gives (.relayDisable r) y ∧ y.enable = false ∧ y.entries = [] ∧ y.held = 0
      ∧ y.producer = x.producer ∧ y.consumer = x.consumer ∧ y.asid = x.asid) ∧
    (x.producer ≠ 0xFFF → gives (.relayCorePutsWrite r v) { x with errOwner := true }) ∧
    (x.producer = 0xFFF → 256 < (v - x.takes).toNat → gives (.relayCorePutsWrite r v) { x with errOver := true }) ∧
    (x.producer = 0xFFF → (v - x.takes).toNat ≤ 256 → gives (.relayCorePutsWrite r v) { x with puts := v }) ∧
    (x.consumer ≠ 0xFFF → gives (.relayCoreTakesWrite r v) { x with errOwner := true }) ∧
    (x.consumer = 0xFFF → (x.puts - x.takes).toNat < (v - x.takes).toNat → gives (.relayCoreTakesWrite r v) { x with errUnder := true }) ∧
    (x.consumer = 0xFFF → (v - x.takes).toNat ≤ (x.puts - x.takes).toNat → gives (.relayCoreTakesWrite r v) { x with takes := v })

/-- R354, R355, R358, R360, R362: RELAY_PUT and RELAY_TAKE wait, without a slot, on a disabled, a full or an empty relay queue; what another
than the owner issues, and a number past 63, are refused; a put copies the descriptor of its h0 into entry puts, and a take writes entry takes
into descriptor slot h2. -/
def Obligations.RelayOps : Prop :=
  ∀ (q : QueueId) (s : State) (w : BitVec 256) (slot : SlotId), s.headReady q w → s.running q = [] → s.slotFor q = some slot →
    let r := relayOf w
    let x := s.relay r
    let asid := (s.queue q).asid
    let d := s.relayIssued q w slot
    let p : Port := { s.cmdPort q with slot := some slot, keep := true }
    let waits (c : Instr) (y : Relay) : Prop := ∃ t, exec c s = .next t ∧ t.queue q = { s.queue q with slotWait := false } ∧ t.cmd.ops = s.cmd.ops
      ∧ t.relay r = y ∧ ∀ r2, r2 ≠ r → t.relay r2 = s.relay r2
    let refused (c : Instr) (y : Relay) (reason : Nat) : Prop := ∃ t, exec c s = .next t ∧ t.relay r = y ∧ (∀ r2, r2 ≠ r → t.relay r2 = s.relay r2)
      ∧ ∃ o ∈ t.cmd.ops, o.slot = slot ∧ o.queue = q ∧ o.word = w ∧ o.begun = false ∧ o.status = 5 ∧ o.reason = reason
    (iOpcode w = 0x42 → 64 ≤ iParam w → refused (.relayPut q) x 2) ∧
    (iOpcode w = 0x43 → 64 ≤ iParam w → refused (.relayTake q) x 2) ∧
    (iOpcode w = 0x42 → iParam w < 64 → (x.producer.toNat ≠ q.val ∨ x.asid ≠ asid) → refused (.relayPut q) { x with errOwner := true } 3) ∧
    (iOpcode w = 0x43 → iParam w < 64 → (x.consumer.toNat ≠ q.val ∨ x.asid ≠ asid) → refused (.relayTake q) { x with errOwner := true } 3) ∧
    (iOpcode w = 0x42 → iParam w < 64 → x.producer.toNat = q.val → x.asid = asid →
      (x.enable = false → waits (.relayPut q) x) ∧
      (x.enable = true → 256 ≤ (x.puts - x.takes).toNat → waits (.relayPut q) { x with fullWaits := x.fullWaits + 1 }) ∧
      (x.enable = true → (x.puts - x.takes).toNat < 256 → ∀ b, (d.putImage p (((s.queue q).handles w).getD 0 0)).2 = .ok b →
        ∃ t, exec (.relayPut q) s = .next t ∧ (t.relay r).puts = x.puts + 1
          ∧ (t.relay r).takes = x.takes ∧ Table.get 0 (t.relay r).entries (x.puts.toNat % 256) = b
          ∧ (∀ i, i ≠ x.puts.toNat % 256 → Table.get 0 (t.relay r).entries i = Table.get 0 x.entries i)
          ∧ (∀ r2, r2 ≠ r → t.relay r2 = s.relay r2) ∧ (t.queue q).issued = (s.queue q).issued + 1
          ∧ ∃ o', t.op slot = some o' ∧ o'.written = [0])) ∧
    (iOpcode w = 0x43 → iParam w < 64 → x.consumer.toNat = q.val → x.asid = asid →
      (x.enable = false → waits (.relayTake q) x) ∧
      (x.enable = true → x.puts = x.takes → waits (.relayTake q) { x with emptyWaits := x.emptyWaits + 1 }) ∧
      (x.enable = true → x.puts ≠ x.takes →
        let b := Table.get 0 x.entries (x.takes.toNat % 256)
        let h := ((s.queue q).handles w).getD 2 0
        ∀ c, (descKind b = 1 ∨ descKind b = 4) → h ≠ 0 → d.ctx (mmuOf (homeDie q)) asid.toNat = some c →
          let u := d.writeUnit p 0 true [(c.dtBase + 64 * h, leBytes 64 b)]
          u.2 = .ok () →
          ∃ t, exec (.relayTake q) s = .next t ∧ t.relay r = { x with takes := x.takes + 1 } ∧ (∀ r2, r2 ≠ r → t.relay r2 = s.relay r2)
            ∧ t.mem = u.1.mem ∧ (t.queue q).issued = (s.queue q).issued + 1 ∧ ∃ o', t.op slot = some o' ∧ o'.written = [0]))

/-- R398, R401, R404, R405, R415, R527: what a home answers, and records, to each request on a line that it takes up at once, under its next
epoch; an Ack carries the home's mark of the line, and a core's request for realm memory is its access fault. -/
def Obligations.HomeGrants : Prop :=
  (∀ (a : Agent) (t : LineTag) (err : Nat) (s : State), 8 ≤ a.val → tagRealm t = true → s.behind (.readShared a t) = false →
    ∃ u, exec (.readShared a t err) s = .next u ∧ u.reply = some .accessError ∧ u.dirOf t = s.dirOf t) ∧
  ∀ (a : Agent) (t : LineTag) (err : Nat) (s : State), s.admits t → (8 ≤ a.val → tagRealm t = false) →
    let ep := s.nextEpoch t
    let home (m : Msg) := ((s.receive m).takeEpoch t).1.homeRead t (some err)
    let only (u : State) : Prop := s.memFrame u ∧ (err < 3 → s.onlyMem u)
    let grants (c : Instr) (m : Msg) (g : Grant) : Prop := s.behind m = false → ∃ u, exec c s = .next u ∧ u.dirSays t .x (some a) [] ∧ only u
      ∧ .data a t ep g (home m).2.1 (home m).2.2 ∈ u.mem.msgs
    (s.dirOf t = none →
      grants (.readShared a t err) (.readShared a t) .e ∧ grants (.readOwn a t err) (.readOwn a t) .m ∧ grants (.upgrade a t err) (.upgrade a t) .m ∧
      (s.behind (.writeClaim a t) = false → ∃ u, exec (.writeClaim a t) s = .next u ∧ u.dirSays t .x (some a) [] ∧ s.onlyMem u
        ∧ .ack a t ep (s.homeData t).2 ∈ u.mem.msgs) ∧
      (∀ (d : Die) (off : Fin 128) (bytes : List Byte), (d.val = 8 ∨ d.val = 9 → tagRealm t = false) → bytes ≠ [] → off.val + bytes.length ≤ 128 →
        ∃ u, exec (.writePush d t off bytes) s = .next u ∧ s.memFrame u ∧ (s.mem.dramErrors = [] → s.onlyMem u ∧ u.dirOf t = none)
          ∧ u.mem = ((((s.takeEpoch t).1.setDir t none).homeWrite t off.val bytes 0 (writerOf d.val 255)).answerDie (.die d) (.pushed t false)).mem) ∧
      (∀ (d : Die) (off : Fin 128) (op : AtomicCode) (x y : U64), (d.val = 8 ∨ d.val = 9 → tagRealm t = false) → off.val % atomicBytes op.val = 0 →
        let h := ((s.takeEpoch t).1.setDir t none).homeRead t none
        let n := atomicBytes op.val
        let old := fieldAt h.2.1 off.val n
        ∃ u, exec (.atomicHome d t off op x y) s = .next u ∧ s.memFrame u
          ∧ Table.get none u.mem.answers d.val = some (.old t (BitVec.ofNat 64 old) h.2.2)
          ∧ (s.mem.dramErrors = [] → s.onlyMem u ∧ u.dirOf t = none)
          ∧ (h.2.2 = false → u.homeData t = (patch h.2.1 off.val (leBytes n (atomicOp false op.val old x.toNat y.toNat)), false)))) ∧
    (∀ sharers, err < 3 → s.dirSays t .s none sharers → a ∉ sharers → s.behind (.readShared a t) = false →
      ∃ u, exec (.readShared a t err) s = .next u ∧ u.dirSays t .s none (sharers ++ [a]) ∧ s.onlyMem u
        ∧ .data a t ep .s (home (.readShared a t)).2.1 (home (.readShared a t)).2.2 ∈ u.mem.msgs) ∧
    (s.dirSays t .s none [a] → s.behind (.upgrade a t) = false →
      ∃ u, exec (.upgrade a t err) s = .next u ∧ u.dirSays t .x (some a) [] ∧ s.onlyMem u ∧ .ack a t ep (s.homeData t).2 ∈ u.mem.msgs) ∧
    (∀ (d : Die), (d.val = 8 ∨ d.val = 9 → tagRealm t = false) → (∀ e, s.dirOf t = some e → e.owner = none) →
      let h := (s.takeEpoch t).1.homeRead t (some err)
      ∃ u, exec (.readOnce d t err) s = .next u ∧ (err < 3 → u.dirOf t = s.dirOf t) ∧ only u
        ∧ Table.get none u.mem.answers d.val = some (.data t h.2.1 h.2.2))

/-- R402, R404, R405, R407, R410, R425, R427, R546: a request on a line that others hold opens a transaction whose snoops go to them; one on a
line with an open transaction is held, or waits its turn for an entry of a full home queue; a WriteBack of the owner is taken and any other's is
superseded; an EvictClean removes its sender, and is acknowledged where the sender is not recorded. -/
def Obligations.HomeSnoops : Prop :=
  (∀ (c : Instr) (a : Agent) (t : LineTag) (k : ReqKind) (m : Msg) (e : DirEntry) (s : State), requestMsg c = some (a, t, k, m) → s.admits t →
    (8 ≤ a.val → tagRealm t = false) → s.behind m = false → s.dirOf t = some e → (k = .upgrade → a ∈ e.agents) →
    let plan : SnoopKind × List Agent := if k = .readShared then (.shared, e.owner.toList)
      else if k = .upgrade then (.inv, e.agents.filter (· ≠ a)) else (.inv, e.agents)
    plan.2 ≠ [] → ∃ u x, exec c s = .next u ∧ u.txnOf t = some x ∧ x.kind = k ∧ x.by_ = .agent a ∧ x.awaiting = plan.2
      ∧ x.epoch = s.nextEpoch t ∧ x.deadline = s.now.toNat + 1000 * s.objAt 8 0x201 0 ∧ u.dirOf t = s.dirOf t
      ∧ u.nextEpoch t = x.epoch + 1
      ∧ u.mem.msgs = removeFirst (·.bare == m) s.mem.msgs ++ plan.2.map (fun b => .snoop plan.1 b t x.epoch) ∧ s.onlyMem u) ∧
  (∀ (c : Instr) (a : Agent) (t : LineTag) (k : ReqKind) (m : Msg) (x : Txn) (s : State), requestMsg c = some (a, t, k, m) → okLine t = true →
    (8 ≤ a.val → tagRealm t = false) → (tagRealm t = true → (s.realmAt (tagSlot t)).active = true) →
    s.scrubbed (tagPa t) (tagRealm t) = (false, false) → s.txnOf t = some x → s.behind m = false →
    let ahead := s.stalledAhead (s.hubOf (tagLoc t)) (some a)
    ((s.heldOf t).length + ahead.length < 1024 → ∃ u err, exec c s = .next u ∧ u.heldOf t = s.heldOf t ++ [⟨t, .request k (.agent a) err⟩] ∧ u.txnOf t = some x
      ∧ u.dirOf t = s.dirOf t ∧ u.mem.msgs = removeFirst (·.bare == m) s.mem.msgs ∧ s.onlyMem u) ∧
    (1024 ≤ (s.heldOf t).length + ahead.length → ∃ u, exec c s = .next u ∧ u = { s with obj := u.obj, mem := { s.mem with hubs := u.mem.hubs } }
      ∧ a ∈ (u.hub (s.hubOf (tagLoc t))).stalled ∧ u.heldOf t = s.heldOf t ∧ u.dirOf t = s.dirOf t
      ∧ u.objAt 8 0x112 (hubDie (s.hubOf (tagLoc t))) = (s.objAt 8 0x112 (hubDie (s.hubOf (tagLoc t))) + 1) % 2 ^ 64)) ∧
  (∀ (a : Agent) (t : LineTag) (data : List Byte) (p : Bool) (s : State), s.admits t → data.length = 128 →
    s.behind (.writeBack a t data p) = false →
    (∀ e, s.dirOf t = some e → e.owner = some a → a ∉ e.sharers → ∃ u, exec (.writeBack a t data p) s = .next u ∧ s.onlyMem u
      ∧ (∃ l, u.l3Line t = some l ∧ l.data = data ∧ l.dirty = true
          ∧ l.poison = (p || (e.poison && !(Table.get none (s.agent a).evb t).any (fun v => wholeWritten a v.written)))) ∧ .wbAck a t (s.nextEpoch t) ∈ u.mem.msgs
      ∧ (e.sharers = [] → u.dirOf t = none) ∧ (e.sharers ≠ [] → u.dirSays t .s none e.sharers)) ∧
    ((∀ e, s.dirOf t = some e → e.owner ≠ some a) → ∃ u, exec (.writeBack a t data p) s = .next u ∧ s.onlyMem u ∧ u.l3Line t = s.l3Line t
      ∧ u.dirOf t = s.dirOf t ∧ .wbSuperseded a t (s.nextEpoch t) ∈ u.mem.msgs)) ∧
  (∀ (a : Agent) (t : LineTag) (s : State), s.admits t → s.behind (.evictClean a t) = false →
    ((∀ e, s.dirOf t = some e → a ∉ e.agents) → ∃ u, exec (.evictClean a t) s = .next u ∧ u.dirOf t = s.dirOf t
      ∧ .evictAck a t (s.nextEpoch t) ∈ u.mem.msgs ∧ s.onlyMem u) ∧
    (∀ e, s.dirOf t = some e → a ∈ e.agents → ∃ u, exec (.evictClean a t) s = .next u ∧ s.onlyMem u
      ∧ (e.agents.filter (· ≠ a) = [] → u.dirOf t = none)
      ∧ (e.agents.filter (· ≠ a) ≠ [] → ∃ e', u.dirOf t = some e' ∧ a ∉ e'.agents ∧ ∀ b, b ≠ a → (b ∈ e'.agents ↔ b ∈ e.agents))))

/-- R404, R406, R411, R413, R415: what the last answer to a transaction's snoops makes of the directory, the L3 and the requester, who is
told of poison that the home has marked meanwhile, unless every byte has been written since; an answer that names no open transaction is discarded and counted; a home whose timer expires poisons the line, counts and answers with poison. -/
def Obligations.HomeAnswers : Prop :=
  (∀ (a r : Agent) (t : LineTag) (ep : Byte) (x : Txn) (data : List Byte) (s : State), s.lastAnswer t a ep x → x.by_ = .agent r → r ≠ a →
    data.length = 128 →
    let mark (dirty evicting : Bool) : Bool := (s.dirOf t).any DirEntry.poison
      && !(s.mem.msgs.find? (fun y => y.bare == .rspData a t ep data dirty evicting false)).any Msg.whole
    (x.kind = .readShared → x.fromO = false → s.dirSays t .x (some a) [] →
      (s.behind (.rspData a t ep data true false false) = false → ∃ u, exec (.rspData a t ep data true false false) s = .next u
        ∧ u.dirSays t .o (some a) [r] ∧ u.txnOf t = none ∧ s.onlyMem u
        ∧ .data r t ep .s data (mark true false) ∈ u.mem.msgs ∧ ∃ l, u.l3Line t = some l ∧ l.data = data ∧ l.dirty = true) ∧
      (s.behind (.rspData a t ep data true true false) = false → ∃ u, exec (.rspData a t ep data true true false) s = .next u
        ∧ u.dirSays t .x (some r) [] ∧ u.txnOf t = none ∧ s.onlyMem u
        ∧ .data r t ep .e data (mark true true) ∈ u.mem.msgs ∧ ∃ l, u.l3Line t = some l ∧ l.data = data ∧ l.dirty = true) ∧
      (s.behind (.rspData a t ep data false false false) = false → ∃ u, exec (.rspData a t ep data false false false) s = .next u
        ∧ u.dirSays t .s none [a, r] ∧ u.txnOf t = none ∧ s.onlyMem u
        ∧ .data r t ep .s data (mark false false) ∈ u.mem.msgs) ∧
      (s.behind (.rspShared a t ep) = false → x.errSymbols < 3 → ∃ u d p, exec (.rspShared a t ep) s = .next u ∧ u.dirSays t .s none [a, r]
        ∧ u.txnOf t = none ∧ s.onlyMem u ∧ .data r t ep .s d p ∈ u.mem.msgs) ∧
      (s.behind (.rspInvalid a t ep) = false → ∃ u d p, exec (.rspInvalid a t ep) s = .next u ∧ u.dirSays t .x (some r) [] ∧ u.txnOf t = none
        ∧ s.memFrame u ∧ .data r t ep .e d p ∈ u.mem.msgs)) ∧
    (x.kind = .readOwn → s.dirSays t .x (some a) [] → s.behind (.rspData a t ep data true false false) = false →
      ∃ u, exec (.rspData a t ep data true false false) s = .next u
        ∧ u.dirSays t .x (some r) [] ∧ u.txnOf t = none ∧ s.onlyMem u ∧ .data r t ep .m data (mark true false) ∈ u.mem.msgs)) ∧
  (∀ (a : Agent) (t : LineTag) (ep : Byte) (s : State), okLine t = true → (∀ x, s.txnOf t = some x → x.epoch ≠ ep ∨ a ∉ x.awaiting) →
    let d := hubDie (s.hubOf (tagLoc t))
    let late (c : Instr) (m : Msg) : Prop := s.behind m = false → ∃ u, exec c s = .next u ∧ u.objAt 8 0x117 d = (s.objAt 8 0x117 d + 1) % 2 ^ 64
      ∧ u = { s with obj := u.obj, mem := { s.mem with msgs := removeFirst (·.bare == m) s.mem.msgs, carried := u.mem.carried } }
    late (.rspInvalid a t ep) (.rspInvalid a t ep) ∧ late (.rspShared a t ep) (.rspShared a t ep) ∧
    ∀ data y z p, data.length = 128 → late (.rspData a t ep data y z p) (.rspData a t ep data y z p)) ∧
  (∀ (t : LineTag) (t0 : U64) (s : State) (x : Txn), s.txnOf t = some x →
    (max s.now.toNat t0.toNat < x.deadline → exec (.homeTimeout t t0) s = .next s) ∧
    (∀ r, x.deadline ≤ max s.now.toNat t0.toNat → s.heldOf t = [] → x.kind = .readOwn → x.by_ = .agent r → x.data = none →
      ∃ u d p, exec (.homeTimeout t t0) s = .next u ∧ u.txnOf t = none ∧ .data r t x.epoch .m d p ∈ u.mem.msgs
        ∧ u.now.toNat = max s.now.toNat t0.toNat ∧ (x.errSymbols < 3 → p = true)
        ∧ (∀ b ∈ x.awaiting, .snoop .inv b t (s.nextEpoch t) ∈ u.mem.msgs)
        ∧ ((∀ m, (s.mmu m).fqEn = false) → u.dirSays t .x (some r) []
          ∧ u = { s with mem := u.mem, obj := u.obj, xl := u.xl, now := u.now, cmd := { s.cmd with queues := u.cmd.queues } })))

/-- R331, R396, R399, R403, R407, R408, R415, R416, R425, R426, R527, R546: what a caching agent does on its own events, on snoops and on
completions, by the state of its line; a local event that finds no request entry waits for one, a line that a statistics add holds is neither
evicted nor snooped meanwhile, and a core's access of a poisoned line, or of realm memory, is its access fault. -/
def Obligations.AgentEvents : Prop :=
  ∀ (a : Agent) (t : LineTag) (s : State), okLine t = true →
    let line (u : State) := u.lineAt a t
    let core : Bool := 8 ≤ a.val
    let own : Prop := 8 ≤ a.val → tagRealm t = false
    let pinned : Prop := (s.agent a).pinned.any (fun e => e.1 = t) = true
    let asks (c : Instr) (w : Waiting) (m : Msg) : Prop :=
      (s.entryFor a t → ∃ u, exec c s = .next u ∧ u.waitingAt a t = some w ∧ u.mem.msgs = s.mem.msgs ++ [m] ∧ line u = line s ∧ s.onlyMem u) ∧
      ((s.agent a).parked.any (fun e => e.1 = t) = false → ¬s.entryFor a t → ∃ u, exec c s = .next u
        ∧ (u.agent a).parked = (s.agent a).parked ++ [(t, w)] ∧ u.mem.msgs = s.mem.msgs ∧ line u = line s ∧ s.onlyMem u)
    (8 ≤ a.val → tagRealm t = true → ∀ h, exec (.localRead a t h) s = .next { s with reply := some .accessError }) ∧
    (∀ l, line s = some l →
      (∀ h, own → ∃ u l', exec (.localRead a t h) s = .next u ∧ line u = some l' ∧ l'.st = l.st ∧ l'.data = l.data ∧ u.mem.msgs = s.mem.msgs
        ∧ u.reply = if l.poison && core then some .accessError else s.reply) ∧
      (∀ (off : Fin 128) data amo, own → data ≠ [] → off.val + data.length ≤ 128 → s.waitingAt a t = none →
        ((amo && l.poison && core) = true → exec (.localPartialWrite a t ⟨off, amo⟩ data) s = .next { s with reply := some .accessError }) ∧
        ((amo && l.poison && core) = false → (l.st = .m ∨ l.st = .e) → ∃ u l', exec (.localPartialWrite a t ⟨off, amo⟩ data) s = .next u
          ∧ line u = some l' ∧ l'.st = .m ∧ l'.data = patch l.data off.val data ∧ u.mem.msgs = s.mem.msgs ∧ s.onlyMem u) ∧
        ((amo && l.poison && core) = false → (l.st = .o ∨ l.st = .s) →
          asks (.localPartialWrite a t ⟨off, amo⟩ data) (.forUpgrade off.val data amo) (.upgrade a t))) ∧
      (∀ data, own → data.length = 128 → s.waitingAt a t = none →
        ((l.st = .m ∨ l.st = .e) → ∃ u l', exec (.localFullWrite a t data) s = .next u ∧ line u = some l' ∧ l'.st = .m
          ∧ l'.data = patch l.data 0 data ∧ (l.written < 2 ^ 128 → l'.poison = (l.poison && core)) ∧ u.mem.msgs = s.mem.msgs ∧ s.onlyMem u) ∧
        ((l.st = .o ∨ l.st = .s) → asks (.localFullWrite a t data) (.forUpgrade 0 data false) (.upgrade a t))) ∧
      (pinned → exec (.eviction a t) s = .next s) ∧
      (s.waitingAt a t = none → ¬pinned →
        ((l.st = .m ∨ l.st = .o) → s.evbFull a t = false → ∃ u, exec (.eviction a t) s = .next u ∧ line u = none ∧ s.onlyMem u
          ∧ (Table.get none (u.agent a).evb t).map EvbEntry.data = some l.data ∧ u.mem.msgs = s.mem.msgs ++ [.writeBack a t l.data l.poison]) ∧
        ((l.st = .e ∨ l.st = .s) → ∃ u, exec (.eviction a t) s = .next u ∧ line u = none ∧ u.mem.msgs = s.mem.msgs ++ [.evictClean a t] ∧ s.onlyMem u)) ∧
      (pinned → ∀ ep, exec (.snpInv a t ep) s = .next s ∧ exec (.snpShared a t ep) s = .next s ∧ exec (.snpOnce a t ep) s = .next s) ∧
      (∀ ep, let gives (c : Instr) (k : SnoopKind) (st : Option Moesi) (m : Msg) : Prop := s.behind (.snoop k a t ep) = false → ¬pinned → ∃ u, exec c s = .next u
            ∧ (line u).map CacheLine.st = st ∧ u.mem.msgs = removeFirst (·.bare == .snoop k a t ep) s.mem.msgs ++ [m] ∧ s.onlyMem u
        (l.st = .m → gives (.snpShared a t ep) .shared (some .o) (.rspData a t ep l.data true false l.poison (wholeWritten a l.written))
          ∧ gives (.snpInv a t ep) .inv none (.rspData a t ep l.data true false l.poison (wholeWritten a l.written))
          ∧ gives (.snpOnce a t ep) .once (some .m) (.rspData a t ep l.data true false l.poison (wholeWritten a l.written))) ∧
        (l.st = .o → gives (.snpShared a t ep) .shared (some .o) (.rspData a t ep l.data true false l.poison (wholeWritten a l.written))
          ∧ gives (.snpInv a t ep) .inv none (.rspData a t ep l.data true false l.poison (wholeWritten a l.written))
          ∧ gives (.snpOnce a t ep) .once (some .o) (.rspData a t ep l.data true false l.poison (wholeWritten a l.written))) ∧
        (l.st = .e → gives (.snpShared a t ep) .shared (some .s) (.rspData a t ep l.data false false l.poison)
          ∧ gives (.snpInv a t ep) .inv none (.rspInvalid a t ep)
          ∧ gives (.snpOnce a t ep) .once (some .e) (.rspData a t ep l.data false false l.poison)) ∧
        (l.st = .s → gives (.snpShared a t ep) .shared (some .s) (.rspShared a t ep)
          ∧ gives (.snpInv a t ep) .inv none (.rspInvalid a t ep) ∧ gives (.snpOnce a t ep) .once (some .s) (.rspShared a t ep)))) ∧
    (line s = none → s.waitingAt a t = none → s.sideLine a t = none → s.flightOf a t = none →
      (∀ h, own → asks (.localRead a t h) (.forShared h) (.readShared a t)) ∧
      (∀ (off : Fin 128) data amo, own → data ≠ [] → off.val + data.length ≤ 128 →
        asks (.localPartialWrite a t ⟨off, amo⟩ data) (.forOwn off.val data amo) (.readOwn a t)) ∧
      (∀ data, own → data.length = 128 → asks (.localFullWrite a t data) (.forClaim data) (.writeClaim a t)) ∧
      (exec (.eviction a t) s = .next s) ∧
      (∀ ep e, Table.get none (s.agent a).evb t = some e → s.behind (.snoop .inv a t ep) = false → ¬pinned →
        ∃ u, exec (.snpInv a t ep) s = .next u ∧ (Table.get none (u.agent a).evb t) = some e
          ∧ .rspData a t ep e.data true true e.poison (wholeWritten a e.written) ∈ u.mem.msgs)) ∧
    (s.victim a t false = none → (a.val < 8 → ((s.l2Same a t).filter (fun e => e.2.retained)).length ≤ s.objAt 8 0x200 a.val) →
      (∀ data p, data.length = 128 → s.waitingAt a t = some (.forShared 0) → s.behind (.data a t 0 .s data p) = false →
        ∃ u l, exec (.completionData a t .s data p) s = .next u ∧ line u = some l ∧ l.st = .s ∧ l.data = data ∧ l.poison = p
          ∧ ((s.agent a).parked = [] → u.waitingAt a t = none) ∧ u.reply = (if p && core then some .accessError else s.reply)
          ∧ u = { s with mem := u.mem, obj := u.obj, reply := u.reply }) ∧
      (∀ off d amo data p, data.length = 128 → s.waitingAt a t = some (.forOwn off d amo) → s.behind (.data a t 0 .m data p) = false →
        ∃ u l, exec (.completionData a t .m data p) s = .next u ∧ line u = some l ∧ l.st = .m
          ∧ l.data = (if amo && p && core then data else patch data off d) ∧ ((s.agent a).parked = [] → u.waitingAt a t = none)
          ∧ u.reply = (if amo && p && core then some .accessError else s.reply) ∧ u = { s with mem := u.mem, obj := u.obj, reply := u.reply }) ∧
      (∀ d p, d.length = 128 → s.waitingAt a t = some (.forClaim d) → s.behind (.ack a t 0 p) = false →
        s.mem.msgs.any (fun x => x.bare == .evictAck a t 0) = false →
        ∃ u l, exec (.completionAck a t p) s = .next u ∧ line u = some l ∧ l.st = .m ∧ l.data = d ∧ l.poison = (p && core)
          ∧ ((s.agent a).parked = [] → u.waitingAt a t = none) ∧ s.onlyMem u)) ∧
    (∀ p, s.behind (.ack a t 0 p) = false → s.mem.msgs.any (fun x => x.bare == .evictAck a t 0) = false →
      ∀ off d l, s.waitingAt a t = some (.forUpgrade off d false) → line s = some l → ∃ u l', exec (.completionAck a t p) s = .next u
        ∧ line u = some l' ∧ l'.st = .m ∧ l'.data = patch l.data off d ∧ s.onlyMem u) ∧
    (∀ p, s.behind (.ack a t 0 p) = false → s.mem.msgs.any (fun x => x.bare == .evictAck a t 0) = false →
      ∀ off d amo, s.waitingAt a t = some (.forUpgrade off d amo) → line s = none → ∃ u, exec (.completionAck a t p) s = .next u
        ∧ u.waitingAt a t = some (.forOwn off d amo) ∧ .readOwn a t ∈ u.mem.msgs ∧ s.onlyMem u) ∧
    (∀ p, s.behind (.evictAck a t 0) = false → s.mem.msgs.any (fun x => x.bare == .evictAck a t 0) = true →
      exec (.completionAck a t p) s = .next { s with toDev := s.receive (.evictAck a t 0) }) ∧
    (s.behind (.wbAck a t 0) = false → ∃ u, exec (.wbAck a t) s = .next u ∧ Table.get none (u.agent a).evb t = none ∧ line u = line s ∧ s.onlyMem u) ∧
    (s.behind (.wbSuperseded a t 0) = false → ∃ u, exec (.wbSuperseded a t) s = .next u ∧ Table.get none (u.agent a).evb t = none
      ∧ line u = line s ∧ s.onlyMem u ∧ (a.val < 8 → u.objAt 8 0x107 a.val = (s.objAt 8 0x107 a.val + 1) % 2 ^ 64))

/-- R379, R383, R385 to R387, R396, R415: when a write-combining line drains, what a patrol scrub, a parity error and a margining run do. -/
def Obligations.MemoryUpkeep : Prop :=
  (∀ (t : LineTag) (err : Nat) (s : State),
    (s.wcbLine t = none → exec (.wcbDrain t err) s = .next s) ∧
    (∀ w, s.wcbLine t = some w → s.now.toNat < w.since.toNat + 2000 → (present (s.hub (s.hubOf (tagLoc t))).wcb).length < 512 →
      exec (.wcbDrain t err) s = .next s) ∧
    (∀ w, s.wcbLine t = some w → w.since.toNat + 2000 ≤ s.now.toNat → tagDram t = true →
      (w.whole = true → w.data.length = 128 → ∃ u, exec (.wcbDrain t err) s = .next u ∧ u.wcbLine t = none ∧ u.dramData t = w.data
        ∧ u.dramPoisoned t = s.dramPoisoned t ∧ s.onlyMem u) ∧
      (w.whole = false → err < 3 → (s.dramData t).length = 128 → ∃ u, exec (.wcbDrain t err) s = .next u ∧ u.wcbLine t = none
        ∧ u.dramData t = mergeMask w.mask w.data (s.dramData t) ∧ u.dramPoisoned t = s.dramPoisoned t ∧ s.onlyMem u))) ∧
  (∀ (h : HubId) (err : Nat) (s : State), (s.hub h).scrubPos + 1 < 2 ^ 32 → ∃ u, exec (.patrolScrub h err) s = .next u
    ∧ (u.hub h).scrubPos = (s.hub h).scrubPos + 1 ∧ s.memFrame u ∧ (err < 3 → u.mem.dram = s.mem.dram ∧ s.onlyMem u)) ∧
  (∀ (a : Agent) (t : LineTag) (l : CacheLine) (s : State), s.lineAt a t = some l →
    ((l.st = .e ∨ l.st = .s) → s.waitingAt a t = none → (s.toDev.setLine a t none).entryFor a t → ∃ u, exec (.parityError (.dataL2 a t)) s = .next u ∧ u.lineAt a t = none
      ∧ (∃ h, u.waitingAt a t = some (.forShared h)) ∧ .readShared a t ∈ u.mem.msgs ∧ s.onlyMem u) ∧
    ((l.st = .m ∨ l.st = .o) → (∀ m, (s.mmu m).fqEn = false) → ∃ u, exec (.parityError (.dataL2 a t)) s = .next u
      ∧ u.lineAt a t = some { l with poison := true, written := 0 } ∧ u.dramPoisoned t = true ∧ u = { s with mem := u.mem, obj := u.obj, xl := u.xl })) ∧
  (∀ (d : Die) (s : State), exec (.parityError (.tagCorrected d)) s = .next { s with mem := { s.mem with tagsCorrected := s.mem.tagsCorrected + 1 } }) ∧
  (∀ (v : Byte) (s : State),
    (s.objAt 0x0C 0x400 0 ≠ 3 → ∃ u, exec (.marginRun v) s = .next u ∧ u.objAt 7 0x303 0 = 3 ∧ u = { s with obj := u.obj }) ∧
    (s.objAt 0x0C 0x400 0 = 3 → v = 1 → ∃ u, exec (.marginRun v) s = .next u ∧ u.objAt 7 0x303 0 = 1 ∧ u = { s with obj := u.obj })) ∧
  (∀ (edges : List (Int × Int)) (s : State), edges.length = 18 → s.objAt 7 0x303 0 = 1 → ∃ u, exec (.marginSweepDone edges) s = .next u
    ∧ u.mem = { s.mem with margin := edges, dram := [], dramKey := [], initKey := u.mem.initKey, dramPoison := [] } ∧ u.objAt 7 0x303 0 = 2
    ∧ u = { s with mem := u.mem, obj := u.obj, fresh := u.fresh })

/-- R454, R457, R458, R460, R461, R463, R465 to R471, R480: a miss opens one entry of its page or waits for one, a walk that finds the page answers
its streams, one that does not becomes a page request in a free slot, and an answer, or none in time, frees the slot. -/
def Obligations.PageRequests : Prop :=
  (∀ (die : Die) (stream : Byte) (q : QueueId) (asid : Asid) (va : U64) (rights : BitVec 3) (s : State), hasTc die = true → vaError va.toNat = 0 →
    rights ≠ 0 →
    let want : Rights := ⟨rights.getLsbD 0, rights.getLsbD 1, rights.getLsbD 2⟩
    let vpn := va.toNat / 4096
    let hits (e : TcEntry) : Prop := e.asid = asid.toNat ∧ e.vpn ≤ vpn ∧ vpn < e.vpn + e.pages ∧ e.rights.covers want = true
    ((∃ e ∈ s.xl.tcs[die], hits e) → exec (.translationMiss die stream q asid va rights) s = .next s) ∧
    ((∀ e ∈ s.xl.tcs[die], ¬hits e) →
      (∀ e ∈ s.xl.misses, ¬(e.die = die ∧ e.asid = asid.toNat ∧ e.vpn = vpn)) →
      ((s.xl.misses.filter (fun e => e.die = die)).length < 64 → ∃ u, exec (.translationMiss die stream q asid va rights) s = .next u
        ∧ u.xl.misses = s.xl.misses ++ [{ die := die, asid := asid.toNat, vpn := vpn, va := va.toNat,
                                          streams := [⟨stream.toNat, q.val, want, va.toNat, []⟩], walking := true }]
        ∧ u.objAt 1 0x101 die.val = (s.objAt 1 0x101 die.val + 1) % 2 ^ 64 ∧ u = { s with obj := u.obj, xl := { s.xl with misses := u.xl.misses } }) ∧
      (64 ≤ (s.xl.misses.filter (fun e => e.die = die)).length → ∃ u, exec (.translationMiss die stream q asid va rights) s = .next u
        ∧ u.objAt 1 0x103 die.val = (s.objAt 1 0x103 die.val + 1) % 2 ^ 64 ∧ u = { s with obj := u.obj }))) ∧
  (∀ (die : Die) (asid : Asid) (vpn : Nat) (e : MissEntry) (d : Dev) (r : WalkEnd) (s : State), s.xl.misses = [e] → e.die = die → e.asid = asid.toNat →
    e.vpn = vpn → e.walking = true → e.pf = [] → s.walk die asid.toNat vpn = (d, some r) → d.xl.misses = s.xl.misses → e.streams ≠ [] →
    (∀ t, r.entry = some t → t.asid = asid.toNat → t.vpn ≤ vpn → vpn < t.vpn + t.pages → t.rights.r = true → (∀ w ∈ e.streams, t.rights.covers w.rights = true) →
      ∃ u, exec (.walkComplete die asid vpn) s = .next u ∧ u.xl.misses = [] ∧ u.mem = d.mem ∧ u.cmd = d.cmd) ∧
    (r.entry = none → (d.mmu (mmuOf die)).fqEn = true → (d.mmu (mmuOf die)).slots = [] → (d.mmu (mmuOf die)).holding = [] →
      (d.mmu (mmuOf die)).fqHead = (d.mmu (mmuOf die)).fqTail → e.streams.length ≤ 16 →
      (∀ k, k < 2 → d.lineBusy (tagOf ((d.mmu (mmuOf die)).entryAddr k) false) = false) →
      ∃ u x, exec (.walkComplete die asid vpn) s = .next u ∧ Table.get none (u.mmu (mmuOf die)).slots 0 = some x ∧ x.outstanding = true
        ∧ x.die = die ∧ x.asid = asid.toNat ∧ x.vpn = vpn ∧ x.streams = e.streams
        ∧ x.deadline = d.now + BitVec.ofNat 64 (1000 * (d.mmu (mmuOf die)).respTimeoutUs.toNat)
        ∧ (u.mmu (mmuOf die)).fqTail = (d.mmu (mmuOf die)).fqTail + 2)) ∧
  (∀ (m : MmuId) (tag : U16) (t0 : U64) (s : State),
    (s.prSlot m tag = none →
      exec (.prRespResolved m tag) s = .next (s.modMmu m (fun x => { x with respErr := true })) ∧
      exec (.prRespFailed m tag) s = .next (s.modMmu m (fun x => { x with respErr := true })) ∧
      exec (.prTimeout m tag t0) s = .next s) ∧
    (∀ i x, s.prSlot m tag = some (i, x) →
      (∀ d r t, (s.bump 1 0x110 (8 + m.val) 1).walk x.die x.asid x.vpn = (d, some r) → r.entry = some t →
        (∀ w ∈ x.streams, t.rights.covers w.rights = true) → (d.mmu m).waitingPr = [] →
        ∃ u, exec (.prRespResolved m tag) s = .next u ∧ (u.mmu m).slots = ((d.freePr m i x).mmu m).slots ∧ u.mem = d.mem ∧ u.cmd = d.cmd) ∧
      (max s.now.toNat t0.toNat < x.deadline.toNat → exec (.prTimeout m tag t0) s = .next s) ∧
      (∀ (w : WaitingStream) (h : w.queue < 2048), x.streams = [w] → 18 ≤ x.die.val → w.stream = 0xF2 → (w.for_ = [] ∨ w.for_ = [none]) →
        let q : QueueId := ⟨w.queue, h⟩
        s.fetchWaits q x.vpn = true → s.running q = [] → (s.mmu m).waitingPr = [] →
        let failed (c : Instr) : Prop := ∃ u, exec c s = .next u ∧ u.stopsWith q (if x.walk = .rightLacking ∨ (w.rights.w = true ∧ s.pageSealed x.asid x.vpn = true) then 5 else 4)
          ∧ Table.get none (u.mmu m).slots i = some { x with outstanding := false, streams := [] }
          ∧ u.objAt 1 0x111 (8 + m.val) = (s.objAt 1 0x111 (8 + m.val) + 1) % 2 ^ 64
        failed (.prRespFailed m tag) ∧ (x.deadline.toNat ≤ max s.now.toNat t0.toNat → failed (.prTimeout m tag t0))))) ∧
  (∀ (m : MmuId) (s : State),
    ((s.mmu m).holding = [] → exec (.heldRecordWrite m) s = .next s) ∧
    (∀ r rs, (s.mmu m).holding = r :: rs → r.request = none →
      ((s.mmu m).free < r.entries → exec (.heldRecordWrite m) s = .next s) ∧
      ((∃ k, k < r.entries ∧ s.lineBusy (tagOf ((s.mmu m).entryAddr k) false) = true) → exec (.heldRecordWrite m) s = .next s) ∧
      (r.entries ≤ (s.mmu m).free → (∀ k, k < r.entries → s.lineBusy (tagOf ((s.mmu m).entryAddr k) false) = false) → s.mem.dramErrors = [] →
        ∃ u, exec (.heldRecordWrite m) s = .next u
        ∧ (u.mmu m).holding = rs ∧ (u.mmu m).fqTail = (s.mmu m).fqTail + BitVec.ofNat 32 r.entries)))

/-- R402, R430, R431, R472, R473, R478, R754: what IOTINVAL.VMA removes from the translation, walk and context caches (of a page, every translation
that its leaf has given), IOFENCE.C's write and what it waits for, the command errors that stop a queue, and the writes of ctx_base and fq_base;
how a command queue that is on moves on is the model's choice (log entry 24). -/
def Obligations.Invalidation : Prop :=
  (∀ (m : MmuId) (av pscv : Bool) (pscid : Asid) (addr : U64) (s : State), (s.mmu m).cqStopped = false →
    let a := pscid.toNat
    let hit (e : TcEntry) : Bool := (!pscv || e.asid = a)
      && (!(pscv && av) || (e.leafVpn ≤ addr.toNat / 4096 && addr.toNat / 4096 < e.leafVpn + e.leafPages))
    (∃ u, exec (.iotinvalVma m true av pscv pscid addr) s = .next u ∧ (u.mmu m).cqStopped = true ∧ (∀ k, k ≠ m → u.mmu k = s.mmu k)
      ∧ u = { s with xl := { s.xl with mmus := u.xl.mmus } }) ∧
    ∃ u, exec (.iotinvalVma m false av pscv pscid addr) s = .next u
      ∧ (∀ d : Die, u.xl.tcs[d] = (s.xl.tcs[d]).filter (fun e => !hit e))
      ∧ (∀ k, (u.mmu k).walkCache = (if pscv && av then (s.mmu k).walkCache else (s.mmu k).walkCache.filter (fun e => pscv && e.asid ≠ a))
          ∧ (u.mmu k).ctxCache = (if pscv && av then (s.mmu k).ctxCache else (s.mmu k).ctxCache.filter (fun e => pscv && e.asid ≠ a))
          ∧ (u.mmu k).slots = (s.mmu k).slots)
      ∧ s.memFrame u ∧ ((s.mmu m).cqIdle = true → u = { s with obj := u.obj, xl := { s.xl with tcs := u.xl.tcs, mmus := u.xl.mmus } })
      ∧ ((s.mmu m).cqIdle = false → (u.mmu m).cqh.toNat = ((s.mmu m).cqh.toNat + 1) % (s.mmu m).cqSize)) ∧
  (∀ (m : MmuId) (c : Instr) (s : State), (s.mmu m).cqStopped = true →
    ((∃ gv av pscv pscid addr, c = .iotinvalVma m gv av pscv pscid addr) ∨ ∃ av addr data, c = .iofenceC m av addr data) → exec c s = .next s) ∧
  (∀ (m : MmuId) (addr : U64) (data : U32) (s : State), (s.mmu m).cqStopped = false →
    let open_ : Bool := (s.mmu m).unanswered.any (fun e => (s.asked e.1).contains e.2)
    let busy : Bool := s.lineBusy (tagOf (addr.toNat / 4 * 4) false)
    (open_ = true → ∀ av, exec (.iofenceC m av addr data) s = .next s) ∧
    (busy = true → exec (.iofenceC m true addr data) s = .next s) ∧
    (open_ = false →
      (∃ u, exec (.iofenceC m false addr data) s = .next u ∧ (u.mmu m).unanswered = [] ∧ s.memFrame u
        ∧ ((s.mmu m).cqIdle = true → u = { s with xl := { s.xl with mmus := u.xl.mmus } })) ∧
      (busy = false → addr.toNat < 2 ^ 41 → ∃ u, exec (.iofenceC m true addr data) s = .next u ∧ s.memFrame u
        ∧ ((s.mmu m).cqIdle = true →
          u.mem = ((s.modMmu m (fun x => { x with unanswered := [] })).physWrite (addr.toNat / 4 * 4) (leBytes 4 data.toNat) false ⟨8 + m.val, by omega⟩).mem
            ∧ (s.mem.dramErrors = [] → u = { s with mem := u.mem, obj := u.obj, xl := { s.xl with mmus := u.xl.mmus } }))) ∧
      (busy = false → 2 ^ 41 ≤ addr.toNat → ∃ u, exec (.iofenceC m true addr data) s = .next u ∧ (u.mmu m).cqStopped = true
        ∧ u = { s with xl := { s.xl with mmus := u.xl.mmus } }))) ∧
  (∀ (m : MmuId) (v : U64) (s : State),
    let fits := v.toNat % 2 ^ 18 = 0 ∧ v.toNat + 2 ^ 18 ≤ 2 ^ 41
    (fits → exec (.ctxBaseWrite m v) s = .next { s with xl := { s.xl with ctxBase := v } }
      ∧ ∃ u, exec (.fqBaseWrite m v) s = .next u ∧ (u.mmu m).fqBase = v ∧ (∀ k, k ≠ m → u.mmu k = s.mmu k)
        ∧ u = { s with xl := { s.xl with mmus := u.xl.mmus } }) ∧
    (¬fits → exec (.ctxBaseWrite m v) s = .next s ∧ exec (.fqBaseWrite m v) s = .next s))

/-- R494, R495, R505, R506: an engine goes on to the next ready channel in ascending number, wrapping round, and not before the bytes of its quantum
are taken; a work entry whose output and result are written counts as the next unit, and a failed one leaves a result with no count and no output length. -/
def Obligations.ServiceSteps : Prop :=
  (∀ (last : Nat) (l : List Nat), (∀ c ∈ l, c < 256) →
    (l = [] → nextChannel last l = none) ∧
    (l ≠ [] → ∃ c, nextChannel last l = some c ∧ c ∈ l ∧ ∀ b ∈ l, (c + 255 - last % 256) % 256 ≤ (b + 255 - last % 256) % 256)) ∧
  (∀ (sv : SvId) (code : Fin 5) (taken : Nat) (s : State),
    let die : Die := ⟨18 + sv.val, by omega⟩
    let i := engineIdx die code.val
    let e := s.engine i
    let moves : Prop := ∃ u, exec (.quantumEnd sv code taken) s = .next u
      ∧ u.engine i = (match nextChannel e.last (s.readyChannels die code.val) with
          | none => { e with channel := none }
          | some c => { channel := some c, quantum := s.objAt 6 0x200 0, last := c })
      ∧ (∀ j, j ≠ i → u.engine j = s.engine j) ∧ u = { s with svc := { s.svc with engines := u.svc.engines }, obj := u.obj }
    (e.channel = none → moves) ∧
    (∀ c, e.channel = some c → (e.quantum ≤ e.used + taken ∨ c ∉ s.readyChannels die code.val) → moves) ∧
    (∀ c, e.channel = some c → e.used + taken < e.quantum → c ∈ s.readyChannels die code.val → exec (.quantumEnd sv code taken) s = .next s)) ∧
  (∀ (slot : SlotId) (s : State) (o : Operation) (v : ServiceOp) (bytes : List Byte) (x : EntryOut), s.op slot = some o →
    o.body = .service v → iOpcode o.word = 0x50 ∨ iOpcode o.word = 0x51 ∨ iOpcode o.word = 0x52 ∨ iOpcode o.word = 0x53 →
    o.begun = true → o.status = 0 → o.failed = none → o.aborting = none → v.finished = false → v.mh = none →
    let code := serviceEngine (iOpcode o.word)
    let g := s.engine (engineIdx (homeDie o.queue) code)
    g.channel = some (s.queue o.queue).channel → g.used < g.quantum → (s.queue o.queue).channel ∈ s.readyChannels (homeDie o.queue) code →
    let p := s.channelPort o
    let r := s.readVa p (v.inp.base + 32 * v.next) 32
    let e := leNat bytes
    let y := r.1.performEntry o v e
    r.2 = .ok bytes → y.2 = .ok x →
    let result := if x.status = 0 then resultBytes 0 x.count x.out.length else resultBytes x.status 0 0
    let w := y.1.writeSets p [(v.out, iOpcode o.word = 0x50 && v.option = 0, wOff e, x.out), (v.results.getD v.out, false, 16 * v.next, result)]
    w.2 = .ok () → ∃ u, exec (.workEntryDone slot) s = .next u ∧ u.mem = w.1.mem ∧ s.sameBeyond u
      ∧ u.op slot = some { o with written := o.written ++ [v.next],
                                  body := .service { v with next := v.next + 1, finished := v.units ≤ v.next + 1 } })

/-- R525, R531 to R538: realm control takes one command at a time, whose status reads busy until it is done; what CREATE, DESTROY, LOADKEY, DROPKEY, QUOTE
and SCRUB leave of a realm, and the status each ends with. -/
def Obligations.RealmControl : Prop :=
  ∀ (s : State), s.svc.realm < 64 →
    let r := s.svc.realm
    let x := s.realmAt r
    let ends (c : Instr) (st : Byte) (y : Realm) : Prop := ∃ u, exec c s = .next u ∧ u.svc.busy = true ∧ u.svc.status = 1 ∧ u.svc.doneStatus = st
      ∧ u.realmAt r = y ∧ (∀ k, k ≠ r → u.realmAt k = s.realmAt k) ∧ u.svc.engines = s.svc.engines ∧ u.pow = s.pow ∧ u.mgmt = s.mgmt
      ∧ u.pending = s.pending
    let same (c : Instr) (st : Byte) : Prop := ends c st x
    (s.svc.busy = true → exec .realmCreate s = .next s ∧ exec .realmDestroy s = .next s ∧ exec .realmQuote s = .next s
      ∧ exec .realmLoadKey s = .next s ∧ exec .realmDropKey s = .next s ∧ exec .realmScrub s = .next s
      ∧ (s.svc.todo = none → s.realmPushesWait = false → ∃ u, exec .realmCommandDone s = .next u
        ∧ u.svc = { s.svc with busy := false, status := s.svc.doneStatus, running := none } ∧ u = { s with svc := u.svc })
      ∧ (s.svc.todo = none → s.realmPushesWait = true → exec .realmCommandDone s = .next s)
      ∧ (∀ k blob, s.svc.todo = some (.loadKey k blob) → s.linesOpen (spanLines blob 220) = false → exec .realmCommandDone s = .next s)
      ∧ ∀ k report nonce, s.svc.todo = some (.quote k report nonce) → s.linesOpen (spanLines nonce 48) = false →
          exec .realmCommandDone s = .next s) ∧
    (s.svc.busy = false → exec .realmCommandDone s = .next s) ∧
    (s.svc.busy = false → x.active = true → same .realmCreate 2) ∧
    (s.svc.busy = false → x.active = false → ∃ k n, ends .realmCreate 0 { active := true, memKey := k, exchange := n }
      ∧ same .realmDestroy 2 ∧ same .realmQuote 2 ∧ same .realmLoadKey 2 ∧ same .realmDropKey 2) ∧
    (s.svc.busy = false → x.active = true →
      (s.realmInUse r = true → same .realmDestroy 3) ∧
      (s.realmInUse r = false → ends .realmDestroy 0 {} ∧ ∃ u, exec .realmDestroy s = .next u
        ∧ ∀ t, tagRealm t = true → tagSlot t = r → (∀ a, u.lineAt a t = none ∧ Table.get none (u.agent a).evb t = none) ∧ u.l3Line t = none
          ∧ u.wcbLine t = none ∧ u.dirOf t = none) ∧
      (let i := s.svc.arg1.toNat % 256
       ends .realmDropKey 0 { x with store := Table.set none x.store i ((Table.get none x.store i).map (fun e => { lastGen := e.lastGen })) }) ∧
      (2 ^ 41 < s.svc.arg0.toNat + 220 → same .realmLoadKey 5) ∧
      (s.svc.arg0.toNat + 220 ≤ 2 ^ 41 → s.linesOpen (spanLines s.svc.arg0.toNat 220) = true →
        (∀ i gen key, openBlob r x (s.ownRead s.svc.arg0.toNat 220).2 = .inl (i, gen, key) →
          ends .realmLoadKey 0 { x with store := Table.set none x.store i (some { key := key, gen := gen, valid := true, lastGen := gen }) }) ∧
        (∀ cause, openBlob r x (s.ownRead s.svc.arg0.toNat 220).2 = .inr cause → same .realmLoadKey 4)) ∧
      (s.svc.arg0.toNat + 220 ≤ 2 ^ 41 → s.linesOpen (spanLines s.svc.arg0.toNat 220) = false →
        same .realmLoadKey 0 ∧ ∃ u, exec .realmLoadKey s = .next u ∧ u.svc.todo = some (.loadKey r s.svc.arg0.toNat)) ∧
      ((2 ^ 41 < s.svc.arg0.toNat + 6136 ∨ 2 ^ 41 < s.svc.arg1.toNat + 48) → same .realmQuote 5) ∧
      (s.svc.arg0.toNat + 6136 ≤ 2 ^ 41 → s.svc.arg1.toNat + 48 ≤ 2 ^ 41 → s.linesOpen (spanLines s.svc.arg1.toNat 48) = false →
        same .realmQuote 0 ∧ ∃ u, exec .realmQuote s = .next u ∧ u.svc.todo = some (.quote r s.svc.arg0.toNat s.svc.arg1.toNat)) ∧
      (s.svc.arg0.toNat + 6136 ≤ 2 ^ 41 → s.svc.arg1.toNat + 48 ≤ 2 ^ 41 → s.linesOpen (spanLines s.svc.arg1.toNat 48) = true →
        let nonce := (s.ownRead s.svc.arg1.toNat 48).2
        ∀ d b, (s.ownRead s.svc.arg1.toNat 48).1.signReport 2 r nonce (p384Public x.private_) = (d, some b) → d.svc = s.svc → d.pow = s.pow → d.mgmt = s.mgmt →
          d.pending = s.pending → ends .realmQuote 0 { x with nonce := nonce })) ∧
    (s.svc.busy = false →
      let a := s.svc.arg2.toNat
      let start := s.svc.arg0.toNat % 2 ^ 42
      let len := s.svc.arg1.toNat
      let ok : Prop := start % 4096 = 0 ∧ len % 4096 = 0 ∧ start + len ≤ 2 ^ 41 ∧ ¬(bit a 14 = bit a 6 ∧ bits a 13 8 = bits a 5 0)
        ∧ (bit a 14 = true → (s.realmAt (bits a 13 8)).active = true) ∧ (bit a 14 = false → bits a 13 8 = 0) ∧ (bit a 6 = false → bits a 5 0 = 0)
      (¬ok → same .realmScrub 5) ∧
      (ok → ∃ u, exec .realmScrub s = .next u ∧ u.svc.status = 1 ∧ u.svc.doneStatus = 0 ∧ u.svc.realms = s.svc.realms
        ∧ u.svc.running = some { start := start, len := len, newFlag := bit a 14, newSlot := bits a 13 8, oldFlag := bit a 6, oldSlot := bits a 5 0 }))

/-- R543 to R545, R548 to R551: a port takes the flit it expects, with the messages that its sender chose, discards others, and answers a CRC error
by discarding up to the replay; a NAK has every unacknowledged flit sent again, up to its bounds, past which the connection goes down; one that
goes down stays down, its ends flood the notice of it, and new route sets leave it out. -/
def Obligations.FlitRetry : Prop :=
  (∀ (die : Die) (port : Fin 6) (s : State), connOf die.val port.val = none →
    (∀ f, exec (.flitReceive die port f) s = .next s) ∧ ∀ a, exec (.flitNak die port a) s = .next s) ∧
  (∀ (die : Die) (port : Fin 6) (c d p : Nat) (s : State), connOf die.val port.val = some (c, d, p) →
    let x := s.port die.val port.val
    let y := s.port d p
    let only (u : State) : Prop := u = { s with
        fab := { s.fab with ports := u.fab.ports, syncSeen := u.fab.syncSeen, told := u.fab.told }, obj := u.obj
        mem := { s.mem with carried := u.mem.carried } }
      ∧ ∀ (e : Die) (b : Fin 6), (e, b) ≠ (die, port) → (e.val, b.val) ≠ (d, p) → u.port e.val b.val = s.port e.val b.val
    let bad (u : State) : Prop := u.port die.val port.val = { x with discarding := true, nakOut := some (x.rxNext - 1) }
      ∧ u.objAt 9 0x103 c = (s.objAt 9 0x103 c + 1) % 2 ^ 64
    (s.connUp c = false → (∀ f, exec (.flitReceive die port f) s = .next s) ∧ ∀ a, exec (.flitNak die port a) s = .next s) ∧
    (s.connUp c = true →
      (∀ f : D2dFlit, 3 ≤ f.kind.val → exec (.flitReceive die port f) s = .next s) ∧
      (∀ f : D2dFlit, f.kind.val = 1 → y.flits.any (fun e => e.1 = f.seq) = false → 256 ≤ y.flits.length →
        exec (.flitReceive die port f) s = .next s) ∧
      (∀ f : D2dFlit, f.kind.val = 1 → (y.flits.any (fun e => e.1 = f.seq) = true ∨ y.flits.length < 256) →
        let known : Bool := y.flits.any (fun e => e.1 = f.seq)
        let filled := y.fill 2 true (s.atPort d p)
        let z : D2dPort := if known then y
          else { filled.1 with
            sent := f.seq, flits := y.flits ++ [(f.seq, filled.2)]
            debugWait := if (s.atPort d p).any (fun e => e.channel = 5 && !filled.2.contains e) then filled.1.debugWait + 1 else filled.1.debugWait }
        ∃ u, exec (.flitReceive die port f) s = .next u ∧ only u ∧ u.port d p = z ∧
          (d2dCrcOk f = false → bad u) ∧
          (d2dCrcOk f = true → f.seq ≠ x.rxNext → u.port die.val port.val = x) ∧
          (d2dCrcOk f = true → f.seq = x.rxNext →
            u.port die.val port.val = { ((x.ack f.ack).credit f.credits) with rxNext := f.seq + 1, discarding := false, nakOut := none }
            ∧ (x.ack f.ack).acked = f.ack
            ∧ ∀ g l, z.flits.find? (fun e => e.1 = f.seq) = some (g, l) → ∀ e ∈ l, e.dst ≠ die.val → { e with at_ := die.val } ∈ u.mem.carried)) ∧
      (∀ f : D2dFlit, (f.kind.val = 0 ∨ f.kind.val = 2) → d2dCrcOk f = false → ∃ u, exec (.flitReceive die port f) s = .next u ∧ only u ∧ bad u) ∧
      (∀ f : D2dFlit, (f.kind.val = 0 ∨ f.kind.val = 2) → d2dCrcOk f = true → x.discarding = true → exec (.flitReceive die port f) s = .next s) ∧
      (∀ f : D2dFlit, f.kind.val = 0 → d2dCrcOk f = true → x.discarding = false → ∃ u, exec (.flitReceive die port f) s = .next u ∧ only u
        ∧ u.port die.val port.val = (x.credit f.credits).ack f.ack ∧ u.port d p = y) ∧
      (∀ f : D2dFlit, f.kind.val = 2 → d2dCrcOk f = true → x.discarding = false →
        exec (.flitReceive die port f) s
          = exec (.flitNak die port f.ack) { s with toDev := s.modPort die.val port.val (fun x => x.credit f.credits) }) ∧
      (∀ ack : BitVec 12,
        let n := (x.sent - ack).toNat
        ((n = 0 ∨ 256 < n) → exec (.flitNak die port ack) s = .next s) ∧
        (0 < n → n ≤ 256 →
          let again := x.firstNak.isSome && x.nakSeq = ack + 1
          let first := if again then x.firstNak else some s.now
          let k := if again then x.replays + 1 else 1
          let z : D2dPort := { x with acked := ack, nakSeq := ack + 1, firstNak := first, replays := k }
          let late : Prop := ∃ t, first = some t ∧ t.toNat + 1000 ≤ s.now.toNat
          let a : Dev := s.modPort die.val port.val (fun _ => z)
          let spent (a : Dev) : State := { s with toDev := a.modPort die.val port.val (fun x => { x with failed := true }) }
          (∀ w : ConnId, w.val = c →
            (17 ≤ k → exec (.flitNak die port ack) s = exec (.connectionDown w true []) (spent a)) ∧
            (k < 17 → late → exec (.flitNak die port ack) s = exec (.connectionDown w false []) (spent (a.bump 9 0x102 c n)))) ∧
          (k < 17 → ¬late → ∃ u, exec (.flitNak die port ack) s = .next u ∧ only u ∧ u.port d p = y ∧ u.mem = s.mem
            ∧ u.port die.val port.val = z ∧ u.objAt 9 0x102 c = (s.objAt 9 0x102 c + n) % 2 ^ 64))))) ∧
  (∀ (c : ConnId) (byReplays : Bool) (lost : List LostMessage) (s : State),
    (s.connUp c.val = false → exec (.connectionDown c byReplays lost) s = .next s) ∧
    (s.connUp c.val = true → (∀ m, (s.mmu m).fqEn = false) → isolatedDies (s.downMask + 2 ^ c.val) = isolatedDies s.downMask →
      ∃ u, exec (.connectionDown c byReplays lost) s = .next u ∧ u.connUp c.val = false ∧ (∀ k : ConnId, k ≠ c → u.connUp k.val = s.connUp k.val)
        ∧ u.fab.routeStale = true ∧ u.fab.isolated = s.fab.isolated
        ∧ (∀ e, connEnds[c.val]? = some e → (u.port e.1.1 e.1.2).flits = [] ∧ (u.port e.2.1 e.2.2).flits = []
          ∧ (∀ i : Die, i.val ≠ e.1.1 → ⟨.notice c.val (Table.get 0 s.fab.syncSent e.1.1 + 1), e.1.1, i.val, e.1.1⟩ ∈ u.mem.carried)
          ∧ (∀ i : Die, i.val ≠ e.2.1 → ⟨.notice c.val (Table.get 0 s.fab.syncSent e.2.1 + 1), e.2.1, i.val, e.2.1⟩ ∈ u.mem.carried)
          ∧ ∀ a t g, lost = [.completion a t g] → (s.port e.1.1 e.1.2).flits = [] → (s.port e.2.1 e.2.2).flits = [] →
            .data a t 0 g zeroLine true ∈ u.mem.msgs))) ∧
  (∀ s : State, ∃ u, exec .routeLoad s = .next u ∧ u.fab.routeStale = false ∧ (∀ c : ConnId, bit u.fab.routes c.val = !s.connUp c.val)
    ∧ u = { s with fab := { s.fab with routes := u.fab.routes, routeStale := false } })

/-- R555, R558, R559, R561, R563 to R565, R571, R572: the offset that a time exchange publishes; the codewords that FEC counts; training, retry and its
bound, and what brings a link down or trains it again. That a write of link_enable to an enabled link waits until the link is idle, as one of
link_role does, is the model's reading. -/
def Obligations.LinkControl : Prop :=
  ∀ (l : LinkId) (s : State),
    let x := s.link l
    let st := s.objAt 0x0A 0x100 l.val
    let only (u : State) : Prop := u = { s with fab := { s.fab with links := u.fab.links, lastClass := u.fab.lastClass }, obj := u.obj, eventLog := u.eventLog, eventsOut := u.eventsOut }
      ∧ ∀ k : LinkId, k.val / 8 ≠ l.val / 8 → u.link k = s.link k
    let counted (u : State) (f : LinkFlit) : Prop :=
      u.objAt 0x0A 0x104 l.val = (if f.fec.corrected = 0 then s.objAt 0x0A 0x104 l.val else (s.objAt 0x0A 0x104 l.val + f.fec.corrected) % 2 ^ 64)
      ∧ u.objAt 0x0A 0x105 l.val = (if f.fec.uncorrected = 0 then s.objAt 0x0A 0x105 l.val else (s.objAt 0x0A 0x105 l.val + f.fec.uncorrected) % 2 ^ 64)
    let past (o : Option U64) : Prop := ∃ t, o = some t ∧ t.toNat + 20000 ≤ s.now.toNat
    let told (u : State) (v : Nat) : Prop := v ≠ st → ∃ e, e.kind = 5 ∧ e.detail = l.val + v * 256 ∧ u.eventsOut = s.eventsOut ++ [e]
    (s.linkUp l = false → exec (.timeExchange l) s = .next s ∧ (∀ a b c d, exec (.timeFrame l a b c d) s = .next s) ∧
      (∀ a, exec (.linkNak l a) s = .next s) ∧ ∀ f, exec (.linkFlitReceive l f) s = .next s) ∧
    (s.linkUp l = true →
      (∃ u, exec (.timeExchange l) s = .next u ∧ u.link l = { x with t1 := s.now } ∧ u.obj = s.obj ∧ only u) ∧
      (∀ t1 t2 t3 t4 : U64, ∃ u, exec (.timeFrame l t1 t2 t3 t4) s = .next u ∧ only u ∧
        let off := (((t2.toNat : Int) - t1.toNat) - ((t4.toNat : Int) - t3.toNat)) * 500
        u.objAt 0x0A 0x108 l.val = clampCode 64 off ∧ u.objAt 0x0A 0x10A l.val = t4.toNat ∧
        (x.history.length < 64 → (u.link l).history = x.history ++ [((t4.toNat : Int), off)]) ∧
        (x.history.length = 64 → (u.link l).history = x.history.drop 1 ++ [((t4.toNat : Int), off)])) ∧
      (∀ f : LinkFlit, 5 ≤ f.kind.val → exec (.linkFlitReceive l f) s = .next s) ∧
      (∀ f : LinkFlit, f.kind.val < 5 → (flitCrcOk f = false ∨ f.fec.hit = true) → (f.kind.val = 2 → ¬past x.firstNak) →
        ∃ u, exec (.linkFlitReceive l f) s = .next u ∧ only u ∧ counted u f ∧ ∃ g o, g.kind.val = 2 ∧ g.ack = x.rxNext - 1
          ∧ u.link l = { x with discarding := true, nakOut := some (x.rxNext - 1), out := some g, owed := o }) ∧
      (∀ f : LinkFlit, f.kind.val = 1 → flitCrcOk f = true → f.fec.hit = false → f.seq ≠ x.rxNext → ∃ u, exec (.linkFlitReceive l f) s = .next u
        ∧ u = { s with obj := u.obj } ∧ counted u f) ∧
      (∀ f : LinkFlit, f.kind.val = 1 → flitCrcOk f = true → f.fec.hit = false → f.seq = x.rxNext → x.retrain = false → x.queue = [] → ∃ a : State,
        let y := a.link l
        let b := (if f.sop then some [] else x.asm.getD f.tc.toNat none).map (fun g => g ++ flitUsed f)
        only a ∧ counted a f ∧ y.rxNext = f.seq + 1 ∧ y.discarding = false ∧ y.nakOut = none ∧ y.acked = f.ack
          ∧ y.sent = x.sent.filter (fun e => !decide ((f.ack - e.last).toNat < 32768)) ∧ y.asm = x.asm.set! f.tc.toNat (if f.eop then none else b)
          ∧ y.credits = x.credits.set! f.crdTc.toNat (x.credits.getD f.crdTc.toNat 0 + f.crd.toNat) ∧
        ((f.eop = false ∨ b.bind parsePacket = none) → exec (.linkFlitReceive l f) s = .next a) ∧
        (f.eop = true → ∀ p, b.bind parsePacket = some p → exec (.linkFlitReceive l f) s = .next { a with toDev := a.toDev.arriveAt l p })) ∧
      (∀ ack : U16, x.retrain = false →
        let n := (x.txNext - 1 - ack).toNat
        let sent := x.sent.filter (fun e => !decide ((ack - e.last).toNat < 32768))
        let first := if (ack - x.nakSeq).toNat < 32768 then none else x.firstNak
        let again : Prop := 0 < n ∧ n ≤ 4096 ∧ ¬(first.isSome = true ∧ x.nakSeq = ack + 1)
        ((¬past first ∨ again) → ∃ u, exec (.linkNak l ack) s = .next u ∧ only u ∧ (u.link l).acked = ack ∧ (u.link l).sent = sent ∧
          ((n = 0 ∨ 4096 < n) → u.obj = s.obj) ∧
          (0 < n → n ≤ 4096 → u.objAt 0x0A 0x106 l.val = (s.objAt 0x0A 0x106 l.val + n) % 2 ^ 64 ∧ (u.link l).nakSeq = ack + 1
            ∧ (again → (u.link l).firstNak = some s.now) ∧ (¬again → (u.link l).firstNak = first))) ∧
        (past first → ¬again → (∀ m, (s.mmu m).fqEn = false) → sent = [] → x.queue = [] → ∃ u, exec (.linkNak l ack) s = .next u
          ∧ u.link l = { history := x.history } ∧ u.objAt 0x0A 0x100 l.val = (if s.objAt 0x0A 0x101 l.val = 0 then 3 else if s.lit l then 1 else 4)))) ∧
    (∀ n : U16,
      let trains : Prop := st ≤ 1 ∧ s.objAt 0x0A 0x101 l.val = 1 ∧ s.lit l = true
      (¬trains → exec (.linkTrainingDone l n) s = .next s) ∧
      (trains → x.queue = [] → ∃ u, exec (.linkTrainingDone l n) s = .next u ∧ only u ∧ u.objAt 0x0A 0x100 l.val = 2 ∧ told u 2
        ∧ u.objAt 0x0A 0x103 l.val = n.toNat ∧ u.link l = { history := x.history })) ∧
    exec (.linkDown l 0) s = .next s ∧
    (let falls (c : Instr) (v : Nat) : Prop := ∃ u, exec c s = .next u ∧ u.objAt 0x0A 0x100 l.val = v
        ∧ (s.linkUp l = true → (∀ m, (s.mmu m).fqEn = false) → x.sent = [] → x.queue = [] →
            u.link l = { history := x.history } ∧ (∀ k, k ≠ l → u.link k = s.link k) ∧ told u v)
     let fails (c : Instr) : Prop := ∃ u, exec c s = .next u ∧ u.link l = { history := x.history } ∧ (∀ k, k ≠ l → u.link k = s.link k)
        ∧ u.objAt 0x0A 0x100 l.val = (if s.objAt 0x0A 0x101 l.val = 0 then 3 else if s.lit l then 1 else 4)
     (s.linkUp l = false → exec (.linkDown l 1) s = .next s ∧ exec (.linkDown l 2) s = .next s) ∧
     ((s.linkUp l = true → (∀ m, (s.mmu m).fqEn = false) ∧ x.sent = [] ∧ x.queue = []) →
       (s.linkUp l = true → fails (.linkDown l 1) ∧ fails (.linkDown l 2)) ∧ falls (.linkDown l 3) 4 ∧ falls (.linkDown l 4) 3
         ∧ falls (.linkEnableWrite l false) 3)) ∧
    (∀ (p : Packet) (f : TxFlow), s.linkUp l = true → (∀ m, (s.mmu m).fqEn = false) → x.sent = [] → x.queue = [p] → p.src = s.deviceId →
      isNotice p = false → s.flow p.dst p.flow = some f → f.epoch = p.epoch → s.flowOp f = none → ∃ u, exec (.linkDown l 2) s = .next u
        ∧ u.flow p.dst p.flow = some { f with epoch := f.epoch + 1, next := 0, waiting := [] } ∧ u.link l = { history := x.history }) ∧
    (let trained (u : State) : Prop := u.link l = { history := x.history, queue := x.queue }
        ∧ u.objAt 0x0A 0x100 l.val = (if s.objAt 0x0A 0x101 l.val = 0 then 3 else if s.lit l then 1 else 4)
     (∀ v : Byte, 1 < v.toNat → exec (.linkRoleWrite l v) s = .next s) ∧
     (∀ v : Byte, v.toNat ≤ 1 → ∃ u, exec (.linkRoleWrite l v) s = .next u ∧ u.objAt 0x0A 0x102 l.val = v.toNat ∧ only u ∧
       (s.linkUp l = true → x.sent = [] → x.queue = [] → trained u) ∧
       (s.linkUp l = true → ¬(x.sent = [] ∧ x.queue = []) → u.link l = { x with retrain := true } ∧ u.objAt 0x0A 0x100 l.val = st) ∧
       (s.linkUp l = false → u.link l = { x with retrain := false } ∧ u.objAt 0x0A 0x100 l.val = st)) ∧
     (∃ u, exec (.linkEnableWrite l true) s = .next u ∧ u.objAt 0x0A 0x101 l.val = 1 ∧ only u ∧
       let was : Prop := s.objAt 0x0A 0x101 l.val = 1 ∧ s.linkUp l = true
       (was → x.sent = [] → x.queue = [] → trained u) ∧
       (was → ¬(x.sent = [] ∧ x.queue = []) → u.link l = { x with retrain := true } ∧ u.objAt 0x0A 0x100 l.val = st) ∧
       (¬was → u.link l = { history := x.history, queue := x.queue } ∧ u.objAt 0x0A 0x100 l.val = (if s.lit l then 1 else 4))))

/-- R568, R569, R583 to R586, R588: transit takes a packet one hop further by its route, or discards it; a packet under a key that is not enabled, out
of its flow's order or of an old epoch is discarded; an acknowledgement frees what it covers; and a notice or a timeout fails a flow. -/
def Obligations.TransportRules : Prop :=
  (∀ (ox : Fin 4) (p : Packet) (s : State), s.fab.local_ = [] →
    (p.dst = s.deviceId → s.keyState p.pkey ≠ .enabled → ∃ u, exec (.packetTransit ox p) s = .next u
      ∧ u.objAt 0x0A 0x205 0 = (s.objAt 0x0A 0x205 0 + 1) % 2 ^ 64 ∧ u = { s with obj := u.obj }) ∧
    (p.dst ≠ s.deviceId → p.hops = 15 → isNotice p = true → ∃ u, exec (.packetTransit ox p) s = .next u
      ∧ u.objAt 0x0A 0x207 0 = (s.objAt 0x0A 0x207 0 + 1) % 2 ^ 64 ∧ u = { s with obj := u.obj }) ∧
    (p.dst ≠ s.deviceId → p.hops ≠ 15 → s.routeLink ox.val { p with hops := p.hops + 1 } = none → isNotice p = true →
      ∃ u, exec (.packetTransit ox p) s = .next u
        ∧ u.objAt 0x0A 0x206 0 = (s.objAt 0x0A 0x206 0 + 1) % 2 ^ 64 ∧ u = { s with obj := u.obj }) ∧
    (∀ l, p.dst ≠ s.deviceId → p.hops ≠ 15 → s.routeLink ox.val { p with hops := p.hops + 1 } = some l →
      s.linkUp l = true ∧ l.val ∈ (s.linkSet ox.val p.dst.toNat).map (fun n => n % 32) ∧ ∃ u, exec (.packetTransit ox p) s = .next u
        ∧ { p with hops := p.hops + 1 } ∈ (u.link l).queue ++ (u.link l).sent.map SentPacket.packet
        ∧ (∀ k : LinkId, k.val / 8 ≠ l.val / 8 → u.link k = s.link k) ∧ u = { s with fab := { s.fab with links := u.fab.links, lastClass := u.fab.lastClass }, obj := u.obj })) ∧
  (∀ (c : Instr) (l : LinkId) (p0 p : Packet) (t : BitVec 6) (s : State), packetOf c = some (l, p0, t) →
    (p0.ptype ≠ t → exec c s = .next s) ∧ (s.linkUp l = false → exec c s = .next s) ∧
    (p0.ptype = t → s.reaches l p0 p → t ≠ 0x20 → t ≠ 0x21 →
      (p.epoch = (s.rxFlow p).epoch → p.psn ≠ (s.rxFlow p).next → ∃ u, exec c s = .next u ∧ u.rxFlow p = s.rxFlow p
        ∧ u = { s with fab := { s.fab with rxFlows := u.fab.rxFlows } }) ∧
      (128 ≤ (p.epoch - (s.rxFlow p).epoch).toNat → ∃ u, exec c s = .next u ∧ u = { s with obj := u.obj }
        ∧ u.objAt 0x0A 0x209 0 = (s.objAt 0x0A 0x209 0 + 1) % 2 ^ 64) ∧
      (s.isNext p → t = 0x02 → exec c s = .next { s with toDev := s.taken (l.val / 8) p })) ∧
    (p0.ptype = t → s.reaches l p0 p → t = 0x20 → ∀ f, s.flow p.src p.flow = some f →
      (f.epoch = p.epoch → ∃ u, exec c s = .next u
        ∧ u.flow p.src p.flow = some { f with waiting := f.waiting.filter (fun e => !decide ((p.psn - e.1).toNat < 2 ^ 31)) }
        ∧ u = { s with fab := { s.fab with flows := u.fab.flows } }) ∧
      (f.epoch ≠ p.epoch → ∃ u, exec c s = .next u ∧ u = { s with obj := u.obj }
        ∧ u.objAt 0x0A 0x209 0 = (s.objAt 0x0A 0x209 0 + 1) % 2 ^ 64)) ∧
    (p0.ptype = t → s.reaches l p0 p → t = 0x21 → ∀ f, s.flow (BitVec.ofNat 16 p.offset.toNat) (BitVec.ofNat 16 p.aux0.toNat) = some f →
      (f.epoch ≠ p.epoch → ∃ u, exec c s = .next u ∧ u = { s with obj := u.obj }
        ∧ u.objAt 0x0A 0x209 0 = (s.objAt 0x0A 0x209 0 + 1) % 2 ^ 64) ∧
      (f.epoch = p.epoch → (∀ x ∈ s.fab.accesses, x.dst = f.dst → x.num = f.num → x.by_ = .core) → ∃ u, exec c s = .next u ∧
        (s.flowOp f = none → u.flow f.dst f.num = some { f with epoch := f.epoch + 1, next := 0, waiting := [] }) ∧
        (∀ o, s.flowOp f = some o → (∃ y, o.body = .coll y) → 0x60 ≤ iOpcode o.word →
          u.op o.slot = some { o with aborting := o.aborting.or (some 0xE) })))) ∧
  (∀ (num : U16) (t : Instant) (s : State),
    let now := max s.now.toNat t.toNat
    ((∀ f ∈ s.fab.flows, f.num = num → ∀ e ∈ f.waiting, now < e.2) → exec (.transportTimeout num t) s = .next s) ∧
    (∀ f, s.fab.flows = [f] → f.num = num → (∃ e ∈ f.waiting, e.2 ≤ now) → s.flowOp f = none →
      (∀ x ∈ s.fab.accesses, x.dst = f.dst → x.num = f.num → x.by_ = .core) → ∃ u, exec (.transportTimeout num t) s = .next u
      ∧ u.now.toNat = now ∧ u.fab.flows = [{ f with epoch := f.epoch + 1, next := 0, waiting := [] }]
      ∧ ((∀ m, (s.mmu m).fqEn = false) → u.objAt 0x0A 0x208 0 = (s.objAt 0x0A 0x208 0 + 1) % 2 ^ 64)))

/-- R574 to R577, R580 to R582: host commands and remote requests are performed when they are the next of their flow and let in, and answered; the answer
to a window access ends it. -/
def Obligations.RequestsPerformed : Prop :=
  ∀ (l : LinkId) (p0 p : Packet) (s : State), s.reaches l p0 p → s.isNext p → s.fab.accepted = [] →
    let ox := l.val / 8
    let a := s.serving ox p
    let answered (c : Instr) (d : Dev) (t : BitVec 6) (status : Nat) (bytes : List Byte) : Prop :=
      exec c s = .next { s with toDev := (d.answerTo ox p t status bytes).modFab (fun f => { f with accepted := [] }) }
    let host (c : Instr) (cmd : Nat) : Prop := p0.ptype = 1 → hostCmd p0 = cmd → a.binding p cmd = none → answered c (a.bump 0x0A 0x20A 0 1) 2 1 []
    let off := p.offset.toNat
    host (.hostWrite l p0) 1 ∧ host (.hostRead l p0) 2 ∧ host (.hostPush l p0) 3 ∧ host (.hostAdd l p0) 4 ∧
    (p0.ptype = 1 → ∀ asid, a.binding p (hostCmd p0) = some asid →
      let port : Port := { die := oxDie ox, stream := 0x40, queue := 0, asid := asid }
      let waits (c : Instr) (d : Dev) : Prop := exec c s = .next { s with toDev := d.modFab (fun f => { f with accepted := a.fab.accepted }) }
      (hostCmd p0 = 1 →
        let w := a.writeUnit port 0 false (if p.payload = [] then [] else [(off, p.payload)])
        (w.2 = .ok () → answered (.hostWrite l p0) w.1 2 0 []) ∧ (w.2 = .wait → waits (.hostWrite l p0) w.1) ∧
        (∀ r b, w.2 = .fail r b → answered (.hostWrite l p0) w.1 2 (if r = 6 then 3 else 2) [])) ∧
      (hostCmd p0 = 2 →
        let r := a.readVa port off p.aux1.toNat
        (4096 < p.aux1.toNat → answered (.hostRead l p0) a 2 1 []) ∧
        (p.aux1.toNat ≤ 4096 →
          (∀ bytes, r.2 = .ok bytes → answered (.hostRead l p0) r.1 2 0 bytes) ∧ (r.2 = .wait → waits (.hostRead l p0) r.1) ∧
          (∀ k b, r.2 = .fail k b → answered (.hostRead l p0) r.1 2 (if k = 6 then 3 else 2) []))) ∧
      (hostCmd p0 = 3 →
        let q : QueueId := ⟨p.aux0.toNat % 2048, Nat.mod_lt _ (by decide)⟩
        (((a.queue q).state = .detached ∨ (a.queue q).asid.toNat ≠ asid) → answered (.hostPush l p0) a 2 1 []) ∧
        ((a.queue q).state ≠ .detached → (a.queue q).asid.toNat = asid →
          let r := (a.drainWcbOf (linkWriter ox)).push q (p.aux1.toNat % 65536)
          (r.2 = .accepted → answered (.hostPush l p0) r.1 2 0 []) ∧ ((r.2 = .overflow ∨ r.2 = .bad) → answered (.hostPush l p0) r.1 2 1 []) ∧
          (r.2 = .waits → waits (.hostPush l p0) r.1))) ∧
      (hostCmd p0 = 4 →
        answered (.hostAdd l p0) ((a.drainWcbOf (linkWriter ox)).addPcounter (p.aux0.toNat % 1024) p.aux1) 2 0 [])) ∧
    (p0.ptype = 0x08 →
      let n := p.aux1.toNat
      ((n = 0 ∨ 4096 < n ∨ a.exported p 0 n = false) → answered (.remoteReadRequest l p0) a 9 1 []) ∧
      (0 < n → n ≤ 4096 → a.exported p 0 n = true → a.linesOpen (spanLines off n) = true →
        let d := (spanLines off n).foldl (fun s t => s.onceRead t) a
        answered (.remoteReadRequest l p0) d 9 (if (d.physRead off n false).2 then 3 else 0)
          (if (d.physRead off n false).2 then [] else (d.physRead off n false).1))) ∧
    (p0.ptype = 0x0A →
      let n := p.payload.length
      ((n = 0 ∨ a.exported p 1 n = false) → answered (.remoteWrite l p0) a 0x0B 1 []) ∧
      (0 < n → a.exported p 1 n = true → a.linesOpen (spanLines off n) = true →
        answered (.remoteWrite l p0) (a.physWrite off p.payload false (oxDie ox)) 0x0B 0 [])) ∧
    (p0.ptype = 0x0C →
      let o := p.aux0.toNat % 16
      let n := atomicBytes o
      let t := tagOf off false
      ((a.exported p 2 n = false ∨ off % n ≠ 0) → answered (.remoteAtomic l p0) a 9 1 []) ∧
      (a.exported p 2 n = true → off % n = 0 → a.linesOpen (spanLines off n) = true →
        let r := ((a.gatherHome t).dropSide t).homeAtomic t (off % 128) o (fieldAt p.payload 0 n) (fieldAt p.payload n n) (writerOf (oxDie ox).val 0x40)
        answered (.remoteAtomic l p0) r.1 9 (if r.2.2 then 3 else 0) (if r.2.2 then [] else leBytes n r.2.1))) ∧
    (let mine (x : WindowAccess) : Bool := x.dst = p.src && x.num.toNat = p.aux0.toNat % 65536 && x.offset = off
     let status := p.aux1.toNat % 256
     let replied (c : Instr) : Prop := ∀ x, s.fab.accesses.find? mine = some x → ∃ u, exec c s = .next u
       ∧ u.fab.accesses = removeFirst mine s.fab.accesses ∧ (u.rxFlow p).next = p.psn + 1 ∧
       (x.by_ = .core → u.reply = some (if status = 0 then .value (BitVec.ofNat 64 (leNat p.payload)) else .accessError) ∧ u.mem = s.mem ∧ u.cmd = s.cmd) ∧
       (∀ slot, x.by_ = .op slot →
         (status = 0 → Table.get none u.fab.remoteData slot.val = some ((Table.get none s.fab.remoteData slot.val).getD [] ++ p.payload) ∧ u.cmd = s.cmd) ∧
         (∀ o, status ≠ 0 → s.op slot = some o → o.failed = none → u.op slot = some { o with
           failed := some (failStatus (if status = 3 then 6 else 4), if status = 3 then 6 else 4), faultAddr := x.pa }))
     (p0.ptype = 0x09 → replied (.remoteReadResponse l p0)) ∧ (p0.ptype = 0x0B → replied (.remoteWriteAck l p0)))

/-- R600, R602, R603: collective data is placed in the stream that awaits it, and a chunk received whole grants the next; a grant lets its stream send
one chunk more, or is kept for an operation that has not begun. -/
def Obligations.CollectiveStreams : Prop :=
  ∀ (l : LinkId) (p0 p : Packet) (s : State), s.reaches l p0 p → s.isNext p →
    let rank := p.aux0.toNat % 65536
    let at_ := p.offset.toNat
    (p0.ptype = 0x11 → s.collsOf p.pkey p.aux1.toNat = [] → ∃ u, exec (.collectiveGrant l p0) s = .next u
      ∧ u.fab.early = s.fab.early ++ [⟨p.pkey, p.aux1.toNat, rank, at_⟩] ∧ (u.rxFlow p).next = p.psn + 1 ∧ u.cmd = s.cmd ∧ u.mem = s.mem) ∧
    (p0.ptype = 0x10 → s.collsOf p.pkey p.aux1.toNat = [] → exec (.collectiveData l p0) s = .next { s with toDev := s.taken (l.val / 8) p }) ∧
    (∀ (o : Operation) (x : CollOp), s.collsOf p.pkey p.aux1.toNat = [(o, x)] → s.op o.slot = some o → o.body = .coll x →
      (p0.ptype = 0x11 →
        let a := x.reduced * x.chunk
        let z := min (a + x.chunk) x.elems
        let fits (t : CollStream) : Bool := t.rank = rank && t.base + t.granted = at_ && t.granted < chunkCount x.chunk t.count
        (∃ t ∈ x.outs, fits t = true) → (z ≤ a ∨ ∃ t ∈ x.ins, t.partials = true ∧ allKnown x.partials (partKey t.rank) a z = false) →
        (∀ t ∈ x.outs, allKnown (x.source t) id (t.range x.chunk t.done).1 (t.range x.chunk t.done).2 = false) → x.dueChunk o.written = none →
        iOpcode o.word ≠ 0x64 → ∃ (u : State) (o' : Operation) (y : CollOp), exec (.collectiveGrant l p0) s = .next u ∧ u.op o.slot = some o' ∧ o'.body = .coll y
          ∧ y.outs = x.outs.map (fun t => if fits t then { t with granted := t.granted + 1 } else t)
          ∧ y.ins = x.ins ∧ y.known = x.known ∧ y.partials = x.partials ∧ o'.written = o.written ∧ u.mem = s.mem ∧ u.fab.early = s.fab.early) ∧
      (p0.ptype = 0x10 → ∀ t, x.ins = [t] → x.awaits t rank at_ = true → t.partials = false → x.outs = [] → x.elems ≤ x.reduced * x.chunk →
        iOpcode o.word ≠ 0x64 →
        let b := x.streamBits t
        let a := (t.range x.chunk t.done).1
        let z := (t.range x.chunk t.done).2
        let codes := (codesOf b (8 * p.payload.length / b) (leNat p.payload)).take (z - at_)
        let known := codes.zipIdx.foldl (fun m c => Table.set none m (at_ + c.2) (some c.1)) x.known
        CollOp.dueChunk { x with known := known } o.written = none →
        ∃ (u : State) (o' : Operation) (y : CollOp), exec (.collectiveData l p0) s = .next u ∧ u.op o.slot = some o' ∧ o'.body = .coll y ∧ y.known = known
          ∧ y.partials = x.partials ∧ o'.written = o.written ∧ u.mem = s.mem ∧
          (allKnown known id a z = false → y.ins = [t] ∧ u.fab.flows = (s.taken (l.val / 8) p).fab.flows) ∧
          (allKnown known id a z = true →
            y.ins = [{ t with done := t.done + 1, granted := min (t.granted + 1) (chunkCount x.chunk t.count) }] ∧
            (t.granted < chunkCount x.chunk t.count → ∀ f, s.flow (x.device rank) (opFlow o.slot) = some f →
              ∃ g, u.flow (x.device rank) (opFlow o.slot) = some g ∧ g.next = f.next + 1))))

/-- R578 to R580, R582, R588 to R592, R606: an access through a remote window becomes a request of its flow, or an access error; what enables, disables and
drains a window and a partition key, and the write of device_id. The flow number of a core's access is the model's choice. -/
def Obligations.WindowsAndKeys : Prop :=
  (∀ (w : Fin 1024) (s : State),
    let x := s.window w.val
    (x.enable = false → exec (.windowDisable w) s = .next s) ∧
    (x.enable = true → ∃ u, exec (.windowDisable w) s = .next u ∧ (∀ v : Fin 1024, v ≠ w → u.window v.val = s.window v.val)
      ∧ u = { s with fab := { s.fab with windows := u.fab.windows } } ∧
      ((∃ a ∈ s.fab.accesses, a.window = w.val) → u.window w.val = { x with enable := false, closing := true }) ∧
      ((∀ a ∈ s.fab.accesses, a.window ≠ w.val) → u.window w.val = { x with enable := false, closing := false }))) ∧
  (∀ (pa : U64) (op : WindowOp) (s : State),
    let a := pa.toNat
    let n := windowBytes op
    let w := (a - 2 ^ 41) / 2 ^ 30
    let x := s.window w
    let denied : Prop := x.enable = false ∨ x.allows op = false
    ((n = 0 ∨ a < 2 ^ 41) → ∀ by_, exec (.remoteWindowAccess by_ pa op) s = .next s) ∧
    (0 < n → 2 ^ 41 ≤ a → 2 ^ 41 + 2 ^ 40 < a + n → exec (.remoteWindowAccess .core pa op) s = .next { s with reply := some .accessError }
      ∧ (∀ slot, s.op slot = none → exec (.remoteWindowAccess (.op slot) pa op) s = .next s)
      ∧ ∀ slot o, s.op slot = some o → o.failed = none → ∃ u, exec (.remoteWindowAccess (.op slot) pa op) s = .next u
        ∧ u.op slot = some { o with failed := some (3, 4), faultAddr := a } ∧ u.fab = s.fab) ∧
    (0 < n → 2 ^ 41 ≤ a → a + n ≤ 2 ^ 41 + 2 ^ 40 →
      (denied → exec (.remoteWindowAccess .core pa op) s = .next { s with reply := some .accessError }) ∧
      (denied → ∀ slot o, s.op slot = some o → o.failed = none → ∃ u, exec (.remoteWindowAccess (.op slot) pa op) s = .next u
        ∧ u.op slot = some { o with failed := some (3, 4), faultAddr := a } ∧ u.fab = s.fab) ∧
      (∀ slot, s.op slot = none → exec (.remoteWindowAccess (.op slot) pa op) s = .next s) ∧
      (¬denied → s.keyState x.pkey ≠ .enabled → (∀ y ∈ s.fab.accesses, ¬(y.dst = x.target ∧ y.num = BitVec.ofNat 16 (0x1000 + w))) →
        ∃ u, exec (.remoteWindowAccess .core pa op) s = .next u ∧ u.reply = some .accessError ∧ u.fab.accesses = s.fab.accesses) ∧
      (¬denied → s.keyState x.pkey = .enabled → a % 128 + n ≤ 128 → ∀ by_ num,
        (by_ = .core ∧ num = BitVec.ofNat 16 (0x1000 + w) ∨ ∃ slot, by_ = .op slot ∧ num = opFlow slot ∧ (s.op slot).isSome) →
        let p := windowPacket x op a 0 n
        let f := (s.flow x.target num).getD { dst := x.target, num := num, pkey := x.pkey }
        p.offset.toNat = (x.tbase.toNat * 2 ^ 30 + a % 2 ^ 30) % 2 ^ 64 ∧ ∃ u, exec (.remoteWindowAccess by_ pa op) s = .next u
          ∧ u.fab.accesses = s.fab.accesses ++ [⟨by_, w, a, x.target, num, x.pkey, p.offset.toNat⟩]
          ∧ u.flow x.target num = some { f with pkey := x.pkey, next := f.next + 1, waiting := f.waiting ++ [(f.next, s.flowDeadline)] }
          ∧ u.fab.windows = s.fab.windows ∧ u.cmd = s.cmd ∧ u.mem = s.mem ∧ u.reply = s.reply))) ∧
  (∀ (k : BitVec 12) (s : State),
    let only (u : State) : Prop := (∀ j, j ≠ k → u.keyState j = s.keyState j)
      ∧ u = { s with
        fab := { s.fab with keys := u.fab.keys }, now := u.now, obj := u.obj, eventLog := u.eventLog, eventsOut := u.eventsOut
        cmd := { s.cmd with queues := u.cmd.queues } }
    let drained (u : State) : Prop := u.keyState k = .drained ∧ ∃ e, e.kind = 1 ∧ e.detail = k.toNat ∧ u.eventsOut = s.eventsOut ++ [e]
    (((∃ n, s.keyState k = .quarantine n) ∨ s.keyState k = .enabled) → exec (.pkeyEnable k) s = .next s) ∧
    ((∀ n, s.keyState k ≠ .quarantine n) → ∃ u, exec (.pkeyEnable k) s = .next u ∧ u.keyState k = .enabled ∧ only u) ∧
    (s.keyState k ≠ .enabled → exec (.pkeyDisable k) s = .next s) ∧
    (s.keyState k = .enabled → (∀ f ∈ s.fab.flows, f.pkey ≠ k) → (∀ a ∈ s.fab.accesses, a.pkey ≠ k) →
      (∀ o ∈ s.cmd.ops, collOfKey k o = true → 0x60 ≤ iOpcode o.word) → (∀ o ∈ s.cmd.ops, s.op o.slot = some o) →
      ∃ u, exec (.pkeyDisable k) s = .next u
        ∧ u.keyState k = .quarantine (s.now.toNat + s.objAt 0x0A 0x204 0) ∧ (∀ j, j ≠ k → u.keyState j = s.keyState j)
        ∧ u.fab.accepted = s.fab.accepted.filter (fun x => x.packet.pkey ≠ k) ∧ u.fab.early = s.fab.early.filter (fun e => e.pkey ≠ k)
        ∧ u.fab.accesses = s.fab.accesses ∧ u.fab.flows = s.fab.flows
        ∧ (∀ slot o, s.op slot = some o → u.op slot = some (if collOfKey k o then { o with endedKeys := k :: o.endedKeys, aborting := o.aborting.or (some 0xE) } else o))) ∧
    (∀ f, s.keyState k = .enabled → s.fab.flows = [f] → f.pkey = k → s.flowOp f = none → s.fab.accesses = [] →
      (∀ o ∈ s.cmd.ops, collOfKey k o = false) → ∃ u, exec (.pkeyDisable k) s = .next u
        ∧ u.fab.flows = [{ f with epoch := f.epoch + 1, next := 0, waiting := [] }]) ∧
    (∀ t : Instant,
      let now := max s.now.toNat t.toNat
      ((∀ n, s.keyState k ≠ .quarantine n) → exec (.quarantineEnd k t) s = .next s) ∧
      (∀ n, s.keyState k = .quarantine n →
        (now < n → exec (.quarantineEnd k t) s = .next s) ∧
        (n ≤ now → ∃ u, exec (.quarantineEnd k t) s = .next u ∧ u.now.toNat = now ∧ only u ∧
          (s.keyIdle k = true → drained u) ∧ (s.keyIdle k = false → u.keyState k = .undrained ∧ u.eventsOut = s.eventsOut)))) ∧
    (s.keyState k = .undrained → s.keyIdle k = true → ∃ u, exec (.keyDrained k) s = .next u ∧ drained u ∧ only u) ∧
    (¬(s.keyState k = .undrained ∧ s.keyIdle k = true) → exec (.keyDrained k) s = .next s)) ∧
  (∀ (v : U16) (s : State),
    ((∃ k, s.keyState k = .enabled) → exec (.deviceIdWrite v) s = .next s) ∧
    ((∀ e ∈ s.fab.keys, e.2 ≠ .enabled) → ∃ u, exec (.deviceIdWrite v) s = .next u ∧ u.deviceId = v ∧ u = { s with obj := u.obj }))

/-- R610, R612 to R617, R631, R644: what a fall of the input, an over-voltage and a thermal trip leave, and how the module comes back: all that needs power
is lost, and what is kept without power stays. -/
def Obligations.SupplyEvents : Prop :=
  ∀ s : State,
    let off (u : State) (cause : Shutdown) : Prop := u.pow.rails = false ∧ u.pow.latch = some cause ∧ u.mem = {} ∧ u.cmd = {} ∧ u.obj = [] ∧ u.mgmt = {}
      ∧ u.boot.carrier = s.boot.carrier ∧ u.boot.store = s.boot.store ∧ u.boot.erased = s.boot.erased ∧ u.boot.counters = s.boot.counters ∧ u.boot.parts = s.boot.parts
      ∧ u.boot.secret = none ∧ u.pending = s.pending
    let warn := s.objAt 0x0B 0x601 0
    (∀ (mv : Nat) (watts : U16),
      ((s.pow.warning = true ∨ s.pow.rails = false ∨ warn ≤ mv) → exec (.sagWarn mv watts) s = .next s) ∧
      (s.pow.warning = false → s.pow.rails = true → mv < warn → ∃ u, exec (.sagWarn mv watts) s = .next u
        ∧ u.pow = { s.pow with warning := true, supplyIrq := true, attention := true } ∧ u.cmd = s.cmd ∧ u.boot = s.boot ∧ u.mgmt = s.mgmt
        ∧ u.pending = s.pending ∧ ((s.mmu 1).fqEn = false → u.objAt 0x0B 0x604 0 = (s.objAt 0x0B 0x604 0 + 1) % 2 ^ 64 ∧ u.mem = s.mem
          ∧ ∃ e, e.kind = 4 ∧ u.eventsOut = s.eventsOut ++ [e]))) ∧
    (∀ mv : Nat,
      ((s.pow.warning = false ∨ mv < warn + 1000) → exec (.sagWarnEnd mv) s = .next s) ∧
      (s.pow.warning = true → warn + 1000 ≤ mv → ∃ a : State,
        a.pow = { s.pow with warning := false, supplyIrq := false, attention := false, ripenWaits := none }
        ∧ a.objAt 0x0B 0x600 0 = mv ∧ a = { s with pow := a.pow, obj := a.obj } ∧
        (s.pow.ripenWaits = none → exec (.sagWarnEnd mv) s = .next a) ∧
        (∀ l, s.pow.ripenWaits = some l → exec (.sagWarnEnd mv) s = .next (a.ripen l)
          ∧ ∀ r, l = everyDie r → s.pow.rails = true → s.pow.ripenAsked = false → exec (.sagWarnEnd mv) s = exec (.ripenCheck r) a))) ∧
    (∀ mv : Nat,
      ((s.pow.rails = false ∨ s.objAt 0x0B 0x602 0 ≤ mv) → exec (.sagReset mv) s = .next s) ∧
      (s.pow.rails = true → mv < s.objAt 0x0B 0x602 0 → ∃ u, exec (.sagReset mv) s = .next u ∧ off u .sagReset
        ∧ u.pow.hotSwap = s.pow.hotSwap ∧ u.pow.tripWait = s.pow.tripWait) ∧
      ((s.pow.hotSwap = false ∨ mv < 69000) → exec (.overVoltage mv) s = .next s) ∧
      (s.pow.hotSwap = true → 69000 ≤ mv → ∃ u, exec (.overVoltage mv) s = .next u ∧ off u .overVoltage ∧ u.pow.hotSwap = false)) ∧
    (∀ d : Die,
      (s.pow.rails = false → exec (.thermalTrip d) s = .next s) ∧
      (s.pow.rails = true → ∃ u, exec (.thermalTrip d) s = .next u ∧ off u (.thermalTrip d) ∧ u.pow.tripWait = true)) ∧
    (∀ (inlet : Int) (cool : Nat) (t : Instant),
      (¬(s.pow.tripWait = true ∧ inlet ≤ 400 ∧ 10000000000 ≤ cool) → exec (.thermalTripRestart inlet cool t) s = .next s) ∧
      (s.pow.tripWait = true → inlet ≤ 400 → 10000000000 ≤ cool → ∃ u, exec (.thermalTripRestart inlet cool t) s = .next u
        ∧ u.pow = { s.pow with tripWait := false } ∧ u.now.toNat = max s.now.toNat t.toNat ∧ s.passing u
        ∧ u = { s with pow := u.pow, now := u.now, obj := u.obj, cmd := { s.cmd with queues := u.cmd.queues } })) ∧
    (∀ h : SupplyHold,
      let free : Prop := s.pow.rails = false ∧ s.pow.tripWait = false ∧ s.boot.prepared = false ∧ s.boot.pinClosed = true
        ∧ 54000 ≤ h.low ∧ (s.pow.hotSwap = false → h.high ≤ 66000)
      (¬free → exec (.powerGoodHold h) s = .next s) ∧
      (free → ∃ u, exec (.powerGoodHold h) s = .next u ∧ u.resetDue = some .cold ∧ u.pow = { s.pow with hotSwap := true }
        ∧ u.now.toNat = max s.now.toNat h.t.toNat ∧ s.passing u
        ∧ u = { s with pow := u.pow, now := u.now, resetDue := u.resetDue, obj := u.obj, cmd := { s.cmd with queues := u.cmd.queues } }))

/-- R613, R618 to R621, R624 to R626, R629 to R631, R652: the operating point of every die, the module and thermal ceilings, and the throttles, none of which
withholds more than 240 of 256 steps. That a raised thermal ceiling clears the throttle is the model's choice. -/
def Obligations.PowerLimits : Prop :=
  ∀ s : State,
    let op (u : State) (d : Nat) : Nat := u.objAt 0x0B 0x202 d
    let idle := s.objAt 0x0B 0x201 0
    let shown (u : State) : Prop := ∀ d, d < 20 → u.objAt 0x0B 0x203 d = min u.pow.moduleCeil (u.pow.therm d)
    let quiet : Prop := (s.mmu 1).fqEn = false
    (∀ d, s.throttle d ≤ 240) ∧
    (∀ d : Die, (s.phasesOn d.val = [] → s.candidate d.val = idle) ∧ (∀ p ∈ s.phasesOn d.val, s.objAt 0x0B 0x200 p ≤ s.candidate d.val) ∧
      (s.phasesOn d.val ≠ [] → ∃ p ∈ s.phasesOn d.val, s.candidate d.val = s.objAt 0x0B 0x200 p)) ∧
    (s.pow.rails = false → exec .powerEvaluation s = .next s ∧ (∀ w t, exec (.capWindowEnd w t) s = .next s) ∧
      (∀ d b a n t, exec (.railWindowEnd d b a n t) s = .next s) ∧ ∀ r, exec (.thermalTick r) s = .next s) ∧
    (s.pow.rails = true → ∃ u, exec .powerEvaluation s = .next u ∧ u = { s with obj := u.obj } ∧
      (∀ d : Die, s.inService d.val = false → op u d.val = op s d.val) ∧
      (∀ d : Die, s.inService d.val = true → u.objAt 0x0B 0x204 d.val = opVoltage (op u d.val) + Table.get 0 s.pow.trims d.val
        ∧ op u d.val ≤ s.pow.therm d.val ∧ (s.pow.warning = true → op u d.val ≤ op s d.val) ∧
        ((d.val < 8 ∨ 14 ≤ d.val) → op u d.val ≤ s.pow.moduleCeil) ∧
        (s.pow.warning = false → (d.val < 8 ∨ 14 ≤ d.val) → op u d.val = min (s.candidate d.val) (min s.pow.moduleCeil (s.pow.therm d.val))) ∧
        (s.pow.warning = false → 8 ≤ d.val → d.val < 14 → op u d.val =
          min (((List.range 8).filter s.inService).foldl (fun m c => max m (op u c)) idle) (s.pow.therm d.val)))) ∧
    (∀ (watts : Nat) (throttle : Fin 241), s.pow.rails = true → ∃ u, exec (.capWindowEnd watts throttle) s = .next u ∧
      let cap := s.objAt 0x0B 0x300 0
      let above := if cap < watts then s.pow.overRun + 1 else 0
      let under := if watts * 100 ≤ cap * 95 then s.pow.underRun + 1 else 0
      u.thr.common = throttle.val ∧ u.pow.capStart = s.pow.capStart + 10000 ∧ u.pow.history = (watts :: s.pow.history).take 1000 ∧
      (above = 50 → 0 < s.pow.moduleCeil → u.pow.moduleCeil = s.pow.moduleCeil - 1 ∧ u.objAt 0x0B 0x303 0 = (s.objAt 0x0B 0x303 0 + 1) % 2 ^ 64) ∧
      (above ≠ 50 → under = 1000 → s.pow.moduleCeil < 7 → s.pow.warning = false → u.pow.moduleCeil = s.pow.moduleCeil + 1) ∧
      (above ≠ 50 → (under ≠ 1000 ∨ s.pow.warning = true) → u.pow.moduleCeil = s.pow.moduleCeil) ∧
      u.objAt 0x0B 0x301 0 = meanWatts u.pow.history ∧ u.objAt 0x0B 0x304 0 = max (s.objAt 0x0B 0x304 0) watts ∧ shown u ∧ u.pow.thermCeil = s.pow.thermCeil) ∧
    (∀ v : U16,
      (¬(1500 ≤ v.toNat ∧ v.toNat ≤ 5000) → exec (.powerCapWrite v) s = .next s) ∧
      (1500 ≤ v.toNat → v.toNat ≤ 5000 → ∃ u, exec (.powerCapWrite v) s = .next u ∧ u.objAt 0x0B 0x300 0 = v.toNat ∧ u = { s with obj := u.obj })) ∧
    (∀ (d : Die) (short : Bool) (amps steps : Nat) (throttle : Fin 241), s.pow.rails = true → ∃ u, exec (.railWindowEnd d short amps steps throttle) s = .next u ∧
      let key := 2 * d.val + b2n short
      let high := decide (railLimit d.val short < amps)
      Table.get 0 u.thr.rail key = (if high then max 1 throttle.val else 0) ∧
      (∀ k, k ≠ key → Table.get 0 u.thr.rail k = Table.get 0 s.thr.rail k) ∧
      (quiet → u.objAt 0x0B 0x310 d.val =
        (s.objAt 0x0B 0x310 d.val + (if Table.get 0 s.thr.rail key = 0 then 0 else steps)) % 2 ^ 64) ∧
      u.cmd = s.cmd ∧ u.boot = s.boot ∧ u.pow.moduleCeil = s.pow.moduleCeil ∧ u.pow.thermCeil = s.pow.thermCeil) ∧
    (∀ (d : Die) (tj inlet outlet : Int), s.pow.rails = true → s.inService d.val = true → 1050 ≤ tj →
      exec (.thermalTick ⟨[(d, tj)], inlet, outlet⟩) s = exec (.thermalTrip d) s) ∧
    (∀ (d : Die) (tj inlet outlet : Int), s.pow.rails = true → s.inService d.val = true → tj < 1050 →
      ∃ u, exec (.thermalTick ⟨[(d, tj)], inlet, outlet⟩) s = .next u ∧
      let limit : Int := 10 * (s.objAt 0x0B 0x701 0 : Nat)
      let ceil := s.pow.therm d.val
      let held := Table.get 0 s.thr.therm d.val
      let cool := Table.get 0 s.pow.coolRun d.val
      u.pow.tickStart = s.pow.tickStart + 1000000 ∧ (∀ k, k ≠ d.val → u.pow.therm k = s.pow.therm k) ∧
      (limit ≤ tj → u.pow.therm d.val = ceil - 1 ∧ Table.get 0 u.pow.coolRun d.val = 0
        ∧ Table.get 0 u.thr.therm d.val = (if ceil = 0 then min 240 (held + 16) else held)) ∧
      (tj < limit → limit - 30 < tj → u.pow.therm d.val = ceil ∧ Table.get 0 u.pow.coolRun d.val = 0) ∧
      (tj ≤ limit - 30 →
        (cool + 1 ≠ 10 → u.pow.therm d.val = ceil ∧ Table.get 0 u.pow.coolRun d.val = cool + 1) ∧
        (cool + 1 = 10 → Table.get 0 u.pow.coolRun d.val = 0
          ∧ u.pow.therm d.val = (if ceil < 7 && !s.pow.warning then ceil + 1 else ceil))) ∧
      (quiet → u.objAt 0x0B 0x700 d.val = codeInt 16 tj ∧ u.objAt 0x0B 0x703 0 = codeInt 16 inlet ∧ u.objAt 0x0B 0x704 0 = codeInt 16 outlet ∧ shown u))

/-- R633, R636, R639 to R641, R644 to R646, R649, R650: jobs open and close; a window's energy is divided in proportion to the modelled energies and none of it
is lost; a ripening check raises a trim by 5 mV or names the die worn, or waits, and a trim only rises. -/
def Obligations.EnergyAndRipening : Prop :=
  (∀ (v : Byte) (s : State),
    let j := v.toNat
    let only (u : State) : Prop := (∀ k, k ≠ j → u.job k = s.job k) ∧ u = { s with pow := { s.pow with jobs := u.pow.jobs } }
    ((64 ≤ j ∨ (s.job j).isOpen = true) → exec (.jobOpen v) s = .next s) ∧
    (j < 64 → (s.job j).isOpen = false → ∃ u, exec (.jobOpen v) s = .next u ∧ only u
      ∧ u.job j = { isOpen := true, tOpen := s.pow.energyStart + 1000000 }) ∧
    ((64 ≤ j ∨ (s.job j).isOpen = false) → exec (.jobClose v) s = .next s) ∧
    (j < 64 → (s.job j).isOpen = true → ∃ u, exec (.jobClose v) s = .next u ∧ only u
      ∧ u.job j = { s.job j with isOpen := false, tClose := s.pow.energyStart + 1000000 })) ∧
  (∀ (m : Option Nat) (volts : List (Die × Nat)) (acts : List Activity) (s : State),
    (s.pow.rails = false → exec (.energyWindowEnd m volts acts) s = .next s) ∧
    (s.pow.rails = true → ∃ u, exec (.energyWindowEnd m volts acts) s = .next u ∧
      let slots := (List.range 64).filter (fun j => (s.job j).takes s.pow.energyStart)
      let model (j : Nat) : Nat :=
        ((acts.filter (fun a => (if slots.contains (s.activityJob a) then s.activityJob a else 64) = j)).map (s.eventEnergy volts)).sum
      let total := ((slots ++ [64]).map model).sum
      u.pow.energyStart = s.pow.energyStart + 1000000 ∧ u.cmd = { s.cmd with queues := u.cmd.queues, jobs := u.cmd.jobs } ∧ u.boot = s.boot ∧
      (∀ j, j < 64 → j ∉ slots → u.job j = s.job j) ∧
      (∀ j ∈ slots ++ [64], (u.job j).windows = (s.job j).windows + 1 ∧ (u.job j).modelledExact = (s.job j).modelledExact + model j
        ∧ (u.job j).modelled = ((s.job j).modelled || m.isNone)) ∧
      (∀ e, m = some e → u.objAt 0x0B 0x302 0 = (s.objAt 0x0B 0x302 0 + e) % 2 ^ 64 ∧
        (∀ j ∈ slots, (u.job j).measured = (s.job j).measured + (if total = 0 then 0 else e * model j / total)) ∧
        ((slots ++ [64]).map (fun j => (u.job j).measured)).sum = ((slots ++ [64]).map (fun j => (s.job j).measured)).sum + e) ∧
      (m = none → ∀ j ∈ slots ++ [64], (u.job j).measured = (s.job j).measured + model j / exactPerMicrojoule))) ∧
  (let trim (u : State) (d : Nat) : Nat := Table.get 0 u.pow.trims d
   let checked (s u : State) (d : Die) (x : Nat) : Prop :=
     let tj := intOf 16 (s.objAt 0x0B 0x700 d.val)
     let ready := 5 ≤ s.pow.ceil d.val ∧ 400 ≤ tj ∧ tj ≤ 900
     (¬ready → u.pow.trims = s.pow.trims ∧ u.pow.checks = s.pow.checks ∧ u.pow.ripenSeq = s.pow.ripenSeq
       ∧ (d, s.now + 3600000000000) ∈ u.pow.postponed) ∧
     (ready → u.pow.checks = s.pow.checks + 1 ∧ Table.get 0 u.pow.rates d.val = x ∧ (∀ y ∈ u.pow.postponed, y.1 ≠ d) ∧
       (∀ k, s.boot.secret = some k → u.pow.ripenSeq = s.pow.ripenSeq + 1 ∧ u.pow.ripenCopy = 1 - s.pow.ripenCopy) ∧
       (x < s.objAt 0x0B 0x805 0 → trim s d.val < 40 → trim u d.val = trim s d.val + 5 ∧ u.pow.worn = s.pow.worn
         ∧ u.objAt 0x0B 0x204 d.val = opVoltage (s.objAt 0x0B 0x202 d.val) + trim u d.val) ∧
       (x < 1900000 → trim s d.val = 40 → trim u d.val = 40 ∧ bit u.pow.worn d.val = true) ∧
       (1900000 ≤ x → s.objAt 0x0B 0x805 0 ≤ x → trim u d.val = trim s d.val ∧ u.pow.worn = s.pow.worn))
  (∀ (l : List RipenReading) (s : State),
    (s.pow.rails = false → exec (.ripenCheck l) s = .next s) ∧
    (s.pow.rails = true →
      (s.pow.warning = true → exec (.ripenCheck l) s = .next { s with
        pow := { s.pow with ripenAsked := false, ripenWaits := some (s.pow.ripenWaits.getD [] ++ everyDie l) } }) ∧
      (∃ u, exec (.ripenCheck l) s = .next u ∧ u.pow.ripenAsked = false ∧ u.cmd = s.cmd ∧ (∀ d, trim s d ≤ trim u d) ∧
        ((∀ d, trim s d % 5 = 0 ∧ trim s d ≤ 40) → ∀ d, trim u d % 5 = 0 ∧ trim u d ≤ 40)) ∧
      (∀ (d : Die) (x : Nat), s.pow.warning = false → l = [⟨d, [x]⟩] → s.inService d.val = true →
        ∃ u, exec (.ripenCheck l) s = .next u ∧ checked s u d x))) ∧
  (∀ (t : Instant) (l : List RipenReading) (r : RipenReading) (s : State), s.pow.ripenAsked = false →
    let now := max s.now.toNat t.toNat
    let due : Prop := s.pow.rails = true ∧ s.pow.ripenSince.toNat + s.objAt 0x0B 0x802 0 * 3600000000000 ≤ now
    let late : Prop := s.pow.rails = true ∧ ∃ x ∈ s.pow.postponed, x.1 = r.die ∧ x.2.toNat ≤ now
    (¬due → exec (.ripenInterval t l) s = .next s) ∧
    (due → ∃ a : State, a.now.toNat = now ∧ s.passing a
        ∧ a = { s with now := a.now, pow := { s.pow with ripenSince := a.now }, obj := a.obj, cmd := { s.cmd with queues := a.cmd.queues } }
      ∧ exec (.ripenInterval t l) s = exec (.ripenCheck l) a) ∧
    (¬late → exec (.ripenPostponedCheck t r) s = .next s) ∧
    (late → ∃ a : State, a.now.toNat = now ∧ s.passing a ∧ a = { s with now := a.now, obj := a.obj, cmd := { s.cmd with queues := a.cmd.queues } }
      ∧ exec (.ripenPostponedCheck t r) s = .next (a.ripen [r])
      ∧ ∀ x, s.pow.warning = false → r.rates = [x] → s.inService r.die.val = true → ∃ u, exec (.ripenPostponedCheck t r) s = .next u ∧ checked a u r.die x)))

/-- R658 to R661, R664 to R669, R675, R676: a datagram that is not well formed is discarded; a handshake opens a session or is rejected; a protected datagram
counts only if its tag and its sequence hold; a kept RESPONSE is sent again; and what closes a session. -/
def Obligations.SessionRules : Prop :=
  ∀ (p : SessionPath) (b : List Byte) (s : State),
    let others (u : State) (n : Nat) : Prop := u.mgmt.sessions.filter (fun y => y.num ≠ n) = s.mgmt.sessions.filter (fun y => y.num ≠ n)
    let gone (u : State) (n : Nat) : Prop := u.mgmt.sessions = s.mgmt.sessions.filter (fun y => y.num ≠ n)
    let sealed (a : State) (x : Session) (ty : Nat) (plain : List Byte) : Frame :=
      let n := ((a.mgmt.sessions.find? (fun y => y.num = x.num)).map Session.sent).getD 0 + 1
      let h := headerBytes ty (plain.length + 16) x.num n
      .datagram .mgmt (h ++ (gcmSeal x.keyOut (ivOf x.num n) h plain).1 ++ (gcmSeal x.keyOut (ivOf x.num n) h plain).2)
    let all (f : Instr → Prop) : Prop := f (.sessionInit p b) ∧ f (.sessionFinish p b) ∧ f (.sessionDiscover p b) ∧ f (.sessionRequest p b)
      ∧ f (.sessionKeepalive p b) ∧ f (.sessionClose p b)
    ((parseDatagram p b = none ∨ s.portRuns p = false) → all (fun c => exec c s = .next s)) ∧
    (∀ d, parseDatagram p b = some d → s.portRuns p = true →
      (d.ty ≠ 1 → exec (.sessionInit p b) s = .next s) ∧ (d.ty ≠ 3 → exec (.sessionFinish p b) s = .next s) ∧
      (d.ty ≠ 5 → exec (.sessionDiscover p b) s = .next s) ∧ (d.ty ≠ 0x10 → exec (.sessionRequest p b) s = .next s) ∧
      (d.ty ≠ 0x13 → exec (.sessionKeepalive p b) s = .next s) ∧ (d.ty ≠ 0x14 → exec (.sessionClose p b) s = .next s) ∧
      (d.ty = 5 → p = .mgmt → d.payload = [] → s.freeToSend = true → ∃ u, exec (.sessionDiscover p b) s = .next u
        ∧ u.mgmt.sent = s.mgmt.sent ++ [.datagram .mgmt (headerBytes 6 34 0 0 ++ sliceBytes (ascii "CS20-2T-LC") 0 16 ++ leBytes 16 (s.objAt 0 1 0)
            ++ leBytes 2 (s.objAt 0x0A 0x200 0))] ∧ u = { s with mgmt := { s.mgmt with sent := u.mgmt.sent } }) ∧
      (d.ty = 1 →
        (∀ r, s.initRefusal p d.payload = some r → p = .mgmt → s.freeToSend = true → ∃ u, exec (.sessionInit p b) s = .next u
          ∧ u.mgmt.sessions = s.mgmt.sessions ∧ u.objAt 0x0C 0x113 0 = (s.objAt 0x0C 0x113 0 + 1) % 2 ^ 64
          ∧ u.mgmt.sent = s.mgmt.sent ++ [.datagram .mgmt (headerBytes 4 1 0 0 ++ leBytes 1 r)]) ∧
        (s.initRefusal p d.payload = none → ∃ u x, exec (.sessionInit p b) s = .next u ∧ u.mgmt.sessions = s.mgmt.sessions ++ [x]
          ∧ x.num = s.mgmt.nextSession ∧ u.mgmt.nextSession = s.mgmt.nextSession + 1 ∧ x.isOpen = false ∧ x.path = p
          ∧ x.deadline = s.now + 5000000000 ∧ x.gen = fieldAt (sliceBytes d.payload 128 200) 4 4 ∧ x.pub = sliceBytes (sliceBytes d.payload 128 200) 8 96
          ∧ x.keyIn.length ≤ 32 ∧ x.high = 0 ∧ x.sent = 0)) ∧
      (∀ x, d.ty = 3 → s.mgmt.sessions.find? (fun y => y.num = d.session && y.path = p && !y.isOpen) = some x →
        let refused (reason : Nat) : Prop := ∃ u, exec (.sessionFinish p b) s = .next u ∧ gone u x.num
          ∧ u.objAt 0x0C 0x113 0 = (s.objAt 0x0C 0x113 0 + 1) % 2 ^ 64
          ∧ (p = .mgmt → s.freeToSend = true → u.mgmt.sent = s.mgmt.sent ++ [.datagram .mgmt (headerBytes 4 1 x.num 0 ++ leBytes 1 reason)])
        ((d.seq ≠ 1 ∨ d.payload.length ≠ 112) → refused 1) ∧
        (d.seq = 1 → d.payload.length = 112 → x.deadline.toNat < s.now.toNat → refused 6) ∧
        (d.seq = 1 → d.payload.length = 112 → s.now.toNat ≤ x.deadline.toNat →
          (gcmOpen x.keyIn (ivOf d.session d.seq) d.header (d.payload.take 96) (d.payload.drop 96) = none → refused 5) ∧
          (∀ sig, gcmOpen x.keyIn (ivOf d.session d.seq) d.header (d.payload.take 96) (d.payload.drop 96) = some sig →
            (ecdsaVerify x.pub x.toSign sig = false → refused 5) ∧
            (ecdsaVerify x.pub x.toSign sig = true → ∃ u, exec (.sessionFinish p b) s = .next u ∧ others u x.num
              ∧ (p = .mgmt → s.freeToSend = true → u.mgmt.sent = s.mgmt.sent ++ [sealed s x 0x13 []])
              ∧ ∃ y ∈ u.mgmt.sessions, y.num = x.num ∧ y.isOpen = true ∧ y.roles = x.roles ∧ 1 ≤ y.high ∧ y.last = s.now ∧ y.toSign = [])))) ∧
      ((d.ty = 3 → s.mgmt.sessions.find? (fun y => y.num = d.session && y.path = p && !y.isOpen) = none → exec (.sessionFinish p b) s = .next s)) ∧
      (let opened := s.mgmt.sessions.find? (fun y => y.num = d.session && y.path = p && y.isOpen)
       let n := d.payload.length
       let plain (x : Session) : Option (List Byte) := gcmOpen x.keyIn (ivOf d.session d.seq) d.header (d.payload.take (n - 16)) (d.payload.drop (n - 16))
       let protectedOnes (f : Instr → Prop) : Prop := (d.ty = 0x10 → f (.sessionRequest p b)) ∧ (d.ty = 0x13 → f (.sessionKeepalive p b))
         ∧ (d.ty = 0x14 → f (.sessionClose p b))
       ((opened = none ∨ n < 16) → protectedOnes (fun c => exec c s = .next s)) ∧
       (∀ x, opened = some x → 16 ≤ n →
         (plain x = none → protectedOnes (fun c => ∃ u, exec c s = .next u ∧ u = { s with obj := u.obj }
           ∧ u.objAt 0x0C 0x115 0 = (s.objAt 0x0C 0x115 0 + 1) % 2 ^ 64)) ∧
         (∀ t, plain x = some t →
           (x.fresh? d.seq = false → protectedOnes (fun c => ∃ u, exec c s = .next u ∧ u = { s with obj := u.obj }
             ∧ u.objAt 0x0C 0x114 0 = (s.objAt 0x0C 0x114 0 + 1) % 2 ^ 64)) ∧
           (x.fresh? d.seq = true →
             (d.ty = 0x14 → ∃ u, exec (.sessionClose p b) s = .next u ∧ gone u x.num) ∧
             (∃ a : State, (others a x.num ∧ a = { s with mgmt := { s.mgmt with sessions := a.mgmt.sessions } }
                 ∧ ∃ y ∈ a.mgmt.sessions, y.num = x.num ∧ y.last = s.now ∧ y.high = max x.high d.seq ∧ d.seq ∈ y.seen) ∧
               (d.ty = 0x13 → exec (.sessionKeepalive p b) s = .next a) ∧
               (d.ty = 0x10 →
                 (∀ k, x.kept.find? (fun k => k.1 = fieldAt t 0 4) = some k →
                   ∃ u, exec (.sessionRequest p b) s = .next u ∧ u.mgmt.reply = s.mgmt.reply ∧ u.boot = s.boot ∧ u.pow = s.pow ∧ u.cmd = s.cmd
                     ∧ (p = .mgmt → s.freeToSend = true → u.mgmt.sent = s.mgmt.sent ++ [sealed s x 0x11 k.2])) ∧
                 (x.kept.find? (fun k => k.1 = fieldAt t 0 4) = none → (∃ h, x.highId = some h ∧ fieldAt t 0 4 ≤ h) →
                   ∃ u, exec (.sessionRequest p b) s = .next u ∧ u = { a with obj := u.obj }
                     ∧ u.objAt 0x0C 0x114 0 = (s.objAt 0x0C 0x114 0 + 1) % 2 ^ 64) ∧
                 (x.kept.find? (fun k => k.1 = fieldAt t 0 4) = none → (∀ h, x.highId = some h → h < fieldAt t 0 4) →
                   let e := a.performRequest x.asPath (pathLimit p - 32) t
                   (e.2 = none → exec (.sessionRequest p b) s = .next e.1) ∧
                   (∀ r, e.2 = some r → ∃ u, exec (.sessionRequest p b) s = .next u ∧ u.pow = e.1.pow ∧ u.boot = e.1.boot ∧ u.cmd = e.1.cmd
                     ∧ (p = .mgmt → e.1.freeToSend = true → u.mgmt.sent = e.1.mgmt.sent ++ [sealed e.1 x 0x11 r])
                     ∧ ∀ y ∈ u.mgmt.sessions, y.num = x.num → y.kept.head? = some (fieldAt t 0 4, r) ∧ y.kept.length ≤ 8
                       ∧ y.highId = some (fieldAt t 0 4)))))))))) ∧
    (∀ (n : U32) (t : Instant),
      let now := max s.now.toNat t.toNat
      ((∀ x ∈ s.mgmt.sessions, x.num = n.toNat → x.isOpen = true ∨ now < x.deadline.toNat) → exec (.handshakeTimeout n t) s = .next s) ∧
      ((∃ x ∈ s.mgmt.sessions, x.num = n.toNat ∧ x.isOpen = false ∧ x.deadline.toNat ≤ now) →
        ∃ u, exec (.handshakeTimeout n t) s = .next u ∧ gone u n.toNat ∧ u.now.toNat = now) ∧
      (let idle (x : Session) : Prop := x.num = n.toNat ∧ x.isOpen = true ∧ x.last.toNat + s.objAt 0x0C 0x111 0 * 1000000000 ≤ now
       ((∀ x ∈ s.mgmt.sessions, ¬idle x) → exec (.sessionIdleTimeout n t) s = .next s) ∧
       ((∃ x ∈ s.mgmt.sessions, idle x) → ∃ u, exec (.sessionIdleTimeout n t) s = .next u ∧ gone u n.toNat ∧ u.now.toNat = now)))

/-- R15, R587, R655, R663, R670, R672 to R674, R683 to R692, R694, R696: the answer and the effect of each dictionary operation, the commit groups, and the least
credential generation. That an event waits for its group's boundary is the model's reading. -/
def Obligations.DictionaryOps : Prop :=
  (∀ (p : Path) (a : U32) (s : State),
    let answers (c : Instr) (r : OpReply) : Prop := exec c s = .next { s with mgmt := { s.mgmt with reply := some r } }
    let no (c : Instr) (st : Nat) (v : Nat) : Prop := answers c ⟨st, v, []⟩
    let x := lookupRow a.toNat
    (∀ (off len : U16) (v : U64) (data : List Byte),
      (x = none → no (.readObject p a off len) 1 0 ∧ no (.writeObject p a v data) 1 v.toNat ∧ no (.readPending p a) 1 0 ∧ no (.describe p a) 1 0) ∧
      (∀ r, x = some r → s.notReady p r = true →
        no (.readObject p a off len) 8 0 ∧ no (.writeObject p a v data) 8 v.toNat ∧ no (.readPending p a) 8 0 ∧ no (.describe p a) 8 0) ∧
      (∀ r, x = some r → s.notReady p r = false →
        (s.hasRight p 0 = false → no (.readObject p a off len) 5 0 ∧ no (.readPending p a) 5 0 ∧ no (.describe p a) 5 0) ∧
        (s.hasRight p 0 = true →
          answers (.describe p a) ⟨0, 0, r.describe (s.defaultOf a.toNat)⟩ ∧
          (r.access ≠ .coupled → no (.readPending p a) 4 0) ∧ (r.access = .coupled → no (.readPending p a) 0 (s.pendingOf a.toNat)) ∧
          (s.unavailable r a.toNat = true → no (.readObject p a off len) 7 0) ∧
          (r.isBytes = false → s.unavailable r a.toNat = false →
            no (.readObject p a off len) 0 (if r.access = .wo then 0 else s.readScalar r a.toNat)) ∧
          (r.isBytes = true → s.unavailable r a.toNat = false →
            let b := if r.access = .wo then List.replicate r.size 0 else s.readBytes p r a.toNat
            let n := if len.toNat = 0 then b.length - off.toNat else len.toNat
            (b.length < off.toNat + n → no (.readObject p a off len) 4 0) ∧
            (off.toNat + n ≤ b.length → answers (.readObject p a off len) ⟨0, off.toNat, (b.drop off.toNat).take n⟩))) ∧
        (r.access ≠ .bringUp → s.hasRight p (writeRight r) = false → no (.writeObject p a v data) 5 v.toNat) ∧
        (r.access ≠ .bringUp → s.hasRight p (writeRight r) = true →
          (s.unavailable r a.toNat = true → no (.writeObject p a v data) 7 v.toNat) ∧
          (s.unavailable r a.toNat = false → r.access = .ro → no (.writeObject p a v data) 2 v.toNat) ∧
          (s.unavailable r a.toNat = false → (r.access = .rw ∨ r.access = .wo) → r.isBytes = true → ¬(r.ss = 0x0C ∧ r.idx = 0x432) →
            r.size < v.toNat % 2 ^ 16 + data.length → no (.writeObject p a v data) 4 v.toNat) ∧
          (s.unavailable r a.toNat = false → r.access = .rw → r.isBytes = false → r.ss = 0x0A → 0x1000 ≤ a.toNat / 256 % 65536 → r.fits v.toNat = true →
            r.lo ≤ v.toNat → v.toNat ≤ r.hi → ∃ u, exec (.writeObject p a v data) s = .next u ∧ u.mgmt.reply = some ⟨0, v.toNat, []⟩
            ∧ u.objAt 0x0A (a.toNat / 256 % 65536) (a.toNat % 256) = bits v.toNat 63 63 * 2 ^ 63 + bits v.toNat 56 34 * 2 ^ 34 + bits v.toNat 19 0) ∧
          (s.unavailable r a.toNat = false → r.access ≠ .ro → r.isBytes = false →
            (r.fits v.toNat = false → no (.writeObject p a v data) 4 v.toNat) ∧
            (r.fits v.toNat = true → (v.toNat < r.lo ∨ r.hi < v.toNat) → no (.writeObject p a v data) 3 v.toNat) ∧
            (r.fits v.toNat = true → r.lo ≤ v.toNat → v.toNat ≤ r.hi →
              (r.access = .coupled → ∃ u, exec (.writeObject p a v data) s = .next u ∧ u.pendingOf a.toNat = v.toNat ∧ u.obj = s.obj
                ∧ u.mgmt.reply = some ⟨0, v.toNat, []⟩ ∧ u = { s with copies := u.copies, mgmt := u.mgmt }) ∧
              (r.access ≠ .coupled → s.writeAction p r.ss (a.toNat / 256 % 65536) (a.toNat % 256) v.toNat = none →
                ∃ u, exec (.writeObject p a v data) s = .next u ∧ u.obj! a.toNat = v.toNat ∧ (∀ k, k ≠ a.toNat → u.obj! k = s.obj! k)
                ∧ u.mgmt.reply = some ⟨0, v.toNat, []⟩ ∧ u = { s with obj := u.obj, mgmt := { s.mgmt with reply := u.mgmt.reply } })))) ∧
        (r.access = .bringUp → (∀ n, p ≠ .mgmt n) ∨ s.objAt 0x0C 0x400 0 ≠ 3 → s.unavailable r a.toNat = false →
          (r.idx ≠ 0x303 → no (.writeObject p a v data) 6 v.toNat) ∧
          (r.idx = 0x303 → ∃ u, exec (.writeObject p a v data) s = .next u ∧ u.mgmt.reply = some ⟨6, v.toNat, []⟩ ∧ u.obj! a.toNat = 3
            ∧ ∀ k, k ≠ a.toNat → u.obj! k = s.obj! k)))) ∧
    (s.noServer p = true → no (.nextObject p a) 8 0) ∧
    (s.noServer p = false → s.hasRight p 0 = false → no (.nextObject p a) 5 0) ∧
    (s.noServer p = false → s.hasRight p 0 = true → ∃ v, no (.nextObject p a) 0 v ∧ (∀ k, a.toNat < k → k < v → lookupRow k = none)
      ∧ (v ≠ 0xFFFFFFFF → a.toNat < v ∧ (lookupRow v).isSome)) ∧
    (∀ mask : Byte,
      (s.objAt 0x0C 0x400 0 ≠ 5 → no (.subscribe p mask) 8 mask.toNat) ∧
      (s.objAt 0x0C 0x400 0 = 5 → s.hasRight p 0 = false → no (.subscribe p mask) 5 mask.toNat) ∧
      (s.objAt 0x0C 0x400 0 = 5 → s.hasRight p 0 = true → s.sessionAt p = none → no (.subscribe p mask) 0 mask.toNat) ∧
      (∀ x, s.objAt 0x0C 0x400 0 = 5 → s.hasRight p 0 = true → s.sessionAt p = some x → ∃ u, exec (.subscribe p mask) s = .next u ∧ u.mgmt.reply = some ⟨0, mask.toNat, []⟩
        ∧ u.mgmt.sessions = s.mgmt.sessions.map (fun y => if y.num = x.num then { y with mask := mask } else y)
        ∧ u = { s with mgmt := { s.mgmt with reply := u.mgmt.reply, sessions := u.mgmt.sessions } }))) ∧
  (∀ (g : Fin 3) (s : State),
    let vals := (groupMembers g).map s.pendingOf
    let held (u : State) : Prop := ∀ a ∈ groupMembers g, u.obj! a = s.obj! a
    (groupRule g vals = false → ∃ u, exec (.applyGroup g) s = .next u ∧ u.obj! (applyObject g) = 3 ∧ held u ∧ u = { s with obj := u.obj }) ∧
    (groupRule g vals = true → ∃ u, exec (.applyGroup g) s = .next u ∧ u.obj! (applyObject g) = 1 ∧ held u
      ∧ Table.get none u.mgmt.applied (g.val + 1) = some vals ∧ u.copies = s.copies ∧ (g ≠ 0 → u.boot = s.boot)) ∧
    (∃ u, exec (.discardGroup g) s = .next u ∧ u.obj! (applyObject g) = 4 ∧ held u ∧ (∀ a ∈ groupMembers g, u.pendingOf a = s.obj! a)
      ∧ u = { s with obj := u.obj, copies := u.copies }) ∧
    (∃ u, exec (.defaults g) s = .next u ∧ u.obj! (applyObject g) = 4 ∧ held u ∧ (∀ a ∈ groupMembers g, u.pendingOf a = s.defaultOf a)
      ∧ u = { s with obj := u.obj, copies := u.copies }) ∧
    (Table.get none s.mgmt.applied (g.val + 1) = none → exec (.quiescentBoundary g) s = .next s) ∧
    (∀ v w, Table.get none s.mgmt.applied (g.val + 1) = some [v, w] → ∃ u, exec (.quiescentBoundary g) s = .next u
      ∧ (groupMembers g).map u.obj! = [v, w] ∧ (∀ a ∈ groupMembers g, u.pendingOf a = s.pendingOf a) ∧ u.obj! (applyObject g) = 2
      ∧ Table.get none u.mgmt.applied (g.val + 1) = none ∧ (g = 0 → u.objAt 7 0x203 0 = v)
      ∧ ∃ e, e.kind = 2 ∧ e.detail = g.val + 1 + 512 ∧ u.eventsOut = s.eventsOut ++ [e])) ∧
  (∀ (v : U32) (s : State),
    (v.toNat < s.objAt 0x0C 0x112 0 → exec (.credMinGenerationWrite v) s = .next s) ∧
    (s.objAt 0x0C 0x112 0 ≤ v.toNat → ∃ u, exec (.credMinGenerationWrite v) s = .next u ∧ u.objAt 0x0C 0x112 0 = v.toNat
      ∧ u.mgmt.sessions = s.mgmt.sessions.filter (fun x => !(x.isOpen && decide (x.gen < v.toNat))) ∧ u.cmd = s.cmd ∧ u.pow = s.pow))

/-- R43, R44, R46, R104, R105, R125, R139, R167, R354 to R356, R431, R478, R527, R530, R535, R578, R655, R657, R659, R679 to R681, R746, R748: what a write of a
control field leaves (the places of the command-queue bits are presumed, log entry 24), what a core's access reaches at a reserved address, in DRAM, at the
package time, a queue control block, a relay entry and a binds word, a store to a sealed region, a debug read, the in-band ring and the core mailbox, and the
management port's link. -/
def Obligations.PortsAndRegisters : Prop :=
  (∀ (v : U64) (s : State),
    let n := v.toNat
    let w (t : RegTarget) (f : State → Prop) : Prop := ∃ u, exec (.registerWrite t v) s = .next u ∧ f u
    (∀ q : QueueId,
      let x := s.queue q
      let free := x.state = .detached
      let put (f : QueueField) (y : Queue) : Prop := w (.queue q f) (fun u => s.onlyQueue u q ∧ u.queue q = { y with
        wait0 := (u.queue q).wait0, wait1 := (u.queue q).wait1, brkLatch := (u.queue q).brkLatch })
      let stop : Prop := x.state = .running ∧ BitVec.ofNat 32 n ≠ 0 ∧ BitVec.ofNat 32 n = x.issued
      put .watchdog { x with watchdog := BitVec.ofNat 32 n } ∧
      (¬stop → put .stopAfter { x with stopAfter := BitVec.ofNat 32 n }) ∧
      (stop → w (.queue q .stopAfter) (fun u => (u.queue q).stopAfter = BitVec.ofNat 32 n ∧ u.toDev.stopsWith q 0x10)) ∧
      put .tref { x with tref := BitVec.ofNat 64 n } ∧
      w (.queue q .tref) (fun u => (x.wait0 = true → (u.queue q).wait0 = true) ∧ (x.wait1 = true → (u.queue q).wait1 = true) ∧
        ∀ k, x.state = .running → x.fetched = some k → isTestedBreak k = false →
          (s.waitHolds x.tref (iWait0 k) = true → (u.queue q).wait0 = true) ∧ (s.waitHolds x.tref (iWait1 k) = true → (u.queue q).wait1 = true)) ∧
      put .asid (if free then { x with asid := BitVec.ofNat 12 n } else x) ∧
      put .unit (if free then { x with unit := BitVec.ofNat 12 n } else x) ∧
      put .class (if free then { x with cls := BitVec.ofNat 4 n } else x) ∧
      put .sheafMask (if free then { x with sheafMask := BitVec.ofNat 32 n } else x) ∧
      put .submitFlags { x with submitOvf := x.submitOvf && !bit n 0, submitBad := x.submitBad && !bit n 1 }) ∧
    w .journalReadPtr (fun u => u.cmd.journal = { s.cmd.journal with compRead := BitVec.ofNat 32 n } ∧ u.cmd.queues = s.cmd.queues) ∧
    w .journalIrqEnable (fun u => u.cmd.journal = { s.cmd.journal with irqEnable := bit n 0 }) ∧
    w .journalReleaseErr (fun u => u.cmd.journal = { s.cmd.journal with releaseErr := s.cmd.journal.releaseErr && !bit n 0 }) ∧
    (∀ r : Fin 64,
      let x := s.relays[r]
      (x.enable = true → exec (.registerWrite (.relay r .asid) v) s = .next s ∧ exec (.registerWrite (.relay r .producer) v) s = .next s
        ∧ exec (.registerWrite (.relay r .consumer) v) s = .next s) ∧
      (x.enable = false → w (.relay r .asid) (fun u => u.relays[r] = { x with asid := BitVec.ofNat 12 n }) ∧
        w (.relay r .producer) (fun u => u.relays[r] = { x with producer := BitVec.ofNat 12 n }) ∧
        w (.relay r .consumer) (fun u => u.relays[r] = { x with consumer := BitVec.ofNat 12 n })) ∧
      w (.relay r .errFlags) (fun u => u.relays[r] = { x with
        errUnder := x.errUnder && !bit n 0, errOver := x.errOver && !bit n 1, errOwner := x.errOwner && !bit n 2 }) ∧
      (∀ (i : Fin 256) (k : Fin 8), w (.relayEntry r i k) (fun u => ∀ j : Fin 8,
        bits (Table.get 0 u.relays[r].entries i.val) (64 * j.val + 63) (64 * j.val) =
          (if j = k then n else bits (Table.get 0 x.entries i.val) (64 * j.val + 63) (64 * j.val))))) ∧
    (∀ m : MmuId,
      let x := s.mmu m
      let told (z y : Mmu) : Prop := z = { y with fqTail := z.fqTail, fqDropped := z.fqDropped, holding := z.holding }
      let put (f : MmuField) (y : Mmu) : Prop := w (.mmu m f) (fun u =>
        (bit y.cqcsr.toNat 0 = false → u.mmu m = y ∧ ∀ k, k ≠ m → u.mmu k = s.mmu k) ∧
        told (u.mmu m) { y with cqcsr := (u.mmu m).cqcsr, ipsr := (u.mmu m).ipsr } ∧ ∀ k, k ≠ m → told (u.mmu k) (s.mmu k))
      put .fqHead { x with fqHead := BitVec.ofNat 32 n } ∧
      ((bit n 0 = true ∨ (x.waitingPr = [] ∧ x.holding = [])) → put .fqEn { x with fqEn := bit n 0 }) ∧
      (bit n 0 = false → w (.mmu m .fqEn) (fun u => (u.mmu m).fqEn = false)) ∧ put .fqIrq { x with fqIrq := bit n 0 } ∧
      put .cqb { x with cqb := BitVec.ofNat 64 n } ∧ put .cqt { x with cqt := BitVec.ofNat 32 n } ∧ put .cqh x ∧ put .fctl { x with fctl := BitVec.ofNat 32 n } ∧
      (bit n 0 = true → bit x.cqcsr.toNat 0 = false → w (.mmu m .cqcsr) (fun u => (u.mmu m).cqh = 0)) ∧
      put .respErr { x with respErr := x.respErr && !bit n 0 } ∧ put .ipsr { x with ipsr := x.ipsr &&& ~~~(BitVec.ofNat 32 n) } ∧
      put .respTimeout (if 100 ≤ n ∧ n ≤ 60000000 then { x with respTimeoutUs := BitVec.ofNat 32 n } else x)) ∧
    w (.realmArg 0) (fun u => u.svc = { s.svc with arg0 := v }) ∧ w (.realmArg 1) (fun u => u.svc = { s.svc with arg1 := v }) ∧
    w (.realmArg 2) (fun u => u.svc = { s.svc with arg2 := v }) ∧ w .realmSelect (fun u => u.svc = { s.svc with realm := n % 64 }) ∧
    (∀ k : Fin 1024,
      let x := s.window k.val
      w (.windowEntry k true) (fun u => u.window k.val = (if x.enable then x else { x with pkey := BitVec.ofNat 12 n })) ∧
      (bit n 0 = true → w (.windowEntry k false) (fun u => (u.window k.val).enable = true ∧ (u.window k.val).pkey = x.pkey
        ∧ (u.window k.val).read = bit n 1 ∧ (u.window k.val).write = bit n 2 ∧ (u.window k.val).atomic = bit n 3
        ∧ (u.window k.val).target = (if x.enable then x.target else BitVec.ofNat 16 (bits n 63 48))
        ∧ (u.window k.val).tbase = (if x.enable then x.tbase else BitVec.ofNat 12 (bits n 41 30)))) ∧
      (bit n 0 = false → w (.windowEntry k false) (fun u => (u.window k.val).enable = false))) ∧
    (∀ (h : Fin 192) (k : Fin 512),
      (k ≠ 0 → w (.mailbox h k) (fun u => Table.get 0 u.mgmt.mailbox (512 * h.val + k.val) = v ∧ u.mgmt.doorbell = s.mgmt.doorbell ∧ u.obj = s.obj)) ∧
      exec (.registerWrite (.mailbox h 0) v) s = exec (.coreMailboxSubmit h) s ∧
      (Table.get 0 s.mgmt.doorbell h.val = 1 → exec (.coreMailboxSubmit h) s = .next s) ∧
      (Table.get 0 s.mgmt.doorbell h.val ≠ 1 → ∃ u, exec (.coreMailboxSubmit h) s = .next u ∧ Table.get 0 u.mgmt.doorbell h.val = 2)) ∧
    (∀ a : U32, (lookupRow a.toNat = none → exec (.registerWrite (.object a) v) s = .next s) ∧
      (∀ r, lookupRow a.toNat = some r → r.access = .rw → r.isBytes = false → s.unavailable r a.toNat = false → r.fits n = true → r.lo ≤ n → n ≤ r.hi →
        s.writeAction (.core 0) r.ss (a.toNat / 256 % 65536) (a.toNat % 256) n = none →
        w (.object a) (fun u => u.obj! a.toNat = n ∧ (∀ k, k ≠ a.toNat → u.obj! k = s.obj! k) ∧ u = { s with obj := u.obj })))) ∧
  (∀ (op : CoreOp) (pa v : U64) (realm : Bool) (n : Fin 9) (s : State),
    let c := Instr.registerWrite (.bus op pa realm n) v
    let a := pa.toNat % 2 ^ 42
    let key := pa.toNat / 2 ^ 42
    let answer (r : Reply) : Prop := exec c s = .next { s with reply := some r }
    let word (k : Nat) : Prop := pa.toNat = k ∧ n = 8
    let load (x : Nat) : Prop := op = .load → answer (.value (BitVec.ofNat 64 x))
    (2 ^ 48 ≤ pa.toNat → answer .accessError) ∧
    ((0x30000000000 ≤ a ∧ a < 0x3C000000000 ∨ 0x3C100000000 ≤ a ∧ a < 0x3E000000000 ∨ 0x3F400000000 ≤ a) → answer .accessError) ∧
    (2 ^ 41 ≤ a → key ≠ 0 → answer .accessError) ∧
    (a < 2 ^ 41 → (realm = true ∨ key ≠ 0) → answer .accessError) ∧
    (a < 2 ^ 41 → realm = false → key = 0 → 0 < n.val → a % 8 + n.val ≤ 8 → exec c s = .next s) ∧
    (word 0x3C000000000 → load s.now.toNat ∧ (op = .store → answer (.value 0)) ∧
      (op ∉ [.load, .store, .lr, .sc] → answer (.value s.now))) ∧
    (∀ (q : QueueId) (k : Fin 8), word (0x3E000000000 + 2 ^ 32 * (homeDie q).val + 0x100000 + 64 * (q.val - (queuesOf (homeDie q).val).1) + 8 * k.val) →
      load ((s.queue q).block / 2 ^ (64 * k.val) % 2 ^ 64)) ∧
    (∀ (r : Fin 64) (i : Fin 256) (k : Fin 8), word (0x3C080010000 + 0x4000 * r.val + 64 * i.val + 8 * k.val) →
      load (Table.get 0 (s.relay r).entries i.val / 2 ^ (64 * k.val) % 2 ^ 64)) ∧
    (∀ (m : MmuId) (x : Asid) (r : Fin 256), word (0x3E000000000 + 2 ^ 32 * (8 + m.val) + 0x400000 + 8 * (256 * x.toNat + r.val)) →
      s.binds x.toNat r.val < 65536 →
      load (s.binds x.toNat r.val + (if 0 < s.binds x.toNat r.val then 65536 else 0)) ∧ (op = .store → answer (.value 0)))) ∧
  (∀ (satp va v : U64) (n : Fin 9) (s : State),
    let c := Instr.registerWrite (.coreStore satp va n) v
    let denied : Prop := bits satp.toNat 63 60 ≠ 0 ∧ ∃ e ∈ s.xl.sealed, ∃ x, s.ctx 0 e.asid = some x ∧ x.rootPa = bits satp.toNat 43 0 * 4096
      ∧ e.base < va.toNat + n.val ∧ va.toNat < e.base + 4096 * e.pages
    (denied → exec c s = .next { s with reply := some .accessError }) ∧ (¬denied → exec c s = .next s)) ∧
  (∀ (line : Option LineTag) (k : Fin 16) (v : U64) (s : State),
    let c := Instr.registerWrite (.debugRead line k) v
    ((∀ t, line = some t → okLine t = true ∧ tagRealm t = true) → ∃ u, exec c s = .next u ∧ u.reply = some (.value 0)
      ∧ u.objAt 6 0x303 0 = (s.objAt 6 0x303 0 + 1) % 2 ^ 64 ∧ u = { s with reply := u.reply, obj := u.obj }) ∧
    (∀ t, line = some t → okLine t = true → tagRealm t = false →
      exec c s = .next { s with reply := some (.value (BitVec.ofNat 64 (fieldAt (s.coherent t).1 (8 * k.val) 8))) })) ∧
  (∀ (c : Fin 16) (s : State),
    let x := s.channel c
    let r := Table.get {} s.mgmt.rings c.val
    let waits : Prop := x.on = true ∧ s.objAt 0x0C 0x400 0 = 5 ∧ (s.pcounter (x.doorbell % 1024)).toNat ≠ r.taken % 2 ^ 32
    (¬waits → exec (.inbandRequest c) s = .next s) ∧
    (waits → s.coreRead x.asid (x.base + 0x1000 + r.taken % x.entries * 0x800) 0x800 = none → exec (.inbandRequest c) s = .next s) ∧
    (waits → ∀ s' b, s.coreRead x.asid (x.base + 0x1000 + r.taken % x.entries * 0x800) 0x800 = some (s', b) →
      let d : State := { s' with mgmt := { s.mgmt with rings := Table.set {} s.mgmt.rings c.val { r with taken := r.taken + 1 } } }
      let g := sliceBytes b 8 (min (fieldAt b 0 2) 2040)
      let count (u : State) : State := u.coreWrite x.asid (x.base + 8) (leBytes 4 (r.taken + 1))
      (parseDatagram (.inband c) g = none → exec (.inbandRequest c) s = .next (count d)) ∧
      (∀ y k, parseDatagram (.inband c) g = some y → [(1, Instr.sessionInit (.inband c) g), (3, .sessionFinish (.inband c) g),
          (5, .sessionDiscover (.inband c) g), (0x10, .sessionRequest (.inband c) g), (0x13, .sessionKeepalive (.inband c) g),
          (0x14, .sessionClose (.inband c) g)].find? (fun e => e.1 = y.ty) = some k →
        ∃ u, exec k.2 d = .next u ∧ exec (.inbandRequest c) s = .next (count u)))) ∧
  (∀ s : State,
    let port := s.objAt 0x0C 0x100 0
    (port = 0 → exec .plcaBeacon s = .next s) ∧
    (port ≠ 0 → ∃ u, exec .plcaBeacon s = .next u ∧ u.objAt 0x0C 0x100 0 = 2 ∧ u.mgmt.sent = s.mgmt.sent ++ s.mgmt.waiting.take 1
      ∧ u.mgmt.waiting = s.mgmt.waiting.drop 1 ∧ u = { s with obj := u.obj, mgmt := { s.mgmt with sent := u.mgmt.sent, waiting := u.mgmt.waiting } }) ∧
    (∃ u, exec (.mgmtPortLinkChange false) s = .next u ∧ u.objAt 0x0C 0x100 0 = 0 ∧ u = { s with obj := u.obj }) ∧
    (∃ u, exec (.mgmtPortLinkChange true) s = .next u ∧ u.objAt 0x0C 0x100 0 = (if port = 0 then 1 else port) ∧ u = { s with obj := u.obj }) ∧
    (∀ target source : List Byte,
      let dest := if source.all (· = 0) then [0xFF, 0x02] ++ List.replicate 13 0 ++ [0x01] else source
      ((target ≠ s.linkLocal ∨ s.portRuns .mgmt = false) → exec (.neighborDiscovery target source) s = .next s) ∧
      (target = s.linkLocal → s.portRuns .mgmt = true → s.freeToSend = true → exec (.neighborDiscovery target source) s = .next { s with
        mgmt := { s.mgmt with sent := s.mgmt.sent ++ [.neighborAdvert dest target s.macAddress] } }) ∧
      (target = s.linkLocal → s.portRuns .mgmt = true → s.freeToSend = false → exec (.neighborDiscovery target source) s = .next { s with
        mgmt := { s.mgmt with waiting := s.mgmt.waiting ++ [.neighborAdvert dest target s.macAddress] } })) ∧
    (∀ (source data : List Byte) (i k : U16),
      (s.portRuns .mgmt = false → exec (.icmpv6Echo source i k data) s = .next s) ∧
      (s.portRuns .mgmt = true → s.freeToSend = true → exec (.icmpv6Echo source i k data) s = .next { s with
        mgmt := { s.mgmt with sent := s.mgmt.sent ++ [.echoReply source i k data] } })))

/-- R397, R552, R610, R617, R669, R704, R709 to R713, R718, R738 to R740: what a cold reset, a warm reset and a management controller restart leave, and the writes that
hold the module in bring-up, continue its boot, or raise a rollback floor. -/
def Obligations.BootAndReset : Prop :=
  (∀ (r : BootReading) (s : State), s.pow.rails = false → s.resetDue ≠ some .cold →
    exec (.coldReset r) s = .next s ∧ exec (.resetRequestCold r) s = .next s) ∧
  (∀ (r : BootReading) (s : State), (s.pow.rails = true ∨ s.resetDue = some .cold) → ∃ u, exec (.coldReset r) s = .next u ∧ exec (.resetRequestCold r) s = .next u
    ∧ u.pow.rails = true ∧ u.pow.hotSwap = true ∧ u.pow.latch = none ∧ u.resetDue = none ∧ u.cmd = {} ∧ u.mgmt.sessions = [] ∧ u.pending = s.pending
    ∧ (∀ k, u.keyState k = .quarantine 2000000) ∧ u.objAt 0x0C 0x405 0 = 2 ∧ (∀ i : Fin 3, s.boot.counters[i] ≤ u.boot.counters[i]) ∧
    (let state := u.objAt 0x0C 0x400 0
     let cause := u.objAt 0x0C 0x401 0
     let chosen := s.selectSlot r.carrierReads (Config.pufRead r.pufNoise)
     (state = 1 ∨ state = 2 ∨ state = 3 ∨ state = 5) ∧
     (r.carrierReads = false → state = 1 ∧ cause = 7 ∧ u.boot.image = none) ∧
     (∀ c, chosen = .inr c → state = 1 ∧ cause = c ∧ u.boot.secret = none) ∧
     (∀ i, chosen = .inl i → u.boot.slot = some i ∧ (r.storeReads = false → state = 2 ∧ cause = 6 ∧ u.boot.image = none)) ∧
     (∀ i, chosen = .inl i → s.pow.bringUpLatch = true → state = 2 ∨ (state = 3 ∧ u.pow.bringUpLatch = true))) ∧
    (s.pow.latch = some .sagReset → u.objAt 0x0B 0x605 0 = 1) ∧ (s.pow.latch = some .overVoltage → u.objAt 0x0B 0x605 0 = 2) ∧
    (∀ d, s.pow.latch = some (.thermalTrip d) → u.objAt 0x0B 0x605 0 = 3)) ∧
  (∀ (fatal : Bool) (trained : List ConnId) (s : State),
    exec (.resetRequestWarm trained) s = exec (.warmReset false trained) s ∧
    (s.pow.rails = false → exec (.warmReset fatal trained) s = .next s) ∧
    (s.pow.rails = true → ∃ u, exec (.warmReset fatal trained) s = .next u ∧ u.now = s.now ∧ u.pow.rails = true ∧ u.cmd = {} ∧ u.mgmt.sessions = []
      ∧ u.pending = s.pending ∧ u.pow.trims = s.pow.trims
      ∧ ((fatal = true ∨ ∀ m, (s.mmu m).fqEn = false) → u.xl.fatalLog =
          (match s.xl.lastDirty with
            | some r => if fatal && s.resetDue ≠ some .warm then (r :: s.xl.fatalLog).take 16 else s.xl.fatalLog
            | none => s.xl.fatalLog))
      ∧ (∀ k, u.keyState k = (if s.keyState k = .enabled then .quarantine (s.now.toNat + s.objAt 0x0A 0x204 0) else .drained))
      ∧ u.objAt 0x0C 0x405 0 = 1 ∧ u.objAt 0x0C 0x406 0 = s.objAt 0x0C 0x406 0 + 1 ∧ u.objAt 0x0B 0x302 0 = s.objAt 0x0B 0x302 0
      ∧ (∀ c : ConnId, s.objAt 9 0x101 c.val = 1 → u.objAt 9 0x101 c.val = 1) ∧ (∀ i : Fin 3, s.boot.counters[i] ≤ u.boot.counters[i]) ∧
      (let state := u.objAt 0x0C 0x400 0
       ((18 : Die) ∈ s.fab.isolated → state = 0 ∧ (18 : Die) ∈ u.fab.isolated) ∧
       ((18 : Die) ∉ s.fab.isolated → (s.objAt 0x0C 0x400 0 = 1 → state = 1) ∧ (s.objAt 0x0C 0x400 0 ≠ 1 → state = 2 ∨ state = 5))))) ∧
  (∀ s : State,
    let closed (c : Instr) : Prop := (s.pow.rails = false → exec c s = .next s) ∧
      (s.pow.rails = true → ∃ u, exec c s = .next u ∧ u.mgmt.sessions = s.mgmt.sessions.filter (fun x => !(x.path = .mgmt)) ∧ u.mgmt.waiting = []
        ∧ u.objAt 0x0C 0x405 0 = 3 ∧ u.cmd = s.cmd ∧ u.mem = s.mem ∧ u.xl = s.xl ∧ u.svc = s.svc ∧ u.fab = s.fab ∧ u.pow = s.pow ∧ u.boot = s.boot
        ∧ u.now = s.now)
    closed .mcRestart ∧ closed .mcWatchdogExpiry ∧ closed .resetRequestMcRestart) ∧
  (∀ (r : BootReading) (s : State),
    exec (.bringupRequest false) s = .next s ∧
    exec (.bringupRequest true) s = .next { s with pow := { s.pow with bringUpLatch := true } } ∧
    exec (.bootContinue false r) s = .next s ∧ (s.objAt 0x0C 0x400 0 ≠ 3 → exec (.bootContinue true r) s = .next s) ∧
    (s.objAt 0x0C 0x400 0 = 3 → ∃ u, exec (.bootContinue true r) s = .next u ∧ u.pow.bringUpLatch = false ∧ u.boot.reading = none
      ∧ u.objAt 0x0C 0x400 0 = 5 ∧ u.cmd = s.cmd) ∧
    exec (.floorRaise false) s = .next s ∧
    (∃ u, exec (.floorRaise true) s = .next u ∧ u = { s with boot := { s.boot with counters := u.boot.counters } }
      ∧ u.oneWay 0 = s.oneWay 0 ∧ (s.boot.image = none → u.oneWay 1 = s.oneWay 1) ∧ (s.personality = none → u.oneWay 2 = s.oneWay 2)
      ∧ (∀ f, s.boot.image = some f → u.oneWay 1 = max (s.oneWay 1) f.security)
      ∧ (∀ b, s.personality = some b → u.oneWay 2 = max (s.oneWay 2) (fieldAt b 4 4))))

/-- R719 to R727, R732 to R737, R742: a report is signed with the next leaf of a tree; a transfer begins, is filled, verified and stored, or is refused; and
what insertion, removal, loss and the laser interlocks do. -/
def Obligations.TransfersAndHotPlug : Prop :=
  (∀ (p : Path) (s : State),
    let replied (u : State) (st : Nat) : Prop := u.mgmt.reply = some ⟨st, 0, []⟩
    let no (c : Instr) (st : Nat) : Prop := exec c s = .next { s with mgmt := { s.mgmt with reply := some ⟨st, 0, []⟩ } }
    let key := s.attestKey p
    no (.attestRun p false) 3 ∧ (s.boot.secret = none → no (.attestRun p true) 9) ∧
    (s.boot.secret ≠ none →
      (∀ b, s.boot.tree = some b → s.boot.leaf < 1024 → ∃ u, exec (.attestRun p true) s = .next u ∧ replied u 0 ∧ u.boot.tree = some b
        ∧ u.boot.leaf = s.boot.leaf + 1 ∧ u.boot.counters = s.boot.counters
        ∧ some (Table.get {} u.mgmt.attest key).report = (s.signReport 1 0 (Table.get {} s.mgmt.attest key).nonce []).2) ∧
      ((s.boot.tree = none ∨ 1024 ≤ s.boot.leaf) → s.oneWay 0 < 1048576 → ∃ u, exec (.attestRun p true) s = .next u ∧ replied u 0
        ∧ u.boot.tree = some (s.oneWay 0) ∧ u.boot.leaf = 1 ∧ u.oneWay 0 = s.oneWay 0 + 1) ∧
      ((s.boot.tree = none ∨ 1024 ≤ s.boot.leaf) → 1048576 ≤ s.oneWay 0 → ∃ u, exec (.attestRun p true) s = .next u ∧ replied u 9
        ∧ u.boot.tree = none ∧ u.mgmt.attest = s.mgmt.attest)) ∧
    (∀ v : U64,
      let target := v.toNat % 256
      let len := bits v.toNat 63 32
      let mine : Prop := ∀ t, s.mgmt.transfer = some t → t.by_ = p ∧ t.committed = false
      (¬mine → no (.xferBegin p v) 9) ∧
      (mine → ¬((target = 1 ∨ target = 2) ∧ len ≤ xferMax target) → no (.xferBegin p v) 3) ∧
      (mine → (target = 1 ∨ target = 2) → len ≤ xferMax target → ∃ u, exec (.xferBegin p v) s = .next u ∧ replied u 0
        ∧ u.mgmt.transfer = some { by_ := p, target := target, len := len } ∧ u.objAt 0x0C 0x434 0 = 1
        ∧ u.boot.storeBlank = (s.boot.storeBlank || (target = 1 && s.objAt 0x0C 0x400 0 = 2)))) ∧
    (s.mgmt.transfer = none → (∀ off data, no (.xferWindow p off data) 9) ∧ (∀ v, no (.xferCommit p v) 9) ∧ exec .xferStoreDone s = .next s) ∧
    (∀ t, s.mgmt.transfer = some t →
      (∀ (off : U16) (data : List Byte),
        let at_ := s.objAt 0x0C 0x431 0 + off.toNat
        ((t.by_ ≠ p ∨ t.committed = true) → no (.xferWindow p off data) 9) ∧
        (t.by_ = p → t.committed = false →
          ((1024 < off.toNat + data.length ∨ t.len < at_ + data.length) → no (.xferWindow p off data) 4) ∧
          (off.toNat + data.length ≤ 1024 → at_ + data.length ≤ t.len → ∃ u, exec (.xferWindow p off data) s = .next u ∧ replied u 0 ∧ u.obj = s.obj ∧
            (¬(t.target = 1 ∧ s.objAt 0x0C 0x400 0 = 2) →
              u.mgmt.transfer = some { t with data := Table.setRange 0 t.data at_ data } ∧ u.boot = s.boot)))) ∧
      no (.xferCommit p false) 3 ∧ ((t.by_ ≠ p ∨ t.committed = true) → no (.xferCommit p true) 9) ∧
      (t.by_ = p → t.committed = false → ∃ u, exec (.xferCommit p true) s = .next u ∧ replied u 0 ∧ u.mgmt.transfer = some { t with committed := true }
        ∧ u.objAt 0x0C 0x434 0 = 2) ∧
      (t.committed = false → exec .xferStoreDone s = .next s) ∧
      (t.committed = true → ∃ u, exec .xferStoreDone s = .next u ∧ u.mgmt.transfer = none ∧ u.objAt 0x0C 0x434 0 = s.verifyTransfer t
        ∧ u.boot.counters = s.boot.counters ∧ (s.verifyTransfer t ≠ 3 → u.boot = s.boot) ∧
        (s.verifyTransfer t = 3 → t.target = 2 →
          u.carrierBytes (slotBase (if s.boot.slot = some 0 then 1 else 0)) 8192 = Table.getRange 0 t.data 0 8192 ∧ u.boot.store = s.boot.store) ∧
        (s.verifyTransfer t = 3 → t.target ≠ 2 → u.boot.storeBlank = false ∧ u.boot.carrier = s.boot.carrier)))) ∧
  (∀ s : State,
    let lost (u : State) : Prop := u.pow.rails = false ∧ u.mem = {} ∧ u.cmd = {} ∧ u.obj = [] ∧ u.mgmt = {} ∧ u.boot.carrier = s.boot.carrier
      ∧ u.boot.store = s.boot.store ∧ u.boot.counters = s.boot.counters ∧ u.boot.secret = none ∧ u.pending = s.pending ∧ u.pow.latch = s.pow.latch
    let ready : Prop := (∀ k : BitVec 12, s.keyState k = .drained) ∧ ∀ e ∈ s.cmd.queues, e.2.state = .detached
    exec (.removePrepare false) s = .next s ∧ (¬ready → exec (.removePrepare true) s = .next s) ∧
    (ready → ∃ u, exec (.removePrepare true) s = .next u ∧ u.boot = { s.boot with preparing := true } ∧
      ((∀ m, (s.mmu m).fqEn = false) → (∀ l, s.linkUp l = true → (s.link l).sent = [] ∧ (s.link l).queue = []) →
        u.objAt 0x0C 0x461 0 = 1 ∧ ∀ l : LinkId, u.objAt 0x0A 0x101 l.val = 0 ∧ u.linkUp l = false)) ∧
    (s.boot.preparing = false → exec .readyForRemoval s = .next s) ∧
    (s.boot.preparing = true → ∃ u, exec .readyForRemoval s = .next u ∧ u.boot = { s.boot with preparing := false, prepared := true }
      ∧ u.pow = { s.pow with hotSwap := false, rails := false, attention := true } ∧ u.objAt 0x0C 0x461 0 = 2 ∧ u.mem.agents = Vector.replicate 10 {}) ∧
    (∃ u, exec .presenceOpen s = .next u ∧ lost u ∧ u.boot.pinClosed = false ∧ u.pow.hotSwap = false) ∧
    (s.boot.pinClosed = true → exec .presenceClose s = .next s) ∧
    (s.boot.pinClosed = false → exec .presenceClose s = .next { s with
      boot := { s.boot with pinClosed := true }, pow := { s.pow with hotSwap := true } }) ∧
    exec (.boundaryScanInstruction true) s = .next s ∧
    (∃ u, exec (.boundaryScanInstruction false) s = .next u ∧ lost u ∧ u.pow.scanHold = true) ∧
    (∀ l, exec (.lossOfSignal l) s = exec (.linkDown l 2) s)) ∧
  (∀ (n : Fin 4) (s : State), (∀ m, (s.mmu m).fqEn = false) → (∀ l, s.linkUp l = true → (s.link l).sent = [] ∧ (s.link l).queue = []) →
    let light := s.objAt 0x0C 0x450 n.val
    let dark (u : State) (v : Nat) : Prop := u.objAt 0x0C 0x450 n.val = v ∧ ∀ l : LinkId, l.val / 8 = n.val → u.objAt 0x0A 0x100 l.val = 4
    (∃ u, exec (.laserModuleLoss n) s = .next u ∧ dark u 0 ∧ u.objAt 0x0C 0x440 (n.val + 2) = 0 ∧ u.part ⟨n.val + 1, by omega⟩ = none) ∧
    (∃ u, exec (.laserInterlockOpen n) s = .next u ∧ u.boot = { s.boot with interlock := s.boot.interlock.set n.val false n.isLt }
      ∧ (light = 2 → dark u 1) ∧ (light ≠ 2 → u = { s with boot := u.boot })) ∧
    (∃ u, exec (.laserInterlockClose n) s = .next u ∧ u.boot = { s.boot with interlock := s.boot.interlock.set n.val true n.isLt }
      ∧ (light ≠ 1 → u = { s with boot := u.boot }) ∧ (light = 1 → u.mayLight n = false → dark u 1) ∧
      (light = 1 → u.mayLight n = true → u.objAt 0x0C 0x450 n.val = 2)) ∧
    (∀ contents : List Byte,
      (∃ u, exec (.hotJoin (.laser n) contents) s = .next u ∧ u.part ⟨n.val + 1, by omega⟩ = some contents ∧ u.objAt 0x0C 0x440 (n.val + 2) = idState contents
        ∧ (u.mayLight n = false → dark u 1) ∧ (u.mayLight n = true → u.objAt 0x0C 0x450 n.val = 2)) ∧
      (∃ u, exec (.hotJoin (.fibre n) contents) s = .next u ∧ u.part ⟨n.val + 5, by omega⟩ = some contents ∧ u.objAt 0x0C 0x440 (n.val + 6) = idState contents
        ∧ u.objAt 0x0C 0x451 n.val = (if idState contents = 1 then fieldAt contents 0x100 2 else 0))))

/-- R624, R626, R629, R630: every step keeps the power manager's levels within their ranges, from every state that has them so. -/
def Obligations.PowerLevelsKept : Prop :=
  ∀ s t : State, s.powerKept → step s = .next t → t.powerKept

/-- R704: no step lowers a one-way counter, whatever command runs. -/
def Obligations.OneWayCountersNeverFall : Prop :=
  ∀ s t : State, step s = .next t → ∀ i : Fin 3, s.oneWay i ≤ t.oneWay i

/-- The state at reset: package time 0, every object at its default, every queue detached, every key in quarantine, no link up, no flag or
counter set, memory in canonical form, the power levels within their ranges, and no command waiting. The rails are up and boot_state reads
0x0: the model's reset is the end of step 1 of R709. -/
def Obligations.ResetState : Prop :=
  State.reset.powerKept ∧ State.reset.pending = [] ∧ State.reset.now = 0 ∧ Memory.wf State.reset.mem = true ∧ State.reset.pow.rails = true
    ∧ (∀ a, State.reset.obj! a = objDefault a) ∧ State.reset.objAt 0x0C 0x400 0 = 0 ∧ State.reset.objAt 0x0B 0x103 0 = 1000000
    ∧ (∀ q, (State.reset.queue q).state = .detached) ∧ (∀ q, State.reset.running q = []) ∧ (∀ k, State.reset.keyState k = .quarantine 2000000)
    ∧ (∀ l, State.reset.linkUp l = false) ∧ (∀ d i, State.reset.flag d i = false) ∧ (∀ d i, State.reset.counter d i = 0)
    ∧ (∀ c, State.reset.pcounter c = 0) ∧ (∀ r, (State.reset.realmAt r).active = false) ∧ State.reset.mgmt.sessions = []
    ∧ (∀ a t, State.reset.lineAt a t = none)
end

