-- ==== Sys2Proof/Laws/Table.lean ====
section
/-! SUPPORT. Laws/Table.lean: the laws of sparse tables: read after write at the same key and at another, and that every operation
keeps the canonical form. -/

namespace Sys2Proof.Machine

variable {α : Type}

theorem Table.get_erase_same (d : α) (t : Table α) (k : Nat) : Table.get d (t.erase k) k = d := by
  induction t with
  | nil => rfl
  | cons e r ih =>
    obtain ⟨k', v'⟩ := e
    by_cases h : k' = k
    · simpa [Table.erase, h] using ih
    · simpa [Table.erase, Table.get, h] using ih

theorem Table.get_erase_ne (d : α) (t : Table α) {k k2 : Nat} (h : k2 ≠ k) :
    Table.get d (t.erase k) k2 = Table.get d t k2 := by
  induction t with
  | nil => rfl
  | cons e r ih =>
    obtain ⟨k', v'⟩ := e
    by_cases h1 : k' = k
    · subst h1
      simpa [Table.erase, Table.get, h.symm] using ih
    · by_cases h2 : k' = k2
      · subst h2; simp [Table.erase, Table.get, h1]
      · simpa [Table.erase, Table.get, h1, h2] using ih

theorem Table.get_put_same (d : α) (t : Table α) (k : Nat) (v : α) : Table.get d (t.put k v) k = v := by
  induction t with
  | nil => simp [Table.put, Table.get]
  | cons e r ih =>
    obtain ⟨k', v'⟩ := e
    simp only [Table.put]
    split
    · simp [Table.get]
    · split
      · simp [Table.get]
      · rename_i _ h; simp [Table.get, Ne.symm h, ih]

theorem Table.get_put_ne (d : α) (t : Table α) {k k2 : Nat} (v : α) (h : k2 ≠ k) :
    Table.get d (t.put k v) k2 = Table.get d t k2 := by
  induction t with
  | nil => simp [Table.put, Table.get, h.symm]
  | cons e r ih =>
    obtain ⟨k', v'⟩ := e
    simp only [Table.put]
    split
    · simp [Table.get, h.symm]
    · split
      · rename_i _ h1; subst h1; simp [Table.get, h.symm]
      · simp only [Table.get]; split <;> simp_all

/-- What was put at a key is read there. -/
@[simp] theorem Table.get_set_same [DecidableEq α] (d : α) (t : Table α) (k : Nat) (v : α) :
    Table.get d (Table.set d t k v) k = v := by
  unfold Table.set
  split
  · rename_i h; rw [h, Table.get_erase_same]
  · exact Table.get_put_same d t k v

/-- What is put at a key leaves every other key as it was. -/
theorem Table.get_set_ne [DecidableEq α] (d : α) (t : Table α) {k k2 : Nat} (v : α) (h : k2 ≠ k) :
    Table.get d (Table.set d t k v) k2 = Table.get d t k2 := by
  unfold Table.set
  split
  · exact Table.get_erase_ne d t h
  · exact Table.get_put_ne d t v h

/-- A read after a put. -/
theorem Table.get_set [DecidableEq α] (d : α) (t : Table α) (k k2 : Nat) (v : α) :
    Table.get d (Table.set d t k v) k2 = if k2 = k then v else Table.get d t k2 := by
  split
  · rename_i h; rw [h, Table.get_set_same]
  · rename_i h; exact Table.get_set_ne d t v h

/-- The table with nothing listed reads as the default. -/
@[simp] theorem Table.get_nil (d : α) (k : Nat) : Table.get d [] k = d := rfl

theorem Table.above_erase (t : Table α) (m k : Nat) [DecidableEq α] (d : α) (hw : Table.wf d t = true)
    (h : Table.above m t = true) : Table.above m (t.erase k) = true := by
  induction t generalizing m with
  | nil => rfl
  | cons e r ih =>
    obtain ⟨k', v'⟩ := e
    simp [Table.above] at h
    simp [Table.wf] at hw
    by_cases h1 : k' = k
    · have := ih k' hw.2 hw.1.1
      simp only [Table.erase, List.filter_cons, h1, beq_self_eq_true, Bool.not_true, Bool.false_eq_true, ite_false]
      cases hr : List.filter (fun e => !(e.1 == k)) r with
      | nil => rfl
      | cons e2 r2 =>
        have h2 : Table.above k' (Table.erase r k) = true := this
        simp [Table.erase, hr, Table.above] at h2 ⊢
        omega
    · simp [Table.erase, h1, Table.above, h]

theorem Table.wf_erase [DecidableEq α] (d : α) (t : Table α) (k : Nat) (hw : Table.wf d t = true) :
    Table.wf d (t.erase k) = true := by
  induction t with
  | nil => rfl
  | cons e r ih =>
    obtain ⟨k', v'⟩ := e
    simp [Table.wf] at hw
    by_cases h1 : k' = k
    · simpa [Table.erase, h1] using ih hw.2
    · have := Table.above_erase r k' k d hw.2 hw.1.1
      simp [Table.erase, h1, Table.wf, hw.1.2]
      exact ⟨this, ih hw.2⟩

theorem Table.above_put (t : Table α) (m k : Nat) (v : α) (h : Table.above m t = true) (hk : m < k) :
    Table.above m (t.put k v) = true := by
  cases t with
  | nil => simp [Table.put, Table.above, hk]
  | cons e r =>
    obtain ⟨k', v'⟩ := e
    simp [Table.above] at h
    simp only [Table.put]
    split
    · simp [Table.above, hk]
    · split <;> simp [Table.above, h, hk]

theorem Table.wf_put [DecidableEq α] (d : α) (t : Table α) (k : Nat) (v : α) (hw : Table.wf d t = true) (hv : v ≠ d) :
    Table.wf d (t.put k v) = true := by
  induction t with
  | nil => simp [Table.put, Table.wf, Table.above, hv]
  | cons e r ih =>
    obtain ⟨k', v'⟩ := e
    have hw' := hw
    simp [Table.wf] at hw
    simp only [Table.put]
    split
    · rename_i hk
      have ha : Table.above k ((k', v') :: r) = true := by simp [Table.above, hk]
      rw [Table.wf, ha, hw']
      simp [hv]
    · split
      · rename_i _ h1; subst h1; simp [Table.wf, hv, hw]
      · rename_i h1 h2
        have := Table.above_put r k' k v hw.1.1 (by omega)
        simp [Table.wf, this, hw.1.2, ih hw.2]

/-- A put keeps the canonical form. -/
theorem Table.wf_set [DecidableEq α] (d : α) (t : Table α) (k : Nat) (v : α) (hw : Table.wf d t = true) :
    Table.wf d (Table.set d t k v) = true := by
  unfold Table.set
  split
  · exact Table.wf_erase d t k hw
  · rename_i h; exact Table.wf_put d t k v hw h

/-- Putting a list of values keeps the canonical form. -/
theorem Table.wf_setRange [DecidableEq α] (d : α) (t : Table α) (k : Nat) (vs : List α) (hw : Table.wf d t = true) :
    Table.wf d (Table.setRange d t k vs) = true := by
  induction vs generalizing t k with
  | nil => exact hw
  | cons v vs ih => exact ih _ _ (Table.wf_set d t k v hw)

/-- Filling a range keeps the canonical form. -/
theorem Table.wf_fill [DecidableEq α] (d : α) (t : Table α) (k n : Nat) (v : α) (hw : Table.wf d t = true) :
    Table.wf d (Table.fill d t k n v) = true := Table.wf_setRange d t k _ hw

end Sys2Proof.Machine
end

