-- ==== Sys2Proof/Laws/State.lean ====
section
/-! SUPPORT. Laws/State.lean: one lemma for each field under each update of the engines' part of the state, and what each named read
gives after each named write. -/

namespace Sys2Proof.Machine

variable (s : Dev)

@[simp] theorem Dev.setNow_fresh (t : U64) : (s.setNow t).fresh = s.fresh := rfl
@[simp] theorem Dev.setNow_obj (t : U64) : (s.setNow t).obj = s.obj := rfl
@[simp] theorem Dev.setNow_copies (t : U64) : (s.setNow t).copies = s.copies := rfl
@[simp] theorem Dev.setNow_windows (t : U64) : (s.setNow t).windows = s.windows := rfl
@[simp] theorem Dev.setNow_mem (t : U64) : (s.setNow t).mem = s.mem := rfl
@[simp] theorem Dev.setNow_xl (t : U64) : (s.setNow t).xl = s.xl := rfl
@[simp] theorem Dev.setNow_cmd (t : U64) : (s.setNow t).cmd = s.cmd := rfl
@[simp] theorem Dev.setNow_svc (t : U64) : (s.setNow t).svc = s.svc := rfl
@[simp] theorem Dev.setNow_shf (t : U64) : (s.setNow t).shf = s.shf := rfl
@[simp] theorem Dev.setNow_relays (t : U64) : (s.setNow t).relays = s.relays := rfl
@[simp] theorem Dev.setNow_fab (t : U64) : (s.setNow t).fab = s.fab := rfl
@[simp] theorem Dev.setNow_eventLog (t : U64) : (s.setNow t).eventLog = s.eventLog := rfl
@[simp] theorem Dev.setNow_eventsOut (t : U64) : (s.setNow t).eventsOut = s.eventsOut := rfl
@[simp] theorem Dev.setNow_reply (t : U64) : (s.setNow t).reply = s.reply := rfl
@[simp] theorem Dev.setNow_resetDue (t : U64) : (s.setNow t).resetDue = s.resetDue := rfl

@[simp] theorem Dev.setObj_now (a v : Nat) : (s.setObj a v).now = s.now := rfl
@[simp] theorem Dev.setObj_fresh (a v : Nat) : (s.setObj a v).fresh = s.fresh := rfl
@[simp] theorem Dev.setObj_copies (a v : Nat) : (s.setObj a v).copies = s.copies := rfl
@[simp] theorem Dev.setObj_windows (a v : Nat) : (s.setObj a v).windows = s.windows := rfl
@[simp] theorem Dev.setObj_mem (a v : Nat) : (s.setObj a v).mem = s.mem := rfl
@[simp] theorem Dev.setObj_xl (a v : Nat) : (s.setObj a v).xl = s.xl := rfl
@[simp] theorem Dev.setObj_cmd (a v : Nat) : (s.setObj a v).cmd = s.cmd := rfl
@[simp] theorem Dev.setObj_svc (a v : Nat) : (s.setObj a v).svc = s.svc := rfl
@[simp] theorem Dev.setObj_shf (a v : Nat) : (s.setObj a v).shf = s.shf := rfl
@[simp] theorem Dev.setObj_relays (a v : Nat) : (s.setObj a v).relays = s.relays := rfl
@[simp] theorem Dev.setObj_fab (a v : Nat) : (s.setObj a v).fab = s.fab := rfl
@[simp] theorem Dev.setObj_eventLog (a v : Nat) : (s.setObj a v).eventLog = s.eventLog := rfl
@[simp] theorem Dev.setObj_eventsOut (a v : Nat) : (s.setObj a v).eventsOut = s.eventsOut := rfl
@[simp] theorem Dev.setObj_reply (a v : Nat) : (s.setObj a v).reply = s.reply := rfl
@[simp] theorem Dev.setObj_resetDue (a v : Nat) : (s.setObj a v).resetDue = s.resetDue := rfl

@[simp] theorem Dev.setObjAt_now (ss idx sub v : Nat) : (s.setObjAt ss idx sub v).now = s.now := rfl
@[simp] theorem Dev.setObjAt_fresh (ss idx sub v : Nat) : (s.setObjAt ss idx sub v).fresh = s.fresh := rfl
@[simp] theorem Dev.setObjAt_copies (ss idx sub v : Nat) : (s.setObjAt ss idx sub v).copies = s.copies := rfl
@[simp] theorem Dev.setObjAt_windows (ss idx sub v : Nat) : (s.setObjAt ss idx sub v).windows = s.windows := rfl
@[simp] theorem Dev.setObjAt_mem (ss idx sub v : Nat) : (s.setObjAt ss idx sub v).mem = s.mem := rfl
@[simp] theorem Dev.setObjAt_xl (ss idx sub v : Nat) : (s.setObjAt ss idx sub v).xl = s.xl := rfl
@[simp] theorem Dev.setObjAt_cmd (ss idx sub v : Nat) : (s.setObjAt ss idx sub v).cmd = s.cmd := rfl
@[simp] theorem Dev.setObjAt_svc (ss idx sub v : Nat) : (s.setObjAt ss idx sub v).svc = s.svc := rfl
@[simp] theorem Dev.setObjAt_shf (ss idx sub v : Nat) : (s.setObjAt ss idx sub v).shf = s.shf := rfl
@[simp] theorem Dev.setObjAt_relays (ss idx sub v : Nat) : (s.setObjAt ss idx sub v).relays = s.relays := rfl
@[simp] theorem Dev.setObjAt_fab (ss idx sub v : Nat) : (s.setObjAt ss idx sub v).fab = s.fab := rfl
@[simp] theorem Dev.setObjAt_eventLog (ss idx sub v : Nat) : (s.setObjAt ss idx sub v).eventLog = s.eventLog := rfl
@[simp] theorem Dev.setObjAt_eventsOut (ss idx sub v : Nat) : (s.setObjAt ss idx sub v).eventsOut = s.eventsOut := rfl
@[simp] theorem Dev.setObjAt_reply (ss idx sub v : Nat) : (s.setObjAt ss idx sub v).reply = s.reply := rfl
@[simp] theorem Dev.setObjAt_resetDue (ss idx sub v : Nat) : (s.setObjAt ss idx sub v).resetDue = s.resetDue := rfl

@[simp] theorem Dev.bump_now (ss idx sub n : Nat) : (s.bump ss idx sub n).now = s.now := rfl
@[simp] theorem Dev.bump_fresh (ss idx sub n : Nat) : (s.bump ss idx sub n).fresh = s.fresh := rfl
@[simp] theorem Dev.bump_copies (ss idx sub n : Nat) : (s.bump ss idx sub n).copies = s.copies := rfl
@[simp] theorem Dev.bump_windows (ss idx sub n : Nat) : (s.bump ss idx sub n).windows = s.windows := rfl
@[simp] theorem Dev.bump_mem (ss idx sub n : Nat) : (s.bump ss idx sub n).mem = s.mem := rfl
@[simp] theorem Dev.bump_xl (ss idx sub n : Nat) : (s.bump ss idx sub n).xl = s.xl := rfl
@[simp] theorem Dev.bump_cmd (ss idx sub n : Nat) : (s.bump ss idx sub n).cmd = s.cmd := rfl
@[simp] theorem Dev.bump_svc (ss idx sub n : Nat) : (s.bump ss idx sub n).svc = s.svc := rfl
@[simp] theorem Dev.bump_shf (ss idx sub n : Nat) : (s.bump ss idx sub n).shf = s.shf := rfl
@[simp] theorem Dev.bump_relays (ss idx sub n : Nat) : (s.bump ss idx sub n).relays = s.relays := rfl
@[simp] theorem Dev.bump_fab (ss idx sub n : Nat) : (s.bump ss idx sub n).fab = s.fab := rfl
@[simp] theorem Dev.bump_eventLog (ss idx sub n : Nat) : (s.bump ss idx sub n).eventLog = s.eventLog := rfl
@[simp] theorem Dev.bump_eventsOut (ss idx sub n : Nat) : (s.bump ss idx sub n).eventsOut = s.eventsOut := rfl
@[simp] theorem Dev.bump_reply (ss idx sub n : Nat) : (s.bump ss idx sub n).reply = s.reply := rfl
@[simp] theorem Dev.bump_resetDue (ss idx sub n : Nat) : (s.bump ss idx sub n).resetDue = s.resetDue := rfl

@[simp] theorem Dev.event_now (k d : Nat) : (s.event k d).now = s.now := rfl
@[simp] theorem Dev.event_fresh (k d : Nat) : (s.event k d).fresh = s.fresh := rfl
@[simp] theorem Dev.event_copies (k d : Nat) : (s.event k d).copies = s.copies := rfl
@[simp] theorem Dev.event_windows (k d : Nat) : (s.event k d).windows = s.windows := rfl
@[simp] theorem Dev.event_mem (k d : Nat) : (s.event k d).mem = s.mem := rfl
@[simp] theorem Dev.event_xl (k d : Nat) : (s.event k d).xl = s.xl := rfl
@[simp] theorem Dev.event_cmd (k d : Nat) : (s.event k d).cmd = s.cmd := rfl
@[simp] theorem Dev.event_svc (k d : Nat) : (s.event k d).svc = s.svc := rfl
@[simp] theorem Dev.event_shf (k d : Nat) : (s.event k d).shf = s.shf := rfl
@[simp] theorem Dev.event_relays (k d : Nat) : (s.event k d).relays = s.relays := rfl
@[simp] theorem Dev.event_fab (k d : Nat) : (s.event k d).fab = s.fab := rfl
@[simp] theorem Dev.event_reply (k d : Nat) : (s.event k d).reply = s.reply := rfl
@[simp] theorem Dev.event_resetDue (k d : Nat) : (s.event k d).resetDue = s.resetDue := rfl

@[simp] theorem Dev.setQueue_now (q : QueueId) (x : Queue) : (s.setQueue q x).now = s.now := rfl
@[simp] theorem Dev.setQueue_fresh (q : QueueId) (x : Queue) : (s.setQueue q x).fresh = s.fresh := rfl
@[simp] theorem Dev.setQueue_obj (q : QueueId) (x : Queue) : (s.setQueue q x).obj = s.obj := rfl
@[simp] theorem Dev.setQueue_copies (q : QueueId) (x : Queue) : (s.setQueue q x).copies = s.copies := rfl
@[simp] theorem Dev.setQueue_windows (q : QueueId) (x : Queue) : (s.setQueue q x).windows = s.windows := rfl
@[simp] theorem Dev.setQueue_mem (q : QueueId) (x : Queue) : (s.setQueue q x).mem = s.mem := rfl
@[simp] theorem Dev.setQueue_xl (q : QueueId) (x : Queue) : (s.setQueue q x).xl = s.xl := rfl
@[simp] theorem Dev.setQueue_svc (q : QueueId) (x : Queue) : (s.setQueue q x).svc = s.svc := rfl
@[simp] theorem Dev.setQueue_shf (q : QueueId) (x : Queue) : (s.setQueue q x).shf = s.shf := rfl
@[simp] theorem Dev.setQueue_relays (q : QueueId) (x : Queue) : (s.setQueue q x).relays = s.relays := rfl
@[simp] theorem Dev.setQueue_fab (q : QueueId) (x : Queue) : (s.setQueue q x).fab = s.fab := rfl
@[simp] theorem Dev.setQueue_eventLog (q : QueueId) (x : Queue) : (s.setQueue q x).eventLog = s.eventLog := rfl
@[simp] theorem Dev.setQueue_eventsOut (q : QueueId) (x : Queue) : (s.setQueue q x).eventsOut = s.eventsOut := rfl
@[simp] theorem Dev.setQueue_reply (q : QueueId) (x : Queue) : (s.setQueue q x).reply = s.reply := rfl
@[simp] theorem Dev.setQueue_resetDue (q : QueueId) (x : Queue) : (s.setQueue q x).resetDue = s.resetDue := rfl

@[simp] theorem Dev.modQueue_now (q : QueueId) (f : Queue → Queue) : (s.modQueue q f).now = s.now := rfl
@[simp] theorem Dev.modQueue_fresh (q : QueueId) (f : Queue → Queue) : (s.modQueue q f).fresh = s.fresh := rfl
@[simp] theorem Dev.modQueue_obj (q : QueueId) (f : Queue → Queue) : (s.modQueue q f).obj = s.obj := rfl
@[simp] theorem Dev.modQueue_copies (q : QueueId) (f : Queue → Queue) : (s.modQueue q f).copies = s.copies := rfl
@[simp] theorem Dev.modQueue_windows (q : QueueId) (f : Queue → Queue) : (s.modQueue q f).windows = s.windows := rfl
@[simp] theorem Dev.modQueue_mem (q : QueueId) (f : Queue → Queue) : (s.modQueue q f).mem = s.mem := rfl
@[simp] theorem Dev.modQueue_xl (q : QueueId) (f : Queue → Queue) : (s.modQueue q f).xl = s.xl := rfl
@[simp] theorem Dev.modQueue_svc (q : QueueId) (f : Queue → Queue) : (s.modQueue q f).svc = s.svc := rfl
@[simp] theorem Dev.modQueue_shf (q : QueueId) (f : Queue → Queue) : (s.modQueue q f).shf = s.shf := rfl
@[simp] theorem Dev.modQueue_relays (q : QueueId) (f : Queue → Queue) : (s.modQueue q f).relays = s.relays := rfl
@[simp] theorem Dev.modQueue_fab (q : QueueId) (f : Queue → Queue) : (s.modQueue q f).fab = s.fab := rfl
@[simp] theorem Dev.modQueue_eventLog (q : QueueId) (f : Queue → Queue) : (s.modQueue q f).eventLog = s.eventLog := rfl
@[simp] theorem Dev.modQueue_eventsOut (q : QueueId) (f : Queue → Queue) : (s.modQueue q f).eventsOut = s.eventsOut := rfl
@[simp] theorem Dev.modQueue_reply (q : QueueId) (f : Queue → Queue) : (s.modQueue q f).reply = s.reply := rfl
@[simp] theorem Dev.modQueue_resetDue (q : QueueId) (f : Queue → Queue) : (s.modQueue q f).resetDue = s.resetDue := rfl

@[simp] theorem Dev.modOp_now (slot : SlotId) (f : Operation → Operation) : (s.modOp slot f).now = s.now := rfl
@[simp] theorem Dev.modOp_fresh (slot : SlotId) (f : Operation → Operation) : (s.modOp slot f).fresh = s.fresh := rfl
@[simp] theorem Dev.modOp_obj (slot : SlotId) (f : Operation → Operation) : (s.modOp slot f).obj = s.obj := rfl
@[simp] theorem Dev.modOp_copies (slot : SlotId) (f : Operation → Operation) : (s.modOp slot f).copies = s.copies := rfl
@[simp] theorem Dev.modOp_windows (slot : SlotId) (f : Operation → Operation) : (s.modOp slot f).windows = s.windows := rfl
@[simp] theorem Dev.modOp_mem (slot : SlotId) (f : Operation → Operation) : (s.modOp slot f).mem = s.mem := rfl
@[simp] theorem Dev.modOp_xl (slot : SlotId) (f : Operation → Operation) : (s.modOp slot f).xl = s.xl := rfl
@[simp] theorem Dev.modOp_svc (slot : SlotId) (f : Operation → Operation) : (s.modOp slot f).svc = s.svc := rfl
@[simp] theorem Dev.modOp_shf (slot : SlotId) (f : Operation → Operation) : (s.modOp slot f).shf = s.shf := rfl
@[simp] theorem Dev.modOp_relays (slot : SlotId) (f : Operation → Operation) : (s.modOp slot f).relays = s.relays := rfl
@[simp] theorem Dev.modOp_fab (slot : SlotId) (f : Operation → Operation) : (s.modOp slot f).fab = s.fab := rfl
@[simp] theorem Dev.modOp_eventLog (slot : SlotId) (f : Operation → Operation) : (s.modOp slot f).eventLog = s.eventLog := rfl
@[simp] theorem Dev.modOp_eventsOut (slot : SlotId) (f : Operation → Operation) : (s.modOp slot f).eventsOut = s.eventsOut := rfl
@[simp] theorem Dev.modOp_reply (slot : SlotId) (f : Operation → Operation) : (s.modOp slot f).reply = s.reply := rfl
@[simp] theorem Dev.modOp_resetDue (slot : SlotId) (f : Operation → Operation) : (s.modOp slot f).resetDue = s.resetDue := rfl

@[simp] theorem Dev.setMill_now (m : MillId) (x : Mill) : (s.setMill m x).now = s.now := rfl
@[simp] theorem Dev.setMill_fresh (m : MillId) (x : Mill) : (s.setMill m x).fresh = s.fresh := rfl
@[simp] theorem Dev.setMill_obj (m : MillId) (x : Mill) : (s.setMill m x).obj = s.obj := rfl
@[simp] theorem Dev.setMill_copies (m : MillId) (x : Mill) : (s.setMill m x).copies = s.copies := rfl
@[simp] theorem Dev.setMill_windows (m : MillId) (x : Mill) : (s.setMill m x).windows = s.windows := rfl
@[simp] theorem Dev.setMill_mem (m : MillId) (x : Mill) : (s.setMill m x).mem = s.mem := rfl
@[simp] theorem Dev.setMill_xl (m : MillId) (x : Mill) : (s.setMill m x).xl = s.xl := rfl
@[simp] theorem Dev.setMill_svc (m : MillId) (x : Mill) : (s.setMill m x).svc = s.svc := rfl
@[simp] theorem Dev.setMill_shf (m : MillId) (x : Mill) : (s.setMill m x).shf = s.shf := rfl
@[simp] theorem Dev.setMill_relays (m : MillId) (x : Mill) : (s.setMill m x).relays = s.relays := rfl
@[simp] theorem Dev.setMill_fab (m : MillId) (x : Mill) : (s.setMill m x).fab = s.fab := rfl
@[simp] theorem Dev.setMill_eventLog (m : MillId) (x : Mill) : (s.setMill m x).eventLog = s.eventLog := rfl
@[simp] theorem Dev.setMill_eventsOut (m : MillId) (x : Mill) : (s.setMill m x).eventsOut = s.eventsOut := rfl
@[simp] theorem Dev.setMill_reply (m : MillId) (x : Mill) : (s.setMill m x).reply = s.reply := rfl
@[simp] theorem Dev.setMill_resetDue (m : MillId) (x : Mill) : (s.setMill m x).resetDue = s.resetDue := rfl

@[simp] theorem Dev.modMill_now (m : MillId) (f : Mill → Mill) : (s.modMill m f).now = s.now := rfl
@[simp] theorem Dev.modMill_fresh (m : MillId) (f : Mill → Mill) : (s.modMill m f).fresh = s.fresh := rfl
@[simp] theorem Dev.modMill_obj (m : MillId) (f : Mill → Mill) : (s.modMill m f).obj = s.obj := rfl
@[simp] theorem Dev.modMill_copies (m : MillId) (f : Mill → Mill) : (s.modMill m f).copies = s.copies := rfl
@[simp] theorem Dev.modMill_windows (m : MillId) (f : Mill → Mill) : (s.modMill m f).windows = s.windows := rfl
@[simp] theorem Dev.modMill_mem (m : MillId) (f : Mill → Mill) : (s.modMill m f).mem = s.mem := rfl
@[simp] theorem Dev.modMill_xl (m : MillId) (f : Mill → Mill) : (s.modMill m f).xl = s.xl := rfl
@[simp] theorem Dev.modMill_svc (m : MillId) (f : Mill → Mill) : (s.modMill m f).svc = s.svc := rfl
@[simp] theorem Dev.modMill_shf (m : MillId) (f : Mill → Mill) : (s.modMill m f).shf = s.shf := rfl
@[simp] theorem Dev.modMill_relays (m : MillId) (f : Mill → Mill) : (s.modMill m f).relays = s.relays := rfl
@[simp] theorem Dev.modMill_fab (m : MillId) (f : Mill → Mill) : (s.modMill m f).fab = s.fab := rfl
@[simp] theorem Dev.modMill_eventLog (m : MillId) (f : Mill → Mill) : (s.modMill m f).eventLog = s.eventLog := rfl
@[simp] theorem Dev.modMill_eventsOut (m : MillId) (f : Mill → Mill) : (s.modMill m f).eventsOut = s.eventsOut := rfl
@[simp] theorem Dev.modMill_reply (m : MillId) (f : Mill → Mill) : (s.modMill m f).reply = s.reply := rfl
@[simp] theorem Dev.modMill_resetDue (m : MillId) (f : Mill → Mill) : (s.modMill m f).resetDue = s.resetDue := rfl

@[simp] theorem Dev.setFlag_now (d i : Nat) (v : Bool) : (s.setFlag d i v).now = s.now := rfl
@[simp] theorem Dev.setFlag_fresh (d i : Nat) (v : Bool) : (s.setFlag d i v).fresh = s.fresh := rfl
@[simp] theorem Dev.setFlag_obj (d i : Nat) (v : Bool) : (s.setFlag d i v).obj = s.obj := rfl
@[simp] theorem Dev.setFlag_copies (d i : Nat) (v : Bool) : (s.setFlag d i v).copies = s.copies := rfl
@[simp] theorem Dev.setFlag_windows (d i : Nat) (v : Bool) : (s.setFlag d i v).windows = s.windows := rfl
@[simp] theorem Dev.setFlag_mem (d i : Nat) (v : Bool) : (s.setFlag d i v).mem = s.mem := rfl
@[simp] theorem Dev.setFlag_xl (d i : Nat) (v : Bool) : (s.setFlag d i v).xl = s.xl := rfl
@[simp] theorem Dev.setFlag_svc (d i : Nat) (v : Bool) : (s.setFlag d i v).svc = s.svc := rfl
@[simp] theorem Dev.setFlag_shf (d i : Nat) (v : Bool) : (s.setFlag d i v).shf = s.shf := rfl
@[simp] theorem Dev.setFlag_relays (d i : Nat) (v : Bool) : (s.setFlag d i v).relays = s.relays := rfl
@[simp] theorem Dev.setFlag_fab (d i : Nat) (v : Bool) : (s.setFlag d i v).fab = s.fab := rfl
@[simp] theorem Dev.setFlag_eventLog (d i : Nat) (v : Bool) : (s.setFlag d i v).eventLog = s.eventLog := rfl
@[simp] theorem Dev.setFlag_eventsOut (d i : Nat) (v : Bool) : (s.setFlag d i v).eventsOut = s.eventsOut := rfl
@[simp] theorem Dev.setFlag_reply (d i : Nat) (v : Bool) : (s.setFlag d i v).reply = s.reply := rfl
@[simp] theorem Dev.setFlag_resetDue (d i : Nat) (v : Bool) : (s.setFlag d i v).resetDue = s.resetDue := rfl

@[simp] theorem Dev.setCounter_now (d i : Nat) (v : U32) : (s.setCounter d i v).now = s.now := rfl
@[simp] theorem Dev.setCounter_fresh (d i : Nat) (v : U32) : (s.setCounter d i v).fresh = s.fresh := rfl
@[simp] theorem Dev.setCounter_obj (d i : Nat) (v : U32) : (s.setCounter d i v).obj = s.obj := rfl
@[simp] theorem Dev.setCounter_copies (d i : Nat) (v : U32) : (s.setCounter d i v).copies = s.copies := rfl
@[simp] theorem Dev.setCounter_windows (d i : Nat) (v : U32) : (s.setCounter d i v).windows = s.windows := rfl
@[simp] theorem Dev.setCounter_mem (d i : Nat) (v : U32) : (s.setCounter d i v).mem = s.mem := rfl
@[simp] theorem Dev.setCounter_xl (d i : Nat) (v : U32) : (s.setCounter d i v).xl = s.xl := rfl
@[simp] theorem Dev.setCounter_svc (d i : Nat) (v : U32) : (s.setCounter d i v).svc = s.svc := rfl
@[simp] theorem Dev.setCounter_shf (d i : Nat) (v : U32) : (s.setCounter d i v).shf = s.shf := rfl
@[simp] theorem Dev.setCounter_relays (d i : Nat) (v : U32) : (s.setCounter d i v).relays = s.relays := rfl
@[simp] theorem Dev.setCounter_fab (d i : Nat) (v : U32) : (s.setCounter d i v).fab = s.fab := rfl
@[simp] theorem Dev.setCounter_eventLog (d i : Nat) (v : U32) : (s.setCounter d i v).eventLog = s.eventLog := rfl
@[simp] theorem Dev.setCounter_eventsOut (d i : Nat) (v : U32) : (s.setCounter d i v).eventsOut = s.eventsOut := rfl
@[simp] theorem Dev.setCounter_reply (d i : Nat) (v : U32) : (s.setCounter d i v).reply = s.reply := rfl
@[simp] theorem Dev.setCounter_resetDue (d i : Nat) (v : U32) : (s.setCounter d i v).resetDue = s.resetDue := rfl

@[simp] theorem Dev.setPcounter_now (c : Nat) (v : U32) : (s.setPcounter c v).now = s.now := rfl
@[simp] theorem Dev.setPcounter_fresh (c : Nat) (v : U32) : (s.setPcounter c v).fresh = s.fresh := rfl
@[simp] theorem Dev.setPcounter_obj (c : Nat) (v : U32) : (s.setPcounter c v).obj = s.obj := rfl
@[simp] theorem Dev.setPcounter_copies (c : Nat) (v : U32) : (s.setPcounter c v).copies = s.copies := rfl
@[simp] theorem Dev.setPcounter_windows (c : Nat) (v : U32) : (s.setPcounter c v).windows = s.windows := rfl
@[simp] theorem Dev.setPcounter_mem (c : Nat) (v : U32) : (s.setPcounter c v).mem = s.mem := rfl
@[simp] theorem Dev.setPcounter_xl (c : Nat) (v : U32) : (s.setPcounter c v).xl = s.xl := rfl
@[simp] theorem Dev.setPcounter_svc (c : Nat) (v : U32) : (s.setPcounter c v).svc = s.svc := rfl
@[simp] theorem Dev.setPcounter_shf (c : Nat) (v : U32) : (s.setPcounter c v).shf = s.shf := rfl
@[simp] theorem Dev.setPcounter_relays (c : Nat) (v : U32) : (s.setPcounter c v).relays = s.relays := rfl
@[simp] theorem Dev.setPcounter_fab (c : Nat) (v : U32) : (s.setPcounter c v).fab = s.fab := rfl
@[simp] theorem Dev.setPcounter_eventLog (c : Nat) (v : U32) : (s.setPcounter c v).eventLog = s.eventLog := rfl
@[simp] theorem Dev.setPcounter_eventsOut (c : Nat) (v : U32) : (s.setPcounter c v).eventsOut = s.eventsOut := rfl
@[simp] theorem Dev.setPcounter_reply (c : Nat) (v : U32) : (s.setPcounter c v).reply = s.reply := rfl
@[simp] theorem Dev.setPcounter_resetDue (c : Nat) (v : U32) : (s.setPcounter c v).resetDue = s.resetDue := rfl

@[simp] theorem Dev.modJournal_now (f : Journal → Journal) : (s.modJournal f).now = s.now := rfl
@[simp] theorem Dev.modJournal_fresh (f : Journal → Journal) : (s.modJournal f).fresh = s.fresh := rfl
@[simp] theorem Dev.modJournal_obj (f : Journal → Journal) : (s.modJournal f).obj = s.obj := rfl
@[simp] theorem Dev.modJournal_copies (f : Journal → Journal) : (s.modJournal f).copies = s.copies := rfl
@[simp] theorem Dev.modJournal_windows (f : Journal → Journal) : (s.modJournal f).windows = s.windows := rfl
@[simp] theorem Dev.modJournal_mem (f : Journal → Journal) : (s.modJournal f).mem = s.mem := rfl
@[simp] theorem Dev.modJournal_xl (f : Journal → Journal) : (s.modJournal f).xl = s.xl := rfl
@[simp] theorem Dev.modJournal_svc (f : Journal → Journal) : (s.modJournal f).svc = s.svc := rfl
@[simp] theorem Dev.modJournal_shf (f : Journal → Journal) : (s.modJournal f).shf = s.shf := rfl
@[simp] theorem Dev.modJournal_relays (f : Journal → Journal) : (s.modJournal f).relays = s.relays := rfl
@[simp] theorem Dev.modJournal_fab (f : Journal → Journal) : (s.modJournal f).fab = s.fab := rfl
@[simp] theorem Dev.modJournal_eventLog (f : Journal → Journal) : (s.modJournal f).eventLog = s.eventLog := rfl
@[simp] theorem Dev.modJournal_eventsOut (f : Journal → Journal) : (s.modJournal f).eventsOut = s.eventsOut := rfl
@[simp] theorem Dev.modJournal_reply (f : Journal → Journal) : (s.modJournal f).reply = s.reply := rfl
@[simp] theorem Dev.modJournal_resetDue (f : Journal → Journal) : (s.modJournal f).resetDue = s.resetDue := rfl

@[simp] theorem Dev.setHub_now (h : HubId) (x : Hub) : (s.setHub h x).now = s.now := rfl
@[simp] theorem Dev.setHub_fresh (h : HubId) (x : Hub) : (s.setHub h x).fresh = s.fresh := rfl
@[simp] theorem Dev.setHub_obj (h : HubId) (x : Hub) : (s.setHub h x).obj = s.obj := rfl
@[simp] theorem Dev.setHub_copies (h : HubId) (x : Hub) : (s.setHub h x).copies = s.copies := rfl
@[simp] theorem Dev.setHub_windows (h : HubId) (x : Hub) : (s.setHub h x).windows = s.windows := rfl
@[simp] theorem Dev.setHub_xl (h : HubId) (x : Hub) : (s.setHub h x).xl = s.xl := rfl
@[simp] theorem Dev.setHub_cmd (h : HubId) (x : Hub) : (s.setHub h x).cmd = s.cmd := rfl
@[simp] theorem Dev.setHub_svc (h : HubId) (x : Hub) : (s.setHub h x).svc = s.svc := rfl
@[simp] theorem Dev.setHub_shf (h : HubId) (x : Hub) : (s.setHub h x).shf = s.shf := rfl
@[simp] theorem Dev.setHub_relays (h : HubId) (x : Hub) : (s.setHub h x).relays = s.relays := rfl
@[simp] theorem Dev.setHub_fab (h : HubId) (x : Hub) : (s.setHub h x).fab = s.fab := rfl
@[simp] theorem Dev.setHub_eventLog (h : HubId) (x : Hub) : (s.setHub h x).eventLog = s.eventLog := rfl
@[simp] theorem Dev.setHub_eventsOut (h : HubId) (x : Hub) : (s.setHub h x).eventsOut = s.eventsOut := rfl
@[simp] theorem Dev.setHub_reply (h : HubId) (x : Hub) : (s.setHub h x).reply = s.reply := rfl
@[simp] theorem Dev.setHub_resetDue (h : HubId) (x : Hub) : (s.setHub h x).resetDue = s.resetDue := rfl

@[simp] theorem Dev.modHub_now (h : HubId) (f : Hub → Hub) : (s.modHub h f).now = s.now := rfl
@[simp] theorem Dev.modHub_fresh (h : HubId) (f : Hub → Hub) : (s.modHub h f).fresh = s.fresh := rfl
@[simp] theorem Dev.modHub_obj (h : HubId) (f : Hub → Hub) : (s.modHub h f).obj = s.obj := rfl
@[simp] theorem Dev.modHub_copies (h : HubId) (f : Hub → Hub) : (s.modHub h f).copies = s.copies := rfl
@[simp] theorem Dev.modHub_windows (h : HubId) (f : Hub → Hub) : (s.modHub h f).windows = s.windows := rfl
@[simp] theorem Dev.modHub_xl (h : HubId) (f : Hub → Hub) : (s.modHub h f).xl = s.xl := rfl
@[simp] theorem Dev.modHub_cmd (h : HubId) (f : Hub → Hub) : (s.modHub h f).cmd = s.cmd := rfl
@[simp] theorem Dev.modHub_svc (h : HubId) (f : Hub → Hub) : (s.modHub h f).svc = s.svc := rfl
@[simp] theorem Dev.modHub_shf (h : HubId) (f : Hub → Hub) : (s.modHub h f).shf = s.shf := rfl
@[simp] theorem Dev.modHub_relays (h : HubId) (f : Hub → Hub) : (s.modHub h f).relays = s.relays := rfl
@[simp] theorem Dev.modHub_fab (h : HubId) (f : Hub → Hub) : (s.modHub h f).fab = s.fab := rfl
@[simp] theorem Dev.modHub_eventLog (h : HubId) (f : Hub → Hub) : (s.modHub h f).eventLog = s.eventLog := rfl
@[simp] theorem Dev.modHub_eventsOut (h : HubId) (f : Hub → Hub) : (s.modHub h f).eventsOut = s.eventsOut := rfl
@[simp] theorem Dev.modHub_reply (h : HubId) (f : Hub → Hub) : (s.modHub h f).reply = s.reply := rfl
@[simp] theorem Dev.modHub_resetDue (h : HubId) (f : Hub → Hub) : (s.modHub h f).resetDue = s.resetDue := rfl

@[simp] theorem Dev.setAgent_now (a : Agent) (x : CacheAgent) : (s.setAgent a x).now = s.now := rfl
@[simp] theorem Dev.setAgent_fresh (a : Agent) (x : CacheAgent) : (s.setAgent a x).fresh = s.fresh := rfl
@[simp] theorem Dev.setAgent_obj (a : Agent) (x : CacheAgent) : (s.setAgent a x).obj = s.obj := rfl
@[simp] theorem Dev.setAgent_copies (a : Agent) (x : CacheAgent) : (s.setAgent a x).copies = s.copies := rfl
@[simp] theorem Dev.setAgent_windows (a : Agent) (x : CacheAgent) : (s.setAgent a x).windows = s.windows := rfl
@[simp] theorem Dev.setAgent_xl (a : Agent) (x : CacheAgent) : (s.setAgent a x).xl = s.xl := rfl
@[simp] theorem Dev.setAgent_cmd (a : Agent) (x : CacheAgent) : (s.setAgent a x).cmd = s.cmd := rfl
@[simp] theorem Dev.setAgent_svc (a : Agent) (x : CacheAgent) : (s.setAgent a x).svc = s.svc := rfl
@[simp] theorem Dev.setAgent_shf (a : Agent) (x : CacheAgent) : (s.setAgent a x).shf = s.shf := rfl
@[simp] theorem Dev.setAgent_relays (a : Agent) (x : CacheAgent) : (s.setAgent a x).relays = s.relays := rfl
@[simp] theorem Dev.setAgent_fab (a : Agent) (x : CacheAgent) : (s.setAgent a x).fab = s.fab := rfl
@[simp] theorem Dev.setAgent_eventLog (a : Agent) (x : CacheAgent) : (s.setAgent a x).eventLog = s.eventLog := rfl
@[simp] theorem Dev.setAgent_eventsOut (a : Agent) (x : CacheAgent) : (s.setAgent a x).eventsOut = s.eventsOut := rfl
@[simp] theorem Dev.setAgent_reply (a : Agent) (x : CacheAgent) : (s.setAgent a x).reply = s.reply := rfl
@[simp] theorem Dev.setAgent_resetDue (a : Agent) (x : CacheAgent) : (s.setAgent a x).resetDue = s.resetDue := rfl

@[simp] theorem Dev.modAgent_now (a : Agent) (f : CacheAgent → CacheAgent) : (s.modAgent a f).now = s.now := rfl
@[simp] theorem Dev.modAgent_fresh (a : Agent) (f : CacheAgent → CacheAgent) : (s.modAgent a f).fresh = s.fresh := rfl
@[simp] theorem Dev.modAgent_obj (a : Agent) (f : CacheAgent → CacheAgent) : (s.modAgent a f).obj = s.obj := rfl
@[simp] theorem Dev.modAgent_copies (a : Agent) (f : CacheAgent → CacheAgent) : (s.modAgent a f).copies = s.copies := rfl
@[simp] theorem Dev.modAgent_windows (a : Agent) (f : CacheAgent → CacheAgent) : (s.modAgent a f).windows = s.windows := rfl
@[simp] theorem Dev.modAgent_xl (a : Agent) (f : CacheAgent → CacheAgent) : (s.modAgent a f).xl = s.xl := rfl
@[simp] theorem Dev.modAgent_cmd (a : Agent) (f : CacheAgent → CacheAgent) : (s.modAgent a f).cmd = s.cmd := rfl
@[simp] theorem Dev.modAgent_svc (a : Agent) (f : CacheAgent → CacheAgent) : (s.modAgent a f).svc = s.svc := rfl
@[simp] theorem Dev.modAgent_shf (a : Agent) (f : CacheAgent → CacheAgent) : (s.modAgent a f).shf = s.shf := rfl
@[simp] theorem Dev.modAgent_relays (a : Agent) (f : CacheAgent → CacheAgent) : (s.modAgent a f).relays = s.relays := rfl
@[simp] theorem Dev.modAgent_fab (a : Agent) (f : CacheAgent → CacheAgent) : (s.modAgent a f).fab = s.fab := rfl
@[simp] theorem Dev.modAgent_eventLog (a : Agent) (f : CacheAgent → CacheAgent) : (s.modAgent a f).eventLog = s.eventLog := rfl
@[simp] theorem Dev.modAgent_eventsOut (a : Agent) (f : CacheAgent → CacheAgent) : (s.modAgent a f).eventsOut = s.eventsOut := rfl
@[simp] theorem Dev.modAgent_reply (a : Agent) (f : CacheAgent → CacheAgent) : (s.modAgent a f).reply = s.reply := rfl
@[simp] theorem Dev.modAgent_resetDue (a : Agent) (f : CacheAgent → CacheAgent) : (s.modAgent a f).resetDue = s.resetDue := rfl

@[simp] theorem Dev.modMem_now (f : MemState → MemState) : (s.modMem f).now = s.now := rfl
@[simp] theorem Dev.modMem_fresh (f : MemState → MemState) : (s.modMem f).fresh = s.fresh := rfl
@[simp] theorem Dev.modMem_obj (f : MemState → MemState) : (s.modMem f).obj = s.obj := rfl
@[simp] theorem Dev.modMem_copies (f : MemState → MemState) : (s.modMem f).copies = s.copies := rfl
@[simp] theorem Dev.modMem_windows (f : MemState → MemState) : (s.modMem f).windows = s.windows := rfl
@[simp] theorem Dev.modMem_xl (f : MemState → MemState) : (s.modMem f).xl = s.xl := rfl
@[simp] theorem Dev.modMem_cmd (f : MemState → MemState) : (s.modMem f).cmd = s.cmd := rfl
@[simp] theorem Dev.modMem_svc (f : MemState → MemState) : (s.modMem f).svc = s.svc := rfl
@[simp] theorem Dev.modMem_shf (f : MemState → MemState) : (s.modMem f).shf = s.shf := rfl
@[simp] theorem Dev.modMem_relays (f : MemState → MemState) : (s.modMem f).relays = s.relays := rfl
@[simp] theorem Dev.modMem_fab (f : MemState → MemState) : (s.modMem f).fab = s.fab := rfl
@[simp] theorem Dev.modMem_eventLog (f : MemState → MemState) : (s.modMem f).eventLog = s.eventLog := rfl
@[simp] theorem Dev.modMem_eventsOut (f : MemState → MemState) : (s.modMem f).eventsOut = s.eventsOut := rfl
@[simp] theorem Dev.modMem_reply (f : MemState → MemState) : (s.modMem f).reply = s.reply := rfl
@[simp] theorem Dev.modMem_resetDue (f : MemState → MemState) : (s.modMem f).resetDue = s.resetDue := rfl

@[simp] theorem Dev.send_now (m : Msg) : (s.send m).now = s.now := rfl
@[simp] theorem Dev.send_fresh (m : Msg) : (s.send m).fresh = s.fresh := rfl
@[simp] theorem Dev.send_obj (m : Msg) : (s.send m).obj = s.obj := rfl
@[simp] theorem Dev.send_copies (m : Msg) : (s.send m).copies = s.copies := rfl
@[simp] theorem Dev.send_windows (m : Msg) : (s.send m).windows = s.windows := rfl
@[simp] theorem Dev.send_xl (m : Msg) : (s.send m).xl = s.xl := rfl
@[simp] theorem Dev.send_cmd (m : Msg) : (s.send m).cmd = s.cmd := rfl
@[simp] theorem Dev.send_svc (m : Msg) : (s.send m).svc = s.svc := rfl
@[simp] theorem Dev.send_shf (m : Msg) : (s.send m).shf = s.shf := rfl
@[simp] theorem Dev.send_relays (m : Msg) : (s.send m).relays = s.relays := rfl
@[simp] theorem Dev.send_fab (m : Msg) : (s.send m).fab = s.fab := rfl
@[simp] theorem Dev.send_eventLog (m : Msg) : (s.send m).eventLog = s.eventLog := rfl
@[simp] theorem Dev.send_eventsOut (m : Msg) : (s.send m).eventsOut = s.eventsOut := rfl
@[simp] theorem Dev.send_reply (m : Msg) : (s.send m).reply = s.reply := rfl
@[simp] theorem Dev.send_resetDue (m : Msg) : (s.send m).resetDue = s.resetDue := rfl

@[simp] theorem Dev.receive_now (m : Msg) : (s.receive m).now = s.now := rfl
@[simp] theorem Dev.receive_fresh (m : Msg) : (s.receive m).fresh = s.fresh := rfl
@[simp] theorem Dev.receive_obj (m : Msg) : (s.receive m).obj = s.obj := rfl
@[simp] theorem Dev.receive_copies (m : Msg) : (s.receive m).copies = s.copies := rfl
@[simp] theorem Dev.receive_windows (m : Msg) : (s.receive m).windows = s.windows := rfl
@[simp] theorem Dev.receive_xl (m : Msg) : (s.receive m).xl = s.xl := rfl
@[simp] theorem Dev.receive_cmd (m : Msg) : (s.receive m).cmd = s.cmd := rfl
@[simp] theorem Dev.receive_svc (m : Msg) : (s.receive m).svc = s.svc := rfl
@[simp] theorem Dev.receive_shf (m : Msg) : (s.receive m).shf = s.shf := rfl
@[simp] theorem Dev.receive_relays (m : Msg) : (s.receive m).relays = s.relays := rfl
@[simp] theorem Dev.receive_fab (m : Msg) : (s.receive m).fab = s.fab := rfl
@[simp] theorem Dev.receive_eventLog (m : Msg) : (s.receive m).eventLog = s.eventLog := rfl
@[simp] theorem Dev.receive_eventsOut (m : Msg) : (s.receive m).eventsOut = s.eventsOut := rfl
@[simp] theorem Dev.receive_reply (m : Msg) : (s.receive m).reply = s.reply := rfl
@[simp] theorem Dev.receive_resetDue (m : Msg) : (s.receive m).resetDue = s.resetDue := rfl

@[simp] theorem Dev.setMmu_now (m : MmuId) (x : Mmu) : (s.setMmu m x).now = s.now := rfl
@[simp] theorem Dev.setMmu_fresh (m : MmuId) (x : Mmu) : (s.setMmu m x).fresh = s.fresh := rfl
@[simp] theorem Dev.setMmu_obj (m : MmuId) (x : Mmu) : (s.setMmu m x).obj = s.obj := rfl
@[simp] theorem Dev.setMmu_copies (m : MmuId) (x : Mmu) : (s.setMmu m x).copies = s.copies := rfl
@[simp] theorem Dev.setMmu_windows (m : MmuId) (x : Mmu) : (s.setMmu m x).windows = s.windows := rfl
@[simp] theorem Dev.setMmu_mem (m : MmuId) (x : Mmu) : (s.setMmu m x).mem = s.mem := rfl
@[simp] theorem Dev.setMmu_cmd (m : MmuId) (x : Mmu) : (s.setMmu m x).cmd = s.cmd := rfl
@[simp] theorem Dev.setMmu_svc (m : MmuId) (x : Mmu) : (s.setMmu m x).svc = s.svc := rfl
@[simp] theorem Dev.setMmu_shf (m : MmuId) (x : Mmu) : (s.setMmu m x).shf = s.shf := rfl
@[simp] theorem Dev.setMmu_relays (m : MmuId) (x : Mmu) : (s.setMmu m x).relays = s.relays := rfl
@[simp] theorem Dev.setMmu_fab (m : MmuId) (x : Mmu) : (s.setMmu m x).fab = s.fab := rfl
@[simp] theorem Dev.setMmu_eventLog (m : MmuId) (x : Mmu) : (s.setMmu m x).eventLog = s.eventLog := rfl
@[simp] theorem Dev.setMmu_eventsOut (m : MmuId) (x : Mmu) : (s.setMmu m x).eventsOut = s.eventsOut := rfl
@[simp] theorem Dev.setMmu_reply (m : MmuId) (x : Mmu) : (s.setMmu m x).reply = s.reply := rfl
@[simp] theorem Dev.setMmu_resetDue (m : MmuId) (x : Mmu) : (s.setMmu m x).resetDue = s.resetDue := rfl

@[simp] theorem Dev.modMmu_now (m : MmuId) (f : Mmu → Mmu) : (s.modMmu m f).now = s.now := rfl
@[simp] theorem Dev.modMmu_fresh (m : MmuId) (f : Mmu → Mmu) : (s.modMmu m f).fresh = s.fresh := rfl
@[simp] theorem Dev.modMmu_obj (m : MmuId) (f : Mmu → Mmu) : (s.modMmu m f).obj = s.obj := rfl
@[simp] theorem Dev.modMmu_copies (m : MmuId) (f : Mmu → Mmu) : (s.modMmu m f).copies = s.copies := rfl
@[simp] theorem Dev.modMmu_windows (m : MmuId) (f : Mmu → Mmu) : (s.modMmu m f).windows = s.windows := rfl
@[simp] theorem Dev.modMmu_mem (m : MmuId) (f : Mmu → Mmu) : (s.modMmu m f).mem = s.mem := rfl
@[simp] theorem Dev.modMmu_cmd (m : MmuId) (f : Mmu → Mmu) : (s.modMmu m f).cmd = s.cmd := rfl
@[simp] theorem Dev.modMmu_svc (m : MmuId) (f : Mmu → Mmu) : (s.modMmu m f).svc = s.svc := rfl
@[simp] theorem Dev.modMmu_shf (m : MmuId) (f : Mmu → Mmu) : (s.modMmu m f).shf = s.shf := rfl
@[simp] theorem Dev.modMmu_relays (m : MmuId) (f : Mmu → Mmu) : (s.modMmu m f).relays = s.relays := rfl
@[simp] theorem Dev.modMmu_fab (m : MmuId) (f : Mmu → Mmu) : (s.modMmu m f).fab = s.fab := rfl
@[simp] theorem Dev.modMmu_eventLog (m : MmuId) (f : Mmu → Mmu) : (s.modMmu m f).eventLog = s.eventLog := rfl
@[simp] theorem Dev.modMmu_eventsOut (m : MmuId) (f : Mmu → Mmu) : (s.modMmu m f).eventsOut = s.eventsOut := rfl
@[simp] theorem Dev.modMmu_reply (m : MmuId) (f : Mmu → Mmu) : (s.modMmu m f).reply = s.reply := rfl
@[simp] theorem Dev.modMmu_resetDue (m : MmuId) (f : Mmu → Mmu) : (s.modMmu m f).resetDue = s.resetDue := rfl

@[simp] theorem Dev.modXl_now (f : XlState → XlState) : (s.modXl f).now = s.now := rfl
@[simp] theorem Dev.modXl_fresh (f : XlState → XlState) : (s.modXl f).fresh = s.fresh := rfl
@[simp] theorem Dev.modXl_obj (f : XlState → XlState) : (s.modXl f).obj = s.obj := rfl
@[simp] theorem Dev.modXl_copies (f : XlState → XlState) : (s.modXl f).copies = s.copies := rfl
@[simp] theorem Dev.modXl_windows (f : XlState → XlState) : (s.modXl f).windows = s.windows := rfl
@[simp] theorem Dev.modXl_mem (f : XlState → XlState) : (s.modXl f).mem = s.mem := rfl
@[simp] theorem Dev.modXl_cmd (f : XlState → XlState) : (s.modXl f).cmd = s.cmd := rfl
@[simp] theorem Dev.modXl_svc (f : XlState → XlState) : (s.modXl f).svc = s.svc := rfl
@[simp] theorem Dev.modXl_shf (f : XlState → XlState) : (s.modXl f).shf = s.shf := rfl
@[simp] theorem Dev.modXl_relays (f : XlState → XlState) : (s.modXl f).relays = s.relays := rfl
@[simp] theorem Dev.modXl_fab (f : XlState → XlState) : (s.modXl f).fab = s.fab := rfl
@[simp] theorem Dev.modXl_eventLog (f : XlState → XlState) : (s.modXl f).eventLog = s.eventLog := rfl
@[simp] theorem Dev.modXl_eventsOut (f : XlState → XlState) : (s.modXl f).eventsOut = s.eventsOut := rfl
@[simp] theorem Dev.modXl_reply (f : XlState → XlState) : (s.modXl f).reply = s.reply := rfl
@[simp] theorem Dev.modXl_resetDue (f : XlState → XlState) : (s.modXl f).resetDue = s.resetDue := rfl

@[simp] theorem Dev.modRealm_now (r : Nat) (f : Realm → Realm) : (s.modRealm r f).now = s.now := rfl
@[simp] theorem Dev.modRealm_fresh (r : Nat) (f : Realm → Realm) : (s.modRealm r f).fresh = s.fresh := rfl
@[simp] theorem Dev.modRealm_obj (r : Nat) (f : Realm → Realm) : (s.modRealm r f).obj = s.obj := rfl
@[simp] theorem Dev.modRealm_copies (r : Nat) (f : Realm → Realm) : (s.modRealm r f).copies = s.copies := rfl
@[simp] theorem Dev.modRealm_windows (r : Nat) (f : Realm → Realm) : (s.modRealm r f).windows = s.windows := rfl
@[simp] theorem Dev.modRealm_mem (r : Nat) (f : Realm → Realm) : (s.modRealm r f).mem = s.mem := rfl
@[simp] theorem Dev.modRealm_xl (r : Nat) (f : Realm → Realm) : (s.modRealm r f).xl = s.xl := rfl
@[simp] theorem Dev.modRealm_cmd (r : Nat) (f : Realm → Realm) : (s.modRealm r f).cmd = s.cmd := rfl
@[simp] theorem Dev.modRealm_shf (r : Nat) (f : Realm → Realm) : (s.modRealm r f).shf = s.shf := rfl
@[simp] theorem Dev.modRealm_relays (r : Nat) (f : Realm → Realm) : (s.modRealm r f).relays = s.relays := rfl
@[simp] theorem Dev.modRealm_fab (r : Nat) (f : Realm → Realm) : (s.modRealm r f).fab = s.fab := rfl
@[simp] theorem Dev.modRealm_eventLog (r : Nat) (f : Realm → Realm) : (s.modRealm r f).eventLog = s.eventLog := rfl
@[simp] theorem Dev.modRealm_eventsOut (r : Nat) (f : Realm → Realm) : (s.modRealm r f).eventsOut = s.eventsOut := rfl
@[simp] theorem Dev.modRealm_reply (r : Nat) (f : Realm → Realm) : (s.modRealm r f).reply = s.reply := rfl
@[simp] theorem Dev.modRealm_resetDue (r : Nat) (f : Realm → Realm) : (s.modRealm r f).resetDue = s.resetDue := rfl

/-- An object reads as it was last set; every other object is unchanged. -/
theorem Dev.obj!_setObj (a b v : Nat) : (s.setObj a v).obj! b = if b = a then v else s.obj! b := by
  simp only [Dev.obj!, Dev.setObj, Table.get_set]
  split
  · rename_i h; subst h; split <;> simp_all
  · rfl

@[simp] theorem Dev.obj!_setObj_same (a v : Nat) : (s.setObj a v).obj! a = v := by simp [Dev.obj!_setObj]

/-- Objects of different places have different numbers. -/
theorem objAddr_inj {a b c a' b' c' : Nat} (h : c < 256) (h' : c' < 256) (hb : b < 65536) (hb' : b' < 65536) :
    objAddr a b c = objAddr a' b' c' ↔ (a = a' ∧ b = b' ∧ c = c') := by unfold objAddr; omega

theorem Dev.objAt_setObjAt (a b c a' b' c' v : Nat) (h : c < 256) (h' : c' < 256) (hb : b < 65536) (hb' : b' < 65536) :
    (s.setObjAt a b c v).objAt a' b' c' = if a' = a ∧ b' = b ∧ c' = c then v else s.objAt a' b' c' := by
  unfold Dev.objAt Dev.setObjAt; rw [Dev.obj!_setObj]; simp only [objAddr_inj h' h hb' hb]

@[simp] theorem Dev.objAt_setObjAt_same (ss idx sub v : Nat) : (s.setObjAt ss idx sub v).objAt ss idx sub = v := by
  simp [Dev.objAt, Dev.setObjAt]

/-- A queue reads as it was last put; every other queue is unchanged. -/
theorem Dev.queue_setQueue (q q2 : QueueId) (x : Queue) : (s.setQueue q x).queue q2 = if q2 = q then x else s.queue q2 := by
  simp only [Dev.queue, Dev.setQueue, Table.get_set, Fin.ext_iff]

@[simp] theorem Dev.queue_setQueue_same (q : QueueId) (x : Queue) : (s.setQueue q x).queue q = x := by simp [Dev.queue_setQueue]

theorem Dev.queue_modQueue (q q2 : QueueId) (f : Queue → Queue) :
    (s.modQueue q f).queue q2 = if q2 = q then f (s.queue q) else s.queue q2 := Dev.queue_setQueue ..

@[simp] theorem Dev.queue_modQueue_same (q : QueueId) (f : Queue → Queue) : (s.modQueue q f).queue q = f (s.queue q) := by
  simp [Dev.queue_modQueue]

/-- A flag reads as it was last set; the other flags, of this die and of the others, are unchanged. -/
theorem Dev.flag_setFlag (d i d2 i2 : Nat) (v : Bool) (hi : i < 512) (hi2 : i2 < 512) :
    (s.setFlag d i v).flag d2 i2 = if d2 = d ∧ i2 = i then v else s.flag d2 i2 := by
  simp only [Dev.flag, Dev.setFlag, Table.get_set]
  have : (d2 * 512 + i2 = d * 512 + i) ↔ (d2 = d ∧ i2 = i) := by omega
  simp [this]

/-- A die counter reads as it was last set; the others are unchanged. -/
theorem Dev.counter_setCounter (d i d2 i2 : Nat) (v : U32) (hi : i < 128) (hi2 : i2 < 128) :
    (s.setCounter d i v).counter d2 i2 = if d2 = d ∧ i2 = i then v else s.counter d2 i2 := by
  simp only [Dev.counter, Dev.setCounter, Table.get_set]
  have : (d2 * 128 + i2 = d * 128 + i) ↔ (d2 = d ∧ i2 = i) := by omega
  simp [this]

/-- A package counter reads as it was last set; the others are unchanged. -/
theorem Dev.pcounter_setPcounter (c c2 : Nat) (v : U32) :
    (s.setPcounter c v).pcounter c2 = if c2 = c then v else s.pcounter c2 := by
  simp only [Dev.pcounter, Dev.setPcounter, Table.get_set]

/-- A mill reads as it was last put; the others are unchanged. -/
theorem Dev.mill_setMill (m m2 : MillId) (x : Mill) : (s.setMill m x).mill m2 = if m2 = m then x else s.mill m2 := by
  simp only [Dev.mill, Dev.setMill, Fin.getElem_fin, Vector.getElem_set, Fin.ext_iff]
  split <;> split <;> first | rfl | omega

/-- A hub reads as it was last put; the others are unchanged. -/
theorem Dev.hub_setHub (h h2 : HubId) (x : Hub) : (s.setHub h x).hub h2 = if h2 = h then x else s.hub h2 := by
  simp only [Dev.hub, Dev.setHub, Fin.getElem_fin, Vector.getElem_set, Fin.ext_iff]
  split <;> split <;> first | rfl | omega

/-- A caching agent reads as it was last put; the others are unchanged. -/
theorem Dev.agent_setAgent (a a2 : Agent) (x : CacheAgent) : (s.setAgent a x).agent a2 = if a2 = a then x else s.agent a2 := by
  simp only [Dev.agent, Dev.setAgent, Fin.getElem_fin, Vector.getElem_set, Fin.ext_iff]
  split <;> split <;> first | rfl | omega

/-- A system MMU reads as it was last put; the other is unchanged. -/
theorem Dev.mmu_setMmu (m m2 : MmuId) (x : Mmu) : (s.setMmu m x).mmu m2 = if m2 = m then x else s.mmu m2 := by
  simp only [Dev.mmu, Dev.setMmu, Fin.getElem_fin, Vector.getElem_set, Fin.ext_iff]
  split <;> split <;> first | rfl | omega

/-- Package time never falls: it is the later of the two. -/
theorem Dev.setNow_now (t : U64) : (s.setNow t).now = if s.now.toNat < t.toNat then t else s.now := rfl

theorem Dev.now_le_setNow (t : U64) : s.now.toNat ≤ (s.setNow t).now.toNat := by
  simp only [Dev.setNow]; split <;> omega

end Sys2Proof.Machine
end

