-- ==== Sys2Proof/Laws/Memory.lean ====
section
/-! SUPPORT. Laws/Memory.lean: what the operations of the memory system leave unchanged, and that they keep the canonical form of DRAM
and of its poison marks and keys. -/

namespace Sys2Proof.Machine

namespace Dev

theorem memStep_refl (s : Dev) : s.memStep s := ⟨rfl, id⟩

theorem memStep_trans {s t u : Dev} (h1 : s.memStep t) (h2 : t.memStep u) : s.memStep u := by
  exact ⟨by rw [h2.rest, h1.rest], fun h => h2.form (h1.form h)⟩

theorem memStep_queue {s t : Dev} (h : s.memStep t) (q : QueueId) : t.queue q = s.queue q := by rw [h.rest]; rfl
theorem memStep_cmd {s t : Dev} (h : s.memStep t) : t.cmd = s.cmd := by rw [h.rest]
theorem memStep_now {s t : Dev} (h : s.memStep t) : t.now = s.now := by rw [h.rest]

theorem memStep_foldl {α : Type} (f : Dev → α → Dev) (hf : ∀ (s : Dev) (a : α), s.memStep (f s a)) (l : List α) (s : Dev) :
    s.memStep (l.foldl f s) := by
  induction l generalizing s with
  | nil => exact ⟨rfl, id⟩
  | cons a l ih => exact memStep_trans (hf s a) (ih (f s a))

theorem memStep_modMem (s : Dev) (f : MemState → MemState) (hf : ∀ m, Memory.wf m = true → Memory.wf (f m) = true) :
    s.memStep (s.modMem f) := ⟨rfl, hf s.mem⟩
theorem memStep_setObj (s : Dev) (a v : Nat) : s.memStep (s.setObj a v) := ⟨rfl, id⟩
theorem memStep_bump (s : Dev) (a b c n : Nat) : s.memStep (s.bump a b c n) := ⟨rfl, id⟩
theorem memStep_setHub (s : Dev) (h : HubId) (x : Hub) : s.memStep (s.setHub h x) := ⟨rfl, id⟩
theorem memStep_modHub (s : Dev) (h : HubId) (f : Hub → Hub) : s.memStep (s.modHub h f) := ⟨rfl, id⟩
theorem memStep_modAgent (s : Dev) (a : Agent) (f : CacheAgent → CacheAgent) : s.memStep (s.modAgent a f) := ⟨rfl, id⟩
theorem memStep_send (s : Dev) (m : Msg) : s.memStep (s.send m) := ⟨rfl, id⟩
theorem memStep_receive (s : Dev) (m : Msg) : s.memStep (s.receive m) := ⟨rfl, id⟩
theorem memStep_setL3 (s : Dev) (t : LineTag) (l : Option L3Line) : s.memStep (s.setL3 t l) := ⟨rfl, id⟩
theorem memStep_setWcb (s : Dev) (t : LineTag) (l : Option WcbLine) : s.memStep (s.setWcb t l) := ⟨rfl, id⟩
theorem memStep_setDir (s : Dev) (t : LineTag) (l : Option DirEntry) : s.memStep (s.setDir t l) := ⟨rfl, id⟩
theorem memStep_setLine (s : Dev) (a : Agent) (t : LineTag) (l : Option CacheLine) : s.memStep (s.setLine a t l) := ⟨rfl, id⟩
theorem memStep_setEvb (s : Dev) (a : Agent) (t : LineTag) (l : Option EvbEntry) : s.memStep (s.setEvb a t l) := ⟨rfl, id⟩
theorem memStep_stamp (s : Dev) : s.memStep s.stamp.1 := ⟨rfl, id⟩

theorem memStep_ite {s t u : Dev} {c : Prop} [Decidable c] (h1 : s.memStep t) (h2 : s.memStep u) : s.memStep (if c then t else u) := by
  split <;> assumption

/-- Writing a line to DRAM changes DRAM and its counter alone. -/
theorem memStep_dramWrite (s : Dev) (t : LineTag) (d : LineData) (p : Bool) : s.memStep (s.dramWrite t d p) := by
  refine ⟨rfl, fun h => ?_⟩
  simp only [Memory.wf, Bool.and_eq_true] at h ⊢
  exact ⟨⟨Table.wf_setRange _ _ _ _ h.1.1, Table.wf_set _ _ _ _ h.1.2⟩, Table.wf_set _ _ _ _ h.2⟩

theorem memStep_modMmu (s : Dev) (m : MmuId) (f : Mmu → Mmu) : s.memStep (s.modMmu m f) := ⟨rfl, id⟩
theorem memStep_event (s : Dev) (k d : Nat) : s.memStep (s.event k d) := ⟨rfl, id⟩
theorem memStep_moduleFatal (s : Dev) (n : Nat) : s.memStep (s.moduleFatal n) := ⟨rfl, id⟩
theorem memStep_dropRecord (s : Dev) (m : MmuId) : s.memStep (s.dropRecord m) := memStep_modMmu ..

theorem memStep_holdRecord (s : Dev) (m : MmuId) (r : FaultRecord) : s.memStep (s.holdRecord m r) := by
  unfold holdRecord
  refine memStep_ite (memStep_dropRecord ..) (memStep_ite (memStep_modMmu ..) (memStep_ite (memStep_moduleFatal ..) (memStep_dropRecord ..)))

theorem memStep_holdDram (s : Dev) (t : LineTag) (n : Nat) : s.memStep (s.holdDram t n) := memStep_holdRecord ..

theorem memStep_readError (s : Dev) (g : Option Nat) : s.memStep (s.readError g).1 := by
  unfold readError
  split
  · exact memStep_refl s
  · exact memStep_refl s
  · split
    · exact memStep_refl s
    · exact ⟨rfl, id⟩
  · exact ⟨rfl, id⟩

/-- Marking a line poisoned keeps DRAM's form. -/
theorem memStep_dramSetPoison (s : Dev) (t : LineTag) : s.memStep (s.dramSetPoison t) := by
  refine memStep_modMem _ _ fun m h => ?_
  simp only [Memory.wf, Bool.and_eq_true] at h ⊢
  exact ⟨h.1, Table.wf_set _ _ _ _ h.2⟩

/-- A read of DRAM changes the memory system, its counters and what its record reaches. -/
theorem memStep_dramReadBy (rep : Dev → LineTag → Nat → Dev) (hrep : ∀ s t n, memStep s (rep s t n)) (s : Dev) (t : LineTag)
    (g : Option Nat) (n : Nat) : s.memStep (dramReadBy rep s t g n).1 := by
  unfold dramReadBy
  dsimp only
  have h : s.memStep ((s.bump 7 0x100 (s.stackOf (tagLoc t)) 1).readError g).1 := memStep_trans (memStep_bump ..) (memStep_readError ..)
  split
  · exact h
  · exact memStep_trans h (memStep_trans (memStep_bump ..) (memStep_bump ..))
  · exact h
  · exact memStep_trans h (memStep_trans (memStep_bump ..) (memStep_dramWrite ..))
  · exact h
  · split
    · exact memStep_trans h (memStep_trans (memStep_bump ..) (hrep ..))
    · exact memStep_trans h (memStep_trans (memStep_bump ..) (memStep_trans (memStep_bump ..) (memStep_trans (memStep_dramSetPoison ..)
        (memStep_trans (memStep_bump ..) (hrep ..)))))

theorem memStep_wcbDrainWith (s : Dev) (t : LineTag) (w : WcbLine) (b : LineData) (p : Bool) (i : Nat) :
    s.memStep (s.wcbDrainWith t w b p i) :=
  memStep_trans (memStep_setWcb ..) (memStep_trans (memStep_bump ..) (memStep_dramWrite ..))

theorem memStep_wcbDrainBy (rep : Dev → LineTag → Nat → Dev) (hrep : ∀ s t n, memStep s (rep s t n)) (s : Dev) (t : LineTag)
    (g : Option Nat) (i : Nat) : s.memStep (wcbDrainBy rep s t g i) := by
  unfold wcbDrainBy
  split
  · exact memStep_refl s
  · refine memStep_ite (memStep_wcbDrainWith ..) ?_
    exact memStep_trans (memStep_dramReadBy rep hrep ..) (memStep_wcbDrainWith ..)

theorem memStep_l3Put (s : Dev) (t : LineTag) (d : LineData) (y p : Bool) : s.memStep (s.l3Put t d y p) := by
  unfold l3Put
  refine memStep_trans ?_ (memStep_setL3 ..)
  refine memStep_ite (memStep_stamp s) ?_
  split
  · exact memStep_stamp s
  · exact memStep_trans (memStep_stamp s) (memStep_trans
      (memStep_ite (memStep_trans (memStep_dramWrite ..) (memStep_setWcb ..)) (memStep_refl _)) (memStep_setL3 ..))

theorem memStep_homeWriteBy (rep : Dev → LineTag → Nat → Dev) (hrep : ∀ s t n, memStep s (rep s t n)) (s : Dev) (t : LineTag) (off : Nat)
    (b : List Byte) (part by_ : Nat) : s.memStep (homeWriteBy rep s t off b part by_) := by
  unfold homeWriteBy
  dsimp only
  split
  · exact memStep_trans (memStep_bump ..) (memStep_trans (memStep_stamp _) (memStep_setL3 ..))
  · have h1 : s.memStep (if (s.wcbLine t).isNone && 512 ≤ (present (s.hub (s.hubOf (tagLoc t))).wcb).length then
        match oldestWcb (s.hub (s.hubOf (tagLoc t))) with
        | some (v, _) => wcbDrainBy rep s v none 0x113
        | none => s
      else s) := by
      refine memStep_ite ?_ (memStep_refl s)
      split
      · exact memStep_wcbDrainBy rep hrep ..
      · exact memStep_refl s
    exact memStep_trans h1 (memStep_trans (memStep_stamp _) (memStep_trans (memStep_setWcb ..)
      (memStep_ite (memStep_wcbDrainWith ..) (memStep_ite (memStep_wcbDrainBy rep hrep ..) (memStep_refl _)))))

theorem memStep_gatherHome (s : Dev) (t : LineTag) : s.memStep (s.gatherHome t) := by
  unfold gatherHome
  refine memStep_trans ?_ (memStep_setDir ..)
  refine memStep_trans ?_ (memStep_foldl _ (fun s a => memStep_setLine s a t none) _ _)
  split
  · exact memStep_l3Put ..
  · exact memStep_refl s

theorem memStep_dropSideOf (s : Dev) (t : LineTag) (ds : List Nat) : s.memStep (s.dropSideOf t ds) := by
  unfold dropSideOf
  exact memStep_trans (memStep_foldl _ (fun s d => by split <;> first | exact memStep_bump .. | exact memStep_refl s) _ _)
    (memStep_modMem _ _ (fun _ h => h))

theorem memStep_dropSide (s : Dev) (t : LineTag) : s.memStep (s.dropSide t) := memStep_dropSideOf ..

theorem memStep_pushWriteBy (rep : Dev → LineTag → Nat → Dev) (hrep : ∀ s t n, memStep s (rep s t n)) (s : Dev) (t : LineTag) (off : Nat)
    (b : List Byte) (part by_ : Nat) : s.memStep (pushWriteBy rep s t off b part by_) := by
  unfold pushWriteBy
  have h1 := memStep_gatherHome s t
  generalize s.gatherHome t = d at *
  have h2 := memStep_dropSide d t
  generalize d.dropSide t = e at *
  exact memStep_trans h1 (memStep_trans h2 (memStep_homeWriteBy rep hrep e t off b part by_))

/-- A write-push of a non-caching unit changes the memory system, its counters and what a record reaches. -/
theorem memStep_pushAt (rep : Dev → LineTag → Nat → Dev) (hrep : ∀ s t n, memStep s (rep s t n)) (s : Dev) (t : LineTag) (off : Nat)
    (b : List Byte) (d : Die) : s.memStep (pushAt rep s t off b d) := by
  unfold pushAt
  exact memStep_ite (memStep_refl s) (memStep_ite (memStep_modHub ..) (memStep_pushWriteBy rep hrep ..))

theorem memStep_physWriteBy (rep : Dev → LineTag → Nat → Dev) (hrep : ∀ s t n, memStep s (rep s t n)) (s : Dev) (pa : Nat) (b : List Byte)
    (r : Bool) (d : Die) : s.memStep (physWriteBy rep s pa b r d) := by
  unfold physWriteBy
  generalize linePieces pa b.length r (b.length / 128 + 2) = l
  generalize hx : (s, b) = x
  have h0 : s = x.1 := by rw [← hx]
  rw [h0]
  clear h0 hx
  induction l generalizing x with
  | nil => exact memStep_refl _
  | cons p l ih =>
    rw [List.foldl_cons]
    have h := memStep_pushAt rep hrep x.1 p.1 p.2.1 (x.2.take p.2.2) d
    generalize pushAt rep x.1 p.1 p.2.1 (x.2.take p.2.2) d = u at *
    exact memStep_trans h (ih (u, _))

/-- A step and an event after it, if one comes. -/
theorem memStep_iteEvent {s t : Dev} {c : Prop} [Decidable c] {k n : Nat} (h : s.memStep t) : s.memStep (if c then t.event k n else t) :=
  memStep_ite (memStep_trans h (memStep_event ..)) h

/-- A step and a change of what translation holds after it, if one comes. -/
theorem memStep_iteXl {s t : Dev} {c : Prop} [Decidable c] {f : XlState → XlState} (h : s.memStep t) :
    s.memStep (if c then t.modXl f else t) := memStep_ite (memStep_trans h ⟨rfl, id⟩) h

/-- A record that is written changes memory and what a record reaches. -/
theorem memStep_writeRecord (s : Dev) (m : MmuId) (r : FaultRecord) : s.memStep (s.writeRecord m r) := by
  unfold writeRecord
  refine memStep_iteEvent (memStep_iteXl ?_)
  exact memStep_trans (memStep_trans
    (memStep_foldl _ (fun s e => memStep_physWriteBy holdDram memStep_holdDram ..) _ _) (memStep_modMmu ..)) (memStep_bump ..)

theorem memStep_drainHeld (s : Dev) (m : MmuId) (n : Nat) : s.memStep (s.drainHeld m n) := by
  induction n generalizing s with
  | zero => exact memStep_refl s
  | succ n ih =>
    unfold drainHeld
    split
    · exact memStep_refl s
    · exact memStep_ite (memStep_trans (memStep_modMmu ..) (memStep_trans (memStep_writeRecord ..) (ih _))) (memStep_refl s)

/-- A report changes memory and what a record reaches. -/
theorem memStep_reportTo (s : Dev) (m : MmuId) (r : FaultRecord) : s.memStep (s.reportTo m r) := by
  unfold reportTo
  dsimp only
  have h : s.memStep (if r.cls = .fatal then s.moduleFatal r.first else s) := memStep_ite (memStep_moduleFatal ..) (memStep_refl s)
  generalize (if r.cls = .fatal then s.moduleFatal r.first else s) = d at *
  refine memStep_trans h (memStep_ite (memStep_dropRecord ..) (memStep_trans (memStep_drainHeld d m 32) ?_))
  refine memStep_ite (memStep_dropRecord ..) (memStep_ite (memStep_writeRecord ..) (memStep_ite (memStep_modMmu ..)
    (memStep_ite (memStep_moduleFatal ..) (memStep_dropRecord ..))))

theorem memStep_reportDram (s : Dev) (t : LineTag) (n : Nat) : s.memStep (s.reportDram t n) := memStep_reportTo ..

theorem memStep_dramRead (s : Dev) (t : LineTag) (g : Option Nat) (n : Nat) : s.memStep (s.dramRead t g n).1 :=
  memStep_dramReadBy _ memStep_reportDram ..
theorem memStep_wcbDrain (s : Dev) (t : LineTag) (g : Option Nat) (i : Nat) : s.memStep (s.wcbDrain t g i) :=
  memStep_wcbDrainBy _ memStep_reportDram ..
theorem memStep_homeWrite (s : Dev) (t : LineTag) (off : Nat) (b : List Byte) (part by_ : Nat) : s.memStep (s.homeWrite t off b part by_) :=
  memStep_homeWriteBy _ memStep_reportDram ..
/-- A write-push changes the memory system, its counters and what a record of a DRAM error reaches. -/
theorem memStep_pushWrite (s : Dev) (t : LineTag) (off : Nat) (b : List Byte) (part by_ : Nat) : s.memStep (s.pushWrite t off b part by_) :=
  memStep_pushWriteBy _ memStep_reportDram ..
theorem memStep_physWrite (s : Dev) (pa : Nat) (b : List Byte) (r : Bool) (d : Die) : s.memStep (s.physWrite pa b r d) :=
  memStep_physWriteBy _ memStep_reportDram ..

theorem memStep_homeRead (s : Dev) (t : LineTag) (g : Option Nat) : s.memStep (s.homeRead t g).1 := by
  unfold homeRead
  dsimp only
  split
  · exact memStep_trans (memStep_bump ..) (memStep_trans (memStep_stamp _) (memStep_setL3 ..))
  · exact memStep_trans (memStep_bump ..) (memStep_trans (memStep_dramRead ..) (memStep_l3Put ..))

theorem memStep_takeEpoch (s : Dev) (t : LineTag) : s.memStep (s.takeEpoch t).1 := ⟨rfl, id⟩

theorem memStep_openTxn (s : Dev) (t : LineTag) (k : ReqKind) (b : ReqBy) (sn : SnoopKind) (ds : List Agent) (o : Bool) (e : Nat) :
    s.memStep (s.openTxn t k b sn ds o e) := by
  dsimp only [openTxn]
  refine memStep_trans ?_ (memStep_foldl _ ?_ _ _)
  · exact memStep_trans (memStep_takeEpoch ..) (memStep_modHub ..)
  · intro s a
    exact memStep_send s _

theorem memStep_dirRoom (s : Dev) (t : LineTag) : s.memStep (s.dirRoom t) := by
  unfold dirRoom
  refine memStep_ite (memStep_refl s) ?_
  split
  · exact memStep_refl s
  · exact memStep_trans (memStep_bump ..) (memStep_trans (memStep_setDir ..) (memStep_openTxn ..))

theorem memStep_putDir (s : Dev) (t : LineTag) (st : DirState) (o : Option Agent) (sh : List Agent) (p : Bool) :
    s.memStep (s.putDir t st o sh p) := by
  unfold putDir
  exact memStep_trans (memStep_dirRoom s t) (memStep_trans (memStep_stamp _) (memStep_setDir ..))

end Dev

end Sys2Proof.Machine
end

