-- ==== Sys2Proof/Laws/Queues.lean ====
section
/-! SUPPORT. Laws/Queues.lean: what the shared operations of command queues do to the queue they work on, and what they leave
unchanged. -/

namespace Sys2Proof.Machine

namespace Dev

variable (s : Dev)

@[simp] theorem running_setQueue (q q2 : QueueId) (x : Queue) : (s.setQueue q x).running q2 = s.running q2 := rfl
@[simp] theorem running_modQueue (q q2 : QueueId) (f : Queue → Queue) : (s.modQueue q f).running q2 = s.running q2 := rfl
@[simp] theorem running_modJournal (f : Journal → Journal) (q : QueueId) : (s.modJournal f).running q = s.running q := rfl
@[simp] theorem queue_modJournal (f : Journal → Journal) (q : QueueId) : (s.modJournal f).queue q = s.queue q := rfl
@[simp] theorem journal_setQueue (q : QueueId) (x : Queue) : (s.setQueue q x).cmd.journal = s.cmd.journal := rfl
@[simp] theorem ops_setQueue (q : QueueId) (x : Queue) : (s.setQueue q x).cmd.ops = s.cmd.ops := rfl
@[simp] theorem ops_modQueue (q : QueueId) (f : Queue → Queue) : (s.modQueue q f).cmd.ops = s.cmd.ops := rfl
@[simp] theorem ops_modJournal (f : Journal → Journal) : (s.modJournal f).cmd.ops = s.cmd.ops := rfl
@[simp] theorem queue_freeSlot (slot : SlotId) (q : QueueId) : (s.freeSlot slot).queue q = s.queue q := rfl
@[simp] theorem running_freeSlot (slot : SlotId) (q : QueueId) : (s.freeSlot slot).running q = s.running q := rfl
@[simp] theorem ops_freeSlot (slot : SlotId) : (s.freeSlot slot).cmd.ops = s.cmd.ops := rfl

/-- A latch considers one queue. -/
theorem queue_latch (q q2 : QueueId) : (s.latch q).queue q2 = if q2 = q then s.latchedQueue (s.queue q) else s.queue q2 :=
  queue_modQueue ..

/-- Waits that have latched stay latched (R125). -/
theorem latchedQueue_of_latched (x : Queue) (h0 : x.wait0 = true) (h1 : x.wait1 = true) : s.latchedQueue x = x := by
  unfold latchedQueue
  split
  · rfl
  · split
    · rfl
    · split
      · simp
      · obtain ⟨⟩ := x; simp_all

/-- A latch changes nothing of a queue but its two latches and the test of a BREAK. -/
theorem latchedQueue_frame (x : Queue) :
    ∃ a b c, s.latchedQueue x = { x with wait0 := a, wait1 := b, brkLatch := c } := by
  unfold latchedQueue
  split
  · exact ⟨_, _, _, rfl⟩
  · split
    · exact ⟨_, _, _, rfl⟩
    · split
      · split
        · exact ⟨_, _, _, rfl⟩
        · dsimp only; split <;> exact ⟨_, _, _, rfl⟩
      · exact ⟨_, _, _, rfl⟩

/-- A queue whose instruction has not been read has nothing to latch. -/
theorem latchedQueue_of_unfetched (x : Queue) (h : x.fetched = none) : s.latchedQueue x = x := by
  simp [latchedQueue, h]

@[simp] theorem running_latch (q q2 : QueueId) : (s.latch q).running q2 = s.running q2 := rfl

/-- An instruction that is ready at its head is what `readyHead` answers (R124). -/
theorem readyHead_of_headReady {q : QueueId} {w : BitVec 256} (h : s.headReady q w) (code : Nat) (hc : iOpcode w = code) :
    (s.latch q).readyHead q code = some w := by
  obtain ⟨h1, h2, h3, h4, h5, h6, h7⟩ := h
  unfold readyHead
  rw [queue_latch, if_pos rfl, latchedQueue_of_latched _ _ h3 h4]
  have hr : (s.latch q).running q = s.running q := rfl
  dsimp only
  rw [hr, h2]
  dsimp only
  rw [if_pos]
  simp only [h1, h3, h4, h5, hc, Bool.and_eq_true, decide_eq_true_eq, Bool.or_eq_true, Bool.not_eq_true', List.all_eq_true]
  refine ⟨⟨by simp, ?_⟩, fun o ho => h7 o ho⟩
  cases hf : iFence w
  · simp
  · simp [h6 hf]

theorem queue_latch_of_headReady {q : QueueId} {w : BitVec 256} (h : s.headReady q w) : (s.latch q).queue q = s.queue q := by
  rw [queue_latch, if_pos rfl, latchedQueue_of_latched _ _ h.2.2.1 h.2.2.2.1]

/-- A head that is set leaves nothing of the instruction that was there (R123, R134). -/
theorem queue_setHead (q : QueueId) (n : Nat) : (s.setHead q n).queue q = { s.queue q with
    head := BitVec.ofNat 32 n, fetched := none, wait0 := false, wait1 := false, brkLatch := false, slot := none,
    slotWait := false, endUnperformed := none, headSince := s.now } := queue_modQueue_same ..

theorem queue_setHead_ne (q q2 : QueueId) (n : Nat) (h : q2 ≠ q) : (s.setHead q n).queue q2 = s.queue q2 := by
  simp [setHead, queue_modQueue, h]

@[simp] theorem running_setHead (q q2 : QueueId) (n : Nat) : (s.setHead q n).running q2 = s.running q2 := rfl
@[simp] theorem ops_setHead (q : QueueId) (n : Nat) : (s.setHead q n).cmd.ops = s.cmd.ops := rfl

@[simp] theorem queue_unbind (a r : Nat) (q : QueueId) : (s.unbind a r).queue q = s.queue q := by unfold unbind; dsimp only; split <;> rfl
@[simp] theorem running_unbind (a r : Nat) (q : QueueId) : (s.unbind a r).running q = s.running q := by unfold unbind; dsimp only; split <;> rfl
@[simp] theorem ops_unbind (a r : Nat) : (s.unbind a r).cmd.ops = s.cmd.ops := by unfold unbind; dsimp only; split <;> rfl

@[simp] theorem queue_finishBuffer (q k : QueueId) : (s.finishBuffer q).queue k = s.queue k := by
  unfold finishBuffer; split <;> simp [unbindBuffer]
@[simp] theorem running_finishBuffer (q k : QueueId) : (s.finishBuffer q).running k = s.running k := by
  unfold finishBuffer; split <;> simp [unbindBuffer]
@[simp] theorem ops_finishBuffer (q : QueueId) : (s.finishBuffer q).cmd.ops = s.cmd.ops := by
  unfold finishBuffer; split <;> simp [unbindBuffer]

/-- Taking the next buffer changes the queue's buffers, and sets its head to 0 (R112). -/
theorem queue_nextBuffer (q : QueueId) : (s.nextBuffer q).queue q = { s.queue q with
    cur := (s.queue q).submits.head?, submits := (s.queue q).submits.tail, head := 0, fetched := none, wait0 := false, wait1 := false,
    brkLatch := false, slot := none, slotWait := false, endUnperformed := none, headSince := (s.finishBuffer q).now } := by
  unfold nextBuffer
  rw [queue_setHead, queue_setQueue_same]
  rfl

theorem queue_nextBuffer_ne (q q2 : QueueId) (h : q2 ≠ q) : (s.nextBuffer q).queue q2 = s.queue q2 := by
  simp [nextBuffer, queue_setHead_ne _ _ _ _ h, queue_setQueue, h]

@[simp] theorem running_nextBuffer (q q2 : QueueId) : (s.nextBuffer q).running q2 = s.running q2 := by simp [nextBuffer]
@[simp] theorem ops_nextBuffer (q : QueueId) : (s.nextBuffer q).cmd.ops = s.cmd.ops := by simp [nextBuffer]

theorem queue_dropHead (q : QueueId) : (s.dropHead q).queue q = { s.queue q with
    fetched := none, wait0 := false, wait1 := false, brkLatch := false, slot := none, slotWait := false, endUnperformed := none } := by
  unfold dropHead
  simp only [queue_setQueue_same]

theorem queue_dropHead_ne (q q2 : QueueId) (h : q2 ≠ q) : (s.dropHead q).queue q2 = s.queue q2 := by
  unfold dropHead
  simp only [queue_setQueue, h, if_false]
  split
  · split <;> simp
  · rfl

@[simp] theorem running_dropHead (q q2 : QueueId) : (s.dropHead q).running q2 = s.running q2 := by
  unfold dropHead
  simp only [running_setQueue]
  split
  · split <;> simp
  · rfl

@[simp] theorem ops_dropHead (q : QueueId) : (s.dropHead q).cmd.ops = s.cmd.ops := by
  unfold dropHead
  simp only [ops_setQueue]
  split
  · split <;> simp
  · rfl

theorem settle_eq (q : QueueId) : s.settle q = s ∨ ∃ x, s.settle q = s.setQueue q x := by
  unfold settle
  dsimp only
  split
  · split
    · exact .inr ⟨_, rfl⟩
    · exact .inr ⟨_, rfl⟩
  · exact .inl rfl

theorem queue_settle_ne (q q2 : QueueId) (h : q2 ≠ q) : (s.settle q).queue q2 = s.queue q2 := by
  rcases s.settle_eq q with e | ⟨x, e⟩ <;> rw [e]
  simp [queue_setQueue, h]

@[simp] theorem running_settle (q q2 : QueueId) : (s.settle q).running q2 = s.running q2 := by
  rcases s.settle_eq q with e | ⟨x, e⟩ <;> rw [e]
  rfl

@[simp] theorem ops_settle (q : QueueId) : (s.settle q).cmd.ops = s.cmd.ops := by
  rcases s.settle_eq q with e | ⟨x, e⟩ <;> rw [e]
  rfl

/-- A queue that ceases to issue keeps its place: its head, loops, phase, counts and buffers. -/
def keepsPlace (a b : Queue) : Prop :=
  b.head = a.head ∧ b.loops = a.loops ∧ b.phase = a.phase ∧ b.tref = a.tref ∧ b.issued = a.issued ∧ b.cur = a.cur
    ∧ b.submits = a.submits ∧ b.skipDepth = a.skipDepth ∧ b.signals = a.signals ∧ b.asid = a.asid ∧ b.unit = a.unit
    ∧ b.sheafMask = a.sheafMask ∧ b.cls = a.cls ∧ b.watchdog = a.watchdog ∧ b.stopAfter = a.stopAfter

theorem keepsPlace_refl (a : Queue) : keepsPlace a a := by simp [keepsPlace]
theorem keepsPlace_trans {a b c : Queue} (h1 : keepsPlace a b) (h2 : keepsPlace b c) : keepsPlace a c := by
  simp only [keepsPlace] at *; simp_all

theorem keepsPlace_settle (q : QueueId) : keepsPlace (s.queue q) ((s.settle q).queue q) := by
  unfold settle
  dsimp only
  split
  · split <;> rw [queue_setQueue_same] <;> simp [keepsPlace]
  · exact keepsPlace_refl _

theorem keepsPlace_cease (q : QueueId) (r : Nat) (f : Bool) : keepsPlace (s.queue q) ((s.cease q r f).queue q) := by
  unfold cease
  dsimp only
  split
  · refine keepsPlace_trans ?_ (keepsPlace_settle _ q)
    rw [queue_setQueue_same]
    have h : keepsPlace (s.queue q) ((s.dropHead q).queue q) := by rw [queue_dropHead]; simp [keepsPlace]
    refine keepsPlace_trans h ?_
    split <;> simp [keepsPlace]
  · exact keepsPlace_refl _

@[simp] theorem running_cease (q q2 : QueueId) (r : Nat) (f : Bool) : (s.cease q r f).running q2 = s.running q2 := by
  unfold cease
  dsimp only
  split <;> simp

@[simp] theorem ops_cease (q : QueueId) (r : Nat) (f : Bool) : (s.cease q r f).cmd.ops = s.cmd.ops := by
  unfold cease
  dsimp only
  split <;> simp

theorem queue_cease_ne (q q2 : QueueId) (r : Nat) (f : Bool) (h : q2 ≠ q) : (s.cease q r f).queue q2 = s.queue q2 := by
  unfold cease
  dsimp only
  split
  · rw [queue_settle_ne _ _ _ h, queue_setQueue, if_neg h, queue_dropHead_ne _ _ _ h]
  · rfl

theorem unfetched_cease (q : QueueId) (r : Nat) (f : Bool) (h : (s.queue q).fetched = none) : ((s.cease q r f).queue q).fetched = none := by
  unfold cease
  dsimp only
  split
  · have hs : ∀ d : Dev, (d.queue q).fetched = none → ((d.settle q).queue q).fetched = none := by
      intro d hd
      unfold settle
      dsimp only
      split
      · split <;> rw [queue_setQueue_same] <;> exact hd
      · exact hd
    apply hs
    rw [queue_setQueue_same]
    split <;> simp [queue_dropHead]
  · exact h

/-- The head moves on (R112, R123, R150): the queue's course is what `headAt` says, and nothing is kept of the instruction that left. -/
theorem moveHead_follows (q : QueueId) (n : Nat) : ((s.moveHead q n).queue q).follows ((s.queue q).headAt n) := by
  unfold moveHead Queue.headAt Queue.pastEnd
  have hq := s.queue_setHead q n
  generalize hd : s.setHead q n = d at *
  have hcur : (d.queue q).cur = (s.queue q).cur := by rw [hq]
  have hl : (d.queue q).loops = (s.queue q).loops := by rw [hq]
  have hk : (d.queue q).skipDepth = (s.queue q).skipDepth := by rw [hq]
  dsimp only
  rw [hcur, hl, hk]
  by_cases hp : (decide (((s.queue q).cur.map Buffer.len).getD 0 ≤ n) && (s.queue q).cur.isSome) = true
  · have hn : ((d.nextBuffer q).queue q).follows
        { s.queue q with head := 0, cur := (s.queue q).submits.head?, submits := (s.queue q).submits.tail } := by
      rw [queue_nextBuffer, hq]
      simp [Queue.follows]
    rw [if_pos hp, if_pos hp]
    split
    · have hkp := (d.nextBuffer q).keepsPlace_cease q 0xB false
      have hf := (d.nextBuffer q).unfetched_cease q 0xB false (by rw [queue_nextBuffer])
      simp only [keepsPlace, Queue.follows] at *
      simp_all
    · exact hn
  · rw [if_neg hp, if_neg hp, hq]
    simp [Queue.follows]

/-- Within a buffer the head alone moves (R123). -/
theorem moveHead_within (q : QueueId) (n : Nat) (h : (s.queue q).pastEnd n = false) : s.moveHead q n = s.setHead q n := by
  unfold moveHead
  dsimp only
  have hc : ((s.setHead q n).queue q).cur = (s.queue q).cur := by rw [queue_setHead]
  rw [hc, if_neg]
  unfold Queue.pastEnd at h
  rw [h]
  simp

theorem queue_moveHead_ne (q q2 : QueueId) (n : Nat) (h : q2 ≠ q) : (s.moveHead q n).queue q2 = s.queue q2 := by
  unfold moveHead
  dsimp only
  split
  · split
    · rw [queue_cease_ne _ _ _ _ _ h, queue_nextBuffer_ne _ _ _ h, queue_setHead_ne _ _ _ _ h]
    · rw [queue_nextBuffer_ne _ _ _ h, queue_setHead_ne _ _ _ _ h]
  · exact queue_setHead_ne _ _ _ _ h

@[simp] theorem running_moveHead (q q2 : QueueId) (n : Nat) : (s.moveHead q n).running q2 = s.running q2 := by
  unfold moveHead
  dsimp only
  split
  · split <;> simp
  · simp

@[simp] theorem ops_moveHead (q : QueueId) (n : Nat) : (s.moveHead q n).cmd.ops = s.cmd.ops := by
  unfold moveHead
  dsimp only
  split
  · split <;> simp
  · simp

/-- A running queue that ceases to issue for a reason stops with it, at once where none of its operations is running (R136, R137). -/
theorem stopsWith_cease (q : QueueId) (r : Nat) (f : Bool) (h : (s.queue q).state = .running) :
    (s.cease q r f).stopsWith q (BitVec.ofNat 8 r) := by
  unfold stopsWith
  rw [running_cease]
  unfold cease
  dsimp only
  have hd : ((s.dropHead q).queue q).state = .running := by rw [queue_dropHead]; exact h
  simp only [h, hd]
  rw [if_pos (by simp)]
  simp only [settle, queue_setQueue_same, running_setQueue, running_dropHead]
  have he : ((s.dropHead q).queue q).endUnperformed = none := by rw [queue_dropHead]
  have hf : ((s.dropHead q).queue q).fetched = none := by rw [queue_dropHead]
  have hs : ((s.dropHead q).queue q).slot = none := by rw [queue_dropHead]
  by_cases hr : s.running q = []
  · simp [hr, he, hf, hs]
  · have : (s.running q).isEmpty = false := by cases hh : s.running q <;> simp_all
    simp [this, hr, hf, hs]

/-- Latching every queue changes only latches (R125). -/
theorem queue_latchAll (q : QueueId) :
    ∃ a b c, s.latchAll.queue q = { s.queue q with wait0 := a, wait1 := b, brkLatch := c } := by
  unfold latchAll
  generalize s.cmd.queues = l
  suffices h : ∀ (l : Table Queue) (d : Dev), ∃ a b c, (l.foldl (fun s e => if h : e.1 < 2048 then s.latch ⟨e.1, h⟩ else s) d).queue q
      = { d.queue q with wait0 := a, wait1 := b, brkLatch := c } from h l s
  intro l
  induction l with
  | nil => intro d; exact ⟨_, _, _, rfl⟩
  | cons e l ih =>
    intro d
    rw [List.foldl_cons]
    obtain ⟨a, b, c, h⟩ := ih (if h : e.1 < 2048 then d.latch ⟨e.1, h⟩ else d)
    refine ⟨a, b, c, ?_⟩
    rw [h]
    split
    · rw [queue_latch]
      split
      · rename_i hq
        subst hq
        obtain ⟨a, b, c, h⟩ := d.latchedQueue_frame (d.queue ⟨e.1, by assumption⟩)
        rw [h]
      · rfl
    · rfl

/-- A latch of every queue leaves a queue alone whose instruction has not been read. -/
theorem queue_latchAll_of_unfetched (q : QueueId) (hf : (s.queue q).fetched = none) : s.latchAll.queue q = s.queue q := by
  unfold latchAll
  generalize s.cmd.queues = l
  suffices h : ∀ (l : Table Queue) (d : Dev), (d.queue q).fetched = none →
      (l.foldl (fun s e => if h : e.1 < 2048 then s.latch ⟨e.1, h⟩ else s) d).queue q = d.queue q from h l s hf
  intro l
  induction l with
  | nil => intro d _; rfl
  | cons e l ih =>
    intro d hd
    rw [List.foldl_cons]
    have h1 : (if h : e.1 < 2048 then d.latch ⟨e.1, h⟩ else d).queue q = d.queue q := by
      split
      · rw [queue_latch]
        split
        · rename_i hq
          subst hq
          exact latchedQueue_of_unfetched _ _ hd
        · rfl
      · rfl
    rw [ih _ (by rw [h1]; exact hd), h1]

/-- Latching changes nothing but queues. -/
theorem latchAll_rest : s.latchAll = { s with cmd := { s.cmd with queues := s.latchAll.cmd.queues } } := by
  unfold latchAll
  generalize s.cmd.queues = l
  suffices h : ∀ (l : Table Queue) (d : Dev), l.foldl (fun s e => if h : e.1 < 2048 then s.latch ⟨e.1, h⟩ else s) d
      = { d with cmd := { d.cmd with queues := (l.foldl (fun s e => if h : e.1 < 2048 then s.latch ⟨e.1, h⟩ else s) d).cmd.queues } } from h l s
  intro l
  induction l with
  | nil => intro d; rfl
  | cons e l ih =>
    intro d
    rw [List.foldl_cons, ih]
    split <;> rfl

/-- Counting the waits of links for credit changes counters alone. -/
theorem countStalls_rest (n : Nat) : s.countStalls n = { s with obj := (s.countStalls n).obj } := by
  unfold countStalls
  generalize s.fab.links.toList.zipIdx = l
  suffices h : ∀ (l : List (Link × Nat)) (d : Dev), ∃ o, l.foldl (fun (s : Dev) e =>
      if e.1.queue.all (fun p => e.1.credits.getD p.tc.toNat 0 ≠ 0) || s.objAt 0x0A 0x100 e.2 ≠ 2 then s else s.bump 0x0A 0x300 e.2 n) d
        = { d with obj := o } by
    obtain ⟨o, ho⟩ := h l s
    rw [ho]
  intro l
  induction l with
  | nil => intro d; exact ⟨_, rfl⟩
  | cons e l ih =>
    intro d
    rw [List.foldl_cons]
    obtain ⟨o, ho⟩ := ih (if e.1.queue.all (fun p => e.1.credits.getD p.tc.toNat 0 ≠ 0) || d.objAt 0x0A 0x100 e.2 ≠ 2 then d
      else d.bump 0x0A 0x300 e.2 n)
    refine ⟨o, ?_⟩
    rw [ho]
    split <;> rfl

/-- Package time that moves on latches waits and counts those of links for credit, and changes nothing else (R125, R427). -/
theorem advance_rest (v : U64) :
    s.advance v = { s with now := (s.setNow v).now, obj := (s.advance v).obj, cmd := { s.cmd with queues := (s.advance v).cmd.queues } } := by
  unfold advance
  have h := (s.setNow v).countStalls_rest ((s.setNow v).now.toNat - s.now.toNat)
  generalize (s.setNow v).countStalls ((s.setNow v).now.toNat - s.now.toNat) = d at *
  have hl := d.latchAll_rest
  generalize d.latchAll = e at *
  rw [hl, h]
  rfl

/-- Package time never falls: it is the later of the two. -/
theorem advance_now (v : U64) : (s.advance v).now = if s.now.toNat < v.toNat then v else s.now := by rw [advance_rest]; rfl

@[simp] theorem advance_mem (v : U64) : (s.advance v).mem = s.mem := by rw [advance_rest]
@[simp] theorem advance_xl (v : U64) : (s.advance v).xl = s.xl := by rw [advance_rest]
@[simp] theorem advance_fab (v : U64) : (s.advance v).fab = s.fab := by rw [advance_rest]
@[simp] theorem advance_svc (v : U64) : (s.advance v).svc = s.svc := by rw [advance_rest]
@[simp] theorem advance_shf (v : U64) : (s.advance v).shf = s.shf := by rw [advance_rest]
@[simp] theorem advance_windows (v : U64) : (s.advance v).windows = s.windows := by rw [advance_rest]
@[simp] theorem advance_ops (v : U64) : (s.advance v).cmd.ops = s.cmd.ops := by rw [advance_rest]
@[simp] theorem advance_journal (v : U64) : (s.advance v).cmd.journal = s.cmd.journal := by rw [advance_rest]
@[simp] theorem advance_mills (v : U64) : (s.advance v).cmd.mills = s.cmd.mills := by rw [advance_rest]

theorem memStep_drainWcbOf (f : Nat → Bool) : s.memStep (s.drainWcbOf f) := by
  unfold drainWcbOf
  refine memStep_foldl _ ?_ _ _
  intro s h
  refine memStep_foldl _ ?_ _ _
  intro s e
  split
  · exact memStep_wcbDrain ..
  · exact memStep_refl s

/-- What performing a signal or a SYNC's update leaves of a queue whose instruction has not been read: everything. -/
theorem queue_performSignal (q : QueueId) (g : PendingSignal) (hf : (s.queue q).fetched = none) :
    (s.performSignal g).queue q = s.queue q := by
  unfold performSignal
  split <;> split <;>
    first
    | rfl
    | exact queue_latchAll_of_unfetched _ _ hf

theorem ops_latchAll : s.latchAll.cmd.ops = s.cmd.ops := by rw [latchAll_rest]

theorem ops_performSignal (g : PendingSignal) : (s.performSignal g).cmd.ops = s.cmd.ops := by
  unfold performSignal
  split <;> split <;>
    first
    | rfl
    | exact ops_latchAll _

/-- Performing the first pending signal takes it off its queue and leaves the rest of that queue, where its instruction has not been
read. -/
theorem queue_performFirst (q : QueueId) (hf : (s.queue q).fetched = none) :
    ∃ l, (s.performFirst q).queue q = { s.queue q with signals := l } := by
  unfold performFirst
  split
  · refine ⟨(s.queue q).signals.tail, ?_⟩
    rw [queue_performSignal]
    · rw [memStep_queue (memStep_drainWcbOf ..), queue_modQueue_same]
    · rw [memStep_queue (memStep_drainWcbOf ..), queue_modQueue_same]; exact hf
  · exact ⟨_, rfl⟩

@[simp] theorem ops_performFirst (q : QueueId) : (s.performFirst q).cmd.ops = s.cmd.ops := by
  unfold performFirst
  split
  · rw [ops_performSignal, memStep_cmd (memStep_drainWcbOf ..)]; rfl
  · rfl

/-- A control instruction that ends leaves its queue's course at the next head, with everything else of it as it was (R112, R123). -/
theorem endControl_follows (q : QueueId) (w : BitVec 256) (n : Nat) (u : List PendingSignal) :
    ((s.endControl q w n u).queue q).follows ((s.queue q).headAt n) := by
  unfold endControl
  dsimp only
  generalize hy : ({ s.queue q with signals := (s.queue q).signals ++ (u ++ signalOf w (s.queue q).issued.toNat true) } : Queue) = y
  have hh : ∀ z : Queue, z.follows (y.headAt n) → z.follows ((s.queue q).headAt n) := by
    intro z h
    rw [← hy] at h
    unfold Queue.headAt Queue.pastEnd at *
    dsimp only at h
    split at h <;> rename_i hc
    · rw [if_pos hc]; exact h
    · rw [if_neg hc]; exact h
  have h0 := (s.setQueue q y).moveHead_follows q n
  rw [queue_setQueue_same] at h0
  apply hh
  generalize (s.setQueue q y).moveHead q n = m at *
  have hfold : ∀ (l : List PendingSignal) (d : Dev), (d.queue q).follows (y.headAt n) →
      ((l.foldl (fun s _ => s.performFirst q) d).queue q).follows (y.headAt n) := by
    intro l
    induction l with
    | nil => intro d h; exact h
    | cons g l ih =>
      intro d h
      rw [List.foldl_cons]
      apply ih
      obtain ⟨l2, h2⟩ := d.queue_performFirst q h.2.2.2.2.2.2.2.2
      rw [h2]
      exact h
  have h1 : ((if (s.queue q).signals.isEmpty = true then (u ++ signalOf w (s.queue q).issued.toNat true).foldl (fun s _ => s.performFirst q) m
      else m).queue q).follows (y.headAt n) := by
    split
    · exact hfold _ m h0
    · exact h0
  generalize (if (s.queue q).signals.isEmpty = true then (u ++ signalOf w (s.queue q).issued.toNat true).foldl (fun s _ => s.performFirst q) m
      else m) = k at *
  split
  · have hk := k.keepsPlace_cease q 0x11 false
    have hn := k.unfetched_cease q 0x11 false h1.2.2.2.2.2.2.2.2
    simp only [Queue.follows, keepsPlace] at *
    simp_all
  · exact h1

end Dev

end Sys2Proof.Machine
end

