-- ==== Sys2Proof/Laws/Translate.lean ====
section
/-! SUPPORT. Laws/Translate.lean: what cache fills, translation and an engine's reads and writes can change: the memory system,
translation, the values of objects, events and a reset that is due; they keep the canonical form of DRAM. -/

namespace Sys2Proof.Machine

namespace Dev

theorem memStep_shf {s t : Dev} (h : s.memStep t) : t.shf = s.shf := by rw [h.rest]
theorem memStep_svc {s t : Dev} (h : s.memStep t) : t.svc = s.svc := by rw [h.rest]
theorem memStep_fab {s t : Dev} (h : s.memStep t) : t.fab = s.fab := by rw [h.rest]
theorem memStep_relays {s t : Dev} (h : s.memStep t) : t.relays = s.relays := by rw [h.rest]
theorem memStep_op {s t : Dev} (h : s.memStep t) (k : SlotId) : t.op k = s.op k := by rw [h.rest]; rfl
theorem memStep_mill {s t : Dev} (h : s.memStep t) (m : MillId) : t.mill m = s.mill m := by rw [h.rest]; rfl
theorem memStep_stook {s t : Dev} (h : s.memStep t) (k : Nat) : t.stook k = s.stook k := by rw [h.rest]; rfl

theorem memStep_modXl (s : Dev) (f : XlState → XlState) : s.memStep (s.modXl f) := ⟨rfl, id⟩
theorem memStep_report (s : Dev) (d : Die) (f : RecFields) : s.memStep (s.report d f) := memStep_reportTo ..

theorem memStep_dirRemove (s : Dev) (t : LineTag) (a : Agent) : s.memStep (s.dirRemove t a) := by
  unfold dirRemove
  split
  · exact memStep_refl s
  · exact memStep_ite (memStep_setDir ..) (memStep_setDir ..)

theorem memStep_trimRetained (s : Dev) (a : Agent) (t : LineTag) : s.memStep (s.trimRetained a t) := by
  unfold trimRetained
  refine memStep_ite (memStep_refl s) ?_
  split
  · exact memStep_setLine ..
  · exact memStep_refl s

theorem memStep_evictLine (s : Dev) (a : Agent) (v : Nat) (l : CacheLine) : s.memStep (s.evictLine a v l) := by
  refine ⟨?_, ?_⟩ <;> unfold evictLine <;> split <;> first | rfl | exact id

theorem memStep_fillLine {s u : Dev} {a : Agent} {t : LineTag} {l : CacheLine} (h : s.fillLine a t l = some u) : s.memStep u := by
  unfold fillLine at h
  dsimp only at h
  have h0 : s.memStep (s.trimRetained a t).stamp.1 := memStep_trans (memStep_trimRetained s a t) (memStep_stamp _)
  split at h
  · cases h; exact memStep_trans h0 (memStep_setLine ..)
  · split at h
    · cases h
    · cases h; exact memStep_trans h0 (memStep_trans (memStep_evictLine ..) (memStep_setLine ..))

theorem memStep_place {s u : Dev} {a : Agent} {t : LineTag} {l : CacheLine} {hint : Nat} (h : s.place! a t l hint = some u) : s.memStep u := by
  unfold place! at h
  split at h
  · cases h
  · rename_i v hv
    cases h
    exact memStep_trans (memStep_fillLine hv) (memStep_ite ⟨rfl, id⟩ (memStep_refl v))

theorem memStep_promote {s u : Dev} {a : Agent} {t : LineTag} {hint : Nat} (h : s.promote a t hint = some u) : s.memStep u := by
  unfold promote at h
  split at h
  · split at h
    · rename_i v hv
      cases h
      exact memStep_trans (memStep_place hv) ⟨rfl, id⟩
    · cases h
  · cases h

theorem memStep_evbToHome (s : Dev) (t : LineTag) : s.memStep (s.evbToHome t) := by
  unfold evbToHome
  split
  · exact memStep_trans (memStep_l3Put ..) (memStep_dirRemove ..)
  · exact memStep_refl s

theorem memStep_takeWriteBack (s : Dev) (t : LineTag) (a : Agent) (d : LineData) (p : Bool) : s.memStep (s.takeWriteBack t a d p) := by
  unfold takeWriteBack
  exact memStep_trans (memStep_takeEpoch s t) (memStep_ite
    (memStep_trans (memStep_trans (memStep_l3Put ..) (memStep_dirRemove ..)) (memStep_send ..)) (memStep_send ..))

theorem memStep_takeEvictClean (s : Dev) (t : LineTag) (a : Agent) : s.memStep (s.takeEvictClean t a) := by
  unfold takeEvictClean
  exact memStep_trans (memStep_takeEpoch s t) (memStep_ite (memStep_dirRemove ..) (memStep_send ..))

theorem memStep_takeEviction (s : Dev) (m : Msg) : s.memStep (s.takeEviction m) := by
  cases m <;> simp only [takeEviction]
  case writeBack => exact memStep_trans (memStep_receive ..) (memStep_takeWriteBack ..)
  case evictClean => exact memStep_trans (memStep_receive ..) (memStep_takeEvictClean ..)
  all_goals exact memStep_refl s

theorem memStep_evictionAnswered (s : Dev) (m : Msg) : s.memStep (s.evictionAnswered m) := by
  cases m <;> simp only [evictionAnswered]
  case wbAck => exact memStep_trans (memStep_receive ..) (memStep_setEvb ..)
  case wbSuperseded => exact memStep_trans (memStep_trans (memStep_receive ..) (memStep_setEvb ..)) (memStep_ite (memStep_bump ..) (memStep_refl _))
  case evictAck => exact memStep_receive ..
  all_goals exact memStep_refl s

theorem memStep_flushOwn (s : Dev) (a : Agent) (t : LineTag) : s.memStep (s.flushOwn a t) := by
  unfold flushOwn
  exact memStep_trans (memStep_foldl _ memStep_takeEviction _ _) (memStep_foldl _ memStep_evictionAnswered _ _)

theorem memStep_snoopOwner (s : Dev) (a : Option Agent) (t : LineTag) : s.memStep (s.snoopOwner a t) := by
  unfold snoopOwner
  split
  · exact memStep_ite (memStep_refl s) (memStep_dropSideOf ..)
  · exact memStep_refl s

/-- Obtaining a line keeps to the memory system, but for the records of its read. -/
theorem memStep_obtain (s : Dev) (a : Agent) (t : LineTag) : s.memStep (s.obtain a t).1 := by
  unfold obtain
  dsimp only
  have h0 := memStep_trans (memStep_flushOwn s a t) (memStep_takeEpoch (s.flushOwn a t) t)
  generalize ((s.flushOwn a t).takeEpoch t).1 = d at *
  split
  · rename_i o l _
    refine memStep_trans h0 (memStep_trans (memStep_dropSideOf d t [o.val]) ?_)
    generalize d.dropSideOf t [o.val] = e
    have h1 := memStep_setLine e o t (some { l with st := if decide (l.st = .m) || decide (l.st = .o) then .o else .s, written := 0 })
    generalize e.setLine o t (some { l with st := if decide (l.st = .m) || decide (l.st = .o) then .o else .s, written := 0 }) = v at *
    exact memStep_trans h1 (memStep_ite (memStep_trans (memStep_l3Put ..) (memStep_putDir ..)) (memStep_putDir ..))
  · have h1 := memStep_trans h0 (memStep_snoopOwner d (some a) t)
    generalize d.snoopOwner (some a) t = u at *
    have h2 := memStep_trans h1 (memStep_trans (memStep_evbToHome u t) (memStep_homeRead (u.evbToHome t) t none))
    generalize (u.evbToHome t).homeRead t none = r at *
    split <;> exact memStep_trans h2 (memStep_putDir ..)

theorem memStep_touch (s : Dev) (a : Agent) (t : LineTag) (l : CacheLine) : s.memStep (s.touch a t l) := by
  unfold touch
  exact memStep_trans (memStep_stamp s) (memStep_trans (memStep_ite (memStep_bump ..) (memStep_refl _)) (memStep_setLine ..))

theorem memStep_joinFlight (s : Dev) (a : Agent) (who : Nat) (t : LineTag) (f : InFlight) (h : Nat) : s.memStep (s.joinFlight a who t f h) := by
  unfold joinFlight
  split
  · exact memStep_ite (memStep_refl s) ⟨rfl, id⟩
  · exact memStep_refl s

theorem memStep_evbWait (s : Dev) (a : Agent) : s.memStep (s.evbWait a) := memStep_ite (memStep_bump ..) (memStep_refl s)

theorem memStep_takeEntry (s : Dev) (a : Agent) (who : Nat) (t : LineTag) : s.memStep (s.takeEntry a who t).1 := by
  unfold takeEntry
  dsimp only
  split
  · exact memStep_modAgent ..
  · exact memStep_trans (memStep_modAgent ..) (memStep_trans (memStep_ite (memStep_bump ..) (memStep_refl _)) (memStep_bump ..))

theorem memStep_forgetEntry (s : Dev) (a : Agent) (who : Nat) (t : LineTag) : s.memStep (s.forgetEntry a who t) :=
  memStep_ite (memStep_modAgent ..) (memStep_refl s)

theorem memStep_demandRead (s : Dev) (a : Agent) (who : Nat) (t : LineTag) (hint : Nat) : s.memStep (s.demandRead a who t hint).1 := by
  unfold demandRead
  split
  · exact memStep_trans (memStep_forgetEntry s a who t) (memStep_touch ..)
  · split
    · split
      · rename_i u hu
        exact memStep_promote hu
      · exact memStep_evbWait ..
    · split
      · exact memStep_joinFlight ..
      · split
        · exact memStep_refl s
        · split
          · exact memStep_evbWait ..
          · have h0 := memStep_takeEntry s a who t
            split
            · rename_i hu; rw [hu] at h0; exact h0
            · rename_i u hu
              rw [hu] at h0
              dsimp only
              have h1 := memStep_trans h0 (memStep_trans (memStep_bump u 8 0x101 a.val 1) (memStep_obtain (u.bump 8 0x101 a.val 1) a t))
              generalize (u.bump 8 0x101 a.val 1).obtain a t = r at *
              split
              · rename_i v hv
                exact memStep_trans h1 (memStep_place hv)
              · exact memStep_trans h1 (memStep_trans (memStep_dirRemove ..) (memStep_evbWait ..))

theorem memStep_onceRead (s : Dev) (t : LineTag) : s.memStep (s.onceRead t) := by
  unfold onceRead
  refine memStep_trans (memStep_takeEpoch s t) (memStep_trans (memStep_snoopOwner _ none t) ?_)
  exact memStep_ite (memStep_refl _) (memStep_ite (memStep_evbToHome ..) (memStep_homeRead ..))

/-- A fold that carries a flag beside the state keeps to the memory system where each step does. -/
theorem memStep_foldFlag {α : Type} (f : Dev × Bool → α → Dev × Bool) (hf : ∀ (x : Dev × Bool) (a : α), x.1.memStep (f x a).1) (l : List α) (x : Dev × Bool) :
    x.1.memStep (l.foldl f x).1 := by
  induction l generalizing x with
  | nil => exact memStep_refl _
  | cons a l ih => exact memStep_trans (hf x a) (ih (f x a))

theorem memStep_readLines (s : Dev) (d : Die) (who hint : Nat) (ts : List LineTag) : s.memStep (s.readLines d who hint ts).1 := by
  unfold readLines
  dsimp only
  split
  · exact memStep_foldl _ (fun s t => memStep_onceRead s t) _ _
  · rename_i a _
    have h0 := memStep_foldFlag (fun (x : Dev × Bool) t => ((x.1.demandRead a who t hint).1, x.2 && (x.1.demandRead a who t hint).2))
      (fun x t => memStep_demandRead x.1 a who t hint) (ts.eraseDups.filter (fun t => (s.lineAt a t).isNone)) (s, true)
    split
    · exact memStep_trans h0 (memStep_foldl _ (fun s t => memStep_demandRead s a who t hint) _ _)
    · exact h0

theorem memStep_joinRequest (s : Dev) (m : MmuId) (die : Die) (asid vpn : Nat) (w : WaitingStream) :
    s.memStep (s.joinRequest m die asid vpn w) := by
  unfold joinRequest
  split
  · exact memStep_refl s
  · exact memStep_ite (memStep_refl s) (memStep_trans (memStep_modMmu ..)
      (memStep_ite (memStep_refl _) (memStep_ite (memStep_dropRecord ..) (memStep_ite (memStep_writeRecord ..) (memStep_modMmu ..)))))

/-- A miss opens or joins a miss entry or a page request. -/
theorem memStep_missFor (s : Dev) (p : Port) (va : Nat) (want : Rights) (l : List (Option SlotId)) : s.memStep (s.missFor p va want l) := by
  unfold missFor
  dsimp only
  split
  · refine memStep_ite (memStep_refl s) (memStep_trans (memStep_ite (memStep_refl s) (memStep_bump ..))
      (memStep_trans (memStep_modXl ..) (memStep_ite (memStep_joinRequest ..) (memStep_refl _))))
  · exact memStep_ite (memStep_trans (memStep_bump ..) (memStep_modXl ..)) (memStep_bump ..)

theorem memStep_miss (s : Dev) (p : Port) (va : Nat) (want : Rights) : s.memStep (s.miss p va want) := memStep_missFor ..

theorem memStep_countHits (s : Dev) (p : Port) (ps : List Piece) : s.memStep (s.countHits p ps) := memStep_ite (memStep_refl s) (memStep_bump ..)

/-- A port that keeps nothing leaves every operation as it is. -/
theorem keepRead_off (s : Dev) (p : Port) (h : p.keep = false) (runs : List (Nat × Nat)) (d : List (List Byte)) (r : Bool) :
    s.keepRead p runs d r = s := by
  unfold keepRead; rw [h]

theorem keptRead_off (s : Dev) (p : Port) (h : p.keep = false) (runs : List (Nat × Nat)) : s.keptRead p runs = none := by
  unfold keptRead; rw [h]; rfl

theorem memStep_reportRealm (s : Dev) (p : Port) (va c r : Nat) : s.memStep (s.reportRealm p va c r) :=
  memStep_trans (memStep_report ..) (memStep_bump ..)

/-- Translating the pages of an access changes no queue, operation or engine. -/
theorem memStep_translateAll (p : Port) (want : Rights) (l : List (Nat × Nat)) (s : Dev) : s.memStep (s.translateAll p want l).1 := by
  induction l generalizing s with
  | nil => exact memStep_refl s
  | cons x rest ih =>
    obtain ⟨va, len⟩ := x
    unfold translateAll
    split
    · exact memStep_report ..
    · split
      · dsimp only
        split
        · exact memStep_reportRealm ..
        · split
          · exact memStep_report ..
          · have h0 := ih s
            split
            · rename_i u v hu
              rw [hu] at h0
              split <;> exact h0
            · exact h0
      · have h0 := memStep_trans (memStep_miss s p va want) (ih (s.miss p va want))
        split <;> (rename_i hu; rw [hu] at h0; exact h0)

/-- The pages of an access held in no cache, or fetched: a read of translated pieces keeps to the memory system. -/
theorem memStep_readPieces (s : Dev) (p : Port) (ps : List Piece) : s.memStep (s.readPieces p ps).1 := by
  unfold readPieces
  split
  · exact memStep_refl s
  · have h0 := memStep_readLines s p.die (requesterOf p.stream) p.hint (pieceLines ps)
    split
    · rename_i hu; rw [hu] at h0; exact h0
    · rename_i u hu
      rw [hu] at h0
      split <;> exact h0

/-- An engine's read through a port that keeps nothing changes no queue, operation or engine. -/
theorem memStep_readVaR (s : Dev) (p : Port) (hk : p.keep = false) (va n : Nat) : s.memStep (s.readVaR p va n).1 := by
  unfold readVaR
  rw [keptRead_off s p hk]
  dsimp only
  have h0 := memStep_translateAll p wantRead (pagePieces va n (n / 4096 + 2)) s
  split
  · rename_i u ps hu
    rw [hu] at h0
    have h1 := memStep_trans h0 (memStep_readPieces u p ps)
    split
    · rename_i v d hv
      rw [hv] at h1
      rw [keepRead_off _ _ hk]
      exact memStep_trans h1 (memStep_countHits ..)
    · rename_i hv; rw [hv] at h1; exact h1
    · rename_i hv; rw [hv] at h1; exact h1
  · rename_i u hu
    rw [hu] at h0; exact h0
  · rename_i u r a hu
    rw [hu] at h0; exact h0

theorem memStep_readVa (s : Dev) (p : Port) (hk : p.keep = false) (va n : Nat) : s.memStep (s.readVa p va n).1 := by
  unfold readVa
  have h0 := memStep_readVaR s p hk va n
  split <;> (rename_i hu; rw [hu] at h0; exact h0)

theorem memStep_ctxFill (s : Dev) (m : MmuId) (asid : Nat) : s.memStep (s.ctxFill m asid) := memStep_ite (memStep_refl s) (memStep_modMmu ..)

theorem memStep_readDesc (s : Dev) (p : Port) (hk : p.keep = false) (h : Nat) : s.memStep (s.readDesc p h).1 := by
  unfold readDesc
  split
  · exact memStep_refl s
  · rename_i c hc
    have h0 := memStep_trans (memStep_ctxFill s (mmuOf p.die) p.asid) (memStep_readVa (s.ctxFill (mmuOf p.die) p.asid) p hk (c.dtBase + 64 * h) 64)
    split <;> (rename_i hu; rw [hu] at h0; exact h0)

/-- Reading what a handle names changes no queue, operation or engine. -/
theorem memStep_named {α : Type} (s : Dev) (p : Port) (hk : p.keep = false) (h : Nat) (f : Nat → Option α) : s.memStep (s.named p h f).1 := by
  unfold named
  split
  · exact memStep_refl s
  · have h0 := memStep_readDesc s p hk h
    split
    · rename_i hu
      rw [hu] at h0
      split <;> exact h0
    · rename_i hu; rw [hu] at h0; exact h0
    · rename_i hu; rw [hu] at h0; exact h0

theorem memStep_namedBytes (s : Dev) (p : Port) (hk : p.keep = false) (h : Nat) : s.memStep (s.namedBytes p h).1 := memStep_named _ _ hk ..

/-- What goes on from a value keeps to the memory system where both parts do. -/
theorem memStep_andThen {α β : Type} {s : Dev} (r : Dev × Named α) (f : Dev → α → Dev × Named β) (h : s.memStep r.1)
    (hf : ∀ (u : Dev) (a : α), u.memStep (f u a).1) : s.memStep (Named.andThen r f).1 := by
  obtain ⟨u, x⟩ := r
  cases x with
  | ok a => exact memStep_trans h (hf u a)
  | wait => exact h
  | fail c a => exact h
  | invalid => exact h

theorem memStep_withScale (s : Dev) (p : Port) (hk : p.keep = false) (t : Tensor) : s.memStep (s.withScale p t).1 := by
  unfold withScale
  split
  · exact memStep_refl s
  · refine memStep_andThen _ _ (memStep_named _ _ hk ..) (fun u x => ?_)
    split <;> exact memStep_refl u

theorem memStep_namedTensor (s : Dev) (p : Port) (hk : p.keep = false) (h : Nat) : s.memStep (s.namedTensor p h).1 :=
  memStep_andThen _ _ (memStep_named _ _ hk ..) (fun u t => memStep_withScale u p hk t)

theorem memStep_invOthers (s : Dev) (a : Agent) (t : LineTag) : s.memStep (s.invOthers a t).1 := by
  unfold invOthers
  dsimp only
  refine memStep_trans ?_ (memStep_dropSideOf ..)
  refine memStep_trans ?_ (memStep_foldl _ (fun s b => by split <;> first | exact memStep_refl s | exact memStep_setLine ..) _ _)
  split
  · exact memStep_l3Put ..
  · exact memStep_refl s

theorem memStep_ownWrite {s u : Dev} {a : Agent} {t : LineTag} {off : Nat} {b : List Byte} {part hint : Nat}
    (h : s.ownWrite a t off b part hint = some u) : s.memStep u := by
  unfold ownWrite at h
  split at h
  · split at h
    · cases h; exact memStep_trans (memStep_touch ..) (memStep_setLine ..)
    · cases h
      exact memStep_trans (memStep_takeEpoch s t) (memStep_trans (memStep_invOthers ..) (memStep_trans (memStep_putDir ..)
        (memStep_trans (memStep_stamp _) (memStep_setLine ..))))
  · dsimp only at h
    have h0 := memStep_trans (memStep_flushOwn s a t) (memStep_trans (memStep_bump (s.flushOwn a t) 8 0x101 a.val 1)
      (memStep_takeEpoch ((s.flushOwn a t).bump 8 0x101 a.val 1) t))
    generalize (((s.flushOwn a t).bump 8 0x101 a.val 1).takeEpoch t).1 = d at *
    have h1 := memStep_trans h0 (memStep_invOthers d a t)
    generalize d.invOthers a t = e at *
    refine memStep_trans (memStep_trans h1 ?_) (memStep_trans (memStep_putDir ..) (memStep_place h))
    split
    · exact memStep_refl _
    · split
      · exact memStep_refl _
      · exact memStep_homeRead ..

/-- An engine's write of bytes within a line keeps to the memory system. -/
theorem memStep_writeLine {s u : Dev} {die : Die} {stream hint : Nat} {w : LineWrite} (h : s.writeLine die stream hint w = some u) :
    s.memStep u := by
  unfold writeLine at h
  split at h
  · split at h
    · injection h with h
      rw [← h]
      rename_i a _ _
      have h0 := memStep_flushOwn s a w.line
      generalize s.flushOwn a w.line = d at *
      exact memStep_trans h0 (memStep_pushWrite d _ _ _ _ _)
    · exact memStep_ownWrite h
  · injection h with h
    rw [← h]
    exact memStep_pushWrite ..

theorem memStep_writeLines {s u : Dev} {die : Die} {stream hint : Nat} {ws : List LineWrite} (h : s.writeLines die stream hint ws = some u) :
    s.memStep u := by
  unfold writeLines at h
  suffices h2 : ∀ (ws : List LineWrite) (o : Option Dev), ws.foldl (fun acc w => acc.bind (fun s => s.writeLine die stream hint w)) o = some u →
      ∃ v, o = some v ∧ v.memStep u by
    obtain ⟨v, hv, hu⟩ := h2 ws _ h
    cases hv; exact hu
  intro ws
  induction ws with
  | nil => intro o h; exact ⟨u, h, memStep_refl u⟩
  | cons w ws ih =>
    intro o h
    rw [List.foldl_cons] at h
    obtain ⟨v, hv, hu⟩ := ih _ h
    cases o with
    | none => cases hv
    | some s => exact ⟨s, rfl, memStep_trans (memStep_writeLine hv) hu⟩

theorem memStep_writePieces {s u : Dev} {p : Port} {hint : Nat} {ps : List Piece} {b : List Byte} {part : List Nat}
    (h : s.writePieces p hint ps b part = some u) : s.memStep u := memStep_writeLines h

theorem memStep_readyLine (s : Dev) (a : Agent) (who : Nat) (t : LineTag) (hint : Nat) : s.memStep (s.readyLine a who t hint).1 := by
  unfold readyLine
  split
  · exact memStep_refl s
  · split
    · split
      · exact memStep_refl s
      · exact memStep_takeEntry ..
    · split
      · split
        · rename_i u hu
          exact memStep_trans (memStep_promote hu) (memStep_takeEntry ..)
        · exact memStep_evbWait ..
      · split
        · exact memStep_joinFlight ..
        · split
          · exact memStep_refl s
          · split
            · exact memStep_evbWait ..
            · exact memStep_takeEntry ..

theorem memStep_readyLines (s : Dev) (d : Die) (who hint : Nat) (ts : List LineTag) : s.memStep (s.readyLines d who hint ts).1 := by
  unfold readyLines
  split
  · exact memStep_refl s
  · rename_i a _
    exact memStep_foldFlag (fun (x : Dev × Bool) t => ((x.1.readyLine a who t hint).1, x.2 && (x.1.readyLine a who t hint).2))
      (fun x t => memStep_readyLine x.1 a who t hint) ts.eraseDups (s, true)

theorem memStep_writeWait (s : Dev) (d : Die) : s.memStep (s.writeWait d) := by
  unfold writeWait
  split
  · exact memStep_evbWait ..
  · exact memStep_refl s

theorem memStep_holdWrite (s : Dev) (p : Port) (hint : Nat) (e : Bool) (want : Rights) (l : List (Nat × Nat)) :
    s.memStep (s.holdWrite p hint e want l).1 := by
  unfold holdWrite
  have h0 := memStep_translateAll p want (l.flatMap (fun r => pagePieces r.1 r.2 (r.2 / 4096 + 2))) s
  split
  · rename_i u ps hu
    rw [hu] at h0
    split
    · exact memStep_trans h0 (memStep_reportRealm ..)
    · split
      · exact h0
      · have h1 := memStep_trans h0 (memStep_readyLines u p.die (requesterOf p.stream) hint (pieceLines ps))
        split
        · rename_i hv; rw [hv] at h1; exact memStep_trans h1 (memStep_countHits ..)
        · rename_i hv; rw [hv] at h1; exact h1
  · exact h0

/-- An engine's write of a unit changes no queue, operation or engine. -/
theorem memStep_writeUnit (s : Dev) (p : Port) (hint : Nat) (e : Bool) (runs : List (Nat × List Byte)) : s.memStep (s.writeUnit p hint e runs).1 := by
  unfold writeUnit
  have h0 := memStep_holdWrite s p hint e wantWrite (runs.map (fun r => (r.1, r.2.length)))
  split
  · rename_i u ps hu
    rw [hu] at h0
    split
    · rename_i v hv
      exact memStep_trans h0 (memStep_writePieces hv)
    · exact memStep_trans h0 (memStep_writeWait ..)
  · rename_i hu; rw [hu] at h0; exact h0
  · rename_i hu; rw [hu] at h0; exact h0

end Dev

end Sys2Proof.Machine
end

