-- ==== Sys2Proof/Laws/Units.lean ====
section
/-! SUPPORT. Laws/Units.lean: one lemma for each field under each update of a unit of the fabric, the caches, the sheaf array, the relay queues
and the service engines, and of the parts of State beyond Dev; and what a unit reads after it has been put. -/

namespace Sys2Proof.Machine

variable (s : Dev)

@[simp] theorem Dev.modThr_now (f : Throttles → Throttles) : (s.modThr f).now = s.now := rfl
@[simp] theorem Dev.modThr_fresh (f : Throttles → Throttles) : (s.modThr f).fresh = s.fresh := rfl
@[simp] theorem Dev.modThr_obj (f : Throttles → Throttles) : (s.modThr f).obj = s.obj := rfl
@[simp] theorem Dev.modThr_copies (f : Throttles → Throttles) : (s.modThr f).copies = s.copies := rfl
@[simp] theorem Dev.modThr_windows (f : Throttles → Throttles) : (s.modThr f).windows = s.windows := rfl
@[simp] theorem Dev.modThr_mem (f : Throttles → Throttles) : (s.modThr f).mem = s.mem := rfl
@[simp] theorem Dev.modThr_xl (f : Throttles → Throttles) : (s.modThr f).xl = s.xl := rfl
@[simp] theorem Dev.modThr_cmd (f : Throttles → Throttles) : (s.modThr f).cmd = s.cmd := rfl
@[simp] theorem Dev.modThr_svc (f : Throttles → Throttles) : (s.modThr f).svc = s.svc := rfl
@[simp] theorem Dev.modThr_shf (f : Throttles → Throttles) : (s.modThr f).shf = s.shf := rfl
@[simp] theorem Dev.modThr_relays (f : Throttles → Throttles) : (s.modThr f).relays = s.relays := rfl
@[simp] theorem Dev.modThr_fab (f : Throttles → Throttles) : (s.modThr f).fab = s.fab := rfl
@[simp] theorem Dev.modThr_eventLog (f : Throttles → Throttles) : (s.modThr f).eventLog = s.eventLog := rfl
@[simp] theorem Dev.modThr_eventsOut (f : Throttles → Throttles) : (s.modThr f).eventsOut = s.eventsOut := rfl
@[simp] theorem Dev.modThr_reply (f : Throttles → Throttles) : (s.modThr f).reply = s.reply := rfl
@[simp] theorem Dev.modThr_resetDue (f : Throttles → Throttles) : (s.modThr f).resetDue = s.resetDue := rfl

@[simp] theorem Dev.modFab_now (f : FabricState → FabricState) : (s.modFab f).now = s.now := rfl
@[simp] theorem Dev.modFab_fresh (f : FabricState → FabricState) : (s.modFab f).fresh = s.fresh := rfl
@[simp] theorem Dev.modFab_obj (f : FabricState → FabricState) : (s.modFab f).obj = s.obj := rfl
@[simp] theorem Dev.modFab_copies (f : FabricState → FabricState) : (s.modFab f).copies = s.copies := rfl
@[simp] theorem Dev.modFab_windows (f : FabricState → FabricState) : (s.modFab f).windows = s.windows := rfl
@[simp] theorem Dev.modFab_thr (f : FabricState → FabricState) : (s.modFab f).thr = s.thr := rfl
@[simp] theorem Dev.modFab_mem (f : FabricState → FabricState) : (s.modFab f).mem = s.mem := rfl
@[simp] theorem Dev.modFab_xl (f : FabricState → FabricState) : (s.modFab f).xl = s.xl := rfl
@[simp] theorem Dev.modFab_cmd (f : FabricState → FabricState) : (s.modFab f).cmd = s.cmd := rfl
@[simp] theorem Dev.modFab_svc (f : FabricState → FabricState) : (s.modFab f).svc = s.svc := rfl
@[simp] theorem Dev.modFab_shf (f : FabricState → FabricState) : (s.modFab f).shf = s.shf := rfl
@[simp] theorem Dev.modFab_relays (f : FabricState → FabricState) : (s.modFab f).relays = s.relays := rfl
@[simp] theorem Dev.modFab_eventLog (f : FabricState → FabricState) : (s.modFab f).eventLog = s.eventLog := rfl
@[simp] theorem Dev.modFab_eventsOut (f : FabricState → FabricState) : (s.modFab f).eventsOut = s.eventsOut := rfl
@[simp] theorem Dev.modFab_reply (f : FabricState → FabricState) : (s.modFab f).reply = s.reply := rfl
@[simp] theorem Dev.modFab_resetDue (f : FabricState → FabricState) : (s.modFab f).resetDue = s.resetDue := rfl

@[simp] theorem Dev.modPort_now (die port : Nat) (f : D2dPort → D2dPort) : (s.modPort die port f).now = s.now := rfl
@[simp] theorem Dev.modPort_fresh (die port : Nat) (f : D2dPort → D2dPort) : (s.modPort die port f).fresh = s.fresh := rfl
@[simp] theorem Dev.modPort_obj (die port : Nat) (f : D2dPort → D2dPort) : (s.modPort die port f).obj = s.obj := rfl
@[simp] theorem Dev.modPort_copies (die port : Nat) (f : D2dPort → D2dPort) : (s.modPort die port f).copies = s.copies := rfl
@[simp] theorem Dev.modPort_windows (die port : Nat) (f : D2dPort → D2dPort) : (s.modPort die port f).windows = s.windows := rfl
@[simp] theorem Dev.modPort_thr (die port : Nat) (f : D2dPort → D2dPort) : (s.modPort die port f).thr = s.thr := rfl
@[simp] theorem Dev.modPort_mem (die port : Nat) (f : D2dPort → D2dPort) : (s.modPort die port f).mem = s.mem := rfl
@[simp] theorem Dev.modPort_xl (die port : Nat) (f : D2dPort → D2dPort) : (s.modPort die port f).xl = s.xl := rfl
@[simp] theorem Dev.modPort_cmd (die port : Nat) (f : D2dPort → D2dPort) : (s.modPort die port f).cmd = s.cmd := rfl
@[simp] theorem Dev.modPort_svc (die port : Nat) (f : D2dPort → D2dPort) : (s.modPort die port f).svc = s.svc := rfl
@[simp] theorem Dev.modPort_shf (die port : Nat) (f : D2dPort → D2dPort) : (s.modPort die port f).shf = s.shf := rfl
@[simp] theorem Dev.modPort_relays (die port : Nat) (f : D2dPort → D2dPort) : (s.modPort die port f).relays = s.relays := rfl
@[simp] theorem Dev.modPort_eventLog (die port : Nat) (f : D2dPort → D2dPort) : (s.modPort die port f).eventLog = s.eventLog := rfl
@[simp] theorem Dev.modPort_eventsOut (die port : Nat) (f : D2dPort → D2dPort) : (s.modPort die port f).eventsOut = s.eventsOut := rfl
@[simp] theorem Dev.modPort_reply (die port : Nat) (f : D2dPort → D2dPort) : (s.modPort die port f).reply = s.reply := rfl
@[simp] theorem Dev.modPort_resetDue (die port : Nat) (f : D2dPort → D2dPort) : (s.modPort die port f).resetDue = s.resetDue := rfl

@[simp] theorem Dev.setLink_now (l : LinkId) (x : Link) : (s.setLink l x).now = s.now := rfl
@[simp] theorem Dev.setLink_fresh (l : LinkId) (x : Link) : (s.setLink l x).fresh = s.fresh := rfl
@[simp] theorem Dev.setLink_obj (l : LinkId) (x : Link) : (s.setLink l x).obj = s.obj := rfl
@[simp] theorem Dev.setLink_copies (l : LinkId) (x : Link) : (s.setLink l x).copies = s.copies := rfl
@[simp] theorem Dev.setLink_windows (l : LinkId) (x : Link) : (s.setLink l x).windows = s.windows := rfl
@[simp] theorem Dev.setLink_thr (l : LinkId) (x : Link) : (s.setLink l x).thr = s.thr := rfl
@[simp] theorem Dev.setLink_mem (l : LinkId) (x : Link) : (s.setLink l x).mem = s.mem := rfl
@[simp] theorem Dev.setLink_xl (l : LinkId) (x : Link) : (s.setLink l x).xl = s.xl := rfl
@[simp] theorem Dev.setLink_cmd (l : LinkId) (x : Link) : (s.setLink l x).cmd = s.cmd := rfl
@[simp] theorem Dev.setLink_svc (l : LinkId) (x : Link) : (s.setLink l x).svc = s.svc := rfl
@[simp] theorem Dev.setLink_shf (l : LinkId) (x : Link) : (s.setLink l x).shf = s.shf := rfl
@[simp] theorem Dev.setLink_relays (l : LinkId) (x : Link) : (s.setLink l x).relays = s.relays := rfl
@[simp] theorem Dev.setLink_eventLog (l : LinkId) (x : Link) : (s.setLink l x).eventLog = s.eventLog := rfl
@[simp] theorem Dev.setLink_eventsOut (l : LinkId) (x : Link) : (s.setLink l x).eventsOut = s.eventsOut := rfl
@[simp] theorem Dev.setLink_reply (l : LinkId) (x : Link) : (s.setLink l x).reply = s.reply := rfl
@[simp] theorem Dev.setLink_resetDue (l : LinkId) (x : Link) : (s.setLink l x).resetDue = s.resetDue := rfl

@[simp] theorem Dev.setWindow_now (w : Nat) (x : Window) : (s.setWindow w x).now = s.now := rfl
@[simp] theorem Dev.setWindow_fresh (w : Nat) (x : Window) : (s.setWindow w x).fresh = s.fresh := rfl
@[simp] theorem Dev.setWindow_obj (w : Nat) (x : Window) : (s.setWindow w x).obj = s.obj := rfl
@[simp] theorem Dev.setWindow_copies (w : Nat) (x : Window) : (s.setWindow w x).copies = s.copies := rfl
@[simp] theorem Dev.setWindow_windows (w : Nat) (x : Window) : (s.setWindow w x).windows = s.windows := rfl
@[simp] theorem Dev.setWindow_thr (w : Nat) (x : Window) : (s.setWindow w x).thr = s.thr := rfl
@[simp] theorem Dev.setWindow_mem (w : Nat) (x : Window) : (s.setWindow w x).mem = s.mem := rfl
@[simp] theorem Dev.setWindow_xl (w : Nat) (x : Window) : (s.setWindow w x).xl = s.xl := rfl
@[simp] theorem Dev.setWindow_cmd (w : Nat) (x : Window) : (s.setWindow w x).cmd = s.cmd := rfl
@[simp] theorem Dev.setWindow_svc (w : Nat) (x : Window) : (s.setWindow w x).svc = s.svc := rfl
@[simp] theorem Dev.setWindow_shf (w : Nat) (x : Window) : (s.setWindow w x).shf = s.shf := rfl
@[simp] theorem Dev.setWindow_relays (w : Nat) (x : Window) : (s.setWindow w x).relays = s.relays := rfl
@[simp] theorem Dev.setWindow_eventLog (w : Nat) (x : Window) : (s.setWindow w x).eventLog = s.eventLog := rfl
@[simp] theorem Dev.setWindow_eventsOut (w : Nat) (x : Window) : (s.setWindow w x).eventsOut = s.eventsOut := rfl
@[simp] theorem Dev.setWindow_reply (w : Nat) (x : Window) : (s.setWindow w x).reply = s.reply := rfl
@[simp] theorem Dev.setWindow_resetDue (w : Nat) (x : Window) : (s.setWindow w x).resetDue = s.resetDue := rfl

@[simp] theorem Dev.setSide_now (d : Fin 8) (t : LineTag) (x : Option SideLine) : (s.setSide d t x).now = s.now := rfl
@[simp] theorem Dev.setSide_fresh (d : Fin 8) (t : LineTag) (x : Option SideLine) : (s.setSide d t x).fresh = s.fresh := rfl
@[simp] theorem Dev.setSide_obj (d : Fin 8) (t : LineTag) (x : Option SideLine) : (s.setSide d t x).obj = s.obj := rfl
@[simp] theorem Dev.setSide_copies (d : Fin 8) (t : LineTag) (x : Option SideLine) : (s.setSide d t x).copies = s.copies := rfl
@[simp] theorem Dev.setSide_windows (d : Fin 8) (t : LineTag) (x : Option SideLine) : (s.setSide d t x).windows = s.windows := rfl
@[simp] theorem Dev.setSide_thr (d : Fin 8) (t : LineTag) (x : Option SideLine) : (s.setSide d t x).thr = s.thr := rfl
@[simp] theorem Dev.setSide_xl (d : Fin 8) (t : LineTag) (x : Option SideLine) : (s.setSide d t x).xl = s.xl := rfl
@[simp] theorem Dev.setSide_cmd (d : Fin 8) (t : LineTag) (x : Option SideLine) : (s.setSide d t x).cmd = s.cmd := rfl
@[simp] theorem Dev.setSide_svc (d : Fin 8) (t : LineTag) (x : Option SideLine) : (s.setSide d t x).svc = s.svc := rfl
@[simp] theorem Dev.setSide_shf (d : Fin 8) (t : LineTag) (x : Option SideLine) : (s.setSide d t x).shf = s.shf := rfl
@[simp] theorem Dev.setSide_relays (d : Fin 8) (t : LineTag) (x : Option SideLine) : (s.setSide d t x).relays = s.relays := rfl
@[simp] theorem Dev.setSide_fab (d : Fin 8) (t : LineTag) (x : Option SideLine) : (s.setSide d t x).fab = s.fab := rfl
@[simp] theorem Dev.setSide_eventLog (d : Fin 8) (t : LineTag) (x : Option SideLine) : (s.setSide d t x).eventLog = s.eventLog := rfl
@[simp] theorem Dev.setSide_eventsOut (d : Fin 8) (t : LineTag) (x : Option SideLine) : (s.setSide d t x).eventsOut = s.eventsOut := rfl
@[simp] theorem Dev.setSide_reply (d : Fin 8) (t : LineTag) (x : Option SideLine) : (s.setSide d t x).reply = s.reply := rfl
@[simp] theorem Dev.setSide_resetDue (d : Fin 8) (t : LineTag) (x : Option SideLine) : (s.setSide d t x).resetDue = s.resetDue := rfl

@[simp] theorem Dev.setFlight_now (d : Fin 8) (t : LineTag) (x : Option InFlight) : (s.setFlight d t x).now = s.now := rfl
@[simp] theorem Dev.setFlight_fresh (d : Fin 8) (t : LineTag) (x : Option InFlight) : (s.setFlight d t x).fresh = s.fresh := rfl
@[simp] theorem Dev.setFlight_obj (d : Fin 8) (t : LineTag) (x : Option InFlight) : (s.setFlight d t x).obj = s.obj := rfl
@[simp] theorem Dev.setFlight_copies (d : Fin 8) (t : LineTag) (x : Option InFlight) : (s.setFlight d t x).copies = s.copies := rfl
@[simp] theorem Dev.setFlight_windows (d : Fin 8) (t : LineTag) (x : Option InFlight) : (s.setFlight d t x).windows = s.windows := rfl
@[simp] theorem Dev.setFlight_thr (d : Fin 8) (t : LineTag) (x : Option InFlight) : (s.setFlight d t x).thr = s.thr := rfl
@[simp] theorem Dev.setFlight_xl (d : Fin 8) (t : LineTag) (x : Option InFlight) : (s.setFlight d t x).xl = s.xl := rfl
@[simp] theorem Dev.setFlight_cmd (d : Fin 8) (t : LineTag) (x : Option InFlight) : (s.setFlight d t x).cmd = s.cmd := rfl
@[simp] theorem Dev.setFlight_svc (d : Fin 8) (t : LineTag) (x : Option InFlight) : (s.setFlight d t x).svc = s.svc := rfl
@[simp] theorem Dev.setFlight_shf (d : Fin 8) (t : LineTag) (x : Option InFlight) : (s.setFlight d t x).shf = s.shf := rfl
@[simp] theorem Dev.setFlight_relays (d : Fin 8) (t : LineTag) (x : Option InFlight) : (s.setFlight d t x).relays = s.relays := rfl
@[simp] theorem Dev.setFlight_fab (d : Fin 8) (t : LineTag) (x : Option InFlight) : (s.setFlight d t x).fab = s.fab := rfl
@[simp] theorem Dev.setFlight_eventLog (d : Fin 8) (t : LineTag) (x : Option InFlight) : (s.setFlight d t x).eventLog = s.eventLog := rfl
@[simp] theorem Dev.setFlight_eventsOut (d : Fin 8) (t : LineTag) (x : Option InFlight) : (s.setFlight d t x).eventsOut = s.eventsOut := rfl
@[simp] theorem Dev.setFlight_reply (d : Fin 8) (t : LineTag) (x : Option InFlight) : (s.setFlight d t x).reply = s.reply := rfl
@[simp] theorem Dev.setFlight_resetDue (d : Fin 8) (t : LineTag) (x : Option InFlight) : (s.setFlight d t x).resetDue = s.resetDue := rfl

@[simp] theorem Dev.setLine_now (a : Agent) (t : LineTag) (x : Option CacheLine) : (s.setLine a t x).now = s.now := rfl
@[simp] theorem Dev.setLine_fresh (a : Agent) (t : LineTag) (x : Option CacheLine) : (s.setLine a t x).fresh = s.fresh := rfl
@[simp] theorem Dev.setLine_obj (a : Agent) (t : LineTag) (x : Option CacheLine) : (s.setLine a t x).obj = s.obj := rfl
@[simp] theorem Dev.setLine_copies (a : Agent) (t : LineTag) (x : Option CacheLine) : (s.setLine a t x).copies = s.copies := rfl
@[simp] theorem Dev.setLine_windows (a : Agent) (t : LineTag) (x : Option CacheLine) : (s.setLine a t x).windows = s.windows := rfl
@[simp] theorem Dev.setLine_thr (a : Agent) (t : LineTag) (x : Option CacheLine) : (s.setLine a t x).thr = s.thr := rfl
@[simp] theorem Dev.setLine_xl (a : Agent) (t : LineTag) (x : Option CacheLine) : (s.setLine a t x).xl = s.xl := rfl
@[simp] theorem Dev.setLine_cmd (a : Agent) (t : LineTag) (x : Option CacheLine) : (s.setLine a t x).cmd = s.cmd := rfl
@[simp] theorem Dev.setLine_svc (a : Agent) (t : LineTag) (x : Option CacheLine) : (s.setLine a t x).svc = s.svc := rfl
@[simp] theorem Dev.setLine_shf (a : Agent) (t : LineTag) (x : Option CacheLine) : (s.setLine a t x).shf = s.shf := rfl
@[simp] theorem Dev.setLine_relays (a : Agent) (t : LineTag) (x : Option CacheLine) : (s.setLine a t x).relays = s.relays := rfl
@[simp] theorem Dev.setLine_fab (a : Agent) (t : LineTag) (x : Option CacheLine) : (s.setLine a t x).fab = s.fab := rfl
@[simp] theorem Dev.setLine_eventLog (a : Agent) (t : LineTag) (x : Option CacheLine) : (s.setLine a t x).eventLog = s.eventLog := rfl
@[simp] theorem Dev.setLine_eventsOut (a : Agent) (t : LineTag) (x : Option CacheLine) : (s.setLine a t x).eventsOut = s.eventsOut := rfl
@[simp] theorem Dev.setLine_reply (a : Agent) (t : LineTag) (x : Option CacheLine) : (s.setLine a t x).reply = s.reply := rfl
@[simp] theorem Dev.setLine_resetDue (a : Agent) (t : LineTag) (x : Option CacheLine) : (s.setLine a t x).resetDue = s.resetDue := rfl

@[simp] theorem Dev.setEvb_now (a : Agent) (t : LineTag) (x : Option EvbEntry) : (s.setEvb a t x).now = s.now := rfl
@[simp] theorem Dev.setEvb_fresh (a : Agent) (t : LineTag) (x : Option EvbEntry) : (s.setEvb a t x).fresh = s.fresh := rfl
@[simp] theorem Dev.setEvb_obj (a : Agent) (t : LineTag) (x : Option EvbEntry) : (s.setEvb a t x).obj = s.obj := rfl
@[simp] theorem Dev.setEvb_copies (a : Agent) (t : LineTag) (x : Option EvbEntry) : (s.setEvb a t x).copies = s.copies := rfl
@[simp] theorem Dev.setEvb_windows (a : Agent) (t : LineTag) (x : Option EvbEntry) : (s.setEvb a t x).windows = s.windows := rfl
@[simp] theorem Dev.setEvb_thr (a : Agent) (t : LineTag) (x : Option EvbEntry) : (s.setEvb a t x).thr = s.thr := rfl
@[simp] theorem Dev.setEvb_xl (a : Agent) (t : LineTag) (x : Option EvbEntry) : (s.setEvb a t x).xl = s.xl := rfl
@[simp] theorem Dev.setEvb_cmd (a : Agent) (t : LineTag) (x : Option EvbEntry) : (s.setEvb a t x).cmd = s.cmd := rfl
@[simp] theorem Dev.setEvb_svc (a : Agent) (t : LineTag) (x : Option EvbEntry) : (s.setEvb a t x).svc = s.svc := rfl
@[simp] theorem Dev.setEvb_shf (a : Agent) (t : LineTag) (x : Option EvbEntry) : (s.setEvb a t x).shf = s.shf := rfl
@[simp] theorem Dev.setEvb_relays (a : Agent) (t : LineTag) (x : Option EvbEntry) : (s.setEvb a t x).relays = s.relays := rfl
@[simp] theorem Dev.setEvb_fab (a : Agent) (t : LineTag) (x : Option EvbEntry) : (s.setEvb a t x).fab = s.fab := rfl
@[simp] theorem Dev.setEvb_eventLog (a : Agent) (t : LineTag) (x : Option EvbEntry) : (s.setEvb a t x).eventLog = s.eventLog := rfl
@[simp] theorem Dev.setEvb_eventsOut (a : Agent) (t : LineTag) (x : Option EvbEntry) : (s.setEvb a t x).eventsOut = s.eventsOut := rfl
@[simp] theorem Dev.setEvb_reply (a : Agent) (t : LineTag) (x : Option EvbEntry) : (s.setEvb a t x).reply = s.reply := rfl
@[simp] theorem Dev.setEvb_resetDue (a : Agent) (t : LineTag) (x : Option EvbEntry) : (s.setEvb a t x).resetDue = s.resetDue := rfl

@[simp] theorem Dev.setDir_now (t : LineTag) (x : Option DirEntry) : (s.setDir t x).now = s.now := rfl
@[simp] theorem Dev.setDir_fresh (t : LineTag) (x : Option DirEntry) : (s.setDir t x).fresh = s.fresh := rfl
@[simp] theorem Dev.setDir_obj (t : LineTag) (x : Option DirEntry) : (s.setDir t x).obj = s.obj := rfl
@[simp] theorem Dev.setDir_copies (t : LineTag) (x : Option DirEntry) : (s.setDir t x).copies = s.copies := rfl
@[simp] theorem Dev.setDir_windows (t : LineTag) (x : Option DirEntry) : (s.setDir t x).windows = s.windows := rfl
@[simp] theorem Dev.setDir_thr (t : LineTag) (x : Option DirEntry) : (s.setDir t x).thr = s.thr := rfl
@[simp] theorem Dev.setDir_xl (t : LineTag) (x : Option DirEntry) : (s.setDir t x).xl = s.xl := rfl
@[simp] theorem Dev.setDir_cmd (t : LineTag) (x : Option DirEntry) : (s.setDir t x).cmd = s.cmd := rfl
@[simp] theorem Dev.setDir_svc (t : LineTag) (x : Option DirEntry) : (s.setDir t x).svc = s.svc := rfl
@[simp] theorem Dev.setDir_shf (t : LineTag) (x : Option DirEntry) : (s.setDir t x).shf = s.shf := rfl
@[simp] theorem Dev.setDir_relays (t : LineTag) (x : Option DirEntry) : (s.setDir t x).relays = s.relays := rfl
@[simp] theorem Dev.setDir_fab (t : LineTag) (x : Option DirEntry) : (s.setDir t x).fab = s.fab := rfl
@[simp] theorem Dev.setDir_eventLog (t : LineTag) (x : Option DirEntry) : (s.setDir t x).eventLog = s.eventLog := rfl
@[simp] theorem Dev.setDir_eventsOut (t : LineTag) (x : Option DirEntry) : (s.setDir t x).eventsOut = s.eventsOut := rfl
@[simp] theorem Dev.setDir_reply (t : LineTag) (x : Option DirEntry) : (s.setDir t x).reply = s.reply := rfl
@[simp] theorem Dev.setDir_resetDue (t : LineTag) (x : Option DirEntry) : (s.setDir t x).resetDue = s.resetDue := rfl

@[simp] theorem Dev.setL3_now (t : LineTag) (x : Option L3Line) : (s.setL3 t x).now = s.now := rfl
@[simp] theorem Dev.setL3_fresh (t : LineTag) (x : Option L3Line) : (s.setL3 t x).fresh = s.fresh := rfl
@[simp] theorem Dev.setL3_obj (t : LineTag) (x : Option L3Line) : (s.setL3 t x).obj = s.obj := rfl
@[simp] theorem Dev.setL3_copies (t : LineTag) (x : Option L3Line) : (s.setL3 t x).copies = s.copies := rfl
@[simp] theorem Dev.setL3_windows (t : LineTag) (x : Option L3Line) : (s.setL3 t x).windows = s.windows := rfl
@[simp] theorem Dev.setL3_thr (t : LineTag) (x : Option L3Line) : (s.setL3 t x).thr = s.thr := rfl
@[simp] theorem Dev.setL3_xl (t : LineTag) (x : Option L3Line) : (s.setL3 t x).xl = s.xl := rfl
@[simp] theorem Dev.setL3_cmd (t : LineTag) (x : Option L3Line) : (s.setL3 t x).cmd = s.cmd := rfl
@[simp] theorem Dev.setL3_svc (t : LineTag) (x : Option L3Line) : (s.setL3 t x).svc = s.svc := rfl
@[simp] theorem Dev.setL3_shf (t : LineTag) (x : Option L3Line) : (s.setL3 t x).shf = s.shf := rfl
@[simp] theorem Dev.setL3_relays (t : LineTag) (x : Option L3Line) : (s.setL3 t x).relays = s.relays := rfl
@[simp] theorem Dev.setL3_fab (t : LineTag) (x : Option L3Line) : (s.setL3 t x).fab = s.fab := rfl
@[simp] theorem Dev.setL3_eventLog (t : LineTag) (x : Option L3Line) : (s.setL3 t x).eventLog = s.eventLog := rfl
@[simp] theorem Dev.setL3_eventsOut (t : LineTag) (x : Option L3Line) : (s.setL3 t x).eventsOut = s.eventsOut := rfl
@[simp] theorem Dev.setL3_reply (t : LineTag) (x : Option L3Line) : (s.setL3 t x).reply = s.reply := rfl
@[simp] theorem Dev.setL3_resetDue (t : LineTag) (x : Option L3Line) : (s.setL3 t x).resetDue = s.resetDue := rfl

@[simp] theorem Dev.setWcb_now (t : LineTag) (x : Option WcbLine) : (s.setWcb t x).now = s.now := rfl
@[simp] theorem Dev.setWcb_fresh (t : LineTag) (x : Option WcbLine) : (s.setWcb t x).fresh = s.fresh := rfl
@[simp] theorem Dev.setWcb_obj (t : LineTag) (x : Option WcbLine) : (s.setWcb t x).obj = s.obj := rfl
@[simp] theorem Dev.setWcb_copies (t : LineTag) (x : Option WcbLine) : (s.setWcb t x).copies = s.copies := rfl
@[simp] theorem Dev.setWcb_windows (t : LineTag) (x : Option WcbLine) : (s.setWcb t x).windows = s.windows := rfl
@[simp] theorem Dev.setWcb_thr (t : LineTag) (x : Option WcbLine) : (s.setWcb t x).thr = s.thr := rfl
@[simp] theorem Dev.setWcb_xl (t : LineTag) (x : Option WcbLine) : (s.setWcb t x).xl = s.xl := rfl
@[simp] theorem Dev.setWcb_cmd (t : LineTag) (x : Option WcbLine) : (s.setWcb t x).cmd = s.cmd := rfl
@[simp] theorem Dev.setWcb_svc (t : LineTag) (x : Option WcbLine) : (s.setWcb t x).svc = s.svc := rfl
@[simp] theorem Dev.setWcb_shf (t : LineTag) (x : Option WcbLine) : (s.setWcb t x).shf = s.shf := rfl
@[simp] theorem Dev.setWcb_relays (t : LineTag) (x : Option WcbLine) : (s.setWcb t x).relays = s.relays := rfl
@[simp] theorem Dev.setWcb_fab (t : LineTag) (x : Option WcbLine) : (s.setWcb t x).fab = s.fab := rfl
@[simp] theorem Dev.setWcb_eventLog (t : LineTag) (x : Option WcbLine) : (s.setWcb t x).eventLog = s.eventLog := rfl
@[simp] theorem Dev.setWcb_eventsOut (t : LineTag) (x : Option WcbLine) : (s.setWcb t x).eventsOut = s.eventsOut := rfl
@[simp] theorem Dev.setWcb_reply (t : LineTag) (x : Option WcbLine) : (s.setWcb t x).reply = s.reply := rfl
@[simp] theorem Dev.setWcb_resetDue (t : LineTag) (x : Option WcbLine) : (s.setWcb t x).resetDue = s.resetDue := rfl

@[simp] theorem Dev.setRelay_now (r : Fin 64) (x : Relay) : (s.setRelay r x).now = s.now := rfl
@[simp] theorem Dev.setRelay_fresh (r : Fin 64) (x : Relay) : (s.setRelay r x).fresh = s.fresh := rfl
@[simp] theorem Dev.setRelay_obj (r : Fin 64) (x : Relay) : (s.setRelay r x).obj = s.obj := rfl
@[simp] theorem Dev.setRelay_copies (r : Fin 64) (x : Relay) : (s.setRelay r x).copies = s.copies := rfl
@[simp] theorem Dev.setRelay_windows (r : Fin 64) (x : Relay) : (s.setRelay r x).windows = s.windows := rfl
@[simp] theorem Dev.setRelay_thr (r : Fin 64) (x : Relay) : (s.setRelay r x).thr = s.thr := rfl
@[simp] theorem Dev.setRelay_mem (r : Fin 64) (x : Relay) : (s.setRelay r x).mem = s.mem := rfl
@[simp] theorem Dev.setRelay_xl (r : Fin 64) (x : Relay) : (s.setRelay r x).xl = s.xl := rfl
@[simp] theorem Dev.setRelay_cmd (r : Fin 64) (x : Relay) : (s.setRelay r x).cmd = s.cmd := rfl
@[simp] theorem Dev.setRelay_svc (r : Fin 64) (x : Relay) : (s.setRelay r x).svc = s.svc := rfl
@[simp] theorem Dev.setRelay_shf (r : Fin 64) (x : Relay) : (s.setRelay r x).shf = s.shf := rfl
@[simp] theorem Dev.setRelay_fab (r : Fin 64) (x : Relay) : (s.setRelay r x).fab = s.fab := rfl
@[simp] theorem Dev.setRelay_eventLog (r : Fin 64) (x : Relay) : (s.setRelay r x).eventLog = s.eventLog := rfl
@[simp] theorem Dev.setRelay_eventsOut (r : Fin 64) (x : Relay) : (s.setRelay r x).eventsOut = s.eventsOut := rfl
@[simp] theorem Dev.setRelay_reply (r : Fin 64) (x : Relay) : (s.setRelay r x).reply = s.reply := rfl
@[simp] theorem Dev.setRelay_resetDue (r : Fin 64) (x : Relay) : (s.setRelay r x).resetDue = s.resetDue := rfl

@[simp] theorem Dev.modStook_now (id : Nat) (f : Stook → Stook) : (s.modStook id f).now = s.now := rfl
@[simp] theorem Dev.modStook_fresh (id : Nat) (f : Stook → Stook) : (s.modStook id f).fresh = s.fresh := rfl
@[simp] theorem Dev.modStook_obj (id : Nat) (f : Stook → Stook) : (s.modStook id f).obj = s.obj := rfl
@[simp] theorem Dev.modStook_copies (id : Nat) (f : Stook → Stook) : (s.modStook id f).copies = s.copies := rfl
@[simp] theorem Dev.modStook_windows (id : Nat) (f : Stook → Stook) : (s.modStook id f).windows = s.windows := rfl
@[simp] theorem Dev.modStook_thr (id : Nat) (f : Stook → Stook) : (s.modStook id f).thr = s.thr := rfl
@[simp] theorem Dev.modStook_mem (id : Nat) (f : Stook → Stook) : (s.modStook id f).mem = s.mem := rfl
@[simp] theorem Dev.modStook_xl (id : Nat) (f : Stook → Stook) : (s.modStook id f).xl = s.xl := rfl
@[simp] theorem Dev.modStook_cmd (id : Nat) (f : Stook → Stook) : (s.modStook id f).cmd = s.cmd := rfl
@[simp] theorem Dev.modStook_svc (id : Nat) (f : Stook → Stook) : (s.modStook id f).svc = s.svc := rfl
@[simp] theorem Dev.modStook_relays (id : Nat) (f : Stook → Stook) : (s.modStook id f).relays = s.relays := rfl
@[simp] theorem Dev.modStook_fab (id : Nat) (f : Stook → Stook) : (s.modStook id f).fab = s.fab := rfl
@[simp] theorem Dev.modStook_eventLog (id : Nat) (f : Stook → Stook) : (s.modStook id f).eventLog = s.eventLog := rfl
@[simp] theorem Dev.modStook_eventsOut (id : Nat) (f : Stook → Stook) : (s.modStook id f).eventsOut = s.eventsOut := rfl
@[simp] theorem Dev.modStook_reply (id : Nat) (f : Stook → Stook) : (s.modStook id f).reply = s.reply := rfl
@[simp] theorem Dev.modStook_resetDue (id : Nat) (f : Stook → Stook) : (s.modStook id f).resetDue = s.resetDue := rfl

@[simp] theorem Dev.modSheaf_now (id k : Nat) (f : Sheaf → Sheaf) : (s.modSheaf id k f).now = s.now := rfl
@[simp] theorem Dev.modSheaf_fresh (id k : Nat) (f : Sheaf → Sheaf) : (s.modSheaf id k f).fresh = s.fresh := rfl
@[simp] theorem Dev.modSheaf_obj (id k : Nat) (f : Sheaf → Sheaf) : (s.modSheaf id k f).obj = s.obj := rfl
@[simp] theorem Dev.modSheaf_copies (id k : Nat) (f : Sheaf → Sheaf) : (s.modSheaf id k f).copies = s.copies := rfl
@[simp] theorem Dev.modSheaf_windows (id k : Nat) (f : Sheaf → Sheaf) : (s.modSheaf id k f).windows = s.windows := rfl
@[simp] theorem Dev.modSheaf_thr (id k : Nat) (f : Sheaf → Sheaf) : (s.modSheaf id k f).thr = s.thr := rfl
@[simp] theorem Dev.modSheaf_mem (id k : Nat) (f : Sheaf → Sheaf) : (s.modSheaf id k f).mem = s.mem := rfl
@[simp] theorem Dev.modSheaf_xl (id k : Nat) (f : Sheaf → Sheaf) : (s.modSheaf id k f).xl = s.xl := rfl
@[simp] theorem Dev.modSheaf_cmd (id k : Nat) (f : Sheaf → Sheaf) : (s.modSheaf id k f).cmd = s.cmd := rfl
@[simp] theorem Dev.modSheaf_svc (id k : Nat) (f : Sheaf → Sheaf) : (s.modSheaf id k f).svc = s.svc := rfl
@[simp] theorem Dev.modSheaf_relays (id k : Nat) (f : Sheaf → Sheaf) : (s.modSheaf id k f).relays = s.relays := rfl
@[simp] theorem Dev.modSheaf_fab (id k : Nat) (f : Sheaf → Sheaf) : (s.modSheaf id k f).fab = s.fab := rfl
@[simp] theorem Dev.modSheaf_eventLog (id k : Nat) (f : Sheaf → Sheaf) : (s.modSheaf id k f).eventLog = s.eventLog := rfl
@[simp] theorem Dev.modSheaf_eventsOut (id k : Nat) (f : Sheaf → Sheaf) : (s.modSheaf id k f).eventsOut = s.eventsOut := rfl
@[simp] theorem Dev.modSheaf_reply (id k : Nat) (f : Sheaf → Sheaf) : (s.modSheaf id k f).reply = s.reply := rfl
@[simp] theorem Dev.modSheaf_resetDue (id k : Nat) (f : Sheaf → Sheaf) : (s.modSheaf id k f).resetDue = s.resetDue := rfl

@[simp] theorem Dev.modEngine_now (i : Nat) (f : SvcEngine → SvcEngine) : (s.modEngine i f).now = s.now := rfl
@[simp] theorem Dev.modEngine_fresh (i : Nat) (f : SvcEngine → SvcEngine) : (s.modEngine i f).fresh = s.fresh := rfl
@[simp] theorem Dev.modEngine_obj (i : Nat) (f : SvcEngine → SvcEngine) : (s.modEngine i f).obj = s.obj := rfl
@[simp] theorem Dev.modEngine_copies (i : Nat) (f : SvcEngine → SvcEngine) : (s.modEngine i f).copies = s.copies := rfl
@[simp] theorem Dev.modEngine_windows (i : Nat) (f : SvcEngine → SvcEngine) : (s.modEngine i f).windows = s.windows := rfl
@[simp] theorem Dev.modEngine_thr (i : Nat) (f : SvcEngine → SvcEngine) : (s.modEngine i f).thr = s.thr := rfl
@[simp] theorem Dev.modEngine_mem (i : Nat) (f : SvcEngine → SvcEngine) : (s.modEngine i f).mem = s.mem := rfl
@[simp] theorem Dev.modEngine_xl (i : Nat) (f : SvcEngine → SvcEngine) : (s.modEngine i f).xl = s.xl := rfl
@[simp] theorem Dev.modEngine_cmd (i : Nat) (f : SvcEngine → SvcEngine) : (s.modEngine i f).cmd = s.cmd := rfl
@[simp] theorem Dev.modEngine_shf (i : Nat) (f : SvcEngine → SvcEngine) : (s.modEngine i f).shf = s.shf := rfl
@[simp] theorem Dev.modEngine_relays (i : Nat) (f : SvcEngine → SvcEngine) : (s.modEngine i f).relays = s.relays := rfl
@[simp] theorem Dev.modEngine_fab (i : Nat) (f : SvcEngine → SvcEngine) : (s.modEngine i f).fab = s.fab := rfl
@[simp] theorem Dev.modEngine_eventLog (i : Nat) (f : SvcEngine → SvcEngine) : (s.modEngine i f).eventLog = s.eventLog := rfl
@[simp] theorem Dev.modEngine_eventsOut (i : Nat) (f : SvcEngine → SvcEngine) : (s.modEngine i f).eventsOut = s.eventsOut := rfl
@[simp] theorem Dev.modEngine_reply (i : Nat) (f : SvcEngine → SvcEngine) : (s.modEngine i f).reply = s.reply := rfl
@[simp] theorem Dev.modEngine_resetDue (i : Nat) (f : SvcEngine → SvcEngine) : (s.modEngine i f).resetDue = s.resetDue := rfl

@[simp] theorem Dev.setBinds_now (asid region n : Nat) : (s.setBinds asid region n).now = s.now := rfl
@[simp] theorem Dev.setBinds_fresh (asid region n : Nat) : (s.setBinds asid region n).fresh = s.fresh := rfl
@[simp] theorem Dev.setBinds_obj (asid region n : Nat) : (s.setBinds asid region n).obj = s.obj := rfl
@[simp] theorem Dev.setBinds_copies (asid region n : Nat) : (s.setBinds asid region n).copies = s.copies := rfl
@[simp] theorem Dev.setBinds_windows (asid region n : Nat) : (s.setBinds asid region n).windows = s.windows := rfl
@[simp] theorem Dev.setBinds_thr (asid region n : Nat) : (s.setBinds asid region n).thr = s.thr := rfl
@[simp] theorem Dev.setBinds_mem (asid region n : Nat) : (s.setBinds asid region n).mem = s.mem := rfl
@[simp] theorem Dev.setBinds_xl (asid region n : Nat) : (s.setBinds asid region n).xl = s.xl := rfl
@[simp] theorem Dev.setBinds_svc (asid region n : Nat) : (s.setBinds asid region n).svc = s.svc := rfl
@[simp] theorem Dev.setBinds_shf (asid region n : Nat) : (s.setBinds asid region n).shf = s.shf := rfl
@[simp] theorem Dev.setBinds_relays (asid region n : Nat) : (s.setBinds asid region n).relays = s.relays := rfl
@[simp] theorem Dev.setBinds_fab (asid region n : Nat) : (s.setBinds asid region n).fab = s.fab := rfl
@[simp] theorem Dev.setBinds_eventLog (asid region n : Nat) : (s.setBinds asid region n).eventLog = s.eventLog := rfl
@[simp] theorem Dev.setBinds_eventsOut (asid region n : Nat) : (s.setBinds asid region n).eventsOut = s.eventsOut := rfl
@[simp] theorem Dev.setBinds_reply (asid region n : Nat) : (s.setBinds asid region n).reply = s.reply := rfl
@[simp] theorem Dev.setBinds_resetDue (asid region n : Nat) : (s.setBinds asid region n).resetDue = s.resetDue := rfl

@[simp] theorem State.modPow_toDev (s : State) (f : PowerState → PowerState) : (s.modPow f).toDev = s.toDev := rfl
@[simp] theorem State.modPow_pow (s : State) (f : PowerState → PowerState) : (s.modPow f).pow = f s.pow := rfl
@[simp] theorem State.modPow_mgmt (s : State) (f : PowerState → PowerState) : (s.modPow f).mgmt = s.mgmt := rfl
@[simp] theorem State.modPow_boot (s : State) (f : PowerState → PowerState) : (s.modPow f).boot = s.boot := rfl
@[simp] theorem State.modPow_pending (s : State) (f : PowerState → PowerState) : (s.modPow f).pending = s.pending := rfl

@[simp] theorem State.modMgmt_toDev (s : State) (f : MgmtState → MgmtState) : (s.modMgmt f).toDev = s.toDev := rfl
@[simp] theorem State.modMgmt_pow (s : State) (f : MgmtState → MgmtState) : (s.modMgmt f).pow = s.pow := rfl
@[simp] theorem State.modMgmt_mgmt (s : State) (f : MgmtState → MgmtState) : (s.modMgmt f).mgmt = f s.mgmt := rfl
@[simp] theorem State.modMgmt_boot (s : State) (f : MgmtState → MgmtState) : (s.modMgmt f).boot = s.boot := rfl
@[simp] theorem State.modMgmt_pending (s : State) (f : MgmtState → MgmtState) : (s.modMgmt f).pending = s.pending := rfl

@[simp] theorem State.modBoot_toDev (s : State) (f : BootState → BootState) : (s.modBoot f).toDev = s.toDev := rfl
@[simp] theorem State.modBoot_pow (s : State) (f : BootState → BootState) : (s.modBoot f).pow = s.pow := rfl
@[simp] theorem State.modBoot_mgmt (s : State) (f : BootState → BootState) : (s.modBoot f).mgmt = s.mgmt := rfl
@[simp] theorem State.modBoot_boot (s : State) (f : BootState → BootState) : (s.modBoot f).boot = f s.boot := rfl
@[simp] theorem State.modBoot_pending (s : State) (f : BootState → BootState) : (s.modBoot f).pending = s.pending := rfl

/-- A link reads as it was last put; the others are unchanged. -/
theorem Dev.link_setLink (l l2 : LinkId) (x : Link) : (s.setLink l x).link l2 = if l2 = l then x else s.link l2 := by
  simp only [Dev.link, Dev.setLink, Dev.modFab, Fin.getElem_fin, Vector.getElem_set, Fin.ext_iff]
  split <;> split <;> first | rfl | omega

/-- A relay queue reads as it was last put; the others are unchanged. -/
theorem Dev.relay_setRelay (r r2 : Fin 64) (x : Relay) : (s.setRelay r x).relay r2 = if r2 = r then x else s.relay r2 := by
  simp only [Dev.relay, Dev.setRelay, Fin.getElem_fin, Vector.getElem_set, Fin.ext_iff]
  split <;> split <;> first | rfl | omega

/-- A port reads as it was last changed; every other is unchanged. -/
theorem Dev.port_modPort (die port die2 port2 : Nat) (f : D2dPort → D2dPort) :
    (s.modPort die port f).port die2 port2 = if 8 * die2 + port2 = 8 * die + port then f (s.port die port) else s.port die2 port2 := by
  simp only [Dev.port, Dev.modPort, Dev.modFab, Table.get_set]

/-- A remote window reads as it was last put; the others are unchanged. -/
theorem Dev.window_setWindow (w w2 : Nat) (x : Window) : (s.setWindow w x).window w2 = if w2 = w then x else s.window w2 := by
  simp only [Dev.window, Dev.setWindow, Dev.modFab, Table.get_set]

/-- A line of a caching agent reads as it was last put; every other line of every agent is unchanged. -/
theorem Dev.lineAt_setLine (a a2 : Agent) (t t2 : LineTag) (x : Option CacheLine) :
    (s.setLine a t x).lineAt a2 t2 = if a2 = a ∧ t2 = t then x else s.lineAt a2 t2 := by
  simp only [Dev.lineAt, Dev.setLine, Dev.modAgent, Dev.agent_setAgent]
  by_cases h : a2 = a <;> simp [h, Table.get_set]

/-- The binds of a program region read as they were last put; those of every other are unchanged. -/
theorem Dev.binds_setBinds (asid region asid2 region2 n : Nat) (h : region < 256) (h2 : region2 < 256) :
    (s.setBinds asid region n).binds asid2 region2 = if asid2 = asid ∧ region2 = region then n else s.binds asid2 region2 := by
  simp only [Dev.binds, Dev.setBinds, Table.get_set]
  have : (asid2 * 256 + region2 = asid * 256 + region) ↔ (asid2 = asid ∧ region2 = region) := by omega
  simp [this]

end Sys2Proof.Machine
end

