-- ==== Sys2Proof/WellFormed.lean ====
section
/-! DEFINITION. WellFormed.lean: the form that a command's operands have when what sends them follows the spec: line data of 128 bytes,
lines within the tags of R47, accesses that are aligned and within their word, packets, flits and datagrams of their sizes. The
meanings are total: they hold for ill-formed commands too, and this predicate only says which commands the spec describes. -/

namespace Sys2Proof

/-- A line tag: bits [47:7] of an address with the realm flag above them (R47, R401). -/
def lineTagOk (t : LineTag) : Bool := t < 2 ^ 42

/-- Bytes within a line: at least one, none past its end (R367). -/
def withinLine (off : Nat) (data : List Byte) : Bool := 0 < data.length && off + data.length ≤ 128

/-- The data of a whole line (R367). -/
def wholeLine (data : List Byte) : Bool := data.length = 128

/-- A core access of 1, 2, 4 or 8 bytes, aligned within its 8-byte word (R746). -/
def CoreAccess.wf (a : CoreAccess) : Bool :=
  (a.size = 1 || a.size = 2 || a.size = 4 || a.size = 8) && a.off.val % a.size = 0 && a.off.val + a.size ≤ 8

/-- A packet of at most 4,096 payload bytes (R566, R607). -/
def Packet.wf (p : Packet) : Bool := p.payload.length ≤ 4096

/-- A link flit with its 244 payload bytes, of which it uses no more (R561). -/
def LinkFlit.wf (f : LinkFlit) : Bool := f.payload.length = 244 && f.fill.toNat ≤ 244

/-- A die-to-die flit with the credits of the six virtual channels (R543, R544). -/
def D2dFlit.wf (f : D2dFlit) : Bool := f.credits.length = 6 && f.data.length = 128

/-- A target of REGISTER_WRITE: a core's access is of 1, 2, 4 or 8 bytes and aligned (R746). -/
def RegTarget.wf : RegTarget → Bool
  | .bus _ pa _ n => (n.val = 1 || n.val = 2 || n.val = 4 || n.val = 8) && pa.toNat % n.val = 0
  | _ => true

/-- An access through a remote window: at least one byte, no more than a packet carries (R580, R607). -/
def WindowOp.wf : WindowOp → Bool
  | .read len => 0 < len && len ≤ 4096
  | .write data => 0 < data.length && data.length ≤ 4096
  | .atomic _ _ _ => true

/-- The steps of a window: no die issues in more steps than its monitor counts (R34). A window lists each die once (R35). -/
def StepCount.wf (c : StepCount) : Bool := c.issued ≤ c.monitor

/-- A datagram that its path can carry (R657, R679). -/
def datagramWf (p : SessionPath) (b : List Byte) : Bool :=
  b.length ≤ (match p with
    | .mgmt => 1232
    | .inband _ => 2040)

/-- A command whose operands have the form the spec gives them. -/
def Instr.wf : Instr → Bool
  | .windowEnd counts => counts.all StepCount.wf && counts.map StepCount.die = List.finRange 20
  | .flagStore _ _ a => a.wf
  | .counterStore _ a => a.wf
  | .counterAmoadd _ a => a.wf
  | .prefetchFill _ t => lineTagOk t
  | .pfLifetimeExpiry _ t _ => lineTagOk t
  | .readShared _ t _ => lineTagOk t
  | .readOwn _ t _ => lineTagOk t
  | .writeClaim _ t => lineTagOk t
  | .upgrade _ t _ => lineTagOk t
  | .readOnce _ t _ => lineTagOk t
  | .writePush _ t off data => lineTagOk t && withinLine off.val data
  | .atomicHome _ t off _ _ _ => lineTagOk t && off.val % 4 = 0
  | .writeBack _ t data _ => lineTagOk t && wholeLine data
  | .evictClean _ t => lineTagOk t
  | .snpShared _ t _ => lineTagOk t
  | .snpInv _ t _ => lineTagOk t
  | .snpOnce _ t _ => lineTagOk t
  | .rspInvalid _ t _ => lineTagOk t
  | .rspShared _ t _ => lineTagOk t
  | .rspData _ t _ data _ _ _ => lineTagOk t && wholeLine data
  | .completionData _ t _ data _ => lineTagOk t && wholeLine data
  | .completionAck _ t _ => lineTagOk t
  | .wbAck _ t => lineTagOk t
  | .wbSuperseded _ t => lineTagOk t
  | .localRead _ t _ => lineTagOk t
  | .localPartialWrite _ t place data => lineTagOk t && withinLine place.off.val data
  | .localFullWrite _ t data => lineTagOk t && wholeLine data
  | .eviction _ t => lineTagOk t
  | .homeTimeout t _ => lineTagOk t
  | .wcbDrain t _ => lineTagOk t
  | .marginSweepDone edges => edges.length = 18
  | .translationMiss _ _ _ _ va rights => va.toNat < 2 ^ 57 && rights ≠ 0
  | .linkFlitReceive _ f => f.wf
  | .flitReceive _ _ f => f.wf
  | .registerWrite t _ => t.wf
  | .packetTransit _ p => p.wf
  | .hostWrite _ p => p.wf
  | .hostRead _ p => p.wf
  | .hostPush _ p => p.wf
  | .hostAdd _ p => p.wf
  | .hostCompletion _ p => p.wf
  | .remoteReadRequest _ p => p.wf
  | .remoteReadResponse _ p => p.wf
  | .remoteWrite _ p => p.wf
  | .remoteWriteAck _ p => p.wf
  | .remoteAtomic _ p => p.wf
  | .collectiveData _ p => p.wf
  | .collectiveGrant _ p => p.wf
  | .transportAck _ p => p.wf
  | .unreachableNotice _ p => p.wf
  | .remoteWindowAccess _ _ op => op.wf
  | .sessionInit p b => datagramWf p b
  | .sessionFinish p b => datagramWf p b
  | .sessionDiscover p b => datagramWf p b
  | .sessionRequest p b => datagramWf p b
  | .sessionKeepalive p b => datagramWf p b
  | .sessionClose p b => datagramWf p b
  | .writeObject _ _ _ data => data.length ≤ 1024
  | .xferWindow _ _ data => data.length ≤ 1024
  | .hotJoin _ contents => 256 ≤ contents.length
  | .neighborDiscovery target source => target.length = 16 && source.length = 16
  | .icmpv6Echo source _ _ _ => source.length = 16
  | .parityError ev => (match ev with
    | .dataL2 _ t | .dataL3 t | .tagUncorrectable _ t | .directoryLost t => lineTagOk t
    | .tagCorrected _ => true)
  | .connectionDown _ _ lost => lost.all (fun m => match m with
    | .request _ t | .snoop t _ | .snoopResponse t _ | .completion _ t _ => lineTagOk t
    | .sync | .debug => true)
  | .stepWindowWrite _ | .stepRateLowestWrite _ _ | .attach _ | .start _ | .stop _ | .abort _ | .detach _ | .submitPush _ _
  | .headWrite _ _ | .instructionFetch _ | .nop _ | .loop _ | .endloop _ | .brk _ | .phase _ | .settime _ | .sync _
  | .halt _ | .matmul _ | .matmulPart _ | .attend _ | .chain _ | .combine _ | .launch _ | .prefetch _ | .copy _ | .relayPut _
  | .relayTake _ | .crypt _ | .compress _ | .decompress _ | .indexOp _ | .sortmerge _ | .gather _ | .allreduce _ | .reducescatter _
  | .allgather _ | .bcast _ | .send _ | .recv _ | .snapshot _ | .journalSlotAllocate _ | .watchdogExpiry _ _ | .operationBegin _
  | .operationEnd _ | .signal _ | .journalRelease _ | .millStep _ _ | .slotFillComplete _ | .curdMove _ | .tileWritten _ | .statsAdd _
  | .stookStart _ | .sheafNop _ | .jmp _ | .jmpr _ | .call _ | .sExit _ | .bar _ | .ssync _ | .fence _ | .yield _ | .iadd _ | .isub _
  | .imul _ | .imulh _ | .imac _ | .sAnd _ | .sOr _ | .sXor _ | .shl _ | .shr _ | .imin _ | .imax _ | .bcnt _ | .lzc _ | .mov _ | .movhi _
  | .f32add _ | .f32mul _ | .f32mac _ | .f32min _ | .f32max _ | .f64add _ | .f64mul _ | .f64mac _ | .f64min _ | .f64max _ | .cvt _
  | .exp2 _ | .log2 _ | .rcp _ | .rsqrt _ | .sqrt _ | .sinpi _ | .cospi _ | .fcmp _ | .icmp _ | .pick _ | .pcomb _ | .uop _ | .lanerd _
  | .uload _ | .ld _ | .st _ | .ldk _ | .stk _ | .amo _ | .amok _ | .lanex _ | .poll _ | .reduce _ | .scan _ | .sysr _ | .sTime _
  | .lineResponse _ _ | .barrierDeadline _ _ | .ssyncTimeout _ _ | .prefetcherIssue _ _ | .relayEnable _ | .relayDisable _
  | .relayCorePutsWrite _ _ | .relayCoreTakesWrite _ _ | .patrolScrub _ _ | .marginRun _ | .iotinvalVma _ _ _ _ _ _ | .iofenceC _ _ _ _
  | .walkComplete _ _ _ | .prRespResolved _ _ | .prRespFailed _ _ | .prTimeout _ _ _ | .heldRecordWrite _ | .ctxBaseWrite _ _
  | .fqBaseWrite _ _ | .quantumEnd _ _ _ | .workEntryDone _ | .realmCreate | .realmQuote | .realmLoadKey | .realmDropKey | .realmDestroy
  | .realmScrub | .flitNak _ _ _ | .routeLoad | .timeExchange _ | .timeFrame _ _ _ _ _ | .linkTrainingDone _ _
  | .linkNak _ _ | .linkDown _ _ | .windowDisable _ | .transportTimeout _ _ | .linkRoleWrite _ _ | .linkEnableWrite _ _ | .pkeyEnable _
  | .pkeyDisable _ | .quarantineEnd _ _ | .keyDrained _ | .deviceIdWrite _ | .powerGoodHold _ | .sagWarn _ _ | .sagWarnEnd _ | .sagReset _
  | .overVoltage _ | .powerEvaluation | .capWindowEnd _ _ | .powerCapWrite _ | .railWindowEnd _ _ _ _ _ | .thermalTick _ | .thermalTrip _
  | .energyWindowEnd _ _ _ | .jobOpen _ | .jobClose _ | .ripenCheck _ | .ripenInterval _ _ | .handshakeTimeout _ _
  | .sessionIdleTimeout _ _ | .readObject _ _ _ _ | .readPending _ _ | .describe _ _ | .nextObject _ _ | .subscribe _ _ | .applyGroup _
  | .discardGroup _ | .defaults _ | .quiescentBoundary _ | .credMinGenerationWrite _ | .inbandRequest _ | .coreMailboxSubmit _
  | .coldReset _ | .warmReset _ _ | .mcRestart | .mcWatchdogExpiry | .resetRequestWarm _ | .resetRequestCold _ | .resetRequestMcRestart
  | .bringupRequest _ | .bootContinue _ _ | .floorRaise _ | .attestRun _ _ | .xferBegin _ _ | .xferCommit _ _ | .removePrepare _
  | .presenceOpen | .presenceClose | .lossOfSignal _ | .laserModuleLoss _ | .laserInterlockOpen _ | .boundaryScanInstruction _
  | .packageTimeReached _ | .thermalTripRestart _ _ _ | .ripenPostponedCheck _ _ | .realmCommandDone | .xferStoreDone | .readyForRemoval
  | .laserInterlockClose _ | .plcaBeacon | .mgmtPortLinkChange _ => true

end Sys2Proof
end

