-- ==== Sys2Proof/Tests/Slice0.lean ====
section
/-! SUPPORT. Tests/Slice0.lean: tests of the commands on small states, and for every statement with hypotheses states and operands that
meet them. -/

set_option Elab.async false

open Sys2Proof Sys2Proof.Machine

namespace Sys2Proof.Tests

/-- The state a command leaves. -/
def after (c : Instr) (s : State) : State := match exec c s with
  | .next t => t
  | _ => State.reset

/-- A Boolean test of what an optional value holds. -/
def holds {α : Type} (o : Option α) (p : α → Bool) : Bool := match o with
  | some a => p a
  | none => false

theorem all_none {α : Type} {o : Option α} {P : α → Prop} (h : o = none) : ∀ a, o = some a → P a := by
  intro a ha; rw [h] at ha; cases ha

theorem all_some {α : Type} {o : Option α} {P : α → Prop} {b : α} (h : o = some b) (hb : P b) : ∀ a, o = some a → P a := by
  intro a ha; rw [h] at ha; cases ha; exact hb

def Fetch.good {α : Type} : Fetch α → Bool
  | .ok _ => true
  | _ => false

def Named.good {α : Type} : Named α → Bool
  | .ok _ => true
  | _ => false

theorem fetch_ok {α : Type} (r : Dev × Fetch α) (h : Fetch.good r.2 = true) : ∃ d a, r = (d, .ok a) := by
  obtain ⟨d, a⟩ := r; cases a <;> first | exact ⟨_, _, rfl⟩ | cases h

theorem named_ok {α : Type} (r : Dev × Named α) (h : Named.good r.2 = true) : ∃ d a, r = (d, .ok a) := by
  obtain ⟨d, a⟩ := r; cases a <;> first | exact ⟨_, _, rfl⟩ | cases h

/-- The context of address space 1: descriptors at 0x10000, program regions at 0x20000. -/
def context : Nat := 1 + 0xA * 2 ^ 124 + 0x30000 * 2 ^ 320 + 0x20000 * 2 ^ 384 + 0x10000 * 2 ^ 448

/-- The first 2 MiB of address space 1, mapped to themselves with every right. -/
def wholePage : TcEntry := { asid := 1, vpn := 0, pages := 512, pa := 0, realm := false, rights := ⟨true, true, true⟩ }

/-- A module whose address space 1 maps its first 2 MiB to themselves at every die, all rights granted. -/
def world : State := { State.reset with
  xl := { mmus := Vector.replicate 2 { ctxCache := [⟨1, context⟩] }, tcs := Vector.replicate 20 [wholePage] } }

/-- A queue of address space 1. -/
def put (s : State) (q : QueueId) (x : Queue) : State := s.lift (fun d => d.setQueue q { x with asid := 1 })

/-- A running queue with an instruction at head whose waits have held. -/
def ready (w : BitVec 256) : Queue := { state := .running, fetched := some w, wait0 := true, wait1 := true }

def insn (opcode param : Nat) (h : List Nat := []) : BitVec 256 :=
  BitVec.ofNat 256 (opcode * 2 ^ 248 + param * 2 ^ 64 + h.getD 0 0 + h.getD 1 0 * 2 ^ 16 + h.getD 2 0 * 2 ^ 32 + h.getD 3 0 * 2 ^ 48)

theorem headReady_of {s : State} {q : QueueId} {w : BitVec 256}
    (h : ((s.queue q).state = .running ∧ (s.queue q).fetched = some w ∧ (s.queue q).wait0 = true ∧ (s.queue q).wait1 = true
      ∧ (s.queue q).endUnperformed = none ∧ iFence w = false ∧ s.running q = [])) : s.headReady q w := by
  obtain ⟨a, b, c, d, e, f, g⟩ := h
  unfold Dev.headReady
  refine ⟨a, b, c, d, e, fun h => ?_, ?_⟩
  · rw [f] at h; cases h
  · rw [g]; intro o ho; cases ho

/-- Lines that the L2 of CD0 holds alone: line number and value. -/
def holding (l : List (Nat × Nat)) (s : State) : State :=
  { s with mem := { s.mem with agents := s.mem.agents.set 0 { lines := l.map (fun e => (e.1, some { st := .e, data := leBytes 128 e.2 })) } } }

/-- A buffer of two instructions at 0x1000 in region 3 of address space 1, whose descriptor is handle 5. -/
def programmed : State :=
  holding [(0x202, (0x1000 + 3 * 2 ^ 124 + 64 * 2 ^ 128 + 3 * 2 ^ 192) * 2 ^ 512), (0x400, (0x1000 + 2 ^ 64 * 3 + 2 ^ 112) * 2 ^ 384)] world

theorem pair_of {α β : Type} {P : α → Prop} (r : α × β) {b : β} (h : r.2 = b ∧ P r.1) : ∃ d, r = (d, b) ∧ P d := by
  obtain ⟨d, x⟩ := r; obtain ⟨rfl, h⟩ := h; exact ⟨d, rfl, h⟩

theorem pair_ok {α β : Type} (r : α × β) {b : β} (h : r.2 = b) : ∃ d, r = (d, b) := by
  obtain ⟨d, x⟩ := r; exact ⟨d, by rw [← h]⟩

/-- What a fetch gives and what goes on from it both succeed, and a test holds of the state they leave. -/
theorem chain_ok {α β : Type} (r : Dev × Fetch α) (f : Dev → α → Dev × Fetch β) (P : Dev → Bool)
    (h : (match r with
      | (d, .ok a) => (match f d a with
        | (e, .ok _) => P e
        | _ => false)
      | _ => false) = true) : ∃ d a e b, r = (d, .ok a) ∧ f d a = (e, .ok b) ∧ P e = true := by
  obtain ⟨d, a⟩ := r
  cases a with
  | ok a =>
    dsimp only at h
    generalize hx : f d a = x at h
    obtain ⟨e, b⟩ := x
    cases b with
    | ok b => exact ⟨d, a, e, b, rfl, hx, h⟩
    | _ => cases h
  | _ => cases h
theorem witness_QueueCommands :
    ((put world 0 { state := .idle }).queue 0).state = .idle ∧ ((put world 2047 { state := .stopped }).queue 2047).state = .stopped
      ∧ ((put world 1535 { state := .running }).queue 1535).state = .running
      ∧ (∀ o ∈ (put world 1535 { state := .running }).running 1535, o.begun = false)
      ∧ ((put world 1536 { state := .draining }).queue 1536).state = .draining := by decide +kernel

theorem witness_AttachChecks :
    ¬(1 ≤ world.objAt 0x0C 0x400 0 ∧ world.objAt 0x0C 0x400 0 ≤ 3) ∧ (put world 0 { cls := 1 }).attachOk 0 = true
      ∧ (put world 1791 { cls := 2, unit := 0xFF }).attachOk 1791 = true ∧ (put world 2047 { cls := 3 }).attachOk 2047 = true
      ∧ (put world 0 { cls := 2 }).attachOk 0 = false ∧ ((put world 0 { cls := 2 }).queue 0).state = .detached := by decide +kernel

theorem witness_PushAndHead :
    (∃ d, (put programmed 0 { state := .idle }).pushedBuffer 0 5 = (d, .ok (some (⟨0x1000, 2, 3⟩, 0x1000, 3))) ∧ d.binds 1 3 < 65535
        ∧ d.queue 0 = (put programmed 0 { state := .idle }).queue 0) ∧ ((put programmed 0 { state := .idle }).queue 0).submits.length < 8
      ∧ (0 : U32).toNat ≤ (((put world 0 { state := .stopped }).queue 0).cur.map Buffer.len).getD 0 :=
  ⟨pair_of _ (by decide +kernel), by decide +kernel⟩


/-- A buffer of three instructions. -/
def buffer : Buffer := ⟨0x1000, 3, 3⟩

theorem witness_QueueCommands_buffers :
    (put world 0 { state := .idle, submits := [buffer] }).queue 0 = { state := .idle, submits := [buffer], asid := 1 }
      ∧ ((put world 0 { state := .idle, cur := some buffer, head := 2, submits := [buffer] }).queue 0).pastEnd 2 = false
      ∧ ((put world 0 { state := .idle, cur := some buffer, head := 2, submits := [buffer] }).queue 0).pastEnd 3 = true := by decide +kernel

theorem witness_AttachChecks_spaces :
    (put world 0 { cls := 1 }).queue 0 = { cls := 1, asid := 1 }
      ∧ holds (((put world 0 { cls := 1 }).ctxRead 0 1).ctx 0 1) (fun c => !c.term && !c.realmEn) = true
      ∧ (((world.ctxRead 0 2).ctx 0 2).map Ctx.term).isNone = true := by decide +kernel

theorem witness_PushAndHead_kinds :
    ((put programmed 0 { state := .idle }).pushedBuffer 0 4).2 = .ok none
      ∧ ((put { programmed with xl := { programmed.xl with
            tcs := Vector.replicate 20 []
            misses := [{ die := 0, asid := 1, vpn := 16, va := 0x10000, streams := [], walking := true }] } } 0 { state := .idle }).pushedBuffer 0 5).2 = .wait
      ∧ ((put { programmed with mem := { programmed.mem with agents := programmed.mem.agents.set 0 {
            lines := [(0x202, some { st := .e, data := zeroLine, poison := true })] } } } 0 { state := .idle }).pushedBuffer 0 5).2 = .fail 6 0x10140
      ∧ ((put programmed 0 { state := .running, submits := List.replicate 8 buffer }).queue 0).submits.length = 8
      ∧ ((put programmed 0 { state := .running }).queue 0).cur = none ∧ ((put programmed 0 { pushes := [5] }).queue 0).pushes = [5] := by decide +kernel


/-- A queue in a loop, its second pass begun. -/
def looping (w : BitVec 256) (index : Nat) : Queue := { ready w with loops := [⟨0, 2, index⟩] }

theorem witness_ControlInstructions :
    (put world 0 (ready (insn 0 0))).headReady 0 (insn 0 0)
      ∧ (put world 1600 (looping (insn 2 0) 0)).headReady 1600 (insn 2 0) ∧ (put world 1600 (looping (insn 2 0) 1)).headReady 1600 (insn 2 0)
      ∧ (put world 0 (looping (insn 3 1) 0)).headReady 0 (insn 3 1) ∧ ((put world 0 (looping (insn 3 1) 0)).queue 0).brkLatch = false
      ∧ (put world 0 (ready (insn 4 15))).headReady 0 (insn 4 15) ∧ (put world 0 (ready (insn 5 1 [1, 2]))).headReady 0 (insn 5 1 [1, 2])
      ∧ (put world 0 (ready (insn 6 2 [19, 127, 5]))).headReady 0 (insn 6 2 [19, 127, 5])
      ∧ (put world 2047 (ready (insn 7 0))).headReady 2047 (insn 7 0) := by
  refine ⟨?_, ?_, ?_, ?_, by decide +kernel, ?_, ?_, ?_, ?_⟩ <;> exact headReady_of (by decide +kernel)

theorem witness_Loops :
    (put world 0 (ready (insn 1 0 [3]))).headReady 0 (insn 1 0 [3]) ∧ (put world 0 (ready (insn 1 0 [65535, 255]))).headReady 0 (insn 1 0 [65535, 255])
      ∧ ((put world 0 (ready (insn 1 0 [65535, 255]))).latch 0).loopCount 0 (ready (insn 1 0 [65535, 255])) (insn 1 0 [65535, 255])
          = ((put world 0 (ready (insn 1 0 [65535, 255]))).latch 0, .ok 16777215)
      ∧ ((put world 0 (ready (insn 1 0 [65535, 255]))).latch 0).queue 0 = { ready (insn 1 0 [65535, 255]) with asid := 1 }
      ∧ (∃ b, ((put world 0 { state := .running, cur := some ⟨0x1000, 1, 3⟩, head := 1, skipDepth := some 0 }).queue 0).cur = some b ∧ b.len ≤ 1)
      ∧ (put world 0 (ready (insn 2 0))).headReady 0 (insn 2 0) ∧ ((put world 0 (ready (insn 2 0))).queue 0).loops = [] := by
  refine ⟨headReady_of (by decide +kernel), headReady_of (by decide +kernel), by rfl, by decide +kernel,
    ⟨⟨0x1000, 1, 3⟩, by decide +kernel⟩, headReady_of (by decide +kernel), by decide +kernel⟩

theorem witness_IssueTakesOrdinal :
    issueOf (.launch 0) = some (0, 0x30) ∧ iOpcode (insn 0x30 0) = 0x30 ∧ (put world 0 (ready (insn 0x30 0))).headReady 0 (insn 0x30 0)
      ∧ (put world 0 (ready (insn 0x30 0))).slotFor 0 = some 0 ∧ (put world 0 (ready (insn 0x30 0))).executorAccepts 0 0x30 = true
      ∧ (put world 0 { ready (insn 0x10 0) with unit := 0xFFF }).executorAccepts 0 0x10 = true
      ∧ (put world 1536 { ready (insn 0x50 0) with unit := 0 }).executorAccepts 1536 0x50 = true := by
  refine ⟨by decide +kernel, by decide +kernel, headReady_of (by decide +kernel), by decide +kernel, by decide +kernel, by decide +kernel,
    by decide +kernel⟩

/-- The buffer of `programmed` at its first instruction. -/
def fetching : Queue := { state := .running, cur := some ⟨0x1000, 2, 3⟩ }

theorem witness_InstructionFetched :
    (∃ d bytes, (put programmed 0 fetching).readVa ((put programmed 0 fetching).cmdPort 0) (0x1000 + 32 * ((put programmed 0 fetching).queue 0).head.toNat) 32
        = (d, .ok bytes) ∧ d.queue 0 = (put programmed 0 fetching).queue 0
        ∧ encodingValid (BitVec.ofNat 256 (leNat bytes)) 0 = true ∧ consuming (BitVec.ofNat 256 (leNat bytes)) = false)
      ∧ encodingValid (insn 0x44 0) 0 = false ∧ consuming (insn 0x44 0) = true ∧ encodingValid (insn 0x08 0) 0 = false
      ∧ consuming (insn 0x08 0) = false := by
  refine ⟨?_, by decide +kernel⟩
  obtain ⟨d, h, h2⟩ := pair_of (P := fun d : Dev => d.queue 0 = (put programmed 0 fetching).queue 0) (b := Fetch.ok (List.replicate 32 0))
    ((put programmed 0 fetching).readVa ((put programmed 0 fetching).cmdPort 0) (0x1000 + 32 * ((put programmed 0 fetching).queue 0).head.toNat) 32)
    (by decide +kernel)
  exact ⟨d, _, h, h2, by decide +kernel, by decide +kernel⟩

/-- A queue that waits for a journal slot. -/
def asking : State := put world 7 { ready (insn 0x10 0) with head := 4 }

/-- An operation with opcode and status in a journal slot. -/
def running (slot : SlotId) (o : Operation) (e : Entry) (s : State) : State :=
  { s with cmd := { s.cmd with ops := s.cmd.ops ++ [o], journal := { s.cmd.journal with
      allocated := s.cmd.journal.allocated ++ [slot], entries := Table.set none s.cmd.journal.entries slot.val (some e) } } }

def finishedSlot : State := { world with cmd := { world.cmd with journal := { allocated := [4095], terminal := [4095] } } }

theorem witness_JournalSlots :
    asking.slotWaiter = some 7 ∧ (asking.queue 7).fetched = some (insn 0x10 0) ∧ (asking.queue 7).endUnperformed = none
      ∧ (0 : SlotId) ∉ asking.cmd.journal.allocated ∧ asking.wantsSlot 7 = true
      ∧ (4095 : SlotId) ∈ finishedSlot.cmd.journal.allocated ∧ (4095 : SlotId) ∈ finishedSlot.cmd.journal.terminal
      ∧ (finishedSlot.toDev.freeSlot 4095).slotWaiter = none := by decide +kernel

theorem witness_WatchdogExpires :
    let s := put world 0 { ready (insn 0x10 0) with watchdog := 1 }
    (s.queue 0).watchdog ≠ 0 ∧ (s.queue 0).headSince.toNat + 1000 * (s.queue 0).watchdog.toNat < (1001 : U64).toNat
      ∧ ¬(s.queue 0).headSince.toNat + 1000 * (s.queue 0).watchdog.toNat < (1000 : U64).toNat ∧ consuming (insn 0x10 0) = true
      ∧ s.slotFor 0 = some 0 ∧ (s.queue 0).endUnperformed = none ∧ s.now.toNat ≤ (1001 : U64).toNat ∧ consuming (insn 0 0) = false := by
  decide +kernel


/-- A kernel of eight instructions at 0x1000, one stook of one sheaf of 16 stalks, its LAUNCH in journal slot 0 of queue 0. -/
def kernel : LaunchOp :=
  { width := 16, sheaves := 1, regs := 16, smem := 1, grid := (1, 1, 1), ieee := false, entry := 0, timeoutUs := 10, codeBase := 0x1000,
    codeLen := 8, region := 3, args := [], procs := [0], nextOrdinal := 1 }

def launched : Operation :=
  { queue := 0, slot := 0, ordinal := 1, index := 0, word := insn 0x30 0, h := [0, 0, 0, 0], phase := 0, begun := true, body := .launch kernel }

/-- The sheaf at its first instruction, v0 the stalk's index, v2 = 5 and v3 = 7 in every stalk. -/
def stalks : List Stalk := (List.range 16).map (fun i => { pc := 0, v := [(2, 5), (3, 7)] ++ (if i = 0 then [] else [(4, BitVec.ofNat 32 i)]) })

def residents (f : Stalk → Stalk) : ShfState := { stooks := [{ id := 0, slot := 0, ordinal := 0, proc := 0, sheaves := [{ stalks := stalks.map f }] }], nextId := 1 }

/-- The kernel about to execute w, which the instruction cache of its processor holds. -/
def sheafAt (w : Nat) (f : Stalk → Stalk := id) : State :=
  let s := put world 0 { state := .running, sheafMask := 1 }
  { s with cmd := { s.cmd with ops := [launched] }, shf := { residents f with code := [(0, [⟨1, 0x20, leBytes 128 w⟩])] } }

def g0 : SheafRef := ⟨0, 0⟩

/-- The issue of that instruction. -/
def issueAt (w : Nat) (f : Stalk → Stalk := id) : Issue :=
  { st := (residents f).stooks.getD 0 ⟨0, 0, 0, 0, [], [], none, {}⟩, k := 0, sh := { stalks := stalks.map f }, o := launched, l := kernel, pc := 0, w := w,
    group := List.range 16, act := guarded { stalks := stalks.map f } w (List.range 16) }

def issuesOk (w : Nat) : Bool :=
  let r := (sheafAt w).codeWord ((sheafAt w).sheafPort launched 0 0) 0 0x1000
  r.2 = .ok (leBytes 8 w) && leNat (leBytes 8 w) = w && sheafValid 16 w

theorem issues_at (w : Nat) (h : issuesOk w = true) : ∃ s', (sheafAt w).issues s' g0 (issueAt w) ∧ (issueAt w).pc + 1 < (issueAt w).l.codeLen := by
  simp only [issuesOk, Bool.and_eq_true, decide_eq_true_eq] at h
  obtain ⟨⟨h1, h2⟩, h3⟩ := h
  refine ⟨((sheafAt w).codeWord ((sheafAt w).sheafPort launched 0 0) 0 0x1000).1, ⟨rfl, rfl, rfl, rfl, ?_, ⟨leBytes 8 w, ?_, h2.symm⟩, h3, rfl, ⟨rfl, rfl, rfl⟩⟩, ?_⟩
  · show ({ stalks := stalks.map id } : Sheaf).select = some (0, List.range 16)
    decide +kernel
  · exact Prod.ext rfl h1
  · show 0 + 1 < 8
    decide

/-- A sheaf instruction word (R290): opcode, dst, a, b, c, mod. -/
def sw (op dst a b c m : Nat) : Nat := op * 2 ^ 56 + dst * 2 ^ 40 + a * 2 ^ 32 + b * 2 ^ 24 + c * 2 ^ 16 + m

/-- The same with the short immediate v in place of b and c. -/
def swImm (op dst a v m : Nat) : Nat := op * 2 ^ 56 + dst * 2 ^ 40 + a * 2 ^ 32 + v * 2 ^ 16 + 2 ^ 15 + m

/-- Every one of a list of instructions is about to issue in the kernel that holds it. -/
def Issuing (l : List Nat) : Prop := ∀ w ∈ l, ∃ s', (sheafAt w).issues s' g0 (issueAt w) ∧ (issueAt w).pc + 1 < (issueAt w).l.codeLen

theorem issuing_of {l : List Nat} (h : l.all issuesOk = true) : Issuing l :=
  fun w hw => issues_at w (List.all_eq_true.mp h w hw)

theorem witness_SheafIntegerOps : Issuing [sw 0x10 8 2 3 0 0, sw 0x13 8 2 4 0 3, sw 0x19 8 2 3 0 2, swImm 0x1F 8 0 5 0] :=
  issuing_of (by decide +kernel)

theorem witness_SheafFloatOps : Issuing [sw 0x22 8 2 3 4 0, sw 0x34 8 2 4 0 0, sw 0x40 8 2 0 0 0x10, sw 0x56 8 2 0 0 0] :=
  issuing_of (by decide +kernel)

theorem witness_SheafSelectOps : Issuing [sw 0x60 1 2 3 0 0, sw 0x61 7 2 4 0 0x15, sw 0x62 8 2 3 0 1, sw 0x63 1 0 7 0 3, sw 0xB0 8 4 2 0 0, swImm 0xB0 8 4 1 3,
    sw 0xB1 1 0 0 0 1, sw 0xB2 8 4 0 0 0, sw 0xB3 8 4 0 0 5, sw 0xC0 8 0 0 0 0xD, sw 0xC1 8 0 0 0 0] := issuing_of (by decide +kernel)

theorem witness_SheafUniformOps : Issuing [swImm 0x70 8 0 5 0xE, swImm 0x71 9 4 15 0, swImm 0x71 9 4 16 0, sw 0xB1 8 0 0 0 2] :=
  issuing_of (by decide +kernel)

theorem witness_SheafControlOps : Issuing [0, 0x01 * 2 ^ 56 + 6 * 2 ^ 16, 0x01 * 2 ^ 56 + 7 * 2 ^ 16, sw 0x02 0 4 0 0 0, 0x03 * 2 ^ 56 + 8 * 2 ^ 40,
    sw 0x04 0 0 0 0 0, sw 0x05 0 0 0 0 0, sw 0x06 0 0 0 0 0 + 2 ^ 48, sw 0x07 0 0 0 0 2, sw 0x08 0 0 0 0 0] := issuing_of (by decide +kernel)

theorem witness_SheafMemoryOps : Issuing [sw 0x80 8 10 0xFF 0 2, sw 0x81 0 10 0xFF 2 2, swImm 0x72 8 0 8 2 + 2 ^ 48, sw 0xA0 8 10 2 0 0, sw 0x90 8 10 0xFF 0 2,
    sw 0x91 0 10 0xFF 2 2, sw 0xA1 8 10 2 0 0] := issuing_of (by decide +kernel)

theorem witness_SsyncReleases :
    let h : Sheaf := { stalks := [{ pc := 1, wait := .ssync 0 3 0 }, { pc := 1, wait := .ssync 0 1 0 }, { pc := 0 }] }
    h.stalks[0]? = some { pc := 1, wait := .ssync 0 3 0 } ∧ h.syncRelease.stalks[0]? = some { pc := 1 } ∧ h.syncRelease.stalks[2]? = some { pc := 0 } := by
  decide +kernel

/-- The sheaf of `sheafAt` waiting for the line of its LD. -/
def loading : State :=
  let access : SheafAccess := ⟨sw 0x80 8 10 0xFF 0 2, [0], [{ lane := 0, va := 0x1004 }], [0x20]⟩
  let sheaf : Sheaf := { stalks := [{ pc := 1, wait := .memory }], accesses := [access] }
  holding [(0x20, 0)] { sheafAt 0 with shf := { stooks := [{ id := 0, slot := 0, ordinal := 0, proc := 0, sheaves := [sheaf] }], nextId := 1 } }

theorem witness_LineAnswered :
    (∃ d bytes, loading.readVa { loading.sheafPort launched 0 0 with hint := 0 } (128 * 0x20) 128 = (d, .ok bytes))
      ∧ ((loading.readVa { loading.sheafPort launched 0 0 with hint := 0 } (128 * 0x20) 128).1.shf = loading.shf)
      ∧ (loading.stook 0).map Stook.id = some 0 ∧ holds (loading.launchOf ((loading.stook 0).getD ⟨0, 0, 0, 0, [], [], none, {}⟩)) (fun x => x.2.codeLen = 8) = true :=
  ⟨fetch_ok _ (by decide +kernel), by decide +kernel⟩

/-- A LAUNCH in slot 0 with all its stooks to start. -/
def starting : State :=
  let s := sheafAt 0
  { s with cmd := { s.cmd with ops := [{ launched with body := .launch { kernel with nextOrdinal := 0 } }] }, shf := {} }

/-- The stook of `sheafAt` waiting at its barrier until package time 10,000, or at SSYNC since time 0. -/
def atBarrier (w : StalkWait) : State :=
  let s := sheafAt 0
  { s with shf := { stooks := [{ id := 0, slot := 0, ordinal := 0, proc := 0, sheaves := [{ stalks := [{ pc := 1, wait := w }, { pc := 0 }] }],
                                 barrier := some (10000, 0) }], nextId := 1 } }

theorem witness_StookStartsAndFails :
    ({ kernel with nextOrdinal := 0 } : LaunchOp).order.find? (starting.stookFits { kernel with nextOrdinal := 0 }) = some 0
      ∧ ({ kernel with nextOrdinal := 0 } : LaunchOp).nextOrdinal < kernel.stooks ∧ (∀ k ∈ starting.shf.stooks, k.id < starting.shf.nextId)
      ∧ ((atBarrier .barrier).stook 0).map Stook.barrier = some (some (10000, 0)) ∧ (10000 : U64).toNat ≤ max (atBarrier .barrier).now.toNat (10000 : U64).toNat
      ∧ ((0 : U64) + BitVec.ofNat 64 (kernel.timeoutUs * 1000)).toNat ≤ max (atBarrier (.ssync 0 3 0)).now.toNat (10000 : U64).toNat := by
  decide +kernel

theorem test_iadd : ((after (.iadd g0) (sheafAt (sw 0x10 8 2 3 0 0))).stook 0).map (fun k => (k.sheaves.flatMap Sheaf.stalks).map (fun y => (y.pc, Table.get 0 y.v 8)))
    = some (List.replicate 16 (1, 12)) := by decide +kernel

theorem test_scan : ((after (.scan g0) (sheafAt (sw 0xB3 8 4 0 0 1))).stook 0).map (fun k => (k.sheaves.flatMap Sheaf.stalks).map (fun y => Table.get 0 y.v 8))
    = some [0, 1, 3, 6, 10, 15, 21, 28, 36, 45, 55, 66, 78, 91, 105, 120] := by decide +kernel

theorem test_jump_beyond_code : (after (.jmp g0) (sheafAt (0x01 * 2 ^ 56 + 7 * 2 ^ 16))).shf.stooks = []
    ∧ ((after (.jmp g0) (sheafAt (0x01 * 2 ^ 56 + 7 * 2 ^ 16))).op 0).map Operation.failed = some (some (3, 4)) := by decide +kernel

theorem test_exit : ((after (.sExit g0) (sheafAt (sw 0x04 0 0 0 0 0))).op 0).map Operation.written = some [0] := by decide +kernel


theorem witness_StepRateWindows :
    100000 ≤ (100000 : U32).toNat ∧ (100000000 : U32).toNat ≤ 100000000 ∧ ¬(100000 ≤ (99999 : U32).toNat ∧ (99999 : U32).toNat ≤ 100000000)
      ∧ world.windows.stop.toNat + 2 * 100000 < 2 ^ 64 ∧ (([⟨0, 4, 3⟩, ⟨19, 4, 4⟩] : List StepCount).map StepCount.die).Nodup
      ∧ world.inService 0 = true ∧ world.inService 19 = true := by decide +kernel

theorem test_window_end :
    (after (.windowEnd [⟨0, 2000000, 1500000⟩]) { world with thr := { inWindow := [(0, true)] } }).objAt 0x0B 0x100 0 = 1500000
      ∧ (after (.windowEnd [⟨0, 2000000, 1500000⟩]) { world with thr := { inWindow := [(0, true)] } }).objAt 0x0B 0x105 0 = 64
      ∧ (after (.windowEnd [⟨0, 2000000, 1500000⟩]) world).objAt 0x0B 0x100 0 = 2000000 := by decide +kernel

/-- A descriptor table whose handles 1 and 2 describe the kernel's code, in region 3, and its parameters. -/
def launchable : State :=
  let code := 0x1000 + (2 ^ 120 + 3 * 2 ^ 124) + 64 * 2 ^ 128 + 3 * 2 ^ 192
  let params := 2 * 2 ^ 124 + 0x030 * 2 ^ 112 + 1 * 2 ^ 4 + 16 * 2 ^ 10 + 2 ^ 176 + 2 ^ 192 + 2 ^ 208
  let s := put (holding [(0x200, code * 2 ^ 512), (0x201, params), (0x400, (0x1000 + 2 ^ 64 * 3 + 2 ^ 112) * 2 ^ 384)] world) 0
    { state := .running, sheafMask := 1 }
  running 0 { queue := 0, slot := 0, ordinal := 1, index := 0, word := insn 0x30 0 [1, 2], h := [1, 2, 0, 0], phase := 0 } {} s

def launching : Operation := { queue := 0, slot := 0, ordinal := 1, index := 0, word := insn 0x30 0 [1, 2], h := [1, 2, 0, 0], phase := 0 }

/-- What that LAUNCH reads once it has begun. -/
def launchReads (s : State) : Named LaunchOp :=
  ((s.toDev.beginOp 0 id).readLaunch { launching with begun := true, tBegin := s.now, sampled := s.sampleFor launching }).2

theorem witness_LaunchBegins :
    launchable.op 0 = some launching ∧ iOpcode launching.word = 0x30 ∧ (∀ x ∈ launchable.earlier launching.queue 0, x.begun = true ∨ x.status ≠ 0)
      ∧ Table.get none launchable.cmd.journal.entries 0 = some {} ∧ Named.good (launchReads launchable) = true
      ∧ launchReads (put launchable 0 { state := .running }) = .invalid
      ∧ launchReads { launchable with xl := { launchable.xl with tcs := Vector.replicate 20 [] } } = .wait
      ∧ launchReads { launchable with mem := { launchable.mem with agents := launchable.mem.agents.set 0 {
          lines := [(0x200, some { st := .e, data := zeroLine, poison := true })] } } } = .fail 6 0x10040 := by decide +kernel

def aborted : Operation := { launching with status := 5, reason := 7 }

theorem witness_OperationEnds :
    let s := running 0 aborted {} (put world 0 { state := .draining })
    s.op 0 = some aborted ∧ aborted.slot = 0 ∧ (∀ x ∈ s.running aborted.queue, aborted.ordinal ≤ x.ordinal) ∧ s.opDone aborted = true
      ∧ (s.queue aborted.queue).slot ≠ some 0 ∧ Table.get none s.cmd.journal.entries 0 = some {} := by decide +kernel

theorem test_operation_end :
    let t := after (.operationEnd 0) (running 0 aborted {} (put world 0 { state := .draining, stopping := true, stopReason := 7 }))
    (t.queue 0).state = .stopped ∧ (t.queue 0).reason = 7 ∧ t.cmd.journal.compWritten = 1 ∧ t.cmd.ops = [] := by decide +kernel

theorem witness_SignalPerformed :
    let s := put world 0 { state := .running, signals := [⟨1, 19, 511, 0, 0, true, false⟩] }
    (s.queue 0).signals = [⟨1, 19, 511, 0, 0, true, false⟩] ∧ s.running 0 = [] ∧ (put world 0 {}).dueSignal 0 = none := by decide +kernel

theorem test_signal :
    (after (.signal 0) (put world 0 { state := .running, signals := [⟨1, 19, 511, 0, 0, true, false⟩] })).flag 19 511 = true := by
  decide +kernel

theorem witness_CoreWords :
    (CoreAccess.mk .amoAdd 0 8 1).off = 0 ∧ ¬((CoreAccess.mk .store 4 4 1).off = 0) ∧ CoreAccess.wf ⟨.store, 4, 4, 1⟩ = true := by decide

theorem test_counter_amoadd :
    let s := after (.counterStore (.package 1023) ⟨.store, 0, 4, 0xFFFFFFFF⟩) world
    s.counterOf (.package 1023) = 0xFFFFFFFF ∧ (after (.counterAmoadd (.package 1023) ⟨.amoAdd, 0, 4, 2⟩) s).counterOf (.package 1023) = 1
      ∧ (after (.counterAmoadd (.package 1023) ⟨.amoAdd, 0, 4, 2⟩) s).reply = some (.value 0xFFFFFFFF) := by decide +kernel

/-- An instruction whose wait 0 is for package time tref + 5. -/
def waitsForTime : BitVec 256 := insn 0 0 ||| BitVec.ofNat 256 ((5 * 2 ^ 53 + 5) * 2 ^ 184)

/-- An instruction whose wait 0 is for flag 3 of die 2. -/
def waitsForFlag : BitVec 256 := insn 0 0 ||| BitVec.ofNat 256 ((2 ^ 53 + 2 * 2 ^ 48 + 3 * 2 ^ 38) * 2 ^ 184)

theorem witness_WaitsLatch :
    let s := put world 0 { state := .running, fetched := some waitsForTime, wait1 := true }
    (s.queue 0).state = .running ∧ (s.queue 0).fetched = some waitsForTime ∧ isTestedBreak waitsForTime = false ∧ (s.queue 0).wait0 = false
      ∧ waitKind (iWait0 waitsForTime) = 5 ∧ (s.queue 0).tref.toNat + waitOffset (iWait0 waitsForTime) < 2 ^ 64
      ∧ isTestedBreak waitsForFlag = false
      ∧ ((put world 0 { state := .running, fetched := some waitsForFlag }).updateFlag 2 3 true).waitHolds 0 (iWait0 waitsForFlag) = true := by
  decide +kernel

theorem test_wait_time : (after (.packageTimeReached 0) (put world 0 { state := .running, fetched := some waitsForTime, wait1 := true })).now = 5 := by
  decide +kernel

/-- A matrix of one FP32 element at an address. -/
def cell (base : Nat) : Tensor := { base := base, fmt := .fp32, exts := [1, 1], strides := [1], round := ⟨false, false, 0⟩, hint := 0, scale := none }

/-- A MATMUL of one element, and its tile. -/
def product : MillOp := { kind := .matmul, a := cell 0x2000, b := some (cell 0x2080), d := cell 0x2100, m := 1, n := 1, k := 1, units := 1, mills := [0], pfDistance := 4 }

def multiplying : Operation :=
  { queue := 0, slot := 0, ordinal := 1, index := 0, word := insn 0x10 0, h := [0, 0, 0, 0], phase := 0, begun := true, body := .mill product }

def tile : TileJob := { slot := 0, ordinal := 0, batch := 0, m0 := 0, n0 := 0, tm := 1, tn := 1, k0 := 0, k1 := 1, rank := 0, group := [0] }

def entry : CurdEntry := { job := tile, seg := 0, last := true, vals := [.zero false], flushed := [], pro := [] }

/-- A mill of CD0 at work for that MATMUL. -/
def milling (m : Mill) : State :=
  let s := running 0 multiplying {} (put (holding [(0x40, 0), (0x41, 0), (0x42, 0)] world) 0 { state := .running, unit := 1 })
  { s with cmd := { s.cmd with mills := s.cmd.mills.set 0 { m with op := some 0 } } }

/-- The fetch of its only K-slice, every line of it held. -/
def held : Filling := { job := tile, k0 := 0, k1 := 1, a := { whole := true }, b := { whole := true } }

theorem witness_ThresherUnits :
    (product.ranges tile)[0]? = some (0, 1) ∧ ((milling { fill := some tile, filling := [held] }).mill 0).slots.length + 1 ≤ product.slots
      ∧ ((milling { fill := some tile, filling := [held] }).mill 0).filling = [held]
      ∧ (∃ d e, (milling { fill := some tile, filling := [held] }).slotOf multiplying product 0 held = (d, .ok e))
      ∧ (milling { fill := some tile }).op tile.slot = some multiplying ∧ multiplying.failed = none
      ∧ ((milling { finished := some entry }).mill 0).finished = some entry ∧ ((milling { finished := some entry }).mill 0).curd.length < 2
      ∧ 2 ≤ ((milling { finished := some entry, curd := [entry, entry] }).mill 0).curd.length := by
  refine ⟨by decide +kernel, by decide +kernel, by decide +kernel, fetch_ok _ (by decide +kernel), by decide +kernel⟩

/-- The machine with every chain engine of CD0 at work on a total. -/
def chainsBusy : State :=
  let s := milling { finished := some entry, total := some entry }
  { s with cmd := { s.cmd with mills := Vector.replicate 96 { op := some 0, finished := some entry, total := some entry } } }

theorem witness_ThresherUnits_busy : ∀ n, millDie n = millDie 0 → ∃ z, (chainsBusy.mill n).total = some z ∧ z.last = true := by
  intro n _
  refine ⟨entry, ?_, rfl⟩
  show ((Vector.replicate 96 ({ op := some 0, finished := some entry, total := some entry } : Mill))[n.val]).total = some entry
  simp

theorem witness_TileWrittenCounts :
    let s := milling { total := some entry }
    (s.mill 0).total = some entry ∧ entry.last = true ∧ s.op entry.job.slot = some multiplying ∧ product.kind ≠ .attend
      ∧ ∃ d1 w d2 u, s.tileOut (s.chainPort multiplying 0) product tile ⟨splitRows 1 1 entry.vals, [], [], entry.rows, 0⟩ = (d1, .ok w)
        ∧ d1.writeUnit (s.chainPort multiplying 0) product.d.hint false w.runs = (d2, .ok u) ∧ decide (d2.op 0 = some multiplying) = true :=
  ⟨by decide +kernel, by decide +kernel, by decide +kernel, by decide +kernel, chain_ok _ _ _ (by decide +kernel)⟩

theorem test_tile_written : ((after (.tileWritten 0) (milling { total := some entry })).op 0).map Operation.written = some [0] := by decide +kernel

def addend : RowEntry := { slot := 0, row := 0, addr := 0x2000, sum := 3, sumsq := 9, count := 1, nonfinite := false }

theorem witness_StatisticsAdd :
    let s := milling { adds := [addend] }
    s.nextAdd 0 = some addend ∧ s.op addend.slot = some multiplying
      ∧ (∃ d ps, s.holdWrite (s.chainPort multiplying 0) 0 false wantAtomic [(addend.addr, 256)] = (d, .ok ps))
      ∧ (s.holdWrite (s.chainPort multiplying 0) 0 false wantAtomic [(addend.addr, 256)]).1.poisonIn [⟨0x2000, 0x2000, 256, false⟩] = none
      ∧ ((s.writePieces (s.chainPort multiplying 0) 0 [⟨0x2000, 0x2000, 256, false⟩] (leBytes 256 5) []).isSome = true) := by
  refine ⟨by decide +kernel, by decide +kernel, fetch_ok _ (by decide +kernel), by decide +kernel⟩

theorem test_statistics_add :
    (statsAdd { nAcc := 1, nExp := 2, final := false, nonfinite := false, overrun := false, moments := 0, sum := 4, sumsq := 16, rest := 0 } addend).1.nAcc = 2
      ∧ (statsAdd { nAcc := 2, nExp := 2, final := true, nonfinite := false, overrun := false, moments := 0, sum := 4, sumsq := 16, rest := 0 } addend).1.overrun
          = true := by decide +kernel

/-- A COPY of 16 bytes. -/
def copying : UnitOp := { src := .bytes ⟨0x2000, 16, 0⟩, dst := some (.bytes ⟨0x2100, 16, 0⟩), units := 1 }

def copyOp : Operation :=
  { queue := 0, slot := 0, ordinal := 1, index := 0, word := insn 0x41 0 [1, 0, 2], h := [1, 0, 2, 0], phase := 0, begun := true, body := .stream copying }

def copyState : State := running 0 copyOp {} (put (holding [(0x40, 0x1122), (0x42, 0)] world) 0 { state := .running })

theorem witness_CopyUnitMoves :
    copyState.op 0 = some copyOp ∧ iOpcode copyOp.word = 0x41 ∧ copying.next < copying.units
      ∧ (∃ d1 v d2 u, copyState.readImage (copyState.opStream copyOp 0) copying.src 0 16 = (d1, .ok v)
        ∧ d1.writeImage (copyState.opStream copyOp 1) (.bytes ⟨0x2100, 16, 0⟩) 0 16 v = (d2, .ok u) ∧ decide (d2.op 0 = some copyOp) = true)
      ∧ (∃ d, copyState.readImage (copyState.opStream copyOp 0) (.bytes ⟨2 ^ 63, 16, 0⟩) 0 16 = (d, .fail 4 (2 ^ 63)))
      ∧ ∃ d, copyState.writeImage (copyState.opStream copyOp 1) (.bytes ⟨2 ^ 63, 16, 0⟩) 0 16 5 = (d, .fail 4 (2 ^ 63)) :=
  ⟨by decide +kernel, by decide +kernel, by decide +kernel, chain_ok _ (fun d1 v => d1.writeImage (copyState.opStream copyOp 1) (.bytes ⟨0x2100, 16, 0⟩) 0 16 v) _
    (by decide +kernel), pair_ok _ (by decide +kernel), pair_ok _ (by decide +kernel)⟩

theorem test_copy : (after (.copy (.unit 0)) copyState).physNat 0x2100 2 = 0x1122 := by decide +kernel

/-- A side buffer of CD0 with a line in flight or arrived. -/
def sideState (f : Option InFlight) (l : Option SideLine) : State :=
  { world with mem := { world.mem with
      inFlight := world.mem.inFlight.set 0 (Table.set none [] 0x40 f), side := world.mem.side.set 0 (Table.set none [] 0x40 l) } }

def fillLine_ : State := sideState (some { joined := none, discard := false, life := 100 }) none

theorem witness_SideBuffers :
    ((milling { fill := some tile }).linesAhead 0 0).map (fun x => x.2.2.head?) = some (some 0x2000) ∧ world.linesAhead 0 0 = none
      ∧ (fillLine_.entryAhead 0 (prefetcherNo 0 0)).length < min (fillLine_.entriesFree 0 0x60).1 (fillLine_.entriesFree 0 0x60).2
      ∧ (∀ l ∈ [(0, 7, 0)], (milling { fill := some tile }).blockStands 0 l = true)
      ∧ 0 < product.pfDistance ∧ (milling { fill := some tile }).tcHit 0 1 (0x2000 / 4096) wantRead = some wholePage ∧ fillLine_.prefetchDrops (tagOf 0x3000 false) = false
      ∧ (milling { fill := some tile }).holdsLine 0 (tagOf 0x2100 false) = true ∧ fillLine_.holdsLine 0 (tagOf 0x3000 false) = false
      ∧ fillLine_.sideUsed 0 (tagOf 0x3000 false) < 256 ∧ Table.get none (fillLine_.mem.inFlight[(0 : Fin 8)]) 0x40 = some { joined := none, discard := false, life := 100 }
      ∧ fillLine_.lineBusy 0x40 = false ∧ ((fillLine_.setFlight 0 0x40 none).obtain 0 0x40).2.2.2 = false
      ∧ (max (sideState none (some ⟨0, 100, [], false⟩)).now.toNat (100 : U64).toNat) = 100 := by decide +kernel

theorem test_lifetime :
    Table.get none ((after (.pfLifetimeExpiry 0 0x40 100) (sideState none (some ⟨0, 100, [], false⟩))).mem.side[(0 : Fin 8)]) 0x40 = none := by
  decide +kernel

/-- Relay queue 5 of address space 1, between queue 0 and a core, or a core and queue 0. -/
def relayed (x : Relay) (w : BitVec 256) : State :=
  let s := put world 0 (ready w)
  { s with relays := s.relays.set 5 { x with asid := 1 } }

theorem witness_RelayControl :
    ((relayed { producer := 0xFFF } 0).relay 5).enable = false ∧ ((relayed { enable := true } 0).relay 5).enable = true
      ∧ (relayed { enable := true } 0).relayWaiters 5 = [] ∧ ((257 : U32) - ((relayed { producer := 0xFFF } 0).relay 5).takes).toNat = 257
      ∧ ((256 : U32) - ((relayed { producer := 0xFFF } 0).relay 5).takes).toNat ≤ 256 := by decide +kernel

theorem witness_RelayOps :
    (relayed { producer := 0, enable := true } (insn 0x42 5 [1])).headReady 0 (insn 0x42 5 [1])
      ∧ (relayed { producer := 0, enable := true } (insn 0x42 5 [1])).slotFor 0 = some 0 ∧ iParam (insn 0x42 5 [1]) < 64
      ∧ relayOf (insn 0x42 5 [1]) = 5 ∧ ((relayed { producer := 0, enable := true } (insn 0x42 5 [1])).relay 5).producer.toNat = 0
      ∧ 256 ≤ (((relayed { producer := 0, enable := true, puts := 256 } (insn 0x42 5 [1])).relay 5).puts
          - ((relayed { producer := 0, enable := true, puts := 256 } (insn 0x42 5 [1])).relay 5).takes).toNat
      ∧ (relayed { consumer := 0, enable := true, puts := 1, entries := [(0, 2 ^ 124)] } (insn 0x43 5 [0, 0, 1])).headReady 0 (insn 0x43 5 [0, 0, 1])
      ∧ descKind (2 ^ 124) = 1 := by
  refine ⟨headReady_of (by decide +kernel), by decide +kernel, by decide +kernel, by decide +kernel, by decide +kernel, by decide +kernel,
    headReady_of (by decide +kernel), by decide +kernel⟩

theorem test_relay_full :
    ((after (.relayPut 0) (relayed { producer := 0, enable := true, puts := 256 } (insn 0x42 5 [1]))).relay 5).fullWaits = 1 := by decide +kernel


/-- The home of line 0x40 changed. -/
def atHome (f : Hub → Hub) (s : State) : State := s.lift (fun d => d.modHub (d.hubOf (tagLoc 0x40)) f)

/-- The directory's entry of line 0x40. -/
def recorded (d : DirEntry) : State := atHome (fun h => { h with dir := [(0x40, some d)] }) world

theorem admits_of {s : Dev} {t : LineTag} (h : okLine t = true ∧ tagRealm t = false ∧ s.scrubbed (tagPa t) (tagRealm t) = (false, false) ∧ s.lineBusy t = false) :
    s.admits t := ⟨h.1, fun (x : tagRealm t = true) => absurd x (by rw [h.2.1]; decide), h.2.2.1, h.2.2.2⟩

theorem witness_HomeGrants :
    world.admits 0x40 ∧ world.dirOf 0x40 = none ∧ (∀ e, world.dirOf 0x40 = some e → e.owner = none) ∧ (world.toDev.homeRead 0x40 (some 0)).2.2 = false
      ∧ (recorded ⟨.s, none, [1], false, 0⟩).admits 0x40 ∧ (recorded ⟨.s, none, [1], false, 0⟩).dirSays 0x40 .s none [1] ∧ (2 : Agent) ∉ [(1 : Agent)] :=
  ⟨admits_of (by decide +kernel), by decide +kernel, all_none (by decide +kernel), by decide +kernel, admits_of (by decide +kernel),
    ⟨⟨.s, none, [1], false, 0⟩, by decide +kernel, rfl, rfl, rfl⟩, by decide⟩

theorem test_read_shared_alone : ((after (.readShared 3 0x40 0) world).dirOf 0x40).map (fun d => (d.st, d.owner, d.sharers)) = some (.x, some 3, []) := by
  decide +kernel

theorem witness_HomeSnoops :
    requestMsg (.readOwn 0 0x40 0) = some (0, 0x40, .readOwn, .readOwn 0 0x40) ∧ (recorded ⟨.o, some 1, [0, 9], false, 0⟩).admits 0x40
      ∧ (recorded ⟨.o, some 1, [0, 9], false, 0⟩).dirOf 0x40 = some ⟨.o, some 1, [0, 9], false, 0⟩
      ∧ (⟨.o, some 1, [0, 9], false, 0⟩ : DirEntry).agents ≠ [] ∧ (0 : Agent) ∈ (⟨.o, some 1, [0, 9], false, 0⟩ : DirEntry).agents
      ∧ (recorded ⟨.x, some 1, [], false, 0⟩).txnOf 0x40 = none := by
  refine ⟨rfl, admits_of (by decide +kernel), by decide +kernel⟩

def awaiting : Txn := { epoch := 0, kind := .readShared, by_ := .agent 2, awaiting := [1], deadline := 100000 }

def transacting (x : Txn) : State :=
  atHome (fun h => { h with dir := [(0x40, some ⟨.x, some 1, [], false, 0⟩)], txns := [(0x40, some x)], epoch := 1 }) world

theorem witness_HomeAnswers :
    (transacting awaiting).lastAnswer 0x40 1 0 awaiting ∧ (transacting awaiting).dirSays 0x40 .x (some 1) []
      ∧ (transacting { awaiting with kind := .readOwn }).lastAnswer 0x40 1 0 { awaiting with kind := .readOwn }
      ∧ (∀ x, world.txnOf 0x40 = some x → x.epoch ≠ 5 ∨ (1 : Agent) ∉ x.awaiting)
      ∧ awaiting.deadline ≤ max (transacting awaiting).now.toNat (100000 : U64).toNat ∧ (transacting awaiting).heldOf 0x40 = []
      ∧ ∀ m, ((transacting awaiting).mmu m).fqEn = false := by
  refine ⟨?_, ⟨⟨.x, some 1, [], false, 0⟩, by decide +kernel, rfl, rfl, rfl⟩, ?_, all_none (by decide +kernel), by decide +kernel⟩ <;>
    (unfold Dev.lastAnswer; decide +kernel)

theorem test_dirty_answer :
    let t := after (.rspData 1 0x40 0 (leBytes 128 7) true false false) (transacting awaiting)
    (t.dirOf 0x40).map (fun d => (d.st, d.owner, d.sharers)) = some (.o, some 1, [2]) ∧ t.txnOf 0x40 = none
      ∧ (t.l3Line 0x40).map (fun l => (l.dirty, l.data.head?)) = some (true, some 7) := by decide +kernel

/-- An agent that holds line 0x40 in a state. -/
def caching (a : Agent) (st : Moesi) : State :=
  { world with mem := { world.mem with agents := world.mem.agents.set a { lines := [(0x40, some { st := st, data := leBytes 128 1 })] } } }

/-- An agent that waits for line 0x40. -/
def missing (a : Agent) (w : Waiting) : State :=
  { world with mem := { world.mem with agents := world.mem.agents.set a { waiting := [(0x40, some w)] } } }

theorem witness_AgentEvents :
    okLine 0x40 = true ∧ ((caching 9 .m).lineAt 9 0x40).map CacheLine.st = some .m ∧ ((caching 0 .s).lineAt 0 0x40).map CacheLine.st = some .s
      ∧ (caching 0 .s).waitingAt 0 0x40 = none ∧ (caching 0 .o).evbFull 0 0x40 = false
      ∧ ((caching 0 .s).agent 0).parked.any (fun e => e.1 = 0x40) = false
      ∧ ((caching 0 .s).entryAhead 0 localNo).length < min ((caching 0 .s).entriesFree 0 0x40).1 ((caching 0 .s).entriesFree 0 0x40).2
      ∧ world.lineAt 0 0x40 = none ∧ world.waitingAt 0 0x40 = none ∧ world.sideLine 0 0x40 = none ∧ world.flightOf 0 0x40 = none
      ∧ (missing 0 (.forShared 0)).victim 0 0x40 false = none
      ∧ (((missing 0 (.forShared 0)).l2Same 0 0x40).filter (fun e => e.2.retained)).length ≤ (missing 0 (.forShared 0)).objAt 8 0x200 0
      ∧ (missing 0 (.forShared 0)).waitingAt 0 0x40 = some (.forShared 0) ∧ (missing 9 (.forOwn 127 [1] false)).waitingAt 9 0x40 = some (.forOwn 127 [1] false)
      ∧ (missing 8 (.forClaim (leBytes 128 3))).waitingAt 8 0x40 = some (.forClaim (leBytes 128 3)) := by decide +kernel

theorem test_snoop_shared_of_m :
    ((after (.snpShared 9 0x40 0) (caching 9 .m)).lineAt 9 0x40).map CacheLine.st = some .o
      ∧ (after (.snpShared 9 0x40 0) (caching 9 .m)).mem.msgs = [.rspData 9 0x40 0 (leBytes 128 1) true false false] := by decide +kernel

/-- A write-combining line that is full since package time 0. -/
def combining : State := { atHome (fun h => { h with wcb := [(0x40, some ⟨fullMask, 0, leBytes 128 9, 0, [3], 0⟩)] }) world with now := 2000 }

theorem witness_MemoryUpkeep :
    combining.wcbLine 0x40 = some ⟨fullMask, 0, leBytes 128 9, 0, [3], 0⟩ ∧ (0 : U64).toNat + 2000 ≤ combining.now.toNat ∧ (leBytes 128 9).length = 128
      ∧ tagDram 0x40 = true ∧ world.wcbLine 0x40 = none ∧ ({ combining with now := 1999 } : State).now.toNat < (0 : U64).toNat + 2000
      ∧ (present (combining.hub (combining.hubOf (tagLoc 0x40))).wcb).length < 512 ∧ (world.hub 3).scrubPos + 1 < 2 ^ 32
      ∧ (caching 0 .e).lineAt 0 0x40 = some { st := .e, data := leBytes 128 1 } ∧ world.objAt 0x0C 0x400 0 ≠ 3
      ∧ (world.setObjAt 0x0C 0x400 0 3).objAt 0x0C 0x400 0 = 3 ∧ (world.setObjAt 7 0x303 0 1).objAt 7 0x303 0 = 1 := by decide +kernel

theorem test_drain : (after (.wcbDrain 0x40 0) combining).dramData 0x40 = leBytes 128 9 := by decide +kernel

/-- A miss of queue 0 at page 0x1000 of address space 1, whose walk meets no mapping, or meets the leaf that a cached non-leaf entry names. -/
def missed (walks : List WalkEntry) : State :=
  let e : MissEntry := { die := 0, asid := 1, vpn := 0x1000, va := 0x1000000, streams := [⟨0xBE, 0, wantRead, 0x1000000, []⟩], walking := true }
  let s := holding [(0x800, (0xFF + 2 ^ 10 * 512) * 2 ^ 512)] world
  { s with xl := { s.xl with misses := [e], mmus := Vector.replicate 2 { ctxCache := [⟨1, context⟩], fqEn := true, walkCache := walks, fqBase := 0x100000 } } }

/-- The levels above the leaf, cached. -/
def cachedWalk : List WalkEntry :=
  [⟨1, 4, 0, 1 + 0x40 * 2 ^ 10⟩, ⟨1, 3, 0, 1 + 0x40 * 2 ^ 10⟩, ⟨1, 2, 0, 1 + 0x40 * 2 ^ 10⟩]

/-- A module with one outstanding page request of the command processor of service die 18, at its queue's fetch. -/
def requested : State :=
  let x : PrSlot := { outstanding := true, reuse := 1, die := 18, asid := 1, vpn := 0x1000, va := 0x1000000, streams := [⟨0xF2, 1536, wantRead, 0x1000000, []⟩],
                      deadline := 10000000, walk := .noMapping }
  let s := put world 1536 { state := .running, cur := some ⟨0x1000000, 1, 0⟩ }
  { s with xl := { s.xl with mmus := s.xl.mmus.set 0 { ctxCache := [⟨1, context⟩], slots := [(0, some x)] } } }

theorem witness_PageRequests :
    hasTc 0 = true ∧ vaError (0x1000000 : U64).toNat = 0 ∧ world.tcHit 0 1 0x1000 wantRead = none ∧ (world.tcHit 0 1 511 wantRead).map TcEntry.vpn = some 0
      ∧ world.tcHit 0 1 512 wantRead = none ∧ world.xl.misses = []
      ∧ (∃ d r, (missed []).walk 0 1 0x1000 = (d, some r) ∧ r.entry = none ∧ d.xl.misses = (missed []).xl.misses ∧ (d.mmu 0).fqEn = true
          ∧ (d.mmu 0).slots = [] ∧ (d.mmu 0).holding = [] ∧ (d.mmu 0).fqHead = (d.mmu 0).fqTail)
      ∧ (requested.prSlot 0 1024).map Prod.fst = some 0 ∧ world.prSlot 0 1024 = none ∧ (requested.queue 1536).state = .running
      ∧ (requested.mmu 0).waitingPr = [] ∧ (10000000 : U64).toNat ≤ max requested.now.toNat (10000000 : U64).toNat := by
  refine ⟨by decide +kernel, by decide +kernel, by decide +kernel, by decide +kernel, by decide +kernel, by decide +kernel, ?_, by decide +kernel⟩
  obtain ⟨d, h, p⟩ := pair_of (P := fun d => d.xl.misses = (missed []).xl.misses ∧ (d.mmu 0).fqEn = true ∧ (d.mmu 0).slots = [] ∧ (d.mmu 0).holding = []
    ∧ (d.mmu 0).fqHead = (d.mmu 0).fqTail) ((missed []).walk 0 1 0x1000) (b := some ⟨none, .noMapping, 0⟩) (by decide +kernel)
  exact ⟨d, _, h, rfl, p⟩

/-- A module whose first system MMU holds one record, with so many entries in its fault queue. -/
def recordHeld (n : U32) : State :=
  { world with xl := { world.xl with mmus := world.xl.mmus.set 0 { holding := [{ cls := .fault, first := 0 }], fqTail := n } } }

theorem witness_PageRequests_held :
    ((recordHeld 4095).mmu 0).holding = [{ cls := .fault, first := 0 }] ∧ ((recordHeld 4095).mmu 0).free = 1 ∧ ((recordHeld 4096).mmu 0).free = 0
      ∧ (world.mmu 0).holding = [] := by decide +kernel

theorem witness_PageRequests_lines :
    ((requested.prSlot 0 1024).map (fun e => e.2.streams.map (fun w => (w.stream, w.for_)))) = some [(0xF2, [])] ∧ requested.fetchWaits 1536 0x1000 = true
      ∧ requested.running 1536 = [] ∧ requested.lineBusy (tagOf ((requested.mmu 0).entryAddr 0) false) = false
      ∧ ((recordHeld 0).mmu 0).holding = [{ cls := .fault, first := 0 }] := by decide +kernel

/-- Command queues off, and on with commands waiting. -/
theorem witness_Invalidation_queue :
    (world.mmu 0).cqIdle = true ∧ ({ world.mmu 0 with cqcsr := 1, cqt := 1 } : Mmu).cqIdle = false ∧ world.lineBusy (tagOf 0x2000 false) = false
      ∧ (transacting awaiting).lineBusy (tagOf 0x2000 false) = true ∧ (0x2000 : U64).toNat < 2 ^ 41 ∧ (world.mmu 0).cqStopped = false
      ∧ ((world.mmu 0).unanswered.any (fun e => (world.asked e.1).contains e.2)) = false := by decide +kernel

theorem test_walk_to_leaf :
    (((missed cachedWalk).walk 0 1 0x1000).2.map (fun r => r.entry.map (fun t => (t.vpn, t.pages, t.pa, t.rights)))) =
      some (some (0x1000, 512, 0x200000, ⟨true, true, false⟩)) := by decide +kernel

theorem test_page_request_failed :
    ((after (.prRespFailed 0 1024) requested).queue 1536).state = .stopped ∧ ((after (.prRespFailed 0 1024) requested).queue 1536).reason = 4 := by
  decide +kernel

theorem witness_Invalidation :
    ((0x40000 : U64).toNat % 2 ^ 18 = 0 ∧ (0x40000 : U64).toNat + 2 ^ 18 ≤ 2 ^ 41)
      ∧ ¬((BitVec.ofNat 64 (2 ^ 41) : U64).toNat % 2 ^ 18 = 0 ∧ (BitVec.ofNat 64 (2 ^ 41) : U64).toNat + 2 ^ 18 ≤ 2 ^ 41)
      ∧ (0 : U64).toNat < 2 ^ 41 := by decide +kernel

theorem test_invalidate :
    (after (.iotinvalVma 1 false true true 1 0x1000) world).xl.tcs[(0 : Die)] = []
      ∧ ((after (.iotinvalVma 1 false true true 1 0x200000) world).xl.tcs[(0 : Die)]).length = 1 := by decide +kernel

/-- An INDEX operation with one entry, whose output buffer is too short for it. -/
def indexing : ServiceOp := { inp := ⟨0x2000, 32, 0⟩, out := ⟨0x2080, 0, 0⟩, results := some ⟨0x2100, 16, 0⟩, units := 1, ready := true }

def indexOp_ : Operation :=
  { queue := 1536, slot := 0, ordinal := 1, index := 0, word := insn 0x53 0 [1, 1, 1, 1], h := [1, 1, 1, 1], phase := 0, begun := true, body := .service indexing }

def serving : State :=
  let s := running 0 indexOp_ {} (put (holding [(0x40, 2 ^ 256 - 1)] world) 1536 { state := .running, unit := 0x40 })
  { s with svc := { s.svc with engines := s.svc.engines.set 2 { channel := some 0x40, quantum := 4096, last := 0x40 } } }

theorem witness_ServiceSteps :
    serving.op 0 = some indexOp_ ∧ (serving.engine (engineIdx (homeDie indexOp_.queue) (serviceEngine (iOpcode indexOp_.word)))).channel
        = some (serving.queue indexOp_.queue).channel
      ∧ (∃ d1 bytes d2 x, serving.readVa (serving.channelPort indexOp_) (indexing.inp.base + 32 * indexing.next) 32 = (d1, .ok bytes)
          ∧ d1.performEntry indexOp_ indexing (leNat bytes) = (d2, .ok x) ∧ decide (d2.op 0 = some indexOp_) = true)
      ∧ (0x40 ∈ serving.readyChannels 18 2) ∧ (serving.engine 2).quantum ≤ 4096 ∧ world.readyChannels 18 2 = [] := by
  refine ⟨by decide +kernel, by decide +kernel, chain_ok _ (fun d1 bytes => d1.performEntry indexOp_ indexing (leNat bytes)) _ (by decide +kernel),
    by decide +kernel⟩

/-- Realm 63 active, its registers set up. -/
def realms (active : Bool) (a0 a1 a2 : U64) : State :=
  { world with svc := { world.svc with realm := 63, arg0 := a0, arg1 := a1, arg2 := a2, realms := world.svc.realms.set 63 { active := active } } }

theorem witness_RealmControl :
    (realms true 0 0 0).svc.realm < 64 ∧ (realms true 0 0 0).svc.busy = false ∧ ((realms true 0 0 0).realmAt 63).active = true
      ∧ (realms true 0 0 0).realmInUse 63 = false ∧ ((realms false 0 0 0).realmAt 63).active = false
      ∧ (realms true 0 0x1000 0).svc.arg0.toNat + 6136 ≤ 2 ^ 41 ∧ 2 ^ 41 < (realms true (BitVec.ofNat 64 (2 ^ 41)) 0 0).svc.arg0.toNat + 220
      ∧ ((realms true 0 0x1000 0x7F00).svc.arg1.toNat % 4096 = 0 ∧ bit (realms true 0 0x1000 0x7F00).svc.arg2.toNat 14 = true
          ∧ bits (realms true 0 0x1000 0x7F00).svc.arg2.toNat 13 8 = 63 ∧ bit (realms true 0 0x1000 0x7F00).svc.arg2.toNat 6 = false
          ∧ bits (realms true 0 0x1000 0x7F00).svc.arg2.toNat 5 0 = 0) := by decide +kernel

/-- Realm control with a command that waits for lines. -/
def realmBusy (t : Option RealmTask) : State := { world with svc := { world.svc with busy := true, todo := t } }

theorem witness_RealmControl_waits :
    (realmBusy none).svc.todo = none ∧ (realmBusy none).realmPushesWait = false ∧ (realms true 0 0x1000 0).linesOpen (spanLines 0x1000 48) = true
      ∧ (realmBusy (some (.quote 0 0 0x2000))).svc.todo = some (.quote 0 0 0x2000) ∧ (transacting awaiting).linesOpen (spanLines 0x2000 48) = false
      ∧ (realms true 0 0x1000 0).svc.arg1.toNat + 48 ≤ 2 ^ 41 := by decide +kernel

theorem test_create_of_active : (after .realmCreate (realms true 0 0 0)).svc.doneStatus = 2 ∧ (after .realmDestroy (realms true 0 0 0)).svc.doneStatus = 0
    ∧ (after .realmCommandDone (after .realmCreate (realms true 0 0 0))).svc.status = 2 := by decide +kernel


/-- A flit of a connection whose sequence numbers are as given. -/
def d2d (kind : Fin 16) (crcOk : Bool) (seq ack : BitVec 12) : D2dFlit :=
  let f : D2dFlit := { data := zeroLine, crc := 0, seq := seq, ack := ack, kind := kind, dvc := 0, credits := [0, 0, 0, 0, 0, 0], reserved := 0, hdr1 := 0, hdr0 := 0 }
  if crcOk then { f with crc := BitVec.ofNat 32 (crc32c (f.data ++ leBytes 28 (flitControl f))) } else f

/-- A connection's port as given, and connection 0 down if asked. -/
def connected (x : D2dPort) (down : Bool) : State := world.lift (fun d =>
  let d := d.modFab (fun f => { f with ports := Table.set {} f.ports 0 x })
  if down then d.setObjAt 9 0x101 0 1 else d)

theorem witness_FlitRetry :
    connOf (0 : Die).val (0 : Fin 6).val = some (0, 10, 0) ∧ (connected {} true).connUp 0 = false ∧ (connected {} false).connUp 0 = true
      ∧ (d2d 1 true 0 0xFFF).seq = (world.port 0 0).rxNext ∧ (d2d 1 true 1 0xFFF).seq ≠ (world.port 0 0).rxNext ∧ ((connected { discarding := true } false).port 0 0).discarding = true
      ∧ ((connected { sent := 0xFF } false).port 0 0).failed = false ∧ (((connected { sent := 0xFF } false).port 0 0).sent - 0xFFF).toNat = 256
      ∧ (((connected { sent := 0xFF } false).port 0 0).sent - 0xFE).toNat = 1 ∧ (((connected { sent := 0xFF } false).port 0 0).sent - 0xFF).toNat = 0
      ∧ (((connected { sent := 0xFF } false).port 0 0).sent - 0xFFE).toNat = 257
      ∧ (∀ m, ((connected {} false).mmu m).fqEn = false) ∧ isolatedDies ((connected {} false).downMask + 2 ^ 0) = isolatedDies (connected {} false).downMask := by
  decide +kernel

theorem witness_FlitRetry_flits :
    d2dCrcOk (d2d 1 true 0 0xFFF) = true ∧ d2dCrcOk (d2d 0 false 0 0xFFF) = false ∧ d2dCrcOk (d2d 2 true 0 0xFFF) = true
      ∧ ((connected {} false).port 0 0).flits = [] ∧ ((connected {} false).port 10 0).flits.length < 256
      ∧ ((connected { flits := List.replicate 256 (5, []) } false).port 0 0).flits.length = 256
      ∧ connOf 10 0 = some (0, 0, 0) ∧ ((connected { discarding := true } false).port 0 0).discarding = true
      ∧ (connected { firstNak := some 0, nakSeq := 0xFF, replays := 16 } false).port 0 0 = { firstNak := some 0, nakSeq := 0xFF, replays := 16 }
      ∧ { connected {} false with now := 1000 }.now.toNat = 1000 := by decide +kernel

theorem test_flit_replay :
    let t := after (.flitNak 0 0 0xFE) (connected { sent := 0xFF, acked := 0xFD, nakSeq := 0xFF, firstNak := some 0, replays := 16 } false)
    t.connUp 0 = false ∧ t.fab.routeStale = true := by decide +kernel

/-- Link 0 up on lit fibre with key 5 enabled, and what else is asked for. -/
def linked (f : Dev → Dev := id) (s : State := world) : State :=
  s.lift (fun d => f ((((d.setObjAt 0x0A 0x100 0 2).setObjAt 0x0A 0x101 0 1).setObjAt 0x0C 0x450 0 2).setKey 5 .enabled))

def carrying (x : Link) (s : State := linked) : State := s.lift (fun d => d.setLink 0 x)

/-- A packet of device 7 to this module, on flow 3 under key 5. -/
def packet (ptype : BitVec 6) : Packet := { mkPacket ptype 0 5 0 0x2000 with src := 7, flow := 3 }

def linkFlit (kind : Fin 16) (crcOk : Bool) (seq : U16) : LinkFlit :=
  let f : LinkFlit := { crc := 0, kind := kind, seq := seq, ack := 0xFFFF, crdTc := 0, crd := 0, tc := 0, sop := true, eop := true, fill := 244,
                        payload := leBytes 244 (2 ^ 106 * 0x22) }
  if crcOk then { f with crc := BitVec.ofNat 32 (crc32c (flitBytes f)) } else f

theorem witness_LinkControl :
    world.linkUp 1 = false ∧ linked.linkUp 0 = true ∧ (linkFlit 15 true 0).kind.val = 15 ∧ (linkFlit 1 true 0).seq = (linked.link 0).rxNext
      ∧ (linked.link 0).retrain = false ∧ (linked.link 0).queue = [] ∧ (linked.link 0).sent = [] ∧ (linkFlit 1 true 1).seq ≠ (linked.link 0).rxNext
      ∧ (parsePacket ((linkFlit 1 true 0).payload.take 244)).map Packet.ptype = some 0x22
      ∧ ((carrying { history := List.replicate 64 (0, 0) }).link 0).history.length = 64
      ∧ (((carrying { txNext := 4096 }).link 0).txNext - 1 - 0xFFFF).toNat = 4096 ∧ (((carrying { txNext := 4096 }).link 0).txNext - 1 - 0xFFFE).toNat = 4097
      ∧ ((linked (fun d => d.setObjAt 0x0A 0x100 0 1)).objAt 0x0A 0x100 0 ≤ 1 ∧ linked.objAt 0x0A 0x101 0 = 1 ∧ linked.lit 0 = true)
      ∧ (∀ m, (linked.mmu m).fqEn = false)
      ∧ ((carrying { queue := [{ packet 1 with dst := 9, src := 0 }] } (linked (fun d => d.setFlow ⟨9, 3, 5, 0, 1, []⟩))).flow 9 3).map TxFlow.epoch = some 0
      ∧ (0 : U16) = linked.deviceId ∧ linked.flowOp ⟨9, 3, 5, 0, 1, []⟩ = none := by decide +kernel

theorem witness_LinkControl_flits :
    flitCrcOk (linkFlit 1 true 0) = true ∧ flitCrcOk (linkFlit 1 false 0) = false ∧ (linkFlit 1 true 0).fec.hit = false
      ∧ { linkFlit 1 true 0 with fec := { corrected := 1, uncorrected := 1, hit := true } }.fec.hit = true
      ∧ ((carrying { firstNak := some 0, nakSeq := 3 }).link 0).firstNak = some 0 ∧ ((3 - 1 : U16) - ((carrying { firstNak := some 0, nakSeq := 3 }).link 0).nakSeq).toNat = 65535
      ∧ { carrying { firstNak := some 0 } with now := 20000 }.now.toNat = 20000 ∧ linked.objAt 0x0A 0x101 0 = 1 ∧ (linked.link 0).asm.getD 0 none = none := by decide +kernel

theorem test_fec_counts :
    (after (.linkFlitReceive 0 { linkFlit 1 true 0 with fec := { corrected := 2, uncorrected := 1, hit := true } }) linked).objAt 0x0A 0x104 0 = 2
      ∧ (after (.linkFlitReceive 0 { linkFlit 1 true 0 with fec := { corrected := 2, uncorrected := 1, hit := true } }) linked).objAt 0x0A 0x105 0 = 1
      ∧ ((after (.linkFlitReceive 0 { linkFlit 1 true 0 with fec := { hit := true } }) linked).link 0).nakOut = some 0xFFFF := by decide +kernel

theorem test_time_frame : (after (.timeFrame 0 10 40 70 60) linked).objAt 0x0A 0x108 0 = 20000 ∧ (after (.timeFrame 0 10 40 70 60) linked).objAt 0x0A 0x10A 0 = 60 := by
  decide +kernel

theorem test_trained : (after (.linkTrainingDone 0 16) (linked (fun d => d.setObjAt 0x0A 0x100 0 1))).linkUp 0 = true
    ∧ (after (.linkDown 0 2) linked).linkUp 0 = false := by decide +kernel

theorem reaches_of {s : State} {l : LinkId} {p0 : Packet} (h : s.linkUp l = true ∧ p0.payload.length ≤ 4096 ∧ s.objAt 0x0A 0x102 l.val ≠ 1 ∧ s.identified l p0 = p0
    ∧ p0.dst = s.deviceId ∧ s.keyState p0.pkey = .enabled) : s.reaches l p0 p0 :=
  ⟨h.1, h.2.1, fun x => absurd x h.2.2.1, h.2.2.2.1.symm, h.2.2.2.2.1, h.2.2.2.2.2⟩

/-- A route of device 9 over link 0. -/
def routed : State := linked (fun d => d.setObjAt 0x0A 0x1000 0 (2 ^ 63 + 9 * 2 ^ 36))

theorem witness_TransportRules :
    linked.fab.local_ = [] ∧ (packet 1).dst = linked.deviceId ∧ world.keyState (packet 1).pkey ≠ .enabled
      ∧ isNotice (packet 0x20) = true ∧ linked.routeLink 0 { packet 0x20 with dst := 9, hops := 1 } = none
      ∧ routed.routeLink 0 { packet 1 with dst := 9, hops := 1 } = some 0 ∧ packetOf (.hostCompletion 0 (packet 2)) = some (0, packet 2, 2)
      ∧ linked.rxFlow (packet 2) = ⟨7, 3, 0, 0⟩ ∧ (packet 2).epoch = (linked.rxFlow (packet 2)).epoch ∧ { packet 2 with psn := 9 }.psn ≠ (linked.rxFlow (packet 2)).next
      ∧ (linked (fun d => d.modFab (fun f => { f with rxFlows := [⟨7, 3, 128, 0⟩] }))).rxFlow (packet 2) = ⟨7, 3, 128, 0⟩
      ∧ 128 ≤ ((packet 2).epoch - (128 : Byte)).toNat
      ∧ ((linked (fun d => d.setFlow ⟨7, 3, 5, 0, 1, [(0, 500)]⟩)).flow 7 3).map TxFlow.epoch = some 0
      ∧ (linked (fun d => d.setFlow ⟨7, 3, 5, 0, 1, [(0, 500)]⟩)).fab.flows = [⟨7, 3, 5, 0, 1, [(0, 500)]⟩]
      ∧ (linked (fun d => d.setFlow ⟨0x2000, 0, 5, 0, 1, []⟩)).flow (BitVec.ofNat 16 (packet 0x21).offset.toNat) (BitVec.ofNat 16 (packet 0x21).aux0.toNat)
          = some ⟨0x2000, 0, 5, 0, 1, []⟩ := by decide +kernel

theorem witness_packet_reaches : linked.reaches 0 (packet 2) (packet 2) ∧ linked.isNext (packet 2) :=
  ⟨reaches_of (by decide +kernel), by unfold Dev.isNext; decide +kernel⟩

theorem test_acknowledged : ((after (.transportAck 0 (packet 0x20)) (linked (fun d => d.setFlow ⟨7, 3, 5, 0, 1, [(0, 500), (1, 600)]⟩))).flow 7 3).map TxFlow.waiting
    = some [(1, 600)] := by decide +kernel

/-- A host request of device 7, bound to address space 1. -/
def hostPacket (cmd : Nat) : Packet := { packet 1 with aux0 := BitVec.ofNat 24 (cmd * 65536), aux1 := 16, payload := leBytes 4 0x1234 }

def bound (s : State := holding [(0x40, 0x55)] world) : State :=
  linked (fun d => d.setObjAt 0x0A 0x500 0 (2 ^ 56 + 7 + 5 * 2 ^ 16 + 2 ^ 32 + 0xFF * 2 ^ 48)) s

/-- Bytes 0x2000 to 0x2FFF exported with every right. -/
def exporting : State := linked (fun d => d.setObjAt 0x0A 0x600 0 (5 + 7 * 2 ^ 16 + 2 ^ 24 + 0x2000 * 2 ^ 32 + 0x1000 * 2 ^ 96)) (holding [(0x40, 0x55)] world)

/-- An access of a core through window 0, of a byte of device 7, and one of an operation. -/
def accessing (r : Requester) : State :=
  running 0 indexOp_ {} (linked (fun d => d.modFab (fun f => { f with accesses := [⟨r, 0, 2 ^ 41, 7, 3, 5, 0x2000⟩] })))

theorem witness_RequestsPerformed :
    linked.fab.accepted = [] ∧ (linked.serving 0 (hostPacket 1)).binding (hostPacket 1) 1 = none
      ∧ (bound.serving 0 (hostPacket 1)).binding (hostPacket 1) 1 = some 1 ∧ (bound.serving 0 (hostPacket 2)).binding (hostPacket 2) 2 = some 1
      ∧ (bound.serving 0 (hostPacket 4)).binding (hostPacket 4) 4 = some 1 ∧ ((bound.serving 0 (hostPacket 3)).queue 0).state = .detached
      ∧ (exporting.serving 0 (packet 8)).exported (packet 8) 0 16 = true ∧ (linked.serving 0 (packet 8)).exported (packet 8) 0 16 = false
      ∧ (exporting.serving 0 (packet 10)).exported (packet 10) 1 1 = true ∧ (exporting.serving 0 (packet 12)).exported (packet 12) 2 4 = true
      ∧ (exporting.serving 0 (packet 8)).linesOpen (spanLines 0x2000 16) = true
      ∧ ((accessing .core).fab.accesses.find? (fun x => x.dst = 7 && x.num.toNat = (3 : BitVec 24).toNat % 65536 && x.offset = 0x2000)).map WindowAccess.by_ = some .core
      ∧ ((accessing (.op 0)).fab.accesses.find? (fun x => x.dst = 7 && x.num.toNat = (3 : BitVec 24).toNat % 65536 && x.offset = 0x2000)).map WindowAccess.by_ = some (.op 0)
      ∧ ((accessing (.op 0)).op 0).map Operation.failed = some none := by decide +kernel

/-- The port of host commands of OX0 to address space 1. -/
def host0 : Port := { die := oxDie 0, stream := 0x40, queue := 0, asid := 1 }

theorem witness_HostAccess :
    (∃ d bytes, (bound.serving 0 (hostPacket 2)).readVa host0 0x2000 16 = (d, .ok bytes))
      ∧ (∃ d, (bound.serving 0 (hostPacket 1)).writeUnit host0 0 false [(0x2000, leBytes 4 0x1234)] = (d, .ok ()))
      ∧ (∃ d, (bound.serving 0 (hostPacket 2)).readVa host0 0x1000000 16 = (d, .wait) ∧ d.fab = (bound.serving 0 (hostPacket 2)).fab)
      ∧ (∃ d, (bound.serving 0 (hostPacket 2)).readVa host0 (2 ^ 63) 16 = (d, .fail 4 (2 ^ 63)))
      ∧ (∃ d, ((put (bound programmed) 9 { state := .running }).serving 0 (hostPacket 3)).push 9 5 = (d, .accepted)) := by
  refine ⟨fetch_ok _ (by decide +kernel), ?_, pair_of (P := fun (d : Dev) => d.fab = (bound.serving 0 (hostPacket 2)).fab) _ (by decide +kernel), pair_ok _ (by decide +kernel),
    pair_ok _ (by decide +kernel)⟩
  obtain ⟨d, u, h⟩ := fetch_ok ((bound.serving 0 (hostPacket 1)).writeUnit host0 0 false [(0x2000, leBytes 4 0x1234)]) (by decide +kernel)
  exact ⟨d, h⟩

theorem test_host_write : (after (.hostWrite 0 (hostPacket 1)) bound).physNat 0x2000 4 = 0x1234 := by decide +kernel

theorem test_remote_atomic :
    (after (.remoteAtomic 0 { packet 12 with aux0 := 0xC, payload := leBytes 8 7 }) exporting).physNat 0x2000 4 = 7 := by decide +kernel

def collOp (ins outs : List CollStream) (elems : Nat) (known : Table (Option Nat)) : CollOp :=
  { inp := .bytes ⟨0x2000, 8, 0⟩, collId := 1, pkey := 5, ranks := 2, rank := 0, table := [0, 7], chunk := 4, elems := elems, ins := ins, outs := outs, known := known }

/-- A collective in progress. -/
def collecting (x : CollOp) : State :=
  running 0 { queue := 1792, slot := 0, ordinal := 1, index := 0, word := insn 0x62 0, h := [0, 0, 0, 0], phase := 0, begun := true, body := .coll x } {}
    (linked (fun d => d.setFlow ⟨7, 0, 5, 0, 1, []⟩))

def receiving (have_ : List Nat) : State :=
  collecting (collOp [{ rank := 1, base := 0, first := 0, count := 8, partials := false, granted := 1 }] [] 0 (have_.map (fun i => (i, some 7))))

def sending : State := collecting (collOp [] [{ rank := 1, base := 0, first := 0, count := 8, partials := false }] 0 [])

/-- A packet of a collective's rank 1. -/
def collPacket (ptype : BitVec 6) (at_ : Nat) : Packet := { packet ptype with offset := BitVec.ofNat 64 at_, aux0 := 1, aux1 := 1, payload := [9, 9] }

theorem witness_CollectiveStreams :
    linked.collsOf 5 1 = []
      ∧ ((receiving []).collsOf 5 1).map (fun e => (e.1.slot, e.2.ins.map (fun t => (e.2.awaits t 1 0, decide (t.granted < chunkCount e.2.chunk t.count), e.2.dueChunk [])))) = [(0, [(true, true, none)])]
      ∧ (receiving [2, 3]).linkUp 0 = true ∧ ((receiving [2, 3]).flow 7 (opFlow 0)).map TxFlow.next = some 1
      ∧ (sending.collsOf 5 1).map (fun e => e.2.outs.map (fun t => (t.base + t.granted, decide (t.granted < chunkCount e.2.chunk t.count), allKnown (e.2.source t) id 0 4))) = [[(0, true, false)]] := by
  decide +kernel

theorem test_chunk_received :
    let ins (s : State) := (s.collsOf 5 1).map (fun e => e.2.ins.map (fun t => (t.done, t.granted)))
    ins (after (.collectiveData 0 (collPacket 0x10 0)) (receiving [])) = [[(0, 1)]]
      ∧ ins (after (.collectiveData 0 (collPacket 0x10 0)) (receiving [2, 3])) = [[(1, 2)]] := by decide +kernel

/-- Remote window 0 onto device 7, with or without the right to read. -/
def opened (read : Bool) (s : State := linked) : State :=
  s.lift (fun d => d.setWindow 0 { pkey := 5, target := 7, tbase := 3, read := read, enable := true })

theorem witness_WindowsAndKeys :
    ((opened true).window 0).enable = true ∧ (world.window 0).enable = false
      ∧ ((opened true (accessing .core)).fab.accesses.any (fun a => a.window = 0)) = true ∧ (opened true).fab.accesses = []
      ∧ ((opened false).window 0).allows (.read 128) = false ∧ ((opened true).window 0).allows (.read 128) = true
      ∧ (2 ^ 41 + 2 ^ 40 - 128) % 128 + windowBytes (.read 128) ≤ 128 ∧ windowBytes (.read 128) = 128 ∧ world.op 0 = none ∧ (opened true world).keyState 5 ≠ .enabled
      ∧ (opened true).keyState 5 = .enabled ∧ ((accessing (.op 0)).op 0).isSome = true ∧ world.keyState 5 = .quarantine 2000000
      ∧ ({ world with now := 1999999 } : State).now.toNat < 2000000 ∧ (world.lift (fun d => d.setKey 5 .undrained)).keyState 5 = .undrained
      ∧ (world.lift (fun d => d.setKey 5 .undrained)).keyIdle 5 = true ∧ (∀ e ∈ world.fab.keys, e.2 ≠ .enabled)
      ∧ (linked (fun d => d.setFlow ⟨9, 3, 5, 0, 1, []⟩)).fab.flows = [⟨9, 3, 5, 0, 1, []⟩] := by decide +kernel

theorem witness_WindowsAndKeys_collectives :
    collOfKey 5 { queue := 1792, slot := 0, ordinal := 1, index := 0, word := insn 0x62 0, h := [], phase := 0, body := .coll (collOp [] [] 0 []) } = true
      ∧ (∀ o ∈ (receiving []).cmd.ops, 0x60 ≤ iOpcode o.word) ∧ (∀ o ∈ (receiving []).cmd.ops, (receiving []).op o.slot = some o)
      ∧ (linked.fab.flows.all (fun f => f.pkey ≠ 5)) = true := by decide +kernel

theorem test_window_read :
    let t := after (.remoteWindowAccess .core (BitVec.ofNat 64 (2 ^ 41 + 8)) (.read 8)) (opened true)
    t.fab.accesses = [⟨.core, 0, 2 ^ 41 + 8, 7, 0x1000, 5, 3 * 2 ^ 30 + 8⟩] ∧ (t.flow 7 0x1000).map TxFlow.next = some 1 := by decide +kernel

theorem test_key_drains :
    (after (.quarantineEnd 5 2000000) world).keyState 5 = .drained ∧ (after (.quarantineEnd 5 1999999) world).keyState 5 = .quarantine 2000000 := by decide +kernel

/-- The module in normal operation. -/
def booted (f : Dev → Dev := id) : State := world.lift (fun d => f (d.setObjAt 0x0C 0x400 0 5))

def powered (p : PowerState) (s : State := booted) : State := { s with pow := p }

theorem witness_SupplyEvents :
    booted.pow.warning = false ∧ booted.pow.rails = true ∧ 50999 < booted.objAt 0x0B 0x601 0 ∧ booted.objAt 0x0B 0x601 0 ≤ 51000 ∧ (booted.mmu 1).fqEn = false
      ∧ (powered { warning := true }).pow.warning = true ∧ (powered { warning := true }).objAt 0x0B 0x601 0 + 1000 ≤ 52000
      ∧ (powered { warning := true, ripenWaits := some [⟨0, [7]⟩] }).pow.ripenWaits = some [⟨0, [7]⟩] ∧ (powered { warning := true }).pow.ripenAsked = false
      ∧ 45999 < booted.objAt 0x0B 0x602 0 ∧ booted.objAt 0x0B 0x602 0 ≤ 46000 ∧ booted.pow.hotSwap = true ∧ (powered { rails := false }).pow.rails = false
      ∧ (powered { tripWait := true }).pow.tripWait = true ∧ (400 : Int) ≤ 400 ∧ 10000000000 ≤ 10000000000
      ∧ ((powered { rails := false }).pow.tripWait = false ∧ (powered { rails := false }).boot.prepared = false ∧ (powered { rails := false }).boot.pinClosed = true) := by
  decide +kernel

theorem witness_SupplyEvents_holds :
    (54000 ≤ ({ t := 10000000, low := 54000, high := 66000 } : SupplyHold).low ∧ ({ t := 10000000, low := 54000, high := 66000 } : SupplyHold).high ≤ 66000)
      ∧ 66000 < ({ t := 0, low := 54000, high := 66001 } : SupplyHold).high ∧ (powered { rails := false, hotSwap := false }).pow.hotSwap = false
      ∧ (powered { warning := true, ripenWaits := some (everyDie [⟨0, [7]⟩]) }).pow.ripenWaits = some (everyDie [⟨0, [7]⟩]) := by decide +kernel

theorem test_hold :
    (after (.powerGoodHold { t := 0, low := 54000, high := 66001 }) (powered { rails := false, hotSwap := false })).resetDue = none
      ∧ (after (.powerGoodHold { t := 0, low := 54000, high := 66000 }) (powered { rails := false, hotSwap := false })).resetDue = some .cold
      ∧ (after (.powerGoodHold { t := 0, low := 54000, high := 70000 }) (powered { rails := false })).resetDue = some .cold := by decide +kernel

theorem test_sag : (after (.sagWarn 50999 0) booted).pow.warning = true ∧ (after (.sagReset 45999) booted).pow.rails = false
    ∧ (after (.sagWarnEnd 52000) (powered { warning := true })).pow.warning = false := by decide +kernel

theorem test_trip_by_reading : (after (.thermalTick ⟨[(0, 1050)], 300, 350⟩) booted).pow.rails = false := by decide +kernel

theorem witness_PowerLimits :
    booted.pow.rails = true ∧ booted.inService 0 = true ∧ (booted.lift (fun d => d.setObjAt 0 6 0 0)).inService 0 = false
      ∧ booted.phasesOn 0 = [] ∧ (put booted 0 { state := .running, phase := 3 }).phasesOn 0 = [3] ∧ (powered { warning := true }).pow.warning = true
      ∧ ((powered { overRun := 49 }).pow.overRun + 1 = 50 ∧ booted.objAt 0x0B 0x300 0 < 5001 ∧ 0 < booted.pow.moduleCeil)
      ∧ ((powered { underRun := 999, moduleCeil := 6 }).pow.underRun + 1 = 1000 ∧ 4750 * 100 ≤ booted.objAt 0x0B 0x300 0 * 95 ∧ (powered { moduleCeil := 6 }).pow.moduleCeil < 7)
      ∧ (1500 ≤ (1500 : U16).toNat ∧ (5000 : U16).toNat ≤ 5000) ∧ ¬(1500 ≤ (1499 : U16).toNat) ∧ ¬((5001 : U16).toNat ≤ 5000)
      ∧ (10 * (booted.objAt 0x0B 0x701 0 : Nat) : Int) ≤ 950 ∧ (920 : Int) ≤ 10 * (booted.objAt 0x0B 0x701 0 : Nat) - 30
      ∧ Table.get 0 (powered { coolRun := [(0, 9)] }).pow.coolRun 0 + 1 = 10 := by decide +kernel

theorem test_power :
    (after .powerEvaluation (put booted 0 { state := .running })).objAt 0x0B 0x202 0 = 5 ∧ (after .powerEvaluation booted).objAt 0x0B 0x202 0 = 2
      ∧ (after (.capWindowEnd 5001 0) (powered { overRun := 49 })).pow.moduleCeil = 6
      ∧ (after (.capWindowEnd 4750 0) (powered { underRun := 999, moduleCeil := 6 })).pow.moduleCeil = 7
      ∧ (after (.thermalTick ⟨[(0, 950)], 300, 350⟩) booted).pow.therm 0 = 6 := by decide +kernel

def metering : State :=
  let s := powered { jobs := [(63, { isOpen := true })] }
  { s with cmd := { s.cmd with jobs := [(0, [63])] } }

/-- A state whose die 0 may be checked for ripening. -/
def ripe (p : PowerState) : State := powered p (booted (fun d => d.setObjAt 0x0B 0x700 0 400))

theorem witness_EnergyAndRipening :
    (63 : Byte).toNat < 64 ∧ 64 ≤ (64 : Byte).toNat ∧ (metering.job 63).isOpen = true ∧ (booted.job 63).isOpen = false ∧ booted.pow.rails = true
      ∧ (powered { rails := false }).pow.rails = false ∧ (powered { warning := true }).pow.warning = true
      ∧ (List.range 64).filter (fun j => (metering.job j).takes metering.pow.energyStart) = [63]
      ∧ (5 ≤ (ripe {}).pow.ceil 0 ∧ intOf 16 ((ripe {}).objAt 0x0B 0x700 0) = 400 ∧ (ripe {}).inService 0 = true) ∧ ¬(5 ≤ (ripe { moduleCeil := 4 }).pow.ceil 0)
      ∧ 1929999 < (ripe {}).objAt 0x0B 0x805 0 ∧ (ripe {}).objAt 0x0B 0x805 0 ≤ 1930000 ∧ Table.get 0 (ripe { trims := [(0, 40)] }).pow.trims 0 = 40
      ∧ { ripe {} with boot := { (ripe {}).boot with secret := some [1] } }.boot.secret = some [1]
      ∧ booted.pow.ripenAsked = false ∧ booted.pow.ripenSince.toNat + booted.objAt 0x0B 0x802 0 * 3600000000000 ≤ 86400000000000
      ∧ (∃ x ∈ (powered { postponed := [(0, 5)] }).pow.postponed, x.1 = 0 ∧ x.2.toNat ≤ 5) := by decide +kernel

theorem test_energy : ((after (.energyWindowEnd (some 7) [(0, 720)] [{ cause := some 0, die := 0, cls := 0, count := 1 }]) metering).job 63).measured = 7 := by decide +kernel

theorem test_ripen :
    Table.get 0 (after (.ripenCheck [⟨0, [1929999]⟩]) (ripe {})).pow.trims 0 = 5 ∧ bit (after (.ripenCheck [⟨0, [1899999]⟩]) (ripe { trims := [(0, 40)] })).pow.worn 0 = true := by
  decide +kernel

/-- A session on the management port whose keys are zeros. -/
def session (isOpen : Bool) : Session :=
  { num := 1, path := .mgmt, roles := 0x1F, gen := 0, pub := [], keyIn := List.replicate 32 0, keyOut := List.replicate 32 0, isOpen := isOpen, deadline := 5000000000 }

def talking (x : Session) : State := { booted with mgmt := { booted.mgmt with sessions := [x], nextSession := 2 } }

def plainDatagram (ty session seq : Nat) (b : List Byte) : List Byte := headerBytes ty b.length session seq ++ b

/-- What a key seals it opens. -/
theorem opens_sealed (k iv h b : List Byte) : ∃ t, gcmOpen k iv h (gcmSeal k iv h b).1 (gcmSeal k iv h b).2 = some t := ⟨_, if_pos rfl⟩

theorem witness_SessionRules :
    parseDatagram .mgmt [] = none ∧ (parseDatagram .mgmt (plainDatagram 5 0 0 [])).map Datagram.ty = some 5 ∧ booted.portRuns .mgmt = true
      ∧ world.portRuns .mgmt = false ∧ booted.freeToSend = true ∧ booted.initRefusal .mgmt [] = some 1
      ∧ (parseDatagram .mgmt (plainDatagram 3 1 1 (List.replicate 112 0))).map (fun d => (d.ty, d.seq, d.payload.length)) = some (3, 1, 112)
      ∧ ((talking (session false)).mgmt.sessions.find? (fun y => y.num = 1 && y.path = .mgmt && !y.isOpen)).isSome = true
      ∧ ((talking (session true)).mgmt.sessions.find? (fun y => y.num = 1 && y.path = .mgmt && y.isOpen)).isSome = true
      ∧ gcmOpen (session true).keyIn (ivOf 1 1) [] [] [] = none ∧ (session true).fresh? 1 = true ∧ { session true with high := 65, seen := [] }.fresh? 1 = true
      ∧ { session true with high := 66 }.fresh? 1 = false ∧ 5000000000 ≤ (5000000000 : U64).toNat := by decide +kernel

theorem test_session_times_out :
    (after (.handshakeTimeout 1 5000000000) (talking (session false))).mgmt.sessions = []
      ∧ ((after (.handshakeTimeout 1 4999999999) (talking (session false))).mgmt.sessions.map Session.num) = [1] := by decide +kernel

/-- Group g with values pending, or taken by an apply. -/
def staged (g : Nat) (pend : List Nat) (taken : Option (List Nat)) : State :=
  let s := booted
  { s with copies := [(objAddr 7 0x200 0, pend.getD 0 0), (objAddr 7 0x201 0, pend.getD 1 0)].map (fun e => (e.1, some e.2)),
           mgmt := { s.mgmt with applied := [(g + 1, taken)] } }

theorem witness_DictionaryOps :
    (lookupRow 0xFFFFFFFF).isNone = true ∧ (lookupRow (objAddr 7 0x200 0)).map ObjRow.access = some .coupled ∧ (lookupRow (objAddr 0x0C 0x412 0)).map ObjRow.access = some .wo
      ∧ holds (lookupRow 0) (fun r => r.access = .ro && r.isBytes && !booted.notReady (.core 0) r && world.notReady (.core 0) r) = true
      ∧ booted.hasRight (.core 0) 0 = true ∧ booted.hasRight (.mgmt 1) 0 = false ∧ (talking (session true)).hasRight (.mgmt 1) 0 = true
      ∧ holds (lookupRow (objAddr 0x0B 0x200 3)) (fun r => r.access = .rw && !r.isBytes && !r.fits 256 && r.fits 8 && r.lo = 0 && r.hi = 7
          && booted.hasRight (.core 0) (writeRight r)) = true
      ∧ (booted.writeAction (.core 0) 0x0B 0x200 3 7).isNone = true := by decide +kernel

theorem witness_CommitGroups :
    groupRule 0 [512, 0] = true ∧ groupRule 0 [528, 0] = false ∧ groupRule 1 [48000, 46000] = true ∧ groupRule 1 [47999, 45000] = false ∧ groupRule 2 [1, 2] = true
      ∧ Table.get none (staged 0 [] (some [512, 0])).mgmt.applied 1 = some [512, 0] ∧ Table.get none booted.mgmt.applied 1 = none
      ∧ booted.objAt 0x0C 0x112 0 ≤ (0 : U32).toNat ∧ (6 : U32).toNat < (booted.lift (fun d => d.setObjAt 0x0C 0x112 0 7)).objAt 0x0C 0x112 0
      ∧ ((talking (session true)).sessionAt (.mgmt 1)).isSome = true := by decide +kernel

theorem test_write_object :
    (after (.writeObject (.core 0) (BitVec.ofNat 32 (objAddr 0x0B 0x200 3)) 7 []) booted).objAt 0x0B 0x200 3 = 7
      ∧ (after (.writeObject (.core 0) (BitVec.ofNat 32 (objAddr 0x0B 0x200 3)) 8 []) booted).mgmt.reply = some ⟨3, 8, []⟩ := by decide +kernel

theorem test_boundary : (after (.quiescentBoundary 0) (staged 0 [] (some [512, 0]))).objAt 7 0x203 0 = 512 := by decide +kernel

/-- In-band channel 0 on, its ring at 0x2000 of address space 1, with one request waiting. -/
def ringing : State :=
  (booted (fun d => (d.setObjAt 0x0C 0x140 0 (0x2000 + 2 ^ 64 + 8 * 2 ^ 96 + 2 ^ 104)).setPcounter 0 1))

theorem witness_PortsAndRegisters :
    (booted.queue 2047).state = .detached ∧ (put booted 0 { state := .running }).queue 0 ≠ booted.queue 0 ∧ booted.relays[(63 : Fin 64)].enable = false
      ∧ { booted with relays := booted.relays.set 0 { booted.relays[(0 : Fin 64)] with enable := true } }.relays[(0 : Fin 64)].enable = true
      ∧ (100 : U64).toNat = 100 ∧ (60000000 : U64).toNat ≤ 60000000 ∧ ¬((60000001 : U64).toNat ≤ 60000000) ∧ bit (1 : U64).toNat 0 = true ∧ bit (2 : U64).toNat 0 = false
      ∧ Table.get 0 booted.mgmt.doorbell 0 ≠ 1 ∧ Table.get 0 { booted.mgmt with doorbell := [(0, 1)] }.doorbell 0 = 1
      ∧ ((ringing.channel 0).on = true ∧ ringing.objAt 0x0C 0x400 0 = 5
          ∧ (ringing.pcounter ((ringing.channel 0).doorbell % 1024)).toNat ≠ (Table.get {} ringing.mgmt.rings 0).taken % 2 ^ 32) ∧ (booted.channel 0).on = false
      ∧ booted.objAt 0x0C 0x100 0 = 0 ∧ (booted.lift (fun d => d.setObjAt 0x0C 0x100 0 1)).objAt 0x0C 0x100 0 ≠ 0 ∧ booted.portRuns .mgmt = true
      ∧ booted.freeToSend = true ∧ (booted.lift (fun d => d.setObjAt 0x0C 0x101 0 3)).freeToSend = false := by decide +kernel

theorem test_register_write :
    ((after (.registerWrite (.queue 5 .watchdog) 77) booted).queue 5).watchdog = 77 ∧ Table.get 0 (after (.registerWrite (.mailbox 2 3) 9) booted).mgmt.mailbox 1027 = 9 := by
  decide +kernel

theorem test_echo : (after (.icmpv6Echo (List.replicate 16 1) 2 3 [4]) booted).mgmt.sent = [.echoReply (List.replicate 16 1) 2 3 [4]] := by decide +kernel

def boots (carrierReads : Bool) : BootReading := { pufNoise := 0, carrierReads := carrierReads, storeReads := false, connTrained := [], ripen := [] }

theorem witness_BootAndReset :
    (boots false).carrierReads = false ∧ (powered { latch := some .sagReset }).pow.latch = some .sagReset ∧ (powered { bringUpLatch := true }).pow.bringUpLatch = true
      ∧ booted.pow.rails = true ∧ (powered { rails := false }).pow.rails = false ∧ (18 : Die) ∉ booted.fab.isolated
      ∧ (18 : Die) ∈ { booted with fab := { booted.fab with isolated := [18] } }.fab.isolated ∧ (booted.lift (fun d => d.setObjAt 0x0C 0x400 0 1)).objAt 0x0C 0x400 0 = 1
      ∧ (booted.lift (fun d => d.setObjAt 9 0x101 3 1)).objAt 9 0x101 3 = 1
      ∧ (booted.lift (fun d => d.setObjAt 0x0C 0x400 0 3)).objAt 0x0C 0x400 0 = 3 ∧ booted.objAt 0x0C 0x400 0 ≠ 3 ∧ booted.boot.image = none ∧ booted.personality = none
      ∧ ({ booted with boot := { booted.boot with slot := some 1 } }.personality).isSome = true := by decide +kernel

theorem witness_BootAndReset_cold :
    (powered { rails := false }).resetDue ≠ some .cold ∧ ({ powered { rails := false } with resetDue := some .cold } : State).resetDue = some .cold
      ∧ ({ booted with xl := { booted.xl with lastDirty := some 7 } } : State).xl.lastDirty = some 7 := by decide +kernel

theorem test_fatal_record :
    (({ booted with xl := { booted.xl with lastDirty := some 7 } } : State).raiseFatal true).xl.fatalLog = [7]
      ∧ (({ booted with xl := { booted.xl with lastDirty := some 7 } } : State).raiseFatal false).xl.fatalLog = [] := by decide +kernel

theorem test_restart : (after .mcRestart (talking (session true))).objAt 0x0C 0x405 0 = 3 ∧ (after .mcRestart (talking (session true))).mgmt.sessions = [] := by decide +kernel

def transfer (committed : Bool) : State :=
  { booted with mgmt := { booted.mgmt with transfer := some { by_ := .core 0, target := 2, len := 8192, committed := committed } } }

/-- A module whose secret is known. -/
def secretKnown (tree : Option Nat) (leaf : Nat) : State := { booted with boot := { booted.boot with secret := some [1], tree := tree, leaf := leaf } }

theorem keys_drained (l : List Nat) (s : State) (h : s.fab.keys = l.map (fun i => (i, KeyState.drained))) (hl : ∀ k : BitVec 12, k.toNat ∈ l) (k : BitVec 12) :
    s.keyState k = .drained := by
  have get (l : List Nat) (k : Nat) (h : k ∈ l) : Table.get coldKey (l.map (fun i => (i, KeyState.drained))) k = .drained := by
    induction l with
    | nil => cases h
    | cons a l ih =>
      show (if a = k then KeyState.drained else _) = _
      split
      · rfl
      · rename_i n
        exact ih ((List.mem_cons.1 h).resolve_left (fun e => n e.symm))
  unfold Dev.keyState
  rw [h]
  exact get l _ (hl k)

/-- Some keys drained, and no queue attached. -/
def removable (l : List Nat) : State := { booted with fab := { booted.fab with keys := l.map (fun i => (i, KeyState.drained)) } }

theorem witness_removable (l : List Nat) (hl : l = List.range 4096) : (∀ k : BitVec 12, (removable l).keyState k = .drained) ∧ (removable l).cmd.queues = [] :=
  ⟨keys_drained l (removable l) rfl (fun k => by rw [hl]; exact List.mem_range.2 k.isLt), rfl⟩

theorem witness_TransfersAndHotPlug :
    booted.boot.secret = none ∧ (secretKnown none 0).boot.secret ≠ none ∧ ((secretKnown (some 3) 1023).boot.tree = some 3 ∧ (secretKnown (some 3) 1023).boot.leaf < 1024)
      ∧ (1024 ≤ (secretKnown (some 3) 1024).boot.leaf ∧ (secretKnown (some 3) 1024).oneWay 0 < 1048576)
      ∧ 1048576 ≤ { secretKnown none 0 with boot := { (secretKnown none 0).boot with counters := #v[1048576, 0, 0] } }.oneWay 0
      ∧ (BitVec.ofNat 64 (2 + 8192 * 2 ^ 32) : U64).toNat % 256 = 2 ∧ bits (BitVec.ofNat 64 (2 + 8192 * 2 ^ 32) : U64).toNat 63 32 ≤ xferMax 2
      ∧ booted.mgmt.transfer = none ∧ ((transfer false).mgmt.transfer.map Transfer.committed) = some false ∧ ((transfer true).mgmt.transfer.map Transfer.committed) = some true
      ∧ (transfer false).objAt 0x0C 0x431 0 + (1023 : U16).toNat + 1 ≤ 8192 ∧ (1023 : U16).toNat + 1 ≤ 1024
      ∧ (transfer true).verifyTransfer { by_ := .core 0, target := 2, len := 8192, committed := true } ≠ 3
      ∧ booted.boot.preparing = false ∧ { booted with boot := { booted.boot with preparing := true } }.boot.preparing = true ∧ booted.boot.pinClosed = true
      ∧ { booted with boot := { booted.boot with pinClosed := false } }.boot.pinClosed = false ∧ (∀ m, (booted.mmu m).fqEn = false)
      ∧ (∀ l, booted.linkUp l = false) ∧ booted.objAt 0x0C 0x450 0 ≠ 1 ∧ (booted.lift (fun d => d.setObjAt 0x0C 0x450 0 1)).objAt 0x0C 0x450 0 = 1
      ∧ booted.mayLight 0 = false := by decide +kernel

theorem test_transfer :
    (after (.xferWindow (.core 0) 1023 [7]) (transfer false)).mgmt.transfer.map (fun t => Table.get 0 t.data 1023) = some 7
      ∧ (after .readyForRemoval { booted with boot := { booted.boot with preparing := true } }).objAt 0x0C 0x461 0 = 2 := by decide +kernel

/-- A state with a command waiting. -/
def waiting (c : Instr) (s : State) : State := { s with pending := [c] }

theorem witness_StepRunsFront : (waiting .powerEvaluation booted).pending = .powerEvaluation :: [] := rfl

theorem witness_powerKept : (waiting (.capWindowEnd 5001 0) { powered { overRun := 49, thermCeil := [(0, 0)] } with thr := { common := 240 } }).powerKept where
  moduleCeil := by decide
  thermCeil := fun d => by
    show (if 0 = d then 0 else 7) ≤ 7
    split <;> decide
  common := by decide
  rail := fun _ => Nat.zero_le _
  therm := fun _ => Nat.zero_le _
  overRun := by decide
  underRun := by decide
  coolRun := fun _ => by show 0 < 10; decide
  history := Nat.zero_le _

theorem witness_step (s : State) (c : Instr) (h : (match exec c { s with pending := [] } with
    | .next _ => true
    | _ => false) = true) : ∃ t, step (waiting c s) = .next t := by
  show ∃ t, exec c { s with pending := [] } = .next t
  revert h
  cases exec c { s with pending := [] } with
  | next t => exact fun _ => ⟨t, rfl⟩
  | fault f => exact fun h => Bool.noConfusion h
  | refused r => exact fun h => Bool.noConfusion h

theorem witness_PowerLevelsKept : ∃ t, step (waiting (.capWindowEnd 5001 0) { powered { overRun := 49, thermCeil := [(0, 0)] } with thr := { common := 240 } }) = .next t :=
  witness_step _ _ (by decide +kernel)

theorem witness_OneWayCountersNeverFall : ∃ t, step (waiting (.floorRaise true) (secretKnown none 0)) = .next t := witness_step _ _ (by decide +kernel)

theorem test_idle : (match step booted with
    | .next t => decide (t.pending = [])
    | _ => false) = true := by decide +kernel

theorem test_ill_formed_lines :
    (Instr.readShared 0 (2 ^ 42) 0).wf = false ∧ (Instr.readShared 0 (2 ^ 42 - 1) 0).wf = true ∧ (Instr.localPartialWrite 0 0 ⟨127, false⟩ [1, 2]).wf = false
      ∧ (Instr.localPartialWrite 0 0 ⟨127, false⟩ [1]).wf = true ∧ (Instr.localFullWrite 0 0 [1]).wf = false ∧ (Instr.localFullWrite 0 0 zeroLine).wf = true
      ∧ (Instr.atomicHome 0 0 2 0 0 0).wf = false ∧ (Instr.atomicHome 0 0 4 0 0 0).wf = true ∧ (Instr.parityError (.dataL3 (2 ^ 42))).wf = false
      ∧ (Instr.connectionDown 0 false [.snoop (2 ^ 42) 0]).wf = false := by decide +kernel

theorem test_ill_formed_packets :
    (Instr.hostWrite 0 { packet 1 with payload := List.replicate 4097 0 }).wf = false ∧ (Instr.hostWrite 0 (packet 1)).wf = true
      ∧ (Instr.linkFlitReceive 0 { linkFlit 1 true 0 with payload := [] }).wf = false ∧ (Instr.linkFlitReceive 0 (linkFlit 1 true 0)).wf = true
      ∧ (Instr.remoteWindowAccess .core 0 (.read 0)).wf = false ∧ (Instr.remoteWindowAccess .core 0 (.write [])).wf = false
      ∧ (Instr.remoteWindowAccess .core 0 (.read 1)).wf = true ∧ (Instr.sessionInit .mgmt (List.replicate 1233 0)).wf = false
      ∧ (Instr.sessionInit (.inband 0) (List.replicate 2041 0)).wf = false ∧ (Instr.sessionInit .mgmt (List.replicate 1232 0)).wf = true := by decide +kernel

theorem test_ill_formed_operands :
    (Instr.windowEnd ((List.finRange 20).map (fun d => ⟨d, 5, 6⟩))).wf = false
      ∧ (Instr.windowEnd ((List.finRange 20).map (fun d => ⟨d, 6, 6⟩))).wf = true ∧ (Instr.windowEnd [⟨0, 6, 6⟩]).wf = false ∧ (CoreAccess.mk .load 2 4 0).wf = false ∧ (CoreAccess.mk .load 4 4 0).wf = true
      ∧ (CoreAccess.mk .load 0 3 0).wf = false ∧ (Instr.translationMiss 0 0 0 0 (BitVec.ofNat 64 (2 ^ 57)) 1).wf = false ∧ (Instr.translationMiss 0 0 0 0 0 0).wf = false
      ∧ (Instr.translationMiss 0 0 0 0 0 1).wf = true ∧ (Instr.marginSweepDone []).wf = false ∧ (Instr.writeObject (.core 0) 0 0 (List.replicate 1025 0)).wf = false
      ∧ (Instr.xferWindow (.core 0) 0 (List.replicate 1025 0)).wf = false ∧ (Instr.hotJoin (.laser 0) []).wf = false ∧ (Instr.neighborDiscovery [] []).wf = false
      ∧ (Instr.icmpv6Echo [] 0 0 []).wf = false ∧ (Instr.icmpv6Echo (List.replicate 16 0) 0 0 []).wf = true := by decide +kernel

/-- The address map of R43: the time base, a queue control block (R104), a window's entry (R578), a relay entry (R354), DRAM, and what is reserved. -/
theorem test_address_map :
    placeAt 0x3C000000000 = (.time, 0) ∧ placeAt 0x3E100100044 = (.queueBlock 193, 4) ∧ placeAt 0x3F200400018 = (.windowEntry 1, 8)
      ∧ placeAt 0x3C08001407F = (.relayEntry 1 ⟨1, by decide⟩, 63) ∧ (placeAt 0x3F400000000).1 = .reserved ∧ (placeAt 0x1FFFFFFFFFF).1 = .dram
      ∧ (placeAt 0x20000000000).1 = .window ∧ (placeAt 0x30000000000).1 = .reserved := by decide +kernel

theorem test_bus :
    (after (.registerWrite (.bus .load 0x3C000000000 false 8) 0) { world with now := 77 }).reply = some (.value 77)
      ∧ (after (.registerWrite (.bus .store 0x3F400000000 false 8) 0) world).reply = some .accessError
      ∧ (after (.registerWrite (.bus .load (BitVec.ofNat 64 (2 ^ 42)) false 8) 0) world).reply = some .accessError
      ∧ ((after (.registerWrite (.bus .store 0x3E100100030 false 4) 9) world).queue 192).watchdog = 9 := by decide +kernel

/-- A module with a sealed copy of one page of address space 1. -/
def sealing : State :=
  { world with xl := { world.xl with sealed := [⟨1, 0, 0x5000, 1⟩], mmus := Vector.replicate 2 { ctxCache := [⟨1, context⟩] } } }

/-- satp with MODE Sv48 and a root at 0. -/
def sv48 : U64 := 0x9000000000000000

theorem test_core_store_sealed :
    (after (.registerWrite (.coreStore sv48 0x5FFF 1) 0) sealing).reply = some .accessError
      ∧ (after (.registerWrite (.coreStore sv48 0x4FFC 8) 0) sealing).reply = some .accessError
      ∧ (after (.registerWrite (.coreStore sv48 0x4FF8 8) 0) sealing).reply = sealing.reply
      ∧ (after (.registerWrite (.coreStore sv48 0x6000 1) 0) sealing).reply = sealing.reply
      ∧ (after (.registerWrite (.coreStore 0 0x5FFF 1) 0) sealing).reply = sealing.reply
      ∧ (after (.registerWrite (.coreStore (sv48 + 0x11) 0x5FFF 1) 0) sealing).reply = sealing.reply := by decide +kernel

theorem test_debug_read :
    (after (.registerWrite (.debugRead (some (2 ^ 41)) 0) 0) world).objAt 6 0x303 0 = 1
      ∧ (after (.registerWrite (.debugRead none 0) 0) world).reply = some (.value 0)
      ∧ (after (.registerWrite (.debugRead (some 0x40) 0) 0) (holding [(0x40, 0x1234)] world)).reply = some (.value 0x1234) := by decide +kernel

/-- A right codeword has the roots of the generator; a poisoned line carries the marker over its check symbols (R375, R377). -/
theorem test_codeword :
    (List.range 8).all (fun i => eccSyndrome (codeword (leBytes 128 0x1234567)) i = 0) = true ∧ eccSyndrome (codeword (leBytes 128 0x1234567)).reverse 1 ≠ 0
      ∧ storedChecks zeroLine true = 0x8E6152F0A7C43D196B0EF23541D897AC ∧ (decodeLine false 4, decodeLine false 5, decodeLine true 2, decodeLine true 3)
        = (.corrected, .uncorrectable, .poisoned, .uncorrectable) := by decide +kernel

/-- The placement of R371 with no near pool: page 0x11 is on stack 0 (1 XOR 1), line 32 + 1 of it, channel 33, line 0 of the channel. -/
theorem test_placement :
    (world.setObjAt 7 0x203 0 0).place 0x11080 = (0, 33) ∧ (world.setObjAt 7 0x203 0 0).channelOf 0x11080 = 33
      ∧ (world.setObjAt 7 0x203 0 0).channelLine 0x11080 = 0 := by decide +kernel

/-- Streams of RFC 1951, 8878 and 1950 that hold the letter a; checks of RFC 1950, 1952 and xxHash. -/
theorem test_decompress :
    decompress 2 [] [0x4B, 0x04, 0x00] = (0, [0x61]) ∧ decompress 0 [] [0x28, 0xB5, 0x2F, 0xFD, 0x20, 1, 9, 0, 0, 0x61] = (0, [0x61])
      ∧ decompress 3 [] [0x78, 0x9C, 0x4B, 0x04, 0x00, 0, 0x62, 0, 0x62] = (0, [0x61])
      ∧ (decompress 3 [] [0x78, 0x9C, 0x4B, 0x04, 0x00, 0, 0x62, 0, 0x63]).1 = 4 ∧ (decompress 2 [] [0x07]).1 = 3
      ∧ crc32 [0x61] = 0xE8B7BE43 ∧ xxh32 [] = 0x02CC5D05 ∧ xxh64 [] = 0xEF46DB3751D8E999 := by decide +kernel

theorem test_ill_formed_ports :
    (D2dFlit.wf (d2d 0 true 0 0)) = true ∧ (D2dFlit.wf { d2d 0 true 0 0 with credits := [] }) = false
      ∧ (RegTarget.bus .load 4 false 8).wf = false ∧ (RegTarget.bus .load 8 false 8).wf = true ∧ (RegTarget.bus .load 6 false 3).wf = false
      ∧ (LinkFlit.wf { linkFlit 1 true 0 with fill := 245 }) = false := by decide +kernel

/-- Rows of the table have no bits, so no word spells a command. -/
theorem test_no_word : decodeTableWord 32 0 = none ∧ (booted.withFetchWord 32 0).pending = [] := by decide +kernel

end Sys2Proof.Tests
end

section
/-! What a push of a command queue reads, does and leaves unchanged, and what a write of its head does (R109 to R113). -/

namespace Sys2Proof.Machine

namespace Dev

/-! Reads that raise no page request keep to the memory system and translation (R111, R436, R440, R457). -/

theorem memStep_onceReads (s : Dev) (ts : List LineTag) : s.memStep (s.onceReads ts) := memStep_foldl _ memStep_onceRead _ _

theorem memStep_ctxRead (s : Dev) (m : MmuId) (asid : Nat) : s.memStep (s.ctxRead m asid) :=
  memStep_ite (memStep_refl s) (memStep_trans (memStep_onceReads ..) (memStep_ctxFill ..))

theorem memStep_tcPut (s : Dev) (die : Die) (e : TcEntry) : s.memStep (s.tcPut die e) := by unfold tcPut; exact memStep_modXl ..

/-- A walk reads the context and the tables, marks the leaf, and fills caches of translation (R440, R446). -/
theorem memStep_walk (s : Dev) (die : Die) (asid vpn : Nat) : s.memStep (s.walk die asid vpn).1 := by
  unfold walk
  dsimp only
  have hctx := memStep_ctxRead s (mmuOf die) asid
  generalize s.ctxRead (mmuOf die) asid = d at *
  split
  · exact hctx
  · rename_i c _
    split
    · exact hctx
    · have htables := memStep_trans hctx (memStep_onceReads d (d.walkLines (mmuOf die) asid vpn 4 c.rootPa))
      generalize d.onceReads (d.walkLines (mmuOf die) asid vpn 4 c.rootPa) = e at *
      have hcached : ∀ (n : Nat) (f : Mmu → Mmu), s.memStep ((e.bump 1 0x114 (8 + (mmuOf die).val) n).modMmu (mmuOf die) f) :=
        fun n f => memStep_trans htables (memStep_trans (memStep_bump ..) (memStep_modMmu ..))
      split <;> dsimp only
      · exact hcached ..
      · exact hcached ..
      · refine memStep_trans ?_ (memStep_tcPut ..)
        refine memStep_trans ?_ (memStep_ite (memStep_refl _) (memStep_physWrite ..))
        refine memStep_trans ?_ (memStep_ite (memStep_refl _) (memStep_onceReads ..))
        exact hcached ..

theorem memStep_answerMisses (s : Dev) (die : Die) (e : TcEntry) : s.memStep (s.answerMisses die e) := by
  unfold answerMisses; exact memStep_modXl ..

theorem memStep_probePages (p : Port) (want : Rights) (l : List (Nat × Nat)) (s : Dev) : s.memStep (s.probePages p want l).1 := by
  induction l generalizing s with
  | nil => exact memStep_refl s
  | cons page rest ih =>
    obtain ⟨va, len⟩ := page
    unfold probePages
    split
    · exact memStep_refl s
    · split
      · exact ih s
      · split
        · exact memStep_refl s
        · split
          · exact memStep_bump ..
          · have hwalk := memStep_trans (memStep_bump s 1 0x101 p.die.val 1)
              (memStep_walk (s.bump 1 0x101 p.die.val 1) p.die p.asid (va / 4096))
            split
            · rename_i hw
              rw [hw] at hwalk
              dsimp only
              split
              · exact memStep_trans hwalk (memStep_trans (memStep_answerMisses ..) (ih _))
              · exact memStep_trans hwalk (memStep_answerMisses ..)
            · rename_i hw
              rw [hw] at hwalk
              exact hwalk

theorem memStep_probeRead (s : Dev) (p : Port) (hk : p.keep = false) (va n : Nat) : s.memStep (s.probeRead p va n).1 := by
  unfold probeRead
  have hpages := memStep_probePages p wantRead (pagePieces va n (n / 4096 + 2)) s
  split <;> (rename_i hp; rw [hp] at hpages)
  · exact memStep_trans hpages (memStep_readVa _ p hk va n)
  · exact hpages
  · exact hpages

/-- What goes on from fetched data keeps to the memory system where both parts do. -/
theorem memStep_fetchThen {α β : Type} {s : Dev} (r : Dev × Fetch α) (f : Dev → α → Dev × Fetch β) (h : s.memStep r.1)
    (hf : ∀ (u : Dev) (a : α), u.memStep (f u a).1) : s.memStep (Fetch.andThen r f).1 := by
  obtain ⟨u, x⟩ := r
  cases x with
  | ok a => exact memStep_trans h (hf u a)
  | wait => exact h
  | fail c a => exact h

theorem memStep_regionProbe (s : Dev) (p : Port) (hk : p.keep = false) (region : Nat) : s.memStep (s.regionProbe p region).1 := by
  unfold regionProbe
  split
  · exact memStep_refl s
  · exact memStep_fetchThen _ _ (memStep_probeRead s p hk ..) (fun u _ => memStep_refl u)

/-- Reading what a push names changes no queue and no bind (R109, R111). -/
theorem memStep_pushedBuffer (s : Dev) (q : QueueId) (handle : Nat) : s.memStep (s.pushedBuffer q handle).1 := by
  unfold pushedBuffer
  dsimp only
  split
  · exact memStep_refl s
  · refine memStep_fetchThen _ _ (memStep_probeRead s _ rfl ..) (fun u d => ?_)
    split
    · split
      · exact memStep_refl u
      · exact memStep_fetchThen _ _ (memStep_regionProbe u _ rfl _) (fun v _ => memStep_refl v)
    · exact memStep_refl u

theorem binds_memStep {s t : Dev} (h : s.memStep t) (asid region : Nat) : t.binds asid region = s.binds asid region := by
  unfold binds; rw [memStep_cmd h]

/-! A bind counts once and changes no queue (R165). -/

theorem cmd_dropTranslations (s : Dev) (p : TcEntry → Bool) : (s.dropTranslations p).cmd = s.cmd := by
  refine memStep_cmd (memStep_foldl _ (fun d die => ?_) _ s)
  exact memStep_ite (memStep_refl d) (memStep_trans (memStep_bump ..) (memStep_modXl ..))

theorem cmd_bind (s : Dev) (asid region base pages : Nat) :
    (s.bind asid region base pages).cmd = (s.setBinds asid region (s.binds asid region + 1)).cmd := by
  unfold bind
  dsimp only
  split
  · rw [modXl_cmd, cmd_dropTranslations]
  · rfl

@[simp] theorem queue_bind (s : Dev) (asid region base pages : Nat) (q : QueueId) : (s.bind asid region base pages).queue q = s.queue q := by
  unfold queue; rw [cmd_bind]; rfl

theorem binds_bind (s : Dev) (asid region base pages : Nat) : (s.bind asid region base pages).binds asid region = s.binds asid region + 1 := by
  simp only [binds, cmd_bind, setBinds, Table.get_set, if_true]

@[simp] theorem binds_modQueue (s : Dev) (q : QueueId) (f : Queue → Queue) (asid region : Nat) :
    (s.modQueue q f).binds asid region = s.binds asid region := rfl

/-! A running queue without a buffer takes the next of its submit list (R112). -/

theorem refill_eq_self (s : Dev) (q : QueueId) (h : ¬((s.queue q).state = .running ∧ (s.queue q).cur = none)) : s.refill q = s := by
  unfold refill
  dsimp only
  rw [if_neg]
  simp only [Bool.and_eq_true, decide_eq_true_eq, Option.isNone_iff_eq_none]
  exact fun ⟨hrc, _⟩ => h hrc

theorem refill_eq_nextBuffer (s : Dev) (q : QueueId) (hr : (s.queue q).state = .running) (hc : (s.queue q).cur = none)
    (hs : (s.queue q).submits ≠ []) : s.refill q = s.nextBuffer q := by
  unfold refill
  dsimp only
  rw [if_pos]
  simp [hr, hc, hs]

/-- Taking a buffer where there is none to finish changes no bind. -/
theorem binds_nextBuffer_of_none (s : Dev) (q : QueueId) (hc : (s.queue q).cur = none) (asid region : Nat) :
    (s.nextBuffer q).binds asid region = s.binds asid region := by
  have hf : s.finishBuffer q = s := by unfold finishBuffer; rw [hc]
  unfold nextBuffer
  rw [hf]
  rfl

@[simp] theorem binds_refill (s : Dev) (q : QueueId) (asid region : Nat) : (s.refill q).binds asid region = s.binds asid region := by
  unfold refill
  dsimp only
  split
  · rename_i h
    simp only [Bool.and_eq_true, Option.isNone_iff_eq_none] at h
    obtain ⟨⟨_, hc⟩, _⟩ := h
    exact binds_nextBuffer_of_none s q hc asid region
  · rfl

/-- The state once a push of buffer b has been accepted: its region is bound, the submit list longer, and a running queue without a buffer
has taken one up (R109, R112, R165). -/
def acceptPush (s : Dev) (q : QueueId) (asid : Nat) (b : Buffer) (base pages : Nat) : Dev :=
  ((s.bind asid b.region base pages).modQueue q (fun x => { x with submits := x.submits ++ [b] })).refill q

theorem binds_acceptPush (s : Dev) (q : QueueId) (asid : Nat) (b : Buffer) (base pages : Nat) :
    (s.acceptPush q asid b base pages).binds asid b.region = s.binds asid b.region + 1 := by
  rw [acceptPush, binds_refill, binds_modQueue, binds_bind]

/-- A queue's list of buffers after an accepted push, while it takes none up. -/
theorem queue_acceptPush_kept (s : Dev) (q : QueueId) (asid : Nat) (b : Buffer) (base pages : Nat)
    (h : ¬((s.queue q).state = .running ∧ (s.queue q).cur = none)) :
    (s.acceptPush q asid b base pages).queue q = { s.queue q with submits := (s.queue q).submits ++ [b] } := by
  rw [acceptPush, refill_eq_self _ q (by simpa using h), queue_modQueue_same, queue_bind]

/-- A running queue without a buffer takes the oldest it has after an accepted push. -/
theorem queue_acceptPush_taken (s : Dev) (q : QueueId) (asid : Nat) (b : Buffer) (base pages : Nat) (hr : (s.queue q).state = .running)
    (hc : (s.queue q).cur = none) :
    let y := (s.acceptPush q asid b base pages).queue q
    y.cur = ((s.queue q).submits ++ [b]).head? ∧ y.submits = ((s.queue q).submits ++ [b]).tail ∧ y.head = 0 ∧ y.state = .running := by
  rw [acceptPush, refill_eq_nextBuffer _ q (by simpa using hr) (by simpa using hc) (by simp), queue_nextBuffer, queue_modQueue_same, queue_bind]
  exact ⟨rfl, rfl, rfl, hr⟩

/-! What becomes of a push that no other waits before (R109 to R112), one equation for each outcome. -/

section
variable {s : Dev} {q : QueueId} {handle : Nat}

theorem pushNow_of_detached (h : handle ≠ 0) (hd : (s.queue q).state = .detached) :
    s.pushNow q handle = (s.modQueue q (fun x => { x with submitBad := true }), .bad) := by
  simp [pushNow, h, hd]

variable (h : handle ≠ 0) (hd : (s.queue q).state ≠ .detached)
include h hd

theorem pushNow_of_wait (hb : (s.pushedBuffer q handle).2 = .wait) : s.pushNow q handle = ((s.pushedBuffer q handle).1, .waits) := by
  unfold pushNow
  dsimp only
  rw [if_neg h, if_neg hd]
  generalize s.pushedBuffer q handle = r at *
  obtain ⟨d, _⟩ := r
  cases hb
  rfl

/-- A push is bad whose read fails, or which names no program of one of its regions (R109). -/
theorem pushNow_of_unusable (hb : (s.pushedBuffer q handle).2 = .ok none ∨ ∃ r a, (s.pushedBuffer q handle).2 = .fail r a) :
    s.pushNow q handle = ((s.pushedBuffer q handle).1.modQueue q (fun x => { x with submitBad := true }), .bad) := by
  unfold pushNow
  dsimp only
  rw [if_neg h, if_neg hd]
  generalize s.pushedBuffer q handle = r at *
  obtain ⟨d, _⟩ := r
  rcases hb with hb | ⟨_, _, hb⟩ <;> cases hb <;> rfl

/-- A push of a buffer is bad where its region can take no more binds, one too many for a full list, and else accepted (R109, R166). -/
theorem pushNow_of_buffer {b : Buffer} {base pages : Nat} (hb : (s.pushedBuffer q handle).2 = .ok (some (b, base, pages))) :
    s.pushNow q handle =
      (let d := (s.pushedBuffer q handle).1
       let x := s.queue q
       if 65535 ≤ s.binds x.asid.toNat b.region then (d.modQueue q (fun x => { x with submitBad := true }), .bad)
       else if 8 ≤ x.submits.length then (d.modQueue q (fun x => { x with submitOvf := true }), .overflow)
       else (d.acceptPush q x.asid.toNat b base pages, .accepted)) := by
  unfold pushNow
  dsimp only
  rw [if_neg h, if_neg hd, ← binds_memStep (memStep_pushedBuffer s q handle)]
  generalize s.pushedBuffer q handle = r at *
  obtain ⟨d, _⟩ := r
  cases hb
  rfl

end

/-! A push goes behind the waiting ones of its queue (R111). -/

theorem push_of_no_waiting (s : Dev) (q : QueueId) (handle : Nat) (hp : (s.queue q).pushes = []) : s.push q handle = s.pushNow q handle := by
  simp [push, drainPushes, hp, retryPushes]

theorem push_behind_waiting (s : Dev) (q : QueueId) (handle p : Nat) (l : List Nat) (hp : (s.queue q).pushes = p :: l)
    (hne : p ≠ 0) (hd : (s.queue q).state ≠ .detached) (hb : (s.pushedBuffer q p).2 = .wait) :
    s.push q handle = ((s.pushedBuffer q p).1, .waits) := by
  have hkept : ((s.pushedBuffer q p).1.queue q).pushes = p :: l := by rw [memStep_queue (memStep_pushedBuffer ..), hp]
  have hdrain : s.drainPushes q = (s.pushedBuffer q p).1 := by
    unfold drainPushes
    rw [hp, retryPushes, pushNow_of_wait hne hd hb]
  unfold push
  dsimp only
  rw [hdrain, hkept]
  rfl

end Dev

/-! The command SUBMIT_PUSH, by what becomes of its push (R109 to R111). -/

section
variable {s : State} {q : QueueId} {h : U16}

theorem exec_submitPush (q : QueueId) (h : U16) (s : State) : exec (.submitPush q h) s = execSubmitPush q h s := rfl

theorem exec_submitPush_zero (q : QueueId) (s : State) : exec (.submitPush q 0) s = .next s := rfl

variable (hne : h ≠ 0)
include hne

theorem exec_submitPush_of_waits {d : Dev} (hp : s.push q h.toNat = (d, .waits)) :
    exec (.submitPush q h) s = .next { s with toDev := d.modQueue q (fun x => { x with pushes := x.pushes ++ [h.toNat] }) } := by
  simp only [exec_submitPush, execSubmitPush, State.run, if_neg hne, hp]

theorem exec_submitPush_of_done {d : Dev} {e : PushEnd} (hp : s.push q h.toNat = (d, e)) (he : e ≠ .waits) :
    exec (.submitPush q h) s = .next { s with toDev := d } := by
  cases e with
  | waits => exact absurd rfl he
  | nothing | accepted | bad | overflow => simp only [exec_submitPush, execSubmitPush, State.run, if_neg hne, hp]

/-- A push that does no more than mark its queue. -/
theorem exec_submitPush_marks {d : Dev} {e : PushEnd} {f : Queue → Queue} (hp : s.push q h.toNat = (d.modQueue q f, e)) (he : e ≠ .waits)
    (hd : s.toDev.memStep d) :
    ∃ t, exec (.submitPush q h) s = .next t ∧ t.queue q = f (s.queue q) ∧ ∀ q2, q2 ≠ q → t.queue q2 = s.queue q2 := by
  refine ⟨_, exec_submitPush_of_done hne hp he, ?_, fun q2 h2 => ?_⟩
  · rw [Dev.queue_modQueue_same, Dev.memStep_queue hd]
  · rw [Dev.queue_modQueue, if_neg h2, Dev.memStep_queue hd]

/-- A push that waits is kept behind the others of its queue. -/
theorem exec_submitPush_kept {d : Dev} {l : List Nat} (hl : (s.queue q).pushes = l) (hp : s.push q h.toNat = (d, .waits))
    (hd : s.toDev.memStep d) : ∃ t, exec (.submitPush q h) s = .next t ∧ t.queue q = { s.queue q with pushes := l ++ [h.toNat] }
      ∧ ∀ q2, q2 ≠ q → t.queue q2 = s.queue q2 := by
  refine ⟨_, exec_submitPush_of_waits hne hp, ?_, fun q2 h2 => ?_⟩
  · rw [Dev.queue_modQueue_same, Dev.memStep_queue hd, hl]
  · rw [Dev.queue_modQueue, if_neg h2, Dev.memStep_queue hd]

end

/-! The command HEAD_WRITE (R112, R113): refused, within the buffer, and at its end. -/

section
variable {s : State} {q : QueueId} {v : U32}

theorem exec_headWrite (q : QueueId) (v : U32) (s : State) : exec (.headWrite q v) s = execHeadWrite q v s := rfl

theorem exec_headWrite_refused
    (h : ¬(((s.queue q).state = .idle ∨ (s.queue q).state = .stopped) ∧ v.toNat ≤ ((s.queue q).cur.map Buffer.len).getD 0)) :
    exec (.headWrite q v) s = .next s := by
  simp only [exec_headWrite, execHeadWrite, State.run, Bool.and_eq_true, Bool.or_eq_true, decide_eq_true_eq, if_neg h]

variable (h : ((s.queue q).state = .idle ∨ (s.queue q).state = .stopped) ∧ v.toNat ≤ ((s.queue q).cur.map Buffer.len).getD 0)
include h

theorem exec_headWrite_taken :
    let d := s.setQueue q { s.queue q with head := v, loops := [], skipDepth := none }
    exec (.headWrite q v) s = .next { s with toDev := if (s.queue q).pastEnd v.toNat then d.nextBuffer q else d } := by
  simp only [exec_headWrite, execHeadWrite, State.run, Bool.and_eq_true, Bool.or_eq_true, decide_eq_true_eq, if_pos h, Queue.pastEnd, and_comm]

theorem exec_headWrite_within (hp : (s.queue q).pastEnd v.toNat = false) : ∃ t, exec (.headWrite q v) s = .next t
    ∧ t.queue q = { s.queue q with head := v, loops := [], skipDepth := none } ∧ s.onlyQueue t q := by
  refine ⟨_, exec_headWrite_taken h, ?_⟩
  simp only [hp]
  exact ⟨Dev.queue_setQueue_same .., rfl, fun q2 h2 => by simp [Dev.queue_setQueue, h2]⟩

theorem exec_headWrite_past (hp : (s.queue q).pastEnd v.toNat = true) : ∃ t, exec (.headWrite q v) s = .next t
    ∧ (t.queue q).head = 0 ∧ (t.queue q).loops = [] ∧ (t.queue q).cur = (s.queue q).submits.head?
    ∧ (t.queue q).submits = (s.queue q).submits.tail ∧ (t.queue q).state = (s.queue q).state ∧ ∀ q2, q2 ≠ q → t.queue q2 = s.queue q2 := by
  refine ⟨_, exec_headWrite_taken h, ?_⟩
  simp only [hp, if_true, Dev.queue_nextBuffer, Dev.queue_setQueue_same, true_and]
  exact fun q2 h2 => by rw [Dev.queue_nextBuffer_ne _ _ _ h2, Dev.queue_setQueue, if_neg h2]

end

end Sys2Proof.Machine
end

section
/-! What LOOP, ENDLOOP and BREAK do at the head of a queue, and how a queue stops (R136, R137, R143 to R150). -/

namespace Sys2Proof.Machine

/-- A queue that a LOOP with its body at n and count k has taken into the loop, or set to skip it (R144, R145). -/
def Queue.enterLoop (x : Queue) (n k : Nat) : Queue :=
  if k = 0 then { x with skipDepth := some 0 } else { x with loops := ⟨n, k, 0⟩ :: x.loops }

theorem Queue.enterLoop_of_zero (x : Queue) (n : Nat) {k : Nat} (h : k = 0) : x.enterLoop n k = { x with skipDepth := some 0 } := if_pos h

theorem Queue.enterLoop_of_ne_zero (x : Queue) (n : Nat) {k : Nat} (h : k ≠ 0) :
    x.enterLoop n k = { x with loops := ⟨n, k, 0⟩ :: x.loops } := if_neg h

/-- A head that moves on leaves the loop stack as it stands, past the end of a buffer too (R150; log entry 80). -/
@[simp] theorem Queue.headAt_loops (x : Queue) (n : Nat) : (x.headAt n).loops = x.loops := by
  unfold Queue.headAt
  split <;> rfl

namespace Dev

section
variable {s : Dev} {q : QueueId} {r : Byte}

/-- A queue that has ceased to issue keeps its reason: a later cause other than a failure does not displace it (R136, R137). -/
theorem stopsWith_cease_again (h : s.stopsWith q r) (r2 : Nat) : (s.cease q r2 false).stopsWith q r := by
  obtain ⟨hf, hslot, hstop⟩ := h
  by_cases hr : s.running q = []
  · rw [if_pos hr] at hstop
    have hself : s.cease q r2 false = s := by
      obtain ⟨hstate, _⟩ := hstop
      simp [cease, hstate]
    rw [hself]
    exact ⟨hf, hslot, by rwa [if_pos hr]⟩
  · rw [if_neg hr] at hstop
    obtain ⟨hstate, hstopping, hreason⟩ := hstop
    have hrun : (s.running q).isEmpty = false := by simpa using hr
    have hcease : s.cease q r2 false = (s.dropHead q).setQueue q { (s.dropHead q).queue q with stopping := true, state := .draining } := by
      unfold cease settle
      simp [queue_dropHead, hstate, hstopping, hrun]
    rw [hcease]
    simp [stopsWith, queue_dropHead, hr, hreason]

@[simp] theorem running_performFirst (s : Dev) (q q2 : QueueId) : (s.performFirst q).running q2 = s.running q2 := by
  unfold running; rw [ops_performFirst]

/-- Performing a signal leaves a queue stopped that has ceased to issue. -/
theorem stopsWith_performFirst (h : s.stopsWith q r) : (s.performFirst q).stopsWith q r := by
  obtain ⟨l, hl⟩ := s.queue_performFirst q h.1
  unfold stopsWith
  rw [running_performFirst, hl]
  exact h

theorem stopsWith_foldl_performFirst {α : Type} (l : List α) (h : s.stopsWith q r) :
    (l.foldl (fun d _ => d.performFirst q) s).stopsWith q r := by
  induction l generalizing s with
  | nil => exact h
  | cons a l ih => exact ih (stopsWith_performFirst h)

/-- A buffer that ends inside a loop stops its queue (R150). -/
theorem stopsWith_moveHead (n : Nat) (hr : (s.queue q).state = .running) (hl : (s.queue q).loops ≠ [])
    (hp : (s.queue q).pastEnd n = true) : (s.moveHead q n).stopsWith q 0x0B := by
  have hmove : s.moveHead q n = ((s.setHead q n).nextBuffer q).cease q 0xB false := by
    unfold Queue.pastEnd at hp
    unfold moveHead
    dsimp only
    rw [queue_setHead]
    dsimp only
    rw [if_pos hp, if_pos (by simp [hl])]
  rw [hmove]
  exact stopsWith_cease _ q 0xB false (by rw [queue_nextBuffer, queue_setHead]; exact hr)

/-- A control instruction that is the last of a buffer which ends inside a loop stops its queue so, be its stop bit set or not (R150; log
entry 80). -/
theorem stopsWith_endControl (w : BitVec 256) (n : Nat) (u : List PendingSignal) (hr : (s.queue q).state = .running)
    (hl : (s.queue q).loops ≠ []) (hp : (s.queue q).pastEnd n = true) : (s.endControl q w n u).stopsWith q 0x0B := by
  unfold endControl
  dsimp only
  have hmoved : ((s.setQueue q { s.queue q with
      signals := (s.queue q).signals ++ (u ++ signalOf w (s.queue q).issued.toNat true) }).moveHead q n).stopsWith q 0x0B :=
    stopsWith_moveHead n (by rwa [queue_setQueue_same]) (by rwa [queue_setQueue_same]) (by rw [queue_setQueue_same]; exact hp)
  generalize (s.setQueue q _).moveHead q n = d at *
  have hsignalled : (if (s.queue q).signals.isEmpty = true then
      (u ++ signalOf w (s.queue q).issued.toNat true).foldl (fun s _ => s.performFirst q) d else d).stopsWith q 0x0B := by
    split
    · exact stopsWith_foldl_performFirst _ hmoved
    · exact hmoved
  split
  · exact stopsWith_cease_again hsignalled 0x11
  · exact hsignalled

/-- An instruction that is ready at its head is the one a control instruction performs (R124). -/
theorem control_of_headReady {w : BitVec 256} {code : Nat} (h : s.headReady q w) (hc : iOpcode w = code) (f : Dev → Queue → BitVec 256 → Dev) :
    s.control q code f = f (s.latch q) (s.queue q) w := by
  unfold control
  dsimp only
  rw [readyHead_of_headReady s h code hc, queue_latch_of_headReady s h]

end

theorem memStep_toNamed {α : Type} {s : Dev} (r : Dev × Fetch α) (h : s.memStep r.1) : s.memStep (Fetch.toNamed r).1 := by
  obtain ⟨u, x⟩ := r
  cases x <;> exact h

/-! The count that a LOOP captures without a read of memory (R143). -/

theorem loopCount_immediate (s : Dev) (q : QueueId) (x : Queue) {w : BitVec 256} (h : iParam w = 0) :
    s.loopCount q x w = (s, .ok ((x.handles w).getD 0 0 + (x.handles w).getD 1 0 % 256 * 65536)) := by
  simp only [loopCount, h]

theorem loopCount_counter (s : Dev) (q : QueueId) (x : Queue) {w : BitVec 256} (h : iParam w = 1) :
    s.loopCount q x w = (s, .ok (s.counter (homeDie q).val ((x.handles w).getD 0 0)).toNat) := by
  simp only [loopCount, h]

theorem loopCount_pcounter (s : Dev) (q : QueueId) (x : Queue) {w : BitVec 256} (h : iParam w = 2) :
    s.loopCount q x w = (s, .ok (s.pcounter ((x.handles w).getD 0 0)).toNat) := by
  simp only [loopCount, h]

/-- Capturing a LOOP's count changes no queue (R143). -/
theorem memStep_loopCount (s : Dev) (q : QueueId) (x : Queue) (w : BitVec 256) : s.memStep (s.loopCount q x w).1 := by
  unfold loopCount
  dsimp only
  split
  · exact memStep_refl s
  · exact memStep_refl s
  · exact memStep_refl s
  · refine memStep_andThen _ _ (memStep_namedBytes s _ rfl _) (fun u b => ?_)
    split
    · exact memStep_refl u
    · exact memStep_andThen _ _ (memStep_toNamed _ (memStep_readVa u _ rfl ..)) (fun v _ => memStep_refl v)

end Dev

/-! The control instructions of loops that are ready at the head of their queue, one equation for each outcome (R143 to R150). -/

section
variable {s : State} {q : QueueId} {w : BitVec 256}

theorem exec_loop (q : QueueId) (s : State) : exec (.loop q) s = execLoop q s := rfl
theorem exec_endloop (q : QueueId) (s : State) : exec (.endloop q) s = execEndloop q s := rfl
theorem exec_brk (q : QueueId) (s : State) : exec (.brk q) s = execBrk q s := rfl
theorem exec_nop (q : QueueId) (s : State) : exec (.nop q) s = execNop q s := rfl

variable (h : s.headReady q w)
include h

/-- A LOOP in four loops stops its queue (R149). -/
theorem exec_loop_of_deep (hc : iOpcode w = 1) (hl : 4 ≤ (s.queue q).loops.length) :
    exec (.loop q) s = .next { s with toDev := (s.latch q).cease q 9 false } := by
  simp only [exec_loop, execLoop, State.run, Dev.control_of_headReady h hc, if_pos hl]

/-- A LOOP whose count is in range begins its body, or its skip for a count of 0 (R144, R145). -/
theorem exec_loop_of_count (hc : iOpcode w = 1) (hl : (s.queue q).loops.length < 4) {d : Dev} {k : Nat}
    (hn : (s.latch q).loopCount q (s.queue q) w = (d, .ok k)) (hk : k ≤ 16777215) :
    let n := (s.queue q).head.toNat + 1
    exec (.loop q) s = .next { s with toDev := (d.modQueue q (fun x => x.enterLoop n k)).endControl q w n [] } := by
  simp only [Queue.enterLoop, exec_loop, execLoop, State.run, Dev.control_of_headReady h hc, if_neg (Nat.not_le.mpr hl), hn, if_neg (Nat.not_lt.mpr hk)]

/-- A LOOP past the largest count stops its queue (R144). -/
theorem exec_loop_of_large (hc : iOpcode w = 1) (hl : (s.queue q).loops.length < 4) {d : Dev} {k : Nat}
    (hn : (s.latch q).loopCount q (s.queue q) w = (d, .ok k)) (hk : 16777215 < k) :
    exec (.loop q) s = .next { s with toDev := d.cease q 0xA false } := by
  simp only [exec_loop, execLoop, State.run, Dev.control_of_headReady h hc, if_neg (Nat.not_le.mpr hl), hn, if_pos hk]

theorem exec_loop_of_invalid (hc : iOpcode w = 1) (hl : (s.queue q).loops.length < 4) {d : Dev}
    (hn : (s.latch q).loopCount q (s.queue q) w = (d, .invalid)) :
    exec (.loop q) s = .next { s with toDev := d.cease q 2 false } := by
  simp only [exec_loop, execLoop, State.run, Dev.control_of_headReady h hc, if_neg (Nat.not_le.mpr hl), hn]

theorem exec_endloop_outside (hc : iOpcode w = 2) (hl : (s.queue q).loops = []) :
    exec (.endloop q) s = .next { s with toDev := (s.latch q).cease q 0xB false } := by
  simp only [exec_endloop, execEndloop, State.run, Dev.control_of_headReady h hc, hl]

theorem exec_brk_outside (hc : iOpcode w = 3) (hl : (s.queue q).loops = []) :
    exec (.brk q) s = .next { s with toDev := (s.latch q).cease q 0xB false } := by
  simp only [exec_brk, execBrk, State.run, Dev.control_of_headReady h hc, hl]

theorem exec_nop_of_ready (hc : iOpcode w = 0) :
    exec (.nop q) s = .next { s with toDev := (s.latch q).endControl q w ((s.queue q).head.toNat + 1) [] } := by
  simp only [exec_nop, execNop, State.run, Dev.control_of_headReady h hc]

/-- The state in which a LOOP's count is read has the queue as it was. -/
theorem queue_loopCount_latch : ((s.latch q).loopCount q (s.queue q) w).1.queue q = s.queue q := by
  rw [Dev.memStep_queue (Dev.memStep_loopCount ..), Dev.queue_latch_of_headReady _ h]

/-- The course of a queue after a LOOP whose count is in range. -/
theorem follows_loop_of_count {d : Dev} {k : Nat} (hn : (s.latch q).loopCount q (s.queue q) w = (d, .ok k)) (n : Nat) :
    (((d.modQueue q (fun x => x.enterLoop n k)).endControl q w n []).queue q).follows (((s.queue q).enterLoop n k).headAt n) := by
  have hd : d.queue q = s.queue q := by rw [← queue_loopCount_latch h, hn]
  have hf := (d.modQueue q (fun x => x.enterLoop n k)).endControl_follows q w n []
  rwa [Dev.queue_modQueue_same, hd] at hf

end

/-- A queue that ceases to issue at a control instruction stops with the reason, its head on that instruction (R149, R150). -/
theorem stopsWith_cease_at {s d : Dev} {q : QueueId} (hq : d.queue q = s.queue q) (hr : (s.queue q).state = .running) (r : Nat) :
    (d.cease q r false).stopsWith q (BitVec.ofNat 8 r) ∧ ((d.cease q r false).queue q).head = (s.queue q).head :=
  ⟨d.stopsWith_cease q r false (by rwa [hq]), by rw [(d.keepsPlace_cease q r false).1, hq]⟩

end Sys2Proof.Machine
end

section
/-! The obligations of command streams: pushes and the head (O5), loops (O7). -/

namespace Sys2Proof.Machine

/-- Settles O5: each outcome of a push is one equation of `pushNow`, and what a push reads changes no queue and no bind
(`memStep_pushedBuffer`). That a queue which does not run takes no buffer up, and that a push which waits is kept, are the model's choices
(log entries 3, 38, 80). -/
theorem pushAndHead : Obligations.PushAndHead := by
  unfold Obligations.PushAndHead
  refine ⟨exec_submitPush_zero, fun q h s hne hp => ?_, fun q h s p l hne hp hp0 hd hb => ?_, fun q v s =>
    ⟨fun h => ⟨exec_headWrite_within h, exec_headWrite_past h⟩, exec_headWrite_refused⟩⟩
  · have hne' : h.toNat ≠ 0 := fun hz => hne (BitVec.eq_of_toNat_eq hz)
    have hnow := s.push_of_no_waiting q h.toNat hp
    have hstep := s.memStep_pushedBuffer q h.toNat
    refine ⟨fun hd => ?_, fun hd hb => ?_, fun r a hd hb => ?_, fun hd hb => ?_, fun b base pages hd hb => ?_⟩
    · exact exec_submitPush_marks hne (hnow.trans (Dev.pushNow_of_detached hne' hd)) nofun (Dev.memStep_refl _)
    · exact exec_submitPush_marks hne (hnow.trans (Dev.pushNow_of_unusable hne' hd (.inl hb))) nofun hstep
    · exact exec_submitPush_marks hne (hnow.trans (Dev.pushNow_of_unusable hne' hd (.inr ⟨r, a, hb⟩))) nofun hstep
    · exact exec_submitPush_kept hne hp (hnow.trans (Dev.pushNow_of_wait hne' hd hb)) hstep
    · have hbuf := hnow.trans (Dev.pushNow_of_buffer hne' hd hb)
      dsimp only at hbuf
      refine ⟨fun hfull => ?_, fun hroom hlist => ?_, fun hroom hlist => ?_⟩
      · rw [if_pos hfull] at hbuf
        exact exec_submitPush_marks hne hbuf nofun hstep
      · rw [if_neg (Nat.not_le.mpr hroom), if_pos hlist] at hbuf
        refine ⟨_, exec_submitPush_of_done hne hbuf nofun, ?_, Dev.binds_memStep hstep ..⟩
        rw [Dev.queue_modQueue_same, Dev.memStep_queue hstep]
      · rw [if_neg (Nat.not_le.mpr hroom), if_neg (Nat.not_le.mpr hlist)] at hbuf
        have hq := Dev.memStep_queue hstep q
        refine ⟨_, exec_submitPush_of_done hne hbuf nofun, ?_, fun hkept => ?_, fun hr hc => ?_⟩
        · rw [Dev.binds_acceptPush, Dev.binds_memStep hstep]
        · rw [Dev.queue_acceptPush_kept _ q _ _ _ _ (by rwa [hq]), hq]
        · obtain ⟨hcur, hsubmits, hhead, hstate⟩ :=
            Dev.queue_acceptPush_taken _ q (s.queue q).asid.toNat b base pages (hq ▸ hr) (hq ▸ hc)
          rw [hq] at hcur hsubmits
          dsimp only
          exact ⟨hcur, hsubmits, hhead, hstate⟩
  · exact exec_submitPush_kept hne hp (s.push_behind_waiting q h.toNat p l hp hp0 hd hb) (s.memStep_pushedBuffer q p)

/-- Settles O7: each outcome of a control instruction of loops is one equation; the course after a LOOP is `endControl_follows`, and
a buffer that ends inside a loop stops its queue by `stopsWith_endControl`, its loop stack as it stands and its stop bit without effect
(the model's choice, log entry 80). -/
theorem loops : Obligations.Loops := by
  unfold Obligations.Loops
  refine ⟨fun q s w h hc => ?_, fun q s w h => ?_⟩
  · have hlatch := s.queue_latch_of_headReady h
    have hcount := queue_loopCount_latch h
    refine ⟨fun hl => ?_, fun hp => ?_, fun hp => ?_, fun hp => ?_, fun k hl hk => ?_, fun hl hk => ?_⟩
    · exact ⟨_, exec_loop_of_deep h hc hl, stopsWith_cease_at hlatch h.1 9⟩
    · exact Dev.loopCount_immediate _ q _ hp
    · exact Dev.loopCount_counter _ q _ hp
    · exact Dev.loopCount_pcounter _ q _ hp
    · have hn : (s.latch q).loopCount q (s.queue q) w = (_, .ok k) := Prod.ext rfl hk
      refine ⟨fun hz => ?_, fun hpos hmax => ?_, fun hlarge => ?_⟩
      · refine ⟨_, exec_loop_of_count h hc hl hn (by omega), ?_⟩
        have hf := follows_loop_of_count h hn ((s.queue q).head.toNat + 1)
        rwa [Queue.enterLoop_of_zero _ _ hz] at hf
      · refine ⟨_, exec_loop_of_count h hc hl hn hmax, ?_⟩
        have hf := follows_loop_of_count h hn ((s.queue q).head.toNat + 1)
        rwa [Queue.enterLoop_of_ne_zero _ _ hpos.ne'] at hf
      · exact ⟨_, exec_loop_of_large h hc hl hn hlarge, stopsWith_cease_at hcount h.1 0xA⟩
    · have hn : (s.latch q).loopCount q (s.queue q) w = (_, .invalid) := Prod.ext rfl hk
      exact ⟨_, exec_loop_of_invalid h hc hl hn, (stopsWith_cease_at hcount h.1 2).1⟩
  · have hlatch := s.queue_latch_of_headReady h
    refine ⟨fun hl hc => ?_, fun hl hc => ?_, fun hl hc hp => ?_⟩
    · exact ⟨_, exec_endloop_outside h hc hl, (stopsWith_cease_at hlatch h.1 0xB).1⟩
    · exact ⟨_, exec_brk_outside h hc hl, (stopsWith_cease_at hlatch h.1 0xB).1⟩
    · refine ⟨_, exec_nop_of_ready h hc, ?_, ?_⟩
      · exact Dev.stopsWith_endControl w _ [] (by rw [hlatch]; exact h.1) (by rwa [hlatch]) (by rwa [hlatch])
      · obtain ⟨_, hloops, _⟩ := (s.latch q).endControl_follows q w ((s.queue q).head.toNat + 1) []
        rw [hloops, Queue.headAt_loops, hlatch]

end Sys2Proof.Machine
end

section
/-! What a monitor step of a mill and of its chain engine does (R185, R217, R218, R269, R270). -/

namespace Sys2Proof.Machine

namespace Dev

variable (s : Dev) (m : MillId)

@[simp] theorem mill_setMill_same (y : Mill) : (s.setMill m y).mill m = y := by rw [mill_setMill, if_pos rfl]

@[simp] theorem setMill_mill : s.setMill m (s.mill m) = s := by
  simp only [setMill, mill, Fin.getElem_fin, Vector.set_getElem_self]

@[simp] theorem setMill_setMill (y z : Mill) : (s.setMill m y).setMill m z = s.setMill m z := by
  simp only [setMill, Vector.set_set]

/-- A counter reads one step's addition more; every other object is unchanged. -/
theorem objAt_bump {a b c a' b' c' : Nat} (n : Nat) (h : c < 256) (h' : c' < 256) (hb : b < 65536) (hb' : b' < 65536) :
    (s.bump a b c n).objAt a' b' c' = if a' = a ∧ b' = b ∧ c' = c then (s.objAt a b c + n) % 2 ^ 64 else s.objAt a' b' c' := by
  unfold bump
  exact objAt_setObjAt s a b c a' b' c' _ h h' hb hb'

/-- Beginning to fill slots changes the slots in filling of one mill and its next K-slice, and nothing else (R195, R332). -/
theorem openFills_eq (fuel : Nat) :
    ∃ fs k, s.openFills m fuel = s.setMill m { s.mill m with filling := fs, nextK := k } := by
  have hnone : ∃ fs k, s = s.setMill m { s.mill m with filling := fs, nextK := k } :=
    ⟨(s.mill m).filling, (s.mill m).nextK, (s.setMill_mill m).symm⟩
  induction fuel generalizing s with
  | zero => exact hnone
  | succ fuel ih =>
    unfold openFills
    dsimp only
    split
    · split
      · exact hnone
      · split
        · exact hnone
        · obtain ⟨fs, k, h⟩ := ih _ ⟨_, _, (setMill_mill _ m).symm⟩
          refine ⟨fs, k, h.trans ?_⟩
          simp only [modMill, setMill_setMill, mill_setMill_same]
    · exact hnone

/-! The counters a step can fall in. -/

/-- A mill with no slot to work on waits for an operand, waits for a fault, or is idle (R217). -/
theorem idleCounter_cases (y : Mill) :
    s.idleCounter m y = stepWaitFault ∨ s.idleCounter m y = stepWaitOperand ∨ s.idleCounter m y = stepIdle := by
  unfold idleCounter
  split
  · split
    · exact .inl rfl
    · exact .inr (.inl rfl)
  · exact .inr (.inr rfl)

/-- The counters of a step that is not throttled: the six of R217 without mill_throttled. -/
abbrev unthrottled (i : Nat) : Prop := 0x100 ≤ i ∧ i ≤ 0x105 ∧ i ≠ stepThrottled

theorem unthrottled_waitCurd : unthrottled stepWaitCurd := by decide

theorem unthrottled_idleCounter (y : Mill) : unthrottled (s.idleCounter m y) := by
  rcases s.idleCounter_cases m y with h | h | h <;> rw [h] <;> decide

theorem unthrottled_busyOrCurd (c : Prop) [Decidable c] : unthrottled (if c then stepBusy else stepWaitCurd) := by
  split <;> decide

/-- A choice between two outcomes of the array falls in an unthrottled counter where both do. -/
theorem unthrottled_ite {c : Prop} [Decidable c] {p q : Mill × Nat} (hp : unthrottled p.2) (hq : unthrottled q.2) :
    unthrottled (if c then p else q).2 := by
  split
  · exact hp
  · exact hq

/-- No outcome of the array's step falls in mill_throttled (R217, R218). -/
theorem unthrottled_arrayStep : unthrottled (s.arrayStep m).2 := by
  unfold arrayStep
  dsimp only
  refine unthrottled_ite unthrottled_waitCurd ?_
  split
  · exact s.unthrottled_idleCounter m _
  · split
    · refine unthrottled_ite (unthrottled_ite unthrottled_waitCurd (s.unthrottled_idleCounter m _)) ?_
      exact unthrottled_ite (unthrottled_ite unthrottled_waitCurd (unthrottled_busyOrCurd _)) (unthrottled_busyOrCurd _)
    · exact (by decide : unthrottled stepIdle)

/-- A step of a chain engine falls in one of its first five counters (R269, R270). -/
theorem chainStep_range : 0x100 ≤ s.chainStep m ∧ s.chainStep m ≤ 0x104 := by
  unfold chainStep
  dsimp only
  split_ifs <;> decide

/-! A monitor step is one record: the mill after it and the two counters it falls in. -/

/-- The state after a monitor step that leaves mill m as y and falls in counter i of the mill and in counter j of its chain engine. -/
def recordStep (y : Mill) (i j : Nat) : Dev := ((s.setMill m y).bump 2 i m.val 1).bump 3 j m.val 1

@[simp] theorem mill_recordStep (y : Mill) (i j : Nat) (n : MillId) : (s.recordStep m y i j).mill n = if n = m then y else s.mill n :=
  s.mill_setMill m n y

theorem setMill_recordStep (y z : Mill) (i j : Nat) : (s.recordStep m y i j).setMill m z = s.recordStep m z i j :=
  congrArg (fun d : Dev => (d.bump 2 i m.val 1).bump 3 j m.val 1) (s.setMill_setMill m y z)

/-- The step adds 1 to counter i of the mill and leaves the mill's other counters. -/
theorem objAt_mill_recordStep (y : Mill) {i j k : Nat} (hi : i < 65536) (hj : j < 65536) (hk : k < 65536) :
    (s.recordStep m y i j).objAt 2 k m.val = if k = i then (s.objAt 2 k m.val + 1) % 2 ^ 64 else s.objAt 2 k m.val := by
  have hm : m.val < 256 := by omega
  rw [recordStep, objAt_bump _ 1 hm hm hj hk, if_neg (by simp), objAt_bump _ 1 hm hm hi hk]
  by_cases hki : k = i
  · subst hki; rw [if_pos ⟨rfl, rfl, rfl⟩, if_pos rfl]; rfl
  · rw [if_neg (by simp [hki]), if_neg hki]; rfl

/-- The step adds 1 to counter j of the chain engine and leaves the engine's other counters. -/
theorem objAt_chain_recordStep (y : Mill) {i j k : Nat} (hi : i < 65536) (hj : j < 65536) (hk : k < 65536) :
    (s.recordStep m y i j).objAt 3 k m.val = if k = j then (s.objAt 3 k m.val + 1) % 2 ^ 64 else s.objAt 3 k m.val := by
  have hm : m.val < 256 := by omega
  have hother (l : Nat) (hl : l < 65536) : ((s.setMill m y).bump 2 i m.val 1).objAt 3 l m.val = s.objAt 3 l m.val := by
    rw [objAt_bump _ 1 hm hm hi hl, if_neg (by simp)]; rfl
  rw [recordStep, objAt_bump _ 1 hm hm hj hk, hother j hj, hother k hk]
  by_cases hkj : k = j
  · subst hkj; rw [if_pos ⟨rfl, rfl, rfl⟩, if_pos rfl]
  · rw [if_neg (by simp [hkj]), if_neg hkj]

/-- A recorded step falls in exactly one of the counters of its mill and in exactly one of those of its chain engine (R217, R270). -/
theorem recordStep_counts (y : Mill) {i j : Nat} (hi : i ≤ 0x105) (hj : j ≤ 0x104) :
    (∀ k, 0x100 ≤ k → k ≤ 0x105 → (s.recordStep m y i j).objAt 2 k m.val
        = if k = i then (s.objAt 2 k m.val + 1) % 2 ^ 64 else s.objAt 2 k m.val)
      ∧ (∀ k, 0x100 ≤ k → k ≤ 0x104 → (s.recordStep m y i j).objAt 3 k m.val
        = if k = j then (s.objAt 3 k m.val + 1) % 2 ^ 64 else s.objAt 3 k m.val) :=
  ⟨fun _ _ _ => s.objAt_mill_recordStep m y (by omega) (by omega) (by omega),
    fun _ _ _ => s.objAt_chain_recordStep m y (by omega) (by omega) (by omega)⟩

/-- A throttled step only counts (R218, R270). -/
theorem millStep_of_throttled {throttled : Bool} (h : throttled = true ∧ 0 < s.throttle (millDie m).val) :
    s.millStep m throttled = s.recordStep m (s.mill m) stepThrottled 0x103 := by
  obtain ⟨rfl, hpos⟩ := h
  simp [millStep, recordStep, hpos]

/-- Any other step advances the array, whose freed slots the thresher begins to fill (R185, R218, R332). -/
theorem millStep_of_unthrottled {throttled : Bool} (h : ¬(throttled = true ∧ 0 < s.throttle (millDie m).val)) :
    ∃ fs k, s.millStep m throttled
      = s.recordStep m { (s.arrayStep m).1 with filling := fs, nextK := k } (s.arrayStep m).2 (s.chainStep m) := by
  obtain ⟨fs, k, hfill⟩ := (s.recordStep m (s.arrayStep m).1 (s.arrayStep m).2 (s.chainStep m)).openFills_eq m 8
  rw [mill_recordStep, if_pos rfl] at hfill
  refine ⟨fs, k, ?_⟩
  calc s.millStep m throttled
      = (s.recordStep m (s.arrayStep m).1 (s.arrayStep m).2 (s.chainStep m)).openFills m 8 := by
        unfold millStep
        rw [if_neg (by simpa using h)]
        rfl
    _ = _ := hfill
    _ = _ := setMill_recordStep ..

end Dev

theorem exec_millStep (m : MillId) (throttled : Bool) (s : State) :
    exec (.millStep m throttled) s = .next { s with toDev := s.millStep m throttled } := rfl

end Sys2Proof.Machine
end

section
/-! The obligation of the chain engine and fusion (O17). -/

namespace Sys2Proof.Machine

/-- Settles O17: every monitor step is one `recordStep`, a throttled one in the counters of throttling with its mill as it was
(`millStep_of_throttled`), any other in a counter of `arrayStep` and one of `chainStep` (`millStep_of_unthrottled`); what a `recordStep`
counts and leaves unchanged is said once for both. -/
theorem monitorStepCountsOnce : Obligations.MonitorStepCountsOnce := by
  unfold Obligations.MonitorStepCountsOnce
  intro m throttled s
  refine ⟨_, exec_millStep m throttled s, ?_⟩
  by_cases h : throttled = true ∧ 0 < s.throttle (millDie m).val
  · rw [s.millStep_of_throttled m h]
    obtain ⟨hmill, hchain⟩ := s.recordStep_counts m (s.mill m) (i := stepThrottled) (j := 0x103) (by decide) (by decide)
    refine ⟨⟨stepThrottled, by decide, by decide, iff_of_true h rfl, hmill⟩, ⟨0x103, by decide, by decide, hchain⟩, fun _ _ => ?_,
      fun hnot => ?_, fun n hn => ?_, rfl⟩
    · rw [Dev.mill_recordStep, if_pos rfl]
    · obtain ⟨hon, hpos⟩ := h
      rcases hnot with hoff | hzero
      · exact absurd (hon.symm.trans hoff) (by decide)
      · omega
    · rw [Dev.mill_recordStep, if_neg hn]
  · obtain ⟨fs, k, hstep⟩ := s.millStep_of_unthrottled m h
    rw [hstep]
    obtain ⟨hlow, hhigh, hne⟩ := s.unthrottled_arrayStep m
    obtain ⟨hclow, hchigh⟩ := s.chainStep_range m
    obtain ⟨hmill, hchain⟩ := s.recordStep_counts m { (s.arrayStep m).1 with filling := fs, nextK := k } hhigh hchigh
    refine ⟨⟨_, hlow, hhigh, iff_of_false h hne, hmill⟩, ⟨_, hclow, hchigh, hchain⟩, fun hon hpos => absurd ⟨hon, hpos⟩ h, fun _ => ?_,
      fun n hn => ?_, rfl⟩
    · rw [Dev.mill_recordStep, if_pos rfl]
    · rw [Dev.mill_recordStep, if_neg hn]

end Sys2Proof.Machine
end


section
/-! Every command completes (95_what_each_step_holds.md): what a store to a place of registers does in turn answers a next state, as every
other meaning does by its definition. -/

namespace Sys2Proof.Machine

/-- A command that answers a next state on every state. -/
def completes (f : State → Result) : Prop := ∀ s, ∃ t, f s = .next t

theorem inTurn_nil (s : State) : inTurn [] s = .next s := rfl

theorem inTurn_cons {f : State → Result} {l : List (State → Result)} {s t : State} (h : f s = .next t) :
    inTurn (f :: l) s = inTurn l t := by
  simp only [inTurn, List.foldl_cons, h]

theorem inTurn_completes {l : List (State → Result)} (h : ∀ f ∈ l, completes f) : completes (inTurn l) := by
  induction l with
  | nil => exact fun s => ⟨s, rfl⟩
  | cons f l ih =>
    intro s
    obtain ⟨t, ht⟩ := h f List.mem_cons_self s
    rw [inTurn_cons ht]
    exact ih (fun g hg => h g (List.mem_cons_of_mem _ hg)) t

theorem ctlCommand_completes (q : QueueId) (v : Nat) : completes (ctlCommand q v) := by
  intro s; unfold ctlCommand; split <;> exact ⟨_, rfl⟩

theorem realmCommandOf_completes (v : Nat) : completes (realmCommandOf v) := by
  intro s; unfold realmCommandOf; split <;> exact ⟨_, rfl⟩

theorem relayEnableWrite_completes (r : Fin 64) (v : Nat) :
    completes (fun s => if v = 1 then execRelayEnable r s else execRelayDisable r s) := by
  intro s; dsimp only; split <;> exact ⟨_, rfl⟩

/-- Every field that a store reaches completes its write. -/
theorem fieldsOf_completes (p : Place) : ∀ f ∈ fieldsOf p, ∀ v, completes (f.act v) := by
  intro f hf v
  cases p <;> simp only [fieldsOf, List.mem_cons, List.not_mem_nil, or_false, List.mem_map] at hf
  case journalBlock => rcases hf with rfl | rfl | rfl | rfl <;> exact fun s => ⟨_, rfl⟩
  case relayBlock r =>
    rcases hf with rfl | rfl | rfl | rfl | rfl | rfl | rfl
    case inr.inr.inr.inr.inl => exact relayEnableWrite_completes r v
    all_goals exact fun s => ⟨_, rfl⟩
  case relayEntry r i => obtain ⟨w, -, rfl⟩ := hf; exact fun s => ⟨_, rfl⟩
  case mailbox => subst hf; exact fun s => ⟨_, rfl⟩
  case queueBlock q =>
    rcases hf with rfl | rfl | rfl | rfl | rfl | rfl | rfl | rfl | rfl | rfl | rfl
    case inr.inr.inr.inr.inr.inr.inr.inr.inr.inr => exact ctlCommand_completes q v
    all_goals exact fun s => ⟨_, rfl⟩
  case mmuRegisters => rcases hf with rfl | rfl | rfl | rfl | rfl | rfl <;> exact fun s => ⟨_, rfl⟩
  case faultBlock => rcases hf with rfl | rfl | rfl | rfl | rfl | rfl | rfl | rfl <;> exact fun s => ⟨_, rfl⟩
  case realmBlock =>
    rcases hf with rfl | rfl | rfl | rfl | rfl
    case inr.inr.inr.inr => exact realmCommandOf_completes v
    all_goals exact fun s => ⟨_, rfl⟩
  case windowEntry => rcases hf with rfl | rfl <;> exact fun s => ⟨_, rfl⟩

theorem storePlace_completes (p : Place) (o n v : Nat) : completes (fun s => s.storePlace p o n v) := by
  intro s
  refine inTurn_completes (fun f hf => ?_) s
  obtain ⟨g, hg, rfl⟩ := List.mem_map.mp hf
  exact fieldsOf_completes p g (List.mem_filter.mp hg).1 _

theorem answering_completes {r : Result} {s : State} (h : r = .next s) (v : Nat) :
    answering r v = .next { s with reply := some (.value (BitVec.ofNat 64 v)) } := by rw [h]; rfl

theorem placeAccess_completes (p : Place) (o : Nat) (op : CoreOp) (n : Nat) (v : U64) : completes (fun s => s.placeAccess p o op n v) := by
  intro s
  have hanswering : ∀ w x, ∃ t, answering (s.storePlace p o n w) x = .next t := fun w x =>
    let ⟨_, ht⟩ := storePlace_completes p o n w s
    ⟨_, answering_completes ht x⟩
  cases p
  case flag | counter | time => cases op <;> exact ⟨_, rfl⟩
  all_goals
    cases op
    case load | lr | sc => exact ⟨_, rfl⟩
    all_goals unfold State.placeAccess; exact hanswering _ _

theorem busAccess_completes (op : CoreOp) (pa : U64) (realm : Bool) (n : Nat) (v : U64) : completes (busAccess op pa realm n v) := by
  intro s
  unfold busAccess
  dsimp only
  split
  · exact ⟨_, rfl⟩
  · split
    · exact ⟨_, rfl⟩
    · split <;> exact ⟨_, rfl⟩
    · exact placeAccess_completes _ _ op n v s

theorem registerWrite_completes (target : RegTarget) (v : U64) : completes (execRegisterWrite target v) := by
  intro s
  cases target with
  | bus op pa realm n => exact busAccess_completes op pa realm n.val v s
  | _ => exact ⟨_, rfl⟩

theorem exec_completes (c : Instr) : completes (exec c) := by
  intro s
  cases c with
  | registerWrite target v => exact registerWrite_completes target v s
  | _ => exact ⟨_, rfl⟩

/-- Settles O1: every meaning is written as `.next`; only a store to a place of registers, which writes its fields in turn, needs an induction. -/
theorem stepRunsFront : Obligations.StepRunsFront :=
  ⟨fun c rest s h => by unfold step; rw [h], fun c s => exec_completes c s⟩

end Sys2Proof.Machine
end


section
/-! The state at reset (log entry 4), and a power manager whose levels are all at their start. -/

namespace Sys2Proof.Machine

/-- The levels of the power manager as they start: ceilings at OP7, no throttle, every run of windows and ticks empty. -/
structure State.levelsAtStart (s : State) : Prop where
  moduleCeil : s.pow.moduleCeil = 7
  thermCeil : s.pow.thermCeil = []
  throttles : s.thr = {}
  overRun : s.pow.overRun = 0
  underRun : s.pow.underRun = 0
  coolRun : s.pow.coolRun = []
  history : s.pow.history = []

theorem State.powerKept_of_levelsAtStart {s : State} (h : s.levelsAtStart) : s.powerKept := by
  obtain ⟨hceil, htherm, hthr, hover, hunder, hcool, hhistory⟩ := h
  constructor <;> simp [hceil, htherm, hthr, hover, hunder, hcool, hhistory, PowerState.therm]

theorem State.levelsAtStart_reset : State.reset.levelsAtStart := ⟨rfl, rfl, rfl, rfl, rfl, rfl, rfl⟩

theorem obj!_reset (a : Nat) : State.reset.obj! a = objDefault a := rfl

theorem linkUp_reset (l : LinkId) : State.reset.linkUp l = false := by
  revert l; decide

theorem realmAt_reset (r : Nat) : State.reset.realmAt r = {} := by
  have hrealms : State.reset.svc.realms = Vector.replicate 64 {} := rfl
  rw [Dev.realmAt, hrealms]
  by_cases h : r < 64 <;> simp [Vector.getD, Array.getD, h]

theorem agent_reset (a : Agent) : State.reset.agent a = {} := by
  have hagents : State.reset.mem.agents = Vector.replicate 10 {} := rfl
  unfold Dev.agent
  rw [hagents]
  exact Vector.getElem_replicate ..

theorem lineAt_reset (a : Agent) (t : LineTag) : State.reset.lineAt a t = none := by
  unfold Dev.lineAt; rw [agent_reset]; rfl

/-- Settles O60: every table of the reset state is empty, so that each entry reads its default. -/
theorem resetState : Obligations.ResetState :=
  ⟨State.powerKept_of_levelsAtStart State.levelsAtStart_reset, rfl, rfl, rfl, rfl, obj!_reset, by decide, by decide, fun _ => rfl, fun _ => rfl,
    fun _ => rfl, linkUp_reset, fun _ _ => rfl, fun _ _ => rfl, fun _ => rfl, fun r => by rw [realmAt_reset], rfl, lineAt_reset⟩

end Sys2Proof.Machine
end


section
/-! The throttle fractions (R624, R626, R630) are the power manager's: how a change of them, or none, goes through the ways in which the
model puts operations together. -/

namespace Sys2Proof.Machine

theorem foldl_thr {α : Type} (f : Dev → α → Dev) (hf : ∀ (s : Dev) (a : α), (f s a).thr = s.thr) (l : List α) (s : Dev) :
    (l.foldl f s).thr = s.thr := by
  induction l generalizing s with
  | nil => rfl
  | cons a l ih => rw [List.foldl_cons, ih, hf]

theorem foldl_fst_thr {α β : Type} (f : Dev × β → α → Dev × β) (hf : ∀ (x : Dev × β) (a : α), (f x a).1.thr = x.1.thr) (l : List α) (x : Dev × β) :
    (l.foldl f x).1.thr = x.1.thr := by
  induction l generalizing x with
  | nil => rfl
  | cons a l ih => rw [List.foldl_cons, ih, hf]

theorem memStep_thr {s t : Dev} (h : s.memStep t) : t.thr = s.thr := by rw [h.rest]

theorem ite_thr {c : Prop} [Decidable c] (s t : Dev) : (if c then s else t).thr = if c then s.thr else t.thr := apply_ite ..

theorem ite_fst {α β : Type} {c : Prop} [Decidable c] (s t : α × β) : (if c then s else t).1 = if c then s.1 else t.1 := apply_ite ..

theorem Named.andThen_thr {α β : Type} (r : Dev × Named α) (f : Dev → α → Dev × Named β) (hf : ∀ s a, (f s a).1.thr = s.thr) :
    (Named.andThen r f).1.thr = r.1.thr := by
  unfold Named.andThen; split <;> simp [hf]

theorem Fetch.andThen_thr {α β : Type} (r : Dev × Fetch α) (f : Dev → α → Dev × Fetch β) (hf : ∀ s a, (f s a).1.thr = s.thr) :
    (Fetch.andThen r f).1.thr = r.1.thr := by
  unfold Fetch.andThen; split <;> simp [hf]

theorem Fetch.both_thr {α β : Type} (r : Dev × Fetch α) (f : Dev → Dev × Fetch β) (hf : ∀ s, (f s).1.thr = s.thr) :
    (Fetch.both r f).1.thr = r.1.thr := by
  obtain ⟨s, a⟩ := r
  have h := hf s
  unfold Fetch.both
  cases a with
  | ok a => simp [Fetch.andThen_thr, h]
  | wait => dsimp only; split <;> simp_all
  | fail => rfl

@[simp] theorem Fetch.toNamed_thr {α : Type} (r : Dev × Fetch α) : (Fetch.toNamed r).1.thr = r.1.thr := by
  unfold Fetch.toNamed; split <;> rfl

theorem fst_thr {α : Type} {r : Dev × α} {s t : Dev} {a : α} (h : r.1.thr = s.thr) (hr : r = (t, a)) : t.thr = s.thr := by
  rw [← h, hr]

theorem getD_thr {o : Option Dev} {s t : Dev} (h : ∀ u, o = some u → u.thr = t.thr) (hs : s.thr = t.thr) : (o.getD s).thr = t.thr := by
  cases o with
  | none => exact hs
  | some u => exact h u rfl

theorem ite_dev_thr_of {c : Prop} [Decidable c] {r t s : Dev} (hr : r.thr = s.thr) (ht : t.thr = s.thr) : (if c then r else t).thr = s.thr := by
  split
  · exact hr
  · exact ht

theorem ite_some_thr {c : Prop} [Decidable c] {x y : Option Dev} {s u : Dev} (hx : x = some u → u.thr = s.thr) (hy : y = some u → u.thr = s.thr)
    (h : (if c then x else y) = some u) : u.thr = s.thr := by
  split at h
  · exact hx h
  · exact hy h

theorem ite_thr_of {α : Type} {c : Prop} [Decidable c] {r t : Dev × α} {s : Dev} (hr : r.1.thr = s.thr) (ht : t.1.thr = s.thr) :
    (if c then r else t).1.thr = s.thr := by
  split
  · exact hr
  · exact ht

theorem Named.andThen_thr_of {α β : Type} {r : Dev × Named α} {f : Dev → α → Dev × Named β} {s : Dev} (h : r.1.thr = s.thr)
    (hf : ∀ t a, t.thr = s.thr → (f t a).1.thr = s.thr) : (Named.andThen r f).1.thr = s.thr := by
  unfold Named.andThen; split
  · exact hf _ _ h
  · exact h
  · exact h
  · exact h

theorem Fetch.andThen_thr_of {α β : Type} {r : Dev × Fetch α} {f : Dev → α → Dev × Fetch β} {s : Dev} (h : r.1.thr = s.thr)
    (hf : ∀ t a, t.thr = s.thr → (f t a).1.thr = s.thr) : (Fetch.andThen r f).1.thr = s.thr := by
  unfold Fetch.andThen; split
  · exact hf _ _ h
  · exact h
  · exact h



end Sys2Proof.Machine
end


section
/-! No operation of the engines, the memory system, translation or the fabric changes a throttle fraction. -/

namespace Sys2Proof.Machine

@[simp] theorem Dev.setNow_thr (s : Dev) (t : U64) : (s.setNow t).thr = s.thr := by simp [setNow]
@[simp] theorem Dev.freshNat_thr (s : Dev) : s.freshNat.1.thr = s.thr := by simp [freshNat]
@[simp] theorem Dev.setObj_thr (s : Dev) (addr v : Nat) : (s.setObj addr v).thr = s.thr := memStep_thr (memStep_setObj ..)
@[simp] theorem Dev.setObjAt_thr (s : Dev) (ss idx sub v : Nat) : (s.setObjAt ss idx sub v).thr = s.thr := by simp [setObjAt]
@[simp] theorem Dev.bump_thr (s : Dev) (ss idx sub n : Nat) : (s.bump ss idx sub n).thr = s.thr := memStep_thr (memStep_bump ..)
@[simp] theorem Dev.event_thr (s : Dev) (kind detail : Nat) : (s.event kind detail).thr = s.thr := memStep_thr (memStep_event ..)
@[simp] theorem Dev.setQueue_thr (s : Dev) (q : QueueId) (x : Queue) : (s.setQueue q x).thr = s.thr := by simp [setQueue]
@[simp] theorem Dev.modQueue_thr (s : Dev) (q : QueueId) (f : Queue → Queue) : (s.modQueue q f).thr = s.thr := by simp [modQueue]
@[simp] theorem Dev.modOp_thr (s : Dev) (slot : SlotId) (f : Operation → Operation) : (s.modOp slot f).thr = s.thr := by simp [modOp]
@[simp] theorem Dev.setMill_thr (s : Dev) (m : MillId) (x : Mill) : (s.setMill m x).thr = s.thr := by simp [setMill]
@[simp] theorem Dev.modMill_thr (s : Dev) (m : MillId) (f : Mill → Mill) : (s.modMill m f).thr = s.thr := by simp [modMill]
@[simp] theorem Dev.setFlag_thr (s : Dev) (d i : Nat) (v : Bool) : (s.setFlag d i v).thr = s.thr := by simp [setFlag]
@[simp] theorem Dev.setCounter_thr (s : Dev) (d i : Nat) (v : U32) : (s.setCounter d i v).thr = s.thr := by simp [setCounter]
@[simp] theorem Dev.setPcounter_thr (s : Dev) (c : Nat) (v : U32) : (s.setPcounter c v).thr = s.thr := by simp [setPcounter]
@[simp] theorem Dev.modJournal_thr (s : Dev) (f : Journal → Journal) : (s.modJournal f).thr = s.thr := by simp [modJournal]
@[simp] theorem Dev.setHub_thr (s : Dev) (h : HubId) (x : Hub) : (s.setHub h x).thr = s.thr := memStep_thr (memStep_setHub ..)
@[simp] theorem Dev.modHub_thr (s : Dev) (h : HubId) (f : Hub → Hub) : (s.modHub h f).thr = s.thr := memStep_thr (memStep_modHub ..)
@[simp] theorem Dev.setAgent_thr (s : Dev) (a : Agent) (x : CacheAgent) : (s.setAgent a x).thr = s.thr := by simp [setAgent]
@[simp] theorem Dev.modAgent_thr (s : Dev) (a : Agent) (f : CacheAgent → CacheAgent) :
    (s.modAgent a f).thr = s.thr := memStep_thr (memStep_modAgent ..)
@[simp] theorem Dev.setMmu_thr (s : Dev) (m : MmuId) (x : Mmu) : (s.setMmu m x).thr = s.thr := by simp [setMmu]
@[simp] theorem Dev.modMmu_thr (s : Dev) (m : MmuId) (f : Mmu → Mmu) : (s.modMmu m f).thr = s.thr := memStep_thr (memStep_modMmu ..)
@[simp] theorem Dev.modRealm_thr (s : Dev) (r : Nat) (f : Realm → Realm) : (s.modRealm r f).thr = s.thr := by simp [modRealm]
@[simp] theorem Dev.modMem_thr (s : Dev) (f : MemState → MemState) : (s.modMem f).thr = s.thr := by simp [modMem]
@[simp] theorem Dev.modXl_thr (s : Dev) (f : XlState → XlState) : (s.modXl f).thr = s.thr := memStep_thr (memStep_modXl ..)
@[simp] theorem Dev.stamp_thr (s : Dev) : s.stamp.1.thr = s.thr := memStep_thr (memStep_stamp ..)
@[simp] theorem Dev.send_thr (s : Dev) (m : Msg) : (s.send m).thr = s.thr := memStep_thr (memStep_send ..)
@[simp] theorem Dev.receive_thr (s : Dev) (m : Msg) : (s.receive m).thr = s.thr := memStep_thr (memStep_receive ..)
@[simp] theorem Dev.dramWrite_thr (s : Dev) (t : LineTag) (data : LineData) (poison : Bool) :
    (s.dramWrite t data poison).thr = s.thr := memStep_thr (memStep_dramWrite ..)
@[simp] theorem Dev.dramSetPoison_thr (s : Dev) (t : LineTag) : (s.dramSetPoison t).thr = s.thr := memStep_thr (memStep_dramSetPoison ..)
@[simp] theorem Dev.l3Put_thr (s : Dev) (t : LineTag) (data : LineData) (dirty poison : Bool) :
    (s.l3Put t data dirty poison).thr = s.thr := memStep_thr (memStep_l3Put ..)
@[simp] theorem Dev.dropSideOf_thr (s : Dev) (t : LineTag) (ds : List Nat) : (s.dropSideOf t ds).thr = s.thr := memStep_thr (memStep_dropSideOf ..)
@[simp] theorem Dev.dropSide_thr (s : Dev) (t : LineTag) : (s.dropSide t).thr = s.thr := memStep_thr (memStep_dropSide ..)
@[simp] theorem Dev.trimRetained_thr (s : Dev) (a : Agent) (t : LineTag) : (s.trimRetained a t).thr = s.thr := memStep_thr (memStep_trimRetained ..)
@[simp] theorem Dev.evictLine_thr (s : Dev) (a : Agent) (v : LineTag) (l : CacheLine) :
    (s.evictLine a v l).thr = s.thr := memStep_thr (memStep_evictLine ..)
theorem Dev.fillLine_thr {s u : Dev} {a : Agent} {t : LineTag} {l : CacheLine} (h : s.fillLine a t l = some u) : u.thr = s.thr :=
  memStep_thr (memStep_fillLine h)
@[simp] theorem Dev.takeEpoch_thr (s : Dev) (t : LineTag) : (s.takeEpoch t).1.thr = s.thr := memStep_thr (memStep_takeEpoch ..)
@[simp] theorem Dev.openTxn_thr (s : Dev) (t : LineTag) (kind : ReqKind) (by_ : ReqBy) (snoop : SnoopKind) (dest : List Agent) (fromO : Bool) (err : Nat) :
    (s.openTxn t kind by_ snoop dest fromO err).thr = s.thr := memStep_thr (memStep_openTxn ..)
@[simp] theorem Dev.dirRoom_thr (s : Dev) (t : LineTag) : (s.dirRoom t).thr = s.thr := memStep_thr (memStep_dirRoom ..)
@[simp] theorem Dev.putDir_thr (s : Dev) (t : LineTag) (st : DirState) (owner : Option Agent) (sharers : List Agent) (poison : Bool) :
    (s.putDir t st owner sharers poison).thr = s.thr := memStep_thr (memStep_putDir ..)
@[simp] theorem Dev.moduleFatal_thr (s : Dev) (first : Nat) : (s.moduleFatal first).thr = s.thr := memStep_thr (memStep_moduleFatal ..)
@[simp] theorem Dev.dropRecord_thr (s : Dev) (m : MmuId) : (s.dropRecord m).thr = s.thr := memStep_thr (memStep_dropRecord ..)
@[simp] theorem Dev.holdRecord_thr (s : Dev) (m : MmuId) (r : FaultRecord) : (s.holdRecord m r).thr = s.thr := memStep_thr (memStep_holdRecord ..)
@[simp] theorem Dev.holdDram_thr (s : Dev) (t : LineTag) (source : Nat) : (s.holdDram t source).thr = s.thr := memStep_thr (memStep_holdDram ..)
@[simp] theorem Dev.readError_thr (s : Dev) (given : Option Nat) : (s.readError given).1.thr = s.thr := memStep_thr (memStep_readError ..)
@[simp] theorem Dev.wcbDrainWith_thr (s : Dev) (t : LineTag) (w : WcbLine) (base : LineData) (poison : Bool) (idx : Nat) :
    (s.wcbDrainWith t w base poison idx).thr = s.thr := memStep_thr (memStep_wcbDrainWith ..)
@[simp] theorem Dev.gatherHome_thr (s : Dev) (t : LineTag) : (s.gatherHome t).thr = s.thr := memStep_thr (memStep_gatherHome ..)
@[simp] theorem Dev.writeRecord_thr (s : Dev) (m : MmuId) (r : FaultRecord) : (s.writeRecord m r).thr = s.thr := memStep_thr (memStep_writeRecord ..)
@[simp] theorem Dev.drainHeld_thr (s : Dev) (m : MmuId) (a0 : Nat) : (s.drainHeld m a0).thr = s.thr := memStep_thr (memStep_drainHeld ..)
@[simp] theorem Dev.reportTo_thr (s : Dev) (m : MmuId) (r : FaultRecord) : (s.reportTo m r).thr = s.thr := memStep_thr (memStep_reportTo ..)
@[simp] theorem Dev.report_thr (s : Dev) (die : Die) (f : RecFields) : (s.report die f).thr = s.thr := memStep_thr (memStep_report ..)
@[simp] theorem Dev.reportDram_thr (s : Dev) (t : LineTag) (source : Nat) : (s.reportDram t source).thr = s.thr := memStep_thr (memStep_reportDram ..)
@[simp] theorem Dev.dramRead_thr (s : Dev) (t : LineTag) (given : Option Nat) (source : Nat) :
    (s.dramRead t given source).1.thr = s.thr := memStep_thr (memStep_dramRead ..)
@[simp] theorem Dev.wcbDrain_thr (s : Dev) (t : LineTag) (given : Option Nat) (idx : Nat) :
    (s.wcbDrain t given idx).thr = s.thr := memStep_thr (memStep_wcbDrain ..)
@[simp] theorem Dev.homeWrite_thr (s : Dev) (t : LineTag) (off : Nat) (bytes : List Byte) (part by_ : Nat) :
    (s.homeWrite t off bytes part by_).thr = s.thr := memStep_thr (memStep_homeWrite ..)
@[simp] theorem Dev.pushWrite_thr (s : Dev) (t : LineTag) (off : Nat) (bytes : List Byte) (part by_ : Nat) :
    (s.pushWrite t off bytes part by_).thr = s.thr := memStep_thr (memStep_pushWrite ..)
@[simp] theorem Dev.physWrite_thr (s : Dev) (pa : Nat) (bytes : List Byte) (realm : Bool) (die : Die) :
    (s.physWrite pa bytes realm die).thr = s.thr := memStep_thr (memStep_physWrite ..)
@[simp] theorem Dev.homeRead_thr (s : Dev) (t : LineTag) (given : Option Nat) :
    (s.homeRead t given).1.thr = s.thr := memStep_thr (memStep_homeRead ..)
@[simp] theorem Dev.dirRemove_thr (s : Dev) (t : LineTag) (a : Agent) : (s.dirRemove t a).thr = s.thr := memStep_thr (memStep_dirRemove ..)
@[simp] theorem Dev.lruPlace_thr (s : Dev) (a : Agent) (t : LineTag) : (s.lruPlace a t).thr = s.thr := by simp [lruPlace]
theorem Dev.place!_thr {s u : Dev} {a : Agent} {t : LineTag} {l : CacheLine} {hint : Nat} (h : s.place! a t l hint = some u) : u.thr = s.thr :=
  memStep_thr (memStep_place h)
@[simp] theorem Dev.evbWait_thr (s : Dev) (a : Agent) : (s.evbWait a).thr = s.thr := memStep_thr (memStep_evbWait ..)
theorem Dev.promote_thr {s u : Dev} {a : Agent} {t : LineTag} {hint : Nat} (h : s.promote a t hint = some u) : u.thr = s.thr :=
  memStep_thr (memStep_promote h)
@[simp] theorem Dev.joinFlight_thr (s : Dev) (a : Agent) (who : Nat) (t : LineTag) (f : InFlight) (hint : Nat) :
    (s.joinFlight a who t f hint).thr = s.thr := memStep_thr (memStep_joinFlight ..)
@[simp] theorem Dev.touch_thr (s : Dev) (a : Agent) (t : LineTag) (l : CacheLine) : (s.touch a t l).thr = s.thr := memStep_thr (memStep_touch ..)
@[simp] theorem Dev.takeEntry_thr (s : Dev) (a : Agent) (who : Nat) (t : LineTag) :
    (s.takeEntry a who t).1.thr = s.thr := memStep_thr (memStep_takeEntry ..)
@[simp] theorem Dev.forgetEntry_thr (s : Dev) (a : Agent) (who : Nat) (t : LineTag) :
    (s.forgetEntry a who t).thr = s.thr := memStep_thr (memStep_forgetEntry ..)
@[simp] theorem Dev.forgetWaits_thr (s : Dev) (a : Agent) (gone : Nat → Bool) : (s.forgetWaits a gone).thr = s.thr := by simp [forgetWaits]
@[simp] theorem Dev.evbToHome_thr (s : Dev) (t : LineTag) : (s.evbToHome t).thr = s.thr := memStep_thr (memStep_evbToHome ..)
@[simp] theorem Dev.takeWriteBack_thr (s : Dev) (t : LineTag) (a : Agent) (data : LineData) (poison : Bool) :
    (s.takeWriteBack t a data poison).thr = s.thr := memStep_thr (memStep_takeWriteBack ..)
@[simp] theorem Dev.takeEvictClean_thr (s : Dev) (t : LineTag) (a : Agent) :
    (s.takeEvictClean t a).thr = s.thr := memStep_thr (memStep_takeEvictClean ..)
@[simp] theorem Dev.takeEviction_thr (s : Dev) (m : Msg) : (s.takeEviction m).thr = s.thr := memStep_thr (memStep_takeEviction ..)
@[simp] theorem Dev.evictionAnswered_thr (s : Dev) (m : Msg) : (s.evictionAnswered m).thr = s.thr := memStep_thr (memStep_evictionAnswered ..)
@[simp] theorem Dev.flushOwn_thr (s : Dev) (a : Agent) (t : LineTag) : (s.flushOwn a t).thr = s.thr := memStep_thr (memStep_flushOwn ..)
@[simp] theorem Dev.snoopOwner_thr (s : Dev) (but : Option Agent) (t : LineTag) :
    (s.snoopOwner but t).thr = s.thr := memStep_thr (memStep_snoopOwner ..)
@[simp] theorem Dev.obtain_thr (s : Dev) (a : Agent) (t : LineTag) : (s.obtain a t).1.thr = s.thr := memStep_thr (memStep_obtain ..)
@[simp] theorem Dev.demandRead_thr (s : Dev) (a : Agent) (who : Nat) (t : LineTag) (hint : Nat) :
    (s.demandRead a who t hint).1.thr = s.thr := memStep_thr (memStep_demandRead ..)
@[simp] theorem Dev.onceRead_thr (s : Dev) (t : LineTag) : (s.onceRead t).thr = s.thr := memStep_thr (memStep_onceRead ..)
@[simp] theorem Dev.readLines_thr (s : Dev) (die : Die) (who hint : Nat) (ts : List LineTag) :
    (s.readLines die who hint ts).1.thr = s.thr := memStep_thr (memStep_readLines ..)
@[simp] theorem Dev.invOthers_thr (s : Dev) (a : Agent) (t : LineTag) : (s.invOthers a t).1.thr = s.thr := memStep_thr (memStep_invOthers ..)
theorem Dev.ownWrite_thr {s u : Dev} {a : Agent} {t : LineTag} {off : Nat} {b : List Byte} {part hint : Nat}
    (h : s.ownWrite a t off b part hint = some u) : u.thr = s.thr := memStep_thr (memStep_ownWrite h)
@[simp] theorem Dev.readyLine_thr (s : Dev) (a : Agent) (who : Nat) (t : LineTag) (hint : Nat) :
    (s.readyLine a who t hint).1.thr = s.thr := memStep_thr (memStep_readyLine ..)
@[simp] theorem Dev.readyLines_thr (s : Dev) (die : Die) (who hint : Nat) (ts : List LineTag) :
    (s.readyLines die who hint ts).1.thr = s.thr := memStep_thr (memStep_readyLines ..)
theorem Dev.writeLine_thr {s u : Dev} {die : Die} {stream hint : Nat} {w : LineWrite} (h : s.writeLine die stream hint w = some u) :
    u.thr = s.thr := memStep_thr (memStep_writeLine h)
theorem Dev.writeLines_thr {s u : Dev} {die : Die} {stream hint : Nat} {ws : List LineWrite} (h : s.writeLines die stream hint ws = some u) :
    u.thr = s.thr := memStep_thr (memStep_writeLines h)
@[simp] theorem Dev.writeWait_thr (s : Dev) (die : Die) : (s.writeWait die).thr = s.thr := memStep_thr (memStep_writeWait ..)
@[simp] theorem Dev.ctxFill_thr (s : Dev) (m : MmuId) (asid : Nat) : (s.ctxFill m asid).thr = s.thr := memStep_thr (memStep_ctxFill ..)
@[simp] theorem Dev.tcPut_thr (s : Dev) (die : Die) (e : TcEntry) : (s.tcPut die e).thr = s.thr := memStep_thr (memStep_tcPut ..)
@[simp] theorem Dev.reportAccess_thr (s : Dev) (p : Port) (va cause : Nat) (rights : Rights) (realm : Bool) :
    (s.reportAccess p va cause rights realm).thr = s.thr := by simp [reportAccess]
@[simp] theorem Dev.reportRealm_thr (s : Dev) (p : Port) (va cause realm : Nat) :
    (s.reportRealm p va cause realm).thr = s.thr := memStep_thr (memStep_reportRealm ..)
@[simp] theorem Dev.joinRequest_thr (s : Dev) (m : MmuId) (die : Die) (asid vpn : Nat) (w : WaitingStream) :
    (s.joinRequest m die asid vpn w).thr = s.thr := memStep_thr (memStep_joinRequest ..)
@[simp] theorem Dev.missFor_thr (s : Dev) (p : Port) (va : Nat) (want : Rights) (for_ : List (Option SlotId)) :
    (s.missFor p va want for_).thr = s.thr := memStep_thr (memStep_missFor ..)
@[simp] theorem Dev.miss_thr (s : Dev) (p : Port) (va : Nat) (want : Rights) : (s.miss p va want).thr = s.thr := memStep_thr (memStep_miss ..)
@[simp] theorem Dev.translateAll_thr (s : Dev) (p : Port) (want : Rights) (a0 : List (Nat × Nat)) :
    (s.translateAll p want a0).1.thr = s.thr := memStep_thr (memStep_translateAll ..)
@[simp] theorem Dev.countHits_thr (s : Dev) (p : Port) (ps : List Piece) : (s.countHits p ps).thr = s.thr := memStep_thr (memStep_countHits ..)
@[simp] theorem Dev.readPieces_thr (s : Dev) (p : Port) (ps : List Piece) : (s.readPieces p ps).1.thr = s.thr := memStep_thr (memStep_readPieces ..)
@[simp] theorem Dev.keepRead_thr (s : Dev) (p : Port) (runs : List (Nat × Nat)) (data : List (List Byte)) (realm : Bool) :
    (s.keepRead p runs data realm).thr = s.thr := by
  unfold keepRead
  split <;> simp
@[simp] theorem Dev.readVaR_thr (s : Dev) (p : Port) (va n : Nat) : (s.readVaR p va n).1.thr = s.thr := by
  unfold readVaR
  grind [!translateAll_thr, !readPieces_thr, !countHits_thr, !keepRead_thr]
@[simp] theorem Dev.readVa_thr (s : Dev) (p : Port) (va n : Nat) : (s.readVa p va n).1.thr = s.thr := by
  unfold readVa
  grind [!readVaR_thr]
theorem Dev.writePieces_thr {s u : Dev} {p : Port} {hint : Nat} {ps : List Piece} {b : List Byte} {part : List Nat}
    (h : s.writePieces p hint ps b part = some u) : u.thr = s.thr := memStep_thr (memStep_writePieces h)
@[simp] theorem Dev.holdWrite_thr (s : Dev) (p : Port) (hint : Nat) (exempt : Bool) (want : Rights) (ranges : List (Nat × Nat)) :
    (s.holdWrite p hint exempt want ranges).1.thr = s.thr := memStep_thr (memStep_holdWrite ..)
@[simp] theorem Dev.writeUnit_thr (s : Dev) (p : Port) (hint : Nat) (exempt : Bool) (runs : List (Nat × List Byte)) :
    (s.writeUnit p hint exempt runs).1.thr = s.thr := memStep_thr (memStep_writeUnit ..)
@[simp] theorem Dev.onceReads_thr (s : Dev) (ts : List LineTag) : (s.onceReads ts).thr = s.thr := memStep_thr (memStep_onceReads ..)
@[simp] theorem Dev.ctxRead_thr (s : Dev) (m : MmuId) (asid : Nat) : (s.ctxRead m asid).thr = s.thr := memStep_thr (memStep_ctxRead ..)
@[simp] theorem Dev.walk_thr (s : Dev) (die : Die) (asid vpn : Nat) : (s.walk die asid vpn).1.thr = s.thr := memStep_thr (memStep_walk ..)
@[simp] theorem Dev.answerMisses_thr (s : Dev) (die : Die) (e : TcEntry) : (s.answerMisses die e).thr = s.thr := memStep_thr (memStep_answerMisses ..)
@[simp] theorem Dev.probePages_thr (s : Dev) (p : Port) (want : Rights) (a0 : List (Nat × Nat)) :
    (s.probePages p want a0).1.thr = s.thr := memStep_thr (memStep_probePages ..)
@[simp] theorem Dev.probeRead_thr (s : Dev) (p : Port) (va n : Nat) : (s.probeRead p va n).1.thr = s.thr := by
  unfold probeRead
  grind [!probePages_thr, !readVa_thr]
@[simp] theorem Dev.readRuns_thr (s : Dev) (p : Port) (runs : List (Nat × Nat)) : (s.readRuns p runs).1.thr = s.thr := by
  unfold readRuns
  grind [!translateAll_thr, !readPieces_thr, !countHits_thr, !keepRead_thr]
@[simp] theorem Dev.forgetReads_thr (s : Dev) (slot : SlotId) (gone : Nat → Bool) : (s.forgetReads slot gone).thr = s.thr := by simp [forgetReads]
@[simp] theorem Dev.readCodes_thr (s : Dev) (p : Port) (t : Tensor) (cs : List (List Nat)) : (s.readCodes p t cs).1.thr = s.thr := by
  unfold readCodes
  grind [!readRuns_thr]
@[simp] theorem Dev.readScales_thr (s : Dev) (p : Port) (t : Tensor) (cs : List (List Nat)) : (s.readScales p t cs).1.thr = s.thr := by
  unfold readScales
  grind [!readRuns_thr]
@[simp] theorem Dev.readValsS_thr (s : Dev) (p ps : Port) (t : Tensor) (cs : List (List Nat)) :
    (s.readValsS p ps t cs).1.thr = s.thr := by simp [readValsS, Fetch.andThen_thr, Fetch.both_thr]
@[simp] theorem Dev.readVals_thr (s : Dev) (p : Port) (t : Tensor) (cs : List (List Nat)) : (s.readVals p t cs).1.thr = s.thr := by simp [readVals]
@[simp] theorem Dev.readDesc_thr (s : Dev) (p : Port) (handle : Nat) : (s.readDesc p handle).1.thr = s.thr := by
  unfold readDesc
  grind [!ctxFill_thr, !readVa_thr]
@[simp] theorem Dev.named_thr {α : Type} (s : Dev) (p : Port) (handle : Nat) (parse : Nat → Option α) : (s.named p handle parse).1.thr = s.thr := by
  unfold named
  grind [!readDesc_thr]
@[simp] theorem Dev.withScale_thr (s : Dev) (p : Port) (t : Tensor) : (s.withScale p t).1.thr = s.thr := by
  unfold withScale
  split <;> simp [Named.andThen_thr, ite_fst]
@[simp] theorem Dev.namedTensor_thr (s : Dev) (p : Port) (handle : Nat) :
    (s.namedTensor p handle).1.thr = s.thr := by simp [namedTensor, Named.andThen_thr]
@[simp] theorem Dev.namedBytes_thr (s : Dev) (p : Port) (handle : Nat) : (s.namedBytes p handle).1.thr = s.thr := by simp [namedBytes]
@[simp] theorem Dev.latch_thr (s : Dev) (q : QueueId) : (s.latch q).thr = s.thr := by simp [latch]
@[simp] theorem Dev.latchAll_thr (s : Dev) : s.latchAll.thr = s.thr := by
  refine foldl_thr _ (fun s e => ?_) _ _
  split <;> simp
@[simp] theorem Dev.countStalls_thr (s : Dev) (ns : Nat) : (s.countStalls ns).thr = s.thr := by simp [countStalls, foldl_thr, ite_thr]
@[simp] theorem Dev.advance_thr (s : Dev) (t : U64) : (s.advance t).thr = s.thr := by simp [advance]
@[simp] theorem Dev.drainWcbOf_thr (s : Dev) (mine : Nat → Bool) : (s.drainWcbOf mine).thr = s.thr := memStep_thr (memStep_drainWcbOf ..)
@[simp] theorem Dev.updateFlag_thr (s : Dev) (d i : Nat) (v : Bool) : (s.updateFlag d i v).thr = s.thr := by simp [updateFlag]
@[simp] theorem Dev.updateCounter_thr (s : Dev) (d i : Nat) (v : U32) : (s.updateCounter d i v).thr = s.thr := by simp [updateCounter]
@[simp] theorem Dev.addCounter_thr (s : Dev) (d i : Nat) (v : U32) : (s.addCounter d i v).thr = s.thr := by simp [addCounter]
@[simp] theorem Dev.updatePcounter_thr (s : Dev) (c : Nat) (v : U32) : (s.updatePcounter c v).thr = s.thr := by simp [updatePcounter]
@[simp] theorem Dev.addPcounter_thr (s : Dev) (c : Nat) (v : U32) : (s.addPcounter c v).thr = s.thr := by simp [addPcounter]
@[simp] theorem Dev.performSignal_thr (s : Dev) (g : PendingSignal) : (s.performSignal g).thr = s.thr := by
  unfold performSignal
  grind [!updatePcounter_thr, !updateCounter_thr, !addPcounter_thr, !updateFlag_thr, !addCounter_thr]
@[simp] theorem Dev.updateCounterOf_thr (s : Dev) (c : CounterRef) (v : U32) : (s.updateCounterOf c v).thr = s.thr := by
  unfold updateCounterOf
  split <;> simp
@[simp] theorem Dev.giveSlot_thr (s : Dev) (q : QueueId) (slot : SlotId) : (s.giveSlot q slot).thr = s.thr := by
  unfold giveSlot
  grind [!modJournal_thr, !setQueue_thr]
@[simp] theorem Dev.askSlot_thr (s : Dev) (q : QueueId) : (s.askSlot q).thr = s.thr := by
  unfold askSlot
  grind [!modJournal_thr, !modQueue_thr, !giveSlot_thr]
@[simp] theorem Dev.freeSlot_thr (s : Dev) (slot : SlotId) : (s.freeSlot slot).thr = s.thr := by simp [freeSlot]
@[simp] theorem Dev.dropHead_thr (s : Dev) (q : QueueId) : (s.dropHead q).thr = s.thr := by
  unfold dropHead
  grind [!setQueue_thr, !freeSlot_thr]
@[simp] theorem Dev.settle_thr (s : Dev) (q : QueueId) : (s.settle q).thr = s.thr := by simp [settle, ite_thr]
@[simp] theorem Dev.cease_thr (s : Dev) (q : QueueId) (reason : Nat) (failing : Bool) :
    (s.cease q reason failing).thr = s.thr := by simp [cease, ite_thr]
@[simp] theorem Dev.dropTranslations_thr (s : Dev) (p : TcEntry → Bool) :
    (s.dropTranslations p).thr = s.thr := by simp [dropTranslations, foldl_thr, ite_thr]
@[simp] theorem Dev.unbind_thr (s : Dev) (asid region : Nat) : (s.unbind asid region).thr = s.thr := by simp [unbind, ite_thr]
@[simp] theorem Dev.unbindBuffer_thr (s : Dev) (q : QueueId) (b : Buffer) : (s.unbindBuffer q b).thr = s.thr := by simp [unbindBuffer]
@[simp] theorem Dev.setHead_thr (s : Dev) (q : QueueId) (head : Nat) : (s.setHead q head).thr = s.thr := by simp [setHead]
@[simp] theorem Dev.finishBuffer_thr (s : Dev) (q : QueueId) : (s.finishBuffer q).thr = s.thr := by
  unfold finishBuffer
  split <;> simp
@[simp] theorem Dev.nextBuffer_thr (s : Dev) (q : QueueId) : (s.nextBuffer q).thr = s.thr := by simp [nextBuffer]
@[simp] theorem Dev.moveHead_thr (s : Dev) (q : QueueId) (head : Nat) : (s.moveHead q head).thr = s.thr := by simp [moveHead, ite_thr]
@[simp] theorem Dev.issueAs_thr (s : Dev) (q : QueueId) (o : Operation) : (s.issueAs q o).thr = s.thr := by simp [issueAs, ite_thr]
@[simp] theorem Dev.refuseHead_thr (s : Dev) (q : QueueId) (reason : Nat) : (s.refuseHead q reason).thr = s.thr := by
  unfold refuseHead
  grind [!setQueue_thr, !askSlot_thr, !issueAs_thr]
@[simp] theorem Dev.bind_thr (s : Dev) (asid region base pages : Nat) : (s.bind asid region base pages).thr = s.thr := by simp [bind, ite_thr]
@[simp] theorem Dev.regionOf_thr (s : Dev) (p : Port) (region : Nat) : (s.regionOf p region).1.thr = s.thr := by
  unfold regionOf
  (repeat' split) <;> simp [Fetch.andThen_thr]
@[simp] theorem Dev.beginOp_thr (s : Dev) (slot : SlotId) (f : Operation → Operation) : (s.beginOp slot f).thr = s.thr := by simp [beginOp, ite_thr]
@[simp] theorem Dev.abortUnbegun_thr (s : Dev) (q : QueueId) (reason : Nat) : (s.abortUnbegun q reason).thr = s.thr := by simp [abortUnbegun]
@[simp] theorem Dev.complete_thr (s : Dev) (r : CompRecord) : (s.complete r).thr = s.thr := by simp [complete]
@[simp] theorem Dev.endOperation_thr (s : Dev) (o : Operation) (status reason : Nat) :
    (s.endOperation o status reason).thr = s.thr := by simp [endOperation, ite_thr]
@[simp] theorem Dev.readEach_thr (s : Dev) (lead : Port) (others : List Port) (va n : Nat) : (s.readEach lead others va n).1.thr = s.thr := by
  refine Named.andThen_thr_of (by simp) fun t d ht => ?_
  rw [foldl_fst_thr _ (fun r p => ?_), ht]
  exact Named.andThen_thr _ _ fun s d => by simp [Named.andThen_thr]
@[simp] theorem Dev.optTensor_thr (s : Dev) (p : Port) (h : Nat) :
    (s.optTensor p h).1.thr = s.thr := by simp [optTensor, Named.andThen_thr, ite_thr, ite_fst]
@[simp] theorem Dev.optBytes_thr (s : Dev) (p : Port) (h : Nat) :
    (s.optBytes p h).1.thr = s.thr := by simp [optBytes, Named.andThen_thr, ite_thr, ite_fst]
@[simp] theorem Dev.optLut_thr (s : Dev) (p : Port) (others : List Port) (h : Nat) :
    (s.optLut p others h).1.thr = s.thr := by simp [optLut, Named.andThen_thr, ite_thr, ite_fst]
@[simp] theorem Dev.applyCfg_thr (s : Dev) (p : Port) (handle : Nat) (u : CfgUse) : (s.applyCfg p handle u).1.thr = s.thr := by
  refine Named.andThen_thr_of (by simp) fun s b hs => ite_thr_of hs ?_
  refine Named.andThen_thr_of (by simp [hs]) fun s d hs => ite_thr_of hs ?_
  cases Fmt.ofCode (bits (fieldAt d 0 64) 23 20) with
  | none => exact hs
  | some sf =>
  refine ite_thr_of hs (ite_thr_of hs ?_)
  refine Named.andThen_thr_of (by simp [hs]) fun s c0 hs => ?_
  refine Named.andThen_thr_of (by simp [hs]) fun s c1 hs => ?_
  refine Named.andThen_thr_of (by simp [hs]) fun s r0 hs => ?_
  refine Named.andThen_thr_of (by simp [hs]) fun s sec hs => ?_
  refine Named.andThen_thr_of (by simp [hs]) fun s l0 hs => ?_
  refine Named.andThen_thr_of (by simp [hs]) fun s l1 hs => ?_
  refine Named.andThen_thr_of (by simp [hs]) fun s si hs => ?_
  exact Named.andThen_thr_of (by simp [hs]) fun s so hs => ite_thr_of hs hs
@[simp] theorem Dev.recordsFinal_thr (s : Dev) (p : Port) (b : ByteBuf) (n : Nat) : (s.recordsFinal p b n).1.thr = s.thr := by
  induction n generalizing s with
  | zero => rfl
  | succ n ih => simp [recordsFinal, Fetch.andThen_thr, ite_fst, ite_thr, ih]
@[simp] theorem Dev.recordVals_thr (s : Dev) (p : Port) (b : ByteBuf) (row : Nat) :
    (s.recordVals p b row).1.thr = s.thr := by simp [recordVals, Fetch.andThen_thr]
@[simp] theorem Dev.recordList_thr (s : Dev) (p : Port) (b : ByteBuf) (rs : List Nat) : (s.recordList p b rs).1.thr = s.thr := by
  induction rs generalizing s with
  | nil => rfl
  | cons r rs ih => simp [recordList, Fetch.andThen_thr, ih]
@[simp] theorem Dev.vecVals_thr (s : Dev) (p : Port) (t : Option Tensor) (need : Bool) (key : Nat) (cs : List (List Nat)) :
    (s.vecVals p t need key cs).1.thr = s.thr := by
  unfold vecVals
  split <;> simp [Fetch.andThen_thr, ite_thr, ite_fst]
@[simp] theorem Dev.chainEnv_thr (s : Dev) (p : Port) (c : CfgBlock) (k0 nk : Nat) (rows : List Nat) (coord : Nat → Nat → List Nat) :
    (s.chainEnv p c k0 nk rows coord).1.thr = s.thr := by
  refine Fetch.andThen_thr_of (by simp) fun s a hs => ?_
  refine Fetch.andThen_thr_of (by simp [hs]) fun s b hs => ?_
  refine Fetch.andThen_thr_of (by simp [hs]) fun s r hs => ?_
  refine Fetch.andThen_thr_of (by simp [hs]) fun s x hs => ?_
  refine Fetch.andThen_thr_of ?_ fun s rv hs => hs
  cases c.statsIn with
  | none => exact hs
  | some b => simp [ite_fst, ite_thr, hs]
@[simp] theorem Dev.normsReady_thr (s : Dev) (p : Port) (c : Option CfgBlock) (rows : Nat) : (s.normsReady p c rows).1.thr = s.thr := by
  unfold normsReady
  (repeat' split) <;> simp [Named.andThen_thr, ite_fst]
@[simp] theorem Dev.optCfg_thr (s : Dev) (p : Port) (h : Nat) (u : CfgUse) :
    (s.optCfg p h u).1.thr = s.thr := by simp [optCfg, Named.andThen_thr, ite_thr, ite_fst]
@[simp] theorem Dev.beginMatmul_thr (s : Dev) (p : Port) (part : Bool) (h mills : List Nat) : (s.beginMatmul p part h mills).1.thr = s.thr := by
  refine Named.andThen_thr_of (by simp) fun s pr hs => ?_
  refine Named.andThen_thr_of (by simp [hs]) fun s a hs => ?_
  refine Named.andThen_thr_of (by simp [hs]) fun s b hs => ?_
  refine Named.andThen_thr_of (by simp [hs]) fun s d hs => ?_
  cases opClass a.fmt b.fmt with
  | none => exact hs
  | some cls =>
  refine ite_thr_of ?_ hs
  refine Named.andThen_thr_of (by simp [hs]) fun s si hs => ?_
  refine Named.andThen_thr_of (by simp [hs]) fun s pro hs => ?_
  refine Named.andThen_thr_of (by simp [hs]) fun s epi hs => ite_thr_of hs ?_
  refine Named.andThen_thr_of (by simp [hs]) fun s _ hs => ?_
  exact Named.andThen_thr_of (by simp [hs]) fun s _ hs => hs
@[simp] theorem Dev.beginCombine_thr (s : Dev) (p : Port) (h mills : List Nat) : (s.beginCombine p h mills).1.thr = s.thr := by
  refine Named.andThen_thr_of (by simp) fun s epiH hs => ?_
  refine Named.andThen_thr_of (by simp [hs]) fun s a hs => ?_
  refine Named.andThen_thr_of (by simp [hs]) fun s d hs => ite_thr_of ?_ hs
  refine Named.andThen_thr_of (by simp [hs]) fun s epi hs => ite_thr_of hs ?_
  exact Named.andThen_thr_of (by simp [hs]) fun s _ hs => hs
@[simp] theorem Dev.beginChain_thr (s : Dev) (p : Port) (h mills : List Nat) : (s.beginChain p h mills).1.thr = s.thr := by
  refine Named.andThen_thr_of (by simp) fun s cfg hs => ?_
  refine Named.andThen_thr_of (by simp [hs]) fun s a hs => ?_
  refine Named.andThen_thr_of (by simp [hs]) fun s d hs => ite_thr_of hs ?_
  refine Named.andThen_thr_of (by simp [hs]) fun s c hs => ite_thr_of hs ?_
  exact Named.andThen_thr_of (by simp [hs]) fun s _ hs => hs
@[simp] theorem Dev.beginAttend_thr (s : Dev) (p : Port) (h mills : List Nat) : (s.beginAttend p h mills).1.thr = s.thr := by
  refine Named.andThen_thr_of (by simp) fun s pr hs => ?_
  refine Named.andThen_thr_of (by simp [hs]) fun s q hs => ?_
  refine Named.andThen_thr_of (by simp [hs]) fun s k hs => ?_
  refine Named.andThen_thr_of (by simp [hs]) fun s v hs => ?_
  refine Named.andThen_thr_of (by simp [hs]) fun s o hs => ?_
  exact Named.andThen_thr_of (by simp [hs]) fun s lse hs => ite_thr_of hs hs
@[simp] theorem Dev.readMillOp_thr (s : Dev) (p : Port) (opcode : Nat) (h mills : List Nat) : (s.readMillOp p opcode h mills).1.thr = s.thr := by
  unfold readMillOp
  split <;> simp
@[simp] theorem Dev.acceptOp_thr (s : Dev) (m : MillId) : (s.acceptOp m).thr = s.thr := by
  unfold acceptOp
  grind [!modMill_thr]
@[simp] theorem Dev.openFills_thr (s : Dev) (m : MillId) (n : Nat) : (s.openFills m n).thr = s.thr := by
  induction n generalizing s with
  | zero => rfl
  | succ n ih =>
    simp only [openFills]
    split
    · split
      · rfl
      · split
        · rfl
        · simp [ih]
    · rfl
@[simp] theorem Dev.takeTile_thr (s : Dev) (o : Operation) (x : MillOp) (group : List Nat) : (s.takeTile o x group).thr = s.thr := by
  simp only [takeTile]
  split
  · rw [foldl_thr _ fun s g => ?_, modOp_thr]
    split
    · rfl
    · simp [ite_thr]
  · rfl
@[simp] theorem Dev.takeTiles_thr (s : Dev) (slot : SlotId) : (s.takeTiles slot).thr = s.thr := by
  unfold takeTiles
  split
  · refine foldl_thr _ (fun s g => ?_) _ _
    split
    · split <;> simp
    · rfl
  · rfl
@[simp] theorem Dev.feed_thr (s : Dev) (die : Nat) : (s.feed die).thr = s.thr := by
  unfold feed
  rw [foldl_thr _ fun s o => takeTiles_thr .., foldl_thr _ fun s i => ?_]
  split <;> simp
@[simp] theorem Dev.intake_thr (s : Dev) (m : MillId) (n : Nat) : (s.intake m n).thr = s.thr := by
  induction n generalizing s with
  | zero => rfl
  | succ n ih =>
    simp only [intake]
    cases (s.mill m).total with
    | none =>
      cases (s.mill m).curd with
      | nil => rfl
      | cons e rest =>
        refine ite_dev_thr_of ?_ rfl
        split <;> simp [ih]
    | some t =>
      refine ite_dev_thr_of rfl ?_
      split
      · split
        · rfl
        · split
          · simp [ite_thr, ih]
          · rfl
      · rfl
@[simp] theorem Dev.intakeDie_thr (s : Dev) (die : Nat) : (s.intakeDie die).thr = s.thr := by
  refine foldl_thr _ (fun s i => ?_) _ _
  split <;> simp
@[simp] theorem Dev.countPartial_thr (s : Dev) (m : MillId) (gone : TileJob → Bool) : (s.countPartial m gone).thr = s.thr := by
  refine foldl_thr _ (fun s f => ?_) _ _
  split
  · exact foldl_thr _ (fun s e => by simp [ite_thr]) _ _
  · rfl
@[simp] theorem Dev.abandon_thr (s : Dev) (j : TileJob) : (s.abandon j).thr = s.thr := by
  have hgroup (l : List Nat) (f : Mill → Mill) (g : MillId → Nat → Bool) (here : TileJob → Bool) : (l.foldl (fun s n => match millId n with
      | none => s
      | some m => ((s.countPartial m here).modMill m f).forgetReads j.slot (g m)) s).thr = s.thr := by
    refine foldl_thr _ (fun s n => ?_) _ _
    split <;> simp
  unfold abandon
  cases j.group.head?.bind millId with
  | none => exact hgroup ..
  | some m => exact (intakeDie_thr ..).trans (hgroup ..)
@[simp] theorem Dev.discardMills_thr (s : Dev) (slot : SlotId) : (s.discardMills slot).thr = s.thr := by
  have hcount (l : List Nat) (gone : TileJob → Bool) :
      (l.foldl (fun (s : Dev) n => (millId n).elim s fun m => s.countPartial m gone) s).thr = s.thr := by
    refine foldl_thr _ (fun s n => ?_) _ _
    cases millId n <;> simp
  unfold discardMills
  split
  · rfl
  · dsimp only
    split
    · exact (intakeDie_thr ..).trans (hcount ..)
    · exact hcount ..
@[simp] theorem Dev.failOp_thr (s : Dev) (slot : SlotId) (reason va : Nat) : (s.failOp slot reason va).thr = s.thr := by simp [failOp]
@[simp] theorem Dev.readBlock_thr (s : Dev) (p ps : Port) (t : Tensor) (operand cols : Nat) (coords : List (List (List Nat))) :
    (s.readBlock p ps t operand cols coords).1.thr = s.thr := by simp [readBlock, Fetch.andThen_thr]
@[simp] theorem Dev.proBlock_thr (s : Dev) (p : Port) (x : MillOp) (on : Bool) (t : Tensor) (operand r0 extent k0 nk batchIdx : Nat) (coords : List (List (List Nat))) (v : List (List Val) × List Nat) :
    (s.proBlock p x on t operand r0 extent k0 nk batchIdx coords v).1.thr = s.thr := by
  unfold proBlock
  split <;> simp [Fetch.andThen_thr]
@[simp] theorem Dev.fetchLines_thr (s : Dev) (p : Port) (f : Nat) (ls : List Nat) (held : Table (List Byte)) (n : Nat) :
    (s.fetchLines p f ls held n).1.thr = s.thr := by
  induction ls generalizing s held n with
  | nil => rfl
  | cons l ls ih => unfold fetchLines; grind [!readVa_thr]
@[simp] theorem Dev.fetchDone_thr (s : Dev) (x : MillOp) (m : MillId) (i : Nat) (f : Filling) (isB : Bool) (lines : Table (List Byte)) :
    (s.fetchDone x m i f isB lines).thr = s.thr := by simp [fetchDone, foldl_thr, ite_thr]
@[simp] theorem Dev.fetchSide_thr (s : Dev) (o : Operation) (x : MillOp) (m : MillId) (i : Nat) (isB : Bool) (n : Nat) :
    (s.fetchSide o x m i isB n).1.thr = s.thr := by
  unfold fetchSide
  split <;> simp [Fetch.andThen_thr, ite_thr, ite_fst]
@[simp] theorem Dev.fetchSlots_thr (s : Dev) (o : Operation) (x : MillOp) (m : MillId) (k n : Nat) : (s.fetchSlots o x m k n).1.thr = s.thr := by
  induction k generalizing n with
  | zero => rfl
  | succ k ih => simp [fetchSlots, Fetch.andThen_thr, ih]
@[simp] theorem Dev.slotOf_thr (s : Dev) (o : Operation) (x : MillOp) (m : MillId) (f : Filling) : (s.slotOf o x m f).1.thr = s.thr := by
  unfold slotOf
  split <;> simp [Fetch.andThen_thr, ite_thr, ite_fst]
@[simp] theorem Dev.handSlots_thr (s : Dev) (o : Operation) (x : MillOp) (m : MillId) (n : Nat) : (s.handSlots o x m n).1.thr = s.thr := by
  induction n generalizing s with
  | zero => rfl
  | succ n ih => unfold handSlots; grind [!slotOf_thr, !modMill_thr, !forgetReads_thr]
@[simp] theorem Dev.fillSlot_thr (s : Dev) (m : MillId) : (s.fillSlot m).thr = s.thr := by
  have hfetch (o : Operation) (x : MillOp) (n : Nat) :
      (Fetch.andThen ((s.openFills m 8).fetchSlots o x m n 0) fun s _ => s.handSlots o x m 8).1.thr = s.thr := by simp [Fetch.andThen_thr]
  simp only [fillSlot]
  split
  · rfl
  split
  · split
    · split
      all_goals next heq => simp [fst_thr (hfetch ..) heq]
    · rfl
  · rfl
@[simp] theorem Dev.moveCurd_thr (s : Dev) (m : MillId) : (s.moveCurd m).thr = s.thr := by
  unfold moveCurd
  grind [!intakeDie_thr, !modMill_thr, !feed_thr]
@[simp] theorem Dev.peekSplit_thr (s : Dev) (o : Operation) (p : Port) : (s.peekSplit o p).1.thr = s.thr := by
  unfold peekSplit
  grind [!readDesc_thr]
@[simp] theorem Dev.readBegun_thr (s : Dev) (o : Operation) (lead : MillId) : (s.readBegun o lead).thr = s.thr := by
  unfold readBegun
  grind [!readMillOp_thr, !failOp_thr, !modOp_thr, !feed_thr]
@[simp] theorem Dev.beginMill_thr (s : Dev) (o : Operation) : (s.beginMill o).thr = s.thr := by
  unfold beginMill
  grind [!peekSplit_thr, !readBegun_thr, !beginOp_thr, !bind_thr]
@[simp] theorem Dev.tileOut_thr (s : Dev) (p : Port) (x : MillOp) (j : TileJob) (t : TileIn) : (s.tileOut p x j t).1.thr = s.thr := by
  unfold tileOut
  split <;> simp [Fetch.andThen_thr]
@[simp] theorem Dev.tileInput_thr (s : Dev) (o : Operation) (x : MillOp) (m : MillId) (j : TileJob) : (s.tileInput o x m j).1.thr = s.thr := by
  simp only [tileInput]
  split
  · rw [foldl_fst_thr _ fun r sl => ?_]
    exact Fetch.andThen_thr _ _ fun s t => by simp [Fetch.andThen_thr]
  · simp [Fetch.andThen_thr]
@[simp] theorem Dev.writeTile_thr (s : Dev) (o : Operation) (x : MillOp) (m : MillId) (j : TileJob) (t : TileIn) (done : Mill → Mill) :
    (s.writeTile o x m j t done).thr = s.thr := by
  unfold writeTile
  grind [!forgetReads_thr, !writeUnit_thr, !intakeDie_thr, !modMill_thr, !abandon_thr, !tileOut_thr, !failOp_thr, !modOp_thr, !bump_thr, !bind_thr, !feed_thr]
@[simp] theorem Dev.tileWritten_thr (s : Dev) (m : MillId) : (s.tileWritten m).thr = s.thr := by
  simp only [tileWritten]
  split
  · split
    · rfl
    · split
      · split <;> simp
      · rfl
  · split
    · rfl
    · split
      · split
        · split
          all_goals next heq => simp [fst_thr (tileInput_thr ..) heq]
        · rfl
      · rfl
@[simp] theorem Dev.unpin_thr (s : Dev) (m : MillId) : (s.unpin m).thr = s.thr := by
  unfold unpin
  split <;> simp
@[simp] theorem Dev.pinLine_thr (s : Dev) (a : Agent) (m : MillId) (hint : Nat) (t : LineTag) : (s.pinLine a m hint t).1.thr = s.thr := by
  unfold pinLine
  grind [!readyLine_thr, !modAgent_thr, → ownWrite_thr, !evbWait_thr]
@[simp] theorem Dev.pinLines_thr (s : Dev) (a : Agent) (m : MillId) (hint : Nat) (ts : List LineTag) : (s.pinLines a m hint ts).1.thr = s.thr := by
  induction ts generalizing s with
  | nil => rfl
  | cons t ts ih => unfold pinLines; grind [!pinLine_thr]
@[simp] theorem Dev.holdRecordOf_thr (s : Dev) (p : Port) (m : MillId) (addr hint : Nat) : (s.holdRecordOf p m addr hint).1.thr = s.thr := by
  refine Fetch.andThen_thr_of (by simp) fun s ps hs => ?_
  grind [!reportRealm_thr, !pinLines_thr, !countHits_thr]
@[simp] theorem Dev.performAdd_thr (s : Dev) (m : MillId) : (s.performAdd m).thr = s.thr := by
  simp only [performAdd]
  split
  · rfl
  split
  · simp
  · split
    · next heq => exact fst_thr (holdRecordOf_thr ..) heq
    · next heq => simp [fst_thr (holdRecordOf_thr ..) heq]
    · next heq =>
      have ht := fst_thr (holdRecordOf_thr ..) heq
      split
      · simp [ht]
      · next hw =>
        rw [modMill_thr]
        split <;> simp [writePieces_thr hw, ht]
@[simp] theorem Dev.millStep_thr (s : Dev) (m : MillId) (throttled : Bool) : (s.millStep m throttled).thr = s.thr := by simp [millStep, ite_thr]
@[simp] theorem Dev.readLaunch_thr (s : Dev) (o : Operation) : (s.readLaunch o).1.thr = s.thr := by
  simp only [readLaunch]
  split
  · rfl
  refine Named.andThen_thr_of (by simp) fun s code hs => ?_
  refine Named.andThen_thr_of (by simp [hs]) fun s pr hs => ?_
  refine Named.andThen_thr_of (by simp [hs]) fun s b2 hs => ?_
  refine Named.andThen_thr_of (by simp [hs]) fun s b3 hs => ite_thr_of hs ?_
  refine Named.andThen_thr_of (by simp [hs]) fun s r hs => ?_
  split
  · exact hs
  · exact ite_thr_of ((bind_thr ..).trans hs) hs
@[simp] theorem Dev.beginLaunch_thr (s : Dev) (o : Operation) : (s.beginLaunch o).thr = s.thr := by
  unfold beginLaunch
  grind [!readLaunch_thr, !failOp_thr, !modOp_thr]
@[simp] theorem Dev.startStook_thr (s : Dev) (slot : SlotId) : (s.startStook slot).thr = s.thr := by
  unfold startStook
  grind [!modOp_thr]
@[simp] theorem Dev.dropStook_thr (s : Dev) (id : Nat) : (s.dropStook id).thr = s.thr := by simp [dropStook]
@[simp] theorem Dev.faultStook_thr (s : Dev) (st : Stook) (reason va : Nat) : (s.faultStook st reason va).thr = s.thr := by simp [faultStook]
@[simp] theorem Dev.exitStook_thr (s : Dev) (id : Nat) : (s.exitStook id).thr = s.thr := by
  unfold exitStook
  split <;> simp [ite_thr]
@[simp] theorem Dev.goTo_thr (s : Dev) (x : Issue) (ts : List (Nat × Int)) : (s.goTo x ts).thr = s.thr := by
  unfold goTo
  (repeat' split) <;> simp
@[simp] theorem Dev.codeWord_thr (s : Dev) (p : Port) (proc va : Nat) : (s.codeWord p proc va).1.thr = s.thr := by
  simp only [codeWord]
  split
  · rfl
  · exact Fetch.andThen_thr_of (by simp) fun s d hs => hs
@[simp] theorem Dev.countStep_thr (s : Dev) (proc : ProcId) (quarter : Nat) : (s.countStep proc quarter).thr = s.thr := by simp [countStep]
@[simp] theorem Dev.countWait_thr (s : Dev) (proc : ProcId) (quarter : Nat) : (s.countWait proc quarter).thr = s.thr := by simp [countWait]
theorem Dev.sheafIssue_thr (s : Dev) (g : SheafRef) (opcode : Nat) (ok : Dev → Issue → Bool) (f : Dev → Issue → Dev)
    (hf : ∀ s x, (f s x).thr = s.thr) : (s.sheafIssue g opcode ok f).thr = s.thr := by
  simp only [sheafIssue]
  split
  · rfl
  split
  · split
    · simp
    · split
      all_goals next heq => simp [ite_thr, hf, fst_thr (codeWord_thr ..) heq]
  · rfl
theorem Dev.sheafStep_thr (s : Dev) (g : SheafRef) (opcode : Nat) (f : Dev → Issue → Dev) (hf : ∀ s x, (f s x).thr = s.thr) :
    (s.sheafStep g opcode f).thr = s.thr := sheafIssue_thr _ _ _ _ _ fun s x => by simp [hf]
@[simp] theorem Dev.writeLanes_thr (s : Dev) (x : Issue) (n : Nat) (f : Nat → Nat) : (s.writeLanes x n f).thr = s.thr := by simp [writeLanes]
@[simp] theorem Dev.writePreds_thr (s : Dev) (x : Issue) (f : Nat → Bool) : (s.writePreds x f).thr = s.thr := by simp [writePreds]
@[simp] theorem Dev.writeUniform_thr (s : Dev) (x : Issue) (n v : Nat) : (s.writeUniform x n v).thr = s.thr := by simp [writeUniform, ite_thr]
@[simp] theorem Dev.setWait_thr (s : Dev) (id k : Nat) (lanes : List Nat) (w : StalkWait) : (s.setWait id k lanes w).thr = s.thr := by simp [setWait]
@[simp] theorem Dev.barrierFail_thr (s : Dev) (st : Stook) (pc : Nat) (isSync : Bool) (deadline : U64) (missing : Nat) :
    (s.barrierFail st pc isSync deadline missing).thr = s.thr := by
  unfold barrierFail
  split <;> simp
@[simp] theorem Dev.generationFail_thr (s : Dev) (st : Stook) : (s.generationFail st).thr = s.thr := by
  unfold generationFail
  split <;> simp
@[simp] theorem Dev.barrierCheck_thr (s : Dev) (id : Nat) : (s.barrierCheck id).thr = s.thr := by
  unfold barrierCheck
  (repeat' split) <;> simp
theorem Dev.syncFail_thr {s u : Dev} {id k : Nat} (h : s.syncFail id k = some u) : u.thr = s.thr := by
  unfold syncFail at h
  split at h
  · cases h
  · split at h
    · obtain ⟨_, _, rfl⟩ := Option.map_eq_some_iff.mp h
      simp
    · cases h
@[simp] theorem Dev.syncCheck_thr (s : Dev) (id k : Nat) : (s.syncCheck id k).thr = s.thr := by
  unfold syncCheck
  cases h : s.syncFail id k with
  | none => simp
  | some u => exact syncFail_thr h
theorem Dev.inTime_thr (s : Dev) (x : Issue) (f : Dev → Dev) (hf : ∀ s, (f s).thr = s.thr) : (s.inTime x f).thr = s.thr := by
  unfold inTime
  split
  · rfl
  · next st _ =>
    split
    · simp
    · cases h : s.syncFail st.id x.k with
      | none => exact hf s
      | some u => exact syncFail_thr h
@[simp] theorem Dev.failTaken_thr (s : Dev) (m : MillId) (slot : SlotId) (reason va : Nat) :
    (s.failTaken m slot reason va).thr = s.thr := by simp [failTaken]
@[simp] theorem Dev.failThresher_thr (s : Dev) (m : MillId) (w : WaitingStream) (reason : Nat) : (s.failThresher m w reason).thr = s.thr := by
  unfold failThresher
  grind [!failTaken_thr, !abandon_thr, !failOp_thr, !feed_thr]
@[simp] theorem Dev.failChain_thr (s : Dev) (m : MillId) (w : WaitingStream) (reason : Nat) : (s.failChain m w reason).thr = s.thr := by
  simp only [failChain]
  split
  · simp
  · simp
  · simp
  · cases (((s.mill m).adds ++ (s.mill m).rows).filter fun r => s.waitedFor w r.slot).head? <;> simp
@[simp] theorem Dev.failBegin_thr (s : Dev) (o : Operation) (reason va : Nat) : (s.failBegin o reason va).thr = s.thr := by simp [failBegin]
@[simp] theorem Dev.failReading_thr (s : Dev) (w : WaitingStream) (reason : Nat) : (s.failReading w reason).thr = s.thr := by
  refine foldl_thr _ (fun s k => ?_) _ _
  split
  · simp [ite_thr]
  · rfl
@[simp] theorem Dev.failQueue_thr (s : Dev) (vpn reason : Nat) (w : WaitingStream) (fetch : Bool) : (s.failQueue vpn reason w fetch).thr = s.thr := by
  simp only [failQueue]
  split
  · split
    · split
      · simp
      · split <;> simp
    · rw [foldl_thr _ fun s k => ?_, ite_thr, cease_thr, ite_self]
      split
      · simp [ite_thr]
      · rfl
  · rfl
@[simp] theorem Dev.failStream_thr (s : Dev) (die : Die) (asid vpn : Nat) (w : WaitingStream) (reason : Nat) :
    (s.failStream die asid vpn w reason).thr = s.thr := by
  unfold failStream
  (repeat' split) <;> simp [foldl_thr]
@[simp] theorem Dev.dropMiss_thr (s : Dev) (die : Die) (asid vpn : Nat) (gone : WaitingStream → Bool) :
    (s.dropMiss die asid vpn gone).thr = s.thr := by simp [dropMiss]
@[simp] theorem Dev.failStreams_thr (s : Dev) (die : Die) (asid vpn : Nat) (ws : List WaitingStream) (reason : Rights → Nat) :
    (s.failStreams die asid vpn ws reason).thr = s.thr := by simp [failStreams, foldl_thr]
@[simp] theorem Dev.pageRequest_thr (s : Dev) (die : Die) (asid vpn va leaf : Nat) (st : WalkStatus) (ws : List WaitingStream) (own : Bool)
    (since : Option U64) : (s.pageRequest die asid vpn va leaf st ws own since).thr = s.thr := by
  have hwrite (m : MmuId) (l : List FaultRecord) (t : Dev) : (l.foldl (fun s r => s.writeRecord m r) t).thr = t.thr :=
    foldl_thr _ (fun s r => writeRecord_thr ..) _ _
  refine ite_dev_thr_of (by simp [ite_thr]) ?_
  cases freePrSlot (s.mmu (mmuOf die)) 1024 0 with
  | none => simp [ite_thr]
  | some i => exact ite_dev_thr_of (by simp [ite_thr]) ((hwrite ..).trans (by simp [ite_thr]))
@[simp] theorem Dev.requestAgain_thr (s : Dev) (e : MissEntry) : (s.requestAgain e).thr = s.thr := by simp [requestAgain, ite_thr]
@[simp] theorem Dev.drainPr_thr (s : Dev) (m : MmuId) (n : Nat) : (s.drainPr m n).thr = s.thr := by
  induction n generalizing s with
  | zero => rfl
  | succ n ih => unfold drainPr; grind [!requestAgain_thr, !modMmu_thr]
@[simp] theorem Dev.drainQueue_thr (s : Dev) (m : MmuId) (n : Nat) : (s.drainQueue m n).thr = s.thr := by
  induction n generalizing s with
  | zero => rfl
  | succ n ih => unfold drainQueue; grind [!requestAgain_thr, !modMmu_thr, !writeRecord_thr]
@[simp] theorem Dev.queueOff_thr (s : Dev) (m : MmuId) : (s.queueOff m).thr = s.thr := by simp [queueOff, foldl_thr, ite_thr]
@[simp] theorem Dev.forgetOp_thr (s : Dev) (slot : SlotId) : (s.forgetOp slot).thr = s.thr := by simp [forgetOp, foldl_thr]
@[simp] theorem Dev.forgetEntries_thr (s : Dev) (o : Operation) : (s.forgetEntries o).thr = s.thr := by
  unfold forgetEntries
  split <;> simp
@[simp] theorem Dev.blockPf_thr (s : Dev) (die : Die) (vpn stream : Nat) : (s.blockPf die vpn stream).thr = s.thr := by
  unfold blockPf
  grind [!modMill_thr, !bump_thr]
@[simp] theorem Dev.walkComplete_thr (s : Dev) (die : Die) (asid vpn : Nat) : (s.walkComplete die asid vpn).thr = s.thr := by
  have hblock (t : Dev) (l : List Nat) : (l.foldl (fun s f => s.blockPf die vpn f) t).thr = t.thr := foldl_thr _ (fun s f => blockPf_thr ..) _ _
  unfold walkComplete
  grind [!walk_thr, !dropMiss_thr, !failStreams_thr, !answerMisses_thr, !modXl_thr, !pageRequest_thr]
@[simp] theorem Dev.freePr_thr (s : Dev) (m : MmuId) (i : Nat) (x : PrSlot) : (s.freePr m i x).thr = s.thr := by simp [freePr]
@[simp] theorem Dev.prResolved_thr (s : Dev) (m : MmuId) (i : Nat) (x : PrSlot) : (s.prResolved m i x).thr = s.thr := by
  simp only [prResolved]
  rw [drainPr_thr]
  split
  · next heq => simp [fst_thr (walk_thr ..) heq]
  · next heq =>
    have ht := fst_thr (walk_thr ..) heq
    split
    · simp [ht]
    · split
      · simp [ht]
      · simp [foldl_thr, ht]
@[simp] theorem Dev.prFailed_thr (s : Dev) (m : MmuId) (i : Nat) (x : PrSlot) : (s.prFailed m i x).thr = s.thr := by simp [prFailed]
@[simp] theorem Dev.prIgnored_thr (s : Dev) (m : MmuId) : (s.prIgnored m).thr = s.thr := by simp [prIgnored]
@[simp] theorem Dev.prRespStore_thr (s : Dev) (m : MmuId) (v : U64) : (s.prRespStore m v).thr = s.thr := by
  unfold prRespStore
  grind [!prResolved_thr, !prIgnored_thr, !prFailed_thr]
@[simp] theorem Dev.cqError_thr (s : Dev) (m : MmuId) (i : Nat) : (s.cqError m i).thr = s.thr := by simp [cqError]
@[simp] theorem Dev.cqTake_thr (s : Dev) (m : MmuId) : (s.cqTake m).thr = s.thr := by simp [cqTake, ite_thr]
@[simp] theorem Dev.cqNext_thr (s : Dev) (m : MmuId) : (s.cqNext m).thr = s.thr := by simp [cqNext, ite_thr]
@[simp] theorem Dev.invalidate_thr (s : Dev) (m : MmuId) (which : TcEntry → Bool) : (s.invalidate m which).thr = s.thr := by simp [invalidate]
@[simp] theorem Dev.publishRate_thr (s : Dev) (stop len : Nat) (c : StepCount) :
    (s.publishRate stop len c).thr = s.thr := by simp [publishRate, ite_thr]
@[simp] theorem Dev.countQuarter_thr (s : Dev) (p : ProcId) (n : Nat) (q : Nat) :
    (s.countQuarter p n q).thr = s.thr := by simp [countQuarter, ite_thr]
@[simp] theorem Dev.countWithheld_thr (s : Dev) (c : StepCount) : (s.countWithheld c).thr = s.thr := by simp [countWithheld, foldl_thr, ite_thr]
@[simp] theorem Dev.writeStepWindow_thr (s : Dev) (v : Nat) : (s.writeStepWindow v).1.thr = s.thr := by simp [writeStepWindow, ite_thr, ite_fst]
@[simp] theorem Dev.readBits_thr (s : Dev) (p : Port) (x : Image) (a z : Nat) :
    (s.readBits p x a z).1.thr = s.thr := by simp [readBits, Fetch.andThen_thr]
@[simp] theorem Dev.readImage_thr (s : Dev) (p : Port) (x : Image) (lo hi : Nat) :
    (s.readImage p x lo hi).1.thr = s.thr := by simp [readImage, Fetch.andThen_thr]
theorem Dev.writeSegs_thr {s u : Dev} {p : Port} {hint : Nat} {part : List Nat} {gs : List (Nat × Nat)} {ps : List Piece} {v : Nat}
    (h : s.writeSegs p hint part gs ps v = some u) : u.thr = s.thr := by
  induction gs generalizing s ps v with
  | nil => cases h; rfl
  | cons g gs ih => unfold writeSegs at h; grind [→ writePieces_thr]
@[simp] theorem Dev.writeBits_thr (s : Dev) (p : Port) (x : Image) (a z v : Nat) : (s.writeBits p x a z v).1.thr = s.thr := by
  refine Fetch.andThen_thr_of (by simp) fun s ps hs => ?_
  split
  · next t ht => exact (writeSegs_thr ht).trans hs
  · simp [hs]
@[simp] theorem Dev.writeImage_thr (s : Dev) (p : Port) (x : Image) (lo hi v : Nat) : (s.writeImage p x lo hi v).1.thr = s.thr := by simp [writeImage]
@[simp] theorem Dev.namedImage_thr (s : Dev) (p : Port) (handle : Nat) : (s.namedImage p handle).1.thr = s.thr := by
  refine Named.andThen_thr_of (by simp) fun s x hs => ?_
  split
  · simp [Named.andThen_thr, hs]
  · exact hs
@[simp] theorem beginWith_thr (o : Operation) (r : Dev × Named OpBody) : (beginWith o r).thr = r.1.thr := by
  unfold beginWith
  split <;> simp
@[simp] theorem Dev.realmTransfer_thr (s : Dev) (src dst : Port) (from_ dest : Nat × Nat) : (s.realmTransfer src dst from_ dest).1.thr = s.thr := by
  simp only [realmTransfer]
  split
  · rfl
  refine Named.andThen_thr_of (by simp) fun s a hs => ?_
  refine Named.andThen_thr_of (by simp [hs]) fun s b hs => ?_
  split <;> simp [hs]
@[simp] theorem Dev.beginCopy_thr (s : Dev) (o : Operation) : (s.beginCopy o).thr = s.thr := by
  rw [beginCopy, beginWith_thr]
  refine Named.andThen_thr_of (by simp) fun s a hs => ?_
  refine Named.andThen_thr_of (by simp [hs]) fun s b hs => ?_
  split
  · exact hs
  · exact Named.andThen_thr_of (by simp [hs]) fun s _ hs => hs
@[simp] theorem Dev.beginSnapshot_thr (s : Dev) (o : Operation) : (s.beginSnapshot o).thr = s.thr := by
  rw [beginSnapshot, beginWith_thr]
  refine Named.andThen_thr_of (by simp) fun s a hs => ?_
  refine Named.andThen_thr_of (by simp [hs]) fun s b hs => ?_
  split
  · exact hs
  · exact Named.andThen_thr_of (by simp [hs]) fun s _ hs => hs
@[simp] theorem Dev.beginPrefetch_thr (s : Dev) (o : Operation) : (s.beginPrefetch o).thr = s.thr := by
  rw [beginPrefetch, beginWith_thr]
  refine Named.andThen_thr_of (by simp) fun s a hs => ?_
  split <;> exact hs
@[simp] theorem Dev.unitDone_thr (s : Dev) (slot : SlotId) (u : UnitOp) : (s.unitDone slot u).thr = s.thr := by simp [unitDone]
@[simp] theorem Dev.copyUnit_thr (s : Dev) (o : Operation) (u : UnitOp) : (s.copyUnit o u).thr = s.thr := by
  have hcopy (d : Image) (lo hi : Nat) : (Fetch.andThen (s.readImage (s.opStream o 0) u.src lo hi) fun s v =>
      s.writeImage (s.opStream o 1) d lo hi v).1.thr = s.thr := by simp [Fetch.andThen_thr]
  simp only [copyUnit]
  split
  · rfl
  · split
    all_goals next heq => simp [fst_thr (hcopy ..) heq]
@[simp] theorem Dev.snapshotUnit_thr (s : Dev) (o : Operation) (u : UnitOp) : (s.snapshotUnit o u).thr = s.thr := by
  simp only [snapshotUnit]
  split
  · split
    all_goals
      next heq =>
      have hkeep := fst_thr (s := s) (Fetch.andThen_thr_of (ite_thr_of rfl (by simp [Fetch.andThen_thr]))
        fun s u hs => Fetch.andThen_thr_of (by simp [hs]) fun s _ hs => hs) heq
      simp [hkeep]
  · rfl
@[simp] theorem Dev.askSide_thr (s : Dev) (d : Fin 8) (who : Nat) (t : LineTag) (life : Nat) : (s.askSide d who t life).1.thr = s.thr := by
  unfold askSide
  grind [!bump_thr, !takeEntry_thr, !setFlight_thr]
@[simp] theorem Dev.prefetchL3_thr (s : Dev) (t : LineTag) : (s.prefetchL3 t).thr = s.thr := by
  unfold prefetchL3
  grind [!snoopOwner_thr, !takeEpoch_thr, !evbToHome_thr, !homeRead_thr, !l3Put_thr]
@[simp] theorem Dev.prefetchLine_thr (s : Dev) (u : UnitOp) (die : Die) (t : LineTag) : (s.prefetchLine u die t).1.thr = s.thr := by
  unfold prefetchLine
  grind [!demandRead_thr, !prefetchL3_thr, !askSide_thr]
@[simp] theorem Dev.prefetchTag_thr (s : Dev) (p : Port) (u : UnitOp) (va : Nat) : (s.prefetchTag p u va).1.thr = s.thr := by
  have hone (t : Dev) : (Fetch.andThen (t.translateAll p wantRead [(va, 128)]) fun s ps =>
      (s, .ok (ps.head?.map fun x => tagOf x.pa x.realm))).1.thr = t.thr := by simp [Fetch.andThen_thr]
  unfold prefetchTag
  grind [!probePages_thr]
@[simp] theorem Dev.prefetchBlock_thr (s : Dev) (o : Operation) (u : UnitOp) (vas : List Nat) : (s.prefetchBlock o u vas).1.thr = s.thr := by
  induction vas generalizing s u with
  | nil => rfl
  | cons va vas ih => unfold prefetchBlock; grind [!prefetchTag_thr, !modOp_thr, !prefetchLine_thr]
@[simp] theorem Dev.prefetchUnit_thr (s : Dev) (o : Operation) (u : UnitOp) : (s.prefetchUnit o u).thr = s.thr := by
  unfold prefetchUnit
  grind [!prefetchBlock_thr, !unitDone_thr, !failOp_thr, !modOp_thr]
theorem Dev.streamUnit_thr (s : Dev) (slot : SlotId) (opcode : Nat) (f : Dev → Operation → UnitOp → Dev) (hf : ∀ s o u, (f s o u).thr = s.thr) :
    (s.streamUnit slot opcode f).thr = s.thr := by
  unfold streamUnit
  grind
@[simp] theorem Dev.walkNoFault_thr (s : Dev) (p : Port) (va : Nat) : (s.walkNoFault p va).thr = s.thr := by simp [walkNoFault, ite_thr]
@[simp] theorem Dev.serveNext_thr (s : Dev) (die : Die) (code : Nat) : (s.serveNext die code).thr = s.thr := by
  simp only [serveNext]
  split <;> simp [ite_thr]
@[simp] theorem Dev.turnQuantum_thr (s : Dev) (die : Die) (code : Nat) (taken : Nat) : (s.turnQuantum die code taken).thr = s.thr := by
  unfold turnQuantum
  grind [!serveNext_thr]
@[simp] theorem Dev.takeQuantum_thr (s : Dev) (die : Die) (code n : Nat) : (s.takeQuantum die code n).thr = s.thr := by simp [takeQuantum]
@[simp] theorem Dev.serveIdle_thr (s : Dev) (die : Die) (code : Nat) : (s.serveIdle die code).thr = s.thr := by simp [serveIdle, ite_thr]
@[simp] theorem refuseBegin_thr {α : Type} (s : Dev) (reason : Nat) : (refuseBegin s reason : Dev × Named α).1.thr = s.thr := rfl
@[simp] theorem Dev.takeKey_thr (s : Dev) (o : Operation) (b : ByteBuf) : (s.takeKey o b).1.thr = s.thr := by
  refine Named.andThen_thr_of (by simp) fun s d hs => ite_thr_of hs ?_
  cases s.realmSpace (s.channelPort o) with
  | none => exact hs
  | some slot =>
  refine ite_thr_of hs ?_
  cases Table.get none (s.realmAt (bits (leNat d) 13 8)).store (bits (leNat d) 7 0) with
  | none => simp [hs]
  | some e => exact ite_thr_of hs (by simp [hs])
@[simp] theorem Dev.beginWork_thr (s : Dev) (o : Operation) : (s.beginWork o).thr = s.thr := by
  rw [beginWork, beginWith_thr]
  refine Named.andThen_thr_of (by simp) fun s inp hs => ?_
  refine Named.andThen_thr_of (by simp [hs]) fun s out hs => ?_
  refine Named.andThen_thr_of (by simp [hs]) fun s b hs => ?_
  refine Named.andThen_thr_of (by simp [hs]) fun s res hs => ?_
  refine Named.andThen_thr_of (by simp [hs]) fun s mh hs => ?_
  refine Named.andThen_thr_of (by simp [hs]) fun s second hs => ite_thr_of hs ?_
  split
  · exact Named.andThen_thr_of (by simp [hs]) fun s r hs => hs
  · exact hs
@[simp] theorem Dev.performEntry_thr (s : Dev) (o : Operation) (v : ServiceOp) (e : Nat) : (s.performEntry o v e).1.thr = s.thr := by
  refine ite_thr_of rfl (Fetch.andThen_thr_of (by simp) fun s src hs => ?_)
  split
  · exact Fetch.andThen_thr_of (by simp [hs]) fun s aux hs => hs
  · exact hs
  · refine Fetch.andThen_thr_of ?_ fun s dict hs => hs
    split <;> simp [hs]
@[simp] theorem Dev.writeSets_thr (s : Dev) (p : Port) (l : List (ByteBuf × Bool × Nat × List Byte)) : (s.writeSets p l).1.thr = s.thr := by
  induction l generalizing s with
  | nil => rfl
  | cons x l ih => unfold writeSets; grind [!holdWrite_thr, !writeWait_thr, → writePieces_thr]
@[simp] theorem Dev.busyEngine_thr (s : Dev) (d : Die) (code n : Nat) : (s.busyEngine d code n).thr = s.thr := by simp [busyEngine]
@[simp] theorem Dev.countEntry_thr (s : Dev) (d : Die) (opcode : Nat) (v : ServiceOp) (e : EntryOut) :
    (s.countEntry d opcode v e).thr = s.thr := by
  unfold countEntry
  extract_lets die outLen t u
  have ht : t.thr = s.thr := busyEngine_thr ..
  have hu : u.thr = s.thr := ite_dev_thr_of ht ht
  split
  · exact hu
  · exact hu
  · exact hu
@[simp] theorem Dev.workUnit_thr (s : Dev) (o : Operation) (v : ServiceOp) : (s.workUnit o v).thr = s.thr := by
  simp only [workUnit]
  split
  · next heq => exact fst_thr (readVa_thr ..) heq
  · next heq => simp [fst_thr (readVa_thr ..) heq]
  · next heq =>
    have hread := fst_thr (readVa_thr ..) heq
    split
    · next heq => simp [fst_thr (performEntry_thr ..) heq, hread]
    · next heq => simp [fst_thr (performEntry_thr ..) heq, hread]
    · next heq =>
      have hwork := (fst_thr (performEntry_thr ..) heq).trans hread
      split
      all_goals next heq => simp [fst_thr (writeSets_thr ..) heq, hwork]
@[simp] theorem Dev.beginSort_thr (s : Dev) (o : Operation) : (s.beginSort o).thr = s.thr := by
  rw [beginSort, beginWith_thr]
  refine Named.andThen_thr_of (by simp) fun s inp hs => ?_
  refine Named.andThen_thr_of (by simp [hs]) fun s second hs => ?_
  refine Named.andThen_thr_of (by simp [hs]) fun s out hs => ?_
  refine Named.andThen_thr_of (by simp [hs]) fun s b hs => ?_
  refine Named.andThen_thr_of (by simp [hs]) fun s res hs => ?_
  exact Named.andThen_thr_of (by simp [hs]) fun s scratch hs => ite_thr_of hs hs
@[simp] theorem Dev.sortUnit_thr (s : Dev) (o : Operation) (v : ServiceOp) : (s.sortUnit o v).thr = s.thr := by
  have hread (p : Port) (g : List Byte → List (ByteBuf × Bool × Nat × List Byte)) : (Fetch.andThen (s.readVa p v.inp.base v.inp.len) fun s x =>
      Fetch.andThen (match v.second with
        | some b => s.readVa p b.base b.len
        | none => (s, .ok [])) fun s y => Fetch.andThen (s.writeSets p (g x)) fun s _ => (s, .ok (x, y))).1.thr = s.thr := by
    refine Fetch.andThen_thr_of (by simp) fun s x hs => Fetch.andThen_thr_of ?_ fun s y hs => Fetch.andThen_thr_of (by simp [hs]) fun s _ hs => hs
    cases v.second <;> simp [hs]
  simp only [sortUnit]
  split
  · split
    all_goals next heq => simp [fst_thr ((by rfl : _ = _).trans (hread _ v.scratchSets)) heq]
  · split
    · split
      all_goals next heq => simp [fst_thr (writeUnit_thr ..) heq]
    · split
      all_goals next heq => simp [fst_thr (writeSets_thr ..) heq]
@[simp] theorem Dev.beginGather_thr (s : Dev) (o : Operation) : (s.beginGather o).thr = s.thr := by
  rw [beginGather, beginWith_thr]
  refine Named.andThen_thr_of (by simp) fun s inp hs => ?_
  refine Named.andThen_thr_of (by simp [hs]) fun s second hs => ?_
  refine Named.andThen_thr_of (by simp [hs]) fun s out hs => ?_
  exact Named.andThen_thr_of (by simp [hs]) fun s b hs => ite_thr_of hs hs
@[simp] theorem Dev.gatherUnit_thr (s : Dev) (o : Operation) (v : ServiceOp) : (s.gatherUnit o v).thr = s.thr := by
  simp only [gatherUnit]
  split
  all_goals
    next heq =>
    have hkeep := fst_thr (s := s) (Fetch.andThen_thr_of (by simp) fun s d hs => ite_thr_of
      (Fetch.andThen_thr_of (ite_thr_of hs (by simp [hs])) fun s x hs => Fetch.andThen_thr_of (by simp [hs]) fun s _ hs => hs)
      (ite_thr_of hs (Fetch.andThen_thr_of (by simp [hs]) fun s x hs => Fetch.andThen_thr_of (by simp [hs]) fun s _ hs => hs))) heq
    simp [ite_thr, hkeep]
@[simp] theorem Dev.beginService_thr (s : Dev) (o : Operation) : (s.beginService o).thr = s.thr := by
  unfold beginService
  grind [!beginGather_thr, !serveIdle_thr, !beginWork_thr, !beginSort_thr, !beginOp_thr]
theorem Dev.serviceUnit_thr (s : Dev) (slot : SlotId) (ok : Nat → Bool) (f : Dev → Operation → ServiceOp → Dev)
    (hf : ∀ s o v, (f s o v).thr = s.thr) : (s.serviceUnit slot ok f).thr = s.thr := by
  unfold serviceUnit
  grind [!turnQuantum_thr]
@[simp] theorem Dev.refill_thr (s : Dev) (q : QueueId) : (s.refill q).thr = s.thr := by simp [refill, ite_thr]
@[simp] theorem Dev.stopWaiting_thr (s : Dev) (o : Operation) : (s.stopWaiting o).thr = s.thr := by simp [stopWaiting, ite_thr]
@[simp] theorem Dev.abortOps_thr (s : Dev) (q : QueueId) : (s.abortOps q).thr = s.thr := by simp [abortOps, foldl_thr]
@[simp] theorem Dev.regionProbe_thr (s : Dev) (p : Port) (region : Nat) : (s.regionProbe p region).1.thr = s.thr := by
  unfold regionProbe
  split <;> simp [Fetch.andThen_thr]
@[simp] theorem Dev.pushedBuffer_thr (s : Dev) (q : QueueId) (handle : Nat) :
    (s.pushedBuffer q handle).1.thr = s.thr := memStep_thr (memStep_pushedBuffer ..)
@[simp] theorem Dev.pushNow_thr (s : Dev) (q : QueueId) (handle : Nat) : (s.pushNow q handle).1.thr = s.thr := by
  unfold pushNow
  grind [!pushedBuffer_thr, !modQueue_thr, !refill_thr, !bind_thr]
@[simp] theorem Dev.retryPushes_thr (s : Dev) (q : QueueId) (hs : List Nat) : (s.retryPushes q hs).thr = s.thr := by
  induction hs generalizing s with
  | nil => rfl
  | cons h hs ih => unfold retryPushes; grind [!pushNow_thr, !modQueue_thr]
@[simp] theorem Dev.drainPushes_thr (s : Dev) (q : QueueId) : (s.drainPushes q).thr = s.thr := by simp [drainPushes]
@[simp] theorem Dev.push_thr (s : Dev) (q : QueueId) (handle : Nat) : (s.push q handle).1.thr = s.thr := by simp [push, ite_thr, ite_fst]
@[simp] theorem Dev.testHead_thr (s : Dev) (q : QueueId) (w : BitVec 256) : (s.testHead q w).thr = s.thr := by simp [testHead, ite_thr]
@[simp] theorem Dev.skipOne_thr (s : Dev) (q : QueueId) (w : BitVec 256) (depth : Nat) : (s.skipOne q w depth).thr = s.thr := by
  unfold skipOne
  split <;> simp
@[simp] theorem Dev.fetchHead_thr (s : Dev) (q : QueueId) : (s.fetchHead q).thr = s.thr := by
  unfold fetchHead
  grind [!modQueue_thr, !testHead_thr, !skipOne_thr, !readVa_thr, !cease_thr]
@[simp] theorem Dev.modRelay_thr (s : Dev) (r : Fin 64) (f : Relay → Relay) : (s.modRelay r f).thr = s.thr := by simp [modRelay]
@[simp] theorem Dev.performFirst_thr (s : Dev) (q : QueueId) : (s.performFirst q).thr = s.thr := by
  unfold performFirst
  split <;> simp
@[simp] theorem Dev.endControl_thr (s : Dev) (q : QueueId) (w : BitVec 256) (head : Nat) (update : List PendingSignal) :
    (s.endControl q w head update).thr = s.thr := by simp [endControl, foldl_thr, ite_thr]
theorem Dev.control_thr (s : Dev) (q : QueueId) (opcode : Nat) (f : Dev → Queue → BitVec 256 → Dev) (hf : ∀ s x w, (f s x w).thr = s.thr) :
    (s.control q opcode f).thr = s.thr := by
  unfold control
  grind [!latch_thr]
@[simp] theorem Dev.loopCount_thr (s : Dev) (q : QueueId) (x : Queue) (w : BitVec 256) :
    (s.loopCount q x w).1.thr = s.thr := memStep_thr (memStep_loopCount ..)
@[simp] theorem Dev.issueHead_thr (s : Dev) (q : QueueId) (opcode : Nat) (accepts : Dev → Bool) (reason : Nat) :
    (s.issueHead q opcode accepts reason).thr = s.thr := by
  unfold issueHead
  grind [!latch_thr, !askSlot_thr, !issueAs_thr]
@[simp] theorem Dev.issueMill_thr (s : Dev) (q : QueueId) (opcode : Nat) : (s.issueMill q opcode).thr = s.thr := by simp [issueMill, ite_thr]
@[simp] theorem Dev.issueFree_thr (s : Dev) (q : QueueId) (opcode : Nat) : (s.issueFree q opcode).thr = s.thr := by simp [issueFree]
@[simp] theorem Dev.issueService_thr (s : Dev) (q : QueueId) (opcode : Nat) : (s.issueService q opcode).thr = s.thr := by simp [issueService]
@[simp] theorem Dev.allocate_thr (s : Dev) (slot : SlotId) : (s.allocate slot).thr = s.thr := by
  unfold allocate
  grind [!modJournal_thr, !giveSlot_thr, !issueAs_thr]
@[simp] theorem Dev.counterOp_thr (s : Dev) (c : CounterRef) (a : CoreAccess) : (s.counterOp c a).thr = s.thr := by
  unfold counterOp
  grind [!updateCounterOf_thr]
@[simp] theorem Dev.putImage_thr (s : Dev) (p : Port) (h : Nat) : (s.putImage p h).1.thr = s.thr := by
  refine Named.andThen_thr_of (by simp) fun s b hs => ?_
  split
  · exact hs
  · exact Named.andThen_thr_of (by simp [hs]) fun s _ hs => hs
@[simp] theorem Dev.performRelay_thr (s : Dev) (o : Operation) : (s.performRelay o).thr = s.thr := by
  unfold performRelay
  grind [!writeUnit_thr, !modRelay_thr, !putImage_thr, !beginOp_thr, !failOp_thr, !modOp_thr]
@[simp] theorem Dev.issueRelay_thr (s : Dev) (q : QueueId) (opcode : Nat) : (s.issueRelay q opcode).thr = s.thr := by
  unfold issueRelay
  grind [!performRelay_thr, !refuseHead_thr, !countWait_thr, !modQueue_thr, !modRelay_thr, !askSlot_thr, !issueAs_thr, !latch_thr]
@[simp] theorem Dev.grant_thr (s : Dev) (t : LineTag) (x : Txn) (g : Grant) (data : LineData) (poison : Bool) :
    (s.grant t x g data poison).thr = s.thr := by
  unfold grant
  split <;> simp
@[simp] theorem Dev.ackTo_thr (s : Dev) (t : LineTag) (x : Txn) (poison : Bool) : (s.ackTo t x poison).thr = s.thr := by
  unfold ackTo
  split <;> simp
@[simp] theorem Dev.answerDie_thr (s : Dev) (by_ : ReqBy) (x : OnceAnswer) : (s.answerDie by_ x).thr = s.thr := by
  unfold answerDie
  split <;> simp
@[simp] theorem Dev.answerData_thr (s : Dev) (t : LineTag) (x : Txn) : (s.answerData t x).1.thr = s.thr := by
  unfold answerData
  split <;> simp
@[simp] theorem Dev.homeAtomic_thr (s : Dev) (t : LineTag) (off op operand compare by_ : Nat) :
    (s.homeAtomic t off op operand compare by_).1.thr = s.thr := by simp [homeAtomic, ite_thr, ite_fst]
@[simp] theorem Dev.finishShared_thr (s : Dev) (t : LineTag) (x : Txn) (r : Agent) : (s.finishShared t x r).thr = s.thr := by
  unfold finishShared
  grind [!answerData_thr, !putDir_thr, !grant_thr]
@[simp] theorem Dev.finish_thr (s : Dev) (t : LineTag) (x : Txn) (poisoned : Bool) : (s.finish t x poisoned).thr = s.thr := by
  unfold finish
  cases x.kind <;> cases x.by_ <;> simp [ite_thr]
@[simp] theorem Dev.takeUp_thr (s : Dev) (t : LineTag) (kind0 : ReqKind) (by_ : ReqBy) (err : Nat) :
    (s.takeUp t kind0 by_ err).thr = s.thr := by simp [takeUp, ite_thr]
@[simp] theorem Dev.takeHeld_thr (s : Dev) (x : Held) : (s.takeHeld x).thr = s.thr := by
  unfold takeHeld
  split <;> simp
@[simp] theorem Dev.setTxn_thr (s : Dev) (t : LineTag) (x : Option Txn) : (s.setTxn t x).thr = s.thr := by simp [setTxn]
@[simp] theorem Dev.setHeld_thr (s : Dev) (t : LineTag) (l : List Held) : (s.setHeld t l).thr = s.thr := by simp [setHeld]
@[simp] theorem Dev.takeAllHeld_thr (s : Dev) (h : HubId) (n : Nat) : (s.takeAllHeld h n).thr = s.thr := by
  induction n generalizing s with
  | zero => rfl
  | succ n ih => unfold takeAllHeld; split <;> simp [ih]
@[simp] theorem Dev.closeTxn_thr (s : Dev) (t : LineTag) (x : Txn) (poisoned : Bool) : (s.closeTxn t x poisoned).thr = s.thr := by simp [closeTxn]
@[simp] theorem Dev.homeStall_thr (s : Dev) (t : LineTag) (by_ : Option Agent) : (s.homeStall t by_).thr = s.thr := by simp [homeStall]
@[simp] theorem Dev.homeTurn_thr (s : Dev) (t : LineTag) (a : Agent) : (s.homeTurn t a).thr = s.thr := by simp [homeTurn]
@[simp] theorem Dev.arrive_thr (s : Dev) (t : LineTag) (what : HeldKind) : (s.arrive t what).thr = s.thr := by simp [arrive, ite_thr]
@[simp] theorem Dev.setWaiting_thr (s : Dev) (a : Agent) (t : LineTag) (w : Option Waiting) : (s.setWaiting a t w).thr = s.thr := by simp [setWaiting]
@[simp] theorem Dev.ask_thr (s : Dev) (a : Agent) (t : LineTag) (w : Waiting) : (s.ask a t w).thr = s.thr := by
  unfold ask
  grind [!setWaiting_thr, !takeEntry_thr, !modAgent_thr, !bump_thr, !send_thr]
@[simp] theorem Dev.answered_thr (s : Dev) (a : Agent) (t : LineTag) : (s.answered a t).thr = s.thr := by
  unfold answered
  grind [!setWaiting_thr, !modAgent_thr, !ask_thr]
@[simp] theorem Dev.coreFault_thr (s : Dev) (a : Agent) : (s.coreFault a).thr = s.thr := by simp [coreFault, ite_thr]
@[simp] theorem Dev.plainError_thr (s : Dev) (d : Die) (core : Bool) (t : LineTag) :
    (s.plainError d core t).thr = s.thr := by simp [plainError, ite_thr]
@[simp] theorem Dev.accessErrorTo_thr (s : Dev) (t : LineTag) (by_ : ReqBy) : (s.accessErrorTo t by_).thr = s.thr := by
  unfold accessErrorTo
  split <;> simp
@[simp] theorem Dev.reportFree_thr (s : Dev) (t : LineTag) : (s.reportFree t).thr = s.thr := by simp [reportFree]
theorem Dev.requestAt_thr (s : Dev) (received : Dev → Dev) (t : LineTag) (k : ReqKind) (by_ : ReqBy) (err : Nat)
    (hr : (received s).thr = s.thr) : (s.requestAt received t k by_ err).thr = s.thr := by
  simp [requestAt, ite_thr, foldl_thr, hr]
@[simp] theorem Dev.agentRequest_thr (s : Dev) (m : Msg) (t : LineTag) (k : ReqKind) (a : Agent) (err : Nat) :
    (s.agentRequest m t k a err).thr = s.thr := by
  simp [agentRequest, ite_thr, requestAt_thr]
@[simp] theorem Dev.evictionAt_thr (s : Dev) (m : Msg) (t : LineTag) (what : HeldKind) :
    (s.evictionAt m t what).thr = s.thr := by simp [evictionAt, ite_thr]
@[simp] theorem Dev.releaseFrom_thr (s : Dev) (t : LineTag) (a : Agent) : (s.releaseFrom t a).thr = s.thr := by
  unfold releaseFrom
  split <;> simp
@[simp] theorem Dev.respond_thr (s : Dev) (t : LineTag) (a : Agent) (ep : Byte) (ans : OwnerAnswer) (data : Option (LineData × Bool)) :
    (s.respond t a ep ans data).thr = s.thr := by
  unfold respond
  grind [!releaseFrom_thr, !dirRemove_thr, !closeTxn_thr, !setTxn_thr, !l3Put_thr, !bump_thr]
@[simp] theorem Dev.responseAt_thr (s : Dev) (m : Msg) (t : LineTag) (a : Agent) (ep : Byte) (ans : OwnerAnswer) (data : Option (LineData × Bool)) :
    (s.responseAt m t a ep ans data).thr = s.thr := by simp [responseAt, ite_thr]
@[simp] theorem Dev.poisonHome_thr (s : Dev) (t : LineTag) : (s.poisonHome t).thr = s.thr := by
  unfold poisonHome
  grind [!bump_thr, !setDir_thr, !setL3_thr, !dramSetPoison_thr]
@[simp] theorem Dev.giveUp_thr (s : Dev) (t : LineTag) (x : Txn) : (s.giveUp t x).thr = s.thr := by simp [giveUp, foldl_thr]
@[simp] theorem Dev.localWrite_thr (s : Dev) (a : Agent) (t : LineTag) (off : Nat) (data : List Byte) (full amo : Bool) :
    (s.localWrite a t off data full amo).thr = s.thr := by
  unfold localWrite
  grind [!plainError_thr, !ask_thr, !coreFault_thr, !touch_thr, !setLine_thr, → promote_thr, !evbWait_thr, !joinFlight_thr]
@[simp] theorem Dev.snooped_thr (s : Dev) (k : SnoopKind) (a : Agent) (t : LineTag) (ep : Byte) : (s.snooped k a t ep).thr = s.thr := by
  simp only [snooped]
  split
  · split <;> simp
  · split <;> simp
@[simp] theorem Dev.snoopAt_thr (s : Dev) (k : SnoopKind) (a : Agent) (t : LineTag) (ep : Byte) :
    (s.snoopAt k a t ep).thr = s.thr := by simp [snoopAt, ite_thr]
@[simp] theorem Dev.refetch_thr (s : Dev) (a : Agent) (t : LineTag) (l : CacheLine) : (s.refetch a t l).thr = s.thr := by simp [refetch]
@[simp] theorem Dev.sendFlit_thr (s : Dev) (die port : Nat) (seq : BitVec 12) : (s.sendFlit die port seq).thr = s.thr := by simp [sendFlit, ite_thr]
@[simp] theorem Dev.reach_thr (s : Dev) (die : Nat) (c : Carried) : (s.reach die c).thr = s.thr := by
  unfold reach
  (repeat' split) <;> simp
@[simp] theorem Dev.dropMsgs_thr (s : Dev) (p : Msg → Bool) : (s.dropMsgs p).thr = s.thr := by simp [dropMsgs]
@[simp] theorem Dev.snoopLost_thr (s : Dev) (t : LineTag) (a : Agent) (ep : Byte) : (s.snoopLost t a ep).thr = s.thr := by
  unfold snoopLost
  split <;> simp [ite_thr]
@[simp] theorem Dev.loseMsg_thr (s : Dev) (m : Msg) : (s.loseMsg m).thr = s.thr := by
  unfold loseMsg
  split <;> simp
@[simp] theorem Dev.loseMessage_thr (s : Dev) (m : LostMessage) : (s.loseMessage m).thr = s.thr := by
  have hsnoop (t : LineTag) (a : Agent) : ((s.txnOf t).elim s fun x => s.snoopLost t a x.epoch).thr = s.thr := by
    cases s.txnOf t <;> simp
  unfold loseMessage
  split
  · rfl
  · simp
  · split
    · simp
    · split
      · exact hsnoop ..
      · exact hsnoop ..
      · rfl
@[simp] theorem Dev.loseFlits_thr (s : Dev) (die port : Nat) : (s.loseFlits die port).thr = s.thr := by
  simp only [loseFlits]
  rw [foldl_thr _ fun s c => ?_, modPort_thr]
  split
  · simp [ite_thr]
  · rfl
@[simp] theorem Dev.flood_thr (s : Dev) (die conn : Nat) : (s.flood die conn).thr = s.thr := by simp [flood]
@[simp] theorem Dev.connectionDown_thr (s : Dev) (c : Nat) (byReplays : Bool) (lost : List LostMessage) :
    (s.connectionDown c byReplays lost).thr = s.thr := by simp [connectionDown, foldl_thr, ite_thr]
@[simp] theorem Dev.portBound_thr (s : Dev) (die port c : Nat) : (s.portBound die port c).thr = s.thr := by simp [portBound, ite_thr]
@[simp] theorem Dev.portNak_thr (s : Dev) (die port : Nat) (ack : BitVec 12) : (s.portNak die port ack).thr = s.thr := by
  unfold portNak
  split <;> simp [ite_thr]
@[simp] theorem Dev.modLink_thr (s : Dev) (l : LinkId) (f : Link → Link) : (s.modLink l f).thr = s.thr := by simp [modLink]
@[simp] theorem Dev.setLinkState_thr (s : Dev) (l : LinkId) (v : Nat) : (s.setLinkState l v).thr = s.thr := by simp [setLinkState, ite_thr]
theorem Dev.sendOne_thr {s u : Dev} {l : LinkId} (h : s.sendOne l = some u) : u.thr = s.thr := by
  unfold sendOne at h
  split at h
  · cases h
  · obtain ⟨_, _, rfl⟩ := Option.map_eq_some_iff.mp h
    simp
@[simp] theorem Dev.linkTurn_thr (s : Dev) (ox : Nat) : (s.linkTurn ox).1.thr = s.thr := by
  unfold linkTurn
  rw [foldl_fst_thr _ fun acc l => ?_]
  split
  · next h => exact sendOne_thr h
  · rfl
/-- One turn of `linkTurns`, taken apart by hand: its equation lemma would have `linkTurn` evaluated. -/
theorem linkTurns_succ_thr (s : Dev) (ox n : Nat) (ih : ∀ t : Dev, (t.linkTurns ox n).thr = t.thr) :
    (s.linkTurns ox (n + 1)).thr = s.thr := by
  have ht := Dev.linkTurn_thr s ox
  generalize hr : s.linkTurn ox = r at ht
  delta Dev.linkTurns Dev.linkTurns._f at ih ⊢
  dsimp only at ih ⊢
  rw [hr]
  obtain ⟨t, _ | k⟩ := r
  · exact ht
  · exact (ih t).trans ht

@[simp] theorem Dev.linkTurns_thr (s : Dev) (ox n : Nat) : (s.linkTurns ox n).thr = s.thr := by
  induction n generalizing s with
  | zero => rfl
  | succ n ih => exact linkTurns_succ_thr s ox n ih
@[simp] theorem Dev.pumpLink_thr (s : Dev) (l : LinkId) : (s.pumpLink l).thr = s.thr := by simp [pumpLink, ite_thr]
@[simp] theorem Dev.sendLink_thr (s : Dev) (l : LinkId) (p : Packet) : (s.sendLink l p).thr = s.thr := by simp [sendLink]
@[simp] theorem Dev.trainLink_thr (s : Dev) (l : LinkId) : (s.trainLink l).thr = s.thr := by simp [trainLink, ite_thr]
@[simp] theorem Dev.retrainIdle_thr (s : Dev) (l : LinkId) : (s.retrainIdle l).thr = s.thr := by simp [retrainIdle, ite_thr]
@[simp] theorem Dev.linkAck_thr (s : Dev) (l : LinkId) (a : U16) : (s.linkAck l a).thr = s.thr := by simp [linkAck]
@[simp] theorem Dev.linkNak_thr (s : Dev) (l : LinkId) (ack : U16) : (s.linkNak l ack).thr = s.thr := by simp [linkNak, ite_thr]
@[simp] theorem Dev.countFec_thr (s : Dev) (l : LinkId) (f : LinkFlit) : (s.countFec l f).thr = s.thr := by simp [countFec, ite_thr]
@[simp] theorem Dev.linkFlit_thr (s : Dev) (l : LinkId) (f : LinkFlit) : (s.linkFlit l f).1.thr = s.thr := by simp [linkFlit, ite_thr, ite_fst]
@[simp] theorem Dev.setKey_thr (s : Dev) (k : BitVec 12) (v : KeyState) : (s.setKey k v).thr = s.thr := by simp [setKey]
@[simp] theorem Dev.sendNotice_thr (s : Dev) (ox : Nat) (p : Packet) : (s.sendNotice ox p).thr = s.thr := by
  unfold sendNotice
  grind [!modFab_thr, !sendLink_thr, !bump_thr]
@[simp] theorem Dev.emit_thr (s : Dev) (ox : Nat) (p : Packet) : (s.emit ox p).thr = s.thr := by
  unfold emit
  (repeat' split) <;> simp
@[simp] theorem Dev.setFlow_thr (s : Dev) (f : TxFlow) : (s.setFlow f).thr = s.thr := by simp [setFlow]
@[simp] theorem Dev.sendFlow_thr (s : Dev) (ox : Nat) (num : U16) (p : Packet) : (s.sendFlow ox num p).thr = s.thr := by simp [sendFlow]
@[simp] theorem Dev.endEarly_thr (s : Dev) (slot : SlotId) (reason : Nat) : (s.endEarly slot reason).thr = s.thr := by
  unfold endEarly
  split <;> simp
@[simp] theorem Dev.closeWindows_thr (s : Dev) : s.closeWindows.thr = s.thr := by simp [closeWindows]
@[simp] theorem Dev.failAccesses_thr (s : Dev) (p : WindowAccess → Bool) : (s.failAccesses p).thr = s.thr := by
  simp only [failAccesses]
  rw [closeWindows_thr, foldl_thr _ fun s a => ?_, modFab_thr]
  split <;> simp
@[simp] theorem Dev.failFlow_thr (s : Dev) (f : TxFlow) (cause : Nat) : (s.failFlow f cause).thr = s.thr := by
  unfold failFlow
  grind [!failAccesses_thr, !endEarly_thr, !setFlow_thr, !report_thr]
@[simp] theorem Dev.losePacket_thr (s : Dev) (ox : Nat) (p : Packet) : (s.losePacket ox p).thr = s.thr := by
  unfold losePacket
  grind [!sendNotice_thr, !failFlow_thr]
@[simp] theorem Dev.linkDown_thr (s : Dev) (l : LinkId) (cause newState : Nat) :
    (s.linkDown l cause newState).thr = s.thr := by simp [linkDown, foldl_thr, ite_thr]
@[simp] theorem Dev.linkFails_thr (s : Dev) (l : LinkId) (cause : Nat) : (s.linkFails l cause).thr = s.thr := by simp [linkFails, ite_thr]
@[simp] theorem Dev.linkBound_thr (s : Dev) (l : LinkId) : (s.linkBound l).thr = s.thr := by simp [linkBound, ite_thr]
@[simp] theorem Dev.writeRole_thr (s : Dev) (l : LinkId) (v : Nat) : (s.writeRole l v).1.thr = s.thr := by simp [writeRole, ite_thr, ite_fst]
@[simp] theorem Dev.writeEnable_thr (s : Dev) (l : LinkId) (v : Bool) : (s.writeEnable l v).thr = s.thr := by simp [writeEnable, ite_thr]
@[simp] theorem Dev.readColl_thr (s : Dev) (o : Operation) : (s.readColl o).1.thr = s.thr := by
  refine Named.andThen_thr_of (by simp) fun s c hs => ite_thr_of (by simp [hs]) ?_
  refine Named.andThen_thr_of (by simp [hs]) fun s tb hs => ite_thr_of hs ?_
  refine Named.andThen_thr_of (by simp [hs]) fun s d hs => ite_thr_of hs ?_
  refine Named.andThen_thr_of (by simp [hs]) fun s a hs => ite_thr_of hs ?_
  exact Named.andThen_thr_of (by simp [hs]) fun s d hs => ite_thr_of hs hs
@[simp] theorem Dev.sendGrant_thr (s : Dev) (o : Operation) (x : CollOp) (rank chunk : Nat) :
    (s.sendGrant o x rank chunk).thr = s.thr := by simp [sendGrant]
@[simp] theorem Dev.putColl_thr (s : Dev) (slot : SlotId) (x : CollOp) : (s.putColl slot x).thr = s.thr := by simp [putColl]
@[simp] theorem Dev.takeEarly_thr (s : Dev) (x : CollOp) : (s.takeEarly x).1.thr = s.thr := by simp [takeEarly, foldl_fst_thr, ite_thr, ite_fst]
@[simp] theorem Dev.beginColl_thr (s : Dev) (o : Operation) : (s.beginColl o).thr = s.thr := by
  unfold beginColl
  split
  · next heq => exact fst_thr (readColl_thr ..) heq
  · next heq => simp [fst_thr (readColl_thr ..) heq]
  · next heq => simp [fst_thr (readColl_thr ..) heq]
  · next heq => simp [fst_thr (readColl_thr ..) heq]
  · next heq => simp [foldl_thr, fst_thr (readColl_thr ..) heq]
@[simp] theorem Dev.collRead_thr (s : Dev) (o : Operation) (x : CollOp) :
    (s.collRead o x).1.thr = s.thr := by simp [collRead, Fetch.andThen_thr, ite_thr, ite_fst]
@[simp] theorem Dev.collSend_thr (s : Dev) (o : Operation) (x : CollOp) (t : CollStream) :
    (s.collSend o x t).1.thr = s.thr := by simp [collSend, foldl_thr, ite_thr, ite_fst]
@[simp] theorem Dev.collWrite_thr (s : Dev) (o : Operation) (x : CollOp) : (s.collWrite o x).1.thr = s.thr := by
  unfold collWrite
  split <;> simp [Fetch.andThen_thr]
@[simp] theorem Dev.collAdvance_thr (s : Dev) (slot : SlotId) : (s.collAdvance slot).thr = s.thr := by
  have hsend (t : Dev) (o : Operation) (x : CollOp) (l : List CollStream) :
      (l.foldl (fun (acc : Dev × List CollStream) y => ((acc.1.collSend o x y).1, acc.2 ++ [(acc.1.collSend o x y).2])) (t, [])).1.thr = t.thr :=
    foldl_fst_thr (fun (acc : Dev × List CollStream) y => ((acc.1.collSend o x y).1, acc.2 ++ [(acc.1.collSend o x y).2]))
      (fun acc y => collSend_thr ..) _ _
  unfold collAdvance
  split
  · rfl
  split
  · refine ite_dev_thr_of rfl ?_
    split
    · next heq => exact fst_thr (collRead_thr ..) heq
    · next heq => simp [fst_thr (collRead_thr ..) heq]
    · next heq =>
      have hread := fst_thr (collRead_thr ..) heq
      split
      next hs =>
      have hsent := (fst_thr (hsend ..) hs).trans hread
      extract_lets x' o'
      split
      all_goals next heq => simp [fst_thr (collWrite_thr ..) heq, hsent]
  · rfl
@[simp] theorem Dev.collData_thr (s : Dev) (p : Packet) : (s.collData p).thr = s.thr := by
  unfold collData
  grind [!collAdvance_thr, !sendGrant_thr, !putColl_thr]
@[simp] theorem Dev.collGrant_thr (s : Dev) (p : Packet) : (s.collGrant p).thr = s.thr := by
  simp only [collGrant]
  split <;> simp
@[simp] theorem Dev.collStep_thr (s : Dev) (step : OpStep) (opcode : Nat) : (s.collStep step opcode).thr = s.thr := by
  unfold collStep
  split <;> simp [ite_thr]
@[simp] theorem Dev.answerTo_thr (s : Dev) (ox : Nat) (p : Packet) (ptype : BitVec 6) (status : Nat) (payload : List Byte) :
    (s.answerTo ox p ptype status payload).thr = s.thr := by simp [answerTo]
@[simp] theorem Dev.performHost_thr (s : Dev) (ox : Nat) (p : Packet) (failed : Option Nat) : (s.performHost ox p failed).1.thr = s.thr := by
  unfold performHost
  split
  · rfl
  · simp
  · dsimp only
    split
    · split
      all_goals next heq => exact fst_thr (writeUnit_thr ..) heq
    · refine ite_thr_of rfl ?_
      split
      all_goals next heq => exact fst_thr (readVa_thr ..) heq
    · refine ite_thr_of rfl ?_
      split
      all_goals next heq => exact fst_thr ((push_thr ..).trans (drainWcbOf_thr ..)) heq
    · simp
    · simp
@[simp] theorem Dev.performRemote_thr (s : Dev) (ox : Nat) (p : Packet) : (s.performRemote ox p).1.thr = s.thr := by
  unfold performRemote
  split <;> simp [foldl_thr, ite_thr, ite_fst]
@[simp] theorem Dev.servePacket_thr (s : Dev) (ox : Nat) (p : Packet) (failed : Option Nat) : (s.servePacket ox p failed).1.thr = s.thr := by
  unfold servePacket
  refine ite_thr_of ?_ ?_
  · split
    all_goals next heq => simp [fst_thr (performHost_thr ..) heq]
  · split
    all_goals next heq => simp [fst_thr (performRemote_thr ..) heq]
@[simp] theorem Dev.retryAccepted_thr (s : Dev) : s.retryAccepted.thr = s.thr := by
  unfold retryAccepted
  rw [modFab_thr]
  refine foldl_fst_thr _ (fun acc x => ?_) _ _
  refine ite_thr_of rfl ?_
  split
  all_goals next heq => exact fst_thr (servePacket_thr ..) heq
@[simp] theorem Dev.acceptPacket_thr (s : Dev) (ox : Nat) (p : Packet) : (s.acceptPacket ox p).thr = s.thr := by simp [acceptPacket]
@[simp] theorem Dev.windowAnswer_thr (s : Dev) (p : Packet) : (s.windowAnswer p).thr = s.thr := by
  unfold windowAnswer
  grind [!modFab_thr, !closeWindows_thr, !failOp_thr, !report_thr]
@[simp] theorem Dev.ackPacket_thr (s : Dev) (p : Packet) : (s.ackPacket p).thr = s.thr := by
  unfold ackPacket
  split <;> simp [ite_thr]
@[simp] theorem Dev.noticePacket_thr (s : Dev) (p : Packet) : (s.noticePacket p).thr = s.thr := by
  unfold noticePacket
  split <;> simp [ite_thr]
@[simp] theorem Dev.inOrder_thr (s : Dev) (p : Packet) : (s.inOrder p).1.thr = s.thr := by simp [inOrder, ite_thr, ite_fst]
@[simp] theorem Dev.deliver_thr (s : Dev) (ox : Nat) (p : Packet) : (s.deliver ox p).thr = s.thr := by
  unfold deliver
  grind [!acceptPacket_thr, !windowAnswer_thr, !noticePacket_thr, !sendNotice_thr, !collGrant_thr, !ackPacket_thr, !collData_thr, !inOrder_thr, !bump_thr, !emit_thr]
@[simp] theorem Dev.transit_thr (s : Dev) (ox : Nat) (p : Packet) : (s.transit ox p).thr = s.thr := by simp [transit, ite_thr]
@[simp] theorem Dev.arriveAt_thr (s : Dev) (l : LinkId) (p : Packet) : (s.arriveAt l p).thr = s.thr := by simp [arriveAt, ite_thr]
@[simp] theorem Dev.hostArrives_thr (s : Dev) (l : LinkId) (p : Packet) (cmd : Nat) :
    (s.hostArrives l p cmd).thr = s.thr := by simp [hostArrives, ite_thr]
@[simp] theorem Dev.typeArrives_thr (s : Dev) (l : LinkId) (p : Packet) (t : BitVec 6) :
    (s.typeArrives l p t).thr = s.thr := by simp [typeArrives, ite_thr]
@[simp] theorem Dev.disableWindow_thr (s : Dev) (w : Nat) : (s.disableWindow w).thr = s.thr := by simp [disableWindow, ite_thr]
@[simp] theorem Dev.writeWindow_thr (s : Dev) (w : Nat) (high : Bool) (v : Nat) :
    (s.writeWindow w high v).thr = s.thr := by simp [writeWindow, ite_thr]
@[simp] theorem Dev.refuseAccess_thr (s : Dev) (by_ : Requester) (w pa cause : Nat) : (s.refuseAccess by_ w pa cause).thr = s.thr := by
  unfold refuseAccess
  split <;> simp
@[simp] theorem Dev.reservedAccess_thr (s : Dev) (by_ : Requester) (pa : Nat) : (s.reservedAccess by_ pa).thr = s.thr := by
  unfold reservedAccess
  split <;> simp
@[simp] theorem Dev.enableKey_thr (s : Dev) (k : BitVec 12) : (s.enableKey k).1.thr = s.thr := by
  unfold enableKey
  split <;> simp
@[simp] theorem Dev.markKey_thr (s : Dev) (k : BitVec 12) : (s.markKey k).thr = s.thr := by simp [markKey]
@[simp] theorem Dev.disableKey_thr (s : Dev) (k : BitVec 12) : (s.disableKey k).thr = s.thr := by simp [disableKey, foldl_thr, ite_thr]
@[simp] theorem Dev.drainKey_thr (s : Dev) (k : BitVec 12) : (s.drainKey k).thr = s.thr := by simp [drainKey, ite_thr]
@[simp] theorem Dev.writeDeviceId_thr (s : Dev) (v : Nat) : (s.writeDeviceId v).1.thr = s.thr := by simp [writeDeviceId, ite_thr, ite_fst]
@[simp] theorem Dev.writeQueueField_thr (s : Dev) (q : QueueId) (f : QueueField) (v : Nat) :
    (s.writeQueueField q f v).thr = s.thr := by simp [writeQueueField, ite_thr]
@[simp] theorem Dev.writeMmuField_thr (s : Dev) (m : MmuId) (f : MmuField) (v : Nat) :
    (s.writeMmuField m f v).thr = s.thr := by simp [writeMmuField, ite_thr]
@[simp] theorem Dev.releaseOp_thr (s : Dev) (o : Operation) : (s.releaseOp o).thr = s.thr := by
  unfold releaseOp
  (repeat' split) <;> simp [ite_thr]
@[simp] theorem Dev.sheafInt_thr (s : Dev) (g : SheafRef) (o : Nat) : (s.sheafInt g o).thr = s.thr := by
  refine sheafStep_thr s g _ _ fun t x => ?_
  dsimp only
  exact writeLanes_thr ..
@[simp] theorem Dev.sheafFloat_thr (s : Dev) (g : SheafRef) (wide : Bool) (o : Nat) : (s.sheafFloat g wide o).thr = s.thr :=
  sheafStep_thr _ _ _ _ fun _ _ => writeLanes_thr ..
@[simp] theorem Dev.sheafFunc_thr (s : Dev) (g : SheafRef) (o : Nat) : (s.sheafFunc g o).thr = s.thr :=
  sheafStep_thr _ _ _ _ fun _ _ => writeLanes_thr ..
theorem Dev.sheafJump_thr (s : Dev) (g : SheafRef) (opcode : Nat) (f : Dev → Issue → Dev) (dest : Issue → Nat → Int)
    (hf : ∀ s x, (f s x).thr = s.thr) : (s.sheafJump g opcode f dest).thr = s.thr := sheafIssue_thr _ _ _ _ _ fun s x => by simp [hf]
@[simp] theorem Dev.sheafAccess_thr (s : Dev) (g : SheafRef) (opcode : Nat) (n : Issue → Nat) (reqs : Issue → List LaneReq) :
    (s.sheafAccess g opcode n reqs).thr = s.thr :=
  sheafIssue_thr _ _ _ _ _ fun s x => by split <;> simp [ite_thr]
theorem Dev.sheafLocal_thr (s : Dev) (g : SheafRef) (opcode : Nat) (n : Issue → Nat) (off : Issue → Nat → Nat) (f : Dev → Issue → Dev)
    (hf : ∀ s x, (f s x).thr = s.thr) : (s.sheafLocal g opcode n off f).thr = s.thr :=
  sheafStep_thr _ _ _ _ fun s x => by split <;> simp [hf]
@[simp] theorem Dev.localEach_thr (s : Dev) (x : Issue) (f : Stook → Nat → Stook) : (s.localEach x f).thr = s.thr := by simp [localEach]
@[simp] theorem Dev.loadLine_thr (s : Dev) (st : Stook) (k : Nat) (w line : Nat) (rs : List LaneReq) (d : List Byte) :
    (s.loadLine st k w line rs d).thr = s.thr := by simp [loadLine, foldl_thr, ite_thr]
theorem Dev.storeLine_thr {s u : Dev} {p : Port} {w : Nat} {x : Piece} {line : Nat} {rs : List LaneReq} (h : s.storeLine p w x line rs = some u) :
    u.thr = s.thr := writeLines_thr h
theorem Dev.atomicLine_thr {s u : Dev} {p : Port} {ieee : Bool} {st : Stook} {k w : Nat} {x : Piece} {line : Nat} {rs : List LaneReq}
    (h : s.atomicLine p ieee st k w x line rs = some u) : u.thr = s.thr := by
  induction rs generalizing s with
  | nil => cases h; rfl
  | cons r rs ih => unfold atomicLine at h; grind [→ writeLines_thr, !modStook_thr]
@[simp] theorem Dev.lineDone_thr (s : Dev) (st : Stook) (k : Nat) (a : SheafAccess) (line : Nat) :
    (s.lineDone st k a line).thr = s.thr := by simp [lineDone, ite_thr]
@[simp] theorem Dev.lineResponse_thr (s : Dev) (g : SheafRef) (line : Nat) : (s.lineResponse g line).thr = s.thr := by
  simp only [lineResponse]
  split
  · rfl
  split
  · split
    · rfl
    split
    · split
      all_goals next heq => simp [fst_thr (readVa_thr ..) heq]
    · split
      · next heq => exact fst_thr (holdWrite_thr ..) heq
      · next heq => simp [fst_thr (holdWrite_thr ..) heq]
      · next heq =>
        have hhold := fst_thr (holdWrite_thr ..) heq
        split
        · exact hhold
        split
        · simp [hhold]
        · next hown =>
          have howned := hhold
          rw [← ite_some_thr (fun h => writeLines_thr h) (fun h => by cases h; rfl) hown] at howned
          split
          · simp [howned]
          · split
            · next hdone => simp [ite_some_thr (fun h => atomicLine_thr h) (fun h => storeLine_thr h) hdone, howned]
            · simp [howned]
  · rfl

end Sys2Proof.Machine
end


section
/-! The one-way counters, the throttles and the power manager's levels, and the operations of chapters 12 to 14 that leave them. -/

namespace Sys2Proof.Machine

/-- What the range of the power manager's levels is said of (R624, R626, R629, R630): ceilings, and runs of windows and of ticks. -/
structure PowerLevels where
  moduleCeil : Nat
  thermCeil : Table Nat
  overRun : Nat
  underRun : Nat
  coolRun : Table Nat
  history : List Nat

/-- The levels of a power manager. -/
abbrev PowerState.levels (p : PowerState) : PowerLevels :=
  ⟨p.moduleCeil, p.thermCeil, p.overRun, p.underRun, p.coolRun, p.history⟩

/-- The one-way counters, the throttles and the power manager's levels: what O58 and O59 speak of. -/
structure Levels where
  counters : Vector Nat 3
  thr : Throttles
  pow : PowerLevels

/-- The levels of a state. -/
def State.levels (s : State) : Levels := ⟨s.boot.counters, s.thr, s.pow.levels⟩

@[simp] theorem State.levels_withDev {s : State} {d : Dev} (h : d.thr = s.thr) : State.levels { s with toDev := d } = s.levels := by
  simp [State.levels, h]

@[simp] theorem State.levels_withMgmt (s : State) (m : MgmtState) : State.levels { s with mgmt := m } = s.levels := rfl

@[simp] theorem State.lift_levels {s : State} {f : Dev → Dev} (h : (f s.toDev).thr = s.thr) : (s.lift f).levels = s.levels :=
  State.levels_withDev h

@[simp] theorem State.liftP_levels {α : Type} {s : State} {f : Dev → Dev × α} (h : (f s.toDev).1.thr = s.thr) : (s.liftP f).1.levels = s.levels :=
  State.levels_withDev h

@[simp] theorem State.modPow_levels {s : State} {f : PowerState → PowerState} (h : (f s.pow).levels = s.pow.levels) :
    (s.modPow f).levels = s.levels := by
  simp only [State.levels, State.modPow, h]

@[simp] theorem State.modBoot_levels {s : State} {f : BootState → BootState} (h : (f s.boot).counters = s.boot.counters) :
    (s.modBoot f).levels = s.levels := by
  simp only [State.levels, State.modBoot, h]

theorem ite_levels {c : Prop} [Decidable c] (s t : State) : (if c then s else t).levels = if c then s.levels else t.levels := apply_ite ..

theorem foldl_levels {α : Type} (f : State → α → State) (hf : ∀ (s : State) (a : α), (f s a).levels = s.levels) (l : List α) (s : State) :
    (l.foldl f s).levels = s.levels := by
  induction l generalizing s with
  | nil => rfl
  | cons a l ih => rw [List.foldl_cons, ih, hf]

theorem foldl_fst_levels {α β : Type} (f : State × β → α → State × β) (hf : ∀ (x : State × β) (a : α), (f x a).1.levels = x.1.levels)
    (l : List α) (x : State × β) : (l.foldl f x).1.levels = x.1.levels := by
  induction l generalizing x with
  | nil => rfl
  | cons a l ih => rw [List.foldl_cons, ih, hf]

theorem fst_levels {α : Type} {r : State × α} {s t : State} {a : α} (h : r.1.levels = s.levels) (hr : r = (t, a)) : t.levels = s.levels := by
  rw [← h, hr]

theorem ite_levels_of {α : Type} {c : Prop} [Decidable c] {r t : State × α} {s : State} (hr : r.1.levels = s.levels) (ht : t.1.levels = s.levels) :
    (if c then r else t).1.levels = s.levels := by
  split
  · exact hr
  · exact ht

theorem ite_state_levels_of {c : Prop} [Decidable c] {r t s : State} (hr : r.levels = s.levels) (ht : t.levels = s.levels) :
    (if c then r else t).levels = s.levels := by
  split
  · exact hr
  · exact ht

@[simp] theorem State.advance_levels (s : State) (t : U64) :
    (s.advance t).levels = s.levels := by simp [State.advance]

@[simp] theorem State.setObj_levels (s : State) (addr v : Nat) :
    (s.setObj addr v).levels = s.levels := by simp [State.setObj]

@[simp] theorem State.setObjAt_levels (s : State) (ss idx sub v : Nat) :
    (s.setObjAt ss idx sub v).levels = s.levels := by simp [State.setObjAt]

@[simp] theorem State.bump_levels (s : State) (ss idx sub n : Nat) :
    (s.bump ss idx sub n).levels = s.levels := by simp [State.bump]

@[simp] theorem State.event_levels (s : State) (kind detail : Nat) :
    (s.event kind detail).levels = s.levels := by simp [State.event]

@[simp] theorem State.report_levels (s : State) (die : Die) (f : RecFields) :
    (s.report die f).levels = s.levels := by simp [State.report]

@[simp] theorem State.modXl_levels (s : State) (f : XlState → XlState) :
    (s.modXl f).levels = s.levels := by simp [State.modXl]

@[simp] theorem State.modMem_levels (s : State) (f : MemState → MemState) :
    (s.modMem f).levels = s.levels := by simp [State.modMem]

@[simp] theorem State.modFab_levels (s : State) (f : FabricState → FabricState) : (s.modFab f).levels = s.levels := State.lift_levels rfl

@[simp] theorem State.modRealm_levels (s : State) (r : Nat) (f : Realm → Realm) :
    (s.modRealm r f).levels = s.levels := by simp [State.modRealm]

@[simp] theorem State.modQueue_levels (s : State) (q : QueueId) (f : Queue → Queue) :
    (s.modQueue q f).levels = s.levels := by simp [State.modQueue]

@[simp] theorem State.modJournal_levels (s : State) (f : Journal → Journal) :
    (s.modJournal f).levels = s.levels := by simp [State.modJournal]

@[simp] theorem State.modRelay_levels (s : State) (r : Fin 64) (f : Relay → Relay) :
    (s.modRelay r f).levels = s.levels := by simp [State.modRelay]

@[simp] theorem State.modMmu_levels (s : State) (m : MmuId) (f : Mmu → Mmu) :
    (s.modMmu m f).levels = s.levels := by simp [State.modMmu]

@[simp] theorem State.linkDown_levels (s : State) (l : LinkId) (cause newState : Nat) :
    (s.linkDown l cause newState).levels = s.levels := by simp [State.linkDown]

@[simp] theorem State.linkFails_levels (s : State) (l : LinkId) (cause : Nat) :
    (s.linkFails l cause).levels = s.levels := by simp [State.linkFails]

@[simp] theorem State.trainLink_levels (s : State) (l : LinkId) :
    (s.trainLink l).levels = s.levels := by simp [State.trainLink]

@[simp] theorem State.writeEnable_levels (s : State) (l : LinkId) (v : Bool) :
    (s.writeEnable l v).levels = s.levels := by simp [State.writeEnable]

@[simp] theorem State.writeRole_levels (s : State) (l : LinkId) (v : Nat) :
    (s.writeRole l v).1.levels = s.levels := by simp [State.writeRole]

@[simp] theorem State.writeDeviceId_levels (s : State) (v : Nat) :
    (s.writeDeviceId v).1.levels = s.levels := by simp [State.writeDeviceId]

@[simp] theorem State.enableKey_levels (s : State) (k : BitVec 12) :
    (s.enableKey k).1.levels = s.levels := by simp [State.enableKey]

@[simp] theorem State.disableKey_levels (s : State) (k : BitVec 12) :
    (s.disableKey k).levels = s.levels := by simp [State.disableKey]

@[simp] theorem State.writeStepWindow_levels (s : State) (v : Nat) :
    (s.writeStepWindow v).1.levels = s.levels := by simp [State.writeStepWindow]

@[simp] theorem State.physWrite_levels (s : State) (pa : Nat) (bytes : List Byte) (realm : Bool) (by_ : Die) :
    (s.physWrite pa bytes realm by_).levels = s.levels := by simp [State.physWrite]

@[simp] theorem State.dramWrite_levels (s : State) (t : LineTag) (data : LineData) (poison : Bool) :
    (s.dramWrite t data poison).levels = s.levels := by simp [State.dramWrite]

@[simp] theorem State.freshNat_levels (s : State) :
    s.freshNat.1.levels = s.levels := by simp [State.freshNat]

@[simp] theorem State.freshDraw_levels (s : State) :
    s.freshDraw.1.levels = s.levels := by simp [State.freshDraw]

@[simp] theorem State.prRespStore_levels (s : State) (m : MmuId) (v : U64) :
    (s.prRespStore m v).levels = s.levels := by simp [State.prRespStore]

@[simp] theorem State.writeWindow_levels (s : State) (w : Nat) (high : Bool) (v : Nat) :
    (s.writeWindow w high v).levels = s.levels := by simp [State.writeWindow]

@[simp] theorem State.powerRecord_levels (s : State) (kind count detail : Nat) :
    (s.powerRecord kind count detail).levels = s.levels := by simp [State.powerRecord]

@[simp] theorem State.limitedRecord_levels (s : State) (kind die count detail : Nat) :
    (s.limitedRecord kind die count detail).1.levels = s.levels := by simp [State.limitedRecord, ite_levels, ite_fst]

@[simp] theorem State.showCeil_levels (s : State) :
    s.showCeil.levels = s.levels := by simp [State.showCeil, foldl_levels]

@[simp] theorem State.setOp_levels (s : State) (die op : Nat) :
    (s.setOp die op).levels = s.levels := by simp [State.setOp]

@[simp] theorem State.evaluate_levels (s : State) :
    s.evaluate.levels = s.levels := by simp [State.evaluate, foldl_levels]

@[simp] theorem State.writePowerCap_levels (s : State) (v : Nat) :
    (s.writePowerCap v).1.levels = s.levels := by simp [State.writePowerCap, ite_levels, ite_fst]

@[simp] theorem State.setJob_levels (s : State) (j : Nat) (r : JobRecord) :
    (s.setJob j r).levels = s.levels := by simp [State.setJob]

@[simp] theorem State.openJob_levels (s : State) (j : Nat) :
    (s.openJob j).1.levels = s.levels := by simp [State.openJob, ite_levels, ite_fst]

@[simp] theorem State.closeJob_levels (s : State) (j : Nat) :
    (s.closeJob j).levels = s.levels := by simp [State.closeJob, ite_levels]

@[simp] theorem State.trimJobs_levels (s : State) :
    s.trimJobs.levels = s.levels := by simp [State.trimJobs]

@[simp] theorem State.carrierWrite_levels (s : State) (off : Nat) (b : List Byte) :
    (s.carrierWrite off b).levels = s.levels := by simp [State.carrierWrite]

@[simp] theorem State.storeWrite_levels (s : State) (off : Nat) (b : List Byte) :
    (s.storeWrite off b).levels = s.levels := by simp [State.storeWrite]

@[simp] theorem State.writeRipen_levels (s : State) :
    s.writeRipen.levels = s.levels := by
  unfold State.writeRipen
  split <;> simp

@[simp] theorem State.loadRipen_levels (s : State) :
    s.loadRipen.levels = s.levels := by
  unfold State.loadRipen
  (repeat' split) <;> simp [foldl_levels]

@[simp] theorem State.ripenRates_levels (s : State) (die : Nat) (l : List Nat) : (s.ripenRates die l).levels = s.levels := by
  induction l generalizing s with
  | nil => rfl
  | cons r rest ih => simp [State.ripenRates, ite_levels, ih]

@[simp] theorem State.ripenDie_levels (s : State) (r : RipenReading) : (s.ripenDie r).1.levels = s.levels := by
  simp [State.ripenDie, ite_levels, ite_fst]

@[simp] theorem State.ripen_levels (s : State) (readings : List RipenReading) : (s.ripen readings).levels = s.levels := by
  unfold State.ripen
  refine ite_state_levels_of (State.modPow_levels rfl) ?_
  have h := foldl_fst_levels (fun (acc : State × Bool) r => let (s, b) := acc.1.ripenDie r; (s, acc.2 || b))
    (fun acc r => State.ripenDie_levels ..) readings (s, false)
  exact ite_state_levels_of ((State.writeRipen_levels ..).trans ((State.modPow_levels rfl).trans h)) h

@[simp] theorem State.writeConfig_levels (s : State) (pool uniform gen : Nat) :
    (s.writeConfig pool uniform gen).levels = s.levels := by
  unfold State.writeConfig
  split <;> simp

@[simp] theorem State.setPart_levels (s : State) (i : Fin 9) (b : IdMem) :
    (s.setPart i b).levels = s.levels := by simp [State.setPart]

@[simp] theorem State.darken_levels (s : State) (n : Nat) (newState : Nat) :
    (s.darken n newState).levels = s.levels := by simp [State.darken, foldl_levels]

@[simp] theorem State.lightLaser_levels (s : State) (n : Fin 4) :
    (s.lightLaser n).levels = s.levels := by simp [State.lightLaser, ite_levels, foldl_levels]

@[simp] theorem State.readPart_levels (s : State) (i : Fin 9) :
    (s.readPart i).levels = s.levels := by simp [State.readPart, ite_levels]

@[simp] theorem State.readParts_levels (s : State) :
    s.readParts.levels = s.levels := by simp [State.readParts, ite_levels, foldl_levels]

@[simp] theorem State.drainCombining_levels (s : State) :
    s.drainCombining.levels = s.levels := by simp [State.drainCombining, foldl_levels]

@[simp] theorem State.writeBackAll_levels (s : State) :
    s.writeBackAll.levels = s.levels := by simp [State.writeBackAll, foldl_levels]

@[simp] theorem State.loadObjects_levels (s : State) :
    s.loadObjects.levels = s.levels := by
  simp only [State.loadObjects]
  (repeat' split) <;> simp

@[simp] theorem State.takeLatch_levels (s : State) :
    s.takeLatch.levels = s.levels := by
  unfold State.takeLatch
  split <;> simp

@[simp] theorem State.initMemory_levels (s : State) :
    s.initMemory.levels = s.levels := by
  simp only [State.initMemory]
  split <;> simp [ite_levels]

@[simp] theorem State.zeroDram_levels (s : State) :
    s.zeroDram.levels = s.levels := by simp [State.zeroDram]

@[simp] theorem State.finishBoot_levels (s : State) (ripen : Option (List RipenReading)) :
    (s.finishBoot ripen).levels = s.levels := by
  unfold State.finishBoot
  (repeat' split) <;> simp

@[simp] theorem State.bringDies_levels (s : State) (trained : List ConnId) :
    (s.bringDies trained).levels = s.levels := by simp [State.bringDies, ite_levels, foldl_levels]

@[simp] theorem State.stopBoot_levels (s : State) (state cause : Nat) :
    (s.stopBoot state cause).levels = s.levels := by simp [State.stopBoot]

@[simp] theorem State.readJunctions_levels (s : State) (l : List (Die × Int)) :
    (s.readJunctions l).levels = s.levels := by simp [State.readJunctions, foldl_levels]

@[simp] theorem State.leaveBringUp_levels (s : State) (r : BootReading) : (s.leaveBringUp r).levels = s.levels := by
  unfold State.leaveBringUp
  rw [State.finishBoot_levels, State.readJunctions_levels]
  rfl

@[simp] theorem State.serviceRails_levels (s : State) :
    s.serviceRails.levels = s.levels := by simp [State.serviceRails]

@[simp] theorem State.bootCommon_levels (s : State) (kind : Nat) :
    (s.bootCommon kind).levels = s.levels := by simp [State.bootCommon]

@[simp] theorem State.raiseFatal_levels (s : State) (fatal : Bool) :
    (s.raiseFatal fatal).levels = s.levels := by
  unfold State.raiseFatal
  (repeat' split) <;> simp

@[simp] theorem State.endTransfer_levels (s : State) (p : Path → Bool) :
    (s.endTransfer p).levels = s.levels := by
  unfold State.endTransfer
  (repeat' split) <;> simp

@[simp] theorem State.showSessions_levels (s : State) :
    s.showSessions.levels = s.levels := by simp [State.showSessions]

@[simp] theorem State.closeSessions_levels (s : State) (p : Session → Bool) :
    (s.closeSessions p).levels = s.levels := by simp [State.closeSessions, foldl_levels]

@[simp] theorem State.restartController_levels (s : State) : s.restartController.levels = s.levels := by
  unfold State.restartController
  refine ite_state_levels_of rfl ?_
  rw [State.setObjAt_levels]
  exact State.closeSessions_levels s _

@[simp] theorem State.requestBringUp_levels (s : State) (v : Bool) :
    (s.requestBringUp v).1.levels = s.levels := by simp [State.requestBringUp, ite_levels, ite_fst]

@[simp] theorem State.prepareRemoval_levels (s : State) (v : Bool) :
    (s.prepareRemoval v).1.levels = s.levels := by simp [State.prepareRemoval, ite_levels, ite_fst, foldl_levels]

@[simp] theorem State.modMgmt_levels (s : State) (f : MgmtState → MgmtState) :
    (s.modMgmt f).levels = s.levels := by simp [State.modMgmt]

@[simp] theorem State.answer_levels (s : State) (status : Nat) (value : Nat) (data : List Byte) :
    (s.answer status value data).levels = s.levels := by simp [State.answer]

@[simp] theorem State.beginTransfer_levels (s : State) (p : Path) (v : Nat) :
    (s.beginTransfer p v).1.levels = s.levels := by simp [State.beginTransfer, ite_levels, ite_fst]

@[simp] theorem State.writeTransfer_levels (s : State) (p : Path) (off : Nat) (data : List Byte) :
    (s.writeTransfer p off data).1.levels = s.levels := by
  unfold State.writeTransfer
  (repeat' split) <;> simp [ite_levels, ite_fst]

@[simp] theorem State.commitTransfer_levels (s : State) (p : Path) (v : Bool) :
    (s.commitTransfer p v).1.levels = s.levels := by
  unfold State.commitTransfer
  (repeat' split) <;> simp [ite_levels, ite_fst]

@[simp] theorem State.modSvc_levels (s : State) (f : SvcState → SvcState) :
    (s.modSvc f).levels = s.levels := by simp [State.modSvc]

@[simp] theorem State.createRealm_levels (s : State) :
    s.createRealm.1.levels = s.levels := by simp [State.createRealm, ite_levels, ite_fst]

@[simp] theorem State.ownRead_levels (s : State) (pa n : Nat) :
    (s.ownRead pa n).1.levels = s.levels := by simp [State.ownRead]

@[simp] theorem State.doLoadKey_levels (s : State) (r blob : Nat) : (State.doLoadKey r blob s).1.levels = s.levels := by
  unfold State.doLoadKey
  dsimp only
  split <;> simp

theorem State.whenOpen_levels {s : State} {pa n : Nat} {task : RealmTask} {f : State → State × Nat} (hf : (f s).1.levels = s.levels) :
    (s.whenOpen pa n task f).1.levels = s.levels := by
  unfold State.whenOpen
  exact ite_levels_of hf rfl

@[simp] theorem State.loadKey_levels (s : State) : s.loadKey.1.levels = s.levels :=
  ite_levels_of rfl (ite_levels_of rfl (State.whenOpen_levels (State.doLoadKey_levels ..)))

@[simp] theorem State.dropKey_levels (s : State) :
    s.dropKey.1.levels = s.levels := by simp [State.dropKey, ite_levels, ite_fst]

@[simp] theorem State.discardLines_levels (s : State) (p : LineTag → Bool) :
    (s.discardLines p).levels = s.levels := by simp [State.discardLines]

@[simp] theorem State.destroyRealm_levels (s : State) :
    s.destroyRealm.1.levels = s.levels := by simp [State.destroyRealm, ite_levels, ite_fst]

@[simp] theorem State.scrub_levels (s : State) :
    s.scrub.1.levels = s.levels := by simp [State.scrub, ite_levels, ite_fst, foldl_levels]

@[simp] theorem State.setPending_levels (s : State) (addr v : Nat) :
    (s.setPending addr v).levels = s.levels := by simp [State.setPending]

@[simp] theorem State.applyGroup_levels (s : State) (g : Fin 3) :
    (s.applyGroup g).levels = s.levels := by simp [State.applyGroup, ite_levels]

@[simp] theorem State.discardGroup_levels (s : State) (g : Fin 3) :
    (s.discardGroup g).levels = s.levels := by simp [State.discardGroup, foldl_levels]

@[simp] theorem State.defaultGroup_levels (s : State) (g : Fin 3) :
    (s.defaultGroup g).levels = s.levels := by simp [State.defaultGroup, foldl_levels]

@[simp] theorem State.takeEffect_levels (s : State) (g : Fin 3) (v : List Nat) :
    (s.takeEffect g v).levels = s.levels := by simp [State.takeEffect, foldl_levels]

@[simp] theorem State.writeMinGeneration_levels (s : State) (v : Nat) :
    (s.writeMinGeneration v).1.levels = s.levels := by simp [State.writeMinGeneration, ite_levels, ite_fst]

@[simp] theorem State.writeChannel_levels (s : State) (c : Fin 16) (v : Nat) :
    (s.writeChannel c v).1.levels = s.levels := by simp [State.writeChannel, ite_levels, ite_fst]

@[simp] theorem State.writeApply_levels (s : State) (g : Fin 3) (v : Nat) :
    (s.writeApply g v).1.levels = s.levels := by
  unfold State.writeApply
  split <;> simp

@[simp] theorem State.requestReset_levels (s : State) (v : Nat) :
    (s.requestReset v).1.levels = s.levels := by
  unfold State.requestReset
  split <;> simp

@[simp] theorem State.continueBoot_levels (s : State) (v : Nat) :
    (s.continueBoot v).1.levels = s.levels := by simp [State.continueBoot, ite_levels, ite_fst]

@[simp] theorem State.writeBytesObj_levels (s : State) (p : Path) (r : ObjRow) (addr off : Nat) (data : List Byte) :
    (s.writeBytesObj p r addr off data).1.levels = s.levels := by
  unfold State.writeBytesObj
  (repeat' split) <;> simp [ite_levels, ite_fst]

@[simp] theorem State.subscribe_levels (s : State) (p : Path) (mask : Byte) :
    (s.subscribe p mask).1.levels = s.levels := by
  unfold State.subscribe
  (repeat' split) <;> simp

@[simp] theorem State.answerOp_levels (s : State) (r : OpReply) :
    (s.answerOp r).levels = s.levels := by simp [State.answerOp]

@[simp] theorem State.transmit_levels (s : State) (f : Frame) :
    (s.transmit f).levels = s.levels := by simp [State.transmit, ite_levels]

theorem State.coreRead_levels {s t : State} {asid va n : Nat} {b : List Byte} (h : s.coreRead asid va n = some (t, b)) : t.levels = s.levels := by
  obtain ⟨l, -, h⟩ := Option.map_eq_some_iff.mp h
  exact fst_levels (s := s) (by simp) h

@[simp] theorem State.coreWrite_levels (s : State) (asid va : Nat) (b : List Byte) : (s.coreWrite asid va b).levels = s.levels := by
  unfold State.coreWrite
  rw [foldl_fst_levels _ fun acc x => ?_]
  dsimp only
  split <;> simp

@[simp] theorem State.ringReply_levels (s : State) (c : Fin 16) (b : List Byte) :
    (s.ringReply c b).levels = s.levels := by simp [State.ringReply, ite_levels]

@[simp] theorem State.sendOn_levels (s : State) (p : SessionPath) (b : List Byte) :
    (s.sendOn p b).levels = s.levels := by
  unfold State.sendOn
  split <;> simp

@[simp] theorem State.sendPlain_levels (s : State) (p : SessionPath) (ty session : Nat) (payload : List Byte) :
    (s.sendPlain p ty session payload).levels = s.levels := by simp [State.sendPlain]

@[simp] theorem State.modSession_levels (s : State) (num : Nat) (f : Session → Session) :
    (s.modSession num f).levels = s.levels := by simp [State.modSession]

@[simp] theorem State.sendProtected_levels (s : State) (x : Session) (ty : Nat) (plain : List Byte) :
    (s.sendProtected x ty plain).levels = s.levels := by simp [State.sendProtected]

@[simp] theorem State.reject_levels (s : State) (p : SessionPath) (session reason : Nat) :
    (s.reject p session reason).levels = s.levels := by simp [State.reject]

@[simp] theorem State.acceptInit_levels (s : State) (p : SessionPath) (b : List Byte) :
    (s.acceptInit p b).levels = s.levels := by simp [State.acceptInit]

@[simp] theorem State.init_levels (s : State) (p : SessionPath) (d : Datagram) :
    (s.init p d).levels = s.levels := by
  unfold State.init
  split <;> simp

@[simp] theorem State.unprotect_levels (s : State) (p : SessionPath) (d : Datagram) :
    (s.unprotect p d).1.levels = s.levels := by
  simp only [State.unprotect]
  (repeat' split) <;> simp

@[simp] theorem State.finishSession_levels (s : State) (p : SessionPath) (d : Datagram) :
    (s.finishSession p d).levels = s.levels := by
  unfold State.finishSession
  (repeat' split) <;> simp [ite_levels]

@[simp] theorem State.announce_levels (s : State) (p : SessionPath) (_d : Datagram) :
    (s.announce p _d).levels = s.levels := by simp [State.announce]

@[simp] theorem State.sendEvents_levels (s : State) :
    s.sendEvents.levels = s.levels := by simp [State.sendEvents, foldl_levels]

@[simp] theorem State.mailWrite_levels (s : State) (hart word : Nat) (b : List Byte) :
    (s.mailWrite hart word b).levels = s.levels := by simp [State.mailWrite]

@[simp] theorem State.busError_levels (s : State) :
    s.busError.levels = s.levels := by simp [State.busError]

@[simp] theorem State.debugRead_levels (s : State) (line : Option LineTag) (word : Fin 16) :
    (s.debugRead line word).levels = s.levels := by
  unfold State.debugRead
  (repeat' split) <;> simp

@[simp] theorem State.idle_levels (s : State) :
    s.idle.levels = s.levels := by simp [State.idle]

end Sys2Proof.Machine
end


section
/-! What lowers no one-way counter (R704) and keeps the power manager's levels within their ranges (R624, R626, R629, R630). -/

namespace Sys2Proof.Machine

/-- A change that lowers no one-way counter and keeps the power manager's levels in their ranges. -/
structure State.keeps (s t : State) : Prop where
  oneWay : ∀ i, s.oneWay i ≤ t.oneWay i
  power : s.powerKept → t.powerKept

theorem State.powerKept_congr {s t : State} (hthr : t.thr = s.thr) (hpow : t.pow.levels = s.pow.levels) (hs : s.powerKept) : t.powerKept := by
  obtain ⟨hceil, htherm, hover, hunder, hcool, hhistory⟩ := PowerLevels.mk.inj hpow
  obtain ⟨h1, h2, h3, h4, h5, h6, h7, h8, h9⟩ := hs
  constructor <;> simp only [hceil, hthr, hover, hunder, hcool, hhistory, PowerState.therm, htherm] <;> assumption

namespace State.keeps

theorem of_levels {s t : State} (h : t.levels = s.levels) : s.keeps t := by
  obtain ⟨hcounters, hthr, hpow⟩ := Levels.mk.inj h
  exact ⟨fun i => by rw [State.oneWay, State.oneWay, hcounters], State.powerKept_congr hthr hpow⟩

theorem refl (s : State) : s.keeps s := of_levels rfl

theorem trans {s t u : State} (hst : s.keeps t) (htu : t.keeps u) : s.keeps u :=
  ⟨fun i => (hst.oneWay i).trans (htu.oneWay i), fun h => htu.power (hst.power h)⟩

theorem then_levels {s t u : State} (hst : s.keeps t) (h : u.levels = t.levels) : s.keeps u := hst.trans (of_levels h)

theorem after_levels {s t u : State} (h : t.levels = s.levels) (htu : t.keeps u) : s.keeps u := (of_levels h).trans htu

theorem levels_then {s t u : State} (h : u.levels = t.levels) (hst : s.keeps t) : s.keeps u := hst.then_levels h

theorem ite {c : Prop} [Decidable c] {s t u : State} (ht : s.keeps t) (hu : s.keeps u) : s.keeps (if c then t else u) := by
  split
  · exact ht
  · exact hu

theorem ite_fst {α : Type} {c : Prop} [Decidable c] {s : State} {r u : State × α} (hr : s.keeps r.1) (hu : s.keeps u.1) :
    s.keeps (if c then r else u).1 := by
  split
  · exact hr
  · exact hu

theorem foldl {α : Type} {f : State → α → State} (hf : ∀ (s : State) (a : α), s.keeps (f s a)) (l : List α) (s : State) : s.keeps (l.foldl f s) := by
  induction l generalizing s with
  | nil => exact refl s
  | cons a l ih => exact (hf s a).trans (ih _)

theorem fst {α : Type} {r : State × α} {s t : State} {a : α} (h : s.keeps r.1) (hr : r = (t, a)) : s.keeps t := by
  rw [hr] at h; exact h

/-- The levels of a power manager that has just come up, over counters that are kept. -/
theorem of_start {s t : State} (h : t.levels = ⟨s.boot.counters, {}, PowerState.levels {}⟩) : s.keeps t := by
  obtain ⟨hcounters, hthr, hpow⟩ := Levels.mk.inj h
  obtain ⟨hceil, htherm, hover, hunder, hcool, hhistory⟩ := PowerLevels.mk.inj hpow
  exact ⟨fun i => by rw [State.oneWay, State.oneWay, hcounters],
    fun _ => State.powerKept_of_levelsAtStart ⟨hceil, htherm, hthr, hover, hunder, hcool, hhistory⟩⟩

end State.keeps

/-- Fractions that stay within 240 of 256 (R630). -/
structure Throttles.within (t : Throttles) : Prop where
  common : t.common ≤ 240
  rail : ∀ k, Table.get 0 t.rail k ≤ 240
  therm : ∀ d, Table.get 0 t.therm d ≤ 240

theorem State.keeps_withThr {s : State} {d : Dev} (h : s.thr.within → d.thr.within) : s.keeps { s with toDev := d } where
  oneWay _ := Nat.le_refl _
  power hs := by
    obtain ⟨hcommon, hrail, htherm⟩ := h ⟨hs.common, hs.rail, hs.therm⟩
    exact ⟨hs.moduleCeil, hs.thermCeil, hcommon, hrail, htherm, hs.overRun, hs.underRun, hs.coolRun, hs.history⟩

theorem State.keeps.modThr {s t : State} {f : Throttles → Throttles} (ht : s.keeps t) (h : t.thr.within → (f t.thr).within) :
    s.keeps (t.modThr f) :=
  ht.trans (State.keeps_withThr fun hs => ⟨(h hs).common, (h hs).rail, (h hs).therm⟩)

/-- The ranges of the power manager's levels. -/
structure PowerState.within (p : PowerState) : Prop where
  moduleCeil : p.moduleCeil ≤ 7
  thermCeil : ∀ d, p.therm d ≤ 7
  overRun : p.overRun < 50
  underRun : p.underRun < 1000
  coolRun : ∀ d, Table.get 0 p.coolRun d < 10
  history : p.history.length ≤ 1000

theorem State.keeps.modPow {s t : State} {f : PowerState → PowerState} (ht : s.keeps t) (h : t.pow.within → (f t.pow).within) :
    s.keeps (t.modPow f) where
  oneWay i := ht.oneWay i
  power hs := by
    replace hs := ht.power hs
    obtain ⟨hceil, htherm, hover, hunder, hcool, hhistory⟩ := h ⟨hs.moduleCeil, hs.thermCeil, hs.overRun, hs.underRun, hs.coolRun, hs.history⟩
    exact ⟨hceil, htherm, hs.common, hs.rail, hs.therm, hover, hunder, hcool, hhistory⟩

theorem State.raiseCounter_keeps (s : State) (i : Fin 3) (v : Nat) : s.keeps (s.raiseCounter i v) where
  oneWay j := by
    simp only [State.oneWay, State.raiseCounter, State.modBoot, Fin.getElem_fin, Vector.getElem_set]
    split
    · next h => simp [h]
    · exact Nat.le_refl _
  power := State.powerKept_congr rfl rfl

theorem State.powerOff_keeps (s : State) : s.keeps s.powerOff := .of_start rfl

theorem State.shutDown_keeps (s : State) (c : Shutdown) : s.keeps (s.shutDown c) := .after_levels (State.modPow_levels rfl) (State.powerOff_keeps _)

theorem State.trip_keeps (s : State) (die : Die) : s.keeps (s.trip die) := (State.shutDown_keeps s _).then_levels (State.modPow_levels rfl)

theorem State.beginTree_keeps (s : State) : s.keeps s.beginTree := by
  unfold State.beginTree
  exact .ite (.of_levels rfl) ((State.raiseCounter_keeps ..).then_levels (State.modBoot_levels rfl))

theorem State.signingTree_keeps (s : State) : s.keeps s.signingTree.1 := .ite s.beginTree_keeps (.refl s)

theorem State.signReport_keeps (s : State) (kind realm : Nat) (nonce exchange : List Byte) : s.keeps (s.signReport kind realm nonce exchange).1 := by
  unfold State.signReport
  split
  · exact .refl s
  split
  · next heq => exact s.signingTree_keeps.fst heq
  · next heq => exact (s.signingTree_keeps.fst heq).then_levels (State.modBoot_levels rfl)

theorem State.attest_keeps (s : State) (p : Path) (v : Bool) : s.keeps (s.attest p v).1 := by
  unfold State.attest
  refine .ite_fst (.refl s) ?_
  dsimp only
  split
  · next heq => exact (State.signReport_keeps ..).fst heq
  · next heq => exact ((State.signReport_keeps ..).fst heq).then_levels (State.modMgmt_levels ..)

theorem State.startImage_keeps (s : State) (f : Firmware) : s.keeps (s.startImage f) :=
  .after_levels (by simp) (State.beginTree_keeps _)

theorem State.bootImage_keeps (s : State) (storeReads : Bool) (trained : List ConnId) : s.keeps (s.bootImage storeReads trained).1 := by
  unfold State.bootImage
  split
  · exact .of_levels (by simp)
  · next f _ => exact (State.startImage_keeps s f).then_levels (by simp)

theorem State.bootCommon_levels' (s : State) (kind : Nat) : (s.bootCommon kind).levels = s.levels := by simp

theorem State.coldBoot_keeps (s : State) (r : BootReading) : s.keeps (s.coldBoot r) := by
  unfold State.coldBoot
  refine s.powerOff_keeps.trans (.after_levels (t := s.powerOff.modPow fun p => { p with
    rails := true, hotSwap := true, scanHold := false, tripWait := false, attention := false }) (State.modPow_levels rfl) ?_)
  dsimp only
  generalize State.modPow _ _ = u
  split
  · exact .of_levels (by simp)
  · next i _ =>
    refine .after_levels (t := (u.modBoot fun x => { x with
      slot := some i, secret := some (secretOf (Config.pufRead r.pufNoise) (u.slotBytes i)) }).loadObjects.loadRipen.bootCommon 2) (by simp) ?_
    refine (State.bootImage_keeps _ r.storeReads r.connTrained).trans ?_
    exact .ite (.refl _) (.ite (.of_levels rfl) (.of_levels (by simp)))

theorem State.coldReset_keeps (s : State) (r : BootReading) : s.keeps (s.coldReset r) := .ite (s.coldBoot_keeps r) (.refl s)

theorem State.warmClear_keeps (s : State) (fatal : Bool) : s.keeps (s.warmClear fatal) := by
  unfold State.warmClear
  refine .after_levels (t := if fatal then s else s.writeBackAll) (ite_state_levels_of rfl (by simp)) ?_
  generalize (if fatal then s else s.writeBackAll) = u
  refine .of_start ?_
  simp [foldl_levels]
  rfl

theorem State.warmReset_keeps (s : State) (fatal : Bool) (trained : List ConnId) : s.keeps (s.warmReset fatal trained) := by
  unfold State.warmReset
  refine .ite (.refl s) ((s.warmClear_keeps fatal).trans (.after_levels (t := (s.warmClear fatal).bootCommon 1) (by simp) ?_))
  dsimp only
  refine .ite (.refl _) (.ite (.of_levels (by simp)) ((State.bootImage_keeps _ true trained).trans ?_))
  exact .ite (.of_levels (by simp)) (.refl _)

theorem State.raiseFloors_keeps (s : State) : s.keeps s.raiseFloors := by
  unfold State.raiseFloors
  have h (u : State) : u.keeps (match u.personality with
      | some r => u.raiseCounter 2 (fieldAt r 4 4)
      | none => u) := by
    split
    · exact State.raiseCounter_keeps ..
    · exact .refl u
  refine .trans ?_ (h _)
  split
  · exact State.raiseCounter_keeps ..
  · exact .refl s

/-- A die's run of cool ticks and its thermal ceiling are set within their ranges (R629). -/
theorem PowerState.within.setDie {p : PowerState} (h : p.within) (die run : Nat) (hrun : run < 10) (ceils : Table Nat)
    (hceils : ∀ d, Table.get 7 ceils d ≤ 7) : PowerState.within { p with coolRun := Table.set 0 p.coolRun die run, thermCeil := ceils } := by
  refine ⟨h.moduleCeil, hceils, h.overRun, h.underRun, fun d => ?_, h.history⟩
  rw [Table.get_set]
  split
  · exact hrun
  · exact h.coolRun d

theorem PowerState.within.setCeil {p : PowerState} (h : p.within) (die n : Nat) (hn : n ≤ 7) (d : Nat) :
    Table.get 7 (Table.set 7 p.thermCeil die n) d ≤ 7 := by
  rw [Table.get_set]
  split
  · exact hn
  · exact h.thermCeil d

theorem Throttles.within.setTherm {t : Throttles} (h : t.within) (die n : Nat) (hn : n ≤ 240) :
    Throttles.within { t with therm := Table.set 0 t.therm die n } := by
  refine ⟨h.common, h.rail, fun d => ?_⟩
  rw [Table.get_set]
  split
  · exact hn
  · exact h.therm d

theorem Throttles.within.setRail {t : Throttles} (h : t.within) (key n : Nat) (hn : n ≤ 240) :
    Throttles.within { t with rail := Table.set 0 t.rail key n } := by
  refine ⟨h.common, fun d => ?_, h.therm⟩
  rw [Table.get_set]
  split
  · exact hn
  · exact h.rail d

theorem State.thermalDie_keeps (s : State) (die : Nat) (tj : Int) : s.keeps (s.thermalDie die tj) := by
  unfold State.thermalDie
  refine .after_levels (State.setObjAt_levels s 0x0B 0x700 die (codeInt 16 tj)) ?_
  generalize s.setObjAt 0x0B 0x700 die (codeInt 16 tj) = s
  refine .ite (.levels_then (State.limitedRecord_levels ..) ?_) ?_
  · have hceil : s.keeps (s.modPow fun p => { p with
        coolRun := Table.set 0 p.coolRun die 0, thermCeil := Table.set 7 p.thermCeil die (s.pow.therm die - 1) }) :=
      .modPow (.refl s) fun h => h.setDie die 0 (by decide) _ (h.setCeil die _ (by have := h.thermCeil die; omega))
    by_cases h0 : s.pow.therm die = 0
    · simp only [h0, if_true] at hceil ⊢
      exact .modThr hceil fun h => h.setTherm die _ (by omega)
    · simp only [h0, if_false]
      exact .levels_then (State.bump_levels ..) hceil
  · dsimp only
    generalize hrun : (if tj ≤ (10 * (s.objAt 0x0B 0x701 0 : Nat) : Int) - 30 then Table.get 0 s.pow.coolRun die + 1 else 0) = run
    have hpow : s.keeps (s.modPow fun p => { p with
        coolRun := Table.set 0 p.coolRun die (if run = 10 then 0 else run),
        thermCeil := if run = 10 && s.pow.therm die < 7 && !s.pow.warning then Table.set 7 p.thermCeil die (s.pow.therm die + 1) else p.thermCeil }) := by
      refine .modPow (.refl s) fun h => h.setDie die _ ?_ _ fun d => ?_
      · have := h.coolRun die
        split at hrun <;> split <;> omega
      · split
        · next hr =>
          simp only [Bool.and_eq_true, decide_eq_true_eq] at hr
          exact h.setCeil die _ (by omega) d
        · exact h.thermCeil d
    exact .ite (.modThr hpow fun h => h.setTherm die 0 (by decide)) hpow

theorem State.thermalTick_keeps (s : State) (r : ThermalReading) : s.keeps (s.thermalTick r) := by
  unfold State.thermalTick
  have hdies (u : State) (l : List (Die × Int)) : u.keeps (l.foldl (fun s x => s.thermalDie x.1.val x.2) u) :=
    .foldl (fun s x => s.thermalDie_keeps ..) l u
  dsimp only
  refine .ite (.levels_then (State.limitedRecord_levels ..) ?_) ?_
  all_goals
    refine .levels_then (State.showCeil_levels _) (.levels_then (State.setObjAt_levels ..) (.levels_then (State.setObjAt_levels ..) ?_))
    exact .after_levels (by simp) (hdies _ _)

end Sys2Proof.Machine
end


section
/-! Sessions, the dictionary and realm control keep the counters and the levels. -/

namespace Sys2Proof.Machine

theorem State.writeKey_levels {s : State} {v : Nat} {f : State → BitVec 12 → State × Nat} (hf : ∀ k, (f s k).1.levels = s.levels) :
    (s.writeKey v f).1.levels = s.levels := by
  unfold State.writeKey
  exact ite_levels_of rfl (hf _)

@[simp] theorem accepted_fst (r : State × Bool) : (accepted r).1 = r.1 := rfl

@[simp] theorem inRange_fst (r : State × Bool) : (inRange r).1 = r.1 := rfl

/-- What a write of an object with an action does to the levels: only an attestation and a raise of the floors change them. -/
theorem State.writeAction_keeps {s : State} {p : Path} {ss idx sub v : Nat} {r : State × Nat} (h : s.writeAction p ss idx sub v = some r) :
    s.keeps r.1 := by
  unfold State.writeAction at h
  split at h
  case h_22 =>
    obtain rfl := Option.some.inj h
    exact .ite_fst s.raiseFloors_keeps (.refl s)
  case h_23 =>
    obtain rfl := Option.some.inj h
    exact s.attest_keeps ..
  case h_7 | h_8 =>
    obtain rfl := Option.some.inj h
    exact .of_levels (State.writeKey_levels fun k => by simp)
  case h_28 =>
    split at h
    · obtain rfl := Option.some.inj h
      exact .of_levels (by simp)
    · split at h
      · obtain rfl := Option.some.inj h
        exact .of_levels (by simp [ite_fst, ite_levels])
      · cases h
  all_goals
    obtain rfl := Option.some.inj h
    exact .of_levels (by simp [ite_fst, ite_levels])

theorem State.getD_writeAction_keeps (s : State) (p : Path) (ss idx sub v addr : Nat) :
    s.keeps ((s.writeAction p ss idx sub v).getD (s.setObj addr v, 0)).1 := by
  cases h : s.writeAction p ss idx sub v with
  | none => exact .of_levels (State.setObj_levels ..)
  | some r => exact State.writeAction_keeps h

theorem State.performWrite_keeps (s : State) (p : Path) (ours : Bool) (r : ObjRow) (addr value : Nat) (data : List Byte) :
    s.keeps (s.performWrite p ours r addr value data).1 := by
  have hput := s.getD_writeAction_keeps p
  unfold State.performWrite
  refine .ite_fst (.refl s) ?_
  split
  · exact .refl s
  · exact .ite_fst (.ite (.of_levels (State.setObj_levels ..)) (.refl s))
      (.ite_fst (.refl s) (.ite_fst (.refl s) (.ite_fst (.refl s) (hput ..))))
  · exact .ite_fst (.refl s) (.ite_fst (.refl s) (.of_levels (State.setPending_levels ..)))
  · exact .ite_fst (.of_levels (State.writeBytesObj_levels ..)) (.ite_fst (.refl s) (.ite_fst (.refl s) (hput ..)))

theorem State.writeObject_keeps (s : State) (p : Path) (addr value : Nat) (data : List Byte) : s.keeps (s.writeObject p addr value data).1 := by
  unfold State.writeObject
  split
  · exact .refl s
  · exact .ite_fst (.refl s) (.ite_fst (.refl s) (State.performWrite_keeps ..))

theorem State.performEntry'_keeps (s : State) (p : Path) (e : Nat) (data : List Byte) : s.keeps (s.performEntry' p e data).1 := by
  unfold State.performEntry'
  dsimp only
  split
  case h_2 => exact .ite_fst (.refl s) (s.writeObject_keeps ..)
  case h_6 => exact .of_levels (State.subscribe_levels ..)
  all_goals exact .refl s

theorem State.performEntries_keeps (s : State) (p : Path) (stop : Bool) (limit : Nat) (es : List Nat) (failed : Bool) (data : List Byte) :
    s.keeps (s.performEntries p stop limit es failed data).1 := by
  induction es generalizing s limit failed data with
  | nil => exact .refl s
  | cons e es ih =>
    unfold State.performEntries
    exact .ite_fst (ih ..) ((s.performEntry'_keeps p e data).trans (ih ..))

theorem State.performRequest_keeps (s : State) (p : Path) (limit : Nat) (b : List Byte) : s.keeps (s.performRequest p limit b).1 := by
  unfold State.performRequest
  exact .ite_fst (.refl s) (s.performEntries_keeps ..)

theorem State.request_keeps (s : State) (p : SessionPath) (d : Datagram) : s.keeps (s.request p d) := by
  unfold State.request
  split
  · next heq => exact .of_levels (fst_levels (State.unprotect_levels ..) heq)
  · next heq =>
    refine .after_levels (fst_levels (State.unprotect_levels ..) heq) ?_
    dsimp only
    split
    · exact .of_levels (State.sendProtected_levels ..)
    · refine .ite (.of_levels (State.bump_levels ..)) ?_
      split
      · next heq => exact (State.performRequest_keeps ..).fst heq
      · next heq => exact .levels_then (State.sendProtected_levels ..) (.levels_then (State.modSession_levels ..) ((State.performRequest_keeps ..).fst heq))

theorem State.datagram_keeps {s : State} {p : SessionPath} {b : List Byte} {ty : Nat} {f : State → Datagram → State} (hf : ∀ d, s.keeps (f s d)) :
    s.keeps (s.datagram p b ty f) := by
  unfold State.datagram
  split
  · exact .ite (hf _) (.refl s)
  · exact .refl s

/-- A CLOSE that its tag and its sequence let in. -/
theorem State.closeBy_levels (s : State) (p : SessionPath) (d : Datagram) :
    (match s.unprotect p d with
      | (s, some (x, _)) => s.closeSessions (fun y => y.num = x.num)
      | (s, none) => s).levels = s.levels := by
  split
  · next heq => exact (State.closeSessions_levels ..).trans (fst_levels (State.unprotect_levels ..) heq)
  · next heq => exact fst_levels (State.unprotect_levels ..) heq

theorem State.ringDatagram_keeps (s : State) (c : Fin 16) (b : List Byte) : s.keeps (s.ringDatagram c b) := by
  unfold State.ringDatagram
  dsimp only
  split
  · exact .refl s
  · split
    · exact .of_levels (State.init_levels ..)
    · exact .of_levels (State.finishSession_levels ..)
    · exact .of_levels (State.announce_levels ..)
    · exact s.request_keeps ..
    · exact .of_levels (State.unprotect_levels ..)
    · exact .of_levels (State.closeBy_levels ..)
    · exact .refl s

theorem State.submitMailbox_keeps (s : State) (hart : Fin 192) : s.keeps (s.submitMailbox hart) := by
  unfold State.submitMailbox
  refine .ite (.refl s) (.ite (.of_levels (State.modMgmt_levels ..)) ?_)
  dsimp only
  refine .levels_then (State.modMgmt_levels ..) (.levels_then (State.mailWrite_levels ..) (.levels_then (State.mailWrite_levels ..)
    (.levels_then (State.mailWrite_levels ..) (s.performEntries_keeps ..))))

theorem State.writePlainObject_keeps (s : State) (addr v : Nat) (data : List Byte) : s.keeps (s.writePlainObject addr v data) := by
  unfold State.writePlainObject
  split
  · exact .refl s
  · exact s.performWrite_keeps ..

theorem State.writeRegister_keeps (s : State) (target : RegTarget) (v : U64) : s.keeps (s.writeRegister target v) := by
  unfold State.writeRegister
  split
  case h_12 => exact .ite (s.submitMailbox_keeps _) (.of_levels (State.modMgmt_levels ..))
  case h_13 | h_14 => exact s.writePlainObject_keeps ..
  case h_15 | h_16 | h_17 => exact .refl s
  all_goals exact .of_levels (by simp)

theorem State.doQuote_keeps (s : State) (r report at_ : Nat) : s.keeps (State.doQuote r report at_ s).1 := by
  unfold State.doQuote
  refine .after_levels (State.ownRead_levels s at_ 48) ?_
  dsimp only
  split
  · next heq => exact (State.signReport_keeps ..).fst heq
  · next heq => exact .levels_then (State.modRealm_levels ..) (.levels_then (State.physWrite_levels ..) ((State.signReport_keeps ..).fst heq))

theorem State.quoteRealm_keeps (s : State) : s.keeps s.quoteRealm.1 := by
  unfold State.quoteRealm State.whenOpen
  exact .ite_fst (.refl s) (.ite_fst (.refl s) (.ite_fst (s.doQuote_keeps ..) (.of_levels (State.modSvc_levels ..))))

theorem State.realmCommand_keeps {s : State} {f : State → State × Nat} (hf : s.keeps (f s).1) : s.keeps (s.realmCommand f) := by
  unfold State.realmCommand
  exact .ite (.refl s) (.levels_then (State.modSvc_levels ..) hf)

theorem State.resumeRealm_keeps (s : State) : s.keeps s.resumeRealm := by
  unfold State.resumeRealm
  dsimp only
  split
  · exact .refl s
  · exact .ite (.levels_then (State.modSvc_levels ..) (s.doQuote_keeps ..)) (.refl s)
  · exact .ite (.levels_then (State.modSvc_levels ..) (.of_levels (State.doLoadKey_levels ..))) (.refl s)

end Sys2Proof.Machine
end


section
/-! Every command keeps the counters and the levels, and so does every step. -/

namespace Sys2Proof.Machine

/-- A command that never lowers a one-way counter and keeps the power levels in their ranges. -/
def keepsAll (f : State → Result) : Prop := ∀ s t, f s = .next t → s.keeps t

theorem keepsAll_next {f : State → State} (h : ∀ s : State, s.keeps (f s)) : keepsAll (fun s => .next (f s)) := by
  rintro s _ ⟨⟩
  exact h s

theorem keepsAll_levels {f : State → State} (h : ∀ s, (f s).levels = s.levels) : keepsAll (fun s => .next (f s)) :=
  keepsAll_next fun s => .of_levels (h s)

theorem keepsAll_run {f : Dev → Dev} (h : ∀ s, (f s).thr = s.thr) : keepsAll (fun s => s.run f) :=
  keepsAll_levels fun s => State.levels_withDev (h s.toDev)

theorem execWindowEnd_keeps (counts : List StepCount) : keepsAll (execWindowEnd counts) := by
  refine keepsAll_next fun s => State.keeps_withThr fun h => ?_
  dsimp only
  have hthr : ((List.finRange 20).foldl (fun (s' : Dev) d => (s'.countWithheld (countOf counts d)).publishRate s.windows.stop.toNat
      (max (s.windows.stop.toNat - s.windows.start.toNat) 1) (countOf counts d)) (s.toDev.advance s.windows.stop)).thr = s.thr := by
    rw [foldl_thr _ (fun u d => by simp), Dev.advance_thr]
  rw [hthr]
  exact ⟨h.common, h.rail, h.therm⟩

/-- A run that starts again at its length stays below it. -/
theorem run_lt {c : Prop} [Decidable c] {n len : Nat} (h : n < len) :
    (if (if c then n + 1 else 0) = len then 0 else if c then n + 1 else 0) < len := by
  by_cases hc : c
  · simp only [hc, if_true]
    split <;> omega
  · simp only [hc, if_false]
    split <;> omega

/-- A ceiling that falls, or rises below its top, stays within it. -/
theorem ceil_le {c d : Prop} [Decidable c] [Decidable d] {n top : Nat} (h : n ≤ top) (hd : d → n < top) :
    (if c then n - 1 else if d then n + 1 else n) ≤ top := by
  split
  · omega
  · split
    · next hraise => exact hd hraise
    · exact h

theorem execCapWindowEnd_keeps (watts : Nat) (throttle : Fin 241) : keepsAll (execCapWindowEnd watts throttle) := by
  refine keepsAll_next fun s => .ite (.refl s) ?_
  dsimp only
  refine .levels_then (State.showCeil_levels _) (.levels_then (ite_state_levels_of (State.setObjAt_levels ..) rfl)
    (.levels_then (State.setObjAt_levels ..) (.levels_then (ite_state_levels_of (State.bump_levels ..) rfl) (.modThr (.modPow ?_ ?_) ?_))))
  · exact .of_levels (State.advance_levels ..)
  · intro h
    have hover := h.overRun
    have hunder := h.underRun
    have hceil := h.moduleCeil
    refine ⟨?_, h.thermCeil, ?_, ?_, h.coolRun, List.length_take_le ..⟩
    · refine ceil_le hceil fun hraise => ?_
      simp only [Bool.and_eq_true, decide_eq_true_eq] at hraise
      exact hraise.1.2
    · exact run_lt hover
    · exact run_lt hunder
  · exact fun h => ⟨by have := throttle.isLt; show throttle.val ≤ 240; omega, h.rail, h.therm⟩

theorem execRailWindowEnd_keeps (die : Die) (short : Bool) (amps steps : Nat) (throttle : Fin 241) :
    keepsAll (execRailWindowEnd die short amps steps throttle) := by
  refine keepsAll_next fun s => .ite (.refl s) ?_
  dsimp only
  generalize hk : 2 * die.val + b2n short = key
  generalize (if Table.get 0 s.thr.rail key = 0 then 0 else steps) = taken
  generalize hv : (if railLimit die.val short < amps then max 1 throttle.val else 0) = v
  have hle : v ≤ 240 := by have := throttle.isLt; split at hv <;> omega
  have hthr : s.keeps (((s.bump 0x0B 0x310 die.val taken).modPow (fun p => { p with
      railSince := Table.set 0 p.railSince die.val (Table.get 0 s.pow.railSince die.val + taken) })).modThr
        (fun t => { t with rail := Table.set 0 t.rail key v })) :=
    .modThr (.of_levels (by simp)) fun h => h.setRail key v hle
  exact .ite hthr (.ite (.levels_then ((State.modPow_levels rfl).trans (State.limitedRecord_levels ..)) hthr)
    (.levels_then (State.limitedRecord_levels ..) hthr))

theorem execThermalTick_keeps (r : ThermalReading) : keepsAll (execThermalTick r) := by
  refine keepsAll_next fun s => .ite (.refl s) ?_
  split
  · exact s.trip_keeps _
  · exact s.thermalTick_keeps r

theorem execAttach_keeps (q : QueueId) : keepsAll (execAttach q) := keepsAll_run fun s => by (repeat' split) <;> simp [ite_thr]

theorem execStart_keeps (q : QueueId) : keepsAll (execStart q) := keepsAll_run fun s => by simp [ite_thr]

theorem execStop_keeps (q : QueueId) : keepsAll (execStop q) := keepsAll_run fun s => by split <;> simp

theorem execAbort_keeps (q : QueueId) : keepsAll (execAbort q) := keepsAll_run fun s => by split <;> simp

theorem execDetach_keeps (q : QueueId) : keepsAll (execDetach q) := keepsAll_run fun s => by
  simp only []
  split
  · rw [Dev.setQueue_thr]
    exact foldl_thr _ (fun s b => Dev.unbindBuffer_thr ..) _ _
  · rfl

theorem execSubmitPush_keeps (q : QueueId) (handle : U16) : keepsAll (execSubmitPush q handle) := keepsAll_run fun s => by
  split
  · rfl
  · split
    all_goals next heq => simp [fst_thr (Dev.push_thr ..) heq]

theorem execHeadWrite_keeps (q : QueueId) (v : U32) : keepsAll (execHeadWrite q v) := keepsAll_run fun s => by simp [ite_thr]

theorem execInstructionFetch_keeps (q : QueueId) : keepsAll (execInstructionFetch q) := keepsAll_run fun s => by simp [ite_thr]

theorem execNop_keeps (q : QueueId) : keepsAll (execNop q) := keepsAll_run fun s => Dev.control_thr _ _ _ _ fun s x w => by simp

theorem execLoop_keeps (q : QueueId) : keepsAll (execLoop q) := keepsAll_run fun s => by
  refine Dev.control_thr _ _ _ _ fun s x w => ?_
  split
  · simp
  · split
    all_goals next heq => simp [fst_thr (Dev.loopCount_thr ..) heq, ite_thr]

theorem execEndloop_keeps (q : QueueId) : keepsAll (execEndloop q) := keepsAll_run fun s => by
  refine Dev.control_thr _ _ _ _ fun s x w => ?_
  split
  · simp
  · split <;> simp

theorem execBrk_keeps (q : QueueId) : keepsAll (execBrk q) := keepsAll_run fun s => by
  refine Dev.control_thr _ _ _ _ fun s x w => ?_
  dsimp only
  (repeat' split) <;> simp

theorem execPhase_keeps (q : QueueId) : keepsAll (execPhase q) := keepsAll_run fun s => Dev.control_thr _ _ _ _ fun s x w => by simp

theorem execSettime_keeps (q : QueueId) : keepsAll (execSettime q) := keepsAll_run fun s => Dev.control_thr _ _ _ _ fun s x w => by simp

theorem execSync_keeps (q : QueueId) : keepsAll (execSync q) := keepsAll_run fun s => Dev.control_thr _ _ _ _ fun s x w => by simp

theorem execHalt_keeps (q : QueueId) : keepsAll (execHalt q) := keepsAll_run fun s => Dev.control_thr _ _ _ _ fun s x w => by simp

theorem execPrefetch_keeps (step : OpStep) : keepsAll (execPrefetch step) := keepsAll_run fun s => by
  cases step
  · simp
  · exact Dev.streamUnit_thr _ _ _ _ fun s o u => by simp

theorem execCopy_keeps (step : OpStep) : keepsAll (execCopy step) := keepsAll_run fun s => by
  cases step
  · simp
  · exact Dev.streamUnit_thr _ _ _ _ fun s o u => by simp

theorem execSortmerge_keeps (step : OpStep) : keepsAll (execSortmerge step) := keepsAll_run fun s => by
  cases step
  · simp
  · exact Dev.serviceUnit_thr _ _ _ _ fun s o u => by simp

theorem execGather_keeps (step : OpStep) : keepsAll (execGather step) := keepsAll_run fun s => by
  cases step
  · simp
  · exact Dev.serviceUnit_thr _ _ _ _ fun s o u => by simp

theorem execSnapshot_keeps (step : OpStep) : keepsAll (execSnapshot step) := keepsAll_run fun s => by
  cases step
  · simp
  · exact Dev.streamUnit_thr _ _ _ _ fun s o u => by simp

theorem execWatchdogExpiry_keeps (q : QueueId) (t : Instant) : keepsAll (execWatchdogExpiry q t) := keepsAll_run fun s => by
  dsimp only
  (repeat' split) <;> simp

theorem execOperationBegin_keeps (slot : SlotId) : keepsAll (execOperationBegin slot) := keepsAll_run fun s => by
  dsimp only
  (repeat' split) <;> simp

theorem execOperationEnd_keeps (slot : SlotId) : keepsAll (execOperationEnd slot) := keepsAll_run fun s => by (repeat' split) <;> simp

theorem execJournalRelease_keeps (slot : SlotId) : keepsAll (execJournalRelease slot) := keepsAll_run fun s => by split <;> simp

theorem execFlagStore_keeps (die : Die) (i : Fin 512) (a : CoreAccess) : keepsAll (execFlagStore die i a) :=
    keepsAll_run fun s => by (repeat' split) <;> simp

theorem execSheafNop_keeps (g : SheafRef) : keepsAll (execSheafNop g) := keepsAll_run fun s => Dev.sheafStep_thr _ _ _ _ fun s x => by simp

theorem execJmp_keeps (g : SheafRef) : keepsAll (execJmp g) := keepsAll_run fun s => Dev.sheafJump_thr _ _ _ _ _ fun s x => by simp

theorem execJmpr_keeps (g : SheafRef) : keepsAll (execJmpr g) := keepsAll_run fun s => Dev.sheafJump_thr _ _ _ _ _ fun s x => by simp

theorem execCall_keeps (g : SheafRef) : keepsAll (execCall g) := keepsAll_run fun s => Dev.sheafJump_thr _ _ _ _ _ fun s x => by simp

theorem execSExit_keeps (g : SheafRef) : keepsAll (execSExit g) :=
    keepsAll_run fun s => Dev.sheafIssue_thr _ _ _ _ _ fun s x => Dev.inTime_thr _ _ _ fun s => by simp

theorem execBar_keeps (g : SheafRef) : keepsAll (execBar g) := keepsAll_run fun s => by
  refine Dev.sheafStep_thr _ _ _ _ fun s x => ?_
  split
  · rfl
  · exact Dev.inTime_thr _ _ _ fun s => by simp

theorem execSsync_keeps (g : SheafRef) : keepsAll (execSsync g) := keepsAll_run fun s => by
  refine Dev.sheafStep_thr _ _ _ _ fun s x => ?_
  split
  · rfl
  · exact Dev.inTime_thr _ _ _ fun s => by simp [foldl_thr]

theorem execFence_keeps (g : SheafRef) : keepsAll (execFence g) := keepsAll_run fun s => Dev.sheafIssue_thr _ _ _ _ _ fun s x => by simp [ite_thr]

theorem execYield_keeps (g : SheafRef) : keepsAll (execYield g) := keepsAll_run fun s => Dev.sheafStep_thr _ _ _ _ fun s x => by simp [ite_thr]

theorem execCvt_keeps (g : SheafRef) : keepsAll (execCvt g) := keepsAll_run fun s => Dev.sheafStep_thr _ _ _ _ fun s x => by simp

theorem execFcmp_keeps (g : SheafRef) : keepsAll (execFcmp g) := keepsAll_run fun s => Dev.sheafStep_thr _ _ _ _ fun s x => by simp

theorem execIcmp_keeps (g : SheafRef) : keepsAll (execIcmp g) := keepsAll_run fun s => Dev.sheafStep_thr _ _ _ _ fun s x => by simp

theorem execPick_keeps (g : SheafRef) : keepsAll (execPick g) := keepsAll_run fun s => Dev.sheafStep_thr _ _ _ _ fun s x => by simp

theorem execPcomb_keeps (g : SheafRef) : keepsAll (execPcomb g) := keepsAll_run fun s => Dev.sheafStep_thr _ _ _ _ fun s x => by simp

theorem execUop_keeps (g : SheafRef) : keepsAll (execUop g) := keepsAll_run fun s => Dev.sheafStep_thr _ _ _ _ fun s x => by simp

theorem execLanerd_keeps (g : SheafRef) : keepsAll (execLanerd g) := keepsAll_run fun s => Dev.sheafStep_thr _ _ _ _ fun s x => by simp

theorem execLdk_keeps (g : SheafRef) : keepsAll (execLdk g) := keepsAll_run fun s => by
  refine Dev.sheafStep_thr _ _ _ _ fun s x => ?_
  split <;> simp

theorem execStk_keeps (g : SheafRef) : keepsAll (execStk g) := keepsAll_run fun s => by
  refine Dev.sheafStep_thr _ _ _ _ fun s x => ?_
  split <;> simp

theorem execAmok_keeps (g : SheafRef) : keepsAll (execAmok g) := keepsAll_run fun s => by
  refine Dev.sheafStep_thr _ _ _ _ fun s x => ?_
  split <;> simp

theorem execLanex_keeps (g : SheafRef) : keepsAll (execLanex g) := keepsAll_run fun s => Dev.sheafStep_thr _ _ _ _ fun s x => by simp

theorem execPoll_keeps (g : SheafRef) : keepsAll (execPoll g) := keepsAll_run fun s => by
  refine Dev.sheafStep_thr _ _ _ _ fun s x => ?_
  split <;> simp

theorem execReduce_keeps (g : SheafRef) : keepsAll (execReduce g) := keepsAll_run fun s => Dev.sheafStep_thr _ _ _ _ fun s x => by simp

theorem execScan_keeps (g : SheafRef) : keepsAll (execScan g) := keepsAll_run fun s => Dev.sheafStep_thr _ _ _ _ fun s x => by simp

theorem execSysr_keeps (g : SheafRef) : keepsAll (execSysr g) := keepsAll_run fun s => Dev.sheafStep_thr _ _ _ _ fun s x => by simp

theorem execSTime_keeps (g : SheafRef) : keepsAll (execSTime g) := keepsAll_run fun s => Dev.sheafStep_thr _ _ _ _ fun s x => by simp

theorem execBarrierDeadline_keeps (stook : Nat) (t : Instant) : keepsAll (execBarrierDeadline stook t) :=
    keepsAll_run fun s => by (repeat' split) <;> simp [ite_thr]

theorem execSsyncTimeout_keeps (g : SheafRef) (t : Instant) : keepsAll (execSsyncTimeout g t) :=
    keepsAll_run fun _ => getD_thr (fun _ h => (Dev.syncFail_thr h).trans (Dev.advance_thr ..)) rfl

theorem execPrefetcherIssue_keeps (m : MillId) (stream : Fin 4) : keepsAll (execPrefetcherIssue m stream) := keepsAll_run fun s => by
  dsimp only
  (repeat' split) <;> simp

theorem execPrefetchFill_keeps (die : Fin 8) (t : LineTag) : keepsAll (execPrefetchFill die t) := keepsAll_run fun s => by
  dsimp only
  split
  · rfl
  · split
    · rfl
    · split
      · split <;> simp
      · split
        · simp
        · split
          · split <;> simp
          · split
            · split
              · next heq => simp [Dev.promote_thr heq]
              · simp
            · simp

theorem execPfLifetimeExpiry_keeps (die : Fin 8) (t : LineTag) (time : Instant) : keepsAll (execPfLifetimeExpiry die t time) :=
    keepsAll_run fun s => by (repeat' split) <;> simp [ite_thr]

theorem execRelayEnable_keeps (r : Fin 64) : keepsAll (execRelayEnable r) := keepsAll_run fun s => by split <;> simp

theorem execRelayDisable_keeps (r : Fin 64) : keepsAll (execRelayDisable r) := keepsAll_run fun s => by
  dsimp only
  split
  · rfl
  · simp [foldl_thr]

theorem execReadOnce_keeps (d : Die) (t : LineTag) (err : Nat) : keepsAll (execReadOnce d t err) :=
    keepsAll_run fun _ => Dev.requestAt_thr _ _ _ _ _ _ rfl

theorem execWritePush_keeps (d : Die) (t : LineTag) (off : Fin 128) (data : List Byte) : keepsAll (execWritePush d t off data) :=
    keepsAll_run fun s => by
  split
  · exact Dev.requestAt_thr _ _ _ _ _ _ rfl
  · rfl

theorem execAtomicHome_keeps (d : Die) (t : LineTag) (off : Fin 128) (op : AtomicCode) (operand compare : U64) : keepsAll (execAtomicHome d t off op operand compare) :=
    keepsAll_run fun s => by
  split
  · exact Dev.requestAt_thr _ _ _ _ _ _ rfl
  · rfl

theorem execWriteBack_keeps (a : Agent) (t : LineTag) (data : List Byte) (poison : Bool) : keepsAll (execWriteBack a t data poison) :=
    keepsAll_run fun s => by split <;> simp

theorem execRspData_keeps (a : Agent) (t : LineTag) (ep : Byte) (data : List Byte) (dirty evicting poison : Bool) : keepsAll (execRspData a t ep data dirty evicting poison) :=
    keepsAll_run fun s => by split <;> simp

theorem execCompletionData_keeps (a : Agent) (t : LineTag) (g : Grant) (data : List Byte) (poison : Bool) : keepsAll (execCompletionData a t g data poison) :=
    keepsAll_run fun s => by
  dsimp only
  split
  · rfl
  · split
    · rfl
    · split
      · simp
      · next heq => split <;> simp [Dev.place!_thr heq]

theorem execCompletionAck_keeps (a : Agent) (t : LineTag) (poison : Bool) : keepsAll (execCompletionAck a t poison) := keepsAll_run fun s => by
  dsimp only
  split
  · simp
  · split
    · rfl
    · split
      · split
        · simp
        · next heq => simp [Dev.place!_thr heq]
      · split
        · exact ite_dev_thr_of (by simp) (by simp)
        · simp
      · rfl

theorem execWbAck_keeps (a : Agent) (t : LineTag) : keepsAll (execWbAck a t) := keepsAll_run fun s => by split <;> simp

theorem execWbSuperseded_keeps (a : Agent) (t : LineTag) : keepsAll (execWbSuperseded a t) := keepsAll_run fun s => by split <;> simp

theorem execLocalRead_keeps (a : Agent) (t : LineTag) (hint : Fin 16) : keepsAll (execLocalRead a t hint) := keepsAll_run fun s => by
  split
  · simp
  · split
    · split <;> simp
    · split
      · rfl
      · split
        · split
          · next heq => exact Dev.promote_thr heq
          · simp
        · split <;> simp

theorem execLocalPartialWrite_keeps (a : Agent) (t : LineTag) (place : WritePlace) (data : List Byte) : keepsAll (execLocalPartialWrite a t place data) :=
    keepsAll_run fun s => by split <;> simp

theorem execLocalFullWrite_keeps (a : Agent) (t : LineTag) (data : List Byte) : keepsAll (execLocalFullWrite a t data) :=
    keepsAll_run fun s => by split <;> simp

theorem execEviction_keeps (a : Agent) (t : LineTag) : keepsAll (execEviction a t) := keepsAll_run fun s => by (repeat' split) <;> simp

theorem execHomeTimeout_keeps (t : LineTag) (time : Instant) : keepsAll (execHomeTimeout t time) :=
    keepsAll_run fun s => by (repeat' split) <;> simp

theorem execWcbDrain_keeps (t : LineTag) (err : Nat) : keepsAll (execWcbDrain t err) := keepsAll_run fun s => by (repeat' split) <;> simp [ite_thr]

theorem execPatrolScrub_keeps (h : HubId) (err : Nat) : keepsAll (execPatrolScrub h err) := keepsAll_run fun s => by
  dsimp only
  split <;> simp [foldl_thr]

theorem execParityError_keeps (ev : ParityEvent) : keepsAll (execParityError ev) := keepsAll_run fun s => by (repeat' split) <;> simp [ite_thr]

theorem execMarginRun_keeps (v : Byte) : keepsAll (execMarginRun v) := keepsAll_run fun s => by (repeat' split) <;> simp

theorem execMarginSweepDone_keeps (edges : List (Int × Int)) : keepsAll (execMarginSweepDone edges) := keepsAll_run fun s => by split <;> simp

theorem execIotinvalVma_keeps (m : MmuId) (gv av pscv : Bool) (pscid : Asid) (addr : U64) : keepsAll (execIotinvalVma m gv av pscv pscid addr) :=
    keepsAll_run fun s => by
  dsimp only
  split
  · rfl
  · split
    · simp
    · rw [Dev.cqNext_thr]
      split <;> simp [foldl_thr]

theorem execIofenceC_keeps (m : MmuId) (av : Bool) (addr : U64) (data : U32) : keepsAll (execIofenceC m av addr data) :=
    keepsAll_run fun s => by (repeat' split) <;> simp [ite_thr]

theorem execTranslationMiss_keeps (die : Die) (stream : Byte) (q : QueueId) (asid : Asid) (va : U64) (rights : BitVec 3) : keepsAll (execTranslationMiss die stream q asid va rights) :=
    keepsAll_run fun s => by simp [ite_thr]

theorem execPrRespResolved_keeps (m : MmuId) (tag : U16) : keepsAll (execPrRespResolved m tag) := keepsAll_run fun s => by split <;> simp

theorem execPrRespFailed_keeps (m : MmuId) (tag : U16) : keepsAll (execPrRespFailed m tag) := keepsAll_run fun s => by split <;> simp

theorem execPrTimeout_keeps (m : MmuId) (tag : U16) (t : Instant) : keepsAll (execPrTimeout m tag t) :=
    keepsAll_run fun s => by (repeat' split) <;> simp [ite_thr]

theorem execCtxBaseWrite_keeps (_m : MmuId) (v : U64) : keepsAll (execCtxBaseWrite _m v) := keepsAll_run fun s => by split <;> simp

theorem execFqBaseWrite_keeps (m : MmuId) (v : U64) : keepsAll (execFqBaseWrite m v) := keepsAll_run fun s => by split <;> simp

theorem execWorkEntryDone_keeps (slot : SlotId) : keepsAll (execWorkEntryDone slot) :=
    keepsAll_run fun s => Dev.serviceUnit_thr _ _ _ _ fun s o u => by simp

theorem execFlitReceive_keeps (die : Die) (port : Fin 6) (f : D2dFlit) : keepsAll (execFlitReceive die port f) := keepsAll_run fun s => by
  dsimp only
  split
  · rfl
  refine ite_dev_thr_of rfl (ite_dev_thr_of rfl (ite_dev_thr_of (by simp [ite_thr]) (ite_dev_thr_of ?_ ?_)))
  · exact ite_dev_thr_of (by simp [foldl_thr, ite_thr]) (by simp [ite_thr])
  · exact ite_dev_thr_of (by simp [ite_thr]) (ite_dev_thr_of (by simp [ite_thr]) (by simp [ite_thr]))

theorem execTimeExchange_keeps (l : LinkId) : keepsAll (execTimeExchange l) := keepsAll_run fun s => by split <;> simp

theorem execTimeFrame_keeps (l : LinkId) (t1 t2 t3 t4 : U64) : keepsAll (execTimeFrame l t1 t2 t3 t4) := keepsAll_run fun s => by split <;> simp

theorem execLinkTrainingDone_keeps (l : LinkId) (neighbour : U16) : keepsAll (execLinkTrainingDone l neighbour) :=
    keepsAll_run fun s => by simp [ite_thr]

theorem execLinkFlitReceive_keeps (l : LinkId) (f : LinkFlit) : keepsAll (execLinkFlitReceive l f) := keepsAll_run fun s => by
  split
  · next heq => simp [fst_thr (Dev.linkFlit_thr ..) heq]
  · next heq =>
    split <;> simp [fst_thr (Dev.linkFlit_thr ..) heq]

theorem execLinkDown_keeps (l : LinkId) (cause : Fin 5) : keepsAll (execLinkDown l cause) := keepsAll_run fun s => by split <;> simp

theorem execRemoteWindowAccess_keeps (by_ : Requester) (pa : U64) (op : WindowOp) : keepsAll (execRemoteWindowAccess by_ pa op) :=
    keepsAll_run fun s => by
  refine ite_dev_thr_of rfl (ite_dev_thr_of (by simp) (ite_dev_thr_of (by simp) (ite_dev_thr_of (by simp) (ite_dev_thr_of (by simp) ?_))))
  dsimp only
  rw [foldl_fst_thr _ fun acc e => by simp]

theorem execTransportTimeout_keeps (flow : U16) (t : Instant) : keepsAll (execTransportTimeout flow t) := keepsAll_run fun s => by
  dsimp only
  split
  · rfl
  · simp [foldl_thr]

theorem execQuarantineEnd_keeps (k : BitVec 12) (t : Instant) : keepsAll (execQuarantineEnd k t) :=
    keepsAll_run fun s => by (repeat' split) <;> simp [ite_thr]

theorem execPackageTimeReached_keeps (q : QueueId) : keepsAll (execPackageTimeReached q) :=
    keepsAll_run fun s => by (repeat' split) <;> simp

theorem execSagWarn_keeps (mv : Nat) (watts : U16) : keepsAll (execSagWarn mv watts) :=
    keepsAll_levels fun s => by simp [ite_levels]

theorem execSagWarnEnd_keeps (mv : Nat) : keepsAll (execSagWarnEnd mv) := keepsAll_levels fun s => by
  dsimp only
  (repeat' split) <;> simp

theorem execPowerEvaluation_keeps : keepsAll execPowerEvaluation := keepsAll_levels fun s => by simp [ite_levels]

theorem execEnergyWindowEnd_keeps (measured : Option Nat) (volts : List (Die × Nat)) (acts : List Activity) : keepsAll (execEnergyWindowEnd measured volts acts) :=
    keepsAll_levels fun s => by
  dsimp only
  (repeat' split) <;> simp [foldl_levels]

theorem execRipenCheck_keeps (readings : List RipenReading) : keepsAll (execRipenCheck readings) :=
    keepsAll_levels fun s => by simp [ite_levels]

theorem execRipenInterval_keeps (t : Instant) (readings : List RipenReading) : keepsAll (execRipenInterval t readings) :=
    keepsAll_levels fun s => by simp [ite_levels]

theorem execHandshakeTimeout_keeps (session : U32) (t : Instant) : keepsAll (execHandshakeTimeout session t) := keepsAll_levels fun s => by
  dsimp only
  (repeat' split) <;> simp

theorem execSessionIdleTimeout_keeps (session : U32) (t : Instant) : keepsAll (execSessionIdleTimeout session t) :=
    keepsAll_levels fun s => by simp [ite_levels]

theorem execQuiescentBoundary_keeps (g : Fin 3) : keepsAll (execQuiescentBoundary g) := keepsAll_levels fun s => by
  dsimp only
  (repeat' split) <;> simp

theorem execBootContinue_keeps (v : Bool) (r : BootReading) : keepsAll (execBootContinue v r) :=
    keepsAll_levels fun s => by simp [ite_levels]

theorem execLossOfSignal_keeps (l : LinkId) : keepsAll (execLossOfSignal l) := keepsAll_levels fun s => by simp [ite_levels]

theorem execLaserInterlockOpen_keeps (n : Fin 4) : keepsAll (execLaserInterlockOpen n) := keepsAll_levels fun s => by
  dsimp only
  (repeat' split) <;> simp

theorem execHotJoin_keeps (p : Part) (contents : List Byte) : keepsAll (execHotJoin p contents) := keepsAll_levels fun s => by
  dsimp only
  (repeat' split) <;> simp [ite_levels, foldl_levels]

theorem execThermalTripRestart_keeps (inletTenths : Int) (coolFor : Nat) (t : Instant) : keepsAll (execThermalTripRestart inletTenths coolFor t) :=
    keepsAll_levels fun s => by simp [ite_levels]

theorem execRipenPostponedCheck_keeps (t : Instant) (r : RipenReading) : keepsAll (execRipenPostponedCheck t r) :=
    keepsAll_levels fun s => by simp [ite_levels]

theorem execXferStoreDone_keeps : keepsAll execXferStoreDone := keepsAll_levels fun s => by
  dsimp only
  (repeat' split) <;> simp

theorem execLaserInterlockClose_keeps (n : Fin 4) : keepsAll (execLaserInterlockClose n) := keepsAll_levels fun s => by
  dsimp only
  (repeat' split) <;> simp

theorem execPlcaBeacon_keeps : keepsAll execPlcaBeacon := keepsAll_levels fun s => by simp [ite_levels]

theorem execMgmtPortLinkChange_keeps (up : Bool) : keepsAll (execMgmtPortLinkChange up) :=
    keepsAll_levels fun s => by simp [ite_levels]

theorem execNeighborDiscovery_keeps (target source : List Byte) : keepsAll (execNeighborDiscovery target source) :=
    keepsAll_levels fun s => by simp [ite_levels]

theorem execIcmpv6Echo_keeps (source : List Byte) (ident seq : U16) (data : List Byte) : keepsAll (execIcmpv6Echo source ident seq data) :=
    keepsAll_levels fun s => by simp [ite_levels]


theorem execRealmQuote_keeps : keepsAll execRealmQuote := keepsAll_next fun s => State.realmCommand_keeps s.quoteRealm_keeps

theorem execPowerGoodHold_keeps (h : SupplyHold) : keepsAll (execPowerGoodHold h) := keepsAll_levels fun s => by
  refine ite_state_levels_of ?_ rfl
  exact (State.levels_withDev rfl).trans ((State.modPow_levels rfl).trans (State.advance_levels ..))

theorem execSagReset_keeps (mv : Nat) : keepsAll (execSagReset mv) := keepsAll_next fun s => .ite (.refl s) (s.shutDown_keeps _)

theorem execOverVoltage_keeps (mv : Nat) : keepsAll (execOverVoltage mv) :=
  keepsAll_next fun s => .ite (.levels_then (State.modPow_levels rfl) (s.shutDown_keeps _)) (.refl s)

theorem execThermalTrip_keeps (die : Die) : keepsAll (execThermalTrip die) := keepsAll_next fun s => .ite (s.trip_keeps die) (.refl s)

theorem execSessionInit_keeps (p : SessionPath) (b : List Byte) : keepsAll (execSessionInit p b) :=
  keepsAll_next fun _ => State.datagram_keeps fun _ => .of_levels (State.init_levels ..)

theorem execSessionFinish_keeps (p : SessionPath) (b : List Byte) : keepsAll (execSessionFinish p b) :=
  keepsAll_next fun _ => State.datagram_keeps fun _ => .of_levels (State.finishSession_levels ..)

theorem execSessionDiscover_keeps (p : SessionPath) (b : List Byte) : keepsAll (execSessionDiscover p b) :=
  keepsAll_next fun _ => State.datagram_keeps fun _ => .of_levels (State.announce_levels ..)

theorem execSessionRequest_keeps (p : SessionPath) (b : List Byte) : keepsAll (execSessionRequest p b) :=
  keepsAll_next fun s => State.datagram_keeps fun d => s.request_keeps p d

theorem execSessionKeepalive_keeps (p : SessionPath) (b : List Byte) : keepsAll (execSessionKeepalive p b) :=
  keepsAll_next fun _ => State.datagram_keeps fun _ => .of_levels (State.unprotect_levels ..)

theorem execSessionClose_keeps (p : SessionPath) (b : List Byte) : keepsAll (execSessionClose p b) :=
  keepsAll_next fun s => State.datagram_keeps fun d => .of_levels (s.closeBy_levels p d)

theorem execWriteObject_keeps (path : Path) (addr : U32) (value : U64) (data : List Byte) : keepsAll (execWriteObject path addr value data) :=
  keepsAll_next fun s => .levels_then (State.answer_levels ..) (s.writeObject_keeps ..)

theorem execInbandRequest_keeps (c : Fin 16) : keepsAll (execInbandRequest c) := keepsAll_next fun s => by
  refine .ite (.refl s) ?_
  dsimp only
  split
  · next heq =>
    exact .after_levels (State.coreRead_levels heq) (.after_levels (State.modMgmt_levels ..)
      (.levels_then (State.coreWrite_levels ..) (State.ringDatagram_keeps ..)))
  · exact .refl s

theorem execCoreMailboxSubmit_keeps (hart : Fin 192) : keepsAll (execCoreMailboxSubmit hart) := keepsAll_next fun s => s.submitMailbox_keeps hart

theorem execColdReset_keeps (r : BootReading) : keepsAll (execColdReset r) := keepsAll_next fun s => s.coldReset_keeps r

theorem execWarmReset_keeps (fatal : Bool) (connTrained : List ConnId) : keepsAll (execWarmReset fatal connTrained) :=
  keepsAll_next fun s => .after_levels (s.raiseFatal_levels fatal) (State.warmReset_keeps ..)

theorem execResetRequestWarm_keeps (connTrained : List ConnId) : keepsAll (execResetRequestWarm connTrained) :=
  keepsAll_next fun s => s.warmReset_keeps ..

theorem execFloorRaise_keeps (v : Bool) : keepsAll (execFloorRaise v) := keepsAll_next fun s => .ite s.raiseFloors_keeps (.refl s)

theorem execAttestRun_keeps (path : Path) (v : Bool) : keepsAll (execAttestRun path v) :=
  keepsAll_next fun s => .levels_then (State.answer_levels ..) (s.attest_keeps path v)

theorem execPresenceOpen_keeps : keepsAll execPresenceOpen :=
  keepsAll_next fun s => .levels_then ((State.modPow_levels rfl).trans (State.modBoot_levels rfl)) s.powerOff_keeps

theorem execPresenceClose_keeps : keepsAll execPresenceClose :=
  keepsAll_levels fun _ => ite_state_levels_of rfl ((State.modPow_levels rfl).trans (State.modBoot_levels rfl))

theorem execBoundaryScanInstruction_keeps (bypassOrIdcode : Bool) : keepsAll (execBoundaryScanInstruction bypassOrIdcode) :=
  keepsAll_next fun s => .ite (.refl s) (.after_levels (State.modPow_levels rfl) (State.powerOff_keeps _))

theorem execRealmCommandDone_keeps : keepsAll execRealmCommandDone :=
  keepsAll_next fun s => .ite (.refl s) (.ite s.resumeRealm_keeps (.levels_then (State.modSvc_levels ..) s.resumeRealm_keeps))

theorem execReadyForRemoval_keeps : keepsAll execReadyForRemoval := keepsAll_levels fun s => by
  refine ite_state_levels_of rfl ((State.setObjAt_levels ..).trans ((State.modBoot_levels rfl).trans ((State.modPow_levels rfl).trans ?_)))
  simp

theorem execRealmDo_keeps {f : State → State × Nat} (hf : ∀ s, (f s).1.levels = s.levels) : keepsAll (fun s => .next (s.realmCommand f)) :=
  keepsAll_next fun s => State.realmCommand_keeps (.of_levels (hf s))


theorem keepsAll_inTurn {l : List (State → Result)} (h : ∀ f ∈ l, keepsAll f) (hdone : ∀ f ∈ l, completes f) : keepsAll (inTurn l) := by
  induction l with
  | nil => rintro s _ ⟨⟩; exact .refl s
  | cons f l ih =>
    intro s t ht
    obtain ⟨u, hu⟩ := hdone f List.mem_cons_self s
    rw [inTurn_cons hu] at ht
    exact (h f List.mem_cons_self s u hu).trans
      (ih (fun g hg => h g (List.mem_cons_of_mem _ hg)) (fun g hg => hdone g (List.mem_cons_of_mem _ hg)) u t ht)

theorem reg_keeps (hi lo : Nat) (keeps : Bool) (t : RegTarget) (v : Nat) : keepsAll ((BusField.reg hi lo keeps t).act v) :=
  keepsAll_next fun s => s.writeRegister_keeps ..

theorem execRelayCorePutsWrite_keeps (r : Fin 64) (v : U32) : keepsAll (execRelayCorePutsWrite r v) := keepsAll_run fun s => by simp

theorem execRelayCoreTakesWrite_keeps (r : Fin 64) (v : U32) : keepsAll (execRelayCoreTakesWrite r v) := keepsAll_run fun s => by simp

theorem execCounterAmoadd_keeps (c : CounterRef) (a : CoreAccess) : keepsAll (execCounterAmoadd c a) := keepsAll_run fun s => by simp

theorem execCounterStore_keeps (c : CounterRef) (a : CoreAccess) : keepsAll (execCounterStore c a) := keepsAll_run fun s => by simp

theorem ctlCommand_keeps (q : QueueId) (v : Nat) : keepsAll (ctlCommand q v) := by
  unfold ctlCommand
  intro s
  split
  · exact execAttach_keeps q s
  · exact execStart_keeps q s
  · exact execStop_keeps q s
  · exact execAbort_keeps q s
  · exact execDetach_keeps q s
  · rintro _ ⟨⟩; exact .refl s

theorem realmCommandOf_keeps (v : Nat) : keepsAll (realmCommandOf v) := by
  unfold realmCommandOf
  intro s
  split
  · exact execRealmDo_keeps State.createRealm_levels s
  · exact execRealmQuote_keeps s
  · exact execRealmDo_keeps State.loadKey_levels s
  · exact execRealmDo_keeps State.dropKey_levels s
  · exact execRealmDo_keeps State.destroyRealm_levels s
  · exact execRealmDo_keeps State.scrub_levels s
  · rintro _ ⟨⟩; exact .refl s

theorem relayEnableWrite_keeps (r : Fin 64) (v : Nat) : keepsAll (fun s => if v = 1 then execRelayEnable r s else execRelayDisable r s) := by
  intro s
  dsimp only
  split
  · exact execRelayEnable_keeps r s
  · exact execRelayDisable_keeps r s

/-- No field that a store reaches lowers a counter or takes a level out of its range. -/
theorem fieldsOf_keeps (p : Place) : ∀ f ∈ fieldsOf p, ∀ v, keepsAll (f.act v) := by
  intro f hf v
  cases p <;> simp only [fieldsOf, List.mem_cons, List.not_mem_nil, or_false, List.mem_map] at hf
  case journalBlock =>
    rcases hf with rfl | rfl | rfl | rfl
    case inr.inr.inr => exact execJournalRelease_keeps _
    all_goals exact reg_keeps _ _ _ _ v
  case relayBlock r =>
    rcases hf with rfl | rfl | rfl | rfl | rfl | rfl | rfl
    case inr.inr.inr.inr.inl => exact relayEnableWrite_keeps r v
    case inr.inr.inr.inr.inr.inl => exact execRelayCorePutsWrite_keeps r _
    case inr.inr.inr.inr.inr.inr => exact execRelayCoreTakesWrite_keeps r _
    all_goals exact reg_keeps _ _ _ _ v
  case relayEntry r i => obtain ⟨w, -, rfl⟩ := hf; exact reg_keeps _ _ _ _ v
  case mailbox => subst hf; exact reg_keeps _ _ _ _ v
  case queueBlock q =>
    rcases hf with rfl | rfl | rfl | rfl | rfl | rfl | rfl | rfl | rfl | rfl | rfl
    case inr.inr.inr.inr.inr.inr.inr.inr.inr.inr => exact ctlCommand_keeps q v
    case inr.inr.inr.inr.inr.inr.inr.inr.inl => exact execHeadWrite_keeps q _
    case inr.inr.inr.inr.inr.inr.inr.inr.inr.inl => exact execSubmitPush_keeps q _
    all_goals exact reg_keeps _ _ _ _ v
  case mmuRegisters => rcases hf with rfl | rfl | rfl | rfl | rfl | rfl <;> exact reg_keeps _ _ _ _ v
  case faultBlock m =>
    rcases hf with rfl | rfl | rfl | rfl | rfl | rfl | rfl | rfl
    case inl => exact execCtxBaseWrite_keeps m _
    case inr.inl => exact execFqBaseWrite_keeps m _
    all_goals exact reg_keeps _ _ _ _ v
  case realmBlock =>
    rcases hf with rfl | rfl | rfl | rfl | rfl
    case inr.inr.inr.inr => exact realmCommandOf_keeps v
    all_goals exact reg_keeps _ _ _ _ v
  case windowEntry => rcases hf with rfl | rfl <;> exact reg_keeps _ _ _ _ v

theorem storePlace_keeps (p : Place) (o n v : Nat) : keepsAll (fun s => s.storePlace p o n v) := by
  intro s
  refine keepsAll_inTurn (fun f hf => ?_) (fun f hf => ?_) s <;>
    obtain ⟨x, hx, rfl⟩ := List.mem_map.mp hf
  · exact fieldsOf_keeps p x (List.mem_filter.mp hx).1 _
  · exact fieldsOf_completes p x (List.mem_filter.mp hx).1 _

theorem State.levels_withReply (s : State) (r : Option Reply) : State.levels { s with reply := r } = s.levels := State.levels_withDev rfl

theorem answering_keeps (p : Place) (o n w x : Nat) (s t : State) (h : answering (s.storePlace p o n w) x = .next t) : s.keeps t := by
  obtain ⟨u, hu⟩ := storePlace_completes p o n w s
  obtain rfl := Host.Outcome.next.inj ((answering_completes hu x).symm.trans h)
  exact (storePlace_keeps p o n w s u hu).then_levels (State.levels_withReply u _)

theorem placeAccess_keeps (p : Place) (o : Nat) (op : CoreOp) (n : Nat) (v : U64) : keepsAll (fun s => s.placeAccess p o op n v) := by
  intro s
  cases p
  case flag d i => exact execFlagStore_keeps d i _ s
  case counter c =>
    cases op
    case amoAdd => exact execCounterAmoadd_keeps c _ s
    all_goals exact execCounterStore_keeps c _ s
  case time => cases op <;> (rintro _ ⟨⟩; exact .of_levels (State.levels_withReply s _))
  all_goals
    cases op
    case load | lr | sc => rintro _ ⟨⟩; exact .of_levels (State.levels_withReply s _)
    all_goals unfold State.placeAccess; exact answering_keeps _ o n _ _ s

theorem busAccess_keeps (op : CoreOp) (pa : U64) (realm : Bool) (n : Nat) (v : U64) : keepsAll (busAccess op pa realm n v) := by
  intro s
  unfold busAccess
  dsimp only
  split
  · rintro _ ⟨⟩; exact .of_levels (State.levels_withReply s _)
  · split
    · rintro _ ⟨⟩
      exact .ite (.of_levels (State.levels_withReply s _)) (.refl s)
    · split
      · exact execRemoteWindowAccess_keeps .core _ _ s
      · rintro _ ⟨⟩; exact .of_levels (State.levels_withReply s _)
    · exact placeAccess_keeps _ _ op n v s

theorem execRegisterWrite_keeps (target : RegTarget) (v : U64) : keepsAll (execRegisterWrite target v) := by
  intro s
  cases target with
  | bus op pa realm n => exact busAccess_keeps op pa realm n.val v s
  | coreStore satp va n =>
    rintro _ ⟨⟩
    exact .ite (.of_levels (State.levels_withReply s _)) (.refl s)
  | debugRead line word =>
    rintro _ ⟨⟩
    exact .of_levels (State.debugRead_levels ..)
  | _ =>
    rintro _ ⟨⟩
    exact s.writeRegister_keeps ..

/-- No command lowers a one-way counter or takes a level of the power manager out of its range. -/
theorem exec_keeps (c : Instr) : keepsAll (exec c) := by
  cases c
  case stepWindowWrite | stepRateLowestWrite | matmul | matmulPart | attend | chain | combine | launch | relayPut | relayTake | crypt | compress
      | decompress | indexOp | allreduce | reducescatter | allgather | bcast | send | recv | journalSlotAllocate | signal | counterStore |
      counterAmoadd | millStep | slotFillComplete | curdMove | tileWritten | statsAdd | stookStart | iadd | isub | imul | imulh | imac | sAnd |
      sOr | sXor | shl | shr | imin | imax | bcnt | lzc | mov | movhi | f32add | f32mul | f32mac | f32min | f32max | f64add | f64mul | f64mac |
      f64min | f64max | exp2 | log2 | rcp | rsqrt | sqrt | sinpi | cospi | uload | ld | st | amo | lineResponse | relayCorePutsWrite |
      relayCoreTakesWrite | readShared | readOwn | writeClaim | upgrade | evictClean | snpShared | snpInv | snpOnce | rspInvalid | rspShared |
      walkComplete | heldRecordWrite | quantumEnd | flitNak | connectionDown | routeLoad | linkNak | packetTransit | hostWrite | hostRead |
      hostPush | hostAdd | hostCompletion | remoteReadRequest | remoteReadResponse | remoteWrite | remoteWriteAck | remoteAtomic | windowDisable
      | collectiveData | collectiveGrant | transportAck | unreachableNotice | linkRoleWrite | linkEnableWrite | pkeyEnable | pkeyDisable |
      keyDrained | deviceIdWrite =>
    all_goals rintro s _ ⟨⟩; exact .of_levels (State.levels_withDev (by simp))
  case powerCapWrite | jobOpen | jobClose | readObject | readPending | describe | nextObject | subscribe | applyGroup | discardGroup | defaults |
      credMinGenerationWrite | mcRestart | mcWatchdogExpiry | resetRequestMcRestart | bringupRequest | xferBegin | xferWindow | xferCommit |
      removePrepare | laserModuleLoss =>
    all_goals exact fun s t h => Host.Outcome.next.inj h ▸ .of_levels (by simp)
  case windowEnd => exact execWindowEnd_keeps _
  case attach => exact execAttach_keeps _
  case start => exact execStart_keeps _
  case stop => exact execStop_keeps _
  case abort => exact execAbort_keeps _
  case detach => exact execDetach_keeps _
  case submitPush => exact execSubmitPush_keeps _ _
  case headWrite => exact execHeadWrite_keeps _ _
  case registerWrite => exact execRegisterWrite_keeps _ _
  case instructionFetch => exact execInstructionFetch_keeps _
  case nop => exact execNop_keeps _
  case loop => exact execLoop_keeps _
  case endloop => exact execEndloop_keeps _
  case brk => exact execBrk_keeps _
  case phase => exact execPhase_keeps _
  case settime => exact execSettime_keeps _
  case sync => exact execSync_keeps _
  case halt => exact execHalt_keeps _
  case prefetch => exact execPrefetch_keeps _
  case copy => exact execCopy_keeps _
  case sortmerge => exact execSortmerge_keeps _
  case gather => exact execGather_keeps _
  case snapshot => exact execSnapshot_keeps _
  case watchdogExpiry => exact execWatchdogExpiry_keeps _ _
  case operationBegin => exact execOperationBegin_keeps _
  case operationEnd => exact execOperationEnd_keeps _
  case journalRelease => exact execJournalRelease_keeps _
  case flagStore => exact execFlagStore_keeps _ _ _
  case sheafNop => exact execSheafNop_keeps _
  case jmp => exact execJmp_keeps _
  case jmpr => exact execJmpr_keeps _
  case call => exact execCall_keeps _
  case sExit => exact execSExit_keeps _
  case bar => exact execBar_keeps _
  case ssync => exact execSsync_keeps _
  case fence => exact execFence_keeps _
  case yield => exact execYield_keeps _
  case cvt => exact execCvt_keeps _
  case fcmp => exact execFcmp_keeps _
  case icmp => exact execIcmp_keeps _
  case pick => exact execPick_keeps _
  case pcomb => exact execPcomb_keeps _
  case uop => exact execUop_keeps _
  case lanerd => exact execLanerd_keeps _
  case ldk => exact execLdk_keeps _
  case stk => exact execStk_keeps _
  case amok => exact execAmok_keeps _
  case lanex => exact execLanex_keeps _
  case poll => exact execPoll_keeps _
  case reduce => exact execReduce_keeps _
  case scan => exact execScan_keeps _
  case sysr => exact execSysr_keeps _
  case sTime => exact execSTime_keeps _
  case barrierDeadline => exact execBarrierDeadline_keeps _ _
  case ssyncTimeout => exact execSsyncTimeout_keeps _ _
  case prefetcherIssue => exact execPrefetcherIssue_keeps _ _
  case prefetchFill => exact execPrefetchFill_keeps _ _
  case pfLifetimeExpiry => exact execPfLifetimeExpiry_keeps _ _ _
  case relayEnable => exact execRelayEnable_keeps _
  case relayDisable => exact execRelayDisable_keeps _
  case readOnce => exact execReadOnce_keeps _ _ _
  case writePush => exact execWritePush_keeps _ _ _ _
  case atomicHome => exact execAtomicHome_keeps _ _ _ _ _ _
  case writeBack => exact execWriteBack_keeps _ _ _ _
  case rspData => exact execRspData_keeps _ _ _ _ _ _ _
  case completionData => exact execCompletionData_keeps _ _ _ _ _
  case completionAck => exact execCompletionAck_keeps _ _ _
  case wbAck => exact execWbAck_keeps _ _
  case wbSuperseded => exact execWbSuperseded_keeps _ _
  case localRead => exact execLocalRead_keeps _ _ _
  case localPartialWrite => exact execLocalPartialWrite_keeps _ _ _ _
  case localFullWrite => exact execLocalFullWrite_keeps _ _ _
  case eviction => exact execEviction_keeps _ _
  case homeTimeout => exact execHomeTimeout_keeps _ _
  case wcbDrain => exact execWcbDrain_keeps _ _
  case patrolScrub => exact execPatrolScrub_keeps _ _
  case parityError => exact execParityError_keeps _
  case marginRun => exact execMarginRun_keeps _
  case marginSweepDone => exact execMarginSweepDone_keeps _
  case iotinvalVma => exact execIotinvalVma_keeps _ _ _ _ _ _
  case iofenceC => exact execIofenceC_keeps _ _ _ _
  case translationMiss => exact execTranslationMiss_keeps _ _ _ _ _ _
  case prRespResolved => exact execPrRespResolved_keeps _ _
  case prRespFailed => exact execPrRespFailed_keeps _ _
  case prTimeout => exact execPrTimeout_keeps _ _ _
  case ctxBaseWrite m v => exact execCtxBaseWrite_keeps m v
  case fqBaseWrite => exact execFqBaseWrite_keeps _ _
  case workEntryDone => exact execWorkEntryDone_keeps _
  case realmCreate => exact execRealmDo_keeps State.createRealm_levels
  case realmQuote => exact execRealmQuote_keeps
  case realmLoadKey => exact execRealmDo_keeps State.loadKey_levels
  case realmDropKey => exact execRealmDo_keeps State.dropKey_levels
  case realmDestroy => exact execRealmDo_keeps State.destroyRealm_levels
  case realmScrub => exact execRealmDo_keeps State.scrub_levels
  case flitReceive => exact execFlitReceive_keeps _ _ _
  case timeExchange => exact execTimeExchange_keeps _
  case timeFrame => exact execTimeFrame_keeps _ _ _ _ _
  case linkTrainingDone => exact execLinkTrainingDone_keeps _ _
  case linkFlitReceive => exact execLinkFlitReceive_keeps _ _
  case linkDown => exact execLinkDown_keeps _ _
  case remoteWindowAccess => exact execRemoteWindowAccess_keeps _ _ _
  case transportTimeout => exact execTransportTimeout_keeps _ _
  case quarantineEnd => exact execQuarantineEnd_keeps _ _
  case powerGoodHold => exact execPowerGoodHold_keeps _
  case sagWarn => exact execSagWarn_keeps _ _
  case sagWarnEnd => exact execSagWarnEnd_keeps _
  case sagReset => exact execSagReset_keeps _
  case overVoltage => exact execOverVoltage_keeps _
  case powerEvaluation => exact execPowerEvaluation_keeps
  case capWindowEnd => exact execCapWindowEnd_keeps _ _
  case railWindowEnd => exact execRailWindowEnd_keeps _ _ _ _ _
  case thermalTick => exact execThermalTick_keeps _
  case thermalTrip => exact execThermalTrip_keeps _
  case energyWindowEnd => exact execEnergyWindowEnd_keeps _ _ _
  case ripenCheck => exact execRipenCheck_keeps _
  case ripenInterval => exact execRipenInterval_keeps _ _
  case sessionInit => exact execSessionInit_keeps _ _
  case sessionFinish => exact execSessionFinish_keeps _ _
  case sessionDiscover => exact execSessionDiscover_keeps _ _
  case sessionRequest => exact execSessionRequest_keeps _ _
  case sessionKeepalive => exact execSessionKeepalive_keeps _ _
  case sessionClose => exact execSessionClose_keeps _ _
  case handshakeTimeout => exact execHandshakeTimeout_keeps _ _
  case sessionIdleTimeout => exact execSessionIdleTimeout_keeps _ _
  case writeObject => exact execWriteObject_keeps _ _ _ _
  case quiescentBoundary => exact execQuiescentBoundary_keeps _
  case inbandRequest => exact execInbandRequest_keeps _
  case coreMailboxSubmit => exact execCoreMailboxSubmit_keeps _
  case coldReset => exact execColdReset_keeps _
  case warmReset => exact execWarmReset_keeps _ _
  case resetRequestWarm => exact execResetRequestWarm_keeps _
  case resetRequestCold r => exact execColdReset_keeps r
  case bootContinue => exact execBootContinue_keeps _ _
  case floorRaise => exact execFloorRaise_keeps _
  case attestRun => exact execAttestRun_keeps _ _
  case presenceOpen => exact execPresenceOpen_keeps
  case presenceClose => exact execPresenceClose_keeps
  case lossOfSignal => exact execLossOfSignal_keeps _
  case laserInterlockOpen => exact execLaserInterlockOpen_keeps _
  case hotJoin => exact execHotJoin_keeps _ _
  case boundaryScanInstruction => exact execBoundaryScanInstruction_keeps _
  case packageTimeReached => exact execPackageTimeReached_keeps _
  case thermalTripRestart => exact execThermalTripRestart_keeps _ _ _
  case ripenPostponedCheck => exact execRipenPostponedCheck_keeps _ _
  case realmCommandDone => exact execRealmCommandDone_keeps
  case xferStoreDone => exact execXferStoreDone_keeps
  case readyForRemoval => exact execReadyForRemoval_keeps
  case laserInterlockClose => exact execLaserInterlockClose_keeps _
  case plcaBeacon => exact execPlcaBeacon_keeps
  case mgmtPortLinkChange => exact execMgmtPortLinkChange_keeps _
  case neighborDiscovery => exact execNeighborDiscovery_keeps _ _
  case icmpv6Echo => exact execIcmpv6Echo_keeps _ _ _ _

theorem step_keeps {s t : State} (h : step s = .next t) : s.keeps t := by
  unfold step at h
  split at h
  · obtain rfl := Host.Outcome.next.inj h
    exact .of_levels s.idle_levels
  · next c rest _ => exact .after_levels (t := { s with pending := rest }) rfl (exec_keeps c _ t h)

/-- Settles O58: a step keeps the levels, or starts them again, or moves one of them by a move that stays within its range. -/
theorem powerLevelsKept : Obligations.PowerLevelsKept := fun _ _ hs h => (step_keeps h).power hs

/-- Settles O59: the counters stand apart from all that a loss of power or a reset clears, and their one write takes the larger value. -/
theorem oneWayCountersNeverFall : Obligations.OneWayCountersNeverFall := fun _ _ h => (step_keeps h).oneWay

end Sys2Proof.Machine
end

section
/-! PROOFS. Proofs/SheafIssue.lean: what an instruction that a sheaf issues leaves, and the integer and floating-point operations (O21, O23). -/

namespace Sys2Proof.Machine

theorem modAt_modAt {α : Type} (l : List α) (k : Nat) (h : α) (f : α → α) :
    modAt (modAt l k (fun _ => h)) k f = modAt l k (fun _ => f h) := by
  refine List.ext_getElem (by simp [modAt]) fun i _ _ => ?_
  simp only [modAt, List.getElem_mapIdx]
  split <;> rfl

theorem modAt_of_getElem? {α : Type} {l : List α} {k : Nat} {h : α} (hk : l[k]? = some h) (f : α → α) :
    modAt l k f = modAt l k (fun _ => f h) := by
  refine List.ext_getElem (by simp [modAt]) fun i hi _ => ?_
  simp only [modAt, List.getElem_mapIdx]
  split
  · next hik =>
    subst hik
    rw [List.getElem?_eq_getElem (by simpa [modAt] using hi), Option.some_inj] at hk
    rw [hk]
  · rfl

theorem modAt_self {α : Type} {l : List α} {k : Nat} {h : α} (hk : l[k]? = some h) : modAt l k (fun _ => h) = l := by
  refine List.ext_getElem (by simp [modAt]) fun i _ hi => ?_
  simp only [modAt, List.getElem_mapIdx]
  split
  · next hik =>
    subst hik
    rw [List.getElem?_eq_getElem hi, Option.some_inj] at hk
    exact hk.symm
  · rfl

theorem modAt_getElem? {α : Type} {l : List α} {k : Nat} {h : α} (hk : l[k]? = some h) (f : α → α) : (modAt l k f)[k]? = some (f h) := by
  simp [modAt, List.getElem?_mapIdx, hk]

theorem Dev.stook_id {s : Dev} {id : Nat} {st : Stook} (h : s.stook id = some st) : st.id = id := by
  have := List.find?_some h
  simpa using this

theorem Dev.stook_modStook (s : Dev) (id id2 : Nat) {f : Stook → Stook} (hf : ∀ k, (f k).id = k.id) :
    (s.modStook id f).stook id2 = (s.stook id2).map (fun k => if id2 = id then f k else k) := by
  simp only [Dev.stook, Dev.modStook]
  induction s.shf.stooks with
  | nil => rfl
  | cons k ks ih =>
    have hid : (if k.id = id then f k else k).id = k.id := by split <;> simp [hf]
    rw [List.map_cons, List.find?_cons, List.find?_cons, hid]
    by_cases hk : k.id = id2
    · simp [hk]
    · simp [hk, ih]

namespace Dev.startsTo

variable {s' t : Dev} {x : Issue} {st : Stook}

theorem modStook (h : s'.startsTo t x st) {f : Stook → Stook} (hf : ∀ k, (f k).id = k.id) : s'.startsTo (t.modStook x.st.id f) x (f st) where
  rest := by rw [Dev.modStook]; conv_lhs => rw [h.rest]
  here := by rw [Dev.stook_modStook _ _ _ hf, h.here]; simp
  others id hid := by rw [Dev.stook_modStook _ _ _ hf, h.others id hid]; simp [hid]
  next := h.next

theorem modSheaf (h : s'.startsTo t x st) (k : Nat) (f : Sheaf → Sheaf) :
    s'.startsTo (t.modSheaf x.st.id k f) x { st with sheaves := modAt st.sheaves k f } := h.modStook fun _ => rfl

theorem withFresh (h : s'.startsTo t x st) (n : Nat) : s'.startsTo { t with fresh := n } x st where
  rest := by conv_lhs => rw [h.rest]
  here := h.here
  others := h.others
  next := h.next

/-- A change of the sheaf that issues. -/
theorem onSheaf {h : Sheaf} (ht : s'.startsTo t x (x.with h)) (f : Sheaf → Sheaf) :
    s'.startsTo (t.modSheaf x.st.id x.k f) x (x.with (f h)) := by
  have := ht.modSheaf x.k f
  rwa [Issue.with, modAt_modAt] at this

theorem writeLanes {h : Sheaf} (ht : s'.startsTo t x (x.with h)) (n : Nat) (f : Nat → Nat) :
    s'.startsTo (t.writeLanes x n f) x
      (x.with { h with stalks := h.stalks.mapIdx (fun i y => if x.act.contains i then y.write (fDst x.w) n (f i) else y) }) := ht.onSheaf _

theorem writePreds {h : Sheaf} (ht : s'.startsTo t x (x.with h)) (f : Nat → Bool) :
    s'.startsTo (t.writePreds x f) x
      (x.with { h with stalks := h.stalks.mapIdx (fun i y => if x.act.contains i then y.setPred (fDst x.w) (f i) else y) }) := ht.onSheaf _

end Dev.startsTo

/-- What the counts of a start and the ageing of the groups leave, before the instruction acts (R302, R327, R328). -/
def Issue.begun (x : Issue) (s' : Dev) : Dev :=
  (((s'.countStep x.st.proc x.sh.quarter).bump 4 0x100 x.st.proc.val 1).bump 4 0x106 x.st.proc.val x.group.length).modSheaf x.st.id x.k
    (fun h => h.aged x.group)

section
variable {s s' : Dev} {g : SheafRef} {x : Issue}

/-- An instruction that is issued acts on the state that its start leaves. -/
theorem Dev.sheafIssue_of_issues (hi : s.issues s' g x) {opcode : Nat} (hop : fOpcode x.w = opcode) {ok : Dev → Issue → Bool} (hok : ok s' x = true)
    (f : Dev → Issue → Dev) : s.sheafIssue g opcode ok f = f (x.begun s') x := by
  obtain ⟨hstook, hplace, hsheaf, hlaunch, hselect, ⟨d, hfetch, hw⟩, hvalid, hacts, -⟩ := hi
  obtain ⟨st, k, sh, o, l, pc, w, group, act⟩ := x
  dsimp only at *
  subst hplace hw hacts
  unfold Dev.sheafIssue
  simp [hstook, hlaunch, hsheaf, hselect, hfetch, hop, hvalid, hok, Issue.begun]

theorem Dev.issues.id (hi : s.issues s' g x) : x.st.id = g.stook := Dev.stook_id hi.stook

theorem Dev.issues.stook' (hi : s.issues s' g x) : s'.stook x.st.id = some x.st := by
  obtain ⟨hstooks, -, -⟩ := hi.held
  rw [hi.id, ← hi.stook, Dev.stook, Dev.stook, hstooks]

theorem Dev.issues.startsTo (hi : s.issues s' g x) : s'.startsTo (x.begun s') x (x.with (x.sh.aged x.group)) := by
  have h0 : s'.startsTo (((s'.countStep x.st.proc x.sh.quarter).bump 4 0x100 x.st.proc.val 1).bump 4 0x106 x.st.proc.val x.group.length) x x.st :=
    ⟨rfl, hi.stook', fun _ _ => rfl, rfl, rfl⟩
  have := h0.modSheaf x.k (fun h => h.aged x.group)
  rwa [modAt_of_getElem? hi.sheaf] at this

theorem guarded_subset (sh : Sheaf) (w : Nat) (group : List Nat) : guarded sh w group ⊆ group := by
  unfold guarded
  split
  · exact List.filter_subset_self _
  · exact List.filter_subset_self _
  · exact List.Subset.refl _

theorem Dev.issues.act_subset (hi : s.issues s' g x) : x.act ⊆ x.group := hi.acts ▸ guarded_subset ..

end

theorem find?_lanes (lanes : List Nat) (dest : Nat → Int) (i : Nat) :
    (lanes.map fun j => (j, dest j)).find? (fun t => t.1 = i) = if lanes.contains i then some (i, dest i) else none := by
  induction lanes with
  | nil => simp
  | cons j js ih =>
    by_cases hj : j = i
    · simp [hj]
    · have hij : i ≠ j := fun h => hj h.symm
      rw [List.map_cons, List.find?_cons_of_neg (by simpa using hj), ih, List.contains_cons]
      simp [hij]

/-- A sheaf whose group has gone on to its targets. -/
def Sheaf.goes (h : Sheaf) (group : List Nat) (target : Nat → Nat) : Sheaf :=
  { h with stalks := h.stalks.mapIdx (fun i y => if group.contains i then { y with pc := target i } else y) }

/-- The lane's next instruction, where those that perform leave sequence. -/
def Issue.target (x : Issue) (dest : Nat → Int) (i : Nat) : Int := if x.act.contains i then dest i else (x.pc : Int) + 1

/-- Lanes that go on to targets within the code. -/
theorem Dev.goTo_lanes {t : Dev} {x : Issue} {st : Stook} (hst : t.stook x.st.id = some st) (hid : st.id = x.st.id) (lanes : List Nat) (dest : Nat → Int)
    (hin : ∀ i ∈ lanes, 0 ≤ dest i ∧ dest i < x.l.codeLen) :
    t.goTo x (lanes.map fun i => (i, dest i)) = t.modSheaf x.st.id x.k (fun h => h.goes lanes (fun i => (dest i).toNat)) := by
  have hnone : (lanes.map fun i => (i, dest i)).find? (fun t => t.2 < 0 || (x.l.codeLen : Int) ≤ t.2) = none := by
    rw [List.find?_eq_none]
    intro e he
    obtain ⟨i, hi, rfl⟩ := List.mem_map.mp he
    simpa using hin i hi
  have hgoes : (fun (h : Sheaf) => ({ h with stalks := h.stalks.mapIdx (fun i k =>
      match (lanes.map fun i => (i, dest i)).find? (fun t => t.1 = i) with
      | some t => { k with pc := t.2.toNat }
      | none => k) } : Sheaf)) = fun h => h.goes lanes (fun i => (dest i).toNat) := by
    funext h
    simp only [Sheaf.goes, find?_lanes]
    congr 2
    funext i k
    cases lanes.contains i <;> rfl
  unfold Dev.goTo
  rw [hst]
  dsimp only
  rw [hnone, hid]
  exact congrArg (t.modSheaf x.st.id x.k) hgoes

namespace Dev.startsTo

variable {s' t : Dev} {x : Issue} {st : Stook}

theorem goToLanes (ht : s'.startsTo t x st) (hid : st.id = x.st.id) (lanes : List Nat) (dest : Nat → Int)
    (hin : ∀ i ∈ lanes, 0 ≤ dest i ∧ dest i < x.l.codeLen) :
    s'.startsTo (t.goTo x (lanes.map fun i => (i, dest i))) x
      { st with sheaves := modAt st.sheaves x.k (fun h => h.goes lanes (fun i => (dest i).toNat)) } := by
  rw [Dev.goTo_lanes ht.here hid lanes dest hin]
  exact ht.modSheaf _ _

theorem goTo (ht : s'.startsTo t x st) (hid : st.id = x.st.id) (dest : Nat → Int)
    (hin : ∀ i ∈ x.group, 0 ≤ x.target dest i ∧ x.target dest i < x.l.codeLen) :
    s'.startsTo (t.goTo x (x.targets dest)) x
      { st with sheaves := modAt st.sheaves x.k (fun h => h.goes x.group (fun i => (x.target dest i).toNat)) } :=
  ht.goToLanes hid x.group (x.target dest) hin

end Dev.startsTo

/-- A group that goes on in sequence. -/
theorem Dev.startsTo_seq {s' t : Dev} {x : Issue} {st : Stook} (hpc : x.pc + 1 < x.l.codeLen) (hid : st.id = x.st.id) (ht : s'.startsTo t x st) :
    s'.startsTo (t.goTo x (x.targets (fun _ => (x.pc : Int) + 1))) x
      { st with sheaves := modAt st.sheaves x.k (fun h => h.goes x.group (fun _ => x.pc + 1)) } := by
  have htarget (i : Nat) : x.target (fun _ => (x.pc : Int) + 1) i = ((x.pc + 1 : Nat) : Int) := by simp [Issue.target]
  have := ht.goTo hid (fun _ => (x.pc : Int) + 1) fun i _ => by rw [htarget]; omega
  simpa only [htarget, Int.toNat_natCast] using this

section
variable {s : State} {s' : Dev} {g : SheafRef} {x : Issue}

/-- A command that runs an instruction of its sheaf. -/
theorem State.sheafRuns_of {c : Instr} {f : Dev → Dev} (hc : exec c s = s.run f) {st : Stook} (h : s'.startsTo (f s.toDev) x st) :
    s.sheafRuns s' c x st := ⟨_, hc, h, rfl, rfl, rfl, rfl⟩

/-- An instruction that goes on in sequence. -/
theorem Dev.startsTo_sheafStep (hi : Dev.issues s.toDev s' g x) {opcode : Nat} (hop : fOpcode x.w = opcode) (hpc : x.pc + 1 < x.l.codeLen)
    {f : Dev → Issue → Dev} {st : Stook} (hid : st.id = x.st.id) (hf : s'.startsTo (f (x.begun s') x) x st) :
    s'.startsTo (s.sheafStep g opcode f) x { st with sheaves := modAt st.sheaves x.k (fun h => h.goes x.group (fun _ => x.pc + 1)) } := by
  unfold Dev.sheafStep
  rw [Dev.sheafIssue_of_issues hi hop rfl]
  exact Dev.startsTo_seq hpc hid hf

end

/-- The sheaf of an issue once its performing stalks have acted, before the group goes on. -/
def Issue.performed (x : Issue) (f : Nat → Stalk → Stalk) : Sheaf :=
  { x.sh.aged x.group with stalks := (x.sh.aged x.group).stalks.mapIdx (fun i y => if x.act.contains i then f i y else y) }

/-- An effect on a stalk that does not touch how often it was passed over. -/
def agesApart (f : Nat → Stalk → Stalk) : Prop := ∀ i y, f i { y with age := 0 } = { f i y with age := 0 }

theorem Issue.goes_performed {x : Issue} (hact : x.act ⊆ x.group) {f : Nat → Stalk → Stalk} (hf : agesApart f) (target : Nat → Nat) :
    (x.performed f).goes x.group target = x.onward target f := by
  unfold Sheaf.goes Issue.performed Sheaf.aged Issue.onward
  simp only [List.mapIdx_mapIdx]
  congr 2
  funext i y
  by_cases hg : i ∈ x.group
  · by_cases ha : i ∈ x.act
    · simp [hg, ha, hf i y]
    · simp [hg, ha]
  · have ha : i ∉ x.act := fun h => hg (hact h)
    simp [hg, ha]

theorem agesApart_write (f n : Nat) (v : Nat → Nat) : agesApart (fun i y => y.write f n (v i)) := by
  intro i y
  simp only [Stalk.write]
  split <;> rfl

theorem agesApart_setPred (f : Nat) (v : Nat → Bool) : agesApart (fun i y => y.setPred f (v i)) := by
  intro i y
  simp only [Stalk.setPred]
  split <;> rfl

section
variable {s : State} {s' : Dev} {g : SheafRef} {x : Issue}

/-- An instruction of the performing stalks that goes on in sequence, with a change of its stook beside its sheaves. -/
theorem State.sheafRuns_stepThen (hi : Dev.issues s.toDev s' g x) {c : Instr} {opcode : Nat} {act : Dev → Issue → Dev}
    (hc : exec c s = s.run (fun d => d.sheafStep g opcode act)) (hop : fOpcode x.w = opcode) (hpc : x.pc + 1 < x.l.codeLen)
    {f : Nat → Stalk → Stalk} (hf : agesApart f) (also : Stook → Stook) (hid : (also (x.with (x.performed f))).id = x.st.id)
    (hsheaves : ∀ v, also { x.st with sheaves := v } = { also x.st with sheaves := v })
    (hact : s'.startsTo (act (x.begun s') x) x (also (x.with (x.performed f)))) :
    s.sheafRuns s' c x (also (x.with (x.onward (fun _ => x.pc + 1) f))) := by
  have := Dev.startsTo_sheafStep hi hop hpc hid hact
  rw [Issue.with, hsheaves, modAt_modAt, Issue.goes_performed hi.act_subset hf] at this
  refine State.sheafRuns_of hc ?_
  rwa [Issue.with, hsheaves]

/-- An instruction of the performing stalks that goes on in sequence. -/
theorem State.sheafRuns_step (hi : Dev.issues s.toDev s' g x) {c : Instr} {opcode : Nat} {act : Dev → Issue → Dev}
    (hc : exec c s = s.run (fun d => d.sheafStep g opcode act)) (hop : fOpcode x.w = opcode) (hpc : x.pc + 1 < x.l.codeLen)
    {f : Nat → Stalk → Stalk} (hf : agesApart f) (hact : s'.startsTo (act (x.begun s') x) x (x.with (x.performed f))) :
    s.sheafRuns s' c x (x.with (x.onward (fun _ => x.pc + 1) f)) :=
  State.sheafRuns_stepThen hi hc hop hpc hf id rfl (fun _ => rfl) hact

end

/-- Settles O21: each is a step of the performing stalks that writes `intOp` of the operands. -/
theorem sheafIntegerOps : Obligations.SheafIntegerOps := by
  intro c g o s s' x hc hi hop hpc
  have hexec : exec c s = s.run (fun d => d.sheafInt g o) := by
    cases c <;> simp only [integerOf, reduceCtorEq, Option.some.injEq, Prod.mk.injEq] at hc <;> (obtain ⟨rfl, rfl⟩ := hc; rfl)
  exact State.sheafRuns_step hi hexec hop hpc (agesApart_write _ _ _) ((hi.startsTo.writeLanes ..).withFresh _)

section
variable {s : State} {s' : Dev} {g : SheafRef} {x : Issue}

/-- An instruction that writes a value to dst in every performing stalk. -/
theorem State.sheafRuns_writeLanes (hi : Dev.issues s.toDev s' g x) {c : Instr} {opcode n : Nat} {f : Dev → Issue → Nat → Nat}
    (hc : exec c s = s.run (fun d => d.sheafStep g opcode (fun d x => d.writeLanes x n (f d x)))) (hop : fOpcode x.w = opcode)
    (hpc : x.pc + 1 < x.l.codeLen) :
    s.sheafRuns s' c x (x.with (x.onward (fun _ => x.pc + 1) (fun i y => y.write (fDst x.w) n (f (x.begun s') x i)))) :=
  State.sheafRuns_step hi hc hop hpc (agesApart_write _ _ _) (hi.startsTo.writeLanes ..)

end

theorem exec_floatOf {c : Instr} {g : SheafRef} {k o : Nat} (hc : floatOf c = some (g, k, o)) (s : State) :
    (k = 1 ∨ k = 2) ∧ exec c s = s.run (fun d => d.sheafFloat g (k = 2) o) := by
  cases c <;> simp only [floatOf, reduceCtorEq, Option.some.injEq, Prod.mk.injEq] at hc <;> (obtain ⟨rfl, rfl, rfl⟩ := hc; simp; rfl)

theorem exec_functionOf {c : Instr} {g : SheafRef} {o : Nat} (hc : functionOf c = some (g, o)) (s : State) :
    exec c s = s.run (fun d => d.sheafFunc g o) := by
  cases c <;> simp only [functionOf, reduceCtorEq, Option.some.injEq, Prod.mk.injEq] at hc <;> (obtain ⟨rfl, rfl⟩ := hc; rfl)

/-- Settles O23: each is a step of the performing stalks that writes dst; CVT's counts are a change of the stook beside its sheaves. -/
theorem sheafFloatOps : Obligations.SheafFloatOps := by
  intro c g s s' x hi hpc
  refine ⟨fun k o hc hop => ?_, fun o hc hop => ?_, ?_⟩
  · obtain ⟨rfl | rfl, hexec⟩ := exec_floatOf hc s
    · exact State.sheafRuns_step hi hexec hop hpc (agesApart_write _ _ _) (hi.startsTo.writeLanes ..)
    · exact State.sheafRuns_step hi hexec hop hpc (agesApart_write _ _ _) (hi.startsTo.writeLanes ..)
  · exact State.sheafRuns_step hi (exec_functionOf hc s) hop hpc (agesApart_write _ _ _) (hi.startsTo.writeLanes ..)
  · rintro rfl hop
    refine State.sheafRuns_stepThen hi rfl hop hpc (agesApart_write _ _ _) (fun st => { st with counts := st.counts.add _ }) rfl (fun _ => rfl) ?_
    exact ((hi.startsTo.writeLanes ..).modStook (f := fun st => { st with counts := st.counts.add _ }) fun _ => rfl).withFresh _

end Sys2Proof.Machine
end

section
/-! PROOFS. Proofs/SheafValues.lean: selections, cross-lane operations, system values and uniform destinations (O24, O25). -/

namespace Sys2Proof.Machine

theorem Issue.onward_congr (x : Issue) (target : Nat → Nat) {f f' : Nat → Stalk → Stalk} (h : ∀ i ∈ x.act, f i = f' i) :
    x.onward target f = x.onward target f' := by
  simp only [Issue.onward]
  congr 2
  funext i y
  by_cases hi : i ∈ x.act
  · simp only [h i hi]
  · simp [hi]

section
variable {s : State} {s' : Dev} {g : SheafRef} {x : Issue}

/-- An instruction that writes n words to dst in every performing stalk. -/
theorem State.sheafRuns_words (hi : Dev.issues s.toDev s' g x) {c : Instr} {opcode n : Nat} {f : Dev → Issue → Dev}
    (hc : exec c s = s.run (fun d => d.sheafStep g opcode f)) (hop : fOpcode x.w = opcode) (hpc : x.pc + 1 < x.l.codeLen) {u v : Nat → Nat}
    (hf : f (x.begun s') x = (x.begun s').writeLanes x n u) (hv : ∀ i ∈ x.act, u i = v i) :
    s.sheafRuns s' c x (x.with (x.onward (fun _ => x.pc + 1) (fun i y => y.write (fDst x.w) n (v i)))) := by
  rw [← Issue.onward_congr x _ (f := fun i y => y.write (fDst x.w) n (u i)) fun i h => by simp only [hv i h]]
  exact State.sheafRuns_step hi hc hop hpc (agesApart_write _ _ _) (hf ▸ hi.startsTo.writeLanes ..)

/-- An instruction that writes a predicate to dst in every performing stalk. -/
theorem State.sheafRuns_preds (hi : Dev.issues s.toDev s' g x) {c : Instr} {opcode : Nat} {f : Dev → Issue → Dev}
    (hc : exec c s = s.run (fun d => d.sheafStep g opcode f)) (hop : fOpcode x.w = opcode) (hpc : x.pc + 1 < x.l.codeLen) {u v : Nat → Bool}
    (hf : f (x.begun s') x = (x.begun s').writePreds x u) (hv : ∀ i, u i = v i) :
    s.sheafRuns s' c x (x.with (x.onward (fun _ => x.pc + 1) (fun i y => y.setPred (fDst x.w) (v i)))) := by
  obtain rfl : u = v := funext hv
  exact State.sheafRuns_step hi hc hop hpc (agesApart_setPred _ _) (hf ▸ hi.startsTo.writePreds ..)

end

theorem combineAll_cons (ieee : Bool) (m a : Nat) (l : List Nat) :
    combineAll ieee m (a :: l) = if l = [] then firstOp ieee m a else l.foldl (combineOp ieee m) a := by
  cases l <;> rfl

theorem sorted_ready (h : Sheaf) : h.ready.Pairwise (· < ·) := List.pairwise_lt_range.filter _

theorem Sheaf.select_eq_some {h : Sheaf} {pc : Nat} {group : List Nat} (hs : h.select = some (pc, group)) :
    group = h.ready.filter (fun i => h.stalks[i]?.any (fun k => k.pc = pc)) := by
  unfold Sheaf.select at hs
  obtain ⟨p, -, hp⟩ := Option.map_eq_some_iff.mp hs
  obtain ⟨rfl, rfl⟩ := Prod.mk.inj hp
  rfl

/-- The lanes of a group stand in ascending order (R306). -/
theorem Dev.issues.sorted {s s' : Dev} {g : SheafRef} {x : Issue} (hi : s.issues s' g x) : x.group.Pairwise (· < ·) := by
  rw [Sheaf.select_eq_some hi.select]
  exact (sorted_ready x.sh).filter _

theorem testBit_laneMask {l : List Nat} (hl : l.Pairwise (· < ·)) (j : Nat) : (laneMask l).testBit j = true ↔ j ∈ l := by
  have hsum : laneMask l = (l.map (2 ^ ·)).sum := by rw [laneMask, List.sum_eq_foldl]
  rw [← Nat.mem_bitIndices, hsum, Nat.bitIndices_sum_map_two_pow hl.sortedLT]

theorem testBit_laneMask_high {l : List Nat} (hl : l.Pairwise (· < ·)) (j : Nat) : (laneMask l / 2 ^ 32).testBit j = true ↔ j + 32 ∈ l := by
  rw [Nat.testBit_div_two_pow, testBit_laneMask hl]

/-- The live lanes of an issue's sheaf. -/
def Issue.liveLanes (x : Issue) : List Nat := (List.range x.sh.stalks.length).filter (fun i => (x.stalk i).live)

theorem Issue.sorted_liveLanes (x : Issue) : x.liveLanes.Pairwise (· < ·) := List.pairwise_lt_range.filter _

theorem Issue.mem_liveLanes (x : Issue) (i : Nat) : i ∈ x.liveLanes ↔ ∃ y, x.sh.stalks[i]? = some y ∧ y.live = true := by
  simp only [Issue.liveLanes, Issue.stalk, List.mem_filter, List.mem_range, List.getD_eq_getElem?_getD]
  constructor
  · rintro ⟨hi, hl⟩
    exact ⟨x.sh.stalks[i], List.getElem?_eq_getElem hi, by simpa [hi] using hl⟩
  · rintro ⟨y, hy, hl⟩
    obtain ⟨hi, -⟩ := List.getElem?_eq_some_iff.mp hy
    exact ⟨hi, by simpa [hy] using hl⟩

/-- The lane that LANEX reads (R292). -/
theorem lanex_of_nat (x : Issue) (i j : Nat) : (if 0 ≤ (j : Int) && x.group.contains (j : Int).toNat then x.a (j : Int).toNat 1 else x.a i 1)
    = if j ∈ x.group then x.a j 1 else x.a i 1 := by
  simp

theorem lanex_of_sub (x : Issue) (i b : Nat) :
    (if 0 ≤ (i : Int) - b && x.group.contains ((i : Int) - b).toNat then x.a ((i : Int) - b).toNat 1 else x.a i 1)
      = if b ≤ i ∧ i - b ∈ x.group then x.a (i - b) 1 else x.a i 1 := by
  by_cases hb : b ≤ i
  · have : (i : Int) - b = ((i - b : Nat) : Int) := by omega
    rw [this, lanex_of_nat]
    simp [hb]
  · simp [hb]

theorem isEmpty_filter {α : Type} (p : α → Bool) (l : List α) : (!(l.filter p).isEmpty) = l.any p := by
  rw [Bool.eq_iff_iff]
  simp [List.any_eq_true]

theorem length_filter_eq {α : Type} (p : α → Bool) (l : List α) : decide ((l.filter p).length = l.length) = l.all p := by
  rw [Bool.eq_iff_iff]
  simp [List.length_filter_eq_length_iff]

theorem head_le_of_mem {l js : List Nat} {j0 i : Nat} (hl : l.Pairwise (· < ·)) (hcons : l = j0 :: js) (hi : i ∈ l) : j0 ≤ i := by
  subst hcons
  rcases List.mem_cons.mp hi with rfl | hi
  · exact le_rfl
  · exact (List.rel_of_pairwise_cons hl hi).le

/-- Settles O24: each is a step of the performing stalks that writes the value or the predicate; a REDUCE or SCAN of one value is `firstOp` of it
(log entry 88), and a mask of lanes is a sum of powers of two. -/
theorem sheafSelectOps : Obligations.SheafSelectOps := by
  intro g s s' x hi hpc m runs word pred
  refine ⟨fun hop => ?fcmp, fun hop => ?icmp, fun hop => ?pick, fun hop hm => ?and, fun hop hm => ?or, fun hop hm => ?xor, fun hop hm => ?andNot,
    fun hop hm => ?lanexAt, fun hop hm => ?lanexUp, fun hop hm => ?lanexDown, fun hop hm => ?lanexXor, fun hop hm => ?pollAny, fun hop hm => ?pollAll,
    fun hop j0 js hg => ?reduce, fun hop j0 js hg => ?scan, fun hop => ?sysr, fun hop => ?time⟩
  case fcmp => exact State.sheafRuns_preds hi rfl hop hpc rfl fun i => by cases bit m 4 <;> rfl
  case icmp => exact State.sheafRuns_preds hi rfl hop hpc rfl fun i => by cases bit m 4 <;> rfl
  case pick => exact State.sheafRuns_words hi rfl hop hpc rfl fun i _ => rfl
  case and => exact State.sheafRuns_preds hi rfl hop hpc rfl fun i => by simp only [show fMod x.w = 0 from hm]
  case or => exact State.sheafRuns_preds hi rfl hop hpc rfl fun i => by simp only [show fMod x.w = 1 from hm]
  case xor => exact State.sheafRuns_preds hi rfl hop hpc rfl fun i => by simp only [show fMod x.w = 2 from hm]
  case andNot => exact State.sheafRuns_preds hi rfl hop hpc rfl fun i => by simp only [show fMod x.w = 3 from hm]
  case lanexAt => exact State.sheafRuns_words hi rfl hop hpc rfl fun i _ => by simp only [show fMod x.w = 0 from hm]; exact lanex_of_nat ..
  case lanexUp => exact State.sheafRuns_words hi rfl hop hpc rfl fun i _ => by simp only [show fMod x.w = 1 from hm]; exact lanex_of_nat ..
  case lanexDown => exact State.sheafRuns_words hi rfl hop hpc rfl fun i _ => by simp only [show fMod x.w = 2 from hm]; exact lanex_of_sub ..
  case lanexXor => exact State.sheafRuns_words hi rfl hop hpc rfl fun i _ => by simp only [show fMod x.w = 3 from hm]; exact lanex_of_nat ..
  case pollAny =>
    exact State.sheafRuns_preds hi rfl hop hpc (by simp only [show fMod x.w = 0 from hm]) fun _ => isEmpty_filter ..
  case pollAll => exact State.sheafRuns_preds hi rfl hop hpc (by simp only [show fMod x.w = 1 from hm]) fun _ => length_filter_eq ..
  case reduce =>
    refine State.sheafRuns_words hi rfl hop hpc rfl fun i _ => ?_
    simp [m, hg, combineAll_cons, List.foldl_map]
  case scan =>
    refine State.sheafRuns_words hi rfl hop hpc rfl fun i hact => ?_
    have hle : j0 ≤ i := head_le_of_mem hi.sorted hg (hi.act_subset hact)
    simp [m, hg, hle, combineAll_cons, List.foldl_map]
  case sysr =>
    refine ⟨_, State.sheafRuns_words hi rfl hop hpc rfl fun i _ => rfl, fun i => ⟨?_, ?_, ?_, ?_, ?_, ?_, ?_, ?_, ?_, ?_, ?_, ?_, ?_, ?_⟩⟩ <;>
      (intro hm; simp only [show fMod x.w = _ from hm])
    · exact fun j _ => testBit_laneMask hi.sorted j
    · exact fun j _ => testBit_laneMask_high hi.sorted j
    · exact fun j _ => (testBit_laneMask x.sorted_liveLanes j).trans (x.mem_liveLanes j)
    · exact fun j _ => (testBit_laneMask_high x.sorted_liveLanes j).trans (x.mem_liveLanes _)
    · rfl
  case time => exact State.sheafRuns_words hi rfl hop hpc rfl fun i _ => rfl

namespace Dev.startsTo

variable {s' t : Dev} {x : Issue}

theorem writeUniform {h : Sheaf} (ht : s'.startsTo t x (x.with h)) (n v : Nat) :
    s'.startsTo (t.writeUniform x n v) x (x.with { h with u := if x.act = [] then h.u else (h.writeU (fDst x.w) n v).u }) := by
  unfold Dev.writeUniform
  by_cases hact : x.act = []
  · simpa [hact] using ht
  · have hu : ({ h with u := (h.writeU (fDst x.w) n v).u } : Sheaf) = h.writeU (fDst x.w) n v := by
      unfold Sheaf.writeU
      split <;> rfl
    simpa [hact, hu] using ht.onSheaf _

end Dev.startsTo

theorem Issue.performed_id (x : Issue) : x.performed (fun _ y => y) = x.sh.aged x.group := by
  have hid : ((x.sh.aged x.group).stalks.mapIdx fun i y => if x.act.contains i then y else y) = (x.sh.aged x.group).stalks := by
    exact List.ext_getElem (by simp) fun i _ _ => by simp
  rw [Issue.performed, hid]

/-- A group that goes on with no effect on its stalks. -/
theorem Issue.goes_id {s s' : Dev} {g : SheafRef} {x : Issue} (hi : s.issues s' g x) (target : Nat → Nat) :
    (x.sh.aged x.group).goes x.group target = x.onward target (fun _ y => y) := by
  rw [← Issue.goes_performed hi.act_subset (fun _ _ => rfl), Issue.performed_id]

section
variable {s : State} {s' : Dev} {g : SheafRef} {x : Issue}

/-- A write of a sheaf's uniform registers that goes on in sequence. -/
theorem State.sheafRuns_uniform (hi : Dev.issues s.toDev s' g x) {c : Instr} {opcode n v : Nat} {f : Dev → Issue → Dev}
    (hc : exec c s = s.run (fun d => d.sheafStep g opcode f)) (hop : fOpcode x.w = opcode) (hpc : x.pc + 1 < x.l.codeLen) {k : Nat}
    (hf : f (x.begun s') x = { (x.begun s').writeUniform x n v with fresh := k }) :
    s.sheafRuns s' c x (x.with { (x.onward (fun _ => x.pc + 1) (fun _ y => y)) with
      u := if x.act = [] then x.sh.u else (x.sh.writeU (fDst x.w) n v).u }) := by
  have hu : ((x.sh.aged x.group).writeU (fDst x.w) n v).u = (x.sh.writeU (fDst x.w) n v).u := by
    unfold Sheaf.writeU
    split <;> rfl
  have := Dev.startsTo_sheafStep hi hop hpc (st := x.with _) rfl (hf ▸ (hi.startsTo.writeUniform n v).withFresh k)
  rw [Issue.with, modAt_modAt, hu] at this
  rw [← Issue.goes_id hi]
  exact State.sheafRuns_of hc this

end

/-- Settles O25: each is a step that writes dst of the sheaf's uniform registers. LANERD takes its lane number from the lowest performing stalk
(log entry 23), and a lane past the width gives a free value (log entry 21). -/
theorem sheafUniformOps : Obligations.SheafUniformOps := by
  intro g s s' x hi hpc m runs
  refine ⟨fun hop => ?uop, fun hop i0 is hact => ⟨fun hlane => ?lane, fun hlane => ?past⟩, fun hop hm => ?poll⟩
  case uop => exact State.sheafRuns_uniform hi rfl hop hpc rfl
  case lane =>
    refine State.sheafRuns_uniform hi rfl hop hpc (k := s'.fresh + 1) ?_
    simp only [hact, List.headD_cons, hlane, if_true]
    rfl
  case past =>
    refine State.sheafRuns_uniform hi rfl hop hpc (k := s'.fresh + 1) ?_
    simp only [hact, List.headD_cons, hlane.not_gt, if_false]
    rfl
  case poll =>
    refine ⟨laneMask (x.group.filter fun i => (x.stalk i).pred (fA x.w)), State.sheafRuns_uniform hi rfl hop hpc (k := s'.fresh) ?_, fun i => ?_⟩
    · simp only [show fMod x.w = 2 from hm]
      rw [← show ((x.begun s').writeUniform x 2 _).fresh = s'.fresh from by unfold Dev.writeUniform; split <;> rfl]
      rfl
    · rw [testBit_laneMask (hi.sorted.filter _), List.mem_filter]

end Sys2Proof.Machine
end

section
/-! PROOFS. Proofs/SheafMemory.lean: how a stook ends, what a wait counts, and the memory instructions (O28). -/

namespace Sys2Proof.Machine

theorem Dev.op_modOp (s : Dev) (slot : SlotId) {f : Operation → Operation} (hf : ∀ o, (f o).slot = o.slot) :
    (s.modOp slot f).op slot = (s.op slot).map f := by
  simp only [Dev.op, Dev.modOp]
  induction s.cmd.ops with
  | nil => rfl
  | cons o os ih =>
    by_cases ho : o.slot = slot
    · simp [ho, hf]
    · simp [ho, ih]

theorem Dev.op_modOp_ne (s : Dev) {slot slot' : SlotId} (hne : slot' ≠ slot) {f : Operation → Operation} (hf : ∀ o, (f o).slot = o.slot) :
    (s.modOp slot f).op slot' = s.op slot' := by
  simp only [Dev.op, Dev.modOp]
  induction s.cmd.ops with
  | nil => rfl
  | cons o os ih =>
    rw [List.map_cons, List.find?_cons, List.find?_cons, ih]
    by_cases ho : o.slot = slot
    · simp [ho, hf, hne.symm]
    · simp [ho]

/-- A first failure of an operation stands (R214). -/
theorem Dev.op_failOp {s : Dev} {slot : SlotId} {o : Operation} (ho : s.op slot = some o) (hf : o.failed = none) (reason va : Nat) :
    (s.failOp slot reason va).op slot = some { o with failed := some (failStatus reason, reason), faultAddr := va } := by
  rw [Dev.failOp, Dev.op_modOp _ _ fun o => by split <;> rfl, ho]
  simp [hf]

theorem Dev.stook_dropStook (s : Dev) (id : Nat) : (s.dropStook id).stook id = none := by
  simp [Dev.stook, Dev.dropStook]

/-- A stook that fails is gone, and its LAUNCH has its failure (R283, R294). -/
theorem Dev.faultStook_ends {s : Dev} {st : Stook} {o : Operation} (ho : s.op st.slot = some o) (hf : o.failed = none) (reason va : Nat) :
    (s.faultStook st reason va).stook st.id = none
      ∧ (s.faultStook st reason va).op st.slot = some { o with failed := some (failStatus reason, reason), faultAddr := va } :=
  ⟨Dev.stook_dropStook s st.id, Dev.op_failOp (s := s.dropStook st.id) ho hf reason va⟩

section
variable {s : Dev} {s' : Dev} {g : SheafRef} {x : Issue}

theorem Dev.issues.op (hi : s.issues s' g x) : s'.op x.st.slot = some x.o := by
  have h := hi.launch
  obtain ⟨-, -, hcmd⟩ := hi.held
  rw [Dev.op, hcmd, ← Dev.op]
  unfold Dev.launchOf at h
  split at h
  · next o ho =>
    split at h
    · obtain ⟨rfl, -⟩ := Prod.mk.inj (Option.some.inj h)
      exact ho
    · exact absurd h (by simp)
  · exact absurd h (by simp)

theorem Dev.startsTo.op {t : Dev} {st : Stook} (ht : s'.startsTo t x st) (slot : SlotId) : t.op slot = s'.op slot := by
  rw [Dev.op, ht.rest]
  rfl

/-- A command for the instruction of a sheaf that can start. -/
theorem Dev.sheafIssue_waits (hi : s.issues s' g x) {opcode : Nat} (hop : fOpcode x.w = opcode) {ok : Dev → Issue → Bool} (hok : ok s' x = false)
    (f : Dev → Issue → Dev) : s.sheafIssue g opcode ok f = s'.countWait x.st.proc x.sh.quarter := by
  obtain ⟨hstook, hplace, hsheaf, hlaunch, hselect, ⟨d, hfetch, hw⟩, hvalid, hacts, -⟩ := hi
  obtain ⟨st, k, sh, o, l, pc, w, group, act⟩ := x
  dsimp only at *
  subst hplace hw hacts
  unfold Dev.sheafIssue
  simp [hstook, hlaunch, hsheaf, hselect, hfetch, hop, hvalid, hok]

theorem Sheaf.ready_ne_nil {h : Sheaf} (hs : h.select ≠ none) : h.ready ≠ [] := by
  intro hr
  exact hs (by simp [Sheaf.select, Sheaf.groups, hr, lowest])

/-- A quarter of which a sheaf has a ready group waits for nothing that R328 names (R328). -/
theorem Dev.waitCounter_of_ready {s : Dev} {st : Stook} {h : Sheaf} (hst : st ∈ s.shf.stooks) (hh : h ∈ st.sheaves) (hr : h.ready ≠ []) :
    s.waitCounter st.proc h.quarter = 0x103 := by
  obtain ⟨i, hi⟩ := List.exists_mem_of_ne_nil _ hr
  simp only [Sheaf.ready, List.mem_filter, List.mem_range, Option.any_eq_true, Bool.and_eq_true, decide_eq_true_eq] at hi
  obtain ⟨hi, y, hy, hlive, hwait⟩ := hi
  have hmem : h ∈ s.quarterSheaves st.proc h.quarter := by
    simp only [Dev.quarterSheaves, List.mem_flatMap, List.mem_filter, decide_eq_true_eq]
    exact ⟨st, ⟨hst, rfl⟩, hh, trivial⟩
  have hy' : y ∈ h.stalks.filter (fun k => k.live) := List.mem_filter.mpr ⟨List.mem_of_getElem? hy, hlive⟩
  have hall (p : StalkWait → Bool) (hp : p .ready = false) :
      ((s.quarterSheaves st.proc h.quarter).map (fun h => h.stalks.filter (fun k => k.live))).all
        (fun l => !l.isEmpty && l.all (fun k => p k.wait)) = false := by
    rw [List.all_eq_false]
    refine ⟨_, List.mem_map.mpr ⟨h, hmem, rfl⟩, ?_⟩
    rw [Bool.not_eq_true, Bool.and_eq_false_iff]
    exact Or.inr (List.all_eq_false.mpr ⟨y, hy', by simp [hwait, hp]⟩)
  have hne : (s.quarterSheaves st.proc h.quarter).map (fun h => h.stalks.filter (fun k => k.live)) ≠ [] := by
    simpa using List.ne_nil_of_mem hmem
  unfold Dev.waitCounter
  dsimp only
  rw [if_neg (by simpa using hne), if_neg (Bool.eq_false_iff.mp (hall (fun w => decide (w = .memory)) rfl))]
  exact if_neg (Bool.eq_false_iff.mp (hall (fun w => match w with
    | .barrier | .ssync .. => true
    | _ => false) rfl))

theorem Dev.issues.countWait (hi : s.issues s' g x) : s'.countWait x.st.proc x.sh.quarter
    = { s'.bump 4 0x103 x.st.proc.val 1 with shf := { s'.shf with steps := (s'.countStep x.st.proc x.sh.quarter).shf.steps } } := by
  have hc : s'.waitCounter x.st.proc x.sh.quarter = 0x103 := by
    obtain ⟨hstooks, -, -⟩ := hi.held
    refine Dev.waitCounter_of_ready ?_ (List.mem_of_getElem? hi.sheaf) (Sheaf.ready_ne_nil (by simp [hi.select]))
    rw [hstooks]
    exact List.mem_of_find?_eq_some hi.stook
  rw [Dev.countWait, hc]
  rfl
end

/-- The waits of some lanes of a sheaf set. -/
def Sheaf.waits (h : Sheaf) (lanes : List Nat) (w : StalkWait) : Sheaf :=
  { h with stalks := h.stalks.mapIdx (fun i y => if lanes.contains i then { y with wait := w } else y) }

theorem Sheaf.goes_waits (h : Sheaf) (lanes group : List Nat) (w : StalkWait) (target : Nat → Nat) :
    (h.waits lanes w).goes group target = (h.goes group target).waits lanes w := by
  simp only [Sheaf.waits, Sheaf.goes, List.mapIdx_mapIdx]
  congr 2
  funext i y
  dsimp only [Function.comp]
  split <;> split <;> rfl

theorem Dev.startsTo.setWait {s' t : Dev} {x : Issue} {h : Sheaf} (ht : s'.startsTo t x (x.with h)) (lanes : List Nat) (w : StalkWait) :
    s'.startsTo (t.setWait x.st.id x.k lanes w) x (x.with (h.waits lanes w)) := ht.onSheaf _

section
variable {s : State} {s' : Dev} {g : SheafRef} {x : Issue} {c : Instr} {opcode : Nat} {n : Issue → Nat} {reqs : Issue → List LaneReq} {rs : List LaneReq}

/-- The sheaf of an issue that has made its line requests, before its group goes on. -/
def Issue.asking (x : Issue) (rs : List LaneReq) : Sheaf :=
  if rs = [] then x.sh.aged x.group
  else ({ x.sh.aged x.group with accesses := (x.sh.aged x.group).accesses ++ [⟨x.w, x.group, rs, linesOf rs⟩] } : Sheaf).waits x.group .memory

theorem Issue.goes_asking (hi : Dev.issues s.toDev s' g x) (target : Nat → Nat) :
    (x.asking rs).goes x.group target = (let h := x.onward target (fun _ y => y)
      if rs = [] then h else { h with
        accesses := h.accesses ++ [⟨x.w, x.group, rs, linesOf rs⟩],
        stalks := h.stalks.mapIdx (fun i y => if x.group.contains i then { y with wait := .memory } else y) }) := by
  rw [← Issue.goes_id hi, Issue.asking]
  split
  · rfl
  · rw [Sheaf.goes_waits]
    rfl

/-- An access that starts becomes line requests that its group waits for (R318, R319). -/
theorem State.sheafRuns_access (hi : Dev.issues s.toDev s' g x) (hc : exec c s = s.run (fun d => d.sheafAccess g opcode n reqs))
    (hop : fOpcode x.w = opcode) (hpc : x.pc + 1 < x.l.codeLen) (hrs : reqs x = rs) (hal : ∀ r ∈ rs, r.va % n x = 0)
    (hroom : s'.procLines x.st.proc + (linesOf rs).length ≤ 256) :
    let h := x.onward (fun _ => x.pc + 1) (fun _ y => y)
    s.sheafRuns s' c x (x.with (if rs = [] then h else { h with
      accesses := h.accesses ++ [⟨x.w, x.group, rs, linesOf rs⟩],
      stalks := h.stalks.mapIdx (fun i y => if x.group.contains i then { y with wait := .memory } else y) })) := by
  subst hrs
  have hnone : (reqs x).find? (fun r => r.va % n x ≠ 0) = none := List.find?_eq_none.mpr fun r hr => by simp [hal r hr]
  refine State.sheafRuns_of hc ?_
  rw [Dev.sheafAccess, Dev.sheafIssue_of_issues hi hop (by simpa using hroom)]
  dsimp only
  rw [hnone]
  have ht : s'.startsTo (if (reqs x).isEmpty then x.begun s' else ((x.begun s').modSheaf x.st.id x.k
      (fun h => { h with accesses := h.accesses ++ [⟨x.w, x.group, reqs x, linesOf (reqs x)⟩] })).setWait x.st.id x.k x.group .memory) x
      (x.with (x.asking (reqs x))) := by
    unfold Issue.asking
    by_cases hrs : reqs x = []
    · simpa [hrs] using hi.startsTo
    · simpa [hrs] using (hi.startsTo.onSheaf _).setWait x.group .memory
  have := Dev.startsTo_seq (st := x.with (x.asking (reqs x))) hpc rfl ht
  rw [Issue.with, modAt_modAt, Issue.goes_asking hi] at this
  exact this

/-- A misaligned access ends its stook at the first address (R317). -/
theorem State.sheafAccess_ends (hi : Dev.issues s.toDev s' g x) (hc : exec c s = s.run (fun d => d.sheafAccess g opcode n reqs))
    (hop : fOpcode x.w = opcode) (hrs : reqs x = rs) {r : LaneReq} (hr : rs.find? (fun r => r.va % n x ≠ 0) = some r)
    (hroom : s'.procLines x.st.proc + (linesOf rs).length ≤ 256) (hf : x.o.failed = none) :
    ∃ t o', exec c s = .next t ∧ t.stook x.st.id = none ∧ t.op x.st.slot = some o' ∧ o'.failed = some (3, 4) ∧ o'.faultAddr = r.va := by
  subst hrs
  have ho : (x.begun s').op x.st.slot = some x.o := (hi.startsTo.op _).trans hi.op
  obtain ⟨hgone, hop'⟩ := Dev.faultStook_ends ho hf 4 r.va
  refine ⟨_, { x.o with failed := some (3, 4), faultAddr := r.va }, hc, ?_, ?_, rfl, rfl⟩
  all_goals
    dsimp only
    rw [Dev.sheafAccess, Dev.sheafIssue_of_issues hi hop (by simpa using hroom)]
    dsimp only
    rw [hr]
  · exact hgone
  · exact hop'

/-- An access that its processor has no room for waits (R319, R327). -/
theorem State.sheafAccess_waits (hi : Dev.issues s.toDev s' g x) (hc : exec c s = s.run (fun d => d.sheafAccess g opcode n reqs))
    (hop : fOpcode x.w = opcode) (hrs : reqs x = rs) (hroom : 256 < s'.procLines x.st.proc + (linesOf rs).length) : s.sheafWaits s' c x := by
  subst hrs
  refine ⟨_, hc, ⟨rfl, rfl, rfl, rfl⟩, ?_⟩
  dsimp only
  rw [Dev.sheafAccess, Dev.sheafIssue_waits hi hop (by simpa using hroom), hi.countWait]

/-- What a stook-memory instruction does as a step (R317). -/
def localAct (n : Issue → Nat) (off : Issue → Nat → Nat) (f : Dev → Issue → Dev) (d : Dev) (x : Issue) : Dev :=
  match x.act.find? (fun i => off x i % n x ≠ 0 || x.l.smem * 1024 < off x i + n x) with
  | some i => d.faultStook x.st 4 (0x8000000000000000 + off x i)
  | none => f d x

theorem sheafLocal_eq_step (d : Dev) (n : Issue → Nat) (off : Issue → Nat → Nat) (f : Dev → Issue → Dev) :
    d.sheafLocal g opcode n off f = d.sheafStep g opcode (localAct n off f) := rfl

/-- A stook-memory instruction whose every offset is within the memory acts (R317). -/
theorem localAct_inside {d : Dev} {off : Issue → Nat → Nat} (hin : ∀ i ∈ x.act, off x i % n x = 0 ∧ off x i + n x ≤ x.l.smem * 1024)
    (f : Dev → Issue → Dev) : localAct n off f d x = f d x := by
  have hnone : x.act.find? (fun i => off x i % n x ≠ 0 || x.l.smem * 1024 < off x i + n x) = none := by
    rw [List.find?_eq_none]
    intro i hi
    obtain ⟨hal, hend⟩ := hin i hi
    simpa [hal] using hend
  rw [localAct, hnone]

/-- The group of a stook's sheaf goes on. -/
def Issue.stookGoes (x : Issue) (st : Stook) : Stook := { st with sheaves := modAt st.sheaves x.k (fun h => h.goes x.group (fun _ => x.pc + 1)) }

theorem Issue.stookGoes_with (x : Issue) (h : Sheaf) : x.stookGoes (x.with h) = x.with (h.goes x.group (fun _ => x.pc + 1)) := by
  rw [Issue.stookGoes, Issue.with, modAt_modAt]
  rfl

end

theorem modAt_comm {α : Type} (l : List α) (k : Nat) {f f' : α → α} (h : ∀ a, f (f' a) = f' (f a)) : modAt (modAt l k f') k f = modAt (modAt l k f) k f' := by
  refine List.ext_getElem (by simp [modAt]) fun i _ _ => ?_
  simp only [modAt, List.getElem_mapIdx]
  split
  · exact h _
  · rfl

/-- That a group goes on does not bear on what is written to a stalk. -/
theorem Sheaf.goes_modLane (h : Sheaf) (group : List Nat) (target : Nat → Nat) (i f n v : Nat) :
    ({ h with stalks := modAt h.stalks i (fun y => y.write f n v) } : Sheaf).goes group target
      = { h.goes group target with stalks := modAt (h.goes group target).stalks i (fun y => y.write f n v) } := by
  simp only [Sheaf.goes, modAt, List.mapIdx_mapIdx]
  congr 2
  funext j y
  dsimp only [Function.comp, Stalk.write]
  split_ifs <;> rfl

theorem Issue.stookGoes_modLane (x : Issue) (st : Stook) (i f n v : Nat) :
    x.stookGoes (st.modLane x.k i (fun y => y.write f n v)) = (x.stookGoes st).modLane x.k i (fun y => y.write f n v) := by
  unfold Issue.stookGoes Stook.modLane
  dsimp only
  rw [modAt_comm]
  exact fun h => Sheaf.goes_modLane ..

section
variable {s : State} {s' : Dev} {g : SheafRef} {x : Issue} {c : Instr} {opcode : Nat}

/-- An instruction that acts on its stook's memory, within it, goes on in sequence. -/
theorem State.sheafRuns_local (hi : Dev.issues s.toDev s' g x) {n : Issue → Nat} {off : Issue → Nat → Nat} {f : Issue → Stook → Nat → Stook}
    (hc : exec c s = s.run (fun d => d.sheafLocal g opcode n off (fun d x => d.localEach x (f x)))) (hop : fOpcode x.w = opcode)
    (hpc : x.pc + 1 < x.l.codeLen) (hin : ∀ i ∈ x.act, off x i % n x = 0 ∧ off x i + n x ≤ x.l.smem * 1024)
    (hid : ∀ st i, (f x st i).id = st.id) (hgo : ∀ st i, x.stookGoes (f x st i) = f x (x.stookGoes st) i) :
    s.sheafRuns s' c x (x.act.foldl (f x) (x.with (x.onward (fun _ => x.pc + 1) (fun _ y => y)))) := by
  have hids (l : List Nat) (st : Stook) : (l.foldl (f x) st).id = st.id := by
    induction l generalizing st with
    | nil => rfl
    | cons i l ih => rw [List.foldl_cons, ih, hid]
  have hgoes (l : List Nat) (st : Stook) : x.stookGoes (l.foldl (f x) st) = l.foldl (f x) (x.stookGoes st) := by
    induction l generalizing st with
    | nil => rfl
    | cons i l ih => rw [List.foldl_cons, List.foldl_cons, ih, hgo]
  have hstart : s'.startsTo (localAct n off (fun d x => d.localEach x (f x)) (x.begun s') x) x (x.act.foldl (f x) (x.with (x.sh.aged x.group))) := by
    rw [localAct_inside hin]
    exact hi.startsTo.modStook (hids x.act)
  rw [← Issue.goes_id hi, ← Issue.stookGoes_with, ← hgoes]
  exact State.sheafRuns_of hc (Dev.startsTo_sheafStep hi hop hpc (hids x.act _) hstart)

/-- An instruction that reads its stook's memory, within it, writes dst and goes on in sequence. -/
theorem State.sheafRuns_localRead (hi : Dev.issues s.toDev s' g x) {n k : Issue → Nat} {off : Issue → Nat → Nat} {v : Issue → Nat → Nat}
    (hc : exec c s = s.run (fun d => d.sheafLocal g opcode n off (fun d x => d.writeLanes x (k x) (v x)))) (hop : fOpcode x.w = opcode)
    (hpc : x.pc + 1 < x.l.codeLen) (hin : ∀ i ∈ x.act, off x i % n x = 0 ∧ off x i + n x ≤ x.l.smem * 1024) :
    s.sheafRuns s' c x (x.with (x.onward (fun _ => x.pc + 1) (fun i y => y.write (fDst x.w) (k x) (v x i)))) := by
  refine State.sheafRuns_step hi (hc.trans rfl) hop hpc (agesApart_write _ _ _) (act := localAct n off (fun d x => d.writeLanes x (k x) (v x))) ?_
  rw [localAct_inside hin]
  exact hi.startsTo.writeLanes ..

end

theorem foldl_smem (f : Table Byte → Nat → Table Byte) (l : List Nat) (st : Stook) :
    l.foldl (fun st i => { st with smem := f st.smem i }) st = { st with smem := l.foldl f st.smem } := by
  induction l generalizing st with
  | nil => rfl
  | cons i l ih => rw [List.foldl_cons, ih, List.foldl_cons]

/-- Settles O28: LD, ST, ULOAD and AMO are `sheafAccess`, and LDK, STK and AMOK steps on their stook. The address of LD, ST and ULOAD is
`memAddr` (log entry 22), and ULOAD's that of the lowest performing stalk (log entry 23). -/
theorem sheafMemoryOps : Obligations.SheafMemoryOps := by
  intro g s s' x hi hpc m at_ wait_ ld st n amo inside
  have at_of {c : Instr} {opcode k : Nat} {nOf : Issue → Nat} {reqs : Issue → List LaneReq} {rs : List LaneReq}
      (hc : exec c s = s.run (fun d => d.sheafAccess g opcode nOf reqs)) (hop : fOpcode x.w = opcode) (hn : nOf x = k) (hrs : reqs x = rs) :
      at_ c k rs := by
    subst hn
    exact ⟨fun hal hroom => State.sheafRuns_access hi hc hop hpc hrs hal hroom,
      fun r hr hroom hf => State.sheafAccess_ends hi hc hop hrs hr hroom hf⟩
  refine ⟨fun hop => ⟨at_of rfl hop rfl rfl, State.sheafAccess_waits hi rfl hop rfl⟩,
    fun hop => ⟨at_of rfl hop rfl rfl, State.sheafAccess_waits hi rfl hop rfl⟩,
    fun hop i0 is hact => at_of rfl hop rfl (by simp only [hact, List.head?_cons]),
    fun hop => ⟨at_of rfl hop rfl rfl, State.sheafAccess_waits hi rfl hop rfl⟩,
    fun hop hin => ?ldk, fun hop hin => ?stk, fun hop hin => ?amok⟩
  case ldk =>
    have hldk := State.sheafRuns_localRead hi (c := .ldk g) rfl hop hpc hin
    exact hldk
  case stk =>
    have hstk := State.sheafRuns_local hi (c := .stk g) rfl hop hpc hin (fun _ _ => rfl) (fun _ _ => rfl)
    rwa [foldl_smem (fun mem i => Table.setRange 0 mem (localOff x i) (leBytes (2 ^ fMod x.w) (x.c i (sizeWords (fMod x.w)))))] at hstk
  case amok =>
    have hamok := State.sheafRuns_local hi (c := .amok g) rfl hop hpc hin (fun _ _ => rfl) (fun _ _ => Issue.stookGoes_modLane ..)
    exact hamok
end Sys2Proof.Machine
end

section
/-! PROOFS. Proofs/IntegerValues.lean: the integer operations as operations of BitVec (O22). -/

namespace Sys2Proof.Machine

section
variable {w : Nat}

theorem signedOf_toNat (a : BitVec w) : signedOf w a.toNat = a.toInt := by
  have hmod : a.toNat % 2 ^ w = a.toNat := Nat.mod_eq_of_lt a.isLt
  rw [signedOf, hmod, BitVec.toInt_eq_toNat_cond]
  rcases w with _ | w
  · simp [BitVec.of_length_zero]
  · have : 2 * a.toNat < 2 ^ (w + 1) ↔ a.toNat < 2 ^ (w + 1 - 1) := by rw [Nat.pow_succ, Nat.add_sub_cancel]; omega
    simp only [this]

theorem codeOf_eq_toNat (i : Int) : codeOf w i = (BitVec.ofInt w i).toNat := by
  rw [codeOf, BitVec.toNat_ofInt]

/-- The high half of a product of signed words (R292). -/
theorem codeOf_mul_div (a b : BitVec w) : codeOf w (a.toInt * b.toInt / ((2 ^ w : Nat) : Int))
    = (((a.signExtend (2 * w) * b.signExtend (2 * w)) >>> w).setWidth w).toNat := by
  rw [BitVec.signExtend, BitVec.signExtend, ← BitVec.ofInt_mul, codeOf]
  generalize a.toInt * b.toInt = p
  rw [BitVec.toNat_setWidth, BitVec.toNat_ushiftRight, BitVec.toNat_ofInt, Nat.shiftRight_eq_div_pow]
  have hpos : (0 : Int) < ((2 ^ w : Nat) : Int) := by positivity
  have hpow : ((2 ^ (2 * w) : Nat) : Int) = ((2 ^ w : Nat) : Int) * ((2 ^ w : Nat) : Int) := by push_cast; ring
  apply Int.natCast_inj.mp
  rw [Int.toNat_of_nonneg (Int.emod_nonneg _ hpos.ne'), Int.natCast_emod, Int.natCast_ediv,
    Int.toNat_of_nonneg (Int.emod_nonneg _ (by rw [hpow]; positivity)), hpow, Int.emod_def p,
    show p - ((2 ^ w : Nat) : Int) * ((2 ^ w : Nat) : Int) * (p / (((2 ^ w : Nat) : Int) * ((2 ^ w : Nat) : Int)))
      = p + ((2 ^ w : Nat) : Int) * -(((2 ^ w : Nat) : Int) * (p / (((2 ^ w : Nat) : Int) * ((2 ^ w : Nat) : Int)))) from by ring,
    Int.add_mul_ediv_left _ _ hpos.ne', Int.add_neg_mul_emod_self_left]

theorem mul_div_eq (a b : BitVec w) : a.toNat * b.toNat / 2 ^ w = (((a.setWidth (2 * w) * b.setWidth (2 * w)) >>> w).setWidth w).toNat := by
  have hle : 2 ^ w ≤ 2 ^ (2 * w) := Nat.pow_le_pow_right (by decide) (by omega)
  have hpow : 2 ^ (2 * w) = 2 ^ w * 2 ^ w := by rw [two_mul, pow_add]
  have hlt : a.toNat * b.toNat < 2 ^ (2 * w) := hpow ▸ Nat.mul_lt_mul'' a.isLt b.isLt
  rw [BitVec.toNat_setWidth, BitVec.toNat_ushiftRight, BitVec.toNat_mul, BitVec.toNat_setWidth, BitVec.toNat_setWidth,
    Nat.mod_eq_of_lt (a.isLt.trans_le hle), Nat.mod_eq_of_lt (b.isLt.trans_le hle), Nat.mod_eq_of_lt hlt, Nat.shiftRight_eq_div_pow,
    Nat.mod_eq_of_lt (Nat.div_lt_of_lt_mul (hpow ▸ hlt))]

theorem codeOf_div (a : BitVec w) (n : Nat) : codeOf w (a.toInt / ((2 ^ n : Nat) : Int)) = (a.sshiftRight n).toNat := by
  rw [codeOf_eq_toNat, ← BitVec.ofInt_toInt (x := a.sshiftRight n), BitVec.toInt_sshiftRight, Int.shiftRight_eq_div_pow]

theorem popCount_eq (v n : Nat) : popCount v n = ((List.range n).filter (bit v)).length := by
  induction n with
  | zero => rfl
  | succ n ih =>
    rw [popCount, List.range_succ, List.filter_append, List.length_append, ← ih]
    cases h : bit v n <;> simp [h, b2n, add_comm]

theorem leadingZeros_bounds (v n : Nat) (hv : v < 2 ^ n) :
    leadingZeros v n ≤ n ∧ v < 2 ^ (n - leadingZeros v n) ∧ (leadingZeros v n < n → 2 ^ (n - leadingZeros v n - 1) ≤ v) := by
  induction n with
  | zero => simpa [leadingZeros] using hv
  | succ n ih =>
    rw [leadingZeros]
    cases hbit : bit v n
    · have hlt : v < 2 ^ n := by
        refine Nat.lt_pow_two_of_testBit _ fun i hi => ?_
        rcases hi.eq_or_lt with rfl | hi
        · exact hbit
        · exact Nat.testBit_lt_two_pow (hv.trans_le (Nat.pow_le_pow_right (by decide) hi))
      obtain ⟨hle, hlt, hge⟩ := ih hlt
      have hsub : n + 1 - (1 + leadingZeros v n) = n - leadingZeros v n := by omega
      simp only [Bool.false_eq_true, if_false, hsub]
      exact ⟨by omega, hlt, fun h => hge (by omega)⟩
    · simp only [if_true, Nat.sub_zero, Nat.add_sub_cancel]
      exact ⟨by omega, hv, fun _ => Nat.ge_two_pow_of_testBit hbit⟩

theorem movhi_eq (hw : w = 32 ∨ w = 64) (b c : BitVec w) :
    (b.toNat * 2 ^ 16 + c.toNat % 2 ^ 16) % 2 ^ w = ((b <<< 16) ||| (c &&& 0xFFFF)).toNat := by
  have hmask : (0xFFFF : BitVec w).toNat = 2 ^ 16 - 1 := by rcases hw with rfl | rfl <;> rfl
  have hand : (b <<< 16) &&& (c &&& 0xFFFF) = 0#w := by
    ext i hi
    rw [← BitVec.getLsbD_eq_getElem, BitVec.getLsbD_and, BitVec.getLsbD_and, BitVec.getLsbD_shiftLeft,
      show (0xFFFF : BitVec w).getLsbD i = _ from congrArg (Nat.testBit · i) hmask, Nat.testBit_two_pow_sub_one]
    by_cases h16 : i < 16 <;> simp [h16]
  rw [← BitVec.add_eq_or_of_and_eq_zero _ _ hand, BitVec.toNat_add, BitVec.toNat_shiftLeft, BitVec.toNat_and, hmask,
    Nat.and_two_pow_sub_one_eq_mod, Nat.shiftLeft_eq, Nat.mod_add_mod]

end

/-- Settles O22: `signedOf` and `codeOf` are the integer value and the word of `BitVec`, so each value is the word operation of that name. -/
theorem integerOpValues : Obligations.IntegerOpValues := by
  intro w a b c sg free hw f
  have hlt : (if sg then decide (signedOf w a.toNat < signedOf w b.toNat) else decide (a.toNat < b.toNat)) = (if sg then a.slt b else a.ult b) := by
    simp only [signedOf_toNat]
    rfl
  refine ⟨(BitVec.toNat_add ..).symm, ?sub, (BitVec.toNat_mul ..).symm, ?mac, ?mulh, rfl, rfl, rfl, fun hb => ⟨?shl, ?shr⟩, ?min, ?max, popCount_eq .., leadingZeros_bounds _ _ a.isLt,
    rfl, movhi_eq hw b c⟩
  case sub =>
    rw [BitVec.toNat_sub]
    exact congrArg (· % 2 ^ w) (by have := b.isLt; omega)
  case mac => rw [BitVec.toNat_add, BitVec.toNat_mul, Nat.mod_add_mod]; rfl
  case mulh =>
    cases sg
    · exact mul_div_eq a b
    · simp only [f, intOp, signedOf_toNat, if_true]
      exact codeOf_mul_div a b
  case shl => simp only [f, intOp, hb, if_true, BitVec.toNat_shiftLeft, Nat.shiftLeft_eq]
  case shr =>
    cases sg
    · simp only [f, intOp, hb, if_true, Bool.false_eq_true, if_false, BitVec.toNat_ushiftRight, Nat.shiftRight_eq_div_pow]
    · simp only [f, intOp, hb, if_true, signedOf_toNat]
      exact codeOf_div a _
  case min =>
    simp only [f, intOp, hlt]
    exact (apply_ite BitVec.toNat ..).symm
  case max =>
    simp only [f, intOp, hlt]
    exact (apply_ite BitVec.toNat ..).symm
end Sys2Proof.Machine
end

section
/-! PROOFS. Proofs/Ssync.lean: which waits at SSYNC are complete (O27). -/

namespace Sys2Proof.Machine

/-- The lanes that the wait of a lane at SSYNC lets go (R305). -/
def Sheaf.letGo (h : Sheaf) (i : Nat) : List Nat :=
  match h.stalks[i]?.map Stalk.wait with
  | some (.ssync pc mask _) => let l := h.named i mask; if l.all (h.syncAt pc) then l else []
  | _ => []

theorem Sheaf.syncRelease_eq (h : Sheaf) : h.syncRelease = { h with stalks := h.stalks.mapIdx (fun i k =>
    if ((List.range h.stalks.length).flatMap h.letGo).contains i then { k with wait := .ready } else k) } := rfl

theorem Sheaf.letGo_of_ssync {h : Sheaf} {j pc mask : Nat} {since : U64} {y : Stalk} (hy : h.stalks[j]? = some y) (hw : y.wait = .ssync pc mask since) :
    h.letGo j = if (h.named j mask).all (h.syncAt pc) then h.named j mask else [] := by
  rw [Sheaf.letGo, hy, Option.map_some, hw]

theorem Sheaf.letGo_of_not_ssync {h : Sheaf} {i : Nat} (hi : ∀ z, h.stalks[i]? = some z → ∀ p m u, z.wait ≠ .ssync p m u) : h.letGo i = [] := by
  unfold Sheaf.letGo
  split
  · next pc mask since hw =>
    obtain ⟨z, hz, hzw⟩ := Option.map_eq_some_iff.mp hw
    exact absurd hzw (hi z hz _ _ _)
  · rfl

theorem Sheaf.mem_named (h : Sheaf) (j mask i : Nat) :
    i ∈ h.named j mask ↔ ∃ z, h.stalks[i]? = some z ∧ z.live = true ∧ (i = j ∨ bit mask i = true) := by
  simp only [Sheaf.named, List.mem_filter, List.mem_range, Bool.and_eq_true, Bool.or_eq_true, decide_eq_true_eq, Option.any_eq_true]
  constructor
  · rintro ⟨-, hj, z, hz, hl⟩
    exact ⟨z, hz, hl, hj⟩
  · rintro ⟨z, hz, hl, hj⟩
    exact ⟨(List.getElem?_eq_some_iff.mp hz).1, hj, z, hz, hl⟩

theorem Sheaf.syncAt_iff {h : Sheaf} {pc i : Nat} {z : Stalk} (hz : h.stalks[i]? = some z) : h.syncAt pc i = true ↔ ∃ m u, z.wait = .ssync pc m u := by
  rw [Sheaf.syncAt, hz, Option.any_some]
  cases z.wait <;> simp [eq_comm]

/-- A sheaf of whose waits at SSYNC none is complete stands as it is. -/
theorem Sheaf.syncRelease_eq_self {h : Sheaf} (hno : ∀ i, h.letGo i = []) : h.syncRelease = h := by
  have hnil : (List.range h.stalks.length).flatMap h.letGo = [] := by simp [hno]
  have hid : (h.stalks.mapIdx fun i k => if ((List.range h.stalks.length).flatMap h.letGo).contains i then { k with wait := .ready } else k) = h.stalks := by
    rw [hnil]
    exact List.ext_getElem (by simp) fun i _ _ => by simp
  rw [Sheaf.syncRelease_eq, hid]

/-- Settles O27: a wait that is complete lets go all that it names, and one that is not lets none go. -/
theorem ssyncReleases : Obligations.SsyncReleases := by
  intro h j pc mask since y hy hw names
  have hnamed (i : Nat) : i ∈ h.named j mask ↔ ∃ z, names i z := h.mem_named j mask i
  refine ⟨fun hall i z hi => ?_, fun ⟨i, z, hi, hz⟩ hothers => Sheaf.syncRelease_eq_self fun k => ?_⟩
  · obtain ⟨hz, -, -⟩ := id hi
    have hat : (h.named j mask).all (h.syncAt pc) = true := by
      rw [List.all_eq_true]
      intro k hk
      obtain ⟨u, hu⟩ := (hnamed k).mp hk
      exact (Sheaf.syncAt_iff hu.1).mpr (hall k u hu)
    have hdone : i ∈ (List.range h.stalks.length).flatMap h.letGo := by
      refine List.mem_flatMap.mpr ⟨j, List.mem_range.mpr (List.getElem?_eq_some_iff.mp hy).1, ?_⟩
      rw [Sheaf.letGo_of_ssync hy hw, if_pos hat]
      exact (hnamed i).mpr ⟨z, hi⟩
    rw [Sheaf.syncRelease_eq, List.getElem?_mapIdx, hz, Option.map_some, if_pos (List.contains_iff_mem.mpr hdone)]
  · by_cases hk : k = j
    · subst hk
      have hat : (h.named k mask).all (h.syncAt pc) = false := by
        refine List.all_eq_false.mpr ⟨i, (hnamed i).mpr ⟨z, hi⟩, fun hs => ?_⟩
        obtain ⟨m, u, hmu⟩ := (Sheaf.syncAt_iff hi.1).mp hs
        exact hz m u hmu
      rw [Sheaf.letGo_of_ssync hy hw, hat]
      rfl
    · exact Sheaf.letGo_of_not_ssync fun z hz => hothers k z hz hk
end Sys2Proof.Machine
end

section
/-! PROOFS. Proofs/SheafJumps.lean: targets, and the deadlines of barriers and SSYNC. -/

namespace Sys2Proof.Machine

section
variable {s' t : Dev} {x : Issue} {st : Stook}

theorem Dev.startsTo.now (ht : s'.startsTo t x st) : t.now = s'.now := by rw [ht.rest]

/-- A stook whose selected lanes leave the code ends (R295). -/
theorem Dev.startsTo.goTo_ends (ht : s'.startsTo t x st) (hid : st.id = x.st.id) (hslot : st.slot = x.st.slot) (ho : s'.op x.st.slot = some x.o)
    (hf : x.o.failed = none) {dest : Nat → Int} (hout : ∃ i ∈ x.group, x.target dest i < 0 ∨ (x.l.codeLen : Int) ≤ x.target dest i) :
    (t.goTo x (x.targets dest)).stook x.st.id = none
      ∧ ∃ o', (t.goTo x (x.targets dest)).op x.st.slot = some o' ∧ o'.failed = some (3, 4) := by
  obtain ⟨i, hi, hout⟩ := hout
  obtain ⟨e, he⟩ : ∃ e, (x.targets dest).find? (fun t => t.2 < 0 || (x.l.codeLen : Int) ≤ t.2) = some e := by
    refine Option.isSome_iff_exists.mp (List.find?_isSome.mpr ⟨_, List.mem_map.mpr ⟨i, hi, rfl⟩, ?_⟩)
    simpa [Issue.target] using hout
  have hgo : t.goTo x (x.targets dest) = t.faultStook st 4 ((((x.l.codeBase : Int) + 8 * e.2) % (2 ^ 64 : Int)).toNat) := by
    unfold Dev.goTo
    rw [ht.here]
    dsimp only
    rw [he]
  obtain ⟨hgone, hop⟩ := Dev.faultStook_ends (s := t) (st := st) (by rw [ht.op, hslot]; exact ho) hf 4 ((((x.l.codeBase : Int) + 8 * e.2) % (2 ^ 64 : Int)).toNat)
  rw [hgo, ← hid, ← hslot]
  exact ⟨hgone, _, hop, rfl⟩

theorem Dev.goTo_of_gone (h : t.stook x.st.id = none) (ts : List (Nat × Int)) : t.goTo x ts = t := by
  rw [Dev.goTo, h]

end

section
variable {s : State} {s' : Dev} {g : SheafRef} {x : Issue} {c : Instr} {opcode : Nat} {act : Dev → Issue → Dev} {dest : Issue → Nat → Int}

/-- A jump within the code. -/
theorem State.sheafRuns_goes (hi : Dev.issues s.toDev s' g x) (hc : exec c s = s.run (fun d => d.sheafJump g opcode act dest))
    (hop : fOpcode x.w = opcode) (hin : ∀ i ∈ x.group, 0 ≤ x.target (dest x) i ∧ x.target (dest x) i < x.l.codeLen)
    {h : Sheaf} (hact : s'.startsTo (act (x.begun s') x) x (x.with h)) :
    s.sheafRuns s' c x (x.with (h.goes x.group (fun i => (x.target (dest x) i).toNat))) := by
  have := hact.goTo rfl (dest x) hin
  rw [Issue.with, modAt_modAt] at this
  refine State.sheafRuns_of hc ?_
  rwa [Dev.sheafJump, Dev.sheafIssue_of_issues hi hop rfl]

/-- A jump of the performing stalks within the code. -/
theorem State.sheafRuns_jump (hi : Dev.issues s.toDev s' g x) (hc : exec c s = s.run (fun d => d.sheafJump g opcode act dest))
    (hop : fOpcode x.w = opcode) (hin : ∀ i ∈ x.group, 0 ≤ x.target (dest x) i ∧ x.target (dest x) i < x.l.codeLen)
    {f : Nat → Stalk → Stalk} (hf : agesApart f) (hact : s'.startsTo (act (x.begun s') x) x (x.with (x.performed f))) :
    s.sheafRuns s' c x (x.with (x.onward (fun i => (x.target (dest x) i).toNat) f)) := by
  rw [← Issue.goes_performed hi.act_subset hf]
  exact State.sheafRuns_goes hi hc hop hin hact

/-- A jump out of the code ends its stook (R295). -/
theorem State.sheafJump_ends (hi : Dev.issues s.toDev s' g x) (hc : exec c s = s.run (fun d => d.sheafJump g opcode act dest))
    (hop : fOpcode x.w = opcode) (hf : x.o.failed = none)
    (hout : ∃ i ∈ x.group, x.target (dest x) i < 0 ∨ (x.l.codeLen : Int) ≤ x.target (dest x) i)
    {h : Sheaf} (hact : s'.startsTo (act (x.begun s') x) x (x.with h)) :
    ∃ t o', exec c s = .next t ∧ t.stook x.st.id = none ∧ t.op x.st.slot = some o' ∧ o'.failed = some (3, 4) := by
  obtain ⟨hgone, o', ho', hfailed⟩ := hact.goTo_ends rfl rfl hi.op hf hout
  refine ⟨_, o', hc, ?_, ?_, hfailed⟩
  all_goals
    dsimp only
    rw [Dev.sheafJump, Dev.sheafIssue_of_issues hi hop rfl]
  · exact hgone
  · exact ho'
end

section
variable {s' t : Dev} {x : Issue} {h : Sheaf} {st : Stook}

theorem syncLate_eq_none_iff (l : LaunchOp) (now : U64) (h : Sheaf) : syncLate l now h = none
    ↔ ∀ (i : Nat) (y : Stalk), h.stalks[i]? = some y → ∀ pc mask since, y.wait = .ssync pc mask since → now.toNat ≤ (l.deadline since).toNat := by
  simp only [syncLate, List.findSome?_eq_none_iff, List.mem_range]
  constructor
  · intro hall i y hy pc mask since hw
    have := hall i (List.getElem?_eq_some_iff.mp hy).1
    rw [hy, Option.map_some, hw] at this
    by_contra hlt
    simp [not_le.mp hlt] at this
  · intro hall i hi
    split
    · next pc mask since hw =>
      obtain ⟨y, hy, hyw⟩ := Option.map_eq_some_iff.mp hw
      simp [hall i y hy pc mask since hyw]
    · rfl

/-- Whether a wait at SSYNC is too long is about the waits alone (R305). -/
theorem syncLate_of_waits {h' : Sheaf} (hw : h'.stalks.map Stalk.wait = h.stalks.map Stalk.wait) (l : LaunchOp) (now : U64) :
    syncLate l now h' = syncLate l now h := by
  have hlen : h'.stalks.length = h.stalks.length := by simpa using congrArg List.length hw
  simp only [syncLate, hlen, ← List.getElem?_map, hw]

theorem map_mapIdx_of {α β : Type} (l : List α) (f : Nat → α → α) (π : α → β) (h : ∀ i a, π (f i a) = π a) : (l.mapIdx f).map π = l.map π :=
  List.ext_getElem (by simp) fun i _ _ => by simp [h]

theorem Sheaf.waits_aged (h : Sheaf) (group : List Nat) : (h.aged group).stalks.map Stalk.wait = h.stalks.map Stalk.wait :=
  map_mapIdx_of _ _ _ fun i y => by split_ifs <;> rfl

theorem Sheaf.waits_goes (h : Sheaf) (group : List Nat) (target : Nat → Nat) : (h.goes group target).stalks.map Stalk.wait = h.stalks.map Stalk.wait :=
  map_mapIdx_of _ _ _ fun i y => by split_ifs <;> rfl

theorem Dev.startsTo.launchOf (ht : s'.startsTo t x st) (hslot : st.slot = x.st.slot) (hl : s'.launchOf x.st = some (x.o, x.l)) :
    t.launchOf st = some (x.o, x.l) := by
  rw [← hl, Dev.launchOf, ht.op, hslot]
  rfl

theorem Dev.issues.launchOf {s : Dev} {g : SheafRef} (hi : s.issues s' g x) : s'.launchOf x.st = some (x.o, x.l) := by
  obtain ⟨-, -, hcmd⟩ := hi.held
  rw [← hi.launch, Dev.launchOf, Dev.op, hcmd]
  rfl

theorem Issue.with_sheaf (hsh : x.st.sheaves[x.k]? = some x.sh) (h : Sheaf) : (x.with h).sheaves[x.k]? = some h := modAt_getElem? hsh _

theorem Dev.syncFail_eq_map (hst : t.stook st.id = some st) {o : Operation} {l : LaunchOp} (hl : t.launchOf st = some (o, l)) {k : Nat}
    (hh : st.sheaves[k]? = some h) : t.syncFail st.id k = (syncLate l t.now h).map (fun (pc, mask, lane, d) =>
      let named := h.named lane mask
      t.barrierFail st pc true d (stalkMask l.width st (fun j i _ => j = k && named.contains i && !h.syncAt pc i))) := by
  unfold Dev.syncFail
  rw [hst]
  dsimp only
  rw [hl, hh]

/-- A barrier or SSYNC that fails ends its stook (R311, R312). -/
theorem Dev.barrierFail_ends {o : Operation} {l : LaunchOp} (hl : t.launchOf st = some (o, l)) (ho : t.op st.slot = some o) (hf : o.failed = none)
    (pc : Nat) (sync : Bool) (d : U64) (m : Nat) :
    (t.barrierFail st pc sync d m).stook st.id = none ∧ ∃ o', (t.barrierFail st pc sync d m).op st.slot = some o' ∧ o'.failed = some (3, 0xC) := by
  unfold Dev.barrierFail
  rw [hl]
  dsimp only
  have hends (r : RecFields) (die : Die) (va : Nat) := Dev.faultStook_ends (s := (t.report die r).bump 4 0x109 st.proc.val 1) (st := st) (o := o)
    (by
      have hr := (memStep_report t die r).rest
      rw [Dev.op, Dev.bump_cmd, hr]
      exact ho) hf 0xC va
  obtain ⟨hgone, hop⟩ := hends _ _ _
  exact ⟨hgone, _, hop, rfl⟩

/-- The barrier of a stook has not passed its deadline (R310). -/
def Stook.inTime (st : Stook) (now : U64) : Prop := ∀ b, st.barrier = some b → now.toNat < b.1.toNat

section
variable {s : Dev} {g : SheafRef} (hi : s.issues s' g x)
include hi

theorem Dev.issues.syncFail (ht : s'.startsTo t x (x.with h)) (hs : syncLate x.l s'.now h = none) : t.syncFail x.st.id x.k = none := by
  have := Dev.syncFail_eq_map (st := x.with h) ht.here (ht.launchOf rfl hi.launchOf) (Issue.with_sheaf hi.sheaf h)
  rw [ht.now, hs] at this
  exact this

theorem Dev.issues.syncFail_ends (ht : s'.startsTo t x (x.with h)) (hs : syncLate x.l s'.now h ≠ none) (hf : x.o.failed = none) :
    ∃ t', t.syncFail x.st.id x.k = some t' ∧ t'.stook x.st.id = none ∧ ∃ o', t'.op x.st.slot = some o' ∧ o'.failed = some (3, 0xC) := by
  have hl := ht.launchOf (st := x.with h) rfl hi.launchOf
  have := Dev.syncFail_eq_map (st := x.with h) ht.here hl (Issue.with_sheaf hi.sheaf h)
  obtain ⟨e, he⟩ := Option.ne_none_iff_exists'.mp hs
  rw [ht.now, he, Option.map_some] at this
  refine ⟨_, this, ?_⟩
  exact Dev.barrierFail_ends (st := x.with h) hl ((ht.op _).trans hi.op) hf ..

theorem Dev.issues.inTime (ht : s'.startsTo t x (x.with h)) (hb : x.st.inTime s'.now) (hs : syncLate x.l s'.now h = none) (f : Dev → Dev) :
    t.inTime x f = f t := by
  have hany : (x.with h).barrier.any (fun b => decide (b.1.toNat ≤ t.now.toNat)) = false := by
    rw [ht.now]
    cases hx : x.st.barrier with
    | none => simp [Issue.with, hx]
    | some b => simpa [Issue.with, hx] using hb b hx
  have hid : (x.with h).id = x.st.id := rfl
  unfold Dev.inTime
  rw [ht.here]
  dsimp only
  rw [hany, hid, hi.syncFail ht hs]
  rfl

theorem Dev.issues.inTime_ends (ht : s'.startsTo t x (x.with h)) (hlate : (∃ b, x.st.barrier = some b ∧ b.1.toNat ≤ s'.now.toNat) ∨ syncLate x.l s'.now h ≠ none)
    (hf : x.o.failed = none) (f : Dev → Dev) :
    (t.inTime x f).stook x.st.id = none ∧ ∃ o', (t.inTime x f).op x.st.slot = some o' ∧ o'.failed = some (3, 0xC) := by
  have hl := ht.launchOf (st := x.with h) rfl hi.launchOf
  have hid : (x.with h).id = x.st.id := rfl
  unfold Dev.inTime
  rw [ht.here]
  dsimp only
  by_cases hb : ∃ b, x.st.barrier = some b ∧ b.1.toNat ≤ s'.now.toNat
  · obtain ⟨b, hb, hle⟩ := hb
    have hb' : (x.with h).barrier = some b := hb
    rw [if_pos (by simp [hb', ht.now, hle])]
    unfold Dev.generationFail
    rw [hb', hl]
    exact Dev.barrierFail_ends (st := x.with h) hl ((ht.op _).trans hi.op) hf ..
  · have hs := hlate.resolve_left hb
    obtain ⟨t', ht', hends⟩ := hi.syncFail_ends ht hs hf
    have hany : ¬ (x.with h).barrier.any (fun b => decide (b.1.toNat ≤ t.now.toNat)) = true := by
      rw [ht.now, Option.any_eq_true]
      rintro ⟨b, hx, hle⟩
      exact hb ⟨b, hx, by simpa using hle⟩
    rw [if_neg hany, hid, ht']
    exact hends
end
end
end Sys2Proof.Machine
end

section
/-! PROOFS. Proofs/SheafWaits.lean: jumps, EXIT, BAR and SSYNC. -/

namespace Sys2Proof.Machine

section
variable {s : State} {s' t : Dev} {x : Issue} {g : SheafRef} {h : Sheaf} {st : Stook}

/-- The stooks' counts of live and waiting stalks do not see where a group goes. -/
theorem countP_stalks_of {π : Stalk → Bool} {f : Sheaf → Sheaf} (l : List Sheaf) (k : Nat) (hf : ∀ h : Sheaf, (f h).stalks.countP π = h.stalks.countP π) :
    ((modAt l k f).flatMap Sheaf.stalks).countP π = (l.flatMap Sheaf.stalks).countP π := by
  rw [List.countP_flatMap, List.countP_flatMap]
  refine congrArg List.sum (List.ext_getElem (by simp [modAt]) fun i _ _ => ?_)
  simp only [modAt, List.getElem_map, List.getElem_mapIdx, Function.comp]
  split
  · exact hf _
  · rfl

theorem Sheaf.countP_goes (h : Sheaf) (group : List Nat) (target : Nat → Nat) (π : Bool × StalkWait → Bool) :
    (h.goes group target).stalks.countP (fun y => π (y.live, y.wait)) = h.stalks.countP (fun y => π (y.live, y.wait)) := by
  have hmap : (h.goes group target).stalks.map (fun y => (y.live, y.wait)) = h.stalks.map (fun y => (y.live, y.wait)) :=
    map_mapIdx_of _ _ _ fun i y => by split_ifs <;> rfl
  have := congrArg (List.countP π) hmap
  rwa [List.countP_map, List.countP_map] at this

theorem Issue.live_stookGoes (x : Issue) (st : Stook) : (x.stookGoes st).live = st.live :=
  countP_stalks_of _ _ fun h => h.countP_goes _ _ Prod.fst

theorem Issue.waiting_stookGoes (x : Issue) (st : Stook) : (x.stookGoes st).waiting = st.waiting :=
  countP_stalks_of _ _ fun h => h.countP_goes _ _ fun e => e.1 && e.2 = .barrier

/-- The stalks that a barrier releases (R307). -/
def Sheaf.barrierFree (h : Sheaf) : Sheaf := { h with stalks := h.stalks.map (fun y => if y.wait = .barrier then { y with wait := .ready } else y) }

theorem Sheaf.goes_barrierFree (h : Sheaf) (group : List Nat) (target : Nat → Nat) :
    h.barrierFree.goes group target = (h.goes group target).barrierFree := by
  simp only [Sheaf.goes, Sheaf.barrierFree, Sheaf.mk.injEq, true_and, and_true]
  refine List.ext_getElem (by simp) fun i _ _ => ?_
  simp only [List.getElem_mapIdx, List.getElem_map]
  split_ifs <;> rfl

/-- What a complete barrier leaves of its stook (R307, R308). -/
def Stook.released (st : Stook) : Stook := { st with barrier := none, sheaves := st.sheaves.map Sheaf.barrierFree }

theorem Issue.stookGoes_released (x : Issue) (st : Stook) : x.stookGoes st.released = (x.stookGoes st).released := by
  simp only [Issue.stookGoes, Stook.released, Stook.mk.injEq, true_and, and_true]
  refine List.ext_getElem (by simp [modAt]) fun i _ _ => ?_
  simp only [modAt, List.getElem_mapIdx, List.getElem_map]
  split
  · exact Sheaf.goes_barrierFree ..
  · rfl

theorem Dev.startsTo.barrierCheck (ht : s'.startsTo t x st) (hb : st.inTime s'.now) :
    s'.startsTo (t.barrierCheck x.st.id) x (if st.barrier.isSome ∧ st.waiting = st.live then st.released else st) := by
  unfold Dev.barrierCheck
  rw [ht.here]
  dsimp only
  cases hbar : st.barrier with
  | none => simpa using ht
  | some b =>
    have hnot : ¬ b.1.toNat ≤ t.now.toNat := by rw [ht.now]; exact (hb b hbar).not_ge
    simp only [hnot, if_false, Option.isSome_some, true_and]
    split
    · exact ht.modStook (f := Stook.released) fun _ => rfl
    · exact ht

end

section
variable {h : Sheaf} {group : List Nat} {target : Nat → Nat}

theorem Sheaf.getElem?_goes (h : Sheaf) (group : List Nat) (target : Nat → Nat) (i : Nat) :
    (h.goes group target).stalks[i]? = h.stalks[i]?.map (fun y => if group.contains i then { y with pc := target i } else y) := by
  rw [Sheaf.goes, List.getElem?_mapIdx]

theorem Sheaf.letGo_goes (i : Nat) : (h.goes group target).letGo i = h.letGo i := by
  have hw (j : Nat) : (h.goes group target).stalks[j]?.map Stalk.wait = h.stalks[j]?.map Stalk.wait := by
    rw [← List.getElem?_map, Sheaf.waits_goes, List.getElem?_map]
  have hlive (j : Nat) : (h.goes group target).stalks[j]?.any (fun k => k.live) = h.stalks[j]?.any (fun k => k.live) := by
    rw [Sheaf.getElem?_goes]
    cases h.stalks[j]? with
    | none => rfl
    | some y => simp only [Option.map_some, Option.any_some]; cases group.contains j <;> rfl
  have hlen : (h.goes group target).stalks.length = h.stalks.length := by simp [Sheaf.goes]
  have hnamed (j m : Nat) : (h.goes group target).named j m = h.named j m := by simp only [Sheaf.named, hlen, hlive]
  have hat (pc j : Nat) : (h.goes group target).syncAt pc j = h.syncAt pc j := by
    rw [Sheaf.syncAt, Sheaf.syncAt, Sheaf.getElem?_goes]
    cases h.stalks[j]? with
    | none => rfl
    | some y => simp only [Option.map_some, Option.any_some]; cases group.contains j <;> rfl
  have hat' (pc : Nat) : (h.goes group target).syncAt pc = h.syncAt pc := funext (hat pc)
  simp only [Sheaf.letGo, hw, hnamed, hat']

theorem Sheaf.goes_syncRelease : h.syncRelease.goes group target = (h.goes group target).syncRelease := by
  have hlet : (h.goes group target).letGo = h.letGo := funext fun i => Sheaf.letGo_goes i
  have hlen : (h.goes group target).stalks.length = h.stalks.length := by simp [Sheaf.goes]
  rw [Sheaf.syncRelease_eq, Sheaf.syncRelease_eq, hlet, hlen]
  generalize (List.range h.stalks.length).flatMap h.letGo = done
  simp only [Sheaf.goes, List.mapIdx_mapIdx]
  congr 2
  funext i y
  dsimp only [Function.comp]
  split_ifs <;> rfl
end

/-- A sheaf of whose stalks none waits at SSYNC. -/
def Sheaf.noSync (h : Sheaf) : Prop := ∀ y ∈ h.stalks, ∀ p m u, y.wait ≠ .ssync p m u

theorem Sheaf.noSync.of_waits {h h' : Sheaf} (hn : h.noSync) (hw : h'.stalks.map Stalk.wait = h.stalks.map Stalk.wait) : h'.noSync := by
  intro y hy p m u he
  obtain ⟨z, hz, hzw⟩ := List.mem_map.mp (hw ▸ List.mem_map_of_mem (f := Stalk.wait) hy)
  exact hn z hz p m u (hzw.trans he)

theorem Sheaf.noSync.syncLate {h : Sheaf} (hn : h.noSync) (l : LaunchOp) (now : U64) : syncLate l now h = none :=
  (syncLate_eq_none_iff ..).mpr fun _ y hy p m u he => absurd he (hn y (List.mem_of_getElem? hy) p m u)

theorem Sheaf.noSync.syncRelease {h : Sheaf} (hn : h.noSync) : h.syncRelease = h :=
  Sheaf.syncRelease_eq_self fun _ => Sheaf.letGo_of_not_ssync fun z hz => hn z (List.mem_of_getElem? hz)

section
variable {s' t : Dev} {x : Issue} {h : Sheaf}

/-- The performing stalks' waits at SSYNC set one after another. -/
theorem Dev.startsTo.setWaits (ht : s'.startsTo t x (x.with h)) (w : Nat → U64 → StalkWait) (l : List Nat) :
    s'.startsTo (l.foldl (fun s i => s.setWait x.st.id x.k [i] (w i s.now)) t) x
      (x.with { h with stalks := h.stalks.mapIdx (fun i y => if l.contains i then { y with wait := w i s'.now } else y) }) := by
  induction l generalizing t h with
  | nil =>
    have hid : (h.stalks.mapIdx fun i y => if ([] : List Nat).contains i then { y with wait := w i s'.now } else y) = h.stalks :=
      List.ext_getElem (by simp) fun i _ _ => by simp
    rw [hid]
    exact ht
  | cons j js ih =>
    have hset := ih (ht.setWait [j] (w j t.now))
    have hstalks : (h.waits [j] (w j t.now)).stalks.mapIdx (fun i y => if js.contains i then { y with wait := w i s'.now } else y)
        = h.stalks.mapIdx (fun i y => if (j :: js).contains i then { y with wait := w i s'.now } else y) := by
      simp only [Sheaf.waits, List.mapIdx_mapIdx, ht.now]
      congr 1
      funext i y
      by_cases hij : i = j
      · subst hij
        by_cases hjs : i ∈ js <;> simp [hjs]
      · simp [hij]
    rw [hstalks] at hset
    exact hset
end

section
variable {s : State} {s' : Dev} {g : SheafRef} {x : Issue} {c : Instr} {opcode : Nat} {act : Dev → Issue → Dev}

/-- A step that ends its stook. -/
theorem State.sheafStep_ends (hi : Dev.issues s.toDev s' g x) (hc : exec c s = s.run (fun d => d.sheafStep g opcode act)) (hop : fOpcode x.w = opcode)
    {reason : Nat} (hact : (act (x.begun s') x).stook x.st.id = none
      ∧ ∃ o', (act (x.begun s') x).op x.st.slot = some o' ∧ o'.failed = some (3, reason)) :
    ∃ t o', exec c s = .next t ∧ t.stook x.st.id = none ∧ t.op x.st.slot = some o' ∧ o'.failed = some (3, reason) := by
  obtain ⟨hgone, o', ho', hf⟩ := hact
  refine ⟨_, o', hc, ?_, ?_, hf⟩
  all_goals
    dsimp only
    rw [Dev.sheafStep, Dev.sheafIssue_of_issues hi hop rfl, Dev.goTo_of_gone hgone]
  · exact hgone
  · exact ho'

theorem State.sheafIssue_ends (hi : Dev.issues s.toDev s' g x) (hc : exec c s = s.run (fun d => d.sheafIssue g opcode (fun _ _ => true) act))
    (hop : fOpcode x.w = opcode) {reason : Nat} (hact : (act (x.begun s') x).stook x.st.id = none
      ∧ ∃ o', (act (x.begun s') x).op x.st.slot = some o' ∧ o'.failed = some (3, reason)) :
    ∃ t o', exec c s = .next t ∧ t.stook x.st.id = none ∧ t.op x.st.slot = some o' ∧ o'.failed = some (3, reason) := by
  obtain ⟨hgone, o', ho', hf⟩ := hact
  refine ⟨_, o', hc, ?_, ?_, hf⟩
  all_goals
    dsimp only
    rw [Dev.sheafIssue_of_issues hi hop rfl]
  · exact hgone
  · exact ho'

/-- A stook that goes on in sequence after its instruction. -/
theorem State.sheafRuns_stook (hi : Dev.issues s.toDev s' g x) (hc : exec c s = s.run (fun d => d.sheafStep g opcode act)) (hop : fOpcode x.w = opcode)
    (hpc : x.pc + 1 < x.l.codeLen) {st : Stook} (hid : st.id = x.st.id) (hact : s'.startsTo (act (x.begun s') x) x st) :
    s.sheafRuns s' c x (x.stookGoes st) := State.sheafRuns_of hc (Dev.startsTo_sheafStep hi hop hpc hid hact)

/-- A sheaf whose performing group, if there is one, has yielded (R302). -/
def Issue.yielding (x : Issue) (h : Sheaf) : Sheaf := if x.act = [] then h else { h with yielded := some (x.pc + 1) }

theorem Issue.goes_yielding (x : Issue) (h : Sheaf) (group : List Nat) (target : Nat → Nat) :
    (x.yielding h).goes group target = x.yielding (h.goes group target) := by
  unfold Issue.yielding
  split <;> rfl

/-- The jumps, and the instructions that only go on. -/
theorem sheafRuns_jumpOf (hi : Dev.issues s.toDev s' g x) {code : Nat} {target : Issue → Nat → Int} (hj : jumpOf c = some (g, code, target))
    (hop : fOpcode x.w = code) :
    ((∀ i ∈ x.group, 0 ≤ target x i ∧ target x i < x.l.codeLen) →
      let h := x.onward (fun i => (target x i).toNat) (fun _ y => if code = 3 then y.write (fDst x.w) 1 (x.pc + 1) else y)
      s.sheafRuns s' c x (x.with (if code = 8 && !x.act.isEmpty then { h with yielded := some (x.pc + 1) } else h))) ∧
    ((∃ i ∈ x.group, target x i < 0 ∨ (x.l.codeLen : Int) ≤ target x i) → x.o.failed = none →
      ∃ t o', exec c s = .next t ∧ t.stook x.st.id = none ∧ t.op x.st.slot = some o' ∧ o'.failed = some (3, 4)) := by
  have hperf : s'.startsTo (x.begun s') x (x.with (x.performed fun _ y => y)) := x.performed_id ▸ hi.startsTo
  have hseq (i : Nat) : x.target (fun _ => (x.pc : Int) + 1) i = (x.pc : Int) + 1 := by simp [Issue.target]
  cases c <;> simp only [jumpOf, reduceCtorEq, Option.some.injEq, Prod.mk.injEq] at hj <;> obtain ⟨rfl, rfl, rfl⟩ := hj
  case sheafNop =>
    refine ⟨fun hin => ?_, fun hout hf => State.sheafJump_ends hi (dest := fun x _ => (x.pc : Int) + 1) rfl hop hf (by simpa only [hseq]) hperf⟩
    have := State.sheafRuns_jump hi (c := .sheafNop _) (dest := fun x _ => (x.pc : Int) + 1) rfl hop (by simpa only [hseq]) (fun _ _ => rfl) hperf
    simp only [hseq] at this
    exact this
  case jmp =>
    exact ⟨fun hin => State.sheafRuns_jump hi (c := .jmp _) rfl hop hin (fun _ _ => rfl) hperf, fun hout hf => State.sheafJump_ends hi rfl hop hf hout hperf⟩
  case jmpr =>
    exact ⟨fun hin => State.sheafRuns_jump hi (c := .jmpr _) rfl hop hin (fun _ _ => rfl) hperf, fun hout hf => State.sheafJump_ends hi rfl hop hf hout hperf⟩
  case call =>
    have hcall := hi.startsTo.writeLanes 1 (fun _ => x.pc + 1)
    exact ⟨fun hin => State.sheafRuns_jump hi (c := .call _) rfl hop hin (agesApart_write _ _ _) hcall,
      fun hout hf => State.sheafJump_ends hi rfl hop hf hout hcall⟩
  case yield =>
    have hyield : s'.startsTo (if x.act.isEmpty then x.begun s' else (x.begun s').modSheaf x.st.id x.k (fun h => { h with yielded := some (x.pc + 1) })) x
        (x.with (x.yielding (x.sh.aged x.group))) := by
      unfold Issue.yielding
      by_cases hact : x.act = []
      · simpa [hact] using hi.startsTo
      · simpa [hact] using hi.startsTo.onSheaf _
    refine ⟨fun hin => ?_, fun hout hf => State.sheafJump_ends hi (dest := fun x _ => (x.pc : Int) + 1) rfl hop hf (by simpa only [hseq]) hyield⟩
    have := State.sheafRuns_goes hi (c := .yield _) (dest := fun x _ => (x.pc : Int) + 1) rfl hop (by simpa only [hseq]) hyield
    rw [Issue.goes_yielding, Issue.goes_id hi, Issue.yielding] at this
    simp only [hseq] at this
    simpa only [Nat.reduceEqDiff, decide_true, decide_false, Bool.true_and, Bool.not_eq_true', List.isEmpty_eq_false_iff, ne_eq, ite_not, if_false]
      using this
/-- Where no stalk of a group leaves, its stalks stand at its program counter. -/
theorem Dev.issues.pc (hi : Dev.issues s.toDev s' g x) {i : Nat} (hg : i ∈ x.group) {y : Stalk} (hy : x.sh.stalks[i]? = some y) :
    y.pc = x.pc ∧ y.wait = .ready := by
  rw [Sheaf.select_eq_some hi.select, List.mem_filter, hy, Option.any_some] at hg
  obtain ⟨hr, hpc⟩ := hg
  simp only [Sheaf.ready, List.mem_filter, hy, Option.any_some, Bool.and_eq_true, decide_eq_true_eq] at hr
  exact ⟨by simpa using hpc, hr.2.2⟩

/-- The sheaf of an issue whose performing stalks have ended and whose others have gone on (R281). -/
theorem Issue.goes_ended (hi : Dev.issues s.toDev s' g x) :
    (x.performed fun _ y => { y with live := false }).goes (x.group.filter fun i => !x.act.contains i) (fun _ => x.pc + 1)
      = x.onward (fun i => if x.act.contains i then x.pc else x.pc + 1) (fun _ y => { y with live := false }) := by
  simp only [Sheaf.goes, Issue.performed, Sheaf.aged, Issue.onward, List.mapIdx_mapIdx, Sheaf.mk.injEq, true_and, and_true]
  refine List.ext_getElem (by simp) fun i hi' _ => ?_
  simp only [List.getElem_mapIdx, Function.comp]
  have hlt : i < x.sh.stalks.length := by simpa using hi'
  by_cases hg : i ∈ x.group
  · by_cases ha : i ∈ x.act
    · have hpc : x.sh.stalks[i].pc = x.pc := (hi.pc hg (List.getElem?_eq_getElem hlt)).1
      simp [hg, ha, ← hpc]
    · simp [hg, ha]
  · have ha : i ∉ x.act := fun h => hg (hi.act_subset h)
    simp [hg, ha]

/-- A stook of which a stalk is live goes on after an EXIT (R281). -/
theorem Dev.exitStook_of_live {t : Dev} {st : Stook} (hst : t.stook st.id = some st) (hlive : ∃ k ∈ st.sheaves, ∃ y ∈ k.stalks, y.live = true) :
    t.exitStook st.id = t := by
  have hall : ¬ st.sheaves.all (fun h => h.stalks.all (fun k => !k.live)) = true := by
    obtain ⟨k, hk, y, hy, hl⟩ := hlive
    intro h
    have := List.all_eq_true.mp (List.all_eq_true.mp h k hk) y hy
    simp [hl] at this
  rw [Dev.exitStook, hst]
  exact if_neg hall

theorem Dev.exitStook_of_ended {t : Dev} {st : Stook} (hst : t.stook st.id = some st) (hend : ∀ k ∈ st.sheaves, ∀ y ∈ k.stalks, y.live = false) :
    t.exitStook st.id = ((t.dropStook st.id).bump 4 0x108 st.proc.val 1).modOp st.slot (fun o =>
        { o with written := o.written ++ [st.ordinal], counts := o.counts.add st.counts }) := by
  have hall : st.sheaves.all (fun h => h.stalks.all (fun k => !k.live)) = true :=
    List.all_eq_true.mpr fun k hk => List.all_eq_true.mpr fun y hy => by simp [hend k hk y hy]
  rw [Dev.exitStook, hst]
  exact if_pos hall

end

theorem Dev.objAt_of_obj {s t : Dev} (h : t.obj = s.obj) {a b c : Nat} : t.objAt a b c = s.objAt a b c := by
  rw [Dev.objAt, Dev.obj!, h]
  rfl

/-- What an EXIT does before its stook may end: the performing stalks end, the others of the group go on, and the waits that are complete end. -/
def Dev.exitLanes (s : Dev) (x : Issue) : Dev :=
  let s := s.modSheaf x.st.id x.k (fun h => { h with stalks := h.stalks.mapIdx (fun i k => if x.act.contains i then { k with live := false } else k) })
  let s := s.goTo x ((x.group.filter (fun i => !x.act.contains i)).map (fun i => (i, (x.pc : Int) + 1)))
  (s.syncCheck x.st.id x.k).barrierCheck x.st.id

theorem exec_sExit (g : SheafRef) (s : State) : exec (.sExit g) s
    = s.run (fun d => d.sheafIssue g 0x04 (fun _ _ => true) (fun s x => s.inTime x fun s => (s.exitLanes x).exitStook x.st.id)) := rfl

section
variable {s : State} {s' : Dev} {g : SheafRef} {x : Issue}

theorem Issue.inTime_of_none (hbar : x.st.barrier = none) : x.st.inTime s'.now := fun b hb => by rw [hbar] at hb; exact absurd hb (by simp)

theorem Dev.issues.exitLanes (hi : Dev.issues s.toDev s' g x) (hbar : x.st.barrier = none) (hns : x.sh.noSync)
    (hin : x.act = x.group ∨ x.pc + 1 < x.l.codeLen) : s'.startsTo ((x.begun s').exitLanes x) x
      (x.with (x.onward (fun i => if x.act.contains i then x.pc else x.pc + 1) (fun _ y => { y with live := false }))) := by
  have hdead : s'.startsTo _ x (x.with (x.performed fun _ y => { y with live := false })) :=
    hi.startsTo.onSheaf (fun h => { h with stalks := h.stalks.mapIdx (fun i k => if x.act.contains i then { k with live := false } else k) })
  have hgo := hdead.goToLanes rfl (x.group.filter fun i => !x.act.contains i) (fun _ => (x.pc : Int) + 1) fun i hi => by
    rcases hin with heq | hpc
    · obtain ⟨hg, hna⟩ := List.mem_filter.mp hi
      rw [heq] at hna
      simp [hg] at hna
    · omega
  rw [Issue.with, modAt_modAt] at hgo
  have hgoes := Issue.goes_ended hi
  generalize hh : x.onward (fun i => if x.act.contains i then x.pc else x.pc + 1) (fun _ y => { y with live := false }) = h at hgoes ⊢
  have hpc : (fun _ : Nat => ((x.pc : Int) + 1).toNat) = fun _ => x.pc + 1 := by funext; omega
  rw [hpc, hgoes] at hgo
  have hns' : h.noSync := by
    refine hns.of_waits ?_
    rw [← hh]
    exact map_mapIdx_of _ _ _ fun i y => by dsimp only; split_ifs <;> rfl
  have hsync := hgo.onSheaf (h := h) Sheaf.syncRelease
  rw [hns'.syncRelease] at hsync
  unfold Dev.exitLanes Dev.syncCheck
  dsimp only
  rw [hi.syncFail (h := h) hgo (hns'.syncLate _ _), Option.getD_none]
  have := hsync.barrierCheck (st := x.with h) (Issue.inTime_of_none hbar)
  rwa [if_neg (by simp [Issue.with, hbar])] at this

/-- EXIT of a stook that has no wait of its own open (R281). -/
theorem sheafRuns_exit (hi : Dev.issues s.toDev s' g x) (hop : fOpcode x.w = 0x04) (hbar : x.st.barrier = none)
    (hns : ∀ h ∈ x.st.sheaves, ∀ y ∈ h.stalks, ∀ p k since, y.wait ≠ .ssync p k since) (hin : x.act = x.group ∨ x.pc + 1 < x.l.codeLen) :
    let h := x.onward (fun i => if x.act.contains i then x.pc else x.pc + 1) (fun _ y => { y with live := false })
    ((∃ k ∈ (x.with h).sheaves, ∃ y ∈ k.stalks, y.live = true) → s.sheafRuns s' (.sExit g) x (x.with h)) ∧
    ((∀ k ∈ (x.with h).sheaves, ∀ y ∈ k.stalks, y.live = false) → ∃ t o', exec (.sExit g) s = .next t ∧ t.stook x.st.id = none
      ∧ t.op x.st.slot = some o' ∧ o'.written = x.o.written ++ [x.st.ordinal] ∧ o'.counts = x.o.counts.add x.st.counts
      ∧ t.objAt 4 0x108 x.st.proc.val = (s'.objAt 4 0x108 x.st.proc.val + 1) % 2 ^ 64) := by
  have hns' : x.sh.noSync := hns x.sh (List.mem_of_getElem? hi.sheaf)
  have hlanes := hi.exitLanes hbar hns' hin
  have hissue : s.toDev.sheafIssue g 0x04 (fun _ _ => true) (fun s x => s.inTime x fun s => (s.exitLanes x).exitStook x.st.id)
      = ((x.begun s').exitLanes x).exitStook x.st.id := by
    rw [Dev.sheafIssue_of_issues hi hop rfl]
    exact hi.inTime hi.startsTo (Issue.inTime_of_none hbar) (Sheaf.noSync.syncLate (hns'.of_waits (x.sh.waits_aged _)) _ _) _
  refine ⟨fun hlive => ?_, fun hend => ?_⟩
  · have hexit := Dev.exitStook_of_live hlanes.here hlive
    refine State.sheafRuns_of (exec_sExit g s) ?_
    rw [hissue]
    exact hexit.symm ▸ hlanes
  · have hexit := Dev.exitStook_of_ended hlanes.here hend
    have hexec : exec (.sExit g) s = .next { s with toDev := ((x.begun s').exitLanes x).exitStook x.st.id } := by
      rw [exec_sExit, ← hissue]
      rfl
    have hid : (x.with (x.onward (fun i => if x.act.contains i then x.pc else x.pc + 1) (fun _ y => { y with live := false }))).id = x.st.id := rfl
    rw [hid] at hexit
    generalize (x.begun s').exitLanes x = d at *
    have hobj : d.objAt 4 0x108 x.st.proc.val = s'.objAt 4 0x108 x.st.proc.val := by
      rw [Dev.objAt_of_obj (congrArg Dev.obj hlanes.rest)]
      exact (Dev.objAt_bump _ _ (by omega) (by omega) (by omega) (by omega)).trans
        ((if_neg (by omega)).trans ((Dev.objAt_bump _ _ (by omega) (by omega) (by omega) (by omega)).trans (if_neg (by omega))))
    refine ⟨_, { x.o with written := x.o.written ++ [x.st.ordinal], counts := x.o.counts.add x.st.counts }, hexec, ?_, ?_, rfl, rfl, ?_⟩ <;>
      (dsimp only; rw [hexit])
    · exact Dev.stook_dropStook d x.st.id
    · have ho : ((d.dropStook x.st.id).bump 4 0x108 x.st.proc.val 1).op x.st.slot = some x.o := (hlanes.op _).trans hi.op
      refine Eq.trans (Dev.op_modOp _ _ ?_) (congrArg (Option.map _) ho)
      exact fun _ => rfl
    · rw [← hobj]
      exact (Dev.objAt_bump (d.dropStook x.st.id) 1 (by omega) (by omega) (by omega) (by omega)).trans (if_pos ⟨rfl, rfl, rfl⟩)

/-- BAR (R307, R308, R310). -/
theorem sheafRuns_bar (hi : Dev.issues s.toDev s' g x) (hop : fOpcode x.w = 0x05) (hact : x.act ≠ []) (hpc : x.pc + 1 < x.l.codeLen) :
    let b := (x.st.barrier.getD (s'.now + BitVec.ofNat 64 (x.l.timeoutUs * 1000), x.pc))
    let st := { (x.with (x.onward (fun _ => x.pc + 1) (fun _ y => { y with wait := .barrier }))) with barrier := some b }
    s'.now.toNat < b.1.toNat → syncLate x.l s'.now x.sh = none →
    (st.waiting ≠ st.live → s.sheafRuns s' (.bar g) x st) ∧ (st.waiting = st.live → s.sheafRuns s' (.bar g) x st.released) := by
  intro b st hb hs
  have hin : x.st.inTime s'.now := fun b' hb' => by
    have : b = b' := by simp only [b, hb', Option.getD_some]
    rwa [this] at hb
  have hsaged : syncLate x.l s'.now (x.sh.aged x.group) = none := (syncLate_of_waits (x.sh.waits_aged _) ..).trans hs
  have hor : x.st.barrier.or (some (x.l.deadline s'.now, x.pc)) = some b := by cases hx : x.st.barrier <;> simp [b, hx, LaunchOp.deadline]
  let st1 : Stook := { (x.with (x.performed fun _ y => { y with wait := .barrier })) with
    barrier := x.st.barrier.or (some (x.l.deadline s'.now, x.pc)) }
  have hgoes : x.stookGoes st1 = st := by
    have := x.stookGoes_with (x.performed fun _ y => { y with wait := .barrier })
    rw [Issue.goes_performed hi.act_subset fun _ _ => rfl] at this
    exact (congrArg (fun k : Stook => { k with barrier := x.st.barrier.or (some (x.l.deadline s'.now, x.pc)) }) this).trans
      (congrArg (fun o => ({ (x.with _) with barrier := o } : Stook)) hor)
  have hset : s'.startsTo (((x.begun s').setWait x.st.id x.k x.act .barrier).modStook x.st.id
      (fun st => { st with barrier := st.barrier.or (some (x.l.deadline s'.now, x.pc)) })) x st1 :=
    (hi.startsTo.setWait x.act .barrier).modStook fun _ => rfl
  have hcheck := hset.barrierCheck fun b' hb' => by
    rw [show st1.barrier = some b from hor, Option.some_inj] at hb'
    exact hb' ▸ hb
  have hrun {st2 : Stook} (hid : st2.id = x.st.id) (h : (if st1.barrier.isSome ∧ st1.waiting = st1.live then st1.released else st1) = st2) :
      s.sheafRuns s' (.bar g) x (x.stookGoes st2) := by
    refine State.sheafRuns_stook hi rfl hop hpc hid ?_
    dsimp only
    rw [if_neg (by simpa using hact), hi.inTime hi.startsTo hin hsaged]
    exact h ▸ hcheck
  have hsome : st1.barrier.isSome := by rw [show st1.barrier = some b from hor]; rfl
  rw [← hgoes, Issue.waiting_stookGoes, Issue.live_stookGoes, ← Issue.stookGoes_released]
  exact ⟨fun hne => hrun rfl (if_neg fun h => hne h.2), fun heq => hrun rfl (if_pos ⟨hsome, heq⟩)⟩

/-- SSYNC (R305). -/
theorem sheafRuns_ssync (hi : Dev.issues s.toDev s' g x) (hop : fOpcode x.w = 0x06) (hpc : x.pc + 1 < x.l.codeLen) (hact : x.act ≠ []) :
    let h := x.onward (fun _ => x.pc + 1) (fun i y => { y with wait := .ssync x.pc (x.a i 2) s'.now })
    (x.st.inTime s'.now → syncLate x.l s'.now h = none → s.sheafRuns s' (.ssync g) x (x.with h.syncRelease)) ∧
    (syncLate x.l s'.now h ≠ none → x.o.failed = none → ∃ t o', exec (.ssync g) s = .next t ∧ t.stook x.st.id = none
      ∧ t.op x.st.slot = some o' ∧ o'.failed = some (3, 0xC)) := by
  intro h
  have hset := hi.startsTo.setWaits (fun i now => .ssync x.pc (x.a i 2) now) x.act
  have hperf : (x.performed fun i y => { y with wait := .ssync x.pc (x.a i 2) s'.now }).goes x.group (fun _ => x.pc + 1) = h :=
    Issue.goes_performed hi.act_subset (fun _ _ => rfl) _
  have hlate : syncLate x.l s'.now (x.performed fun i y => { y with wait := .ssync x.pc (x.a i 2) s'.now }) = syncLate x.l s'.now h := by
    rw [← hperf, syncLate_of_waits (Sheaf.waits_goes ..)]
  change s'.startsTo _ x (x.with (x.performed fun i y => { y with wait := .ssync x.pc (x.a i 2) s'.now })) at hset
  have hexec : exec (.ssync g) s = s.run (fun d => d.sheafStep g 0x06 (fun s x => if x.act.isEmpty then s else s.inTime x fun s =>
    (x.act.foldl (fun s i => s.setWait x.st.id x.k [i] (.ssync x.pc (x.a i 2) s.now)) s).syncCheck x.st.id x.k)) := rfl
  refine ⟨fun hin hs => ?_, fun hs hf => State.sheafStep_ends hi hexec hop ?_⟩
  · have haged : syncLate x.l s'.now (x.sh.aged x.group) = none := by
      refine (syncLate_eq_none_iff ..).mpr fun i y hy pc mask since hw => ?_
      have hna : i ∉ x.act := fun ha => by
        rw [Sheaf.aged, List.getElem?_mapIdx] at hy
        obtain ⟨z, hz, rfl⟩ := Option.map_eq_some_iff.mp hy
        have hready := (hi.pc (hi.act_subset ha) hz).2
        simp [hi.act_subset ha, hready] at hw
      exact (syncLate_eq_none_iff ..).mp (hlate.trans hs) i y (by rw [Issue.performed, List.getElem?_mapIdx, hy]; simp [hna]) pc mask since hw
    have hgo := x.stookGoes_with (x.performed fun i y => { y with wait := .ssync x.pc (x.a i 2) s'.now }).syncRelease
    rw [Sheaf.goes_syncRelease, hperf] at hgo
    rw [← hgo]
    refine State.sheafRuns_stook hi hexec hop hpc rfl ?_
    rw [if_neg (by simpa using hact), hi.inTime hi.startsTo hin haged, Dev.syncCheck, hi.syncFail hset (hlate.trans hs), Option.getD_none]
    exact hset.onSheaf _
  · rw [if_neg (by simpa using hact)]
    by_cases hlate' : (∃ b, x.st.barrier = some b ∧ b.1.toNat ≤ s'.now.toNat) ∨ syncLate x.l s'.now (x.sh.aged x.group) ≠ none
    · exact hi.inTime_ends hi.startsTo hlate' hf _
    · obtain ⟨hb, haged⟩ := not_or.mp hlate'
      have hin : x.st.inTime s'.now := fun b hb' => not_le.mp fun hle => hb ⟨b, hb', hle⟩
      obtain ⟨t', ht', hends⟩ := hi.syncFail_ends hset (hlate ▸ hs) hf
      rw [hi.inTime hi.startsTo hin (not_not.mp haged), Dev.syncCheck, ht']
      exact hends

/-- A BAR or SSYNC that performs, or an EXIT, that finds a deadline passed ends its stook (R310 to R312). -/
theorem sheafEnds_late (hi : Dev.issues s.toDev s' g x) {c : Instr}
    (hc : (c = .sExit g ∧ fOpcode x.w = 0x04) ∨ (c = .bar g ∧ fOpcode x.w = 0x05 ∧ x.act ≠ []) ∨ (c = .ssync g ∧ fOpcode x.w = 0x06 ∧ x.act ≠ []))
    (hlate : (∃ b, x.st.barrier = some b ∧ b.1.toNat ≤ s'.now.toNat) ∨ syncLate x.l s'.now x.sh ≠ none) (hf : x.o.failed = none) :
    ∃ t o', exec c s = .next t ∧ t.stook x.st.id = none ∧ t.op x.st.slot = some o' ∧ o'.failed = some (3, 0xC) := by
  rw [← syncLate_of_waits (x.sh.waits_aged x.group)] at hlate
  have hends (f : Dev → Dev) := hi.inTime_ends hi.startsTo hlate hf f
  obtain ⟨rfl, hop⟩ | ⟨rfl, hop, hact⟩ | ⟨rfl, hop, hact⟩ := hc
  · exact State.sheafIssue_ends hi (exec_sExit g s) hop (hends _)
  · refine State.sheafStep_ends hi (c := .bar g) rfl hop ?_
    rw [if_neg (by simpa using hact)]
    exact hends _
  · refine State.sheafStep_ends hi (c := .ssync g) rfl hop ?_
    rw [if_neg (by simpa using hact)]
    exact hends _

end
end Sys2Proof.Machine
end

section
/-! PROOFS. Proofs/WcbDrains.lean: what writes memory adds no write-combining writer of another die, and a drain leaves none (R383). -/

namespace Sys2Proof.Machine

/-- From s to t the place of every line is as it was, and no write-combining line has got a writer of a kind. -/
structure Dev.wcbLess (f : Nat → Bool) (s t : Dev) : Prop where
  pool : t.poolGib = s.poolGib
  lines : ∀ tag w, t.wcbLine tag = some w → w.writers.any f = true → ∃ w0, s.wcbLine tag = some w0 ∧ w0.writers.any f = true

/-- The stack and line of a DRAM location under a pool of p bytes (R371). -/
def placeOf (p a : Nat) : Nat × Nat :=
  let u := 2 ^ 41 - 4 * p
  let line := a / 128 % 32
  if a < u || p = 0 then
    let g := a / 4096
    (Nat.xor (g % 16) (g / 16 % 16), g / 16 * 32 + line)
  else
    let n := (a - u) / p
    let g := (a - u) % p / 4096
    (4 * n + Nat.xor (g % 4) (g / 4 % 4), u / 16 / 128 + g / 4 * 32 + line)

/-- The stack of a location, stated of the function: the kernel would compute with a location's place where the equation is applied. -/
theorem Dev.stackOf_eq : Dev.stackOf = fun s a => (placeOf (s.poolGib * 2 ^ 30) a).1 := rfl

theorem Dev.stackOf_of_pool {s t : Dev} (h : t.poolGib = s.poolGib) (a : Nat) : t.stackOf a = s.stackOf a := by
  rw [Dev.stackOf_eq]
  beta_reduce
  rw [h]

/-- The hub of a stack (R369). -/
def hubOfStack (n : Nat) : HubId := ⟨n / 4 % 4, by omega⟩

theorem Dev.hubOf_eq (s : Dev) (a : Nat) : s.hubOf a = hubOfStack (s.stackOf a) := rfl

theorem Dev.hubOf_of_pool {s t : Dev} (h : t.poolGib = s.poolGib) (a : Nat) : t.hubOf a = s.hubOf a := by
  rw [Dev.hubOf_eq, Dev.hubOf_eq, Dev.stackOf_of_pool h]

theorem Dev.wcbLine_of_same {s t : Dev} (hp : t.poolGib = s.poolGib) (hw : ∀ h, (t.hub h).wcb = (s.hub h).wcb) (tag : LineTag) :
    t.wcbLine tag = s.wcbLine tag := by
  rw [Dev.wcbLine, Dev.hubOf_of_pool hp, hw]
  rfl

theorem placeOf_lt (p a : Nat) (hp : p = 0 ∨ 2 ^ 30 ≤ p) (ha : a < 2 ^ 42) : (placeOf p a).1 < 2 ^ 15 := by
  have hxor (m a b : Nat) (ha : a < 2 ^ m) (hb : b < 2 ^ m) : Nat.xor a b < 2 ^ m := Nat.xor_lt_two_pow ha hb
  unfold placeOf
  dsimp only
  generalize 2 ^ 41 - 4 * p = u
  split
  · exact (hxor 4 _ _ (Nat.mod_lt _ (by decide)) (Nat.mod_lt _ (by decide))).trans (by decide)
  · next hc =>
    have hx := hxor 2 ((a - u) % p / 4096 % 4) ((a - u) % p / 4096 / 4 % 4) (Nat.mod_lt _ (by decide)) (Nat.mod_lt _ (by decide))
    have hdiv : (a - u) / p < 2 ^ 12 := by
      refine Nat.div_lt_of_lt_mul ?_
      have hp' : 2 ^ 30 ≤ p := hp.resolve_left fun h => hc (by simp [h])
      calc a - u ≤ a := Nat.sub_le ..
        _ < 2 ^ 30 * 2 ^ 12 := ha
        _ ≤ p * 2 ^ 12 := Nat.mul_le_mul_right _ hp'
    dsimp only
    omega

theorem Dev.stackOf_lt (s : Dev) (t : LineTag) : s.stackOf (tagLoc t) < 2 ^ 15 := by
  rw [Dev.stackOf_eq]
  beta_reduce
  refine placeOf_lt _ _ ?_ (Nat.mod_lt _ (by decide))
  rcases Nat.eq_zero_or_pos s.poolGib with h | h
  · exact Or.inl (by rw [h, Nat.zero_mul])
  · exact Or.inr (Nat.le_mul_of_pos_left _ h)

theorem Dev.poolGib_setObj {s : Dev} {a v : Nat} (h : a ≠ objAddr 7 0x203 0) : (s.setObj a v).poolGib = s.poolGib := by
  simp [Dev.poolGib, Dev.objAt, Dev.obj!_setObj, h.symm]

namespace Dev.wcbLess

variable {f : Nat → Bool} {s t u : Dev}

theorem refl (s : Dev) : s.wcbLess f s := ⟨rfl, fun _ w h hw => ⟨w, h, hw⟩⟩

theorem trans (h1 : s.wcbLess f t) (h2 : t.wcbLess f u) : s.wcbLess f u where
  pool := h2.pool.trans h1.pool
  lines tag w hw ha := by
    obtain ⟨w0, hw0, ha0⟩ := h2.lines tag w hw ha
    exact h1.lines tag w0 hw0 ha0

theorem of_same (hp : t.poolGib = s.poolGib) (hw : ∀ h, (t.hub h).wcb = (s.hub h).wcb) : s.wcbLess f t where
  pool := hp
  lines tag w h ha := ⟨w, Dev.wcbLine_of_same hp hw tag ▸ h, ha⟩

theorem ite {c : Prop} [Decidable c] (h1 : s.wcbLess f t) (h2 : s.wcbLess f u) : s.wcbLess f (if c then t else u) := by
  split <;> assumption

theorem foldl {α : Type} {g : Dev → α → Dev} (hg : ∀ (s : Dev) (a : α), s.wcbLess f (g s a)) (l : List α) (s : Dev) : s.wcbLess f (l.foldl g s) := by
  induction l generalizing s with
  | nil => exact refl s
  | cons a l ih => exact (hg s a).trans (ih (g s a))

theorem bump {a b c n : Nat} (h : objAddr a b c ≠ objAddr 7 0x203 0) : s.wcbLess f (s.bump a b c n) :=
  of_same (Dev.poolGib_setObj h) fun _ => rfl

theorem bump7 (idx : Nat) (hidx : idx < 0x180) (n : Nat) (tag : LineTag) : s.wcbLess f (s.bump 7 idx (s.stackOf (tagLoc tag)) n) :=
  bump (by have := s.stackOf_lt tag; unfold objAddr; omega)

theorem modHub {h : HubId} {g : Hub → Hub} (hg : ∀ x, (g x).wcb = x.wcb) : s.wcbLess f (s.modHub h g) :=
  of_same rfl fun h' => by
    rw [Dev.modHub, hub_setHub]
    split
    · next he => rw [hg, he]
    · rfl

theorem bumpHub (ss idx : Nat) (_ : (ss ≠ 7 ∨ idx ≠ 0x203) ∧ idx < 65536) (n : Nat) (h : HubId) : s.wcbLess f (s.bump ss idx (hubDie h) n) :=
  bump (by have := h.isLt; unfold objAddr hubDie; omega)

theorem modAgent (a : Agent) (g : CacheAgent → CacheAgent) : s.wcbLess f (s.modAgent a g) := of_same rfl fun _ => rfl
theorem modMmu (m : MmuId) (g : Mmu → Mmu) : s.wcbLess f (s.modMmu m g) := of_same rfl fun _ => rfl
theorem modXl (g : XlState → XlState) : s.wcbLess f (s.modXl g) := of_same rfl fun _ => rfl
theorem stamp : s.wcbLess f s.stamp.1 := of_same rfl fun _ => rfl
theorem setLine (a : Agent) (tag : LineTag) (l : Option CacheLine) : s.wcbLess f (s.setLine a tag l) := modAgent ..
theorem setL3 (tag : LineTag) (l : Option L3Line) : s.wcbLess f (s.setL3 tag l) := modHub fun _ => rfl
theorem setDir (tag : LineTag) (d : Option DirEntry) : s.wcbLess f (s.setDir tag d) := modHub fun _ => rfl
theorem moduleFatal (n : Nat) : s.wcbLess f (s.moduleFatal n) := of_same rfl fun _ => rfl
theorem dropRecord (m : MmuId) : s.wcbLess f (s.dropRecord m) := modMmu ..

theorem event (k d : Nat) : s.wcbLess f (s.event k d) := of_same (Dev.poolGib_setObj (s := s) (by decide)) fun _ => rfl

theorem wcbLine_setWcb (s : Dev) (tag tag2 : LineTag) (w : Option WcbLine) : (s.setWcb tag w).wcbLine tag2 = if tag2 = tag then w else s.wcbLine tag2 := by
  have hh : (s.setWcb tag w).hubOf (tagLoc tag2) = s.hubOf (tagLoc tag2) := rfl
  rw [Dev.wcbLine, hh, Dev.setWcb, Dev.modHub, hub_setHub]
  by_cases ht : tag2 = tag
  · simp [ht]
  · rw [if_neg ht, Dev.wcbLine]
    split
    · next he => rw [Table.get_set_ne _ _ _ ht, ← he]
    · rfl

theorem setWcb_none (tag : LineTag) : s.wcbLess f (s.setWcb tag none) where
  pool := rfl
  lines tag2 w hw ha := by
    rw [wcbLine_setWcb] at hw
    split at hw
    · exact absurd hw (by simp)
    · exact ⟨w, hw, ha⟩

theorem setWcb_some {tag : LineTag} {w : WcbLine} (h : w.writers.any f = true → ∃ w0, s.wcbLine tag = some w0 ∧ w0.writers.any f = true) :
    s.wcbLess f (s.setWcb tag (some w)) where
  pool := rfl
  lines tag2 w2 hw ha := by
    rw [wcbLine_setWcb] at hw
    split at hw
    · next he => subst he; rw [← Option.some_inj.mp hw] at ha; exact h ha
    · exact ⟨w2, hw, ha⟩

theorem dramWrite (tag : LineTag) (d : LineData) (p : Bool) : s.wcbLess f (s.dramWrite tag d p) :=
  of_same (Dev.poolGib_setObj (by have := s.stackOf_lt tag; unfold objAddr; exact fun h => by change 7 * 2 ^ 24 + 0x101 * 256 + s.stackOf (tagLoc tag) = _ at h; omega)) fun _ => rfl

theorem dramSetPoison (tag : LineTag) : s.wcbLess f (s.dramSetPoison tag) := of_same rfl fun _ => rfl

theorem readError (g : Option Nat) : s.wcbLess f (s.readError g).1 := by
  unfold Dev.readError
  split
  · exact refl s
  · exact refl s
  · split
    · exact refl s
    · exact of_same rfl fun _ => rfl
  · exact of_same rfl fun _ => rfl

section
variable {rep : Dev → LineTag → Nat → Dev} (hrep : ∀ s t n, Dev.wcbLess f s (rep s t n))
include hrep

theorem dramReadBy (s : Dev) (tag : LineTag) (g : Option Nat) (n : Nat) : s.wcbLess f (Dev.dramReadBy rep s tag g n).1 := by
  have hst := s.stackOf_lt tag
  have h7 (d : Dev) (idx : Nat) (hidx : idx < 0x180) : d.wcbLess f (d.bump 7 idx (s.stackOf (tagLoc tag)) 1) := bump (by unfold objAddr; omega)
  unfold Dev.dramReadBy
  dsimp only
  have h : s.wcbLess f ((s.bump 7 0x100 (s.stackOf (tagLoc tag)) 1).readError g).1 := (h7 s _ (by decide)).trans (readError g)
  generalize (s.bump 7 0x100 (s.stackOf (tagLoc tag)) 1).readError g = r at h ⊢
  split
  · exact h
  · exact h.trans ((h7 _ _ (by decide)).trans (h7 _ _ (by decide)))
  · exact h
  · exact h.trans ((h7 _ _ (by decide)).trans (dramWrite ..))
  · exact h
  · split
    · exact h.trans ((h7 _ _ (by decide)).trans (hrep ..))
    · exact h.trans ((h7 _ _ (by decide)).trans ((h7 _ _ (by decide)).trans ((dramSetPoison _).trans ((bumpHub _ _ (by decide) _ _).trans (hrep ..)))))

omit hrep in
theorem wcbDrainWith (s : Dev) (tag : LineTag) (w : WcbLine) (b : LineData) (p : Bool) {idx : Nat} (hidx : idx < 0x180) :
    s.wcbLess f (s.wcbDrainWith tag w b p idx) :=
  (setWcb_none tag).trans ((bumpHub 7 idx (by omega) 1 _).trans (dramWrite ..))

theorem wcbDrainBy (s : Dev) (tag : LineTag) (g : Option Nat) {idx : Nat} (hidx : idx < 0x180) : s.wcbLess f (Dev.wcbDrainBy rep s tag g idx) := by
  unfold Dev.wcbDrainBy
  split
  · exact refl s
  · exact ite (wcbDrainWith _ _ _ _ _ hidx) ((dramReadBy hrep ..).trans (wcbDrainWith _ _ _ _ _ hidx))

theorem homeWriteBy (s : Dev) (tag : LineTag) (off : Nat) (b : List Byte) (part : Nat) {by_ : Nat} (hby : f by_ = false) :
    s.wcbLess f (Dev.homeWriteBy rep s tag off b part by_) := by
  unfold Dev.homeWriteBy
  dsimp only
  split
  · exact (bumpHub _ _ (by decide) _ _).trans (stamp.trans (setL3 ..))
  · have h1 : s.wcbLess f (if (s.wcbLine tag).isNone && 512 ≤ (present (s.hub (s.hubOf (tagLoc tag))).wcb).length then
        match oldestWcb (s.hub (s.hubOf (tagLoc tag))) with
        | some (v, _) => Dev.wcbDrainBy rep s v none 0x113
        | none => s
      else s) := by
      refine ite ?_ (refl s)
      split
      · exact wcbDrainBy hrep _ _ _ (by decide)
      · exact refl s
    refine h1.trans (stamp.trans ((setWcb_some ?_).trans (ite (wcbDrainWith _ _ _ _ _ (by decide)) (ite (wcbDrainBy hrep _ _ _ (by decide)) (refl _)))))
    intro ha
    split at ha
    · next w hw =>
      refine ⟨w, hw, ?_⟩
      dsimp only at ha
      split at ha
      · exact ha
      · simpa [hby] using ha
    · simp [hby] at ha

end

theorem l3Put (s : Dev) (tag : LineTag) (d : LineData) (y p : Bool) : s.wcbLess f (s.l3Put tag d y p) := by
  unfold Dev.l3Put
  refine trans ?_ (setL3 ..)
  refine ite stamp ?_
  split
  · exact stamp
  · exact stamp.trans ((ite ((dramWrite ..).trans (setWcb_none _)) (refl _)).trans (setL3 ..))

theorem gatherHome (s : Dev) (tag : LineTag) : s.wcbLess f (s.gatherHome tag) := by
  unfold Dev.gatherHome
  refine trans (trans ?_ (foldl (fun s a => setLine a tag none) _ _)) (setDir ..)
  split
  · exact l3Put ..
  · exact refl s

theorem dropSide (s : Dev) (tag : LineTag) : s.wcbLess f (s.dropSide tag) := by
  have hdie (l : List Nat) (hl : ∀ d ∈ l, d < 8) (s : Dev) : s.wcbLess f (l.foldl (fun s d =>
      if (Table.get none (s.mem.side.getD d []) tag).isSome then s.bump 5 0x103 d 1 else s) s) := by
    induction l generalizing s with
    | nil => exact refl s
    | cons d l ih =>
      have hd := hl d (List.mem_cons_self ..)
      exact (ite (bump (by unfold objAddr; omega)) (refl s)).trans (ih (fun d hd => hl d (List.mem_cons_of_mem _ hd)) _)
  have hbumps := hdie (List.range 8) (fun d hd => List.mem_range.mp hd) s
  unfold Dev.dropSide Dev.dropSideOf
  dsimp only
  generalize (List.range 8).foldl _ s = u at hbumps ⊢
  exact hbumps.trans (of_same rfl fun _ => rfl)

section
variable {rep : Dev → LineTag → Nat → Dev} (hrep : ∀ s t n, Dev.wcbLess f s (rep s t n)) {die : Die} (hdie : f (writerOf die.val 255) = false)
include hrep hdie

theorem pushAt (s : Dev) (tag : LineTag) (off : Nat) (b : List Byte) : s.wcbLess f (Dev.pushAt rep s tag off b die) := by
  unfold Dev.pushAt
  exact ite (refl s) (ite (modHub fun _ => rfl) ((gatherHome ..).trans ((dropSide ..).trans (homeWriteBy hrep _ _ _ _ _ hdie))))

theorem physWriteBy (s : Dev) (pa : Nat) (b : List Byte) (r : Bool) : s.wcbLess f (Dev.physWriteBy rep s pa b r die) := by
  have hfold (l : List (LineTag × Nat × Nat)) (acc : Dev × List Byte) : acc.1.wcbLess f (l.foldl (fun (acc : Dev × List Byte) p =>
      (Dev.pushAt rep acc.1 p.1 p.2.1 (acc.2.take p.2.2) die, acc.2.drop p.2.2)) acc).1 := by
    induction l generalizing acc with
    | nil => exact refl _
    | cons p l ih =>
      have hpush := pushAt hrep hdie acc.1 p.1 p.2.1 (acc.2.take p.2.2)
      exact hpush.trans (ih (_, acc.2.drop p.2.2))
  exact hfold _ (s, b)

end

theorem holdDram (s : Dev) (tag : LineTag) (n : Nat) : s.wcbLess f (s.holdDram tag n) := by
  unfold Dev.holdDram Dev.holdRecord
  exact ite (dropRecord _) (ite (modMmu ..) (ite (moduleFatal _) (dropRecord _)))

section
variable (hf : ∀ m : MmuId, f (writerOf (8 + m.val) 255) = false)
include hf

theorem writeRecord (s : Dev) (m : MmuId) (r : FaultRecord) : s.wcbLess f (s.writeRecord m r) := by
  have hrec : s.wcbLess f (((r.first :: r.more).zipIdx).foldl (fun s' e =>
      Dev.physWriteBy Dev.holdDram s' ((s.mmu m).entryAddr e.2) (leBytes 64 e.1) false ⟨8 + m.val, by omega⟩) s) :=
    foldl (fun s e => physWriteBy (die := ⟨8 + m.val, by omega⟩) holdDram (hf m) s _ _ _) _ _
  unfold Dev.writeRecord
  dsimp only
  generalize ((r.first :: r.more).zipIdx).foldl _ s = u at hrec ⊢
  have htail := (hrec.trans (modMmu m (fun x => { x with fqTail := x.fqTail + BitVec.ofNat 32 r.entries }))).trans
    (bump (a := 1) (b := 0x113) (c := 8 + m.val) (n := 1) (by have := m.isLt; unfold objAddr; omega))
  generalize Dev.bump _ 1 0x113 (8 + m.val) 1 = v at htail ⊢
  have hxl := htail.trans (ite (c := r.first % 256 = 0x11) (modXl (fun v => { v with lastDirty := some r.first })) (refl v))
  exact ite (hxl.trans (event ..)) hxl

theorem drainHeld (s : Dev) (m : MmuId) (n : Nat) : s.wcbLess f (s.drainHeld m n) := by
  induction n generalizing s with
  | zero => exact refl s
  | succ n ih =>
    unfold Dev.drainHeld
    split
    · exact refl s
    · exact ite ((modMmu ..).trans ((writeRecord hf ..).trans (ih _))) (refl s)

theorem reportTo (s : Dev) (m : MmuId) (r : FaultRecord) : s.wcbLess f (s.reportTo m r) := by
  unfold Dev.reportTo
  dsimp only
  refine trans (t := if r.cls = .fatal then s.moduleFatal r.first else s) (ite (moduleFatal _) (refl s)) ?_
  refine ite (dropRecord _) ((drainHeld hf _ m 32).trans ?_)
  exact ite (dropRecord _) (ite (writeRecord hf ..) (ite (modMmu ..) (ite (moduleFatal _) (dropRecord _))))

theorem wcbDrain (s : Dev) (tag : LineTag) (g : Option Nat) {idx : Nat} (hidx : idx < 0x180) : s.wcbLess f (s.wcbDrain tag g idx) :=
  wcbDrainBy (fun s _ _ => reportTo hf s _ _) s tag g hidx

end
end Dev.wcbLess

theorem Dev.wcbLine_wcbDrainWith (s : Dev) (tag : LineTag) (w : WcbLine) (b : LineData) (p : Bool) {idx : Nat} (hidx : idx < 0x180) :
    (s.wcbDrainWith tag w b p idx).wcbLine tag = none := by
  have hless : (s.setWcb tag none).wcbLess (fun _ => true) (s.wcbDrainWith tag w b p idx) :=
    (Dev.wcbLess.bumpHub 7 idx (by omega) 1 _).trans (Dev.wcbLess.dramWrite ..)
  rw [Dev.wcbLine_of_same hless.pool fun _ => rfl, Dev.wcbLess.wcbLine_setWcb, if_pos rfl]

/-- Draining a line leaves no line there (R383). -/
theorem Dev.wcbLine_wcbDrain (s : Dev) (tag : LineTag) (g : Option Nat) {idx : Nat} (hidx : idx < 0x180) : (s.wcbDrain tag g idx).wcbLine tag = none := by
  unfold Dev.wcbDrain Dev.wcbDrainBy
  split
  · assumption
  · split
    · exact Dev.wcbLine_wcbDrainWith _ _ _ _ _ hidx
    · exact Dev.wcbLine_wcbDrainWith _ _ _ _ _ hidx

theorem mem_present_of_get {α : Type} {t : Table (Option α)} {k : Nat} {v : α} (h : Table.get none t k = some v) : (k, v) ∈ present t := by
  induction t with
  | nil => exact absurd h (by simp)
  | cons e t ih =>
    obtain ⟨k', v'⟩ := e
    simp only [present, List.filterMap_cons]
    rw [Table.get] at h
    split at h
    · next hk =>
      subst hk h
      exact List.mem_cons_self ..
    · cases v' with
      | none => exact ih h
      | some v' => exact List.mem_cons_of_mem _ (ih h)

section
variable {f : Nat → Bool} (hf : ∀ m : MmuId, f (writerOf (8 + m.val) 255) = false)
include hf

theorem Dev.wcbLess.drainLines (l : List (Nat × WcbLine)) (s : Dev) :
    s.wcbLess f (l.foldl (fun s e => if e.2.writers.any f then s.wcbDrain e.1 none 0x111 else s) s) := by
  refine Dev.wcbLess.foldl (fun s e => ?_) l s
  split
  · exact Dev.wcbLess.wcbDrain hf s e.1 none (by decide)
  · exact Dev.wcbLess.refl s

/-- The drains of a hub's lines leave none there with a writer of the kind (R383). -/
theorem Dev.drainLines_writers (s : Dev) (tag : LineTag) {w : WcbLine}
    (hw : ((present (s.hub (s.hubOf (tagLoc tag))).wcb).foldl (fun s e => if e.2.writers.any f then s.wcbDrain e.1 none 0x111 else s) s).wcbLine tag
      = some w) : w.writers.any f = false := by
  by_contra hany
  rw [Bool.not_eq_false] at hany
  obtain ⟨w0, hw0, hany0⟩ := (Dev.wcbLess.drainLines hf _ s).lines tag w hw hany
  obtain ⟨l1, l2, hl⟩ := List.append_of_mem (mem_present_of_get hw0)
  rw [hl, List.foldl_append, List.foldl_cons] at hw
  obtain ⟨w1, hw1, -⟩ := (Dev.wcbLess.drainLines hf l2 _).lines tag w hw hany
  rw [if_pos hany0, Dev.wcbLine_wcbDrain _ _ _ (by decide)] at hw1
  exact absurd hw1 (by simp)

/-- The drain of the lines that some writers have written leaves none of theirs (R383). -/
theorem Dev.drainWcbOf_writers (s : Dev) {tag : LineTag} {w : WcbLine} (hw : (s.drainWcbOf f).wcbLine tag = some w) : w.writers.any f = false := by
  by_contra hany
  rw [Bool.not_eq_false] at hany
  have hstep (s : Dev) (h : HubId) := Dev.wcbLess.drainLines hf (present (s.hub h).wcb) s
  obtain ⟨l1, l2, hl⟩ := List.append_of_mem (List.mem_finRange (s.hubOf (tagLoc tag)))
  rw [Dev.drainWcbOf, hl, List.foldl_append, List.foldl_cons] at hw
  have hbefore := Dev.wcbLess.foldl (f := f) (fun s h => hstep s h) l1 s
  generalize List.foldl _ s l1 = u at hw hbefore
  obtain ⟨w1, hw1, hany1⟩ := (Dev.wcbLess.foldl (f := f) (fun s h => hstep s h) l2 _).lines tag w hw hany
  rw [← Dev.hubOf_of_pool hbefore.pool] at hw1
  rw [Dev.drainLines_writers hf u tag hw1] at hany1
  exact absurd hany1 (by simp)

end

end Sys2Proof.Machine
end

section
/-! PROOFS. Proofs/SheafControl.lean: FENCE, and the control instructions of a sheaf (O26). -/

namespace Sys2Proof.Machine

theorem homeDie_ne_mmu (q : QueueId) (m : MmuId) : (homeDie q).val ≠ 8 + m.val := by
  have := q.isLt
  have := m.isLt
  unfold homeDie
  split_ifs <;> simp only [ne_eq] <;> omega

theorem sheafWriter_mmu (q : QueueId) (proc : Nat) (m : MmuId) : sheafWriter (homeDie q).val proc (writerOf (8 + m.val) 255) = false := by
  have hdie : writerOf (8 + m.val) 255 / 256 = 8 + m.val := by unfold writerOf; omega
  simp [sheafWriter, hdie, (homeDie_ne_mmu q m).symm]

theorem Dev.stook_modSheaf (s : Dev) (id k : Nat) (f : Sheaf → Sheaf) :
    (s.modSheaf id k f).stook id = (s.stook id).map (fun st => { st with sheaves := modAt st.sheaves k f }) := by
  refine (Dev.stook_modStook s id id ?_).trans (by simp)
  exact fun _ => rfl

section
variable {s : State} {s' : Dev} {g : SheafRef} {x : Issue}

/-- Whether a FENCE waits for what its operation has under way beyond the package (R383, R422). -/
def fenceReady (s : Dev) (x : Issue) : Bool := !(fMod x.w % 4 = 2 && !x.act.isEmpty && s.fab.accesses.any (fun a => a.by_ = .op x.o.slot))

/-- The drain of a FENCE at package scope. -/
def fenceDrain (s : Dev) (x : Issue) : Dev :=
  if fMod x.w % 4 = 2 && !x.act.isEmpty then s.drainWcbOf (sheafWriter (homeDie x.o.queue).val (x.st.proc.val % 32)) else s

theorem exec_fence (g : SheafRef) (s : State) : exec (.fence g) s
    = s.run (fun d => d.sheafIssue g 0x07 fenceReady (fun s x => (fenceDrain s x).goTo x (x.targets (fun _ => (x.pc : Int) + 1)))) := rfl

/-- FENCE (R383, R422). -/
theorem sheafRuns_fence (hi : Dev.issues s.toDev s' g x) (hop : fOpcode x.w = 0x07) (hpc : x.pc + 1 < x.l.codeLen) :
    ((fMod x.w < 2 ∨ x.act = []) → s.sheafRuns s' (.fence g) x (x.with (x.onward (fun _ => x.pc + 1) (fun _ y => y)))) ∧
    (fMod x.w = 2 → x.act ≠ [] → (∃ a ∈ s'.fab.accesses, a.by_ = .op x.o.slot) → s.sheafWaits s' (.fence g) x) ∧
    (fMod x.w = 2 → x.act ≠ [] → (∀ a ∈ s'.fab.accesses, a.by_ ≠ .op x.o.slot) → ∃ t, exec (.fence g) s = .next t
      ∧ t.stook x.st.id = some (x.with (x.onward (fun _ => x.pc + 1) (fun _ y => y)))
      ∧ t.toDev = { s' with mem := t.mem, obj := t.obj, shf := t.shf, xl := t.xl, eventLog := t.eventLog, eventsOut := t.eventsOut, resetDue := t.resetDue }
      ∧ ∀ tag w, t.wcbLine tag = some w → ∀ k ∈ w.writers, sheafWriter (homeDie x.o.queue).val (x.st.proc.val % 32) k = false) := by
  refine ⟨fun hm => ?_, fun hm hact ⟨a, ha, hby⟩ => ⟨_, exec_fence g s, ⟨rfl, rfl, rfl, rfl⟩, ?_⟩, fun hm hact hno => ?_⟩
  · have hfalse : (decide (fMod x.w % 4 = 2) && !x.act.isEmpty) = false := by
      rcases hm with hm | hm
      · rw [Nat.mod_eq_of_lt (by omega)]
        simp [show fMod x.w ≠ 2 by omega]
      · simp [hm]
    have hstep := Dev.startsTo_seq (st := x.with (x.sh.aged x.group)) hpc rfl hi.startsTo
    rw [Issue.with, modAt_modAt, Issue.goes_id hi] at hstep
    refine State.sheafRuns_of (exec_fence g s) ?_
    rw [Dev.sheafIssue_of_issues hi hop (by rw [fenceReady, hfalse]; rfl), fenceDrain, hfalse]
    exact hstep
  · have hany : s'.fab.accesses.any (fun a => a.by_ = .op x.o.slot) = true := List.any_eq_true.mpr ⟨a, ha, by simpa using hby⟩
    dsimp only
    rw [Dev.sheafIssue_waits hi hop (by simp [fenceReady, hm, hact, hany]), hi.countWait]
  · have hany : s'.fab.accesses.any (fun a => a.by_ = .op x.o.slot) = false := List.any_eq_false.mpr fun a ha => by simpa using hno a ha
    have htrue : (decide (fMod x.w % 4 = 2) && !x.act.isEmpty) = true := by simp [hm, hact]
    have hissue : s.toDev.sheafIssue g 0x07 fenceReady (fun s x => (fenceDrain s x).goTo x (x.targets (fun _ => (x.pc : Int) + 1)))
        = ((x.begun s').drainWcbOf (sheafWriter (homeDie x.o.queue).val (x.st.proc.val % 32))).goTo x (x.targets (fun _ => (x.pc : Int) + 1)) := by
      rw [Dev.sheafIssue_of_issues hi hop (by simp [fenceReady, hany]), fenceDrain, htrue]
      rfl
    have hwriters := @Dev.drainWcbOf_writers _ (sheafWriter_mmu x.o.queue (x.st.proc.val % 32)) (x.begun s')
    have hrest := (Dev.memStep_drainWcbOf (s := x.begun s') (sheafWriter (homeDie x.o.queue).val (x.st.proc.val % 32))).rest
    generalize (x.begun s').drainWcbOf (sheafWriter (homeDie x.o.queue).val (x.st.proc.val % 32)) = d at hissue hwriters hrest
    have hhere : d.stook x.st.id = some (x.with (x.sh.aged x.group)) := by
      rw [hrest]
      exact hi.startsTo.here
    have htarget (i : Nat) : x.target (fun _ => (x.pc : Int) + 1) i = ((x.pc + 1 : Nat) : Int) := by simp [Issue.target]
    have hgo := Dev.goTo_lanes hhere rfl x.group (x.target fun _ => (x.pc : Int) + 1) fun i _ => by rw [htarget]; omega
    have hgo' : d.goTo x (x.targets fun _ => (x.pc : Int) + 1) = d.modSheaf x.st.id x.k (fun h => h.goes x.group (fun _ => x.pc + 1)) :=
      hgo.trans (by simp only [htarget, Int.toNat_natCast])
    have hshf : d.shf = (x.begun s').shf := by rw [hrest]
    have hd : d = { s' with mem := d.mem, obj := d.obj, shf := d.shf, xl := d.xl, eventLog := d.eventLog, eventsOut := d.eventsOut,
                            resetDue := d.resetDue } := by
      conv_lhs => rw [hrest]
      rw [hshf]
      rfl
    have hstook : (d.modSheaf x.st.id x.k (fun h => h.goes x.group (fun _ => x.pc + 1))).stook x.st.id
        = some (x.with (x.onward (fun _ => x.pc + 1) (fun _ y => y))) := by
      rw [Dev.stook_modSheaf, hhere, ← Issue.goes_id hi, ← Issue.stookGoes_with]
      rfl
    refine ⟨_, exec_fence g s, ?_, ?_, fun tag w hw k hk => ?_⟩
    · dsimp only
      rw [hissue, hgo', hstook]
    · dsimp only
      rw [hissue, hgo']
      conv_lhs => rw [hd]
      rfl
    · dsimp only at hw
      rw [hissue, hgo', Dev.wcbLine_of_same (s := d) (t := d.modSheaf _ _ _) rfl fun _ => rfl] at hw
      exact Bool.eq_false_iff.mpr fun h => by simpa using (List.any_eq_false.mp (hwriters hw)) k hk h
end

/-- Settles O26: jumps, EXIT, BAR, SSYNC and FENCE each by its lemma. -/
theorem sheafControlOps : Obligations.SheafControlOps := by
  intro g s s' x hi seq
  refine ⟨fun c code target hj hop => sheafRuns_jumpOf hi hj hop, fun hop hbar hns hin => sheafRuns_exit hi hop hbar hns hin,
    fun hop hact hpc => sheafRuns_bar hi hop hact hpc, fun hop hpc hact => ?_, fun hop hpc hact => sheafRuns_ssync hi hop hpc hact,
    fun c hc hlate hf => sheafEnds_late hi hc hlate hf, fun hop hpc => sheafRuns_fence hi hop hpc⟩
  rw [← Issue.goes_id hi, ← Issue.stookGoes_with]
  refine State.sheafRuns_stook hi (c := .ssync g) rfl hop hpc rfl ?_
  rw [if_pos (by simp [hact])]
  exact hi.startsTo

end Sys2Proof.Machine
end

section
/-! PROOFS. Proofs/JournalSlots.lean: the round robin of the queues that wait for a slot (O10). -/

namespace Sys2Proof.Machine

theorem Table.mem_of_get_ne {α : Type} {d : α} {t : Table α} {k : Nat} (h : Table.get d t k ≠ d) : (k, Table.get d t k) ∈ t := by
  induction t with
  | nil => exact absurd rfl h
  | cons e t ih =>
    obtain ⟨k', v⟩ := e
    rw [Table.get] at h ⊢
    split
    · next hk => exact hk ▸ List.mem_cons_self ..
    · next hk => exact List.mem_cons_of_mem _ (ih (by rwa [if_neg hk] at h))

/-- The better of two by a key, the earlier where they are equal (R172). -/
def bestBy {α : Type} (key : α → Nat) (best : Option α) (q : α) : Option α :=
  match best with
  | none => some q
  | some b => if key q < key b then some q else some b

theorem bestBy_le {α : Type} {key : α → Nat} {b : Option α} {a x : α} (hx : bestBy key b a = some x) :
    (x = a ∨ b = some x) ∧ key x ≤ key a ∧ ∀ y, b = some y → key x ≤ key y := by
  cases b with
  | none =>
    obtain rfl := Option.some_inj.mp hx
    exact ⟨Or.inl rfl, le_rfl, by simp⟩
  | some b =>
    rw [bestBy] at hx
    split at hx
    · next hlt =>
      obtain rfl := Option.some_inj.mp hx
      exact ⟨Or.inl rfl, le_rfl, fun y hy => Option.some_inj.mp hy ▸ hlt.le⟩
    · next hle =>
      obtain rfl := Option.some_inj.mp hx
      exact ⟨Or.inr rfl, not_lt.mp hle, fun y hy => Option.some_inj.mp hy ▸ le_rfl⟩

/-- The best of a list by a key. -/
theorem foldl_bestBy {α : Type} (key : α → Nat) (l : List α) (b : Option α) {q : α} (h : l.foldl (bestBy key) b = some q) :
    (q ∈ l ∨ b = some q) ∧ (∀ x ∈ l, key q ≤ key x) ∧ ∀ x, b = some x → key q ≤ key x := by
  induction l generalizing b with
  | nil => exact ⟨Or.inr h, by simp, fun x hx => by rw [List.foldl_nil, hx, Option.some_inj] at h; rw [h]⟩
  | cons a l ih =>
    obtain ⟨hmem, hall, hbest⟩ := ih _ h
    obtain ⟨y, hy⟩ : ∃ y, bestBy key b a = some y := by
      cases b with
      | none => exact ⟨a, rfl⟩
      | some b => rw [bestBy]; split <;> exact ⟨_, rfl⟩
    obtain ⟨hfrom, ha, hb⟩ := bestBy_le hy
    have hq := hbest y hy
    refine ⟨?_, fun x hx => ?_, fun x hx => hq.trans (hb x hx)⟩
    · rcases hmem with hmem | hmem
      · exact Or.inl (List.mem_cons_of_mem _ hmem)
      · obtain rfl := Option.some_inj.mp (hy.symm.trans hmem)
        exact hfrom.imp_left fun h => by rw [h]; exact List.mem_cons_self ..
    · rcases List.mem_cons.mp hx with rfl | hx
      · exact hq.trans ha
      · exact hall x hx

namespace Dev

/-- The queue's place in the round robin of R172. -/
theorem slotWaiter_first {s : Dev} {q : QueueId} (h : s.slotWaiter = some q) : s.wantsSlot q = true ∧ ∀ q2, s.wantsSlot q2 = true →
    (q.val + 2047 - s.cmd.journal.lastQueue) % 2048 ≤ (q2.val + 2047 - s.cmd.journal.lastQueue) % 2048 := by
  have hfold : (s.cmd.queues.filterMap (fun e =>
      if h : e.1 < 2048 then (if s.wantsSlot ⟨e.1, h⟩ then some (⟨e.1, h⟩ : QueueId) else none) else none)).foldl
        (bestBy fun q : QueueId => (q.val + 2047 - s.cmd.journal.lastQueue) % 2048) none = some q := by
    rw [← h, slotWaiter]
    congr 1
    funext best q
    cases best <;> rfl
  obtain ⟨hmem, hall, -⟩ := foldl_bestBy _ _ none hfold
  have hwants (q2 : QueueId) (h2 : s.wantsSlot q2 = true) : q2 ∈ s.cmd.queues.filterMap (fun e =>
      if h : e.1 < 2048 then (if s.wantsSlot ⟨e.1, h⟩ then some (⟨e.1, h⟩ : QueueId) else none) else none) := by
    have hne : Table.get {} s.cmd.queues q2.val ≠ ({} : Queue) := fun he => by
      have hst : (s.queue q2).state = .detached := by rw [Dev.queue, he]
      simp [wantsSlot, hst] at h2
    exact List.mem_filterMap.mpr ⟨_, Table.mem_of_get_ne hne, by simp [q2.isLt, h2]⟩
  refine ⟨?_, fun q2 h2 => hall q2 (hwants q2 h2)⟩
  obtain ⟨e, -, he⟩ := List.mem_filterMap.mp (hmem.resolve_right (by simp))
  split at he
  · split at he
    · next hw => exact Option.some_inj.mp he ▸ hw
    · exact absurd he (by simp)
  · exact absurd he (by simp)

theorem slotWaiter_freeSlot (s : Dev) (slot : SlotId) : (s.freeSlot slot).slotWaiter = s.slotWaiter := rfl

theorem giveSlot_of_fetched {s : Dev} {q : QueueId} {w : BitVec 256} (hw : (s.queue q).fetched = some w) (slot : SlotId) :
    s.giveSlot q slot = (s.modJournal (fun j => { j with
      allocated := j.allocated ++ [slot],
      entries := Table.set none j.entries slot.val (some { newEntry q (s.queue q) w with job := s.jobOf q }) })).setQueue q
        { s.queue q with slot := some slot, slotWait := false } := by
  unfold giveSlot
  dsimp only
  rw [hw]

/-- A free slot goes to the instruction at the head of the queue whose turn it is (R172). -/
theorem allocate_of_waiter {s : Dev} {q : QueueId} {slot : SlotId} {w : BitVec 256} (hq : s.slotWaiter = some q)
    (hfree : slot ∉ s.cmd.journal.allocated) (hw : (s.queue q).fetched = some w) (he : (s.queue q).endUnperformed = none) :
    s.allocate slot = (s.giveSlot q slot).modJournal (fun j => { j with lastQueue := q.val }) := by
  unfold allocate
  rw [if_neg (by simpa using hfree), hq]
  dsimp only
  have hqueue : ((s.giveSlot q slot).modJournal (fun j => { j with lastQueue := q.val })).queue q = { s.queue q with slot := some slot, slotWait := false } := by
    rw [giveSlot_of_fetched hw]
    exact queue_setQueue_same ..
  rw [hqueue]
  dsimp only
  rw [he]

theorem allocate_of_none {s : Dev} (slot : SlotId) (hq : s.slotWaiter = none) : s.allocate slot = s := by
  unfold allocate
  rw [hq]
  exact ite_self _

end Dev

/-- A command of the device alone, by what it makes of it. -/
theorem exec_eq_next {c : Instr} {s : State} {d0 d : Dev} (hc : exec c s = .next { s with toDev := d0 }) (hd : d0 = d) :
    exec c s = .next { s with toDev := d } := hd ▸ hc

/-- A slot that is allocated and terminal is freed for the queue whose turn it is (R181). -/
theorem exec_journalRelease {s : State} {slot : SlotId} (ha : slot ∈ s.cmd.journal.allocated) (ht : slot ∈ s.cmd.journal.terminal) :
    exec (.journalRelease slot) s = .next { s with toDev := (s.toDev.freeSlot slot).allocate slot } := by
  refine exec_eq_next rfl ?_
  dsimp only
  rw [if_pos (by simp [ha, ht])]

/-- Settles O10: the slot goes to the first waiting queue of the round robin, and a released slot is free when it is allocated anew. The entry of
a slot that is not allocated reads 0 (log entry 80). -/
theorem journalSlots : Obligations.JournalSlots := by
  refine ⟨fun s q h => Dev.slotWaiter_first h, fun s q slot w hq hfree hw he => ?_, fun s slot hno => ?_, fun s slot ha ht => ⟨fun hq => ?_, fun q w hq hw he => ?_⟩⟩
  · have hall := Dev.allocate_of_waiter hq hfree hw he
    rw [Dev.giveSlot_of_fetched hw] at hall
    refine ⟨{ s with toDev := s.toDev.allocate slot }, rfl, ?_⟩
    dsimp only
    rw [hall]
    refine ⟨Dev.queue_setQueue_same .., rfl, rfl, ?_, rfl⟩
    change Table.get none (Table.set none s.cmd.journal.entries slot.val (some { newEntry q (s.queue q) w with job := s.jobOf q })) slot.val = _
    rw [Table.get_set_same]
    rfl
  · refine exec_eq_next rfl ?_
    dsimp only
    rw [if_neg (by simpa using fun h h2 => hno ⟨h, h2⟩)]
    rfl
  · refine ⟨{ s with toDev := s.toDev.freeSlot slot }, ?_, by simp [Dev.freeSlot, Dev.modJournal], by simp [Dev.freeSlot, Dev.modJournal], ?_, rfl⟩
    swap
    · exact Table.get_set_same (none : Option Entry) s.cmd.journal.entries slot.val none
    rw [exec_journalRelease ha ht, Dev.allocate_of_none (s := s.toDev.freeSlot slot) slot hq]
  · have hall := Dev.allocate_of_waiter (s := s.toDev.freeSlot slot) (slot := slot) hq (by simp [Dev.freeSlot, Dev.modJournal]) hw he
    rw [Dev.giveSlot_of_fetched (s := s.toDev.freeSlot slot) hw] at hall
    refine ⟨_, exec_journalRelease ha ht, ?_⟩
    dsimp only
    rw [hall]
    refine ⟨congrArg Queue.slot (Dev.queue_setQueue_same ..), List.mem_append_right (s.cmd.journal.allocated.filter (· ≠ slot)) (List.mem_singleton_self slot), ?_, rfl⟩
    change slot ∉ s.cmd.journal.terminal.filter (· ≠ slot)
    simp

end Sys2Proof.Machine
end

section
/-! PROOFS. Proofs/CoreWords.lean: core accesses to flag and counter words (O15). -/

namespace Sys2Proof.Machine

namespace Dev

variable (s : Dev)

theorem updateFlag_rest (d i : Nat) (v : Bool) : s.updateFlag d i v
    = { s with cmd := { s.cmd with queues := (s.updateFlag d i v).cmd.queues, flags := (s.updateFlag d i v).cmd.flags } } := by
  rw [updateFlag, latchAll_rest]
  rfl

theorem flag_updateFlag (d i d2 i2 : Nat) (v : Bool) :
    (s.updateFlag d i v).flag d2 i2 = if d2 * 512 + i2 = d * 512 + i then v else s.flag d2 i2 := by
  rw [flag, updateFlag, latchAll_rest]
  exact Table.get_set ..

theorem counter_updateCounter_same (d i : Nat) (v : U32) : (s.updateCounter d i v).counter d i = v := by
  rw [counter, updateCounter, latchAll_rest]
  exact Table.get_set_same ..

theorem pcounter_updatePcounter_same (c : Nat) (v : U32) : (s.updatePcounter c v).pcounter c = v := by
  rw [pcounter, updatePcounter, latchAll_rest]
  exact Table.get_set_same ..

theorem counterOf_updateCounterOf (c : CounterRef) (v : U32) : (s.updateCounterOf c v).counterOf c = v := by
  cases c with
  | die d i => exact s.counter_updateCounter_same ..
  | package c => exact s.pcounter_updatePcounter_same ..

theorem updateCounterOf_rest (c : CounterRef) (v : U32) : s.updateCounterOf c v
    = { s with cmd := { s.cmd with queues := (s.updateCounterOf c v).cmd.queues, counters := (s.updateCounterOf c v).cmd.counters,
                                   pcounters := (s.updateCounterOf c v).cmd.pcounters } } := by
  cases c with
  | die d i =>
    rw [updateCounterOf, updateCounter, latchAll_rest]
    rfl
  | package c =>
    rw [updateCounterOf, updatePcounter, latchAll_rest]
    rfl

end Dev

section
variable (b : Bool) (n : Nat)

theorem odd_eq_testBit : (n % 2 == 1) = n.testBit 0 := (Nat.testBit_zero n).symm

theorem testBit_b2n : (b2n b).testBit 0 = b := by cases b <;> rfl

theorem odd_b2n_add : ((b2n b + n) % 2 == 1) = xor b (n % 2 == 1) := by
  have hn := Nat.mod_two_eq_zero_or_one n
  cases b <;> rcases hn with h | h <;> simp [b2n, Nat.add_mod, h]

theorem odd_b2n_and : (Nat.land (b2n b) n % 2 == 1) = (b && (n % 2 == 1)) := by
  rw [odd_eq_testBit, odd_eq_testBit, show Nat.land (b2n b) n = b2n b &&& n from rfl, Nat.testBit_and, testBit_b2n]

theorem odd_b2n_or : (Nat.lor (b2n b) n % 2 == 1) = (b || (n % 2 == 1)) := by
  rw [odd_eq_testBit, odd_eq_testBit, show Nat.lor (b2n b) n = b2n b ||| n from rfl, Nat.testBit_or, testBit_b2n]

theorem odd_b2n_xor : (Nat.xor (b2n b) n % 2 == 1) = xor b (n % 2 == 1) := by
  rw [odd_eq_testBit, odd_eq_testBit, show Nat.xor (b2n b) n = b2n b ^^^ n from rfl, Nat.testBit_xor, testBit_b2n]

end

/-- What a core's access to byte 0 of a flag word makes of the flag (R746). -/
theorem flagAccess_value (old : Bool) (a : CoreAccess) (hoff : a.off = 0) (hl : a.op ≠ .load) (hr : a.op ≠ .lr) (hs : a.op ≠ .sc) :
    ∃ v, (flagAccess old a).1 = some v ∧ (a.op ≠ .store → (flagAccess old a).2 = .value (BitVec.ofNat 64 (b2n old)))
      ∧ ((a.op = .store ∨ a.op = .amoSwap) → v = a.value.getLsbD 0)
      ∧ (a.op = .amoAdd ∨ a.op = .amoXor → v = xor old (a.value.getLsbD 0))
      ∧ (a.op = .amoAnd → v = (old && a.value.getLsbD 0)) ∧ (a.op = .amoOr → v = (old || a.value.getLsbD 0)) := by
  have hbit : a.value.getLsbD 0 = (a.value.toNat % 2 == 1) := by
    rw [BitVec.getLsbD, Nat.testBit_zero]
    rfl
  have hoff' : (a.off.val = 0) = True := by simp [hoff]
  unfold flagAccess
  cases hop : a.op <;> simp only [hop, ne_eq, reduceCtorEq, not_true_eq_false] at hl hr hs
  all_goals
    simp only [hoff', hbit, if_true, reduceCtorEq, ne_eq, not_true_eq_false, not_false_eq_true, false_or, or_false, or_self, false_implies,
      true_implies, Option.some_inj, exists_eq_left', exists_eq', true_and, and_true, and_self]
  case amoAdd => exact odd_b2n_add ..
  case amoAnd => exact odd_b2n_and ..
  case amoOr => exact odd_b2n_or ..
  case amoXor => exact odd_b2n_xor ..

section
variable {s : State}

theorem exec_flagStore_none {d : Die} {i : Fin 512} {a : CoreAccess} {r : Reply} (h : flagAccess (s.flag d.val i.val) a = (none, r)) :
    exec (.flagStore d i a) s = .next { s with reply := some r } := by
  refine exec_eq_next rfl ?_
  dsimp only
  rw [h]

theorem exec_flagStore_some {d : Die} {i : Fin 512} {a : CoreAccess} {r : Reply} {v : Bool} (h : flagAccess (s.flag d.val i.val) a = (some v, r)) :
    exec (.flagStore d i a) s = .next { s with toDev := { s.toDev.updateFlag d.val i.val v with reply := some r } } := by
  refine exec_eq_next rfl ?_
  dsimp only
  rw [h]

theorem counterOp_none {d : Dev} {c : CounterRef} {a : CoreAccess} {r : Reply} (h : counterAccess (d.counterOf c) a = (none, r)) :
    d.counterOp c a = { d with reply := some r } := by
  rw [Dev.counterOp, h]

theorem counterOp_some {d : Dev} {c : CounterRef} {a : CoreAccess} {r : Reply} {v : U32} (h : counterAccess (d.counterOf c) a = (some v, r)) :
    d.counterOp c a = { d.updateCounterOf c v with reply := some r } := by
  rw [Dev.counterOp, h]

/-- A counter word that a core sets holds the value, and nothing else of the device changes but the waits and the answer. -/
theorem counter_set {d : Dev} {c : CounterRef} {v : U32} {r : Reply} : ({ d.updateCounterOf c v with reply := some r } : Dev).counterOf c = v
    ∧ ({ d.updateCounterOf c v with reply := some r } : Dev) = { d with
        cmd := { d.cmd with queues := (d.updateCounterOf c v).cmd.queues, counters := (d.updateCounterOf c v).cmd.counters,
                            pcounters := (d.updateCounterOf c v).cmd.pcounters }, reply := some r } := by
  refine ⟨?_, ?_⟩
  · exact (by cases c <;> rfl : ({ d.updateCounterOf c v with reply := some r } : Dev).counterOf c = (d.updateCounterOf c v).counterOf c).trans
      (d.counterOf_updateCounterOf c v)
  · conv_lhs => rw [Dev.updateCounterOf_rest]

end

/-- An access that may set a counter: of its lower word, of 4 or 8 bytes (R746). -/
theorem wideAccess {a : CoreAccess} : (decide (a.off.val = 0) && (decide (a.size = 4) || decide (a.size = 8))) = true
    ↔ a.off = 0 ∧ (a.size = 4 ∨ a.size = 8) := by
  simp only [Bool.and_eq_true, Bool.or_eq_true, decide_eq_true_eq, Fin.ext_iff, Fin.val_zero]

/-- Settles O15: a core's access is `flagAccess` or `counterAccess`, and an update changes the word and the waits that it lets hold. -/
theorem coreWords : Obligations.CoreWords := by
  refine ⟨fun d i a s => ⟨fun hl => ?_, fun hr => ?_, fun hst hoff => ?_, fun hoff hl hr hs => ?_⟩,
    fun c a s => ⟨fun hl => ?_, fun hst hwide => ?_, fun hwide => ?_, fun hl hs ha => ?_, fun hst hwide => ?_, fun hwide => ?_⟩⟩
  · exact exec_flagStore_none (by rw [flagAccess, hl])
  · refine exec_flagStore_none ?_
    rcases hr with hr | hr <;> rw [flagAccess, hr]
  · refine exec_flagStore_none ?_
    have hoff' : a.off.val ≠ 0 := fun h => hoff (Fin.ext h)
    rw [flagAccess, hst]
    simp [hoff']
  · obtain ⟨v, hv, hreply, hset, hadd, hand, hor⟩ := flagAccess_value (s.flag d.val i.val) a hoff hl hr hs
    have hflag (d2 i2 : Nat) : ({ s.toDev.updateFlag d.val i.val v with reply := some (flagAccess (s.flag d.val i.val) a).2 } : Dev).flag d2 i2
        = if d2 * 512 + i2 = d.val * 512 + i.val then v else s.flag d2 i2 := s.flag_updateFlag ..
    have hsame := (hflag d.val i.val).trans (if_pos rfl)
    refine ⟨_, exec_flagStore_some (Prod.ext hv rfl), fun h => congrArg some (hreply h), fun h => hsame.trans (hset h), fun h => hsame.trans (hadd h),
      fun h => hsame.trans (hand h), fun h => hsame.trans (hor h), fun d2 i2 hi2 hne => (hflag d2 i2).trans (if_neg ?_), ?_⟩
    · have := i.isLt
      omega
    · exact congrArg (fun e : Dev => ({ s with toDev := { e with reply := some (flagAccess (s.flag d.val i.val) a).2 } } : State))
        (s.toDev.updateFlag_rest d.val i.val v)
  · exact exec_eq_next rfl (counterOp_none (by rw [counterAccess, hl]))
  · have hacc : counterAccess (s.counterOf c) a = (some (a.value.setWidth 32), .value 0) := by
      rw [counterAccess, hst]
      simp only [wideAccess.mpr hwide, if_true, BitVec.ofNat_toNat]
    obtain ⟨hval, hrest⟩ := counter_set (d := s.toDev) (c := c) (v := a.value.setWidth 32) (r := .value 0)
    exact ⟨_, exec_eq_next rfl (counterOp_some hacc), hval, congrArg (fun e => ({ s with toDev := e } : State)) hrest⟩
  · have hacc : counterAccess (s.counterOf c) { a with op := .amoAdd } = (some (s.counterOf c + a.value.setWidth 32), .value (BitVec.ofNat 64 (s.counterOf c).toNat)) := by
      simp only [counterAccess, wideAccess.mpr hwide, if_true, BitVec.ofNat_toNat]
    obtain ⟨hval, hrest⟩ := counter_set (d := s.toDev) (c := c) (v := s.counterOf c + a.value.setWidth 32) (r := .value (BitVec.ofNat 64 (s.counterOf c).toNat))
    exact ⟨_, exec_eq_next rfl (counterOp_some hacc), hval, rfl, congrArg (fun e => ({ s with toDev := e } : State)) hrest⟩
  · exact exec_eq_next rfl (counterOp_none (by cases hop : a.op <;> simp_all [counterAccess]))
  · refine exec_eq_next rfl (counterOp_none ?_)
    rw [counterAccess, hst]
    exact if_neg fun h => hwide (wideAccess.mp h)
  · refine exec_eq_next rfl (counterOp_none ?_)
    exact if_neg fun h => hwide (wideAccess.mp h)

end Sys2Proof.Machine
end

section
/-! PROOFS. Proofs/StepRates.lean: the step-rate windows (O2). -/

namespace Sys2Proof.Machine

/-- The objects that a window's end reads and publishes of a die (R35, R38, R42, R630). -/
def rateAddr (d a : Nat) : Prop := a = objAddr 0 6 0 ∨ ∃ idx, 0x100 ≤ idx ∧ idx ≤ 0x105 ∧ a = objAddr 0x0B idx d

/-- From s to t only objects have changed, and not those that a window's end reads and publishes of a die. -/
structure Dev.keepsRates (d : Nat) (s t : Dev) : Prop where
  rest : t = { s with obj := t.obj }
  same : ∀ a, rateAddr d a → t.obj! a = s.obj! a

/-- The rate objects of a die set, with its lowest rate (R35, R42). -/
def Dev.setRates (s : Dev) (d stop eff mon frac : Nat) : Dev :=
  let s := ((s.setObjAt 0x0B 0x100 d eff).setObjAt 0x0B 0x101 d mon).setObjAt 0x0B 0x105 d frac
  let s := if eff < s.objAt 0x0B 0x102 d then s.setObjAt 0x0B 0x102 d eff else s
  s.setObjAt 0x0B 0x104 d stop

theorem Dev.publishRate_eq {s : Dev} {c : StepCount} (hin : s.inService c.die.val = true) (stop len : Nat) : s.publishRate stop len c
    = s.setRates c.die.val stop (min (issuedUnder c (Table.get false s.thr.inWindow c.die.val) * 1000000 / len) 0xFFFFFFFF)
        (min (c.monitor * 1000000 / len) 0xFFFFFFFF)
        (if c.monitor = 0 then 0 else (c.monitor - issuedUnder c (Table.get false s.thr.inWindow c.die.val)) * 256 / c.monitor) := by
  rw [Dev.publishRate, if_neg (by simp [hin])]
  rfl

namespace Dev.keepsRates

variable {d : Nat} {s t u : Dev}

theorem refl (s : Dev) : s.keepsRates d s := ⟨rfl, fun _ _ => rfl⟩

theorem trans (h1 : s.keepsRates d t) (h2 : t.keepsRates d u) : s.keepsRates d u :=
  ⟨by rw [h2.rest, h1.rest], fun a ha => (h2.same a ha).trans (h1.same a ha)⟩

theorem setObjAt {ss idx sub v : Nat} (h : ¬ rateAddr d (objAddr ss idx sub)) : s.keepsRates d (s.setObjAt ss idx sub v) :=
  ⟨rfl, fun a ha => by
    rw [Dev.setObjAt, Dev.obj!_setObj, if_neg]
    rintro rfl
    exact h ha⟩

theorem ite {c : Prop} [Decidable c] (h1 : s.keepsRates d t) (h2 : s.keepsRates d u) : s.keepsRates d (if c then t else u) := by
  split <;> assumption

theorem foldl {α : Type} {f : Dev → α → Dev} {l : List α} (hf : ∀ a ∈ l, ∀ s : Dev, s.keepsRates d (f s a)) (s : Dev) :
    s.keepsRates d (l.foldl f s) := by
  induction l generalizing s with
  | nil => exact refl s
  | cons a l ih => exact (hf a (List.mem_cons_self ..) s).trans (ih (fun b hb => hf b (List.mem_cons_of_mem _ hb)) _)

theorem bump4 (hd : d < 256) {idx : Nat} (hidx : idx < 0x200) (p : ProcId) (n : Nat) : s.keepsRates d (s.bump 4 idx p.val n) := by
  refine setObjAt fun h => ?_
  have := p.isLt
  rcases h with h | ⟨i, -, -, h⟩ <;> (unfold objAddr at h; omega)

theorem waitCounter_lt (s : Dev) (p : ProcId) (q : Nat) : s.waitCounter p q < 0x200 := by
  unfold waitCounter
  dsimp only
  split_ifs <;> decide

theorem countQuarter (hd : d < 256) (p : ProcId) (n q : Nat) : s.keepsRates d (s.countQuarter p n q) :=
  ite (refl s) (bump4 hd (waitCounter_lt ..) ..)

theorem countWithheld (hd : d < 256) (c : StepCount) : s.keepsRates d (s.countWithheld c) := by
  unfold Dev.countWithheld
  dsimp only
  refine ite (refl s) (foldl (fun p _ s' => ite (refl s') ?_) s)
  exact trans (ite (refl s') (bump4 hd (by decide) ..)) (foldl (fun q _ s => countQuarter hd p _ q) _)

theorem setRates {d' : Nat} (hc : d' ≠ d) (hd' : d' < 256) (hd : d < 256) (stop eff mon frac : Nat) :
    s.keepsRates d (s.setRates d' stop eff mon frac) := by
  have hset (s : Dev) (idx v : Nat) (hidx : 0x100 ≤ idx ∧ idx ≤ 0x105) : s.keepsRates d (s.setObjAt 0x0B idx d' v) := setObjAt fun h => by
    rcases h with h | ⟨i, hi, hi', h⟩ <;> (unfold objAddr at h; omega)
  have h3 := ((hset s 0x100 eff (by decide)).trans (hset _ 0x101 mon (by decide))).trans (hset _ 0x105 frac (by decide))
  exact (h3.trans (ite (hset _ 0x102 eff (by decide)) (refl _))).trans (hset _ 0x104 stop (by decide))

theorem publishRate {c : StepCount} (hc : c.die.val ≠ d) (hd : d < 256) (stop len : Nat) : s.keepsRates d (s.publishRate stop len c) := by
  by_cases hin : s.inService c.die.val = true
  · rw [Dev.publishRate_eq hin]
    exact setRates hc (c.die.isLt.trans (by decide)) hd ..
  · rw [Dev.publishRate, if_pos (by simpa using hin)]
    exact refl s

theorem countStalls (n : Nat) (hd : d < 256) : s.keepsRates d (s.countStalls n) := by
  unfold Dev.countStalls
  refine foldl (fun e he s' => ite (refl s') (setObjAt fun h => ?_)) s
  have hlt : e.2 < 32 := by
    have := List.snd_lt_of_mem_zipIdx he
    simpa using this
  rcases h with h | ⟨i, -, -, h⟩ <;> (unfold objAddr at h; omega)

end Dev.keepsRates

theorem Dev.advance_obj_same {d : Nat} (hd : d < 256) (s : Dev) (v : U64) {a : Nat} (ha : rateAddr d a) : (s.advance v).obj! a = s.obj! a := by
  rw [Dev.advance, Dev.latchAll_rest]
  exact (Dev.keepsRates.countStalls (s := s.setNow v) _ hd).same a ha

theorem Dev.objAt_setRates (s : Dev) {d : Nat} (hd : d < 256) (stop eff mon frac : Nat) :
    let t := s.setRates d stop eff mon frac
    t.objAt 0x0B 0x100 d = eff ∧ t.objAt 0x0B 0x101 d = mon ∧ t.objAt 0x0B 0x102 d = min (s.objAt 0x0B 0x102 d) eff
      ∧ t.objAt 0x0B 0x104 d = stop ∧ t.objAt 0x0B 0x105 d = frac := by
  have hobj (s : Dev) (i j v : Nat) (hi : i < 65536) (hj : j < 65536) :
      (s.setObjAt 0x0B i d v).objAt 0x0B j d = if j = i then v else s.objAt 0x0B j d := by
    rw [Dev.objAt_setObjAt _ _ _ _ _ _ _ _ hd hd hi hj]
    simp
  unfold Dev.setRates
  dsimp only
  split
  · next hlt =>
    simp (disch := decide) only [hobj] at hlt ⊢
    simp only [reduceIte, Nat.reduceEqDiff] at hlt ⊢
    simp only [min_eq_right hlt.le, and_self]
  · next hle =>
    simp (disch := decide) only [hobj] at hle ⊢
    simp only [reduceIte, Nat.reduceEqDiff] at hle ⊢
    simp only [min_eq_left (not_lt.mp hle), and_self]

/-- A throttle withholds no more than 240 of 256 steps (R630). -/
theorem throttleFraction_le (c : StepCount) (held : Bool) :
    (if c.monitor = 0 then 0 else (c.monitor - issuedUnder c held) * 256 / c.monitor) ≤ 240 := by
  split
  · exact Nat.zero_le _
  · next hm =>
    have hleft : c.monitor - issuedUnder c held ≤ c.monitor * 240 / 256 := by
      unfold issuedUnder
      split
      · omega
      · omega
    have hdiv : c.monitor * 240 / 256 * 256 ≤ 240 * c.monitor := by omega
    exact Nat.div_le_of_le_mul (by nlinarith [Nat.mul_le_mul_right 256 hleft])

theorem Windows.roll_of_next {w : Windows} {n : Nat} (hw : w.next = some n) (hn : 0 < n) (hlt : w.stop.toNat + 2 * n < 2 ^ 64) :
    w.roll.start = w.stop ∧ w.roll.len = n ∧ w.roll.next = none ∧ w.roll.stop.toNat % n = 0
      ∧ w.stop.toNat + n ≤ w.roll.stop.toNat ∧ w.roll.stop.toNat < w.stop.toNat + 2 * n := by
  have hmod := Nat.mod_add_div (w.stop.toNat + n + n - 1) n
  have hlt' := Nat.mod_lt (w.stop.toNat + n + n - 1) hn
  generalize hk : (w.stop.toNat + n + n - 1) / n = k at hmod
  rw [mul_comm n k] at hmod
  have hstop : w.roll.stop.toNat = k * n := by
    rw [Windows.roll, hw]
    dsimp only
    rw [hk, BitVec.toNat_ofNat, Nat.mod_eq_of_lt]
    omega
  refine ⟨by rw [Windows.roll, hw], by rw [Windows.roll, hw], by rw [Windows.roll, hw], ?_, ?_, ?_⟩ <;> rw [hstop]
  · exact Nat.mul_mod_left k n
  · omega
  · omega

theorem countOf_die (counts : List StepCount) (d : Die) : (countOf counts d).die = d := by
  unfold countOf
  cases h : counts.find? (fun c => c.die = d) with
  | none => rfl
  | some c => simpa using List.find?_some h

/-- What a window's end does for one die. -/
def Dev.endWindowOf (counts : List StepCount) (stop len : Nat) (s : Dev) (d : Die) : Dev :=
  (s.countWithheld (countOf counts d)).publishRate stop len (countOf counts d)

theorem Dev.keepsRates.endWindowOf {d : Nat} (hd : d < 256) {s : Dev} (counts : List StepCount) (stop len : Nat) {d' : Die} (hne : d'.val ≠ d) :
    s.keepsRates d (s.endWindowOf counts stop len d') :=
  (Dev.keepsRates.countWithheld hd _).trans (Dev.keepsRates.publishRate (by rwa [countOf_die]) hd ..)

theorem Dev.endWindow_rest (counts : List StepCount) (stop len : Nat) (l : List Die) (s : Dev) :
    l.foldl (Dev.endWindowOf counts stop len) s = { s with obj := (l.foldl (Dev.endWindowOf counts stop len) s).obj } :=
  (Dev.keepsRates.foldl (d := 255) (fun d _ s => Dev.keepsRates.endWindowOf (by decide) (s := s) counts stop len (by omega)) s).rest

/-- The rates that a window's end publishes of a die in service (R35, R38, R42, R630). -/
theorem Dev.endWindow_objAt {s : Dev} {d : Die} (hin : s.inService d.val = true) (counts : List StepCount) (stop len : Nat) :
    let c := countOf counts d
    let t := (List.finRange 20).foldl (Dev.endWindowOf counts stop len) s
    let issued := issuedUnder c (Table.get false s.thr.inWindow d.val)
    t.objAt 0x0B 0x100 d.val = min (issued * 1000000 / len) 0xFFFFFFFF
      ∧ t.objAt 0x0B 0x101 d.val = min (c.monitor * 1000000 / len) 0xFFFFFFFF
      ∧ t.objAt 0x0B 0x102 d.val = min (s.objAt 0x0B 0x102 d.val) (t.objAt 0x0B 0x100 d.val)
      ∧ t.objAt 0x0B 0x104 d.val = stop
      ∧ t.objAt 0x0B 0x105 d.val = (if c.monitor = 0 then 0 else (c.monitor - issued) * 256 / c.monitor) := by
  have hd : d.val < 256 := d.isLt.trans (by decide)
  have hrate (idx : Nat) (h : 0x100 ≤ idx ∧ idx ≤ 0x105) : rateAddr d.val (objAddr 0x0B idx d.val) := Or.inr ⟨idx, h.1, h.2, rfl⟩
  obtain ⟨l1, l2, hl⟩ := List.append_of_mem (List.mem_finRange d)
  have hnodup : (l1 ++ d :: l2).Nodup := hl ▸ List.nodup_finRange 20
  obtain ⟨-, hd2, hdisj⟩ := List.nodup_append.mp hnodup
  have hne1 : ∀ e ∈ l1, e.val ≠ d.val := fun e he h => hdisj e he d (List.mem_cons_self ..) (Fin.ext h)
  have hne2 : ∀ e ∈ l2, e.val ≠ d.val := fun e he h => (List.nodup_cons.mp hd2).1 (Fin.ext h ▸ he)
  have hbefore := Dev.keepsRates.foldl (d := d.val) (fun e he s => Dev.keepsRates.endWindowOf hd (s := s) counts stop len (hne1 e he)) s
  dsimp only
  rw [hl, List.foldl_append, List.foldl_cons]
  generalize l1.foldl (Dev.endWindowOf counts stop len) s = u at hbefore ⊢
  have hu := hbefore.trans (Dev.keepsRates.countWithheld hd (countOf counts d))
  have hafter := Dev.keepsRates.foldl (d := d.val) (fun e he s => Dev.keepsRates.endWindowOf hd (s := s) counts stop len (hne2 e he))
    (u.endWindowOf counts stop len d)
  generalize l2.foldl (Dev.endWindowOf counts stop len) (u.endWindowOf counts stop len d) = t at hafter ⊢
  rw [Dev.endWindowOf] at hafter
  generalize u.countWithheld (countOf counts d) = v at hu hafter
  have hthr : v.thr = s.thr := by rw [hu.rest]
  have hinv : v.inService (countOf counts d).die.val = true := by
    rw [countOf_die, Dev.inService, Dev.objAt, hu.same _ (Or.inl rfl)]
    exact hin
  have hkept (idx : Nat) (h : 0x100 ≤ idx ∧ idx ≤ 0x105) : t.objAt 0x0B idx d.val
      = (v.publishRate stop len (countOf counts d)).objAt 0x0B idx d.val := hafter.same _ (hrate idx h)
  rw [Dev.publishRate_eq hinv, countOf_die, hthr] at hkept
  obtain ⟨h0, h1, h2, h4, h5⟩ := v.objAt_setRates hd stop
    (min (issuedUnder (countOf counts d) (Table.get false s.thr.inWindow d.val) * 1000000 / len) 0xFFFFFFFF)
    (min ((countOf counts d).monitor * 1000000 / len) 0xFFFFFFFF)
    (if (countOf counts d).monitor = 0 then 0
      else ((countOf counts d).monitor - issuedUnder (countOf counts d) (Table.get false s.thr.inWindow d.val)) * 256 / (countOf counts d).monitor)
  have hlow : v.objAt 0x0B 0x102 d.val = s.objAt 0x0B 0x102 d.val := hu.same _ (hrate 0x102 (by decide))
  rw [hkept 0x100 (by decide), hkept 0x101 (by decide), hkept 0x102 (by decide), hkept 0x104 (by decide), hkept 0x105 (by decide)]
  exact ⟨h0, h1, by rw [h2, h0, hlow], h4, h5⟩

/-- A window that begins marks the dies that the fractions in force throttle (R35). -/
theorem Throttles.inWindow_mark (t : Throttles) (d : Die) :
    Table.get false ({ t with inWindow := [] } : Throttles).mark.inWindow d.val = true ↔ 0 < t.on d.val := by
  have hfold (l : List Nat) (w : Table Bool) : Table.get false (l.foldl (fun w d => if t.on d = 0 then w else Table.set false w d true) w) d.val = true
      ↔ Table.get false w d.val = true ∨ d.val ∈ l ∧ 0 < t.on d.val := by
    induction l generalizing w with
    | nil => simp
    | cons e l ih =>
      rw [List.foldl_cons, ih]
      by_cases hon : t.on e = 0
      · rw [if_pos hon, List.mem_cons]
        by_cases he : d.val = e
        · rw [he]; simp [hon]
        · simp [he]
      · rw [if_neg hon, Table.get_set, List.mem_cons]
        by_cases he : d.val = e
        · simp [he, Nat.pos_of_ne_zero hon]
        · simp [he]
  refine (hfold (List.range 20) []).trans ?_
  simp [List.mem_range, d.isLt, Table.get]

namespace Dev

variable (counts : List StepCount) (s : Dev)

/-- What the end of a window publishes (R35): what remains of it is to begin the next. -/
def windowEnded : Dev :=
  (List.finRange 20).foldl (endWindowOf counts s.windows.stop.toNat (max (s.windows.stop.toNat - s.windows.start.toNat) 1)) (s.advance s.windows.stop)

theorem windowEnded_rest : s.windowEnded counts
    = { s with now := (s.advance s.windows.stop).now, obj := (s.windowEnded counts).obj,
               cmd := { s.cmd with queues := (s.advance s.windows.stop).cmd.queues } } := by
  rw [windowEnded, endWindow_rest, advance_rest]

theorem windowEnded_now : (s.windowEnded counts).now.toNat = max s.now.toNat s.windows.stop.toNat := by
  rw [windowEnded_rest]
  refine (congrArg BitVec.toNat (s.advance_now _)).trans ?_
  split <;> omega

theorem objAt_windowEnded {d : Die} (hin : s.inService d.val = true) :
    let c := countOf counts d
    let len := max (s.windows.stop.toNat - s.windows.start.toNat) 1
    let t := s.windowEnded counts
    let issued := issuedUnder c (Table.get false s.thr.inWindow d.val)
    t.objAt 0x0B 0x100 d.val = min (issued * 1000000 / len) 0xFFFFFFFF
      ∧ t.objAt 0x0B 0x101 d.val = min (c.monitor * 1000000 / len) 0xFFFFFFFF
      ∧ t.objAt 0x0B 0x102 d.val = min (s.objAt 0x0B 0x102 d.val) (t.objAt 0x0B 0x100 d.val)
      ∧ t.objAt 0x0B 0x104 d.val = s.windows.stop.toNat
      ∧ t.objAt 0x0B 0x105 d.val = (if c.monitor = 0 then 0 else (c.monitor - issued) * 256 / c.monitor) := by
  have hsame {a : Nat} (ha : rateAddr d.val a) := advance_obj_same (d.isLt.trans (by decide)) s s.windows.stop ha
  have hin' : (s.advance s.windows.stop).inService d.val = true := by
    rw [inService, objAt, hsame (Or.inl rfl)]
    exact hin
  have hlow : (s.advance s.windows.stop).objAt 0x0B 0x102 d.val = s.objAt 0x0B 0x102 d.val := hsame (Or.inr ⟨0x102, by decide, by decide, rfl⟩)
  have hend := endWindow_objAt hin' counts s.windows.stop.toNat (max (s.windows.stop.toNat - s.windows.start.toNat) 1)
  rw [advance_thr, hlow] at hend
  exact hend

end Dev

theorem exec_windowEnd (counts : List StepCount) (s : State) : exec (.windowEnd counts) s = s.run fun s =>
    { s.windowEnded counts with windows := s.windows.roll, shf := { (s.windowEnded counts).shf with steps := [] },
                                thr := { (s.windowEnded counts).thr with inWindow := [] }.mark } := rfl

/-- Settles O2: the rates of a die are set once in the fold over the dies, and neither time's advance nor another die's rates touch them. -/
theorem stepRateWindows : Obligations.StepRateWindows := by
  unfold Obligations.StepRateWindows
  refine ⟨fun v s => ⟨fun hv => ?_, fun hlo hhi => ?_⟩, fun w => ⟨fun hw => ?_, fun n => Windows.roll_of_next⟩, fun counts s => ?_, fun d v s => ?_⟩
  · refine exec_eq_next rfl ?_
    dsimp only
    rw [Dev.writeStepWindow, if_neg (by simpa using hv)]
  · have hw : (s.toDev.writeStepWindow v.toNat).1
        = { s.toDev.setObjAt 0x0B 0x103 0 v.toNat with windows := { s.windows with next := some v.toNat } } := by
      rw [Dev.writeStepWindow, if_pos (by simpa using ⟨hlo, hhi⟩)]
    refine ⟨_, exec_eq_next rfl hw, ?_, rfl, rfl, fun a ha => ?_⟩
    · exact s.toDev.objAt_setObjAt_same _ _ _ _
    · exact (s.toDev.obj!_setObj _ _ _).trans (if_neg ha)
  · rw [Windows.roll, hw]
    exact ⟨rfl, rfl, rfl⟩
  · have hrest := s.toDev.windowEnded_rest counts
    have hthr : (s.toDev.windowEnded counts).thr = s.thr := by rw [hrest]
    have hnow := s.toDev.windowEnded_now counts
    have hobj (d : Die) := s.toDev.objAt_windowEnded counts (d := d)
    refine ⟨_, exec_windowEnd counts s, ?_⟩
    dsimp only
    generalize s.toDev.windowEnded counts = u at hrest hthr hnow hobj
    rw [hthr]
    refine ⟨rfl, ?_, hnow, s.thr.inWindow_mark, fun d hin => ?_⟩
    · rw [hrest]
    · obtain ⟨h0, h1, h2, h4, h5⟩ := hobj d hin
      rw [countOf_die]
      exact ⟨h0, h1, h2, h4, h5, h5.trans_le (throttleFraction_le ..)⟩
  · refine ⟨_, rfl, s.toDev.objAt_setObjAt_same _ _ _ _, rfl, fun a ha => ?_⟩
    exact (s.toDev.obj!_setObj _ _ _).trans (if_neg ha)
end Sys2Proof.Machine
end

section
/-! PROOFS. Proofs/RelayWrites.lean: what enables, disables and moves a relay queue (O33). -/

namespace Sys2Proof.Machine

/-- A command that changes one relay queue changes nothing else. -/
theorem exec_modRelay {c : Instr} {s : State} {r : Fin 64} {y : Relay} {f : Relay → Relay} (hc : exec c s = s.run fun s => s.modRelay r f)
    (hy : f (s.relay r) = y) :
    ∃ t, exec c s = .next t ∧ t.relay r = y ∧ (∀ r2, r2 ≠ r → t.relay r2 = s.relay r2) ∧ t = { s with relays := t.relays } :=
  ⟨_, hc, (s.toDev.relay_setRelay ..).trans ((if_pos rfl).trans hy), fun _ hr => (s.toDev.relay_setRelay ..).trans (if_neg hr), rfl⟩

theorem exec_relayEnable {s : State} {r : Fin 64} (he : (s.relay r).enable = false) : exec (.relayEnable r) s
    = s.run fun s => s.modRelay r fun x => { x with enable := true, puts := 0, takes := 0, fullWaits := 0, emptyWaits := 0 } :=
  exec_eq_next rfl (if_neg (by simp [he]))

theorem exec_relayDisable {s : State} {r : Fin 64} (he : (s.relay r).enable = true) (hno : s.relayWaiters r = []) : exec (.relayDisable r) s
    = s.run fun s => s.modRelay r fun x => { x with enable := false, puts := 0, takes := 0, entries := [] } := by
  refine exec_eq_next rfl ?_
  dsimp only
  rw [hno, if_neg (by simp [he])]
  rfl

/-- Settles O33: each of the four writes is one change of its relay queue, by the branch its enable, its owner and its count select. -/
theorem relayControl : Obligations.RelayControl := by
  unfold Obligations.RelayControl
  intro r v s x gives
  refine ⟨fun he => exec_eq_next rfl (if_pos he), fun he => exec_modRelay (exec_relayEnable he) rfl, fun he => exec_eq_next rfl (if_pos (congrArg (!·) he)),
    fun he hno => ⟨_, exec_modRelay (exec_relayDisable he hno) rfl, rfl, rfl, by simp [Relay.held], rfl, rfl, rfl⟩,
    fun hp => exec_modRelay rfl (if_pos hp), fun hp hv => exec_modRelay rfl ?_, fun hp hv => exec_modRelay rfl ?_,
    fun hc => exec_modRelay rfl (if_pos hc), fun hc hv => exec_modRelay rfl ?_, fun hc hv => exec_modRelay rfl ?_⟩
  · exact (if_neg (not_not_intro hp)).trans (if_pos hv)
  · exact (if_neg (not_not_intro hp)).trans (if_neg hv.not_gt)
  · exact (if_neg (not_not_intro hc)).trans (if_pos hv)
  · exact (if_neg (not_not_intro hc)).trans (if_neg hv.not_gt)
end Sys2Proof.Machine
end

section
/-! PROOFS. Proofs/QueueCommands.lean: what starts, stops, aborts and detaches a queue (O3). -/

namespace Sys2Proof.Machine

namespace Dev

/-- From s to t nothing has changed but one command queue. -/
def onlyQueue (s t : Dev) (q : QueueId) : Prop :=
  t = { s with cmd := { s.cmd with queues := t.cmd.queues } } ∧ ∀ q2, q2 ≠ q → t.queue q2 = s.queue q2

variable {s t u : Dev} {q : QueueId}

theorem onlyQueue.refl (s : Dev) (q : QueueId) : s.onlyQueue s q := ⟨rfl, fun _ _ => rfl⟩

theorem onlyQueue.trans (h1 : s.onlyQueue t q) (h2 : t.onlyQueue u q) : s.onlyQueue u q := by
  obtain ⟨h1, hq1⟩ := h1
  obtain ⟨h2, hq2⟩ := h2
  exact ⟨by rw [h2, h1], fun k hk => (hq2 k hk).trans (hq1 k hk)⟩

theorem onlyQueue_setQueue (s : Dev) (q : QueueId) (x : Queue) : s.onlyQueue (s.setQueue q x) q :=
  ⟨rfl, fun _ h => (s.queue_setQueue ..).trans (if_neg h)⟩

theorem onlyQueue_modQueue (s : Dev) (q : QueueId) (f : Queue → Queue) : s.onlyQueue (s.modQueue q f) q := s.onlyQueue_setQueue ..

end Dev

/-! The pushes of a queue go on without its state, its reason, its count or its loop stack (R111). -/

/-- A queue is in the same state, for the same reason, with the same count and loop stack. -/
def Queue.runsAs (x y : Queue) : Prop := y.state = x.state ∧ y.reason = x.reason ∧ y.issued = x.issued ∧ y.loops = x.loops

theorem Queue.runsAs.trans {x y z : Queue} (h1 : x.runsAs y) (h2 : y.runsAs z) : x.runsAs z := by
  obtain ⟨a1, b1, c1, d1⟩ := h1
  obtain ⟨a2, b2, c2, d2⟩ := h2
  exact ⟨a2.trans a1, b2.trans b1, c2.trans c1, d2.trans d1⟩

theorem Queue.runsAs.refl (x : Queue) : x.runsAs x := ⟨rfl, rfl, rfl, rfl⟩

namespace Dev

variable (s : Dev) (q : QueueId)

theorem runsAs_mark {f : Queue → Queue} (hf : ∀ x : Queue, x.runsAs (f x)) (e : PushEnd) :
    (s.queue q).runsAs ((s.modQueue q f, e).1.queue q) := by
  dsimp only
  rw [queue_modQueue_same]
  exact hf _

theorem runsAs_refill : (s.queue q).runsAs ((s.refill q).queue q) := by
  unfold refill
  dsimp only
  split
  · rw [queue_nextBuffer]
    exact ⟨rfl, rfl, rfl, rfl⟩
  · exact ⟨rfl, rfl, rfl, rfl⟩

theorem runsAs_acceptPush (asid : Nat) (b : Buffer) (base pages : Nat) : (s.queue q).runsAs ((s.acceptPush q asid b base pages).queue q) := by
  refine Queue.runsAs.trans ?_ (runsAs_refill _ q)
  rw [queue_modQueue_same, queue_bind]
  exact ⟨rfl, rfl, rfl, rfl⟩

theorem runsAs_pushNow (handle : Nat) : (s.queue q).runsAs ((s.pushNow q handle).1.queue q) := by
  by_cases h0 : handle = 0
  · rw [pushNow, if_pos h0]
    exact .refl _
  by_cases hd : (s.queue q).state = .detached
  · rw [pushNow_of_detached h0 hd]
    refine runsAs_mark _ q ?_ _
    exact fun _ => ⟨rfl, rfl, rfl, rfl⟩
  have hread : (s.pushedBuffer q handle).1.queue q = s.queue q := memStep_queue (memStep_pushedBuffer ..) ..
  rw [← hread]
  rcases hb : (s.pushedBuffer q handle).2 with (_ | ⟨b, base, pages⟩) | _ | ⟨r, a⟩
  · rw [pushNow_of_unusable h0 hd (Or.inl hb)]
    refine runsAs_mark _ q ?_ _
    exact fun _ => ⟨rfl, rfl, rfl, rfl⟩
  · rw [pushNow_of_buffer h0 hd hb]
    dsimp only
    split_ifs
    · refine runsAs_mark _ q ?_ _
      exact fun _ => ⟨rfl, rfl, rfl, rfl⟩
    · refine runsAs_mark _ q ?_ _
      exact fun _ => ⟨rfl, rfl, rfl, rfl⟩
    · dsimp only
      exact runsAs_acceptPush ..
  · rw [pushNow_of_wait h0 hd hb]
    exact .refl _
  · rw [pushNow_of_unusable h0 hd (Or.inr ⟨r, a, hb⟩)]
    refine runsAs_mark _ q ?_ _
    exact fun _ => ⟨rfl, rfl, rfl, rfl⟩

theorem runsAs_retryPushes (l : List Nat) : (s.queue q).runsAs ((s.retryPushes q l).queue q) := by
  induction l generalizing s with
  | nil => exact .refl _
  | cons handle l ih =>
    have hnow := s.runsAs_pushNow q handle
    unfold retryPushes
    split
    · next hp => rwa [hp] at hnow
    · next hp =>
      rw [hp] at hnow
      refine (hnow.trans ?_).trans (ih _)
      rw [queue_modQueue_same]
      exact ⟨rfl, rfl, rfl, rfl⟩

theorem refill_of_kept (h : (s.queue q).cur ≠ none ∨ (s.queue q).submits = []) : s.refill q = s := by
  refine if_neg fun hrefill => ?_
  simp only [Bool.and_eq_true, Option.isNone_iff_eq_none, decide_eq_true_eq] at hrefill
  obtain ⟨⟨-, hcur⟩, hsub⟩ := hrefill
  exact h.elim (fun h => h hcur) hsub

theorem drainPushes_of_none (h : (s.queue q).pushes = []) : s.drainPushes q = s := by rw [drainPushes, h, retryPushes]

end Dev

/-- A queue that starts: it runs from its head, the signals it still holds of ordinals it no longer counts (R108). -/
def Queue.started (x : Queue) (now : U64) : Queue :=
  { x with state := .running, reason := 0, issued := 0, headSince := now, signals := x.signals.map fun g => { g with afterOrdinal := 0 } }

/-- A queue starts: what follows is to take up its pushes and its next buffer. -/
def Dev.started (s : Dev) (q : QueueId) : Dev := s.setQueue q ((s.queue q).started s.now)

theorem Dev.queue_started (s : Dev) (q : QueueId) : (s.started q).queue q = (s.queue q).started s.now := s.queue_setQueue_same ..

theorem Dev.onlyQueue.state {s t : State} {q : QueueId} {d : Dev} (h : s.toDev.onlyQueue d q) (ht : t = { s with toDev := d }) : s.onlyQueue t q := by
  obtain ⟨hrest, hother⟩ := h
  subst ht
  exact ⟨congrArg (fun d : Dev => ({ s with toDev := d } : State)) hrest, hother⟩

section
variable {q : QueueId} {s : State} (h : (s.queue q).state = .idle ∨ (s.queue q).state = .stopped)
include h

theorem exec_start : exec (.start q) s = .next { s with toDev := ((s.started q).drainPushes q).refill q } :=
  exec_eq_next rfl (if_pos (by simpa using h))

theorem exec_start_runs : ∃ t, exec (.start q) s = .next t
    ∧ (t.queue q).state = .running ∧ (t.queue q).reason = 0 ∧ (t.queue q).issued = 0 ∧ (t.queue q).loops = (s.queue q).loops := by
  refine ⟨_, exec_start h, ?_⟩
  have hrun := ((s.started q).runsAs_retryPushes q ((s.started q).queue q).pushes).trans (Dev.runsAs_refill _ q)
  obtain ⟨hstate, hreason, hissued, hloops⟩ := hrun
  have hq := s.queue_started q
  dsimp only
  exact ⟨hstate.trans (congrArg Queue.state hq), hreason.trans (congrArg Queue.reason hq), hissued.trans (congrArg Queue.issued hq),
    hloops.trans ((congrArg Queue.loops hq).trans rfl)⟩

/-- With no push that is still being read, a start takes up the next buffer alone (R112). -/
theorem exec_start_unpushed (hp : (s.queue q).pushes = []) : exec (.start q) s = .next { s with toDev := (s.started q).refill q } := by
  rw [exec_start h, Dev.drainPushes_of_none _ _ (by rw [Dev.queue_started]; exact hp)]

end

/-- A start without a push takes up the oldest of the submit list, where the queue has no buffer and one is there (R112). -/
theorem exec_start_buffers {q : QueueId} {s : State} (h : (s.queue q).state = .idle ∨ (s.queue q).state = .stopped)
    (hp : (s.queue q).pushes = []) : ∃ t, exec (.start q) s = .next t ∧ s.onlyQueue t q
      ∧ (((s.queue q).cur ≠ none ∨ (s.queue q).submits = [])
          → (t.queue q).head = (s.queue q).head ∧ (t.queue q).cur = (s.queue q).cur ∧ (t.queue q).submits = (s.queue q).submits)
      ∧ (∀ b l, (s.queue q).cur = none → (s.queue q).submits = b :: l
          → (t.queue q).head = 0 ∧ (t.queue q).cur = some b ∧ (t.queue q).submits = l) := by
  refine ⟨_, exec_start_unpushed h hp, ?_⟩
  have hq := s.queue_started q
  by_cases hc : (s.queue q).cur ≠ none ∨ (s.queue q).submits = []
  · rw [Dev.refill_of_kept (s.started q) q (by rw [hq]; exact hc)]
    refine ⟨Dev.onlyQueue.state (Dev.onlyQueue_setQueue ..) rfl, fun _ => ⟨(congrArg Queue.head hq :), (congrArg Queue.cur hq :), (congrArg Queue.submits hq :)⟩,
      fun b l hb hl => ?_⟩
    rw [hb, hl] at hc
    simp at hc
  · obtain ⟨hcur, hsub⟩ := not_or.mp hc
    rw [ne_eq, not_not] at hcur
    rw [Dev.refill_eq_nextBuffer _ _ (congrArg Queue.state hq) ((congrArg Queue.cur hq).trans hcur) (by rw [hq]; exact hsub)]
    have hnext := (s.started q).queue_nextBuffer q
    have hfin : (s.started q).finishBuffer q = s.started q := by
      unfold Dev.finishBuffer
      rw [hq, show ((s.queue q).started s.now).cur = none from hcur]
    refine ⟨Dev.onlyQueue.state ?_ rfl, fun h => absurd h hc, fun b l _ hl => ?_⟩
    · rw [Dev.nextBuffer, hfin]
      exact ((Dev.onlyQueue_setQueue s.toDev q _).trans (Dev.onlyQueue_setQueue _ q _)).trans (Dev.onlyQueue_modQueue _ q _)
    · dsimp only
      rw [hnext, hq]
      exact ⟨rfl, congrArg List.head? hl, congrArg List.tail hl⟩

namespace Dev

variable (s : Dev) (q : QueueId)

/-- Settling a queue that drains with nothing at its head. -/
theorem queue_settle_draining {x : Queue} (hd : x.state = .draining) (he : x.endUnperformed = none) :
    ((s.setQueue q x).settle q).queue q = if s.running q = [] then
      (if x.stopping then { x with state := .stopped, reason := x.stopReason, stopping := false, failStop := false, abortedQ := false, stopReason := 0 }
       else { x with state := .idle, abortedQ := false }) else x := by
  unfold settle
  dsimp only
  rw [queue_setQueue_same, running_setQueue]
  by_cases hr : s.running q = []
  · rw [if_pos (by simp [hd, hr, he]), if_pos hr]
    split <;> exact queue_setQueue_same ..
  · rw [if_neg (by simp [hr]), if_neg hr, queue_setQueue_same]

theorem abortOps_of_unbegun (h : ∀ o ∈ s.running q, o.begun = false) : s.abortOps q = s.abortUnbegun q 7 := by
  have hnone : (s.running q).filter (fun o => o.begun) = [] := List.filter_eq_nil_iff.mpr fun o ho => by simp [h o ho]
  rw [abortOps, hnone]
  rfl

theorem running_abortUnbegun (reason : Nat) : (s.abortUnbegun q reason).running q
    = (s.running q).map fun o => if o.queue = q && !o.begun && o.status = 0 then { o with status := 5, reason := reason } else o := by
  rw [running, abortUnbegun, running, List.filter_map]
  congr 1
  refine List.filter_congr fun o _ => ?_
  simp only [Function.comp]
  split <;> rfl

theorem abortUnbegun_ends (h : ∀ o ∈ s.running q, o.begun = false) (reason : Nat) :
    ∀ o ∈ (s.abortUnbegun q reason).running q, o.status ≠ 0 := by
  rw [running_abortUnbegun]
  intro o ho
  obtain ⟨o', ho', rfl⟩ := List.mem_map.mp ho
  have hq : o'.queue = q := by simpa using (List.mem_filter.mp ho').2
  split
  · exact Nat.succ_ne_zero 4
  · next hlive => simpa [hq, h o' ho'] using hlive

theorem queue_foldl_unbindBuffer (k : QueueId) (l : List Buffer) : (l.foldl (fun s b => s.unbindBuffer k b) s).queue q = s.queue q := by
  induction l generalizing s with
  | nil => rfl
  | cons b l ih => exact (ih _).trans (queue_unbind ..)

/-- A running queue that stops: the instruction at its head is dropped, and it drains (R108, R750). -/
def stopped : Dev := ((s.dropHead q).modQueue q fun x => { x with state := .draining, stopping := false }).settle q

theorem queue_stopped : (s.stopped q).queue q =
    let x := { s.queue q with fetched := none, wait0 := false, wait1 := false, brkLatch := false, slot := none, slotWait := false,
                              endUnperformed := none, state := .draining, stopping := false }
    if s.running q = [] then { x with state := .idle, abortedQ := false } else x := by
  rw [stopped, modQueue, queue_settle_draining _ _ rfl (by rw [queue_dropHead]), running_dropHead, queue_dropHead]
  rfl

theorem ops_stopped : (s.stopped q).cmd.ops = s.cmd.ops := by
  rw [stopped, ops_settle, ops_modQueue, ops_dropHead]

/-- A queue that is aborted, none of its operations begun: they end, and it stops with reason 0x07 (R108, R138). -/
def aborted : Dev :=
  (((s.abortUnbegun q 7).dropHead q).modQueue q
    fun x => { x with state := .draining, stopping := true, stopReason := 7, abortedQ := true }).settle q

theorem running_aborted : (s.aborted q).running q = (s.abortUnbegun q 7).running q := by
  rw [aborted, running_settle, running_modQueue, running_dropHead]

theorem aborted_stopsWith : (s.aborted q).stopsWith q 7 := by
  have hq : (s.aborted q).queue q = _ := queue_settle_draining _ q rfl (by rw [queue_dropHead])
  rw [running_dropHead] at hq
  rw [stopsWith, running_aborted, hq]
  by_cases hr : (s.abortUnbegun q 7).running q = []
  · rw [if_pos hr, if_pos hr, queue_dropHead]
    exact ⟨rfl, rfl, rfl, rfl⟩
  · rw [if_neg hr, if_neg hr, queue_dropHead]
    exact ⟨rfl, rfl, rfl, rfl, rfl⟩

theorem queue_aborted_ne {q2 : QueueId} (h : q2 ≠ q) : (s.aborted q).queue q2 = s.queue q2 := by
  rw [aborted, queue_settle_ne _ _ _ h, queue_modQueue, if_neg h, queue_dropHead_ne _ _ _ h]
  rfl

/-- A queue that is detached: its buffers are unbound, and nothing of them or of its loops is kept (R108, R165; log entry 80). -/
def letGo : Dev :=
  let x := s.queue q
  ((x.cur.toList ++ x.submits).foldl (fun s b => s.unbindBuffer q b) s).setQueue q
    { x with state := .detached, cur := none, submits := [], loops := [], skipDepth := none, pushes := [],
             submitBad := x.submitBad || !x.pushes.isEmpty }

theorem letGo_detaches : let y := (s.letGo q).queue q
    y.state = .detached ∧ y.cur = none ∧ y.submits = [] ∧ y.pushes = [] ∧ y.loops = [] := by
  rw [letGo, queue_setQueue_same]
  exact ⟨rfl, rfl, rfl, rfl, rfl⟩

theorem queue_letGo_ne {q2 : QueueId} (h : q2 ≠ q) : (s.letGo q).queue q2 = s.queue q2 := by
  rw [letGo, queue_setQueue, if_neg h, queue_foldl_unbindBuffer]

end Dev

section
variable {q : QueueId} {s : State}

theorem exec_stop (h : (s.queue q).state = .running) : exec (.stop q) s = .next { s with toDev := s.stopped q } := exec_eq_next rfl (if_pos h)

theorem exec_abort (h : (s.queue q).state = .running ∨ (s.queue q).state = .draining) (hb : ∀ o ∈ s.running q, o.begun = false) :
    exec (.abort q) s = .next { s with toDev := s.aborted q } := by
  refine exec_eq_next rfl ?_
  dsimp only
  rw [if_pos (by simpa using h), Dev.abortOps_of_unbegun _ _ hb]
  rfl

theorem exec_detach (h : (s.queue q).state = .idle ∨ (s.queue q).state = .stopped) : exec (.detach q) s = .next { s with toDev := s.letGo q } :=
  exec_eq_next rfl (if_pos (by simpa using h))

end

/-- Settles O3: each command acts under the test of its listed states, and what it then does to its queue is said by the lemmas above. -/
theorem queueCommands : Obligations.QueueCommands := by
  unfold Obligations.QueueCommands
  intro q s x
  refine ⟨exec_start_runs, fun h hp => ?_, fun h => ?_, fun h => ?_, fun h => ?_, fun h hb => ?_, fun h => ?_, fun h => ?_, fun h => ?_⟩
  · obtain ⟨t, ht, hstate, hreason, hissued, hloops⟩ := exec_start_runs h
    obtain ⟨t2, ht2, honly, hkept, htaken⟩ := exec_start_buffers h hp
    obtain rfl : t = t2 := by simpa using ht.symm.trans ht2
    exact ⟨t, ht, hstate, hreason, hissued, hloops, honly, hkept, htaken⟩
  · exact exec_eq_next rfl (if_neg (by simpa using h))
  · have hq := s.queue_stopped q
    refine ⟨_, exec_stop h, ?_⟩
    dsimp only
    rw [hq, s.ops_stopped]
    split <;> exact ⟨rfl, rfl, rfl, rfl, rfl, rfl⟩
  · exact exec_eq_next rfl (if_neg h)
  · have hends := s.abortUnbegun_ends q hb 7
    rw [← s.running_aborted] at hends
    refine ⟨_, exec_abort h hb, ?_⟩
    dsimp only
    exact ⟨s.aborted_stopsWith q, hends, fun q2 h2 => s.queue_aborted_ne q h2⟩
  · exact exec_eq_next rfl (if_neg (by simpa using h))
  · obtain ⟨hstate, hcur, hsub, hpush, hloops⟩ := s.letGo_detaches q
    exact ⟨_, exec_detach h, hstate, hcur, hsub, hpush, hloops, fun q2 h2 => s.queue_letGo_ne q h2⟩
  · exact exec_eq_next rfl (if_neg (by simpa using h))
end Sys2Proof.Machine
end

section
/-! PROOFS. Proofs/AttachChecks.lean: what an attach tests and leaves (O4). -/

namespace Sys2Proof.Machine

/-- Another attached queue of a die's services holds a queue's channel (R747). -/
def Dev.channelTaken (s : Dev) (q : QueueId) : Bool :=
  s.cmd.queues.any fun e => e.1 ≠ q.val && e.2.state ≠ .detached && e.1 < 2048 && homeDie ⟨e.1 % 2048, by omega⟩ = homeDie q
    && e.2.channel = (s.queue q).channel

theorem Dev.channelTaken_eq_false (s : Dev) (q : QueueId) : s.channelTaken q = false
    ↔ ∀ e ∈ s.cmd.queues, ∀ h : e.1 < 2048, e.1 ≠ q.val → homeDie ⟨e.1, h⟩ = homeDie q → e.2.channel = (s.queue q).channel → e.2.state = .detached := by
  rw [channelTaken, List.any_eq_false]
  refine forall₂_congr fun e _ => ?_
  by_cases hlt : e.1 < 2048
  · have hmod : (⟨e.1 % 2048, by omega⟩ : QueueId) = ⟨e.1, hlt⟩ := Fin.ext (Nat.mod_eq_of_lt hlt)
    simp only [hmod, hlt, Bool.and_eq_true, decide_eq_true_eq, and_true, not_and, forall_true_left]
    grind
  · simp [hlt]

theorem queueClass_cases (q : QueueId) : queueClass q = 1 ∨ queueClass q = 2 ∨ queueClass q = 3 := by
  unfold queueClass
  split_ifs <;> simp

/-- The unit and the mask of a queue fit its class (R747). -/
def Dev.unitFits (s : Dev) (q : QueueId) : Prop :=
  (queueClass q = 2 → bits (s.queue q).unit.toNat 11 8 = 0 ∧ (s.queue q).sheafMask = 0
      ∧ ((s.queue q).channel = 0xFF ∨ (channelExists (s.queue q).channel = true ∧ s.channelTaken q = false)))
    ∧ (queueClass q = 3 → (s.queue q).unit = 0 ∧ (s.queue q).sheafMask = 0)

/-- The address space of a queue may be used (R529, R747). -/
def Dev.spaceFits (s : Dev) (q : QueueId) : Prop :=
  ∃ c, s.ctx (mmuOf (homeDie q)) (s.queue q).asid.toNat = some c ∧ c.term = false ∧ (c.realmEn = true → (s.realmAt c.realmSlot).active = true)

theorem Dev.attachOk_iff (s : Dev) (q : QueueId) : s.attachOk q = true ↔ (s.queue q).cls.toNat = queueClass q ∧ s.unitFits q ∧ s.spaceFits q := by
  have hspace : (match s.ctx (mmuOf (homeDie q)) (s.queue q).asid.toNat with
      | some c => !c.term && !(c.realmEn && !(s.realmAt c.realmSlot).active)
      | none => false) = true ↔ s.spaceFits q := by
    unfold spaceFits
    cases s.ctx (mmuOf (homeDie q)) (s.queue q).asid.toNat with
    | none => simp
    | some c => cases c.term <;> cases hr : c.realmEn <;> simp [hr]
  have hunit : (match queueClass q with
      | 1 => true
      | 2 => bits (s.queue q).unit.toNat 11 8 = 0 && (s.queue q).sheafMask = 0
          && ((s.queue q).channel = 0xFF || (channelExists (s.queue q).channel && !s.channelTaken q))
      | _ => (s.queue q).unit = 0 && (s.queue q).sheafMask = 0) = true ↔ s.unitFits q := by
    unfold unitFits
    rcases queueClass_cases q with hc | hc | hc <;> simp [hc, and_assoc]
  rw [← hunit, ← hspace, ← and_assoc]
  unfold attachOk
  simp only [Bool.and_eq_true, decide_eq_true_eq]
  rfl

/-- What an attach leaves of its queue (R108, R747). -/
def Dev.attached (s : Dev) (q : QueueId) : Dev :=
  if s.attachOk q then s.modQueue q fun x => { x with state := .idle } else s.modQueue q fun x => { x with reason := 3 }

/-- An attach of a detached queue, the context of its address space read (R747). -/
theorem exec_attach {q : QueueId} {s : State} (hboot : ¬(1 ≤ s.objAt 0x0C 0x400 0 ∧ s.objAt 0x0C 0x400 0 ≤ 3)) (hd : (s.queue q).state = .detached)
    {d : Dev} (hr : s.toDev.ctxRead (mmuOf (homeDie q)) (s.queue q).asid.toNat = d) : exec (.attach q) s = .next { s with toDev := d.attached q } := by
  subst hr
  exact exec_eq_next rfl (if_neg (by simpa [hd] using hboot))

/-- Settles O4: reading the context changes no queue, and what an attach then tests is what R747 lists. -/
theorem attachChecks : Obligations.AttachChecks := by
  unfold Obligations.AttachChecks
  intro q s hboot x u attaches unitFits spaceFits
  have hstep : s.toDev.memStep u := Dev.memStep_ctxRead ..
  have hcmd : u.cmd = s.cmd := Dev.memStep_cmd hstep
  have hq (k : QueueId) : u.queue k = s.queue k := Dev.memStep_queue hstep k
  have hunit : u.unitFits q ↔ unitFits := by
    simp only [Dev.unitFits, Dev.channelTaken_eq_false, hq, hcmd, unitFits, x]
  have hspace : u.spaceFits q ↔ spaceFits := by
    simp only [Dev.spaceFits, hq, spaceFits, x]
  have hok : u.attachOk q = true ↔ x.cls.toNat = queueClass q ∧ unitFits ∧ spaceFits := by
    rw [Dev.attachOk_iff, hunit, hspace, hq]
  have hother (f : Queue → Queue) (k : QueueId) (hk : k ≠ q) : (u.modQueue q f).queue k = s.queue k := by
    rw [Dev.queue_modQueue, if_neg hk, hq]
  refine ⟨fun hn => exec_eq_next rfl (if_pos (by simp [show (s.queue q).state ≠ .detached from hn])), fun hd hcls hu hs => ?_, fun hd hno => ?_⟩
  · refine ⟨_, exec_attach hboot hd rfl, ?_⟩
    rw [Dev.attached, if_pos (hok.mpr ⟨hcls, hu, hs⟩)]
    exact ⟨(Dev.queue_modQueue_same ..).trans (by rw [hq]), hother _⟩
  · refine ⟨_, exec_attach hboot hd rfl, ?_⟩
    rw [Dev.attached, if_neg (mt hok.mp hno)]
    exact ⟨(Dev.queue_modQueue_same ..).trans (by rw [hq]), hother _, by rw [← hcmd]; rfl⟩

end Sys2Proof.Machine
end

section
/-! PROOFS. Proofs/ControlInstructions.lean: what each control instruction leaves of its queue (O6). -/

namespace Sys2Proof.Machine

theorem Queue.follows.unfetched {x y : Queue} (h : y.follows x) : y.fetched = none := by
  obtain ⟨-, -, -, -, -, -, -, -, h⟩ := h
  exact h

namespace Dev

variable {s t u : Dev} {q : QueueId}

theorem onlyQueue_settle (s : Dev) (q : QueueId) : s.onlyQueue (s.settle q) q := by
  rcases s.settle_eq q with h | ⟨x, h⟩ <;> rw [h]
  · exact .refl s q
  · exact s.onlyQueue_setQueue q x

/-- A queue that ceases to issue with no slot at its head changes alone. -/
theorem onlyQueue_cease (h : (s.queue q).slot = none) (r : Nat) (f : Bool) : s.onlyQueue (s.cease q r f) q := by
  have hdrop : s.onlyQueue (s.dropHead q) q := by
    unfold dropHead
    dsimp only
    rw [h]
    exact s.onlyQueue_setQueue ..
  unfold cease
  dsimp only
  split
  · exact (hdrop.trans (onlyQueue_setQueue ..)).trans (onlyQueue_settle ..)
  · exact .refl s q

theorem slot_settle (s : Dev) (q : QueueId) : ((s.settle q).queue q).slot = (s.queue q).slot := by
  unfold settle
  dsimp only
  split
  · split <;> rw [queue_setQueue_same]
  · rfl

/-- A queue that ceases to issue holds no slot for the instruction at its head (R750). -/
theorem unslotted_cease (h : (s.queue q).slot = none) (r : Nat) (f : Bool) : ((s.cease q r f).queue q).slot = none := by
  unfold cease
  dsimp only
  split
  · rw [slot_settle, queue_setQueue_same]
    split <;> rw [queue_dropHead]
  · exact h

/-- Without a signal and within its buffer a control instruction changes its queue alone (R123). -/
theorem onlyQueue_endControl (s : Dev) (q : QueueId) (w : BitVec 256) (n : Nat) (hs : sigKind (iSignal w) = 0)
    (hp : (s.queue q).pastEnd n = false) : s.onlyQueue (s.endControl q w n []) q ∧ ((s.endControl q w n []).queue q).slot = none := by
  have hsig (k : Nat) : signalOf w k true = [] := if_pos hs
  unfold endControl
  dsimp only
  rw [hsig, List.append_nil, List.append_nil, List.foldl_nil, ite_self, moveHead_within _ _ _ (by rw [queue_setQueue_same]; exact hp)]
  have hmoved := (s.onlyQueue_setQueue q (s.queue q)).trans (onlyQueue_modQueue _ q fun x => { x with
    head := BitVec.ofNat 32 n, fetched := none, wait0 := false, wait1 := false, brkLatch := false, slot := none,
    slotWait := false, endUnperformed := none, headSince := (s.setQueue q (s.queue q)).now })
  have hslot : (((s.setQueue q (s.queue q)).setHead q n).queue q).slot = none := by rw [queue_setHead]
  split
  · exact ⟨hmoved.trans (onlyQueue_cease hslot ..), unslotted_cease hslot ..⟩
  · exact ⟨hmoved, hslot⟩

theorem ops_foldl_performFirst {α : Type} (l : List α) (s : Dev) (q : QueueId) :
    (l.foldl (fun d _ => d.performFirst q) s).cmd.ops = s.cmd.ops := by
  induction l generalizing s with
  | nil => rfl
  | cons a l ih => exact (ih _).trans (ops_performFirst ..)

theorem ops_endControl (s : Dev) (q : QueueId) (w : BitVec 256) (n : Nat) (u : List PendingSignal) :
    (s.endControl q w n u).cmd.ops = s.cmd.ops := by
  unfold endControl
  dsimp only
  have hcease (d : Dev) : (if iStop w then d.cease q 0x11 false else d).cmd.ops = d.cmd.ops := by
    split
    · exact ops_cease ..
    · rfl
  have hsignals (d : Dev) (l : List PendingSignal) :
      (if (s.queue q).signals.isEmpty then l.foldl (fun s _ => s.performFirst q) d else d).cmd.ops = d.cmd.ops := by
    split
    · exact ops_foldl_performFirst ..
    · rfl
  rw [hcease, hsignals, ops_moveHead, ops_setQueue]

/-- A head moves on in a queue that goes on: within its buffer, or past its end outside a loop and a skip (R112, R150; log entry 80). -/
theorem state_moveHead (n : Nat) (h : (s.queue q).pastEnd n = false ∨ ((s.queue q).loops = [] ∧ (s.queue q).skipDepth = none)) :
    ((s.moveHead q n).queue q).state = (s.queue q).state := by
  rcases h with h | ⟨hl, hk⟩
  · rw [moveHead_within _ _ _ h, queue_setHead]
  · unfold moveHead
    dsimp only
    rw [queue_setHead]
    dsimp only
    rw [hl, hk]
    split
    · rw [if_neg (by simp), queue_nextBuffer, queue_setHead]
    · rw [queue_setHead]

/-- A buffer that ends inside a loop or a skip stops its queue (R150; log entry 80). -/
theorem stopsWith_moveHead_of_open (n : Nat) (hr : (s.queue q).state = .running)
    (hl : (s.queue q).loops ≠ [] ∨ (s.queue q).skipDepth ≠ none) (hp : (s.queue q).pastEnd n = true) : (s.moveHead q n).stopsWith q 0x0B := by
  have hopen : ((s.queue q).loops ≠ [] || (s.queue q).skipDepth.isSome) = true := by
    simpa [Option.isSome_iff_ne_none] using hl
  have hmove : s.moveHead q n = ((s.setHead q n).nextBuffer q).cease q 0xB false := by
    unfold Queue.pastEnd at hp
    unfold moveHead
    dsimp only
    rw [queue_setHead]
    dsimp only
    rw [if_pos hp, if_pos hopen]
  rw [hmove]
  exact stopsWith_cease _ q 0xB false (by rw [queue_nextBuffer, queue_setHead]; exact hr)

/-- Performing signals leaves the state of a queue whose next instruction is not read. -/
theorem state_foldl_performFirst {α : Type} (l : List α) (hf : (s.queue q).fetched = none) :
    ((l.foldl (fun d _ => d.performFirst q) s).queue q).state = (s.queue q).state := by
  induction l generalizing s with
  | nil => rfl
  | cons a l ih =>
    obtain ⟨l', hl⟩ := s.queue_performFirst q hf
    exact (ih (by rw [hl]; exact hf)).trans (by rw [hl])

/-- The state that a control instruction leaves before its stop bit is looked at. -/
def moveOn (s : Dev) (q : QueueId) (w : BitVec 256) (n : Nat) (u : List PendingSignal) : Dev :=
  let more := u ++ signalOf w (s.queue q).issued.toNat true
  let t := (s.setQueue q { s.queue q with signals := (s.queue q).signals ++ more }).moveHead q n
  if (s.queue q).signals.isEmpty then more.foldl (fun s _ => s.performFirst q) t else t

theorem endControl_eq (s : Dev) (q : QueueId) (w : BitVec 256) (n : Nat) (u : List PendingSignal) :
    s.endControl q w n u = if iStop w then (s.moveOn q w n u).cease q 0x11 false else s.moveOn q w n u := rfl

theorem state_moveOn (w : BitVec 256) (n : Nat) (u : List PendingSignal)
    (h : (s.queue q).pastEnd n = false ∨ ((s.queue q).loops = [] ∧ (s.queue q).skipDepth = none)) :
    ((s.moveOn q w n u).queue q).state = (s.queue q).state := by
  unfold moveOn
  dsimp only
  generalize hx : ({ s.queue q with signals := (s.queue q).signals ++ (u ++ signalOf w (s.queue q).issued.toNat true) } : Queue) = x
  have hmoved : (((s.setQueue q x).moveHead q n).queue q).state = (s.queue q).state := by
    rw [state_moveHead n (by rw [queue_setQueue_same, ← hx]; exact h), queue_setQueue_same, ← hx]
  split
  · rw [state_foldl_performFirst _ ((s.setQueue q x).moveHead_follows q n).unfetched, hmoved]
  · exact hmoved

theorem stopsWith_moveOn (w : BitVec 256) (n : Nat) (u : List PendingSignal) (hr : (s.queue q).state = .running)
    (hl : (s.queue q).loops ≠ [] ∨ (s.queue q).skipDepth ≠ none) (hp : (s.queue q).pastEnd n = true) : (s.moveOn q w n u).stopsWith q 0x0B := by
  unfold moveOn
  dsimp only
  generalize hx : ({ s.queue q with signals := (s.queue q).signals ++ (u ++ signalOf w (s.queue q).issued.toNat true) } : Queue) = x
  have hmoved : ((s.setQueue q x).moveHead q n).stopsWith q 0x0B := by
    refine stopsWith_moveHead_of_open n ?_ ?_ ?_ <;> rw [queue_setQueue_same, ← hx]
    · exact hr
    · exact hl
    · exact hp
  split
  · exact stopsWith_foldl_performFirst _ hmoved
  · exact hmoved

/-- A HALT that goes on stops its queue with reason 0x12, or with 0x11 where its stop bit is set (R137, R153; log entry 28). -/
theorem stopsWith_halt (w : BitVec 256) (n : Nat) (hr : (s.queue q).state = .running)
    (h : (s.queue q).pastEnd n = false ∨ ((s.queue q).loops = [] ∧ (s.queue q).skipDepth = none)) :
    ((s.endControl q w n []).cease q 0x12 false).stopsWith q (if iStop w then 0x11 else 0x12) := by
  have hrun := (state_moveOn w n [] h).trans hr
  rw [endControl_eq]
  split
  · exact stopsWith_cease_again (stopsWith_cease _ q 0x11 false hrun) 0x12
  · exact stopsWith_cease _ q 0x12 false hrun

/-- A HALT at the end of a buffer inside a loop or a skip stops its queue with that reason (log entry 80). -/
theorem stopsWith_halt_of_open (w : BitVec 256) (n : Nat) (hr : (s.queue q).state = .running)
    (hl : (s.queue q).loops ≠ [] ∨ (s.queue q).skipDepth ≠ none) (hp : (s.queue q).pastEnd n = true) :
    ((s.endControl q w n []).cease q 0x12 false).stopsWith q 0x0B := by
  have hstop := stopsWith_moveOn w n [] hr hl hp
  rw [endControl_eq]
  split
  · exact stopsWith_cease_again (stopsWith_cease_again hstop 0x11) 0x12
  · exact stopsWith_cease_again hstop 0x12

/-- A control instruction with its stop bit stops its queue with reason 0x11 (R137). -/
theorem stopsWith_endControl_of_stop (w : BitVec 256) (n : Nat) (u : List PendingSignal) (hr : (s.queue q).state = .running) (hstop : iStop w = true)
    (h : (s.queue q).pastEnd n = false ∨ ((s.queue q).loops = [] ∧ (s.queue q).skipDepth = none)) :
    (s.endControl q w n u).stopsWith q 0x11 := by
  rw [endControl_eq, if_pos hstop]
  exact stopsWith_cease _ q 0x11 false ((state_moveOn w n u h).trans hr)

theorem signals_moveHead (s : Dev) (q : QueueId) (n : Nat) : ((s.moveHead q n).queue q).signals = (s.queue q).signals := by
  unfold moveHead
  dsimp only
  split
  · split
    · obtain ⟨-, -, -, -, -, -, -, -, h, -⟩ := ((s.setHead q n).nextBuffer q).keepsPlace_cease q 0xB false
      rw [h, queue_nextBuffer, queue_setHead]
    · rw [queue_nextBuffer, queue_setHead]
  · rw [queue_setHead]

/-- A signal that is ready and alone in a queue with nothing running is performed (R131). -/
theorem performFirst_of_alone {g : PendingSignal} (hs : (s.queue q).signals = [g]) (hg : g.ready = true) (hr : s.running q = []) :
    ∃ d : Dev, s.performFirst q = d.performSignal g := by
  have hdue : s.dueSignal q = some g := by
    rw [dueSignal, hs, hr]
    simp [hg]
  rw [performFirst, hdue]
  exact ⟨_, rfl⟩

/-- From s to t no more has changed than the command queues and the journal. -/
def queueStep (s t : Dev) : Prop := t = { s with cmd := { s.cmd with queues := t.cmd.queues, journal := t.cmd.journal } }

theorem queueStep.trans (h1 : s.queueStep t) (h2 : t.queueStep u) : s.queueStep u := by
  unfold queueStep at *
  rw [h2, h1]

theorem queueStep_dropHead (s : Dev) (q : QueueId) : s.queueStep (s.dropHead q) := by
  unfold dropHead
  dsimp only
  split
  · split <;> rfl
  · rfl

theorem onlyQueue.queueStep (h : s.onlyQueue t q) : s.queueStep t := by
  obtain ⟨h, -⟩ := h
  rw [Dev.queueStep, h]

/-- A queue that ceases to issue changes no more than the queues and the journal (R750). -/
theorem queueStep_cease (s : Dev) (q : QueueId) (r : Nat) (f : Bool) : s.queueStep (s.cease q r f) := by
  unfold cease
  dsimp only
  split
  · exact (s.queueStep_dropHead q).trans ((onlyQueue_setQueue _ q _).trans (onlyQueue_settle _ q)).queueStep
  · exact rfl

theorem queueStep.flag (h : s.queueStep t) (d i : Nat) : t.flag d i = s.flag d i := by rw [h]; rfl
theorem queueStep.counter (h : s.queueStep t) (d i : Nat) : t.counter d i = s.counter d i := by rw [h]; rfl
theorem queueStep.pcounter (h : s.queueStep t) (i : Nat) : t.pcounter i = s.pcounter i := by rw [h]; rfl

/-- A SYNC that is alone in its queue, with nothing running, makes its update at once (R131, R153). -/
theorem endControl_sync {w : BitVec 256} {n : Nat} {g : PendingSignal} (hs : sigKind (iSignal w) = 0) (he : (s.queue q).signals = [])
    (hr : s.running q = []) (hg : g.ready = true) : ∃ d : Dev, (d.performSignal g).queueStep (s.endControl q w n [g]) := by
  have hsig (k : Nat) : signalOf w k true = [] := if_pos hs
  have hmove : s.moveOn q w n [g] = ((s.setQueue q { s.queue q with signals := [g] }).moveHead q n).performFirst q := by
    unfold moveOn
    dsimp only
    rw [hsig, he, if_pos List.isEmpty_nil, List.append_nil, List.nil_append, List.foldl_cons, List.foldl_nil]
  obtain ⟨d, hd⟩ := performFirst_of_alone (s := (s.setQueue q { s.queue q with signals := [g] }).moveHead q n) (q := q) (g := g)
    (by rw [signals_moveHead, queue_setQueue_same]) hg (by rw [running_moveHead, running_setQueue, hr])
  rw [endControl_eq, hmove, hd]
  refine ⟨d, ?_⟩
  split
  · exact queueStep_cease _ q 0x11 false
  · rfl

end Dev

/-- The update of a SYNC as it waits to be made (R131, R153). -/
def syncUpdate (x : Queue) (w : BitVec 256) : PendingSignal :=
  { kind := iParam w, die := (x.handles w).getD 0 0, index := (x.handles w).getD 1 0,
    add := (x.handles w).getD 2 0 + (x.handles w).getD 3 0 * 65536, afterOrdinal := x.issued.toNat, ready := true, sync := true }

section
variable {w : BitVec 256} {x : Queue}

theorem Dev.flag_syncUpdate_set (d : Dev) (hp : iParam w = 0) :
    (d.performSignal (syncUpdate x w)).flag ((x.handles w).getD 0 0) ((x.handles w).getD 1 0) = true := by
  simp only [Dev.performSignal, syncUpdate, hp, if_true, Dev.flag_updateFlag]

theorem Dev.flag_syncUpdate_clear (d : Dev) (hp : iParam w = 1) :
    (d.performSignal (syncUpdate x w)).flag ((x.handles w).getD 0 0) ((x.handles w).getD 1 0) = false := by
  simp only [Dev.performSignal, syncUpdate, hp, if_true, Dev.flag_updateFlag]

theorem Dev.counter_syncUpdate (d : Dev) (hp : iParam w = 2) :
    (d.performSignal (syncUpdate x w)).counter ((x.handles w).getD 0 0) ((x.handles w).getD 1 0)
      = BitVec.ofNat 32 ((x.handles w).getD 2 0 + (x.handles w).getD 3 0 * 65536) := by
  simp only [Dev.performSignal, syncUpdate, hp, if_true, Dev.counter_updateCounter_same]

theorem Dev.pcounter_syncUpdate (d : Dev) (hp : iParam w = 3) :
    (d.performSignal (syncUpdate x w)).pcounter ((x.handles w).getD 1 0)
      = BitVec.ofNat 32 ((x.handles w).getD 2 0 + (x.handles w).getD 3 0 * 65536) := by
  simp only [Dev.performSignal, syncUpdate, hp, if_true, Dev.pcounter_updatePcounter_same]

end

/-! The control instructions that are ready at the head of their queue (R120, R147 to R153). -/

section
variable {s : State} {q : QueueId} {w : BitVec 256} (h : s.headReady q w)
include h

theorem exec_endloop_again (hc : iOpcode w = 2) {l : LoopLevel} {rest : List LoopLevel} (hl : (s.queue q).loops = l :: rest)
    (hi : l.index + 1 < l.count) : exec (.endloop q) s = .next { s with toDev :=
      (((s.latch q).modQueue q fun x => { x with loops := { l with index := l.index + 1 } :: rest }).endControl q w l.body []) } := by
  simp only [exec_endloop, execEndloop, State.run, Dev.control_of_headReady h hc, hl, if_pos hi]

theorem exec_endloop_last (hc : iOpcode w = 2) {l : LoopLevel} {rest : List LoopLevel} (hl : (s.queue q).loops = l :: rest)
    (hi : l.count ≤ l.index + 1) : exec (.endloop q) s = .next { s with toDev :=
      (((s.latch q).modQueue q fun x => { x with loops := rest }).endControl q w ((s.queue q).head.toNat + 1) []) } := by
  simp only [exec_endloop, execEndloop, State.run, Dev.control_of_headReady h hc, hl, if_neg (Nat.not_lt.mpr hi)]

theorem exec_brk_leaves (hc : iOpcode w = 3) {l : LoopLevel} {rest : List LoopLevel} (hl : (s.queue q).loops = l :: rest)
    (hb : bit (iParam w) 0 = false ∨ (s.queue q).brkLatch = true) : exec (.brk q) s = .next { s with toDev :=
      (((s.latch q).modQueue q fun x => { x with loops := rest, skipDepth := some 0 }).endControl q w ((s.queue q).head.toNat + 1) []) } := by
  have hb' : (!bit (iParam w) 0 || (s.queue q).brkLatch) = true := by rcases hb with hb | hb <;> simp [hb]
  simp only [exec_brk, execBrk, State.run, Dev.control_of_headReady h hc, hl, if_pos hb']

theorem exec_brk_stays (hc : iOpcode w = 3) {l : LoopLevel} {rest : List LoopLevel} (hl : (s.queue q).loops = l :: rest)
    (hb : bit (iParam w) 0 = true) (hlatch : (s.queue q).brkLatch = false) :
    exec (.brk q) s = .next { s with toDev := (s.latch q).endControl q w ((s.queue q).head.toNat + 1) [] } := by
  have hb' : ¬(!bit (iParam w) 0 || (s.queue q).brkLatch) = true := by simp [hb, hlatch]
  simp only [exec_brk, execBrk, State.run, Dev.control_of_headReady h hc, hl, if_neg hb']

theorem exec_phase_of_ready (hc : iOpcode w = 4) : exec (.phase q) s = .next { s with toDev :=
    (((s.latch q).modQueue q fun x => { x with phase := BitVec.ofNat 4 (iParam w) }).endControl q w ((s.queue q).head.toNat + 1) []) } :=
  exec_eq_next rfl (Dev.control_of_headReady h hc _)

theorem exec_settime_of_ready (hc : iOpcode w = 5) : exec (.settime q) s = .next { s with toDev :=
    (((s.latch q).modQueue q fun x =>
      { x with tref := if iParam w = 0 then s.now else BitVec.ofNat 64 (absoluteTime ((s.queue q).handles w)) }).endControl
        q w ((s.queue q).head.toNat + 1) []) } :=
  exec_eq_next rfl (Dev.control_of_headReady h hc _)

theorem exec_sync_of_ready (hc : iOpcode w = 6) : exec (.sync q) s = .next { s with toDev :=
    ((s.latch q).endControl q w ((s.queue q).head.toNat + 1) [syncUpdate (s.queue q) w]) } :=
  exec_eq_next rfl (Dev.control_of_headReady h hc _)

theorem exec_halt_of_ready (hc : iOpcode w = 7) : exec (.halt q) s = .next { s with toDev :=
    (((s.latch q).endControl q w ((s.queue q).head.toNat + 1) []).cease q 0x12 false) } :=
  exec_eq_next rfl (Dev.control_of_headReady h hc _)

end

/-- What a control instruction leaves that has changed no more than its queue's course: without a signal and within its buffer its queue
alone is changed. -/
theorem exec_control_leaves {s : State} {q : QueueId} {w : BitVec 256} {c : Instr} {d : Dev} {n : Nat} {y : Queue}
    (hc : exec c s = .next { s with toDev := d.endControl q w n [] }) (hd : s.toDev.onlyQueue d q) (hq : d.queue q = y)
    (hcur : y.cur = (s.queue q).cur) :
    ∃ t, exec c s = .next t ∧ (t.queue q).follows (y.headAt n)
      ∧ (sigKind (iSignal w) = 0 → (s.queue q).pastEnd n = false → s.onlyQueue t q) ∧ t.cmd.ops = s.cmd.ops ∧ s.sameBeyond t := by
  refine ⟨_, hc, ?_, fun hs hp => ?_, ?_, rfl, rfl, rfl, rfl⟩
  · rw [← hq]
    exact d.endControl_follows ..
  · have hpast : (d.queue q).pastEnd n = false := by rwa [hq, Queue.pastEnd, hcur]
    obtain ⟨hrest, hother⟩ := hd.trans (d.onlyQueue_endControl q w n hs hpast).1
    exact ⟨by dsimp only; rw [hrest], hother⟩
  · dsimp only
    rw [d.ops_endControl]
    rw [hd.1]

/-- Settles O6: every control instruction is one `endControl`, whose course is `endControl_follows` and whose frame is
`exec_control_leaves`. That a HALT with its stop bit has reason 0x11 is log entry 28, and that one at the end of a buffer inside an open loop
or skip stops with 0x0B is log entry 80. -/
theorem controlInstructions : Obligations.ControlInstructions := by
  unfold Obligations.ControlInstructions
  intro q s w h x hs n frame
  have hlatch := s.queue_latch_of_headReady h
  have honly : s.toDev.onlyQueue (s.latch q) q := s.onlyQueue_modQueue q _
  have hmod (f : Queue → Queue) : s.toDev.onlyQueue ((s.latch q).modQueue q f) q := honly.trans (Dev.onlyQueue_modQueue _ q f)
  have hqmod (f : Queue → Queue) : ((s.latch q).modQueue q f).queue q = f x := by rw [Dev.queue_modQueue_same, hlatch]
  have hrun : (s.latch q).queue q = x := hlatch
  refine ⟨fun hc => ?_, fun hc l rest hl => ⟨fun hi => ?_, fun hi => ?_⟩, fun hc l rest hl => ?_, fun hc => ?_, fun hc => ?_, fun hc => ?_,
    fun hc => ?_, fun hc hstop hp => ?_⟩
  · exact exec_control_leaves (exec_nop_of_ready h hc) honly hlatch rfl
  · obtain ⟨t, ht, hf, hframe⟩ := exec_control_leaves (exec_endloop_again h hc hl hi) (hmod _) (hqmod _) rfl
    exact ⟨t, ht, hframe, hf⟩
  · obtain ⟨t, ht, hf, hframe⟩ := exec_control_leaves (exec_endloop_last h hc hl hi) (hmod _) (hqmod _) rfl
    exact ⟨t, ht, hframe, hf⟩
  · by_cases hb : bit (iParam w) 0 = false ∨ x.brkLatch = true
    · obtain ⟨t, ht, hf, hframe⟩ := exec_control_leaves (exec_brk_leaves h hc hl hb) (hmod _) (hqmod _) rfl
      exact ⟨t, ht, hframe, fun _ => hf, fun h1 h2 => by simp [h1, h2] at hb⟩
    · obtain ⟨hb1, hb2⟩ := not_or.mp hb
      obtain ⟨t, ht, hf, hframe⟩ := exec_control_leaves (exec_brk_stays h hc hl (by simpa using hb1) (by simpa using hb2)) honly hlatch rfl
      exact ⟨t, ht, hframe, fun hb' => absurd hb' hb, fun _ _ => hf⟩
  · exact exec_control_leaves (exec_phase_of_ready h hc) (hmod _) (hqmod _) rfl
  · obtain ⟨t, ht, hf, hframe⟩ := exec_control_leaves (exec_settime_of_ready h hc) (hmod _) (hqmod _) rfl
    refine ⟨t, ht, hframe, fun hp => ?_, fun hp => ?_⟩
    · rwa [if_pos hp] at hf
    · rwa [if_neg (by omega)] at hf
  · refine ⟨_, exec_sync_of_ready h hc, ?_, ?_, fun hsig he hr => ?_⟩
    · have hf := (s.latch q).endControl_follows q w n [syncUpdate x w]
      rwa [hlatch] at hf
    · exact (Dev.ops_endControl ..).trans rfl
    · obtain ⟨d, hd⟩ := Dev.endControl_sync (s := s.latch q) (q := q) (n := n) (g := syncUpdate x w) hsig (by rw [hlatch]; exact he) hr rfl
      refine ⟨fun hp => ?_, fun hp => ?_, fun hp => ?_, fun hp => ?_⟩
      · exact (hd.flag ..).trans (d.flag_syncUpdate_set hp)
      · exact (hd.flag ..).trans (d.flag_syncUpdate_clear hp)
      · exact (hd.counter ..).trans (d.counter_syncUpdate hp)
      · exact (hd.pcounter ..).trans (d.pcounter_syncUpdate hp)
  · refine ⟨_, exec_halt_of_ready h hc, ?_, ?_, fun hp => ?_, fun hp hl => ?_⟩
    · refine ⟨fun hsig hp => ?_, ?_, rfl, rfl, rfl, rfl⟩
      · obtain ⟨hend, hslot⟩ := (s.latch q).onlyQueue_endControl q w n hsig (by rw [hlatch]; exact hp)
        obtain ⟨hrest, hother⟩ := (honly.trans hend).trans (Dev.onlyQueue_cease hslot 0x12 false)
        exact ⟨by dsimp only; rw [hrest], hother⟩
      · exact (Dev.ops_cease ..).trans (Dev.ops_endControl ..)
    · obtain ⟨hhead, -⟩ := ((s.latch q).endControl q w n []).keepsPlace_cease q 0x12 false
      obtain ⟨hfol, -⟩ := (s.latch q).endControl_follows q w n []
      rw [hlatch] at hfol
      exact hhead.trans hfol
    · exact Dev.stopsWith_halt w n (by rw [hlatch]; exact h.1) (by rw [hlatch]; exact hp)
    · exact Dev.stopsWith_halt_of_open w n (by rw [hlatch]; exact h.1) (by rw [hlatch]; exact hl) (by rw [hlatch]; exact hp)
  · exact ⟨_, exec_nop_of_ready h hc, Dev.stopsWith_endControl_of_stop w n [] (by rw [hlatch]; exact h.1) hstop (by rw [hlatch]; exact hp)⟩
end Sys2Proof.Machine
end

section
/-! PROOFS. Proofs/Issue.lean: a slot is asked for, an operation issues, and the mills are fed (O8). -/

namespace Sys2Proof.Machine

/-- A table that is written lists at every other key what it listed. -/
theorem Table.filter_set {α : Type} [DecidableEq α] (d : α) (t : Table α) (k : Nat) (v : α) :
    (Table.set d t k v).filter (fun e => decide (e.1 ≠ k)) = t.filter fun e => decide (e.1 ≠ k) := by
  unfold Table.set
  split
  · rw [Table.erase, List.filter_filter]
    exact List.filter_congr fun e _ => by simp
  · induction t with
    | nil => simp [Table.put]
    | cons a t ih =>
      obtain ⟨k', v'⟩ := a
      unfold Table.put
      split
      · simp
      · split
        · next hk => simp [hk]
        · rw [List.filter_cons, List.filter_cons, ih]

/-- An operation without its body: what feeding the mills leaves as it is. -/
def Operation.unbodied (o : Operation) : Operation := { o with body := .none }

theorem Operation.eq_of_unbodied (o : Operation) {o' : Operation} (h : o.unbodied = o'.unbodied) : o = { o' with body := o.body } :=
  congrArg (fun x : Operation => { x with body := o.body }) h

namespace Dev

/-! An instruction at head asks for a journal slot (R124, R172). -/

/-- From s to t no more has changed than the journal and one queue. -/
structure headStep (s t : Dev) (q : QueueId) : Prop where
  rest : t = { s with cmd := { s.cmd with queues := t.cmd.queues, journal := t.cmd.journal } }
  other : ∀ q2, q2 ≠ q → t.queue q2 = s.queue q2
  listed : t.cmd.queues.filter (fun e => decide (e.1 ≠ q.val)) = s.cmd.queues.filter fun e => decide (e.1 ≠ q.val)

section
variable {s t u : Dev} {q : QueueId} {w : BitVec 256} {slot : SlotId}

theorem headStep.refl (s : Dev) (q : QueueId) : s.headStep s q := ⟨rfl, fun _ _ => rfl, rfl⟩

theorem headStep.trans (h1 : s.headStep t q) (h2 : t.headStep u q) : s.headStep u q :=
  ⟨by rw [h2.rest, h1.rest], fun k hk => (h2.other k hk).trans (h1.other k hk), h2.listed.trans h1.listed⟩

theorem headStep.ops (h : s.headStep t q) : t.cmd.ops = s.cmd.ops := by rw [h.rest]

theorem headStep.running (h : s.headStep t q) (k : QueueId) : t.running k = s.running k := by rw [Dev.running, h.ops]; rfl

theorem headStep_modJournal (s : Dev) (q : QueueId) (f : Journal → Journal) : s.headStep (s.modJournal f) q :=
  ⟨rfl, fun _ _ => rfl, rfl⟩

theorem headStep_setQueue (s : Dev) (q : QueueId) (x : Queue) : s.headStep (s.setQueue q x) q :=
  ⟨rfl, fun _ h => (s.queue_setQueue ..).trans (if_neg h), Table.filter_set ..⟩

theorem headStep_modQueue (s : Dev) (q : QueueId) (f : Queue → Queue) : s.headStep (s.modQueue q f) q := s.headStep_setQueue ..

theorem headStep_giveSlot (s : Dev) (q : QueueId) (slot : SlotId) : s.headStep (s.giveSlot q slot) q := by
  unfold giveSlot
  dsimp only
  split
  · exact .refl s q
  · exact (s.headStep_modJournal q _).trans (headStep_setQueue ..)

theorem headStep_askSlot (s : Dev) (q : QueueId) : s.headStep (s.askSlot q) q := by
  unfold askSlot
  split
  · exact .refl s q
  · split
    · exact (s.headStep_giveSlot q _).trans (headStep_modJournal ..)
    · split
      · exact .refl s q
      · exact (s.headStep_modJournal q _).trans (headStep_modQueue ..)

theorem slotFor_of_unslotted (h : (s.queue q).slot = none) : s.slotFor q
    = if (s.slotAhead q).length < s.cmd.journal.freeSlots then lowestFree s.cmd.journal.allocated 4096 0 else none := by
  rw [slotFor, h]

theorem slotFor_of_slotted (h : (s.queue q).slot = some slot) : s.slotFor q = some slot := by
  rw [slotFor, h]

/-- What a queue asks for does not turn on the rest of its own control block (R172). -/
theorem headStep.slotFor (h : s.headStep t q) (hj : t.cmd.journal = s.cmd.journal) (hslot : (t.queue q).slot = (s.queue q).slot)
    (hwait : (t.queue q).slotWait = (s.queue q).slotWait) : t.slotFor q = s.slotFor q := by
  have hahead : t.slotAhead q = s.slotAhead q := by
    have hsplit (d : Dev) (p : Nat × Queue → Bool) : d.cmd.queues.filter (fun e => decide (e.1 ≠ q.val) && p e)
        = (d.cmd.queues.filter fun e => decide (e.1 ≠ q.val)).filter p := by
      rw [List.filter_filter]
      exact List.filter_congr fun e _ => Bool.and_comm ..
    unfold slotAhead
    dsimp only
    rw [hwait, hj]
    simp only [Bool.and_assoc, hsplit, h.listed]
  unfold Dev.slotFor
  rw [hslot, hahead, hj]

theorem headStep_latch (s : Dev) (q : QueueId) : s.headStep (s.latch q) q := s.headStep_modQueue ..

theorem slotFor_latch (h : s.headReady q w) : (s.latch q).slotFor q = s.slotFor q :=
  (s.headStep_latch q).slotFor rfl (by rw [s.queue_latch_of_headReady h]) (by rw [s.queue_latch_of_headReady h])

/-- An instruction at head that has a slot, or is given one, stands at head with it (R172; log entry 27). -/
theorem queue_askSlot_of_some (hw : (s.queue q).fetched = some w) (h : s.slotFor q = some slot) :
    ∃ b, (s.askSlot q).queue q = { s.queue q with slot := some slot, slotWait := b } := by
  unfold askSlot
  cases hslot : (s.queue q).slot with
  | some k =>
    obtain rfl : k = slot := Option.some.inj ((slotFor_of_slotted hslot).symm.trans h)
    exact ⟨(s.queue q).slotWait, by rw [if_pos (Option.isSome_some ..), ← hslot]⟩
  | none =>
    rw [slotFor_of_unslotted hslot] at h
    have hroom : (s.slotAhead q).length < s.cmd.journal.freeSlots := by
      by_contra hno
      rw [if_neg hno] at h
      exact absurd h nofun
    rw [if_pos hroom] at h
    refine ⟨false, ?_⟩
    rw [if_neg (by simp), h, decide_eq_true hroom]
    exact (congrArg (fun d : Dev => d.queue q) (giveSlot_of_fetched hw slot)).trans (queue_setQueue_same ..)

/-- An instruction at head that is given no slot waits for one (R172). -/
theorem queue_askSlot_of_none (h : s.slotFor q = none) :
    (s.queue q).slot = none ∧ (s.askSlot q).queue q = { s.queue q with slotWait := true } := by
  unfold askSlot
  cases hslot : (s.queue q).slot with
  | some k => exact absurd ((slotFor_of_slotted hslot).symm.trans h) nofun
  | none =>
    rw [slotFor_of_unslotted hslot] at h
    refine ⟨rfl, ?_⟩
    rw [if_neg (by simp)]
    split
    · next hlow hroom =>
      rw [if_pos (of_decide_eq_true hroom), hlow] at h
      exact absurd h nofun
    · split
      · next hwait =>
        rw [← hwait]
      · exact queue_modQueue_same ..

theorem stopsWith.drains {r : Byte} (h : s.stopsWith q r) (hr : s.running q ≠ []) : (s.queue q).state = .draining := by
  unfold stopsWith at h
  rw [if_neg hr] at h
  obtain ⟨-, -, hstate, -⟩ := h
  exact hstate

/-! An operation issues (R105, R112, R135). -/

section
variable (s : Dev) (q : QueueId) (o : Operation)

/-- The state in which an operation has been listed and counted, its queue's head not yet moved on. -/
def listed : Dev :=
  let t := s.modJournal fun j => { j with
    entries := Table.set none j.entries o.slot.val ((Table.get none j.entries o.slot.val).map fun e => { e with job := s.jobOf q }) }
  let t := { t with cmd := { t.cmd with
    ops := t.cmd.ops ++ [o], jobs := Table.set [] t.cmd.jobs o.slot.val (t.jobOf q :: Table.get [] t.cmd.jobs o.slot.val) } }
  t.setQueue q { s.queue q with issued := (s.queue q).issued + 1, signals := (s.queue q).signals ++ pendingOf o.word o.ordinal }

theorem queue_listed : (s.listed q o).queue q
    = { s.queue q with issued := (s.queue q).issued + 1, signals := (s.queue q).signals ++ pendingOf o.word o.ordinal } :=
  queue_setQueue_same ..

theorem ops_listed : (s.listed q o).cmd.ops = s.cmd.ops ++ [o] := rfl

/-- The state in which an operation has issued, but for what its end and stop_after make of its queue. -/
def moved : Dev := (s.listed q o).moveHead q ((s.queue q).head.toNat + 1)

theorem issueAs_eq : s.issueAs q o =
    (let t := if o.status ≠ 0 then (s.moved q o).cease q o.reason false else s.moved q o
     if (s.queue q).stopAfter ≠ 0 && (s.queue q).issued + 1 = (s.queue q).stopAfter then t.cease q 0x10 false else t) := rfl

theorem ops_issueAs : (s.issueAs q o).cmd.ops = s.cmd.ops ++ [o] := by
  have hmoved : (s.moved q o).cmd.ops = s.cmd.ops ++ [o] := by rw [moved, ops_moveHead, ops_listed]
  rw [issueAs_eq]
  dsimp only
  split_ifs <;> simp only [ops_cease, hmoved]

theorem mem_issueAs : o ∈ (s.issueAs q o).cmd.ops := by
  rw [ops_issueAs]
  exact List.mem_append_right _ (List.mem_singleton_self o)

/-- A queue that has issued goes on, or ceases to issue, at the place where its head has moved to. -/
theorem keepsPlace_issueAs : keepsPlace ((s.moved q o).queue q) ((s.issueAs q o).queue q) := by
  rw [issueAs_eq]
  dsimp only
  split_ifs
  · exact keepsPlace_trans (keepsPlace_cease ..) (keepsPlace_cease ..)
  · exact keepsPlace_cease ..
  · exact keepsPlace_cease ..
  · exact keepsPlace_refl _

theorem follows_moved :
    ((s.moved q o).queue q).follows ({ s.queue q with issued := (s.queue q).issued + 1 }.headAt ((s.queue q).head.toNat + 1)) := by
  have h := (s.listed q o).moveHead_follows q ((s.queue q).head.toNat + 1)
  rw [queue_listed] at h
  unfold Queue.headAt Queue.pastEnd at h ⊢
  dsimp only at h ⊢
  split_ifs at h ⊢ <;> exact h

theorem issued_issueAs : ((s.issueAs q o).queue q).issued = (s.queue q).issued + 1 := by
  obtain ⟨-, -, -, -, hissued, -⟩ := s.keepsPlace_issueAs q o
  obtain ⟨-, -, -, -, hmoved, -⟩ := s.follows_moved q o
  rw [hissued, hmoved]
  unfold Queue.headAt
  split <;> rfl

theorem head_issueAs : ((s.issueAs q o).queue q).head = ((s.queue q).headAt ((s.queue q).head.toNat + 1)).head := by
  obtain ⟨hhead, -⟩ := s.keepsPlace_issueAs q o
  obtain ⟨hmoved, -⟩ := s.follows_moved q o
  rw [hhead, hmoved]
  unfold Queue.headAt Queue.pastEnd
  dsimp only
  split <;> rfl

theorem unfetched_issueAs : ((s.issueAs q o).queue q).fetched = none := by
  have hmoved := (s.follows_moved q o).unfetched
  rw [issueAs_eq]
  dsimp only
  split_ifs
  · exact unfetched_cease _ q 0x10 false (unfetched_cease _ q _ false hmoved)
  · exact unfetched_cease _ q 0x10 false hmoved
  · exact unfetched_cease _ q _ false hmoved
  · exact hmoved

/-- An operation that issues within its buffer leaves its queue running, or draining where it is the one of stop_after (R135). -/
theorem state_issueAs (ho : o.queue = q) (hst : o.status = 0) (hr : (s.queue q).state = .running)
    (hp : (s.queue q).pastEnd ((s.queue q).head.toNat + 1) = false) : ((s.issueAs q o).queue q).state
      = if (s.queue q).stopAfter ≠ 0 ∧ (s.queue q).stopAfter = (s.queue q).issued + 1 then .draining else .running := by
  have hmoved : ((s.moved q o).queue q).state = .running := by
    rw [moved, state_moveHead _ (Or.inl (by rw [queue_listed]; exact hp)), queue_listed, hr]
  have hrunning : (s.moved q o).running q ≠ [] := by
    rw [moved, running_moveHead, running, ops_listed]
    exact List.ne_nil_of_mem (List.mem_filter.mpr ⟨List.mem_append_right _ (List.mem_singleton_self o), by simpa using ho⟩)
  have htest : ((s.queue q).stopAfter ≠ 0 && (s.queue q).issued + 1 = (s.queue q).stopAfter) = true
      ↔ (s.queue q).stopAfter ≠ 0 ∧ (s.queue q).stopAfter = (s.queue q).issued + 1 := by
    rw [Bool.and_eq_true, decide_eq_true_eq, decide_eq_true_eq, eq_comm (a := (s.queue q).issued + 1)]
  rw [issueAs_eq, if_neg (not_not_intro hst)]
  dsimp only
  by_cases hstop : (s.queue q).stopAfter ≠ 0 ∧ (s.queue q).stopAfter = (s.queue q).issued + 1
  · rw [if_pos (htest.mpr hstop), if_pos hstop]
    exact ((s.moved q o).stopsWith_cease q 0x10 false hmoved).drains (by rwa [running_cease])
  · rw [if_neg hstop, if_neg (mt htest.mp hstop)]
    exact hmoved

end

/-! What accepts an operation (R124, R334). -/

theorem headStep.unit (h : s.headStep t q) (hu : (t.queue q).unit = (s.queue q).unit) (k : QueueId) : (t.queue k).unit = (s.queue k).unit := by
  by_cases hk : k = q
  · rw [hk, hu]
  · rw [h.other k hk]

theorem headStep.millWaiters (h : s.headStep t q) (hu : (t.queue q).unit = (s.queue q).unit) (m : MillId) : t.millWaiters m = s.millWaiters m := by
  have hmill : t.mill m = s.mill m := by rw [h.rest]; rfl
  unfold Dev.millWaiters
  simp only [opMills, h.unit hu, h.ops, hmill]

theorem headStep.millFree (h : s.headStep t q) (m : MillId) : t.millFree m = s.millFree m := by
  have hmill : t.mill m = s.mill m := by rw [h.rest]; rfl
  have hop (k : SlotId) : t.op k = s.op k := by rw [h.rest]; rfl
  unfold Dev.millFree
  simp only [hmill, hop]

/-- A queue whose turn it is at a mill keeps it when it asks for its slot (R334). -/
theorem headStep.millTurn (h : s.headStep t q) (hu : (t.queue q).unit = (s.queue q).unit) (m : MillId) (ht : s.millTurn m q = true) :
    t.millTurn m q = true := by
  have hmill : t.mill m = s.mill m := by rw [h.rest]; rfl
  have hwaits := h.millWaiters hu m
  unfold Dev.millTurn queuesAt at ht ⊢
  rw [hmill, hwaits]
  dsimp only at ht ⊢
  rw [List.all_append, Bool.and_eq_true] at ht ⊢
  obtain ⟨hissued, hheads⟩ := ht
  refine ⟨hissued, List.all_eq_true.mpr fun k hk => ?_⟩
  obtain ⟨e, he, hek⟩ := List.mem_filterMap.mp hk
  by_cases heq : e.1 = q.val
  · have hkq : k = q.val := by
      split at hek
      · split at hek
        · exact (Option.some.inj hek).symm.trans heq
        · exact absurd hek nofun
      · exact absurd hek nofun
    rw [hkq]
    exact decide_eq_true (le_refl _)
  · have hmem : e ∈ s.cmd.queues := by
      have hin : e ∈ t.cmd.queues.filter fun e => decide (e.1 ≠ q.val) := List.mem_filter.mpr ⟨he, decide_eq_true heq⟩
      rw [h.listed] at hin
      exact (List.mem_filter.mp hin).1
    exact List.all_eq_true.mp hheads k (List.mem_filterMap.mpr ⟨e, hmem, hek⟩)

theorem headStep.millAccepts (h : s.headStep t q) (hu : (t.queue q).unit = (s.queue q).unit) (ha : Dev.millAccepts q s = true) :
    Dev.millAccepts q t = true := by
  unfold Dev.millAccepts at ha ⊢
  rw [hu]
  obtain ⟨n, hn, hany⟩ := List.any_eq_true.mp ha
  refine List.any_eq_true.mpr ⟨n, hn, ?_⟩
  cases hm : millId n with
  | none => rw [hm] at hany; exact hany
  | some m =>
    rw [hm] at hany
    simp only [Option.any_some, Bool.and_eq_true] at hany ⊢
    exact ⟨(h.millFree m).trans hany.1, h.millTurn hu m hany.2⟩

/-! What feeding the mills of a die leaves of the operations and the queues (R193, R334). -/

/-- From s to t no more has changed than the mills and what mill operations have taken. -/
structure feedStep (s t : Dev) : Prop where
  rest : t = { s with cmd := { s.cmd with ops := t.cmd.ops, mills := t.cmd.mills } }
  bodies : t.cmd.ops.map Operation.unbodied = s.cmd.ops.map Operation.unbodied

theorem feedStep.refl (s : Dev) : s.feedStep s := ⟨rfl, rfl⟩

theorem feedStep.trans (h1 : s.feedStep t) (h2 : t.feedStep u) : s.feedStep u :=
  ⟨by rw [h2.rest, h1.rest], h2.bodies.trans h1.bodies⟩

theorem feedStep.ops (h : s.feedStep t) {o : Operation} (ho : o ∈ s.cmd.ops) : ∃ b, { o with body := b } ∈ t.cmd.ops := by
  have hmem := List.mem_map_of_mem (f := Operation.unbodied) ho
  rw [← h.bodies] at hmem
  obtain ⟨o', ho', heq⟩ := List.mem_map.mp hmem
  exact ⟨o'.body, by rwa [← o'.eq_of_unbodied heq]⟩

theorem feedStep.slots (h : s.feedStep t) : t.cmd.ops.map Operation.slot = s.cmd.ops.map Operation.slot := by
  have hslots := congrArg (List.map Operation.slot) h.bodies
  rwa [List.map_map, List.map_map] at hslots

theorem find?_unbodied (l : List Operation) (k : SlotId) :
    (l.map Operation.unbodied).find? (fun o => o.slot = k) = (l.find? fun o => o.slot = k).map Operation.unbodied := by
  rw [List.find?_map]
  rfl

theorem feedStep.op (h : s.feedStep t) {k : SlotId} {o : Operation} (ho : s.op k = some o) : ∃ b, t.op k = some { o with body := b } := by
  have hfind := find?_unbodied t.cmd.ops k
  rw [h.bodies, find?_unbodied] at hfind
  obtain ⟨o', ho', heq⟩ := Option.map_eq_some_iff.mp (hfind.symm.trans (congrArg (Option.map Operation.unbodied) ho))
  exact ⟨o'.body, ho'.trans (congrArg some (o'.eq_of_unbodied heq))⟩

theorem feedStep.foldl {α : Type} {f : Dev → α → Dev} (hf : ∀ (s : Dev) (a : α), s.feedStep (f s a)) (l : List α) (s : Dev) : s.feedStep (l.foldl f s) := by
  induction l generalizing s with
  | nil => exact .refl s
  | cons a l ih => exact (hf s a).trans (ih _)

theorem feedStep_modMill (s : Dev) (m : MillId) (f : Mill → Mill) : s.feedStep (s.modMill m f) := ⟨rfl, rfl⟩

theorem feedStep_acceptOp (s : Dev) (m : MillId) : s.feedStep (s.acceptOp m) := by
  unfold acceptOp
  split
  · split
    · split
      · exact feedStep_modMill ..
      · exact .refl s
    · exact .refl s
  · exact .refl s

theorem feedStep_openFills (s : Dev) (m : MillId) (fuel : Nat) : s.feedStep (s.openFills m fuel) := by
  obtain ⟨fs, k, h⟩ := s.openFills_eq m fuel
  rw [h]
  exact ⟨rfl, rfl⟩

theorem feedStep_modOp_body (s : Dev) (k : SlotId) (b : OpBody) : s.feedStep (s.modOp k fun o => { o with body := b }) := by
  refine ⟨rfl, (List.map_map ..).trans (List.map_congr_left fun o _ => ?_)⟩
  simp only [Function.comp]
  split <;> rfl

theorem feedStep_takeTile (s : Dev) (o : Operation) (x : MillOp) (group : List Nat) : s.feedStep (s.takeTile o x group) := by
  unfold takeTile
  dsimp only
  split
  · refine (feedStep_modOp_body ..).trans (.foldl (fun s g => ?_) _ _)
    split
    · exact .refl s
    · split
      · exact feedStep_modMill ..
      · split
        · exact .refl s
        · exact (feedStep_modMill ..).trans (feedStep_openFills ..)
  · exact .refl s

theorem feedStep_takeTiles (s : Dev) (k : SlotId) : s.feedStep (s.takeTiles k) := by
  unfold takeTiles
  split
  · refine .foldl (fun s g => ?_) _ _
    split
    · split
      · exact feedStep_takeTile ..
      · exact .refl s
    · exact .refl s
  · exact .refl s

theorem feedStep_feed (s : Dev) (die : Nat) : s.feedStep (s.feed die) := by
  unfold feed
  refine .trans (.foldl (fun s i => ?_) _ _) (.foldl (fun s o => feedStep_takeTiles ..) _ _)
  split
  · exact feedStep_acceptOp ..
  · exact .refl s

/-- What a ready instruction makes of its queue when it issues (R105, R112, R124). -/
theorem issueHead_of_accepted {code : Nat} (h : s.headReady q w) (hc : iOpcode w = code) (hs : s.slotFor q = some slot) {acc : Dev → Bool}
    (ha : ∀ t, s.headStep t q → (t.queue q).unit = (s.queue q).unit → acc t = true) :
    ∃ t b, s.headStep t q ∧ t.queue q = { s.queue q with slot := some slot, slotWait := b }
      ∧ s.issueHead q code acc 0 = t.issueAs q (newOperation q (s.queue q) w slot) := by
  have hlatch := s.queue_latch_of_headReady h
  have hw : ((s.latch q).queue q).fetched = some w := by
    rw [hlatch]
    exact h.2.1
  obtain ⟨b, hb⟩ := queue_askSlot_of_some hw ((slotFor_latch h).trans hs)
  have hstep := (s.headStep_latch q).trans ((s.latch q).headStep_askSlot q)
  rw [hlatch] at hb
  refine ⟨(s.latch q).askSlot q, b, hstep, hb, ?_⟩
  unfold issueHead
  dsimp only
  rw [readyHead_of_headReady s h code hc]
  dsimp only
  rw [hb, ha _ hstep (by rw [hb])]
  rfl

end

end Dev

/-! The commands that issue an operation (R120). -/

/-- How an operation of an opcode issues: it feeds the mills, needs its channel, or is accepted at once. -/
def Dev.issueBy (s : Dev) (q : QueueId) (code : Nat) : Dev :=
  if millOpcode code then s.issueMill q code else if code / 16 = 5 then s.issueService q code else s.issueFree q code

theorem exec_issueOf {c : Instr} {q : QueueId} {code : Nat} (h : issueOf c = some (q, code)) (s : State) :
    exec c s = .next { s with toDev := s.issueBy q code } := by
  unfold issueOf at h
  split at h
  all_goals
    cases h
  all_goals rfl

/-- A ready instruction that its executor accepts issues, and nothing but the mills takes part in it (R105, R112, R124). -/
theorem Dev.issueBy_of_accepted {s : Dev} {q : QueueId} {code : Nat} {w : BitVec 256} {slot : SlotId} (h : s.headReady q w) (hc : iOpcode w = code)
    (hs : s.slotFor q = some slot) (ha : s.executorAccepts q code = true) :
    ∃ t b, s.headStep t q ∧ t.queue q = { s.queue q with slot := some slot, slotWait := b }
      ∧ (t.issueAs q (newOperation q (s.queue q) w slot)).feedStep (s.issueBy q code) := by
  unfold issueBy
  unfold executorAccepts at ha
  by_cases hm : millOpcode code = true
  · rw [if_pos hm] at ha
    obtain ⟨t, b, hstep, hq, hissue⟩ := issueHead_of_accepted h hc hs (acc := Dev.millAccepts q) fun t ht hu => ht.millAccepts hu ha
    refine ⟨t, b, hstep, hq, ?_⟩
    rw [if_pos hm, issueMill, hissue]
    split
    · exact feedStep_feed ..
    · exact .refl _
  · rw [if_neg hm] at ha ⊢
    obtain ⟨t, b, hstep, hq, hissue⟩ := issueHead_of_accepted h hc hs (acc := fun _ => true) fun _ _ _ => rfl
    refine ⟨t, b, hstep, hq, ?_⟩
    by_cases h5 : code / 16 = 5
    · rw [if_pos h5] at ha ⊢
      rw [issueService, if_pos ha, hissue]
      exact .refl _
    · rw [if_neg h5, issueFree, hissue]
      exact .refl _

/-- Settles O8: the instruction is given its slot (`queue_askSlot_of_some`), its operation is listed and the head moves on (`issueAs`), and the
mills that are fed change no queue. The slot that is given is `slotFor`'s choice (log entry 27). -/
theorem issueTakesOrdinal : Obligations.IssueTakesOrdinal := by
  unfold Obligations.IssueTakesOrdinal
  intro c q code w slot s hof hc h hs ha x n
  obtain ⟨t, b, hstep, hq, hfeed⟩ := Dev.issueBy_of_accepted h hc hs ha
  refine ⟨_, exec_issueOf hof s, ?_⟩
  generalize ho : newOperation q (s.queue q) w slot = o at hfeed
  have hqueue : (s.toDev.issueBy q code).queue q = (t.issueAs q o).queue q := by rw [hfeed.rest]; rfl
  dsimp only
  rw [hqueue, t.issued_issueAs, t.head_issueAs, t.unfetched_issueAs, hq]
  refine ⟨rfl, ?_, rfl, ⟨rfl, rfl, rfl, rfl⟩, fun hp => ?_, ?_⟩
  · unfold Queue.headAt Queue.pastEnd
    dsimp only
    split <;> rfl
  · rw [t.state_issueAs q o (by rw [← ho]; rfl) (by rw [← ho]; rfl) (by rw [hq]; exact h.1) (by rw [hq]; exact hp), hq]
  · obtain ⟨body, hbody⟩ := hfeed.ops (t.mem_issueAs q o)
    refine ⟨_, hbody, ?_⟩
    rw [← ho]
    exact ⟨rfl, rfl, rfl, rfl, rfl, rfl, rfl, rfl⟩

end Sys2Proof.Machine
end

section
/-! PROOFS. Proofs/InstructionFetch.lean: what a fetch of the instruction at head does (O9). -/

namespace Sys2Proof.Machine

namespace Dev

section
variable {s t : Dev} {q : QueueId} {w : BitVec 256} {slot : SlotId}

/-! A journal-consuming instruction ends without being performed (R135). -/

theorem newOperation_slotted (q : QueueId) (x : Queue) (w : BitVec 256) (slot : SlotId) (b : Bool) :
    newOperation q { x with slot := some slot, slotWait := b } w slot = newOperation q x w slot := rfl

theorem refuseHead_of_some (hw : (s.queue q).fetched = some w) (h : s.slotFor q = some slot) (reason : Nat) :
    ∃ t b, s.headStep t q ∧ t.queue q = { s.queue q with slot := some slot, slotWait := b }
      ∧ s.refuseHead q reason = t.issueAs q { newOperation q (s.queue q) w slot with status := 5, reason := reason } := by
  obtain ⟨b, hq⟩ := queue_askSlot_of_some hw h
  refine ⟨s.askSlot q, b, s.headStep_askSlot q, hq, ?_⟩
  unfold refuseHead
  dsimp only
  rw [hq, hw]
  rfl

/-- A refused instruction that has its slot is issued in it, ended, and counts (R135). -/
theorem refuseHead_issues (hw : (s.queue q).fetched = some w) (h : s.slotFor q = some slot) (reason : Nat) :
    ((s.refuseHead q reason).queue q).issued = (s.queue q).issued + 1
      ∧ ∃ o ∈ (s.refuseHead q reason).cmd.ops, o.slot = slot ∧ o.queue = q ∧ o.word = w ∧ o.begun = false ∧ o.status = 5 ∧ o.reason = reason := by
  obtain ⟨t, b, -, hq, hr⟩ := refuseHead_of_some hw h reason
  rw [hr]
  refine ⟨(t.issued_issueAs q _).trans (by rw [hq]), _, t.mem_issueAs q _, rfl, rfl, rfl, rfl, rfl, rfl⟩

/-- A refused instruction that has no slot yet stays at head with its reason (R135). -/
theorem refuseHead_waits (hw : (s.queue q).fetched = some w) (h : s.slotFor q = none) (reason : Nat) :
    (s.refuseHead q reason).queue q = { s.queue q with slotWait := true, endUnperformed := some (BitVec.ofNat 8 reason, 5) }
      ∧ s.headStep (s.refuseHead q reason) q := by
  obtain ⟨hslot, hq⟩ := queue_askSlot_of_none h
  have hrefuse : s.refuseHead q reason
      = (s.askSlot q).setQueue q { (s.askSlot q).queue q with endUnperformed := some (BitVec.ofNat 8 reason, 5) } := by
    unfold refuseHead
    dsimp only
    rw [hq, hw, hslot]
  rw [hrefuse, queue_setQueue_same, hq]
  exact ⟨rfl, (s.headStep_askSlot q).trans (headStep_setQueue ..)⟩

theorem slotFor_of_cmd (h : t.cmd = s.cmd) (q : QueueId) : t.slotFor q = s.slotFor q := by
  unfold slotFor slotAhead queue
  rw [h]

/-! The tests that an instruction meets at head (R117, R122, R752). -/

theorem consuming_of_millOpcode {w : BitVec 256} (h : millOpcode (iOpcode w) = true) : consuming w = true := by
  unfold millOpcode at h
  unfold consuming
  simp only [Bool.or_eq_true, decide_eq_true_eq] at h
  rcases h with (((h | h) | h) | h) | h <;> rw [h] <;> rfl

theorem testHead_eq (s : Dev) (q : QueueId) (w : BitVec 256) : s.testHead q w
    = if headFault q (s.queue q) w = 0 then s.latch q
      else if consuming w then s.refuseHead q (headFault q (s.queue q) w) else s.cease q (headFault q (s.queue q) w) false := by
  unfold testHead headFault
  by_cases henc : encodingValid w (s.queue q).loopIndex = false
  · rw [if_pos (by simp [henc]), if_pos henc, if_neg one_ne_zero]
  · rw [if_neg (by simpa using henc), if_neg henc]
    by_cases hcls : (consuming w && !classServes (queueClass q) (iOpcode w)) = true
    · rw [if_pos hcls, if_pos hcls, if_neg (by decide), if_pos (Bool.and_elim_left hcls)]
    · rw [if_neg hcls, if_neg hcls]
      by_cases hmill : (millOpcode (iOpcode w) && (millsOf (homeDie q).val (s.queue q).unit.toNat).isEmpty) = true
      · rw [if_pos hmill, if_pos hmill, if_neg (by decide), if_pos (consuming_of_millOpcode (Bool.and_elim_left hmill))]
      · rw [if_neg hmill, if_neg hmill, if_pos rfl]

/-! What the read of the instruction at head makes of its queue (R112, R123). -/

theorem fetchHead_of_unbuffered (h : (s.queue q).cur = none) : s.fetchHead q = s := by
  unfold fetchHead
  dsimp only
  rw [h]

section
variable {b : Buffer} (hc : (s.queue q).cur = some b) (hl : (s.queue q).head.toNat < b.len)
include hc hl

theorem fetchHead_of_fail {r a : Nat} (hr : (s.readVa (s.cmdPort q) (b.base + 32 * (s.queue q).head.toNat) 32).2 = .fail r a) :
    s.fetchHead q = (s.readVa (s.cmdPort q) (b.base + 32 * (s.queue q).head.toNat) 32).1.cease q r false := by
  unfold fetchHead
  dsimp only
  rw [hc]
  dsimp only
  rw [if_neg (Nat.not_le.mpr hl)]
  generalize s.readVa (s.cmdPort q) (b.base + 32 * (s.queue q).head.toNat) 32 = x at *
  obtain ⟨d, _⟩ := x
  cases hr
  rfl

theorem fetchHead_of_ok {bytes : List Byte} (hr : (s.readVa (s.cmdPort q) (b.base + 32 * (s.queue q).head.toNat) 32).2 = .ok bytes)
    (hw : BitVec.ofNat 256 (leNat bytes) = w) : ∃ d, s.memStep d ∧ s.fetchHead q = match (s.queue q).skipDepth with
      | some depth => d.skipOne q w depth
      | none => (d.modQueue q fun x => { x with fetched := some w }).testHead q w := by
  refine ⟨_, s.memStep_readVa (s.cmdPort q) rfl (b.base + 32 * (s.queue q).head.toNat) 32, ?_⟩
  subst hw
  unfold fetchHead
  dsimp only
  rw [hc]
  dsimp only
  rw [if_neg (Nat.not_le.mpr hl)]
  generalize s.readVa (s.cmdPort q) (b.base + 32 * (s.queue q).head.toNat) 32 = x at *
  obtain ⟨d, _⟩ := x
  cases hr
  rfl

end

theorem skipOne_eq (s : Dev) (q : QueueId) (w : BitVec 256) (n : Nat) :
    s.skipOne q w n = (s.modQueue q fun x => { x with skipDepth := skipAfter w n }).moveHead q ((s.queue q).head.toNat + 1) := by
  unfold skipOne skipAfter
  dsimp only
  split
  · next h => simp only [h, if_true]
  · next h => simp only [h, if_true, OfNat.ofNat_ne_one, if_false]
  · next h1 h2 => simp only [if_neg h1, if_neg h2]

end

end Dev

/-- A fetch by a running queue with no instruction at head and no push that is still being read (R112). -/
theorem exec_instructionFetch {s : State} {q : QueueId} (hr : (s.queue q).state = .running) (hf : (s.queue q).fetched = none)
    (hp : (s.queue q).pushes = []) (hk : (s.queue q).cur ≠ none ∨ (s.queue q).submits = []) :
    exec (.instructionFetch q) s = .next { s with toDev := s.fetchHead q } := by
  refine exec_eq_next rfl ?_
  dsimp only
  rw [if_neg (by simp [hr, hf]), s.drainPushes_of_none q hp, s.refill_of_kept q hk]

/-- Settles O9: the read changes no queue, and what follows it is `testHead` by the reason of `headFault`, or `skipOne`. The slot in which a
refused instruction ends is `slotFor`'s choice (log entry 27). -/
theorem instructionFetched : Obligations.InstructionFetched := by
  unfold Obligations.InstructionFetched
  intro q s x hrun hf hp
  refine ⟨fun b bytes hc hl hok => ?_, fun b r a hc hl hfail => ?_, fun hc hs => ?_⟩
  · intro w r
    have hexec := exec_instructionFetch hrun hf hp (Or.inl (by rw [hc]; nofun))
    obtain ⟨d, hstep, hfetch⟩ := Dev.fetchHead_of_ok (w := w) hc hl hok rfl
    have hq := Dev.memStep_queue hstep q
    have hcmd := Dev.memStep_cmd hstep
    have hread : (d.modQueue q fun x => { x with fetched := some w }).queue q = { s.queue q with fetched := some w } := by
      rw [Dev.queue_modQueue_same, hq]
    have hslot : (d.modQueue q fun x => { x with fetched := some w }).slotFor q = s.slotFor q := by
      refine ((d.headStep_modQueue q _).slotFor rfl ?_ ?_).trans (Dev.slotFor_of_cmd hcmd q) <;> rw [Dev.queue_modQueue_same]
    have hops : (d.modQueue q fun x => { x with fetched := some w }).cmd.ops = s.cmd.ops := by rw [Dev.ops_modQueue, hcmd]
    generalize (d.modQueue q fun x => { x with fetched := some w }) = u at hread hslot hops hfetch
    have htest := u.testHead_eq q w
    have hfault : headFault q (u.queue q) w = r := by rw [hread]; rfl
    rw [hfault] at htest
    have hreads (hk : x.skipDepth = none) : s.fetchHead q = u.testHead q w := by
      rw [hfetch, show (s.queue q).skipDepth = none from hk]
    refine ⟨fun hk hr => ?_, fun hk hr hcon => ?_, fun hk hr hcon => ⟨fun slot hsl => ?_, fun hsl => ?_⟩, fun n hk => ?_⟩
    · have hlatch := hreads hk
      rw [htest, if_pos hr] at hlatch
      obtain ⟨_, _, _, hframe⟩ := u.latchedQueue_frame (u.queue q)
      refine ⟨_, hexec, ?_⟩
      dsimp only
      rw [hlatch, Dev.queue_latch, if_pos rfl, hframe, hread]
      exact ⟨rfl, rfl, hrun, rfl, hops⟩
    · have hcease := hreads hk
      rw [htest, if_neg hr, if_neg (by simp [hcon])] at hcease
      refine ⟨_, hexec, ?_⟩
      dsimp only
      rw [hcease]
      obtain ⟨hhead, -⟩ := u.keepsPlace_cease q r false
      exact ⟨u.stopsWith_cease q r false (by rw [hread]; exact hrun), hhead.trans (by rw [hread])⟩
    · have hrefuse := hreads hk
      rw [htest, if_neg hr, if_pos hcon] at hrefuse
      refine ⟨_, hexec, ?_⟩
      dsimp only
      rw [hrefuse]
      have hissue := Dev.refuseHead_issues (by rw [hread]) (hslot.trans hsl) r
      rw [hread] at hissue
      exact hissue
    · have hrefuse := hreads hk
      rw [htest, if_neg hr, if_pos hcon] at hrefuse
      obtain ⟨hwait, hstep'⟩ := Dev.refuseHead_waits (by rw [hread]) (hslot.trans hsl) r
      refine ⟨_, hexec, ?_⟩
      dsimp only
      rw [hrefuse, hwait, hread, hstep'.ops]
      exact ⟨rfl, rfl, rfl, hops⟩
    · have hskip : s.fetchHead q = d.skipOne q w n := by
        rw [hfetch, show (s.queue q).skipDepth = some n from hk]
      refine ⟨_, hexec, ?_⟩
      dsimp only
      rw [hskip, Dev.skipOne_eq, hq, Dev.ops_moveHead, Dev.ops_modQueue, hcmd]
      have hfol := (d.modQueue q fun x => { x with skipDepth := skipAfter w n }).moveHead_follows q (x.head.toNat + 1)
      rw [Dev.queue_modQueue_same, hq] at hfol
      exact ⟨hfol, rfl⟩
  · refine ⟨_, exec_instructionFetch hrun hf hp (Or.inl (by rw [hc]; nofun)), ?_⟩
    rw [Dev.fetchHead_of_fail hc hl hfail]
    exact stopsWith_cease_at (Dev.memStep_queue (s.memStep_readVa (s.cmdPort q) rfl ..) q) hrun r
  · rw [exec_instructionFetch hrun hf hp (Or.inr hs), s.fetchHead_of_unbuffered hc]

end Sys2Proof.Machine
end

section
/-! PROOFS. Proofs/Watchdog.lean: the watchdog of the instruction at head (O11). -/

namespace Sys2Proof.Machine

namespace Dev

variable (s : Dev) (q : QueueId)

theorem headStep.now {s t : Dev} {q : QueueId} (h : s.headStep t q) : t.now = s.now := by rw [h.rest]
theorem queueStep.now {s t : Dev} (h : s.queueStep t) : t.now = s.now := by rw [h]

@[simp] theorem unbind_now (a r : Nat) : (s.unbind a r).now = s.now := by
  unfold unbind
  dsimp only
  split <;> rfl

@[simp] theorem nextBuffer_now : (s.nextBuffer q).now = s.now := by
  unfold nextBuffer finishBuffer setHead unbindBuffer
  dsimp only
  split <;> simp

@[simp] theorem moveHead_now (n : Nat) : (s.moveHead q n).now = s.now := by
  unfold moveHead
  dsimp only
  split
  · split
    · rw [(queueStep_cease _ q 0xB false).now, nextBuffer_now]
      rfl
    · rw [nextBuffer_now]
      rfl
  · rfl

/-- Issue takes no time. -/
theorem issueAs_now (o : Operation) : (s.issueAs q o).now = s.now := by
  have hmoved : (s.moved q o).now = s.now := (moveHead_now ..).trans rfl
  rw [issueAs_eq]
  dsimp only
  split_ifs <;> simp only [(queueStep_cease _ q _ false).now, hmoved]

/-- Time that moves on changes no more of a queue than its latches (R125). -/
theorem queue_advance (v : U64) : ∃ a b c, (s.advance v).queue q = { s.queue q with wait0 := a, wait1 := b, brkLatch := c } := by
  unfold advance
  have hstalls := (s.setNow v).countStalls_rest ((s.setNow v).now.toNat - s.now.toNat)
  obtain ⟨a, b, c, h⟩ := ((s.setNow v).countStalls ((s.setNow v).now.toNat - s.now.toNat)).queue_latchAll q
  refine ⟨a, b, c, h.trans ?_⟩
  rw [hstalls]
  rfl

end Dev

/-- Whether the watchdog of a queue has run out on the instruction at its head (R134). -/
def Queue.late (x : Queue) (now : U64) : Bool :=
  x.state = .running && x.watchdog ≠ 0 && x.endUnperformed.isNone && decide (x.headSince.toNat + 1000 * x.watchdog.toNat < now.toNat)

theorem exec_watchdogExpiry {q : QueueId} {t0 : U64} {s : State} {w : BitVec 256} (hw : (s.queue q).fetched = some w) :
    exec (.watchdogExpiry q t0) s = .next { s with toDev :=
      (if (s.queue q).late (s.toDev.advance t0).now then
        (if consuming w then (s.toDev.advance t0).refuseHead q 8 else (s.toDev.advance t0).cease q 8 false)
      else s.toDev) } := by
  refine exec_eq_next rfl ?_
  dsimp only
  rw [hw]
  rfl

/-- Settles O11: time moves on to the watchdog's moment, and the instruction at head is refused or its queue ceases to issue. The slot in which
it ends is `slotFor`'s choice (log entry 27). -/
theorem watchdogExpires : Obligations.WatchdogExpires := by
  unfold Obligations.WatchdogExpires
  intro q t0 s w hw hrun he hle
  have hnow : (s.toDev.advance t0).now = t0 := by
    rw [s.toDev.advance_now]
    split
    · rfl
    · exact BitVec.eq_of_toNat_eq (by omega)
  have hexec := exec_watchdogExpiry (t0 := t0) hw
  rw [hnow] at hexec
  obtain ⟨_, _, _, hq⟩ := s.toDev.queue_advance q t0
  refine ⟨fun hin => ?_, fun hwd hlate => ?_⟩
  · have hnot : (s.queue q).late t0 = false := by
      rcases hin with hin | hin
      · simp [Queue.late, hin]
      · simp [Queue.late, Nat.not_lt.mpr hin]
    rw [hexec, hnot]
    rfl
  · have hpast : (s.queue q).late t0 = true := by simpa [Queue.late, hrun, he, hlate] using hwd
    rw [hpast, if_pos rfl] at hexec
    have hops := s.toDev.advance_ops t0
    generalize s.toDev.advance t0 = u at hnow hexec hq hops ⊢
    refine ⟨fun hcon => ?_, fun hcon => ⟨fun slot hs => ?_, fun hs => ?_⟩⟩
    · rw [if_neg (by simp [hcon])] at hexec
      exact ⟨_, hexec, u.stopsWith_cease q 8 false (by rw [hq]; exact hrun), (u.queueStep_cease q 8 false).now.trans hnow⟩
    · rw [if_pos hcon] at hexec
      obtain ⟨t, b, hstep, -, hr⟩ := Dev.refuseHead_of_some (by rw [hq]; exact hw) hs 8
      obtain ⟨hissued, hop⟩ := Dev.refuseHead_issues (by rw [hq]; exact hw) hs 8
      refine ⟨_, hexec, ?_, hissued.trans (by rw [hq]), hop⟩
      dsimp only
      rw [hr, Dev.issueAs_now, hstep.now, hnow]
    · rw [if_pos hcon] at hexec
      obtain ⟨hwait, hstep⟩ := Dev.refuseHead_waits (by rw [hq]; exact hw) hs 8
      refine ⟨_, hexec, hstep.now.trans hnow, hstep.ops.trans hops, ?_⟩
      dsimp only
      rw [hwait]
      rfl
end Sys2Proof.Machine
end

section
/-! PROOFS. Proofs/Signals.lean: the performing of signals (O14). -/

namespace Sys2Proof.Machine

namespace Dev

variable {s : Dev} {q : QueueId} {g : PendingSignal}

/-- Performing a signal takes nothing off a queue: what waits is latched, no more (R125). -/
theorem signals_performSignal (s : Dev) (q : QueueId) (g : PendingSignal) : ((s.performSignal g).queue q).signals = (s.queue q).signals := by
  have hlatch (d : Dev) : (d.latchAll.queue q).signals = (d.queue q).signals := by
    obtain ⟨_, _, _, h⟩ := d.queue_latchAll q
    rw [h]
  unfold performSignal
  split
  · split
    · exact hlatch _
    · exact hlatch _
    · exact hlatch _
    · exact hlatch _
  · split
    · exact hlatch _
    · exact hlatch _
    · exact hlatch _
    · exact hlatch _
    · rfl

theorem dueSignal_of_ready {rest : List PendingSignal} (hs : (s.queue q).signals = g :: rest) (hr : s.running q = []) :
    s.dueSignal q = if g.ready then some g else none := by
  unfold dueSignal
  rw [hs, hr]
  simp

/-- The state in which a signal that is due is performed: it is off its queue, and the writes before it are visible (R129, R383). -/
def signalTaken (s : Dev) (q : QueueId) : Dev := (s.modQueue q fun x => { x with signals := x.signals.tail }).drainWcbOf (s.queueWriter q)

theorem performFirst_of_due (h : s.dueSignal q = some g) : s.performFirst q = (s.signalTaken q).performSignal g := by
  rw [performFirst, h]
  rfl

theorem cmd_signalTaken (s : Dev) (q : QueueId) : (s.signalTaken q).cmd = (s.modQueue q fun x => { x with signals := x.signals.tail }).cmd :=
  memStep_cmd (memStep_drainWcbOf ..)

theorem signals_signalTaken (s : Dev) (q : QueueId) : ((s.signalTaken q).queue q).signals = (s.queue q).signals.tail := by
  rw [signalTaken, memStep_queue (memStep_drainWcbOf ..), queue_modQueue_same]

theorem counter_signalTaken (s : Dev) (q : QueueId) (d i : Nat) : (s.signalTaken q).counter d i = s.counter d i := by
  rw [counter, cmd_signalTaken]
  rfl

theorem pcounter_signalTaken (s : Dev) (q : QueueId) (i : Nat) : (s.signalTaken q).pcounter i = s.pcounter i := by
  rw [pcounter, cmd_signalTaken]
  rfl

theorem flag_performSignal_set (hs : g.sync = false) (hk : g.kind = 1) : (s.performSignal g).flag g.die g.index = true := by
  simp only [performSignal, hs, hk, Bool.false_eq_true, if_false, flag_updateFlag, if_true]

theorem flag_performSignal_clear (hs : g.sync = false) (hk : g.kind = 2) : (s.performSignal g).flag g.die g.index = false := by
  simp only [performSignal, hs, hk, Bool.false_eq_true, if_false, flag_updateFlag, if_true]

theorem counter_performSignal (hs : g.sync = false) (hk : g.kind = 3) :
    (s.performSignal g).counter g.die g.index = s.counter g.die g.index + BitVec.ofNat 32 g.add := by
  simp only [performSignal, hs, hk, Bool.false_eq_true, if_false, addCounter, counter_updateCounter_same]

theorem pcounter_performSignal (hs : g.sync = false) (hk : g.kind = 4) :
    (s.performSignal g).pcounter g.index = s.pcounter g.index + BitVec.ofNat 32 g.add := by
  simp only [performSignal, hs, hk, Bool.false_eq_true, if_false, addPcounter, pcounter_updatePcounter_same]

end Dev

theorem exec_signal (q : QueueId) (s : State) : exec (.signal q) s = .next { s with toDev := s.performFirst q } := rfl

theorem exec_signal_of_not_due {q : QueueId} {s : State} (h : s.dueSignal q = none) : exec (.signal q) s = .next s := by
  rw [exec_signal, Dev.performFirst, h]

/-- Settles O14: the first signal of the queue is due where it is ready, and its update is `performSignal`'s. -/
theorem signalPerformed : Obligations.SignalPerformed := by
  unfold Obligations.SignalPerformed
  refine fun q s => ⟨exec_signal_of_not_due, fun g rest hg hr => ?_⟩
  have hdue := Dev.dueSignal_of_ready hg hr
  have hexec (h : g.ready = true) : exec (.signal q) s = .next { s with toDev := (s.signalTaken q).performSignal g } := by
    rw [exec_signal, Dev.performFirst_of_due (hdue.trans (if_pos h))]
  have hrest : (((s.signalTaken q).performSignal g).queue q).signals = rest := by
    rw [Dev.signals_performSignal, Dev.signals_signalTaken, hg, List.tail_cons]
  refine ⟨⟨fun hsame => ?_, fun hn => exec_signal_of_not_due (hdue.trans (if_neg (by simp [hn])))⟩, fun hy hs => ?_⟩
  · by_contra hy
    rw [hexec (by simpa using hy)] at hsame
    have hs := Host.Outcome.next.inj hsame
    have hlist : rest = g :: rest := hrest.symm.trans ((congrArg (fun t : State => (t.queue q).signals) hs).trans hg)
    simp at hlist
  · refine ⟨_, hexec hy, hrest, ?_, fun hk => Dev.flag_performSignal_set hs hk, fun hk => Dev.flag_performSignal_clear hs hk, fun hk => ?_, fun hk => ?_⟩
    · exact (Dev.ops_performSignal ..).trans (by rw [s.cmd_signalTaken q]; rfl)
    · exact (Dev.counter_performSignal hs hk).trans (by rw [Dev.counter_signalTaken])
    · exact (Dev.pcounter_performSignal hs hk).trans (by rw [Dev.pcounter_signalTaken])
end Sys2Proof.Machine
end

section
/-! PROOFS. Proofs/OperationEnd.lean: the end of an operation (O13). -/

namespace Sys2Proof.Machine

namespace Dev

section
variable {s t u : Dev} {q : QueueId} {slot : SlotId}

theorem op_eq_none_iff : s.op slot = none ↔ slot ∉ s.cmd.ops.map Operation.slot := by
  rw [op, List.find?_eq_none, List.mem_map]
  simp

/-- An operation has ended: its entry is e, its completion record stands at place i of the ring as the last, and it runs no longer. -/
structure ended (t : Dev) (slot : SlotId) (e : Entry) (i : Nat) (r : CompRecord) (n : U32) : Prop where
  entry : Table.get none t.cmd.journal.entries slot.val = some e
  record : Table.get none t.cmd.journal.ring i = some r
  written : t.cmd.journal.compWritten = n
  terminal : slot ∈ t.cmd.journal.terminal
  gone : slot ∉ t.cmd.ops.map Operation.slot

variable {e : Entry} {i : Nat} {r : CompRecord} {n : U32}

theorem ended.of_same (h : s.ended slot e i r n) (hj : t.cmd.journal = s.cmd.journal)
    (ho : t.cmd.ops.map Operation.slot = s.cmd.ops.map Operation.slot) : t.ended slot e i r n := by
  obtain ⟨h1, h2, h3, h4, h5⟩ := h
  exact ⟨hj ▸ h1, hj ▸ h2, hj ▸ h3, hj ▸ h4, ho ▸ h5⟩

theorem ended.freeSlot (h : s.ended slot e i r n) {k : SlotId} (hk : k ≠ slot) : (s.freeSlot k).ended slot e i r n := by
  obtain ⟨h1, h2, h3, h4, h5⟩ := h
  refine ⟨?_, h2, h3, List.mem_filter.mpr ⟨h4, by simpa using Ne.symm hk⟩, h5⟩
  exact (Table.get_set_ne none s.cmd.journal.entries none fun h => hk (Fin.ext h.symm)).trans h1

/-- A queue that ceases to issue gives back no more than the slot at its own head (R750). -/
theorem ended.cease (h : s.ended slot e i r n) (hq : (s.queue q).slot ≠ some slot) (reason : Nat) (f : Bool) :
    (s.cease q reason f).ended slot e i r n := by
  have hdrop : (s.dropHead q).ended slot e i r n := by
    unfold dropHead
    dsimp only
    split
    · next k hk =>
      split
      · exact (h.freeSlot fun hks => hq (hk.trans (congrArg some hks))).of_same rfl rfl
      · exact h.of_same rfl rfl
    · exact h.of_same rfl rfl
  unfold Dev.cease
  dsimp only
  split
  · refine hdrop.of_same ?_ ?_
    · rw [(onlyQueue_settle _ q).1]
      rfl
    · rw [ops_settle, ops_setQueue]
  · exact h

/-! What an operation that is over gives back touches neither the journal nor the list of operations (R165, R331, R334, R488, R495). -/

theorem feedStep.journal (h : s.feedStep t) : t.cmd.journal = s.cmd.journal := by rw [h.rest]

theorem journal_unbind (s : Dev) (asid region : Nat) : (s.unbind asid region).cmd.journal = s.cmd.journal := by
  unfold unbind
  dsimp only
  split <;> rfl

theorem cmd_forgetOp (s : Dev) (k : SlotId) : (s.forgetOp k).cmd = s.cmd := by
  unfold forgetOp
  exact memStep_cmd (memStep_trans (memStep_modXl ..) (memStep_foldl _ (fun d m => memStep_modMmu ..) _ _))

theorem cmd_forgetEntries (s : Dev) (o : Operation) : (s.forgetEntries o).cmd = s.cmd := by
  unfold forgetEntries
  split <;> rfl

theorem cmd_serveNext (s : Dev) (die : Die) (code : Nat) : (s.serveNext die code).cmd = s.cmd := by
  unfold serveNext
  dsimp only
  split
  · rfl
  · split <;> rfl

/-- An operation that is over holds no remote data and no mill (R334, R602). -/
def unmilled (s : Dev) (k : SlotId) : Dev :=
  let s := s.modFab (fun f => { f with remoteData := Table.set none f.remoteData k.val none })
  { s with cmd := { s.cmd with mills := s.cmd.mills.map (fun m => if m.op = some k then { m with op := none } else m) } }

theorem ended.unmilled (h : s.ended slot e i r n) (k : SlotId) : (s.unmilled k).ended slot e i r n := h.of_same rfl rfl

/-- The next in line of what an operation that is over has held: the mills of its die, or its engine (R334, R495). -/
def handOn (s : Dev) (o : Operation) : Dev :=
  if millOpcode (iOpcode o.word) then s.feed (homeDie o.queue).val
  else match o.body with
    | .service _ =>
      let code := serviceEngine (iOpcode o.word)
      if (s.engine (engineIdx (homeDie o.queue) code)).channel = some (s.queue o.queue).channel then s.serveNext (homeDie o.queue) code else s
    | _ => s

theorem ended.handOn (h : s.ended slot e i r n) (o : Operation) : (s.handOn o).ended slot e i r n := by
  unfold Dev.handOn
  split
  · have hfeed := s.feedStep_feed (homeDie o.queue).val
    exact h.of_same hfeed.journal hfeed.slots
  · split
    · dsimp only
      split
      · have hserve := s.cmd_serveNext (homeDie o.queue) (serviceEngine (iOpcode o.word))
        exact h.of_same (by rw [hserve]) (by rw [hserve])
      · exact h
    · exact h

/-- A LAUNCH that is over binds its code region no longer (R165). -/
def unbound (s : Dev) (o : Operation) : Dev :=
  match o.body with
  | .launch l => s.unbind (s.queue o.queue).asid.toNat l.region
  | _ => s

theorem releaseOp_eq (s : Dev) (o : Operation) :
    s.releaseOp o = ((((s.unbound o).forgetOp o.slot).forgetEntries o).unmilled o.slot).handOn o := rfl

theorem ended.releaseOp (h : s.ended slot e i r n) (o : Operation) : (s.releaseOp o).ended slot e i r n := by
  have hbound : (s.unbound o).ended slot e i r n := by
    unfold unbound
    split
    · exact h.of_same (journal_unbind ..) (by rw [ops_unbind])
    · exact h
  have hforgot : (((s.unbound o).forgetOp o.slot).forgetEntries o).ended slot e i r n :=
    hbound.of_same (by rw [cmd_forgetEntries, cmd_forgetOp]) (by rw [cmd_forgetEntries, cmd_forgetOp])
  rw [releaseOp_eq]
  exact (hforgot.unmilled o.slot).handOn o

theorem slots_abortUnbegun (s : Dev) (q : QueueId) (reason : Nat) :
    (s.abortUnbegun q reason).cmd.ops.map Operation.slot = s.cmd.ops.map Operation.slot := by
  refine (List.map_map ..).trans (List.map_congr_left fun o _ => ?_)
  simp only [Function.comp]
  split <;> rfl

/-- An operation has reached its terminal status, its queue as it was but for the fate of the signal (R129, R130, R179, R180). -/
def terminated (s : Dev) (o : Operation) (status reason : Nat) : Dev :=
  let s := s.modJournal (fun j => { j with
    entries := Table.set none j.entries o.slot.val ((Table.get none j.entries o.slot.val).map (fun e => terminalEntry e o status reason s.now)) })
  let s := s.complete ⟨BitVec.ofNat 32 o.ordinal, o.queue, BitVec.ofNat 4 status, o.slot⟩
  let s := { s with cmd := { s.cmd with ops := s.cmd.ops.filter (fun x => x.slot ≠ o.slot) } }
  let perform := status = 1 || iSigAlways o.word
  s.modQueue o.queue (fun x => { x with signals := x.signals.filterMap (fun g =>
    if !g.sync && !g.ready && g.afterOrdinal = o.ordinal then (if perform then some { g with ready := true } else none) else some g) })

theorem endOperation_eq (s : Dev) (o : Operation) (status reason : Nat) : s.endOperation o status reason =
    (let t := s.terminated o status reason
     let u := if status = 1 then (if iStop o.word then t.cease o.queue 0x11 false else t)
       else (t.abortUnbegun o.queue (if (t.queue o.queue).abortedQ then 7 else reason)).cease o.queue reason true
     u.settle o.queue) := rfl

theorem ended_terminated {o : Operation} {e : Entry} (he : Table.get none s.cmd.journal.entries o.slot.val = some e) (status reason : Nat) :
    (s.terminated o status reason).ended o.slot (terminalEntry e o status reason s.now) (s.cmd.journal.compWritten.toNat % 4096)
      ⟨BitVec.ofNat 32 o.ordinal, o.queue, BitVec.ofNat 4 status, o.slot⟩ (s.cmd.journal.compWritten + 1) where
  entry := (Table.get_set_same ..).trans (by rw [he]; rfl)
  record := Table.get_set_same none s.cmd.journal.ring (s.cmd.journal.compWritten.toNat % 4096)
    (some ⟨BitVec.ofNat 32 o.ordinal, o.queue, BitVec.ofNat 4 status, o.slot⟩)
  written := rfl
  terminal := List.mem_append_right _ (List.mem_singleton_self _)
  gone := fun h => by
    obtain ⟨x, hx, hslot⟩ := List.mem_map.mp h
    exact absurd hslot (by simpa using (List.mem_filter.mp hx).2)

/-- The end of an operation: its entry, its record, and what its queue does then (R136, R137, R179). -/
theorem ended_endOperation {o : Operation} {e : Entry} (hq : (s.queue o.queue).slot ≠ some o.slot)
    (he : Table.get none s.cmd.journal.entries o.slot.val = some e) (status reason : Nat) :
    (s.endOperation o status reason).ended o.slot (terminalEntry e o status reason s.now) (s.cmd.journal.compWritten.toNat % 4096)
      ⟨BitVec.ofNat 32 o.ordinal, o.queue, BitVec.ofNat 4 status, o.slot⟩ (s.cmd.journal.compWritten + 1) := by
  have h := ended_terminated he status reason
  have hslot : ((s.terminated o status reason).queue o.queue).slot = (s.queue o.queue).slot :=
    (congrArg Queue.slot (queue_modQueue_same ..)).trans rfl
  rw [endOperation_eq]
  dsimp only
  generalize s.terminated o status reason = t at h hslot
  rw [← hslot] at hq
  have hu : (if status = 1 then (if iStop o.word then t.cease o.queue 0x11 false else t)
      else (t.abortUnbegun o.queue (if (t.queue o.queue).abortedQ then 7 else reason)).cease o.queue reason true).ended o.slot
      (terminalEntry e o status reason s.now) (s.cmd.journal.compWritten.toNat % 4096)
      ⟨BitVec.ofNat 32 o.ordinal, o.queue, BitVec.ofNat 4 status, o.slot⟩ (s.cmd.journal.compWritten + 1) := by
    split
    · split
      · exact h.cease hq 0x11 false
      · exact h
    · have habort := h.of_same (t := t.abortUnbegun o.queue (if (t.queue o.queue).abortedQ then 7 else reason)) rfl (slots_abortUnbegun ..)
      exact habort.cease hq reason true
  refine hu.of_same ?_ (by rw [ops_settle])
  rw [(onlyQueue_settle _ o.queue).1]

end

end Dev

theorem exec_operationEnd {slot : SlotId} {s : State} {o : Operation} (h : s.op slot = some o) :
    exec (.operationEnd slot) s = .next { s with toDev :=
      (if s.earlier o.queue slot ≠ [] || !s.opDone o then s.toDev else (s.endOperation o o.terminal.1 o.terminal.2).releaseOp o) } := by
  refine exec_eq_next rfl ?_
  dsimp only
  rw [h]

/-- Settles O13: the entry and the record are written by `terminated`, and neither what the queue does then nor what the operation gives back
touches them. -/
theorem operationEnds : Obligations.OperationEnds := by
  unfold Obligations.OperationEnds
  refine ⟨fun slot s o e ho hfirst hdone hq he => ?_, fun slot s o ho hn => ?_⟩
  · obtain rfl : o.slot = slot := by simpa using List.find?_some ho
    have hend := (Dev.ended_endOperation hq he o.terminal.1 o.terminal.2).releaseOp o
    have hexec := exec_operationEnd ho
    rw [if_neg (by simp [hfirst, hdone])] at hexec
    exact ⟨_, hexec, hend.entry, hend.record, hend.written, hend.terminal, Dev.op_eq_none_iff.mpr hend.gone, rfl, rfl, rfl, rfl⟩
  · rw [exec_operationEnd ho, if_pos]
    rcases hn with hn | hn <;> simp [hn]
end Sys2Proof.Machine
end

section
/-! PROOFS. Proofs/KeptReads.lean: what an operation's reads through a port of its slot leave. -/

namespace Sys2Proof.Machine

/-- An operation with more of what it has read once kept for it. -/
def Operation.withKept (o : Operation) (k : SlotId) (l : List KeptRead) : Operation :=
  if o.slot = k then { o with kept := o.kept ++ l } else o

namespace Operation

variable (o : Operation) (k : SlotId) (l : List KeptRead)

@[simp] theorem withKept_slot : (o.withKept k l).slot = o.slot := by unfold withKept; split <;> rfl

theorem withKept_nil : o.withKept k [] = o := by unfold withKept; split <;> simp

theorem withKept_withKept (l2 : List KeptRead) : (o.withKept k l).withKept k l2 = o.withKept k (l ++ l2) := by
  unfold withKept
  by_cases h : o.slot = k
  · simp [h]
  · simp [h]

end Operation

namespace Dev

/-- From s to t an operation has at most read: the memory system and translation have moved on, DRAM keeps its form, and what has been read once
is kept for the operation of slot k (R161). -/
structure keepStep (k : SlotId) (s t : Dev) : Prop where
  rest : t = { s with mem := t.mem, obj := t.obj, xl := t.xl, eventLog := t.eventLog, eventsOut := t.eventsOut, resetDue := t.resetDue,
                      cmd := { s.cmd with ops := t.cmd.ops } }
  form : Memory.wf s.mem = true → Memory.wf t.mem = true
  ops : ∃ l, t.cmd.ops = s.cmd.ops.map fun o => o.withKept k l

section
variable {s t u : Dev} {k : SlotId}

theorem memStep.keepStep (h : s.memStep t) (k : SlotId) : keepStep k s t where
  rest := by rw [h.rest]
  form := h.form
  ops := ⟨[], by
    rw [memStep_cmd h]
    exact ((List.map_congr_left fun o _ => o.withKept_nil k).trans (List.map_id _)).symm⟩

theorem keepStep.refl (s : Dev) (k : SlotId) : keepStep k s s := memStep.keepStep (memStep_refl s) k

theorem keepStep.trans (h1 : keepStep k s t) (h2 : keepStep k t u) : keepStep k s u where
  rest := by rw [h2.rest, h1.rest]
  form := h2.form ∘ h1.form
  ops := by
    obtain ⟨l1, e1⟩ := h1.ops
    obtain ⟨l2, e2⟩ := h2.ops
    refine ⟨l1 ++ l2, ?_⟩
    rw [e2, e1, List.map_map]
    exact List.map_congr_left fun o _ => o.withKept_withKept k l1 l2

theorem keepStep.op (h : keepStep k s t) : ∃ l, t.op k = (s.op k).map fun o => { o with kept := o.kept ++ l } := by
  obtain ⟨l, e⟩ := h.ops
  refine ⟨l, ?_⟩
  rw [Dev.op, e, Dev.op, List.find?_map]
  simp only [Function.comp_def, Operation.withKept_slot]
  cases hf : s.cmd.ops.find? fun o => o.slot = k with
  | none => rfl
  | some o => exact congrArg some (if_pos (by simpa using List.find?_some hf))

theorem keepStep.queue (h : keepStep k s t) (q : QueueId) : t.queue q = s.queue q := by rw [h.rest]; rfl
theorem keepStep.journal (h : keepStep k s t) : t.cmd.journal = s.cmd.journal := by rw [h.rest]
theorem keepStep.now (h : keepStep k s t) : t.now = s.now := by rw [h.rest]
theorem keepStep.relay (h : keepStep k s t) (r : Fin 64) : t.relay r = s.relay r := by rw [h.rest]; rfl

/-- What is read once through a port is kept for the operation of the port's slot (R161). -/
theorem keepStep_keepRead (s : Dev) {p : Port} (hp : p.slot = some k) (runs : List (Nat × Nat)) (d : List (List Byte)) (r : Bool) :
    keepStep k s (s.keepRead p runs d r) := by
  unfold keepRead
  rw [hp]
  split
  · next k' _ hk =>
    obtain rfl := Option.some.inj hk
    exact ⟨rfl, id, _, rfl⟩
  · exact .refl s k

/-! An operation's reads through a port of its slot (R161, R447, R454). -/

section
variable {p : Port} (hp : p.slot = some k)
include hp

theorem keepStep_readVaR (s : Dev) (va n : Nat) : keepStep k s (s.readVaR p va n).1 := by
  unfold readVaR
  split
  · exact .refl s k
  · have h0 := memStep_translateAll p wantRead (pagePieces va n (n / 4096 + 2)) s
    split
    · next u ps hu =>
      rw [hu] at h0
      have h1 := memStep_trans h0 (memStep_readPieces u p ps)
      split
      · next v d hv =>
        rw [hv] at h1
        exact (memStep.keepStep (memStep_trans h1 (memStep_countHits ..)) k).trans (keepStep_keepRead _ hp ..)
      · next hv =>
        rw [hv] at h1
        exact memStep.keepStep h1 k
      · next hv =>
        rw [hv] at h1
        exact memStep.keepStep h1 k
    · next hu =>
      rw [hu] at h0
      exact memStep.keepStep h0 k
    · next hu =>
      rw [hu] at h0
      exact memStep.keepStep h0 k

theorem keepStep_readVa (s : Dev) (va n : Nat) : keepStep k s (s.readVa p va n).1 := by
  have h0 := keepStep_readVaR hp s va n
  unfold readVa
  split
  all_goals
    next hu =>
    rw [hu] at h0
    exact h0

theorem keepStep_readDesc (s : Dev) (h : Nat) : keepStep k s (s.readDesc p h).1 := by
  unfold readDesc
  split
  · exact .refl s k
  · next c hc =>
    have h0 := (memStep.keepStep (memStep_ctxFill s (mmuOf p.die) p.asid) k).trans (keepStep_readVa hp _ (c.dtBase + 64 * h) 64)
    split
    all_goals
      next hu =>
      rw [hu] at h0
      exact h0

theorem keepStep_named {α : Type} (s : Dev) (h : Nat) (f : Nat → Option α) : keepStep k s (s.named p h f).1 := by
  unfold named
  split
  · exact .refl s k
  · have h0 := keepStep_readDesc hp s h
    split
    · next hu =>
      rw [hu] at h0
      split <;> exact h0
    · next hu =>
      rw [hu] at h0
      exact h0
    · next hu =>
      rw [hu] at h0
      exact h0

omit hp in
theorem keepStep_andThen {α β : Type} (r : Dev × Named α) (f : Dev → α → Dev × Named β) (h : keepStep k s r.1)
    (hf : ∀ (u : Dev) (a : α), keepStep k u (f u a).1) : keepStep k s (Named.andThen r f).1 := by
  obtain ⟨u, x⟩ := r
  cases x with
  | ok a => exact h.trans (hf u a)
  | wait => exact h
  | fail c a => exact h
  | invalid => exact h

theorem keepStep_optBytes (s : Dev) (h : Nat) : keepStep k s (s.optBytes p h).1 := by
  unfold optBytes
  split
  · exact .refl s k
  · exact keepStep_andThen _ _ (keepStep_named hp s h _) fun u _ => .refl u k

theorem keepStep_regionOf (s : Dev) (region : Nat) : keepStep k s (s.regionOf p region).1 := by
  unfold regionOf
  split
  · exact .refl s k
  · split
    · exact .refl s k
    · next c hc =>
      have h0 := keepStep_readVa hp s (c.prtBase + 16 * region) 16
      generalize s.readVa p (c.prtBase + 16 * region) 16 = r at h0
      obtain ⟨u, x⟩ := r
      cases x <;> exact h0

end

end

end Dev
end Sys2Proof.Machine
end

section
/-! PROOFS. Proofs/LaunchBegins.lean: the begin of a LAUNCH (O12). -/

namespace Sys2Proof.Machine

namespace Dev

variable {s t u : Dev} {k : SlotId}

/-- From s to t the operation of slot k has at most read, and the journal is as it was. -/
def opKept (k : SlotId) (s t : Dev) : Prop :=
  t.cmd.journal = s.cmd.journal ∧ ∃ l, t.op k = (s.op k).map fun o => { o with kept := o.kept ++ l }

theorem keepStep.opKept (h : keepStep k s t) : Dev.opKept k s t := ⟨h.journal, h.op⟩

theorem opKept.trans (h1 : opKept k s t) (h2 : opKept k t u) : opKept k s u := by
  obtain ⟨j1, l1, e1⟩ := h1
  obtain ⟨j2, l2, e2⟩ := h2
  refine ⟨j2.trans j1, l1 ++ l2, ?_⟩
  rw [e2, e1, Option.map_map]
  congr 1
  funext o
  simp

theorem opKept.refl (s : Dev) (k : SlotId) : opKept k s s := (keepStep.refl s k).opKept

theorem keepStep_toNamed {α : Type} {r : Dev × Fetch α} (h : keepStep k s r.1) : keepStep k s (Fetch.toNamed r).1 := by
  obtain ⟨u, x⟩ := r
  cases x <;> exact h

theorem opKept_andThen {α β : Type} (r : Dev × Named α) (f : Dev → α → Dev × Named β) (h : keepStep k s r.1)
    (hf : ∀ (u : Dev) (a : α), opKept k u (f u a).1) : opKept k s (Named.andThen r f).1 := by
  obtain ⟨u, x⟩ := r
  cases x with
  | ok a => exact h.opKept.trans (hf u a)
  | wait => exact h.opKept
  | fail c a => exact h.opKept
  | invalid => exact h.opKept

theorem opKept_bind (s : Dev) (k : SlotId) (asid region base pages : Nat) : opKept k s (s.bind asid region base pages) := by
  have hcmd := s.cmd_bind asid region base pages
  refine ⟨(congrArg CmdState.journal hcmd).trans rfl, [], ?_⟩
  rw [op, hcmd]
  exact (show s.op k = _ by simp)

/-- A LAUNCH's reads leave its operation but for what is kept for it (R161). -/
theorem opKept_readLaunch (s : Dev) {o : Operation} (hk : o.slot = k) : opKept k s (s.readLaunch o).1 := by
  unfold readLaunch
  dsimp only
  split
  · exact .refl s k
  · next p0 _ =>
    generalize hport : ({ s.sheafPort o p0 0 with keep := true } : Port) = p
    have hp : p.slot = some k := by
      rw [← hport, ← hk]
      rfl
    refine opKept_andThen _ _ (keepStep_named hp ..) fun s code => opKept_andThen _ _ (keepStep_named hp ..) fun s pr =>
      opKept_andThen _ _ (keepStep_optBytes hp ..) fun s b2 => opKept_andThen _ _ (keepStep_optBytes hp ..) fun s b3 => ?_
    split
    · exact .refl s k
    · refine opKept_andThen _ _ (keepStep_toNamed (keepStep_regionOf hp ..)) fun s r => ?_
      split
      · exact .refl s k
      · split
        · exact opKept_bind ..
        · exact .refl s k

section
variable {slot : SlotId} {o : Operation}

/-- An operation begins (R174, R335). -/
theorem op_beginOp (ho : s.op slot = some o) (hb : o.begun = false) :
    (s.beginOp slot id).op slot = some { o with begun := true, tBegin := s.now, sampled := s.sampleFor o } := by
  unfold beginOp
  rw [if_neg (by simp [ho, hb])]
  dsimp only
  rw [op_modOp _ slot fun _ => by rfl, show (s.modJournal _).op slot = some o from ho]
  rfl

theorem entry_beginOp {e : Entry} (ho : s.op slot = some o) (hb : o.begun = false) (he : Table.get none s.cmd.journal.entries slot.val = some e) :
    Table.get none (s.beginOp slot id).cmd.journal.entries slot.val = some { e with running := true, tBegin := s.now } := by
  unfold beginOp
  rw [if_neg (by simp [ho, hb])]
  exact (Table.get_set_same ..).trans (by rw [he]; rfl)

/-- What a LAUNCH that has begun makes of what it has read (R161, R335). -/
theorem op_beginLaunch (ho : s.op slot = some o) :
    ∃ l : List KeptRead, (s.beginLaunch o).cmd.journal = s.cmd.journal
      ∧ (∀ x, (s.readLaunch o).2 = .ok x → (s.beginLaunch o).op slot = some { o with kept := [], body := .launch x })
      ∧ ((s.readLaunch o).2 = .wait → (s.beginLaunch o).op slot = some { o with kept := o.kept ++ l })
      ∧ ((s.readLaunch o).2 = .invalid → (s.beginLaunch o).op slot = some { o with kept := o.kept ++ l, status := 5, reason := 2 })
      ∧ (∀ c a, (s.readLaunch o).2 = .fail c a → o.failed = none →
          (s.beginLaunch o).op slot = some { o with kept := o.kept ++ l, failed := some (failStatus c, c), faultAddr := a }) := by
  obtain rfl : o.slot = slot := by simpa using List.find?_some ho
  obtain ⟨hj, l, hl⟩ := s.opKept_readLaunch (o := o) rfl
  rw [ho] at hl
  unfold beginLaunch
  generalize s.readLaunch o = r at hj hl
  obtain ⟨u, x⟩ := r
  dsimp only at hj hl
  refine ⟨l, ?_, fun y hy => ?_, fun hy => ?_, fun hy => ?_, fun c a hy hf => ?_⟩
  · cases x <;> exact hj
  · cases hy
    dsimp only
    rw [op_modOp u o.slot fun _ => by rfl, hl]
    rfl
  · cases hy
    exact hl
  · cases hy
    dsimp only
    rw [op_modOp u o.slot fun _ => by rfl, hl]
    rfl
  · cases hy
    exact op_failOp hl hf c a

end

end Dev

/-- An operation of opcode LAUNCH begins, the earlier ones of its queue having begun or ended (R133, R335). -/
theorem exec_operationBegin_launch {slot : SlotId} {s : State} {o : Operation} (ho : s.op slot = some o) (hc : iOpcode o.word = 0x30)
    (hb : o.begun = false) (hst : o.status = 0) (hdue : ∀ x ∈ s.earlier o.queue slot, x.begun = true ∨ x.status ≠ 0) :
    exec (.operationBegin slot) s = .next { s with toDev :=
      ((s.toDev.beginOp slot id).beginLaunch { o with begun := true, tBegin := s.now, sampled := s.sampleFor o }) } := by
  have hall : (s.earlier o.queue slot).all (fun x => x.begun || x.status ≠ 0) = true :=
    List.all_eq_true.mpr fun x hx => by simpa using hdue x hx
  refine exec_eq_next rfl ?_
  dsimp only
  rw [ho]
  dsimp only
  rw [hall, if_neg (by simp [hst, hb]), hc, if_neg (by decide), Dev.op_beginOp ho hb]
  rfl

/-- Settles O12: the operation begins (`op_beginOp`, `entry_beginOp`), and what it then reads decides what becomes of it (`op_beginLaunch`). -/
theorem launchBegins : Obligations.LaunchBegins := by
  unfold Obligations.LaunchBegins
  intro slot s o e ho hc hb hst hdue he o1 r gives
  obtain ⟨l, hj, hok, hwait, hinvalid, hfail⟩ := Dev.op_beginLaunch (Dev.op_beginOp ho hb)
  have hexec := exec_operationBegin_launch ho hc hb hst hdue
  have hentry := Dev.entry_beginOp ho hb he
  rw [← hj] at hentry
  have hgives {o2 : Operation} (h : ((s.toDev.beginOp slot id).beginLaunch o1).op slot = some o2) : gives o2 :=
    ⟨_, hexec, h, hentry, rfl, rfl, rfl, rfl⟩
  exact ⟨fun x hr => hgives (hok x hr), fun hr => ⟨_, hgives (hinvalid hr)⟩, fun c a hr hf => ⟨_, hgives (hfail c a hr hf)⟩,
    fun hr => ⟨_, hgives (hwait hr)⟩⟩
end Sys2Proof.Machine
end

section
/-! PROOFS. Proofs/StatisticsAdd.lean: a statistics add and the record that it leaves (O20). -/

namespace Sys2Proof.Machine

namespace Dev

variable {s : Dev} {m : MillId}

theorem memStep_unpin (s : Dev) (m : MillId) : s.memStep (s.unpin m) := by
  unfold unpin
  split
  · exact memStep_modAgent ..
  · exact memStep_refl s

theorem memStep_pinLine (s : Dev) (a : Agent) (m : MillId) (hint : Nat) (t : LineTag) : s.memStep (s.pinLine a m hint t).1 := by
  unfold pinLine
  refine iteInduction (motive := fun r : Dev × Bool => s.memStep r.1) (fun _ => memStep_refl s) fun _ =>
    iteInduction (motive := fun r : Dev × Bool => s.memStep r.1) (fun _ => memStep_refl s) fun _ => ?_
  have hready := memStep_readyLine s a (0x30 + m.val % 12) t hint
  generalize s.readyLine a (0x30 + m.val % 12) t hint = r at hready
  obtain ⟨u, b⟩ := r
  cases b with
  | false => exact hready
  | true =>
    dsimp only
    split
    · exact memStep_trans hready (memStep_evbWait ..)
    · next h =>
      exact memStep_trans hready (memStep_trans (memStep_ownWrite h) ⟨rfl, id⟩)

theorem memStep_pinLines (a : Agent) (m : MillId) (hint : Nat) (ts : List LineTag) (s : Dev) : s.memStep (s.pinLines a m hint ts).1 := by
  induction ts generalizing s with
  | nil => exact memStep_refl s
  | cons t ts ih =>
    unfold pinLines
    have hpin := s.memStep_pinLine a m hint t
    generalize s.pinLine a m hint t = r at hpin
    obtain ⟨u, b⟩ := r
    cases b with
    | false => exact hpin
    | true => exact memStep_trans hpin (ih u)

theorem memStep_holdRecordOf (s : Dev) (p : Port) (m : MillId) (addr hint : Nat) : s.memStep (s.holdRecordOf p m addr hint).1 := by
  unfold holdRecordOf
  refine memStep_fetchThen _ _ (memStep_translateAll ..) fun u ps => ?_
  split
  · exact memStep_reportRealm ..
  · split
    · exact memStep_refl u
    · next a _ =>
      have hpin := u.memStep_pinLines a m hint (pieceLines ps)
      generalize u.pinLines a m hint (pieceLines ps) = r at hpin
      obtain ⟨v, b⟩ := r
      cases b with
      | false => exact hpin
      | true =>
        dsimp only
        split
        · exact hpin
        · exact memStep_trans hpin (memStep_countHits ..)

/-- What a statistics add that has written its record leaves: its counts (R252) and its row entry given up. -/
def addCounted (u : Dev) (m : MillId) (e : RowEntry) (fin : Option Counts) : Dev :=
  (match fin with
    | none => u.bump 3 0x107 m.val 1
    | some n => ((u.bump 3 0x107 m.val 1).bump 3 0x108 m.val 1).modOp e.slot fun o => { o with counts := o.counts.add n }).modMill m fun y => y.dropAdd e

theorem mill_modMill_same (s : Dev) (m : MillId) (f : Mill → Mill) : (s.modMill m f).mill m = f (s.mill m) := mill_setMill_same ..

section
variable (u : Dev) (e : RowEntry) (fin : Option Counts)

theorem mem_addCounted : (u.addCounted m e fin).mem = u.mem := by cases fin <;> rfl

theorem mill_addCounted : (u.addCounted m e fin).mill m = (u.mill m).dropAdd e := by cases fin <;> exact mill_modMill_same ..

theorem adds_addCounted : (u.addCounted m e fin).objAt 3 0x107 m.val = (u.objAt 3 0x107 m.val + 1) % 2 ^ 64 := by
  have hm := m.isLt
  have hbump (b : Nat) (v : Dev) (hb : b < 65536) := v.objAt_bump (a := 3) (b := b) (c := m.val) (a' := 3) (b' := 0x107) (c' := m.val) 1
    (by omega) (by omega) hb (by decide)
  have hadd := (hbump 0x107 u (by decide)).trans (if_pos ⟨rfl, rfl, rfl⟩)
  cases fin with
  | none => exact hadd
  | some n => exact ((hbump 0x108 (u.bump 3 0x107 m.val 1) (by decide)).trans (if_neg (by simp))).trans hadd

end

section
variable {e : RowEntry} {o : Operation}

theorem performAdd_none (h : s.nextAdd m = none) : s.performAdd m = s := by
  unfold performAdd
  rw [h]

/-- A statistics add that fails is lost (R250). -/
theorem performAdd_of_fail {c a : Nat} (hn : s.nextAdd m = some e) (ho : s.op e.slot = some o)
    (hr : (s.holdRecordOf (s.chainPort o m) m e.addr o.statsHint).2 = .fail c a) : s.performAdd m
      = ((((s.holdRecordOf (s.chainPort o m) m e.addr o.statsHint).1.unpin m).failOp e.slot c a).modMill m fun y => y.dropAdd e) := by
  unfold performAdd
  rw [hn]
  dsimp only
  rw [ho]
  dsimp only
  generalize s.holdRecordOf (s.chainPort o m) m e.addr o.statsHint = r at hr
  obtain ⟨u, x⟩ := r
  cases hr
  rfl

/-- A statistics add whose record is written is counted (R249, R252). -/
theorem performAdd_of_written {ps : List Piece} {u : Dev} (hn : s.nextAdd m = some e) (ho : s.op e.slot = some o)
    (hr : (s.holdRecordOf (s.chainPort o m) m e.addr o.statsHint).2 = .ok ps)
    {d : Dev} (hd : (s.holdRecordOf (s.chainPort o m) m e.addr o.statsHint).1 = d) {y : StatRec × Option Counts}
    (hy : statsAdd (parseRec (leNat (ps.flatMap fun x => (d.physRead x.pa x.len x.realm).1))) e = y)
    (hw : d.writePieces (s.chainPort o m) 0 ps (leBytes 256 y.1.bits) [] = some u) : s.performAdd m = (u.unpin m).addCounted m e y.2 := by
  unfold performAdd
  rw [hn]
  dsimp only
  rw [ho]
  dsimp only
  generalize s.holdRecordOf (s.chainPort o m) m e.addr o.statsHint = r at hr hd
  obtain ⟨v, x⟩ := r
  cases hr
  cases hd
  dsimp only at hy hw ⊢
  rw [hy, hw]
  cases y.2 <;> rfl

end

end Dev

/-- An add past the rows that its record expects only marks it overrun (R250). -/
theorem statsAdd_of_overrun {r : StatRec} {e : RowEntry} (h : r.nExp < r.nAcc + e.count) :
    statsAdd r e = ({ r with overrun := true, final := false }, none) := by
  unfold statsAdd
  exact if_pos (by simp [h])

/-- An add within the rows that its record expects adds, and finalises the record with the last of them (R251). -/
theorem statsAdd_of_room {r : StatRec} {e : RowEntry} (hexp : r.nExp < 2 ^ 32) (h : r.nAcc + e.count ≤ r.nExp) :
    ∃ r' : StatRec, (r'.nAcc = r.nAcc + e.count ∧ r'.overrun = r.overrun ∧ r'.nonfinite = (r.nonfinite || e.nonfinite)
        ∧ r'.sumsq = (r.sumsq + e.sumsq) % 2 ^ 640 ∧ r'.final = r.final)
      ∧ statsAdd r e = if r.nAcc + e.count = r.nExp then ({ r' with final := true, moments := (finalise r').1 }, some (finalise r').2) else (r', none) := by
  refine ⟨{ r with
      nAcc := r.nAcc + e.count, nonfinite := r.nonfinite || e.nonfinite, sum := codeOf 320 (signedOf 320 r.sum + e.sum),
      sumsq := (r.sumsq + e.sumsq) % 2 ^ 640 }, ⟨rfl, rfl, rfl, rfl, rfl⟩, ?_⟩
  unfold statsAdd
  dsimp only
  rw [if_neg (by simp only [Bool.or_eq_true, decide_eq_true_eq]; omega)]

/-- Settles O20: the record by the two cases of R250, and the add by what holding its record gave. -/
theorem statisticsAdd : Obligations.StatisticsAdd := by
  unfold Obligations.StatisticsAdd
  refine ⟨fun r e hexp => ⟨statsAdd_of_overrun, fun h => ?_⟩, fun m s hn => exec_eq_next rfl (Dev.performAdd_none hn), fun m s e o hn ho => ?_⟩
  · obtain ⟨r', ⟨hacc, hover, hnonf, hsq, hfin⟩, heq⟩ := statsAdd_of_room hexp h
    rw [heq]
    by_cases hlast : r.nAcc + e.count = r.nExp
    · rw [if_pos hlast]
      exact ⟨hacc, hover, hnonf, hsq, (if_pos hlast).symm, iff_of_true rfl hlast⟩
    · rw [if_neg hlast]
      exact ⟨hacc, hover, hnonf, hsq, hfin.trans (if_neg hlast).symm, iff_of_false nofun hlast⟩
  · have hhold := s.memStep_holdRecordOf (s.chainPort o m) m e.addr o.statsHint
    refine ⟨fun c a hr hf => ?_, fun ps hr u hw => ?_⟩
    · have hkept := Dev.memStep_trans hhold (Dev.memStep_unpin _ m)
      refine ⟨_, _, exec_eq_next rfl (Dev.performAdd_of_fail hn ho hr), Dev.op_failOp ((Dev.memStep_op hkept _).trans ho) hf c a, rfl, rfl, ?_⟩
      exact (Dev.mill_modMill_same ..).trans (congrArg (Mill.dropAdd · e) (Dev.memStep_mill hkept m))
    · have hkept := Dev.memStep_trans hhold (Dev.memStep_trans (Dev.memStep_writePieces hw) (Dev.memStep_unpin _ m))
      refine ⟨_, exec_eq_next rfl (Dev.performAdd_of_written hn ho hr rfl rfl hw), Dev.mem_addCounted .., ?_, ?_⟩
      · refine (Dev.adds_addCounted ..).trans ?_
        rw [Dev.objAt_of_obj (s := u) (t := u.unpin m)]
        unfold Dev.unpin
        split <;> rfl
      · exact (Dev.mill_addCounted ..).trans (congrArg (Mill.dropAdd · e) (Dev.memStep_mill hkept m))
end Sys2Proof.Machine
end

section
/-! PROOFS. Proofs/TileWritten.lean: what a tile has read is kept for its operation, and a tile that is written counts (O19). -/

namespace Sys2Proof.Machine

namespace Dev

variable {s t u : Dev} {k : SlotId}

/-! What a chain engine and a thresher read for a tile is at most kept for its operation (R223, R240, R244). -/

theorem keepStep_fetchThen {α β : Type} (r : Dev × Fetch α) (f : Dev → α → Dev × Fetch β) (h : keepStep k s r.1)
    (hf : ∀ (u : Dev) (a : α), keepStep k u (f u a).1) : keepStep k s (Fetch.andThen r f).1 := by
  obtain ⟨u, x⟩ := r
  cases x with
  | ok a => exact h.trans (hf u a)
  | wait => exact h
  | fail c a => exact h

theorem keepStep_both {α β : Type} (r : Dev × Fetch α) (f : Dev → Dev × Fetch β) (h : keepStep k s r.1)
    (hf : ∀ u : Dev, keepStep k u (f u).1) : keepStep k s (Fetch.both r f).1 := by
  obtain ⟨u, x⟩ := r
  cases x with
  | ok a => exact h.trans (keepStep_fetchThen _ _ (hf u) fun v b => .refl v k)
  | wait =>
    have hu := hf u
    unfold Fetch.both
    dsimp only
    generalize f u = r at hu
    obtain ⟨v, y⟩ := r
    cases y with
    | ok b => exact h
    | wait => exact h.trans hu
    | fail c a => exact h.trans hu
  | fail c a => exact h

section
variable {p : Port} (hp : p.slot = some k)
include hp

theorem keepStep_readRuns (s : Dev) (runs : List (Nat × Nat)) : keepStep k s (s.readRuns p runs).1 := by
  unfold readRuns
  split
  · exact .refl s k
  · have h0 := memStep_translateAll p wantRead (runs.flatMap fun r => pagePieces r.1 r.2 (r.2 / 4096 + 2)) s
    split
    · next u ps hu =>
      rw [hu] at h0
      have h1 := memStep_trans h0 (memStep_readPieces u p ps)
      split
      · next v d hv =>
        rw [hv] at h1
        exact (memStep.keepStep (memStep_trans h1 (memStep_countHits ..)) k).trans (keepStep_keepRead _ hp ..)
      all_goals
        next hv =>
        rw [hv] at h1
        exact memStep.keepStep h1 k
    all_goals
      next hu =>
      rw [hu] at h0
      exact memStep.keepStep h0 k

theorem keepStep_readCodes (s : Dev) (t : Tensor) (cs : List (List Nat)) : keepStep k s (s.readCodes p t cs).1 := by
  have h := keepStep_readRuns (p := { p with hint := t.hint }) hp s (cs.map fun c => (t.addr c, t.bytesOf c))
  unfold readCodes
  generalize s.readRuns { p with hint := t.hint } (cs.map fun c => (t.addr c, t.bytesOf c)) = r at h
  obtain ⟨u, x⟩ := r
  cases x <;> exact h

theorem keepStep_readScales (s : Dev) (t : Tensor) (cs : List (List Nat)) : keepStep k s (s.readScales p t cs).1 := by
  unfold readScales
  split
  · exact .refl s k
  · have h := keepStep_readRuns (p := { p with hint := t.scaleHint }) hp s (cs.map fun c => (t.scaleAddr c, 1))
    generalize s.readRuns { p with hint := t.scaleHint } (cs.map fun c => (t.scaleAddr c, 1)) = r at h
    obtain ⟨u, x⟩ := r
    cases x <;> exact h

theorem keepStep_readValsS {ps : Port} (hps : ps.slot = some k) (s : Dev) (t : Tensor) (cs : List (List Nat)) : keepStep k s (s.readValsS p ps t cs).1 :=
  keepStep_fetchThen _ _ (keepStep_both _ _ (keepStep_readCodes hp s t cs) fun u => keepStep_readScales hps u t cs) fun u _ => .refl u k

theorem keepStep_readBlock {ps : Port} (hps : ps.slot = some k) (s : Dev) (t : Tensor) (n c : Nat) (cs : List (List (List Nat))) :
    keepStep k s (s.readBlock p ps t n c cs).1 :=
  keepStep_fetchThen _ _ (keepStep_readValsS hp hps s t cs.flatten) fun u _ => .refl u k

theorem keepStep_vecVals (s : Dev) (t : Option Tensor) (need : Bool) (key : Nat) (cs : List (List Nat)) :
    keepStep k s (s.vecVals p t need key cs).1 := by
  unfold vecVals
  split
  · exact .refl s k
  · split
    · exact .refl s k
    · exact keepStep_fetchThen _ _ (keepStep_readValsS hp hp s _ cs) fun u _ => .refl u k

theorem keepStep_recordList (b : ByteBuf) (rows : List Nat) (s : Dev) : keepStep k s (s.recordList p b rows).1 := by
  induction rows generalizing s with
  | nil => exact .refl s k
  | cons r rs ih =>
    have hread : keepStep k s (s.recordVals p b r).1 :=
      keepStep_fetchThen _ _ (keepStep_readVa (p := { p with hint := b.hint }) hp s _ 32) fun u _ => .refl u k
    exact keepStep_fetchThen _ _ hread fun u _ => keepStep_fetchThen _ _ (ih u) fun v _ => .refl v k

theorem keepStep_chainEnv (s : Dev) (c : CfgBlock) (k0 nk : Nat) (rows : List Nat) (coord : Nat → Nat → List Nat) :
    keepStep k s (s.chainEnv p c k0 nk rows coord).1 := by
  refine keepStep_fetchThen _ _ (keepStep_vecVals hp ..) fun s a => keepStep_fetchThen _ _ (keepStep_vecVals hp ..) fun s b =>
    keepStep_fetchThen _ _ (keepStep_vecVals hp ..) fun s r => keepStep_fetchThen _ _ (keepStep_vecVals hp ..) fun s x =>
    keepStep_fetchThen _ _ ?_ fun s _ => .refl s k
  split
  · split
    · exact keepStep_recordList hp ..
    · exact .refl s k
  · exact .refl s k

theorem keepStep_tileOut (s : Dev) (x : MillOp) (j : TileJob) (t : TileIn) : keepStep k s (s.tileOut p x j t).1 := by
  unfold tileOut
  dsimp only
  split
  · exact .refl s k
  · exact keepStep_fetchThen _ _ (keepStep_chainEnv hp ..) fun u _ => .refl u k

end

theorem keepStep_foldl {α β : Type} {f : Dev × α → β → Dev × α} (hf : ∀ (r : Dev × α) (b : β), keepStep k r.1 (f r b).1) (l : List β)
    {r : Dev × α} (hr : keepStep k s r.1) : keepStep k s (l.foldl f r).1 := by
  induction l generalizing r with
  | nil => exact hr
  | cons b l ih => exact ih (hr.trans (hf r b))

theorem keepStep_tileInput (s : Dev) {o : Operation} (ho : o.slot = k) (x : MillOp) (m : MillId) (j : TileJob) :
    keepStep k s (s.tileInput o x m j).1 := by
  have hread {n : Nat} : ({ s.thresherPort o m n with keep := true } : Port).slot = some k := congrArg some ho
  unfold tileInput
  dsimp only
  split
  · refine keepStep_foldl (fun r sl => ?_) _ (.refl s k)
    exact keepStep_fetchThen _ _ (.refl r.1 k) fun u _ => keepStep_fetchThen _ _ (keepStep_readBlock hread hread ..) fun v _ => .refl v k
  · exact keepStep_fetchThen _ _ (keepStep_readBlock hread hread ..) fun v _ => .refl v k

/-! Chain engines take what they can, which changes mills only (R207, R212). -/

theorem feedStep_intake (m : MillId) (fuel : Nat) (s : Dev) : s.feedStep (s.intake m fuel) := by
  induction fuel generalizing s with
  | zero => exact .refl s
  | succ fuel ih =>
    unfold intake
    dsimp only
    split
    · split
      · exact .refl s
      · split
        · split
          · exact (feedStep_modMill ..).trans (ih _)
          · exact .refl s
        · exact .refl s
    · split
      · exact .refl s
      · split
        · split
          · exact .refl s
          · split
            · split
              · exact (feedStep_modMill ..).trans ((feedStep_modMill ..).trans (ih _))
              · exact .refl s
            · exact .refl s
        · exact .refl s

theorem feedStep_intakeDie (s : Dev) (die : Nat) : s.feedStep (s.intakeDie die) := by
  refine .foldl (fun s i => ?_) _ _
  split
  · exact feedStep_intake ..
  · exact .refl s

/-! A tile that is written (R177, R178, R212). -/

theorem keepStep.chainPort (h : keepStep k s t) (o : Operation) (m : MillId) : t.chainPort o m = s.chainPort o m := by
  unfold Dev.chainPort
  rw [h.queue]

/-- What a tile comes to: an ATTEND tile's of its rows, any other's through its chain. -/
def tileResult (s : Dev) (o : Operation) (x : MillOp) (m : MillId) (j : TileJob) (t : TileIn) : Dev × Fetch TileOut :=
  if x.kind = .attend then (s, .ok (attendOut x j t)) else s.tileOut (s.chainPort o m) x j t

theorem keepStep_tileResult (s : Dev) (o : Operation) (x : MillOp) (m : MillId) (j : TileJob) (t : TileIn) :
    keepStep o.slot s (s.tileResult o x m j t).1 := by
  unfold tileResult
  split
  · exact .refl s _
  · exact keepStep_tileOut rfl ..

/-- The counters of a chain engine for a tile it has written (R213, R243). -/
def tileElements (s : Dev) (x : MillOp) (m : MillId) (j : TileJob) (t : TileIn) : Dev :=
  if x.passes = 1 then s.bump 3 0x105 m.val ((x.passes + t.entries) * (j.tm * j.tn))
  else (s.bump 3 0x105 m.val ((x.passes + t.entries) * (j.tm * j.tn))).bump 3 0x106 m.val ((x.passes - 1) * (j.tm * j.tn))

/-- What a chain engine leaves of a tile whose bytes are written: its counts, its rows joined, itself free for the next (R177, R212, R248). -/
def tileDone (s : Dev) (o : Operation) (x : MillOp) (m : MillId) (j : TileJob) (t : TileIn) (w : TileOut) (done : Mill → Mill) : Dev :=
  ((((((s.tileElements x m j t).forgetReads o.slot (x.tileStreams m)).modOp o.slot fun o =>
      o.countTile j.ordinal w.counts (t.flushed ++ w.flushed) t.pro).modMill m fun y =>
    (w.taps.filter fun r => !r.2.isEmpty).foldl
      (fun y r => y.joinRow (stageRow o.slot (((x.epi.bind CfgBlock.statsOut).map ByteBuf.base).getD 0) r.1 r.2)) (done y)).intakeDie
    (millDie m).val).feed (millDie m).val)

theorem writeTile_of_written {o : Operation} {x : MillOp} {m : MillId} {j : TileJob} {t : TileIn} {w : TileOut} (done : Mill → Mill)
    (hr : (s.tileResult o x m j t).2 = .ok w)
    (hw : ((s.tileResult o x m j t).1.writeUnit (s.chainPort o m) x.d.hint false w.runs).2 = .ok ()) :
    s.writeTile o x m j t done = ((s.tileResult o x m j t).1.writeUnit (s.chainPort o m) x.d.hint false w.runs).1.tileDone o x m j t w done := by
  change (match s.tileResult o x m j t with | (s, .wait) => _ | (s, .fail r a) => _ | (s, .ok w) => _) = _
  generalize s.tileResult o x m j t = r at hr hw
  obtain ⟨u, y⟩ := r
  cases hr
  dsimp only at hw ⊢
  generalize u.writeUnit (s.chainPort o m) x.d.hint false w.runs = r at hw
  obtain ⟨v, y⟩ := r
  cases hw
  rfl

theorem op_forgetReads {o : Operation} (ho : s.op k = some o) (gone : Nat → Bool) :
    ∃ l, (s.forgetReads k gone).op k = some { o with kept := l } := by
  rw [forgetReads, op_modOp _ _ fun o => by split <;> rfl, ho]
  by_cases hk : o.kept.isEmpty = true
  · exact ⟨o.kept, congrArg some (if_pos hk)⟩
  · exact ⟨_, congrArg some (if_neg hk)⟩

theorem op_tileDone {o o' : Operation} {x : MillOp} {m : MillId} {j : TileJob} {t : TileIn} {w : TileOut} {done : Mill → Mill}
    (ho : s.op o.slot = some o') : ∃ l b, (s.tileDone o x m j t w done).op o.slot
      = some { o'.countTile j.ordinal w.counts (t.flushed ++ w.flushed) t.pro with kept := l, body := b } := by
  have hel : (s.tileElements x m j t).op o.slot = some o' := by
    unfold tileElements
    split <;> exact ho
  obtain ⟨l, hl⟩ := op_forgetReads hel (x.tileStreams m)
  obtain ⟨b, hb⟩ := ((feedStep_modMill ..).trans ((feedStep_intakeDie ..).trans (feedStep_feed ..))).op
    ((op_modOp _ o.slot fun _ => by rfl).trans (congrArg (Option.map fun o : Operation => o.countTile j.ordinal w.counts (t.flushed ++ w.flushed) t.pro) hl))
  exact ⟨l, b, hb⟩

theorem mem_tileDone {o : Operation} {x : MillOp} {m : MillId} {j : TileJob} {t : TileIn} {w : TileOut} {done : Mill → Mill} :
    (s.tileDone o x m j t w done).mem = s.mem := by
  unfold tileDone
  rw [(feedStep_feed ..).rest, (feedStep_intakeDie ..).rest]
  unfold tileElements
  split <;> rfl

section
variable {m : MillId} {o : Operation} {x : MillOp}

/-- The tile whose total a chain engine holds (R207, R213). -/
def totalIn (x : MillOp) (e : CurdEntry) : TileIn :=
  ⟨splitRows e.job.tn e.job.tm e.vals, e.flushed, e.pro, e.rows, if x.ksplit = 1 then 0 else max 1 (x.tileSegs e.job)⟩

theorem tileWritten_of_total {e : CurdEntry} (ht : (s.mill m).total = some e) (hl : e.last = true) (ho : s.op e.job.slot = some o)
    (hx : o.body = .mill x) : s.tileWritten m = s.writeTile o x m e.job (totalIn x e) fun y => { y with total := none } := by
  unfold tileWritten
  dsimp only
  rw [ht]
  dsimp only
  rw [hl, ho]
  dsimp only
  rw [hx]
  rfl

theorem tileWritten_of_taken {slot : SlotId} {ordinal : Nat} {t0 : TileIn} (ht : (s.mill m).total = none)
    (hc : (s.mill m).chainTile = some (slot, ordinal)) (ho : s.op slot = some o) (hx : o.body = .mill x)
    (hin : (s.tileInput o x m (x.job slot ordinal [m.val] 0)).2 = .ok t0) : s.tileWritten m
      = (s.tileInput o x m (x.job slot ordinal [m.val] 0)).1.writeTile o x m (x.job slot ordinal [m.val] 0) t0 fun y => { y with chainTile := none } := by
  unfold tileWritten
  dsimp only
  rw [ht]
  dsimp only
  rw [hc]
  dsimp only
  rw [ho]
  dsimp only
  rw [hx]
  dsimp only
  generalize s.tileInput o x m (x.job slot ordinal [m.val] 0) = r at hin
  obtain ⟨u, y⟩ := r
  cases hin
  rfl

end

end Dev

/-- A tile whose bytes are written counts, whatever has been read for it (R177, R178). -/
theorem writeTile_counts {s : State} {c : Instr} {u : Dev} {o : Operation} {x : MillOp} {m : MillId} {j : TileJob} {t0 : TileIn} {w : TileOut}
    {done : Mill → Mill} (hexec : exec c s = .next { s with toDev := u.writeTile o x m j t0 done }) (ho : s.op o.slot = some o)
    (hu : Dev.keepStep o.slot s.toDev u) (hr : (u.tileResult o x m j t0).2 = .ok w)
    (hw : ((u.tileResult o x m j t0).1.writeUnit (u.chainPort o m) x.d.hint false w.runs).2 = .ok ()) :
    ∃ t o', exec c s = .next t ∧ t.op o.slot = some o' ∧ o'.written = o.written ++ [j.ordinal]
      ∧ o'.counts = (o.countTile j.ordinal w.counts (t0.flushed ++ w.flushed) t0.pro).counts
      ∧ t.mem = ((u.tileResult o x m j t0).1.writeUnit (u.chainPort o m) x.d.hint false w.runs).1.mem := by
  rw [Dev.writeTile_of_written done hr hw] at hexec
  have hread := (hu.trans (u.keepStep_tileResult o x m j t0)).trans (Dev.memStep.keepStep (Dev.memStep_writeUnit _ (u.chainPort o m) x.d.hint false w.runs) o.slot)
  obtain ⟨l, hl⟩ := hread.op
  rw [ho] at hl
  obtain ⟨l', b, hop⟩ := Dev.op_tileDone (x := x) (m := m) (j := j) (t := t0) (w := w) (done := done) hl
  exact ⟨_, _, hexec, hop, rfl, rfl, Dev.mem_tileDone⟩

/-- Settles O19: both kinds of tile are written by `writeTile`, for which reading at most keeps what was read (`keepStep_tileInput`,
`keepStep_tileResult`). -/
theorem tileWrittenCounts : Obligations.TileWrittenCounts := by
  unfold Obligations.TileWrittenCounts
  refine ⟨fun m s e o x ht => ⟨fun hl => exec_eq_next rfl ?_, fun hl ho hx w hr hw => ?_⟩, fun m s slot ordinal o x t0 ht hc ho hx hk hin w hr hw => ?_⟩
  · unfold Dev.tileWritten
    dsimp only
    rw [ht]
    dsimp only
    rw [hl]
    rfl
  · have hslot : o.slot = e.job.slot := by simpa using List.find?_some ho
    have h := writeTile_counts (exec_eq_next (c := .tileWritten m) rfl (Dev.tileWritten_of_total ht hl ho hx)) (hslot ▸ ho) (.refl s.toDev _) hr hw
    rwa [hslot] at h
  · obtain rfl : o.slot = slot := by simpa using List.find?_some ho
    have hu := s.keepStep_tileInput (o := o) rfl x m (x.job o.slot ordinal [m.val] 0)
    have hport := hu.chainPort o m
    have hres : (s.tileInput o x m (x.job o.slot ordinal [m.val] 0)).1.tileResult o x m (x.job o.slot ordinal [m.val] 0) t0
        = (s.tileInput o x m (x.job o.slot ordinal [m.val] 0)).1.tileOut (s.chainPort o m) x (x.job o.slot ordinal [m.val] 0) t0 := by
      rw [← hport]
      exact if_neg hk
    have h := writeTile_counts (w := w) (exec_eq_next (c := .tileWritten m) rfl (Dev.tileWritten_of_taken ht hc ho hx hin)) ho hu (by rwa [hres]) (by rwa [hres, hport])
    rwa [hres, hport] at h
end Sys2Proof.Machine
end

section
/-! PROOFS. Proofs/ThresherUnits.lean: what a thresher hands to its mill, and what moves to a curd entry (O18). -/

namespace Sys2Proof.Machine

theorem val_of_millId {n : Nat} {m : MillId} (h : millId n = some m) : m.val = n := by
  unfold millId at h
  split at h <;> cases h
  rfl

/-! What feeding the mills of a die leaves of a mill (R193, R334). -/

/-- From y to z a mill has at most accepted an operation, taken a tile or begun to fill slots. -/
def Mill.sharesTo (y z : Mill) : Prop :=
  z = { y with op := z.op, lastQueue := z.lastQueue, fill := z.fill, nextK := z.nextK, filling := z.filling, chainTile := z.chainTile }

/-- From y to z a mill has at most that, and it keeps the tile that it fills. -/
structure Mill.feedsTo (y z : Mill) : Prop where
  rest : y.sharesTo z
  held : ∀ j, y.fill = some j → z.fill = some j ∧ (y.filling = [] → z.filling = [])

theorem Mill.sharesTo.trans {x y z : Mill} (h1 : x.sharesTo y) (h2 : y.sharesTo z) : x.sharesTo z := by
  rw [Mill.sharesTo, h2, h1]

theorem Mill.feedsTo.slots {y z : Mill} (h : y.feedsTo z) : z.slots = y.slots := by rw [h.rest]
theorem Mill.feedsTo.finished {y z : Mill} (h : y.feedsTo z) : z.finished = y.finished := by rw [h.rest]
theorem Mill.feedsTo.curd {y z : Mill} (h : y.feedsTo z) : z.curd = y.curd := by rw [h.rest]

theorem Mill.feedsTo.refl (y : Mill) : y.feedsTo y := ⟨rfl, fun _ h => ⟨h, id⟩⟩

theorem Mill.feedsTo.trans {x y z : Mill} (h1 : x.feedsTo y) (h2 : y.feedsTo z) : x.feedsTo z where
  rest := h1.rest.trans h2.rest
  held j hj := by
    obtain ⟨hf1, hl1⟩ := h1.held j hj
    obtain ⟨hf2, hl2⟩ := h2.held j hf1
    exact ⟨hf2, hl2 ∘ hl1⟩

/-- A mill with the slot that a K-slice at the head of those in filling has become. -/
def Mill.givenSlot (y : Mill) (x : MillOp) (f : Filling) (e : ScratchSlot) : Mill :=
  { y with
    filling := y.filling.tail, slots := y.slots ++ [e]
    fill := if y.filling.tail.isEmpty && (x.ranges f.job).length ≤ y.nextK then none else y.fill }

namespace Dev

variable {s t u : Dev} {k : SlotId} {m n : MillId}

theorem feedsTo_foldl {α : Type} {f : Dev → α → Dev} (hf : ∀ (s : Dev) (a : α), (s.mill n).feedsTo ((f s a).mill n)) (l : List α) (s : Dev) :
    (s.mill n).feedsTo ((l.foldl f s).mill n) := by
  induction l generalizing s with
  | nil => exact .refl _
  | cons a l ih => exact (hf s a).trans (ih _)

theorem mill_modMill (s : Dev) (m n : MillId) (f : Mill → Mill) : (s.modMill m f).mill n = if n = m then f (s.mill m) else s.mill n :=
  mill_setMill ..

theorem mill_openFills_ne (h : n ≠ m) (s : Dev) (fuel : Nat) : (s.openFills m fuel).mill n = s.mill n := by
  obtain ⟨fs, k, hs⟩ := s.openFills_eq m fuel
  rw [hs, mill_setMill, if_neg h]

theorem mill_openFills_same (s : Dev) (m : MillId) (fuel : Nat) :
    ∃ fs k, (s.openFills m fuel).mill m = { s.mill m with filling := fs, nextK := k } := by
  obtain ⟨fs, k, hs⟩ := s.openFills_eq m fuel
  exact ⟨fs, k, by rw [hs, mill_setMill_same]⟩

theorem feedsTo_acceptOp (s : Dev) (m n : MillId) : (s.mill n).feedsTo ((s.acceptOp m).mill n) := by
  unfold acceptOp
  split
  · split
    · split
      · rw [mill_modMill]
        split
        · next h =>
          subst h
          exact ⟨rfl, fun j hj => ⟨hj, fun _ => rfl⟩⟩
        · exact .refl _
      · exact .refl _
    · exact .refl _
  · exact .refl _

/-- One mill of a group is given its share of a tile (R193, R330). -/
def giveTile (s : Dev) (o : Operation) (x : MillOp) (group : List Nat) (g : Nat × Nat) : Dev :=
  match millId g.1 with
  | none => s
  | some m =>
    if x.kind = .chain || x.kind = .combine then s.modMill m fun y => { y with chainTile := some (o.slot, x.nextTile) }
    else if (x.ranges (x.job o.slot x.nextTile group g.2)).isEmpty then s
    else (s.modMill m fun y => { y with fill := some (x.job o.slot x.nextTile group g.2), nextK := 0, filling := [] }).openFills m 8

theorem mill_giveTile_ne {o : Operation} {x : MillOp} {group : List Nat} {g : Nat × Nat} (h : n.val ≠ g.1) (s : Dev) :
    (s.giveTile o x group g).mill n = s.mill n := by
  unfold giveTile
  split
  · rfl
  · next m hm =>
    have hne : n ≠ m := fun e => h ((congrArg Fin.val e).trans (val_of_millId hm))
    split
    · rw [mill_modMill, if_neg hne]
    · split
      · rfl
      · rw [mill_openFills_ne hne, mill_modMill, if_neg hne]

theorem sharesTo_giveTile {o : Operation} {x : MillOp} {group : List Nat} (s : Dev) (g : Nat × Nat) :
    (s.mill n).sharesTo ((s.giveTile o x group g).mill n) := by
  by_cases h : n.val = g.1
  · unfold giveTile
    split
    · rfl
    · next m hm =>
      obtain rfl : n = m := Fin.ext (h.trans (val_of_millId hm).symm)
      split
      · rw [mill_modMill, if_pos rfl]
        rfl
      · split
        · rfl
        · obtain ⟨fs, k, hs⟩ := mill_openFills_same (s.modMill n fun y => { y with fill := some (x.job o.slot x.nextTile group g.2), nextK := 0, filling := [] }) n 8
          rw [hs, mill_modMill, if_pos rfl]
          rfl
  · rw [mill_giveTile_ne h]
    rfl

theorem sharesTo_giveTiles {o : Operation} {x : MillOp} {group : List Nat} (l : List (Nat × Nat)) (s : Dev) :
    (s.mill n).sharesTo ((l.foldl (fun s g => s.giveTile o x group g) s).mill n) := by
  induction l generalizing s with
  | nil => exact rfl
  | cons g l ih => exact (sharesTo_giveTile s g).trans (ih _)

theorem mill_giveTiles_of_notMem {o : Operation} {x : MillOp} {group : List Nat} (l : List (Nat × Nat)) (h : ∀ g ∈ l, n.val ≠ g.1) (s : Dev) :
    (l.foldl (fun s g => s.giveTile o x group g) s).mill n = s.mill n := by
  induction l generalizing s with
  | nil => rfl
  | cons g l ih => exact (ih (fun g hg => h g (List.mem_cons_of_mem _ hg)) _).trans (mill_giveTile_ne (h g List.mem_cons_self) s)

theorem takeTile_eq (s : Dev) (o : Operation) (x : MillOp) (group : List Nat) : s.takeTile o x group
    = if o.takes && x.nextTile < x.units && group.all (s.mateFree o.slot (x.kind = .chain || x.kind = .combine)) then
        group.zipIdx.foldl (fun s g => s.giveTile o x group g) (s.modOp o.slot fun o => { o with body := .mill { x with nextTile := x.nextTile + 1 } })
      else s := rfl

theorem fill_of_mateFree {slot : SlotId} {chain : Bool} (h : s.mateFree slot chain n.val = true) : (s.mill n).fill = none := by
  have hn : millId n.val = some n := dif_pos n.isLt
  unfold mateFree at h
  rw [hn] at h
  simp only [Bool.and_eq_true, Option.isNone_iff_eq_none] at h
  exact h.1.1.2

theorem feedsTo_takeTile (s : Dev) (o : Operation) (x : MillOp) (group : List Nat) : (s.mill n).feedsTo ((s.takeTile o x group).mill n) := by
  rw [takeTile_eq]
  split
  · next h =>
    rw [Bool.and_eq_true, List.all_eq_true] at h
    refine ⟨sharesTo_giveTiles (n := n) .., fun j hj => ?_⟩
    have hout : ∀ g ∈ group.zipIdx, n.val ≠ g.1 := fun g hg e => by
      have hfree := h.2 g.1 (List.fst_mem_of_mem_zipIdx hg)
      rw [← e] at hfree
      rw [fill_of_mateFree hfree] at hj
      cases hj
    rw [mill_giveTiles_of_notMem _ hout]
    exact ⟨hj, id⟩
  · exact .refl _

theorem feedsTo_takeTiles (s : Dev) (k : SlotId) : (s.mill n).feedsTo ((s.takeTiles k).mill n) := by
  unfold takeTiles
  split
  · refine feedsTo_foldl (fun s g => ?_) _ _
    split
    · split
      · exact feedsTo_takeTile ..
      · exact .refl _
    · exact .refl _
  · exact .refl _

theorem feedsTo_feed (s : Dev) (die : Nat) (n : MillId) : (s.mill n).feedsTo ((s.feed die).mill n) := by
  unfold feed
  refine .trans (feedsTo_foldl (fun s i => ?_) _ _) (feedsTo_foldl (fun s o => feedsTo_takeTiles ..) _ _)
  split
  · exact feedsTo_acceptOp ..
  · exact .refl _

/-! A thresher's slots (R195, R198, R332). -/

/-- A mill that fills a tile with as many slots as its operation takes opens no further one (R332). -/
theorem openFills_of_full {j : TileJob} {x : MillOp} (hf : (s.mill m).fill = some j) (ho : (s.op j.slot).map Operation.body = some (.mill x))
    (hfull : x.slots ≤ (s.mill m).slots.length + (s.mill m).filling.length) (fuel : Nat) : s.openFills m fuel = s := by
  cases fuel with
  | zero => rfl
  | succ fuel =>
    unfold openFills
    dsimp only
    rw [hf, Option.map_some, ho]
    exact if_pos hfull

theorem openFills_of_unfilled (hf : (s.mill m).fill = none) (fuel : Nat) : s.openFills m fuel = s := by
  cases fuel with
  | zero => rfl
  | succ fuel =>
    unfold openFills
    dsimp only
    rw [hf]
    rfl

theorem fetchSide_of_whole {o : Operation} {x : MillOp} {i n : Nat} {f : Filling} {isB : Bool} (hi : (s.mill m).filling[i]? = some f)
    (hw : (f.side isB).whole = true) : s.fetchSide o x m i isB n = (s, .ok n) := by
  unfold fetchSide
  rw [hi]
  dsimp only
  rw [hw]
  rfl

theorem fetchSlots_of_whole {o : Operation} {x : MillOp} {n : Nat} {f : Filling} (hf : (s.mill m).filling = [f]) (ha : f.a.whole = true)
    (hb : f.b.whole = true) : s.fetchSlots o x m 1 n = (s, .ok n) := by
  have hi : (s.mill m).filling[0]? = some f := by rw [hf]; rfl
  unfold fetchSlots fetchSlots Fetch.andThen
  dsimp only
  rw [fetchSide_of_whole (isB := false) hi ha]
  exact fetchSide_of_whole (isB := true) hi hb

/-- What a thresher's hold of its slots comes to: a failure ends the tile, and else it goes on (R198, R214). -/
def fillEnds (m : MillId) (j : TileJob) (r : Dev × Fetch Unit) : Dev :=
  match r with
  | (s, .fail r a) => ((s.failOp j.slot r a).abandon j).feed (millDie m).val
  | (s, .wait) => s
  | (s, .ok ()) => (s.openFills m 8).feed (millDie m).val

theorem fillSlot_eq {j : TileJob} {o : Operation} {x : MillOp} (hf : (s.mill m).fill = some j) (ho : s.op j.slot = some o) (hx : o.body = .mill x)
    (hfull : x.slots ≤ (s.mill m).slots.length + (s.mill m).filling.length) : s.fillSlot m
      = fillEnds m j (Fetch.andThen (s.fetchSlots o x m (s.mill m).filling.length 0) fun s _ => s.handSlots o x m 8) := by
  have hopen := openFills_of_full hf (by rw [ho, ← hx]; rfl) hfull 8
  unfold fillSlot
  rw [hf]
  dsimp only
  rw [ho]
  dsimp only
  rw [hx]
  dsimp only
  rw [hopen]
  rfl

theorem handSlots_of_empty {o : Operation} {x : MillOp} (hf : (s.mill m).filling = []) (fuel : Nat) : s.handSlots o x m fuel = (s, .ok ()) := by
  cases fuel with
  | zero => rfl
  | succ fuel =>
    unfold handSlots
    rw [hf]

/-- A slot is handed to the mill; its tile is filled when no K-slice of it is left (R198, R332). -/
def handSlot (s : Dev) (o : Operation) (x : MillOp) (m : MillId) (f : Filling) (e : ScratchSlot) : Dev :=
  let s := s.modMill m fun y => y.givenSlot x f e
  if (s.mill m).fill.isNone then s.forgetReads o.slot (fun n => n < 0x30 && n / 4 = m.val % 12) else s

theorem mill_handSlot (s : Dev) (o : Operation) (x : MillOp) (m : MillId) (f : Filling) (e : ScratchSlot) :
    (s.handSlot o x m f e).mill m = (s.mill m).givenSlot x f e := by
  have hmill := s.mill_modMill_same m fun y => y.givenSlot x f e
  unfold handSlot
  dsimp only
  split <;> exact hmill

theorem handSlots_of_slot {o : Operation} {x : MillOp} {f : Filling} (hf : (s.mill m).filling = [f]) (ha : f.a.whole = true) (hb : f.b.whole = true)
    (hu : ((s.slotOf o x m f).1.mill m).filling = [f]) (fuel : Nat) :
    (∀ e, (s.slotOf o x m f).2 = .ok e → s.handSlots o x m (fuel + 1) = ((s.slotOf o x m f).1.handSlot o x m f e, .ok ())) ∧
    (∀ r a, (s.slotOf o x m f).2 = .fail r a → s.handSlots o x m (fuel + 1) = ((s.slotOf o x m f).1, .fail r a)) := by
  unfold handSlots
  rw [hf]
  dsimp only
  rw [ha, hb]
  generalize s.slotOf o x m f = r at hu
  obtain ⟨u, y⟩ := r
  refine ⟨fun e he => ?_, fun r a he => ?_⟩
  · cases he
    refine handSlots_of_empty (s := u.handSlot o x m f e) ?_ fuel
    rw [mill_handSlot]
    exact congrArg List.tail hu
  · cases he
    rfl

theorem keepStep_proBlock {p : Port} (hp : p.slot = some k) (s : Dev) (x : MillOp) (on : Bool) (t : Tensor) (op r0 ex k0 nk bi : Nat)
    (cs : List (List (List Nat))) (v : List (List Val) × List Nat) : keepStep k s (s.proBlock p x on t op r0 ex k0 nk bi cs v).1 := by
  unfold proBlock
  split
  · exact keepStep_fetchThen _ _ (keepStep_chainEnv hp ..) fun u _ => .refl u k
  · exact .refl s k

theorem keepStep_slotOf (s : Dev) (o : Operation) (x : MillOp) (m : MillId) (f : Filling) : keepStep o.slot s (s.slotOf o x m f).1 := by
  unfold slotOf
  dsimp only
  split
  · exact .refl s _
  · split
    · exact .refl s _
    · exact keepStep_fetchThen _ _ (keepStep_proBlock rfl ..) fun u _ => keepStep_fetchThen _ _ (keepStep_proBlock rfl ..) fun v _ => .refl v _

theorem keepStep.mill (h : keepStep k s t) (m : MillId) : t.mill m = s.mill m := by rw [h.rest]; rfl

/-! What a failed tile leaves of its operation (R214, R215). -/

/-- From s to t an operation of slot k has at most read or forgotten, and taken tiles. -/
structure opStep (k : SlotId) (s t : Dev) : Prop where
  op : ∀ o, s.op k = some o → ∃ l b, t.op k = some { o with kept := l, body := b }

theorem opStep.refl (s : Dev) (k : SlotId) : opStep k s s := ⟨fun o ho => ⟨o.kept, o.body, ho⟩⟩

theorem opStep.trans (h1 : opStep k s t) (h2 : opStep k t u) : opStep k s u := ⟨fun o ho => by
  obtain ⟨_, _, ht⟩ := h1.op o ho
  obtain ⟨l, b, hu⟩ := h2.op _ ht
  exact ⟨l, b, hu⟩⟩

theorem opStep.foldl {α : Type} {f : Dev → α → Dev} (hf : ∀ (s : Dev) (a : α), opStep k s (f s a)) (l : List α) (s : Dev) : opStep k s (l.foldl f s) := by
  induction l generalizing s with
  | nil => exact .refl s k
  | cons a l ih => exact (hf s a).trans (ih _)

theorem keepStep.opStep (h : keepStep k s t) : Dev.opStep k s t := ⟨fun o ho => by
  obtain ⟨l, hl⟩ := h.op
  exact ⟨o.kept ++ l, o.body, by rw [hl, ho]; rfl⟩⟩

theorem feedStep.opStep (h : s.feedStep t) (k : SlotId) : Dev.opStep k s t := ⟨fun o ho => by
  obtain ⟨b, hb⟩ := h.op ho
  exact ⟨o.kept, b, hb⟩⟩

theorem opStep_forgetReads (s : Dev) (k : SlotId) (gone : Nat → Bool) : opStep k s (s.forgetReads k gone) := ⟨fun o ho => by
  obtain ⟨l, hl⟩ := op_forgetReads ho gone
  exact ⟨l, o.body, hl⟩⟩

theorem opStep_bump (s : Dev) (k : SlotId) (a b c n : Nat) : opStep k s (s.bump a b c n) := (memStep.keepStep (memStep_bump ..) k).opStep

theorem opStep_countPartial (s : Dev) (k : SlotId) (m : MillId) (gone : TileJob → Bool) : opStep k s (s.countPartial m gone) := by
  refine .foldl (fun s f => ?_) _ _
  split
  · refine .foldl (fun s e => ?_) _ _
    exact iteInduction (motive := fun t => opStep k s t) (fun _ => .refl s k) fun _ => opStep_bump s k 2 0x106 m.val _
  · exact .refl s k

theorem opStep_intakeLead (s : Dev) (k : SlotId) (x : Option MillId) : opStep k s (x.elim s fun m => s.intakeDie (millDie m).val) := by
  cases x with
  | none => exact .refl s k
  | some m => exact (feedStep_intakeDie ..).opStep k

theorem opStep_abandon (s : Dev) (j : TileJob) : opStep j.slot s (s.abandon j) := by
  unfold abandon
  dsimp only
  refine opStep.trans ?_ (opStep_intakeLead _ j.slot _)
  refine .foldl (fun s g => ?_) _ _
  split
  · exact .refl s _
  · exact (opStep_countPartial ..).trans (((feedStep_modMill ..).opStep _).trans (opStep_forgetReads ..))

/-! A result moves to a curd entry, and the chain engines take what they can (R207, R210, R211). -/

/-- From s to t chain engines have at most taken entries into their totals. -/
structure intakes (s t : Dev) : Prop where
  mill : ∀ n, t.mill n = { s.mill n with curd := (t.mill n).curd, total := (t.mill n).total }

theorem intakes.refl (s : Dev) : s.intakes s := ⟨fun _ => rfl⟩

theorem intakes.trans (h1 : s.intakes t) (h2 : t.intakes u) : s.intakes u := ⟨fun n => by rw [h2.mill n, h1.mill n]⟩

theorem intakes_modMill {f : Mill → Mill} (hf : ∀ y : Mill, f y = { y with curd := (f y).curd, total := (f y).total }) (s : Dev) (m : MillId) :
    s.intakes (s.modMill m f) := ⟨fun n => by
  rw [mill_modMill]
  split
  · next h =>
    subst h
    exact hf _
  · rfl⟩

theorem intakes_intake (m : MillId) (fuel : Nat) (s : Dev) : s.intakes (s.intake m fuel) := by
  induction fuel generalizing s with
  | zero => exact .refl s
  | succ fuel ih =>
    unfold intake
    dsimp only
    split
    · split
      · exact .refl s
      · split
        · split
          · refine (intakes_modMill ?_ s m).trans (ih _)
            exact fun _ => rfl
          · exact .refl s
        · exact .refl s
    · split
      · exact .refl s
      · split
        · split
          · exact .refl s
          · split
            · split
              · refine ((intakes_modMill ?_ ..).trans (intakes_modMill ?_ ..)).trans (ih _)
                · exact fun _ => rfl
                · exact fun _ => rfl
              · exact .refl s
            · exact .refl s
        · exact .refl s

theorem intakes_intakeDie (s : Dev) (die : Nat) : s.intakes (s.intakeDie die) := by
  unfold intakeDie
  generalize List.range 12 = l
  induction l generalizing s with
  | nil => exact .refl s
  | cons i l ih =>
    refine intakes.trans ?_ (ih _)
    dsimp only
    split
    · exact intakes_intake ..
    · exact .refl s

/-- A chain engine whose total is whole takes nothing (R207). -/
theorem intake_of_whole {z : CurdEntry} (hz : (s.mill m).total = some z) (hl : z.last = true) (fuel : Nat) : s.intake m fuel = s := by
  cases fuel with
  | zero => rfl
  | succ fuel =>
    unfold intake
    dsimp only
    rw [hz]
    exact if_pos hl

theorem millDie_of_millId {die i : Nat} (hi : i < 12) (h : millId (12 * die + i) = some m) : (millDie m).val = die := by
  have hval := val_of_millId h
  unfold millDie
  dsimp only
  omega

theorem intakeDie_of_whole {die : Nat} (hw : ∀ n, (millDie n).val = die → ∃ z, (s.mill n).total = some z ∧ z.last = true) : s.intakeDie die = s := by
  unfold intakeDie
  have hall : ∀ i ∈ List.range 12, i < 12 := fun i hi => List.mem_range.mp hi
  generalize List.range 12 = l at hall
  induction l with
  | nil => rfl
  | cons i l ih =>
    have hi := hall i List.mem_cons_self
    rw [List.foldl_cons]
    have hstep : (match millId (12 * die + i) with
        | some m => s.intake m 1024
        | none => s) = s := by
      split
      · next m hm =>
        obtain ⟨z, hz, hl⟩ := hw m (millDie_of_millId hi hm)
        exact intake_of_whole hz hl _
      · rfl
    exact (congrArg (fun t => List.foldl _ t l) hstep).trans (ih fun i hi => hall i (List.mem_cons_of_mem _ hi))

theorem moveCurd_of_room {e : CurdEntry} (hf : (s.mill m).finished = some e) (hr : (s.mill m).curd.length < 2) : s.moveCurd m
    = (((s.modMill m fun y => { y with finished := none, curd := y.curd ++ [e] }).intakeDie (millDie m).val).feed (millDie m).val) := by
  unfold moveCurd
  dsimp only
  rw [hf]
  exact if_neg (by omega)

theorem moveCurd_of_full (hr : 2 ≤ (s.mill m).curd.length) : s.moveCurd m = s := by
  unfold moveCurd
  dsimp only
  split
  · rfl
  · exact if_pos hr

/-- What a thresher holds it keeps, and it waits for no more lines than it may (R198, R331). -/
theorem fetchLines_holds (p : Port) (f : Nat) (ls : List Nat) (s : Dev) (held : Table (List Byte)) (w : Nat) {h2 : Table (List Byte)} {n2 : Nat}
    (h : (s.fetchLines p f ls held w).2 = .ok (h2, n2)) : w ≤ n2 ∧ (w ≤ 512 → n2 ≤ 512)
      ∧ ∀ k, Table.get [] held k ≠ [] → Table.get [] h2 k = Table.get [] held k := by
  induction ls generalizing s held w with
  | nil =>
    cases h
    exact ⟨Nat.le_refl _, id, fun _ _ => rfl⟩
  | cons l ls ih =>
    unfold fetchLines at h
    split at h
    · exact ih _ _ _ h
    · next hnew =>
      split at h
      · cases h
        exact ⟨Nat.le_refl _, id, fun _ _ => rfl⟩
      · next hroom =>
        rw [show thresherOutstanding = 512 from rfl] at hroom
        split at h
        · obtain ⟨hle, hmax, hkeep⟩ := ih _ _ _ h
          refine ⟨hle, hmax, fun k hk => ?_⟩
          have hne : k ≠ heldKey f l := fun e => hnew (e ▸ hk)
          have hget := Table.get_set_ne ([] : List Byte) held (by assumption) hne
          rw [← hget]
          exact hkeep k (by rwa [hget])
        · obtain ⟨hle, hmax, hkeep⟩ := ih _ _ _ h
          exact ⟨by omega, fun _ => hmax (by omega), hkeep⟩
        · cases h

theorem memStep_fetchLines {p : Port} (hp : p.keep = false) (f : Nat) (ls : List Nat) (s : Dev) (held : Table (List Byte)) (w : Nat) :
    s.memStep (s.fetchLines p f ls held w).1 := by
  induction ls generalizing s held w with
  | nil => exact memStep_refl s
  | cons l ls ih =>
    unfold fetchLines
    split
    · exact ih ..
    · split
      · exact memStep_refl s
      · have hread := s.memStep_readVa p hp (128 * l) 128
        generalize s.readVa p (128 * l) 128 = r at hread
        obtain ⟨u, y⟩ := r
        cases y with
        | ok d => exact memStep_trans hread (ih ..)
        | wait => exact memStep_trans hread (ih ..)
        | fail c a => exact hread

end Dev

theorem execSlotFill {m : MillId} {s : State} {d : Dev} (h : s.fillSlot m = d) : exec (.slotFillComplete m) s = .next { s with toDev := d } :=
  exec_eq_next rfl h

section
variable {m : MillId} {s : State} {j : TileJob} {o : Operation} {x : MillOp} {f : Filling}

/-- A mill whose slots are all full goes on to feed its die, and keeps its slots (R332). -/
theorem slotFill_of_empty (hf : (s.mill m).fill = some j) (ho : s.op j.slot = some o) (hx : o.body = .mill x) (hl : (s.mill m).filling = [])
    (hfull : x.slots ≤ (s.mill m).slots.length) : ∃ t, exec (.slotFillComplete m) s = .next t
      ∧ (t.mill m).slots = (s.mill m).slots ∧ (t.mill m).filling = [] ∧ (t.mill m).fill = some j := by
  have hfull' : x.slots ≤ (s.mill m).slots.length + (s.mill m).filling.length := by omega
  have hfill : s.fillSlot m = s.feed (millDie m).val := by
    rw [Dev.fillSlot_eq hf ho hx hfull', hl, show (s.fetchSlots o x m [].length 0) = (s.toDev, .ok 0) from rfl]
    unfold Fetch.andThen
    dsimp only
    rw [Dev.handSlots_of_empty hl]
    unfold Dev.fillEnds
    dsimp only
    rw [Dev.openFills_of_full hf (by rw [ho, ← hx]; rfl) hfull']
  have hfeed := s.feedsTo_feed (millDie m).val m
  obtain ⟨hj, hempty⟩ := hfeed.held j hf
  exact ⟨_, execSlotFill hfill, hfeed.slots, hempty hl, hj⟩

theorem fillSlot_of_whole (hf : (s.mill m).fill = some j) (ho : s.op j.slot = some o) (hx : o.body = .mill x) (hl : (s.mill m).filling = [f])
    (ha : f.a.whole = true) (hb : f.b.whole = true) (hfull : x.slots ≤ (s.mill m).slots.length + 1) :
    s.fillSlot m = Dev.fillEnds m j (s.handSlots o x m 8) := by
  rw [Dev.fillSlot_eq hf ho hx (by rw [hl]; exact hfull), hl, show [f].length = 1 from rfl, Dev.fetchSlots_of_whole hl ha hb]
  rfl

/-- A slot whose every byte is held is handed to its mill (R198, R332). -/
theorem slotFill_of_slot (hf : (s.mill m).fill = some j) (ho : s.op j.slot = some o) (hx : o.body = .mill x) (hl : (s.mill m).filling = [f])
    (ha : f.a.whole = true) (hb : f.b.whole = true) (hfull : x.slots ≤ (s.mill m).slots.length + 1) {e : ScratchSlot}
    (he : (s.slotOf o x m f).2 = .ok e) :
    ∃ t, exec (.slotFillComplete m) s = .next t ∧ (t.mill m).slots = (s.mill m).slots ++ [e] ∧ s.sameBeyond t := by
  have hmill := (s.keepStep_slotOf o x m f).mill m
  have hfill := fillSlot_of_whole hf ho hx hl ha hb hfull
  rw [(Dev.handSlots_of_slot hl ha hb (hmill ▸ hl) 7).1 e he] at hfill
  refine ⟨_, execSlotFill hfill, ?_, rfl, rfl, rfl, rfl⟩
  obtain ⟨fs, k, hopen⟩ := ((s.slotOf o x m f).1.handSlot o x m f e).mill_openFills_same m 8
  rw [Dev.mill_handSlot, hmill] at hopen
  exact (Dev.feedsTo_feed _ (millDie m).val m).slots.trans (congrArg Mill.slots hopen)

/-- A slot that meets a failure fails its operation (R214, R215). -/
theorem slotFill_of_fail (hf : (s.mill m).fill = some j) (ho : s.op j.slot = some o) (hx : o.body = .mill x) (hl : (s.mill m).filling = [f])
    (ha : f.a.whole = true) (hb : f.b.whole = true) (hfull : x.slots ≤ (s.mill m).slots.length + 1) {r a : Nat}
    (he : (s.slotOf o x m f).2 = .fail r a) (hno : o.failed = none) :
    ∃ t o', exec (.slotFillComplete m) s = .next t ∧ t.op j.slot = some o' ∧ o'.failed = some (if r = 6 then 4 else 3, r)
      ∧ o'.faultAddr = a ∧ o'.written = o.written := by
  have hslot : o.slot = j.slot := by simpa using List.find?_some ho
  have hread := s.keepStep_slotOf o x m f
  have hfill := fillSlot_of_whole hf ho hx hl ha hb hfull
  rw [(Dev.handSlots_of_slot hl ha hb (hread.mill m ▸ hl) 7).2 r a he] at hfill
  obtain ⟨l, b, hop⟩ := hread.opStep.op o (hslot ▸ ho)
  rw [hslot] at hop
  obtain ⟨l', b', hop'⟩ := ((Dev.opStep_abandon _ j).trans ((Dev.feedStep_feed _ (millDie m).val).opStep j.slot)).op _ (Dev.op_failOp hop hno r a)
  exact ⟨_, _, execSlotFill hfill, hop', rfl, rfl, rfl⟩

/-- A finished result moves to a free curd entry (R207, R210, R211). -/
theorem curdMove_of_room {e : CurdEntry} (hf : (s.mill m).finished = some e) (hc : (s.mill m).curd.length < 2) :
    ∃ t, exec (.curdMove m) s = .next t ∧ (t.mill m).finished = none
      ∧ ((∀ n, millDie n = millDie m → ∃ z, (s.mill n).total = some z ∧ z.last = true) → (t.mill m).curd = (s.mill m).curd ++ [e])
      ∧ t = { s with cmd := { s.cmd with mills := t.cmd.mills, ops := t.cmd.ops } } := by
  generalize hu : s.modMill m (fun y => { y with finished := none, curd := y.curd ++ [e] }) = u
  have hmill (n : MillId) : u.mill n = if n = m then { s.mill m with finished := none, curd := (s.mill m).curd ++ [e] } else s.mill n := by
    rw [← hu]
    exact Dev.mill_modMill ..
  have hin := (u.intakes_intakeDie (millDie m).val).mill m
  have hfeed := ((u.intakeDie (millDie m).val).feedsTo_feed (millDie m).val m)
  rw [hmill, if_pos rfl] at hin
  have hstep : s.toDev.feedStep ((u.intakeDie (millDie m).val).feed (millDie m).val) :=
    (hu ▸ Dev.feedStep_modMill ..).trans ((Dev.feedStep_intakeDie ..).trans (Dev.feedStep_feed ..))
  refine ⟨_, exec_eq_next rfl ((Dev.moveCurd_of_room hf hc).trans (by rw [hu])), ?_, fun hw => ?_, ?_⟩
  · exact hfeed.finished.trans (congrArg Mill.finished hin)
  · have hsame : u.intakeDie (millDie m).val = u := Dev.intakeDie_of_whole fun n hn => by
      obtain ⟨z, hz, hl⟩ := hw n (Fin.ext hn)
      refine ⟨z, ?_, hl⟩
      rw [hmill]
      split
      · next h => exact h ▸ hz
      · exact hz
    refine hfeed.curd.trans ?_
    rw [hsame, hmill, if_pos rfl]
  · exact congrArg (fun d : Dev => { s with toDev := d }) hstep.rest

end

/-- Settles O18: a slot by what holding it gave (`slotFill_of_slot`, `slotFill_of_fail`), a fetch by its lines, and a move by what the chain
engines can take (`curdMove_of_room`). -/
theorem thresherUnits : Obligations.ThresherUnits := by
  unfold Obligations.ThresherUnits
  refine ⟨fun m s hf => execSlotFill (by unfold Dev.fillSlot; rw [hf]), fun m s j o x hf ho hx =>
      ⟨slotFill_of_empty hf ho hx, fun f hl ha hb hfull => ⟨fun e => slotFill_of_slot hf ho hx hl ha hb hfull,
        fun r a => slotFill_of_fail hf ho hx hl ha hb hfull⟩⟩,
    fun s p f ls held n => ⟨fun h2 n2 => Dev.fetchLines_holds p f ls s held n, fun hp => Dev.memStep_fetchLines hp ..⟩,
    fun m s e hf => ⟨fun hc => exec_eq_next rfl (Dev.moveCurd_of_full hc), curdMove_of_room hf⟩⟩
end Sys2Proof.Machine
end

section
/-! PROOFS. Proofs/CopyUnit.lean: a unit of COPY reads and writes through the memory system (O31). -/

namespace Sys2Proof.Machine

namespace Dev

variable {s t u : Dev}

/-! A stream operation reads and writes its images through the memory system alone (R349, R350). -/

theorem memStep_readRuns (s : Dev) {p : Port} (hk : p.keep = false) (runs : List (Nat × Nat)) : s.memStep (s.readRuns p runs).1 := by
  unfold readRuns
  split
  · exact memStep_refl s
  · have h0 := memStep_translateAll p wantRead (runs.flatMap fun r => pagePieces r.1 r.2 (r.2 / 4096 + 2)) s
    split
    · next u ps hu =>
      rw [hu] at h0
      have h1 := memStep_trans h0 (memStep_readPieces u p ps)
      split
      · next v d hv =>
        rw [hv] at h1
        dsimp only
        rw [keepRead_off _ _ hk]
        exact memStep_trans h1 (memStep_countHits ..)
      all_goals
        next hv =>
        rw [hv] at h1
        exact h1
    all_goals
      next hu =>
      rw [hu] at h0
      exact h0

theorem memStep_readImage (s : Dev) {p : Port} (hk : p.keep = false) (x : Image) (lo hi : Nat) : s.memStep (s.readImage p x lo hi).1 := by
  refine memStep_fetchThen _ _ (memStep_fetchThen _ _ (memStep_readRuns (p := { p with hint := x.hint }) s hk _) fun u _ => ?_) fun u _ => ?_
  · exact memStep_refl u
  · exact memStep_refl u

theorem memStep_writeSegs {p : Port} {hint : Nat} {part : List Nat} (gs : List (Nat × Nat)) (ps : List Piece) (v : Nat) {s : Dev}
    (h : s.writeSegs p hint part gs ps v = some u) : s.memStep u := by
  induction gs generalizing s ps v with
  | nil =>
    cases h
    exact memStep_refl _
  | cons g gs ih =>
    unfold writeSegs at h
    dsimp only at h
    split at h
    · next hw => exact memStep_trans (memStep_writePieces hw) (ih _ _ h)
    · cases h

theorem memStep_writeImage (s : Dev) (p : Port) (x : Image) (lo hi v : Nat) : s.memStep (s.writeImage p x lo hi v).1 := by
  refine memStep_fetchThen _ _ (memStep_holdWrite ..) fun u ps => ?_
  split
  · next h => exact memStep_writeSegs _ _ _ h
  · exact memStep_writeWait ..

/-- The running operation of a journal slot performs its next unit (R350). -/
theorem streamUnit_of_goes {slot : SlotId} {o : Operation} {x : UnitOp} {code : Nat} {f : Dev → Operation → UnitOp → Dev} (ho : s.op slot = some o)
    (hx : o.body = .stream x) (hc : iOpcode o.word = code) (hg : o.goes = true) (hn : x.next < x.units) : s.streamUnit slot code f = f s o x := by
  unfold streamUnit
  rw [ho]
  dsimp only
  rw [hx]
  exact if_pos (by simp [hc, hg, hn])

section
variable {o : Operation} {x : UnitOp} {d : Image}

/-- The bytes that COPY's next unit writes end here. -/
def copyEnd (x : UnitOp) (d : Image) : Nat := min (4096 * x.next + 4096) d.size

/-- What COPY's next unit reads (R349). -/
def copyRead (s : Dev) (o : Operation) (x : UnitOp) (d : Image) : Dev × Fetch Nat :=
  s.readImage (s.opStream o 0) x.src (4096 * x.next) (copyEnd x d)

/-- What its write of what it has read comes to (R350). -/
def copyWrite (s : Dev) (o : Operation) (x : UnitOp) (d : Image) (v : Nat) : Dev × Fetch Unit :=
  (s.copyRead o x d).1.writeImage (s.opStream o 1) d (4096 * x.next) (copyEnd x d) v

theorem memStep_copyRead (s : Dev) (o : Operation) (x : UnitOp) (d : Image) : s.memStep (s.copyRead o x d).1 :=
  memStep_readImage (p := s.opStream o 0) s rfl ..

theorem memStep_copyWrite (s : Dev) (o : Operation) (x : UnitOp) (d : Image) (v : Nat) : s.memStep (s.copyWrite o x d v).1 :=
  memStep_trans (s.memStep_copyRead o x d) (memStep_writeImage ..)

/-- A unit of COPY is written in full, and its bytes are counted (R350). -/
def unitCopied (s : Dev) (o : Operation) (x : UnitOp) (n : Nat) : Dev := (s.bump 5 0x107 (homeDie o.queue).val n).unitDone o.slot x

/-- How COPY's next unit ends. -/
def copyEnds (o : Operation) (x : UnitOp) (d : Image) (r : Dev × Fetch Unit) : Dev :=
  match r with
  | (s, .ok ()) => s.unitCopied o x (copyEnd x d - 4096 * x.next)
  | (s, .wait) => s
  | (s, .fail c a) => s.failOp o.slot c a

theorem copyUnit_eq (hd : x.dst = some d) : s.copyUnit o x = copyEnds o x d (Fetch.andThen (s.copyRead o x d) fun u v =>
    u.writeImage (u.opStream o 1) d (4096 * x.next) (copyEnd x d) v) := by
  unfold copyUnit copyEnds copyRead copyEnd
  rw [hd]
  dsimp only
  generalize Fetch.andThen _ _ = r
  obtain ⟨u, y⟩ := r
  cases y <;> rfl

theorem copyUnit_of_unread {r a : Nat} (hd : x.dst = some d) (hr : (s.copyRead o x d).2 = .fail r a) :
    s.copyUnit o x = (s.copyRead o x d).1.failOp o.slot r a := by
  rw [copyUnit_eq hd]
  generalize s.copyRead o x d = q at hr
  obtain ⟨u, y⟩ := q
  cases hr
  rfl

theorem copyUnit_of_read {v : Nat} (hd : x.dst = some d) (hr : (s.copyRead o x d).2 = .ok v) :
    s.copyUnit o x = copyEnds o x d (s.copyWrite o x d v) := by
  have hport : (s.copyRead o x d).1.opStream o 1 = s.opStream o 1 := by
    unfold opStream
    rw [memStep_queue (s.memStep_copyRead o x d)]
  rw [copyUnit_eq hd, copyWrite, ← hport]
  generalize s.copyRead o x d = q at hr
  obtain ⟨u, y⟩ := q
  cases hr
  rfl

theorem copyUnit_of_unwritten {v r a : Nat} (hd : x.dst = some d) (hr : (s.copyRead o x d).2 = .ok v)
    (hw : (s.copyWrite o x d v).2 = .fail r a) : s.copyUnit o x = (s.copyWrite o x d v).1.failOp o.slot r a := by
  rw [copyUnit_of_read hd hr]
  generalize s.copyWrite o x d v = q at hw
  obtain ⟨u, y⟩ := q
  cases hw
  rfl

theorem copyUnit_of_written {v : Nat} (hd : x.dst = some d) (hr : (s.copyRead o x d).2 = .ok v)
    (hw : (s.copyWrite o x d v).2 = .ok ()) : s.copyUnit o x = (s.copyWrite o x d v).1.unitCopied o x (copyEnd x d - 4096 * x.next) := by
  rw [copyUnit_of_read hd hr]
  generalize s.copyWrite o x d v = q at hw
  obtain ⟨u, y⟩ := q
  cases hw
  rfl

theorem op_unitCopied {o' : Operation} {n : Nat} (ho : s.op o.slot = some o') : (s.unitCopied o x n).op o.slot
    = some { o' with written := o'.written ++ [x.next], body := .stream { x with next := x.next + 1, asked := [], flying := [] } } :=
  (op_modOp _ o.slot fun _ => by rfl).trans (congrArg _ ho)

theorem objAt_unitCopied {n : Nat} : (s.unitCopied o x n).objAt 5 0x107 (homeDie o.queue).val
    = (s.objAt 5 0x107 (homeDie o.queue).val + n) % 2 ^ 64 := by
  have hd := (homeDie o.queue).isLt
  exact (objAt_bump _ _ (by omega) (by omega) (by decide) (by decide)).trans (if_pos ⟨rfl, rfl, rfl⟩)

end

end Dev

/-- Settles O31: what a unit reads and writes stays within the memory system, so its operation is as it was until it counts or fails. -/
theorem copyUnitMoves : Obligations.CopyUnitMoves := by
  unfold Obligations.CopyUnitMoves
  intro slot s o u x ho hx hc hb hst hf hab hn hd
  obtain rfl : o.slot = slot := by simpa using List.find?_some ho
  have hgoes : o.goes = true := by simp [Operation.goes, hb, hst, hf, hab]
  have hexec {t : Dev} (h : s.copyUnit o u = t) : exec (.copy (.unit o.slot)) s = .next { s with toDev := t } :=
    exec_eq_next rfl ((Dev.streamUnit_of_goes ho hx hc hgoes hn).trans h)
  have hread := s.memStep_copyRead o u x
  have hwrite := s.memStep_copyWrite o u x
  refine ⟨fun v hr => ⟨fun hw => ?_, fun r a hw => ?_⟩, fun r a hr => ?_⟩
  · exact ⟨_, _, hexec (Dev.copyUnit_of_written hd hr hw), rfl, Dev.op_unitCopied ((Dev.memStep_op (hwrite v) _).trans ho), rfl, rfl,
      Dev.objAt_unitCopied, rfl, rfl, rfl, rfl⟩
  · exact ⟨_, _, hexec (Dev.copyUnit_of_unwritten hd hr hw), rfl, Dev.op_failOp ((Dev.memStep_op (hwrite v) _).trans ho) hf r a, rfl, rfl, rfl⟩
  · exact ⟨_, _, hexec (Dev.copyUnit_of_unread hd hr), rfl, Dev.op_failOp ((Dev.memStep_op hread _).trans ho) hf r a, rfl, rfl, rfl⟩
end Sys2Proof.Machine
end

section
/-! PROOFS. Proofs/ServiceSteps.lean: the rotation of the service channels and a work entry (O42). -/

namespace Sys2Proof.Machine

/-! The channel whose turn is next (R495). -/

/-- How far a channel comes after the one served last, in ascending number and wrapping round. -/
def channelTurn (last c : Nat) : Nat := (c + 255 - last % 256) % 256

/-- The one of two channels whose turn comes first. -/
def sooner (last : Nat) (best : Option Nat) (c : Nat) : Option Nat :=
  match best with
  | none => some c
  | some b => if channelTurn last c < channelTurn last b then some c else some b

theorem nextChannel_eq (last : Nat) (l : List Nat) : nextChannel last l = l.foldl (sooner last) none := rfl

/-- The first turn of a list and of what came before it. -/
theorem foldl_sooner (last : Nat) (l : List Nat) (b : Nat) :
    ∃ c, l.foldl (sooner last) (some b) = some c ∧ (c = b ∨ c ∈ l) ∧ channelTurn last c ≤ channelTurn last b
      ∧ ∀ x ∈ l, channelTurn last c ≤ channelTurn last x := by
  induction l generalizing b with
  | nil => exact ⟨b, rfl, .inl rfl, Nat.le_refl _, fun x hx => by cases hx⟩
  | cons a l ih =>
    rw [List.foldl_cons]
    by_cases h : channelTurn last a < channelTurn last b
    · obtain ⟨c, hc, hmem, hle, hall⟩ := ih a
      refine ⟨c, by rwa [sooner, if_pos h], .inr (List.mem_cons.mpr hmem), by omega, fun x hx => ?_⟩
      rcases List.mem_cons.mp hx with rfl | hx
      · exact hle
      · exact hall x hx
    · obtain ⟨c, hc, hmem, hle, hall⟩ := ih b
      refine ⟨c, by rwa [sooner, if_neg h], hmem.imp_right (List.mem_cons_of_mem a), hle, fun x hx => ?_⟩
      rcases List.mem_cons.mp hx with rfl | hx
      · omega
      · exact hall x hx

theorem nextChannel_spec {last : Nat} {l : List Nat} (h : l ≠ []) :
    ∃ c, nextChannel last l = some c ∧ c ∈ l ∧ ∀ b ∈ l, channelTurn last c ≤ channelTurn last b := by
  cases l with
  | nil => exact absurd rfl h
  | cons a l =>
    obtain ⟨c, hc, hmem, hle, hall⟩ := foldl_sooner last l a
    refine ⟨c, hc, List.mem_cons.mpr hmem, fun x hx => ?_⟩
    rcases List.mem_cons.mp hx with rfl | hx
    · exact hle
    · exact hall x hx

namespace Dev

variable {s t u : Dev}

theorem engine_modEngine_same {i : Nat} (hi : i < 10) (f : SvcEngine → SvcEngine) : (s.modEngine i f).engine i = f (s.engine i) := by
  simp [engine, modEngine, Vector.getD, hi]

theorem engine_modEngine_ne {i j : Nat} (h : j ≠ i) (f : SvcEngine → SvcEngine) : (s.modEngine i f).engine j = s.engine j := by
  by_cases hj : j < 10 <;> simp [engine, modEngine, Vector.getD, hj, h]

/-- From s to t no more has changed than the service engines and the values of objects. -/
def enginesOnly (s t : Dev) : Prop := t = { s with svc := { s.svc with engines := t.svc.engines }, obj := t.obj }

section
variable {die : Die} {code : Nat}

theorem serveNext_of_none (h : nextChannel (s.engine (engineIdx die code)).last (s.readyChannels die code) = none) :
    s.serveNext die code = s.modEngine (engineIdx die code) fun e => { e with channel := none } := by
  unfold serveNext
  dsimp only
  rw [h]

/-- A change to another channel than the one served last is counted (R495). -/
def countChange (s : Dev) (die : Die) (last c : Nat) : Dev := if last ≠ c && last ≠ 255 then s.bump 6 0x109 die.val 1 else s

theorem serveNext_of_some {c : Nat} (h : nextChannel (s.engine (engineIdx die code)).last (s.readyChannels die code) = some c) :
    s.serveNext die code = (s.countChange die (s.engine (engineIdx die code)).last c).modEngine (engineIdx die code)
      fun _ => { channel := some c, quantum := s.objAt 6 0x200 0, last := c } := by
  have hd := die.isLt
  have hquantum : (s.countChange die (s.engine (engineIdx die code)).last c).objAt 6 0x200 0 = s.objAt 6 0x200 0 := by
    unfold countChange
    split
    · exact (objAt_bump _ _ (by omega) (by decide) (by decide) (by decide)).trans (if_neg (by omega))
    · rfl
  rw [← hquantum]
  unfold serveNext
  dsimp only
  rw [h]
  rfl

theorem enginesOnly_countChange (s : Dev) (die : Die) (last c : Nat) : s.enginesOnly (s.countChange die last c) := by
  unfold countChange
  split <;> rfl

theorem engine_countChange (s : Dev) (die : Die) (last c i : Nat) : (s.countChange die last c).engine i = s.engine i := by
  unfold countChange
  split <;> rfl

theorem enginesOnly_serveNext (s : Dev) (die : Die) (code : Nat) : s.enginesOnly (s.serveNext die code) := by
  cases h : nextChannel (s.engine (engineIdx die code)).last (s.readyChannels die code) with
  | none => rw [serveNext_of_none h]; rfl
  | some c =>
    rw [serveNext_of_some h, enginesOnly]
    conv_lhs => rw [enginesOnly_countChange s die _ c]
    rfl

theorem turnQuantum_of_idle {taken : Nat} (h : (s.engine (engineIdx die code)).channel = none) : s.turnQuantum die code taken = s.serveNext die code := by
  unfold turnQuantum
  dsimp only
  rw [h]

theorem turnQuantum_of_over {taken c : Nat} (h : (s.engine (engineIdx die code)).channel = some c)
    (ho : (s.engine (engineIdx die code)).quantum ≤ (s.engine (engineIdx die code)).used + taken ∨ c ∉ s.readyChannels die code) :
    s.turnQuantum die code taken = s.serveNext die code := by
  unfold turnQuantum
  dsimp only
  rw [h]
  exact if_pos (by simpa using ho)

theorem turnQuantum_of_more {taken c : Nat} (h : (s.engine (engineIdx die code)).channel = some c)
    (ho : (s.engine (engineIdx die code)).used + taken < (s.engine (engineIdx die code)).quantum) (hr : c ∈ s.readyChannels die code) :
    s.turnQuantum die code taken = s := by
  unfold turnQuantum
  dsimp only
  rw [h]
  exact if_neg (by simpa using ⟨ho, hr⟩)

theorem enginesOnly_turnQuantum (s : Dev) (die : Die) (code taken : Nat) : s.enginesOnly (s.turnQuantum die code taken) := by
  unfold turnQuantum
  dsimp only
  split
  · exact enginesOnly_serveNext ..
  · split
    · exact enginesOnly_serveNext ..
    · rfl

theorem enginesOnly_takeQuantum (s : Dev) (die : Die) (code n : Nat) : s.enginesOnly (s.takeQuantum die code n) := by
  unfold takeQuantum
  exact (enginesOnly_turnQuantum ..).trans rfl

end

end Dev

/-- A quantum ends and the next ready channel is served (R495). -/
theorem quantumEnd_serves {sv : SvId} {code : Fin 5} {taken : Nat} {s : State} {die : Die} (hdie : die = ⟨18 + sv.val, by omega⟩)
    (h : s.turnQuantum die code.val taken = s.serveNext die code.val) :
    ∃ u, exec (.quantumEnd sv code taken) s = .next u
      ∧ (nextChannel (s.engine (engineIdx die code.val)).last (s.readyChannels die code.val) = none →
          u.engine (engineIdx die code.val) = { s.engine (engineIdx die code.val) with channel := none })
      ∧ (∀ c, nextChannel (s.engine (engineIdx die code.val)).last (s.readyChannels die code.val) = some c →
          u.engine (engineIdx die code.val) = { channel := some c, quantum := s.objAt 6 0x200 0, last := c })
      ∧ (∀ j, j ≠ engineIdx die code.val → u.engine j = s.engine j)
      ∧ u = { s with svc := { s.svc with engines := u.svc.engines }, obj := u.obj } := by
  have hi : engineIdx die code.val < 10 := by
    rw [hdie, engineIdx]
    dsimp only
    omega
  refine ⟨{ s with toDev := s.serveNext die code.val }, exec_eq_next rfl (by rw [← h, hdie]), fun hn => ?_, fun c hn => ?_, fun j hj => ?_, ?_⟩
  · rw [Dev.serveNext_of_none hn]
    exact Dev.engine_modEngine_same hi _
  · rw [Dev.serveNext_of_some hn]
    exact Dev.engine_modEngine_same hi _
  · cases hn : nextChannel (s.engine (engineIdx die code.val)).last (s.readyChannels die code.val) with
    | none =>
      rw [Dev.serveNext_of_none hn]
      exact Dev.engine_modEngine_ne hj _
    | some c =>
      rw [Dev.serveNext_of_some hn]
      exact (Dev.engine_modEngine_ne hj _).trans (Dev.engine_countChange ..)
  · exact congrArg (fun d : Dev => { s with toDev := d }) (s.enginesOnly_serveNext die code.val)

namespace Dev

variable {s t u : Dev}

/-! A work entry (R499, R503, R504, R506). -/

theorem memStep_performEntry (s : Dev) (o : Operation) (v : ServiceOp) (e : Nat) : s.memStep (s.performEntry o v e).1 := by
  have hread (u w : Dev) (va n : Nat) : u.memStep (u.readVa (w.channelPort o) va n).1 := memStep_readVa u (w.channelPort o) rfl va n
  unfold performEntry
  dsimp only
  split
  · exact memStep_refl s
  · refine memStep_fetchThen _ _ (hread ..) fun u src => ?_
    split
    · exact memStep_fetchThen _ _ (hread ..) fun w _ => memStep_refl w
    · exact memStep_refl u
    · refine memStep_fetchThen _ _ ?_ fun w _ => memStep_refl w
      split
      · exact hread ..
      · exact memStep_refl u

theorem memStep_writeSets (p : Port) (l : List (ByteBuf × Bool × Nat × List Byte)) (s : Dev) : s.memStep (s.writeSets p l).1 := by
  induction l generalizing s with
  | nil => exact memStep_refl s
  | cons x l ih =>
    obtain ⟨b, ex, off, bytes⟩ := x
    unfold writeSets
    split
    · exact ih s
    · have hhold := s.memStep_holdWrite p b.hint ex wantWrite [(b.base + off, bytes.length)]
      generalize s.holdWrite p b.hint ex wantWrite [(b.base + off, bytes.length)] = r at hhold
      obtain ⟨u, y⟩ := r
      cases y with
      | wait => exact hhold
      | fail c a => exact hhold
      | ok ps =>
        have hrest := memStep_trans hhold (ih u)
        dsimp only at hhold ⊢
        generalize u.writeSets p l = r at hrest
        obtain ⟨w, z⟩ := r
        cases z with
        | wait => exact hrest
        | fail c a => exact hrest
        | ok _ =>
          dsimp only
          split
          · next hw => exact memStep_trans hrest (memStep_writePieces hw)
          · exact memStep_trans hhold (memStep_writeWait ..)

section
variable {o : Operation} {v : ServiceOp} {x : EntryOut}

/-- What a work entry writes, where its operation has no MinHash output: its output, and its result entry (R503, R506). -/
def entrySets (o : Operation) (v : ServiceOp) (e : Nat) (x : EntryOut) : List (ByteBuf × Bool × Nat × List Byte) :=
  [(v.out, iOpcode o.word = 0x50 && v.option = 0, wOff e, x.out),
    (v.results.getD v.out, false, 16 * v.next, if x.status = 0 then resultBytes 0 x.count x.out.length else resultBytes x.status 0 0)]

/-- A work entry whose output and result are written is the next unit done, and has taken its bytes of the quantum (R495, R505). -/
def entryDone (s : Dev) (o : Operation) (v : ServiceOp) (x : EntryOut) : Dev :=
  ((s.countEntry (homeDie o.queue) (iOpcode o.word) v x).modOp o.slot fun o => { o with
    written := o.written ++ [v.next], body := .service { v with next := v.next + 1, finished := v.units ≤ v.next + 1 } }).takeQuantum
    (homeDie o.queue) (serviceEngine (iOpcode o.word)) (if iOpcode o.word = 0x52 then x.out.length else x.bytesIn)

theorem workUnit_of_written {bytes : List Byte} (hmh : v.mh = none) (hr : (s.readVa (s.channelPort o) (v.inp.base + 32 * v.next) 32).2 = .ok bytes)
    (hx : ((s.readVa (s.channelPort o) (v.inp.base + 32 * v.next) 32).1.performEntry o v (leNat bytes)).2 = .ok x) {w : Dev × Fetch Unit}
    (hw : ((s.readVa (s.channelPort o) (v.inp.base + 32 * v.next) 32).1.performEntry o v (leNat bytes)).1.writeSets (s.channelPort o)
      (entrySets o v (leNat bytes) x) = w) (hok : w.2 = .ok ()) : s.workUnit o v = w.1.entryDone o v x := by
  have hresult : resultBytes x.status (if x.status = 0 then x.count else 0) (if x.status = 0 then x.out.length else 0)
      = if x.status = 0 then resultBytes 0 x.count x.out.length else resultBytes x.status 0 0 := by
    split
    · next h => rw [h]
    · rfl
  unfold workUnit
  dsimp only
  generalize s.readVa (s.channelPort o) (v.inp.base + 32 * v.next) 32 = r at hr hx hw
  obtain ⟨a, y⟩ := r
  cases hr
  dsimp only at hx hw ⊢
  generalize a.performEntry o v (leNat bytes) = r at hx hw
  obtain ⟨b, z⟩ := r
  cases hx
  dsimp only at hw ⊢
  rw [hmh, hresult]
  change b.writeSets (s.channelPort o) ([(v.out, iOpcode o.word = 0x50 && v.option = 0, wOff (leNat bytes), x.out)] ++ [] ++ _) = w at hw
  rw [Option.toList_none, List.map_nil, hw]
  obtain ⟨c, z⟩ := w
  cases hok
  unfold entryDone
  rw [hmh]
  rfl

theorem serviceUnit_of_served {slot : SlotId} {ok : Nat → Bool} {f : Dev → Operation → ServiceOp → Dev} (ho : s.op slot = some o)
    (hv : o.body = .service v) (hc : ok (iOpcode o.word) = true) (hg : o.goes = true) (hf : v.finished = false)
    (he : (s.engine (engineIdx (homeDie o.queue) (serviceEngine (iOpcode o.word)))).channel = some (s.queue o.queue).channel)
    (ht : s.turnQuantum (homeDie o.queue) (serviceEngine (iOpcode o.word)) 0 = s) : s.serviceUnit slot ok f = f s o v := by
  unfold serviceUnit
  rw [ho]
  dsimp only
  rw [hv]
  dsimp only
  rw [ht]
  exact if_pos (by simp [hc, hg, hf, he])

theorem memStep_countEntry (s : Dev) (d : Die) (code : Nat) (v : ServiceOp) (e : EntryOut) : s.memStep (s.countEntry d code v e) := by
  unfold countEntry
  dsimp only
  have hstatus (u : Dev) : u.memStep (if e.status = 0 then u else u.bump 6 0x108 d.val 1) := memStep_ite (memStep_refl u) (memStep_bump ..)
  have hbusy (c n : Nat) : s.memStep (if e.status = 0 then s.busyEngine d c n else (s.busyEngine d c n).bump 6 0x108 d.val 1) :=
    memStep_trans (memStep_bump ..) (hstatus _)
  split
  · exact memStep_trans (hbusy ..) (memStep_bump ..)
  · exact memStep_trans (memStep_trans (hbusy ..) (memStep_bump ..)) (memStep_bump ..)
  · exact memStep_trans (memStep_trans (hbusy ..) (memStep_bump ..)) (memStep_bump ..)

theorem enginesOnly.op {k : SlotId} (h : s.enginesOnly t) : t.op k = s.op k := by rw [h]; rfl
theorem enginesOnly.mem (h : s.enginesOnly t) : t.mem = s.mem := by rw [h]

theorem mem_countEntry (s : Dev) (d : Die) (code : Nat) (v : ServiceOp) (e : EntryOut) : (s.countEntry d code v e).mem = s.mem := by
  unfold countEntry
  dsimp only
  split <;> split <;> rfl

theorem mem_entryDone : (s.entryDone o v x).mem = s.mem := (enginesOnly_takeQuantum ..).mem.trans (mem_countEntry ..)

theorem op_entryDone {o' : Operation} (ho : s.op o.slot = some o') : (s.entryDone o v x).op o.slot = some { o' with
    written := o'.written ++ [v.next], body := .service { v with next := v.next + 1, finished := v.units ≤ v.next + 1 } } :=
  (enginesOnly_takeQuantum ..).op.trans ((op_modOp _ o.slot fun _ => by rfl).trans
    (congrArg _ ((memStep_op (memStep_countEntry ..) _).trans ho)))

end

end Dev

/-- A work entry whose output and result are written counts as the next unit of its operation (R505, R506). -/
theorem workEntry_counts {s : State} {o : Operation} {v : ServiceOp} {bytes : List Byte} {x : EntryOut} (ho : s.op o.slot = some o)
    (hv : o.body = .service v) (hc : iOpcode o.word = 0x50 ∨ iOpcode o.word = 0x51 ∨ iOpcode o.word = 0x52 ∨ iOpcode o.word = 0x53)
    (hg : o.goes = true) (hf : v.finished = false) (hmh : v.mh = none)
    (he : (s.engine (engineIdx (homeDie o.queue) (serviceEngine (iOpcode o.word)))).channel = some (s.queue o.queue).channel)
    (ht : s.turnQuantum (homeDie o.queue) (serviceEngine (iOpcode o.word)) 0 = s.toDev)
    (hr : (s.readVa (s.channelPort o) (v.inp.base + 32 * v.next) 32).2 = .ok bytes)
    (hx : ((s.readVa (s.channelPort o) (v.inp.base + 32 * v.next) 32).1.performEntry o v (leNat bytes)).2 = .ok x) {w : Dev × Fetch Unit}
    (hw : ((s.readVa (s.channelPort o) (v.inp.base + 32 * v.next) 32).1.performEntry o v (leNat bytes)).1.writeSets (s.channelPort o)
      (Dev.entrySets o v (leNat bytes) x) = w) (hok : w.2 = .ok ()) :
    ∃ u, exec (.workEntryDone o.slot) s = .next u ∧ u.mem = w.1.mem ∧ s.sameBeyond u ∧ u.op o.slot = some { o with
      written := o.written ++ [v.next], body := .service { v with next := v.next + 1, finished := v.units ≤ v.next + 1 } } := by
  have hread := Dev.memStep_trans (Dev.memStep_readVa s.toDev (s.channelPort o) rfl (v.inp.base + 32 * v.next) 32)
    (Dev.memStep_trans (Dev.memStep_performEntry _ o v (leNat bytes)) (hw ▸ Dev.memStep_writeSets ..))
  refine ⟨{ s with toDev := w.1.entryDone o v x }, exec_eq_next rfl ?_, Dev.mem_entryDone, ⟨rfl, rfl, rfl, rfl⟩,
    Dev.op_entryDone ((Dev.memStep_op hread _).trans ho)⟩
  exact (Dev.serviceUnit_of_served ho hv (by simpa [or_assoc] using hc) hg hf he ht).trans (Dev.workUnit_of_written hmh hr hx hw hok)

/-- Settles O42: the rotation by the first turn of a list (`foldl_sooner`), a quantum by `serveNext`, and a work entry by what its reads and writes
leave of its operation. That the bytes of a quantum are taken when an entry is written is log entry 89. -/
theorem serviceSteps : Obligations.ServiceSteps := by
  unfold Obligations.ServiceSteps
  refine ⟨fun last l _ => ⟨fun hl => by rw [hl]; rfl, nextChannel_spec⟩, fun sv code taken s => ?_,
    fun slot s o v bytes x ho hv hc hb hst hf hab hfin hmh he hq hready hr hx hok => ?_⟩
  · intro die i e moves
    have hmoves (h : s.turnQuantum die code.val taken = s.serveNext die code.val) : moves := by
      obtain ⟨u, hexec, hnone, hsome, hother, hrest⟩ := quantumEnd_serves rfl h
      refine ⟨u, hexec, ?_, hother, hrest⟩
      split
      · next hn => exact hnone hn
      · next hn => exact hsome _ hn
    exact ⟨fun h => hmoves (Dev.turnQuantum_of_idle h), fun c h ho => hmoves (Dev.turnQuantum_of_over h ho),
      fun c h hlt hin => exec_eq_next rfl (Dev.turnQuantum_of_more h hlt hin)⟩
  · obtain rfl : o.slot = slot := by simpa using List.find?_some ho
    exact workEntry_counts ho hv hc (by simp [Operation.goes, hb, hst, hf, hab]) hfin hmh he (Dev.turnQuantum_of_more he hq hready) hr hx rfl hok
end Sys2Proof.Machine
end

section
/-! PROOFS. Proofs/MemoryUpkeep.lean: write-combining drains, scrubs, parity errors and margining (O39). -/

namespace Sys2Proof.Machine

/-! A line written to DRAM and read again (R376, R523, R524). -/

theorem Table.get_setRange_below {α : Type} [DecidableEq α] (d : α) (vs : List α) (t : Table α) {k i : Nat} (h : i < k) :
    Table.get d (Table.setRange d t k vs) i = Table.get d t i := by
  induction vs generalizing t k with
  | nil => rfl
  | cons v vs ih =>
    unfold Table.setRange
    rw [ih _ (by omega), Table.get_set_ne d t v (by omega)]

theorem Table.get_setRange {α : Type} [DecidableEq α] (d : α) (vs : List α) (t : Table α) (k i : Nat) (h : i < vs.length) :
    Table.get d (Table.setRange d t k vs) (k + i) = vs[i] := by
  induction vs generalizing t k i with
  | nil => exact absurd h (Nat.not_lt_zero i)
  | cons v vs ih =>
    unfold Table.setRange
    cases i with
    | zero => exact (Table.get_setRange_below d vs _ (Nat.lt_add_one k)).trans (Table.get_set_same d t k v)
    | succ i =>
      have hi : i < vs.length := by simpa using h
      rw [show k + (i + 1) = k + 1 + i by omega, ih _ (k + 1) i hi]
      rfl

theorem Table.getRange_setRange {α : Type} [DecidableEq α] (d : α) (vs : List α) (t : Table α) (k : Nat) :
    Table.getRange d (Table.setRange d t k vs) k vs.length = vs := by
  refine List.ext_getElem (by simp [Table.getRange]) fun i hi hi' => ?_
  simp only [Table.getRange, List.getElem_map, List.getElem_range]
  exact Table.get_setRange d vs t k i hi'

theorem length_zeroLine : zeroLine.length = 128 := List.length_replicate

/-- Merging under the mask of a whole line gives what is merged in. -/
theorem mergeMask_full {new old : LineData} (hn : new.length = 128) (ho : old.length = 128) : mergeMask fullMask new old = new := by
  refine List.ext_getElem (by simp [mergeMask, hn, ho]) fun i hi hi' => ?_
  have hbit : bit fullMask i = true := by
    rw [bit, fullMask, Nat.testBit_two_pow_sub_one]
    exact decide_eq_true (by omega)
  simp [mergeMask, hbit, hi']

namespace Dev

variable {s t u : Dev}

theorem dramData_dramWrite (s : Dev) (tag : LineTag) {d : LineData} (p : Bool) (hd : d.length = 128) : (s.dramWrite tag d p).dramData tag = d := by
  have hkey : (s.dramWrite tag d p).writtenKey tag = (s.dramWrite tag d p).keyOf tag := by
    have hget : Table.get 0 (s.dramWrite tag d p).mem.dramKey (tagLoc tag / 128) = if s.keyOf tag = s.mem.initKey then 0 else s.keyOf tag + 1 :=
      Table.get_set_same ..
    unfold writtenKey
    dsimp only
    rw [hget]
    by_cases hk : s.keyOf tag = s.mem.initKey
    · rw [if_pos hk, if_pos rfl]
      exact hk.symm
    · rw [if_neg hk, if_neg (by omega)]
      rfl
  rw [dramData, if_pos hkey]
  have hrange := Table.getRange_setRange 0 d s.mem.dram (tagLoc tag)
  rw [hd] at hrange
  have htake : d.take 128 = d := List.take_of_length_le (by omega)
  refine Eq.trans ?_ hrange
  exact congrArg (fun x => Table.getRange 0 (Table.setRange 0 s.mem.dram (tagLoc tag) x) (tagLoc tag) 128) htake

theorem dramPoisoned_dramWrite (s : Dev) (tag : LineTag) (d : LineData) (p : Bool) : (s.dramWrite tag d p).dramPoisoned tag = p := Table.get_set_same ..

/-- From s to t at most counters have changed. -/
def countersOnly (s t : Dev) : Prop := t = { s with obj := t.obj }

theorem countersOnly_bump (s : Dev) (a b c n : Nat) : s.countersOnly (s.bump a b c n) := rfl

theorem countersOnly.trans (h1 : s.countersOnly t) (h2 : t.countersOnly u) : s.countersOnly u := by
  rw [countersOnly, h2, h1]

theorem readError_of_few {n : Nat} (h : n < 3) (s : Dev) : s.readError (some n) = (s, ⟨n, none⟩) := by
  unfold readError
  split
  · next he _ => cases he; rfl
  · next he _ => cases he
  · next he _ => cases he; rw [if_pos h]
  · next he _ => cases he

/-- A DRAM read that meets fewer than three symbol errors gives what is stored, and is counted (R376, R379). -/
theorem dramReadBy_of_few (rep : Dev → LineTag → Nat → Dev) (s : Dev) (tag : LineTag) {err : Nat} (h : err < 3) (n : Nat) :
    ∃ u, dramReadBy rep s tag (some err) n = (u, s.dramData tag, s.dramPoisoned tag) ∧ s.countersOnly u := by
  unfold dramReadBy
  dsimp only
  rw [readError_of_few h]
  dsimp only
  cases hp : s.dramPoisoned tag with
  | true =>
    rw [show decodeLine true err = .poisoned by rw [decodeLine, if_pos rfl, if_pos (by omega)]]
    exact ⟨_, rfl, rfl⟩
  | false =>
    by_cases h0 : err = 0
    · rw [show decodeLine false err = .right by rw [decodeLine, if_neg (by decide), if_pos h0]]
      exact ⟨_, rfl, countersOnly_bump ..⟩
    · rw [show decodeLine false err = .corrected by rw [decodeLine, if_neg (by decide), if_neg h0, if_pos (by omega)]]
      exact ⟨_, rfl, ((countersOnly_bump ..).trans (countersOnly_bump ..)).trans (countersOnly_bump ..)⟩

/-! Draining a write-combining line (R383, R385). -/

theorem wcbDrain_of_whole {tag : LineTag} {w : WcbLine} (hw : s.wcbLine tag = some w) (hwh : w.whole = true) (g : Option Nat) (idx : Nat) :
    s.wcbDrain tag g idx = s.wcbDrainWith tag w zeroLine (s.dramPoisoned tag) idx := by
  unfold wcbDrain wcbDrainBy
  rw [hw]
  exact if_pos hwh

theorem wcbDrain_of_part {tag : LineTag} {w : WcbLine} (hw : s.wcbLine tag = some w) (hwh : w.whole = false) (g : Option Nat) (idx : Nat) :
    s.wcbDrain tag g idx = (s.dramRead tag g 2).1.wcbDrainWith tag w (s.dramRead tag g 2).2.1 (s.dramRead tag g 2).2.2 idx := by
  unfold wcbDrain wcbDrainBy
  rw [hw]
  exact if_neg (by simp [hwh])

theorem dramData_wcbDrainWith (s : Dev) (tag : LineTag) (w : WcbLine) {base : LineData} (p : Bool) (idx : Nat) (hb : base.length = 128) :
    (s.wcbDrainWith tag w base p idx).dramData tag = mergeMask w.mask w.data base := by
  unfold wcbDrainWith
  exact dramData_dramWrite _ tag p (by simp [mergeMask, hb])

theorem dramPoisoned_wcbDrainWith (s : Dev) (tag : LineTag) (w : WcbLine) (base : LineData) (p : Bool) (idx : Nat) :
    (s.wcbDrainWith tag w base p idx).dramPoisoned tag = p := dramPoisoned_dramWrite ..

end Dev

section
variable {tag : LineTag} {err : Nat} {s : State} {w : WcbLine}

theorem wcbDrain_of_aged (hw : s.wcbLine tag = some w) (ha : w.since.toNat + 2000 ≤ s.now.toNat) :
    exec (.wcbDrain tag err) s = .next { s with toDev := s.wcbDrain tag (some err) 0x112 } := by
  refine exec_eq_next rfl ?_
  dsimp only
  rw [hw]
  dsimp only
  rw [if_pos (by simp [ha]), if_pos ha]

theorem wcbDrain_of_young (hw : s.wcbLine tag = some w) (ha : s.now.toNat < w.since.toNat + 2000)
    (hroom : (present (s.hub (s.hubOf (tagLoc tag))).wcb).length < 512) : exec (.wcbDrain tag err) s = .next s := by
  refine exec_eq_next rfl ?_
  dsimp only
  rw [hw]
  dsimp only
  rw [decide_eq_false (by omega : ¬(w.since.toNat + 2000 ≤ s.now.toNat)), decide_eq_false (by omega : ¬(512 ≤ (present (s.hub (s.hubOf (tagLoc tag))).wcb).length))]
  rfl

theorem wcbDrain_whole (hw : s.wcbLine tag = some w) (ha : w.since.toNat + 2000 ≤ s.now.toNat) (hwh : w.whole = true) (hl : w.data.length = 128) :
    ∃ u, exec (.wcbDrain tag err) s = .next u ∧ u.wcbLine tag = none ∧ u.dramData tag = w.data
      ∧ u.dramPoisoned tag = s.dramPoisoned tag ∧ s.onlyMem u := by
  have hmask : w.mask = fullMask := by
    unfold WcbLine.whole at hwh
    simp only [Bool.and_eq_true, decide_eq_true_eq] at hwh
    exact hwh.1
  refine ⟨_, wcbDrain_of_aged hw ha, Dev.wcbLine_wcbDrain _ _ _ (by decide), ?_, ?_, ?_⟩ <;> dsimp only [State.onlyMem] <;>
    rw [Dev.wcbDrain_of_whole hw hwh]
  · rw [Dev.dramData_wcbDrainWith _ _ _ _ _ length_zeroLine, hmask, mergeMask_full hl length_zeroLine]
  · exact Dev.dramPoisoned_wcbDrainWith ..
  · rfl

theorem wcbDrain_part (hw : s.wcbLine tag = some w) (ha : w.since.toNat + 2000 ≤ s.now.toNat) (hwh : w.whole = false) (he : err < 3)
    (hl : (s.dramData tag).length = 128) : ∃ u, exec (.wcbDrain tag err) s = .next u ∧ u.wcbLine tag = none
      ∧ u.dramData tag = mergeMask w.mask w.data (s.dramData tag) ∧ u.dramPoisoned tag = s.dramPoisoned tag ∧ s.onlyMem u := by
  obtain ⟨u, hu, hcount⟩ := Dev.dramReadBy_of_few Dev.reportDram s.toDev tag he 2
  refine ⟨_, wcbDrain_of_aged hw ha, Dev.wcbLine_wcbDrain _ _ _ (by decide), ?_, ?_, ?_⟩ <;> dsimp only [State.onlyMem] <;>
    rw [Dev.wcbDrain_of_part hw hwh, show s.dramRead tag (some err) 2 = _ from hu]
  · exact Dev.dramData_wcbDrainWith _ _ _ _ _ hl
  · exact Dev.dramPoisoned_wcbDrainWith ..
  · dsimp only
    rw [hcount]
    rfl

end

/-! The patrol scrub (R379). -/

namespace Dev

variable {s t u : Dev}

/-- The scrubber of a hub reads its next line (R379). -/
def scrubbedNext (s : Dev) (h : HubId) (err : Nat) : Dev :=
  (s.dramRead (s.scrubLine h (s.hub h).scrubPos) (some err) 1).1.modHub h fun y => { y with scrubPos := (s.hub h).scrubPos + 1 }

theorem patrolScrub_eq {h : HubId} {err : Nat} {s : State} (hp : (s.hub h).scrubPos + 1 < 2 ^ 32) :
    exec (.patrolScrub h err) s = .next { s with toDev := s.scrubbedNext h err } := by
  refine exec_eq_next rfl ?_
  have hdone : ¬2 ^ 32 ≤ (s.hub h).scrubPos + 1 := by omega
  dsimp only
  rw [if_neg (by simpa using hdone)]
  simp only [hdone]
  rfl

theorem scrubPos_scrubbedNext (s : Dev) (h : HubId) (err : Nat) : ((s.scrubbedNext h err).hub h).scrubPos = (s.hub h).scrubPos + 1 := by
  rw [scrubbedNext, modHub, hub_setHub, if_pos rfl]

theorem memStep_scrubbedNext (s : Dev) (h : HubId) (err : Nat) : s.memStep (s.scrubbedNext h err) :=
  memStep_trans (memStep_dramRead ..) (memStep_modHub ..)

theorem scrubbedNext_of_few (s : Dev) (h : HubId) {err : Nat} (he : err < 3) :
    (s.scrubbedNext h err).mem.dram = s.mem.dram ∧ s.scrubbedNext h err = { s with mem := (s.scrubbedNext h err).mem, obj := (s.scrubbedNext h err).obj } := by
  obtain ⟨u, hu, hcount⟩ := dramReadBy_of_few reportDram s (s.scrubLine h (s.hub h).scrubPos) he 1
  rw [scrubbedNext, dramRead, hu, hcount]
  exact ⟨rfl, rfl⟩

/-! A parity error (R396). -/

/-- A cache that finds an entry free for a request takes it (R331). -/
theorem takeEntry_of_free {a : Agent} {tag : LineTag} {who : Nat}
    (h : (s.entryAhead a who).length < min (s.entriesFree a tag).1 (s.entriesFree a tag).2) : s.takeEntry a who tag
      = (s.modAgent a fun x => if x.entryWait.any (fun e => e.1 = who)
          then { x with entryWait := x.entryWait.filter (· ≠ (who, tag)), entryLast := who } else x, true) := by
  unfold takeEntry
  dsimp only
  rw [if_pos h]

/-- From s to t no more has changed than the memory system and counters. -/
def memOnly (s t : Dev) : Prop := t = { s with mem := t.mem, obj := t.obj }

theorem memOnly.refl (s : Dev) : s.memOnly s := rfl

theorem memOnly.trans (h1 : s.memOnly t) (h2 : t.memOnly u) : s.memOnly u := by
  rw [memOnly, h2, h1]

theorem memOnly_bump (s : Dev) (a b c n : Nat) : s.memOnly (s.bump a b c n) := rfl
theorem memOnly_modAgent (s : Dev) (a : Agent) (f : CacheAgent → CacheAgent) : s.memOnly (s.modAgent a f) := rfl
theorem memOnly_modMem (s : Dev) (f : MemState → MemState) : s.memOnly (s.modMem f) := rfl

theorem memOnly_ite {c : Prop} [Decidable c] (h1 : s.memOnly t) (h2 : s.memOnly u) : s.memOnly (if c then t else u) := by
  split <;> assumption

theorem memOnly.onlyMem {s : State} {t : Dev} (h : s.toDev.memOnly t) : s.onlyMem { s with toDev := t } :=
  congrArg (fun d : Dev => ({ s with toDev := d } : State)) h

theorem agent_modAgent (s : Dev) (a a2 : Agent) (f : CacheAgent → CacheAgent) :
    (s.modAgent a f).agent a2 = if a2 = a then f (s.agent a) else s.agent a2 := agent_setAgent ..

/-- What taking an entry makes of an agent. -/
def entryTaken (x : CacheAgent) (who : Nat) (tag : LineTag) : CacheAgent :=
  if x.entryWait.any (fun e => e.1 = who) then { x with entryWait := x.entryWait.filter (· ≠ (who, tag)), entryLast := who } else x

theorem lines_entryTaken (x : CacheAgent) (who : Nat) (tag : LineTag) : (entryTaken x who tag).lines = x.lines := by
  unfold entryTaken
  split <;> rfl

/-- A request that finds an entry is on its way to its line's home, and its agent waits for the answer (R331, R403). -/
theorem ask_of_entryFor {a : Agent} {tag : LineTag} {w : Waiting} (h : s.entryFor a tag) :
    s.memOnly (s.ask a tag w) ∧ (s.ask a tag w).waitingAt a tag = some w ∧ w.request a tag ∈ (s.ask a tag w).mem.msgs
      ∧ ∀ a2 t2, (s.ask a tag w).lineAt a2 t2 = s.lineAt a2 t2 := by
  have hask : ∃ v : Dev, s.memOnly v ∧ (∀ a2 t2, v.lineAt a2 t2 = s.lineAt a2 t2) ∧ s.ask a tag w = (v.setWaiting a tag (some w)).send (w.request a tag) := by
    unfold ask
    rw [if_neg (by rw [h.1]; decide), takeEntry_of_free h.2]
    have hlines (a2 : Agent) (t2 : LineTag) : (s.modAgent a (entryTaken · localNo tag)).lineAt a2 t2 = s.lineAt a2 t2 := by
      rw [lineAt, agent_modAgent]
      split
      · next he => rw [lines_entryTaken, he]; rfl
      · rfl
    refine ⟨_, ?_, ?_, rfl⟩
    · exact memOnly_ite (memOnly.trans (memOnly_modAgent ..) (memOnly_bump ..)) (memOnly_modAgent ..)
    · intro a2 t2
      exact (apply_ite (fun u : Dev => u.lineAt a2 t2) ..).trans ((ite_self _).trans (hlines a2 t2))
  obtain ⟨v, hv, hl, heq⟩ := hask
  rw [heq]
  refine ⟨hv.trans rfl, ?_, List.mem_append_right _ List.mem_cons_self, fun a2 t2 => ?_⟩
  · have hagent := v.agent_modAgent a a fun x => { x with waiting := Table.set none x.waiting tag (some w) }
    rw [if_pos rfl] at hagent
    refine (congrArg (fun x : CacheAgent => Table.get none x.waiting tag) hagent).trans ?_
    dsimp only
    rw [Table.get_set_same]
  · rw [← hl]
    have hagent := v.agent_modAgent a a2 fun x => { x with waiting := Table.set none x.waiting tag (some w) }
    refine (congrArg (fun x : CacheAgent => Table.get none x.lines t2) hagent).trans ?_
    split
    · next he => rw [he]; rfl
    · rfl

theorem lineAt_setLine_same (s : Dev) (a : Agent) (tag : LineTag) (l : Option CacheLine) : (s.setLine a tag l).lineAt a tag = l := by
  rw [lineAt_setLine, if_pos ⟨rfl, rfl⟩]

end Dev

/-- A clean line that its cache has lost is asked for again (R396). -/
theorem parityError_clean {a : Agent} {tag : LineTag} {l : CacheLine} {s : State} (hl : s.lineAt a tag = some l) (hst : l.st = .e ∨ l.st = .s)
    (hw : s.waitingAt a tag = none) (he : (s.toDev.setLine a tag none).entryFor a tag) :
    ∃ u, exec (.parityError (.dataL2 a tag)) s = .next u ∧ u.lineAt a tag = none ∧ (∃ h, u.waitingAt a tag = some (.forShared h))
      ∧ .readShared a tag ∈ u.mem.msgs ∧ s.onlyMem u := by
  generalize hb : (if a.val < 8 then s.toDev.bump 8 0x103 a.val 1 else s.toDev) = b
  have hcount : s.toDev.countersOnly b := by
    rw [← hb]
    split
    · exact Dev.countersOnly_bump ..
    · rfl
  have hwaits : b.waitingAt a tag = none := by
    rw [hcount]
    exact hw
  have hfor : (b.setLine a tag none).entryFor a tag := by
    rw [hcount]
    exact he
  obtain ⟨honly, hwaiting, hmsg, hline⟩ := Dev.ask_of_entryFor (w := .forShared (if l.retained then 2 else 0)) hfor
  have hexec : exec (.parityError (.dataL2 a tag)) s = .next { s with toDev := b.refetch a tag l } := by
    refine exec_eq_next rfl ?_
    dsimp only
    rw [hl]
    dsimp only
    rw [if_pos (by simpa using hst), hb, if_neg (by rw [hwaits]; decide)]
  refine ⟨_, hexec, (hline a tag).trans (Dev.lineAt_setLine_same ..), ⟨_, hwaiting⟩, hmsg, Dev.memOnly.onlyMem ?_⟩
  refine Dev.memOnly.trans ?_ honly
  rw [hcount]
  rfl

namespace Dev

variable {s t u : Dev}

/-- From s to t no agent's line has changed. -/
def sameLines (s t : Dev) : Prop := ∀ a tag, t.lineAt a tag = s.lineAt a tag

theorem dramPoisoned_dramSetPoison (s : Dev) (tag : LineTag) : (s.dramSetPoison tag).dramPoisoned tag = true :=
  Table.get_set_same false s.mem.dramPoison (tagLoc tag / 128) true

/-- A home's directory entry of a line is marked poisoned, if it has one (R415). -/
def dirMarked (s : Dev) (tag : LineTag) : Dev :=
  match s.dirOf tag with
  | some d => s.setDir tag (some { d with poison := true })
  | none => s

/-- A home's L3 line is marked poisoned, if it has one (R415). -/
def l3Marked (s : Dev) (tag : LineTag) : Dev :=
  match s.l3Line tag with
  | some l => s.setL3 tag (some { l with poison := true })
  | none => s

theorem poisonHome_eq (s : Dev) (tag : LineTag) : s.poisonHome tag
    = ((((s.bump 8 0x118 (hubDie (s.hubOf (tagLoc tag))) 1).dirMarked tag).l3Marked tag).dramSetPoison tag) := rfl

theorem dirMarked_spec (s : Dev) (tag : LineTag) : s.memOnly (s.dirMarked tag) ∧ s.sameLines (s.dirMarked tag) := by
  unfold dirMarked
  split <;> exact ⟨rfl, fun _ _ => rfl⟩

theorem l3Marked_spec (s : Dev) (tag : LineTag) : s.memOnly (s.l3Marked tag) ∧ s.sameLines (s.l3Marked tag) := by
  unfold l3Marked
  split <;> exact ⟨rfl, fun _ _ => rfl⟩

/-- A home marks a line poisoned, and no more than the memory system and counters change (R396, R415). -/
theorem poisonHome_spec (s : Dev) (tag : LineTag) :
    s.memOnly (s.poisonHome tag) ∧ (s.poisonHome tag).dramPoisoned tag = true ∧ s.sameLines (s.poisonHome tag) := by
  rw [poisonHome_eq]
  generalize hb : s.bump 8 0x118 (hubDie (s.hubOf (tagLoc tag))) 1 = b
  obtain ⟨hdir, hdirLines⟩ := b.dirMarked_spec tag
  obtain ⟨hl3, hl3Lines⟩ := (b.dirMarked tag).l3Marked_spec tag
  refine ⟨(hb ▸ (memOnly_bump ..) : s.memOnly b).trans (hdir.trans (hl3.trans (memOnly_modMem ..))), dramPoisoned_dramSetPoison .., fun a t2 => ?_⟩
  exact (hl3Lines a t2).trans ((hdirLines a t2).trans (hb ▸ rfl))

/-- A fault queue that is off drops what is reported to it (R479). -/
theorem report_of_off {d : Die} {f : RecFields} (hf : f.cls ≠ .fatal) (hoff : (s.mmu (mmuOf d)).fqEn = false) :
    s.report d f = s.dropRecord (mmuOf d) := by
  unfold report reportTo
  dsimp only
  rw [if_neg (show (s.mkRecord d.val f).cls ≠ .fatal from hf), if_pos (by rw [hoff]; rfl)]

end Dev

/-- A dirty line that its cache has lost is poisoned, in the cache and at its home (R396, R415). -/
theorem parityError_dirty {a : Agent} {tag : LineTag} {l : CacheLine} {s : State} (hl : s.lineAt a tag = some l) (hst : l.st = .m ∨ l.st = .o)
    (hoff : ∀ m, (s.mmu m).fqEn = false) : ∃ u, exec (.parityError (.dataL2 a tag)) s = .next u
      ∧ u.lineAt a tag = some { l with poison := true, written := 0 } ∧ u.dramPoisoned tag = true ∧ u = { s with mem := u.mem, obj := u.obj, xl := u.xl } := by
  generalize hb : (if a.val < 8 then s.toDev.bump 8 0x104 a.val 1 else s.toDev) = b
  have hcount : s.toDev.memOnly b := by
    rw [← hb]
    exact Dev.memOnly_ite (Dev.memOnly_bump ..) (.refl _)
  obtain ⟨honly, hpoison, hlines⟩ := Dev.poisonHome_spec (b.setLine a tag (some { l with poison := true, written := 0 })) tag
  generalize hc : (b.setLine a tag (some { l with poison := true, written := 0 })).poisonHome tag = c at honly hpoison hlines
  have hmem : s.toDev.memOnly c := (hcount.trans (Dev.memOnly_modAgent ..)).trans honly
  have hline : c.lineAt a tag = some { l with poison := true, written := 0 } := (hlines a tag).trans (Dev.lineAt_setLine_same ..)
  have hexec : exec (.parityError (.dataL2 a tag)) s = .next { s with toDev := c.dropRecord (mmuOf (agentDie a)) } := by
    refine exec_eq_next rfl ?_
    dsimp only
    rw [hl]
    dsimp only
    rw [if_neg (by rcases hst with h | h <;> rw [h] <;> decide), hb, hc]
    exact Dev.report_of_off nofun (by rw [hmem]; exact hoff _)
  refine ⟨_, hexec, hline, hpoison, ?_⟩
  rw [hmem]
  rfl

/-! Margining (R386, R387). -/

theorem marginRun_refused {v : Byte} {s : State} (h : s.objAt 0x0C 0x400 0 ≠ 3) :
    ∃ u, exec (.marginRun v) s = .next u ∧ u.objAt 7 0x303 0 = 3 ∧ u = { s with obj := u.obj } := by
  refine ⟨{ s with toDev := s.toDev.setObjAt 7 0x303 0 3 }, exec_eq_next rfl ?_, Dev.objAt_setObjAt_same .., rfl⟩
  exact if_pos (by simp [Dev.bringUp, h])

theorem marginRun_begins {s : State} (h : s.objAt 0x0C 0x400 0 = 3) :
    ∃ u, exec (.marginRun 1) s = .next u ∧ u.objAt 7 0x303 0 = 1 ∧ u = { s with obj := u.obj } := by
  refine ⟨{ s with toDev := s.toDev.setObjAt 7 0x303 0 1 }, exec_eq_next rfl ?_, Dev.objAt_setObjAt_same .., rfl⟩
  dsimp only
  rw [if_neg (by simp [Dev.bringUp, h]), if_pos rfl]

/-- What the end of a sweep leaves: its edges, and DRAM under a key that is drawn (R387; log entry 37). -/
def Dev.marginSwept (s : Dev) (edges : List (Int × Int)) : Dev :=
  (s.freshNat.1.modMem fun m => { m with margin := edges, dram := [], dramKey := [], initKey := s.fresh + 1, dramPoison := [] }).setObjAt 7 0x303 0 2

theorem marginSweep_ends {edges : List (Int × Int)} {s : State} (hl : edges.length = 18) (h : s.objAt 7 0x303 0 = 1) :
    ∃ u, exec (.marginSweepDone edges) s = .next u
      ∧ u.mem = { s.mem with margin := edges, dram := [], dramKey := [], initKey := u.mem.initKey, dramPoison := [] } ∧ u.objAt 7 0x303 0 = 2
      ∧ u = { s with mem := u.mem, obj := u.obj, fresh := u.fresh } := by
  refine ⟨{ s with toDev := s.toDev.marginSwept edges }, exec_eq_next rfl ?_, rfl, Dev.objAt_setObjAt_same .., rfl⟩
  exact if_pos (by simp [h, hl])

/-- Settles O39: what a drain leaves in DRAM (`dramData_dramWrite`), and the scrub, the parity errors and the margining by their cases. That the
scrub goes in ascending order and that a sweep loses all of DRAM under a drawn key is log entry 37. -/
theorem memoryUpkeep : Obligations.MemoryUpkeep := by
  unfold Obligations.MemoryUpkeep
  refine ⟨fun tag err s => ⟨fun hw => exec_eq_next rfl ?_, fun w hw ha hr => wcbDrain_of_young hw ha hr,
      fun w hw ha _ => ⟨fun hwh hl => wcbDrain_whole hw ha hwh hl, fun hwh he hl => wcbDrain_part hw ha hwh he hl⟩⟩,
    fun h err s hp => ⟨_, Dev.patrolScrub_eq hp, Dev.scrubPos_scrubbedNext .., ⟨Dev.memStep_scrubbedNext .., rfl, rfl, rfl, rfl⟩, fun he => ?_⟩,
    fun a tag l s hl => ⟨fun hst hw he => parityError_clean hl hst hw he, fun hst hoff => parityError_dirty hl hst hoff⟩,
    fun d s => rfl, fun v s => ⟨marginRun_refused, fun h hv => hv ▸ marginRun_begins h⟩, fun edges s hl h => marginSweep_ends hl h⟩
  · dsimp only
    rw [hw]
  · obtain ⟨hdram, honly⟩ := s.scrubbedNext_of_few h he
    exact ⟨hdram, Dev.memOnly.onlyMem honly⟩
end Sys2Proof.Machine
end

section
/-! PROOFS. Proofs/MemoryReach.lean: what the memory system's steps and its error records can reach. -/

namespace Sys2Proof.Machine

/-- From x to y a system MMU has at most taken records in. -/
def Mmu.recordsTo (x y : Mmu) : Prop := y = { x with fqTail := y.fqTail, fqDropped := y.fqDropped, holding := y.holding }

namespace Dev

variable {R : Dev → Dev → Prop} {rep : Dev → LineTag → Nat → Dev} {s t u : Dev}

/-- The counters of the memory system and of translation: those of subsystems 1 and 5 to 8. -/
structure countPlace (a b c : Nat) : Prop where
  subsystem : a = 1 ∨ 5 ≤ a ∧ a ≤ 8
  index : b < 2 ^ 12
  sub : c < 2 ^ 15

theorem countPlace.hub {a b : Nat} (h : HubId) (ha : 5 ≤ a ∧ a ≤ 8) (hb : b < 2 ^ 12) : countPlace a b (hubDie h) :=
  ⟨.inr ha, hb, by unfold hubDie; omega⟩

theorem countPlace.stack {b : Nat} (s : Dev) (tag : LineTag) (hb : b < 2 ^ 12) : countPlace 7 b (s.stackOf (tagLoc tag)) :=
  ⟨.inr (by decide), hb, stackOf_lt s tag⟩

/-- A relation of states that every step of the memory system keeps: one that holds whenever memory alone has changed, no DRAM error with it, or one
of its counters, and across a read of DRAM whose errors its command does not give. -/
structure memClosed (R : Dev → Dev → Prop) (rep : Dev → LineTag → Nat → Dev) : Prop where
  trans : ∀ {s t u : Dev}, R s t → R t u → R s u
  mem : ∀ {s t : Dev}, s.memOnly t → t.obj = s.obj → t.mem.dramErrors = s.mem.dramErrors → R s t
  count : ∀ (s : Dev) {a b c : Nat} (n : Nat), countPlace a b c → R s (s.bump a b c n)
  read : ∀ (s : Dev) (tag : LineTag) (n : Nat), R s (dramReadBy rep s tag none n).1

namespace memClosed

theorem ite (_ : memClosed R rep) {c : Prop} [Decidable c] (h1 : R s t) (h2 : R s u) : R s (if c then t else u) := by
  split <;> assumption

variable (h : memClosed R rep)
include h

theorem refl (s : Dev) : R s s := h.mem rfl rfl rfl

theorem foldl {α : Type} {f : Dev → α → Dev} (hf : ∀ (s : Dev) (a : α), R s (f s a)) (l : List α) (s : Dev) : R s (l.foldl f s) := by
  induction l generalizing s with
  | nil => exact h.refl s
  | cons a l ih => exact h.trans (hf s a) (ih _)

theorem stamp (s : Dev) : R s s.stamp.1 := h.mem rfl rfl rfl
theorem modHub (s : Dev) (x : HubId) (f : Hub → Hub) : R s (s.modHub x f) := h.mem rfl rfl rfl
theorem setLine (s : Dev) (a : Agent) (tag : LineTag) (l : Option CacheLine) : R s (s.setLine a tag l) := h.mem rfl rfl rfl
theorem setDir (s : Dev) (tag : LineTag) (d : Option DirEntry) : R s (s.setDir tag d) := h.modHub ..
theorem setL3 (s : Dev) (tag : LineTag) (l : Option L3Line) : R s (s.setL3 tag l) := h.modHub ..
theorem setWcb (s : Dev) (tag : LineTag) (w : Option WcbLine) : R s (s.setWcb tag w) := h.modHub ..
theorem setEvb (s : Dev) (a : Agent) (tag : LineTag) (e : Option EvbEntry) : R s (s.setEvb a tag e) := h.mem rfl rfl rfl
theorem dramWrite (s : Dev) (tag : LineTag) (d : LineData) (p : Bool) : R s (s.dramWrite tag d p) :=
  h.trans (h.mem (memOnly_modMem ..) rfl rfl) (h.count _ 1 (.stack s tag (by decide)))
theorem takeEpoch (s : Dev) (tag : LineTag) : R s (s.takeEpoch tag).1 := h.mem rfl rfl rfl

theorem wcbDrainWith (s : Dev) (tag : LineTag) (w : WcbLine) (b : LineData) (p : Bool) {idx : Nat} (hi : idx < 2 ^ 12) :
    R s (s.wcbDrainWith tag w b p idx) :=
  h.trans (h.setWcb ..) (h.trans (h.count _ _ (.hub _ (by decide) hi)) (h.dramWrite ..))

theorem wcbDrainBy (s : Dev) (tag : LineTag) {idx : Nat} (hi : idx < 2 ^ 12) : R s (Dev.wcbDrainBy rep s tag none idx) := by
  unfold Dev.wcbDrainBy
  split
  · exact h.refl s
  · exact h.ite (h.wcbDrainWith _ _ _ _ _ hi) (h.trans (h.read ..) (h.wcbDrainWith _ _ _ _ _ hi))

theorem homeWriteBy (s : Dev) (tag : LineTag) (off : Nat) (b : List Byte) (part by_ : Nat) : R s (Dev.homeWriteBy rep s tag off b part by_) := by
  unfold Dev.homeWriteBy
  dsimp only
  split
  · exact h.trans (h.count _ _ (.hub _ (by decide) (by decide))) (h.trans (h.stamp _) (h.setL3 ..))
  · refine h.trans (h.ite (t := match oldestWcb (s.hub (s.hubOf (tagLoc tag))) with
        | some (v, _) => Dev.wcbDrainBy rep s v none 0x113
        | none => s) ?_ (h.refl s)) (h.trans (h.stamp _) (h.trans (h.setWcb ..)
      (h.ite (h.wcbDrainWith _ _ _ _ _ (by decide)) (h.ite (h.wcbDrainBy _ _ (by decide)) (h.refl _)))))
    split
    · exact h.wcbDrainBy _ _ (by decide)
    · exact h.refl s

theorem l3Put (s : Dev) (tag : LineTag) (d : LineData) (y p : Bool) : R s (s.l3Put tag d y p) := by
  unfold Dev.l3Put
  refine h.trans ?_ (h.setL3 ..)
  refine h.ite (h.stamp s) ?_
  split
  · exact h.stamp s
  · exact h.trans (h.stamp s) (h.trans (h.ite (h.trans (h.dramWrite ..) (h.setWcb ..)) (h.refl _)) (h.setL3 ..))

theorem gatherHome (s : Dev) (tag : LineTag) : R s (s.gatherHome tag) := by
  unfold Dev.gatherHome
  refine h.trans (h.trans ?_ (h.foldl (fun s a => h.setLine s a tag none) _ _)) (h.setDir ..)
  split
  · exact h.l3Put ..
  · exact h.refl s

theorem dropSideOf (s : Dev) (tag : LineTag) (ds : List Nat) : R s (s.dropSideOf tag ds) := by
  unfold Dev.dropSideOf
  refine h.trans (h.foldl (fun s d => ?_) ds s) (h.mem (memOnly_modMem ..) rfl rfl)
  split
  · next hd =>
    have hlt : d < 8 := by
      by_contra hge
      rw [show s.mem.side.getD d [] = [] by simp [Vector.getD, hge]] at hd
      exact absurd hd (by simp [Table.get])
    exact h.count _ _ ⟨.inr (by decide), by decide, by omega⟩
  · exact h.refl s

theorem dropSide (s : Dev) (tag : LineTag) : R s (s.dropSide tag) := h.dropSideOf ..

theorem pushWriteBy (s : Dev) (tag : LineTag) (off : Nat) (b : List Byte) (part by_ : Nat) : R s (Dev.pushWriteBy rep s tag off b part by_) :=
  h.trans (h.gatherHome ..) (h.trans (h.dropSide ..) (h.homeWriteBy ..))

theorem pushAt (s : Dev) (tag : LineTag) (off : Nat) (b : List Byte) (die : Die) : R s (Dev.pushAt rep s tag off b die) := by
  unfold Dev.pushAt
  exact h.ite (h.refl s) (h.ite (h.modHub ..) (h.pushWriteBy ..))

theorem physWriteBy (s : Dev) (pa : Nat) (b : List Byte) (r : Bool) (die : Die) : R s (Dev.physWriteBy rep s pa b r die) := by
  have hfold (l : List (LineTag × Nat × Nat)) (acc : Dev × List Byte) : R acc.1 (l.foldl (fun (acc : Dev × List Byte) p =>
      (Dev.pushAt rep acc.1 p.1 p.2.1 (acc.2.take p.2.2) die, acc.2.drop p.2.2)) acc).1 := by
    induction l generalizing acc with
    | nil => exact h.refl _
    | cons p l ih => exact h.trans (h.pushAt acc.1 p.1 p.2.1 (acc.2.take p.2.2) die) (ih (_, acc.2.drop p.2.2))
  exact hfold _ (s, b)

theorem dirRemove (s : Dev) (tag : LineTag) (a : Agent) : R s (s.dirRemove tag a) := by
  unfold Dev.dirRemove
  split
  · exact h.refl s
  · exact h.ite (h.setDir ..) (h.setDir ..)

theorem evbToHome (s : Dev) (tag : LineTag) : R s (s.evbToHome tag) := by
  unfold Dev.evbToHome
  split
  · exact h.trans (h.l3Put ..) (h.dirRemove ..)
  · exact h.refl s

theorem snoopOwner (s : Dev) (a : Option Agent) (tag : LineTag) : R s (s.snoopOwner a tag) := by
  unfold Dev.snoopOwner
  split
  · exact h.ite (h.refl s) (h.dropSideOf ..)
  · exact h.refl s

end memClosed

section
variable (h : memClosed R reportDram)
include h

theorem memClosed.homeRead (s : Dev) (tag : LineTag) : R s (s.homeRead tag none).1 := by
  unfold Dev.homeRead
  dsimp only
  split
  · exact h.trans (h.count _ _ (.hub _ (by decide) (by decide))) (h.trans (h.stamp _) (h.setL3 ..))
  · exact h.trans (h.count _ _ (.hub _ (by decide) (by decide))) (h.trans (h.read ..) (h.l3Put ..))

theorem memClosed.onceRead (s : Dev) (tag : LineTag) : R s (s.onceRead tag) :=
  h.trans (h.takeEpoch ..) (h.trans (h.snoopOwner ..) (h.ite (h.refl _) (h.ite (h.evbToHome ..) (h.homeRead ..))))

theorem memClosed.onceReads (s : Dev) (tags : List LineTag) : R s (s.onceReads tags) := h.foldl h.onceRead _ _

end

/-! Where no DRAM error stands to come, none is met (R376). -/

/-- From s to t, if no DRAM error stands to come, memory and counters alone have changed, and none stands to come. -/
def quiet (s t : Dev) : Prop := s.mem.dramErrors = [] → s.memOnly t ∧ t.mem.dramErrors = []

theorem quiet_dramReadBy (rep : Dev → LineTag → Nat → Dev) (s : Dev) (tag : LineTag) (n : Nat) : s.quiet (dramReadBy rep s tag none n).1 := by
  intro hs
  have herr : (s.bump 7 0x100 (s.stackOf (tagLoc tag)) 1).readError none = (s.bump 7 0x100 (s.stackOf (tagLoc tag)) 1, ⟨0, none⟩) := by
    unfold readError
    rw [show (s.bump 7 0x100 (s.stackOf (tagLoc tag)) 1).mem.dramErrors = [] from hs]
  unfold dramReadBy
  dsimp only
  rw [herr]
  dsimp only
  cases s.dramPoisoned tag with
  | true => exact ⟨memOnly_bump .., hs⟩
  | false => exact ⟨memOnly_bump .., hs⟩

theorem quiet_memClosed (rep : Dev → LineTag → Nat → Dev) : memClosed quiet rep where
  trans h1 h2 hs := by
    obtain ⟨m1, e1⟩ := h1 hs
    obtain ⟨m2, e2⟩ := h2 e1
    exact ⟨m1.trans m2, e2⟩
  mem hm _ he hs := ⟨hm, he.trans hs⟩
  count s _ _ _ _ _ hs := ⟨memOnly_bump .., hs⟩
  read := quiet_dramReadBy rep

theorem memOnly_dramSetPoison (s : Dev) (tag : LineTag) : s.memOnly (s.dramSetPoison tag) := rfl

theorem memOnly_readError (s : Dev) (g : Option Nat) : s.memOnly (s.readError g).1 := by
  unfold readError
  split
  · rfl
  · rfl
  · split <;> rfl
  · rfl

theorem obj_readError (s : Dev) (g : Option Nat) : (s.readError g).1.obj = s.obj := by
  unfold readError
  split
  · rfl
  · rfl
  · split <;> rfl
  · rfl

/-! What an error record can reach (R477, R480, R481, R485). -/

/-- The objects that the memory system, translation and the event log have of their own. -/
def ownObjects (a b : Nat) : Prop := a = 1 ∨ 5 ≤ a ∧ a ≤ 8 ∨ a = 0x0C ∧ b = 0x120

/-- From s to t the memory system has moved on, and error records have been written, held or dropped. -/
structure reportStep (s t : Dev) : Prop where
  rest : t = { s with mem := t.mem, obj := t.obj, eventLog := t.eventLog, eventsOut := t.eventsOut, resetDue := t.resetDue,
                      xl := { s.xl with mmus := t.xl.mmus, fatalLog := t.xl.fatalLog, lastDirty := t.xl.lastDirty } }
  mmu : ∀ k, (s.mmu k).recordsTo (t.mmu k)
  objAt : ∀ a b c, b < 65536 → c < 256 → ¬ownObjects a b → t.objAt a b c = s.objAt a b c

namespace reportStep

theorem trans (h1 : s.reportStep t) (h2 : t.reportStep u) : s.reportStep u where
  rest := by rw [h2.rest, h1.rest]
  mmu k := by rw [Mmu.recordsTo, h2.mmu k, h1.mmu k]
  objAt a b c hb hc h := (h2.objAt a b c hb hc h).trans (h1.objAt a b c hb hc h)

theorem of_mem (h : s.memOnly t) (ho : t.obj = s.obj) : s.reportStep t where
  rest := by rw [h]
  mmu k := by rw [show t.mmu k = s.mmu k by rw [h]; rfl, Mmu.recordsTo]
  objAt a b c _ _ _ := by unfold Dev.objAt Dev.obj!; rw [ho]

theorem refl (s : Dev) : s.reportStep s := of_mem rfl rfl

theorem modMmu (s : Dev) (m : MmuId) {f : Mmu → Mmu} (hf : ∀ x : Mmu, x.recordsTo (f x)) : s.reportStep (s.modMmu m f) where
  rest := rfl
  mmu k := by
    rw [Dev.modMmu, mmu_setMmu]
    split
    · next h => rw [h]; exact hf _
    · rfl
  objAt _ _ _ _ _ _ := rfl

theorem ite {c : Prop} [Decidable c] (h1 : s.reportStep t) (h2 : s.reportStep u) : s.reportStep (if c then t else u) := by
  split <;> assumption

theorem foldl {α : Type} {f : Dev → α → Dev} (hf : ∀ (s : Dev) (a : α), s.reportStep (f s a)) (l : List α) (s : Dev) : s.reportStep (l.foldl f s) := by
  induction l generalizing s with
  | nil => exact refl s
  | cons a l ih => exact trans (hf s a) (ih _)

theorem count (s : Dev) {a b c : Nat} (n : Nat) (h : countPlace a b c) : s.reportStep (s.bump a b c n) where
  rest := by rw [memOnly_bump s a b c n]
  mmu k := by rw [show (s.bump a b c n).mmu k = s.mmu k from rfl, Mmu.recordsTo]
  objAt a' b' c' hb' hc' hown := by
    obtain ⟨ha, hb, hc⟩ := h
    refine (obj!_setObj ..).trans (if_neg fun he => hown ?_)
    unfold objAddr at he
    unfold ownObjects
    omega
theorem dropRecord (s : Dev) (m : MmuId) : s.reportStep (s.dropRecord m) := modMmu s m fun _ => rfl
theorem moduleFatal (s : Dev) (n : Nat) : s.reportStep (s.moduleFatal n) := ⟨rfl, fun _ => rfl, fun _ _ _ _ _ _ => rfl⟩
theorem event (s : Dev) (k d : Nat) : s.reportStep (s.event k d) where
  rest := rfl
  mmu _ := rfl
  objAt a b c hb hc hown := by
    refine (obj!_setObj ..).trans (if_neg fun he => hown ?_)
    unfold objAddr at he
    unfold ownObjects
    omega
theorem hold (s : Dev) (m : MmuId) (r : FaultRecord) : s.reportStep (s.modMmu m fun x => { x with holding := x.holding ++ [r] }) :=
  modMmu s m fun _ => rfl

theorem holdDram (s : Dev) (tag : LineTag) (n : Nat) : s.reportStep (s.holdDram tag n) :=
  ite (dropRecord ..) (ite (hold ..) (ite (moduleFatal ..) (dropRecord ..)))

theorem dramWrite (s : Dev) (tag : LineTag) (d : LineData) (p : Bool) : s.reportStep (s.dramWrite tag d p) :=
  trans (of_mem (memOnly_modMem ..) rfl) (count _ 1 (.stack s tag (by decide)))

/-- A read of DRAM reaches no further than the reports of its errors. -/
theorem dramReadBy {rep : Dev → LineTag → Nat → Dev} (hrep : ∀ (s : Dev) (t : LineTag) (n : Nat), s.reportStep (rep s t n)) (s : Dev) (tag : LineTag)
    (g : Option Nat) (n : Nat) : s.reportStep (Dev.dramReadBy rep s tag g n).1 := by
  have herr : s.reportStep ((s.bump 7 0x100 (s.stackOf (tagLoc tag)) 1).readError g).1 := trans (count _ _ (.stack s tag (by decide))) (of_mem (memOnly_readError ..) (obj_readError ..))
  unfold Dev.dramReadBy
  dsimp only
  generalize (s.bump 7 0x100 (s.stackOf (tagLoc tag)) 1).readError g = r at herr
  have hcount (u : Dev) {b : Nat} (hb : b < 2 ^ 12) : u.reportStep (u.bump 7 b (s.stackOf (tagLoc tag)) 1) := count u _ (.stack s tag hb)
  split
  · exact herr
  · exact herr.trans ((hcount _ (by decide)).trans (hcount _ (by decide)))
  · exact herr
  · exact herr.trans ((hcount _ (by decide)).trans (dramWrite ..))
  · exact herr
  · split
    · exact herr.trans ((hcount _ (by decide)).trans (hrep ..))
    · exact herr.trans ((hcount _ (by decide)).trans ((hcount _ (by decide)).trans ((of_mem (memOnly_dramSetPoison ..) rfl).trans
        ((count _ _ (.hub _ (by decide) (by decide))).trans (hrep ..)))))

theorem closed {rep : Dev → LineTag → Nat → Dev} (hrep : ∀ (s : Dev) (t : LineTag) (n : Nat), s.reportStep (rep s t n)) : memClosed reportStep rep where
  trans := trans
  mem hm ho _ := of_mem hm ho
  count s _ _ _ n h := count s n h
  read s tag n := dramReadBy hrep s tag none n

theorem writeRecord (s : Dev) (m : MmuId) (r : FaultRecord) : s.reportStep (s.writeRecord m r) := by
  have hrec : s.reportStep (((r.first :: r.more).zipIdx).foldl (fun s' e =>
      Dev.physWriteBy Dev.holdDram s' ((s.mmu m).entryAddr e.2) (leBytes 64 e.1) false ⟨8 + m.val, by omega⟩) s) :=
    foldl (fun s e => (closed holdDram).physWriteBy ..) _ _
  unfold Dev.writeRecord
  dsimp only
  generalize ((r.first :: r.more).zipIdx).foldl _ s = u at hrec ⊢
  have htail := (hrec.trans (modMmu u m (f := fun x => { x with fqTail := x.fqTail + BitVec.ofNat 32 r.entries }) fun _ => rfl)).trans
    (count _ 1 (a := 1) (b := 0x113) (c := 8 + m.val) ⟨.inl rfl, by decide, by omega⟩)
  generalize Dev.bump _ 1 0x113 (8 + m.val) 1 = v at htail ⊢
  have hdirty : s.reportStep (if r.first % 256 = 0x11 then v.modXl (fun v => { v with lastDirty := some r.first }) else v) :=
    ite (htail.trans ⟨rfl, fun _ => rfl, fun _ _ _ _ _ _ => rfl⟩) htail
  exact ite (hdirty.trans (event ..)) hdirty

theorem drainHeld (s : Dev) (m : MmuId) (n : Nat) : s.reportStep (s.drainHeld m n) := by
  induction n generalizing s with
  | zero => exact refl s
  | succ n ih =>
    unfold Dev.drainHeld
    split
    · exact refl s
    · next rs _ =>
      exact ite ((modMmu s m (f := fun x => { x with holding := rs }) fun _ => rfl).trans ((writeRecord ..).trans (ih _))) (refl s)

theorem reportTo (s : Dev) (m : MmuId) (r : FaultRecord) : s.reportStep (s.reportTo m r) := by
  unfold Dev.reportTo
  dsimp only
  refine trans (t := if r.cls = .fatal then s.moduleFatal r.first else s) (ite (moduleFatal ..) (refl s)) ?_
  exact ite (dropRecord ..) ((drainHeld _ m 32).trans
    (ite (dropRecord ..) (ite (writeRecord ..) (ite (hold ..) (ite (moduleFatal ..) (dropRecord ..))))))

end reportStep

/-- What the memory system does reaches translation by its error records alone. -/
theorem reportStep_closed : memClosed reportStep reportDram := reportStep.closed fun s _ _ => reportStep.reportTo s _ _

end Dev
end Sys2Proof.Machine
end

section
/-! PROOFS. Proofs/Invalidation.lean: translation invalidation, fences and the table bases (O41). -/

namespace Sys2Proof.Machine

namespace Dev

variable {s t u : Dev} {m k : MmuId}

/-! A command queue (R430, R431; log entry 24). -/

theorem mmu_modMmu (s : Dev) (m k : MmuId) (f : Mmu → Mmu) : (s.modMmu m f).mmu k = if k = m then f (s.mmu m) else s.mmu k := mmu_setMmu ..


/-- From s to t a command queue has at most gone on: commands have been read, errors may have stopped the queue. -/
structure cqStep (s t : Dev) : Prop where
  mem : s.memStep t
  tcs : t.xl.tcs = s.xl.tcs
  mmu : ∀ k, t.mmu k = { s.mmu k with
    fqTail := (t.mmu k).fqTail, fqDropped := (t.mmu k).fqDropped, holding := (t.mmu k).holding, cqcsr := (t.mmu k).cqcsr, ipsr := (t.mmu k).ipsr }

namespace cqStep

theorem refl (s : Dev) : s.cqStep s := ⟨memStep_refl s, rfl, fun _ => rfl⟩

theorem trans (h1 : s.cqStep t) (h2 : t.cqStep u) : s.cqStep u where
  mem := memStep_trans h1.mem h2.mem
  tcs := h2.tcs.trans h1.tcs
  mmu k := by rw [h2.mmu k, h1.mmu k]

theorem cqError (s : Dev) (m : MmuId) (i : Nat) : s.cqStep (s.cqError m i) where
  mem := memStep_modMmu ..
  tcs := rfl
  mmu k := by
    rw [Dev.cqError, mmu_modMmu]
    split
    · next h => rw [h]
    · rfl

theorem of_report (hm : s.memStep t) (h : s.reportStep t) : s.cqStep t where
  mem := hm
  tcs := by rw [h.rest]
  mmu k := by rw [h.mmu k]

theorem cqTake (s : Dev) (m : MmuId) : s.cqStep (s.cqTake m) := by
  unfold Dev.cqTake
  dsimp only
  split
  · exact refl s
  · split
    · exact cqError ..
    · have hread (l : List LineTag) : s.cqStep (s.onceReads l) := of_report (memStep_onceReads s l) (reportStep_closed.onceReads s l)
      split
      · exact refl s
      · split
        · exact (hread _).trans (cqError ..)
        · split
          · exact hread _
          · exact (hread _).trans (cqError ..)

end cqStep

theorem cqNext_of_idle (h : (s.mmu m).cqIdle = true) : s.cqNext m = s := by
  unfold cqNext
  exact if_pos h

/-- A queue that is on and not empty goes on past its head (R431). -/
theorem cqNext_of_busy (h : (s.mmu m).cqIdle = false) :
    s.cqNext m = (s.modMmu m fun x => { x with cqh := BitVec.ofNat 32 ((x.cqh.toNat + 1) % x.cqSize) }).cqTake m := by
  unfold cqNext
  exact if_neg (by rw [← Bool.not_eq_true] at h; exact h)

end Dev

theorem Mmu.cqSize_le (x : Mmu) : x.cqSize ≤ 2 ^ 32 := Nat.pow_le_pow_right (by decide) (by omega)

theorem Mmu.cqSize_pos (x : Mmu) : 0 < x.cqSize := Nat.two_pow_pos _

namespace Dev

variable {s t u : Dev} {m k : MmuId}

/-- How a system MMU goes on to its next command. -/
structure cqMoves (s t : Dev) (m : MmuId) : Prop where
  mem : s.memStep t
  tcs : t.xl.tcs = s.xl.tcs
  unanswered : ∀ k, (t.mmu k).unanswered = (s.mmu k).unanswered
  caches : ∀ k, (t.mmu k).walkCache = (s.mmu k).walkCache ∧ (t.mmu k).ctxCache = (s.mmu k).ctxCache ∧ (t.mmu k).slots = (s.mmu k).slots
  idle : (s.mmu m).cqIdle = true → t = s
  head : (s.mmu m).cqIdle = false → (t.mmu m).cqh.toNat = ((s.mmu m).cqh.toNat + 1) % (s.mmu m).cqSize

theorem cqMoves_cqNext (s : Dev) (m : MmuId) : s.cqMoves (s.cqNext m) m := by
  cases hi : (s.mmu m).cqIdle with
  | true =>
    rw [cqNext_of_idle hi]
    exact ⟨memStep_refl s, rfl, fun _ => rfl, fun _ => ⟨rfl, rfl, rfl⟩, fun _ => rfl, fun h => by cases hi.symm.trans h⟩
  | false =>
    rw [cqNext_of_busy hi]
    generalize hv : (s.modMmu m fun x => { x with cqh := BitVec.ofNat 32 ((x.cqh.toNat + 1) % x.cqSize) }) = v
    have hmmu (k : MmuId) : v.mmu k = if k = m then { s.mmu m with cqh := BitVec.ofNat 32 (((s.mmu m).cqh.toNat + 1) % (s.mmu m).cqSize) } else s.mmu k := by
      rw [← hv]
      exact mmu_modMmu ..
    have htake := cqStep.cqTake v m
    refine ⟨memStep_trans (hv ▸ memStep_modMmu ..) htake.mem, htake.tcs.trans (hv ▸ rfl), fun k => ?_, fun k => ?_, fun h => (by cases hi.symm.trans h), fun _ => ?_⟩
    · rw [htake.mmu, hmmu]
      split
      · next h => rw [h]
      · rfl
    · rw [htake.mmu, hmmu]
      split
      · next h => rw [h]; exact ⟨rfl, rfl, rfl⟩
      · exact ⟨rfl, rfl, rfl⟩
    · have hlt := Nat.mod_lt ((s.mmu m).cqh.toNat + 1) (s.mmu m).cqSize_pos
      have hle := (s.mmu m).cqSize_le
      rw [htake.mmu, hmmu, if_pos rfl]
      exact Nat.mod_eq_of_lt (by omega)

/-! Translations leave the caches (R472, R473). -/

/-- What the translations of one die's cache that satisfy p leave behind. -/
def dropOn (s : Dev) (p : TcEntry → Bool) (d : Die) : Dev :=
  if (s.xl.tcs[d].filter p).length = 0 then s
  else (s.bump 1 0x105 d.val (s.xl.tcs[d].filter p).length).modXl fun x => { x with tcs := x.tcs.set d (s.xl.tcs[d].filter fun e => !p e) d.isLt }

theorem dropTranslations_eq (s : Dev) (p : TcEntry → Bool) : s.dropTranslations p = (List.finRange 20).foldl (fun s d => s.dropOn p d) s := rfl

/-- From s to t at most counters and the translation caches have changed. -/
def tcsOnly (s t : Dev) : Prop := t = { s with obj := t.obj, xl := { s.xl with tcs := t.xl.tcs } }

theorem tcsOnly.trans (h1 : s.tcsOnly t) (h2 : t.tcsOnly u) : s.tcsOnly u := by rw [tcsOnly, h2, h1]

theorem tcsOnly_dropOn (s : Dev) (p : TcEntry → Bool) (d : Die) : s.tcsOnly (s.dropOn p d) := by
  unfold dropOn
  split <;> rfl

theorem tcs_dropOn (s : Dev) (p : TcEntry → Bool) (d e : Die) :
    (s.dropOn p d).xl.tcs[e] = if e = d then s.xl.tcs[d].filter (fun x => !p x) else s.xl.tcs[e] := by
  unfold dropOn
  split
  · next h =>
    split
    · next he =>
      subst he
      refine (List.filter_eq_self.mpr fun x hx => ?_).symm
      have hnil := List.eq_nil_of_length_eq_zero h
      simpa using List.filter_eq_nil_iff.mp hnil x hx
    · rfl
  · refine (Vector.getElem_set (xs := s.xl.tcs) d.isLt e.isLt).trans ?_
    split
    · next h => rw [if_pos (Fin.ext h.symm)]
    · next h => rw [if_neg fun he => h (congrArg Fin.val he.symm)]; rfl

theorem dropTranslations_spec (s : Dev) (p : TcEntry → Bool) :
    s.tcsOnly (s.dropTranslations p) ∧ ∀ d : Die, (s.dropTranslations p).xl.tcs[d] = s.xl.tcs[d].filter fun x => !p x := by
  have hfold (l : List Die) (hl : l.Nodup) (s : Dev) : s.tcsOnly (l.foldl (fun s d => s.dropOn p d) s)
      ∧ ∀ d : Die, (l.foldl (fun s d => s.dropOn p d) s).xl.tcs[d] = if d ∈ l then s.xl.tcs[d].filter (fun x => !p x) else s.xl.tcs[d] := by
    induction l generalizing s with
    | nil => exact ⟨rfl, fun d => rfl⟩
    | cons a l ih =>
      obtain ⟨hrest, htcs⟩ := ih (List.nodup_cons.mp hl).2 (s.dropOn p a)
      refine ⟨(s.tcsOnly_dropOn p a).trans hrest, fun d => ?_⟩
      rw [List.foldl_cons, htcs, tcs_dropOn]
      by_cases hd : d = a
      · subst hd
        rw [if_neg (List.nodup_cons.mp hl).1, if_pos rfl, if_pos List.mem_cons_self]
      · rw [if_neg hd]
        simp [hd]
  have hall := List.mem_finRange (n := 20)
  have hnodup := List.nodup_finRange 20
  have heq := s.dropTranslations_eq p
  generalize List.finRange 20 = l at hall hnodup heq
  obtain ⟨hrest, htcs⟩ := hfold l hnodup s
  rw [heq]
  exact ⟨hrest, fun d => (htcs d).trans (if_pos (hall d))⟩

/-- Whether an IOTINVAL.VMA names a translation: by its address space, or by a page of it too (R472). -/
def vmaNames (av pscv : Bool) (a : Nat) (addr : U64) (e : TcEntry) : Bool :=
  (!pscv || e.asid = a) && (!(pscv && av) || (e.leafVpn ≤ addr.toNat / 4096 && addr.toNat / 4096 < e.leafVpn + e.leafPages))

/-- A system MMU's walk and context caches without what belongs to the address spaces named (R472). -/
def clearedCaches (pscv : Bool) (a : Nat) (x : Mmu) : Mmu :=
  { x with walkCache := x.walkCache.filter (fun e => !(!pscv || e.asid = a)), ctxCache := x.ctxCache.filter (fun e => !(!pscv || e.asid = a)) }

/-- What an IOTINVAL.VMA removes, before its queue goes on (R472). -/
def vmaDropped (s : Dev) (m : MmuId) (av pscv : Bool) (a : Nat) (addr : U64) : Dev :=
  if pscv && av then
    s.invalidate m (fun e => e.asid = a && e.leafVpn ≤ addr.toNat / 4096 && addr.toNat / 4096 < e.leafVpn + e.leafPages)
  else
    (List.finRange 2).foldl (fun s u => s.modMmu u (clearedCaches pscv a)) (s.invalidate m fun e => !pscv || e.asid = a)

/-- From s to t at most counters and what translation holds of its caches have changed. -/
def tcsAndMmus (s t : Dev) : Prop := t = { s with obj := t.obj, xl := { s.xl with tcs := t.xl.tcs, mmus := t.xl.mmus } }

theorem invalidate_eq (s : Dev) (m : MmuId) (p : TcEntry → Bool) :
    ∃ l, s.invalidate m p = (s.dropTranslations p).modMmu m fun x => { x with unanswered := x.unanswered ++ l } := ⟨_, rfl⟩

theorem tcsAndMmus.trans (h1 : s.tcsAndMmus t) (h2 : t.tcsAndMmus u) : s.tcsAndMmus u := by rw [tcsAndMmus, h2, h1]

theorem tcsOnly.tcsAndMmus (h : s.tcsOnly t) : s.tcsAndMmus t := by rw [Dev.tcsAndMmus, h]

theorem tcsAndMmus_modMmu (s : Dev) (m : MmuId) (f : Mmu → Mmu) : s.tcsAndMmus (s.modMmu m f) := rfl

theorem tcsAndMmus.memStep (h : s.tcsAndMmus t) : s.memStep t := ⟨by rw [h], by rw [h]; exact id⟩

theorem invalidate_spec (s : Dev) (m : MmuId) (p : TcEntry → Bool) :
    s.tcsAndMmus (s.invalidate m p) ∧ (∀ d : Die, (s.invalidate m p).xl.tcs[d] = s.xl.tcs[d].filter fun x => !p x)
      ∧ ∀ k, ∃ l, (s.invalidate m p).mmu k = { s.mmu k with unanswered := l } := by
  obtain ⟨hrest, htcs⟩ := s.dropTranslations_spec p
  obtain ⟨l, hl⟩ := s.invalidate_eq m p
  rw [hl]
  generalize s.dropTranslations p = d at hrest htcs
  have hmmu (k : MmuId) : d.mmu k = s.mmu k := by
    rw [hrest]
    rfl
  refine ⟨hrest.tcsAndMmus.trans (tcsAndMmus_modMmu ..), htcs, fun k => ?_⟩
  rw [mmu_modMmu]
  split
  · next h => rw [h, hmmu]; exact ⟨_, rfl⟩
  · rw [hmmu]; exact ⟨_, rfl⟩

theorem mmu_modMmus (s : Dev) (f : Mmu → Mmu) (k : MmuId) : ((List.finRange 2).foldl (fun s u => s.modMmu u f) s).mmu k = f (s.mmu k) := by
  rw [show List.finRange 2 = [0, 1] from rfl]
  simp only [List.foldl_cons, List.foldl_nil]
  rw [mmu_modMmu, mmu_modMmu, mmu_modMmu]
  match k with
  | 0 => rfl
  | 1 => rfl

theorem tcsAndMmus_modMmus (s : Dev) (f : Mmu → Mmu) : s.tcsAndMmus ((List.finRange 2).foldl (fun s u => s.modMmu u f) s) :=
  (tcsAndMmus_modMmu ..).trans (tcsAndMmus_modMmu ..)

theorem tcs_modMmus (s : Dev) (f : Mmu → Mmu) : ((List.finRange 2).foldl (fun s u => s.modMmu u f) s).xl.tcs = s.xl.tcs := rfl

/-- What an IOTINVAL.VMA leaves of the caches of translation (R472). -/
theorem vmaDropped_spec (s : Dev) (m : MmuId) (av pscv : Bool) (a : Nat) (addr : U64) :
    s.tcsAndMmus (s.vmaDropped m av pscv a addr)
      ∧ (∀ d : Die, (s.vmaDropped m av pscv a addr).xl.tcs[d] = s.xl.tcs[d].filter fun x => !vmaNames av pscv a addr x)
      ∧ ∀ k, ∃ l, (s.vmaDropped m av pscv a addr).mmu k
          = { (if pscv && av then s.mmu k else clearedCaches pscv a (s.mmu k)) with unanswered := l } := by
  unfold vmaDropped
  by_cases hp : (pscv && av) = true
  · obtain ⟨hrest, htcs, hmmu⟩ := s.invalidate_spec m fun e =>
      e.asid = a && e.leafVpn ≤ addr.toNat / 4096 && addr.toNat / 4096 < e.leafVpn + e.leafPages
    rw [if_pos hp]
    refine ⟨hrest, fun d => (htcs d).trans (List.filter_congr fun x _ => ?_), fun k => ?_⟩
    · obtain ⟨h1, h2⟩ := Bool.and_eq_true_iff.mp hp
      simp [vmaNames, h1, h2, Bool.and_assoc]
    · rw [if_pos hp]
      exact hmmu k
  · obtain ⟨hrest, htcs, hmmu⟩ := s.invalidate_spec m fun e => !pscv || e.asid = a
    rw [if_neg hp]
    generalize s.invalidate m (fun e => !pscv || e.asid = a) = v at hrest htcs hmmu
    refine ⟨hrest.trans (tcsAndMmus_modMmus ..), fun d => ?_, fun k => ?_⟩
    · rw [tcs_modMmus, htcs]
      exact List.filter_congr fun x _ => by simp [vmaNames, hp]
    · obtain ⟨l, hl⟩ := hmmu k
      rw [if_neg hp, mmu_modMmus, hl]
      exact ⟨l, rfl⟩

end Dev

section
variable {m : MmuId} {av pscv : Bool} {pscid : Asid} {addr : U64} {s : State}

theorem iotinvalVma_eq (hstop : (s.mmu m).cqStopped = false) : exec (.iotinvalVma m false av pscv pscid addr) s
    = .next { s with toDev := (s.vmaDropped m av pscv pscid.toNat addr).cqNext m } := by
  refine exec_eq_next rfl ?_
  dsimp only
  rw [hstop]
  rfl

theorem iotinvalVma_gv (hstop : (s.mmu m).cqStopped = false) : exec (.iotinvalVma m true av pscv pscid addr) s
    = .next { s with toDev := s.cqError m 10 } := by
  refine exec_eq_next rfl ?_
  dsimp only
  rw [hstop]
  rfl

theorem Dev.mmu_cqError_stopped (s : Dev) (m : MmuId) {i : Nat} (hi : i = 8 ∨ i = 10) : ((s.cqError m i).mmu m).cqStopped = true := by
  have hbit : bit (BitVec.ofNat 32 (Nat.lor (s.mmu m).cqcsr.toNat (2 ^ i))).toNat i = true := by
    have hlt : i < 32 := by omega
    rw [bit, ← BitVec.getLsbD, BitVec.getLsbD_ofNat, decide_eq_true hlt, Bool.true_and]
    exact (Nat.testBit_or ..).trans (by rw [Nat.testBit_two_pow_self, Bool.or_true])
  rw [Dev.cqError, Dev.mmu_modMmu, if_pos rfl, Mmu.cqStopped, Bool.or_eq_true]
  rcases hi with rfl | rfl
  · exact .inl hbit
  · exact .inr hbit

theorem Dev.mmu_cqError_ne (s : Dev) {k : MmuId} (h : k ≠ m) (i : Nat) : (s.cqError m i).mmu k = s.mmu k := by
  rw [Dev.cqError, Dev.mmu_modMmu, if_neg h]

/-- An IOTINVAL.VMA with gv set is a command error (R472). -/
theorem iotinvalVma_gv_stops (hstop : (s.mmu m).cqStopped = false) : ∃ u, exec (.iotinvalVma m true av pscv pscid addr) s = .next u
    ∧ (u.mmu m).cqStopped = true ∧ (∀ k, k ≠ m → u.mmu k = s.mmu k) ∧ u = { s with xl := { s.xl with mmus := u.xl.mmus } } :=
  ⟨_, iotinvalVma_gv hstop, Dev.mmu_cqError_stopped _ _ (.inr rfl), fun _ h => Dev.mmu_cqError_ne _ h _, rfl⟩

theorem cqIdle_of_kept {x : Mmu} {l : List (Nat × Nat)} {b c : Bool} {a : Nat} :
    ({ (if b && c then x else Dev.clearedCaches b a x) with unanswered := l } : Mmu).cqIdle = x.cqIdle := by
  split <;> rfl

theorem iotinvalVma_drops (hstop : (s.mmu m).cqStopped = false) : ∃ u, exec (.iotinvalVma m false av pscv pscid addr) s = .next u
    ∧ (∀ d : Die, u.xl.tcs[d] = (s.xl.tcs[d]).filter (fun e => !Dev.vmaNames av pscv pscid.toNat addr e))
    ∧ (∀ k, (u.mmu k).walkCache = (if pscv && av then (s.mmu k).walkCache else (s.mmu k).walkCache.filter (fun e => pscv && e.asid ≠ pscid.toNat))
        ∧ (u.mmu k).ctxCache = (if pscv && av then (s.mmu k).ctxCache else (s.mmu k).ctxCache.filter (fun e => pscv && e.asid ≠ pscid.toNat))
        ∧ (u.mmu k).slots = (s.mmu k).slots)
    ∧ s.memFrame u ∧ ((s.mmu m).cqIdle = true → u = { s with obj := u.obj, xl := { s.xl with tcs := u.xl.tcs, mmus := u.xl.mmus } })
    ∧ ((s.mmu m).cqIdle = false → (u.mmu m).cqh.toNat = ((s.mmu m).cqh.toNat + 1) % (s.mmu m).cqSize) := by
  obtain ⟨hrest, htcs, hmmu⟩ := s.vmaDropped_spec m av pscv pscid.toNat addr
  have hexec := iotinvalVma_eq (av := av) (pscv := pscv) (pscid := pscid) (addr := addr) hstop
  generalize s.vmaDropped m av pscv pscid.toNat addr = v at hrest htcs hmmu hexec
  have hmove := v.cqMoves_cqNext m
  have hidle : (v.mmu m).cqIdle = (s.mmu m).cqIdle := by
    obtain ⟨l, hl⟩ := hmmu m
    rw [hl, cqIdle_of_kept]
  refine ⟨_, hexec, fun d => ?_, fun k => ?_, ⟨Dev.memStep_trans hrest.memStep hmove.mem, rfl, rfl, rfl, rfl⟩, fun h => ?_, fun h => ?_⟩
  · dsimp only
    rw [hmove.tcs, htcs]
  · obtain ⟨l, hl⟩ := hmmu k
    obtain ⟨hwalk, hctx, hslots⟩ := hmove.caches k
    refine ⟨hwalk.trans ?_, hctx.trans ?_, hslots.trans ?_⟩ <;> rw [hl] <;> split
    · rfl
    · exact List.filter_congr fun e _ => by simp
    · rfl
    · exact List.filter_congr fun e _ => by simp
    · rfl
    · rfl
  · rw [hmove.idle (hidle.trans h)]
    exact congrArg (fun d : Dev => ({ s with toDev := d } : State)) hrest
  · refine (hmove.head (hidle.trans h)).trans ?_
    obtain ⟨l, hl⟩ := hmmu m
    rw [hl]
    split <;> rfl

end
section
variable {m : MmuId} {av : Bool} {addr : U64} {data : U32} {s : State}

/-- A queue that an error has stopped executes nothing (R430). -/
theorem exec_of_cqStopped {c : Instr} (hstop : (s.mmu m).cqStopped = true)
    (hc : (∃ gv av pscv pscid addr, c = .iotinvalVma m gv av pscv pscid addr) ∨ ∃ av addr data, c = .iofenceC m av addr data) : exec c s = .next s := by
  obtain ⟨gv, av, pscv, pscid, addr, rfl⟩ | ⟨av, addr, data, rfl⟩ := hc
  · exact exec_eq_next rfl (if_pos hstop)
  · exact exec_eq_next rfl (if_pos (by rw [hstop]; rfl))

/-- A fence waits while a request that a removed translation had translated stands unanswered (R473). -/
theorem iofenceC_of_open (ho : (s.mmu m).unanswered.any (fun e => (s.asked e.1).contains e.2) = true) : exec (.iofenceC m av addr data) s = .next s :=
  exec_eq_next rfl (if_pos (by rw [ho]; simp))

theorem iofenceC_of_busy (hb : s.lineBusy (tagOf (addr.toNat / 4 * 4) false) = true) : exec (.iofenceC m true addr data) s = .next s :=
  exec_eq_next rfl (if_pos (by rw [hb]; simp))

/-- The state in which a fence completes: nothing is unanswered any longer (R473). -/
def Dev.fenced (s : Dev) (m : MmuId) : Dev := s.modMmu m fun x => { x with unanswered := [] }

/-- A fence's write is performed (R473). -/
def Dev.fenceWritten (s : Dev) (m : MmuId) (addr : U64) (data : U32) : Dev :=
  s.physWrite (addr.toNat / 4 * 4) (leBytes 4 data.toNat) false ⟨8 + m.val, by omega⟩

theorem Dev.mmu_fenced (s : Dev) (m : MmuId) : (s.fenced m).mmu m = { s.mmu m with unanswered := [] } := by
  rw [Dev.fenced, Dev.mmu_modMmu, if_pos rfl]

section
variable (hstop : (s.mmu m).cqStopped = false) (ho : (s.mmu m).unanswered.any (fun e => (s.asked e.1).contains e.2) = false)
include hstop ho

theorem iofenceC_plain : exec (.iofenceC m false addr data) s = .next { s with toDev := (s.fenced m).cqNext m } := by
  refine exec_eq_next rfl ?_
  dsimp only
  rw [hstop, ho]
  rfl

theorem iofenceC_completes : ∃ u, exec (.iofenceC m false addr data) s = .next u ∧ (u.mmu m).unanswered = [] ∧ s.memFrame u
    ∧ ((s.mmu m).cqIdle = true → u = { s with xl := { s.xl with mmus := u.xl.mmus } }) := by
  have hmove := (s.fenced m).cqMoves_cqNext m
  refine ⟨_, iofenceC_plain hstop ho, (hmove.unanswered m).trans (by rw [Dev.mmu_fenced]), ⟨Dev.memStep_trans (Dev.memStep_modMmu ..) hmove.mem, rfl, rfl, rfl, rfl⟩,
    fun h => ?_⟩
  rw [hmove.idle (by rw [Dev.mmu_fenced]; exact h)]
  rfl

theorem iofenceC_av (hb : s.lineBusy (tagOf (addr.toNat / 4 * 4) false) = false) : exec (.iofenceC m true addr data) s
    = .next { s with toDev := (if addr.toNat / 4 * 4 < 2 ^ 41 then ((s.fenced m).fenceWritten m addr data).cqNext m else (s.fenced m).cqError m 8) } := by
  refine exec_eq_next rfl ?_
  dsimp only
  rw [hstop, ho, hb]
  rfl

theorem iofenceC_writes (hb : s.lineBusy (tagOf (addr.toNat / 4 * 4) false) = false) (ha : addr.toNat < 2 ^ 41) :
    ∃ u, exec (.iofenceC m true addr data) s = .next u ∧ s.memFrame u
      ∧ ((s.mmu m).cqIdle = true → u.mem = ((s.fenced m).fenceWritten m addr data).mem
        ∧ (s.mem.dramErrors = [] → u = { s with mem := u.mem, obj := u.obj, xl := { s.xl with mmus := u.xl.mmus } })) := by
  have hexec := iofenceC_av (data := data) hstop ho hb
  rw [if_pos (by omega)] at hexec
  have hmem : (s.fenced m).memStep ((s.fenced m).fenceWritten m addr data) := Dev.memStep_physWrite ..
  have hreport : (s.fenced m).reportStep ((s.fenced m).fenceWritten m addr data) := Dev.reportStep_closed.physWriteBy ..
  have hquiet : (s.fenced m).quiet ((s.fenced m).fenceWritten m addr data) := (Dev.quiet_memClosed Dev.reportDram).physWriteBy (s.fenced m) _ _ _ _
  have hmove := ((s.fenced m).fenceWritten m addr data).cqMoves_cqNext m
  generalize (s.fenced m).fenceWritten m addr data = v at hexec hmem hreport hquiet hmove
  refine ⟨_, hexec, ⟨Dev.memStep_trans (Dev.memStep_modMmu ..) (Dev.memStep_trans hmem hmove.mem), rfl, rfl, rfl, rfl⟩, fun h => ?_⟩
  have hidle : (v.mmu m).cqIdle = true := by
    rw [hreport.mmu m, Dev.mmu_fenced]
    exact h
  refine ⟨congrArg Dev.mem (hmove.idle hidle), fun he => ?_⟩
  rw [hmove.idle hidle, (hquiet he).1]
  rfl

theorem iofenceC_beyond (hb : s.lineBusy (tagOf (addr.toNat / 4 * 4) false) = false) (ha : 2 ^ 41 ≤ addr.toNat) :
    ∃ u, exec (.iofenceC m true addr data) s = .next u ∧ (u.mmu m).cqStopped = true ∧ u = { s with xl := { s.xl with mmus := u.xl.mmus } } := by
  have hexec := iofenceC_av (data := data) hstop ho hb
  rw [if_neg (by omega)] at hexec
  exact ⟨_, hexec, Dev.mmu_cqError_stopped _ _ (.inl rfl), rfl⟩

end

end

theorem tableArea_iff (v : U64) : tableArea v = true ↔ v.toNat % 2 ^ 18 = 0 ∧ v.toNat + 2 ^ 18 ≤ 2 ^ 41 := by
  simp [tableArea]

/-- Settles O41: an IOTINVAL.VMA by what it drops (`vmaDropped_spec`), a fence by what it waits for and writes, and then how a queue goes on, which is
the model's choice (`cqMoves_cqNext`; log entry 24). -/
theorem invalidation : Obligations.Invalidation := by
  unfold Obligations.Invalidation
  refine ⟨fun m av pscv pscid addr s hstop => ⟨iotinvalVma_gv_stops hstop, iotinvalVma_drops hstop⟩, fun m c s hstop hc => exec_of_cqStopped hstop hc,
    fun m addr data s hstop => ⟨fun ho av => iofenceC_of_open ho, iofenceC_of_busy, fun ho => ⟨iofenceC_completes hstop ho, iofenceC_writes hstop ho,
      iofenceC_beyond hstop ho⟩⟩, fun m v s => ⟨fun hfit => ⟨?_, ?_⟩, fun hfit => ⟨?_, ?_⟩⟩⟩
  · exact exec_eq_next rfl (if_pos ((tableArea_iff v).mpr hfit))
  · refine ⟨_, exec_eq_next rfl (if_pos ((tableArea_iff v).mpr hfit)), ?_, fun k hk => ?_, rfl⟩
    · exact congrArg Mmu.fqBase ((Dev.mmu_modMmu ..).trans (if_pos rfl))
    · exact (Dev.mmu_modMmu ..).trans (if_neg hk)
  · exact exec_eq_next rfl (if_neg fun h => hfit ((tableArea_iff v).mp h))
  · exact exec_eq_next rfl (if_neg fun h => hfit ((tableArea_iff v).mp h))
end Sys2Proof.Machine
end

section
/-! PROOFS. Proofs/FabricReach.lean: what a packet that leaves, and a flow that sends, leave alone. -/

namespace Sys2Proof.Machine

/-- The packets that a link has taken and that its neighbour has not acknowledged whole (R564). -/
def Link.carries (x : Link) : List Packet := x.queue ++ x.sent.map SentPacket.packet

theorem mem_removeFirst {α : Type} {q : α} {l : List α} {f : α → Bool} (h : q ∈ l) (hf : f q = false) : q ∈ removeFirst f l := by
  induction l with
  | nil => exact h
  | cons x xs ih =>
    rw [removeFirst]
    rcases List.mem_cons.mp h with rfl | h
    · rw [hf]
      exact List.mem_cons_self ..
    · split
      · exact h
      · exact List.mem_cons_of_mem _ (ih h)

/-- A flit leaves a link only for a packet in its queue. -/
theorem Link.sendFlit_nil (x : Link) (tc : Nat) (h : x.queue = []) : x.sendFlit tc = none := by
  unfold Link.sendFlit
  rw [h]
  rfl

/-- The flit that leaves a link keeps its packet: in the queue, or, after its last flit, among the sent ones. -/
theorem Link.carries_sendFlit {x y : Link} {tc : Nat} (h : x.sendFlit tc = some y) {q : Packet} (hq : q ∈ x.carries) : q ∈ y.carries := by
  unfold Link.sendFlit at h
  split at h
  · cases h
  next p _ =>
  split at h
  · cases h
  dsimp only at h
  generalize x.begun.getD tc 0 = k at h
  generalize x.form 1 tc _ _ _ = f at h
  split at h <;> cases h
  · unfold Link.carries at hq ⊢
    dsimp only [Link.put]
    rw [List.map_append, List.mem_append, List.mem_append]
    rcases List.mem_append.mp hq with hq | hq
    · by_cases e : q = p
      · exact .inr (.inr (by simp [e]))
      · exact .inl (mem_removeFirst hq (by simpa using e))
    · exact .inr (.inl hq)
  · exact hq

/-- What the turns of an OX die's link protocol engine leave alone (R560, R563): all but its links, the classes they have served and the count of their flits. -/
structure Dev.turns (ox : Nat) (s t : Dev) : Prop where
  rest : t = { s with obj := t.obj, fab := { s.fab with links := t.fab.links, lastClass := t.fab.lastClass } }
  others : ∀ k : LinkId, k.val / 8 ≠ ox → t.link k = s.link k
  held : ∀ (k : LinkId) (q : Packet), q ∈ (s.link k).carries → q ∈ (t.link k).carries
  still : ∀ k : LinkId, (s.link k).queue = [] → t.link k = s.link k
  objAt : ∀ a b c, b < 65536 → c < 256 → ¬(a = 0x0A ∧ b = 0x107) → t.objAt a b c = s.objAt a b c

/-- What a packet that joins a link's queue leaves alone: as the turns, but the queue. -/
structure Dev.sends (ox : Nat) (s t : Dev) : Prop where
  rest : t = { s with obj := t.obj, fab := { s.fab with links := t.fab.links, lastClass := t.fab.lastClass } }
  others : ∀ k : LinkId, k.val / 8 ≠ ox → t.link k = s.link k
  held : ∀ (k : LinkId) (q : Packet), q ∈ (s.link k).carries → q ∈ (t.link k).carries
  objAt : ∀ a b c, b < 65536 → c < 256 → ¬(a = 0x0A ∧ b = 0x107) → t.objAt a b c = s.objAt a b c

namespace Dev

variable {ox : Nat} {s t u : Dev}

theorem turns.refl (s : Dev) : turns ox s s := ⟨rfl, fun _ _ => rfl, fun _ _ => id, fun _ _ => rfl, fun _ _ _ _ _ _ => rfl⟩

theorem turns.trans (h1 : turns ox s t) (h2 : turns ox t u) : turns ox s u where
  rest := by rw [h2.rest, h1.rest]
  others k hk := (h2.others k hk).trans (h1.others k hk)
  held k q hq := h2.held k q (h1.held k q hq)
  still k hk := (h2.still k (by rw [h1.still k hk, hk])).trans (h1.still k hk)
  objAt a b c hb hc h := (h2.objAt a b c hb hc h).trans (h1.objAt a b c hb hc h)

theorem turns.sends (h : turns ox s t) : sends ox s t := ⟨h.rest, h.others, h.held, h.objAt⟩

theorem sends.trans (h1 : Dev.sends ox s t) (h2 : Dev.sends ox t u) : Dev.sends ox s u where
  rest := by rw [h2.rest, h1.rest]
  others k hk := (h2.others k hk).trans (h1.others k hk)
  held k q hq := h2.held k q (h1.held k q hq)
  objAt a b c hb hc h := (h2.objAt a b c hb hc h).trans (h1.objAt a b c hb hc h)

theorem link_modLink (s : Dev) (l k : LinkId) (f : Link → Link) : (s.modLink l f).link k = if k = l then f (s.link l) else s.link k :=
  link_setLink ..

/-- A link that changes keeps what it carries. -/
theorem sends_setLink (s : Dev) (l : LinkId) {x : Link} (h : ∀ q ∈ (s.link l).carries, q ∈ x.carries) :
    Dev.sends (l.val / 8) s (s.setLink l x) where
  rest := rfl
  others k hk := by
    rw [link_setLink, if_neg]
    rintro rfl
    exact hk rfl
  held k q hq := by
    rw [link_setLink]
    split
    next e => exact h q (e ▸ hq)
    · exact hq
  objAt _ _ _ _ _ _ := rfl

theorem turns_sendOne {l : LinkId} (h : s.sendOne l = some t) : turns (l.val / 8) s t := by
  unfold sendOne at h
  split at h
  · cases h
  obtain ⟨⟨c, y⟩, hc, rfl⟩ := Option.map_eq_some_iff.mp h
  obtain ⟨c', -, hc⟩ := List.exists_of_findSome?_eq_some hc
  obtain ⟨z, hz, hc⟩ := Option.map_eq_some_iff.mp hc
  cases hc
  have hput := sends_setLink s l fun q => Link.carries_sendFlit hz (q := q)
  exact {
    rest := rfl
    others := hput.others
    held := hput.held
    still := fun k hk => by
      change (s.setLink l y).link k = _
      rw [link_setLink, if_neg]
      rintro rfl
      rw [Link.sendFlit_nil _ _ hk] at hz
      cases hz
    objAt := fun a b i hb hi hne => by
      rw [objAt_bump _ _ (by omega) hi (by decide) hb, if_neg fun e => hne ⟨e.1, e.2.1⟩]
      rfl }

theorem turns_linkTurn (s : Dev) (hox : ox < 4) : turns ox s (s.linkTurn ox).1 := by
  have hl : ∀ l ∈ oxLinks ox, l.val / 8 = ox := by
    intro l hl
    obtain ⟨i, hi, rfl⟩ := List.mem_map.mp hl
    have := List.mem_range.mp hi
    simp only [linkId]
    omega
  unfold linkTurn
  generalize oxLinks ox = ls at hl
  suffices ∀ n, turns ox s (ls.foldl (fun acc l => match acc.1.sendOne l with
      | some s => (s, acc.2 + 1)
      | none => acc) (s, n)).1 from this 0
  induction ls generalizing s with
  | nil => exact fun _ => .refl s
  | cons l ls ih =>
    intro n
    rw [List.foldl_cons]
    have hrest := fun t => ih t fun k hk => hl k (List.mem_cons_of_mem _ hk)
    cases h : s.sendOne l with
    | none => exact hrest s n
    | some t => exact turns.trans (hl l (List.mem_cons_self ..) ▸ turns_sendOne h) (hrest t _)

/-- One turn of `linkTurns`, taken apart by hand: its equation lemma would have `linkTurn` evaluated. -/
theorem turns_linkTurns_succ (s : Dev) (hox : ox < 4) (n : Nat) (ih : ∀ t : Dev, turns ox t (t.linkTurns ox n)) :
    turns ox s (s.linkTurns ox (n + 1)) := by
  have ht := turns_linkTurn s hox
  generalize hr : s.linkTurn ox = r at ht
  delta Dev.linkTurns Dev.linkTurns._f at ih ⊢
  dsimp only at ih ⊢
  rw [hr]
  obtain ⟨t, _ | k⟩ := r
  · exact ht
  · exact ht.trans (ih t)

theorem turns_linkTurns (s : Dev) (hox : ox < 4) (n : Nat) : turns ox s (s.linkTurns ox n) := by
  induction n generalizing s with
  | zero => exact .refl s
  | succ n ih => exact turns_linkTurns_succ s hox n ih

end Dev

theorem Link.carries_idle (x : Link) (n : Nat) : (x.idle n).carries = x.carries := by
  induction n generalizing x with
  | zero => rfl
  | succ n ih =>
    rw [Link.idle]
    split
    · rfl
    · exact ih _

namespace Dev

theorem sends_pumpLink (s : Dev) (l : LinkId) : Dev.sends (l.val / 8) s (s.pumpLink l) := by
  unfold pumpLink
  dsimp only
  have h := (turns_linkTurns s (ox := l.val / 8) (by omega)
    (((oxLinks (l.val / 8)).map fun l => ((s.link l).queue.map packetFlits).foldl (· + ·) 0).foldl (· + ·) 0)).sends
  generalize s.linkTurns _ _ = t at h ⊢
  split
  · exact h.trans (sends_setLink t l fun q hq => by rwa [Link.carries_idle])
  · exact h

/-- A packet that joins a link's queue is carried by the link. -/
theorem sends_sendLink (s : Dev) (l : LinkId) (p : Packet) :
    Dev.sends (l.val / 8) s (s.sendLink l p) ∧ p ∈ ((s.sendLink l p).link l).carries := by
  have hput : Dev.sends (l.val / 8) s (s.modLink l fun x => { x with queue := x.queue ++ [p] }) :=
    sends_setLink s l fun q hq => by
      rcases List.mem_append.mp hq with hq | hq
      · exact List.mem_append_left _ (List.mem_append_left _ hq)
      · exact List.mem_append_right _ hq
  have hpump := sends_pumpLink (s.modLink l fun x => { x with queue := x.queue ++ [p] }) l
  refine ⟨hput.trans hpump, hpump.held l p ?_⟩
  rw [link_modLink, if_pos rfl]
  simp [Link.carries]

end Dev

/-- What a packet that leaves an OX die leaves alone (R583 to R586): all but the links, the packets for the module itself and the counts. -/
structure Dev.emits (s t : Dev) : Prop where
  rest : t = { s with obj := t.obj, fab := { s.fab with links := t.fab.links, lastClass := t.fab.lastClass, local_ := t.fab.local_ } }
  objAt : ∀ a b c, b < 65536 → c < 256 → ¬(a = 0x0A ∧ (b = 0x107 ∨ b = 0x206)) → t.objAt a b c = s.objAt a b c

namespace Dev

variable {s t u : Dev}

theorem emits.refl (s : Dev) : emits s s := ⟨rfl, fun _ _ _ _ _ _ => rfl⟩

theorem emits.trans (h1 : emits s t) (h2 : emits t u) : emits s u where
  rest := by rw [h2.rest, h1.rest]
  objAt a b c hb hc h := (h2.objAt a b c hb hc h).trans (h1.objAt a b c hb hc h)

theorem emits.deviceId (h : emits s t) : t.deviceId = s.deviceId :=
  congrArg (BitVec.ofNat 16) (h.objAt 0x0A 0x200 0 (by decide) (by decide) (by decide))

theorem emits.linkUp (h : emits s t) (l : LinkId) : t.linkUp l = s.linkUp l := by
  unfold Dev.linkUp
  rw [h.objAt 0x0A 0x100 l.val (by decide) (by omega) (by decide)]

theorem sends.emits {ox : Nat} (h : Dev.sends ox s t) : emits s t where
  rest := by
    rw [h.rest]
  objAt a b c hb hc hne := h.objAt a b c hb hc fun e => hne ⟨e.1, .inl e.2⟩

theorem emits_local (s : Dev) (l : List Packet) : emits s (s.modFab fun x => { x with local_ := l }) := ⟨rfl, fun _ _ _ _ _ _ => rfl⟩

theorem emits_bump (s : Dev) : emits s (s.bump 0x0A 0x206 0 1) where
  rest := rfl
  objAt a b c hb hc hne := by
    rw [objAt_bump _ _ (by decide) hc (by decide) hb, if_neg fun e => hne ⟨e.1, .inr e.2.1⟩]

theorem emits_sendNotice (s : Dev) (ox : Nat) (p : Packet) : emits s (s.sendNotice ox p) := by
  unfold sendNotice
  split
  · exact .refl s
  dsimp only
  split
  · exact emits_local ..
  split
  · exact (sends_sendLink ..).1.emits
  · exact emits_bump s

theorem emits_emit (s : Dev) (ox : Nat) (p : Packet) : emits s (s.emit ox p) := by
  unfold emit
  split
  · exact emits_local ..
  split
  · exact (sends_sendLink ..).1.emits
  · exact (emits_bump s).trans (emits_sendNotice ..)

end Dev

/-- A flow as it stands once a packet of a key has left on it, unacknowledged until its deadline (R568). -/
def TxFlow.after (f : TxFlow) (key : BitVec 12) (deadline : Nat) : TxFlow :=
  { f with pkey := key, next := f.next + 1, waiting := f.waiting ++ [(f.next, deadline)] }

namespace Dev

variable (s : Dev) (ox : Nat) (num : U16) (p : Packet)

/-- The flow that a packet is sent on (R568): a new one takes the packet's key. -/
def flowFor : TxFlow := (s.flow p.dst num).getD { dst := p.dst, num := num, pkey := p.pkey }

theorem flow_keys {f : TxFlow} {dst : U16} (h : s.flow dst num = some f) : f.dst = dst ∧ f.num = num := by
  simpa using List.find?_some h

theorem flowFor_keys : (s.flowFor num p).dst = p.dst ∧ (s.flowFor num p).num = num := by
  unfold flowFor
  cases h : s.flow p.dst num with
  | none => exact ⟨rfl, rfl⟩
  | some f => exact s.flow_keys num h

/-- A flow reads as it was last put; the others are unchanged. -/
theorem flow_setFlow (f : TxFlow) (dst : U16) :
    (s.setFlow f).flow dst num = if dst = f.dst ∧ num = f.num then some f else s.flow dst num := by
  unfold setFlow flow modFab
  dsimp only
  generalize s.fab.flows = l
  have hput : ∀ l : List TxFlow, ((l.map fun g => if g.dst = f.dst && g.num = f.num then f else g).find? fun g => g.dst = dst && g.num = num)
      = if dst = f.dst ∧ num = f.num then (if l.any (fun g => g.dst = f.dst && g.num = f.num) then some f else none)
        else l.find? fun g => g.dst = dst && g.num = num := by
    intro l
    induction l with
    | nil => simp
    | cons g l ih => grind
  split
  next h => rw [hput, if_pos h]
  next h =>
    have hno : dst = f.dst ∧ num = f.num → (l.find? fun g => g.dst = dst && g.num = num) = none := by
      rintro ⟨rfl, rfl⟩
      rw [List.find?_eq_none]
      exact fun g hg hs => h (List.any_eq_true.mpr ⟨g, hg, hs⟩)
    rw [List.find?_append]
    split
    next hk =>
      rw [hno hk, hk.1, hk.2]
      simp
    next hk =>
      have hf : ([f].find? fun g => g.dst = dst && g.num = num) = none := by
        rw [List.find?_singleton, if_neg]
        intro e
        simp only [Bool.and_eq_true, decide_eq_true_eq] at e
        exact hk ⟨e.1.symm, e.2.symm⟩
      rw [hf, Option.or_none]

theorem flow_of_flows {s t : Dev} (h : t.fab.flows = s.fab.flows) (dst num : U16) : t.flow dst num = s.flow dst num := by
  rw [flow, h, flow]

/-- A packet that a flow sends takes the flow one further and leaves the OX die. -/
theorem emits_sendFlow :
    emits (s.setFlow ((s.flowFor num p).after p.pkey s.flowDeadline)) (s.sendFlow ox num p) := by
  unfold sendFlow
  exact emits_emit _ _ _

theorem emits.flow {s t : Dev} (h : emits s t) (dst num : U16) : t.flow dst num = s.flow dst num :=
  flow_of_flows (by rw [h.rest]) dst num

/-- The flow that a packet has been sent on. -/
theorem flow_sendFlow (dst : U16) (k : U16) : (s.sendFlow ox num p).flow dst k =
    if dst = p.dst ∧ k = num then some ((s.flowFor num p).after p.pkey s.flowDeadline) else s.flow dst k := by
  rw [(s.emits_sendFlow ox num p).flow, flow_setFlow]
  obtain ⟨hd, hn⟩ := s.flowFor_keys num p
  rw [show ((s.flowFor num p).after p.pkey s.flowDeadline).dst = p.dst from hd, show ((s.flowFor num p).after p.pkey s.flowDeadline).num = num from hn]

end Dev
end Sys2Proof.Machine
end

section
/-! PROOFS. Proofs/Arrivals.lean: packets that arrive in order, and what ends when a flow fails. -/

namespace Sys2Proof.Machine

namespace Dev

variable {s : Dev} {l : LinkId} {p0 p : Packet}

/-- What a host link writes into a packet is its identity and key alone (R573). -/
theorem identified_eq (s : Dev) (l : LinkId) (p : Packet) : ∃ a k, s.identified l p = { p with src := a, pkey := k } := by
  unfold identified
  split
  · exact ⟨_, _, rfl⟩
  · exact ⟨p.src, p.pkey, rfl⟩

theorem reaches.eq (h : s.reaches l p0 p) : ∃ a k, p = { p0 with src := a, pkey := k } := h.seen ▸ s.identified_eq l p0

theorem reaches.ptype (h : s.reaches l p0 p) : p.ptype = p0.ptype := by
  obtain ⟨a, k, rfl⟩ := h.eq
  rfl

/-- A packet that reaches this module is delivered at the OX die of its link. -/
theorem reaches.arriveAt (h : s.reaches l p0 p) : s.arriveAt l p0 = s.deliver (l.val / 8) p := by
  have hseen := h.seen
  have hhere := h.here
  unfold Dev.arriveAt
  unfold identified at hseen
  have hin : ¬(!s.linkUp l || decide (4096 < p0.payload.length)) = true := by
    have := h.short
    simp [h.up]
    omega
  rw [if_neg hin]
  split
  next hrole =>
    rw [if_pos hrole] at hseen
    rw [if_pos (by simpa using h.admitted hrole), ← hseen]
    exact if_pos hhere
  next hrole =>
    rw [if_neg hrole] at hseen
    rw [← hseen]
    exact if_pos hhere

/-- What a request, an answer or collective data does once it is the next of its flow and its acknowledgement has left. -/
def perform (s : Dev) (ox : Nat) (p : Packet) : Dev :=
  match p.ptype.toNat with
  | 0x10 => s.collData p
  | 0x11 => s.collGrant p
  | 0x09 | 0x0B => s.windowAnswer p
  | 0x02 => s
  | _ => s.acceptPacket ox p

/-- The receiving end of a packet's flow is put as f. -/
def putRx (s : Dev) (p : Packet) (f : RxFlow) : Dev :=
  s.modFab (fun x => { x with rxFlows := x.rxFlows.filter (fun g => !(g.src = p.src && g.num = p.flow)) ++ [f] })

/-- `inOrder` goes by the receiving end of the packet's flow, known or new (R568, R569). -/
theorem inOrder_eq (s : Dev) (p : Packet) : s.inOrder p =
    let f := s.rxFlow p
    let age := (p.epoch - f.epoch).toNat
    if 128 ≤ age then (s.bump 0x0A 0x209 0 1, false)
    else
      let f := if age = 0 then f else { f with epoch := p.epoch, next := 0 }
      if p.psn = f.next then (s.putRx p { f with next := f.next + 1 }, true) else (s.putRx p f, false) := by
  unfold inOrder rxFlow
  dsimp only
  cases s.fab.rxFlows.find? (fun f => f.src = p.src && f.num = p.flow) <;> rfl

theorem inOrder_of_isNext (h : s.isNext p) : s.inOrder p = (s.putRx p { s.rxFlow p with next := (s.rxFlow p).next + 1 }, true) := by
  obtain ⟨he, hn⟩ := h
  rw [inOrder_eq]
  dsimp only
  have h0 : (p.epoch - (s.rxFlow p).epoch).toNat = 0 := by rw [he, BitVec.sub_self]; rfl
  simp [h0, hn]

/-- A packet of its flow's epoch out of its order is discarded (R568). -/
theorem inOrder_of_psn (he : p.epoch = (s.rxFlow p).epoch) (hn : p.psn ≠ (s.rxFlow p).next) :
    s.inOrder p = (s.putRx p (s.rxFlow p), false) := by
  rw [inOrder_eq]
  dsimp only
  have h0 : (p.epoch - (s.rxFlow p).epoch).toNat = 0 := by rw [he, BitVec.sub_self]; rfl
  simp [h0, hn]

theorem rxFlow_keys (s : Dev) (p : Packet) : (s.rxFlow p).src = p.src ∧ (s.rxFlow p).num = p.flow := by
  unfold rxFlow
  cases h : s.fab.rxFlows.find? (fun f => f.src = p.src && f.num = p.flow) with
  | none => exact ⟨rfl, rfl⟩
  | some f => simpa using List.find?_some h

/-- The receiving end of a flow reads as it was put. -/
theorem rxFlow_putRx (s : Dev) (p : Packet) {f : RxFlow} (h : f.src = p.src ∧ f.num = p.flow) : (s.putRx p f).rxFlow p = f := by
  unfold rxFlow putRx modFab
  dsimp only
  rw [List.find?_append, List.find?_eq_none.mpr, Option.none_or, List.find?_singleton, if_pos (by simp [h.1, h.2])]
  · rfl
  · intro g hg hs
    simpa [hs] using (List.mem_filter.mp hg).2

/-- A packet that has been taken is the last of its flow. -/
theorem rxFlow_taken (s : Dev) (ox : Nat) (p : Packet) : (s.taken ox p).rxFlow p = { s.rxFlow p with next := (s.rxFlow p).next + 1 } := by
  have h : emits (s.putRx p { s.rxFlow p with next := (s.rxFlow p).next + 1 }) (s.taken ox p) := emits_emit _ _ _
  have hr : (s.taken ox p).fab.rxFlows = (s.putRx p { s.rxFlow p with next := (s.rxFlow p).next + 1 }).fab.rxFlows := by rw [h.rest]
  have := s.rxFlow_putRx p (f := { s.rxFlow p with next := (s.rxFlow p).next + 1 }) (s.rxFlow_keys p)
  rw [rxFlow] at this ⊢
  rw [hr, this]

/-- A packet whose type is not that of an acknowledgement or a notice, the next of its flow, is acknowledged and performed (R568). -/
theorem deliver_of_isNext (hk : s.keyState p.pkey = .enabled) (ht : knownType p.ptype.toNat = true) (ha : p.ptype ≠ 0x20) (hb : p.ptype ≠ 0x21)
    (h : s.isNext p) (ox : Nat) : s.deliver ox p = (s.taken ox p).perform ox p := by
  unfold deliver
  rw [if_neg (by simp [hk]), if_neg (by simp [ht]), if_neg ha, if_neg hb, inOrder_of_isNext h]
  rfl

end Dev

/-- What the early end of an operation leaves alone (R138, R568): all but the operations, what the mills, the sheaves and the memory hold for them,
and what waits for translations. -/
structure Dev.winds (s t : Dev) : Prop where
  rest : t = { s with
    cmd := { s.cmd with ops := t.cmd.ops, mills := t.cmd.mills }, obj := t.obj, mem := t.mem, xl := t.xl, shf := t.shf
    eventLog := t.eventLog, eventsOut := t.eventsOut, resetDue := t.resetDue }
  objAt : ∀ a b c, b < 65536 → c < 256 → a ≠ 2 → t.objAt a b c = s.objAt a b c
  fqEn : ∀ m, (t.mmu m).fqEn = (s.mmu m).fqEn

/-- An operation that ends early, with a reason unless it has one (R138). -/
def Operation.endedBy (reason : Nat) (o : Operation) : Operation := { o with aborting := o.aborting.or (some reason) }

namespace Dev

variable {s t u : Dev}

theorem winds.refl (s : Dev) : winds s s := ⟨rfl, fun _ _ _ _ _ _ => rfl, fun _ => rfl⟩

theorem winds.trans (h1 : winds s t) (h2 : winds t u) : winds s u where
  rest := by rw [h2.rest, h1.rest]
  objAt a b c hb hc h := (h2.objAt a b c hb hc h).trans (h1.objAt a b c hb hc h)
  fqEn m := (h2.fqEn m).trans (h1.fqEn m)

theorem winds.foldl {α : Type} {f : Dev → α → Dev} (hf : ∀ (s : Dev) (a : α), winds s (f s a)) (l : List α) (s : Dev) : winds s (l.foldl f s) := by
  induction l generalizing s with
  | nil => exact .refl s
  | cons a l ih => exact (hf s a).trans (ih _)

theorem memStep.winds (h : s.memStep t) (ho : t.obj = s.obj) (hm : ∀ m, (t.mmu m).fqEn = (s.mmu m).fqEn) : winds s t where
  fqEn := hm
  rest := by rw [h.rest]
  objAt a b c _ _ _ := by rw [Dev.objAt, Dev.obj!, Dev.objAt, Dev.obj!, ho]

theorem feedStep.winds (h : s.feedStep t) : winds s t where
  fqEn m := by rw [h.rest]; rfl
  rest := by rw [h.rest]
  objAt a b c _ _ _ := by rw [h.rest]; rfl

/-- Counts of the mills' dies alone differ. -/
structure millCounts (s t : Dev) : Prop where
  rest : t = { s with obj := t.obj }
  objAt : ∀ a b c, b < 65536 → c < 256 → a ≠ 2 → t.objAt a b c = s.objAt a b c

theorem millCounts.refl (s : Dev) : millCounts s s := ⟨rfl, fun _ _ _ _ _ _ => rfl⟩

theorem millCounts.trans (h1 : millCounts s t) (h2 : millCounts t u) : millCounts s u where
  rest := by rw [h2.rest, h1.rest]
  objAt a b c hb hc h := (h2.objAt a b c hb hc h).trans (h1.objAt a b c hb hc h)

theorem millCounts.foldl {α : Type} {f : Dev → α → Dev} (hf : ∀ (s : Dev) (a : α), millCounts s (f s a)) (l : List α) (s : Dev) :
    millCounts s (l.foldl f s) := by
  induction l generalizing s with
  | nil => exact .refl s
  | cons a l ih => exact (hf s a).trans (ih _)

theorem millCounts.winds (h : millCounts s t) : winds s t := ⟨by rw [h.rest], h.objAt, fun m => by rw [h.rest]; rfl⟩

theorem millCounts.cmd (h : millCounts s t) : t.cmd = s.cmd := by rw [h.rest]

theorem millCounts_bump (s : Dev) {b c : Nat} (n : Nat) (hb : b < 65536) (hc : c < 256) : millCounts s (s.bump 2 b c n) where
  rest := rfl
  objAt a' b' c' hb' hc' h := by
    rw [objAt_bump _ _ hc hc' hb hb', if_neg fun e => h e.1]

theorem millCounts_countPartial (s : Dev) (m : MillId) (gone : TileJob → Bool) : millCounts s (s.countPartial m gone) := by
  refine .foldl (fun s f => ?_) _ _
  split
  · refine .foldl (fun s e => ?_) _ _
    exact iteInduction (motive := fun t => millCounts s t) (fun _ => .refl s) fun _ => millCounts_bump s _ (by decide) (by omega)
  · exact .refl s

theorem millCounts_countAll (s : Dev) (l : List Nat) (gone : TileJob → Bool) :
    millCounts s (l.foldl (fun s n => (millId n).elim s (fun m => s.countPartial m gone)) s) := by
  refine .foldl (fun s n => ?_) _ _
  cases millId n with
  | none => exact .refl s
  | some m => exact millCounts_countPartial s m gone

theorem winds_modOp (s : Dev) (k : SlotId) (f : Operation → Operation) : winds s (s.modOp k f) := ⟨rfl, fun _ _ _ _ _ _ => rfl, fun _ => rfl⟩

theorem winds_mills (s : Dev) (v : Vector Mill 96) : winds s { s with cmd := { s.cmd with mills := v } } :=
  ⟨rfl, fun _ _ _ _ _ _ => rfl, fun _ => rfl⟩

theorem winds_discardMills (s : Dev) (k : SlotId) : winds s (s.discardMills k) := by
  unfold discardMills
  split
  · exact .refl s
  next o _ =>
    dsimp only
    have h := (millCounts_countAll s (s.opMills o) fun j => j.slot = k).winds
    generalize (s.opMills o).foldl _ s = t at h ⊢
    generalize t.cmd.mills.map _ = v
    refine h.trans ((winds_mills t v).trans ?_)
    split
    · exact (feedStep_intakeDie ..).winds
    · exact .refl _

theorem ops_discardMills (s : Dev) (k : SlotId) (h : ∀ o, s.op k = some o → millOpcode (iOpcode o.word) = false) :
    (s.discardMills k).cmd.ops = s.cmd.ops := by
  unfold discardMills
  split
  · rfl
  next o ho =>
    dsimp only
    rw [h o ho, if_neg Bool.false_ne_true]
    have hcmd := (millCounts_countAll s (s.opMills o) fun j => j.slot = k).cmd
    generalize (s.opMills o).foldl _ s = t at hcmd ⊢
    rw [hcmd]

theorem winds_modXl (s : Dev) {f : XlState → XlState} (hf : (f s.xl).mmus = s.xl.mmus) : winds s (s.modXl f) :=
  (memStep_modXl s f).winds rfl fun m => congrArg (fun v : Vector Mmu 2 => v[m].fqEn) hf

theorem winds_modMmu (s : Dev) (m : MmuId) {f : Mmu → Mmu} (hf : ∀ x, (f x).fqEn = x.fqEn) : winds s (s.modMmu m f) :=
  (memStep_modMmu s m f).winds rfl fun k => by
    rw [mmu_modMmu]
    split
    next h => rw [hf, h]
    · rfl

theorem winds_forgetOp (s : Dev) (k : SlotId) : winds s (s.forgetOp k) := by
  unfold forgetOp
  dsimp only
  refine winds.trans ?_ (winds.foldl (fun t m => ?_) _ _)
  · exact winds_modXl s rfl
  · exact winds_modMmu t m fun _ => rfl

theorem winds_forgetEntries (s : Dev) (o : Operation) : winds s (s.forgetEntries o) := by
  unfold forgetEntries
  split
  · exact .refl s
  · exact (memStep_modAgent ..).winds rfl fun _ => rfl

theorem winds_stopWaiting (s : Dev) (o : Operation) : winds s (s.stopWaiting o) := by
  unfold stopWaiting
  split
  · exact (feedStep_feed ..).winds
  split
  · exact .refl s
  · exact (winds_forgetOp s o.slot).trans (winds_forgetEntries ..)

theorem ops_stopWaiting (s : Dev) (o : Operation) (h : millOpcode (iOpcode o.word) = false) : (s.stopWaiting o).cmd.ops = s.cmd.ops := by
  unfold stopWaiting
  rw [h, if_neg Bool.false_ne_true]
  split
  · rfl
  · rw [cmd_forgetEntries, cmd_forgetOp]

theorem endEarly_of_op {k : SlotId} {o : Operation} (reason : Nat) (h : s.op k = some o) :
    ∃ x, s.endEarly k reason = ({ (s.modOp k (Operation.endedBy reason)).discardMills k with shf := x } : Dev).stopWaiting o := by
  unfold endEarly
  rw [h]
  exact ⟨_, rfl⟩

theorem endEarly_of_none {k : SlotId} (reason : Nat) (h : s.op k = none) : s.endEarly k reason = s := by
  unfold endEarly
  rw [h]

theorem winds_shf (s : Dev) (x : ShfState) : winds s { s with shf := x } := ⟨rfl, fun _ _ _ _ _ _ => rfl, fun _ => rfl⟩

theorem winds_endEarly (s : Dev) (k : SlotId) (reason : Nat) : winds s (s.endEarly k reason) := by
  cases h : s.op k with
  | none =>
    rw [endEarly_of_none reason h]
    exact .refl s
  | some o =>
    obtain ⟨x, hx⟩ := endEarly_of_op reason h
    rw [hx]
    exact ((winds_modOp s k _).trans (winds_discardMills _ k)).trans ((winds_shf _ x).trans (winds_stopWaiting _ o))

/-- The early end of an operation of no mill marks it, and changes no other. -/
theorem ops_endEarly (s : Dev) (k : SlotId) (reason : Nat) (h : ∀ o, s.op k = some o → millOpcode (iOpcode o.word) = false) :
    (s.endEarly k reason).cmd.ops = (s.modOp k (Operation.endedBy reason)).cmd.ops := by
  cases ho : s.op k with
  | none =>
    rw [endEarly_of_none reason ho]
    have hmap : s.cmd.ops.map (fun o => if o.slot = k then o.endedBy reason else o) = s.cmd.ops.map id :=
      List.map_congr_left fun o hmem => if_neg (by simpa using List.find?_eq_none.mp ho o hmem)
    exact (hmap.trans (List.map_id _)).symm
  | some o =>
    obtain ⟨x, hx⟩ := endEarly_of_op reason ho
    rw [hx, ops_stopWaiting _ o (h o ho)]
    refine ops_discardMills _ k fun o' ho' => ?_
    rw [op_modOp s k (f := Operation.endedBy reason) fun _ => rfl, ho] at ho'
    cases ho'
    exact h o ho

end Dev

/-- What the failure of a flow leaves alone beside the flow (R568, R582): all but what ends with it, its accesses and its record. -/
structure Dev.failures (s t : Dev) : Prop where
  rest : t = { s with
    cmd := { s.cmd with ops := t.cmd.ops, mills := t.cmd.mills }, obj := t.obj, mem := t.mem, xl := t.xl, shf := t.shf
    eventLog := t.eventLog, eventsOut := t.eventsOut, resetDue := t.resetDue, reply := t.reply
    fab := { s.fab with accesses := t.fab.accesses, windows := t.fab.windows } }
  objAt : (∀ m, (s.mmu m).fqEn = false) → ∀ a b c, b < 65536 → c < 256 → a ≠ 2 → t.objAt a b c = s.objAt a b c
  fqEn : ∀ m, (t.mmu m).fqEn = (s.mmu m).fqEn

namespace Dev

variable {s t u : Dev}

theorem failures.refl (s : Dev) : failures s s := ⟨rfl, fun _ _ _ _ _ _ _ => rfl, fun _ => rfl⟩

theorem failures.trans (h1 : failures s t) (h2 : failures t u) : failures s u where
  rest := by rw [h2.rest, h1.rest]
  objAt hoff a b c hb hc h := (h2.objAt (fun m => (h1.fqEn m).trans (hoff m)) a b c hb hc h).trans (h1.objAt hoff a b c hb hc h)
  fqEn m := (h2.fqEn m).trans (h1.fqEn m)

theorem failures.foldl {α : Type} {f : Dev → α → Dev} (hf : ∀ (s : Dev) (a : α), failures s (f s a)) (l : List α) (s : Dev) :
    failures s (l.foldl f s) := by
  induction l generalizing s with
  | nil => exact .refl s
  | cons a l ih => exact (hf s a).trans (ih _)

theorem winds.failures (h : winds s t) : failures s t := ⟨by rw [h.rest], fun _ => h.objAt, h.fqEn⟩

theorem failures_report (s : Dev) (d : Die) (f : RecFields) (hf : f.cls ≠ .fatal) : failures s (s.report d f) := by
  have h := reportStep.reportTo s (mmuOf d) (s.mkRecord d.val f)
  change s.reportStep (s.report d f) at h
  exact {
    rest := by rw [h.rest]
    objAt := fun hoff a b c _ _ _ => by rw [report_of_off hf (hoff _)]; rfl
    fqEn := fun m => by rw [h.mmu m] }

theorem failures_reply (s : Dev) (r : Option Reply) : failures s { s with reply := r } := ⟨rfl, fun _ _ _ _ _ _ _ => rfl, fun _ => rfl⟩

theorem failures_fab (s : Dev) (a : List WindowAccess) (w : Table Window) :
    failures s { s with fab := { s.fab with accesses := a, windows := w } } := ⟨rfl, fun _ _ _ _ _ _ _ => rfl, fun _ => rfl⟩

theorem failures_failAccesses (s : Dev) (p : WindowAccess → Bool) : failures s (s.failAccesses p) := by
  unfold failAccesses closeWindows
  dsimp only
  refine ((failures_fab s _ s.fab.windows).trans (failures.foldl (fun t a => ?_) _ _)).trans (failures_fab _ _ _)
  cases a.by_ with
  | core => exact failures_reply ..
  | op k => exact (winds_endEarly ..).failures

/-- The flow that has failed (R568). -/
def failedFlow (f : TxFlow) : TxFlow := { f with epoch := f.epoch + 1, next := 0, waiting := [] }

theorem failures_failFlow (s : Dev) (f : TxFlow) (cause : Nat) : failures (s.setFlow (failedFlow f)) (s.failFlow f cause) := by
  unfold failFlow
  dsimp only
  refine .trans ?_ (failures_failAccesses ..)
  split
  · exact (failures_report _ _ _ RecClass.noConfusion).trans (winds_endEarly ..).failures
  · exact failures_report _ _ _ RecClass.noConfusion

end Dev
end Sys2Proof.Machine
end

section
/-! PROOFS. Proofs/Transport.lean: transit, flow order, acknowledgements, notices and timeouts (O46). -/

namespace Sys2Proof.Machine

namespace Dev

variable {s : Dev} {l : LinkId} {p0 p : Packet} {ox : Nat}

/-- Stalls of links alone are counted (R427). -/
theorem objAt_countStalls (s : Dev) (n : Nat) {a b c : Nat} (hb : b < 65536) (hc : c < 256) (h : ¬(a = 0x0A ∧ b = 0x300)) :
    (s.countStalls n).objAt a b c = s.objAt a b c := by
  unfold countStalls
  have hlt : ∀ e ∈ s.fab.links.toList.zipIdx, e.2 < 32 := fun e he => by
    have := List.snd_lt_of_mem_zipIdx he
    simpa using this
  generalize s.fab.links.toList.zipIdx = es at hlt
  induction es generalizing s with
  | nil => rfl
  | cons e es ih =>
    rw [List.foldl_cons, ih _ fun x hx => hlt x (List.mem_cons_of_mem _ hx)]
    split
    · rfl
    · have := hlt e (List.mem_cons_self ..)
      rw [objAt_bump _ _ (by omega) hc (by decide) hb, if_neg fun e => h ⟨e.1, e.2.1⟩]

theorem objAt_advance (s : Dev) (v : U64) {a b c : Nat} (hb : b < 65536) (hc : c < 256) (h : ¬(a = 0x0A ∧ b = 0x300)) :
    (s.advance v).objAt a b c = s.objAt a b c := by
  rw [advance, latchAll_rest]
  exact objAt_countStalls (s.setNow v) _ hb hc h

theorem deliver_of_key (h : s.keyState p.pkey ≠ .enabled) : s.deliver ox p = s.bump 0x0A 0x205 0 1 := by
  unfold deliver
  rw [if_pos h]

/-- A packet out of its flow's order, or of an old epoch, is discarded (R568, R569). -/
theorem deliver_of_discard (hk : s.keyState p.pkey = .enabled) (ht : knownType p.ptype.toNat = true) (ha : p.ptype ≠ 0x20) (hb : p.ptype ≠ 0x21)
    {u : Dev} (h : s.inOrder p = (u, false)) : s.deliver ox p = u := by
  unfold deliver
  rw [if_neg (by simp [hk]), if_neg (by simp [ht]), if_neg ha, if_neg hb, h]

theorem deliver_ack (hk : s.keyState p.pkey = .enabled) (ht : p.ptype = 0x20) : s.deliver ox p = s.ackPacket p := by
  unfold deliver
  rw [if_neg (by simp [hk]), if_neg (by simp [ht, knownType]), if_pos ht]

theorem deliver_notice (hk : s.keyState p.pkey = .enabled) (ht : p.ptype = 0x21) : s.deliver ox p = s.noticePacket p := by
  unfold deliver
  rw [if_neg (by simp [hk]), if_neg (by simp [ht, knownType]), if_neg (by simp [ht]), if_pos ht]

theorem sendNotice_of_isNotice (s : Dev) (ox : Nat) (h : isNotice p = true) : s.sendNotice ox p = s := if_pos h

theorem routeLink_spec (h : s.routeLink ox p = some l) : s.linkUp l = true ∧ l.val ∈ (s.linkSet ox p.dst.toNat).map (fun n => n % 32) := by
  have hmem := List.mem_of_getElem? h
  obtain ⟨hl, hup⟩ := List.mem_filter.mp hmem
  obtain ⟨n, hn, rfl⟩ := List.mem_map.mp hl
  exact ⟨hup, List.mem_map.mpr ⟨n, hn, rfl⟩⟩

theorem emit_of_link (hd : p.dst ≠ s.deviceId) (h : s.routeLink ox p = some l) : s.emit ox p = s.sendLink l p := by
  unfold emit
  rw [if_neg hd, h]

theorem emit_of_none (hd : p.dst ≠ s.deviceId) (h : s.routeLink ox p = none) : s.emit ox p = (s.bump 0x0A 0x206 0 1).sendNotice ox p := by
  unfold emit
  rw [if_neg hd, h]

theorem objAt_bump_self (s : Dev) {a b c : Nat} (n : Nat) (hb : b < 65536) (hc : c < 256) :
    (s.bump a b c n).objAt a b c = (s.objAt a b c + n) % 2 ^ 64 := by
  rw [objAt_bump _ _ hc hc hb hb, if_pos ⟨rfl, rfl, rfl⟩]

/-- Accesses of cores alone fail: no operation ends. -/
theorem cmd_failAccesses_of_core {f : WindowAccess → Bool} (h : ∀ a ∈ s.fab.accesses, f a = true → a.by_ = .core) :
    (s.failAccesses f).cmd = s.cmd := by
  unfold failAccesses
  dsimp only
  change (List.foldl _ (s.modFab _) _).cmd = _
  have hcore : ∀ a ∈ s.fab.accesses.filter f, a.by_ = .core := fun a ha => h a (List.mem_filter.mp ha).1 (List.mem_filter.mp ha).2
  rw [show s.cmd = (s.modFab fun x => { x with accesses := x.accesses.filter fun a => !f a }).cmd from rfl]
  generalize s.fab.accesses.filter f = as at hcore
  generalize s.modFab _ = t
  induction as generalizing t with
  | nil => rfl
  | cons a as ih =>
    rw [List.foldl_cons, hcore a (List.mem_cons_self ..)]
    exact (ih (fun b hb => hcore b (List.mem_cons_of_mem _ hb)) _).trans rfl

end Dev

/-- An operation that ends a flow early is of the flow's journal slot. -/
theorem Dev.op_of_flowOp {s : Dev} {f : TxFlow} {o : Operation} (h : s.flowOp f = some o) : s.op o.slot = some o := by
  unfold Dev.flowOp at h
  split at h
  · obtain ⟨ho, -⟩ := Option.filter_eq_some_iff.mp h
    have hslot := List.find?_some ho
    rw [decide_eq_true_eq] at hslot
    rw [hslot]
    exact ho
  · cases h

/-- The collective that a flow served ends with reason 0x0E when the flow fails (R568). -/
theorem Dev.op_failFlow {s : Dev} {f : TxFlow} {o : Operation} (cause : Nat) (h : s.flowOp f = some o) (hop : 0x60 ≤ iOpcode o.word)
    (hcore : ∀ x ∈ s.fab.accesses, x.dst = f.dst → x.num = f.num → x.by_ = .core) :
    (s.failFlow f cause).op o.slot = some (o.endedBy 0xE) := by
  unfold Dev.failFlow
  dsimp only
  have hflow : (s.setFlow { f with epoch := f.epoch + 1, next := 0, waiting := [] }).flowOp f = some o := h
  rw [hflow]
  dsimp only
  generalize hr : Dev.report _ _ _ = r
  have hrep := Dev.memStep_report (s.setFlow { f with epoch := f.epoch + 1, next := 0, waiting := [] })
  have hrest : (s.setFlow { f with epoch := f.epoch + 1, next := 0, waiting := [] }).memStep r := hr ▸ hrep _ _
  have hro : r.op o.slot = some o := by
    rw [Dev.op, Dev.memStep_cmd hrest]
    exact Dev.op_of_flowOp h
  have hmill : ∀ x, r.op o.slot = some x → millOpcode (iOpcode x.word) = false := fun x hx => by
    rw [hro] at hx
    cases hx
    simp only [millOpcode, Bool.or_eq_false_iff, decide_eq_false_iff_not]
    omega
  have hend := (r.winds_endEarly o.slot 0xE).rest
  rw [Dev.op, Dev.cmd_failAccesses_of_core, r.ops_endEarly o.slot 0xE hmill]
  · change (r.modOp o.slot (Operation.endedBy 0xE)).op o.slot = _
    rw [Dev.op_modOp r o.slot (f := Operation.endedBy 0xE) fun _ => rfl, hro]
    rfl
  · rw [hend, hrest.rest]
    intro a ha hm
    simp only [Bool.and_eq_true, decide_eq_true_eq] at hm
    exact hcore a ha hm.1 hm.2

theorem packetOf_known {c : Instr} {l : LinkId} {p0 : Packet} {t : BitVec 6} (h : packetOf c = some (l, p0, t)) : knownType t.toNat = true := by
  unfold packetOf at h
  split at h <;> cases h <;> rfl

theorem exec_packetOf {c : Instr} {l : LinkId} {p0 : Packet} {t : BitVec 6} (h : packetOf c = some (l, p0, t)) (s : State) :
    exec c s = .next { s with toDev := s.toDev.typeArrives l p0 t } := by
  unfold packetOf at h
  split at h <;> cases h <;> rfl

theorem typeArrives_of_reaches {s : Dev} {l : LinkId} {p0 p : Packet} (h : s.reaches l p0 p) {t : BitVec 6} (ht : p0.ptype = t) :
    s.typeArrives l p0 t = s.deliver (l.val / 8) p := by
  unfold Dev.typeArrives
  rw [if_pos ht, h.arriveAt]

theorem exec_of_reaches {c : Instr} {l : LinkId} {p0 p : Packet} {t : BitVec 6} (hc : packetOf c = some (l, p0, t)) {s : State}
    (h : s.reaches l p0 p) (ht : p0.ptype = t) : exec c s = .next { s with toDev := s.toDev.deliver (l.val / 8) p } := by
  rw [exec_packetOf hc, typeArrives_of_reaches h ht]

/-- A packet that stands at an OX die of a module that has addressed none to itself is in transit there. -/
theorem exec_packetTransit {s : State} (h : s.fab.local_ = []) (ox : Fin 4) (p : Packet) :
    exec (.packetTransit ox p) s = .next { s with toDev := s.toDev.transit ox.val p } := by
  refine exec_eq_next rfl ?_
  have hsame : s.toDev.modFab (fun f => { f with local_ := removeFirst (· == p) f.local_ }) = s.toDev := by
    rw [Dev.modFab, h]
    exact congrArg (fun l => { s.toDev with fab := { s.fab with local_ := l } }) h.symm
  exact congrArg (fun d : Dev => d.transit ox.val p) hsame

section Transit

variable {s : State} {ox : Fin 4} {p : Packet} (hl : s.fab.local_ = [])
include hl

theorem transit_foreignKey (hd : p.dst = s.deviceId) (hk : s.keyState p.pkey ≠ .enabled) :
    ∃ u, exec (.packetTransit ox p) s = .next u
      ∧ u.objAt 0x0A 0x205 0 = (s.objAt 0x0A 0x205 0 + 1) % 2 ^ 64 ∧ u = { s with obj := u.obj } := by
  have ht : s.toDev.transit ox.val p = s.toDev.bump 0x0A 0x205 0 1 := by
    rw [Dev.transit, if_pos hd, Dev.deliver_of_key hk]
  exact ⟨_, exec_packetTransit hl ox p, by dsimp only; rw [ht]; exact Dev.objAt_bump_self _ _ (by decide) (by decide), by rw [ht]; rfl⟩

theorem transit_tooFar (hd : p.dst ≠ s.deviceId) (hh : p.hops = 15) (hn : isNotice p = true) :
    ∃ u, exec (.packetTransit ox p) s = .next u
      ∧ u.objAt 0x0A 0x207 0 = (s.objAt 0x0A 0x207 0 + 1) % 2 ^ 64 ∧ u = { s with obj := u.obj } := by
  have ht : s.toDev.transit ox.val p = s.toDev.bump 0x0A 0x207 0 1 := by
    rw [Dev.transit, if_neg hd, if_pos hh, Dev.sendNotice_of_isNotice _ _ hn]
  exact ⟨_, exec_packetTransit hl ox p, by dsimp only; rw [ht]; exact Dev.objAt_bump_self _ _ (by decide) (by decide), by rw [ht]; rfl⟩

theorem transit_unroutable (hd : p.dst ≠ s.deviceId) (hh : p.hops ≠ 15) (hr : s.routeLink ox.val { p with hops := p.hops + 1 } = none)
    (hn : isNotice p = true) :
    ∃ u, exec (.packetTransit ox p) s = .next u
      ∧ u.objAt 0x0A 0x206 0 = (s.objAt 0x0A 0x206 0 + 1) % 2 ^ 64 ∧ u = { s with obj := u.obj } := by
  have ht : s.toDev.transit ox.val p = s.toDev.bump 0x0A 0x206 0 1 := by
    rw [Dev.transit, if_neg hd, if_neg hh, Dev.emit_of_none (p := { p with hops := p.hops + 1 }) hd hr]
    exact Dev.sendNotice_of_isNotice _ _ hn
  exact ⟨_, exec_packetTransit hl ox p, by dsimp only; rw [ht]; exact Dev.objAt_bump_self _ _ (by decide) (by decide), by rw [ht]; rfl⟩

theorem transit_forwarded {l : LinkId} (hd : p.dst ≠ s.deviceId) (hh : p.hops ≠ 15)
    (hr : s.routeLink ox.val { p with hops := p.hops + 1 } = some l) :
    s.linkUp l = true ∧ l.val ∈ (s.linkSet ox.val p.dst.toNat).map (fun n => n % 32) ∧ ∃ u, exec (.packetTransit ox p) s = .next u
      ∧ { p with hops := p.hops + 1 } ∈ (u.link l).queue ++ (u.link l).sent.map SentPacket.packet
      ∧ (∀ k : LinkId, k.val / 8 ≠ l.val / 8 → u.link k = s.link k)
      ∧ u = { s with fab := { s.fab with links := u.fab.links, lastClass := u.fab.lastClass }, obj := u.obj } := by
  obtain ⟨hup, hset⟩ := Dev.routeLink_spec hr
  have ht : s.toDev.transit ox.val p = s.toDev.sendLink l { p with hops := p.hops + 1 } := by
    rw [Dev.transit, if_neg hd, if_neg hh, Dev.emit_of_link (p := { p with hops := p.hops + 1 }) hd hr]
  obtain ⟨hsend, hmem⟩ := s.toDev.sends_sendLink l { p with hops := p.hops + 1 }
  refine ⟨hup, hset, _, exec_packetTransit hl ox p, ?_⟩
  dsimp only
  rw [ht]
  generalize s.toDev.sendLink l _ = t at hsend hmem
  refine ⟨hmem, hsend.others, ?_⟩
  have hrest := hsend.rest
  generalize t.obj = a, t.fab.links = b, t.fab.lastClass = c at hrest
  subst hrest
  rfl

end Transit

section Arrival

variable {s : State} {c : Instr} {l : LinkId} {p0 p : Packet} {t : BitVec 6} (hc : packetOf c = some (l, p0, t))
include hc

theorem exec_of_ptype (h : p0.ptype ≠ t) : exec c s = .next s := by
  rw [exec_packetOf hc, Dev.typeArrives, if_neg h]

theorem exec_of_linkDown (h : s.linkUp l = false) : exec c s = .next s := by
  rw [exec_packetOf hc, Dev.typeArrives]
  have : s.toDev.arriveAt l p0 = s.toDev := by
    rw [Dev.arriveAt, h]
    rfl
  rw [this, ite_self]

variable (ht : p0.ptype = t) (h : s.reaches l p0 p)
include ht h

theorem known_of_reaches : knownType p.ptype.toNat = true := by
  rw [h.ptype, ht]
  exact packetOf_known hc

theorem exec_of_discard (ha : t ≠ 0x20) (hb : t ≠ 0x21) {u : Dev} (hu : s.toDev.inOrder p = (u, false)) : exec c s = .next { s with toDev := u } := by
  rw [exec_of_reaches hc h ht, Dev.deliver_of_discard h.key (known_of_reaches hc ht h) (by rwa [h.ptype, ht]) (by rwa [h.ptype, ht]) hu]

theorem exec_of_isNext (ha : t ≠ 0x20) (hb : t ≠ 0x21) (hn : s.isNext p) :
    exec c s = .next { s with toDev := (s.taken (l.val / 8) p).perform (l.val / 8) p } := by
  rw [exec_of_reaches hc h ht, Dev.deliver_of_isNext h.key (known_of_reaches hc ht h) (by rwa [h.ptype, ht]) (by rwa [h.ptype, ht]) hn]

theorem exec_of_psn (ha : t ≠ 0x20) (hb : t ≠ 0x21) (he : p.epoch = (s.rxFlow p).epoch) (hn : p.psn ≠ (s.rxFlow p).next) :
    ∃ u, exec c s = .next u ∧ u.rxFlow p = s.rxFlow p ∧ u = { s with fab := { s.fab with rxFlows := u.fab.rxFlows } } :=
  ⟨_, exec_of_discard hc ht h ha hb (Dev.inOrder_of_psn he hn), s.toDev.rxFlow_putRx p (s.toDev.rxFlow_keys p), rfl⟩

theorem exec_of_oldEpoch (ha : t ≠ 0x20) (hb : t ≠ 0x21) (he : 128 ≤ (p.epoch - (s.rxFlow p).epoch).toNat) :
    ∃ u, exec c s = .next u ∧ u = { s with obj := u.obj } ∧ u.objAt 0x0A 0x209 0 = (s.objAt 0x0A 0x209 0 + 1) % 2 ^ 64 := by
  have hin : s.toDev.inOrder p = (s.toDev.bump 0x0A 0x209 0 1, false) := by
    rw [Dev.inOrder_eq]
    exact if_pos he
  exact ⟨_, exec_of_discard hc ht h ha hb hin, rfl, Dev.objAt_bump_self _ _ (by decide) (by decide)⟩

theorem exec_of_completion (h2 : t = 0x02) (hn : s.isNext p) : exec c s = .next { s with toDev := s.taken (l.val / 8) p } := by
  have hp : p.ptype.toNat = 2 := by rw [h.ptype, ht, h2]; rfl
  rw [exec_of_isNext hc ht h (by simp [h2]) (by simp [h2]) hn, Dev.perform, hp]
  rfl

theorem exec_of_ack (h2 : t = 0x20) {f : TxFlow} (hf : s.flow p.src p.flow = some f) (he : f.epoch = p.epoch) :
    ∃ u, exec c s = .next u
      ∧ u.flow p.src p.flow = some { f with waiting := f.waiting.filter (fun e => !decide ((p.psn - e.1).toNat < 2 ^ 31)) }
      ∧ u = { s with fab := { s.fab with flows := u.fab.flows } } := by
  have hd : s.toDev.deliver (l.val / 8) p = s.toDev.setFlow (f.ack p.psn) := by
    rw [Dev.deliver_ack h.key (by rw [h.ptype, ht, h2]), Dev.ackPacket, hf]
    exact if_pos he
  obtain ⟨hdst, hnum⟩ := Dev.flow_keys _ _ hf
  refine ⟨_, exec_of_reaches hc h ht, ?_⟩
  dsimp only
  rw [hd, Dev.flow_setFlow, if_pos ⟨hdst.symm, hnum.symm⟩]
  exact ⟨rfl, rfl⟩

theorem exec_of_oldAck (h2 : t = 0x20) {f : TxFlow} (hf : s.flow p.src p.flow = some f) (he : f.epoch ≠ p.epoch) :
    ∃ u, exec c s = .next u ∧ u = { s with obj := u.obj } ∧ u.objAt 0x0A 0x209 0 = (s.objAt 0x0A 0x209 0 + 1) % 2 ^ 64 := by
  have hd : s.toDev.deliver (l.val / 8) p = s.toDev.bump 0x0A 0x209 0 1 := by
    rw [Dev.deliver_ack h.key (by rw [h.ptype, ht, h2]), Dev.ackPacket, hf]
    exact if_neg he
  refine ⟨_, exec_of_reaches hc h ht, ?_⟩
  dsimp only
  rw [hd]
  exact ⟨rfl, Dev.objAt_bump_self _ _ (by decide) (by decide)⟩

variable {f : TxFlow} (hf : s.flow (BitVec.ofNat 16 p.offset.toNat) (BitVec.ofNat 16 p.aux0.toNat) = some f)
include hf

theorem exec_of_oldNotice (h2 : t = 0x21) (he : f.epoch ≠ p.epoch) :
    ∃ u, exec c s = .next u ∧ u = { s with obj := u.obj } ∧ u.objAt 0x0A 0x209 0 = (s.objAt 0x0A 0x209 0 + 1) % 2 ^ 64 := by
  have hd : s.toDev.deliver (l.val / 8) p = s.toDev.bump 0x0A 0x209 0 1 := by
    rw [Dev.deliver_notice h.key (by rw [h.ptype, ht, h2]), Dev.noticePacket, hf]
    exact if_neg he
  refine ⟨_, exec_of_reaches hc h ht, ?_⟩
  dsimp only
  rw [hd]
  exact ⟨rfl, Dev.objAt_bump_self _ _ (by decide) (by decide)⟩

theorem exec_of_notice (h2 : t = 0x21) (he : f.epoch = p.epoch) : exec c s = .next { s with toDev := s.toDev.failFlow f 2 } := by
  rw [exec_of_reaches hc h ht, Dev.deliver_notice h.key (by rw [h.ptype, ht, h2]), Dev.noticePacket, hf]
  exact congrArg (fun d : Dev => Host.Outcome.next { s with toDev := d }) (if_pos he)

end Arrival

theorem Dev.flows_failFlow (s : Dev) (f : TxFlow) (cause : Nat) : (s.failFlow f cause).fab.flows = (s.setFlow (Dev.failedFlow f)).fab.flows := by
  rw [(s.failures_failFlow f cause).rest]

/-- A flow that fails begins again under its next epoch (R568). -/
theorem Dev.flow_failFlow (s : Dev) (f : TxFlow) (cause : Nat) : (s.failFlow f cause).flow f.dst f.num = some (Dev.failedFlow f) := by
  rw [Dev.flow_of_flows (s.flows_failFlow f cause), Dev.flow_setFlow, if_pos ⟨rfl, rfl⟩]

/-- The only flow of a device is put. -/
theorem Dev.flows_setFlow_single {s : Dev} {f g : TxFlow} (h : s.fab.flows = [f]) (hd : f.dst = g.dst) (hn : f.num = g.num) :
    (s.setFlow g).fab.flows = [g] := by
  unfold Dev.setFlow Dev.modFab
  dsimp only
  rw [h]
  simp [hd, hn]

section Timeout

variable {s : State} {num : U16} {t : Instant}

theorem Dev.now_advance (s : Dev) (t : U64) : (s.advance t).now.toNat = max s.now.toNat t.toNat := by
  rw [Dev.advance_now]
  split <;> omega

/-- What a timeout looks for: the flows of a number with a packet that is late. -/
theorem exec_transportTimeout (num : U16) (t : Instant) (s : State) : exec (.transportTimeout num t) s = .next { s with toDev :=
    (let late := s.fab.flows.filter (fun f => f.num = num && f.waiting.any (fun e => e.2 ≤ (s.toDev.advance t).now.toNat))
     if late.isEmpty then s.toDev else late.foldl (fun s f => (s.bump 0x0A 0x208 0 1).failFlow f 1) (s.toDev.advance t)) } := rfl

theorem timeout_none (h : ∀ f ∈ s.fab.flows, f.num = num → ∀ e ∈ f.waiting, max s.now.toNat t.toNat < e.2) :
    exec (.transportTimeout num t) s = .next s := by
  rw [exec_transportTimeout, if_pos]
  rw [List.isEmpty_iff, List.filter_eq_nil_iff]
  intro f hf hlate
  simp only [Bool.and_eq_true, decide_eq_true_eq, List.any_eq_true, Dev.now_advance] at hlate
  obtain ⟨hn, e, he, hle⟩ := hlate
  have := h f hf hn e he
  omega

theorem timeout_one {f : TxFlow} (hf : s.fab.flows = [f]) (hn : f.num = num) (hlate : ∃ e ∈ f.waiting, e.2 ≤ max s.now.toNat t.toNat) :
    exec (.transportTimeout num t) s = .next { s with toDev := (((s.toDev.advance t).bump 0x0A 0x208 0 1).failFlow f 1) } := by
  have hl : s.fab.flows.filter (fun f => f.num = num && f.waiting.any (fun e => e.2 ≤ (s.toDev.advance t).now.toNat)) = [f] := by
    rw [hf, List.filter_eq_self]
    intro g hg
    rw [List.mem_singleton.mp hg]
    simpa [hn, Dev.now_advance] using hlate
  rw [exec_transportTimeout, hl]
  rfl

end Timeout

/-- Settles O46: a packet's way is read off its key, its hops, its route, its flow's epoch and PSN, in that order; a newer epoch being taken up, an older
one discarded, and a failed flow beginning at PSN 0 are log entry 49. -/
theorem transportRules : Obligations.TransportRules := by
  refine ⟨fun ox p s hl => ⟨transit_foreignKey hl, transit_tooFar hl, transit_unroutable hl, fun _ => transit_forwarded hl⟩, fun c l p0 p t s hc => ⟨?_, ?_, ?_, ?_, ?_⟩, fun num t s => ⟨timeout_none, ?_⟩⟩
  · exact exec_of_ptype hc
  · exact exec_of_linkDown hc
  · exact fun ht h ha hb => ⟨exec_of_psn hc ht h ha hb, exec_of_oldEpoch hc ht h ha hb, fun hn h2 => exec_of_completion hc ht h h2 hn⟩
  · exact fun ht h h2 f hf => ⟨exec_of_ack hc ht h h2 hf, exec_of_oldAck hc ht h h2 hf⟩
  · refine fun ht h h2 f hf => ⟨exec_of_oldNotice hc ht h hf h2, fun he hcore => ?_⟩
    refine ⟨_, exec_of_notice hc ht h hf h2 he, fun _ => s.toDev.flow_failFlow f 2, fun o ho _ hop => s.toDev.op_failFlow 2 ho hop hcore⟩
  · intro f hf hn hlate _ _
    have hnow := s.toDev.now_advance t
    have hcount : (s.toDev.advance t).objAt 0x0A 0x208 0 = s.objAt 0x0A 0x208 0 := Dev.objAt_advance _ _ (by decide) (by decide) (by decide)
    have hfab : (s.toDev.advance t).fab.flows = [f] := by rw [Dev.advance_fab, hf]
    have hxl := Dev.advance_xl s.toDev t
    have hexec := timeout_one hf hn hlate
    generalize s.toDev.advance t = a at *
    have hfail := (a.bump 0x0A 0x208 0 1).failures_failFlow f 1
    refine ⟨_, hexec, ?_, ?_, fun hoff => ?_⟩
    · dsimp only
      rw [hfail.rest]
      exact hnow
    · exact (Dev.flows_failFlow ..).trans (Dev.flows_setFlow_single (f := f) hfab rfl rfl)
    · refine (hfail.objAt (fun m => ?_) _ _ _ (by decide) (by decide) (by decide)).trans ?_
      · exact (congrArg (fun x : XlState => x.mmus[m].fqEn) hxl).trans (hoff m)
      · exact (a.objAt_bump_self 1 (by decide) (by decide)).trans (by rw [hcount])

end Sys2Proof.Machine
end

section
/-! PROOFS. Proofs/Collectives.lean: the streams that collective data and grants move (O48). -/

namespace Sys2Proof.Machine

namespace Dev

variable {s : Dev} {o : Operation} {x : CollOp}


/-- A rank that has read all its input, or that waits for a partial, reads nothing (R600). -/
theorem collRead_of_waits (h : min (x.reduced * x.chunk + x.chunk) x.elems ≤ x.reduced * x.chunk
      ∨ ∃ t ∈ x.ins, t.partials = true ∧ allKnown x.partials (partKey t.rank) (x.reduced * x.chunk) (min (x.reduced * x.chunk + x.chunk) x.elems) = false) :
    s.collRead o x = (s, .ok x) := by
  unfold collRead
  refine if_pos ?_
  rcases h with h | ⟨t, ht, hp, hk⟩
  · rw [decide_eq_true h, Bool.true_or]
  · rw [Bool.or_eq_true, Bool.not_eq_true', List.all_eq_false]
    exact .inr ⟨t, List.mem_filter.mpr ⟨ht, hp⟩, by rw [hk]; exact Bool.false_ne_true⟩

/-- A stream whose next chunk is not whole sends nothing (R603). -/
theorem collSend_of_partial {t : CollStream} (h : allKnown (x.source t) id (t.range x.chunk t.done).1 (t.range x.chunk t.done).2 = false) :
    s.collSend o x t = (s, t) := by
  unfold collSend
  refine if_pos ?_
  rw [Bool.or_eq_true, Bool.not_eq_true']
  exact .inr h

theorem collWrite_of_none (h : x.dueChunk o.written = none) : s.collWrite o x = (s, .ok []) := by
  unfold collWrite
  rw [h]
  cases x.out <;> rfl

/-- The streams of a collective, none of which sends, stay as they are. -/
theorem foldl_collSend (l : List CollStream) (h : ∀ t ∈ l, s.collSend o x t = (s, t)) (outs : List CollStream) :
    l.foldl (fun (acc : Dev × List CollStream) t => ((acc.1.collSend o x t).1, acc.2 ++ [(acc.1.collSend o x t).2])) (s, outs) = (s, outs ++ l) := by
  induction l generalizing outs with
  | nil => rw [List.append_nil]; rfl
  | cons t l ih =>
    rw [List.foldl_cons, h t (List.mem_cons_self ..), ih fun y hy => h y (List.mem_cons_of_mem _ hy), List.append_assoc]
    rfl

/-- A running collective that can neither read, send nor write stays, but that its completion and its counts are looked at (R600, R602, R603). -/
theorem collAdvance_of_idle {k : SlotId} (ho : s.op k = some o) (hb : o.body = .coll x) (hg : o.goes = true) (hop : iOpcode o.word ≠ 0x64)
    (hread : s.collRead o x = (s, .ok x)) (hsend : ∀ t ∈ x.outs, s.collSend o x t = (s, t)) (hdue : x.dueChunk o.written = none) :
    ∃ fin tal n, s.collAdvance k = (s.putColl k { x with tallies := tal, finished := fin }).modOp k
      (fun y => { y with written := o.written, counts := y.counts.add n }) := by
  unfold collAdvance
  simp only [ho, hb, hg, hread, foldl_collSend x.outs hsend [], List.nil_append, if_neg hop]
  have hwrite := collWrite_of_none (s := s) (o := { o with body := .coll x }) (x := x) hdue
  rw [if_neg Bool.noConfusion, hwrite]
  dsimp only
  rw [List.append_nil]
  exact ⟨_, _, _, rfl⟩

/-- What is left of a collective that cannot go on, as its operation reads. -/
theorem op_collAdvance_of_idle {k : SlotId} (ho : s.op k = some o) (hb : o.body = .coll x) (hg : o.goes = true) (hop : iOpcode o.word ≠ 0x64)
    (hread : s.collRead o x = (s, .ok x)) (hsend : ∀ t ∈ x.outs, s.collSend o x t = (s, t)) (hdue : x.dueChunk o.written = none) :
    ∃ o' fin tal, (s.collAdvance k).op k = some o' ∧ o'.body = .coll { x with tallies := tal, finished := fin } ∧ o'.written = o.written
      ∧ (s.collAdvance k).mem = s.mem ∧ (s.collAdvance k).fab = s.fab := by
  obtain ⟨fin, tal, n, h⟩ := collAdvance_of_idle ho hb hg hop hread hsend hdue
  refine ⟨{ o with body := .coll { x with tallies := tal, finished := fin }, written := o.written, counts := o.counts.add n }, fin, tal, ?_, rfl, rfl, ?_, ?_⟩
  · rw [h, op_modOp _ _ (f := fun y => { y with written := o.written, counts := y.counts.add n }) fun _ => rfl, putColl,
      op_modOp _ _ (f := fun y => { y with body := .coll { x with tallies := tal, finished := fin } }) fun _ => rfl, ho]
    rfl
  · rw [h]
    rfl
  · rw [h]
    rfl

theorem op_putColl {k : SlotId} (ho : s.op k = some o) (y : CollOp) : (s.putColl k y).op k = some { o with body := .coll y } := by
  rw [putColl, op_modOp _ _ (f := fun o => { o with body := .coll y }) fun _ => rfl, ho]
  rfl

/-- A running collective of a key and an identifier goes on. -/
theorem goes_of_collsOf {k : BitVec 12} {id : Nat} (h : (o, x) ∈ s.collsOf k id) : o.goes = true := by
  obtain ⟨o', -, h⟩ := List.mem_filterMap.mp h
  split at h
  · split at h
    next hg =>
      cases h
      exact (Bool.and_eq_true_iff.mp (Bool.and_eq_true_iff.mp hg).1).1
    · cases h
  · cases h

/-- What a grant makes of a stream that it fits (R603). -/
def grants (x : CollOp) (rank at_ : Nat) (t : CollStream) : CollStream :=
  if (decide (t.rank = rank) && decide (t.base + t.granted = at_) && decide (t.granted < chunkCount x.chunk t.count)) = true then
    { t with granted := t.granted + 1 } else t

theorem collGrant_of_none {p : Packet} (h : s.collsOf p.pkey p.aux1.toNat = []) :
    s.collGrant p = s.modFab fun f => { f with early := f.early ++ [⟨p.pkey, p.aux1.toNat, p.aux0.toNat % 65536, p.offset.toNat⟩] } := by
  unfold collGrant
  rw [h]
  rfl

theorem collData_of_none {p : Packet} (h : s.collsOf p.pkey p.aux1.toNat = []) : s.collData p = s := by
  unfold collData
  rw [h]
  rfl

theorem collGrant_of_fits {p : Packet} (h : s.collsOf p.pkey p.aux1.toNat = [(o, x)])
    (hfit : ∃ t ∈ x.outs, (decide (t.rank = p.aux0.toNat % 65536) && decide (t.base + t.granted = p.offset.toNat)
      && decide (t.granted < chunkCount x.chunk t.count)) = true) :
    s.collGrant p = (s.putColl o.slot { x with outs := x.outs.map (grants x (p.aux0.toNat % 65536) p.offset.toNat) }).collAdvance o.slot := by
  have hany := List.any_eq_true.mpr hfit
  unfold collGrant
  rw [h]
  simp only [List.find?_cons, hany]
  rfl

/-- A grant leaves a stream its place and its source. -/
theorem grants_same (x : CollOp) (rank at_ : Nat) (t : CollStream) :
    (grants x rank at_ t).partials = t.partials ∧ (grants x rank at_ t).done = t.done ∧ ∀ c k, (grants x rank at_ t).range c k = t.range c k := by
  unfold grants
  split <;> exact ⟨rfl, rfl, fun _ _ => rfl⟩

/-- A grant lets its stream send one chunk more, and none is whole yet. -/
theorem op_collGrant {p : Packet} (hc : s.collsOf p.pkey p.aux1.toNat = [(o, x)]) (ho : s.op o.slot = some o)
    (hfit : ∃ t ∈ x.outs, (decide (t.rank = p.aux0.toNat % 65536) && decide (t.base + t.granted = p.offset.toNat)
      && decide (t.granted < chunkCount x.chunk t.count)) = true)
    (hread : min (x.reduced * x.chunk + x.chunk) x.elems ≤ x.reduced * x.chunk
      ∨ ∃ t ∈ x.ins, t.partials = true ∧ allKnown x.partials (partKey t.rank) (x.reduced * x.chunk) (min (x.reduced * x.chunk + x.chunk) x.elems) = false)
    (hsend : ∀ t ∈ x.outs, allKnown (x.source t) id (t.range x.chunk t.done).1 (t.range x.chunk t.done).2 = false)
    (hdue : x.dueChunk o.written = none) (hop : iOpcode o.word ≠ 0x64) :
    ∃ o' y, (s.collGrant p).op o.slot = some o' ∧ o'.body = .coll y ∧ y.outs = x.outs.map (grants x (p.aux0.toNat % 65536) p.offset.toNat)
      ∧ y.ins = x.ins ∧ y.known = x.known ∧ y.partials = x.partials ∧ o'.written = o.written ∧ (s.collGrant p).mem = s.mem
      ∧ (s.collGrant p).fab = s.fab := by
  rw [collGrant_of_fits hc hfit]
  have hg : o.goes = true := goes_of_collsOf (s := s) (k := p.pkey) (id := p.aux1.toNat) (by rw [hc]; exact List.mem_singleton_self _)
  generalize hy : ({ x with outs := x.outs.map (grants x (p.aux0.toNat % 65536) p.offset.toNat) } : CollOp) = y
  have hidle : ∀ t ∈ y.outs, (s.putColl o.slot y).collSend { o with body := .coll y } y t = (s.putColl o.slot y, t) := by
    intro t ht
    rw [← hy] at ht
    obtain ⟨t0, ht0, rfl⟩ := List.mem_map.mp ht
    obtain ⟨hp, hd, hr⟩ := grants_same x (p.aux0.toNat % 65536) p.offset.toNat t0
    refine collSend_of_partial ?_
    rw [hr, hd, CollOp.source, hp, ← hy]
    exact hsend t0 ht0
  have hread' : (s.putColl o.slot y).collRead { o with body := .coll y } y = (s.putColl o.slot y, .ok y) :=
    collRead_of_waits (by rw [← hy]; exact hread)
  obtain ⟨o', fin, tal, hop', hbody, hw, hmem, hfab⟩ := op_collAdvance_of_idle (op_putColl ho y) rfl hg hop hread' hidle (by rw [← hy]; exact hdue)
  exact ⟨o', _, hop', hbody, by rw [← hy], by rw [← hy], by rw [← hy], by rw [← hy], hw, hmem, hfab⟩


/-- What a rank knows once a stream of encoded elements has brought a payload (R600). -/
def knownAfter (x : CollOp) (t : CollStream) (p : Packet) : Table (Option Nat) :=
  ((codesOf (x.streamBits t) (8 * p.payload.length / x.streamBits t) (leNat p.payload)).take ((t.range x.chunk t.done).2 - p.offset.toNat)).zipIdx.foldl
    (fun m c => Table.set none m (p.offset.toNat + c.2) (some c.1)) x.known

/-- A stream in, once its rank knows some elements: a chunk received whole grants the next (R603). -/
def streamAfter (x : CollOp) (t : CollStream) (known : Table (Option Nat)) : CollStream :=
  if allKnown known id (t.range x.chunk t.done).1 (t.range x.chunk t.done).2 = true then
    { t with done := t.done + 1, granted := min (t.granted + 1) (chunkCount x.chunk t.count) }
  else t

/-- A collective whose only stream in has brought a payload. -/
def dataAfter (x : CollOp) (t : CollStream) (p : Packet) : CollOp :=
  { x with known := knownAfter x t p, ins := [streamAfter x t (knownAfter x t p)] }

/-- Data that a collective's only stream, of encoded elements, awaits is placed in it (R600, R603). -/
theorem collData_of_awaits {p : Packet} {t : CollStream} (h : s.collsOf p.pkey p.aux1.toNat = [(o, x)]) (hin : x.ins = [t])
    (ha : x.awaits t (p.aux0.toNat % 65536) p.offset.toNat = true) (hp : t.partials = false) :
    s.collData p = Dev.collAdvance (if t.granted < (streamAfter x t (knownAfter x t p)).granted
      then (s.putColl o.slot (dataAfter x t p)).sendGrant o (dataAfter x t p) (p.aux0.toNat % 65536) (t.base + t.granted)
      else s.putColl o.slot (dataAfter x t p)) o.slot := by
  unfold collData
  rw [h]
  simp only [List.findSome?_cons, hin, List.find?_cons, ha, Option.map_some, hp, Bool.false_eq_true, if_false, List.map_cons, List.map_nil, if_true,
    dataAfter, streamAfter, knownAfter]

/-- A grant that leaves changes its flow, and of the operations and of memory nothing. -/
theorem sendGrant_spec (s : Dev) (o : Operation) (x : CollOp) (rank chunk : Nat) :
    (s.sendGrant o x rank chunk).cmd = s.cmd ∧ (s.sendGrant o x rank chunk).mem = s.mem
      ∧ ∀ f, s.flow (x.device rank) (opFlow o.slot) = some f →
        ∃ g, (s.sendGrant o x rank chunk).flow (x.device rank) (opFlow o.slot) = some g ∧ g.next = f.next + 1 := by
  unfold sendGrant
  dsimp only
  generalize hq : ({ mkPacket 0x11 1 x.pkey (x.device rank) chunk with aux0 := BitVec.ofNat 24 x.rank, aux1 := BitVec.ofNat 32 x.collId } : Packet) = q
  have hdst : q.dst = x.device rank := by rw [← hq]; rfl
  have h := s.emits_sendFlow ((homeDie o.queue).val - 14) (opFlow o.slot) q
  refine ⟨by rw [h.rest]; rfl, by rw [h.rest]; rfl, fun f hf => ?_⟩
  rw [flow_sendFlow, if_pos ⟨hdst.symm, rfl⟩]
  refine ⟨_, rfl, ?_⟩
  rw [flowFor, hdst, hf]
  rfl

/-- What data makes of a collective whose only stream awaits it, and that has nothing else to do (R600, R602, R603). -/
theorem op_collData {p : Packet} {t : CollStream} (hc : s.collsOf p.pkey p.aux1.toNat = [(o, x)]) (ho : s.op o.slot = some o) (hin : x.ins = [t])
    (ha : x.awaits t (p.aux0.toNat % 65536) p.offset.toNat = true) (hp : t.partials = false) (houts : x.outs = [])
    (hread : x.elems ≤ x.reduced * x.chunk) (hop : iOpcode o.word ≠ 0x64)
    (hdue : CollOp.dueChunk { x with known := knownAfter x t p } o.written = none) :
    ∃ o' y, (s.collData p).op o.slot = some o' ∧ o'.body = .coll y ∧ y.known = knownAfter x t p ∧ y.partials = x.partials
      ∧ y.ins = [streamAfter x t (knownAfter x t p)] ∧ o'.written = o.written ∧ (s.collData p).mem = s.mem
      ∧ (¬t.granted < (streamAfter x t (knownAfter x t p)).granted → (s.collData p).fab.flows = s.fab.flows)
      ∧ (t.granted < (streamAfter x t (knownAfter x t p)).granted → ∀ f, s.flow (x.device (p.aux0.toNat % 65536)) (opFlow o.slot) = some f →
          ∃ g, (s.collData p).flow (x.device (p.aux0.toNat % 65536)) (opFlow o.slot) = some g ∧ g.next = f.next + 1) := by
  rw [collData_of_awaits hc hin ha hp]
  have hg : o.goes = true := goes_of_collsOf (s := s) (k := p.pkey) (id := p.aux1.toNat) (by rw [hc]; exact List.mem_singleton_self _)
  have hgrant := (s.putColl o.slot (dataAfter x t p)).sendGrant_spec o (dataAfter x t p) (p.aux0.toNat % 65536) (t.base + t.granted)
  generalize hu : ite (t.granted < (streamAfter x t (knownAfter x t p)).granted) _ _ = u
  have hcmd : u.cmd = (s.putColl o.slot (dataAfter x t p)).cmd ∧ u.mem = s.mem := by
    rw [← hu]
    split
    · exact ⟨hgrant.1, hgrant.2.1⟩
    · exact ⟨rfl, rfl⟩
  have huo : u.op o.slot = some { o with body := .coll (dataAfter x t p) } := by
    rw [op, hcmd.1]
    exact op_putColl ho _
  have hreadu : u.collRead { o with body := .coll (dataAfter x t p) } (dataAfter x t p) = (u, .ok (dataAfter x t p)) :=
    collRead_of_waits (.inl (le_trans (Nat.min_le_right _ _) hread))
  have hidle : ∀ y ∈ (dataAfter x t p).outs, u.collSend { o with body := .coll (dataAfter x t p) } (dataAfter x t p) y = (u, y) := fun y hy => by
    rw [show (dataAfter x t p).outs = [] from houts] at hy
    cases hy
  obtain ⟨o', fin, tal, hop', hbody, hw, hmem, hfab⟩ := op_collAdvance_of_idle huo rfl hg hop hreadu hidle hdue
  refine ⟨o', _, hop', hbody, rfl, rfl, rfl, hw, hmem.trans hcmd.2, fun hn => ?_, fun hlt f hf => ?_⟩
  · rw [hfab, ← hu, if_neg hn]
    rfl
  · rw [flow_of_flows (congrArg FabricState.flows hfab), ← hu, if_pos hlt]
    exact hgrant.2.2 f hf

end Dev

section Arrivals

variable {l : LinkId} {p0 p : Packet} {s : State} (h : s.reaches l p0 p) (hn : s.isNext p)

/-- What a packet that has been taken leaves: its flow, and what its acknowledgement sends. -/
theorem Dev.taken_same (s : Dev) (ox : Nat) (p : Packet) : (s.taken ox p).cmd = s.cmd ∧ (s.taken ox p).mem = s.mem
    ∧ (s.taken ox p).fab.flows = s.fab.flows ∧ (s.taken ox p).fab.early = s.fab.early := by
  have h : Dev.emits (s.putRx p { s.rxFlow p with next := (s.rxFlow p).next + 1 }) (s.taken ox p) := Dev.emits_emit _ _ _
  exact ⟨by rw [h.rest]; rfl, by rw [h.rest]; rfl, by rw [h.rest]; rfl, by rw [h.rest]; rfl⟩

include h hn

theorem exec_collectiveGrant (ht : p0.ptype = 0x11) :
    exec (.collectiveGrant l p0) s = .next { s with toDev := (s.taken (l.val / 8) p).collGrant p } := by
  have hp : p.ptype.toNat = 0x11 := by rw [h.ptype, ht]; rfl
  rw [exec_of_isNext (t := 0x11) rfl ht h (by decide) (by decide) hn, Dev.perform, hp]
  rfl

theorem exec_collectiveData (ht : p0.ptype = 0x10) :
    exec (.collectiveData l p0) s = .next { s with toDev := (s.taken (l.val / 8) p).collData p } := by
  have hp : p.ptype.toNat = 0x10 := by rw [h.ptype, ht]; rfl
  rw [exec_of_isNext (t := 0x10) rfl ht h (by decide) (by decide) hn, Dev.perform, hp]
  rfl

end Arrivals

/-- Settles O48: a grant is kept or moves its stream on, data is placed and grants the next chunk; an early grant being kept, and a grant's offset
being the chunk's number, are log entry 50. -/
theorem collectiveStreams : Obligations.CollectiveStreams := by
  intro l p0 p s h hn
  obtain ⟨hcmd, hmem, hflows, hearly⟩ := s.toDev.taken_same (l.val / 8) p
  have hcolls : (s.taken (l.val / 8) p).collsOf p.pkey p.aux1.toNat = s.collsOf p.pkey p.aux1.toNat := by
    rw [Dev.collsOf, hcmd, Dev.collsOf]
  refine ⟨fun ht hc => ?_, fun ht hc => ?_, fun o x hc ho hb => ⟨fun ht => ?_, fun ht t hin ha hp houts hread hop => ?_⟩⟩
  · refine ⟨_, exec_collectiveGrant h hn ht, ?_⟩
    dsimp only
    rw [Dev.collGrant_of_none (hcolls.trans hc)]
    exact ⟨by rw [← hearly]; rfl, (congrArg RxFlow.next (s.toDev.rxFlow_taken (l.val / 8) p)).trans (by rw [hn.2]), hcmd, hmem⟩
  · rw [exec_collectiveData h hn ht, Dev.collData_of_none (hcolls.trans hc)]
  · intro a z fits hfit hread hsend hdue hop
    have ho' : (s.taken (l.val / 8) p).op o.slot = some o := by rw [Dev.op, hcmd]; exact ho
    obtain ⟨o', y, hop', hbody, houts, hins, hknown, hpart, hw, hmem', hfab⟩ := Dev.op_collGrant (hcolls.trans hc) ho' hfit hread hsend hdue hop
    refine ⟨_, o', y, exec_collectiveGrant h hn ht, hop', hbody, houts, hins, hknown, hpart, hw, hmem'.trans hmem, ?_⟩
    dsimp only
    rw [hfab, hearly]
  · intro b a z codes known hdue
    have ho' : (s.taken (l.val / 8) p).op o.slot = some o := by rw [Dev.op, hcmd]; exact ho
    obtain ⟨o', y, hop', hbody, hknown, hpart, hins, hw, hmem', hkept, hgrant⟩ :=
      Dev.op_collData (hcolls.trans hc) ho' hin ha hp houts hread hop hdue
    refine ⟨_, o', y, exec_collectiveData h hn ht, hop', hbody, hknown, hpart, hw, hmem'.trans hmem, fun hk => ?_, fun hk => ?_⟩
    · have hsame : Dev.streamAfter x t (Dev.knownAfter x t p) = t := if_neg (by rw [show allKnown (Dev.knownAfter x t p) id a z = false from hk]; exact Bool.false_ne_true)
      rw [hsame] at hins hkept
      exact ⟨hins, hkept (lt_irrefl _)⟩
    · have hmoved : Dev.streamAfter x t (Dev.knownAfter x t p)
          = { t with done := t.done + 1, granted := min (t.granted + 1) (chunkCount x.chunk t.count) } := if_pos hk
      rw [hmoved] at hins hgrant
      refine ⟨hins, fun hlt f hf => hgrant (lt_min (Nat.lt_succ_self _) hlt) f ?_⟩
      rw [Dev.flow_of_flows hflows]
      exact hf

end Sys2Proof.Machine
end

section
/-! PROOFS. Proofs/Requests.lean: host commands, remote requests and the answers to window accesses (O47). -/

namespace Sys2Proof.Machine

namespace Dev

variable {s d : Dev} {ox : Nat} {p : Packet}

theorem oxDie_sub (h : ox < 4) : (oxDie ox).val - 14 = ox := by
  unfold oxDie
  dsimp only
  omega

/-- A request that alone is accepted is performed, and answered or kept (R575, R577). -/
theorem retryAccepted_of_one (hox : ox < 4) (h : s.fab.accepted = [{ die := oxDie ox, packet := p }]) :
    s.retryAccepted = (s.servePacket ox p none).1.modFab fun f =>
      { f with accepted := if (s.servePacket ox p none).2 then [] else s.fab.accepted } := by
  unfold retryAccepted
  dsimp only
  rw [h, List.foldl_cons, List.foldl_nil, List.any_nil, if_neg Bool.false_ne_true, oxDie_sub hox]
  generalize s.servePacket ox p none = r
  obtain ⟨t, _ | _⟩ := r <;> rfl

theorem acceptPacket_eq (hacc : s.fab.accepted = []) (p : Packet) :
    s.acceptPacket ox p = (s.modFab fun f => { f with accepted := [{ die := oxDie ox, packet := p }] }).retryAccepted := by
  rw [acceptPacket, modFab, hacc]
  rfl

/-- How a host command ends by the outcome of its access: with the bytes it has read, or its failure's status (R575). -/
def hostEnd {α : Type} (r : Dev × Fetch α) (bytes : α → List Byte) : Dev × Fetch (Nat × List Byte) :=
  (r.1, match r.2 with
    | .ok a => .ok (0, bytes a)
    | .wait => .wait
    | .fail k _ => .ok (hostStatus k, []))

theorem hostEnd_ok {α : Type} {r : Dev × Fetch α} {a : α} (h : r.2 = .ok a) (bytes : α → List Byte) : hostEnd r bytes = (r.1, .ok (0, bytes a)) := by
  rw [hostEnd, h]

theorem hostEnd_wait {α : Type} {r : Dev × Fetch α} (h : r.2 = .wait) (bytes : α → List Byte) : hostEnd r bytes = (r.1, .wait) := by
  rw [hostEnd, h]

theorem hostEnd_fail {α : Type} {r : Dev × Fetch α} {k b : Nat} (h : r.2 = .fail k b) (bytes : α → List Byte) :
    hostEnd r bytes = (r.1, .ok (if k = 6 then 3 else 2, [])) := by
  rw [hostEnd, h]
  rfl

/-- The port of the link receive path of an OX die, as a host command of an address space uses it (R455, R575). -/
def hostPort (ox asid : Nat) : Port := { die := oxDie ox, stream := 0x40, queue := 0, asid := asid }

theorem performHost_unbound (h : s.binding p (hostCmd p) = none) : s.performHost ox p none = (s.bump 0x0A 0x20A 0 1, .ok (1, [])) := by
  unfold performHost
  rw [h]

section Bound

variable {asid : Nat} (h : s.binding p (hostCmd p) = some asid)
include h

theorem performHost_write (hc : hostCmd p = 1) : s.performHost ox p none
    = hostEnd (s.writeUnit (hostPort ox asid) 0 false (if p.payload = [] then [] else [(p.offset.toNat, p.payload)])) fun _ => [] := by
  unfold performHost
  rw [h, hc]
  dsimp only [hostPort]
  generalize s.writeUnit _ _ _ _ = r
  obtain ⟨t, _ | _ | _⟩ := r <;> rfl

theorem performHost_read (hc : hostCmd p = 2) : s.performHost ox p none
    = if 4096 < p.aux1.toNat then (s, .ok (1, [])) else hostEnd (s.readVa (hostPort ox asid) p.offset.toNat p.aux1.toNat) id := by
  unfold performHost
  rw [h, hc]
  dsimp only [hostPort]
  generalize s.readVa _ _ _ = r
  obtain ⟨t, _ | _ | _⟩ := r <;> rfl

theorem performHost_add (hc : hostCmd p = 4) : s.performHost ox p none
    = ((s.drainWcbOf (linkWriter ox)).addPcounter (p.aux0.toNat % 1024) p.aux1, .ok (0, [])) := by
  unfold performHost
  rw [h, hc]
  rfl

theorem performHost_pushRefused (hc : hostCmd p = 3)
    (hq : (s.queue ⟨p.aux0.toNat % 2048, Nat.mod_lt _ (by decide)⟩).state = .detached
      ∨ (s.queue ⟨p.aux0.toNat % 2048, Nat.mod_lt _ (by decide)⟩).asid.toNat ≠ asid) : s.performHost ox p none = (s, .ok (1, [])) := by
  unfold performHost
  rw [h, hc]
  exact if_pos (by simpa using hq)

/-- A push of a host command ends as the push does (R577). -/
theorem performHost_push (hc : hostCmd p = 3)
    (hs : (s.queue ⟨p.aux0.toNat % 2048, Nat.mod_lt _ (by decide)⟩).state ≠ .detached)
    (ha : (s.queue ⟨p.aux0.toNat % 2048, Nat.mod_lt _ (by decide)⟩).asid.toNat = asid) {r : Dev × PushEnd}
    (hr : (s.drainWcbOf (linkWriter ox)).push ⟨p.aux0.toNat % 2048, Nat.mod_lt _ (by decide)⟩ (p.aux1.toNat % 65536) = r) :
    (r.2 = .accepted → s.performHost ox p none = (r.1, .ok (0, []))) ∧ (r.2 = .overflow ∨ r.2 = .bad → s.performHost ox p none = (r.1, .ok (1, [])))
      ∧ (r.2 = .waits → s.performHost ox p none = (r.1, .wait)) := by
  have hcond : ¬(decide ((s.queue ⟨p.aux0.toNat % 2048, Nat.mod_lt _ (by decide)⟩).state = .detached)
      || decide ((s.queue ⟨p.aux0.toNat % 2048, Nat.mod_lt _ (by decide)⟩).asid.toNat ≠ asid)) = true := by
    simp [hs, ha]
  unfold performHost
  rw [h, hc]
  dsimp only
  rw [if_neg hcond, hr]
  obtain ⟨d, e⟩ := r
  refine ⟨?_, ?_, ?_⟩
  · rintro rfl
    rfl
  · rintro (rfl | rfl) <;> rfl
  · rintro rfl
    rfl

end Bound

end Dev

section Serving

variable {l : LinkId} {p0 p : Packet} {s : State} (h : s.reaches l p0 p) (hn : s.isNext p) (hacc : s.fab.accepted = [])
include h hn hacc

/-- A request that is the next of its flow is performed in the state in which it alone is accepted. -/
theorem deliver_request (hty : p0.ptype = 1 ∨ p0.ptype = 8 ∨ p0.ptype = 0xA ∨ p0.ptype = 0xC) :
    s.toDev.deliver (l.val / 8) p = ((s.serving (l.val / 8) p).servePacket (l.val / 8) p none).1.modFab fun f =>
      { f with accepted := if ((s.serving (l.val / 8) p).servePacket (l.val / 8) p none).2 then [] else (s.serving (l.val / 8) p).fab.accepted } := by
  rw [← h.ptype] at hty
  have hperf : s.toDev.deliver (l.val / 8) p = (s.taken (l.val / 8) p).acceptPacket (l.val / 8) p := by
    rcases hty with hty | hty | hty | hty <;>
      rw [Dev.deliver_of_isNext h.key (by rw [hty]; decide) (by rw [hty]; decide) (by rw [hty]; decide) hn, Dev.perform, hty] <;> rfl
  have htaken : (s.taken (l.val / 8) p).fab.accepted = [] := by
    have he : Dev.emits (s.putRx p { s.rxFlow p with next := (s.rxFlow p).next + 1 }) (s.taken (l.val / 8) p) := Dev.emits_emit _ _ _
    rw [he.rest]
    exact hacc
  rw [hperf, Dev.acceptPacket_eq htaken]
  exact Dev.retryAccepted_of_one (s := s.serving (l.val / 8) p) (by omega) rfl

/-- The state in which a request that has been performed is answered. -/
theorem deliver_answered (hty : p0.ptype = 1 ∨ p0.ptype = 8 ∨ p0.ptype = 0xA ∨ p0.ptype = 0xC) {d : Dev}
    (hs : (s.serving (l.val / 8) p).servePacket (l.val / 8) p none = (d, true)) :
    s.toDev.deliver (l.val / 8) p = d.modFab fun f => { f with accepted := [] } := by
  rw [deliver_request h hn hacc hty, hs]
  rfl

theorem deliver_waits (hty : p0.ptype = 1 ∨ p0.ptype = 8 ∨ p0.ptype = 0xA ∨ p0.ptype = 0xC) {d : Dev}
    (hs : (s.serving (l.val / 8) p).servePacket (l.val / 8) p none = (d, false)) :
    s.toDev.deliver (l.val / 8) p = d.modFab fun f => { f with accepted := (s.serving (l.val / 8) p).fab.accepted } := by
  rw [deliver_request h hn hacc hty, hs]
  rfl

end Serving

theorem hostCmd_of_reaches {l : LinkId} {p0 p : Packet} {s : State} (h : s.reaches l p0 p) : hostCmd p = hostCmd p0 := by
  obtain ⟨a, k, rfl⟩ := h.eq
  rfl

section Hosts

variable {l : LinkId} {p0 p : Packet} {s : State} (h : s.reaches l p0 p) (hn : s.isNext p) (hacc : s.fab.accepted = []) (ht : p0.ptype = 1)
include h ht hacc

theorem hostArrives_eq {cmd : Nat} (hcmd : hostCmd p0 = cmd) : s.toDev.hostArrives l p0 cmd = s.toDev.deliver (l.val / 8) p := by
  rw [Dev.hostArrives, if_neg (by simp [ht, hcmd]), hacc, List.any_nil, if_neg Bool.false_ne_true, h.arriveAt]

include hn

/-- A host command whose outcome is known is answered by a completion (R575). -/
theorem host_answered {cmd : Nat} (hcmd : hostCmd p0 = cmd) {d : Dev} {status : Nat} {bytes : List Byte}
    (hp : (s.serving (l.val / 8) p).performHost (l.val / 8) p none = (d, .ok (status, bytes))) :
    s.toDev.hostArrives l p0 cmd = (d.answerTo (l.val / 8) p 2 status bytes).modFab fun f => { f with accepted := [] } := by
  rw [hostArrives_eq h hacc ht hcmd]
  refine deliver_answered h hn hacc (.inl ht) ?_
  rw [Dev.servePacket, if_pos (h.ptype.trans ht), hp]

theorem host_waits {cmd : Nat} (hcmd : hostCmd p0 = cmd) {d : Dev}
    (hp : (s.serving (l.val / 8) p).performHost (l.val / 8) p none = (d, .wait)) :
    s.toDev.hostArrives l p0 cmd = d.modFab fun f => { f with accepted := (s.serving (l.val / 8) p).fab.accepted } := by
  rw [hostArrives_eq h hacc ht hcmd]
  refine deliver_waits h hn hacc (.inl ht) ?_
  rw [Dev.servePacket, if_pos (h.ptype.trans ht), hp]

end Hosts
section Remotes

namespace Dev

variable {s : Dev} {ox : Nat} {p : Packet}

theorem spans_of_open {ts : List LineTag} (h : s.linesOpen ts = true) : (s.spanHeld ts).1 = false ∧ (s.spanHeld ts).2 = false := by
  simpa [linesOpen] using h

theorem performRemote_readRefused (ht : p.ptype = 0x08) (h : p.aux1.toNat = 0 ∨ 4096 < p.aux1.toNat ∨ s.exported p 0 p.aux1.toNat = false) :
    s.performRemote ox p = (s, .ok (0x09, 1, [])) := by
  unfold performRemote
  rw [ht]
  refine if_pos ?_
  rcases h with h | h | h <;> simp [h]

theorem performRemote_read (ht : p.ptype = 0x08) (hn : 0 < p.aux1.toNat) (hm : p.aux1.toNat ≤ 4096) (he : s.exported p 0 p.aux1.toNat = true)
    (ho : s.linesOpen (spanLines p.offset.toNat p.aux1.toNat) = true) :
    let d := (spanLines p.offset.toNat p.aux1.toNat).foldl (fun s t => s.onceRead t) s
    let r := d.physRead p.offset.toNat p.aux1.toNat false
    s.performRemote ox p = (d, .ok (0x09, (if r.2 then 3 else 0), (if r.2 then [] else r.1))) := by
  obtain ⟨h1, h2⟩ := spans_of_open ho
  unfold performRemote
  rw [ht]
  dsimp only
  refine (if_neg (by simp [he, h1]; omega)).trans ((if_neg (by simp [h2])).trans ?_)
  split <;> rfl

theorem performRemote_writeRefused (ht : p.ptype = 0x0A) (h : p.payload.length = 0 ∨ s.exported p 1 p.payload.length = false) :
    s.performRemote ox p = (s, .ok (0x0B, 1, [])) := by
  unfold performRemote
  rw [ht]
  refine if_pos ?_
  rcases h with h | h <;> simp [h]

theorem performRemote_write (ht : p.ptype = 0x0A) (hn : 0 < p.payload.length) (he : s.exported p 1 p.payload.length = true)
    (ho : s.linesOpen (spanLines p.offset.toNat p.payload.length) = true) :
    s.performRemote ox p = (s.physWrite p.offset.toNat p.payload false (oxDie ox), .ok (0x0B, 0, [])) := by
  obtain ⟨h1, h2⟩ := spans_of_open ho
  unfold performRemote
  rw [ht]
  exact (if_neg (by simp [he, h1, List.ne_nil_of_length_pos hn])).trans (if_neg (by simp [h2]))

theorem performRemote_atomicRefused (ht : p.ptype = 0x0C)
    (h : s.exported p 2 (atomicBytes (p.aux0.toNat % 16)) = false ∨ p.offset.toNat % atomicBytes (p.aux0.toNat % 16) ≠ 0) :
    s.performRemote ox p = (s, .ok (0x09, 1, [])) := by
  unfold performRemote
  rw [ht]
  refine if_pos ?_
  rcases h with h | h <;> simp [h]

theorem performRemote_atomic (ht : p.ptype = 0x0C) (he : s.exported p 2 (atomicBytes (p.aux0.toNat % 16)) = true)
    (ha : p.offset.toNat % atomicBytes (p.aux0.toNat % 16) = 0)
    (ho : s.linesOpen (spanLines p.offset.toNat (atomicBytes (p.aux0.toNat % 16))) = true) {r : Dev × Nat × Bool}
    (hr : ((s.gatherHome (tagOf p.offset.toNat false)).dropSide (tagOf p.offset.toNat false)).homeAtomic (tagOf p.offset.toNat false)
      (p.offset.toNat % 128) (p.aux0.toNat % 16) (fieldAt p.payload 0 (atomicBytes (p.aux0.toNat % 16)))
      (fieldAt p.payload (atomicBytes (p.aux0.toNat % 16)) (atomicBytes (p.aux0.toNat % 16))) (writerOf (oxDie ox).val 0x40) = r) :
    s.performRemote ox p
      = (r.1, .ok (0x09, (if r.2.2 then 3 else 0), (if r.2.2 then [] else leBytes (atomicBytes (p.aux0.toNat % 16)) r.2.1))) := by
  obtain ⟨h1, h2⟩ := spans_of_open ho
  unfold performRemote
  rw [ht]
  dsimp only
  rw [hr]
  refine (if_neg (by simp [he, h1, ha])).trans ((if_neg (by simp [h2])).trans ?_)
  obtain ⟨d, old, _ | _⟩ := r <;> rfl

end Dev

/-- A remote request whose outcome is known is answered (R581). -/
theorem remote_answered {l : LinkId} {p0 p : Packet} {s : State} (h : s.reaches l p0 p) (hn : s.isNext p) (hacc : s.fab.accepted = [])
    {c : Instr} {t : BitVec 6} (hc : packetOf c = some (l, p0, t)) (ht : p0.ptype = t) (h3 : t = 8 ∨ t = 0xA ∨ t = 0xC)
    {d : Dev} {ty : BitVec 6} {status : Nat} {bytes : List Byte}
    (hp : (s.serving (l.val / 8) p).performRemote (l.val / 8) p = (d, .ok (ty, status, bytes))) :
    exec c s = .next { s with toDev := (d.answerTo (l.val / 8) p ty status bytes).modFab fun f => { f with accepted := [] } } := by
  rw [exec_of_reaches hc h ht]
  have hne : p.ptype ≠ 1 := by
    rw [h.ptype, ht]
    rcases h3 with rfl | rfl | rfl <;> decide
  rw [deliver_answered h hn hacc (.inr (ht ▸ h3)) (d := d.answerTo (l.val / 8) p ty status bytes)]
  rw [Dev.servePacket, if_neg hne, hp]

end Remotes
section Answers

namespace Dev

variable {s : Dev} {p : Packet}

/-- Whether a window access is the one that an answer is for (R580). -/
def answers (p : Packet) (a : WindowAccess) : Bool := a.dst = p.src && a.num.toNat = p.aux0.toNat % 65536 && a.offset = p.offset.toNat

/-- A window access that has been answered is over. -/
def answeredWindow (s : Dev) (p : Packet) : Dev :=
  (s.modFab (fun f => { f with accesses := removeFirst (answers p) f.accesses })).closeWindows

theorem windowAnswer_core {x : WindowAccess} (h : s.fab.accesses.find? (answers p) = some x) (hb : x.by_ = .core) :
    s.windowAnswer p = { s.answeredWindow p with
      reply := some (if p.aux1.toNat % 256 = 0 then .value (BitVec.ofNat 64 (leNat p.payload)) else .accessError) } := by
  unfold windowAnswer
  change (match s.fab.accesses.find? (answers p) with | none => s | some a => _) = _
  rw [h]
  dsimp only
  rw [hb]
  rfl

theorem windowAnswer_ok {x : WindowAccess} {k : SlotId} (h : s.fab.accesses.find? (answers p) = some x) (hb : x.by_ = .op k)
    (hs : p.aux1.toNat % 256 = 0) :
    s.windowAnswer p = (s.answeredWindow p).modFab fun f =>
      { f with remoteData := Table.set none f.remoteData k.val (some ((Table.get none s.fab.remoteData k.val).getD [] ++ p.payload)) } := by
  unfold windowAnswer
  change (match s.fab.accesses.find? (answers p) with | none => s | some a => _) = _
  rw [h]
  dsimp only
  rw [hb]
  exact if_pos hs

/-- An access that its target could not perform fails its operation, with a record unless the bytes were poisoned (R580, R582). -/
theorem windowAnswer_fail {x : WindowAccess} {k : SlotId} (h : s.fab.accesses.find? (answers p) = some x) (hb : x.by_ = .op k)
    (hs : p.aux1.toNat % 256 ≠ 0) :
    ∃ t, (s.answeredWindow p).memStep t ∧ s.windowAnswer p = t.failOp k (if p.aux1.toNat % 256 = 3 then 6 else 4) x.pa := by
  have hw : s.windowAnswer p = if p.aux1.toNat % 256 = 3 then (s.answeredWindow p).failOp k 6 x.pa else
      ((s.answeredWindow p).report ((((s.answeredWindow p).op k).map (fun o => homeDie o.queue)).getD 14)
        { kind := 0x23, cls := .fault, addr := x.pa, detail := x.window + 3 * 2 ^ 12 }).failOp k 4 x.pa := by
    unfold windowAnswer
    change (match s.fab.accesses.find? (answers p) with | none => s | some a => _) = _
    rw [h]
    dsimp only
    rw [hb]
    exact if_neg hs
  rw [hw]
  split
  · exact ⟨_, memStep_refl _, rfl⟩
  · exact ⟨_, memStep_report .., rfl⟩

theorem rxFlow_of_fab {t : Dev} (h : t.fab.rxFlows = s.fab.rxFlows) (p : Packet) : t.rxFlow p = s.rxFlow p := by
  rw [rxFlow, h, rxFlow]

end Dev

variable {l : LinkId} {p0 p : Packet} {s : State} (h : s.reaches l p0 p) (hn : s.isNext p)
include h hn

/-- The answer to a window access ends it: a core takes the bytes or an error, an operation the bytes or a failure (R580, R582). -/
theorem window_replied {c : Instr} {t : BitVec 6} (hc : packetOf c = some (l, p0, t)) (ht : p0.ptype = t) (h2 : t = 9 ∨ t = 0xB)
    {x : WindowAccess} (hx : s.fab.accesses.find? (Dev.answers p) = some x) :
    ∃ u, exec c s = .next u ∧ u.fab.accesses = removeFirst (Dev.answers p) s.fab.accesses ∧ (u.rxFlow p).next = p.psn + 1 ∧
      (x.by_ = .core → u.reply = some (if p.aux1.toNat % 256 = 0 then .value (BitVec.ofNat 64 (leNat p.payload)) else .accessError)
        ∧ u.mem = s.mem ∧ u.cmd = s.cmd) ∧
      (∀ slot, x.by_ = .op slot →
        (p.aux1.toNat % 256 = 0 → Table.get none u.fab.remoteData slot.val = some ((Table.get none s.fab.remoteData slot.val).getD [] ++ p.payload)
          ∧ u.cmd = s.cmd) ∧
        (∀ o, p.aux1.toNat % 256 ≠ 0 → s.op slot = some o → o.failed = none → u.op slot = some { o with
          failed := some (failStatus (if p.aux1.toNat % 256 = 3 then 6 else 4), if p.aux1.toNat % 256 = 3 then 6 else 4), faultAddr := x.pa })) := by
  have hexec : exec c s = .next { s with toDev := (s.taken (l.val / 8) p).windowAnswer p } := by
    rw [exec_of_isNext hc ht h (by rcases h2 with rfl | rfl <;> decide) (by rcases h2 with rfl | rfl <;> decide) hn, Dev.perform, h.ptype, ht]
    rcases h2 with rfl | rfl <;> rfl
  have he : Dev.emits (s.putRx p { s.rxFlow p with next := (s.rxFlow p).next + 1 }) (s.taken (l.val / 8) p) := Dev.emits_emit _ _ _
  have hrx : ((s.taken (l.val / 8) p).rxFlow p).next = p.psn + 1 := by
    rw [Dev.rxFlow_taken, hn.2]
  have hfab : (s.taken (l.val / 8) p).fab.accesses = s.fab.accesses := by rw [he.rest]; rfl
  have hdata : (s.taken (l.val / 8) p).fab.remoteData = s.fab.remoteData := by rw [he.rest]; rfl
  have hmem : (s.taken (l.val / 8) p).mem = s.mem := by rw [he.rest]; rfl
  have hcmd : (s.taken (l.val / 8) p).cmd = s.cmd := by rw [he.rest]; rfl
  refine ⟨_, hexec, ?_⟩
  dsimp only
  generalize s.taken (l.val / 8) p = a at *
  rw [← hfab] at hx ⊢
  rw [← hdata, ← hmem, ← hcmd]
  cases hb : x.by_ with
  | core =>
    rw [Dev.windowAnswer_core hx hb]
    exact ⟨rfl, hrx, fun _ => ⟨rfl, rfl, rfl⟩, nofun⟩
  | op k =>
    by_cases hs : p.aux1.toNat % 256 = 0
    · rw [Dev.windowAnswer_ok hx hb hs]
      refine ⟨rfl, hrx, nofun, fun slot hk => ⟨fun _ => ?_, fun o hne => absurd hs hne⟩⟩
      cases hk
      have hget := Table.get_set_same none a.fab.remoteData k.val (some ((Table.get none a.fab.remoteData k.val).getD [] ++ p.payload))
      exact ⟨hget, rfl⟩
    · obtain ⟨t, hstep, heq⟩ := Dev.windowAnswer_fail hx hb hs
      have htfab := Dev.memStep_fab hstep
      have htcmd := Dev.memStep_cmd hstep
      rw [heq]
      refine ⟨congrArg FabricState.accesses htfab, ?_, nofun, fun slot hk => ⟨fun hz => absurd hz hs, fun o _ ho hf => ?_⟩⟩
      · exact (congrArg RxFlow.next (Dev.rxFlow_of_fab (congrArg FabricState.rxFlows htfab) p)).trans hrx
      · cases hk
        refine Dev.op_failOp ?_ hf _ _
        rw [Dev.op, htcmd]
        rw [Dev.op, ← hcmd] at ho
        exact ho

end Answers

/-- Settles O47: a request in order is performed alone and answered by its outcome, and an answer ends its access; an atomic being answered by ptype 0x09
and the flows of answers are log entry 49. -/
theorem requestsPerformed : Obligations.RequestsPerformed := by
  intro l p0 p s h hn hacc ox a
  have hcmd := hostCmd_of_reaches h
  have answered {c : Instr} {cmd : Nat} {d : Dev} {status : Nat} {bytes : List Byte}
      (hexec : exec c s = .next { s with toDev := s.toDev.hostArrives l p0 cmd }) (ht : p0.ptype = 1) (hc : hostCmd p0 = cmd)
      (hp : a.performHost ox p none = (d, .ok (status, bytes))) :
      exec c s = .next { s with toDev := (d.answerTo ox p 2 status bytes).modFab fun f => { f with accepted := [] } } := by
    rw [hexec, host_answered h hn hacc ht hc hp]
  have waits {c : Instr} {cmd : Nat} {d : Dev} (hexec : exec c s = .next { s with toDev := s.toDev.hostArrives l p0 cmd }) (ht : p0.ptype = 1)
      (hc : hostCmd p0 = cmd) (hp : a.performHost ox p none = (d, .wait)) :
      exec c s = .next { s with toDev := d.modFab fun f => { f with accepted := a.fab.accepted } } := by
    rw [hexec, host_waits h hn hacc ht hc hp]
  have hhost {c : Instr} {cmd : Nat} (hexec : exec c s = .next { s with toDev := s.toDev.hostArrives l p0 cmd }) (ht : p0.ptype = 1)
      (hc : hostCmd p0 = cmd) (hb : a.binding p cmd = none) :
      exec c s = .next { s with toDev := ((a.bump 0x0A 0x20A 0 1).answerTo ox p 2 1 []).modFab fun f => { f with accepted := [] } } :=
    answered hexec ht hc (Dev.performHost_unbound (by rw [hcmd, hc]; exact hb))
  refine ⟨hhost rfl, hhost rfl, hhost rfl, hhost rfl, fun ht asid hb => ?_, fun ht => ?_, fun ht => ?_, fun ht => ?_, fun ht x hx => ?_, fun ht x hx => ?_⟩
  · have hb' : a.binding p (hostCmd p) = some asid := by rw [hcmd]; exact hb
    refine ⟨fun hc => ?_, fun hc => ?_, fun hc => ?_, fun hc => ?_⟩
    · have hw := Dev.performHost_write (ox := ox) hb' (hcmd.trans hc)
      refine ⟨fun hr => ?_, fun hr => ?_, fun r b hr => ?_⟩
      · exact answered rfl ht hc (hw.trans (Dev.hostEnd_ok hr _))
      · exact waits rfl ht hc (hw.trans (Dev.hostEnd_wait hr _))
      · exact answered rfl ht hc (hw.trans (Dev.hostEnd_fail hr _))
    · have hr := Dev.performHost_read (ox := ox) hb' (hcmd.trans hc)
      refine ⟨fun hlen => answered rfl ht hc (hr.trans (if_pos hlen)), fun hlen => ?_⟩
      rw [if_neg (by omega)] at hr
      refine ⟨fun bytes he => ?_, fun he => ?_, fun k b he => ?_⟩
      · exact answered rfl ht hc (hr.trans (Dev.hostEnd_ok he _))
      · exact waits rfl ht hc (hr.trans (Dev.hostEnd_wait he _))
      · exact answered rfl ht hc (hr.trans (Dev.hostEnd_fail he _))
    · refine ⟨fun hq => answered rfl ht hc (Dev.performHost_pushRefused hb' (hcmd.trans hc) hq), fun hs hq => ?_⟩
      obtain ⟨hok, hbad, hwait⟩ := Dev.performHost_push (ox := ox) hb' (hcmd.trans hc) hs hq rfl
      exact ⟨fun he => answered rfl ht hc (hok he), fun he => answered rfl ht hc (hbad he), fun he => waits rfl ht hc (hwait he)⟩
    · exact answered rfl ht hc (Dev.performHost_add hb' (hcmd.trans hc))
  · have hp : p.ptype = 8 := h.ptype.trans ht
    exact ⟨fun hr => remote_answered h hn hacc (t := 8) rfl ht (.inl rfl) (Dev.performRemote_readRefused hp hr),
      fun h0 hm he ho => remote_answered h hn hacc (t := 8) rfl ht (.inl rfl) (Dev.performRemote_read hp h0 hm he ho)⟩
  · have hp : p.ptype = 0xA := h.ptype.trans ht
    exact ⟨fun hr => remote_answered h hn hacc (t := 0xA) rfl ht (.inr (.inl rfl)) (Dev.performRemote_writeRefused hp hr),
      fun h0 he ho => remote_answered h hn hacc (t := 0xA) rfl ht (.inr (.inl rfl)) (Dev.performRemote_write hp h0 he ho)⟩
  · have hp : p.ptype = 0xC := h.ptype.trans ht
    intro o n t
    constructor
    · intro hr
      have hperf := Dev.performRemote_atomicRefused (ox := ox) (s := a) hp hr
      exact remote_answered h hn hacc (t := 0xC) rfl ht (.inr (.inr rfl)) hperf
    · intro he ha ho r
      have hperf := Dev.performRemote_atomic (ox := ox) (s := a) (r := r) hp he ha ho rfl
      exact remote_answered h hn hacc (t := 0xC) rfl ht (.inr (.inr rfl)) hperf
  · exact window_replied h hn (t := 9) rfl ht (.inl rfl) hx
  · exact window_replied h hn (t := 0xB) rfl ht (.inr rfl) hx

end Sys2Proof.Machine
end

section
/-! PROOFS. Proofs/Windows.lean: remote windows, partition keys and device_id (O49). -/

namespace Sys2Proof.Machine

section Windows

variable {s : State}

theorem windowDisable_of_off {w : Fin 1024} (h : (s.window w.val).enable = false) : exec (.windowDisable w) s = .next s := by
  have hs : s.toDev.disableWindow w.val = s.toDev := by
    rw [Dev.disableWindow, h]
    rfl
  exact exec_eq_next rfl hs

theorem windowDisable_of_on {w : Fin 1024} (h : (s.window w.val).enable = true) :
    ∃ u, exec (.windowDisable w) s = .next u ∧ (∀ v : Fin 1024, v ≠ w → u.window v.val = s.window v.val)
      ∧ u = { s with fab := { s.fab with windows := u.fab.windows } } ∧
      ((∃ a ∈ s.fab.accesses, a.window = w.val) → u.window w.val = { s.window w.val with enable := false, closing := true }) ∧
      ((∀ a ∈ s.fab.accesses, a.window ≠ w.val) → u.window w.val = { s.window w.val with enable := false, closing := false }) := by
  have hs : s.toDev.disableWindow w.val = s.toDev.setWindow w.val
      { s.window w.val with enable := false, closing := s.fab.accesses.any (fun a => a.window = w.val) } := if_pos h
  refine ⟨_, exec_eq_next rfl hs, fun v hv => ?_, rfl, fun ⟨a, ha, haw⟩ => ?_, fun hno => ?_⟩
  · exact (Dev.window_setWindow ..).trans (if_neg fun e => hv (Fin.ext e))
  · refine (Dev.window_setWindow ..).trans ((if_pos rfl).trans ?_)
    rw [List.any_eq_true.mpr ⟨a, ha, decide_eq_true haw⟩]
  · refine (Dev.window_setWindow ..).trans ((if_pos rfl).trans ?_)
    rw [List.any_eq_false.mpr fun a ha => by simpa using hno a ha]

/-- The number of the flow of an access through a window (DESIGN CHOICE for a core's, log entry 49). -/
def accessFlow (w : Nat) : Requester → U16
  | .core => BitVec.ofNat 16 (0x1000 + w)
  | .op slot => opFlow slot

/-- What an access through a remote window does, by who makes it (R44, R580, R582). -/
def Dev.windowAccess (s : Dev) (by_ : Requester) (a : Nat) (op : WindowOp) : Dev :=
  if 2 ^ 41 + 2 ^ 40 < a + windowBytes op then s.reservedAccess by_ a
  else
    let w := (a - 2 ^ 41) / 2 ^ 30
    let x := s.window w
    if !x.enable then s.refuseAccess by_ w a 1
    else if !x.allows op then s.refuseAccess by_ w a 2
    else
      let num := accessFlow w by_
      if s.keyState x.pkey ≠ .enabled then
        (s.modFab (fun f => { f with accesses := f.accesses ++ [{
          by_ := by_, window := w, pa := a, dst := x.target, num := num, pkey := x.pkey, offset := x.tbase.toNat * 2 ^ 30 + a % 2 ^ 30 }] })).failFlow
          ((s.flow x.target num).getD { dst := x.target, num := num, pkey := x.pkey }) 4
      else
        ((linePieces a (windowBytes op) false (windowBytes op / 128 + 2)).foldl (fun (acc : Dev × Nat) e =>
          ((acc.1.modFab (fun f => { f with accesses := f.accesses ++ [{
            by_ := by_, window := w, pa := a + acc.2, dst := x.target, num := num, pkey := x.pkey
            offset := (windowPacket x op (a + acc.2) acc.2 e.2.2).offset.toNat }] })).sendFlow 0 num (windowPacket x op (a + acc.2) acc.2 e.2.2),
            acc.2 + e.2.2)) (s, 0)).1

/-- Whether a requester is there: a core always is, an operation while it runs. -/
def Dev.live (s : Dev) : Requester → Bool
  | .core => true
  | .op slot => (s.op slot).isSome

theorem exec_remoteWindowAccess (by_ : Requester) (pa : U64) (op : WindowOp) (s : State) :
    exec (.remoteWindowAccess by_ pa op) s = .next { s with toDev :=
      (if !s.toDev.live by_ || windowBytes op = 0 || pa.toNat < 2 ^ 41 then s.toDev else s.toDev.windowAccess by_ pa.toNat op) } := by
  cases by_ <;> rfl

theorem exec_remoteWindowAccess_live {by_ : Requester} {pa : U64} {op : WindowOp} (hl : s.toDev.live by_ = true) (hn : 0 < windowBytes op)
    (ha : 2 ^ 41 ≤ pa.toNat) :
    exec (.remoteWindowAccess by_ pa op) s = .next { s with toDev := s.toDev.windowAccess by_ pa.toNat op } := by
  rw [exec_remoteWindowAccess, hl, if_neg]
  simp only [Bool.not_true, Bool.false_or, Bool.or_eq_true, decide_eq_true_eq]
  omega

theorem exec_remoteWindowAccess_dead {slot : SlotId} {pa : U64} {op : WindowOp} (h : s.op slot = none) :
    exec (.remoteWindowAccess (.op slot) pa op) s = .next s := by
  rw [exec_remoteWindowAccess, if_pos]
  rw [Dev.live, h]
  rfl

theorem exec_remoteWindowAccess_outside {by_ : Requester} {pa : U64} {op : WindowOp} (h : windowBytes op = 0 ∨ pa.toNat < 2 ^ 41) :
    exec (.remoteWindowAccess by_ pa op) s = .next s := by
  rw [exec_remoteWindowAccess, if_pos]
  rcases h with h | h
  · simp [h]
  · rw [decide_eq_true h, Bool.or_true]

end Windows

namespace Dev

variable {s : Dev} {slot : SlotId} {o : Operation} {a : Nat} {op : WindowOp}

/-- A record and a failure of the operation alone are left of a refused access of an operation (R582). -/
theorem op_reportFail (d : Die) (f : RecFields) (ho : s.op slot = some o) (hf : o.failed = none) (va : Nat) :
    ((s.report d f).failOp slot 4 va).op slot = some { o with failed := some (3, 4), faultAddr := va } ∧ ((s.report d f).failOp slot 4 va).fab = s.fab := by
  have h := memStep_report s d f
  refine ⟨op_failOp ?_ hf 4 va, (show ((s.report d f).failOp slot 4 va).fab = (s.report d f).fab from rfl).trans (memStep_fab h)⟩
  rw [Dev.op, memStep_cmd h]
  exact ho

theorem windowAccess_beyond (by_ : Requester) (h : 2 ^ 41 + 2 ^ 40 < a + windowBytes op) : s.windowAccess by_ a op = s.reservedAccess by_ a := if_pos h

/-- An access that its window does not let through is refused. -/
theorem windowAccess_denied (by_ : Requester) (h : a + windowBytes op ≤ 2 ^ 41 + 2 ^ 40)
    (hd : (s.window ((a - 2 ^ 41) / 2 ^ 30)).enable = false ∨ (s.window ((a - 2 ^ 41) / 2 ^ 30)).allows op = false) :
    ∃ c, s.windowAccess by_ a op = s.refuseAccess by_ ((a - 2 ^ 41) / 2 ^ 30) a c := by
  rw [windowAccess, if_neg (by omega)]
  dsimp only
  cases he : (s.window ((a - 2 ^ 41) / 2 ^ 30)).enable with
  | false => exact ⟨1, rfl⟩
  | true =>
    rw [hd.resolve_left (by rw [he]; exact Bool.noConfusion)]
    exact ⟨2, rfl⟩

/-- An operation's access that is refused fails it, and leaves the fabric as it is. -/
theorem refuseAccess_op (ho : s.op slot = some o) (hf : o.failed = none) (w va cause : Nat) :
    (s.refuseAccess (.op slot) w va cause).op slot = some { o with failed := some (3, 4), faultAddr := va }
      ∧ (s.refuseAccess (.op slot) w va cause).fab = s.fab := op_reportFail _ _ ho hf va

theorem reservedAccess_op (ho : s.op slot = some o) (hf : o.failed = none) (va : Nat) :
    (s.reservedAccess (.op slot) va).op slot = some { o with failed := some (3, 4), faultAddr := va }
      ∧ (s.reservedAccess (.op slot) va).fab = s.fab := op_reportFail _ _ ho hf va

/-- A core's access that fails leaves the others, and the core an access error (R582). -/
theorem failAccesses_core {l : List WindowAccess} {x : WindowAccess} {f : WindowAccess → Bool} (hx : x.by_ = .core) (hfx : f x = true)
    (hacc : s.fab.accesses = l ++ [x]) (hno : ∀ y ∈ l, f y = false) :
    (s.failAccesses f).reply = some .accessError ∧ (s.failAccesses f).fab.accesses = l := by
  have hgone : s.fab.accesses.filter f = [x] := by
    rw [hacc, List.filter_append, List.filter_eq_nil_iff.mpr fun y hy => by rw [hno y hy]; exact Bool.noConfusion, List.filter_singleton, hfx]
    rfl
  have hkept : s.fab.accesses.filter (fun a => !f a) = l := by
    rw [hacc, List.filter_append, List.filter_eq_self.mpr fun y hy => by rw [hno y hy]; rfl, List.filter_singleton, hfx]
    exact List.append_nil _
  unfold failAccesses
  dsimp only
  rw [hgone, List.foldl_cons, List.foldl_nil, hx]
  exact ⟨rfl, hkept⟩

theorem winds.fab {t : Dev} (h : winds s t) : t.fab = s.fab := by rw [h.rest]

/-- The failure of a flow ends with that of its accesses. -/
theorem failFlow_eq (s : Dev) (f : TxFlow) (cause : Nat) :
    ∃ t : Dev, t.fab = (s.setFlow (failedFlow f)).fab ∧ s.failFlow f cause = t.failAccesses fun a => a.dst = f.dst && a.num = f.num := by
  unfold failFlow
  dsimp only
  split
  · exact ⟨_, (winds_endEarly ..).fab.trans (memStep_fab (memStep_report ..)), rfl⟩
  · exact ⟨_, memStep_fab (memStep_report ..), rfl⟩

/-- A core's window access under a key that is not enabled is an access error (R588, R590). -/
theorem windowAccess_foreignKey (h : a + windowBytes op ≤ 2 ^ 41 + 2 ^ 40) {x : Window} (hx : s.window ((a - 2 ^ 41) / 2 ^ 30) = x)
    (he : x.enable = true) (ha : x.allows op = true) (hk : s.keyState x.pkey ≠ .enabled)
    (hno : ∀ y ∈ s.fab.accesses, ¬(y.dst = x.target ∧ y.num = BitVec.ofNat 16 (0x1000 + (a - 2 ^ 41) / 2 ^ 30))) :
    (s.windowAccess .core a op).reply = some .accessError ∧ (s.windowAccess .core a op).fab.accesses = s.fab.accesses := by
  rw [windowAccess, if_neg (by omega)]
  dsimp only [accessFlow]
  rw [hx, he, ha, if_neg Bool.noConfusion, if_neg Bool.noConfusion, if_pos hk]
  generalize hf : (s.flow x.target _).getD _ = f
  have hkeys : f.dst = x.target ∧ f.num = BitVec.ofNat 16 (0x1000 + (a - 2 ^ 41) / 2 ^ 30) := by
    rw [← hf]
    cases hflow : s.flow x.target (BitVec.ofNat 16 (0x1000 + (a - 2 ^ 41) / 2 ^ 30)) with
    | none => exact ⟨rfl, rfl⟩
    | some g => exact flow_keys _ _ hflow
  obtain ⟨t, ht, heq⟩ := failFlow_eq (s.modFab fun g => { g with accesses := g.accesses ++ [{
    by_ := .core, window := (a - 2 ^ 41) / 2 ^ 30, pa := a, dst := x.target, num := BitVec.ofNat 16 (0x1000 + (a - 2 ^ 41) / 2 ^ 30)
    pkey := x.pkey, offset := x.tbase.toNat * 2 ^ 30 + a % 2 ^ 30 }] }) f 4
  rw [heq]
  refine failAccesses_core rfl ?_ (congrArg FabricState.accesses ht) fun y hy => ?_
  · simp [hkeys]
  · rw [hkeys.1, hkeys.2]
    simpa using hno y hy

theorem linePieces_one {a n : Nat} (h0 : 0 < n) (h : a % 128 + n ≤ 128) : linePieces a n false (n / 128 + 2) = [(tagOf a false, a % 128, n)] := by
  rw [linePieces, if_neg (by omega)]
  dsimp only
  have hlen : (if n < 128 - a % 128 then n else 128 - a % 128) = n := by
    split <;> omega
  rw [hlen, Nat.sub_self, linePieces, if_pos rfl]

/-- An access within a line, through a window under an enabled key, is one request of its flow (R580). -/
theorem windowAccess_sent (by_ : Requester) (num : U16) (hnum : accessFlow ((a - 2 ^ 41) / 2 ^ 30) by_ = num) (h0 : 0 < windowBytes op) (h : a + windowBytes op ≤ 2 ^ 41 + 2 ^ 40) {x : Window}
    (hx : s.window ((a - 2 ^ 41) / 2 ^ 30) = x) (he : x.enable = true) (ha : x.allows op = true) (hk : s.keyState x.pkey = .enabled)
    (hline : a % 128 + windowBytes op ≤ 128) :
    s.windowAccess by_ a op = (s.modFab fun f => { f with accesses := f.accesses ++ [{
      by_ := by_, window := (a - 2 ^ 41) / 2 ^ 30, pa := a, dst := x.target, num := num, pkey := x.pkey
      offset := (windowPacket x op a 0 (windowBytes op)).offset.toNat }] }).sendFlow 0 num (windowPacket x op a 0 (windowBytes op)) := by
  rw [windowAccess, if_neg (by omega)]
  dsimp only
  rw [hx, he, ha, if_neg Bool.noConfusion, if_neg Bool.noConfusion, if_neg (not_not_intro hk), linePieces_one h0 hline, ← hnum]
  rfl

theorem windowPacket_spec (x : Window) (op : WindowOp) (a n : Nat) :
    (windowPacket x op a 0 n).dst = x.target ∧ (windowPacket x op a 0 n).pkey = x.pkey
      ∧ (windowPacket x op a 0 n).offset.toNat = (x.tbase.toNat * 2 ^ 30 + a % 2 ^ 30) % 2 ^ 64 := by
  cases op <;> exact ⟨rfl, rfl, BitVec.toNat_ofNat ..⟩

end Dev

namespace Dev

variable {s : Dev} {k j : BitVec 12}

/-- A key's state reads as it was last put; the others are unchanged. -/
theorem keyState_setKey (s : Dev) (k j : BitVec 12) (v : KeyState) : (s.setKey k v).keyState j = if j = k then v else s.keyState j := by
  unfold keyState setKey modFab
  rw [Table.get_set]
  exact if_congr BitVec.toNat_inj rfl rfl

theorem enableKey_refused (h : (∃ n, s.keyState k = .quarantine n) ∨ s.keyState k = .enabled) : (s.enableKey k).1 = s := by
  unfold enableKey
  rcases h with ⟨n, h⟩ | h <;> rw [h]

theorem enableKey_taken (h : ∀ n, s.keyState k ≠ .quarantine n) : (s.enableKey k).1 = s ∧ s.keyState k = .enabled
    ∨ (s.enableKey k).1 = s.setKey k .enabled := by
  unfold enableKey
  cases hs : s.keyState k with
  | quarantine n => exact absurd hs (h n)
  | enabled => exact .inl ⟨rfl, rfl⟩
  | undrained => exact .inr rfl
  | drained => exact .inr rfl

/-- What the marking of a key leaves of an operation, where no window access under the key is open (R590). -/
def marked (k : BitVec 12) (o : Operation) : Operation := if collOfKey k o = true then { o with endedKeys := k :: o.endedKeys } else o

theorem collOfKey_marked (k : BitVec 12) (o : Operation) : collOfKey k (marked k o) = collOfKey k o := by
  unfold marked
  split <;> rfl

theorem ops_markKey (h : ∀ a ∈ s.fab.accesses, a.pkey ≠ k) : (s.markKey k).cmd.ops = s.cmd.ops.map (marked k) := by
  refine List.map_congr_left fun o _ => ?_
  have hno : s.accessesUnder k o = false := by
    rw [accessesUnder, List.any_eq_false]
    intro a ha
    simp [h a ha]
  rw [hno, Bool.or_false]
  rfl

theorem endedBy_endedBy (n : Nat) (o : Operation) : (o.endedBy n).endedBy n = o.endedBy n := by
  unfold Operation.endedBy
  cases o.aborting <;> rfl

/-- Early ends of operations of no mill, one after the other: each of the slots named reads its operation so, and no other changes. -/
theorem op_endAll (l : List Operation) (s : Dev) (h : ∀ o ∈ s.cmd.ops, ∀ e ∈ l, o.slot = e.slot → millOpcode (iOpcode o.word) = false) (slot : SlotId) :
    (l.foldl (fun s o => s.endEarly o.slot 0xE) s).op slot
      = (s.op slot).map fun o => if l.any (fun e => e.slot = slot) then o.endedBy 0xE else o := by
  induction l generalizing s with
  | nil =>
    rw [List.foldl_nil]
    cases s.op slot <;> rfl
  | cons e l ih =>
    have hops := s.ops_endEarly e.slot 0xE fun o ho =>
      h o (List.mem_of_find?_eq_some ho) e (List.mem_cons_self ..) (by simpa using List.find?_some ho)
    rw [List.foldl_cons, ih]
    · have hop : (s.endEarly e.slot 0xE).op slot = (s.modOp e.slot (Operation.endedBy 0xE)).op slot := by rw [op, hops, op]
      rw [hop]
      by_cases hs : e.slot = slot
      · rw [← hs, op_modOp s e.slot (f := Operation.endedBy 0xE) fun _ => rfl]
        cases s.op e.slot with
        | none => rfl
        | some o =>
          simp only [Option.map_some, List.any_cons, decide_true, Bool.true_or, if_true]
          split
          · rw [endedBy_endedBy]
          · rfl
      · rw [op_modOp_ne s (Ne.symm hs) (f := Operation.endedBy 0xE) fun _ => rfl]
        cases s.op slot with
        | none => rfl
        | some o => simp [hs]
    · intro o ho x hx hslot
      rw [hops] at ho
      obtain ⟨o', ho', rfl⟩ := List.mem_map.mp ho
      have hsame : ∀ o' : Operation, (if o'.slot = e.slot then o'.endedBy 0xE else o').slot = o'.slot
          ∧ (if o'.slot = e.slot then o'.endedBy 0xE else o').word = o'.word := fun o' => by split <;> exact ⟨rfl, rfl⟩
      rw [(hsame o').2]
      exact h o' ho' x (List.mem_cons_of_mem _ hx) (((hsame o').1).symm.trans hslot)

/-- Accesses none of which is named stay (R582). -/
theorem failAccesses_none {f : WindowAccess → Bool} (h : ∀ a ∈ s.fab.accesses, f a = false) :
    s.failAccesses f = s.closeWindows := by
  have hgone : s.fab.accesses.filter f = [] := List.filter_eq_nil_iff.mpr fun a ha => by rw [h a ha]; exact Bool.noConfusion
  have hkept : s.fab.accesses.filter (fun a => !f a) = s.fab.accesses := List.filter_eq_self.mpr fun a ha => by rw [h a ha]; rfl
  unfold failAccesses modFab
  dsimp only
  rw [hgone, hkept]
  rfl

end Dev

namespace Dev

variable {s : Dev} {k : BitVec 12}

/-- The state in which a key's quarantine has begun and what it ends is marked (R590). -/
def quarantined (s : Dev) (k : BitVec 12) : Dev := (s.setKey k (.quarantine (s.now.toNat + s.objAt 0x0A 0x204 0))).markKey k

/-- The state in which the collectives of a key that has been disabled have ended too. -/
def keyEnded (s : Dev) (k : BitVec 12) : Dev :=
  (((s.quarantined k).fab.flows.filter (fun f => f.pkey = k)).foldl (fun s f => s.failFlow f 4) (s.quarantined k)).cmd.ops.filter (collOfKey k)
    |>.foldl (fun s o => s.endEarly o.slot 0xE)
      (((s.quarantined k).fab.flows.filter (fun f => f.pkey = k)).foldl (fun s f => s.failFlow f 4) (s.quarantined k))

theorem disableKey_eq (h : s.keyState k = .enabled) : s.disableKey k = ((s.keyEnded k).failAccesses fun a => a.pkey = k).modFab fun f =>
    { f with accepted := f.accepted.filter (fun x => x.packet.pkey ≠ k), early := f.early.filter (fun e => e.pkey ≠ k) } := by
  unfold disableKey
  exact if_neg (not_not_intro h)

/-- Only flows of the key fail: without one, nothing ends but the key's collectives. -/
theorem keyEnded_of_noFlow (h : ∀ f ∈ s.fab.flows, f.pkey ≠ k) :
    s.keyEnded k = ((s.quarantined k).cmd.ops.filter (collOfKey k)).foldl (fun s o => s.endEarly o.slot 0xE) (s.quarantined k) := by
  have hnone : (s.quarantined k).fab.flows.filter (fun f => f.pkey = k) = [] :=
    List.filter_eq_nil_iff.mpr fun f hf => by simpa using h f hf
  unfold keyEnded
  rw [hnone]
  rfl

theorem fab_endAll (l : List Operation) (s : Dev) : (l.foldl (fun s o => s.endEarly o.slot 0xE) s).fab = s.fab :=
  (winds.foldl (f := fun s (o : Operation) => s.endEarly o.slot 0xE) (fun _ _ => winds_endEarly ..) l s).fab

theorem op_quarantined (h : ∀ a ∈ s.fab.accesses, a.pkey ≠ k) (slot : SlotId) : (s.quarantined k).op slot = (s.op slot).map (marked k) := by
  have hslot : (fun o : Operation => decide (o.slot = slot)) ∘ marked k = fun o => decide (o.slot = slot) := by
    funext o
    unfold marked
    dsimp only [Function.comp]
    split <;> rfl
  rw [op, show (s.quarantined k).cmd.ops = _ from ops_markKey (s := s.setKey k _) h, List.find?_map, hslot]
  rfl

/-- The collectives of a key end with it, and no other operation (R590). -/
theorem op_keyEnded (hflow : ∀ f ∈ s.fab.flows, f.pkey ≠ k) (hacc : ∀ a ∈ s.fab.accesses, a.pkey ≠ k)
    (hcoll : ∀ o ∈ s.cmd.ops, collOfKey k o = true → 0x60 ≤ iOpcode o.word) (huniq : ∀ o ∈ s.cmd.ops, s.op o.slot = some o)
    {slot : SlotId} {o : Operation} (ho : s.op slot = some o) :
    (s.keyEnded k).op slot
      = some (if collOfKey k o then { o with endedKeys := k :: o.endedKeys, aborting := o.aborting.or (some 0xE) } else o) := by
  have hops : (s.quarantined k).cmd.ops = s.cmd.ops.map (marked k) := ops_markKey (s := s.setKey k _) hacc
  have hsame : ∀ x : Operation, (marked k x).slot = x.slot ∧ (marked k x).word = x.word := fun x => by
    unfold marked
    split <;> exact ⟨rfl, rfl⟩
  have hmem : ∀ e ∈ (s.quarantined k).cmd.ops.filter (collOfKey k), ∃ x ∈ s.cmd.ops, e = marked k x ∧ collOfKey k x = true := fun e he => by
    rw [hops, List.filter_map] at he
    obtain ⟨x, hx, rfl⟩ := List.mem_map.mp he
    obtain ⟨hx, hk⟩ := List.mem_filter.mp hx
    exact ⟨x, hx, rfl, collOfKey_marked k x ▸ hk⟩
  rw [keyEnded_of_noFlow hflow, op_endAll, op_quarantined hacc, ho]
  · have hany : ((s.quarantined k).cmd.ops.filter (collOfKey k)).any (fun e => e.slot = slot) = collOfKey k o := by
      rw [Bool.eq_iff_iff, List.any_eq_true]
      constructor
      · rintro ⟨e, he, heq⟩
        obtain ⟨x, hx, rfl, hk⟩ := hmem e he
        have hxo := huniq x hx
        rw [← (hsame x).1, decide_eq_true_eq.mp heq, ho] at hxo
        cases hxo
        exact hk
      · intro hk
        refine ⟨marked k o, List.mem_filter.mpr ⟨?_, (collOfKey_marked k o).trans hk⟩, ?_⟩
        · rw [hops]
          exact List.mem_map_of_mem (List.mem_of_find?_eq_some ho)
        · have := List.find?_some ho
          rw [(hsame o).1]
          exact this
    rw [Option.map_some, Option.map_some, hany]
    unfold marked
    cases collOfKey k o <;> rfl
  · intro y hy e he hslot
    obtain ⟨x, hx, rfl, hk⟩ := hmem e he
    rw [hops] at hy
    obtain ⟨z, hz, rfl⟩ := List.mem_map.mp hy
    have hyx := huniq z hz
    rw [← (hsame z).1, hslot, (hsame x).1, huniq x hx] at hyx
    cases hyx
    have := hcoll x hx hk
    rw [(hsame x).2]
    simp only [millOpcode, Bool.or_eq_false_iff, decide_eq_false_iff_not]
    omega

/-- The state of a key that has just been disabled, where no flow and no access is under it (R590). -/
theorem disableKey_quiet (hen : s.keyState k = .enabled) (hflow : ∀ f ∈ s.fab.flows, f.pkey ≠ k) (hacc : ∀ a ∈ s.fab.accesses, a.pkey ≠ k) :
    (s.disableKey k).cmd = (s.keyEnded k).cmd ∧ (s.disableKey k).fab = { (s.setKey k (.quarantine (s.now.toNat + s.objAt 0x0A 0x204 0))).fab with
      windows := (s.disableKey k).fab.windows
      accepted := s.fab.accepted.filter (fun x => x.packet.pkey ≠ k), early := s.fab.early.filter (fun e => e.pkey ≠ k) } := by
  have hfab : (s.keyEnded k).fab = (s.setKey k (.quarantine (s.now.toNat + s.objAt 0x0A 0x204 0))).fab := by
    rw [keyEnded_of_noFlow hflow, fab_endAll]
    rfl
  have hnone : (s.keyEnded k).failAccesses (fun a => a.pkey = k) = (s.keyEnded k).closeWindows :=
    failAccesses_none fun a ha => by
      rw [hfab] at ha
      exact decide_eq_false (hacc a ha)
  rw [disableKey_eq hen, hnone]
  refine ⟨rfl, ?_⟩
  unfold closeWindows modFab
  dsimp only
  rw [hfab]
  rfl

/-- The only flow of a key that has been disabled fails (R590). -/
theorem flows_disableKey (hen : s.keyState k = .enabled) {f : TxFlow} (hf : s.fab.flows = [f]) (hk : f.pkey = k) :
    (s.disableKey k).fab.flows = [failedFlow f] := by
  have hone : (s.quarantined k).fab.flows.filter (fun f => f.pkey = k) = [f] := by
    rw [show (s.quarantined k).fab.flows = [f] from hf, List.filter_singleton, decide_eq_true hk]
    rfl
  rw [disableKey_eq hen]
  change ((s.keyEnded k).failAccesses fun a => a.pkey = k).fab.flows = _
  rw [(failures_failAccesses ..).rest]
  change (s.keyEnded k).fab.flows = _
  unfold keyEnded
  rw [hone, fab_endAll, List.foldl_cons, List.foldl_nil, flows_failFlow]
  exact flows_setFlow_single (f := f) hf rfl rfl

end Dev

section Keys

variable {s : State} {k : BitVec 12}

theorem Dev.keyState_enabled_mem {s : Dev} {j : BitVec 12} (h : s.keyState j = .enabled) : ∃ e ∈ s.fab.keys, e.2 = .enabled := by
  unfold Dev.keyState at h
  revert h
  induction s.fab.keys with
  | nil => intro h; cases h
  | cons e l ih =>
    intro h
    rw [Table.get] at h
    split at h
    · exact ⟨e, List.mem_cons_self .., h⟩
    · obtain ⟨x, hx, hv⟩ := ih h
      exact ⟨x, List.mem_cons_of_mem _ hx, hv⟩

/-- What a change of one key's state leaves alone. -/
def keysOnly (k : BitVec 12) (s u : State) : Prop := (∀ j, j ≠ k → u.keyState j = s.keyState j)
  ∧ u = { s with
    fab := { s.fab with keys := u.fab.keys }, now := u.now, obj := u.obj, eventLog := u.eventLog, eventsOut := u.eventsOut
    cmd := { s.cmd with queues := u.cmd.queues } }

/-- A key that is drained is told of (R592, R677). -/
def keyDrainedIn (k : BitVec 12) (s u : State) : Prop :=
  u.keyState k = .drained ∧ ∃ e, e.kind = 1 ∧ e.detail = k.toNat ∧ u.eventsOut = s.eventsOut ++ [e]

theorem pkeyEnable_taken (h : ∀ n, s.keyState k ≠ .quarantine n) : ∃ u, exec (.pkeyEnable k) s = .next u ∧ u.keyState k = .enabled ∧ keysOnly k s u := by
  rcases Dev.enableKey_taken h with ⟨hs, hen⟩ | hs
  · exact ⟨s, exec_eq_next rfl hs, hen, fun _ _ => rfl, rfl⟩
  · refine ⟨_, exec_eq_next rfl hs, ?_, fun j hj => ?_, rfl⟩
    · exact (Dev.keyState_setKey ..).trans (if_pos rfl)
    · exact (Dev.keyState_setKey ..).trans (if_neg hj)

theorem drainKey_ready {d : Dev} (h1 : d.keyState k = .undrained) (h2 : d.keyIdle k = true) :
    d.drainKey k = (d.setKey k .drained).event 1 k.toNat := if_pos (by simp [h1, h2])

theorem drainKey_unready {d : Dev} (h : ¬(d.keyState k = .undrained ∧ d.keyIdle k = true)) : d.drainKey k = d := if_neg (by simpa using h)

/-- An event is queued with its kind and its detail (R677). -/
theorem Dev.eventsOut_event (d : Dev) (kind detail : Nat) :
    ∃ e, e.kind = kind ∧ e.detail = detail ∧ (d.event kind detail).eventsOut = d.eventsOut ++ [e] := ⟨_, rfl, rfl, rfl⟩

theorem keyDrained_ready (h1 : s.keyState k = .undrained) (h2 : s.keyIdle k = true) :
    ∃ u, exec (.keyDrained k) s = .next u ∧ keyDrainedIn k s u ∧ keysOnly k s u := by
  refine ⟨_, exec_eq_next rfl (drainKey_ready h1 h2), ⟨?_, _, rfl, rfl, rfl⟩, fun j hj => ?_, rfl⟩
  · exact (Dev.keyState_setKey ..).trans (if_pos rfl)
  · exact (Dev.keyState_setKey ..).trans (if_neg hj)

/-- A quarantine that has ended leaves the key undrained, or drained at once (R592). -/
theorem quarantineEnd_over {n : Nat} {t : Instant} (hq : s.keyState k = .quarantine n) (hn : n ≤ max s.now.toNat t.toNat) :
    ∃ u, exec (.quarantineEnd k t) s = .next u ∧ u.now.toNat = max s.now.toNat t.toNat ∧ keysOnly k s u ∧
      (s.keyIdle k = true → keyDrainedIn k s u) ∧ (s.keyIdle k = false → u.keyState k = .undrained ∧ u.eventsOut = s.eventsOut) := by
  have hnow := s.toDev.now_advance t
  have hrest := s.toDev.advance_rest t
  have hexec : exec (.quarantineEnd k t) s = .next { s with toDev := ((s.toDev.advance t).setKey k .undrained).drainKey k } := by
    refine exec_eq_next rfl ?_
    dsimp only
    rw [hq]
    exact if_pos (by rw [hnow]; exact hn)
  refine ⟨_, hexec, ?_⟩
  dsimp only
  generalize s.toDev.advance t = a at *
  have hkeys : ∀ j, a.keyState j = s.keyState j := fun j => by rw [hrest]; rfl
  have hidle : (a.setKey k .undrained).keyIdle k = s.keyIdle k := by rw [hrest]; rfl
  have hset : (a.setKey k .undrained).keyState k = .undrained := (Dev.keyState_setKey ..).trans (if_pos rfl)
  have hevents : a.eventsOut = s.eventsOut := by rw [hrest]
  obtain ⟨e, hkind, hdetail, hout⟩ := ((a.setKey k .undrained).setKey k .drained).eventsOut_event 1 k.toNat
  have hothers : ∀ j, j ≠ k → (a.setKey k .undrained).keyState j = s.keyState j := fun j hj =>
    ((Dev.keyState_setKey ..).trans (if_neg hj)).trans (hkeys j)
  by_cases hi : s.keyIdle k = true
  · rw [drainKey_ready hset (hidle.trans hi)]
    refine ⟨hnow, ⟨fun j hj => ?_, ?_⟩, fun _ => ⟨?_, e, hkind, hdetail, ?_⟩, fun h => absurd (hi.symm.trans h) Bool.noConfusion⟩
    · exact ((Dev.keyState_setKey ..).trans (if_neg hj)).trans (hothers j hj)
    · rw [hrest]
      rfl
    · exact (Dev.keyState_setKey ..).trans (if_pos rfl)
    · exact hout.trans (congrArg (· ++ [e]) hevents)
  · rw [drainKey_unready fun h => hi (hidle ▸ h.2)]
    refine ⟨hnow, ⟨hothers, ?_⟩, fun h => absurd h hi, fun _ => ⟨hset, hevents⟩⟩
    rw [hrest]
    rfl

theorem quarantineEnd_early {n : Nat} {t : Instant} (hq : s.keyState k = .quarantine n) (hn : max s.now.toNat t.toNat < n) :
    exec (.quarantineEnd k t) s = .next s := by
  refine exec_eq_next (c := .quarantineEnd k t) rfl ?_
  dsimp only
  rw [hq]
  exact if_neg (by rw [s.toDev.now_advance t]; omega)

theorem quarantineEnd_none {t : Instant} (hq : ∀ n, s.keyState k ≠ .quarantine n) : exec (.quarantineEnd k t) s = .next s := by
  refine exec_eq_next (c := .quarantineEnd k t) rfl ?_
  dsimp only
  cases hs : s.toDev.keyState k with
  | quarantine n => exact absurd hs (hq n)
  | _ => rfl

end Keys

/-- Settles O49: a window's access is let through by its enable, its rights and its key; a key's disabling ends what is under it. That what has been
accepted under it is dropped is log entry 51, and that a failed flow begins again at PSN 0 log entry 49. -/
theorem windowsAndKeys : Obligations.WindowsAndKeys := by
  refine ⟨fun w s => ⟨windowDisable_of_off, windowDisable_of_on⟩, fun pa op s => ⟨fun h _ => exec_remoteWindowAccess_outside h, ?_, ?_⟩,
    fun k s => ⟨?_, fun h => pkeyEnable_taken h, ?_, ?_, ?_, ?_, fun h1 h2 => keyDrained_ready h1 h2, ?_⟩, fun v s => ⟨?_, ?_⟩⟩
  · intro h0 ha hout
    refine ⟨?_, fun slot hs => exec_remoteWindowAccess_dead hs, fun slot o ho hf => ?_⟩
    · rw [exec_remoteWindowAccess_live rfl h0 ha, Dev.windowAccess_beyond _ hout]
      rfl
    · refine ⟨_, exec_remoteWindowAccess_live (by rw [Dev.live]; exact Option.isSome_of_eq_some ho) h0 ha, ?_⟩
      dsimp only
      rw [Dev.windowAccess_beyond _ hout]
      exact Dev.reservedAccess_op ho hf _
  · intro h0 ha hin
    refine ⟨fun hd => ?_, fun hd slot o ho hf => ?_, fun slot hs => exec_remoteWindowAccess_dead hs, fun hd hk hno => ?_, fun hd hk hline by_ num hby => ?_⟩
    · obtain ⟨c, hc⟩ := Dev.windowAccess_denied .core hin hd
      rw [exec_remoteWindowAccess_live rfl h0 ha, hc]
      rfl
    · obtain ⟨c, hc⟩ := Dev.windowAccess_denied (.op slot) hin hd
      refine ⟨_, exec_remoteWindowAccess_live (by rw [Dev.live]; exact Option.isSome_of_eq_some ho) h0 ha, ?_⟩
      dsimp only
      rw [hc]
      exact Dev.refuseAccess_op ho hf _ _ _
    · obtain ⟨he, hal⟩ := not_or.mp hd
      exact ⟨_, exec_remoteWindowAccess_live rfl h0 ha, Dev.windowAccess_foreignKey hin rfl (by simpa using he) (by simpa using hal) hk hno⟩
    · obtain ⟨he, hal⟩ := not_or.mp hd
      have hlive : s.toDev.live by_ = true := by
        rcases hby with ⟨rfl, -⟩ | ⟨slot, rfl, -, ho⟩
        · rfl
        · exact ho
      have hnum : accessFlow ((pa.toNat - 2 ^ 41) / 2 ^ 30) by_ = num := by
        rcases hby with ⟨rfl, rfl⟩ | ⟨slot, rfl, rfl, -⟩ <;> rfl
      have hsent := Dev.windowAccess_sent by_ num hnum h0 hin rfl (by simpa using he) (by simpa using hal) hk hline
      obtain ⟨hdst, hkey, hoff⟩ := Dev.windowPacket_spec (s.window ((pa.toNat - 2 ^ 41) / 2 ^ 30)) op pa.toNat (windowBytes op)
      refine ⟨hoff, _, exec_remoteWindowAccess_live hlive h0 ha, ?_⟩
      dsimp only
      rw [hsent]
      generalize windowPacket (s.window ((pa.toNat - 2 ^ 41) / 2 ^ 30)) op pa.toNat 0 (windowBytes op) = p at hdst hkey ⊢
      generalize hb : s.toDev.modFab _ = b
      have hemit := b.emits_sendFlow 0 num p
      refine ⟨?_, ?_, ?_, ?_, ?_, ?_⟩
      · rw [hemit.rest, ← hb]
        rfl
      · rw [Dev.flow_sendFlow, if_pos ⟨hdst.symm, rfl⟩, Dev.flowFor, hdst, hkey, ← hb]
        rfl
      · rw [hemit.rest, ← hb]
        rfl
      · rw [hemit.rest, ← hb]
        rfl
      · rw [hemit.rest, ← hb]
        rfl
      · rw [hemit.rest, ← hb]
        rfl
  · intro h
    exact exec_eq_next rfl (Dev.enableKey_refused h)
  · intro h
    exact exec_eq_next rfl (if_pos h)
  · intro hen hflow hacc hcoll huniq
    obtain ⟨hcmd, hfab⟩ := Dev.disableKey_quiet hen hflow hacc
    have hkeys : ∀ j, (s.toDev.disableKey k).keyState j = (s.toDev.setKey k (.quarantine (s.now.toNat + s.objAt 0x0A 0x204 0))).keyState j :=
      fun j => by rw [Dev.keyState, hfab]; rfl
    refine ⟨_, rfl, (hkeys k).trans ((Dev.keyState_setKey ..).trans (if_pos rfl)), fun j hj => (hkeys j).trans ((Dev.keyState_setKey ..).trans (if_neg hj)),
      ?_, ?_, ?_, ?_, fun slot o ho => ?_⟩
    · exact congrArg FabricState.accepted hfab
    · exact congrArg FabricState.early hfab
    · exact (congrArg FabricState.accesses hfab).trans rfl
    · exact (congrArg FabricState.flows hfab).trans rfl
    · exact (show (s.toDev.disableKey k).op slot = (s.toDev.keyEnded k).op slot by rw [Dev.op, hcmd]; rfl).trans
        (Dev.op_keyEnded hflow hacc hcoll huniq ho)
  · exact fun f hen hf hk _ _ _ => ⟨_, rfl, Dev.flows_disableKey hen hf hk⟩
  · exact fun t => ⟨quarantineEnd_none, fun n hq => ⟨quarantineEnd_early hq, quarantineEnd_over hq⟩⟩
  · intro h
    exact exec_eq_next rfl (drainKey_unready h)
  · rintro ⟨k, hk⟩
    obtain ⟨e, he, hv⟩ := Dev.keyState_enabled_mem hk
    refine exec_eq_next rfl ?_
    dsimp only
    rw [Dev.writeDeviceId, if_pos (List.any_eq_true.mpr ⟨e, he, decide_eq_true hv⟩)]
  · intro h
    refine ⟨_, exec_eq_next (c := .deviceIdWrite v) rfl (d := s.toDev.setObjAt 0x0A 0x200 0 v.toNat) ?_, ?_, rfl⟩
    · dsimp only
      rw [Dev.writeDeviceId, if_neg]
      intro hany
      obtain ⟨e, he, hv⟩ := List.any_eq_true.mp hany
      exact h e he (of_decide_eq_true hv)
    · exact (congrArg (BitVec.ofNat 16) (Dev.objAt_setObjAt_same ..)).trans (by simp)

end Sys2Proof.Machine
end

section
/-! PROOFS. Proofs/LinkFlits.lean: a link's flits, its states and its loss. -/

namespace Sys2Proof.Machine

/-- What the link protocol of an OX die changes: its links, and what is counted and told of them (R560, R606). -/
structure Dev.linksOnly (ox : Nat) (s t : Dev) : Prop where
  rest : t = { s with fab := { s.fab with links := t.fab.links, lastClass := t.fab.lastClass }, obj := t.obj, eventLog := t.eventLog, eventsOut := t.eventsOut }
  others : ∀ k : LinkId, k.val / 8 ≠ ox → t.link k = s.link k

namespace Dev

variable {ox : Nat} {s t u : Dev} {l : LinkId}

theorem linksOnly.refl (s : Dev) : linksOnly ox s s := ⟨rfl, fun _ _ => rfl⟩

theorem linksOnly.trans (h1 : linksOnly ox s t) (h2 : linksOnly ox t u) : linksOnly ox s u where
  rest := by rw [h2.rest, h1.rest]
  others k hk := (h2.others k hk).trans (h1.others k hk)

theorem sends.linksOnly (h : Dev.sends ox s t) : linksOnly ox s t := ⟨by rw [h.rest], h.others⟩

theorem linksOnly_setLink (s : Dev) (l : LinkId) (x : Link) : linksOnly (l.val / 8) s (s.setLink l x) where
  rest := rfl
  others k hk := by
    rw [link_setLink, if_neg]
    rintro rfl
    exact hk rfl

theorem linksOnly_modLink (s : Dev) (l : LinkId) (f : Link → Link) : linksOnly (l.val / 8) s (s.modLink l f) := linksOnly_setLink ..

theorem linksOnly_setObjAt (s : Dev) (a b c v : Nat) : linksOnly ox s (s.setObjAt a b c v) := ⟨rfl, fun _ _ => rfl⟩

theorem linksOnly_bump (s : Dev) (a b c n : Nat) : linksOnly ox s (s.bump a b c n) := ⟨rfl, fun _ _ => rfl⟩

theorem linksOnly_setLinkState (s : Dev) (l : LinkId) (v : Nat) : linksOnly ox s (s.setLinkState l v) := by
  unfold setLinkState
  split
  · exact .refl s
  · exact ⟨rfl, fun _ _ => rfl⟩

theorem link_modLink_same (s : Dev) (l : LinkId) (f : Link → Link) : (s.modLink l f).link l = f (s.link l) := by
  rw [link_modLink, if_pos rfl]

theorem link_setLinkState (s : Dev) (l k : LinkId) (v : Nat) : (s.setLinkState l v).link k = s.link k := by
  unfold setLinkState
  split <;> rfl

/-- A link's state reads as it was set; no other object but the event counter changes. -/
theorem objAt_setLinkState (s : Dev) (l : LinkId) (v : Nat) {a b c : Nat} (hb : b < 65536) (hc : c < 256) (h : ¬(a = 0x0C ∧ b = 0x120)) :
    (s.setLinkState l v).objAt a b c = if a = 0x0A ∧ b = 0x100 ∧ c = l.val then v else s.objAt a b c := by
  have hset : ((s.setObjAt 0x0A 0x100 l.val v).event 5 (l.val + v * 256)).objAt a b c = (s.setObjAt 0x0A 0x100 l.val v).objAt a b c := by
    refine (objAt_setObjAt _ 0x0C 0x120 0 a b c _ (by decide) hc (by decide) hb).trans (if_neg fun e => h ⟨e.1, e.2.1⟩)
  unfold setLinkState
  split
  next hv =>
    split
    next he =>
      obtain ⟨rfl, rfl, rfl⟩ := he
      exact hv
    · rfl
  · rw [hset]
    exact objAt_setObjAt _ 0x0A 0x100 l.val a b c v (by omega) hc (by decide) hb

/-- A link that takes another state is told of (R606, R677). -/
theorem eventsOut_setLinkState (s : Dev) (l : LinkId) {v : Nat} (h : v ≠ s.objAt 0x0A 0x100 l.val) :
    ∃ e, e.kind = 5 ∧ e.detail = l.val + v * 256 ∧ (s.setLinkState l v).eventsOut = s.eventsOut ++ [e] := by
  unfold setLinkState
  rw [if_neg (Ne.symm h)]
  exact ⟨_, rfl, rfl, rfl⟩

/-- The state that a link which begins to train takes (R558). -/
def trainState (s : Dev) (l : LinkId) : Nat := if s.objAt 0x0A 0x101 l.val = 0 then 3 else if s.lit l then 1 else 4

theorem trainLink_eq (s : Dev) (l : LinkId) : s.trainLink l = (s.modLink l fun x => { history := x.history, queue := x.queue }).setLinkState l (s.trainState l) := by
  unfold trainLink trainState
  dsimp only
  split
  next h => rw [if_pos (show s.objAt 0x0A 0x101 l.val = 0 from h)]
  next h =>
    rw [if_neg (show ¬s.objAt 0x0A 0x101 l.val = 0 from h)]
    split
    next h => rw [if_pos (show s.lit l = true from h)]
    next h => rw [if_neg (show ¬s.lit l = true from h)]

theorem linksOnly_trainLink (s : Dev) (l : LinkId) : linksOnly (l.val / 8) s (s.trainLink l) := by
  rw [trainLink_eq]
  exact (linksOnly_modLink ..).trans (linksOnly_setLinkState ..)

theorem link_trainLink (s : Dev) (l k : LinkId) :
    (s.trainLink l).link k = if k = l then { history := (s.link l).history, queue := (s.link l).queue } else s.link k := by
  rw [trainLink_eq, link_setLinkState, link_modLink]

theorem objAt_trainLink (s : Dev) (l : LinkId) : (s.trainLink l).objAt 0x0A 0x100 l.val = s.trainState l := by
  rw [trainLink_eq, objAt_setLinkState _ _ _ (by decide) (by omega) (by decide), if_pos ⟨rfl, rfl, rfl⟩]

theorem retrainIdle_of_not (h : (s.link l).retrain = false ∨ ¬((s.link l).sent = [] ∧ (s.link l).queue = [])) : s.retrainIdle l = s := by
  unfold retrainIdle
  refine if_neg fun hc => ?_
  simp only [Bool.and_eq_true, decide_eq_true_eq] at hc
  rcases h with h | h
  · exact absurd (h.symm.trans hc.1.1) Bool.noConfusion
  · exact h ⟨hc.1.2, hc.2⟩

theorem retrainIdle_of_idle (h : (s.link l).retrain = true) (hs : (s.link l).sent = []) (hq : (s.link l).queue = []) : s.retrainIdle l = s.trainLink l := by
  unfold retrainIdle
  exact if_pos (by simp [h, hs, hq])

theorem linksOnly_retrainIdle (s : Dev) (l : LinkId) : linksOnly (l.val / 8) s (s.retrainIdle l) := by
  unfold retrainIdle
  exact iteInduction (motive := fun t => linksOnly (l.val / 8) s t) (fun _ => linksOnly_trainLink s l) fun _ => .refl s

end Dev
theorem Link.idle_eq (x : Link) (n : Nat) : ∃ o w, x.idle n = { x with out := o, owed := w } := by
  induction n generalizing x with
  | zero => exact ⟨x.out, x.owed, rfl⟩
  | succ n ih =>
    rw [Link.idle]
    split
    · exact ⟨x.out, x.owed, rfl⟩
    · obtain ⟨o, w, h⟩ := ih (x.put (x.form 0 0 false false []))
      exact ⟨o, w, h⟩

theorem Link.idle_of_nothingOwed (x : Link) (h : x.credit.2 = 0) (n : Nat) : x.idle n = x := by
  cases n with
  | zero => rfl
  | succ n => exact if_pos h

namespace Dev

variable {ox : Nat} {s t u : Dev} {l : LinkId} {f : LinkFlit}

/-- A link with nothing to send leaves at most credits when its die's links send (R562). -/
theorem link_pumpLink (s : Dev) (l : LinkId) (h : (s.link l).queue = []) : ∃ n, (s.pumpLink l).link l = (s.link l).idle n := by
  unfold pumpLink
  dsimp only
  have hturn := turns_linkTurns s (ox := l.val / 8) (by omega)
    (((oxLinks (l.val / 8)).map fun l => ((s.link l).queue.map packetFlits).foldl (· + ·) 0).foldl (· + ·) 0)
  generalize s.linkTurns _ _ = t at hturn ⊢
  split
  · exact ⟨4, by rw [link_modLink_same, hturn.still l h]⟩
  · exact ⟨0, hturn.still l h⟩

theorem linksOnly_countFec (s : Dev) (l : LinkId) (f : LinkFlit) : linksOnly ox s (s.countFec l f) := by
  unfold countFec
  dsimp only
  refine iteInduction (motive := fun t => linksOnly ox s t) (fun _ => ?_) fun _ => ?_
  · exact iteInduction (motive := fun t => linksOnly ox s t) (fun _ => .refl s) fun _ => linksOnly_bump ..
  · exact (iteInduction (motive := fun t => linksOnly ox s t) (fun _ => .refl s) fun _ => linksOnly_bump ..).trans (linksOnly_bump ..)

theorem countFec_rest (s : Dev) (l : LinkId) (f : LinkFlit) : s.countFec l f = { s with obj := (s.countFec l f).obj } := by
  unfold countFec
  dsimp only
  split <;> split <;> rfl

theorem link_countFec (s : Dev) (l k : LinkId) (f : LinkFlit) : (s.countFec l f).link k = s.link k := by rw [countFec_rest]; rfl

/-- The codewords that a flit brings count, each kind where there are any (R559, R606). -/
def fecCounted (s u : Dev) (l : LinkId) (f : LinkFlit) : Prop :=
  u.objAt 0x0A 0x104 l.val = (if f.fec.corrected = 0 then s.objAt 0x0A 0x104 l.val else (s.objAt 0x0A 0x104 l.val + f.fec.corrected) % 2 ^ 64)
    ∧ u.objAt 0x0A 0x105 l.val = (if f.fec.uncorrected = 0 then s.objAt 0x0A 0x105 l.val else (s.objAt 0x0A 0x105 l.val + f.fec.uncorrected) % 2 ^ 64)

theorem fecCounted_countFec (s : Dev) (l : LinkId) (f : LinkFlit) : s.fecCounted (s.countFec l f) l f := by
  have hl : l.val < 256 := by omega
  unfold fecCounted countFec
  dsimp only
  split <;> split <;> simp (disch := omega) [objAt_bump]

theorem fecCounted.of_objAt (h : s.fecCounted t l f) (h4 : u.objAt 0x0A 0x104 l.val = t.objAt 0x0A 0x104 l.val)
    (h5 : u.objAt 0x0A 0x105 l.val = t.objAt 0x0A 0x105 l.val) : s.fecCounted u l f := by
  rw [fecCounted, h4, h5]
  exact h

theorem objAt_countFec (s : Dev) (l : LinkId) (f : LinkFlit) {a b c : Nat} (hb : b < 65536) (hc : c < 256) (h : ¬(a = 0x0A ∧ (b = 0x104 ∨ b = 0x105))) :
    (s.countFec l f).objAt a b c = s.objAt a b c := by
  have hl : l.val < 256 := by omega
  have hbump : ∀ (s : Dev) (i n : Nat), i = 0x104 ∨ i = 0x105 → (s.bump 0x0A i l.val n).objAt a b c = s.objAt a b c := fun s i n hi => by
    rw [objAt_bump _ _ hl hc (by omega) hb, if_neg]
    rintro ⟨rfl, rfl, -⟩
    exact h ⟨rfl, hi⟩
  unfold countFec
  dsimp only
  split <;> split <;> simp [hbump]

theorem linkUp_countFec (s : Dev) (l : LinkId) (f : LinkFlit) : (s.countFec l f).linkUp l = s.linkUp l := by
  unfold linkUp
  rw [objAt_countFec _ _ _ (by decide) (by omega) (by decide)]

/-- The bound on the time since the first NAK for a flit is not passed: nothing happens (R564, R571). -/
theorem linkBound_of_not (h : ¬∃ t, (s.link l).firstNak = some t ∧ t.toNat + 20000 ≤ s.now.toNat) : s.linkBound l = s := by
  unfold linkBound
  refine if_neg fun hany => h ?_
  cases hn : (s.link l).firstNak with
  | none =>
    rw [hn] at hany
    cases hany
  | some t =>
    rw [hn] at hany
    exact ⟨t, rfl, of_decide_eq_true hany⟩

theorem linkBound_of_past (h : ∃ t, (s.link l).firstNak = some t ∧ t.toNat + 20000 ≤ s.now.toNat) : s.linkBound l = s.linkFails l 1 := by
  obtain ⟨t, ht, hle⟩ := h
  unfold linkBound
  refine if_pos ?_
  rw [ht]
  exact decide_eq_true hle

theorem linkFlit_of_bad (hup : s.linkUp l = true) (hk : f.kind.val < 5) (hbad : linkFlitOk f = false) :
    s.linkFlit l f = ((s.countFec l f).modLink l Link.nak, none) := by
  unfold linkFlit
  rw [if_neg (by simp [hup]; omega)]
  dsimp only
  rw [hbad]
  rfl

theorem linkFlit_of_out (hup : s.linkUp l = true) (hk : f.kind.val = 1) (hok : linkFlitOk f = true) (hseq : f.seq ≠ (s.link l).rxNext) :
    s.linkFlit l f = (s.countFec l f, none) := by
  unfold linkFlit
  rw [if_neg (by simp [hup]; omega)]
  dsimp only
  rw [hok, link_countFec, if_neg Bool.noConfusion, if_pos (by simp [hk, hseq])]

/-- The state in which a link has taken the next data flit, before the links of its die send (R561 to R564). -/
def flitTaken (s : Dev) (l : LinkId) (f : LinkFlit) : Dev :=
  let a := ((s.countFec l f).modLink l (fun x => { x with
    credits := x.credits.set! f.crdTc.toNat (x.credits.getD f.crdTc.toNat 0 + f.crd.toNat) })).linkAck l f.ack
  a.setLink l { ((a.link l).assemble f).1 with rxNext := f.seq + 1, discarding := false, nakOut := none }

theorem linkFlit_of_next (hup : s.linkUp l = true) (hk : f.kind.val = 1) (hok : linkFlitOk f = true) (hseq : f.seq = (s.link l).rxNext) :
    s.linkFlit l f = ((s.flitTaken l f).pumpLink l,
      ((((s.countFec l f).modLink l (fun x => { x with
        credits := x.credits.set! f.crdTc.toNat (x.credits.getD f.crdTc.toNat 0 + f.crd.toNat) })).linkAck l f.ack).link l |>.assemble f).2) := by
  unfold linkFlit
  rw [if_neg (by simp [hup]; omega)]
  dsimp only
  rw [hok, link_countFec, if_neg Bool.noConfusion, if_neg (by simp [hk, hseq]), if_neg (by omega), if_pos hk]
  rfl

end Dev
/-- A link that has taken an acknowledgement (R564). -/
def Link.acknowledged (x : Link) (a : U16) : Link :=
  { x with
    acked := a, sent := x.sent.filter (fun e => !decide ((a - e.last).toNat < 32768))
    flits := x.flits.filter (fun f => !decide ((a - f.seq).toNat < 32768))
    firstNak := if (a - x.nakSeq).toNat < 32768 then none else x.firstNak }

namespace Dev

variable {ox : Nat} {s t u : Dev} {l : LinkId} {f : LinkFlit}

/-- An acknowledgement of a link that no write has to train again changes that link alone (R564). -/
theorem linkAck_eq (h : (s.link l).retrain = false) (a : U16) : s.linkAck l a = s.setLink l ((s.link l).acknowledged a) := by
  unfold linkAck
  refine retrainIdle_of_not (.inl ?_)
  rw [link_modLink_same]
  exact h

/-- A link's entry after the flit it expects (R561 to R564). -/
theorem link_flitTaken (h : (s.link l).retrain = false) (f : LinkFlit) : ∃ held owed, (s.flitTaken l f).link l =
    { ({ s.link l with credits := (s.link l).credits.set! f.crdTc.toNat ((s.link l).credits.getD f.crdTc.toNat 0 + f.crd.toNat) } : Link).acknowledged f.ack with
      rxNext := f.seq + 1, discarding := false, nakOut := none, held := held, owed := owed
      asm := (s.link l).asm.set! f.tc.toNat (if f.eop then none else
        ((if f.sop then some [] else (s.link l).asm.getD f.tc.toNat none).map fun g => g ++ flitUsed f)) } := by
  unfold flitTaken
  dsimp only
  rw [link_setLink, if_pos rfl, linkAck_eq]
  · rw [link_setLink, if_pos rfl, link_modLink_same, link_countFec]
    unfold Link.assemble
    dsimp only
    cases f.eop <;> exact ⟨_, _, rfl⟩
  · rw [link_modLink_same, link_countFec]
    exact h

/-- The packet that a data flit completes (R561). -/
theorem packet_flitTaken (h : (s.link l).retrain = false) (f : LinkFlit) :
    (((((s.countFec l f).modLink l (fun x => { x with
        credits := x.credits.set! f.crdTc.toNat (x.credits.getD f.crdTc.toNat 0 + f.crd.toNat) })).linkAck l f.ack).link l).assemble f).2
      = if f.eop then ((if f.sop then some [] else (s.link l).asm.getD f.tc.toNat none).map fun g => g ++ flitUsed f).bind parsePacket else none := by
  rw [linkAck_eq]
  · rw [link_setLink, if_pos rfl, link_modLink_same, link_countFec]
    unfold Link.assemble
    dsimp only
    cases f.eop <;> rfl
  · rw [link_modLink_same, link_countFec]
    exact h

theorem linksOnly_linkAck (s : Dev) (l : LinkId) (a : U16) : linksOnly (l.val / 8) s (s.linkAck l a) := by
  unfold linkAck
  exact (linksOnly_modLink ..).trans (linksOnly_retrainIdle ..)

theorem linksOnly_flitTaken (s : Dev) (l : LinkId) (f : LinkFlit) : linksOnly (l.val / 8) s (s.flitTaken l f) :=
  (((linksOnly_countFec s l f).trans (linksOnly_modLink ..)).trans (linksOnly_linkAck ..)).trans (linksOnly_setLink ..)

theorem obj_flitTaken (h : (s.link l).retrain = false) (f : LinkFlit) : (s.flitTaken l f).obj = (s.countFec l f).obj := by
  unfold flitTaken
  dsimp only
  rw [linkAck_eq]
  · rfl
  · rw [link_modLink_same, link_countFec]
    exact h

/-- What a NAK that finds flits to send again leaves (R549, R564). -/
def nakked (s : Dev) (l : LinkId) (ack : U16) : Dev :=
  (s.linkAck l ack).modLink l fun x =>
    if x.firstNak.isSome && x.nakSeq = ack + 1 then x else { x with nakSeq := ack + 1, firstNak := some s.now }

theorem now_linkAck (s : Dev) (l : LinkId) (a : U16) : (s.linkAck l a).now = s.now := by rw [(linksOnly_linkAck s l a).rest]

theorem linkNak_eq (hup : s.linkUp l = true) (ack : U16) : s.linkNak l ack =
    if ((s.link l).txNext - 1 - ack).toNat = 0 ∨ 4096 < ((s.link l).txNext - 1 - ack).toNat then s.linkAck l ack
    else (s.nakked l ack).bump 0x0A 0x106 l.val ((s.link l).txNext - 1 - ack).toNat := by
  unfold linkNak nakked
  rw [hup, if_neg Bool.noConfusion]
  dsimp only
  rw [now_linkAck]
  simp only [Bool.or_eq_true, decide_eq_true_eq]

end Dev
/-- A link as it starts afresh: only its time exchanges stay (R558, R565). -/
def Link.fresh (x : Link) : Link := { history := x.history }

namespace Dev

variable {ox : Nat} {s t u : Dev} {l k : LinkId} {cause v : Nat}

/-- The state in which a link has gone down, before its packets are looked at (R565). -/
def linkLost (s : Dev) (l : LinkId) (v : Nat) : Dev := (s.modLink l Link.fresh).setLinkState l v

theorem linkDown_of_down (h : s.linkUp l = false) (cause v : Nat) : s.linkDown l cause v = s.setLinkState l v := by
  unfold linkDown
  rw [h]
  rfl

theorem mmu_setLinkState (s : Dev) (l : LinkId) (v : Nat) (m : MmuId) : (s.setLinkState l v).mmu m = s.mmu m := by
  unfold setLinkState
  split <;> rfl

/-- A link that goes down while no fault queue is on: its record is dropped, and its packets are lost in turn (R565). -/
theorem linkDown_eq (h : s.linkUp l = true) (hoff : ∀ m, (s.mmu m).fqEn = false) (cause v : Nat) :
    ∃ m, s.linkDown l cause v = ((s.link l).sent.map SentPacket.packet ++ (s.link l).queue).foldl
      (fun s p => s.losePacket (l.val / 8) p) ((s.linkLost l v).dropRecord m) := by
  unfold linkDown
  rw [h, if_neg Bool.noConfusion]
  dsimp only
  rw [report_of_off RecClass.noConfusion]
  · exact ⟨_, rfl⟩
  · rw [mmu_setLinkState]
    exact hoff _

theorem linkDown_of_idle (h : s.linkUp l = true) (hoff : ∀ m, (s.mmu m).fqEn = false) (hs : (s.link l).sent = []) (hq : (s.link l).queue = [])
    (cause v : Nat) : ∃ m, s.linkDown l cause v = (s.linkLost l v).dropRecord m := by
  obtain ⟨m, hm⟩ := linkDown_eq h hoff cause v
  rw [hs, hq] at hm
  exact ⟨m, hm⟩

theorem link_linkLost (s : Dev) (l k : LinkId) (v : Nat) : (s.linkLost l v).link k = if k = l then (s.link l).fresh else s.link k := by
  rw [linkLost, link_setLinkState, link_modLink]

theorem objAt_linkLost (s : Dev) (l : LinkId) (v : Nat) {a b c : Nat} (hb : b < 65536) (hc : c < 256) (h : ¬(a = 0x0C ∧ b = 0x120)) :
    (s.linkLost l v).objAt a b c = if a = 0x0A ∧ b = 0x100 ∧ c = l.val then v else s.objAt a b c :=
  objAt_setLinkState _ l v hb hc h

theorem trainState_of_objAt (h1 : t.objAt 0x0A 0x101 l.val = s.objAt 0x0A 0x101 l.val)
    (h2 : t.objAt 0x0C 0x450 (l.val / 8) = s.objAt 0x0C 0x450 (l.val / 8)) : t.trainState l = s.trainState l := by
  rw [trainState, h1, lit, h2]
  rfl

theorem trainState_linkLost (s : Dev) (l : LinkId) (v : Nat) : (s.linkLost l v).trainState l = s.trainState l :=
  trainState_of_objAt ((objAt_linkLost _ _ _ (by decide) (by omega) (by decide)).trans (if_neg (by omega)))
    ((objAt_linkLost _ _ _ (by decide) (by omega) (by decide)).trans (if_neg (by omega)))

/-- A link that fails with nothing to lose trains again, empty (R558, R564, R565). -/
theorem linkFails_of_idle (h : s.linkUp l = true) (hoff : ∀ m, (s.mmu m).fqEn = false) (hs : (s.link l).sent = []) (hq : (s.link l).queue = [])
    (cause : Nat) : (s.linkFails l cause).link l = (s.link l).fresh ∧ (∀ k, k ≠ l → (s.linkFails l cause).link k = s.link k)
      ∧ (s.linkFails l cause).objAt 0x0A 0x100 l.val = s.trainState l := by
  obtain ⟨m, hm⟩ := linkDown_of_idle h hoff hs hq cause 0
  have hlink : ∀ k, (s.linkFails l cause).link k = if k = l then (s.link l).fresh else s.link k := fun k => by
    rw [linkFails, if_pos h, hm, link_trainLink]
    split
    · change ({ history := ((s.linkLost l 0).link l).history, queue := ((s.linkLost l 0).link l).queue } : Link) = _
      rw [link_linkLost, if_pos rfl]
      rfl
    next hk =>
      change (s.linkLost l 0).link k = _
      rw [link_linkLost, if_neg hk]
  refine ⟨(hlink l).trans (if_pos rfl), fun k hk => (hlink k).trans (if_neg hk), ?_⟩
  rw [linkFails, if_pos h, hm, objAt_trainLink]
  exact trainState_linkLost s l 0

/-- The only packet of a link that goes down, this device's own, fails its flow (R565, R568). -/
theorem linkFails_of_one {p : Packet} {f : TxFlow} (h : s.linkUp l = true) (hoff : ∀ m, (s.mmu m).fqEn = false) (hs : (s.link l).sent = [])
    (hq : (s.link l).queue = [p]) (hsrc : p.src = s.deviceId) (hn : isNotice p = false) (hf : s.flow p.dst p.flow = some f)
    (he : f.epoch = p.epoch) (cause : Nat) :
    (s.linkFails l cause).flow p.dst p.flow = some (failedFlow f) ∧ (s.linkFails l cause).link l = (s.link l).fresh := by
  obtain ⟨m, hm⟩ := linkDown_eq h hoff cause 0
  rw [hs, hq] at hm
  have hid : ((s.linkLost l 0).dropRecord m).deviceId = s.deviceId :=
    congrArg (BitVec.ofNat 16) ((objAt_linkLost s l 0 (by decide) (by decide) (by decide)).trans (if_neg (by omega)))
  have hflow : ((s.linkLost l 0).dropRecord m).flow p.dst p.flow = some f := by
    rw [← hf]
    refine flow_of_flows ?_ _ _
    change (s.linkLost l 0).fab.flows = _
    rw [linkLost, (linksOnly_setLinkState (ox := 0) ..).rest]
    rfl
  have hlose : s.linkDown l cause 0 = ((s.linkLost l 0).dropRecord m).failFlow f 3 := by
    rw [hm]
    change ((s.linkLost l 0).dropRecord m).losePacket (l.val / 8) p = _
    rw [losePacket, if_pos (hsrc.trans hid.symm), hn, if_neg Bool.noConfusion, hflow]
    exact if_pos he
  obtain ⟨hdst, hnum⟩ := flow_keys _ _ hf
  rw [linkFails, if_pos h, hlose]
  refine ⟨?_, ?_⟩
  · rw [flow_of_flows (by rw [(linksOnly_trainLink _ l).rest]), ← hdst, ← hnum]
    exact flow_failFlow ..
  · rw [link_trainLink, if_pos rfl]
    have hlink : (((s.linkLost l 0).dropRecord m).failFlow f 3).link l = (s.link l).fresh := by
      rw [link, (failures_failFlow ..).rest]
      exact (link_linkLost s l l 0).trans (if_pos rfl)
    rw [hlink]
    rfl

end Dev
/-- What a link's own events change of the module (R560, R606). -/
def linkOnly (l : LinkId) (s u : State) : Prop :=
  u = { s with fab := { s.fab with links := u.fab.links, lastClass := u.fab.lastClass }, obj := u.obj, eventLog := u.eventLog, eventsOut := u.eventsOut }
    ∧ ∀ k : LinkId, k.val / 8 ≠ l.val / 8 → u.link k = s.link k

theorem linkOnly_of {l : LinkId} {s : State} {d : Dev} (h : s.toDev.linksOnly (l.val / 8) d) : linkOnly l s { s with toDev := d } := by
  refine ⟨?_, h.others⟩
  have hrest := h.rest
  generalize d.fab.links = a, d.fab.lastClass = b, d.obj = c, d.eventLog = e, d.eventsOut = g at hrest
  subst hrest
  rfl

section LinkEvents

variable {l : LinkId} {s : State}

theorem linkEvents_down (h : s.linkUp l = false) : exec (.timeExchange l) s = .next s ∧ (∀ a b c d, exec (.timeFrame l a b c d) s = .next s) ∧
    (∀ a, exec (.linkNak l a) s = .next s) ∧ ∀ f, exec (.linkFlitReceive l f) s = .next s := by
  have hnak : ∀ a, s.toDev.linkNak l a = s.toDev := fun a => by
    rw [Dev.linkNak, h]
    rfl
  have hbound : s.toDev.linkBound l = s.toDev := by
    unfold Dev.linkBound Dev.linkFails
    rw [h, if_neg Bool.false_ne_true, ite_self]
  refine ⟨exec_eq_next rfl ?_, fun a b c d => exec_eq_next (c := .timeFrame l a b c d) rfl ?_, fun a => exec_eq_next (c := .linkNak l a) rfl ?_,
    fun f => exec_eq_next (c := .linkFlitReceive l f) rfl ?_⟩
  · dsimp only
    rw [h, if_neg Bool.false_ne_true]
  · dsimp only
    rw [h]
    rfl
  · dsimp only
    rw [hnak, hbound]
  · dsimp only
    rw [show s.toDev.linkFlit l f = (s.toDev, none) by rw [Dev.linkFlit, h]; rfl]
    dsimp only
    rw [hbound, ite_self]

theorem timeExchange_up (h : s.linkUp l = true) :
    ∃ u, exec (.timeExchange l) s = .next u ∧ u.link l = { s.link l with t1 := s.now } ∧ u.obj = s.obj ∧ linkOnly l s u :=
  ⟨_, exec_eq_next rfl (if_pos h), s.toDev.link_modLink_same l _, rfl, linkOnly_of (Dev.linksOnly_modLink ..)⟩

/-- The offset that a time frame's four stamps give, in half nanoseconds' thousandths (R555). -/
def frameOffset (t1 t2 t3 t4 : U64) : Int := (((t2.toNat : Int) - t1.toNat) - ((t4.toNat : Int) - t3.toNat)) * 500

/-- What a time frame publishes of its offset, its slope and its time (R555). -/
def Dev.timePublished (s : Dev) (l : LinkId) (a b c : Nat) : Dev := ((s.setObjAt 0x0A 0x108 l.val a).setObjAt 0x0A 0x109 l.val b).setObjAt 0x0A 0x10A l.val c

theorem Dev.link_timePublished (s : Dev) (l : LinkId) (a b c : Nat) : (s.timePublished l a b c).link l = s.link l := rfl

theorem Dev.objAt_timePublished (s : Dev) (l : LinkId) (a b c : Nat) :
    (s.timePublished l a b c).objAt 0x0A 0x108 l.val = a ∧ (s.timePublished l a b c).objAt 0x0A 0x10A l.val = c := by
  have hl : l.val < 256 := by omega
  unfold Dev.timePublished
  constructor
  · rw [Dev.objAt_setObjAt _ _ _ _ _ _ _ _ hl hl (by decide) (by decide), if_neg (by simp),
      Dev.objAt_setObjAt _ _ _ _ _ _ _ _ hl hl (by decide) (by decide), if_neg (by simp), Dev.objAt_setObjAt_same]
  · exact Dev.objAt_setObjAt_same ..

theorem timeFrame_up (h : s.linkUp l = true) (t1 t2 t3 t4 : U64) : ∃ u, exec (.timeFrame l t1 t2 t3 t4) s = .next u ∧ linkOnly l s u ∧
    u.objAt 0x0A 0x108 l.val = clampCode 64 (frameOffset t1 t2 t3 t4) ∧ u.objAt 0x0A 0x10A l.val = t4.toNat ∧
    ((s.link l).history.length < 64 → (u.link l).history = (s.link l).history ++ [((t4.toNat : Int), frameOffset t1 t2 t3 t4)]) ∧
    ((s.link l).history.length = 64 → (u.link l).history = (s.link l).history.drop 1 ++ [((t4.toNat : Int), frameOffset t1 t2 t3 t4)]) := by
  have hexec : exec (.timeFrame l t1 t2 t3 t4) s = .next { s with toDev := (
      let h := ((s.link l).history ++ [((t4.toNat : Int), frameOffset t1 t2 t3 t4)])
      let h := h.drop (h.length - 64)
      (s.toDev.modLink l (fun x => { x with t1 := t1, history := h })).timePublished l (clampCode 64 (frameOffset t1 t2 t3 t4))
        (clampCode 32 (slopePpb h)) t4.toNat) } := by
    refine exec_eq_next rfl ?_
    dsimp only
    rw [h]
    rfl
  refine ⟨_, hexec, ?_⟩
  dsimp only
  generalize hb : ((s.link l).history ++ [((t4.toNat : Int), frameOffset t1 t2 t3 t4)]).drop _ = b
  generalize slopePpb b = slope
  have hhist : (((s.toDev.modLink l (fun x => { x with t1 := t1, history := b })).timePublished l (clampCode 64 (frameOffset t1 t2 t3 t4))
      (clampCode 32 slope) t4.toNat).link l).history = b := by
    rw [Dev.link_timePublished, Dev.link_modLink_same]
  obtain ⟨h8, hA⟩ := (s.toDev.modLink l (fun x => { x with t1 := t1, history := b })).objAt_timePublished l (clampCode 64 (frameOffset t1 t2 t3 t4))
    (clampCode 32 slope) t4.toNat
  refine ⟨linkOnly_of ?_, h8, hA, fun hlen => hhist.trans ?_, fun hlen => hhist.trans ?_⟩
  · exact (((Dev.linksOnly_modLink ..).trans (Dev.linksOnly_setObjAt ..)).trans (Dev.linksOnly_setObjAt ..)).trans (Dev.linksOnly_setObjAt ..)
  · rw [← hb, List.length_append, List.length_singleton, Nat.sub_eq_zero_of_le (by omega), List.drop_zero]
  · rw [← hb, List.length_append, List.length_singleton, hlen, List.drop_append_of_le_length (by omega)]

/-- A link's bound is passed: 20 µs since the first NAK of a flit (R564, R571). -/
def State.nakPast (s : State) (o : Option U64) : Prop := ∃ t, o = some t ∧ t.toNat + 20000 ≤ s.now.toNat

/-- What follows a flit once it has been taken in: the packet it completes arrives, or the bound of a NAK is looked at. -/
def Dev.flitDone (d : Dev) (l : LinkId) (f : LinkFlit) : Option Packet → Dev
  | some p => d.arriveAt l p
  | none => if f.kind.val = 2 then d.linkBound l else d

theorem exec_linkFlitReceive (l : LinkId) (f : LinkFlit) (s : State) :
    exec (.linkFlitReceive l f) s = .next { s with toDev := (s.toDev.linkFlit l f).1.flitDone l f (s.toDev.linkFlit l f).2 } := by
  refine exec_eq_next rfl ?_
  dsimp only
  generalize s.toDev.linkFlit l f = r
  obtain ⟨d, _ | p⟩ := r <;> rfl

theorem flit_unknown {f : LinkFlit} (h : 5 ≤ f.kind.val) : exec (.linkFlitReceive l f) s = .next s := by
  have hf : s.toDev.linkFlit l f = (s.toDev, none) := by
    unfold Dev.linkFlit
    exact if_pos (by simp [h])
  rw [exec_linkFlitReceive, hf]
  dsimp only [Dev.flitDone]
  rw [if_neg (by omega)]

/-- A flit that is not whole has the link ask for a replay (R561, R564). -/
theorem flit_bad {f : LinkFlit} (hup : s.linkUp l = true) (hk : f.kind.val < 5) (hbad : flitCrcOk f = false ∨ f.fec.hit = true)
    (hpast : f.kind.val = 2 → ¬s.nakPast (s.link l).firstNak) :
    ∃ u, exec (.linkFlitReceive l f) s = .next u ∧ linkOnly l s u ∧ s.fecCounted u.toDev l f ∧ ∃ g o, g.kind.val = 2 ∧ g.ack = (s.link l).rxNext - 1
      ∧ u.link l = { s.link l with discarding := true, nakOut := some ((s.link l).rxNext - 1), out := some g, owed := o } := by
  have hok : linkFlitOk f = false := by
    unfold linkFlitOk
    rcases hbad with h | h <;> simp [h]
  have hlink : ((s.toDev.countFec l f).modLink l Link.nak).link l = (s.link l).nak := by
    rw [Dev.link_modLink_same, Dev.link_countFec]
  have hbound : (if f.kind.val = 2 then ((s.toDev.countFec l f).modLink l Link.nak).linkBound l else (s.toDev.countFec l f).modLink l Link.nak)
      = (s.toDev.countFec l f).modLink l Link.nak := by
    split
    next h2 =>
      refine Dev.linkBound_of_not ?_
      rw [hlink, Dev.countFec_rest]
      exact hpast h2
    · rfl
  have hexec := exec_linkFlitReceive l f s
  rw [Dev.linkFlit_of_bad hup hk hok] at hexec
  dsimp only [Dev.flitDone] at hexec
  rw [hbound] at hexec
  refine ⟨_, hexec, linkOnly_of ((Dev.linksOnly_countFec ..).trans (Dev.linksOnly_modLink ..)), Dev.fecCounted_countFec s.toDev l f, ?_⟩
  exact ⟨_, _, rfl, rfl, hlink⟩

theorem flitOk_of {f : LinkFlit} (h1 : flitCrcOk f = true) (h2 : f.fec.hit = false) : linkFlitOk f = true := by
  rw [linkFlitOk, h1, h2]
  rfl

/-- A data flit out of its order is discarded (R561, R564). -/
theorem flit_out {f : LinkFlit} (hup : s.linkUp l = true) (hk : f.kind.val = 1) (hok : linkFlitOk f = true) (hseq : f.seq ≠ (s.link l).rxNext) :
    ∃ u, exec (.linkFlitReceive l f) s = .next u ∧ u = { s with obj := u.obj } ∧ s.fecCounted u.toDev l f := by
  have hexec := exec_linkFlitReceive l f s
  rw [Dev.linkFlit_of_out hup hk hok hseq] at hexec
  dsimp only [Dev.flitDone] at hexec
  rw [if_neg (by omega)] at hexec
  refine ⟨_, hexec, ?_, Dev.fecCounted_countFec s.toDev l f⟩
  have hrest := s.toDev.countFec_rest l f
  generalize s.toDev.countFec l f = d at hrest
  rw [hrest]

/-- A link's entry once it has taken the next data flit and the links of its die have sent (R561 to R564). -/
theorem Dev.link_pumpTaken {s : Dev} (hr : (s.link l).retrain = false) (hq : (s.link l).queue = []) (f : LinkFlit) : ∃ held owed out,
    ((s.flitTaken l f).pumpLink l).link l = {
      ({ s.link l with credits := (s.link l).credits.set! f.crdTc.toNat ((s.link l).credits.getD f.crdTc.toNat 0 + f.crd.toNat) } : Link).acknowledged f.ack with
        rxNext := f.seq + 1, discarding := false, nakOut := none, held := held, owed := owed, out := out
        asm := (s.link l).asm.set! f.tc.toNat (if f.eop then none else
          ((if f.sop then some [] else (s.link l).asm.getD f.tc.toNat none).map fun g => g ++ flitUsed f)) } := by
  obtain ⟨held, owed, hlink⟩ := Dev.link_flitTaken hr f
  have hqueue : ((s.flitTaken l f).link l).queue = [] := by
    rw [hlink]
    exact hq
  obtain ⟨n, hn⟩ := (s.flitTaken l f).link_pumpLink l hqueue
  obtain ⟨o, w, hidle⟩ := ((s.flitTaken l f).link l).idle_eq n
  rw [hidle, hlink] at hn
  exact ⟨held, w, o, hn⟩

theorem Dev.fecCounted_pumpTaken {s : Dev} (hr : (s.link l).retrain = false) (f : LinkFlit) : s.fecCounted ((s.flitTaken l f).pumpLink l) l f := by
  have hl : l.val < 256 := by omega
  have hobj := Dev.obj_flitTaken hr f
  have hpump := (s.flitTaken l f).sends_pumpLink l
  refine (Dev.fecCounted_countFec s l f).of_objAt ?_ ?_
  · rw [hpump.objAt _ _ _ (by decide) hl (by decide), Dev.objAt, Dev.obj!, hobj, Dev.objAt, Dev.obj!]
  · rw [hpump.objAt _ _ _ (by decide) hl (by decide), Dev.objAt, Dev.obj!, hobj, Dev.objAt, Dev.obj!]

/-- What the payloads of a packet in assembly come to with a flit (R561). -/
def Link.assembled (x : Link) (f : LinkFlit) : Option (List Byte) :=
  (if f.sop then some [] else x.asm.getD f.tc.toNat none).map (fun g => g ++ flitUsed f)

/-- The data flit that a link expects: its packet arrives with the last flit (R561). -/
theorem exec_flitNext {f : LinkFlit} (hup : s.linkUp l = true) (hk : f.kind.val = 1) (hok : linkFlitOk f = true) (hseq : f.seq = (s.link l).rxNext)
    (hr : (s.link l).retrain = false) : exec (.linkFlitReceive l f) s = .next { s with toDev :=
      (((s.toDev.flitTaken l f).pumpLink l).flitDone l f (if f.eop then ((s.link l).assembled f).bind parsePacket else none)) } := by
  unfold Link.assembled
  rw [exec_linkFlitReceive, Dev.linkFlit_of_next hup hk hok hseq, Dev.packet_flitTaken hr]

/-- The data flit that a link expects joins its packet, and completes it with its last flit (R561 to R564). -/
theorem flit_next {f : LinkFlit} (hup : s.linkUp l = true) (hk : f.kind.val = 1) (hok : linkFlitOk f = true) (hseq : f.seq = (s.link l).rxNext)
    (hr : (s.link l).retrain = false) (hq : (s.link l).queue = []) : ∃ a : State,
    let x := s.link l
    let y := a.link l
    linkOnly l s a ∧ s.fecCounted a.toDev l f ∧ y.rxNext = f.seq + 1 ∧ y.discarding = false ∧ y.nakOut = none ∧ y.acked = f.ack
      ∧ y.sent = x.sent.filter (fun e => !decide ((f.ack - e.last).toNat < 32768))
      ∧ y.asm = x.asm.set! f.tc.toNat (if f.eop then none else x.assembled f)
      ∧ y.credits = x.credits.set! f.crdTc.toNat (x.credits.getD f.crdTc.toNat 0 + f.crd.toNat) ∧
    ((f.eop = false ∨ (x.assembled f).bind parsePacket = none) → exec (.linkFlitReceive l f) s = .next a) ∧
    (f.eop = true → ∀ p, (x.assembled f).bind parsePacket = some p → exec (.linkFlitReceive l f) s = .next { a with toDev := a.toDev.arriveAt l p }) := by
  have hexec := exec_flitNext hup hk hok hseq hr
  obtain ⟨held, owed, out, hlink⟩ := Dev.link_pumpTaken hr hq f
  have honly : s.toDev.linksOnly (l.val / 8) ((s.toDev.flitTaken l f).pumpLink l) :=
    (Dev.linksOnly_flitTaken s.toDev l f).trans ((s.toDev.flitTaken l f).sends_pumpLink l).linksOnly
  have hfec := Dev.fecCounted_pumpTaken hr f
  generalize (s.toDev.flitTaken l f).pumpLink l = d at hlink hexec honly hfec
  refine ⟨{ s with toDev := d }, linkOnly_of honly, hfec, ?_⟩
  dsimp only
  rw [hlink]
  refine ⟨rfl, rfl, rfl, rfl, rfl, rfl, rfl, fun hnone => ?_, fun he p hp => ?_⟩
  · have hnp : (if f.eop = true then ((s.link l).assembled f).bind parsePacket else none) = none := by
      rcases hnone with h | h
      · rw [h, if_neg Bool.false_ne_true]
      · rw [h, ite_self]
    rw [hexec, hnp]
    dsimp only [Dev.flitDone]
    rw [if_neg (by omega)]
  · rw [hexec, if_pos he, hp]
    rfl

end LinkEvents

end Sys2Proof.Machine
end

section
/-! PROOFS. Proofs/LinkControl.lean: time exchange, training, retry and link failure (O45). -/

namespace Sys2Proof.Machine

namespace Dev

variable {s : Dev} {l : LinkId}


theorem link_nakked (h : (s.link l).retrain = false) (ack : U16) : (s.nakked l ack).link l =
    if (((s.link l).acknowledged ack).firstNak.isSome && (s.link l).nakSeq = ack + 1) = true then (s.link l).acknowledged ack
    else { (s.link l).acknowledged ack with nakSeq := ack + 1, firstNak := some s.now } := by
  rw [nakked, link_modLink_same, linkAck_eq h, link_setLink, if_pos rfl]
  rfl

theorem obj_nakked (h : (s.link l).retrain = false) (ack : U16) : (s.nakked l ack).obj = s.obj := by
  rw [nakked, linkAck_eq h]
  rfl

theorem linksOnly_nakked (s : Dev) (l : LinkId) (ack : U16) : linksOnly (l.val / 8) s (s.nakked l ack) :=
  (linksOnly_linkAck ..).trans (linksOnly_modLink ..)

end Dev

section Naks

variable {l : LinkId} {s : State} {ack : U16}

theorem exec_linkNak (l : LinkId) (ack : U16) (s : State) : exec (.linkNak l ack) s = .next { s with toDev := (s.toDev.linkNak l ack).linkBound l } := rfl

/-- A NAK that comes within the bound has what is not acknowledged sent again (R549, R564, R571). -/
theorem linkNak_within (hup : s.linkUp l = true) (hr : (s.link l).retrain = false)
    (h : ¬s.nakPast ((s.link l).acknowledged ack).firstNak ∨ 0 < ((s.link l).txNext - 1 - ack).toNat ∧ ((s.link l).txNext - 1 - ack).toNat ≤ 4096
      ∧ ¬(((s.link l).acknowledged ack).firstNak.isSome = true ∧ (s.link l).nakSeq = ack + 1)) :
    let n := ((s.link l).txNext - 1 - ack).toNat
    let first := ((s.link l).acknowledged ack).firstNak
    let again : Prop := 0 < n ∧ n ≤ 4096 ∧ ¬(first.isSome = true ∧ (s.link l).nakSeq = ack + 1)
    ∃ u, exec (.linkNak l ack) s = .next u ∧ linkOnly l s u ∧ (u.link l).acked = ack ∧ (u.link l).sent = ((s.link l).acknowledged ack).sent ∧
      ((n = 0 ∨ 4096 < n) → u.obj = s.obj) ∧
      (0 < n → n ≤ 4096 → u.objAt 0x0A 0x106 l.val = (s.objAt 0x0A 0x106 l.val + n) % 2 ^ 64 ∧ (u.link l).nakSeq = ack + 1
        ∧ (again → (u.link l).firstNak = some s.now) ∧ (¬again → (u.link l).firstNak = first)) := by
  intro n first again
  by_cases hn : n = 0 ∨ 4096 < n
  · have hnak : s.toDev.linkNak l ack = s.toDev.linkAck l ack := (Dev.linkNak_eq hup ack).trans (if_pos hn)
    have hlink : (s.toDev.linkAck l ack).link l = (s.link l).acknowledged ack := by
      rw [Dev.linkAck_eq hr, Dev.link_setLink, if_pos rfl]
    have hbound : (s.toDev.linkNak l ack).linkBound l = s.toDev.linkAck l ack := by
      rw [hnak]
      refine Dev.linkBound_of_not ?_
      rw [hlink, Dev.now_linkAck]
      exact h.resolve_right fun h => by omega
    refine ⟨_, exec_linkNak l ack s, ?_⟩
    dsimp only
    rw [hbound]
    refine ⟨linkOnly_of (Dev.linksOnly_linkAck ..), by rw [hlink]; rfl, by rw [hlink], fun _ => ?_, fun h0 h1 => by omega⟩
    rw [Dev.linkAck_eq hr]
    rfl
  · have hnak : s.toDev.linkNak l ack = (s.toDev.nakked l ack).bump 0x0A 0x106 l.val n := (Dev.linkNak_eq hup ack).trans (if_neg hn)
    have hlink : ((s.toDev.nakked l ack).bump 0x0A 0x106 l.val n).link l = if (first.isSome && (s.link l).nakSeq = ack + 1) = true
        then (s.link l).acknowledged ack else { (s.link l).acknowledged ack with nakSeq := ack + 1, firstNak := some s.now } :=
      Dev.link_nakked hr ack
    have hagain : again ↔ ¬(first.isSome && (s.link l).nakSeq = ack + 1) = true := by
      rw [Bool.and_eq_true, decide_eq_true_eq]
      exact ⟨fun ha => ha.2.2, fun ha => ⟨by omega, by omega, ha⟩⟩
    have hfirst : (((s.toDev.nakked l ack).bump 0x0A 0x106 l.val n).link l).firstNak
        = if (first.isSome && (s.link l).nakSeq = ack + 1) = true then first else some s.now := by
      rw [hlink]
      split <;> rfl
    have hbound : (s.toDev.linkNak l ack).linkBound l = (s.toDev.nakked l ack).bump 0x0A 0x106 l.val n := by
      rw [hnak]
      refine Dev.linkBound_of_not ?_
      rw [hfirst, show ((s.toDev.nakked l ack).bump 0x0A 0x106 l.val n).now = s.now from Dev.now_linkAck ..]
      split
      next hc => exact h.resolve_right fun ha => hagain.mp ha hc
      · rintro ⟨t, ht, hle⟩
        cases ht
        omega
    have hobj : ((s.toDev.nakked l ack).bump 0x0A 0x106 l.val n).objAt 0x0A 0x106 l.val = (s.objAt 0x0A 0x106 l.val + n) % 2 ^ 64 := by
      rw [Dev.objAt_bump_self _ _ (by decide) (by omega), Dev.objAt, Dev.obj!, Dev.obj_nakked hr]
      rfl
    refine ⟨_, exec_linkNak l ack s, ?_⟩
    dsimp only
    rw [hbound]
    refine ⟨linkOnly_of ((Dev.linksOnly_nakked ..).trans (Dev.linksOnly_bump ..)), ?_, ?_, fun h0 => absurd h0 hn,
      fun _ _ => ⟨hobj, ?_, fun ha => hfirst.trans (if_neg (hagain.mp ha)), fun ha => hfirst.trans (if_pos (not_not.mp (mt hagain.mpr ha)))⟩⟩
    · rw [hlink]
      split <;> rfl
    · rw [hlink]
      split <;> rfl
    · rw [hlink]
      split
      next hc => exact of_decide_eq_true (Bool.and_eq_true_iff.mp hc).2
      · rfl

/-- A NAK past the bound brings the link down, which has nothing to lose (R564, R571). -/
theorem linkNak_past (hup : s.linkUp l = true) (hr : (s.link l).retrain = false) (hpast : s.nakPast ((s.link l).acknowledged ack).firstNak)
    (hagain : ¬(0 < ((s.link l).txNext - 1 - ack).toNat ∧ ((s.link l).txNext - 1 - ack).toNat ≤ 4096
      ∧ ¬(((s.link l).acknowledged ack).firstNak.isSome = true ∧ (s.link l).nakSeq = ack + 1)))
    (hoff : ∀ m, (s.mmu m).fqEn = false) (hsent : ((s.link l).acknowledged ack).sent = []) (hq : (s.link l).queue = []) :
    ∃ u, exec (.linkNak l ack) s = .next u ∧ u.link l = { history := (s.link l).history } ∧ u.objAt 0x0A 0x100 l.val = s.trainState l := by
  have hnak : ∃ d, s.toDev.linkNak l ack = d ∧ d.link l = (s.link l).acknowledged ack ∧ s.toDev.linksOnly (l.val / 8) d
      ∧ (∀ a b, b < 65536 → a ≠ 0x0A ∨ b ≠ 0x106 → ∀ c < 256, d.objAt a b c = s.objAt a b c) := by
    by_cases hn : ((s.link l).txNext - 1 - ack).toNat = 0 ∨ 4096 < ((s.link l).txNext - 1 - ack).toNat
    · refine ⟨_, (Dev.linkNak_eq hup ack).trans (if_pos hn), ?_, Dev.linksOnly_linkAck .., fun a b _ _ c _ => ?_⟩
      · rw [Dev.linkAck_eq hr, Dev.link_setLink, if_pos rfl]
      · rw [Dev.linkAck_eq hr]
        rfl
    · refine ⟨_, (Dev.linkNak_eq hup ack).trans (if_neg hn), ?_, (Dev.linksOnly_nakked ..).trans (Dev.linksOnly_bump ..), fun a b hb hab c hc => ?_⟩
      · refine (Dev.link_nakked hr ack).trans (if_pos ?_)
        rw [Bool.and_eq_true, decide_eq_true_eq]
        by_contra hc
        exact hagain ⟨by omega, by omega, hc⟩
      · rw [Dev.objAt_bump _ _ (by omega) hc (by decide) hb, if_neg (by omega), Dev.objAt, Dev.obj!, Dev.obj_nakked hr]
        rfl
  obtain ⟨d, hd, hlink, honly, hobj⟩ := hnak
  have hupd : d.linkUp l = true := by
    rw [Dev.linkUp, hobj _ _ (by decide) (.inr (by decide)) _ (by omega)]
    exact hup
  have hoffd : ∀ m, (d.mmu m).fqEn = false := fun m => by
    rw [honly.rest]
    exact hoff m
  have hb : (s.toDev.linkNak l ack).linkBound l = d.linkFails l 1 := by
    rw [hd]
    refine Dev.linkBound_of_past ?_
    rw [hlink, honly.rest]
    exact hpast
  obtain ⟨hl, -, hst⟩ := Dev.linkFails_of_idle hupd hoffd (by rw [hlink]; exact hsent) (by rw [hlink]; exact hq) 1
  refine ⟨_, exec_linkNak l ack s, ?_, ?_⟩
  · dsimp only
    rw [hb, hl, hlink]
    rfl
  · dsimp only
    rw [hb, hst]
    exact Dev.trainState_of_objAt (hobj _ _ (by decide) (.inr (by decide)) _ (by omega)) (hobj _ _ (by decide) (.inl (by decide)) _ (by omega))

end Naks
section LinkStates

variable {l : LinkId} {s : State}

/-- Whether a link that is told to has what it takes to come up (R558). -/
def Dev.canTrain (s : Dev) (l : LinkId) : Prop := s.objAt 0x0A 0x100 l.val ≤ 1 ∧ s.objAt 0x0A 0x101 l.val = 1 ∧ s.lit l = true

theorem canTrain_iff (s : Dev) (l : LinkId) :
    ((s.objAt 0x0A 0x100 l.val = 0 || s.objAt 0x0A 0x100 l.val = 1) && s.objAt 0x0A 0x101 l.val = 1 && s.lit l) = true ↔ s.canTrain l := by
  simp only [Bool.and_eq_true, Bool.or_eq_true, decide_eq_true_eq, Dev.canTrain, and_assoc]
  exact and_congr_left' (by omega)

theorem linkTrainingDone_ignored {n : U16} (h : ¬s.canTrain l) : exec (.linkTrainingDone l n) s = .next s :=
  exec_eq_next (c := .linkTrainingDone l n) rfl (if_neg (mt (canTrain_iff s.toDev l).mp h))

theorem Dev.link_setObjAt (s : Dev) (l : LinkId) (a b c v : Nat) : (s.setObjAt a b c v).link l = s.link l := rfl

theorem Dev.eventsOut_setObjAt (s : Dev) (a b c v : Nat) : (s.setObjAt a b c v).eventsOut = s.eventsOut := rfl

/-- What training leaves of a link and its neighbour's number, before the link is up (R558). -/
def Dev.met (s : Dev) (l : LinkId) (n : U16) : Dev :=
  (s.modLink l (fun x => { history := x.history, queue := x.queue })).setObjAt 0x0A 0x103 l.val n.toNat

theorem Dev.link_met (s : Dev) (l : LinkId) (n : U16) (hq : (s.link l).queue = []) : (s.met l n).link l = { history := (s.link l).history } := by
  rw [Dev.met, Dev.link_setObjAt, Dev.link_modLink_same, hq]

theorem Dev.eventsOut_met (s : Dev) (l : LinkId) (n : U16) : (s.met l n).eventsOut = s.eventsOut := rfl

theorem Dev.objAt_met (s : Dev) (l : LinkId) (n : U16) :
    (s.met l n).objAt 0x0A 0x103 l.val = n.toNat ∧ (s.met l n).objAt 0x0A 0x100 l.val = s.objAt 0x0A 0x100 l.val := by
  have hl : l.val < 256 := by omega
  exact ⟨Dev.objAt_setObjAt_same .., (Dev.objAt_setObjAt _ _ _ _ _ _ _ _ hl hl (by decide) (by decide)).trans (if_neg (by omega))⟩

/-- A told change of a link's state (R606, R677). -/
def linkTold (l : LinkId) (s u : State) (v : Nat) : Prop :=
  v ≠ s.objAt 0x0A 0x100 l.val → ∃ e, e.kind = 5 ∧ e.detail = l.val + v * 256 ∧ u.eventsOut = s.eventsOut ++ [e]

theorem linkTrainingDone_trains {n : U16} (h : s.canTrain l) (hq : (s.link l).queue = []) :
    ∃ u, exec (.linkTrainingDone l n) s = .next u ∧ linkOnly l s u ∧ u.objAt 0x0A 0x100 l.val = 2 ∧ linkTold l s u 2
      ∧ u.objAt 0x0A 0x103 l.val = n.toNat ∧ u.link l = { history := (s.link l).history } := by
  have hl : l.val < 256 := by omega
  have hexec : exec (.linkTrainingDone l n) s = .next { s with toDev := ((s.toDev.met l n).setLinkState l 2).pumpLink l } :=
    exec_eq_next rfl (if_pos ((canTrain_iff s.toDev l).mpr h))
  have hmet : s.toDev.linksOnly (l.val / 8) (s.toDev.met l n) := (Dev.linksOnly_modLink ..).trans (Dev.linksOnly_setObjAt ..)
  have hlink := s.toDev.link_met l n hq
  obtain ⟨hid, hst⟩ := s.toDev.objAt_met l n
  have hev := s.toDev.eventsOut_met l n
  generalize s.toDev.met l n = b at hexec hmet hlink hid hst hev
  have hpump := (b.setLinkState l 2).sends_pumpLink l
  obtain ⟨k, hk⟩ := (b.setLinkState l 2).link_pumpLink l (by rw [Dev.link_setLinkState, hlink])
  refine ⟨_, hexec, linkOnly_of ((hmet.trans (Dev.linksOnly_setLinkState ..)).trans hpump.linksOnly), ?_, fun hne => ?_, ?_, ?_⟩
  · refine (hpump.objAt _ _ _ (by decide) hl (by decide)).trans ?_
    rw [Dev.objAt_setLinkState _ _ _ (by decide) hl (by decide), if_pos ⟨rfl, rfl, rfl⟩]
  · obtain ⟨e, h1, h2, h3⟩ := b.eventsOut_setLinkState l (v := 2) (by rw [hst]; exact hne)
    refine ⟨e, h1, h2, ?_⟩
    dsimp only
    rw [hpump.rest]
    exact h3.trans (congrArg (· ++ [e]) hev)
  · refine (hpump.objAt _ _ _ (by decide) hl (by decide)).trans ?_
    rw [Dev.objAt_setLinkState _ _ _ (by decide) hl (by decide), if_neg (by omega), hid]
  · dsimp only
    rw [hk, Dev.link_setLinkState, hlink, Link.idle_of_nothingOwed]
    rfl

/-- A link that is taken down: its state, and, where it has nothing to lose, its entry and what is told (R558, R565). -/
theorem linkDown_falls {d : Dev} (cause v : Nat) (hst : d.objAt 0x0A 0x100 l.val = s.objAt 0x0A 0x100 l.val) (hlink : ∀ k, d.link k = s.link k)
    (hev : d.eventsOut = s.eventsOut) (hmmu : ∀ m, d.mmu m = s.mmu m)
    (hidle : s.linkUp l = true → (∀ m, (s.mmu m).fqEn = false) ∧ (s.link l).sent = [] ∧ (s.link l).queue = []) :
    (d.linkDown l cause v).objAt 0x0A 0x100 l.val = v
      ∧ (s.linkUp l = true → (∀ m, (s.mmu m).fqEn = false) → (s.link l).sent = [] → (s.link l).queue = [] →
          (d.linkDown l cause v).link l = { history := (s.link l).history } ∧ (∀ k, k ≠ l → (d.linkDown l cause v).link k = s.link k)
            ∧ linkTold l s { s with toDev := d.linkDown l cause v } v) := by
  have hl : l.val < 256 := by omega
  have hup : d.linkUp l = s.linkUp l := by rw [Dev.linkUp, hst]; rfl
  have hdown : s.linkUp l = true → ∃ m, d.linkDown l cause v = (d.linkLost l v).dropRecord m := fun h => by
    obtain ⟨h1, h2, h3⟩ := hidle h
    exact Dev.linkDown_of_idle (hup.trans h) (fun m => by rw [hmmu]; exact h1 m) (by rw [hlink]; exact h2) (by rw [hlink]; exact h3) cause v
  constructor
  · by_cases h : s.linkUp l = true
    · obtain ⟨m, hm⟩ := hdown h
      rw [hm]
      exact (Dev.objAt_linkLost d l v (by decide) hl (by decide)).trans (if_pos ⟨rfl, rfl, rfl⟩)
    · rw [Dev.linkDown_of_down (hup.trans (by simpa using h)), Dev.objAt_setLinkState _ _ _ (by decide) hl (by decide), if_pos ⟨rfl, rfl, rfl⟩]
  · intro h _ _ _
    obtain ⟨m, hm⟩ := hdown h
    rw [hm]
    refine ⟨?_, fun k hk => ?_, fun hne => ?_⟩
    · refine (Dev.link_linkLost d l l v).trans ((if_pos rfl).trans ?_)
      rw [hlink]
      rfl
    · exact (Dev.link_linkLost d l k v).trans ((if_neg hk).trans (hlink k))
    · obtain ⟨e, h1, h2, h3⟩ := (d.modLink l Link.fresh).eventsOut_setLinkState l (v := v) (by rw [← hst] at hne; exact hne)
      exact ⟨e, h1, h2, h3.trans (congrArg (· ++ [e]) hev)⟩

theorem linkFails_spec (h : s.linkUp l = true) (hoff : ∀ m, (s.mmu m).fqEn = false) (hs : (s.link l).sent = []) (hq : (s.link l).queue = [])
    {c : Instr} {n : Nat} (hc : exec c s = .next { s with toDev := s.toDev.linkFails l n }) :
    ∃ u, exec c s = .next u ∧ u.link l = { history := (s.link l).history } ∧ (∀ k, k ≠ l → u.link k = s.link k)
      ∧ u.objAt 0x0A 0x100 l.val = s.trainState l := by
  obtain ⟨h1, h2, h3⟩ := Dev.linkFails_of_idle h hoff hs hq n
  exact ⟨_, hc, h1, h2, h3⟩

end LinkStates

section LinkWrites

variable {l : LinkId} {s : State}

/-- A retraining that a write has asked for, once the write has left only what it sets and the link's mark of it (R558, R572). -/
theorem retrain_spec {d : Dev} (hd : s.toDev.linksOnly (l.val / 8) d) {r : Bool} (hlink : d.link l = { s.link l with retrain := r })
    (hst : d.objAt 0x0A 0x100 l.val = s.objAt 0x0A 0x100 l.val) (htrain : d.trainState l = s.trainState l) :
    linkOnly l s { s with toDev := d.retrainIdle l } ∧
    (r = true → (s.link l).sent = [] → (s.link l).queue = [] →
      (d.retrainIdle l).link l = { history := (s.link l).history, queue := (s.link l).queue } ∧ (d.retrainIdle l).objAt 0x0A 0x100 l.val = s.trainState l) ∧
    ((r = false ∨ ¬((s.link l).sent = [] ∧ (s.link l).queue = [])) →
      (d.retrainIdle l).link l = { s.link l with retrain := r } ∧ (d.retrainIdle l).objAt 0x0A 0x100 l.val = s.objAt 0x0A 0x100 l.val) := by
  refine ⟨linkOnly_of (hd.trans (Dev.linksOnly_retrainIdle ..)), fun hr hs hq => ?_, fun hno => ?_⟩
  · rw [Dev.retrainIdle_of_idle (by rw [hlink]; exact hr) (by rw [hlink]; exact hs) (by rw [hlink]; exact hq), Dev.objAt_trainLink, Dev.link_trainLink,
      if_pos rfl, hlink]
    exact ⟨rfl, htrain⟩
  · rw [Dev.retrainIdle_of_not (by rw [hlink]; exact hno)]
    exact ⟨hlink, hst⟩

theorem linkRoleWrite_bad {v : Byte} (h : 1 < v.toNat) : exec (.linkRoleWrite l v) s = .next s := by
  refine exec_eq_next rfl ?_
  dsimp only
  rw [Dev.writeRole, if_pos h]

/-- What a write of link_role leaves before a retraining (R572). -/
def Dev.roleWritten (s : Dev) (l : LinkId) (v : Nat) : Dev := (s.setObjAt 0x0A 0x102 l.val v).modLink l (fun x => { x with retrain := s.linkUp l })

theorem Dev.objAt_roleWritten (s : Dev) (l : LinkId) (v : Nat) {a b c : Nat} (hb : b < 65536) (hc : c < 256) (h : ¬(a = 0x0A ∧ b = 0x102 ∧ c = l.val)) :
    (s.roleWritten l v).objAt a b c = s.objAt a b c :=
  (Dev.objAt_setObjAt s 0x0A 0x102 l.val a b c v (by omega) hc (by decide) hb).trans (if_neg h)

theorem Dev.retrainIdle_objAt (s : Dev) (l : LinkId) {a b c : Nat} (hb : b < 65536) (hc : c < 256) (h : ¬(a = 0x0C ∧ b = 0x120))
    (h' : ¬(a = 0x0A ∧ b = 0x100 ∧ c = l.val)) : (s.retrainIdle l).objAt a b c = s.objAt a b c := by
  unfold Dev.retrainIdle
  refine iteInduction (motive := fun t => Dev.objAt t a b c = s.objAt a b c) (fun _ => ?_) fun _ => rfl
  rw [Dev.trainLink_eq, Dev.objAt_setLinkState _ _ _ hb hc h, if_neg h']
  rfl

theorem linkRoleWrite_spec {v : Byte} (h : v.toNat ≤ 1) :
    ∃ u, exec (.linkRoleWrite l v) s = .next u ∧ u.objAt 0x0A 0x102 l.val = v.toNat ∧ linkOnly l s u ∧
      (s.linkUp l = true → (s.link l).sent = [] → (s.link l).queue = [] →
        u.link l = { history := (s.link l).history, queue := (s.link l).queue } ∧ u.objAt 0x0A 0x100 l.val = s.trainState l) ∧
      (s.linkUp l = true → ¬((s.link l).sent = [] ∧ (s.link l).queue = []) →
        u.link l = { s.link l with retrain := true } ∧ u.objAt 0x0A 0x100 l.val = s.objAt 0x0A 0x100 l.val) ∧
      (s.linkUp l = false → u.link l = { s.link l with retrain := false } ∧ u.objAt 0x0A 0x100 l.val = s.objAt 0x0A 0x100 l.val) := by
  have hl : l.val < 256 := by omega
  have hexec : exec (.linkRoleWrite l v) s = .next { s with toDev := (s.toDev.roleWritten l v.toNat).retrainIdle l } := by
    refine exec_eq_next rfl ?_
    dsimp only
    rw [Dev.writeRole, if_neg (by omega)]
    rfl
  have honly : s.toDev.linksOnly (l.val / 8) (s.toDev.roleWritten l v.toNat) := (Dev.linksOnly_setObjAt ..).trans (Dev.linksOnly_modLink ..)
  have hlink : (s.toDev.roleWritten l v.toNat).link l = { s.link l with retrain := s.linkUp l } := by
    rw [Dev.roleWritten, Dev.link_modLink_same, Dev.link_setObjAt]
  have htrain : (s.toDev.roleWritten l v.toNat).trainState l = s.trainState l := Dev.trainState_of_objAt
    (Dev.objAt_roleWritten _ _ _ (by decide) hl (by omega)) (Dev.objAt_roleWritten _ _ _ (by decide) (by omega) (by omega))
  obtain ⟨h1, h2, h3⟩ := retrain_spec honly hlink (Dev.objAt_roleWritten _ _ _ (by decide) hl (by omega)) htrain
  refine ⟨_, hexec, ?_, h1, h2, fun hup hno => ?_, fun hup => ?_⟩
  · exact (Dev.retrainIdle_objAt _ l (by decide) hl (by omega) (by omega)).trans (Dev.objAt_setObjAt_same ..)
  · have := h3 (.inr hno)
    rwa [hup] at this
  · have := h3 (.inl hup)
    rwa [hup] at this

/-- What a write of link_enable leaves before the link is taken down or trained (R558, R565). -/
theorem Dev.objAt_enabled (s : Dev) (l : LinkId) (v : Nat) {a b c : Nat} (hb : b < 65536) (hc : c < 256) (h : ¬(a = 0x0A ∧ b = 0x101 ∧ c = l.val)) :
    (s.setObjAt 0x0A 0x101 l.val v).objAt a b c = s.objAt a b c :=
  (Dev.objAt_setObjAt s 0x0A 0x101 l.val a b c v (by omega) hc (by decide) hb).trans (if_neg h)

theorem exec_linkEnableWrite_off (l : LinkId) (s : State) :
    exec (.linkEnableWrite l false) s = .next { s with toDev := (s.toDev.setObjAt 0x0A 0x101 l.val 0).linkDown l 4 3 } := rfl

theorem linkEnableWrite_on : ∃ u, exec (.linkEnableWrite l true) s = .next u ∧ u.objAt 0x0A 0x101 l.val = 1 ∧ linkOnly l s u ∧
    let was : Prop := s.objAt 0x0A 0x101 l.val = 1 ∧ s.linkUp l = true
    (was → (s.link l).sent = [] → (s.link l).queue = [] →
      u.link l = { history := (s.link l).history, queue := (s.link l).queue } ∧ u.objAt 0x0A 0x100 l.val = s.trainState l) ∧
    (was → ¬((s.link l).sent = [] ∧ (s.link l).queue = []) →
      u.link l = { s.link l with retrain := true } ∧ u.objAt 0x0A 0x100 l.val = s.objAt 0x0A 0x100 l.val) ∧
    (¬was → u.link l = { history := (s.link l).history, queue := (s.link l).queue } ∧ u.objAt 0x0A 0x100 l.val = (if s.lit l then 1 else 4)) := by
  have hl : l.val < 256 := by omega
  have hexec : exec (.linkEnableWrite l true) s = .next { s with toDev :=
      (if (s.objAt 0x0A 0x101 l.val = 1 && (s.toDev.setObjAt 0x0A 0x101 l.val 1).linkUp l) = true
        then ((s.toDev.setObjAt 0x0A 0x101 l.val 1).modLink l (fun x => { x with retrain := true })).retrainIdle l
        else (s.toDev.setObjAt 0x0A 0x101 l.val 1).trainLink l) } := rfl
  have hone : (s.toDev.setObjAt 0x0A 0x101 l.val 1).objAt 0x0A 0x101 l.val = 1 := Dev.objAt_setObjAt_same ..
  have hst := s.toDev.objAt_enabled l 1 (a := 0x0A) (b := 0x100) (c := l.val) (by decide) hl (by omega)
  have hlit : (s.toDev.setObjAt 0x0A 0x101 l.val 1).lit l = s.lit l := by
    rw [Dev.lit, s.toDev.objAt_enabled l 1 (by decide) (by omega) (by omega)]
    rfl
  have hlink : ∀ k, (s.toDev.setObjAt 0x0A 0x101 l.val 1).link k = s.link k := fun _ => rfl
  have honly : s.toDev.linksOnly (l.val / 8) (s.toDev.setObjAt 0x0A 0x101 l.val 1) := Dev.linksOnly_setObjAt ..
  generalize s.toDev.setObjAt 0x0A 0x101 l.val 1 = b at *
  have hup : b.linkUp l = s.linkUp l := by rw [Dev.linkUp, hst]; rfl
  have htrain : b.trainState l = if s.lit l then 1 else 4 := by
    rw [Dev.trainState, hone, if_neg (by decide), hlit]
  rw [hup] at hexec
  refine ⟨_, hexec, ?_⟩
  by_cases hwas : s.objAt 0x0A 0x101 l.val = 1 ∧ s.linkUp l = true
  · dsimp only
    rw [if_pos (by simpa using hwas)]
    have hs : s.trainState l = if s.lit l then 1 else 4 := by
      rw [Dev.trainState, hwas.1, if_neg (by decide)]
    obtain ⟨h1, h2, h3⟩ := retrain_spec (d := b.modLink l (fun x => { x with retrain := true })) (r := true) (honly.trans (Dev.linksOnly_modLink ..))
      (by rw [Dev.link_modLink_same, hlink]) hst (htrain.trans hs.symm)
    refine ⟨?_, h1, fun _ => h2 rfl, fun _ hno => h3 (.inr hno), fun hno => absurd hwas hno⟩
    exact (Dev.retrainIdle_objAt _ l (by decide) hl (by omega) (by omega)).trans hone
  · dsimp only
    rw [if_neg (by simpa using hwas)]
    refine ⟨?_, linkOnly_of (honly.trans (Dev.linksOnly_trainLink ..)), fun h => absurd h hwas, fun h => absurd h hwas, fun _ => ⟨?_, ?_⟩⟩
    · rw [Dev.trainLink_eq, Dev.objAt_setLinkState _ _ _ (by decide) hl (by omega), if_neg (by omega)]
      exact hone
    · rw [Dev.link_trainLink, if_pos rfl, hlink]
    · rw [Dev.objAt_trainLink, htrain]

end LinkWrites

/-- Settles O45: each event of a link is followed through what it counts, what it changes of the link, and the state it leaves. That the time bound is
looked at where a NAK comes is log entry 46, and that replays are counted with the NAK log entry 48. -/
theorem linkControl : Obligations.LinkControl := by
  intro l s x st only counted past told
  refine ⟨linkEvents_down, fun hup => ⟨timeExchange_up hup, timeFrame_up hup, fun f hf => flit_unknown hf, fun f hk hbad hp => flit_bad hup hk hbad hp,
    fun f hk h1 h2 hseq => flit_out hup hk (flitOk_of h1 h2) hseq, fun f hk h1 h2 hseq hr hq => flit_next hup hk (flitOk_of h1 h2) hseq hr hq,
    fun ack hr => ⟨linkNak_within hup hr, fun hp ha hoff hs hq => linkNak_past hup hr hp ha hoff hs hq⟩⟩,
    fun n => ⟨linkTrainingDone_ignored, linkTrainingDone_trains⟩, rfl, ⟨fun hdown => ?_, fun hidle => ⟨fun hup => ?_, ?_, ?_, ?_⟩⟩, ?_,
    ⟨fun v hv => linkRoleWrite_bad hv, fun v hv => linkRoleWrite_spec hv, linkEnableWrite_on⟩⟩
  · have hfails : ∀ n, s.toDev.linkFails l n = s.toDev := fun n => if_neg (by rw [hdown]; exact Bool.false_ne_true)
    exact ⟨exec_eq_next (c := .linkDown l 1) rfl (hfails 1), exec_eq_next (c := .linkDown l 2) rfl (hfails 2)⟩
  · obtain ⟨h1, h2, h3⟩ := hidle hup
    exact ⟨linkFails_spec hup h1 h2 h3 (n := 1) rfl, linkFails_spec hup h1 h2 h3 (n := 2) rfl⟩
  · obtain ⟨h1, h2⟩ := linkDown_falls (s := s) (d := s.toDev) 3 4 rfl (fun _ => rfl) rfl (fun _ => rfl) hidle
    exact ⟨_, rfl, h1, h2⟩
  · obtain ⟨h1, h2⟩ := linkDown_falls (s := s) (d := s.toDev) 4 3 rfl (fun _ => rfl) rfl (fun _ => rfl) hidle
    exact ⟨_, rfl, h1, h2⟩
  · obtain ⟨h1, h2⟩ := linkDown_falls (s := s) (d := s.toDev.setObjAt 0x0A 0x101 l.val 0) 4 3
      (s.toDev.objAt_enabled l 0 (by decide) (by omega) (by omega)) (fun _ => rfl) rfl (fun _ => rfl) hidle
    exact ⟨_, exec_linkEnableWrite_off l s, h1, h2⟩
  · intro p f hup hoff hs hq hsrc hn hf he _
    obtain ⟨h1, h2⟩ := Dev.linkFails_of_one hup hoff hs hq hsrc hn hf he 2
    exact ⟨_, rfl, h1, h2⟩

end Sys2Proof.Machine
end

section
/-! PROOFS. Proofs/Supply.lean: the input's falls, over-voltage, thermal trips and the return from them (O50). -/

namespace Sys2Proof.Machine

namespace Dev

theorem reportStep.report (s : Dev) (d : Die) (f : RecFields) : s.reportStep (s.report d f) := reportStep.reportTo ..

theorem obj!_countStalls (s : Dev) (n a : Nat) (h : ∀ l : LinkId, a ≠ objAddr 0x0A 0x300 l.val) : (s.countStalls n).obj! a = s.obj! a := by
  unfold countStalls
  have hlt : ∀ e ∈ s.fab.links.toList.zipIdx, e.2 < 32 := fun e he => by
    have := List.snd_lt_of_mem_zipIdx he
    simpa using this
  generalize s.fab.links.toList.zipIdx = es at hlt
  induction es generalizing s with
  | nil => rfl
  | cons e es ih =>
    rw [List.foldl_cons, ih _ fun x hx => hlt x (List.mem_cons_of_mem _ hx)]
    split
    · rfl
    · exact (obj!_setObj ..).trans (if_neg (h ⟨e.2, hlt e (List.mem_cons_self ..)⟩))

end Dev

namespace State

/-- The passing of time changes no more than State.passing says (R125, R427). -/
theorem passing_advance (s : State) (t : U64) : s.passing (s.advance t) := by
  refine ⟨fun a h => ?_, fun q => ?_⟩
  · change (s.toDev.advance t).obj! a = s.toDev.obj! a
    rw [Dev.advance, Dev.latchAll_rest]
    exact (s.toDev.setNow t).obj!_countStalls _ a h
  · obtain ⟨a, b, c, h⟩ := s.toDev.queue_advance q t
    change (s.toDev.advance t).queue q = _
    rw [show (s.advance t).queue q = _ from h, h]

theorem advance_now_toNat (s : State) (t : U64) : (s.advance t).now.toNat = max s.now.toNat t.toNat := s.toDev.now_advance t

theorem advance_eq (s : State) (t : U64) : s.advance t = { s with
    now := (s.advance t).now, obj := (s.advance t).obj, cmd := { s.cmd with queues := (s.advance t).cmd.queues } } := by
  have h := s.toDev.advance_rest t
  have hnow : (s.toDev.setNow t).now = (s.toDev.advance t).now := by rw [h]
  rw [hnow] at h
  exact congrArg (fun d : Dev => { s with toDev := d }) h

end State

/-! Supply events (R610 to R617, R631). -/

/-- A command, by the state it makes. -/
theorem exec_next {c : Instr} {s a b : State} (hc : exec c s = .next a) (hd : a = b) : exec c s = .next b := hd ▸ hc

/-- The supply warning is raised (R612). -/
def State.warned (s : State) (mv : Nat) (watts : U16) : State :=
  (((s.modPow fun p => { p with warning := true, supplyIrq := true, attention := true }).powerRecord 0x30 0
    (mv / 10 % 2 ^ 16 + watts.toNat * 2 ^ 16)).bump 0x0B 0x604 0 1).event 4 (mv / 10 % 2 ^ 16)

/-- The supply warning is over, its check of the dies not yet made (R614). -/
def State.unwarned (s : State) (mv : Nat) : State :=
  (s.modPow fun p => { p with warning := false, supplyIrq := false, attention := false, ripenWaits := none }).setObjAt 0x0B 0x600 0 mv

theorem exec_sagWarn {mv : Nat} {watts : U16} {s : State} (hw : s.pow.warning = false) (hr : s.pow.rails = true)
    (hmv : mv < s.objAt 0x0B 0x601 0) : exec (.sagWarn mv watts) s = .next (s.warned mv watts) :=
  exec_next rfl ((if_neg (by simp [hw, hr, hmv])).trans rfl)

theorem exec_sagWarnEnd {mv : Nat} {s : State} (hw : s.pow.warning = true) (hmv : s.objAt 0x0B 0x601 0 + 1000 ≤ mv) :
    exec (.sagWarnEnd mv) s = .next (match s.pow.ripenWaits with | some l => (s.unwarned mv).ripen l | none => s.unwarned mv) :=
  exec_next rfl ((if_neg (by simp [hw, hmv])).trans rfl)

theorem warned_quiet {s : State} {mv : Nat} {watts : U16} (hoff : (s.mmu 1).fqEn = false) :
    (s.warned mv watts).objAt 0x0B 0x604 0 = (s.objAt 0x0B 0x604 0 + 1) % 2 ^ 64 ∧ (s.warned mv watts).mem = s.mem
      ∧ ∃ e, e.kind = 4 ∧ (s.warned mv watts).eventsOut = s.eventsOut ++ [e] := by
  have hrep (f : RecFields) (hf : f.cls ≠ .fatal) : s.toDev.report 19 f = s.toDev.dropRecord 1 := Dev.report_of_off hf hoff
  unfold State.warned State.event State.bump State.lift State.powerRecord State.report State.lift State.modPow
  dsimp only
  rw [hrep _ RecClass.noConfusion]
  refine ⟨?_, rfl, _, rfl, rfl⟩
  exact (Dev.objAt_setObjAt _ _ _ _ _ _ _ _ (by decide) (by decide) (by decide) (by decide)).trans (Dev.objAt_bump_self _ 1 (by decide) (by decide))

theorem warned_keeps (s : State) (mv : Nat) (watts : U16) :
    (s.warned mv watts).pow = { s.pow with warning := true, supplyIrq := true, attention := true } ∧ (s.warned mv watts).cmd = s.cmd
      ∧ (s.warned mv watts).boot = s.boot ∧ (s.warned mv watts).mgmt = s.mgmt ∧ (s.warned mv watts).pending = s.pending := by
  unfold State.warned State.event State.bump State.lift State.powerRecord State.report State.lift State.modPow
  dsimp only
  have hcmd := (Dev.reportStep.report s.toDev 19
    { kind := 0x30, cls := .corrected, addr := 0, count := 0, detail := mv / 10 % 2 ^ 16 + watts.toNat * 2 ^ 16 }).rest
  generalize s.toDev.report 19 _ = d at hcmd
  exact ⟨rfl, by rw [hcmd]; rfl, rfl, rfl, rfl⟩

/-- What the end of a supply warning leaves before a check that has waited is made (R614). -/
theorem unwarned_eq (s : State) (mv : Nat) :
    (s.unwarned mv).pow = { s.pow with warning := false, supplyIrq := false, attention := false, ripenWaits := none }
      ∧ (s.unwarned mv).objAt 0x0B 0x600 0 = mv ∧ s.unwarned mv = { s with pow := (s.unwarned mv).pow, obj := (s.unwarned mv).obj } :=
  ⟨rfl, Dev.objAt_setObjAt_same .., rfl⟩

theorem exec_ripenCheck {l : List RipenReading} {s : State} (hr : s.pow.rails = true) (ha : s.pow.ripenAsked = false) :
    exec (.ripenCheck l) s = .next (s.ripen (everyDie l)) :=
  exec_next rfl ((if_pos hr).trans (congrArg (State.ripen · (everyDie l)) (by unfold State.modPow; rw [← ha])))

theorem exec_sagReset_shuts {mv : Nat} {s : State} (hr : s.pow.rails = true) (hmv : mv < s.objAt 0x0B 0x602 0) :
    exec (.sagReset mv) s = .next (s.shutDown .sagReset) :=
  exec_next rfl ((if_neg (by simp [hr, hmv])).trans rfl)

theorem exec_overVoltage_shuts {mv : Nat} {s : State} (hh : s.pow.hotSwap = true) (hmv : 69000 ≤ mv) :
    exec (.overVoltage mv) s = .next ((s.shutDown .overVoltage).modPow fun p => { p with hotSwap := false }) :=
  exec_next rfl ((if_pos (by simp [hh, hmv])).trans rfl)

/-- A command that waits for nothing else: the inlet has cooled, and time moves on (R631). -/
theorem exec_thermalTripRestart_cooled {inlet : Int} {cool : Nat} {t : Instant} {s : State} (hw : s.pow.tripWait = true) (hi : inlet ≤ 400)
    (hc : 10000000000 ≤ cool) :
    exec (.thermalTripRestart inlet cool t) s = .next ((s.advance t).modPow fun p => { p with tripWait := false }) :=
  exec_next rfl ((if_pos (by simp [hw, hi, hc])).trans rfl)

theorem holdGood_iff (s : State) (h : SupplyHold) : s.holdGood h = true ↔
    s.pow.rails = false ∧ s.pow.tripWait = false ∧ s.boot.prepared = false ∧ s.boot.pinClosed = true ∧ 54000 ≤ h.low
      ∧ (s.pow.hotSwap = false → h.high ≤ 66000) := by
  unfold State.holdGood
  cases s.pow.hotSwap <;> simp [and_assoc]

/-- Settles O50: each event is one test of the state, past which it does nothing; a shutdown rebuilds the state from what needs no power
(log entries 57 and 58), and the end of a warning makes the check that has waited (log entries 55 and 56). -/
theorem supplyEvents : Obligations.SupplyEvents := by
  unfold Obligations.SupplyEvents
  intro s
  dsimp only
  refine ⟨fun mv watts => ⟨fun h => ?_, fun hw hr hmv => ?_⟩, fun mv => ⟨fun h => ?_, fun hw hmv => ?_⟩,
    fun mv => ⟨fun h => ?_, fun hr hmv => ?_, fun h => ?_, fun hh hmv => ?_⟩, fun d => ⟨fun h => ?_, fun h => ?_⟩,
    fun inlet cool t => ⟨fun h => ?_, fun hw hi hc => ?_⟩, fun h => ⟨fun hf => ?_, fun hf => ?_⟩⟩
  · exact exec_next rfl ((if_pos (by simpa [or_assoc] using h)).trans rfl)
  · obtain ⟨hpow, hcmd, hboot, hmgmt, hpending⟩ := warned_keeps s mv watts
    exact ⟨_, exec_sagWarn hw hr hmv, hpow, hcmd, hboot, hmgmt, hpending, warned_quiet⟩
  · exact exec_next rfl ((if_pos (by simpa using h)).trans rfl)
  · obtain ⟨hpow, hmean, hrest⟩ := unwarned_eq s mv
    refine ⟨s.unwarned mv, hpow, hmean, hrest, fun hno => ?_, fun l hl => ⟨?_, fun r hlr hr ha => ?_⟩⟩
    · rw [exec_sagWarnEnd hw hmv, hno]
    · rw [exec_sagWarnEnd hw hmv, hl]
    · rw [exec_sagWarnEnd hw hmv, hl, hlr, exec_ripenCheck (s := s.unwarned mv) hr ha]
  · exact exec_next rfl ((if_pos (by simpa using h)).trans rfl)
  · exact ⟨_, exec_sagReset_shuts hr hmv, ⟨rfl, rfl, rfl, rfl, rfl, rfl, rfl, rfl, rfl, rfl, rfl, rfl, rfl⟩, rfl, rfl⟩
  · refine exec_next rfl ((if_neg ?_).trans rfl)
    rcases h with h | h <;> simp [h]
  · exact ⟨_, exec_overVoltage_shuts hh hmv, ⟨rfl, rfl, rfl, rfl, rfl, rfl, rfl, rfl, rfl, rfl, rfl, rfl, rfl⟩, rfl⟩
  · exact exec_next rfl ((if_neg (by simp [h])).trans rfl)
  · exact ⟨_, exec_next rfl (if_pos h), ⟨rfl, rfl, rfl, rfl, rfl, rfl, rfl, rfl, rfl, rfl, rfl, rfl, rfl⟩, rfl⟩
  · exact exec_next rfl ((if_neg (by simpa [and_assoc] using h)).trans rfl)
  · refine ⟨_, exec_thermalTripRestart_cooled hw hi hc, rfl, s.advance_now_toNat t, s.passing_advance t, ?_⟩
    exact congrArg (State.modPow · _) (s.advance_eq t)
  · exact exec_next rfl ((if_neg fun hg => hf ((holdGood_iff s h).mp hg)).trans rfl)
  · refine ⟨_, exec_next rfl (if_pos ((holdGood_iff s h).mpr hf)), rfl, rfl, s.advance_now_toNat h.t, s.passing_advance h.t, ?_⟩
    exact congrArg (fun u : State => { u.modPow (fun p => { p with hotSwap := true }) with resetDue := some .cold }) (s.advance_eq h.t)

end Sys2Proof.Machine
end

section
/-! PROOFS. Proofs/OperatingPoints.lean: the operating point that each die takes (O51). -/

namespace Sys2Proof.Machine

namespace State

/-- The greatest of a bound and of what a list gives (R618). -/
theorem le_foldl_max {α : Type} (f : α → Nat) (l : List α) (m : Nat) :
    m ≤ l.foldl (fun m p => max m (f p)) m ∧ ∀ p ∈ l, f p ≤ l.foldl (fun m p => max m (f p)) m := by
  induction l generalizing m with
  | nil => simp
  | cons p l ih =>
    obtain ⟨h1, h2⟩ := ih (max m (f p))
    refine ⟨(Nat.le_max_left ..).trans h1, fun q hq => ?_⟩
    rcases List.mem_cons.mp hq with rfl | hq
    · exact (Nat.le_max_right ..).trans h1
    · exact h2 q hq

theorem foldl_max_mem {α : Type} (f : α → Nat) (l : List α) (m : Nat) :
    l.foldl (fun m p => max m (f p)) m = m ∨ ∃ p ∈ l, l.foldl (fun m p => max m (f p)) m = f p := by
  induction l generalizing m with
  | nil => exact .inl rfl
  | cons p l ih =>
    rcases ih (max m (f p)) with h | ⟨q, hq, h⟩
    · rcases Nat.le_total m (f p) with hle | hle
      · exact .inr ⟨p, List.mem_cons_self .., h.trans (Nat.max_eq_right hle)⟩
      · exact .inl (h.trans (Nat.max_eq_left hle))
    · exact .inr ⟨q, List.mem_cons_of_mem _ hq, h⟩

theorem candidate_spec (s : State) (d : Nat) : (s.phasesOn d = [] → s.candidate d = s.objAt 0x0B 0x201 0)
    ∧ (∀ p ∈ s.phasesOn d, s.objAt 0x0B 0x200 p ≤ s.candidate d)
    ∧ (s.phasesOn d ≠ [] → ∃ p ∈ s.phasesOn d, s.candidate d = s.objAt 0x0B 0x200 p) := by
  unfold candidate
  match s.phasesOn d with
  | [] => simp
  | p :: ps =>
    have hle := (le_foldl_max (fun p => s.objAt 0x0B 0x200 p) (p :: ps) 0).2
    refine ⟨nofun, hle, fun _ => ?_⟩
    rcases foldl_max_mem (fun p => s.objAt 0x0B 0x200 p) (p :: ps) 0 with h | h
    · refine ⟨p, List.mem_cons_self .., h.trans ?_⟩
      have := hle p (List.mem_cons_self ..)
      omega
    · exact h

/-- From s to u only operating points and rail voltages have changed. -/
structure sameButOps (s u : State) : Prop where
  rest : u = { s with obj := u.obj }
  others : ∀ a b c, b < 65536 → c < 256 → ¬(a = 0x0B ∧ (b = 0x202 ∨ b = 0x204)) → u.objAt a b c = s.objAt a b c

theorem sameButOps.refl (s : State) : s.sameButOps s := ⟨rfl, fun _ _ _ _ _ _ => rfl⟩

theorem sameButOps.trans {s t u : State} (h1 : s.sameButOps t) (h2 : t.sameButOps u) : s.sameButOps u where
  rest := by rw [h2.rest, h1.rest]
  others a b c hb hc h := (h2.others a b c hb hc h).trans (h1.others a b c hb hc h)

theorem sameButOps_setOp (s : State) {d : Nat} (v : Nat) (hd : d < 256) : s.sameButOps (s.setOp d v) where
  rest := rfl
  others a b c hb hc h := by
    refine (Dev.objAt_setObjAt _ _ _ _ _ _ _ _ hd hc (by decide) hb).trans ?_
    rw [if_neg (fun e => h ⟨e.1, .inr e.2.1⟩)]
    refine (Dev.objAt_setObjAt _ _ _ _ _ _ _ _ hd hc (by decide) hb).trans ?_
    rw [if_neg (fun e => h ⟨e.1, .inl e.2.1⟩)]

/-- The voltage of a die at an operating point: that point's and the die's trim (R620). -/
def voltsAt (s : State) (d v : Nat) : Nat := opVoltage v + Table.get 0 s.pow.trims d

theorem op_setOp (s : State) {d e : Nat} (v : Nat) (hd : d < 256) (he : e < 256) :
    (s.setOp d v).objAt 0x0B 0x202 e = (if e = d then v else s.objAt 0x0B 0x202 e)
      ∧ (s.setOp d v).objAt 0x0B 0x204 e = if e = d then s.voltsAt d v else s.objAt 0x0B 0x204 e := by
  have hset (s : Dev) (i j v : Nat) (hi : i < 65536) (hj : j < 65536) :
      (s.setObjAt 0x0B i d v).objAt 0x0B j e = if j = i ∧ e = d then v else s.objAt 0x0B j e := by
    rw [Dev.objAt_setObjAt _ _ _ _ _ _ _ _ hd he hi hj]
    simp
  constructor
  · refine (hset _ _ _ _ (by decide) (by decide)).trans ?_
    rw [if_neg fun x => absurd x.1 (by decide)]
    refine (hset _ _ _ _ (by decide) (by decide)).trans ?_
    simp
  · refine (hset _ _ _ _ (by decide) (by decide)).trans ?_
    by_cases h : e = d
    · rw [if_pos ⟨rfl, h⟩, if_pos h]; rfl
    · rw [if_neg (fun x => h x.2), if_neg h]
      refine (hset _ _ _ _ (by decide) (by decide)).trans ?_
      simp

/-- Each die of a list takes the operating point that a rule gives it, which reads no other die's. -/
theorem foldl_setOp {v : State → Nat → Nat}
    (hv : ∀ s u d, s.sameButOps u → u.objAt 0x0B 0x202 d = s.objAt 0x0B 0x202 d → v u d = v s d) (l : List Nat) (hl : l.Nodup) (s : State)
    (hlt : ∀ d ∈ l, d < 256) :
    let u := l.foldl (fun s d => s.setOp d (v s d)) s
    s.sameButOps u
      ∧ (∀ d, d < 256 → d ∉ l → u.objAt 0x0B 0x202 d = s.objAt 0x0B 0x202 d ∧ u.objAt 0x0B 0x204 d = s.objAt 0x0B 0x204 d)
      ∧ ∀ d ∈ l, u.objAt 0x0B 0x202 d = v s d ∧ u.objAt 0x0B 0x204 d = s.voltsAt d (v s d) := by
  induction l generalizing s with
  | nil => exact ⟨.refl s, fun _ _ _ => ⟨rfl, rfl⟩, nofun⟩
  | cons e l ih =>
    obtain ⟨hne, hl⟩ := List.nodup_cons.mp hl
    have he := hlt e (List.mem_cons_self ..)
    have hstep := s.sameButOps_setOp (v s e) he
    obtain ⟨hsame, hout, hin⟩ := ih hl (s.setOp e (v s e)) fun d hd => hlt d (List.mem_cons_of_mem _ hd)
    refine ⟨hstep.trans hsame, fun d hd hdl => ?_, fun d hd => ?_⟩
    · rw [List.mem_cons, not_or] at hdl
      obtain ⟨hop, hvolt⟩ := op_setOp s (v s e) he hd
      rw [if_neg hdl.1] at hop hvolt
      exact ⟨(hout d hd hdl.2).1.trans hop, (hout d hd hdl.2).2.trans hvolt⟩
    · obtain ⟨hop, hvolt⟩ := op_setOp s (v s e) he (hlt d hd)
      rcases List.mem_cons.mp hd with rfl | hd'
      · rw [if_pos rfl] at hop hvolt
        exact ⟨(hout d he hne).1.trans hop, (hout d he hne).2.trans hvolt⟩
      · have hde : d ≠ e := fun h => hne (h ▸ hd')
        rw [if_neg hde] at hop
        have hsame := hv s (s.setOp e (v s e)) d hstep hop
        exact ⟨(hin d hd').1.trans hsame, (hin d hd').2.trans (by rw [hsame]; rfl)⟩

/-- The dies that take their own candidate, and those that follow the compute dies (R618 to R620). -/
def ownDies : List Nat := [0, 1, 2, 3, 4, 5, 6, 7, 14, 15, 16, 17, 18, 19]
def followers : List Nat := [8, 9, 10, 11, 12, 13]

/-- The greatest operating point of the compute dies in service (R619). -/
def highest (s : State) : Nat := ((List.range 8).filter s.inService).foldl (fun m d => max m (s.objAt 0x0B 0x202 d)) (s.objAt 0x0B 0x201 0)

/-- The operating points that the dies of their own candidates take, and the others keep. -/
def ownSet (s : State) : State := (ownDies.filter s.inService).foldl (fun s d => s.setOp d (s.opFor d (s.candidate d))) s

theorem evaluate_eq (s : State) : s.evaluate =
    (followers.filter s.ownSet.inService).foldl (fun u d => u.setOp d (u.opFor d s.ownSet.highest)) s.ownSet := rfl

theorem opFor_same {s u : State} {d : Nat} (hpow : u.pow = s.pow) (h : u.objAt 0x0B 0x202 d = s.objAt 0x0B 0x202 d) (cand : Nat) :
    u.opFor d cand = s.opFor d cand := by
  unfold opFor
  rw [hpow, h]

theorem phasesOn_lt (s : State) (d : Nat) : ∀ p ∈ s.phasesOn d, p < 256 := by
  intro p hp
  obtain ⟨e, -, he⟩ := List.mem_filterMap.mp hp
  split at he
  · split at he
    · cases he
      exact e.2.phase.isLt.trans (by decide)
    · cases he
  · cases he

theorem foldl_max_congr {α : Type} {f g : α → Nat} {l : List α} (h : ∀ p ∈ l, f p = g p) (m : Nat) :
    l.foldl (fun m p => max m (f p)) m = l.foldl (fun m p => max m (g p)) m :=
  List.foldl_ext _ _ _ fun _ p hp => by rw [h p hp]

theorem candidate_same {s u : State} (h : s.sameButOps u) (d : Nat) : u.candidate d = s.candidate d := by
  have hph : u.phasesOn d = s.phasesOn d := by rw [h.rest]; rfl
  have hpt : ∀ p ∈ s.phasesOn d, u.objAt 0x0B 0x200 p = s.objAt 0x0B 0x200 p := fun p hp =>
    h.others _ _ _ (by decide) (s.phasesOn_lt d p hp) (by decide)
  have hidle : u.objAt 0x0B 0x201 0 = s.objAt 0x0B 0x201 0 := h.others _ _ _ (by decide) (by decide) (by decide)
  unfold candidate
  rw [hph, hidle]
  match s.phasesOn d, hpt with
  | [], _ => rfl
  | p :: ps, hpt => exact foldl_max_congr hpt 0

theorem opFor_le (s : State) (d cand : Nat) : s.opFor d cand ≤ s.pow.opLimit d ∧ (s.pow.warning = true → s.opFor d cand ≤ s.objAt 0x0B 0x202 d)
    ∧ (s.pow.warning = false → s.opFor d cand = min cand (s.pow.opLimit d)) := by
  unfold opFor
  cases s.pow.warning <;> simp

theorem inService_same {s u : State} (h : s.sameButOps u) : u.inService = s.inService := by
  funext d
  exact congrArg (bit · d) (h.others _ _ _ (by decide) (by decide) (by decide))

theorem ownSet_spec (s : State) : s.sameButOps s.ownSet
    ∧ (∀ d, d < 256 → d ∉ ownDies.filter s.inService →
      s.ownSet.objAt 0x0B 0x202 d = s.objAt 0x0B 0x202 d ∧ s.ownSet.objAt 0x0B 0x204 d = s.objAt 0x0B 0x204 d)
    ∧ ∀ d ∈ ownDies.filter s.inService,
      s.ownSet.objAt 0x0B 0x202 d = s.opFor d (s.candidate d) ∧ s.ownSet.objAt 0x0B 0x204 d = s.voltsAt d (s.opFor d (s.candidate d)) := by
  refine foldl_setOp (v := fun s d => s.opFor d (s.candidate d)) (fun s u d h hop => ?_) _ (List.Nodup.filter _ (by decide)) s fun d hd => ?_
  · rw [candidate_same h, opFor_same (by rw [h.rest]) hop]
  · exact (show ∀ d ∈ ownDies, d < 256 by decide) d (List.mem_filter.mp hd).1

theorem evaluate_follow (s : State) : s.ownSet.sameButOps s.evaluate
    ∧ (∀ d, d < 256 → d ∉ followers.filter s.ownSet.inService →
      s.evaluate.objAt 0x0B 0x202 d = s.ownSet.objAt 0x0B 0x202 d ∧ s.evaluate.objAt 0x0B 0x204 d = s.ownSet.objAt 0x0B 0x204 d)
    ∧ ∀ d ∈ followers.filter s.ownSet.inService, s.evaluate.objAt 0x0B 0x202 d = s.ownSet.opFor d s.ownSet.highest
      ∧ s.evaluate.objAt 0x0B 0x204 d = s.ownSet.voltsAt d (s.ownSet.opFor d s.ownSet.highest) := by
  rw [evaluate_eq]
  refine foldl_setOp (v := fun u d => u.opFor d s.ownSet.highest) (fun s u d h hop => opFor_same (by rw [h.rest]) hop _) _
    (List.Nodup.filter _ (by decide)) _ fun d hd => ?_
  exact (show ∀ d ∈ followers, d < 256 by decide) d (List.mem_filter.mp hd).1

theorem evaluate_same (s : State) : s.sameButOps s.evaluate := s.ownSet_spec.1.trans s.evaluate_follow.1

/-- A die that is not in service keeps its operating point (R618). -/
theorem evaluate_out (s : State) {d : Nat} (hd : d < 256) (h : s.inService d = false) :
    s.evaluate.objAt 0x0B 0x202 d = s.objAt 0x0B 0x202 d := by
  obtain ⟨hsame, hout, -⟩ := s.ownSet_spec
  obtain ⟨-, hout2, -⟩ := s.evaluate_follow
  have hno (l : List Nat) : d ∉ l.filter s.inService := fun hm => by simp [h] at hm
  rw [(hout2 d hd (by rw [inService_same hsame]; exact hno _)).1, (hout d hd (hno _)).1]

theorem evaluate_own (s : State) {d : Nat} (hd : d ∈ ownDies) (h : s.inService d = true) :
    s.evaluate.objAt 0x0B 0x202 d = s.opFor d (s.candidate d) ∧ s.evaluate.objAt 0x0B 0x204 d = s.voltsAt d (s.opFor d (s.candidate d)) := by
  obtain ⟨hlt, hno⟩ := (show ∀ d ∈ ownDies, d < 256 ∧ d ∉ followers by decide) d hd
  obtain ⟨hop, hvolt⟩ := s.ownSet_spec.2.2 d (List.mem_filter.mpr ⟨hd, h⟩)
  obtain ⟨hop2, hvolt2⟩ := s.evaluate_follow.2.1 d hlt fun hm => hno (List.mem_filter.mp hm).1
  exact ⟨hop2.trans hop, hvolt2.trans hvolt⟩

/-- The highest operating point of the compute dies is settled before the dies that follow them take theirs (R619). -/
theorem evaluate_highest (s : State) : s.ownSet.highest = s.evaluate.highest := by
  obtain ⟨hsame, hout, -⟩ := s.evaluate_follow
  unfold highest
  rw [inService_same hsame, show s.evaluate.objAt 0x0B 0x201 0 = s.ownSet.objAt 0x0B 0x201 0 from
    hsame.others _ _ _ (by decide) (by decide) (by decide)]
  refine foldl_max_congr (fun d hd => ((hout d ?_ fun hm => ?_).1).symm) _
  · have := List.mem_range.mp (List.mem_filter.mp hd).1
    omega
  · have := List.mem_range.mp (List.mem_filter.mp hd).1
    have := (show ∀ d ∈ followers, 8 ≤ d by decide) d (List.mem_filter.mp hm).1
    omega

theorem evaluate_follower (s : State) {d : Nat} (hd : d ∈ followers) (h : s.inService d = true) :
    s.evaluate.objAt 0x0B 0x202 d = s.opFor d s.evaluate.highest ∧ s.evaluate.objAt 0x0B 0x204 d = s.voltsAt d (s.opFor d s.evaluate.highest) := by
  obtain ⟨hlt, hno⟩ := (show ∀ d ∈ followers, d < 256 ∧ d ∉ ownDies by decide) d hd
  obtain ⟨hsame, hout, -⟩ := s.ownSet_spec
  have hfor : s.ownSet.opFor d s.ownSet.highest = s.opFor d s.evaluate.highest := by
    rw [evaluate_highest]
    exact opFor_same (by rw [hsame.rest]) (hout d hlt fun hm => hno (List.mem_filter.mp hm).1).1 _
  have := s.evaluate_follow.2.2 d (List.mem_filter.mpr ⟨hd, by rw [inService_same hsame]; exact h⟩)
  rw [hfor] at this
  exact ⟨this.1, this.2.trans (by unfold voltsAt; rw [hsame.rest])⟩

end State
end Sys2Proof.Machine
end

section
/-! PROOFS. Proofs/Limits.lean: the power cap's windows, the rails' and the thermal ticks (O51). -/

namespace Sys2Proof.Machine

namespace State

/-- From s to u dictionary values alone have changed, those of index 0x203 of subsystem 0x0B. -/
structure showsCeil (s u : State) : Prop where
  rest : u = { s with obj := u.obj }
  others : ∀ a b c, b < 65536 → c < 256 → ¬(a = 0x0B ∧ b = 0x203) → u.objAt a b c = s.objAt a b c

theorem foldl_showCeil (l : List Nat) (s : State) (hlt : ∀ d ∈ l, d < 256) :
    let u := l.foldl (fun s d => s.setObjAt 0x0B 0x203 d (s.pow.ceil d)) s
    s.showsCeil u ∧ (∀ d, d < 256 → d ∉ l → u.objAt 0x0B 0x203 d = s.objAt 0x0B 0x203 d) ∧ ∀ d ∈ l, u.objAt 0x0B 0x203 d = s.pow.ceil d := by
  induction l generalizing s with
  | nil => exact ⟨⟨rfl, fun _ _ _ _ _ _ => rfl⟩, fun _ _ _ => rfl, nofun⟩
  | cons e l ih =>
    have he := hlt e (List.mem_cons_self ..)
    obtain ⟨hs, hout, hin⟩ := ih (s.setObjAt 0x0B 0x203 e (s.pow.ceil e)) fun d hd => hlt d (List.mem_cons_of_mem _ hd)
    have hset (d : Nat) (hd : d < 256) : (s.setObjAt 0x0B 0x203 e (s.pow.ceil e)).objAt 0x0B 0x203 d
        = if d = e then s.pow.ceil e else s.objAt 0x0B 0x203 d := by
      refine (Dev.objAt_setObjAt _ _ _ _ _ _ _ _ he hd (by decide) (by decide)).trans ?_
      simp
    refine ⟨⟨hs.rest, fun a b c hb hc h => (hs.others a b c hb hc h).trans ?_⟩, fun d hd hdl => ?_, fun d hd => ?_⟩
    · exact (Dev.objAt_setObjAt _ _ _ _ _ _ _ _ he hc (by decide) hb).trans (if_neg fun e => h ⟨e.1, e.2.1⟩)
    · rw [List.mem_cons, not_or] at hdl
      exact (hout d hd hdl.2).trans ((hset d hd).trans (if_neg hdl.1))
    · by_cases hdl : d ∈ l
      · exact hin d hdl
      · obtain rfl := (List.mem_cons.mp hd).resolve_right hdl
        exact (hout d he hdl).trans ((hset d he).trans (if_pos rfl))

theorem showCeil_spec (s : State) : s.showsCeil s.showCeil ∧ ∀ d, d < 20 → s.showCeil.objAt 0x0B 0x203 d = min s.pow.moduleCeil (s.pow.therm d) := by
  obtain ⟨hs, -, hin⟩ := foldl_showCeil (List.range 20) s fun d hd => by have := List.mem_range.mp hd; omega
  exact ⟨hs, fun d hd => hin d (List.mem_range.mpr hd)⟩

/-! The windows of the power cap (R624). -/

/-- The windows in a row above the cap, and those at or below 95 % of it, with one more of a mean power. -/
def overRuns (s : State) (watts : Nat) : Nat := if s.objAt 0x0B 0x300 0 < watts then s.pow.overRun + 1 else 0
def underRuns (s : State) (watts : Nat) : Nat := if watts * 100 ≤ s.objAt 0x0B 0x300 0 * 95 then s.pow.underRun + 1 else 0

/-- Whether a window of a mean power lowers the module ceiling, and whether it raises it. -/
def lowers (s : State) (watts : Nat) : Bool := s.overRuns watts = 50 && 0 < s.pow.moduleCeil
def raises (s : State) (watts : Nat) : Bool := s.underRuns watts = 1000 && s.pow.moduleCeil < 7 && !s.pow.warning

/-- What a window leaves of the power manager. -/
def capPow (s : State) (watts : Nat) : PowerState := { s.pow with
  capStart := s.pow.capStart + 10000, history := (watts :: s.pow.history).take 1000,
  overRun := if s.overRuns watts = 50 then 0 else s.overRuns watts, underRun := if s.underRuns watts = 1000 then 0 else s.underRuns watts,
  moduleCeil := if s.lowers watts then s.pow.moduleCeil - 1 else if s.raises watts then s.pow.moduleCeil + 1 else s.pow.moduleCeil }

/-- A window's end before its powers are published. -/
def capMoved (s : State) (watts throttle : Nat) : State :=
  let a := ({ s.advance (s.pow.capStart + 10000) with pow := s.capPow watts }).modThr fun t => { t with common := throttle }
  if s.lowers watts then a.bump 0x0B 0x303 0 1 else a

/-- A window's end, its powers published. -/
def capPublished (s : State) (watts throttle : Nat) : State :=
  let a := (s.capMoved watts throttle).setObjAt 0x0B 0x301 0 (meanWatts ((watts :: s.pow.history).take 1000))
  if a.objAt 0x0B 0x304 0 < watts then a.setObjAt 0x0B 0x304 0 watts else a

theorem objAt_advance (s : State) (t : U64) {b c : Nat} (hb : b < 65536) (hc : c < 256) :
    (s.advance t).objAt 0x0B b c = s.objAt 0x0B b c := Dev.objAt_advance _ _ hb hc (by simp)

theorem exec_capWindowEnd {s : State} (hr : s.pow.rails = true) (watts : Nat) (throttle : Fin 241) :
    exec (.capWindowEnd watts throttle) s = .next (s.capPublished watts throttle.val).showCeil := by
  refine exec_next rfl ((if_neg (by simp [hr])).trans ?_)
  dsimp only
  rw [objAt_advance _ _ (by decide) (by decide)]
  rfl

theorem capMoved_objAt (s : State) (watts throttle : Nat) {b : Nat} (hb : b < 65536) : (s.capMoved watts throttle).objAt 0x0B b 0
    = if b = 0x303 ∧ s.lowers watts = true then (s.objAt 0x0B 0x303 0 + 1) % 2 ^ 64 else s.objAt 0x0B b 0 := by
  have hadv := s.objAt_advance (s.pow.capStart + 10000) hb (c := 0) (by decide)
  have hadv' := s.objAt_advance (s.pow.capStart + 10000) (b := 0x303) (c := 0) (by decide) (by decide)
  unfold capMoved
  dsimp only
  cases s.lowers watts with
  | false => exact Eq.trans hadv (if_neg (by simp)).symm
  | true =>
    refine (Dev.objAt_bump _ 1 (by decide) (by decide) (by decide) hb).trans ?_
    simp only [true_and, and_true]
    split
    · exact congrArg (fun n => (n + 1) % 2 ^ 64) hadv'
    · exact hadv

theorem capMoved_levels (s : State) (watts throttle : Nat) : (s.capMoved watts throttle).pow = s.capPow watts
    ∧ (s.capMoved watts throttle).thr.common = throttle := by
  unfold capMoved
  dsimp only
  split <;> exact ⟨rfl, rfl⟩

theorem capPublished_levels (s : State) (watts throttle : Nat) : (s.capPublished watts throttle).pow = s.capPow watts
    ∧ (s.capPublished watts throttle).thr.common = throttle := by
  unfold capPublished
  dsimp only
  split <;> exact s.capMoved_levels watts throttle

/-- What a window's end publishes (R624, R652). -/
theorem capPublished_objAt (s : State) (watts throttle : Nat) :
    (s.capPublished watts throttle).objAt 0x0B 0x301 0 = meanWatts ((watts :: s.pow.history).take 1000)
      ∧ (s.capPublished watts throttle).objAt 0x0B 0x304 0 = max (s.objAt 0x0B 0x304 0) watts
      ∧ (s.capPublished watts throttle).objAt 0x0B 0x303 0 = (s.capMoved watts throttle).objAt 0x0B 0x303 0 := by
  have hpeak := s.capMoved_objAt watts throttle (b := 0x304) (by decide)
  rw [if_neg (by simp)] at hpeak
  unfold capPublished
  dsimp only
  generalize s.capMoved watts throttle = a at *
  have hset (u : State) (i j v : Nat) (hi : i < 65536) (hj : j < 65536) :
      (u.setObjAt 0x0B i 0 v).objAt 0x0B j 0 = if j = i then v else u.objAt 0x0B j 0 := by
    refine (Dev.objAt_setObjAt _ _ _ _ _ _ _ _ (by decide) (by decide) hi hj).trans ?_
    simp
  split
  · next h =>
    simp (disch := decide) only [hset] at h ⊢
    refine ⟨rfl, ?_, rfl⟩
    rw [← hpeak]
    exact (Nat.max_eq_right h.le).symm
  · next h =>
    simp (disch := decide) only [hset] at h ⊢
    refine ⟨rfl, ?_, rfl⟩
    rw [← hpeak]
    exact (Nat.max_eq_left (Nat.not_lt.mp h)).symm

/-! Records of which each die has at most one each second (R626, R629, R632). -/

theorem limitedRecord_spec (s : State) (kind die count detail : Nat) :
    let u := (s.limitedRecord kind die count detail).1
    s.toDev.reportStep u.toDev ∧ u = { s with toDev := u.toDev, pow := { s.pow with lastRec := u.pow.lastRec } } := by
  unfold limitedRecord
  split
  · exact ⟨Dev.reportStep.report s.toDev 19 _, rfl⟩
  · exact ⟨.refl _, rfl⟩

/-! The windows of the rails (R626). -/

/-- The steps that a rail's throttle has withheld since the die's last record of it. -/
def railSteps (s : State) (key steps : Nat) : Nat := if Table.get 0 s.thr.rail key = 0 then 0 else steps

/-- A rail's window ends, no record of it written yet. -/
def railMoved (s : State) (d : Die) (short : Bool) (amps steps throttle : Nat) : State :=
  let key := 2 * d.val + b2n short
  let taken := s.railSteps key steps
  ((s.bump 0x0B 0x310 d.val taken).modPow fun p => { p with
      railSince := Table.set 0 p.railSince d.val (Table.get 0 s.pow.railSince d.val + taken) }).modThr fun t => { t with
    rail := Table.set 0 t.rail key (if railLimit d.val short < amps then max 1 throttle else 0) }

/-- A record of a throttled rail, past which its steps are counted anew. -/
def railRecorded (s : State) (d since : Nat) : State :=
  let r := s.limitedRecord 0x32 d (since % 2 ^ 48) d
  if r.2 then r.1.modPow (fun p => { p with railSince := Table.set 0 p.railSince d 0 }) else r.1

theorem exec_railWindowEnd {s : State} (hr : s.pow.rails = true) (d : Die) (short : Bool) (amps steps : Nat) (throttle : Fin 241) :
    ∃ since, exec (.railWindowEnd d short amps steps throttle) s = .next (if railLimit d.val short < amps
      then (s.railMoved d short amps steps throttle.val).railRecorded d.val since else s.railMoved d short amps steps throttle.val) := by
  refine ⟨Table.get 0 s.pow.railSince d.val + s.railSteps (2 * d.val + b2n short) steps, exec_next rfl ((if_neg (by simp [hr])).trans ?_)⟩
  by_cases h : railLimit d.val short < amps
  · simp only [h, decide_true, Bool.not_true, Bool.false_eq_true, if_false, if_true]
    unfold railMoved
    simp only [h, if_true]
    rfl
  · simp only [h, decide_false, Bool.not_false, if_true, if_false]
    unfold railMoved
    simp only [h, if_false]
    rfl

theorem railRecorded_keeps (s : State) (d since : Nat) :
    let u := s.railRecorded d since
    s.toDev.reportStep u.toDev ∧ u = { s with toDev := u.toDev, pow := { s.pow with lastRec := u.pow.lastRec, railSince := u.pow.railSince } } := by
  unfold railRecorded
  dsimp only
  obtain ⟨hstep, hrest⟩ := s.limitedRecord_spec 0x32 d (since % 2 ^ 48) d
  split
  · refine ⟨hstep, ?_⟩
    rw [hrest]
    rfl
  · refine ⟨hstep, ?_⟩
    rw [hrest]

/-! Thermal ticks (R629 to R631). -/

/-- The temperature limit in tenths of a degree. -/
def tempLimit (s : State) : Int := 10 * (s.objAt 0x0B 0x701 0 : Nat)

/-- The ticks in a row that have read a die at least 3 °C below its limit, with one more at tj. -/
def coolRuns (s : State) (d : Nat) (tj : Int) : Nat := if tj ≤ s.tempLimit - 30 then Table.get 0 s.pow.coolRun d + 1 else 0

/-- Whether the tenth of them raises the die's ceiling, and where the ceiling is after a tick. -/
def raisesTherm (s : State) (d : Nat) (tj : Int) : Bool := s.coolRuns d tj = 10 && s.pow.therm d < 7 && !s.pow.warning
def thermAfter (s : State) (d : Nat) (tj : Int) : Nat :=
  if s.tempLimit ≤ tj then s.pow.therm d - 1 else if s.raisesTherm d tj then s.pow.therm d + 1 else s.pow.therm d

/-- The cool ticks that a tick leaves counted. -/
def coolAfter (s : State) (d : Nat) (tj : Int) : Nat := if s.tempLimit ≤ tj ∨ s.coolRuns d tj = 10 then 0 else s.coolRuns d tj

/-- What a tick of a die leaves (R629, R630). -/
structure ticked (s u : State) (d : Nat) (tj : Int) : Prop where
  pow : u.pow = { s.pow with thermCeil := u.pow.thermCeil, coolRun := u.pow.coolRun, lastRec := u.pow.lastRec }
  therm : ∀ k, u.pow.therm k = if k = d then s.thermAfter d tj else s.pow.therm k
  cool : Table.get 0 u.pow.coolRun d = s.coolAfter d tj
  held : s.tempLimit ≤ tj → Table.get 0 u.thr.therm d
    = if s.pow.therm d = 0 then min 240 (Table.get 0 s.thr.therm d + 16) else Table.get 0 s.thr.therm d
  shown : u.objAt 0x0B 0x700 d = codeInt 16 tj

/-- A die's junction is shown. -/
def junction (s : State) (d : Nat) (tj : Int) : State := s.setObjAt 0x0B 0x700 d (codeInt 16 tj)

/-- A die at its limit has its ceiling lowered, or at the lowest its throttle raised. -/
def heated (s : State) (d : Nat) : State :=
  let a := s.modPow fun p => { p with coolRun := Table.set 0 p.coolRun d 0, thermCeil := Table.set 7 p.thermCeil d (s.pow.therm d - 1) }
  if s.pow.therm d = 0 then a.modThr fun t => { t with therm := Table.set 0 t.therm d (min 240 (Table.get 0 t.therm d + 16)) }
  else a.bump 0x0B 0x702 d 1

/-- A die below its limit counts its cool ticks, of which the tenth raises its ceiling. -/
def cooled (s : State) (d : Nat) (tj : Int) : State :=
  let a := s.modPow fun p => { p with
    coolRun := Table.set 0 p.coolRun d (if s.coolRuns d tj = 10 then 0 else s.coolRuns d tj),
    thermCeil := if s.raisesTherm d tj then Table.set 7 p.thermCeil d (s.pow.therm d + 1) else p.thermCeil }
  if s.raisesTherm d tj then a.modThr fun t => { t with therm := Table.set 0 t.therm d 0 } else a

theorem tempLimit_junction (s : State) {d : Nat} (hd : d < 256) (tj : Int) : (s.junction d tj).tempLimit = s.tempLimit :=
  congrArg (fun n : Nat => 10 * (n : Int)) ((Dev.objAt_setObjAt _ _ _ _ _ _ _ _ hd (by decide) (by decide) (by decide)).trans (if_neg (by simp)))

theorem thermalDie_eq (s : State) (d : Nat) (tj : Int) : s.thermalDie d tj =
    if (s.junction d tj).tempLimit ≤ tj
      then (((s.junction d tj).heated d).limitedRecord 0x33 d 0 (d + codeInt 16 tj * 2 ^ 16)).1
      else (s.junction d tj).cooled d tj := by
  unfold thermalDie
  dsimp only
  congr 1
  refine congrArg (fun u : State => (u.limitedRecord 0x33 d 0 (d + codeInt 16 tj * 2 ^ 16)).1) ?_
  unfold heated
  by_cases h : (s.junction d tj).pow.therm d = 0
  · exact (if_pos h).trans ((if_pos h).trans (if_pos h).symm)
  · exact (if_neg h).trans (Eq.trans (congrArg (State.bump · 0x0B 0x702 d 1) (if_neg h)) (if_neg h).symm)

theorem therm_set (t : Table Nat) (d v k : Nat) (p : PowerState) (h : p.thermCeil = Table.set 7 t d v) : p.therm k = if k = d then v else Table.get 7 t k := by
  unfold PowerState.therm
  rw [h, Table.get_set]

theorem coolAfter_hot {s : State} {d : Nat} {tj : Int} (h : s.tempLimit ≤ tj) : s.coolAfter d tj = 0 := if_pos (.inl h)

theorem heated_ticked (s : State) {d : Nat} (hd : d < 256) {tj : Int} (hshown : s.objAt 0x0B 0x700 d = codeInt 16 tj) (h : s.tempLimit ≤ tj) :
    s.ticked (s.heated d) d tj := by
  unfold heated
  dsimp only
  split
  · next hc =>
    exact { pow := rfl
            therm := fun k => by rw [therm_set _ _ _ _ _ rfl, thermAfter, if_pos h]; rfl
            cool := (Table.get_set_same ..).trans (coolAfter_hot h).symm
            held := fun _ => (Table.get_set_same ..).trans ((if_pos hc).symm.trans rfl)
            shown := hshown }
  · next hc =>
    exact { pow := rfl
            therm := fun k => by rw [therm_set _ _ _ _ _ rfl, thermAfter, if_pos h]; rfl
            cool := (Table.get_set_same ..).trans (coolAfter_hot h).symm
            held := fun _ => (if_neg hc).symm
            shown := (Dev.objAt_bump _ 1 hd hd (by decide) (by decide)).trans ((if_neg (by simp)).trans hshown) }

theorem cooled_ticked (s : State) {d : Nat} {tj : Int} (hshown : s.objAt 0x0B 0x700 d = codeInt 16 tj) (h : ¬s.tempLimit ≤ tj) :
    s.ticked (s.cooled d tj) d tj := by
  unfold cooled
  dsimp only
  split
  · next hr =>
    exact { pow := rfl
            therm := fun k => by rw [therm_set s.pow.thermCeil d (s.pow.therm d + 1) k _ rfl, thermAfter, if_neg h, if_pos hr]; rfl
            cool := (Table.get_set_same ..).trans (by simp [coolAfter, h])
            held := fun hh => absurd hh h
            shown := hshown }
  · next hr =>
    exact { pow := rfl
            therm := fun k => by
              rw [thermAfter, if_neg h, if_neg hr]
              by_cases hk : k = d
              · rw [if_pos hk, hk]; rfl
              · rw [if_neg hk]; rfl
            cool := (Table.get_set_same ..).trans (by simp [coolAfter, h])
            held := fun hh => absurd hh h
            shown := hshown }

theorem ticked_thermalDie (s : State) {d : Nat} (hd : d < 256) (tj : Int) : (s.junction d tj).ticked (s.thermalDie d tj) d tj := by
  have hshown : (s.junction d tj).objAt 0x0B 0x700 d = codeInt 16 tj := Dev.objAt_setObjAt_same ..
  rw [thermalDie_eq]
  generalize s.junction d tj = u at *
  split
  · next h =>
    obtain ⟨hpow, htherm, hcool, hheld, hobj⟩ := u.heated_ticked hd hshown h
    obtain ⟨hstep, hrest⟩ := (u.heated d).limitedRecord_spec 0x33 d 0 (d + codeInt 16 tj * 2 ^ 16)
    generalize (u.heated d).limitedRecord 0x33 d 0 (d + codeInt 16 tj * 2 ^ 16) = r at *
    have hp : r.1.pow = { (u.heated d).pow with lastRec := r.1.pow.lastRec } := congrArg State.pow hrest
    have hthr : r.1.thr = (u.heated d).thr := by rw [hstep.rest]
    generalize u.heated d = v at *
    exact { pow := by rw [hp, hpow]
            therm := fun k => (congrArg (Table.get 7 · k) (congrArg PowerState.thermCeil hp)).trans (htherm k)
            cool := (congrArg (Table.get 0 · d) (congrArg PowerState.coolRun hp)).trans hcool
            held := fun hh => (by rw [hthr]; exact hheld hh)
            shown := (hstep.objAt _ _ _ (by decide) hd (by simp [Dev.ownObjects])).trans hobj }
  · next h => exact u.cooled_ticked hshown h

/-- The module's temperatures and ceilings are shown. -/
def tempsShown (s : State) (inlet outlet : Int) : State :=
  ((s.setObjAt 0x0B 0x703 0 (codeInt 16 inlet)).setObjAt 0x0B 0x704 0 (codeInt 16 outlet)).showCeil

theorem tempsShown_spec (s : State) (inlet outlet : Int) :
    let u := s.tempsShown inlet outlet
    u.pow = s.pow ∧ u.thr = s.thr ∧ (∀ d, d < 256 → u.objAt 0x0B 0x700 d = s.objAt 0x0B 0x700 d) ∧ u.objAt 0x0B 0x703 0 = codeInt 16 inlet
      ∧ u.objAt 0x0B 0x704 0 = codeInt 16 outlet ∧ ∀ k, k < 20 → u.objAt 0x0B 0x203 k = min s.pow.moduleCeil (s.pow.therm k) := by
  unfold tempsShown
  have hset (u : State) (i c j v : Nat) (hi : i < 65536) (hc : c < 256) (hj : j < 65536) (hji : j ≠ i) :
      (u.setObjAt 0x0B i 0 v).objAt 0x0B j c = u.objAt 0x0B j c :=
    (Dev.objAt_setObjAt _ _ _ _ _ _ _ _ (by decide) hc hi hj).trans (if_neg fun e => hji e.2.1)
  have hin : ((s.setObjAt 0x0B 0x703 0 (codeInt 16 inlet)).setObjAt 0x0B 0x704 0 (codeInt 16 outlet)).objAt 0x0B 0x703 0 = codeInt 16 inlet :=
    (hset _ _ _ _ _ (by decide) (by decide) (by decide) (by decide)).trans (Dev.objAt_setObjAt_same ..)
  have hout : ((s.setObjAt 0x0B 0x703 0 (codeInt 16 inlet)).setObjAt 0x0B 0x704 0 (codeInt 16 outlet)).objAt 0x0B 0x704 0 = codeInt 16 outlet :=
    Dev.objAt_setObjAt_same ..
  have hjunction (d : Nat) (hd : d < 256) :
      ((s.setObjAt 0x0B 0x703 0 (codeInt 16 inlet)).setObjAt 0x0B 0x704 0 (codeInt 16 outlet)).objAt 0x0B 0x700 d = s.objAt 0x0B 0x700 d :=
    (hset _ _ _ _ _ (by decide) hd (by decide) (by decide)).trans (hset _ _ _ _ _ (by decide) hd (by decide) (by decide))
  have hpow : ((s.setObjAt 0x0B 0x703 0 (codeInt 16 inlet)).setObjAt 0x0B 0x704 0 (codeInt 16 outlet)).pow = s.pow := rfl
  have hthr : ((s.setObjAt 0x0B 0x703 0 (codeInt 16 inlet)).setObjAt 0x0B 0x704 0 (codeInt 16 outlet)).thr = s.thr := rfl
  generalize (s.setObjAt 0x0B 0x703 0 (codeInt 16 inlet)).setObjAt 0x0B 0x704 0 (codeInt 16 outlet) = v at *
  obtain ⟨⟨hrest, hothers⟩, hceil⟩ := v.showCeil_spec
  generalize v.showCeil = u at *
  exact ⟨(congrArg State.pow hrest).trans hpow, (congrArg (fun u : State => u.thr) hrest).trans hthr,
    fun d hd => (hothers _ _ _ (by decide) hd (by decide)).trans (hjunction d hd),
    (hothers _ _ _ (by decide) (by decide) (by decide)).trans hin, (hothers _ _ _ (by decide) (by decide) (by decide)).trans hout,
    fun k hk => by rw [hceil k hk, hpow]⟩

/-- The module's tick of one die's reading, its temperatures shown. -/
def tickShown (s : State) (d : Die) (tj inlet outlet : Int) : State :=
  (((s.advance (s.pow.tickStart + 1000000)).modPow fun p => { p with tickStart := s.pow.tickStart + 1000000 }).thermalDie d.val tj
    |>.tempsShown inlet outlet)

theorem inService_advance (s : State) (t : U64) (d : Nat) : (s.advance t).inService d = s.inService d :=
  congrArg (bit · d) (Dev.objAt_advance _ _ (by decide) (by decide) (by decide))

theorem exec_thermalTick_cool {s : State} {d : Die} {tj inlet outlet : Int} (hr : s.pow.rails = true) (hd : s.inService d.val = true) (hc : tj < 1050) :
    exec (.thermalTick ⟨[(d, tj)], inlet, outlet⟩) s = .next (let a := s.tickShown d tj inlet outlet
      if 450 < inlet || inlet + 200 < outlet then (a.limitedRecord 0x34 0 0 (codeInt 16 inlet + codeInt 16 outlet * 2 ^ 16)).1 else a) := by
  refine exec_next rfl ((if_neg (by simp [hr])).trans ?_)
  have hno : s.tooHot ⟨[(d, tj)], inlet, outlet⟩ = none := by
    unfold tooHot
    simp [hc]
  rw [hno]
  dsimp only
  unfold thermalTick tickShown
  dsimp only
  generalize s.pow.tickStart + 1000000 = stop
  have hin : ((s.advance stop).modPow fun p => { p with tickStart := stop }).inService d.val = true := (s.inService_advance stop d.val).trans hd
  generalize (s.advance stop).modPow _ = a at *
  have hfilter : [(d, tj)].filter (fun x => a.inService x.1.val) = [(d, tj)] := by simp [hin]
  rw [hfilter]
  rfl

theorem exec_thermalTick_hot {s : State} {d : Die} {tj inlet outlet : Int} (hr : s.pow.rails = true) (hd : s.inService d.val = true) (hc : 1050 ≤ tj) :
    exec (.thermalTick ⟨[(d, tj)], inlet, outlet⟩) s = exec (.thermalTrip d) s := by
  have hsome : s.tooHot ⟨[(d, tj)], inlet, outlet⟩ = some d := by
    unfold tooHot
    simp [hc, hd]
  rw [show exec (.thermalTrip d) s = .next (s.trip d) from exec_next rfl (if_pos hr)]
  refine exec_next rfl ((if_neg (by simp [hr])).trans ?_)
  rw [hsome]

/-- What the junction of a die has before its tick is what the state had. -/
theorem ticked.of_eq {s t u : State} {d : Nat} {tj : Int} (h : t.ticked u d tj) (hlimit : t.tempLimit = s.tempLimit)
    (hpow : t.pow = { s.pow with tickStart := t.pow.tickStart }) (hthr : t.thr = s.thr) :
    u.pow.tickStart = t.pow.tickStart ∧ (∀ k, u.pow.therm k = if k = d then s.thermAfter d tj else s.pow.therm k)
      ∧ Table.get 0 u.pow.coolRun d = s.coolAfter d tj
      ∧ (s.tempLimit ≤ tj → Table.get 0 u.thr.therm d
        = if s.pow.therm d = 0 then min 240 (Table.get 0 s.thr.therm d + 16) else Table.get 0 s.thr.therm d)
      ∧ u.objAt 0x0B 0x700 d = codeInt 16 tj := by
  obtain ⟨h1, h2, h3, h4, h5⟩ := h
  have hruns : t.coolRuns d tj = s.coolRuns d tj := by unfold coolRuns; rw [hlimit, hpow]
  have htherm (k : Nat) : t.pow.therm k = s.pow.therm k := by rw [hpow]; rfl
  refine ⟨by rw [h1], fun k => ?_, ?_, fun h => ?_, h5⟩
  · rw [h2, thermAfter, thermAfter, raisesTherm, raisesTherm, hlimit, hruns, htherm, htherm, hpow]
  · rw [h3, coolAfter, coolAfter, hlimit, hruns]
  · rw [← hlimit] at h
    rw [h4 h, htherm, hthr]

theorem tickShown_spec (s : State) (d : Die) (tj inlet outlet : Int) :
    let u := s.tickShown d tj inlet outlet
    u.pow.tickStart = s.pow.tickStart + 1000000 ∧ (∀ k, u.pow.therm k = if k = d.val then s.thermAfter d.val tj else s.pow.therm k)
      ∧ Table.get 0 u.pow.coolRun d.val = s.coolAfter d.val tj
      ∧ (s.tempLimit ≤ tj → Table.get 0 u.thr.therm d.val
        = if s.pow.therm d.val = 0 then min 240 (Table.get 0 s.thr.therm d.val + 16) else Table.get 0 s.thr.therm d.val)
      ∧ u.objAt 0x0B 0x700 d.val = codeInt 16 tj ∧ u.objAt 0x0B 0x703 0 = codeInt 16 inlet ∧ u.objAt 0x0B 0x704 0 = codeInt 16 outlet
      ∧ ∀ k, k < 20 → u.objAt 0x0B 0x203 k = min u.pow.moduleCeil (u.pow.therm k) := by
  have hd : d.val < 256 := d.isLt.trans (by decide)
  unfold tickShown
  generalize s.pow.tickStart + 1000000 = stop
  have hlimit : ((s.advance stop).modPow fun p => { p with tickStart := stop }).tempLimit = s.tempLimit :=
    congrArg (fun n : Nat => 10 * (n : Int)) (s.objAt_advance stop (b := 0x701) (c := 0) (by decide) (by decide))
  have hpow : ((s.advance stop).modPow fun p => { p with tickStart := stop }).pow = { s.pow with tickStart := stop } := rfl
  have hthr : ((s.advance stop).modPow fun p => { p with tickStart := stop }).thr = s.thr := Dev.advance_thr ..
  generalize (s.advance stop).modPow _ = a at *
  obtain ⟨hstart, htherm, hcool, hheld, hshown⟩ := (a.ticked_thermalDie hd tj).of_eq ((a.tempLimit_junction hd tj).trans hlimit)
    (show a.pow = { s.pow with tickStart := a.pow.tickStart } by rw [hpow]) hthr
  generalize a.thermalDie d.val tj = v at *
  obtain ⟨hpow', hthr', hj, hin, hout, hceil⟩ := v.tempsShown_spec inlet outlet
  dsimp only
  generalize v.tempsShown inlet outlet = u at *
  refine ⟨?_, fun k => ?_, ?_, fun h => ?_, (hj _ hd).trans hshown, hin, hout, fun k hk => ?_⟩
  · rw [hpow', hstart]; exact congrArg PowerState.tickStart hpow
  · rw [hpow']; exact htherm k
  · rw [hpow']; exact hcool
  · rw [hthr']; exact hheld h
  · rw [hceil k hk, hpow']

/-- From s to u the power manager has at most written a record. -/
structure recorded (s u : State) : Prop where
  pow : u.pow = { s.pow with lastRec := u.pow.lastRec, railSince := u.pow.railSince }
  thr : u.thr = s.thr
  cmd : u.cmd = s.cmd
  boot : u.boot = s.boot
  objAt : ∀ b c, b < 65536 → c < 256 → u.objAt 0x0B b c = s.objAt 0x0B b c

theorem recorded.of_step {s u : State} (h : s.toDev.reportStep u.toDev)
    (hu : u = { s with toDev := u.toDev, pow := { s.pow with lastRec := u.pow.lastRec, railSince := u.pow.railSince } }) : s.recorded u where
  pow := by rw [hu]
  thr := by rw [h.rest]
  cmd := by rw [h.rest]
  boot := by rw [hu]
  objAt b c hb hc := h.objAt 0x0B b c hb hc (by simp [Dev.ownObjects])

theorem recorded.refl (s : State) : s.recorded s := ⟨rfl, rfl, rfl, rfl, fun _ _ _ _ => rfl⟩

theorem recorded_limitedRecord (s : State) (kind die count detail : Nat) : s.recorded (s.limitedRecord kind die count detail).1 := by
  obtain ⟨hstep, hrest⟩ := s.limitedRecord_spec kind die count detail
  generalize (s.limitedRecord kind die count detail).1 = u at *
  exact .of_step hstep (by rw [hrest])

theorem recorded_railRecorded (s : State) (d since : Nat) : s.recorded (s.railRecorded d since) := by
  obtain ⟨hstep, hrest⟩ := s.railRecorded_keeps d since
  exact .of_step hstep hrest

theorem recorded_ite {c : Prop} [Decidable c] {s u : State} (h : s.recorded u) : s.recorded (if c then u else s) := by
  split
  · exact h
  · exact .refl s

theorem railMoved_spec (s : State) (d : Die) (short : Bool) (amps steps throttle : Nat) :
    let u := s.railMoved d short amps steps throttle
    let key := 2 * d.val + b2n short
    Table.get 0 u.thr.rail key = (if railLimit d.val short < amps then max 1 throttle else 0)
      ∧ (∀ k, k ≠ key → Table.get 0 u.thr.rail k = Table.get 0 s.thr.rail k)
      ∧ u.objAt 0x0B 0x310 d.val = (s.objAt 0x0B 0x310 d.val + (if Table.get 0 s.thr.rail key = 0 then 0 else steps)) % 2 ^ 64
      ∧ u.cmd = s.cmd ∧ u.boot = s.boot ∧ u.pow.moduleCeil = s.pow.moduleCeil ∧ u.pow.thermCeil = s.pow.thermCeil :=
  ⟨Table.get_set_same .., fun _ hk => Table.get_set_ne _ _ _ hk, Dev.objAt_bump_self _ _ (by decide) (d.isLt.trans (by decide)), rfl, rfl, rfl, rfl⟩

end State

/-- A rail's window ends (R626). -/
theorem railWindowEnd_spec {s : State} (hr : s.pow.rails = true) (d : Die) (short : Bool) (amps steps : Nat) (throttle : Fin 241) :
    ∃ u, exec (.railWindowEnd d short amps steps throttle) s = .next u ∧ (s.railMoved d short amps steps throttle.val).recorded u := by
  obtain ⟨since, hexec⟩ := State.exec_railWindowEnd hr d short amps steps throttle
  exact ⟨_, hexec, State.recorded_ite (State.recorded_railRecorded ..)⟩

theorem thermalTick_spec {s : State} {d : Die} {tj inlet outlet : Int} (hr : s.pow.rails = true) (hd : s.inService d.val = true) (hc : tj < 1050) :
    ∃ u, exec (.thermalTick ⟨[(d, tj)], inlet, outlet⟩) s = .next u ∧ (s.tickShown d tj inlet outlet).recorded u :=
  ⟨_, State.exec_thermalTick_cool hr hd hc, State.recorded_ite (State.recorded_limitedRecord ..)⟩

theorem mem_ownDies : ∀ d : Die, d.val < 8 ∨ 14 ≤ d.val → d.val ∈ State.ownDies ∧ ∀ p : PowerState, p.opLimit d.val = min p.moduleCeil (p.therm d.val) := by
  intro d hd
  refine ⟨(show ∀ d : Die, d.val < 8 ∨ 14 ≤ d.val → d.val ∈ State.ownDies by decide) d hd, fun p => if_neg ?_⟩
  simp
  omega

theorem mem_followers : ∀ d : Die, 8 ≤ d.val → d.val < 14 → d.val ∈ State.followers ∧ ∀ p : PowerState, p.opLimit d.val = p.therm d.val := by
  intro d h8 h14
  refine ⟨(show ∀ d : Die, 8 ≤ d.val → d.val < 14 → d.val ∈ State.followers by decide) d h8 h14, fun p => if_pos ?_⟩
  simp
  omega

/-- A die in service takes an operating point within its ceilings, and the rail voltage of that point (R618 to R620). -/
theorem evaluate_in (s : State) (d : Die) (h : s.inService d.val = true) :
    let op (d : Nat) : Nat := s.evaluate.objAt 0x0B 0x202 d
    s.evaluate.objAt 0x0B 0x204 d.val = opVoltage (op d.val) + Table.get 0 s.pow.trims d.val
      ∧ op d.val ≤ s.pow.therm d.val ∧ (s.pow.warning = true → op d.val ≤ s.objAt 0x0B 0x202 d.val)
      ∧ ((d.val < 8 ∨ 14 ≤ d.val) → op d.val ≤ s.pow.moduleCeil)
      ∧ (s.pow.warning = false → (d.val < 8 ∨ 14 ≤ d.val) → op d.val = min (s.candidate d.val) (min s.pow.moduleCeil (s.pow.therm d.val)))
      ∧ (s.pow.warning = false → 8 ≤ d.val → d.val < 14 → op d.val =
          min (((List.range 8).filter s.inService).foldl (fun m c => max m (op c)) (s.objAt 0x0B 0x201 0)) (s.pow.therm d.val)) := by
  dsimp only
  by_cases hd : d.val < 8 ∨ 14 ≤ d.val
  · obtain ⟨hown, hlim⟩ := mem_ownDies d hd
    obtain ⟨hop, hvolt⟩ := s.evaluate_own hown h
    obtain ⟨hle, hwarn, hno⟩ := s.opFor_le d.val (s.candidate d.val)
    rw [← hop, hlim] at hle hno
    rw [← hop] at hwarn hvolt
    exact ⟨hvolt, hle.trans (Nat.min_le_right ..), hwarn, fun _ => hle.trans (Nat.min_le_left ..), fun hw _ => hno hw, fun _ _ _ => by omega⟩
  · obtain ⟨hfol, hlim⟩ := mem_followers d (by omega) (by omega)
    obtain ⟨hop, hvolt⟩ := s.evaluate_follower hfol h
    obtain ⟨hle, hwarn, hno⟩ := s.opFor_le d.val s.evaluate.highest
    rw [← hop, hlim] at hle hno
    rw [← hop] at hwarn hvolt
    refine ⟨hvolt, hle, hwarn, fun hd' => absurd hd' hd, fun _ hd' => absurd hd' hd, fun hw _ _ => (hno hw).trans ?_⟩
    have hidle : s.evaluate.objAt 0x0B 0x201 0 = s.objAt 0x0B 0x201 0 := s.evaluate_same.others _ _ _ (by decide) (by decide) (by decide)
    unfold State.highest
    rw [State.inService_same s.evaluate_same, hidle]

/-- What the end of a window of the power cap leaves (R624, R652). -/
theorem capWindowEnd_spec (s : State) (watts throttle : Nat) :
    let u := (s.capPublished watts throttle).showCeil
    u.pow = s.capPow watts ∧ u.thr.common = throttle ∧ u.objAt 0x0B 0x303 0 = (s.capMoved watts throttle).objAt 0x0B 0x303 0
      ∧ u.objAt 0x0B 0x301 0 = meanWatts ((watts :: s.pow.history).take 1000) ∧ u.objAt 0x0B 0x304 0 = max (s.objAt 0x0B 0x304 0) watts
      ∧ ∀ d, d < 20 → u.objAt 0x0B 0x203 d = min u.pow.moduleCeil (u.pow.therm d) := by
  obtain ⟨hpow, hthr⟩ := s.capPublished_levels watts throttle
  obtain ⟨hmean, hpeak, hlow⟩ := s.capPublished_objAt watts throttle
  generalize s.capPublished watts throttle = v at *
  obtain ⟨⟨hrest, hothers⟩, hceil⟩ := v.showCeil_spec
  generalize v.showCeil = u at *
  have hp : u.pow = v.pow := by rw [hrest]
  have hob {b : Nat} (hb : b < 65536) (hne : b ≠ 0x203) : u.objAt 0x0B b 0 = v.objAt 0x0B b 0 := hothers _ _ _ hb (by decide) (by simp [hne])
  exact ⟨hp.trans hpow, (by rw [hrest]; exact hthr), (hob (by decide) (by decide)).trans hlow, (hob (by decide) (by decide)).trans hmean,
    (hob (by decide) (by decide)).trans hpeak, fun d hd => by rw [hceil d hd, hp]⟩

/-- Where a window's end leaves the module ceiling (R624). -/
theorem capPow_moduleCeil (s : State) (watts : Nat) :
    (s.overRuns watts = 50 → 0 < s.pow.moduleCeil → s.lowers watts = true ∧ (s.capPow watts).moduleCeil = s.pow.moduleCeil - 1)
      ∧ (s.overRuns watts ≠ 50 → s.underRuns watts = 1000 → s.pow.moduleCeil < 7 → s.pow.warning = false →
        (s.capPow watts).moduleCeil = s.pow.moduleCeil + 1)
      ∧ (s.overRuns watts ≠ 50 → (s.underRuns watts ≠ 1000 ∨ s.pow.warning = true) → (s.capPow watts).moduleCeil = s.pow.moduleCeil) := by
  have hceil : (s.capPow watts).moduleCeil =
    if s.lowers watts then s.pow.moduleCeil - 1 else if s.raises watts then s.pow.moduleCeil + 1 else s.pow.moduleCeil := rfl
  refine ⟨fun ha hc => ?_, fun ha hu hc hw => ?_, fun ha hu => ?_⟩
  · have hl : s.lowers watts = true := by simp [State.lowers, ha, hc]
    exact ⟨hl, hceil.trans (if_pos hl)⟩
  · rw [hceil, if_neg (by simp [State.lowers, ha]), if_pos (by simp [State.raises, hu, hc, hw])]
  · rw [hceil, if_neg (by simp [State.lowers, ha]), if_neg (by rcases hu with hu | hu <;> simp [State.raises, hu])]

/-- Where a tick leaves a die's ceiling and its cool ticks (R629, R630). -/
theorem thermAfter_spec (s : State) (d : Nat) (tj : Int) :
    (s.tempLimit ≤ tj → s.thermAfter d tj = s.pow.therm d - 1 ∧ s.coolAfter d tj = 0)
      ∧ (tj < s.tempLimit → s.tempLimit - 30 < tj → s.thermAfter d tj = s.pow.therm d ∧ s.coolAfter d tj = 0)
      ∧ (tj ≤ s.tempLimit - 30 → Table.get 0 s.pow.coolRun d + 1 ≠ 10 →
        s.thermAfter d tj = s.pow.therm d ∧ s.coolAfter d tj = Table.get 0 s.pow.coolRun d + 1)
      ∧ (tj ≤ s.tempLimit - 30 → Table.get 0 s.pow.coolRun d + 1 = 10 → s.coolAfter d tj = 0
        ∧ s.thermAfter d tj = if s.pow.therm d < 7 && !s.pow.warning then s.pow.therm d + 1 else s.pow.therm d) := by
  unfold State.thermAfter State.coolAfter State.raisesTherm State.coolRuns
  refine ⟨fun h => ?_, fun h h30 => ?_, fun h hc => ?_, fun h hc => ?_⟩
  · simp [h]
  · simp [not_le.mpr h, not_le.mpr h30]
  · simp [show ¬s.tempLimit ≤ tj by omega, h, hc]
  · simp [show ¬s.tempLimit ≤ tj by omega, h, hc]

theorem powerCapWrite_spec (v : U16) (s : State) :
    (¬(1500 ≤ v.toNat ∧ v.toNat ≤ 5000) → exec (.powerCapWrite v) s = .next s)
      ∧ (1500 ≤ v.toNat → v.toNat ≤ 5000 → ∃ u, exec (.powerCapWrite v) s = .next u ∧ u.objAt 0x0B 0x300 0 = v.toNat ∧ u = { s with obj := u.obj }) := by
  refine ⟨fun h => exec_next rfl (congrArg Prod.fst (if_neg (by simpa using h))), fun h1 h2 => ?_⟩
  exact ⟨_, exec_next rfl (congrArg Prod.fst (if_pos (by simp [h1, h2]))), Dev.objAt_setObjAt_same .., rfl⟩

/-- Settles O51: a die's operating point comes from its candidate under its ceilings, a window's end moves the ceilings and throttles of its own
kind alone, and the record it may write reaches none of them. That a raised thermal ceiling clears the throttle is log entry 53, and where the windows
start is log entry 54. -/
theorem powerLimits : Obligations.PowerLimits := by
  unfold Obligations.PowerLimits
  intro s
  dsimp only
  refine ⟨fun d => Nat.min_le_left .., fun d => s.candidate_spec d.val, fun hr => ?_, fun hr => ?_, fun watts throttle hr => ?_, fun v => ?_,
    fun d short amps steps throttle hr => ?_, fun d tj inlet outlet hr hd hc => State.exec_thermalTick_hot hr hd hc,
    fun d tj inlet outlet hr hd hc => ?_⟩
  · refine ⟨exec_next rfl (if_neg (by simp [hr])), fun w t => ?_, fun d b a n t => ?_, fun r => ?_⟩ <;>
      exact exec_next rfl ((if_pos (by simp [hr])).trans rfl)
  · refine ⟨_, exec_next rfl (if_pos hr), s.evaluate_same.rest, fun d hd => s.evaluate_out (d.isLt.trans (by decide)) hd, fun d hd => ?_⟩
    exact evaluate_in s d hd
  · obtain ⟨hpow, hthr, hlow, hmean, hpeak, hshown⟩ := capWindowEnd_spec s watts throttle.val
    obtain ⟨hlower, hraise, hstay⟩ := capPow_moduleCeil s watts
    have hmoved := s.capMoved_objAt watts throttle.val (b := 0x303) (by decide)
    refine ⟨_, State.exec_capWindowEnd hr watts throttle, ?_⟩
    generalize (s.capPublished watts throttle.val).showCeil = u at *
    rw [hpow] at hshown ⊢
    refine ⟨hthr, rfl, rfl, fun ha hc => ?_, fun ha hu hc hw => hraise ha hu hc hw, fun ha hu => hstay ha hu, hmean, hpeak, hshown, rfl⟩
    exact ⟨(hlower ha hc).2, hlow.trans (hmoved.trans (if_pos ⟨rfl, (hlower ha hc).1⟩))⟩
  · exact powerCapWrite_spec v s
  · obtain ⟨u, hexec, hrec⟩ := railWindowEnd_spec hr d short amps steps throttle
    obtain ⟨hkey, hother, hcount, hcmd, hboot, hmod, htherm⟩ := s.railMoved_spec d short amps steps throttle.val
    generalize s.railMoved d short amps steps throttle.val = m at *
    obtain ⟨hpow, hthr, hcmd', hboot', hobj⟩ := hrec
    refine ⟨u, hexec, ?_, fun k hk => ?_, fun _ => (hobj _ _ (by decide) (d.isLt.trans (by decide))).trans hcount, hcmd'.trans hcmd,
      hboot'.trans hboot, ?_, ?_⟩
    · rw [hthr, hkey]
      simp
    · rw [hthr, hother k hk]
    · rw [hpow]; exact hmod
    · rw [hpow]; exact htherm
  · obtain ⟨u, hexec, hrec⟩ := thermalTick_spec (inlet := inlet) (outlet := outlet) hr hd hc
    obtain ⟨hstart, htherm, hcool, hheld, hj, hin, hout, hshown⟩ := s.tickShown_spec d tj inlet outlet
    generalize s.tickShown d tj inlet outlet = m at *
    obtain ⟨hpow, hthr, -, -, hobj⟩ := hrec
    have hself := htherm d.val
    rw [if_pos rfl] at hself
    have ht (k : Nat) : u.pow.therm k = m.pow.therm k := by rw [hpow]; rfl
    have hcool' : Table.get 0 u.pow.coolRun d.val = s.coolAfter d.val tj := by rw [hpow]; exact hcool
    obtain ⟨h1, h2, h3, h4⟩ := thermAfter_spec s d.val tj
    refine ⟨u, hexec, ?_, fun k hk => ?_, fun h => ?_, fun h h30 => ?_, fun h => ⟨fun hc => ?_, fun hc => ?_⟩, fun _ => ⟨?_, ?_, ?_, fun k hk => ?_⟩⟩
    · rw [hpow]; exact hstart
    · rw [ht, htherm, if_neg hk]
    · exact ⟨(ht _).trans (hself.trans (h1 h).1), hcool'.trans (h1 h).2, by rw [hthr]; exact hheld h⟩
    · exact ⟨(ht _).trans (hself.trans (h2 h h30).1), hcool'.trans (h2 h h30).2⟩
    · exact ⟨(ht _).trans (hself.trans (h3 h hc).1), hcool'.trans (h3 h hc).2⟩
    · exact ⟨hcool'.trans (h4 h hc).1, (ht _).trans (hself.trans (h4 h hc).2)⟩
    · exact (hobj _ _ (by decide) (d.isLt.trans (by decide))).trans hj
    · exact (hobj _ _ (by decide) (by decide)).trans hin
    · exact (hobj _ _ (by decide) (by decide)).trans hout
    · rw [hobj _ _ (by decide) (hk.trans (by decide)), hshown k hk, ht]
      rw [hpow]

end Sys2Proof.Machine
end

section
/-! PROOFS. Proofs/Energy.lean: jobs and the division of a window's energy (O52). -/

namespace Sys2Proof.Machine

namespace State

theorem job_setJob (s : State) (j k : Nat) (r : JobRecord) : (s.setJob j r).job k = if k = j then r else s.job k := Table.get_set ..

/-- From s to u job records alone have changed. -/
def onlyJobs (s u : State) : Prop := u = { s with pow := { s.pow with jobs := u.pow.jobs } }

theorem foldl_setJob (f : Nat → JobRecord → JobRecord) (l : List Nat) (hl : l.Nodup) (s : State) :
    let u := l.foldl (fun s j => s.setJob j (f j (s.job j))) s
    s.onlyJobs u ∧ ∀ j, u.job j = if j ∈ l then f j (s.job j) else s.job j := by
  induction l generalizing s with
  | nil => exact ⟨rfl, fun j => (if_neg (by simp)).symm⟩
  | cons k l ih =>
    obtain ⟨hk, hl⟩ := List.nodup_cons.mp hl
    obtain ⟨hrest, hjob⟩ := ih hl (s.setJob k (f k (s.job k)))
    refine ⟨hrest.trans rfl, fun j => (hjob j).trans ?_⟩
    rw [job_setJob]
    by_cases hj : j = k
    · subst hj
      simp [hk]
    · simp [hj]

/-- The slots that take from the window that is ending (R636). -/
def taking (s : State) : List Nat := (List.range 64).filter fun j => (s.job j).takes s.pow.energyStart

/-- The slot that an activity counts for, and the modelled energy of a slot (R639). -/
def payer (s : State) (a : Activity) : Nat := if s.taking.contains (s.activityJob a) then s.activityJob a else 64
def modelled (s : State) (volts : List (Die × Nat)) (acts : List Activity) (j : Nat) : Nat :=
  ((acts.filter fun a => s.payer a = j).map (s.eventEnergy volts)).sum
def modelledAll (s : State) (volts : List (Die × Nat)) (acts : List Activity) : Nat := ((s.taking ++ [64]).map (s.modelled volts acts)).sum

/-- The share of a window's energy that a slot is given, and that of the unattributed bucket (R640, R641). -/
def share (s : State) (m : Option Nat) (volts : List (Die × Nat)) (acts : List Activity) (j : Nat) : Nat :=
  match m with
  | some e => if s.modelledAll volts acts = 0 then 0 else e * s.modelled volts acts j / s.modelledAll volts acts
  | none => s.modelled volts acts j / exactPerMicrojoule
def remainder (s : State) (m : Option Nat) (volts : List (Die × Nat)) (acts : List Activity) : Nat :=
  match m with
  | some e => e - (s.taking.map (s.share m volts acts)).sum
  | none => s.share m volts acts 64

/-- A slot's record with its share of a window. -/
def paid (s : State) (m : Option Nat) (volts : List (Die × Nat)) (acts : List Activity) (j : Nat) (r : JobRecord) : JobRecord := { r with
  measured := r.measured + (if j = 64 then s.remainder m volts acts else s.share m volts acts j)
  modelledExact := r.modelledExact + s.modelled volts acts j
  windows := r.windows + 1
  modelled := r.modelled || m.isNone }

/-- The activities counted (R633). -/
def countsFor (s t : State) (a : Activity) : State := t.modPow fun p => { p with
  activity := Table.set 0 p.activity (s.payer a * 16 + a.cls.val) ((Table.get 0 p.activity (s.payer a * 16 + a.cls.val) + a.count) % 2 ^ 64) }
def counted (s : State) (acts : List Activity) : State := acts.foldl s.countsFor s

/-- The window's energy divided, and the next window begun. -/
def divided (s : State) (m : Option Nat) (volts : List (Die × Nat)) (acts : List Activity) : State :=
  ((((s.taking ++ [64]).foldl (fun (t : State) (j : Nat) => t.setJob j (s.paid m volts acts j (t.job j))) (s.counted acts)).advance
    (s.pow.energyStart + 1000000)).modPow fun p => { p with energyStart := s.pow.energyStart + 1000000 }).trimJobs

theorem exec_energyWindowEnd {s : State} (hr : s.pow.rails = true) (m : Option Nat) (volts : List (Die × Nat)) (acts : List Activity) :
    exec (.energyWindowEnd m volts acts) s = .next (match m with
      | some e => (s.divided m volts acts).bump 0x0B 0x302 0 e
      | none => (s.divided m volts acts).powerRecord 0x37 1 0) := by
  refine exec_next rfl ((if_neg (by simp [hr])).trans ?_)
  unfold divided counted countsFor paid remainder share modelledAll modelled payer taking
  cases m with
  | none => rfl
  | some e => rfl

theorem mem_taking (s : State) {j : Nat} : j ∈ s.taking ↔ j < 64 ∧ (s.job j).takes s.pow.energyStart = true := by
  unfold taking
  rw [List.mem_filter, List.mem_range]

theorem slots_nodup (s : State) : (s.taking ++ [64]).Nodup := by
  refine List.Nodup.append (List.Nodup.filter _ List.nodup_range) (List.nodup_singleton 64) fun j hj h64 => ?_
  have := s.mem_taking.mp hj
  have := List.mem_singleton.mp h64
  omega

/-- From s to u the counts of activities alone have changed. -/
def onlyActivity (s u : State) : Prop := u = { s with pow := { s.pow with activity := u.pow.activity } }

theorem onlyActivity.modPow {s t : State} (h : s.onlyActivity t) (g : PowerState → Table Nat) :
    s.onlyActivity (t.modPow fun p => { p with activity := g p }) := by
  rw [onlyActivity, h]
  rfl

theorem onlyActivity.countsFor {s t : State} (h : s.onlyActivity t) (r : State) (a : Activity) : s.onlyActivity (r.countsFor t a) := h.modPow _

theorem onlyActivity_counted (s : State) (acts : List Activity) : s.onlyActivity (s.counted acts) := by
  have hfold (l : List Activity) (t : State) (ht : s.onlyActivity t) : s.onlyActivity (l.foldl s.countsFor t) := by
    induction l generalizing t with
    | nil => exact ht
    | cons a l ih => exact ih _ (ht.countsFor s a)
  exact hfold acts s rfl

/-- The window's energy given to its slots. -/
def given (s : State) (m : Option Nat) (volts : List (Die × Nat)) (acts : List Activity) : State :=
  (s.taking ++ [64]).foldl (fun (t : State) (j : Nat) => t.setJob j (s.paid m volts acts j (t.job j))) (s.counted acts)

theorem given_spec (s : State) (m : Option Nat) (volts : List (Die × Nat)) (acts : List Activity) :
    let t := s.given m volts acts
    t.toDev = s.toDev ∧ t.boot = s.boot ∧ ∀ j, t.job j = if j ∈ s.taking ++ [64] then s.paid m volts acts j (s.job j) else s.job j := by
  have hc := s.onlyActivity_counted acts
  obtain ⟨hrest, hjob⟩ := foldl_setJob (s.paid m volts acts) _ s.slots_nodup (s.counted acts)
  dsimp only
  rw [given]
  generalize (s.taking ++ [64]).foldl _ _ = t at *
  generalize s.counted acts = c at *
  have hjobs (j : Nat) : c.job j = s.job j := by rw [hc]; rfl
  refine ⟨?_, ?_, fun j => ?_⟩
  · rw [hrest, hc]
  · rw [hrest, hc]
  · rw [← hjobs, ← hjob j]

/-- The next window begins at an instant. -/
def beginWindow (s : State) (stop : U64) : State := ((s.advance stop).modPow fun p => { p with energyStart := stop }).trimJobs

theorem beginWindow_spec (s : State) (stop : U64) :
    let u := s.beginWindow stop
    u.pow = { s.pow with energyStart := stop } ∧ u.cmd = { s.cmd with queues := u.cmd.queues, jobs := u.cmd.jobs } ∧ u.boot = s.boot
      ∧ u.objAt 0x0B 0x302 0 = s.objAt 0x0B 0x302 0 := by
  have hadv := s.advance_eq stop
  have hobj := s.objAt_advance stop (b := 0x302) (c := 0) (by decide) (by decide)
  have hpow : (s.advance stop).pow = s.pow := rfl
  unfold beginWindow
  generalize s.advance stop = a at *
  have hcmd : a.cmd = { s.cmd with queues := a.cmd.queues } := by rw [hadv]
  refine ⟨congrArg (fun p : PowerState => { p with energyStart := stop }) hpow, ?_, by rw [hadv]; rfl, hobj⟩
  unfold trimJobs modPow
  dsimp only
  rw [hcmd]

theorem divided_eq (s : State) (m : Option Nat) (volts : List (Die × Nat)) (acts : List Activity) :
    s.divided m volts acts = (s.given m volts acts).beginWindow (s.pow.energyStart + 1000000) := rfl

/-- What the division of a window's energy leaves (R636, R640, R641). -/
theorem divided_spec (s : State) (m : Option Nat) (volts : List (Die × Nat)) (acts : List Activity) :
    let u := s.divided m volts acts
    u.pow.energyStart = s.pow.energyStart + 1000000 ∧ u.cmd = { s.cmd with queues := u.cmd.queues, jobs := u.cmd.jobs } ∧ u.boot = s.boot
      ∧ (∀ j, u.job j = if j ∈ s.taking ++ [64] then s.paid m volts acts j (s.job j) else s.job j)
      ∧ u.objAt 0x0B 0x302 0 = s.objAt 0x0B 0x302 0 := by
  rw [divided_eq]
  obtain ⟨hdev, hboot, hjob⟩ := s.given_spec m volts acts
  generalize s.given m volts acts = t at *
  generalize s.pow.energyStart + 1000000 = stop
  obtain ⟨hpow, hcmd, hboot', hobj⟩ := t.beginWindow_spec stop
  generalize t.beginWindow stop = u at *
  refine ⟨by rw [hpow], by rw [hcmd, hdev], hboot'.trans hboot, fun j => ?_, by rw [hobj, hdev]⟩
  rw [← hjob j]
  unfold State.job
  rw [hpow]

theorem sum_div_le (l : List Nat) (f : Nat → Nat) (n : Nat) : (l.map fun j => f j / n).sum ≤ (l.map f).sum / n := by
  induction l with
  | nil => simp
  | cons j l ih =>
    simp only [List.map_cons, List.sum_cons]
    exact (Nat.add_le_add_left ih _).trans (Nat.div_add_div_le_add_div ..)

/-- The shares of a measured window are no more than it (R640). -/
theorem shares_le (s : State) (e : Nat) (volts : List (Die × Nat)) (acts : List Activity) : (s.taking.map (s.share (some e) volts acts)).sum ≤ e := by
  have hshare : s.share (some e) volts acts = fun j =>
    if s.modelledAll volts acts = 0 then 0 else e * s.modelled volts acts j / s.modelledAll volts acts := rfl
  rw [hshare]
  by_cases h0 : s.modelledAll volts acts = 0
  · simp [h0]
  · have hle : (s.taking.map (s.modelled volts acts)).sum ≤ s.modelledAll volts acts := by
      unfold modelledAll
      simp
    simp only [h0, if_false]
    refine (sum_div_le _ (fun j => e * s.modelled volts acts j) _).trans ?_
    rw [List.sum_map_mul_left]
    exact Nat.div_le_of_le_mul (by rw [Nat.mul_comm _ e]; exact Nat.mul_le_mul_left e hle)

/-- None of a measured window's energy is lost (R640). -/
theorem paid_sum (s : State) (e : Nat) (volts : List (Die × Nat)) (acts : List Activity) :
    ((s.taking ++ [64]).map fun j => (s.paid (some e) volts acts j (s.job j)).measured).sum = ((s.taking ++ [64]).map fun j => (s.job j).measured).sum + e := by
  have hle := s.shares_le e volts acts
  have htake : (s.taking.map fun j => (s.paid (some e) volts acts j (s.job j)).measured).sum
      = (s.taking.map fun j => (s.job j).measured).sum + (s.taking.map (s.share (some e) volts acts)).sum := by
    rw [← List.sum_map_add]
    refine congrArg List.sum (List.map_congr_left fun j hj => ?_)
    have hne : j ≠ 64 := by have := s.mem_taking.mp hj; omega
    simp [paid, hne]
  rw [List.map_append, List.sum_append, List.map_append, List.sum_append, htake]
  simp only [List.map_cons, List.map_nil, List.sum_singleton, paid, if_true, remainder]
  omega

theorem recorded_powerRecord (s : State) (kind count detail : Nat) : s.recorded (s.powerRecord kind count detail) :=
  .of_step (Dev.reportStep.report s.toDev 19 _) rfl

end State

/-- A command that puts one job record. -/
theorem puts_job {c : Instr} {s : State} {j : Nat} {r : JobRecord} (h : exec c s = .next (s.setJob j r)) : ∃ u, exec c s = .next u
    ∧ ((∀ k, k ≠ j → u.job k = s.job k) ∧ u = { s with pow := { s.pow with jobs := u.pow.jobs } }) ∧ u.job j = r :=
  ⟨_, h, ⟨fun _ hk => (s.job_setJob ..).trans (if_neg hk), rfl⟩, (s.job_setJob ..).trans (if_pos rfl)⟩

/-- Opening and closing of jobs (R636). -/
theorem jobs_spec (v : Byte) (s : State) :
    let j := v.toNat
    let only (u : State) : Prop := (∀ k, k ≠ j → u.job k = s.job k) ∧ u = { s with pow := { s.pow with jobs := u.pow.jobs } }
    ((64 ≤ j ∨ (s.job j).isOpen = true) → exec (.jobOpen v) s = .next s) ∧
    (j < 64 → (s.job j).isOpen = false → ∃ u, exec (.jobOpen v) s = .next u ∧ only u
      ∧ u.job j = { isOpen := true, tOpen := s.pow.energyStart + 1000000 }) ∧
    ((64 ≤ j ∨ (s.job j).isOpen = false) → exec (.jobClose v) s = .next s) ∧
    (j < 64 → (s.job j).isOpen = true → ∃ u, exec (.jobClose v) s = .next u ∧ only u
      ∧ u.job j = { s.job j with isOpen := false, tClose := s.pow.energyStart + 1000000 }) := by
  dsimp only
  refine ⟨fun h => ?_, fun hlt hno => ?_, fun h => ?_, fun hlt ho => ?_⟩
  · exact exec_next rfl (congrArg Prod.fst (if_pos (by simpa using h)))
  · exact puts_job (exec_next rfl (congrArg Prod.fst (if_neg (by simp [hlt, hno]))))
  · exact exec_next rfl (if_pos (by simpa using h))
  · exact puts_job (exec_next rfl (if_neg (by simp [hlt, ho])))

/-- The end of a window: what it divides, and that a measured one is divided whole (R633, R639 to R641). -/
theorem energyWindowEnd_spec (m : Option Nat) (volts : List (Die × Nat)) (acts : List Activity) (s : State) (hr : s.pow.rails = true) :
    ∃ u, exec (.energyWindowEnd m volts acts) s = .next u ∧ u.pow = (s.divided m volts acts).pow ∧ u.cmd = (s.divided m volts acts).cmd
      ∧ u.boot = (s.divided m volts acts).boot ∧ ∀ e, m = some e → u.objAt 0x0B 0x302 0 = ((s.divided m volts acts).objAt 0x0B 0x302 0 + e) % 2 ^ 64 := by
  refine ⟨_, State.exec_energyWindowEnd hr m volts acts, ?_⟩
  generalize s.divided m volts acts = d
  cases m with
  | none =>
    have hrec := d.recorded_powerRecord 0x37 1 0
    exact ⟨rfl, hrec.cmd, rfl, nofun⟩
  | some e =>
    refine ⟨rfl, rfl, rfl, fun e' he => ?_⟩
    cases he
    exact Dev.objAt_bump_self d.toDev e (by decide) (by decide)

end Sys2Proof.Machine
end

section
/-! PROOFS. Proofs/Ripening.lean: ripening checks (O52). -/

namespace Sys2Proof.Machine

namespace State

/-- The trim of a die in millivolts. -/
def trim (s : State) (d : Nat) : Nat := Table.get 0 s.pow.trims d

/-- From s to u dies have been checked: no trim has fallen, and each has risen in steps of 5 mV up to 40 mV (R645). -/
structure ripens (s u : State) : Prop where
  asked : u.pow.ripenAsked = s.pow.ripenAsked
  cmd : u.cmd = s.cmd
  rises : ∀ d, s.trim d ≤ u.trim d
  grid : ∀ d, s.trim d % 5 = 0 ∧ s.trim d ≤ 40 → u.trim d % 5 = 0 ∧ u.trim d ≤ 40

namespace ripens

variable {s t u : State}

theorem trans (h1 : s.ripens t) (h2 : t.ripens u) : s.ripens u where
  asked := h2.asked.trans h1.asked
  cmd := h2.cmd.trans h1.cmd
  rises d := (h1.rises d).trans (h2.rises d)
  grid d h := h2.grid d (h1.grid d h)

/-- Nothing of the trims has changed. -/
theorem of_same (ha : t.pow.ripenAsked = s.pow.ripenAsked) (hc : t.cmd = s.cmd) (ht : t.pow.trims = s.pow.trims) : s.ripens t where
  asked := ha
  cmd := hc
  rises d := (congrArg (Table.get 0 · d) ht).ge
  grid d h := by rw [show t.trim d = s.trim d from congrArg (Table.get 0 · d) ht]; exact h

theorem refl (s : State) : s.ripens s := of_same rfl rfl rfl

theorem of_recorded (h : s.recorded t) : s.ripens t := of_same (by rw [h.pow]) h.cmd (by rw [h.pow])

/-- A trim below 40 mV rises by 5 mV. -/
theorem raise {d : Nat} (ha : t.pow.ripenAsked = s.pow.ripenAsked) (hc : t.cmd = s.cmd) (hlt : s.trim d < 40)
    (ht : t.pow.trims = Table.set 0 s.pow.trims d (s.trim d + 5)) : s.ripens t := by
  have htrim (k : Nat) : t.trim k = if k = d then s.trim d + 5 else s.trim k := by
    unfold trim
    rw [ht, Table.get_set]
    rfl
  refine ⟨ha, hc, fun k => ?_, fun k h => ?_⟩
  · rw [htrim]
    split
    · next hk => rw [hk]; omega
    · exact le_rfl
  · rw [htrim]
    split
    · next hk => rw [hk] at h; omega
    · exact h

end ripens

/-- A rate measured and shown. -/
def measured (s : State) (d r : Nat) : State := (s.modPow fun p => { p with rates := Table.set 0 p.rates d r }).setObjAt 0x0B 0x801 d r

/-- A trim raised, and the rail voltage with it (R645, R646). -/
def raised (s : State) (d : Nat) : State :=
  let t := (s.modPow fun p => { p with trims := Table.set 0 p.trims d (s.trim d + 5) }).setObjAt 0x0B 0x800 d (s.trim d + 5)
  t.setOp d (t.objAt 0x0B 0x202 d)

/-- A die named worn (R645). -/
def wornOut (s : State) (d : Nat) : State :=
  let t := s.modPow fun p => { p with worn := Nat.lor p.worn (2 ^ d) }
  t.setObjAt 0x0B 0x804 0 t.pow.worn

theorem ripenRates_cons (s : State) (d r : Nat) (rs : List Nat) : s.ripenRates d (r :: rs) =
    if r < (s.measured d r).objAt 0x0B 0x805 0 && s.trim d < 40 then
      (((s.measured d r).raised d).powerRecord 0x35 0 (d + (s.trim d + 5) * 2 ^ 8 + r * 2 ^ 32)).ripenRates d rs
    else if r < 1900000 && s.trim d = 40 then
      ((s.measured d r).wornOut d).powerRecord 0x36 0 (d + s.trim d * 2 ^ 8 + r * 2 ^ 32)
    else s.measured d r := rfl

theorem ripens_measured (s : State) (d r : Nat) : s.ripens (s.measured d r) := .of_same rfl rfl rfl
theorem ripens_wornOut (s : State) (d : Nat) : s.ripens (s.wornOut d) := .of_same rfl rfl rfl
theorem ripens_raised {s : State} {d : Nat} (h : s.trim d < 40) : s.ripens (s.raised d) := .raise rfl rfl h rfl
theorem ripens_modPow (s : State) {f : PowerState → PowerState} (ha : (f s.pow).ripenAsked = s.pow.ripenAsked)
    (ht : (f s.pow).trims = s.pow.trims) : s.ripens (s.modPow f) := .of_same ha rfl ht

theorem ripens_ripenRates (s : State) (d : Nat) (rs : List Nat) : s.ripens (s.ripenRates d rs) := by
  induction rs generalizing s with
  | nil => exact .refl s
  | cons r rs ih =>
    have hm := s.ripens_measured d r
    rw [ripenRates_cons]
    split
    · next h =>
      have hlt : (s.measured d r).trim d < 40 := by
        simp only [Bool.and_eq_true, decide_eq_true_eq] at h
        exact h.2
      exact hm.trans ((ripens_raised hlt).trans ((ripens.of_recorded (recorded_powerRecord ..)).trans (ih _)))
    · split
      · exact hm.trans ((ripens_wornOut ..).trans (.of_recorded (recorded_powerRecord ..)))
      · exact hm

theorem ripens_ripenDie (s : State) (r : RipenReading) : s.ripens (s.ripenDie r).1 := by
  unfold ripenDie
  dsimp only
  split
  · exact .refl s
  · split
    · dsimp only
      exact s.ripens_modPow rfl rfl
    · dsimp only
      exact (s.ripens_modPow rfl rfl).trans (ripens_ripenRates ..)

theorem ripens_foldl (l : List RipenReading) (acc : State × Bool) :
    acc.1.ripens (l.foldl (fun acc r => ((acc.1.ripenDie r).1, acc.2 || (acc.1.ripenDie r).2)) acc).1 := by
  induction l generalizing acc with
  | nil => exact .refl _
  | cons r l ih => exact (acc.1.ripens_ripenDie r).trans (ih ((acc.1.ripenDie r).1, acc.2 || (acc.1.ripenDie r).2))

theorem ripens_writeRipen (s : State) : s.ripens s.writeRipen := by
  unfold writeRipen
  split
  · exact .refl s
  · exact .of_same rfl rfl rfl

/-- The readings of a check taken in turn, with whether a die was checked. -/
def readAll (s : State) (l : List RipenReading) : State × Bool :=
  l.foldl (fun acc r => ((acc.1.ripenDie r).1, acc.2 || (acc.1.ripenDie r).2)) (s, false)

theorem ripen_of_calm {s : State} (h : s.pow.warning = false) (l : List RipenReading) : s.ripen l =
    if (s.readAll l).2 then ((s.readAll l).1.modPow fun p => { p with checks := p.checks + 1 }).writeRipen else (s.readAll l).1 :=
  if_neg (by simp [h])

theorem ripens_ripen (s : State) (l : List RipenReading) : s.ripens (s.ripen l) := by
  cases hw : s.pow.warning with
  | true =>
    rw [show s.ripen l = _ from if_pos hw]
    exact .of_same rfl rfl rfl
  | false =>
    have hread : s.ripens (s.readAll l).1 := ripens_foldl l (s, false)
    rw [ripen_of_calm hw]
    split
    · exact hread.trans ((ripens_modPow _ rfl rfl).trans (ripens_writeRipen _))
    · exact hread

/-- What one measured rate of a die leaves (R645, R646). -/
structure rated (s u : State) (d x : Nat) : Prop where
  pow : u.pow = { s.pow with rates := u.pow.rates, trims := u.pow.trims, worn := u.pow.worn }
  boot : u.boot = s.boot
  rate : Table.get 0 u.pow.rates d = x
  low : x < s.objAt 0x0B 0x805 0 → s.trim d < 40 → u.trim d = s.trim d + 5 ∧ u.pow.worn = s.pow.worn
    ∧ u.objAt 0x0B 0x204 d = opVoltage (s.objAt 0x0B 0x202 d) + u.trim d
  worn : x < 1900000 → s.trim d = 40 → u.trim d = 40 ∧ bit u.pow.worn d = true
  good : 1900000 ≤ x → s.objAt 0x0B 0x805 0 ≤ x → u.trim d = s.trim d ∧ u.pow.worn = s.pow.worn

theorem objAt_measured (s : State) {d : Nat} (x : Nat) {b c : Nat} (hd : d < 256) (hb : b < 65536) (hc : c < 256) (hne : b ≠ 0x801) :
    (s.measured d x).objAt 0x0B b c = s.objAt 0x0B b c :=
  (Dev.objAt_setObjAt _ _ _ _ _ _ _ _ hd hc (by decide) hb).trans (if_neg fun e => hne e.2.1)

theorem measured_rate (s : State) (d x : Nat) : Table.get 0 (s.measured d x).pow.rates d = x := Table.get_set_same ..

theorem raised_spec (s : State) {d : Nat} (hd : d < 256) : (s.raised d).trim d = s.trim d + 5 ∧ (s.raised d).pow = { s.pow with trims := (s.raised d).pow.trims }
    ∧ (s.raised d).objAt 0x0B 0x204 d = opVoltage (s.objAt 0x0B 0x202 d) + (s.raised d).trim d := by
  refine ⟨Table.get_set_same 0 s.pow.trims d (s.trim d + 5), rfl, ?_⟩
  unfold raised
  dsimp only
  have hop : ((s.modPow fun p => { p with trims := Table.set 0 p.trims d (s.trim d + 5) }).setObjAt 0x0B 0x800 d (s.trim d + 5)).objAt 0x0B 0x202 d
      = s.objAt 0x0B 0x202 d := (Dev.objAt_setObjAt _ _ _ _ _ _ _ _ hd hd (by decide) (by decide)).trans (if_neg (by simp))
  rw [hop]
  exact (op_setOp _ _ hd hd).2.trans (if_pos rfl)

theorem bit_lor_self (n d : Nat) : bit (Nat.lor n (2 ^ d)) d = true := by
  unfold bit
  rw [show Nat.lor n (2 ^ d) = n ||| 2 ^ d from rfl, Nat.testBit_lor, Nat.testBit_two_pow_self, Bool.or_true]

theorem rated_ripenRates (s : State) {d : Nat} (hd : d < 256) (x : Nat) : s.rated (s.ripenRates d [x]) d x := by
  have hguard := s.objAt_measured x hd (b := 0x805) (c := 0) (by decide) (by decide) (by decide)
  have hop := s.objAt_measured x hd (b := 0x202) (c := d) (by decide) hd (by decide)
  have hrate := s.measured_rate d x
  have hpow : (s.measured d x).pow = { s.pow with rates := (s.measured d x).pow.rates } := rfl
  have hboot : (s.measured d x).boot = s.boot := rfl
  rw [ripenRates_cons, hguard]
  generalize s.measured d x = m at *
  have htrim : m.trim d = s.trim d := by unfold trim; rw [hpow]
  split
  · next h =>
    simp only [Bool.and_eq_true, decide_eq_true_eq] at h
    obtain ⟨hup, hrest, hvolt⟩ := m.raised_spec hd
    have hb : (m.raised d).boot = m.boot := rfl
    generalize m.raised d = r at *
    have hrec := r.recorded_powerRecord 0x35 0 (d + (s.trim d + 5) * 2 ^ 8 + x * 2 ^ 32)
    have hrp : (r.powerRecord 0x35 0 (d + (s.trim d + 5) * 2 ^ 8 + x * 2 ^ 32)).pow = r.pow := rfl
    have hrt : (r.powerRecord 0x35 0 (d + (s.trim d + 5) * 2 ^ 8 + x * 2 ^ 32)).trim d = r.trim d := rfl
    rw [ripenRates]
    generalize r.powerRecord 0x35 0 (d + (s.trim d + 5) * 2 ^ 8 + x * 2 ^ 32) = u at *
    exact { pow := by rw [hrp, hrest, hpow]
            boot := hrec.boot.trans (hb.trans hboot)
            rate := by rw [hrp, hrest]; exact hrate
            low := fun _ _ => ⟨by rw [hrt, hup, htrim], by rw [hrp, hrest, hpow],
              by rw [hrec.objAt _ _ (by decide) hd, hvolt, hop, hrt]⟩
            worn := fun _ h40 => by omega
            good := fun _ h2 => by omega }
  · next hA =>
    simp only [Bool.and_eq_true, decide_eq_true_eq] at hA
    split
    · next h =>
      simp only [Bool.and_eq_true, decide_eq_true_eq] at h
      have hw : (m.wornOut d).pow = { m.pow with worn := Nat.lor m.pow.worn (2 ^ d) } := rfl
      have hb : (m.wornOut d).boot = m.boot := rfl
      generalize m.wornOut d = r at *
      have hrec := r.recorded_powerRecord 0x36 0 (d + s.trim d * 2 ^ 8 + x * 2 ^ 32)
      have hrp : (r.powerRecord 0x36 0 (d + s.trim d * 2 ^ 8 + x * 2 ^ 32)).pow = r.pow := rfl
      generalize r.powerRecord 0x36 0 (d + s.trim d * 2 ^ 8 + x * 2 ^ 32) = u at *
      have hut : u.trim d = s.trim d := by rw [← htrim]; unfold trim; rw [hrp, hw]
      exact { pow := by rw [hrp, hw, hpow]
              boot := hrec.boot.trans (hb.trans hboot)
              rate := by rw [hrp, hw]; exact hrate
              low := fun h1 h2 => absurd ⟨h1, h2⟩ hA
              worn := fun _ _ => ⟨hut.trans h.2, by rw [hrp, hw]; exact bit_lor_self ..⟩
              good := fun h1 _ => by omega }
    · next h =>
      simp only [Bool.and_eq_true, decide_eq_true_eq] at h
      exact { pow := by rw [hpow]
              boot := hboot
              rate := hrate
              low := fun h1 h2 => absurd ⟨h1, h2⟩ hA
              worn := fun h1 h2 => absurd ⟨h1, h2⟩ h
              good := fun _ _ => ⟨htrim, by rw [hpow]⟩ }

/-- A die can be checked: its ceiling and its junction are in their ranges (R645). -/
def checkable (s : State) (d : Nat) : Prop :=
  5 ≤ s.pow.ceil d ∧ 400 ≤ intOf 16 (s.objAt 0x0B 0x700 d) ∧ intOf 16 (s.objAt 0x0B 0x700 d) ≤ 900

/-- From s to u dies other than d have been put off. -/
structure postpones (d : Die) (s u : State) : Prop where
  rest : u = { s with pow := { s.pow with postponed := u.pow.postponed } }
  mine : ∀ t, (d, t) ∈ u.pow.postponed ↔ (d, t) ∈ s.pow.postponed

theorem postpones.refl (d : Die) (s : State) : postpones d s s := ⟨rfl, fun _ => .rfl⟩

theorem postpones.trans {d : Die} {s t u : State} (h1 : postpones d s t) (h2 : postpones d t u) : postpones d s u :=
  ⟨by rw [h2.rest, h1.rest], fun x => (h2.mine x).trans (h1.mine x)⟩

/-- A die without a rate is put off (log entry 56). -/
theorem ripenDie_other (s : State) {d e : Die} (hne : e ≠ d) : postpones d s (s.ripenDie ⟨e, []⟩).1 ∧ (s.ripenDie ⟨e, []⟩).2 = false := by
  unfold ripenDie
  dsimp only
  split
  · exact ⟨.refl d s, rfl⟩
  · rw [if_pos (by simp)]
    refine ⟨⟨rfl, fun t => ?_⟩, rfl⟩
    unfold modPow
    simp only [List.mem_append, List.mem_filter, List.mem_singleton, Prod.mk.injEq, decide_eq_true_eq]
    exact ⟨fun h => h.elim And.left fun h => absurd h.1.symm hne, fun h => .inl ⟨h, fun he => hne he.symm⟩⟩

theorem readOthers {d : Die} (l : List Die) (hl : ∀ e ∈ l, e ≠ d) (acc : State × Bool) :
    let r := (l.map fun e => (⟨e, []⟩ : RipenReading)).foldl (fun acc r => ((acc.1.ripenDie r).1, acc.2 || (acc.1.ripenDie r).2)) acc
    postpones d acc.1 r.1 ∧ r.2 = acc.2 := by
  induction l generalizing acc with
  | nil => exact ⟨.refl d _, rfl⟩
  | cons e l ih =>
    obtain ⟨hp, hf⟩ := acc.1.ripenDie_other (hl e (List.mem_cons_self ..))
    obtain ⟨hp2, hf2⟩ := ih (fun e he => hl e (List.mem_cons_of_mem _ he)) ((acc.1.ripenDie ⟨e, []⟩).1, acc.2 || (acc.1.ripenDie ⟨e, []⟩).2)
    exact ⟨hp.trans hp2, hf2.trans (by rw [hf, Bool.or_false])⟩

theorem ripenDie_unready {s : State} {d : Die} (x : Nat) (hin : s.inService d.val = true) (h : ¬s.checkable d.val) : s.ripenDie ⟨d, [x]⟩ =
    (s.modPow (fun p => { p with postponed := p.postponed.filter (fun y => y.1 ≠ d) ++ [(d, s.now + 3600000000000)] }), false) := by
  unfold ripenDie
  dsimp only
  rw [if_neg (by simp [hin]), if_pos]
  unfold checkable at h
  simp only [Bool.or_eq_true, decide_eq_true_eq, List.isEmpty_cons, Bool.false_eq_true, or_false]
  omega

theorem ripenDie_ready {s : State} {d : Die} (x : Nat) (hin : s.inService d.val = true) (h : s.checkable d.val) : s.ripenDie ⟨d, [x]⟩ =
    ((s.modPow (fun p => { p with postponed := p.postponed.filter (fun y => y.1 ≠ d) })).ripenRates d.val [x], true) := by
  unfold ripenDie
  dsimp only
  rw [if_neg (by simp [hin]), if_neg]
  unfold checkable at h
  simp only [Bool.or_eq_true, decide_eq_true_eq, List.isEmpty_cons, Bool.false_eq_true, or_false]
  omega

/-- The readings of one die with a rate, among those of dies without one. -/
def alone (d : Die) (x : Nat) (l1 l2 : List Die) : List RipenReading :=
  l1.map (fun e => ⟨e, []⟩) ++ ⟨d, [x]⟩ :: l2.map fun e => ⟨e, []⟩

theorem readAll_alone (s : State) {d : Die} (x : Nat) {l1 l2 : List Die} (h1 : ∀ e ∈ l1, e ≠ d) (h2 : ∀ e ∈ l2, e ≠ d) :
    ∃ t, postpones d s t ∧ postpones d (t.ripenDie ⟨d, [x]⟩).1 (s.readAll (alone d x l1 l2)).1
      ∧ (s.readAll (alone d x l1 l2)).2 = (t.ripenDie ⟨d, [x]⟩).2 := by
  unfold readAll alone
  rw [List.foldl_append, List.foldl_cons]
  obtain ⟨hp, hf⟩ := readOthers l1 h1 (s, false)
  generalize (l1.map fun e => (⟨e, []⟩ : RipenReading)).foldl _ (s, false) = r at *
  obtain ⟨hp2, hf2⟩ := readOthers l2 h2 ((r.1.ripenDie ⟨d, [x]⟩).1, r.2 || (r.1.ripenDie ⟨d, [x]⟩).2)
  exact ⟨r.1, hp, hp2, hf2.trans (by rw [hf, Bool.false_or])⟩

/-- What the check of one die at rate x leaves (R645 to R649). -/
structure checked (s u : State) (d : Die) (x : Nat) : Prop where
  unready : ¬s.checkable d.val → u.pow.trims = s.pow.trims ∧ u.pow.checks = s.pow.checks ∧ u.pow.ripenSeq = s.pow.ripenSeq
    ∧ (d, s.now + 3600000000000) ∈ u.pow.postponed
  counted : s.checkable d.val → u.pow.checks = s.pow.checks + 1 ∧ Table.get 0 u.pow.rates d.val = x ∧ (∀ y ∈ u.pow.postponed, y.1 ≠ d)
    ∧ ∀ k, s.boot.secret = some k → u.pow.ripenSeq = s.pow.ripenSeq + 1 ∧ u.pow.ripenCopy = 1 - s.pow.ripenCopy
  low : s.checkable d.val → x < s.objAt 0x0B 0x805 0 → s.trim d.val < 40 → u.trim d.val = s.trim d.val + 5 ∧ u.pow.worn = s.pow.worn
    ∧ u.objAt 0x0B 0x204 d.val = opVoltage (s.objAt 0x0B 0x202 d.val) + u.trim d.val
  worn : s.checkable d.val → x < 1900000 → s.trim d.val = 40 → u.trim d.val = 40 ∧ bit u.pow.worn d.val = true
  good : s.checkable d.val → 1900000 ≤ x → s.objAt 0x0B 0x805 0 ≤ x → u.trim d.val = s.trim d.val ∧ u.pow.worn = s.pow.worn

/-- The ripening record that a check leaves (R649). -/
structure recordWritten (s u : State) : Prop where
  pow : u.pow = { s.pow with ripenSeq := u.pow.ripenSeq, ripenCopy := u.pow.ripenCopy }
  obj : u.obj = s.obj
  seq : ∀ k, s.boot.secret = some k → u.pow.ripenSeq = s.pow.ripenSeq + 1 ∧ u.pow.ripenCopy = 1 - s.pow.ripenCopy

theorem recordWritten_writeRipen (s : State) : s.recordWritten s.writeRipen := by
  unfold writeRipen
  split
  · next h => exact ⟨rfl, rfl, fun k hk => absurd (h.symm.trans hk) nofun⟩
  · exact ⟨rfl, rfl, fun _ _ => ⟨rfl, rfl⟩⟩

theorem checkable_of_postpones {d : Die} {s t : State} (h : postpones d s t) (k : Nat) : t.checkable k ↔ s.checkable k := by
  rw [h.rest]
  exact .rfl

theorem checked_unready {s t w : State} {d : Die} {x : Nat} (hin : s.inService d.val = true) (hr : ¬s.checkable d.val)
    (h1 : postpones d s t) (h2 : postpones d (t.ripenDie ⟨d, [x]⟩).1 w) : s.checked w d x := by
  have hin' : t.inService d.val = true := by rw [h1.rest]; exact hin
  rw [ripenDie_unready x hin' (mt (checkable_of_postpones h1 _).mp hr)] at h2
  refine ⟨fun _ => ⟨?_, ?_, ?_, ?_⟩, fun h => absurd h hr, fun h => absurd h hr, fun h => absurd h hr, fun h => absurd h hr⟩
  · rw [h2.rest, h1.rest]; rfl
  · rw [h2.rest, h1.rest]; rfl
  · rw [h2.rest, h1.rest]; rfl
  · rw [h2.mine, show s.now = t.now by rw [h1.rest]]
    exact List.mem_append_right _ (List.mem_singleton.mpr rfl)

/-- What is left once the die is rated, the other dies are put off and the record is written. -/
theorem checked_of_rated {s p v w u : State} {d : Die} {x : Nat} (hr : s.checkable d.val)
    (hp : p = { s with pow := { s.pow with postponed := p.pow.postponed } }) (hpost : ∀ y ∈ p.pow.postponed, y.1 ≠ d) (hv : p.rated v d.val x)
    (hw : postpones d v w) (hu : (w.modPow fun p => { p with checks := p.checks + 1 }).recordWritten u) : s.checked u d x := by
  obtain ⟨hvp, hvb, hrate, hlow, hworn, hgood⟩ := hv
  obtain ⟨hup, huo, hseq⟩ := hu
  have hwp : w.pow = { v.pow with postponed := w.pow.postponed } := congrArg State.pow hw.rest
  have hwv : w.obj = v.obj ∧ w.boot = v.boot := by rw [hw.rest]; exact ⟨rfl, rfl⟩
  have hsp : p.pow = { s.pow with postponed := p.pow.postponed } := congrArg State.pow hp
  have hso : p.objAt = s.objAt ∧ p.boot = s.boot := by rw [hp]; exact ⟨rfl, rfl⟩
  have hpow : u.pow = { s.pow with rates := v.pow.rates, trims := v.pow.trims, worn := v.pow.worn, postponed := w.pow.postponed,
                                   checks := s.pow.checks + 1, ripenSeq := u.pow.ripenSeq, ripenCopy := u.pow.ripenCopy } := by
    rw [hup]
    unfold modPow
    dsimp only
    rw [hwp, hvp, hsp]
  have htrim : u.trim d.val = v.trim d.val := by unfold trim; rw [hpow]
  have hstrim : p.trim d.val = s.trim d.val := by unfold trim; rw [hsp]
  have hobj : u.objAt = v.objAt := by
    funext a b c
    unfold Dev.objAt Dev.obj!
    rw [huo, show (w.modPow fun p => { p with checks := p.checks + 1 }).obj = w.obj from rfl, hwv.1]
  have hboot : (w.modPow fun p => { p with checks := p.checks + 1 }).boot = s.boot := hwv.2.trans (hvb.trans hso.2)
  have hwseq : (w.modPow fun p => { p with checks := p.checks + 1 }).pow.ripenSeq = s.pow.ripenSeq
      ∧ (w.modPow fun p => { p with checks := p.checks + 1 }).pow.ripenCopy = s.pow.ripenCopy := by
    unfold modPow
    dsimp only
    rw [hwp, hvp, hsp]
    exact ⟨rfl, rfl⟩
  rw [hso.1, hstrim] at hlow
  rw [hstrim] at hworn
  rw [hso.1, hstrim] at hgood
  have hsw : p.pow.worn = s.pow.worn := by rw [hsp]
  have huw : u.pow.worn = v.pow.worn := by rw [hpow]
  refine ⟨fun h => absurd hr h, fun _ => ⟨by rw [hpow], by rw [hpow]; exact hrate, fun y hy => ?_, fun k hk => ?_⟩, fun _ h1 h2 => ?_,
    fun _ h1 h2 => ?_, fun _ h1 h2 => ?_⟩
  · rw [hpow] at hy
    rintro rfl
    exact hpost y (by have := (hw.mine y.2).mp hy; rw [hvp] at this; exact this) rfl
  · rw [← hwseq.1, ← hwseq.2]
    exact hseq k (by rw [hboot]; exact hk)
  · obtain ⟨ht, hwo, hvo⟩ := hlow h1 h2
    exact ⟨htrim.trans ht, huw.trans (hwo.trans hsw), by rw [hobj, htrim]; exact hvo⟩
  · obtain ⟨ht, hwo⟩ := hworn h1 h2
    exact ⟨htrim.trans ht, by rw [huw]; exact hwo⟩
  · obtain ⟨ht, hwo⟩ := hgood h1 h2
    exact ⟨htrim.trans ht, huw.trans (hwo.trans hsw)⟩

theorem checked_ready {s t w u : State} {d : Die} {x : Nat} (hin : s.inService d.val = true) (hr : s.checkable d.val)
    (h1 : postpones d s t) (h2 : postpones d (t.ripenDie ⟨d, [x]⟩).1 w)
    (h3 : (w.modPow fun p => { p with checks := p.checks + 1 }).recordWritten u) : s.checked u d x := by
  have hin' : t.inService d.val = true := by rw [h1.rest]; exact hin
  rw [ripenDie_ready x hin' ((checkable_of_postpones h1 _).mpr hr)] at h2
  refine checked_of_rated hr ?_ (fun y hy => ?_) (rated_ripenRates _ (d.isLt.trans (by decide)) x) h2 h3
  · rw [h1.rest]
    rfl
  · have := (List.mem_filter.mp hy).2
    simpa using this

/-- The check of one die with a rate, among those of dies without one (R645 to R649). -/
theorem checked_ripen {s : State} {d : Die} (x : Nat) {l1 l2 : List Die} (h1 : ∀ e ∈ l1, e ≠ d) (h2 : ∀ e ∈ l2, e ≠ d)
    (hw : s.pow.warning = false) (hin : s.inService d.val = true) : s.checked (s.ripen (alone d x l1 l2)) d x := by
  obtain ⟨t, ht, hread, hany⟩ := s.readAll_alone x h1 h2
  have hin' : t.inService d.val = true := by rw [ht.rest]; exact hin
  rw [ripen_of_calm hw]
  by_cases hr : s.checkable d.val
  · rw [if_pos (by rw [hany, ripenDie_ready x hin' ((checkable_of_postpones ht _).mpr hr)])]
    exact checked_ready hin hr ht hread (recordWritten_writeRipen _)
  · rw [if_neg (by rw [hany, ripenDie_unready x hin' (mt (checkable_of_postpones ht _).mp hr)]; simp)]
    exact checked_unready hin hr ht hread

end State
theorem everyDie_alone (d : Die) (x : Nat) : ∃ l1 l2, everyDie [⟨d, [x]⟩] = State.alone d x l1 l2 ∧ (∀ e ∈ l1, e ≠ d) ∧ ∀ e ∈ l2, e ≠ d := by
  obtain ⟨l1, l2, hl⟩ := List.append_of_mem (List.mem_finRange d)
  have hnodup := List.nodup_finRange 20
  rw [hl] at hnodup
  have h1 : ∀ e ∈ l1, e ≠ d := fun e he hed => (List.nodup_append.mp hnodup).2.2 e he d (List.mem_cons_self ..) hed
  have h2 : ∀ e ∈ l2, e ≠ d := fun e he hed => (List.nodup_cons.mp (List.nodup_append.mp hnodup).2.1).1 (hed ▸ he)
  have hother (l : List Die) (h : ∀ e ∈ l, e ≠ d) :
      l.map (fun e => ([⟨d, [x]⟩].find? fun r : RipenReading => r.die = e).getD { die := e, rates := [] }) = l.map fun e => ⟨e, []⟩ :=
    List.map_congr_left fun e he => by simp [(h e he).symm]
  refine ⟨l1, l2, ?_, h1, h2⟩
  unfold everyDie State.alone
  rw [hl, List.map_append, List.map_cons, hother l1 h1, hother l2 h2]
  simp

/-- The check's outcome in the words of R645 to R649. -/
theorem State.checked.spec {s u : State} {d : Die} {x : Nat} (h : s.checked u d x) :
    (¬s.checkable d.val → u.pow.trims = s.pow.trims ∧ u.pow.checks = s.pow.checks ∧ u.pow.ripenSeq = s.pow.ripenSeq
       ∧ (d, s.now + 3600000000000) ∈ u.pow.postponed) ∧
    (s.checkable d.val → u.pow.checks = s.pow.checks + 1 ∧ Table.get 0 u.pow.rates d.val = x ∧ (∀ y ∈ u.pow.postponed, y.1 ≠ d) ∧
       (∀ k, s.boot.secret = some k → u.pow.ripenSeq = s.pow.ripenSeq + 1 ∧ u.pow.ripenCopy = 1 - s.pow.ripenCopy) ∧
       (x < s.objAt 0x0B 0x805 0 → s.trim d.val < 40 → u.trim d.val = s.trim d.val + 5 ∧ u.pow.worn = s.pow.worn
         ∧ u.objAt 0x0B 0x204 d.val = opVoltage (s.objAt 0x0B 0x202 d.val) + u.trim d.val) ∧
       (x < 1900000 → s.trim d.val = 40 → u.trim d.val = 40 ∧ bit u.pow.worn d.val = true) ∧
       (1900000 ≤ x → s.objAt 0x0B 0x805 0 ≤ x → u.trim d.val = s.trim d.val ∧ u.pow.worn = s.pow.worn)) :=
  ⟨h.unready, fun r => ⟨(h.counted r).1, (h.counted r).2.1, (h.counted r).2.2.1, (h.counted r).2.2.2, h.low r, h.worn r, h.good r⟩⟩

theorem exec_ripenCheck_on {l : List RipenReading} {s : State} (hr : s.pow.rails = true) :
    exec (.ripenCheck l) s = .next ((s.modPow fun p => { p with ripenAsked := false }).ripen (everyDie l)) := exec_next rfl (if_pos hr)

/-- The time that a check comes due: ripen_interval_h hours since the last (R644). -/
theorem exec_ripenInterval_due {t : Instant} {l : List RipenReading} {s : State} (hr : s.pow.rails = true) (ha : s.pow.ripenAsked = false)
    (hdue : s.pow.ripenSince.toNat + s.objAt 0x0B 0x802 0 * 3600000000000 ≤ (s.advance t).now.toNat) :
    exec (.ripenInterval t l) s = exec (.ripenCheck l) ((s.advance t).modPow fun p => { p with ripenSince := (s.advance t).now }) := by
  rw [exec_ripenCheck (s := (s.advance t).modPow fun p => { p with ripenSince := (s.advance t).now }) hr ha]
  exact exec_next rfl (if_pos (by simp [hr, hdue]))

theorem exec_ripenPostponedCheck_late {t : Instant} {r : RipenReading} {s : State} (hr : s.pow.rails = true)
    (hlate : ∃ x ∈ s.pow.postponed, x.1 = r.die ∧ x.2.toNat ≤ (s.advance t).now.toNat) :
    exec (.ripenPostponedCheck t r) s = .next ((s.advance t).ripen [r]) :=
  exec_next rfl (if_pos (by simpa [hr, List.any_eq_true] using hlate))

/-- The end of a window, slot by slot (R640, R641). -/
theorem energyWindow_spec (m : Option Nat) (volts : List (Die × Nat)) (acts : List Activity) (s : State) (hr : s.pow.rails = true) :
    ∃ u, exec (.energyWindowEnd m volts acts) s = .next u ∧
      let slots := (List.range 64).filter (fun j => (s.job j).takes s.pow.energyStart)
      let model (j : Nat) : Nat :=
        ((acts.filter (fun a => (if slots.contains (s.activityJob a) then s.activityJob a else 64) = j)).map (s.eventEnergy volts)).sum
      let total := ((slots ++ [64]).map model).sum
      u.pow.energyStart = s.pow.energyStart + 1000000 ∧ u.cmd = { s.cmd with queues := u.cmd.queues, jobs := u.cmd.jobs } ∧ u.boot = s.boot ∧
      (∀ j, j < 64 → j ∉ slots → u.job j = s.job j) ∧
      (∀ j ∈ slots ++ [64], (u.job j).windows = (s.job j).windows + 1 ∧ (u.job j).modelledExact = (s.job j).modelledExact + model j
        ∧ (u.job j).modelled = ((s.job j).modelled || m.isNone)) ∧
      (∀ e, m = some e → u.objAt 0x0B 0x302 0 = (s.objAt 0x0B 0x302 0 + e) % 2 ^ 64 ∧
        (∀ j ∈ slots, (u.job j).measured = (s.job j).measured + (if total = 0 then 0 else e * model j / total)) ∧
        ((slots ++ [64]).map (fun j => (u.job j).measured)).sum = ((slots ++ [64]).map (fun j => (s.job j).measured)).sum + e) ∧
      (m = none → ∀ j ∈ slots ++ [64], (u.job j).measured = (s.job j).measured + model j / exactPerMicrojoule) := by
  obtain ⟨u, hexec, hpow, hcmd, hboot, hobj⟩ := energyWindowEnd_spec m volts acts s hr
  obtain ⟨hstart, hcmd', hboot', hjob, hobj'⟩ := s.divided_spec m volts acts
  have hj (j : Nat) : u.job j = (s.divided m volts acts).job j := by unfold State.job; rw [hpow]
  generalize s.divided m volts acts = d at *
  have hin (j : Nat) (h : j ∈ s.taking ++ [64]) : u.job j = s.paid m volts acts j (s.job j) := (hj j).trans ((hjob j).trans (if_pos h))
  refine ⟨u, hexec, by rw [hpow]; exact hstart, by rw [hcmd]; exact hcmd', hboot.trans hboot', fun j hlt hno => ?_, fun j h => ?_, fun e he => ?_,
    fun hm j h => ?_⟩
  · have hno' : j ∉ s.taking ++ [64] := by
      rw [List.mem_append, List.mem_singleton]
      exact fun h => h.elim hno (by omega)
    exact (hj j).trans ((hjob j).trans (if_neg hno'))
  · rw [hin j h]
    exact ⟨rfl, rfl, rfl⟩
  · subst he
    refine ⟨(hobj e rfl).trans (by rw [hobj']), fun j h => ?_, ?_⟩
    · rw [hin j (List.mem_append_left _ h)]
      have hne : j ≠ 64 := by have := s.mem_taking.mp h; omega
      exact congrArg ((s.job j).measured + ·) (if_neg hne)
    · refine Eq.trans ?_ (s.paid_sum e volts acts)
      exact congrArg List.sum (List.map_congr_left fun j h => by rw [hin j h])
  · subst hm
    rw [hin j h]
    refine congrArg ((s.job j).measured + ·) ?_
    by_cases h64 : j = 64
    · rw [if_pos h64, h64]; rfl
    · rw [if_neg h64]; rfl

/-- Settles O52: the shares of a window are rounded down and the bucket takes the rest (log entry 55), and a check changes its die alone, each other one
being put off for want of a rate (log entry 56). -/
theorem energyAndRipening : Obligations.EnergyAndRipening := by
  unfold Obligations.EnergyAndRipening
  refine ⟨jobs_spec, fun m volts acts s => ⟨fun hr => exec_next rfl (if_pos (by simp [hr])), fun hr => energyWindow_spec m volts acts s hr⟩, ?_⟩
  · dsimp only
    refine ⟨fun l s => ⟨fun hr => exec_next rfl (if_neg (by simp [hr])), fun hr => ⟨fun hw => ?_, ?_, fun d x hw hl hin => ?_⟩⟩, fun t l r s ha => ?_⟩
    · rw [exec_ripenCheck_on hr]
      exact congrArg Host.Outcome.next (if_pos hw)
    · obtain ⟨hasked, hcmd, hrises, hgrid⟩ := (s.modPow fun p => { p with ripenAsked := false }).ripens_ripen (everyDie l)
      exact ⟨_, exec_ripenCheck_on hr, hasked, hcmd, hrises, fun h d => hgrid d (h d)⟩
    · subst hl
      obtain ⟨l1, l2, hl, h1, h2⟩ := everyDie_alone d x
      have h := State.checked_ripen (s := s.modPow fun p => { p with ripenAsked := false }) x h1 h2 hw hin
      rw [← hl] at h
      exact ⟨_, exec_ripenCheck_on hr, h.spec⟩
    · have hnow := s.advance_now_toNat t
      have hpass := s.passing_advance t
      have hrest := s.advance_eq t
      refine ⟨fun h => ?_, fun ⟨hr, hd⟩ => ?_, fun h => ?_, fun ⟨hr, hx⟩ => ?_⟩
      · refine exec_next rfl (if_neg ?_)
        simpa [hnow] using h
      · refine ⟨(s.advance t).modPow fun p => { p with ripenSince := (s.advance t).now }, hnow, hpass, ?_,
          exec_ripenInterval_due hr ha (by rw [hnow]; exact hd)⟩
        exact congrArg (fun u : State => u.modPow fun p => { p with ripenSince := (s.advance t).now }) hrest
      · refine exec_next rfl (if_neg ?_)
        simpa [hnow, List.any_eq_true] using h
      · refine ⟨s.advance t, hnow, hpass, hrest, exec_ripenPostponedCheck_late hr (by rw [hnow]; exact hx), fun x hw hrates hin => ?_⟩
        have hread : [r] = State.alone r.die x [] [] := by
          rw [State.alone, ← hrates]
          rfl
        have h := State.checked_ripen (s := s.advance t) (d := r.die) x (l1 := []) (l2 := []) nofun nofun hw ((s.inService_advance ..).trans hin)
        rw [← hread] at h
        exact ⟨_, exec_ripenPostponedCheck_late hr (by rw [hnow]; exact hx), h.spec⟩

end Sys2Proof.Machine
end

section
/-! PROOFS. Proofs/Realms.lean: realm control (O43). -/

namespace Sys2Proof.Machine

theorem Dev.realmAt_modRealm (s : Dev) {r : Nat} (hr : r < 64) (f : Realm → Realm) (k : Nat) :
    (s.modRealm r f).realmAt k = if k = r then f (s.realmAt r) else s.realmAt k := by
  unfold Dev.modRealm Dev.realmAt
  by_cases hk : k < 64
  · by_cases h : k = r
    · subst h
      simp [Vector.getD, hk]
    · simp [Vector.getD, hk, h]
  · rw [if_neg (by omega)]
    simp [Vector.getD, hk]

namespace State

/-- What a command of realm control does leaves realm r as y, with nothing else of realm control, of power and of management changed. -/
structure leaves (s u : State) (r : Nat) (y : Realm) : Prop where
  realm : u.realmAt r = y
  others : ∀ k, k ≠ r → u.realmAt k = s.realmAt k
  engines : u.svc.engines = s.svc.engines
  pow : u.pow = s.pow
  mgmt : u.mgmt = s.mgmt
  pending : u.pending = s.pending

/-- The outcome of a command of realm control that ends with a status. -/
def ends (s : State) (c : Instr) (r : Nat) (st : Byte) (y : Realm) : Prop :=
  ∃ u, exec c s = .next u ∧ u.svc.busy = true ∧ u.svc.status = 1 ∧ u.svc.doneStatus = st ∧ u.realmAt r = y
    ∧ (∀ k, k ≠ r → u.realmAt k = s.realmAt k) ∧ u.svc.engines = s.svc.engines ∧ u.pow = s.pow ∧ u.mgmt = s.mgmt ∧ u.pending = s.pending

/-- A command's end, its status read busy until it is done (R532). -/
def commanded (u : State) (st : Nat) : State := u.modSvc fun v => { v with busy := true, status := 1, doneStatus := BitVec.ofNat 8 st }

variable {s : State} {c : Instr} {f : State → State × Nat}

theorem exec_of_busy (hc : exec c s = .next (s.realmCommand f)) (hb : s.svc.busy = true) : exec c s = .next s :=
  exec_next hc (if_pos hb)

theorem exec_of_idle (hc : exec c s = .next (s.realmCommand f)) (hb : s.svc.busy = false) {u : State} {st : Nat} (hf : f s = (u, st)) :
    exec c s = .next (u.commanded st) := by
  refine exec_next hc ((if_neg (by simp [hb])).trans ?_)
  rw [hf]
  rfl

theorem ends_of (hc : exec c s = .next (s.realmCommand f)) (hb : s.svc.busy = false) {u : State} {st r : Nat} {y : Realm} (hf : f s = (u, st))
    (h : s.leaves u r y) : s.ends c r (BitVec.ofNat 8 st) y :=
  ⟨_, exec_of_idle hc hb hf, rfl, rfl, rfl, h.realm, h.others, h.engines, h.pow, h.mgmt, h.pending⟩

theorem ends_of_pair (hc : exec c s = .next (s.realmCommand f)) (hb : s.svc.busy = false) {p : State × Nat} {st r : Nat} {y : Realm} (hf : f s = p)
    (hst : p.2 = st) (h : s.leaves p.1 r y) : s.ends c r (BitVec.ofNat 8 st) y :=
  ends_of hc hb (hf.trans (Prod.ext rfl hst)) h

theorem leaves_refl (s : State) (r : Nat) : s.leaves s r (s.realmAt r) := ⟨rfl, fun _ _ => rfl, rfl, rfl, rfl, rfl⟩

/-- A command that changes the memory system alone leaves every realm. -/
theorem leaves_of_svc (s u : State) (hs : u.svc.realms = s.svc.realms) (he : u.svc.engines = s.svc.engines) (hp : u.pow = s.pow) (hm : u.mgmt = s.mgmt)
    (hq : u.pending = s.pending) (r : Nat) : s.leaves u r (s.realmAt r) := by
  have h (k : Nat) : u.realmAt k = s.realmAt k := congrArg (fun v : Vector Realm 64 => v.getD k {}) hs
  exact ⟨h r, fun k _ => h k, he, hp, hm, hq⟩

theorem leaves.modRealm {u : State} {r : Nat} {x : Realm} (h : s.leaves u r x) (hr : r < 64) (g : Realm → Realm) : s.leaves (u.modRealm r g) r (g x) where
  realm := (u.toDev.realmAt_modRealm hr g r).trans ((if_pos rfl).trans (congrArg g h.realm))
  others k hk := (u.toDev.realmAt_modRealm hr g k).trans ((if_neg hk).trans (h.others k hk))
  engines := h.engines
  pow := h.pow
  mgmt := h.mgmt
  pending := h.pending

theorem leaves_memStep {d : Dev} (h : s.toDev.memStep d) (r : Nat) : s.leaves { s with toDev := d } r (s.realmAt r) := by
  have hsvc : d.svc = s.svc := by rw [h.rest]
  exact leaves_of_svc s { s with toDev := d } (congrArg SvcState.realms hsvc) (congrArg SvcState.engines hsvc) rfl rfl rfl r

theorem leaves.trans {u v : State} {r : Nat} {x y : Realm} (h1 : s.leaves u r x) (h2 : u.leaves v r y) : s.leaves v r y where
  realm := h2.realm
  others k hk := (h2.others k hk).trans (h1.others k hk)
  engines := h2.engines.trans h1.engines
  pow := h2.pow.trans h1.pow
  mgmt := h2.mgmt.trans h1.mgmt
  pending := h2.pending.trans h1.pending

theorem leaves_ownRead (s : State) (pa n r : Nat) : s.leaves (s.ownRead pa n).1 r (s.realmAt r) :=
  leaves_memStep (Dev.memStep_onceReads s.toDev (spanLines pa n)) r

theorem leaves_todo (s : State) (k : Option RealmTask) (r : Nat) :
    s.leaves (s.modSvc fun v => { v with todo := k }) r (s.realmAt r) := ⟨rfl, fun _ _ => rfl, rfl, rfl, rfl, rfl⟩

theorem leaves_modMem (s : State) (f : MemState → MemState) (r : Nat) : s.leaves (s.modMem f) r (s.realmAt r) := ⟨rfl, fun _ _ => rfl, rfl, rfl, rfl, rfl⟩

theorem leaves_fresh (s : State) (r : Nat) : s.leaves (s.freshDraw).1 r (s.realmAt r) := ⟨rfl, fun _ _ => rfl, rfl, rfl, rfl, rfl⟩

/-! What each command does (R525, R531 to R538). -/

theorem createRealm_active (h : (s.realmAt s.svc.realm).active = true) : s.createRealm = (s, 2) := if_pos h

theorem createRealm_inactive (h : (s.realmAt s.svc.realm).active = false) : s.createRealm =
    ((s.freshDraw.1.freshDraw.1).modRealm s.svc.realm (fun _ => { active := true, memKey := s.freshDraw.2, exchange := s.freshDraw.1.freshDraw.2 }), 0) :=
  if_neg (by simp [h])

theorem destroyRealm_inactive (h : (s.realmAt s.svc.realm).active = false) : s.destroyRealm = (s, 2) := if_pos (by simp [h])

theorem destroyRealm_inUse (h : (s.realmAt s.svc.realm).active = true) (hu : s.realmInUse s.svc.realm = true) : s.destroyRealm = (s, 3) :=
  (if_neg (by simp [h])).trans (if_pos hu)

theorem destroyRealm_idle (h : (s.realmAt s.svc.realm).active = true) (hu : s.realmInUse s.svc.realm = false) : s.destroyRealm =
    ((s.discardLines fun t => tagRealm t && tagSlot t = s.svc.realm).modRealm s.svc.realm (fun _ => {}), 0) :=
  (if_neg (by simp [h])).trans (if_neg (by simp [hu]))

theorem dropKey_inactive (h : (s.realmAt s.svc.realm).active = false) : s.dropKey = (s, 2) := if_pos (by simp [h])

theorem dropKey_active (h : (s.realmAt s.svc.realm).active = true) : s.dropKey = (s.modRealm s.svc.realm (fun y => { y with
    store := Table.set none y.store (s.svc.arg1.toNat % 256)
      ((Table.get none y.store (s.svc.arg1.toNat % 256)).map (fun e => { lastGen := e.lastGen })) }), 0) := if_neg (by simp [h])

theorem loadKey_inactive (h : (s.realmAt s.svc.realm).active = false) : s.loadKey = (s, 2) := if_pos (by simp [h])

theorem loadKey_outside (h : (s.realmAt s.svc.realm).active = true) (ho : 2 ^ 41 < s.svc.arg0.toNat + 220) : s.loadKey = (s, 5) :=
  (if_neg (by simp [h])).trans (if_pos (by simp [inDram]; omega))

theorem loadKey_waits (h : (s.realmAt s.svc.realm).active = true) (hi : s.svc.arg0.toNat + 220 ≤ 2 ^ 41)
    (hl : s.linesOpen (spanLines s.svc.arg0.toNat 220) = false) :
    s.loadKey = (s.modSvc (fun v => { v with todo := some (.loadKey s.svc.realm s.svc.arg0.toNat) }), 0) :=
  (if_neg (by simp [h])).trans ((if_neg (by simp [inDram]; omega)).trans (if_neg (by simp [hl])))

theorem loadKey_reads (h : (s.realmAt s.svc.realm).active = true) (hi : s.svc.arg0.toNat + 220 ≤ 2 ^ 41)
    (hl : s.linesOpen (spanLines s.svc.arg0.toNat 220) = true) : s.loadKey = State.doLoadKey s.svc.realm s.svc.arg0.toNat s :=
  (if_neg (by simp [h])).trans ((if_neg (by simp [inDram]; omega)).trans (if_pos hl))

theorem quoteRealm_inactive (h : (s.realmAt s.svc.realm).active = false) : s.quoteRealm = (s, 2) := if_pos (by simp [h])

theorem quoteRealm_outside (h : (s.realmAt s.svc.realm).active = true)
    (ho : 2 ^ 41 < s.svc.arg0.toNat + 6136 ∨ 2 ^ 41 < s.svc.arg1.toNat + 48) : s.quoteRealm = (s, 5) :=
  (if_neg (by simp [h])).trans (if_pos (by simp [inDram]; omega))

theorem quoteRealm_waits (h : (s.realmAt s.svc.realm).active = true) (hi : s.svc.arg0.toNat + 6136 ≤ 2 ^ 41) (hn : s.svc.arg1.toNat + 48 ≤ 2 ^ 41)
    (hl : s.linesOpen (spanLines s.svc.arg1.toNat 48) = false) : s.quoteRealm =
      (s.modSvc (fun v => { v with todo := some (.quote s.svc.realm s.svc.arg0.toNat s.svc.arg1.toNat) }), 0) :=
  (if_neg (by simp [h])).trans ((if_neg (by simp [inDram]; omega)).trans (if_neg (by simp [hl])))

theorem quoteRealm_reads (h : (s.realmAt s.svc.realm).active = true) (hi : s.svc.arg0.toNat + 6136 ≤ 2 ^ 41) (hn : s.svc.arg1.toNat + 48 ≤ 2 ^ 41)
    (hl : s.linesOpen (spanLines s.svc.arg1.toNat 48) = true) :
    s.quoteRealm = State.doQuote s.svc.realm s.svc.arg0.toNat s.svc.arg1.toNat s :=
  (if_neg (by simp [h])).trans ((if_neg (by simp [inDram]; omega)).trans (if_pos hl))

/-- What LOADKEY does with a blob that opens, and with one that does not (R534). -/
theorem leaves_doLoadKey (s : State) {r : Nat} (hr : r < 64) (blob : Nat) :
    (∀ i gen key, openBlob r (s.realmAt r) (s.ownRead blob 220).2 = .inl (i, gen, key) → (State.doLoadKey r blob s).2 = 0
      ∧ s.leaves (State.doLoadKey r blob s).1 r { s.realmAt r with
        store := Table.set none (s.realmAt r).store i (some { key := key, gen := gen, valid := true, lastGen := gen }) })
    ∧ ∀ cause, openBlob r (s.realmAt r) (s.ownRead blob 220).2 = .inr cause →
      (State.doLoadKey r blob s).2 = 4 ∧ s.leaves (State.doLoadKey r blob s).1 r (s.realmAt r) := by
  have hread := s.leaves_ownRead blob 220 r
  unfold doLoadKey
  generalize s.ownRead blob 220 = u at *
  obtain ⟨u, b⟩ := u
  dsimp only at *
  rw [hread.realm]
  refine ⟨fun i gen key h => ?_, fun cause h => ?_⟩
  · rw [h]
    exact ⟨rfl, hread.modRealm hr _⟩
  · rw [h]
    exact ⟨rfl, hread.trans (hread.realm ▸ leaves_memStep (Dev.memStep_report u.toDev 18 _) r)⟩

/-- What QUOTE does once its report is signed (R531). -/
theorem leaves_doQuote (s : State) {r : Nat} (hr : r < 64) (report at_ : Nat) {d : State} {b : List Byte}
    (hsign : (s.ownRead at_ 48).1.signReport 2 r (s.ownRead at_ 48).2 (p384Public (s.realmAt r).private_) = (d, some b))
    (hs : d.svc = s.svc) (hp : d.pow = s.pow) (hm : d.mgmt = s.mgmt) (hq : d.pending = s.pending) :
    (State.doQuote r report at_ s).2 = 0
      ∧ s.leaves (State.doQuote r report at_ s).1 r { s.realmAt r with nonce := (s.ownRead at_ 48).2 } := by
  have hread := s.leaves_ownRead at_ 48 r
  unfold doQuote
  generalize s.ownRead at_ 48 = u at *
  obtain ⟨u, nonce⟩ := u
  dsimp only at *
  rw [hread.realm, hsign]
  have hd : s.leaves d r (s.realmAt r) := leaves_of_svc s d (by rw [hs]) (by rw [hs]) hp hm hq r
  exact ⟨rfl, (hd.trans (hd.realm ▸ leaves_memStep (Dev.memStep_physWrite d.toDev report b false 18) r)).modRealm hr _⟩

theorem get_keep_not {α : Type} (d : α) {p : Nat → Bool} {k : Nat} (h : p k = true) (t : Table α) :
    Table.get d (Table.keep (fun k => !p k) t) k = d := by
  unfold Table.keep
  induction t with
  | nil => rfl
  | cons e t ih =>
    cases he : p e.1 with
    | false =>
      rw [List.filter_cons_of_pos (by simp [he])]
      have hne : e.1 ≠ k := fun h' => by rw [h', h] at he; cases he
      exact (if_neg hne).trans ih
    | true =>
      rw [List.filter_cons_of_neg (by simp [he])]
      exact ih

theorem agent_discardLines (s : State) (p : LineTag → Bool) (a : Agent) : (s.discardLines p).agent a =
    { s.agent a with lines := Table.keep (fun k => !p k) (s.agent a).lines, evb := Table.keep (fun k => !p k) (s.agent a).evb } :=
  Vector.getElem_map ..

theorem hub_discardLines (s : State) (p : LineTag → Bool) (h : HubId) : (s.discardLines p).hub h =
    { s.hub h with l3 := Table.keep (fun k => !p k) (s.hub h).l3, wcb := Table.keep (fun k => !p k) (s.hub h).wcb,
                   dir := Table.keep (fun k => !p k) (s.hub h).dir } :=
  Vector.getElem_map ..

/-- Lines that are discarded are held nowhere (R536). -/
theorem discardLines_spec (s : State) (p : LineTag → Bool) {t : LineTag} (ht : p t = true) :
    (∀ a, (s.discardLines p).lineAt a t = none ∧ Table.get none ((s.discardLines p).agent a).evb t = none) ∧ (s.discardLines p).l3Line t = none
      ∧ (s.discardLines p).wcbLine t = none ∧ (s.discardLines p).dirOf t = none := by
  refine ⟨fun a => ?_, ?_, ?_, ?_⟩
  · unfold Dev.lineAt
    rw [agent_discardLines]
    exact ⟨get_keep_not none ht _, get_keep_not none ht _⟩
  · unfold Dev.l3Line
    rw [hub_discardLines]
    exact get_keep_not none ht _
  · unfold Dev.wcbLine
    rw [hub_discardLines]
    exact get_keep_not none ht _
  · unfold Dev.dirOf
    rw [hub_discardLines]
    exact get_keep_not none ht _

/-! SCRUB (R537, R538). -/

/-- The arguments of SCRUB are good. -/
def scrubGood (s : State) : Prop :=
  let j := s.scrubJob
  j.start % 4096 = 0 ∧ j.len % 4096 = 0 ∧ j.start + j.len ≤ 2 ^ 41 ∧ ¬(j.newFlag = j.oldFlag ∧ j.newSlot = j.oldSlot)
    ∧ (j.newFlag = true → (s.realmAt j.newSlot).active = true) ∧ (j.newFlag = false → j.newSlot = 0) ∧ (j.oldFlag = false → j.oldSlot = 0)

theorem scrub_bad (h : ¬s.scrubGood) : s.scrub = (s, 5) := by
  refine if_pos ?_
  by_contra hb
  refine h ?_
  unfold scrubGood
  generalize s.scrubJob = j at *
  simp only [Bool.or_eq_true, decide_eq_true_eq, Bool.and_eq_true, Bool.not_eq_true', not_or] at hb
  obtain ⟨⟨⟨⟨⟨⟨h1, h2⟩, h3⟩, h4⟩, h5⟩, h6⟩, h7⟩ := hb
  refine ⟨by omega, by omega, by omega, h4, fun hf => ?_, fun hf => ?_, fun hf => ?_⟩
  · simpa [hf] using h5
  · simpa [hf] using h6
  · simpa [hf] using h7

theorem svc_foldl_physWrite (pa : Nat → Nat) (z : List Byte) (r : Bool) (d : Die) (l : List Nat) (s : State) :
    (l.foldl (fun s i => s.physWrite (pa i) z r d) s).svc = s.svc := by
  induction l generalizing s with
  | nil => rfl
  | cons i l ih =>
    refine (ih _).trans ?_
    have h := (Dev.memStep_physWrite s.toDev (pa i) z r d).rest
    exact (congrArg Dev.svc h).trans rfl

theorem scrub_good (h : s.scrubGood) : ∃ u, s.scrub = (u, 0) ∧ u.svc = { s.svc with running := some s.scrubJob } := by
  unfold scrubGood at h
  unfold scrub
  generalize s.scrubJob = j at *
  obtain ⟨h1, h2, h3, h4, h5, h6, h7⟩ := h
  dsimp only
  rw [if_neg]
  · refine ⟨_, rfl, ?_⟩
    exact congrArg (fun v : SvcState => { v with running := some j }) ((svc_foldl_physWrite (fun i => j.newSlot * 2 ^ 42 + j.start + 128 * i) zeroLine j.newFlag 18 _ _).trans rfl)
  · simp only [Bool.or_eq_true, decide_eq_true_eq, Bool.and_eq_true, Bool.not_eq_true', not_or]
    refine ⟨⟨⟨⟨⟨⟨by omega, by omega⟩, by omega⟩, h4⟩, fun hf => ?_⟩, fun hf => hf.2 (h6 hf.1)⟩, fun hf => hf.2 (h7 hf.1)⟩
    rw [h5 hf.1] at hf
    exact absurd hf.2 (by simp)

/-! The end of a command (R532). -/

theorem resumeRealm_none (h : s.svc.todo = none) : s.resumeRealm = s := by
  unfold resumeRealm
  rw [h]

theorem resumeRealm_loadKey {k blob : Nat} (h : s.svc.todo = some (.loadKey k blob)) (hl : s.linesOpen (spanLines blob 220) = false) :
    s.resumeRealm = s := by
  unfold resumeRealm
  rw [h]
  exact if_neg (by simp [hl])

theorem resumeRealm_quote {k report nonce : Nat} (h : s.svc.todo = some (.quote k report nonce)) (hl : s.linesOpen (spanLines nonce 48) = false) :
    s.resumeRealm = s := by
  unfold resumeRealm
  rw [h]
  exact if_neg (by simp [hl])

theorem exec_realmCommandDone (hb : s.svc.busy = true) (hr : s.resumeRealm = s) : exec .realmCommandDone s = .next
    (if s.svc.todo.isSome || s.realmPushesWait then s
      else s.modSvc fun v => { v with busy := false, status := v.doneStatus, running := none }) := by
  refine exec_next rfl ((if_neg (by simp [hb])).trans ?_)
  rw [hr]

end State

theorem realm_busy {s : State} (hb : s.svc.busy = true) :
    exec .realmCreate s = .next s ∧ exec .realmDestroy s = .next s ∧ exec .realmQuote s = .next s
      ∧ exec .realmLoadKey s = .next s ∧ exec .realmDropKey s = .next s ∧ exec .realmScrub s = .next s
      ∧ (s.svc.todo = none → s.realmPushesWait = false → ∃ u, exec .realmCommandDone s = .next u
        ∧ u.svc = { s.svc with busy := false, status := s.svc.doneStatus, running := none } ∧ u = { s with svc := u.svc })
      ∧ (s.svc.todo = none → s.realmPushesWait = true → exec .realmCommandDone s = .next s)
      ∧ (∀ k blob, s.svc.todo = some (.loadKey k blob) → s.linesOpen (spanLines blob 220) = false → exec .realmCommandDone s = .next s)
      ∧ ∀ k report nonce, s.svc.todo = some (.quote k report nonce) → s.linesOpen (spanLines nonce 48) = false →
          exec .realmCommandDone s = .next s := by
  refine ⟨State.exec_of_busy rfl hb, State.exec_of_busy rfl hb, State.exec_of_busy rfl hb, State.exec_of_busy rfl hb, State.exec_of_busy rfl hb,
    State.exec_of_busy rfl hb, fun ht hp => ?_, fun ht hp => ?_, fun k blob ht hl => ?_, fun k report nonce ht hl => ?_⟩
  · exact ⟨_, exec_next (State.exec_realmCommandDone hb (State.resumeRealm_none ht)) (if_neg (by simp [ht, hp])), rfl, rfl⟩
  · exact exec_next (State.exec_realmCommandDone hb (State.resumeRealm_none ht)) (if_pos (by simp [hp]))
  · exact exec_next (State.exec_realmCommandDone hb (State.resumeRealm_loadKey ht hl)) (if_pos (by simp [ht]))
  · exact exec_next (State.exec_realmCommandDone hb (State.resumeRealm_quote ht hl)) (if_pos (by simp [ht]))

/-- CREATE of an inactive realm, and the other commands of one (R525, R531). -/
theorem realm_inactive {s : State} (hr : s.svc.realm < 64) (hb : s.svc.busy = false) (ha : (s.realmAt s.svc.realm).active = false) :
    ∃ k n, s.ends .realmCreate s.svc.realm 0 { active := true, memKey := k, exchange := n }
      ∧ s.ends .realmDestroy s.svc.realm 2 (s.realmAt s.svc.realm) ∧ s.ends .realmQuote s.svc.realm 2 (s.realmAt s.svc.realm)
      ∧ s.ends .realmLoadKey s.svc.realm 2 (s.realmAt s.svc.realm) ∧ s.ends .realmDropKey s.svc.realm 2 (s.realmAt s.svc.realm) := by
  have hfresh := (s.leaves_fresh s.svc.realm).trans ((s.freshDraw.1).leaves_fresh s.svc.realm)
  exact ⟨_, _, State.ends_of rfl hb (State.createRealm_inactive ha) (hfresh.modRealm hr _),
    State.ends_of rfl hb (State.destroyRealm_inactive ha) (s.leaves_refl _), State.ends_of rfl hb (State.quoteRealm_inactive ha) (s.leaves_refl _),
    State.ends_of rfl hb (State.loadKey_inactive ha) (s.leaves_refl _), State.ends_of rfl hb (State.dropKey_inactive ha) (s.leaves_refl _)⟩

/-- DESTROY of a realm that is not in use (R536). -/
theorem realm_destroyed {s : State} (hr : s.svc.realm < 64) (hb : s.svc.busy = false) (ha : (s.realmAt s.svc.realm).active = true)
    (hu : s.realmInUse s.svc.realm = false) : s.ends .realmDestroy s.svc.realm 0 {} ∧ ∃ u, exec .realmDestroy s = .next u
        ∧ ∀ t, tagRealm t = true → tagSlot t = s.svc.realm → (∀ a, u.lineAt a t = none ∧ Table.get none (u.agent a).evb t = none) ∧ u.l3Line t = none
          ∧ u.wcbLine t = none ∧ u.dirOf t = none := by
  refine ⟨State.ends_of rfl hb (State.destroyRealm_idle ha hu) ((s.leaves_modMem _ _).modRealm hr _), _,
    State.exec_of_idle rfl hb (State.destroyRealm_idle ha hu), fun t h1 h2 => ?_⟩
  exact s.discardLines_spec (fun t => tagRealm t && tagSlot t = s.svc.realm) (by simp [h1, h2])

/-- LOADKEY (R534). -/
theorem realm_loadKey {s : State} (hr : s.svc.realm < 64) (hb : s.svc.busy = false) (ha : (s.realmAt s.svc.realm).active = true)
    (hi : s.svc.arg0.toNat + 220 ≤ 2 ^ 41) (hl : s.linesOpen (spanLines s.svc.arg0.toNat 220) = true) :
    (∀ i gen key, openBlob s.svc.realm (s.realmAt s.svc.realm) (s.ownRead s.svc.arg0.toNat 220).2 = .inl (i, gen, key) →
      s.ends .realmLoadKey s.svc.realm 0 { s.realmAt s.svc.realm with
        store := Table.set none (s.realmAt s.svc.realm).store i (some { key := key, gen := gen, valid := true, lastGen := gen }) }) ∧
    (∀ cause, openBlob s.svc.realm (s.realmAt s.svc.realm) (s.ownRead s.svc.arg0.toNat 220).2 = .inr cause →
      s.ends .realmLoadKey s.svc.realm 4 (s.realmAt s.svc.realm)) := by
  obtain ⟨hopen, hno⟩ := s.leaves_doLoadKey hr s.svc.arg0.toNat
  have hf := State.loadKey_reads ha hi hl
  refine ⟨fun i gen key h => ?_, fun cause h => ?_⟩
  · obtain ⟨hst, hleaves⟩ := hopen i gen key h
    exact State.ends_of_pair rfl hb hf hst hleaves
  · obtain ⟨hst, hleaves⟩ := hno cause h
    exact State.ends_of_pair rfl hb hf hst hleaves

/-- Settles O43: a command's effect is in place at once while its status reads busy, and one whose lines are open to a transaction waits for
REALM_COMMAND_DONE (log entry 68). -/
theorem realmControl : Obligations.RealmControl := by
  unfold Obligations.RealmControl
  intro s hr
  dsimp only
  refine ⟨realm_busy, fun hb => exec_next rfl (if_pos (by simp [hb])), fun hb ha => ?_, fun hb ha => realm_inactive hr hb ha, fun hb ha => ?_, fun hb => ?_⟩
  · exact State.ends_of rfl hb (State.createRealm_active ha) (s.leaves_refl _)
  · refine ⟨fun hu => State.ends_of rfl hb (State.destroyRealm_inUse ha hu) (s.leaves_refl _), fun hu => realm_destroyed hr hb ha hu, ?_, fun ho => ?_,
      fun hi hl => realm_loadKey hr hb ha hi hl, fun hi hl => ⟨?_, ?_⟩, fun ho => ?_, fun hi hn hl => ⟨?_, ?_⟩, fun hi hn hl d b hsign hs hp hm hq => ?_⟩
    · exact State.ends_of rfl hb (State.dropKey_active ha) ((s.leaves_refl _).modRealm hr _)
    · exact State.ends_of rfl hb (State.loadKey_outside ha ho) (s.leaves_refl _)
    · exact State.ends_of rfl hb (State.loadKey_waits ha hi hl) (s.leaves_todo _ _)
    · exact ⟨_, State.exec_of_idle rfl hb (State.loadKey_waits ha hi hl), rfl⟩
    · exact State.ends_of rfl hb (State.quoteRealm_outside ha ho) (s.leaves_refl _)
    · exact State.ends_of rfl hb (State.quoteRealm_waits ha hi hn hl) (s.leaves_todo _ _)
    · exact ⟨_, State.exec_of_idle rfl hb (State.quoteRealm_waits ha hi hn hl), rfl⟩
    · obtain ⟨hst, hleaves⟩ := s.leaves_doQuote hr s.svc.arg0.toNat s.svc.arg1.toNat hsign hs hp hm hq
      exact State.ends_of_pair rfl hb (State.quoteRealm_reads ha hi hn hl) hst hleaves
  · refine ⟨fun h => ?_, fun h => ?_⟩
    · exact State.ends_of rfl hb (State.scrub_bad h) (s.leaves_refl _)
    · obtain ⟨u, hu, hsvc⟩ := State.scrub_good h
      refine ⟨_, State.exec_of_idle rfl hb hu, rfl, rfl, ?_, ?_⟩
      · change u.svc.realms = _
        rw [hsvc]
      · change u.svc.running = _
        rw [hsvc]
        rfl

end Sys2Proof.Machine
end

section
/-! PROOFS. Proofs/Attestation.lean: reports and transfers (O57). -/

namespace Sys2Proof.Machine

theorem Table.length_getRange {α : Type} (d : α) (t : Table α) (k n : Nat) : (Table.getRange d t k n).length = n := by simp [Table.getRange]

namespace State

variable {s : State} {p : Path}

/-- The answer to a dictionary operation, with nothing else changed. -/
def answered (s : State) (st : Nat) : State := { s with mgmt := { s.mgmt with reply := some ⟨st, 0, []⟩ } }

/-- A management operation that answers a status. -/
theorem exec_answers {c : Instr} {f : State → State × Nat} (hc : exec c s = .next ((f s).1.answer (f s).2)) {u : State} {st : Nat} (hf : f s = (u, st)) :
    exec c s = .next (u.answered st) := by
  rw [hc, hf]
  rfl

/-! Reports and their trees (R723 to R727). -/

theorem signingTree_current {b : Nat} (ht : s.boot.tree = some b) (hl : s.boot.leaf < 1024) : s.signingTree = (s, some b) := by
  have hno : ¬(s.boot.tree.isNone || 1024 ≤ s.boot.leaf) = true := by simp [ht, hl]
  unfold signingTree
  dsimp only
  rw [if_neg hno, ht]

/-- A new bottom tree is begun (R725). -/
def treeBegun (s : State) : State := (s.raiseCounter 0 (s.oneWay 0 + 1)).modBoot fun x => { x with tree := some (s.oneWay 0), leaf := 0 }

theorem signingTree_new (h : s.boot.tree = none ∨ 1024 ≤ s.boot.leaf) (hc : s.oneWay 0 < 1048576) : s.signingTree = (s.treeBegun, some (s.oneWay 0)) := by
  have hyes : (s.boot.tree.isNone || 1024 ≤ s.boot.leaf) = true := by rcases h with h | h <;> simp [h]
  have hbegin : s.beginTree = s.treeBegun := if_neg (by omega)
  unfold signingTree
  dsimp only
  rw [if_pos hyes, hbegin]
  rfl

theorem signingTree_spent (h : s.boot.tree = none ∨ 1024 ≤ s.boot.leaf) (hc : 1048576 ≤ s.oneWay 0) :
    s.signingTree = (s.modBoot fun x => { x with tree := none, leaf := 0 }, none) := by
  have hyes : (s.boot.tree.isNone || 1024 ≤ s.boot.leaf) = true := by rcases h with h | h <;> simp [h]
  have hbegin : s.beginTree = s.modBoot fun x => { x with tree := none, leaf := 0 } := if_pos hc
  unfold signingTree
  dsimp only
  rw [if_pos hyes, hbegin]
  rfl

theorem oneWay_treeBegun (s : State) : s.treeBegun.oneWay 0 = s.oneWay 0 + 1 := by
  unfold treeBegun oneWay raiseCounter modBoot
  simp

/-- A report signed with the next leaf of a tree. -/
theorem signReport_signed {secret : List Byte} (hs : s.boot.secret = some secret) {t : State} {b : Nat} (ht : s.signingTree = (t, some b)) (kind realm : Nat)
    (nonce exchange : List Byte) : ∃ r, s.signReport kind realm nonce exchange = (t.modBoot fun x => { x with leaf := x.leaf + 1 }, some r) := by
  unfold signReport
  rw [hs]
  dsimp only
  rw [ht]
  exact ⟨_, rfl⟩

theorem signReport_spent {secret : List Byte} (hs : s.boot.secret = some secret) {t : State} (ht : s.signingTree = (t, none)) (kind realm : Nat)
    (nonce exchange : List Byte) : s.signReport kind realm nonce exchange = (t, none) := by
  unfold signReport
  rw [hs]
  dsimp only
  rw [ht]

theorem signReport_unsealed (hs : s.boot.secret = none) (kind realm : Nat) (nonce exchange : List Byte) : s.signReport kind realm nonce exchange = (s, none) := by
  unfold signReport
  rw [hs]

theorem attest_some {t : State} {r : List Byte}
    (h : s.signReport 1 0 (Table.get {} s.mgmt.attest (s.attestKey p)).nonce [] = (t, some r)) : s.attest p true = (t.modMgmt fun m => { m with
      attest := Table.set {} m.attest (s.attestKey p) { Table.get {} s.mgmt.attest (s.attestKey p) with report := r } }, 0) := by
  unfold attest
  rw [if_neg (by simp)]
  dsimp only
  rw [h]

theorem attest_none {t : State} (h : s.signReport 1 0 (Table.get {} s.mgmt.attest (s.attestKey p)).nonce [] = (t, none)) : s.attest p true = (t, 9) := by
  unfold attest
  rw [if_neg (by simp)]
  dsimp only
  rw [h]

end State

/-- A report signed for a path, and where it is kept (R726, R727). -/
theorem attestRun_signs {s t : State} {p : Path} {secret : List Byte} {b : Nat} (hs : s.boot.secret = some secret) (ht : s.signingTree = (t, some b)) :
    ∃ u, exec (.attestRun p true) s = .next u ∧ u.mgmt.reply = some ⟨0, 0, []⟩ ∧ u.boot = { t.boot with leaf := t.boot.leaf + 1 }
      ∧ some (Table.get {} u.mgmt.attest (s.attestKey p)).report
        = (s.signReport 1 0 (Table.get {} s.mgmt.attest (s.attestKey p)).nonce []).2 := by
  obtain ⟨r, hr⟩ := State.signReport_signed hs ht 1 0 (Table.get {} s.mgmt.attest (s.attestKey p)).nonce []
  refine ⟨_, State.exec_answers (f := fun s => s.attest p true) rfl (State.attest_some hr), rfl, rfl, ?_⟩
  rw [hr]
  exact congrArg (fun c : AttestCopy => some c.report) (Table.get_set_same ..)

/-- The reports of a path (R723 to R727). -/
theorem attest_spec (p : Path) (s : State) :
    let replied (u : State) (st : Nat) : Prop := u.mgmt.reply = some ⟨st, 0, []⟩
    let no (c : Instr) (st : Nat) : Prop := exec c s = .next { s with mgmt := { s.mgmt with reply := some ⟨st, 0, []⟩ } }
    let key := s.attestKey p
    no (.attestRun p false) 3 ∧ (s.boot.secret = none → no (.attestRun p true) 9) ∧
    (s.boot.secret ≠ none →
      (∀ b, s.boot.tree = some b → s.boot.leaf < 1024 → ∃ u, exec (.attestRun p true) s = .next u ∧ replied u 0 ∧ u.boot.tree = some b
        ∧ u.boot.leaf = s.boot.leaf + 1 ∧ u.boot.counters = s.boot.counters
        ∧ some (Table.get {} u.mgmt.attest key).report = (s.signReport 1 0 (Table.get {} s.mgmt.attest key).nonce []).2) ∧
      ((s.boot.tree = none ∨ 1024 ≤ s.boot.leaf) → s.oneWay 0 < 1048576 → ∃ u, exec (.attestRun p true) s = .next u ∧ replied u 0
        ∧ u.boot.tree = some (s.oneWay 0) ∧ u.boot.leaf = 1 ∧ u.oneWay 0 = s.oneWay 0 + 1) ∧
      ((s.boot.tree = none ∨ 1024 ≤ s.boot.leaf) → 1048576 ≤ s.oneWay 0 → ∃ u, exec (.attestRun p true) s = .next u ∧ replied u 9
        ∧ u.boot.tree = none ∧ u.mgmt.attest = s.mgmt.attest)) := by
  dsimp only
  refine ⟨State.exec_answers (f := fun s => s.attest p false) rfl (if_pos rfl), fun hs => ?_, fun hs => ⟨fun b hb hl => ?_, fun h hc => ?_, fun h hc => ?_⟩⟩
  · exact State.exec_answers (f := fun s => s.attest p true) rfl (State.attest_none (State.signReport_unsealed hs ..))
  all_goals obtain ⟨secret, hs⟩ := Option.ne_none_iff_exists'.mp hs
  · obtain ⟨u, hexec, hreply, hboot, hreport⟩ := attestRun_signs (p := p) hs (State.signingTree_current hb hl)
    exact ⟨u, hexec, hreply, by rw [hboot]; exact hb, by rw [hboot], by rw [hboot], hreport⟩
  · obtain ⟨u, hexec, hreply, hboot, -⟩ := attestRun_signs (p := p) hs (State.signingTree_new h hc)
    refine ⟨u, hexec, hreply, by rw [hboot]; rfl, by rw [hboot]; rfl, ?_⟩
    rw [← s.oneWay_treeBegun]
    unfold State.oneWay
    rw [hboot]
  · exact ⟨_, State.exec_answers (f := fun s => s.attest p true) rfl (State.attest_none (State.signReport_spent hs (State.signingTree_spent h hc) ..)), rfl, rfl, rfl⟩

/-! Transfers (R719 to R722). -/

namespace State

variable {s : State} {p : Path}

theorem objAt_xferStatus (s : State) (v : Nat) {b : Nat} (hb : b < 65536) (h : b ≠ 0x434) :
    (s.setObjAt 0x0C 0x434 0 v).objAt 0x0C b 0 = s.objAt 0x0C b 0 :=
  (Dev.objAt_setObjAt _ _ _ _ _ _ _ _ (by decide) (by decide) (by decide) hb).trans (if_neg fun e => h e.2.1)

/-- A path may begin a transfer: none is under way but one of its own, not committed. -/
def mayBegin (s : State) (p : Path) : Prop := ∀ t, s.mgmt.transfer = some t → t.by_ = p ∧ t.committed = false

theorem mayBegin_iff : s.mayBegin p ↔ ¬s.mgmt.transfer.any (fun t => t.by_ ≠ p || t.committed) = true := by
  unfold mayBegin
  cases s.mgmt.transfer <;> simp

theorem beginTransfer_refused {v : Nat} (h : ¬s.mayBegin p) : s.beginTransfer p v = (s, 9) := if_pos (not_not.mp (mt mayBegin_iff.mpr h))

theorem beginTransfer_bad {v : Nat} (h : s.mayBegin p) (hb : ¬((v % 256 = 1 ∨ v % 256 = 2) ∧ bits v 63 32 ≤ xferMax (v % 256))) :
    s.beginTransfer p v = (s, 3) := by
  refine (if_neg (mayBegin_iff.mp h)).trans (if_pos ?_)
  simp only [Bool.or_eq_true, Bool.not_eq_true', Bool.or_eq_false_iff, decide_eq_false_iff_not, decide_eq_true_eq]
  by_contra hn
  refine hb ⟨?_, ?_⟩
  · by_contra h2
    exact hn (.inl ⟨fun h => h2 (.inl h), fun h => h2 (.inr h)⟩)
  · by_contra h2
    exact hn (.inr (by omega))

/-- A transfer begun, nothing of the store erased yet. -/
def begun (s : State) (p : Path) (v : Nat) : State :=
  (s.modMgmt fun m => { m with transfer := some { by_ := p, target := v % 256, len := bits v 63 32 } }).setObjAt 0x0C 0x434 0 1

theorem beginTransfer_good {v : Nat} (h : s.mayBegin p) (ht : v % 256 = 1 ∨ v % 256 = 2) (hl : bits v 63 32 ≤ xferMax (v % 256)) :
    s.beginTransfer p v = (if v % 256 = 1 ∧ s.objAt 0x0C 0x400 0 = 2
      then (s.begun p v).modBoot fun x => { x with storeBlank := true, erased := true, store := [] } else s.begun p v, 0) := by
  have hstate : (s.begun p v).objAt 0x0C 0x400 0 = s.objAt 0x0C 0x400 0 :=
    (s.modMgmt fun m => { m with transfer := some { by_ := p, target := v % 256, len := bits v 63 32 } }).objAt_xferStatus 1 (by decide) (by decide)
  refine (if_neg (mayBegin_iff.mp h)).trans ((if_neg ?_).trans ?_)
  · simp only [Bool.or_eq_true, Bool.not_eq_true', Bool.or_eq_false_iff, decide_eq_false_iff_not, decide_eq_true_eq]
    omega
  · rw [← hstate]
    by_cases hc : v % 256 = 1 ∧ (s.begun p v).objAt 0x0C 0x400 0 = 2
    · rw [if_pos hc]
      exact if_pos (by simp only [Bool.and_eq_true, decide_eq_true_eq]; exact hc)
    · rw [if_neg hc]
      exact if_neg (by simp only [Bool.and_eq_true, decide_eq_true_eq]; exact hc)

end State

theorem xferBegin_spec (p : Path) (s : State) (v : U64) :
    let target := v.toNat % 256
    let len := bits v.toNat 63 32
    let replied (u : State) (st : Nat) : Prop := u.mgmt.reply = some ⟨st, 0, []⟩
    let no (c : Instr) (st : Nat) : Prop := exec c s = .next { s with mgmt := { s.mgmt with reply := some ⟨st, 0, []⟩ } }
    (¬s.mayBegin p → no (.xferBegin p v) 9) ∧
    (s.mayBegin p → ¬((target = 1 ∨ target = 2) ∧ len ≤ xferMax target) → no (.xferBegin p v) 3) ∧
    (s.mayBegin p → (target = 1 ∨ target = 2) → len ≤ xferMax target → ∃ u, exec (.xferBegin p v) s = .next u ∧ replied u 0
        ∧ u.mgmt.transfer = some { by_ := p, target := target, len := len } ∧ u.objAt 0x0C 0x434 0 = 1
        ∧ u.boot.storeBlank = (s.boot.storeBlank || (target = 1 && s.objAt 0x0C 0x400 0 = 2))) := by
  dsimp only
  refine ⟨fun h => ?_, fun h hb => ?_, fun h ht hl => ?_⟩
  · exact State.exec_answers (f := fun s => s.beginTransfer p v.toNat) rfl (State.beginTransfer_refused h)
  · exact State.exec_answers (f := fun s => s.beginTransfer p v.toNat) rfl (State.beginTransfer_bad h hb)
  · refine ⟨_, State.exec_answers (f := fun s => s.beginTransfer p v.toNat) rfl (State.beginTransfer_good h ht hl), rfl, ?_⟩
    have hstatus : (s.begun p v.toNat).objAt 0x0C 0x434 0 = 1 := Dev.objAt_setObjAt_same ..
    split
    · next hc => exact ⟨rfl, hstatus, by simp [hc, State.answered, State.modBoot]⟩
    · next hc =>
      refine ⟨rfl, hstatus, ?_⟩
      rw [show (decide (v.toNat % 256 = 1) && decide (s.objAt 0x0C 0x400 0 = 2)) = false by simpa using hc, Bool.or_false]
      rfl

namespace State

variable {s : State} {p : Path} {t : Transfer}

theorem writeTransfer_none (h : s.mgmt.transfer = none) (off : Nat) (data : List Byte) : s.writeTransfer p off data = (s, 9) := by
  unfold writeTransfer
  rw [h]

theorem writeTransfer_some (h : s.mgmt.transfer = some t) (off : Nat) (data : List Byte) : s.writeTransfer p off data =
    if t.by_ ≠ p || t.committed then (s, 9)
    else if 1024 < off + data.length || t.len < s.objAt 0x0C 0x431 0 + off + data.length then (s, 4)
    else if t.target = 1 && s.objAt 0x0C 0x400 0 = 2 then (s.storeWrite (s.objAt 0x0C 0x431 0 + off) data, 0)
    else (s.modMgmt (fun m => { m with transfer := some { t with data := Table.setRange 0 t.data (s.objAt 0x0C 0x431 0 + off) data } }), 0) := by
  unfold writeTransfer
  rw [h]

theorem commitTransfer_none (h : s.mgmt.transfer = none) (v : Bool) : s.commitTransfer p v = (s, 9) := by
  unfold commitTransfer
  rw [h]

theorem commitTransfer_false (h : s.mgmt.transfer = some t) : s.commitTransfer p false = (s, 3) := by
  unfold commitTransfer
  rw [h]
  rfl

theorem commitTransfer_other (h : s.mgmt.transfer = some t) (ho : t.by_ ≠ p ∨ t.committed = true) : s.commitTransfer p true = (s, 9) := by
  unfold commitTransfer
  rw [h]
  dsimp only
  rw [if_neg (by simp), if_pos (by simpa using ho)]

theorem commitTransfer_mine (h : s.mgmt.transfer = some t) (hp : t.by_ = p) (hc : t.committed = false) : ∃ u, s.commitTransfer p true = (u, 0)
    ∧ u.mgmt.transfer = some { t with committed := true } ∧ u.objAt 0x0C 0x434 0 = 2 := by
  unfold commitTransfer
  rw [h]
  dsimp only
  rw [if_neg (by simp), if_neg (by simp [hp, hc])]
  have hstatus : ((s.modMgmt fun m => { m with transfer := some { t with committed := true } }).setObjAt 0x0C 0x434 0 2).objAt 0x0C 0x434 0 = 2 :=
    Dev.objAt_setObjAt_same ..
  split
  · exact ⟨_, rfl, rfl, hstatus⟩
  · exact ⟨_, rfl, rfl, hstatus⟩

/-- A transfer's end, nothing of it stored yet. -/
def xferEnded (s : State) (found : Nat) : State := (s.modMgmt fun m => { m with transfer := none }).setObjAt 0x0C 0x434 0 found

theorem exec_xferStoreDone (h : s.mgmt.transfer = some t) (hc : t.committed = true) : exec .xferStoreDone s = .next
    (let u := s.xferEnded (s.verifyTransfer t)
     if s.verifyTransfer t ≠ 3 then u
     else if t.target = 2 then u.carrierWrite (slotBase (if s.boot.slot = some 0 then 1 else 0)) (Table.getRange 0 t.data 0 8192)
     else (if u.objAt 0x0C 0x400 0 = 2 then u else u.storeWrite 0 (Table.getRange 0 t.data 0 t.len)).modBoot fun x => { x with storeBlank := false }) := by
  refine exec_next rfl ?_
  rw [h]
  exact if_neg (by simp [hc])

theorem carrierBytes_carrierWrite (s : State) (off : Nat) (b : List Byte) : (s.carrierWrite off b).carrierBytes off b.length = b := by
  refine List.ext_getElem (by simp [carrierBytes]) fun i hi hi' => ?_
  have hget := Table.get_setRange none (b.map some) s.boot.carrier off i (by simpa using hi')
  simp only [carrierBytes, List.getElem_map, List.getElem_range]
  refine (congrArg (fun o : Option Byte => o.getD (Config.carrierByte (off + i))) hget).trans ?_
  simp

end State

theorem xferStoreDone_spec {s : State} {t : Transfer} (h : s.mgmt.transfer = some t) (hc : t.committed = true) : ∃ u, exec .xferStoreDone s = .next u
    ∧ u.mgmt.transfer = none ∧ u.objAt 0x0C 0x434 0 = s.verifyTransfer t
        ∧ u.boot.counters = s.boot.counters ∧ (s.verifyTransfer t ≠ 3 → u.boot = s.boot) ∧
        (s.verifyTransfer t = 3 → t.target = 2 →
          u.carrierBytes (slotBase (if s.boot.slot = some 0 then 1 else 0)) 8192 = Table.getRange 0 t.data 0 8192 ∧ u.boot.store = s.boot.store) ∧
        (s.verifyTransfer t = 3 → t.target ≠ 2 → u.boot.storeBlank = false ∧ u.boot.carrier = s.boot.carrier) := by
  refine ⟨_, State.exec_xferStoreDone h hc, ?_⟩
  have hstatus : (s.xferEnded (s.verifyTransfer t)).objAt 0x0C 0x434 0 = s.verifyTransfer t := Dev.objAt_setObjAt_same ..
  have htransfer : (s.xferEnded (s.verifyTransfer t)).mgmt.transfer = none := rfl
  have hboot : (s.xferEnded (s.verifyTransfer t)).boot = s.boot := rfl
  dsimp only
  generalize s.xferEnded (s.verifyTransfer t) = u at *
  by_cases h3 : s.verifyTransfer t = 3
  · rw [if_neg (not_not.mpr h3)]
    by_cases h2 : t.target = 2
    · rw [if_pos h2]
      obtain ⟨data, hdata, hlen⟩ : ∃ data, Table.getRange 0 t.data 0 8192 = data ∧ data.length = 8192 := ⟨_, rfl, Table.length_getRange ..⟩
      rw [hdata]
      have hcounters : u.boot.counters = s.boot.counters := congrArg BootState.counters hboot
      have hstore : u.boot.store = s.boot.store := congrArg BootState.store hboot
      refine ⟨htransfer, hstatus, hcounters, fun hn => absurd h3 hn, fun _ _ => ⟨?_, hstore⟩, fun _ hn => absurd h2 hn⟩
      have hwrite := u.carrierBytes_carrierWrite (slotBase (if s.boot.slot = some 0 then 1 else 0)) data
      rw [hlen] at hwrite
      exact hwrite
    · rw [if_neg h2]
      have hkeep : ∀ v : State, v = (if u.objAt 0x0C 0x400 0 = 2 then u else u.storeWrite 0 (Table.getRange 0 t.data 0 t.len)) →
          v.mgmt = u.mgmt ∧ v.toDev = u.toDev ∧ v.boot.counters = u.boot.counters ∧ v.boot.carrier = u.boot.carrier := by
        rintro v rfl
        split <;> exact ⟨rfl, rfl, rfl, rfl⟩
      obtain ⟨hmgmt, hdev, hcount, hcarrier⟩ := hkeep _ rfl
      generalize (if u.objAt 0x0C 0x400 0 = 2 then u else u.storeWrite 0 (Table.getRange 0 t.data 0 t.len)) = v at *
      refine ⟨(congrArg MgmtState.transfer hmgmt).trans htransfer, ?_, hcount.trans (congrArg BootState.counters hboot), fun hn => absurd h3 hn,
        fun _ hn => absurd hn h2, fun _ _ => ⟨rfl, hcarrier.trans (congrArg BootState.carrier hboot)⟩⟩
      exact (congrArg (fun d : Dev => d.objAt 0x0C 0x434 0) hdev).trans hstatus
  · rw [if_pos h3]
    exact ⟨htransfer, hstatus, congrArg BootState.counters hboot, fun _ => hboot, fun h => absurd h h3, fun h => absurd h h3⟩

/-- What a path's transfers answer and leave (R719 to R722). -/
theorem transfer_spec (p : Path) (s : State) :
    let replied (u : State) (st : Nat) : Prop := u.mgmt.reply = some ⟨st, 0, []⟩
    let no (c : Instr) (st : Nat) : Prop := exec c s = .next { s with mgmt := { s.mgmt with reply := some ⟨st, 0, []⟩ } }
    (s.mgmt.transfer = none → (∀ off data, no (.xferWindow p off data) 9) ∧ (∀ v, no (.xferCommit p v) 9) ∧ exec .xferStoreDone s = .next s) ∧
    (∀ t, s.mgmt.transfer = some t →
      (∀ (off : U16) (data : List Byte),
        let at_ := s.objAt 0x0C 0x431 0 + off.toNat
        ((t.by_ ≠ p ∨ t.committed = true) → no (.xferWindow p off data) 9) ∧
        (t.by_ = p → t.committed = false →
          ((1024 < off.toNat + data.length ∨ t.len < at_ + data.length) → no (.xferWindow p off data) 4) ∧
          (off.toNat + data.length ≤ 1024 → at_ + data.length ≤ t.len → ∃ u, exec (.xferWindow p off data) s = .next u ∧ replied u 0 ∧ u.obj = s.obj ∧
            (¬(t.target = 1 ∧ s.objAt 0x0C 0x400 0 = 2) →
              u.mgmt.transfer = some { t with data := Table.setRange 0 t.data at_ data } ∧ u.boot = s.boot)))) ∧
      no (.xferCommit p false) 3 ∧ ((t.by_ ≠ p ∨ t.committed = true) → no (.xferCommit p true) 9) ∧
      (t.by_ = p → t.committed = false → ∃ u, exec (.xferCommit p true) s = .next u ∧ replied u 0 ∧ u.mgmt.transfer = some { t with committed := true }
        ∧ u.objAt 0x0C 0x434 0 = 2) ∧
      (t.committed = false → exec .xferStoreDone s = .next s)) := by
  dsimp only
  have hwindow (off : U16) (data : List Byte) {u : State} {st : Nat} (h : s.writeTransfer p off.toNat data = (u, st)) :
      exec (.xferWindow p off data) s = .next (u.answered st) := State.exec_answers (f := fun s => s.writeTransfer p off.toNat data) rfl h
  have hcommit (v : Bool) {u : State} {st : Nat} (h : s.commitTransfer p v = (u, st)) :
      exec (.xferCommit p v) s = .next (u.answered st) := State.exec_answers (f := fun s => s.commitTransfer p v) rfl h
  refine ⟨fun h => ⟨fun off data => hwindow off data (State.writeTransfer_none h ..), fun v => hcommit v (State.commitTransfer_none h v), ?_⟩,
    fun t h => ⟨fun off data => ⟨fun ho => ?_, fun hp hc => ⟨fun hlen => ?_, fun h1 h2 => ?_⟩⟩, hcommit false (State.commitTransfer_false h),
      fun ho => hcommit true (State.commitTransfer_other h ho), fun hp hc => ?_, fun hc => ?_⟩⟩
  · refine exec_next rfl ?_
    rw [h]
  · exact hwindow off data ((State.writeTransfer_some h ..).trans (if_pos (by simpa using ho)))
  · exact hwindow off data ((State.writeTransfer_some h ..).trans ((if_neg (by simp [hp, hc])).trans (if_pos (by simpa using hlen))))
  · have hin : ¬((1024 < off.toNat + data.length || t.len < s.objAt 0x0C 0x431 0 + off.toNat + data.length) = true) := by
      simp
      omega
    by_cases ht : t.target = 1 ∧ s.objAt 0x0C 0x400 0 = 2
    · refine ⟨_, hwindow off data ((State.writeTransfer_some h ..).trans ((if_neg (by simp [hp, hc])).trans ((if_neg hin).trans (if_pos (by simpa using ht))))),
        rfl, rfl, fun hn => absurd ht hn⟩
    · exact ⟨_, hwindow off data ((State.writeTransfer_some h ..).trans ((if_neg (by simp [hp, hc])).trans ((if_neg hin).trans (if_neg (by simpa using ht))))),
        rfl, rfl, fun _ => ⟨rfl, rfl⟩⟩
  · obtain ⟨u, hu, htransfer, hstatus⟩ := State.commitTransfer_mine h hp hc
    exact ⟨_, hcommit true hu, rfl, htransfer, hstatus⟩
  · refine exec_next rfl ?_
    rw [h]
    exact if_pos (by simp [hc])

end Sys2Proof.Machine
end

section
/-! PROOFS. Proofs/HotPlug.lean: links that fall and train, removal, parts and interlocks (O57). -/

namespace Sys2Proof.Machine

namespace Dev

/-- No fault queue is on, and no link that is up has anything to lose. -/
structure calm (s : Dev) : Prop where
  off : ∀ m, (s.mmu m).fqEn = false
  idle : ∀ l, s.linkUp l = true → (s.link l).sent = [] ∧ (s.link l).queue = []

/-- From s to u links of a calm device have gone down or begun to train, and it is calm. -/
structure relinked (s u : Dev) : Prop where
  calm : u.calm
  rest : u = { s with obj := u.obj, eventLog := u.eventLog, eventsOut := u.eventsOut, fab := { s.fab with links := u.fab.links, lastClass := u.fab.lastClass },
                      xl := { s.xl with mmus := u.xl.mmus } }
  objAt : ∀ a b c, b < 65536 → c < 256 → ¬(a = 0x0A ∧ b = 0x100) → ¬(a = 0x0C ∧ b = 0x120) → u.objAt a b c = s.objAt a b c

namespace relinked

variable {s t u : Dev}

theorem refl (h : s.calm) : s.relinked s := ⟨h, rfl, fun _ _ _ _ _ _ _ => rfl⟩

theorem trans (h1 : s.relinked t) (h2 : t.relinked u) : s.relinked u where
  calm := h2.calm
  rest := by rw [h2.rest, h1.rest]
  objAt a b c hb hc h h' := (h2.objAt a b c hb hc h h').trans (h1.objAt a b c hb hc h h')

theorem foldl {α : Type} {f : Dev → α → Dev} (hf : ∀ (s : Dev) (a : α), s.calm → s.relinked (f s a)) (l : List α) (h : s.calm) : s.relinked (l.foldl f s) := by
  induction l generalizing s with
  | nil => exact refl h
  | cons a l ih =>
    have h1 := hf s a h
    exact h1.trans (ih h1.calm)

end relinked

variable {s : Dev}

/-- A link's state that is not up keeps the device calm. -/
theorem calm.setLinkState (h : s.calm) (l : LinkId) {v : Nat} (hv : v ≠ 2) : (s.setLinkState l v).calm where
  off m := by rw [mmu_setLinkState]; exact h.off m
  idle k hk := by
    rw [link_setLinkState]
    refine h.idle k ?_
    rw [linkUp, objAt_setLinkState _ _ _ (by decide) (by omega) (by decide)] at hk
    split at hk
    · exact absurd (of_decide_eq_true hk) hv
    · exact hk

theorem relinked_setLinkState (h : s.calm) (l : LinkId) {v : Nat} (hv : v ≠ 2) : s.relinked (s.setLinkState l v) where
  calm := h.setLinkState l hv
  rest := by rw [(linksOnly_setLinkState (ox := 0) s l v).rest]
  objAt a b c hb hc h1 h2 := (objAt_setLinkState _ _ _ hb hc h2).trans (if_neg fun e => h1 ⟨e.1, e.2.1⟩)

/-- A link that is rebuilt with nothing to lose keeps the device calm. -/
theorem relinked_modLink (h : s.calm) (l : LinkId) {f : Link → Link}
    (hf : s.linkUp l = true → (f (s.link l)).sent = [] ∧ (f (s.link l)).queue = []) : s.relinked (s.modLink l f) where
  calm := {
    off := h.off
    idle := fun k hk => by
      rw [link_modLink]
      split
      · next he => exact he ▸ hf (by rw [← he]; exact hk)
      · exact h.idle k hk }
  rest := by rw [(linksOnly_modLink s l f).rest]
  objAt _ _ _ _ _ _ _ := rfl

theorem relinked_dropRecord (h : s.calm) (m : MmuId) : s.relinked (s.dropRecord m) where
  calm := {
    off := fun k => by
      unfold dropRecord modMmu
      rw [mmu_setMmu]
      split
      · next he => exact he ▸ h.off _
      · exact h.off k
    idle := h.idle }
  rest := rfl
  objAt _ _ _ _ _ _ _ := rfl

theorem relinked_trainLink (h : s.calm) (l : LinkId) : s.relinked (s.trainLink l) := by
  rw [trainLink_eq]
  have h1 := relinked_modLink h l (f := fun x => { history := x.history, queue := x.queue }) fun hup => ⟨rfl, (h.idle l hup).2⟩
  refine h1.trans (relinked_setLinkState h1.calm l ?_)
  unfold trainState
  split
  · decide
  · split <;> decide

theorem relinked_linkDown (h : s.calm) (l : LinkId) (cause : Nat) {v : Nat} (hv : v ≠ 2) : s.relinked (s.linkDown l cause v) := by
  cases hup : s.linkUp l with
  | false =>
    rw [linkDown_of_down hup]
    exact relinked_setLinkState h l hv
  | true =>
    obtain ⟨hs, hq⟩ := h.idle l hup
    obtain ⟨m, hm⟩ := linkDown_of_idle hup h.off hs hq cause v
    rw [hm, linkLost]
    have h1 := relinked_modLink h l (f := Link.fresh) fun _ => ⟨rfl, rfl⟩
    have h2 := relinked_setLinkState h1.calm l hv
    exact (h1.trans h2).trans (relinked_dropRecord h2.calm m)

theorem objAt_linkDown (h : s.calm) (l : LinkId) (cause : Nat) (v : Nat) {b c : Nat} (hb : b < 65536) (hc : c < 256) :
    (s.linkDown l cause v).objAt 0x0A b c = if b = 0x100 ∧ c = l.val then v else s.objAt 0x0A b c := by
  cases hup : s.linkUp l with
  | false =>
    rw [linkDown_of_down hup, objAt_setLinkState _ _ _ hb hc (by simp)]
    simp
  | true =>
    obtain ⟨hs, hq⟩ := h.idle l hup
    obtain ⟨m, hm⟩ := linkDown_of_idle hup h.off hs hq cause v
    rw [hm]
    refine (objAt_linkLost s l v hb hc (by simp)).trans ?_
    simp

/-- The links of a list go down in turn. -/
theorem foldl_linkDown (cause : Nat) {v : Nat} (hv : v ≠ 2) (ls : List LinkId) {s : Dev} (h : s.calm) :
    let u := ls.foldl (fun s l => s.linkDown l cause v) s
    s.relinked u ∧ ∀ l ∈ ls, u.objAt 0x0A 0x100 l.val = v := by
  have hkeep (ls : List LinkId) : ∀ {s : Dev}, s.calm → ∀ l : LinkId, s.objAt 0x0A 0x100 l.val = v →
      (ls.foldl (fun s l => s.linkDown l cause v) s).objAt 0x0A 0x100 l.val = v := by
    induction ls with
    | nil => exact fun _ _ h => h
    | cons k ls ih =>
      intro s h l hl
      refine ih (relinked_linkDown h k cause hv).calm l ?_
      rw [objAt_linkDown h k cause v (by decide) (by omega)]
      split
      · rfl
      · exact hl
  induction ls generalizing s with
  | nil => exact ⟨.refl h, nofun⟩
  | cons k ls ih =>
    have h1 := relinked_linkDown h k cause hv
    obtain ⟨hr, hin⟩ := ih h1.calm
    refine ⟨h1.trans hr, fun l hl => ?_⟩
    rcases List.mem_cons.mp hl with rfl | hl
    · exact hkeep ls h1.calm l ((objAt_linkDown h l cause v (by decide) (by omega)).trans (if_pos ⟨rfl, rfl⟩))
    · exact hin l hl

/-- An object that is no link's state may be set in a calm device. -/
theorem calm.setObjAt (h : s.calm) {a b c : Nat} (v : Nat) (hb : b < 65536) (hc : c < 256) (hne : ¬(a = 0x0A ∧ b = 0x100)) :
    (s.setObjAt a b c v).calm where
  off := h.off
  idle l hl := by
    refine h.idle l ?_
    have hstate : (s.setObjAt a b c v).objAt 0x0A 0x100 l.val = s.objAt 0x0A 0x100 l.val := by
      rw [objAt_setObjAt _ _ _ _ _ _ _ _ hc (by omega) hb (by decide), if_neg]
      rintro ⟨h1, h2, -⟩
      exact hne ⟨h1.symm, h2.symm⟩
    rw [linkUp, hstate] at hl
    exact hl

theorem relinked_writeEnable_off (h : s.calm) (l : LinkId) : (s.writeEnable l false).calm
    ∧ (s.writeEnable l false).objAt 0x0A 0x100 l.val = 3 ∧ (s.writeEnable l false).objAt 0x0A 0x101 l.val = 0
    ∧ ∀ k : LinkId, k ≠ l → (s.writeEnable l false).objAt 0x0A 0x100 k.val = s.objAt 0x0A 0x100 k.val
      ∧ (s.writeEnable l false).objAt 0x0A 0x101 k.val = s.objAt 0x0A 0x101 k.val := by
  have hset := h.setObjAt (a := 0x0A) (b := 0x101) (c := l.val) 0 (by decide) (by omega) (by decide)
  have heq : s.writeEnable l false = (s.setObjAt 0x0A 0x101 l.val 0).linkDown l 4 3 := rfl
  have hobj (b : Nat) (k : LinkId) (hb : b < 65536) := objAt_linkDown hset l 4 3 (b := b) (c := k.val) hb (by omega)
  have hput (b : Nat) (k : LinkId) (hb : b < 65536) := objAt_setObjAt s 0x0A 0x101 l.val 0x0A b k.val 0 (by omega) (by omega) (by decide) hb
  rw [heq]
  refine ⟨(relinked_linkDown hset l 4 (by decide)).calm, (hobj _ _ (by decide)).trans (if_pos ⟨rfl, rfl⟩), ?_, fun k hk => ?_⟩
  · rw [hobj _ _ (by decide), if_neg (by simp), hput _ _ (by decide)]
    simp
  · have hne : k.val ≠ l.val := fun e => hk (Fin.ext e)
    rw [hobj _ _ (by decide), hobj _ _ (by decide), hput _ _ (by decide), hput _ _ (by decide)]
    simp [hne]

/-- All the links of a list are disabled. -/
theorem foldl_writeEnable_off (ls : List LinkId) {s : Dev} (h : s.calm) :
    let u := ls.foldl (fun s l => s.writeEnable l false) s
    u.calm ∧ ∀ l : LinkId, (l ∈ ls ∨ s.objAt 0x0A 0x100 l.val = 3 ∧ s.objAt 0x0A 0x101 l.val = 0) →
      u.objAt 0x0A 0x100 l.val = 3 ∧ u.objAt 0x0A 0x101 l.val = 0 := by
  induction ls generalizing s with
  | nil => exact ⟨h, fun l hl => hl.resolve_left nofun⟩
  | cons k ls ih =>
    obtain ⟨hcalm, hstate, hen, hothers⟩ := relinked_writeEnable_off h k
    obtain ⟨hc, hin⟩ := ih hcalm
    refine ⟨hc, fun l hl => hin l ?_⟩
    by_cases hk : l = k
    · subst hk
      exact .inr ⟨hstate, hen⟩
    · refine hl.imp (fun hm => (List.mem_cons.mp hm).resolve_left hk) fun ⟨h1, h2⟩ => ?_
      exact ⟨(hothers l hk).1.trans h1, (hothers l hk).2.trans h2⟩

/-- A link that reads a state trains from it. -/
def trainFrom (s : Dev) (v : Nat) (l : LinkId) : Dev := if s.objAt 0x0A 0x100 l.val = v then s.trainLink l else s

theorem relinked_trainFrom (v : Nat) (ls : List LinkId) {s : Dev} (h : s.calm) : s.relinked (ls.foldl (fun d l => d.trainFrom v l) s) :=
  .foldl (fun _ l hd => iteInduction (fun _ => relinked_trainLink hd l) fun _ => .refl hd) ls h

end Dev

namespace State

theorem foldl_lift {α : Type} (f : α → Dev → Dev) (l : List α) (s : State) :
    l.foldl (fun s a => s.lift (f a)) s = { s with toDev := l.foldl (fun d a => f a d) s.toDev } := by
  induction l generalizing s with
  | nil => rfl
  | cons a l ih => exact ih _

theorem trainLink_lift (s : State) (l : LinkId) (v : Nat) : (if s.objAt 0x0A 0x100 l.val = v then s.trainLink l else s) = s.lift (fun d => d.trainFrom v l) := by
  by_cases h : s.objAt 0x0A 0x100 l.val = v
  · rw [if_pos h]
    exact congrArg (fun d : Dev => { s with toDev := d }) (if_pos h).symm
  · rw [if_neg h]
    exact congrArg (fun d : Dev => { s with toDev := d }) (if_neg h).symm

theorem foldl_train (ls : List LinkId) (v : Nat) (s : State) :
    ls.foldl (fun (s : State) l => if s.objAt 0x0A 0x100 l.val = v then s.trainLink l else s) s
      = { s with toDev := ls.foldl (fun d l => d.trainFrom v l) s.toDev } := by
  rw [← foldl_lift (fun l d => d.trainFrom v l)]
  exact List.foldl_ext _ _ _ fun u l _ => u.trainLink_lift l v

theorem mem_linksOf (n : Fin 4) (l : LinkId) (h : l.val / 8 = n.val) : l ∈ linksOf n.val :=
  List.mem_map.mpr ⟨l.val % 8, List.mem_range.mpr (by omega), Fin.ext (by simp only [linkId]; omega)⟩

/-- A module without light: it reads so, and its links read state 4 (R732, R737). -/
def darkened (u : State) (n : Fin 4) (v : Nat) : Prop := u.objAt 0x0C 0x450 n.val = v ∧ ∀ l : LinkId, l.val / 8 = n.val → u.objAt 0x0A 0x100 l.val = 4

theorem darken_spec {s : State} (h : s.toDev.calm) (n : Fin 4) (v : Nat) : (s.darken n.val v).darkened n v
    ∧ (s.setObjAt 0x0C 0x450 n.val v).toDev.relinked (s.darken n.val v).toDev ∧ s.darken n.val v = { s with toDev := (s.darken n.val v).toDev } := by
  have hset : (s.setObjAt 0x0C 0x450 n.val v).toDev.calm := h.setObjAt v (by decide) (by omega) (by decide)
  have heq : s.darken n.val v = { s with toDev := (linksOf n.val).foldl (fun d l => d.linkDown l 3 4) (s.setObjAt 0x0C 0x450 n.val v).toDev } :=
    foldl_lift (fun l d => d.linkDown l 3 4) (linksOf n.val) (s.setObjAt 0x0C 0x450 n.val v)
  obtain ⟨hr, hin⟩ := Dev.foldl_linkDown 3 (v := 4) (by decide) (linksOf n.val) hset
  have hlight : (s.setObjAt 0x0C 0x450 n.val v).objAt 0x0C 0x450 n.val = v := Dev.objAt_setObjAt_same ..
  rw [heq]
  generalize (linksOf n.val).foldl _ (s.setObjAt 0x0C 0x450 n.val v).toDev = d at *
  generalize (s.setObjAt 0x0C 0x450 n.val v).toDev = e at *
  exact ⟨⟨(hr.objAt _ _ _ (by decide) (by omega) (by decide) (by decide)).trans hlight, fun l hl => hin l (mem_linksOf n l hl)⟩, hr, rfl⟩

/-- A module that may be lit. -/
theorem lightLaser_spec {s : State} (h : s.toDev.calm) (n : Fin 4) :
    (s.mayLight n = true → (s.lightLaser n).objAt 0x0C 0x450 n.val = 2) ∧ (s.mayLight n = false → (s.lightLaser n).darkened n 1)
      ∧ (∀ b c, b < 65536 → c < 256 → b ≠ 0x450 → b ≠ 0x120 → (s.lightLaser n).objAt 0x0C b c = s.objAt 0x0C b c)
      ∧ (s.lightLaser n).toDev.calm ∧ s.lightLaser n = { s with toDev := (s.lightLaser n).toDev } := by
  have hput (v b c : Nat) (hb : b < 65536) (hc : c < 256) (hne : b ≠ 0x450) : (s.setObjAt 0x0C 0x450 n.val v).objAt 0x0C b c = s.objAt 0x0C b c :=
    (Dev.objAt_setObjAt _ _ _ _ _ _ _ _ (by omega) hc (by decide) hb).trans (if_neg fun e => hne e.2.1)
  cases hm : s.mayLight n with
  | false =>
    obtain ⟨hdark, hr, hrest⟩ := darken_spec h n 1
    rw [show s.lightLaser n = s.darken n.val 1 from if_neg (by simp [hm])]
    exact ⟨nofun, fun _ => hdark, fun b c hb hc hne h120 => (hr.objAt _ _ _ hb hc (by simp) (by simp [h120])).trans (hput _ _ _ hb hc hne), hr.calm, hrest⟩
  | true =>
    have hset : (s.setObjAt 0x0C 0x450 n.val 2).toDev.calm := h.setObjAt 2 (by decide) (by omega) (by decide)
    have heq : s.lightLaser n = { s with toDev := (linksOf n.val).foldl (fun d l => d.trainFrom 4 l) (s.setObjAt 0x0C 0x450 n.val 2).toDev } :=
      (if_pos hm).trans (foldl_train (linksOf n.val) 4 (s.setObjAt 0x0C 0x450 n.val 2))
    have hr := Dev.relinked_trainFrom 4 (linksOf n.val) hset
    have hlight : (s.setObjAt 0x0C 0x450 n.val 2).objAt 0x0C 0x450 n.val = 2 := Dev.objAt_setObjAt_same ..
    have hput := hput 2
    rw [heq]
    generalize (linksOf n.val).foldl _ (s.setObjAt 0x0C 0x450 n.val 2).toDev = d at *
    generalize (s.setObjAt 0x0C 0x450 n.val 2).toDev = e at *
    exact ⟨fun _ => (hr.objAt _ _ _ (by decide) (by omega) (by decide) (by decide)).trans hlight, nofun,
      fun b c hb hc hne h120 => (hr.objAt _ _ _ hb hc (by simp) (by simp [h120])).trans (hput _ _ hb hc hne), hr.calm, rfl⟩

end State
/-! Removal and what takes power away (R733 to R735, R742). -/

/-- Every key is drained and every queue detached (R734). -/
def State.removable (s : State) : Prop := (∀ k : BitVec 12, s.keyState k = .drained) ∧ ∀ e ∈ s.cmd.queues, e.2.state = .detached

theorem State.removable_iff (s : State) : s.removable ↔
    ¬(!(List.range 4096).all (fun k => decide (Table.get coldKey s.fab.keys k = .drained)) || s.cmd.queues.any (fun e => e.2.state ≠ .detached)) = true := by
  unfold State.removable
  simp only [Bool.or_eq_true, Bool.not_eq_true', not_or, Bool.not_eq_false, List.all_eq_true, decide_eq_true_eq, Bool.not_eq_true, List.any_eq_false,
    decide_not, List.mem_range]
  refine and_congr ⟨fun h k hk => ?_, fun h k => h k.toNat k.isLt⟩ .rfl
  have := h (BitVec.ofNat 12 k)
  rwa [Dev.keyState, BitVec.toNat_ofNat, Nat.mod_eq_of_lt hk] at this

/-- The links all disabled before a removal (R734). -/
def Dev.disabled (d : Dev) : Dev := (List.finRange 32).foldl (fun s l => s.writeEnable l false) d

/-- A module that prepares for its removal. -/
def State.preparing (s : State) : State :=
  (({ s with toDev := s.toDev.disabled } : State).modBoot fun x => { x with preparing := true }).setObjAt 0x0C 0x461 0 1

theorem exec_removePrepare {s : State} (h : s.removable) : exec (.removePrepare true) s = .next s.preparing := by
  refine exec_next rfl ((congrArg Prod.fst ((if_neg (by simp)).trans (if_neg (s.removable_iff.mp h)))).trans ?_)
  have hfold : (List.finRange 32).foldl (fun (s : State) l => s.writeEnable l false) s = { s with toDev := s.toDev.disabled } :=
    State.foldl_lift (fun l d => d.writeEnable l false) (List.finRange 32) s
  exact congrArg (fun u : State => (u.modBoot fun x => { x with preparing := true }).setObjAt 0x0C 0x461 0 1) hfold

theorem preparing_links {s : State} (hcalm : s.toDev.calm) (l : LinkId) : s.preparing.objAt 0x0A 0x101 l.val = 0 ∧ s.preparing.linkUp l = false := by
  obtain ⟨-, hin⟩ := Dev.foldl_writeEnable_off (List.finRange 32) hcalm
  obtain ⟨hstate, hen⟩ := hin l (.inl (List.mem_finRange l))
  change s.toDev.disabled.objAt _ _ _ = _ at hstate hen
  unfold State.preparing
  generalize s.toDev.disabled = d at *
  have hput (b : Nat) (hb : b < 65536) : (d.setObjAt 0x0C 0x461 0 1).objAt 0x0A b l.val = d.objAt 0x0A b l.val :=
    (Dev.objAt_setObjAt _ _ _ _ _ _ _ _ (by decide) (by omega) (by decide) hb).trans (if_neg (by simp))
  refine ⟨(hput _ (by decide)).trans hen, ?_⟩
  change (d.setObjAt 0x0C 0x461 0 1).linkUp l = false
  rw [Dev.linkUp, hput _ (by decide), hstate]
  rfl

theorem exec_readyForRemoval {s : State} (h : s.boot.preparing = true) : exec .readyForRemoval s = .next
    (((s.writeBackAll.modMem fun m => m.dramOnly).modPow fun p => { p with hotSwap := false, rails := false, attention := true }).modBoot
      (fun x => { x with preparing := false, prepared := true }) |>.setObjAt 0x0C 0x461 0 2) :=
  exec_next rfl ((if_neg (by simp [h])).trans rfl)

/-- From s to u the device alone has changed. -/
structure State.devOnly (s u : State) : Prop where
  pow : u.pow = s.pow
  mgmt : u.mgmt = s.mgmt
  boot : u.boot = s.boot
  pending : u.pending = s.pending

theorem State.devOnly.trans {s t u : State} (h1 : s.devOnly t) (h2 : t.devOnly u) : s.devOnly u :=
  ⟨h2.pow.trans h1.pow, h2.mgmt.trans h1.mgmt, h2.boot.trans h1.boot, h2.pending.trans h1.pending⟩

theorem State.devOnly.foldl {α : Type} {f : State → α → State} (hf : ∀ (u : State) a, u.devOnly (f u a)) (l : List α) (u : State) : u.devOnly (l.foldl f u) := by
  induction l generalizing u with
  | nil => exact ⟨rfl, rfl, rfl, rfl⟩
  | cons a l ih => exact (hf u a).trans (ih _)

/-- What is written back reaches neither power nor the root of trust (R734). -/
theorem State.devOnly_writeBackAll (s : State) : s.devOnly s.writeBackAll := by
  have hdrain : s.devOnly s.drainCombining := by
    unfold State.drainCombining
    refine .foldl (fun u t => ?_) _ _
    exact ⟨rfl, rfl, rfl, rfl⟩
  unfold State.writeBackAll
  refine hdrain.trans (.foldl (fun u t => ?_) _ _)
  exact ⟨rfl, rfl, rfl, rfl⟩

/-- What needs power is lost with it. -/
theorem lossOfSignal_eq (l : LinkId) (s : State) : exec (.lossOfSignal l) s = exec (.linkDown l 2) s := by
  have h1 : exec (.lossOfSignal l) s = .next (if s.linkUp l then s.linkFails l 2 else s) := rfl
  have h2 : exec (.linkDown l 2) s = .next { s with toDev := s.toDev.linkFails l 2 } := rfl
  rw [h1, h2]
  refine congrArg Host.Outcome.next ?_
  cases hup : s.linkUp l with
  | true => rfl
  | false =>
    have hno : s.toDev.linkFails l 2 = s.toDev := by
      unfold Dev.linkFails
      rw [hup]
      rfl
    rw [hno]
    rfl

theorem hotPlug_spec (s : State) :
    let lost (u : State) : Prop := u.pow.rails = false ∧ u.mem = {} ∧ u.cmd = {} ∧ u.obj = [] ∧ u.mgmt = {} ∧ u.boot.carrier = s.boot.carrier
      ∧ u.boot.store = s.boot.store ∧ u.boot.counters = s.boot.counters ∧ u.boot.secret = none ∧ u.pending = s.pending ∧ u.pow.latch = s.pow.latch
    let ready : Prop := (∀ k : BitVec 12, s.keyState k = .drained) ∧ ∀ e ∈ s.cmd.queues, e.2.state = .detached
    exec (.removePrepare false) s = .next s ∧ (¬ready → exec (.removePrepare true) s = .next s) ∧
    (ready → ∃ u, exec (.removePrepare true) s = .next u ∧ u.boot = { s.boot with preparing := true } ∧
      ((∀ m, (s.mmu m).fqEn = false) → (∀ l, s.linkUp l = true → (s.link l).sent = [] ∧ (s.link l).queue = []) →
        u.objAt 0x0C 0x461 0 = 1 ∧ ∀ l : LinkId, u.objAt 0x0A 0x101 l.val = 0 ∧ u.linkUp l = false)) ∧
    (s.boot.preparing = false → exec .readyForRemoval s = .next s) ∧
    (s.boot.preparing = true → ∃ u, exec .readyForRemoval s = .next u ∧ u.boot = { s.boot with preparing := false, prepared := true }
      ∧ u.pow = { s.pow with hotSwap := false, rails := false, attention := true } ∧ u.objAt 0x0C 0x461 0 = 2 ∧ u.mem.agents = Vector.replicate 10 {}) ∧
    (∃ u, exec .presenceOpen s = .next u ∧ lost u ∧ u.boot.pinClosed = false ∧ u.pow.hotSwap = false) ∧
    (s.boot.pinClosed = true → exec .presenceClose s = .next s) ∧
    (s.boot.pinClosed = false → exec .presenceClose s = .next { s with
      boot := { s.boot with pinClosed := true }, pow := { s.pow with hotSwap := true } }) ∧
    exec (.boundaryScanInstruction true) s = .next s ∧
    (∃ u, exec (.boundaryScanInstruction false) s = .next u ∧ lost u ∧ u.pow.scanHold = true) ∧
    (∀ l, exec (.lossOfSignal l) s = exec (.linkDown l 2) s) := by
  dsimp only
  refine ⟨exec_next rfl (congrArg Prod.fst (if_pos rfl)), fun hn => ?_, fun hr => ⟨_, exec_removePrepare hr, rfl, fun hoff hidle => ⟨?_, ?_⟩⟩, fun hp => ?_,
    fun hp => ?_, ⟨_, rfl, ⟨rfl, rfl, rfl, rfl, rfl, rfl, rfl, rfl, rfl, rfl, rfl⟩, rfl, rfl⟩, fun hp => exec_next rfl (if_pos hp),
    fun hp => exec_next rfl (if_neg (by simp [hp])), rfl,
    ⟨_, exec_next rfl (if_neg Bool.false_ne_true), ⟨rfl, rfl, rfl, rfl, rfl, rfl, rfl, rfl, rfl, rfl, rfl⟩, rfl⟩, fun l => lossOfSignal_eq l s⟩
  · exact exec_next rfl (congrArg Prod.fst ((if_neg (by simp)).trans (if_pos (not_not.mp (mt s.removable_iff.mpr hn)))))
  · exact Dev.objAt_setObjAt_same ..
  · exact fun l => preparing_links ⟨hoff, hidle⟩ l
  · exact exec_next rfl (if_pos (by simp [hp]))
  · obtain ⟨hpow, -, hboot, -⟩ := s.devOnly_writeBackAll
    refine ⟨_, exec_readyForRemoval hp, ?_⟩
    generalize s.writeBackAll = w at *
    exact ⟨congrArg (fun b : BootState => { b with preparing := false, prepared := true }) hboot,
      congrArg (fun p : PowerState => { p with hotSwap := false, rails := false, attention := true }) hpow, Dev.objAt_setObjAt_same .., rfl⟩

/-! Parts that come and go (R728, R731, R732, R737). -/

namespace State

theorem part_setPart (s : State) (i : Fin 9) (b : IdMem) : (s.setPart i b).part i = b := by
  unfold setPart part modBoot
  simp

/-- What the management controller reads of a part (R731). -/
theorem readPart_spec {s : State} (h : s.toDev.calm) (i : Fin 9) : (s.readPart i).objAt 0x0C 0x440 (i.val + 1) = ((s.part i).map idState).getD 0
    ∧ (5 ≤ i.val → (s.readPart i).objAt 0x0C 0x451 (i.val - 5) = match s.part i with
      | some b => if ((s.part i).map idState).getD 0 = 1 then fieldAt b 0x100 2 else 0
      | none => 0)
    ∧ (s.readPart i).toDev.calm ∧ (s.readPart i).boot = s.boot ∧ ∀ b c, b < 65536 → c < 256 → (s.readPart i).objAt 0x0A b c = s.objAt 0x0A b c := by
  have hset : (s.setObjAt 0x0C 0x440 (i.val + 1) (((s.part i).map idState).getD 0)).toDev.calm := h.setObjAt _ (by decide) (by omega) (by decide)
  have hput (v b c : Nat) (hb : b < 65536) (hc : c < 256) : (s.setObjAt 0x0C 0x440 (i.val + 1) v).objAt 0x0A b c = s.objAt 0x0A b c :=
    (Dev.objAt_setObjAt _ _ _ _ _ _ _ _ (by omega) hc (by decide) hb).trans (if_neg (by simp))
  have hstate : (s.setObjAt 0x0C 0x440 (i.val + 1) (((s.part i).map idState).getD 0)).objAt 0x0C 0x440 (i.val + 1) = ((s.part i).map idState).getD 0 :=
    Dev.objAt_setObjAt_same ..
  unfold readPart
  dsimp only
  have hput := hput (((s.part i).map idState).getD 0)
  generalize hw : s.setObjAt 0x0C 0x440 (i.val + 1) (((s.part i).map idState).getD 0) = w at *
  have hpart : w.part i = s.part i := by rw [← hw]; rfl
  have hboot : w.boot = s.boot := by rw [← hw]; rfl
  rw [hpart]
  split
  · have hput2 (v b c a : Nat) (hb : b < 65536) (hc : c < 256) (hne : ¬(a = 0x0C ∧ b = 0x451)) :
        (w.setObjAt 0x0C 0x451 (i.val - 5) v).objAt a b c = w.objAt a b c :=
      (Dev.objAt_setObjAt _ _ _ _ _ _ _ _ (by omega) hc (by decide) hb).trans (if_neg fun e => hne ⟨e.1, e.2.1⟩)
    exact ⟨(hput2 _ _ _ _ (by decide) (by omega) (by decide)).trans hstate, fun _ => Dev.objAt_setObjAt_same ..,
      hset.setObjAt (a := 0x0C) (b := 0x451) (c := i.val - 5) _ (by decide) (by omega) (by decide), hboot, fun b c hb hc => (hput2 _ _ _ _ hb hc (by simp)).trans (hput b c hb hc)⟩
  · next hi => exact ⟨hstate, fun hh => absurd hh hi, hset, hboot, hput⟩

end State

theorem darken_objAt {s : State} (h : s.toDev.calm) (n : Fin 4) (v : Nat) {b c : Nat} (hb : b < 65536) (hc : c < 256) (h1 : b ≠ 0x450) (h2 : b ≠ 0x120) :
    (s.darken n.val v).objAt 0x0C b c = s.objAt 0x0C b c := by
  obtain ⟨-, hr, -⟩ := State.darken_spec h n v
  have hput : (s.setObjAt 0x0C 0x450 n.val v).objAt 0x0C b c = s.objAt 0x0C b c :=
    (Dev.objAt_setObjAt _ _ _ _ _ _ _ _ (by omega) hc (by decide) hb).trans (if_neg fun e => h1 e.2.1)
  exact (hr.objAt _ _ _ hb hc (by simp) (by simp [h2])).trans hput

/-- The loss of a laser module (R737). -/
theorem laserModuleLoss_spec {s : State} (h : s.toDev.calm) (n : Fin 4) : ∃ u, exec (.laserModuleLoss n) s = .next u ∧ u.darkened n 0
    ∧ u.objAt 0x0C 0x440 (n.val + 2) = 0 ∧ u.part ⟨n.val + 1, by omega⟩ = none := by
  obtain ⟨i, hi⟩ : ∃ i : Fin 9, i = ⟨n.val + 1, by omega⟩ := ⟨_, rfl⟩
  have hexec : exec (.laserModuleLoss n) s = .next (((s.setPart i none).readPart i).darken n.val 0) := by rw [hi]; rfl
  have hpart := s.part_setPart i none
  have hcalm : (s.setPart i none).toDev.calm := h
  obtain ⟨hstate, -, hc, hboot, -⟩ := State.readPart_spec hcalm i
  obtain ⟨hdark, -, hrest⟩ := State.darken_spec hc n 0
  have hobj := darken_objAt hc n 0 (b := 0x440) (c := n.val + 2) (by decide) (by omega) (by decide) (by decide)
  refine ⟨_, hexec, hdark, hobj.trans ?_, ?_⟩
  · rw [hpart] at hstate
    rw [show n.val + 2 = i.val + 1 by rw [hi]]
    exact hstate
  · rw [← hi]
    unfold State.part at *
    rw [hrest, hboot]
    exact hpart

/-- An interlock set (R732). -/
def State.locked (s : State) (n : Fin 4) (v : Bool) : State := s.modBoot fun x => { x with interlock := x.interlock.set n v n.isLt }

/-- The laser interlocks (R732). -/
theorem laserInterlock_spec {s : State} (h : s.toDev.calm) (n : Fin 4) :
    (∃ u, exec (.laserInterlockOpen n) s = .next u ∧ u.boot = { s.boot with interlock := s.boot.interlock.set n.val false n.isLt }
      ∧ (s.objAt 0x0C 0x450 n.val = 2 → u.darkened n 1) ∧ (s.objAt 0x0C 0x450 n.val ≠ 2 → u = { s with boot := u.boot })) ∧
    (∃ u, exec (.laserInterlockClose n) s = .next u ∧ u.boot = { s.boot with interlock := s.boot.interlock.set n.val true n.isLt }
      ∧ (s.objAt 0x0C 0x450 n.val ≠ 1 → u = { s with boot := u.boot }) ∧ (s.objAt 0x0C 0x450 n.val = 1 → u.mayLight n = false → u.darkened n 1) ∧
      (s.objAt 0x0C 0x450 n.val = 1 → u.mayLight n = true → u.objAt 0x0C 0x450 n.val = 2)) := by
  have hopen : exec (.laserInterlockOpen n) s = .next (if s.objAt 0x0C 0x450 n.val = 2 then (s.locked n false).darken n.val 1 else s.locked n false) := rfl
  have hclose : exec (.laserInterlockClose n) s = .next (if s.objAt 0x0C 0x450 n.val = 1 then (s.locked n true).lightLaser n else s.locked n true) := rfl
  have hcalm (v : Bool) : (s.locked n v).toDev.calm := h
  have hboot (v : Bool) : (s.locked n v).boot = { s.boot with interlock := s.boot.interlock.set n.val v n.isLt } := rfl
  have hrest (v : Bool) : s.locked n v = { s with boot := (s.locked n v).boot } := rfl
  constructor
  · obtain ⟨hdark, -, hkeep⟩ := State.darken_spec (hcalm false) n 1
    by_cases hl : s.objAt 0x0C 0x450 n.val = 2
    · rw [if_pos hl] at hopen
      exact ⟨_, hopen, by rw [hkeep]; exact hboot false, fun _ => hdark, fun hn => absurd hl hn⟩
    · rw [if_neg hl] at hopen
      exact ⟨_, hopen, hboot false, fun hh => absurd hh hl, fun _ => hrest false⟩
  · obtain ⟨hlit, hdark, -, -, hkeep⟩ := State.lightLaser_spec (hcalm true) n
    by_cases hl : s.objAt 0x0C 0x450 n.val = 1
    · rw [if_pos hl] at hclose
      have hmay : ((s.locked n true).lightLaser n).mayLight n = (s.locked n true).mayLight n := by rw [hkeep]; rfl
      exact ⟨_, hclose, by rw [hkeep]; exact hboot true, fun hn => absurd hl hn, fun _ hm => hdark (hmay ▸ hm), fun _ hm => hlit (hmay ▸ hm)⟩
    · rw [if_neg hl] at hclose
      exact ⟨_, hclose, hboot true, fun _ => hrest true, fun hh => absurd hh hl, fun hh => absurd hh hl⟩

/-- A part that is inserted (R728, R731, R732). -/
theorem hotJoin_spec {s : State} (h : s.toDev.calm) (n : Fin 4) (contents : List Byte) :
    (∃ u, exec (.hotJoin (.laser n) contents) s = .next u ∧ u.part ⟨n.val + 1, by omega⟩ = some contents ∧ u.objAt 0x0C 0x440 (n.val + 2) = idState contents
        ∧ (u.mayLight n = false → u.darkened n 1) ∧ (u.mayLight n = true → u.objAt 0x0C 0x450 n.val = 2)) ∧
    (∃ u, exec (.hotJoin (.fibre n) contents) s = .next u ∧ u.part ⟨n.val + 5, by omega⟩ = some contents ∧ u.objAt 0x0C 0x440 (n.val + 6) = idState contents
        ∧ u.objAt 0x0C 0x451 n.val = (if idState contents = 1 then fieldAt contents 0x100 2 else 0)) := by
  constructor
  · obtain ⟨i, hi⟩ : ∃ i : Fin 9, i = ⟨n.val + 1, by omega⟩ := ⟨_, rfl⟩
    have hexec : exec (.hotJoin (.laser n) contents) s = .next (((s.setPart i (some contents)).readPart i).lightLaser n) := by rw [hi]; rfl
    have hpart := s.part_setPart i (some contents)
    have hcalm : (s.setPart i (some contents)).toDev.calm := h
    obtain ⟨hstate, -, hc, hboot, -⟩ := State.readPart_spec hcalm i
    obtain ⟨hlit, hdark, hobj, -, hkeep⟩ := State.lightLaser_spec hc n
    have hmay : (((s.setPart i (some contents)).readPart i).lightLaser n).mayLight n = ((s.setPart i (some contents)).readPart i).mayLight n := by
      rw [hkeep]; rfl
    refine ⟨_, hexec, ?_, (hobj _ _ (by decide) (by omega) (by decide) (by decide)).trans ?_, fun hm => hdark (hmay ▸ hm), fun hm => hlit (hmay ▸ hm)⟩
    · rw [← hi]
      unfold State.part at *
      rw [hkeep, hboot]
      exact hpart
    · rw [hpart] at hstate
      rw [show n.val + 2 = i.val + 1 by rw [hi]]
      exact hstate
  · obtain ⟨i, hi⟩ : ∃ i : Fin 9, i = ⟨n.val + 5, by omega⟩ := ⟨_, rfl⟩
    have hexec : exec (.hotJoin (.fibre n) contents) s = .next ((linksOf n.val).foldl
        (fun s l => if s.objAt 0x0A 0x100 l.val = 0 then s.trainLink l else s) ((s.setPart i (some contents)).readPart i)) := by rw [hi]; rfl
    have hpart := s.part_setPart i (some contents)
    have hcalm : (s.setPart i (some contents)).toDev.calm := h
    obtain ⟨hstate, hlength, hc, hboot, -⟩ := State.readPart_spec hcalm i
    rw [hpart] at hstate hlength
    rw [State.foldl_train] at hexec
    have hr := Dev.relinked_trainFrom 0 (linksOf n.val) hc
    generalize (s.setPart i (some contents)).readPart i = a at *
    generalize (linksOf n.val).foldl _ a.toDev = d at *
    have hobj {b c : Nat} (hb : b < 65536) (hc : c < 256) (h120 : b ≠ 0x120) : d.objAt 0x0C b c = a.objAt 0x0C b c :=
      hr.objAt _ _ _ hb hc (by simp) (by simp [h120])
    refine ⟨_, hexec, ?_, (hobj (by decide) (by omega) (by decide)).trans ?_, (hobj (by decide) (by omega) (by decide)).trans ?_⟩
    · rw [← hi]
      unfold State.part at *
      exact (congrArg (fun b : BootState => b.parts[i]) hboot).trans hpart
    · rw [show n.val + 6 = i.val + 1 by rw [hi]]
      exact hstate
    · have h5 : i.val = n.val + 5 := by rw [hi]
      have := hlength (by omega)
      rw [show i.val - 5 = n.val by omega] at this
      exact this

/-- Settles O57: a transfer's status and the store it may erase are log entry 60, an absent module's light is log entry 61, and all state is lost at once
with the rails (log entry 57). -/
theorem transfersAndHotPlug : Obligations.TransfersAndHotPlug := by
  unfold Obligations.TransfersAndHotPlug
  refine ⟨fun p s => ?_, hotPlug_spec, fun n s hoff hidle => ?_⟩
  · obtain ⟨hfalse, hnone, hsome⟩ := attest_spec p s
    obtain ⟨hno, hxfer⟩ := transfer_spec p s
    refine ⟨hfalse, hnone, hsome, fun v => xferBegin_spec p s v, hno, fun t ht => ?_⟩
    obtain ⟨h1, h2, h3, h4, h5⟩ := hxfer t ht
    exact ⟨h1, h2, h3, h4, h5, fun hc => xferStoreDone_spec ht hc⟩
  · obtain ⟨hopen, hclose⟩ := laserInterlock_spec ⟨hoff, hidle⟩ n
    exact ⟨laserModuleLoss_spec ⟨hoff, hidle⟩ n, hopen, hclose, fun contents => hotJoin_spec ⟨hoff, hidle⟩ n contents⟩

end Sys2Proof.Machine
end

section
/-! PROOFS. Proofs/BootSteps.lean: write-backs, parts and latches as a module boots (O56). -/

namespace Sys2Proof.Machine

/-! What is written back reaches no fatal log while no fault queue is on (R481, R739). -/

namespace Dev

/-- From s to t, if no fault queue is on in s, none is in t, and nothing has become module-fatal. -/
def offQuiet (s t : Dev) : Prop := (∀ m, (s.mmu m).fqEn = false) → (∀ m, (t.mmu m).fqEn = false) ∧ t.xl.fatalLog = s.xl.fatalLog

variable {s t u : Dev}

theorem offQuiet.trans (h1 : s.offQuiet t) (h2 : t.offQuiet u) : s.offQuiet u := fun hoff =>
  ⟨(h2 (h1 hoff).1).1, (h2 (h1 hoff).1).2.trans (h1 hoff).2⟩

theorem offQuiet.of_memOnly (h : s.memOnly t) : s.offQuiet t := fun hoff => by
  rw [h]
  exact ⟨hoff, rfl⟩

theorem offQuiet_dropRecord (s : Dev) (m : MmuId) : s.offQuiet (s.dropRecord m) := fun hoff =>
  ⟨fun k => by
    unfold dropRecord modMmu
    rw [mmu_setMmu]
    split
    · next he => exact he ▸ hoff _
    · exact hoff k, rfl⟩

theorem offQuiet_reportTo (s : Dev) (m : MmuId) {r : FaultRecord} (hr : r.cls ≠ .fatal) : s.offQuiet (s.reportTo m r) := fun hoff => by
  have : s.reportTo m r = s.dropRecord m := by
    unfold reportTo
    dsimp only
    rw [if_neg hr, if_pos (by rw [hoff m]; rfl)]
  rw [this]
  exact s.offQuiet_dropRecord m hoff

theorem offQuiet_dramReadBy (s : Dev) (tag : LineTag) (n : Nat) : s.offQuiet (dramReadBy reportDram s tag none n).1 := by
  have herr : s.offQuiet ((s.bump 7 0x100 (s.stackOf (tagLoc tag)) 1).readError none).1 :=
    offQuiet.trans (.of_memOnly (memOnly_bump ..)) (.of_memOnly (memOnly_readError ..))
  have hcount (u : Dev) (b : Nat) : u.offQuiet (u.bump 7 b (s.stackOf (tagLoc tag)) 1) := .of_memOnly (memOnly_bump ..)
  have hwrite (u : Dev) (d : LineData) : u.offQuiet (u.dramWrite tag d false) := .of_memOnly rfl
  have hrep (u : Dev) : u.offQuiet (reportDram u tag n) := offQuiet_reportTo u _ RecClass.noConfusion
  unfold dramReadBy
  dsimp only
  generalize (s.bump 7 0x100 (s.stackOf (tagLoc tag)) 1).readError none = r at herr
  split
  · exact herr
  · exact herr.trans ((hcount _ _).trans (hcount _ _))
  · exact herr
  · exact herr.trans ((hcount _ _).trans (hwrite _ _))
  · exact herr
  · split
    · exact herr.trans ((hcount _ _).trans (hrep _))
    · exact herr.trans ((hcount _ _).trans ((hcount _ _).trans ((offQuiet.of_memOnly (memOnly_dramSetPoison ..)).trans
        ((offQuiet.of_memOnly (memOnly_bump ..)).trans (hrep _)))))

theorem offQuiet_closed : memClosed offQuiet reportDram where
  trans := offQuiet.trans
  mem h _ _ := .of_memOnly h
  count _ _ _ _ _ _ := .of_memOnly (memOnly_bump ..)
  read := offQuiet_dramReadBy

end Dev

namespace State

/-! Dictionary values alone. -/

/-- From s to u dictionary values alone have changed, all of objects that W names. -/
structure sets (W : Nat → Nat → Prop) (s u : State) : Prop where
  rest : u = { s with obj := u.obj }
  objAt : ∀ a b c, b < 65536 → c < 256 → ¬W a b → u.objAt a b c = s.objAt a b c

section
variable {W W' : Nat → Nat → Prop} {s t u : State}

theorem sets.refl (W : Nat → Nat → Prop) (s : State) : sets W s s := ⟨rfl, fun _ _ _ _ _ _ => rfl⟩

theorem sets.trans (h1 : sets W s t) (h2 : sets W t u) : sets W s u where
  rest := by rw [h2.rest, h1.rest]
  objAt a b c hb hc h := (h2.objAt a b c hb hc h).trans (h1.objAt a b c hb hc h)

theorem sets.foldl {α : Type} {f : State → α → State} (l : List α) (hf : ∀ (s : State), ∀ a ∈ l, sets W s (f s a)) (s : State) : sets W s (l.foldl f s) := by
  induction l generalizing s with
  | nil => exact .refl W s
  | cons a l ih => exact (hf s a (List.mem_cons_self ..)).trans (ih (fun s b hb => hf s b (List.mem_cons_of_mem _ hb)) _)

theorem sets.put (s : State) {a b c : Nat} (v : Nat) (hb : b < 65536) (hc : c < 256) (hW : W a b) : sets W s (s.setObjAt a b c v) where
  rest := rfl
  objAt a' b' c' hb' hc' h := by
    refine (Dev.objAt_setObjAt _ _ _ _ _ _ _ _ hc hc' hb hb').trans (if_neg ?_)
    rintro ⟨rfl, rfl, -⟩
    exact h hW

theorem sets.setOp (s : State) {d : Nat} (v : Nat) (hd : d < 256) (h2 : W 0x0B 0x202) (h4 : W 0x0B 0x204) : sets W s (s.setOp d v) :=
  (sets.put s v (by decide) hd h2).trans (sets.put _ _ (by decide) hd h4)

/-! The steps of a boot up to its image (R617, R709, R731). -/

/-- From s to u objects that W names have been set, and links have gone down or begun to train; the device is calm. -/
structure settles (W : Nat → Nat → Prop) (s u : State) : Prop where
  calm : u.toDev.calm
  rest : u = { s with obj := u.obj, eventLog := u.eventLog, eventsOut := u.eventsOut, fab := { s.fab with links := u.fab.links, lastClass := u.fab.lastClass },
                      xl := { s.xl with mmus := u.xl.mmus } }
  objAt : ∀ a b c, b < 65536 → c < 256 → ¬W a b → u.objAt a b c = s.objAt a b c

theorem settles.refl (h : s.toDev.calm) : settles W s s := ⟨h, rfl, fun _ _ _ _ _ _ => rfl⟩

theorem settles.trans (h1 : settles W s t) (h2 : settles W t u) : settles W s u where
  calm := h2.calm
  rest := by rw [h2.rest, h1.rest]
  objAt a b c hb hc h := (h2.objAt a b c hb hc h).trans (h1.objAt a b c hb hc h)

theorem settles.mono (h : settles W s u) (hW : ∀ a b, W a b → W' a b) : settles W' s u :=
  ⟨h.calm, h.rest, fun a b c hb hc hn => h.objAt a b c hb hc (mt (hW a b) hn)⟩

theorem settles.foldl {α : Type} {f : State → α → State} (hf : ∀ (s : State) (a : α), s.toDev.calm → settles W s (f s a)) (l : List α)
    (h : s.toDev.calm) : settles W s (l.foldl f s) := by
  induction l generalizing s with
  | nil => exact .refl h
  | cons a l ih =>
    have h1 := hf s a h
    exact h1.trans (ih h1.calm)

/-- The links' states are not among the objects. -/
theorem sets.calm (h : sets W s u) (hW : ¬W 0x0A 0x100) (hc : s.toDev.calm) : u.toDev.calm where
  off m := by rw [h.rest]; exact hc.off m
  idle l hl := by
    have hlink : u.toDev.link l = s.toDev.link l := by rw [h.rest]; rfl
    rw [hlink]
    refine hc.idle l ?_
    have := h.objAt 0x0A 0x100 l.val (by decide) (by omega) hW
    unfold Dev.linkUp at *
    rw [← this]
    exact hl

theorem sets.settles (h : sets W s u) (hW : ¬W 0x0A 0x100) (hc : s.toDev.calm) : settles W s u :=
  ⟨h.calm hW hc, by rw [h.rest], h.objAt⟩

theorem settles.of_relinked {d : Dev} (h : s.toDev.relinked d) (h1 : W 0x0A 0x100) (h2 : W 0x0C 0x120) : settles W s { s with toDev := d } where
  calm := h.calm
  rest := congrArg (fun e : Dev => { s with toDev := e }) h.rest
  objAt a b c hb hc hn := h.objAt a b c hb hc (fun e => hn (e.1 ▸ e.2 ▸ h1)) (fun e => hn (e.1 ▸ e.2 ▸ h2))

/-- The objects that the parts and the service rails show. -/
def partObjects (a b : Nat) : Prop :=
  a = 0x0A ∧ b = 0x100 ∨ a = 0x0B ∧ (b = 0x202 ∨ b = 0x204) ∨ a = 0x0C ∧ (b = 0x120 ∨ b = 0x440 ∨ b = 0x450 ∨ b = 0x451)

theorem settles_put (h : s.toDev.calm) {a b c : Nat} (v : Nat) (hb : b < 65536) (hc : c < 256) (hW : W a b) (hne : ¬(a = 0x0A ∧ b = 0x100)) :
    settles W s (s.setObjAt a b c v) := ⟨h.setObjAt v hb hc hne, rfl, (sets.put s v hb hc hW).objAt⟩

theorem settles_darken (h : s.toDev.calm) (n : Fin 4) (v : Nat) : settles partObjects s (s.darken n.val v) := by
  obtain ⟨-, hr, hrest⟩ := darken_spec h n v
  have hput := settles_put (W := partObjects) h (a := 0x0C) (b := 0x450) (c := n.val) v (by decide) (by omega) (by simp [partObjects]) (by simp)
  rw [hrest]
  exact hput.trans (.of_relinked (s := s.setObjAt 0x0C 0x450 n.val v) hr (by simp [partObjects]) (by simp [partObjects]))

theorem settles_lightLaser (h : s.toDev.calm) (n : Fin 4) : settles partObjects s (s.lightLaser n) := by
  unfold lightLaser
  refine iteInduction (motive := settles partObjects s) (fun _ => ?_) fun _ => settles_darken h n 1
  have hput := settles_put (W := partObjects) h (a := 0x0C) (b := 0x450) (c := n.val) 2 (by decide) (by omega) (by simp [partObjects]) (by simp)
  rw [foldl_train]
  exact hput.trans (.of_relinked (s := s.setObjAt 0x0C 0x450 n.val 2) (Dev.relinked_trainFrom 4 (linksOf n.val) hput.calm) (by simp [partObjects]) (by simp [partObjects]))

theorem settles_readPart (h : s.toDev.calm) (i : Fin 9) : settles partObjects s (s.readPart i) := by
  unfold readPart
  dsimp only
  have hput := settles_put (W := partObjects) h (a := 0x0C) (b := 0x440) (c := i.val + 1) (((s.part i).map idState).getD 0) (by decide) (by omega)
    (by simp [partObjects]) (by simp)
  refine iteInduction (motive := settles partObjects s) (fun _ => ?_) fun _ => hput
  exact hput.trans (settles_put hput.calm _ (by decide) (by omega) (by simp [partObjects]) (by simp))

theorem settles_readParts (h : s.toDev.calm) : settles partObjects s s.readParts := by
  unfold readParts
  have h1 := settles_put (W := partObjects) h (a := 0x0C) (b := 0x440) (c := 0) (idState (s.carrierBytes 0 256)) (by decide) (by decide)
    (by simp [partObjects]) (by simp)
  have h2 := h1.trans (.foldl (f := fun s i => s.readPart i) (fun s i hs => settles_readPart hs i) (List.finRange 9) h1.calm)
  refine h2.trans (.foldl (fun s n hs => ?_) (List.finRange 4) h2.calm)
  exact iteInduction (fun _ => settles_lightLaser hs n) fun _ => settles_darken hs n 0

/-- The objects of a die's operating point. -/
def railObjects (a b : Nat) : Prop := a = 0x0B ∧ (b = 0x202 ∨ b = 0x204)

theorem sets_setOp (s : State) {d : Nat} (v : Nat) (hd : d < 256) : sets railObjects s (s.setOp d v) :=
  .setOp s v hd ⟨rfl, .inl rfl⟩ ⟨rfl, .inr rfl⟩

theorem settles_serviceRails (h : s.toDev.calm) : settles partObjects s s.serviceRails :=
  (((sets_setOp s 2 (by decide)).trans (sets_setOp _ 2 (by decide))).settles (by simp [railObjects]) h).mono fun _ _ h => .inr (.inl h)

/-! The latched cause of a shutdown (R617). -/

/-- What vin_shutdown reads for a latched cause. -/
def latchCode : Option Shutdown → Option Nat
  | none => none
  | some .sagReset => some 1
  | some .overVoltage => some 2
  | some (.thermalTrip _) => some 3

/-- A record of the power manager while no fault queue is on is dropped. -/
theorem powerRecord_calm (h : s.toDev.calm) (kind count detail : Nat) :
    s.powerRecord kind count detail = { s with toDev := s.toDev.dropRecord 1 } :=
  congrArg (fun d : Dev => { s with toDev := d }) (Dev.report_of_off (d := 19) RecClass.noConfusion (h.off 1))

theorem settles_powerRecord (h : s.toDev.calm) (h1 : W 0x0A 0x100) (h2 : W 0x0C 0x120) (kind count detail : Nat) :
    settles W s (s.powerRecord kind count detail) := by
  rw [powerRecord_calm h]
  exact .of_relinked (Dev.relinked_dropRecord h 1) h1 h2

/-- The objects that a boot shows before it has an image, but for the kind of the reset. -/
def earlyObjects (a b : Nat) : Prop := partObjects a b ∨ a = 0x0B ∧ b = 0x605

/-- A state whose latch is clear. -/
def unlatched (s : State) : State := s.modPow fun p => { p with latch := none }

theorem settles.unlatched (h : settles W s u) : settles W s.unlatched u.unlatched where
  calm := h.calm
  rest := congrArg State.unlatched h.rest
  objAt := h.objAt

/-- The power manager shows a latched cause and records it. -/
theorem showLatch_spec (h : s.toDev.calm) (code count detail : Nat) : let u := (s.unlatched.setObjAt 0x0B 0x605 0 code).powerRecord 0x31 count detail
    settles earlyObjects s.unlatched u ∧ u.objAt 0x0B 0x605 0 = code := by
  have h1 := settles_put (W := earlyObjects) (s := s.unlatched) h (a := 0x0B) (b := 0x605) (c := 0) code (by decide) (by decide) (.inr ⟨rfl, rfl⟩) (by simp)
  have h2 := settles_powerRecord (W := earlyObjects) h1.calm (.inl (by simp [partObjects])) (.inl (by simp [partObjects])) 0x31 count detail
  refine ⟨h1.trans h2, ?_⟩
  rw [powerRecord_calm h1.calm]
  exact Dev.objAt_setObjAt_same ..

theorem takeLatch_spec (h : s.toDev.calm) : settles earlyObjects s.unlatched s.takeLatch
    ∧ ∀ n, latchCode s.pow.latch = some n → s.takeLatch.objAt 0x0B 0x605 0 = n := by
  unfold takeLatch
  split
  · next hn =>
    refine ⟨?_, fun n hc => by rw [hn] at hc; exact absurd hc nofun⟩
    have : s.unlatched = s := by
      unfold State.unlatched modPow
      rw [← hn]
    rw [this]
    exact .refl h
  · next c hc =>
    rw [hc]
    cases c with
    | sagReset =>
      obtain ⟨h1, h2⟩ := showLatch_spec h 1 0 (1 + 0 * 2 ^ 8)
      exact ⟨h1, fun n hn => h2.trans (Option.some.inj hn)⟩
    | overVoltage =>
      obtain ⟨h1, h2⟩ := showLatch_spec h 2 0 (2 + 0 * 2 ^ 8)
      exact ⟨h1, fun n hn => h2.trans (Option.some.inj hn)⟩
    | thermalTrip d =>
      obtain ⟨h1, h2⟩ := showLatch_spec h 3 0 (3 + d.val * 2 ^ 8)
      exact ⟨h1, fun n hn => h2.trans (Option.some.inj hn)⟩

/-- The objects that a boot shows before it has an image. -/
def commonObjects (a b : Nat) : Prop := earlyObjects a b ∨ a = 0x0C ∧ b = 0x405

/-- What a boot does in every outcome (R617, R709, R731). -/
theorem bootCommon_spec (h : s.toDev.calm) (kind : Nat) : settles commonObjects s.unlatched (s.bootCommon kind)
    ∧ (s.bootCommon kind).objAt 0x0C 0x405 0 = kind ∧ ∀ n, latchCode s.pow.latch = some n → (s.bootCommon kind).objAt 0x0B 0x605 0 = n := by
  unfold bootCommon
  have h1 := settles_put (W := commonObjects) h (a := 0x0C) (b := 0x405) (c := 0) kind (by decide) (by decide) (.inr ⟨rfl, rfl⟩) (by simp)
  have hkind : (s.setObjAt 0x0C 0x405 0 kind).objAt 0x0C 0x405 0 = kind := Dev.objAt_setObjAt_same ..
  have hl1 : (s.setObjAt 0x0C 0x405 0 kind).pow.latch = s.pow.latch := rfl
  generalize s.setObjAt 0x0C 0x405 0 kind = t at *
  have h2 := settles_serviceRails h1.calm
  have hl2 : t.serviceRails.pow.latch = t.pow.latch := rfl
  generalize t.serviceRails = v at *
  obtain ⟨h3, hcode⟩ := takeLatch_spec h2.calm
  have hkeep : v.takeLatch.objAt 0x0C 0x405 0 = v.objAt 0x0C 0x405 0 := h3.objAt _ _ _ (by decide) (by decide) (by simp [earlyObjects, partObjects])
  generalize v.takeLatch = w at *
  have h4 := settles_readParts h3.calm
  generalize w.readParts = x at *
  have hpart : ∀ a b, partObjects a b → commonObjects a b := fun _ _ h => .inl (.inl h)
  refine ⟨((h1.trans (h2.mono hpart)).unlatched.trans (h3.mono fun _ _ h => .inl h)).trans (h4.mono hpart), ?_, fun n hn => ?_⟩
  · exact (h4.objAt _ _ _ (by decide) (by decide) (by simp [partObjects])).trans (hkeep.trans
      ((h2.objAt _ _ _ (by decide) (by decide) (by simp [partObjects])).trans hkind))
  · exact (h4.objAt _ _ _ (by decide) (by decide) (by simp [partObjects])).trans (hcode n (by rw [hl2, hl1]; exact hn))

end
end State
end Sys2Proof.Machine
end

section
/-! PROOFS. Proofs/BootImage.lean: what a boot keeps from its image on (O56). -/

namespace Sys2Proof.Machine

/-- What a boot leaves as it is, from its image on. -/
structure Standing where
  now : U64
  cmd : CmdState
  pending : List Instr
  keys : Table KeyState
  sessions : List Session
  rails : Bool
  hotSwap : Bool
  bringUpLatch : Bool
  latch : Option Shutdown
  reading : Option BootReading
  slot : Option Nat
  secret : Option (List Byte)

namespace State

def standing (s : State) : Standing where
  now := s.now
  cmd := s.cmd
  pending := s.pending
  keys := s.fab.keys
  sessions := s.mgmt.sessions
  rails := s.pow.rails
  hotSwap := s.pow.hotSwap
  bringUpLatch := s.pow.bringUpLatch
  latch := s.pow.latch
  reading := s.boot.reading
  slot := s.boot.slot
  secret := s.boot.secret

/-- The objects that a boot leaves once it has an image. -/
def keptObjects (a b : Nat) : Prop := a = 0x0B ∧ (b = 0x302 ∨ b = 0x605) ∨ a = 0x0C ∧ (b = 0x405 ∨ b = 0x406)

/-- The objects that it may set as it likes: neither those, nor a connection's state, nor a link's. -/
def freeObjects (a b : Nat) : Prop := ¬keptObjects a b ∧ ¬(a = 9 ∧ b = 0x101) ∧ ¬(a = 0x0A ∧ b = 0x100)

/-- From s to u a boot has gone on from its image; where T does not hold no trim has changed. -/
structure boots (T : Bool) (s u : State) : Prop where
  standing : u.standing = s.standing
  trims : T = false → u.pow.trims = s.pow.trims
  objAt : ∀ a b, keptObjects a b → u.objAt a b 0 = s.objAt a b 0
  down : ∀ c, c < 256 → s.objAt 9 0x101 c = 1 → u.objAt 9 0x101 c = 1
  calm : s.toDev.calm → u.toDev.calm ∧ u.resetDue = s.resetDue ∧ u.xl.fatalLog = s.xl.fatalLog

theorem keptObjects.index {a b : Nat} (h : keptObjects a b) : b < 65536 := by
  unfold keptObjects at h
  omega

section
variable {T : Bool} {s t u : State}

theorem boots.refl (T : Bool) (s : State) : boots T s s := ⟨rfl, fun _ => rfl, fun _ _ _ => rfl, fun _ _ h => h, fun h => ⟨h, rfl, rfl⟩⟩

theorem boots.trans (h1 : boots T s t) (h2 : boots T t u) : boots T s u where
  standing := h2.standing.trans h1.standing
  trims h := (h2.trims h).trans (h1.trims h)
  objAt a b h := (h2.objAt a b h).trans (h1.objAt a b h)
  down c hc h := h2.down c hc (h1.down c hc h)
  calm h := by
    obtain ⟨c1, r1, f1⟩ := h1.calm h
    obtain ⟨c2, r2, f2⟩ := h2.calm c1
    exact ⟨c2, r2.trans r1, f2.trans f1⟩

theorem boots.foldl {α : Type} {f : State → α → State} (l : List α) (hf : ∀ (s : State), ∀ a ∈ l, boots T s (f s a)) (s : State) : boots T s (l.foldl f s) := by
  induction l generalizing s with
  | nil => exact .refl T s
  | cons a l ih => exact (hf s a (List.mem_cons_self ..)).trans (ih (fun s b hb => hf s b (List.mem_cons_of_mem _ hb)) _)

theorem boots.of_sets {W : Nat → Nat → Prop} (h : sets W s u) (hW : ∀ a b, W a b → freeObjects a b) : boots T s u where
  standing := by rw [h.rest]; rfl
  trims _ := by rw [h.rest]
  objAt a b hk := h.objAt a b 0 hk.index (by decide) fun hw => (hW a b hw).1 hk
  down c hc hd := (h.objAt 9 0x101 c (by decide) hc fun hw => (hW _ _ hw).2.1 ⟨rfl, rfl⟩).trans hd
  calm hc := ⟨h.calm (fun hw => (hW _ _ hw).2.2 ⟨rfl, rfl⟩) hc, by rw [h.rest], by rw [h.rest]⟩

theorem boots.put (s : State) {a b c : Nat} (v : Nat) (hb : b < 65536) (hc : c < 256) (h : freeObjects a b) : boots T s (s.setObjAt a b c v) :=
  .of_sets (W := freeObjects) (.put s v hb hc h) fun _ _ h => h

theorem boots.setOp (s : State) {d : Nat} (v : Nat) (hd : d < 256) : boots T s (s.setOp d v) :=
  .of_sets (sets_setOp s v hd) fun a b h => by
    obtain ⟨rfl, rfl | rfl⟩ := h <;> simp [freeObjects, keptObjects]

/-- What changes neither the dictionary, the links nor the system MMUs. -/
theorem boots.of_same (hs : u.standing = s.standing) (ht : T = false → u.pow.trims = s.pow.trims) (ho : u.obj = s.obj) (hx : u.xl = s.xl)
    (hl : u.fab.links = s.fab.links) (hr : u.resetDue = s.resetDue) : boots T s u := by
  have hobj (a b c : Nat) : u.objAt a b c = s.objAt a b c := by
    unfold Dev.objAt Dev.obj!
    rw [ho]
  refine ⟨hs, ht, fun a b _ => hobj a b 0, fun c _ h => (hobj 9 0x101 c).trans h, fun hc => ⟨⟨fun m => ?_, fun l hup => ?_⟩, hr, by rw [hx]⟩⟩
  · have := hc.off m
    unfold Dev.mmu at *
    rw [hx]
    exact this
  · have h2 : s.linkUp l = true := by
      unfold Dev.linkUp at *
      rw [← hobj]
      exact hup
    have := hc.idle l h2
    unfold Dev.link at *
    rw [hl]
    exact this

theorem boots_powerRecord (s : State) (kind count detail : Nat) : boots T s (s.powerRecord kind count detail) := by
  obtain ⟨hrest, -, hobj⟩ := Dev.reportStep.report s.toDev 19 { kind := kind, cls := .corrected, addr := 0, count := count, detail := detail }
  have hcalm (h : s.toDev.calm) := powerRecord_calm h kind count detail
  have heq : s.powerRecord kind count detail = { s with toDev := s.toDev.report 19 { kind := kind, cls := .corrected, addr := 0, count := count, detail := detail } } := rfl
  rw [heq] at hcalm ⊢
  generalize s.toDev.report 19 _ = d at *
  refine ⟨by rw [hrest]; rfl, fun _ => rfl, fun a b hk => hobj a b 0 hk.index (by decide) ?_,
    fun c hc h => (hobj 9 0x101 c (by decide) hc (by simp [Dev.ownObjects])).trans h, fun h => ?_⟩
  · unfold keptObjects at hk
    unfold Dev.ownObjects
    omega
  · rw [hcalm h]
    exact ⟨(Dev.relinked_dropRecord h 1).calm, rfl, rfl⟩

theorem boots_event (s : State) (kind detail : Nat) : boots T s (s.event kind detail) := by
  have h1 : boots T s (s.setObjAt 0x0C 0x120 0 ((s.objAt 0x0C 0x120 0 + 1) % 2 ^ 64)) := .put s _ (by decide) (by decide) (by simp [freeObjects, keptObjects])
  exact h1.trans (.of_same rfl (fun _ => rfl) rfl rfl rfl rfl)

theorem boots_modPow (s : State) {f : PowerState → PowerState} (h : (s.modPow f).standing = s.standing) (ht : T = false → (f s.pow).trims = s.pow.trims) :
    boots T s (s.modPow f) := .of_same h ht rfl rfl rfl rfl

/-- The power manager's state while trims may change. -/
theorem boots_power {s u : State} (hs : u.standing = s.standing) (hu : u = { s with pow := u.pow }) : boots true s u :=
  .of_same hs nofun (by rw [hu]) (by rw [hu]) (by rw [hu]) (by rw [hu])

theorem boots_modBoot (s : State) {f : BootState → BootState} (h : (s.modBoot f).standing = s.standing) : boots T s (s.modBoot f) :=
  .of_same h (fun _ => rfl) rfl rfl rfl rfl

/-! Ripening as the module boots (R644, R645). -/

theorem boots_ripenRates (s : State) {d : Nat} (hd : d < 256) (rs : List Nat) : boots true s (s.ripenRates d rs) := by
  induction rs generalizing s with
  | nil => exact .refl true s
  | cons r rs ih =>
    have hm : boots true s (s.measured d r) := by
      unfold measured
      exact .trans (t := s.modPow fun p => { p with rates := Table.set 0 p.rates d r }) (boots_power rfl rfl) (.put (a := 0x0B) (b := 0x801) (c := d) _ r (by decide) hd (by simp [freeObjects, keptObjects]))
    rw [ripenRates_cons]
    generalize s.measured d r = m at hm ⊢
    have hraised : boots true m (m.raised d) := by
      unfold raised
      exact .trans (t := m.modPow fun p => { p with trims := Table.set 0 p.trims d (m.trim d + 5) }) (boots_power rfl rfl) ((boots.put (a := 0x0B) (b := 0x800) (c := d) _ _ (by decide) hd (by simp [freeObjects, keptObjects])).trans (.setOp _ _ hd))
    have hworn : boots true m (m.wornOut d) := by
      unfold wornOut
      exact .trans (t := m.modPow fun p => { p with worn := Nat.lor p.worn (2 ^ d) }) (boots_power rfl rfl) (.put (a := 0x0B) (b := 0x804) (c := 0) _ _ (by decide) (by decide) (by simp [freeObjects, keptObjects]))
    split
    · exact hm.trans (hraised.trans ((boots_powerRecord ..).trans (ih _)))
    · split
      · exact hm.trans (hworn.trans (boots_powerRecord ..))
      · exact hm

theorem boots_ripenDie (s : State) (r : RipenReading) : boots true s (s.ripenDie r).1 := by
  unfold ripenDie
  dsimp only
  split
  · exact .refl true s
  · split
    · exact boots_power rfl rfl
    · refine boots.trans ?_ (boots_ripenRates _ (r.die.isLt.trans (by decide)) r.rates)
      exact boots_power rfl rfl

theorem boots_readAll (l : List RipenReading) (acc : State × Bool) :
    boots true acc.1 (l.foldl (fun acc r => ((acc.1.ripenDie r).1, acc.2 || (acc.1.ripenDie r).2)) acc).1 := by
  induction l generalizing acc with
  | nil => exact .refl true _
  | cons r l ih => exact (boots_ripenDie acc.1 r).trans (ih ((acc.1.ripenDie r).1, acc.2 || (acc.1.ripenDie r).2))

theorem boots_writeRipen (s : State) : boots true s s.writeRipen := by
  have hwrite (off : Nat) (b : List Byte) : boots true s (s.carrierWrite off b) := boots_modBoot s rfl
  unfold writeRipen
  split
  · exact .refl true s
  · next k _ =>
    have h := hwrite (0x400 + 256 * (1 - s.pow.ripenCopy)) (s.ripenBytes ++ hmac256 (ripeningKey k) s.ripenBytes)
    dsimp only
    generalize s.carrierWrite _ _ = c at *
    exact h.trans (boots_power rfl rfl)

theorem boots_ripen (s : State) (l : List RipenReading) : boots true s (s.ripen l) := by
  cases hw : s.pow.warning with
  | true =>
    rw [show s.ripen l = _ from if_pos hw]
    exact .of_same rfl nofun rfl rfl rfl rfl
  | false =>
    rw [ripen_of_calm hw]
    have hread : boots true s (s.readAll l).1 := boots_readAll l (s, false)
    generalize s.readAll l = acc at *
    refine iteInduction (motive := boots true s) (fun _ => ?_) fun _ => hread
    refine hread.trans (.trans ?_ (boots_writeRipen _))
    exact boots_power rfl rfl

/-! Memory initialisation and the end of the boot (R709). -/

theorem boots_initMemory (s : State) : boots T s s.initMemory := by
  have hput : boots T s (s.setObjAt 7 0x203 0 (s.objAt 7 0x200 0)) := .put s _ (by decide) (by decide) (by simp [freeObjects, keptObjects])
  unfold initMemory
  dsimp only
  generalize s.setObjAt 7 0x203 0 (s.objAt 7 0x200 0) = t at *
  have hmem : boots T s (if t.poolGib = s.poolGib then t else { t.modMem (fun m => m.dramOnly.scrambled (t.fresh + 1)) with fresh := t.fresh + 1 }) :=
    iteInduction (motive := boots T s) (fun _ => hput) fun _ => hput.trans (.of_same rfl (fun _ => rfl) rfl rfl rfl rfl)
  generalize (if t.poolGib = s.poolGib then t else { t.modMem (fun m => m.dramOnly.scrambled (t.fresh + 1)) with fresh := t.fresh + 1 }) = v at *
  split
  · exact hmem
  · have happ : boots T v { v with mgmt := { v.mgmt with applied := Table.set none v.mgmt.applied 1 none } } := .of_same rfl (fun _ => rfl) rfl rfl rfl rfl
    refine hmem.trans (happ.trans (.trans (.put (a := 7) (b := 0x202) (c := 0) _ 2 (by decide) (by decide) ?_) (boots_event _ 2 (1 + 2 * 2 ^ 8))))
    simp [freeObjects, keptObjects]

theorem boots_zeroDram (s : State) : boots T s s.zeroDram := .of_same rfl (fun _ => rfl) rfl rfl rfl rfl

/-- The end of a boot (R709). -/
theorem finishBoot_spec (s : State) (r : Option (List RipenReading)) : boots r.isSome s (s.finishBoot r) ∧ (s.finishBoot r).objAt 0x0C 0x400 0 = 5 := by
  have h1 : boots r.isSome s (s.setObjAt 0x0C 0x400 0 4) := .put s _ (by decide) (by decide) (by simp [freeObjects, keptObjects])
  have h2 := h1.trans (boots_initMemory (s.setObjAt 0x0C 0x400 0 4))
  unfold finishBoot
  dsimp only
  generalize (s.setObjAt 0x0C 0x400 0 4).initMemory = t at *
  have hend (v : State) (h : boots r.isSome s v) : boots r.isSome s (v.setObjAt 0x0C 0x400 0 5) ∧ (v.setObjAt 0x0C 0x400 0 5).objAt 0x0C 0x400 0 = 5 :=
    ⟨h.trans (.put _ _ (by decide) (by decide) (by simp [freeObjects, keptObjects])), Dev.objAt_setObjAt_same ..⟩
  cases r with
  | none => exact hend _ (h2.trans (boots_modPow t rfl fun _ => rfl))
  | some l =>
    refine hend _ (h2.trans ((boots_zeroDram t).trans (.trans ?_ (boots_ripen (t.zeroDram.modPow fun p => { p with ripenSince := t.zeroDram.now }) (everyDie l)))))
    exact boots_power rfl rfl

/-! The image and the other dies (R709, R713). -/

/-- A connection that has not gone down is set as it trains. -/
theorem boots_connect (s : State) {c v : Nat} (hc : c < 256) : boots T s (if s.objAt 9 0x101 c = 1 then s else s.setObjAt 9 0x101 c v) := by
  refine iteInduction (motive := boots T s) (fun _ => .refl T s) fun h => ?_
  have hput : sets (fun a b => a = 9 ∧ b = 0x101) s (s.setObjAt 9 0x101 c v) := .put s v (by decide) hc ⟨rfl, rfl⟩
  refine ⟨rfl, fun _ => rfl, fun a b hk => hput.objAt a b 0 hk.index (by decide) ?_, fun c' hc' h' => ?_, fun hcalm => ⟨hput.calm (by simp) hcalm, rfl, rfl⟩⟩
  · unfold keptObjects at hk
    omega
  · refine (Dev.objAt_setObjAt _ _ _ _ _ _ _ _ hc hc' (by decide) (by decide)).trans ((if_neg ?_).trans h')
    rintro ⟨-, -, rfl⟩
    exact h h'

theorem boots_bringDies (s : State) (trained : List ConnId) : boots T s (s.bringDies trained) := by
  have h1 : boots T s ((List.finRange 32).foldl (fun (s : State) c =>
      if s.objAt 9 0x101 c.val = 1 then s else s.setObjAt 9 0x101 c.val (if trained.contains c then 0 else 2)) s) :=
    .foldl _ (fun s c _ => boots_connect s (c.isLt.trans (by decide))) s
  unfold bringDies
  dsimp only
  generalize (List.finRange 32).foldl _ s = t at *
  have h2 : boots T t (((List.range 18).filter t.inService).foldl (fun s d => s.setOp d (s.objAt 0x0B 0x201 0)) t) :=
    .foldl _ (fun s d hd => .setOp s _ ((List.mem_range.mp (List.mem_filter.mp hd).1).trans (by decide))) t
  generalize ((List.range 18).filter t.inService).foldl _ t = v at *
  have h3 : boots T v (((isolatedDies v.downMask).filter v.inService).foldl (fun s d => (s.setObjAt 0 6 0 (s.objAt 0 6 0 - 2 ^ d)).event 6 d) v) :=
    .foldl _ (fun s d _ => .trans (.put (a := 0) (b := 6) (c := 0) s _ (by decide) (by decide) (by simp [freeObjects, keptObjects])) (boots_event _ 6 d)) v
  generalize ((isolatedDies v.downMask).filter v.inService).foldl _ v = w at *
  exact h1.trans (h2.trans (h3.trans (.of_same rfl (fun _ => rfl) rfl rfl rfl rfl)))

theorem boots_beginTree (s : State) : boots T s s.beginTree := by
  unfold beginTree
  refine iteInduction (fun _ => boots_modBoot s rfl) fun _ => ?_
  exact boots.trans (t := s.raiseCounter 0 (s.oneWay 0 + 1)) (boots_modBoot s rfl) (boots_modBoot _ rfl)

theorem boots_startImage (s : State) (f : Firmware) : boots T s (s.startImage f) :=
  .trans (t := s.modBoot fun x => { x with image := some f }) (boots_modBoot s rfl)
    (.trans (.put (a := 0) (b := 3) (c := 0) _ f.version (by decide) (by decide) (by simp [freeObjects, keptObjects])) (boots_beginTree _))

/-- Where a boot stops (R713). -/
theorem stopBoot_spec (s : State) (state cause : Nat) : boots T s (s.stopBoot state cause) ∧ (s.stopBoot state cause).objAt 0x0C 0x400 0 = state
    ∧ (s.stopBoot state cause).objAt 0x0C 0x401 0 = cause ∧ (s.stopBoot state cause).boot.image = none :=
  ⟨(boots_modBoot s rfl).trans ((boots.put _ _ (by decide) (by decide) (by simp [freeObjects, keptObjects])).trans
      (.put _ _ (by decide) (by decide) (by simp [freeObjects, keptObjects]))),
    (Dev.objAt_setObjAt _ _ _ _ _ _ _ _ (by decide) (by decide) (by decide) (by decide)).trans
      ((if_neg (by decide)).trans (Dev.objAt_setObjAt_same ..)), Dev.objAt_setObjAt_same .., rfl⟩

/-- A boot stops in the recovery state, or enters the bring-up state with its image (R709 to R713). -/
theorem bootImage_spec (s : State) (storeReads : Bool) (trained : List ConnId) : let r := s.bootImage storeReads trained
    boots T s r.1 ∧ (r.2 = true → r.1.objAt 0x0C 0x400 0 = 3 ∧ storeReads = true)
      ∧ (r.2 = false → r.1.objAt 0x0C 0x400 0 = 2 ∧ (storeReads = false → r.1.objAt 0x0C 0x401 0 = 6 ∧ r.1.boot.image = none)) := by
  unfold bootImage
  dsimp only
  split
  · next cause hc =>
    obtain ⟨h1, h2, h3, h4⟩ := stopBoot_spec (T := T) s 2 cause
    refine ⟨h1, nofun, fun _ => ⟨h2, fun hs => ⟨h3.trans ?_, h4⟩⟩⟩
    rw [hs] at hc
    exact (Sum.inr.inj hc).symm
  · next f hf =>
    refine ⟨((boots_startImage s f).trans (boots_bringDies _ trained)).trans (.put _ _ (by decide) (by decide) (by simp [freeObjects, keptObjects])),
      fun _ => ⟨Dev.objAt_setObjAt_same .., ?_⟩, nofun⟩
    cases storeReads with
    | false => exact absurd hf nofun
    | true => rfl

end
end State
end Sys2Proof.Machine
end

section
/-! PROOFS. Proofs/ColdReset.lean: what a cold reset leaves in each of its outcomes (O56). -/

namespace Sys2Proof.Machine

theorem Table.get_foldl_set {α : Type} [DecidableEq α] (d : α) (f : Nat → α) (l : List Nat) (t : Table α) (k : Nat) :
    Table.get d (l.foldl (fun t j => Table.set d t j (f j)) t) k = if k ∈ l then f k else Table.get d t k := by
  induction l generalizing t with
  | nil => rfl
  | cons j l ih =>
    rw [List.foldl_cons, ih, Table.get_set]
    by_cases hk : k ∈ l
    · simp [hk]
    · by_cases hj : k = j
      · simp [hj]
      · simp [hk, hj]

namespace State

/-! The objects as a boot loads them (R685, R689, R695). -/

/-- The objects that the personality and the held configuration give a value. -/
def loadedObjects (a b : Nat) : Prop := a = 0 ∨ a = 7 ∨ a = 0x0A ∧ b = 0x200 ∨ a = 0x0C ∧ (b = 0x101 ∨ b = 0x112 ∨ b = 0x150)

/-- From s to u the objects have been loaded. -/
structure loads (s u : State) : Prop where
  rest : u = { s with obj := u.obj, copies := u.copies, boot := { s.boot with configSeq := u.boot.configSeq, configCopy := u.boot.configCopy } }
  objAt : ∀ a b c, b < 65536 → c < 256 → ¬loadedObjects a b → u.objAt a b c = objDefault (objAddr a b c)

theorem loads.sets {s t u : State} (h1 : loads s t) (h2 : sets loadedObjects t u) : loads s u where
  rest := by rw [h2.rest, h1.rest]
  objAt a b c hb hc h := (h2.objAt a b c hb hc h).trans (h1.objAt a b c hb hc h)

theorem loads.config {s t : State} (h : loads s t) (seq copy : Nat) : loads s (t.modBoot fun x => { x with configSeq := seq, configCopy := copy }) where
  rest := congrArg (fun v : State => v.modBoot fun x => { x with configSeq := seq, configCopy := copy }) h.rest
  objAt := h.objAt

/-- The values of the personality, and those of the held configuration. -/
def withPersonality (s : State) : State :=
  match s.personality with
  | none => s
  | some r =>
    let s := (s.setObjAt 0 1 0 (octets (sliceBytes r 0x10 16))).setObjAt 0 0x10 0 (octets (sliceBytes r 0x20 6))
    let s := (s.setObjAt 0 4 0 (fieldAt r 0 4)).setObjAt 0x0A 0x200 0 (fieldAt r 0x26 2)
    let s := (s.setObjAt 0x0C 0x101 0 (fieldAt r 0x28 1)).setObjAt 0x0C 0x112 0 (fieldAt r 0x2C 4)
    s.setObjAt 0 6 0 (fieldAt r 0x30 4 % 2 ^ 20)
def withConfig (s : State) : State :=
  match s.heldConfig with
  | none => s.modBoot (fun x => { x with configSeq := 0, configCopy := 1 })
  | some (r, copy) =>
    let s := s.modBoot (fun x => { x with configSeq := fieldAt r 4 4, configCopy := copy })
    let s := (s.setObjAt 7 0x200 0 (fieldAt r 8 2)).setObjAt 7 0x201 0 (fieldAt r 0xA 2)
    (s.setObjAt 0x0C 0x112 0 (fieldAt r 0xC 4)).setObjAt 0x0C 0x150 0 (fieldAt r 4 4)

theorem loads_put {s t : State} (h : loads s t) {a b : Nat} (v : Nat) (hb : b < 65536) (hl : loadedObjects a b) : loads s (t.setObjAt a b 0 v) :=
  h.sets (.put t v hb (by decide) hl)

theorem loads_withPersonality {s t : State} (h : loads s t) : loads s t.withPersonality := by
  unfold withPersonality
  split
  · exact h
  · have h1 := loads_put h (a := 0) (b := 1) (octets (sliceBytes ‹_› 0x10 16)) (by decide) (.inl rfl)
    have h2 := loads_put h1 (a := 0) (b := 0x10) (octets (sliceBytes ‹_› 0x20 6)) (by decide) (.inl rfl)
    have h3 := loads_put h2 (a := 0) (b := 4) (fieldAt ‹_› 0 4) (by decide) (.inl rfl)
    have h4 := loads_put h3 (a := 0x0A) (b := 0x200) (fieldAt ‹_› 0x26 2) (by decide) (by simp [loadedObjects])
    have h5 := loads_put h4 (a := 0x0C) (b := 0x101) (fieldAt ‹_› 0x28 1) (by decide) (by simp [loadedObjects])
    have h6 := loads_put h5 (a := 0x0C) (b := 0x112) (fieldAt ‹_› 0x2C 4) (by decide) (by simp [loadedObjects])
    exact loads_put h6 (a := 0) (b := 6) _ (by decide) (.inl rfl)

theorem loads_withConfig {s t : State} (h : loads s t) : loads s t.withConfig := by
  unfold withConfig
  split
  · exact h.config 0 1
  · have h1 := loads_put (h.config (fieldAt ‹_› 4 4) ‹_›) (a := 7) (b := 0x200) (fieldAt ‹_› 8 2) (by decide) (by simp [loadedObjects])
    have h2 := loads_put h1 (a := 7) (b := 0x201) (fieldAt ‹_› 0xA 2) (by decide) (by simp [loadedObjects])
    have h3 := loads_put h2 (a := 0x0C) (b := 0x112) (fieldAt ‹_› 0xC 4) (by decide) (by simp [loadedObjects])
    exact loads_put h3 (a := 0x0C) (b := 0x150) _ (by decide) (by simp [loadedObjects])

theorem obj!_of_empty {d : Dev} (h : d.obj = []) (a : Nat) : d.obj! a = objDefault a := by
  unfold Dev.obj!
  rw [h]
  rfl

theorem loads_loadObjects (s : State) : loads s s.loadObjects := by
  have hclear : loads s { s with obj := [], copies := [] } := ⟨rfl, fun _ _ _ _ _ _ => obj!_of_empty rfl _⟩
  exact loads_withConfig (loads_withPersonality hclear)

/-- A state whose links hold nothing and whose fault queues are off is calm, whatever its objects. -/
structure resting (s : State) : Prop where
  off : ∀ m, (s.toDev.mmu m).fqEn = false
  idle : ∀ l, (s.toDev.link l).sent = [] ∧ (s.toDev.link l).queue = []

theorem resting.calm {s : State} (h : s.resting) : s.toDev.calm := ⟨h.off, fun l _ => h.idle l⟩

theorem resting.loads {s u : State} (h : s.resting) (hl : loads s u) : u.resting := by
  rw [hl.rest]
  exact ⟨h.off, h.idle⟩

theorem resting_of_new {s : State} (hx : s.xl.mmus = Vector.replicate 2 {}) (hf : s.fab.links = Vector.replicate 32 {}) : s.resting where
  off m := by
    unfold Dev.mmu
    rw [hx]
    simp
  idle l := by
    unfold Dev.link
    rw [hf]
    simp

/-! The selection of a personality slot (R706, R707). -/

theorem selectSlot_congr {s t : State} (hc : t.boot.carrier = s.boot.carrier) (hn : t.boot.counters = s.boot.counters) (reads : Bool) (puf : List Byte) :
    t.selectSlot reads puf = s.selectSlot reads puf := by
  have hbytes : t.slotBytes = s.slotBytes := by
    funext i
    unfold slotBytes carrierBytes carrierByte
    rw [hc]
  have hvalid : t.slotValid = s.slotValid := by
    funext r
    unfold slotValid oneWay
    rw [hn]
  unfold selectSlot bestSlot
  rw [hbytes, hvalid]

/-! A cold reset (R709, R739). -/

/-- Twenty words of a record, one for each die. -/
def dieWords (r : List Byte) (off : Nat) : Table Nat := Table.setRange 0 [] 0 ((List.range 20).map fun d => fieldAt r (off + 4 * d) 4)

/-- What the ripening record gives the power manager, and what it does where there is none (R649). -/
def ripenLoaded (s : State) : State :=
  match s.boot.secret.bind (fun k => s.bestCopy (ripeningKey k) 0x400 256) with
  | some (r, copy) => s.modPow (fun p => { p with
      trims := Table.setRange 0 [] 0 ((List.range 20).map fun d => fieldAt r (0x18 + d) 1), refs := dieWords r 0x30, rates := dieWords r 0x80,
      worn := fieldAt r 0x10 4, checks := fieldAt r 0xC 4, hoursBase := fieldAt r 8 4, ripenSeq := fieldAt r 4 4, ripenCopy := copy })
  | none => s.modPow (fun p => { p with
      trims := [], refs := (s.personality.map fun r => dieWords r 0x260).getD [], rates := [], worn := 0, checks := 0, hoursBase := 0 })

/-- The objects of ripening. -/
def ripenObjects (a b : Nat) : Prop := a = 0x0B ∧ (b = 0x800 ∨ b = 0x801 ∨ b = 0x804)

theorem free_of_ripenObjects {a b : Nat} (h : ripenObjects a b) : freeObjects a b := by
  unfold ripenObjects at h
  unfold freeObjects keptObjects
  omega

/-- The trims and the rates are shown. -/
def showRipen (l : List Nat) (s : State) : State :=
  l.foldl (fun s d => (s.setObjAt 0x0B 0x800 d (Table.get 0 s.pow.trims d)).setObjAt 0x0B 0x801 d (Table.get 0 s.pow.rates d)) s

theorem sets_showRipen {l : List Nat} (hl : ∀ d ∈ l, d < 256) (s : State) : sets ripenObjects s (s.showRipen l) := by
  refine .foldl l (fun s d hd => ?_) s
  exact (sets.put s _ (by decide) (hl d hd) ⟨rfl, .inl rfl⟩).trans (.put _ _ (by decide) (hl d hd) ⟨rfl, .inr (.inl rfl)⟩)

theorem loadRipen_eq (s : State) : s.loadRipen =
    (s.ripenLoaded.showRipen (List.range 20)).setObjAt 0x0B 0x804 0 (s.ripenLoaded.showRipen (List.range 20)).pow.worn := rfl

theorem boots_loadRipen (s : State) : boots true s s.loadRipen := by
  have hpow : boots true s s.ripenLoaded := by
    unfold ripenLoaded
    split
    · exact boots_power rfl rfl
    · exact boots_power rfl rfl
  rw [loadRipen_eq]
  generalize s.ripenLoaded = t at *
  have hshow := sets_showRipen (l := List.range 20) (fun d hd => (List.mem_range.mp hd).trans (by decide)) t
  generalize t.showRipen (List.range 20) = v at *
  exact hpow.trans (.of_sets (hshow.trans (.put v _ (by decide) (by decide) ⟨rfl, .inr (.inr rfl)⟩)) fun _ _ => free_of_ripenObjects)

/-- The state in which a cold reset begins (R739). -/
def coldStart (s : State) : State := s.powerOff.modPow fun p => { p with
  rails := true, hotSwap := true, scanHold := false, tripWait := false, attention := false }

/-- What has been cleared before the steps of a cold boot (R739). -/
structure coldReady (s t : State) : Prop where
  calm : t.toDev.calm
  cmd : t.cmd = {}
  pending : t.pending = s.pending
  keys : t.fab.keys = []
  sessions : t.mgmt.sessions = []
  rails : t.pow.rails = true
  hotSwap : t.pow.hotSwap = true
  due : t.resetDue = none

section
variable {T : Bool} {s t u : State}

theorem coldReady.boots (h : coldReady s t) (b : boots T t u) : coldReady s u where
  calm := (b.calm h.calm).1
  cmd := (congrArg Standing.cmd b.standing).trans h.cmd
  pending := (congrArg Standing.pending b.standing).trans h.pending
  keys := (congrArg Standing.keys b.standing).trans h.keys
  sessions := (congrArg Standing.sessions b.standing).trans h.sessions
  rails := (congrArg Standing.rails b.standing).trans h.rails
  hotSwap := (congrArg Standing.hotSwap b.standing).trans h.hotSwap
  due := (b.calm h.calm).2.1.trans h.due

theorem coldReady.settles {W : Nat → Nat → Prop} (h : coldReady s t) (b : settles W t.unlatched u) : coldReady s u where
  calm := b.calm
  cmd := by rw [b.rest]; exact h.cmd
  pending := by rw [b.rest]; exact h.pending
  keys := by rw [b.rest]; exact h.keys
  sessions := by rw [b.rest]; exact h.sessions
  rails := by rw [b.rest]; exact h.rails
  hotSwap := by rw [b.rest]; exact h.hotSwap
  due := by rw [b.rest]; exact h.due

/-- What a cold reset leaves in every outcome (R617, R739). -/
structure coldDone (s u : State) : Prop where
  ready : coldReady s u
  latch : u.pow.latch = none
  kind : u.objAt 0x0C 0x405 0 = 2
  code : ∀ n, latchCode s.pow.latch = some n → u.objAt 0x0B 0x605 0 = n

theorem coldDone.boots (h : coldDone s t) (b : boots T t u) : coldDone s u where
  ready := h.ready.boots b
  latch := (congrArg Standing.latch b.standing).trans h.latch
  kind := (b.objAt _ _ (.inr (by simp))).trans h.kind
  code n hn := (b.objAt _ _ (.inl (by simp))).trans (h.code n hn)

theorem coldDone.modBoot (h : coldDone s t) (f : BootState → BootState) : coldDone s (t.modBoot f) :=
  ⟨⟨h.ready.calm, h.ready.cmd, h.ready.pending, h.ready.keys, h.ready.sessions, h.ready.rails, h.ready.hotSwap, h.ready.due⟩, h.latch, h.kind, h.code⟩

theorem coldDone_bootCommon (h : coldReady s t) (hl : t.pow.latch = s.pow.latch) : coldDone s (t.bootCommon 2) := by
  obtain ⟨hsettles, hkind, hcode⟩ := bootCommon_spec h.calm 2
  exact ⟨h.settles hsettles, by rw [hsettles.rest]; rfl, hkind, fun n hn => hcode n (by rw [hl]; exact hn)⟩

/-- The module has left the bring-up state, the junctions not yet read. -/
def bringUpLeft (s : State) : State := (s.modPow fun p => { p with bringUpLatch := false }).modBoot fun x => { x with reading := none }

theorem coldDone.bringUpLeft (h : coldDone s t) : coldDone s t.bringUpLeft :=
  ⟨⟨h.ready.calm, h.ready.cmd, h.ready.pending, h.ready.keys, h.ready.sessions, h.ready.rails, h.ready.hotSwap, h.ready.due⟩, h.latch, h.kind, h.code⟩

theorem boots_readJunctions (s : State) (l : List (Die × Int)) : boots true s (s.readJunctions l) := by
  refine .foldl _ (fun s x _ => ?_) s
  exact .put (a := 0x0B) (b := 0x700) (c := x.1.val) s _ (by decide) (x.1.isLt.trans (by decide)) (by simp [freeObjects, keptObjects])

/-- The module leaves the bring-up state (R711). -/
theorem leaveBringUp_spec (s : State) (r : BootReading) : boots true s.bringUpLeft (s.leaveBringUp r) ∧ (s.leaveBringUp r).objAt 0x0C 0x400 0 = 5 := by
  obtain ⟨h1, h2⟩ := finishBoot_spec (s.bringUpLeft.readJunctions r.tj) (some r.ripen)
  exact ⟨(boots_readJunctions _ _).trans h1, h2⟩

/-- The state whose boot has selected a slot and loaded what it holds (R698, R706). -/
def coldLoaded (s : State) (i : Nat) (puf : List Byte) : State :=
  (s.coldStart.modBoot fun x => { x with slot := some i, secret := some (secretOf puf (s.coldStart.slotBytes i)) }).loadObjects.loadRipen

theorem coldReady_start (s : State) (f : BootState → BootState) : coldReady s (s.coldStart.modBoot f) :=
  ⟨(resting_of_new rfl rfl).calm, rfl, rfl, rfl, rfl, rfl, rfl, rfl⟩

theorem coldLoaded_spec (s : State) (i : Nat) (puf : List Byte) : coldReady s (s.coldLoaded i puf) ∧ (s.coldLoaded i puf).pow.latch = s.pow.latch
    ∧ (s.coldLoaded i puf).boot.slot = some i ∧ (s.coldLoaded i puf).pow.bringUpLatch = s.pow.bringUpLatch := by
  unfold coldLoaded
  have hready := coldReady_start s fun x => { x with slot := some i, secret := some (secretOf puf (s.coldStart.slotBytes i)) }
  have hrest : (s.coldStart.modBoot fun x => { x with slot := some i, secret := some (secretOf puf (s.coldStart.slotBytes i)) }).resting :=
    resting_of_new rfl rfl
  have hstart : (s.coldStart.modBoot fun x => { x with slot := some i, secret := some (secretOf puf (s.coldStart.slotBytes i)) }).pow.latch = s.pow.latch
      ∧ (s.coldStart.modBoot fun x => { x with slot := some i, secret := some (secretOf puf (s.coldStart.slotBytes i)) }).boot.slot = some i
      ∧ (s.coldStart.modBoot fun x => { x with slot := some i, secret := some (secretOf puf (s.coldStart.slotBytes i)) }).pow.bringUpLatch
        = s.pow.bringUpLatch := ⟨rfl, rfl, rfl⟩
  generalize s.coldStart.modBoot _ = t at *
  have hloads := loads_loadObjects t
  have hcalm := (hrest.loads hloads).calm
  have h2 : coldReady s t.loadObjects := ⟨hcalm, by rw [hloads.rest]; exact hready.cmd, by rw [hloads.rest]; exact hready.pending,
    by rw [hloads.rest]; exact hready.keys, by rw [hloads.rest]; exact hready.sessions, by rw [hloads.rest]; exact hready.rails,
    by rw [hloads.rest]; exact hready.hotSwap, by rw [hloads.rest]; exact hready.due⟩
  have hst : t.loadObjects.standing = t.standing := by rw [hloads.rest]; rfl
  generalize t.loadObjects = v at *
  have hb := boots_loadRipen v
  have hst2 := hb.standing.trans hst
  exact ⟨h2.boots hb, (congrArg Standing.latch hst2).trans hstart.1, (congrArg Standing.slot hst2).trans hstart.2.1,
    (congrArg Standing.bringUpLatch hst2).trans hstart.2.2⟩

theorem selectSlot_coldStart (s : State) (reads : Bool) (puf : List Byte) : s.coldStart.selectSlot reads puf = s.selectSlot reads puf :=
  selectSlot_congr (s := s) (t := s.coldStart) rfl rfl reads puf

/-- A cold boot without a slot (R713). -/
theorem coldBoot_of_none {r : BootReading} {cause : Nat} (h : s.selectSlot r.carrierReads (Config.pufRead r.pufNoise) = .inr cause) :
    s.coldBoot r = ((s.coldStart.modBoot fun x => { x with puf := some (Config.pufRead r.pufNoise) }).bootCommon 2).stopBoot 1 cause := by
  have hsel := (s.selectSlot_coldStart r.carrierReads (Config.pufRead r.pufNoise)).trans h
  unfold coldStart at hsel ⊢
  unfold coldBoot
  dsimp only
  rw [hsel]

/-- A cold boot with a slot goes on to its image (R709). -/
def coldImaged (s : State) (i : Nat) (r : BootReading) : State × Bool :=
  ((s.coldLoaded i (Config.pufRead r.pufNoise)).bootCommon 2).bootImage r.storeReads r.connTrained

theorem coldBoot_of_slot {r : BootReading} {i : Nat} (h : s.selectSlot r.carrierReads (Config.pufRead r.pufNoise) = .inl i) :
    s.coldBoot r = if !(s.coldImaged i r).2 then (s.coldImaged i r).1
      else if (s.coldImaged i r).1.heldInBringUp then (s.coldImaged i r).1.modBoot fun x => { x with reading := some r }
      else (s.coldImaged i r).1.leaveBringUp r := by
  have hsel := (s.selectSlot_coldStart r.carrierReads (Config.pufRead r.pufNoise)).trans h
  unfold coldImaged coldLoaded
  unfold coldStart at hsel ⊢
  unfold coldBoot
  dsimp only
  rw [hsel]

/-- The outcomes of a cold boot that has selected a slot (R709, R711, R713). -/
structure coldOutcome (s u : State) (i : Nat) (r : BootReading) : Prop where
  done : coldDone s u
  slot : u.boot.slot = some i
  state : u.objAt 0x0C 0x400 0 = 2 ∨ u.objAt 0x0C 0x400 0 = 3 ∨ u.objAt 0x0C 0x400 0 = 5
  stopped : r.storeReads = false → u.objAt 0x0C 0x400 0 = 2 ∧ u.objAt 0x0C 0x401 0 = 6 ∧ u.boot.image = none
  held : s.pow.bringUpLatch = true → u.objAt 0x0C 0x400 0 = 2 ∨ u.objAt 0x0C 0x400 0 = 3 ∧ u.pow.bringUpLatch = true

theorem coldOutcome_of_slot {r : BootReading} {i : Nat} (h : s.selectSlot r.carrierReads (Config.pufRead r.pufNoise) = .inl i) :
    coldOutcome s (s.coldBoot r) i r := by
  rw [coldBoot_of_slot h]
  unfold coldImaged
  obtain ⟨hready, hl, hslot, hup⟩ := coldLoaded_spec s i (Config.pufRead r.pufNoise)
  have hdone := coldDone_bootCommon hready hl
  have hrest := (bootCommon_spec hready.calm 2).1.rest
  generalize s.coldLoaded i (Config.pufRead r.pufNoise) = t at *
  have hslot' : (t.bootCommon 2).boot.slot = some i := by rw [hrest]; exact hslot
  have hup' : (t.bootCommon 2).pow.bringUpLatch = s.pow.bringUpLatch := by rw [hrest]; exact hup
  clear hrest hready hl hslot hup
  generalize t.bootCommon 2 = v at *
  obtain ⟨hboots, hgoes, hstops⟩ := bootImage_spec (T := true) v r.storeReads r.connTrained
  generalize v.bootImage r.storeReads r.connTrained = p at *
  have hdone' := hdone.boots hboots
  have hslot2 := (congrArg Standing.slot hboots.standing).trans hslot'
  have hup2 := (congrArg Standing.bringUpLatch hboots.standing).trans hup'
  cases hp : p.2 with
  | false =>
    obtain ⟨h2, h6⟩ := hstops hp
    rw [Bool.not_false, if_pos rfl]
    exact ⟨hdone', hslot2, .inl h2, fun hs => ⟨h2, h6 hs⟩, fun _ => .inl h2⟩
  | true =>
    obtain ⟨h3, hreads⟩ := hgoes hp
    have hno : ¬r.storeReads = false := by simp [hreads]
    rw [Bool.not_true, if_neg Bool.false_ne_true]
    cases hheld : p.1.heldInBringUp with
    | true =>
      rw [if_pos rfl]
      exact ⟨hdone'.modBoot _, hslot2, .inr (.inl h3), fun hs => absurd hs hno, fun hu => .inr ⟨h3, hup2.trans hu⟩⟩
    | false =>
      obtain ⟨hl, h5⟩ := leaveBringUp_spec p.1 r
      rw [if_neg Bool.false_ne_true]
      have hlatch : s.pow.bringUpLatch ≠ true := fun hu => by
        unfold heldInBringUp at hheld
        rw [show p.1.pow.bringUpLatch = true from hup2.trans hu] at hheld
        exact absurd hheld (by simp)
      exact ⟨hdone'.bringUpLeft.boots hl, (congrArg Standing.slot hl.standing).trans hslot2, .inr (.inr h5), fun hs => absurd hs hno,
        fun hu => absurd hu hlatch⟩

/-- The outcome of a cold boot without a slot (R713). -/
structure coldStopped (s u : State) (cause : Nat) : Prop where
  done : coldDone s u
  state : u.objAt 0x0C 0x400 0 = 1
  cause : u.objAt 0x0C 0x401 0 = cause
  image : u.boot.image = none
  secret : u.boot.secret = none

theorem coldStopped_of_none {r : BootReading} {cause : Nat} (h : s.selectSlot r.carrierReads (Config.pufRead r.pufNoise) = .inr cause) :
    coldStopped s (s.coldBoot r) cause := by
  rw [coldBoot_of_none h]
  have hready := coldReady_start s fun x => { x with puf := some (Config.pufRead r.pufNoise) }
  have hl : (s.coldStart.modBoot fun x => { x with puf := some (Config.pufRead r.pufNoise) }).pow.latch = s.pow.latch := rfl
  have hsecret : (s.coldStart.modBoot fun x => { x with puf := some (Config.pufRead r.pufNoise) }).boot.secret = none := rfl
  generalize s.coldStart.modBoot _ = t at *
  have hdone := coldDone_bootCommon hready hl
  have hrest := (bootCommon_spec hready.calm 2).1.rest
  have hsecret' : (t.bootCommon 2).boot.secret = none := by rw [hrest]; exact hsecret
  generalize t.bootCommon 2 = v at *
  obtain ⟨hboots, h1, hc, himage⟩ := stopBoot_spec (T := true) v 1 cause
  exact ⟨hdone.boots hboots, h1, hc, himage, (congrArg Standing.secret hboots.standing).trans hsecret'⟩

end
end State
end Sys2Proof.Machine
end

section
/-! PROOFS. Proofs/WarmReset.lean: what a warm reset writes back, clears and keeps (O56). -/

namespace Sys2Proof.Machine

namespace State

/-! What is written back before a warm reset (R739). -/

/-- From s to u the memory system has been written back. -/
structure flushed (s u : State) : Prop where
  dev : s.toDev.reportStep u.toDev
  only : s.devOnly u
  quiet : s.toDev.offQuiet u.toDev

theorem flushed.refl (s : State) : s.flushed s := ⟨.refl _, ⟨rfl, rfl, rfl, rfl⟩, .of_memOnly rfl⟩

theorem flushed.trans {s t u : State} (h1 : s.flushed t) (h2 : t.flushed u) : s.flushed u :=
  ⟨h1.dev.trans h2.dev, h1.only.trans h2.only, h1.quiet.trans h2.quiet⟩

theorem flushed.foldl {α : Type} {f : State → α → State} (hf : ∀ (s : State) a, s.flushed (f s a)) (l : List α) (s : State) : s.flushed (l.foldl f s) := by
  induction l generalizing s with
  | nil => exact .refl s
  | cons a l ih => exact (hf s a).trans (ih _)

theorem flushed.of_lift (s : State) {f : Dev → Dev} (h : s.toDev.reportStep (f s.toDev)) (hq : s.toDev.offQuiet (f s.toDev)) : s.flushed (s.lift f) :=
  ⟨h, ⟨rfl, rfl, rfl, rfl⟩, hq⟩

theorem flushed_drain (s : State) (t : LineTag) : s.flushed (s.lift fun d => d.wcbDrain t none 0x111) :=
  .of_lift s (Dev.reportStep_closed.wcbDrainBy _ t (by decide)) (Dev.offQuiet_closed.wcbDrainBy _ t (by decide))

theorem flushed_dramWrite (s : State) (t : LineTag) (d : LineData) (p : Bool) : s.flushed (s.dramWrite t d p) :=
  .of_lift s (.dramWrite ..) (.of_memOnly rfl)

theorem flushed_writeBackAll (s : State) : s.flushed s.writeBackAll :=
  (flushed.foldl flushed_drain _ s).trans (.foldl (fun u t => flushed_dramWrite u t (u.coherent t).1 (u.coherent t).2) _ _)

/-! What a warm reset clears and keeps (R739, R740). -/

/-- The state that a warm reset begins from, before its objects are loaded. -/
def warmStart (v : State) : State := {
  pending := v.pending, now := v.now, fresh := v.fresh, windows := { start := floorTo v.now 1000000, stop := floorTo v.now 1000000 + 1000000 },
  mem := v.mem.dramOnly, xl := { fatalLog := v.xl.fatalLog }, fab := { keys := v.warmKeys, isolated := v.fab.isolated },
  pow := {
    rails := v.pow.rails, hotSwap := v.pow.hotSwap, latch := v.pow.latch, bringUpLatch := v.pow.bringUpLatch, warning := v.pow.warning,
    supplyIrq := v.pow.supplyIrq, attention := v.pow.attention, trims := v.pow.trims, rates := v.pow.rates, refs := v.pow.refs,
    worn := v.pow.worn, ripenSeq := v.pow.ripenSeq, ripenCopy := v.pow.ripenCopy, checks := v.pow.checks, hoursBase := v.pow.hoursBase,
    capStart := floorTo v.now 10000, tickStart := floorTo v.now 1000000, energyStart := floorTo v.now 1000000 }
  mgmt := { nextSession := v.mgmt.nextSession, applied := Table.set none [] 1 (Table.get none v.mgmt.applied 1) }
  boot := { v.boot with puf := none, image := none, tree := none, leaf := 0, reading := none, preparing := false } }

/-- The objects whose values a warm reset keeps. -/
def keepObjects (v n : State) : State :=
  ((((n.setObjAt 0x0B 0x302 0 (v.objAt 0x0B 0x302 0)).setObjAt 7 0x202 0 (v.objAt 7 0x202 0)).setObjAt 0x0B 0x603 0 (v.objAt 0x0B 0x603 0)).setObjAt
    0x0C 0x103 0 (v.objAt 0x0C 0x103 0)).setObjAt 7 0x203 0 (v.objAt 7 0x203 0)

/-- The connections that are down stay so. -/
def keepDown (l : List Nat) (n : State) : State := l.foldl (fun n c => n.setObjAt 9 0x101 c 1) n

/-- What a warm reset makes of a state that has been written back. -/
def warmCleared (v : State) : State :=
  let n := keepDown ((List.range 32).filter fun c => v.objAt 9 0x101 c = 1) ((v.keepObjects v.warmStart.loadObjects).setObjAt 0x0C 0x406 0 (v.objAt 0x0C 0x406 0 + 1))
  (n.setObjAt 0x0B 0x804 0 n.pow.worn).showRipen (List.range 20)

theorem warmClear_eq (s : State) (fatal : Bool) : s.warmClear fatal = (if fatal then s else s.writeBackAll).warmCleared := rfl

theorem get_warmKeys (v : State) (k : BitVec 12) : Table.get coldKey v.warmKeys k.toNat
    = if v.keyState k = .enabled then .quarantine (v.now.toNat + v.objAt 0x0A 0x204 0) else .drained := by
  unfold warmKeys
  rw [Table.get_foldl_set coldKey (fun k => if Table.get coldKey v.fab.keys k = .enabled then KeyState.quarantine (v.now.toNat + v.objAt 0x0A 0x204 0) else .drained)]
  exact if_pos (List.mem_range.mpr k.isLt)

theorem keepDown_spec (l : List Nat) (hl : ∀ c ∈ l, c < 256) (n : State) : sets (fun a b => a = 9 ∧ b = 0x101) n (n.keepDown l)
    ∧ ∀ c, c < 256 → (c ∈ l ∨ n.objAt 9 0x101 c = 1) → (n.keepDown l).objAt 9 0x101 c = 1 := by
  induction l generalizing n with
  | nil => exact ⟨.refl _ n, fun c _ h => h.resolve_left nofun⟩
  | cons d l ih =>
    have hd := hl d (List.mem_cons_self ..)
    obtain ⟨h1, h2⟩ := ih (fun c hc => hl c (List.mem_cons_of_mem _ hc)) (n.setObjAt 9 0x101 d 1)
    refine ⟨(sets.put n 1 (by decide) hd ⟨rfl, rfl⟩).trans h1, fun c hc h => h2 c hc ?_⟩
    have hput := Dev.objAt_setObjAt n.toDev 9 0x101 d 9 0x101 c 1 hd hc (by decide) (by decide)
    by_cases hcd : c = d
    · exact .inr (hput.trans (if_pos ⟨rfl, rfl, hcd⟩))
    · refine h.imp (fun hm => (List.mem_cons.mp hm).resolve_left hcd) fun h => (hput.trans (if_neg fun e => hcd e.2.2)).trans h

/-- What a warm reset has kept and cleared, of the state v that was written back (R739, R740). -/
structure warmed (v u : State) : Prop where
  calm : u.toDev.calm
  now : u.now = v.now
  rails : u.pow.rails = v.pow.rails
  cmd : u.cmd = {}
  sessions : u.mgmt.sessions = []
  pending : u.pending = v.pending
  trims : u.pow.trims = v.pow.trims
  fatalLog : u.xl.fatalLog = v.xl.fatalLog
  keys : u.fab.keys = v.warmKeys
  resets : u.objAt 0x0C 0x406 0 = v.objAt 0x0C 0x406 0 + 1
  energy : u.objAt 0x0B 0x302 0 = v.objAt 0x0B 0x302 0
  down : ∀ c, c < 32 → v.objAt 9 0x101 c = 1 → u.objAt 9 0x101 c = 1

section
variable {s t u v : State}

theorem warmed.boots (h : warmed v t) (b : boots false t u) : warmed v u where
  calm := (b.calm h.calm).1
  now := (congrArg Standing.now b.standing).trans h.now
  rails := (congrArg Standing.rails b.standing).trans h.rails
  cmd := (congrArg Standing.cmd b.standing).trans h.cmd
  sessions := (congrArg Standing.sessions b.standing).trans h.sessions
  pending := (congrArg Standing.pending b.standing).trans h.pending
  trims := (b.trims rfl).trans h.trims
  fatalLog := (b.calm h.calm).2.2.trans h.fatalLog
  keys := (congrArg Standing.keys b.standing).trans h.keys
  resets := (b.objAt _ _ (.inr (by simp))).trans h.resets
  energy := (b.objAt _ _ (.inl (by simp))).trans h.energy
  down c hc hv := b.down c (hc.trans (by decide)) (h.down c hc hv)

theorem warmed.settles (h : warmed v t) (b : settles commonObjects t.unlatched u) : warmed v u where
  calm := b.calm
  now := by rw [b.rest]; exact h.now
  rails := by rw [b.rest]; exact h.rails
  cmd := by rw [b.rest]; exact h.cmd
  sessions := by rw [b.rest]; exact h.sessions
  pending := by rw [b.rest]; exact h.pending
  trims := by rw [b.rest]; exact h.trims
  fatalLog := by rw [b.rest]; exact h.fatalLog
  keys := by rw [b.rest]; exact h.keys
  resets := (b.objAt _ _ _ (by decide) (by decide) (by simp [commonObjects, earlyObjects, partObjects])).trans h.resets
  energy := (b.objAt _ _ _ (by decide) (by decide) (by simp [commonObjects, earlyObjects, partObjects])).trans h.energy
  down c hc hv := (b.objAt _ _ _ (by decide) (hc.trans (by decide)) (by simp [commonObjects, earlyObjects, partObjects])).trans (h.down c hc hv)

/-- The objects that a warm reset sets once they are loaded. -/
def warmObjects (a b : Nat) : Prop :=
  a = 7 ∨ a = 9 ∨ a = 0x0B ∧ (b = 0x302 ∨ b = 0x603 ∨ b = 0x800 ∨ b = 0x801 ∨ b = 0x804) ∨ a = 0x0C ∧ (b = 0x103 ∨ b = 0x406)

theorem sets.mono {W W' : Nat → Nat → Prop} (h : sets W s u) (hW : ∀ a b, W a b → W' a b) : sets W' s u :=
  ⟨h.rest, fun a b c hb hc hn => h.objAt a b c hb hc (mt (hW a b) hn)⟩

theorem keepObjects_spec (v n : State) : sets warmObjects n (v.keepObjects n) ∧ (v.keepObjects n).objAt 0x0B 0x302 0 = v.objAt 0x0B 0x302 0 := by
  have h1 : sets warmObjects n (n.setObjAt 0x0B 0x302 0 (v.objAt 0x0B 0x302 0)) := .put n _ (by decide) (by decide) (by simp [warmObjects])
  have hv : (n.setObjAt 0x0B 0x302 0 (v.objAt 0x0B 0x302 0)).objAt 0x0B 0x302 0 = v.objAt 0x0B 0x302 0 := Dev.objAt_setObjAt_same ..
  unfold keepObjects
  generalize n.setObjAt 0x0B 0x302 0 (v.objAt 0x0B 0x302 0) = t at *
  have hput (t : State) {a b : Nat} (x : Nat) (hb : b < 65536) (h : warmObjects a b ∧ ¬(a = 0x0B ∧ b = 0x302)) :
      sets (fun a b => warmObjects a b ∧ ¬(a = 0x0B ∧ b = 0x302)) t (t.setObjAt a b 0 x) := .put t x hb (by decide) h
  have h2 := (((hput t (a := 7) (b := 0x202) (v.objAt 7 0x202 0) (by decide) (by simp [warmObjects])).trans
    (hput _ (a := 0x0B) (b := 0x603) (v.objAt 0x0B 0x603 0) (by decide) (by simp [warmObjects]))).trans
    (hput _ (a := 0x0C) (b := 0x103) (v.objAt 0x0C 0x103 0) (by decide) (by simp [warmObjects]))).trans
    (hput _ (a := 7) (b := 0x203) (v.objAt 7 0x203 0) (by decide) (by simp [warmObjects]))
  exact ⟨h1.trans (h2.mono fun _ _ h => h.1), (h2.objAt _ _ _ (by decide) (by decide) (by simp)).trans hv⟩

/-- What a warm reset makes of its state before the boot's steps (R739). -/
theorem warmCleared_spec (v : State) : warmed v v.warmCleared ∧ v.warmCleared.objAt 0x0C 0x400 0 = 0 ∧ v.warmCleared.fab.isolated = v.fab.isolated := by
  have hloads := loads_loadObjects v.warmStart
  have hrest : v.warmStart.loadObjects.resting := (resting_of_new (s := v.warmStart) rfl rfl).loads hloads
  have hstate : v.warmStart.loadObjects.objAt 0x0C 0x400 0 = 0 := hloads.objAt _ _ _ (by decide) (by decide) (by simp [loadedObjects])
  unfold warmCleared
  dsimp only
  obtain ⟨hkeep, henergy⟩ := keepObjects_spec v v.warmStart.loadObjects
  generalize hn : v.warmStart.loadObjects = n at *
  generalize v.keepObjects n = t at *
  have hreset : sets warmObjects t (t.setObjAt 0x0C 0x406 0 (v.objAt 0x0C 0x406 0 + 1)) := .put t _ (by decide) (by decide) (by simp [warmObjects])
  have hresets : (t.setObjAt 0x0C 0x406 0 (v.objAt 0x0C 0x406 0 + 1)).objAt 0x0C 0x406 0 = v.objAt 0x0C 0x406 0 + 1 := Dev.objAt_setObjAt_same ..
  have henergy1 : (t.setObjAt 0x0C 0x406 0 (v.objAt 0x0C 0x406 0 + 1)).objAt 0x0B 0x302 0 = t.objAt 0x0B 0x302 0 :=
    (Dev.objAt_setObjAt _ _ _ _ _ _ _ _ (by decide) (by decide) (by decide) (by decide)).trans (if_neg (by decide))
  generalize t.setObjAt 0x0C 0x406 0 (v.objAt 0x0C 0x406 0 + 1) = w at *
  obtain ⟨hdown, hdowns⟩ := keepDown_spec ((List.range 32).filter fun c => v.objAt 9 0x101 c = 1)
    (fun c hc => (List.mem_range.mp (List.mem_filter.mp hc).1).trans (by decide)) w
  have hdowned (c : Nat) (hc : c < 32) (h : v.objAt 9 0x101 c = 1) := hdowns c (hc.trans (by decide)) (.inl (List.mem_filter.mpr ⟨List.mem_range.mpr hc, by simp [h]⟩))
  generalize w.keepDown _ = x at *
  have hripen : sets ripenObjects x ((x.setObjAt 0x0B 0x804 0 x.pow.worn).showRipen (List.range 20)) :=
    (sets.put x _ (by decide) (by decide) ⟨rfl, .inr (.inr rfl)⟩).trans (sets_showRipen (fun d hd => (List.mem_range.mp hd).trans (by decide)) _)
  generalize (x.setObjAt 0x0B 0x804 0 x.pow.worn).showRipen (List.range 20) = y at *
  have hall : sets warmObjects n y := ((hkeep.trans hreset).trans (hdown.mono fun a b h => .inr (.inl h.1))).trans
    (hripen.mono fun a b h => by unfold ripenObjects at h; unfold warmObjects; omega)
  have hfrom : y = { v.warmStart with obj := y.obj, copies := n.copies, boot := { v.warmStart.boot with configSeq := n.boot.configSeq, configCopy := n.boot.configCopy } } := by
    rw [hall.rest, hloads.rest]
  have hkeys : v.warmStart.fab.keys = v.warmKeys := by
    unfold warmStart
    generalize v.warmKeys = k
    rfl
  refine ⟨⟨hall.calm (by simp [warmObjects]) hrest.calm, by rw [hfrom]; rfl, by rw [hfrom]; rfl, by rw [hfrom]; rfl, by rw [hfrom]; rfl, by rw [hfrom]; rfl,
    by rw [hfrom]; rfl, by rw [hfrom]; rfl, by rw [hfrom]; exact hkeys, ?_, ?_, fun c hc h => ?_⟩, ?_, by rw [hfrom]; rfl⟩
  · exact (hripen.objAt _ _ _ (by decide) (by decide) (by simp [ripenObjects])).trans
      ((hdown.objAt _ _ _ (by decide) (by decide) (by simp)).trans hresets)
  · exact (hripen.objAt _ _ _ (by decide) (by decide) (by simp [ripenObjects])).trans
      ((hdown.objAt _ _ _ (by decide) (by decide) (by simp)).trans (henergy1.trans henergy))
  · exact (hripen.objAt _ _ _ (by decide) (hc.trans (by decide)) (by simp [ripenObjects])).trans (hdowned c hc h)
  · exact (hall.objAt _ _ _ (by decide) (by decide) (by simp [warmObjects])).trans hstate

end
end State
end Sys2Proof.Machine
end

section
/-! PROOFS. Proofs/Resets.lean: the outcomes of each reset and the boot controls (O56). -/

namespace Sys2Proof.Machine

namespace State

/-! A warm reset and what comes before it (R397, R552, R710). -/

section
variable {s u : State} {fatal : Bool} {trained : List ConnId}

/-- The fatal log with the record that a fatal warm reset finds to be its cause (R397; log entry 58). -/
def raisedLog (s : State) (fatal : Bool) : List Nat :=
  match s.xl.lastDirty with
  | some r => if fatal && s.resetDue ≠ some .warm then (r :: s.xl.fatalLog).take 16 else s.xl.fatalLog
  | none => s.xl.fatalLog

theorem raisedLog_some {r : Nat} (h : s.xl.lastDirty = some r) :
    s.raisedLog fatal = if fatal && s.resetDue ≠ some .warm then (r :: s.xl.fatalLog).take 16 else s.xl.fatalLog := by
  unfold raisedLog
  rw [h]

theorem raisedLog_none (h : s.xl.lastDirty = none) : s.raisedLog fatal = s.xl.fatalLog := by
  unfold raisedLog
  rw [h]

theorem raiseFatal_spec (hr : s.pow.rails = true) : s.raiseFatal fatal =
    { s with xl := { s.xl with fatalLog := s.raisedLog fatal }, resetDue := (s.raiseFatal fatal).resetDue } := by
  unfold raiseFatal
  split
  · next r hlast =>
    rw [raisedLog_some hlast, hr, Bool.and_true]
    split
    · rfl
    · rfl
  · next hlast => rw [raisedLog_none hlast]

theorem raiseFatal_false (s : State) : s.raiseFatal false = s := by
  unfold raiseFatal
  split <;> rfl

/-- The state that a warm reset begins from. -/
def beforeWarm (s : State) (fatal : Bool) : State := if fatal then s else s.writeBackAll

theorem flushed_beforeWarm (s : State) (fatal : Bool) : s.flushed (s.beforeWarm fatal) :=
  iteInduction (motive := s.flushed) (fun _ => .refl s) fun _ => s.flushed_writeBackAll

theorem warmReset_eq (hr : s.pow.rails = true) : s.warmReset fatal trained =
    if s.fab.isolated.contains 18 then (s.beforeWarm fatal).warmCleared.bootCommon 1
    else if s.objAt 0x0C 0x400 0 = 1 then ((s.beforeWarm fatal).warmCleared.bootCommon 1).stopBoot 1 (s.objAt 0x0C 0x401 0)
    else
      let r := ((s.beforeWarm fatal).warmCleared.bootCommon 1).bootImage true trained
      if r.2 then r.1.finishBoot none else r.1 := by
  unfold warmReset
  rw [if_neg (by simp [hr]), warmClear_eq]
  unfold beforeWarm
  dsimp only

/-- What a warm reset of a powered module leaves (R710, R739). -/
theorem warmReset_spec (hr : s.pow.rails = true) : let u := s.warmReset fatal trained
    warmed (s.beforeWarm fatal) u ∧ u.objAt 0x0C 0x405 0 = 1
      ∧ ((18 : Die) ∈ s.fab.isolated → u.objAt 0x0C 0x400 0 = 0 ∧ (18 : Die) ∈ u.fab.isolated)
      ∧ ((18 : Die) ∉ s.fab.isolated → (s.objAt 0x0C 0x400 0 = 1 → u.objAt 0x0C 0x400 0 = 1)
        ∧ (s.objAt 0x0C 0x400 0 ≠ 1 → u.objAt 0x0C 0x400 0 = 2 ∨ u.objAt 0x0C 0x400 0 = 5)) := by
  dsimp only
  rw [warmReset_eq hr]
  have hiso : (s.beforeWarm fatal).fab.isolated = s.fab.isolated := by rw [(flushed_beforeWarm s fatal).dev.rest]
  generalize s.beforeWarm fatal = v at *
  obtain ⟨hwarm, hstate, hcut⟩ := warmCleared_spec v
  generalize v.warmCleared = w at *
  obtain ⟨hset, hkind, -⟩ := bootCommon_spec hwarm.calm 1
  have hwarm1 := hwarm.settles hset
  have hstate1 : (w.bootCommon 1).objAt 0x0C 0x400 0 = 0 :=
    (hset.objAt _ _ _ (by decide) (by decide) (by simp [commonObjects, earlyObjects, partObjects])).trans hstate
  have hcut1 : (w.bootCommon 1).fab.isolated = s.fab.isolated := by rw [hset.rest]; exact hcut.trans hiso
  generalize w.bootCommon 1 = t at *
  have hkept {x : State} (b : boots false t x) : x.objAt 0x0C 0x405 0 = 1 := (b.objAt _ _ (.inr (by simp))).trans hkind
  by_cases h18 : (18 : Die) ∈ s.fab.isolated
  · rw [if_pos (by simpa using h18)]
    exact ⟨hwarm1, hkind, fun _ => ⟨hstate1, hcut1 ▸ h18⟩, fun h => absurd h18 h⟩
  · rw [if_neg (by simpa using h18)]
    by_cases hwas : s.objAt 0x0C 0x400 0 = 1
    · rw [if_pos hwas]
      obtain ⟨hb, h1, -, -⟩ := stopBoot_spec (T := false) t 1 (s.objAt 0x0C 0x401 0)
      exact ⟨hwarm1.boots hb, hkept hb, fun h => absurd h h18, fun _ => ⟨fun _ => h1, fun h => absurd hwas h⟩⟩
    · rw [if_neg hwas]
      obtain ⟨hb, hgoes, hstops⟩ := bootImage_spec (T := false) t true trained
      generalize t.bootImage true trained = p at *
      dsimp only at *
      cases hp : p.2 with
      | false =>
        rw [if_neg Bool.false_ne_true]
        exact ⟨hwarm1.boots hb, hkept hb, fun h => absurd h h18, fun _ => ⟨fun h => absurd h hwas, fun _ => .inl (hstops hp).1⟩⟩
      | true =>
        rw [if_pos rfl]
        obtain ⟨hf, h5⟩ := finishBoot_spec p.1 none
        exact ⟨hwarm1.boots (hb.trans hf), hkept (hb.trans hf), fun h => absurd h h18, fun _ => ⟨fun h => absurd h hwas, fun _ => .inr h5⟩⟩

end

/-! Sessions that close (R669, R719). -/

/-- From s to u a transfer may have ended with its session. -/
structure endsTransfer (s u : State) : Prop where
  rest : u = { s with obj := u.obj, mgmt := { s.mgmt with transfer := u.mgmt.transfer } }
  objAt : ∀ a b c, b < 65536 → c < 256 → ¬(a = 0x0C ∧ b = 0x434) → u.objAt a b c = s.objAt a b c

theorem endsTransfer_endTransfer (s : State) (p : Path → Bool) : s.endsTransfer (s.endTransfer p) := by
  have hput (t : State) : sets (fun a b => a = 0x0C ∧ b = 0x434) t (t.setObjAt 0x0C 0x434 0 7) := .put t 7 (by decide) (by decide) ⟨rfl, rfl⟩
  unfold endTransfer
  split
  · split
    · exact ⟨rfl, (hput { s with mgmt := { s.mgmt with transfer := none } }).objAt⟩
    · exact ⟨rfl, fun _ _ _ _ _ _ => rfl⟩
  · exact ⟨rfl, fun _ _ _ _ _ _ => rfl⟩

theorem endsTransfer_foldl (l : List Session) (f : Session → Path → Bool) (s : State) : s.endsTransfer (l.foldl (fun s x => s.endTransfer (f x)) s) := by
  induction l generalizing s with
  | nil => exact ⟨rfl, fun _ _ _ _ _ _ => rfl⟩
  | cons x l ih =>
    have h1 := s.endsTransfer_endTransfer (f x)
    have h2 := ih (s.endTransfer (f x))
    rw [List.foldl_cons]
    generalize s.endTransfer (f x) = t at *
    generalize l.foldl _ t = u at *
    exact ⟨by rw [h2.rest, h1.rest], fun a b c hb hc h => (h2.objAt a b c hb hc h).trans (h1.objAt a b c hb hc h)⟩

/-- Whether a path is that of a session (R719). -/
def ownsPath (x : Session) (q : Path) : Bool :=
  match q, x.path with
  | .mgmt n, .mgmt => n.toNat = x.num
  | .inband c, .inband d => c = d
  | _, _ => false

/-- The transfers and the copies of reports that go with sessions. -/
def endTransfers (l : List Session) (s : State) : State := l.foldl (fun s x => s.endTransfer (ownsPath x)) s
def dropAttest (l : List Session) (t : Table AttestCopy) : Table AttestCopy := l.foldl (fun t x => Table.set {} t x.num {}) t

theorem closeSessions_eq (s : State) (p : Session → Bool) : s.closeSessions p =
    let t := endTransfers (s.mgmt.sessions.filter p) { s with mgmt := { s.mgmt with sessions := s.mgmt.sessions.filter fun x => !p x } }
    ({ t with mgmt := { t.mgmt with attest := dropAttest (s.mgmt.sessions.filter p) t.mgmt.attest } } : State).showSessions := rfl

/-- What the closing of sessions leaves. -/
structure closes (s u : State) (p : Session → Bool) : Prop where
  rest : u = { s with obj := u.obj, mgmt := { s.mgmt with sessions := s.mgmt.sessions.filter fun x => !p x, transfer := u.mgmt.transfer,
                                                           attest := u.mgmt.attest } }
  objAt : ∀ a b c, b < 65536 → c < 256 → ¬(a = 0x0C ∧ (b = 0x434 ∨ b = 0x110)) → u.objAt a b c = s.objAt a b c

theorem closes_closeSessions (s : State) (p : Session → Bool) : s.closes (s.closeSessions p) p := by
  rw [closeSessions_eq]
  dsimp only
  have hfold : endsTransfer _ (endTransfers _ _) :=
    endsTransfer_foldl (s.mgmt.sessions.filter p) ownsPath { s with mgmt := { s.mgmt with sessions := s.mgmt.sessions.filter fun x => !p x } }
  generalize endTransfers (s.mgmt.sessions.filter p) _ = t at *
  have hput (w : State) : sets (fun a b => a = 0x0C ∧ b = 0x110) w w.showSessions := .put w _ (by decide) (by decide) ⟨rfl, rfl⟩
  generalize dropAttest (s.mgmt.sessions.filter p) t.mgmt.attest = att
  have hshow := hput { t with mgmt := { t.mgmt with attest := att } }
  generalize ({ t with mgmt := { t.mgmt with attest := att } } : State).showSessions = u at *
  refine ⟨?_, fun a b c hb hc h => ?_⟩
  · rw [hshow.rest, hfold.rest]
  · exact (hshow.objAt a b c hb hc (by omega)).trans (hfold.objAt a b c hb hc (by omega))

/-- A management controller restart (R669, R738, R739). -/
theorem restartController_spec {s : State} (hr : s.pow.rails = true) : let u := s.restartController
    u.mgmt.sessions = s.mgmt.sessions.filter (fun x => !(x.path = .mgmt)) ∧ u.mgmt.waiting = []
      ∧ u.objAt 0x0C 0x405 0 = 3 ∧ u.cmd = s.cmd ∧ u.mem = s.mem ∧ u.xl = s.xl ∧ u.svc = s.svc ∧ u.fab = s.fab ∧ u.pow = s.pow ∧ u.boot = s.boot
      ∧ u.now = s.now := by
  have hc := s.closes_closeSessions fun x => x.path = .mgmt
  have heq : s.restartController = ({ s.closeSessions (fun x => x.path = .mgmt) with
      mgmt := { (s.closeSessions fun x => x.path = .mgmt).mgmt with waiting := [] },
      resetDue := if (s.closeSessions fun x => x.path = .mgmt).resetDue = some ResetKind.mcRestart then none
        else (s.closeSessions fun x => x.path = .mgmt).resetDue } : State).setObjAt 0x0C 0x405 0 3 := (if_neg (by simp [hr])).trans rfl
  dsimp only
  rw [heq]
  generalize s.closeSessions _ = t at *
  obtain ⟨hrest, -⟩ := hc
  refine ⟨?_, rfl, Dev.objAt_setObjAt_same .., ?_, ?_, ?_, ?_, ?_, ?_, ?_, ?_⟩
  all_goals
    rw [hrest]
    rfl

/-! Rollback floors (R704, R718). -/

theorem oneWay_raiseCounter (s : State) (i j : Fin 3) (v : Nat) : (s.raiseCounter i v).oneWay j = if j = i then max (s.oneWay i) v else s.oneWay j := by
  unfold raiseCounter oneWay modBoot
  simp only [Fin.getElem_fin, Vector.getElem_set, Fin.ext_iff, eq_comm (a := i.val)]

/-- What a write of floor_raise leaves (R718). -/
theorem raiseFloors_spec (s : State) : let u := s.raiseFloors
    u = { s with boot := { s.boot with counters := u.boot.counters } }
      ∧ u.oneWay 0 = s.oneWay 0 ∧ (s.boot.image = none → u.oneWay 1 = s.oneWay 1) ∧ (s.personality = none → u.oneWay 2 = s.oneWay 2)
      ∧ (∀ f, s.boot.image = some f → u.oneWay 1 = max (s.oneWay 1) f.security)
      ∧ (∀ b, s.personality = some b → u.oneWay 2 = max (s.oneWay 2) (fieldAt b 4 4)) := by
  have hp (i : Fin 3) (v : Nat) : (s.raiseCounter i v).personality = s.personality := rfl
  have hrest : s.raiseFloors = { s with boot := { s.boot with counters := s.raiseFloors.boot.counters } } := by
    unfold raiseFloors
    dsimp only
    split
    · split <;> rfl
    · split <;> rfl
  refine ⟨hrest, ?_⟩
  clear hrest
  unfold raiseFloors
  dsimp only
  cases hi : s.boot.image with
  | none =>
    cases hb : s.personality with
    | none => exact ⟨rfl, fun _ => rfl, fun _ => rfl, nofun, nofun⟩
    | some b =>
      have h2 := oneWay_raiseCounter s 2 (v := fieldAt b 4 4)
      refine ⟨(h2 0).trans (if_neg (by decide)), fun _ => (h2 1).trans (if_neg (by decide)), nofun, nofun, fun b' h => ?_⟩
      obtain rfl := Option.some.inj h
      exact (h2 2).trans (if_pos rfl)
  | some f =>
    dsimp only
    rw [hp]
    have h1 := oneWay_raiseCounter s 1 (v := f.security)
    generalize s.raiseCounter 1 f.security = t at *
    cases hb : s.personality with
    | none =>
      refine ⟨(h1 0).trans (if_neg (by decide)), nofun, fun _ => (h1 2).trans (if_neg (by decide)), fun f' h => ?_, nofun⟩
      obtain rfl := Option.some.inj h
      exact (h1 1).trans (if_pos rfl)
    | some b =>
      have h2 := oneWay_raiseCounter t 2 (v := fieldAt b 4 4)
      refine ⟨((h2 0).trans (if_neg (by decide))).trans ((h1 0).trans (if_neg (by decide))), nofun, nofun, fun f' h => ?_, fun b' h => ?_⟩
      · obtain rfl := Option.some.inj h
        exact ((h2 1).trans (if_neg (by decide))).trans ((h1 1).trans (if_pos rfl))
      · obtain rfl := Option.some.inj h
        exact ((h2 2).trans (if_pos rfl)).trans (congrArg (max · _) ((h1 2).trans (if_neg (by decide))))

end State

/-- A cold reset, where it is due (R709, R738). -/
theorem coldReset_spec (r : BootReading) {s : State} (h : s.pow.rails = true ∨ s.resetDue = some .cold) :
    ∃ u, exec (.coldReset r) s = .next u ∧ exec (.resetRequestCold r) s = .next u
    ∧ u.pow.rails = true ∧ u.pow.hotSwap = true ∧ u.pow.latch = none ∧ u.resetDue = none ∧ u.cmd = {} ∧ u.mgmt.sessions = [] ∧ u.pending = s.pending
    ∧ (∀ k, u.keyState k = .quarantine 2000000) ∧ u.objAt 0x0C 0x405 0 = 2 ∧ (∀ i : Fin 3, s.boot.counters[i] ≤ u.boot.counters[i]) ∧
    (let state := u.objAt 0x0C 0x400 0
     let cause := u.objAt 0x0C 0x401 0
     let chosen := s.selectSlot r.carrierReads (Config.pufRead r.pufNoise)
     (state = 1 ∨ state = 2 ∨ state = 3 ∨ state = 5) ∧
     (r.carrierReads = false → state = 1 ∧ cause = 7 ∧ u.boot.image = none) ∧
     (∀ c, chosen = .inr c → state = 1 ∧ cause = c ∧ u.boot.secret = none) ∧
     (∀ i, chosen = .inl i → u.boot.slot = some i ∧ (r.storeReads = false → state = 2 ∧ cause = 6 ∧ u.boot.image = none)) ∧
     (∀ i, chosen = .inl i → s.pow.bringUpLatch = true → state = 2 ∨ (state = 3 ∧ u.pow.bringUpLatch = true))) ∧
    (s.pow.latch = some .sagReset → u.objAt 0x0B 0x605 0 = 1) ∧ (s.pow.latch = some .overVoltage → u.objAt 0x0B 0x605 0 = 2) ∧
    (∀ d, s.pow.latch = some (.thermalTrip d) → u.objAt 0x0B 0x605 0 = 3) := by
  have hdue : s.coldDue = true := by
    unfold State.coldDue
    rcases h with h | h <;> simp [h]
  have hexec : exec (.coldReset r) s = .next (s.coldBoot r) := exec_next rfl (if_pos hdue)
  have hexec' : exec (.resetRequestCold r) s = .next (s.coldBoot r) := exec_next rfl (if_pos hdue)
  have hcounters := (exec_keeps _ _ _ hexec).oneWay
  have hnone {cause : Nat} := s.coldStopped_of_none (r := r) (cause := cause)
  have hsome {i : Nat} := s.coldOutcome_of_slot (r := r) (i := i)
  have hunread : r.carrierReads = false → s.selectSlot r.carrierReads (Config.pufRead r.pufNoise) = .inr 7 := fun hc => by
    rw [hc]
    rfl
  refine ⟨_, hexec, hexec', ?_⟩
  generalize s.coldBoot r = u at *
  generalize s.selectSlot r.carrierReads (Config.pufRead r.pufNoise) = chosen at *
  have hdone : State.coldDone s u := by
    cases chosen with
    | inl i => exact (hsome rfl).done
    | inr c => exact (hnone rfl).done
  obtain ⟨hready, hlatch, hkind, hcode⟩ := hdone
  refine ⟨hready.rails, hready.hotSwap, hlatch, hready.due, hready.cmd, hready.sessions, hready.pending, fun k => ?_, hkind, hcounters,
    ⟨?_, fun hc => ?_, fun c hc => ?_, fun i hi => ?_, fun i hi => (hsome hi).held⟩, fun hl => hcode 1 (by rw [hl]; rfl), fun hl => hcode 2 (by rw [hl]; rfl),
    fun d hl => hcode 3 (by rw [hl]; rfl)⟩
  · unfold Dev.keyState
    rw [hready.keys]
    rfl
  · cases chosen with
    | inl i => exact .inr (hsome rfl).state
    | inr c => exact .inl (hnone rfl).state
  · have hx := hnone (hunread hc)
    exact ⟨hx.state, hx.cause, hx.image⟩
  · have hx := hnone hc
    exact ⟨hx.state, hx.cause, hx.secret⟩
  · exact ⟨(hsome hi).slot, (hsome hi).stopped⟩

/-- A warm reset of a module with its rails on (R710, R739, R740). -/
theorem warmReset_powered (fatal : Bool) (trained : List ConnId) {s : State} (hr : s.pow.rails = true) :
    ∃ u, exec (.warmReset fatal trained) s = .next u ∧ u.now = s.now ∧ u.pow.rails = true ∧ u.cmd = {} ∧ u.mgmt.sessions = []
      ∧ u.pending = s.pending ∧ u.pow.trims = s.pow.trims
      ∧ ((fatal = true ∨ ∀ m, (s.mmu m).fqEn = false) → u.xl.fatalLog = s.raisedLog fatal)
      ∧ (∀ k, u.keyState k = (if s.keyState k = .enabled then .quarantine (s.now.toNat + s.objAt 0x0A 0x204 0) else .drained))
      ∧ u.objAt 0x0C 0x405 0 = 1 ∧ u.objAt 0x0C 0x406 0 = s.objAt 0x0C 0x406 0 + 1 ∧ u.objAt 0x0B 0x302 0 = s.objAt 0x0B 0x302 0
      ∧ (∀ c : ConnId, s.objAt 9 0x101 c.val = 1 → u.objAt 9 0x101 c.val = 1) ∧ (∀ i : Fin 3, s.boot.counters[i] ≤ u.boot.counters[i]) ∧
      (let state := u.objAt 0x0C 0x400 0
       ((18 : Die) ∈ s.fab.isolated → state = 0 ∧ (18 : Die) ∈ u.fab.isolated) ∧
       ((18 : Die) ∉ s.fab.isolated → (s.objAt 0x0C 0x400 0 = 1 → state = 1) ∧ (s.objAt 0x0C 0x400 0 ≠ 1 → state = 2 ∨ state = 5))) := by
  have hexec : exec (.warmReset fatal trained) s = .next ((s.raiseFatal fatal).warmReset fatal trained) := rfl
  have hcounters := (exec_keeps _ _ _ hexec).oneWay
  have hraise := State.raiseFatal_spec (fatal := fatal) hr
  refine ⟨_, hexec, ?_⟩
  generalize s.raiseFatal fatal = w at *
  have hwr : w.pow.rails = true := by rw [hraise]; exact hr
  have hobj (a b c : Nat) : w.objAt a b c = s.objAt a b c := by rw [hraise]; rfl
  have hiso : w.fab.isolated = s.fab.isolated := by rw [hraise]
  obtain ⟨hwarm, hkind, hcut, hstate⟩ := State.warmReset_spec (fatal := fatal) (trained := trained) hwr
  have hflush := w.flushed_beforeWarm fatal
  have hbefore : fatal = true → w.beforeWarm fatal = w := fun h => if_pos h
  generalize w.warmReset fatal trained = u at *
  generalize w.beforeWarm fatal = v at *
  have hnow : v.now = s.now := by rw [hflush.dev.rest, hraise]
  have hfab : v.fab = s.fab := by rw [hflush.dev.rest, hraise]
  have hpow : v.pow = s.pow := hflush.only.pow.trans (by rw [hraise])
  have hkeep {a b c : Nat} (hb : b < 65536) (hc : c < 256) (h : ¬Dev.ownObjects a b) : v.objAt a b c = s.objAt a b c :=
    (hflush.dev.objAt a b c hb hc h).trans (hobj a b c)
  refine ⟨hwarm.now.trans hnow, hwarm.rails.trans (by rw [hpow, hr]), hwarm.cmd, hwarm.sessions, hwarm.pending.trans (hflush.only.pending.trans (by rw [hraise])),
    hwarm.trims.trans (by rw [hpow]), fun hlog => hwarm.fatalLog.trans ?_, fun k => ?_, hkind, ?_, ?_, fun c hc => ?_, hcounters, ?_⟩
  · have hwlog : w.xl.fatalLog = s.raisedLog fatal := by rw [hraise]
    rw [← hwlog]
    rcases hlog with hf | hoff
    · rw [hbefore hf]
    · exact (hflush.quiet fun m => by rw [hraise]; exact hoff m).2
  · unfold Dev.keyState
    rw [hwarm.keys, State.get_warmKeys]
    unfold Dev.keyState
    rw [hfab, hnow, hkeep (by decide) (by decide) (by simp [Dev.ownObjects])]
  · rw [hwarm.resets, hkeep (by decide) (by decide) (by simp [Dev.ownObjects])]
  · rw [hwarm.energy, hkeep (by decide) (by decide) (by simp [Dev.ownObjects])]
  · refine hwarm.down c c.isLt ?_
    rw [hkeep (by decide) (c.isLt.trans (by decide)) (by simp [Dev.ownObjects]), hc]
  · rw [hiso, hobj] at *
    exact ⟨hcut, hstate⟩

/-- Settles O56: each reset builds its state from what it keeps, and the boot's steps set objects that it has not promised to keep. A cold reset runs only
with its rails or once due, a warm reset without a personality stays without one, and a fatal one that nothing made due raises the last deferred record
(log entry 58). -/
theorem bootAndReset : Obligations.BootAndReset := by
  unfold Obligations.BootAndReset
  refine ⟨fun r s hr hd => ?_, fun r s h => coldReset_spec r h, fun fatal trained s => ⟨?_, fun hr => ?_, fun hr => warmReset_powered fatal trained hr⟩,
    fun s => ?_, fun r s => ?_⟩
  · have hno : ¬s.coldDue = true := by
      unfold State.coldDue
      simp [hr, hd]
    exact ⟨exec_next rfl (if_neg hno), exec_next rfl (if_neg hno)⟩
  · exact exec_next (b := s.warmReset false trained) rfl rfl |>.trans (exec_next rfl (congrArg (fun w : State => w.warmReset false trained) s.raiseFatal_false)).symm
  · refine exec_next rfl (if_pos ?_ |>.trans ?_)
    · unfold State.raiseFatal
      split <;> simp [hr]
    · unfold State.raiseFatal
      split <;> simp [hr]
  · have hoff : s.pow.rails = false → s.restartController = s := fun hr => if_pos (by simp [hr])
    exact ⟨⟨fun hr => exec_next rfl (hoff hr), fun hr => ⟨_, rfl, State.restartController_spec hr⟩⟩,
      ⟨fun hr => exec_next rfl (hoff hr), fun hr => ⟨_, rfl, State.restartController_spec hr⟩⟩,
      ⟨fun hr => exec_next rfl (hoff hr), fun hr => ⟨_, rfl, State.restartController_spec hr⟩⟩⟩
  · refine ⟨rfl, rfl, rfl, fun h => exec_next rfl (if_neg (by simp [h])), fun h => ?_, rfl, ⟨_, rfl, s.raiseFloors_spec⟩⟩
    obtain ⟨hb, h5⟩ := s.leaveBringUp_spec r
    have hexec : exec (.bootContinue true r) s = .next (s.leaveBringUp r) := exec_next rfl (if_pos (by simp [h]))
    exact ⟨_, hexec, congrArg Standing.bringUpLatch hb.standing, congrArg Standing.reading hb.standing, h5, congrArg Standing.cmd hb.standing⟩

end Sys2Proof.Machine
end

section
/-! PROOFS. Proofs/SideBuffers.lean: prefetchers, their fills and their lifetimes (O32). -/

namespace Sys2Proof.Machine

namespace Dev

variable (s : Dev)

/-! Side buffers and prefetches in flight. -/

theorem inFlight_setFlight (d : Fin 8) (t : LineTag) (x : Option InFlight) : Table.get none ((s.setFlight d t x).mem.inFlight[d]) t = x := by
  change Table.get none ((s.mem.inFlight.set d (Table.set none (s.mem.inFlight[d]) t x) d.isLt)[d]) t = x
  simp [Table.get_set_same]

theorem side_setSide (d : Fin 8) (t : LineTag) (x : Option SideLine) : Table.get none ((s.setSide d t x).mem.side[d]) t = x := by
  change Table.get none ((s.mem.side.set d (Table.set none (s.mem.side[d]) t x) d.isLt)[d]) t = x
  simp [Table.get_set_same]

/-! A prefetcher (R342 to R346). -/

/-- The state once the blocks of a prefetcher have been dropped. -/
def unblocked (s : Dev) (m : MillId) (f : Nat) : Dev := s.modMill m fun y => { y with pfBlocked := y.pfBlocked.filter fun b => b.1 ≠ f }

/-- The line of an address, where its page's translation is cached. -/
def pfTag (s : Dev) (p : Port) (a : Nat) : Option LineTag :=
  (s.tcHit p.die p.asid (a / 4096) wantRead).map fun e => tagOf (e.pa + (a / 4096 - e.vpn) * 4096 + a % 4096) e.realm

/-- The die of a mill. -/
def millDie (m : MillId) : Fin 8 := ⟨m.val / 12, by omega⟩

/-- What a prefetcher does that has lines ahead and no block that stands. -/
def pfIssue (s : Dev) (m : MillId) (f : Fin 4) (o : Operation) (x : MillOp) (lines : List Nat) : Dev :=
  let p := s.thresherPort o m f.val
  let u := s.unblocked m f.val
  match (lines.take x.pfDistance).find? fun a => (u.pfTag p a).all fun t => !u.holdsLine (millDie m) t && !u.prefetchDrops t with
  | none => u
  | some a =>
    match u.pfTag p a with
    | none => u.walkNoFault p a
    | some t => ((u.bump 1 0x100 (millDie m).val 1).askSide (millDie m) (prefetcherNo (m.val % 12) f.val) t x.pfLife).1

/-- What a prefetcher does (R346). -/
def pfStep (s : Dev) (m : MillId) (f : Fin 4) : Dev :=
  match s.linesAhead m f.val with
  | none => s
  | some (o, x, lines) => if (s.mill m).pfBlocked.any (fun b => b.1 = f.val && s.blockStands m b) then s else s.pfIssue m f o x lines

theorem exec_prefetcherIssue (st : State) (m : MillId) (f : Fin 4) :
    exec (.prefetcherIssue m f) st = .next { st with toDev := st.toDev.pfStep m f } := rfl

variable {s}

/-- The first line ahead that the die does not hold is asked for. -/
theorem pfIssue_head {m : MillId} {f : Fin 4} {o : Operation} {x : MillOp} {lines : List Nat} {a : Nat} {e : TcEntry} (ha : lines.head? = some a)
    (hx : 0 < x.pfDistance)
    (ht : s.tcHit (s.thresherPort o m f.val).die (s.thresherPort o m f.val).asid (a / 4096) wantRead = some e)
    (hh : s.holdsLine (millDie m) (tagOf (e.pa + (a / 4096 - e.vpn) * 4096 + a % 4096) e.realm) = false)
    (hd : s.prefetchDrops (tagOf (e.pa + (a / 4096 - e.vpn) * 4096 + a % 4096) e.realm) = false) :
    s.pfIssue m f o x lines = (((s.unblocked m f.val).bump 1 0x100 (millDie m).val 1).askSide (millDie m) (prefetcherNo (m.val % 12) f.val)
      (tagOf (e.pa + (a / 4096 - e.vpn) * 4096 + a % 4096) e.realm) x.pfLife).1 := by
  obtain ⟨rest, rfl⟩ : ∃ rest, lines = a :: rest := by
    cases lines with
    | nil => exact absurd ha nofun
    | cons b rest => exact ⟨rest, by rw [Option.some.inj ha]⟩
  obtain ⟨n, hn⟩ : ∃ n, x.pfDistance = n + 1 := ⟨x.pfDistance - 1, by omega⟩
  have htag : (s.unblocked m f.val).pfTag (s.thresherPort o m f.val) a = some (tagOf (e.pa + (a / 4096 - e.vpn) * 4096 + a % 4096) e.realm) :=
    congrArg (Option.map fun e : TcEntry => tagOf (e.pa + (a / 4096 - e.vpn) * 4096 + a % 4096) e.realm) ht
  unfold pfIssue
  dsimp only
  rw [hn, List.take_succ_cons, List.find?_cons_of_pos]
  · dsimp only
    rw [htag]
  · rw [htag]
    generalize tagOf _ _ = t at *
    have h1 : (s.unblocked m f.val).holdsLine (millDie m) t = false := hh
    have h2 : (s.unblocked m f.val).prefetchDrops t = false := hd
    simp [h1, h2]

theorem askSide_full {d : Fin 8} {t : LineTag} (who life : Nat) (hh : s.holdsLine d t = false) (hd : s.prefetchDrops t = false) (hu : 256 ≤ s.sideUsed d t) :
    (s.askSide d who t life).1 = s.bump 5 0x104 d.val 1 := by
  unfold askSide
  rw [if_neg (by simp [hh, hd]), if_pos hu]

theorem askSide_free {d : Fin 8} {t : LineTag} {who : Nat} (life : Nat) (hh : s.holdsLine d t = false) (hd : s.prefetchDrops t = false)
    (hu : s.sideUsed d t < 256) (hf : (s.entryAhead ⟨d.val, by omega⟩ who).length < min (s.entriesFree ⟨d.val, by omega⟩ t).1 (s.entriesFree ⟨d.val, by omega⟩ t).2) :
    ∃ u, (s.askSide d who t life).1 = u ∧ Table.get none (u.mem.inFlight[d]) t = some { joined := none, discard := false, life := life }
      ∧ u.objAt 5 0x100 d.val = (s.objAt 5 0x100 d.val + 1) % 2 ^ 64 ∧ u.mem.side = s.mem.side
      ∧ u = { s with obj := u.obj, mem := { s.mem with inFlight := u.mem.inFlight, agents := u.mem.agents } } := by
  unfold askSide takeEntry
  rw [if_neg (by simp [hh, hd]), if_neg (by omega)]
  dsimp only
  rw [if_pos hf]
  exact ⟨_, rfl, inFlight_setFlight .., objAt_bump_self _ 1 (by decide) (by omega), rfl, rfl⟩

theorem askSide_waits {d : Fin 8} {t : LineTag} {who : Nat} (life : Nat) (hh : s.holdsLine d t = false) (hd : s.prefetchDrops t = false)
    (hu : s.sideUsed d t < 256) (hf : ¬(s.entryAhead ⟨d.val, by omega⟩ who).length < min (s.entriesFree ⟨d.val, by omega⟩ t).1 (s.entriesFree ⟨d.val, by omega⟩ t).2) :
    (s.askSide d who t life).1.mem.inFlight = s.mem.inFlight
      ∧ (s.askSide d who t life).1.objAt 8 0x102 d.val = (s.objAt 8 0x102 d.val + 1) % 2 ^ 64
      ∧ (s.askSide d who t life).1.objAt 5 0x100 d.val = s.objAt 5 0x100 d.val := by
  have hdie : d.val < 256 := by omega
  unfold askSide takeEntry
  rw [if_neg (by simp [hh, hd]), if_neg (by omega)]
  dsimp only
  rw [if_neg hf]
  dsimp only
  generalize hv : s.modAgent _ _ = v
  have hmem : v.mem.inFlight = s.mem.inFlight := by rw [← hv]; rfl
  have hobj : v.obj = s.obj := by rw [← hv]; rfl
  have hw : ∀ w : Dev, w = (if (s.entriesFree ⟨d.val, by omega⟩ t).2 = 0 then v.bump 8 0x105 d.val 1 else v) → w.mem.inFlight = s.mem.inFlight
      ∧ ∀ k b, b < 65536 → ¬(k = 8 ∧ b = 0x105) → w.objAt k b d.val = s.objAt k b d.val := by
    intro w h
    have hsame (k b : Nat) : v.objAt k b d.val = s.objAt k b d.val := by unfold objAt obj!; rw [hobj]
    split at h
    · subst h
      exact ⟨hmem, fun k b hb hne => (objAt_bump _ 1 hdie hdie (by decide) hb).trans ((if_neg fun e => hne ⟨e.1, e.2.1⟩).trans (hsame k b))⟩
    · subst h
      exact ⟨hmem, fun k b _ _ => hsame k b⟩
  obtain ⟨hm, ho⟩ := hw _ rfl
  generalize (if (s.entriesFree ⟨d.val, by omega⟩ t).2 = 0 then v.bump 8 0x105 d.val 1 else v) = w at *
  refine ⟨hm, ?_, ?_⟩
  · rw [objAt_bump_self _ 1 (by decide) hdie, ho 8 0x102 (by decide) (by decide)]
  · rw [objAt_bump _ 1 hdie hdie (by decide) (by decide), if_neg (by simp), ho 5 0x100 (by decide) (by decide)]

end Dev

theorem prefetcherIssue_spec (m : MillId) (f : Fin 4) (s : State) (o : Operation) (x : MillOp) (lines : List Nat) (a : Nat) (e : TcEntry)
    (hl : s.linesAhead m f.val = some (o, x, lines)) (hb : ∀ b ∈ (s.mill m).pfBlocked, b.1 ≠ f.val) (ha : lines.head? = some a) (hx : 0 < x.pfDistance) :
    let p := s.thresherPort o m f.val
    let die : Fin 8 := ⟨m.val / 12, by omega⟩
    let ag : Agent := ⟨die.val, by omega⟩
    let who := prefetcherNo (m.val % 12) f.val
    let t := tagOf (e.pa + (a / 4096 - e.vpn) * 4096 + a % 4096) e.realm
    let free : Prop := (s.entryAhead ag who).length < min (s.entriesFree ag t).1 (s.entriesFree ag t).2
    s.tcHit p.die p.asid (a / 4096) wantRead = some e → s.holdsLine die t = false → s.prefetchDrops t = false →
    (s.sideUsed die t < 256 → free → ∃ u, exec (.prefetcherIssue m f) s = .next u
      ∧ Table.get none (u.mem.inFlight[die]) t = some { joined := none, discard := false, life := x.pfLife }
      ∧ u.objAt 5 0x100 die.val = (s.objAt 5 0x100 die.val + 1) % 2 ^ 64 ∧ u.mem.side = s.mem.side
      ∧ u = { s with obj := u.obj, mem := { s.mem with inFlight := u.mem.inFlight, agents := u.mem.agents }, cmd := { s.cmd with mills := u.cmd.mills } }) ∧
    (s.sideUsed die t < 256 → ¬free → ∃ u, exec (.prefetcherIssue m f) s = .next u ∧ u.mem.inFlight = s.mem.inFlight
      ∧ u.objAt 8 0x102 die.val = (s.objAt 8 0x102 die.val + 1) % 2 ^ 64 ∧ u.objAt 5 0x100 die.val = s.objAt 5 0x100 die.val) ∧
    (256 ≤ s.sideUsed die t → ∃ u, exec (.prefetcherIssue m f) s = .next u ∧ u.objAt 5 0x104 die.val = (s.objAt 5 0x104 die.val + 1) % 2 ^ 64
      ∧ u = { s with obj := u.obj, cmd := { s.cmd with mills := u.cmd.mills } }) := by
  dsimp only
  intro ht hh hd
  have hexec : exec (.prefetcherIssue m f) s = .next { s with toDev := s.toDev.pfIssue m f o x lines } := by
    refine exec_eq_next (Dev.exec_prefetcherIssue s m f) ?_
    unfold Dev.pfStep
    rw [hl]
    refine if_neg ?_
    simp only [List.any_eq_true, Bool.and_eq_true, decide_eq_true_eq, not_exists, not_and]
    exact fun b hbm hbf => absurd hbf (hb b hbm)
  have hissue := Dev.pfIssue_head (s := s.toDev) ha hx ht hh hd
  rw [hissue] at hexec
  have hdie : (Dev.millDie m).val < 256 := by omega
  have hobj (k b : Nat) (hk : k ≠ 1) (hb : b < 65536) : ((s.toDev.unblocked m f.val).bump 1 0x100 (Dev.millDie m).val 1).objAt k b (Dev.millDie m).val
      = s.objAt k b (Dev.millDie m).val :=
    (Dev.objAt_bump _ 1 hdie hdie (by decide) hb).trans ((if_neg fun h => hk h.1).trans rfl)
  have hrest : (s.toDev.unblocked m f.val).bump 1 0x100 (Dev.millDie m).val 1 = { s.toDev with
    obj := ((s.toDev.unblocked m f.val).bump 1 0x100 (Dev.millDie m).val 1).obj,
    cmd := { s.cmd with mills := ((s.toDev.unblocked m f.val).bump 1 0x100 (Dev.millDie m).val 1).cmd.mills } } := rfl
  have hmem : ((s.toDev.unblocked m f.val).bump 1 0x100 (Dev.millDie m).val 1).mem = s.mem := rfl
  change s.toDev.holdsLine (Dev.millDie m) _ = false at hh
  change s.toDev.prefetchDrops _ = false at hd
  have hh' : ((s.toDev.unblocked m f.val).bump 1 0x100 (Dev.millDie m).val 1).holdsLine (Dev.millDie m) _ = false := hh
  have hd' : ((s.toDev.unblocked m f.val).bump 1 0x100 (Dev.millDie m).val 1).prefetchDrops _ = false := hd
  have hused (t : LineTag) : ((s.toDev.unblocked m f.val).bump 1 0x100 (Dev.millDie m).val 1).sideUsed (Dev.millDie m) t = s.toDev.sideUsed (Dev.millDie m) t := rfl
  have hahead (a : Agent) (w : Nat) : ((s.toDev.unblocked m f.val).bump 1 0x100 (Dev.millDie m).val 1).entryAhead a w = s.toDev.entryAhead a w := rfl
  have hfree (a : Agent) (t : LineTag) : ((s.toDev.unblocked m f.val).bump 1 0x100 (Dev.millDie m).val 1).entriesFree a t = s.toDev.entriesFree a t := rfl
  generalize (s.toDev.unblocked m f.val).bump 1 0x100 (Dev.millDie m).val 1 = v at *
  generalize tagOf _ _ = t at *
  change (s.toDev.sideUsed (Dev.millDie m) t < 256 → _) ∧ (s.toDev.sideUsed (Dev.millDie m) t < 256 → _) ∧ (256 ≤ s.toDev.sideUsed (Dev.millDie m) t → _)
  refine ⟨fun hu hf => ?_, fun hu hf => ?_, fun hu => ?_⟩
  · obtain ⟨w, hw, h1, h2, h3, h4⟩ := Dev.askSide_free (s := v) (d := Dev.millDie m) (who := prefetcherNo (m.val % 12) f.val) x.pfLife hh' hd' (by rw [hused]; exact hu)
      (by rw [hahead, hfree]; exact hf)
    rw [hw] at hexec
    exact ⟨_, hexec, h1, h2.trans (by rw [hobj 5 0x100 (by decide) (by decide)]; rfl), h3.trans (by rw [hmem]), by rw [h4, hrest]⟩
  · obtain ⟨h1, h2, h3⟩ := Dev.askSide_waits (s := v) (d := Dev.millDie m) (who := prefetcherNo (m.val % 12) f.val) x.pfLife hh' hd' (by rw [hused]; exact hu)
      (by rw [hahead, hfree]; exact hf)
    generalize (v.askSide (Dev.millDie m) (prefetcherNo (m.val % 12) f.val) t x.pfLife).1 = w at *
    exact ⟨_, hexec, h1.trans (by rw [hmem]), h2.trans (by rw [hobj 8 0x102 (by decide) (by decide)]; rfl), h3.trans (hobj 5 0x100 (by decide) (by decide))⟩
  · rw [Dev.askSide_full _ _ hh' hd' (by rw [hused]; exact hu)] at hexec
    exact ⟨_, hexec, (Dev.objAt_bump_self _ 1 (by decide) hdie).trans (by rw [hobj 5 0x104 (by decide) (by decide)]; rfl),
      congrArg (fun d : Dev => { s with toDev := d.bump 5 0x104 (Dev.millDie m).val 1 }) hrest⟩

/-! The fill of a prefetch (R336, R339, R340, R343). -/

/-- What a fill that no demand has joined leaves of the side buffers. -/
def Dev.pfFill (s : Dev) (die : Fin 8) (t : LineTag) (f : InFlight) : Dev :=
  let a : Agent := ⟨die.val, by omega⟩
  let u := s.setFlight die t none
  if f.discard then u.bump 5 0x103 die.val 1
  else if (u.lineAt a t).isSome || (u.waitingAt a t).isSome then u
  else
    let r := u.obtain a t
    if r.2.2.2 then (r.1.dirRemove t a).bump 5 0x103 die.val 1
    else r.1.setSide die t (some { since := r.1.now, life := f.life, data := r.2.2.1, poison := false })

theorem exec_prefetchFill {s : State} {die : Fin 8} {t : LineTag} {f : InFlight} (hf : Table.get none (s.mem.inFlight[die]) t = some f)
    (hb : s.lineBusy t = false) (hj : f.joined = none) : exec (.prefetchFill die t) s = .next { s with toDev := s.toDev.pfFill die t f } := by
  refine exec_eq_next rfl ?_
  dsimp only
  rw [hf]
  dsimp only
  rw [if_neg (by simp [hb]), hj]
  rfl

theorem prefetchFill_spec (die : Fin 8) (t : LineTag) (s : State) :
    let ag : Agent := ⟨die.val, by omega⟩
    (Table.get none (s.mem.inFlight[die]) t = none → exec (.prefetchFill die t) s = .next s) ∧
    (∀ f, Table.get none (s.mem.inFlight[die]) t = some f → s.lineBusy t = false → f.joined = none →
      (f.discard = true → ∃ u, exec (.prefetchFill die t) s = .next u ∧ Table.get none (u.mem.inFlight[die]) t = none ∧ u.mem.side = s.mem.side
        ∧ u.objAt 5 0x103 die.val = (s.objAt 5 0x103 die.val + 1) % 2 ^ 64
        ∧ u = { s with obj := u.obj, mem := { s.mem with inFlight := u.mem.inFlight } }) ∧
      (f.discard = false → s.lineAt ag t = none → s.waitingAt ag t = none →
        let r := (s.setFlight die t none).obtain ag t
        r.2.2.2 = false → ∃ u, exec (.prefetchFill die t) s = .next u ∧ u.now = s.now
          ∧ Table.get none (u.mem.side[die]) t = some { since := s.now, life := f.life, data := r.2.2.1, poison := false } ∧ u.obj = r.1.obj) ∧
      (f.discard = false → (s.lineAt ag t ≠ none ∨ s.waitingAt ag t ≠ none) → ∃ u, exec (.prefetchFill die t) s = .next u
        ∧ Table.get none (u.mem.inFlight[die]) t = none ∧ u = { s with mem := { s.mem with inFlight := u.mem.inFlight } })) := by
  dsimp only
  have hdie : die.val < 256 := by omega
  refine ⟨fun hn => ?_, fun f hf hb hj => ⟨fun hd => ?_, fun hd hl hw hr => ?_, fun hd hlw => ?_⟩⟩
  · refine exec_eq_next rfl ?_
    dsimp only
    rw [hn]
  · have hexec := exec_prefetchFill hf hb hj
    rw [show s.toDev.pfFill die t f = (s.toDev.setFlight die t none).bump 5 0x103 die.val 1 from if_pos hd] at hexec
    exact ⟨_, hexec, Dev.inFlight_setFlight .., rfl, Dev.objAt_bump_self _ 1 (by decide) hdie, rfl⟩
  · have hexec := exec_prefetchFill hf hb hj
    have hfill : s.toDev.pfFill die t f = ((s.toDev.setFlight die t none).obtain ⟨die.val, by omega⟩ t).1.setSide die t (some {
        since := ((s.toDev.setFlight die t none).obtain ⟨die.val, by omega⟩ t).1.now, life := f.life,
        data := ((s.toDev.setFlight die t none).obtain ⟨die.val, by omega⟩ t).2.2.1, poison := false }) := by
      have hl' : (s.toDev.setFlight die t none).lineAt ⟨die.val, by omega⟩ t = none := hl
      have hw' : (s.toDev.setFlight die t none).waitingAt ⟨die.val, by omega⟩ t = none := hw
      have hr' : ((s.toDev.setFlight die t none).obtain ⟨die.val, by omega⟩ t).2.2.2 = false := hr
      unfold Dev.pfFill
      dsimp only
      rw [if_neg (by simp [hd]), if_neg (by simp [hl', hw']), if_neg (by simp [hr'])]
    rw [hfill] at hexec
    have hnow := Dev.memStep_now (Dev.memStep_obtain (s.toDev.setFlight die t none) ⟨die.val, by omega⟩ t)
    rw [Dev.setFlight_now] at hnow
    rw [hnow] at hexec
    generalize (s.toDev.setFlight die t none).obtain ⟨die.val, by omega⟩ t = r at *
    exact ⟨_, hexec, hnow, Dev.side_setSide .., rfl⟩
  · have hexec := exec_prefetchFill hf hb hj
    have hfill : s.toDev.pfFill die t f = s.toDev.setFlight die t none := by
      have hlw' : ((s.toDev.setFlight die t none).lineAt ⟨die.val, by omega⟩ t).isSome || ((s.toDev.setFlight die t none).waitingAt ⟨die.val, by omega⟩ t).isSome := by
        rw [Bool.or_eq_true, Option.isSome_iff_ne_none, Option.isSome_iff_ne_none]
        exact hlw
      exact (if_neg (by simp [hd])).trans (if_pos hlw')
    rw [hfill] at hexec
    exact ⟨_, hexec, Dev.inFlight_setFlight .., rfl⟩

/-! The lifetime of a side-buffer line (R341). -/

theorem pfLifetimeExpiry_spec (die : Fin 8) (t : LineTag) (t0 : U64) (s : State) :
    (Table.get none (s.mem.side[die]) t = none → exec (.pfLifetimeExpiry die t t0) s = .next s) ∧
    (∀ l, Table.get none (s.mem.side[die]) t = some l →
      (max s.now.toNat t0.toNat < l.since.toNat + l.life → exec (.pfLifetimeExpiry die t t0) s = .next s) ∧
      (l.since.toNat + l.life ≤ max s.now.toNat t0.toNat → ∃ u, exec (.pfLifetimeExpiry die t t0) s = .next u
        ∧ Table.get none (u.mem.side[die]) t = none ∧ u.objAt 5 0x102 die.val = (s.objAt 5 0x102 die.val + 1) % 2 ^ 64
        ∧ u = { s with now := u.now, obj := u.obj, mem := { s.mem with side := u.mem.side }, cmd := { s.cmd with queues := u.cmd.queues } })) := by
  have hdie : die.val < 256 := by omega
  have hnow : (s.toDev.advance t0).now.toNat = max s.now.toNat t0.toNat := s.toDev.now_advance t0
  refine ⟨fun hn => ?_, fun l hl => ⟨fun h => ?_, fun h => ?_⟩⟩
  · refine exec_eq_next rfl ?_
    dsimp only
    rw [hn]
  · refine exec_eq_next rfl ?_
    dsimp only
    rw [hl]
    exact if_neg (by rw [hnow]; omega)
  · have hexec : exec (.pfLifetimeExpiry die t t0) s = .next { s with toDev := ((s.toDev.advance t0).setSide die t none).bump 5 0x102 die.val 1 } := by
      refine exec_eq_next rfl ?_
      dsimp only
      rw [hl]
      exact if_pos (by rw [hnow]; exact h)
    refine ⟨_, hexec, Dev.side_setSide .., ?_, ?_⟩
    · refine (Dev.objAt_bump_self _ 1 (by decide) hdie).trans (congrArg (fun n => (n + 1) % 2 ^ 64) ?_)
      exact Dev.objAt_advance (s := s.toDev) t0 (by decide) hdie (by simp)
    · have hrest := s.toDev.advance_rest t0
      have hn : (s.toDev.setNow t0).now = (s.toDev.advance t0).now := by rw [hrest]
      rw [hn] at hrest
      generalize s.toDev.advance t0 = d at *
      rw [hrest]
      rfl

/-- Settles O32: a prefetcher asks for its first line that the die does not hold, and each attempt that finds no room is counted anew (log entry 16);
a fill goes to the side buffer unless it was snooped or its die has taken the line. -/
theorem sideBuffers : Obligations.SideBuffers := by
  unfold Obligations.SideBuffers
  refine ⟨fun m f s hn => ?_, fun m f s b hb hf hs => ?_, prefetcherIssue_spec, prefetchFill_spec, pfLifetimeExpiry_spec⟩
  · refine exec_eq_next (Dev.exec_prefetcherIssue s m f) ?_
    unfold Dev.pfStep
    rw [hn]
  · refine exec_eq_next (Dev.exec_prefetcherIssue s m f) ?_
    unfold Dev.pfStep
    split
    · rfl
    · exact if_pos (List.any_eq_true.mpr ⟨b, hb, by simp [hf, hs]⟩)

end Sys2Proof.Machine
end

section
/-! PROOFS. Proofs/Stooks.lean: how a stook starts, and how a late generation or SSYNC ends it (O30). -/

namespace Sys2Proof.Machine

/-! A stook starts (R278, R280, R285). -/

theorem length_placeSheaves (n : Nat) (c : List Nat) : (placeSheaves n c).length = n := by
  induction n generalizing c with
  | zero => rfl
  | succ n ih => exact congrArg (· + 1) (ih _)

/-- A stalk as its sheaf starts. -/
def LaunchOp.newStalk (l : LaunchOp) (k i : Nat) : Stalk := { pc := l.entry, v := Table.set 0 [] 0 (BitVec.ofNat 32 (k * l.width + i)) }

theorem newSheaf_stalks (l : LaunchOp) (n k q : Nat) : (newSheaf l n k q).stalks = (List.range l.width).map (l.newStalk k) := rfl

theorem newStalk_spec (l : LaunchOp) (k i : Nat) : (l.newStalk k i).pc = l.entry ∧ (l.newStalk k i).p = 0 ∧ (l.newStalk k i).live = true
    ∧ (l.newStalk k i).wait = .ready ∧ Table.get 0 (l.newStalk k i).v 0 = BitVec.ofNat 32 (k * l.width + i)
    ∧ ∀ n, n ≠ 0 → Table.get 0 (l.newStalk k i).v n = 0 :=
  ⟨rfl, rfl, rfl, rfl, Table.get_set_same .., fun _ hn => (Table.get_set_ne _ _ _ hn).trans rfl⟩

/-- A stook as it starts on a processor. -/
def Dev.newStook (s : Dev) (l : LaunchOp) (slot : SlotId) (p : Fin 256) : Stook :=
  { id := s.shf.nextId, slot := slot, ordinal := l.nextOrdinal, proc := p,
    sheaves := (placeSheaves l.sheaves (s.quarterCounts p.val)).zipIdx.map fun q => newSheaf l l.nextOrdinal q.2 q.1 }

theorem Dev.newStook_sheaves (s : Dev) (l : LaunchOp) (slot : SlotId) (p : Fin 256) : (s.newStook l slot p).sheaves.length = l.sheaves
    ∧ ∀ k h, (s.newStook l slot p).sheaves[k]? = some h → ∃ q, h = newSheaf l l.nextOrdinal k q := by
  refine ⟨?_, fun k h hk => ?_⟩
  · unfold newStook
    rw [List.length_map, List.length_zipIdx, length_placeSheaves]
  · unfold newStook at hk
    rw [List.getElem?_map, List.getElem?_zipIdx, Option.map_map] at hk
    obtain ⟨q, -, hq⟩ := Option.map_eq_some_iff.mp hk
    exact ⟨q, by rw [← hq]; simp⟩

/-- The first processor in order that has room (R278). -/
theorem LaunchOp.find_order {l : LaunchOp} {f : Nat → Bool} (hp : ∀ p ∈ l.procs, p < 256) (hf : ∃ p ∈ l.procs, f p = true) :
    ∃ p : Fin 256, l.order.find? f = some p.val := by
  have hmem (p : Nat) : p ∈ l.order ↔ p ∈ l.procs := by
    unfold order
    simp only [List.mem_append, List.mem_filter, decide_eq_true_eq, ← and_or_left, and_iff_left_iff_imp]
    omega
  obtain ⟨p, hpm, hpf⟩ := hf
  obtain ⟨q, hq⟩ := Option.isSome_iff_exists.mp (List.find?_isSome.mpr ⟨p, (hmem p).mpr hpm, hpf⟩)
  exact ⟨⟨q, hp q ((hmem q).mp (List.mem_of_find?_eq_some hq))⟩, hq⟩

/-- The device once a stook has started. -/
def Dev.stookStarted (s : Dev) (l : LaunchOp) (slot : SlotId) (p : Fin 256) : Dev :=
  ({ s with shf := { s.shf with stooks := s.shf.stooks ++ [s.newStook l slot p], nextId := s.shf.nextId + 1 } } : Dev).modOp slot fun o =>
    { o with body := .launch { l with nextOrdinal := l.nextOrdinal + 1, lastProc := p.val } }

theorem Dev.startStook_of_room {s : Dev} {slot : SlotId} {o : Operation} {l : LaunchOp} {p : Fin 256} (ho : s.op slot = some o) (hl : o.body = .launch l)
    (hf : o.failed = none) (ha : o.aborting = none) (hn : l.nextOrdinal < l.stooks) (hp : l.order.find? (s.stookFits l) = some p.val) :
    s.startStook slot = s.stookStarted l slot p := by
  unfold startStook
  rw [ho]
  dsimp only
  rw [hl]
  dsimp only
  rw [if_neg (by simp [hf, ha, hn]), hp]
  dsimp only
  rw [dif_pos p.isLt]
  rfl

theorem Dev.stook_stookStarted (s : Dev) (l : LaunchOp) (slot : SlotId) (p : Fin 256) (hids : ∀ k ∈ s.shf.stooks, k.id < s.shf.nextId) (id : Nat) :
    (s.stookStarted l slot p).stook id = if id = s.shf.nextId then some (s.newStook l slot p) else s.stook id := by
  change (s.shf.stooks ++ [s.newStook l slot p]).find? (fun k => k.id = id) = _
  rw [List.find?_append]
  by_cases hid : id = s.shf.nextId
  · have hnone : s.shf.stooks.find? (fun k => k.id = id) = none := List.find?_eq_none.mpr fun k hk => by
      have := hids k hk
      simp only [decide_eq_true_eq]
      omega
    rw [hnone, if_pos hid, hid]
    simp [newStook]
  · rw [if_neg hid]
    have : [s.newStook l slot p].find? (fun k => k.id = id) = none := List.find?_eq_none.mpr fun k hk => by
      rw [List.mem_singleton.mp hk]
      exact fun h => hid (of_decide_eq_true h).symm
    rw [this, Option.or_none]
    rfl

theorem stookStart_spec (slot : SlotId) (s : State) (o : Operation) (l : LaunchOp) (ho : s.op slot = some o) (hl : o.body = .launch l) (hf : o.failed = none)
    (ha : o.aborting = none) (hn : l.nextOrdinal < l.stooks) (hp : ∀ p ∈ l.procs, p < 256) (hroom : ∃ p ∈ l.procs, s.stookFits l p = true)
    (hids : ∀ k ∈ s.shf.stooks, k.id < s.shf.nextId) :
    ∃ t st, exec (.stookStart slot) s = .next t ∧ t.stook s.shf.nextId = some st ∧ st.slot = slot ∧ st.ordinal = l.nextOrdinal
      ∧ l.order.find? (s.stookFits l) = some st.proc.val ∧ st.smem = [] ∧ st.barrier = none ∧ st.sheaves.length = l.sheaves
      ∧ t.op slot = some { o with body := .launch { l with nextOrdinal := l.nextOrdinal + 1, lastProc := st.proc.val } }
      ∧ (∀ id, id ≠ s.shf.nextId → t.stook id = s.stook id)
      ∧ t = { s with shf := { s.shf with stooks := s.shf.stooks ++ [st], nextId := s.shf.nextId + 1 }, cmd := { s.cmd with ops := t.cmd.ops } }
      ∧ ∀ k h, st.sheaves[k]? = some h → h.stalks.length = l.width ∧ h.accesses = [] ∧ ∀ i y, h.stalks[i]? = some y →
          y.pc = l.entry ∧ y.p = 0 ∧ y.live = true ∧ y.wait = .ready ∧ Table.get 0 y.v 0 = BitVec.ofNat 32 (k * l.width + i)
            ∧ ∀ n, n ≠ 0 → Table.get 0 y.v n = 0 := by
  obtain ⟨p, hfind⟩ := l.find_order hp hroom
  have hexec : exec (.stookStart slot) s = .next { s with toDev := s.toDev.stookStarted l slot p } :=
    exec_eq_next rfl (Dev.startStook_of_room ho hl hf ha hn hfind)
  have hstook := s.toDev.stook_stookStarted l slot p hids
  obtain ⟨hlen, hsheaves⟩ := s.toDev.newStook_sheaves l slot p
  refine ⟨_, s.toDev.newStook l slot p, hexec, (hstook _).trans (if_pos rfl), rfl, rfl, hfind, rfl, rfl, hlen, ?_, fun id hid => (hstook id).trans (if_neg hid),
    rfl, fun k h hk => ?_⟩
  · have hop : ({ s.toDev with shf := { s.shf with stooks := s.shf.stooks ++ [s.toDev.newStook l slot p], nextId := s.shf.nextId + 1 } } : Dev).op slot
      = some o := ho
    unfold Dev.stookStarted
    rw [Dev.op_modOp _ slot (f := fun o => { o with body := .launch { l with nextOrdinal := l.nextOrdinal + 1, lastProc := p.val } }) fun _ => rfl, hop]
    rfl
  · obtain ⟨q, rfl⟩ := hsheaves k h hk
    refine ⟨?_, rfl, fun i y hy => ?_⟩
    · rw [newSheaf_stalks, List.length_map, List.length_range]
    · rw [newSheaf_stalks, List.getElem?_map] at hy
      obtain ⟨j, hj, rfl⟩ := Option.map_eq_some_iff.mp hy
      obtain ⟨-, rfl⟩ := List.getElem?_eq_some_iff.mp hj
      rw [List.getElem_range]
      exact newStalk_spec l k i

/-! A generation and an SSYNC that fail (R305, R310 to R312). -/

theorem Dev.launchOf_op {s : Dev} {st : Stook} {o : Operation} {l : LaunchOp} (h : s.launchOf st = some (o, l)) : s.op st.slot = some o := by
  unfold launchOf at h
  split at h
  · next o' ho' =>
    split at h
    · obtain ⟨rfl, -⟩ := Prod.mk.inj (Option.some.inj h)
      exact ho'
    · exact absurd h nofun
  · exact absurd h nofun

theorem Dev.stook_dropStook_ne (s : Dev) {id id2 : Nat} (hne : id2 ≠ id) : (s.dropStook id).stook id2 = s.stook id2 := by
  unfold stook dropStook
  rw [List.find?_filter]
  refine List.find?_congr fun k _ => ?_
  by_cases hk : k.id = id2
  · simp [hk, hne]
  · simp [hk]

theorem Dev.stook_failOp (s : Dev) (slot : SlotId) (r a id : Nat) : (s.failOp slot r a).stook id = s.stook id := rfl

/-- The stooks and the LAUNCHes after time has passed. -/
theorem Dev.stook_advance (s : Dev) (t : U64) (id : Nat) : (s.advance t).stook id = s.stook id := by
  unfold stook
  rw [advance_shf]

theorem Dev.launchOf_advance (s : Dev) (t : U64) (st : Stook) : (s.advance t).launchOf st = s.launchOf st := by
  unfold launchOf op
  rw [advance_ops]

/-- The record of a failed generation or SSYNC (R311, R312). -/
def Dev.lateRecord (s : Dev) (st : Stook) (o : Operation) (l : LaunchOp) (pc : Nat) (sync : Bool) (d : U64) (m : Nat) : RecFields where
  kind := 3
  cls := .fault
  addr := l.codeBase + 8 * pc
  asid := some (s.queue o.queue).asid.toNat
  time := some d
  detail := o.queue.val + (st.proc.val % 32) * 2 ^ 16 + b2n sync * 2 ^ 24 + st.ordinal * 2 ^ 64
  more := (List.range 4).map (fun i => m / 2 ^ (512 * i) % 2 ^ 512)

theorem Dev.barrierFail_eq {s : Dev} {st : Stook} {o : Operation} {l : LaunchOp} (hl : s.launchOf st = some (o, l)) (pc : Nat) (sync : Bool) (d : U64) (m : Nat) :
    s.barrierFail st pc sync d m
      = ((s.report (homeDie o.queue) (s.lateRecord st o l pc sync d m)).bump 4 0x109 st.proc.val 1).faultStook st 0xC (l.codeBase + 8 * pc) := by
  unfold barrierFail lateRecord
  rw [hl]

/-- What a failed generation or SSYNC leaves (R311, R312). -/
theorem Dev.barrierFail_spec {s : Dev} {st : Stook} {o : Operation} {l : LaunchOp} (hl : s.launchOf st = some (o, l)) (hf : o.failed = none)
    (pc : Nat) (sync : Bool) (d : U64) (m : Nat) : let t := s.barrierFail st pc sync d m
    (∃ o', t.op st.slot = some o' ∧ o'.failed = some (3, 0xC) ∧ o'.faultAddr = l.codeBase + 8 * pc)
      ∧ t.objAt 4 0x109 st.proc.val = (s.objAt 4 0x109 st.proc.val + 1) % 2 ^ 64 ∧ t.stook st.id = none ∧ ∀ id2, id2 ≠ st.id → t.stook id2 = s.stook id2 := by
  have ho := launchOf_op hl
  dsimp only
  rw [barrierFail_eq hl]
  have hrest := (memStep_report s (homeDie o.queue) (s.lateRecord st o l pc sync d m)).rest
  have hobj := (reportStep.report s (homeDie o.queue) (s.lateRecord st o l pc sync d m)).objAt 4 0x109 st.proc.val (by decide) st.proc.isLt
    (by simp [ownObjects])
  generalize s.report _ _ = r at *
  have hop : ((r.bump 4 0x109 st.proc.val 1).dropStook st.id).op st.slot = some o := by
    refine Eq.trans ?_ ho
    unfold op dropStook
    rw [bump_cmd, hrest]
  have hstook (id : Nat) : (r.bump 4 0x109 st.proc.val 1).stook id = s.stook id := by
    change r.stook id = s.stook id
    unfold stook
    rw [hrest]
  refine ⟨⟨_, op_failOp hop hf _ _, rfl, rfl⟩, ?_, ?_, fun id2 hne => ?_⟩
  · refine (objAt_bump_self r 1 (by decide) st.proc.isLt).trans ?_
    rw [hobj]
  · exact stook_dropStook ..
  · exact (stook_dropStook_ne _ hne).trans (hstook id2)

theorem barrierDeadline_spec (id : Nat) (t0 : U64) (s : State) (st : Stook) (o : Operation) (l : LaunchOp) (d : U64) (pc : Nat) (hst : s.stook id = some st)
    (hl : s.launchOf st = some (o, l)) (hf : o.failed = none) (hb : st.barrier = some (d, pc)) :
    (max s.now.toNat t0.toNat < d.toNat → exec (.barrierDeadline id t0) s = .next s) ∧
    (d.toNat ≤ max s.now.toNat t0.toNat → ∃ t o', exec (.barrierDeadline id t0) s = .next t ∧ t.stook id = none ∧ t.op st.slot = some o'
      ∧ o'.failed = some (3, 0xC) ∧ o'.faultAddr = l.codeBase + 8 * pc
      ∧ t.objAt 4 0x109 st.proc.val = (s.objAt 4 0x109 st.proc.val + 1) % 2 ^ 64 ∧ ∀ id2, id2 ≠ id → t.stook id2 = s.stook id2) := by
  have hnow := s.toDev.now_advance t0
  have hid := Dev.stook_id hst
  refine ⟨fun h => ?_, fun h => ?_⟩
  · refine exec_eq_next rfl ?_
    dsimp only
    rw [hst]
    dsimp only
    rw [hb]
    exact if_neg (by rw [hnow]; omega)
  · have hl' : (s.toDev.advance t0).launchOf st = some (o, l) := (s.toDev.launchOf_advance t0 st).trans hl
    obtain ⟨m, hm⟩ : ∃ m, m = stalkMask l.width st (fun _ _ k => k.live && k.wait ≠ .barrier) := ⟨_, rfl⟩
    have hexec : exec (.barrierDeadline id t0) s = .next { s with toDev := (s.toDev.advance t0).barrierFail st pc false d m } := by
      refine exec_eq_next rfl ?_
      dsimp only
      rw [hst]
      dsimp only
      rw [hb]
      refine (if_pos (by rw [hnow]; exact h)).trans ?_
      unfold Dev.generationFail
      rw [hb, hl', hm]
    obtain ⟨⟨o', ho', hfail, haddr⟩, hcount, hgone, hothers⟩ := Dev.barrierFail_spec hl' hf pc false d m
    have hobj : (s.toDev.advance t0).objAt 4 0x109 st.proc.val = s.objAt 4 0x109 st.proc.val := Dev.objAt_advance _ _ (by decide) st.proc.isLt (by simp)
    rw [hobj] at hcount
    generalize (s.toDev.advance t0).barrierFail st pc false d m = w at *
    exact ⟨_, o', hexec, hid ▸ hgone, ho', hfail, haddr, hcount, fun id2 hne => (hothers id2 (hid ▸ hne)).trans (s.toDev.stook_advance t0 id2)⟩

theorem ssyncTimeout_spec (g : SheafRef) (t0 : U64) (s : State) (st : Stook) (sh : Sheaf) (o : Operation) (l : LaunchOp) (hst : s.stook g.stook = some st)
    (hl : s.launchOf st = some (o, l)) (hf : o.failed = none) (hsh : st.sheaves[g.sheaf.val]? = some sh) :
    ((∀ (i : Nat) (y : Stalk) p m since, sh.stalks[i]? = some y → y.wait = .ssync p m since →
        max s.now.toNat t0.toNat ≤ (since + BitVec.ofNat 64 (l.timeoutUs * 1000)).toNat) → exec (.ssyncTimeout g t0) s = .next s) ∧
    ((∃ (i : Nat) (y : Stalk), ∃ p m since, sh.stalks[i]? = some y ∧ y.wait = .ssync p m since
        ∧ (since + BitVec.ofNat 64 (l.timeoutUs * 1000)).toNat < max s.now.toNat t0.toNat) →
      ∃ t o', exec (.ssyncTimeout g t0) s = .next t ∧ t.stook g.stook = none ∧ t.op st.slot = some o' ∧ o'.failed = some (3, 0xC)) := by
  have hnow := s.toDev.now_advance t0
  have hid := Dev.stook_id hst
  have hexec : exec (.ssyncTimeout g t0) s = .next { s with toDev := ((s.toDev.advance t0).syncFail g.stook g.sheaf.val).getD s.toDev } := rfl
  have hst' : (s.toDev.advance t0).stook st.id = some st := by rw [Dev.stook_advance, hid]; exact hst
  have hl' : (s.toDev.advance t0).launchOf st = some (o, l) := (s.toDev.launchOf_advance t0 st).trans hl
  have hfail := Dev.syncFail_eq_map hst' hl' hsh
  have hlate := syncLate_eq_none_iff l (s.toDev.advance t0).now sh
  rw [← hid, hfail] at hexec
  refine ⟨fun h => ?_, fun ⟨i, y, p, m, since, hy, hw, hlt⟩ => ?_⟩
  · rw [hlate.mpr fun i y hy p m since hw => by rw [hnow]; exact h i y p m since hy hw] at hexec
    exact hexec
  · have hne : syncLate l (s.toDev.advance t0).now sh ≠ none := fun hn => by
      have := hlate.mp hn i y hy p m since hw
      rw [hnow] at this
      exact absurd hlt (Nat.not_lt.mpr this)
    obtain ⟨e, he⟩ := Option.ne_none_iff_exists'.mp hne
    rw [he, Option.map_some, Option.getD_some] at hexec
    obtain ⟨⟨o', ho', hfailed, -⟩, -, hgone, -⟩ := Dev.barrierFail_spec hl' hf e.1 true e.2.2.2
      (stalkMask l.width st fun j i _ => j = g.sheaf.val && (sh.named e.2.2.1 e.2.1).contains i && !sh.syncAt e.1 i)
    exact ⟨_, o', hexec, hid ▸ hgone, ho', hfailed⟩

/-- Settles O30: a stook takes the first processor in order with room (log entry 23), and a generation or an SSYNC that is past its deadline fails its
stook with reason 0x0C. -/
theorem stookStartsAndFails : Obligations.StookStartsAndFails := by
  unfold Obligations.StookStartsAndFails
  exact ⟨stookStart_spec, barrierDeadline_spec, ssyncTimeout_spec⟩

end Sys2Proof.Machine
end

section
/-! PROOFS. Proofs/LineAnswers.lean: the answer to a line of a sheaf group (O29). -/

namespace Sys2Proof.Machine

/-! One sheaf of a resident stook changes. -/

/-- In d the stook of st has one sheaf replaced by h; from s nothing else of the sheaf processors has changed. -/
structure Dev.sheafIs (s d : Dev) (st : Stook) (k : Nat) (h : Sheaf) : Prop where
  here : (d.stook st.id).map Stook.sheaves = some (modAt st.sheaves k fun _ => h)
  others : ∀ id, id ≠ st.id → d.stook id = s.stook id

theorem Dev.sheafIs.refl {s d : Dev} {st : Stook} {k : Nat} {h : Sheaf} (hst : s.stook st.id = some st) (hh : st.sheaves[k]? = some h)
    (hshf : d.shf = s.shf) : s.sheafIs d st k h := by
  have hd (id : Nat) : d.stook id = s.stook id := by unfold stook; rw [hshf]
  exact ⟨by rw [hd, hst, modAt_self hh]; rfl, fun id _ => hd id⟩

theorem Dev.stook_modSheaf_ne (d : Dev) (k : Nat) (f : Sheaf → Sheaf) {id id' : Nat} (hid : id' ≠ id) : (d.modSheaf id k f).stook id' = d.stook id' := by
  refine (stook_modStook d id id' ?_).trans (by simp [hid])
  exact fun _ => rfl

theorem Dev.sheafIs.modSheaf {s d : Dev} {st : Stook} {k : Nat} {h : Sheaf} (hi : s.sheafIs d st k h) (f : Sheaf → Sheaf) :
    s.sheafIs (d.modSheaf st.id k f) st k (f h) where
  here := by
    rw [stook_modSheaf, Option.map_map]
    obtain ⟨y, hy, hys⟩ := Option.map_eq_some_iff.mp hi.here
    rw [hy, Option.map_some]
    refine congrArg some ?_
    dsimp only [Function.comp]
    rw [hys, modAt_modAt]
  others id hid := by
    rw [← hi.others id hid, stook_modSheaf_ne _ _ _ hid]

theorem Dev.modStook_shf (d : Dev) (id : Nat) (f : Stook → Stook) : d.modStook id f = { d with shf := (d.modStook id f).shf } := rfl

/-! The answer to a line (R316, R319). -/

/-- A sheaf's group goes on once its access is answered. -/
def Sheaf.answered (h : Sheaf) (a : SheafAccess) : Sheaf :=
  { h with accesses := removeFirst (· == a) h.accesses, stalks := h.stalks.mapIdx fun i y => if a.group.contains i then { y with wait := .ready } else y }

theorem Dev.lineDone_last {s d : Dev} {st : Stook} {k line : Nat} {h : Sheaf} {a : SheafAccess} (hi : s.sheafIs d st k h) (hl : a.lines = [line]) :
    s.sheafIs (d.lineDone st k a line) st k (h.answered a) ∧ d.lineDone st k a line = { d with shf := (d.lineDone st k a line).shf } := by
  have heq : d.lineDone st k a line = (d.modSheaf st.id k fun h => { h with accesses := removeFirst (· == a) h.accesses }).setWait st.id k a.group .ready :=
    if_pos (by simp [hl])
  rw [heq]
  exact ⟨(hi.modSheaf _).modSheaf _, rfl⟩

/-- A stalk's destination is written by a load. -/
def Stalk.loaded (y : Stalk) (w line : Nat) (r : LaneReq) (bytes : List Byte) : Stalk :=
  y.write (fDst w) (sizeWords (bits (fMod w) 2 0))
    (loadValue ((bytes.drop (r.va - 128 * line)).take (2 ^ bits (fMod w) 2 0)) (bits (fMod w) 2 0) (bit (fMod w) 3))

def Sheaf.loaded (h : Sheaf) (w line : Nat) (r : LaneReq) (bytes : List Byte) : Sheaf :=
  { h with stalks := modAt h.stalks r.lane fun y => y.loaded w line r bytes }

theorem Dev.loadLine_one {s d : Dev} {st : Stook} {k w line : Nat} {h : Sheaf} {r : LaneReq} {bytes : List Byte} (hi : s.sheafIs d st k h)
    (hop : fOpcode w = 0x80) : s.sheafIs (d.loadLine st k w line [r] bytes) st k (h.loaded w line r bytes)
      ∧ d.loadLine st k w line [r] bytes = { d with shf := (d.loadLine st k w line [r] bytes).shf } := by
  have heq : d.loadLine st k w line [r] bytes = d.modSheaf st.id k fun h => h.loaded w line r bytes := by
    unfold loadLine
    dsimp only [List.foldl]
    rw [if_neg (by omega)]
    simp only [hop, decide_true, Bool.true_and]
    rfl
  rw [heq]
  exact ⟨hi.modSheaf _, rfl⟩

theorem Stalk.write_keeps (y : Stalk) (f n v : Nat) : (y.write f n v).wait = y.wait ∧ (y.write f n v).pc = y.pc ∧ (y.write f n v).p = y.p := by
  unfold Stalk.write
  split <;> exact ⟨rfl, rfl, rfl⟩

/-- What an answered load leaves of each stalk. -/
theorem Sheaf.stalks_loaded {h : Sheaf} {w line : Nat} {r : LaneReq} {bytes : List Byte} {a : SheafAccess} {i : Nat} {y : Stalk} (hy : h.stalks[i]? = some y) :
    ∃ y', ((h.loaded w line r bytes).answered a).stalks[i]? = some y' ∧ y'.wait = (if a.group.contains i then .ready else y.wait)
      ∧ y'.pc = y.pc ∧ y'.p = y.p ∧ (i ≠ r.lane → y'.v = y.v)
      ∧ (i = r.lane → y'.v = (y.write (fDst w) (sizeWords (bits (fMod w) 2 0))
          (loadValue ((bytes.drop (r.va - 128 * line)).take (2 ^ bits (fMod w) 2 0)) (bits (fMod w) 2 0) (bit (fMod w) 3))).v) := by
  unfold answered loaded Stalk.loaded modAt
  generalize loadValue _ _ _ = v
  obtain ⟨hwait, hpc, hp⟩ := y.write_keeps (fDst w) (sizeWords (bits (fMod w) 2 0)) v
  rw [List.getElem?_mapIdx, List.getElem?_mapIdx, hy]
  refine ⟨_, rfl, ?_⟩
  dsimp only
  by_cases hi : i = r.lane
  · rw [if_pos hi]
    split
    · exact ⟨rfl, hpc, hp, fun hn => absurd hi hn, fun _ => rfl⟩
    · exact ⟨hwait, hpc, hp, fun hn => absurd hi hn, fun _ => rfl⟩
  · rw [if_neg hi]
    split
    · exact ⟨rfl, rfl, rfl, fun _ => rfl, fun h => absurd h hi⟩
    · exact ⟨rfl, rfl, rfl, fun _ => rfl, fun h => absurd h hi⟩

section
variable {s : Dev} {g : SheafRef} {line : Nat} {st : Stook} {sh : Sheaf} {o : Operation} {l : LaunchOp} {a : SheafAccess}

/-- The port through which a line of an access is read. -/
def Dev.linePort (s : Dev) (o : Operation) (st : Stook) (sh : Sheaf) (a : SheafAccess) : Port :=
  { s.sheafPort o st.proc.val sh.quarter with hint := if fOpcode a.word = 0x80 then bits (fMod a.word) 5 4 else 0 }

/-- The first address that an access has in a line. -/
def SheafAccess.firstIn (a : SheafAccess) (line : Nat) : Nat := ((a.lanes.filter fun r => r.va / 128 = line).head?.map LaneReq.va).getD (128 * line)

variable (hst : s.stook g.stook = some st) (hl : s.launchOf st = some (o, l)) (hsh : st.sheaves[g.sheaf.val]? = some sh)
  (ha : sh.accesses.find? (fun a => a.lines.contains line) = some a)
include hst hl hsh ha

theorem Dev.lineResponse_load (hop : fOpcode a.word = 0x80 ∨ fOpcode a.word = 0x72) : s.lineResponse g line =
    match s.readVa (s.linePort o st sh a) (128 * line) 128 with
    | (s, .wait) => s
    | (s, .fail r _) => s.faultStook st r (a.firstIn line)
    | (s, .ok d) => (s.loadLine st g.sheaf.val a.word line (a.lanes.filter fun r => r.va / 128 = line) d).lineDone st g.sheaf.val a line := by
  unfold lineResponse
  rw [hst]
  dsimp only
  rw [hl, hsh]
  dsimp only
  rw [ha]
  dsimp only
  rw [if_pos (by simpa using hop)]
  rfl

theorem Dev.lineResponse_store (hop : fOpcode a.word = 0x81) : s.lineResponse g line =
    match s.holdWrite (s.linePort o st sh a) (bits (fMod a.word) 5 4) false wantWrite [(128 * line, 128)] with
    | (s, .wait) => s
    | (s, .fail r _) => s.faultStook st r (a.firstIn line)
    | (d, .ok ps) => match ps with
      | [] => d
      | pc :: _ => match d.storeLine (s.linePort o st sh a) a.word pc line (a.lanes.filter fun r => r.va / 128 = line) with
        | some d => d.lineDone st g.sheaf.val a line
        | none => d.writeWait (s.linePort o st sh a).die := by
  have hport : s.linePort o st sh a = s.sheafPort o st.proc.val sh.quarter := by
    unfold linePort
    rw [if_neg (by omega)]
    rfl
  rw [hport]
  unfold lineResponse
  rw [hst]
  dsimp only
  rw [hl, hsh]
  dsimp only
  rw [ha]
  dsimp only
  rw [if_neg (by simp [hop])]
  simp only [hop]
  rfl

end

/-- The outcome of a step that faults a stook (R283, R294). -/
theorem Dev.faultStook_after {s d : Dev} {st : Stook} {o : Operation} {l : LaunchOp} (hm : s.memStep d) (hl : s.launchOf st = some (o, l)) (hf : o.failed = none)
    (reason va : Nat) : (d.faultStook st reason va).stook st.id = none
      ∧ ∃ o', (d.faultStook st reason va).op st.slot = some o' ∧ o'.failed = some (failStatus reason, reason) ∧ o'.faultAddr = va := by
  obtain ⟨h1, h2⟩ := Dev.faultStook_ends (s := d) (st := st) ((memStep_op hm _).trans (launchOf_op hl)) hf reason va
  exact ⟨h1, _, h2, rfl, rfl⟩

/-- Settles O29: the access of one line and one lane is taken off its sheaf, whose group goes on; a load has written its lane's destination first, and a
failure ends the stook at the first address that the access has in the line. -/
theorem lineAnswered : Obligations.LineAnswered := by
  unfold Obligations.LineAnswered
  intro g line s st sh o l a hst hl hsh ha p hint rd wr
  have hrd : rd = s.toDev.readVa (s.toDev.linePort o st sh a) (128 * line) 128 := rfl
  have hwr : wr = s.toDev.holdWrite (s.toDev.linePort o st sh a) (bits (fMod a.word) 5 4) false wantWrite [(128 * line, 128)] := rfl
  have hp : p = s.toDev.linePort o st sh a := rfl
  have hhint : hint = bits (fMod a.word) 5 4 := rfl
  clear_value rd wr p hint
  subst hp hhint
  have hid := Dev.stook_id hst
  have hst' : s.toDev.stook st.id = some st := hid ▸ hst
  have hfilter {r : LaneReq} (hlanes : a.lanes = [r]) (hr : r.va / 128 = line) : a.lanes.filter (fun r => r.va / 128 = line) = [r] := by
    rw [hlanes, List.filter_cons_of_pos (by simp [hr]), List.filter_nil]
  have hread := Dev.memStep_readVa s.toDev (s.toDev.linePort o st sh a) rfl (128 * line) 128
  have hhold := Dev.memStep_holdWrite s.toDev (s.toDev.linePort o st sh a) (bits (fMod a.word) 5 4) false wantWrite [(128 * line, 128)]
  have hload := Dev.lineResponse_load hst hl hsh ha
  have hstore := Dev.lineResponse_store hst hl hsh ha
  rw [← hrd] at hread hload
  rw [← hwr] at hhold hstore
  clear hrd hwr
  obtain ⟨d, res⟩ := rd
  obtain ⟨e, wres⟩ := wr
  dsimp only at hread hload hhold hstore ⊢
  refine ⟨fun bytes r hrd hlines hlanes hr hop => ?_, fun pc ps d2 r hwr hlines hlanes hr hop hd2 => ?_, fun reason va h hf => ?_⟩
  · subst hrd
    have h1 := hload (.inl hop)
    rw [hfilter hlanes hr] at h1
    dsimp only at h1
    obtain ⟨hi, hrest⟩ := Dev.loadLine_one (r := r) (bytes := bytes) (line := line) (Dev.sheafIs.refl hst' hsh (Dev.memStep_shf hread)) hop
    generalize d.loadLine st g.sheaf.val a.word line [r] bytes = d1 at *
    obtain ⟨hi', hrest'⟩ := Dev.lineDone_last hi hlines
    generalize d1.lineDone st g.sheaf.val a line = d3 at *
    refine ⟨_, (sh.loaded a.word line r bytes).answered a, exec_eq_next rfl h1, ?_, fun id hne => hi'.others id (hid ▸ hne), rfl, hid ▸ hi'.here, rfl,
      fun i y hy => Sheaf.stalks_loaded hy⟩
    rw [hrest', hrest]
  · subst hwr
    have h1 := hstore hop
    rw [hfilter hlanes hr] at h1
    dsimp only at h1
    have hs : e.storeLine (s.toDev.linePort o st sh a) a.word pc line [r] = some d2 := by
      unfold Dev.storeLine
      rw [List.flatMap_singleton]
      exact hd2
    rw [hs] at h1
    dsimp only at h1
    have hm := Dev.memStep_trans hhold (Dev.memStep_writeLines hd2)
    obtain ⟨hi', hrest'⟩ := Dev.lineDone_last (Dev.sheafIs.refl hst' hsh (Dev.memStep_shf hm)) hlines
    generalize d2.lineDone st g.sheaf.val a line = d3 at *
    exact ⟨_, exec_eq_next rfl h1, hrest', hid ▸ hi'.here⟩
  · rcases h with ⟨hop, hrd⟩ | ⟨hop, hwr⟩
    · subst hrd
      obtain ⟨hgone, o', ho', hfail, haddr⟩ := Dev.faultStook_after hread hl hf reason (a.firstIn line)
      exact ⟨_, o', exec_eq_next rfl (hload hop), hid ▸ hgone, ho', hfail, haddr⟩
    · subst hwr
      obtain ⟨hgone, o', ho', hfail, haddr⟩ := Dev.faultStook_after hhold hl hf reason (a.firstIn line)
      exact ⟨_, o', exec_eq_next rfl (hstore hop), hid ▸ hgone, ho', hfail, haddr⟩

end Sys2Proof.Machine
end

section
/-! PROOFS. Proofs/RelayInstructions.lean: RELAY_PUT and RELAY_TAKE at the head of a queue (O34). -/

namespace Sys2Proof.Machine

/-! What an issue leaves of the relay queues and of its queue's address space. -/

namespace Dev

section
variable (s : Dev) (q : QueueId)

theorem headStep.relays {s t : Dev} {q : QueueId} (h : s.headStep t q) : t.relays = s.relays := by rw [h.rest]
theorem queueStep.relays {s t : Dev} (h : s.queueStep t) : t.relays = s.relays := by rw [h]

theorem unbind_relays (a r : Nat) : (s.unbind a r).relays = s.relays := by
  unfold unbind
  dsimp only
  split <;> rfl

theorem nextBuffer_relays : (s.nextBuffer q).relays = s.relays := by
  have hfinish : (s.finishBuffer q).relays = s.relays := by
    unfold finishBuffer
    split
    · exact s.unbind_relays _ _
    · rfl
  exact hfinish

theorem moveHead_relays (n : Nat) : (s.moveHead q n).relays = s.relays := by
  have hset : (s.setHead q n).relays = s.relays := rfl
  unfold moveHead
  dsimp only
  split
  · split
    · rw [(queueStep_cease _ q 0xB false).relays, nextBuffer_relays, hset]
    · rw [nextBuffer_relays, hset]
  · exact hset

/-- An issue leaves the relay queues as they are. -/
theorem issueAs_relays (o : Operation) : (s.issueAs q o).relays = s.relays := by
  have hmoved : (s.moved q o).relays = s.relays := moveHead_relays ..
  rw [issueAs_eq]
  dsimp only
  split_ifs <;> simp only [(queueStep_cease _ q _ false).relays, hmoved]

theorem asid_setHead (n : Nat) : ((s.setHead q n).queue q).asid = (s.queue q).asid := by rw [queue_setHead]

theorem asid_nextBuffer : ((s.nextBuffer q).queue q).asid = (s.queue q).asid := by
  unfold nextBuffer
  dsimp only
  rw [asid_setHead, queue_setQueue_same]

theorem asid_cease (r : Nat) (b : Bool) : ((s.cease q r b).queue q).asid = (s.queue q).asid := by
  obtain ⟨-, -, -, -, -, -, -, -, -, hasid, -⟩ := s.keepsPlace_cease q r b
  exact hasid

theorem asid_moveHead (n : Nat) : ((s.moveHead q n).queue q).asid = (s.queue q).asid := by
  unfold moveHead
  dsimp only
  split
  · split
    · rw [asid_cease, asid_nextBuffer, asid_setHead]
    · rw [asid_nextBuffer, asid_setHead]
  · exact s.asid_setHead q n

/-- An issue leaves its queue in its address space. -/
theorem asid_issueAs (o : Operation) : ((s.issueAs q o).queue q).asid = (s.queue q).asid := by
  obtain ⟨-, -, -, -, -, -, -, -, -, hasid, -⟩ := s.keepsPlace_issueAs q o
  rw [hasid, moved, asid_moveHead, queue_listed]

end

/-! What a relay instruction at head meets (R358 to R362). -/

section
variable {s : Dev} {q : QueueId} {w : BitVec 256} {slot : SlotId} {code : Nat}

theorem putsDue_of_idle (h : s.running q = []) (r : Fin 64) : s.putsDue q r = 0 := by
  unfold putsDue
  rw [h]
  rfl

/-- An operation that issues where none of its queue is running has none before it (R133). -/
theorem earlier_issueAs {o : Operation} (ho : o.queue = q) (hr : s.running q = []) : (s.issueAs q o).earlier q o.slot = [] := by
  unfold earlier running
  rw [ops_issueAs, List.filter_append]
  unfold running at hr
  rw [hr, List.nil_append, List.filter_cons_of_pos (by simpa using ho)]
  simp

/-- The state in which the relay queue's owner bit is set or its wait counted is the state itself for its queues. -/
theorem queue_modRelay (s : Dev) (r : Fin 64) (f : Relay → Relay) (q : QueueId) : (s.modRelay r f).queue q = s.queue q := rfl

theorem relay_modRelay_same (s : Dev) (r : Fin 64) (f : Relay → Relay) : (s.modRelay r f).relay r = f (s.relay r) :=
  (s.relay_setRelay ..).trans (if_pos rfl)

theorem relay_modRelay_ne (s : Dev) (f : Relay → Relay) {r r2 : Fin 64} (h : r2 ≠ r) : (s.modRelay r f).relay r2 = s.relay r2 :=
  (s.relay_setRelay ..).trans (if_neg h)

theorem relay_modQueue (s : Dev) (q : QueueId) (f : Queue → Queue) (r : Fin 64) : (s.modQueue q f).relay r = s.relay r := rfl

theorem relay_of_relays {s t : Dev} (h : t.relays = s.relays) (r : Fin 64) : t.relay r = s.relay r := by
  unfold relay
  rw [h]

theorem relays_refuseHead (hw : (s.queue q).fetched = some w) (hs : s.slotFor q = some slot) (reason : Nat) : (s.refuseHead q reason).relays = s.relays := by
  obtain ⟨t, b, ht, -, heq⟩ := refuseHead_of_some hw hs reason
  rw [heq, issueAs_relays, ht.relays]

variable (h : s.headReady q w) (hc : iOpcode w = code)
include h hc

theorem issueRelay_of_high (hp : 64 ≤ iParam w) : s.issueRelay q code = (s.latch q).refuseHead q 2 := by
  unfold issueRelay
  dsimp only
  rw [readyHead_of_headReady s h code hc]
  dsimp only
  rw [if_pos hp]

theorem issueRelay_of_stranger (hp : iParam w < 64) (ho : (s.relay (relayOf w)).owned code q (s.queue q).asid = false) :
    s.issueRelay q code = ((s.latch q).modRelay (relayOf w) fun x => { x with errOwner := true }).refuseHead q 3 := by
  unfold issueRelay
  dsimp only
  rw [readyHead_of_headReady s h code hc]
  dsimp only
  have hr : (s.latch q).relay (relayOf w) = s.relay (relayOf w) := rfl
  rw [if_neg (Nat.not_le.mpr hp), s.queue_latch_of_headReady h, hr, ho]
  rfl

theorem issueRelay_of_held (hp : iParam w < 64) (ho : (s.relay (relayOf w)).owned code q (s.queue q).asid = true) (hh : s.relayHolds q w = true) :
    s.issueRelay q code = (if (s.relay (relayOf w)).enable then (s.latch q).modRelay (relayOf w) fun x => x.countWait code else s.latch q).modQueue q
      fun x => { x with slotWait := false } := by
  unfold issueRelay
  dsimp only
  rw [readyHead_of_headReady s h code hc]
  dsimp only
  have hr : (s.latch q).relay (relayOf w) = s.relay (relayOf w) := rfl
  have hl : (s.latch q).relayHolds q w = true := hh
  rw [if_neg (Nat.not_le.mpr hp), s.queue_latch_of_headReady h, hr, ho, if_neg (by simp), if_pos hl]

/-- A relay instruction that nothing holds up issues, and is performed at once: no other operation of its queue is running. -/
theorem issueRelay_of_free (hp : iParam w < 64) (ho : (s.relay (relayOf w)).owned code q (s.queue q).asid = true) (hh : s.relayHolds q w = false)
    (hs : s.slotFor q = some slot) (hrun : s.running q = []) : s.issueRelay q code
      = (((s.latch q).askSlot q).issueAs q (newOperation q (s.queue q) w slot)).performRelay (newOperation q (s.queue q) w slot) := by
  have hr : (s.latch q).relay (relayOf w) = s.relay (relayOf w) := rfl
  have hl : (s.latch q).relayHolds q w = false := hh
  obtain ⟨b, hq⟩ := queue_askSlot_of_some (s := s.latch q) (by rw [s.queue_latch_of_headReady h]; exact h.2.1) ((slotFor_latch h).trans hs)
  unfold issueRelay
  dsimp only
  rw [readyHead_of_headReady s h code hc]
  dsimp only
  rw [if_neg (Nat.not_le.mpr hp), s.queue_latch_of_headReady h, hr, ho, if_neg (by simp), if_neg (by simp [hl]), hq]
  dsimp only
  rw [s.queue_latch_of_headReady h, newOperation_slotted]
  have hnone : (((s.latch q).askSlot q).issueAs q (newOperation q (s.queue q) w slot)).earlier q slot = [] :=
    earlier_issueAs rfl (((headStep_askSlot _ q).running q).trans hrun)
  rw [hnone]
  exact if_pos (by split <;> rfl)

end

/-! What the performance of a relay instruction leaves (R359, R360). -/

section
variable {s : Dev} {o : Operation}

theorem performRelay_put (hop : iOpcode o.word = 0x42) (he : (s.relay (relayOf o.word)).enable = true) (hb : s.earlier o.queue o.slot = []) {b : Nat}
    (hok : ((s.beginOp o.slot id).putImage (s.opPort o) (o.h.getD 0 0)).2 = .ok b) : s.performRelay o
      = (((s.beginOp o.slot id).putImage (s.opPort o) (o.h.getD 0 0)).1.modRelay (relayOf o.word) fun x =>
          { x with entries := Table.set 0 x.entries (x.puts.toNat % 256) b, puts := x.puts + 1 }).modOp o.slot fun o => { o with written := [0] } := by
  unfold performRelay
  dsimp only
  rw [if_neg (by simp [he]), if_pos hop, if_neg (not_not_intro hb)]
  generalize (s.beginOp o.slot id).putImage (s.opPort o) (o.h.getD 0 0) = r at *
  obtain ⟨d, x⟩ := r
  subst hok
  rfl

theorem performRelay_take (hop : iOpcode o.word ≠ 0x42) (he : (s.relay (relayOf o.word)).enable = true) {c : Ctx} {b : Nat}
    (hb : Table.get 0 (s.relay (relayOf o.word)).entries ((s.relay (relayOf o.word)).takes.toNat % 256) = b) (hk : descKind b = 1 ∨ descKind b = 4)
    (hh : o.h.getD 2 0 ≠ 0) (hc : (s.beginOp o.slot id).ctx (mmuOf (s.opPort o).die) (s.opPort o).asid = some c)
    (hok : ((s.beginOp o.slot id).writeUnit (s.opPort o) 0 true [(c.dtBase + 64 * o.h.getD 2 0, leBytes 64 b)]).2 = .ok ()) : s.performRelay o
      = (((s.beginOp o.slot id).writeUnit (s.opPort o) 0 true [(c.dtBase + 64 * o.h.getD 2 0, leBytes 64 b)]).1.modRelay (relayOf o.word) fun x =>
          { x with takes := x.takes + 1 }).modOp o.slot fun o => { o with written := [0] } := by
  have hrel : relayable b = true := by
    unfold relayable
    rcases hk with hk | hk <;> rw [hk] <;> rfl
  unfold performRelay
  dsimp only
  rw [if_neg (by simp [he]), if_neg hop, hc, hb]
  dsimp only
  rw [hrel, Bool.not_true, Bool.false_or, if_neg (by rwa [decide_eq_true_eq])]
  generalize (s.beginOp o.slot id).writeUnit (s.opPort o) 0 true [(c.dtBase + 64 * o.h.getD 2 0, leBytes 64 b)] = r at *
  obtain ⟨d, x⟩ := r
  subst hok
  rfl

end

theorem keepStep_withScale {s : Dev} {k : SlotId} {p : Port} (hp : p.slot = some k) (t : Tensor) : keepStep k s (s.withScale p t).1 := by
  unfold withScale
  split
  · exact .refl s k
  · refine keepStep_andThen _ _ (keepStep_named hp s _ _) fun u sc => ?_
    split <;> exact .refl u k

theorem keepStep_putImage {k : SlotId} {p : Port} (hp : p.slot = some k) (s : Dev) (h : Nat) : keepStep k s (s.putImage p h).1 := by
  unfold putImage
  refine keepStep_andThen _ _ (keepStep_named hp s _ _) fun u b => ?_
  split
  · exact .refl u k
  · exact keepStep_andThen _ _ (keepStep_withScale hp _) fun u _ => .refl u k

/-! The state in which a relay instruction is performed. -/

/-- The state in which a relay instruction has issued in its slot and not begun. -/
def relayTaken (s : Dev) (q : QueueId) (w : BitVec 256) (slot : SlotId) : Dev :=
  ((s.latch q).askSlot q).issueAs q (newOperation q (s.queue q) w slot)

section
variable {s e : Dev} {q : QueueId} {w : BitVec 256} {slot : SlotId}

theorem relays_relayIssued (s : Dev) (q : QueueId) (w : BitVec 256) (slot : SlotId) : (s.relayIssued q w slot).relays = s.relays := by
  have hissue := ((s.latch q).askSlot q).issueAs_relays q (newOperation q (s.queue q) w slot)
  unfold relayIssued
  generalize ((s.latch q).askSlot q).issueAs q (newOperation q (s.queue q) w slot) = t at *
  have hbegin : (t.beginOp slot id).relays = t.relays := by
    unfold beginOp
    split <;> rfl
  rw [hbegin, hissue, (headStep_askSlot _ q).relays]
  rfl

theorem queue_beginOp (s : Dev) (slot : SlotId) (f : Operation → Operation) (q : QueueId) : (s.beginOp slot f).queue q = s.queue q := by
  unfold beginOp
  split <;> rfl

theorem issued_relayIssued (h : s.headReady q w) (hs : s.slotFor q = some slot) :
    ((s.relayIssued q w slot).queue q).issued = (s.queue q).issued + 1 := by
  obtain ⟨b, hq⟩ := queue_askSlot_of_some (s := s.latch q) (by rw [s.queue_latch_of_headReady h]; exact h.2.1) ((slotFor_latch h).trans hs)
  unfold relayIssued
  rw [queue_beginOp, issued_issueAs, hq, s.queue_latch_of_headReady h]

theorem op_modOp_some {s : Dev} {slot : SlotId} {o : Operation} {f : Operation → Operation} (h : s.op slot = some o) (hf : ∀ o, (f o).slot = o.slot) :
    (s.modOp slot f).op slot = some (f o) := by
  rw [op_modOp s slot hf, h]
  rfl

theorem op_relayIssued (s : Dev) (q : QueueId) (w : BitVec 256) (slot : SlotId) : ∃ o, (s.relayIssued q w slot).op slot = some o := by
  have hmem := ((s.latch q).askSlot q).mem_issueAs q (newOperation q (s.queue q) w slot)
  unfold relayIssued
  generalize ((s.latch q).askSlot q).issueAs q (newOperation q (s.queue q) w slot) = t at *
  have hsome : (t.op slot).isSome := List.find?_isSome.mpr ⟨_, hmem, by simp [newOperation]⟩
  obtain ⟨o, ho⟩ := Option.isSome_iff_exists.mp hsome
  unfold beginOp
  split
  · exact ⟨_, op_modOp_some ho fun _ => rfl⟩
  · exact ⟨_, op_modOp_some (s := t.modJournal _) ho fun _ => rfl⟩

/-- What a relay instruction that has been performed leaves of the relay queues, its queue and its operation. -/
theorem relay_performed (h : s.headReady q w) (hs : s.slotFor q = some slot) (hk : keepStep slot (s.relayIssued q w slot) e) (r : Fin 64)
    (f : Relay → Relay) : let t := (e.modRelay r f).modOp slot fun o => { o with written := [0] }
    t.relay r = f (s.relay r) ∧ (∀ r2, r2 ≠ r → t.relay r2 = s.relay r2) ∧ (t.queue q).issued = (s.queue q).issued + 1
      ∧ ∃ o', t.op slot = some o' ∧ o'.written = [0] := by
  have hrel (r2 : Fin 64) : e.relay r2 = s.relay r2 := (hk.relay r2).trans (relay_of_relays (s.relays_relayIssued q w slot) r2)
  obtain ⟨o, ho⟩ := s.op_relayIssued q w slot
  obtain ⟨l, hop⟩ := hk.op
  refine ⟨(e.relay_modRelay_same r f).trans (congrArg f (hrel r)), fun r2 hne => (e.relay_modRelay_ne f hne).trans (hrel r2), ?_, ?_⟩
  · exact (congrArg Queue.issued (hk.queue q)).trans (issued_relayIssued h hs)
  · have hop' : (e.modRelay r f).op slot = some { o with kept := o.kept ++ l } := hop.trans (by rw [ho]; rfl)
    exact ⟨_, op_modOp_some hop' fun _ => rfl, rfl⟩

end

end Dev

section
variable {s : State} {q : QueueId} {w : BitVec 256} {slot : SlotId} {c : Instr} {code : Nat} (h : s.headReady q w)
include h

/-- A relay instruction that is refused leaves the relay queues as they were found (R358, R360). -/
theorem Dev.relayRefused (hs : s.slotFor q = some slot) {d : Dev} (hq : d.queue q = s.queue q) (hslot : d.slotFor q = s.slotFor q) (reason : Nat) :
    (∀ r2, (d.refuseHead q reason).relay r2 = d.relay r2)
      ∧ ∃ o ∈ (d.refuseHead q reason).cmd.ops, o.slot = slot ∧ o.queue = q ∧ o.word = w ∧ o.begun = false ∧ o.status = 5 ∧ o.reason = reason := by
  have hw : (d.queue q).fetched = some w := by
    rw [hq]
    exact h.2.1
  exact ⟨fun r2 => Dev.relay_of_relays (Dev.relays_refuseHead hw (hslot.trans hs) reason) r2, (Dev.refuseHead_issues hw (hslot.trans hs) reason).2⟩


theorem Dev.relayWaited (hp : iParam w < 64) (hc : iOpcode w = code) (hh : s.relayHolds q w = true)
    (ho : (s.relay (relayOf w)).owned code q (s.queue q).asid = true) {d : Dev} (hd : s.toDev.issueRelay q code = d) {y : Relay}
    (hy : y = if (s.relay (relayOf w)).enable then (s.relay (relayOf w)).countWait code else s.relay (relayOf w)) :
    d.queue q = { s.queue q with slotWait := false } ∧ d.cmd.ops = s.cmd.ops ∧ d.relay (relayOf w) = y
      ∧ ∀ r2, r2 ≠ relayOf w → d.relay r2 = s.relay r2 := by
  have hl := s.toDev.queue_latch_of_headReady h
  subst hd hy
  rw [Dev.issueRelay_of_held h hc hp ho hh, Dev.queue_modQueue_same]
  have hrel (r2 : Fin 64) : (s.toDev.latch q).relay r2 = s.relay r2 := rfl
  have hops : (s.toDev.latch q).cmd.ops = s.cmd.ops := rfl
  generalize s.toDev.latch q = l at *
  by_cases he : (s.relay (relayOf w)).enable
  · rw [if_pos he, if_pos he, Dev.queue_modRelay, hl]
    refine ⟨rfl, hops, ?_, fun r2 hne => ?_⟩
    · rw [Dev.relay_modQueue, Dev.relay_modRelay_same, hrel]
    · rw [Dev.relay_modQueue, Dev.relay_modRelay_ne _ _ hne, hrel]
  · rw [if_neg he, if_neg he, hl]
    exact ⟨rfl, hops, hrel _, fun r2 _ => hrel r2⟩

variable (hs : s.slotFor q = some slot)
include hs

theorem Dev.opPort_relayTaken : (s.toDev.relayTaken q w slot).opPort (newOperation q (s.queue q) w slot)
    = { s.toDev.cmdPort q with slot := some slot, keep := true } := by
  have hl := s.toDev.queue_latch_of_headReady h
  have hw : ((s.toDev.latch q).queue q).fetched = some w := by
    rw [hl]
    exact h.2.1
  obtain ⟨b, hq⟩ := Dev.queue_askSlot_of_some hw ((Dev.slotFor_latch h).trans hs)
  have hasid : ((s.toDev.relayTaken q w slot).queue q).asid = (s.queue q).asid := by
    unfold Dev.relayTaken
    rw [Dev.asid_issueAs, hq, hl]
  generalize s.toDev.relayTaken q w slot = t at *
  change { t.cmdPort q with slot := some slot, keep := true } = _
  unfold Dev.cmdPort
  rw [hasid]

/-- A relay instruction that nothing holds up is performed in the state in which it has issued. -/
theorem Dev.issueRelay_performs (hp : iParam w < 64) (hc : iOpcode w = code) (hh : s.relayHolds q w = false)
    (ho : (s.relay (relayOf w)).owned code q (s.queue q).asid = true) (hrun : s.running q = []) :
    s.toDev.issueRelay q code = (s.toDev.relayTaken q w slot).performRelay (newOperation q (s.queue q) w slot)
      ∧ (s.toDev.relayTaken q w slot).earlier q slot = [] ∧ (s.toDev.relayTaken q w slot).relay (relayOf w) = s.relay (relayOf w) := by
  have hidle := (((Dev.headStep_askSlot (s.toDev.latch q) q).running q).trans hrun : ((s.toDev.latch q).askSlot q).running q = [])
  refine ⟨Dev.issueRelay_of_free h hc hp ho hh hs hrun, Dev.earlier_issueAs rfl hidle, Dev.relay_of_relays ?_ _⟩
  unfold Dev.relayTaken
  rw [Dev.issueAs_relays, (Dev.headStep_askSlot _ q).relays]
  rfl

end

/-- Settles O34: the instruction at head is refused, held up, or issued and performed at once (`issueRelay_of_…`); the slot is `slotFor`'s choice
(log entry 27). -/
theorem relayOps : Obligations.RelayOps := by
  unfold Obligations.RelayOps
  intro q s w slot h hrun hs r x asid d p waits refused
  have hl := s.toDev.queue_latch_of_headReady h
  have hslot := Dev.slotFor_latch h
  have hlatched : ∀ r2, (s.toDev.latch q).relay r2 = s.relay r2 := fun _ => rfl
  have hrefused := Dev.relayRefused h hs (d := s.toDev.latch q) hl hslot
  have howner := Dev.relayRefused h hs (d := (s.toDev.latch q).modRelay r fun x => { x with errOwner := true }) hl hslot
  have hdue := Dev.putsDue_of_idle hrun r
  have hputs (hc : iOpcode w = 0x42) : s.relayHolds q w = (!x.enable || 256 ≤ x.held) := by
    unfold Dev.relayHolds
    rw [hdue, hc]
    simp [x, r]
  have htakes (hc : iOpcode w = 0x43) : s.relayHolds q w = (!x.enable || x.held = 0) := by
    unfold Dev.relayHolds
    rw [hc]
    simp [x, r]
  refine ⟨fun hc hp => ?_, fun hc hp => ?_, fun hc hp ho => ?_, fun hc hp ho => ?_, fun hc hp hprod hasid => ⟨fun he => ?_, fun he hfull => ?_, fun he hroom b hok => ?_⟩,
    fun hc hp hcons hasid => ⟨fun he => ?_, fun he hempty => ?_, fun he hheld => ?_⟩⟩
  · obtain ⟨hrel, hend⟩ := hrefused 2
    exact ⟨_, exec_eq_next rfl (Dev.issueRelay_of_high h hc hp), hrel r, fun r2 _ => hrel r2, hend⟩
  · obtain ⟨hrel, hend⟩ := hrefused 2
    exact ⟨_, exec_eq_next rfl (Dev.issueRelay_of_high h hc hp), hrel r, fun r2 _ => hrel r2, hend⟩
  · obtain ⟨hrel, hend⟩ := howner 3
    have hnot : x.owned 0x42 q asid = false := by
      unfold Relay.owned
      rcases ho with ho | ho <;> simp [ho]
    exact ⟨_, exec_eq_next rfl (Dev.issueRelay_of_stranger h hc hp hnot), (hrel r).trans (Dev.relay_modRelay_same ..),
      fun r2 hne => (hrel r2).trans (Dev.relay_modRelay_ne _ _ hne), hend⟩
  · obtain ⟨hrel, hend⟩ := howner 3
    have hnot : x.owned 0x43 q asid = false := by
      unfold Relay.owned
      rcases ho with ho | ho <;> simp [ho]
    exact ⟨_, exec_eq_next rfl (Dev.issueRelay_of_stranger h hc hp hnot), (hrel r).trans (Dev.relay_modRelay_same ..),
      fun r2 hne => (hrel r2).trans (Dev.relay_modRelay_ne _ _ hne), hend⟩
  · have hown : x.owned 0x42 q asid = true := by simp [Relay.owned, hprod, hasid]
    exact ⟨_, exec_eq_next rfl rfl, Dev.relayWaited h hp hc (by rw [hputs hc, he]; rfl) hown rfl (if_neg (Bool.eq_false_iff.mp he)).symm⟩
  · have hown : x.owned 0x42 q asid = true := by simp [Relay.owned, hprod, hasid]
    have hheld : s.relayHolds q w = true := by
      rw [hputs hc, he]
      exact decide_eq_true hfull
    exact ⟨_, exec_eq_next rfl rfl, Dev.relayWaited h hp hc hheld hown rfl (if_pos he).symm⟩
  · have hown : x.owned 0x42 q asid = true := by simp [Relay.owned, hprod, hasid]
    have hfree : s.relayHolds q w = false := by
      rw [hputs hc, he]
      exact decide_eq_false (Nat.not_le.mpr hroom)
    obtain ⟨hissue, hfirst, hrelay⟩ := Dev.issueRelay_performs h hs hp hc hfree hown hrun
    have hput := Dev.performRelay_put (o := newOperation q (s.queue q) w slot) hc ((congrArg Relay.enable hrelay).trans he) hfirst (b := b)
    rw [Dev.opPort_relayTaken h hs] at hput
    obtain ⟨hsame, hother, hissued, hop⟩ := Dev.relay_performed h hs (Dev.keepStep_putImage (p := p) rfl d (((s.queue q).handles w).getD 0 0)) r
      fun x => { x with entries := Table.set 0 x.entries (x.puts.toNat % 256) b, puts := x.puts + 1 }
    refine ⟨_, exec_eq_next rfl (hissue.trans (hput hok)), ?_⟩
    dsimp only
    exact ⟨(congrArg Relay.puts hsame).trans rfl, (congrArg Relay.takes hsame).trans rfl,
      (congrArg (fun y : Relay => Table.get 0 y.entries (x.puts.toNat % 256)) hsame).trans (Table.get_set_same ..),
      fun i hi => (congrArg (fun y : Relay => Table.get 0 y.entries i) hsame).trans (Table.get_set_ne _ _ _ hi), hother, hissued, hop⟩
  · have hown : x.owned 0x43 q asid = true := by simp [Relay.owned, hcons, hasid]
    exact ⟨_, exec_eq_next rfl rfl, Dev.relayWaited h hp hc (by rw [htakes hc, he]; rfl) hown rfl (if_neg (Bool.eq_false_iff.mp he)).symm⟩
  · have hown : x.owned 0x43 q asid = true := by simp [Relay.owned, hcons, hasid]
    have hheld : s.relayHolds q w = true := by
      rw [htakes hc, he]
      exact decide_eq_true (by rw [Relay.held, hempty, BitVec.sub_self]; rfl)
    exact ⟨_, exec_eq_next rfl rfl, Dev.relayWaited h hp hc hheld hown rfl (if_pos he).symm⟩
  · intro b k c hk hne hctx u hok
    have hown : x.owned 0x43 q asid = true := by simp [Relay.owned, hcons, hasid]
    have hfree : s.relayHolds q w = false := by
      rw [htakes hc, he]
      refine decide_eq_false fun h0 => hheld ?_
      unfold Relay.held at h0
      bv_omega
    obtain ⟨hissue, -, hrelay⟩ := Dev.issueRelay_performs h hs hp hc hfree hown hrun
    have htake := Dev.performRelay_take (o := newOperation q (s.queue q) w slot) (b := b) (c := c) (fun h42 => absurd (hc.symm.trans h42) (by decide))
      ((congrArg Relay.enable hrelay).trans he) (congrArg (fun y : Relay => Table.get 0 y.entries (y.takes.toNat % 256)) hrelay) hk hne
    rw [Dev.opPort_relayTaken h hs] at htake
    have hm : d.memStep u.1 := Dev.memStep_writeUnit ..
    obtain ⟨hsame, hother, hissued, hop⟩ := Dev.relay_performed h hs (hm.keepStep slot) r fun x => { x with takes := x.takes + 1 }
    have hdone : s.toDev.issueRelay q 0x43
        = (u.1.modRelay r fun x => { x with takes := x.takes + 1 }).modOp slot fun o => { o with written := [0] } := hissue.trans (htake hctx hok)
    clear htake
    clear_value u
    exact ⟨_, exec_eq_next rfl hdone, hsame, hother, rfl, hissued, hop⟩

end Sys2Proof.Machine
end

section
/-! PROOFS. Proofs/Sessions.lean: datagrams, handshakes, sessions and kept responses (O53). -/

namespace Sys2Proof.Machine

namespace State

/-! What an answer on a path leaves (R659, R679). -/

/-- From s to u frames have been sent or kept to send, or a reply has been written to a channel's ring. -/
structure answers (s u : State) : Prop where
  rest : u = { s with toDev := u.toDev, mgmt := { s.mgmt with sent := u.mgmt.sent, waiting := u.mgmt.waiting, rings := u.mgmt.rings } }
  dev : s.toDev.reportStep u.toDev

section
variable {s t u : State}

theorem answers.refl (s : State) : answers s s := ⟨rfl, .refl _⟩

theorem answers.trans (h1 : answers s t) (h2 : answers t u) : answers s u := ⟨by rw [h2.rest, h1.rest], h1.dev.trans h2.dev⟩

theorem answers.sessions (h : answers s u) : u.mgmt.sessions = s.mgmt.sessions := by rw [h.rest]
theorem answers.next (h : answers s u) : u.mgmt.nextSession = s.mgmt.nextSession := by rw [h.rest]
theorem answers.reply (h : answers s u) : u.mgmt.reply = s.mgmt.reply := by rw [h.rest]
theorem answers.boot (h : answers s u) : u.boot = s.boot := by rw [h.rest]
theorem answers.pow (h : answers s u) : u.pow = s.pow := by rw [h.rest]
theorem answers.cmd (h : answers s u) : u.cmd = s.cmd := by
  have hd := h.dev.rest
  generalize u.toDev = d at *
  rw [hd]
theorem answers.now (h : answers s u) : u.now = s.now := by
  have hd := h.dev.rest
  generalize u.toDev = d at *
  rw [hd]

theorem answers.objAt (h : answers s u) {b c : Nat} (hb : b < 65536) (hc : c < 256) (hne : b ≠ 0x120) : u.objAt 0x0C b c = s.objAt 0x0C b c :=
  h.dev.objAt _ _ _ hb hc (by unfold Dev.ownObjects; omega)

theorem answers.lift {f : Dev → Dev} (h : s.toDev.reportStep (f s.toDev)) : answers s (s.lift f) := ⟨rfl, h⟩

theorem answers_coreWrite (s : State) (asid va : Nat) (b : List Byte) : answers s (s.coreWrite asid va b) := by
  have hfold (l : List (Nat × Nat)) (x : State × List Byte) : answers x.1 (l.foldl (fun (acc : State × List Byte) x =>
      (match acc.1.coreAddr asid x.1 true with
        | some pa => acc.1.physWrite pa (acc.2.take x.2) false 8
        | none => acc.1, acc.2.drop x.2)) x).1 := by
    induction l generalizing x with
    | nil => exact .refl _
    | cons a l ih =>
      refine .trans ?_ (ih _)
      dsimp only
      split
      · exact .lift (Dev.reportStep_closed.physWriteBy ..)
      · exact .refl _
  exact hfold _ (s, b)

theorem answers_modRings (s : State) (r : MgmtState → Table Ring) : answers s (s.modMgmt fun m => { m with rings := r m }) := ⟨rfl, .refl _⟩

theorem answers_ringReply (s : State) (c : Fin 16) (b : List Byte) : answers s (s.ringReply c b) := by
  unfold ringReply
  dsimp only
  split
  · exact .refl s
  · exact ((answers_coreWrite ..).trans (answers_coreWrite ..)).trans ((answers_modRings ..).trans (answers_coreWrite ..))

theorem answers_sendOn (s : State) (p : SessionPath) (b : List Byte) : answers s (s.sendOn p b) := by
  cases p with
  | mgmt =>
    change answers s (s.transmit _)
    unfold transmit
    split
    · exact ⟨rfl, .refl _⟩
    · exact ⟨rfl, .refl _⟩
  | inband c => exact s.answers_ringReply c b

theorem sendOn_free (hf : s.freeToSend = true) (b : List Byte) :
    s.sendOn .mgmt b = { s with mgmt := { s.mgmt with sent := s.mgmt.sent ++ [.datagram .mgmt b] } } := if_pos hf

/-- An object that transmission does not turn on may be set before a frame goes. -/
theorem freeToSend_congr (h1 : u.objAt 0x0C 0x101 0 = s.objAt 0x0C 0x101 0) (h4 : u.objAt 0x0C 0x400 0 = s.objAt 0x0C 0x400 0) :
    u.freeToSend = s.freeToSend := by
  unfold freeToSend
  rw [h1, h4]

theorem freeToSend_sets {W : Nat → Nat → Prop} (h : sets W s u) (h1 : ¬W 0x0C 0x101) (h4 : ¬W 0x0C 0x400) : u.freeToSend = s.freeToSend :=
  freeToSend_congr (h.objAt _ _ _ (by decide) (by decide) h1) (h.objAt _ _ _ (by decide) (by decide) h4)

theorem sets_bump (s : State) (b n : Nat) (hb : b < 65536) : sets (fun a b' => a = 0x0C ∧ b' = b) s (s.bump 0x0C b 0 n) :=
  .put s _ hb (by decide) ⟨rfl, rfl⟩

theorem objAt_bump_self (s : State) {b : Nat} (n : Nat) (hb : b < 65536) : (s.bump 0x0C b 0 n).objAt 0x0C b 0 = (s.objAt 0x0C b 0 + n) % 2 ^ 64 :=
  s.toDev.objAt_bump_self n hb (by decide)

/-- What a REJECT leaves (R668). -/
structure rejects (s u : State) (p : SessionPath) (session reason : Nat) : Prop where
  sessions : u.mgmt.sessions = s.mgmt.sessions
  now : u.now = s.now
  counts : u.objAt 0x0C 0x113 0 = (s.objAt 0x0C 0x113 0 + 1) % 2 ^ 64
  sent : p = .mgmt → s.freeToSend = true → u.mgmt.sent = s.mgmt.sent ++ [.datagram .mgmt (headerBytes 4 1 session 0 ++ leBytes 1 reason)]

theorem rejects_reject (s : State) (p : SessionPath) (session reason : Nat) : rejects s (s.reject p session reason) p session reason := by
  have hbump := s.sets_bump 0x113 1 (by decide)
  have hcount := s.objAt_bump_self 1 (b := 0x113) (by decide)
  unfold reject
  generalize s.bump 0x0C 0x113 0 1 = t at *
  have hans : answers t (t.sendPlain p 4 session (leBytes 1 reason)) := answers_sendOn ..
  refine ⟨?_, ?_, (hans.objAt (by decide) (by decide) (by decide)).trans hcount, ?_⟩
  · rw [hans.sessions, hbump.rest]
  · rw [hans.now, hbump.rest]
  · rintro rfl hf
    have hf' : t.freeToSend = true := (freeToSend_sets hbump (by decide) (by decide)).trans hf
    unfold sendPlain
    rw [sendOn_free hf', hbump.rest]
    rfl

/-! A protected datagram of a session (R666, R667). -/

/-- The number of the next datagram that a session sends. -/
def nextSeq (s : State) (x : Session) : Nat := ((s.mgmt.sessions.find? fun y => y.num = x.num).map Session.sent).getD 0 + 1

/-- A protected datagram of a session. -/
def sealedBytes (s : State) (x : Session) (ty : Nat) (plain : List Byte) : List Byte :=
  headerBytes ty (plain.length + 16) x.num (s.nextSeq x)
    ++ (gcmSeal x.keyOut (ivOf x.num (s.nextSeq x)) (headerBytes ty (plain.length + 16) x.num (s.nextSeq x)) plain).1
    ++ (gcmSeal x.keyOut (ivOf x.num (s.nextSeq x)) (headerBytes ty (plain.length + 16) x.num (s.nextSeq x)) plain).2

theorem modSession_sessions (s : State) (n : Nat) (f : Session → Session) :
    (s.modSession n f).mgmt.sessions = s.mgmt.sessions.map fun x => if x.num = n then f x else x := rfl

/-- What a protected datagram of a session leaves. -/
structure sends (s u : State) (x : Session) (ty : Nat) (plain : List Byte) : Prop where
  sessions : u.mgmt.sessions = s.mgmt.sessions.map fun y => if y.num = x.num then { y with sent := s.nextSeq x } else y
  reply : u.mgmt.reply = s.mgmt.reply
  boot : u.boot = s.boot
  pow : u.pow = s.pow
  cmd : u.cmd = s.cmd
  sent : x.path = .mgmt → s.freeToSend = true → u.mgmt.sent = s.mgmt.sent ++ [.datagram .mgmt (s.sealedBytes x ty plain)]

theorem sends_sendProtected (s : State) (x : Session) (ty : Nat) (plain : List Byte) : sends s (s.sendProtected x ty plain) x ty plain := by
  have hdef : s.sendProtected x ty plain
      = (s.modSession x.num fun y => { y with sent := s.nextSeq x }).sendOn x.path (s.sealedBytes x ty plain) := rfl
  rw [hdef]
  have hans := (s.modSession x.num fun y => { y with sent := s.nextSeq x }).answers_sendOn x.path (s.sealedBytes x ty plain)
  refine ⟨hans.sessions, hans.reply, hans.boot, hans.pow, hans.cmd, fun hp hf => ?_⟩
  rw [hp, sendOn_free (s := s.modSession x.num _) hf]
  rfl

/-- What changes neither the number nor the count of a session leaves the number of its next datagram. -/
theorem nextSeq_map {g : Session → Session} (h : t.mgmt.sessions = s.mgmt.sessions.map g) (hg : ∀ y, (g y).num = y.num ∧ (g y).sent = y.sent) (x : Session) :
    t.nextSeq x = s.nextSeq x := by
  have hnum : (fun y : Session => decide (y.num = x.num)) ∘ g = fun y => decide (y.num = x.num) := by
    funext y
    simp only [Function.comp, (hg y).1]
  have hsent : Session.sent ∘ g = Session.sent := funext fun y => (hg y).2
  unfold nextSeq
  rw [h, List.find?_map, hnum, Option.map_map, hsent]

theorem filter_modSession {l : List Session} {n : Nat} {f : Session → Session} (hf : ∀ y, (f y).num = y.num) :
    (l.map fun y => if y.num = n then f y else y).filter (fun y => y.num ≠ n) = l.filter fun y => y.num ≠ n := by
  induction l with
  | nil => rfl
  | cons a l ih =>
    rw [List.map_cons, List.filter_cons, List.filter_cons, ih]
    by_cases ha : a.num = n
    · simp [ha, hf]
    · simp [ha]

theorem sends.others {x : Session} {ty : Nat} {plain : List Byte} (h : sends s u x ty plain) :
    u.mgmt.sessions.filter (fun y => y.num ≠ x.num) = s.mgmt.sessions.filter fun y => y.num ≠ x.num := by
  rw [h.sessions]
  exact filter_modSession fun _ => rfl

theorem mem_modSession {l : List Session} {x : Session} {f : Session → Session} (hx : x ∈ l) :
    f x ∈ l.map fun y => if y.num = x.num then f y else y := List.mem_map.mpr ⟨x, hx, if_pos rfl⟩

/-- DISCOVER is answered at once where the module is free to transmit (R661). -/
theorem announce_free (hf : s.freeToSend = true) (d : Datagram) : s.announce .mgmt d = { s with mgmt := { s.mgmt with
    sent := s.mgmt.sent ++ [.datagram .mgmt (headerBytes 6 34 0 0 ++ sliceBytes (ascii "CS20-2T-LC") 0 16 ++ leBytes 16 (s.objAt 0 1 0)
      ++ leBytes 2 (s.objAt 0x0A 0x200 0))] } } := by
  have hlen : (sliceBytes (ascii "CS20-2T-LC") 0 16 ++ leBytes 16 (s.objAt 0 1 0) ++ leBytes 2 (s.objAt 0x0A 0x200 0)).length = 34 := by
    rw [List.length_append, List.length_append]
    rfl
  unfold announce sendPlain
  rw [hlen, sendOn_free hf, ← List.append_assoc, ← List.append_assoc]

/-! A handshake's end (R664, R668). -/

/-- The state without a session. -/
def withoutSession (s : State) (n : Nat) : State := s.modMgmt fun m => { m with sessions := m.sessions.filter fun y => y.num ≠ n }

theorem rejects.withoutSession {W : Nat → Nat → Prop} {p : SessionPath} {n reason : Nat} (h : rejects t u p n reason) (hs : sets W (s.withoutSession n) t)
    (h1 : ¬W 0x0C 0x101) (h4 : ¬W 0x0C 0x400) (h3 : ¬W 0x0C 0x113) : u.mgmt.sessions = s.mgmt.sessions.filter (fun y => y.num ≠ n)
      ∧ u.objAt 0x0C 0x113 0 = (s.objAt 0x0C 0x113 0 + 1) % 2 ^ 64
      ∧ (p = .mgmt → s.freeToSend = true → u.mgmt.sent = s.mgmt.sent ++ [.datagram .mgmt (headerBytes 4 1 n 0 ++ leBytes 1 reason)]) := by
  refine ⟨?_, ?_, fun hp hf => ?_⟩
  · rw [h.sessions, hs.rest]
    rfl
  · rw [h.counts, hs.objAt _ _ _ (by decide) (by decide) h3]
    rfl
  · rw [h.sent hp ((freeToSend_sets hs h1 h4).trans hf), hs.rest]
    rfl

/-- A session once its client has proved its credential (R664). -/
def opened (now : U64) (y : Session) : Session := { y.take 1 with isOpen := true, toSign := [], last := now }

section
variable {p : SessionPath} {d : Datagram} {x : Session} (hx : s.mgmt.sessions.find? (fun x => x.num = d.session && x.path = p && !x.isOpen) = some x)
include hx

theorem finishSession_malformed (hd : d.seq ≠ 1 ∨ d.payload.length ≠ 112) : s.finishSession p d = (s.withoutSession x.num).reject p x.num 1 := by
  unfold finishSession
  rw [hx]
  exact if_pos (by simpa using hd)

variable (hseq : d.seq = 1) (hlen : d.payload.length = 112)
include hseq hlen

theorem finishSession_late (hd : x.deadline.toNat < s.now.toNat) : s.finishSession p d = (s.withoutSession x.num).reject p x.num 6 := by
  unfold finishSession
  rw [hx]
  dsimp only
  rw [if_neg (by simp [hseq, hlen]), if_pos hd]
  rfl

variable (hdue : s.now.toNat ≤ x.deadline.toNat)
include hdue

theorem finishSession_forged (ho : gcmOpen x.keyIn (ivOf d.session d.seq) d.header (d.payload.take 96) (d.payload.drop 96) = none) :
    s.finishSession p d = ((s.withoutSession x.num).bump 0x0C 0x115 0 1).reject p x.num 5 := by
  unfold finishSession
  rw [hx]
  dsimp only
  rw [if_neg (by simp [hseq, hlen]), if_neg (Nat.not_lt.mpr hdue), ho]
  rfl

variable {sig : List Byte} (ho : gcmOpen x.keyIn (ivOf d.session d.seq) d.header (d.payload.take 96) (d.payload.drop 96) = some sig)
include ho

theorem finishSession_unproved (hv : ecdsaVerify x.pub x.toSign sig = false) : s.finishSession p d = (s.withoutSession x.num).reject p x.num 5 := by
  unfold finishSession
  rw [hx]
  dsimp only
  rw [if_neg (by simp [hseq, hlen]), if_neg (Nat.not_lt.mpr hdue), ho]
  dsimp only
  rw [hv]
  rfl

theorem finishSession_proved (hv : ecdsaVerify x.pub x.toSign sig = true) : s.finishSession p d
    = ((s.modSession x.num (opened s.now)).showSessions).sendProtected { x with sent := 0 } 0x13 [] := by
  unfold finishSession
  rw [hx]
  dsimp only
  rw [if_neg (by simp [hseq, hlen]), if_neg (Nat.not_lt.mpr hdue), ho]
  dsimp only
  rw [hv]
  rfl

end

theorem sets_showSessions (s : State) : sets (fun a b => a = 0x0C ∧ b = 0x110) s s.showSessions := .put s _ (by decide) (by decide) ⟨rfl, rfl⟩

/-- A session that opens is the only one that changes, and a KEEPALIVE of it is sent (R664). -/
theorem opens_spec {x : Session} (hx : x ∈ s.mgmt.sessions) : let u := ((s.modSession x.num (opened s.now)).showSessions).sendProtected { x with sent := 0 } 0x13 []
    u.mgmt.sessions.filter (fun y => y.num ≠ x.num) = s.mgmt.sessions.filter (fun y => y.num ≠ x.num)
      ∧ (x.path = .mgmt → s.freeToSend = true → u.mgmt.sent = s.mgmt.sent ++ [.datagram .mgmt (s.sealedBytes x 0x13 [])])
      ∧ ∃ y ∈ u.mgmt.sessions, y.num = x.num ∧ y.isOpen = true ∧ y.roles = x.roles ∧ 1 ≤ y.high ∧ y.last = s.now ∧ y.toSign = [] := by
  dsimp only
  have hshow := (s.modSession x.num (opened s.now)).sets_showSessions
  generalize (s.modSession x.num (opened s.now)).showSessions = t at *
  have hses : t.mgmt.sessions = s.mgmt.sessions.map fun y => if y.num = x.num then opened s.now y else y := by rw [hshow.rest]; rfl
  have hseq : t.nextSeq { x with sent := 0 } = s.nextSeq x := nextSeq_map hses (fun y => by split <;> exact ⟨rfl, rfl⟩) x
  have hsend := t.sends_sendProtected { x with sent := 0 } 0x13 []
  generalize t.sendProtected { x with sent := 0 } 0x13 [] = u at *
  refine ⟨?_, fun hp hf => ?_, ?_⟩
  · refine hsend.others.trans ?_
    rw [hses]
    exact filter_modSession fun _ => rfl
  · rw [hsend.sent hp ((freeToSend_sets hshow (by decide) (by decide)).trans hf)]
    unfold sealedBytes
    rw [hseq, hshow.rest]
    rfl
  · rw [hsend.sessions, hses]
    exact ⟨_, mem_modSession (x := opened s.now x) (mem_modSession hx), rfl, rfl, rfl, Nat.le_max_right .., rfl, rfl⟩

/-! A protected datagram is taken in (R666, R667). -/

/-- The state in which a session has accepted a sequence. -/
def accepted (s : State) (x : Session) (seq : Nat) : State := s.modSession x.num fun y => { y.take seq with last := s.now }

theorem accepted_rest (s : State) (x : Session) (seq : Nat) :
    s.accepted x seq = { s with mgmt := { s.mgmt with sessions := (s.accepted x seq).mgmt.sessions } } := rfl

theorem filter_accepted (s : State) (x : Session) (seq : Nat) :
    (s.accepted x seq).mgmt.sessions.filter (fun y => y.num ≠ x.num) = s.mgmt.sessions.filter fun y => y.num ≠ x.num :=
  filter_modSession fun _ => rfl

theorem fresh_kept {x : Session} {seq : Nat} (h : x.fresh? seq = true) : max x.high seq ≤ seq + 64 := by
  unfold Session.fresh? at h
  simp only [Bool.or_eq_true, Bool.and_eq_true, decide_eq_true_eq] at h
  omega

theorem mem_accepted {x : Session} {seq : Nat} (hx : x ∈ s.mgmt.sessions) (h : x.fresh? seq = true) : ∃ y ∈ (s.accepted x seq).mgmt.sessions,
    y.num = x.num ∧ y.last = s.now ∧ y.high = max x.high seq ∧ seq ∈ y.seen := by
  refine ⟨_, mem_modSession hx, rfl, rfl, rfl, ?_⟩
  exact List.mem_filter.mpr ⟨List.mem_cons_self .., decide_eq_true (fresh_kept h)⟩

theorem nextSeq_accepted (s : State) (x : Session) (seq : Nat) : (s.accepted x seq).nextSeq x = s.nextSeq x :=
  nextSeq_map (s.modSession_sessions ..) (fun y => by split <;> exact ⟨rfl, rfl⟩) x

section
variable {p : SessionPath} {d : Datagram} {x : Session}

/-- What a protected datagram's tag shows of its payload. -/
def plainOf (x : Session) (d : Datagram) : Option (List Byte) :=
  gcmOpen x.keyIn (ivOf d.session d.seq) d.header (d.payload.take (d.payload.length - 16)) (d.payload.drop (d.payload.length - 16))

theorem unprotect_of_none (h : s.mgmt.sessions.find? (fun y => y.num = d.session && y.path = p && y.isOpen) = none ∨ d.payload.length < 16) :
    s.unprotect p d = (s, none) := by
  unfold unprotect
  split
  · rfl
  · next x hx =>
    rw [hx] at h
    exact if_pos (h.resolve_left nofun)

variable (hx : s.mgmt.sessions.find? (fun y => y.num = d.session && y.path = p && y.isOpen) = some x) (hn : 16 ≤ d.payload.length)
include hx hn

theorem unprotect_of_forged (h : plainOf x d = none) : s.unprotect p d = (s.bump 0x0C 0x115 0 1, none) := by
  unfold unprotect
  rw [hx]
  dsimp only
  unfold plainOf at h
  rw [if_neg (Nat.not_lt.mpr hn), h]

variable {b : List Byte} (h : plainOf x d = some b)
include h

theorem unprotect_of_stale (hf : x.fresh? d.seq = false) : s.unprotect p d = (s.bump 0x0C 0x114 0 1, none) := by
  unfold unprotect
  rw [hx]
  dsimp only
  unfold plainOf at h
  rw [if_neg (Nat.not_lt.mpr hn), h]
  dsimp only
  rw [hf]
  rfl

theorem unprotect_of_fresh (hf : x.fresh? d.seq = true) : s.unprotect p d = (s.accepted x d.seq, some (x, b)) := by
  unfold unprotect
  rw [hx]
  dsimp only
  unfold plainOf at h
  rw [if_neg (Nat.not_lt.mpr hn), h]
  dsimp only
  rw [hf]
  rfl

end

/-- Sessions that close leave the others. -/
theorem sessions_closed {a : State} {n : Nat} (h : a.mgmt.sessions.filter (fun y => y.num ≠ n) = s.mgmt.sessions.filter fun y => y.num ≠ n) :
    (a.closeSessions fun y => y.num = n).mgmt.sessions = s.mgmt.sessions.filter fun y => y.num ≠ n := by
  have hclose := (a.closes_closeSessions fun y => y.num = n).rest
  generalize a.closeSessions _ = u at *
  rw [hclose]
  refine Eq.trans (List.filter_congr fun y _ => ?_) h
  exact (decide_not ..).symm

theorem request_of_none {u : State} {p : SessionPath} {d : Datagram} (hu : s.unprotect p d = (u, none)) : s.request p d = u := by
  unfold request
  rw [hu]

/-! A REQUEST that is let in (R675, R676). -/

section
variable {a : State} {p : SessionPath} {d : Datagram} {x : Session} {b : List Byte} (hu : s.unprotect p d = (a, some (x, b)))
include hu

theorem request_of_kept {k : Nat × List Byte} (hk : x.kept.find? (fun k => k.1 = fieldAt b 0 4) = some k) :
    s.request p d = a.sendProtected x 0x11 k.2 := by
  unfold request
  rw [hu]
  dsimp only
  rw [hk]

variable (hk : x.kept.find? (fun k => k.1 = fieldAt b 0 4) = none)
include hk

theorem request_of_old {h : Nat} (hh : x.highId = some h) (hold : fieldAt b 0 4 ≤ h) : s.request p d = a.bump 0x0C 0x114 0 1 := by
  unfold request
  rw [hu]
  dsimp only
  rw [hk, hh]
  exact if_pos (decide_eq_true hold)

variable (hnew : ∀ h, x.highId = some h → h < fieldAt b 0 4)
include hnew

/-- A session that keeps a response (R676). -/
def keeping (id : Nat) (r : List Byte) (y : Session) : Session := { y with kept := ((id, r) :: y.kept).take 8, highId := some id }

theorem request_of_new : s.request p d = match a.performRequest x.asPath (pathLimit p - 32) b with
    | (s, none) => s
    | (s, some r) => (s.modSession x.num (keeping (fieldAt b 0 4) r)).sendProtected x 0x11 r := by
  unfold request
  rw [hu]
  dsimp only
  rw [hk]
  dsimp only
  rw [if_neg]
  · rfl
  · rw [Option.any_eq_true]
    rintro ⟨h, hh, hle⟩
    exact absurd (of_decide_eq_true hle) (Nat.not_le.mpr (hnew h hh))

end

/-- What a new REQUEST that is answered leaves (R676). -/
theorem keeps_response (s : State) (x : Session) (id : Nat) (r : List Byte) : let u := (s.modSession x.num (keeping id r)).sendProtected x 0x11 r
    u.pow = s.pow ∧ u.boot = s.boot ∧ u.cmd = s.cmd
      ∧ (x.path = .mgmt → s.freeToSend = true → u.mgmt.sent = s.mgmt.sent ++ [.datagram .mgmt (s.sealedBytes x 0x11 r)])
      ∧ ∀ y ∈ u.mgmt.sessions, y.num = x.num → y.kept.head? = some (id, r) ∧ y.kept.length ≤ 8 ∧ y.highId = some id := by
  dsimp only
  have hses := s.modSession_sessions x.num (keeping id r)
  have hsend := (s.modSession x.num (keeping id r)).sends_sendProtected x 0x11 r
  have hseq : (s.modSession x.num (keeping id r)).nextSeq x = s.nextSeq x := nextSeq_map hses (fun y => by split <;> exact ⟨rfl, rfl⟩) x
  generalize (s.modSession x.num (keeping id r)).sendProtected x 0x11 r = u at *
  refine ⟨hsend.pow, hsend.boot, hsend.cmd, fun hp hf => ?_, fun y hy hnum => ?_⟩
  · rw [hsend.sent hp hf]
    unfold sealedBytes
    rw [hseq]
    rfl
  · rw [hsend.sessions, hses, List.map_map] at hy
    obtain ⟨z, -, rfl⟩ := List.mem_map.mp hy
    by_cases hz : z.num = x.num
    · simp only [Function.comp, if_pos hz, keeping] at hnum ⊢
      exact ⟨rfl, List.length_take_le .., trivial⟩
    · simp only [Function.comp, if_neg hz] at hnum
      exact absurd hnum hz

/-! INIT (R664, R665). -/

theorem acceptInit_spec (s : State) (p : SessionPath) (b : List Byte) : ∃ x, (s.acceptInit p b).mgmt.sessions = s.mgmt.sessions ++ [x]
    ∧ x.num = s.mgmt.nextSession ∧ (s.acceptInit p b).mgmt.nextSession = s.mgmt.nextSession + 1 ∧ x.isOpen = false ∧ x.path = p
    ∧ x.deadline = s.now + 5000000000 ∧ x.gen = fieldAt (sliceBytes b 128 200) 4 4 ∧ x.pub = sliceBytes (sliceBytes b 128 200) 8 96
    ∧ x.keyIn.length ≤ 32 ∧ x.high = 0 ∧ x.sent = 0 := by
  unfold acceptInit
  dsimp only
  have hans (t : State) (q : List Byte) := answers_sendOn t p q
  refine ⟨_, (hans ..).sessions, rfl, (hans ..).next, rfl, rfl, rfl, rfl, rfl, List.length_take_le .., rfl, rfl⟩

end

/-! A handshake that is not finished (R664, R668). -/

section
variable {s : State} {n : U32} {t : U64}

/-- The outcome of a handshake's deadline. -/
def handshakeLate (s : State) (n : U32) (t : U64) : State :=
  match s.mgmt.sessions.find? (fun x => x.num = n.toNat && !x.isOpen && x.deadline.toNat ≤ (s.advance t).now.toNat) with
  | some x => ((s.advance t).withoutSession x.num).reject x.path 0 6
  | none => s

theorem handshake_pends (h : s.mgmt.sessions.find? (fun x => x.num = n.toNat && !x.isOpen && x.deadline.toNat ≤ (s.advance t).now.toNat) = none) :
    s.handshakeLate n t = s := by
  unfold handshakeLate
  rw [h]

theorem handshake_ends {x : Session} (h : s.mgmt.sessions.find? (fun x => x.num = n.toNat && !x.isOpen && x.deadline.toNat ≤ (s.advance t).now.toNat) = some x) :
    (s.handshakeLate n t).mgmt.sessions = s.mgmt.sessions.filter (fun y => y.num ≠ n.toNat) ∧ (s.handshakeLate n t).now = (s.advance t).now := by
  have hnum : x.num = n.toNat := by
    have hfound := List.find?_some h
    simp only [Bool.and_eq_true, decide_eq_true_eq] at hfound
    exact hfound.1.1
  have hrej := ((s.advance t).withoutSession x.num).rejects_reject x.path 0 6
  unfold handshakeLate
  rw [h]
  exact ⟨hrej.sessions.trans (by rw [hnum]; rfl), hrej.now⟩

theorem exec_handshakeTimeout (s : State) (n : U32) (t : U64) : exec (.handshakeTimeout n t) s = .next (s.handshakeLate n t) := rfl

end

/-! Which type is taken in (R658, R661). -/

section
variable {s : State} {p : SessionPath} {b : List Byte} {d : Datagram} {ty : Nat} {f : State → Datagram → State}

theorem datagram_discarded (h : parseDatagram p b = none ∨ s.portRuns p = false) : s.datagram p b ty f = s := by
  unfold datagram
  split
  · next d hd =>
    rw [hd] at h
    exact if_neg (by simp [h.resolve_left nofun])
  · rfl

theorem datagram_eq (hd : parseDatagram p b = some d) (hr : s.portRuns p = true) : s.datagram p b ty f = if d.ty = ty then f s d else s := by
  unfold datagram
  rw [hd]
  dsimp only
  rw [hr, Bool.and_true]
  exact if_congr decide_eq_true_iff rfl rfl

end

end State

/-- Settles O53: what `unprotect` lets in decides the protected datagrams, `finishSession` and `init` the handshakes; an answer changes no session but its
own, and no more of the rest than its path's frames or ring (`answers`). Which path's server runs is `portRuns` (log entry 67). -/
theorem sessionRules : Obligations.SessionRules := by
  unfold Obligations.SessionRules
  intro p b s others gone sealed all
  refine ⟨fun h => ?_, fun d hd hr => ⟨?_, ?_, ?_, ?_, ?_, ?_, ?_, ?_, ?_, ?_, ?_⟩, fun n t => ?_⟩
  · have hdrop {ty : Nat} {f : State → Datagram → State} : s.datagram p b ty f = s := State.datagram_discarded h
    exact ⟨exec_next rfl hdrop, exec_next rfl hdrop, exec_next rfl hdrop, exec_next rfl hdrop, exec_next rfl hdrop, exec_next rfl hdrop⟩
  · exact fun h => exec_next rfl ((State.datagram_eq hd hr).trans (if_neg h))
  · exact fun h => exec_next rfl ((State.datagram_eq hd hr).trans (if_neg h))
  · exact fun h => exec_next rfl ((State.datagram_eq hd hr).trans (if_neg h))
  · exact fun h => exec_next rfl ((State.datagram_eq hd hr).trans (if_neg h))
  · exact fun h => exec_next rfl ((State.datagram_eq hd hr).trans (if_neg h))
  · exact fun h => exec_next rfl ((State.datagram_eq hd hr).trans (if_neg h))
  · rintro hty rfl - hf
    exact ⟨_, exec_next rfl (((State.datagram_eq hd hr).trans (if_pos hty)).trans (State.announce_free hf d)), rfl, rfl⟩
  · refine fun hty => ⟨fun r hr' hp hf => ?_, fun hnone => ?_⟩
    · have hinit : s.init p d = s.reject p 0 r := by
        unfold State.init
        rw [hr']
      have hrej := s.rejects_reject p 0 r
      exact ⟨_, exec_next rfl (((State.datagram_eq hd hr).trans (if_pos hty)).trans hinit), hrej.sessions, hrej.counts, hrej.sent hp hf⟩
    · have hinit : s.init p d = s.acceptInit p d.payload := by
        unfold State.init
        rw [hnone]
      obtain ⟨x, hx⟩ := s.acceptInit_spec p d.payload
      exact ⟨_, x, exec_next rfl (((State.datagram_eq hd hr).trans (if_pos hty)).trans hinit), hx⟩
  · intro x hty hx refused
    have hfin {u : State} (h : s.finishSession p d = u) : exec (.sessionFinish p b) s = .next u :=
      exec_next rfl (((State.datagram_eq hd hr).trans (if_pos hty)).trans h)
    have hrefused (reason : Nat) (h : s.finishSession p d = (s.withoutSession x.num).reject p x.num reason) : refused reason :=
      ⟨_, hfin h, ((s.withoutSession x.num).rejects_reject p x.num reason).withoutSession (.refl (fun _ _ => False) _) id id id⟩
    refine ⟨fun h => hrefused 1 (State.finishSession_malformed hx h), fun hseq hlen hlate => hrefused 6 (State.finishSession_late hx hseq hlen hlate),
      fun hseq hlen hdue => ⟨fun ho => ?_, fun sig ho => ⟨fun hv => hrefused 5 (State.finishSession_unproved hx hseq hlen hdue ho hv), fun hv => ?_⟩⟩⟩
    · exact ⟨_, hfin (State.finishSession_forged hx hseq hlen hdue ho), (State.rejects_reject ..).withoutSession (State.sets_bump _ 0x115 1 (by decide))
        (by decide) (by decide) (by decide)⟩
    · have hpath : x.path = p := by
        have hfound := List.find?_some hx
        simp only [Bool.and_eq_true, decide_eq_true_eq] at hfound
        exact hfound.1.2
      subst hpath
      exact ⟨_, hfin (State.finishSession_proved hx hseq hlen hdue ho hv), State.opens_spec (List.mem_of_find?_eq_some hx)⟩
  · intro hty hnone
    refine exec_next rfl (((State.datagram_eq hd hr).trans (if_pos hty)).trans ?_)
    unfold State.finishSession
    rw [hnone]
  · intro opened n plain protectedOnes
    have hexec {c : Instr} {ty : Nat} {f : State → Datagram → State} {u : State} (hc : exec c s = .next (s.datagram p b ty f)) (hty : d.ty = ty)
        (h : f s d = u) : exec c s = .next u := exec_next hc (((State.datagram_eq hd hr).trans (if_pos hty)).trans h)
    have hnone {u : State} (hu : s.unprotect p d = (u, none)) : protectedOnes fun c => exec c s = .next u :=
      ⟨fun hty => hexec rfl hty (State.request_of_none hu), fun hty => hexec rfl hty (congrArg Prod.fst hu), fun hty => hexec rfl hty (by rw [hu])⟩
    have hcounted {w : Nat} (hw : w < 65536) (hu : s.unprotect p d = (s.bump 0x0C w 0 1, none)) :
        protectedOnes fun c => ∃ u, exec c s = .next u ∧ u = { s with obj := u.obj } ∧ u.objAt 0x0C w 0 = (s.objAt 0x0C w 0 + 1) % 2 ^ 64 := by
      obtain ⟨hreq, hkeep, hclose⟩ := hnone hu
      have hcount := s.objAt_bump_self (b := w) 1 hw
      exact ⟨fun hty => ⟨_, hreq hty, (s.sets_bump w 1 hw).rest, hcount⟩, fun hty => ⟨_, hkeep hty, (s.sets_bump w 1 hw).rest, hcount⟩,
        fun hty => ⟨_, hclose hty, (s.sets_bump w 1 hw).rest, hcount⟩⟩
    refine ⟨fun h => hnone (State.unprotect_of_none h), fun x hx hn => ⟨fun hforged => hcounted (by decide) (State.unprotect_of_forged hx hn hforged),
      fun t ht => ⟨fun hstale => hcounted (by decide) (State.unprotect_of_stale hx hn ht hstale), fun hfresh => ?_⟩⟩⟩
    have hu := State.unprotect_of_fresh hx hn ht hfresh
    have hmem := List.mem_of_find?_eq_some hx
    have hpath : x.path = p := by
      have hfound := List.find?_some hx
      simp only [Bool.and_eq_true, decide_eq_true_eq] at hfound
      exact hfound.1.2
    refine ⟨fun hty => ?_, s.accepted x d.seq, ⟨s.filter_accepted x d.seq, s.accepted_rest x d.seq, State.mem_accepted hmem hfresh⟩,
      fun hty => hexec rfl hty (congrArg Prod.fst hu), fun hty => ⟨fun k hk => ?_, fun hk hold => ?_, fun hk hnew => ?_⟩⟩
    · exact ⟨_, hexec rfl hty (by rw [hu]), State.sessions_closed (s.filter_accepted x d.seq)⟩
    · have hsend := (s.accepted x d.seq).sends_sendProtected x 0x11 k.2
      refine ⟨_, hexec rfl hty (State.request_of_kept hu hk), hsend.reply, hsend.boot, hsend.pow, hsend.cmd, fun hp hf => ?_⟩
      rw [hsend.sent (hpath.trans hp) hf, State.sealedBytes, s.nextSeq_accepted]
      rfl
    · obtain ⟨h, hh, hle⟩ := hold
      have hbump := (s.accepted x d.seq).sets_bump 0x114 1 (by decide)
      exact ⟨_, hexec rfl hty (State.request_of_old hu hk hh hle), hbump.rest, (s.accepted x d.seq).objAt_bump_self 1 (by decide)⟩
    · have hreq := State.request_of_new hu hk hnew
      intro e
      have he : (s.accepted x d.seq).performRequest x.asPath (pathLimit p - 32) t = e := rfl
      clear_value e
      rw [he] at hreq
      obtain ⟨v, res⟩ := e
      refine ⟨fun hres => ?_, fun r hres => ?_⟩
      · obtain rfl : res = none := hres
        exact hexec rfl hty hreq
      · obtain rfl : res = some r := hres
        obtain ⟨hpow, hboot, hcmd, hsent, hkept⟩ := v.keeps_response x (fieldAt t 0 4) r
        exact ⟨_, hexec rfl hty hreq, hpow, hboot, hcmd, fun hp hf => hsent (hpath.trans hp) hf, hkept⟩
  · intro now
    have hnow : (s.advance t).now.toNat = now := Dev.now_advance ..
    refine ⟨fun h => ?_, fun h => ?_, fun h => ?_, fun h => ?_⟩
    · refine exec_next (s.exec_handshakeTimeout n t) (State.handshake_pends (List.find?_eq_none.mpr fun x hx => ?_))
      rw [hnow]
      intro hlate
      simp only [Bool.and_eq_true, Bool.not_eq_true', decide_eq_true_eq] at hlate
      obtain ⟨⟨hnum, hshut⟩, hlate⟩ := hlate
      rcases h x hx hnum with hopen | hlt
      · exact absurd (hopen.symm.trans hshut) nofun
      · omega
    · obtain ⟨x, hx, hnum, hshut, hlate⟩ := h
      obtain ⟨y, hy⟩ := Option.isSome_iff_exists.mp (List.find?_isSome (p := fun x => x.num = n.toNat && !x.isOpen && x.deadline.toNat ≤ (s.advance t).now.toNat)
        |>.mpr ⟨x, hx, by simp [hnum, hshut, hnow, hlate]⟩)
      obtain ⟨hgone, hsame⟩ := State.handshake_ends hy
      exact ⟨_, s.exec_handshakeTimeout n t, hgone, (congrArg BitVec.toNat hsame).trans hnow⟩
    · refine exec_next rfl (if_neg ?_)
      rw [List.any_eq_true]
      rintro ⟨x, hx, hidle⟩
      simp only [Bool.and_eq_true, decide_eq_true_eq, hnow] at hidle
      obtain ⟨⟨hnum, hopen⟩, hidle⟩ := hidle
      exact h x hx ⟨hnum, hopen, hidle⟩
    · obtain ⟨x, hx, hnum, hopen, hidle⟩ := h
      refine ⟨_, exec_next rfl (if_pos (List.any_eq_true.mpr ⟨x, hx, by simp [hnum, hopen, hnow, hidle]⟩)), State.sessions_closed rfl, ?_⟩
      have hclose := ((s.advance t).closes_closeSessions fun y => y.num = n.toNat).rest
      generalize (s.advance t).closeSessions _ = u at *
      rw [hclose]
      exact hnow

end Sys2Proof.Machine
end

section
/-! PROOFS. Proofs/PageRequests.lean: misses, walks, page requests and their answers (O40). -/

namespace Sys2Proof.Machine

namespace Dev

/-! A miss opens an entry of its page (R454, R457, R458). -/

section
variable {die : Die} {stream : Byte} {q : QueueId} {asid : Asid} {va : U64} {rights : BitVec 3} {s : State}

/-- The rights that a stream wants. -/
def wanted (rights : BitVec 3) : Rights := ⟨rights.getLsbD 0, rights.getLsbD 1, rights.getLsbD 2⟩

/-- The entry that a miss opens. -/
def missEntry (die : Die) (stream : Byte) (q : QueueId) (asid : Asid) (va : U64) (rights : BitVec 3) : MissEntry where
  die := die
  asid := asid.toNat
  vpn := va.toNat / 4096
  va := va.toNat
  streams := [⟨stream.toNat, q.val, wanted rights, va.toNat, []⟩]
  walking := true

/-- What a translation miss leaves. -/
def missed (s : Dev) (die : Die) (stream : Byte) (q : QueueId) (asid : Asid) (va : U64) (rights : BitVec 3) : Dev :=
  if !hasTc die || vaError va.toNat ≠ 0 || rights = 0 || (s.tcHit die asid.toNat (va.toNat / 4096) (wanted rights)).isSome then s
  else s.missFor { die := die, stream := stream.toNat, queue := q.val, asid := asid.toNat } va.toNat (wanted rights) []

theorem exec_translationMiss : exec (.translationMiss die stream q asid va rights) s
    = .next { s with toDev := s.toDev.missed die stream q asid va rights } := rfl

theorem missed_of_hit {s : Dev} {e : TcEntry} (he : e ∈ s.xl.tcs[die]) (h : e.asid = asid.toNat ∧ e.vpn ≤ va.toNat / 4096 ∧ va.toNat / 4096 < e.vpn + e.pages
    ∧ e.rights.covers (wanted rights) = true) : s.missed die stream q asid va rights = s := by
  obtain ⟨hasid, hlow, hhigh, hcov⟩ := h
  have hsome : (s.tcHit die asid.toNat (va.toNat / 4096) (wanted rights)).isSome = true :=
    List.find?_isSome.mpr ⟨e, he, by simp [hasid, hlow, hhigh, hcov]⟩
  exact if_pos (by rw [hsome, Bool.or_true])

variable {s : Dev} (htc : hasTc die = true) (hva : vaError va.toNat = 0) (hr : rights ≠ 0)
  (hhits : ∀ e ∈ s.xl.tcs[die], ¬(e.asid = asid.toNat ∧ e.vpn ≤ va.toNat / 4096 ∧ va.toNat / 4096 < e.vpn + e.pages ∧ e.rights.covers (wanted rights) = true))
  (hmiss : ∀ e ∈ s.xl.misses, ¬(e.die = die ∧ e.asid = asid.toNat ∧ e.vpn = va.toNat / 4096))
include htc hva hr hhits

theorem missed_of_miss : s.missed die stream q asid va rights
    = s.missFor { die := die, stream := stream.toNat, queue := q.val, asid := asid.toNat } va.toNat (wanted rights) [] := by
  have hnone : s.tcHit die asid.toNat (va.toNat / 4096) (wanted rights) = none := by
    refine List.find?_eq_none.mpr fun e he h => hhits e he ?_
    simp only [Bool.and_eq_true, decide_eq_true_eq] at h
    obtain ⟨⟨⟨hasid, hlow⟩, hhigh⟩, hcov⟩ := h
    exact ⟨hasid, hlow, hhigh, hcov⟩
  exact if_neg (by rw [htc, hnone, decide_eq_false hr]; simp [hva])

include hmiss

theorem missed_new (hroom : (s.xl.misses.filter fun e => e.die = die).length < 64) : s.missed die stream q asid va rights
    = (s.bump 1 0x101 die.val 1).modXl fun x => { x with misses := x.misses ++ [missEntry die stream q asid va rights] } := by
  have hnone : s.xl.misses.find? (fun e => e.die = die && e.asid = asid.toNat && e.vpn = va.toNat / 4096) = none :=
    List.find?_eq_none.mpr fun e he h => hmiss e he (by simpa [and_assoc] using h)
  rw [missed_of_miss htc hva hr hhits]
  unfold missFor
  dsimp only
  rw [hnone]
  exact if_pos hroom

theorem missed_full (hfull : 64 ≤ (s.xl.misses.filter fun e => e.die = die).length) :
    s.missed die stream q asid va rights = s.bump 1 0x103 die.val 1 := by
  have hnone : s.xl.misses.find? (fun e => e.die = die && e.asid = asid.toNat && e.vpn = va.toNat / 4096) = none :=
    List.find?_eq_none.mpr fun e he h => hmiss e he (by simpa [and_assoc] using h)
  rw [missed_of_miss htc hva hr hhits]
  unfold missFor
  dsimp only
  rw [hnone]
  exact if_neg (Nat.not_lt.mpr hfull)

end

/-! A write of records moves the tail of its own fault queue alone (R480, R481). -/

/-- From s to t no fault queue's tail has moved. -/
def tailKept (s t : Dev) : Prop := ∀ k, (t.mmu k).fqTail = (s.mmu k).fqTail ∧ (t.mmu k).fqEn = (s.mmu k).fqEn

section
variable {s t u : Dev}

theorem tailKept.trans (h1 : s.tailKept t) (h2 : t.tailKept u) : s.tailKept u := fun k =>
  ⟨(h2 k).1.trans (h1 k).1, (h2 k).2.trans (h1 k).2⟩

theorem tailKept.of_xl (h : t.xl.mmus = s.xl.mmus) : s.tailKept t := fun k => by
  unfold mmu
  rw [h]
  exact ⟨rfl, rfl⟩

theorem tailKept.of_memOnly (h : s.memOnly t) : s.tailKept t := .of_xl (by rw [h])

theorem tailKept_modMmu (s : Dev) (m : MmuId) {f : Mmu → Mmu} (hf : ∀ x, (f x).fqTail = x.fqTail ∧ (f x).fqEn = x.fqEn) : s.tailKept (s.modMmu m f) := fun k => by
  rw [modMmu, mmu_setMmu]
  split
  · next h =>
    rw [h]
    exact hf _
  · exact ⟨rfl, rfl⟩

theorem tailKept_holdDram (s : Dev) (tag : LineTag) (n : Nat) : s.tailKept (s.holdDram tag n) := by
  unfold holdDram holdRecord
  split_ifs
  · exact tailKept_modMmu s _ fun _ => ⟨rfl, rfl⟩
  · exact tailKept_modMmu s _ fun _ => ⟨rfl, rfl⟩
  · exact .of_xl rfl
  · exact tailKept_modMmu s _ fun _ => ⟨rfl, rfl⟩

/-- A relation that holds whenever memory alone has changed, and across a report, holds across a read of DRAM. -/
theorem dramReadBy_of_memOnly {R : Dev → Dev → Prop} {rep : Dev → LineTag → Nat → Dev} (htrans : ∀ {s t u : Dev}, R s t → R t u → R s u)
    (hmem : ∀ {s t : Dev}, s.memOnly t → R s t) (hrep : ∀ s tag n, R s (rep s tag n)) (s : Dev) (tag : LineTag) (g : Option Nat) (n : Nat) :
    R s (dramReadBy rep s tag g n).1 := by
  have herr : R s ((s.bump 7 0x100 (s.stackOf (tagLoc tag)) 1).readError g).1 := htrans (hmem (memOnly_bump ..)) (hmem (memOnly_readError ..))
  have hcount (u : Dev) (a b c n : Nat) : R u (u.bump a b c n) := hmem (memOnly_bump ..)
  have hwrite (u : Dev) (d : LineData) : R u (u.dramWrite tag d false) := hmem rfl
  unfold dramReadBy
  dsimp only
  generalize (s.bump 7 0x100 (s.stackOf (tagLoc tag)) 1).readError g = r at herr
  split
  · exact herr
  · exact htrans herr (htrans (hcount ..) (hcount ..))
  · exact herr
  · exact htrans herr (htrans (hcount ..) (hwrite ..))
  · exact herr
  · split
    · exact htrans herr (htrans (hcount ..) (hrep ..))
    · exact htrans herr (htrans (hcount ..) (htrans (hcount ..) (htrans (hmem (memOnly_dramSetPoison ..)) (htrans (hcount ..) (hrep ..)))))

theorem tailKept_closed : memClosed tailKept holdDram where
  trans := tailKept.trans
  mem h _ _ := .of_memOnly h
  count _ _ _ _ _ _ := .of_memOnly (memOnly_bump ..)
  read s tag n := dramReadBy_of_memOnly (R := tailKept) tailKept.trans .of_memOnly tailKept_holdDram s tag none n

/-- From s to t, if no error of DRAM is due in s, none is in t, and no record has been held. -/
def holdsNone (s t : Dev) : Prop := s.mem.dramErrors = [] → t.mem.dramErrors = [] ∧ ∀ k, (t.mmu k).holding = (s.mmu k).holding

theorem holdsNone.trans (h1 : s.holdsNone t) (h2 : t.holdsNone u) : s.holdsNone u := fun h =>
  ⟨(h2 (h1 h).1).1, fun k => ((h2 (h1 h).1).2 k).trans ((h1 h).2 k)⟩

theorem holdsNone.of_memOnly (h : s.memOnly t) (he : t.mem.dramErrors = s.mem.dramErrors) : s.holdsNone t := fun hs =>
  ⟨he.trans hs, fun k => by rw [h]; rfl⟩

/-- A read of DRAM whose line has no error gives the line, or its poison. -/
theorem dramReadBy_quiet (rep : Dev → LineTag → Nat → Dev) (tag : LineTag) (n : Nat) (h : s.mem.dramErrors = []) :
    (dramReadBy rep s tag none n).1 = s.bump 7 0x100 (s.stackOf (tagLoc tag)) 1 := by
  have herr : (s.bump 7 0x100 (s.stackOf (tagLoc tag)) 1).mem.dramErrors = [] := h
  unfold dramReadBy
  dsimp only
  unfold readError
  rw [herr]
  dsimp only
  unfold decodeLine
  cases s.dramPoisoned tag <;> rfl

theorem holdsNone_closed : memClosed holdsNone holdDram where
  trans := holdsNone.trans
  mem h _ he := .of_memOnly h he
  count _ _ _ _ _ _ := .of_memOnly (memOnly_bump ..) rfl
  read s tag n h := by
    rw [dramReadBy_quiet holdDram tag n h]
    exact holdsNone.of_memOnly (memOnly_bump ..) rfl h

/-! What a record that is written leaves of its fault queue (R480). -/

/-- The record's lines in memory. -/
def recordLines (s : Dev) (m : MmuId) (r : FaultRecord) : Dev :=
  ((r.first :: r.more).zipIdx).foldl (fun t e => physWriteBy holdDram t ((s.mmu m).entryAddr e.2) (leBytes 64 e.1) false ⟨8 + m.val, by omega⟩) s

theorem memClosed.recordLines {R : Dev → Dev → Prop} (h : memClosed R holdDram) (s : Dev) (m : MmuId) (r : FaultRecord) : R s (s.recordLines m r) :=
  h.foldl (fun _ _ => h.physWriteBy ..) _ s

theorem xl_event (s : Dev) (k d : Nat) : (s.event k d).xl = s.xl := rfl

/-- The system MMUs once a record is written. -/
theorem mmu_writeRecord (s : Dev) (m : MmuId) (r : FaultRecord) (k : MmuId) :
    (s.writeRecord m r).mmu k = ((s.recordLines m r).modMmu m fun x => { x with fqTail := x.fqTail + BitVec.ofNat 32 r.entries }).mmu k := by
  unfold writeRecord recordLines
  dsimp only
  generalize List.foldl _ s _ = u
  generalize u.modMmu m _ = w
  have hcount : (w.bump 1 0x113 (8 + m.val) 1).mmu k = w.mmu k := rfl
  generalize w.bump 1 0x113 (8 + m.val) 1 = v at *
  have hdirty (w : Dev) (n : Nat) : (w.modXl fun y => { y with lastDirty := some n }).mmu k = w.mmu k := rfl
  have hevent (w : Dev) (n : Nat) : (w.event 3 n).mmu k = w.mmu k := rfl
  split_ifs
  · rw [hevent, hdirty, hcount]
  · rw [hevent, hcount]
  · rw [hdirty, hcount]
  · exact hcount

theorem tail_writeRecord (s : Dev) (m : MmuId) (r : FaultRecord) :
    ((s.writeRecord m r).mmu m).fqTail = (s.mmu m).fqTail + BitVec.ofNat 32 r.entries := by
  rw [mmu_writeRecord, modMmu, mmu_setMmu, if_pos rfl]
  dsimp only
  rw [(tailKept_closed.recordLines s m r m).1]

theorem holding_writeRecord (m : MmuId) (r : FaultRecord) (h : s.mem.dramErrors = []) : ((s.writeRecord m r).mmu m).holding = (s.mmu m).holding := by
  rw [mmu_writeRecord, modMmu, mmu_setMmu, if_pos rfl]
  exact (holdsNone_closed.recordLines s m r h).2 m

theorem slots_writeRecord (s : Dev) (m : MmuId) (r : FaultRecord) : ((s.writeRecord m r).mmu m).slots = (s.mmu m).slots := by
  rw [(reportStep.writeRecord s m r).mmu m]

/-! A page request that goes out at once (R461 to R465). -/

theorem chunks_of_few {α : Type} {l : List α} (h0 : l ≠ []) (h : l.length ≤ 16) : chunks 16 (l.length + 1) l = [l] := by
  cases l with
  | nil => exact absurd rfl h0
  | cons a l =>
    rw [chunks, List.take_of_length_le h, List.drop_of_length_le h]
    · rfl
    · exact nofun

/-- Streams that one record lists make a page request of one record of two entries (R462). -/
theorem prRecords_of_few (s : Dev) (die : Die) (asid vpn va tag leaf : Nat) (st : WalkStatus) {ws : List WaitingStream} (time : U64) (h0 : ws ≠ [])
    (h : ws.length ≤ 16) : ∃ r, s.prRecords die asid vpn va tag leaf st ws time = [r] ∧ r.entries = 2 := by
  unfold prRecords
  rw [chunks_of_few h0 h]
  exact ⟨_, rfl, rfl⟩

/-- Whether two entries of a fault queue that is empty can be written. -/
theorem roomFor_empty {m : MmuId} (hempty : (s.mmu m).fqHead = (s.mmu m).fqTail)
    (hbusy : ∀ k, k < 2 → s.lineBusy (tagOf ((s.mmu m).entryAddr k) false) = false) : s.roomFor m 2 = true := by
  have hfree : 2 ≤ (s.mmu m).free := by
    unfold Mmu.free
    rw [hempty]
    omega
  unfold roomFor
  rw [decide_eq_true hfree, Bool.true_and, List.all_eq_true]
  intro k hk
  rw [hbusy k (List.mem_range.mp hk)]
  rfl

theorem freePrSlot_of_none {x : Mmu} {n i : Nat} (hn : 0 < n) (h : Table.get none x.slots i = none) : freePrSlot x n i = some i := by
  obtain ⟨n, rfl⟩ := Nat.exists_eq_succ_of_ne_zero hn.ne'
  unfold freePrSlot
  rw [h]
  rfl

theorem lineBusy_congr (hm : t.mem = s.mem) (hp : t.poolGib = s.poolGib) (tag : LineTag) : t.lineBusy tag = s.lineBusy tag := by
  have hhub : t.hubOf (tagLoc tag) = s.hubOf (tagLoc tag) := by rw [hubOf_eq, hubOf_eq, stackOf_of_pool hp]
  unfold lineBusy dirBlocked hub
  rw [hhub, hm]

theorem poolGib_bump (s : Dev) {a b c : Nat} (n : Nat) (hb : b < 65536) (hc : c < 256) (h : a ≠ 7) :
    (s.bump a b c n).poolGib = s.poolGib := by
  unfold poolGib
  rw [objAt_bump s n hc (by decide) hb (by decide), if_neg fun he => h he.1.symm]

/-- A page request has been counted, and its miss entry names it (R461, R489). -/
def requestCounted (s : Dev) (die : Die) (asid vpn : Nat) : Dev :=
  (s.bump 1 0x104 die.val 1).modXl fun y => { y with misses := y.misses.map fun e =>
    if e.die = die && e.asid = asid && e.vpn = vpn then { e with pageRequest := true, walking := false } else e }

/-- The slot of a page request that has just gone out. -/
structure requests (s u : Dev) (die : Die) (asid vpn : Nat) (ws : List WaitingStream) (x : PrSlot) : Prop where
  slot : Table.get none (u.mmu (mmuOf die)).slots 0 = some x
  outstanding : x.outstanding = true
  die_ : x.die = die
  asid_ : x.asid = asid
  vpn_ : x.vpn = vpn
  streams : x.streams = ws
  deadline : x.deadline = s.now + BitVec.ofNat 64 (1000 * (s.mmu (mmuOf die)).respTimeoutUs.toNat)
  tail : (u.mmu (mmuOf die)).fqTail = (s.mmu (mmuOf die)).fqTail + 2

/-- The slot of a page request that no other has had. -/
def firstSlot (s : Dev) (die : Die) (asid vpn va leaf : Nat) (st : WalkStatus) (ws : List WaitingStream) : PrSlot where
  outstanding := true
  reuse := 0
  die := die
  asid := asid
  vpn := vpn
  va := va
  streams := ws
  deadline := s.now + BitVec.ofNat 64 (1000 * (s.mmu (mmuOf die)).respTimeoutUs.toNat)
  walk := st
  leaf := leaf

/-- A page request that waits for room. -/
def heldMiss (now : U64) (die : Die) (asid vpn va leaf : Nat) (st : WalkStatus) (ws : List WaitingStream) : MissEntry where
  die := die
  asid := asid
  vpn := vpn
  va := va
  streams := ws
  walking := false
  pf := [leaf, walkCode st, 0]
  pageRequest := true
  time := now

theorem pageRequest_eq {die : Die} {asid vpn va leaf : Nat} {st : WalkStatus} {ws : List WaitingStream} (hen : (s.mmu (mmuOf die)).fqEn = true)
    (hslots : (s.mmu (mmuOf die)).slots = []) : s.pageRequest die asid vpn va leaf st ws false none =
      let c := s.requestCounted die asid vpn
      let x := c.firstSlot die asid vpn va leaf st ws
      let rs := c.prRecords die asid vpn va (prTag 0 x) leaf st ws s.now
      if (s.mmu (mmuOf die)).holding ≠ [] || !c.roomFor (mmuOf die) ((rs.map FaultRecord.entries).foldl (· + ·) 0) then
        c.modMmu (mmuOf die) fun y => { y with holding := y.holding ++ [heldRequest (heldMiss s.now die asid vpn va leaf st ws)] }
      else rs.foldl (fun s r => s.writeRecord (mmuOf die) r) (c.modMmu (mmuOf die) fun y => { y with slots := Table.set none y.slots 0 (some x) }) := by
  have hfree : freePrSlot (s.mmu (mmuOf die)) 1024 0 = some 0 := freePrSlot_of_none (by omega) (by rw [hslots]; rfl)
  unfold pageRequest
  dsimp only
  rw [if_neg (by simp [hen]), hfree]
  dsimp only
  rw [hslots]
  rfl

theorem pageRequest_sent {die : Die} {asid vpn va leaf : Nat} {st : WalkStatus} {ws : List WaitingStream} (hen : (s.mmu (mmuOf die)).fqEn = true)
    (hslots : (s.mmu (mmuOf die)).slots = []) (hhold : (s.mmu (mmuOf die)).holding = []) (hempty : (s.mmu (mmuOf die)).fqHead = (s.mmu (mmuOf die)).fqTail)
    (h0 : ws ≠ []) (h16 : ws.length ≤ 16) (hbusy : ∀ k, k < 2 → s.lineBusy (tagOf ((s.mmu (mmuOf die)).entryAddr k) false) = false) :
    ∃ x, requests s (s.pageRequest die asid vpn va leaf st ws false none) die asid vpn ws x := by
  rw [pageRequest_eq hen hslots]
  have hmmu : (s.requestCounted die asid vpn).mmu (mmuOf die) = s.mmu (mmuOf die) := rfl
  have hnow : (s.requestCounted die asid vpn).now = s.now := rfl
  have hroom : (s.requestCounted die asid vpn).roomFor (mmuOf die) 2 = true := by
    refine roomFor_empty (by rw [hmmu, hempty]) fun k hk => ?_
    have hpool := s.poolGib_bump (a := 1) (b := 0x104) (c := die.val) 1 (by decide) (by omega) (by decide)
    rw [hmmu]
    exact (lineBusy_congr (s := s) (t := s.requestCounted die asid vpn) rfl hpool _).trans (hbusy k hk)
  generalize s.requestCounted die asid vpn = c at *
  generalize hx : c.firstSlot die asid vpn va leaf st ws = x
  obtain ⟨r, hr, hentries⟩ := c.prRecords_of_few die asid vpn va (prTag 0 x) leaf st s.now h0 h16
  have hsum : ([r].map FaultRecord.entries).foldl (· + ·) 0 = 2 := by simp [hentries]
  dsimp only
  rw [hx, hr, hsum, if_neg (by simp [hhold, hroom])]
  have htail := tail_writeRecord (c.modMmu (mmuOf die) fun y => { y with slots := Table.set none y.slots 0 (some x) }) (mmuOf die) r
  have hslot := slots_writeRecord (c.modMmu (mmuOf die) fun y => { y with slots := Table.set none y.slots 0 (some x) }) (mmuOf die) r
  rw [hentries] at htail
  refine ⟨x, ?_, by rw [← hx]; rfl, by rw [← hx]; rfl, by rw [← hx]; rfl, by rw [← hx]; rfl, by rw [← hx]; rfl, ?_, htail.trans ?_⟩
  · rw [List.foldl_cons, List.foldl_nil, hslot, modMmu, mmu_setMmu, if_pos rfl]
    dsimp only
    exact Table.get_set_same ..
  · rw [← hx, firstSlot, hmmu, hnow]
  · rw [modMmu, mmu_setMmu, if_pos rfl, hmmu]
    rfl

/-! A walk ends (R460, R461). -/

section
variable {die : Die} {asid : Asid} {vpn : Nat} {e : MissEntry} {d : Dev} {r : WalkEnd} (hm : s.xl.misses = [e]) (hdie : e.die = die) (hasid : e.asid = asid.toNat)
  (hvpn : e.vpn = vpn) (hwalking : e.walking = true) (hwalk : s.walk die asid.toNat vpn = (d, some r)) (hd : d.xl.misses = s.xl.misses)
include hm hdie hasid hvpn hwalking hwalk hd

theorem walkComplete_found {t : TcEntry} (ht : r.entry = some t) (hta : t.asid = asid.toNat) (hlow : t.vpn ≤ vpn) (hhigh : vpn < t.vpn + t.pages)
    (htr : t.rights.r = true) (hcov : ∀ w ∈ e.streams, t.rights.covers w.rights = true) :
    s.walkComplete die asid.toNat vpn = d.modXl fun x => { x with misses := [] } := by
  have hans : d.answerMisses die t = d.modXl fun x => { x with misses := [] } := by
    have hnone : e.streams.filter (fun w => !t.rights.covers w.rights) = [] := List.filter_eq_nil_iff.mpr fun w hw => by simp [hcov w hw]
    unfold answerMisses modXl
    dsimp only
    rw [hd, hm, List.map_cons, List.map_nil]
    subst hdie hvpn
    rw [if_pos (by simp [hasid, hta, hlow, hhigh]), List.filter_cons_of_neg, List.filter_nil]
    simp [hasid, hta, hlow, hhigh, htr, hnone]
  unfold walkComplete
  rw [hm, List.find?_cons_of_pos (by simp [hdie, hasid, hvpn, hwalking])]
  dsimp only
  rw [hwalk]
  dsimp only
  rw [ht]
  dsimp only
  rw [if_neg (c := (!t.rights.r) = true) (by simp [htr]), hans]
  rfl

theorem walkComplete_missing (hpf : e.pf = []) (hs : e.streams ≠ []) (hr : r.entry = none) : ∃ va,
    s.walkComplete die asid.toNat vpn = (d.modXl fun x => { x with misses := [{ e with pf := [], walking := false }] }).pageRequest die asid.toNat vpn va
      r.leaf r.lacking e.streams false none := by
  have hmod : (d.modXl fun x => { x with misses := x.misses.map fun o =>
      if o.die = die && o.asid = asid.toNat && o.vpn = vpn then { o with pf := [], walking := false } else o })
      = d.modXl fun x => { x with misses := [{ e with pf := [], walking := false }] } := by
    unfold modXl
    dsimp only
    rw [hd, hm, List.map_cons, List.map_nil, if_pos (by simp [hdie, hasid, hvpn])]
  unfold walkComplete
  rw [hm, List.find?_cons_of_pos (by simp [hdie, hasid, hvpn, hwalking])]
  dsimp only
  rw [hwalk]
  dsimp only
  rw [hr, hpf]
  dsimp only
  rw [if_pos rfl, List.foldl_nil, hmod]
  dsimp only [modXl]
  rw [List.find?_cons_of_pos (by simp [hdie, hasid, hvpn])]
  dsimp only
  rw [if_neg (by simpa using hs)]
  exact ⟨_, rfl⟩

end

/-! Answers to page requests (R465 to R471). -/

theorem drainPr_of_none {m : MmuId} (h : (s.mmu m).waitingPr = []) (n : Nat) : s.drainPr m n = s := by
  cases n with
  | zero => rfl
  | succ n =>
    unfold drainPr
    rw [h]

theorem mmu_freePr (s : Dev) (m : MmuId) (i : Nat) (x : PrSlot) : (s.freePr m i x).mmu m
    = { s.mmu m with slots := Table.set none (s.mmu m).slots i (some { x with outstanding := false, streams := [] }) } := by
  rw [freePr, modMmu, mmu_setMmu, if_pos rfl]

section
variable {m : MmuId} {i : Nat} {x : PrSlot}

/-- A resolved answer whose walk gives every stream its rights frees the slot, and no more of the memory or the queues changes. -/
theorem prResolved_covered {d : Dev} {r : WalkEnd} {t : TcEntry} (hwalk : (s.bump 1 0x110 (8 + m.val) 1).walk x.die x.asid x.vpn = (d, some r))
    (hr : r.entry = some t) (hcov : ∀ w ∈ x.streams, t.rights.covers w.rights = true) (hw : (d.mmu m).waitingPr = []) :
    ((s.prResolved m i x).mmu m).slots = ((d.freePr m i x).mmu m).slots ∧ (s.prResolved m i x).mem = d.mem ∧ (s.prResolved m i x).cmd = d.cmd := by
  have hnone : x.streams.filter (fun w => !t.rights.covers w.rights) = [] := List.filter_eq_nil_iff.mpr fun w hw => by simp [hcov w hw]
  have hmisses (u : Dev) (f : XlState → List MissEntry) (k : MmuId) : (u.modXl fun y => { y with misses := f y }).mmu k = u.mmu k := rfl
  have hans : (d.answerMisses x.die t).mmu m = d.mmu m := rfl
  have hslots : (((d.answerMisses x.die t).freePr m i x).mmu m).slots = ((d.freePr m i x).mmu m).slots := by rw [mmu_freePr, mmu_freePr, hans]
  have hwait : (((d.answerMisses x.die t).freePr m i x).mmu m).waitingPr = [] := by rw [mmu_freePr, hans, hw]
  have hrest : ((d.answerMisses x.die t).freePr m i x).mem = d.mem ∧ ((d.answerMisses x.die t).freePr m i x).cmd = d.cmd := ⟨rfl, rfl⟩
  unfold prResolved
  dsimp only
  rw [hwalk]
  dsimp only
  rw [hr]
  dsimp only
  rw [hnone, List.foldl_nil]
  generalize (d.answerMisses x.die t).freePr m i x = e at *
  split
  · have hdrop : e.failStreams x.die x.asid x.vpn [] (fun _ => 5) = e.dropMiss x.die x.asid x.vpn fun _ => false := rfl
    rw [hdrop, drainPr_of_none (s := e.dropMiss x.die x.asid x.vpn fun _ => false) hwait]
    exact ⟨hslots, hrest⟩
  · rw [drainPr_of_none hwait]
    exact ⟨hslots, hrest⟩

/-- The reason of a failed stream (R467, R470). -/
def failReason (s : Dev) (x : PrSlot) (w : WaitingStream) : Nat :=
  if x.walk = .rightLacking || (w.rights.w && s.pageSealed x.asid x.vpn) then 5 else 4

/-- The failure of a command fetch ends its queue's fetch (R471, R749). -/
theorem failStream_of_fetch {die : Die} {asid vpn : Nat} {w : WaitingStream} (hq : w.queue < 2048) (hdie : 18 ≤ die.val) (hst : w.stream = 0xF2)
    (hfor : w.for_ = [] ∨ w.for_ = [none]) (hf : s.fetchWaits ⟨w.queue, hq⟩ vpn = true) (reason : Nat) :
    s.failStream die asid vpn w reason = s.cease ⟨w.queue, hq⟩ reason false := by
  have hnone : w.for_.filterMap id = [] := by rcases hfor with h | h <;> rw [h] <;> rfl
  have hread : s.failReading w reason = s := by
    unfold failReading
    rw [hnone]
    rfl
  unfold failStream
  dsimp only
  rw [hread, if_neg (by omega), if_neg (by simp; omega), if_neg (c := die.val < 18) (by omega), hst]
  unfold failQueue
  rw [dif_pos hq]
  dsimp only
  rw [hf, hnone]
  rcases hfor with h | h <;> rw [h] <;> rfl

/-- A failed command fetch that waits alone ends its queue's fetch, and its miss entry lets it go. -/
theorem failStreams_fetch {die : Die} {asid vpn : Nat} {w : WaitingStream} (hq : w.queue < 2048) (hdie : 18 ≤ die.val) (hst : w.stream = 0xF2)
    (hfor : w.for_ = [] ∨ w.for_ = [none]) (hf : s.fetchWaits ⟨w.queue, hq⟩ vpn = true) (reason : Rights → Nat) :
    s.failStreams die asid vpn [w] reason
      = (s.dropMiss die asid vpn fun y => [w].any fun z => z.same y).cease ⟨w.queue, hq⟩ (reason w.rights) false := by
  have hdrop : (s.dropMiss die asid vpn fun y => [w].any fun z => z.same y).fetchWaits ⟨w.queue, hq⟩ vpn = true := hf
  unfold failStreams
  dsimp only
  rw [List.foldl_cons, List.foldl_nil]
  generalize (s.dropMiss die asid vpn fun y => [w].any fun z => z.same y) = u at *
  exact failStream_of_fetch hq hdie hst hfor hdrop _

/-- The answer that fails a page request with no other waiting for its slot. -/
theorem prFailed_eq {w : WaitingStream} {t : Dev} (ht : (s.freePr m i x).bump 1 0x111 (8 + m.val) 1 = t) (hq : w.queue < 2048) (hx : x.streams = [w])
    (hdie : 18 ≤ x.die.val) (hst : w.stream = 0xF2) (hfor : w.for_ = [] ∨ w.for_ = [none]) (hf : t.fetchWaits ⟨w.queue, hq⟩ x.vpn = true)
    (hwait : (t.mmu m).waitingPr = []) : s.prFailed m i x
      = (t.dropMiss x.die x.asid x.vpn fun y => [w].any fun z => z.same y).cease ⟨w.queue, hq⟩ (t.failReason x w) false := by
  unfold prFailed
  dsimp only
  rw [ht, hx, failStreams_fetch hq hdie hst hfor hf]
  have hdrop : ((t.dropMiss x.die x.asid x.vpn fun y => [w].any fun z => z.same y).mmu m).waitingPr = [] := hwait
  unfold failReason
  generalize (t.dropMiss x.die x.asid x.vpn fun y => [w].any fun z => z.same y) = u at *
  refine drainPr_of_none ?_ _
  have hstep := queueStep_cease u ⟨w.queue, hq⟩ (if x.walk = .rightLacking || (w.rights.w && t.pageSealed x.asid x.vpn) then 5 else 4) false
  rw [hstep]
  exact hdrop

/-- What the failure of a command fetch leaves (R467, R468, R471). -/
theorem prFailed_fetch {w : WaitingStream} (hq : w.queue < 2048) (hx : x.streams = [w]) (hdie : 18 ≤ x.die.val) (hst : w.stream = 0xF2)
    (hfor : w.for_ = [] ∨ w.for_ = [none]) (hf : s.fetchWaits ⟨w.queue, hq⟩ x.vpn = true) (hwait : (s.mmu m).waitingPr = []) : let u := s.prFailed m i x
    u.stopsWith ⟨w.queue, hq⟩ (BitVec.ofNat 8 (s.failReason x w))
      ∧ Table.get none (u.mmu m).slots i = some { x with outstanding := false, streams := [] }
      ∧ u.objAt 1 0x111 (8 + m.val) = (s.objAt 1 0x111 (8 + m.val) + 1) % 2 ^ 64 := by
  dsimp only
  obtain ⟨t, ht⟩ : ∃ t, (s.freePr m i x).bump 1 0x111 (8 + m.val) 1 = t := ⟨_, rfl⟩
  have hreason : t.failReason x w = s.failReason x w := by rw [← ht]; rfl
  have hfetch : t.fetchWaits ⟨w.queue, hq⟩ x.vpn = true := by rw [← ht]; exact hf
  have hmmu : t.mmu m = { s.mmu m with slots := Table.set none (s.mmu m).slots i (some { x with outstanding := false, streams := [] }) } := by
    rw [← ht, ← mmu_freePr]
    rfl
  have hcount : t.objAt 1 0x111 (8 + m.val) = (s.objAt 1 0x111 (8 + m.val) + 1) % 2 ^ 64 := by
    rw [← ht, objAt_bump_self _ _ (by decide) (by omega)]
    rfl
  rw [prFailed_eq ht hq hx hdie hst hfor hfetch (by rw [hmmu, hwait]), hreason]
  have hrun : (t.queue ⟨w.queue, hq⟩).state = .running := by
    unfold fetchWaits at hfetch
    simp only [Bool.and_eq_true, decide_eq_true_eq] at hfetch
    exact hfetch.1
  have hslot : Table.get none ((t.dropMiss x.die x.asid x.vpn fun y => [w].any fun z => z.same y).mmu m).slots i
      = some { x with outstanding := false, streams := [] } := by
    change Table.get none (t.mmu m).slots i = _
    rw [hmmu]
    dsimp only
    exact Table.get_set_same ..
  have hcount' : (t.dropMiss x.die x.asid x.vpn fun y => [w].any fun z => z.same y).objAt 1 0x111 (8 + m.val) = t.objAt 1 0x111 (8 + m.val) := rfl
  have hrun' : ((t.dropMiss x.die x.asid x.vpn fun y => [w].any fun z => z.same y).queue ⟨w.queue, hq⟩).state = .running := hrun
  generalize (t.dropMiss x.die x.asid x.vpn fun y => [w].any fun z => z.same y) = u at *
  have hstep := queueStep_cease u ⟨w.queue, hq⟩ (s.failReason x w) false
  refine ⟨u.stopsWith_cease _ _ _ hrun', ?_, ?_⟩
  · rw [hstep]
    exact hslot
  · rw [hstep]
    exact hcount'.trans hcount

end

/-! Time that moves on leaves a fetch that waits (R468). -/

theorem queue_latchAll_of_latched {q : QueueId} (h0 : (s.queue q).wait0 = true) (h1 : (s.queue q).wait1 = true) :
    s.latchAll.queue q = s.queue q := by
  unfold latchAll
  suffices h : ∀ (l : Table Queue) (d : Dev), d.queue q = s.queue q →
      (l.foldl (fun d e => if h : e.1 < 2048 then d.latch ⟨e.1, h⟩ else d) d).queue q = s.queue q from h _ s rfl
  intro l
  induction l with
  | nil => exact fun d hd => hd
  | cons e l ih =>
    intro d hd
    rw [List.foldl_cons]
    refine ih _ ?_
    split
    · rw [queue_latch]
      split
      · next hq =>
        rw [← hq, latchedQueue_of_latched _ _ (by rw [hd, h0]) (by rw [hd, h1]), hd]
      · exact hd
    · exact hd

theorem fetchWaits_advance {q : QueueId} {vpn : Nat} (h : s.fetchWaits q vpn = true) (v : U64) : (s.advance v).fetchWaits q vpn = true := by
  have hbefore : ((s.setNow v).countStalls ((s.setNow v).now.toNat - s.now.toNat)).queue q = s.queue q := by
    rw [(s.setNow v).countStalls_rest]
    rfl
  have hsame : (s.advance v).queue q = s.queue q := by
    unfold advance
    cases hf : (s.queue q).fetched with
    | none => rw [queue_latchAll_of_unfetched _ _ (by rw [hbefore, hf]), hbefore]
    | some w =>
      unfold fetchWaits at h
      dsimp only at h
      rw [hf] at h
      simp only [Bool.and_eq_true, decide_eq_true_eq] at h
      obtain ⟨-, ⟨-, h0⟩, h1⟩ := h
      rw [queue_latchAll_of_latched (by rw [hbefore, h0]) (by rw [hbefore, h1]), hbefore]
  unfold fetchWaits
  rw [hsame]
  exact h

/-! A held record is written once it fits (R480, R481). -/

theorem drainQueue_of_none {m : MmuId} (h : (s.mmu m).holding = []) (n : Nat) : s.drainQueue m n = s := by
  cases n with
  | zero => rfl
  | succ n =>
    unfold drainQueue
    rw [h]

section
variable {m : MmuId} {r : FaultRecord} {rs : List FaultRecord} (h : (s.mmu m).holding = r :: rs) (hr : r.request = none)
include h hr

theorem drainQueue_one : s.drainQueue m 1 = if s.roomFor m r.entries then (s.modMmu m fun x => { x with holding := rs }).writeRecord m r else s := by
  unfold drainQueue
  rw [h]
  dsimp only
  rw [hr]
  rfl

theorem drainQueue_full (hroom : s.roomFor m r.entries = false) : s.drainQueue m 1 = s := by
  rw [drainQueue_one h hr, hroom]
  rfl

theorem drainQueue_writes (hroom : s.roomFor m r.entries = true) (he : s.mem.dramErrors = []) : ((s.drainQueue m 1).mmu m).holding = rs
    ∧ ((s.drainQueue m 1).mmu m).fqTail = (s.mmu m).fqTail + BitVec.ofNat 32 r.entries := by
  have hmmu : (s.modMmu m fun x => { x with holding := rs }).mmu m = { s.mmu m with holding := rs } := by rw [modMmu, mmu_setMmu, if_pos rfl]
  rw [drainQueue_one h hr, if_pos hroom, holding_writeRecord (s := s.modMmu m fun x => { x with holding := rs }) m r he, tail_writeRecord, hmmu]
  exact ⟨rfl, rfl⟩

end

theorem roomFor_iff {m : MmuId} {n : Nat} : s.roomFor m n = true ↔ n ≤ (s.mmu m).free ∧ ∀ k, k < n → s.lineBusy (tagOf ((s.mmu m).entryAddr k) false) = false := by
  unfold roomFor
  rw [Bool.and_eq_true, decide_eq_true_eq, List.all_eq_true]
  simp only [List.mem_range, Bool.not_eq_true']

theorem failReason_byte (s : Dev) (x : PrSlot) (w : WaitingStream) : BitVec.ofNat 8 (s.failReason x w)
    = if x.walk = .rightLacking ∨ (w.rights.w = true ∧ s.pageSealed x.asid x.vpn = true) then 5 else 4 := by
  unfold failReason
  by_cases h : x.walk = .rightLacking ∨ (w.rights.w = true ∧ s.pageSealed x.asid x.vpn = true)
  · rw [if_pos h, if_pos (by simpa using h)]
    rfl
  · rw [if_neg h, if_neg (by simpa using h)]
    rfl

/-- A page request's deadline has passed, and is counted (R468). -/
def timedOut (s : Dev) (m : MmuId) (t0 : U64) : Dev := (s.advance t0).bump 1 0x112 (8 + m.val) 1

/-- The deadline of a page request changes no fault queue, and no more than its count that a failed answer turns on. -/
theorem timedOut_spec (s : Dev) (m : MmuId) (t0 : U64) : (s.timedOut m t0).mmu m = s.mmu m ∧ (∀ x w, (s.timedOut m t0).failReason x w = s.failReason x w)
    ∧ (s.timedOut m t0).objAt 1 0x111 (8 + m.val) = s.objAt 1 0x111 (8 + m.val) := by
  have hxl : (s.timedOut m t0).xl = s.xl := s.advance_xl t0
  refine ⟨?_, fun x w => ?_, ?_⟩
  · unfold mmu
    rw [hxl]
  · unfold failReason pageSealed sealedRanges
    rw [hxl]
  · unfold timedOut
    rw [objAt_bump _ _ (by omega) (by omega) (by decide) (by decide), if_neg (by omega), objAt_advance _ _ (by decide) (by omega) (by decide)]

end

end Dev

section
variable {s : State} {m : MmuId} {tag : U16} {i : Nat} {x : PrSlot} {t0 : U64} (hx : s.prSlot m tag = some (i, x))
include hx

theorem exec_prRespResolved : exec (.prRespResolved m tag) s = .next { s with toDev := s.toDev.prResolved m i x } := by
  refine exec_eq_next rfl ?_
  dsimp only
  rw [hx]

theorem exec_prRespFailed : exec (.prRespFailed m tag) s = .next { s with toDev := s.toDev.prFailed m i x } := by
  refine exec_eq_next rfl ?_
  dsimp only
  rw [hx]

theorem exec_prTimeout_early (h : (s.toDev.advance t0).now.toNat < x.deadline.toNat) : exec (.prTimeout m tag t0) s = .next s := by
  refine exec_eq_next rfl ?_
  dsimp only
  rw [hx]
  exact if_neg (Nat.not_le.mpr h)

theorem exec_prTimeout_late (h : x.deadline.toNat ≤ (s.toDev.advance t0).now.toNat) : exec (.prTimeout m tag t0) s
    = .next { s with toDev := (s.toDev.timedOut m t0).prFailed m i x } := by
  refine exec_eq_next rfl ?_
  dsimp only
  rw [hx]
  exact if_pos h

end

/-- Settles O40: a miss (`missed`), a walk (`walkComplete_…`), a page request (`pageRequest_sent`), its answers (`prResolved_covered`, `prFailed_fetch`)
and a held record (`drainQueue_writes`) each by what it leaves; a write of records moves only its own fault queue's tail. -/
theorem pageRequests : Obligations.PageRequests := by
  unfold Obligations.PageRequests
  refine ⟨fun die stream q asid va rights s htc hva hr => ?_, fun die asid vpn e d r s hm hdie hasid hvpn hwalking hpf hwalk hd hs => ?_,
    fun m tag t0 s => ⟨fun hnone => ?_, fun i x hx => ?_⟩, fun m s => ⟨fun h => ?_, fun r rs h hr => ?_⟩⟩
  · intro want vpn hits
    refine ⟨fun ⟨e, he, hhit⟩ => exec_eq_next rfl (Dev.missed_of_hit he hhit), fun hhits hmiss => ⟨fun hroom => ?_, fun hfull => ?_⟩⟩
    · refine ⟨_, exec_eq_next rfl (Dev.missed_new htc hva hr hhits hmiss hroom), rfl, ?_, rfl⟩
      exact Dev.objAt_bump_self s.toDev 1 (by decide) (by omega)
    · refine ⟨_, exec_eq_next rfl (Dev.missed_full htc hva hr hhits hmiss hfull), ?_, rfl⟩
      exact Dev.objAt_bump_self s.toDev 1 (by decide) (by omega)
  · refine ⟨fun t ht hta hlow hhigh htr hcov => ?_, fun hr hen hslots hhold hempty h16 hbusy => ?_⟩
    · exact ⟨_, exec_eq_next rfl (Dev.walkComplete_found hm hdie hasid hvpn hwalking hwalk hd ht hta hlow hhigh htr hcov), rfl, rfl, rfl⟩
    · obtain ⟨va, hdone⟩ := Dev.walkComplete_missing hm hdie hasid hvpn hwalking hwalk hd hpf hs hr
      have hmmu : (d.modXl fun x => { x with misses := [{ e with pf := [], walking := false }] }).mmu (mmuOf die) = d.mmu (mmuOf die) := rfl
      have hbusy' : ∀ k, k < 2 → (d.modXl fun x => { x with misses := [{ e with pf := [], walking := false }] }).lineBusy
          (tagOf ((d.mmu (mmuOf die)).entryAddr k) false) = false := fun k hk => hbusy k hk
      have hnow : (d.modXl fun x => { x with misses := [{ e with pf := [], walking := false }] }).now = d.now := rfl
      generalize (d.modXl fun x => { x with misses := [{ e with pf := [], walking := false }] }) = c at *
      obtain ⟨x, hx⟩ := Dev.pageRequest_sent (s := c) (die := die) (asid := asid.toNat) (vpn := vpn) (va := va) (leaf := r.leaf) (st := r.lacking)
        (by rw [hmmu, hen]) (by rw [hmmu, hslots]) (by rw [hmmu, hhold]) (by rw [hmmu, hempty]) hs h16 (by rw [hmmu]; exact hbusy')
      generalize c.pageRequest die asid.toNat vpn va r.leaf r.lacking e.streams false none = u at *
      refine ⟨_, x, exec_eq_next rfl hdone, hx.slot, hx.outstanding, hx.die_, hx.asid_, hx.vpn_, hx.streams, ?_, ?_⟩
      · rw [hx.deadline, hmmu, hnow]
      · exact hx.tail.trans (by rw [hmmu])
  · refine ⟨exec_eq_next rfl ?_, exec_eq_next rfl ?_, exec_eq_next rfl ?_⟩
    · dsimp only
      rw [hnone]
      rfl
    · dsimp only
      rw [hnone]
      rfl
    · dsimp only
      rw [hnone]
  · have hnow : (s.toDev.advance t0).now.toNat = max s.now.toNat t0.toNat := Dev.now_advance ..
    refine ⟨fun d r t hwalk hr hcov hw => ?_, fun hearly => ?_, ?_⟩
    · exact ⟨_, exec_prRespResolved hx, Dev.prResolved_covered hwalk hr hcov hw⟩
    · exact exec_prTimeout_early hx (by rw [hnow]; exact hearly)
    · intro w h hstreams hdie hst hfor q hf hrun hwait failed
      have hreason : BitVec.ofNat 8 (s.toDev.failReason x w)
          = if x.walk = .rightLacking ∨ (w.rights.w = true ∧ s.pageSealed x.asid x.vpn = true) then 5 else 4 := Dev.failReason_byte ..
      refine ⟨?_, fun hlate => ?_⟩
      · obtain ⟨hstop, hslot, hcount⟩ := Dev.prFailed_fetch (i := i) h hstreams hdie hst hfor hf hwait
        exact ⟨_, exec_prRespFailed hx, hreason ▸ hstop, hslot, hcount⟩
      · have hf' : (s.toDev.timedOut m t0).fetchWaits q x.vpn = true := Dev.fetchWaits_advance hf t0
        obtain ⟨hmmu, hsealed, hobj⟩ := s.toDev.timedOut_spec m t0
        obtain ⟨hstop, hslot, hcount⟩ := Dev.prFailed_fetch (i := i) h hstreams hdie hst hfor hf' (by rw [hmmu, hwait])
        exact ⟨_, exec_prTimeout_late hx (by rw [hnow]; exact hlate), hreason ▸ hsealed x w ▸ hstop, hslot, hcount.trans (by rw [hobj])⟩
  · exact exec_eq_next rfl (Dev.drainQueue_of_none h 1)
  · refine ⟨fun hfull => exec_eq_next rfl (Dev.drainQueue_full h hr ?_), fun ⟨k, hk, hbusy⟩ => exec_eq_next rfl (Dev.drainQueue_full h hr ?_), fun hfit hfree he => ?_⟩
    · exact Bool.eq_false_iff.mpr fun hroom => absurd (Dev.roomFor_iff.mp hroom).1 (Nat.not_le.mpr hfull)
    · exact Bool.eq_false_iff.mpr fun hroom => absurd (((Dev.roomFor_iff.mp hroom).2 k hk).symm.trans hbusy) nofun
    · exact ⟨_, exec_eq_next rfl rfl, Dev.drainQueue_writes h hr (Dev.roomFor_iff.mpr ⟨hfit, hfree⟩) he⟩

end Sys2Proof.Machine
end

section
/-! PROOFS. Proofs/HomeRecords.lean: what a line's home records, and how a request reaches it (R402, R404, R426). -/

namespace Sys2Proof.Machine

namespace Dev

variable {s t u : Dev} {tag : LineTag} {a : Agent}

/-- The home of a line, as it stands (R369, R398). -/
def homeOf (s : Dev) (tag : LineTag) : Hub := s.hub (s.hubOf (tagLoc tag))

theorem hub_modHub (s : Dev) (h h2 : HubId) (f : Hub → Hub) : (s.modHub h f).hub h2 = if h2 = h then f (s.hub h) else s.hub h2 := hub_setHub ..

theorem homeOf_modHub (s : Dev) (tag : LineTag) (f : Hub → Hub) : (s.modHub (s.hubOf (tagLoc tag)) f).homeOf tag = f (s.homeOf tag) :=
  (hub_modHub ..).trans (if_pos rfl)

@[simp] theorem homeOf_send (s : Dev) (tag : LineTag) (m : Msg) : (s.send m).homeOf tag = s.homeOf tag := rfl
@[simp] theorem homeOf_receive (s : Dev) (tag : LineTag) (m : Msg) : (s.receive m).homeOf tag = s.homeOf tag := rfl
@[simp] theorem homeOf_setDir (s : Dev) (tag : LineTag) (d : Option DirEntry) :
    (s.setDir tag d).homeOf tag = { s.homeOf tag with dir := Table.set none (s.homeOf tag).dir tag d } := homeOf_modHub ..
@[simp] theorem homeOf_setTxn (s : Dev) (tag : LineTag) (x : Option Txn) :
    (s.setTxn tag x).homeOf tag = { s.homeOf tag with txns := Table.set none (s.homeOf tag).txns tag x } := homeOf_modHub ..
@[simp] theorem homeOf_setL3 (s : Dev) (tag : LineTag) (l : Option L3Line) :
    (s.setL3 tag l).homeOf tag = { s.homeOf tag with l3 := Table.set none (s.homeOf tag).l3 tag l } := homeOf_modHub ..
@[simp] theorem homeOf_setHeld (s : Dev) (tag : LineTag) (l : List Held) : (s.setHeld tag l).homeOf tag = { s.homeOf tag with held := l } :=
  homeOf_modHub ..
@[simp] theorem homeOf_takeEpoch (s : Dev) (tag : LineTag) :
    (s.takeEpoch tag).1.homeOf tag = { s.homeOf tag with epoch := (s.homeOf tag).epoch + 1 } := homeOf_modHub ..

theorem dirOf_eq (s : Dev) (tag : LineTag) : s.dirOf tag = Table.get none (s.homeOf tag).dir tag := rfl
theorem txnOf_eq (s : Dev) (tag : LineTag) : s.txnOf tag = Table.get none (s.homeOf tag).txns tag := rfl
theorem l3Line_eq (s : Dev) (tag : LineTag) : s.l3Line tag = Table.get none (s.homeOf tag).l3 tag := rfl
theorem heldOf_eq (s : Dev) (tag : LineTag) : s.heldOf tag = (s.homeOf tag).held := rfl
theorem nextEpoch_eq (s : Dev) (tag : LineTag) : s.nextEpoch tag = (s.homeOf tag).epoch := rfl

/-- From s to t messages have moved, and nothing else has happened. -/
def mailStep (s t : Dev) : Prop := t = { s with mem := { s.mem with msgs := t.mem.msgs, carried := t.mem.carried } }

namespace mailStep

theorem foldl_send {α : Type} (f : α → Msg) (l : List α) (s : Dev) : s.mailStep (l.foldl (fun s a => s.send (f a)) s) := by
  induction l generalizing s with
  | nil => rfl
  | cons a l ih => exact (ih _).trans rfl

variable (h : s.mailStep t)
include h

theorem memOnly : s.memOnly t := by rw [Dev.memOnly, h]
theorem obj : t.obj = s.obj := by rw [h]
theorem agents : t.mem.agents = s.mem.agents := by rw [h]
theorem homeOf (tag : LineTag) : t.homeOf tag = s.homeOf tag := by rw [h]; rfl

end mailStep

theorem msgs_foldl_send {α : Type} (f : α → Msg) (l : List α) (s : Dev) :
    (l.foldl (fun s a => s.send (f a)) s).mem.msgs = s.mem.msgs ++ l.map f := by
  induction l generalizing s with
  | nil => exact (List.append_nil _).symm
  | cons a l ih =>
    refine (ih _).trans ?_
    rw [List.map_cons, ← List.singleton_append, ← List.append_assoc]
    rfl

/-- From s to t the home of a line has at most given a turn to a request that waited, and messages have moved. -/
structure turnStep (s t : Dev) (tag : LineTag) : Prop where
  rest : t = { s with mem := t.mem }
  mem : t.mem = { s.mem with msgs := t.mem.msgs, carried := t.mem.carried, hubs := t.mem.hubs }
  home : t.homeOf tag = { s.homeOf tag with stalled := (t.homeOf tag).stalled, lastAgent := (t.homeOf tag).lastAgent }

namespace turnStep

variable (h : s.turnStep t tag)
include h

theorem memOnly : s.memOnly t := by rw [Dev.memOnly, h.rest]
theorem dirOf : t.dirOf tag = s.dirOf tag := by rw [dirOf_eq, h.home]; rfl
theorem txnOf : t.txnOf tag = s.txnOf tag := by rw [txnOf_eq, h.home]; rfl
theorem heldOf : t.heldOf tag = s.heldOf tag := by rw [heldOf_eq, h.home]; rfl
theorem l3Line : t.l3Line tag = s.l3Line tag := by rw [l3Line_eq, h.home]; rfl
theorem nextEpoch : t.nextEpoch tag = s.nextEpoch tag := by rw [nextEpoch_eq, h.home]; rfl
theorem agents : t.mem.agents = s.mem.agents := by rw [h.mem]
theorem agent (b : Agent) : t.agent b = s.agent b := by rw [Dev.agent, h.agents]; rfl
theorem now : t.now = s.now := by rw [h.rest]
theorem objAt (b c d : Nat) : t.objAt b c d = s.objAt b c d := by rw [h.rest]; rfl

end turnStep

/-- What a home's readiness for a request rests on: its directory and transactions, and the lines that statistics adds hold. -/
theorem lineBusy_of (hd : (t.homeOf tag).dir = (s.homeOf tag).dir) (ht : (t.homeOf tag).txns = (s.homeOf tag).txns) (ha : t.mem.agents = s.mem.agents) :
    t.lineBusy tag = s.lineBusy tag := by
  have hblocked : t.dirBlocked tag = s.dirBlocked tag := by
    unfold homeOf at hd ht
    unfold dirBlocked
    dsimp only
    rw [hd, ht]
  change ((Table.get none (t.homeOf tag).txns tag).isSome || _ || _) = _
  rw [ht, hblocked, ha]
  rfl

theorem turnStep.lineBusy (h : s.turnStep t tag) : t.lineBusy tag = s.lineBusy tag :=
  lineBusy_of (by rw [h.home]) (by rw [h.home]) h.agents

/-- The state in which a home takes an agent's message up: it has arrived, and a request that waited has its turn. -/
def arrived (s : Dev) (m : Msg) (tag : LineTag) (a : Agent) : Dev := (s.receive m).homeTurn tag a

theorem turnStep_arrived (s : Dev) (m : Msg) (tag : LineTag) (a : Agent) : s.turnStep (s.arrived m tag a) tag where
  rest := rfl
  mem := rfl
  home := by
    rw [show (s.arrived m tag a).homeOf tag = _ from homeOf_modHub (s.receive m) tag _, homeOf_receive]
    split <;> rfl

theorem msgs_arrived (s : Dev) (m : Msg) (tag : LineTag) (a : Agent) : (s.arrived m tag a).mem.msgs = removeFirst (·.bare == m) s.mem.msgs := rfl

/-! A request at its home (R402, R404, R426, R427). -/

theorem requestAt_eq {received : Dev → Dev} {k : ReqKind} {by_ : ReqBy} {err : Nat} (hok : okFor by_.isCore tag = true)
    (hr : tagRealm tag = true → (s.realmAt (tagSlot tag)).active = true) (hs : s.scrubbed (tagPa tag) (tagRealm tag) = (false, false)) :
    s.requestAt received tag k by_ err = if s.queueFull tag by_.agents.head? then s.homeStall tag by_.agents.head?
      else (by_.agents.foldl (fun s a => s.homeTurn tag a) (received s)).arrive tag (.request k by_ err) := by
  unfold requestAt
  have hactive : (tagRealm tag && !(s.realmAt (tagSlot tag)).active) = false := by
    cases h : tagRealm tag with
    | true => simp [hr h]
    | false => rfl
  rw [hok, hactive, hs]
  rfl

theorem queueFull_of_free (h : s.lineBusy tag = false) (by_ : Option Agent) : s.queueFull tag by_ = false := by
  rw [queueFull, h]; rfl

theorem arrive_of_free (h : s.lineBusy tag = false) (what : HeldKind) : s.arrive tag what = s.takeHeld ⟨tag, what⟩ :=
  if_neg (by rw [h]; decide)

theorem arrive_of_busy (h : s.lineBusy tag = true) (what : HeldKind) : s.arrive tag what = s.setHeld tag (s.heldOf tag ++ [⟨tag, what⟩]) := if_pos h

theorem okFor_agent (hok : okLine tag = true) (hown : 8 ≤ a.val → tagRealm tag = false) : okFor (ReqBy.agent a).isCore tag = true := by
  unfold okFor ReqBy.isCore
  rw [hok]
  by_cases h : 8 ≤ a.val
  · simp [hown h]
  · simp [h]

variable {m : Msg} {k : ReqKind} {err : Nat}

/-- An agent's request on a line that its home takes requests of is taken up. -/
theorem agentRequest_taken (ha : s.admits tag) (hown : 8 ≤ a.val → tagRealm tag = false) (hb : s.behind m = false) :
    s.agentRequest m tag k a err = (s.arrived m tag a).takeUp tag k (.agent a) err := by
  obtain ⟨hok, hr, hs, hbusy⟩ := ha
  rw [agentRequest, hb, if_neg (by decide), requestAt_eq (okFor_agent hok hown) hr hs, queueFull_of_free hbusy, if_neg (by decide)]
  exact arrive_of_free ((turnStep_arrived s m tag a).lineBusy.trans hbusy) _

theorem lineBusy_of_txn {x : Txn} (h : s.txnOf tag = some x) : s.lineBusy tag = true := by
  change ((s.txnOf tag).isSome || _ || _) = true
  rw [h]
  rfl

theorem queueFull_of_txn {x : Txn} (h : s.txnOf tag = some x) (by_ : Option Agent) :
    s.queueFull tag by_ = decide (1024 ≤ (s.heldOf tag).length + (s.stalledAhead (s.hubOf (tagLoc tag)) by_).length) := by
  rw [queueFull, lineBusy_of_txn h]
  exact Bool.true_and _

/-- An agent's request on a line with an open transaction is held where its home has an entry left, and else waits its turn. -/
theorem agentRequest_behind_txn {x : Txn} (hok : okLine tag = true) (hown : 8 ≤ a.val → tagRealm tag = false)
    (hr : tagRealm tag = true → (s.realmAt (tagSlot tag)).active = true) (hs : s.scrubbed (tagPa tag) (tagRealm tag) = (false, false))
    (hx : s.txnOf tag = some x) (hb : s.behind m = false) :
    s.agentRequest m tag k a err = if 1024 ≤ (s.heldOf tag).length + (s.stalledAhead (s.hubOf (tagLoc tag)) (some a)).length then s.homeStall tag (some a)
      else (s.arrived m tag a).setHeld tag (s.heldOf tag ++ [⟨tag, .request k (.agent a) err⟩]) := by
  rw [agentRequest, hb, if_neg (by decide), requestAt_eq (okFor_agent hok hown) hr hs]
  have harrive := arrive_of_busy ((turnStep_arrived s m tag a).lineBusy.trans (lineBusy_of_txn hx)) (.request k (.agent a) err)
  rw [(turnStep_arrived s m tag a).heldOf] at harrive
  change (if s.queueFull tag (some a) = true then s.homeStall tag (some a) else (s.arrived m tag a).arrive tag _) = _
  rw [harrive, queueFull_of_txn hx]
  simp only [decide_eq_true_eq]

end Dev

/-- A command that requestMsg names is that request at its home. -/
theorem exec_request {c : Instr} {a : Agent} {t : LineTag} {k : ReqKind} {m : Msg} (h : requestMsg c = some (a, t, k, m)) :
    (k = .readShared ∨ k = .readOwn ∨ k = .writeClaim ∨ k = .upgrade) ∧
      ∃ err, ∀ s : State, exec c s = .next { s with toDev := s.agentRequest m t k a err } := by
  unfold requestMsg at h
  split at h
  · cases h; exact ⟨.inl rfl, _, fun _ => rfl⟩
  · cases h; exact ⟨.inr (.inl rfl), _, fun _ => rfl⟩
  · cases h; exact ⟨.inr (.inr (.inl rfl)), _, fun _ => rfl⟩
  · cases h; exact ⟨.inr (.inr (.inr rfl)), _, fun _ => rfl⟩
  · cases h

end Sys2Proof.Machine
end

section
/-! PROOFS. Proofs/HomeSnoops.lean: requests on lines that others hold, and evictions, at their home (O36). -/

namespace Sys2Proof.Machine

namespace Dev

variable {s t u : Dev} {tag : LineTag} {a : Agent} {m : Msg} {k : ReqKind} {err : Nat}

/-- The transaction that a request opens whose snoops leave now (R401, R410). -/
def opened (s : Dev) (tag : LineTag) (k : ReqKind) (by_ : ReqBy) (dest : List Agent) (fromO : Bool) (err : Nat) : Txn where
  epoch := s.nextEpoch tag
  kind := k
  by_ := by_
  awaiting := dest
  fromO := fromO
  deadline := s.homeDeadline
  errSymbols := err

/-- Opening a transaction takes an epoch, records it and sends its snoops, and does no more (R400, R401, R410). -/
structure opens (s t : Dev) (tag : LineTag) (x : Txn) (snoop : SnoopKind) : Prop where
  memOnly : s.memOnly t
  obj : t.obj = s.obj
  agents : t.mem.agents = s.mem.agents
  home : t.homeOf tag = { s.homeOf tag with epoch := (s.homeOf tag).epoch + 1, txns := Table.set none (s.homeOf tag).txns tag (some x) }
  msgs : t.mem.msgs = s.mem.msgs ++ x.awaiting.map (fun b => .snoop snoop b tag x.epoch)

theorem opens_openTxn (s : Dev) (tag : LineTag) (k : ReqKind) (by_ : ReqBy) (snoop : SnoopKind) (dest : List Agent) (fromO : Bool) (err : Nat) :
    s.opens (s.openTxn tag k by_ snoop dest fromO err) tag (s.opened tag k by_ dest fromO err) snoop := by
  have hmail := mailStep.foldl_send (fun b => .snoop snoop b tag (s.nextEpoch tag)) dest
    ((s.takeEpoch tag).1.setTxn tag (some (s.opened tag k by_ dest fromO err)))
  refine ⟨memOnly.trans (t := (s.takeEpoch tag).1.setTxn tag _) rfl hmail.memOnly, hmail.obj, hmail.agents, (hmail.homeOf tag).trans ?_, msgs_foldl_send ..⟩
  rw [homeOf_setTxn, homeOf_takeEpoch]

/-- A request of an agent that is still recorded, if it is an Upgrade, is what it says (R405). -/
theorem effective_eq (h : k = .upgrade → ∃ e, s.dirOf tag = some e ∧ a ∈ e.agents) : s.effective tag k (.agent a) = k := by
  unfold effective
  refine if_neg fun hc => ?_
  obtain ⟨hk, hn⟩ := Bool.and_eq_true_iff.mp hc
  obtain ⟨e, he, ha⟩ := h (of_decide_eq_true hk)
  rw [he] at hn
  have hany : e.agents.any (fun b => decide (ReqBy.agent a = .agent b)) = true := List.any_eq_true.mpr ⟨a, ha, decide_eq_true rfl⟩
  rw [Option.map_some, Option.getD_some, hany] at hn
  exact absurd hn (by decide)

/-- A request whose snoops have someone to go to opens a transaction (R404, R410). -/
theorem takeUp_opens {by_ : ReqBy} (hk : k ≠ .rebuild) (heff : s.effective tag k by_ = k) {snoop : SnoopKind} {dest : List Agent}
    (hplan : snoopPlan k by_ (s.dirOf tag) = (snoop, dest)) (hne : dest ≠ []) :
    s.takeUp tag k by_ err = s.openTxn tag k by_ snoop dest ((s.dirOf tag).any (fun e => e.st = .o)) err := by
  unfold takeUp
  rw [if_neg hk, heff]
  dsimp only
  rw [hplan]
  exact if_neg (by simpa using hne)

/-- A request that finds its home's queue full waits there for an entry, and is counted (R425 to R427). -/
structure stalls (s t : Dev) (tag : LineTag) (a : Agent) : Prop where
  rest : t = { s with obj := t.obj, mem := { s.mem with hubs := t.mem.hubs } }
  waits : a ∈ (t.hub (s.hubOf (tagLoc tag))).stalled
  held : t.heldOf tag = s.heldOf tag
  dir : t.dirOf tag = s.dirOf tag
  count : t.objAt 8 0x112 (hubDie (s.hubOf (tagLoc tag))) = (s.objAt 8 0x112 (hubDie (s.hubOf (tagLoc tag))) + 1) % 2 ^ 64

theorem stall_homeStall (s : Dev) (tag : LineTag) (a : Agent) : s.stalls (s.homeStall tag (some a)) tag a := by
  have hd : hubDie (s.hubOf (tagLoc tag)) < 256 := by unfold hubDie; omega
  have hpool := poolGib_bump s 1 (a := 8) (b := 0x112) (by decide) hd (by decide)
  generalize hb : s.bump 8 0x112 (hubDie (s.hubOf (tagLoc tag))) 1 = v at hpool
  have hhub := hubOf_of_pool hpool (tagLoc tag)
  have hstall : s.homeStall tag (some a) = v.modHub (s.hubOf (tagLoc tag)) (fun x => { x with
      stalled := if x.stalled.contains a then x.stalled else x.stalled ++ [a] }) := by
    rw [← hb]; rfl
  have hhome : (s.homeStall tag (some a)).homeOf tag = { s.homeOf tag with
      stalled := if (s.homeOf tag).stalled.contains a then (s.homeOf tag).stalled else (s.homeOf tag).stalled ++ [a] } := by
    rw [hstall, ← hhub, homeOf_modHub, homeOf, hhub, ← hb]
    rfl
  refine ⟨?_, ?_, ?_, ?_, ?_⟩
  · rw [hstall, ← hb]; rfl
  · have hst : (s.homeStall tag (some a)).hub (s.hubOf (tagLoc tag)) = (s.homeStall tag (some a)).homeOf tag := by
      rw [homeOf, hstall]
      exact congrArg _ hhub.symm
    rw [hst, hhome]
    dsimp only
    split
    · next h => exact List.contains_iff_mem.mp h
    · exact List.mem_append_right _ List.mem_cons_self
  · rw [heldOf_eq, hhome]; rfl
  · rw [dirOf_eq, hhome]; rfl
  · rw [hstall, ← hb]
    exact objAt_bump_self s 1 (by decide) hd

end Dev

/-- Whom a caching agent's request on a recorded line makes its home snoop (R404). -/
theorem snoopPlan_agent {k : ReqKind} (hk : k = .readShared ∨ k = .readOwn ∨ k = .writeClaim ∨ k = .upgrade) (a : Agent) (e : DirEntry) :
    snoopPlan k (.agent a) (some e) = if k = .readShared then (.shared, e.owner.toList)
      else if k = .upgrade then (.inv, e.agents.filter (· ≠ a)) else (.inv, e.agents) := by
  have hfilter : e.agents.filter (fun b => ReqBy.agent a ≠ .agent b) = e.agents.filter (· ≠ a) := by
    congr 1
    funext b
    exact decide_eq_decide.mpr ⟨fun h he => h (he ▸ rfl), fun h he => h (by cases he; rfl)⟩
  rcases hk with rfl | rfl | rfl | rfl
  · rfl
  · rfl
  · rfl
  · exact congrArg (SnoopKind.inv, ·) hfilter

section
open Dev

/-- A request on a line that others hold opens a transaction (R404, R410). -/
theorem homeSnoops_opens (c : Instr) (a : Agent) (t : LineTag) (k : ReqKind) (m : Msg) (e : DirEntry) (s : State) (hc : requestMsg c = some (a, t, k, m))
    (hadm : s.admits t) (hown : 8 ≤ a.val → tagRealm t = false) (hb : s.behind m = false) (hd : s.dirOf t = some e) (hup : k = .upgrade → a ∈ e.agents)
    {plan : SnoopKind × List Agent} (hplan : snoopPlan k (.agent a) (some e) = plan) (hne : plan.2 ≠ []) :
    ∃ u x, exec c s = .next u ∧ u.txnOf t = some x ∧ x.kind = k ∧ x.by_ = .agent a ∧ x.awaiting = plan.2
      ∧ x.epoch = s.nextEpoch t ∧ x.deadline = s.now.toNat + 1000 * s.objAt 8 0x201 0 ∧ u.dirOf t = s.dirOf t
      ∧ u.nextEpoch t = x.epoch + 1
      ∧ u.mem.msgs = removeFirst (·.bare == m) s.mem.msgs ++ plan.2.map (fun b => .snoop plan.1 b t x.epoch) ∧ s.onlyMem u := by
  obtain ⟨hk, err, hreq⟩ := exec_request hc
  have hexec := hreq s
  have hturn := turnStep_arrived s.toDev m t a
  have hdir := hturn.dirOf.trans hd
  rw [agentRequest_taken hadm hown hb, takeUp_opens (snoop := plan.1) (dest := plan.2) (by rintro rfl; simp at hk)
    (effective_eq fun h => ⟨e, hdir, hup h⟩) (by rw [hdir, hplan]) hne] at hexec
  generalize hv : s.toDev.arrived m t a = v at hturn hdir hexec
  generalize (v.dirOf t).any (fun e => e.st = .o) = fromO at hexec
  have ho := opens_openTxn v t k (.agent a) plan.1 plan.2 fromO err
  refine ⟨_, v.opened t k (.agent a) plan.2 fromO err, hexec, ?_, rfl, rfl, rfl, hturn.nextEpoch, ?_, ?_, ?_, ?_, memOnly.onlyMem (hturn.memOnly.trans ho.memOnly)⟩
  · rw [txnOf_eq, ho.home, Table.get_set_same]
  · change v.now.toNat + 1000 * v.objAt 8 0x201 0 = _
    rw [hturn.now, hturn.objAt]
  · rw [dirOf_eq, ho.home]
    exact hturn.dirOf
  · rw [nextEpoch_eq, ho.home]; rfl
  · rw [ho.msgs, ← hv]
    rfl

/-- A request behind an open transaction is held, or waits its turn for an entry (R402, R425 to R427). -/
theorem homeSnoops_waits (c : Instr) (a : Agent) (t : LineTag) (k : ReqKind) (m : Msg) (x : Txn) (s : State) (hc : requestMsg c = some (a, t, k, m))
    (hok : okLine t = true) (hown : 8 ≤ a.val → tagRealm t = false) (hr : tagRealm t = true → (s.realmAt (tagSlot t)).active = true)
    (hs : s.scrubbed (tagPa t) (tagRealm t) = (false, false)) (hx : s.txnOf t = some x) (hb : s.behind m = false) :
    let ahead := s.stalledAhead (s.hubOf (tagLoc t)) (some a)
    ((s.heldOf t).length + ahead.length < 1024 → ∃ u err, exec c s = .next u ∧ u.heldOf t = s.heldOf t ++ [⟨t, .request k (.agent a) err⟩] ∧ u.txnOf t = some x
      ∧ u.dirOf t = s.dirOf t ∧ u.mem.msgs = removeFirst (·.bare == m) s.mem.msgs ∧ s.onlyMem u) ∧
    (1024 ≤ (s.heldOf t).length + ahead.length → ∃ u, exec c s = .next u ∧ u = { s with obj := u.obj, mem := { s.mem with hubs := u.mem.hubs } }
      ∧ a ∈ (u.hub (s.hubOf (tagLoc t))).stalled ∧ u.heldOf t = s.heldOf t ∧ u.dirOf t = s.dirOf t
      ∧ u.objAt 8 0x112 (hubDie (s.hubOf (tagLoc t))) = (s.objAt 8 0x112 (hubDie (s.hubOf (tagLoc t))) + 1) % 2 ^ 64) := by
  intro ahead
  obtain ⟨hk, err, hreq⟩ := exec_request hc
  have hexec := hreq s
  rw [agentRequest_behind_txn hok hown hr hs hx hb] at hexec
  constructor
  · intro hroom
    have hturn := turnStep_arrived s.toDev m t a
    have hhome := homeOf_setHeld (s.toDev.arrived m t a) t (s.heldOf t ++ [⟨t, .request k (.agent a) err⟩])
    rw [if_neg (Nat.not_le.mpr hroom)] at hexec
    refine ⟨_, err, hexec, ?_, ?_, ?_, rfl, rfl⟩
    · rw [heldOf_eq, hhome]
    · rw [txnOf_eq, hhome]
      exact hturn.txnOf.trans hx
    · rw [dirOf_eq, hhome]
      exact hturn.dirOf
  · intro hfull
    have hst := stall_homeStall s.toDev t a
    exact ⟨_, (hexec).trans (by rw [if_pos hfull]), congrArg (fun d : Dev => ({ s with toDev := d } : State)) hst.rest, hst.waits, hst.held, hst.dir, hst.count⟩

end

/-! Evictions (R402, R404, R405). -/

theorem DirEntry.mem_agents {e : DirEntry} {b : Agent} : b ∈ e.agents ↔ e.owner = some b ∨ b ∈ e.sharers := by
  unfold DirEntry.agents
  simp only [List.mem_append, Option.mem_toList, List.mem_filter, decide_eq_true_eq]
  tauto

/-- What an agent's leaving makes of a directory entry that it does not empty (R404). -/
def DirEntry.without (e : DirEntry) (a : Agent) : DirEntry :=
  let owner := if e.owner = some a then none else e.owner
  { e with owner := owner, sharers := e.sharers.filter (· ≠ a), st := if owner.isNone then .s else e.st }

theorem DirEntry.mem_agents_without {e : DirEntry} {a b : Agent} : b ∈ (e.without a).agents ↔ b ≠ a ∧ b ∈ e.agents := by
  rw [mem_agents, mem_agents]
  unfold without
  simp only [List.mem_filter, decide_eq_true_eq]
  by_cases ho : e.owner = some a
  · rw [if_pos ho, ho]
    simp only [reduceCtorEq, false_or, Option.some.injEq]
    exact ⟨fun h => ⟨h.2, .inr h.1⟩, fun h => ⟨h.2.resolve_left fun he => h.1 he.symm, h.1⟩⟩
  · rw [if_neg ho]
    constructor
    · rintro (h | h)
      · exact ⟨fun he => ho (he ▸ h), .inl h⟩
      · exact ⟨h.2, .inr h.1⟩
    · rintro ⟨hb, h | h⟩
      · exact .inl h
      · exact .inr ⟨h, hb⟩

theorem DirEntry.without_eq_nil {e : DirEntry} {a : Agent} : (e.without a).agents = [] ↔ e.agents.filter (· ≠ a) = [] := by
  simp only [List.eq_nil_iff_forall_not_mem, mem_agents_without, List.mem_filter, decide_eq_true_eq, and_comm]

theorem DirEntry.agents_eq_nil {e : DirEntry} : e.agents = [] ↔ (e.owner.isNone && e.sharers.isEmpty) = true := by
  unfold agents
  cases ho : e.owner with
  | none => simp
  | some b => simp

namespace Dev

variable {s t u : Dev} {tag : LineTag} {a : Agent} {m : Msg}

/-- An agent that leaves a recorded line leaves its entry, which goes with its last agent (R404). -/
theorem dirRemove_of_some {e : DirEntry} (h : s.dirOf tag = some e) :
    s.dirRemove tag a = s.setDir tag (if (e.without a).agents = [] then none else some (e.without a)) := by
  unfold dirRemove
  rw [h]
  dsimp only
  by_cases hn : (e.without a).agents = []
  · rw [if_pos hn]
    exact if_pos (DirEntry.agents_eq_nil.mp hn)
  · rw [if_neg hn]
    exact if_neg fun hc => hn (DirEntry.agents_eq_nil.mpr hc)

theorem dirOf_setDir (s : Dev) (tag : LineTag) (d : Option DirEntry) : (s.setDir tag d).dirOf tag = d := by
  rw [dirOf_eq, homeOf_setDir, Table.get_set_same]

/-- From s to t a home has moved lines between its L3, its write-combining buffer and DRAM, and counted it (R381 to R392). -/
structure ownData (s t : Dev) : Prop where
  memOnly : s.memOnly t
  agents : t.mem.agents = s.mem.agents
  msgs : t.mem.msgs = s.mem.msgs
  pool : t.poolGib = s.poolGib
  hub : ∀ h, t.hub h = { s.hub h with l3 := (t.hub h).l3, wcb := (t.hub h).wcb }

namespace ownData

theorem refl (s : Dev) : s.ownData s := ⟨rfl, rfl, rfl, rfl, fun _ => rfl⟩

theorem trans (h1 : s.ownData t) (h2 : t.ownData u) : s.ownData u where
  memOnly := h1.memOnly.trans h2.memOnly
  agents := h2.agents.trans h1.agents
  msgs := h2.msgs.trans h1.msgs
  pool := h2.pool.trans h1.pool
  hub h := by rw [h2.hub h, h1.hub h]

theorem ite {c : Prop} [Decidable c] (h1 : s.ownData t) (h2 : s.ownData u) : s.ownData (if c then t else u) := by
  split <;> assumption

theorem bump7 (s : Dev) (tag : LineTag) {idx : Nat} (hi : idx < 0x180) (n : Nat) : s.ownData (s.bump 7 idx (s.stackOf (tagLoc tag)) n) where
  memOnly := rfl
  agents := rfl
  msgs := rfl
  pool := poolGib_setObj fun h => by
    have hlt := s.stackOf_lt tag
    unfold objAddr at h
    generalize s.stackOf (tagLoc tag) = k at hlt h
    omega
  hub _ := rfl

theorem bumpHub (s : Dev) {idx : Nat} (hi : idx < 65536) (h : HubId) (n : Nat) : s.ownData (s.bump 8 idx (hubDie h) n) where
  memOnly := rfl
  agents := rfl
  msgs := rfl
  pool := poolGib_bump s n hi (by unfold hubDie; omega) (by decide)
  hub _ := rfl

theorem modHub (s : Dev) (h : HubId) {f : Hub → Hub} (hf : ∀ x, f x = { x with l3 := (f x).l3, wcb := (f x).wcb }) : s.ownData (s.modHub h f) where
  memOnly := rfl
  agents := rfl
  msgs := rfl
  pool := rfl
  hub h2 := by
    rw [hub_modHub]
    split
    · next he => rw [he]; exact hf _
    · rfl

theorem stamp (s : Dev) : s.ownData s.stamp.1 := ⟨rfl, rfl, rfl, rfl, fun _ => rfl⟩
theorem setL3 (s : Dev) (tag : LineTag) (l : Option L3Line) : s.ownData (s.setL3 tag l) := modHub _ _ fun _ => rfl
theorem setWcb (s : Dev) (tag : LineTag) (w : Option WcbLine) : s.ownData (s.setWcb tag w) := modHub _ _ fun _ => rfl

theorem dramWrite (s : Dev) (tag : LineTag) (d : LineData) (p : Bool) : s.ownData (s.dramWrite tag d p) :=
  trans (t := s.modMem _) ⟨rfl, rfl, rfl, rfl, fun _ => rfl⟩ (bump7 (s.modMem _) tag (by decide) 1)

theorem l3Put (s : Dev) (tag : LineTag) (d : LineData) (y p : Bool) : s.ownData (s.l3Put tag d y p) := by
  unfold Dev.l3Put
  refine trans ?_ (setL3 ..)
  refine ite (stamp s) ?_
  split
  · exact stamp s
  · exact (stamp s).trans (trans (ite ((dramWrite ..).trans (setWcb ..)) (refl _)) (setL3 ..))

variable (h : s.ownData t)
include h

theorem homeOf (tag : LineTag) : t.homeOf tag = { s.homeOf tag with l3 := (t.homeOf tag).l3, wcb := (t.homeOf tag).wcb } := by
  have hh := hubOf_of_pool h.pool (tagLoc tag)
  unfold Dev.homeOf
  rw [hh]
  exact h.hub _

theorem dirOf (tag : LineTag) : t.dirOf tag = s.dirOf tag := by rw [dirOf_eq, h.homeOf]; rfl
theorem txnOf (tag : LineTag) : t.txnOf tag = s.txnOf tag := by rw [txnOf_eq, h.homeOf]; rfl
theorem heldOf (tag : LineTag) : t.heldOf tag = s.heldOf tag := by rw [heldOf_eq, h.homeOf]; rfl
theorem nextEpoch (tag : LineTag) : t.nextEpoch tag = s.nextEpoch tag := by rw [nextEpoch_eq, h.homeOf]; rfl
theorem agent (b : Agent) : t.agent b = s.agent b := by unfold Dev.agent; rw [h.agents]

end ownData

/-- A line put in the L3 is found there as it was put. -/
theorem l3Line_l3Put (s : Dev) (tag : LineTag) (d : LineData) (y p : Bool) :
    ∃ l, (s.l3Put tag d y p).l3Line tag = some l ∧ l.data = d ∧ l.dirty = y ∧ l.poison = p := by
  refine ⟨⟨d, y, p, s.stamp.2⟩, ?_, rfl, rfl, rfl⟩
  rw [l3Line_eq]
  unfold l3Put
  dsimp only
  rw [homeOf_setL3]
  dsimp only
  rw [Table.get_set_same]

/-- An eviction of a line that its home takes messages of is taken. -/
theorem evictionAt_taken {what : HeldKind} (ha : s.admits tag) (hb : s.behind m = false) :
    s.evictionAt m tag what = (s.arrived m tag m.agent).takeHeld ⟨tag, what⟩ := by
  obtain ⟨hok, hr, hs, hbusy⟩ := ha
  have hactive : (tagRealm tag && !(s.realmAt (tagSlot tag)).active) = false := by
    cases h : tagRealm tag with
    | true => simp [hr h]
    | false => rfl
  unfold evictionAt
  rw [hok, hb, hactive, hs, queueFull_of_free hbusy]
  exact arrive_of_free ((turnStep_arrived s m tag m.agent).lineBusy.trans hbusy) _

theorem takeWriteBack_eq (s : Dev) (tag : LineTag) (a : Agent) (data : LineData) (p : Bool) :
    s.takeWriteBack tag a data p = if (s.takeEpoch tag).1.recorded tag a then
      (((s.takeEpoch tag).1.l3Put tag data true ((s.takeEpoch tag).1.markedBack tag p
        ((Table.get none ((s.takeEpoch tag).1.agent a).evb tag).any (fun v => wholeWritten a v.written)))).dirRemove tag a).send (.wbAck a tag (s.nextEpoch tag))
      else (s.takeEpoch tag).1.send (.wbSuperseded a tag (s.nextEpoch tag)) := rfl

theorem takeEvictClean_eq (s : Dev) (tag : LineTag) (a : Agent) :
    s.takeEvictClean tag a = if ((((s.takeEpoch tag).1.dirOf tag).map DirEntry.agents).getD []).contains a then (s.takeEpoch tag).1.dirRemove tag a
      else (s.takeEpoch tag).1.send (.evictAck a tag (s.nextEpoch tag)) := rfl

/-- A WriteBack of the recorded owner goes to the L3, and its sender leaves the entry (R405, R415). -/
theorem takeWriteBack_owner {data : LineData} {p : Bool} {e : DirEntry} (hd : s.dirOf tag = some e) (ho : e.owner = some a) :
    ∃ v : Dev, (s.takeEpoch tag).1.ownData v ∧ s.takeWriteBack tag a data p
        = (v.setDir tag (if (e.without a).agents = [] then none else some (e.without a))).send (.wbAck a tag (s.nextEpoch tag))
      ∧ ∃ l, v.l3Line tag = some l ∧ l.data = data ∧ l.dirty = true
        ∧ l.poison = (p || (e.poison && !(Table.get none (s.agent a).evb tag).any (fun v => wholeWritten a v.written))) := by
  generalize hw : (Table.get none (s.agent a).evb tag).any (fun v => wholeWritten a v.written) = w
  generalize hv : (s.takeEpoch tag).1 = s1
  have hd1 : s1.dirOf tag = some e := by
    rw [← hv, dirOf_eq, homeOf_takeEpoch]
    exact hd
  have hrec : s1.recorded tag a = true := by
    change (match s1.dirOf tag with | some d => decide (d.owner = some a) | none => false) = true
    rw [hd1]
    exact decide_eq_true ho
  have hmark : s1.markedBack tag p w = (p || (e.poison && !w)) := by
    rw [markedBack, hd1]
    rfl
  have hput := ownData.l3Put s1 tag data true (p || (e.poison && !w))
  refine ⟨_, hput, ?_, l3Line_l3Put ..⟩
  have hw1 : (Table.get none (s1.agent a).evb tag).any (fun v => wholeWritten a v.written) = w := by
    rw [← hv]
    exact hw
  rw [takeWriteBack_eq, hv, hrec, hw1, hmark, if_pos rfl, dirRemove_of_some ((hput.dirOf tag).trans hd1)]

/-- A WriteBack of another than the recorded owner is superseded (R405). -/
theorem takeWriteBack_other {data : LineData} {p : Bool} (h : ∀ e, s.dirOf tag = some e → e.owner ≠ some a) :
    s.takeWriteBack tag a data p = (s.takeEpoch tag).1.send (.wbSuperseded a tag (s.nextEpoch tag)) := by
  have hdir : (s.takeEpoch tag).1.dirOf tag = s.dirOf tag := by
    rw [dirOf_eq, homeOf_takeEpoch]
    rfl
  have hrec : (s.takeEpoch tag).1.recorded tag a = false := by
    change (match (s.takeEpoch tag).1.dirOf tag with | some d => decide (d.owner = some a) | none => false) = false
    rw [hdir]
    cases he : s.dirOf tag with
    | none => rfl
    | some e => exact decide_eq_false (h e he)
  rw [takeWriteBack_eq, hrec]
  exact if_neg (by decide)

/-- An EvictClean of an agent that is recorded has it leave the entry; any other is acknowledged (R404, R405). -/
theorem takeEvictClean_recorded {e : DirEntry} (hd : s.dirOf tag = some e) (ha : a ∈ e.agents) :
    s.takeEvictClean tag a = (s.takeEpoch tag).1.setDir tag (if (e.without a).agents = [] then none else some (e.without a)) := by
  have hd1 : (s.takeEpoch tag).1.dirOf tag = some e := by
    rw [dirOf_eq, homeOf_takeEpoch]
    exact hd
  rw [← dirRemove_of_some hd1, takeEvictClean_eq]
  refine if_pos ?_
  rw [hd1]
  exact List.contains_iff_mem.mpr ha

theorem takeEvictClean_other (h : ∀ e, s.dirOf tag = some e → a ∉ e.agents) :
    s.takeEvictClean tag a = (s.takeEpoch tag).1.send (.evictAck a tag (s.nextEpoch tag)) := by
  have hdir : (s.takeEpoch tag).1.dirOf tag = s.dirOf tag := by
    rw [dirOf_eq, homeOf_takeEpoch]
    rfl
  rw [takeEvictClean_eq]
  refine if_neg ?_
  rw [hdir]
  cases he : s.dirOf tag with
  | none => simp
  | some e => exact fun hc => h e he (List.contains_iff_mem.mp hc)

end Dev

section
open Dev

variable {a : Agent} {t : LineTag} {s : State}

theorem exec_writeBack {data : List Byte} {p : Bool} (hlen : data.length = 128) (ha : s.admits t) (hb : s.behind (.writeBack a t data p) = false) :
    exec (.writeBack a t data p) s = .next { s with toDev := (s.arrived (.writeBack a t data p) t a).takeWriteBack t a data p } :=
  exec_eq_next (c := .writeBack a t data p) rfl ((if_pos hlen).trans (evictionAt_taken ha hb))

theorem exec_evictClean (ha : s.admits t) (hb : s.behind (.evictClean a t) = false) :
    exec (.evictClean a t) s = .next { s with toDev := (s.arrived (.evictClean a t) t a).takeEvictClean t a } :=
  exec_eq_next (c := .evictClean a t) rfl (evictionAt_taken ha hb)

theorem homeSnoops_writeBack_owner {data : List Byte} {p : Bool} {e : DirEntry} (ha : s.admits t) (hlen : data.length = 128)
    (hb : s.behind (.writeBack a t data p) = false) (hd : s.dirOf t = some e) (ho : e.owner = some a) (hns : a ∉ e.sharers) :
    ∃ u, exec (.writeBack a t data p) s = .next u ∧ s.onlyMem u
      ∧ (∃ l, u.l3Line t = some l ∧ l.data = data ∧ l.dirty = true
          ∧ l.poison = (p || (e.poison && !(Table.get none (s.agent a).evb t).any (fun v => wholeWritten a v.written)))) ∧ .wbAck a t (s.nextEpoch t) ∈ u.mem.msgs
      ∧ (e.sharers = [] → u.dirOf t = none) ∧ (e.sharers ≠ [] → u.dirSays t .s none e.sharers) := by
  have hexec := exec_writeBack hlen ha hb
  have hturn := turnStep_arrived s.toDev (.writeBack a t data p) t a
  generalize s.toDev.arrived (.writeBack a t data p) t a = v at hexec hturn
  obtain ⟨w, hown, htake, l, hl, hdata, hdirty, hpoison⟩ := takeWriteBack_owner (data := data) (p := p) (hturn.dirOf.trans hd) ho
  have hsharers : e.sharers.filter (· ≠ a) = e.sharers := List.filter_eq_self.mpr fun b hmem => decide_eq_true fun he => hns (he ▸ hmem)
  have hwithout : e.without a = { e with owner := none, sharers := e.sharers, st := .s } := by
    unfold DirEntry.without
    rw [if_pos ho, hsharers]
    rfl
  have hagents : (e.without a).agents = e.sharers := by
    rw [hwithout]
    exact List.filter_eq_self.mpr fun _ _ => decide_eq_true (by simp)
  rw [hagents, hwithout] at htake
  rw [htake] at hexec
  rw [hturn.agent] at hpoison
  refine ⟨_, hexec, memOnly.onlyMem (hturn.memOnly.trans (memOnly.trans (t := (v.takeEpoch t).1) rfl (hown.memOnly.trans rfl))),
    ⟨l, ?_, hdata, hdirty, hpoison⟩, ?_, fun hnil => ?_, fun hne => ?_⟩
  · rw [l3Line_eq, homeOf_send, homeOf_setDir]
    exact hl
  · rw [hturn.nextEpoch]
    exact List.mem_append_right _ List.mem_cons_self
  · rw [if_pos hnil]
    exact dirOf_setDir ..
  · rw [if_neg hne]
    exact ⟨_, dirOf_setDir .., rfl, rfl, rfl⟩

theorem homeSnoops_writeBack_other {data : List Byte} {p : Bool} (ha : s.admits t) (hlen : data.length = 128)
    (hb : s.behind (.writeBack a t data p) = false) (ho : ∀ e, s.dirOf t = some e → e.owner ≠ some a) :
    ∃ u, exec (.writeBack a t data p) s = .next u ∧ s.onlyMem u ∧ u.l3Line t = s.l3Line t
      ∧ u.dirOf t = s.dirOf t ∧ .wbSuperseded a t (s.nextEpoch t) ∈ u.mem.msgs := by
  have hexec := exec_writeBack hlen ha hb
  have hturn := turnStep_arrived s.toDev (.writeBack a t data p) t a
  generalize s.toDev.arrived (.writeBack a t data p) t a = v at hexec hturn
  rw [takeWriteBack_other fun e he => ho e (hturn.dirOf.symm.trans he)] at hexec
  refine ⟨_, hexec, memOnly.onlyMem (hturn.memOnly.trans rfl), ?_, ?_, ?_⟩
  · rw [l3Line_eq, homeOf_send, homeOf_takeEpoch]
    exact hturn.l3Line
  · rw [dirOf_eq, homeOf_send, homeOf_takeEpoch]
    exact hturn.dirOf
  · rw [hturn.nextEpoch]
    exact List.mem_append_right _ List.mem_cons_self

theorem homeSnoops_evictClean_other (ha : s.admits t) (hb : s.behind (.evictClean a t) = false) (hn : ∀ e, s.dirOf t = some e → a ∉ e.agents) :
    ∃ u, exec (.evictClean a t) s = .next u ∧ u.dirOf t = s.dirOf t ∧ .evictAck a t (s.nextEpoch t) ∈ u.mem.msgs ∧ s.onlyMem u := by
  have hexec := exec_evictClean ha hb
  have hturn := turnStep_arrived s.toDev (.evictClean a t) t a
  generalize s.toDev.arrived (.evictClean a t) t a = v at hexec hturn
  rw [takeEvictClean_other fun e he => hn e (hturn.dirOf.symm.trans he)] at hexec
  refine ⟨_, hexec, ?_, ?_, memOnly.onlyMem (hturn.memOnly.trans rfl)⟩
  · rw [dirOf_eq, homeOf_send, homeOf_takeEpoch]
    exact hturn.dirOf
  · rw [hturn.nextEpoch]
    exact List.mem_append_right _ List.mem_cons_self

theorem homeSnoops_evictClean_recorded {e : DirEntry} (ha : s.admits t) (hb : s.behind (.evictClean a t) = false) (hd : s.dirOf t = some e) (hmem : a ∈ e.agents) :
    ∃ u, exec (.evictClean a t) s = .next u ∧ s.onlyMem u
      ∧ (e.agents.filter (· ≠ a) = [] → u.dirOf t = none)
      ∧ (e.agents.filter (· ≠ a) ≠ [] → ∃ e', u.dirOf t = some e' ∧ a ∉ e'.agents ∧ ∀ b, b ≠ a → (b ∈ e'.agents ↔ b ∈ e.agents)) := by
  have hexec := exec_evictClean ha hb
  have hturn := turnStep_arrived s.toDev (.evictClean a t) t a
  generalize s.toDev.arrived (.evictClean a t) t a = v at hexec hturn
  rw [takeEvictClean_recorded (hturn.dirOf.trans hd) hmem] at hexec
  refine ⟨_, hexec, memOnly.onlyMem (hturn.memOnly.trans rfl), fun hnil => ?_, fun hne => ⟨e.without a, ?_, ?_, fun b hb => ?_⟩⟩
  · rw [if_pos (DirEntry.without_eq_nil.mpr hnil)]
    exact dirOf_setDir ..
  · rw [if_neg fun hc => hne (DirEntry.without_eq_nil.mp hc)]
    exact dirOf_setDir ..
  · exact fun hc => (DirEntry.mem_agents_without.mp hc).1 rfl
  · exact DirEntry.mem_agents_without.trans (and_iff_right hb)

end

/-- Settles O36: a request whose snoops go to others opens a transaction, one behind a transaction is held or waits for an entry, and an eviction
moves its sender out of the entry or is answered as superseded or acknowledged. -/
theorem homeSnoops : Obligations.HomeSnoops := by
  unfold Obligations.HomeSnoops
  refine ⟨fun c a t k m e s hc hadm hown hb hd hup => ?_, fun c a t k m x s hc hok hown hr hs hx hb => homeSnoops_waits c a t k m x s hc hok hown hr hs hx hb,
    fun a t data p s ha hlen hb => ⟨fun e hd ho hns => homeSnoops_writeBack_owner ha hlen hb hd ho hns, fun ho => homeSnoops_writeBack_other ha hlen hb ho⟩,
    fun a t s ha hb => ⟨fun hn => homeSnoops_evictClean_other ha hb hn, fun e hd hmem => homeSnoops_evictClean_recorded ha hb hd hmem⟩⟩
  intro plan hne
  obtain ⟨hk, -⟩ := exec_request hc
  exact homeSnoops_opens c a t k m e s hc hadm hown hb hd hup (snoopPlan_agent hk a e) hne

end Sys2Proof.Machine
end

section
/-! PROOFS. Proofs/AgentRequests.lean: a caching agent's requests, their entries and their answers (R331, R403, R425, R426). -/

namespace Sys2Proof.Machine

namespace Dev

variable {s t u : Dev} {tag : LineTag} {a : Agent} {w : Waiting}

theorem waitingAt_setLine (s : Dev) (a b : Agent) (tag x : LineTag) (l : Option CacheLine) : (s.setLine a tag l).waitingAt b x = s.waitingAt b x := by
  have h := agent_modAgent s a b fun y => { y with lines := Table.set none y.lines tag l }
  refine (congrArg (fun y : CacheAgent => Table.get none y.waiting x) h).trans ?_
  split
  · next he => rw [he]; rfl
  · rfl

theorem parked_setLine (s : Dev) (a b : Agent) (tag : LineTag) (l : Option CacheLine) : ((s.setLine a tag l).agent b).parked = (s.agent b).parked := by
  have h := agent_modAgent s a b fun y => { y with lines := Table.set none y.lines tag l }
  refine (congrArg CacheAgent.parked h).trans ?_
  split
  · next he => rw [he]
  · rfl

theorem waitingAt_setWaiting (s : Dev) (a : Agent) (tag : LineTag) (w : Option Waiting) : (s.setWaiting a tag w).waitingAt a tag = w := by
  have h := agent_modAgent s a a fun y => { y with waiting := Table.set none y.waiting tag w }
  rw [if_pos rfl] at h
  refine (congrArg (fun y : CacheAgent => Table.get none y.waiting tag) h).trans ?_
  dsimp only
  rw [Table.get_set_same]

theorem parked_setWaiting (s : Dev) (a b : Agent) (tag : LineTag) (w : Option Waiting) : ((s.setWaiting a tag w).agent b).parked = (s.agent b).parked := by
  have h := agent_modAgent s a b fun y => { y with waiting := Table.set none y.waiting tag w }
  refine (congrArg CacheAgent.parked h).trans ?_
  split
  · next he => rw [he]
  · rfl

theorem evb_entryTaken (x : CacheAgent) (who : Nat) (tag : LineTag) : (entryTaken x who tag).evb = x.evb := by
  unfold entryTaken
  split <;> rfl

/-- What waiting for an entry makes of an agent (R331). -/
def entryJoined (x : CacheAgent) (who : Nat) (tag : LineTag) : CacheAgent :=
  if x.entryWait.contains (who, tag) then x else { x with entryWait := x.entryWait ++ [(who, tag)] }

theorem entryJoined_keeps (x : CacheAgent) (who : Nat) (tag : LineTag) :
    (entryJoined x who tag).lines = x.lines ∧ (entryJoined x who tag).evb = x.evb ∧ (entryJoined x who tag).parked = x.parked := by
  unfold entryJoined
  split <;> exact ⟨rfl, rfl, rfl⟩

/-- The state in which a requester has found no entry and waits for one (R331, R427). -/
def entryWaits (s : Dev) (a : Agent) (who : Nat) (tag : LineTag) : Dev :=
  let v := s.modAgent a fun x => entryJoined x who tag
  (if (s.entriesFree a tag).2 = 0 then v.bump 8 0x105 a.val 1 else v).bump 8 0x102 a.val 1

theorem takeEntry_of_full {who : Nat} (h : ¬(s.entryAhead a who).length < min (s.entriesFree a tag).1 (s.entriesFree a tag).2) :
    s.takeEntry a who tag = (s.entryWaits a who tag, false) := by
  unfold takeEntry
  dsimp only
  rw [if_neg h]
  rfl

theorem msgs_entryWaits (s : Dev) (a : Agent) (who : Nat) (tag : LineTag) : (s.entryWaits a who tag).mem.msgs = s.mem.msgs :=
  (apply_ite (fun v : Dev => v.mem.msgs) ..).trans (ite_self _)

theorem parked_entryWaits (s : Dev) (a : Agent) (who : Nat) (tag : LineTag) : ((s.entryWaits a who tag).agent a).parked = (s.agent a).parked := by
  refine (apply_ite (fun v : Dev => (v.agent a).parked) ..).trans ((ite_self _).trans ?_)
  have h := agent_modAgent s a a fun x => entryJoined x who tag
  rw [if_pos rfl] at h
  exact (congrArg CacheAgent.parked h).trans (entryJoined_keeps ..).2.2

/-- From s to t an agent's requests and its waiting have changed, and counters; no cache line, no eviction buffer and no other agent has. -/
structure asking (s t : Dev) (a : Agent) : Prop where
  memOnly : s.memOnly t
  lines : ∀ b x, t.lineAt b x = s.lineAt b x
  evb : ∀ b, (t.agent b).evb = (s.agent b).evb

namespace asking

theorem refl (s : Dev) (a : Agent) : s.asking s a := ⟨rfl, fun _ _ => rfl, fun _ => rfl⟩

theorem trans (h1 : s.asking t a) (h2 : t.asking u a) : s.asking u a where
  memOnly := h1.memOnly.trans h2.memOnly
  lines b x := (h2.lines b x).trans (h1.lines b x)
  evb b := (h2.evb b).trans (h1.evb b)

theorem ite {c : Prop} [Decidable c] (h1 : s.asking t a) (h2 : s.asking u a) : s.asking (if c then t else u) a := by
  split <;> assumption

theorem bump (s : Dev) (a : Agent) (i j k n : Nat) : s.asking (s.bump i j k n) a := ⟨rfl, fun _ _ => rfl, fun _ => rfl⟩

theorem send (s : Dev) (a : Agent) (m : Msg) : s.asking (s.send m) a := ⟨rfl, fun _ _ => rfl, fun _ => rfl⟩

theorem modAgent (s : Dev) (a : Agent) {f : CacheAgent → CacheAgent} (hf : ∀ x, (f x).lines = x.lines ∧ (f x).evb = x.evb) : s.asking (s.modAgent a f) a where
  memOnly := rfl
  lines b x := by
    rw [lineAt, agent_modAgent]
    split
    · next he => rw [(hf _).1, he]; rfl
    · rfl
  evb b := by
    rw [agent_modAgent]
    split
    · next he => rw [(hf _).2, he]
    · rfl

theorem setWaiting (s : Dev) (a : Agent) (tag : LineTag) (w : Option Waiting) : s.asking (s.setWaiting a tag w) a :=
  modAgent s a fun _ => ⟨rfl, rfl⟩

theorem takeEntry (s : Dev) (a : Agent) (who : Nat) (tag : LineTag) : s.asking (s.takeEntry a who tag).1 a := by
  by_cases h : (s.entryAhead a who).length < min (s.entriesFree a tag).1 (s.entriesFree a tag).2
  · rw [takeEntry_of_free h]
    exact modAgent (f := fun x => entryTaken x who tag) s a fun x => ⟨lines_entryTaken x who tag, evb_entryTaken x who tag⟩
  · rw [takeEntry_of_full h]
    exact trans (modAgent (f := fun x => entryJoined x who tag) s a fun x =>
      ⟨(entryJoined_keeps x who tag).1, (entryJoined_keeps x who tag).2.1⟩) (trans (ite (bump ..) (refl ..)) (bump ..))

theorem ask (s : Dev) (a : Agent) (tag : LineTag) (w : Waiting) : s.asking (s.ask a tag w) a := by
  have hentry := takeEntry s a localNo tag
  unfold Dev.ask
  refine ite (refl s a) ?_
  split
  · next v hv =>
    rw [hv] at hentry
    exact hentry.trans (modAgent _ a fun _ => ⟨rfl, rfl⟩)
  · next v hv =>
    rw [hv] at hentry
    exact hentry.trans (trans (ite (bump ..) (refl ..)) ((setWaiting ..).trans (send ..)))

theorem answered (s : Dev) (a : Agent) (tag : LineTag) : s.asking (s.answered a tag) a := by
  unfold Dev.answered
  dsimp only
  split
  · exact setWaiting ..
  · next x y rest _ =>
    have htaken := modAgent (f := fun z => { z with parked := rest }) (s.setWaiting a tag none) a fun _ => ⟨rfl, rfl⟩
    exact (setWaiting s a tag none).trans (htaken.trans (ite (refl ..) (ask ..)))

end asking

theorem waitingAt_answered (h : (s.agent a).parked = []) : (s.answered a tag).waitingAt a tag = none := by
  have hp := (parked_setWaiting s a a tag none).trans h
  unfold answered
  dsimp only
  rw [hp]
  exact waitingAt_setWaiting ..

/-! What asking does (R331, R403, R425, R426). -/

/-- The state in which a local request has taken its entry and, if it is a miss, counted it (R331). -/
def entered (s : Dev) (a : Agent) (tag : LineTag) (w : Waiting) : Dev :=
  let v := s.modAgent a fun x => if x.entryWait.any (fun e => e.1 = localNo)
    then { x with entryWait := x.entryWait.filter (· ≠ (localNo, tag)), entryLast := localNo } else x
  let miss : Bool := match w with
    | .forUpgrade .. => false
    | _ => true
  if miss && a.val < 8 then v.bump 8 0x101 a.val 1 else v

theorem ask_entered (h : s.entryFor a tag) : s.ask a tag w = ((s.entered a tag w).setWaiting a tag (some w)).send (w.request a tag) := by
  unfold ask
  rw [if_neg (by rw [h.1]; decide), takeEntry_of_free h.2]
  rfl

theorem msgs_entered (s : Dev) (a : Agent) (tag : LineTag) (w : Waiting) : (s.entered a tag w).mem.msgs = s.mem.msgs :=
  (apply_ite (fun v : Dev => v.mem.msgs) ..).trans (ite_self _)

/-- A local request whose agent has an entry for it asks the line's home (R403). -/
theorem ask_of_entry (h : s.entryFor a tag) : (s.ask a tag w).waitingAt a tag = some w ∧ (s.ask a tag w).mem.msgs = s.mem.msgs ++ [w.request a tag] := by
  rw [ask_entered h]
  exact ⟨waitingAt_setWaiting .., congrArg (· ++ [w.request a tag]) (msgs_entered s a tag w)⟩

/-- A local request that finds no entry waits behind those that wait already (R426). -/
theorem ask_of_full (hp : (s.agent a).parked.any (fun e => e.1 = tag) = false) (h : ¬s.entryFor a tag) :
    ((s.ask a tag w).agent a).parked = (s.agent a).parked ++ [(tag, w)] ∧ (s.ask a tag w).mem.msgs = s.mem.msgs := by
  unfold ask
  rw [if_neg (by rw [hp]; decide), takeEntry_of_full fun hc => h ⟨hp, hc⟩]
  refine ⟨?_, msgs_entryWaits ..⟩
  dsimp only
  rw [agent_modAgent, if_pos rfl, parked_entryWaits]

end Dev
end Sys2Proof.Machine
end

section
/-! PROOFS. Proofs/AgentEvents.lean: what a caching agent does on its own events, on snoops and on completions (O38). -/

namespace Sys2Proof.Machine

/-- A command has a caching agent ask a line's home, or wait for an entry to ask with (R403, R426). -/
def State.asksFor (s : State) (a : Agent) (t : LineTag) (c : Instr) (w : Waiting) (m : Msg) : Prop :=
  (s.entryFor a t → ∃ u, exec c s = .next u ∧ u.waitingAt a t = some w ∧ u.mem.msgs = s.mem.msgs ++ [m] ∧ u.lineAt a t = s.lineAt a t ∧ s.onlyMem u) ∧
  ((s.agent a).parked.any (fun e => e.1 = t) = false → ¬s.entryFor a t → ∃ u, exec c s = .next u
    ∧ (u.agent a).parked = (s.agent a).parked ++ [(t, w)] ∧ u.mem.msgs = s.mem.msgs ∧ u.lineAt a t = s.lineAt a t ∧ s.onlyMem u)

section
open Dev

variable {a : Agent} {t : LineTag} {s : State} {l : CacheLine} {c : Instr} {w : Waiting}

theorem asksFor_of_ask (h : exec c s = .next { s with toDev := s.toDev.ask a t w }) : s.asksFor a t c w (w.request a t) := by
  have hask := asking.ask s.toDev a t w
  constructor
  · intro he
    obtain ⟨hw, hm⟩ := ask_of_entry (w := w) he
    exact ⟨_, h, hw, hm, hask.lines a t, hask.memOnly.onlyMem⟩
  · intro hp he
    obtain ⟨hpark, hm⟩ := ask_of_full (w := w) hp he
    exact ⟨_, h, hpark, hm, hask.lines a t, hask.memOnly.onlyMem⟩

/-! Local accesses (R403, R416). -/

theorem okFor_core_realm (hc : 8 ≤ a.val) (hr : tagRealm t = true) : okFor (decide (8 ≤ a.val)) t = false := by
  unfold okFor
  rw [hr, decide_eq_true hc]
  exact Bool.and_false _

/-- A core's read of realm memory is its access fault (R527). -/
theorem localRead_realm (hc : 8 ≤ a.val) (hr : tagRealm t = true) (h : Fin 16) :
    exec (.localRead a t h) s = .next { s with reply := some .accessError } := by
  refine exec_eq_next rfl ?_
  dsimp only
  rw [okFor_core_realm hc hr, decide_eq_true hc]
  rfl

theorem touch_eq (s : Dev) (a : Agent) (t : LineTag) (l : CacheLine) : s.touch a t l
    = (if a.val < 8 then s.stamp.1.bump 8 0x100 a.val 1 else s.stamp.1).setLine a t (some { l with use := s.stamp.2 }) := rfl

/-- A hit only makes the line the most recently used of its set. -/
theorem touch_spec (s : Dev) (a : Agent) (t : LineTag) (l : CacheLine) : s.memOnly (s.touch a t l) ∧ (s.touch a t l).mem.msgs = s.mem.msgs
    ∧ (s.touch a t l).lineAt a t = some { l with use := s.stamp.2 } := by
  rw [touch_eq]
  refine ⟨?_, ?_, lineAt_setLine_same ..⟩
  · exact memOnly.trans (memOnly_ite (c := a.val < 8) (t := s.stamp.1.bump 8 0x100 a.val 1) (u := s.stamp.1) rfl rfl) rfl
  · exact (apply_ite (fun v : Dev => v.mem.msgs) ..).trans (ite_self _)

theorem coreFault_eq (s : Dev) (a : Agent) : s.coreFault a = { s with reply := if 8 ≤ a.val then some .accessError else s.reply } := by
  unfold coreFault
  split <;> rfl

variable (hok : okLine t = true) (hown : 8 ≤ a.val → tagRealm t = false)
include hok hown

theorem localRead_eq (h : Fin 16) : exec (.localRead a t h) s = .next { s with toDev := match s.lineAt a t with
      | some l => if l.poison then (s.touch a t l).coreFault a else s.touch a t l
      | none =>
        if (s.waitingAt a t).isSome then s.toDev
        else if (s.sideLine a t).isSome then (match s.promote a t h.val with
          | some d => d
          | none => s.evbWait a)
        else match s.flightOf a t with
          | some f => s.joinFlight a localNo t f h.val
          | none => s.ask a t (.forShared h) } := by
  refine exec_eq_next rfl ?_
  dsimp only
  rw [show okFor (decide (8 ≤ a.val)) t = true from okFor_agent hok hown]
  rfl

/-- A read of a line that the agent holds is a hit; a core's of a poisoned line faults (R403, R416). -/
theorem localRead_hit (hl : s.lineAt a t = some l) (h : Fin 16) : ∃ u l', exec (.localRead a t h) s = .next u ∧ u.lineAt a t = some l' ∧ l'.st = l.st
    ∧ l'.data = l.data ∧ u.mem.msgs = s.mem.msgs ∧ u.reply = if l.poison && decide (8 ≤ a.val) then some .accessError else s.reply := by
  have hexec := localRead_eq (s := s) hok hown h
  obtain ⟨hmem, hmsgs, hline⟩ := touch_spec s.toDev a t l
  have hreply : (s.toDev.touch a t l).reply = s.reply := by rw [hmem]
  rw [hl] at hexec
  dsimp only at hexec
  generalize s.toDev.touch a t l = v at hexec hmsgs hline hreply
  cases hp : l.poison with
  | false =>
    rw [hp, if_neg (by decide)] at hexec
    exact ⟨_, _, hexec, hline, rfl, rfl, hmsgs, hreply⟩
  | true =>
    rw [hp, if_pos rfl, coreFault_eq, hreply] at hexec
    refine ⟨_, _, hexec, hline, rfl, rfl, hmsgs, ?_⟩
    rw [Bool.true_and]
    simp only [decide_eq_true_eq]

theorem localRead_miss (hl : s.lineAt a t = none) (hw : s.waitingAt a t = none) (hs : s.sideLine a t = none) (hf : s.flightOf a t = none) (h : Fin 16) :
    s.asksFor a t (.localRead a t h) (.forShared h) (.readShared a t) := by
  refine asksFor_of_ask ?_
  rw [localRead_eq hok hown h, hl, hw, hs, hf]
  rfl

/-- A local write of an agent that waits for nothing on the line (R338, R403, R416). -/
theorem localWrite_eq (s : Dev) (hw : s.waitingAt a t = none) (off : Nat) (data : List Byte) (full amo : Bool) :
    s.localWrite a t off data full amo = match s.lineAt a t with
      | some l =>
        if amo && l.poison && decide (8 ≤ a.val) then s.coreFault a
        else if l.st = .m || l.st = .e then
          (s.touch a t l).setLine a t (some (writeInto a { l with use := (s.touch a t l).mem.useTick } off data 0))
        else s.ask a t (.forUpgrade off data amo)
      | none =>
        if (s.sideLine a t).isSome then
          (match s.promote a t 0 with
            | some s => s.ask a t (.forUpgrade off data amo)
            | none => s.evbWait a)
        else match s.flightOf a t with
          | some f => s.joinFlight a localNo t f 0
          | none => if full then s.ask a t (.forClaim data) else s.ask a t (.forOwn off data amo) := by
  unfold localWrite
  rw [show okFor (decide (8 ≤ a.val)) t = true from okFor_agent hok hown, hw]
  rfl

/-- A write of a line that the agent holds alone is performed at once (R403). -/
theorem localWrite_alone {amo : Bool} {off : Nat} {data : List Byte} {full : Bool} (hl : s.lineAt a t = some l) (hw : s.waitingAt a t = none)
    (hamo : (amo && l.poison && decide (8 ≤ a.val)) = false) (hst : l.st = .m ∨ l.st = .e)
    (hexec : exec c s = .next { s with toDev := s.toDev.localWrite a t off data full amo }) :
    ∃ u n, exec c s = .next u ∧ u.lineAt a t = some (writeInto a { l with use := n } off data 0) ∧ u.mem.msgs = s.mem.msgs ∧ s.onlyMem u := by
  obtain ⟨hmem, hmsgs, -⟩ := touch_spec s.toDev a t l
  rw [localWrite_eq hok hown s.toDev hw, hl] at hexec
  dsimp only at hexec
  rw [hamo, if_neg (by decide), if_pos (by rcases hst with h | h <;> rw [h] <;> rfl)] at hexec
  exact ⟨_, _, hexec, lineAt_setLine_same .., hmsgs, memOnly.onlyMem (hmem.trans rfl)⟩

/-- A write of a line that others may hold asks for it alone (R403). -/
theorem localWrite_shared {amo : Bool} {off : Nat} {data : List Byte} {full : Bool} (hl : s.lineAt a t = some l) (hw : s.waitingAt a t = none)
    (hamo : (amo && l.poison && decide (8 ≤ a.val)) = false) (hst : l.st = .o ∨ l.st = .s)
    (hexec : exec c s = .next { s with toDev := s.toDev.localWrite a t off data full amo }) :
    s.asksFor a t c (.forUpgrade off data amo) (.upgrade a t) := by
  refine asksFor_of_ask (w := .forUpgrade off data amo) (hexec.trans ?_)
  rw [localWrite_eq hok hown s.toDev hw, hl]
  dsimp only
  rw [hamo, if_neg (by decide), if_neg (by rcases hst with h | h <;> rw [h] <;> decide)]

/-- An atomic of a core on a poisoned line is its access fault (R416). -/
theorem localWrite_faults {off : Nat} {data : List Byte} {full amo : Bool} (hl : s.lineAt a t = some l) (hw : s.waitingAt a t = none)
    (hamo : (amo && l.poison && decide (8 ≤ a.val)) = true) (hexec : exec c s = .next { s with toDev := s.toDev.localWrite a t off data full amo }) :
    exec c s = .next { s with reply := some .accessError } := by
  have hcore : 8 ≤ a.val := of_decide_eq_true (Bool.and_eq_true_iff.mp hamo).2
  rw [localWrite_eq hok hown s.toDev hw, hl] at hexec
  dsimp only at hexec
  rw [hamo, if_pos rfl, coreFault_eq, if_pos hcore] at hexec
  exact hexec

theorem localWrite_miss {off : Nat} {data : List Byte} {full amo : Bool} (hl : s.lineAt a t = none) (hw : s.waitingAt a t = none)
    (hs : s.sideLine a t = none) (hf : s.flightOf a t = none) :
    s.toDev.localWrite a t off data full amo = if full then s.ask a t (.forClaim data) else s.ask a t (.forOwn off data amo) := by
  rw [localWrite_eq hok hown s.toDev hw, hl, hs, hf]
  rfl

omit hok hown

theorem exec_localPartialWrite {off : Fin 128} {data : List Byte} {amo : Bool} (hne : data ≠ []) (hlen : off.val + data.length ≤ 128) :
    exec (.localPartialWrite a t ⟨off, amo⟩ data) s = .next { s with toDev := s.toDev.localWrite a t off.val data false amo } := by
  refine exec_eq_next (c := .localPartialWrite a t ⟨off, amo⟩ data) rfl (if_pos ?_)
  rw [Bool.and_eq_true]
  exact ⟨decide_eq_true hne, decide_eq_true hlen⟩

theorem exec_localFullWrite {data : List Byte} (hlen : data.length = 128) :
    exec (.localFullWrite a t data) s = .next { s with toDev := s.toDev.localWrite a t 0 data true false } :=
  exec_eq_next (c := .localFullWrite a t data) rfl (if_pos hlen)

/-- A write of a whole line leaves it poisoned only in a core's cache (R415). -/
theorem poison_writeInto_whole {data : List Byte} (hlen : data.length = 128) (hw : l.written < 2 ^ 128) :
    (writeInto a l 0 data 0).poison = (l.poison && decide (8 ≤ a.val)) := by
  have hmask : Nat.land (maskOf 0 data.length) (Nat.xor fullMask 0) = fullMask := by rw [hlen]; decide
  have hfull : Nat.lor (if l.st = .m then l.written else 0) fullMask = fullMask := by
    refine Nat.eq_of_testBit_eq fun i => ?_
    have hx : (if l.st = .m then l.written else 0) < 2 ^ 128 := by split <;> omega
    change ((if l.st = .m then l.written else 0) ||| fullMask).testBit i = _
    rw [Nat.testBit_or, show fullMask = 2 ^ 128 - 1 from rfl, Nat.testBit_two_pow_sub_one]
    by_cases hi : i < 128
    · simp [hi]
    · rw [Nat.testBit_lt_two_pow (hx.trans_le (Nat.pow_le_pow_right (by decide) (by omega)))]
      rfl
  unfold writeInto
  dsimp only
  rw [hmask, hfull]
  by_cases h : a.val < 8
  · rw [if_pos h, decide_eq_false (by omega), Bool.and_false]
    exact Bool.and_eq_false_iff.mpr (.inr rfl)
  · rw [if_neg h, decide_eq_true (by omega), Bool.and_true]

/-! Evictions (R403, R407). -/

theorem eviction_missing (hl : s.lineAt a t = none) : exec (.eviction a t) s = .next s := by
  refine exec_eq_next (c := .eviction a t) (d := s.toDev) rfl ?_
  dsimp only
  rw [hl]

theorem eviction_pinned (hl : s.lineAt a t = some l) (hp : (s.agent a).pinned.any (fun e => e.1 = t) = true) : exec (.eviction a t) s = .next s := by
  refine exec_eq_next (c := .eviction a t) (d := s.toDev) rfl ?_
  dsimp only
  rw [hl]
  exact if_pos (by rw [hp, Bool.or_true])

/-- An eviction of a line that is not waited for nor held goes on where it finds room (R407). -/
theorem exec_eviction (hl : s.lineAt a t = some l) (hw : s.waitingAt a t = none) (hp : ¬(s.agent a).pinned.any (fun e => e.1 = t) = true)
    (hfull : ((l.st = .m || l.st = .o) && s.evbFull a t) = false) : exec (.eviction a t) s = .next { s with toDev := s.toDev.evictLine a t l } := by
  refine exec_eq_next (c := .eviction a t) rfl ?_
  dsimp only
  rw [hl, hw]
  dsimp only
  rw [Bool.not_eq_true] at hp
  rw [hp, hfull]
  rfl

theorem evictLine_dirty (s : Dev) (hst : l.st = .m ∨ l.st = .o) : s.evictLine a t l
    = ((s.setLine a t none).setEvb a t (some { data := l.data, poison := l.poison, written := l.written })).send (.writeBack a t l.data l.poison) :=
  if_pos (by rcases hst with h | h <;> rw [h] <;> decide)

theorem evictLine_clean (s : Dev) (hst : l.st = .e ∨ l.st = .s) : s.evictLine a t l = (s.setLine a t none).send (.evictClean a t) :=
  if_neg (by rcases hst with h | h <;> rw [h] <;> decide)

theorem evb_setEvb (s : Dev) (a : Agent) (t : LineTag) (e : Option EvbEntry) : Table.get none ((s.setEvb a t e).agent a).evb t = e := by
  have h := agent_modAgent s a a fun x => { x with evb := Table.set none x.evb t e }
  rw [if_pos rfl] at h
  refine (congrArg (fun x : CacheAgent => Table.get none x.evb t) h).trans ?_
  dsimp only
  rw [Table.get_set_same]

theorem lineAt_setEvb (s : Dev) (a b : Agent) (t x : LineTag) (e : Option EvbEntry) : (s.setEvb a t e).lineAt b x = s.lineAt b x := by
  have h := agent_modAgent s a b fun y => { y with evb := Table.set none y.evb t e }
  refine (congrArg (fun y : CacheAgent => Table.get none y.lines x) h).trans ?_
  split
  · next he => rw [he]; rfl
  · rfl

theorem eviction_dirty (hl : s.lineAt a t = some l) (hw : s.waitingAt a t = none) (hp : ¬(s.agent a).pinned.any (fun e => e.1 = t) = true)
    (hst : l.st = .m ∨ l.st = .o) (hfull : s.evbFull a t = false) : ∃ u, exec (.eviction a t) s = .next u ∧ u.lineAt a t = none ∧ s.onlyMem u
      ∧ (Table.get none (u.agent a).evb t).map EvbEntry.data = some l.data ∧ u.mem.msgs = s.mem.msgs ++ [.writeBack a t l.data l.poison] := by
  have hexec := exec_eviction hl hw hp (by rw [hfull, Bool.and_false])
  rw [evictLine_dirty _ hst] at hexec
  refine ⟨_, hexec, ?_, rfl, congrArg (Option.map EvbEntry.data) (evb_setEvb ..), rfl⟩
  exact (lineAt_setEvb ..).trans (lineAt_setLine_same ..)

theorem eviction_clean (hl : s.lineAt a t = some l) (hw : s.waitingAt a t = none) (hp : ¬(s.agent a).pinned.any (fun e => e.1 = t) = true)
    (hst : l.st = .e ∨ l.st = .s) : ∃ u, exec (.eviction a t) s = .next u ∧ u.lineAt a t = none ∧ u.mem.msgs = s.mem.msgs ++ [.evictClean a t] ∧ s.onlyMem u := by
  have hexec := exec_eviction hl hw hp (by rcases hst with h | h <;> rw [h] <;> rfl)
  rw [evictLine_clean _ hst] at hexec
  exact ⟨_, hexec, lineAt_setLine_same .., rfl, rfl⟩

/-! Snoops (R403, R408). -/

/-- What a snoop leaves of the line that it finds (R403). -/
def CacheLine.afterSnoop (l : CacheLine) (k : SnoopKind) : Option CacheLine :=
  if k = .inv then none
  else if k = .shared ∧ l.st = .m then some { l with st := .o, written := 0 }
  else if k = .shared ∧ l.st = .e then some { l with st := .s } else some l

/-- What a snoop that finds a line is answered (R403). -/
def CacheLine.snoopAnswer (l : CacheLine) (k : SnoopKind) (a : Agent) (t : LineTag) (ep : Byte) : Msg :=
  if l.st = .m ∨ l.st = .o then .rspData a t ep l.data true false l.poison (wholeWritten a l.written)
  else if k = .inv then .rspInvalid a t ep
  else if l.st = .e then .rspData a t ep l.data false false l.poison else .rspShared a t ep

/-- A line leaves the side buffers of some dies, and no cache, eviction buffer or message changes (R340). -/
structure dropsSide (s t : Dev) : Prop where
  memOnly : s.memOnly t
  agents : t.mem.agents = s.mem.agents
  msgs : t.mem.msgs = s.mem.msgs

theorem dropsSide_dropSideOf (s : Dev) (t : LineTag) (ds : List Nat) : dropsSide s (s.dropSideOf t ds) := by
  have hfold (l : List Nat) (v : Dev) (hv : dropsSide s v) :
      dropsSide s (l.foldl (fun s d => if (Table.get none (s.mem.side.getD d []) t).isSome then s.bump 5 0x103 d 1 else s) v) := by
    induction l generalizing v with
    | nil => exact hv
    | cons d l ih =>
      refine ih _ ?_
      dsimp only
      split
      · exact ⟨hv.memOnly.trans (memOnly_bump ..), hv.agents, hv.msgs⟩
      · exact hv
  obtain ⟨hmem, hagents, hmsgs⟩ := hfold ds s ⟨rfl, rfl, rfl⟩
  exact ⟨hmem.trans rfl, hagents, hmsgs⟩

theorem dropsSide.lineAt {s v : Dev} (h : dropsSide s v) (a : Agent) (t : LineTag) : v.lineAt a t = s.lineAt a t := by
  unfold Dev.lineAt Dev.agent
  rw [h.agents]

/-- The state in which a snoop finds its agent's line (R340, R403). -/
def Dev.snoopedSide (s : Dev) (k : SnoopKind) (a : Agent) (t : LineTag) (ep : Byte) : Dev :=
  (s.receive (.snoop k a t ep)).dropSideOf t (if a.val < 8 then [a.val] else [])

theorem dropsSide_snoopedSide (s : Dev) (k : SnoopKind) (a : Agent) (t : LineTag) (ep : Byte) :
    dropsSide (s.receive (.snoop k a t ep)) (s.snoopedSide k a t ep) := dropsSide_dropSideOf ..

theorem snoopAt_eq {k : SnoopKind} {ep : Byte} (hok : okLine t = true) (hb : s.behind (.snoop k a t ep) = false)
    (hp : ¬(s.agent a).pinned.any (fun e => e.1 = t) = true) : s.toDev.snoopAt k a t ep = (s.receive (.snoop k a t ep)).snooped k a t ep := by
  rw [Bool.not_eq_true] at hp
  unfold snoopAt
  rw [hok, hb, hp]
  rfl

theorem snoopAt_pinned {k : SnoopKind} {ep : Byte} (hp : (s.agent a).pinned.any (fun e => e.1 = t) = true) : s.toDev.snoopAt k a t ep = s.toDev :=
  if_pos (by rw [hp, Bool.or_true])

theorem snooped_line {k : SnoopKind} {ep : Byte} (hl : s.lineAt a t = some l) : (s.receive (.snoop k a t ep)).snooped k a t ep
    = ((s.snoopedSide k a t ep).setLine a t (l.afterSnoop k)).send (l.snoopAnswer k a t ep) := by
  have hline : (s.snoopedSide k a t ep).lineAt a t = some l := ((dropsSide_snoopedSide s.toDev k a t ep).lineAt a t).trans hl
  unfold snooped
  change (match (s.snoopedSide k a t ep).lineAt a t with | some _ => _ | none => _) = _
  rw [hline]
  obtain ⟨st, data, written, poison, use, retained⟩ := l
  cases k <;> cases st <;> rfl

/-- A snoop that finds a line is answered, and the line left, by the cell of R403. -/
theorem snoopAt_gives {k : SnoopKind} {ep : Byte} (hok : okLine t = true) (hl : s.lineAt a t = some l) (hb : s.behind (.snoop k a t ep) = false)
    (hp : ¬(s.agent a).pinned.any (fun e => e.1 = t) = true) (hexec : exec c s = .next { s with toDev := s.toDev.snoopAt k a t ep }) :
    ∃ u, exec c s = .next u ∧ (u.lineAt a t).map CacheLine.st = (l.afterSnoop k).map CacheLine.st
      ∧ u.mem.msgs = removeFirst (·.bare == .snoop k a t ep) s.mem.msgs ++ [l.snoopAnswer k a t ep] ∧ s.onlyMem u := by
  obtain ⟨hmem, -, hmsgs⟩ := dropsSide_snoopedSide s.toDev k a t ep
  rw [snoopAt_eq hok hb hp, snooped_line hl] at hexec
  refine ⟨_, hexec, congrArg (Option.map CacheLine.st) (lineAt_setLine_same ..), ?_, ?_⟩
  · exact congrArg (· ++ [l.snoopAnswer k a t ep]) hmsgs
  · exact memOnly.onlyMem (memOnly.trans (t := s.receive (.snoop k a t ep)) rfl (hmem.trans rfl))

/-- A snoop of a kind leaves the agent's line in a state and is answered by a message, where it may arrive (R403). -/
def State.snoopGives (s : State) (a : Agent) (t : LineTag) (ep : Byte) (c : Instr) (k : SnoopKind) (st : Option Moesi) (m : Msg) : Prop :=
  s.behind (.snoop k a t ep) = false → ¬(s.agent a).pinned.any (fun e => e.1 = t) = true → ∃ u, exec c s = .next u
    ∧ (u.lineAt a t).map CacheLine.st = st ∧ u.mem.msgs = removeFirst (·.bare == .snoop k a t ep) s.mem.msgs ++ [m] ∧ s.onlyMem u

/-- The command of a snoop's arrival. -/
def snoopInstr (k : SnoopKind) (a : Agent) (t : LineTag) (ep : Byte) : Instr :=
  match k with
  | .shared => .snpShared a t ep
  | .inv => .snpInv a t ep
  | .once => .snpOnce a t ep

theorem exec_snoopInstr (k : SnoopKind) (a : Agent) (t : LineTag) (ep : Byte) (s : State) :
    exec (snoopInstr k a t ep) s = .next { s with toDev := s.toDev.snoopAt k a t ep } := by
  cases k <;> rfl

theorem snoopGives_cell (hok : okLine t = true) (hl : s.lineAt a t = some l) (k : SnoopKind) (ep : Byte) :
    s.snoopGives a t ep (snoopInstr k a t ep) k ((l.afterSnoop k).map CacheLine.st) (l.snoopAnswer k a t ep) :=
  fun hb hp => snoopAt_gives hok hl hb hp (exec_snoopInstr k a t ep s)

theorem snoop_pinned (hp : (s.agent a).pinned.any (fun e => e.1 = t) = true) (k : SnoopKind) (ep : Byte) :
    exec (snoopInstr k a t ep) s = .next s := (exec_snoopInstr k a t ep s).trans (by rw [snoopAt_pinned hp])

/-- The cells of R403 for the snoops of a dirty line that its agent holds alone, or shares. -/
theorem snoop_cells_dirty (hok : okLine t = true) (hl : s.lineAt a t = some l) (ep : Byte) (hst : l.st = .m ∨ l.st = .o) :
    s.snoopGives a t ep (.snpShared a t ep) .shared (some .o) (.rspData a t ep l.data true false l.poison (wholeWritten a l.written))
      ∧ s.snoopGives a t ep (.snpInv a t ep) .inv none (.rspData a t ep l.data true false l.poison (wholeWritten a l.written))
      ∧ s.snoopGives a t ep (.snpOnce a t ep) .once (some l.st) (.rspData a t ep l.data true false l.poison (wholeWritten a l.written)) := by
  have hcell := snoopGives_cell hok hl (ep := ep)
  obtain ⟨st, data, written, poison, use, retained⟩ := l
  rcases hst with h | h <;> cases h <;> exact ⟨hcell .shared, hcell .inv, hcell .once⟩

theorem snoop_cells_exclusive (hok : okLine t = true) (hl : s.lineAt a t = some l) (ep : Byte) (hst : l.st = .e) :
    s.snoopGives a t ep (.snpShared a t ep) .shared (some .s) (.rspData a t ep l.data false false l.poison)
      ∧ s.snoopGives a t ep (.snpInv a t ep) .inv none (.rspInvalid a t ep)
      ∧ s.snoopGives a t ep (.snpOnce a t ep) .once (some .e) (.rspData a t ep l.data false false l.poison) := by
  have hcell := snoopGives_cell hok hl (ep := ep)
  obtain ⟨st, data, written, poison, use, retained⟩ := l
  cases hst
  exact ⟨hcell .shared, hcell .inv, hcell .once⟩

theorem snoop_cells_shared (hok : okLine t = true) (hl : s.lineAt a t = some l) (ep : Byte) (hst : l.st = .s) :
    s.snoopGives a t ep (.snpShared a t ep) .shared (some .s) (.rspShared a t ep)
      ∧ s.snoopGives a t ep (.snpInv a t ep) .inv none (.rspInvalid a t ep)
      ∧ s.snoopGives a t ep (.snpOnce a t ep) .once (some .s) (.rspShared a t ep) := by
  have hcell := snoopGives_cell hok hl (ep := ep)
  obtain ⟨st, data, written, poison, use, retained⟩ := l
  cases hst
  exact ⟨hcell .shared, hcell .inv, hcell .once⟩

/-- A snoop that finds its line in the eviction buffer is answered from there (R408). -/
theorem snpInv_evb {ep : Byte} {e : EvbEntry} (hok : okLine t = true) (hl : s.lineAt a t = none) (he : Table.get none (s.agent a).evb t = some e)
    (hb : s.behind (.snoop .inv a t ep) = false) (hp : ¬(s.agent a).pinned.any (fun e => e.1 = t) = true) :
    ∃ u, exec (.snpInv a t ep) s = .next u ∧ (Table.get none (u.agent a).evb t) = some e
      ∧ .rspData a t ep e.data true true e.poison (wholeWritten a e.written) ∈ u.mem.msgs := by
  have hside := dropsSide_snoopedSide s.toDev .inv a t ep
  have hline : (s.snoopedSide .inv a t ep).lineAt a t = none := (hside.lineAt a t).trans hl
  have hevb : Table.get none ((s.snoopedSide .inv a t ep).agent a).evb t = some e := by
    unfold Dev.agent
    rw [hside.agents]
    exact he
  refine ⟨_, exec_eq_next (c := .snpInv a t ep) (d := (s.snoopedSide .inv a t ep).send (.rspData a t ep e.data true true e.poison (wholeWritten a e.written)))
    rfl ?_, hevb, List.mem_append_right _ List.mem_cons_self⟩
  refine (snoopAt_eq hok hb hp).trans ?_
  unfold snooped
  change (match (s.snoopedSide .inv a t ep).lineAt a t with | some _ => _ | none => _) = _
  rw [hline]
  dsimp only
  rw [show Table.get none (((s.receive (.snoop .inv a t ep)).dropSideOf t (if a.val < 8 then [a.val] else [])).agent a).evb t = some e from hevb]
  rfl

/-! Completions (R389, R403, R405, R407, R416). -/

/-- A fill that needs no victim, and leaves its set's retained lines as they are, enters the cache (R389, R390). -/
theorem place_of_room (hv : s.victim a t false = none) (hkept : a.val < 8 → ((s.l2Same a t).filter (fun e => e.2.retained)).length ≤ s.objAt 8 0x200 a.val) :
    s.toDev.place! a t l 0 = some (s.stamp.1.setLine a t (some { l with use := s.stamp.2, retained := false })) := by
  have htrim : s.toDev.trimRetained a t = s.toDev := by
    unfold trimRetained
    refine if_pos ?_
    rw [Bool.or_eq_true]
    by_cases h : a.val < 8
    · exact .inr (decide_eq_true (hkept h))
    · exact .inl (decide_eq_true (by omega))
  unfold place! fillLine
  rw [htrim]
  dsimp only
  have hvictim : s.stamp.1.victim a t false = none := hv
  have hr : (decide ((0 : Nat) = 2) && decide (a.val < 8) && decide (0 < s.stamp.1.objAt 8 0x200 a.val)) = false := rfl
  rw [hr, hvictim]
  rfl

theorem completionData_eq {g : Grant} {data : List Byte} {p : Bool} (hlen : data.length = 128) (hw : s.waitingAt a t = some w)
    (hb : s.behind (.data a t 0 g data p) = false) (hv : s.victim a t false = none)
    (hkept : a.val < 8 → ((s.l2Same a t).filter (fun e => e.2.retained)).length ≤ s.objAt 8 0x200 a.val)
    (hfill : w.fill a { st := grantState g, data := data, poison := p, use := 0 } = (0, l)) :
    ∃ d, exec (.completionData a t g data p) s = .next { s with toDev := if p && (w.isAmo || w.isRead) then d.coreFault a else d }
      ∧ d.lineAt a t = some { l with use := s.stamp.2, retained := false } ∧ s.memOnly d ∧ ((s.agent a).parked = [] → d.waitingAt a t = none) := by
  have hans := asking.answered ((s.stamp.1.setLine a t (some { l with use := s.stamp.2, retained := false })).receive (.data a t 0 g data p)) a t
  refine ⟨_, exec_eq_next (c := .completionData a t g data p) rfl ?_, (hans.lines a t).trans (lineAt_setLine_same ..),
    memOnly.trans (t := (s.stamp.1.setLine a t _).receive _) rfl hans.memOnly, fun hp => waitingAt_answered ?_⟩
  · dsimp only
    rw [hw]
    dsimp only
    rw [hlen, hb, hfill]
    dsimp only
    rw [place_of_room hv hkept]
    rfl
  · exact (parked_setLine ..).trans hp

/-- A completion with data fills the line, and faults a core that reads it poisoned or has an atomic to perform on it (R403, R416). -/
theorem completionData_spec {g : Grant} {data : List Byte} {p : Bool} (hlen : data.length = 128) (hw : s.waitingAt a t = some w)
    (hb : s.behind (.data a t 0 g data p) = false) (hv : s.victim a t false = none)
    (hkept : a.val < 8 → ((s.l2Same a t).filter (fun e => e.2.retained)).length ≤ s.objAt 8 0x200 a.val)
    (hfill : w.fill a { st := grantState g, data := data, poison := p, use := 0 } = (0, l)) :
    ∃ u, exec (.completionData a t g data p) s = .next u ∧ u.lineAt a t = some { l with use := s.stamp.2, retained := false }
      ∧ ((s.agent a).parked = [] → u.waitingAt a t = none)
      ∧ u.reply = (if (p && (w.isAmo || w.isRead)) && decide (8 ≤ a.val) then some .accessError else s.reply)
      ∧ u = { s with mem := u.mem, obj := u.obj, reply := u.reply } := by
  obtain ⟨d, hexec, hline, hmem, hwait⟩ := completionData_eq hlen hw hb hv hkept hfill
  have hreply : d.reply = s.reply := by rw [hmem]
  cases hf : p && (w.isAmo || w.isRead) with
  | false =>
    rw [hf, if_neg (by decide)] at hexec
    refine ⟨_, hexec, hline, hwait, hreply, ?_⟩
    rw [hmem]
  | true =>
    rw [hf, if_pos rfl, coreFault_eq, hreply] at hexec
    refine ⟨_, hexec, hline, hwait, ?_, ?_⟩
    · simp only [Bool.true_and, decide_eq_true_eq]
    · rw [hmem]

theorem completionData_read {data : List Byte} {p : Bool} (hv : s.victim a t false = none)
    (hkept : a.val < 8 → ((s.l2Same a t).filter (fun e => e.2.retained)).length ≤ s.objAt 8 0x200 a.val) (hlen : data.length = 128)
    (hw : s.waitingAt a t = some (.forShared 0)) (hb : s.behind (.data a t 0 .s data p) = false) :
    ∃ u l, exec (.completionData a t .s data p) s = .next u ∧ u.lineAt a t = some l ∧ l.st = .s ∧ l.data = data ∧ l.poison = p
      ∧ ((s.agent a).parked = [] → u.waitingAt a t = none) ∧ u.reply = (if p && decide (8 ≤ a.val) then some .accessError else s.reply)
      ∧ u = { s with mem := u.mem, obj := u.obj, reply := u.reply } := by
  obtain ⟨u, hexec, hline, hwait, hreply, hrest⟩ := completionData_spec hlen hw hb hv hkept rfl
  refine ⟨u, _, hexec, hline, rfl, rfl, rfl, hwait, ?_, hrest⟩
  rw [hreply, show (p && (Waiting.isAmo (.forShared 0) || Waiting.isRead (.forShared 0))) = p from Bool.and_true p]

theorem completionData_own {off : Nat} {d data : List Byte} {amo p : Bool} (hv : s.victim a t false = none)
    (hkept : a.val < 8 → ((s.l2Same a t).filter (fun e => e.2.retained)).length ≤ s.objAt 8 0x200 a.val) (hlen : data.length = 128)
    (hw : s.waitingAt a t = some (.forOwn off d amo)) (hb : s.behind (.data a t 0 .m data p) = false) :
    ∃ u l, exec (.completionData a t .m data p) s = .next u ∧ u.lineAt a t = some l ∧ l.st = .m
      ∧ l.data = (if amo && p && decide (8 ≤ a.val) then data else patch data off d) ∧ ((s.agent a).parked = [] → u.waitingAt a t = none)
      ∧ u.reply = (if amo && p && decide (8 ≤ a.val) then some .accessError else s.reply) ∧ u = { s with mem := u.mem, obj := u.obj, reply := u.reply } := by
  have hfill : Waiting.fill (.forOwn off d amo) a { st := .m, data := data, poison := p, use := 0 }
      = (0, if amo && p && decide (8 ≤ a.val) then { st := .m, data := data, poison := p, use := 0 }
          else writeInto a { st := .m, data := data, poison := p, use := 0 } off d 0) := rfl
  obtain ⟨u, hexec, hline, hwait, hreply, hrest⟩ := completionData_spec hlen hw hb hv hkept hfill
  refine ⟨u, _, hexec, hline, ?_, ?_, hwait, ?_, hrest⟩
  · split <;> rfl
  · split <;> rfl
  · rw [hreply, show (p && (Waiting.isAmo (.forOwn off d amo) || Waiting.isRead (.forOwn off d amo))) = (amo && p) by
      change (p && (amo || false)) = (amo && p)
      rw [Bool.or_false, Bool.and_comm]]

/-- What completionAck does where no answer to an eviction comes first (R403, R405). -/
theorem completionAck_eq {p : Bool} (hb : s.behind (.ack a t 0 p) = false) (hn : s.mem.msgs.any (fun x => x.bare == .evictAck a t 0) = false) :
    exec (.completionAck a t p) s = .next { s with toDev := match s.waitingAt a t with
      | some (.forClaim d) =>
        (match s.place! a t (writeInto a { st := .m, data := zeroLine, poison := p, use := 0 } 0 d 0) 0 with
          | none => s.evbWait a
          | some v => (v.receive (.ack a t 0 p)).answered a t)
      | some (.forUpgrade off d amo) =>
        (match s.lineAt a t with
          | some l =>
            let v := (s.receive (.ack a t 0 p)).answered a t
            let x := ((Waiting.forUpgrade off d amo).fill a
              { l with st := .m, written := if l.st = .m then l.written else 0, use := v.stamp.2, poison := l.poison || p }).2
            if amo && x.poison then (v.stamp.1.setLine a t (some x)).coreFault a else v.stamp.1.setLine a t (some x)
          | none => ((s.receive (.ack a t 0 p)).setWaiting a t (some (.forOwn off d amo))).send (.readOwn a t))
      | _ => s.toDev } := by
  refine exec_eq_next (c := .completionAck a t p) rfl ?_
  dsimp only
  rw [hn, hb, Bool.and_false]
  rfl

theorem completionAck_evict {p : Bool} (hb : s.behind (.evictAck a t 0) = false) (hy : s.mem.msgs.any (fun x => x.bare == .evictAck a t 0) = true) :
    exec (.completionAck a t p) s = .next { s with toDev := s.receive (.evictAck a t 0) } := by
  refine exec_eq_next (c := .completionAck a t p) rfl (if_pos ?_)
  rw [hb, hy]
  rfl

theorem patch_zeroLine {d : List Byte} (h : d.length = 128) : patch zeroLine 0 d = d := by
  unfold patch zeroLine
  simp [h]

theorem completionAck_claim {d : List Byte} {p : Bool} (hv : s.victim a t false = none)
    (hkept : a.val < 8 → ((s.l2Same a t).filter (fun e => e.2.retained)).length ≤ s.objAt 8 0x200 a.val) (hlen : d.length = 128)
    (hw : s.waitingAt a t = some (.forClaim d)) (hb : s.behind (.ack a t 0 p) = false)
    (hn : s.mem.msgs.any (fun x => x.bare == .evictAck a t 0) = false) :
    ∃ u l, exec (.completionAck a t p) s = .next u ∧ u.lineAt a t = some l ∧ l.st = .m ∧ l.data = d ∧ l.poison = (p && decide (8 ≤ a.val))
      ∧ ((s.agent a).parked = [] → u.waitingAt a t = none) ∧ s.onlyMem u := by
  have hexec := completionAck_eq hb hn
  have hpoison := poison_writeInto_whole (a := a) (l := { st := .m, data := zeroLine, poison := p, use := 0 }) hlen (Nat.two_pow_pos 128)
  have hdata : (writeInto a { st := .m, data := zeroLine, poison := p, use := 0 } 0 d 0).data = d := patch_zeroLine hlen
  rw [hw] at hexec
  dsimp only at hexec
  rw [place_of_room hv hkept] at hexec
  dsimp only at hexec
  generalize hx : writeInto a { st := .m, data := zeroLine, poison := p, use := 0 } 0 d 0 = x at hexec hpoison hdata
  have hans := asking.answered ((s.stamp.1.setLine a t (some { x with use := s.stamp.2, retained := false })).receive (.ack a t 0 p)) a t
  refine ⟨_, _, hexec, (hans.lines a t).trans (lineAt_setLine_same ..), ?_, hdata, hpoison, fun hp => waitingAt_answered ((parked_setLine ..).trans hp),
    memOnly.onlyMem (memOnly.trans (t := (s.stamp.1.setLine a t _).receive _) rfl hans.memOnly)⟩
  rw [← hx]
  rfl

theorem completionAck_upgrade {off : Nat} {d : List Byte} {p : Bool} (hb : s.behind (.ack a t 0 p) = false)
    (hn : s.mem.msgs.any (fun x => x.bare == .evictAck a t 0) = false) (hw : s.waitingAt a t = some (.forUpgrade off d false)) (hl : s.lineAt a t = some l) :
    ∃ u l', exec (.completionAck a t p) s = .next u ∧ u.lineAt a t = some l' ∧ l'.st = .m ∧ l'.data = patch l.data off d ∧ s.onlyMem u := by
  have hexec := completionAck_eq hb hn
  have hans := asking.answered (s.receive (.ack a t 0 p)) a t
  rw [hw] at hexec
  dsimp only at hexec
  rw [hl] at hexec
  dsimp only at hexec
  rw [Bool.false_and, if_neg (by decide)] at hexec
  exact ⟨_, _, hexec, lineAt_setLine_same .., rfl, rfl, memOnly.onlyMem (memOnly.trans (t := s.receive (.ack a t 0 p)) rfl (hans.memOnly.trans rfl))⟩

theorem completionAck_lost {off : Nat} {d : List Byte} {amo p : Bool} (hb : s.behind (.ack a t 0 p) = false)
    (hn : s.mem.msgs.any (fun x => x.bare == .evictAck a t 0) = false) (hw : s.waitingAt a t = some (.forUpgrade off d amo)) (hl : s.lineAt a t = none) :
    ∃ u, exec (.completionAck a t p) s = .next u ∧ u.waitingAt a t = some (.forOwn off d amo) ∧ .readOwn a t ∈ u.mem.msgs ∧ s.onlyMem u := by
  have hexec := completionAck_eq hb hn
  rw [hw] at hexec
  dsimp only at hexec
  rw [hl] at hexec
  exact ⟨_, hexec, waitingAt_setWaiting .., List.mem_append_right _ List.mem_cons_self, rfl⟩

/-! The answers to a WriteBack (R405, R407). -/

theorem wbAck_spec (hb : s.behind (.wbAck a t 0) = false) : ∃ u, exec (.wbAck a t) s = .next u ∧ Table.get none (u.agent a).evb t = none
    ∧ u.lineAt a t = s.lineAt a t ∧ s.onlyMem u := by
  refine ⟨_, exec_eq_next (c := .wbAck a t) (d := (s.receive (.wbAck a t 0)).setEvb a t none) rfl ?_, evb_setEvb .., lineAt_setEvb .., rfl⟩
  dsimp only
  rw [hb]
  rfl

theorem wbSuperseded_spec (hb : s.behind (.wbSuperseded a t 0) = false) : ∃ u, exec (.wbSuperseded a t) s = .next u
    ∧ Table.get none (u.agent a).evb t = none ∧ u.lineAt a t = s.lineAt a t ∧ s.onlyMem u
    ∧ (a.val < 8 → u.objAt 8 0x107 a.val = (s.objAt 8 0x107 a.val + 1) % 2 ^ 64) := by
  have hexec : exec (.wbSuperseded a t) s = .next { s with toDev := if a.val < 8
      then ((s.receive (.wbSuperseded a t 0)).setEvb a t none).bump 8 0x107 a.val 1 else (s.receive (.wbSuperseded a t 0)).setEvb a t none } := by
    refine exec_eq_next (c := .wbSuperseded a t) rfl ?_
    dsimp only
    rw [hb]
    rfl
  have hevb := evb_setEvb (s.receive (.wbSuperseded a t 0)) a t none
  have hline := lineAt_setEvb (s.receive (.wbSuperseded a t 0)) a a t t none
  by_cases h : a.val < 8
  · rw [if_pos h] at hexec
    exact ⟨_, hexec, hevb, hline, rfl, fun _ => objAt_bump_self ((s.receive (.wbSuperseded a t 0)).setEvb a t none) 1 (by decide) (by omega)⟩
  · rw [if_neg h] at hexec
    exact ⟨_, hexec, hevb, hline, rfl, fun hc => absurd hc h⟩

end

/-- Settles O38: each local event, snoop and completion of a caching agent leaves its line, its requests and the messages as its cell says; what
asks finds a request entry or waits for one. -/
theorem agentEvents : Obligations.AgentEvents := by
  unfold Obligations.AgentEvents
  intro a t s hok line core own pinned asks
  refine ⟨fun hc hr h => localRead_realm hc hr h, fun l hl => ⟨fun h hown => localRead_hit hok hown hl h,
      fun off data amo hown hne hlen hw => ⟨fun hamo => localWrite_faults hok hown hl hw hamo (exec_localPartialWrite hne hlen), fun hamo hst => ?_,
        fun hamo hst => localWrite_shared hok hown hl hw hamo hst (exec_localPartialWrite hne hlen)⟩,
      fun data hown hlen hw => ⟨fun hst => ?_, fun hst => localWrite_shared hok hown hl hw rfl hst (exec_localFullWrite hlen)⟩,
      fun hp => eviction_pinned hl hp, fun hw hp => ⟨fun hst hfull => eviction_dirty hl hw hp hst hfull, fun hst => eviction_clean hl hw hp hst⟩,
      fun hp ep => ⟨snoop_pinned hp .inv ep, snoop_pinned hp .shared ep, snoop_pinned hp .once ep⟩, fun ep => ?_⟩,
    fun hl hw hs hf => ⟨fun h hown => localRead_miss hok hown hl hw hs hf h, fun off data amo hown hne hlen => ?_, fun data hown hlen => ?_,
      eviction_missing hl, fun ep e he hb hp => snpInv_evb hok hl he hb hp⟩,
    fun hv hkept => ⟨fun data p hlen hw hb => completionData_read hv hkept hlen hw hb, fun off d amo data p hlen hw hb => completionData_own hv hkept hlen hw hb,
      fun d p hlen hw hb hn => completionAck_claim hv hkept hlen hw hb hn⟩,
    fun p hb hn off d l hw hl => completionAck_upgrade hb hn hw hl, fun p hb hn off d amo hw hl => completionAck_lost hb hn hw hl,
    fun p hb hy => completionAck_evict hb hy, wbAck_spec, wbSuperseded_spec⟩
  · obtain ⟨u, n, hexec, hline, hmsgs, honly⟩ := localWrite_alone hok hown hl hw hamo hst (exec_localPartialWrite hne hlen)
    exact ⟨u, _, hexec, hline, rfl, rfl, hmsgs, honly⟩
  · obtain ⟨u, n, hexec, hline, hmsgs, honly⟩ := localWrite_alone hok hown hl hw rfl hst (exec_localFullWrite hlen)
    exact ⟨u, _, hexec, hline, rfl, rfl, fun hwr => poison_writeInto_whole (l := { l with use := n }) hlen hwr, hmsgs, honly⟩
  · intro gives
    exact ⟨fun hst => hst ▸ snoop_cells_dirty hok hl ep (.inl hst), fun hst => hst ▸ snoop_cells_dirty hok hl ep (.inr hst),
      snoop_cells_exclusive hok hl ep, snoop_cells_shared hok hl ep⟩
  · exact asksFor_of_ask (w := .forOwn off.val data amo) ((exec_localPartialWrite hne hlen).trans (by rw [localWrite_miss hok hown hl hw hs hf]; rfl))
  · exact asksFor_of_ask (w := .forClaim data) ((exec_localFullWrite hlen).trans (by rw [localWrite_miss hok hown hl hw hs hf]; rfl))

end Sys2Proof.Machine
end

section
/-! PROOFS. Proofs/Dictionary.lean: the dictionary's objects, and what a read and a write of one go by (R663, R673, R674). -/

namespace Sys2Proof.Machine

/-! The dictionary's objects (R673, R682, R696). -/

theorem dictionary_bounds {r : ObjRow} (h : r ∈ dictionary) : r.idxHi < 65536 ∧ r.subHi < 256 := by
  have hall : dictionary.all (fun r => decide (r.idxHi < 65536 ∧ r.subHi < 256)) = true := by decide +kernel
  exact of_decide_eq_true (List.all_eq_true.mp hall r h)

theorem lookupRow_eq_some {k : Nat} {r : ObjRow} (h : lookupRow k = some r) : r ∈ dictionary ∧ r.ss = k / 2 ^ 24 ∧ r.idx ≤ k / 256 % 65536
    ∧ k / 256 % 65536 ≤ r.idxHi ∧ r.sub ≤ k % 256 ∧ k % 256 ≤ r.subHi ∧ r.has (k % 256) = true :=
  ⟨List.mem_of_find?_eq_some h, of_decide_eq_true (List.find?_some (p := fun r : ObjRow => decide (r.ss = k / 2 ^ 24 ∧ r.idx ≤ k / 256 % 65536
    ∧ k / 256 % 65536 ≤ r.idxHi ∧ r.sub ≤ k % 256 ∧ k % 256 ≤ r.subHi ∧ r.has (k % 256) = true)) h)⟩

theorem mem_addresses {k : Nat} {r : ObjRow} : k ∈ r.addresses ↔
    ∃ i j, i < r.idxHi + 1 - r.idx ∧ j < r.subHi + 1 - r.sub ∧ r.has (r.sub + j) = true ∧ k = objAddr r.ss (r.idx + i) (r.sub + j) := by
  simp only [ObjRow.addresses, List.mem_flatMap, List.mem_map, List.mem_filter, List.mem_range]
  constructor
  · rintro ⟨i, hi, j, ⟨hj, hhas⟩, rfl⟩
    exact ⟨i, j, hi, hj, hhas, rfl⟩
  · rintro ⟨i, j, hi, hj, hhas, rfl⟩
    exact ⟨i, hi, j, ⟨hj, hhas⟩, rfl⟩

/-- The addresses of the dictionary's rows are those at which an object exists (R696). -/
theorem mem_dictionary_addresses {k : Nat} : k ∈ dictionary.flatMap ObjRow.addresses ↔ (lookupRow k).isSome := by
  constructor
  · intro h
    obtain ⟨r, hr, hk⟩ := List.mem_flatMap.mp h
    obtain ⟨i, j, hi, hj, hhas, rfl⟩ := mem_addresses.mp hk
    obtain ⟨hidx, hsub⟩ := dictionary_bounds hr
    have hss : objAddr r.ss (r.idx + i) (r.sub + j) / 2 ^ 24 = r.ss := by unfold objAddr; omega
    have hi' : objAddr r.ss (r.idx + i) (r.sub + j) / 256 % 65536 = r.idx + i := by unfold objAddr; omega
    have hj' : objAddr r.ss (r.idx + i) (r.sub + j) % 256 = r.sub + j := by unfold objAddr; omega
    refine List.find?_isSome.mpr ⟨r, hr, decide_eq_true ?_⟩
    rw [hss, hi', hj']
    exact ⟨rfl, by omega, by omega, by omega, by omega, hhas⟩
  · intro h
    obtain ⟨r, hr⟩ := Option.isSome_iff_exists.mp h
    obtain ⟨hmem, hss, hi, hiHi, hj, hjHi, hhas⟩ := lookupRow_eq_some hr
    refine List.mem_flatMap.mpr ⟨r, hmem, mem_addresses.mpr ⟨k / 256 % 65536 - r.idx, k % 256 - r.sub, by omega, by omega, ?_, ?_⟩⟩
    · rw [Nat.add_sub_cancel' hj]; exact hhas
    · rw [Nat.add_sub_cancel' hi, Nat.add_sub_cancel' hj, hss]
      unfold objAddr
      omega

theorem foldl_min_le (l : List Nat) (m : Nat) : l.foldl min m ≤ m ∧ ∀ k ∈ l, l.foldl min m ≤ k := by
  induction l generalizing m with
  | nil => exact ⟨Nat.le_refl _, fun _ h => absurd h (List.not_mem_nil)⟩
  | cons a l ih =>
    obtain ⟨hm, hl⟩ := ih (min m a)
    refine ⟨hm.trans (Nat.min_le_left ..), fun k hk => ?_⟩
    rcases List.mem_cons.mp hk with rfl | hk
    · exact hm.trans (Nat.min_le_right ..)
    · exact hl k hk

theorem foldl_min_mem (l : List Nat) (m : Nat) : l.foldl min m = m ∨ l.foldl min m ∈ l := by
  induction l generalizing m with
  | nil => exact .inl rfl
  | cons a l ih =>
    rcases ih (min m a) with h | h
    · rcases Nat.le_total m a with hle | hle
      · exact .inl (h.trans (Nat.min_eq_left hle))
      · exact .inr (List.mem_cons.mpr (.inl (h.trans (Nat.min_eq_right hle))))
    · exact .inr (List.mem_cons_of_mem _ h)

/-- NEXT names the lowest object above an address, if one is (R673). -/
theorem nextAfter_spec {s : State} {p : Path} (hn : s.noServer p = false) (hr : s.hasRight p 0 = true) (a : Nat) :
    ∃ v, s.nextAfter p a = ⟨0, v, []⟩ ∧ (∀ k, a < k → k < v → lookupRow k = none) ∧ (v ≠ 0xFFFFFFFF → a < v ∧ (lookupRow v).isSome) := by
  unfold State.nextAfter
  rw [hn, hr]
  refine ⟨_, rfl, fun k hak hkv => ?_, fun hne => ?_⟩
  · by_contra hsome
    have hmem : k ∈ (dictionary.flatMap ObjRow.addresses).filter (fun x => a < x) :=
      List.mem_filter.mpr ⟨mem_dictionary_addresses.mpr (Option.isSome_iff_ne_none.mpr hsome), decide_eq_true hak⟩
    exact absurd ((foldl_min_le _ _).2 k hmem) (Nat.not_le.mpr hkv)
  · obtain ⟨hmem, hlt⟩ := List.mem_filter.mp ((foldl_min_mem _ _).resolve_left hne)
    exact ⟨of_decide_eq_true hlt, mem_dictionary_addresses.mp hmem⟩

namespace State

variable {s : State} {p : Path} {a : Nat} {r : ObjRow}

/-! Reads (R673, R683, R686). -/

theorem readObject_of_none (h : lookupRow a = none) (off len : Nat) : s.readObject p a off len = ⟨1, 0, []⟩ := by rw [readObject, h]
theorem readPending_of_none (h : lookupRow a = none) : s.readPending p a = ⟨1, 0, []⟩ := by rw [readPending, h]
theorem describeObject_of_none (h : lookupRow a = none) : s.describeObject p a = ⟨1, 0, []⟩ := by rw [describeObject, h]

section
variable (h : lookupRow a = some r)
include h

theorem readObject_eq (off len : Nat) : s.readObject p a off len = if s.notReady p r then ⟨8, 0, []⟩
    else if !s.hasRight p 0 then ⟨5, 0, []⟩
    else if s.unavailable r a then ⟨7, 0, []⟩
    else if r.isBytes then
      let b := if r.access = .wo then List.replicate r.size 0 else s.readBytes p r a
      let n := if len = 0 then b.length - off else len
      if b.length < off + n then ⟨4, 0, []⟩ else ⟨0, off, (b.drop off).take n⟩
    else if r.access = .wo then ⟨0, 0, []⟩
    else ⟨0, s.readScalar r a, []⟩ := by
  rw [readObject, h]

theorem readPending_eq : s.readPending p a = if s.notReady p r then ⟨8, 0, []⟩ else if !s.hasRight p 0 then ⟨5, 0, []⟩
    else if r.access ≠ .coupled then ⟨4, 0, []⟩ else ⟨0, s.pendingOf a, []⟩ := by
  rw [readPending, h]

theorem describeObject_eq : s.describeObject p a = if s.notReady p r then ⟨8, 0, []⟩ else if !s.hasRight p 0 then ⟨5, 0, []⟩
    else ⟨0, 0, r.describe (s.defaultOf a)⟩ := by
  rw [describeObject, h]

/-- A write of an object that is ready: its path's right is checked, but for a bring-up object that only the management port can write (R663,
R674). -/
theorem writeObject_eq : ∃ port, (port = true → ∃ n, p = .mgmt n) ∧ ∀ v data, s.writeObject p a v data = if s.notReady p r then (s, 8)
    else if !(r.access = .bringUp && !(port && s.objAt 0x0C 0x400 0 = 3)) && !s.hasRight p (writeRight r) then (s, 5)
    else s.performWrite p port r a v data := by
  cases p with
  | mgmt n => exact ⟨true, fun _ => ⟨n, rfl⟩, fun v data => by unfold writeObject; rw [h]⟩
  | inband c => exact ⟨false, fun hc => absurd hc (by decide), fun v data => by unfold writeObject; rw [h]⟩
  | core t => exact ⟨false, fun hc => absurd hc (by decide), fun v data => by unfold writeObject; rw [h]⟩

end

theorem writeObject_of_none (h : lookupRow a = none) (v : Nat) (data : List Byte) : s.writeObject p a v data = (s, 1) := by unfold writeObject; rw [h]

/-! What a write does under its object's rules (R674, R683, R686). -/

section
variable {port : Bool} {v : Nat} {data : List Byte}

theorem performWrite_unavailable (h : s.unavailable r a = true) : s.performWrite p port r a v data = (s, 7) := if_pos h

variable (hu : s.unavailable r a = false)
include hu

theorem performWrite_ro (h : r.access = .ro) : s.performWrite p port r a v data = (s, 2) := by
  unfold performWrite
  rw [hu, h]
  rfl

theorem performWrite_bringUp (h : r.access = .bringUp) (hp : (port && decide (s.objAt 0x0C 0x400 0 = 3)) = false) :
    s.performWrite p port r a v data = (if r.idx = 0x303 then s.setObj a 3 else s, 6) := by
  unfold performWrite
  rw [hu, h]
  dsimp only
  rw [hp]
  rfl

theorem performWrite_coupled (h : r.access = .coupled) :
    s.performWrite p port r a v data = if !r.fits v then (s, 4) else if v < r.lo ∨ r.hi < v then (s, 3) else (s.setPending a v, 0) := by
  unfold performWrite
  rw [hu, h]
  rfl

theorem performWrite_bytes (h : r.access = .rw ∨ r.access = .wo) (hb : r.isBytes = true) :
    s.performWrite p port r a v data = s.writeBytesObj p r a (v % 2 ^ 16) data := by
  unfold performWrite
  rw [hu]
  rcases h with h | h <;> rw [h, hb] <;> rfl

theorem performWrite_scalar (h : r.access = .rw ∨ r.access = .wo) (hb : r.isBytes = false) :
    s.performWrite p port r a v data = if !r.fits v then (s, 4) else if v < r.lo ∨ r.hi < v then (s, 3)
      else (s.writeAction p r.ss (a / 256 % 65536) (a % 256) v).getD (s.setObj a v, 0) := by
  unfold performWrite
  rw [hu]
  rcases h with h | h <;> rw [h, hb] <;> rfl

end

end State
end Sys2Proof.Machine
end

section
/-! PROOFS. Proofs/DictionaryWrites.lean: the answers of the dictionary's operations and what their writes leave (R672 to R674, R683 to R688). -/

namespace Sys2Proof.Machine

/-! A state in which an operation has been answered (R672). -/

/-- The state with an operation's answer kept. -/
def State.replied (s : State) (r : OpReply) : State := { s with mgmt := { s.mgmt with reply := some r } }

section
variable {s u : State} {p : Path} {a : U32} {r : ObjRow}

theorem exec_readObject {off len : U16} {x : OpReply} (h : s.readObject p a.toNat off.toNat len.toNat = x) :
    exec (.readObject p a off len) s = .next (s.replied x) := h ▸ rfl

theorem exec_readPending {x : OpReply} (h : s.readPending p a.toNat = x) : exec (.readPending p a) s = .next (s.replied x) := h ▸ rfl

theorem exec_describe {x : OpReply} (h : s.describeObject p a.toNat = x) : exec (.describe p a) s = .next (s.replied x) := h ▸ rfl

theorem exec_nextObject {x : OpReply} (h : s.nextAfter p a.toNat = x) : exec (.nextObject p a) s = .next (s.replied x) := h ▸ rfl

theorem exec_writeObject {v : U64} {data : List Byte} {st : Nat} (h : s.writeObject p a.toNat v.toNat data = (u, st)) :
    exec (.writeObject p a v data) s = .next (u.replied ⟨st, v.toNat, []⟩) := by
  change Host.Outcome.next (State.answer (s.writeObject p a.toNat v.toNat data).1 (s.writeObject p a.toNat v.toNat data).2 v.toNat) = _
  rw [h]
  rfl

theorem exec_subscribe {mask : Byte} {st : Nat} (h : s.subscribe p mask = (u, st)) :
    exec (.subscribe p mask) s = .next (u.replied ⟨st, mask.toNat, []⟩) := by
  change Host.Outcome.next (State.answer (s.subscribe p mask).1 (s.subscribe p mask).2 mask.toNat) = _
  rw [h]
  rfl

/-! The writes of an object that is there (R663, R674). -/

variable (hx : lookupRow a.toNat = some r) {v : U64} {data : List Byte}
include hx

theorem write_notReady (hn : s.notReady p r = true) : exec (.writeObject p a v data) s = .next (s.replied ⟨8, v.toNat, []⟩) := by
  obtain ⟨port, -, hw⟩ := State.writeObject_eq (s := s) (p := p) hx
  exact exec_writeObject ((hw _ _).trans (if_pos hn))

variable (hn : s.notReady p r = false)
include hn

theorem write_noRight (hacc : r.access ≠ .bringUp) (hr : s.hasRight p (writeRight r) = false) :
    exec (.writeObject p a v data) s = .next (s.replied ⟨5, v.toNat, []⟩) := by
  obtain ⟨port, -, hw⟩ := State.writeObject_eq (s := s) (p := p) hx
  refine exec_writeObject ((hw _ _).trans ?_)
  rw [hn, hr, decide_eq_false hacc]
  rfl

theorem write_performs (hacc : r.access ≠ .bringUp) (hr : s.hasRight p (writeRight r) = true) {st : Nat}
    (hperf : ∀ port, s.performWrite p port r a.toNat v.toNat data = (u, st)) : exec (.writeObject p a v data) s = .next (u.replied ⟨st, v.toNat, []⟩) := by
  obtain ⟨port, -, hw⟩ := State.writeObject_eq (s := s) (p := p) hx
  refine exec_writeObject ((hw _ _).trans ?_)
  rw [hn, hr, decide_eq_false hacc]
  exact hperf port

/-- A write of a bring-up object is refused but over the management port in bring-up; that of 0x303 leaves it refused (R712, R713). -/
theorem write_bringUp (hacc : r.access = .bringUp) (hp : (∀ n, p ≠ .mgmt n) ∨ s.objAt 0x0C 0x400 0 ≠ 3) (hu : s.unavailable r a.toNat = false) :
    exec (.writeObject p a v data) s = .next (State.replied (if r.idx = 0x303 then { s with toDev := s.toDev.setObj a.toNat 3 } else s) ⟨6, v.toNat, []⟩) := by
  obtain ⟨port, hport, hw⟩ := State.writeObject_eq (s := s) (p := p) hx
  have hours : (port && decide (s.objAt 0x0C 0x400 0 = 3)) = false := by
    rcases hp with hp | hp
    · cases port with
      | false => rfl
      | true =>
        obtain ⟨n, he⟩ := hport rfl
        exact absurd he (hp n)
    · rw [decide_eq_false hp, Bool.and_false]
  refine exec_writeObject ((hw _ _).trans ?_)
  rw [hn, hours, decide_eq_true hacc]
  exact State.performWrite_bringUp hu hacc hours

end

section
variable {s : State}

/-- A route entry keeps its stated fields only (R15, R587). -/
theorem writeAction_route (p : Path) {idx : Nat} (hidx : 0x1000 ≤ idx) (sub v : Nat) : s.writeAction p 0x0A idx sub v
    = some ({ s with toDev := s.toDev.setObjAt 0x0A idx sub (bits v 63 63 * 2 ^ 63 + bits v 56 34 * 2 ^ 34 + bits v 19 0) }, 0) := by
  unfold State.writeAction
  split
  case h_28 => exact if_pos ⟨rfl, hidx⟩
  all_goals omega


/-- A pending copy reads as it was last set (R688, R689). -/
theorem pendingOf_setPending (s : State) (x y v : Nat) : (s.setPending x v).pendingOf y = if y = x then v else s.pendingOf y := by
  unfold State.pendingOf State.setPending
  dsimp only
  rw [Table.get_set]
  by_cases h : y = x
  · rw [if_pos h, if_pos h, h]
    by_cases hv : v = s.obj! x
    · rw [if_pos hv, hv]; rfl
    · rw [if_neg hv]; rfl
  · rw [if_neg h, if_neg h]
    rfl

variable {p : Path} {a : U32} {r : ObjRow} {v : U64} {data : List Byte} (hx : lookupRow a.toNat = some r) (hn : s.notReady p r = false)
include hx hn

/-- What the reads of an object that is ready give (R673, R683, R686). -/
theorem reads_answered (hr : s.hasRight p 0 = true) (off len : U16) :
    exec (.describe p a) s = .next (s.replied ⟨0, 0, r.describe (s.defaultOf a.toNat)⟩) ∧
    (r.access ≠ .coupled → exec (.readPending p a) s = .next (s.replied ⟨4, 0, []⟩)) ∧
    (r.access = .coupled → exec (.readPending p a) s = .next (s.replied ⟨0, s.pendingOf a.toNat, []⟩)) ∧
    (s.unavailable r a.toNat = true → exec (.readObject p a off len) s = .next (s.replied ⟨7, 0, []⟩)) ∧
    (r.isBytes = false → s.unavailable r a.toNat = false →
      exec (.readObject p a off len) s = .next (s.replied ⟨0, if r.access = .wo then 0 else s.readScalar r a.toNat, []⟩)) ∧
    (r.isBytes = true → s.unavailable r a.toNat = false →
      let b := if r.access = .wo then List.replicate r.size 0 else s.readBytes p r a.toNat
      let n := if len.toNat = 0 then b.length - off.toNat else len.toNat
      (b.length < off.toNat + n → exec (.readObject p a off len) s = .next (s.replied ⟨4, 0, []⟩)) ∧
      (off.toNat + n ≤ b.length → exec (.readObject p a off len) s = .next (s.replied ⟨0, off.toNat, (b.drop off.toNat).take n⟩))) := by
  have hread := State.readObject_eq (s := s) (p := p) hx off.toNat len.toNat
  have hpend := State.readPending_eq (s := s) (p := p) hx
  rw [hn, hr] at hread hpend
  refine ⟨exec_describe ?_, fun h => exec_readPending (hpend.trans (if_pos h)), fun h => exec_readPending (hpend.trans (if_neg (not_not.mpr h))),
    fun hu => exec_readObject ?_, fun hb hu => exec_readObject ?_, fun hb hu => ?_⟩
  · rw [State.describeObject_eq hx, hn, hr]
    rfl
  · rw [hread, hu]
    rfl
  · rw [hread, hu, hb]
    exact (apply_ite (fun n => (⟨0, n, []⟩ : OpReply)) (r.access = .wo) 0 (s.readScalar r a.toNat)).symm
  · rw [hu, hb] at hread
    exact ⟨fun h => exec_readObject (hread.trans (if_pos h)), fun h => exec_readObject (hread.trans (if_neg (Nat.not_lt.mpr h)))⟩

variable (hacc : r.access ≠ .bringUp) (hr : s.hasRight p (writeRight r) = true) (hu : s.unavailable r a.toNat = false)
include hacc hr hu

/-- A scalar outside its type or its range is refused (R674). -/
theorem write_scalar_refused (hro : r.access ≠ .ro) (hb : r.isBytes = false) :
    (r.fits v.toNat = false → exec (.writeObject p a v data) s = .next (s.replied ⟨4, v.toNat, []⟩)) ∧
    (r.fits v.toNat = true → (v.toNat < r.lo ∨ r.hi < v.toNat) → exec (.writeObject p a v data) s = .next (s.replied ⟨3, v.toNat, []⟩)) := by
  have hperf : ∃ z : State × Nat, ∀ port, s.performWrite p port r a.toNat v.toNat data = if !r.fits v.toNat then (s, 4)
      else if v.toNat < r.lo ∨ r.hi < v.toNat then (s, 3) else z := by
    by_cases hc : r.access = .coupled
    · exact ⟨_, fun port => State.performWrite_coupled hu hc⟩
    · have hrw : r.access = .rw ∨ r.access = .wo := by
        cases h : r.access with
        | ro => exact absurd h hro
        | rw => exact .inl rfl
        | wo => exact .inr rfl
        | coupled => exact absurd h hc
        | bringUp => exact absurd h hacc
      exact ⟨_, fun port => State.performWrite_scalar hu hrw hb⟩
  obtain ⟨z, hz⟩ := hperf
  refine ⟨fun hf => write_performs hx hn hacc hr fun port => (hz port).trans ?_, fun hf hrange => write_performs hx hn hacc hr fun port => (hz port).trans ?_⟩
  · rw [hf]
    rfl
  · rw [hf]
    exact if_pos hrange

variable (hfit : r.fits v.toNat = true) (hrange : ¬(v.toNat < r.lo ∨ r.hi < v.toNat))
include hfit hrange

/-- A coupled object's write sets its pending copy (R688). -/
theorem write_coupled (hc : r.access = .coupled) :
    ∃ u, exec (.writeObject p a v data) s = .next u ∧ u.pendingOf a.toNat = v.toNat ∧ u.obj = s.obj
      ∧ u.mgmt.reply = some ⟨0, v.toNat, []⟩ ∧ u = { s with copies := u.copies, mgmt := u.mgmt } := by
  have hexec := write_performs (u := s.setPending a.toNat v.toNat) (st := 0) (v := v) (data := data) hx hn hacc hr fun port => by
    rw [State.performWrite_coupled hu hc, hfit, if_neg (by decide), if_neg hrange]
  exact ⟨_, hexec, (pendingOf_setPending ..).trans (if_pos rfl), rfl, rfl, rfl⟩

/-- A scalar register's write does what its object says, or sets the object (R674, R684). -/
theorem write_scalar (hrw : r.access = .rw ∨ r.access = .wo) (hb : r.isBytes = false) {u : State} {st : Nat}
    (hact : (s.writeAction p r.ss (a.toNat / 256 % 65536) (a.toNat % 256) v.toNat).getD ({ s with toDev := s.toDev.setObj a.toNat v.toNat }, 0) = (u, st)) :
    exec (.writeObject p a v data) s = .next (u.replied ⟨st, v.toNat, []⟩) :=
  write_performs hx hn hacc hr fun port => by
    rw [State.performWrite_scalar hu hrw hb, hfit, if_neg (by decide), if_neg hrange]
    exact hact

theorem write_route (hrw : r.access = .rw) (hb : r.isBytes = false) (hss : r.ss = 0x0A) (hidx : 0x1000 ≤ a.toNat / 256 % 65536) :
    ∃ u, exec (.writeObject p a v data) s = .next u ∧ u.mgmt.reply = some ⟨0, v.toNat, []⟩
      ∧ u.objAt 0x0A (a.toNat / 256 % 65536) (a.toNat % 256) = bits v.toNat 63 63 * 2 ^ 63 + bits v.toNat 56 34 * 2 ^ 34 + bits v.toNat 19 0 := by
  have hexec := write_scalar (data := data) hx hn hacc hr hu hfit hrange (.inl hrw) hb (by rw [hss, writeAction_route p hidx, Option.getD_some])
  exact ⟨_, hexec, rfl, Dev.objAt_setObjAt_same ..⟩

theorem write_register (hc : r.access ≠ .coupled) (hro : r.access ≠ .ro) (hb : r.isBytes = false)
    (hact : s.writeAction p r.ss (a.toNat / 256 % 65536) (a.toNat % 256) v.toNat = none) :
    ∃ u, exec (.writeObject p a v data) s = .next u ∧ u.obj! a.toNat = v.toNat ∧ (∀ k, k ≠ a.toNat → u.obj! k = s.obj! k)
      ∧ u.mgmt.reply = some ⟨0, v.toNat, []⟩ ∧ u = { s with obj := u.obj, mgmt := { s.mgmt with reply := u.mgmt.reply } } := by
  have hrw : r.access = .rw ∨ r.access = .wo := by
    cases h : r.access with
    | ro => exact absurd h hro
    | rw => exact .inl rfl
    | wo => exact .inr rfl
    | coupled => exact absurd h hc
    | bringUp => exact absurd h hacc
  have hexec := write_scalar (data := data) hx hn hacc hr hu hfit hrange hrw hb (by rw [hact, Option.getD_none])
  exact ⟨_, hexec, Dev.obj!_setObj_same .., fun k hk => (Dev.obj!_setObj ..).trans (if_neg hk), rfl, rfl⟩

end

/-! Event masks (R673, R677). -/

theorem subscribe_eq {s : State} {p : Path} {mask : Byte} (hb : s.objAt 0x0C 0x400 0 = 5) (hr : s.hasRight p 0 = true) : s.subscribe p mask
    = match s.sessionAt p with
      | some x => (s.modMgmt (fun m => { m with sessions := m.sessions.map (fun y => if y.num = x.num then { y with mask := mask } else y) }), 0)
      | none => (s, 0) := by
  unfold State.subscribe
  rw [if_neg (not_not.mpr hb), hr]
  rfl

theorem subscribe_spec (s : State) (p : Path) (mask : Byte) :
    (s.objAt 0x0C 0x400 0 ≠ 5 → exec (.subscribe p mask) s = .next (s.replied ⟨8, mask.toNat, []⟩)) ∧
    (s.objAt 0x0C 0x400 0 = 5 → s.hasRight p 0 = false → exec (.subscribe p mask) s = .next (s.replied ⟨5, mask.toNat, []⟩)) ∧
    (s.objAt 0x0C 0x400 0 = 5 → s.hasRight p 0 = true → s.sessionAt p = none → exec (.subscribe p mask) s = .next (s.replied ⟨0, mask.toNat, []⟩)) ∧
    (∀ x, s.objAt 0x0C 0x400 0 = 5 → s.hasRight p 0 = true → s.sessionAt p = some x → ∃ u, exec (.subscribe p mask) s = .next u
      ∧ u.mgmt.reply = some ⟨0, mask.toNat, []⟩ ∧ u.mgmt.sessions = s.mgmt.sessions.map (fun y => if y.num = x.num then { y with mask := mask } else y)
      ∧ u = { s with mgmt := { s.mgmt with reply := u.mgmt.reply, sessions := u.mgmt.sessions } }) := by
  refine ⟨fun hb => exec_subscribe (if_pos hb), fun hb hr => exec_subscribe ?_, fun hb hr hs => exec_subscribe ?_, fun x hb hr hs =>
?_⟩
  · unfold State.subscribe
    rw [if_neg (not_not.mpr hb), hr]
    rfl
  · rw [subscribe_eq hb hr, hs]
  · have hsub := subscribe_eq (mask := mask) hb hr
    rw [hs] at hsub
    exact ⟨_, exec_subscribe hsub, rfl, rfl, rfl⟩

end Sys2Proof.Machine
end

section
/-! PROOFS. Proofs/DictionaryOps.lean: the dictionary operations, the commit groups and the least credential generation (O54). -/

namespace Sys2Proof.Machine

/-! The commit groups (R688 to R692). -/

/-- The two members of a commit group, its apply object and the event counter are objects of their own (R688). -/
theorem groupMembers_pair (g : Fin 3) : ∃ x y, groupMembers g = [x, y] ∧ x ≠ y ∧ x ≠ applyObject g ∧ y ≠ applyObject g := by
  have h : ∀ g : Fin 3, ∃ x ∈ groupMembers g, ∃ y ∈ groupMembers g, groupMembers g = [x, y] ∧ x ≠ y ∧ x ≠ applyObject g ∧ y ≠ applyObject g := by decide
  obtain ⟨x, -, y, -, hg⟩ := h g
  exact ⟨x, y, hg⟩

theorem member_ne_apply {g : Fin 3} {a : Nat} (h : a ∈ groupMembers g) : a ≠ applyObject g := by
  obtain ⟨x, y, hg, -, hx, hy⟩ := groupMembers_pair g
  rw [hg, List.mem_cons, List.mem_singleton] at h
  rcases h with rfl | rfl
  · exact hx
  · exact hy

theorem group_clear {g : Fin 3} {a : Nat} (h : a ∈ groupMembers g ∨ a = applyObject g) :
    a ≠ objAddr 0x0C 0x150 0 ∧ a ≠ objAddr 0x0C 0x120 0 ∧ a ≠ objAddr 7 0x203 0 := by
  have hall : ∀ g : Fin 3, ∀ a ∈ applyObject g :: groupMembers g, a ≠ objAddr 0x0C 0x150 0 ∧ a ≠ objAddr 0x0C 0x120 0 ∧ a ≠ objAddr 7 0x203 0 := by decide
  exact hall g a (List.mem_cons.mpr h.symm)

namespace State

variable {s : State} {g : Fin 3} {x y : Nat}

theorem obj!_setObj (s : State) (a b v : Nat) : (s.setObj a v).obj! b = if b = a then v else s.obj! b := Dev.obj!_setObj ..

theorem pendingOf_setObj {a b : Nat} (v : Nat) (h : b ≠ a) : (s.setObj a v).pendingOf b = s.pendingOf b := by
  unfold pendingOf
  rw [obj!_setObj, if_neg h]
  rfl

/-- The pending copies of a group's members set, and its apply object with them (R690). -/
theorem setPending_group (hg : groupMembers g = [x, y] ∧ x ≠ y ∧ x ≠ applyObject g ∧ y ≠ applyObject g) {f : Nat → Nat} {u : State}
    (hu : u = ((s.setPending x (f x)).setPending y (f y)).setObj (applyObject g) 4) :
    u.obj! (applyObject g) = 4 ∧ (∀ a ∈ groupMembers g, u.obj! a = s.obj! a) ∧ (∀ a ∈ groupMembers g, u.pendingOf a = f a)
      ∧ u = { s with obj := u.obj, copies := u.copies } := by
  obtain ⟨hmem, hxy, hxa, hya⟩ := hg
  subst hu
  rw [hmem]
  simp only [List.forall_mem_cons]
  refine ⟨(obj!_setObj ..).trans (if_pos rfl), ⟨(obj!_setObj ..).trans (if_neg hxa), (obj!_setObj ..).trans (if_neg hya), fun _ h => absurd h List.not_mem_nil⟩,
    ⟨?_, ?_, fun _ h => absurd h List.not_mem_nil⟩, rfl⟩
  · rw [pendingOf_setObj _ hxa, pendingOf_setPending, if_neg hxy, pendingOf_setPending, if_pos rfl]
  · rw [pendingOf_setObj _ hya, pendingOf_setPending, if_pos rfl]

theorem discardGroup_spec (s : State) (g : Fin 3) : ∃ u, exec (.discardGroup g) s = .next u ∧ u.obj! (applyObject g) = 4
    ∧ (∀ a ∈ groupMembers g, u.obj! a = s.obj! a) ∧ (∀ a ∈ groupMembers g, u.pendingOf a = s.obj! a) ∧ u = { s with obj := u.obj, copies := u.copies } := by
  obtain ⟨x, y, hg⟩ := groupMembers_pair g
  refine ⟨s.discardGroup g, rfl, setPending_group (f := fun a => s.obj! a) hg ?_⟩
  unfold discardGroup
  rw [hg.1]
  rfl

theorem defaultGroup_spec (s : State) (g : Fin 3) : ∃ u, exec (.defaults g) s = .next u ∧ u.obj! (applyObject g) = 4
    ∧ (∀ a ∈ groupMembers g, u.obj! a = s.obj! a) ∧ (∀ a ∈ groupMembers g, u.pendingOf a = s.defaultOf a) ∧ u = { s with obj := u.obj, copies := u.copies } := by
  obtain ⟨x, y, hg⟩ := groupMembers_pair g
  refine ⟨s.defaultGroup g, rfl, setPending_group (f := s.defaultOf) hg ?_⟩
  unfold defaultGroup
  rw [hg.1]
  rfl

/-- A new held configuration record leaves everything but the boot state and its sequence number (R694, R695). -/
theorem writeConfig_rest (s : State) (pool uniform gen : Nat) : ∃ b o, s.writeConfig pool uniform gen = { s with boot := b, obj := o }
    ∧ ∀ k, k ≠ objAddr 0x0C 0x150 0 → (s.writeConfig pool uniform gen).obj! k = s.obj! k := by
  unfold writeConfig
  split
  · exact ⟨_, _, rfl, fun _ _ => rfl⟩
  · exact ⟨_, _, rfl, fun k hk => (obj!_setObj ..).trans (if_neg hk)⟩

theorem applyGroup_refused (h : groupRule g ((groupMembers g).map s.pendingOf) = false) : s.applyGroup g = s.setObj (applyObject g) 3 := by
  unfold applyGroup
  dsimp only
  rw [h]
  rfl

theorem applyGroup_taken (h : groupRule g ((groupMembers g).map s.pendingOf) = true) : ∃ c : State, s.applyGroup g
      = (c.modMgmt (fun m => { m with applied := Table.set none m.applied (g.val + 1) (some ((groupMembers g).map s.pendingOf)) })).setObj (applyObject g) 1
      ∧ c.copies = s.copies ∧ (g ≠ 0 → c.boot = s.boot) ∧ ∀ a ∈ groupMembers g, c.obj! a = s.obj! a := by
  unfold applyGroup
  dsimp only
  rw [h]
  by_cases hg : g = 0
  · obtain ⟨b, o, hrest, hobj⟩ := writeConfig_rest s (((groupMembers g).map s.pendingOf).getD 0 0) (((groupMembers g).map s.pendingOf).getD 1 0) s.heldValues.2.2
    refine ⟨_, ?_, ?_, fun hne => absurd hg hne, fun a ha => hobj a (group_clear (.inl ha)).1⟩
    · rw [if_pos hg]
      rfl
    · rw [hrest]
  · refine ⟨s, ?_, rfl, fun _ => rfl, fun _ _ => rfl⟩
    rw [if_neg hg]
    rfl

theorem exec_applyGroup_refused (h : groupRule g ((groupMembers g).map s.pendingOf) = false) : ∃ u, exec (.applyGroup g) s = .next u
    ∧ u.obj! (applyObject g) = 3 ∧ (∀ a ∈ groupMembers g, u.obj! a = s.obj! a) ∧ u = { s with obj := u.obj } := by
  refine ⟨_, exec_next rfl (applyGroup_refused h), (obj!_setObj ..).trans (if_pos rfl), fun a ha => (obj!_setObj ..).trans (if_neg ?_), rfl⟩
  exact member_ne_apply ha

theorem exec_applyGroup_taken (h : groupRule g ((groupMembers g).map s.pendingOf) = true) : ∃ u, exec (.applyGroup g) s = .next u
    ∧ u.obj! (applyObject g) = 1 ∧ (∀ a ∈ groupMembers g, u.obj! a = s.obj! a)
    ∧ Table.get none u.mgmt.applied (g.val + 1) = some ((groupMembers g).map s.pendingOf) ∧ u.copies = s.copies ∧ (g ≠ 0 → u.boot = s.boot) := by
  obtain ⟨c, happly, hcopies, hboot, hobj⟩ := applyGroup_taken h
  refine ⟨_, exec_next rfl happly, (obj!_setObj ..).trans (if_pos rfl), fun a ha => ((obj!_setObj ..).trans (if_neg (member_ne_apply ha))).trans (hobj a ha),
    ?_, hcopies, hboot⟩
  exact Table.get_set_same none c.mgmt.applied (g.val + 1) (some ((groupMembers g).map s.pendingOf))

/-! The boundary at which a group takes effect (R373, R689, R692). -/

/-- Values take effect, and what the pending copies hold stays (R689, R692). -/
structure effects (s u : State) (g : Fin 3) (v : List Nat) : Prop where
  values : (groupMembers g).map u.obj! = v
  pending : ∀ a ∈ groupMembers g, u.pendingOf a = s.pendingOf a
  mgmt : u.mgmt = s.mgmt
  events : u.eventsOut = s.eventsOut

theorem effects_takeEffect (s : State) (g : Fin 3) (v w : Nat) : s.effects (s.takeEffect g [v, w]) g [v, w] := by
  obtain ⟨x, y, hmem, hxy, -⟩ := groupMembers_pair g
  have htake : s.takeEffect g [v, w] = ((((s.setObj x v).setObj y w).setPending x (s.pendingOf x)).setPending y (s.pendingOf y)) := by
    unfold takeEffect
    rw [hmem]
    rfl
  have hobj (k : Nat) : (s.takeEffect g [v, w]).obj! k = if k = y then w else if k = x then v else s.obj! k := by
    rw [htake]
    change ((s.setObj x v).setObj y w).obj! k = _
    rw [obj!_setObj, obj!_setObj]
  refine ⟨?_, ?_, by rw [htake]; rfl, by rw [htake]; rfl⟩
  · rw [hmem, List.map_cons, List.map_cons, List.map_nil, hobj, hobj, if_neg hxy, if_pos rfl, if_pos rfl]
  · rw [hmem, htake]
    simp only [List.forall_mem_cons]
    refine ⟨?_, ?_, fun _ h => absurd h List.not_mem_nil⟩
    · rw [pendingOf_setPending, if_neg hxy, pendingOf_setPending, if_pos rfl]
    · rw [pendingOf_setPending, if_pos rfl]

/-- The state in which a group has taken effect, with its event (R692). -/
def tookEffect (u : State) (g : Fin 3) : State :=
  ((u.modMgmt fun m => { m with applied := Table.set none m.applied (g.val + 1) none }).setObj (applyObject g) 2).event 2 (g.val + 1 + 512)

theorem obj!_event (s : State) (kind detail k : Nat) (h : k ≠ objAddr 0x0C 0x120 0) : (s.event kind detail).obj! k = s.obj! k :=
  (obj!_setObj s (objAddr 0x0C 0x120 0) k _).trans (if_neg h)

theorem obj!_tookEffect {u : State} {k : Nat} (hk : k ≠ objAddr 0x0C 0x120 0) :
    (u.tookEffect g).obj! k = if k = applyObject g then 2 else u.obj! k := by
  unfold tookEffect
  rw [obj!_event _ _ _ _ hk, obj!_setObj]
  rfl

theorem eventsOut_event (s : State) (kind detail : Nat) :
    ∃ e, e.kind = kind ∧ e.detail = detail ∧ (s.event kind detail).eventsOut = s.eventsOut ++ [e] := by
  refine ⟨_, ?_, ?_, rfl⟩
  · rfl
  · rfl

theorem tookEffect_spec {u : State} {v : List Nat} (h : s.effects u g v) :
    (groupMembers g).map (u.tookEffect g).obj! = v ∧ (∀ a ∈ groupMembers g, (u.tookEffect g).pendingOf a = s.pendingOf a)
      ∧ (u.tookEffect g).obj! (applyObject g) = 2 ∧ Table.get none (u.tookEffect g).mgmt.applied (g.val + 1) = none
      ∧ ∃ e, e.kind = 2 ∧ e.detail = g.val + 1 + 512 ∧ (u.tookEffect g).eventsOut = s.eventsOut ++ [e] := by
  have hmem (a : Nat) (ha : a ∈ groupMembers g) : (u.tookEffect g).obj! a = u.obj! a := by
    rw [obj!_tookEffect (group_clear (.inl ha)).2.1, if_neg (member_ne_apply ha)]
  refine ⟨(List.map_congr_left hmem).trans h.values, fun a ha => ?_, ?_, ?_, ?_⟩
  · refine Eq.trans ?_ (h.pending a ha)
    unfold pendingOf
    rw [hmem a ha]
    rfl
  · rw [obj!_tookEffect (group_clear (.inr rfl)).2.1, if_pos rfl]
  · exact Table.get_set_same none u.mgmt.applied (g.val + 1) none
  · rw [← h.events]
    exact eventsOut_event ..

theorem boundary_waits (h : Table.get none s.mgmt.applied (g.val + 1) = none) : exec (.quiescentBoundary g) s = .next s := by
  refine exec_next rfl ?_
  dsimp only
  rw [h]

/-- The state in which the placement is in effect; one that changes leaves nothing of what DRAM held (R373). -/
def placed (u : State) : State :=
  let p := u.setObjAt 7 0x203 0 (u.objAt 7 0x200 0)
  if p.poolGib = u.poolGib then p else { p.modMem (fun m => m.dramOnly.scrambled (p.fresh + 1)) with fresh := p.fresh + 1 }

theorem placed_keeps (u : State) : u.placed.copies = u.copies ∧ u.placed.mgmt = u.mgmt ∧ u.placed.eventsOut = u.eventsOut
    ∧ u.placed.obj = (u.setObjAt 7 0x203 0 (u.objAt 7 0x200 0)).obj := by
  unfold placed
  dsimp only
  split <;> exact ⟨rfl, rfl, rfl, rfl⟩

theorem obj!_placed (u : State) (k : Nat) : u.placed.obj! k = if k = objAddr 7 0x203 0 then u.obj! (objAddr 7 0x200 0) else u.obj! k := by
  refine Eq.trans ?_ (obj!_setObj u (objAddr 7 0x203 0) k (u.objAt 7 0x200 0))
  unfold Dev.obj!
  rw [(placed_keeps u).2.2.2]
  rfl

theorem initMemory_of_applied {u : State} {l : List Nat} (h : Table.get none u.mgmt.applied 1 = some l) : u.initMemory = u.placed.tookEffect 0 := by
  have heq : u.initMemory = match Table.get none u.placed.mgmt.applied 1 with
    | none => u.placed
    | some _ => u.placed.tookEffect 0 := rfl
  rw [heq, (placed_keeps u).2.1, h]

/-- An accepted group takes effect for its members at once (R692). -/
theorem boundary_takes {v w : Nat} (h : Table.get none s.mgmt.applied (g.val + 1) = some [v, w]) : ∃ u, exec (.quiescentBoundary g) s = .next u
      ∧ (groupMembers g).map u.obj! = [v, w] ∧ (∀ a ∈ groupMembers g, u.pendingOf a = s.pendingOf a) ∧ u.obj! (applyObject g) = 2
      ∧ Table.get none u.mgmt.applied (g.val + 1) = none ∧ (g = 0 → u.objAt 7 0x203 0 = v)
      ∧ ∃ e, e.kind = 2 ∧ e.detail = g.val + 1 + 512 ∧ u.eventsOut = s.eventsOut ++ [e] := by
  have heff := effects_takeEffect s g v w
  have hexec : exec (.quiescentBoundary g) s = .next (if g = 0 then (s.takeEffect g [v, w]).initMemory else (s.takeEffect g [v, w]).tookEffect g) := by
    refine exec_next rfl ?_
    dsimp only
    rw [h]
    rfl
  by_cases hg : g = 0
  · subst hg
    rw [if_pos rfl] at hexec
    have hinit := initMemory_of_applied (u := s.takeEffect 0 [v, w]) (by rw [heff.mgmt]; exact h)
    obtain ⟨hcopies, hmgmt, hev, -⟩ := placed_keeps (s.takeEffect 0 [v, w])
    have hobj := obj!_placed (s.takeEffect 0 [v, w])
    rw [hinit] at hexec
    generalize (s.takeEffect 0 [v, w]).placed = d at hexec hcopies hmgmt hev hobj
    have hmem (a : Nat) (ha : a ∈ groupMembers 0) : d.obj! a = (s.takeEffect 0 [v, w]).obj! a := by
      rw [hobj, if_neg (group_clear (.inl ha)).2.2]
    have heff' : s.effects d 0 [v, w] := by
      refine ⟨(List.map_congr_left hmem).trans heff.values, fun a ha => Eq.trans ?_ (heff.pending a ha), hmgmt.trans heff.mgmt, hev.trans heff.events⟩
      unfold pendingOf
      rw [hmem a ha, hcopies]
    obtain ⟨hvals, hpend, happly, hnone, hevent⟩ := tookEffect_spec heff'
    refine ⟨_, hexec, hvals, hpend, happly, hnone, fun _ => ?_, hevent⟩
    have hfirst : (s.takeEffect 0 [v, w]).obj! (objAddr 7 0x200 0) = v := (List.cons.inj heff.values).1
    refine (obj!_tookEffect (by decide)).trans ?_
    rw [if_neg (by decide), hobj, if_pos rfl, hfirst]
  · rw [if_neg hg] at hexec
    obtain ⟨hvals, hpend, happly, hnone, hevent⟩ := tookEffect_spec heff
    exact ⟨_, hexec, hvals, hpend, happly, hnone, fun h0 => absurd h0 hg, hevent⟩

/-- A write of cred_min_generation never lowers it, and closes the sessions that it leaves too low (R670). -/
theorem credMinGeneration_spec (v : U32) (s : State) :
    (v.toNat < s.objAt 0x0C 0x112 0 → exec (.credMinGenerationWrite v) s = .next s) ∧
    (s.objAt 0x0C 0x112 0 ≤ v.toNat → ∃ u, exec (.credMinGenerationWrite v) s = .next u ∧ u.objAt 0x0C 0x112 0 = v.toNat
      ∧ u.mgmt.sessions = s.mgmt.sessions.filter (fun x => !(x.isOpen && decide (x.gen < v.toNat))) ∧ u.cmd = s.cmd ∧ u.pow = s.pow) := by
  refine ⟨fun h => exec_next rfl (by rw [writeMinGeneration, if_pos h]), fun h => ?_⟩
  have hwrite : s.writeMinGeneration v.toNat = (((s.writeConfig s.heldValues.1 s.heldValues.2.1 v.toNat).setObjAt 0x0C 0x112 0 v.toNat).closeSessions
      (fun x => x.isOpen && x.gen < v.toNat), 0) := by
    unfold writeMinGeneration
    exact if_neg (Nat.not_lt.mpr h)
  obtain ⟨b, o, hrest, -⟩ := writeConfig_rest s s.heldValues.1 s.heldValues.2.1 v.toNat
  generalize hc : (s.writeConfig s.heldValues.1 s.heldValues.2.1 v.toNat).setObjAt 0x0C 0x112 0 v.toNat = c at hwrite
  have hclose := c.closes_closeSessions fun x => x.isOpen && x.gen < v.toNat
  generalize (c.closeSessions fun x => x.isOpen && x.gen < v.toNat) = u at hwrite hclose
  have hcm : c.mgmt = s.mgmt ∧ c.cmd = s.cmd ∧ c.pow = s.pow := by
    rw [← hc, hrest]
    exact ⟨rfl, rfl, rfl⟩
  refine ⟨u, exec_next rfl (by rw [hwrite]), ?_, ?_, ?_, ?_⟩
  · rw [hclose.objAt _ _ _ (by decide) (by decide) (by decide), ← hc]
    exact Dev.objAt_setObjAt_same ..
  · rw [hclose.rest, ← hcm.1]
  · rw [hclose.rest, ← hcm.2.1]
  · rw [hclose.rest, ← hcm.2.2]

end State

/-! The operations of one object together. -/

section
variable {s : State} {p : Path} {a : U32} {r : ObjRow} {v : U64} {data : List Byte}

/-- An operation on an object that does not exist (R673, R674). -/
theorem ops_of_none (h : lookupRow a.toNat = none) (off len : U16) : exec (.readObject p a off len) s = .next (s.replied ⟨1, 0, []⟩)
    ∧ exec (.writeObject p a v data) s = .next (s.replied ⟨1, v.toNat, []⟩) ∧ exec (.readPending p a) s = .next (s.replied ⟨1, 0, []⟩)
    ∧ exec (.describe p a) s = .next (s.replied ⟨1, 0, []⟩) :=
  ⟨exec_readObject (State.readObject_of_none h ..), exec_writeObject (State.writeObject_of_none h ..), exec_readPending (State.readPending_of_none h),
    exec_describe (State.describeObject_of_none h)⟩

variable (hx : lookupRow a.toNat = some r)
include hx

/-- An operation on an object that cannot be reached yet (R655). -/
theorem ops_of_notReady (hn : s.notReady p r = true) (off len : U16) : exec (.readObject p a off len) s = .next (s.replied ⟨8, 0, []⟩)
    ∧ exec (.writeObject p a v data) s = .next (s.replied ⟨8, v.toNat, []⟩) ∧ exec (.readPending p a) s = .next (s.replied ⟨8, 0, []⟩)
    ∧ exec (.describe p a) s = .next (s.replied ⟨8, 0, []⟩) :=
  ⟨exec_readObject ((State.readObject_eq hx ..).trans (if_pos hn)), write_notReady hx hn, exec_readPending ((State.readPending_eq hx).trans (if_pos hn)),
    exec_describe ((State.describeObject_eq hx).trans (if_pos hn))⟩

variable (hn : s.notReady p r = false)
include hn

/-- A read without the right to read (R663). -/
theorem reads_noRight (hr : s.hasRight p 0 = false) (off len : U16) : exec (.readObject p a off len) s = .next (s.replied ⟨5, 0, []⟩)
    ∧ exec (.readPending p a) s = .next (s.replied ⟨5, 0, []⟩) ∧ exec (.describe p a) s = .next (s.replied ⟨5, 0, []⟩) := by
  refine ⟨exec_readObject ?_, exec_readPending ?_, exec_describe ?_⟩
  · rw [State.readObject_eq hx, hn, hr]
    rfl
  · rw [State.readPending_eq hx, hn, hr]
    rfl
  · rw [State.describeObject_eq hx, hn, hr]
    rfl

/-- A write of bring-up objects outside bring-up (R712, R713). -/
theorem write_bringUp_refused (hacc : r.access = .bringUp) (hp : (∀ n, p ≠ .mgmt n) ∨ s.objAt 0x0C 0x400 0 ≠ 3) (hu : s.unavailable r a.toNat = false) :
    (r.idx ≠ 0x303 → exec (.writeObject p a v data) s = .next (s.replied ⟨6, v.toNat, []⟩)) ∧
    (r.idx = 0x303 → ∃ u, exec (.writeObject p a v data) s = .next u ∧ u.mgmt.reply = some ⟨6, v.toNat, []⟩ ∧ u.obj! a.toNat = 3
      ∧ ∀ k, k ≠ a.toNat → u.obj! k = s.obj! k) := by
  have hexec := write_bringUp (v := v) (data := data) hx hn hacc hp hu
  refine ⟨fun h => ?_, fun h => ?_⟩
  · rw [if_neg h] at hexec
    exact hexec
  · rw [if_pos h] at hexec
    exact ⟨_, hexec, rfl, Dev.obj!_setObj_same .., fun k hk => (Dev.obj!_setObj ..).trans (if_neg hk)⟩

/-- An octets object takes no bytes past its size (R673, R674). -/
theorem write_bytes_refused (hacc : r.access ≠ .bringUp) (hr : s.hasRight p (writeRight r) = true) (hu : s.unavailable r a.toNat = false)
    (hrw : r.access = .rw ∨ r.access = .wo) (hb : r.isBytes = true) (hne : ¬(r.ss = 0x0C ∧ r.idx = 0x432)) (hlen : r.size < v.toNat % 2 ^ 16 + data.length) :
    exec (.writeObject p a v data) s = .next (s.replied ⟨4, v.toNat, []⟩) := by
  refine write_performs hx hn hacc hr fun port => (State.performWrite_bytes hu hrw hb).trans ?_
  unfold State.writeBytesObj
  rw [if_neg hne, if_pos hlen]

end

/-- Settles O54: each dictionary operation answers and acts by its object's row, its path's rights and the boot state, a commit group is applied,
discarded or reset as a whole, and the credential generation never falls. The order of the statuses is log entry 63, an event's boundary 89. -/
theorem dictionaryOps : Obligations.DictionaryOps := by
  unfold Obligations.DictionaryOps
  refine ⟨fun p a s => ?_, fun g s => ⟨State.exec_applyGroup_refused, State.exec_applyGroup_taken, State.discardGroup_spec s g, State.defaultGroup_spec s g,
    State.boundary_waits, fun v w h => State.boundary_takes h⟩, State.credMinGeneration_spec⟩
  intro answers no x
  refine ⟨fun off len v data => ⟨fun hx => ops_of_none hx off len, fun r hx hn => ops_of_notReady hx hn off len, fun r hx hn =>
      ⟨fun hr => reads_noRight hx hn hr off len, fun hr => reads_answered hx hn hr off len, fun hacc hr => write_noRight hx hn hacc hr, fun hacc hr =>
        ⟨fun hu => write_performs hx hn hacc hr fun port => State.performWrite_unavailable hu,
          fun hu hro => write_performs hx hn hacc hr fun port => State.performWrite_ro hu hro,
          fun hu hrw hb hne hlen => write_bytes_refused hx hn hacc hr hu hrw hb hne hlen,
          fun hu hrw hb hss hidx hfit hlo hhi => write_route hx hn hacc hr hu hfit (by omega) hrw hb hss hidx,
          fun hu hro hb => ⟨(write_scalar_refused hx hn hacc hr hu hro hb).1, (write_scalar_refused hx hn hacc hr hu hro hb).2, fun hfit hlo hhi =>
            ⟨fun hc => write_coupled hx hn hacc hr hu hfit (by omega) hc, fun hc hact => write_register hx hn hacc hr hu hfit (by omega) hc hro hb hact⟩⟩⟩,
        fun hacc hp hu => write_bringUp_refused hx hn hacc hp hu⟩⟩,
    fun hn => exec_nextObject (if_pos hn), fun hn hr => exec_nextObject ?_, fun hn hr => ?_, subscribe_spec s p⟩
  · unfold State.nextAfter
    rw [hn, hr]
    rfl
  · obtain ⟨n, hnext, habove, hsome⟩ := nextAfter_spec hn hr a.toNat
    exact ⟨n, exec_nextObject hnext, habove, hsome⟩

end Sys2Proof.Machine
end

section
/-! PROOFS. Proofs/FailedStreams.lean: a failed stream leaves translation as it is (R471). -/

namespace Sys2Proof.Machine
namespace Dev

/-! What the mills, the sheaves and the queues do with a failed stream leaves translation as it is (R214, R320, R471). -/

theorem foldl_xl {α : Type} {f : Dev → α → Dev} (hf : ∀ (s : Dev) (a : α), (f s a).xl = s.xl) (l : List α) (s : Dev) :
    (l.foldl f s).xl = s.xl := by
  induction l generalizing s with
  | nil => rfl
  | cons a l ih => exact (ih _).trans (hf s a)

theorem ite_xl {c : Prop} [Decidable c] {s t u : Dev} (ht : t.xl = s.xl) (hu : u.xl = s.xl) : (if c then t else u).xl = s.xl := by
  split <;> assumption

variable (s : Dev)

@[simp] theorem xl_freeSlot (slot : SlotId) : (s.freeSlot slot).xl = s.xl := rfl

@[simp] theorem xl_dropHead (q : QueueId) : (s.dropHead q).xl = s.xl := by
  unfold dropHead
  dsimp only
  split
  · split <;> simp
  · simp

@[simp] theorem xl_settle (q : QueueId) : (s.settle q).xl = s.xl := ite_xl (ite_xl rfl rfl) rfl

@[simp] theorem xl_cease (q : QueueId) (r : Nat) (b : Bool) : (s.cease q r b).xl = s.xl :=
  ite_xl ((xl_settle ..).trans (xl_dropHead ..)) rfl

@[simp] theorem xl_beginOp (slot : SlotId) (f : Operation → Operation) : (s.beginOp slot f).xl = s.xl := ite_xl rfl rfl
@[simp] theorem xl_failOp (slot : SlotId) (r va : Nat) : (s.failOp slot r va).xl = s.xl := rfl
@[simp] theorem xl_failBegin (o : Operation) (r va : Nat) : (s.failBegin o r va).xl = s.xl := xl_beginOp ..
@[simp] theorem xl_forgetReads (slot : SlotId) (gone : Nat → Bool) : (s.forgetReads slot gone).xl = s.xl := rfl
@[simp] theorem xl_dropStook (id : Nat) : (s.dropStook id).xl = s.xl := rfl
@[simp] theorem xl_faultStook (st : Stook) (r va : Nat) : (s.faultStook st r va).xl = s.xl := rfl

@[simp] theorem xl_unpin (m : MillId) : (s.unpin m).xl = s.xl := by
  unfold unpin
  split
  · exact modAgent_xl ..
  · rfl

@[simp] theorem xl_acceptOp (m : MillId) : (s.acceptOp m).xl = s.xl := by
  refine ite_xl ?_ rfl
  split
  · exact ite_xl rfl rfl
  · rfl

@[simp] theorem xl_openFills (m : MillId) (n : Nat) : (s.openFills m n).xl = s.xl := by
  induction n generalizing s with
  | zero => rfl
  | succ n ih =>
    unfold openFills
    dsimp only
    split
    · refine ite_xl rfl ?_
      split
      · rfl
      · exact ih _
    · rfl

@[simp] theorem xl_takeTile (o : Operation) (x : MillOp) (group : List Nat) : (s.takeTile o x group).xl = s.xl := by
  refine ite_xl ((foldl_xl (fun s g => ?_) _ _).trans (modOp_xl ..)) rfl
  split
  · rfl
  · exact ite_xl rfl (ite_xl rfl (xl_openFills ..))

@[simp] theorem xl_takeTiles (slot : SlotId) : (s.takeTiles slot).xl = s.xl := by
  unfold takeTiles
  split
  · refine foldl_xl (fun s g => ?_) _ _
    split
    · split
      · exact xl_takeTile ..
      · rfl
    · rfl
  · rfl

@[simp] theorem xl_feed (die : Nat) : (s.feed die).xl = s.xl := by
  refine (foldl_xl (fun s o => xl_takeTiles ..) _ _).trans (foldl_xl (fun s i => ?_) _ _)
  split
  · exact xl_acceptOp ..
  · rfl

@[simp] theorem xl_intake (m : MillId) (n : Nat) : (s.intake m n).xl = s.xl := by
  induction n generalizing s with
  | zero => rfl
  | succ n ih =>
    unfold intake
    dsimp only
    split
    · split
      · rfl
      · refine ite_xl ?_ rfl
        split
        · exact ih _
        · rfl
    · refine ite_xl rfl ?_
      split
      · split
        · rfl
        · split
          · exact ite_xl (ih _) rfl
          · rfl
      · rfl

@[simp] theorem xl_intakeDie (die : Nat) : (s.intakeDie die).xl = s.xl := by
  refine foldl_xl (fun s i => ?_) _ _
  split
  · exact xl_intake ..
  · rfl

@[simp] theorem xl_countPartial (m : MillId) (gone : TileJob → Bool) : (s.countPartial m gone).xl = s.xl := by
  refine foldl_xl (fun s f => ?_) _ _
  split
  · refine foldl_xl (fun s e => ?_) _ _
    dsimp only
    exact ite_xl rfl rfl
  · rfl

@[simp] theorem xl_abandon (j : TileJob) : (s.abandon j).xl = s.xl := by
  have hgroup (f : Mill → Mill) (here : TileJob → Bool) (gone : MillId → Nat → Bool) :
      (j.group.foldl (fun s g => match millId g with
        | none => s
        | some m => ((s.countPartial m here).modMill m f).forgetReads j.slot (gone m)) s).xl = s.xl := by
    refine foldl_xl (fun s g => ?_) _ _
    split
    · rfl
    · exact xl_countPartial ..
  unfold abandon
  cases j.group.head?.bind millId with
  | none => exact hgroup ..
  | some m => exact (xl_intakeDie ..).trans (hgroup ..)

@[simp] theorem xl_failTaken (m : MillId) (slot : SlotId) (r va : Nat) : (s.failTaken m slot r va).xl = s.xl := xl_feed ..

@[simp] theorem xl_failThresher (m : MillId) (w : WaitingStream) (r : Nat) : (s.failThresher m w r).xl = s.xl := by
  unfold failThresher
  dsimp only
  split
  · exact (xl_feed ..).trans (xl_abandon ..)
  · exact xl_failTaken ..
  · rfl

@[simp] theorem xl_failChain (m : MillId) (w : WaitingStream) (r : Nat) : (s.failChain m w r).xl = s.xl := by
  unfold failChain
  dsimp only
  split
  · exact xl_unpin ..
  · exact (xl_feed ..).trans (xl_abandon ..)
  · exact xl_failTaken ..
  · cases (((s.mill m).adds ++ (s.mill m).rows).filter fun x => s.waitedFor w x.slot).head? with
    | none => rfl
    | some e => exact xl_unpin ..

@[simp] theorem xl_failReading (w : WaitingStream) (r : Nat) : (s.failReading w r).xl = s.xl := by
  refine foldl_xl (fun s k => ?_) _ _
  split
  · exact ite_xl (ite_xl ((xl_feed ..).trans (xl_failBegin ..)) (xl_failBegin ..)) rfl
  · rfl

@[simp] theorem xl_failQueue (vpn r : Nat) (w : WaitingStream) (b : Bool) : (s.failQueue vpn r w b).xl = s.xl := by
  unfold failQueue
  split
  · dsimp only
    split
    · refine ite_xl (xl_cease ..) ?_
      split <;> rfl
    · refine (foldl_xl (fun s k => ?_) _ _).trans (ite_xl (xl_cease ..) rfl)
      split
      · exact ite_xl rfl rfl
      · rfl
  · rfl

/-- A failed stream ends its operation, and leaves translation as it is (R471). -/
@[simp] theorem xl_failStream (die : Die) (asid vpn : Nat) (w : WaitingStream) (r : Nat) : (s.failStream die asid vpn w r).xl = s.xl := by
  have hreading := s.xl_failReading w r
  unfold failStream
  dsimp only
  generalize s.failReading w r = t at hreading ⊢
  rw [← hreading]
  refine ite_xl ?_ (ite_xl rfl (xl_failQueue ..))
  refine ite_xl ?_ (ite_xl ?_ (ite_xl (foldl_xl (fun s e => xl_faultStook ..) _ _) (xl_failQueue ..)))
  · split
    · exact xl_failThresher ..
    · rfl
  · split
    · exact xl_failChain ..
    · rfl

/-- Streams that fail leave their miss entry, and the system MMUs stay as they are. -/
theorem mmu_failStreams (die : Die) (asid vpn : Nat) (ws : List WaitingStream) (r : Rights → Nat) (m : MmuId) :
    (s.failStreams die asid vpn ws r).mmu m = s.mmu m := by
  have h : (s.failStreams die asid vpn ws r).xl = (s.dropMiss die asid vpn fun w => ws.any fun y => y.same w).xl :=
    foldl_xl (fun s w => xl_failStream ..) _ _
  exact (congrArg (fun x : XlState => x.mmus[m]) h :)

end Dev
end Sys2Proof.Machine
end

section
/-! PROOFS. Proofs/QueueFields.lean: writes of a queue control block's fields (R105, R106, R125). -/

namespace Sys2Proof.Machine

/-- From x to y waits of the instruction at head have latched at most, and none that was latched has gone (R125). -/
structure Queue.latches (x y : Queue) : Prop where
  rest : y = { x with wait0 := y.wait0, wait1 := y.wait1, brkLatch := y.brkLatch }
  wait0 : x.wait0 = true → y.wait0 = true
  wait1 : x.wait1 = true → y.wait1 = true

theorem Dev.latchedQueue_latches (s : Dev) (x : Queue) : x.latches (s.latchedQueue x) where
  rest := by
    obtain ⟨a, b, c, h⟩ := s.latchedQueue_frame x
    rw [h]
  wait0 h := by
    unfold latchedQueue
    split
    · exact h
    · split
      · exact h
      · dsimp only
        split
        · split
          · exact h
          · split
            · rfl
            · exact h
        · simp [h]
  wait1 h := by
    unfold latchedQueue
    split
    · exact h
    · split
      · exact h
      · dsimp only
        split
        · exact h
        · simp [h]

/-- The waits that hold at a head whose instruction is no tested BREAK are latched (R125). -/
theorem Dev.latchedQueue_holds (s : Dev) (x : Queue) {k : BitVec 256} (hr : x.state = .running) (hk : x.fetched = some k)
    (hb : isTestedBreak k = false) : (s.waitHolds x.tref (iWait0 k) = true → (s.latchedQueue x).wait0 = true)
      ∧ (s.waitHolds x.tref (iWait1 k) = true → (s.latchedQueue x).wait1 = true) := by
  unfold latchedQueue
  rw [hk]
  dsimp only
  rw [if_neg (not_not_intro hr), if_neg (by simp [hb])]
  exact ⟨fun h => by simp [h], fun h => by simp [h]⟩

/-- A field of a queue control block is written beside its latches. -/
theorem Queue.writeField_latched (x : Queue) (f : QueueField) (v : Nat) (a b c : Bool) :
    ({ x with wait0 := a, wait1 := b, brkLatch := c } : Queue).writeField f v
      = { x.writeField f v with wait0 := a, wait1 := b, brkLatch := c } := by
  by_cases h : x.state = .detached
  all_goals cases f <;> simp [writeField, h]

theorem Queue.writeField_waits (x : Queue) (f : QueueField) (v : Nat) :
    (x.writeField f v).wait0 = x.wait0 ∧ (x.writeField f v).wait1 = x.wait1 ∧ (x.writeField f v).brkLatch = x.brkLatch := by
  by_cases h : x.state = .detached
  all_goals cases f <;> simp [writeField, h]

/-- A field is written into a queue of which waits have latched. -/
theorem Queue.latches.writeField {x y : Queue} (h : x.latches y) (f : QueueField) (v : Nat) : (x.writeField f v).latches (y.writeField f v) := by
  obtain ⟨h0, h1, h2⟩ := x.writeField_waits f v
  obtain ⟨g0, g1, g2⟩ := y.writeField_waits f v
  refine ⟨?_, fun e => ?_, fun e => ?_⟩
  · rw [g0, g1, g2]
    exact (congrArg (fun z : Queue => z.writeField f v) h.rest).trans (x.writeField_latched ..)
  · rw [g0]; exact h.wait0 (h0 ▸ e)
  · rw [g1]; exact h.wait1 (h1 ▸ e)

theorem Queue.latches.trans {x y z : Queue} (h : x.latches y) (g : y.latches z) : x.latches z where
  rest := g.rest.trans (congrArg (fun y : Queue => { y with wait0 := z.wait0, wait1 := z.wait1, brkLatch := z.brkLatch }) h.rest)
  wait0 e := g.wait0 (h.wait0 e)
  wait1 e := g.wait1 (h.wait1 e)

namespace Dev

/-- The write of a field of a queue control block, before what a stop_after reached stops (R105, R125). -/
def queueFieldPut (s : Dev) (q : QueueId) (f : QueueField) (v : Nat) : Dev := ((s.latch q).modQueue q (fun x => x.writeField f v)).latch q

variable {s : Dev} {q : QueueId} {f : QueueField} {v : Nat}

theorem queue_queueFieldPut (s : Dev) (q : QueueId) (f : QueueField) (v : Nat) :
    (s.queueFieldPut q f v).queue q
      = ((s.latch q).modQueue q (fun x => x.writeField f v)).latchedQueue ((s.latchedQueue (s.queue q)).writeField f v) := by
  unfold queueFieldPut
  rw [queue_latch, if_pos rfl, queue_modQueue, if_pos rfl, queue_latch, if_pos rfl]

theorem latches_queueFieldPut (s : Dev) (q : QueueId) (f : QueueField) (v : Nat) :
    ((s.queue q).writeField f v).latches ((s.queueFieldPut q f v).queue q) := by
  rw [queue_queueFieldPut]
  exact ((s.latchedQueue_latches _).writeField f v).trans (latchedQueue_latches ..)

theorem onlyQueue_queueFieldPut (s : Dev) (q : QueueId) (f : QueueField) (v : Nat) : s.onlyQueue (s.queueFieldPut q f v) q :=
  ((onlyQueue_modQueue ..).trans (onlyQueue_modQueue ..)).trans (onlyQueue_modQueue ..)

/-- A written stop_after that issued has reached (R105). -/
def stopReached (d : Dev) (q : QueueId) (f : QueueField) : Prop :=
  f = .stopAfter ∧ (d.queue q).state = .running ∧ (d.queue q).stopAfter ≠ 0 ∧ (d.queue q).stopAfter = (d.queue q).issued

theorem writeQueueField_of_not (h : ¬(s.queueFieldPut q f v).stopReached q f) : s.writeQueueField q f v = s.queueFieldPut q f v := by
  unfold writeQueueField
  refine if_neg fun e => h ?_
  simp only [Bool.and_eq_true, decide_eq_true_eq] at e
  obtain ⟨⟨⟨h1, h2⟩, h3⟩, h4⟩ := e
  exact ⟨h1, h2, h3, h4⟩

theorem writeQueueField_of_stop (h : (s.queueFieldPut q f v).stopReached q f) :
    s.writeQueueField q f v = (s.queueFieldPut q f v).cease q 0x10 false := by
  obtain ⟨h1, h2, h3, h4⟩ := h
  unfold writeQueueField
  refine if_pos ?_
  simp only [Bool.and_eq_true, decide_eq_true_eq]
  exact ⟨⟨⟨h1, h2⟩, h3⟩, h4⟩

theorem stopAfter_settle (s : Dev) (q : QueueId) : ((s.settle q).queue q).stopAfter = (s.queue q).stopAfter := by
  unfold settle
  dsimp only
  split_ifs
  · rw [queue_setQueue_same]
  · rw [queue_setQueue_same]
  · rfl

theorem stopAfter_cease (s : Dev) (q : QueueId) (r : Nat) (b : Bool) : ((s.cease q r b).queue q).stopAfter = (s.queue q).stopAfter := by
  unfold cease
  dsimp only
  split
  · rw [stopAfter_settle, queue_setQueue_same, queue_dropHead]
    split_ifs <;> rfl
  · rfl

/-- The waits that held under the old tref stay latched as a new one is written (R125). -/
theorem waits_queueFieldPut {k : BitVec 256} (hr : (s.queue q).state = .running) (hk : (s.queue q).fetched = some k) (hb : isTestedBreak k = false) :
    (s.waitHolds (s.queue q).tref (iWait0 k) = true → ((s.queueFieldPut q f v).queue q).wait0 = true)
      ∧ (s.waitHolds (s.queue q).tref (iWait1 k) = true → ((s.queueFieldPut q f v).queue q).wait1 = true) := by
  obtain ⟨h0, h1⟩ := s.latchedQueue_holds (s.queue q) hr hk hb
  obtain ⟨g0, g1, -⟩ := (s.latchedQueue (s.queue q)).writeField_waits f v
  have hl := ((s.latch q).modQueue q (fun x => x.writeField f v)).latchedQueue_latches ((s.latchedQueue (s.queue q)).writeField f v)
  rw [queue_queueFieldPut]
  exact ⟨fun e => hl.wait0 (g0.trans (h0 e)), fun e => hl.wait1 (g1.trans (h1 e))⟩

end Dev

namespace State

variable {s : State} {q : QueueId} {f : QueueField}

theorem exec_queueField (q : QueueId) (f : QueueField) (v : U64) (s : State) :
    exec (.registerWrite (.queue q f) v) s = .next { s with toDev := s.writeQueueField q f v.toNat } := rfl

/-- What a write of a queue field makes of its queue, but for the latches of its waits. -/
def queuePut (s : State) (q : QueueId) (f : QueueField) (v : U64) (y : Queue) : Prop :=
  ∃ u, exec (.registerWrite (.queue q f) v) s = .next u ∧ s.onlyQueue u q ∧ u.queue q = { y with
    wait0 := (u.queue q).wait0, wait1 := (u.queue q).wait1, brkLatch := (u.queue q).brkLatch }

theorem queuePut_of_not {v : U64} (h : ¬(s.queueFieldPut q f v.toNat).stopReached q f) : s.queuePut q f v ((s.queue q).writeField f v.toNat) := by
  have hexec := exec_queueField q f v s
  rw [Dev.writeQueueField_of_not h] at hexec
  exact ⟨_, hexec, (s.onlyQueue_queueFieldPut q f v.toNat).state rfl, (s.latches_queueFieldPut q f v.toNat).rest⟩

theorem queuePut_of_ne (hf : f ≠ .stopAfter) (v : U64) : s.queuePut q f v ((s.queue q).writeField f v.toNat) :=
  queuePut_of_not fun h => hf h.1

theorem stopReached_iff (v : Nat) : (s.queueFieldPut q .stopAfter v).stopReached q .stopAfter
    ↔ (s.queue q).state = .running ∧ BitVec.ofNat 32 v ≠ 0 ∧ BitVec.ofNat 32 v = (s.queue q).issued := by
  have hq := (s.latches_queueFieldPut q .stopAfter v).rest
  unfold Dev.stopReached
  rw [hq]
  exact ⟨fun h => h.2, fun h => ⟨rfl, h⟩⟩

/-- A stop_after written at the value of issued stops its queue with reason 0x10 (R105). -/
theorem stopAfter_stops {v : U64} (h : (s.queueFieldPut q .stopAfter v.toNat).stopReached q .stopAfter) :
    ∃ u, exec (.registerWrite (.queue q .stopAfter) v) s = .next u ∧ (u.queue q).stopAfter = BitVec.ofNat 32 v.toNat ∧ u.toDev.stopsWith q 0x10 := by
  have hexec := exec_queueField q .stopAfter v s
  have hq := congrArg Queue.stopAfter (s.latches_queueFieldPut q .stopAfter v.toNat).rest
  rw [Dev.writeQueueField_of_stop h] at hexec
  obtain ⟨-, hr, -⟩ := h
  generalize s.queueFieldPut q .stopAfter v.toNat = d at hexec hq hr
  exact ⟨_, hexec, (d.stopAfter_cease q 0x10 false).trans hq, d.stopsWith_cease q 0x10 false hr⟩

end State
end Sys2Proof.Machine
end

section
/-! PROOFS. Proofs/RegisterFields.lean: writes of relay entries, window entries and core mailboxes (R354, R578, R680). -/

namespace Sys2Proof.Machine

/-! A word of a relay entry (R354). -/

theorem bits_word (e k : Nat) : bits e (64 * k + 63) (64 * k) = e / 2 ^ (64 * k) % 2 ^ 64 := by
  unfold bits
  rw [Nat.shiftRight_eq_div_pow]
  congr 2
  omega

/-- The number e with its 64-bit word k replaced by v. -/
def withWord (e k v : Nat) : Nat := e - bits e (64 * k + 63) (64 * k) * 2 ^ (64 * k) + v * 2 ^ (64 * k)

/-- The word lies between what is below it and what is above it. -/
theorem withWord_eq (e k v : Nat) : withWord e k v = (e / 2 ^ (64 * k) / 2 ^ 64 * 2 ^ 64 + v) * 2 ^ (64 * k) + e % 2 ^ (64 * k) := by
  unfold withWord
  rw [bits_word]
  have h1 := Nat.div_add_mod' e (2 ^ (64 * k))
  have h2 := Nat.div_add_mod' (e / 2 ^ (64 * k)) (2 ^ 64)
  generalize e % 2 ^ (64 * k) = lo at *
  generalize e / 2 ^ (64 * k) = q at *
  generalize 2 ^ (64 * k) = p at *
  rw [← h1]
  have h3 : q * p = (q / 2 ^ 64 * 2 ^ 64) * p + (q % 2 ^ 64) * p := by rw [← Nat.add_mul, h2]
  rw [Nat.add_mul]
  omega

theorem withWord_div (e k v : Nat) : withWord e k v / 2 ^ (64 * k) = e / 2 ^ (64 * k) / 2 ^ 64 * 2 ^ 64 + v := by
  rw [withWord_eq, Nat.add_comm, Nat.add_mul_div_right _ _ (Nat.two_pow_pos _), Nat.div_eq_of_lt (Nat.mod_lt _ (Nat.two_pow_pos _)), Nat.zero_add]

theorem withWord_mod (e k v : Nat) : withWord e k v % 2 ^ (64 * k) = e % 2 ^ (64 * k) := by
  rw [withWord_eq, Nat.mul_add_mod_self_right, Nat.mod_mod]

theorem div_mod_eq_of_mod {a b j k : Nat} (hjk : j < k) (h : a % 2 ^ (64 * k) = b % 2 ^ (64 * k)) :
    a / 2 ^ (64 * j) % 2 ^ 64 = b / 2 ^ (64 * j) % 2 ^ 64 := by
  have hsplit : 2 ^ (64 * k) = 2 ^ (64 * j) * 2 ^ 64 * 2 ^ (64 * (k - j - 1)) := by
    rw [← Nat.pow_add, ← Nat.pow_add]
    congr 1
    omega
  have hmod : a % (2 ^ (64 * j) * 2 ^ 64) = b % (2 ^ (64 * j) * 2 ^ 64) := by
    rw [hsplit] at h
    rw [← Nat.mod_mul_right_mod a _ (2 ^ (64 * (k - j - 1))), h, Nat.mod_mul_right_mod]
  rw [← Nat.mod_mul_right_div_self, ← Nat.mod_mul_right_div_self, hmod]

/-- One word of a relay entry takes a value and the others keep theirs. -/
theorem bits_withWord (e : Nat) {v : Nat} (hv : v < 2 ^ 64) (j k : Nat) :
    bits (withWord e k v) (64 * j + 63) (64 * j) = if j = k then v else bits e (64 * j + 63) (64 * j) := by
  rw [bits_word, bits_word]
  rcases Nat.lt_trichotomy j k with hlt | rfl | hlt
  · rw [if_neg (Nat.ne_of_lt hlt)]
    exact div_mod_eq_of_mod hlt (withWord_mod e k v)
  · rw [if_pos rfl, withWord_div, Nat.mul_add_mod_self_right, Nat.mod_eq_of_lt hv]
  · rw [if_neg (Nat.ne_of_gt hlt)]
    have habove : ∀ x, x / 2 ^ (64 * j) = x / 2 ^ (64 * k) / 2 ^ 64 / 2 ^ (64 * (j - k - 1)) := by
      intro x
      rw [Nat.div_div_eq_div_mul, Nat.div_div_eq_div_mul, ← Nat.pow_add, ← Nat.pow_add]
      congr 2
      omega
    rw [habove, habove e, withWord_div, Nat.add_comm, Nat.add_mul_div_right _ _ (Nat.two_pow_pos _), Nat.div_eq_of_lt hv, Nat.zero_add]

namespace State

variable {s : State} {v : U64}

theorem modRelay_of_eq {r : Fin 64} {f : Relay → Relay} (h : f s.relays[r] = s.relays[r]) : s.modRelay r f = s := by
  have hset : s.relays.set r (f s.relays[r]) r.isLt = s.relays := by rw [h]; exact Vector.set_getElem_self ..
  exact congrArg (fun x => { s with relays := x }) hset

/-- A write of a relay control block's field (R355, R356). -/
theorem exec_relayField (r : Fin 64) (f : RelayField) (v : U64) (s : State) :
    exec (.registerWrite (.relay r f) v) s = .next (s.modRelay r fun x => x.writeField f v.toNat) := rfl

theorem relay_put (r : Fin 64) (f : RelayField) {y : Relay} (h : s.relays[r].writeField f v.toNat = y) :
    ∃ u, exec (.registerWrite (.relay r f) v) s = .next u ∧ u.relays[r] = y :=
  ⟨_, exec_relayField r f v s, (s.toDev.relay_modRelay_same r _).trans h⟩

theorem relay_kept (r : Fin 64) (f : RelayField) (h : s.relays[r].writeField f v.toNat = s.relays[r]) :
    exec (.registerWrite (.relay r f) v) s = .next s := by
  rw [exec_relayField, modRelay_of_eq h]

/-- An enabled relay queue keeps its owners (R355). -/
theorem writeField_enabled {x : Relay} (h : x.enable = true) (n : Nat) :
    x.writeField .asid n = x ∧ x.writeField .producer n = x ∧ x.writeField .consumer n = x := ⟨if_pos h, if_pos h, if_pos h⟩

theorem writeField_disabled {x : Relay} (h : x.enable = false) (n : Nat) :
    x.writeField .asid n = { x with asid := BitVec.ofNat 12 n } ∧ x.writeField .producer n = { x with producer := BitVec.ofNat 12 n }
      ∧ x.writeField .consumer n = { x with consumer := BitVec.ofNat 12 n } := by
  have hne : ¬x.enable = true := by simp [h]
  exact ⟨if_neg hne, if_neg hne, if_neg hne⟩

theorem relayEntry_word (r : Fin 64) (i : Fin 256) (k : Fin 8) (v : U64) (s : State) :
    ∃ u, exec (.registerWrite (.relayEntry r i k) v) s = .next u ∧ ∀ j : Fin 8,
      bits (Table.get 0 u.relays[r].entries i.val) (64 * j.val + 63) (64 * j.val) =
        (if j = k then v.toNat else bits (Table.get 0 s.relays[r].entries i.val) (64 * j.val + 63) (64 * j.val)) := by
  refine ⟨s.modRelay r fun x => x.writeEntry i.val k.val v.toNat, rfl, fun j => ?_⟩
  have hentry := (congrArg (fun x : Relay => Table.get 0 x.entries i.val) (s.toDev.relay_modRelay_same r fun x => x.writeEntry i.val k.val v.toNat)).trans
    (Table.get_set_same (0 : Nat) (s.relay r).entries i.val (withWord (Table.get 0 (s.relay r).entries i.val) k.val v.toNat))
  refine (congrArg (fun e => bits e (64 * j.val + 63) (64 * j.val)) hentry).trans ?_
  refine (bits_withWord _ v.isLt j.val k.val).trans ?_
  simp only [Fin.ext_iff]
  rfl

/-! A window table entry (R578, R579). -/

/-- A window table entry under a write of its low word, before a clear enable disables it (R578). -/
def windowLow (x : Window) (n : Nat) : Window :=
  { x with read := bit n 1, write := bit n 2, atomic := bit n 3, enable := x.enable || bit n 0,
           target := if x.enable then x.target else BitVec.ofNat 16 (bits n 63 48),
           tbase := if x.enable then x.tbase else BitVec.ofNat 12 (bits n 41 30) }

theorem exec_windowEntry (k : Fin 1024) (high : Bool) (v : U64) (s : State) :
    exec (.registerWrite (.windowEntry k high) v) s = .next { s with toDev := s.toDev.writeWindow k.val high v.toNat } := rfl

theorem window_high (k : Fin 1024) (v : U64) (s : State) : ∃ u, exec (.registerWrite (.windowEntry k true) v) s = .next u
    ∧ u.window k.val = if (s.window k.val).enable then s.window k.val else { s.window k.val with pkey := BitVec.ofNat 12 v.toNat } := by
  refine ⟨_, exec_windowEntry k true v s, ?_⟩
  unfold Dev.writeWindow
  dsimp only
  rw [if_pos rfl]
  split
  · rfl
  · exact (Dev.window_setWindow ..).trans (if_pos rfl)

theorem writeWindow_low (d : Dev) (w n : Nat) : d.writeWindow w false n
    = if bit n 0 then d.setWindow w (windowLow (d.window w) n) else (d.setWindow w (windowLow (d.window w) n)).disableWindow w := by
  unfold Dev.writeWindow windowLow
  cases h : (d.window w).enable <;> simp [h]

theorem window_low_on (k : Fin 1024) {v : U64} (s : State) (h : bit v.toNat 0 = true) :
    ∃ u, exec (.registerWrite (.windowEntry k false) v) s = .next u ∧ u.window k.val = windowLow (s.window k.val) v.toNat := by
  have hexec := exec_windowEntry k false v s
  rw [writeWindow_low, if_pos h] at hexec
  exact ⟨_, hexec, (Dev.window_setWindow ..).trans (if_pos rfl)⟩

theorem enable_disableWindow (d : Dev) (w : Nat) : ((d.disableWindow w).window w).enable = false := by
  unfold Dev.disableWindow
  split
  · rw [Dev.window_setWindow, if_pos rfl]
  · next h => simpa using h

theorem window_low_off (k : Fin 1024) {v : U64} (s : State) (h : bit v.toNat 0 = false) :
    ∃ u, exec (.registerWrite (.windowEntry k false) v) s = .next u ∧ (u.window k.val).enable = false := by
  have hexec := exec_windowEntry k false v s
  rw [writeWindow_low, if_neg (by simp [h])] at hexec
  exact ⟨_, hexec, enable_disableWindow ..⟩

/-! A core's mailbox (R680, R681). -/

theorem doorbell_done (u : State) (h : Fin 192) :
    Table.get 0 (u.modMgmt fun m => { m with doorbell := Table.set 0 m.doorbell h.val 2 }).mgmt.doorbell h.val = 2 :=
  Table.get_set_same (0 : Nat) u.mgmt.doorbell h.val 2

/-- A store to a doorbell that does not read busy leaves it done (R681). -/
theorem submitMailbox_done {h : Fin 192} (hd : Table.get 0 s.mgmt.doorbell h.val ≠ 1) :
    Table.get 0 (s.submitMailbox h).mgmt.doorbell h.val = 2 := by
  unfold submitMailbox
  rw [if_neg hd]
  dsimp only
  split
  · exact s.doorbell_done h
  · exact State.doorbell_done _ h

theorem submitMailbox_busy {h : Fin 192} (hd : Table.get 0 s.mgmt.doorbell h.val = 1) : s.submitMailbox h = s := if_pos hd

theorem mailbox_word (h : Fin 192) {k : Fin 512} (hk : k ≠ 0) (v : U64) (s : State) :
    ∃ u, exec (.registerWrite (.mailbox h k) v) s = .next u ∧ Table.get 0 u.mgmt.mailbox (512 * h.val + k.val) = v
      ∧ u.mgmt.doorbell = s.mgmt.doorbell ∧ u.obj = s.obj := by
  have hexec : exec (.registerWrite (.mailbox h k) v) s
      = .next (s.modMgmt fun m => { m with mailbox := Table.set 0 m.mailbox (512 * h.val + k.val) v }) := congrArg _ (if_neg hk)
  exact ⟨_, hexec, Table.get_set_same (0 : U64) s.mgmt.mailbox (512 * h.val + k.val) v, rfl, rfl⟩

theorem mailbox_doorbell (h : Fin 192) (v : U64) (s : State) : exec (.registerWrite (.mailbox h 0) v) s = exec (.coreMailboxSubmit h) s := rfl

end State
end Sys2Proof.Machine
end

section
/-! PROOFS. Proofs/MmuFields.lean: writes of a system MMU's fields (R431, R478, R479). -/

namespace Sys2Proof.Machine
namespace Dev

variable {s t u : Dev} {m : MmuId}

/-! A fault queue that is off takes no record (R479). -/

/-- From s to t a system MMU whose fault queue is off has held no record more and no record less. -/
structure heldStep (s t : Dev) : Prop where
  off : ∀ k, (s.mmu k).fqEn = false → (t.mmu k).fqEn = false ∧ (t.mmu k).holding = (s.mmu k).holding

namespace heldStep

theorem of_mmus (h : ∀ k, t.mmu k = s.mmu k) : s.heldStep t := ⟨fun k hk => by
  rw [h k]
  exact ⟨hk, rfl⟩⟩

theorem of_xl (h : t.xl = s.xl) : s.heldStep t := of_mmus fun k => congrArg (fun x : XlState => x.mmus[k]) h
theorem of_mem (h : s.memOnly t) : s.heldStep t := of_xl (by rw [h])

theorem refl (s : Dev) : s.heldStep s := of_xl rfl

theorem trans (h1 : s.heldStep t) (h2 : t.heldStep u) : s.heldStep u := ⟨fun k hk => by
  obtain ⟨e1, g1⟩ := h1.off k hk
  obtain ⟨e2, g2⟩ := h2.off k e1
  exact ⟨e2, g2.trans g1⟩⟩

theorem ite {c : Prop} [Decidable c] (h1 : s.heldStep t) (h2 : s.heldStep u) : s.heldStep (if c then t else u) := by
  split <;> assumption

theorem foldl {α : Type} {f : Dev → α → Dev} (hf : ∀ (s : Dev) (a : α), s.heldStep (f s a)) (l : List α) (s : Dev) : s.heldStep (l.foldl f s) := by
  induction l generalizing s with
  | nil => exact refl s
  | cons a l ih => exact trans (hf s a) (ih _)

/-- A system MMU whose fault queue is on, or whose held records stay, is changed. -/
theorem modMmu (s : Dev) (m : MmuId) {f : Mmu → Mmu} (he : (f (s.mmu m)).fqEn = (s.mmu m).fqEn)
    (h : (s.mmu m).fqEn = false → (f (s.mmu m)).holding = (s.mmu m).holding) : s.heldStep (s.modMmu m f) := ⟨fun k hk => by
  rw [mmu_modMmu]
  split
  · next e =>
    subst e
    exact ⟨he.trans hk, h hk⟩
  · exact ⟨hk, rfl⟩⟩

theorem dropRecord (s : Dev) (m : MmuId) : s.heldStep (s.dropRecord m) := modMmu s m rfl fun _ => rfl

theorem hold {r : FaultRecord} (h : (s.mmu m).fqEn = true) : s.heldStep (s.modMmu m fun x => { x with holding := x.holding ++ [r] }) :=
  modMmu s m rfl fun e => by simp [h] at e

theorem moduleFatal (s : Dev) (n : Nat) : s.heldStep (s.moduleFatal n) := of_mmus fun _ => rfl

theorem holdRecord (s : Dev) (m : MmuId) (r : FaultRecord) : s.heldStep (s.holdRecord m r) := by
  unfold Dev.holdRecord
  cases h : (s.mmu m).fqEn with
  | false => exact dropRecord s m
  | true => exact ite (dropRecord s m) (ite (hold h) (ite (moduleFatal ..) (dropRecord ..)))

theorem readError (s : Dev) (g : Option Nat) : s.heldStep (s.readError g).1 :=
  of_mem (s.memOnly_readError g)

theorem dramReadBy {rep : Dev → LineTag → Nat → Dev} (hrep : ∀ (s : Dev) (t : LineTag) (n : Nat), s.heldStep (rep s t n)) (s : Dev) (tag : LineTag)
    (g : Option Nat) (n : Nat) : s.heldStep (Dev.dramReadBy rep s tag g n).1 := by
  have herr : s.heldStep ((s.bump 7 0x100 (s.stackOf (tagLoc tag)) 1).readError g).1 := 
    trans (t := s.bump 7 0x100 (s.stackOf (tagLoc tag)) 1) (of_xl rfl) (readError ..)
  unfold Dev.dramReadBy
  dsimp only
  generalize (s.bump 7 0x100 (s.stackOf (tagLoc tag)) 1).readError g = r at herr
  have hcount (u : Dev) (a b c : Nat) : u.heldStep (u.bump a b c 1) := of_xl rfl
  split
  · exact herr
  · exact herr.trans ((hcount ..).trans (hcount ..))
  · exact herr
  · exact herr.trans (of_xl rfl)
  · exact herr
  · split
    · exact herr.trans ((hcount ..).trans (hrep ..))
    · exact herr.trans ((hcount ..).trans ((hcount ..).trans ((of_mem (memOnly_dramSetPoison ..)).trans ((hcount ..).trans (hrep ..)))))

theorem closed {rep : Dev → LineTag → Nat → Dev} (hrep : ∀ (s : Dev) (t : LineTag) (n : Nat), s.heldStep (rep s t n)) : memClosed heldStep rep where
  trans := trans
  mem hm _ _ := of_mem hm
  count _ _ _ _ _ _ := of_xl rfl
  read s tag n := dramReadBy hrep s tag none n

theorem writeRecord (s : Dev) (m : MmuId) (r : FaultRecord) : s.heldStep (s.writeRecord m r) := by
  have hrec : s.heldStep (((r.first :: r.more).zipIdx).foldl (fun s' e =>
      Dev.physWriteBy Dev.holdDram s' ((s.mmu m).entryAddr e.2) (leBytes 64 e.1) false ⟨8 + m.val, by omega⟩) s) :=
    foldl (fun s e => (closed fun s t n => holdRecord s _ _).physWriteBy ..) _ _
  unfold Dev.writeRecord
  dsimp only
  generalize ((r.first :: r.more).zipIdx).foldl _ s = u at hrec ⊢
  have htail := hrec.trans (modMmu u m (f := fun x => { x with fqTail := x.fqTail + BitVec.ofNat 32 r.entries }) rfl fun _ => rfl)
  generalize u.modMmu m _ = v at htail ⊢
  have hcount : s.heldStep (v.bump 1 0x113 (8 + m.val) 1) := htail.trans (of_xl rfl)
  generalize v.bump 1 0x113 (8 + m.val) 1 = v at hcount ⊢
  have hdirty : s.heldStep (if r.first % 256 = 0x11 then v.modXl (fun v => { v with lastDirty := some r.first }) else v) :=
    ite (hcount.trans (of_mmus fun _ => rfl)) hcount
  exact ite (hdirty.trans (of_xl rfl)) hdirty

/-- A fault queue that is on writes what it holds. -/
theorem drainHeld (h : (s.mmu m).fqEn = true) (n : Nat) : s.heldStep (s.drainHeld m n) := by
  induction n generalizing s with
  | zero => exact refl s
  | succ n ih =>
    unfold Dev.drainHeld
    split
    · exact refl s
    · next r rs _ =>
      have hpop : s.heldStep (s.modMmu m fun x => { x with holding := rs }) := modMmu s m rfl fun e => by simp [h] at e
      have hon : (((s.modMmu m fun x => { x with holding := rs }).writeRecord m r).mmu m).fqEn = true := by
        rw [(reportStep.writeRecord (s.modMmu m fun x => { x with holding := rs }) m r).mmu m, mmu_modMmu, if_pos rfl]
        exact h
      exact ite (hpop.trans ((writeRecord ..).trans (ih hon))) (refl s)

theorem reportTo (s : Dev) (m : MmuId) (r : FaultRecord) : s.heldStep (s.reportTo m r) := by
  unfold Dev.reportTo
  dsimp only
  have hfatal : s.heldStep (if r.cls = .fatal then s.moduleFatal r.first else s) := ite (moduleFatal ..) (refl s)
  generalize (if r.cls = .fatal then s.moduleFatal r.first else s) = t at hfatal ⊢
  refine hfatal.trans ?_
  cases h : (t.mmu m).fqEn with
  | false => exact dropRecord t m
  | true =>
    have hon : ((t.drainHeld m 32).mmu m).fqEn = true := by
      rw [(reportStep.drainHeld t m 32).mmu m]
      exact h
    exact ite (dropRecord t m) ((drainHeld h 32).trans (ite (dropRecord ..) (ite (writeRecord ..) (ite (hold hon) (ite (moduleFatal ..) (dropRecord ..))))))

end heldStep

/-- What the memory system does reaches no fault queue that is off. -/
theorem heldStep_closed : memClosed heldStep reportDram := heldStep.closed fun s _ _ => heldStep.reportTo s _ _

theorem heldStep_cqTake (s : Dev) (m : MmuId) : s.heldStep (s.cqTake m) := by
  have herror (s : Dev) (i : Nat) : s.heldStep (s.cqError m i) := heldStep.modMmu s m rfl fun _ => rfl
  unfold cqTake
  dsimp only
  refine .ite (.refl s) (.ite (herror ..) (.ite (.refl s) ?_))
  have hread := heldStep_closed.onceReads s [tagOf (bits (s.mmu m).cqb.toNat 53 10 * 4096 + 16 * ((s.mmu m).cqh.toNat % 2 ^ ((s.mmu m).cqb.toNat % 32 + 1))) false]
  exact .ite (hread.trans (herror ..)) (.ite hread (hread.trans (herror ..)))

theorem cqTake_of_off (h : bit (s.mmu m).cqcsr.toNat 0 = false) : s.cqTake m = s := if_pos (by simp [h])

/-! A write of a system MMU's field, and what follows it (R431, R478, R479). -/

/-- A system MMU as a command that follows a write leaves it, but for records and what the command queue's errors set. -/
def told (z y : Mmu) : Prop := z = { y with fqTail := z.fqTail, fqDropped := z.fqDropped, holding := z.holding }

/-- What a write of a field that makes a system MMU's registers y leaves of both system MMUs. -/
structure mmuTakes (s u : Dev) (m : MmuId) (y : Mmu) : Prop where
  alone : bit y.cqcsr.toNat 0 = false → u.mmu m = y ∧ ∀ k, k ≠ m → u.mmu k = s.mmu k
  here : told (u.mmu m) { y with cqcsr := (u.mmu m).cqcsr, ipsr := (u.mmu m).ipsr }
  others : ∀ k, k ≠ m → told (u.mmu k) (s.mmu k)

theorem told_cqTake_ne (s : Dev) {m k : MmuId} (h : k ≠ m) : told ((s.cqTake m).mmu k) (s.mmu k) := by
  have hne (t : Dev) (i : Nat) : (t.cqError m i).mmu k = t.mmu k := by
    rw [cqError, mmu_modMmu, if_neg h]
  have hread (l : List LineTag) : told ((s.onceReads l).mmu k) (s.mmu k) := (reportStep_closed.onceReads s l).mmu k
  unfold cqTake
  dsimp only
  split
  · rfl
  · split
    · rw [hne]; rfl
    · split
      · rfl
      · split
        · rw [hne]; exact hread _
        · split
          · exact hread _
          · rw [hne]; exact hread _

theorem mmuTakes_cqTake (s : Dev) (m : MmuId) (f : Mmu → Mmu) : s.mmuTakes ((s.modMmu m f).cqTake m) m (f (s.mmu m)) := by
  have hhere : (s.modMmu m f).mmu m = f (s.mmu m) := (mmu_modMmu ..).trans (if_pos rfl)
  have hother (k : MmuId) (hk : k ≠ m) : (s.modMmu m f).mmu k = s.mmu k := (mmu_modMmu ..).trans (if_neg hk)
  refine ⟨fun h => ?_, ?_, fun k hk => ?_⟩
  · rw [cqTake_of_off (by rw [hhere]; exact h)]
    exact ⟨hhere, hother⟩
  · have h := (cqStep.cqTake (s.modMmu m f) m).mmu m
    rw [hhere] at h
    exact h
  · have h := told_cqTake_ne (s.modMmu m f) hk
    rw [hother k hk] at h
    exact h

theorem writeMmuField_of_not {f : MmuField} {n : Nat} (h : ¬(f = .fqEn ∧ bit n 0 = false)) :
    s.writeMmuField m f n = (s.modMmu m fun x => x.writeField f n).cqTake m := if_neg (by simpa using h)

theorem writeMmuField_off {n : Nat} (h : bit n 0 = false) :
    s.writeMmuField m .fqEn n = ((s.modMmu m fun x => x.writeField .fqEn n).cqTake m).queueOff m := if_pos (by simp [h])

/-- A fault queue that holds nothing, and for which nothing waits, is turned off alone. -/
theorem mmu_queueOff_of_none (hw : (s.mmu m).waitingPr = []) (hh : (s.mmu m).holding = []) (k : MmuId) : (s.queueOff m).mmu k = s.mmu k := by
  unfold queueOff
  dsimp only
  rw [hw, hh]
  simp only [List.filterMap_nil, List.append_nil, List.filter_nil, List.foldl_nil]
  refine (mmu_modMmu ..).trans ?_
  split
  · next h =>
    rw [h]
    cases hx : s.mmu m
    rw [hx] at hw hh
    cases hw
    cases hh
    rfl
  · rfl

/-- What waited for a fault queue that is turned off fails or is dropped, which leaves the queue off (R479). -/
theorem fqEn_queueOff (s : Dev) (m k : MmuId) : ((s.queueOff m).mmu k).fqEn = (s.mmu k).fqEn := by
  have hfold {α : Type} (f : Dev → α → Dev) (hf : ∀ (s : Dev) (a : α), ((f s a).mmu k).fqEn = (s.mmu k).fqEn) (l : List α) (s : Dev) :
      ((l.foldl f s).mmu k).fqEn = (s.mmu k).fqEn := by
    induction l generalizing s with
    | nil => rfl
    | cons a l ih => exact (ih _).trans (hf s a)
  have hmod (s : Dev) (f : Mmu → Mmu) (hf : ∀ x, (f x).fqEn = x.fqEn) : ((s.modMmu m f).mmu k).fqEn = (s.mmu k).fqEn := by
    rw [mmu_modMmu]
    split
    · next h => rw [h, hf]
    · rfl
  have hdrop (s : Dev) : ((s.dropRecord m).mmu k).fqEn = (s.mmu k).fqEn := hmod s (fun x => { x with fqDropped := x.fqDropped + 1 }) fun _ => rfl
  have hclear := hmod s (fun y => { y with waitingPr := [], holding := [] }) fun _ => rfl
  unfold queueOff
  dsimp only
  rw [← hclear, hfold _ fun s _ => hdrop s]
  generalize s.modMmu m (fun y => { y with waitingPr := [], holding := [] }) = t
  refine hfold _ (fun s e => ?_) _ t
  split
  · rfl
  · exact congrArg Mmu.fqEn (mmu_failStreams ..)

theorem fqEn_writeMmuField_off {n : Nat} (h : bit n 0 = false) : ((s.writeMmuField m .fqEn n).mmu m).fqEn = false := by
  have htake := congrArg Mmu.fqEn (mmuTakes_cqTake s m fun x => x.writeField .fqEn n).here
  rw [writeMmuField_off h, fqEn_queueOff]
  exact htake.trans h

theorem mmuTakes_writeMmuField_off {n : Nat} (h : bit n 0 = false) (hw : (s.mmu m).waitingPr = []) (hh : (s.mmu m).holding = []) :
    s.mmuTakes (s.writeMmuField m .fqEn n) m ((s.mmu m).writeField .fqEn n) := by
  have htake := mmuTakes_cqTake s m fun x => x.writeField .fqEn n
  have hv : (s.modMmu m fun x => x.writeField .fqEn n).mmu m = (s.mmu m).writeField .fqEn n := (mmu_modMmu ..).trans (if_pos rfl)
  obtain ⟨-, hheld⟩ := (heldStep_cqTake (s.modMmu m fun x => x.writeField .fqEn n) m).off m (by rw [hv]; exact h)
  rw [hv] at hheld
  have hsame := mmu_queueOff_of_none (m := m) ((congrArg Mmu.waitingPr htake.here).trans hw) (hheld.trans hh)
  rw [writeMmuField_off h]
  generalize (s.modMmu m fun x => x.writeField .fqEn n).cqTake m = v at htake hsame
  exact ⟨fun e => by rw [hsame]; exact ⟨(htake.alone e).1, fun k hk => (hsame k).trans ((htake.alone e).2 k hk)⟩,
    by rw [hsame]; exact htake.here, fun k hk => by rw [hsame]; exact htake.others k hk⟩

/-- A write that turns a command queue on that was off starts it at its head (R431). -/
theorem writeCqcsr_starts {x : Mmu} {n : Nat} (h : bit n 0 = true) (ho : bit x.cqcsr.toNat 0 = false) : (x.writeCqcsr n).cqh = 0 := by
  unfold Mmu.writeCqcsr
  dsimp only
  rw [h, ho]
  rfl

end Dev

namespace State

variable {s : State} {m : MmuId} {f : MmuField} {v : U64}

theorem exec_mmuField (hf : f ≠ .prResp) (m : MmuId) (v : U64) (s : State) :
    exec (.registerWrite (.mmu m f) v) s = .next { s with toDev := s.toDev.writeMmuField m f v.toNat } := by
  cases f with
  | prResp => exact absurd rfl hf
  | fqHead | respTimeout | fqIrq | fqEn | respErr | fctl | cqb | cqh | cqt | cqcsr | ipsr => rfl

/-- What a write of a field of a system MMU leaves of both. -/
def mmuPut (s : State) (m : MmuId) (f : MmuField) (v : U64) (y : Mmu) : Prop :=
  ∃ u, exec (.registerWrite (.mmu m f) v) s = .next u ∧ (bit y.cqcsr.toNat 0 = false → u.mmu m = y ∧ ∀ k, k ≠ m → u.mmu k = s.mmu k)
    ∧ Dev.told (u.mmu m) { y with cqcsr := (u.mmu m).cqcsr, ipsr := (u.mmu m).ipsr } ∧ ∀ k, k ≠ m → Dev.told (u.mmu k) (s.mmu k)

theorem mmuPut_of_takes {y : Mmu} (hp : f ≠ .prResp) (h : s.toDev.mmuTakes (s.toDev.writeMmuField m f v.toNat) m y) : s.mmuPut m f v y := by
  obtain ⟨halone, hhere, hothers⟩ := h
  exact ⟨_, exec_mmuField (f := f) hp m v s, halone, hhere, hothers⟩

theorem mmuPut_of_ne (hp : f ≠ .prResp) (hf : f ≠ .fqEn) : s.mmuPut m f v ((s.mmu m).writeField f v.toNat) := by
  refine mmuPut_of_takes hp ?_
  rw [Dev.writeMmuField_of_not fun h => hf h.1]
  exact Dev.mmuTakes_cqTake ..

theorem mmuPut_fqEn (h : bit v.toNat 0 = true ∨ (s.mmu m).waitingPr = [] ∧ (s.mmu m).holding = []) :
    s.mmuPut m .fqEn v ((s.mmu m).writeField .fqEn v.toNat) := by
  refine mmuPut_of_takes (f := .fqEn) nofun ?_
  cases hb : bit v.toNat 0 with
  | true =>
    rw [Dev.writeMmuField_of_not (by simp [hb])]
    exact Dev.mmuTakes_cqTake ..
  | false =>
    rcases h with h | ⟨hw, hh⟩
    · simp [hb] at h
    · exact Dev.mmuTakes_writeMmuField_off hb hw hh

end State
end Sys2Proof.Machine
end

section
/-! PROOFS. Proofs/AddressMap.lean: what stands at a physical location (R43). -/

namespace Sys2Proof.Machine

/-! The address map (R43; log entry 87). -/

theorem timePlace_ne_dram (o : Nat) : (timePlace o).1 ≠ .dram := by
  unfold timePlace
  dsimp only
  split_ifs <;> nofun

theorem journalPlace_ne_dram (o : Nat) : (journalPlace o).1 ≠ .dram := by
  unfold journalPlace
  split_ifs <;> nofun

theorem relayPlace_ne_dram (o : Nat) : (relayPlace o).1 ≠ .dram := by
  unfold relayPlace
  dsimp only
  split_ifs <;> nofun

theorem controlPlace_ne_dram (d o : Nat) : (controlPlace d o).1 ≠ .dram := by
  unfold controlPlace
  dsimp only
  split_ifs <;> nofun

theorem placeAt_dram {a : Nat} (h : a < 2 ^ 41) : placeAt a = (.dram, a) := if_pos h

theorem placeAt_ne_dram {a : Nat} (h : 2 ^ 41 ≤ a) : (placeAt a).1 ≠ .dram := by
  unfold placeAt
  rw [if_neg (Nat.not_lt.mpr h)]
  split_ifs
  · nofun
  · nofun
  · exact timePlace_ne_dram _
  · exact journalPlace_ne_dram _
  · exact relayPlace_ne_dram _
  · nofun
  · nofun
  · exact controlPlace_ne_dram _ _
  · nofun

theorem placeAt_reserved {a : Nat}
    (h : 0x30000000000 ≤ a ∧ a < 0x3C000000000 ∨ 0x3C100000000 ≤ a ∧ a < 0x3E000000000 ∨ 0x3F400000000 ≤ a) : placeAt a = (.reserved, 0) := by
  unfold placeAt
  rcases h with ⟨h1, h2⟩ | ⟨h1, h2⟩ | h1
  · rw [if_neg (by omega), if_neg (by omega), if_pos h2]
  · rw [if_neg (by omega), if_neg (by omega), if_neg (by omega), if_neg (by omega), if_neg (by omega), if_neg (by omega), if_neg (by omega), if_pos h2]
  · rw [if_neg (by omega), if_neg (by omega), if_neg (by omega), if_neg (by omega), if_neg (by omega), if_neg (by omega), if_neg (by omega),
      if_neg (by omega), if_neg (by omega)]

/-- The region of the package time, the flags and the counters. -/
theorem placeAt_time : placeAt 0x3C000000000 = (.time, 0) := by decide

theorem placeAt_relay {o : Nat} (h : o < 0x40000000) : placeAt (0x3C080000000 + o) = relayPlace o := by
  unfold placeAt
  rw [if_neg (by omega), if_neg (by omega), if_neg (by omega), if_neg (by omega), if_neg (by omega), if_pos (by omega), Nat.add_sub_cancel_left]

/-- The control space of a die (R43). -/
theorem placeAt_control {d o : Nat} (hd : d < 20) (ho : o < 2 ^ 32) : placeAt (0x3E000000000 + 2 ^ 32 * d + o) = controlPlace d o := by
  unfold placeAt
  rw [if_neg (by omega), if_neg (by omega), if_neg (by omega), if_neg (by omega), if_neg (by omega), if_neg (by omega), if_neg (by omega),
    if_neg (by omega), if_pos (by omega)]
  congr 1 <;> omega

theorem placeAt_relayEntry (r : Fin 64) (i : Fin 256) (k : Fin 8) :
    placeAt (0x3C080010000 + 0x4000 * r.val + 64 * i.val + 8 * k.val) = (.relayEntry r i, 8 * k.val) := by
  rw [show 0x3C080010000 + 0x4000 * r.val + 64 * i.val + 8 * k.val = 0x3C080000000 + (0x10000 + 0x4000 * r.val + 64 * i.val + 8 * k.val) by omega,
    placeAt_relay (by omega)]
  unfold relayPlace
  dsimp only
  rw [if_neg (by omega), if_pos (by simp; omega)]
  congr 1
  · congr 1
    · exact Fin.ext (by dsimp only; omega)
    · exact Fin.ext (by dsimp only; omega)
  · omega

theorem queuesOf_homeDie (q : QueueId) : (queuesOf (homeDie q).val).1 ≤ q.val
    ∧ q.val < (queuesOf (homeDie q).val).1 + (queuesOf (homeDie q).val).2 ∧ (queuesOf (homeDie q).val).2 ≤ 192 ∧ (homeDie q).val < 20 := by
  have hq := q.isLt
  unfold homeDie
  split_ifs with h1 h2 h3
  · have hd : (⟨q.val / 192 % 20, Nat.mod_lt _ (by decide)⟩ : Die).val = q.val / 192 := Nat.mod_eq_of_lt (by omega)
    have hof : queuesOf (q.val / 192) = (192 * (q.val / 192), 192) := if_pos (by omega)
    rw [hd, hof]
    dsimp only
    omega
  · exact ⟨by show 1536 ≤ q.val; omega, by show q.val < 1536 + 128; omega, by decide, by decide⟩
  · exact ⟨by show 1664 ≤ q.val; omega, by show q.val < 1664 + 128; omega, by decide, by decide⟩
  · have hd : (⟨(14 + (q.val - 1792) / 64) % 20, Nat.mod_lt _ (by decide)⟩ : Die).val = 14 + (q.val - 1792) / 64 := Nat.mod_eq_of_lt (by omega)
    have hof : queuesOf (14 + (q.val - 1792) / 64) = (1792 + 64 * (14 + (q.val - 1792) / 64 - 14), 64) := by
      unfold queuesOf
      rw [if_neg (by omega), if_neg (by omega), if_pos (by omega)]
    rw [hd, hof]
    dsimp only
    omega

theorem placeAt_queueBlock (q : QueueId) (k : Fin 8) :
    placeAt (0x3E000000000 + 2 ^ 32 * (homeDie q).val + 0x100000 + 64 * (q.val - (queuesOf (homeDie q).val).1) + 8 * k.val)
      = (.queueBlock q, 8 * k.val) := by
  obtain ⟨hfirst, hlast, hmany, hdie⟩ := queuesOf_homeDie q
  rw [show 0x3E000000000 + 2 ^ 32 * (homeDie q).val + 0x100000 + 64 * (q.val - (queuesOf (homeDie q).val).1) + 8 * k.val
      = 0x3E000000000 + 2 ^ 32 * (homeDie q).val + (0x100000 + 64 * (q.val - (queuesOf (homeDie q).val).1) + 8 * k.val) by omega,
    placeAt_control hdie (by omega)]
  unfold controlPlace
  generalize queuesOf (homeDie q).val = p at hfirst hlast hmany
  obtain ⟨first, many⟩ := p
  dsimp only at hfirst hlast hmany ⊢
  rw [if_pos (by simp; omega)]
  congr 1
  · congr 1
    exact Fin.ext (by dsimp only; omega)
  · omega

theorem placeAt_bindsWord (m : MmuId) (x : Asid) (r : Fin 256) :
    placeAt (0x3E000000000 + 2 ^ 32 * (8 + m.val) + 0x400000 + 8 * (256 * x.toNat + r.val)) = (.bindsWord x r, 0) := by
  have hx := x.isLt
  rw [show 0x3E000000000 + 2 ^ 32 * (8 + m.val) + 0x400000 + 8 * (256 * x.toNat + r.val)
      = 0x3E000000000 + 2 ^ 32 * (8 + m.val) + (0x400000 + 8 * (256 * x.toNat + r.val)) by omega, placeAt_control (by omega) (by omega)]
  have hq : queuesOf (8 + m.val) = (0, 0) := by
    unfold queuesOf
    rw [if_neg (by omega), if_pos (by omega)]
  unfold controlPlace
  rw [hq]
  dsimp only
  rw [if_neg (by simp), if_pos (by simp; omega), if_neg (by omega), if_neg (by simp; omega), if_pos (by simp; omega)]
  congr 1
  · congr 1
    · rw [show (0x400000 + 8 * (256 * x.toNat + r.val) - 0x400000) / 2048 = x.toNat by omega]
      exact BitVec.ofNat_toNat ..
    · exact Fin.ext (by dsimp only; omega)
  · omega

end Sys2Proof.Machine
end

section
/-! PROOFS. Proofs/BusAndPorts.lean: core accesses by address, the in-band ring, objects and the management port's frames (R43, R44, R657, R679). -/

namespace Sys2Proof.Machine

/-! A core's access by address (R43, R44, R46). -/

section
variable {op : CoreOp} {pa v : U64} {realm : Bool} {n : Fin 9} {s : State}

theorem exec_bus (op : CoreOp) (pa v : U64) (realm : Bool) (n : Fin 9) (s : State) :
    exec (.registerWrite (.bus op pa realm n) v) s = busAccess op pa realm n.val v s := rfl

/-- The accesses that no location takes. -/
theorem busAccess_refused (h : n.val = 0 ∨ 2 ^ 48 ≤ pa.toNat ∨ (placeAt (pa.toNat % 2 ^ 42)).1 = .reserved ∨ 8 < pa.toNat % 2 ^ 42 % 8 + n.val
      ∨ (placeAt (pa.toNat % 2 ^ 42)).1 ≠ .dram ∧ 2 ^ 42 ≤ pa.toNat) :
    busAccess op pa realm n.val v s = .next { s with reply := some .accessError } := by
  unfold busAccess
  dsimp only
  exact if_pos (by simpa [or_assoc] using h)

/-- An access of a register. -/
theorem busAccess_place {p : Place} {o : Nat} (hn : n.val ≠ 0) (hpa : pa.toNat < 2 ^ 42) (hp : placeAt pa.toNat = (p, o))
    (hw : pa.toNat % 8 + n.val ≤ 8) (h1 : p ≠ .dram) (h2 : p ≠ .window) (h3 : p ≠ .reserved) :
    busAccess op pa realm n.val v s = s.placeAccess p o op n.val v := by
  unfold busAccess
  dsimp only
  rw [Nat.mod_eq_of_lt hpa, hp]
  dsimp only
  rw [if_neg (by simp [hn, h3]; omega)]
  cases p with
  | dram => exact absurd rfl h1
  | window => exact absurd rfl h2
  | reserved => exact absurd rfl h3
  | _ => rfl

/-- An access of DRAM. -/
theorem busAccess_dram (ha : pa.toNat % 2 ^ 42 < 2 ^ 41) (hpa : pa.toNat < 2 ^ 48) (hn : n.val ≠ 0) (hw : pa.toNat % 2 ^ 42 % 8 + n.val ≤ 8) :
    busAccess op pa realm n.val v s = .next (if dramRefuses pa.toNat realm then s.busError else s) := by
  unfold busAccess
  dsimp only
  rw [placeAt_dram ha]
  dsimp only
  rw [if_neg (by simp [hn]; omega)]

theorem dramRefuses_of (hpa : pa.toNat < 2 ^ 48) (h : realm = true ∨ pa.toNat / 2 ^ 42 ≠ 0) : dramRefuses pa.toNat realm = true := by
  unfold dramRefuses
  rcases h with h | h
  · simp [h]
  · rw [Nat.mod_eq_of_lt (by omega), decide_eq_true h, Bool.or_true]

/-- A word of registers at an address. -/
theorem exec_bus_word {k : Nat} {p : Place} {o : Nat} (hk : pa.toNat = k ∧ n = 8) (hlt : k < 2 ^ 42) (h8 : k % 8 = 0) (hp : placeAt k = (p, o))
    (h1 : p ≠ .dram) (h2 : p ≠ .window) (h3 : p ≠ .reserved) :
    exec (.registerWrite (.bus op pa realm n) v) s = s.placeAccess p o op 8 v := by
  obtain ⟨rfl, rfl⟩ := hk
  exact (exec_bus ..).trans (busAccess_place (n := 8) (by decide) hlt hp (by show _ + 8 ≤ 8; omega) h1 h2 h3)

end

namespace State

variable {s : State} {v : U64}

/-- A load of a register's word. -/
theorem placeAccess_load {p : Place} {o : Nat} (h : ∀ d i, p ≠ .flag d i) (hc : ∀ c, p ≠ .counter c) :
    s.placeAccess p o .load 8 v = .next { s with reply := some (.value (BitVec.ofNat 64 (s.placeValue p / 2 ^ (8 * o) % 2 ^ 64))) } := by
  cases p with
  | flag d i => exact absurd rfl (h d i)
  | counter c => exact absurd rfl (hc c)
  | _ => rfl

theorem placeAccess_bindsStore {x : Asid} {r : Fin 256} {o : Nat} :
    s.placeAccess (.bindsWord x r) o .store 8 v = .next { s with reply := some (.value 0) } := rfl

theorem placeAccess_time {op : CoreOp} (h : op ∉ [CoreOp.load, .store, .lr, .sc]) :
    s.placeAccess .time 0 op 8 v = .next { s with reply := some (.value s.now) } := by
  have hval : BitVec.ofNat 64 (s.now.toNat / 2 ^ (8 * 0) % 256 ^ 8) = s.now := by
    apply BitVec.eq_of_toNat_eq
    have := s.now.isLt
    rw [BitVec.toNat_ofNat]
    omega
  cases op with
  | load | store | lr | sc => simp at h
  | _ => exact congrArg (fun x => Host.Outcome.next { s with reply := some (Reply.value x) }) hval

/-! A core's store to a sealed region (R167). -/

theorem sealDenies_iff (d : Dev) (satp va : U64) (n : Nat) : d.sealDenies satp va n = true
    ↔ bits satp.toNat 63 60 ≠ 0 ∧ ∃ e ∈ d.xl.sealed, ∃ x, d.ctx 0 e.asid = some x ∧ x.rootPa = bits satp.toNat 43 0 * 4096
      ∧ e.base < va.toNat + n ∧ va.toNat < e.base + 4096 * e.pages := by
  unfold Dev.sealDenies Dev.rootSealed
  simp only [Bool.and_eq_true, decide_eq_true_eq, List.any_eq_true, Option.any_eq_true, and_assoc]
  refine and_congr_right fun _ => exists_congr fun e => and_congr_right fun _ => ?_
  exact ⟨fun ⟨⟨x, hx, hr⟩, h⟩ => ⟨x, hx, hr, h⟩, fun ⟨x, hx, hr, h⟩ => ⟨⟨x, hx, hr⟩, h⟩⟩

theorem coreStore_of_denied {satp va : U64} {n : Fin 9} (h : s.sealDenies satp va n.val = true) :
    exec (.registerWrite (.coreStore satp va n) v) s = .next { s with reply := some .accessError } := congrArg Host.Outcome.next (if_pos h)

theorem coreStore_of_not {satp va : U64} {n : Fin 9} (h : ¬s.sealDenies satp va n.val = true) :
    exec (.registerWrite (.coreStore satp va n) v) s = .next s := congrArg Host.Outcome.next (if_neg h)

/-! A debug read (R535, R544). -/

/-- A debug read of a key store or a realm's line reads zeros, and is counted. -/
theorem debugRead_zeros {line : Option LineTag} (k : Fin 16) (h : ∀ t, line = some t → okLine t = true ∧ tagRealm t = true) :
    s.debugRead line k = { s.bump 6 0x303 0 1 with reply := some (.value 0) } := by
  unfold debugRead
  cases line with
  | none => rfl
  | some t =>
    obtain ⟨h1, h2⟩ := h t rfl
    dsimp only
    rw [h1, h2]
    rfl

theorem debugRead_word {t : LineTag} (k : Fin 16) (h1 : okLine t = true) (h2 : tagRealm t = false) :
    s.debugRead (some t) k = { s with reply := some (.value (BitVec.ofNat 64 (fieldAt (s.coherent t).1 (8 * k.val) 8))) } := by
  unfold debugRead
  dsimp only
  rw [h1, h2]
  rfl

/-! The in-band ring (R679). -/

/-- What a core reads leaves the management controller and its boot state as they are. -/
theorem coreRead_keeps {s' : State} {b : List Byte} {asid va n : Nat} (h : s.coreRead asid va n = some (s', b)) :
    s'.mgmt = s.mgmt ∧ s'.objAt 0x0C 0x400 0 = s.objAt 0x0C 0x400 0 := by
  obtain ⟨l, -, hl⟩ := Option.map_eq_some_iff.mp h
  obtain ⟨rfl, -⟩ := Prod.mk.inj hl
  have hstep := Dev.reportStep_closed.onceReads s.toDev (l.flatMap fun x => spanLines x.1 x.2)
  exact ⟨rfl, hstep.objAt 0x0C 0x400 0 (by decide) (by decide) (by unfold Dev.ownObjects; omega)⟩

/-- The commands by which a path's datagrams are taken, by type (R661). -/
def sessionCommands (c : Fin 16) (g : List Byte) : List (Nat × Instr) :=
  [(1, Instr.sessionInit (.inband c) g), (3, .sessionFinish (.inband c) g), (5, .sessionDiscover (.inband c) g),
    (0x10, .sessionRequest (.inband c) g), (0x13, .sessionKeepalive (.inband c) g), (0x14, .sessionClose (.inband c) g)]

/-- A datagram that comes by a ring is taken as its command takes it. -/
theorem ringDatagram_of {c : Fin 16} {g : List Byte} {y : Datagram} {k : Nat × Instr} (hp : s.objAt 0x0C 0x400 0 = 5)
    (hy : parseDatagram (.inband c) g = some y) (hk : (sessionCommands c g).find? (fun e => e.1 = y.ty) = some k) :
    exec k.2 s = .next (s.ringDatagram c g) := by
  have hty : k.1 = y.ty := by simpa using List.find?_some hk
  have hport : s.portRuns (.inband c) = true := decide_eq_true hp
  have htake (ty : Nat) (f : State → Datagram → State) (h : ty = y.ty) : s.datagram (.inband c) g ty f = f s y := by
    unfold datagram
    rw [hy]
    exact if_pos (by simp [h, hport])
  have hmem := List.mem_of_find?_eq_some hk
  simp only [sessionCommands, List.mem_cons, List.not_mem_nil, or_false] at hmem
  rcases hmem with rfl | rfl | rfl | rfl | rfl | rfl
  all_goals
    refine (congrArg Host.Outcome.next (htake _ _ hty)).trans (congrArg Host.Outcome.next ?_)
    unfold ringDatagram
    dsimp only
    rw [hy]
    dsimp only at hty ⊢
    generalize y.ty = n at hty
    subst hty
    rfl

/-- An in-band channel's ring, as the dictionary server counts it. -/
def ring (s : State) (c : Fin 16) : Ring := Table.get {} s.mgmt.rings c.val

/-- A ring has a request that the dictionary server has not taken (R679). -/
def ringWaits (s : State) (c : Fin 16) : Prop :=
  (s.channel c).on = true ∧ s.objAt 0x0C 0x400 0 = 5
    ∧ (s.pcounter ((s.channel c).doorbell % 1024)).toNat ≠ (s.ring c).taken % 2 ^ 32

theorem inband_of_not {c : Fin 16} (h : ¬s.ringWaits c) : exec (.inbandRequest c) s = .next s := by
  refine congrArg Host.Outcome.next (if_pos ?_)
  unfold ringWaits ring at h
  simp only [Bool.or_eq_true, Bool.not_eq_true', decide_eq_true_eq]
  by_contra hno
  simp only [not_or, Bool.not_eq_false, ne_eq, not_not] at hno
  obtain ⟨⟨h1, h2⟩, h3⟩ := hno
  exact h ⟨h1, h2, h3⟩

/-- The next request of a ring that waits. -/
def ringSlot (s : State) (c : Fin 16) : Option (State × List Byte) :=
  s.coreRead (s.channel c).asid
    ((s.channel c).base + 0x1000 + (s.ring c).taken % (s.channel c).entries * 0x800) 0x800

theorem inband_of_waits {c : Fin 16} (h : s.ringWaits c) : exec (.inbandRequest c) s = .next (match s.ringSlot c with
    | some (s', b) => ((s'.modMgmt fun m => { m with rings := Table.set {} m.rings c.val { s.ring c with taken := (s.ring c).taken + 1 } }).ringDatagram c
        (sliceBytes b 8 (min (fieldAt b 0 2) 2040))).coreWrite (s.channel c).asid ((s.channel c).base + 8) (leBytes 4 ((s.ring c).taken + 1))
    | none => s) := by
  obtain ⟨h1, h2, h3⟩ := h
  have hc : ((s.pcounter ((s.channel c).doorbell % 1024)).toNat = (Table.get {} s.mgmt.rings c.val).taken % 2 ^ 32) = False := eq_false h3
  refine congrArg Host.Outcome.next ((if_neg ?_).trans rfl)
  simp only [h1, h2, hc, ne_eq, not_true_eq_false, decide_false, Bool.not_true, Bool.or_false, Bool.false_eq_true, not_false_eq_true]

theorem ringDatagram_of_none {c : Fin 16} {g : List Byte} (h : parseDatagram (.inband c) g = none) : s.ringDatagram c g = s := by
  unfold ringDatagram
  dsimp only
  rw [h]

/-! A dictionary object that a store writes (R683, R684). -/

theorem object_of_none {a : U32} (h : lookupRow a.toNat = none) : exec (.registerWrite (.object a) v) s = .next s := by
  refine congrArg Host.Outcome.next ?_
  show s.writePlainObject a.toNat v.toNat [] = s
  unfold writePlainObject
  rw [h]

theorem object_put {a : U32} {r : ObjRow} (h : lookupRow a.toNat = some r) (hr : r.access = .rw) (hb : r.isBytes = false)
    (hu : s.unavailable r a.toNat = false) (hfit : r.fits v.toNat = true) (hlo : r.lo ≤ v.toNat) (hhi : v.toNat ≤ r.hi)
    (hact : s.writeAction (.core 0) r.ss (a.toNat / 256 % 65536) (a.toNat % 256) v.toNat = none) :
    exec (.registerWrite (.object a) v) s = .next { s with toDev := s.toDev.setObj a.toNat v.toNat } := by
  refine congrArg Host.Outcome.next ?_
  show s.writePlainObject a.toNat v.toNat [] = _
  unfold writePlainObject
  rw [h]
  dsimp only
  rw [performWrite_scalar hu (.inl hr) hb, hfit, if_neg (by decide), if_neg (by omega), hact]
  rfl

/-! The management port's link, and the frames that it sends (R657, R659). -/

theorem beacon_of_up (h : s.objAt 0x0C 0x100 0 ≠ 0) : exec .plcaBeacon s = .next ((s.setObjAt 0x0C 0x100 0 2).modMgmt fun m =>
    { m with sent := m.sent ++ m.waiting.take 1, waiting := m.waiting.drop 1 }) := congrArg Host.Outcome.next (if_neg h)

theorem linkChange_up (s : State) : ∃ u, exec (.mgmtPortLinkChange true) s = .next u
    ∧ u.objAt 0x0C 0x100 0 = (if s.objAt 0x0C 0x100 0 = 0 then 1 else s.objAt 0x0C 0x100 0) ∧ u = { s with obj := u.obj } := by
  by_cases h : s.objAt 0x0C 0x100 0 = 0
  · have hexec : exec (.mgmtPortLinkChange true) s = .next (s.setObjAt 0x0C 0x100 0 1) := congrArg Host.Outcome.next (if_pos h)
    exact ⟨_, hexec, (Dev.objAt_setObjAt_same ..).trans (if_pos h).symm, rfl⟩
  · have hexec : exec (.mgmtPortLinkChange true) s = .next s := congrArg Host.Outcome.next (if_neg h)
    exact ⟨_, hexec, (if_neg h).symm, rfl⟩

theorem transmit_free (f : Frame) (h : s.freeToSend = true) : s.transmit f = s.modMgmt fun m => { m with sent := m.sent ++ [f] } := if_pos h

theorem transmit_waits (f : Frame) (h : s.freeToSend = false) : s.transmit f = s.modMgmt fun m => { m with waiting := m.waiting ++ [f] } :=
  if_neg (by simp [h])

/-- To whom a solicitation is answered (R657). -/
def solicitor (source : List Byte) : List Byte := if source.all (· = 0) then [0xFF, 0x02] ++ List.replicate 13 0 ++ [0x01] else source

theorem neighbor_of_not {target source : List Byte} (h : target ≠ s.linkLocal ∨ s.portRuns .mgmt = false) :
    exec (.neighborDiscovery target source) s = .next s := congrArg Host.Outcome.next (if_pos (by simpa using h))

theorem neighbor_of {target source : List Byte} (ht : target = s.linkLocal) (hp : s.portRuns .mgmt = true) :
    exec (.neighborDiscovery target source) s = .next (s.transmit (.neighborAdvert (solicitor source) target s.macAddress)) :=
  congrArg Host.Outcome.next (if_neg (by simp [ht, hp]))

theorem echo_of_not {source data : List Byte} {i k : U16} (h : s.portRuns .mgmt = false) : exec (.icmpv6Echo source i k data) s = .next s :=
  congrArg Host.Outcome.next (if_neg (by simp [h]))

theorem echo_of {source data : List Byte} {i k : U16} (h : s.portRuns .mgmt = true) :
    exec (.icmpv6Echo source i k data) s = .next (s.transmit (.echoReply source i k data)) := congrArg Host.Outcome.next (if_pos h)

end State
end Sys2Proof.Machine
end

section
/-! PROOFS. Proofs/PortsAndRegisters.lean: writes of control fields, core accesses by address, the in-band ring and the port's link (O55). -/

namespace Sys2Proof.Machine

open State

/-- The fields of a queue control block (R105, R106, R125). -/
theorem queueFields_spec (v : U64) (s : State) (q : QueueId) :
    let n := v.toNat
    let x := s.queue q
    let free := x.state = .detached
    let stop : Prop := x.state = .running ∧ BitVec.ofNat 32 n ≠ 0 ∧ BitVec.ofNat 32 n = x.issued
    s.queuePut q .watchdog v { x with watchdog := BitVec.ofNat 32 n } ∧
    (¬stop → s.queuePut q .stopAfter v { x with stopAfter := BitVec.ofNat 32 n }) ∧
    (stop → ∃ u, exec (.registerWrite (.queue q .stopAfter) v) s = .next u ∧ (u.queue q).stopAfter = BitVec.ofNat 32 n ∧ u.toDev.stopsWith q 0x10) ∧
    s.queuePut q .tref v { x with tref := BitVec.ofNat 64 n } ∧
    (∃ u, exec (.registerWrite (.queue q .tref) v) s = .next u ∧ (x.wait0 = true → (u.queue q).wait0 = true) ∧ (x.wait1 = true → (u.queue q).wait1 = true) ∧
      ∀ k, x.state = .running → x.fetched = some k → isTestedBreak k = false →
        (s.waitHolds x.tref (iWait0 k) = true → (u.queue q).wait0 = true) ∧ (s.waitHolds x.tref (iWait1 k) = true → (u.queue q).wait1 = true)) ∧
    s.queuePut q .asid v (if free then { x with asid := BitVec.ofNat 12 n } else x) ∧
    s.queuePut q .unit v (if free then { x with unit := BitVec.ofNat 12 n } else x) ∧
    s.queuePut q .class v (if free then { x with cls := BitVec.ofNat 4 n } else x) ∧
    s.queuePut q .sheafMask v (if free then { x with sheafMask := BitVec.ofNat 32 n } else x) ∧
    s.queuePut q .submitFlags v { x with submitOvf := x.submitOvf && !bit n 0, submitBad := x.submitBad && !bit n 1 } := by
  have hput (f : QueueField) (hf : f ≠ .stopAfter) : s.queuePut q f v ((s.queue q).writeField f v.toNat) := queuePut_of_ne hf v
  refine ⟨hput .watchdog (by decide), fun h => queuePut_of_not (mt (stopReached_iff _).mp h), fun h => stopAfter_stops ((stopReached_iff _).mpr h),
    hput .tref (by decide), ?_, hput .asid (by decide), hput .unit (by decide), hput .class (by decide), hput .sheafMask (by decide),
    hput .submitFlags (by decide)⟩
  have hexec := exec_queueField q .tref v s
  rw [Dev.writeQueueField_of_not fun h => absurd h.1 (by decide)] at hexec
  obtain ⟨-, h0, h1⟩ := s.latches_queueFieldPut q .tref v.toNat
  obtain ⟨g0, g1, -⟩ := (s.queue q).writeField_waits .tref v.toNat
  exact ⟨_, hexec, fun e => h0 (g0.trans e), fun e => h1 (g1.trans e), fun k hr hk hb => Dev.waits_queueFieldPut hr hk hb⟩

/-- The fields of a relay control block and the words of its entries (R354 to R356). -/
theorem relayFields_spec (v : U64) (s : State) (r : Fin 64) :
    let n := v.toNat
    let x := s.relays[r]
    let w (t : RegTarget) (f : State → Prop) : Prop := ∃ u, exec (.registerWrite t v) s = .next u ∧ f u
    (x.enable = true → exec (.registerWrite (.relay r .asid) v) s = .next s ∧ exec (.registerWrite (.relay r .producer) v) s = .next s
      ∧ exec (.registerWrite (.relay r .consumer) v) s = .next s) ∧
    (x.enable = false → w (.relay r .asid) (fun u => u.relays[r] = { x with asid := BitVec.ofNat 12 n }) ∧
      w (.relay r .producer) (fun u => u.relays[r] = { x with producer := BitVec.ofNat 12 n }) ∧
      w (.relay r .consumer) (fun u => u.relays[r] = { x with consumer := BitVec.ofNat 12 n })) ∧
    w (.relay r .errFlags) (fun u => u.relays[r] = { x with
      errUnder := x.errUnder && !bit n 0, errOver := x.errOver && !bit n 1, errOwner := x.errOwner && !bit n 2 }) ∧
    (∀ (i : Fin 256) (k : Fin 8), w (.relayEntry r i k) (fun u => ∀ j : Fin 8,
      bits (Table.get 0 u.relays[r].entries i.val) (64 * j.val + 63) (64 * j.val) =
        (if j = k then n else bits (Table.get 0 x.entries i.val) (64 * j.val + 63) (64 * j.val)))) := by
  refine ⟨fun h => ?_, fun h => ?_, relay_put r .errFlags rfl, fun i k => relayEntry_word r i k v s⟩
  · obtain ⟨h1, h2, h3⟩ := writeField_enabled h v.toNat
    exact ⟨relay_kept r .asid h1, relay_kept r .producer h2, relay_kept r .consumer h3⟩
  · obtain ⟨h1, h2, h3⟩ := writeField_disabled h v.toNat
    exact ⟨relay_put r .asid h1, relay_put r .producer h2, relay_put r .consumer h3⟩

/-- The fields of a system MMU (R431, R478, R479). -/
theorem mmuFields_spec (v : U64) (s : State) (m : MmuId) :
    let n := v.toNat
    let x := s.mmu m
    s.mmuPut m .fqHead v { x with fqHead := BitVec.ofNat 32 n } ∧
    ((bit n 0 = true ∨ (x.waitingPr = [] ∧ x.holding = [])) → s.mmuPut m .fqEn v { x with fqEn := bit n 0 }) ∧
    (bit n 0 = false → ∃ u, exec (.registerWrite (.mmu m .fqEn) v) s = .next u ∧ (u.mmu m).fqEn = false) ∧
    s.mmuPut m .fqIrq v { x with fqIrq := bit n 0 } ∧
    s.mmuPut m .cqb v { x with cqb := BitVec.ofNat 64 n } ∧ s.mmuPut m .cqt v { x with cqt := BitVec.ofNat 32 n } ∧ s.mmuPut m .cqh v x ∧
    s.mmuPut m .fctl v { x with fctl := BitVec.ofNat 32 n } ∧
    (bit n 0 = true → bit x.cqcsr.toNat 0 = false → ∃ u, exec (.registerWrite (.mmu m .cqcsr) v) s = .next u ∧ (u.mmu m).cqh = 0) ∧
    s.mmuPut m .respErr v { x with respErr := x.respErr && !bit n 0 } ∧ s.mmuPut m .ipsr v { x with ipsr := x.ipsr &&& ~~~(BitVec.ofNat 32 n) } ∧
    s.mmuPut m .respTimeout v (if 100 ≤ n ∧ n ≤ 60000000 then { x with respTimeoutUs := BitVec.ofNat 32 n } else x) := by
  have hput (f : MmuField) (hp : f ≠ .prResp) (hf : f ≠ .fqEn) : s.mmuPut m f v ((s.mmu m).writeField f v.toNat) := mmuPut_of_ne hp hf
  refine ⟨hput .fqHead (by decide) (by decide), mmuPut_fqEn, fun h => ⟨_, exec_mmuField (f := .fqEn) nofun m v s, Dev.fqEn_writeMmuField_off h⟩,
    hput .fqIrq (by decide) (by decide), hput .cqb (by decide) (by decide), hput .cqt (by decide) (by decide), hput .cqh (by decide) (by decide), hput .fctl (by decide) (by decide), fun h ho => ?_,
    hput .respErr (by decide) (by decide), hput .ipsr (by decide) (by decide), hput .respTimeout (by decide) (by decide)⟩
  obtain ⟨u, hexec, -, hhere, -⟩ := hput .cqcsr (by decide) (by decide)
  exact ⟨u, hexec, (congrArg Mmu.cqh hhere).trans (Dev.writeCqcsr_starts h ho)⟩

/-- What a core's access of a place by its address does (R43, R44, R46). -/
theorem busAccess_spec (op : CoreOp) (pa v : U64) (realm : Bool) (n : Fin 9) (s : State) :
    let c := Instr.registerWrite (.bus op pa realm n) v
    let a := pa.toNat % 2 ^ 42
    let key := pa.toNat / 2 ^ 42
    let answer (r : Reply) : Prop := exec c s = .next { s with reply := some r }
    (2 ^ 48 ≤ pa.toNat → answer .accessError) ∧
    ((0x30000000000 ≤ a ∧ a < 0x3C000000000 ∨ 0x3C100000000 ≤ a ∧ a < 0x3E000000000 ∨ 0x3F400000000 ≤ a) → answer .accessError) ∧
    (2 ^ 41 ≤ a → key ≠ 0 → answer .accessError) ∧
    (a < 2 ^ 41 → (realm = true ∨ key ≠ 0) → answer .accessError) ∧
    (a < 2 ^ 41 → realm = false → key = 0 → 0 < n.val → a % 8 + n.val ≤ 8 → exec c s = .next s) := by
  intro c a key answer
  have ha : a = pa.toNat % 2 ^ 42 := rfl
  have hkey : key = pa.toNat / 2 ^ 42 := rfl
  clear_value a key
  refine ⟨fun h => busAccess_refused (.inr (.inl h)), fun h => ?_, fun h hk => ?_, fun h hk => ?_, fun h hr hk hn hw => ?_⟩
  · rw [ha] at h
    exact busAccess_refused (.inr (.inr (.inl (by rw [placeAt_reserved h]))))
  · rw [ha] at h
    exact busAccess_refused (.inr (.inr (.inr (.inr ⟨placeAt_ne_dram h, by omega⟩))))
  · by_cases h48 : 2 ^ 48 ≤ pa.toNat
    · exact busAccess_refused (.inr (.inl h48))
    · by_cases hn : n.val = 0
      · exact busAccess_refused (.inl hn)
      · by_cases hw : pa.toNat % 2 ^ 42 % 8 + n.val ≤ 8
        · refine (busAccess_dram (ha ▸ h) (by omega) hn hw).trans ?_
          rw [dramRefuses_of (by omega) (hkey ▸ hk)]
          rfl
        · exact busAccess_refused (.inr (.inr (.inr (.inl (by omega)))))
  · refine (busAccess_dram (ha ▸ h) (by omega) (by omega) (ha ▸ hw)).trans ?_
    have hno : dramRefuses pa.toNat realm = false := by
      unfold dramRefuses
      rw [hr, ← hkey, hk]
      rfl
    rw [hno]
    rfl

/-- What a core's access of a register's word by its address does (R104, R139, R354, R748). -/
theorem busWord_spec (op : CoreOp) (pa v : U64) (realm : Bool) (n : Fin 9) (s : State) :
    let c := Instr.registerWrite (.bus op pa realm n) v
    let answer (r : Reply) : Prop := exec c s = .next { s with reply := some r }
    let word (k : Nat) : Prop := pa.toNat = k ∧ n = 8
    let load (x : Nat) : Prop := op = .load → answer (.value (BitVec.ofNat 64 x))
    (word 0x3C000000000 → load s.now.toNat ∧ (op = .store → answer (.value 0)) ∧
      (op ∉ [.load, .store, .lr, .sc] → answer (.value s.now))) ∧
    (∀ (q : QueueId) (k : Fin 8), word (0x3E000000000 + 2 ^ 32 * (homeDie q).val + 0x100000 + 64 * (q.val - (queuesOf (homeDie q).val).1) + 8 * k.val) →
      load ((s.queue q).block / 2 ^ (64 * k.val) % 2 ^ 64)) ∧
    (∀ (r : Fin 64) (i : Fin 256) (k : Fin 8), word (0x3C080010000 + 0x4000 * r.val + 64 * i.val + 8 * k.val) →
      load (Table.get 0 (s.relay r).entries i.val / 2 ^ (64 * k.val) % 2 ^ 64)) ∧
    (∀ (m : MmuId) (x : Asid) (r : Fin 256), word (0x3E000000000 + 2 ^ 32 * (8 + m.val) + 0x400000 + 8 * (256 * x.toNat + r.val)) →
      s.binds x.toNat r.val < 65536 →
      load (s.binds x.toNat r.val + (if 0 < s.binds x.toNat r.val then 65536 else 0)) ∧ (op = .store → answer (.value 0))) := by
  intro c answer word load
  have hval {p : Place} {o x : Nat} (hc : exec c s = s.placeAccess p o op 8 v) (h1 : ∀ d i, p ≠ .flag d i) (h2 : ∀ c, p ≠ .counter c)
      (hx : s.placeValue p / 2 ^ (8 * o) % 2 ^ 64 = x) : load x := by
    intro hop
    subst hop
    exact hc.trans (hx ▸ placeAccess_load h1 h2)
  refine ⟨fun h => ?_, fun q k h => ?_, fun r i k h => ?_, fun m x r h hb => ?_⟩
  · have hc := exec_bus_word (op := op) (v := v) (realm := realm) (s := s) h (by decide) (by decide) placeAt_time nofun nofun nofun
    refine ⟨hval hc nofun nofun ?_, fun hop => ?_, fun hop => hc.trans (placeAccess_time hop)⟩
    · have := s.now.isLt
      show s.now.toNat / 2 ^ (8 * 0) % 2 ^ 64 = s.now.toNat
      omega
    · subst hop
      exact hc
  · obtain ⟨hfirst, hlast, hmany, hdie⟩ := queuesOf_homeDie q
    have hc := exec_bus_word (op := op) (v := v) (realm := realm) (s := s) h (by omega) (by omega) (placeAt_queueBlock q k) nofun nofun nofun
    exact hval hc nofun nofun (by rw [show 8 * (8 * k.val) = 64 * k.val by omega]; rfl)
  · have hc := exec_bus_word (op := op) (v := v) (realm := realm) (s := s) h (by omega) (by omega) (placeAt_relayEntry r i k) nofun nofun nofun
    exact hval hc nofun nofun (by rw [show 8 * (8 * k.val) = 64 * k.val by omega]; rfl)
  · have hx := x.isLt
    have hc := exec_bus_word (op := op) (v := v) (realm := realm) (s := s) h (by omega) (by omega) (placeAt_bindsWord m x r) nofun nofun nofun
    refine ⟨hval hc nofun nofun ?_, fun hop => ?_⟩
    · show (s.binds x.toNat r.val + b2n (decide (0 < s.binds x.toNat r.val)) * 2 ^ 16) / 2 ^ (8 * 0) % 2 ^ 64 = _
      by_cases h0 : 0 < s.binds x.toNat r.val
      · rw [if_pos h0, decide_eq_true h0]
        show (s.binds x.toNat r.val + 1 * 2 ^ 16) / 2 ^ (8 * 0) % 2 ^ 64 = _
        omega
      · rw [if_neg h0, decide_eq_false h0]
        show (s.binds x.toNat r.val + 0 * 2 ^ 16) / 2 ^ (8 * 0) % 2 ^ 64 = _
        omega
    · subst hop
      exact hc

/-- The in-band ring (R655, R679). -/
theorem inbandRing_spec (c : Fin 16) (s : State) :
    let x := s.channel c
    let r := Table.get {} s.mgmt.rings c.val
    let waits : Prop := x.on = true ∧ s.objAt 0x0C 0x400 0 = 5 ∧ (s.pcounter (x.doorbell % 1024)).toNat ≠ r.taken % 2 ^ 32
    (¬waits → exec (.inbandRequest c) s = .next s) ∧
    (waits → s.coreRead x.asid (x.base + 0x1000 + r.taken % x.entries * 0x800) 0x800 = none → exec (.inbandRequest c) s = .next s) ∧
    (waits → ∀ s' b, s.coreRead x.asid (x.base + 0x1000 + r.taken % x.entries * 0x800) 0x800 = some (s', b) →
      let d : State := { s' with mgmt := { s.mgmt with rings := Table.set {} s.mgmt.rings c.val { r with taken := r.taken + 1 } } }
      let g := sliceBytes b 8 (min (fieldAt b 0 2) 2040)
      let count (u : State) : State := u.coreWrite x.asid (x.base + 8) (leBytes 4 (r.taken + 1))
      (parseDatagram (.inband c) g = none → exec (.inbandRequest c) s = .next (count d)) ∧
      (∀ y k, parseDatagram (.inband c) g = some y → (sessionCommands c g).find? (fun e => e.1 = y.ty) = some k →
        ∃ u, exec k.2 d = .next u ∧ exec (.inbandRequest c) s = .next (count u))) := by
  refine ⟨fun h => inband_of_not h, fun hw hr => ?_, fun hw s' b hr => ?_⟩
  · refine (inband_of_waits hw).trans ?_
    rw [show s.ringSlot c = none from hr]
  · have hexec := inband_of_waits hw
    rw [show s.ringSlot c = some (s', b) from hr] at hexec
    dsimp only at hexec
    obtain ⟨hmgmt, hboot⟩ := coreRead_keeps hr
    have hd : (s'.modMgmt fun m => { m with rings := Table.set {} m.rings c.val { s.ring c with taken := (s.ring c).taken + 1 } })
        = { s' with mgmt := { s.mgmt with rings := Table.set {} s.mgmt.rings c.val { s.ring c with taken := (s.ring c).taken + 1 } } } := by
      unfold modMgmt
      rw [hmgmt]
    rw [hd] at hexec
    obtain ⟨-, h5, -⟩ := hw
    refine ⟨fun hp => ?_, fun y k hp hk => ⟨_, ringDatagram_of (hboot.trans h5) hp hk, hexec⟩⟩
    rw [ringDatagram_of_none hp] at hexec
    exact hexec

/-- Settles O55: a write of a register field changes its field, and what the field's own rules add: waits latch, a stop_after that has been
reached stops its queue, a command queue is taken up, a fault queue that is turned off fails what waited for it; an access by address is
one of the place that the address map gives it. The command queue's bits are log entry 24's, one waiting frame for each beacon is log entry
62's, an object written without its path's checks is log entry 63's, and the reserved locations, the AMOs and the core's store and debug read are log entry
87's. -/
theorem portsAndRegisters : Obligations.PortsAndRegisters := by
  unfold Obligations.PortsAndRegisters
  refine ⟨fun v s => ?_, fun op pa v realm n s => ?_, fun satp va v n s => ?_, fun line k v s => ?_, fun c s => inbandRing_spec c s, fun s => ?_⟩
  · refine ⟨fun q => queueFields_spec v s q, ⟨_, rfl, rfl, rfl⟩, ⟨_, rfl, rfl⟩, ⟨_, rfl, rfl⟩, fun r => relayFields_spec v s r, fun m => ?_,
      ⟨_, rfl, rfl⟩, ⟨_, rfl, rfl⟩, ⟨_, rfl, rfl⟩, ⟨_, rfl, rfl⟩, fun k => ?_, fun h k => ?_, fun a => ?_⟩
    · exact mmuFields_spec v s m
    · refine ⟨window_high k v s, fun h => ?_, fun h => window_low_off k s h⟩
      obtain ⟨u, hexec, hu⟩ := window_low_on k s h
      rw [windowLow, h, Bool.or_true] at hu
      exact ⟨u, hexec, by rw [hu], by rw [hu], by rw [hu], by rw [hu], by rw [hu], by rw [hu], by rw [hu]⟩
    · exact ⟨fun hk => mailbox_word h hk v s, mailbox_doorbell h v s, fun hd => congrArg Host.Outcome.next (submitMailbox_busy hd),
        fun hd => ⟨_, rfl, submitMailbox_done hd⟩⟩
    · refine ⟨object_of_none, fun r h hr hb hu hfit hlo hhi hact => ⟨_, object_put h hr hb hu hfit hlo hhi hact, ?_, fun k hk => ?_, rfl⟩⟩
      · exact Dev.obj!_setObj_same ..
      · exact (Dev.obj!_setObj ..).trans (if_neg hk)
  · obtain ⟨h1, h2, h3, h4, h5⟩ := busAccess_spec op pa v realm n s
    exact ⟨h1, h2, h3, h4, h5, busWord_spec op pa v realm n s⟩
  · exact ⟨fun h => coreStore_of_denied ((sealDenies_iff ..).mpr h), fun h => coreStore_of_not (mt (sealDenies_iff ..).mp h)⟩
  · refine ⟨fun h => ⟨_, congrArg Host.Outcome.next (debugRead_zeros k h), rfl, ?_, rfl⟩, fun t ht h1 h2 => ?_⟩
    · exact Dev.objAt_bump_self s.toDev 1 (by decide) (by decide)
    · rw [ht]
      exact congrArg Host.Outcome.next (debugRead_word k h1 h2)
  · refine ⟨fun h => congrArg Host.Outcome.next (if_pos h), fun h => ⟨_, beacon_of_up h, Dev.objAt_setObjAt_same .., rfl, rfl, rfl⟩,
      ⟨_, rfl, Dev.objAt_setObjAt_same .., rfl⟩, linkChange_up s, fun target source => ?_, fun source data i k => ?_⟩
    · refine ⟨neighbor_of_not, fun ht hp hf => ?_, fun ht hp hf => ?_⟩
      · exact (neighbor_of ht hp).trans (congrArg Host.Outcome.next (transmit_free _ hf))
      · exact (neighbor_of ht hp).trans (congrArg Host.Outcome.next (transmit_waits _ hf))
    · exact ⟨echo_of_not, fun h hf => (echo_of h).trans (congrArg Host.Outcome.next (transmit_free _ hf))⟩

end Sys2Proof.Machine
end

section
/-! PROOFS. Proofs/LostCompletion.lean: a lost completion that is not on its way has no outcome (O44). -/

namespace Sys2Proof.Machine

/-- A completion of agent 0 for the first line, of which no message is on its way. -/
def unsentCompletion : LostMessage := .completion 0 0 .s

theorem msgs_connectionDown {c : ConnId} {b : Bool} {l : List LostMessage} {s u : State} (h : exec (.connectionDown c b l) s = .next u) :
    u.mem.msgs = (s.toDev.connectionDown c.val b l).mem.msgs := by
  have hexec : exec (.connectionDown c b l) s = .next { s with toDev := s.toDev.connectionDown c.val b l } := rfl
  rw [← Host.Outcome.next.inj (hexec.symm.trans h)]

/-- A connection that goes down with such a completion sends nothing for it. -/
theorem msgs_connectionDown_unsent : (State.reset.toDev.connectionDown (0 : ConnId).val false [unsentCompletion]).mem.msgs = [] := by decide +kernel

theorem witness_connectionDown_unsent : State.reset.connUp (0 : ConnId).val = true ∧ (∀ m, (State.reset.mmu m).fqEn = false)
    ∧ isolatedDies (State.reset.downMask + 2 ^ (0 : ConnId).val) = isolatedDies State.reset.downMask
    ∧ (State.reset.port 0 0).flits = [] ∧ (State.reset.port 10 0).flits = [] := by decide +kernel

/-- Refutes O44: at reset no message is on its way, and a connection that goes down with a lost completion named finds none of its virtual channel,
agent and line, so that nothing is sent in its place; the statement asks for a poisoned completion under epoch 0 (log entries 46 and
85). -/
theorem not_flitRetry : ¬ Obligations.FlitRetry := by
  unfold Obligations.FlitRetry
  rintro ⟨-, -, hdown, -⟩
  obtain ⟨hup, hoff, hisolated, hfirst, hsecond⟩ := witness_connectionDown_unsent
  obtain ⟨-, hlost⟩ := hdown 0 false [unsentCompletion] State.reset
  obtain ⟨u, hexec, -, -, -, -, hends⟩ := hlost hup hoff hisolated
  obtain ⟨-, -, -, -, hsent⟩ := hends ((0, 0), 10, 0) rfl
  have hu : u.mem.msgs = [] := (msgs_connectionDown hexec).trans msgs_connectionDown_unsent
  have hmem := hsent 0 0 .s rfl hfirst hsecond
  rw [hu] at hmem
  exact absurd hmem (List.not_mem_nil)

end Sys2Proof.Machine
end

section
/-! PROOFS. Proofs/StraddledRecord.lean: the record of a home timeout held behind the transaction that it ends (O37). -/

namespace Sys2Proof.Machine

/-- A transaction of agent 2 whose timer has expired, agent 1 not having answered. -/
def overdueTxn : Txn := { epoch := 0, kind := .readOwn, by_ := .agent 2, awaiting := [1], deadline := 0 }

/-- The module at reset with that transaction open on line 0x40, and a fault queue at the line's home whose first entry begins 32 bytes before the
line. -/
def straddled : State := State.reset.lift fun d =>
  (d.setTxn 0x40 (some overdueTxn)).modMmu (mmuOf (d.homeDieOf 0x40)) fun x => { x with fqEn := true, fqBase := BitVec.ofNat 64 (tagPa 0x40 - 32) }

theorem witness_straddled : straddled.txnOf 0x40 = some overdueTxn ∧ straddled.heldOf 0x40 = []
    ∧ overdueTxn.deadline ≤ max straddled.now.toNat (0 : U64).toNat := by decide +kernel

/-- The record of the timeout is written into the line while its transaction is open, is held behind it, and opens a transaction of its own once it
closes. -/
theorem txnOf_homeTimeout_straddled : (((straddled.toDev.advance 0).giveUp 0x40 overdueTxn).txnOf 0x40).isSome = true := by decide +kernel

theorem homeTimeout_of_overdue {t : LineTag} {t0 : U64} {x : Txn} {s u : State} (hx : s.txnOf t = some x) (hd : x.deadline ≤ (s.toDev.advance t0).now.toNat)
    (h : exec (.homeTimeout t t0) s = .next u) : u.toDev = (s.toDev.advance t0).giveUp t x := by
  have hexec : execHomeTimeout t t0 s = .next { s with toDev := (s.toDev.advance t0).giveUp t x } := by
    unfold execHomeTimeout State.run
    dsimp only
    rw [hx]
    dsimp only
    rw [if_pos hd]
  rw [← Host.Outcome.next.inj (hexec.symm.trans h)]

/-- Refutes O37: the record of a home timeout that straddles the line of the transaction itself, as one of a fault queue at no multiple of 64 bytes can, is a
write-push held behind that transaction (R402): it is taken up once the transaction closes, and leaves another open on the line. (FQ_BASE_WRITE leaves no
such fault queue; the statement asks for it in every state.) -/
theorem not_homeAnswers : ¬ Obligations.HomeAnswers := by
  unfold Obligations.HomeAnswers
  rintro ⟨-, -, htimeout⟩
  obtain ⟨hx, hheld, hd⟩ := witness_straddled
  obtain ⟨-, hanswer⟩ := htimeout 0x40 0 straddled overdueTxn hx
  obtain ⟨u, -, -, hexec, hnone, -⟩ := hanswer 2 hd hheld rfl rfl rfl
  have hu := homeTimeout_of_overdue hx (Nat.zero_le _) hexec
  rw [hu] at hnone
  have hsome := txnOf_homeTimeout_straddled
  rw [hnone] at hsome
  exact absurd hsome (by decide)

end Sys2Proof.Machine
end

section
/-! PROOFS. Proofs/TurnsForgotten.lean: what the memory system does to lines rests on no turn of a waiting request (R426). -/

namespace Sys2Proof.Machine

/-- A home with the turns of its waiting requests forgotten (R426). -/
def Hub.unturned (x : Hub) : Hub := { x with stalled := [], lastAgent := 0 }

namespace Dev

/-- A state with the turns at every home forgotten: what the memory system does to lines rests on none of them. -/
def unturned (s : Dev) : Dev := { s with mem := { s.mem with hubs := s.mem.hubs.map Hub.unturned } }

variable (s : Dev) (tag : LineTag)

@[simp] theorem hub_unturned (h : HubId) : s.unturned.hub h = (s.hub h).unturned := Vector.getElem_map ..

/-! What is read of a line. -/

@[simp] theorem hubOf_unturned (a : Nat) : s.unturned.hubOf a = s.hubOf a := hubOf_of_pool rfl a
@[simp] theorem stackOf_unturned (a : Nat) : s.unturned.stackOf a = s.stackOf a := stackOf_of_pool rfl a

/-- The place of a location and its L3 set, stated of the functions: the kernel would compute with the place where an equation is applied. -/
theorem place_eq : Dev.place = fun s a => placeOf (s.poolGib * 2 ^ 30) a := rfl

theorem l3Set_eq : Dev.l3Set = fun s a => match s.place a with
    | (st, i) => st % 4 * 32768 + Nat.xor (i % 32768) (i / 32768 % 32768) := rfl

theorem place_of_pool {s t : Dev} (h : t.poolGib = s.poolGib) (a : Nat) : t.place a = s.place a := by
  rw [place_eq]
  beta_reduce
  rw [h]

theorem l3Set_of_pool {s t : Dev} (h : t.poolGib = s.poolGib) (a : Nat) : t.l3Set a = s.l3Set a := by
  rw [l3Set_eq]
  beta_reduce
  rw [place_of_pool h]

@[simp] theorem l3Set_unturned (a : Nat) : s.unturned.l3Set a = s.l3Set a := by
  have h : s.unturned.poolGib = s.poolGib := rfl
  exact l3Set_of_pool h a

@[simp] theorem l3Line_unturned : s.unturned.l3Line tag = s.l3Line tag := by
  unfold l3Line
  rw [hub_unturned]
  rfl

@[simp] theorem wcbLine_unturned : s.unturned.wcbLine tag = s.wcbLine tag := by
  unfold wcbLine
  rw [hub_unturned]
  rfl

@[simp] theorem dirOf_unturned : s.unturned.dirOf tag = s.dirOf tag := by
  unfold dirOf
  rw [hub_unturned]
  rfl

@[simp] theorem evbOf_unturned : s.unturned.evbOf tag = s.evbOf tag := by
  unfold evbOf
  rw [hub_unturned]
  rfl

@[simp] theorem lineBusy_unturned : s.unturned.lineBusy tag = s.lineBusy tag := by
  unfold lineBusy dirBlocked
  rw [hub_unturned]
  rfl

@[simp] theorem markedBack_unturned (p w : Bool) : s.unturned.markedBack tag p w = s.markedBack tag p w := by
  unfold markedBack
  rw [dirOf_unturned]

/-! What changes a home. -/

theorem setHub_unturned (h : HubId) (x : Hub) : s.unturned.setHub h x.unturned = (s.setHub h x).unturned := by
  unfold setHub unturned
  dsimp only
  rw [Vector.map_set]

theorem modHub_unturned (h : HubId) {f : Hub → Hub} (hf : ∀ x : Hub, f x.unturned = (f x).unturned) : s.unturned.modHub h f = (s.modHub h f).unturned := by
  unfold modHub
  rw [hub_unturned, hf, setHub_unturned]

@[simp] theorem setL3_unturned (l : Option L3Line) : s.unturned.setL3 tag l = (s.setL3 tag l).unturned := s.modHub_unturned _ fun _ => rfl
@[simp] theorem setWcb_unturned (w : Option WcbLine) : s.unturned.setWcb tag w = (s.setWcb tag w).unturned := s.modHub_unturned _ fun _ => rfl
@[simp] theorem setDir_unturned (d : Option DirEntry) : s.unturned.setDir tag d = (s.setDir tag d).unturned := s.modHub_unturned _ fun _ => rfl
@[simp] theorem takeEpoch_unturned : (s.unturned.takeEpoch tag).1 = (s.takeEpoch tag).1.unturned :=
  s.modHub_unturned _ (f := fun y => { y with epoch := y.epoch + 1 }) fun _ => rfl

theorem homeTurn_unturned (a : Agent) : (s.homeTurn tag a).unturned = s.unturned := by
  have hx : ((if (s.homeOf tag).stalled.contains a then { s.homeOf tag with stalled := (s.homeOf tag).stalled.filter (· ≠ a), lastAgent := a.val }
      else s.homeOf tag) : Hub).unturned = (s.homeOf tag).unturned := by
    split <;> rfl
  unfold homeTurn modHub
  rw [← setHub_unturned]
  refine (congrArg (s.unturned.setHub (s.hubOf (tagLoc tag))) hx).trans ?_
  have hself : s.unturned.setHub (s.hubOf (tagLoc tag)) (s.unturned.hub (s.hubOf (tagLoc tag))) = s.unturned := by
    unfold setHub hub
    rw [Fin.getElem_fin, Vector.set_getElem_self]
  rw [hub_unturned] at hself
  exact hself

/-! What changes the rest of the memory system, or nothing of it. -/

@[simp] theorem stamp_unturned : s.unturned.stamp = (s.stamp.1.unturned, s.stamp.2) := rfl
@[simp] theorem bump_unturned (a b c n : Nat) : s.unturned.bump a b c n = (s.bump a b c n).unturned := rfl
@[simp] theorem setLine_unturned (a : Agent) (l : Option CacheLine) : s.unturned.setLine a tag l = (s.setLine a tag l).unturned := rfl
@[simp] theorem dramWrite_unturned (d : LineData) (p : Bool) : s.unturned.dramWrite tag d p = (s.dramWrite tag d p).unturned := rfl
@[simp] theorem dramSetPoison_unturned : s.unturned.dramSetPoison tag = (s.dramSetPoison tag).unturned := rfl
@[simp] theorem event_unturned (k d : Nat) : s.unturned.event k d = (s.event k d).unturned := rfl
@[simp] theorem moduleFatal_unturned (n : Nat) : s.unturned.moduleFatal n = (s.moduleFatal n).unturned := rfl
@[simp] theorem modMmu_unturned (m : MmuId) (f : Mmu → Mmu) : s.unturned.modMmu m f = (s.modMmu m f).unturned := rfl
@[simp] theorem modXl_unturned (f : XlState → XlState) : s.unturned.modXl f = (s.modXl f).unturned := rfl
@[simp] theorem dropRecord_unturned (m : MmuId) : s.unturned.dropRecord m = (s.dropRecord m).unturned := rfl
@[simp] theorem mmu_unturned (m : MmuId) : s.unturned.mmu m = s.mmu m := rfl

theorem ite_unturned {c : Prop} [Decidable c] {s t u v : Dev} (h1 : s = t.unturned) (h2 : u = v.unturned) :
    (if c then s else u) = (if c then t else v).unturned := by
  split <;> assumption

theorem foldl_unturned {α : Type} {f : Dev → α → Dev} (hf : ∀ (s : Dev) (a : α), f s.unturned a = (f s a).unturned) (l : List α) (s : Dev) :
    l.foldl f s.unturned = (l.foldl f s).unturned := by
  induction l generalizing s with
  | nil => rfl
  | cons a l ih => rw [List.foldl_cons, hf, ih, List.foldl_cons]

theorem holdDram_unturned (n : Nat) : s.unturned.holdDram tag n = (s.holdDram tag n).unturned :=
  ite_unturned rfl (ite_unturned rfl (ite_unturned rfl rfl))

theorem readError_unturned (g : Option Nat) : s.unturned.readError g = ((s.readError g).1.unturned, (s.readError g).2) := by
  unfold readError
  rw [show s.unturned.mem.dramErrors = s.mem.dramErrors from rfl]
  split
  · rfl
  · rfl
  · split <;> rfl
  · rfl

section
variable {rep : Dev → LineTag → Nat → Dev} (hrep : ∀ (s : Dev) (t : LineTag) (n : Nat), rep s.unturned t n = (rep s t n).unturned)
include hrep

theorem dramReadBy_unturned (g : Option Nat) (n : Nat) :
    dramReadBy rep s.unturned tag g n = ((dramReadBy rep s tag g n).1.unturned, (dramReadBy rep s tag g n).2) := by
  unfold dramReadBy
  dsimp only
  rw [stackOf_unturned, bump_unturned, readError_unturned]
  generalize (s.bump 7 0x100 (s.stackOf (tagLoc tag)) 1).readError g = r
  rw [show s.unturned.dramPoisoned tag = s.dramPoisoned tag from rfl, show s.unturned.dramData tag = s.dramData tag from rfl]
  dsimp only
  generalize decodeLine (s.dramPoisoned tag) r.2.symbols = decoded
  generalize (if (!s.dramPoisoned tag && decide (r.2.misread = some Misread.quiet)) = true then none else r.2.misread) = misread
  cases decoded with
  | right => rfl
  | corrected =>
    dsimp only
    rw [bump_unturned, bump_unturned]
  | poisoned => rfl
  | uncorrectable =>
    match misread with
    | some (.wrong d) =>
      dsimp only
      rw [bump_unturned, dramWrite_unturned]
    | some .quiet => rfl
    | none =>
      dsimp only
      split
      · rw [bump_unturned, hrep]
      · rw [bump_unturned, bump_unturned, dramSetPoison_unturned, hubOf_unturned, bump_unturned, hrep]

omit hrep in
theorem wcbDrainWith_unturned (w : WcbLine) (b : LineData) (p : Bool) (idx : Nat) :
    s.unturned.wcbDrainWith tag w b p idx = (s.wcbDrainWith tag w b p idx).unturned := by
  unfold wcbDrainWith
  simp

theorem wcbDrainBy_unturned (g : Option Nat) (idx : Nat) : wcbDrainBy rep s.unturned tag g idx = (wcbDrainBy rep s tag g idx).unturned := by
  unfold wcbDrainBy
  rw [wcbLine_unturned]
  split
  · rfl
  · refine ite_unturned (wcbDrainWith_unturned ..) ?_
    rw [dramReadBy_unturned _ _ hrep]
    exact wcbDrainWith_unturned ..

omit hrep in
/-- What a line put into a full L3 set sends out (R392). -/
theorem l3Put_unturned (d : LineData) (y p : Bool) : s.unturned.l3Put tag d y p = (s.l3Put tag d y p).unturned := by
  unfold l3Put
  simp only [stamp_unturned, hubOf_unturned, hub_unturned, l3Line_unturned, l3Set_unturned]
  rw [← setL3_unturned]
  refine congrArg (fun v : Dev => v.setL3 tag _) (ite_unturned rfl ?_)
  dsimp only [Hub.unturned]
  split
  · rfl
  · next v l _ =>
    rw [← setL3_unturned]
    refine congrArg (fun u : Dev => u.setL3 v none) (ite_unturned ?_ rfl)
    rw [dramWrite_unturned, setWcb_unturned]

end

/-- A state whose write-combining buffer has room for a line (R383). -/
def wcbRoom (rep : Dev → LineTag → Nat → Dev) (s : Dev) (tag : LineTag) : Dev :=
  if (s.wcbLine tag).isNone && 512 ≤ (present (s.hub (s.hubOf (tagLoc tag))).wcb).length then
    match oldestWcb (s.hub (s.hubOf (tagLoc tag))) with
    | some (v, _) => wcbDrainBy rep s v none 0x113
    | none => s
  else s

/-- The write-combining line that a write makes of the one there is, or of none (R383, R415). -/
def wcbWritten (w : Option WcbLine) (now : U64) (n off : Nat) (b : List Byte) (part by_ : Nat) : WcbLine :=
  match w with
  | some w => { w with mask := Nat.lor w.mask (maskOf off b.length),
                       part := Nat.lor (Nat.land w.part (Nat.xor fullMask (maskOf off b.length))) part,
                       data := patch w.data off b, writers := if w.writers.contains by_ then w.writers else w.writers ++ [by_] }
  | none => { mask := maskOf off b.length, part := part, data := patch zeroLine off b, since := now, writers := [by_], order := n }

/-- A write into a write-combining buffer that has room: a line wholly written goes on to DRAM (R383, R415). -/
def wcbTake (rep : Dev → LineTag → Nat → Dev) (s : Dev) (tag : LineTag) (off : Nat) (b : List Byte) (part by_ : Nat) : Dev :=
  let w := wcbWritten (s.wcbLine tag) s.now s.stamp.2 off b part by_
  let u := s.stamp.1.setWcb tag (some w)
  if maskOf off b.length = fullMask && part = 0 then u.wcbDrainWith tag w zeroLine false 0x110
  else if w.whole then wcbDrainBy rep u tag none 0x110 else u

/-- A write at a home whose L3 holds the line changes it there (R381, R415). -/
def l3Write (s : Dev) (tag : LineTag) (l : L3Line) (off : Nat) (b : List Byte) (part : Nat) : Dev :=
  let v := (s.bump 8 0x110 (hubDie (s.hubOf (tagLoc tag))) 1).stamp
  v.1.setL3 tag (some { l with data := patch l.data off b, dirty := true,
                               poison := if part = 0 then poisonAfter l.poison (maskOf off b.length) else l.poison, use := v.2 })

variable {off part by_ : Nat} {b : List Byte}

theorem homeWriteBy_of_l3 {rep : Dev → LineTag → Nat → Dev} {s : Dev} {tag : LineTag} {l : L3Line} (h : s.l3Line tag = some l) :
    homeWriteBy rep s tag off b part by_ = s.l3Write tag l off b part := by
  unfold homeWriteBy
  rw [h]
  rfl

theorem homeWriteBy_of_miss {rep : Dev → LineTag → Nat → Dev} {s : Dev} {tag : LineTag} (h : s.l3Line tag = none) :
    homeWriteBy rep s tag off b part by_ = (wcbRoom rep s tag).wcbTake rep tag off b part by_ := by
  unfold homeWriteBy
  rw [h]
  rfl

section
variable {rep : Dev → LineTag → Nat → Dev} (hrep : ∀ (s : Dev) (t : LineTag) (n : Nat), rep s.unturned t n = (rep s t n).unturned)
include hrep

theorem wcbRoom_unturned : wcbRoom rep s.unturned tag = (wcbRoom rep s tag).unturned := by
  have hold (x : Hub) : oldestWcb x.unturned = oldestWcb x := rfl
  have hpresent : (present (s.unturned.hub (s.unturned.hubOf (tagLoc tag))).wcb) = present (s.hub (s.hubOf (tagLoc tag))).wcb := by
    rw [hubOf_unturned, hub_unturned]
    rfl
  unfold wcbRoom
  rw [wcbLine_unturned, hpresent, hubOf_unturned, hub_unturned, hold]
  refine ite_unturned ?_ rfl
  split
  · exact wcbDrainBy_unturned _ _ hrep ..
  · rfl

theorem wcbTake_unturned (off : Nat) (b : List Byte) (part by_ : Nat) :
    wcbTake rep s.unturned tag off b part by_ = (wcbTake rep s tag off b part by_).unturned := by
  unfold wcbTake
  dsimp only
  rw [stamp_unturned, wcbLine_unturned, show s.unturned.now = s.now from rfl]
  dsimp only
  rw [setWcb_unturned]
  exact ite_unturned (wcbDrainWith_unturned ..) (ite_unturned (wcbDrainBy_unturned _ _ hrep ..) rfl)

theorem homeWriteBy_unturned (off : Nat) (b : List Byte) (part by_ : Nat) :
    homeWriteBy rep s.unturned tag off b part by_ = (homeWriteBy rep s tag off b part by_).unturned := by
  cases hl : s.l3Line tag with
  | some l =>
    rw [homeWriteBy_of_l3 hl, homeWriteBy_of_l3 ((l3Line_unturned s tag).trans hl)]
    unfold l3Write
    simp
  | none =>
    rw [homeWriteBy_of_miss hl, homeWriteBy_of_miss ((l3Line_unturned s tag).trans hl), wcbRoom_unturned _ _ hrep, wcbTake_unturned _ _ hrep]

end

/-- What the owner of a line, or an eviction buffer, gives back of it, with its poison (R404, R415). -/
def gatheredData (s : Dev) (tag : LineTag) : Option (LineData × Bool) :=
  match s.ownerOf tag with
  | some (a, l) => if l.st = .e then none else some (l.data, s.markedBack tag l.poison (wholeWritten a l.written))
  | none => (s.evbOf tag).map (fun e => (e.2.data, s.markedBack tag e.2.poison (wholeWritten e.1 e.2.written)))

/-- A line merged at its home, where there is something of it to merge (R404). -/
def merged (s : Dev) (tag : LineTag) : Option (LineData × Bool) → Dev
  | some (d, p) => s.l3Put tag d true p
  | none => s

theorem gatherHome_eq : s.gatherHome tag =
    (((s.merged tag (s.gatheredData tag)).holders tag).foldl (fun s a => s.setLine a tag none) (s.merged tag (s.gatheredData tag))).setDir tag none := rfl

theorem gatheredData_unturned : s.unturned.gatheredData tag = s.gatheredData tag := by
  have howner : s.unturned.ownerOf tag = s.ownerOf tag := rfl
  unfold gatheredData
  rw [howner, evbOf_unturned]
  simp only [markedBack_unturned]

theorem merged_unturned (d : Option (LineData × Bool)) : s.unturned.merged tag d = (s.merged tag d).unturned := by
  cases d with
  | none => rfl
  | some d => exact l3Put_unturned ..

theorem gatherHome_unturned : s.unturned.gatherHome tag = (s.gatherHome tag).unturned := by
  rw [gatherHome_eq, gatherHome_eq, gatheredData_unturned, merged_unturned, ← setDir_unturned]
  exact congrArg (fun u : Dev => u.setDir tag none) (foldl_unturned (fun s a => setLine_unturned ..) _ _)

section
variable {rep : Dev → LineTag → Nat → Dev} (hrep : ∀ (s : Dev) (t : LineTag) (n : Nat), rep s.unturned t n = (rep s t n).unturned)
include hrep

omit hrep in
theorem dropSide_unturned : s.unturned.dropSide tag = (s.dropSide tag).unturned := by
  have hcount (s : Dev) (d : Nat) : (if (Table.get none (s.unturned.mem.side.getD d []) tag).isSome then s.unturned.bump 5 0x103 d 1 else s.unturned)
      = (if (Table.get none (s.mem.side.getD d []) tag).isSome then s.bump 5 0x103 d 1 else s).unturned := ite_unturned rfl rfl
  have hcounts := foldl_unturned (f := fun s d => if (Table.get none (s.mem.side.getD d []) tag).isSome then s.bump 5 0x103 d 1 else s) hcount
    (List.range 8) s
  unfold dropSide dropSideOf
  dsimp only
  rw [hcounts]
  generalize List.foldl _ s _ = u
  rfl

theorem pushWriteBy_unturned (off : Nat) (b : List Byte) (part by_ : Nat) :
    pushWriteBy rep s.unturned tag off b part by_ = (pushWriteBy rep s tag off b part by_).unturned := by
  unfold pushWriteBy
  rw [gatherHome_unturned, dropSide_unturned, homeWriteBy_unturned _ _ hrep]

theorem pushAt_unturned (off : Nat) (b : List Byte) (die : Die) : pushAt rep s.unturned tag off b die = (pushAt rep s tag off b die).unturned := by
  unfold pushAt
  rw [lineBusy_unturned, hubOf_unturned, show s.unturned.scrubbed (tagPa tag) (tagRealm tag) = s.scrubbed (tagPa tag) (tagRealm tag) from rfl]
  exact ite_unturned rfl (ite_unturned (s.modHub_unturned _ fun _ => rfl) (pushWriteBy_unturned _ _ hrep ..))

theorem physWriteBy_unturned (pa : Nat) (b : List Byte) (r : Bool) (die : Die) :
    physWriteBy rep s.unturned pa b r die = (physWriteBy rep s pa b r die).unturned := by
  have hfold (l : List (LineTag × Nat × Nat)) (s : Dev) (b : List Byte) : (l.foldl (fun (acc : Dev × List Byte) p =>
      (pushAt rep acc.1 p.1 p.2.1 (acc.2.take p.2.2) die, acc.2.drop p.2.2)) (s.unturned, b)).1
        = (l.foldl (fun (acc : Dev × List Byte) p => (pushAt rep acc.1 p.1 p.2.1 (acc.2.take p.2.2) die, acc.2.drop p.2.2)) (s, b)).1.unturned := by
    induction l generalizing s b with
    | nil => rfl
    | cons p l ih =>
      rw [List.foldl_cons, List.foldl_cons, pushAt_unturned _ _ hrep]
      exact ih ..
  exact hfold ..

end

/-! Error records (R477 to R485). -/

theorem recordBusy_unturned (m : MmuId) (r : FaultRecord) : s.unturned.recordBusy m r = s.recordBusy m r := by
  unfold recordBusy
  simp only [lineBusy_unturned, mmu_unturned]

theorem writeRecord_unturned (m : MmuId) (r : FaultRecord) : s.unturned.writeRecord m r = (s.writeRecord m r).unturned := by
  unfold writeRecord
  dsimp only
  rw [mmu_unturned, foldl_unturned fun s e => physWriteBy_unturned _ (fun s t n => holdDram_unturned s t n) .., modMmu_unturned, bump_unturned]
  generalize Dev.bump _ 1 0x113 (8 + m.val) 1 = v
  rw [modXl_unturned]
  have hdirty := ite_unturned (c := r.first % 256 = 0x11) (s := (v.modXl fun v => { v with lastDirty := some r.first }).unturned) rfl (u := v.unturned) rfl
  rw [hdirty]
  exact ite_unturned (event_unturned ..) rfl

theorem drainHeld_unturned (m : MmuId) (n : Nat) : s.unturned.drainHeld m n = (s.drainHeld m n).unturned := by
  induction n generalizing s with
  | zero => rfl
  | succ n ih =>
    unfold drainHeld
    rw [mmu_unturned]
    split
    · rfl
    · rw [recordBusy_unturned, modMmu_unturned, writeRecord_unturned, ih]
      exact ite_unturned rfl rfl

theorem reportTo_unturned (m : MmuId) (r : FaultRecord) : s.unturned.reportTo m r = (s.reportTo m r).unturned := by
  have hfatal := ite_unturned (c := r.cls = .fatal) (moduleFatal_unturned s r.first) (u := s.unturned) rfl
  unfold reportTo
  dsimp only
  rw [hfatal]
  generalize (if r.cls = .fatal then s.moduleFatal r.first else s) = t
  rw [mmu_unturned, drainHeld_unturned]
  refine ite_unturned rfl ?_
  generalize t.drainHeld m 32 = u
  rw [mmu_unturned, recordBusy_unturned]
  exact ite_unturned rfl (ite_unturned (writeRecord_unturned ..) (ite_unturned rfl (ite_unturned rfl rfl)))

theorem reportDram_unturned (n : Nat) : s.unturned.reportDram tag n = (s.reportDram tag n).unturned := by
  have hdie : s.unturned.homeDieOf tag = s.homeDieOf tag := by
    unfold homeDieOf
    simp only [hubOf_unturned]
  unfold reportDram report
  rw [hdie]
  exact reportTo_unturned ..

/-- What a home reads, and what it leaves but for turns, rests on no turn (R382, R426). -/
theorem homeRead_unturned (g : Option Nat) : s.unturned.homeRead tag g = ((s.homeRead tag g).1.unturned, (s.homeRead tag g).2) := by
  unfold homeRead
  dsimp only
  rw [l3Line_unturned, hubOf_unturned]
  split
  · simp
  · rw [bump_unturned]
    unfold dramRead
    rw [dramReadBy_unturned _ _ reportDram_unturned]
    dsimp only
    rw [wcbLine_unturned, l3Put_unturned]

theorem homeData_unturned : s.unturned.homeData tag = s.homeData tag := by
  unfold homeData
  rw [l3Line_unturned, wcbLine_unturned]
  rfl

end Dev
end Sys2Proof.Machine
end

section
/-! PROOFS. Proofs/DirectoryKept.lean: reading and writing a line at its home takes no line into the directory (R381, R382, R477). -/

namespace Sys2Proof.Machine
namespace Dev

/-- From s to t the pool is as it was, and no home has taken a line into its directory. -/
structure dirLess (s t : Dev) : Prop where
  pool : t.poolGib = s.poolGib
  dir : ∀ h tag, Table.get none (s.hub h).dir tag = none → Table.get none (t.hub h).dir tag = none

variable {s t u : Dev} {tag : LineTag}

theorem dirLess.dirOf (h : s.dirLess t) (hd : s.dirOf tag = none) : t.dirOf tag = none := by
  unfold Dev.dirOf at hd ⊢
  rw [hubOf_of_pool h.pool]
  exact h.dir _ _ hd

namespace dirLess

theorem refl (s : Dev) : s.dirLess s := ⟨rfl, fun _ _ h => h⟩

theorem trans (h1 : s.dirLess t) (h2 : t.dirLess u) : s.dirLess u := ⟨h2.pool.trans h1.pool, fun h tag hd => h2.dir h tag (h1.dir h tag hd)⟩

theorem of_same (hp : t.poolGib = s.poolGib) (hh : ∀ h, (t.hub h).dir = (s.hub h).dir) : s.dirLess t := ⟨hp, fun h tag hd => by rw [hh]; exact hd⟩

theorem of_ownData (h : s.ownData t) : s.dirLess t := of_same h.pool fun x => by rw [h.hub x]

theorem ite {c : Prop} [Decidable c] (h1 : s.dirLess t) (h2 : s.dirLess u) : s.dirLess (if c then t else u) := by
  split <;> assumption

theorem foldl {α : Type} {g : Dev → α → Dev} (hg : ∀ (s : Dev) (a : α), s.dirLess (g s a)) (l : List α) (s : Dev) : s.dirLess (l.foldl g s) := by
  induction l generalizing s with
  | nil => exact refl s
  | cons a l ih => exact (hg s a).trans (ih (g s a))

theorem modHub (h : HubId) {g : Hub → Hub} (hg : ∀ x, (g x).dir = x.dir) : s.dirLess (s.modHub h g) :=
  of_same rfl fun h' => by
    rw [hub_modHub]
    split
    · next he => rw [hg, he]
    · rfl

theorem bump {a b c n : Nat} (h : objAddr a b c ≠ objAddr 7 0x203 0) : s.dirLess (s.bump a b c n) := of_same (poolGib_setObj h) fun _ => rfl

theorem modMmu (m : MmuId) (g : Mmu → Mmu) : s.dirLess (s.modMmu m g) := of_same rfl fun _ => rfl
theorem setLine (a : Agent) (tag : LineTag) (l : Option CacheLine) : s.dirLess (s.setLine a tag l) := of_same rfl fun _ => rfl
theorem moduleFatal (n : Nat) : s.dirLess (s.moduleFatal n) := of_same rfl fun _ => rfl
theorem dramSetPoison (tag : LineTag) : s.dirLess (s.dramSetPoison tag) := of_same rfl fun _ => rfl
theorem event (k d : Nat) : s.dirLess (s.event k d) := of_same (poolGib_setObj (s := s) (by decide)) fun _ => rfl

theorem setDir_none (tag : LineTag) : s.dirLess (s.setDir tag none) where
  pool := rfl
  dir h tag2 hd := by
    unfold setDir
    rw [hub_modHub]
    split
    · next he =>
      dsimp only
      by_cases ht : tag2 = tag
      · rw [ht, Table.get_set_same]
      · rw [Table.get_set_ne _ _ _ ht, ← he]
        exact hd
    · exact hd

theorem readError (s : Dev) (g : Option Nat) : s.dirLess (s.readError g).1 := by
  unfold Dev.readError
  split
  · exact refl s
  · exact refl s
  · split
    · exact refl s
    · exact of_same rfl fun _ => rfl
  · exact of_same rfl fun _ => rfl

section
variable {rep : Dev → LineTag → Nat → Dev} (hrep : ∀ (s : Dev) (t : LineTag) (n : Nat), s.dirLess (rep s t n))
include hrep

theorem dramReadBy (s : Dev) (tag : LineTag) (g : Option Nat) (n : Nat) : s.dirLess (Dev.dramReadBy rep s tag g n).1 := by
  have hcount (d : Dev) {idx : Nat} (hi : idx < 0x180) : d.dirLess (d.bump 7 idx (s.stackOf (tagLoc tag)) 1) :=
    bump (by have := s.stackOf_lt tag; unfold objAddr; omega)
  unfold Dev.dramReadBy
  dsimp only
  have h : s.dirLess ((s.bump 7 0x100 (s.stackOf (tagLoc tag)) 1).readError g).1 := (hcount s (by decide)).trans (readError ..)
  generalize (s.bump 7 0x100 (s.stackOf (tagLoc tag)) 1).readError g = r at h ⊢
  split
  · exact h
  · exact h.trans ((hcount _ (by decide)).trans (hcount _ (by decide)))
  · exact h
  · exact h.trans ((hcount _ (by decide)).trans (of_ownData (.dramWrite ..)))
  · exact h
  · split
    · exact h.trans ((hcount _ (by decide)).trans (hrep ..))
    · exact h.trans ((hcount _ (by decide)).trans ((hcount _ (by decide)).trans ((dramSetPoison _).trans
        ((of_ownData (.bumpHub _ (by decide) ..)).trans (hrep ..)))))

omit hrep in
theorem wcbDrainWith (s : Dev) (tag : LineTag) (w : WcbLine) (b : LineData) (p : Bool) {idx : Nat} (_ : idx < 0x180) :
    s.dirLess (s.wcbDrainWith tag w b p idx) :=
  (of_ownData (.setWcb ..)).trans ((bump (by unfold objAddr hubDie; omega)).trans (of_ownData (.dramWrite ..)))

theorem wcbDrainBy (s : Dev) (tag : LineTag) (g : Option Nat) {idx : Nat} (hi : idx < 0x180) : s.dirLess (Dev.wcbDrainBy rep s tag g idx) := by
  unfold Dev.wcbDrainBy
  split
  · exact refl s
  · exact ite (wcbDrainWith _ _ _ _ _ hi) ((dramReadBy hrep ..).trans (wcbDrainWith _ _ _ _ _ hi))

theorem wcbRoom (s : Dev) (tag : LineTag) : s.dirLess (Dev.wcbRoom rep s tag) := by
  unfold Dev.wcbRoom
  refine ite ?_ (refl s)
  split
  · exact wcbDrainBy hrep _ _ _ (by decide)
  · exact refl s

theorem wcbTake (s : Dev) (tag : LineTag) (off : Nat) (b : List Byte) (part by_ : Nat) : s.dirLess (Dev.wcbTake rep s tag off b part by_) :=
  (of_ownData (.trans (.stamp s) (.setWcb ..))).trans (ite (wcbDrainWith _ _ _ _ _ (by decide)) (ite (wcbDrainBy hrep _ _ _ (by decide)) (refl _)))

theorem homeWriteBy (s : Dev) (tag : LineTag) (off : Nat) (b : List Byte) (part by_ : Nat) :
    s.dirLess (Dev.homeWriteBy rep s tag off b part by_) := by
  cases hl : s.l3Line tag with
  | some l =>
    rw [homeWriteBy_of_l3 hl]
    exact of_ownData ((ownData.bumpHub s (by decide) ..).trans (.trans (.stamp _) (.setL3 ..)))
  | none =>
    rw [homeWriteBy_of_miss hl]
    exact (wcbRoom hrep ..).trans (wcbTake hrep ..)

omit hrep in
theorem gatherHome (s : Dev) (tag : LineTag) : s.dirLess (s.gatherHome tag) := by
  have hmerged : s.dirLess (s.merged tag (s.gatheredData tag)) := by
    cases s.gatheredData tag with
    | none => exact refl s
    | some d => exact of_ownData (.l3Put ..)
  rw [gatherHome_eq]
  exact (hmerged.trans (foldl (fun _ a => setLine a tag none) _ _)).trans (setDir_none tag)

omit hrep in
theorem dropSide (s : Dev) (tag : LineTag) : s.dirLess (s.dropSide tag) := by
  have hcounts (l : List Nat) (s : Dev) : (l.foldl (fun s d =>
      if (Table.get none (s.mem.side.getD d []) tag).isSome then s.bump 5 0x103 d 1 else s) s).mem = s.mem := by
    induction l generalizing s with
    | nil => rfl
    | cons d l ih => rw [List.foldl_cons, ih]; split <;> rfl
  have hpool := (wcbLess.dropSide (f := fun _ => false) s tag).pool
  refine of_same hpool fun h => congrArg Hub.dir ?_
  have hmem := hcounts (List.range 8) s
  unfold Dev.dropSide dropSideOf hub
  dsimp only
  generalize List.foldl _ s _ = u at hmem
  rw [← hmem]
  rfl

theorem pushAt (s : Dev) (tag : LineTag) (off : Nat) (b : List Byte) (die : Die) : s.dirLess (Dev.pushAt rep s tag off b die) :=
  ite (refl s) (ite (modHub _ fun _ => rfl) ((gatherHome ..).trans ((dropSide ..).trans (homeWriteBy hrep ..))))

theorem physWriteBy (s : Dev) (pa : Nat) (b : List Byte) (r : Bool) (die : Die) : s.dirLess (Dev.physWriteBy rep s pa b r die) := by
  have hfold (l : List (LineTag × Nat × Nat)) (acc : Dev × List Byte) : acc.1.dirLess (l.foldl (fun (acc : Dev × List Byte) p =>
      (Dev.pushAt rep acc.1 p.1 p.2.1 (acc.2.take p.2.2) die, acc.2.drop p.2.2)) acc).1 := by
    induction l generalizing acc with
    | nil => exact refl _
    | cons p l ih => exact (pushAt hrep acc.1 p.1 p.2.1 (acc.2.take p.2.2) die).trans (ih (_, acc.2.drop p.2.2))
  exact hfold _ (s, b)

end

/-! Error records (R477 to R485). -/

theorem holdDram (s : Dev) (tag : LineTag) (n : Nat) : s.dirLess (s.holdDram tag n) :=
  ite (modMmu ..) (ite (modMmu ..) (ite (moduleFatal _) (modMmu ..)))

theorem writeRecord (s : Dev) (m : MmuId) (r : FaultRecord) : s.dirLess (s.writeRecord m r) := by
  have hrec : s.dirLess (((r.first :: r.more).zipIdx).foldl (fun s' e =>
      Dev.physWriteBy Dev.holdDram s' ((s.mmu m).entryAddr e.2) (leBytes 64 e.1) false ⟨8 + m.val, by omega⟩) s) :=
    foldl (fun s e => physWriteBy holdDram ..) _ _
  unfold Dev.writeRecord
  dsimp only
  generalize ((r.first :: r.more).zipIdx).foldl _ s = u at hrec ⊢
  have htail := (hrec.trans (modMmu m (fun x => { x with fqTail := x.fqTail + BitVec.ofNat 32 r.entries }))).trans
    (bump (a := 1) (b := 0x113) (c := 8 + m.val) (n := 1) (by have := m.isLt; unfold objAddr; omega))
  generalize Dev.bump _ 1 0x113 (8 + m.val) 1 = v at htail ⊢
  have hdirty := htail.trans (ite (c := r.first % 256 = 0x11) (t := v.modXl (fun v => { v with lastDirty := some r.first })) (of_same rfl fun _ => rfl) (refl v))
  exact ite (hdirty.trans (event ..)) hdirty

theorem drainHeld (s : Dev) (m : MmuId) (n : Nat) : s.dirLess (s.drainHeld m n) := by
  induction n generalizing s with
  | zero => exact refl s
  | succ n ih =>
    unfold Dev.drainHeld
    split
    · exact refl s
    · exact ite ((modMmu ..).trans ((writeRecord ..).trans (ih _))) (refl s)

theorem reportTo (s : Dev) (m : MmuId) (r : FaultRecord) : s.dirLess (s.reportTo m r) := by
  unfold Dev.reportTo
  dsimp only
  refine trans (t := if r.cls = .fatal then s.moduleFatal r.first else s) (ite (moduleFatal _) (refl s)) ?_
  exact ite (modMmu ..) ((drainHeld _ m 32).trans (ite (modMmu ..) (ite (writeRecord ..) (ite (modMmu ..) (ite (moduleFatal _) (modMmu ..))))))

/-- A home's read takes no line into the directory (R382). -/
theorem homeRead (s : Dev) (tag : LineTag) (g : Option Nat) : s.dirLess (s.homeRead tag g).1 := by
  unfold Dev.homeRead
  dsimp only
  split
  · exact of_ownData ((ownData.bumpHub s (by decide) ..).trans (.trans (.stamp _) (.setL3 ..)))
  · exact (of_ownData (ownData.bumpHub s (by decide) ..)).trans ((dramReadBy (fun s _ _ => reportTo s _ _) ..).trans (of_ownData (.l3Put ..)))

/-- Nor does its write (R381). -/
theorem homeWrite (s : Dev) (tag : LineTag) (off : Nat) (b : List Byte) (part by_ : Nat) : s.dirLess (s.homeWrite tag off b part by_) :=
  homeWriteBy (fun s _ _ => reportTo s _ _) ..

end dirLess
end Dev
end Sys2Proof.Machine
end

section
/-! PROOFS. Proofs/HomeAnswersAtOnce.lean: a request that its home performs at once, and what its answer leaves (R401, R404, R405). -/

namespace Sys2Proof.Machine
namespace Dev

variable {s t u : Dev} {tag : LineTag} {a : Agent} {m : Msg} {k : ReqKind} {err : Nat} {by_ : ReqBy}

/-! What a home reads and records. -/

/-- A home's read that meets fewer than three symbol errors leaves all but its own data (R376, R382). -/
theorem ownData.homeRead (s : Dev) (tag : LineTag) (h : err < 3) : s.ownData (s.homeRead tag (some err)).1 := by
  unfold Dev.homeRead
  dsimp only
  split
  · exact (ownData.bumpHub s (by decide) ..).trans (.trans (.stamp _) (.setL3 ..))
  · have hless := dirLess.dramReadBy (rep := reportDram) (fun s _ _ => dirLess.reportTo s _ _) (s.bump 8 0x111 (hubDie (s.hubOf (tagLoc tag))) 1) tag (some err) 0
    obtain ⟨v, hv, hcount⟩ := dramReadBy_of_few reportDram (s.bump 8 0x111 (hubDie (s.hubOf (tagLoc tag))) 1) tag h 0
    have hread : (s.bump 8 0x111 (hubDie (s.hubOf (tagLoc tag))) 1).ownData v := by
      rw [hv] at hless
      refine ⟨?_, ?_, ?_, hless.pool, fun x => ?_⟩
      · rw [Dev.memOnly, hcount]
      · rw [hcount]
      · rw [hcount]
      · rw [hcount]; rfl
    unfold dramRead
    rw [hv]
    exact (ownData.bumpHub s (by decide) ..).trans (hread.trans (.l3Put ..))

theorem dirSays_putDir (s : Dev) (tag : LineTag) (st : DirState) (o : Option Agent) (l : List Agent) (p : Bool) :
    (s.putDir tag st o l p).dirSays tag st o l := ⟨_, dirOf_setDir .., rfl, rfl, rfl⟩

theorem dirSays_send {st : DirState} {o : Option Agent} {l : List Agent} (h : s.dirSays tag st o l) (m : Msg) : (s.send m).dirSays tag st o l := h

theorem memOnly_putDir (s : Dev) (tag : LineTag) (st : DirState) (o : Option Agent) (l : List Agent) (p : Bool) : s.memOnly (s.putDir tag st o l p) := by
  have hroom : s.memOnly (s.dirRoom tag) := by
    unfold dirRoom
    dsimp only
    refine memOnly_ite rfl ?_
    split
    · rfl
    · exact memOnly.trans (t := (s.bump ..).setDir _ none) rfl (opens_openTxn ..).memOnly
  exact hroom.trans rfl

theorem dirOf_takeEpoch (s : Dev) (tag : LineTag) : (s.takeEpoch tag).1.dirOf tag = s.dirOf tag := by
  rw [dirOf_eq, homeOf_takeEpoch]
  rfl

theorem homeData_takeEpoch (s : Dev) (tag : LineTag) : (s.takeEpoch tag).1.homeData tag = s.homeData tag := by
  have hl3 : (s.takeEpoch tag).1.l3Line tag = s.l3Line tag := by
    rw [l3Line_eq, homeOf_takeEpoch]
    rfl
  have hwcb : (s.takeEpoch tag).1.wcbLine tag = s.wcbLine tag := by
    change Table.get none ((s.takeEpoch tag).1.homeOf tag).wcb tag = _
    rw [homeOf_takeEpoch]
    rfl
  unfold homeData
  rw [hl3, hwcb]
  rfl

/-- What a home reads for a request rests on no turn that the request is given (R426). -/
theorem homeRead_arrived (s : Dev) (m : Msg) (tag : LineTag) (a : Agent) (g : Option Nat) :
    (((s.arrived m tag a).takeEpoch tag).1.homeRead tag g).2 = (((s.receive m).takeEpoch tag).1.homeRead tag g).2 := by
  have hturn (v : Dev) : ((v.takeEpoch tag).1.homeRead tag g).2 = ((v.unturned.takeEpoch tag).1.homeRead tag g).2 := by
    rw [takeEpoch_unturned, homeRead_unturned]
  rw [hturn, arrived, homeTurn_unturned, ← hturn]

theorem homeData_arrived (s : Dev) (m : Msg) (tag : LineTag) (a : Agent) : ((s.arrived m tag a).takeEpoch tag).1.homeData tag = s.homeData tag := by
  rw [homeData_takeEpoch, ← homeData_unturned, arrived, homeTurn_unturned, homeData_unturned]
  rfl

/-! A request that its home performs at once (R404). -/

/-- The request under which a home answers at once. -/
def atOnce (s : Dev) (tag : LineTag) (k : ReqKind) (by_ : ReqBy) (err : Nat) : Txn where
  epoch := s.nextEpoch tag
  kind := k
  by_ := by_
  awaiting := []
  fromO := (s.dirOf tag).any (fun e => e.st = .o)
  deadline := 0
  errSymbols := err

/-- A request that needs no snoop is performed at once, under an epoch of its own (R401, R404). -/
theorem takeUp_finishes {k' : ReqKind} (hk : k ≠ .rebuild) (heff : s.effective tag k by_ = k') {snoop : SnoopKind}
    (hplan : snoopPlan k' by_ (s.dirOf tag) = (snoop, [])) :
    s.takeUp tag k by_ err = (s.takeEpoch tag).1.finish tag (s.atOnce tag k' by_ err) false := by
  unfold takeUp
  rw [if_neg hk, heff]
  dsimp only
  rw [hplan]
  rfl

/-- A home's answer with the data it reads, once the directory records its outcome (R404, R406). -/
def granted (s : Dev) (tag : LineTag) (a : Agent) (ep : Byte) (err : Nat) (g : Grant) (st : DirState) (owner : Option Agent) (sharers : List Agent) : Dev :=
  let r := s.homeRead tag (some err)
  (r.1.putDir tag st owner sharers r.2.2).send (.data a tag ep g r.2.1 r.2.2)

/-- A home's answer without data, to an agent that is to own the line alone (R404, R415). -/
def acked (s : Dev) (tag : LineTag) (a : Agent) (ep : Byte) : Dev :=
  (s.putDir tag .x (some a) [] (s.homeData tag).2).send (.ack a tag ep (s.homeData tag).2)

theorem takeUp_readShared_alone (hd : s.dirOf tag = none) :
    s.takeUp tag .readShared (.agent a) err = (s.takeEpoch tag).1.granted tag a (s.nextEpoch tag) err .e .x (some a) [] := by
  rw [takeUp_finishes (k' := .readShared) (snoop := .inv) (by decide) rfl (by rw [hd]; rfl)]
  have hread := (dirLess.homeRead (s.takeEpoch tag).1 tag (some err)).dirOf ((dirOf_takeEpoch s tag).trans hd)
  change finishShared _ tag _ a = _
  unfold finishShared answerData granted
  dsimp only [atOnce]
  rw [hread]
  rfl

theorem takeUp_readShared_joins {d : DirEntry} (he : err < 3) (hd : s.dirOf tag = some d) (ho : d.owner = none) (ha : a ∉ d.sharers) :
    s.takeUp tag .readShared (.agent a) err
      = (s.takeEpoch tag).1.granted tag a (s.nextEpoch tag) err .s d.st none (d.sharers ++ [a]) := by
  rw [takeUp_finishes (k' := .readShared) (snoop := .shared) (by decide) rfl (by rw [hd]; exact congrArg (fun o : Option Agent => (SnoopKind.shared, o.toList)) ho)]
  have hread := ((ownData.homeRead (s.takeEpoch tag).1 tag he).dirOf tag).trans ((dirOf_takeEpoch s tag).trans hd)
  have hsharers : d.sharers.filter (· ≠ a) = d.sharers := List.filter_eq_self.mpr fun b hb => decide_eq_true fun h => ha (h ▸ hb)
  change finishShared _ tag _ a = _
  unfold finishShared answerData granted
  dsimp only [atOnce]
  rw [hread]
  dsimp only
  rw [ho, hsharers]
  rfl

theorem finish_readOwn (s : Dev) (x : Txn) (hk : x.kind = .readOwn) (hby : x.by_ = .agent a) (hdata : x.data = none) (p : Bool) :
    s.finish tag x p = s.granted tag a x.epoch x.errSymbols .m .x (some a) [] := by
  unfold finish answerData granted grant
  rw [hk, hby, hdata]

theorem takeUp_readOwn_alone (hk : k = .readOwn ∨ k = .upgrade) (hd : s.dirOf tag = none) :
    s.takeUp tag k (.agent a) err = (s.takeEpoch tag).1.granted tag a (s.nextEpoch tag) err .m .x (some a) [] := by
  have heff : s.effective tag k (.agent a) = .readOwn := by
    unfold effective
    rw [hd]
    rcases hk with rfl | rfl <;> rfl
  rw [takeUp_finishes (k' := .readOwn) (snoop := .inv) (by rcases hk with rfl | rfl <;> decide) heff (by rw [hd]; rfl)]
  exact finish_readOwn _ (s.atOnce tag .readOwn (.agent a) err) rfl rfl rfl false

theorem finish_acks (s : Dev) (x : Txn) (hk : x.kind = .writeClaim ∨ x.kind = .upgrade) (hby : x.by_ = .agent a) :
    s.finish tag x false = s.acked tag a x.epoch := by
  unfold finish ackTo acked
  rcases hk with hk | hk
  · rw [hk, hby]; rfl
  · rw [hk, hby]; rfl

theorem takeUp_writeClaim (hd : s.dirOf tag = none) :
    s.takeUp tag .writeClaim (.agent a) err = (s.takeEpoch tag).1.acked tag a (s.nextEpoch tag) := by
  rw [takeUp_finishes (k' := .writeClaim) (snoop := .inv) (by decide) rfl (by rw [hd]; rfl)]
  exact finish_acks _ (s.atOnce tag .writeClaim (.agent a) err) (.inl rfl) rfl

theorem takeUp_upgrade {d : DirEntry} (hd : s.dirOf tag = some d) (ho : d.owner = none) (hs : d.sharers = [a]) :
    s.takeUp tag .upgrade (.agent a) err = (s.takeEpoch tag).1.acked tag a (s.nextEpoch tag) := by
  have hagents : d.agents = [a] := by
    unfold DirEntry.agents
    rw [ho, hs]
    rfl
  have heff := effective_eq (k := .upgrade) (s := s) (tag := tag) (a := a) fun _ => ⟨d, hd, by rw [hagents]; exact List.mem_singleton_self a⟩
  have hplan : snoopPlan .upgrade (.agent a) (some d) = (.inv, []) := by
    change (SnoopKind.inv, d.agents.filter (fun b => ReqBy.agent a ≠ .agent b)) = _
    rw [hagents]
    simp
  rw [takeUp_finishes (k' := .upgrade) (snoop := .inv) (by decide) heff (by rw [hd]; exact hplan)]
  exact finish_acks _ (s.atOnce tag .upgrade (.agent a) err) (.inr rfl) rfl

/-! What a grant leaves. -/

section
variable (s : Dev) (tag : LineTag) (a : Agent) (ep : Byte) (err : Nat) (g : Grant) (st : DirState) (o : Option Agent) (l : List Agent)

theorem dirSays_granted : (s.granted tag a ep err g st o l).dirSays tag st o l := dirSays_send (dirSays_putDir ..) _
theorem memStep_granted : s.memStep (s.granted tag a ep err g st o l) :=
  memStep_trans (memStep_homeRead ..) (memStep_trans (memStep_putDir ..) (memStep_send ..))
theorem memOnly_granted (h : err < 3) : s.memOnly (s.granted tag a ep err g st o l) := (ownData.homeRead s tag h).memOnly.trans ((memOnly_putDir ..).trans rfl)
theorem msg_granted : .data a tag ep g (s.homeRead tag (some err)).2.1 (s.homeRead tag (some err)).2.2 ∈ (s.granted tag a ep err g st o l).mem.msgs :=
  List.mem_append_right _ List.mem_cons_self

theorem dirSays_acked : (s.acked tag a ep).dirSays tag .x (some a) [] := dirSays_send (dirSays_putDir ..) _
theorem memOnly_acked : s.memOnly (s.acked tag a ep) := (memOnly_putDir ..).trans rfl
theorem msg_acked : .ack a tag ep (s.homeData tag).2 ∈ (s.acked tag a ep).mem.msgs := List.mem_append_right _ List.mem_cons_self

end
end Dev
end Sys2Proof.Machine
end

section
/-! PROOFS. Proofs/HomeGrants.lean: what a home answers and records at once (O35). -/

namespace Sys2Proof.Machine

namespace Dev

variable {s : Dev} {t : LineTag} {d : Die} {err : Nat}

/-! Requests of units without a cache (R398, R404). -/

theorem takeUp_readOnce (ho : ∀ e, s.dirOf t = some e → e.owner = none) :
    s.takeUp t .readOnce (.die d) err = ((s.takeEpoch t).1.homeRead t (some err)).1.answerDie (.die d)
      (.data t ((s.takeEpoch t).1.homeRead t (some err)).2.1 ((s.takeEpoch t).1.homeRead t (some err)).2.2) := by
  have hplan : ∃ snoop, snoopPlan .readOnce (.die d) (s.dirOf t) = (snoop, []) := by
    cases hd : s.dirOf t with
    | none => exact ⟨.inv, rfl⟩
    | some e => exact ⟨.once, congrArg (fun o : Option Agent => (SnoopKind.once, o.toList)) (ho e hd)⟩
  obtain ⟨snoop, hplan⟩ := hplan
  rw [takeUp_finishes (k' := .readOnce) (by decide) rfl hplan]
  rfl

theorem takeUp_writePush {off : Nat} {bytes : List Byte} (hd : s.dirOf t = none) :
    s.takeUp t (.writePush off bytes) (.die d) err
      = (((s.takeEpoch t).1.setDir t none).homeWrite t off bytes 0 (writerOf d.val 255)).answerDie (.die d) (.pushed t false) := by
  rw [takeUp_finishes (k' := .writePush off bytes) (snoop := .inv) (by simp) rfl (by rw [hd]; rfl)]
  rfl

theorem takeUp_atomicHome {off : Nat} {op : AtomicCode} {x y : U64} (hd : s.dirOf t = none) :
    s.takeUp t (.atomicHome off op x y) (.die d) err
      = (((s.takeEpoch t).1.setDir t none).homeAtomic t off op.val x.toNat y.toNat (writerOf d.val 255)).1.answerDie (.die d)
        (.old t (BitVec.ofNat 64 (((s.takeEpoch t).1.setDir t none).homeAtomic t off op.val x.toNat y.toNat (writerOf d.val 255)).2.1)
          (((s.takeEpoch t).1.setDir t none).homeAtomic t off op.val x.toNat y.toNat (writerOf d.val 255)).2.2) := by
  rw [takeUp_finishes (k' := .atomicHome off op x y) (snoop := .inv) (by simp) rfl (by rw [hd]; rfl)]
  rfl

/-! What an answer leaves (R398). -/

theorem answer_answerDie (s : Dev) (d : Die) (x : OnceAnswer) : Table.get none (s.answerDie (.die d) x).mem.answers d.val = some x :=
  Table.get_set_same none s.mem.answers d.val (some x)

theorem dirOf_answerDie (s : Dev) (d : Die) (x : OnceAnswer) (t : LineTag) : (s.answerDie (.die d) x).dirOf t = s.dirOf t := rfl
theorem homeData_answerDie (s : Dev) (d : Die) (x : OnceAnswer) (t : LineTag) : (s.answerDie (.die d) x).homeData t = s.homeData t := rfl
theorem memOnly_answerDie (s : Dev) (d : Die) (x : OnceAnswer) : s.memOnly (s.answerDie (.die d) x) := rfl
theorem memStep_answerDie (s : Dev) (d : Die) (x : OnceAnswer) : s.memStep (s.answerDie (.die d) x) := ⟨rfl, id⟩

theorem l3Line_setL3 (s : Dev) (t : LineTag) (l : Option L3Line) : (s.setL3 t l).l3Line t = l := by
  rw [l3Line_eq, homeOf_setL3, Table.get_set_same]

/-! What a request's end leaves of the homes (R331, R426). -/

/-- From s to t the pool and the homes are as they were. -/
def homesKept (s t : Dev) : Prop := t.poolGib = s.poolGib ∧ t.mem.hubs = s.mem.hubs

namespace homesKept

variable {s t u : Dev}

theorem refl (s : Dev) : s.homesKept s := ⟨rfl, rfl⟩
theorem trans (h1 : s.homesKept t) (h2 : t.homesKept u) : s.homesKept u := ⟨h2.1.trans h1.1, h2.2.trans h1.2⟩
theorem ite {c : Prop} [Decidable c] (h1 : s.homesKept t) (h2 : s.homesKept u) : s.homesKept (if c then t else u) := by split <;> assumption
theorem modAgent (s : Dev) (a : Agent) (f : CacheAgent → CacheAgent) : s.homesKept (s.modAgent a f) := ⟨rfl, rfl⟩
theorem send (s : Dev) (m : Msg) : s.homesKept (s.send m) := ⟨rfl, rfl⟩

theorem bump (s : Dev) (a : Agent) {idx : Nat} (hi : idx < 65536) (n : Nat) : s.homesKept (s.bump 8 idx a.val n) :=
  ⟨poolGib_bump s n hi (by omega) (by decide), rfl⟩

theorem dirOf (h : s.homesKept t) (tag : LineTag) : t.dirOf tag = s.dirOf tag := by
  obtain ⟨hpool, hhubs⟩ := h
  unfold Dev.dirOf hub
  rw [hubOf_of_pool hpool, hhubs]

theorem takeEntry (s : Dev) (a : Agent) (who : Nat) (tag : LineTag) : s.homesKept (s.takeEntry a who tag).1 := by
  unfold Dev.takeEntry
  dsimp only
  split
  · exact modAgent ..
  · exact (modAgent ..).trans ((ite (bump _ a (by decide) 1) (refl _)).trans (bump _ a (by decide) 1))

theorem ask (s : Dev) (a : Agent) (tag : LineTag) (w : Waiting) : s.homesKept (s.ask a tag w) := by
  have hentry := takeEntry s a localNo tag
  unfold Dev.ask
  refine ite (refl s) ?_
  split
  · next v hv =>
    rw [hv] at hentry
    exact hentry.trans (modAgent ..)
  · next v hv =>
    rw [hv] at hentry
    exact hentry.trans ((ite (bump _ a (by decide) 1) (refl _)).trans ((modAgent ..).trans (send ..)))

theorem answered (s : Dev) (a : Agent) (tag : LineTag) : s.homesKept (s.answered a tag) := by
  unfold Dev.answered
  dsimp only
  split
  · exact modAgent ..
  · exact (modAgent ..).trans ((modAgent ..).trans (ite (refl _) (ask ..)))

end homesKept

/-- A line that its home has read is in the L3, as it was read (R382, R392). -/
theorem l3Line_homeRead (s : Dev) (t : LineTag) (g : Option Nat) :
    ∃ l, (s.homeRead t g).1.l3Line t = some l ∧ l.data = (s.homeRead t g).2.1 ∧ l.poison = (s.homeRead t g).2.2 := by
  unfold homeRead
  dsimp only
  split
  · exact ⟨_, l3Line_setL3 .., rfl, rfl⟩
  · obtain ⟨l, hl, hdata, -, hpoison⟩ := l3Line_l3Put _ t _ false _
    exact ⟨l, hl, hdata, hpoison⟩

theorem homeData_l3Write (s : Dev) (t : LineTag) (l : L3Line) (off : Nat) (b : List Byte) (hp : l.poison = false) :
    (s.l3Write t l off b 0).homeData t = (patch l.data off b, false) := by
  unfold homeData l3Write
  rw [l3Line_setL3]
  simp [hp, poisonAfter]

/-- A home performs an atomic on its own data, a poisoned line keeping its bytes (R404, R416). -/
theorem homeAtomic_eq (s : Dev) (t : LineTag) (off op x y by_ : Nat) : s.homeAtomic t off op x y by_ =
    if (s.homeRead t none).2.2 then ((s.homeRead t none).1, fieldAt (s.homeRead t none).2.1 off (atomicBytes op), true)
    else ((s.homeRead t none).1.homeWrite t off (leBytes (atomicBytes op)
      (atomicOp false op (fieldAt (s.homeRead t none).2.1 off (atomicBytes op)) x y)) 0 by_, fieldAt (s.homeRead t none).2.1 off (atomicBytes op), false) := rfl

theorem homeAtomic_answer (s : Dev) (t : LineTag) (off op x y by_ : Nat) :
    (s.homeAtomic t off op x y by_).2 = (fieldAt (s.homeRead t none).2.1 off (atomicBytes op), (s.homeRead t none).2.2)
    ∧ ((s.homeRead t none).2.2 = false → (s.homeAtomic t off op x y by_).1.homeData t = (patch (s.homeRead t none).2.1 off
      (leBytes (atomicBytes op) (atomicOp false op (fieldAt (s.homeRead t none).2.1 off (atomicBytes op)) x y)), false)) := by
  obtain ⟨l, hl, hdata, hpoison⟩ := l3Line_homeRead s t none
  rw [homeAtomic_eq]
  generalize s.homeRead t none = r at *
  cases hp : r.2.2 with
  | true => exact ⟨rfl, fun h => absurd h (by decide)⟩
  | false =>
    refine ⟨rfl, fun _ => ?_⟩
    change (homeWriteBy ..).homeData t = _
    rw [homeWriteBy_of_l3 hl, homeData_l3Write _ _ _ _ _ (hpoison.trans hp), hdata]

theorem memStep_homeAtomic (s : Dev) (t : LineTag) (off op x y by_ : Nat) : s.memStep (s.homeAtomic t off op x y by_).1 := by
  rw [homeAtomic_eq]
  split
  · exact memStep_homeRead ..
  · exact memStep_trans (memStep_homeRead ..) (memStep_homeWrite ..)

theorem dirLess.homeAtomic (s : Dev) (t : LineTag) (off op x y by_ : Nat) : s.dirLess (s.homeAtomic t off op x y by_).1 := by
  rw [homeAtomic_eq]
  split
  · exact dirLess.homeRead ..
  · exact (dirLess.homeRead ..).trans (dirLess.homeWrite ..)

theorem quiet_homeAtomic (s : Dev) (t : LineTag) (off op x y by_ : Nat) : s.quiet (s.homeAtomic t off op x y by_).1 := by
  have h := quiet_memClosed reportDram
  have hread : s.quiet (s.homeRead t none).1 := h.homeRead s t
  rw [homeAtomic_eq]
  split
  · exact hread
  · have hwrite (v : Dev) (b : List Byte) : v.quiet (v.homeWrite t off b 0 by_) := h.homeWriteBy v t off b 0 by_
    exact h.trans hread (hwrite (s.homeRead t none).1 _)

end Dev

section
open Dev

variable {a : Agent} {t : LineTag} {m : Msg} {k : ReqKind} {err : Nat} {s : State} {c : Instr} {d : Die}

/-! Requests of caching agents (R404, R405). -/

theorem exec_agentRequest (hexec : exec c s = .next { s with toDev := s.agentRequest m t k a err }) (ha : s.admits t) (hown : 8 ≤ a.val → tagRealm t = false)
    (hb : s.behind m = false) : exec c s = .next { s with toDev := (s.arrived m t a).takeUp t k (.agent a) err } :=
  hexec.trans (congrArg (fun v : Dev => Host.Outcome.next ({ s with toDev := v } : State)) (agentRequest_taken ha hown hb))

/-- A request that its home grants at once: what the directory records, what changes, and what the answer carries. -/
theorem homeGrants_granted {g : Grant} {st : DirState} {o : Option Agent} {l : List Agent}
    (hexec : exec c s = .next { s with toDev := s.agentRequest m t k a err }) (ha : s.admits t) (hown : 8 ≤ a.val → tagRealm t = false)
    (hb : s.behind m = false)
    (htake : ∀ v : Dev, v.dirOf t = s.dirOf t → v.takeUp t k (.agent a) err = (v.takeEpoch t).1.granted t a (v.nextEpoch t) err g st o l) :
    ∃ u, exec c s = .next u ∧ u.dirSays t st o l ∧ (s.memFrame u ∧ (err < 3 → s.onlyMem u))
      ∧ .data a t (s.nextEpoch t) g (((s.receive m).takeEpoch t).1.homeRead t (some err)).2.1 (((s.receive m).takeEpoch t).1.homeRead t (some err)).2.2
        ∈ u.mem.msgs := by
  have hnext := exec_agentRequest hexec ha hown hb
  have hturn := turnStep_arrived s.toDev m t a
  have hread := homeRead_arrived s.toDev m t a (some err)
  have hstep : s.toDev.memStep (s.toDev.arrived m t a) := memStep_trans (memStep_receive ..) (memStep_modHub ..)
  generalize s.toDev.arrived m t a = v at hnext hturn hread hstep
  rw [htake v hturn.dirOf, hturn.nextEpoch] at hnext
  refine ⟨_, hnext, dirSays_granted .., ⟨⟨memStep_trans hstep (memStep_trans (memStep_takeEpoch ..) (memStep_granted ..)), rfl, rfl, rfl, rfl⟩, fun he => ?_⟩, ?_⟩
  · exact memOnly.onlyMem (hturn.memOnly.trans (memOnly.trans (t := (v.takeEpoch t).1) rfl (memOnly_granted (h := he) ..)))
  · rw [← hread]
    exact msg_granted ..

/-- A request that its home acknowledges at once. -/
theorem homeGrants_acked (hexec : exec c s = .next { s with toDev := s.agentRequest m t k a err }) (ha : s.admits t) (hown : 8 ≤ a.val → tagRealm t = false)
    (hb : s.behind m = false)
    (htake : ∀ v : Dev, v.dirOf t = s.dirOf t → v.takeUp t k (.agent a) err = (v.takeEpoch t).1.acked t a (v.nextEpoch t)) :
    ∃ u, exec c s = .next u ∧ u.dirSays t .x (some a) [] ∧ s.onlyMem u ∧ .ack a t (s.nextEpoch t) (s.homeData t).2 ∈ u.mem.msgs := by
  have hnext := exec_agentRequest hexec ha hown hb
  have hturn := turnStep_arrived s.toDev m t a
  have hdata := homeData_arrived s.toDev m t a
  generalize s.toDev.arrived m t a = v at hnext hturn hdata
  rw [htake v hturn.dirOf, hturn.nextEpoch] at hnext
  refine ⟨_, hnext, dirSays_acked .., memOnly.onlyMem (hturn.memOnly.trans (memOnly.trans (t := (v.takeEpoch t).1) rfl (memOnly_acked ..))), ?_⟩
  rw [← hdata]
  exact msg_acked ..

/-! Requests of units without a cache (R398, R404). -/

/-- A unit's request on a line that its home takes requests of is taken up. -/
theorem Dev.dieRequest_taken {s : Dev} (ha : s.admits t) (hown : d.val = 8 ∨ d.val = 9 → tagRealm t = false) :
    s.requestAt id t k (.die d) err = s.takeUp t k (.die d) err := by
  obtain ⟨hok, hr, hs, hbusy⟩ := ha
  have hcore : okFor (ReqBy.die d).isCore t = true := by
    unfold okFor ReqBy.isCore
    rw [hok]
    by_cases h : d.val = 8 ∨ d.val = 9
    · simp [hown h]
    · simp only [not_or] at h
      simp [h]
  rw [requestAt_eq hcore hr hs, queueFull_of_free hbusy, if_neg (by decide)]
  exact arrive_of_free hbusy _

theorem homeGrants_readOnce (ha : s.admits t) (hown : d.val = 8 ∨ d.val = 9 → tagRealm t = false) (ho : ∀ e, s.dirOf t = some e → e.owner = none) :
    ∃ u, exec (.readOnce d t err) s = .next u ∧ (err < 3 → u.dirOf t = s.dirOf t) ∧ (s.memFrame u ∧ (err < 3 → s.onlyMem u))
      ∧ Table.get none u.mem.answers d.val
        = some (.data t ((s.takeEpoch t).1.homeRead t (some err)).2.1 ((s.takeEpoch t).1.homeRead t (some err)).2.2) := by
  have hexec := exec_eq_next (c := .readOnce d t err) (s := s) rfl ((dieRequest_taken ha hown).trans (takeUp_readOnce ho))
  refine ⟨_, hexec, fun he => ?_, ⟨⟨memStep_trans (memStep_takeEpoch ..) (memStep_trans (memStep_homeRead ..) (memStep_answerDie ..)), rfl, rfl, rfl, rfl⟩, fun he => ?_⟩,
    answer_answerDie ..⟩
  · exact ((ownData.homeRead _ t he).dirOf t).trans (dirOf_takeEpoch ..)
  · exact memOnly.onlyMem (memOnly.trans (t := (s.takeEpoch t).1) rfl ((ownData.homeRead _ t he).memOnly.trans (memOnly_answerDie ..)))

theorem homeGrants_writePush {off : Fin 128} {bytes : List Byte} (ha : s.admits t) (hown : d.val = 8 ∨ d.val = 9 → tagRealm t = false)
    (hd : s.dirOf t = none) (hne : bytes ≠ []) (hlen : off.val + bytes.length ≤ 128) :
    ∃ u, exec (.writePush d t off bytes) s = .next u ∧ s.memFrame u ∧ (s.mem.dramErrors = [] → s.onlyMem u ∧ u.dirOf t = none)
      ∧ u.mem = ((((s.takeEpoch t).1.setDir t none).homeWrite t off.val bytes 0 (writerOf d.val 255)).answerDie (.die d) (.pushed t false)).mem := by
  have hexec := exec_eq_next (c := .writePush d t off bytes) (s := s) rfl
    ((if_pos (by simp [hne, hlen])).trans ((dieRequest_taken ha hown).trans (takeUp_writePush hd)))
  refine ⟨_, hexec, ⟨memStep_trans (memStep_takeEpoch ..) (memStep_trans (memStep_setDir ..) (memStep_trans (memStep_homeWrite ..) (memStep_answerDie ..))),
    rfl, rfl, rfl, rfl⟩, fun hquiet => ⟨?_, ?_⟩, rfl⟩
  · have hwrite := (quiet_memClosed reportDram).homeWriteBy ((s.takeEpoch t).1.setDir t none) t off.val bytes 0 (writerOf d.val 255) hquiet
    exact memOnly.onlyMem (memOnly.trans (t := (s.takeEpoch t).1.setDir t none) rfl (hwrite.1.trans (memOnly_answerDie ..)))
  · exact (dirOf_answerDie ..).trans ((dirLess.homeWrite ..).dirOf (dirOf_setDir ..))

/-- What an atomic at a home leaves: its answer, and its directory as it was (R404, R416). -/
theorem homeGrants_atomicHome {off : Fin 128} {op : AtomicCode} {x y : U64} (ha : s.admits t) (hown : d.val = 8 ∨ d.val = 9 → tagRealm t = false)
    (hd : s.dirOf t = none) (hoff : off.val % atomicBytes op.val = 0) :
    let h := ((s.takeEpoch t).1.setDir t none).homeRead t none
    let n := atomicBytes op.val
    let old := fieldAt h.2.1 off.val n
    ∃ u, exec (.atomicHome d t off op x y) s = .next u ∧ s.memFrame u
      ∧ Table.get none u.mem.answers d.val = some (.old t (BitVec.ofNat 64 old) h.2.2)
      ∧ (s.mem.dramErrors = [] → s.onlyMem u ∧ u.dirOf t = none)
      ∧ (h.2.2 = false → u.homeData t = (patch h.2.1 off.val (leBytes n (atomicOp false op.val old x.toNat y.toNat)), false)) := by
  have hexec := exec_eq_next (c := .atomicHome d t off op x y) (s := s) rfl
    ((if_pos hoff).trans ((dieRequest_taken ha hown).trans (takeUp_atomicHome hd)))
  have hnone : ((s.takeEpoch t).1.setDir t none).dirOf t = none := dirOf_setDir ..
  have hstart : s.toDev.memStep ((s.takeEpoch t).1.setDir t none) := memStep_trans (memStep_takeEpoch ..) (memStep_setDir ..)
  have hquiet : s.mem.dramErrors = [] → ((s.takeEpoch t).1.setDir t none).mem.dramErrors = [] := id
  have honly : s.toDev.memOnly ((s.takeEpoch t).1.setDir t none) := rfl
  dsimp only
  generalize (s.takeEpoch t).1.setDir t none = v at *
  obtain ⟨hanswer, hdata⟩ := homeAtomic_answer v t off.val op.val x.toNat y.toNat (writerOf d.val 255)
  refine ⟨_, hexec, ⟨memStep_trans hstart (memStep_trans (memStep_homeAtomic ..) (memStep_answerDie ..)), rfl, rfl, rfl, rfl⟩, ?_, fun hs => ⟨?_, ?_⟩, fun hp => ?_⟩
  · refine (answer_answerDie ..).trans ?_
    rw [hanswer]
  · exact memOnly.onlyMem (honly.trans ((quiet_homeAtomic _ _ _ _ _ _ _ (hquiet hs)).1.trans (memOnly_answerDie ..)))
  · exact (dirOf_answerDie ..).trans ((dirLess.homeAtomic ..).dirOf hnone)
  · exact (homeData_answerDie ..).trans (hdata hp)

/-- A core's request for realm memory is its access fault, and no request (R416, R527). -/
theorem homeGrants_realm (hcore : 8 ≤ a.val) (hr : tagRealm t = true) (hb : s.behind (.readShared a t) = false) :
    ∃ u, exec (.readShared a t err) s = .next u ∧ u.reply = some .accessError ∧ u.dirOf t = s.dirOf t := by
  have hcoreBy : (ReqBy.agent a).isCore = true := decide_eq_true hcore
  have hok : (!okFor (ReqBy.agent a).isCore t) = true := by
    unfold okFor
    rw [hcoreBy, hr]
    simp
  have hrefused : s.agentRequest (.readShared a t) t .readShared a err
      = (({ s.receive (.readShared a t) with reply := some .accessError } : Dev).answered a t).coreFault a := by
    unfold agentRequest requestAt plainError
    rw [hb, if_neg (by decide), if_pos hok, hcoreBy]
    rfl
  have hkept := homesKept.answered { s.receive (.readShared a t) with reply := some .accessError } a t
  refine ⟨_, exec_eq_next (c := .readShared a t err) rfl hrefused, ?_, ?_⟩
  · exact congrArg Dev.reply (if_pos hcore)
  · unfold coreFault
    rw [if_pos hcore]
    exact hkept.dirOf t

end

/-- Settles O35: the home performs each request that needs no snoop at once, records its outcome and answers it under its next epoch, every request
taking one (log entry 34). -/
theorem homeGrants : Obligations.HomeGrants := by
  unfold Obligations.HomeGrants
  refine ⟨fun a t err s hcore hr hb => homeGrants_realm hcore hr hb, fun a t err s ha hown => ?_⟩
  refine ⟨fun hd => ⟨?_, ?_, ?_, ?_, ?_, ?_⟩, ?_, ?_, ?_⟩
  · exact fun hb => homeGrants_granted (c := .readShared a t err) rfl ha hown hb fun v hv => Dev.takeUp_readShared_alone (hv.trans hd)
  · exact fun hb => homeGrants_granted (c := .readOwn a t err) rfl ha hown hb fun v hv => Dev.takeUp_readOwn_alone (.inl rfl) (hv.trans hd)
  · exact fun hb => homeGrants_granted (c := .upgrade a t err) rfl ha hown hb fun v hv => Dev.takeUp_readOwn_alone (.inr rfl) (hv.trans hd)
  · exact fun hb => homeGrants_acked (c := .writeClaim a t) rfl ha hown hb fun v hv => Dev.takeUp_writeClaim (hv.trans hd)
  · exact fun d off bytes hown hne hlen => homeGrants_writePush ha hown hd hne hlen
  · exact fun d off op x y hown hoff => homeGrants_atomicHome ha hown hd hoff
  · rintro sharers he ⟨e, hd, hst, ho, rfl⟩ hnot hb
    obtain ⟨u, hexec, hsays, ⟨-, honly⟩, hmsg⟩ := homeGrants_granted (c := .readShared a t err) rfl ha hown hb
      fun v hv => Dev.takeUp_readShared_joins he (hv.trans hd) ho hnot
    rw [hst] at hsays
    exact ⟨u, hexec, hsays, honly he, hmsg⟩
  · rintro ⟨e, hd, -, ho, hs⟩ hb
    exact homeGrants_acked (c := .upgrade a t err) rfl ha hown hb fun v hv => Dev.takeUp_upgrade (hv.trans hd) ho hs
  · exact fun d hown ho => homeGrants_readOnce ha hown ho

end Sys2Proof.Machine
end
